-- ==== Sys2Proof/Word.lean ====
section
/-! DEFINITION. The words the VX8 manual treats as bits: bytes and 64-bit registers. -/

namespace Sys2Proof

/-- One byte. -/
abbrev Byte := BitVec 8

/-- A control and status register, read and written whole (R32). -/
abbrev Word := BitVec 64

/-- A byte string, byte 0 first. -/
abbrev Bytes := List Byte

end Sys2Proof
end

