-- ==== Sys2Proof/Machine/SMap.lean ====
section
/-! DEFINITION. The one sparse map of the model: a list of key and value pairs with strictly rising keys. Every keyed store of
the machine (memory, register file, tables, maps, rings) is one of these, so that equal contents are equal data. -/

namespace Sys2Proof

/-- A sparse map: pairs of a key and a value, keys strictly rising in the canonical form. -/
abbrev SMap (V : Type) := List (Nat × V)

namespace SMap

variable {V : Type}

/-- The value listed for a key. -/
def find? : SMap V → Nat → Option V
  | [], _ => none
  | (k, v) :: m, a => if a = k then some v else if a < k then none else find? m a

/-- List a value for a key, in key order, replacing what was listed. -/
def insert : SMap V → Nat → V → SMap V
  | [], a, w => [(a, w)]
  | (k, v) :: m, a, w =>
    if a < k then (a, w) :: (k, v) :: m
    else if a = k then (a, w) :: m
    else (k, v) :: insert m a w

/-- List nothing for a key. -/
def erase : SMap V → Nat → SMap V
  | [], _ => []
  | (k, v) :: m, a => if a = k then m else if a < k then (k, v) :: m else (k, v) :: erase m a

/-- The value of a key, `d` where none is listed. -/
def getD (m : SMap V) (a : Nat) (d : V) : V := (m.find? a).getD d

/-- Set a key of a map whose unlisted keys read `d`: the value `d` itself is not listed. -/
def putD [DecidableEq V] (m : SMap V) (a : Nat) (v d : V) : SMap V :=
  if v = d then m.erase a else m.insert a v

/-- Change the value of a key of a map whose unlisted keys read `d`. -/
def modD [DecidableEq V] (m : SMap V) (a : Nat) (d : V) (f : V → V) : SMap V := m.putD a (f (m.getD a d)) d

/-- Change the listed value of a key; nothing where none is listed. -/
def adjust (m : SMap V) (a : Nat) (f : V → V) : SMap V :=
  match m.find? a with
  | some v => m.insert a (f v)
  | none => m

/-- A key is listed. -/
def has (m : SMap V) (a : Nat) : Bool := (m.find? a).isSome

/-- Keep the pairs that satisfy a test. -/
def keep (m : SMap V) (p : Nat → V → Bool) : SMap V := m.filter fun kv => p kv.1 kv.2

/-- Change every listed value. -/
def mapV {W : Type} (m : SMap V) (f : Nat → V → W) : SMap W := m.map fun kv => (kv.1, f kv.1 kv.2)

/-- The listed keys, rising. -/
def keys (m : SMap V) : List Nat := m.map Prod.fst

/-- The listed values, by rising key. -/
def vals (m : SMap V) : List V := m.map Prod.snd

/-- The lowest key from `a` on, below `a + fuel`, that is not listed. -/
def firstFree (m : SMap V) (a : Nat) : Nat → Option Nat
  | 0 => none
  | fuel + 1 => if m.has a then firstFree m (a + 1) fuel else some a

/-- Keys are strictly rising. -/
def rising : SMap V → Bool
  | [] => true
  | [_] => true
  | (k, _) :: (k', v') :: m => decide (k < k') && rising ((k', v') :: m)

/-- The canonical form of a map whose unlisted keys read `d`: keys strictly rising and no value equal to the default. -/
def wfD [DecidableEq V] (m : SMap V) (d : Nat → V) : Bool := m.rising && m.all fun kv => decide (kv.2 ≠ d kv.1)

end SMap
end Sys2Proof
end

