-- ==== Sys2Proof/Machine/Types.lean ====
section
/-! DEFINITION. The plain data that the commands of the VX8 carry and that its state holds: capsules, frames, journal
records, messages between the heads, and the closed sets of names the manual gives. -/

namespace Sys2Proof.Machine

/-- The two variants (R5, R15). -/
inductive Variant | v4a | v8a
deriving DecidableEq, Repr

/-- Head states (R112). -/
inductive HeadState | off | boot | fawn | twin | solo | fenced | thermalHold
deriving DecidableEq, Repr

/-- What an Announce message says of its grandmaster (R45): the attributes that the best master clock algorithm of IEEE 1588-2019
compares, in its order. -/
structure PtpDs where
  prio1 : Nat
  cls : Nat
  accuracy : Nat
  variance : Nat
  prio2 : Nat
  id : Nat
deriving DecidableEq, Repr

/-- Who makes a register access (R14): the management processor, or core `core` of cluster `cluster` of a tile. -/
inductive Requester
  | mp
  | herd (tile cluster core : Nat)
deriving DecidableEq, Repr

/-! Host commands (spec/02) -/

/-- Fused bits of a capsule (R76, R77). -/
inductive Fuse | single | first | second
deriving DecidableEq, Repr

/-- The one SGL descriptor of a capsule (R51 MSDBD, R100, R105, R439). -/
structure Sgl where
  /-- the descriptor type is one the VX8 knows (R105) -/
  known : Bool
  /-- length in bytes that the descriptor declares -/
  len : Nat
  /-- the descriptor names in-capsule data -/
  inCapsule : Bool
  /-- sub type 0xF: the response goes as SEND with Invalidate (R439) -/
  invalidate : Bool
  /-- the host's memory key -/
  rkey : BitVec 32
  /-- the host's address -/
  addr : Word
deriving DecidableEq, Repr

/-- What a capsule holds where it differs from the row of the table that it comes as: nothing; an opcode outside R52, R53 and R54; a
SANACT outside R96. -/
inductive CapAlt
  | asRow
  | opcode (n : Nat)
  | sanact (n : Nat)
deriving DecidableEq, Repr

/-- The two names of a Connect: of the host, and of the subsystem it asks for (R46, R56). -/
structure ConnNqn where
  host : Bytes
  sub : Bytes
deriving DecidableEq, Repr

/-- A command capsule as it reaches the capsule engine of F-die `fdie` by its port `port` on queue pair `qpn`. -/
structure Cap where
  fdie : Nat
  port : Nat
  qpn : Nat
  cntlid : Nat
  qid : Nat
  cid : Nat
  nsid : Nat
  /-- bytes of the submission entry that arrived; below 64 the capsule is short (R105) -/
  bytes : Nat
  fuse : Fuse
  sgl : Sgl
  /-- the in-capsule data that came with it -/
  data : Bytes
  /-- first PSN and count of the capsule's SEND packets (R140) -/
  psn : Nat
  npsn : Nat
  alt : CapAlt
deriving DecidableEq, Repr

/-- A lock that a command needs: a shard, and the ranges of it that one entry covers (R68). -/
abbrev Want := Nat × List (Nat × Nat)

/-- Options of a Store (R86). -/
structure StoreOpts where
  mustExist : Bool
  mustNotExist : Bool
  append : Bool
  compress : Bool
deriving DecidableEq, Repr

/-- A key of a key-value command, 1 to 16 bytes (R84). -/
abbrev Key := Bytes

/-- A command tag (R120). -/
structure Tag where
  cntlid : Nat
  qid : Nat
  cid : Nat
  issue : Nat
deriving DecidableEq, Repr

/-- The tag as its 64-bit number (R120). -/
def Tag.num (t : Tag) : Nat :=
  (t.cntlid % 65536) * 2 ^ 48 + (t.qid % 256) * 2 ^ 40 + (t.cid % 65536) * 2 ^ 24 + t.issue % 2 ^ 24

/-- A status: code type and code (spec/02). -/
structure Status where
  sct : Nat
  sc : Nat
deriving DecidableEq, Repr

/-! Boot, trust and management (spec/14, spec/15) -/

/-- The envelope of a role command without its CODE (R613), and its trailer (R596). `ok`: MAGIC, lengths and reserved bytes are as laid
out. -/
structure RoleEnv where
  ok : Bool
  role : Nat
  keyidx : Nat
  target : Nat
  serial : Bytes
  challenge : Bytes
  body : Bytes
  pub : Bytes
  sig : Bytes
deriving DecidableEq, Repr

/-- CODE of a role command and what its BODY says (R617). The manual lays out the bodies of R613, R621 and R623 only in part. -/
inductive RoleBody
  | getChallenge
  | getCalrow
  /-- bits of INST_DIGEST and its CRC32C that the programming reached (R620) -/
  | install (took : Bytes)
  | setOpkey (slot : Nat) (digest : Bytes)
  | revokeOpkey (slot : Nat)
  | clearEvr
  /-- width for new segments, target width of a reshape, roster, carriers to vacate (R331, R397) -/
  | layout (width target roster evac : Option Nat)
  | epochReinit
  | clearDeferred
  | nsCreate (kv : Bool) (blocks domain : Nat) (media : Bool)
  | nsDelete (nsid : Nat)
  | nsDisable (nsid : Nat)
  | nsEnable (nsid : Nat)
  | c0Resident (nsid : Nat)
  | adminHosts (nqns : List Bytes)
  | snapCreate (nsid : Nat)
  | snapDelete (id : Nat)
  | cloneCreate (snap : Nat) (readOnly : Bool)
  /-- from the descriptor at an address, as source or replica (R474, R484); or the end of one -/
  | replCreate (fdie addr : Nat) (replica : Bool)
  | replEnd (fdie session : Nat)
  | domainCreate (domain : Nat)
  | keyRotate (domain : Nat)
  | domainExport (domain : Nat) (report row : Bytes)
  | domainImport (domain : Nat) (reply : Bytes)
  | enrolModule (serial : Bytes) (wrapGen : Nat)
  | unenrolModule (serial : Bytes)
  | activate
  | thermalResume
  | debugUnlock
  /-- a code outside the table -/
  | unknown (code : Nat)
deriving DecidableEq, Repr

/-- A management request (R634, R635) without its CMD and payload: transport and endpoint it comes from (an MCTP endpoint ID, or UDP
source address and port), IEN, message length; `ok`: MT, FLAGS, STATUS, LEN and reserved bytes are those of a request with its payload. -/
structure MgmtHdr where
  udp : Bool
  ep : Nat
  ien : Nat
  size : Nat
  ok : Bool
deriving DecidableEq, Repr

/-- How a role command reaches the head (R618, R619): by admin opcode 0xC1, or by the management command ROLE. -/
inductive Via
  | nvme (cap : Cap)
  | mgmt (h : MgmtHdr)
deriving DecidableEq, Repr

/-- To whom a role command's outcome goes. -/
inductive RoleFrom
  | nvme (tag : Nat)
  | mgmt (udp : Bool) (ep : Nat)
deriving DecidableEq, Repr

/-- What a start meets (R603): NOR devices that can be read, images whose load ends with a tap fault, rails and memory channels, and
the DDR addresses at which management firmware places the configuration copy, the herd image and the NAND profiles. -/
structure StartIn where
  nor0 : Bool
  nor1 : Bool
  tapFaults : List Nat
  railsOk : Bool
  /-- DIMMs fitted: M-die, channel, GiB, and whether the channel trains (R664) -/
  dimms : List (Nat × Nat × Nat × Bool)
  cfgAt : Nat
  herdAt : Nat
  profAt : Nat
deriving DecidableEq, Repr

/-- Where an uncorrectable memory error arises (R29): the HBM of a C-die, or a DDR channel of an M-die. -/
structure MemAt where
  die : Nat
  chan : Nat
deriving DecidableEq, Repr

/-- A slot header (R591), MAGIC and CRC apart. STATE: 0 EMPTY, 1 WRITTEN, 2 TRIAL, 3 ACTIVE, 4 REJECTED (R592). -/
structure SlotHdr where
  state : Nat
  tries : Nat
  reason : Nat
  gen : Nat
  hseq : Nat
  mfwLen : Nat
  cfgLen : Nat
  hfwLen : Nat
deriving DecidableEq, Repr

/-- A slot of a NOR device: the valid header copies, and the image regions as far as they are programmed (R590, R591). -/
structure NorSlot where
  hdr0 : Option SlotHdr
  hdr1 : Option SlotHdr
  mfw : Bytes
  cfg : Bytes
  hfw : Bytes
deriving DecidableEq, Repr

/-- OTP fields that a command programs (R584): INST_DIGEST with its CRC32C, INST_LOCK, the thermometers by value. -/
structure Otp where
  inst : Bytes
  instLock : Bool
  mfwMin : Nat
  cfgMin : Nat
  hfwMin : Nat
  wrapGen : Nat
deriving DecidableEq, Repr

/-- How far a start has come (R603 to R606, R647, R664): not begun; the boot ROM waits for an image; in recovery; the calibration row
failed; not installed; held by a latched trip; resumed from it; every step done; a rail failed. -/
inductive BootPhase
  | idle | waitImage | recovery | rowFailed | uninstalled | tripWait | resumed | loaded | railFail
deriving DecidableEq, Repr

/-- An image transfer that is open (R637, R638): whose it is, the image being received with its LENGTH, those received with their
lengths, and the bytes for the boot ROM. -/
structure Xfer where
  udp : Bool
  ep : Nat
  kind : Nat
  len : Nat
  kinds : List (Nat × Nat)
  buf : Bytes
deriving DecidableEq, Repr

/-- A role command that control-plane firmware carries out (R618): its envelope, its outcome, the log sequence number below which its
records lie, and the TAG of its ROLE_REQ once that is sent. -/
structure RoleJob where
  src : RoleFrom
  code : Nat
  role : Nat
  keyidx : Nat
  target : Nat
  serial : Bytes
  msg : Bytes
  result : Nat
  lsn : Nat
  tag : Option Nat
deriving DecidableEq, Repr

/-- A module in array metadata (R228, R622): its WRAPGEN, and its copy of the AWK. -/
structure ModuleRec where
  wrapGen : Nat
  awk : Option Bytes
deriving DecidableEq, Repr

/-- The layout that the installer has set (R331, R397). -/
structure Layout where
  width : Option Nat
  target : Option Nat
  roster : Option Nat
  evac : Option Nat
deriving DecidableEq, Repr

/-- A Namespace Attachment that detaches, under way (R101): when it was accepted, and by which command. -/
structure Detach where
  nsid : Nat
  ctrls : List Nat
  at_ : Nat
  tag : Nat
  side : Nat
deriving DecidableEq, Repr

/-- A mark of a lost block or key (R82): the next SEQ of each side when the loss was found (R303 step 5). Records from there on are
younger than the loss. -/
structure Mark where
  next0 : Nat
  next1 : Nat
deriving DecidableEq, Repr

/-- One entry of log page 0xC0 (R83). `kind` 0 LBA range, 1 key, 2 overflow. -/
structure DefEnt where
  seq : Nat
  nsid : Nat
  kind : Nat
  key : Key
  slba : Nat
  count : Nat
  hint : Bool
  lostBy : Nat
deriving DecidableEq, Repr

/-- Changes of array metadata for which R295 gives no record of their own. -/
inductive MetaChange
  | opkey (slot : Nat) (digest : Option Bytes)
  | admins (nqns : List Bytes)
  | enrolled (serial : Bytes) (m : Option ModuleRec)
  | layout (l : Layout)
  | clearDeferred
  | epochInit
  /-- a namespace is attached to controllers; a detach from controllers is accepted, or done (R101) -/
  | attach (nsid : Nat) (ctrls : List Nat)
  | detach (d : Detach)
  | detached (d : Detach)
  /-- a Sanitize has completed, or failed; the failure mode is left (R97, R99) -/
  | sanEnd (failed : Bool)
  | sanExit
  /-- acknowledged writes that a start found lost: the number of the run, GEN and entries of log page 0xC0 after it, blocks and keys
  marked by it (R81 to R83) -/
  | losses (run gen : Nat) (entries : List DefEnt) (lbas : List (Nat × Mark)) (keys : List ((Nat × Key) × Mark))
  /-- a domain's wrapped key record, its generations, and whether WGEN moves to the last of them (R224, R227) -/
  | domKey (domain : Nat) (wrapped : Bytes) (gens : List Nat) (rotate : Bool)
deriving DecidableEq, Repr

/-- What a host command asks, its operands with it (R52 to R54). A fused pair is one entry (R76). -/
inductive HostOp
  | flush
  | write (slba nlb : Nat)
  | read (slba nlb : Nat)
  | compare (slba nlb : Nat)
  | compareAndWrite (slba nlb writeCid : Nat)
  | writeZeroes (slba nlb : Nat) (deac : Bool)
  | deallocate (ranges : List (Nat × Nat))
  | verify (slba nlb : Nat)
  | store (key : Key) (vlen : Nat) (opts : StoreOpts)
  | retrieve (key : Key) (buf : Nat)
  | list (key : Key) (buf : Nat)
  | delete (key : Key)
  | exist (key : Key)
  | abort (qid cid : Nat)
  | asyncEvent
  | keepAlive
  | disconnect
  | propGet (off : Nat)
  | propSet (off val : Nat)
  | getLog (lid off len : Nat) (rae : Bool)
  | identify (cns cntid : Nat)
  | setFeature (fid val : Nat) (save : Bool)
  | getFeature (fid : Nat)
  | nsCreate (kv : Bool) (blocks domain : Nat) (mediaDur : Bool)
  | nsDelete
  | attach (ctrls : List Nat)
  | detach (ctrls : List Nat)
  | format (lbaf ses : Nat)
  /-- SANACT (R96) -/
  | sanitize (act : Nat)
  /-- an in-band role command (R619), and the reply of the last one -/
  | role (env : RoleEnv) (body : RoleBody)
  | roleReply (len : Nat)
  | attestNonce (nonce : Bytes)
  | attestReport (len : Nat)
  | attestCalrow (len : Nat)
  /-- a command already judged at its arrival, its queue's Connect among them -/
  | judged
deriving DecidableEq, Repr

/-- Where one block, or one piece of a value, of a read comes from (R138, R171, R258). -/
inductive Piece
  /-- bytes of an unreleased journal record -/
  | bytes (b : Bytes)
  /-- chunk number 0 (R171) -/
  | zero (len : Nat)
  /-- a stored chunk of a dedup domain, to be read from the media: domain, chunk number, length -/
  | chunk (domain cn len : Nat)
  /-- a marked block or key (R82) -/
  | lost (len : Nat)
deriving DecidableEq, Repr

/-- A ledger phase (R142). -/
inductive Phase | readRequests | readData | response
deriving DecidableEq, Repr

/-- Progress of a ledger message: not sent, sent, acknowledged (R142). -/
inductive Led | idle | sent | acked
deriving DecidableEq, Repr

/-- A read point (R142): journal sequence numbers of both sides and the map epoch. -/
structure ReadPoint where
  seq0 : Nat
  seq1 : Nat
  mapEpoch : Nat
deriving DecidableEq, Repr

/-- One accepted or arriving host command. -/
structure Cmd where
  tag : Tag
  fdie : Nat
  port : Nat
  qpn : Nat
  nsid : Nat
  op : HostOp
  cls : Nat
  sgl : Sgl
  /-- time base at the arrival of the capsule (R64, R140) -/
  arrival : Nat
  /-- the CAPSULE message is acknowledged, or the head is in SOLO: the command is accepted (R140) -/
  accepted : Bool
  /-- epoch at its acceptance (R143) -/
  epoch : Nat
  /-- the locks it needs, in ascending order (R68), whether exclusively (R69), and how many of them it has asked for -/
  wants : List Want
  excl : Bool
  asked : Nat
  fetchLedger : Led
  /-- RDMA READ requests have been sent (R142) -/
  fetching : Bool
  /-- write or compare data in staging -/
  data : Option Bytes
  /-- in-capsule data of one command of a fused pair, of the first or the second, where the other's is fetched (R76, R100) -/
  part : Option (Bool × Bytes)
  /-- its journal append has begun (R143, R78); the sequence numbers of its records -/
  begun : Bool
  seqs : List Nat
  /-- it waits for journal space, dump reserve or journal blocks (R283) -/
  admitWait : Bool
  /-- pieces its read resolved to, with its read point -/
  pieces : Option (List Piece)
  point : ReadPoint
  dataLedger : Led
  /-- read data has been sent (R78) -/
  sentData : Bool
  /-- the completion to send: status and Dword 0; the second of a fused pair (R76) -/
  result : Option (Status × Nat)
  result2 : Option (Status × Nat)
  respLedger : Led
  /-- its queue is gone: it completes internally, and no completion is sent (R106) -/
  mute : Bool
  /-- when its RDMA READ requests left, and the intervals that R66 leaves out of its latency -/
  fetchAt : Nat
  skips : List (Nat × Nat)
deriving DecidableEq, Repr

/-- The header of a journal record (R143) and its data. -/
structure JRec where
  side : Nat
  kv : Bool
  mediaDur : Bool
  zeroes : Bool
  dealloc : Bool
  part : Nat
  parts : Nat
  epoch : Nat
  seq : Nat
  tag : Nat
  nsid : Nat
  key : Key
  cls : Nat
  /-- first LBA, or value length for a key-value record -/
  slba : Nat
  /-- LBAs that a record without data covers -/
  nlb : Nat
  arrival : Nat
  append : Nat
  data : Bytes
deriving DecidableEq, Repr

/-- A journal record held in HBM, with what has become of it. -/
structure JEnt where
  r : JRec
  /-- byte offset in its half (R141) -/
  off : Nat
  /-- covered by an acknowledgement of the partner (R141) -/
  acked : Bool
  /-- its intent post has completed (R155) -/
  intent : Bool
  /-- copies of it that have been sent to journal blocks (R157, R280) -/
  copies : Nat
  /-- blocks of the media that hold it programmed (R280) -/
  placed : Nat
  /-- its destage has begun (R193) -/
  destaging : Bool
  /-- the transaction of its map changes: 0 none, else its number -/
  txn : Nat
  /-- its transaction is durable, and its packs are placed (R282) -/
  durable : Bool
  /-- MAPUPD messages of it not yet acknowledged (R138) -/
  updates : Nat
  /-- no synchronous session waits for its JACK (R488) -/
  jack : Bool
  /-- time from which its programming lag counts (R155) -/
  since : Nat
deriving DecidableEq, Repr

/-- One range-lock entry (R68 to R73), in the order of its request. -/
structure LockEnt where
  tag : Nat
  side : Nat
  fdie : Nat
  shard : Nat
  spans : List (Nat × Nat)
  excl : Bool
  cls : Nat
  /-- it holds one of the entries of its tile (R73) -/
  entered : Bool
  granted : Bool
  /-- its command has begun its append (R72) -/
  begun : Bool
  /-- withdrawn under R72: waits ahead of classes 1 to 7 -/
  withdrawn : Bool
  /-- number of its first grant, 0 before it -/
  order : Nat
  /-- since when an earlier class-0 command has held a class-0 request back (R66) -/
  behind : Option Nat
deriving DecidableEq, Repr

/-- The first capsule of a fused pair, which waits for its second (R77); aborted: it has completed as R78 says. -/
structure Half where
  cap : Cap
  slba : Nat
  nlb : Nat
  aborted : Bool
deriving DecidableEq, Repr

/-- A submission queue (R59, R120). -/
structure Queue where
  cntlid : Nat
  qid : Nat
  cls : Nat
  size : Nat
  qpn : Nat
  fdie : Nat
  port : Nat
  issue : Nat
  /-- a first command of a fused pair waits for its second (R77) -/
  half : Option Half
deriving DecidableEq, Repr

/-- A host controller (R47 to R58). -/
structure Ctrl where
  cntlid : Nat
  nqn : Bytes
  /-- keep-alive timeout in ms, 0 for none, and when the timer last restarted (R57, R60) -/
  kato : Nat
  kaAt : Nat
  cc : Nat
  csts : Nat
  /-- stored feature values (R55) -/
  features : SMap Nat
  /-- outstanding Asynchronous Event Requests (R51 AERL) -/
  aers : List Tag
  /-- events masked until their log page is read (R81) -/
  masked : List Nat
  /-- notices waiting for a request: type, information, log page -/
  notices : List (Nat × Nat × Nat)
  /-- namespaces attached to it -/
  attached : List Nat
  /-- namespaces changed since the list was read (log page 0x04) -/
  changed : List Nat
  /-- attestation nonce (R612) -/
  nonce : Option Bytes
  /-- reply of the last role envelope it sent (R619) -/
  reply : Option Bytes
  /-- a discovery controller (R50) -/
  disc : Bool
deriving DecidableEq, Repr

/-! Metadata (spec/06) -/

/-- A value entry (R256): up to three references inline, else the first of its list pages. -/
structure ValEnt where
  key : Key
  vlen : Nat
  nchunk : Nat
  refs : List Nat
  list : Nat
deriving DecidableEq, Repr

/-- A chunk-table entry (R258). `state`: 0 unallocated, 1 LIVE, 2 DYING, 3 FREE. -/
structure ChunkEnt where
  pack : Nat
  cnt0 : Int
  cnt1 : Int
  len : Nat
  member : Nat
  state : Nat
deriving DecidableEq, Repr

/-- A fingerprint-index entry (R260). -/
structure FpEnt where
  fp : Bytes
  ref : Nat
  len : Nat
deriving DecidableEq, Repr

/-- The content of a metadata page (R250, R254 to R260). Entries not listed read as R252 states. -/
inductive PageBody
  | map (refs : SMap Nat)
  | leaf (next : Nat) (ents : List ValEnt)
  | interior (level : Nat) (ents : List (Key × Nat))
  | list (refs : SMap Nat)
  | chunk (ents : SMap ChunkEnt)
  | bucket (next : Nat) (ents : List FpEnt)
deriving DecidableEq, Repr

/-- A metadata page with the highest LSN of each side whose change it holds. -/
structure Page where
  lsn0 : Nat
  lsn1 : Nat
  body : PageBody
deriving DecidableEq, Repr

/-- A directory entry (R251). -/
structure DirEnt where
  maddr : Nat
  crc : Nat
  lsn0 : Nat
  lsn1 : Nat
deriving DecidableEq, Repr

/-- A member block of a segment (R275). -/
structure Member where
  carrier : Nat
  die : Nat
  block : Nat
deriving DecidableEq, Repr

/-- Segment states (R276). -/
inductive SegState | empty | opened | sealed | collecting | reclaim
deriving DecidableEq, Repr

/-- A segment descriptor (R275). `kind`: 0 data, 1 metadata, 2 checkpoint. -/
structure SegDesc where
  segid : Nat
  kind : Nat
  state : SegState
  width : Nat
  slc : Bool
  next : Nat
  stripes : Nat
  valid : Nat
  sealedAt : Nat
  relocAt : Nat
  members : List Member
deriving DecidableEq, Repr

/-- A transaction item (R296). -/
inductive Item
  | mapset (page n ref : Nat)
  | count (ref side : Nat) (delta : Int)
  | alloc (ref maddr members ulen : Nat)
  | valset (leaf : Nat) (v : ValEnt)
  | keydel (leaf : Nat) (key : Key)
  | list (page first : Nat) (refs : List Nat)
  | fpadd (ref len : Nat) (fp : Bytes)
  | fpdel (ref len : Nat) (fp : Bytes)
  | gencnt (domain gen : Nat) (delta : Int)
  | pageimg (page : Nat) (body : PageBody)
deriving DecidableEq, Repr

/-- A domain record (R223, R259, R260, R295): live generations, packs counted under each, FPX_BITS, next chunk numbers. The numbers
below these are given, or set aside to be given (log entry 200). -/
structure DomRec where
  gens : List Nat
  /-- the lowest generation number never used (R223) -/
  nextGen : Nat
  packs : SMap Int
  fpxBits : Nat
  next0 : Nat
  next1 : Nat
deriving DecidableEq, Repr

/-- Snapshot states (R465). -/
inductive SnapState | pending | ready | deleting
deriving DecidableEq, Repr

/-- A snapshot of a namespace: its epoch and state, and the side whose head watches it. -/
structure Snap where
  epoch : Nat
  state : SnapState
  side : Nat
deriving DecidableEq, Repr

/-- A namespace record (R254, R295, R466, R471, R101, R102). -/
structure NsRec where
  kv : Bool
  blocks : Nat
  domain : Nat
  mediaDur : Bool
  /-- root of the key index, and the INDEX counter -/
  root : Nat
  index : Nat
  /-- disabled by a role command (R101) -/
  disabled : Bool
  /-- a removal under R101: time of acceptance, and the tag of the removing command (none: a role command) -/
  removing : Option (Nat × Option Nat)
  /-- the removal deletes it -/
  deleting : Bool
  /-- Format NVM in progress: SES and tag (R95) -/
  formatting : Option (Nat × Option Nat)
  /-- units done and total of a Format or of a release -/
  done : Nat
  total : Nat
  /-- deleted, and its map not yet released (R102) -/
  releasing : Bool
  /-- the snapshot it is based on: NSID and SNAPID (R471), and write protection -/
  base : Option (Nat × Nat)
  readOnly : Bool
  /-- a replica of a session (R487) -/
  replica : Bool
  /-- residence of R272 has been asked for -/
  c0 : Bool
  /-- side whose head runs its Format or its removal -/
  runner : Nat
  /-- Format (R94): 0 deallocating, 1 erasing, 2 done; chunks that only the namespace refers to, and segments that hold them (SES 1) -/
  phase : Nat
  wipeRefs : List Nat
  wipeSegs : List Nat
  /-- its snapshots by SNAPID (R463, R465) -/
  snaps : SMap Snap
  /-- asynchronous replication (R486): cycle, snapshots of the last cycle and of this one -/
  cycle : Option (Nat × Option Nat × Nat)
deriving DecidableEq, Repr

/-- Bodies of metadata-log records (R295). A chunk freed or revived is a STATE record; `nsrec` with none records a
completed release. -/
inductive LogBody
  | txn (jside : Option Nat) (shard sgen jseq : Nat) (items : List Item)
  | page (pageid : Nat) (d : DirEnt)
  | segment (d : SegDesc)
  | reloc (chunk old new oldGen newGen : Nat)
  | state (ref st : Nat)
  | progress (op nsid done total : Nat)
  | nsrec (nsid : Nat) (r : Option NsRec)
  | domrec (domain : Nat) (r : DomRec)
  | shard (sh owner sgen : Nat)
  | ckptBegin (redo0 redo1 : Nat)
  | ckptEnd (num beginLsn firstSeg pages crc : Nat)
  | link (blocks : List Nat)
  | jblock (addr : Nat) (opened : Bool)
  /-- a block enters the pool of a side; none: it is retired -/
  | pool (addr : Nat) (side : Option Nat)
  | status (readOnly : Bool) (spare : Nat)
  | pad (len : Nat)
  /-- a change of array metadata for which R295 names no record -/
  | change (c : MetaChange)
deriving DecidableEq, Repr

/-- A metadata-log record (R294). -/
structure LogRec where
  side : Nat
  lsn : Nat
  epoch : Nat
  txn : Nat
  fin : Bool
  body : LogBody
deriving DecidableEq, Repr

/-! The Chamois link (spec/03) -/

/-- The frames of a message, or the one frame of a control command, as they arrive on a group (R117): the lane of each, and its 256 bytes.
What the message says is the operand beside it, since the manual lays its payload out only in part (log entry 13). -/
structure ChlHdr where
  group : Nat
  frames : List (Nat × Bytes)
deriving DecidableEq, Repr

/-- Heartbeat payload (R127). -/
structure Heartbeat where
  side : Nat
  state : HeadState
  epoch : Nat
  variant : Variant
  formatVer : Nat
  health : Nat
  count : Nat
  echo : Nat
  sent : Nat
deriving DecidableEq, Repr

/-- A capsule mirror record (R140). -/
structure MirrorCap where
  tag : Tag
  op : HostOp
  fdie : Nat
  port : Nat
  qpn : Nat
  nsid : Nat
  sgl : Sgl
  data : Bytes
  arrival : Nat
  psn : Nat
  npsn : Nat
  cls : Nat
  /-- as in a command's own record: in-capsule data of one command of a fused pair -/
  part : Option (Bool × Bytes)
  /-- epoch of the message that brought it (R143); its sender's is the same (R162) -/
  epoch : Nat
  /-- outcome of a check that has failed it at its arrival -/
  res : Option (Status × Nat)
  res2 : Option (Status × Nat)
deriving DecidableEq, Repr

/-- A transmit ledger record (R142). -/
structure LedgerRec where
  tag : Nat
  qpn : Nat
  psn : Nat
  count : Nat
  phase : Phase
  point : ReadPoint
  /-- outcome that the response packets of the phase carry -/
  res : Option (Status × Nat)
  res2 : Option (Status × Nat)
deriving DecidableEq, Repr

/-- The exported part of a queue-pair context (R442). -/
structure QpExport where
  qpn : Nat
  /-- local port, 0 to 3 -/
  port : Nat
  remoteQpn : Nat
  ipv6 : Bool
  admin : Bool
  /-- path MTU in bytes -/
  mtu : Nat
  dstIp : BitVec 128
  srcIp : BitVec 128
  dstMac : BitVec 48
  srcPort : Nat
  cls : Nat
  /-- local ACK timeout exponent: 4.096 µs · 2^timeout -/
  timeout : Nat
  retries : Nat
  rnrRetries : Nat
  /-- outstanding RDMA READs toward the host -/
  ord : Nat
  cntlid : Nat
  qid : Nat
  /-- next PSN expected from and next PSN sent to the host -/
  epsn : Nat
  spsn : Nat
  /-- keep-alive deadline of an admin queue -/
  kadl : Nat
deriving DecidableEq, Repr

/-! Received frames (spec/09) -/

/-- What the RDMA engine reads of a RoCEv2 packet (R446, R449, R457): the front port, ICRC, source, ECN 0b11, numbers, and whether
its opcode is one of R438. -/
structure RoceHdr where
  port : Nat
  icrcOk : Bool
  srcIp : BitVec 128
  srcPort : Nat
  ce : Bool
  qpn : Nat
  psn : Nat
  opOk : Bool
deriving DecidableEq, Repr

/-- What an Acknowledge packet says (R147, R450, R451). -/
inductive AckKind | ack | nakSequence | rnrNak | nakInvalid | nakAccess | nakOperational
deriving DecidableEq, Repr

/-- A RoCEv2 packet from a host (R438). `first` and `last`: its place in its message. -/
inductive RocePkt
  | send (first last : Bool) (len : Nat)
  | resp (first last : Bool) (bytes : Bytes)
  | ack (k : AckKind)
  | cnp
deriving DecidableEq, Repr

/-- Buffer pools of a front port (R420). -/
inductive Pool | control | c0 | lossless | lossy
deriving DecidableEq, Repr

/-- Where a buffered frame goes (R417): to a queue pair, to the Pronghorn engine, to the address responder. -/
inductive RxDest
  | roce (qpn : Nat)
  /-- ECN 0b11, length field of the UDP header, UDP payload -/
  | pronghorn (ce : Bool) (len : Nat) (payload : Bytes)
  | address
deriving DecidableEq, Repr

/-! The Pronghorn transport and replication (spec/10) -/

/-- A session descriptor (R474). -/
structure SessDesc where
  session : Nat
  ipv6 : Bool
  sync : Bool
  strict : Bool
  paths : Nat
  ports : Nat
  cls : Nat
  txEntry : Nat
  rxEntry : Nat
  tile : Nat
  raddr : BitVec 128
  rmac : BitVec 48
  sportBase : Nat
  txLoad : Nat
  rxLoad : Nat
  nsid : Nat
  rnsid : Nat
deriving DecidableEq, Repr

/-- A Pronghorn header without its reserved bytes (R475). `flags`: bit 0 LAST, bit 1 RETX. -/
structure PgHdr where
  ver : Nat
  ty : Nat
  flags : Nat
  path : Nat
  session : Nat
  msgno : Nat
  mlen : Nat
  offset : Nat
  plen : Nat
  ce : Nat
  iv : Bytes
deriving DecidableEq, Repr

/-- Item of a MAPS message (R483): a block with its FPLIST index (none: chunk number 0), or a key with those of its value (none: the
key is deleted). -/
inductive MapIt
  | block (lba : Nat) (idx : Option Nat)
  | value (key : Key) (vlen : Nat) (idxs : Option (List Nat))
deriving DecidableEq, Repr

/-- Rate state of R447, of a queue pair or of a path; rates in Mb/s. -/
structure Cc where
  rate : Rat
  target : Rat
  alpha : Rat
  lastDec : Nat
  lastInc : Nat
  lastAlpha : Nat
  lastCnp : Option Nat
  steps : Nat
deriving DecidableEq, Repr

/-- Whose rate R447 adjusts: a queue pair, or a path of a session (R482). -/
inductive CcWho
  | qp (qpn : Nat)
  | path (fdie session path : Nat)
deriving DecidableEq, Repr

/-- What a LOCK message asks (R139). -/
inductive LockMsg
  | request (shard : Nat) (spans : List (Nat × Nat)) (excl : Bool) (cls : Nat)
  /-- `full`: F ≤ RESV on the owner's side (R290) -/
  | grant (shard : Nat) (full : Bool)
  | free (shard : Nat)
  /-- the held entries and waiters of a moved shard, in order -/
  | move (shard : Nat) (entries : List LockEnt)
deriving DecidableEq, Repr

/-- A map change as a MAPUPD carries it (R138, R270). -/
inductive MapChange
  /-- an item of a durable transaction, the page it changes, the shard's SGEN, side and LSN of its record, and the journal record
  (side and SEQ) that causes it -/
  | item (pageid : Nat) (it : Item) (sgen side lsn : Nat) (rec : Option (Nat × Nat))
  /-- a relocation or a change of chunk state by a record of its own (R198, R285) -/
  | log (body : LogBody) (side lsn : Nat)
  /-- the partner has written page `pageid` with the changes of side `side` up to `lsn` (R270) -/
  | pageNotice (pageid side lsn : Nat) (d : DirEnt)
  /-- oldest read-point map epoch of the sender (R287) -/
  | readPoint (epoch : Nat)
deriving DecidableEq, Repr

/-- Content of a SYNC message (R159, R229). -/
inductive SyncBody
  /-- addresses of the serving head's twin ports (port, kind, address); next journal SEQ, next LSN and last log page of the
  joiner's side -/
  | addresses (l : List (Nat × Nat × BitVec 128)) (nextSeq nextLsn lastLogPage : Nat)
  /-- a nonce for the joiner; its report and calibration row, none where it holds the AWK; the AWK wrapped for it with the ciphertext
  of the encapsulation (R229, R622) -/
  | nonce (n : Bytes)
  | report (r : Option (Bytes × Bytes))
  | awk (ct wrapped : Bytes)
  /-- an unreleased journal record copied into the mirror half -/
  | journal (off : Nat) (r : JRec)
deriving DecidableEq, Repr

/-- The messages of the Chamois link (R119). -/
inductive ChlMsg
  | heartbeat (h : Heartbeat)
  /-- offset and round trip of the exchange as the receiver measures them, and whether the sender has a locked source -/
  | time (offset : Int) (roundTrip : Nat) (hasSource : Bool)
  | notice (cause : Nat)
  | handover (ports shards : List Nat)
  | shardset (owners : BitVec 256) (gen : Nat)
  | capsule (c : MirrorCap)
  | ledger (l : LedgerRec)
  /-- a journal record at a byte offset of the mirror half; whether its own CRC is right (R144) -/
  | jwrite (off : Nat) (r : JRec) (crcOk : Bool)
  /-- the sender has done with the records of `side` up to `seq` that it destages (R282) -/
  | release (side seq : Nat)
  | lock (m : LockMsg)
  | mapupd (m : MapChange) (lsn : Nat)
  | sync (b : SyncBody)
  /-- a shadow context to create, with the controller and queue it carries, or the number of one to delete -/
  | shadowqp (create : Bool) (q : QpExport) (k : Option Ctrl) (u : Option Queue)
deriving DecidableEq, Repr

/-- A message kept by its sender until it is acknowledged (R123): SEQ of its first frame, its frames, when it was first sent (R162). -/
structure TxMsg where
  seq : Nat
  frames : Nat
  vl : Nat
  cls : Nat
  epoch : Nat
  tag : Nat
  msg : ChlMsg
  sentAt : Nat
deriving DecidableEq, Repr

/-- A message frame received whose message has not taken effect: part of it, or something before it, is missing (R123). -/
structure RxFrame where
  seq : Nat
  bytes : Bytes
  msg : ChlMsg
deriving DecidableEq, Repr

/-- One lane of a Chamois group or a Sundas port (R125, R324). -/
structure Lane where
  /-- times of the CRC errors of the last millisecond -/
  errs : List Nat
  retired : Bool
  /-- since when a retired lane has trained without error -/
  cleanSince : Nat
deriving DecidableEq, Repr

/-- Why a head claims the carriers (R133, R114, R115, R137, R159). A takeover: its cause, t0 of R150, and when the fault was detected
(R152). -/
inductive ClaimWhy
  /-- takeover: cause, t0 of R150, found by silence -/
  | takeover (cause t0 detected : Nat)
  | soloStart
  | pairStart
  | rejoin
  /-- ports and shards of the HANDOVER -/
  | handoverIn (t0 : Nat) (ports shards : List Nat)
deriving DecidableEq, Repr

/-- A claim in progress (R133). -/
structure Claim where
  why : ClaimWhy
  expect : Nat
  holders : Nat
  begun : Nat
  applied : List Nat
  answered : List Nat
  /-- highest epoch a reply has reported (R114) -/
  highest : Nat
deriving DecidableEq, Repr

/-! The Sundas fabric (spec/07) -/

/-- A frame of a bridge as it arrives (R320, R321): its port and lane, the header fields and the payload that no operand of its command
gives, and the CRC32C at its end. -/
structure SfbHdr where
  cp : Nat
  lane : Nat
  vc : Nat
  cls : Nat
  seq : Nat
  ack : Nat
  /-- returned credits: channel and count -/
  credit : Option (Nat × Nat)
  addr : Nat
  payload : Bytes
  crc : Nat
deriving DecidableEq, Repr

/-- What an attach learns of one die (R312 to R314, R338): from its parameter page and unique ID, and the bridge's answer to its
PROFILE. Times in µs. -/
structure DiePage where
  die : Nat
  /-- a copy of the parameter page passed its CRC -/
  crcOk : Bool
  manuf : Bytes
  model : Bytes
  uid : Bytes
  planes : Nat
  planeData : Nat
  planeSpare : Nat
  pages : Nat
  blocks : Nat
  tr : Nat
  tprog : Nat
  tbers : Nat
  profileOk : Bool
  /-- blocks with a factory bad-block marker -/
  bad : List Nat
deriving DecidableEq, Repr

/-! Array metadata, dumps, and what recovery reads from the media (R281, R303, R672) -/

/-- A dump as its blocks hold it: what their headers say, and the records of each half (R672). -/
structure DumpImage where
  dumpid : Nat
  epoch : Nat
  time : Nat
  warm : Bool
  own : List JRec
  mirror : List JRec
  final : Bool
deriving DecidableEq, Repr

/-- Background Sanitize (R96 to R99). -/
structure San where
  crypto : Bool
  tag : Option Nat
  done : Nat
  total : Nat
  /-- 0 waiting for earlier commands, 1 erasing, 2 this head's part is done; the partner has reported its own part -/
  phase : Nat
  partnerDone : Bool
deriving DecidableEq, Repr

/-- A frozen copy in a freeze tree (R466). -/
structure Frozen where
  nsid : Nat
  page : Nat
  epoch : Nat
  copy : Nat
deriving DecidableEq, Repr

/-- Array metadata that the log's records and the chapters on host errors, snapshots, trust and carriers give the pair. -/
structure ArrayMeta where
  nss : SMap NsRec
  doms : SMap DomRec
  /-- SGEN and owner of the shards -/
  sgen : SMap Nat
  /-- log page 0xC0: GEN, entries, next SEQ; marked blocks by `nsid * 2^64 + lba` and marked keys (R82, R83) -/
  defGen : Nat
  deferred : List DefEnt
  /-- starts that have found losses (R83) -/
  lossRuns : Nat
  markedLbas : SMap Mark
  markedKeys : List ((Nat × Key) × Mark)
  /-- detaches under way (R101) -/
  detaches : List Detach
  admins : List Bytes
  frozen : List Frozen
  /-- unique IDs of dies named in carrier records, with the losses recorded (R312, R378) -/
  uids : List Bytes
  /-- modules enrolled (R228, R622), by serial as a little-endian number; operator digests (R621); wrapped key records (R227); layout -/
  modules : SMap ModuleRec
  opkeys : SMap Bytes
  domKeys : SMap Bytes
  layout : Layout
  readOnly : Bool
  sanitize : Option San
  sanFailed : Bool
deriving DecidableEq, Repr

/-- A stripe-journal entry (R392). `kind`: 1 REBUILD, 2 RESHAPE, 3 VX5_CKPT, 4 DONE, 5 RESTATE. -/
structure SjEnt where
  kind : Nat
  member : Nat
  seg : Nat
  dest : Nat
  stripe : Nat
  target : Nat
  time : Nat
deriving DecidableEq, Repr

/-- What the media hold of one side (R300, R301, R303): its newest valid anchor, its log from the lower REDO to its end, the blocks
and the next page of that log, its journal blocks with the records in each, its dump blocks (R672) and its stripe journal. -/
structure SideImage where
  ckpt : Nat
  redo0 : Nat
  redo1 : Nat
  log : List LogRec
  blocks : List (Nat × List Nat)
  nextPage : Nat
  /-- address of the last durable page of its log -/
  lastPage : Nat
  jblks : List (Nat × List (Nat × Nat))
  dump : Option DumpImage
  sj : List SjEnt
  /-- a log record fails on every copy before the log's end (R308) -/
  badLog : Bool
deriving DecidableEq, Repr

/-- What a start, a takeover or a rejoin reads from the media. `arr`, `dir`, `segs`, `owners`, `pools` and `retired` are the content of
the newest checkpoints; `pages` the pages that the directory names after step 4 of R303; `recs` the records of the journal blocks
and `intents` the headers of the intent rings, each as a record whose `data` has the length that BLOCKS gives and no meaning. -/
structure MediaImage where
  s0 : SideImage
  s1 : SideImage
  arr : ArrayMeta
  dir : SMap DirEnt
  segs : SMap SegDesc
  pools : SMap Nat
  retired : List Nat
  pages : SMap Page
  recs : List JRec
  intents : List JRec
deriving DecidableEq, Repr

/-! Event recorder, thermal trips, counters (spec/15) -/

/-- An event record (R650), CRC apart. `seq` is filled when it is written. -/
structure EventRec where
  code : Nat
  source : Nat
  severity : Nat
  held : Bool
  hours : Nat
  seconds : Nat
  pcycle : Nat
  side : Nat
  state : Nat
  time : Nat
  data : Bytes
  seq : Nat
deriving DecidableEq, Repr

/-- A slot of the event recorder region that is not empty: a record, or one whose program power cut short (R652). -/
inductive EvSlot | whole (r : EventRec) | torn
deriving DecidableEq, Repr

/-- A trip or RESOLVE record (R648), CRC apart. -/
structure TripRec where
  resolve : Bool
  cause : Nat
  die : Nat
  hours : Nat
  seconds : Nat
  pcycle : Nat
  state : Nat
  time : Nat
  temp : Int
  rate : Int
  dies : List Int
deriving DecidableEq, Repr

/-- A counter-log entry (R656), CRC apart. -/
structure CounterEnt where
  hours : Nat
  seconds : Nat
  pcycle : Nat
  seq : Nat
deriving DecidableEq, Repr

/-- What the sensor hub holds of one die (R641 to R644). Temperatures in units of 0.125 °C. -/
structure DieTemp where
  ro : Int
  diode : Int
  /-- consecutive reads with the two maxima more than 6 °C apart (R643) -/
  apart : Nat
  fallback : Bool
  /-- temperatures of the last evaluations, newest first (R644) -/
  hist : List Int
  /-- consecutive evaluations at or above 110 °C, and with the short rate above 10 °C/s -/
  hot : Nat
  fast : Nat
  /-- since when the die has stayed at or above 100 °C, counted again at each rise of the level (R645) -/
  hotAt : Option Nat
  /-- time from which the die's rails have been in regulation (R642) -/
  railsAt : Nat
deriving DecidableEq, Repr

/-! Exceptions of the data path (meeting place 1 of R21) -/

/-- What an exception reports. -/
inductive ExcKind
  /-- a chunk's domain is not valid (R203): domain, SEQ -/
  | domainInvalid
  /-- a copy of garbage collection abandoned (R246) -/
  | copyAbandoned
  /-- a leaf of the key index must be split (R257) -/
  | split
  /-- a destination segment was sealed early; a live pack cannot be read; free levels; capacity (R286 to R290) -/
  | segmentSealed | stuckPack | freeLow | freeCrit | capacity | readOnly
  /-- a metadata page fails its CRC (R308) -/
  | pageCrc
  /-- a block for refresh; a slow die; its eviction (R353, R361, R381) -/
  | refresh | slowDie | evict | dieFault
  /-- a scrub found a wrong column it could not locate; packs lost with a slot (R376, R387); a slot with more than two erasures (R409) -/
  | unlocated | packLost | slotLost
  /-- a queue pair entered the error state (R451) -/
  | qpError
  /-- a change needs a freeze; a session's exception (R470, R491) -/
  | freeze | session
deriving DecidableEq, Repr

/-- Place of a kind among the kinds: the argument of the free TYPE and BODY of its message (log entry 38). -/
def ExcKind.num : ExcKind → Nat
  | .domainInvalid => 0 | .copyAbandoned => 1 | .split => 2 | .segmentSealed => 3 | .stuckPack => 4 | .freeLow => 5
  | .freeCrit => 6 | .capacity => 7 | .readOnly => 8 | .pageCrc => 9 | .refresh => 10 | .slowDie => 11 | .evict => 12
  | .dieFault => 13 | .unlocated => 14 | .packLost => 15 | .qpError => 16 | .freeze => 17 | .session => 18 | .slotLost => 19

/-- Kinds of data-path lanes (spec/04, spec/05). -/
inductive LaneKind | cdc | fpl | cmp | dcp | enc | dec | gcm
deriving DecidableEq, Repr

/-! Windows, rings and the DMA engine (spec/13) -/

/-- Kind of a memory or register access (R566). -/
inductive AccKind | read | write | fetch
deriving DecidableEq, Repr

/-- A fault record (R566). -/
structure FaultRec where
  mid : Nat
  chan : Nat
  addr : Nat
  kind : AccKind
  cause : Nat
  time : Nat
deriving DecidableEq, Repr

/-- Content of a ring message (R569). -/
inductive RingBody
  | tick (missed : Nat)
  | winfault (f : FaultRec)
  | dmaDone (tag status done : Nat)
  | takeoverPending (cause time : Nat)
  /-- a packet for queue pair 1 (R417), or a frame delivered by a filter (R437): port, time, length, filter, wake, bytes -/
  | frame (port time len filter : Nat) (wake : Bool) (bytes : Bytes)
  /-- an exception of the data path (R21) and the items the rule that posts it names -/
  | exc (kind : ExcKind) (args : List Nat)
  /-- 64 bytes posted by a core -/
  | work (slot : Bytes)
deriving DecidableEq, Repr

/-- A ring message (R569). -/
structure RingMsg where
  mid : Nat
  seq : Nat
  time : Nat
  /-- attachment's physical address and length -/
  attach : Option (Nat × Nat)
  body : RingBody
deriving DecidableEq, Repr

/-- What a ring holds on die (R568, R570). Indices are CONS and PROD of HRD_RINGr. -/
structure Ring where
  msgs : List RingMsg
  /-- messages of producers that wait because the ring is full (R570) -/
  waiting : List RingMsg
  posted : Nat
  /-- ticks not written since the last tick (R570) -/
  missed : Nat
  /-- a message of the ring unit held at a window fault (R562) -/
  halted : Bool
deriving DecidableEq, Repr

/-- A work descriptor of the DMA engine (R573), without its OP. -/
structure DmaDesc where
  tile : Nat
  chan : Nat
  cls : Nat
  tapid : Nat
  len : Nat
  src : Nat
  dst : Nat
  ring : Nat
  member : Nat
  tag : Nat
  /-- every reserved byte is 0 -/
  reservedOk : Bool
deriving DecidableEq, Repr

/-- A descriptor that a DMA channel holds: its OP, and the bytes written so far (R562, R573). -/
structure DmaJob where
  op : Nat
  d : DmaDesc
  /-- the bytes to write, for the operations that do not read memory -/
  buf : Bytes
  done : Nat
  status : Nat
  held : Bool
deriving DecidableEq, Repr

/-- A record of the replay capture (R576). -/
inductive CapRec
  | start (digest : Bytes) (format : Nat) (variant tile : Nat)
  | snap (addr : Nat) (bytes : Bytes)
  | msg (core ring : Nat) (msgs : List RingMsg)
  | att (core : Nat) (bytes : Bytes)
  | csr (core addr : Nat) (val : Word)
  | out (core ring : Nat) (slots : List Bytes)
  | gap (count : Nat)
  | stop
deriving DecidableEq, Repr

end Sys2Proof.Machine
end

