-- ==== Sys2Proof/Syntax.lean ====
section
/-! DEFINITION. The commands of the VX8, one constructor for each row of spec/opcode_table.json, in its order. A block has no
encoding of them: the table gives no bits. -/

namespace Sys2Proof

open Machine

/-- One command, operation or event of the table. -/
inductive Instr
  /-- REGISTER_WRITE (R9) -/
  | registerWrite (who : Requester) (addr size : Nat) (val events : Word)
  /-- BLOCK_LOCK (R13) -/
  | blockLock (who : Requester) (addr : Nat) (val : Word)
  /-- TABLE_COMMIT (R22) -/
  | tableCommit (die blk : Nat) (val : Word)
  /-- TABLE_ABORT (R26) -/
  | tableAbort (die blk : Nat) (val : Word)
  /-- COMMIT_COPY_DONE (R23) -/
  | commitCopyDone (die blk : Nat)
  /-- TIME_MESSAGE (R35) -/
  | timeMessage
  /-- PTP_SYNC_SAMPLE (R715) -/
  | ptpSyncSample (origin : Nat) (twoStep followUp : Bool)
  /-- DELAY_REQ_SEND (R715) -/
  | delayReqSend
  /-- PTP_ANNOUNCE (R45) -/
  | ptpAnnounce (gm : PtpDs) (steps : Nat)
  /-- PPS_IN_EDGE (R715) -/
  | ppsInEdge
  /-- PARTNER_TIME_TIMEOUT (R45) -/
  | partnerTimeTimeout
  /-- FLUSH (R53) -/
  | flush (cap : Cap)
  /-- WRITE (R141) -/
  | write (cap : Cap) (slba nlb : Nat)
  /-- READ (R70) -/
  | read (cap : Cap) (slba nlb : Nat)
  /-- COMPARE (R53) -/
  | compare (cap : Cap) (slba nlb : Nat)
  /-- COMPARE_AND_WRITE (R76) -/
  | compareAndWrite (cap cap2 : Cap) (slba nlb slba2 nlb2 : Nat)
  /-- WRITE_ZEROES (R93) -/
  | writeZeroes (cap : Cap) (slba nlb : Nat) (deac : Bool)
  /-- DATASET_MANAGEMENT (R91) -/
  | datasetManagement (cap : Cap) (deallocate : Bool) (ranges : List (Nat × Nat))
  /-- VERIFY (R53) -/
  | verify (cap : Cap) (slba nlb : Nat)
  /-- STORE (R85) -/
  | store (cap : Cap) (key : Key) (vlen : Nat) (opts : StoreOpts)
  /-- RETRIEVE (R88) -/
  | retrieve (cap : Cap) (key : Key)
  /-- LIST (R89) -/
  | list (cap : Cap) (key : Key)
  /-- DELETE (R87) -/
  | delete (cap : Cap) (key : Key)
  /-- EXIST (R87) -/
  | exist (cap : Cap) (key : Key)
  /-- CONNECT (R47) -/
  | connect (cap : Cap) (nqn : ConnNqn) (cntlid qid sqsize kato : Nat) (disc : Bool)
  /-- DISCONNECT (R52) -/
  | disconnect (cap : Cap)
  /-- PROPERTY_GET (R58) -/
  | propertyGet (cap : Cap) (off : Nat)
  /-- PROPERTY_SET (R58) -/
  | propertySet (cap : Cap) (off val : Nat)
  /-- GET_LOG_PAGE (R52) -/
  | getLogPage (cap : Cap) (lid off len : Nat) (rae : Bool)
  /-- IDENTIFY (R51) -/
  | identify (cap : Cap) (cns cntid : Nat)
  /-- ABORT (R78) -/
  | abort (cap : Cap) (qid cid : Nat)
  /-- SET_FEATURES (R55) -/
  | setFeatures (cap : Cap) (fid val : Nat) (save : Bool)
  /-- GET_FEATURES (R55) -/
  | getFeatures (cap : Cap) (fid : Nat)
  /-- ASYNC_EVENT_REQUEST (R52) -/
  | asyncEventRequest (cap : Cap)
  /-- NAMESPACE_MANAGEMENT (R101) -/
  | namespaceManagement (cap : Cap) (create kv : Bool) (blocks domain : Nat) (media : Bool)
  /-- NAMESPACE_ATTACHMENT (R101) -/
  | namespaceAttachment (cap : Cap) (attach : Bool) (ctrls : List Nat)
  /-- NS_REMOVAL_TIMEOUT (R101) -/
  | nsRemovalTimeout (nsid : Nat)
  /-- NS_REMOVAL_COMPLETE (R101) -/
  | nsRemovalComplete (nsid : Nat)
  /-- KEEP_ALIVE (R60) -/
  | keepAlive (cap : Cap)
  /-- KEEP_ALIVE_EXPIRY (R57) -/
  | keepAliveExpiry (cntlid : Nat)
  /-- FORMAT_NVM (R94) -/
  | formatNvm (cap : Cap) (lbaf ses : Nat)
  /-- FORMAT_COMPLETE (R95) -/
  | formatComplete (nsid : Nat)
  /-- SANITIZE_EXIT_FAILURE (R99) -/
  | sanitizeExitFailure (cap : Cap)
  /-- SANITIZE_BLOCK_ERASE (R96) -/
  | sanitizeBlockErase (cap : Cap)
  /-- SANITIZE_CRYPTO_ERASE (R96) -/
  | sanitizeCryptoErase (cap : Cap)
  /-- SANITIZE_COMPLETE (R97) -/
  | sanitizeComplete
  /-- SANITIZE_FAILED (R99) -/
  | sanitizeFailed
  /-- PROGRESS_LOG (R302) -/
  | progressLog (op nsid done : Nat)
  /-- LOCK_GRANT (R71) -/
  | lockGrant (tag shard : Nat)
  /-- REMOTE_LOCK_TIMEOUT (R74) -/
  | remoteLockTimeout (tag : Nat)
  /-- CHL_IDLE (R122) -/
  | chlIdle (h : ChlHdr)
  /-- CHL_NAK (R123) -/
  | chlNak (h : ChlHdr)
  /-- CHL_TRAIN (R714) -/
  | chlTrain (group lane peer : Nat) (crcOk : Bool)
  /-- HEARTBEAT (R127) -/
  | heartbeat (h : ChlHdr) (hb : Heartbeat)
  /-- TIME (R40) -/
  | time (h : ChlHdr) (offset : Int) (roundTrip : Nat) (hasSource : Bool)
  /-- NOTICE (R148) -/
  | notice (h : ChlHdr) (cause : Nat)
  /-- HANDOVER (R158) -/
  | handover (h : ChlHdr) (ports shards : List Nat)
  /-- SHARDSET (R719) -/
  | shardset (h : ChlHdr) (owners : BitVec 256) (gen : Nat)
  /-- CAPSULE (R140) -/
  | capsule (h : ChlHdr) (c : MirrorCap)
  /-- LEDGER (R142) -/
  | ledger (h : ChlHdr) (l : LedgerRec)
  /-- JWRITE (R141) -/
  | jwrite (h : ChlHdr) (off : Nat) (r : JRec) (crcOk : Bool)
  /-- RELEASE (R282) -/
  | release (h : ChlHdr) (side seq : Nat)
  /-- LOCK (R139) -/
  | lock (h : ChlHdr) (m : LockMsg)
  /-- MAPUPD (R270) -/
  | mapupd (h : ChlHdr) (m : MapChange) (lsn : Nat)
  /-- SYNC (R159) -/
  | sync (h : ChlHdr) (b : SyncBody)
  /-- SHADOWQP (R442) -/
  | shadowqp (h : ChlHdr) (create : Bool) (q : QpExport) (k : Option Ctrl) (u : Option Queue)
  /-- CHL_GAP_TIMEOUT (R123) -/
  | chlGapTimeout (group : Nat)
  /-- CHL_ACK_TIMEOUT (R123) -/
  | chlAckTimeout (group : Nat)
  /-- CHL_LANE_RETIRE (R125) -/
  | chlLaneRetire (group lane : Nat)
  /-- CHL_LANE_RETURN (R125) -/
  | chlLaneReturn (group lane : Nat)
  /-- CHL_GROUP_LOST (R713) -/
  | chlGroupLost (group : Nat)
  /-- CHL_IDLE_SEND (R125) -/
  | chlIdleSend (group lane : Nat)
  /-- HEARTBEAT_SEND (R127) -/
  | heartbeatSend
  /-- WITNESS_WRITE_TICK (R128) -/
  | witnessWriteTick
  /-- PARTNER_SILENCE (R128) -/
  | partnerSilence
  /-- WITNESS_EVALUATE (R129) -/
  | witnessEvaluate (answers : List (Nat × Nat × Nat × Nat))
  /-- CLAIM_DEFER_END (R135) -/
  | claimDeferEnd
  /-- LEASE_EXPIRY (R130) -/
  | leaseExpiry
  /-- CLAIM_REPLY (R133) -/
  | claimReply (cp epoch holders : Nat) (applied : Bool) (m : MediaImage)
  /-- CLAIM_TIMEOUT (R136) -/
  | claimTimeout
  /-- FENCED_REPLY (R135) -/
  | fencedReply (cp : Nat)
  /-- TAKEOVER_TRANSMIT_RELEASE (R131) -/
  | takeoverTransmitRelease
  /-- TAKEOVER_GO (R152) -/
  | takeoverGo (val : Word) (m : MediaImage)
  /-- HANDOVER_REQ (R158) -/
  | handoverReq (val : Word)
  /-- HANDOVER_ACKED (R679) -/
  | handoverAcked
  /-- PROBE_TIMEOUT (R147) -/
  | probeTimeout (qpn : Nat)
  /-- SOLO_WAIT_EXPIRY (R115) -/
  | soloWaitExpiry
  /-- PAIR_START (R114) -/
  | pairStart
  /-- REJOIN_SYNC (R159) -/
  | rejoinSync (m : MediaImage)
  /-- UNCORRECTABLE_MEMORY_ERROR (R29) -/
  | uncorrectableMemoryError (at_ : MemAt)
  /-- FRONT_PORT_LINK_FAULT (R148) -/
  | frontPortLinkFault (p : Nat) (twinLink : Bool)
  /-- JOURNAL_DESTAGE (R193) -/
  | journalDestage (side seq : Nat) (fix : List Item) (root : Option (Nat × Nat))
  /-- FINGERPRINT_DONE (R178) -/
  | fingerprintDone (job n : Nat)
  /-- FP_SLOT_LOAD (R180) -/
  | fpSlotLoad (tile domain addr : Nat)
  /-- CANDIDATE_CONFIRM (R188) -/
  | candidateConfirm (job n : Nat)
  /-- FP_SLOT_FLUSH (R180) -/
  | fpSlotFlush (tile : Nat) (val : Word)
  /-- XTS_SLOT_FLUSH (R221) -/
  | xtsSlotFlush (tile : Nat) (val : Word)
  /-- LANE_DISABLE (R200) -/
  | laneDisable (tile : Nat) (kind : LaneKind) (lane : Nat)
  /-- LANE_FAULT (R201) -/
  | laneFault (tile : Nat) (kind : LaneKind) (lane : Nat)
  /-- CHUNK_FREE_START (R198) -/
  | chunkFreeStart (ref : Nat)
  /-- CHUNK_FREE_FINISH (R198) -/
  | chunkFreeFinish (ref : Nat)
  /-- PACK_CLOSE (R210) -/
  | packClose (pack : Nat)
  /-- PACK_FLUSH_TIMEOUT (R210) -/
  | packFlushTimeout (pack : Nat)
  /-- CMP_FLUSH (R210) -/
  | cmpFlush (tile : Nat) (val : Word)
  /-- PACK_COMPRESS_DONE (R213) -/
  | packCompressDone (pack : Nat)
  /-- PACK_ENCRYPT_DONE (R218) -/
  | packEncryptDone (pack : Nat)
  /-- PACK_DECRYPT_DONE (R218) -/
  | packDecryptDone (copy : Bool) (id : Nat)
  /-- PACK_INFLATE_DONE (R216) -/
  | packInflateDone (rd : Nat)
  /-- XTS_SLOT_LOAD (R221) -/
  | xtsSlotLoad (tile domain gen addr : Nat)
  /-- GCM_KEY_LOAD (R232) -/
  | gcmKeyLoad (tile entry load : Nat)
  /-- GCM_ENCRYPT (R231) -/
  | gcmEncrypt (tile : Nat)
  /-- GCM_DECRYPT (R233) -/
  | gcmDecrypt (p : Nat)
  /-- KCU_ENC (R235) -/
  | kcuEnc (tile ses : Nat)
  /-- KCU_DEC (R235) -/
  | kcuDec (tile ses : Nat)
  /-- KCU_ENC_CHAIN (R235) -/
  | kcuEncChain (tile ses : Nat)
  /-- KCU_DEC_CHAIN (R235) -/
  | kcuDecChain (tile ses : Nat)
  /-- KCU_SET_CHAIN (R235) -/
  | kcuSetChain (tile ses : Nat)
  /-- KCU_LOAD_WRAPPED (R234) -/
  | kcuLoadWrapped (tile ses : Nat)
  /-- KCU_LOAD_CLEAR (R234) -/
  | kcuLoadClear (tile ses : Nat) (long : Bool)
  /-- KCU_SAVE_CLEAR (R238) -/
  | kcuSaveClear (tile ses : Nat)
  /-- KCU_SAVE_WRAPPED (R238) -/
  | kcuSaveWrapped (tile ses : Nat)
  /-- KCU_RESTORE (R238) -/
  | kcuRestore (tile ses : Nat) (wrapped : Bool)
  /-- KCU_REC_CREATE (R235) -/
  | kcuRecCreate (tile ses domain : Nat)
  /-- KCU_REC_ADD_GEN (R235) -/
  | kcuRecAddGen (tile ses : Nat)
  /-- KCU_REC_DROP_GEN (R235) -/
  | kcuRecDropGen (tile ses gen : Nat)
  /-- KCU_CLOSE (R235) -/
  | kcuClose (tile ses : Nat)
  /-- MAP_LOOKUP (R265) -/
  | mapLookup (pageid entry tag cls : Nat)
  /-- MAP_FILL_DONE (R267) -/
  | mapFillDone (pageid : Nat)
  /-- MAP_LINE_WRITEBACK_DONE (R269) -/
  | mapLineWritebackDone (pageid : Nat)
  /-- MAP_RANGE_CLEAN (R273) -/
  | mapRangeClean (die : Nat)
  /-- MAP_RANGE_INVALIDATE (R273) -/
  | mapRangeInvalidate (die : Nat)
  /-- MAP_RANGE_CLEAN_INV (R273) -/
  | mapRangeCleanInv (die : Nat)
  /-- MAP_RANGE_LOAD_PIN (R273) -/
  | mapRangeLoadPin (die : Nat)
  /-- MAP_RANGE_UNPIN (R273) -/
  | mapRangeUnpin (die : Nat)
  /-- MAP_RANGE_SWEEP (R273) -/
  | mapRangeSweep (die : Nat)
  /-- MAP_RANGE_DONE (R274) -/
  | mapRangeDone (die : Nat)
  /-- STRIPE_TIMEOUT (R279) -/
  | stripeTimeout (seg : Nat)
  /-- STRIPE_PLACED (R279) -/
  | stripePlaced (seg k : Nat)
  /-- GC_SEGMENT (R284) -/
  | gcSegment (seg cls : Nat)
  /-- SEGMENT_RECLAIM (R288) -/
  | segmentReclaim (seg : Nat)
  /-- READ_POINT_NOTICE (R287) -/
  | readPointNotice
  /-- JOURNAL_ADMIT (R283) -/
  | journalAdmit
  /-- JOURNAL_RELEASE (R282) -/
  | journalRelease (side seq : Nat)
  /-- LOG_PAGE_TIMEOUT (R293) -/
  | logPageTimeout
  /-- LOG_PAGE_DURABLE (R293) -/
  | logPageDurable (page : Nat)
  /-- CHECKPOINT_REQ (R300) -/
  | checkpointReq (val : Word)
  /-- CHECKPOINT_TIMER (R301) -/
  | checkpointTimer (full : Bool)
  /-- CARRIER_ATTACH (R312) -/
  | carrierAttach (cp : Nat) (temp : Int) (pages : List DiePage)
  /-- SFB_IDLE (R324) -/
  | sfbIdle (h : SfbHdr)
  /-- SFB_NAK (R324) -/
  | sfbNak (h : SfbHdr)
  /-- SFB_TRAIN (R324) -/
  | sfbTrain (cp lane : Nat) (crcOk : Bool)
  /-- SFB_COMPLETE (R326) -/
  | sfbComplete (h : SfbHdr) (tag status arg : Nat)
  /-- RDATA (R322) -/
  | rdata (h : SfbHdr) (tag slot plane : Nat) (raw : Bytes)
  /-- SFB_EVENT (R322) -/
  | sfbEvent (h : SfbHdr) (arg : Nat)
  /-- SFB_GAP_TIMEOUT (R324) -/
  | sfbGapTimeout (cp : Nat)
  /-- SFB_ACK_TIMEOUT (R324) -/
  | sfbAckTimeout (cp : Nat)
  /-- SFB_LANE_RETIRE (R324) -/
  | sfbLaneRetire (cp lane : Nat)
  /-- SFB_LANE_RETURN (R324) -/
  | sfbLaneReturn (cp lane : Nat)
  /-- SFB_PORT_LOST (R363) -/
  | sfbPortLost (cp : Nat)
  /-- LDPC_DECODE_DONE (R318) -/
  | ldpcDecodeDone (id : Nat) (cw : Option Bytes) (unsat : Nat)
  /-- OP_STARVED (R346) -/
  | opStarved (cp die : Nat)
  /-- SLOW_DIE_PROBE (R362) -/
  | slowDieProbe (cp die : Nat)
  /-- PAR_LOST_DECLARE (R384) -/
  | parLostDeclare (val : Word)
  /-- PAR_LOST_CLEAR (R390) -/
  | parLostClear (val : Word)
  /-- REBUILD_RATE_WINDOW (R388) -/
  | rebuildRateWindow
  /-- SLOW_EVICT (R381) -/
  | slowEvict (cp die : Nat)
  /-- SJ_PAGE_TIMEOUT (R393) -/
  | sjPageTimeout
  /-- RESHAPE_NATIVE_GO (R397) -/
  | reshapeNativeGo (val : Word)
  /-- RESHAPE_VX5_GO (R404) -/
  | reshapeVx5Go (val : Word)
  /-- RESHAPE_STOP (R402) -/
  | reshapeStop (val : Word)
  /-- SCRUB_POST (R376) -/
  | scrubPost (seg stripe slot : Nat)
  /-- FRAME_RECEIVE (R417) -/
  | frameReceive (p : Nat) (fcsOk : Bool) (bytes : Bytes)
  /-- LOSSLESS_XON (R428) -/
  | losslessXon (p : Nat)
  /-- PFC_REFRESH (R428) -/
  | pfcRefresh (p : Nat)
  /-- PAUSE_FRAME (R430) -/
  | pauseFrame (p op : Nat) (times : List (Nat × Nat))
  /-- PAUSE_EXPIRY (R430) -/
  | pauseExpiry (p prio : Nat)
  /-- PAUSE_STORM (R431) -/
  | pauseStorm (p prio : Nat)
  /-- PAUSE_STORM_END (R431) -/
  | pauseStormEnd (p prio : Nat)
  /-- TX_FRAME_DONE (R425) -/
  | txFrameDone (p : Nat)
  /-- COUNTER_SNAPSHOT (R433) -/
  | counterSnapshot (p : Nat)
  /-- ADDRESS_REQUEST (R419) -/
  | addressRequest (p kind : Nat) (addr : BitVec 128)
  /-- ROCE_SEND (R449) -/
  | roceSend (h : RoceHdr) (first last : Bool) (len : Nat)
  /-- RDMA_READ_RESPONSE (R449) -/
  | rdmaReadResponse (h : RoceHdr) (first last : Bool) (bytes : Bytes)
  /-- ROCE_ACKNOWLEDGE (R450) -/
  | roceAcknowledge (h : RoceHdr) (k : AckKind)
  /-- CNP_RECEIVE (R447) -/
  | cnpReceive (h : RoceHdr)
  /-- CC_ALPHA_UPDATE (R447) -/
  | ccAlphaUpdate (who : CcWho)
  /-- CC_RATE_INCREASE (R447) -/
  | ccRateIncrease (who : CcWho)
  /-- REORDER_TIMEOUT (R449) -/
  | reorderTimeout (qpn : Nat)
  /-- CONTEXT_FETCH_DONE (R445) -/
  | contextFetchDone (qpn : Nat)
  /-- LOCAL_ACK_TIMEOUT (R451) -/
  | localAckTimeout (qpn : Nat)
  /-- QP_CREATE (R442) -/
  | qpCreate (fdie addr : Nat)
  /-- QP_DESTROY (R441) -/
  | qpDestroy (fdie qpn : Nat)
  /-- QP_MOVE_TO_ERROR (R451) -/
  | qpMoveToError (fdie qpn : Nat)
  /-- QP_REUSE_EXPIRY (R441) -/
  | qpReuseExpiry (fdie index : Nat)
  /-- LINK_DOWN (R455) -/
  | linkDown (p : Nat)
  /-- LINK_UP (R455) -/
  | linkUp (p : Nat)
  /-- LINK_DOWN_TIMEOUT (R455) -/
  | linkDownTimeout (p : Nat)
  /-- SNAPSHOT_READY (R465) -/
  | snapshotReady (id : Nat)
  /-- PRONGHORN_DATA (R479) -/
  | pronghornData (fdie : Nat)
  /-- PRONGHORN_ACK (R480) -/
  | pronghornAck (fdie : Nat)
  /-- PRONGHORN_NACK (R480) -/
  | pronghornNack (fdie : Nat)
  /-- PRONGHORN_PROBE (R481) -/
  | pronghornProbe (fdie : Nat)
  /-- PGT_NACK_TIMEOUT (R480) -/
  | pgtNackTimeout (fdie session msgno : Nat)
  /-- PGT_RTO (R480) -/
  | pgtRto (fdie session msgno : Nat)
  /-- PATH_QUARANTINE_END (R478) -/
  | pathQuarantineEnd (fdie session path : Nat)
  /-- FPLIST (R484) -/
  | fplist (fdie session : Nat)
  /-- NEED (R485) -/
  | need (fdie session : Nat)
  /-- CHUNKS (R485) -/
  | chunks (fdie session : Nat)
  /-- MAPS (R487) -/
  | maps (fdie session : Nat) (fix : List Item) (root : Option (Nat × Nat))
  /-- COMMIT (R487) -/
  | commit (fdie session : Nat)
  /-- COMMITTED (R486) -/
  | committed (fdie session : Nat)
  /-- JREC (R488) -/
  | jrec (fdie session : Nat)
  /-- JACK (R488) -/
  | jack (fdie session : Nat)
  /-- SYNC_REPL_TIMEOUT (R490) -/
  | syncReplTimeout (fdie session : Nat)
  /-- SESSION_CREATE (R474) -/
  | sessionCreate (fdie addr : Nat)
  /-- SESSION_DESTROY (R474) -/
  | sessionDestroy (fdie session : Nat)
  /-- SESSION_NEW_GENERATION (R481) -/
  | sessionNewGeneration (fdie addr : Nat)
  /-- SESSION_SET_DEGRADED (R490) -/
  | sessionSetDegraded (fdie session : Nat)
  /-- SESSION_CLEAR_DEGRADED (R490) -/
  | sessionClearDegraded (fdie session : Nat)
  /-- CSA_SEARCH (R504) -/
  | csaSearch (d part : Nat) (ecc : List (Nat × Bool))
  /-- CSA_FLOOR (R505) -/
  | csaFloor (d part : Nat) (ecc : List (Nat × Bool))
  /-- CSA_WRITE (R506) -/
  | csaWrite (d part rank addr : Nat)
  /-- CSA_INVALIDATE (R506) -/
  | csaInvalidate (d part addr : Nat)
  /-- CSA_READ (R506) -/
  | csaRead (d part addr : Nat) (ecc : List (Nat × Bool))
  /-- INSERT_RING (R508) -/
  | insertRing (fw : Bool) (d part key ref : Nat)
  /-- DELETE_MATCH (R506) -/
  | deleteMatch (fw : Bool) (d part key : Nat)
  /-- INVALIDATE_MASKED (R511) -/
  | invalidateMasked (fw : Bool) (d part domain : Nat)
  /-- ORD_INSERT (R515) -/
  | ordInsert (fw : Bool) (d part val leaf : Nat)
  /-- ORD_DELETE (R506) -/
  | ordDelete (fw : Bool) (d part val : Nat)
  /-- RESPREAD_DONE (R517) -/
  | respreadDone (d part : Nat)
  /-- DGE_START (R538) -/
  | dgeStart (die ses : Nat)
  /-- DGE_DATA (R531) -/
  | dgeData (die ses : Nat) (val : Word)
  /-- DGE_LAST (R533) -/
  | dgeLast (die ses : Nat) (val : Word)
  /-- DGE_FEED (R531) -/
  | dgeFeed (die ses : Nat)
  /-- DGE_FEED_DONE (R532) -/
  | dgeFeedDone (die ses : Nat)
  /-- DGE_FINISH (R536) -/
  | dgeFinish (die ses : Nat)
  /-- DGE_ABORT (R552) -/
  | dgeAbort (die ses : Nat)
  /-- DGE_ARM (R541) -/
  | dgeArm (die ses tap tapid : Nat)
  /-- DGE_DISARM (R541) -/
  | dgeDisarm (die ses : Nat)
  /-- DGE_TAP_TRANSFER (R540) -/
  | dgeTapTransfer (die tap tapid : Nat) (bytes : Bytes) (whole : Bool)
  /-- DGE_SAVE_CLEAR (R546) -/
  | dgeSaveClear (die ses : Nat)
  /-- DGE_SAVE_WRAPPED (R546) -/
  | dgeSaveWrapped (die ses : Nat)
  /-- DGE_RESTORE (R546) -/
  | dgeRestore (die ses : Nat) (wrapped : Bool)
  /-- DGE_RESULT (R544) -/
  | dgeResult (die ses : Nat)
  /-- DGE_SLOT_LOAD_CLEAR (R537) -/
  | dgeSlotLoadClear (die slot alg keylen : Nat)
  /-- DGE_SLOT_LOAD_WRAPPED (R539) -/
  | dgeSlotLoadWrapped (die slot alg keylen : Nat)
  /-- DGE_SLOT_LOAD_DERIVED (R537) -/
  | dgeSlotLoadDerived (die slot alg label : Nat)
  /-- DGE_SLOT_CLEAR (R537) -/
  | dgeSlotClear (die slot : Nat)
  /-- CHANNEL_FREEZE_REQUEST (R565) -/
  | channelFreezeRequest (tile m : Nat) (val : Word)
  /-- CHANNEL_FROZEN (R565) -/
  | channelFrozen (tile mid chan : Nat)
  /-- THAW_RESUME (R562) -/
  | thawResume (tile mid chan : Nat)
  /-- THAW_ABORT (R562) -/
  | thawAbort (tile mid chan : Nat)
  /-- WIN_FAULT_READ (R566) -/
  | winFaultRead (who : Requester) (tile : Nat)
  /-- RING_CONSUME (R571) -/
  | ringConsume (tile cluster core r cons : Nat)
  /-- RING_POST (R571) -/
  | ringPost (tile cluster core r : Nat) (slots : List Bytes)
  /-- TICK (R572) -/
  | tick (tile cluster : Nat)
  /-- DMA_COPY (R573) -/
  | dmaCopy (d : DmaDesc)
  /-- DMA_FILL (R573) -/
  | dmaFill (d : DmaDesc)
  /-- DMA_READ_PAGE (R573) -/
  | dmaReadPage (d : DmaDesc) (page : Option Bytes)
  /-- DMA_READ_PACK (R573) -/
  | dmaReadPack (d : DmaDesc) (member : Nat) (pack : Option (Nat × Bytes))
  /-- DMA_DONE (R573) -/
  | dmaDone (tile chan : Nat)
  /-- CMT_CLEAN (R555) -/
  | cmtClean (tile : Nat)
  /-- CMT_INVALIDATE (R555) -/
  | cmtInvalidate (tile : Nat)
  /-- CMT_CLEAN_INV (R555) -/
  | cmtCleanInv (tile : Nat)
  /-- CMT_DONE (R555) -/
  | cmtDone (tile : Nat)
  /-- WATCHDOG_ARM (R575) -/
  | watchdogArm (tile cluster : Nat) (val : Word)
  /-- WATCHDOG_KICK (R575) -/
  | watchdogKick (tile cluster : Nat) (val : Word)
  /-- WATCHDOG_EXPIRY (R575) -/
  | watchdogExpiry (tile cluster : Nat)
  /-- CAPTURE_START (R576) -/
  | captureStart (tile : Nat) (val : Word)
  /-- CAPTURE_STOP (R576) -/
  | captureStop (tile : Nat) (val : Word)
  /-- CAPTURE_SNAP (R576) -/
  | captureSnap (tile addr pages : Nat)
  /-- B_DIE_START (R603) -/
  | bDieStart (x : StartIn)
  /-- CHALLENGE_LAPSE (R614) -/
  | challengeLapse
  /-- GET_CHALLENGE (R614) -/
  | getChallenge (via : Via) (env : RoleEnv)
  /-- GET_CALROW (R617) -/
  | getCalrow (via : Via) (env : RoleEnv)
  /-- INSTALL (R620) -/
  | install (via : Via) (env : RoleEnv) (took : Bytes)
  /-- SET_OPKEY (R621) -/
  | setOpkey (via : Via) (env : RoleEnv) (slot : Nat) (digest : Bytes)
  /-- REVOKE_OPKEY (R621) -/
  | revokeOpkey (via : Via) (env : RoleEnv) (slot : Nat)
  /-- CLEAR_EVR (R654) -/
  | clearEvr (via : Via) (env : RoleEnv)
  /-- LAYOUT (R617) -/
  | layout (via : Via) (env : RoleEnv) (width target roster evac : Option Nat)
  /-- EPOCH_REINIT (R334) -/
  | epochReinit (via : Via) (env : RoleEnv)
  /-- CLEAR_DEFERRED (R83) -/
  | clearDeferred (via : Via) (env : RoleEnv)
  /-- NS_CREATE (R617) -/
  | nsCreate (via : Via) (env : RoleEnv) (kv : Bool) (blocks domain : Nat) (media : Bool)
  /-- NS_DELETE (R101) -/
  | nsDelete (via : Via) (env : RoleEnv) (nsid : Nat)
  /-- NS_DISABLE (R101) -/
  | nsDisable (via : Via) (env : RoleEnv) (nsid : Nat)
  /-- NS_ENABLE (R617) -/
  | nsEnable (via : Via) (env : RoleEnv) (nsid : Nat)
  /-- C0_RESIDENT (R272) -/
  | c0Resident (via : Via) (env : RoleEnv) (nsid : Nat)
  /-- ADMIN_HOSTS (R56) -/
  | adminHosts (via : Via) (env : RoleEnv) (nqns : List Bytes)
  /-- SNAP_CREATE (R463) -/
  | snapCreate (via : Via) (env : RoleEnv) (nsid : Nat)
  /-- SNAP_DELETE (R470) -/
  | snapDelete (via : Via) (env : RoleEnv) (id : Nat)
  /-- CLONE_CREATE (R471) -/
  | cloneCreate (via : Via) (env : RoleEnv) (snap : Nat) (readOnly : Bool)
  /-- REPL_SESSION (R474) -/
  | replSession (via : Via) (env : RoleEnv) (create : Bool) (fdie addr : Nat) (replica : Bool)
  /-- DOMAIN_CREATE (R617) -/
  | domainCreate (via : Via) (env : RoleEnv) (domain : Nat)
  /-- KEY_ROTATE (R224) -/
  | keyRotate (via : Via) (env : RoleEnv) (domain : Nat)
  /-- DOMAIN_EXPORT (R623) -/
  | domainExport (via : Via) (env : RoleEnv) (domain : Nat) (report row : Bytes)
  /-- DOMAIN_IMPORT (R624) -/
  | domainImport (via : Via) (env : RoleEnv) (domain : Nat) (reply : Bytes)
  /-- ENROL_MODULE (R622) -/
  | enrolModule (via : Via) (env : RoleEnv) (serial : Bytes) (wrapGen : Nat)
  /-- UNENROL_MODULE (R622) -/
  | unenrolModule (via : Via) (env : RoleEnv) (serial : Bytes)
  /-- ACTIVATE (R609) -/
  | activate (via : Via) (env : RoleEnv)
  /-- THERMAL_RESUME (R647) -/
  | thermalResume (via : Via) (env : RoleEnv)
  /-- DEBUG_UNLOCK (R625) -/
  | debugUnlock (via : Via) (env : RoleEnv)
  /-- ROLE_REPLY_READ (R619) -/
  | roleReplyRead (cap : Cap) (len : Nat)
  /-- ATTEST_NONCE (R612) -/
  | attestNonce (cap : Cap) (nonce : Bytes)
  /-- ATTEST_REPORT (R610) -/
  | attestReport (cap : Cap) (len : Nat)
  /-- ATTEST_CALROW (R612) -/
  | attestCalrow (cap : Cap) (len : Nat)
  /-- SET_ENDPOINT_ID (R633) -/
  | setEndpointId (oper eid : Nat)
  /-- GET_ENDPOINT_ID (R633) -/
  | getEndpointId
  /-- GET_MCTP_VERSION_SUPPORT (R633) -/
  | getMctpVersionSupport (ty : Nat)
  /-- GET_MESSAGE_TYPE_SUPPORT (R633) -/
  | getMessageTypeSupport
  /-- GET_VENDOR_MESSAGE_SUPPORT (R633) -/
  | getVendorMessageSupport (selector : Nat)
  /-- GET_ID (R636) -/
  | getId (h : MgmtHdr)
  /-- GET_SENSORS (R636) -/
  | getSensors (h : MgmtHdr)
  /-- GET_COUNTERS (R636) -/
  | getCounters (h : MgmtHdr)
  /-- EVR_FREEZE (R653) -/
  | evrFreeze (h : MgmtHdr)
  /-- EVR_READ (R636) -/
  | evrRead (h : MgmtHdr) (first : Nat)
  /-- EVR_THAW (R653) -/
  | evrThaw (h : MgmtHdr)
  /-- EVR_FREEZE_TIMEOUT (R653) -/
  | evrFreezeTimeout
  /-- TRIP_READ (R636) -/
  | tripRead (h : MgmtHdr) (first : Nat)
  /-- MGMT_ROLE (R636) -/
  | mgmtRole (h : MgmtHdr) (env : RoleEnv) (body : RoleBody)
  /-- ATTEST (R636) -/
  | attest (h : MgmtHdr) (value : Nat) (nonce : Bytes)
  /-- IMG_BEGIN (R637) -/
  | imgBegin (h : MgmtHdr) (kind len : Nat)
  /-- IMG_WRITE (R637) -/
  | imgWrite (h : MgmtHdr) (off : Nat) (bytes : Bytes)
  /-- IMG_END (R637) -/
  | imgEnd (h : MgmtHdr)
  /-- MAILBOX_SEND (R639) -/
  | mailboxSend (m len target : Nat)
  /-- HANDOFF (R640) -/
  | handoff (m target : Nat)
  /-- ROLE_REQ (R618) -/
  | roleReq (m target : Nat)
  /-- ROLE_DONE (R618) -/
  | roleDone (m : Nat)
  /-- MAILBOX_NOTICE (R640) -/
  | mailboxNotice (m target : Nat)
  /-- OPKEYS (R621) -/
  | opkeys (m : Nat)
  /-- AWK (R228) -/
  | awk (m : Nat)
  /-- ACTIVATE_MESSAGE (R609) -/
  | activateMessage (m target : Nat)
  /-- EVENT_MESSAGE (R650) -/
  | eventMessage (m : Nat)
  /-- EVR_POST (R650) -/
  | evrPost (val : Word)
  /-- NOR_WINDOW_OPEN (R649) -/
  | norWindowOpen
  /-- RO_SENSOR_SAMPLE (R641) -/
  | roSensorSample (vals : List (Nat × Int))
  /-- DIODE_SENSOR_SAMPLE (R643) -/
  | diodeSensorSample (vals : List (Nat × Int))
  /-- THERMAL_EVALUATE (R644) -/
  | thermalEvaluate
  /-- THROTTLE_RAISE (R645) -/
  | throttleRaise
  /-- THROTTLE_LOWER (R645) -/
  | throttleLower
  /-- SECONDS_TICK (R655) -/
  | secondsTick
  /-- COUNTER_LOG_ENTRY (R656) -/
  | counterLogEntry
  /-- AO_RAIL_RISE (R656) -/
  | aoRailRise (side : Nat)
  /-- VIN_RISE (R662) -/
  | vinRise (mv : Nat)
  /-- CONVERTER_STOP (R660) -/
  | converterStop (mv n : Nat)
  /-- PF_WARN (R666) -/
  | pfWarn
  /-- VIN_UNDERVOLTAGE (R666) -/
  | vinUndervoltage (mv : Nat)
  /-- MOD_EN_LOW (R666) -/
  | modEnLow
  /-- DUMP_END (R673) -/
  | dumpEnd (n : Nat) (whole fenced : Bool) (lostOwn lostMirror : List Nat)
  /-- POWER_HOLD_EXIT (R674) -/
  | powerHoldExit (mv : Nat) (modEn pfWarnN : Bool)
  /-- SYS_RST (R679) -/
  | sysRst
  /-- PWR_RST_HEAD (R679) -/
  | pwrRstHead (val : Word)
  /-- PWR_RST_DOMAIN (R680) -/
  | pwrRstDomain (val : Word)
  /-- RAIL_FAULT (R679) -/
  | railFault
  /-- REFCLK_LOSS (R694) -/
  | refclkLoss
  /-- DUMP_ERASE (R676) -/
  | dumpErase
  /-- TIME_EXCHANGE_SEND (R715) -/
  | timeExchangeSend
  /-- PTP_DELAY_RESP (R715) -/
  | ptpDelayResp (received : Nat)
  /-- PPS_OUT_EDGE (R715) -/
  | ppsOutEdge
  /-- SFB_IDLE_SEND (R324) -/
  | sfbIdleSend (cp lane : Nat)
  /-- AO_RAIL_LOSS (R678) -/
  | aoRailLoss
  /-- BOOT_COMPLETE (R662) -/
  | bootComplete
  /-- MANAGEMENT_WATCHDOG_EXPIRY (R148) -/
  | managementWatchdogExpiry
  /-- REGISTER_READ_CLEAR (R12) -/
  | registerReadClear (who : Requester) (addr size : Nat) (events : Word)
  /-- JTAG_INSTRUCTION (R626) -/
  | jtagInstruction (instr : Nat) (boundaryScan : Bool)
  /-- I3C_DYNAMIC_ADDRESS (R632) -/
  | i3cDynamicAddress (addr : Nat) (setdasa : Option Nat)
  /-- I3C_MAX_LENGTH_SET (R632) -/
  | i3cMaxLengthSet (rd wr : Nat)
  /-- MOD_EN_RISE (R660) -/
  | modEnRise
deriving DecidableEq, Repr

end Sys2Proof
end

