-- ==== Sys2Proof/Decode.lean ====
section
/-! DEFINITION. The command that a word spells by the bits of spec/opcode_table.json. -/

namespace Sys2Proof

/-- No row of the table has a field, so no word spells a command: commands come with their operands from outside. -/
def decodeTableWord (_nbits _w : Nat) : Option Instr := none

end Sys2Proof
end

