-- ==== Sys2Proof/Config.lean ====
section
/-! DEFINITION. What the manual leaves open: free values. None of these has a body, so no proof can see what it is. -/

namespace Sys2Proof.Config

/-- A fresh value the manual does not fix: the argument is the state's counter of free values (log entry 2). -/
opaque freeNat : Nat → Nat

/-- Detail bytes of a hardware block's event record, 29 bytes of DATA, and its severity (R717 fixes neither; log entry 3). -/
opaque eventDetail : Nat → List (BitVec 8)
opaque eventSeverity : Nat → Nat

/-- Deviation in ns of an island's copy of the time base, before it is held to the bound of R35 (log entry 4). -/
opaque islandDrift : Nat → Nat → Int

/-- The rate correction in ppm, before it is held to TBS_CTRL.SLEW_PPM (R36 fixes only the bound; log entry 5). -/
opaque slewRate : Nat → Nat

/-- Bytes of the random bit generator of the B-die (R614 and others; log entry 6). -/
opaque drbg : Nat → Nat → List (BitVec 8)

/-- Draws of a media key, for one generation, after the first (R220): the manual sets no number (log entry 220). -/
opaque genDraws : Nat

/-- HashML-DSA-65 (FIPS 204) over a 64-byte pre-hash: whether a signature verifies under a public key and a context; the public key
that a 32-byte seed gives, and its signature under a context (log entry 7). -/
opaque sigVerify : List (BitVec 8) → List (BitVec 8) → List (BitVec 8) → List (BitVec 8) → Bool
opaque sigPublic : List (BitVec 8) → List (BitVec 8)
opaque sigSign : List (BitVec 8) → List (BitVec 8) → List (BitVec 8) → List (BitVec 8)

/-- What the manual does not lay out of an Identify structure (CNS, NSID, CNTLID) and of a log page (identifier): all its bytes,
of which the model replaces those that the manual gives (log entry 16). -/
opaque identifyData : Nat → Nat → Nat → List (BitVec 8)
opaque logPageData : Nat → List (BitVec 8)

/-- ML-KEM-1024 (FIPS 203): the encapsulation key of a 64-byte seed; encapsulation to a key with fresh coins, giving ciphertext and
shared secret; decapsulation with the key of a seed (log entry 8). -/
opaque kemPublic : List (BitVec 8) → List (BitVec 8)
opaque kemEncap : List (BitVec 8) → Nat → List (BitVec 8) × List (BitVec 8)
opaque kemDecap : List (BitVec 8) → List (BitVec 8) → List (BitVec 8)

/-- What manufacture programs: the fused seed, MAKER_DIGEST and the factory calibration row (R584, R588; log entry 20). -/
opaque idSeed : List (BitVec 8)
opaque makerDigest : List (BitVec 8)
opaque calRow : List (BitVec 8)

/-- Ceritia's IANA enterprise number (R635; log entry 17). -/
opaque ien : Nat

/-- The approved measurements that an IDENT section holds; the manual gives the section no layout (R599; log entry 30). -/
opaque identMeasurements : List (BitVec 8) → List (List (BitVec 8))

/-- The subsystem NQN that an IDENT section holds (R46, R599; log entry 30). -/
opaque identNqn : List (BitVec 8) → List (BitVec 8)

/-- MCTP versions that the head answers for a message type, and its vendor command set (R633 names the answers, not their content;
log entry 31). -/
opaque mctpVersions : Nat → List (BitVec 8)
opaque mctpCommandSet : Nat

/-- TYPE and BODY of the ring message of a delivered frame: port, time, length, filter, WAKE and the frame's first bytes, which R437
names without a layout (R569; log entry 191). -/
opaque frameType : Nat
opaque frameBody : Nat → Nat → Nat → Nat → Bool → List (BitVec 8) → List (BitVec 8)

/-- The exception ring of a tile, among its 4,096, and TYPE and BODY of the message of an exception, by the kind's place in ExcKind and
the items the manual names; MID of its message (R21, R569; log entry 38). -/
opaque excRing : Nat → Nat
opaque excType : Nat → Nat
opaque excBody : Nat → List Nat → List (BitVec 8)
opaque excMid : Nat → Nat

/-- Payload bytes that the manual does not lay out of the message of the Chamois link that begins with frame SEQ and is first sent at a time:
their number for a TYPE, before it is held to one frame, and each (R119, R120; log entry 13). -/
opaque chlLen : Nat → Nat
opaque chlByte : Nat → Nat → Nat → BitVec 8

/-- FPX_BITS of a new domain, above 8, before it is held to 32 (R260: fixed when the domain is created, by no command's operand; log
entry 201). -/
opaque fpxBits : Nat → Nat

/-- Bytes of a recorder slot whose program power cut short (R652; log entry 32). -/
opaque tornSlot : Nat → List (BitVec 8)

end Sys2Proof.Config
end

