-- ==== Sys2Proof/Machine/Bytes.lean ====
section
/-! DEFINITION. Byte strings: little-endian and big-endian numbers, padding, and the cyclic redundancy codes the manual
names (CRC32C, the CRC-64 of R716, CRC-16/CCITT of R435). -/

namespace Sys2Proof

/-- `n` bytes of a number, least significant first. -/
def le (n : Nat) (v : Nat) : Bytes := (List.range n).map fun i => BitVec.ofNat 8 (v / 256 ^ i)

/-- `n` bytes of a number, most significant first. -/
def be (n : Nat) (v : Nat) : Bytes := (le n v).reverse

/-- The number that bytes hold, least significant first. -/
def ofLe : Bytes → Nat
  | [] => 0
  | b :: l => b.toNat + 256 * ofLe l

/-- The number that bytes hold, most significant first. -/
def ofBe (l : Bytes) : Nat := ofLe l.reverse

/-- Bytes `[i, i + n)` of a string as a little-endian number. -/
def leAt (l : Bytes) (i n : Nat) : Nat := ofLe ((l.drop i).take n)

/-- `n` zero bytes. -/
def zeros (n : Nat) : Bytes := List.replicate n 0

/-- A string cut or filled with zeros to exactly `n` bytes. -/
def padTo (n : Nat) (l : Bytes) : Bytes := (l ++ zeros (n - l.length)).take n

/-- The least multiple of `m` that is at least `n`. -/
def roundUp (n m : Nat) : Nat := (n + m - 1) / m * m

/-- A string filled with zeros to a multiple of `m` bytes. -/
def padMul (m : Nat) (l : Bytes) : Bytes := l ++ zeros (roundUp l.length m - l.length)

/-- Byte-wise exclusive or. -/
def xorBytes (a b : Bytes) : Bytes := List.zipWith (· ^^^ ·) a b

/-- Pieces of `n` bytes, the last perhaps shorter; `fuel` bounds their number. -/
def piecesAux (n : Nat) : Nat → Bytes → List Bytes
  | 0, _ => []
  | fuel + 1, l => if l.isEmpty then [] else l.take n :: piecesAux n fuel (l.drop n)

/-- A string cut into pieces of `n` bytes. -/
def pieces (n : Nat) (l : Bytes) : List Bytes := piecesAux n (l.length / (max n 1) + 1) l

/-- A signed number as `w` bits of two's complement. -/
def ofInt (w : Nat) (i : Int) : Nat := (BitVec.ofInt w i).toNat

/-- `w` bits of two's complement as a signed number. -/
def toInt (w n : Nat) : Int := (BitVec.ofNat w n).toInt

/-- One bit of a reflected CRC of width `w` with polynomial `p` (already reflected). -/
def crcStep {w : Nat} (p c : BitVec w) : BitVec w := if c.getLsbD 0 then (c >>> 1) ^^^ p else c >>> 1

def crcByte {w : Nat} (p c : BitVec w) (b : Byte) : BitVec w :=
  let c := c ^^^ b.setWidth w
  crcStep p (crcStep p (crcStep p (crcStep p (crcStep p (crcStep p (crcStep p (crcStep p c)))))))

/-- CRC32C of a string. -/
def crc32c (l : Bytes) : BitVec 32 := ~~~ (l.foldl (crcByte 0x82F63B78#32) (BitVec.allOnes 32))

/-- The CRC-64 of R716: polynomial 0x42F0_E1EB_A9EA_3693, reflected, initial value and final XOR all ones. -/
def crc64 (l : Bytes) : BitVec 64 := ~~~ (l.foldl (crcByte 0xC96C5795D7870F42#64) (BitVec.allOnes 64))

/-- One bit of a CRC-16 that is not reflected, polynomial `p`. -/
def crc16Step (p c : BitVec 16) : BitVec 16 := if c.getLsbD 15 then (c <<< 1) ^^^ p else c <<< 1

def crc16Byte (p c : BitVec 16) (b : Byte) : BitVec 16 :=
  let c := c ^^^ (b.setWidth 16 <<< 8)
  crc16Step p (crc16Step p (crc16Step p (crc16Step p (crc16Step p (crc16Step p (crc16Step p (crc16Step p c)))))))

/-- CRC-16/CCITT as R435 states it. -/
def crc16ccitt (l : Bytes) : BitVec 16 := l.foldl (crc16Byte 0x1021#16) 0xFFFF#16

/-- Lexicographic order of byte strings, a string before its extensions (R89). -/
def bytesLt : Bytes → Bytes → Bool
  | [], [] => false
  | [], _ :: _ => true
  | _ :: _, [] => false
  | a :: l, b :: m => if a.toNat < b.toNat then true else if b.toNat < a.toNat then false else bytesLt l m

def bytesLe (a b : Bytes) : Bool := !bytesLt b a

end Sys2Proof
end

