-- ==== Sys2Proof/Machine/RegTable.lean ====
section
/-! DEFINITION. The control and status registers of the VX8: every block's registers, their fields, access codes and
reset values, written from the register tables of spec/01 to spec/16 (R9, R31, R44, R107, R108, R164, R165, R207, R249,
R309, R367 to R369, R410, R460 to R462, R494, R525, R552, R583, R630, R631, R658, R686). -/

namespace Sys2Proof

/-- Access codes of R9. -/
inductive Acc | ro | rw | rc | w1c | w1s | wo | rwl
deriving DecidableEq, Repr

/-- One field of a register: lowest bit, width, access code and reset value. -/
structure FieldDesc where
  lo : Nat
  w : Nat
  acc : Acc
  rst : Nat
deriving DecidableEq, Repr

/-- One register or family of registers of a block: offset, the strides and counts of its indices (R711), its fields.
Bits of no field are reserved (R10). -/
structure RegDesc where
  off : Nat
  fam : List (Nat × Nat)
  fields : List FieldDesc
deriving DecidableEq, Repr

/-- A named field: block index, offset of its register, lowest bit and width. -/
structure Fld where
  blk : Nat
  off : Nat
  lo : Nat
  w : Nat
deriving DecidableEq, Repr

/-- The same field of the family member `n` bytes further on. -/
def Fld.plus (f : Fld) (n : Nat) : Fld := { f with off := f.off + n }

namespace Reg

/-! BOOT_STATUS (R630 of spec/14_boot_and_trust.md) -/
def BOOT_STATUS_SLOT : Fld := ⟨0x01, 0x0, 0, 1⟩
def BOOT_STATUS_TRIAL : Fld := ⟨0x01, 0x0, 1, 1⟩
def BOOT_STATUS_RECOVERY : Fld := ⟨0x01, 0x0, 2, 1⟩
def BOOT_STATUS_INSTALLED : Fld := ⟨0x01, 0x0, 3, 1⟩
def BOOT_STATUS_FCR_OK : Fld := ⟨0x01, 0x0, 4, 1⟩
def BOOT_STATUS_MEAS_OK : Fld := ⟨0x01, 0x0, 5, 1⟩
def BOOT_STATUS_REASON_A : Fld := ⟨0x01, 0x0, 8, 3⟩
def BOOT_STATUS_REASON_B : Fld := ⟨0x01, 0x0, 12, 3⟩
def BOOT_STATUS_WRAPGEN : Fld := ⟨0x01, 0x0, 16, 5⟩
/-! BOOT_SVN (R630 of spec/14_boot_and_trust.md) -/
def BOOT_SVN_MFW : Fld := ⟨0x01, 0x8, 0, 8⟩
def BOOT_SVN_CFG : Fld := ⟨0x01, 0x8, 8, 8⟩
def BOOT_SVN_HFW : Fld := ⟨0x01, 0x8, 16, 8⟩
def BOOT_SVN_MFW_MIN : Fld := ⟨0x01, 0x8, 24, 8⟩
def BOOT_SVN_CFG_MIN : Fld := ⟨0x01, 0x8, 32, 8⟩
def BOOT_SVN_HFW_MIN : Fld := ⟨0x01, 0x8, 40, 8⟩
/-! BOOT_CTRL (R630 of spec/14_boot_and_trust.md) -/
def BOOT_CTRL_SLOT_WP : Fld := ⟨0x01, 0x18, 0, 1⟩
def BOOT_CTRL_LOCK : Fld := ⟨0x01, 0x18, 1, 1⟩
def BOOT_CTRL_JTAG_EN : Fld := ⟨0x01, 0x18, 2, 1⟩
/-! BOOT_FORMAT (R630 of spec/14_boot_and_trust.md) -/
def BOOT_FORMAT_FORMAT : Fld := ⟨0x01, 0x10, 0, 32⟩
/-! BOOT_HVEC (R630 of spec/14_boot_and_trust.md) -/
def BOOT_HVEC_ADDR : Fld := ⟨0x01, 0x20, 0, 48⟩
/-! ROLE_STATUS (R631 of spec/14_boot_and_trust.md) -/
def ROLE_STATUS_LAST_CODE : Fld := ⟨0x02, 0x0, 0, 8⟩
def ROLE_STATUS_LAST_ROLE : Fld := ⟨0x02, 0x0, 8, 2⟩
def ROLE_STATUS_LAST_RESULT : Fld := ⟨0x02, 0x0, 10, 3⟩
def ROLE_STATUS_LAST_KEYIDX : Fld := ⟨0x02, 0x0, 16, 4⟩
def ROLE_STATUS_CHALLENGES : Fld := ⟨0x02, 0x0, 20, 4⟩
def ROLE_STATUS_ACCEPTED : Fld := ⟨0x02, 0x0, 32, 32⟩
/-! ROLE_REJECT (R631 of spec/14_boot_and_trust.md) -/
def ROLE_REJECT_BADSIG : Fld := ⟨0x02, 0x8, 0, 32⟩
def ROLE_REJECT_OTHER : Fld := ⟨0x02, 0x8, 32, 32⟩
/-! ROLE_OPKEYS (R631 of spec/14_boot_and_trust.md) -/
def ROLE_OPKEYS_VALID : Fld := ⟨0x02, 0x10, 0, 16⟩
/-! EVR_STATUS (R658 of spec/15_management_plane.md) -/
def EVR_STATUS_NEXT : Fld := ⟨0x03, 0x0, 0, 17⟩
def EVR_STATUS_FULL : Fld := ⟨0x03, 0x0, 17, 1⟩
def EVR_STATUS_FROZEN : Fld := ⟨0x03, 0x0, 18, 1⟩
def EVR_STATUS_WINDOW_OK : Fld := ⟨0x03, 0x0, 19, 1⟩
def EVR_STATUS_HELD : Fld := ⟨0x03, 0x0, 20, 10⟩
/-! EVR_HOURS (R658 of spec/15_management_plane.md) -/
def EVR_HOURS_HOURS : Fld := ⟨0x03, 0x18, 0, 24⟩
def EVR_HOURS_SECONDS : Fld := ⟨0x03, 0x18, 24, 12⟩
def EVR_HOURS_PCYCLE : Fld := ⟨0x03, 0x18, 36, 24⟩
/-! EVR_LOST (R658 of spec/15_management_plane.md) -/
def EVR_LOST_HOLD_LOST : Fld := ⟨0x03, 0x8, 0, 32⟩
def EVR_LOST_FULL_LOST : Fld := ⟨0x03, 0x8, 32, 32⟩
/-! EVR_CTRL (R658 of spec/15_management_plane.md) -/
def EVR_CTRL_FREEZE : Fld := ⟨0x03, 0x10, 0, 1⟩
def EVR_CTRL_THAW : Fld := ⟨0x03, 0x10, 1, 1⟩
/-! EVR_POST (R658 of spec/15_management_plane.md) -/
def EVR_POST_BYTES : Fld := ⟨0x03, 0x100, 0, 64⟩
/-! THM_CTRL (R658 of spec/15_management_plane.md) -/
def THM_CTRL_WARN_C : Fld := ⟨0x04, 0x0, 0, 8⟩
def THM_CTRL_LOCK : Fld := ⟨0x04, 0x0, 8, 1⟩
def THM_CTRL_RO_DISABLE : Fld := ⟨0x04, 0x0, 9, 1⟩
/-! THM_STATUS (R658 of spec/15_management_plane.md) -/
def THM_STATUS_MAX : Fld := ⟨0x04, 0x8, 0, 16⟩
def THM_STATUS_MAX_DIE : Fld := ⟨0x04, 0x8, 16, 8⟩
def THM_STATUS_LEVEL : Fld := ⟨0x04, 0x8, 24, 2⟩
def THM_STATUS_WARN : Fld := ⟨0x04, 0x8, 26, 1⟩
def THM_STATUS_RATE_WARN : Fld := ⟨0x04, 0x8, 27, 1⟩
def THM_STATUS_TRIP_LATCHED : Fld := ⟨0x04, 0x8, 28, 1⟩
/-! THM_DIE_DATA (R658 of spec/15_management_plane.md) -/
def THM_DIE_DATA_TEMP : Fld := ⟨0x04, 0x18, 0, 16⟩
def THM_DIE_DATA_DIODE : Fld := ⟨0x04, 0x18, 16, 16⟩
def THM_DIE_DATA_RATE : Fld := ⟨0x04, 0x18, 32, 16⟩
def THM_DIE_DATA_SRC : Fld := ⟨0x04, 0x18, 48, 1⟩
def THM_DIE_DATA_FALLBACK : Fld := ⟨0x04, 0x18, 49, 1⟩
/-! THM_DIE_IDX (R658 of spec/15_management_plane.md) -/
def THM_DIE_IDX_DIE : Fld := ⟨0x04, 0x10, 0, 8⟩
/-! THM_TRIPS (R658 of spec/15_management_plane.md) -/
def THM_TRIPS_COUNT : Fld := ⟨0x04, 0x20, 0, 32⟩
def THM_TRIPS_HELD : Fld := ⟨0x04, 0x20, 32, 3⟩
def THM_TRIPS_LOST : Fld := ⟨0x04, 0x20, 48, 16⟩
/-! PWR_CTRL (R686 of spec/16_power_and_reset.md) -/
def PWR_CTRL_UV_WARN_DV : Fld := ⟨0x05, 0x0, 0, 10⟩
def PWR_CTRL_PFW_EN : Fld := ⟨0x05, 0x0, 10, 1⟩
def PWR_CTRL_LOCK : Fld := ⟨0x05, 0x0, 11, 1⟩
/-! PWR_STATUS (R686 of spec/16_power_and_reset.md) -/
def PWR_STATUS_VIN : Fld := ⟨0x05, 0x8, 0, 16⟩
def PWR_STATUS_PIN_W : Fld := ⟨0x05, 0x8, 16, 12⟩
def PWR_STATUS_PWR_GOOD : Fld := ⟨0x05, 0x8, 28, 1⟩
def PWR_STATUS_WARNED : Fld := ⟨0x05, 0x8, 29, 1⟩
def PWR_STATUS_DIE_FAIL : Fld := ⟨0x05, 0x8, 30, 1⟩
def PWR_STATUS_LAST_CAUSE : Fld := ⟨0x05, 0x8, 32, 4⟩
/-! PWR_RST (R686 of spec/16_power_and_reset.md) -/
def PWR_RST_HEAD : Fld := ⟨0x05, 0x10, 0, 1⟩
def PWR_RST_C : Fld := ⟨0x05, 0x10, 8, 8⟩
def PWR_RST_F : Fld := ⟨0x05, 0x10, 16, 2⟩
def PWR_RST_M : Fld := ⟨0x05, 0x10, 18, 2⟩
def PWR_RST_S : Fld := ⟨0x05, 0x10, 20, 2⟩
def PWR_RST_GO : Fld := ⟨0x05, 0x10, 63, 1⟩
/-! PWR_DUMP (R686 of spec/16_power_and_reset.md) -/
def PWR_DUMP_KIB : Fld := ⟨0x05, 0x18, 0, 25⟩
def PWR_DUMP_DURATION_US : Fld := ⟨0x05, 0x18, 32, 16⟩
def PWR_DUMP_COMPLETE : Fld := ⟨0x05, 0x18, 48, 1⟩
def PWR_DUMP_FENCED : Fld := ⟨0x05, 0x18, 49, 1⟩
def PWR_DUMP_SKIPPED : Fld := ⟨0x05, 0x18, 50, 1⟩
/-! PWR_DUMPID (R686 of spec/16_power_and_reset.md) -/
def PWR_DUMPID_ID : Fld := ⟨0x05, 0x20, 0, 64⟩
/-! MPX_MB (R658 of spec/15_management_plane.md) -/
def MPX_MB_FULL : Fld := ⟨0x07, 0x0, 0, 1⟩
def MPX_MB_LEN : Fld := ⟨0x07, 0x0, 16, 13⟩
def MPX_MB_TARGET : Fld := ⟨0x07, 0x0, 32, 5⟩
/-! MPX_NET (R658 of spec/15_management_plane.md) -/
def MPX_NET_IPV4 : Fld := ⟨0x07, 0x80, 0, 32⟩
def MPX_NET_PREFIX : Fld := ⟨0x07, 0x80, 32, 6⟩
def MPX_NET_EN : Fld := ⟨0x07, 0x80, 38, 1⟩
def MPX_NET_LOCK : Fld := ⟨0x07, 0x80, 39, 1⟩
/-! MPX_MB_DATA (R658 of spec/15_management_plane.md) -/
def MPX_MB_DATA_BYTES : Fld := ⟨0x07, 0x10000, 0, 64⟩
/-! MPX_GW (R658 of spec/15_management_plane.md) -/
def MPX_GW_GATEWAY : Fld := ⟨0x07, 0x88, 0, 32⟩
/-! TBS_NOW (R44 of spec/01_module_architecture.md) -/
def TBS_NOW_NOW : Fld := ⟨0x08, 0x0, 0, 64⟩
/-! TBS_CTRL (R44 of spec/01_module_architecture.md) -/
def TBS_CTRL_PTP_EN : Fld := ⟨0x08, 0x8, 0, 1⟩
def TBS_CTRL_PPS_EN : Fld := ⟨0x08, 0x8, 1, 1⟩
def TBS_CTRL_PARTNER_EN : Fld := ⟨0x08, 0x8, 2, 1⟩
def TBS_CTRL_PPS_OUT_EN : Fld := ⟨0x08, 0x8, 3, 1⟩
def TBS_CTRL_SLEW_PPM : Fld := ⟨0x08, 0x8, 8, 8⟩
/-! TBS_STATUS (R44 of spec/01_module_architecture.md) -/
def TBS_STATUS_SOURCE : Fld := ⟨0x08, 0x10, 0, 2⟩
def TBS_STATUS_LOCKED : Fld := ⟨0x08, 0x10, 2, 1⟩
def TBS_STATUS_LEADER : Fld := ⟨0x08, 0x10, 3, 1⟩
def TBS_STATUS_HOLDOVER : Fld := ⟨0x08, 0x10, 4, 1⟩
def TBS_STATUS_REJECT : Fld := ⟨0x08, 0x10, 5, 1⟩
def TBS_STATUS_OFFSET : Fld := ⟨0x08, 0x10, 32, 32⟩
/-! TBS_PARTNER (R44 of spec/01_module_architecture.md) -/
def TBS_PARTNER_OFFSET : Fld := ⟨0x08, 0x18, 0, 32⟩
def TBS_PARTNER_ROUND_TRIP : Fld := ⟨0x08, 0x18, 32, 32⟩
/-! MAC_CFG (R460 of spec/09_ports_and_rdma.md) -/
def MAC_CFG_EN : Fld := ⟨0x10, 0x0, 0, 1⟩
def MAC_CFG_MODE : Fld := ⟨0x10, 0x0, 1, 2⟩
def MAC_CFG_MEDIA : Fld := ⟨0x10, 0x0, 3, 2⟩
def MAC_CFG_AN_EN : Fld := ⟨0x10, 0x0, 5, 1⟩
def MAC_CFG_PAUSE : Fld := ⟨0x10, 0x0, 6, 2⟩
def MAC_CFG_RX_PRIO_SRC : Fld := ⟨0x10, 0x0, 8, 1⟩
def MAC_CFG_MAX_FRAME : Fld := ⟨0x10, 0x0, 16, 14⟩
def MAC_CFG_VLAN_ID : Fld := ⟨0x10, 0x0, 32, 12⟩
/-! MAC_STATUS (R460 of spec/09_ports_and_rdma.md) -/
def MAC_STATUS_LINK : Fld := ⟨0x10, 0x8, 0, 1⟩
def MAC_STATUS_FEC_LOCK : Fld := ⟨0x10, 0x8, 1, 1⟩
def MAC_STATUS_AN_DONE : Fld := ⟨0x10, 0x8, 2, 1⟩
def MAC_STATUS_BUF_ERR : Fld := ⟨0x10, 0x8, 3, 1⟩
def MAC_STATUS_HELD : Fld := ⟨0x10, 0x8, 8, 8⟩
def MAC_STATUS_STORM : Fld := ⟨0x10, 0x8, 16, 8⟩
/-! MAC_PRIO (R460 of spec/09_ports_and_rdma.md) -/
def MAC_PRIO_PRIO_c : Fld := ⟨0x10, 0x10, 0, 24⟩
/-! MAC_DSCP (R460 of spec/09_ports_and_rdma.md) -/
def MAC_DSCP_DSCP_p : Fld := ⟨0x10, 0x18, 0, 48⟩
/-! MAC_BUF (R460 of spec/09_ports_and_rdma.md) -/
def MAC_BUF_C0_KIB : Fld := ⟨0x10, 0x20, 0, 12⟩
def MAC_BUF_LL_KIB : Fld := ⟨0x10, 0x20, 16, 12⟩
/-! MAC_PFC (R460 of spec/09_ports_and_rdma.md) -/
def MAC_PFC_LL_PRIO : Fld := ⟨0x10, 0x28, 0, 3⟩
def MAC_PFC_RX_HONOUR : Fld := ⟨0x10, 0x28, 8, 8⟩
def MAC_PFC_XOFF_KIB : Fld := ⟨0x10, 0x28, 16, 12⟩
def MAC_PFC_XON_KIB : Fld := ⟨0x10, 0x28, 32, 12⟩
def MAC_PFC_STORM_MS : Fld := ⟨0x10, 0x28, 48, 16⟩
/-! MAC_SNAP (R460 of spec/09_ports_and_rdma.md) -/
def MAC_SNAP_GO : Fld := ⟨0x10, 0x30, 0, 1⟩
def MAC_SNAP_SEQ : Fld := ⟨0x10, 0x30, 32, 16⟩
/-! MAC_ADDR_CTL (R460 of spec/09_ports_and_rdma.md) -/
def MAC_ADDR_CTL_VALID : Fld := ⟨0x10, 0x8018, 0, 1⟩
def MAC_ADDR_CTL_KIND : Fld := ⟨0x10, 0x8018, 1, 2⟩
def MAC_ADDR_CTL_PORT : Fld := ⟨0x10, 0x8018, 3, 2⟩
def MAC_ADDR_CTL_ADOPTED : Fld := ⟨0x10, 0x8018, 5, 1⟩
def MAC_ADDR_CTL_ACTIVE : Fld := ⟨0x10, 0x8018, 6, 1⟩
/-! MAC_LINK (R460 of spec/09_ports_and_rdma.md) -/
def MAC_LINK_DOWN_MS : Fld := ⟨0x10, 0x38, 0, 16⟩
/-! MAC_CNT (R460 of spec/09_ports_and_rdma.md) -/
def MAC_CNT_COUNT : Fld := ⟨0x10, 0x100, 0, 64⟩
/-! MAC_SNAPC (R460 of spec/09_ports_and_rdma.md) -/
def MAC_SNAPC_COUNT : Fld := ⟨0x10, 0x200, 0, 64⟩
/-! MAC_ADDR_IDX (R460 of spec/09_ports_and_rdma.md) -/
def MAC_ADDR_IDX_IDX : Fld := ⟨0x10, 0x8000, 0, 6⟩
/-! MAC_ADDR_DATA0 (R460 of spec/09_ports_and_rdma.md) -/
def MAC_ADDR_DATA0_ADDR : Fld := ⟨0x10, 0x8008, 0, 64⟩
/-! MAC_ADDR_DATA1 (R460 of spec/09_ports_and_rdma.md) -/
def MAC_ADDR_DATA1_ADDR : Fld := ⟨0x10, 0x8010, 0, 64⟩
/-! MAC_TCOMMIT (R26 of spec/01_module_architecture.md) -/
def MAC_TCOMMIT_COMMIT : Fld := ⟨0x10, 0xff00, 0, 1⟩
def MAC_TCOMMIT_BUSY : Fld := ⟨0x10, 0xff00, 1, 1⟩
def MAC_TCOMMIT_LOST : Fld := ⟨0x10, 0xff00, 2, 1⟩
def MAC_TCOMMIT_ABORT : Fld := ⟨0x10, 0xff00, 3, 1⟩
def MAC_TCOMMIT_TABLES : Fld := ⟨0x10, 0xff00, 16, 16⟩
def MAC_TCOMMIT_GEN : Fld := ⟨0x10, 0xff00, 32, 16⟩
/-! RDM_CTRL (R461 of spec/09_ports_and_rdma.md) -/
def RDM_CTRL_EN : Fld := ⟨0x12, 0x0, 0, 1⟩
def RDM_CTRL_LOCK : Fld := ⟨0x12, 0x0, 1, 1⟩
def RDM_CTRL_C0_PIN_MAX : Fld := ⟨0x12, 0x0, 8, 12⟩
def RDM_CTRL_REORDER_PKTS : Fld := ⟨0x12, 0x0, 20, 7⟩
def RDM_CTRL_REORDER_US : Fld := ⟨0x12, 0x0, 32, 8⟩
def RDM_CTRL_GSI_RING : Fld := ⟨0x12, 0x0, 48, 15⟩
/-! RDM_STATUS (R461 of spec/09_ports_and_rdma.md) -/
def RDM_STATUS_ON_DIE : Fld := ⟨0x12, 0x18, 0, 14⟩
def RDM_STATUS_PINNED : Fld := ⟨0x12, 0x18, 14, 14⟩
def RDM_STATUS_OWN : Fld := ⟨0x12, 0x18, 28, 17⟩
def RDM_STATUS_SHADOW : Fld := ⟨0x12, 0x18, 45, 17⟩
/-! RDM_CC (R461 of spec/09_ports_and_rdma.md) -/
def RDM_CC_ECT : Fld := ⟨0x12, 0x20, 0, 1⟩
def RDM_CC_C0_EXEMPT : Fld := ⟨0x12, 0x20, 1, 1⟩
def RDM_CC_G_SHIFT : Fld := ⟨0x12, 0x20, 4, 4⟩
def RDM_CC_DEC_US : Fld := ⟨0x12, 0x20, 8, 8⟩
def RDM_CC_CNP_US : Fld := ⟨0x12, 0x20, 16, 8⟩
def RDM_CC_ALPHA_US : Fld := ⟨0x12, 0x20, 24, 8⟩
def RDM_CC_INC_US : Fld := ⟨0x12, 0x20, 32, 16⟩
def RDM_CC_FR_STEPS : Fld := ⟨0x12, 0x20, 48, 4⟩
/-! RDM_CC_RATE (R461 of spec/09_ports_and_rdma.md) -/
def RDM_CC_RATE_RAI_MBPS : Fld := ⟨0x12, 0x28, 0, 16⟩
def RDM_CC_RATE_MIN_MBPS : Fld := ⟨0x12, 0x28, 16, 16⟩
/-! RDM_QPCMD (R461 of spec/09_ports_and_rdma.md) -/
def RDM_QPCMD_OP : Fld := ⟨0x12, 0x30, 0, 3⟩
def RDM_QPCMD_ADDR : Fld := ⟨0x12, 0x30, 8, 48⟩
/-! RDM_QPRES (R461 of spec/09_ports_and_rdma.md) -/
def RDM_QPRES_QPN : Fld := ⟨0x12, 0x38, 0, 24⟩
def RDM_QPRES_ERR : Fld := ⟨0x12, 0x38, 24, 3⟩
def RDM_QPRES_BUSY : Fld := ⟨0x12, 0x38, 27, 1⟩
def RDM_QPRES_DONE : Fld := ⟨0x12, 0x38, 28, 1⟩
/-! RDM_REUSE (R461 of spec/09_ports_and_rdma.md) -/
def RDM_REUSE_REUSE_MS : Fld := ⟨0x12, 0x8, 0, 16⟩
/-! RDM_SPILL (R461 of spec/09_ports_and_rdma.md) -/
def RDM_SPILL_ADDR : Fld := ⟨0x12, 0x10, 0, 48⟩
/-! RDM_CNT (R461 of spec/09_ports_and_rdma.md) -/
def RDM_CNT_COUNT : Fld := ⟨0x12, 0x100, 0, 64⟩
/-! NVF_CTRL (R107 of spec/02_host_commands.md) -/
def NVF_CTRL_EN : Fld := ⟨0x13, 0x0, 0, 1⟩
def NVF_CTRL_LOCK : Fld := ⟨0x13, 0x0, 1, 1⟩
def NVF_CTRL_DEFAULT_CLASS : Fld := ⟨0x13, 0x0, 2, 3⟩
def NVF_CTRL_INCAPS_EN : Fld := ⟨0x13, 0x0, 5, 1⟩
/-! NVF_C0_LIMIT (R107 of spec/02_host_commands.md) -/
def NVF_C0_LIMIT_CMDS_PER_MS : Fld := ⟨0x13, 0x8, 0, 16⟩
def NVF_C0_LIMIT_PORT_PCT : Fld := ⟨0x13, 0x8, 16, 8⟩
/-! NVF_C0_OVER (R107 of spec/02_host_commands.md) -/
def NVF_C0_OVER_COUNT : Fld := ⟨0x13, 0x10, 0, 64⟩
/-! NVF_CWEIGHT (R107 of spec/02_host_commands.md) -/
def NVF_CWEIGHT_Wn : Fld := ⟨0x13, 0x18, 8, 56⟩
/-! NVF_C0_MAXLAT (R107 of spec/02_host_commands.md) -/
def NVF_C0_MAXLAT_READ_NS : Fld := ⟨0x13, 0x20, 0, 32⟩
def NVF_C0_MAXLAT_WRITE_NS : Fld := ⟨0x13, 0x20, 32, 32⟩
/-! NVF_QTAB_IDX (R107 of spec/02_host_commands.md) -/
def NVF_QTAB_IDX_IDX : Fld := ⟨0x13, 0x100, 0, 8⟩
/-! NVF_QTAB_DATA (R107 of spec/02_host_commands.md) -/
def NVF_QTAB_DATA_HOSTHASH : Fld := ⟨0x13, 0x108, 0, 32⟩
def NVF_QTAB_DATA_ANYHOST : Fld := ⟨0x13, 0x108, 32, 1⟩
def NVF_QTAB_DATA_QID_LO : Fld := ⟨0x13, 0x108, 40, 8⟩
def NVF_QTAB_DATA_QID_HI : Fld := ⟨0x13, 0x108, 48, 8⟩
def NVF_QTAB_DATA_CLASS : Fld := ⟨0x13, 0x108, 56, 3⟩
def NVF_QTAB_DATA_VALID : Fld := ⟨0x13, 0x108, 63, 1⟩
/-! NVF_NSTAB_IDX (R107 of spec/02_host_commands.md) -/
def NVF_NSTAB_IDX_NSID_M1 : Fld := ⟨0x13, 0x110, 0, 14⟩
/-! NVF_NSTAB_DATA (R107 of spec/02_host_commands.md) -/
def NVF_NSTAB_DATA_VALID : Fld := ⟨0x13, 0x118, 0, 1⟩
def NVF_NSTAB_DATA_KV : Fld := ⟨0x13, 0x118, 1, 1⟩
def NVF_NSTAB_DATA_C0_ELIGIBLE : Fld := ⟨0x13, 0x118, 2, 1⟩
def NVF_NSTAB_DATA_MEDIA_DUR : Fld := ⟨0x13, 0x118, 3, 1⟩
def NVF_NSTAB_DATA_DISABLED : Fld := ⟨0x13, 0x118, 4, 1⟩
def NVF_NSTAB_DATA_DOMAIN : Fld := ⟨0x13, 0x118, 16, 12⟩
/-! NVF_TCOMMIT (R26 of spec/01_module_architecture.md) -/
def NVF_TCOMMIT_COMMIT : Fld := ⟨0x13, 0xff00, 0, 1⟩
def NVF_TCOMMIT_BUSY : Fld := ⟨0x13, 0xff00, 1, 1⟩
def NVF_TCOMMIT_LOST : Fld := ⟨0x13, 0xff00, 2, 1⟩
def NVF_TCOMMIT_ABORT : Fld := ⟨0x13, 0xff00, 3, 1⟩
def NVF_TCOMMIT_TABLES : Fld := ⟨0x13, 0xff00, 16, 16⟩
def NVF_TCOMMIT_GEN : Fld := ⟨0x13, 0xff00, 32, 16⟩
/-! RLK_CTRL (R108 of spec/02_host_commands.md) -/
def RLK_CTRL_C0_RESERVE : Fld := ⟨0x14, 0x0, 0, 12⟩
def RLK_CTRL_PREEMPT_EN : Fld := ⟨0x14, 0x0, 16, 1⟩
/-! RLK_STATUS (R108 of spec/02_host_commands.md) -/
def RLK_STATUS_IN_USE : Fld := ⟨0x14, 0x8, 0, 16⟩
def RLK_STATUS_WAITERS : Fld := ⟨0x14, 0x8, 16, 16⟩
def RLK_STATUS_PEAK : Fld := ⟨0x14, 0x8, 32, 16⟩
/-! RLK_PREEMPT_CNT (R108 of spec/02_host_commands.md) -/
def RLK_PREEMPT_CNT_COUNT : Fld := ⟨0x14, 0x10, 0, 64⟩
/-! RLK_REMOTE_LAT (R108 of spec/02_host_commands.md) -/
def RLK_REMOTE_LAT_LAST_NS : Fld := ⟨0x14, 0x18, 0, 32⟩
def RLK_REMOTE_LAT_MAX_NS : Fld := ⟨0x14, 0x18, 32, 32⟩
/-! CHL_CTRL (R164 of spec/03_two_heads.md) -/
def CHL_CTRL_EN : Fld := ⟨0x15, 0x0, 0, 1⟩
def CHL_CTRL_LOCK : Fld := ⟨0x15, 0x0, 1, 1⟩
def CHL_CTRL_LANE_EN : Fld := ⟨0x15, 0x0, 16, 16⟩
/-! CHL_STATUS (R164 of spec/03_two_heads.md) -/
def CHL_STATUS_UP : Fld := ⟨0x15, 0x8, 0, 1⟩
def CHL_STATUS_PARTNER_SIDE : Fld := ⟨0x15, 0x8, 1, 1⟩
def CHL_STATUS_REPLAYING : Fld := ⟨0x15, 0x8, 2, 1⟩
def CHL_STATUS_LANES_UP : Fld := ⟨0x15, 0x8, 16, 16⟩
/-! CHL_ERR (R164 of spec/03_two_heads.md) -/
def CHL_ERR_CRC_ERR : Fld := ⟨0x15, 0x10, 0, 32⟩
def CHL_ERR_REPLAYS : Fld := ⟨0x15, 0x10, 32, 32⟩
/-! CHL_VLWEIGHT (R164 of spec/03_two_heads.md) -/
def CHL_VLWEIGHT_W2 : Fld := ⟨0x15, 0x18, 0, 8⟩
def CHL_VLWEIGHT_W3 : Fld := ⟨0x15, 0x18, 8, 8⟩
def CHL_VLWEIGHT_W4 : Fld := ⟨0x15, 0x18, 16, 8⟩
/-! CHL_DISCARD (R164 of spec/03_two_heads.md) -/
def CHL_DISCARD_STALE : Fld := ⟨0x15, 0x20, 0, 32⟩
def CHL_DISCARD_VIOL : Fld := ⟨0x15, 0x20, 32, 32⟩
/-! CHL_RTT (R164 of spec/03_two_heads.md) -/
def CHL_RTT_LAST_NS : Fld := ⟨0x15, 0x28, 0, 32⟩
def CHL_RTT_MAX_NS : Fld := ⟨0x15, 0x28, 32, 32⟩
/-! TKO_CTRL (R165 of spec/03_two_heads.md) -/
def TKO_CTRL_AUTO_EN : Fld := ⟨0x16, 0x0, 0, 1⟩
def TKO_CTRL_LOCK : Fld := ⟨0x16, 0x0, 1, 1⟩
def TKO_CTRL_SOLO_MEDIA : Fld := ⟨0x16, 0x0, 2, 1⟩
def TKO_CTRL_SOLO_BOOT_EN : Fld := ⟨0x16, 0x0, 3, 1⟩
def TKO_CTRL_HANDOVER_REQ : Fld := ⟨0x16, 0x0, 4, 1⟩
def TKO_CTRL_TAKEOVER_GO : Fld := ⟨0x16, 0x0, 5, 1⟩
def TKO_CTRL_SOLO_WAIT_S : Fld := ⟨0x16, 0x0, 16, 16⟩
def TKO_CTRL_PEND_RING : Fld := ⟨0x16, 0x0, 32, 12⟩
/-! TKO_STATE (R165 of spec/03_two_heads.md) -/
def TKO_STATE_HEAD : Fld := ⟨0x16, 0x8, 0, 3⟩
def TKO_STATE_PARTNER : Fld := ⟨0x16, 0x8, 3, 3⟩
def TKO_STATE_SIDE : Fld := ⟨0x16, 0x8, 6, 1⟩
def TKO_STATE_LEASE : Fld := ⟨0x16, 0x8, 7, 1⟩
def TKO_STATE_PENDING : Fld := ⟨0x16, 0x8, 8, 1⟩
def TKO_STATE_SHARD_MASTER : Fld := ⟨0x16, 0x8, 9, 1⟩
/-! TKO_EPOCH (R165 of spec/03_two_heads.md) -/
def TKO_EPOCH_EPOCH : Fld := ⟨0x16, 0x10, 0, 32⟩
def TKO_EPOCH_HOLDERS : Fld := ⟨0x16, 0x10, 32, 2⟩
/-! TKO_WITNESS (R165 of spec/03_two_heads.md) -/
def TKO_WITNESS_CARRIER0 : Fld := ⟨0x16, 0x18, 0, 6⟩
def TKO_WITNESS_CARRIER1 : Fld := ⟨0x16, 0x18, 8, 6⟩
def TKO_WITNESS_CARRIER2 : Fld := ⟨0x16, 0x18, 16, 6⟩
/-! TKO_LAST (R165 of spec/03_two_heads.md) -/
def TKO_LAST_CAUSE : Fld := ⟨0x16, 0x20, 0, 8⟩
def TKO_LAST_WON : Fld := ⟨0x16, 0x20, 8, 1⟩
def TKO_LAST_DURATION_NS : Fld := ⟨0x16, 0x20, 32, 32⟩
/-! TKO_SHARD_IDX (R165 of spec/03_two_heads.md) -/
def TKO_SHARD_IDX_IDX : Fld := ⟨0x16, 0x100, 0, 8⟩
/-! TKO_SHARD_DATA (R165 of spec/03_two_heads.md) -/
def TKO_SHARD_DATA_OWNER : Fld := ⟨0x16, 0x108, 0, 1⟩
/-! TKO_TCOMMIT (R26 of spec/01_module_architecture.md) -/
def TKO_TCOMMIT_COMMIT : Fld := ⟨0x16, 0xff00, 0, 1⟩
def TKO_TCOMMIT_BUSY : Fld := ⟨0x16, 0xff00, 1, 1⟩
def TKO_TCOMMIT_LOST : Fld := ⟨0x16, 0xff00, 2, 1⟩
def TKO_TCOMMIT_ABORT : Fld := ⟨0x16, 0xff00, 3, 1⟩
def TKO_TCOMMIT_TABLES : Fld := ⟨0x16, 0xff00, 16, 16⟩
def TKO_TCOMMIT_GEN : Fld := ⟨0x16, 0xff00, 32, 16⟩
/-! PGT_CTRL (R494 of spec/10_snapshots_and_replication.md) -/
def PGT_CTRL_EN : Fld := ⟨0x17, 0x0, 0, 1⟩
def PGT_CTRL_LOCK : Fld := ⟨0x17, 0x0, 1, 1⟩
def PGT_CTRL_UDP_PORT : Fld := ⟨0x17, 0x0, 16, 16⟩
/-! PGT_CFG (R494 of spec/10_snapshots_and_replication.md) -/
def PGT_CFG_PAYLOAD : Fld := ⟨0x17, 0x8, 0, 14⟩
def PGT_CFG_ACK_US : Fld := ⟨0x17, 0x8, 16, 8⟩
def PGT_CFG_NACK_US : Fld := ⟨0x17, 0x8, 24, 8⟩
def PGT_CFG_RTO_US : Fld := ⟨0x17, 0x8, 32, 16⟩
def PGT_CFG_SYNC_MS : Fld := ⟨0x17, 0x8, 48, 8⟩
def PGT_CFG_RXBUF_MIB : Fld := ⟨0x17, 0x8, 56, 8⟩
/-! PGT_SESSCMD (R494 of spec/10_snapshots_and_replication.md) -/
def PGT_SESSCMD_OP : Fld := ⟨0x17, 0x10, 0, 3⟩
def PGT_SESSCMD_ADDR : Fld := ⟨0x17, 0x10, 8, 48⟩
/-! PGT_SESSRES (R494 of spec/10_snapshots_and_replication.md) -/
def PGT_SESSRES_ERR : Fld := ⟨0x17, 0x18, 0, 3⟩
def PGT_SESSRES_BUSY : Fld := ⟨0x17, 0x18, 3, 1⟩
def PGT_SESSRES_DONE : Fld := ⟨0x17, 0x18, 4, 1⟩
def PGT_SESSRES_ACTIVE : Fld := ⟨0x17, 0x18, 5, 9⟩
def PGT_SESSRES_DEGRADED : Fld := ⟨0x17, 0x18, 14, 1⟩
/-! PGT_CNT (R494 of spec/10_snapshots_and_replication.md) -/
def PGT_CNT_COUNT : Fld := ⟨0x17, 0x100, 0, 64⟩
/-! PGT_SNAP_IDX (R494 of spec/10_snapshots_and_replication.md) -/
def PGT_SNAP_IDX_NSID_M1 : Fld := ⟨0x17, 0x200, 0, 14⟩
/-! PGT_SNAP_DATA0 (R494 of spec/10_snapshots_and_replication.md) -/
def PGT_SNAP_DATA0_NEWEST : Fld := ⟨0x17, 0x208, 0, 64⟩
/-! PGT_SNAP_DATA1 (R494 of spec/10_snapshots_and_replication.md) -/
def PGT_SNAP_DATA1_ROOT : Fld := ⟨0x17, 0x210, 0, 64⟩
/-! PGT_TCOMMIT (R26 of spec/01_module_architecture.md) -/
def PGT_TCOMMIT_COMMIT : Fld := ⟨0x17, 0xff00, 0, 1⟩
def PGT_TCOMMIT_BUSY : Fld := ⟨0x17, 0xff00, 1, 1⟩
def PGT_TCOMMIT_LOST : Fld := ⟨0x17, 0xff00, 2, 1⟩
def PGT_TCOMMIT_ABORT : Fld := ⟨0x17, 0xff00, 3, 1⟩
def PGT_TCOMMIT_TABLES : Fld := ⟨0x17, 0xff00, 16, 16⟩
def PGT_TCOMMIT_GEN : Fld := ⟨0x17, 0xff00, 32, 16⟩
/-! PAT_DATA (R462 of spec/09_ports_and_rdma.md) -/
def PAT_DATA_OFFSET : Fld := ⟨0x18, 0x110, 0, 11⟩
def PAT_DATA_CHECK : Fld := ⟨0x18, 0x110, 16, 16⟩
def PAT_DATA_PORTS : Fld := ⟨0x18, 0x110, 32, 4⟩
def PAT_DATA_IN_FAWN : Fld := ⟨0x18, 0x110, 36, 1⟩
def PAT_DATA_IN_SERVICE : Fld := ⟨0x18, 0x110, 37, 1⟩
def PAT_DATA_ACTION : Fld := ⟨0x18, 0x110, 38, 2⟩
def PAT_DATA_RING : Fld := ⟨0x18, 0x110, 40, 15⟩
def PAT_DATA_VALID : Fld := ⟨0x18, 0x110, 63, 1⟩
/-! PAT_CTRL (R462 of spec/09_ports_and_rdma.md) -/
def PAT_CTRL_EN : Fld := ⟨0x18, 0x0, 0, 1⟩
def PAT_CTRL_LOCK : Fld := ⟨0x18, 0x0, 1, 1⟩
/-! PAT_IDX (R462 of spec/09_ports_and_rdma.md) -/
def PAT_IDX_IDX : Fld := ⟨0x18, 0x100, 0, 7⟩
/-! PAT_MASK (R462 of spec/09_ports_and_rdma.md) -/
def PAT_MASK_MASK : Fld := ⟨0x18, 0x108, 0, 64⟩
/-! PAT_HIT (R462 of spec/09_ports_and_rdma.md) -/
def PAT_HIT_COUNT : Fld := ⟨0x18, 0x118, 0, 64⟩
/-! PAT_TCOMMIT (R26 of spec/01_module_architecture.md) -/
def PAT_TCOMMIT_COMMIT : Fld := ⟨0x18, 0xff00, 0, 1⟩
def PAT_TCOMMIT_BUSY : Fld := ⟨0x18, 0xff00, 1, 1⟩
def PAT_TCOMMIT_LOST : Fld := ⟨0x18, 0xff00, 2, 1⟩
def PAT_TCOMMIT_ABORT : Fld := ⟨0x18, 0xff00, 3, 1⟩
def PAT_TCOMMIT_TABLES : Fld := ⟨0x18, 0xff00, 16, 16⟩
def PAT_TCOMMIT_GEN : Fld := ⟨0x18, 0xff00, 32, 16⟩
/-! SFB_CTRL (R367 of spec/07_raw_nand_media.md) -/
def SFB_CTRL_EN : Fld := ⟨0x20, 0x0, 0, 1⟩
def SFB_CTRL_LOCK : Fld := ⟨0x20, 0x0, 1, 1⟩
def SFB_CTRL_PORT_EN : Fld := ⟨0x20, 0x0, 16, 24⟩
/-! SFB_ROSTER (R367 of spec/07_raw_nand_media.md) -/
def SFB_ROSTER_ROSTER : Fld := ⟨0x20, 0x8, 0, 48⟩
/-! SFB_PSTAT (R367 of spec/07_raw_nand_media.md) -/
def SFB_PSTAT_UP : Fld := ⟨0x20, 0x1000, 0, 1⟩
def SFB_PSTAT_ATTACHED : Fld := ⟨0x20, 0x1000, 1, 1⟩
def SFB_PSTAT_LANES : Fld := ⟨0x20, 0x1000, 2, 2⟩
def SFB_PSTAT_TEMP_OK : Fld := ⟨0x20, 0x1000, 4, 1⟩
def SFB_PSTAT_C0_MEDIA : Fld := ⟨0x20, 0x1000, 5, 1⟩
def SFB_PSTAT_JOURNAL_OK : Fld := ⟨0x20, 0x1000, 6, 1⟩
def SFB_PSTAT_DIES : Fld := ⟨0x20, 0x1000, 16, 11⟩
def SFB_PSTAT_NAND_TEMP : Fld := ⟨0x20, 0x1000, 32, 8⟩
/-! SFB_PERR (R367 of spec/07_raw_nand_media.md) -/
def SFB_PERR_CRC_ERR : Fld := ⟨0x20, 0x1008, 0, 32⟩
def SFB_PERR_REPLAYS : Fld := ⟨0x20, 0x1008, 32, 32⟩
/-! SFB_PVIOL (R367 of spec/07_raw_nand_media.md) -/
def SFB_PVIOL_FENCED : Fld := ⟨0x20, 0x1010, 0, 32⟩
def SFB_PVIOL_VIOL : Fld := ⟨0x20, 0x1010, 32, 32⟩
/-! SFB_PEPOCH (R367 of spec/07_raw_nand_media.md) -/
def SFB_PEPOCH_EPOCH : Fld := ⟨0x20, 0x1018, 0, 32⟩
def SFB_PEPOCH_HOLDERS : Fld := ⟨0x20, 0x1018, 32, 2⟩
/-! MED_CTRL (R368 of spec/07_raw_nand_media.md) -/
def MED_CTRL_EN : Fld := ⟨0x21, 0x0, 0, 1⟩
def MED_CTRL_LOCK : Fld := ⟨0x21, 0x0, 1, 1⟩
def MED_CTRL_PROTECT_EN : Fld := ⟨0x21, 0x0, 2, 1⟩
def MED_CTRL_STARVE_MS : Fld := ⟨0x21, 0x0, 8, 8⟩
/-! MED_MON (R368 of spec/07_raw_nand_media.md) -/
def MED_MON_MARGIN_US : Fld := ⟨0x21, 0x8, 0, 8⟩
def MED_MON_COUNT : Fld := ⟨0x21, 0x8, 8, 8⟩
def MED_MON_WINDOW_MS : Fld := ⟨0x21, 0x8, 16, 16⟩
/-! MED_TIMING (R368 of spec/07_raw_nand_media.md) -/
def MED_TIMING_TR_US : Fld := ⟨0x21, 0x10, 0, 16⟩
def MED_TIMING_TSUS_US : Fld := ⟨0x21, 0x10, 16, 16⟩
def MED_TIMING_TPROG_US : Fld := ⟨0x21, 0x10, 32, 16⟩
def MED_TIMING_TBERS_MS : Fld := ⟨0x21, 0x10, 48, 16⟩
/-! MED_C0 (R368 of spec/07_raw_nand_media.md) -/
def MED_C0_MAXLAT_NS : Fld := ⟨0x21, 0x18, 0, 32⟩
def MED_C0_AROUND : Fld := ⟨0x21, 0x18, 32, 32⟩
/-! MED_SUSP (R368 of spec/07_raw_nand_media.md) -/
def MED_SUSP_SUSPENDS : Fld := ⟨0x21, 0x20, 0, 32⟩
def MED_SUSP_DEFERS : Fld := ⟨0x21, 0x20, 32, 32⟩
/-! MED_STARVE (R368 of spec/07_raw_nand_media.md) -/
def MED_STARVE_STARVED : Fld := ⟨0x21, 0x28, 0, 16⟩
def MED_STARVE_PROT_VALID : Fld := ⟨0x21, 0x28, 16, 1⟩
def MED_STARVE_PROT_CP : Fld := ⟨0x21, 0x28, 17, 6⟩
def MED_STARVE_PROT_DIE : Fld := ⟨0x21, 0x28, 32, 10⟩
/-! MED_DIE_IDX (R368 of spec/07_raw_nand_media.md) -/
def MED_DIE_IDX_DIE : Fld := ⟨0x21, 0x30, 0, 10⟩
def MED_DIE_IDX_CP : Fld := ⟨0x21, 0x30, 16, 6⟩
/-! MED_DIE_DATA (R368 of spec/07_raw_nand_media.md) -/
def MED_DIE_DATA_SLOW : Fld := ⟨0x21, 0x38, 0, 1⟩
def MED_DIE_DATA_STARVED : Fld := ⟨0x21, 0x38, 1, 1⟩
def MED_DIE_DATA_PROTECTED : Fld := ⟨0x21, 0x38, 2, 1⟩
def MED_DIE_DATA_EXCLUDED : Fld := ⟨0x21, 0x38, 3, 1⟩
def MED_DIE_DATA_SUSP_COUNT : Fld := ⟨0x21, 0x38, 16, 16⟩
def MED_DIE_DATA_SUSP_US : Fld := ⟨0x21, 0x38, 32, 32⟩
/-! MED_PROF_BASE (R368 of spec/07_raw_nand_media.md) -/
def MED_PROF_BASE_ADDR : Fld := ⟨0x21, 0x40, 0, 48⟩
/-! MED_PROF_COUNT (R368 of spec/07_raw_nand_media.md) -/
def MED_PROF_COUNT_COUNT : Fld := ⟨0x21, 0x48, 0, 7⟩
/-! LDP_CTRL (R369 of spec/07_raw_nand_media.md) -/
def LDP_CTRL_EN : Fld := ⟨0x22, 0x0, 0, 1⟩
def LDP_CTRL_LOCK : Fld := ⟨0x22, 0x0, 1, 1⟩
def LDP_CTRL_C0_DEC : Fld := ⟨0x22, 0x0, 8, 6⟩
def LDP_CTRL_RETRY_MAX : Fld := ⟨0x22, 0x0, 16, 4⟩
def LDP_CTRL_REFRESH_BITS : Fld := ⟨0x22, 0x0, 24, 8⟩
/-! LDP_STAT (R369 of spec/07_raw_nand_media.md) -/
def LDP_STAT_HARD_OK : Fld := ⟨0x22, 0x8, 0, 32⟩
def LDP_STAT_HARD_FAIL : Fld := ⟨0x22, 0x8, 32, 32⟩
/-! LDP_RECOV (R369 of spec/07_raw_nand_media.md) -/
def LDP_RECOV_RETRY_OK : Fld := ⟨0x22, 0x10, 0, 24⟩
def LDP_RECOV_SOFT_OK : Fld := ⟨0x22, 0x10, 24, 24⟩
def LDP_RECOV_TO_PARITY : Fld := ⟨0x22, 0x10, 48, 16⟩
/-! LDP_MISC (R369 of spec/07_raw_nand_media.md) -/
def LDP_MISC_MAXBITS : Fld := ⟨0x22, 0x18, 0, 16⟩
def LDP_MISC_BLANK : Fld := ⟨0x22, 0x18, 16, 16⟩
def LDP_MISC_MISDIRECT : Fld := ⟨0x22, 0x18, 32, 16⟩
/-! LDP_CIRC_IDX (R369 of spec/07_raw_nand_media.md) -/
def LDP_CIRC_IDX_IDX : Fld := ⟨0x22, 0x100, 0, 12⟩
def LDP_CIRC_IDX_CIRC_SET : Fld := ⟨0x22, 0x100, 32, 1⟩
/-! LDP_CIRC_DATA (R369 of spec/07_raw_nand_media.md) -/
def LDP_CIRC_DATA_ROW : Fld := ⟨0x22, 0x108, 0, 5⟩
def LDP_CIRC_DATA_COL : Fld := ⟨0x22, 0x108, 16, 9⟩
def LDP_CIRC_DATA_SHIFT : Fld := ⟨0x22, 0x108, 32, 7⟩
def LDP_CIRC_DATA_VALID : Fld := ⟨0x22, 0x108, 63, 1⟩
/-! LDP_TCOMMIT (R26 of spec/01_module_architecture.md) -/
def LDP_TCOMMIT_COMMIT : Fld := ⟨0x22, 0xff00, 0, 1⟩
def LDP_TCOMMIT_BUSY : Fld := ⟨0x22, 0xff00, 1, 1⟩
def LDP_TCOMMIT_LOST : Fld := ⟨0x22, 0xff00, 2, 1⟩
def LDP_TCOMMIT_ABORT : Fld := ⟨0x22, 0xff00, 3, 1⟩
def LDP_TCOMMIT_TABLES : Fld := ⟨0x22, 0xff00, 16, 16⟩
def LDP_TCOMMIT_GEN : Fld := ⟨0x22, 0xff00, 32, 16⟩
/-! MAP_CTRL (R309 of spec/06_flash_translation.md) -/
def MAP_CTRL_EN : Fld := ⟨0x23, 0x0, 0, 1⟩
def MAP_CTRL_LOCK : Fld := ⟨0x23, 0x0, 1, 1⟩
def MAP_CTRL_SETS_LOG2 : Fld := ⟨0x23, 0x0, 8, 5⟩
def MAP_CTRL_C0_LANES : Fld := ⟨0x23, 0x0, 16, 4⟩
def MAP_CTRL_PF_EN : Fld := ⟨0x23, 0x0, 20, 1⟩
def MAP_CTRL_PF_MAX : Fld := ⟨0x23, 0x0, 24, 8⟩
def MAP_CTRL_PIN_WAYS : Fld := ⟨0x23, 0x0, 32, 4⟩
/-! MAP_STATUS (R309 of spec/06_flash_translation.md) -/
def MAP_STATUS_READY : Fld := ⟨0x23, 0x18, 0, 1⟩
def MAP_STATUS_LANE_WAIT : Fld := ⟨0x23, 0x18, 16, 16⟩
def MAP_STATUS_PINNED : Fld := ⟨0x23, 0x18, 32, 32⟩
/-! MAP_LOOKUP (R309 of spec/06_flash_translation.md) -/
def MAP_LOOKUP_HITS : Fld := ⟨0x23, 0x20, 0, 32⟩
def MAP_LOOKUP_MISSES : Fld := ⟨0x23, 0x20, 32, 32⟩
/-! MAP_PF (R309 of spec/06_flash_translation.md) -/
def MAP_PF_ISSUED : Fld := ⟨0x23, 0x28, 0, 32⟩
def MAP_PF_UNUSED : Fld := ⟨0x23, 0x28, 32, 32⟩
/-! MAP_RANGE_STATUS (R309 of spec/06_flash_translation.md) -/
def MAP_RANGE_STATUS_BUSY : Fld := ⟨0x23, 0x58, 0, 1⟩
def MAP_RANGE_STATUS_LOST : Fld := ⟨0x23, 0x58, 1, 1⟩
def MAP_RANGE_STATUS_DONE : Fld := ⟨0x23, 0x58, 2, 1⟩
def MAP_RANGE_STATUS_ERR : Fld := ⟨0x23, 0x58, 3, 3⟩
def MAP_RANGE_STATUS_LINES : Fld := ⟨0x23, 0x58, 32, 32⟩
/-! MAP_BASE (R309 of spec/06_flash_translation.md) -/
def MAP_BASE_ADDR : Fld := ⟨0x23, 0x8, 0, 48⟩
/-! MAP_DIR (R309 of spec/06_flash_translation.md) -/
def MAP_DIR_ADDR : Fld := ⟨0x23, 0x10, 0, 48⟩
/-! MAP_NOWAY (R309 of spec/06_flash_translation.md) -/
def MAP_NOWAY_COUNT : Fld := ⟨0x23, 0x30, 0, 64⟩
/-! MAP_RANGE_LO (R309 of spec/06_flash_translation.md) -/
def MAP_RANGE_LO_PAGEID : Fld := ⟨0x23, 0x40, 0, 64⟩
/-! MAP_RANGE_HI (R309 of spec/06_flash_translation.md) -/
def MAP_RANGE_HI_PAGEID : Fld := ⟨0x23, 0x48, 0, 64⟩
/-! MAP_RANGE_CMD (R309 of spec/06_flash_translation.md) -/
def MAP_RANGE_CMD_OP : Fld := ⟨0x23, 0x50, 0, 3⟩
/-! FTL_CTRL (R309 of spec/06_flash_translation.md) -/
def FTL_CTRL_EN : Fld := ⟨0x24, 0x0, 0, 1⟩
def FTL_CTRL_LOCK : Fld := ⟨0x24, 0x0, 1, 1⟩
def FTL_CTRL_OPEN_MAX : Fld := ⟨0x24, 0x0, 4, 4⟩
def FTL_CTRL_WIDTH : Fld := ⟨0x24, 0x0, 8, 5⟩
def FTL_CTRL_STRIPE_US : Fld := ⟨0x24, 0x0, 16, 16⟩
def FTL_CTRL_LOG_US : Fld := ⟨0x24, 0x0, 32, 16⟩
/-! FTL_LEVELS (R309 of spec/06_flash_translation.md) -/
def FTL_LEVELS_HIGH : Fld := ⟨0x24, 0x8, 0, 16⟩
def FTL_LEVELS_LOW : Fld := ⟨0x24, 0x8, 16, 16⟩
def FTL_LEVELS_RESV : Fld := ⟨0x24, 0x8, 32, 16⟩
def FTL_LEVELS_SPARE_PCT : Fld := ⟨0x24, 0x8, 48, 8⟩
/-! FTL_FREE (R309 of spec/06_flash_translation.md) -/
def FTL_FREE_SEGS : Fld := ⟨0x24, 0x10, 0, 32⟩
def FTL_FREE_LEVEL : Fld := ⟨0x24, 0x10, 32, 2⟩
def FTL_FREE_READONLY : Fld := ⟨0x24, 0x10, 34, 1⟩
def FTL_FREE_SPARE_LEFT : Fld := ⟨0x24, 0x10, 40, 8⟩
/-! FTL_CKPT (R309 of spec/06_flash_translation.md) -/
def FTL_CKPT_NUM : Fld := ⟨0x24, 0x20, 0, 32⟩
def FTL_CKPT_REQ : Fld := ⟨0x24, 0x20, 32, 1⟩
def FTL_CKPT_BUSY : Fld := ⟨0x24, 0x20, 33, 1⟩
/-! FTL_GC (R309 of spec/06_flash_translation.md) -/
def FTL_GC_PACKS : Fld := ⟨0x24, 0x28, 0, 32⟩
def FTL_GC_TARGET_FAIL : Fld := ⟨0x24, 0x28, 32, 16⟩
def FTL_GC_STUCK : Fld := ⟨0x24, 0x28, 48, 16⟩
/-! FTL_JOURNAL (R309 of spec/06_flash_translation.md) -/
def FTL_JOURNAL_FREE_MIB : Fld := ⟨0x24, 0x30, 0, 32⟩
def FTL_JOURNAL_C0_RES_MIB : Fld := ⟨0x24, 0x30, 32, 16⟩
def FTL_JOURNAL_JCARRIERS : Fld := ⟨0x24, 0x30, 48, 4⟩
def FTL_JOURNAL_DUMP_READY : Fld := ⟨0x24, 0x30, 52, 1⟩
/-! FTL_LSN (R309 of spec/06_flash_translation.md) -/
def FTL_LSN_DURABLE : Fld := ⟨0x24, 0x18, 0, 64⟩
/-! DMC_CHAN (R309 of spec/06_flash_translation.md) -/
def DMC_CHAN_PRESENT : Fld := ⟨0x25, 0x0, 0, 1⟩
def DMC_CHAN_TRAINED : Fld := ⟨0x25, 0x0, 1, 1⟩
def DMC_CHAN_SIZE_GIB : Fld := ⟨0x25, 0x0, 8, 9⟩
def DMC_CHAN_CE : Fld := ⟨0x25, 0x0, 32, 16⟩
def DMC_CHAN_UE : Fld := ⟨0x25, 0x0, 48, 1⟩
/-! PAR_CTRL (R410 of spec/08_double_parity.md) -/
def PAR_CTRL_EN : Fld := ⟨0x26, 0x0, 0, 1⟩
def PAR_CTRL_LOCK : Fld := ⟨0x26, 0x0, 1, 1⟩
def PAR_CTRL_RELOC_PCT : Fld := ⟨0x26, 0x0, 16, 8⟩
/-! PAR_ENGINE (R410 of spec/08_double_parity.md) -/
def PAR_ENGINE_RECON : Fld := ⟨0x26, 0x8, 0, 32⟩
def PAR_ENGINE_UNRECOV : Fld := ⟨0x26, 0x8, 32, 16⟩
/-! PAR_RB (R410 of spec/08_double_parity.md) -/
def PAR_RB_CLASS : Fld := ⟨0x26, 0x10, 0, 3⟩
def PAR_RB_DELAY_S : Fld := ⟨0x26, 0x10, 8, 8⟩
def PAR_RB_FLOOR_MBPS : Fld := ⟨0x26, 0x10, 16, 16⟩
def PAR_RB_SLOW_EVICT_S : Fld := ⟨0x26, 0x10, 32, 16⟩
/-! PAR_RB_STATUS (R410 of spec/08_double_parity.md) -/
def PAR_RB_STATUS_ACTIVE : Fld := ⟨0x26, 0x18, 0, 1⟩
def PAR_RB_STATUS_DOUBLE : Fld := ⟨0x26, 0x18, 1, 1⟩
def PAR_RB_STATUS_LOSS : Fld := ⟨0x26, 0x18, 2, 1⟩
def PAR_RB_STATUS_SEGS_LEFT : Fld := ⟨0x26, 0x18, 32, 32⟩
/-! PAR_RB_RATE (R410 of spec/08_double_parity.md) -/
def PAR_RB_RATE_MBPS : Fld := ⟨0x26, 0x20, 0, 32⟩
def PAR_RB_RATE_FLOOR_WINDOWS : Fld := ⟨0x26, 0x20, 32, 32⟩
/-! PAR_LOST (R410 of spec/08_double_parity.md) -/
def PAR_LOST_CP : Fld := ⟨0x26, 0x28, 0, 6⟩
def PAR_LOST_DIE : Fld := ⟨0x26, 0x28, 6, 10⟩
def PAR_LOST_WHOLE : Fld := ⟨0x26, 0x28, 16, 1⟩
def PAR_LOST_CLEAR : Fld := ⟨0x26, 0x28, 17, 1⟩
def PAR_LOST_GO : Fld := ⟨0x26, 0x28, 63, 1⟩
/-! PAR_RS (R410 of spec/08_double_parity.md) -/
def PAR_RS_GO : Fld := ⟨0x26, 0x30, 0, 1⟩
def PAR_RS_STOP : Fld := ⟨0x26, 0x30, 1, 1⟩
def PAR_RS_VX5 : Fld := ⟨0x26, 0x30, 2, 1⟩
def PAR_RS_TARGET_WIDTH : Fld := ⟨0x26, 0x30, 8, 5⟩
def PAR_RS_CLASS : Fld := ⟨0x26, 0x30, 16, 3⟩
def PAR_RS_CKPT_STRIPES : Fld := ⟨0x26, 0x30, 32, 16⟩
def PAR_RS_NSID_M1 : Fld := ⟨0x26, 0x30, 48, 14⟩
/-! PAR_RS_EVAC (R410 of spec/08_double_parity.md) -/
def PAR_RS_EVAC_EVAC : Fld := ⟨0x26, 0x38, 0, 48⟩
/-! PAR_RS_STATUS (R410 of spec/08_double_parity.md) -/
def PAR_RS_STATUS_ACTIVE : Fld := ⟨0x26, 0x40, 0, 1⟩
def PAR_RS_STATUS_DONE : Fld := ⟨0x26, 0x40, 1, 1⟩
def PAR_RS_STATUS_PAUSED : Fld := ⟨0x26, 0x40, 2, 1⟩
def PAR_RS_STATUS_REFUSED : Fld := ⟨0x26, 0x40, 3, 1⟩
def PAR_RS_STATUS_SEGS_LEFT : Fld := ⟨0x26, 0x40, 32, 32⟩
/-! PAR_SJ (R410 of spec/08_double_parity.md) -/
def PAR_SJ_INTERVAL_MS : Fld := ⟨0x26, 0x48, 0, 16⟩
def PAR_SJ_SINGLE : Fld := ⟨0x26, 0x48, 16, 1⟩
def PAR_SJ_CARRIER_A : Fld := ⟨0x26, 0x48, 24, 6⟩
def PAR_SJ_CARRIER_B : Fld := ⟨0x26, 0x48, 32, 6⟩
/-! PAR_SCRUB (R410 of spec/08_double_parity.md) -/
def PAR_SCRUB_SLOTS : Fld := ⟨0x26, 0x50, 0, 32⟩
def PAR_SCRUB_LOCATED : Fld := ⟨0x26, 0x50, 32, 16⟩
def PAR_SCRUB_UNLOCATED : Fld := ⟨0x26, 0x50, 48, 16⟩
/-! CDC_CTRL (R207 of spec/04_chunking_and_dedup.md) -/
def CDC_CTRL_EN : Fld := ⟨0x30, 0x0, 0, 1⟩
def CDC_CTRL_LOCK : Fld := ⟨0x30, 0x0, 1, 1⟩
def CDC_CTRL_LANE_EN : Fld := ⟨0x30, 0x0, 8, 8⟩
/-! CDC_STATUS (R207 of spec/04_chunking_and_dedup.md) -/
def CDC_STATUS_LANE_IDLE : Fld := ⟨0x30, 0x8, 0, 8⟩
def CDC_STATUS_LANE_FAULT : Fld := ⟨0x30, 0x8, 8, 8⟩
def CDC_STATUS_GEAR_SET : Fld := ⟨0x30, 0x8, 16, 1⟩
/-! CDC_COUNT (R207 of spec/04_chunking_and_dedup.md) -/
def CDC_COUNT_CHUNKS : Fld := ⟨0x30, 0x10, 0, 32⟩
def CDC_COUNT_MAXCUTS : Fld := ⟨0x30, 0x10, 32, 32⟩
/-! CDC_LIMITS (R207 of spec/04_chunking_and_dedup.md) -/
def CDC_LIMITS_MIN : Fld := ⟨0x30, 0x18, 0, 16⟩
def CDC_LIMITS_NORMAL : Fld := ⟨0x30, 0x18, 16, 16⟩
def CDC_LIMITS_MAX : Fld := ⟨0x30, 0x18, 32, 16⟩
def CDC_LIMITS_RULE : Fld := ⟨0x30, 0x18, 48, 8⟩
/-! CDC_GEAR_IDX (R207 of spec/04_chunking_and_dedup.md) -/
def CDC_GEAR_IDX_IDX : Fld := ⟨0x30, 0x100, 0, 8⟩
/-! CDC_GEAR_DATA (R207 of spec/04_chunking_and_dedup.md) -/
def CDC_GEAR_DATA_G : Fld := ⟨0x30, 0x108, 0, 64⟩
/-! CDC_TCOMMIT (R26 of spec/01_module_architecture.md) -/
def CDC_TCOMMIT_COMMIT : Fld := ⟨0x30, 0xff00, 0, 1⟩
def CDC_TCOMMIT_BUSY : Fld := ⟨0x30, 0xff00, 1, 1⟩
def CDC_TCOMMIT_LOST : Fld := ⟨0x30, 0xff00, 2, 1⟩
def CDC_TCOMMIT_ABORT : Fld := ⟨0x30, 0xff00, 3, 1⟩
def CDC_TCOMMIT_TABLES : Fld := ⟨0x30, 0xff00, 16, 16⟩
def CDC_TCOMMIT_GEN : Fld := ⟨0x30, 0xff00, 32, 16⟩
/-! FPL_CTRL (R207 of spec/04_chunking_and_dedup.md) -/
def FPL_CTRL_EN : Fld := ⟨0x31, 0x0, 0, 1⟩
def FPL_CTRL_LOCK : Fld := ⟨0x31, 0x0, 1, 1⟩
def FPL_CTRL_LANE_EN : Fld := ⟨0x31, 0x0, 16, 16⟩
/-! FPL_STATUS (R207 of spec/04_chunking_and_dedup.md) -/
def FPL_STATUS_LANE_IDLE : Fld := ⟨0x31, 0x8, 0, 16⟩
def FPL_STATUS_LANE_FAULT : Fld := ⟨0x31, 0x8, 16, 16⟩
def FPL_STATUS_SLOTS_USED : Fld := ⟨0x31, 0x8, 32, 10⟩
/-! FPL_SLOT_MISS (R207 of spec/04_chunking_and_dedup.md) -/
def FPL_SLOT_MISS_COUNT : Fld := ⟨0x31, 0x10, 0, 64⟩
/-! FPL_HIT (R207 of spec/04_chunking_and_dedup.md) -/
def FPL_HIT_FILTER_HIT : Fld := ⟨0x31, 0x18, 0, 32⟩
def FPL_HIT_CONFIRMED : Fld := ⟨0x31, 0x18, 32, 32⟩
/-! FPL_MISC (R207 of spec/04_chunking_and_dedup.md) -/
def FPL_MISC_ZERO : Fld := ⟨0x31, 0x20, 0, 32⟩
def FPL_MISC_COLLIDE : Fld := ⟨0x31, 0x20, 32, 16⟩
def FPL_MISC_UNCONFIRMED : Fld := ⟨0x31, 0x20, 48, 16⟩
/-! FPL_DOM_IDX (R207 of spec/04_chunking_and_dedup.md) -/
def FPL_DOM_IDX_DOMAIN : Fld := ⟨0x31, 0x100, 0, 12⟩
/-! FPL_DOM_DATA (R207 of spec/04_chunking_and_dedup.md) -/
def FPL_DOM_DATA_VALID : Fld := ⟨0x31, 0x108, 0, 1⟩
def FPL_DOM_DATA_BYTE_CMP : Fld := ⟨0x31, 0x108, 1, 1⟩
def FPL_DOM_DATA_FILTER : Fld := ⟨0x31, 0x108, 2, 1⟩
/-! FPL_SLOT_FLUSH (R207 of spec/04_chunking_and_dedup.md) -/
def FPL_SLOT_FLUSH_DOMAIN : Fld := ⟨0x31, 0x110, 0, 12⟩
def FPL_SLOT_FLUSH_ALL : Fld := ⟨0x31, 0x110, 12, 1⟩
/-! FPL_TCOMMIT (R26 of spec/01_module_architecture.md) -/
def FPL_TCOMMIT_COMMIT : Fld := ⟨0x31, 0xff00, 0, 1⟩
def FPL_TCOMMIT_BUSY : Fld := ⟨0x31, 0xff00, 1, 1⟩
def FPL_TCOMMIT_LOST : Fld := ⟨0x31, 0xff00, 2, 1⟩
def FPL_TCOMMIT_ABORT : Fld := ⟨0x31, 0xff00, 3, 1⟩
def FPL_TCOMMIT_TABLES : Fld := ⟨0x31, 0xff00, 16, 16⟩
def FPL_TCOMMIT_GEN : Fld := ⟨0x31, 0xff00, 32, 16⟩
/-! CMP_CTRL (R249 of spec/05_compression_and_ciphers.md) -/
def CMP_CTRL_EN : Fld := ⟨0x32, 0x0, 0, 1⟩
def CMP_CTRL_LOCK : Fld := ⟨0x32, 0x0, 1, 1⟩
def CMP_CTRL_LANE_EN : Fld := ⟨0x32, 0x0, 16, 16⟩
def CMP_CTRL_FLUSH_US : Fld := ⟨0x32, 0x0, 32, 16⟩
/-! CMP_STATUS (R249 of spec/05_compression_and_ciphers.md) -/
def CMP_STATUS_LANE_IDLE : Fld := ⟨0x32, 0x8, 0, 16⟩
def CMP_STATUS_LANE_FAULT : Fld := ⟨0x32, 0x8, 16, 16⟩
def CMP_STATUS_OPEN_PACKS : Fld := ⟨0x32, 0x8, 32, 5⟩
/-! CMP_FLUSH (R249 of spec/05_compression_and_ciphers.md) -/
def CMP_FLUSH_DOMAIN : Fld := ⟨0x32, 0x10, 0, 12⟩
def CMP_FLUSH_ALL : Fld := ⟨0x32, 0x10, 12, 1⟩
/-! CMP_COUNT (R249 of spec/05_compression_and_ciphers.md) -/
def CMP_COUNT_PACKS : Fld := ⟨0x32, 0x18, 0, 32⟩
def CMP_COUNT_ALL_STORED : Fld := ⟨0x32, 0x18, 32, 32⟩
/-! DCP_CTRL (R249 of spec/05_compression_and_ciphers.md) -/
def DCP_CTRL_EN : Fld := ⟨0x33, 0x0, 0, 1⟩
def DCP_CTRL_LOCK : Fld := ⟨0x33, 0x0, 1, 1⟩
def DCP_CTRL_LANE_EN : Fld := ⟨0x33, 0x0, 16, 16⟩
def DCP_CTRL_C0_LANES : Fld := ⟨0x33, 0x0, 32, 4⟩
/-! DCP_STATUS (R249 of spec/05_compression_and_ciphers.md) -/
def DCP_STATUS_LANE_IDLE : Fld := ⟨0x33, 0x8, 0, 16⟩
def DCP_STATUS_LANE_FAULT : Fld := ⟨0x33, 0x8, 16, 16⟩
/-! DCP_ERR (R249 of spec/05_compression_and_ciphers.md) -/
def DCP_ERR_FORMAT : Fld := ⟨0x33, 0x10, 0, 32⟩
def DCP_ERR_UCRC : Fld := ⟨0x33, 0x10, 32, 32⟩
/-! XTS_CTRL (R249 of spec/05_compression_and_ciphers.md) -/
def XTS_CTRL_EN : Fld := ⟨0x34, 0x0, 0, 1⟩
def XTS_CTRL_LOCK : Fld := ⟨0x34, 0x0, 1, 1⟩
def XTS_CTRL_ENC_LANE_EN : Fld := ⟨0x34, 0x0, 16, 8⟩
def XTS_CTRL_DEC_LANE_EN : Fld := ⟨0x34, 0x0, 24, 8⟩
def XTS_CTRL_C0_LANES : Fld := ⟨0x34, 0x0, 32, 4⟩
/-! XTS_STATUS (R249 of spec/05_compression_and_ciphers.md) -/
def XTS_STATUS_ENC_IDLE : Fld := ⟨0x34, 0x8, 0, 8⟩
def XTS_STATUS_DEC_IDLE : Fld := ⟨0x34, 0x8, 8, 8⟩
def XTS_STATUS_ENC_FAULT : Fld := ⟨0x34, 0x8, 16, 8⟩
def XTS_STATUS_DEC_FAULT : Fld := ⟨0x34, 0x8, 24, 8⟩
def XTS_STATUS_SLOTS_USED : Fld := ⟨0x34, 0x8, 32, 9⟩
/-! XTS_SLOT_MISS (R249 of spec/05_compression_and_ciphers.md) -/
def XTS_SLOT_MISS_COUNT : Fld := ⟨0x34, 0x10, 0, 64⟩
/-! XTS_DOM_IDX (R249 of spec/05_compression_and_ciphers.md) -/
def XTS_DOM_IDX_DOMAIN : Fld := ⟨0x34, 0x100, 0, 12⟩
/-! XTS_DOM_DATA (R249 of spec/05_compression_and_ciphers.md) -/
def XTS_DOM_DATA_VALID : Fld := ⟨0x34, 0x108, 0, 1⟩
def XTS_DOM_DATA_REKEY : Fld := ⟨0x34, 0x108, 1, 1⟩
def XTS_DOM_DATA_WGEN : Fld := ⟨0x34, 0x108, 16, 16⟩
/-! XTS_SLOT_FLUSH (R249 of spec/05_compression_and_ciphers.md) -/
def XTS_SLOT_FLUSH_DOMAIN : Fld := ⟨0x34, 0x110, 0, 12⟩
def XTS_SLOT_FLUSH_ALL : Fld := ⟨0x34, 0x110, 12, 1⟩
/-! XTS_TCOMMIT (R26 of spec/01_module_architecture.md) -/
def XTS_TCOMMIT_COMMIT : Fld := ⟨0x34, 0xff00, 0, 1⟩
def XTS_TCOMMIT_BUSY : Fld := ⟨0x34, 0xff00, 1, 1⟩
def XTS_TCOMMIT_LOST : Fld := ⟨0x34, 0xff00, 2, 1⟩
def XTS_TCOMMIT_ABORT : Fld := ⟨0x34, 0xff00, 3, 1⟩
def XTS_TCOMMIT_TABLES : Fld := ⟨0x34, 0xff00, 16, 16⟩
def XTS_TCOMMIT_GEN : Fld := ⟨0x34, 0xff00, 32, 16⟩
/-! GCM_CTRL (R249 of spec/05_compression_and_ciphers.md) -/
def GCM_CTRL_EN : Fld := ⟨0x35, 0x0, 0, 1⟩
def GCM_CTRL_LOCK : Fld := ⟨0x35, 0x0, 1, 1⟩
def GCM_CTRL_LANE_EN : Fld := ⟨0x35, 0x0, 16, 4⟩
/-! GCM_STATUS (R249 of spec/05_compression_and_ciphers.md) -/
def GCM_STATUS_LANE_IDLE : Fld := ⟨0x35, 0x8, 0, 4⟩
def GCM_STATUS_LANE_FAULT : Fld := ⟨0x35, 0x8, 4, 4⟩
def GCM_STATUS_LOADED : Fld := ⟨0x35, 0x8, 8, 9⟩
/-! GCM_ERR (R249 of spec/05_compression_and_ciphers.md) -/
def GCM_ERR_TAG_FAIL : Fld := ⟨0x35, 0x10, 0, 32⟩
def GCM_ERR_LOAD_REFUSED : Fld := ⟨0x35, 0x10, 32, 32⟩
/-! GCM_LOAD_ADDR (R249 of spec/05_compression_and_ciphers.md) -/
def GCM_LOAD_ADDR_ADDR : Fld := ⟨0x35, 0x18, 0, 48⟩
/-! GCM_LOAD (R249 of spec/05_compression_and_ciphers.md) -/
def GCM_LOAD_ENTRY : Fld := ⟨0x35, 0x20, 0, 8⟩
def GCM_LOAD_LOADCNT : Fld := ⟨0x35, 0x20, 8, 28⟩
def GCM_LOAD_GO : Fld := ⟨0x35, 0x20, 63, 1⟩
/-! KCU_CTRL (R249 of spec/05_compression_and_ciphers.md) -/
def KCU_CTRL_EN : Fld := ⟨0x36, 0x0, 0, 1⟩
def KCU_CTRL_LOCK : Fld := ⟨0x36, 0x0, 1, 1⟩
def KCU_CTRL_CLEAR_KEY_EN : Fld := ⟨0x36, 0x0, 2, 1⟩
def KCU_CTRL_SHUFFLE_EN : Fld := ⟨0x36, 0x0, 3, 1⟩
def KCU_CTRL_DUMMY_MAX : Fld := ⟨0x36, 0x0, 4, 5⟩
/-! KCU_CMD (R249 of spec/05_compression_and_ciphers.md) -/
def KCU_CMD_OPC : Fld := ⟨0x36, 0x1010, 0, 4⟩
def KCU_CMD_ARG : Fld := ⟨0x36, 0x1010, 8, 16⟩
/-! KCU_STATUS (R249 of spec/05_compression_and_ciphers.md) -/
def KCU_STATUS_BUSY : Fld := ⟨0x36, 0x1018, 0, 1⟩
def KCU_STATUS_DONE : Fld := ⟨0x36, 0x1018, 1, 1⟩
def KCU_STATUS_ERR : Fld := ⟨0x36, 0x1018, 2, 3⟩
def KCU_STATUS_KEYED : Fld := ⟨0x36, 0x1018, 5, 1⟩
def KCU_STATUS_CLEARKEY : Fld := ⟨0x36, 0x1018, 6, 1⟩
def KCU_STATUS_OPS : Fld := ⟨0x36, 0x1018, 32, 32⟩
/-! KCU_SRC (R249 of spec/05_compression_and_ciphers.md) -/
def KCU_SRC_ADDR : Fld := ⟨0x36, 0x1000, 0, 48⟩
/-! KCU_DST (R249 of spec/05_compression_and_ciphers.md) -/
def KCU_DST_ADDR : Fld := ⟨0x36, 0x1008, 0, 48⟩
/-! KCU_DATA (R249 of spec/05_compression_and_ciphers.md) -/
def KCU_DATA_BYTES : Fld := ⟨0x36, 0x1020, 0, 64⟩
/-! KCU_KEYIN (R249 of spec/05_compression_and_ciphers.md) -/
def KCU_KEYIN_BYTES : Fld := ⟨0x36, 0x1030, 0, 64⟩
/-! DGE_CTRL (R552 of spec/12_digest_engine.md) -/
def DGE_CTRL_EN : Fld := ⟨0x37, 0x0, 0, 1⟩
def DGE_CTRL_LOCK : Fld := ⟨0x37, 0x0, 1, 1⟩
def DGE_CTRL_CLEAR_KEY_EN : Fld := ⟨0x37, 0x0, 2, 1⟩
/-! DGE_SLOTCMD (R552 of spec/12_digest_engine.md) -/
def DGE_SLOTCMD_OP : Fld := ⟨0x37, 0x10, 0, 3⟩
def DGE_SLOTCMD_SLOT : Fld := ⟨0x37, 0x10, 8, 4⟩
def DGE_SLOTCMD_ALG : Fld := ⟨0x37, 0x10, 12, 4⟩
def DGE_SLOTCMD_KEYLEN : Fld := ⟨0x37, 0x10, 16, 8⟩
def DGE_SLOTCMD_ARG : Fld := ⟨0x37, 0x10, 24, 16⟩
/-! SES_CFG (R552 of spec/12_digest_engine.md) -/
def SES_CFG_ALG : Fld := ⟨0x37, 0x1000, 0, 4⟩
def SES_CFG_PAD : Fld := ⟨0x37, 0x1000, 4, 1⟩
def SES_CFG_DECL_EN : Fld := ⟨0x37, 0x1000, 5, 1⟩
def SES_CFG_RLOCK : Fld := ⟨0x37, 0x1000, 6, 1⟩
def SES_CFG_SLOT : Fld := ⟨0x37, 0x1000, 8, 4⟩
def SES_CFG_RSLOT : Fld := ⟨0x37, 0x1000, 12, 4⟩
def SES_CFG_OUTLEN : Fld := ⟨0x37, 0x1000, 16, 7⟩
/-! SES_CMD (R552 of spec/12_digest_engine.md) -/
def SES_CMD_OP : Fld := ⟨0x37, 0x1010, 0, 4⟩
def SES_CMD_TAP : Fld := ⟨0x37, 0x1010, 4, 1⟩
def SES_CMD_TAPID : Fld := ⟨0x37, 0x1010, 8, 16⟩
def SES_CMD_ARG : Fld := ⟨0x37, 0x1010, 24, 8⟩
/-! SES_STATUS (R552 of spec/12_digest_engine.md) -/
def SES_STATUS_OPEN : Fld := ⟨0x37, 0x1048, 0, 1⟩
def SES_STATUS_BUSY : Fld := ⟨0x37, 0x1048, 1, 1⟩
def SES_STATUS_DONE : Fld := ⟨0x37, 0x1048, 2, 1⟩
def SES_STATUS_ERR : Fld := ⟨0x37, 0x1048, 3, 3⟩
def SES_STATUS_ARMED : Fld := ⟨0x37, 0x1048, 6, 1⟩
def SES_STATUS_TRUNC : Fld := ⟨0x37, 0x1048, 7, 1⟩
def SES_STATUS_TAPFAULT : Fld := ⟨0x37, 0x1048, 8, 1⟩
/-! RES_INFO (R552 of spec/12_digest_engine.md) -/
def RES_INFO_VALID : Fld := ⟨0x37, 0x8000, 0, 1⟩
def RES_INFO_ALG : Fld := ⟨0x37, 0x8000, 1, 4⟩
def RES_INFO_TRUNC : Fld := ⟨0x37, 0x8000, 5, 1⟩
def RES_INFO_SHORT : Fld := ⟨0x37, 0x8000, 6, 1⟩
def RES_INFO_TAPFAULT : Fld := ⟨0x37, 0x8000, 7, 1⟩
def RES_INFO_LOCKED : Fld := ⟨0x37, 0x8000, 8, 1⟩
def RES_INFO_SEQ : Fld := ⟨0x37, 0x8000, 9, 7⟩
def RES_INFO_LEN : Fld := ⟨0x37, 0x8000, 16, 48⟩
/-! DGE_SLOTSRC (R552 of spec/12_digest_engine.md) -/
def DGE_SLOTSRC_ADDR : Fld := ⟨0x37, 0x18, 0, 48⟩
/-! DGE_SLOTRES (R552 of spec/12_digest_engine.md) -/
def DGE_SLOTRES_BUSY : Fld := ⟨0x37, 0x20, 0, 1⟩
def DGE_SLOTRES_DONE : Fld := ⟨0x37, 0x20, 1, 1⟩
def DGE_SLOTRES_ERR : Fld := ⟨0x37, 0x20, 2, 3⟩
def DGE_SLOTRES_VALID : Fld := ⟨0x37, 0x20, 16, 16⟩
/-! DGE_KEYIN (R552 of spec/12_digest_engine.md) -/
def DGE_KEYIN_BYTES : Fld := ⟨0x37, 0x100, 0, 64⟩
/-! SES_DECL (R552 of spec/12_digest_engine.md) -/
def SES_DECL_LEN : Fld := ⟨0x37, 0x1008, 0, 48⟩
/-! SES_ADDR (R552 of spec/12_digest_engine.md) -/
def SES_ADDR_ADDR : Fld := ⟨0x37, 0x1018, 0, 48⟩
/-! SES_LEN (R552 of spec/12_digest_engine.md) -/
def SES_LEN_LEN : Fld := ⟨0x37, 0x1020, 0, 48⟩
/-! SES_DATA (R552 of spec/12_digest_engine.md) -/
def SES_DATA_BYTES : Fld := ⟨0x37, 0x1028, 0, 64⟩
/-! SES_LAST (R552 of spec/12_digest_engine.md) -/
def SES_LAST_BYTES : Fld := ⟨0x37, 0x1030, 0, 64⟩
/-! SES_LAST_VB (R552 of spec/12_digest_engine.md) -/
def SES_LAST_VB_VB : Fld := ⟨0x37, 0x1038, 0, 4⟩
/-! SES_COUNT (R552 of spec/12_digest_engine.md) -/
def SES_COUNT_COUNT : Fld := ⟨0x37, 0x1040, 0, 48⟩
/-! RES_D (R552 of spec/12_digest_engine.md) -/
def RES_D_BYTES : Fld := ⟨0x37, 0x8008, 0, 64⟩
/-! HRD_CTRL (R583 of spec/13_control_plane.md) -/
def HRD_CTRL_EN : Fld := ⟨0x38, 0x0, 0, 1⟩
def HRD_CTRL_LOCK : Fld := ⟨0x38, 0x0, 1, 1⟩
def HRD_CTRL_DET : Fld := ⟨0x38, 0x0, 2, 1⟩
def HRD_CTRL_REPLAY : Fld := ⟨0x38, 0x0, 3, 1⟩
def HRD_CTRL_TICK_US : Fld := ⟨0x38, 0x0, 16, 16⟩
/-! HRD_STATUS (R583 of spec/13_control_plane.md) -/
def HRD_STATUS_RING_ERR : Fld := ⟨0x38, 0x8, 0, 1⟩
def HRD_STATUS_FULL_WAITS : Fld := ⟨0x38, 0x8, 32, 32⟩
/-! HRD_WDOG (R583 of spec/13_control_plane.md) -/
def HRD_WDOG_EN : Fld := ⟨0x38, 0x10, 0, 1⟩
def HRD_WDOG_KICK : Fld := ⟨0x38, 0x10, 1, 1⟩
def HRD_WDOG_EXPIRED : Fld := ⟨0x38, 0x10, 2, 1⟩
def HRD_WDOG_TIMEOUT_US : Fld := ⟨0x38, 0x10, 32, 32⟩
/-! HRD_RING_DATA (R583 of spec/13_control_plane.md) -/
def HRD_RING_DATA_VALID : Fld := ⟨0x38, 0x108, 0, 1⟩
def HRD_RING_DATA_DIR : Fld := ⟨0x38, 0x108, 1, 1⟩
def HRD_RING_DATA_CAPTURE : Fld := ⟨0x38, 0x108, 2, 1⟩
def HRD_RING_DATA_SIZE_LOG2 : Fld := ⟨0x38, 0x108, 3, 5⟩
def HRD_RING_DATA_BASE : Fld := ⟨0x38, 0x108, 8, 42⟩
/-! HRD_RING (R583 of spec/13_control_plane.md) -/
def HRD_RING_CONS : Fld := ⟨0x38, 0x100000, 0, 20⟩
def HRD_RING_PROD : Fld := ⟨0x38, 0x100000, 32, 20⟩
/-! HRD_TICK (R583 of spec/13_control_plane.md) -/
def HRD_TICK_RING : Fld := ⟨0x38, 0x30, 0, 12⟩
/-! HRD_RING_IDX (R583 of spec/13_control_plane.md) -/
def HRD_RING_IDX_IDX : Fld := ⟨0x38, 0x100, 0, 12⟩
/-! HRD_TCOMMIT (R26 of spec/01_module_architecture.md) -/
def HRD_TCOMMIT_COMMIT : Fld := ⟨0x38, 0xff00, 0, 1⟩
def HRD_TCOMMIT_BUSY : Fld := ⟨0x38, 0xff00, 1, 1⟩
def HRD_TCOMMIT_LOST : Fld := ⟨0x38, 0xff00, 2, 1⟩
def HRD_TCOMMIT_ABORT : Fld := ⟨0x38, 0xff00, 3, 1⟩
def HRD_TCOMMIT_TABLES : Fld := ⟨0x38, 0xff00, 16, 16⟩
def HRD_TCOMMIT_GEN : Fld := ⟨0x38, 0xff00, 32, 16⟩
/-! WIN_DATA0 (R583 of spec/13_control_plane.md) -/
def WIN_DATA0_FIRST : Fld := ⟨0x39, 0x108, 0, 36⟩
/-! WIN_DATA1 (R583 of spec/13_control_plane.md) -/
def WIN_DATA1_LAST : Fld := ⟨0x39, 0x110, 0, 36⟩
def WIN_DATA1_RIGHTS : Fld := ⟨0x39, 0x110, 36, 3⟩
def WIN_DATA1_VALID : Fld := ⟨0x39, 0x110, 39, 1⟩
def WIN_DATA1_MIDS : Fld := ⟨0x39, 0x110, 48, 16⟩
/-! WIN_FAULT (R583 of spec/13_control_plane.md) -/
def WIN_FAULT_ADDR : Fld := ⟨0x39, 0x120, 0, 48⟩
def WIN_FAULT_MID : Fld := ⟨0x39, 0x120, 48, 4⟩
def WIN_FAULT_CHAN : Fld := ⟨0x39, 0x120, 52, 4⟩
def WIN_FAULT_KIND : Fld := ⟨0x39, 0x120, 56, 2⟩
def WIN_FAULT_CAUSE : Fld := ⟨0x39, 0x120, 58, 2⟩
def WIN_FAULT_VALID : Fld := ⟨0x39, 0x120, 63, 1⟩
/-! WIN_CTRL (R583 of spec/13_control_plane.md) -/
def WIN_CTRL_EN : Fld := ⟨0x39, 0x0, 0, 1⟩
def WIN_CTRL_LOCK : Fld := ⟨0x39, 0x0, 1, 1⟩
/-! WIN_IDX (R583 of spec/13_control_plane.md) -/
def WIN_IDX_IDX : Fld := ⟨0x39, 0x100, 0, 8⟩
/-! WIN_FTIME (R583 of spec/13_control_plane.md) -/
def WIN_FTIME_TIME : Fld := ⟨0x39, 0x128, 0, 64⟩
/-! WIN_FCNT (R583 of spec/13_control_plane.md) -/
def WIN_FCNT_FAULTS : Fld := ⟨0x39, 0x130, 0, 32⟩
def WIN_FCNT_DROPPED : Fld := ⟨0x39, 0x130, 32, 32⟩
/-! WIN_TCOMMIT (R26 of spec/01_module_architecture.md) -/
def WIN_TCOMMIT_COMMIT : Fld := ⟨0x39, 0xff00, 0, 1⟩
def WIN_TCOMMIT_BUSY : Fld := ⟨0x39, 0xff00, 1, 1⟩
def WIN_TCOMMIT_LOST : Fld := ⟨0x39, 0xff00, 2, 1⟩
def WIN_TCOMMIT_ABORT : Fld := ⟨0x39, 0xff00, 3, 1⟩
def WIN_TCOMMIT_TABLES : Fld := ⟨0x39, 0xff00, 16, 16⟩
def WIN_TCOMMIT_GEN : Fld := ⟨0x39, 0xff00, 32, 16⟩
/-! CMT_LO (R583 of spec/13_control_plane.md) -/
def CMT_LO_ADDR : Fld := ⟨0x3a, 0x0, 0, 48⟩
/-! CMT_HI (R583 of spec/13_control_plane.md) -/
def CMT_HI_ADDR : Fld := ⟨0x3a, 0x8, 0, 48⟩
/-! CMT_CMD (R583 of spec/13_control_plane.md) -/
def CMT_CMD_OP : Fld := ⟨0x3a, 0x10, 0, 2⟩
/-! CMT_STATUS (R583 of spec/13_control_plane.md) -/
def CMT_STATUS_BUSY : Fld := ⟨0x3a, 0x18, 0, 1⟩
def CMT_STATUS_LOST : Fld := ⟨0x3a, 0x18, 1, 1⟩
def CMT_STATUS_DONE : Fld := ⟨0x3a, 0x18, 2, 1⟩
/-! HMC_CTRL (R583 of spec/13_control_plane.md) -/
def HMC_CTRL_EN : Fld := ⟨0x3b, 0x0, 0, 1⟩
def HMC_CTRL_LOCK : Fld := ⟨0x3b, 0x0, 1, 1⟩
/-! HMC_ERR (R583 of spec/13_control_plane.md) -/
def HMC_ERR_CE : Fld := ⟨0x3b, 0x8, 0, 32⟩
def HMC_ERR_UE : Fld := ⟨0x3b, 0x8, 32, 1⟩
/-! HMC_C0LAT (R583 of spec/13_control_plane.md) -/
def HMC_C0LAT_MAX_NS : Fld := ⟨0x3b, 0x10, 0, 32⟩
/-! RPL_CTRL (R583 of spec/13_control_plane.md) -/
def RPL_CTRL_EN : Fld := ⟨0x3c, 0x0, 0, 1⟩
def RPL_CTRL_MODE : Fld := ⟨0x3c, 0x0, 1, 1⟩
def RPL_CTRL_OUT_EN : Fld := ⟨0x3c, 0x0, 2, 1⟩
def RPL_CTRL_CLUSTERS : Fld := ⟨0x3c, 0x0, 8, 4⟩
/-! RPL_STATUS (R583 of spec/13_control_plane.md) -/
def RPL_STATUS_RUNNING : Fld := ⟨0x3c, 0x20, 0, 1⟩
def RPL_STATUS_FAULT : Fld := ⟨0x3c, 0x20, 1, 1⟩
def RPL_STATUS_DIVERGED : Fld := ⟨0x3c, 0x20, 2, 1⟩
def RPL_STATUS_CORE : Fld := ⟨0x3c, 0x20, 8, 8⟩
def RPL_STATUS_GAPS : Fld := ⟨0x3c, 0x20, 16, 32⟩
/-! RPL_BASE (R583 of spec/13_control_plane.md) -/
def RPL_BASE_ADDR : Fld := ⟨0x3c, 0x8, 0, 48⟩
/-! RPL_SIZE (R583 of spec/13_control_plane.md) -/
def RPL_SIZE_MIB : Fld := ⟨0x3c, 0x10, 0, 16⟩
/-! RPL_SNAPCMD (R583 of spec/13_control_plane.md) -/
def RPL_SNAPCMD_ADDR : Fld := ⟨0x3c, 0x18, 0, 48⟩
def RPL_SNAPCMD_PAGES : Fld := ⟨0x3c, 0x18, 48, 16⟩
/-! FRZ_STATUS (R583 of spec/13_control_plane.md) -/
def FRZ_STATUS_ANY : Fld := ⟨0x3d, 0x40, 0, 1⟩
def FRZ_STATUS_REQ_PEND : Fld := ⟨0x3d, 0x40, 1, 1⟩
def FRZ_STATUS_HEAD : Fld := ⟨0x3d, 0x40, 2, 1⟩
def FRZ_STATUS_LAST_MID : Fld := ⟨0x3d, 0x40, 8, 4⟩
def FRZ_STATUS_LAST_CHAN : Fld := ⟨0x3d, 0x40, 12, 4⟩
def FRZ_STATUS_COUNT : Fld := ⟨0x3d, 0x40, 16, 32⟩
/-! FRZ_THAW (R583 of spec/13_control_plane.md) -/
def FRZ_THAW_MID : Fld := ⟨0x3d, 0x48, 0, 4⟩
def FRZ_THAW_CHAN : Fld := ⟨0x3d, 0x48, 4, 4⟩
def FRZ_THAW_MODE : Fld := ⟨0x3d, 0x48, 8, 1⟩
def FRZ_THAW_GO : Fld := ⟨0x3d, 0x48, 63, 1⟩
/-! FRZ_F (R583 of spec/13_control_plane.md) -/
def FRZ_F_FROZEN : Fld := ⟨0x3d, 0x0, 0, 64⟩
/-! FRZ_CTRL (R583 of spec/13_control_plane.md) -/
def FRZ_CTRL_RING : Fld := ⟨0x3d, 0x50, 0, 12⟩
/-! CSA_CTRL (R525 of spec/11_content_search.md) -/
def CSA_CTRL_EN : Fld := ⟨0x40, 0x0, 0, 1⟩
def CSA_CTRL_LOCK : Fld := ⟨0x40, 0x0, 1, 1⟩
def CSA_CTRL_PD_UNUSED : Fld := ⟨0x40, 0x0, 2, 1⟩
/-! CSA_STATUS (R525 of spec/11_content_search.md) -/
def CSA_STATUS_READY : Fld := ⟨0x40, 0x8, 0, 1⟩
def CSA_STATUS_PART_ERR : Fld := ⟨0x40, 0x8, 1, 1⟩
/-! CSA_PART_DATA (R525 of spec/11_content_search.md) -/
def CSA_PART_DATA_VALID : Fld := ⟨0x40, 0x208, 0, 1⟩
def CSA_PART_DATA_PURPOSE : Fld := ⟨0x40, 0x208, 1, 2⟩
def CSA_PART_DATA_WIDTH : Fld := ⟨0x40, 0x208, 3, 2⟩
def CSA_PART_DATA_FIRST_BANK : Fld := ⟨0x40, 0x208, 8, 6⟩
def CSA_PART_DATA_BANKS : Fld := ⟨0x40, 0x208, 16, 7⟩
def CSA_PART_DATA_HOLE_LOG2 : Fld := ⟨0x40, 0x208, 24, 3⟩
def CSA_PART_DATA_SHIFT_MAX : Fld := ⟨0x40, 0x208, 32, 10⟩
/-! CSA_PSTAT (R525 of spec/11_content_search.md) -/
def CSA_PSTAT_ENTRIES : Fld := ⟨0x40, 0x210, 0, 22⟩
def CSA_PSTAT_RESPREAD : Fld := ⟨0x40, 0x210, 22, 1⟩
def CSA_PSTAT_FULL : Fld := ⟨0x40, 0x210, 23, 1⟩
def CSA_PSTAT_RING_PTR : Fld := ⟨0x40, 0x210, 32, 21⟩
/-! CSA_CMD (R525 of spec/11_content_search.md) -/
def CSA_CMD_OP : Fld := ⟨0x40, 0x380, 0, 4⟩
def CSA_CMD_PART : Fld := ⟨0x40, 0x380, 4, 4⟩
def CSA_CMD_RANK : Fld := ⟨0x40, 0x380, 8, 4⟩
def CSA_CMD_ADDR : Fld := ⟨0x40, 0x380, 16, 21⟩
/-! CSA_RESULT (R525 of spec/11_content_search.md) -/
def CSA_RESULT_BUSY : Fld := ⟨0x40, 0x388, 0, 1⟩
def CSA_RESULT_DONE : Fld := ⟨0x40, 0x388, 1, 1⟩
def CSA_RESULT_HIT : Fld := ⟨0x40, 0x388, 2, 1⟩
def CSA_RESULT_ERR : Fld := ⟨0x40, 0x388, 3, 3⟩
def CSA_RESULT_RANK : Fld := ⟨0x40, 0x388, 6, 4⟩
def CSA_RESULT_ADDR : Fld := ⟨0x40, 0x388, 16, 21⟩
/-! CSA_BANKPWR (R525 of spec/11_content_search.md) -/
def CSA_BANKPWR_POWERED : Fld := ⟨0x40, 0x10, 0, 64⟩
/-! CSA_CNT (R525 of spec/11_content_search.md) -/
def CSA_CNT_COUNT : Fld := ⟨0x40, 0x100, 0, 64⟩
/-! CSA_PART_IDX (R525 of spec/11_content_search.md) -/
def CSA_PART_IDX_IDX : Fld := ⟨0x40, 0x200, 0, 4⟩
/-! CSA_KEY (R525 of spec/11_content_search.md) -/
def CSA_KEY_V : Fld := ⟨0x40, 0x300, 0, 64⟩
/-! CSA_EMASK (R525 of spec/11_content_search.md) -/
def CSA_EMASK_V : Fld := ⟨0x40, 0x328, 0, 64⟩
/-! CSA_SMASK (R525 of spec/11_content_search.md) -/
def CSA_SMASK_V : Fld := ⟨0x40, 0x350, 0, 64⟩
/-! CSA_ASSOC (R525 of spec/11_content_search.md) -/
def CSA_ASSOC_V : Fld := ⟨0x40, 0x378, 0, 64⟩
/-! CSA_TCOMMIT (R26 of spec/01_module_architecture.md) -/
def CSA_TCOMMIT_COMMIT : Fld := ⟨0x40, 0xff00, 0, 1⟩
def CSA_TCOMMIT_BUSY : Fld := ⟨0x40, 0xff00, 1, 1⟩
def CSA_TCOMMIT_LOST : Fld := ⟨0x40, 0xff00, 2, 1⟩
def CSA_TCOMMIT_ABORT : Fld := ⟨0x40, 0xff00, 3, 1⟩
def CSA_TCOMMIT_TABLES : Fld := ⟨0x40, 0xff00, 16, 16⟩
def CSA_TCOMMIT_GEN : Fld := ⟨0x40, 0xff00, 32, 16⟩

end Reg

/-- The registers of block BOOT. -/
def regsBOOT : List RegDesc := [
  ⟨0x0, [], [⟨0, 1, .ro, 0x0⟩, ⟨1, 1, .ro, 0x0⟩, ⟨2, 1, .ro, 0x0⟩, ⟨3, 1, .ro, 0x0⟩, ⟨4, 1, .ro, 0x0⟩, ⟨5, 1, .ro, 0x0⟩, ⟨8, 3, .ro, 0x0⟩, ⟨12, 3, .ro, 0x0⟩, ⟨16, 5, .ro, 0x0⟩]⟩,
  ⟨0x8, [], [⟨0, 8, .ro, 0x0⟩, ⟨8, 8, .ro, 0x0⟩, ⟨16, 8, .ro, 0x0⟩, ⟨24, 8, .ro, 0x0⟩, ⟨32, 8, .ro, 0x0⟩, ⟨40, 8, .ro, 0x0⟩]⟩,
  ⟨0x18, [], [⟨0, 1, .rwl, 0x1⟩, ⟨1, 1, .w1s, 0x0⟩, ⟨2, 1, .ro, 0x0⟩]⟩,
  ⟨0x10, [], [⟨0, 32, .ro, 0x0⟩]⟩,
  ⟨0x20, [], [⟨0, 48, .rwl, 0x0⟩]⟩]

/-- The registers of block ROLE. -/
def regsROLE : List RegDesc := [
  ⟨0x0, [], [⟨0, 8, .ro, 0x0⟩, ⟨8, 2, .ro, 0x0⟩, ⟨10, 3, .ro, 0x0⟩, ⟨16, 4, .ro, 0x0⟩, ⟨20, 4, .ro, 0x0⟩, ⟨32, 32, .ro, 0x0⟩]⟩,
  ⟨0x8, [], [⟨0, 32, .rc, 0x0⟩, ⟨32, 32, .rc, 0x0⟩]⟩,
  ⟨0x10, [], [⟨0, 16, .ro, 0x0⟩]⟩]

/-- The registers of block EVR. -/
def regsEVR : List RegDesc := [
  ⟨0x0, [], [⟨0, 17, .ro, 0x0⟩, ⟨17, 1, .ro, 0x0⟩, ⟨18, 1, .ro, 0x0⟩, ⟨19, 1, .ro, 0x0⟩, ⟨20, 10, .ro, 0x0⟩]⟩,
  ⟨0x18, [], [⟨0, 24, .ro, 0x0⟩, ⟨24, 12, .ro, 0x0⟩, ⟨36, 24, .ro, 0x0⟩]⟩,
  ⟨0x8, [], [⟨0, 32, .rc, 0x0⟩, ⟨32, 32, .rc, 0x0⟩]⟩,
  ⟨0x10, [], [⟨0, 1, .wo, 0x0⟩, ⟨1, 1, .wo, 0x0⟩]⟩,
  ⟨0x100, [(0x8, 8)], [⟨0, 64, .wo, 0x0⟩]⟩]

/-- The registers of block THM. -/
def regsTHM : List RegDesc := [
  ⟨0x0, [], [⟨0, 8, .rwl, 0x5f⟩, ⟨8, 1, .w1s, 0x0⟩, ⟨9, 1, .rwl, 0x0⟩]⟩,
  ⟨0x8, [], [⟨0, 16, .ro, 0x0⟩, ⟨16, 8, .ro, 0x0⟩, ⟨24, 2, .ro, 0x0⟩, ⟨26, 1, .ro, 0x0⟩, ⟨27, 1, .ro, 0x0⟩, ⟨28, 1, .ro, 0x0⟩]⟩,
  ⟨0x18, [], [⟨0, 16, .ro, 0x0⟩, ⟨16, 16, .ro, 0x0⟩, ⟨32, 16, .ro, 0x0⟩, ⟨48, 1, .ro, 0x1⟩, ⟨49, 1, .ro, 0x0⟩]⟩,
  ⟨0x10, [], [⟨0, 8, .rw, 0x0⟩]⟩,
  ⟨0x20, [], [⟨0, 32, .ro, 0x0⟩, ⟨32, 3, .ro, 0x0⟩, ⟨48, 16, .ro, 0x0⟩]⟩]

/-- The registers of block PWR. -/
def regsPWR : List RegDesc := [
  ⟨0x0, [], [⟨0, 10, .rwl, 0x14a⟩, ⟨10, 1, .rwl, 0x1⟩, ⟨11, 1, .w1s, 0x0⟩]⟩,
  ⟨0x8, [], [⟨0, 16, .ro, 0x0⟩, ⟨16, 12, .ro, 0x0⟩, ⟨28, 1, .ro, 0x0⟩, ⟨29, 1, .ro, 0x0⟩, ⟨30, 1, .w1c, 0x0⟩, ⟨32, 4, .ro, 0x1⟩]⟩,
  ⟨0x10, [], [⟨0, 1, .wo, 0x0⟩, ⟨8, 8, .wo, 0x0⟩, ⟨16, 2, .wo, 0x0⟩, ⟨18, 2, .wo, 0x0⟩, ⟨20, 2, .wo, 0x0⟩, ⟨63, 1, .wo, 0x0⟩]⟩,
  ⟨0x18, [], [⟨0, 25, .ro, 0x0⟩, ⟨32, 16, .ro, 0x0⟩, ⟨48, 1, .ro, 0x0⟩, ⟨49, 1, .ro, 0x0⟩, ⟨50, 1, .ro, 0x0⟩]⟩,
  ⟨0x20, [], [⟨0, 64, .ro, 0x0⟩]⟩]

/-- The registers of block MPX. -/
def regsMPX : List RegDesc := [
  ⟨0x0, [(0x8, 16)], [⟨0, 1, .rw, 0x0⟩, ⟨16, 13, .rw, 0x0⟩, ⟨32, 5, .rw, 0x0⟩]⟩,
  ⟨0x80, [], [⟨0, 32, .rwl, 0x0⟩, ⟨32, 6, .rwl, 0x0⟩, ⟨38, 1, .rwl, 0x0⟩, ⟨39, 1, .w1s, 0x0⟩]⟩,
  ⟨0x10000, [(0x1000, 16), (0x8, 512)], [⟨0, 64, .rw, 0x0⟩]⟩,
  ⟨0x88, [], [⟨0, 32, .rwl, 0x0⟩]⟩]

/-- The registers of block TBS. -/
def regsTBS : List RegDesc := [
  ⟨0x0, [], [⟨0, 64, .ro, 0x0⟩]⟩,
  ⟨0x8, [], [⟨0, 1, .rw, 0x1⟩, ⟨1, 1, .rw, 0x1⟩, ⟨2, 1, .rw, 0x1⟩, ⟨3, 1, .rw, 0x0⟩, ⟨8, 8, .rw, 0x64⟩]⟩,
  ⟨0x10, [], [⟨0, 2, .ro, 0x0⟩, ⟨2, 1, .ro, 0x0⟩, ⟨3, 1, .ro, 0x0⟩, ⟨4, 1, .ro, 0x0⟩, ⟨5, 1, .w1c, 0x0⟩, ⟨32, 32, .ro, 0x0⟩]⟩,
  ⟨0x18, [], [⟨0, 32, .ro, 0x0⟩, ⟨32, 32, .ro, 0x0⟩]⟩]

/-- The registers of block MAC. -/
def regsMAC : List RegDesc := [
  ⟨0x0, [(0x1000, 4)], [⟨0, 1, .rw, 0x0⟩, ⟨1, 2, .rw, 0x1⟩, ⟨3, 2, .rw, 0x0⟩, ⟨5, 1, .rw, 0x1⟩, ⟨6, 2, .rw, 0x2⟩, ⟨8, 1, .rw, 0x1⟩, ⟨16, 14, .rw, 0x2400⟩, ⟨32, 12, .rw, 0x0⟩]⟩,
  ⟨0x8, [(0x1000, 4)], [⟨0, 1, .ro, 0x0⟩, ⟨1, 1, .ro, 0x0⟩, ⟨2, 1, .ro, 0x0⟩, ⟨3, 1, .w1c, 0x0⟩, ⟨8, 8, .ro, 0x0⟩, ⟨16, 8, .ro, 0x0⟩]⟩,
  ⟨0x10, [(0x1000, 4)], [⟨0, 24, .rw, 0x6db6db⟩]⟩,
  ⟨0x18, [(0x1000, 4)], [⟨0, 48, .rw, 0xe30a20610200⟩]⟩,
  ⟨0x20, [(0x1000, 4)], [⟨0, 12, .rw, 0x100⟩, ⟨16, 12, .rw, 0x600⟩]⟩,
  ⟨0x28, [(0x1000, 4)], [⟨0, 3, .rw, 0x3⟩, ⟨8, 8, .rw, 0x8⟩, ⟨16, 12, .rw, 0x500⟩, ⟨32, 12, .rw, 0x400⟩, ⟨48, 16, .rw, 0x0⟩]⟩,
  ⟨0x30, [(0x1000, 4)], [⟨0, 1, .wo, 0x0⟩, ⟨32, 16, .ro, 0x0⟩]⟩,
  ⟨0x8018, [], [⟨0, 1, .rw, 0x0⟩, ⟨1, 2, .rw, 0x0⟩, ⟨3, 2, .rw, 0x0⟩, ⟨5, 1, .rw, 0x0⟩, ⟨6, 1, .ro, 0x0⟩]⟩,
  ⟨0x38, [(0x1000, 4)], [⟨0, 16, .rw, 0x64⟩]⟩,
  ⟨0x100, [(0x1000, 4), (0x8, 16)], [⟨0, 64, .rc, 0x0⟩]⟩,
  ⟨0x200, [(0x1000, 4), (0x8, 16)], [⟨0, 64, .ro, 0x0⟩]⟩,
  ⟨0x8000, [], [⟨0, 6, .rw, 0x0⟩]⟩,
  ⟨0x8008, [], [⟨0, 64, .rw, 0x0⟩]⟩,
  ⟨0x8010, [], [⟨0, 64, .rw, 0x0⟩]⟩,
  ⟨0xff00, [], [⟨0, 1, .wo, 0x0⟩, ⟨1, 1, .ro, 0x0⟩, ⟨2, 1, .w1c, 0x0⟩, ⟨3, 1, .wo, 0x0⟩, ⟨16, 16, .rw, 0xffff⟩, ⟨32, 16, .ro, 0x0⟩]⟩]

/-- The registers of block RDM. -/
def regsRDM : List RegDesc := [
  ⟨0x0, [], [⟨0, 1, .rwl, 0x0⟩, ⟨1, 1, .w1s, 0x0⟩, ⟨8, 12, .rwl, 0x400⟩, ⟨20, 7, .rw, 0x20⟩, ⟨32, 8, .rw, 0x8⟩, ⟨48, 15, .rw, 0x0⟩]⟩,
  ⟨0x18, [], [⟨0, 14, .ro, 0x0⟩, ⟨14, 14, .ro, 0x0⟩, ⟨28, 17, .ro, 0x0⟩, ⟨45, 17, .ro, 0x0⟩]⟩,
  ⟨0x20, [], [⟨0, 1, .rw, 0x1⟩, ⟨1, 1, .rw, 0x1⟩, ⟨4, 4, .rw, 0x8⟩, ⟨8, 8, .rw, 0x4⟩, ⟨16, 8, .rw, 0x4⟩, ⟨24, 8, .rw, 0x37⟩, ⟨32, 16, .rw, 0x64⟩, ⟨48, 4, .rw, 0x5⟩]⟩,
  ⟨0x28, [], [⟨0, 16, .rw, 0x3e8⟩, ⟨16, 16, .rw, 0x64⟩]⟩,
  ⟨0x30, [], [⟨0, 3, .wo, 0x0⟩, ⟨8, 48, .wo, 0x0⟩]⟩,
  ⟨0x38, [], [⟨0, 24, .ro, 0x0⟩, ⟨24, 3, .ro, 0x0⟩, ⟨27, 1, .ro, 0x0⟩, ⟨28, 1, .w1c, 0x0⟩]⟩,
  ⟨0x8, [], [⟨0, 16, .rw, 0x64⟩]⟩,
  ⟨0x10, [], [⟨0, 48, .rwl, 0x0⟩]⟩,
  ⟨0x100, [(0x8, 13)], [⟨0, 64, .rc, 0x0⟩]⟩]

/-- The registers of block NVF. -/
def regsNVF : List RegDesc := [
  ⟨0x0, [], [⟨0, 1, .rwl, 0x0⟩, ⟨1, 1, .w1s, 0x0⟩, ⟨2, 3, .rwl, 0x1⟩, ⟨5, 1, .rwl, 0x1⟩]⟩,
  ⟨0x8, [], [⟨0, 16, .rw, 0x5dc⟩, ⟨16, 8, .rw, 0x14⟩]⟩,
  ⟨0x10, [], [⟨0, 64, .rc, 0x0⟩]⟩,
  ⟨0x18, [], [⟨8, 56, .rw, 0x1010101010101⟩]⟩,
  ⟨0x20, [], [⟨0, 32, .rc, 0x0⟩, ⟨32, 32, .rc, 0x0⟩]⟩,
  ⟨0x100, [], [⟨0, 8, .rw, 0x0⟩]⟩,
  ⟨0x108, [], [⟨0, 32, .rw, 0x0⟩, ⟨32, 1, .rw, 0x0⟩, ⟨40, 8, .rw, 0x0⟩, ⟨48, 8, .rw, 0x0⟩, ⟨56, 3, .rw, 0x0⟩, ⟨63, 1, .rw, 0x0⟩]⟩,
  ⟨0x110, [], [⟨0, 14, .rw, 0x0⟩]⟩,
  ⟨0x118, [], [⟨0, 1, .rw, 0x0⟩, ⟨1, 1, .rw, 0x0⟩, ⟨2, 1, .rw, 0x0⟩, ⟨3, 1, .rw, 0x0⟩, ⟨4, 1, .rw, 0x0⟩, ⟨16, 12, .rw, 0x0⟩]⟩,
  ⟨0xff00, [], [⟨0, 1, .wo, 0x0⟩, ⟨1, 1, .ro, 0x0⟩, ⟨2, 1, .w1c, 0x0⟩, ⟨3, 1, .wo, 0x0⟩, ⟨16, 16, .rw, 0xffff⟩, ⟨32, 16, .ro, 0x0⟩]⟩]

/-- The registers of block RLK. -/
def regsRLK : List RegDesc := [
  ⟨0x0, [], [⟨0, 12, .rw, 0x200⟩, ⟨16, 1, .rw, 0x1⟩]⟩,
  ⟨0x8, [], [⟨0, 16, .ro, 0x0⟩, ⟨16, 16, .ro, 0x0⟩, ⟨32, 16, .rc, 0x0⟩]⟩,
  ⟨0x10, [], [⟨0, 64, .rc, 0x0⟩]⟩,
  ⟨0x18, [], [⟨0, 32, .ro, 0x0⟩, ⟨32, 32, .rc, 0x0⟩]⟩]

/-- The registers of block CHL. -/
def regsCHL : List RegDesc := [
  ⟨0x0, [], [⟨0, 1, .rwl, 0x0⟩, ⟨1, 1, .w1s, 0x0⟩, ⟨16, 16, .rwl, 0xffff⟩]⟩,
  ⟨0x8, [], [⟨0, 1, .ro, 0x0⟩, ⟨1, 1, .ro, 0x0⟩, ⟨2, 1, .ro, 0x0⟩, ⟨16, 16, .ro, 0x0⟩]⟩,
  ⟨0x10, [], [⟨0, 32, .rc, 0x0⟩, ⟨32, 32, .rc, 0x0⟩]⟩,
  ⟨0x18, [], [⟨0, 8, .rw, 0x8⟩, ⟨8, 8, .rw, 0x4⟩, ⟨16, 8, .rw, 0x1⟩]⟩,
  ⟨0x20, [], [⟨0, 32, .rc, 0x0⟩, ⟨32, 32, .rc, 0x0⟩]⟩,
  ⟨0x28, [], [⟨0, 32, .ro, 0x0⟩, ⟨32, 32, .rc, 0x0⟩]⟩]

/-- The registers of block TKO. -/
def regsTKO : List RegDesc := [
  ⟨0x0, [], [⟨0, 1, .rwl, 0x1⟩, ⟨1, 1, .w1s, 0x0⟩, ⟨2, 1, .rw, 0x0⟩, ⟨3, 1, .rwl, 0x0⟩, ⟨4, 1, .wo, 0x0⟩, ⟨5, 1, .wo, 0x0⟩, ⟨16, 16, .rwl, 0x1e⟩, ⟨32, 12, .rw, 0x0⟩]⟩,
  ⟨0x8, [], [⟨0, 3, .ro, 0x1⟩, ⟨3, 3, .ro, 0x0⟩, ⟨6, 1, .ro, 0x0⟩, ⟨7, 1, .ro, 0x0⟩, ⟨8, 1, .ro, 0x0⟩, ⟨9, 1, .ro, 0x0⟩]⟩,
  ⟨0x10, [], [⟨0, 32, .ro, 0x0⟩, ⟨32, 2, .ro, 0x0⟩]⟩,
  ⟨0x18, [], [⟨0, 6, .rwl, 0x0⟩, ⟨8, 6, .rwl, 0x1⟩, ⟨16, 6, .rwl, 0x2⟩]⟩,
  ⟨0x20, [], [⟨0, 8, .ro, 0x0⟩, ⟨8, 1, .ro, 0x0⟩, ⟨32, 32, .ro, 0x0⟩]⟩,
  ⟨0x100, [], [⟨0, 8, .rw, 0x0⟩]⟩,
  ⟨0x108, [], [⟨0, 1, .rw, 0x0⟩]⟩,
  ⟨0xff00, [], [⟨0, 1, .wo, 0x0⟩, ⟨1, 1, .ro, 0x0⟩, ⟨2, 1, .w1c, 0x0⟩, ⟨3, 1, .wo, 0x0⟩, ⟨16, 16, .rw, 0xffff⟩, ⟨32, 16, .ro, 0x0⟩]⟩]

/-- The registers of block PGT. -/
def regsPGT : List RegDesc := [
  ⟨0x0, [], [⟨0, 1, .rwl, 0x0⟩, ⟨1, 1, .w1s, 0x0⟩, ⟨16, 16, .rwl, 0x2f6d⟩]⟩,
  ⟨0x8, [], [⟨0, 14, .rw, 0x2000⟩, ⟨16, 8, .rw, 0x5⟩, ⟨24, 8, .rw, 0x32⟩, ⟨32, 16, .rw, 0x1f4⟩, ⟨48, 8, .rw, 0x14⟩, ⟨56, 8, .rw, 0x80⟩]⟩,
  ⟨0x10, [], [⟨0, 3, .wo, 0x0⟩, ⟨8, 48, .wo, 0x0⟩]⟩,
  ⟨0x18, [], [⟨0, 3, .ro, 0x0⟩, ⟨3, 1, .ro, 0x0⟩, ⟨4, 1, .w1c, 0x0⟩, ⟨5, 9, .ro, 0x0⟩, ⟨14, 1, .ro, 0x0⟩]⟩,
  ⟨0x100, [(0x8, 12)], [⟨0, 64, .rc, 0x0⟩]⟩,
  ⟨0x200, [], [⟨0, 14, .rw, 0x0⟩]⟩,
  ⟨0x208, [], [⟨0, 64, .rw, 0x0⟩]⟩,
  ⟨0x210, [], [⟨0, 64, .rw, 0x0⟩]⟩,
  ⟨0xff00, [], [⟨0, 1, .wo, 0x0⟩, ⟨1, 1, .ro, 0x0⟩, ⟨2, 1, .w1c, 0x0⟩, ⟨3, 1, .wo, 0x0⟩, ⟨16, 16, .rw, 0xffff⟩, ⟨32, 16, .ro, 0x0⟩]⟩]

/-- The registers of block PAT. -/
def regsPAT : List RegDesc := [
  ⟨0x110, [], [⟨0, 11, .rw, 0x0⟩, ⟨16, 16, .rw, 0x0⟩, ⟨32, 4, .rw, 0x0⟩, ⟨36, 1, .rw, 0x0⟩, ⟨37, 1, .rw, 0x0⟩, ⟨38, 2, .rw, 0x0⟩, ⟨40, 15, .rw, 0x0⟩, ⟨63, 1, .rw, 0x0⟩]⟩,
  ⟨0x0, [], [⟨0, 1, .rwl, 0x0⟩, ⟨1, 1, .w1s, 0x0⟩]⟩,
  ⟨0x100, [], [⟨0, 7, .rw, 0x0⟩]⟩,
  ⟨0x108, [], [⟨0, 64, .rw, 0x0⟩]⟩,
  ⟨0x118, [], [⟨0, 64, .rc, 0x0⟩]⟩,
  ⟨0xff00, [], [⟨0, 1, .wo, 0x0⟩, ⟨1, 1, .ro, 0x0⟩, ⟨2, 1, .w1c, 0x0⟩, ⟨3, 1, .wo, 0x0⟩, ⟨16, 16, .rw, 0xffff⟩, ⟨32, 16, .ro, 0x0⟩]⟩]

/-- The registers of block SFB. -/
def regsSFB : List RegDesc := [
  ⟨0x0, [], [⟨0, 1, .rwl, 0x0⟩, ⟨1, 1, .w1s, 0x0⟩, ⟨16, 24, .rw, 0xffffff⟩]⟩,
  ⟨0x8, [], [⟨0, 48, .rw, 0x0⟩]⟩,
  ⟨0x1000, [(0x20, 24)], [⟨0, 1, .ro, 0x0⟩, ⟨1, 1, .ro, 0x0⟩, ⟨2, 2, .ro, 0x0⟩, ⟨4, 1, .ro, 0x0⟩, ⟨5, 1, .ro, 0x0⟩, ⟨6, 1, .ro, 0x0⟩, ⟨16, 11, .ro, 0x0⟩, ⟨32, 8, .ro, 0x0⟩]⟩,
  ⟨0x1008, [(0x20, 24)], [⟨0, 32, .rc, 0x0⟩, ⟨32, 32, .rc, 0x0⟩]⟩,
  ⟨0x1010, [(0x20, 24)], [⟨0, 32, .rc, 0x0⟩, ⟨32, 32, .rc, 0x0⟩]⟩,
  ⟨0x1018, [(0x20, 24)], [⟨0, 32, .ro, 0x0⟩, ⟨32, 2, .ro, 0x0⟩]⟩]

/-- The registers of block MED. -/
def regsMED : List RegDesc := [
  ⟨0x0, [], [⟨0, 1, .rwl, 0x0⟩, ⟨1, 1, .w1s, 0x0⟩, ⟨2, 1, .rw, 0x1⟩, ⟨8, 8, .rw, 0x19⟩]⟩,
  ⟨0x8, [], [⟨0, 8, .rw, 0xa⟩, ⟨8, 8, .rw, 0x8⟩, ⟨16, 16, .rw, 0x64⟩]⟩,
  ⟨0x10, [], [⟨0, 16, .ro, 0x0⟩, ⟨16, 16, .ro, 0x0⟩, ⟨32, 16, .ro, 0x0⟩, ⟨48, 16, .ro, 0x0⟩]⟩,
  ⟨0x18, [], [⟨0, 32, .rc, 0x0⟩, ⟨32, 32, .rc, 0x0⟩]⟩,
  ⟨0x20, [], [⟨0, 32, .rc, 0x0⟩, ⟨32, 32, .rc, 0x0⟩]⟩,
  ⟨0x28, [], [⟨0, 16, .ro, 0x0⟩, ⟨16, 1, .ro, 0x0⟩, ⟨17, 6, .ro, 0x0⟩, ⟨32, 10, .ro, 0x0⟩]⟩,
  ⟨0x30, [], [⟨0, 10, .rw, 0x0⟩, ⟨16, 6, .rw, 0x0⟩]⟩,
  ⟨0x38, [], [⟨0, 1, .ro, 0x0⟩, ⟨1, 1, .ro, 0x0⟩, ⟨2, 1, .ro, 0x0⟩, ⟨3, 1, .ro, 0x0⟩, ⟨16, 16, .ro, 0x0⟩, ⟨32, 32, .ro, 0x0⟩]⟩,
  ⟨0x40, [], [⟨0, 48, .rwl, 0x0⟩]⟩,
  ⟨0x48, [], [⟨0, 7, .rwl, 0x0⟩]⟩]

/-- The registers of block LDP. -/
def regsLDP : List RegDesc := [
  ⟨0x0, [], [⟨0, 1, .rwl, 0x0⟩, ⟨1, 1, .w1s, 0x0⟩, ⟨8, 6, .rw, 0x8⟩, ⟨16, 4, .rw, 0x7⟩, ⟨24, 8, .rw, 0x60⟩]⟩,
  ⟨0x8, [], [⟨0, 32, .rc, 0x0⟩, ⟨32, 32, .rc, 0x0⟩]⟩,
  ⟨0x10, [], [⟨0, 24, .rc, 0x0⟩, ⟨24, 24, .rc, 0x0⟩, ⟨48, 16, .rc, 0x0⟩]⟩,
  ⟨0x18, [], [⟨0, 16, .rc, 0x0⟩, ⟨16, 16, .rc, 0x0⟩, ⟨32, 16, .rc, 0x0⟩]⟩,
  ⟨0x100, [], [⟨0, 12, .rw, 0x0⟩, ⟨32, 1, .ro, 0x0⟩]⟩,
  ⟨0x108, [], [⟨0, 5, .rw, 0x0⟩, ⟨16, 9, .rw, 0x0⟩, ⟨32, 7, .rw, 0x0⟩, ⟨63, 1, .rw, 0x0⟩]⟩,
  ⟨0xff00, [], [⟨0, 1, .wo, 0x0⟩, ⟨1, 1, .ro, 0x0⟩, ⟨2, 1, .w1c, 0x0⟩, ⟨3, 1, .wo, 0x0⟩, ⟨16, 16, .rw, 0xffff⟩, ⟨32, 16, .ro, 0x0⟩]⟩]

/-- The registers of block MAP. -/
def regsMAP : List RegDesc := [
  ⟨0x0, [], [⟨0, 1, .rwl, 0x0⟩, ⟨1, 1, .w1s, 0x0⟩, ⟨8, 5, .rwl, 0x10⟩, ⟨16, 4, .rw, 0x4⟩, ⟨20, 1, .rw, 0x1⟩, ⟨24, 8, .rw, 0x20⟩, ⟨32, 4, .rw, 0xc⟩]⟩,
  ⟨0x18, [], [⟨0, 1, .ro, 0x0⟩, ⟨16, 16, .ro, 0x0⟩, ⟨32, 32, .ro, 0x0⟩]⟩,
  ⟨0x20, [], [⟨0, 32, .rc, 0x0⟩, ⟨32, 32, .rc, 0x0⟩]⟩,
  ⟨0x28, [], [⟨0, 32, .rc, 0x0⟩, ⟨32, 32, .rc, 0x0⟩]⟩,
  ⟨0x58, [], [⟨0, 1, .ro, 0x0⟩, ⟨1, 1, .w1c, 0x0⟩, ⟨2, 1, .w1c, 0x0⟩, ⟨3, 3, .ro, 0x0⟩, ⟨32, 32, .ro, 0x0⟩]⟩,
  ⟨0x8, [], [⟨0, 48, .rwl, 0x0⟩]⟩,
  ⟨0x10, [], [⟨0, 48, .rwl, 0x0⟩]⟩,
  ⟨0x30, [], [⟨0, 64, .rc, 0x0⟩]⟩,
  ⟨0x40, [], [⟨0, 64, .rw, 0x0⟩]⟩,
  ⟨0x48, [], [⟨0, 64, .rw, 0x0⟩]⟩,
  ⟨0x50, [], [⟨0, 3, .wo, 0x0⟩]⟩]

/-- The registers of block FTL. -/
def regsFTL : List RegDesc := [
  ⟨0x0, [], [⟨0, 1, .rwl, 0x0⟩, ⟨1, 1, .w1s, 0x0⟩, ⟨4, 4, .rwl, 0x4⟩, ⟨8, 5, .rwl, 0x10⟩, ⟨16, 16, .rw, 0x64⟩, ⟨32, 16, .rw, 0x14⟩]⟩,
  ⟨0x8, [], [⟨0, 16, .rwl, 0x100⟩, ⟨16, 16, .rwl, 0x40⟩, ⟨32, 16, .rwl, 0x10⟩, ⟨48, 8, .rwl, 0x7⟩]⟩,
  ⟨0x10, [], [⟨0, 32, .ro, 0x0⟩, ⟨32, 2, .ro, 0x0⟩, ⟨34, 1, .ro, 0x0⟩, ⟨40, 8, .ro, 0x0⟩]⟩,
  ⟨0x20, [], [⟨0, 32, .ro, 0x0⟩, ⟨32, 1, .wo, 0x0⟩, ⟨33, 1, .ro, 0x0⟩]⟩,
  ⟨0x28, [], [⟨0, 32, .rc, 0x0⟩, ⟨32, 16, .rc, 0x0⟩, ⟨48, 16, .rc, 0x0⟩]⟩,
  ⟨0x30, [], [⟨0, 32, .ro, 0x0⟩, ⟨32, 16, .rw, 0x100⟩, ⟨48, 4, .rw, 0x6⟩, ⟨52, 1, .ro, 0x0⟩]⟩,
  ⟨0x18, [], [⟨0, 64, .ro, 0x0⟩]⟩]

/-- The registers of block DMC. -/
def regsDMC : List RegDesc := [
  ⟨0x0, [(0x8, 8)], [⟨0, 1, .ro, 0x0⟩, ⟨1, 1, .ro, 0x0⟩, ⟨8, 9, .ro, 0x0⟩, ⟨32, 16, .rc, 0x0⟩, ⟨48, 1, .w1c, 0x0⟩]⟩]

/-- The registers of block PAR. -/
def regsPAR : List RegDesc := [
  ⟨0x0, [], [⟨0, 1, .rwl, 0x0⟩, ⟨1, 1, .w1s, 0x0⟩, ⟨16, 8, .rw, 0x19⟩]⟩,
  ⟨0x8, [], [⟨0, 32, .rc, 0x0⟩, ⟨32, 16, .rc, 0x0⟩]⟩,
  ⟨0x10, [], [⟨0, 3, .rw, 0x6⟩, ⟨8, 8, .rw, 0x1e⟩, ⟨16, 16, .rw, 0x7d0⟩, ⟨32, 16, .rw, 0x12c⟩]⟩,
  ⟨0x18, [], [⟨0, 1, .ro, 0x0⟩, ⟨1, 1, .ro, 0x0⟩, ⟨2, 1, .w1c, 0x0⟩, ⟨32, 32, .ro, 0x0⟩]⟩,
  ⟨0x20, [], [⟨0, 32, .ro, 0x0⟩, ⟨32, 32, .rc, 0x0⟩]⟩,
  ⟨0x28, [], [⟨0, 6, .wo, 0x0⟩, ⟨6, 10, .wo, 0x0⟩, ⟨16, 1, .wo, 0x0⟩, ⟨17, 1, .wo, 0x0⟩, ⟨63, 1, .wo, 0x0⟩]⟩,
  ⟨0x30, [], [⟨0, 1, .wo, 0x0⟩, ⟨1, 1, .wo, 0x0⟩, ⟨2, 1, .rw, 0x0⟩, ⟨8, 5, .rw, 0x10⟩, ⟨16, 3, .rw, 0x7⟩, ⟨32, 16, .rw, 0x40⟩, ⟨48, 14, .rw, 0x0⟩]⟩,
  ⟨0x38, [], [⟨0, 48, .rw, 0x0⟩]⟩,
  ⟨0x40, [], [⟨0, 1, .ro, 0x0⟩, ⟨1, 1, .w1c, 0x0⟩, ⟨2, 1, .ro, 0x0⟩, ⟨3, 1, .w1c, 0x0⟩, ⟨32, 32, .ro, 0x0⟩]⟩,
  ⟨0x48, [], [⟨0, 16, .rw, 0x64⟩, ⟨16, 1, .ro, 0x0⟩, ⟨24, 6, .ro, 0x0⟩, ⟨32, 6, .ro, 0x0⟩]⟩,
  ⟨0x50, [], [⟨0, 32, .rc, 0x0⟩, ⟨32, 16, .rc, 0x0⟩, ⟨48, 16, .rc, 0x0⟩]⟩]

/-- The registers of block CDC. -/
def regsCDC : List RegDesc := [
  ⟨0x0, [], [⟨0, 1, .rwl, 0x0⟩, ⟨1, 1, .w1s, 0x0⟩, ⟨8, 8, .rw, 0xff⟩]⟩,
  ⟨0x8, [], [⟨0, 8, .ro, 0xff⟩, ⟨8, 8, .w1c, 0x0⟩, ⟨16, 1, .ro, 0x0⟩]⟩,
  ⟨0x10, [], [⟨0, 32, .rc, 0x0⟩, ⟨32, 32, .rc, 0x0⟩]⟩,
  ⟨0x18, [], [⟨0, 16, .ro, 0x10⟩, ⟨16, 16, .ro, 0x34⟩, ⟨32, 16, .ro, 0x100⟩, ⟨48, 8, .ro, 0x1⟩]⟩,
  ⟨0x100, [], [⟨0, 8, .rw, 0x0⟩]⟩,
  ⟨0x108, [], [⟨0, 64, .rwl, 0x0⟩]⟩,
  ⟨0xff00, [], [⟨0, 1, .wo, 0x0⟩, ⟨1, 1, .ro, 0x0⟩, ⟨2, 1, .w1c, 0x0⟩, ⟨3, 1, .wo, 0x0⟩, ⟨16, 16, .rw, 0xffff⟩, ⟨32, 16, .ro, 0x0⟩]⟩]

/-- The registers of block FPL. -/
def regsFPL : List RegDesc := [
  ⟨0x0, [], [⟨0, 1, .rwl, 0x0⟩, ⟨1, 1, .w1s, 0x0⟩, ⟨16, 16, .rw, 0xffff⟩]⟩,
  ⟨0x8, [], [⟨0, 16, .ro, 0xffff⟩, ⟨16, 16, .w1c, 0x0⟩, ⟨32, 10, .ro, 0x0⟩]⟩,
  ⟨0x10, [], [⟨0, 64, .rc, 0x0⟩]⟩,
  ⟨0x18, [], [⟨0, 32, .rc, 0x0⟩, ⟨32, 32, .rc, 0x0⟩]⟩,
  ⟨0x20, [], [⟨0, 32, .rc, 0x0⟩, ⟨32, 16, .rc, 0x0⟩, ⟨48, 16, .rc, 0x0⟩]⟩,
  ⟨0x100, [], [⟨0, 12, .rw, 0x0⟩]⟩,
  ⟨0x108, [], [⟨0, 1, .rw, 0x0⟩, ⟨1, 1, .rw, 0x0⟩, ⟨2, 1, .rw, 0x0⟩]⟩,
  ⟨0x110, [], [⟨0, 12, .wo, 0x0⟩, ⟨12, 1, .wo, 0x0⟩]⟩,
  ⟨0xff00, [], [⟨0, 1, .wo, 0x0⟩, ⟨1, 1, .ro, 0x0⟩, ⟨2, 1, .w1c, 0x0⟩, ⟨3, 1, .wo, 0x0⟩, ⟨16, 16, .rw, 0xffff⟩, ⟨32, 16, .ro, 0x0⟩]⟩]

/-- The registers of block CMP. -/
def regsCMP : List RegDesc := [
  ⟨0x0, [], [⟨0, 1, .rwl, 0x0⟩, ⟨1, 1, .w1s, 0x0⟩, ⟨16, 16, .rw, 0xffff⟩, ⟨32, 16, .rw, 0x14⟩]⟩,
  ⟨0x8, [], [⟨0, 16, .ro, 0xffff⟩, ⟨16, 16, .w1c, 0x0⟩, ⟨32, 5, .ro, 0x0⟩]⟩,
  ⟨0x10, [], [⟨0, 12, .wo, 0x0⟩, ⟨12, 1, .wo, 0x0⟩]⟩,
  ⟨0x18, [], [⟨0, 32, .rc, 0x0⟩, ⟨32, 32, .rc, 0x0⟩]⟩]

/-- The registers of block DCP. -/
def regsDCP : List RegDesc := [
  ⟨0x0, [], [⟨0, 1, .rwl, 0x0⟩, ⟨1, 1, .w1s, 0x0⟩, ⟨16, 16, .rw, 0xffff⟩, ⟨32, 4, .rw, 0x2⟩]⟩,
  ⟨0x8, [], [⟨0, 16, .ro, 0xffff⟩, ⟨16, 16, .w1c, 0x0⟩]⟩,
  ⟨0x10, [], [⟨0, 32, .rc, 0x0⟩, ⟨32, 32, .rc, 0x0⟩]⟩]

/-- The registers of block XTS. -/
def regsXTS : List RegDesc := [
  ⟨0x0, [], [⟨0, 1, .rwl, 0x0⟩, ⟨1, 1, .w1s, 0x0⟩, ⟨16, 8, .rw, 0xff⟩, ⟨24, 8, .rw, 0xff⟩, ⟨32, 4, .rw, 0x2⟩]⟩,
  ⟨0x8, [], [⟨0, 8, .ro, 0xff⟩, ⟨8, 8, .ro, 0xff⟩, ⟨16, 8, .w1c, 0x0⟩, ⟨24, 8, .w1c, 0x0⟩, ⟨32, 9, .ro, 0x0⟩]⟩,
  ⟨0x10, [], [⟨0, 64, .rc, 0x0⟩]⟩,
  ⟨0x100, [], [⟨0, 12, .rw, 0x0⟩]⟩,
  ⟨0x108, [], [⟨0, 1, .rw, 0x0⟩, ⟨1, 1, .rw, 0x0⟩, ⟨16, 16, .rw, 0x0⟩]⟩,
  ⟨0x110, [], [⟨0, 12, .wo, 0x0⟩, ⟨12, 1, .wo, 0x0⟩]⟩,
  ⟨0xff00, [], [⟨0, 1, .wo, 0x0⟩, ⟨1, 1, .ro, 0x0⟩, ⟨2, 1, .w1c, 0x0⟩, ⟨3, 1, .wo, 0x0⟩, ⟨16, 16, .rw, 0xffff⟩, ⟨32, 16, .ro, 0x0⟩]⟩]

/-- The registers of block GCM. -/
def regsGCM : List RegDesc := [
  ⟨0x0, [], [⟨0, 1, .rwl, 0x0⟩, ⟨1, 1, .w1s, 0x0⟩, ⟨16, 4, .rw, 0xf⟩]⟩,
  ⟨0x8, [], [⟨0, 4, .ro, 0xf⟩, ⟨4, 4, .w1c, 0x0⟩, ⟨8, 9, .ro, 0x0⟩]⟩,
  ⟨0x10, [], [⟨0, 32, .rc, 0x0⟩, ⟨32, 32, .rc, 0x0⟩]⟩,
  ⟨0x18, [], [⟨0, 48, .rw, 0x0⟩]⟩,
  ⟨0x20, [], [⟨0, 8, .wo, 0x0⟩, ⟨8, 28, .wo, 0x0⟩, ⟨63, 1, .wo, 0x0⟩]⟩]

/-- The registers of block KCU. -/
def regsKCU : List RegDesc := [
  ⟨0x0, [], [⟨0, 1, .rwl, 0x0⟩, ⟨1, 1, .w1s, 0x0⟩, ⟨2, 1, .rwl, 0x0⟩, ⟨3, 1, .rwl, 0x1⟩, ⟨4, 5, .rwl, 0x10⟩]⟩,
  ⟨0x1010, [(0x100, 4)], [⟨0, 4, .wo, 0x0⟩, ⟨8, 16, .wo, 0x0⟩]⟩,
  ⟨0x1018, [(0x100, 4)], [⟨0, 1, .ro, 0x0⟩, ⟨1, 1, .w1c, 0x0⟩, ⟨2, 3, .ro, 0x0⟩, ⟨5, 1, .ro, 0x0⟩, ⟨6, 1, .ro, 0x0⟩, ⟨32, 32, .rc, 0x0⟩]⟩,
  ⟨0x1000, [(0x100, 4)], [⟨0, 48, .rw, 0x0⟩]⟩,
  ⟨0x1008, [(0x100, 4)], [⟨0, 48, .rw, 0x0⟩]⟩,
  ⟨0x1020, [(0x100, 4), (0x8, 2)], [⟨0, 64, .rw, 0x0⟩]⟩,
  ⟨0x1030, [(0x100, 4), (0x8, 4)], [⟨0, 64, .wo, 0x0⟩]⟩]

/-- The registers of block DGE. -/
def regsDGE : List RegDesc := [
  ⟨0x0, [], [⟨0, 1, .rwl, 0x0⟩, ⟨1, 1, .w1s, 0x0⟩, ⟨2, 1, .rwl, 0x0⟩]⟩,
  ⟨0x10, [], [⟨0, 3, .wo, 0x0⟩, ⟨8, 4, .wo, 0x0⟩, ⟨12, 4, .wo, 0x0⟩, ⟨16, 8, .wo, 0x0⟩, ⟨24, 16, .wo, 0x0⟩]⟩,
  ⟨0x1000, [(0x100, 4)], [⟨0, 4, .rw, 0x0⟩, ⟨4, 1, .rw, 0x0⟩, ⟨5, 1, .rw, 0x0⟩, ⟨6, 1, .rw, 0x0⟩, ⟨8, 4, .rw, 0x0⟩, ⟨12, 4, .rw, 0x0⟩, ⟨16, 7, .rw, 0x40⟩]⟩,
  ⟨0x1010, [(0x100, 4)], [⟨0, 4, .wo, 0x0⟩, ⟨4, 1, .wo, 0x0⟩, ⟨8, 16, .wo, 0x0⟩, ⟨24, 8, .wo, 0x0⟩]⟩,
  ⟨0x1048, [(0x100, 4)], [⟨0, 1, .ro, 0x0⟩, ⟨1, 1, .ro, 0x0⟩, ⟨2, 1, .w1c, 0x0⟩, ⟨3, 3, .ro, 0x0⟩, ⟨6, 1, .ro, 0x0⟩, ⟨7, 1, .ro, 0x0⟩, ⟨8, 1, .ro, 0x0⟩]⟩,
  ⟨0x8000, [(0x80, 16)], [⟨0, 1, .ro, 0x0⟩, ⟨1, 4, .ro, 0x0⟩, ⟨5, 1, .ro, 0x0⟩, ⟨6, 1, .ro, 0x0⟩, ⟨7, 1, .ro, 0x0⟩, ⟨8, 1, .ro, 0x0⟩, ⟨9, 7, .ro, 0x0⟩, ⟨16, 48, .ro, 0x0⟩]⟩,
  ⟨0x18, [], [⟨0, 48, .rw, 0x0⟩]⟩,
  ⟨0x20, [], [⟨0, 1, .ro, 0x0⟩, ⟨1, 1, .w1c, 0x0⟩, ⟨2, 3, .ro, 0x0⟩, ⟨16, 16, .ro, 0x0⟩]⟩,
  ⟨0x100, [(0x8, 16)], [⟨0, 64, .wo, 0x0⟩]⟩,
  ⟨0x1008, [(0x100, 4)], [⟨0, 48, .rw, 0x0⟩]⟩,
  ⟨0x1018, [(0x100, 4)], [⟨0, 48, .rw, 0x0⟩]⟩,
  ⟨0x1020, [(0x100, 4)], [⟨0, 48, .rw, 0x0⟩]⟩,
  ⟨0x1028, [(0x100, 4)], [⟨0, 64, .wo, 0x0⟩]⟩,
  ⟨0x1030, [(0x100, 4)], [⟨0, 64, .wo, 0x0⟩]⟩,
  ⟨0x1038, [(0x100, 4)], [⟨0, 4, .rw, 0x8⟩]⟩,
  ⟨0x1040, [(0x100, 4)], [⟨0, 48, .ro, 0x0⟩]⟩,
  ⟨0x8008, [(0x80, 16), (0x8, 8)], [⟨0, 64, .ro, 0x0⟩]⟩]

/-- The registers of block HRD. -/
def regsHRD : List RegDesc := [
  ⟨0x0, [], [⟨0, 1, .rwl, 0x0⟩, ⟨1, 1, .w1s, 0x0⟩, ⟨2, 1, .rwl, 0x0⟩, ⟨3, 1, .rwl, 0x0⟩, ⟨16, 16, .rw, 0xa⟩]⟩,
  ⟨0x8, [], [⟨0, 1, .w1c, 0x0⟩, ⟨32, 32, .rc, 0x0⟩]⟩,
  ⟨0x10, [(0x8, 4)], [⟨0, 1, .w1s, 0x0⟩, ⟨1, 1, .wo, 0x0⟩, ⟨2, 1, .ro, 0x0⟩, ⟨32, 32, .rw, 0x2710⟩]⟩,
  ⟨0x108, [], [⟨0, 1, .rw, 0x0⟩, ⟨1, 1, .rw, 0x0⟩, ⟨2, 1, .rw, 0x0⟩, ⟨3, 5, .rw, 0x6⟩, ⟨8, 42, .rw, 0x0⟩]⟩,
  ⟨0x100000, [(0x8, 4096)], [⟨0, 20, .rw, 0x0⟩, ⟨32, 20, .rw, 0x0⟩]⟩,
  ⟨0x30, [(0x8, 4)], [⟨0, 12, .rw, 0x0⟩]⟩,
  ⟨0x100, [], [⟨0, 12, .rw, 0x0⟩]⟩,
  ⟨0xff00, [], [⟨0, 1, .wo, 0x0⟩, ⟨1, 1, .ro, 0x0⟩, ⟨2, 1, .w1c, 0x0⟩, ⟨3, 1, .wo, 0x0⟩, ⟨16, 16, .rw, 0xffff⟩, ⟨32, 16, .ro, 0x0⟩]⟩]

/-- The registers of block WIN. -/
def regsWIN : List RegDesc := [
  ⟨0x108, [], [⟨0, 36, .rw, 0x0⟩]⟩,
  ⟨0x110, [], [⟨0, 36, .rw, 0x0⟩, ⟨36, 3, .rw, 0x0⟩, ⟨39, 1, .rw, 0x0⟩, ⟨48, 16, .rw, 0x0⟩]⟩,
  ⟨0x120, [], [⟨0, 48, .rc, 0x0⟩, ⟨48, 4, .rc, 0x0⟩, ⟨52, 4, .rc, 0x0⟩, ⟨56, 2, .rc, 0x0⟩, ⟨58, 2, .rc, 0x0⟩, ⟨63, 1, .rc, 0x0⟩]⟩,
  ⟨0x0, [], [⟨0, 1, .rwl, 0x0⟩, ⟨1, 1, .w1s, 0x0⟩]⟩,
  ⟨0x100, [], [⟨0, 8, .rw, 0x0⟩]⟩,
  ⟨0x128, [], [⟨0, 64, .ro, 0x0⟩]⟩,
  ⟨0x130, [], [⟨0, 32, .rc, 0x0⟩, ⟨32, 32, .rc, 0x0⟩]⟩,
  ⟨0xff00, [], [⟨0, 1, .wo, 0x0⟩, ⟨1, 1, .ro, 0x0⟩, ⟨2, 1, .w1c, 0x0⟩, ⟨3, 1, .wo, 0x0⟩, ⟨16, 16, .rw, 0xffff⟩, ⟨32, 16, .ro, 0x0⟩]⟩]

/-- The registers of block CMT. -/
def regsCMT : List RegDesc := [
  ⟨0x0, [], [⟨0, 48, .rw, 0x0⟩]⟩,
  ⟨0x8, [], [⟨0, 48, .rw, 0x0⟩]⟩,
  ⟨0x10, [], [⟨0, 2, .wo, 0x0⟩]⟩,
  ⟨0x18, [], [⟨0, 1, .ro, 0x0⟩, ⟨1, 1, .w1c, 0x0⟩, ⟨2, 1, .w1c, 0x0⟩]⟩]

/-- The registers of block HMC. -/
def regsHMC : List RegDesc := [
  ⟨0x0, [], [⟨0, 1, .rwl, 0x0⟩, ⟨1, 1, .w1s, 0x0⟩]⟩,
  ⟨0x8, [], [⟨0, 32, .rc, 0x0⟩, ⟨32, 1, .w1c, 0x0⟩]⟩,
  ⟨0x10, [], [⟨0, 32, .rc, 0x0⟩]⟩]

/-- The registers of block RPL. -/
def regsRPL : List RegDesc := [
  ⟨0x0, [], [⟨0, 1, .rw, 0x0⟩, ⟨1, 1, .rw, 0x0⟩, ⟨2, 1, .rw, 0x0⟩, ⟨8, 4, .rw, 0xf⟩]⟩,
  ⟨0x20, [], [⟨0, 1, .ro, 0x0⟩, ⟨1, 1, .w1c, 0x0⟩, ⟨2, 1, .w1c, 0x0⟩, ⟨8, 8, .ro, 0x0⟩, ⟨16, 32, .rc, 0x0⟩]⟩,
  ⟨0x8, [], [⟨0, 48, .rw, 0x0⟩]⟩,
  ⟨0x10, [], [⟨0, 16, .rw, 0x0⟩]⟩,
  ⟨0x18, [], [⟨0, 48, .wo, 0x0⟩, ⟨48, 16, .wo, 0x0⟩]⟩]

/-- The registers of block FRZ. -/
def regsFRZ : List RegDesc := [
  ⟨0x40, [], [⟨0, 1, .ro, 0x0⟩, ⟨1, 1, .ro, 0x0⟩, ⟨2, 1, .ro, 0x0⟩, ⟨8, 4, .ro, 0x0⟩, ⟨12, 4, .ro, 0x0⟩, ⟨16, 32, .rc, 0x0⟩]⟩,
  ⟨0x48, [], [⟨0, 4, .wo, 0x0⟩, ⟨4, 4, .wo, 0x0⟩, ⟨8, 1, .wo, 0x0⟩, ⟨63, 1, .wo, 0x0⟩]⟩,
  ⟨0x0, [(0x8, 4)], [⟨0, 64, .w1s, 0x0⟩]⟩,
  ⟨0x50, [], [⟨0, 12, .rw, 0x0⟩]⟩]

/-- The registers of block CSA. -/
def regsCSA : List RegDesc := [
  ⟨0x0, [], [⟨0, 1, .rwl, 0x0⟩, ⟨1, 1, .w1s, 0x0⟩, ⟨2, 1, .rwl, 0x1⟩]⟩,
  ⟨0x8, [], [⟨0, 1, .ro, 0x0⟩, ⟨1, 1, .w1c, 0x0⟩]⟩,
  ⟨0x208, [], [⟨0, 1, .rw, 0x0⟩, ⟨1, 2, .rw, 0x0⟩, ⟨3, 2, .rw, 0x1⟩, ⟨8, 6, .rw, 0x0⟩, ⟨16, 7, .rw, 0x0⟩, ⟨24, 3, .rw, 0x3⟩, ⟨32, 10, .rw, 0x40⟩]⟩,
  ⟨0x210, [], [⟨0, 22, .ro, 0x0⟩, ⟨22, 1, .ro, 0x0⟩, ⟨23, 1, .ro, 0x0⟩, ⟨32, 21, .ro, 0x0⟩]⟩,
  ⟨0x380, [], [⟨0, 4, .wo, 0x0⟩, ⟨4, 4, .wo, 0x0⟩, ⟨8, 4, .wo, 0x0⟩, ⟨16, 21, .wo, 0x0⟩]⟩,
  ⟨0x388, [], [⟨0, 1, .ro, 0x0⟩, ⟨1, 1, .w1c, 0x0⟩, ⟨2, 1, .ro, 0x0⟩, ⟨3, 3, .ro, 0x0⟩, ⟨6, 4, .ro, 0x0⟩, ⟨16, 21, .ro, 0x0⟩]⟩,
  ⟨0x10, [], [⟨0, 64, .ro, 0x0⟩]⟩,
  ⟨0x100, [(0x8, 8)], [⟨0, 64, .rc, 0x0⟩]⟩,
  ⟨0x200, [], [⟨0, 4, .rw, 0x0⟩]⟩,
  ⟨0x300, [(0x8, 5)], [⟨0, 64, .rw, 0x0⟩]⟩,
  ⟨0x328, [(0x8, 5)], [⟨0, 64, .rw, 0x0⟩]⟩,
  ⟨0x350, [(0x8, 5)], [⟨0, 64, .rw, 0xffffffffffffffff⟩]⟩,
  ⟨0x378, [], [⟨0, 64, .rw, 0x0⟩]⟩,
  ⟨0xff00, [], [⟨0, 1, .wo, 0x0⟩, ⟨1, 1, .ro, 0x0⟩, ⟨2, 1, .w1c, 0x0⟩, ⟨3, 1, .wo, 0x0⟩, ⟨16, 16, .rw, 0xffff⟩, ⟨32, 16, .ro, 0x0⟩]⟩]

/-- The registers of each block index of R31. -/
def blockRegs (blk : Nat) : List RegDesc :=
  match blk with
  | 0x01 => regsBOOT
  | 0x02 => regsROLE
  | 0x03 => regsEVR
  | 0x04 => regsTHM
  | 0x05 => regsPWR
  | 0x07 => regsMPX
  | 0x08 => regsTBS
  | 0x10 => regsMAC
  | 0x12 => regsRDM
  | 0x13 => regsNVF
  | 0x14 => regsRLK
  | 0x15 => regsCHL
  | 0x16 => regsTKO
  | 0x17 => regsPGT
  | 0x18 => regsPAT
  | 0x20 => regsSFB
  | 0x21 => regsMED
  | 0x22 => regsLDP
  | 0x23 => regsMAP
  | 0x24 => regsFTL
  | 0x25 => regsDMC
  | 0x26 => regsPAR
  | 0x30 => regsCDC
  | 0x31 => regsFPL
  | 0x32 => regsCMP
  | 0x33 => regsDCP
  | 0x34 => regsXTS
  | 0x35 => regsGCM
  | 0x36 => regsKCU
  | 0x37 => regsDGE
  | 0x38 => regsHRD
  | 0x39 => regsWIN
  | 0x3a => regsCMT
  | 0x3b => regsHMC
  | 0x3c => regsRPL
  | 0x3d => regsFRZ
  | 0x40 => regsCSA
  | _ => []

/-- The LOCK fields of each block (R13). -/
def blockLocks (blk : Nat) : List Fld :=
  match blk with
  | 0x01 => [Reg.BOOT_CTRL_LOCK]
  | 0x04 => [Reg.THM_CTRL_LOCK]
  | 0x05 => [Reg.PWR_CTRL_LOCK]
  | 0x07 => [Reg.MPX_NET_LOCK]
  | 0x12 => [Reg.RDM_CTRL_LOCK]
  | 0x13 => [Reg.NVF_CTRL_LOCK]
  | 0x15 => [Reg.CHL_CTRL_LOCK]
  | 0x16 => [Reg.TKO_CTRL_LOCK]
  | 0x17 => [Reg.PGT_CTRL_LOCK]
  | 0x18 => [Reg.PAT_CTRL_LOCK]
  | 0x20 => [Reg.SFB_CTRL_LOCK]
  | 0x21 => [Reg.MED_CTRL_LOCK]
  | 0x22 => [Reg.LDP_CTRL_LOCK]
  | 0x23 => [Reg.MAP_CTRL_LOCK]
  | 0x24 => [Reg.FTL_CTRL_LOCK]
  | 0x26 => [Reg.PAR_CTRL_LOCK]
  | 0x30 => [Reg.CDC_CTRL_LOCK]
  | 0x31 => [Reg.FPL_CTRL_LOCK]
  | 0x32 => [Reg.CMP_CTRL_LOCK]
  | 0x33 => [Reg.DCP_CTRL_LOCK]
  | 0x34 => [Reg.XTS_CTRL_LOCK]
  | 0x35 => [Reg.GCM_CTRL_LOCK]
  | 0x36 => [Reg.KCU_CTRL_LOCK]
  | 0x37 => [Reg.DGE_CTRL_LOCK]
  | 0x38 => [Reg.HRD_CTRL_LOCK]
  | 0x39 => [Reg.WIN_CTRL_LOCK]
  | 0x3b => [Reg.HMC_CTRL_LOCK]
  | 0x40 => [Reg.CSA_CTRL_LOCK]
  | _ => []

end Sys2Proof
end

