-- ==== Sys2Proof/Machine/State.lean ====
section
/-! DEFINITION. The state of the machine: one structure per unit of the head, each named piece of state of spec/01 to
spec/16 in it, and the state right after reset. INVENTORY.md lists every field with the rule that names it. -/

namespace Sys2Proof.Machine

/-! ## Time base, pins and the always-on island (spec/01, spec/15, spec/16) -/

/-- One source of the time base (R37, R45). -/
structure TimeSrc where
  /-- it has delivered a sample, and has stayed enabled since -/
  seen : Bool
  /-- it has delivered a sample, and one within 1 µs, since the entry of R45 -/
  sampled : Bool
  within : Bool
  /-- consecutive rejected samples -/
  rejects : Nat
  /-- treated as unavailable until the next reset (R45) -/
  dead : Bool
  /-- since when its samples have lain within 100 ns, and whether for 10 s (R44) -/
  inBand : Option Nat
  locked : Bool
deriving DecidableEq, Repr

/-- The discipline of the time base (R35 to R45, R715). -/
structure TimeUnit where
  ptp : TimeSrc
  pps : TimeSrc
  partner : TimeSrc
  /-- last Sync: origin time stamp and time of arrival -/
  lastSync : Option (Nat × Nat)
  /-- time at which the last Delay_Req was sent -/
  reqSent : Option Nat
  /-- mean path delay of the last completed exchange (R715) -/
  meanDelay : Option Int
  /-- the present grandmaster, with the steps removed (R45) -/
  gm : Option (PtpDs × Nat)
  lastPps : Option Nat
  /-- time of the last partner exchange, and whether its lapse has been recorded (R45) -/
  lastExch : Nat
  partnerStale : Bool
  /-- a locked PTP or 1PPS source of the partner (R40) -/
  partnerHasSource : Bool
  /-- the head has entered TWIN or SOLO since its last reset (R36) -/
  entered : Bool
  /-- the step of R38 has been made -/
  stepped : Bool
  /-- a TIME exchange has measured the offset from the partner; the step of R39 has been made (both since the last reset) -/
  measured : Bool
  aligned : Bool
  /-- offset still to be corrected by rate, and the fraction of it reached (R36) -/
  corr : Int
  acc : Nat
  /-- a source has been locked since the last power-on (R37) -/
  everLocked : Bool
  /-- ticks made, and the tick of the last time message: the islands' copies (R35) -/
  ticks : Nat
  synced : Nat
deriving DecidableEq, Repr

/-- Input pins of the module (spec/16, spec/17). -/
structure Pins where
  /-- VIN in mV -/
  vin : Nat
  modEn : Bool
  pfWarnN : Bool
  sysRstN : Bool
  /-- 1PPS in level is an edge command; REFCLK present (R694) -/
  refclk : Bool
deriving DecidableEq, Repr

/-- What follows a journal dump (R669, R679, R646). -/
inductive AfterDump
  | hold
  | reset (cause : Nat)
  | fence
  | thermal (r : TripRec)
deriving DecidableEq, Repr

/-- A journal dump in progress (R670 to R673). -/
structure Dump where
  warm : Bool
  tw : Nat
  after : AfterDump
  /-- a reset that waits for the end of the dump (R682) -/
  heldReset : Option Nat
deriving DecidableEq, Repr

/-- The always-on island (R678): what only the loss of the AO rail resets. PWR and TBS registers are in the register file. -/
structure Ao where
  /-- the time base, ns, 64 bits (R43) -/
  tb : Nat
  hours : Nat
  seconds : Nat
  pcycle : Nat
  tripLatched : Bool
  heldTrips : List TripRec
  tripsLost : Nat
  /-- event holding buffer (R653) and records lost since the last HOLD_OVERFLOW record -/
  heldEvents : List EventRec
  lostSince : Nat
  /-- counter entries waiting for the NOR window (R649) -/
  heldCounters : List CounterEnt
  /-- the AO rail is in regulation; the rest of the B-die is powered -/
  rail : Bool
  bPower : Bool
  /-- the converter runs (R660) -/
  converter : Bool
  /-- the power-down hold (R674) -/
  hold : Bool
  dump : Option Dump
  /-- dumps made since the last power-on reset of the B-die (R672) -/
  dumps : Nat
deriving DecidableEq, Repr

/-- What the carriers hold for the head beyond every reset domain: the dump reserve (R281, R672). -/
structure Nand where
  /-- dumps in the reserve blocks, by side -/
  dumps : SMap DumpImage
deriving DecidableEq, Repr

/-- The two NOR devices: slots, recorder, trip records, counter log (R590). -/
structure Nor where
  slotA : NorSlot
  slotB : NorSlot
  events : SMap EvSlot
  /-- SEQ of the next record (R654) -/
  evSeq : Nat
  trips : List TripRec
  /-- counter-log sectors, and which one is being written (R656) -/
  ctrA : List CounterEnt
  ctrB : List CounterEnt
  inB : Bool
  ctrSeq : Nat
deriving DecidableEq, Repr

/-- Sensor hub and recorder state of the B domain (R641 to R653). -/
structure Thm where
  /-- by CSR die index -/
  dies : SMap DieTemp
  /-- since when all dies have been below 97 °C (R645) -/
  coolSince : Option Nat
  /-- notices that wait for a mailbox: code, die, value (R640) -/
  notices : List (Nat × Nat × Nat)
  /-- since when both B-die diodes have read 70 °C or less (R647) -/
  calmSince : Option Nat
  /-- end of the recorder's freeze (R653) -/
  frozenUntil : Option Nat
  /-- mailbox messages of management firmware so far: SEQ and TAG of the next (R640) -/
  mbSeq : Nat
deriving DecidableEq, Repr

/-- Boot, trust and management state of the B domain (spec/14, spec/15). -/
structure Boot where
  phase : BootPhase
  /-- boot decision record (R611), maker public key accepted for the running management firmware -/
  record : Bytes
  makerPub : Bytes
  /-- DDR addresses of the herd image, the configuration copy and the HERD section (R603) -/
  herdAt : Nat
  cfgAt : Nat
  sectAt : Nat
  /-- I3C dynamic address, transmission unit, MCTP endpoint ID (R632, R633) -/
  i3c : Option Nat
  unit : Nat
  eid : Option Nat
  /-- challenges with their times of issue, oldest first (R614) -/
  challenges : List (Bytes × Nat)
  /-- operator digests (R621) -/
  opkeys : SMap Bytes
  /-- attestation nonces by `2 * endpoint + transport` (R636) -/
  nonces : SMap Bytes
  xfer : Option Xfer
  /-- role commands with control-plane firmware, oldest first (R618) -/
  jobs : List RoleJob
  /-- the AWK in the boot island (R228) -/
  awk : Option Bytes
  /-- nonce sent to a joiner (R622) -/
  joinNonce : Option Bytes
  /-- an activation to be passed to control-plane firmware (R609) -/
  activation : Bool
  /-- subsystem NQN of the running configuration image (R46, R599) -/
  nqn : Bytes
deriving DecidableEq, Repr

/-! ## Herd cores, windows, rings (spec/13) -/

/-- A channel of a master that is frozen, or asked to freeze (R561, R565). -/
structure Frz where
  frozen : Bool
  requested : Bool
  /-- frozen by a window fault: the access to be made again at thaw -/
  access : Option (Nat × AccKind)
deriving DecidableEq, Repr

/-- Control plane of the head. Tile-indexed maps use keys `tile`, `tile * 4096 + ring`, `tile * 256 + mid * 16 + chan`,
`tile * 8 + chan` or `tile * 4 + cluster`. -/
structure Hrd where
  rings : SMap Ring
  log : SMap (List FaultRec)
  frz : SMap Frz
  dma : SMap (List DmaJob)
  /-- time of the last arming or kick of a watchdog (R575) -/
  wdog : SMap Nat
  /-- captured records that a tile's capture ring holds, oldest first, and the bytes written since the capture started (R576) -/
  cap : SMap (List CapRec)
  capPos : SMap Nat
  /-- time of the last TICK of a cluster (R572) -/
  tickAt : SMap Nat
  /-- records not yet counted in a GAP record (R577) -/
  lost : SMap Nat
  /-- captured records still to be delivered on a lab module (R580), by tile -/
  replay : SMap (List CapRec)
  /-- records delivered so far -/
  replayed : SMap Nat
  /-- clusters stopped by a divergence or an expiry -/
  stopped : SMap Bool
  /-- herd-core caches: byte held and whether it is dirty, by physical address (R554, R555) -/
  cache : SMap (Byte × Bool)
  /-- clusters with an interrupt of the mailboxes pending (R639) -/
  irq : SMap Bool
  /-- bus errors of the management processor (R34) and traps of herd cores (R560) -/
  busErrors : Nat
  traps : List (Nat × Nat × Nat × Nat)
deriving DecidableEq, Repr

/-! ## Host commands (spec/02) -/

/-- The capsule engine and range locks of a head. -/
structure HostU where
  ctrls : SMap Ctrl
  /-- by `cntlid * 256 + qid` -/
  queues : SMap Queue
  /-- by tag number -/
  cmds : SMap Cmd
  /-- lock entries of the shards this head owns, and its commands' requests on the partner's, in order of request -/
  locks : List LockEnt
  lockOrder : Nat
  /-- admission times of class-0 commands by F-die, and bytes by `fdie * 4 + port` (R63) -/
  c0cmds : SMap (List Nat)
  c0bytes : SMap (List (Nat × Nat))
  /-- SSTAT-like result of the last sanitise: completed (R97) -/
  sanDone : Bool
  /-- times at which remote lock requests were sent, by tag (R74) -/
  remote : SMap Nat
  /-- F ≤ RESV on the partner's side, as its last LOCK grant said (R290) -/
  ownerFull : Bool
  /-- remote requests that have lapsed and wait for ownership to be settled (R74) -/
  unsettled : List Nat
  /-- capsules discarded for want of a readable CID (R105) -/
  discards : Nat
deriving DecidableEq, Repr

/-! ## Two heads (spec/03) -/

/-- One Chamois link group (R117 to R126). -/
structure Group where
  txSeq : Nat
  rxSeq : Nat
  credits : SMap Nat
  unacked : List TxMsg
  waiting : List TxMsg
  /-- frames held: ahead of a gap, or of a message that is not whole -/
  ahead : List RxFrame
  gapSince : Option Nat
  ackSince : Option Nat
  lanes : SMap Lane
  /-- weighted turn of VL2 to VL4 (R121) -/
  turn : Nat × Nat
  /-- credits that the partner holds, by lane, and those owed to it (R121) -/
  rxCredits : SMap Nat
  owed : SMap Nat
  /-- lane of the last frame sent: the lanes are used in rotation (R117) -/
  txLane : Nat
  /-- times of the frames received without a credit in the last millisecond (R163) -/
  noCredit : List Nat
  /-- the partner's heartbeats are ignored until training completes (R163) -/
  deaf : Bool
  /-- time of the last frame other than TRAIN (R125) -/
  lastFrame : Nat
deriving DecidableEq, Repr

/-- The pair logic of a head. -/
structure PairU where
  head : HeadState
  partner : Option HeadState
  /-- since when the head has been in FAWN without a trained link (R115) -/
  fawnAt : Nat
  /-- cause of a fault of R148 that this head has raised -/
  faulted : Option Nat
  groups : SMap Group
  hbCount : Nat
  /-- last COUNT, arrival and SENT of the partner's heartbeats; format and variant agree (R116) -/
  rxCount : Nat
  rxAt : Option Nat
  rxSent : Nat
  compatible : Bool
  /-- COUNT and time of own heartbeats sent within the last 4 µs (R130) -/
  sentHb : List (Nat × Nat)
  leaseAt : Nat
  /-- partner silence has been detected, and the witness registers read for the first time (R129) -/
  silence : Option Nat
  /-- end of the deferral of R135, and when the silence was detected -/
  deferTill : Option (Nat × Nat)
  claim : Option Claim
  /-- takeover done so far: time of the partner's last heartbeat and whether the 8 µs of R131 have passed -/
  holdTx : Option Nat
  /-- deferred takeover (R152): cause and t0 -/
  pending : Option (Nat × Nat)
  /-- steps of the rejoin done (R159), 0 when none runs; ports still to hand back -/
  rejoin : Nat
  handback : List Nat
  /-- planned handover being given: 0 flushing, 1 sent; ports, shards (R158) -/
  giving : Option (Nat × List Nat × List Nat)
  /-- SHARDSET changes whose move message is awaited (R719) -/
  awaitMove : List Nat
  /-- TKO address store: port, kind, address of the partner's twin ports -/
  addrs : List (Nat × Nat × BitVec 128)
  /-- the partner's shadow capsule table and ledger (R140, R142), by tag number -/
  capsules : SMap MirrorCap
  ledger : SMap LedgerRec
  /-- tags of the shadow capsule table whose queue is gone: they are not driven again (R106) -/
  dropped : List Nat
  /-- crash recovery has run in this start -/
  recovered : Bool
  /-- the partner's controllers and queues, by CNTLID and by `cntlid * 256 + qid` (R145) -/
  shCtrls : SMap Ctrl
  shQueues : SMap Queue
  /-- shards this head has given up whose move message waits for its last change to them (R299) -/
  movesDue : List Nat
  /-- records of a dump that recovery has adopted, by side and SEQ (R676) -/
  dumpRecs : List (Nat × Nat)
deriving DecidableEq, Repr

/-- The write journal (R141): both halves in HBM, by SEQ. -/
structure Journal where
  own : SMap JEnt
  mirror : SMap JEnt
  nextSeq : Nat
  partnerSeq : Nat
  /-- next free byte offset of the own half -/
  tail : Nat
  /-- bytes of unreleased records in the own half -/
  used : Nat
  /-- the mirror half is adopted (R150 step 6) -/
  adopted : Bool
  /-- the lag of R155 holds completions of classes 1 to 7 -/
  lagging : Bool
deriving DecidableEq, Repr

/-! ## Front ports and RDMA (spec/09) -/

/-- A frame in a port's transmit buffer. -/
structure TxFrame where
  cls : Nat
  /-- a MAC control frame -/
  control : Bool
  size : Nat
  /-- queue pair and PSN of a RoCEv2 packet -/
  qp : Option (Nat × Nat)
  /-- of work taken over from the partner: an adopted queue pair, an adopted address (R145, R146) -/
  adopted : Bool
  /-- an IP packet, which carries a DSCP (R426) -/
  ip : Bool
  /-- the queue pair, or path of a session, whose rate limits it (R447, R482) -/
  who : Option CcWho
deriving DecidableEq, Repr

/-- One front port. -/
structure Port where
  /-- frames in the receive buffer: destination, pool, bytes (R421) -/
  rx : List (RxDest × Pool × Nat)
  txq : List TxFrame
  sending : Option TxFrame
  /-- weighted turn of classes 1 to 7 (R425) -/
  turn : Nat × Nat
  /-- per priority: end of the hold, its beginning (R430, R431) -/
  hold : SMap (Nat × Nat)
  /-- per priority: last received pause while stormed (R431) -/
  storm : SMap Nat
  /-- holds of the transmitter: priority, beginning, end (R66) -/
  holds : List (Nat × Nat × Nat)
  /-- since when a class is held, as far as TX_HOLD_NS has not counted it (R430) -/
  holdAt : Option Nat
  /-- the pool is above XON_KIB after an XOFF: when the last pause frame was sent (R428) -/
  xoff : Option Nat
  downAt : Option Nat
  /-- unhonoured control frames in the present second, and its start (R457) -/
  badCtl : Nat
  badCtlAt : Nat
  /-- queue pairs and paths below the line rate, each with the time before which none of its packets starts (R447) -/
  paced : List (CcWho × Nat)
deriving DecidableEq, Repr

/-- A packet sent and not yet acknowledged. -/
inductive SentKind
  /-- RDMA READ of `len` bytes of a command's data, with those received -/
  | readReq (tag : Nat) (len : Nat) (got : Bytes)
  | write (tag : Nat) (off : Nat) (bytes : Bytes)
  | probe
  | send (tag : Nat) (cntlid qid cid : Nat) (st : Status) (dw0 : Nat) (invalidate : Bool)
deriving DecidableEq, Repr

structure SentPkt where
  psn : Nat
  /-- PSNs the packet takes (a READ request takes one per response packet) -/
  n : Nat
  kind : SentKind
deriving DecidableEq, Repr

/-- A phase of a command whose PSNs are fixed before it is sent: it is ledgered (R142), or was by the failed head (R147). -/
structure Resv where
  tag : Nat
  phase : Phase
  psn : Nat
  n : Nat
deriving DecidableEq, Repr

/-- A queue-pair context (R440 to R457). -/
structure Qp where
  e : QpExport
  fdie : Nat
  error : Bool
  epsn : Nat
  spsn : Nat
  sent : List SentPkt
  /-- ledgered phases not yet sent, in the order of their PSNs (R142, R147) -/
  resv : List Resv
  /-- the reorder window (R449): held SEND packets by PSN, held READ Responses by PSN, and since when -/
  held : SMap RocePkt
  heldSince : Option Nat
  heldR : SMap RocePkt
  heldRSince : Option Nat
  /-- first PSN of the capsule whose SEND packets are being received -/
  asm : Option Nat
  /-- SEND packets whose acknowledgement waits for their CAPSULE message: last PSN, tag number (R140) -/
  owed : List (Nat × Nat)
  /-- last PSN that the host has acknowledged, and last that it has been sent an acknowledgement for -/
  acked : Nat
  ackSent : Nat
  /-- context on die, pinned (R444, R445); recency -/
  onDie : Bool
  pinned : Bool
  used : Nat
  fetching : Bool
  retries : Nat
  rnr : Nat
  lastTx : Nat
  /-- last CNP sent (R446) -/
  cnpSent : Option Nat
  cc : Cc
  /-- adopted queue pair: probes sent and when (R147) -/
  probes : Nat
  probeAt : Option Nat
deriving DecidableEq, Repr

/-- The RDMA engines of a head. -/
structure Rdma where
  qps : SMap Qp
  /-- the partner's contexts (R442) -/
  shadows : SMap QpExport
  /-- generation last used, and time of freeing, by `fdie * 65536 + index` (R440, R441) -/
  gens : SMap Nat
  freed : SMap Nat
  ports : SMap Port
  /-- packets that wait for their context (R445), in order of arrival -/
  waiting : List (RoceHdr × RocePkt)
  /-- capsules handed to the capsule engine that it has not taken: queue pair, first PSN, PSNs -/
  capsules : List (Nat × Nat × Nat)
  /-- PAT_HIT by F-die and filter (R462) -/
  hits : SMap Nat
  /-- recency counter of the context cache -/
  clock : Nat
deriving DecidableEq, Repr


/-! ## Pronghorn sessions and replication (spec/10) -/

/-- A message being sent (R479, R480): its bytes, packets that wait for a GCM lane, when its last packet was sent, when it last drew an
ACK or NACK, the path on which each slot was last sent. -/
structure PgOut where
  bytes : Bytes
  left : Nat
  sentAt : Option Nat
  heardAt : Nat
  slotPath : SMap Nat
deriving DecidableEq, Repr

/-- A message buffer of the receiver (R479): MLEN, slots received, their bytes, when the last new slot came, packets of a wrong MLEN. -/
structure PgIn where
  mlen : Nat
  slots : SMap Bytes
  got : Nat
  newAt : Nat
  bad : Nat
deriving DecidableEq, Repr

/-- A path (R478): consecutive packets reported missing, since when it is quarantined, its rate (R482). -/
structure PgPath where
  bad : Nat
  quar : Option Nat
  cc : Cc
deriving DecidableEq, Repr

/-- A packet that waits for a GCM lane (R230). `slot`: slot of a DATA packet. -/
structure PgTx where
  fdie : Nat
  session : Nat
  port : Nat
  hdr : PgHdr
  slot : Nat
  payload : Bytes
deriving DecidableEq, Repr

/-- A packet whose tag has verified. -/
structure PgRx where
  fdie : Nat
  port : Nat
  ce : Bool
  hdr : PgHdr
  payload : Bytes
deriving DecidableEq, Repr

/-- What the source has under way of an asynchronous cycle (R486). -/
structure SrcCycle where
  batch : Nat
  prev : Option Nat
  cur : Nat
  /-- FPLIST has been sent: fingerprint, length and reference of each item; items of MAPS -/
  listed : Bool
  fps : List (Bytes × Nat × Nat)
  maps : List MapIt
  mapsSent : Bool
  /-- indexes of a NEED that is not answered, and the chunks read for it so far -/
  want : Option (List Nat)
  parts : SMap Bytes
deriving DecidableEq, Repr

/-- What the remote head has under way of a batch (R484, R487). -/
structure DstBatch where
  batch : Nat
  fps : List (Bytes × Nat)
  /-- items of MAPS that are not applied yet; indexes asked for again -/
  items : List MapIt
  asked : List Nat
  /-- an item waits for a split of its leaf (R257) -/
  held : Bool
  /-- COMMIT has come; the replica snapshot -/
  commit : Bool
  snap : Option Nat
deriving DecidableEq, Repr

/-- A session (R474). Keys of `paths`: `port * 16 + index`. -/
structure Sess where
  d : SessDesc
  fdie : Nat
  degraded : Bool
  /-- sending: next message number, the receiver's CUM, messages out, messages beyond 256, rotation -/
  nextMsg : Nat
  cum : Nat
  outs : SMap PgOut
  queue : List Bytes
  turn : Nat
  paths : SMap PgPath
  /-- receiving: load count L, CUM, buffers, path of the last DATA packet, ECN marks since the last ACK -/
  rxLoad : Nat
  rxCum : Nat
  ins : SMap PgIn
  lastPath : Nat
  ce : Nat
  /-- messages delivered to the replication engine that it has not taken -/
  ready : List Bytes
  /-- records sent as JREC that no JACK covers, by `side * 2^47 + SEQ`, with the time (R490) -/
  jrecs : SMap Nat
  /-- own journal records whose JACK waits for their mirror; tags accepted, with the time (R488, R489) -/
  jacks : List Nat
  seen : List (Nat × Nat)
  src : Option SrcCycle
  dst : Option DstBatch
deriving DecidableEq, Repr

/-- The Pronghorn engines and the replication engine of a head; sessions by `fdie * 2^32 + SESSION`. -/
structure Pgt where
  sess : SMap Sess
  tx : List PgTx
  rx : List PgRx
deriving DecidableEq, Repr
/-! ## Sundas media (spec/07) -/

/-- A request to a bridge (R322). Addresses are MADDRs of R262. The epoch operations and the witness operations have
outputs of their own. -/
inductive SfbReq
  | read (addr count : Nat) (suspendOk slc : Bool) (level : Nat)
  | readSoft (addr count : Nat) (suspendOk slc : Bool) (level : Nat)
  /-- with its DATA frames: one codeword of 4,608 bytes each -/
  | program (addr : Nat) (slc journal : Bool) (codewords : List Bytes)
  | erase (addr : Nat)
  | resume (addr : Nat) (protect : Bool)
  | claim (expect new holders : Nat)
  | seal (new holders : Nat)
  | witWrite (value : Nat)
  | witRead (side : Nat)
  | intentPost (header : Bytes)
  | intentRead (side first : Nat)
  | intentClear (side seq : Nat)
  | epochInit
  | param (addr what : Nat)
  | cstatus
  | profile (addr : Nat) (rec : Bytes)
deriving DecidableEq, Repr

/-- What an operation on the media serves. -/
inductive MedWhy
  /-- the intent post of a record (R155), by side and SEQ, and the clearing of its slots -/
  | intent (side seq : Nat)
  | clear
  /-- a journal record's program in a journal block (R280) -/
  | journal (side seq : Nat)
  /-- member `m` of the program unit that ends at stripe `k` of a segment (R339) -/
  | unit (seg k m : Nat)
  /-- copy `c` of log page `p` (R293); an anchor (R300); copy `c` of a stripe-journal page (R393) -/
  | log (p c : Nat)
  | anchor (num : Nat)
  | sj (p c : Nat)
  /-- a unit of a replacement block: segment, member, last stripe (R387) -/
  | rebuild (seg m k : Nat)
  | erase
  /-- codeword requests, by number, in slot order -/
  | read (ids : List Nat)
  | probe
  /-- answered by a command of its own, or by nothing that the head waits for: attach, claim, seal, witness, epoch -/
  | aside
  | resume
deriving DecidableEq, Repr

/-- An operation on the media: queued for its die, or sent under a tag. -/
structure MedOp where
  cp : Nat
  req : SfbReq
  cls : Nat
  why : MedWhy
  since : Nat
deriving DecidableEq, Repr

/-- A frame kept for replay or waiting for credit (R324, R325). -/
structure SfbTx where
  seq : Nat
  frames : Nat
  vc : Nat
  /-- CLASS served -/
  cls : Nat
  tag : Nat
  /-- EPOCH of the sender when it was first sent -/
  epoch : Nat
  req : SfbReq
deriving DecidableEq, Repr

/-- A frame from a bridge as a command brings it. -/
inductive SfbIn
  | complete (tag status arg : Nat) (payload : Bytes)
  | rdata (tag slot plane : Nat) (raw : Bytes)
  | event (arg : Nat)
deriving DecidableEq, Repr

/-- One carrier port (R310, R324, R325). -/
structure SPort where
  txSeq : Nat
  rxSeq : Nat
  credits : SMap Nat
  unacked : List SfbTx
  waiting : List SfbTx
  /-- frames held ahead of a gap: SEQ, channel, content -/
  ahead : List (Nat × Nat × SfbIn)
  gapSince : Option Nat
  ackSince : Option Nat
  lanes : SMap Lane
  turn : Nat × Nat
  /-- credits that the bridge holds, by channel, and those owed to it (R323, R325) -/
  rxCredits : SMap Nat
  owed : SMap Nat
  /-- lane of the last frame sent: the lanes are used in rotation (R320) -/
  txLane : Nat
  /-- times of the frames received without a credit in the last millisecond (R364) -/
  noCredit : List Nat
  lastFrame : Nat
  nextTag : Nat
  /-- time at which the bridge last began to refuse programs (R359) -/
  tempAt : Nat
deriving DecidableEq, Repr

/-- A NAND die as its attach found it, with its latency monitor (R313, R314, R361, R362). -/
structure DieInfo where
  used : Bool
  uid : Bytes
  bpc : Nat
  pages : Nat
  blocks : Nat
  retryN : Nat
  tr : Nat
  tsus : Nat
  tslc : Nat
  tprog : Nat
  tbers : Nat
  /-- times of the reads beyond the limit, since when it is slow, good probes in a row -/
  overs : List Nat
  slow : Option Nat
  evictSent : Bool
  probes : Nat
  probeAt : Nat
  /-- declared LOST (R378) -/
  lost : Bool
  /-- suspends of the current operation, suspended µs, and since when it is suspended now (R346) -/
  susp : Nat
  suspUs : Nat
  suspAt : Option Nat
deriving DecidableEq, Repr

/-- What a codeword request serves. -/
inductive CwWhy
  | pack (rd i : Nat)
  /-- input column `col` of the reconstruction of request `id` (R343, R351 step 4); `col` 0 to D − 1 data, D is P, D + 1 Q -/
  | input (id col : Nat)
  | page (pageid : Nat)
  | scrub (seg stripe slot col : Nat)
  | rebuild (seg stripe slot col : Nat)
  | blankCheck (seg : Nat)
  | scan (seg idx : Nat)
  | update
deriving DecidableEq, Repr

/-- A request for one codeword and its recovery (R343, R351, R352). -/
structure CwReq where
  /-- MADDR without offset, and the segment it belongs to -/
  addr : Nat
  seg : Nat
  cls : Nat
  /-- read for a read-around: on VC1, with SUSPEND_OK (R341) -/
  ro : Bool
  why : CwWhy
  /-- steps of R351 done: 0 first sense, then retries, 100 soft read, 200 reconstruction -/
  step : Nat
  /-- the entry whose decode left the fewest unsatisfied checks, with their number -/
  best : Nat × Nat
  /-- data of the columns that reconstruction has, by column; columns found unreadable -/
  parts : SMap Bytes
  missing : List Nat
  deferred : List Nat
  since : Nat
deriving DecidableEq, Repr

/-- Raw bits of a codeword given to a decoder (R318): hard, then soft planes. -/
structure RawCw where
  id : Nat
  cp : Nat
  raw : Bytes
  /-- planes received: bit 0 the hard bits, bits 1 and 2 the soft planes -/
  planes : Nat
  /-- it is in a decoder (R344) -/
  dec : Bool
deriving DecidableEq, Repr

/-- A user of a pack that is being read. -/
inductive RdUser
  /-- piece `n` of a read: tag, member -/
  | read (tag n member : Nat)
  /-- byte compare of a chunk in destage: job key, chunk index, member (R191) -/
  | compare (job n member : Nat)
  /-- chunk `idx` of an FPLIST that the remote pair needs (R485), of a session -/
  | repl (key idx member : Nat)
  /-- a copy out of a segment, read again with recovery: segment (R246, R287) -/
  | copy (seg : Nat)
  /-- the chunk of a freeing whose fingerprint is to be made again (R199): its reference, member -/
  | refp (ref member : Nat)
deriving DecidableEq, Repr

/-- A pack being read (R216 to R222, R246). -/
structure PackRd where
  maddr : Nat
  domain : Nat
  /-- chunk reference of member 0 that the map resolved (R246) -/
  chunk : Nat
  cls : Nat
  tile : Nat
  /-- codewords of the stripe's data that hold it, by index from the envelope's -/
  cws : SMap Bytes
  want : Nat
  env : Option Bytes
  plain : Option Bytes
  /-- already recovered once after a malformed pack (R246) -/
  again : Bool
  users : List RdUser
deriving DecidableEq, Repr

/-- The media sequencers of the head. Keys: carrier; `carrier * 1024 + die`; `carrier * 65536 + tag`. -/
structure Med where
  ports : SMap SPort
  dies : SMap DieInfo
  queue : List MedOp
  ops : SMap MedOp
  /-- starved operations, oldest first, by die key; the protected die (R346, R349) -/
  starved : List Nat
  prot : Option Nat
  /-- last successful read-level entry of a block (R353), by block MADDR -/
  levels : SMap Nat
  cws : SMap CwReq
  raws : List RawCw
  /-- codeword requests that have ended within the present command, with their data -/
  done : List (CwReq × Option Bytes)
  rds : SMap PackRd
  nextId : Nat
  /-- rotation of the intent posts and journal programs over the journal carriers (R280, R333) -/
  rot : Nat
  /-- weighted turn of classes 1 to 7 over the die queues (R340) -/
  turn : Nat × Nat
deriving DecidableEq, Repr

/-! ## Destage and packs (spec/04, spec/05) -/

/-- Progress of one chunk of a record in destage. -/
inductive ChunkSt
  /-- to be hashed: waits for a lane and a key state -/
  | hash
  /-- hashed: fingerprint; waits for its candidate's confirmation, with a byte compare where its domain asked for one when its
  fingerprint began (R191, R207) -/
  | candidate (fp : Bytes) (ref : Nat) (cmp : Bool)
  /-- a byte compare reads the candidate (R191) -/
  | comparing (fp : Bytes) (ref : Nat)
  /-- new, and waits for its turn and an open pack -/
  | fresh (fp : Bytes)
  | new (fp : Bytes) (pack member : Nat)
  | done (ref : Nat)
deriving DecidableEq, Repr

structure ChunkTask where
  bytes : Bytes
  st : ChunkSt
deriving DecidableEq, Repr

/-- A record, or a whole value, in destage. -/
structure Job where
  side : Nat
  seqs : List Nat
  shard : Nat
  tile : Nat
  cls : Nat
  nsid : Nat
  domain : Nat
  kv : Bool
  key : Key
  vlen : Nat
  slba : Nat
  arrival : Nat
  chunks : List ChunkTask
  /-- stopped: no valid domain (R203), a full leaf (R257), a freeze for firmware (R470); `noDom`: the first of these -/
  held : Bool
  noDom : Bool
  /-- a transaction of firmware's page images that it waits for, 0 for none (R257, R470) -/
  fix : Nat
  /-- control-plane firmware has applied R467 for it (R470) -/
  fixed : Bool
  /-- chunks that a remote pair has sent (R485): session, and the fingerprint each must have; no record, no map change -/
  repl : Option (Nat × List Bytes)
  /-- its transaction has been logged: its number -/
  txn : Option Nat
deriving DecidableEq, Repr

/-- States of a pack on its way to the media. -/
inductive PackSt | opened | closed | compressed | encrypted | placing | placed
deriving DecidableEq, Repr

/-- One member of a pack: its bytes, fingerprint, and the chunk of the job it came from. -/
structure PackMem where
  bytes : Bytes
  fp : Bytes
  job : Nat
  n : Nat
deriving DecidableEq, Repr

/-- A pack (R208 to R212). -/
structure Pack where
  tile : Nat
  domain : Nat
  cls : Nat
  kv : Bool
  mems : List PackMem
  st : PackSt
  addedAt : Nat
  /-- CHUNK, once closed -/
  chunk : Nat
  gen : Nat
  stream : Bytes
  stored : Bool
  /-- envelope and payload, once encrypted, or the bytes of a copy -/
  env : Bytes
  maddr : Nat
  /-- a copy of garbage collection or reshape: old address, old generation -/
  copyOf : Option (Nat × Nat)
  /-- it goes to a segment reserved to a reshape -/
  reserved : Bool
  /-- its ALLOC is logged -/
  logged : Bool
  /-- a copy whose source has been read again with recovery (R246) -/
  again : Bool
deriving DecidableEq, Repr

/-- What a lane works on: a chunk of a job, a pack on its way to the media or copied, a pack being read. -/
inductive LaneItem | chunk (job n : Nat) | pack (id : Nat) | read (id : Nat)
deriving DecidableEq, Repr

/-- A lane that holds work (R182, R217, R222): kind, tile, lane, its item, and for a chunk what its domain's entry said at its start
(R207): probe the filter, compare bytes. -/
structure LaneRun where
  kind : LaneKind
  tile : Nat
  lane : Nat
  item : LaneItem
  filter : Bool
  cmp : Bool
deriving DecidableEq, Repr

/-- A chunk being freed (R198): when it began, DYING durable, removal acknowledged, its fingerprint; where a start finds it no more, the
chunk's bytes are read to make it again. -/
structure Freeing where
  since : Nat
  dying : Bool
  acked : Bool
  fp : Option Bytes
  data : Option Bytes
deriving DecidableEq, Repr

/-- The destage pipeline. Keys of slots: `tile * 4096 + domain`, and with the generation for XTS. -/
structure Dst where
  jobs : SMap Job
  packs : SMap Pack
  nextPack : Nat
  /-- key-state slots and their recency (R179, R180); wrapped record loaded -/
  fpSlots : SMap (Bytes × Bytes × Nat)
  xtsSlots : SMap (Bytes × Bytes × Nat)
  /-- the AWK that the islands of a tile hold (R228) -/
  awk : SMap Bytes
  clock : Nat
  freeing : SMap Freeing
  /-- next chunk number of this side that closes a pack, by domain, once one has been given since the reset (R209, R259) -/
  cursor : SMap Nat
  /-- slots flushed while a lane used them, emptied when its item ends (R207, R249): of fingerprints, of XTS keys -/
  flushFp : List Nat
  flushXts : List Nat
  /-- lanes that hold work; the turn of classes 1 to 7 (R62): on the lanes of a kind and tile (R240), at the Pronghorn
frames of a front port (from 1,024), at the hard decoders of an M-die (from 2,048; R344) -/
  running : List LaneRun
  turns : SMap (Nat × Nat)
deriving DecidableEq, Repr

/-! ## Metadata, map cache, segments, log (spec/06) -/

/-- A line of the map cache (R264): the way of its set that it takes. A line that is not valid with no fill in flight is not listed. -/
structure Line where
  way : Nat
  v : Bool
  d : Bool
  r : Bool
  p : Bool
  rp : Bool
  b : Bool
  pf : Bool
  age : Nat
  dlsn : Nat
  /-- a change arrived during the write in progress; the write's place (R269) -/
  writing : Option Nat
  changed : Option Nat
  /-- the partner changes it holds: highest and lowest LSN (R270, R300) -/
  rlsn : Nat
  rfirst : Nat
deriving DecidableEq, Repr

/-- A lookup waiting on a map-cache lane (R265): page, entry, request tag, holds the lane's miss slot, waits behind it. -/
structure Look where
  die : Nat
  lane : Nat
  pageid : Nat
  entry : Nat
  tag : Nat
  cls : Nat
  miss : Bool
  behind : Bool
deriving DecidableEq, Repr

/-- A stripe's data being filled. -/
structure OpenSeg where
  segid : Nat
  /-- class of use: 0 ordinary, 1 reserved to a reshape, with its source -/
  source : Option Nat
  buf : Bytes
  /-- packs of the present stripe; pages of it with their LSN marks -/
  packs : List Nat
  pages : List (Nat × DirEnt)
  since : Nat
  /-- full stripes of the program unit not yet sent: data, packs, pages -/
  unit : List (Bytes × List Nat × List (Nat × DirEnt))
deriving DecidableEq, Repr

/-- A stripe whose columns are being programmed (R279): what it holds, acknowledged members, a failed one. -/
structure Prog where
  packs : List Nat
  pages : List (Nat × DirEnt)
  acks : List Nat
  failed : Bool
deriving DecidableEq, Repr

/-- A log page (R293): its records, the copies acknowledged or failed. -/
structure LogPage where
  recs : List LogRec
  acks : List Nat
  fails : List Nat
deriving DecidableEq, Repr

/-- A journal block (R280): the records programmed in it, by side and SEQ, and its next page. -/
structure JBlk where
  recs : List (Nat × Nat)
  next : Nat
deriving DecidableEq, Repr

/-- A checkpoint in progress (R300): number, REDO positions, LSN of CKPT_BEGIN, CKPT_END logged at. -/
structure Ckpt where
  num : Nat
  redo0 : Nat
  redo1 : Nat
  beginLsn : Nat
  endLsn : Option Nat
  /-- its first segment, the number and CRC of its pages, those not yet placed, anchors not yet answered -/
  firstSeg : Nat
  count : Nat
  crc : Nat
  left : List Nat
  anchors : Nat
deriving DecidableEq, Repr

/-- A fill in flight (R267): its class; asked for again after a wrong CRC; what came, none: nothing readable. -/
structure Fill where
  cls : Nat
  again : Bool
  got : Option (Option Bytes)
deriving DecidableEq, Repr

/-- A segment being read for copying (R284, R399, R404). `purpose`: 0 collection, 1 native reshape, 2 window of a VX5 reshape. -/
structure Scan where
  cls : Nat
  purpose : Nat
  /-- the stripe being read, and the first that is not to be -/
  stripe : Nat
  stop : Nat
  /-- data codewords of the stripe by column · 16 + slot; those that cannot be read; how many are awaited -/
  parts : SMap Bytes
  bad : List Nat
  want : Nat
  /-- copies whose relocation is not durable: pack and old address -/
  copies : List (Nat × Nat)
  /-- domain and generation of dead packs -/
  dead : List (Nat × Nat)
  /-- live packs that cannot be read: reference of member 0 and address (R287) -/
  stuck : List (Nat × Nat)
deriving DecidableEq, Repr

/-- A range operation in progress (R273): die, OP, LO, HI, pages still to be done, lines, error. -/
structure RangeOp where
  op : Nat
  lo : Nat
  hi : Nat
  todo : List Nat
  lines : Nat
  err : Nat
deriving DecidableEq, Repr

/-- A fill that waits for a way (R268): its page, its class, the line to be entered, and whether a lookup's miss asked for it (R266). -/
structure WayWait where
  page : Nat
  cls : Nat
  line : Line
  miss : Bool
deriving DecidableEq, Repr

/-- A change of metadata pages that is durable and waits for its pages to be in the cache (R269, R270). -/
inductive Change
  /-- an item of a transaction of this side: the transaction's number, the LSN of its record, the shard's SGEN, class, journal record -/
  | item (txn lsn sgen cls : Nat) (rec : Option (Nat × Nat)) (it : Item)
  /-- a relocation or change of chunk state by a record of its own -/
  | alone (r : LogRec)
  /-- every item of a transaction has been applied; LSN of its END record -/
  | txnEnd (txn lsn : Nat)
  /-- a MAPUPD of the partner: group, SEQ of its message's first frame -/
  | upd (g seq : Nat) (m : MapChange) (lsn : Nat)
deriving DecidableEq, Repr

/-- The FTL and the map caches of a head. -/
structure Ftl where
  pages : SMap Page
  /-- pages that still fail their CRC after full recovery (R308) -/
  badPages : List Nat
  dir : SMap DirEnt
  lines : SMap Line
  waits : List WayWait
  /-- changes that wait for their pages, in order; MAPUPDs applied whose acknowledgement waits for confirmations of a chunk (R198 step
  3): group, SEQ, chunk -/
  todo : List Change
  holds : List (Nat × Nat × Nat)
  looks : List Look
  fills : SMap Fill
  /-- next reserved lane of an M-die (R263) -/
  rr : SMap Nat
  range : SMap RangeOp
  /-- residence that a role command asked for (R272), by NSID: 1 LOAD_PIN runs, 2 SWEEP runs, 3 ended -/
  c0 : SMap Nat
  segs : SMap SegDesc
  opens : List OpenSeg
  progs : SMap Prog
  nextSeg : Nat
  /-- erased blocks by MADDR with their side; retired blocks; blocks whose erase is pending (R277, R347, R355) -/
  pools : SMap Nat
  retired : List Nat
  erasing : List Nat
  dumpRes : List Nat
  /-- blocks found at an attach, to be erased once the head serves (R347, R390) -/
  fresh : List Nat
  jblks : SMap JBlk
  nextLsn : Nat
  partnerLsn : Nat
  /-- address of the last durable page of the partner side's log, as far as it is known (R159) -/
  partnerPage : Nat
  nextTxn : Nat
  cur : List LogRec
  curSince : Nat
  logPages : SMap LogPage
  nextPage : Nat
  durable : Nat
  /-- records durable since the last checkpoint, and blocks of the log triple -/
  triple : List Nat
  tripleAt : Nat
  tripleBad : Bool
  /-- a destage found no segment to open, and no erased segment has come since (R308) -/
  noOpen : Bool
  /-- erased blocks whose POOL record is not durable yet (R347) -/
  erased : List Nat
  /-- full triples: highest LSN in them, and blocks; first LSN and address of the log pages -/
  oldTriples : List (Nat × List Nat)
  logIndex : List (Nat × Nat)
  /-- durable records of transactions whose END is not durable yet; transactions whose MAPUPDs are out, by LSN -/
  held : List LogRec
  updOf : SMap Nat
  ckpt : Option Ckpt
  ckptAt : Nat
  scans : SMap Scan
  /-- read points in flight by tag: map epoch; the partner's oldest (R287, R288) -/
  points : SMap Nat
  partnerPoint : Nat
  auditList : List Nat
  level : Nat
deriving DecidableEq, Repr

/-! ## Parity, rebuild, reshape (spec/08) -/

/-- A rebuild by replacement in progress (R387): segment, replacement blocks by lost member, next stripe, columns of the
unit's stripes being read. -/
structure Rebuild where
  seg : Nat
  repl : SMap Nat
  stripe : Nat
  /-- reconstructed codewords of the unit, by `(stripe * 32 + member) * 16 + slot`; those that cannot be, same keys -/
  parts : SMap Bytes
  bad : List Nat
  /-- reads still awaited; programs still awaited -/
  reads : Nat
  progs : Nat
  /-- the SEGMENT record of step 4 has been logged -/
  logged : Bool
deriving DecidableEq, Repr

/-- A reshape in progress (R397, R404): target, class, the segment being copied, the transaction of its switch; for a VX5 volume
its namespace and the boundary (segment and stripe). -/
structure Reshape where
  vx5 : Bool
  nsid : Nat
  target : Nat
  cls : Nat
  source : Option Nat
  txn : Option Nat
  bseg : Nat
  bstripe : Nat
  stopped : Bool
deriving DecidableEq, Repr

/-- A scrub of one slot of a stripe (R376): columns read so far. -/
structure Scrub where
  seg : Nat
  stripe : Nat
  slot : Nat
  parts : SMap Bytes
  bad : List Nat
deriving DecidableEq, Repr

/-- The parity engine of a head. -/
structure ParU where
  /-- carriers declared LOST as a whole (R378) -/
  lostCps : List Nat
  list : List Nat
  cur : Option Rebuild
  /-- bytes programmed by rebuild in the present window, its start, class 1 for this window (R388) -/
  winBytes : Nat
  winAt : Nat
  boost : Bool
  reshape : Option Reshape
  scrubs : List Scrub
  sjCur : List SjEnt
  sjSince : Nat
  sjPages : SMap (List SjEnt × List Nat)
  sjNext : Nat
  /-- blocks of copies A and B (R391) -/
  sjA : Option Nat
  sjB : Option Nat
  /-- page of the sequence that is page 0 of the blocks; copy and page of RESTATE entries that a new copy awaits (R394) -/
  sjAt : Nat
  sjWait : Option (Nat × Nat)
  /-- durable entries, as the copies hold them -/
  sjDone : List SjEnt
  /-- blocks retired because their die or carrier was LOST (R387, R390) -/
  lostBlocks : List Nat
  /-- codewords that a scrub has located as wrong, treated as unreadable (R376) -/
  wrong : List Nat
deriving DecidableEq, Repr


/-! ## Content search arrays, digest engines, key units (spec/11, spec/12, spec/05) -/

/-- An entry of a content search array (R495), valid while it is listed. -/
structure CsaEnt where
  val : Nat
  mask : Nat
  rank : Nat
  assoc : Nat
deriving DecidableEq, Repr

/-- What the banks of an S-die hold: entries by address, ring pointers by partition, partitions being respread, entries deleted
by a respread's end are those not listed any more; words of the HBM slots of R510 by address. -/
structure Csa where
  ents : SMap CsaEnt
  ring : SMap Nat
  spread : List Nat
  slots : SMap Nat
  /-- HOLE_LOG2 and SHIFT_MAX that stay in force in a partition until its next respread (R500) -/
  kept : SMap (Nat × Nat)
deriving DecidableEq, Repr

/-- An open session of a digest engine (R527, R533 to R536). -/
structure DgeSes where
  /-- SES_CFG as START took it -/
  cfg : Word
  decl : Nat
  st : Bytes
  ocv : Bytes
  buf : Bytes
  count : Nat
  trunc : Bool
  short : Bool
  tapFault : Bool
  armed : Option (Nat × Nat)
  /-- a FEED runs: address and length; a FINISH waits for its end -/
  feed : Option (Nat × Nat)
  finish : Bool
  /-- complete: its result is to be written -/
  ending : Bool
deriving DecidableEq, Repr

/-- A key slot: algorithm and both chaining values (R537). -/
structure DgeSlot where
  alg : Nat
  icv : Bytes
  ocv : Bytes
deriving DecidableEq, Repr

/-- A session of a key cipher unit (R234). -/
structure KcuSes where
  key : Bytes
  chain : Bytes
  clear : Bool
  ops : Nat
deriving DecidableEq, Repr

/-- An entry of a GCM key table (R231, R232): loaded or not, its load count, the invocation counter. -/
structure GcmEnt where
  key : Option Bytes
  load : Nat
  ctr : Nat
deriving DecidableEq, Repr

/-- Digest engines, key cipher units, GCM key tables. Sessions by `die * 4 + session`, slots by `die * 16 + slot` (die: CSR die
index), GCM entries by `tile * 256 + entry`; draws of the dies' context keys (R238, R548), and that of the last head reset. -/
structure Keys where
  dge : SMap DgeSes
  slots : SMap DgeSlot
  kcu : SMap KcuSes
  gcm : SMap GcmEnt
  ctx : SMap Nat
  ctxBase : Nat
deriving DecidableEq, Repr

/-! ## What leaves the head -/

/-- Everything the head sends on a link, port, bus or pin: the model's own record of its outputs, oldest first. -/
inductive Out
  /-- Chamois: a message on a group with its frames, each with its lane; a NAK, an IDLE or a TRAIN frame on a lane; a replay from a SEQ, whose
  frames follow -/
  | chl (group vl : Nat) (m : ChlMsg) (frames : List (Nat × Bytes))
  | chlNak (group lane : Nat) (frame : Bytes)
  | chlIdle (group lane : Nat) (frame : Bytes)
  | chlTrain (group lane : Nat) (frame : Bytes)
  | chlReplay (group fromSeq : Nat)
  /-- Sundas: an operation under its tag with its frames, each with its lane; a NAK, an IDLE or a TRAIN frame of a lane; a replay from a SEQ,
  whose frames follow -/
  | sfb (cp vc tag : Nat) (r : SfbReq) (frames : List (Nat × Bytes))
  | sfbNak (cp lane : Nat) (frame : Bytes)
  | sfbIdle (cp lane : Nat) (frame : Bytes)
  | sfbTrain (cp lane : Nat) (frame : Bytes)
  | sfbReplay (cp fromSeq : Nat)
  /-- front ports: a frame, gratuitous ARP or neighbour advertisement, answer to an address request, pause frame -/
  | announce (port kind : Nat) (addr : BitVec 128)
  | addrReply (fdie port kind : Nat) (addr : BitVec 128)
  | pause (fdie port prio time : Nat) (pfc : Bool)
  /-- a block of the dump, as it is programmed (R671, R672) -/
  | dumpBlock (block : Nat) (bytes : Bytes)
  /-- with the VLAN identifier (0: untagged), PCP, DSCP and ECN it carries (R416, R426) -/
  | frame (fdie port : Nat) (f : TxFrame) (vlan pcp dscp ecn : Nat)
  /-- RoCEv2 packets of a queue pair -/
  | rdmaRead (qpn psn tag off len : Nat)
  | rdmaWrite (qpn psn tag off : Nat) (bytes : Bytes)
  | probe (qpn psn : Nat)
  | response (qpn psn : Nat) (cntlid qid cid : Nat) (st : Status) (dw0 : Nat) (invalidate : Bool)
  | rdmaAck (qpn psn : Nat)
  | nakSequence (qpn psn : Nat)
  | nakInvalid (qpn psn : Nat)
  | cnp (qpn : Nat)
  /-- a Pronghorn packet: port, UDP source port, remote address, UDP payload (R475) -/
  | pronghorn (fdie port sport : Nat) (raddr : BitVec 128) (payload : Bytes)
  /-- map cache: answer to a lookup (tag, page, entry, its bytes); none where the page cannot be read (R265, R308) -/
  | mapAnswer (tag pageid entry : Nat) (bytes : Option Bytes)
  /-- data returned with the completion of an admin command -/
  | adminData (cntlid cid : Nat) (bytes : Bytes)
  /-- time: Delay_Req, 1PPS out -/
  | delayReq
  | ppsOut
  /-- management reply: transport, endpoint, STATUS, payload; MCTP control reply -/
  | mgmt (transport endpoint cmd status : Nat) (payload : Bytes)
  | mctp (cmd code : Nat) (payload : Bytes)
  /-- a JTAG instruction that runs, or is refused (R626); the device identification register holds IDCODE (R703) -/
  | jtag (instr : Nat) (ran : Bool) (idcode : Nat)
  /-- an interrupt of the mailboxes to a cluster (R639) -/
  | mailboxIrq (tile cluster : Nat)
  /-- bus-error response to the management processor (R34) -/
  | busError (addr : Nat)
  /-- value that a register read returned -/
  | readData (addr : Nat) (val : Word)
deriving DecidableEq, Repr

/-- Why the machine stops with a fault. -/
inductive Fault
  /-- No meaning raises it: every command of the table has an effect or none in each state (safe). -/
  | unreachable
deriving DecidableEq, Repr

/-- Why a command is refused. -/
inductive Refusal
  /-- Raised by Dispatch for a command that has no meaning yet (safe). -/
  | notModelled (mnemonic : String)
deriving DecidableEq, Repr

/-- The state of one head of a VX8 pair, with the queue of waiting commands. -/
structure State where
  variant : Variant
  /-- HEAD_SIDE as sampled (R665) -/
  side : Nat
  /-- registers by address, where they differ from their reset value (R9) -/
  regs : SMap Word
  /-- values last written to WO fields that later actions read -/
  wo : SMap Word
  /-- shadowed tables (R22): both copies, where they differ from the reset contents; tables being copied, by die and
  block; writes held while BUSY (R24), in order -/
  active : SMap Word
  shadow : SMap Word
  copying : SMap Nat
  heldWrites : List (Nat × Word)
  /-- HBM and DDR by physical address; a byte not listed reads 0 (R681) -/
  mem : SMap Byte
  pins : Pins
  ao : Ao
  time : TimeUnit
  nor : Nor
  thm : Thm
  nand : Nand
  hrd : Hrd
  host : HostU
  pair : PairU
  jrnl : Journal
  rdma : Rdma
  med : Med
  dst : Dst
  ftl : Ftl
  par : ParU
  /-- array metadata as this head last knew it -/
  arr : ArrayMeta
  /-- by S-die -/
  csa : SMap Csa
  keys : Keys
  pgt : Pgt
  /-- OTP of the B-die; boot, trust and management -/
  otp : Otp
  boot : Boot
  /-- free values consumed so far: the model's own counter -/
  free : Nat
  /-- outputs, oldest first: the model's own record -/
  out : List Out
  pending : List Instr
deriving DecidableEq, Repr

/-- A time source that has delivered nothing. -/
def TimeSrc.none : TimeSrc := { seen := false, sampled := false, within := false, rejects := 0, dead := false, inBand := .none, locked := false }

def TimeUnit.reset : TimeUnit :=
  { ptp := .none, pps := .none, partner := .none, lastSync := none, reqSent := none, meanDelay := none, gm := none,
    lastPps := none, lastExch := 0, partnerStale := false, partnerHasSource := false, entered := false, stepped := false,
    measured := false, aligned := false, corr := 0, acc := 0, everLocked := false, ticks := 0, synced := 0 }

def Ao.reset : Ao :=
  { tb := 0, hours := 0, seconds := 0, pcycle := 0, tripLatched := false, heldTrips := [], tripsLost := 0,
    heldEvents := [], lostSince := 0, heldCounters := [], rail := true, bPower := true, converter := true, hold := false,
    dump := none, dumps := 0 }

def Nand.reset : Nand := { dumps := [] }

def NorSlot.blank : NorSlot := { hdr0 := none, hdr1 := none, mfw := [], cfg := [], hfw := [] }

/-- OTP as manufactured (R584): nothing programmed but what no command changes. -/
def Otp.blank : Otp :=
  { inst := List.replicate 36 0, instLock := false, mfwMin := 0, cfgMin := 0, hfwMin := 0, wrapGen := 0 }

def Boot.reset : Boot :=
  { phase := .idle, record := [], makerPub := [], herdAt := 0, cfgAt := 0, sectAt := 0, i3c := none, unit := 64, eid := none,
    challenges := [], opkeys := [], nonces := [], xfer := none, jobs := [], awk := none, joinNonce := none, activation := false, nqn := [] }

def Layout.none : Layout := { width := .none, target := .none, roster := .none, evac := .none }

def Nor.reset : Nor :=
  { slotA := .blank, slotB := .blank, events := [], evSeq := 0, trips := [], ctrA := [], ctrB := [], inB := false, ctrSeq := 0 }

def Thm.reset : Thm := { dies := [], coolSince := none, notices := [], calmSince := none, frozenUntil := none, mbSeq := 0 }

def Hrd.reset : Hrd :=
  { rings := [], log := [], frz := [], dma := [], wdog := [], cap := [], capPos := [], tickAt := [], lost := [], replay := [], replayed := [],
    stopped := [], cache := [], irq := [], busErrors := 0, traps := [] }

def HostU.reset : HostU :=
  { ctrls := [], queues := [], cmds := [], locks := [], lockOrder := 0, c0cmds := [], c0bytes := [], sanDone := false, remote := [], ownerFull := false, unsettled := [], discards := 0 }

/-- Credits at training (R121). -/
def Group.trainedCredits : SMap Nat := [(0, 64), (1, 1024), (2, 4096), (3, 1024), (4, 2048)]

/-- A link group that has not trained (R167). -/
def Group.reset : Group :=
  { txSeq := 0, rxSeq := 0, credits := Group.trainedCredits, unacked := [], waiting := [], ahead := [], gapSince := none,
    ackSince := none, lanes := [], turn := (2, 0), rxCredits := Group.trainedCredits, owed := [], txLane := 0, noCredit := [], deaf := false, lastFrame := 0 }

def PairU.reset : PairU :=
  { head := .boot, partner := none, fawnAt := 0, faulted := none, groups := [], hbCount := 0, rxCount := 0, rxAt := none,
    rxSent := 0, compatible := false, sentHb := [], leaseAt := 0, silence := none, deferTill := none, claim := none,
    holdTx := none, pending := none, rejoin := 0, handback := [], giving := none, awaitMove := [],
    addrs := [], capsules := [], ledger := [], dropped := [], recovered := false,
    shCtrls := [], shQueues := [], movesDue := [], dumpRecs := [] }

def Journal.reset : Journal :=
  { own := [], mirror := [], nextSeq := 0, partnerSeq := 0, tail := 0, used := 0, adopted := false, lagging := false }

/-- A port with an empty buffer. -/
def Port.reset : Port :=
  { rx := [], txq := [], sending := none, turn := (0, 0), hold := [], storm := [], holds := [], holdAt := none,
    xoff := none, downAt := none, badCtl := 0, badCtlAt := 0, paced := [] }

def Rdma.reset : Rdma :=
  { qps := [], shadows := [], gens := [], freed := [], ports := [], waiting := [], capsules := [], hits := [], clock := 0 }

/-- A port that has not trained (R365). -/
def SPort.reset : SPort :=
  { txSeq := 0, rxSeq := 0, credits := [(0, 64), (1, 256), (2, 512), (3, 512)], unacked := [], waiting := [], ahead := [],
    gapSince := none, ackSince := none, lanes := [], turn := (0, 0), rxCredits := [(0, 64), (1, 256), (2, 512), (3, 512)],
    owed := [], txLane := 1, noCredit := [], lastFrame := 0, nextTag := 0, tempAt := 0 }

def Med.reset : Med :=
  { ports := [], dies := [], queue := [], ops := [], starved := [], prot := none, levels := [], cws := [], raws := [], done := [],
    rds := [], nextId := 0, rot := 0, turn := (0, 0) }

def Dst.reset : Dst :=
  { jobs := [], packs := [], nextPack := 0, fpSlots := [], xtsSlots := [], awk := [], clock := 0, freeing := [], cursor := [], flushFp := [], flushXts := [], running := [],
    turns := [] }

def ArrayMeta.reset : ArrayMeta :=
  { nss := [], doms := [], sgen := [], defGen := 0, deferred := [], lossRuns := 0, markedLbas := [], markedKeys := [], detaches := [], admins := [],
    frozen := [], uids := [], modules := [], opkeys := [], domKeys := [], layout := .none, readOnly := false, sanitize := none, sanFailed := false }

def Ftl.reset : Ftl :=
  { pages := [], badPages := [], dir := [], lines := [], waits := [], todo := [], holds := [], looks := [], fills := [], rr := [], range := [], c0 := [], segs := [],
    opens := [], progs := [], nextSeg := 0, pools := [], retired := [], erasing := [], dumpRes := [], fresh := [], jblks := [],
    nextLsn := 0, partnerLsn := 0, partnerPage := 0, nextTxn := 0, cur := [], curSince := 0, logPages := [], nextPage := 0, durable := 0,
    triple := [], tripleAt := 0, tripleBad := false, noOpen := false, erased := [], oldTriples := [], logIndex := [], held := [],
    updOf := [], ckpt := none, ckptAt := 0, scans := [], points := [], partnerPoint := 0,
    auditList := [], level := 0 }

def ParU.reset : ParU :=
  { lostCps := [], list := [], cur := none, winBytes := 0, winAt := 0, boost := false, reshape := none, scrubs := [],
    sjCur := [], sjSince := 0, sjPages := [], sjNext := 0, sjA := none, sjB := none, sjAt := 0, sjWait := none, sjDone := [], lostBlocks := [], wrong := [] }

def Pgt.reset : Pgt := { sess := [], tx := [], rx := [] }

def Keys.reset : Keys := { dge := [], slots := [], kcu := [], gcm := [], ctx := [], ctxBase := 0 }

/-- The state right after the full power-on reset of a head (R662, R678): HEAD reads BOOT, registers and tables at their
reset values, every store empty. The variant and the side strap are the model's choice (log entry 1). -/
def State.reset : State :=
  { variant := .v8a, side := 0, regs := [], wo := [], active := [], shadow := [], copying := [], heldWrites := [], mem := [],
    pins := { vin := 48000, modEn := true, pfWarnN := true, sysRstN := true, refclk := true },
    ao := .reset, time := .reset, nor := .reset, thm := .reset, nand := .reset, hrd := .reset, host := .reset, pair := .reset,
    jrnl := .reset, rdma := .reset,
    med := .reset, dst := .reset, ftl := .reset, par := .reset, arr := .reset, csa := [],
    keys := .reset, pgt := .reset,
    otp := .blank, boot := .reset,

    free := 0, out := [], pending := [] }

end Sys2Proof.Machine
end

