-- ==== Sys2Proof/Machine/Regs.lean ====
section
/-! DEFINITION. Registers and shadowed tables: addresses (R31, R33, R711), access codes (R9 to R13), commit (R22 to R27). -/

namespace Sys2Proof

/-- The value of a register's fields at reset. -/
def RegDesc.resetWord (r : RegDesc) : Nat := r.fields.foldl (fun a f => a + f.rst * 2 ^ f.lo) 0

/-- A register holds an RC field. -/
def RegDesc.hasRc (r : RegDesc) : Bool := r.fields.any fun f => f.acc = .rc

end Sys2Proof

namespace Sys2Proof.Machine

open Sys2Proof

/-! ## Dies and blocks -/

/-- CSR die indices (R31). -/
def dieB : Nat := 0
def dieF (n : Nat) : Nat := 1 + n
def dieM (n : Nat) : Nat := 4 + n
def dieS (n : Nat) : Nat := 8 + n
def dieC (n : Nat) : Nat := 16 + n

/-- Tiles of a variant, and its F-, M- and S-dies (R15). -/
def Variant.tiles : Variant → Nat
  | .v4a => 4
  | .v8a => 8

def Variant.sides : Variant → Nat
  | .v4a => 1
  | .v8a => 2

/-- The head carries the die (R15). -/
def Variant.populated (v : Variant) (die : Nat) : Bool :=
  die == 0 || (decide (1 ≤ die) && decide (die < 1 + v.sides)) || (decide (4 ≤ die) && decide (die < 4 + v.sides)) ||
    (decide (8 ≤ die) && decide (die < 8 + v.sides)) || (decide (16 ≤ die) && decide (die < 16 + v.tiles))

/-- Every populated die in index order. -/
def Variant.dies (v : Variant) : List Nat := (List.range 24).filter v.populated

/-- The die indices of R15 in the order of its table, without the HBM stacks: what R648 lists. -/
def dieTable : List Nat :=
  [16, 17, 18, 19, 20, 21, 22, 23, 1, 2, 4, 5, 8, 9, 0]

/-- The block exists on the die's kind (R31). -/
def blockOn (die blk : Nat) : Bool :=
  if die = 0 then [0x01, 0x02, 0x03, 0x04, 0x05, 0x07, 0x08, 0x37].contains blk
  else if die = 1 ∨ die = 2 then [0x10, 0x12, 0x13, 0x14, 0x15, 0x16, 0x17, 0x18].contains blk
  else if die = 4 ∨ die = 5 then [0x20, 0x21, 0x22, 0x23, 0x24, 0x25, 0x26].contains blk
  else if die = 8 ∨ die = 9 then blk == 0x40
  else if decide (16 ≤ die) && decide (die ≤ 23) then
    [0x30, 0x31, 0x32, 0x33, 0x34, 0x35, 0x36, 0x37, 0x38, 0x39, 0x3A, 0x3B, 0x3C, 0x3D].contains blk
  else false

/-- An offset belongs to a family of registers at `base` plus its strides (R711). -/
def inFam (off base : Nat) : List (Nat × Nat) → Bool
  | [] => off == base
  | (s, c) :: [] => decide (base ≤ off) && decide ((off - base) % s = 0) && decide ((off - base) / s < c)
  | (s, c) :: (t, d) :: _ =>
    decide (base ≤ off) && decide ((off - base) / s < c) && decide ((off - base) % s % t = 0) &&
      decide ((off - base) % s / t < d)

/-- The description of the register at an offset of a block. -/
def findReg (blk off : Nat) : Option RegDesc := (blockRegs blk).find? fun r => inFam off r.off r.fam

/-- Where a register lives: TKO and FTL registers, PAR registers but PAR_ENGINE have one copy per head (R165, R309,
R410); so has PGT_TCOMMIT, since table 0 of F1 is an alias of that of F0 (R494; DEDUCED, log entry 194). -/
def homeDie (die blk off : Nat) : Nat :=
  if blk = 0x16 then 1
  else if blk = 0x17 ∧ off = 0xFF00 then 1
  else if blk = 0x24 then 4
  else if blk = 0x26 ∧ off ≠ 0x8 then 4
  else die

/-- Key of a register in the register file: its CSR address (R31). -/
def regKey (die blk off : Nat) : Nat := homeDie die blk off * 2 ^ 32 + blk * 2 ^ 24 + off

/-- Reset value of a register; CMDS_PER_MS depends on the variant (R107). -/
def resetWord (v : Variant) (blk off : Nat) : Word :=
  match findReg blk off with
  | none => 0
  | some r =>
    let w := r.resetWord
    if blk = 0x13 ∧ off = 0x8 then
      match v with
      | .v4a => BitVec.ofNat 64 w
      | .v8a => BitVec.ofNat 64 (w - 0x5DC + 0x2EE)
    else BitVec.ofNat 64 w

/-- The stored value of a register. -/
def State.reg (s : State) (die blk off : Nat) : Word := s.regs.getD (regKey die blk off) (resetWord s.variant blk off)

/-- Registers of the file stand in rising order of their addresses. -/
abbrev State.Ordered (s : State) : Prop := s.regs.rising = true

/-- Store a register. -/
def State.setReg (s : State) (die blk off : Nat) (w : Word) : State :=
  { s with regs := s.regs.putD (regKey die blk off) w (resetWord s.variant blk off) }

/-- Bits `[lo, lo + w)` of a word. -/
def bitsAt (x : Word) (lo w : Nat) : Nat := x.toNat / 2 ^ lo % 2 ^ w

/-- A word with bits `[lo, lo + w)` replaced. -/
def setBits (x : Word) (lo w v : Nat) : Word :=
  BitVec.ofNat 64 (x.toNat - bitsAt x lo w * 2 ^ lo + v % 2 ^ w * 2 ^ lo)

/-- The stored value of a field. -/
def State.fld (s : State) (die : Nat) (f : Fld) : Nat := bitsAt (s.reg die f.blk f.off) f.lo f.w

/-- A field of one bit is set. -/
def State.flag (s : State) (die : Nat) (f : Fld) : Bool := s.fld die f == 1

/-- Store a field; bits above its width are dropped. -/
def State.setFld (s : State) (die : Nat) (f : Fld) (v : Nat) : State :=
  s.setReg die f.blk f.off (setBits (s.reg die f.blk f.off) f.lo f.w v)

def State.setFlag (s : State) (die : Nat) (f : Fld) (b : Bool) : State := s.setFld die f (if b then 1 else 0)

/-- Count `n` more in a field, modulo its width. -/
def State.addFld (s : State) (die : Nat) (f : Fld) (n : Nat) : State := s.setFld die f (s.fld die f + n)

/-- Raise a field to `n` if it is lower: the largest value seen. -/
def State.maxFld (s : State) (die : Nat) (f : Fld) (n : Nat) : State :=
  if s.fld die f < n then s.setFld die f (min n (2 ^ f.w - 1)) else s

/-- Registers of a die that a test on block and offset keeps; the others take their reset values. -/
def State.resetRegs (s : State) (die : Nat) (keepReg : Nat → Nat → Bool) : State :=
  let p : Nat → Bool := fun k => k / 2 ^ 32 != die || keepReg (k / 2 ^ 24 % 256) (k % 2 ^ 24)
  { s with regs := s.regs.keep fun k _ => p k, wo := s.wo.keep fun k _ => p k }

/-! ## Shadowed tables -/

/-- Tables of a block: number, entries, and for each word of an entry the offset of its data register. -/
def blockTables (blk : Nat) : List (Nat × Nat × List Nat) :=
  match blk with
  | 0x13 => [(0, 256, [0x108]), (1, 16384, [0x118])]
  | 0x16 => [(0, 256, [0x108])]
  | 0x10 => [(0, 64, [0x8008, 0x8010, 0x8018])]
  | 0x18 => [(0, 128, [0x108, 0x110])]
  | 0x17 => [(0, 16384, [0x208, 0x210])]
  | 0x22 => [(0, 4096, [0x108])]
  | 0x30 => [(0, 256, [0x108])]
  | 0x31 => [(0, 4096, [0x108])]
  | 0x34 => [(0, 4096, [0x108])]
  | 0x38 => [(1, 4096, [0x108])]
  | 0x39 => [(0, 256, [0x108, 0x110])]
  | 0x40 => [(0, 16, [0x208])]
  | _ => []

/-- The index register of a table: offset and width of IDX. -/
def tableIdx (blk t : Nat) : Nat × Nat :=
  match blk, t with
  | 0x13, 0 => (0x100, 8)
  | 0x13, _ => (0x110, 14)
  | 0x16, _ => (0x100, 8)
  | 0x10, _ => (0x8000, 6)
  | 0x18, _ => (0x100, 7)
  | 0x17, _ => (0x200, 14)
  | 0x22, _ => (0x100, 12)
  | 0x30, _ => (0x100, 8)
  | 0x31, _ => (0x100, 12)
  | 0x34, _ => (0x100, 12)
  | 0x38, _ => (0x100, 12)
  | 0x39, _ => (0x100, 8)
  | _, _ => (0x200, 4)

/-- Where a table lives: TKO and PGT tables have one copy per head (R165, R494). -/
def tableDie (die blk : Nat) : Nat := if blk = 0x16 ∨ blk = 0x17 then 1 else die

/-- Key of word `w` of entry `e` of table `t`. -/
def tblKey (die blk t e w : Nat) : Nat := (((tableDie die blk * 256 + blk) * 2 + t) * 2 ^ 16 + e) * 4 + w

/-- Key range of a whole table. -/
def tblBase (die blk t : Nat) : Nat := tblKey die blk t 0 0

/-- Reset contents of a table word: shard s belongs to side s mod 2 (R138's table), every other table holds the reset values
of its data registers. -/
def tblReset (blk t e w : Nat) : Word :=
  if blk = 0x16 then BitVec.ofNat 64 (e % 2)
  else match (blockTables blk).find? (fun x => x.1 == t) with
    | some (_, _, offs) => match findReg blk (offs.getD w 0) with
      | some r => BitVec.ofNat 64 r.resetWord
      | none => 0
    | none => 0

/-- A word of the active copy of a table. -/
def State.tbl (s : State) (die blk t e w : Nat) : Word := s.active.getD (tblKey die blk t e w) (tblReset blk t e w)

/-- A word of the shadow copy. -/
def State.shw (s : State) (die blk t e w : Nat) : Word := s.shadow.getD (tblKey die blk t e w) (tblReset blk t e w)

/-- A field of word `w` of an active entry, named by its data register's field. -/
def State.tblFld (s : State) (die t e w : Nat) (f : Fld) : Nat := bitsAt (s.tbl die f.blk t e w) f.lo f.w

def State.tblFlag (s : State) (die t e w : Nat) (f : Fld) : Bool := s.tblFld die t e w f == 1

/-- The default of a table word by its key. -/
def tblDefault (k : Nat) : Word :=
  tblReset (k / 4 / 2 ^ 16 / 2 % 256) (k / 4 / 2 ^ 16 % 2) (k / 4 % 2 ^ 16) (k % 4)

def State.setActive (s : State) (k : Nat) (v : Word) : State := { s with active := s.active.putD k v (tblDefault k) }
def State.setShadow (s : State) (k : Nat) (v : Word) : State := { s with shadow := s.shadow.putD k v (tblDefault k) }

/-- Keys of the tables of a block that a mask selects. -/
def selected (die blk mask k : Nat) : Bool :=
  (blockTables blk).any fun t => mask / 2 ^ t.1 % 2 == 1 && k / 2 ^ 18 == tblBase die blk t.1 / 2 ^ 18

/-- `dst` with the selected keys as `src` holds them. -/
def copyTables (die blk mask : Nat) (src dst : SMap Word) : SMap Word :=
  (src.filter fun kv => selected die blk mask kv.1).foldl (fun m kv => m.insert kv.1 kv.2)
    (dst.filter fun kv => !selected die blk mask kv.1)

/-- The table word that the data register at an offset reads and writes, by the index register of its table. -/
def State.windowKey (s : State) (die blk off : Nat) : Option Nat :=
  (blockTables blk).findSome? fun t =>
    match t.2.2.findIdx? (· == off) with
    | none => none
    | some w =>
      let ix := tableIdx blk t.1
      some (tblKey die blk t.1 (bitsAt (s.reg die blk ix.1) 0 ix.2) w)

/-- BLOCK_TCOMMIT's fields in any block that holds tables (R26). -/
def tcCommit (blk : Nat) : Fld := ⟨blk, 0xFF00, 0, 1⟩
def tcBusy (blk : Nat) : Fld := ⟨blk, 0xFF00, 1, 1⟩
def tcLost (blk : Nat) : Fld := ⟨blk, 0xFF00, 2, 1⟩
def tcAbort (blk : Nat) : Fld := ⟨blk, 0xFF00, 3, 1⟩
def tcTables (blk : Nat) : Fld := ⟨blk, 0xFF00, 16, 16⟩
def tcGen (blk : Nat) : Fld := ⟨blk, 0xFF00, 32, 16⟩

/-! ## Access codes -/

/-- A field's new value for a write of `v`, with the bits that events set during the access (R9, R11, R13). -/
def fieldAfterWrite (locked : Bool) (f : FieldDesc) (old v events : Word) : Nat :=
  let o := bitsAt old f.lo f.w
  let n := bitsAt v f.lo f.w
  match f.acc with
  | .ro | .rc | .wo => o
  | .rw => n
  | .rwl => if locked then o else n
  | .w1c => (o &&& (2 ^ f.w - 1 - n)) ||| bitsAt events f.lo f.w
  | .w1s => o ||| n

/-- A register's new value for a write (R9, R10): reserved bits stay 0. -/
def wordAfterWrite (locked : Bool) (r : RegDesc) (old v events : Word) : Word :=
  r.fields.foldl (fun x f => setBits x f.lo f.w (fieldAfterWrite locked f old v events)) old

/-- The bits of a write that fall on WO fields, kept for the action they serve. -/
def woBits (r : RegDesc) (v : Word) : Word :=
  r.fields.foldl (fun x f => if f.acc = .wo then setBits x f.lo f.w (bitsAt v f.lo f.w) else x) 0

/-- A register as read: WO fields read 0 (R9). -/
def readMask (r : RegDesc) (x : Word) : Word :=
  r.fields.foldl (fun x f => if f.acc = .wo then setBits x f.lo f.w 0 else x) x

/-- A register after a read: RC fields are cleared, then counted up by the events of the read (R12). -/
def wordAfterRead (r : RegDesc) (x events : Word) : Word :=
  r.fields.foldl (fun x f => if f.acc = .rc then setBits x f.lo f.w (bitsAt events f.lo f.w) else x) x

/-- A block is locked (R13). -/
def State.locked (s : State) (die blk : Nat) : Bool := (blockLocks blk).any fun f => s.flag die f

/-! ## Free values and outputs -/

/-- Take one free value. -/
def State.takeFree (s : State) : Nat × State := (s.free, { s with free := s.free + 1 })

/-- Record an output. -/
def State.emit (s : State) (o : Out) : State := { s with out := s.out ++ [o] }

def State.emits (s : State) (l : List Out) : State := { s with out := s.out ++ l }

end Sys2Proof.Machine
end

