-- ==== Sys2Proof/Machine/Ops.lean ====
section
/-! DEFINITION. Operations that every family shares: time stamps, memory, the event recorder, rings, exceptions, the window
unit and the freezing of channels. -/

namespace Sys2Proof.Machine

open Sys2Proof

/-! ## Time -/

/-- 64 bits of nanoseconds. -/
def tbMod : Nat := 2 ^ 64

/-- Time elapsed since a moment. -/
def State.since (s : State) (t : Nat) : Nat := s.ao.tb - t

/-- A number held within ±`b`. -/
def clampInt (b : Int) (x : Int) : Int := if x < -b then -b else if b < x then b else x

/-- The local copy of the time base in an island of a die: equal to the B-die count just after a time message, and within
10 ns of it between two (R35). -/
def State.stamp (s : State) (die island : Nat) : Nat :=
  if s.time.ticks = s.time.synced then s.ao.tb
  else (((s.ao.tb : Int) + clampInt 10 (Config.islandDrift (die * 16 + island) s.time.ticks)).toNat) % tbMod

/-! ## Memory (HBM and DDR) -/

def hbmStride : Nat := 0x000800000000
def hbmSize : Nat := 24 * 2 ^ 30
def ddrBase : Nat := 0x010000000000
def ddrTop : Nat := 0x050000000000
def csrBase : Nat := 0x800000000000

/-- The physical address holds memory of this head (spec/13, the physical address space). -/
def State.isMem (s : State) (a : Nat) : Bool :=
  (decide (a / hbmStride < s.variant.tiles) && decide (a % hbmStride < hbmSize)) || (decide (ddrBase ≤ a) && decide (a < ddrTop))

/-- One byte of memory; a byte nothing has written reads 0 (R681). -/
def State.load (s : State) (a : Nat) : Byte := s.mem.getD a 0

def State.store (s : State) (a : Nat) (b : Byte) : State := { s with mem := s.mem.putD a b 0 }

def State.loads (s : State) (a n : Nat) : Bytes := (List.range n).map fun i => s.load (a + i)

def State.stores (s : State) (a : Nat) : Bytes → State
  | [] => s
  | b :: l => (s.store a b).stores (a + 1) l

/-! ## The event recorder (R649 to R653) -/

/-- Encoding of a head state (R165); OFF reads as 0, which the encoding leaves unused. -/
def HeadState.code : HeadState → Nat
  | .off => 0
  | .boot => 1
  | .fawn => 2
  | .twin => 3
  | .solo => 4
  | .fenced => 5
  | .thermalHold => 6

/-- A die nothing has sampled. -/
def DieTemp.none : DieTemp :=
  { ro := 0, diode := 0, apart := 0, fallback := false, hist := [], hot := 0, fast := 0, hotAt := .none, railsAt := 0 }

/-- T of the evaluation `n` back; the oldest there is where fewer have been made. -/
def DieTemp.back (d : DieTemp) (n : Nat) : Int := d.hist.getD n (d.hist.getLastD 0)

/-- The short rate and the long rate, in 0.125 °C/s. -/
def DieTemp.shortRate (d : DieTemp) : Int := (d.back 0 - d.back 10) * 10
def DieTemp.longRate (d : DieTemp) : Int := d.back 0 - d.back 100

def State.dieTemp (s : State) (die : Nat) : DieTemp := s.thm.dies.getD die .none

/-- The die's ring-oscillator sensors are in use (R642). -/
def State.usesRo (s : State) (die : Nat) : Bool :=
  (s.pair.head == .fawn || s.pair.head == .twin || s.pair.head == .solo || s.pair.head == .fenced) &&
    s.flag dieB Reg.BOOT_STATUS_FCR_OK && decide (10 ^ 9 ≤ s.since (s.dieTemp die).railsAt) &&
    !s.flag dieB Reg.THM_CTRL_RO_DISABLE && !(s.dieTemp die).fallback

/-- A die's temperature, in units of 0.125 °C (R641, R642). -/
def State.temp (s : State) (die : Nat) : Int :=
  if s.usesRo die then (s.dieTemp die).ro else (s.dieTemp die).diode

/-- The NOR write window: the B-die lies from 0 °C to 90 °C (R649). -/
def State.norWindow (s : State) : Bool := decide (0 ≤ s.temp dieB) && decide (s.temp dieB ≤ 720)

/-- The recorder is frozen (R653). -/
def State.evrFrozen (s : State) : Bool :=
  match s.thm.frozenUntil with
  | some t => decide (s.ao.tb < t)
  | none => false

/-- Slots of the recorder's region (R650). -/
def evSlots : Nat := 65536

/-- Put a record in the slot at the append point. -/
def State.appendEvent (s : State) (r : EventRec) : State :=
  let n := s.fld dieB Reg.EVR_STATUS_NEXT
  let s := { s with nor := { s.nor with events := s.nor.events.insert n (.whole { r with seq := s.nor.evSeq }),
                                        evSeq := s.nor.evSeq + 1 } }
  s.setFld dieB Reg.EVR_STATUS_NEXT (n + 1)

/-- A record of management firmware without DATA, at this moment. -/
def State.mfwRecord (s : State) (code : Nat) (data : Bytes) : EventRec :=
  { code := code, source := 0xFE, severity := Config.eventSeverity s.free % 4, held := false, hours := s.ao.hours,
    seconds := s.ao.seconds, pcycle := s.ao.pcycle, side := s.side, state := s.pair.head.code, time := s.ao.tb,
    data := padTo 32 data, seq := 0 }

/-- Write a record to NOR: the last empty slot takes a FULL record instead, and later records are counted (R652). -/
def State.writeEvent (s : State) (r : EventRec) : State :=
  if s.flag dieB Reg.EVR_STATUS_FULL then s.addFld dieB Reg.EVR_LOST_FULL_LOST 1
  else
    let s := s.appendEvent r
    if s.fld dieB Reg.EVR_STATUS_NEXT = evSlots - 1 then
      (s.appendEvent (s.mfwRecord 0x0001 [])).setFlag dieB Reg.EVR_STATUS_FULL true
    else s

/-- A record reaches the controller: written, or held while the region is frozen or outside the window (R653). -/
def State.record (s : State) (r : EventRec) : State :=
  if s.evrFrozen || !s.norWindow || !s.ao.heldEvents.isEmpty then
    if s.ao.heldEvents.length < 512 then { s with ao := { s.ao with heldEvents := s.ao.heldEvents ++ [r] } }
    else { s.addFld dieB Reg.EVR_LOST_HOLD_LOST 1 with ao := { s.ao with lostSince := s.ao.lostSince + 1 } }
  else s.writeEvent r

/-- Once the freeze has ended and the window is met, the held records are written first, with HELD set, then one
HOLD_OVERFLOW record if any was lost (R653). -/
def State.writeHeld (s : State) : State :=
  if s.evrFrozen || !s.norWindow then s
  else
    let l := s.ao.heldEvents
    let s := { s with ao := { s.ao with heldEvents := [] } }
    let s : State := l.foldl (fun (s : State) r => s.writeEvent { r with held := true }) s
    if s.ao.lostSince = 0 then s
    else
      let s' := s.writeEvent (s.mfwRecord 0x0003 (le 4 s.ao.lostSince))
      { s' with ao := { s'.ao with lostSince := 0 } }

/-- EVR_FREEZE and EVR_THAW (R653): a freeze lasts 60 s from the last one; a thaw writes what is held. -/
def State.freezeEvr (s : State) : State := { s with thm := { s.thm with frozenUntil := some (s.ao.tb + 60 * 10 ^ 9) } }
def State.thawEvr (s : State) : State := { s with thm := { s.thm with frozenUntil := none } }.writeHeld

/-- A hardware block's event: its code is the block index and the row of its table of violations, its DATA the instance
(R651, R717); detail and severity are free values. -/
def State.event (s : State) (die blk row inst : Nat) : State :=
  let n := s.free
  let s := { s with free := n + 1 }
  s.record { code := blk * 256 + row, source := die, severity := Config.eventSeverity n % 4, held := false,
             hours := s.ao.hours, seconds := s.ao.seconds, pcycle := s.ao.pcycle, side := s.side,
             state := s.pair.head.code, time := s.stamp die 0,
             data := le 3 inst ++ padTo 29 (Config.eventDetail n), seq := 0 }

/-- No instance is named (R717). -/
def noInst : Nat := 0xFFFFFF

/-- A record of management firmware (R651). -/
def State.mfwEvent (s : State) (code : Nat) (data : Bytes) : State :=
  let s' := { s with free := s.free + 1 }
  s'.record (s.mfwRecord code data)

/-! ## The window unit (R557 to R567) -/

/-- Rights bit of an access kind within RIGHTS (R583). -/
def AccKind.bit : AccKind → Nat
  | .read => 0
  | .write => 1
  | .fetch => 2

/-- Valid windows of a tile that name a master and contain an address: their rights. -/
def State.windowRights (s : State) (tile mid addr : Nat) : List Nat :=
  (List.range 256).filterMap fun e =>
    let w0 := s.tbl (dieC tile) 0x39 0 e 0
    let w1 := s.tbl (dieC tile) 0x39 0 e 1
    let page := addr / 4096
    if bitsAt w1 39 1 = 1 ∧ bitsAt w1 (48 + mid) 1 = 1 ∧ bitsAt w0 0 36 ≤ page ∧ page ≤ bitsAt w1 0 36 then
      some (bitsAt w1 36 3)
    else none

/-- Cause of a window fault of an access, none where it is permitted (R558, R559, R566). An access by MID 4 to 14 to registers
is no 64-bit access, so it is a decode error (R33). -/
def State.windowFault (s : State) (tile mid addr : Nat) (k : AccKind) : Option Nat :=
  if decide (4 ≤ mid) && !s.flag (dieC tile) Reg.WIN_CTRL_EN then some 1
  else if !s.isMem addr && decide (addr < csrBase) then some 1
  else
    let rs := s.windowRights tile mid addr
    if rs.isEmpty then some 1
    else if rs.any fun r => r / 2 ^ k.bit % 2 == 1 && !(decide (csrBase ≤ addr) && k == .fetch) then
      (if decide (4 ≤ mid) && decide (csrBase ≤ addr) then some 3 else none)
    else some 2

/-- The first faulting 64-byte access of a range, if any: address and cause. -/
def State.rangeFault (s : State) (tile mid addr len : Nat) (k : AccKind) : Option (Nat × Nat) :=
  let first := addr / 64
  let n := if len = 0 then 0 else (addr + len - 1) / 64 - first + 1
  (List.range n).findSome? fun i =>
    let a := max addr ((first + i) * 64)
    (s.windowFault tile mid a k).map fun c => (a, c)

/-- Write a fault record; a full log drops it and counts it (R564, R566). -/
def State.logFault (s : State) (tile : Nat) (f : FaultRec) : State :=
  let l := s.hrd.log.getD tile []
  let s := s.addFld (dieC tile) Reg.WIN_FCNT_FAULTS 1
  if l.length < 16 then { s with hrd := { s.hrd with log := s.hrd.log.putD tile (l ++ [f]) [] } }
  else s.addFld (dieC tile) Reg.WIN_FCNT_DROPPED 1

def Frz.none : Frz := { frozen := false, requested := false, access := .none }

/-- Key of a channel of a master. -/
def chanKey (tile mid chan : Nat) : Nat := tile * 256 + mid * 16 + chan

def State.frz (s : State) (tile mid chan : Nat) : Frz := s.hrd.frz.getD (chanKey tile mid chan) .none

def State.setFrz (s : State) (tile mid chan : Nat) (f : Frz) : State :=
  { s with hrd := { s.hrd with frz := s.hrd.frz.putD (chanKey tile mid chan) f .none } }

/-- A channel is frozen: it issues no access and takes no work (R561). -/
def State.frozen (s : State) (tile mid chan : Nat) : Bool := (s.frz tile mid chan).frozen

/-- Freeze a channel, keeping the access to make again at thaw (R561, R565). -/
def State.freezeChan (s : State) (tile mid chan : Nat) (access : Option (Nat × AccKind)) : State :=
  let s := s.setFrz tile mid chan { frozen := true, requested := false, access := access }
  let d := dieC tile
  let f := Reg.FRZ_F_FROZEN.plus (mid / 4 * 8)
  let s := s.setFld d f (s.fld d f ||| 2 ^ (16 * (mid % 4) + chan))
  let s := (s.setFlag d Reg.FRZ_STATUS_ANY true).setFld d Reg.FRZ_STATUS_LAST_MID mid
  (s.setFld d Reg.FRZ_STATUS_LAST_CHAN chan).addFld d Reg.FRZ_STATUS_COUNT 1

/-! ## Rings (R568 to R572) -/

def Ring.none : Ring := { msgs := [], waiting := [], posted := 0, missed := 0, halted := false }

def ringKey (tile r : Nat) : Nat := tile * 4096 + r

def State.ring (s : State) (tile r : Nat) : Ring := s.hrd.rings.getD (ringKey tile r) .none

def State.setRing (s : State) (tile r : Nat) (x : Ring) : State :=
  { s with hrd := { s.hrd with rings := s.hrd.rings.putD (ringKey tile r) x .none } }

/-- Slots of a ring: SIZE_LOG2 held to 6 to 20 (R568). -/
def State.ringSlots (s : State) (tile r : Nat) : Nat :=
  2 ^ (max 6 (min 20 (s.tblFld (dieC tile) 1 r 0 Reg.HRD_RING_DATA_SIZE_LOG2)))

def State.ringBase (s : State) (tile r : Nat) : Nat := s.tblFld (dieC tile) 1 r 0 Reg.HRD_RING_DATA_BASE * 64

def State.ringValid (s : State) (tile r : Nat) : Bool := s.tblFlag (dieC tile) 1 r 0 Reg.HRD_RING_DATA_VALID

/-- TYPE of a message (R569, R152); that of a delivered frame is not in the manual. -/
def RingBody.type : RingBody → Nat
  | .tick _ => 1
  | .winfault _ => 2
  | .dmaDone _ _ _ => 3
  | .takeoverPending _ _ => 0x0100
  | .frame _ _ _ _ _ _ => Config.frameType % 2 ^ 16
  | .exc k _ => Config.excType k.num % 2 ^ 16
  | .work _ => 0

def AccKind.code : AccKind → Nat
  | .read => 0
  | .write => 1
  | .fetch => 2

/-- A fault record as WIN_FAULT gives it (R583). -/
def FaultRec.word (f : FaultRec) : Nat :=
  f.addr % 2 ^ 48 + f.mid * 2 ^ 48 + f.chan * 2 ^ 52 + f.kind.code * 2 ^ 56 + f.cause * 2 ^ 58 + 2 ^ 63

/-- The 40 BODY bytes of a message (R569). -/
def RingBody.bytes : RingBody → Bytes
  | .tick m => padTo 40 (le 4 m)
  | .winfault f => padTo 40 (le 8 f.word ++ le 8 f.time)
  | .dmaDone tag st n => padTo 40 (le 8 tag ++ le 1 st ++ zeros 3 ++ le 4 n)
  | .takeoverPending c t => padTo 40 (le 8 c ++ le 8 t)
  | .frame p t len f wake b => padTo 40 (Config.frameBody p t len f wake b)
  | .exc k l => padTo 40 (Config.excBody k.num l)
  | .work b => padTo 40 (b.drop 24)

/-- The 64 bytes of a message (R569). A slot that a core posted is its own bytes. -/
def RingMsg.bytes (m : RingMsg) : Bytes :=
  match m.body with
  | .work b => padTo 64 b
  | b => le 2 b.type ++ le 1 m.mid ++ le 1 (if m.attach.isSome then 1 else 0) ++
      le 4 ((m.attach.map Prod.snd).getD 0) ++ le 8 m.seq ++ le 8 m.time ++ b.bytes

/-- Write a message in the slot at PROD and advance PROD. -/
def State.placeMsg (s : State) (tile r : Nat) (m : RingMsg) : State :=
  let d := dieC tile
  let f := Reg.HRD_RING_PROD.plus (8 * r)
  let slots := s.ringSlots tile r
  let p := s.fld d f
  let x := s.ring tile r
  let m := { m with seq := x.posted }
  let s := s.stores (s.ringBase tile r + p % slots * 64) m.bytes
  let s := s.setRing tile r { x with msgs := x.msgs ++ [m], posted := x.posted + 1 }
  s.setFld d f (p + 1)

/-- Post a message of the ring unit: it waits while the ring is full, halted or not in use; the write is checked against the
windows of MID 13, and a fault halts the ring with its message held (R562, R570). The second argument of the answer is the
fault, for the caller to freeze the ring unit. -/
def State.tryPost (s : State) (tile r : Nat) (m : RingMsg) : State × Option (Nat × Nat) :=
  let x := s.ring tile r
  let wait : State := s.setRing tile r { x with waiting := x.waiting ++ [m] }
  if !s.ringValid tile r || x.halted || !x.waiting.isEmpty || s.frozen tile 13 0 then (wait, none)
  else if s.ringSlots tile r ≤ x.msgs.length then (wait.addFld (dieC tile) Reg.HRD_STATUS_FULL_WAITS 1, none)
  else
    let a := s.ringBase tile r + s.fld (dieC tile) (Reg.HRD_RING_PROD.plus (8 * r)) % s.ringSlots tile r * 64
    match s.windowFault tile 13 a .write with
    | none => (s.placeMsg tile r m, none)
    | some c => (s.setRing tile r { x with waiting := m :: x.waiting, halted := true }, some (a, c))

/-- A message of a master of a tile, stamped with its island's time. -/
def State.msgOf (s : State) (tile mid : Nat) (b : RingBody) : RingMsg :=
  { mid := mid, seq := 0, time := s.stamp (dieC tile) 11, attach := none, body := b }

/-- Post the WINFAULT message of a fault; a ring that itself faults only keeps it waiting. -/
def State.postWinfault (s : State) (tile : Nat) (f : FaultRec) : State :=
  (s.tryPost tile (s.fld (dieC tile) Reg.FRZ_CTRL_RING) (s.msgOf tile 13 (.winfault f))).1

/-- A window fault of a channel of MID 4 to 14 (R561): the channel is frozen, the record written, WINFAULT posted. -/
def State.channelFault (s : State) (tile mid chan addr : Nat) (k : AccKind) (cause : Nat) : State :=
  let f : FaultRec := { mid := mid, chan := chan, addr := addr, kind := k, cause := cause, time := s.stamp (dieC tile) 11 }
  ((s.freezeChan tile mid chan (some (addr, k))).logFault tile f).postWinfault tile f

/-- A window fault of a herd core: a precise trap and a record, no freeze (R560). -/
def State.coreFault (s : State) (tile cluster core addr : Nat) (k : AccKind) (cause : Nat) : State :=
  let f : FaultRec := { mid := cluster, chan := core, addr := addr, kind := k, cause := cause, time := s.stamp (dieC tile) 11 }
  let s := s.logFault tile f
  { s with hrd := { s.hrd with traps := s.hrd.traps ++ [(tile, cluster, core, addr)] } }

/-- Post a message on a ring to cores (R570). -/
def State.post (s : State) (tile r mid : Nat) (b : RingBody) : State :=
  match s.tryPost tile r (s.msgOf tile mid b) with
  | (s, none) => s
  | (s, some (a, c)) => s.channelFault tile 13 0 a .write c

/-- Post an exception on a tile's exception ring (R21). Which of the 4,096 rings that is, and the message's TYPE, MID and BODY, the
manual does not give: free values (log entry 38). -/
def State.exc (s : State) (tile : Nat) (k : ExcKind) (args : List Nat) : State :=
  s.post tile (Config.excRing tile % 4096) (Config.excMid k.num % 256) (.exc k args)

/-- Post a message with an attachment. -/
def State.postAttached (s : State) (tile r mid : Nat) (b : RingBody) (addr len : Nat) : State :=
  match s.tryPost tile r { s.msgOf tile mid b with attach := some (addr, len) } with
  | (s, none) => s
  | (s, some (a, c)) => s.channelFault tile 13 0 a .write c

/-- Write the waiting messages of a ring that now fit, oldest first; `fuel` bounds their number. -/
def State.drainRing (s : State) (tile r : Nat) : Nat → State
  | 0 => s
  | fuel + 1 =>
    let x := s.ring tile r
    match x.waiting with
    | [] => s
    | m :: rest =>
      if !s.ringValid tile r || x.halted || s.frozen tile 13 0 || decide (s.ringSlots tile r ≤ x.msgs.length) then s
      else
        let a := s.ringBase tile r + s.fld (dieC tile) (Reg.HRD_RING_PROD.plus (8 * r)) % s.ringSlots tile r * 64
        match s.windowFault tile 13 a .write with
        | none => ((s.setRing tile r { x with waiting := rest }).placeMsg tile r m).drainRing tile r fuel
        | some c => (s.setRing tile r { x with halted := true }).channelFault tile 13 0 a .write c

/-! ## Weighted turns (R62, R121, R425) -/

/-- The next of some numbered queues by weighted round robin: `cur` has `left` turns left. A weight of 0 is served only when
no queue with another weight has work. Answers the queue and the new turn. -/
def wrrNext (n : Nat) (weight : Nat → Nat) (avail : Nat → Bool) (turn : Nat × Nat) : Option (Nat × (Nat × Nat)) :=
  if avail turn.1 && decide (0 < turn.2) then some (turn.1, (turn.1, turn.2 - 1))
  else
    let order := (List.range n).map fun i => (turn.1 + 1 + i) % n
    match order.find? fun q => avail q && decide (0 < weight q) with
    | some q => some (q, (q, weight q - 1))
    | none => match order.find? avail with
      | some q => some (q, (q, 0))
      | none => none

/-- NVF_CWEIGHT of a class on an F-die (R62, R107). -/
def State.cweight (s : State) (die c : Nat) : Nat := s.fld die ⟨0x13, 0x18, 8 * c, 8⟩

end Sys2Proof.Machine
end

