-- ==== Sys2Proof/Machine/Capture.lean ====
section
/-! DEFINITION. Replay capture and replay of a tile's control plane (R576 to R580). -/

namespace Sys2Proof.Machine

open Sys2Proof

/-- TYPE, CORE and body of a record (R576). -/
def CapRec.parts : CapRec → Nat × Nat × Bytes
  | .start d f v t => (1, 0, d ++ le 4 f ++ le 1 v ++ le 1 t)
  | .snap a b => (2, 0, le 8 a ++ b)
  | .msg c r ms => (3, c, le 8 r ++ ms.flatMap RingMsg.bytes)
  | .att c b => (4, c, b)
  | .csr c a v => (5, c, le 8 a ++ le 8 v.toNat)
  | .out c r sl => (6, c, le 8 r ++ sl.flatMap (padTo 64))
  | .gap n => (7, 0, le 8 n)
  | .stop => (8, 0, [])

/-- A record's bytes: its 16-byte header, then its body padded to 16 bytes (R576). -/
def CapRec.bytes (r : CapRec) (time : Nat) : Bytes :=
  let p := r.parts
  le 1 p.1 ++ le 1 p.2.1 ++ zeros 2 ++ le 4 p.2.2.length ++ le 8 time ++ padMul 16 p.2.2

def CapRec.size (r : CapRec) : Nat := 16 + roundUp r.parts.2.2.length 16

/-- Bytes of a tile's capture ring. -/
def State.capRing (s : State) (tile : Nat) : Nat := s.fld (dieC tile) Reg.RPL_SIZE_MIB * 2 ^ 20

def State.capRunning (s : State) (tile : Nat) : Bool := s.flag (dieC tile) Reg.RPL_STATUS_RUNNING

/-- Oldest records are overwritten until the others fit (R578). -/
def dropOldest (room : Nat) : List CapRec → List CapRec
  | [] => []
  | r :: l => if ((r :: l).foldl (fun n x => n + x.size) 0) ≤ room then r :: l else dropOldest room l

/-- Where a record of `len` bytes starts in the ring, and how many of its bytes lie before the ring's end. -/
def State.capPlace (s : State) (tile len : Nat) : Nat × Nat :=
  let o := s.hrd.capPos.getD tile 0 % s.capRing tile
  (o, min len (s.capRing tile - o))

/-- The window fault that writing `len` bytes at the ring's position meets, as master 12 (R562). -/
def State.capFault (s : State) (tile len : Nat) : Option (Nat × Nat) :=
  let x := s.capPlace tile len
  let base := s.fld (dieC tile) Reg.RPL_BASE_ADDR
  (s.rangeFault tile 12 (base + x.1) x.2 .write).or (s.rangeFault tile 12 base (len - x.2) .write)

/-- Write a record's bytes at the ring's position, going on at its start; the oldest records give way. -/
def State.capPut (s : State) (tile : Nat) (r : CapRec) (b : Bytes) : State :=
  let x := s.capPlace tile b.length
  let base := s.fld (dieC tile) Reg.RPL_BASE_ADDR
  let ring := s.capRing tile
  let s := (s.stores (base + x.1) (b.take x.2)).stores base (b.drop x.2)
  { s with hrd := { s.hrd with capPos := s.hrd.capPos.insert tile (s.hrd.capPos.getD tile 0 + b.length),
                               cap := s.hrd.cap.insert tile (dropOldest ring (s.hrd.cap.getD tile [] ++ [r])) } }

/-- Write a record that fits at the ring's position, as master 12: a window fault stops the capture (R562). -/
def State.capWrite (s : State) (tile : Nat) (r : CapRec) : State :=
  let b := r.bytes (s.stamp (dieC tile) 11)
  (s.capFault tile b.length).elim (s.capPut tile r b) fun f =>
    ((s.setFlag (dieC tile) Reg.RPL_STATUS_RUNNING false).setFlag (dieC tile) Reg.RPL_STATUS_FAULT true).channelFault tile 12 0 f.1 .write f.2

/-- Capture a record (R576 to R578): a record larger than the ring is counted, and a GAP record gives the count once one is
written again; in STOP mode the first record that does not fit ends the capture with STOP. -/
def State.capture (s : State) (tile : Nat) (r : CapRec) : State :=
  let d := dieC tile
  let ring := s.capRing tile
  if !s.capRunning tile || s.frozen tile 12 0 then s
  else if s.flag d Reg.RPL_CTRL_MODE && decide (ring < s.hrd.capPos.getD tile 0 + r.size) then
    (if ring < 16 then s else s.capWrite tile .stop).setFlag d Reg.RPL_STATUS_RUNNING false
  else if ring < r.size then
    { s.addFld d Reg.RPL_STATUS_GAPS 1 with hrd := { s.hrd with lost := s.hrd.lost.modD tile 0 (· + 1) } }
  else
    let n := s.hrd.lost.getD tile 0
    let s := if n = 0 then s else
      { s.capWrite tile (.gap n) with hrd := { (s.capWrite tile (.gap n)).hrd with lost := s.hrd.lost.erase tile } }
    s.capWrite tile r

/-- The digest in a result slot of the B-die: the measurement of an image (R598). -/
def State.measurement (s : State) (slot : Nat) : Bytes :=
  (List.range 8).flatMap fun k => le 8 (s.fld dieB (Reg.RES_D_BYTES.plus (slot * 0x80 + 8 * k)))

/-- Variant code of the calibration row (R588). -/
def Variant.code : Variant → Nat
  | .v4a => 0x04
  | .v8a => 0x08

/-- The capture starts, or starts again, with a START record (R562, R576). The format version is BOOT_FORMAT's. -/
def State.capStart (s : State) (tile : Nat) : State :=
  let s := s.setFlag (dieC tile) Reg.RPL_STATUS_RUNNING true
  let s := { s with hrd := { s.hrd with cap := s.hrd.cap.erase tile, capPos := s.hrd.capPos.erase tile } }
  s.capture tile (.start (s.measurement 2) (s.fld dieB Reg.BOOT_FORMAT_FORMAT) s.variant.code tile)

/-- The tile runs in replay (R580). -/
def State.replaying (s : State) (tile : Nat) : Bool := s.flag (dieC tile) Reg.HRD_CTRL_REPLAY

/-- A difference from the capture: DIVERGED, the cluster stops, and the core is recorded (R580). -/
def State.diverge (s : State) (tile core : Nat) : State :=
  let s := (s.setFlag (dieC tile) Reg.RPL_STATUS_DIVERGED true).setFld (dieC tile) Reg.RPL_STATUS_CORE core
  { s with hrd := { s.hrd with stopped := s.hrd.stopped.insert (tile * 4 + core / 8) true } }

/-- The core a record belongs to; none for records of no core. -/
def CapRec.core : CapRec → Option Nat
  | .msg c _ _ | .att c _ | .csr c _ _ | .out c _ _ => some c
  | _ => none

/-- Remove the next captured record of a core, unless a GAP stands before it. -/
def takeFor (core : Nat) : List CapRec → Option (CapRec × List CapRec)
  | [] => none
  | .gap _ :: _ => none
  | r :: l => if r.core = some core then some (r, l) else (takeFor core l).map fun x => (x.1, r :: x.2)

/-- Take the next record of a core from the capture loaded for replay. -/
def State.takeReplay (s : State) (tile core : Nat) : Option (CapRec × State) :=
  (takeFor core (s.hrd.replay.getD tile [])).map fun x =>
    (x.1, { s with hrd := { s.hrd with replay := s.hrd.replay.insert tile x.2,
                                       replayed := s.hrd.replayed.modD tile 0 (· + 1) } })

/-- A core's register read of `val` (R576, R580): captured, or answered from the capture in replay. -/
def State.readCsr (s : State) (tile cluster core addr : Nat) (val : Word) : Word × State :=
  let c := cluster * 8 + core
  if s.replaying tile then
    match s.takeReplay tile c with
    | some (.csr _ a v, t) => if a = addr then (v, t) else (v, t.diverge tile c)
    | some (_, t) => (val, t.diverge tile c)
    | none => (val, s.diverge tile c)
  else if s.fld (dieC tile) Reg.RPL_CTRL_CLUSTERS / 2 ^ cluster % 2 = 1 then (val, s.capture tile (.csr c addr val))
  else (val, s)

end Sys2Proof.Machine
end

