-- ==== Sys2Proof/Machine/Codec.lean ====
section
/-! DEFINITION. Bit-exact formats of the media: media addresses (R262), codewords with their scrambler and parity (R315 to
R317), journal record headers (R143), the field of the parity engine (R374, R375). -/

namespace Sys2Proof.Machine

open Sys2Proof

/-! ## Media addresses (R262) -/

def maddr (cp die block page slot off : Nat) : Nat :=
  cp % 64 * 2 ^ 58 + die % 1024 * 2 ^ 48 + block % 16384 * 2 ^ 34 + page % 4096 * 2 ^ 22 + slot % 64 * 2 ^ 16 + off % 65536

def mCp (a : Nat) : Nat := a / 2 ^ 58 % 64
def mDie (a : Nat) : Nat := a / 2 ^ 48 % 1024
def mBlock (a : Nat) : Nat := a / 2 ^ 34 % 16384
def mPage (a : Nat) : Nat := a / 2 ^ 22 % 4096
def mSlot (a : Nat) : Nat := a / 2 ^ 16 % 64
def mOff (a : Nat) : Nat := a % 65536

/-- Key of a die: carrier and die. -/
def dieKey (cp die : Nat) : Nat := cp * 1024 + die

/-- The block, and the die, that an address lies in. -/
def blockOf (a : Nat) : Nat := a / 2 ^ 34 * 2 ^ 34
def dieOf (a : Nat) : Nat := dieKey (mCp a) (mDie a)

def Member.addr (m : Member) : Nat := maddr m.carrier m.die m.block 0 0 0

/-! ## Codewords (R315 to R317) -/

/-- The scrambler's next state and output bit (R316). -/
def scrStep (s : Nat) : Nat × Nat := (if s % 2 = 1 then s / 2 ^^^ 0x80200003 else s / 2, s % 2)

/-- One byte of the sequence, bit 0 first: its value and the state after it. -/
def scrByte : Nat → Nat → Nat × Nat
  | 0, s => (0, s)
  | n + 1, s =>
    let r := scrStep s
    let t := scrByte n r.1
    (r.2 + 2 * t.1, t.2)

def scrambleFrom : Nat → Bytes → Bytes
  | _, [] => []
  | s, b :: l =>
    let k := scrByte 8 s
    (b ^^^ BitVec.ofNat 8 k.1) :: scrambleFrom k.2 l

/-- Scramble or descramble the systematic bytes of the codeword at an address (R316). -/
def scramble (addr : Nat) (l : Bytes) : Bytes :=
  let s := (crc32c (le 8 (addr / 65536 * 65536))).toNat
  scrambleFrom (if s = 0 then 1 else s) l

/-- The systematic bytes of a codeword before scrambling (R315). -/
def cwSystematic (addr segid tflags : Nat) (data : Bytes) : Bytes :=
  let h := padTo 4096 data ++ le 6 (addr / 65536) ++ le 4 segid ++ le 1 tflags ++ [0]
  h ++ le 4 (crc32c h).toNat

/-- A set bit of a circulant as block row, block column and shift (R317). -/
abbrev Circ := Nat × Nat × Nat

/-- Bit `i` of a byte string, bit 0 of byte 0 first. -/
def bitOf (l : Bytes) (i : Nat) : Bool := ((l[i / 8]?).getD 0).getLsbD (i % 8)

/-- One parity check: block row `R`, row `i`: its parity bits as a set, and the sum of its systematic bits. -/
def ldpcRow (circs : List Circ) (sys : Bytes) (R i : Nat) : Nat × Bool :=
  circs.foldl (fun acc c =>
    if c.1 = R then
      let bit := c.2.1 * 128 + (i + c.2.2) % 128
      if bit < 32896 then (acc.1, acc.2 != bitOf sys bit) else (acc.1 ^^^ 2 ^ (bit - 32896), acc.2)
    else acc) (0, false)

/-- Elimination: each pivot with its equation; an equation is reduced by the pivots found before it. -/
def ldpcEliminate (rows : List (Nat × Bool)) : List (Nat × Nat × Bool) :=
  rows.foldl (fun piv r =>
    let r := piv.foldl (fun r p => if r.1.testBit p.1 then (r.1 ^^^ p.2.1, r.2 != p.2.2) else r) r
    if r.1 = 0 then piv else piv ++ [(Nat.log2 r.1, r.1, r.2)]) []

/-- Parity bits that meet every check: back substitution from the last pivot found. -/
def ldpcSolve (piv : List (Nat × Nat × Bool)) : Nat :=
  piv.foldr (fun p x =>
    let others := (List.range 3968).foldl (fun b j => if j != p.1 && p.2.1.testBit j && x.testBit j then !b else b) p.2.2
    if others then x ||| 2 ^ p.1 else x) 0

/-- PARITY of a codeword under a circulant table (R317). -/
def ldpcParity (circs : List Circ) (sys : Bytes) : Bytes :=
  let rows := (List.range 31).flatMap fun R => (List.range 128).map fun i => ldpcRow circs sys R i
  le 496 (ldpcSolve (ldpcEliminate rows))

/-- A whole codeword (R315 to R317). -/
def codeword (circs : List Circ) (addr segid tflags : Nat) (data : Bytes) : Bytes :=
  let sys := scramble addr (cwSystematic addr segid tflags data)
  sys ++ ldpcParity circs sys

/-- The codeword meets every parity check of the table. -/
def ldpcOk (circs : List Circ) (cw : Bytes) : Bool :=
  (List.range 31).all fun R => (List.range 128).all fun i =>
    !(circs.foldl (fun b c => if c.1 = R && bitOf cw (c.2.1 * 128 + (i + c.2.2) % 128) then !b else b) false)

/-- What a decoded codeword is judged by (R319, R409): its data and SEGID where it is readable. -/
def cwRead (addr : Nat) (sys : Bytes) : Option (Bytes × Nat) :=
  let p := scramble addr (padTo 4112 sys)
  if leAt p 4108 4 = (crc32c (p.take 4108)).toNat ∧ leAt p 4096 6 = addr / 65536 then some (p.take 4096, leAt p 4102 4)
  else none

/-- A raw codeword with at least 36,800 bits set is blank (R319). -/
def cwBlank (raw : Bytes) : Bool :=
  decide (36800 ≤ raw.foldl (fun n b => n + ((List.range 8).filter b.getLsbD).length) 0)

/-! ## The parity field (R374, R375) -/

/-- Multiplication by g = 2 in GF(2^8) with polynomial 0x11D. -/
def gfDouble (a : Byte) : Byte := if a.getLsbD 7 then (a <<< 1) ^^^ 0x1D#8 else a <<< 1

def gfMulAux : Nat → Byte → Byte → Byte
  | 0, _, _ => 0
  | n + 1, a, b => (if b.getLsbD 0 then a else 0) ^^^ gfMulAux n (gfDouble a) (b >>> 1)

/-- Multiplication. -/
def gfMul (a b : Byte) : Byte := gfMulAux 8 a b

/-- g^n. -/
def gfPow : Nat → Byte
  | 0 => 1
  | n + 1 => gfDouble (gfPow n)

/-- The inverse: a^254. -/
def gfInv (a : Byte) : Byte := (List.range 253).foldl (fun x _ => gfMul x a) a

/-- P and Q of the data columns (R374). -/
def parityP (cols : List Bytes) : Bytes := cols.foldl xorBytes (zeros ((cols.head?.getD []).length))

def parityQAux : Byte → List Bytes → Bytes → Bytes
  | _, [], acc => acc
  | g, c :: l, acc => parityQAux (gfDouble g) l (xorBytes acc (c.map (gfMul g)))

def parityQ (cols : List Bytes) : Bytes := parityQAux 1 cols (zeros ((cols.head?.getD []).length))

/-- Reconstruct the columns of one slot (R375): columns by index, P at `d`, Q at `d + 1`. None with more than two erasures. -/
def reconstruct (d : Nat) (parts : SMap Bytes) : Option (List Bytes) :=
  let n := 4096
  let lostD := (List.range d).filter fun j => !parts.has j
  let get := fun j => parts.getD j (zeros n)
  let sumP := (List.range d).foldl (fun a j => if parts.has j then xorBytes a (get j) else a) (zeros n)
  let sumQ := (List.range d).foldl (fun a j => if parts.has j then xorBytes a ((get j).map (gfMul (gfPow j))) else a) (zeros n)
  let pr := xorBytes (get d) sumP
  let qr := xorBytes (get (d + 1)) sumQ
  let fill := fun (m : SMap Bytes) => (List.range d).map fun j => m.getD j (zeros n)
  let data : Option (List Bytes) := match lostD with
    | [] => some (fill parts)
    | [x] =>
      if parts.has d then some (fill (parts.insert x pr))
      else if parts.has (d + 1) then some (fill (parts.insert x (qr.map (gfMul (gfInv (gfPow x))))))
      else none
    | [x, y] =>
      if parts.has d && parts.has (d + 1) then
        let num := xorBytes (pr.map (gfMul (gfPow (y - x)))) (qr.map (gfMul (gfInv (gfPow x))))
        let dx := num.map (gfMul (gfInv (gfPow (y - x) ^^^ 1)))
        some (fill ((parts.insert x dx).insert y (xorBytes pr dx)))
      else none
    | _ => none
  data.map fun l => l ++ [parityP l, parityQ l]

/-! ## Journal record headers (R143) -/

/-- FLAGS of a record. -/
def JRec.flags (r : JRec) : Nat :=
  (if r.kv then 1 else 0) + (if r.mediaDur then 2 else 0) + (if r.zeroes then 4 else 0) + (if r.dealloc then 8 else 0)

/-- The 128 bytes of a record's header. -/
def JRec.header (r : JRec) : Bytes :=
  let h := le 4 0x56584A31 ++ le 1 r.side ++ le 1 r.flags ++ le 2 (roundUp r.data.length 4096 / 4096) ++ le 2 r.part ++
    le 2 r.parts ++ le 4 r.epoch ++ le 8 r.seq ++ le 8 r.tag ++ le 4 r.nsid ++ le 1 r.key.length ++ le 1 r.cls ++ zeros 2 ++
    le 8 r.slba ++ padTo 16 r.key ++ le 8 r.arrival ++ le 8 r.nlb ++ le 8 r.append ++ zeros 36
  h ++ le 4 (crc32c (h ++ padMul 4096 r.data)).toNat

/-- The bytes of a record: header and data blocks. -/
def JRec.bytes (r : JRec) : Bytes := r.header ++ padMul 4096 r.data

end Sys2Proof.Machine
end

