-- ==== Sys2Proof/Machine/Frames.lean ====
section
/-! DEFINITION. The frames of the Chamois link bit by bit (R117 to R120), and the codes of its messages. -/

namespace Sys2Proof.Machine

open Sys2Proof

/-! ## Messages -/

/-- TYPE (R119). -/
def ChlMsg.code : ChlMsg → Nat
  | .heartbeat _ => 0x10 | .time _ _ _ => 0x11 | .notice _ => 0x12 | .handover _ _ => 0x13 | .shardset _ _ => 0x14
  | .capsule _ => 0x20 | .ledger _ => 0x21 | .jwrite _ _ _ => 0x22 | .release _ _ => 0x23
  | .lock _ => 0x30 | .mapupd _ _ => 0x31 | .sync _ => 0x40 | .shadowqp _ _ _ _ => 0x41

/-- TYPE of the control frames (R119). -/
def chlIdleType : Nat := 0
def chlNakType : Nat := 1
def chlTrainType : Nat := 2

/-- Virtual lanes that R119 permits a TYPE; none of a TYPE that is not in its table. -/
def vlsOf (ty : Nat) : List Nat :=
  if 0x10 ≤ ty ∧ ty ≤ 0x14 then [0]
  else if 0x20 ≤ ty ∧ ty ≤ 0x22 then [1, 2]
  else if ty = 0x23 then [2]
  else if ty = 0x30 ∨ ty = 0x31 then [1, 3]
  else if ty = 0x40 ∨ ty = 0x41 then [4]
  else []

/-- Bytes of a journal record: its header, its data in whole blocks of 4 KiB, padded to 128 bytes (R143). -/
def JRec.size (r : JRec) : Nat := 128 + roundUp r.data.length 4096

/-- Bytes of a message without its header, where its content fixes them: a capsule's entry, its other fields and its data; a record's place
and its bytes. Any other message fits one frame (log entry 13). -/
def ChlMsg.fixedLen : ChlMsg → Option Nat
  | .capsule c => some (96 + c.data.length)
  | .jwrite _ r _ | .sync (.journal _ r) => some (8 + r.size)
  | _ => none

/-- Frames a message takes: 240 payload bytes each, 16 of them the message header (R117, R120). -/
def ChlMsg.frames (m : ChlMsg) : Nat := match m.fixedLen with
  | some n => (16 + n + 239) / 240
  | none => 1

/-- MLEN (R120). -/
def ChlMsg.len (m : ChlMsg) : Nat := m.fixedLen.getD (Config.chlLen m.code % 225)

/-- Payload of a message after its header: a record's place and bytes, else bytes that the manual does not lay out. -/
def TxMsg.body (t : TxMsg) : Bytes :=
  match t.msg with
  | .jwrite off r _ | .sync (.journal off r) => padTo t.msg.len (le 8 off ++ r.bytes)
  | m => (List.range m.len).map fun i => Config.chlByte t.seq t.sentAt i

/-- Message header (R120). -/
def TxMsg.header (t : TxMsg) : Bytes := le 4 t.epoch ++ le 8 t.tag ++ le 4 t.msg.len

/-! ## Frames -/

/-- Header of a frame (R118). -/
def frameHead (ty vl cls : Nat) (som eom : Bool) (seq ack : Nat) (credit : Option (Nat × Nat)) (len : Nat) : Bytes :=
  let bit := fun (b : Bool) (n : Nat) => if b then 2 ^ n else 0
  let cr := match credit with
    | some (l, n) => 2 ^ 48 + l % 8 * 2 ^ 49 + n % 256 * 2 ^ 52
    | none => 0
  le 12 (ty % 256 + vl % 8 * 2 ^ 8 + cls % 8 * 2 ^ 11 + bit som 14 + bit eom 15 + seq % 65536 * 2 ^ 16 + ack % 65536 * 2 ^ 32 + cr +
    len % 256 * 2 ^ 64)

/-- A frame: header, payload, and the CRC32C over both (R117). -/
def frameOf (head payload : Bytes) : Bytes :=
  let b := head ++ padTo 240 payload
  b ++ le 4 (crc32c b).toNat

/-- A frame has its 256 bytes and passes its CRC. -/
def frameOk (f : Bytes) : Bool := f.length == 256 && ofLe (f.drop 252) == (crc32c (f.take 252)).toNat

/-- A field of a frame's header. -/
def frameBits (f : Bytes) (lo w : Nat) : Nat := ofLe (f.take 12) / 2 ^ lo % 2 ^ w

def frameType (f : Bytes) : Nat := frameBits f 0 8
def frameVl (f : Bytes) : Nat := frameBits f 8 3
def frameSom (f : Bytes) : Bool := frameBits f 14 1 == 1
def frameEom (f : Bytes) : Bool := frameBits f 15 1 == 1
def frameSeq (f : Bytes) : Nat := frameBits f 16 16
def frameAck (f : Bytes) : Nat := frameBits f 32 16
def frameLen (f : Bytes) : Nat := frameBits f 64 8
/-- Returned credits: virtual lane and count. -/
def frameCredit (f : Bytes) : Option (Nat × Nat) := if frameBits f 48 1 = 1 then some (frameBits f 49 3, frameBits f 52 8) else none
def framePayload (f : Bytes) : Bytes := (f.drop 12).take 240

/-- EPOCH, TAG and MLEN of the message that begins in a frame. -/
def frameEpoch (f : Bytes) : Nat := ofLe ((framePayload f).take 4)
def frameTag (f : Bytes) : Nat := ofLe (((framePayload f).drop 4).take 8)
def frameMlen (f : Bytes) : Nat := ofLe (((framePayload f).drop 12).take 4)

/-- The lane after one, in rotation over some lanes (R117). -/
def laneAfter (up : List Nat) (last : Nat) : Nat := (up.find? fun l => decide (last < l)).getD (up.headD 0)

/-- The next `n` lanes in rotation. -/
def lanesAfter (up : List Nat) : Nat → Nat → List Nat
  | 0, _ => []
  | n + 1, last => laneAfter up last :: lanesAfter up n (laneAfter up last)

/-- The frames of a message; the first returns credits. -/
def TxMsg.pack (t : TxMsg) (ack : Nat) (credit : Option (Nat × Nat)) : List Bytes :=
  let ps := pieces 240 (t.header ++ t.body)
  (List.range t.frames).map fun i =>
    let p := ps.getD i []
    frameOf (frameHead t.msg.code t.vl t.cls (i == 0) (i + 1 == t.frames) (t.seq + i) ack (if i = 0 then credit else none) p.length) p

/-- The frames of a message are those of R119 and R120 together: one message from its first frame to its last, each LEN within a frame, MLEN
what they hold (R163). -/
def framesWhole (l : List Bytes) : Bool :=
  match l with
  | [] => false
  | f :: rest => frameSom f && !rest.any frameSom && l.all (fun x => decide (frameLen x ≤ 240)) &&
      (l.map frameLen).foldl (· + ·) 0 == 16 + frameMlen f

end Sys2Proof.Machine
end

