-- ==== Sys2Proof/Machine/TimeSrc.lean ====
section
/-! DEFINITION. The sources of the module time base (spec/01): which are available, which one is taken, the leader of a pair, locks,
and steps (R36 to R42, R44). -/

namespace Sys2Proof.Machine

open Sys2Proof

/-- The sources, as TBS_STATUS.SOURCE numbers them. -/
inductive TimeRef | ptp | pps | partner
deriving DecidableEq, Repr

def TimeRef.code : TimeRef → Nat
  | .ptp => 1
  | .pps => 2
  | .partner => 3

def TimeUnit.src (t : TimeUnit) : TimeRef → TimeSrc
  | .ptp => t.ptp
  | .pps => t.pps
  | .partner => t.partner

def TimeUnit.setSrc (t : TimeUnit) (r : TimeRef) (x : TimeSrc) : TimeUnit :=
  match r with
  | .ptp => { t with ptp := x }
  | .pps => { t with pps := x }
  | .partner => { t with partner := x }

/-- The same change of every source. -/
def TimeUnit.mapSrc (t : TimeUnit) (f : TimeSrc → TimeSrc) : TimeUnit :=
  { t with ptp := f t.ptp, pps := f t.pps, partner := f t.partner }

/-- The source is enabled in TBS_CTRL. -/
def State.srcEnabled (s : State) : TimeRef → Bool
  | .ptp => s.flag dieB Reg.TBS_CTRL_PTP_EN
  | .pps => s.flag dieB Reg.TBS_CTRL_PPS_EN
  | .partner => s.flag dieB Reg.TBS_CTRL_PARTNER_EN

/-- The head follows its partner's time: both in TWIN and the partner leads (R40). -/
def State.follower (s : State) : Bool :=
  s.pair.head == .twin && s.pair.partner == some .twin && !s.flag dieB Reg.TBS_STATUS_LEADER

/-- The source is available: enabled, heard, and not shut out for its rejected samples (R37, R45). The manual gives no time after which a
PTP or 1PPS source that falls silent stops being available: in the model it stays available until it is disabled or shut out
(DESIGN CHOICE, log entry 192). -/
def State.available (s : State) (r : TimeRef) : Bool :=
  s.srcEnabled r && (s.time.src r).seen && !(s.time.src r).dead &&
    (match r with
     | .partner => s.follower && !s.time.partnerStale
     | _ => true)

/-- The first available source of R37's order. -/
def State.bestSource (s : State) : Option TimeRef := [.partner, .ptp, .pps].find? s.available

/-- Take the best source: SOURCE, LOCKED and HOLDOVER (R37, R44). At a change of source the correction towards the old one ends. -/
def State.selectSource (s : State) : State :=
  let best := s.bestSource
  let code := (best.map TimeRef.code).getD 0
  let s := if s.fld dieB Reg.TBS_STATUS_SOURCE = code then s else { s with time := { s.time with corr := 0, acc := 0 } }
  let s := s.setFld dieB Reg.TBS_STATUS_SOURCE code
  let s := s.setFlag dieB Reg.TBS_STATUS_LOCKED (best.any fun r => (s.time.src r).locked)
  s.setFlag dieB Reg.TBS_STATUS_HOLDOVER (code == 0 && s.time.everLocked)

/-- A source that is disabled must be heard again before it is available (log entry 192); then the choice of R37 is made anew. -/
def State.refreshSources (s : State) : State :=
  let f := fun (r : TimeRef) (x : TimeSrc) => if s.srcEnabled r then x else { x with seen := false, inBand := none, locked := false }
  ({ s with time := { s.time with ptp := f .ptp s.time.ptp, pps := f .pps s.time.pps, partner := f .partner s.time.partner } } : State).selectSource

/-- This head has a locked PTP or 1PPS source, whether or not it disciplines from it (R40). -/
def State.hasLockedSource (s : State) : Bool := [TimeRef.ptp, .pps].any fun r => s.available r && (s.time.src r).locked

/-- The head that leads in TWIN (R40): the one with a locked source; side 0 when both or neither have one. -/
def State.leads (s : State) : Bool :=
  if s.hasLockedSource == s.time.partnerHasSource then s.side == 0 else s.hasLockedSource

/-- A sample of a source at a moment: its samples have lain within ±100 ns since `inBand`, and the source is locked once that is
10 s (R44). -/
def TimeSrc.judge (x : TimeSrc) (now : Nat) (off : Int) : TimeSrc :=
  if -100 ≤ off ∧ off ≤ 100 then
    let t0 := x.inBand.getD now
    { x with inBand := some t0, locked := decide (10 ^ 10 ≤ now - t0) }
  else { x with inBand := Option.none, locked := false }

/-- A moment as the time base shows it after a step by an offset. -/
def stepped (off : Int) (t : Nat) : Nat := (((t : Int) - off) % (tbMod : Int)).toNat

/-- Step the time base by an offset, in either direction (R38, R39). The moments that later samples are measured from move with it; the
locks start anew. -/
def State.stepTime (s : State) (off : Int) : State :=
  let t := s.time.mapSrc fun x => { x with inBand := none, locked := false }
  { s with ao := { s.ao with tb := stepped off s.ao.tb },
           time := { t with corr := 0, acc := 0, lastSync := t.lastSync.map fun p => (p.1, stepped off p.2),
                            reqSent := t.reqSent.map (stepped off), lastPps := t.lastPps.map (stepped off),
                            lastExch := stepped off t.lastExch } }

/-- The single step to the partner's time (R39), by the offset that the last TIME exchange has measured. -/
def State.alignTime (s : State) : State :=
  let s := s.stepTime (toInt 32 (s.fld dieB Reg.TBS_PARTNER_OFFSET))
  { s with time := { s.time with measured := false, aligned := true } }

end Sys2Proof.Machine
end

