-- ==== Sys2Proof/Machine/Link.lean ====
section
/-! DEFINITION. Sending on the Chamois link (R117 to R126), head states (R112, R113), the faults of R148, resets (R678 to R681)
and the journal dump's beginning (R666 to R670). -/

namespace Sys2Proof.Machine

open Sys2Proof

/-! ## Groups -/

def State.group (s : State) (g : Nat) : Group := s.pair.groups.getD g .reset

def State.setGroup (s : State) (g : Nat) (x : Group) : State :=
  { s with pair := { s.pair with groups := s.pair.groups.putD g x .reset } }

/-- The group is not lost (R125). -/
def State.groupUp (s : State) (g : Nat) : Bool := s.flag (dieF g) Reg.CHL_STATUS_UP

/-- Groups of the head that are up. -/
def State.upGroups (s : State) : List Nat := (List.range s.variant.sides).filter s.groupUp

/-- The owner of a shard by the active table: a side (R138). -/
def State.owner (s : State) (shard : Nat) : Nat := bitsAt (s.tbl (dieF 0) 0x16 0 (shard % 256) 0) 0 1

/-- Owner bits of the whole active table, as SHARDSET carries them (R719). -/
def State.ownerBits (s : State) : BitVec 256 :=
  BitVec.ofNat 256 ((List.range 256).foldl (fun n e => n + s.owner e * 2 ^ e) 0)

/-- The epoch this head sends (R120). -/
def State.epoch (s : State) : Nat := s.fld (dieF 0) Reg.TKO_EPOCH_EPOCH

/-- Distance of SEQ numbers, 16 bits, from one to another. -/
def seqDist (a b : Nat) : Nat := (b % 65536 + 65536 - a % 65536) % 65536

/-- Active lanes of a group (R125). -/
def State.lanesUp (s : State) (g : Nat) : List Nat := (List.range 16).filter fun i => s.fld (dieF g) Reg.CHL_STATUS_LANES_UP / 2 ^ i % 2 == 1

/-- ACK of a group: SEQ of the last message frame received in order and applied (R118, R122): before a map change that waits for its page
(R270), or a removal that waits for confirmations (R198 step 3). -/
def State.ackSeq (s : State) (g : Nat) : Nat :=
  let x := s.group g
  let waits := (s.ftl.todo.filterMap fun c => match c with
    | .upd h seq _ _ => if h = g then some seq else none
    | _ => none) ++ (s.ftl.holds.filter fun h => h.1 == g).map fun h => h.2.1
  let first := waits.foldl (fun a q => if seqDist a q < 32768 then a else q) x.rxSeq
  (first + 65535) % 65536

/-- The credits that a frame returns (R121): of the lowest lane that is owed some, at most what CRCNT holds (log entry 13). -/
def Group.credit (x : Group) : Option (Nat × Nat) := (List.find? (fun v : Nat × Nat => decide (0 < v.2)) x.owed).map fun v => (v.1, min 255 v.2)

/-- They are returned. -/
def Group.credited (x : Group) : Group :=
  match x.credit with
  | some (vl, n) => { x with owed := x.owed.putD vl (x.owed.getD vl 0 - n) 0, rxCredits := x.rxCredits.insert vl (x.rxCredits.getD vl 0 + n) }
  | none => x

/-- Places of the replay store that a virtual lane may use (R124). -/
def placesFor (vl : Nat) : Nat := if vl = 0 then 64 else if vl = 1 then 1024 else 7104

/-- Frames of the replay store held by the lanes that share places with `vl`. -/
def Group.placesUsed (x : Group) (vl : Nat) : Nat :=
  (x.unacked.filter fun t => placesFor t.vl == placesFor vl).foldl (fun n t => n + t.frames) 0

/-- The sender holds a credit for each frame and a place for it (R121, R124). -/
def Group.canSend (x : Group) (t : TxMsg) : Bool :=
  decide (t.frames ≤ x.credits.getD t.vl 0) && decide (x.placesUsed t.vl + t.frames ≤ placesFor t.vl)

/-- The frames of a message go out on the active lanes in rotation, with ACK and credits as they now are (R117, R118). -/
def State.emitMsg (s : State) (g : Nat) (t : TxMsg) : State :=
  let x := s.group g
  let lanes := lanesAfter (s.lanesUp g) t.frames x.txLane
  let fs := lanes.zip (t.pack (s.ackSeq g) x.credit)
  (s.setGroup g { x.credited with txLane := lanes.getLastD x.txLane }).emit (.chl g t.vl t.msg fs)

/-- Send a message for the first time: it takes SEQ numbers, credits and places (R121 to R124). -/
def State.transmit (s : State) (g : Nat) (t : TxMsg) : State :=
  let x := s.group g
  let t := { t with seq := x.txSeq, sentAt := s.ao.tb }
  let x := { x with txSeq := (x.txSeq + t.frames) % 65536, unacked := x.unacked ++ [t],
                    credits := x.credits.insert t.vl (x.credits.getD t.vl 0 - t.frames),
                    ackSince := some (x.ackSince.getD s.ao.tb) }
  (s.setGroup g x).emitMsg g t

/-- A control frame on a lane, with ACK and credits (R119). -/
def State.controlFrame (s : State) (g ty : Nat) (o : Bytes → Out) : State :=
  let x := s.group g
  (s.setGroup g x.credited).emit (o (frameOf (frameHead ty 0 0 false false 0 (s.ackSeq g) x.credit 0) []))

/-- NAK (R123), on the next lane. -/
def State.sendChlNak (s : State) (g : Nat) : State :=
  let x := s.group g
  let lane := laneAfter (s.lanesUp g) x.txLane
  (s.setGroup g { x with txLane := lane }).controlFrame g chlNakType (.chlNak g lane)

/-- Weight of VL2 to VL4 (R121). -/
def State.vlWeight (s : State) (g vl : Nat) : Nat :=
  if vl = 2 then s.fld (dieF g) Reg.CHL_VLWEIGHT_W2
  else if vl = 3 then s.fld (dieF g) Reg.CHL_VLWEIGHT_W3
  else s.fld (dieF g) Reg.CHL_VLWEIGHT_W4

/-- Send the waiting messages that can go: VL0, then VL1, then VL2 to VL4 by their weights, each lane in order. -/
def State.drainGroup (s : State) (g : Nat) : Nat → State
  | 0 => s
  | fuel + 1 =>
    let x := s.group g
    let head := fun vl => x.waiting.find? fun t => t.vl == vl
    let ready := fun vl => match head vl with
      | some t => x.canSend t
      | none => false
    let go := fun (s : State) (vl : Nat) (turn : Nat × Nat) => match head vl with
      | some t =>
        let s := s.setGroup g { x with waiting := x.waiting.erase t, turn := turn }
        (s.transmit g t).drainGroup g fuel
      | none => s
    if !s.groupUp g then s
    else if ready 0 then go s 0 x.turn
    else if ready 1 then go s 1 x.turn
    else match wrrNext 3 (fun i => s.vlWeight g (i + 2)) (fun i => ready (i + 2)) x.turn with
      | some (i, turn) => go s (i + 2) turn
      | none => s

/-- Hand a message to a group: sent at once if nothing of its lane waits and it can go, else it waits (R124). -/
def State.sendOn (s : State) (g vl cls tag : Nat) (m : ChlMsg) : State :=
  let t : TxMsg := { seq := 0, frames := m.frames, vl := vl, cls := cls, epoch := s.epoch, tag := tag, msg := m, sentAt := 0 }
  let x := s.group g
  let s := s.setGroup g { x with waiting := x.waiting ++ [t] }
  s.drainGroup g (x.waiting.length + 1)

/-- The up group with the fewest frames to be acknowledged: traffic spreads over the groups (R126). -/
def State.pickGroup (s : State) : Option Nat :=
  s.upGroups.foldl (fun best g => match best with
    | none => some g
    | some b => if (s.group g).placesUsed 2 + (s.group g).placesUsed 1 < (s.group b).placesUsed 2 + (s.group b).placesUsed 1
        then some g else some b) none

/-- Send a message to the partner; nothing is sent while the whole link is lost (R713). -/
def State.send (s : State) (vl cls tag : Nat) (m : ChlMsg) : State :=
  match s.pickGroup with
  | some g => s.sendOn g vl cls tag m
  | none => s

/-- Virtual lane of a capsule, ledger or journal write of a class (R119, R121). -/
def vlData (cls : Nat) : Nat := if cls = 0 then 1 else 2

/-- Virtual lane of a lock or map update of a class. -/
def vlLock (cls : Nat) : Nat := if cls = 0 then 1 else 3

/-- New work is mirrored to the partner: in TWIN, and while a joiner synchronises from step 3 on (R140, R159). -/
def State.mirroring (s : State) : Bool :=
  s.pair.head == .twin || ((s.pair.head == .solo || (s.pair.head == .fawn && s.pair.recovered)) && decide (3 ≤ s.pair.rejoin) && decide (s.pair.rejoin < 100))

/-! ## Front ports -/

/-- Registers of front port FPn: its F-die and the offset of its local port. -/
def portDie (p : Nat) : Nat := dieF (p / 4)
def portOff (p : Nat) : Nat := p % 4 * 0x1000

/-- Front ports of the head. -/
def State.fps (s : State) : List Nat := List.range (4 * s.variant.sides)

/-- Valid entries of the MAC address tables (R418), those held for takeover or the head's own: port, kind, address. -/
def State.addrEntries (s : State) (adopted : Bool) : List (Nat × Nat × BitVec 128) :=
  (List.range s.variant.sides).flatMap fun f => (List.range 64).filterMap fun e =>
    if s.tblFlag (dieF f) 0 e 2 Reg.MAC_ADDR_CTL_VALID && s.tblFlag (dieF f) 0 e 2 Reg.MAC_ADDR_CTL_ADOPTED == adopted then
      some (f * 4 + s.tblFld (dieF f) 0 e 2 Reg.MAC_ADDR_CTL_PORT, s.tblFld (dieF f) 0 e 2 Reg.MAC_ADDR_CTL_KIND,
        BitVec.ofNat 128 ((s.tbl (dieF f) 0x10 0 e 0).toNat + (s.tbl (dieF f) 0x10 0 e 1).toNat * 2 ^ 64))
    else none

/-- Addresses of this head's own twin ports (R159 step 6). -/
def State.ownAddrs (s : State) : List (Nat × Nat × BitVec 128) := s.addrEntries false

/-- Addresses of the partner's twin ports: those that the address tables hold for takeover (R418), and those that a serving partner has
sent (R159 step 6). -/
def State.partnerAddrs (s : State) : List (Nat × Nat × BitVec 128) := (s.addrEntries true ++ s.pair.addrs).eraseDups

/-- Enabled front ports with link: HEALTH (R127). -/
def State.health (s : State) : Nat :=
  (s.fps.filter fun p => s.flag (portDie p) (Reg.MAC_CFG_EN.plus (portOff p)) &&
    s.flag (portDie p) (Reg.MAC_STATUS_LINK.plus (portOff p))).length

/-- The head may transmit data and completions on its front ports: it serves, holds the lease and has raised no fault
(R130, R149, R456). -/
def State.mayTransmit (s : State) : Bool :=
  (s.pair.head == .twin || s.pair.head == .solo) && s.flag (dieF 0) Reg.TKO_STATE_LEASE && s.pair.faulted.isNone &&
    s.ao.dump.isNone

/-! ## Head states -/

/-- Begin to be in a state: the status bits and marks that go with it. The first entry to TWIN or SOLO since the reset ends
stepping (R36); in SOLO the lease is held throughout (R130), the head accepts writes of the shard table (R139, R165), leads its time and disciplines from its own sources (R42). A head
that enters FAWN without a time source records an event (R38). -/
def State.enter (s : State) (h : HeadState) : State :=
  let s := { s with pair := { s.pair with head := h } }
  match h with
  | .fawn =>
    let s := ({ s with pair := { s.pair with fawnAt := s.ao.tb } } : State).selectSource
    if s.fld dieB Reg.TBS_STATUS_SOURCE = 0 then s.event dieB 0x08 0 noInst else s
  | .twin | .solo =>
    let s := if s.time.entered then s else
      { s with time := { s.time.mapSrc fun x => { x with sampled := false, within := false, rejects := 0 } with entered := true } }
    let s := (s.setFlag dieB Reg.TBS_STATUS_LEADER (h == .solo || s.leads)).selectSource
    let s := { s with pair := { s.pair with leaseAt := s.ao.tb } }
    let s := if h = .solo then s.setFlag (dieF 0) Reg.TKO_STATE_SHARD_MASTER true else s
    s.setFlag (dieF 0) Reg.TKO_STATE_LEASE true
  | _ =>
    let s := (s.setFlag (dieF 0) Reg.TKO_STATE_LEASE false).setFlag (dieF 0) Reg.TKO_STATE_SHARD_MASTER false
    -- a head that has left the pair takes no part in a claim any more (R113)
    let s := { s with pair := { s.pair with claim := none, silence := none, deferTill := none } }
    (s.setFlag dieB Reg.TBS_STATUS_LEADER false).selectSource

/-! ## Resets -/

/-- Registers of the AO domain: PWR and TBS (R678). -/
def aoReg (die blk : Nat) : Bool := die == 0 && (blk == 0x05 || blk == 0x08)

/-- What a reset leaves of a die's sensors: the readings, without their history (R657). -/
def DieTemp.afterReset (d : DieTemp) : DieTemp := { d with fallback := false, apart := 0, hist := [], hot := 0, fast := 0, hotAt := .none }

/-- What a head reset leaves of the time base's discipline: the count goes on (R43), everything counted since the last reset
starts again (R36, R45). -/
def TimeUnit.afterReset (t : TimeUnit) : TimeUnit :=
  let again := fun (x : TimeSrc) => { x with sampled := false, within := false, rejects := 0, dead := false }
  { TimeUnit.reset with ptp := again t.ptp, pps := again t.pps, lastSync := t.lastSync, reqSent := t.reqSent, meanDelay := t.meanDelay,
                        gm := t.gm, lastPps := t.lastPps, corr := t.corr, acc := t.acc, everLocked := t.everLocked, ticks := t.ticks,
                        synced := t.synced }

/-- What no reset domain covers, carried over a reset: OTP and what the carriers hold (R678). -/
def State.keepMedia (s t : State) : State :=
  { t with arr := s.arr, nand := s.nand, otp := s.otp }

/-- The recorder's append point: the slot after the highest that is not empty (R652). -/
def State.scanEvents (s : State) : State :=
  let n := (s.nor.events.keys.map (· + 1)).foldl max 0
  (s.setFld dieB Reg.EVR_STATUS_NEXT n).setFlag dieB Reg.EVR_STATUS_FULL (decide (evSlots ≤ n))

/-- A head reset (R678, R679, R681): B and every die domain take their reset contents, memory reads 0, the links retrain
(R167), and the head is in BOOT (R113). The always-on island, OTP, NOR and what the carriers hold keep theirs. -/
def State.headReset (s : State) (cause : Nat) : State :=
  let t : State :=
    { State.reset with
      variant := s.variant, side := s.side, pins := s.pins, nor := s.nor, ao := { s.ao with dump := none },
      time := s.time.afterReset, thm := { Thm.reset with dies := s.thm.dies.mapV fun _ d => d.afterReset },
      regs := s.regs.keep fun k _ => aoReg (k / 2 ^ 32) (k / 2 ^ 24 % 256),
      keys := { Keys.reset with ctxBase := s.free },
      free := s.free + 1, out := s.out, pending := s.pending }
  let t := s.keepMedia t
  let t := t.setFld dieB Reg.PWR_STATUS_LAST_CAUSE cause
  let t := t.setFlag dieB Reg.PWR_STATUS_WARNED false
  let t := (t.setFlag dieB Reg.TBS_STATUS_LEADER false).selectSource
  -- JTAG_EN clears only at a power-on reset of the B-die (R625, R628)
  let t := t.setFlag dieB Reg.BOOT_CTRL_JTAG_EN (s.flag dieB Reg.BOOT_CTRL_JTAG_EN && decide (cause ≠ 1) && decide (cause ≠ 2))
  (t.setFld (dieF 0) Reg.TKO_STATE_SIDE s.side).scanEvents

/-- Tables of a die, both copies, at their reset contents, with what is held or copied of them (R27). The reset of either F-die resets
PGT table 0 with its GEN (R492). -/
def State.resetTables (s : State) (die : Nat) : State :=
  let isF : Bool := die == dieF 0 || die == dieF 1
  let other := fun (k : Nat) => k / 4 / 2 ^ 16 / 2 / 256 != die && !(isF && k / 4 / 2 ^ 16 / 2 % 256 == 0x17)
  let s := if isF then s.setReg (dieF 0) 0x17 0xFF00 (resetWord s.variant 0x17 0xFF00) else s
  { s with active := s.active.keep fun k _ => other k, shadow := s.shadow.keep fun k _ => other k,
           copying := s.copying.keep fun k _ => k / 256 != die && !(isF && k % 256 == 0x17),
           heldWrites := s.heldWrites.filter fun kv => other kv.1 }

/-- The key stores of a die are emptied and its context keys drawn anew (R247, R548, R550). -/
def State.dropKeys (s : State) (die : Nat) : State :=
  let k := s.keys
  { s with free := s.free + 1,
           keys := { k with dge := k.dge.keep (fun i _ => i / 4 != die), slots := k.slots.keep (fun i _ => i / 16 != die),
                            kcu := k.kcu.keep (fun i _ => i / 4 != die), gcm := k.gcm.keep (fun i _ => i / 256 + 16 != die),
                            ctx := k.ctx.insert die s.free } }

def State.withThm (s : State) (t : Thm) : State := { s with thm := t }

/-- Reset of the B domain alone: BOOT, ROLE, EVR, THM, MPX and DGE of the B-die (R678, R657, R628). -/
def State.resetB (s : State) : State :=
  let jtag := s.flag dieB Reg.BOOT_CTRL_JTAG_EN
  let s := s.resetRegs 0 fun blk _ => aoReg 0 blk
  let s := (s.dropKeys 0).withThm { Thm.reset with dies := s.thm.dies.mapV fun _ d => d.afterReset }
  (({ s with boot := .reset } : State).setFlag dieB Reg.BOOT_CTRL_JTAG_EN jtag).scanEvents

/-! ## The journal dump (R666 to R673) -/

/-- Every channel of MID 4 to 14 of every tile is frozen; no record is written (R567, R670). -/
def State.freezeHead (s : State) : State :=
  let tiles := List.range s.variant.tiles
  let s := tiles.foldl (fun s tl =>
    let s := (List.range 3).foldl (fun s i => s.setFld (dieC tl) (Reg.FRZ_F_FROZEN.plus (8 * (i + 1)))
      (if i = 2 then 2 ^ 48 - 1 else 2 ^ 64 - 1)) s
    (s.setFlag (dieC tl) Reg.FRZ_STATUS_ANY true).setFlag (dieC tl) Reg.FRZ_STATUS_HEAD true) s
  { s with hrd := { s.hrd with frz := tiles.foldl (fun m tl => ((List.range 11).flatMap fun i => (List.range 16).map fun c =>
      chanKey tl (i + 4) c).foldl (fun m k => m.insert k { m.getD k Frz.none with frozen := true }) m) s.hrd.frz } }

/-- Enter the power-down hold: only the AO and boot islands stay powered, and the head is in OFF (R673, R674). -/
def State.powerHold (s : State) : State :=
  let s := s.setFlag dieB Reg.PWR_STATUS_PWR_GOOD false
  let s := { s with ao := { s.ao with hold := true, dump := none } }
  s.enter .off

/-- Begin a dump: admission and append stop, every master is frozen, front ports stop, and the media sequencer discards what waits
(R670). -/
def State.beginDump (s : State) (warm : Bool) (after : AfterDump) : State :=
  let s := { s with ao := { s.ao with dumps := s.ao.dumps + 1,
                                      dump := some { warm := warm, tw := s.ao.tb, after := after, heldReset := none } },
                    med := { s.med with queue := [] } }
  s.freezeHead

/-! ## Faults (R148, R149, R720) -/

/-- Record the cause of the last takeover, handover or fencing, and whether this head survived it (R165). -/
def State.setLast (s : State) (cause : Nat) (won : Bool) : State :=
  (s.setFld (dieF 0) Reg.TKO_LAST_CAUSE cause).setFlag (dieF 0) Reg.TKO_LAST_WON won

/-- The head raises a fault: it stops its front ports, freezes its masters (R567) and sends NOTICE on every group, and takes
no part in a claim (R149). -/
def State.yield (s : State) (cause : Nat) : State :=
  let s := s.setLast cause false
  let s := { s with pair := { s.pair with faulted := some cause, claim := none, deferTill := none, silence := none } }
  let s := s.freezeHead
  s.upGroups.foldl (fun s g => s.sendOn g 0 0 0 (.notice cause)) s

/-- The state that R148 gives a head for causes 0x02, 0x03 and 0x04: FENCED, in SOLO after a dump with WARM = 1 (R679). -/
def State.fenceForFault (s : State) (cause : Nat) : State :=
  if s.pair.head = .solo then (s.yield cause).beginDump true .fence
  else (s.yield cause).enter .fenced

/-- A fault of R148 with cause 0x02 or 0x04 arises on this head (R148, R149, R720). `blk` names the block that records the
event. -/
def State.raiseFault (s : State) (cause die blk : Nat) : State :=
  match s.pair.head with
  | .boot | .fawn => (s.event die blk 0 noInst).headReset 9
  | .twin | .solo => s.fenceForFault cause
  | .fenced | .thermalHold => s.event die blk 0 noInst
  | .off => s

/-- A request to reset the head (R679, R682): in TWIN the fault of cause 0x01 first; in SOLO a warm dump first; during a dump
it waits. -/
def State.requestReset (s : State) (cause : Nat) : State :=
  match s.ao.dump with
  | some d => { s with ao := { s.ao with dump := some { d with heldReset := some cause } } }
  | none => match s.pair.head with
    | .twin => (s.yield 0x01).headReset cause
    | .solo => s.beginDump true (.reset cause)
    | .off => s
    | _ => s.headReset cause

/-- A power-fail warning begins (R666, R669). -/
def State.powerWarn (s : State) : State :=
  if s.flag dieB Reg.PWR_STATUS_WARNED || s.ao.hold || s.ao.dump.isSome then s
  else
    let s := s.setFlag dieB Reg.PWR_STATUS_WARNED true
    match s.pair.head with
    | .twin => (s.yield 0x01).beginDump false .hold
    | .solo => s.beginDump false .hold
    | .off => s
    | _ => s.powerHold

end Sys2Proof.Machine
end

