-- ==== Sys2Proof/Machine/Csa.lean ====
section
/-! DEFINITION. The content search arrays of the S-dies (spec/11): partitions, matching, the operations of R506. -/

namespace Sys2Proof.Machine

open Sys2Proof

def Csa.none : Csa := { ents := [], ring := [], spread := [], slots := [], kept := [] }

def State.csaOf (s : State) (d : Nat) : Csa := s.csa.getD d .none

def State.setCsa (s : State) (d : Nat) (c : Csa) : State := { s with csa := s.csa.putD d c .none }

def State.csaFlag (s : State) (d : Nat) (f : Fld) : Bool := s.flag (dieS d) f

def State.csaCount (s : State) (d i n : Nat) : State := s.addFld (dieS d) (Reg.CSA_CNT_COUNT.plus (8 * i)) n

/-! ## Partitions (R495, R496, R498, R499) -/

/-- A partition entry (R498). -/
structure CsaPart where
  purpose : Nat
  width : Nat
  first : Nat
  banks : Nat
  hole : Nat
  shift : Nat
deriving DecidableEq, Repr

/-- The partition that a word of table 0 describes; none where it acts as VALID = 0 (R498, R499, R525). -/
def csaPart (w : Word) : Option CsaPart :=
  let f := fun (f : Fld) => bitsAt w f.lo f.w
  let p := f Reg.CSA_PART_DATA_PURPOSE
  let wd := if f Reg.CSA_PART_DATA_WIDTH = 3 then 1 else f Reg.CSA_PART_DATA_WIDTH
  let b := f Reg.CSA_PART_DATA_BANKS
  if f Reg.CSA_PART_DATA_VALID = 0 ∨ p = 3 ∨ b = 0 then none
  else some { purpose := p, width := wd, first := f Reg.CSA_PART_DATA_FIRST_BANK, banks := b,
              hole := max 2 (min 6 (f Reg.CSA_PART_DATA_HOLE_LOG2)), shift := max 1 (f Reg.CSA_PART_DATA_SHIFT_MAX) }

/-- The run of banks and the width are permitted (R498, R499). -/
def CsaPart.ok (p : CsaPart) : Bool :=
  decide (p.first + p.banks ≤ 64) && (p.purpose != 0 || p.width == 1) && (p.purpose != 1 || p.width == 2)

def CsaPart.overlaps (p q : CsaPart) : Bool := decide (p.first < q.first + q.banks) && decide (q.first < p.first + p.banks)

/-- Word of table 0 of an S-die, entry `i`, in the active copy. -/
def State.csaWord (s : State) (d i : Nat) : Word := s.tbl (dieS d) 0x40 0 i 0

/-- A valid partition (R498), with the HOLE_LOG2 and SHIFT_MAX in force (R500). -/
def State.csaPart (s : State) (d i : Nat) : Option CsaPart :=
  ((Machine.csaPart (s.csaWord d i)).filter CsaPart.ok).map fun p => match (s.csaOf d).kept.find? i with
    | some k => { p with hole := k.1, shift := k.2 }
    | .none => p

/-- Entries per bank (R495). -/
def CsaPart.perBank (p : CsaPart) : Nat := if p.width = 0 then 32768 else if p.width = 1 then 16384 else 8192

def CsaPart.bits (p : CsaPart) : Nat := if p.width = 0 then 80 else if p.width = 1 then 160 else 320

def CsaPart.positions (p : CsaPart) : Nat := p.banks * p.perBank

/-- Address of a position, and position of an address (R496). -/
def CsaPart.addr (p : CsaPart) (pos : Nat) : Nat := (p.first + pos / p.perBank) * 32768 + pos % p.perBank
def CsaPart.pos (p : CsaPart) (a : Nat) : Nat := (a / 32768 - p.first) * p.perBank + a % 32768

def CsaPart.holds (p : CsaPart) (a : Nat) : Bool :=
  decide (p.first ≤ a / 32768) && decide (a / 32768 < p.first + p.banks) && decide (a % 32768 < p.perBank)

/-- The valid entries of a partition, in ascending address. -/
def State.csaEnts (s : State) (d : Nat) (p : CsaPart) : SMap CsaEnt := (s.csaOf d).ents.keep fun a _ => p.holds a

/-- CSA_PSTAT of a partition (R518, R525). -/
def State.csaFull (s : State) (d : Nat) (p : CsaPart) : Bool :=
  p.purpose == 1 && decide (p.positions * (2 ^ p.hole - 1) < (s.csaEnts d p).length * 2 ^ p.hole)

def State.csaStat (s : State) (d i : Nat) : Nat :=
  match s.csaPart d i with
  | .none => 0
  | some p =>
    (s.csaEnts d p).length + (if (s.csaOf d).spread.contains i then 2 ^ 22 else 0) + (if s.csaFull d p then 2 ^ 23 else 0) +
      (s.csaOf d).ring.getD i 0 * 2 ^ 32

/-- Powered banks (R502). -/
def State.csaPower (s : State) (d : Nat) : Nat :=
  if !s.csaFlag d Reg.CSA_CTRL_EN then 0
  else if !s.csaFlag d Reg.CSA_CTRL_PD_UNUSED then 2 ^ 64 - 1
  else
    let ps := (List.range 16).filterMap (s.csaPart d)
    (List.range 64).foldl (fun n b => if ps.any fun p => decide (p.first ≤ b) && decide (b < p.first + p.banks) then n + 2 ^ b else n) 0

/-! ## Commit of a plan (R498, R500, R502, R522) -/

/-- Permitted entries of a plan that overlap the banks of another (R498). -/
def badParts (new : Nat → Word) : List Nat :=
  (List.range 16).filter fun i => ((csaPart (new i)).filter CsaPart.ok).any fun p =>
    (List.range 16).any fun j => j != i && ((csaPart (new j)).filter CsaPart.ok).any p.overlaps

/-- Give overlapping entries their old copy, until none is left that changed (R522). -/
def settleParts (old : Nat → Word) : Nat → (Nat → Word) → List Nat → List Nat
  | 0, _, rev => rev
  | n + 1, new, rev =>
    let cur := fun i => if rev.contains i then old i else new i
    match (badParts cur).filter fun i => !rev.contains i with
    | [] => rev
    | l => settleParts old n new (rev ++ l)

/-- What a commit of a plan does beside making it active: an entry that is not permitted is invalid, one that overlaps keeps its old copy
(R498, R522); a partition whose shape changes is cleared, one whose HOLE_LOG2 or SHIFT_MAX alone changes keeps the old ones until its
next respread (R500). -/
def State.csaCommit (s before : State) (d : Nat) : State :=
  let rev := settleParts (before.csaWord d) 16 (s.csaWord d) []
  let s := rev.foldl (fun s i => s.setActive (tblKey (dieS d) 0x40 0 i 0) (before.csaWord d i)) s
  let barred := (List.range 16).any fun i => (Machine.csaPart (s.csaWord d i)).any fun p => !p.ok
  let s := if rev.isEmpty && !barred then s else s.setFlag (dieS d) Reg.CSA_STATUS_PART_ERR true
  let shape := fun (p : Option CsaPart) => p.map fun p => (p.purpose, p.width, p.first, p.banks)
  let changed := (List.range 16).filter fun i => shape (before.csaPart d i) != shape (s.csaPart d i)
  let parts := changed.flatMap fun i => (before.csaPart d i).toList ++ (s.csaPart d i).toList
  let inBanks := fun (a : Nat) => parts.any fun p => decide (p.first ≤ a / 32768) && decide (a / 32768 < p.first + p.banks)
  let c := s.csaOf d
  let kept := ((List.range 16).filter fun i => !changed.contains i).filterMap fun i => (before.csaPart d i).map fun p => (i, p.hole, p.shift)
  s.setCsa d { c with ents := c.ents.keep (fun a _ => !inBanks a), slots := c.slots.keep (fun a _ => !inBanks a),
                      ring := c.ring.keep (fun i _ => !changed.contains i), spread := c.spread.filter (fun i => !changed.contains i),
                      kept := kept }

/-! ## Matching (R503 to R505) -/

/-- K under SM matches an entry (R503). -/
def CsaEnt.hits (e : CsaEnt) (k sm : Nat) : Bool := ((k ^^^ e.val) &&& e.mask) &&& sm == 0

/-- The matching entry of the highest rank, at the lowest address (R504). -/
def bestHit (l : SMap CsaEnt) : Option (Nat × CsaEnt) :=
  l.foldl (fun b ae => match b with
    | some x => if x.2.rank < ae.2.rank then some ae else b
    | .none => some ae) .none

/-- Bits [319:173] (R505). -/
def ordKey (v : Nat) : Nat := v / 2 ^ 173 % 2 ^ 147

/-- The valid entry at the highest address whose ordered part is not above that of the search value (R505). -/
def floorHit (l : SMap CsaEnt) (k : Nat) : Option (Nat × CsaEnt) := (l.filter fun ae => decide (ordKey ae.2.val ≤ ordKey k)).getLast?

/-- The entry that an operation reads out has an error (R497): a corrected one is counted, and an uncorrectable one invalidates the
entry. `ecc` lists addresses with an error, and whether it is corrected. -/
def State.csaEcc (s : State) (d : Nat) (ecc : List (Nat × Bool)) (a : Nat) : State :=
  if !(s.csaOf d).ents.has a then s
  else match ecc.lookup a with
    | some true => s.csaCount d 6 1
    | some false => (s.setCsa d { s.csaOf d with ents := (s.csaOf d).ents.erase a }).csaCount d 7 1
    | .none => s

/-- Run a search, and run it again while the entry it reads out has an uncorrectable error (R497). -/
def State.csaTry (s : State) (d : Nat) (ecc : List (Nat × Bool)) (find : State → State × Option (Nat × CsaEnt)) :
    Nat → State × Option (Nat × CsaEnt)
  | 0 => find s
  | n + 1 => match find s with
    | (t, .none) => (t, .none)
    | (t, some ae) => if ecc.lookup ae.1 = some false then (s.csaEcc d ecc ae.1).csaTry d ecc find n else (t.csaEcc d ecc ae.1, some ae)

/-! ## Operations on the filter (R508, R509) -/

/-- INSERT_RING (R508): the address written. -/
def State.csaInsertRing (s : State) (d i : Nat) (p : CsaPart) (k : Nat) : State × Nat :=
  let c := s.csaOf d
  let ents := c.ents.keep fun a e => !(p.holds a && e.val == k)
  let pos := c.ring.getD i 0 % p.positions
  let a := p.addr pos
  let e : CsaEnt := { val := k, mask := 2 ^ p.bits - 1, rank := 0, assoc := 0 }
  ((s.setCsa d { c with ents := ents.insert a e, ring := c.ring.putD i ((pos + 1) % p.positions) 0 }).csaCount d 2 1, a)

/-- DELETE_MATCH (R506). -/
def State.csaDeleteMatch (s : State) (d : Nat) (p : CsaPart) (k : Nat) : State :=
  let c := s.csaOf d
  s.setCsa d { c with ents := c.ents.keep fun a e => !(p.holds a && e.val == k && e.mask == 2 ^ p.bits - 1) }

/-- INVALIDATE_MASKED (R506). -/
def State.csaInvalidateMasked (s : State) (d : Nat) (p : CsaPart) (k sm : Nat) : State :=
  let c := s.csaOf d
  s.setCsa d { c with ents := c.ents.keep fun a e => !(p.holds a && e.hits k sm) }

/-- A SEARCH of a partition, counted. -/
def State.csaFind (s : State) (d : Nat) (p : CsaPart) (k sm : Nat) : State × Option (Nat × CsaEnt) :=
  let r := bestHit ((s.csaEnts d p).filter fun ae => ae.2.hits k sm)
  let s := s.csaCount d 0 1
  (if r.isSome then s.csaCount d 1 1 else s, r)

def State.csaFloor (s : State) (d : Nat) (p : CsaPart) (k : Nat) : State × Option (Nat × CsaEnt) :=
  let r := floorHit (s.csaEnts d p) k
  let s := s.csaCount d 0 1
  (if r.isSome then s.csaCount d 1 1 else s, r)

/-! ## The ordered index (R512 to R518) -/

/-- Move entries one position: the run from `lo` to `hi` upward or downward (R515 step 4, R516). -/
def moveRun (p : CsaPart) (up : Bool) (lo n : Nat) (l : SMap CsaEnt) : SMap CsaEnt :=
  let idx := if up then (List.range n).reverse else List.range n
  idx.foldl (fun l i =>
    let from_ := p.addr (lo + i)
    let to_ := if up then p.addr (lo + i + 1) else p.addr (lo + i - 1)
    match l.find? from_ with
    | some e => (l.insert to_ e).erase from_
    | .none => l) l

/-- ORD_INSERT (R515, R517, R518): the error code, 0 when the entry stands. -/
def State.csaOrdInsert (s : State) (d i : Nat) (p : CsaPart) (e : CsaEnt) : State × Nat :=
  let c := s.csaOf d
  let ents := s.csaEnts d p
  if c.spread.contains i then (s, 4)
  else if s.csaFull d p then (s, 6)
  else
    let put := fun (s : State) (m : SMap CsaEnt) (pos : Nat) => (s.setCsa d { c with ents := m.insert (p.addr pos) e }).csaCount d 2 1
    match List.find? (fun x => ordKey x.2.val == ordKey e.val) ents with
    | some x => (put s c.ents (p.pos x.1), 0)
    | .none =>
      let f := (floorHit ents e.val).map fun x => p.pos x.1
      let next := match f with
        | some f => f + 1
        | .none => 0
      let free := fun pos => !c.ents.has (p.addr pos)
      if next < p.positions ∧ free next then (put s c.ents next, 0)
      else
        let up := (List.range (p.shift + 1)).find? fun k => decide (0 < k) && decide (next + k < p.positions) && free (next + k)
        let down := match f with
          | some f => (List.range (p.shift + 1)).find? fun k => decide (0 < k) && decide (k ≤ f) && free (f - k)
          | .none => .none
        match up, down with
        | .none, .none =>
          ((s.setCsa d { c with spread := c.spread ++ [i], kept := c.kept.erase i }).csaCount d 4 1, 5)
        | some u, dn =>
          match dn.filter (· < u) with
          | some k => (put (s.csaCount d 3 k) (moveRun p false (next - k) k c.ents) (next - 1), 0)
          | .none => (put (s.csaCount d 3 u) (moveRun p true next u c.ents) next, 0)
        | .none, some k => (put (s.csaCount d 3 k) (moveRun p false (next - k) k c.ents) (next - 1), 0)

/-- ORD_DELETE (R506). -/
def State.csaOrdDelete (s : State) (d : Nat) (p : CsaPart) (k : Nat) : State :=
  let c := s.csaOf d
  s.setCsa d { c with ents := c.ents.keep fun a e => !(p.holds a && ordKey e.val == ordKey k) }

/-- The end of a respread: entry i of N stands at position ⌊i × P / N⌋ (R517). -/
def State.csaRespread (s : State) (d i : Nat) (p : CsaPart) : State :=
  let c := s.csaOf d
  let l := (s.csaEnts d p)
  let n := l.length
  let placed := ((List.range n).zip l).map fun x => (x.1 * p.positions / n, x.2)
  let moves := placed.foldl (fun k x => k + (if x.1 < p.pos x.2.1 then p.pos x.2.1 - x.1 else x.1 - p.pos x.2.1)) 0
  let rest := c.ents.keep fun a _ => !p.holds a
  (s.setCsa d { c with ents := placed.foldl (fun m x => m.insert (p.addr x.1) x.2.2) rest,
                       spread := c.spread.filter (· != i) }).csaCount d 3 moves

/-! ## What the lanes and the map cache ask for (R186, R509, R511, R513) -/

/-- The first partition of a purpose that an S-die has active. -/
def State.csaFor (s : State) (d purpose : Nat) : Option (Nat × CsaPart) :=
  if !s.csaFlag d Reg.CSA_STATUS_READY then .none
  else (List.range 16).findSome? fun i => match s.csaPart d i with
    | some p => if p.purpose = purpose then some (i, p) else .none
    | .none => .none

/-- S-dies of the variant. -/
def State.csaDies (s : State) : List Nat := List.range s.variant.sides

/-- S-die of a filter entry (R509). -/
def State.filterDie (s : State) (k : Nat) : Nat := match s.variant with
  | .v4a => 0
  | .v8a => if k / 2 ^ 147 % 2 = 0 then 0 else 1

/-- S-die of a namespace's ordered entries (R513). -/
def State.ordDie (s : State) (nsid : Nat) : Nat := match s.variant with
  | .v4a => 0
  | .v8a => (nsid - 1) % 2

/-- Removal of a domain from every FILTER partition (R511). -/
def State.filterDropDomain (s : State) (domain : Nat) : State :=
  let sm := (2 ^ 12 - 1) * 2 ^ 148
  s.csaDies.foldl (fun s d => (List.range 16).foldl (fun s i => match s.csaPart d i with
    | some p => if p.purpose = 0 then s.csaInvalidateMasked d p (domain * 2 ^ 148) sm else s
    | .none => s) s) s

/-- A key in an ordered entry: zero-padded to 16 bytes, byte 0 highest (R512). -/
def ordKeyBits (k : Key) : Nat := ofBe (padTo 16 k)

/-- The entry of a leaf with its bounds (R512). -/
def ordEntry (nsid : Nat) (low : Key) (high : Option Key) (leaf : Nat) : CsaEnt :=
  let hi := match high with
    | some k => ordKeyBits k * 2 ^ 45 + k.length * 2 ^ 40
    | .none => 2 ^ 39
  { val := (nsid - 1) % 2 ^ 14 * 2 ^ 306 + ordKeyBits low * 2 ^ 178 + low.length * 2 ^ 173 + hi, mask := 2 ^ 320 - 1, rank := 0, assoc := leaf }

/-- Insert the entry of a leaf that a walk resolved (R513); a refusal leaves the leaf to the walk. -/
def State.ordEnter (s : State) (nsid : Nat) (low : Key) (high : Option Key) (leaf : Nat) : State :=
  let d := s.ordDie nsid
  match s.csaFor d 1 with
  | some (i, p) => (s.csaOrdInsert d i p (ordEntry nsid low high leaf)).1
  | .none => s

/-- Delete the entry of a leaf (R513). -/
def State.ordDrop (s : State) (nsid leaf : Nat) : State :=
  let d := s.ordDie nsid
  match s.csaFor d 1 with
  | some (_, p) =>
    let c := s.csaOf d
    s.setCsa d { c with ents := c.ents.keep fun a e => !(p.holds a && e.assoc == leaf) }
  | .none => s

/-- The leaf that the ordered index names for a key, where R514 lets it be used. -/
def State.ordLookup (s : State) (nsid : Nat) (k : Key) : State × Option Nat :=
  let d := s.ordDie nsid
  match s.csaFor d 1 with
  | .none => (s, .none)
  | some (_, p) =>
    let key := (nsid - 1) % 2 ^ 14 * 2 ^ 306 + ordKeyBits k * 2 ^ 178 + k.length * 2 ^ 173
    let (s, r) := s.csaFloor d p key
    match r with
    | .none => (s, .none)
    | some (_, e) =>
      let v := e.val
      let below := decide (ordKeyBits k * 32 + k.length < v / 2 ^ 40 % 2 ^ 133)
      if v / 2 ^ 306 = (nsid - 1) % 2 ^ 14 ∧ (v / 2 ^ 39 % 2 = 1 ∨ below) then (s, some e.assoc) else (s, .none)

end Sys2Proof.Machine
end

