-- ==== Sys2Proof/Machine/SfbFrames.lean ====
section
/-! DEFINITION. The frames of the Sundas fabric bit by bit (R320 to R322), and the requests that they carry. -/

namespace Sys2Proof.Machine

open Sys2Proof

/-! ## Requests (R322) -/

/-- TYPE of a request, of a DATA frame, of the link frames and of the bridge's frames (R322). -/
def SfbReq.code : SfbReq → Nat
  | .read _ _ _ _ _ => 0x10 | .readSoft _ _ _ _ _ => 0x11 | .program _ _ _ _ => 0x12 | .erase _ => 0x14 | .resume _ _ => 0x15
  | .claim _ _ _ => 0x20 | .seal _ _ => 0x21 | .epochInit => 0x22 | .witWrite _ => 0x23 | .witRead _ => 0x24
  | .intentPost _ => 0x25 | .intentRead _ _ => 0x26 | .intentClear _ _ => 0x27 | .param _ _ => 0x28 | .cstatus => 0x2A
  | .profile _ _ => 0x2B
def sfbDataType : Nat := 0x13
def sfbIdleType : Nat := 0
def sfbNakType : Nat := 1
def sfbTrainType : Nat := 2
def SfbIn.code : SfbIn → Nat
  | .complete _ _ _ _ => 0x30 | .rdata _ _ _ _ => 0x31 | .event _ => 0x32

/-- Virtual channel of a request (R322, R341). -/
def SfbReq.vc : SfbReq → Nat
  | .read _ _ so _ _ | .readSoft _ _ so _ _ => if so then 1 else 2
  | .program _ _ _ _ | .erase _ => 3
  | _ => 0

/-- Frames a request takes: a PROGRAM and its DATA frames, or one. -/
def SfbReq.frames : SfbReq → Nat
  | .program _ _ _ l => 1 + l.length
  | _ => 1

/-- The address a request names. -/
def SfbReq.addr : SfbReq → Nat
  | .read a _ _ _ _ | .readSoft a _ _ _ _ | .program a _ _ _ | .erase a | .resume a _ | .param a _ | .profile a _ => a
  | _ => 0

def SfbReq.isRead : SfbReq → Bool
  | .read _ _ _ _ _ => true
  | .readSoft _ _ _ _ _ => true
  | _ => false

/-- A program or an erase. -/
def SfbReq.writes : SfbReq → Bool
  | .program _ _ _ _ => true
  | .erase _ => true
  | _ => false

def SfbReq.isClaim : SfbReq → Bool
  | .claim _ _ _ => true
  | _ => false

def SfbReq.isWitRead : SfbReq → Bool
  | .witRead _ => true
  | _ => false

/-- FLAGS, by TYPE. -/
def SfbReq.flags : SfbReq → Nat
  | .read _ _ so slc lvl | .readSoft _ _ so slc lvl => so.toNat + 2 * slc.toNat + 16 * (lvl % 16)
  | .program _ slc jrn _ => 2 * slc.toNat + 4 * jrn.toNat
  | .resume _ p => p.toNat
  | .intentRead side _ => side % 2
  | _ => 0

/-- ARG, by TYPE. -/
def SfbReq.arg : SfbReq → Nat
  | .read _ n _ _ _ | .readSoft _ n _ _ _ => (n - 1) % 16
  | .program _ _ _ l => l.length
  | .witRead side => side % 2
  | .intentRead _ first => first % 4096
  | .param _ what => what
  | _ => 0

/-- Payload (R322, R329). -/
def SfbReq.payload : SfbReq → Bytes
  | .claim e n h => le 4 e ++ le 4 n ++ le 1 (h % 4)
  | .seal n h => le 4 n ++ le 1 (h % 4)
  | .witWrite v => le 8 v
  | .intentPost b => padTo 128 b
  | .intentClear side seq => le 1 side ++ le 8 seq
  | .profile _ r => padTo 512 r
  | _ => []

/-- The witness value of a head (R332). -/
def witnessValue (count state health epoch : Nat) : Nat :=
  count % 2 ^ 24 + state % 8 * 2 ^ 24 + health % 16 * 2 ^ 27 + epoch % 2 ^ 32 * 2 ^ 32

/-! ## Frames (R320, R321) -/

/-- Header of a frame. -/
def sfbHead (ty vc cls seq ack : Nat) (credit : Option (Nat × Nat)) (tag len epoch addr flags status arg : Nat) : Bytes :=
  let cr := match credit with
    | some (c, n) => 2 ^ 48 + c % 8 * 2 ^ 49 + n % 256 * 2 ^ 52
    | none => 0
  le 32 (ty % 256 + vc % 8 * 2 ^ 8 + cls % 8 * 2 ^ 11 + seq % 65536 * 2 ^ 16 + ack % 65536 * 2 ^ 32 + cr + tag % 65536 * 2 ^ 64 +
    len % 8192 * 2 ^ 80 + epoch % 2 ^ 32 * 2 ^ 96 + addr % 2 ^ 64 * 2 ^ 128 + flags % 256 * 2 ^ 192 + status % 256 * 2 ^ 200 + arg % 65536 * 2 ^ 208)

/-- A frame: header, payload, and the CRC32C over both. -/
def sfbFrame (head payload : Bytes) : Bytes := head ++ payload ++ le 4 (crc32c (head ++ payload)).toNat

/-- The frames of a request from its first SEQ on: the request, and a PROGRAM's DATA frames under the same TAG. The first returns credits. -/
def SfbTx.pack (t : SfbTx) (ack : Nat) (credit : Option (Nat × Nat)) : List Bytes :=
  let r := t.req
  let first := sfbFrame (sfbHead r.code t.vc t.cls t.seq ack credit t.tag r.payload.length t.epoch r.addr r.flags 0 r.arg) r.payload
  match r with
  | .program _ _ _ l => first :: ((List.range l.length).zip l).map fun ib =>
      sfbFrame (sfbHead sfbDataType t.vc t.cls (t.seq + 1 + ib.1) ack none t.tag ib.2.length t.epoch 0 0 0 0) ib.2
  | _ => [first]

/-- A link frame: ACK and credits. -/
def sfbLink (ty ack : Nat) (credit : Option (Nat × Nat)) (epoch : Nat) : Bytes := sfbFrame (sfbHead ty 0 0 0 ack credit 0 0 epoch 0 0 0 0) []

/-- Payload of a frame from a bridge. -/
def SfbIn.payload : SfbIn → Bytes
  | .complete _ _ _ b => b
  | .rdata _ _ _ raw => raw
  | .event _ => []

/-- Header and payload of a frame from a bridge, as its fields give them: what its CRC covers. EPOCH is 0 from a bridge (R321). -/
def SfbHdr.bytes (h : SfbHdr) (m : Option SfbIn) (link : Nat) : Bytes :=
  match m with
  | none => sfbHead link h.vc h.cls 0 h.ack h.credit 0 h.payload.length 0 h.addr 0 0 0 ++ h.payload
  | some m =>
    let head := fun (tag flags status arg : Nat) => sfbHead m.code h.vc h.cls h.seq h.ack h.credit tag m.payload.length 0 h.addr flags status arg
    (match m with
    | .complete tag st arg _ => head tag 0 st arg
    | .rdata tag slot plane _ => head tag (slot % 16 + plane % 4 * 16) 0 0
    | .event arg => head 0 0 0 arg) ++ m.payload

/-- A frame passes its CRC (R320, R364). -/
def SfbHdr.ok (h : SfbHdr) (m : Option SfbIn) (link : Nat) : Bool := h.crc == (crc32c (h.bytes m link)).toNat

end Sys2Proof.Machine
end

