-- ==== Sys2Proof/Machine/Sundas.lean ====
section
/-! DEFINITION. Sending to the carriers (R320 to R325), the die queues (R340), and the operations other families issue:
intent posts, journal programs, erases, codeword reads. -/

namespace Sys2Proof.Machine

open Sys2Proof

/-! ## Carriers and ports -/

/-- The M-die of a carrier port, and the offset of its local port's registers (R310, R367). -/
def cpDie (cp : Nat) : Nat := dieM (cp / 24)
def cpOff (cp : Nat) : Nat := cp % 24 * 0x20

def State.cpFlag (s : State) (cp : Nat) (f : Fld) : Bool := s.flag (cpDie cp) (f.plus (cpOff cp))
def State.setCpFlag (s : State) (cp : Nat) (f : Fld) (b : Bool) : State := s.setFlag (cpDie cp) (f.plus (cpOff cp)) b
def State.cpFld (s : State) (cp : Nat) (f : Fld) : Nat := s.fld (cpDie cp) (f.plus (cpOff cp))
def State.setCpFld (s : State) (cp : Nat) (f : Fld) (v : Nat) : State := s.setFld (cpDie cp) (f.plus (cpOff cp)) v
def State.addCpFld (s : State) (cp : Nat) (f : Fld) (v : Nat) : State := s.addFld (cpDie cp) (f.plus (cpOff cp)) v

/-- Carrier ports of the head: 24 for each M-die (R310). -/
def State.cps (s : State) : List Nat := List.range (24 * s.variant.sides)

/-- The carrier is in the roster of its M-die (R331). -/
def State.inRoster (s : State) (cp : Nat) : Bool := s.fld (cpDie cp) Reg.SFB_ROSTER_ROSTER / 2 ^ cp % 2 == 1

/-- Present carriers (R331). -/
def State.roster (s : State) : List Nat := (List.range 48).filter fun cp => s.fld (dieM 0) Reg.SFB_ROSTER_ROSTER / 2 ^ cp % 2 == 1

/-- The port is not lost and the carrier is attached. -/
def State.cpUp (s : State) (cp : Nat) : Bool := s.cpFlag cp Reg.SFB_PSTAT_UP && s.cpFlag cp Reg.SFB_PSTAT_ATTACHED

/-- The carrier accepts programs: present, attached, within its temperature window, not LOST (R360, R378, R380). -/
def State.cpOpen (s : State) (cp : Nat) : Bool :=
  s.inRoster cp && s.cpUp cp && s.cpFlag cp Reg.SFB_PSTAT_TEMP_OK && !s.par.lostCps.contains cp

def DieInfo.none : DieInfo :=
  { used := false, uid := [], bpc := 3, pages := 0, blocks := 0, retryN := 1, tr := 0, tsus := 0, tslc := 0, tprog := 0, tbers := 0,
    overs := [], slow := .none, evictSent := false, probes := 0, probeAt := 0, lost := false, susp := 0, suspUs := 0,
    suspAt := .none }

def State.die (s : State) (key : Nat) : DieInfo := s.med.dies.getD key .none

def State.setDie (s : State) (key : Nat) (d : DieInfo) : State :=
  { s with med := { s.med with dies := s.med.dies.putD key d .none } }

/-- A die's codewords come from its own sense: in use, not slow, not LOST, its port up (R361, R378, R380). -/
def State.dieDirect (s : State) (a : Nat) : Bool :=
  let d := s.die (dieOf a)
  s.cpUp (mCp a) && d.used && d.slow.isNone && !d.lost && !s.par.lostCps.contains (mCp a)

def State.sport (s : State) (cp : Nat) : SPort := s.med.ports.getD cp .reset

def State.setSport (s : State) (cp : Nat) (x : SPort) : State :=
  { s with med := { s.med with ports := s.med.ports.putD cp x .reset } }

/-! ## Frames (R320 to R325) -/

/-- The port runs: it is not lost, and it is enabled (R324, R367). A port that is disabled neither sends nor receives, and is lost then. -/
def State.sfbOn (s : State) (cp : Nat) : Bool :=
  s.flag (cpDie cp) Reg.SFB_CTRL_EN && s.fld (cpDie cp) Reg.SFB_CTRL_PORT_EN / 2 ^ (cp % 24) % 2 == 1

def State.sfbUp (s : State) (cp : Nat) : Bool := s.cpFlag cp Reg.SFB_PSTAT_UP && s.sfbOn cp

/-- Active lanes of a port (R324). -/
def State.sfbLanes (s : State) (cp : Nat) : List Nat := (List.range 2).filter fun i => s.cpFld cp Reg.SFB_PSTAT_LANES / 2 ^ i % 2 == 1

/-- ACK: SEQ of the last frame received in order and applied (R321). -/
def SPort.ack (x : SPort) : Nat := (x.rxSeq + 65535) % 65536

/-- The credits that a frame returns: of the lowest channel that is owed some, at most what CRCNT holds (log entry 13). -/
def SPort.credit (x : SPort) : Option (Nat × Nat) := (List.find? (fun v : Nat × Nat => decide (0 < v.2)) x.owed).map fun v => (v.1, min 255 v.2)

/-- They are returned. -/
def SPort.credited (x : SPort) : SPort :=
  match x.credit with
  | some (c, n) => { x with owed := x.owed.putD c (x.owed.getD c 0 - n) 0, rxCredits := x.rxCredits.insert c (x.rxCredits.getD c 0 + n) }
  | none => x

/-- Places of the replay store that a channel may use (R325). -/
def sPlacesFor (vc : Nat) : Nat := if vc = 0 then 64 else if vc = 1 then 256 else 704

def SPort.placesUsed (x : SPort) (vc : Nat) : Nat :=
  (x.unacked.filter fun t => sPlacesFor t.vc == sPlacesFor vc).foldl (fun n t => n + t.frames) 0

/-- The sender holds a credit and a place for each frame (R325); the last 64 credits of VC1 are held for class-0 frames (R344). -/
def SPort.canSend (x : SPort) (t : SfbTx) : Bool :=
  decide (t.frames ≤ x.credits.getD t.vc 0) && decide (x.placesUsed t.vc + t.frames ≤ sPlacesFor t.vc) &&
    (t.vc != 1 || t.cls == 0 || decide (t.frames + 64 ≤ x.credits.getD 1 0))

/-- Weight of VC2 and VC3 (R323). -/
def vcWeight (i : Nat) : Nat := if i = 0 then 3 else 1

/-- The frames of an operation go out on the active lanes in rotation, with ACK and credits as they now are (R320, R321). -/
def State.emitSfb (s : State) (cp : Nat) (t : SfbTx) : State :=
  let x := s.sport cp
  let lanes := lanesAfter (s.sfbLanes cp) t.frames x.txLane
  (s.setSport cp { x.credited with txLane := lanes.getLastD x.txLane }).emit (.sfb cp t.vc t.tag t.req (lanes.zip (t.pack x.ack x.credit)))

/-- A link frame on a lane, with ACK and credits (R322). -/
def State.sfbLinkFrame (s : State) (cp ty : Nat) (o : Bytes → Out) : State :=
  let x := s.sport cp
  (s.setSport cp x.credited).emit (o (sfbLink ty x.ack x.credit s.epoch))

/-- NAK (R324), on the next lane. -/
def State.sendSfbNak (s : State) (cp : Nat) : State :=
  let x := s.sport cp
  let lane := laneAfter (s.sfbLanes cp) x.txLane
  (s.setSport cp { x with txLane := lane }).sfbLinkFrame cp sfbNakType (.sfbNak cp lane)

/-- A replay of everything not acknowledged begins (R324): every frame goes again in the order of SEQ. -/
def State.sfbReplayAll (s : State) (cp : Nat) : State :=
  let x := s.sport cp
  match x.unacked.head? with
  | some t =>
    let s := ((s.setSport cp { x with ackSince := some s.ao.tb }).addCpFld cp Reg.SFB_PERR_REPLAYS 1).emit (.sfbReplay cp t.seq)
    x.unacked.foldl (fun s t => s.emitSfb cp t) s
  | none => s

/-- Send what can go on a port: VC0, then VC1, then VC2 and VC3 by weight, each channel in order. -/
def State.drainPort (s : State) (cp : Nat) : Nat → State
  | 0 => s
  | fuel + 1 =>
    let x := s.sport cp
    let head := fun vc => x.waiting.find? fun t => t.vc == vc
    let ready := fun vc => match head vc with
      | some t => x.canSend t
      | none => false
    let go := fun (s : State) (vc : Nat) (turn : Nat × Nat) => match head vc with
      | some t =>
        let t' := { t with seq := x.txSeq, epoch := s.epoch }
        let x := { x with waiting := x.waiting.erase t, turn := turn, txSeq := (x.txSeq + t.frames) % 65536,
                          unacked := x.unacked ++ [t'], credits := x.credits.insert vc (x.credits.getD vc 0 - t.frames),
                          ackSince := some (x.ackSince.getD s.ao.tb) }
        ((s.setSport cp x).emitSfb cp t').drainPort cp fuel
      | none => s
    if !s.sfbUp cp then s
    else if ready 0 then go s 0 x.turn
    else if ready 1 then go s 1 x.turn
    else match wrrNext 2 vcWeight (fun i => ready (i + 2)) x.turn with
      | some (i, turn) => go s (i + 2) turn
      | none => s

/-- Key of an outstanding operation. -/
def opKey (cp tag : Nat) : Nat := cp * 65536 + tag

/-- Send an operation on its port under a tag of its own (R321). -/
def State.sendOp (s : State) (o : MedOp) : State :=
  let x := s.sport o.cp
  let tag := match (List.range 65536).find? fun i => !s.med.ops.has (opKey o.cp ((x.nextTag + i) % 65536)) with
    | some i => (x.nextTag + i) % 65536
    | none => x.nextTag % 65536
  let s := { s with med := { s.med with ops := s.med.ops.insert (opKey o.cp tag) { o with since := s.ao.tb } } }
  let t : SfbTx := { seq := 0, frames := o.req.frames, vc := o.req.vc, cls := o.cls, tag := tag, epoch := s.epoch, req := o.req }
  let s := s.setSport o.cp { x with waiting := x.waiting ++ [t], nextTag := (tag + 1) % 65536 }
  s.drainPort o.cp (x.waiting.length + 1)

/-- Ask a carrier for something that a command of its own answers, or nothing: claim, seal, witness, epoch. A port that is lost sends
nothing, and its carrier counts as not answering (R363). -/
def State.tell (s : State) (req : SfbReq) (cps : List Nat) : State :=
  cps.foldl (fun s cp => if s.sfbUp cp then s.sendOp { cp := cp, req := req, cls := 0, why := .aside, since := s.ao.tb } else s) s

/-- The answer to what was asked has come: the operation is over, and its COMPLETE was the next frame of the port. -/
def State.answered (s : State) (cp : Nat) (p : SfbReq → Bool) : State :=
  match List.find? (fun (ko : Nat × MedOp) => ko.1 / 65536 == cp && p ko.2.req) s.med.ops with
  | some (k, _) =>
    let x := s.sport cp
    let s := { s with med := { s.med with ops := s.med.ops.erase k } }
    s.setSport cp { x with rxSeq := (x.rxSeq + 1) % 65536, rxCredits := x.rxCredits.insert 0 (x.rxCredits.getD 0 0 - 1),
                           owed := x.owed.insert 0 (x.owed.getD 0 0 + 1) }
  | none => s

/-- A request and its COMPLETE within one command, both acknowledged and their credits returned by its end (R312). -/
def State.exchange (s : State) (cp : Nat) (req : SfbReq) : State :=
  let x := s.sport cp
  let t : SfbTx := { seq := x.txSeq, frames := req.frames, vc := req.vc, cls := 0, tag := x.nextTag % 65536, epoch := s.epoch, req := req }
  let s := s.emitSfb cp t
  let x := s.sport cp
  s.setSport cp { x with txSeq := (x.txSeq + t.frames) % 65536, rxSeq := (x.rxSeq + 1) % 65536, nextTag := (x.nextTag + 1) % 65536 }

/-! ## Die queues (R340, R341) -/

/-- Operations outstanding on a die. -/
def State.dieOps (s : State) (key : Nat) : List MedOp := s.med.ops.vals.filter fun o => dieOf o.req.addr == key &&
  (o.req.isRead || o.req.writes)

/-- A queued operation may be sent to its die now. -/
def State.maySend (s : State) (o : MedOp) : Bool :=
  let ops := s.dieOps (dieOf o.req.addr)
  match o.req with
  | .read _ _ true _ _ => true
  | .readSoft _ _ true _ _ => true
  | .read _ _ false _ _ | .readSoft _ _ false _ _ => decide ((ops.filter fun p => p.req.isRead).length < 8)
  | .program _ _ _ _ | .erase _ =>
    !(ops.any fun p => p.req.writes) &&
      !(s.med.queue.any fun p => p.req.isRead && p.cls == 0 && dieOf p.req.addr == dieOf o.req.addr)
  | _ => true

/-- The operation that a class-0 read suspends: a program or erase of the die that is no journal program and is not
protected (R341). -/
def State.suspendable (s : State) (key : Nat) : Bool :=
  s.med.prot != some key && (s.dieOps key).any fun p => match p.req with
    | .program _ _ true _ => false
    | r => r.writes

/-- Note a suspend that a read sent with SUSPEND_OK causes (R341, R346). -/
def State.noteSuspend (s : State) (o : MedOp) : State :=
  match o.req with
  | .read a _ true _ _ | .readSoft a _ true _ _ =>
    let k := dieOf a
    if s.suspendable k && (s.die k).suspAt.isNone then
      (s.setDie k { s.die k with susp := (s.die k).susp + 1, suspAt := some s.ao.tb }).addFld (cpDie o.cp) Reg.MED_SUSP_SUSPENDS 1
    else s
  | _ => s

/-- Send what may be sent: class 0 first, then classes 1 to 7 by the weights of R62. -/
def State.pump (s : State) : Nat → State
  | 0 => s
  | fuel + 1 =>
    let ready := fun (c : Nat) => s.med.queue.find? fun o => o.cls == c && s.maySend o
    let go := fun (s : State) (o : MedOp) (turn : Nat × Nat) =>
      let s := { s with med := { s.med with queue := s.med.queue.erase o, turn := turn } }
      ((s.noteSuspend o).sendOp o).pump fuel
    match ready 0 with
    | some o => go s o s.med.turn
    | none =>
      match wrrNext 8 (s.cweight (dieF 0)) (fun c => (ready c).isSome) s.med.turn with
      | some (c, turn) => match ready c with
        | some o => go s o turn
        | none => s
      | none => s

/-- Queue an operation for its die, or send it; during a dump nothing is issued (R670). -/
def State.issue (s : State) (o : MedOp) : State :=
  if s.ao.dump.isSome then s
  else
  let s := { s with med := { s.med with queue := s.med.queue ++ [o] } }
  s.pump (s.med.queue.length + 1)

/-! ## Starved operations (R346, R349) -/

/-- MED_STARVE (R368). -/
def State.starveRegs (s : State) : State :=
  (List.range s.variant.sides).foldl (fun s m =>
    let d := dieM m
    let l := s.med.starved.filter fun k => k / 1024 / 24 == m
    let s := s.setFld d Reg.MED_STARVE_STARVED l.length
    match s.med.prot with
    | some k => ((s.setFlag d Reg.MED_STARVE_PROT_VALID true).setFld d Reg.MED_STARVE_PROT_CP (k / 1024)).setFld d
        Reg.MED_STARVE_PROT_DIE (k % 1024)
    | none => ((s.setFlag d Reg.MED_STARVE_PROT_VALID false).setFld d Reg.MED_STARVE_PROT_CP 0).setFld d Reg.MED_STARVE_PROT_DIE 0) s

/-- A die's program is under way, as against an erase. -/
def State.programs (s : State) (k : Nat) : Bool := (s.dieOps k).any fun o => match o.req with
  | .program _ _ _ _ => true
  | _ => false

/-- Protect at most one die (R349): the oldest starved program's, at level 2 or 3 the oldest starved erase's. -/
def State.protect (s : State) : State :=
  if s.med.prot.isSome || !s.flag (dieM 0) Reg.MED_CTRL_PROTECT_EN then s.starveRegs
  else
    let pick := match s.med.starved.find? s.programs with
      | some k => some k
      | none => if 2 ≤ s.ftl.level then s.med.starved.head? else none
    match pick with
    | some k =>
      let s := { s with med := { s.med with prot := some k } }
      (s.issue { cp := k / 1024, req := .resume (maddr (k / 1024) (k % 1024) 0 0 0 0) true, cls := 0, why := .resume,
                 since := s.ao.tb }).starveRegs
    | none => s.starveRegs

/-! ## Operations other families ask for -/

/-- The circulant table of an M-die as its active copy holds it (R317). -/
def State.circs (s : State) (die : Nat) : List Circ :=
  (List.range 4096).filterMap fun e =>
    if s.tblFlag die 0 e 0 Reg.LDP_CIRC_DATA_VALID then
      some (s.tblFld die 0 e 0 Reg.LDP_CIRC_DATA_ROW, s.tblFld die 0 e 0 Reg.LDP_CIRC_DATA_COL,
        s.tblFld die 0 e 0 Reg.LDP_CIRC_DATA_SHIFT)
    else none

/-- The codewords of one column page. `tflags` as R315. -/
def State.pageCws (s : State) (addr segid tflags : Nat) (data : Bytes) : List Bytes :=
  let circs := s.circs (cpDie (mCp addr))
  (List.range 16).map fun i => codeword circs (addr / 2 ^ 22 * 2 ^ 22 + i * 65536) segid tflags ((data.drop (4096 * i)).take 4096)

/-- SLC pages of a block. -/
def State.slcPages (s : State) (b : Nat) : Nat := (s.die (dieOf b)).pages / max 1 (s.die (dieOf b)).bpc

/-- A journal block has room for the largest record; one that has failed has none. -/
def State.jOpen (s : State) (b : Nat) : Bool := decide (((s.ftl.jblks.getD b { recs := [], next := 0 }).next) + 3 ≤ s.slcPages b)

/-- Journal blocks that take records (R280): open, one on each carrier that is present, journal-qualified and accepts programs. -/
def State.journalBlocks (s : State) : List Nat :=
  let l := s.ftl.jblks.keys.filter fun a =>
    let d := s.die (dieOf a)
    s.cpOpen (mCp a) && s.jOpen a && d.used && !d.lost && d.slow.isNone && decide (d.tslc ≤ 45)
  l.filter fun a => l.find? (fun b => mCp b == mCp a) == some a

/-- The n-th block of the rotation. -/
def pickRot (l : List Nat) (n : Nat) : Option Nat := if l.isEmpty then none else l[n % l.length]?

/-- Post a record's header to the intent ring of a journal carrier (R155, R333). -/
def State.postIntent (s : State) (r : JRec) : State :=
  match pickRot s.journalBlocks s.med.rot with
  | some b =>
    let s := { s with med := { s.med with rot := s.med.rot + 1 } }
    s.issue { cp := mCp b, req := .intentPost r.header, cls := r.cls, why := .intent r.side r.seq, since := s.ao.tb }
  | none => s

/-- SLC pages that a record takes in a journal block, where each record begins a page (log entry 12). -/
def JRec.pages (r : JRec) : Nat := (r.size + 65535) / 65536

/-- Program a record in one journal block (R280): its pages at the next pages of the block, one PROGRAM each. -/
def State.programIn (s : State) (r : JRec) (b : Nat) : State :=
  let x := s.ftl.jblks.getD b (JBlk.mk [] 0)
  let s := { s with ftl := { s.ftl with jblks := s.ftl.jblks.insert b (JBlk.mk (x.recs ++ [(r.side, r.seq)]) (x.next + r.pages)) } }
  let pgs := pieces 65536 r.bytes
  ((List.range pgs.length).zip pgs).foldl (fun s ip =>
    let a := b + (x.next + ip.1) * 2 ^ 22
    s.issue { cp := mCp b, req := .program a true true (s.pageCws a 0 1 ip.2), cls := r.cls, why := .journal r.side r.seq,
              since := s.ao.tb }) s

/-- Program a record: in one block, in rotation, or in three blocks on distinct carriers (R280). -/
def State.programRec (s : State) (r : JRec) (copies : Nat) : State :=
  let l := s.journalBlocks
  let n := s.med.rot
  let s := { s with med := { s.med with rot := n + 1 } }
  ((List.range copies).filterMap fun i => pickRot l (n + i)).eraseDups.foldl (fun s b => s.programIn r b) s

/-- Erase a block: it is pending until its ERASE completes (R347, R348). -/
def State.eraseBlock (s : State) (b : Nat) (cls : Nat) : State :=
  if s.ftl.erasing.contains b then s
  else
    let s := { s with ftl := { s.ftl with erasing := s.ftl.erasing ++ [b] } }
    if s.cpUp (mCp b) then s.issue { cp := mCp b, req := .erase b, cls := cls, why := .erase, since := s.ao.tb } else s

/-- Clear the intent slots of a side up to a SEQ on every carrier (R333). -/
def State.clearIntents (s : State) (side seq : Nat) : State :=
  (s.cps.filter s.cpUp).foldl (fun s cp =>
    s.issue { cp := cp, req := .intentClear side seq, cls := 7, why := .clear, since := s.ao.tb }) s

end Sys2Proof.Machine
end

