-- ==== Sys2Proof/Machine/Meta.lean ====
section
/-! DEFINITION. Metadata pages (R250 to R260), the metadata log (R293 to R297), segments and placement (R275 to R279), free space
(R289): the shared operations of flash translation. -/

namespace Sys2Proof.Machine

open Sys2Proof

/-! ## Names of pages and chunks -/

def pageId (kind owner index : Nat) : Nat := kind % 16 * 2 ^ 60 + owner % 16384 * 2 ^ 46 + index % 2 ^ 46
def pKind (p : Nat) : Nat := p / 2 ^ 60 % 16
def pOwner (p : Nat) : Nat := p / 2 ^ 46 % 16384
def pIndex (p : Nat) : Nat := p % 2 ^ 46

/-- Chunk references: dedup domain, allocating side, chunk number with its side bit (R183, R195). -/
def refDomain (r : Nat) : Nat := r / 2 ^ 52 % 4096
def refSide (r : Nat) : Nat := r / 2 ^ 51 % 2
def refNum (r : Nat) : Nat := r % 2 ^ 52
def mkRef (domain num : Nat) : Nat := domain % 4096 * 2 ^ 52 + num % 2 ^ 52

/-- Page and slot of a chunk's table entry (R258), page and entry of an LBA (R254). -/
def chunkPage (r : Nat) : Nat := pageId 5 (refDomain r) (refNum r / 128)
def lbaPage (nsid lba : Nat) : Nat := pageId 1 (nsid - 1) (lba / 512)

/-- What a page that was never written holds (R252). -/
def emptyBody (pid : Nat) : PageBody :=
  if pKind pid = 1 then .map []
  else if pKind pid = 2 then .leaf 0 []
  else if pKind pid = 3 then .interior 1 []
  else if pKind pid = 4 then .list []
  else if pKind pid = 5 then .chunk []
  else .bucket 0 []

def emptyPage (pid : Nat) : Page := { lsn0 := 0, lsn1 := 0, body := emptyBody pid }

def State.page (s : State) (pid : Nat) : Page := s.ftl.pages.getD pid (emptyPage pid)

def State.setPage (s : State) (pid : Nat) (p : Page) : State :=
  { s with ftl := { s.ftl with pages := s.ftl.pages.insert pid p } }

def ChunkEnt.none : ChunkEnt := { pack := 0, cnt0 := 0, cnt1 := 0, len := 0, member := 0, state := 0 }

/-- Entry of a chunk in the chunk table. -/
def State.chunk (s : State) (ref : Nat) : ChunkEnt :=
  match (s.page (chunkPage ref)).body with
  | .chunk es => es.getD (refNum ref % 128) .none
  | _ => .none

/-- The references of a block map page or list page, by entry; an entry not listed refers to chunk number 0 of `domain`. -/
def pageRef (b : PageBody) (domain n : Nat) : Nat :=
  match b with
  | .map m | .list m => m.getD n (mkRef domain 0)
  | _ => mkRef domain 0

def ChunkEnt.sum (e : ChunkEnt) : Int := e.cnt0 + e.cnt1

def DomRec.fresh (d : Nat) : DomRec :=
  { gens := [], nextGen := 0, packs := [], fpxBits := min 32 (8 + Config.fpxBits d), next0 := 1, next1 := 2 ^ 51 }

def State.dom (s : State) (d : Nat) : DomRec := s.arr.doms.getD d (.fresh d)

/-! ## The bytes of a page (R254 to R260) -/

def ValEnt.bytes (v : ValEnt) : Bytes :=
  padTo 16 v.key ++ le 1 v.key.length ++ zeros 3 ++ le 4 v.vlen ++ le 2 v.nchunk ++ zeros 6 ++
    (List.range 3).flatMap (fun i => le 8 ((v.refs[i]?).getD 0)) ++ le 8 v.list

def ChunkEnt.bytes (e : ChunkEnt) : Bytes :=
  le 8 e.pack ++ le 4 (ofInt 32 e.cnt0) ++ le 4 (ofInt 32 e.cnt1) ++ le 4 e.len ++ le 1 e.member ++ le 1 e.state ++ zeros 10

/-- The 4,096 bytes of a page; `domain` is that of its namespace. -/
def PageBody.bytes (domain : Nat) (b : PageBody) : Bytes :=
  padTo 4096 (match b with
  | .map m | .list m => (List.range 512).flatMap fun i => le 8 (m.getD i (mkRef domain 0))
  | .leaf next es => padTo 64 (le 2 es.length ++ zeros 6 ++ le 8 next) ++ es.flatMap ValEnt.bytes
  | .interior level es => padTo 64 (le 2 es.length ++ le 1 level) ++
      es.flatMap fun e => padTo 16 e.1 ++ le 1 e.1.length ++ zeros 7 ++ le 8 e.2
  | .chunk es => (List.range 128).flatMap fun i => (es.getD i ChunkEnt.none).bytes
  | .bucket next es => padTo 64 (le 2 es.length ++ zeros 6 ++ le 8 next) ++
      es.flatMap fun e => padTo 32 e.fp ++ le 8 e.ref ++ le 4 e.len ++ zeros 4)

/-- Domain of the namespace or of the domain's own pages. -/
def State.pageDomain (s : State) (pid : Nat) : Nat :=
  if pKind pid ≤ 4 then ((s.arr.nss.find? (pOwner pid + 1)).map NsRec.domain).getD 0 else pOwner pid

/-! ## Placement of pages in the map cache (R263, R264) -/

/-- S of an M-die (R309). -/
def State.setsLog2 (s : State) : Nat := max 0x0A (min 0x18 (s.fld (dieM 0) Reg.MAP_CTRL_SETS_LOG2))

def mapHash (pid : Nat) : Nat := pid ^^^ (pid / 2 ^ 23) ^^^ (pid / 2 ^ 46)

/-- M-die of a page. -/
def State.mapDie (s : State) (pid : Nat) : Nat :=
  match s.variant with
  | .v4a => 0
  | .v8a => mapHash pid / 2 ^ s.setsLog2 % 2

def State.mapOn (s : State) (die : Nat) : Bool := s.flag (dieM die) Reg.MAP_CTRL_EN

def State.mapSet (s : State) (pid : Nat) : Nat := mapHash pid % 2 ^ s.setsLog2

/-- Lines in the set of a page. -/
def State.setMates (s : State) (pid : Nat) : SMap Line :=
  s.ftl.lines.keep fun k _ => s.mapDie k == s.mapDie pid && s.mapSet k == s.mapSet pid

/-! ## The map cache's lines, as far as changes mark them (R264, R269, R270) -/

def Line.fresh : Line :=
  { way := 0, v := true, d := false, r := false, p := false, rp := false, b := false, pf := false, age := 0, dlsn := 0, writing := none,
    changed := none, rlsn := 0, rfirst := 0 }

/-- A change marks the line of its page. A page that recovery changes while it is not in the cache takes the next free way of its set, or
its line waits for one (R268; log entry 204). -/
def State.markLine (s : State) (pid : Nat) (f : Line → Line) : State :=
  match s.ftl.lines.find? pid with
  | some l => { s with ftl := { s.ftl with lines := s.ftl.lines.insert pid (f l) } }
  | none =>
    let mates := s.setMates pid
    match (List.range 16).find? fun w => mates.vals.all fun l => l.way != w with
    | some w => { s with ftl := { s.ftl with lines := s.ftl.lines.insert pid (f { Line.fresh with way := w }) } }
    | none =>
      let ws := s.ftl.waits
      { s with ftl := { s.ftl with waits := if ws.any fun x => x.page == pid then ws.map fun x => if x.page = pid then { x with line := f x.line } else x
                                            else ws ++ [{ page := pid, cls := 1, line := f Line.fresh, miss := false }] } }

/-- A change of this head reaches a page: its line is dirty from the LSN of its first change. -/
def State.dirtyLine (s : State) (pid lsn : Nat) : State :=
  s.markLine pid fun l =>
    let l := if l.d then l else { l with d := true, dlsn := lsn }
    if l.writing.isSome && l.changed.isNone then { l with changed := some lsn } else l

/-- A partner change reaches a page (R270): R, unless the partner's copy of the page already holds it. -/
def State.partnerLine (s : State) (pid lsn : Nat) : State :=
  let held := match s.ftl.dir.find? pid with
    | some d => decide (lsn ≤ (if s.side = 0 then d.lsn1 else d.lsn0))
    | none => false
  if held then s
  else s.markLine pid fun l => { l with r := true, rlsn := max l.rlsn lsn, rfirst := if l.r then min l.rfirst lsn else lsn }

/-! ## Applying items (R296) -/

/-- Insert a value entry by key, in key order (R257). -/
def putVal (v : ValEnt) : List ValEnt → List ValEnt
  | [] => [v]
  | w :: l => if v.key = w.key then v :: l else if bytesLt v.key w.key then v :: w :: l else w :: putVal v l

/-- Bucket number of a fingerprint, and the page of its chain at depth `n` (R260, log entry 13). -/
def bucketOf (bits : Nat) (fp : Bytes) : Nat := ofBe (padTo 4 (fp.take 4)) / 2 ^ (32 - bits)
def bucketPage (domain bits : Nat) (fp : Bytes) (n : Nat) : Nat :=
  pageId 6 domain (if n = 0 then bucketOf bits fp else 2 ^ 45 + bucketOf bits fp * 4096 + n)

/-- Pages of a chain from a page on, each with its entries, along NEXT (R260); a bucket has at most 4,096 (log entry 13). -/
def State.chainFrom (s : State) : Nat → Nat → List (Nat × List FpEnt)
  | 0, _ => []
  | fuel + 1, p => match (s.page p).body with
    | .bucket next es => (p, es) :: (if next = 0 then [] else s.chainFrom fuel next)
    | _ => []

/-- Entries of a domain's chain for a fingerprint, page by page. -/
def State.bucketChain (s : State) (domain : Nat) (fp : Bytes) : List (Nat × List FpEnt) :=
  s.chainFrom 4096 (bucketPage domain (s.dom domain).fpxBits fp 0)

/-- The fingerprint index's entries that hold a fingerprint. -/
def State.fpLookup (s : State) (domain : Nat) (fp : Bytes) : List FpEnt :=
  (s.bucketChain domain fp).flatMap fun pe => pe.2.filter fun e => e.fp == fp

/-- The page that an added index entry goes to: the first of the chain with a free slot, or a new overflow page; with it the last page
of the chain, which then names the new one in its NEXT (R260). -/
def State.fpAddPage (s : State) (domain : Nat) (fp : Bytes) : Nat × Option Nat :=
  let l := s.bucketChain domain fp
  match l.find? fun pe => decide (pe.2.length < 84) with
  | some pe => (pe.1, none)
  | none => (bucketPage domain (s.dom domain).fpxBits fp l.length, l.getLast?.map Prod.fst)

/-- A value entry of a freeze tree (R466): it names a copy although it has no chunk. -/
def ValEnt.isFreeze (v : ValEnt) : Bool := v.key.length == 16 && v.nchunk == 0 && v.list != 0

/-- The freeze tree of a namespace, as items name it: the model holds its entries in a list, not in pages (log entry 24). -/
def freezeRoot (nsid : Nat) : Nat := pageId 2 (nsid - 1) 0

/-- The pages that an item changes. -/
def State.itemPages (s : State) : Item → List Nat
  | .mapset p _ _ => [p]
  | .count r _ _ => [chunkPage r]
  | .alloc r _ n _ => ((List.range n).map fun i => chunkPage (r + i)).eraseDups
  | .valset p v => if v.isFreeze then [] else [p]
  | .keydel p _ => if pIndex p = 0 then [] else [p]
  | .list p _ _ => [p]
  | .fpadd r _ fp => let p := s.fpAddPage (refDomain r) fp; p.1 :: p.2.toList
  | .fpdel r _ fp => (s.bucketChain (refDomain r) fp).filterMap fun pe => if pe.2.any (fun e => e.ref == r) then some pe.1 else none
  | .gencnt _ _ _ => []
  | .pageimg p _ => [p]

/-- Change of a chunk-table entry. -/
def State.modChunk (s : State) (ref : Nat) (f : ChunkEnt → ChunkEnt) : State :=
  let pid := chunkPage ref
  let p := s.page pid
  match p.body with
  | .chunk es => s.setPage pid { p with body := .chunk (es.putD (refNum ref % 128) (f (es.getD (refNum ref % 128) .none)) .none) }
  | _ => s

/-- The ordered index forgets the leaves that a page image may move (R513). -/
def State.ordImage (s : State) (pid : Nat) (body : PageBody) : State :=
  let kids := fun (b : PageBody) => match b with
    | .interior 1 es => es.map Prod.snd
    | _ => []
  let l := if pKind pid = 2 then [pid] else kids body ++ kids (s.page pid).body
  l.foldl (fun s p => s.ordDrop (pOwner p + 1) p) s

/-- The change that an item makes to the content of one page it names, or to the domain records. -/
def State.applyItem (s : State) (it : Item) : State :=
  let setRef := fun (pid n ref : Nat) (s : State) =>
    let p := s.page pid
    let dom := s.pageDomain pid
    match p.body with
    | .map m => s.setPage pid { p with body := .map (m.putD n ref (mkRef dom 0)) }
    | .list m => s.setPage pid { p with body := .list (m.putD n ref (mkRef dom 0)) }
    | _ => s
  match it with
  | .mapset pid n ref =>
    setRef pid n ref s
  | .count ref side delta =>
    s.modChunk ref fun e => if side = 0 then { e with cnt0 := e.cnt0 + delta } else { e with cnt1 := e.cnt1 + delta }
  | .alloc ref maddr members ulen =>
    (List.range members).foldl (fun s i => s.modChunk (ref + i) fun e =>
      { e with pack := maddr, member := i, len := ulen / members, state := 1 }) s
  | .valset pid v =>
    if v.isFreeze then
      let f : Frozen := { nsid := pOwner pid + 1, page := ofBe (v.key.take 8), epoch := ofBe (v.key.drop 8), copy := v.list }
      { s with arr := { s.arr with frozen := (s.arr.frozen.filter fun g => !(g.page == f.page && g.epoch == f.epoch)) ++ [f] } }
    else
      let p := s.page pid
      match p.body with
      | .leaf next es => s.setPage pid { p with body := .leaf next (putVal v es) }
      | _ => s
  | .keydel pid key =>
    if pIndex pid = 0 then
      -- a frozen copy is released: its page leaves the directory (R470)
      let gone := ((s.arr.frozen.filter fun g => be 8 g.page ++ be 8 g.epoch == key).map Frozen.copy)
      let f := s.ftl
      { s with arr := { s.arr with frozen := s.arr.frozen.filter fun g => be 8 g.page ++ be 8 g.epoch != key },
               ftl := { f with pages := f.pages.keep fun p _ => !gone.contains p, dir := f.dir.keep fun p _ => !gone.contains p,
                               lines := f.lines.keep fun p _ => !gone.contains p } }
    else
      let p := s.page pid
      match p.body with
      | .leaf next es => s.setPage pid { p with body := .leaf next (es.filter fun e => e.key != key) }
      | _ => s
  | .list pid first refs => ((List.range refs.length).zip refs).foldl (fun s ir => setRef pid (first + ir.1) ir.2 s) s
  | .fpadd ref len fp =>
    let (pid, last) := s.fpAddPage (refDomain ref) fp
    let s := match last.map fun l => (l, s.page l) with
      | some (l, q) => match q.body with
        | .bucket _ es => s.setPage l { q with body := .bucket pid es }
        | _ => s
      | none => s
    let p := s.page pid
    match p.body with
    | .bucket next es => s.setPage pid { p with body := .bucket next (es ++ [{ fp := fp, ref := ref, len := len }]) }
    | _ => s
  | .fpdel ref _ fp =>
    (s.bucketChain (refDomain ref) fp).foldl (fun s pe =>
      let p := s.page pe.1
      match p.body with
      | .bucket next es => if es.any (fun e => e.ref == ref) then
          s.setPage pe.1 { p with body := .bucket next (es.filter fun e => e.ref != ref) } else s
      | _ => s) s
  | .gencnt domain gen delta =>
    let d := s.dom domain
    { s with arr := { s.arr with doms := s.arr.doms.insert domain { d with packs := d.packs.putD gen (d.packs.getD gen 0 + delta) 0 } } }
  | .pageimg pid body =>
    let s := s.ordImage pid body
    s.setPage pid { s.page pid with body := body }

/-- A record of a side is younger than the loss that a mark stands for. -/
def Mark.before (m : Mark) (side seq : Nat) : Bool := decide ((if side = 0 then m.next0 else m.next1) ≤ seq)

/-- A change that a journal record causes ends the marks of its block or key that the record is younger than (R82). -/
def State.endMarks (s : State) (rec : Option (Nat × Nat)) (it : Item) : State :=
  match rec with
  | none => s
  | some (side, seq) =>
    let key := fun (pid : Nat) (k : Key) =>
      { s with arr := { s.arr with markedKeys := s.arr.markedKeys.filter fun x => x.1 != (pOwner pid + 1, k) || !x.2.before side seq } }
    match it with
    | .mapset pid n _ =>
      let k := (pOwner pid + 1) * 2 ^ 64 + pIndex pid * 512 + n
      match s.arr.markedLbas.find? k with
      | some m => if pKind pid = 1 ∧ m.before side seq then
          { s with arr := { s.arr with markedLbas := s.arr.markedLbas.erase k } } else s
      | none => s
    | .valset pid v => key pid v.key
    | .keydel pid k => key pid k
    | _ => s

/-- Raise a page's LSN for a side. -/
def State.raiseLsn (s : State) (pid side lsn : Nat) : State :=
  let p := s.page pid
  s.setPage pid (if side = 0 then { p with lsn0 := max p.lsn0 lsn } else { p with lsn1 := max p.lsn1 lsn })

/-- Apply an item of a durable record of a side: content, page LSNs, lines; a count whose sum turns negative is listed for the
audit (R308). -/
def State.applyDurable (s : State) (side lsn : Nat) (it : Item) : State :=
  let ps := s.itemPages it
  let s := s.applyItem it
  let s := ps.foldl (fun s p =>
    let s := s.raiseLsn p side lsn
    if side = s.side then s.dirtyLine p lsn else s.partnerLine p lsn) s
  match it with
  | .count ref _ _ => if (s.chunk ref).sum < 0 then
      { s with ftl := { s.ftl with auditList := s.ftl.auditList ++ [ref] } }.event (dieM 0) 0x24 5 noInst else s
  | _ => s

/-- Pages that a durable change needs in the cache before it is applied (R269, R270): those it changes, and of a chunk-table page that a
pinned line is to refer to, that page (R272). -/
def State.changePages (s : State) (c : Change) : List Nat :=
  let pinned := fun (it : Item) => match it with
    | .mapset p _ ref => if (s.ftl.lines.find? p).any Line.p && s.tblFlag (dieF 0) 1 (pOwner p) 0 Reg.NVF_NSTAB_DATA_C0_ELIGIBLE && refNum ref != 0 then
        [chunkPage ref] else []
    | _ => []
  let of_ := fun (b : LogBody) => match b with
    | .reloc c _ _ _ _ => ([chunkPage c, chunkPage (c + 7)]).eraseDups
    | .state r _ => [chunkPage r]
    | _ => []
  match c with
  | .item _ _ _ _ _ it | .upd _ _ (.item _ it _ _ _ _) _ => s.itemPages it ++ pinned it
  | .alone r => of_ r.body
  | .upd _ _ (.log b _ _) _ => of_ b
  | .upd _ _ _ _ | .txnEnd _ _ => []

/-! ## The metadata log (R293 to R297) -/

/-- Head of an item (R296). -/
def itemHead (ty n v a b : Nat) : Bytes := le 1 ty ++ [0] ++ le 2 n ++ le 4 v ++ le 8 a ++ le 8 b

/-- The bytes of an item (R296); `dom` gives the domain of a page. -/
def Item.bytes (dom : Nat → Nat) : Item → Bytes
  | .mapset p n r => itemHead 1 n 0 p r
  | .count r side d => itemHead 2 side (ofInt 32 d) r 0
  | .alloc r m n ulen => itemHead 3 n ulen r m
  | .valset p v => itemHead 4 0 0 p 0 ++ v.bytes
  | .keydel p k => itemHead 5 0 0 p 0 ++ padTo 16 k ++ le 1 k.length ++ zeros 15
  | .list p first rs => itemHead 6 first rs.length p 0 ++ rs.flatMap (le 8)
  | .fpadd r len fp => itemHead 7 0 len r 0 ++ padTo 32 fp
  | .fpdel r len fp => itemHead 8 0 len r 0 ++ padTo 32 fp
  | .gencnt d g n => itemHead 9 g (ofInt 32 n) d 0
  | .pageimg p body => itemHead 0xA 0 0 p 0 ++ body.bytes (dom p)

def DirEnt.bytes (d : DirEnt) : Bytes := le 8 d.maddr ++ le 4 d.crc ++ zeros 4 ++ le 8 d.lsn0 ++ le 8 d.lsn1

def SegState.code : SegState → Nat
  | .empty => 0
  | .opened => 1
  | .sealed => 2
  | .collecting => 3
  | .reclaim => 4

/-- The 128 bytes of a segment descriptor (R275). -/
def SegDesc.bytes (d : SegDesc) : Bytes :=
  padTo 128 (le 4 d.segid ++ le 1 d.kind ++ le 1 d.state.code ++ le 1 d.width ++ le 1 (if d.slc then 1 else 0) ++ le 2 d.next ++
    le 2 d.stripes ++ le 4 d.valid ++ le 8 d.sealedAt ++ le 8 d.relocAt ++ zeros 24 ++
    d.members.flatMap fun m => le 4 (m.carrier % 64 + m.die % 1024 * 2 ^ 6 + m.block % 16384 * 2 ^ 16))

/-- TYPE of a log record (R295). -/
def LogBody.type : LogBody → Nat
  | .txn _ _ _ _ _ => 1
  | .page _ _ => 2
  | .segment _ => 3
  | .reloc _ _ _ _ _ => 4
  | .state _ _ => 5
  | .progress _ _ _ _ => 6
  | .nsrec _ _ => 7
  | .domrec _ _ => 8
  | .shard _ _ _ => 9
  | .ckptBegin _ _ => 0xA
  | .ckptEnd _ _ _ _ _ => 0xB
  | .link _ => 0xC
  | .jblock _ _ => 0xD
  | .pool _ _ => 0xE
  | .status _ _ => 0xF
  | .pad _ => 0
  | .change _ => 0x10

/-- Bytes of a change for which R295 gives no record: its kind, then its fields (log entry 33). -/
def MetaChange.bytes : MetaChange → Bytes
  | .opkey k (some d) => le 2 1 ++ le 2 k ++ padTo 32 d
  | .opkey k none => le 2 2 ++ le 2 k
  | .admins l => le 2 3 ++ l.flatMap fun n => le 2 n.length ++ n
  | .enrolled ser (some m) => le 2 4 ++ padTo 16 ser ++ le 2 m.wrapGen ++ m.awk.getD []
  | .enrolled ser none => le 2 5 ++ padTo 16 ser
  | .layout l => le 2 6 ++ [l.width, l.target, l.roster, l.evac].flatMap fun x => le 1 (if x.isSome then 1 else 0) ++ le 8 (x.getD 0)
  | .clearDeferred => le 2 7
  | .epochInit => le 2 8
  | .attach ns l => le 2 10 ++ le 4 ns ++ l.flatMap (le 2)
  | .detach d => le 2 11 ++ le 4 d.nsid ++ le 8 d.at_ ++ le 8 d.tag ++ le 1 d.side ++ d.ctrls.flatMap (le 2)
  | .detached d => le 2 12 ++ le 4 d.nsid ++ le 8 d.at_ ++ le 8 d.tag ++ le 1 d.side ++ d.ctrls.flatMap (le 2)
  | .sanEnd failed => le 2 13 ++ le 1 (if failed then 1 else 0)
  | .sanExit => le 2 14
  | .losses run gen es lbas keys => le 2 15 ++ le 8 run ++ le 8 gen ++ le 4 es.length ++
      (es.flatMap fun e => le 8 e.seq ++ le 4 e.nsid ++ le 1 e.kind ++ le 1 e.key.length ++ padTo 16 e.key ++ le 8 e.slba ++ le 8 e.count ++
        le 1 (if e.hint then 1 else 0) ++ le 8 e.lostBy) ++
      le 4 lbas.length ++ (lbas.flatMap fun x => le 12 x.1 ++ le 8 x.2.next0 ++ le 8 x.2.next1) ++
      keys.flatMap fun x => le 4 x.1.1 ++ le 1 x.1.2.length ++ padTo 16 x.1.2 ++ le 8 x.2.next0 ++ le 8 x.2.next1
  | .domKey d w gens r => le 2 9 ++ le 2 d ++ le 1 (if r then 1 else 0) ++ le 1 gens.length ++ gens.flatMap (le 2) ++ w

/-- Body bytes (R295). Where the manual names the fields of a body without their places, they follow one another as 8-byte
numbers (log entry 14). -/
def LogBody.bytes (dom : Nat → Nat) : LogBody → Bytes
  | .txn j sh sgen jseq items => le 1 (j.getD 0xFF) ++ le 1 sh ++ zeros 2 ++ le 4 sgen ++ le 8 jseq ++ items.flatMap (Item.bytes dom)
  | .page p d => le 8 p ++ d.bytes
  | .segment d => d.bytes
  | .reloc c o n og ng => le 8 c ++ le 8 o ++ le 8 n ++ le 2 og ++ le 2 ng
  | .state r st => le 8 r ++ le 1 st
  | .progress op ns d t => [op, ns, d, t].flatMap (le 8)
  | .nsrec ns (some r) => [ns, r.blocks, if r.kv then 1 else 0, r.domain, r.root, r.index].flatMap (le 8)
  | .nsrec ns none => le 8 ns
  | .domrec d r => [d, r.fpxBits, r.next0, r.next1].flatMap (le 8) ++ r.gens.flatMap (le 8)
  | .shard s o g => [s, o, g].flatMap (le 8)
  | .ckptBegin a b => le 8 a ++ le 8 b
  | .ckptEnd n l s c x => [n, l, s, c, x].flatMap (le 8)
  | .link l => l.flatMap (le 8)
  | .jblock a o => le 8 a ++ le 1 (if o then 1 else 0)
  | .pool a sd => le 8 a ++ le 1 (sd.getD 0xFF)
  | .status ro sp => le 1 (if ro then 1 else 0) ++ le 1 sp
  | .pad n => zeros n
  | .change c => c.bytes

/-- A record with its header (R294). -/
def LogRec.bytes (dom : Nat → Nat) (r : LogRec) : Bytes :=
  let body := r.body.bytes dom
  let h := le 2 0x4C47 ++ le 1 r.body.type ++ le 1 (if r.fin then 1 else 0) ++ le 4 body.length ++ le 8 r.lsn ++ le 4 r.epoch ++
    le 4 r.txn ++ zeros 4
  h ++ le 4 (crc32c (h ++ body)).toNat ++ body

def Item.len (i : Item) : Nat := (i.bytes fun _ => 0).length
def LogRec.size (r : LogRec) : Nat := (r.bytes fun _ => 0).length

/-- Level of free space and what follows from a change of it (R289). `F` counts the side's pool, in SOLO both. -/
def State.freeSegs (s : State) : Nat :=
  let n := (s.ftl.pools.keep fun _ side => side == s.side || s.pair.head == .solo).length
  n / (max 4 (min 16 (s.fld (dieM 0) Reg.FTL_CTRL_WIDTH)) + 2)

def State.updateFree (s : State) : State :=
  let F := s.freeSegs
  let d := dieM 0
  let lvl := if s.fld d Reg.FTL_LEVELS_HIGH < F then 0 else if s.fld d Reg.FTL_LEVELS_LOW < F then 1
    else if s.fld d Reg.FTL_LEVELS_RESV < F then 2 else 3
  let old := s.ftl.level
  let s := (s.setFld d Reg.FTL_FREE_SEGS F).setFld d Reg.FTL_FREE_LEVEL lvl
  let s := { s with ftl := { s.ftl with level := lvl, noOpen := s.ftl.noOpen && decide (F = 0) } }
  let s := if lvl = 1 ∧ old ≠ 1 then s.exc 0 .freeLow [F] else s
  if lvl = 2 ∧ old ≠ 2 then s.exc 0 .freeCrit [F] else s

/-- Erased blocks of a pool by carrier or die, none of a slow or LOST die or of a carrier that takes no members (R278, R360,
R381, R397). -/
def State.eligible (s : State) (journal : Bool) : List Nat :=
  s.ftl.pools.keys.filter fun a =>
    let d := s.die (dieOf a)
    (s.ftl.pools.getD a 2 == s.side || s.pair.head == .solo) && s.cpOpen (mCp a) && d.used && d.slow.isNone && !d.lost &&
      (!journal || decide (d.tslc ≤ 45)) && !(s.med.starved.contains (dieOf a)) &&
      !(s.par.reshape.any (fun r => !r.vx5) && s.fld (dieM 0) Reg.PAR_RS_EVAC_EVAC / 2 ^ mCp a % 2 == 1)

/-- The most frequent value of a list, the lowest where several are. -/
def mostOf (l : List Nat) : Option Nat :=
  (l.eraseDups.foldl (fun (best : Option (Nat × Nat)) x =>
    let n := (l.filter (· == x)).length
    match best with
    | none => some (x, n)
    | some (y, m) => if m < n ∨ (m = n ∧ x < y) then some (x, n) else best) none).map Prod.fst

/-- The next member block, on no carrier of `used` (R278). -/
def State.pickBlock (s : State) (used : List Nat) (journal : Bool) : Option Nat :=
  let l := (s.eligible journal).filter fun a => !used.contains (mCp a)
  match mostOf (l.map mCp) with
  | none => none
  | some cp =>
    let l := l.filter fun a => mCp a == cp
    match mostOf (l.map mDie) with
    | none => none
    | some d => (l.filter fun a => mDie a == d).foldl (fun b a => match b with
      | none => some a
      | some x => some (min x a)) none

/-- Up to `n` blocks on distinct carriers. -/
def State.pickBlocks (s : State) (journal : Bool) : Nat → List Nat → List Nat
  | 0, acc => acc
  | n + 1, acc => match s.pickBlock (acc.map mCp) journal with
    | some a => s.pickBlocks journal n (acc ++ [a])
    | none => acc

/-- Take blocks out of the pools. -/
def State.takeBlocks (s : State) (l : List Nat) : State :=
  { s with ftl := { s.ftl with pools := s.ftl.pools.keep fun a _ => !l.contains a } }.updateFree

/-- A record of this side with the next LSN. -/
def State.nextRec (s : State) (txn : Nat) (fin : Bool) (body : LogBody) : LogRec :=
  { side := s.side, lsn := s.ftl.nextLsn, epoch := s.epoch, txn := txn, fin := fin, body := body }

/-- Put a record in the present log page. -/
def State.addRec (s : State) (r : LogRec) : State :=
  let since := if s.ftl.cur.isEmpty then s.ao.tb else s.ftl.curSince
  { s with ftl := { s.ftl with cur := s.ftl.cur ++ [r], curSince := since, nextLsn := s.ftl.nextLsn + 1 } }

/-- Bytes of the records of the present log page. -/
def State.curBytes (s : State) : Nat := s.ftl.cur.foldl (fun n r => n + r.size) 0

/-- Bytes of a log page that records may fill: a LINK record keeps its place (log entry 25). -/
def logRoom : Nat := 65536 - 64

/-- Program a log page at the same page of the three blocks of the triple (R293). -/
def State.sendLogPage (s : State) (n : Nat) (pg : LogPage) : State :=
  let bs := s.ftl.triple
  let data := pg.recs.flatMap fun r => r.bytes s.pageDomain
  ((List.range bs.length).zip bs).foldl (fun s ib =>
    let a := ib.2 + (n - s.ftl.tripleAt) * 2 ^ 22
    s.issue { cp := mCp ib.2, req := .program a true false (s.pageCws a 0 1 data), cls := 1, why := .log n ib.1,
              since := s.ao.tb }) s

/-- Close the present log page with a PAD record and program it (R293). The last page of a triple, or the next one after a member
of it failed, ends with a LINK record that names the next triple; without blocks for a triple the page waits. -/
def State.programLogPage (s : State) : State :=
  let first := s.ftl.triple.isEmpty
  let l := s.pickBlocks false 3 []
  let start := fun (s : State) (l : List Nat) (at_ : Nat) =>
    { s.takeBlocks l with ftl := { (s.takeBlocks l).ftl with triple := l, tripleAt := at_, tripleBad := false } }
  if s.ftl.cur.isEmpty ∨ (first ∧ l.length < 3) then s
  else
    let n := s.ftl.nextPage
    let s := if first then start s l n else s
    let l := if first then s.pickBlocks false 3 [] else l
    let pages := s.ftl.triple.foldl (fun m b => min m ((s.die (dieOf b)).pages / max 1 (s.die (dieOf b)).bpc)) 4096
    let last := decide (pages ≤ n - s.ftl.tripleAt + 1)
    let turn := (last || s.ftl.tripleBad) && decide (3 ≤ l.length)
    if last && !turn then s
    else
      let s := if turn then s.addRec (s.nextRec 0 true (.link l)) else s
      let left := 65536 - s.curBytes
      let s := if 32 ≤ left then s.addRec (s.nextRec 0 true (.pad (left - 32))) else s
      let pg : LogPage := { recs := s.ftl.cur, acks := [], fails := [] }
      let a := ((s.ftl.triple.head?).getD 0) + (n - s.ftl.tripleAt) * 2 ^ 22
      let s := { s with ftl := { s.ftl with logPages := s.ftl.logPages.insert n pg, cur := [], nextPage := n + 1,
                                            logIndex := s.ftl.logIndex ++ [((pg.recs.head?.map LogRec.lsn).getD 0, a)] } }
      let s := s.sendLogPage n pg
      if turn then
        let s := { s with ftl := { s.ftl with oldTriples := s.ftl.oldTriples ++ [(s.ftl.nextLsn - 1, s.ftl.triple)] } }
        start s l (n + 1)
      else s

/-- Append a record to the log: no record crosses a page (R293). -/
def State.logRec (s : State) (txn : Nat) (fin : Bool) (body : LogBody) : State :=
  let s := if logRoom < s.curBytes + (s.nextRec txn fin body).size then s.programLogPage else s
  s.addRec (s.nextRec txn fin body)

def State.log (s : State) (body : LogBody) : State := s.logRec 0 true body

/-- Items in records of at most `cap` bytes. -/
def splitItems (cap : Nat) : Nat → List Item → List Item → List (List Item)
  | _, [], acc => [acc]
  | used, i :: l, acc =>
    if cap < used + i.len ∧ ¬ acc.isEmpty then acc :: splitItems cap i.len l [i] else splitItems cap (used + i.len) l (acc ++ [i])

/-- Log a transaction (R296, R297): its number. -/
def State.logTxn (s : State) (jside : Option Nat) (shard jseq : Nat) (items : List Item) : State × Nat :=
  let n := s.ftl.nextTxn
  let s := { s with ftl := { s.ftl with nextTxn := n + 1 } }
  let sgen := s.arr.sgen.getD shard 0
  let parts := splitItems 65000 0 items []
  let k := parts.length
  (((List.range k).zip parts).foldl (fun s ip => s.logRec n (ip.1 + 1 == k) (.txn jside shard sgen jseq ip.2)) s, n)

/-! ## Spare capacity (R291) -/

/-- Blocks of the dies in use on the roster. -/
def State.rawBlocks (s : State) : Nat :=
  (s.med.dies.keep fun k d => d.used && !d.lost && s.inRoster (k / 1024)).vals.foldl (fun n d => n + d.blocks) 0

/-- Percent of the spare that remains: retired blocks consume it. -/
def State.spareLeft (s : State) : Nat :=
  let spare := s.rawBlocks * s.fld (dieM 0) Reg.FTL_LEVELS_SPARE_PCT / 100
  if spare = 0 then 100 else 100 * (spare - s.ftl.retired.length) / spare

/-- Read-only mode begins or ends: it is logged (R291). -/
def State.setReadOnly (s : State) (ro : Bool) : State :=
  if ro = s.arr.readOnly then s else ({ s with arr := { s.arr with readOnly := ro } }).log (.status ro s.spareLeft)

/-- Read-only mode begins when no spare remains (R291). -/
def State.checkSpare (s : State) : State := if s.spareLeft = 0 then s.setReadOnly true else s

/-- Read-only mode ends when an added carrier raises the spare above 0%, from 0% (R291); `before` remained without it. -/
def State.addSpare (s : State) (before : Nat) : State := if before = 0 ∧ s.spareLeft ≠ 0 then s.setReadOnly false else s

/-- A retired block leaves every pool; the record is logged. -/
def State.dropBlock (s : State) (b : Nat) : State :=
  let b := blockOf b
  if s.ftl.retired.contains b then s
  else
    let s := { s with ftl := { s.ftl with retired := s.ftl.retired ++ [b], pools := s.ftl.pools.erase b,
                                          erasing := s.ftl.erasing.filter (· != b), erased := s.ftl.erased.filter (· != b) } }
    s.log (.pool b none)

/-- Retire a block: it consumes spare (R291). -/
def State.retireBlock (s : State) (b : Nat) : State := (s.dropBlock b).checkSpare

/-- The head keeps its stores: it serves, with placement running, and writes no dump (R670). -/
def State.serving (s : State) : Bool := (s.pair.head == .twin || s.pair.head == .solo) && s.ao.dump.isNone && s.flag (dieM 0) Reg.FTL_CTRL_EN

/-! ## Segments (R275 to R279, R370 to R372) -/

/-- VX5 layout (R372). -/
def SegDesc.vx5 (d : SegDesc) : Bool := decide (0x70000000 ≤ d.segid % 2 ^ 31)

/-- Member that holds a column of a stripe: data 0 to D − 1, P at D, Q at D + 1 (R371, R372). -/
def SegDesc.memberOf (d : SegDesc) (k col : Nat) : Nat :=
  let w := d.width + 2
  if d.vx5 then col
  else
    let p := w - 1 - k % w
    if col = d.width then p else if col = d.width + 1 then (p + 1) % w else (p + 2 + col) % w

/-- Column that a member holds in a stripe. -/
def SegDesc.colOf (d : SegDesc) (k m : Nat) : Nat := ((List.range (d.width + 2)).find? fun c => d.memberOf k c == m).getD 0

/-- Address of a column page's codeword. -/
def SegDesc.cwAddr (d : SegDesc) (k col slot : Nat) : Nat :=
  match d.members[d.memberOf k col]? with
  | some m => maddr m.carrier m.die m.block k slot 0
  | none => 0

/-- Address of the byte at a position of a stripe's data (R261). -/
def SegDesc.dataAddr (d : SegDesc) (k pos : Nat) : Nat := d.cwAddr k (pos / 65536) (pos % 65536 / 4096) + pos / 16 % 65536

/-- The segment that a block is a member of. -/
def State.segOf (s : State) (a : Nat) : Option SegDesc :=
  s.ftl.segs.vals.find? fun d => d.state != .empty && d.members.any fun m => m.addr == blockOf a

/-- The stripe and the position in its data that a pack or page address names, where its fields agree (R261, R308). -/
def State.locate (s : State) (a : Nat) : Option (SegDesc × Nat × Nat) :=
  match s.segOf a with
  | none => none
  | some d => if d.dataAddr (mPage a) (mOff a * 16) = a then some (d, mPage a, mOff a * 16) else none

def State.setSeg (s : State) (d : SegDesc) : State := { s with ftl := { s.ftl with segs := s.ftl.segs.insert d.segid d } }

/-- Width of a new segment: a native reshape's target for all, a VX5 reshape's for its own destinations, else FTL_CTRL.WIDTH (R278,
R397, R404). -/
def State.newWidth (s : State) (source : Option Nat) : Nat :=
  max 4 (min 16 (match s.par.reshape with
    | some r => if r.vx5 && source.isNone then s.fld (dieM 0) Reg.FTL_CTRL_WIDTH else r.target
    | none => s.fld (dieM 0) Reg.FTL_CTRL_WIDTH))

/-- SEGID of the next segment: never in the VX5 range (R372). -/
def State.nextSegid (s : State) : Nat := s.side * 2 ^ 31 + s.ftl.nextSeg % 0x70000000

/-- Data segments that this side may hold open, and those it does (R279). -/
def State.openMax (s : State) : Nat := max 1 (min 8 (s.fld (dieM 0) Reg.FTL_CTRL_OPEN_MAX))
def State.openData (s : State) : Nat :=
  (s.ftl.opens.filter fun o => (s.ftl.segs.find? o.segid).any fun d => d.kind == 0).length

/-- Open a segment (R276, R278): its descriptor is logged. None where fewer than 6 carriers qualify, where
OPEN_MAX data segments are open, or, for a reshape, at free-space level 2 or more (R402). -/
def State.openSegment (s : State) (kind : Nat) (source : Option Nat) : Option (State × SegDesc) :=
  let l := s.pickBlocks false (s.newWidth source + 2) []
  if l.length < 6 ∨ (kind = 0 ∧ s.openMax ≤ s.openData) ∨ (source.isSome ∧ 2 ≤ s.ftl.level) then none
  else
    let dies := l.map fun a => s.die (dieOf a)
    let stripes := dies.foldl (fun n d => if n = 0 then d.pages else min n d.pages) 0
    let d : SegDesc := { segid := s.nextSegid, kind := kind, state := .opened, width := l.length - 2, slc := false, next := 0,
                         stripes := stripes, valid := 0, sealedAt := 0, relocAt := 0,
                         members := l.map fun a => { carrier := mCp a, die := mDie a, block := mBlock a } }
    let s := s.takeBlocks l
    let s := { s with ftl := { s.ftl with nextSeg := s.ftl.nextSeg + 1 } }
    let o : OpenSeg := { segid := d.segid, source := source, buf := [], packs := [], pages := [], since := s.ao.tb, unit := [] }
    let s := { (s.setSeg d) with ftl := { (s.setSeg d).ftl with opens := s.ftl.opens ++ [o] } }
    some (s.log (.segment d), d)

/-- Stripes of a program unit: pages per word line of its dies (R339). -/
def State.unitStripes (s : State) (d : SegDesc) : Nat :=
  match d.members.head? with
  | some m => if d.slc then 1 else max 1 (s.die (dieKey m.carrier m.die)).bpc
  | none => 1

/-- Key of a program unit in flight: segment and first stripe. -/
def progKey (seg k : Nat) : Nat := seg * 65536 + k

/-- Class of a program unit: the first of its packs' classes (R194); 1 for pages. -/
def State.unitClass (s : State) (packs : List Nat) : Nat :=
  match packs.filterMap fun i => (s.dst.packs.find? i).map Pack.cls with
  | [] => 1
  | c :: l => l.foldl min c

/-- Program the stripes of a unit that begins at stripe `k`: one PROGRAM for each member (R339, R371, R373). -/
def State.programUnit (s : State) (d : SegDesc) (k : Nat) (unit : List (Bytes × List Nat × List (Nat × DirEnt))) (pad : Nat) : State :=
  let all := unit.map fun u => (u.1, 0)
  let all := all ++ List.replicate pad ([], 2)
  let idx := List.range all.length
  let pr : Prog := { packs := unit.flatMap fun u => u.2.1, pages := unit.flatMap fun u => u.2.2, acks := [], failed := false }
  let s := { s with ftl := { s.ftl with progs := s.ftl.progs.insert (progKey d.segid k) pr } }
  let cls := s.unitClass pr.packs
  let cols := all.map fun u =>
    let data := (List.range d.width).map fun j => padTo 65536 ((u.1.drop (65536 * j)).take 65536)
    data ++ [parityP data, parityQ data]
  (List.range (d.width + 2)).foldl (fun s m =>
    let cws := (idx.zip (cols.zip all)).flatMap fun icu =>
      let c := d.colOf (k + icu.1) m
      s.pageCws (d.cwAddr (k + icu.1) c 0) d.segid icu.2.2.2 ((icu.2.1[c]?).getD [])
    match d.members[m]? with
    | some mb => s.issue { cp := mb.carrier, req := .program (d.cwAddr k (d.colOf k m) 0) d.slc false cws, cls := cls,
                           why := .unit d.segid k m, since := s.ao.tb }
    | none => s) s

/-- Seal a segment at its next stripe; the descriptor is logged (R276). -/
def State.sealSegment (s : State) (d : SegDesc) : State :=
  let d := { d with state := .sealed, sealedAt := s.ao.tb }
  let s := s.setSeg d
  { s with ftl := { s.ftl with opens := s.ftl.opens.filter fun o => o.segid != d.segid } }.log (.segment d)

/-- End the present stripe of an open segment: with `flush`, or when its program unit is full, the unit is programmed, padded
to its end where it is not full (R279, R339); a segment with no stripe left is sealed. -/
def State.endStripe (s : State) (o : OpenSeg) (flush : Bool) : State :=
  match s.ftl.segs.find? o.segid with
  | none => s
  | some d =>
    let unit := if o.buf.isEmpty && flush then o.unit else o.unit ++ [(o.buf, o.packs, o.pages)]
    let n := s.unitStripes d
    let put := fun (s : State) (o : OpenSeg) =>
      { s with ftl := { s.ftl with opens := s.ftl.opens.map fun x => if x.segid = o.segid then o else x } }
    let o' := { o with buf := [], packs := [], pages := [], since := s.ao.tb }
    if unit.isEmpty then s
    else if unit.length < n ∧ ¬ flush then put s { o' with unit := unit, since := o.since }
    else
      let pad := n - unit.length
      let d' := { d with next := d.next + n }
      let s := put (s.setSeg d') { o' with unit := [] }
      let s := s.programUnit d d.next unit pad
      if d'.stripes < d'.next + n then s.sealSegment d' else s

/-- Room in an open segment's present stripe. -/
def State.roomIn (s : State) (o : OpenSeg) : Nat :=
  match s.ftl.segs.find? o.segid with
  | some d => d.width * 65536 - o.buf.length
  | none => 0

/-- The open segment of a kind and reservation. -/
def State.openOf (s : State) (kind : Nat) (source : Option Nat) : Option OpenSeg :=
  s.ftl.opens.find? fun o => o.source == source && (match s.ftl.segs.find? o.segid with
    | some d => d.kind == kind
    | none => false)

/-- Place bytes in the open segment of a kind, reserving `cap` bytes: the address they take (R261). A stripe that they fill ends (R279). `fuel` 2 tries the present
stripe, then a new stripe or segment. -/
def State.placeBytes (s : State) (kind : Nat) (source : Option Nat) (cap : Nat) (bytes : Bytes)
    (note : OpenSeg → Nat → OpenSeg) : Nat → Option (State × Nat)
  | 0 => none
  | fuel + 1 =>
    match s.openOf kind source with
    | none => match s.openSegment kind source with
      | some (s, _) => s.placeBytes kind source cap bytes note fuel
      | none => none
    | some o => match s.ftl.segs.find? o.segid with
      | none => none
      | some d =>
        if s.roomIn o < cap then (s.endStripe o false).placeBytes kind source cap bytes note fuel
        else
          let a := d.dataAddr (d.next + o.unit.length) o.buf.length
          let since := if o.buf.isEmpty && o.unit.isEmpty then s.ao.tb else o.since
          let o' := note { o with buf := o.buf ++ padMul (if kind = 0 then 16 else 4096) bytes, since := since } a
          let s := { s with ftl := { s.ftl with opens := s.ftl.opens.map fun x => if x.segid = o.segid then o' else x } }
          some (if d.width * 65536 ≤ o'.buf.length then s.endStripe o' false else s, a)

/-- Write a page to the metadata segment: the copy taken when the write starts (R269). -/
def State.writePage (s : State) (pid : Nat) : State :=
  let p := s.page pid
  let bytes := p.body.bytes (s.pageDomain pid)
  let ent : DirEnt := { maddr := 0, crc := (crc32c bytes).toNat, lsn0 := p.lsn0, lsn1 := p.lsn1 }
  match s.placeBytes 1 none 4096 bytes (fun o a => { o with pages := o.pages ++ [(pid, { ent with maddr := a })] }) 4 with
  | some (s, a) =>
    let l := s.ftl.lines.getD pid Line.fresh
    { s with ftl := { s.ftl with lines := s.ftl.lines.insert pid { l with writing := some a, changed := none } } }
  | none => s

end Sys2Proof.Machine
end

