-- ==== Sys2Proof/Machine/Reads.lean ====
section
/-! DEFINITION. Codeword requests with their recovery (R343, R351 to R353), reconstruction (R375, R382), and reads of whole packs
(R211, R246). -/

namespace Sys2Proof.Machine

open Sys2Proof

/-- Note the end of a request within this command. -/
def State.endCw (s : State) (id : Nat) (res : Option Bytes) : State :=
  match s.med.cws.find? id with
  | none => s
  | some c => { s with med := { s.med with cws := s.med.cws.erase id, raws := s.med.raws.filter fun r => r.id != id,
                                           done := s.med.done ++ [(c, res)] } }

def State.setCw (s : State) (id : Nat) (c : CwReq) : State :=
  { s with med := { s.med with cws := s.med.cws.insert id c } }

/-- Read-level entry of a block's next sense (R353). -/
def State.level (s : State) (a : Nat) : Nat := s.med.levels.getD (blockOf a) 0

/-- The block is read with the SLC prefix: a journal, log or stripe-journal block, or a member of an SLC segment. -/
def State.slcAt (s : State) (a : Nat) : Bool :=
  match s.segOf a with
  | some d => d.slc
  | none => true

/-- Send the READ of a request at a read-level entry. -/
def State.sense (s : State) (id : Nat) (c : CwReq) (level : Nat) : State :=
  s.issue { cp := mCp c.addr, req := .read c.addr 1 (c.cls == 0 || c.ro) (s.slcAt c.addr) level, cls := c.cls, why := .read [id],
            since := s.ao.tb }

/-- Columns of a stripe whose member is LOST, slow or out of reach (R380, R382). -/
def State.poorCols (s : State) (d : SegDesc) (k : Nat) : List Nat :=
  (List.range (d.width + 2)).filter fun c => !s.dieDirect (d.cwAddr k c 0)

/-- Column of an address in its segment. -/
def SegDesc.colAt (d : SegDesc) (a : Nat) : Nat :=
  d.colOf (mPage a) ((d.members.findIdx? fun m => m.addr == blockOf a).getD 0)

/-- A new request: its number. -/
def State.newCw (s : State) (addr seg cls : Nat) (why : CwWhy) : State × Nat :=
  let id := s.med.nextId
  let c : CwReq := { addr := addr, seg := seg, cls := cls, ro := false, why := why, step := 0, best := (0, 0), parts := [], missing := [],
                     deferred := [], since := s.ao.tb }
  ({ s with med := { s.med with nextId := id + 1, cws := s.med.cws.insert id c } }, id)

/-- A descriptor that parity can read: WIDTH 4 to 16, no two members on one carrier (R409). -/
def SegDesc.sound (d : SegDesc) : Bool :=
  decide (4 ≤ d.width) && decide (d.width ≤ 16) && d.members.length == d.width + 2 && (d.members.map Member.carrier).eraseDups.length == d.members.length

/-- A slot has more than two erasures (R389, R409): it is counted and reported, and the request ends without data. -/
def State.slotLost (s : State) (id : Nat) : State :=
  match s.med.cws.find? id with
  | none => s
  | some c => ((s.addFld (cpDie (mCp c.addr)) Reg.PAR_ENGINE_UNRECOV 1).exc 0 .slotLost [c.seg, mPage c.addr, mSlot c.addr]).endCw id none

/-- Start the reconstruction of a request from the other members of its stripe (R343, R351 step 4): every other column is
read; columns that cannot be read count as erasures at once. For a class-0 codeword or one of a slow die it is a read-around, on VC1 (R341,
R361). -/
def State.startAround (s : State) (id : Nat) : State :=
  match s.med.cws.find? id with
  | none => s
  | some c => match s.ftl.segs.find? c.seg with
    | none => s.endCw id none
    | some d =>
      let k := mPage c.addr
      let own := d.colAt c.addr
      let others := (List.range (d.width + 2)).filter (· != own)
      let reach := others.filter fun x => !s.par.wrong.contains (d.cwAddr k x (mSlot c.addr)) && s.cpUp (mCp (d.cwAddr k x 0)) && (s.die (dieOf (d.cwAddr k x 0))).used &&
        !(s.die (dieOf (d.cwAddr k x 0))).lost && !s.par.lostCps.contains (mCp (d.cwAddr k x 0))
      let s := s.setCw id { c with step := 200, missing := own :: others.filter fun x => !reach.contains x }
      let around := c.cls == 0 || (s.die (dieOf c.addr)).slow.isSome
      let s := if c.cls = 0 then s.addFld (cpDie (mCp c.addr)) Reg.MED_C0_AROUND 1 else s
      if !d.sound then s.endCw id none
      else if reach.length < d.width then s.slotLost id
      else
        reach.foldl (fun s x =>
          let (s, i) := s.newCw (d.cwAddr k x (mSlot c.addr)) c.seg c.cls (.input id x)
          match s.med.cws.find? i with
          | some ci =>
            let ci := { ci with ro := around }
            (s.setCw i ci).sense i ci (s.level ci.addr)
          | none => s) s

/-- The die holds a class-0 sense of another page row for this head (R343). -/
def State.otherRow (s : State) (a : Nat) : Bool :=
  (s.dieOps (dieOf a)).any fun o => match o.req with
    | .read b _ true _ _ => b / 2 ^ 22 != a / 2 ^ 22
    | _ => false

/-- Ask for a codeword: from its own die, by reconstruction where that die is slow, LOST or out of reach and at most two members
of the stripe are, else from its own die (R361, R380, R382). -/
def State.requestCw (s : State) (addr seg cls : Nat) (why : CwWhy) : State :=
  let (s, id) := s.newCw addr seg cls why
  match s.med.cws.find? id with
  | none => s
  | some c =>
    let poor := match s.ftl.segs.find? seg with
      | some d => s.poorCols d (mPage addr)
      | none => []
    if s.par.wrong.contains (addr / 65536 * 65536) then s.startAround id
    else if s.dieDirect addr && cls == 0 && s.otherRow addr then s.startAround id
    else if s.dieDirect addr then s.sense id c (s.level addr)
    else if poor.length ≤ 2 then s.startAround id
    else if s.cpUp (mCp addr) then s.sense id c (s.level addr)
    else s.startAround id

/-- Take a column into a reconstruction, or count it as an erasure; with enough columns the codeword is complete, with more than
two erasures it is lost (R375, R389, R409). -/
def State.giveInput (s : State) (id col : Nat) (res : Option Bytes) : State :=
  match s.med.cws.find? id with
  | none => s
  | some c => match s.ftl.segs.find? c.seg with
    | none => s.endCw id none
    | some d =>
      let c := match res with
        | some b => { c with parts := c.parts.insert col b }
        | none => { c with missing := if c.missing.contains col then c.missing else c.missing ++ [col] }
      let own := d.colAt c.addr
      let die := cpDie (mCp c.addr)
      let s := s.setCw id c
      if 2 < c.missing.length then s.slotLost id
      else if d.width ≤ c.parts.length then
        match reconstruct d.width c.parts with
        | some cols =>
          let s := { s with med := { s.med with cws := s.med.cws.keep fun _ r => match r.why with
            | .input p _ => p != id
            | _ => true } }
          let s := if c.cls = 0 then s.maxFld die Reg.MED_C0_MAXLAT_NS (s.ao.tb - c.since) else s
          (s.addFld die Reg.PAR_ENGINE_RECON 1).endCw id (cols[own]?)
        | none => s
      else s

/-- Pass the ended inputs on to their reconstructions; `fuel` bounds their number. -/
def State.settleInputs (s : State) : Nat → State
  | 0 => s
  | fuel + 1 =>
    match s.med.done.find? fun d => match d.1.why with
      | .input _ _ => true
      | _ => false with
    | none => s
    | some d =>
      let s := { s with med := { s.med with done := s.med.done.erase d } }
      match d.1.why with
      | .input id col => (s.giveInput id col d.2).settleInputs fuel
      | _ => s

/-- Post a block for refresh (R353). -/
def State.refresh (s : State) (a : Nat) : State := s.exc 0 .refresh [blockOf a]

/-- The step of a request after a decode that gave nothing readable (R351, R352). `unsat` counts the checks not met. -/
def State.nextStep (s : State) (id unsat : Nat) : State :=
  match s.med.cws.find? id with
  | none => s
  | some c =>
    let die := cpDie (mCp c.addr)
    let n := (s.die (dieOf c.addr)).retryN
    let tries := min (s.fld die Reg.LDP_CTRL_RETRY_MAX) n
    let lvl := (s.level c.addr + c.step) % (n + 1)
    let best := if c.step = 0 ∨ unsat < c.best.2 then (lvl, unsat) else c.best
    let c := { c with best := best }
    let par := fun (s : State) => (s.addFld die Reg.LDP_RECOV_TO_PARITY 1).startAround id
    let isInput : Bool := match c.why with
      | .input _ _ => true
      | _ => false
    if c.cls == 0 && !isInput then
      if c.step = 0 then
        let s := par (s.setCw id c)
        s.requestCw c.addr c.seg 7 .update
      else s
    else if c.step < tries then
      (s.setCw id { c with step := c.step + 1 }).sense id { c with step := c.step + 1 } ((s.level c.addr + c.step + 1) % (n + 1))
    else if c.step < 100 then
      let s := s.setCw id { c with step := 100 }
      s.issue { cp := mCp c.addr, req := .readSoft c.addr 1 (c.cls == 0 || c.ro) (s.slcAt c.addr) best.1, cls := c.cls, why := .read [id],
                since := s.ao.tb }
    else
      let s := s.refresh c.addr
      match c.why with
      | .input _ _ | .update => s.endCw id none
      | _ => par (s.setCw id c)

/-- A readable codeword: counters, the block's read level, refresh; the request ends with its data. -/
def State.cwGood (s : State) (id bits : Nat) (data : Bytes) : State :=
  match s.med.cws.find? id with
  | none => s
  | some c =>
    let die := cpDie (mCp c.addr)
    let n := (s.die (dieOf c.addr)).retryN
    let lvl := if c.step < 100 then (s.level c.addr + c.step) % (n + 1) else c.best.1
    let s := s.maxFld die Reg.LDP_MISC_MAXBITS bits
    let s := if c.step = 0 then s.addFld die Reg.LDP_STAT_HARD_OK 1
      else if c.step < 100 then s.addFld die Reg.LDP_RECOV_RETRY_OK 1
      else if c.step < 200 then s.addFld die Reg.LDP_RECOV_SOFT_OK 1 else s
    let s := { s with med := { s.med with levels := s.med.levels.putD (blockOf c.addr) lvl 0 } }
    let s := if s.fld die Reg.LDP_CTRL_REFRESH_BITS < bits ∨ 0 < c.step ∧ c.step < 200 then s.refresh c.addr else s
    let s := if c.cls = 0 then s.maxFld die Reg.MED_C0_MAXLAT_NS (s.ao.tb - c.since) else s
    s.endCw id (some data)

/-! ## Reads of packs -/

/-- Codeword `i` of a pack from its first: address, none beyond the stripe's data; a pack of a VX5
segment may go on in the next stripe (R404). -/
def State.packCw (s : State) (a i : Nat) : Option (Nat × Nat) :=
  match s.locate a with
  | none => none
  | some (d, k, pos) =>
    let p := pos / 4096 + i
    let k' := k + p / (d.width * 16)
    let q := p % (d.width * 16)
    if k' = k ∨ (d.vx5 ∧ k' < d.next) then some (d.cwAddr k' (q / 16) (q % 16), d.segid) else none

/-- Ask for the codewords of a pack from `n` on up to `m`; those of a pack found malformed are recovered from the other members of their
stripe (R246). -/
def State.askPack (s : State) (rd : Nat) (r : PackRd) (n m : Nat) : State :=
  ((List.range m).drop n).foldl (fun s i => match s.packCw r.maddr i with
    | some (a, seg) =>
      if r.again then
        let (s, id) := s.newCw a seg r.cls (.pack rd i)
        s.startAround id
      else s.requestCw a seg r.cls (.pack rd i)
    | none => { s with med := { s.med with done := s.med.done ++
        [({ addr := r.maddr, seg := 0, cls := r.cls, ro := false, why := .pack rd i, step := 0, best := (0, 0), parts := [], missing := [],
            deferred := [], since := 0 }, none)] } }) s

/-- Codewords that `len` bytes of a pack at an address touch. -/
def cwSpan (a len : Nat) : Nat := (mOff a * 16 % 4096 + len + 4095) / 4096

/-- Read a pack for a user: joined to a read of the same pack in progress, else the codewords of its envelope are asked for. -/
def State.readPack (s : State) (a chunk domain cls tile : Nat) (u : RdUser) : State :=
  match List.find? (fun kr : Nat × PackRd => kr.2.maddr == a && kr.2.env.isNone) s.med.rds with
  | some (k, r) => { s with med := { s.med with rds := s.med.rds.insert k { r with users := r.users ++ [u] } } }
  | none =>
    let id := s.med.nextId
    let w := cwSpan a 32
    let r : PackRd := { maddr := a, domain := domain, chunk := chunk, cls := cls, tile := tile, cws := [], want := w, env := none,
                        plain := none, again := false, users := [u] }
    let s := { s with med := { s.med with nextId := id + 1, rds := s.med.rds.insert id r } }
    s.askPack id r 0 w

/-- The bytes of a pack that the codewords read so far give, from its envelope on. -/
def PackRd.bytes (r : PackRd) : Bytes :=
  ((List.range r.want).flatMap fun i => padTo 4096 (r.cws.getD i [])).drop (mOff r.maddr * 16 % 4096)

/-- A codeword of a pack read has come: when the envelope is there the rest is asked for; when all is there the pack is whole
and waits for decryption (R218). -/
def State.packPart (s : State) (rd i : Nat) (b : Bytes) : State :=
  match s.med.rds.find? rd with
  | none => s
  | some r =>
    let r := { r with cws := r.cws.insert i b }
    let have_ := (List.range r.want).all fun i => r.cws.has i
    let size := 32 + roundUp (leAt r.bytes 12 4) 16
    let want := cwSpan r.maddr (min size 65600)
    let put := fun (s : State) (r : PackRd) => { s with med := { s.med with rds := s.med.rds.insert rd r } }
    if !have_ then put s r
    else if r.want < want then (put s { r with want := want }).askPack rd { r with want := want } r.want want
    else put s { r with env := some (r.bytes.take (min size 65600)) }

end Sys2Proof.Machine
end

