-- ==== Sys2Proof/Machine/RdmaTx.lean ====
section
/-! DEFINITION. Sending on a queue pair: PSNs, packets kept until acknowledged, frames of the transmit buffer (R425, R439, R442). -/

namespace Sys2Proof.Machine

open Sys2Proof

/-- Side that created a queue pair (R440). -/
def qpSide (qpn : Nat) : Nat := qpn / 2 ^ 23 % 2

/-- PSNs are 24 bits. -/
def psnAdd (a n : Nat) : Nat := (a + n) % 2 ^ 24

/-- Distance from one PSN to another, forward. -/
def psnDist (a b : Nat) : Nat := (b + 2 ^ 24 - a % 2 ^ 24) % 2 ^ 24

def State.qp (s : State) (qpn : Nat) : Option Qp := s.rdma.qps.find? qpn

def State.setQp (s : State) (qpn : Nat) (q : Qp) : State := { s with rdma := { s.rdma with qps := s.rdma.qps.insert qpn q } }

def State.fport (s : State) (p : Nat) : Port := s.rdma.ports.getD p .reset

def State.setFport (s : State) (p : Nat) (x : Port) : State :=
  { s with rdma := { s.rdma with ports := s.rdma.ports.putD p x .reset } }

/-- Priority of a class on a port (R425, R460). -/
def State.prioOf (s : State) (p cls : Nat) : Nat := s.fld (portDie p) { Reg.MAC_PRIO_PRIO_c.plus (portOff p) with lo := 3 * cls, w := 3 }

/-- The port holds a frame of a priority back (R430). -/
def Port.held (x : Port) (now prio : Nat) : Bool :=
  match x.hold.find? prio with
  | some (till, _) => decide (now < till)
  | none => false

/-- Some class of the port is held (R430). -/
def Port.anyHeld (x : Port) (now : Nat) : Bool := x.hold.any fun h => decide (now < h.2.1)

/-- A front port has link. -/
def State.hasLink (s : State) (p : Nat) : Bool := s.flag (portDie p) (Reg.MAC_STATUS_LINK.plus (portOff p))

/-- A field of a port's own registers. -/
def State.portFld (s : State) (p : Nat) (f : Fld) : Nat := s.fld (portDie p) (f.plus (portOff p))

def State.setPortFld (s : State) (p : Nat) (f : Fld) (v : Nat) : State := s.setFld (portDie p) (f.plus (portOff p)) v

/-- Counter `i` of R432. -/
def State.portCount (s : State) (p i n : Nat) : State := s.addFld (portDie p) (Reg.MAC_CNT_COUNT.plus (portOff p + 8 * i)) n

/-- Count the time in which a class has been held into TX_HOLD_NS, up to now. -/
def State.accrueHold (s : State) (p : Nat) : State :=
  let x := s.fport p
  match x.holdAt with
  | none => s
  | some t =>
    let till := x.hold.foldl (fun n h => max n h.2.1) 0
    let upto := min s.ao.tb till
    (s.portCount p 13 (upto - t)).setFport p { x with holdAt := if s.ao.tb < till then some s.ao.tb else none }

/-- Bytes per millisecond at the line rate of a front port (R411, R413). -/
def State.lineBytesPerMs (s : State) (p : Nat) : Nat :=
  match s.portFld p Reg.MAC_CFG_MODE with
  | 2 => 50000000
  | 3 => 25000000
  | _ => 100000000

/-- Line rate of a front port in Mb/s. -/
def State.lineRate (s : State) (p : Nat) : Rat := ((s.lineBytesPerMs p * 8 / 1000 : Nat) : Rat)

def sessKey (fdie session : Nat) : Nat := fdie * 2 ^ 32 + session

/-- The rate state that limits a frame (R447, R482). -/
def State.ccOf (s : State) : CcWho → Option Cc
  | .qp n => (s.qp n).map Qp.cc
  | .path f k p => (s.pgt.sess.find? (sessKey f k)).bind fun x => (x.paths.find? p).map PgPath.cc

/-- Time that a frame takes at the rate of its queue pair or path, where that lies below the line rate (R447). Class 0 is not limited. -/
def State.gap (s : State) (p : Nat) (f : TxFrame) : Option (CcWho × Nat) :=
  if f.cls = 0 then none
  else f.who.bind fun w => (s.ccOf w).bind fun c =>
    if s.lineRate p ≤ c.rate then none else some (w, s.ao.tb + (((f.size * 8000 : Nat) : Rat) / c.rate).ceil.toNat)

/-- The rate of its queue pair or path holds a frame back (R447). -/
def Port.waits (x : Port) (now : Nat) (f : TxFrame) : Bool := x.paced.any fun w => f.who == some w.1 && decide (now < w.2)

/-- Take out the first frame that a test picks; `gap` says until when the next of the same queue pair or path waits. -/
def Port.start (x : Port) (now : Nat) (gap : TxFrame → Option (CcWho × Nat)) (p : TxFrame → Bool) : Port :=
  let f := x.txq.find? p
  { x with sending := f, txq := x.txq.eraseP p, paced := x.paced.filter (fun w => decide (now < w.2)) ++ (f.bind gap).toList }

/-- What a frame carries as it leaves: the port's VLAN identifier, the priority of its class as its PCP, the DSCP of that priority, and
ECT(0) on a RoCEv2 packet while RDM_CC.ECT is 1 (R416, R426). -/
def State.frameOut (s : State) (p : Nat) (f : TxFrame) : Out :=
  let vlan := s.portFld p Reg.MAC_CFG_VLAN_ID
  let prio := s.prioOf p f.cls
  let dscp := s.portFld p { Reg.MAC_DSCP_DSCP_p with lo := 6 * prio, w := 6 }
  let roce := match f.who with
    | some (.qp _) => true
    | _ => false
  .frame (p / 4) (p % 4) f vlan (if vlan = 0 then 0 else prio) (if f.ip then dscp else 0)
    (if roce && s.flag (portDie p) Reg.RDM_CC_ECT then 2 else 0)

/-- A planned handover that has reached its step 2 stops a frame of a listed port: every frame, and in a handback those of the adopted
queue pairs and addresses (R158, R159 step 9). -/
def State.txStopped (s : State) (p : Nat) (f : TxFrame) : Bool :=
  match s.pair.giving with
  | some (1, ports, shards) => ports.contains p && (!shards.isEmpty || f.adopted)
  | _ => false

/-- The transmitter, when free, chooses its next frame: MAC control frames, then class 0, then classes 1 to 7 by the weights of R62;
a held class is skipped (R425, R430), and so is a queue pair or path that its rate holds back (R447). It sends nothing without link (R455) or while the head may not transmit (R456), and no frame that
a handover stops (R158). -/
def State.startTx (s : State) (p : Nat) : State :=
  let x := s.fport p
  if x.sending.isSome || !s.hasLink p || !s.mayTransmit then s
  else
    let isControl := fun (f : TxFrame) => f.control && !s.txStopped p f
    let ofClass := fun (c : Nat) (f : TxFrame) => !f.control && f.cls == c && !s.txStopped p f && !x.waits s.ao.tb f
    let start := x.start s.ao.tb (s.gap p)
    if x.txq.any isControl then s.setFport p (start isControl)
    else
      let can := fun (c : Nat) => !x.held s.ao.tb (s.prioOf p c) && x.txq.any (ofClass c)
      if can 0 then s.setFport p (start (ofClass 0))
      else match wrrNext 8 (s.cweight (portDie p)) (fun c => c != 0 && can c) x.turn with
        | some (c, turn) => s.setFport p { start (ofClass c) with turn := turn }
        | none => s

/-- Put a frame in a port's transmit buffer (R424). -/
def State.queueFrame (s : State) (p : Nat) (f : TxFrame) : State :=
  let x := s.fport p
  (s.setFport p { x with txq := x.txq ++ [f] }).startTx p

/-- Front port of a queue pair. -/
def Qp.fp (q : Qp) : Nat := q.fdie * 4 + q.e.port % 4

/-- Packets that a length takes at the path MTU: at least one. -/
def Qp.pkts (q : Qp) (len : Nat) : Nat := max 1 ((len + max 1 q.e.mtu - 1) / max 1 q.e.mtu)

/-- Bytes of a RoCEv2 frame: Ethernet header, tag, IP, UDP, BTH, extension headers and payload, ICRC, FCS. -/
def State.frameSize (s : State) (q : Qp) (ext len : Nat) : Nat :=
  let tag := if s.fld (portDie q.fp) (Reg.MAC_CFG_VLAN_ID.plus (portOff q.fp)) = 0 then 0 else 4
  max 64 (14 + tag + (if q.e.ipv6 then 40 else 20) + 8 + 12 + ext + roundUp len 4 + 4 + 4)

/-- Extension headers and payload of what is sent: RETH 16, invalidate key 4, a response capsule 16. -/
def SentKind.sizes : SentKind → Nat × Nat
  | .readReq _ _ _ => (16, 0)
  | .write _ off b => (if off = 0 then 16 else 0, b.length)
  | .probe => (16, 0)
  | .send _ _ _ _ _ _ inv => (if inv then 4 else 0, 16)

/-- The first packet of what is sent, as it leaves; a READ asks for what has not come. -/
def SentPkt.out (x : SentPkt) (qpn mtu : Nat) : Out :=
  match x.kind with
  | .readReq tag len got => .rdmaRead qpn (psnAdd x.psn (got.length / max 1 mtu)) tag got.length (len - got.length)
  | .write tag off b => .rdmaWrite qpn x.psn tag off b
  | .probe => .probe qpn x.psn
  | .send _ cntlid qid cid st dw0 inv => .response qpn x.psn cntlid qid cid st dw0 inv

/-- A packet of a queue pair goes into its port's transmit buffer. -/
def State.sendPkt (s : State) (qpn : Nat) (q : Qp) (x : SentPkt) : State :=
  let z := x.kind.sizes
  (s.queueFrame q.fp { cls := q.e.cls, control := false, size := s.frameSize q z.1 z.2, qp := some (qpn, x.psn),
                       adopted := qpSide qpn != s.side, ip := true, who := some (.qp qpn) }).emit (x.out qpn q.e.mtu)

/-- A packet of a queue pair that takes no PSN: an Acknowledge (with AETH), a CNP. -/
def State.sendBare (s : State) (q : Qp) (ext len : Nat) (o : Out) : State :=
  (s.queueFrame q.fp { cls := q.e.cls, control := false, size := s.frameSize q ext len, qp := none,
                       adopted := qpSide q.e.qpn != s.side, ip := true, who := some (.qp q.e.qpn) }).emit o

/-- Acknowledge to the host up to a PSN (R140, R449). -/
def State.sendAck (s : State) (qpn : Nat) (q : Qp) (psn : Nat) : State :=
  let q := { q with ackSent := psn }
  (s.setQp qpn q).sendBare q 4 0 (.rdmaAck qpn psn)

/-- A NAK to the host, counted (R449, R457). -/
def State.sendNak (s : State) (q : Qp) (o : Out) : State :=
  (s.addFld (dieF q.fdie) (Reg.RDM_CNT_COUNT.plus 16) 1).sendBare q 4 0 o

/-- Send something on a queue pair with a PSN: `n` PSNs, kept until acknowledged. -/
def State.sendAt (s : State) (qpn : Nat) (q : Qp) (psn n : Nat) (k : SentKind) : State :=
  let x : SentPkt := { psn := psn, n := n, kind := k }
  let q := { q with sent := q.sent ++ [x], lastTx := s.ao.tb }
  (s.setQp qpn q).sendPkt qpn q x

/-- Send something on a queue pair from its next send PSN. -/
def State.sendQp (s : State) (qpn n : Nat) (k : SentKind) : State :=
  match s.qp qpn with
  | none => s
  | some q => if q.error then s else s.sendAt qpn { q with spsn := psnAdd q.spsn n } q.spsn n k

/-- Key of a ledger record: command tag and phase. -/
def ledgerKey (tag : Nat) (ph : Phase) : Nat := tag * 4 + (match ph with
  | .readRequests => 0
  | .readData => 1
  | .response => 2)

/-- PSN `a` lies before PSN `b`. -/
def psnBefore (a b : Nat) : Bool := decide (0 < psnDist a b) && decide (psnDist a b < 2 ^ 23)

def Resv.is (r : Resv) (tag : Nat) (ph : Phase) : Bool := r.tag == tag && r.phase == ph

/-- The PSNs of a ledgered phase of a command that has not been sent. -/
def Qp.resvOf (q : Qp) (tag : Nat) (ph : Phase) : Option Resv := q.resv.find? fun r => r.is tag ph

/-- A phase of a command may be sent: nothing that is ledgered stands before it on its queue pair. A phase of an adopted command that is
not among those left to send is one that the host has whole (R147). -/
def State.mayStart (s : State) (qpn tag : Nat) (ph : Phase) : Bool :=
  (s.qp qpn).all fun q => match q.resv with
    | [] => true
    | r :: _ => r.is tag ph || ((q.resvOf tag ph).isNone && s.pair.ledger.has (ledgerKey tag ph))

/-- Send packet `i` of a phase of a command. A ledgered phase has its PSNs already (R142, R147): of one that the failed head had
ledgered, a packet goes only from the PSN that the host expects. -/
def State.sendPhase (s : State) (tag : Nat) (ph : Phase) (i qpn n : Nat) (k : SentKind) : State :=
  match s.qp qpn with
  | none => s
  | some q => match q.resvOf tag ph with
    | some r =>
      let psn := psnAdd r.psn i
      if q.error || (ph != .readRequests && psnBefore psn (psnAdd q.acked 1)) then s else s.sendAt qpn q psn n k
    | none => if s.pair.ledger.has (ledgerKey tag ph) then s else s.sendQp qpn n k

/-- A phase has been sent. -/
def State.phaseSent (s : State) (qpn tag : Nat) (ph : Phase) : State :=
  match s.qp qpn with
  | some q => if (q.resvOf tag ph).isSome then s.setQp qpn { q with resv := q.resv.filter fun r => !r.is tag ph } else s
  | none => s

/-- A ledgered phase is still to be sent. -/
def State.resvLive (s : State) (r : Resv) : Bool :=
  match s.host.cmds.find? r.tag with
  | none => false
  | some c => match r.phase with
    | .readRequests => c.result.isNone && c.data.isNone && !c.begun
    | .readData => c.result.isNone && !c.sentData
    | .response => !c.mute

/-- The ledger of a phase has gone, is acknowledged, or must be sent anew. -/
def Cmd.setLed (c : Cmd) (ph : Phase) (l : Led) : Cmd :=
  match ph with
  | .readRequests => { c with fetchLedger := l }
  | .readData => { c with dataLedger := l }
  | .response => { c with respLedger := l }

/-- A ledgered phase that will not be sent gives its PSNs back, and the phases behind it on the queue pair are ledgered anew, with the
PSNs they now have (R142). Nothing moves on an adopted queue pair whose probe is out (R147). -/
def State.trimResv (s : State) (qpn : Nat) : State :=
  match s.qp qpn with
  | none => s
  | some q =>
    let keep := q.resv.takeWhile s.resvLive
    match q.resv.drop keep.length with
    | [] => s
    | r :: rest =>
      if q.probes ≠ 0 then s
      else
        let next := psnAdd q.acked 1
        let s := s.setQp qpn { q with resv := keep, spsn := if psnBefore r.psn next then next else r.psn }
        rest.foldl (fun s x => { s with host := { s.host with cmds := s.host.cmds.adjust x.tag fun c => c.setLed x.phase .idle } }) s

/-- Send data to the host by RDMA WRITE in packets of the path MTU: packet `i` on, from an offset. -/
def State.sendData (s : State) (qpn tag i : Nat) : Nat → List Bytes → State
  | _, [] => s
  | off, b :: l => (s.sendPhase tag .readData i qpn 1 (.write tag off b)).sendData qpn tag (i + 1) (off + b.length) l

/-- RDMA WRITE packets of a command wait for the host's acknowledgement. No WRITE may follow its completion (R452), and a rejected one
fails the command (R450), so its response waits for them. -/
def State.dataOut (s : State) (qpn tag : Nat) : Bool :=
  (s.qp qpn).any fun q => q.sent.any fun x => match x.kind with
    | .write t _ _ => t == tag
    | _ => false

/-- Another RDMA READ may be outstanding (R442 ORD). -/
def State.mayRead (s : State) (qpn : Nat) : Bool :=
  (s.qp qpn).all fun q => decide ((q.sent.filter fun x => match x.kind with
    | .readReq _ _ _ => true
    | _ => false).length < max 1 q.e.ord)

/-- Rate state of a new or adopted context: the line rate, a = 1 (R447). -/
def Cc.fresh (rate : Rat) (now : Nat) : Cc :=
  { rate := rate, target := rate, alpha := 1, lastDec := now, lastInc := now, lastAlpha := now, lastCnp := none, steps := 0 }

/-- A queue pair that has just been created or adopted: rate `rate` in Mb/s (R442, R447). -/
def Qp.fresh (e : QpExport) (fdie : Nat) (rate : Rat) (now : Nat) : Qp :=
  { e := e, fdie := fdie, error := false, epsn := e.epsn, spsn := e.spsn, sent := [], resv := [], held := [], heldSince := none, heldR := [],
    heldRSince := none, asm := none, owed := [], acked := psnAdd e.spsn (2 ^ 24 - 1), ackSent := psnAdd e.epsn (2 ^ 24 - 1),
    onDie := true, pinned := false, used := 0, fetching := false, retries := 0, rnr := 0, lastTx := now,
    cnpSent := none, cc := Cc.fresh rate now, probes := 0, probeAt := none }

/-- C0_PIN_MAX: above 0x800 it acts as 0x800 (R461). -/
def State.pinMax (s : State) (fdie : Nat) : Nat := min 0x800 (s.fld (dieF fdie) Reg.RDM_CTRL_C0_PIN_MAX)

/-- Pieces of the path MTU; an empty string is one empty packet. -/
def mtuPieces (mtu : Nat) (l : Bytes) : List Bytes := if l.isEmpty then [[]] else pieces (max 1 mtu) l

end Sys2Proof.Machine
end

