-- ==== Sys2Proof/Machine/PgtTx.lean ====
section
/-! DEFINITION. The sending side of the Pronghorn transport (R474 to R482): sessions, messages cut into slots, paths, and packets that
wait for a GCM lane; JREC messages of a synchronous session (R488). -/

namespace Sys2Proof.Machine

open Sys2Proof

/-! ## Sessions -/

def State.sess (s : State) (k : Nat) : Option Sess := s.pgt.sess.find? k

def State.setSess (s : State) (k : Nat) (x : Sess) : State := { s with pgt := { s.pgt with sess := s.pgt.sess.insert k x } }

/-- Counter `i` of an F-die's PGT block (R494). -/
def State.pgCount (s : State) (fdie i n : Nat) : State := s.addFld (dieF fdie) (Reg.PGT_CNT_COUNT.plus (8 * i)) n

/-- PAYLOAD: below 1,024 it acts as 1,024 (R494). -/
def State.pgPayload (s : State) (fdie : Nat) : Nat := max 1024 (s.fld (dieF fdie) Reg.PGT_CFG_PAYLOAD)

/-! ## Paths (R478) -/

/-- Every path of a session: `port * 16 + index of the UDP source port`. -/
def SessDesc.allPaths (d : SessDesc) : List Nat :=
  (List.range d.paths).flatMap fun i => ((List.range 4).filter fun p => d.ports / 2 ^ p % 2 == 1).map fun p => p * 16 + i

/-- A path that has carried nothing. -/
def PgPath.fresh (rate : Rat) (now : Nat) : PgPath := { bad := 0, quar := none, cc := Cc.fresh rate now }

def State.path (s : State) (x : Sess) (p : Nat) : PgPath := x.paths.getD p (PgPath.fresh 0 s.ao.tb)

/-- Paths that are not quarantined. -/
def Sess.active (x : Sess) : List Nat := x.d.allPaths.filter fun p => !(x.paths.find? p).any fun y => y.quar.isSome

/-- The next active path in rotation, and the turn after it. -/
def Sess.nextPath (x : Sess) : Nat × Nat :=
  let l := x.d.allPaths
  let n := l.length
  let order := (List.range n).map fun i => (x.turn + i) % max 1 n
  match order.find? fun i => x.active.contains (l.getD i 0) with
  | some i => (l.getD i 0, i + 1)
  | none => (l.getD (x.turn % max 1 n) 0, x.turn + 1)

/-- Report packets of a path missing, or one of them arrived: 8 consecutive missing ones quarantine it for 100 ms; with every path
quarantined the quarantine ends for all. -/
def State.pathReport (s : State) (k p : Nat) (missing : Bool) : State :=
  match s.sess k with
  | none => s
  | some x =>
    let y := s.path x p
    if !missing then s.setSess k { x with paths := x.paths.insert p { y with bad := 0 } }
    else if y.bad + 1 < 8 ∨ y.quar.isSome then s.setSess k { x with paths := x.paths.insert p { y with bad := y.bad + 1 } }
    else
      let x := { x with paths := x.paths.insert p { y with bad := 0, quar := some s.ao.tb } }
      let x := if x.active.isEmpty then { x with paths := x.paths.mapV fun _ y => { y with quar := none } } else x
      (s.setSess k x).pgCount x.fdie 9 1

/-! ## Packets and messages -/

/-- A packet of a session joins those that wait for a GCM lane of its tile. -/
def State.pgPacket (s : State) (x : Sess) (path : Nat) (hdr : PgHdr) (slot : Nat) (payload : Bytes) : State :=
  let p : PgTx := { fdie := x.fdie, session := x.d.session, port := x.fdie * 4 + path / 16, slot := slot, payload := payload,
                    hdr := { hdr with ver := 1, path := path % 16, session := x.d.session, plen := payload.length } }
  { s with pgt := { s.pgt with tx := s.pgt.tx ++ [p] } }

def PgHdr.blank (ty : Nat) : PgHdr :=
  { ver := 1, ty := ty, flags := 0, path := 0, session := 0, msgno := 0, mlen := 0, offset := 0, plen := 0, ce := 0, iv := [] }

/-- Slots that a message takes (R477). -/
def State.slotCount (s : State) (fdie len : Nat) : Nat := (len + s.pgPayload fdie - 1) / s.pgPayload fdie

/-- Send one slot of a message that is out, on the next path. -/
def State.sendSlot (s : State) (k msgno slot : Nat) (retx : Bool) : State :=
  match s.sess k with
  | none => s
  | some x => match x.outs.find? msgno with
    | none => s
    | some m =>
      let pl := s.pgPayload x.fdie
      let b := (m.bytes.drop (slot * pl)).take pl
      let last := decide (m.bytes.length ≤ slot * pl + pl)
      let (p, turn) := x.nextPath
      let hdr := { PgHdr.blank 1 with flags := (if last then 1 else 0) + (if retx then 2 else 0), msgno := msgno, mlen := m.bytes.length,
                                      offset := slot * pl }
      let m := { m with left := m.left + 1, slotPath := m.slotPath.insert slot p }
      let x := { x with turn := turn, outs := x.outs.insert msgno m }
      (s.setSess k x).pgPacket x p hdr slot b

/-- Send every slot of a message. -/
def State.sendSlots (s : State) (k msgno : Nat) (retx : Bool) : State :=
  match (s.sess k).bind fun x => (x.outs.find? msgno).map fun m => s.slotCount x.fdie m.bytes.length with
  | some n => (List.range n).foldl (fun s i => s.sendSlot k msgno i retx) s
  | none => s

/-- Send waiting messages while fewer than 256 are out at or above CUM (R480). -/
def State.pgFlush (s : State) (k : Nat) : Nat → State
  | 0 => s
  | fuel + 1 => match s.sess k with
    | none => s
    | some x => match x.queue with
      | [] => s
      | b :: l =>
        if x.cum + 256 ≤ x.nextMsg then s
        else
          let n := x.nextMsg
          let m : PgOut := { bytes := b, left := 0, sentAt := none, heardAt := 0, slotPath := [] }
          ((s.setSess k { x with nextMsg := n + 1, queue := l, outs := x.outs.insert n m }).sendSlots k n false).pgFlush k fuel

/-- Send a message on a session. -/
def State.sendMsg (s : State) (k : Nat) (b : Bytes) : State :=
  match s.sess k with
  | none => s
  | some x => (s.setSess k { x with queue := x.queue ++ [b] }).pgFlush k (x.queue.length + 1)

/-- The replication header (R483). -/
def repHead (kind batch rnsid count : Nat) : Bytes := le 1 kind ++ zeros 3 ++ le 4 batch ++ le 4 rnsid ++ le 4 count

/-- Longest message (R475). -/
def maxMsg : Nat := 16777216

/-! ## Synchronous replication at the source (R488 to R490) -/

/-- TAG of the remote record of a journal record (R489). -/
def JRec.jtag (r : JRec) : Nat := 0xFFFF * 2 ^ 48 + r.side % 2 * 2 ^ 47 + r.seq % 2 ^ 47

/-- The synchronous session of a namespace on this head. -/
def State.syncSess (s : State) (nsid : Nat) : Option (Nat × Sess) :=
  List.find? (fun kx : Nat × Sess => kx.2.d.sync && kx.2.d.nsid == nsid) s.pgt.sess

/-- Send a journal record to the remote pair: its completion waits for the JACK. -/
def State.sendJrec (s : State) (k : Nat) (r : JRec) : State :=
  match s.sess k with
  | none => s
  | some x =>
    let j := r.jtag % 2 ^ 48
    let x := { x with jrecs := if x.jrecs.has j then x.jrecs else x.jrecs.insert j s.ao.tb }
    (s.setSess k x).sendMsg k (repHead 7 0 x.d.rnsid 1 ++ r.bytes)

/-- Mark whether a journal record of this head, or an adopted one, waits for a JACK. -/
def State.setJack (s : State) (side seq : Nat) (jack : Bool) : State :=
  if side = s.side then { s with jrnl := { s.jrnl with own := s.jrnl.own.adjust seq fun e => { e with jack := jack } } }
  else { s with jrnl := { s.jrnl with mirror := s.jrnl.mirror.adjust seq fun e => { e with jack := jack } } }

/-- A record has been appended: of a synchronous session that is not DEGRADED it goes to the remote pair. -/
def State.replicate (s : State) (r : JRec) : State :=
  if r.tag / 2 ^ 48 = 0xFFFF then s
  else match s.syncSess r.nsid with
    | some (k, x) => if x.degraded then s else (s.setJack r.side r.seq false).sendJrec k r
    | none => s

/-- A session becomes DEGRADED (R490): the records that wait for its JACK wait no longer. -/
def State.degrade (s : State) (k : Nat) : State :=
  match s.sess k with
  | none => s
  | some x =>
    let s := x.jrecs.keys.foldl (fun s j => s.setJack (j / 2 ^ 47) (j % 2 ^ 47) true) s
    s.setSess k { x with degraded := true, jrecs := [] }

/-! ## Chunks that the remote pair needs (R485) -/

/-- A chunk has been read for a session, or cannot be: it is then left out. -/
def State.replPart (s : State) (k i : Nat) (b : Option Bytes) : State :=
  match s.sess k with
  | none => s
  | some x => match x.src with
    | none => s
    | some c =>
      let c := match b with
        | some b => { c with parts := c.parts.insert i b }
        | none => { c with want := c.want.map fun l => l.filter (· != i) }
      s.setSess k { x with src := some c }

end Sys2Proof.Machine
end

