-- ==== Sys2Proof/Machine/Locks.lean ====
section
/-! DEFINITION. Shards and hashes (R716), range locks (R68 to R74), and where the blocks and values of a read come from (R138,
R171, R258, R469, R472). -/

namespace Sys2Proof.Machine

open Sys2Proof

/-! ## Hashes (R716) -/

def shardOf (nsid lba : Nat) : Nat := (crc32c (le 4 nsid ++ le 8 (lba / 2 ^ 20))).toNat % 256

def keyHash (nsid : Nat) (k : Key) : Nat := (crc64 (le 4 nsid ++ le 1 k.length ++ k)).toNat

def keyShard (nsid : Nat) (k : Key) : Nat := keyHash nsid k % 256

/-- The parts of a range of blocks that lie in one shard each, in ascending LBA order. -/
def rangeParts (nsid slba nlb : Nat) : List (Nat × Nat × Nat) :=
  let a := slba / 2 ^ 20
  let b := (slba + (nlb - 1)) / 2 ^ 20
  (List.range (b + 1 - a)).map fun i =>
    let lo := max slba ((a + i) * 2 ^ 20)
    let hi := min (slba + (nlb - 1)) ((a + i + 1) * 2 ^ 20 - 1)
    (shardOf nsid lo, nsid * 2 ^ 64 + lo, nsid * 2 ^ 64 + hi)

/-- One entry per shard touched, in the order in which the shards are first touched (R68). -/
def wantsOf (l : List (Nat × Nat × Nat)) : List Want :=
  (l.map Prod.fst).eraseDups.map fun sh => (sh, (l.filter fun x => x.1 == sh).map Prod.snd)

/-- Lock entries of a range of blocks (R68). -/
def rangeWants (nsid slba nlb : Nat) : List Want := wantsOf (rangeParts nsid slba nlb)

/-- Lock entries of several ranges, in ascending LBA order; a range without blocks needs none. -/
def rangesWants (nsid : Nat) (l : List (Nat × Nat)) : List Want :=
  wantsOf (((l.filter fun r => decide (0 < r.2)).mergeSort fun a b => decide (a.1 ≤ b.1)).flatMap fun r => rangeParts nsid r.1 r.2)

/-- The entry of a key (R68). -/
def keyWants (nsid : Nat) (k : Key) : List Want :=
  [(keyShard nsid k, [(2 ^ 96 + keyHash nsid k, 2 ^ 96 + keyHash nsid k)])]

/-- The tile of a shard: it holds the shard's lock slice and destages its records (R68). -/
def State.tileOf (s : State) (shard : Nat) : Nat := shard % s.variant.tiles

/-! ## Range locks -/

/-- Two entries cover a common range. -/
def LockEnt.overlaps (a b : LockEnt) : Bool :=
  a.spans.any fun x => b.spans.any fun y => decide (x.1 ≤ y.2) && decide (y.1 ≤ x.2)

/-- Two entries overlap and one of them is exclusive (R69). -/
def LockEnt.conflicts (a b : LockEnt) : Bool := a.shard == b.shard && a.tag != b.tag && a.overlaps b && (a.excl || b.excl)

def State.setLocks (s : State) (l : List LockEnt) : State := { s with host := { s.host with locks := l } }

/-- The head grants on a shard: it owns it, and no move of it is awaited (R138, R719). -/
def State.grants (s : State) (shard : Nat) : Bool := s.owner shard == s.side && !s.pair.awaitMove.contains shard

/-- Entries taken in a tile, of all classes and of classes 1 to 7. -/
def State.entries (s : State) (tile : Nat) : Nat × Nat :=
  let l := s.host.locks.filter fun e => e.entered && s.owner e.shard == s.side && s.tileOf e.shard == tile
  (l.length, (l.filter fun e => e.cls != 0).length)

/-- An entry is free for a request (R73): 4,096 in a tile, C0_RESERVE of them for class 0. -/
def State.entryFree (s : State) (e : LockEnt) : Bool :=
  let n := s.entries (s.tileOf e.shard)
  let reserve := min 0x800 (s.fld (dieF 0) Reg.RLK_CTRL_C0_RESERVE)
  decide (n.1 < 4096) && (e.cls == 0 || decide (n.2 < 4096 - reserve))

/-- A waiting request stands before another (R71, R72): class 0, then withdrawn holders in their original grant order, then
arrival. `i` and `j` are their places in the list. -/
def goesBefore (a b : LockEnt) (i j : Nat) : Bool :=
  let r := fun (e : LockEnt) => if e.cls = 0 then 0 else if e.withdrawn then 1 else 2
  if r a != r b then decide (r a < r b) else if r a = 1 then decide (a.order < b.order) else decide (i < j)

/-- A waiting request may be granted now: entered, no conflicting holder, no conflicting waiter before it (R71). -/
def State.mayGrant (s : State) (e : LockEnt) : Bool :=
  let l := (List.range s.host.locks.length).zip s.host.locks
  let i := ((l.find? fun x => x.2 == e).map Prod.fst).getD 0
  e.entered && !e.granted && s.grants e.shard &&
    !(l.any fun x => x.2.conflicts e && (x.2.granted || goesBefore x.2 e x.1 i))

/-- A class-0 request of this head waits for a lock that an earlier class-0 command holds or is to get first (R66). -/
def State.heldBack (s : State) (e : LockEnt) : Bool :=
  let i := s.host.locks.idxOf e
  ((List.range s.host.locks.length).zip s.host.locks).any fun x => x.2.cls == 0 && x.2.conflicts e && (x.2.granted || decide (x.1 < i))

/-- Note, at every change of the locks, the intervals in which class-0 commands of this head wait behind earlier class-0 commands: R66
leaves them out of a command's latency. -/
def State.noteWaits (s : State) : State :=
  s.host.locks.foldl (fun s e =>
    let back := !e.granted && s.heldBack e
    if e.side ≠ s.side ∨ e.cls ≠ 0 then s
    else match e.behind with
    | none => if back then s.setLocks (s.host.locks.map fun x => if x = e then { x with behind := some s.ao.tb } else x) else s
    | some t =>
      if back then s
      else
        let s := s.setLocks (s.host.locks.map fun x => if x = e then { x with behind := none } else x)
        { s with host := { s.host with cmds := s.host.cmds.adjust e.tag fun c => { c with skips := c.skips ++ [(t, s.ao.tb)] } } }) s

/-- Counters of RLK_STATUS for the commands of an F-die (R108). -/
def State.countLocks (s : State) : State :=
  let s := s.noteWaits
  (List.range s.variant.sides).foldl (fun s f =>
    let mine := s.host.locks.filter fun e => e.side == s.side && e.fdie == f
    let inUse := (mine.filter fun e => e.entered).length
    let waiters := ((mine.filter fun e => !e.granted).map LockEnt.tag).eraseDups.length
    ((s.setFld (dieF f) Reg.RLK_STATUS_IN_USE inUse).setFld (dieF f) Reg.RLK_STATUS_WAITERS waiters).maxFld (dieF f)
      Reg.RLK_STATUS_PEAK inUse) s

/-- Grant an entry; a remote requester gets a LOCK grant message (R138, R139). -/
def State.grantLock (s : State) (e : LockEnt) : State :=
  let n := s.host.lockOrder + 1
  let e' := { e with granted := true, withdrawn := false, order := if e.order = 0 then n else e.order }
  let s := { s with host := { s.host with lockOrder := n } }
  let s := s.setLocks (s.host.locks.map fun x => if x = e then e' else x)
  if e.side = s.side then s.countLocks else s.send (vlLock e.cls) e.cls e.tag (.lock (.grant e.shard (s.ftl.level == 3)))

/-- A command that has lost its lock to R72 resolves its references anew once it has it back (R70, R76); what it has fetched from the
host it keeps. -/
def State.unresolve (s : State) (tag : Nat) : State :=
  { s with host := { s.host with cmds := s.host.cmds.adjust tag fun c => { c with pieces := none } },
           med := { s.med with rds := s.med.rds.mapV fun _ r => { r with users := r.users.filter fun u => match u with
             | .read t _ _ => t != tag
             | _ => true } } }

/-- F-die whose RLK registers a class-0 request is under (R72): that on which its command has arrived; for a command of the partner's F0
of the head that owns the shard (log entry 195). -/
def LockEnt.rlkDie (e : LockEnt) (side : Nat) : Nat := if e.side = side then dieF e.fdie else dieF 0

/-- Withdraw the lock from every conflicting exclusive holder of classes 1 to 7 that has not begun its append (R72), as the F-die of
`rlkDie` permits, where it counts (the model's choice for a request of the partner's, log entry 195). A holder of
the partner's is told by a LOCK message: it keeps the lock until it answers, by asking again if it had not begun, and its withdrawal
counts then (log entry 26). -/
def State.preempt (s : State) (e : LockEnt) : State :=
  if e.cls ≠ 0 ∨ e.granted ∨ !s.flag (e.rlkDie s.side) Reg.RLK_CTRL_PREEMPT_EN then s
  else
    (s.host.locks.filter fun h => h.granted && !h.withdrawn && h.excl && h.cls != 0 && !h.begun && h.conflicts e).foldl (fun s h =>
      let s := s.setLocks (s.host.locks.map fun x => if x = h then { x with granted := h.side != s.side, withdrawn := true } else x)
      if h.side = s.side then (s.addFld (e.rlkDie s.side) Reg.RLK_PREEMPT_CNT_COUNT 1).unresolve h.tag
      else s.send (vlLock h.cls) h.cls h.tag (.lock (.free h.shard))) s

/-- Every class-0 request that waits for a lock of this head's shards pre-empts what it may (R72): the enable has come on. -/
def State.preemptAll (s : State) : State :=
  (s.host.locks.filter fun e => e.entered && s.owner e.shard == s.side).foldl (fun s e => s.preempt e) s

/-- Request one lock (R68 to R74): of an own shard, entered and granted where nothing stands against it; of the partner's, by a
LOCK message. -/
def State.requestLock (s : State) (e : LockEnt) : State :=
  if s.owner e.shard = s.side then
    let e := { e with entered := s.entryFree e, granted := false }
    let s := s.setLocks (s.host.locks ++ [e])
    let s := s.preempt e
    (if s.mayGrant e then s.grantLock e else s).countLocks
  else
    let s := s.setLocks (s.host.locks ++ [{ e with entered := true, granted := false }])
    let s := { s with host := { s.host with remote := s.host.remote.insert e.tag s.ao.tb } }
    (s.send (vlLock e.cls) e.cls e.tag (.lock (.request e.shard e.spans e.excl e.cls))).countLocks

/-- Requests that wait for an entry take one as far as entries are free (R73). -/
def State.enterWaiters (s : State) : State :=
  s.host.locks.foldl (fun s e =>
    if !e.entered && s.owner e.shard == s.side && s.entryFree e then
      s.setLocks (s.host.locks.map fun x => if x = e then { x with entered := true } else x)
    else s) s

/-- Release every lock of a command; the partner is told of those on its shards (R70). -/
def State.releaseLocks (s : State) (tag : Nat) : State :=
  let mine := s.host.locks.filter fun e => e.tag == tag
  let s := s.setLocks (s.host.locks.filter fun e => e.tag != tag)
  -- of a shard whose move is still to be sent, the move leaves the entry out (R139)
  let mine := mine.filter fun e => !s.pair.movesDue.contains e.shard
  let s := { s with host := { s.host with remote := s.host.remote.erase tag,
                                          unsettled := s.host.unsettled.filter (· != tag) } }
  let s := mine.foldl (fun s e => if s.owner e.shard = s.side then s
    else s.send (vlLock e.cls) e.cls tag (.lock (.free e.shard))) s
  s.enterWaiters.countLocks

/-- Every lock that a command has asked for is granted. -/
def State.allGranted (s : State) (tag : Nat) : Bool := (s.host.locks.filter fun e => e.tag == tag).all LockEnt.granted

/-- A command holds every lock it needs: it has asked for all, one after another, and each is granted (R68). -/
def State.holdsLocks (s : State) (tag : Nat) : Bool :=
  s.allGranted tag && (s.host.cmds.find? tag).all fun c => decide (c.wants.length ≤ c.asked)

/-- Lock entry of a command of this head. -/
def Cmd.entry (c : Cmd) (side : Nat) (w : Want) : LockEnt :=
  { tag := c.tag.num, side := side, fdie := c.fdie, shard := w.1, spans := w.2, excl := c.excl, cls := c.cls,
    entered := false, granted := false, begun := false, withdrawn := false, order := 0, behind := none }

/-- Ask for the next lock of a command once those before it are granted (R68: in ascending order); `fuel` bounds their number. -/
def State.nextLocks (s : State) (tag : Nat) : Nat → State
  | 0 => s
  | fuel + 1 => match s.host.cmds.find? tag with
    | none => s
    | some c => match c.wants[c.asked]? with
      | none => s
      | some w =>
        if c.result.isSome || !s.allGranted tag then s
        else
          let s := { s with host := { s.host with cmds := s.host.cmds.insert tag { c with asked := c.asked + 1 } } }
          (s.requestLock (c.entry s.side w)).nextLocks tag fuel

/-- The append of a command has begun (R72). -/
def State.markBegun (s : State) (tag : Nat) : State :=
  s.setLocks (s.host.locks.map fun e => if e.tag = tag then { e with begun := true } else e)

/-! ## Snapshots and clones (R466, R469, R472) -/

/-- A snapshot of a namespace. -/
def State.snap (s : State) (nsid id : Nat) : Option Snap := (s.arr.nss.find? nsid).bind fun n => n.snaps.find? id

/-- The frozen copy of a page that a read of epoch `e` resolves to: the smallest key epoch at or above it (R469). -/
def State.frozenAt (s : State) (pid e : Nat) : Option Frozen :=
  (s.arr.frozen.filter fun f => f.page == pid && decide (e ≤ f.epoch)).foldl (fun b f => match b with
    | none => some f
    | some x => if f.epoch < x.epoch then some f else some x) none

/-- The page that a page of a namespace resolves to, live or in a snapshot's view; `fuel` bounds the chain of clones. -/
def State.resolvePage (s : State) (nsid : Nat) (e : Option Nat) (pid : Nat) : Nat → Nat
  | 0 => pid
  | fuel + 1 =>
    let frozen := match e with
      | some e => (s.frozenAt pid e).map Frozen.copy
      | none => none
    match frozen with
    | some p => p
    | none =>
      if s.ftl.pages.has pid then pid
      else match s.arr.nss.find? nsid with
        | some { base := some (bn, sid), .. } =>
          match s.snap bn sid with
          | some sn => s.resolvePage bn (some sn.epoch) (pageId (pKind pid) (bn - 1) (pIndex pid)) fuel
          | none => pid
        | _ => pid

/-- A page as a namespace's live view resolves it. -/
def State.livePage (s : State) (nsid pid : Nat) : Nat := s.resolvePage nsid none pid 64

/-! ## The key index (R255 to R257) -/

/-- A page as a namespace names it: pages that a clone shares with its base carry the base's OWNER (R472). -/
def ownPage (nsid pid : Nat) : Nat := pageId (pKind pid) (nsid - 1) (pIndex pid)

/-- The child of an interior page for a key: the last whose key does not exceed it; the key of entry 0 is ignored. -/
def childFor (k : Key) : List (Key × Nat) → Nat
  | [] => 0
  | e :: l => (l.filter fun x => bytesLe x.1 k).getLast?.map Prod.snd |>.getD e.2

/-- Walk from a page to the leaf of a key. -/
def State.walk (s : State) (nsid : Nat) (e : Option Nat) (k : Key) : Nat → Nat → Nat
  | 0, pid => pid
  | fuel + 1, pid =>
    let pid := ownPage nsid pid
    let p := s.resolvePage nsid e pid 64
    match (s.page p).body with
    | .interior _ es => s.walk nsid e k fuel (childFor k es)
    | _ => pid

/-- The leaf of a key in a namespace. -/
def State.leafOf (s : State) (nsid : Nat) (k : Key) : Nat :=
  match s.arr.nss.find? nsid with
  | some n => s.walk nsid none k 16 n.root
  | none => 0

/-- The leaf of a walk with its bounds (R255, R513): lowest key, lowest key of the next leaf. -/
def State.walkBounds (s : State) (nsid : Nat) (k : Key) : Nat → Nat → Key → Option Key → Nat × Key × Option Key
  | 0, pid, lo, hi => (pid, lo, hi)
  | fuel + 1, pid, lo, hi =>
    let pid := ownPage nsid pid
    match (s.page (s.resolvePage nsid none pid 64)).body with
    | .interior _ es =>
      let lo' := ((es.tail.filter fun x => bytesLe x.1 k).getLast?.map Prod.fst).getD lo
      let hi' := match es.tail.find? fun x => bytesLt k x.1 with
        | some x => some x.1
        | none => hi
      s.walkBounds nsid k fuel (childFor k es) lo' hi'
    | _ => (pid, lo, hi)

/-- Resolve a key to its leaf as the map cache does (R513, R514): by the ordered index where its answer may be used, else by a walk,
which enters the leaf in the index. -/
def State.resolveLeaf (s : State) (nsid : Nat) (k : Key) : State :=
  match s.ordLookup nsid k with
  | (s, some _) => s
  | (s, none) => match s.arr.nss.find? nsid with
    | none => s
    | some n =>
      let (leaf, lo, hi) := s.walkBounds nsid k 16 n.root [] none
      if n.kv && pKind leaf == 2 then s.ordEnter nsid lo hi leaf else s

/-- The value entry of a key in the durable index, live or in a snapshot. -/
def State.kvFind (s : State) (nsid : Nat) (e : Option Nat) (k : Key) : Option ValEnt :=
  match s.arr.nss.find? nsid with
  | none => none
  | some n =>
    match (s.page (s.resolvePage nsid e (s.walk nsid e k 16 n.root) 64)).body with
    | .leaf _ es => es.find? fun v => v.key == k
    | _ => none

/-- Value entries of the leaf chain from a leaf on. -/
def State.chain (s : State) (nsid : Nat) : Nat → Nat → List ValEnt
  | 0, _ => []
  | fuel + 1, pid =>
    match (s.page (s.livePage nsid pid)).body with
    | .leaf next es => es ++ (if next = 0 then [] else s.chain nsid fuel (ownPage nsid next))
    | _ => []

/-- References of the chunks of a value, in order (R256). -/
def State.valRefs (s : State) (nsid : Nat) (v : ValEnt) : List Nat :=
  if v.nchunk ≤ 3 then v.refs.take v.nchunk
  else (List.range v.nchunk).map fun j =>
    let pid := ownPage nsid v.list + j / 512
    pageRef (s.page (s.livePage nsid pid)).body (s.pageDomain pid) (j % 512)

/-- The shard of a record: of its key, or of its first LBA. -/
def JRec.shard (r : JRec) : Nat := if r.kv then keyShard r.nsid r.key else shardOf r.nsid r.slba

/-- The state as a read point sees it: without the journal records from it on (R142, R147). -/
def State.viewAt (s : State) (p : ReadPoint) : State :=
  let old := fun (m : SMap JEnt) => m.keep fun _ e => decide (e.r.seq < (if e.r.side = 0 then p.seq0 else p.seq1))
  { s with jrnl := { s.jrnl with own := old s.jrnl.own, mirror := old s.jrnl.mirror } }

/-! ## Journal records as reads see them (R138, R144) -/

/-- Unreleased records of both sides. -/
def State.allEnts (s : State) : List JEnt := s.jrnl.own.vals ++ s.jrnl.mirror.vals

def State.allRecs (s : State) : List JRec := s.allEnts.map JEnt.r

/-- The later of two records of one shard (R303). -/
def JRec.later (a b : JRec) : Bool := decide (b.append < a.append) || (a.append == b.append && decide (b.seq < a.seq))

/-- The newest record that a test picks. -/
def newestRec (l : List JRec) : Option JRec :=
  l.foldl (fun b r => match b with
    | none => some r
    | some x => if r.later x then some r else some x) none

/-- Blocks that a record covers. -/
def JRec.blocks (r : JRec) : Nat := if r.zeroes || r.dealloc then r.nlb else r.data.length / 4096

/-- A key-value record's value length agrees with its parts: their number, and this one's data (R143, R206). -/
def JRec.lengthOk (r : JRec) : Bool :=
  !r.kv || r.dealloc || (r.parts == max 1 ((r.slba + 131071) / 131072) && decide (r.part < r.parts) &&
    (r.data.length + 4095) / 4096 == (min 131072 (r.slba - r.part * 131072) + 4095) / 4096)

/-- The newest record that gives a block its content; a deallocate hint gives none before its destage (R92). -/
def State.recFor (s : State) (nsid lba : Nat) : Option JRec :=
  newestRec (s.allRecs.filter fun r => !r.kv && !r.dealloc && r.nsid == nsid && decide (r.slba ≤ lba) &&
    decide (lba < r.slba + r.blocks))

/-- What the parts of one value have in common: the command tag, or for records of a remote pair the tag of part 0 (R489). -/
def JRec.group (r : JRec) : Nat := if r.tag / 2 ^ 48 = 0xFFFF then r.tag - r.part else r.tag

/-- Parts of a multi-part value that are in the journals, in order (R144). -/
def State.valueParts (s : State) (r : JRec) : List JRec :=
  (List.range r.parts).filterMap fun i => s.allRecs.find? fun x => x.kv && x.side == r.side && x.group == r.group && x.part == i

/-- The last record of a Store or Delete that has taken effect (R144): it is acknowledged, and every part of the value stands in the
journals, or its map changes are durable and some parts are already released. -/
def State.effective (s : State) (e : JEnt) : Bool :=
  e.r.kv && e.r.part + 1 == e.r.parts && e.acked && (e.durable || (s.valueParts e.r).length == e.r.parts)

/-- The newest Store or Delete of a key that has taken effect. -/
def State.keyRec (s : State) (nsid : Nat) (k : Key) : Option JRec :=
  newestRec ((s.allEnts.filter fun e => e.r.nsid == nsid && e.r.key == k && s.effective e).map JEnt.r)

/-- The bytes of a value whose last part this is. -/
def State.valueBytes (s : State) (r : JRec) : Bytes := ((s.valueParts r).flatMap JRec.data).take r.slba

/-! ## Pieces of a read -/

/-- A chunk as a piece: zeros for chunk number 0, else its chunk-table entry. -/
def State.chunkPiece (s : State) (ref len : Nat) : Piece :=
  if refNum ref = 0 then .zero len
  else if s.ftl.badPages.contains (chunkPage ref) then .lost len
  else .chunk (refDomain ref) ref (s.chunk ref).len

/-- The journal entry of a record. -/
def State.jent (s : State) (side seq : Nat) : Option JEnt := if side = s.side then s.jrnl.own.find? seq else s.jrnl.mirror.find? seq

def State.setJent (s : State) (side seq : Nat) (e : JEnt) : State :=
  if side = s.side then { s with jrnl := { s.jrnl with own := s.jrnl.own.insert seq e } }
  else { s with jrnl := { s.jrnl with mirror := s.jrnl.mirror.insert seq e } }

/-- A record stands after a loss: it was appended after the lost record (R82, R303). -/
def JRec.after (r : JRec) (m : Mark) : Bool := m.before r.side r.seq

/-- The mark of a block or of a key that has been lost (R82). -/
def State.lbaMark (s : State) (nsid lba : Nat) : Option Mark := s.arr.markedLbas.find? (nsid * 2 ^ 64 + lba)
def State.keyMark (s : State) (nsid : Nat) (k : Key) : Option Mark := (s.arr.markedKeys.find? fun x => x.1 == (nsid, k)).map Prod.snd

/-- Where one block comes from: the journals before the map (R138); a marked block is lost, unless a record written after the loss
gives it (R82). -/
def State.blockPiece (s : State) (nsid lba : Nat) : Piece :=
  match (s.recFor nsid lba).filter fun r => (s.lbaMark nsid lba).all r.after with
  | some r => if r.zeroes then .zero 4096 else .bytes ((r.data.drop ((lba - r.slba) * 4096)).take 4096)
  | none =>
    if (s.lbaMark nsid lba).isSome then .lost 4096
    else
      let pid := s.livePage nsid (lbaPage nsid lba)
      if s.ftl.badPages.contains pid then .lost 4096
      else s.chunkPiece (pageRef (s.page pid).body (s.pageDomain pid) (lba % 512)) 4096

def State.blockPieces (s : State) (nsid slba nlb : Nat) : List Piece := (List.range nlb).map fun i => s.blockPiece nsid (slba + i)

/-- A key as the durable index has it. -/
def State.storedPieces (s : State) (nsid : Nat) (k : Key) : Option (Nat × List Piece) :=
  if s.ftl.badPages.contains (s.livePage nsid (s.leafOf nsid k)) then some (0, [.lost 0])
  else (s.kvFind nsid none k).map fun v => (v.vlen, (s.valRefs nsid v).map fun r => s.chunkPiece r (s.chunk r).len)

/-- A key's presence and pieces: length and pieces of its value; none where it is absent. A value of which a part has been released is
the durable one (R85); a marked key is lost, unless a record written after the loss stores or deletes it (R82). -/
def State.keyPieces (s : State) (nsid : Nat) (k : Key) : Option (Nat × List Piece) :=
  match (s.keyRec nsid k).filter fun r => (s.keyMark nsid k).all r.after with
  | some r =>
    if r.dealloc then none
    else if (s.valueParts r).length = r.parts then some (r.slba, [.bytes (s.valueBytes r)])
    else s.storedPieces nsid k
  | none => if (s.keyMark nsid k).isSome then some (0, [.lost 0]) else s.storedPieces nsid k

/-- Keys of a namespace from a key on, in ascending order (R89, R90). -/
def State.keysFrom (s : State) (nsid : Nat) (k : Key) : List Key :=
  let stored := (s.chain nsid 1000000 (s.leafOf nsid k)).map ValEnt.key
  let fresh := (s.allRecs.filter fun r => r.kv && r.nsid == nsid && r.part + 1 == r.parts).map JRec.key
  let all := ((stored ++ fresh).filter fun x => bytesLe k x && (s.keyPieces nsid x).isSome).eraseDups
  all.mergeSort bytesLe

/-- The bytes of a piece that has been read. -/
def Piece.bytes? : Piece → Option Bytes
  | .bytes b => some b
  | .zero n => some (zeros n)
  | _ => none

def Piece.isLost : Piece → Bool
  | .lost _ => true
  | _ => false

/-- Every piece of a read, one after another, when all are there. -/
def joinPieces : List Piece → Option Bytes
  | [] => some []
  | p :: l => match p.bytes?, joinPieces l with
    | some a, some b => some (a ++ b)
    | _, _ => none

end Sys2Proof.Machine
end

