-- ==== Sys2Proof/Machine/Access.lean ====
section
/-! DEFINITION. Register accesses by herd cores and the management processor (R14, R32 to R34), the values that registers show
of other state, and the meanings of REGISTER_WRITE, BLOCK_LOCK, REGISTER_READ_CLEAR, TABLE_COMMIT, TABLE_ABORT and
COMMIT_COPY_DONE. -/

namespace Sys2Proof.Machine

open Sys2Proof

/-- The outcome of a meaning. -/
abbrev Res := Host.Outcome State Fault Refusal

/-! ## What registers show -/

/-- A word with field `f` set to `v`. -/
def withFld (x : Word) (f : Fld) (v : Nat) : Word := setBits x f.lo f.w v

def boolNat (b : Bool) : Nat := if b then 1 else 0

/-- THM_DIE_DATA of a die (R658). -/
def State.dieData (s : State) (die : Nat) : Nat :=
  if s.variant.populated die then
    let d := s.dieTemp die
    ofInt 16 (s.temp die) + ofInt 16 d.diode * 2 ^ 16 +
      ofInt 16 d.shortRate * 2 ^ 32 +
      boolNat (!s.usesRo die) * 2 ^ 48 + boolNat d.fallback * 2 ^ 49
  else 0x8000 + 0x8000 * 2 ^ 16 + 2 ^ 48

/-- Context index key of a queue-pair number. -/
def ctxOf (qpn : Nat) : Nat := (qpn / 2 ^ 22 % 2) * 65536 + qpn % 65536

/-- Lanes of a kind that hold no work, of `n` on a tile (R200, R243). -/
def State.idleLanes (s : State) (k : LaneKind) (tile n : Nat) : Nat :=
  ((List.range n).filter fun l => !(s.dst.running.any fun r => r.kind == k && r.tile == tile && r.lane == l)).foldl (fun m l => m + 2 ^ l) 0

/-- MED_DIE_DATA of a die: of one that is not in use, or whose carrier port is not attached to this M-die, EXCLUDED alone (R368, R711). -/
def State.medDieData (s : State) (die : Nat) : Word :=
  let cp := s.fld die Reg.MED_DIE_IDX_CP
  let k := dieKey cp (s.fld die Reg.MED_DIE_IDX_DIE)
  let d := s.die k
  if cpDie cp ≠ die ∨ !s.cpFlag cp Reg.SFB_PSTAT_ATTACHED ∨ !d.used then withFld 0 Reg.MED_DIE_DATA_EXCLUDED 1
  else
    let us := d.suspUs + (match d.suspAt with
      | some t => (s.ao.tb - t) / 1000
      | none => 0)
    let x := withFld (withFld 0 Reg.MED_DIE_DATA_SLOW (boolNat d.slow.isSome)) Reg.MED_DIE_DATA_STARVED (boolNat (s.med.starved.contains k))
    let x := withFld (withFld x Reg.MED_DIE_DATA_PROTECTED (boolNat (s.med.prot == some k))) Reg.MED_DIE_DATA_SUSP_COUNT (min 0xFFFF d.susp)
    withFld x Reg.MED_DIE_DATA_SUSP_US us

/-- Registers that show state held elsewhere, by block. -/
def State.shownUnit (s : State) (die blk off : Nat) (x : Word) : Word :=
  match blk with
  | 0x08 => if off = 0 then BitVec.ofNat 64 s.ao.tb else x
  | 0x16 =>
    if off = 0x8 then
      let x := withFld x Reg.TKO_STATE_HEAD s.pair.head.code
      let x := withFld x Reg.TKO_STATE_PARTNER ((s.pair.partner.map HeadState.code).getD 0)
      withFld x Reg.TKO_STATE_PENDING (boolNat s.pair.pending.isSome)
    else x
  | 0x03 =>
    if off = 0 then
      let x := withFld x Reg.EVR_STATUS_FROZEN (boolNat s.evrFrozen)
      let x := withFld x Reg.EVR_STATUS_WINDOW_OK (boolNat s.norWindow)
      withFld x Reg.EVR_STATUS_HELD s.ao.heldEvents.length
    else if off = 0x18 then
      withFld (withFld (withFld x Reg.EVR_HOURS_HOURS s.ao.hours) Reg.EVR_HOURS_SECONDS s.ao.seconds)
        Reg.EVR_HOURS_PCYCLE s.ao.pcycle
    else x
  | 0x04 =>
    if off = 0x8 then withFld x Reg.THM_STATUS_TRIP_LATCHED (boolNat s.ao.tripLatched)
    else if off = 0x18 then BitVec.ofNat 64 (s.dieData (s.fld die Reg.THM_DIE_IDX_DIE))
    else if off = 0x20 then
      withFld (withFld (withFld x Reg.THM_TRIPS_COUNT s.nor.trips.length) Reg.THM_TRIPS_HELD s.ao.heldTrips.length)
        Reg.THM_TRIPS_LOST s.ao.tripsLost
    else x
  | 0x05 => if off = 0x8 then withFld x Reg.PWR_STATUS_VIN (s.pins.vin / 10) else x
  | 0x14 => if off = 0 ∧ die ≠ 1 then withFld x Reg.RLK_CTRL_C0_RESERVE (s.fld (dieF 0) Reg.RLK_CTRL_C0_RESERVE) else x
  | 0x39 =>
    if off = 0x120 then
      match s.hrd.log.getD (die - 16) [] with
      | f :: _ => BitVec.ofNat 64 f.word
      | [] => x
    else x
  | 0x12 =>
    if off = 0x18 then
      let own := s.rdma.qps.vals.filter fun q => q.fdie + 1 == die
      let x := withFld x Reg.RDM_STATUS_ON_DIE (own.filter Qp.onDie).length
      let x := withFld x Reg.RDM_STATUS_PINNED (own.filter Qp.pinned).length
      let x := withFld x Reg.RDM_STATUS_OWN own.length
      withFld x Reg.RDM_STATUS_SHADOW (s.rdma.shadows.keys.filter fun q => q / 2 ^ 22 % 2 + 1 == die).length
    else x
  | 0x10 =>
    if off < 0x4000 ∧ off % 0x1000 = 0x8 then
      let p := s.fport ((die - 1) * 4 + off / 0x1000)
      let bits := fun (f : Nat → Bool) => ((List.range 8).filter f).foldl (fun n q => n + 2 ^ q) 0
      withFld (withFld x Reg.MAC_STATUS_HELD (bits (p.held s.ao.tb))) Reg.MAC_STATUS_STORM (bits p.storm.has)
    else x
  | 0x18 =>
    if off = 0x118 then BitVec.ofNat 64 (s.rdma.hits.getD ((die - 1) * 128 + s.fld die Reg.PAT_IDX_IDX) 0) else x
  | 0x17 =>
    if off = 0x18 then
      let l := s.pgt.sess.vals.filter fun z => z.fdie + 1 == die
      withFld (withFld x Reg.PGT_SESSRES_ACTIVE l.length) Reg.PGT_SESSRES_DEGRADED (boolNat (l.any Sess.degraded))
    else x
  | 0x21 => if off = 0x38 then s.medDieData die else x
  | 0x23 =>
    if off = 0x18 then
      let m := die - 4
      let waits := (s.ftl.looks.filter fun l => l.behind && l.die == m).map Look.lane
      let x := withFld x Reg.MAP_STATUS_READY (boolNat (s.mapOn m))
      let x := withFld x Reg.MAP_STATUS_LANE_WAIT (waits.eraseDups.foldl (fun n l => n + 2 ^ l) 0)
      withFld x Reg.MAP_STATUS_PINNED (s.ftl.lines.keep fun k l => (l.p || l.rp) && s.mapDie k == m).length
    else x
  | 0x24 =>
    if off = 0x10 then
      let x := withFld x Reg.FTL_FREE_READONLY (boolNat s.arr.readOnly)
      if s.flag (dieM 0) Reg.FTL_CTRL_EN then withFld x Reg.FTL_FREE_SPARE_LEFT s.spareLeft else x
    else x
  | 0x31 =>
    if off = 0x8 then
      withFld (withFld x Reg.FPL_STATUS_LANE_IDLE (s.idleLanes .fpl (die - 16) 16)) Reg.FPL_STATUS_SLOTS_USED
        (s.dst.fpSlots.keys.filter fun k => k / 4096 + 16 == die).length
    else x
  | 0x32 =>
    if off = 0x8 then
      withFld (withFld x Reg.CMP_STATUS_LANE_IDLE (s.idleLanes .cmp (die - 16) 16)) Reg.CMP_STATUS_OPEN_PACKS
        (s.dst.packs.keep fun _ p => p.tile + 16 == die && p.st == .opened).length
    else x
  | 0x33 => if off = 0x8 then withFld x Reg.DCP_STATUS_LANE_IDLE (s.idleLanes .dcp (die - 16) 16) else x
  | 0x34 =>
    if off = 0x8 then
      let x := withFld (withFld x Reg.XTS_STATUS_ENC_IDLE (s.idleLanes .enc (die - 16) 8)) Reg.XTS_STATUS_DEC_IDLE (s.idleLanes .dec (die - 16) 8)
      withFld x Reg.XTS_STATUS_SLOTS_USED (s.dst.xtsSlots.keys.filter fun k => k / 65536 / 4096 + 16 == die).length
    else x
  | 0x40 =>
    if off = 0x210 then BitVec.ofNat 64 (s.csaStat (die - 8) (s.fld die Reg.CSA_PART_IDX_IDX))
    else if off = 0x10 then BitVec.ofNat 64 (s.csaPower (die - 8))
    else x
  | _ => x

/-- A register as it reads before WO fields are masked: RO fields that show other state take it from there. -/
def State.shown (s : State) (die blk off : Nat) : Word :=
  let x := s.reg die blk off
  match s.windowKey die blk off with
  | some k => s.shadow.getD k (tblDefault k)
  | none => s.shownUnit die blk off x

/-! ## Decoding an access -/

/-- The die, block and offset of a CSR address, with the register there; none for a decode error (R33). -/
def State.decodeCsr (s : State) (addr size : Nat) : Option (Nat × Nat × Nat × RegDesc) :=
  let die := addr / 2 ^ 32
  let blk := addr / 2 ^ 24 % 256
  let off := addr % 2 ^ 24
  if size = 8 ∧ addr % 8 = 0 ∧ die < 256 ∧ s.variant.populated die ∧ blockOn die blk then
    (findReg blk off).map fun r => (die, blk, off, r)
  else none

/-- Check a requester's access: a herd core needs a window right and takes a trap without one, the management processor
reaches every register (R14, R34, R559, R560). Answers whether the access is made. -/
def State.checkAccess (s : State) (who : Requester) (addr size : Nat) (k : AccKind) : Bool × State :=
  let bad := (s.decodeCsr addr size).isNone
  match who with
  | .mp => if bad then (false, { s.emit (.busError addr) with hrd := { s.hrd with busErrors := s.hrd.busErrors + 1 } })
      else (true, s)
  | .herd tile cl core =>
    match s.windowFault tile cl (csrBase + addr) k with
    | some c => (false, s.coreFault tile cl core (csrBase + addr) k c)
    | none => if bad then (false, s.coreFault tile cl core (csrBase + addr) k 3) else (true, s)

/-! ## Writes -/

/-- This head accepts writes to TKO table 0 (R139). -/
def State.shardWriter (s : State) : Bool := s.pair.head != .twin || s.flag (dieF 0) Reg.TKO_STATE_SHARD_MASTER

/-- Bits of a write that the conditions of the register's chapter leave out: they keep their old value. -/
def State.guardWrite (s : State) (die blk off : Nat) (old v : Word) : Word :=
  let keepBits := fun (v : Word) (lo w : Nat) => setBits v lo w (bitsAt old lo w)
  if blk = 0x10 ∧ off % 0x1000 = 0 ∧ off < 0x4000 then
    -- MAC_CFG: MODE, MEDIA and AN_EN only while EN is 0 (R460)
    if bitsAt old 0 1 = 1 then keepBits (keepBits (keepBits v 1 2) 3 2) 5 1 else v
  else if blk = 0x38 ∧ 0x10 ≤ off ∧ off < 0x30 then
    -- HRD_WDOGn: TIMEOUT_US ignored once EN is 1 (R583)
    if bitsAt old 0 1 = 1 then keepBits v 32 32 else v
  else if blk = 0x3D ∧ off < 0x20 then
    -- FRZ_Fm: bits of MIDs 0 to 3 and 15 are ignored (R583)
    if off = 0 then 0 else if off = 0x18 then setBits v 48 16 0 else v
  else if blk = 0x3C ∧ off = 0x10 then
    -- RPL_SIZE: only while EN is 0
    if s.flag die Reg.RPL_CTRL_EN then old else v
  else if blk = 0x30 ∧ off = 0x0 then
    -- CDC_CTRL.EN: only once every gear entry is set (R172)
    if s.flag die Reg.CDC_STATUS_GEAR_SET then v else keepBits v 0 1
  else if blk = 0x22 ∧ off = 0x0 then
    -- LDP_CTRL.EN: only while CIRC_SET is 1 (R317)
    if s.flag die Reg.LDP_CIRC_IDX_CIRC_SET then v else keepBits v 0 1
  else v

/-- Lossy pool that a value of MAC_BUF would leave, in KiB (R420). -/
def lossyKib (v : Word) : Int := 4096 - 64 - (bitsAt v 0 12 : Int) - (bitsAt v 16 12 : Int)

/-- Write the table word behind a data register: held while BUSY is 1 (R24), by its fields' access codes (R9); TKO table 0
takes writes only on the shard master (R139). -/
def State.writeTable (s : State) (die blk : Nat) (k : Nat) (r : RegDesc) (v : Word) : State :=
  if blk = 0x16 ∧ !s.shardWriter then s
  else if s.flag die (tcBusy blk) then { s with heldWrites := s.heldWrites ++ [(k, v)] }
  else s.setShadow k (wordAfterWrite (s.locked die blk) r (s.shadow.getD k (tblDefault k)) v 0)

/-- A write as the access codes have it (R9 to R13); WO bits are kept for the actions they serve. -/
def State.writePlain (s : State) (die blk off : Nat) (r : RegDesc) (v events : Word) : State :=
  let s := s.setReg die blk off (wordAfterWrite (s.locked die blk) r (s.reg die blk off) v events)
  if r.fields.any fun f => f.acc = .wo then { s with wo := s.wo.putD (regKey die blk off) (woBits r v) 0 } else s

/-- A port counts as without link from now on. -/
def State.portDown (s : State) (p : Nat) : State :=
  let s := s.setFlag (portDie p) (Reg.MAC_STATUS_LINK.plus (portOff p)) false
  { s with rdma := { s.rdma with ports := s.rdma.ports.modD p .reset fun x => { x with downAt := some s.ao.tb } } }

/-- A group is lost at this end (R125, R713): it sends only TRAIN frames. What it had not delivered goes to the other group if that is up
(R126), else it is gone. -/
def State.groupLost (s : State) (g : Nat) (deaf : Bool) : State :=
  let x := s.group g
  let l := x.unacked ++ x.waiting
  let s := s.setGroup g { Group.reset with lanes := x.lanes, lastFrame := x.lastFrame, deaf := deaf }
  let s := (s.setFlag (dieF g) Reg.CHL_STATUS_UP false).setFlag (dieF g) Reg.CHL_STATUS_REPLAYING false
  let s := s.setFld (dieF g) Reg.CHL_STATUS_LANES_UP 0
  -- what is held of its messages awaits no acknowledgement on it any more
  let s := { s with ftl := { s.ftl with holds := s.ftl.holds.filter (fun h => h.1 != g), todo := s.ftl.todo.map fun (c : Change) => match c with
    | .upd h seq m lsn => Change.upd (if h = g then g + 256 else h) seq m lsn
    | c => c } }
  match s.pickGroup with
  | some o => l.foldl (fun s t => s.sendOn o t.vl t.cls t.tag t.msg) s
  | none =>
    -- the whole link is lost: a head in FAWN waits anew (R115), and a synchronisation starts again once it is back (R159)
    if s.pair.head = .fawn ∨ s.pair.head = .solo then { s with pair := { s.pair with fawnAt := s.ao.tb, rejoin := 0 } } else s

/-- CHL_CTRL has been written (R125, R164): a group whose EN is cleared is lost; a lane whose LANE_EN is cleared is no longer active, and
with fewer than 8 the group is lost. -/
def State.chlCtrlWritten (s : State) (g : Nat) (ran : Bool) : State :=
  let d := dieF g
  if ran && !s.flag d Reg.CHL_CTRL_EN then s.groupLost g false
  else
    let up := s.fld d Reg.CHL_STATUS_LANES_UP &&& s.fld d Reg.CHL_CTRL_LANE_EN
    let s := s.setFld d Reg.CHL_STATUS_LANES_UP up
    if s.flag d Reg.CHL_STATUS_UP && decide (((List.range 16).filter fun i => up / 2 ^ i % 2 == 1).length < 8) then s.groupLost g false else s

/-! ## Lanes (R200 to R202, R243 to R245) -/

/-- Enable bits of a kind of lane on a tile, 0 while the block does not run. -/
def State.lanes (s : State) (k : LaneKind) (tile : Nat) : Nat :=
  let f := fun (en lanes : Fld) => if s.flag (dieC tile) en then s.fld (dieC tile) lanes else 0
  match k with
  | .cdc => f Reg.CDC_CTRL_EN Reg.CDC_CTRL_LANE_EN
  | .fpl => f Reg.FPL_CTRL_EN Reg.FPL_CTRL_LANE_EN
  | .cmp => f Reg.CMP_CTRL_EN Reg.CMP_CTRL_LANE_EN
  | .dcp => f Reg.DCP_CTRL_EN Reg.DCP_CTRL_LANE_EN
  | .enc => f Reg.XTS_CTRL_EN Reg.XTS_CTRL_ENC_LANE_EN
  | .dec => f Reg.XTS_CTRL_EN Reg.XTS_CTRL_DEC_LANE_EN
  | .gcm => f Reg.GCM_CTRL_EN Reg.GCM_CTRL_LANE_EN

/-- The tile that does a tile's work of a kind: the next in the ring of tiles with an enabled lane (R202, R245). -/
def State.laneTile (s : State) (k : LaneKind) (tile : Nat) : Option Nat :=
  (List.range s.variant.tiles).map (fun i => (tile + i) % s.variant.tiles) |>.find? fun t => s.lanes k t != 0

/-! ## Writes with an effect of their own -/

/-- What a write does beside setting the fields, by register (R73, R420, R454, R571, R639, R714); none where the write is
plain. -/
def State.writeHook (s : State) (who : Requester) (die blk off : Nat) (r : RegDesc) (old v events : Word) : State :=
  let plain := s.writePlain die blk off r v events
  match blk with
  | 0x10 =>
    if off < 0x4000 ∧ off % 0x1000 = 0x20 ∧ lossyKib v < 448 then
      s.setFlag die (Reg.MAC_STATUS_BUF_ERR.plus (off / 0x1000 * 0x1000)) true
    else if off < 0x4000 ∧ off % 0x1000 = 0 ∧ bitsAt old 0 1 = 1 ∧ bitsAt v 0 1 = 0 then
      let p := (die - 1) * 4 + off / 0x1000
      if s.rdma.qps.vals.any fun q => q.fdie * 4 + q.e.port == p && !q.error then plain.portDown p else plain
    else plain
  | 0x08 => if off = 0x8 then plain.refreshSources else plain
  | 0x03 =>
    -- EVR_CTRL: FREEZE or THAW, not both (R658)
    if off = 0x10 ∧ bitsAt v 0 2 = 1 then plain.freezeEvr else if off = 0x10 ∧ bitsAt v 0 2 = 2 then plain.thawEvr else plain
  | 0x07 => if 0x10000 ≤ off ∧ s.flag die (Reg.MPX_MB_FULL.plus ((off - 0x10000) / 0x1000 * 8)) then s else plain
  | 0x38 =>
    if 0x100000 ≤ off then
      match who with
      | .mp => plain
      | .herd _ _ _ =>
        if s.tblFld die 1 ((off - 0x100000) / 8) 0 Reg.HRD_RING_DATA_DIR = 0 then
          s.setReg die blk off (setBits old 0 20 (bitsAt v 0 20))
        else s.setReg die blk off (setBits old 32 20 (bitsAt v 32 20))
    else plain
  | 0x14 =>
    if off = 0 then
      let s' := if die = 1 then plain
        else (s.setFld (dieF 0) Reg.RLK_CTRL_C0_RESERVE (bitsAt v 0 12)).setFld die Reg.RLK_CTRL_PREEMPT_EN (bitsAt v 16 1)
      -- requests of class 0 that wait already pre-empt from now on (R72)
      if bitsAt old 16 1 = 0 ∧ bitsAt v 16 1 = 1 then s'.preemptAll else s'
    else plain
  | 0x15 => if off = 0 then plain.chlCtrlWritten (die - 1) (bitsAt old 0 1 = 1) else plain
  | 0x33 | 0x34 =>
    -- R245: the head's last decompression or XTS decrypt lane goes
    let none_ := fun (k : LaneKind) => (s.laneTile k 0).isSome && (plain.laneTile k 0).isNone
    if none_ .dcp || none_ .dec then plain.raiseFault 0x02 die blk else plain
  | 0x40 => if off = 0 then plain.setFlag die Reg.CSA_STATUS_READY (plain.flag die Reg.CSA_CTRL_EN) else plain
  | _ => plain

/-- A write to a register that has been decoded: a table behind a data register, or the register itself. -/
def State.writeReg (s : State) (who : Requester) (die blk off : Nat) (r : RegDesc) (v events : Word) : State :=
  match s.windowKey die blk off with
  | some k => s.writeTable die blk k r v
  | none =>
    let old := s.reg die blk off
    s.writeHook who die blk off r old (s.guardWrite die blk off old v) events

/-- REGISTER_WRITE (R9): `who` writes `val`, `size` bytes wide, while hardware events set the W1C bits `events` (R11). -/
def execRegisterWrite (who : Requester) (addr size : Nat) (val events : Word) (s : State) : Res :=
  match s.checkAccess who addr size .write with
  | (false, s) => .next s
  | (true, s) => match s.decodeCsr addr size with
    | some (die, blk, off, r) => .next (s.writeReg who die blk off r val events)
    | none => .next s

/-- BLOCK_LOCK (R13): a write that sets the LOCK bit of a block's control register: the RWL fields it carries are judged by
LOCK as it was. -/
def execBlockLock (who : Requester) (addr : Nat) (val : Word) (s : State) : Res :=
  match s.checkAccess who addr 8 .write with
  | (false, s) => .next s
  | (true, s) => match s.decodeCsr addr 8 with
    | some (die, blk, off, r) =>
      match (blockLocks blk).find? fun f => f.off == off with
      | some f => .next (s.writeReg who die blk off r (withFld val f 1) 0)
      | none => .next s
    | none => .next s

/-! ## Reads -/

/-- A read that returns `val` completes: captured, or answered from the capture in replay (R576, R580). -/
def State.readDone (s : State) (who : Requester) (addr : Nat) (val : Word) : State :=
  match who with
  | .mp => s.emit (.readData addr val)
  | .herd tile cl core =>
    let x := s.readCsr tile cl core addr val
    x.2.emit (.readData addr x.1)

/-- What is brought up to date before a register is read: TX_HOLD_NS counts a hold in progress (R432). -/
def State.beforeRead (s : State) (die blk off : Nat) : State :=
  if blk = 0x10 ∧ off < 0x4000 ∧ off % 0x1000 = 0x168 then s.accrueHold ((die - 1) * 4 + off / 0x1000) else s

/-- The fault log of a tile, oldest record first. -/
def State.setLog (s : State) (tile : Nat) (l : List FaultRec) : State :=
  { s with hrd := { s.hrd with log := s.hrd.log.putD tile l [] } }

/-- A read of WIN_FAULT removes the oldest record, and WIN_FTIME takes its time (R566). -/
def State.dropFault (s : State) (tile : Nat) : State :=
  match s.hrd.log.getD tile [] with
  | [] => s
  | f :: rest => (s.setLog tile rest).setFld (dieC tile) Reg.WIN_FTIME_TIME f.time

/-- RC fields that show what is kept elsewhere: PAT_HIT, of the filter that IDX names (R462); WIN_FAULT (R566). -/
def State.clearRead (s : State) (die blk off : Nat) (r : RegDesc) (events : Word) : State :=
  if blk = 0x18 ∧ off = 0x118 then
    { s with rdma := { s.rdma with hits := s.rdma.hits.putD ((die - 1) * 128 + s.fld die Reg.PAT_IDX_IDX) events.toNat 0 } }
  else if blk = 0x39 ∧ off = 0x120 then s.dropFault (die - 16)
  else s.setReg die blk off (wordAfterRead r (s.reg die blk off) events)

/-- REGISTER_READ_CLEAR (R12): the read returns every field, clears the RC fields, and counts into them the events that occur
during it. A read that is not made returns 0 (R33). -/
def execRegisterReadClear (who : Requester) (addr size : Nat) (events : Word) (s : State) : Res :=
  match s.checkAccess who addr size .read with
  | (false, s) => .next (s.emit (.readData addr 0))
  | (true, s) => match s.decodeCsr addr size with
    | some (die, blk, off, r) =>
      let s := s.beforeRead die blk off
      let val := readMask r (s.shown die blk off)
      let s := if r.hasRc then s.clearRead die blk off r events else s
      .next (s.readDone who addr val)
    | none => .next s

end Sys2Proof.Machine
end

