-- ==== Sys2Proof/Machine/Host.lean ====
section
/-! DEFINITION. The course of a host command (R138 to R144, R155, R157): mirror, locks, fetch, append, completion, response.
Every event that may move a command on runs `advance`. -/

namespace Sys2Proof.Machine

open Sys2Proof

def State.cmd (s : State) (t : Nat) : Option Cmd := s.host.cmds.find? t

def State.setCmd (s : State) (c : Cmd) : State := { s with host := { s.host with cmds := s.host.cmds.insert c.tag.num c } }

/-! ## Statuses -/

def stOk : Status := ⟨0, 0⟩
def stBadField : Status := ⟨0, 0x02⟩
def stBadOpcode : Status := ⟨0, 0x01⟩
def stBadNs : Status := ⟨0, 0x0B⟩
def stSglLen : Status := ⟨0, 0x0F⟩
def stAborted : Status := ⟨0, 0x07⟩
def stUnrecovered : Status := ⟨2, 0x81⟩

/-! ## The write journal (R141, R143, R155, R283) -/

/-- Bytes of a journal half (R141). -/
def State.halfSize (s : State) : Nat := match s.variant with
  | .v4a => 4 * 2 ^ 30
  | .v8a => 8 * 2 ^ 30

/-- Bytes of the dump reserve on carriers that accept programs (R281, R360). -/
def State.reserveBytes (s : State) : Nat :=
  (s.ftl.dumpRes.filter fun b => s.cpOpen (mCp b)).foldl (fun n b => n + s.slcPages b * 65536) 0

/-- The dump reserve is large enough: at least 1.25 times the head's journal (R281). -/
def State.reserveBig (s : State) : Bool := decide (s.halfSize * 2 * 5 / 4 ≤ s.reserveBytes)

/-- It is, and none of it holds a dump that is still to be erased (R676). -/
def State.reserveFull (s : State) : Bool := s.nand.dumps.isEmpty && s.reserveBig

/-- FTL_JOURNAL.FREE_MIB and DUMP_READY (R281, R283). -/
def State.journalRegs (s : State) : State :=
  let s := s.setFld (dieM 0) Reg.FTL_JOURNAL_FREE_MIB ((s.halfSize - s.jrnl.used) / 2 ^ 20)
  s.setFlag (dieM 0) Reg.FTL_JOURNAL_DUMP_READY s.reserveFull

/-- Longest time since which a twin-durability record has not been programmed (R155). -/
def State.lag (s : State) : Nat :=
  let l := s.jrnl.own.vals ++ (if s.jrnl.adopted then s.jrnl.mirror.vals else [])
  l.foldl (fun n e => if e.r.mediaDur || decide (e.r.pages ≤ e.placed) then n else max n (s.ao.tb - e.since)) 0

/-- Completions of classes 1 to 7 are held from a lag above 1.5 ms until it is below 1 ms (R155). -/
def State.lagCheck (s : State) : State :=
  let l := s.lag
  { s with jrnl := { s.jrnl with lagging := if 1500000 < l then true else if l < 1000000 then false else s.jrnl.lagging } }

/-- A head in SOLO with SOLO_MEDIA serves twin-durability namespaces as media durability (R157). -/
def State.soloMedia (s : State) : Bool := s.pair.head == .solo && s.flag (dieF 0) Reg.TKO_CTRL_SOLO_MEDIA

/-- Copies in journal blocks that a record needs: three for media durability (R280). -/
def State.copiesOf (s : State) (r : JRec) : Nat := if r.mediaDur || s.soloMedia then 3 else 1

/-- Append one record to the own half: its place, JWRITE to the partner, intent post, programs (R141, R155). Its lag counts from here
(log entry 197). While nothing is mirrored it needs no acknowledgement. -/
def State.appendRec (s : State) (r : JRec) : State :=
  let r := { r with side := s.side, seq := s.jrnl.nextSeq, append := s.ao.tb }
  let off := if s.halfSize < s.jrnl.tail + r.size then 0 else s.jrnl.tail
  let e : JEnt := { r := r, off := off, acked := !s.mirroring, intent := false, copies := s.copiesOf r, placed := 0, destaging := false, txn := 0, durable := false,
                    updates := 0, jack := true, since := s.ao.tb }
  let s := { s with jrnl := { s.jrnl with own := s.jrnl.own.insert r.seq e, nextSeq := r.seq + 1, tail := off + r.size,
                                          used := s.jrnl.used + r.size } }
  -- the TAG of a record of a remote pair is no command's (R489)
  let tag := if r.tag / 2 ^ 48 = 0xFFFF then 0 else r.tag
  let s := if s.mirroring then s.send (vlData r.cls) r.cls tag (.jwrite off r true) else s
  let s := if r.mediaDur then s else s.postIntent r
  ((s.programRec r (s.copiesOf r)).replicate r).journalRegs

/-- A record's data and place meet the durability of its command (R141, R157, R488). In SOLO a joiner's acknowledgement is not waited
for. -/
def State.recComplete (s : State) (e : JEnt) : Bool :=
  let media := decide (3 * e.r.pages ≤ e.placed)
  e.jack && (s.pair.head != .twin || e.acked) && (if e.r.mediaDur || s.soloMedia then media else e.intent)

/-- The records of a command that were appended for twin durability and are now to be in three blocks (R157) get the copies they lack. -/
def State.raiseCopies (s : State) (tag : Nat) : State :=
  if !s.soloMedia then s
  else
    (s.allEnts.filter fun e => e.r.tag == tag && decide (e.copies < 3)).foldl (fun s e =>
      let s := s.programRec e.r (3 - e.copies)
      match s.jent e.r.side e.r.seq with
      | some e => s.setJent e.r.side e.r.seq { e with copies := 3 }
      | none => s) s

/-- The record may be admitted to the journal (R280, R281, R283). -/
def State.roomFor (s : State) (cls size : Nat) (media : Bool) : Bool :=
  let free := s.halfSize - s.jrnl.used
  let need := if cls = 0 then size else size + s.fld (dieM 0) Reg.FTL_JOURNAL_C0_RES_MIB * 2 ^ 20
  s.ao.dump.isNone && decide (need ≤ free) && (cls == 0 || s.flag (dieM 0) Reg.FTL_JOURNAL_DUMP_READY) &&
    decide ((if media then 3 else 1) ≤ s.journalBlocks.length)

/-! ## Namespaces -/

def State.ns (s : State) (nsid : Nat) : Option NsRec := s.arr.nss.find? nsid

/-- Blocks of a namespace. -/
def State.nsBlocks (s : State) (nsid : Nat) : Nat := ((s.ns nsid).map NsRec.blocks).getD 0

/-- Status with which a change to a namespace is refused at journal admission: read-only mode or a write-protected namespace
(R291, R471, R487), a strict session that is DEGRADED (R490), then capacity (R290). `grows`: Write, Store, fused Compare and Write. -/
def State.writeDenied (s : State) (nsid shard : Nat) (grows : Bool) : Option Status :=
  let prot := ((s.ns nsid).map fun n => n.readOnly || n.replica).getD false
  if s.arr.readOnly || prot then some ⟨0, 0x20⟩
  else if (s.syncSess nsid).any fun kx => kx.2.d.strict && kx.2.degraded then some ⟨0, 0x06⟩
  else if grows && (if s.owner shard = s.side then s.ftl.level == 3 else s.host.ownerFull) then some ⟨0, 0x81⟩
  else none

/-- The command is one of an admin queue, to be run once it is accepted. -/
def HostOp.isAdmin : HostOp → Bool
  | .flush | .write _ _ | .read _ _ | .compare _ _ | .compareAndWrite _ _ _ | .writeZeroes _ _ _ | .deallocate _ | .verify _ _
  | .store _ _ _ | .retrieve _ _ | .list _ _ | .delete _ | .exist _ | .judged => false
  | _ => true

/-! ## Deleting queues (R106) -/

/-- Send the partner a shadow of a queue pair, with its controller and queue as they now are (R442). -/
def State.sendShadow (s : State) (qpn : Nat) : State :=
  match s.qp qpn with
  | some q =>
    if q.error then s
    else s.send 4 q.e.cls 0 (.shadowqp true { q.e with epsn := q.epsn, spsn := q.spsn } (s.host.ctrls.find? q.e.cntlid)
      (s.host.queues.find? (q.e.cntlid * 256 + q.e.qid)))
  | none => s

/-- A command leaves the tables, with its read point. -/
def State.forget (s : State) (t : Nat) : State :=
  { s with ftl := { s.ftl with points := s.ftl.points.erase t }, host := { s.host with cmds := s.host.cmds.erase t } }

/-- The queue of some commands is gone. A command that has begun its append completes internally, and keeps its locks until then (R70);
every other is discarded with its locks. No completion is sent (R106). -/
def State.dropCmds (s : State) (p : Cmd → Bool) : State :=
  s.host.cmds.vals.foldl (fun s c =>
    if !p c then s
    else if c.begun && !c.op.isAdmin && c.result.isNone then (s.setCmd { c with mute := true }).trimResv c.qpn
    else ((s.releaseLocks c.tag.num).forget c.tag.num).trimResv c.qpn) s

/-- The partner's shadow of a queue pair follows what becomes of its queue. -/
def State.reshadow (s : State) (qpn : Nat) : State := if s.mirroring then s.sendShadow qpn else s

/-- Delete an I/O queue (R106). -/
def State.deleteQueue (s : State) (cntlid qid : Nat) : State :=
  let u := s.host.queues.find? (cntlid * 256 + qid)
  let s := s.dropCmds fun c => c.tag.cntlid == cntlid && c.tag.qid == qid
  let s := { s with host := { s.host with queues := s.host.queues.erase (cntlid * 256 + qid) } }
  match u with
  | some u => s.reshadow u.qpn
  | none => s

/-- Delete a controller with its queues (R57, R106). -/
def State.deleteCtrl (s : State) (cntlid : Nat) : State :=
  let us := (s.host.queues.keep fun k _ => k / 256 == cntlid).vals
  let s := s.dropCmds fun c => c.tag.cntlid == cntlid
  let s := { s with host := { s.host with queues := s.host.queues.keep fun k _ => k / 256 != cntlid, ctrls := s.host.ctrls.erase cntlid } }
  us.foldl (fun s u => s.reshadow u.qpn) s

/-- What follows once a response is sent: a Disconnect that has succeeded ends its queue, or the controller (R52, R106). -/
def State.afterResponse (s : State) (c : Cmd) : State :=
  match c.op, c.result with
  | .disconnect, some (⟨0, 0⟩, _) => if c.tag.qid = 0 then s.deleteCtrl c.tag.cntlid else s.deleteQueue c.tag.cntlid c.tag.qid
  | _, _ => s

/-! ## Stages of a command -/

/-- Record the outcome of a command; its locks go (R70), and the PSNs of a phase that will not be sent. -/
def State.finish (s : State) (c : Cmd) (st : Status) (dw0 : Nat) : State :=
  ((s.setCmd { c with result := some (st, dw0) }).releaseLocks c.tag.num).trimResv c.qpn

/-- Outcome of both commands of a fused pair (R76). -/
def State.finish2 (s : State) (c : Cmd) (st1 st2 : Status) : State :=
  ((s.setCmd { c with result := some (st1, 0), result2 := some (st2, 0) }).releaseLocks c.tag.num).trimResv c.qpn

/-- Bytes that the host must send for a command; none where it sends none. -/
def HostOp.dataLen : HostOp → Option Nat
  | .write _ n => some (n * 4096)
  | .compare _ n => some (n * 4096)
  | .compareAndWrite _ n _ => some (2 * n * 4096)
  | .store _ v _ => some v
  | _ => none

/-- Bytes that are still to be fetched for a command: of a fused pair, what did not come in a capsule. -/
def Cmd.fetchLen (c : Cmd) : Option Nat := c.op.dataLen.map fun n => n - ((c.part.map fun p => p.2.length).getD 0)

/-- Progress of the ledger of a phase. -/
def Cmd.led (c : Cmd) : Phase → Led
  | .readRequests => c.fetchLedger
  | .readData => c.dataLedger
  | .response => c.respLedger

/-- A LEDGER message before a phase, when new work is mirrored (R142); the PSNs it names are the phase's from then on. Answers whether the
phase may begin. -/
def State.ledger (s : State) (c : Cmd) (ph : Phase) (psns : Nat) : State × Bool :=
  let t := c.tag.num
  if !s.mirroring then (s, s.mayStart c.qpn t ph)
  else match c.led ph with
    | .acked => (s, s.mayStart c.qpn t ph)
    | .sent => (s, false)
    | .idle => match s.qp c.qpn with
      | none => (s, false)
      | some q =>
        let r : LedgerRec := { tag := t, qpn := c.qpn, psn := q.spsn, count := psns, phase := ph, point := c.point,
                               res := if ph = .response then c.result else none, res2 := if ph = .response then c.result2 else none }
        let s := s.setQp c.qpn { q with spsn := psnAdd q.spsn psns,
                                        resv := q.resv ++ [{ tag := t, phase := ph, psn := q.spsn, n := psns }] }
        ((s.setCmd (c.setLed ph .sent)).send (vlData c.cls) c.cls t (.ledger r), false)

/-- PSNs that a length takes on a command's queue pair. -/
def State.psnsFor (s : State) (c : Cmd) (len : Nat) : Nat := ((s.qp c.qpn).map fun q => q.pkts len).getD 1

/-- A planned handover gives a queue pair away: of a listed port, of every queue pair on it, or in a handback of the adopted ones
(R158, R159). -/
def State.givesQp (s : State) (q : Qp) : Bool :=
  match s.pair.giving with
  | some (_, ports, shards) => ports.contains q.fp && (!shards.isEmpty || qpSide q.e.qpn != s.side)
  | none => false

/-- Data and completions may go on a queue pair: not while its work is taken over and the 8 µs of R131 last, its probe is out (R147),
or a handover has stopped its port (R158). -/
def State.maySendQp (s : State) (qpn : Nat) : Bool :=
  s.mayTransmit && match s.qp qpn with
  | some q => q.probes == 0 && (qpSide qpn == s.side || s.pair.holdTx.isNone) &&
      !((s.pair.giving.map Prod.fst) == some 1 && s.givesQp q)
  | none => true

/-- Ask for the locks of a command, one after another (R68). -/
def State.stageLock (s : State) (t : Nat) : State := s.nextLocks t (((s.cmd t).map fun c => c.wants.length).getD 0)

/-- Fetch write or compare data by RDMA READ (R142). -/
def State.stageFetch (s : State) (t : Nat) : State :=
  match s.cmd t with
  | none => s
  | some c => match c.fetchLen with
    | none => s
    | some len =>
      if c.data.isSome || c.fetching || c.result.isSome || !c.accepted || !s.holdsLocks t then s
      else if len = 0 then s.setCmd { c with data := some ((c.part.map Prod.snd).getD []) }
      else
        let n := s.psnsFor c len
        match s.ledger c .readRequests n with
        | (s, false) => s
        | (s, true) =>
          if !s.maySendQp c.qpn || !s.mayRead c.qpn then s
          else ((s.setCmd { c with fetching := true, fetchAt := s.ao.tb }).sendPhase t .readRequests 0 c.qpn n (.readReq t len [])).phaseSent
            c.qpn t .readRequests

/-- Operations that read their range or value. -/
def HostOp.reads : HostOp → Bool
  | .read _ _ | .compare _ _ | .compareAndWrite _ _ _ | .verify _ _ | .retrieve _ _ | .list _ _ | .exist _ => true
  | _ => false

/-- Ask the media for a chunk of a read. -/
def State.askChunk (s : State) (t n ref : Nat) (c : Cmd) : State :=
  let e := s.chunk ref
  s.readPack e.pack (ref - e.member) (refDomain ref) c.cls (s.tileOf (c.nsid + n)) (.read t n e.member)

/-- The bytes of a List's buffer: a count, then whole entries padded to four bytes (R89). -/
def listBytes (buf : Nat) : List Key → Nat → Bytes → Bytes
  | [], n, acc => le 4 n ++ acc
  | k :: l, n, acc =>
    let e := padMul 4 (le 2 k.length ++ k)
    if buf < 4 + acc.length + e.length then le 4 n ++ acc else listBytes buf l (n + 1) (acc ++ e)

/-- Resolve the references of a read under its lock, release a shared lock, note the read point, ask for the chunks (R70,
R142). -/
def State.stageResolve (s : State) (t : Nat) : State :=
  match s.cmd t with
  | none => s
  | some c =>
    if !c.op.reads || c.pieces.isSome || c.result.isSome || !c.accepted || !s.holdsLocks t then s
    else
      let go := fun (s : State) (ps : List Piece) =>
        let pt : ReadPoint := { seq0 := if s.side = 0 then s.jrnl.nextSeq else s.jrnl.partnerSeq,
                                seq1 := if s.side = 1 then s.jrnl.nextSeq else s.jrnl.partnerSeq, mapEpoch := s.ao.tb }
        let shared := !c.excl
        let c := { c with pieces := some ps, point := pt }
        let s := s.setCmd c
        let s := if shared then s.releaseLocks t else s
        let s := { s with ftl := { s.ftl with points := s.ftl.points.insert t s.ao.tb } }
        ((List.range ps.length).zip ps).foldl (fun s ip => match ip.2 with
          | .chunk _ ref _ => s.askChunk t ip.1 ref c
          | _ => s) s
      let s := match c.op with
        | .retrieve k _ | .exist k | .list k _ => s.resolveLeaf c.nsid k
        | _ => s
      -- a read that the failed head had begun to send resolves at its read point (R147)
      let v := match s.pair.ledger.find? (ledgerKey t .readData) with
        | some l => s.viewAt l.point
        | none => s
      match c.op with
      | .read a n | .compare a n | .compareAndWrite a n _ | .verify a n => go s (v.blockPieces c.nsid a n)
      | .retrieve k _ => match v.keyPieces c.nsid k with
        | some (_, ps) => go s ps
        | none => s.finish c ⟨1, 0x87⟩ 0
      | .exist k => match s.keyPieces c.nsid k with
        | some (_, ps) => if ps.any Piece.isLost then s.finish c ⟨1, 0x88⟩ 0 else s.finish c stOk 0
        | none => s.finish c ⟨1, 0x87⟩ 0
      | .list k buf => go s [.bytes (listBytes buf (v.keysFrom c.nsid k) 0 [])]
      | _ => s

/-- Status of a read that meets a lost block or key (R82, R308). -/
def lostStatus : HostOp → Status
  | .retrieve _ _ | .list _ _ | .exist _ => ⟨1, 0x88⟩
  | _ => stUnrecovered

/-- What follows once every piece of a read is there: compare, verify, or data to send. -/
def State.stageJudge (s : State) (t : Nat) : State :=
  match s.cmd t with
  | none => s
  | some c => match c.pieces with
    | none => s
    | some ps =>
      if c.result.isSome || c.begun then s
      else if ps.any Piece.isLost then match c.op with
        | .compareAndWrite _ _ _ => s.finish2 c stUnrecovered ⟨0, 0x09⟩
        | op => s.finish c (lostStatus op) 0
      else match joinPieces ps with
        | none => s
        | some b => match c.op with
          | .verify _ _ => s.finish c stOk 0
          | .compare _ n => match c.data with
            | some d => s.finish c (if d.take (n * 4096) = b then stOk else ⟨2, 0x85⟩) 0
            | none => s
          | .compareAndWrite _ n _ => match c.data with
            | some d => if d.take (n * 4096) = b then s else s.finish2 c ⟨2, 0x85⟩ ⟨0, 0x09⟩
            | none => s
          | _ => s

/-- Length of the union of some intervals, of `fuel` pieces at most, each from its beginning to its end. -/
def unionLen : List (Nat × Nat) → Nat → Nat
  | [], _ => 0
  | (a, b) :: l, from_ => (b - max a from_) + unionLen l (max b from_)

/-- The latency that R64 measures, up to now: without the intervals of R66, in which data was being fetched from the host, the port's
transmitter was held on the command's priority, or an earlier class-0 command's lock stood in the way. -/
def State.c0Latency (s : State) (c : Cmd) : Nat :=
  let p := c.fdie * 4 + c.port
  let x := s.fport p
  let prio := s.prioOf p c.cls
  let held := (x.holds.filter fun h => h.1 == prio).map Prod.snd
  let now := match x.hold.find? prio with
    | some (till, from_) => [(from_, min till s.ao.tb)]
    | none => []
  let l := ((c.skips ++ held ++ now).map fun i => (max i.1 c.arrival, min i.2 s.ao.tb)).filter fun i => decide (i.1 < i.2)
  (s.ao.tb - c.arrival) - unionLen (l.mergeSort fun a b => decide (a.1 ≤ b.1)) 0

/-- Send read data by RDMA WRITE after its ledger, then the command has its outcome (R142, R88). -/
def State.stageSend (s : State) (t : Nat) : State :=
  match s.cmd t with
  | none => s
  | some c =>
    let buf := match c.op with
      | .read _ n => some (n * 4096)
      | .retrieve _ b | .list _ b => some b
      | .getLog _ _ n _ | .roleReply n | .attestReport n | .attestCalrow n => some n
      | .identify _ _ => some 4096
      | _ => none
    match buf, c.pieces.bind joinPieces with
    | some buf, some b =>
      if c.result.isSome || c.sentData then s
      else
        let out := b.take buf
        match s.ledger c .readData (s.psnsFor c out.length) with
        | (s, false) => s
        | (s, true) =>
          if !s.maySendQp c.qpn then s
          else
            let mtu := ((s.qp c.qpn).map fun q => q.e.mtu).getD 4096
            let s := ((s.setCmd { c with sentData := true }).sendData c.qpn t 0 0 (mtuPieces mtu out)).phaseSent c.qpn t .readData
            let c := { c with sentData := true }
            let s := if c.cls = 0 then s.maxFld (dieF c.fdie) Reg.NVF_C0_MAXLAT_READ_NS (s.c0Latency c) else s
            s.finish c stOk (match c.op with
              | .retrieve _ _ => b.length
              | _ => 0)
    | _, _ => s

/-- A command writes the journal: its shard, whether it takes space, and the length of its data. -/
def Cmd.appends (c : Cmd) : Option Bool :=
  match c.op with
  | .write _ _ | .store _ _ _ | .compareAndWrite _ _ _ => some true
  | .writeZeroes _ _ _ | .deallocate _ | .delete _ => some false
  | _ => none

/-- The records of a command (R143, R144). A deallocated range of length 0 gets its record too (log entry 196). -/
def State.recsOf (s : State) (c : Cmd) : List JRec :=
  let media := ((s.ns c.nsid).map NsRec.mediaDur).getD false
  let base : JRec := { side := s.side, kv := false, mediaDur := media, zeroes := false, dealloc := false, part := 0, parts := 1,
                       epoch := c.epoch, seq := 0, tag := c.tag.num, nsid := c.nsid, key := [], cls := c.cls, slba := 0, nlb := 0,
                       arrival := c.arrival, append := 0, data := [] }
  let d := c.data.getD []
  let blocks := fun (slba : Nat) (d : Bytes) =>
    let ps := pieces 131072 d
    ((List.range ps.length).zip ps).map fun ip => { base with slba := slba + ip.1 * 32, data := ip.2 }
  match c.op with
  | .write a n => blocks a (d.take (n * 4096))
  | .compareAndWrite a n _ => blocks a ((d.drop (n * 4096)).take (n * 4096))
  | .writeZeroes a n _ => [{ base with zeroes := true, slba := a, nlb := n }]
  | .deallocate rs => ((List.range rs.length).zip rs).map fun ir =>
      { base with dealloc := true, slba := ir.2.1, nlb := ir.2.2, part := ir.1, parts := rs.length }
  | .store k v _ =>
    let ps := if v = 0 then [[]] else pieces 131072 (d.take v)
    ((List.range ps.length).zip ps).map fun ip =>
      { base with kv := true, key := k, slba := v, part := ip.1, parts := ps.length, data := ip.2 }
  | .delete k => [{ base with kv := true, dealloc := true, key := k }]
  | _ => []

/-- Everything the append waits for is there: locks held, data fetched, a fused compare matched. -/
def State.readyToAppend (s : State) (c : Cmd) : Bool :=
  c.accepted && s.holdsLocks c.tag.num && c.result.isNone && !c.begun && (c.op.dataLen.isNone || c.data.isSome) &&
    (match c.op with
    | .compareAndWrite _ n _ => match c.pieces.bind joinPieces, c.data with
      | some b, some d => d.take (n * 4096) == b
      | _, _ => false
    | _ => true)

/-- Outcome of a command before its append: R86 and R87 for keys, then R290, R291 and R471. -/
def State.appendDenied (s : State) (c : Cmd) (grows : Bool) : Option Status :=
  let shard := (c.wants.head?.map Prod.fst).getD 0
  let key := match c.op with
    | .store k _ o =>
      let present := (s.keyPieces c.nsid k).isSome
      if o.mustExist && !present then some ⟨1, 0x87⟩ else if o.mustNotExist && present then some ⟨1, 0x89⟩ else none
    | .delete k => if (s.keyPieces c.nsid k).isSome then none else some ⟨1, 0x87⟩
    | _ => none
  match key with
  | some st => some st
  | none => s.writeDenied c.nsid shard grows

/-- Begin the append of a command, once it may be admitted (R72, R143, R283, R290). -/
def State.stageAppend (s : State) (t : Nat) : State :=
  match s.cmd t with
  | none => s
  | some c => match c.appends with
    | none => s
    | some grows =>
      if !s.readyToAppend c then s
      else match s.appendDenied c grows with
        | some st => match c.op with
          | .compareAndWrite _ _ _ => s.finish2 c st st
          | _ => s.finish c st 0
        | none =>
          let rs := s.recsOf c
          let size := rs.foldl (fun n r => n + r.size) 0
          if !s.roomFor c.cls size (rs.any JRec.mediaDur || s.soloMedia) then
            let short := rs.any JRec.mediaDur && decide (s.journalBlocks.length < 3) && !c.admitWait
            let s := s.setCmd { c with admitWait := true }
            if short then s.event (dieM 0) 0x24 0 noInst else s
          else
            let first := s.jrnl.nextSeq
            let s := (s.setCmd { c with begun := true, admitWait := false, seqs := (List.range rs.length).map (first + ·) }).markBegun t
            (rs.foldl State.appendRec s).lagCheck

/-- The completion condition of a command that has appended (R141, R155, R157). -/
def State.stageComplete (s : State) (t : Nat) : State :=
  match s.cmd t with
  | none => s
  | some c =>
    if !c.begun || c.result.isSome || c.op.isAdmin then s
    else
      let s := s.raiseCopies t
      let s := s.lagCheck
      let ok := c.seqs.all fun q => match s.jrnl.own.find? q with
        | some e => s.recComplete e
        | none => true
      let ok := ok && (s.jrnl.mirror.vals.filter fun e => e.r.tag == t).all s.recComplete
      if !ok || (s.jrnl.lagging && c.cls != 0) then s
      else match c.op with
        | .compareAndWrite _ _ _ => s.finish2 c stOk stOk
        | _ => s.finish c stOk 0

/-- Send the response capsule, after its ledger; the identifier is free once the completion is sent (R104, R142, R439). A command
whose queue is gone sends none (R106). -/
def State.stageRespond (s : State) (t : Nat) : State :=
  match s.cmd t with
  | none => s
  | some c => match c.result with
    | none => s
    | some (st, dw0) =>
      if c.mute then s.forget t
      else if !c.accepted || s.dataOut c.qpn t then s
      else match s.ledger c .response (if c.result2.isSome then 2 else 1) with
        | (s, false) => s
        | (s, true) =>
          if !s.maySendQp c.qpn then s
          else
            let s := s.sendPhase t .response 0 c.qpn 1 (.send t c.tag.cntlid c.tag.qid c.tag.cid st dw0 c.sgl.invalidate)
            let s := match c.result2, c.op with
              | some (st2, dw2), .compareAndWrite _ _ cid2 => s.sendPhase t .response 1 c.qpn 1
                  (.send t c.tag.cntlid c.tag.qid cid2 st2 dw2 c.sgl.invalidate)
              | _, _ => s
            let s := s.phaseSent c.qpn t .response
            let s := if c.cls = 0 && c.begun then s.maxFld (dieF c.fdie) Reg.NVF_C0_MAXLAT_WRITE_NS (s.c0Latency c) else s
            (s.forget t).afterResponse c

/-- Move a command on as far as it can go. -/
def State.advance (s : State) (t : Nat) : State :=
  (((((((s.stageLock t).stageFetch t).stageResolve t).stageJudge t).stageAppend t).stageComplete t).stageSend t).stageRespond t

/-- Move every command on, oldest first. -/
def State.advanceAll (s : State) : State :=
  let order := s.host.cmds.vals.mergeSort fun a b => decide (a.arrival ≤ b.arrival)
  order.foldl (fun s c => s.advance c.tag.num) s

/-! ## Queue pairs in error -/

/-- A queue pair enters the error state (R451): it sends nothing more, its commands follow R106, its shadow on the partner is
deleted, an exception is posted; with an admin queue its controller goes as well. -/
def State.qpFail (s : State) (qpn : Nat) : State :=
  match s.qp qpn with
  | none => s
  | some q =>
    if q.error then s
    else
      let s := s.setQp qpn { q with error := true, sent := [], held := [], heldSince := none, heldR := [],
                                        heldRSince := none, asm := none, owed := [] }
      let s := s.dropCmds fun c => c.qpn == qpn
      let s := if q.e.qid = 0 then s.deleteCtrl q.e.cntlid else s.deleteQueue q.e.cntlid q.e.qid
      let s := s.addFld (dieF q.fdie) (Reg.RDM_CNT_COUNT.plus 48) 1
      let s := if s.mirroring then s.send 4 0 0 (.shadowqp false q.e none none) else s
      s.exc 0 .qpError [qpn]

/-! ## Asynchronous events (R81) -/

/-- Complete an outstanding Asynchronous Event Request of a controller with a notice, or keep the notice for the next one; an
event type is masked until its log page is read. -/
def State.asyncNotice (s : State) (cntlid ty info page : Nat) : State :=
  match s.host.ctrls.find? cntlid with
  | none => s
  | some k =>
    if k.masked.contains ty then s
    else match k.aers with
      | t :: rest =>
        let k := { k with aers := rest, masked := k.masked ++ [ty] }
        let s := { s with host := { s.host with ctrls := s.host.ctrls.insert cntlid k } }
        match s.cmd t.num with
        | some c => (s.finish c stOk (ty + info * 256 + page * 65536)).advance t.num
        | none => s
      | [] =>
        if ty = 7 ∨ k.notices.contains (ty, info, page) then s
        else { s with host := { s.host with ctrls := s.host.ctrls.insert cntlid { k with notices := k.notices ++ [(ty, info, page)] } } }

/-- A notice to every controller. -/
def State.asyncAll (s : State) (ty info page : Nat) : State :=
  s.host.ctrls.keys.foldl (fun s k => s.asyncNotice k ty info page) s

/-- A changed-namespace notice (R101). -/
def State.nsChanged (s : State) (nsid : Nat) : State :=
  s.host.ctrls.vals.foldl (fun s k =>
    if k.attached.contains nsid || k.changed.contains nsid then
      let k' := { k with changed := if k.changed.contains nsid then k.changed else k.changed ++ [nsid] }
      let s := { s with host := { s.host with ctrls := s.host.ctrls.insert k.cntlid k' } }
      s.asyncNotice k.cntlid 2 0 4
    else s) s

end Sys2Proof.Machine
end

