-- ==== Sys2Proof/Machine/HostEnter.lean ====
section
/-! DEFINITION. Arrival of host commands (spec/02, R53, R54, R103 to R105): checks, class, tag, mirror, locks. -/

namespace Sys2Proof.Machine

open Sys2Proof

/-! ## Arrival -/

def queueKey (cntlid qid : Nat) : Nat := cntlid * 256 + qid

def State.queue (s : State) (cap : Cap) : Option Queue := s.host.queues.find? (queueKey cap.cntlid cap.qid)

/-- Commands outstanding on a queue; those of an earlier queue of its number are not (R106). -/
def State.outstanding (s : State) (cntlid qid : Nat) : List Cmd :=
  s.host.cmds.vals.filter fun c => c.tag.cntlid == cntlid && c.tag.qid == qid && !c.mute

/-- Command identifiers that a command holds: a fused pair has two. -/
def Cmd.cids (c : Cmd) : List Nat := c.tag.cid :: match c.op with
  | .compareAndWrite _ _ w => [w]
  | _ => []

/-- The identifier is that of a command outstanding on the queue (R103); the first of a fused pair holds its own while it waits. -/
def State.cidTaken (s : State) (q : Queue) (cid : Nat) : Bool :=
  ((s.outstanding q.cntlid q.qid).any fun c => c.cids.contains cid) || q.half.any fun h => !h.aborted && h.cap.cid == cid

/-- Class-0 admission (R63): the class a command runs at, with the counts of the trailing millisecond. -/
def State.admitC0 (s : State) (fdie port bytes : Nat) : State × Nat :=
  let now := s.ao.tb
  let recent := fun (t : Nat) => decide (now < t + 1000000)
  let cs := (s.host.c0cmds.getD fdie []).filter recent
  let bs := (s.host.c0bytes.getD (fdie * 4 + port) []).filter fun x => recent x.1
  let sum := bs.foldl (fun n x => n + x.2) 0
  let lim := min 0x5DC (s.fld (dieF fdie) Reg.NVF_C0_LIMIT_CMDS_PER_MS)
  let pct := min 0x14 (s.fld (dieF fdie) Reg.NVF_C0_LIMIT_PORT_PCT)
  let excess := decide (lim < cs.length + 1) || decide (s.lineBytesPerMs (fdie * 4 + port) * pct < (sum + bytes) * 100)
  if excess then (s.addFld (dieF fdie) Reg.NVF_C0_OVER_COUNT 1, 1)
  else ({ s with host := { s.host with c0cmds := s.host.c0cmds.insert fdie (cs ++ [now]),
                                       c0bytes := s.host.c0bytes.insert (fdie * 4 + port) (bs ++ [(now, bytes)]) } }, 0)

/-- A namespace-table entry of an F-die (R107). -/
def State.nsFlag (s : State) (fdie nsid : Nat) (f : Fld) : Bool := s.tblFlag (dieF fdie) 1 (nsid - 1) 0 f

/-- The class a command of a queue runs at (R60, R61, R63, R488). -/
def State.cmdClass (s : State) (cap : Cap) (q : Queue) (kv : Bool) (bytes : Nat) : State × Nat :=
  if q.cls ≠ 0 then (s, q.cls)
  else if kv || !s.nsFlag cap.fdie cap.nsid Reg.NVF_NSTAB_DATA_C0_ELIGIBLE || (s.syncSess cap.nsid).isSome then (s, 1)
  else s.admitC0 cap.fdie cap.port bytes

def State.setQueueAt (s : State) (key : Nat) (q : Queue) : State := { s with host := { s.host with queues := s.host.queues.insert key q } }

/-- Enter a command: its tag and ISSUE, mirror of its capsule, and its outcome where a check has failed it (R120, R140); its locks are
asked for as it advances (R68). `part`: in-capsule data of one command of a fused pair. -/
def State.enterAs (s : State) (cap : Cap) (q : Queue) (op : HostOp) (cls : Nat) (wants : List Want) (excl : Bool)
    (part : Option (Bool × Bytes)) (res res2 : Option (Status × Nat)) : State :=
  let tag : Tag := { cntlid := cap.cntlid, qid := cap.qid, cid := cap.cid, issue := q.issue }
  let q := { q with issue := (q.issue + 1) % 2 ^ 24 }
  let s := s.setQueueAt (queueKey cap.cntlid cap.qid) q
  let mirrored := s.mirroring
  let inCap := cap.sgl.inCapsule && op.dataLen.isSome
  let wants := if res.isSome then [] else wants
  let c : Cmd := { tag := tag, fdie := cap.fdie, port := cap.port, qpn := cap.qpn, nsid := cap.nsid, op := op, cls := cls,
                   sgl := cap.sgl, arrival := s.ao.tb, accepted := !mirrored, epoch := s.epoch, wants := wants,
                   excl := excl, asked := 0, fetchLedger := .idle, fetching := false,
                   data := if inCap then some cap.data else none, part := part, begun := false, seqs := [], admitWait := false, pieces := none,
                   point := { seq0 := 0, seq1 := 0, mapEpoch := 0 }, dataLedger := .idle, sentData := false, result := res,
                   result2 := res2, respLedger := .idle, mute := false, fetchAt := 0, skips := [] }
  let s := s.setCmd c
  let s := match s.qp cap.qpn with
    | some qp => if mirrored then s.setQp cap.qpn { qp with owed := qp.owed ++ [(psnAdd cap.psn (cap.npsn - 1), tag.num)] }
        else s.sendAck cap.qpn qp (psnAdd cap.psn (cap.npsn - 1))
    | none => s
  let s := if mirrored then
      let m : MirrorCap := { tag := tag, op := op, fdie := cap.fdie, port := cap.port, qpn := cap.qpn, nsid := cap.nsid,
                             sgl := cap.sgl, data := cap.data, arrival := s.ao.tb, psn := cap.psn, npsn := cap.npsn, cls := cls,
                             part := part, epoch := s.epoch, res := res, res2 := res2 }
      s.send (vlData cls) cls tag.num (.capsule m)
    else s
  s.advance tag.num

def State.enterCmd (s : State) (cap : Cap) (q : Queue) (op : HostOp) (cls : Nat) (wants : List Want) (excl : Bool)
    (res res2 : Option (Status × Nat)) : State :=
  s.enterAs cap q op cls wants excl none res res2

def State.setQueue (s : State) (q : Queue) : State := s.setQueueAt (queueKey q.cntlid q.qid) q

/-- The first capsule of a fused pair leaves its place. -/
def State.takeHalf (s : State) (cap : Cap) : State × Option Half :=
  match s.queue cap with
  | some q => (s.setQueue { q with half := none }, q.half)
  | none => (s, none)

/-- A first command that waits fails with Missing Fused Command when the next capsule is not its second (R77); that capsule goes its own
way, and a second that comes later fails likewise. One that was aborted has its outcome already (R78). -/
def State.failHalf (s : State) (cap : Cap) : State :=
  match s.takeHalf cap with
  | (s, some h) => match s.queue cap with
    | some q => if h.aborted then s else s.enterCmd h.cap q .judged q.cls [] false (some (⟨0, 0x0A⟩, 0)) none
    | none => s
  | (s, none) => s

/-- First failing check of the SGL and of the transfer length (R100, R105): `need` bytes, checked against the SGL where the
command moves data. -/
def sglCheck (cap : Cap) (incapsEn : Bool) (need : Option Nat) : Option Status :=
  if !cap.sgl.known then some ⟨0, 0x11⟩
  else if cap.sgl.inCapsule && (cap.data.length != cap.sgl.len || decide (8192 < cap.data.length) || !incapsEn) then some stSglLen
  else match need with
    | some n => if 2 ^ 20 < n then some stBadField else if cap.sgl.len < n then some stSglLen else none
    | none => none

/-- First failing check of the namespace (R54, R95, R97, R99, R101, R105). -/
def State.nsCheck (s : State) (cap : Cap) (kv : Bool) : Option Status :=
  let ctrl := s.host.ctrls.find? cap.cntlid
  if s.arr.sanitize.isSome then some ⟨0, 0x1D⟩
  else if s.arr.sanFailed then some ⟨0, 0x1C⟩
  else if !s.nsFlag cap.fdie cap.nsid Reg.NVF_NSTAB_DATA_VALID || s.nsFlag cap.fdie cap.nsid Reg.NVF_NSTAB_DATA_DISABLED ||
      !((ctrl.map fun k => k.attached.contains cap.nsid).getD false) ||
      ((s.ns cap.nsid).map fun n => n.removing.isSome || n.disabled || n.releasing).getD false then some stBadNs
  else if ((s.ns cap.nsid).map fun n => n.formatting.isSome).getD false then some ⟨0, 0x84⟩
  else if s.nsFlag cap.fdie cap.nsid Reg.NVF_NSTAB_DATA_KV != kv then some stBadOpcode
  else none

/-- A capsule reaches a queue (R77, R103, R105): what is done with it before its command is looked at. The continuation gets the queue
and the outcome that an earlier check has fixed: an opcode outside R52 to R54 is invalid. A capsule without a readable CID is discarded
and counted. -/
def State.arrive (s : State) (cap : Cap) (io : Bool) (k : State → Queue → Option Status → State) : State :=
  let s := { s with rdma := { s.rdma with capsules := s.rdma.capsules.filter fun c => c.1 != cap.qpn || c.2.1 != cap.psn } }
  if !s.flag (dieF cap.fdie) Reg.NVF_CTRL_EN || (s.qp cap.qpn).any s.givesQp || s.ao.dump.isSome then s
  else
    let s := s.failHalf cap
    match s.queue cap with
    | none => s
    | some q =>
      let out := s.outstanding cap.cntlid cap.qid
      if q.size ≤ out.length then s.qpFail cap.qpn
      else if cap.bytes < 4 then { s with host := { s.host with discards := s.host.discards + 1 } }
      else
        let pre := if s.cidTaken q cap.cid then some ⟨0, 0x03⟩
          else if cap.bytes < 64 then some ⟨0, 0x11⟩
          else if (cap.qid == 0) == io then some stBadOpcode
          else match cap.alt with
            | .opcode _ => some stBadOpcode
            | _ => none
        k s q pre

/-- Status with the first of several checks that fails. -/
def firstFail (l : List (Option Status)) : Option Status := l.findSome? id

/-- An NVM or Key Value command on an I/O queue. `need` is the transfer it checks, `bytes` what R63 counts. -/
def State.ioCmd (s : State) (cap : Cap) (kv : Bool) (op : HostOp) (need : Option Nat) (fuseOk : Bool) (chk : List (Option Status))
    (wants : List Want) (excl : Bool) : State :=
  s.arrive cap true fun s q pre =>
    let incaps := s.flag (dieF cap.fdie) Reg.NVF_CTRL_INCAPS_EN
    let st := firstFail ([pre, if cap.fuse != .single && !fuseOk then some stBadField else none, s.nsCheck cap kv,
      sglCheck cap incaps need] ++ chk)
    let (s, cls) := if st.isSome then (s, q.cls) else s.cmdClass cap q kv (need.getD 0)
    s.enterCmd cap q op cls wants excl (st.map fun x => (x, 0)) none

/-- The LBA range lies within the namespace (R105). -/
def State.lbaCheck (s : State) (nsid slba nlb : Nat) : Option Status :=
  if s.nsBlocks nsid < slba + nlb then some ⟨0, 0x80⟩ else none

end Sys2Proof.Machine
end

