-- ==== Sys2Proof/Machine/Admin.lean ====
section
/-! DEFINITION. Commands of admin queues (spec/02, R46 to R60, R78 to R83, R94 to R101): what each does once its capsule is
accepted. -/

namespace Sys2Proof.Machine

open Sys2Proof

/-- Put bytes over a string from a position on. -/
def overlay (l : Bytes) (at_ : Nat) (b : Bytes) : Bytes := l.take at_ ++ b ++ l.drop (at_ + b.length)

/-- Put several fields over a string: position and bytes. -/
def overlays (l : Bytes) (fs : List (Nat × Bytes)) : Bytes := fs.foldl (fun l f => overlay l f.1 f.2) l

def State.setCtrl (s : State) (k : Ctrl) : State := { s with host := { s.host with ctrls := s.host.ctrls.insert k.cntlid k } }

def State.setNs (s : State) (nsid : Nat) (n : NsRec) : State := { s with arr := { s.arr with nss := s.arr.nss.insert nsid n } }

/-! ## Connect (R47 to R49, R57 to R59, R444) -/

/-- The class that the queue class table gives an I/O queue (R59). -/
def State.queueClass (s : State) (fdie : Nat) (nqn : Bytes) (qid : Nat) : Nat :=
  let f := fun (i : Nat) (f : Fld) => s.tblFld (dieF fdie) 0 i 0 f
  let h := (crc32c nqn).toNat
  match (List.range 256).find? fun i => f i Reg.NVF_QTAB_DATA_VALID == 1 &&
      (f i Reg.NVF_QTAB_DATA_ANYHOST == 1 || f i Reg.NVF_QTAB_DATA_HOSTHASH == h) &&
      decide (f i Reg.NVF_QTAB_DATA_QID_LO ≤ qid) && decide (qid ≤ f i Reg.NVF_QTAB_DATA_QID_HI) with
  | some i => f i Reg.NVF_QTAB_DATA_CLASS
  | none => s.fld (dieF fdie) Reg.NVF_CTRL_DEFAULT_CLASS

/-- Own contexts of an F-die that are pinned (R444). -/
def State.pinned (s : State) (fdie : Nat) : Nat := (s.rdma.qps.vals.filter fun q => q.fdie == fdie && q.pinned).length

/-- Give a queue pair its queue and class; a class-0 queue is pinned, or runs as class 1 (R444). -/
def State.bindQueue (s : State) (qpn cntlid qid cls : Nat) : State × Nat :=
  match s.qp qpn with
  | none => (s, cls)
  | some q =>
    let full := decide (cls = 0) && decide (s.pinMax q.fdie ≤ s.pinned q.fdie)
    let cls := if full then 1 else cls
    let s := if full then s.addFld (dieF q.fdie) (Reg.RDM_CNT_COUNT.plus 80) 1 else s
    let e := { q.e with cntlid := cntlid, qid := qid, cls := cls }
    let pin := decide (cls = 0)
    let s := s.setQp qpn { q with e := e, pinned := pin, onDie := q.onDie || pin }
    (s, cls)

/-- A response on a queue pair that carries no queue. -/
def State.answerBare (s : State) (qpn cntlid qid cid : Nat) (st : Status) (dw0 : Nat) : State :=
  s.sendQp qpn 1 (.send 0 cntlid qid cid st dw0 false)

def stBadConnect : Status := ⟨1, 0x82⟩

/-- What a Connect fails with (R47 to R49, R57, R58, R105); a Connect that names another subsystem than that of the configuration image
as well (R46, log entry 198). A queue pair that carries a queue of its kind already is no place for a second. -/
def State.connectCheck (s : State) (qpn : Nat) (sub : Bytes) (cntlid qid sqsize kato : Nat) (disc : Bool) : Option Status :=
  let taken := s.host.queues.vals.any fun u => u.qpn == qpn
  if taken ∨ (!disc ∧ sub ≠ s.boot.nqn) then some stBadConnect
  else if qid = 0 then
    if cntlid ≠ 0xFFFF then some stBadConnect
    else if 31 < sqsize then some stBadConnect
    else if !disc && (decide (kato < 500) || decide (3600000 < kato)) then some ⟨0, 0x1A⟩
    else none
  else if !s.host.ctrls.has cntlid then some stBadConnect
  else if 128 < qid ∨ 1023 < sqsize then some stBadConnect
  else if s.host.queues.has (queueKey cntlid qid) then some stBadConnect
  else none

/-- A free controller identifier of this head (R47, R48). -/
def State.freeCntlid (s : State) : Option Nat :=
  (List.range 0x800).find? (fun n => !s.host.ctrls.has (s.side * 0x1000 + n + 1) &&
    !s.host.cmds.vals.any fun c => c.tag.cntlid == s.side * 0x1000 + n + 1) |>.map fun n => s.side * 0x1000 + n + 1

/-- ISSUE with which a queue starts: beyond that of a command of an earlier queue of its number that is still being completed (R106). -/
def State.firstIssue (s : State) (cntlid qid : Nat) : Nat :=
  (s.host.cmds.vals.filter fun c => c.tag.cntlid == cntlid && c.tag.qid == qid).foldl (fun n c => max n (c.tag.issue + 1)) 0

def Ctrl.fresh (cntlid : Nat) (nqn : Bytes) (kato now : Nat) (attached : List Nat) (disc : Bool) : Ctrl :=
  { cntlid := cntlid, nqn := nqn, kato := kato, kaAt := now, cc := 0, csts := 0, features := [], aers := [], masked := [],
    notices := [], attached := attached, changed := [], nonce := none, reply := none, disc := disc }

/-- Namespaces that a new controller finds attached: all that exist (log entry 18). -/
def State.liveNss (s : State) : List Nat := (s.arr.nss.keep fun _ n => !n.releasing && !(n.removing.isSome && n.deleting)).keys

/-- CONNECT: the queue, and with queue 0 its controller; then the response as of any command. -/
def State.connect (s : State) (cap : Cap) (nqn : ConnNqn) (cntlid qid sqsize kato : Nat) (disc : Bool) : State :=
  if !s.flag (dieF cap.fdie) Reg.NVF_CTRL_EN then s
  else match s.connectCheck cap.qpn nqn.sub cntlid qid sqsize kato disc with
  | some st => s.answerBare cap.qpn cntlid qid cap.cid st 0
  | none =>
    match (if qid = 0 then s.freeCntlid else some cntlid) with
    | none => s.answerBare cap.qpn cntlid qid cap.cid ⟨1, 0x81⟩ 0
    | some c =>
      let cls := if qid = 0 then 7
        else s.queueClass cap.fdie ((s.host.ctrls.find? c).map Ctrl.nqn |>.getD nqn.host) qid
      let s := if qid = 0 then s.setCtrl (.fresh c nqn.host kato s.ao.tb s.liveNss disc) else s
      let (s, cls) := s.bindQueue cap.qpn c qid cls
      let q : Queue := { cntlid := c, qid := qid, cls := cls, size := sqsize + 1, qpn := cap.qpn, fdie := cap.fdie, port := cap.port,
                         issue := s.firstIssue c qid, half := none }
      let s := { s with host := { s.host with queues := s.host.queues.insert (queueKey c qid) q } }
      let s := if s.mirroring then s.sendShadow cap.qpn else s
      s.enterCmd { cap with cntlid := c, qid := qid } q .judged cls [] false (some (stOk, c)) none

/-! ## Data of Identify and of the log pages -/

/-- Identify Controller (R46, R51, R58). The positions are those of NVMe Base 2.0 (log entry 16). -/
def State.identifyCtrl (s : State) (cntlid : Nat) : Bytes :=
  let nm := ((s.host.ctrls.find? cntlid).map fun k => k.disc).getD false
  overlays (padTo 4096 (Config.identifyData 1 0 cntlid))
    [(76, le 1 0x03), (77, le 1 0x08), (78, le 2 cntlid), (80, le 4 0x00020000), (111, le 1 (if nm then 2 else 1)), (256, le 2 0x000A),
     (258, le 1 0x07), (259, le 1 0x07), (320, le 2 1), (328, le 4 3), (512, le 1 0x66), (513, le 1 0x44), (516, le 4 16384),
     (520, le 2 0x008D), (522, le 2 1), (524, le 1 0x04), (525, le 1 0), (526, le 2 0x1F), (528, le 2 0x1F), (532, le 2 0x1F),
     (536, le 4 0x00040005), (540, le 4 16384), (768, padTo 256 s.boot.nqn), (1792, le 4 516), (1796, le 4 1), (1803, le 1 1)]

/-- Identify Namespace: size, one LBA format of 4,096 bytes, FPI, DLFEAT, NAWUPF (R51, R92, R95). -/
def State.identifyNs (s : State) (nsid : Nat) : Bytes :=
  match s.ns nsid with
  | none => zeros 4096
  | some n =>
    let fpi := match n.formatting with
      | some _ => 128 + (100 - n.done * 100 / max 1 n.total)
      | none => 128
    overlays (padTo 4096 (Config.identifyData 0 nsid 0))
      [(0, le 8 n.blocks), (8, le 8 n.blocks), (25, le 1 0), (26, le 1 0), (32, le 1 fpi), (33, le 1 0), (36, le 2 0x1F),
       (128, le 4 (12 * 65536))]

/-- A list of 32-bit identifiers greater than a given one, 1,024 at most. -/
def idList (l : List Nat) (above : Nat) : Bytes := padTo 4096 (((l.filter (above < ·)).take 1024).flatMap (le 4))

/-- A list of controllers: their count, then the identifiers from a given one on. -/
def ctrlList (l : List Nat) (from_ : Nat) : Bytes :=
  let l := (l.filter (from_ ≤ ·)).take 2047
  padTo 4096 (le 2 l.length ++ l.flatMap (le 2))

/-- Controllers of both heads, by identifier: the subsystem is one on both (R46). -/
def State.allCtrls (s : State) : List Ctrl :=
  (s.host.ctrls.vals ++ s.pair.shCtrls.vals.filter fun k => !s.host.ctrls.has k.cntlid).mergeSort fun a b => decide (a.cntlid ≤ b.cntlid)

/-- The structure that a CNS selects (R52). -/
def State.identifyBytes (s : State) (cntlid nsid cns cntid : Nat) : Option Bytes :=
  let attached := ((s.host.ctrls.find? cntlid).map Ctrl.attached).getD []
  let active := fun n => if attached.contains n then s.identifyNs n else zeros 4096
  match cns with
  | 0x00 => some (active nsid)
  | 0x01 => some (s.identifyCtrl cntlid)
  | 0x02 => some (idList attached nsid)
  | 0x10 => some (idList s.liveNss nsid)
  | 0x11 => some (s.identifyNs nsid)
  | 0x12 => some (ctrlList ((s.allCtrls.filter fun k => k.attached.contains nsid).map Ctrl.cntlid) cntid)
  | 0x13 => some (ctrlList (s.allCtrls.map Ctrl.cntlid) cntid)
  | 0x03 | 0x05 | 0x06 | 0x08 | 0x1C => some (padTo 4096 (Config.identifyData cns nsid cntlid))
  | _ => none

def DefEnt.bytes (e : DefEnt) : Bytes :=
  le 8 e.seq ++ le 4 e.nsid ++ le 2 e.kind ++ le 2 e.key.length ++ le 8 e.slba ++ le 4 e.count ++ le 1 (if e.hint then 1 else 0) ++
    zeros 3 ++ padTo 16 e.key ++ zeros 8 ++ le 8 e.lostBy

/-- Log page 0xC0 (R83). -/
def State.deferredPage (s : State) : Bytes :=
  le 8 s.arr.defGen ++ le 4 s.arr.deferred.length ++ zeros 52 ++ s.arr.deferred.flatMap DefEnt.bytes

/-- Log page 0x81: SPROG and SSTAT (R97, R99). -/
def State.sanitizePage (s : State) : Bytes :=
  let prog := match s.arr.sanitize with
    | some n => n.done * 65536 / max 1 n.total
    | none => 0xFFFF
  let stat := if s.arr.sanitize.isSome then 2 else if s.arr.sanFailed then 3 else if s.host.sanDone then 1 else 0
  overlays (padTo 512 (Config.logPageData 0x81)) [(0, le 2 (min prog 0xFFFF)), (2, le 2 stat)]

/-- Address family of a port by its addresses: 1 IPv4, 2 IPv6 where it has no IPv4 address (log entry 199). -/
def familyOf (addrs : List (Nat × Nat × BitVec 128)) (port : Nat) : Nat :=
  if (addrs.any fun a => a.1 == port && a.2.1 == 2) && !(addrs.any fun a => a.1 == port && a.2.1 == 1) then 2 else 1

/-- Front ports that the discovery log page lists (R50), with their address families: the enabled ones of this head, and those of the
partner for which this head knows addresses (log entry 199). -/
def State.discoveryPorts (s : State) : List Nat :=
  let own := (s.fps.filter fun p => s.flag (portDie p) (Reg.MAC_CFG_EN.plus (portOff p)))
  let ips := s.partnerAddrs.filter fun a => a.2.1 != 0
  own.map (familyOf s.ownAddrs) ++ (ips.map Prod.fst).eraseDups.map (familyOf ips)

/-- The discovery log page: one entry for each enabled front port of both heads, with transport type RDMA, its address family, the
subsystem's NQN, and queue-pair service type Reliable Connected (R46, R50; positions of NVMe over Fabrics, log entry 16). -/
def State.discoveryPage (s : State) : Bytes :=
  let l := s.discoveryPorts
  overlays (padTo (1024 * (l.length + 1)) (Config.logPageData 0x70)) ([(8, le 8 l.length)] ++
    ((List.range l.length).zip l).flatMap fun ia =>
      let o := 1024 * (ia.1 + 1)
      [(o, le 1 1), (o + 1, le 1 ia.2), (o + 2, le 1 2), (o + 256, padTo 256 s.boot.nqn), (o + 768, le 1 1)])

/-- A log page's bytes; none for an identifier outside R52. -/
def State.logPage (s : State) (k : Ctrl) (lid : Nat) : Option Bytes :=
  match lid with
  | 0x01 => some (padTo 4096 (Config.logPageData 1))
  | 0x02 =>
    let spare := s.spareLeft
    some (overlays (padTo 512 (Config.logPageData 2))
      [(0, le 1 ((if spare < 10 then 1 else 0) + (if s.arr.readOnly then 8 else 0))), (3, le 1 spare), (4, le 1 10)])
  | 0x03 => some (padTo 512 (Config.logPageData 3))
  | 0x04 => some (padTo 4096 (if 1024 < k.changed.length then le 4 0xFFFFFFFF else k.changed.flatMap (le 4)))
  | 0x05 => some (padTo 4096 (Config.logPageData 5))
  | 0x70 => if k.disc then some s.discoveryPage else none
  | 0x81 => some s.sanitizePage
  | 0xC0 => some s.deferredPage
  | _ => none

/-- The event type that reading a page unmasks (R81; types of NVMe Base 2.0). -/
def eventOf : Nat → Option Nat
  | 0x01 => some 0
  | 0x02 => some 1
  | 0x04 => some 2
  | 0x81 => some 6
  | 0xC0 => some 7
  | _ => none

/-! ## Features and properties (R55, R58) -/

/-- Value of a feature before it is set. -/
def State.featureDefault (_s : State) (k : Ctrl) : Nat → Nat
  | 0x07 => 127 * 65536 + 127
  | 0x0F => k.kato
  | _ => 0

def featureKnown (fid : Nat) : Bool := [0x01, 0x02, 0x04, 0x05, 0x07, 0x0A, 0x0B, 0x0F].contains fid

/-- Set a feature: its status, Dword 0, and the controller. -/
def Ctrl.setFeature (k : Ctrl) (fid val now : Nat) (save : Bool) : Status × Nat × Ctrl :=
  if save then (⟨1, 0x0D⟩, 0, k)
  else if !featureKnown fid then (stBadField, 0, k)
  else match fid with
    | 0x02 => if val % 32 = 0 then (stOk, 0, { k with features := k.features.insert fid val }) else (stBadField, 0, k)
    | 0x05 => if val / 65536 % 2 = 1 then (stBadField, 0, k) else (stOk, 0, { k with features := k.features.insert fid val })
    | 0x07 =>
      let v := min (val % 65536) 127 + 65536 * min (val / 65536 % 65536) 127
      (stOk, v, { k with features := k.features.insert fid v })
    | 0x0F => (stOk, 0, { k with kato := val, kaAt := now, features := k.features.insert fid val })
    | _ => (stOk, 0, { k with features := k.features.insert fid val })

/-- CAP of R58. -/
def capProperty : Nat := 0x03FF + 2 ^ 16 + 0x14 * 2 ^ 24 + 0x41 * 2 ^ 37

def Ctrl.property (k : Ctrl) : Nat → Option Nat
  | 0x00 => some capProperty
  | 0x08 => some 0x00020000
  | 0x14 => some k.cc
  | 0x1C => some k.csts
  | _ => none

/-- Write CC: entry sizes other than R58's are refused, whatever EN is; RDY follows EN, SHST a shutdown (NVMe over Fabrics; log
entry 19). -/
def Ctrl.setProperty (k : Ctrl) (off val : Nat) : Status × Ctrl :=
  let en := val % 2
  let io := decide (val / 65536 % 16 = 6) && decide (val / 2 ^ 20 % 16 = 4)
  if off ≠ 0x14 then (stBadField, k)
  else if !io then (stBadField, k)
  else
    let shst := if val / 2 ^ 14 % 4 = 0 then 0 else 2
    (stOk, { k with cc := val, csts := k.csts / 2 % 2 * 2 + en + 4 * shst })

/-! ## Abort (R78 to R80) -/

/-- The target is one that an Abort catches (R78). -/
def Cmd.caught (c : Cmd) : Bool :=
  c.result.isNone && (match c.op with
    | .write _ _ | .writeZeroes _ _ _ | .store _ _ _ | .delete _ | .compareAndWrite _ _ _ => !c.begun
    | .read _ _ | .compare _ _ | .verify _ _ | .retrieve _ _ | .exist _ | .list _ _ => !c.sentData
    | _ => false)

def Cmd.answersTo (c : Cmd) (cntlid qid cid : Nat) : Bool :=
  c.tag.cntlid == cntlid && c.tag.qid == qid && (c.tag.cid == cid || (match c.op with
    | .compareAndWrite _ _ w => w == cid
    | _ => false))

/-- Outcome of a command, of both of a fused pair. -/
def State.finishAll (s : State) (c : Cmd) (st : Status) : State :=
  match c.op with
  | .compareAndWrite _ _ _ => s.finish2 c st st
  | _ => s.finish c st 0

/-- Fail a command and send its completion. -/
def State.failCmd (s : State) (c : Cmd) (st : Status) : State := (s.finishAll c st).advance c.tag.num

/-- A fused Compare that waits for its second has this identifier: its pair has not begun its append (R78). -/
def State.halfCalled (s : State) (cntlid qid cid : Nat) : Bool :=
  ((s.host.queues.find? (queueKey cntlid qid)).bind Queue.half).any fun h => !h.aborted && h.cap.cid == cid

/-- Abort it: it completes at once, its second when it comes (R78). -/
def State.abortHalf (s : State) (cntlid qid : Nat) : State :=
  match s.host.queues.find? (queueKey cntlid qid) with
  | some q => match q.half with
    | some h =>
      let q := { q with half := some { h with aborted := true } }
      (s.setQueue q).enterCmd h.cap q .judged q.cls [] false (some (stAborted, 0)) none
    | none => s
  | none => s

/-- Abort (R78 to R80). -/
def State.runAbort (s : State) (c : Cmd) (qid cid : Nat) : State :=
  let aborts := s.host.cmds.vals.filter fun x => x.tag.cntlid == c.tag.cntlid && (match x.op with
    | .abort _ _ => true
    | _ => false)
  if 8 < aborts.length then s.finish c ⟨1, 0x03⟩ 0
  else if s.halfCalled c.tag.cntlid qid cid then (s.abortHalf c.tag.cntlid qid).finish c stOk 0
  else match s.host.cmds.vals.find? fun x => x.answersTo c.tag.cntlid qid cid && x.caught with
    | some x => (s.failCmd x stAborted).finish c stOk 0
    | none => s.finish c stOk 1

/-! ## Namespaces -/

/-- A host on the administrative list (R56). -/
def State.isAdmin (s : State) (cntlid : Nat) : Bool :=
  match s.host.ctrls.find? cntlid with
  | some k => s.arr.admins.contains k.nqn
  | none => false

/-- The lowest identifier that may be used (R102): one of a deleted namespace is held until its release is recorded. -/
def State.freeNsid (s : State) : Option Nat :=
  (List.range 16384).find? (fun n => !s.arr.nss.has (n + 1)) |>.map (· + 1)

def NsRec.fresh (kv : Bool) (blocks domain : Nat) (mediaDur : Bool) : NsRec :=
  { kv := kv, blocks := blocks, domain := domain, mediaDur := mediaDur, root := 0, index := 1, disabled := false, removing := none,
    deleting := false, formatting := none, done := 0, total := 0, releasing := false, base := none, readOnly := false,
    replica := false, c0 := false, runner := 0, phase := 0, wipeRefs := [], wipeSegs := [], snaps := [], cycle := none }

/-- Create a namespace and log its record (R254, R295). -/
def State.createNs (s : State) (nsid : Nat) (n : NsRec) : State :=
  -- a key-value namespace starts with an empty leaf as its root
  let n := if n.kv && n.root == 0 then { n with root := pageId 2 (nsid - 1) 1, index := 2 } else n
  (s.setNs nsid n).log (.nsrec nsid (some n))

/-- Metadata pages and entries that a Format or a release has to work through. -/
def State.nsUnits (s : State) (nsid : Nat) : Nat :=
  (s.ftl.pages.filter fun kv => (pKind kv.1 == 1 || pKind kv.1 == 3 || pKind kv.1 == 4) && pOwner kv.1 == nsid - 1).length

/-- Begin a removal (R101): from now on new commands fail; `tag` is the removing command. -/
def State.beginRemoval (s : State) (nsid : Nat) (tag : Option Nat) (deleting : Bool) : State :=
  match s.ns nsid with
  | none => s
  | some n =>
    let n := { n with removing := some (s.ao.tb, tag), deleting := n.deleting || deleting, disabled := n.disabled || !deleting,
                      runner := s.side }
    (s.setNs nsid n).log (.nsrec nsid (some n))

/-- A notice to one controller that its namespaces have changed. -/
def State.noteChanged (s : State) (nsid cntlid : Nat) : State :=
  match s.host.ctrls.find? cntlid with
  | none => s
  | some k => (s.setCtrl { k with changed := if k.changed.contains nsid then k.changed else k.changed ++ [nsid] }).asyncNotice cntlid 2 0 4

/-- The namespaces attached to a controller, with one more or one less. -/
def Ctrl.withNs (k : Ctrl) (nsid : Nat) (on : Bool) : Ctrl :=
  { k with attached := if on then (if k.attached.contains nsid then k.attached else k.attached ++ [nsid]) else k.attached.filter (· != nsid) }

/-- Attach a namespace to controllers, of either head, or detach it (R101). Those of this head hear of an attachment at once; of a
detachment when it is done. -/
def State.setAttached (s : State) (nsid : Nat) (ctrls : List Nat) (on : Bool) : State :=
  let s := s.host.ctrls.vals.foldl (fun s k => if ctrls.contains k.cntlid then s.setCtrl (k.withNs nsid on) else s) s
  let s := { s with pair := { s.pair with shCtrls := s.pair.shCtrls.mapV fun i k => if ctrls.contains i then k.withNs nsid on else k } }
  if on then ctrls.foldl (fun s k => s.noteChanged nsid k) s else s


/-! ## Running an admin command -/

/-- Answer with data (R52): the data is sent, then the completion. -/
def State.answerData (s : State) (c : Cmd) (b : Bytes) : State := s.setCmd { c with pieces := some [.bytes b] }

/-- Status of the checks an administrative command needs (R56). -/
def State.adminDenied (s : State) (c : Cmd) (k : State → State) : State :=
  if s.isAdmin c.tag.cntlid then k s else (s.event (dieF c.fdie) 0x13 0 noInst).finish c ⟨0, 0x15⟩ 0

/-- An administrative command has changed the state of the VX8: the event recorder gets a record (R7). -/
def State.adminEvent (s : State) (c : Cmd) : State := s.event (dieF c.fdie) 0x13 0 noInst

/-- Why a command of a namespace that is being removed or formatted fails (R95, R101). -/
def NsRec.barred (n : NsRec) : Option Status :=
  if n.removing.isSome || n.releasing then some stBadNs else if n.formatting.isSome then some ⟨0, 0x84⟩ else none

/-- A Namespace Attachment that detaches is accepted (R101): from now on the namespace's new commands of those controllers fail on both
heads. -/
def State.startDetach (s : State) (c : Cmd) (ctrls : List Nat) : State :=
  let d : Detach := { nsid := c.nsid, ctrls := ctrls, at_ := s.ao.tb, tag := c.tag.num, side := s.side }
  let s := (s.log (.change (.detach d))).setAttached c.nsid ctrls false
  { s with arr := { s.arr with detaches := s.arr.detaches ++ [d] } }

/-- Format NVM on acceptance (R94, R95). -/
def State.startFormat (s : State) (c : Cmd) (lbaf ses : Nat) : State :=
  match s.ns c.nsid with
  | none => s.finish c stBadNs 0
  | some n =>
    let attached := ((s.host.ctrls.find? c.tag.cntlid).map Ctrl.attached).getD []
    match (if attached.contains c.nsid then n.barred else some stBadNs) with
    | some st => s.finish c st 0
    | none =>
    if lbaf ≠ 0 then s.finish c ⟨1, 0x0A⟩ 0
    else if 2 < ses then s.finish c stBadField 0
    else if decide (ses = 2) && (s.arr.nss.any fun kv => kv.1 != c.nsid && kv.2.domain == n.domain) then s.finish c stBadField 0
    else
      let n := { n with formatting := some (ses, some c.tag.num), done := 0, total := max 1 (s.nsUnits c.nsid), runner := s.side,
                        phase := 0, wipeRefs := [], wipeSegs := [] }
      (((s.setNs c.nsid n).log (.nsrec c.nsid (some n))).log (.progress 0 c.nsid 0 n.total)).adminEvent c

/-- Sanitize on acceptance (R96, R97, R99). -/
def State.startSanitize (s : State) (c : Cmd) (act : Nat) : State :=
  if s.arr.sanitize.isSome then s.finish c ⟨0, 0x1D⟩ 0
  else match act with
    | 1 =>
      let s := (s.log (.change .sanExit)).adminEvent c
      { s with arr := { s.arr with sanFailed := false } }.finish c stOk 0
    | 2 | 4 =>
      let total := max 1 s.ftl.segs.length
      let x : San := { crypto := act == 4, tag := some c.tag.num, done := 0, total := total, phase := 0, partnerDone := false }
      let s := { s with arr := { s.arr with sanitize := some x } }
      (s.log (.progress 1 (if act = 4 then 1 else 0) 0 total)).adminEvent c
    | _ => s.finish c stBadField 0

/-- The effect of an accepted admin command; those that complete later keep their place. -/
def State.adminRun (s : State) (c : Cmd) : State :=
  let ctrl := s.host.ctrls.find? c.tag.cntlid
  match ctrl with
  | none => s
  | some k => match c.op with
    | .keepAlive => (s.setCtrl { k with kaAt := s.ao.tb }).finish c stOk 0
    -- its queue, or its controller, goes once the response is sent
    | .disconnect => s.finish c stOk 0
    | .propGet off => match k.property off with
      | some v => s.finish c stOk v
      | none => s.finish c stBadField 0
    | .propSet off val =>
      let (st, k) := k.setProperty off val
      (s.setCtrl k).finish c st 0
    | .getLog lid off _ rae => match s.logPage k lid with
      | none => s.finish c stBadField 0
      | some b =>
        let k := if rae then k
          else { k with masked := k.masked.filter fun t => some t != eventOf lid, changed := if lid = 4 then [] else k.changed }
        (s.setCtrl k).answerData c (b.drop off)
    | .identify cns cntid => match s.identifyBytes c.tag.cntlid c.nsid cns cntid with
      | some b => s.answerData c b
      | none => s.finish c stBadField 0
    | .abort qid cid => s.runAbort c qid cid
    | .setFeature fid val save =>
      let (st, dw, k) := k.setFeature fid val s.ao.tb save
      (s.setCtrl k).finish c st dw
    | .getFeature fid =>
      if featureKnown fid then s.finish c stOk (k.features.getD fid (s.featureDefault k fid)) else s.finish c stBadField 0
    | .asyncEvent =>
      if 8 ≤ k.aers.length then s.finish c ⟨1, 0x05⟩ 0
      else
        let s := s.setCtrl { k with aers := k.aers ++ [c.tag] }
        match k.notices with
        | (ty, info, page) :: rest => (s.setCtrl { k with aers := k.aers ++ [c.tag], notices := rest }).asyncNotice k.cntlid ty info page
        | [] => s
    | .nsCreate kv blocks domain media => s.adminDenied c fun s => match s.freeNsid with
      | none => s.finish c ⟨1, 0x16⟩ 0
      | some n => ((s.createNs n (.fresh kv blocks domain media)).adminEvent c).finish c stOk n
    | .nsDelete => s.adminDenied c fun s => match s.ns c.nsid with
      | none => s.finish c stBadNs 0
      | some n => match n.barred with
        | some st => s.finish c st 0
        | none => (s.beginRemoval c.nsid (some c.tag.num) true).adminEvent c
    | .attach ctrls => s.adminDenied c fun s => match s.ns c.nsid with
      | none => s.finish c stBadNs 0
      | some n =>
        match n.barred with
        | some st => s.finish c st 0
        | none => (((s.log (.change (.attach c.nsid ctrls))).setAttached c.nsid ctrls true).adminEvent c).finish c stOk 0
    | .detach ctrls => s.adminDenied c fun s => match s.ns c.nsid with
      | none => s.finish c stBadNs 0
      | some n => match n.barred with
        | some st => s.finish c st 0
        | none => (s.startDetach c ctrls).adminEvent c
    | .format lbaf ses => s.adminDenied c fun s => s.startFormat c lbaf ses
    | .sanitize act => s.adminDenied c fun s => s.startSanitize c act
    | .attestNonce n => (s.setCtrl { k with nonce := some n }).finish c stOk 0
    | _ => s

end Sys2Proof.Machine
end

