-- ==== Sys2Proof/Machine/Deflate.lean ====
section
/-! DEFINITION. Content-defined chunking (R173) and the RFC 1951 profile: the encoder of R213 and the inflater of R216. -/

namespace Sys2Proof

/-! ## Chunk boundaries (R173) -/

/-- Length of the chunk that starts a string: `h` the gear hash, `n` bytes seen. -/
def cutLen (G : Nat → BitVec 64) : BitVec 64 → Nat → Bytes → Nat
  | _, n, [] => n
  | h, n, b :: l =>
    let h := (h <<< 1) + G b.toNat
    let n := n + 1
    if n = 65536 then n
    else if 4096 ≤ n ∧ n < 13312 ∧ h &&& 0xFFFF000000000000#64 = 0 then n
    else if 13312 ≤ n ∧ h &&& 0xFFF0000000000000#64 = 0 then n
    else cutLen G h n l

/-- The chunks of a value, in order; `fuel` bounds their number. -/
def cutAux (G : Nat → BitVec 64) : Nat → Bytes → List Bytes
  | 0, _ => []
  | fuel + 1, l => if l.isEmpty then [] else
    let n := cutLen G 0 0 l
    l.take n :: cutAux G fuel (l.drop n)

def cutValue (G : Nat → BitVec 64) (l : Bytes) : List Bytes := cutAux G (l.length / 4096 + 1) l

/-! ## Bits -/

/-- `n` bits of a number, least significant first. -/
def bitsLsb (n v : Nat) : List Bool := (List.range n).map v.testBit

/-- `n` bits, most significant first: how a Huffman code is written. -/
def bitsMsb (n v : Nat) : List Bool := (bitsLsb n v).reverse

def byteOfBits (l : List Bool) : Byte := BitVec.ofNat 8 (l.foldr (fun b a => (if b then 1 else 0) + 2 * a) 0)

/-- Bits packed into bytes, bit 0 first, the last byte filled with 0: `fuel` bounds the bytes. -/
def packBitsAux : Nat → List Bool → Bytes
  | 0, _ => []
  | fuel + 1, l => if l.isEmpty then [] else byteOfBits (l.take 8) :: packBitsAux fuel (l.drop 8)

def packBits (l : List Bool) : Bytes := packBitsAux (l.length / 8 + 1) l

def bytesBits (l : Bytes) : List Bool := l.flatMap fun b => bitsLsb 8 b.toNat

/-! ## Codes of RFC 1951 -/

/-- Base and extra bits of the length codes 257 to 285. -/
def lenCodes : List (Nat × Nat) :=
  [(3, 0), (4, 0), (5, 0), (6, 0), (7, 0), (8, 0), (9, 0), (10, 0), (11, 1), (13, 1), (15, 1), (17, 1), (19, 2), (23, 2),
   (27, 2), (31, 2), (35, 3), (43, 3), (51, 3), (59, 3), (67, 4), (83, 4), (99, 4), (115, 4), (131, 5), (163, 5), (195, 5),
   (227, 5), (258, 0)]

/-- Base and extra bits of the distance codes 0 to 29. -/
def distCodes : List (Nat × Nat) :=
  [(1, 0), (2, 0), (3, 0), (4, 0), (5, 1), (7, 1), (9, 2), (13, 2), (17, 3), (25, 3), (33, 4), (49, 4), (65, 5), (97, 5),
   (129, 6), (193, 6), (257, 7), (385, 7), (513, 8), (769, 8), (1025, 9), (1537, 9), (2049, 10), (3073, 10), (4097, 11),
   (6145, 11), (8193, 12), (12289, 12), (16385, 13), (24577, 13)]

/-- The last code whose base does not exceed a value: code and the remainder. -/
def codeOf (t : List (Nat × Nat)) (v : Nat) : Nat × Nat × Nat :=
  let i := (t.filter fun c => decide (c.1 ≤ v)).length - 1
  let c := (t[i]?).getD (0, 0)
  (i, c.2, v - c.1)

/-- The fixed code of a literal or length symbol. -/
def fixedSym (s : Nat) : List Bool :=
  if s < 144 then bitsMsb 8 (0x30 + s)
  else if s < 256 then bitsMsb 9 (0x190 + (s - 144))
  else if s < 280 then bitsMsb 7 (s - 256)
  else bitsMsb 8 (0xC0 + (s - 280))

/-! ## The encoder (R213) -/

/-- A token of the parse: a literal, or a match of a length at a distance. -/
inductive Tok | lit (b : Byte) | copy (len dist : Nat)
deriving DecidableEq, Repr

/-- Length of the common run of two strings, at most `n`. -/
def runLen : Nat → Bytes → Bytes → Nat
  | 0, _, _ => 0
  | n + 1, a :: l, b :: m => if a = b then runLen n l m + 1 else 0
  | _ + 1, _, _ => 0

/-- The longest match at the head of `rest` among the starts of `back`, the bytes before it, nearest first: the smallest
distance wins between equal lengths. `all` is the string from distance `d` on. -/
def bestMatch (cap : Nat) : Nat → List Byte → Bytes → Bytes → Nat × Nat → Nat × Nat
  | 0, _, _, _, best => best
  | _, [], _, _, best => best
  | fuel + 1, b :: back, here, rest, best =>
    let here := b :: here
    let n := runLen cap here rest
    let d := here.length - rest.length
    bestMatch cap fuel back here rest (if best.1 < n then (n, d) else best)

/-- The greedy parse of a slice: `back` the bytes before it, newest first, `left` bytes of the slice that remain. -/
def parseSlice : Nat → List Byte → Nat → Bytes → List Tok
  | 0, _, _, _ => []
  | fuel + 1, back, left, rest =>
    match left, rest with
    | 0, _ => []
    | _, [] => []
    | left, b :: l =>
      let m := bestMatch (min 258 left) 32768 back (b :: l) (b :: l) (0, 0)
      if 4 ≤ m.1 then
        .copy m.1 m.2 :: parseSlice fuel ((rest.take m.1).reverse ++ back) (left - m.1) (rest.drop m.1)
      else .lit b :: parseSlice fuel (b :: back) (left - 1) l

def tokBits : Tok → List Bool
  | .lit b => fixedSym b.toNat
  | .copy len dist =>
    let c := if len = 258 then (28, 0, 0) else codeOf (lenCodes.take 28) len
    let d := codeOf distCodes dist
    fixedSym (257 + c.1) ++ bitsLsb c.2.1 c.2.2 ++ bitsMsb 5 d.1 ++ bitsLsb d.2.1 d.2.2

/-- One slice as a block, from a bit position: fixed, or stored where that costs less (R213 rules 4 and 5). -/
def sliceBits (pos : Nat) (last : Bool) (slice : Bytes) (toks : List Tok) : List Bool × Bool :=
  let fixed := [last, true, false] ++ toks.flatMap tokBits ++ fixedSym 256
  let pad := (8 - (pos + 3) % 8) % 8
  let stored := [last, false, false] ++ List.replicate pad false ++ bitsLsb 16 slice.length ++
    bitsLsb 16 (65535 - slice.length) ++ bytesBits slice
  if stored.length < fixed.length then (stored, true) else (fixed, false)

/-- The slices of a pack in order: bits so far, whether every block is stored. -/
def encodeSlices : Nat → List Byte → Bytes → List Bool → Bool → List Bool × Bool
  | 0, _, _, acc, st => (acc, st)
  | fuel + 1, back, rest, acc, st =>
    let slice := rest.take 16384
    let toks := parseSlice (slice.length + 1) back slice.length rest
    let last := decide (rest.length ≤ 16384)
    let r := sliceBits acc.length last slice toks
    if last then (acc ++ r.1, st && r.2)
    else encodeSlices fuel (slice.reverse ++ back) (rest.drop 16384) (acc ++ r.1) (st && r.2)

/-- The stream of a pack and STORED_ALL (R213, R211). -/
def deflate (l : Bytes) : Bytes × Bool :=
  let r := encodeSlices (l.length / 16384 + 1) [] l [] true
  (packBits r.1, r.2)

/-! ## The inflater (R216) -/

/-- A prefix code: code length, code value, symbol. -/
abbrev Huff := List (Nat × Nat × Nat)

/-- Canonical codes of RFC 1951 section 3.2.2 from the code lengths of symbols 0, 1, …. -/
def canonical (lens : List Nat) : Huff :=
  let syms := (List.range lens.length).zip lens
  ((List.range 15).foldl (fun (st : Nat × Huff) i =>
    let n := i + 1
    let here := syms.filter fun s => s.2 == n
    let start := st.1 * 2
    (start + here.length, st.2 ++ ((List.range here.length).zip here).map fun ks => (n, start + ks.1, ks.2.1)))
    (0, [])).2

def fixedLit : Huff :=
  canonical (List.replicate 144 8 ++ List.replicate 112 9 ++ List.replicate 24 7 ++ List.replicate 8 8)

def fixedDist : Huff := (List.range 30).map fun i => (5, i, i)

def takeBits (n : Nat) (l : List Bool) : Option (Nat × List Bool) :=
  if n ≤ l.length then some ((l.take n).foldr (fun b a => (if b then 1 else 0) + 2 * a) 0, l.drop n) else none

/-- Read one symbol: `n` bits taken so far with value `v`. -/
def readSym (h : Huff) : Nat → Nat → Nat → List Bool → Option (Nat × List Bool)
  | 0, _, _, _ => none
  | _, _, _, [] => none
  | fuel + 1, n, v, b :: l =>
    let v := 2 * v + (if b then 1 else 0)
    match h.find? fun c => c.1 == n + 1 && c.2.1 == v with
    | some c => some (c.2.2, l)
    | none => readSym h fuel (n + 1) v l

/-- Append a copy from `dist` back; `out` holds the output newest first. -/
def copyBack : Nat → Nat → List Byte → List Byte
  | 0, _, out => out
  | n + 1, dist, out => copyBack n dist ((out[dist - 1]?).getD 0 :: out)

/-- Symbols of a block until its end: bits left and output. -/
def inflateBlock (lit dist : Huff) : Nat → List Bool → List Byte → Option (List Bool × List Byte)
  | 0, _, _ => none
  | fuel + 1, l, out =>
    match readSym lit 16 0 0 l with
    | none => none
    | some (s, l) =>
      if s < 256 then inflateBlock lit dist fuel l (BitVec.ofNat 8 s :: out)
      else if s = 256 then some (l, out)
      else
        match lenCodes[s - 257]? with
        | none => none
        | some c =>
          match takeBits c.2 l with
          | none => none
          | some (e, l) =>
            match readSym dist 16 0 0 l with
            | none => none
            | some (ds, l) =>
              match distCodes[ds]? with
              | none => none
              | some d =>
                match takeBits d.2 l with
                | none => none
                | some (de, l) =>
                  let dd := d.1 + de
                  if out.length < dd then none else inflateBlock lit dist fuel l (copyBack (c.1 + e) dd out)

/-- Order of the code-length codes. -/
def clOrder : List Nat := [16, 17, 18, 0, 8, 7, 9, 6, 10, 5, 11, 4, 12, 3, 13, 2, 14, 1, 15]

/-- Code lengths of a dynamic block, `n` in all. -/
def readLens (h : Huff) : Nat → Nat → List Bool → List Nat → Option (List Nat × List Bool)
  | 0, _, _, _ => none
  | fuel + 1, n, l, acc =>
    if n ≤ acc.length then (if acc.length = n then some (acc, l) else none)
    else
      match readSym h 16 0 0 l with
      | none => none
      | some (s, l) =>
        let rep := fun (bits base v : Nat) => match takeBits bits l with
          | none => none
          | some (k, l) => readLens h fuel n l (acc ++ List.replicate (base + k) v)
        if s < 16 then readLens h fuel n l (acc ++ [s])
        else if s = 16 then match acc.getLast? with
          | none => none
          | some v => rep 2 3 v
        else if s = 17 then rep 3 3 0
        else rep 7 11 0

/-- The codes of a dynamic block. -/
def readDynamic (l : List Bool) : Option (Huff × Huff × List Bool) :=
  match takeBits 5 l with
  | none => none
  | some (hlit, l) => match takeBits 5 l with
    | none => none
    | some (hdist, l) => match takeBits 4 l with
      | none => none
      | some (hclen, l) =>
        let n := hclen + 4
        if l.length < 3 * n then none
        else
          let vs := (List.range n).map fun i => ((takeBits 3 (l.drop (3 * i))).map Prod.fst).getD 0
          let lens := (List.range 19).map fun s => match (clOrder.take n).findIdx? (· == s) with
            | some i => (vs[i]?).getD 0
            | none => 0
          match readLens (canonical lens) 400 (hlit + 257 + hdist + 1) (l.drop (3 * n)) [] with
          | none => none
          | some (all, l) => some (canonical (all.take (hlit + 257)), canonical (all.drop (hlit + 257)), l)

/-- Blocks to the one with BFINAL: bits left and output. `total` is the length of the stream in bits. -/
def inflateBlocks (total : Nat) : Nat → List Bool → List Byte → Option (List Bool × List Byte)
  | 0, _, _ => none
  | fuel + 1, l, out =>
    match l with
    | fin :: b0 :: b1 :: l =>
      let next := fun (r : Option (List Bool × List Byte)) => match r with
        | none => none
        | some (l, out) => if fin then some (l, out) else inflateBlocks total fuel l out
      match b0, b1 with
      | false, false =>
        let l := l.drop ((8 - (total - l.length) % 8) % 8)
        match takeBits 16 l with
        | none => none
        | some (n, l) => match takeBits 16 l with
          | none => none
          | some (m, l) =>
            if n + m ≠ 65535 ∨ l.length < 8 * n then none
            else next (some (l.drop (8 * n), (packBits (l.take (8 * n))).reverse ++ out))
      | true, false => next (inflateBlock fixedLit fixedDist (8 * total + 1) l out)
      | false, true => match readDynamic l with
        | none => none
        | some (h, d, l) => next (inflateBlock h d (8 * total + 1) l out)
      | true, true => none
    | _ => none

/-- Inflate a stream that must be used to its last byte (R216). -/
def inflate (stream : Bytes) : Option Bytes :=
  let bits := bytesBits stream
  match inflateBlocks bits.length (bits.length + 1) bits [] with
  | some (left, out) => if left.length < 8 then some out.reverse else none
  | none => none

end Sys2Proof
end

