-- ==== Sys2Proof/Machine/Crypto.lean ====
section
/-! DEFINITION. The published algorithms the manual names: SHA-256 and HMAC (FIPS 180-4, 198-1), AES (FIPS 197), key wrap with
padding (SP 800-38F), XTS (IEEE 1619), GCM (SP 800-38D). -/

namespace Sys2Proof

/-! ## SHA-2 -/

/-- The first 80 primes, from which FIPS 180-4 takes its constants. -/
def sha2Primes : List Nat :=
  [2, 3, 5, 7, 11, 13, 17, 19, 23, 29, 31, 37, 41, 43, 47, 53, 59, 61, 67, 71, 73, 79, 83, 89, 97, 101, 103, 107, 109, 113] ++
  [127, 131, 137, 139, 149, 151, 157, 163, 167, 173, 179, 181, 191, 193, 197, 199, 211, 223, 227, 229, 233, 239, 241, 251] ++
  [257, 263, 269, 271, 277, 281, 283, 293, 307, 311, 313, 317, 331, 337, 347, 349, 353, 359, 367, 373, 379, 383, 389, 397, 401, 409]

/-- Largest number whose `k`-th power does not exceed `x`, found from bit `n - 1` down. -/
def rootFrom (k x : Nat) : Nat → Nat → Nat
  | 0, r => r
  | n + 1, r => rootFrom k x n (if (r + 2 ^ n) ^ k ≤ x then r + 2 ^ n else r)

/-- The first `w` bits of the fractional parts of the `k`-th roots of some primes. -/
def rootWords (w k : Nat) (ps : List Nat) : List (BitVec w) := ps.map fun p => BitVec.ofNat w (rootFrom k (p * 2 ^ (k * w)) (w + 3) 0)

/-- What tells one SHA-2 from another: its round constants, and the amounts of the four mixing functions, the last of σ0 and σ1 a shift. -/
structure Sha2 (w : Nat) where
  k : List (BitVec w)
  upper0 : Nat × Nat × Nat
  upper1 : Nat × Nat × Nat
  lower0 : Nat × Nat × Nat
  lower1 : Nat × Nat × Nat

/-- Σ0, Σ1. -/
def mixUpper {w : Nat} (r : Nat × Nat × Nat) (x : BitVec w) : BitVec w := x.rotateRight r.1 ^^^ x.rotateRight r.2.1 ^^^ x.rotateRight r.2.2

/-- σ0, σ1. -/
def mixLower {w : Nat} (r : Nat × Nat × Nat) (x : BitVec w) : BitVec w := x.rotateRight r.1 ^^^ x.rotateRight r.2.1 ^^^ x >>> r.2.2

/-- Word `i` of a list, 0 beyond its end. -/
def wordAt {w : Nat} (l : List (BitVec w)) (i : Nat) : BitVec w := (l[i]?).getD 0

/-- Big-endian words of `n` bytes. -/
def wordsBe (w n : Nat) (l : Bytes) : List (BitVec w) := (pieces n l).map fun p => BitVec.ofNat w (ofBe p)

/-- One round on the eight working variables, with the sum of its constant and its word. -/
def Sha2.round {w : Nat} (p : Sha2 w) (v : List (BitVec w)) (kw : BitVec w) : List (BitVec w) :=
  let x := wordAt v
  let t := x 7 + mixUpper p.upper1 (x 4) + ((x 4 &&& x 5) ^^^ (~~~(x 4) &&& x 6)) + kw
  let u := mixUpper p.upper0 (x 0) + ((x 0 &&& x 1) ^^^ (x 0 &&& x 2) ^^^ (x 1 &&& x 2))
  (t + u) :: v.take 3 ++ (x 3 + t) :: (v.drop 4).take 3

/-- The rounds that are left, with the sixteen words of the schedule from the present one on. -/
def Sha2.rounds {w : Nat} (p : Sha2 w) : List (BitVec w) → List (BitVec w) → List (BitVec w) → List (BitVec w)
  | [], _, v => v
  | k :: ks, win, v =>
    let next := mixLower p.lower1 (wordAt win 14) + wordAt win 9 + mixLower p.lower0 (wordAt win 1) + wordAt win 0
    p.rounds ks (win.drop 1 ++ [next]) (p.round v (k + wordAt win 0))

/-- One compression of a block of sixteen words. -/
def Sha2.block {w : Nat} (p : Sha2 w) (st win : List (BitVec w)) : List (BitVec w) := List.zipWith (· + ·) st (p.rounds p.k win st)

def sha256P : Sha2 32 :=
  { k := rootWords 32 3 (sha2Primes.take 64), upper0 := (2, 13, 22), upper1 := (6, 11, 25), lower0 := (7, 18, 3), lower1 := (17, 19, 10) }

def sha256Init : List (BitVec 32) := rootWords 32 2 (sha2Primes.take 8)

/-- Big-endian 32-bit words of a string. -/
def words32 (l : Bytes) : List (BitVec 32) := wordsBe 32 4 l

/-- One compression of a 64-byte block. -/
def sha256Block (st : List (BitVec 32)) (blk : Bytes) : List (BitVec 32) := sha256P.block st (words32 blk)

/-- Padding of FIPS 180-4 for `lenBytes` bytes of length field and blocks of `blk` bytes. -/
def shaPad (blk lenBytes total : Nat) (l : Bytes) : Bytes :=
  let l1 := l ++ [0x80]
  l1 ++ zeros ((blk - (l1.length + lenBytes) % blk) % blk) ++ be lenBytes (8 * total)

def sha256Bytes (st : List (BitVec 32)) : Bytes := st.flatMap fun w => be 4 w.toNat

/-- SHA-256 of the rest of a message of `total` bytes, from a chaining value. -/
def sha256From (st : List (BitVec 32)) (total : Nat) (l : Bytes) : Bytes :=
  sha256Bytes ((pieces 64 (shaPad 64 8 total l)).foldl sha256Block st)

def sha256 (l : Bytes) : Bytes := sha256From sha256Init l.length l

def xorConst (b : Byte) (l : Bytes) : Bytes := l.map (· ^^^ b)

/-- The two chaining values of R179: after (K xor ipad) and (K xor opad). -/
def hmacState (key : Bytes) : Bytes × Bytes :=
  let k := padTo 64 (if 64 < key.length then sha256 key else key)
  (sha256Bytes (sha256Block sha256Init (xorConst 0x36 k)), sha256Bytes (sha256Block sha256Init (xorConst 0x5C k)))

/-- HMAC-SHA-256 from its precomputed state (R178, R179). -/
def hmacFrom (st : Bytes × Bytes) (msg : Bytes) : Bytes :=
  let inner := sha256From (words32 st.1) (64 + msg.length) msg
  sha256From (words32 st.2) (64 + 32) inner

def hmacSha256 (key msg : Bytes) : Bytes := hmacFrom (hmacState key) msg

/-! ## AES -/

def aesSbox : Bytes :=
  [0x63, 0x7c, 0x77, 0x7b, 0xf2, 0x6b, 0x6f, 0xc5, 0x30, 0x01, 0x67, 0x2b, 0xfe, 0xd7, 0xab, 0x76,
  0xca, 0x82, 0xc9, 0x7d, 0xfa, 0x59, 0x47, 0xf0, 0xad, 0xd4, 0xa2, 0xaf, 0x9c, 0xa4, 0x72, 0xc0,
  0xb7, 0xfd, 0x93, 0x26, 0x36, 0x3f, 0xf7, 0xcc, 0x34, 0xa5, 0xe5, 0xf1, 0x71, 0xd8, 0x31, 0x15,
  0x04, 0xc7, 0x23, 0xc3, 0x18, 0x96, 0x05, 0x9a, 0x07, 0x12, 0x80, 0xe2, 0xeb, 0x27, 0xb2, 0x75] ++
  [0x09, 0x83, 0x2c, 0x1a, 0x1b, 0x6e, 0x5a, 0xa0, 0x52, 0x3b, 0xd6, 0xb3, 0x29, 0xe3, 0x2f, 0x84,
  0x53, 0xd1, 0x00, 0xed, 0x20, 0xfc, 0xb1, 0x5b, 0x6a, 0xcb, 0xbe, 0x39, 0x4a, 0x4c, 0x58, 0xcf,
  0xd0, 0xef, 0xaa, 0xfb, 0x43, 0x4d, 0x33, 0x85, 0x45, 0xf9, 0x02, 0x7f, 0x50, 0x3c, 0x9f, 0xa8,
  0x51, 0xa3, 0x40, 0x8f, 0x92, 0x9d, 0x38, 0xf5, 0xbc, 0xb6, 0xda, 0x21, 0x10, 0xff, 0xf3, 0xd2] ++
  [0xcd, 0x0c, 0x13, 0xec, 0x5f, 0x97, 0x44, 0x17, 0xc4, 0xa7, 0x7e, 0x3d, 0x64, 0x5d, 0x19, 0x73,
  0x60, 0x81, 0x4f, 0xdc, 0x22, 0x2a, 0x90, 0x88, 0x46, 0xee, 0xb8, 0x14, 0xde, 0x5e, 0x0b, 0xdb,
  0xe0, 0x32, 0x3a, 0x0a, 0x49, 0x06, 0x24, 0x5c, 0xc2, 0xd3, 0xac, 0x62, 0x91, 0x95, 0xe4, 0x79,
  0xe7, 0xc8, 0x37, 0x6d, 0x8d, 0xd5, 0x4e, 0xa9, 0x6c, 0x56, 0xf4, 0xea, 0x65, 0x7a, 0xae, 0x08] ++
  [0xba, 0x78, 0x25, 0x2e, 0x1c, 0xa6, 0xb4, 0xc6, 0xe8, 0xdd, 0x74, 0x1f, 0x4b, 0xbd, 0x8b, 0x8a,
  0x70, 0x3e, 0xb5, 0x66, 0x48, 0x03, 0xf6, 0x0e, 0x61, 0x35, 0x57, 0xb9, 0x86, 0xc1, 0x1d, 0x9e,
  0xe1, 0xf8, 0x98, 0x11, 0x69, 0xd9, 0x8e, 0x94, 0x9b, 0x1e, 0x87, 0xe9, 0xce, 0x55, 0x28, 0xdf,
  0x8c, 0xa1, 0x89, 0x0d, 0xbf, 0xe6, 0x42, 0x68, 0x41, 0x99, 0x2d, 0x0f, 0xb0, 0x54, 0xbb, 0x16]

def aesInvSbox : Bytes := (List.range 256).map fun i => BitVec.ofNat 8 (aesSbox.findIdx (· == BitVec.ofNat 8 i))

def sub8 (b : Byte) : Byte := (aesSbox[b.toNat]?).getD 0

def xtime (a : Byte) : Byte := if a.getLsbD 7 then (a <<< 1) ^^^ 0x1B#8 else a <<< 1

def aesMulAux : Nat → Byte → Byte → Byte
  | 0, _, _ => 0
  | n + 1, a, b => (if b.getLsbD 0 then a else 0) ^^^ aesMulAux n (xtime a) (b >>> 1)

def aesMul (a b : Byte) : Byte := aesMulAux 8 a b

def aesRcon : Nat → Byte
  | 0 => 1
  | n + 1 => xtime (aesRcon n)

/-- Key expansion: words of 4 bytes, `n` more of them. -/
def aesExpand (nk : Nat) : Nat → List Bytes → List Bytes
  | 0, w => w
  | n + 1, w =>
    let i := w.length
    let t := (w[i - 1]?).getD []
    let t := if i % nk = 0 then
        match (t.drop 1 ++ t.take 1).map sub8 with
        | b :: l => (b ^^^ aesRcon (i / nk - 1)) :: l
        | [] => []
      else if nk = 8 ∧ i % nk = 4 then t.map sub8
      else t
    aesExpand nk n (w ++ [xorBytes ((w[i - nk]?).getD []) t])

/-- Round keys of a 16- or 32-byte key. -/
def aesKeys (key : Bytes) : List Bytes :=
  let nk := key.length / 4
  let rounds := nk + 6
  pieces 16 (aesExpand nk (4 * (rounds + 1) - nk) (pieces 4 key)).flatten

def at8 (l : Bytes) (i : Nat) : Byte := (l[i]?).getD 0

def aesShift (l : Bytes) : Bytes := (List.range 16).map fun i => at8 l ((i + 4 * (i % 4)) % 16)
def aesInvShift (l : Bytes) : Bytes := (List.range 16).map fun i => at8 l ((i + 12 * (i % 4)) % 16)

def aesMix (m : List Byte) (l : Bytes) : Bytes :=
  (List.range 16).map fun i =>
    let c := i / 4 * 4
    (List.range 4).foldl (fun a j => a ^^^ aesMul (at8 m ((j + 4 - i % 4) % 4)) (at8 l (c + j))) 0

def aesEnc (key blk : Bytes) : Bytes :=
  match aesKeys key with
  | [] => blk
  | k0 :: ks =>
    let n := ks.length
    ((List.range n).zip ks).foldl (fun st ik =>
      let t := aesShift (st.map sub8)
      xorBytes (if ik.1 + 1 = n then t else aesMix [2, 3, 1, 1] t) ik.2) (xorBytes blk k0)

def aesDec (key blk : Bytes) : Bytes :=
  match aesKeys key with
  | [] => blk
  | k0 :: ks =>
    let n := ks.length
    let st := ((List.range n).zip ks).reverse.foldl (fun st ik =>
      let t := xorBytes st ik.2
      let t := if ik.1 + 1 = n then t else aesMix [14, 11, 13, 9] t
      (aesInvShift t).map fun b => (aesInvSbox[b.toNat]?).getD 0) blk
    xorBytes st k0

/-! ## Key wrap with padding (SP 800-38F) -/

def kwHalf (n : Nat) (l : Bytes) : Bytes := (l.drop (8 * n)).take 8

/-- The wrapping function W on semiblocks. -/
def kwWrap (key a : Bytes) (rs : List Bytes) : Bytes × List Bytes :=
  let n := rs.length
  (List.range (6 * n)).foldl (fun (st : Bytes × List Bytes) t =>
    let i := t % n
    let b := aesEnc key (st.1 ++ (st.2[i]?).getD [])
    (xorBytes (b.take 8) (be 8 (t + 1)), st.2.set i (b.drop 8))) (a, rs)

def kwUnwrap (key a : Bytes) (rs : List Bytes) : Bytes × List Bytes :=
  let n := rs.length
  (List.range (6 * n)).reverse.foldl (fun (st : Bytes × List Bytes) t =>
    let i := t % n
    let b := aesDec key (xorBytes st.1 (be 8 (t + 1)) ++ (st.2[i]?).getD [])
    (b.take 8, st.2.set i (b.drop 8))) (a, rs)

/-- KWP of a plaintext. -/
def kwpWrap (key p : Bytes) : Bytes :=
  let aiv := be 4 0xA65959A6 ++ be 4 p.length
  let padded := padMul 8 p
  if padded.length ≤ 8 then aesEnc key (aiv ++ padTo 8 padded)
  else
    let r := kwWrap key aiv (pieces 8 padded)
    r.1 ++ r.2.flatten

/-- KWP unwrap; none where the check fails. -/
def kwpUnwrap (key c : Bytes) : Option Bytes :=
  let (a, p) := if c.length = 16 then
      let b := aesDec key c
      (b.take 8, b.drop 8)
    else
      let r := kwUnwrap key (c.take 8) (pieces 8 (c.drop 8))
      (r.1, r.2.flatten)
  let n := ofBe (a.drop 4)
  if c.length % 8 = 0 ∧ 16 ≤ c.length ∧ a.take 4 = be 4 0xA65959A6 ∧ n ≤ p.length ∧ p.length < n + 8 ∧
      (p.drop n).all (· == 0) then some (p.take n)
  else none

/-! ## XTS-AES (R218, R219) -/

/-- Multiplication of a tweak by the primitive element. -/
def xtsNext (t : Bytes) : Bytes :=
  let n := ofLe t * 2
  le 16 (if 2 ^ 128 ≤ n then (n - 2 ^ 128) ^^^ 0x87 else n)

def xtsBlocks (f : Bytes → Bytes) : Bytes → List Bytes → Bytes
  | _, [] => []
  | t, b :: l => xorBytes (f (xorBytes b t)) t ++ xtsBlocks f (xtsNext t) l

/-- One data unit, a multiple of 16 bytes. -/
def xtsUnit (f : Bytes → Bytes) (k2 : Bytes) (tweak : Nat) (l : Bytes) : Bytes :=
  xtsBlocks f (aesEnc k2 (le 16 tweak)) (pieces 16 l)

/-- Data units of 4,096 bytes with tweaks CHUNK × 256 + j. -/
def xtsAll (f : Bytes → Bytes) (k2 : Bytes) (chunk : Nat) (l : Bytes) : Bytes :=
  let us := pieces 4096 l
  ((List.range us.length).zip us).flatMap fun ju => xtsUnit f k2 (chunk * 256 + ju.1) ju.2

def xtsEnc (k1 k2 : Bytes) (chunk : Nat) (l : Bytes) : Bytes := xtsAll (aesEnc k1) k2 chunk l
def xtsDec (k1 k2 : Bytes) (chunk : Nat) (l : Bytes) : Bytes := xtsAll (aesDec k1) k2 chunk l

/-! ## GCM (R230, R233) -/

/-- Multiplication in GF(2^128) as SP 800-38D orders its bits: `n` steps over the bits of `x` from the first. -/
def ghashMulAux : Nat → Nat → Nat → Nat → Nat
  | 0, _, z, _ => z
  | n + 1, x, z, v =>
    let z := if x.testBit n then z ^^^ v else z
    let v := if v % 2 = 1 then v / 2 ^^^ 0xE1000000000000000000000000000000 else v / 2
    ghashMulAux n x z v

def ghashMul (x y : Nat) : Nat := ghashMulAux 128 x 0 y

def ghash (h : Nat) (l : Bytes) : Nat := (pieces 16 l).foldl (fun y b => ghashMul (y ^^^ ofBe (padTo 16 b)) h) 0

/-- Counter-mode keystream over a text from counter block `iv ‖ c`. -/
def gcmCtr (key iv : Bytes) (c : Nat) (l : Bytes) : Bytes :=
  let bs := pieces 16 l
  ((List.range bs.length).zip bs).flatMap fun ib => xorBytes ib.2 (aesEnc key (iv ++ be 4 (c + ib.1)))

def gcmTag (key iv aad ct : Bytes) : Bytes :=
  let h := ofBe (aesEnc key (zeros 16))
  let s := ghash h (padMul 16 aad ++ padMul 16 ct ++ be 8 (8 * aad.length) ++ be 8 (8 * ct.length))
  xorBytes (be 16 s) (aesEnc key (iv ++ be 4 1))

/-- Ciphertext and tag. -/
def gcmEnc (key iv aad pt : Bytes) : Bytes × Bytes :=
  let ct := gcmCtr key iv 2 pt
  (ct, gcmTag key iv aad ct)

/-- Plaintext, none where the tag fails. -/
def gcmDec (key iv aad ct tag : Bytes) : Option Bytes :=
  if gcmTag key iv aad ct = tag then some (gcmCtr key iv 2 ct) else none

end Sys2Proof
end

