-- ==== Sys2Proof/Machine/Hash.lean ====
section
/-! DEFINITION. The other digests the manual names (R526): SHA-384 and SHA-512 (FIPS 180-4), SHA-3 and SHAKE256 (FIPS 202), as
running states of bytes. -/

namespace Sys2Proof

/-! ## SHA-512 and SHA-384 -/

def sha512P : Sha2 64 :=
  { k := rootWords 64 3 sha2Primes, upper0 := (28, 34, 39), upper1 := (14, 18, 41), lower0 := (1, 8, 7), lower1 := (19, 61, 6) }

def sha512Init : List (BitVec 64) := rootWords 64 2 (sha2Primes.take 8)
def sha384Init : List (BitVec 64) := rootWords 64 2 ((sha2Primes.drop 8).take 8)

/-- Big-endian 64-bit words of a string. -/
def words64 (l : Bytes) : List (BitVec 64) := wordsBe 64 8 l

/-- One compression of a 128-byte block. -/
def sha512Block (st : List (BitVec 64)) (blk : Bytes) : List (BitVec 64) := sha512P.block st (words64 blk)

def sha512Bytes (st : List (BitVec 64)) : Bytes := st.flatMap fun w => be 8 w.toNat

/-! ## Keccak -/

def keccakRc : List (BitVec 64) :=
  [0x0000000000000001, 0x0000000000008082, 0x800000000000808a, 0x8000000080008000, 0x000000000000808b,
   0x0000000080000001, 0x8000000080008081, 0x8000000000008009, 0x000000000000008a, 0x0000000000000088,
   0x0000000080008009, 0x000000008000000a, 0x000000008000808b, 0x800000000000008b, 0x8000000000008089,
   0x8000000000008003, 0x8000000000008002, 0x8000000000000080, 0x000000000000800a, 0x800000008000000a] ++
  [0x8000000080008081, 0x8000000000008080, 0x0000000080000001, 0x8000000080008008]

def keccakRot : List Nat := [0, 1, 62, 28, 27, 36, 44, 6, 55, 20, 3, 10, 43, 25, 39, 41, 45, 15, 21, 8, 18, 2, 61, 56, 14]

/-- One round of Keccak-f[1600] on 25 lanes, lane x + 5y. -/
def keccakRound (a : List (BitVec 64)) (rc : BitVec 64) : List (BitVec 64) :=
  let c := (List.range 5).map fun x => wordAt a x ^^^ wordAt a (x + 5) ^^^ wordAt a (x + 10) ^^^ wordAt a (x + 15) ^^^ wordAt a (x + 20)
  let d := (List.range 5).map fun x => wordAt c ((x + 4) % 5) ^^^ (wordAt c ((x + 1) % 5)).rotateLeft 1
  let a := (List.range 25).map fun i => wordAt a i ^^^ wordAt d (i % 5)
  -- lane (x, y) of the result of rho and pi comes from lane (x + 3y, x)
  let b := (List.range 25).map fun i =>
    let x := i % 5
    let y := i / 5
    let j := (x + 3 * y) % 5 + 5 * x
    (wordAt a j).rotateLeft (keccakRot.getD j 0)
  let e := (List.range 25).map fun i =>
    let x := i % 5
    let y := i / 5
    wordAt b i ^^^ (~~~(wordAt b ((x + 1) % 5 + 5 * y)) &&& wordAt b ((x + 2) % 5 + 5 * y))
  (wordAt e 0 ^^^ rc) :: e.drop 1

/-- Keccak-f[1600] on 200 bytes, lanes little-endian. -/
def keccakF (st : Bytes) : Bytes :=
  (keccakRc.foldl keccakRound ((pieces 8 st).map fun p => BitVec.ofNat 64 (ofLe p))).flatMap fun w => le 8 w.toNat

/-- Absorb one block of the rate. -/
def keccakAbsorb (st blk : Bytes) : Bytes := keccakF (xorBytes st (padTo 200 blk))

/-! ## Digests of R526 as running states -/

/-- Block or rate in bytes. -/
def digestBlock (alg : Nat) : Nat :=
  match alg with
  | 0x1 | 0x9 => 64
  | 0x2 | 0x3 | 0xA | 0xB => 128
  | 0x4 | 0x7 => 136
  | 0x5 => 104
  | 0x6 => 72
  | _ => 64

def digestKnown (alg : Nat) : Bool := decide (1 ≤ alg) && decide (alg ≤ 7) || decide (9 ≤ alg) && decide (alg ≤ 0xB)
def digestKeyed (alg : Nat) : Bool := decide (9 ≤ alg)

/-- It is of the SHA-3 family. -/
def digestSponge (alg : Nat) : Bool := decide (4 ≤ alg) && decide (alg ≤ 7)

/-- Bytes of output; SHAKE256 has its own length. -/
def digestLen (alg outlen : Nat) : Nat :=
  match alg with
  | 0x1 | 0x4 | 0x9 => 32
  | 0x2 | 0x5 | 0xA => 48
  | 0x7 => outlen
  | _ => 64

/-- State before the first block. -/
def digestInit (alg : Nat) : Bytes :=
  match alg with
  | 0x1 | 0x9 => sha256Bytes sha256Init
  | 0x2 | 0xA => sha512Bytes sha384Init
  | 0x3 | 0xB => sha512Bytes sha512Init
  | _ => zeros 200

/-- State after one block. -/
def digestStep (alg : Nat) (st blk : Bytes) : Bytes :=
  if digestSponge alg then keccakAbsorb st blk
  else if digestBlock alg = 64 then sha256Bytes (sha256Block (words32 st) blk)
  else sha512Bytes (sha512Block (words64 st) blk)

/-- Whole blocks of a string go into the state; the rest stays. -/
def digestAbsorb (alg : Nat) : Nat → Bytes → Bytes → Bytes × Bytes
  | 0, st, l => (st, l)
  | n + 1, st, l =>
    if l.length < digestBlock alg then (st, l)
    else digestAbsorb alg n (digestStep alg st (l.take (digestBlock alg))) (l.drop (digestBlock alg))

/-- Pad the rest of a message of `total` bytes and give `n` bytes of output. -/
def digestEnd (alg n : Nat) (st rest : Bytes) (total : Nat) : Bytes :=
  let blk := digestBlock alg
  if digestSponge alg then
    let l := padTo blk (rest ++ [if alg = 7 then 0x1F else 0x06])
    let l := l.take (blk - 1) ++ [(l.getD (blk - 1) 0) ||| 0x80]
    (keccakAbsorb st l).take n
  else
    let p := shaPad blk (if blk = 64 then 8 else 16) total rest
    ((pieces blk p).foldl (digestStep alg) st).take n

/-- SHAKE256 of a string. -/
def shake256 (l : Bytes) (n : Nat) : Bytes :=
  let (st, rest) := digestAbsorb 7 (l.length / 136 + 1) (zeros 200) l
  let first := digestEnd 7 200 st rest l.length
  (first.take 136 ++ (keccakF first).take 136).take n

/-- Digest of a whole string by an unkeyed algorithm. -/
def digest (alg : Nat) (l : Bytes) : Bytes :=
  let (st, rest) := digestAbsorb alg (l.length / digestBlock alg + 1) (digestInit alg) l
  digestEnd alg (digestLen alg 64) st rest l.length

/-- The chaining values after (K0 xor ipad) and (K0 xor opad) (R537). -/
def digestKey (alg : Nat) (key : Bytes) : Bytes × Bytes :=
  let k0 := padTo (digestBlock alg) (if digestBlock alg < key.length then digest (alg - 8) key else key)
  (digestStep alg (digestInit alg) (xorConst 0x36 k0), digestStep alg (digestInit alg) (xorConst 0x5C k0))

/-- The outer digest of an HMAC. -/
def digestOuter (alg : Nat) (ocv inner : Bytes) : Bytes :=
  digestEnd alg (digestLen alg 0) ocv inner (digestBlock alg + inner.length)

end Sys2Proof
end

