-- ==== Sys2Proof/Machine/KeyOps.lean ====
section
/-! DEFINITION. Key stores and derived keys (R227, R228, R237, R238, R548, R586): what the key cipher units, the digest engines,
the slot loads and the B-die share. -/

namespace Sys2Proof.Machine

open Sys2Proof

/-- DERIVE of R586: SHAKE256 of a label and the fused seed. -/
def derive (label : Bytes) (n : Nat) : Bytes := shake256 (label ++ padTo 32 Config.idSeed) n

/-- An ASCII label. -/
def ascii (s : String) : Bytes := s.toList.map fun c => BitVec.ofNat 8 c.toNat

/-- G of R586. -/
def State.wrapGen (s : State) : Bytes := le 2 s.otp.wrapGen

/-- The module wrap key (R586). -/
def State.wrapKey (s : State) : Bytes := derive (ascii "VX8-WRAP" ++ s.wrapGen) 32

/-- The context key of a die's unit: drawn at each reset of its domain (R238, R548). -/
def State.ctxKey (s : State) (die unit : Nat) : Bytes :=
  padTo 32 (Config.drbg ((s.keys.ctx.getD die s.keys.ctxBase) * 64 + die * 2 + unit) 32)

/-- The AWK that the islands of a tile hold (R228). -/
def State.awkOf (s : State) (tile : Nat) : Option Bytes := s.dst.awk.find? tile

/-- Random bytes from the DRBG (R235). -/
def State.random (s : State) (n : Nat) : Bytes × State := (padTo n (Config.drbg s.free n), { s with free := s.free + 1 })

/-! ## Domain key records (R220, R227) -/

structure KeyGen where
  gen : Nat
  k1 : Bytes
  k2 : Bytes
deriving DecidableEq, Repr

structure KeyRec where
  domain : Nat
  icv : Bytes
  ocv : Bytes
  gens : List KeyGen
deriving DecidableEq, Repr

def KeyRec.bytes (r : KeyRec) : Bytes :=
  le 2 r.domain ++ le 1 r.gens.length ++ zeros 5 ++ padTo 32 r.icv ++ padTo 32 r.ocv ++
    r.gens.flatMap fun g => le 2 g.gen ++ zeros 6 ++ padTo 32 g.k1 ++ padTo 32 g.k2

/-- Read a record's plaintext (R227). -/
def keyRecOf (l : Bytes) : Option KeyRec :=
  let n := leAt l 2 1
  if l.length ≠ 72 + 72 * n ∨ n = 0 ∨ 4 < n then none
  else some { domain := leAt l 0 2, icv := (l.drop 8).take 32, ocv := (l.drop 40).take 32,
              gens := (List.range n).map fun i =>
                { gen := leAt l (72 + 72 * i) 2, k1 := (l.drop (80 + 72 * i)).take 32, k2 := (l.drop (112 + 72 * i)).take 32 } }

/-- Unwrap a record under the AWK: of the four lengths a record may have, the one whose check passes (log entry 21). -/
def unwrapRec (awk l : Bytes) : Option KeyRec :=
  [152, 224, 296, 368].findSome? fun n =>
    if l.length < n then none else (kwpUnwrap awk (l.take n)).bind keyRecOf

/-- The keys of a generation from its media key (R220). -/
def deriveGen (domain gen : Nat) (m : Bytes) : KeyGen :=
  let tail := le 2 domain ++ le 2 gen
  { gen := gen, k1 := hmacSha256 m (ascii "VX8-XTS-1" ++ tail), k2 := hmacSha256 m (ascii "VX8-XTS-2" ++ tail) }

/-- One draw of a media key for a generation: the generation where its two keys differ (R220). -/
def State.drawOnce (s : State) (domain gen : Nat) : Option KeyGen × State :=
  let x := s.random 32
  let g := deriveGen domain gen x.1
  (if g.k1 = g.k2 then none else some g, x.2)

/-- A new generation: a draw whose two keys are equal is drawn again, up to `n` times more (R220); a generation with equal keys is never
created (log entry 220). -/
def State.drawGenOf (s : State) (domain gen : Nat) : Nat → Option KeyGen × State
  | 0 => s.drawOnce domain gen
  | n + 1 =>
    let x := s.drawOnce domain gen
    if x.1.isSome then x else x.2.drawGenOf domain gen n

/-- A new generation of a domain, within a number of draws that nothing fixes (log entry 220). -/
def State.drawGen (s : State) (domain gen : Nat) : Option KeyGen × State := s.drawGenOf domain gen Config.genDraws

/-- A new domain record with generation 0 (R235). -/
def State.newRec (s : State) (domain : Nat) : Option KeyRec × State :=
  let x := s.random 32
  let h := hmacState x.1
  let y := x.2.drawGen domain 0
  (y.1.map fun g => { domain := domain, icv := h.1, ocv := h.2, gens := [g] }, y.2)

/-- The number of a record's next generation: above its live ones and above every number its domain has used (R223); none once the 16
bits are used up (log entry 221). -/
def State.nextGenOf (s : State) (r : KeyRec) : Option Nat :=
  let n := (r.gens.map KeyGen.gen).foldl (fun n g => max n (g + 1)) (s.dom r.domain).nextGen
  if n < 65536 then some n else none

/-- A generation number is used: it is not given again (R223). -/
def State.useGen (s : State) (domain gen : Nat) : State :=
  { s with arr := { s.arr with doms := s.arr.doms.insert domain { s.dom domain with nextGen := max (s.dom domain).nextGen (gen + 1) } } }

end Sys2Proof.Machine
end

