-- ==== Sys2Proof/Machine/Destage.lean ====
section
/-! DEFINITION. Destage (spec/04, spec/05): lanes, key slots, chunks, fingerprints, packs, and the transaction that a destaged
record causes (R296, R467). -/

namespace Sys2Proof.Machine

open Sys2Proof

/-! ## Key slots (R179, R180, R221) -/

def fpKey (tile domain : Nat) : Nat := tile * 4096 + domain
def xtsKey (tile domain gen : Nat) : Nat := fpKey tile domain * 65536 + gen

/-- Room for a slot: the least recently used of a full tile that no lane uses goes. -/
def evictSlot (l : SMap (Bytes × Bytes × Nat)) (mine : Nat → Bool) (used : List Nat) (cap : Nat) : SMap (Bytes × Bytes × Nat) :=
  let own := l.keep fun k _ => mine k
  if own.length < cap then l
  else match (own.keep fun k _ => !used.contains k).foldl (fun (b : Option (Nat × Nat)) kv => match b with
      | some x => if kv.2.2.2 < x.2 then some (kv.1, kv.2.2.2) else b
      | none => some (kv.1, kv.2.2.2)) none with
    | some (k, _) => l.erase k
    | none => l

/-- Table entries of a domain: valid, byte compare, filter (R207); valid, re-key, WGEN (R249). -/
def State.fplDom (s : State) (tile domain : Nat) (f : Fld) : Bool := s.tblFlag (dieC tile) 0 domain 0 f
def State.wgen (s : State) (tile domain : Nat) : Nat := s.tblFld (dieC tile) 0 domain 0 Reg.XTS_DOM_DATA_WGEN

/-- Key slot that a lane at work uses: of fingerprints (true) or of XTS keys. -/
def State.runSlot (s : State) (r : LaneRun) : Option (Bool × Nat) :=
  match r.kind, r.item with
  | .fpl, .chunk j _ => (s.dst.jobs.find? j).map fun x => (true, fpKey r.tile x.domain)
  | .enc, .pack i => (s.dst.packs.find? i).map fun p => (false, xtsKey r.tile p.domain (s.wgen r.tile p.domain))
  | .dec, .pack i => (s.dst.packs.find? i).map fun p => (false, xtsKey r.tile p.domain p.gen)
  | .dec, .read i => (s.med.rds.find? i).map fun x => (false, xtsKey r.tile x.domain (leAt (x.env.getD []) 6 2))
  | _, _ => none

/-- Slots that lanes use (R180, R221). -/
def State.usedSlots (s : State) (fp : Bool) : List Nat :=
  s.dst.running.filterMap fun r => match s.runSlot r with
    | some (f, k) => if f = fp then some k else none
    | none => none

/-- Fill a fingerprint slot. -/
def State.putFpSlot (s : State) (tile domain : Nat) (icv ocv : Bytes) : State :=
  let l := evictSlot s.dst.fpSlots (fun k => k / 4096 == tile) (s.usedSlots true) 512
  { s with dst := { s.dst with fpSlots := l.insert (fpKey tile domain) (icv, ocv, s.dst.clock), clock := s.dst.clock + 1 } }

/-- Fill an XTS slot. -/
def State.putXtsSlot (s : State) (tile domain : Nat) (g : KeyGen) : State :=
  let l := evictSlot s.dst.xtsSlots (fun k => k / 65536 / 4096 == tile) (s.usedSlots false) 256
  { s with dst := { s.dst with xtsSlots := l.insert (xtsKey tile domain g.gen) (g.k1, g.k2, s.dst.clock), clock := s.dst.clock + 1 } }

/-- Use a slot: its keys, and it becomes the most recently used. -/
def State.useFp (s : State) (tile domain : Nat) : Option (Bytes × Bytes × State) :=
  (s.dst.fpSlots.find? (fpKey tile domain)).map fun x =>
    (x.1, x.2.1, { s with dst := { s.dst with fpSlots := s.dst.fpSlots.insert (fpKey tile domain) (x.1, x.2.1, s.dst.clock),
                                              clock := s.dst.clock + 1 } })

def State.useXts (s : State) (tile domain gen : Nat) : Option (Bytes × Bytes × State) :=
  (s.dst.xtsSlots.find? (xtsKey tile domain gen)).map fun x =>
    (x.1, x.2.1, { s with dst := { s.dst with xtsSlots := s.dst.xtsSlots.insert (xtsKey tile domain gen) (x.1, x.2.1, s.dst.clock),
                                              clock := s.dst.clock + 1 } })

/-- Empty the fingerprint slots, or the XTS slots, of a domain or of every domain on a tile. -/
def State.flushFp (s : State) (tile : Nat) (domain : Option Nat) : State :=
  { s with dst := { s.dst with fpSlots := s.dst.fpSlots.keep fun k _ => !(k / 4096 == tile && (match domain with
    | some d => k % 4096 == d
    | none => true)) } }

def State.flushXts (s : State) (tile : Nat) (domain : Option Nat) : State :=
  { s with dst := { s.dst with xtsSlots := s.dst.xtsSlots.keep fun k _ => !(k / 65536 / 4096 == tile && (match domain with
    | some d => k / 65536 % 4096 == d
    | none => true)) } }

/-- Flush the fingerprint slots, or the XTS slots, of a domain or of every domain on a tile by a register write: one that a lane uses is
emptied when the lane's item ends (R207, R249). -/
def State.flushFpLater (s : State) (tile : Nat) (domain : Option Nat) : State :=
  let used := s.dst.fpSlots.keep fun k _ => (s.usedSlots true).contains k
  let t := s.flushFp tile domain
  let due := used.keep fun k _ => !t.dst.fpSlots.has k
  { t with dst := { t.dst with fpSlots := due.foldl (fun m kv => m.insert kv.1 kv.2) t.dst.fpSlots, flushFp := t.dst.flushFp ++ due.keys } }

def State.flushXtsLater (s : State) (tile : Nat) (domain : Option Nat) : State :=
  let used := s.dst.xtsSlots.keep fun k _ => (s.usedSlots false).contains k
  let t := s.flushXts tile domain
  let due := used.keep fun k _ => !t.dst.xtsSlots.has k
  { t with dst := { t.dst with xtsSlots := due.foldl (fun m kv => m.insert kv.1 kv.2) t.dst.xtsSlots, flushXts := t.dst.flushXts ++ due.keys } }

/-- Empty the flushed slots that no lane uses any more. -/
def State.emptyFlushed (s : State) : State :=
  let fp := s.dst.flushFp.filter fun k => !(s.usedSlots true).contains k
  let xts := s.dst.flushXts.filter fun k => !(s.usedSlots false).contains k
  { s with dst := { s.dst with fpSlots := s.dst.fpSlots.keep fun k _ => !fp.contains k, xtsSlots := s.dst.xtsSlots.keep fun k _ => !xts.contains k,
                               flushFp := s.dst.flushFp.filter fun k => !fp.contains k, flushXts := s.dst.flushXts.filter fun k => !xts.contains k } }

/-- A domain's keys are destroyed: every slot on every tile and the filter entries (R185, R226). -/
def State.dropDomainKeys (s : State) (d : Nat) : State :=
  ((List.range s.variant.tiles).foldl (fun s t => (s.flushFp t (some d)).flushXts t (some d)) s).filterDropDomain d

/-! ## Filter (R186, R187, R192) -/

/-- A filter entry's 160 bits. -/
def filterVal (domain : Nat) (fp : Bytes) : Nat := domain * 2 ^ 148 + ofBe (padTo 18 (fp.take 18)) * 16

/-- Insert a fingerprint with its reference (R192, R508, R510). -/
def State.filterInsert (s : State) (domain : Nat) (fp : Bytes) (ref : Nat) : State :=
  let v := filterVal domain fp
  let d := s.filterDie v
  match s.csaFor d 0 with
  | some (i, p) =>
    let (s, a) := s.csaInsertRing d i p v
    s.setCsa d { s.csaOf d with slots := (s.csaOf d).slots.insert a ref }
  | none => s

/-- Probe the filter (R187). -/
def State.filterProbe (s : State) (domain : Nat) (fp : Bytes) : State × Option Nat :=
  let v := filterVal domain fp
  let d := s.filterDie v
  match s.csaFor d 0 with
  | some (_, p) =>
    let (s, r) := s.csaFind d p v (2 ^ 160 - 1)
    (s, r.bind fun ae => (s.csaOf d).slots.find? ae.1)
  | none => (s, none)

/-- Remove a fingerprint (R198). -/
def State.filterDelete (s : State) (domain : Nat) (fp : Bytes) : State :=
  let v := filterVal domain fp
  let d := s.filterDie v
  match s.csaFor d 0 with
  | some (_, p) => s.csaDeleteMatch d p v
  | none => s

/-! ## Jobs -/

def State.job (s : State) (j : Nat) : Option Job := s.dst.jobs.find? j
def State.setJob (s : State) (j : Nat) (x : Job) : State := { s with dst := { s.dst with jobs := s.dst.jobs.insert j x } }

/-- Set the state of one chunk of a job. -/
def State.setChunk (s : State) (j n : Nat) (st : ChunkSt) : State :=
  match s.job j with
  | none => s
  | some x => s.setJob j { x with chunks := (List.range x.chunks.length).zip x.chunks |>.map fun ic =>
      if ic.1 = n then { ic.2 with st := st } else ic.2 }

def Job.chunkAt (x : Job) (n : Nat) : Option ChunkTask := x.chunks[n]?

/-! ## Packs (R208 to R212) -/

def State.pack (s : State) (id : Nat) : Option Pack := s.dst.packs.find? id
def State.setPack (s : State) (id : Nat) (p : Pack) : State := { s with dst := { s.dst with packs := s.dst.packs.insert id p } }

/-- Open packs of a tile. -/
def State.openPacks (s : State) (tile : Nat) : SMap Pack := s.dst.packs.keep fun _ p => p.tile == tile && p.st == .opened

/-- A pack takes no more members. -/
def Pack.full (p : Pack) : Bool := p.kv || decide (8 ≤ p.mems.length)

/-- A block pack of a domain and class open on a tile, or place for one: none when 16 are open, or it is full and not yet
closed. -/
def State.packFor (s : State) (tile domain cls : Nat) (kv : Bool) : Option (Option Nat) :=
  let l := s.openPacks tile
  match List.find? (fun kp : Nat × Pack => !kv && !kp.2.kv && kp.2.domain == domain && kp.2.cls == cls) l with
  | some (k, p) => if p.full then none else some (some k)
  | none => if l.length < 16 then some none else none

/-- Hand the chunks of a job to packing in their order (R182, R208). -/
def State.packTurn (s : State) (j : Nat) : Nat → State
  | 0 => s
  | fuel + 1 =>
    match s.job j with
    | none => s
    | some x =>
      if x.held then s
      else match (List.range x.chunks.length).find? fun n => (match (x.chunkAt n).map ChunkTask.st with
        | some (.new _ _ _) => false
        | some (.done _) => false
        | _ => true) with
      | none => s
      | some n => match x.chunkAt n with
        | some { bytes := b, st := .fresh fp } =>
          match s.packFor x.tile x.domain x.cls x.kv with
          | none => s
          | some found =>
            let m : PackMem := { bytes := b, fp := fp, job := j, n := n }
            let (s, id, i) := match found.bind fun k => (s.pack k).map fun p => (k, p) with
              | some (k, p) => (s.setPack k { p with mems := p.mems ++ [m], addedAt := s.ao.tb }, k, p.mems.length)
              | none =>
                let id := s.dst.nextPack
                let p : Pack := { tile := x.tile, domain := x.domain, cls := x.cls, kv := x.kv, mems := [m], st := .opened,
                                  addedAt := s.ao.tb, chunk := 0, gen := 0, stream := [], stored := false, env := [], maddr := 0,
                                  copyOf := none, reserved := false, logged := false, again := false }
                (({ s with dst := { s.dst with nextPack := id + 1 } } : State).setPack id p, id, 0)
            (s.setChunk j n (.new fp id i)).packTurn j fuel
        | _ => s

/-- Every job of a tile hands over what it can. -/
def State.packTurns (s : State) : State :=
  s.dst.jobs.keys.foldl (fun s j => s.packTurn j (((s.job j).map fun x => x.chunks.length).getD 0 + 1)) s

/-- Chunk numbers that a domain record sets aside at a time (log entry 200). -/
def numberRun : Nat := 4096

/-- Take `n` consecutive chunk numbers of this side in a domain (R209, R259): the first. The domain record sets numbers aside before
they are used, so that none is given twice after an interruption. -/
def State.takeNumbers (s : State) (domain n : Nat) : State × Nat :=
  let d := s.dom domain
  let top := if s.side = 0 then d.next0 else d.next1
  let num := s.dst.cursor.getD domain top
  let s := { s with dst := { s.dst with cursor := s.dst.cursor.insert domain (num + n) } }
  if num + n ≤ top then (s, num)
  else
    let d := if s.side = 0 then { d with next0 := num + numberRun } else { d with next1 := num + numberRun }
    (({ s with arr := { s.arr with doms := s.arr.doms.insert domain d } } : State).log (.domrec domain d), num)

/-- Close a pack (R209): consecutive chunk numbers of the destaging side, and its fingerprints enter the filter (R192). -/
def State.closePack (s : State) (id : Nat) : State :=
  match s.pack id with
  | none => s
  | some p =>
    if p.st ≠ .opened then s
    else
      let n := p.mems.length
      let (s, num) := s.takeNumbers p.domain n
      let c := mkRef p.domain num
      let s := s.setPack id { p with st := .closed, chunk := c }
      let s := ((List.range n).zip p.mems).foldl (fun s im => s.filterInsert p.domain im.2.fp (c + im.1)) s
      s.packTurns

/-- The plaintext of a pack. -/
def Pack.plain (p : Pack) : Bytes := p.mems.flatMap PackMem.bytes

/-- The envelope of a pack with its payload (R211). -/
def envelope (kv stored : Bool) (members gen chunk : Nat) (plain stream payload : Bytes) : Bytes :=
  let h := le 2 0x4556 ++ le 1 1 ++ le 1 ((if kv then 1 else 0) + (if stored then 2 else 0)) ++ le 1 members ++ [0] ++ le 2 gen ++
    le 4 plain.length ++ le 4 stream.length ++ le 8 chunk ++ le 4 (crc32c plain).toNat
  h ++ le 4 (crc32c (h ++ payload)).toNat ++ payload

/-- Fields of an envelope as it is read. -/
structure Env where
  kv : Bool
  members : Nat
  gen : Nat
  ulen : Nat
  slen : Nat
  chunk : Nat
  ucrc : Nat
  payload : Bytes
deriving DecidableEq, Repr

/-- Read an envelope, with the checks of R246 that need no key. -/
def envOf (b : Bytes) : Option Env :=
  let kv := leAt b 3 1 % 2 == 1
  let m := leAt b 4 1
  let ulen := leAt b 8 4
  let slen := leAt b 12 4
  let pay := (b.drop 32).take (roundUp slen 16)
  let fits := if kv then m == 1 && decide (1 ≤ ulen) && decide (ulen ≤ 65536)
    else decide (1 ≤ m) && decide (m ≤ 8) && ulen == m * 4096
  if leAt b 0 2 = 0x4556 ∧ leAt b 2 1 = 1 ∧ fits ∧ 32 + roundUp slen 16 ≤ 65600 ∧ pay.length = roundUp slen 16 ∧
      leAt b 28 4 = (crc32c (b.take 28 ++ pay)).toNat then
    some { kv := kv, members := m, gen := leAt b 6 2, ulen := ulen, slen := slen, chunk := leAt b 16 8, ucrc := leAt b 24 4, payload := pay }
  else none

/-- Members' chunk lengths. -/
def Env.size (e : Env) : Nat := e.ulen / max 1 e.members

/-- Bytes that placing a pack reserves (R212, R214). -/
def Pack.reserve (p : Pack) : Nat := max p.env.length (32 + roundUp (p.plain.length + 5 * ((p.plain.length + 16383) / 16384)) 16)

/-- What a reshape's destinations are reserved to: the source segment, or the one run of a VX5 reshape (R399, R404). -/
def Reshape.dest (r : Reshape) : Option Nat := if r.vx5 then some (2 ^ 32) else r.source

/-- No segment can be opened even for destage: an event, once (R308). A head judges by the pool that it allocates from. -/
def State.noSegment (s : State) : State :=
  if s.ftl.noOpen || decide (6 ≤ (s.pickBlocks false (s.newWidth none + 2) []).length) then s
  else ({ s with ftl := { s.ftl with noOpen := true } } : State).event (dieM 0) 0x24 7 noInst

/-- Place an encrypted pack in an open data segment; it waits where no segment can be opened. A copy of a reshape goes to the
segment reserved to its source. -/
def State.placePack (s : State) (id : Nat) : State :=
  match s.pack id with
  | none => s
  | some p =>
    if p.st ≠ .encrypted then s
    else
      let src := if p.reserved then s.par.reshape.bind Reshape.dest else none
      let cap := if p.copyOf.isSome then roundUp p.env.length 16 else p.reserve
      match s.placeBytes 0 src cap p.env (fun o _ => { o with packs := o.packs ++ [id] }) 4 with
      | some (s, a) => s.setPack id { p with st := .placing, maddr := a }
      | none => s.noSegment

/-- Place what waits for a segment. -/
def State.placePacks (s : State) : State := s.dst.packs.keys.foldl (fun s id => s.placePack id) s

/-! ## Frozen copies and own copies of clone pages (R467, R468, R472) -/

/-- References that a page lists (R468). -/
def PageBody.refs (b : PageBody) : List Nat :=
  (match b with
  | .map m | .list m => m.vals
  | .leaf _ es => es.flatMap fun (v : ValEnt) => if v.nchunk ≤ 3 then v.refs.take v.nchunk else []
  | _ => []).filter fun r => refNum r != 0

/-- The newest snapshot epoch of a namespace as table 0 of the PGT block gives it, 0 for none (R470, R494). -/
def State.newestEpoch (s : State) (nsid : Nat) : Nat := (s.tbl (dieF 0) 0x17 0 (nsid - 1) 0).toNat

def countItems (side : Nat) (delta : Int) (refs : List Nat) : List Item :=
  (refs.filter fun r => refNum r != 0).map fun r => .count r side delta

/-- The change from a record with ARRIVAL `t` needs firmware's R467: it precedes the newest snapshot epoch (R470). -/
def State.needsFreeze (s : State) (nsid t : Nat) : Bool := decide (t < s.newestEpoch nsid)

/-- Copies of a page with key epoch above `t` (R467). -/
def State.copiesAbove (s : State) (pid t : Nat) : List Nat :=
  (s.arr.frozen.filter fun f => f.page == pid && decide (t < f.epoch)).map Frozen.copy

/-- What a change to a page needs first: items and the namespace record they leave, with the copies that the change reaches as well
(R467, R468, R472). `t` is the ARRIVAL of its record; none where control-plane firmware has applied R467 for it. No answer where
control-plane firmware must apply R467, or rewrite a clone's path (R472). -/
def State.beforeChange (s : State) (nsid pid : Nat) (t : Option Nat) (n : NsRec) : Option (List Item × List Nat × NsRec) :=
  let body := (s.page (s.livePage nsid pid)).body
  let own := s.ftl.pages.has pid || n.base.isNone
  if !own && pKind pid != 1 && pKind pid != 4 then none
  else
    let clone := if own then [] else .pageimg pid body :: countItems s.side 1 body.refs
    let e := s.newestEpoch nsid
    match t with
    | none => some (clone, [], n)
    | some t =>
      if e = 0 then some (clone, [], n)
      else if t < e then none
      else if s.arr.frozen.any fun f => f.page == pid && f.epoch == e then some (clone, s.copiesAbove pid t, n)
      else
        let kind := if pKind pid = 1 then 4 else pKind pid
        let copy := pageId kind (nsid - 1) n.index
        let src := match s.frozenAt pid (e + 1) with
          | some f => (s.page f.copy).body
          | none => body
        let body' : PageBody := match src with
          | .map m => .list m
          | b => b
        let ent : ValEnt := { key := be 8 pid ++ be 8 e, vlen := 4096, nchunk := 0, refs := [], list := copy }
        some (clone ++ [.pageimg copy body', .valset (freezeRoot nsid) ent] ++ countItems s.side 1 src.refs, s.copiesAbove pid t,
          { n with index := n.index + 1 })

/-- Index entries of a chunk, wherever in its domain's index. -/
def State.indexOf (s : State) (ref : Nat) : List FpEnt :=
  (s.ftl.pages.keep fun p _ => pKind p == 6 && pOwner p == refDomain ref).vals.flatMap fun p => match p.body with
    | .bucket _ es => es.filter fun e => e.ref == ref
    | _ => []

/-- The batch that a session is receiving is abandoned (R491): its items go, its later messages are not taken. -/
def State.abandonBatch (s : State) (k row : Nat) : State :=
  match s.sess k with
  | none => s
  | some x => (s.setSess k { x with dst := none }).event (dieF x.fdie) 0x17 row x.d.session

/-- A chunk of a remote pair has the wrong length or fingerprint, or its stream is malformed (R491). -/
def State.badBatch (s : State) (k : Nat) : State :=
  let s := s.abandonBatch k 9
  match s.sess k with
  | none => s
  | some x => s.exc x.d.tile .session [x.d.session]

/-- Index entries of a fingerprint that R188 lets a chunk of a length confirm. -/
def State.confirmable (s : State) (domain : Nat) (fp : Bytes) (len : Nat) : List FpEnt :=
  (s.fpLookup domain fp).filter fun e => refDomain e.ref == domain && e.len == len && (s.chunk e.ref).state == 1

/-! ## The transaction of a record (R195, R196, R297) -/

/-- Log records not yet durable, or whose transaction is not. -/
def State.pendingRecs (s : State) : List LogRec := s.ftl.cur ++ s.ftl.logPages.vals.flatMap LogPage.recs ++ s.ftl.held

/-- Items of this side's transactions that have not taken effect: not durable, or waiting for their pages. -/
def State.pendingItems (s : State) : List Item :=
  (s.pendingRecs.flatMap fun r => match r.body with
    | .txn _ _ _ _ items => items
    | _ => []) ++ s.ftl.todo.filterMap fun c => match c with
    | .item _ _ _ _ _ it => some it
    | _ => none

/-- Map and key-index pages that transactions not yet durable change. -/
def State.pendingPages (s : State) : List Nat :=
  s.pendingItems.flatMap fun i => (s.itemPages i).filter fun p => pKind p ≤ 4

/-- Changes to entries of one page of a block map and of the copies they reach: pre-items, the entries, and counts. -/
def State.mapItems (s : State) (nsid side : Nat) (t : Option Nat) (n : NsRec) (pid : Nat) (l : List (Nat × Nat)) :
    Option (List Item × NsRec) :=
  let dom := s.pageDomain pid
  let counts := fun (body : PageBody) (x : Nat × Nat) => countItems side 1 [x.2] ++ countItems side (-1) [pageRef body dom x.1]
  (s.beforeChange nsid pid t n).map fun (pre, copies, n) =>
    (pre ++ (l.flatMap fun x => .mapset pid x.1 x.2 :: counts (s.page (s.livePage nsid pid)).body x) ++
      copies.flatMap fun c => l.flatMap fun x => .list c x.1 [x.2] :: counts (s.page c).body x, n)

/-- Changes of a run of blocks, page by page. -/
def State.blockItems (s : State) (nsid side : Nat) (t : Option Nat) : List (Nat × List (Nat × Nat)) → NsRec → Option (List Item × NsRec)
  | [], n => some ([], n)
  | (pid, l) :: rest, n => match s.mapItems nsid side t n pid l with
    | none => none
    | some (a, n) => (s.blockItems nsid side t rest n).map fun (b, n) => (a ++ b, n)

/-- Group the blocks of a record by map page. -/
def byPage (nsid slba : Nat) (refs : List Nat) : List (Nat × List (Nat × Nat)) :=
  let n := refs.length
  let first := slba / 512
  let last := (slba + n - 1) / 512
  if n = 0 then []
  else (List.range (last - first + 1)).map fun i =>
    let p := first + i
    let lo := max slba (p * 512)
    let hi := min (slba + n) ((p + 1) * 512)
    (pageId 1 (nsid - 1) p, (List.range (hi - lo)).map fun k => (lo + k - p * 512, refs.getD (lo + k - slba) 0))

/-- Dropping a value: its counts, and its list pages are emptied as a change of theirs. -/
def State.dropValue (s : State) (nsid side : Nat) (t : Option Nat) (n : NsRec) (v : ValEnt) : Option (List Item × NsRec) :=
  let dom := n.domain
  let zeroList := fun (p k : Nat) => Item.list p 0 (List.replicate k (mkRef dom 0))
  if v.nchunk ≤ 3 then some (countItems side (-1) (v.refs.take v.nchunk), n)
  else
    (List.range ((v.nchunk + 511) / 512)).foldl (fun acc i => acc.bind fun (is, n) =>
      let p := ownPage nsid v.list + i
      let k := min 512 (v.nchunk - i * 512)
      (s.beforeChange nsid p t n).map fun (pre, copies, n) =>
        (is ++ pre ++ ((p, s.livePage nsid p) :: copies.map fun c => (c, c)).flatMap fun pb =>
          zeroList pb.1 k :: countItems side (-1) (s.page pb.2).body.refs, n)) (some ([], n))

/-- The entry of a key in a leaf. -/
def PageBody.entry (b : PageBody) (key : Key) : Option ValEnt :=
  match b with
  | .leaf _ es => es.find? fun v => v.key == key
  | _ => none

/-- Dropping several values, one after another. -/
def State.dropValues (s : State) (nsid side : Nat) (t : Option Nat) : List ValEnt → NsRec → Option (List Item × NsRec)
  | [], n => some ([], n)
  | v :: l, n => match s.dropValue nsid side t n v with
    | none => none
    | some (a, n) => (s.dropValues nsid side t l n).map fun (b, n) => (a ++ b, n)

/-- Items of a Store or Delete, in the live leaf and in the copies of it that the change reaches; the leaf must have room (R257). -/
def State.kvItems (s : State) (nsid side : Nat) (t : Option Nat) (n : NsRec) (key : Key) (v : Option (Nat × List Nat)) :
    Option (List Item × NsRec) :=
  let leaf := s.leafOf nsid key
  match s.beforeChange nsid leaf t n with
  | none => none
  | some (pre, copies, n) =>
    let olds := (s.kvFind nsid none key).toList ++ copies.filterMap fun c => (s.page c).body.entry key
    -- list pages that two of them name are emptied once
    let lists := olds.foldl (fun (l : List ValEnt) o => if decide (3 < o.nchunk) && l.any (fun x => x.list == o.list) then l else l ++ [o]) []
    match s.dropValues nsid side t lists n with
    | none => none
    | some (drop, n) =>
      match v with
      | none =>
        let held := copies.filter fun c => ((s.page c).body.entry key).isSome
        -- a Delete of a marked key ends its mark although the index does not hold it (R82)
        some (pre ++ drop ++ (if (s.kvFind nsid none key).isSome || (s.keyMark nsid key).isSome then [.keydel leaf key] else []) ++ held.map fun c => .keydel c key, n)
      | some (vlen, refs) =>
        let k := refs.length
        let list := if 3 < k then pageId 4 (nsid - 1) n.index else 0
        let np := if 3 < k then (k + 511) / 512 else 0
        let lists := (List.range np).map fun i => .list (list + i) 0 ((refs.drop (512 * i)).take 512)
        let ent : ValEnt := { key := key, vlen := vlen, nchunk := k, refs := if k ≤ 3 then refs else [], list := list }
        let inline := if k ≤ 3 then copies.flatMap fun c => .valset c ent :: countItems side 1 refs else copies.map fun c => .valset c ent
        some (pre ++ drop ++ countItems side 1 refs ++ lists ++ [.valset leaf ent] ++ inline, { n with index := n.index + np })

/-- The leaf of a key has no room for a new entry. -/
def State.leafFull (s : State) (nsid : Nat) (key : Key) : Bool :=
  (s.kvFind nsid none key).isNone && (match (s.page (s.livePage nsid (s.leafOf nsid key))).body with
    | .leaf _ es => decide (63 ≤ es.length)
    | _ => false)

/-- References of a job's chunks, when every one has its own. -/
def Job.refs (x : Job) : Option (List Nat) :=
  x.chunks.foldr (fun c acc => match c.st, acc with
    | .done r, some l => some (r :: l)
    | _, _ => none) (some [])

/-- Records of the same namespace that stand before a record and whose transaction is not logged: overlapping blocks, or the same
key. -/
def State.blockedBy (s : State) (r : JRec) : Bool :=
  (s.jrnl.own.vals ++ s.jrnl.mirror.vals).any fun e =>
    let q := e.r
    e.txn == 0 && q.nsid == r.nsid && r.later q && !(q.side == r.side && q.seq == r.seq) &&
      (if r.kv then q.kv && q.key == r.key && q.group != r.group
       else decide (q.slba < r.slba + r.blocks) && decide (r.slba < q.slba + q.blocks))

/-- Packs that a job's transaction records: placed, not yet logged, holding one of its chunks. -/
def State.packsOf (s : State) (j : Nat) : SMap Pack :=
  s.dst.packs.keep fun _ p => p.st == .placed && !p.logged && p.copyOf.isNone && p.mems.any fun m => m.job == j

/-- Items that record a pack (R295, R223, R298). -/
def Pack.items (p : Pack) : List Item :=
  let n := p.mems.length
  .alloc p.chunk p.maddr n p.plain.length :: .gencnt p.domain p.gen 1 ::
    ((List.range n).zip p.mems).map fun im => .fpadd (p.chunk + im.1) im.2.bytes.length im.2.fp

/-- Hold a job with an exception to control-plane firmware. -/
def State.holdJob (s : State) (j : Nat) (x : Job) (k : ExcKind) (args : List Nat) : State :=
  (s.setJob j { x with held := true, noDom := k == .domainInvalid }).exc x.tile k args

/-- Log the transaction of a job whose chunks all have their references (R196, R297), unless an earlier record's is still to
come, or one not yet durable changes the same pages. -/
def State.tryTxn (s : State) (j : Nat) : State :=
  match s.job j with
  | none => s
  | some x =>
    if x.held || x.txn.isSome || x.fix != 0 then s
    else if x.repl.isSome then
      if x.refs.isNone then s
      else
        -- chunks of a remote pair: only their packs are recorded (R485)
        let packs := s.packsOf j
        let (s, t) := s.logTxn none x.shard 0 (packs.vals.flatMap Pack.items)
        let s := packs.keys.foldl (fun s k => { s with dst := { s.dst with packs := s.dst.packs.erase k } }) s
        s.setJob j { x with txn := some t }
    else match x.refs, x.seqs.getLast?.bind fun q => s.jent x.side q, s.arr.nss.find? x.nsid with
    | some refs, some e, some n =>
      let r := e.r
      -- the head that destages counts (R195); adopted records count for their own side (R206)
      let cside := if s.jrnl.adopted then x.side else s.side
      if s.blockedBy r then s
      else if r.dealloc && !r.kv && decide (2 ≤ s.ftl.level) && s.owner x.shard == s.side then
        -- the hint is dropped in full (R292): a transaction without changes records the destage
        let (s, t) := s.logTxn (some x.side) x.shard r.seq []
        (s.setJob j { x with txn := some t }).setJent x.side r.seq { e with txn := t }
      else
        let t := if x.fixed then none else some x.arrival
        let made := if r.kv then
            (if r.dealloc then s.kvItems x.nsid cside t n r.key none
             else s.kvItems x.nsid cside t n r.key (some (x.vlen, refs)))
          else
            let refs := if r.zeroes || r.dealloc then List.replicate r.nlb (mkRef x.domain 0) else refs
            s.blockItems x.nsid cside t (byPage x.nsid r.slba refs) n
        if r.kv && !r.dealloc && s.leafFull x.nsid r.key then s.holdJob j x .split [x.side, r.seq, s.leafOf x.nsid r.key]
        else match made with
        | none =>
          let s := if s.needsFreeze x.nsid x.arrival then s.addFld (dieF 0) (Reg.PGT_CNT_COUNT.plus (8 * 11)) 1 else s
          s.holdJob j x .freeze [x.side, r.seq, x.arrival]
        | some (items, n') =>
          let pages := items.flatMap fun i => (s.itemPages i).filter fun p => pKind p ≤ 4
          let busy := s.pendingPages
          if pages.any fun p => busy.contains p then s
          else
            let packs := s.packsOf j
            -- the INDEX counter stands in the log before what it names (R250)
            let s := if n'.index = n.index then s
              else ({ s with arr := { s.arr with nss := s.arr.nss.insert x.nsid n' } } : State).log (.nsrec x.nsid (some n'))
            let (s, t) := s.logTxn (some x.side) x.shard r.seq ((packs.vals.flatMap Pack.items) ++ items)
            let s := packs.keys.foldl (fun s k => { s with dst := { s.dst with packs := s.dst.packs.erase k } }) s
            x.seqs.foldl (fun s q => match s.jent x.side q with
              | some e => s.setJent x.side q { e with txn := t }
              | none => s) (s.setJob j { x with txn := some t })
    | some _, some e, none =>
      -- the namespace is gone: nothing of it is mapped
      let (s, t) := s.logTxn (some x.side) x.shard e.r.seq []
      (s.setJob j { x with txn := some t }).setJent x.side e.r.seq { e with txn := t }
    | _, _, _ => s

/-- Every job logs its transaction if it can, in the order of its records. -/
def State.tryTxns (s : State) : State := s.dst.jobs.keys.foldl (fun s j => s.tryTxn j) s

/-! ## Beginning (R176, R187, R193, R202, R203) -/

/-- The chunks of a record or value with their first state: zero blocks refer to chunk number 0 (R171). -/
def firstSt (domain : Nat) (b : Bytes) : ChunkSt := if b.length = 4096 && b.all (· == 0) then .done (mkRef domain 0) else .hash

/-- The gear table of a tile, in the active copy. -/
def State.gear (s : State) (tile : Nat) : Nat → BitVec 64 := fun b => s.tbl (dieC tile) 0x30 0 b 0

/-- Cut a value on a tile, counted (R173, R207). -/
def State.cutOn (s : State) (tile : Nat) (v : Bytes) : State × List Bytes :=
  let l := cutValue (s.gear tile) v
  ((s.addFld (dieC tile) Reg.CDC_COUNT_CHUNKS l.length).addFld (dieC tile) Reg.CDC_COUNT_MAXCUTS
    (l.filter fun c => c.length == 65536).length, l)

/-- Begin the destage of a record, or of the value whose last part it is. FPL_MISC.ZERO counts the zero blocks of written data, and not the
blocks that a Write Zeroes refers to chunk number 0 (R171; the model's choice, log entry 210). -/
def State.beginDestage (s : State) (e : JEnt) : State :=
  let r := e.r
  let parts := if r.kv then s.valueParts r else [r]
  let shard := r.shard
  let domain := ((s.arr.nss.find? r.nsid).map NsRec.domain).getD 0
  let media := !(r.zeroes || r.dealloc)
  match s.laneTile .fpl (s.tileOf shard) with
  | none => s
  | some ft =>
    let cut := if r.kv && media then s.laneTile .cdc (s.tileOf shard) else some ft
    match cut with
    | none => s
    | some ct =>
      let (s, chunks) := if !media then (s, []) else if r.kv then s.cutOn ct (s.valueBytes r) else (s, pieces 4096 r.data)
      let tasks := chunks.map fun b => ({ bytes := b, st := if r.kv then .hash else firstSt domain b } : ChunkTask)
      let zeroChunks := (tasks.filter fun t => match t.st with
        | .done _ => true
        | _ => false).length
      let s := s.addFld (dieC ft) Reg.FPL_MISC_ZERO zeroChunks
      let ok := !media || s.fplDom ft domain Reg.FPL_DOM_DATA_VALID
      let id := s.dst.nextPack
      let x : Job := { side := r.side, seqs := parts.map JRec.seq, shard := shard, tile := ft, cls := if r.cls = 0 then 1 else r.cls,
                       nsid := r.nsid, domain := domain, kv := r.kv, key := r.key, vlen := if r.kv then r.slba else 0, slba := r.slba,
                       arrival := r.arrival, chunks := tasks, held := !ok, noDom := !ok, fix := 0, fixed := false, repl := none, txn := none }
      let s := { s with dst := { s.dst with nextPack := id + 1 } }
      let s := s.setJob id x
      let s := parts.foldl (fun s q => match s.jent q.side q.seq with
        | some e => s.setJent q.side q.seq { e with destaging := true }
        | none => s) s
      if ok then s.tryTxn id else s.exc ft .domainInvalid [domain, r.seq]

/-- After a commit of the domain table, jobs held for a domain that is valid now go on from their first chunk (R203). -/
def State.resumeJobs (s : State) (tile : Nat) : State :=
  s.dst.jobs.keys.foldl (fun s j => match s.job j with
    | some x =>
      if x.held && x.noDom && (s.laneTile .fpl x.tile).getD x.tile == tile && s.fplDom tile x.domain Reg.FPL_DOM_DATA_VALID then
        (s.setJob j { x with held := false, noDom := false, chunks := x.chunks.map fun c => { c with st := if x.kv || x.repl.isSome then .hash else firstSt x.domain c.bytes } }).tryTxn j
      else s
    | none => s) s

/-- A chunk of a freeing has been read again: its bytes wait for its domain's key state (R199). -/
def State.refpPart (s : State) (ref : Nat) (b : Option Bytes) : State :=
  match s.dst.freeing.find? ref, b with
  | some f, some x => { s with dst := { s.dst with freeing := s.dst.freeing.insert ref { f with data := some x } } }
  | _, _ => s

/-- A chunk is confirmed: it gains a reference with its job's transaction, and enters the filter (R188, R192). -/
def State.confirmChunk (s : State) (j n : Nat) (x : Job) (fp : Bytes) (ref : Nat) : State :=
  let s := (s.addFld (dieC x.tile) Reg.FPL_HIT_CONFIRMED 1).filterInsert x.domain fp ref
  ((s.setChunk j n (.done ref)).packTurn j (x.chunks.length + 1)).tryTxn j

/-- A chunk is new: it waits for its turn. -/
def State.freshChunk (s : State) (j n : Nat) (x : Job) (fp : Bytes) : State :=
  (s.setChunk j n (.fresh fp)).packTurn j (x.chunks.length + 1)

/-- A chunk of a remote pair whose fingerprint is not the one announced is not stored (R485, R491). -/
def State.wrongChunk (s : State) (j n : Nat) (x : Job) (k : Nat) : State :=
  (((s.setChunk j n (.done (mkRef x.domain 0))).packTurn j (x.chunks.length + 1)).tryTxn j).badBatch k

/-- The tile's reset domain is reset (R204, R247): its slots, jobs and packs that are not being placed are gone; their records
are destaged again. -/
def State.dropTileWork (s : State) (tile : Nat) : State :=
  let gone := s.dst.packs.keep fun _ p => p.tile == tile && p.st != .placing && p.st != .placed
  let jobs := s.dst.jobs.keep fun j x => x.txn.isNone && (x.tile == tile || gone.vals.any fun p => p.mems.any fun m => m.job == j)
  let s := jobs.vals.foldl (fun s x => x.seqs.foldl (fun s q => match s.jent x.side q with
    | some e => s.setJent x.side q { e with destaging := false }
    | none => s) s) s
  let s := (s.flushFp tile none).flushXts tile none
  { s with dst := { s.dst with jobs := s.dst.jobs.keep fun j _ => !jobs.has j, packs := s.dst.packs.keep fun k _ => !gone.has k,
                               awk := s.dst.awk.erase tile, running := s.dst.running.filter fun r => r.tile != tile,
                               flushFp := s.dst.flushFp.filter fun k => k / 4096 != tile,
                               flushXts := s.dst.flushXts.filter fun k => k / 65536 / 4096 != tile } }

/-- A read point from before a moment is in flight: of this head, or in TWIN of its partner (R287, R288). -/
def State.pointBefore (s : State) (t : Nat) : Bool :=
  s.ftl.points.vals.any (fun e => decide (e < t)) || (s.pair.head == .twin && decide (s.ftl.partnerPoint < t))

end Sys2Proof.Machine
end

