-- ==== Sys2Proof/Machine/ArrMeta.lean ====
section
/-! DEFINITION. Changes of array metadata that role commands make (R617, R618), as they take effect on each head once their log record
is durable (R297). -/

namespace Sys2Proof.Machine

open Sys2Proof

/-- ROLE_OPKEYS follows the table of operator digests (R621, R631). -/
def State.opkeyValid (s : State) : State :=
  s.setFld dieB Reg.ROLE_OPKEYS_VALID ((List.range 16).foldl (fun n k => n + (if s.boot.opkeys.has k then 2 ^ k else 0)) 0)

/-- Commit WGEN of a domain with REKEY = 1 on every tile; its open packs close where WGEN changes (R223, R224). -/
def State.rotateWgen (s : State) (domain gen : Nat) : State :=
  (List.range s.variant.tiles).foldl (fun s t =>
    let die := dieC t
    let k := tblKey die 0x34 0 domain 0
    let w := s.tbl die 0x34 0 domain 0
    let w := setBits w Reg.XTS_DOM_DATA_WGEN.lo Reg.XTS_DOM_DATA_WGEN.w gen
    let w := setBits w Reg.XTS_DOM_DATA_REKEY.lo 1 1
    let old := s.wgen t domain
    let s := ((s.setActive k w).setShadow k w).addFld die (tcGen 0x34) 1
    if old = gen then s
    else ((s.openPacks t).keep fun _ p => p.domain == domain).keys.foldl (fun s k => s.closePack k) s) s

/-- A layout with the values that a later one sets. -/
def Layout.merge (a b : Layout) : Layout :=
  { width := b.width.or a.width, target := b.target.or a.target, roster := b.roster.or a.roster, evac := b.evac.or a.evac }

/-- Both M-dies take a roster; FTL_CTRL.WIDTH, unless it is locked, a width (R331, R397). -/
def State.applyLayout (s : State) (l : Layout) : State :=
  let s := match l.roster with
    | some r => (List.range s.variant.sides).foldl (fun s m => s.setFld (dieM m) Reg.SFB_ROSTER_ROSTER r) s
    | none => s
  match l.width with
  | some w => if s.locked (dieM 0) 0x24 then s else s.setFld (dieM 0) Reg.FTL_CTRL_WIDTH w
  | none => s

/-- Complete a command that has waited for background work. -/
def State.finishTag (s : State) (tag : Option Nat) (st : Status) : State :=
  match tag.bind s.cmd with
  | some c => (s.finish c st 0).advance c.tag.num
  | none => s

/-- A change of array metadata takes effect on this head. -/
def State.applyMeta (s : State) : MetaChange → State
  | .opkey k (some d) =>
    ({ s with arr := { s.arr with opkeys := s.arr.opkeys.insert k d }, boot := { s.boot with opkeys := s.boot.opkeys.insert k d } } : State).opkeyValid
  | .opkey k none =>
    ({ s with arr := { s.arr with opkeys := s.arr.opkeys.erase k }, boot := { s.boot with opkeys := s.boot.opkeys.erase k } } : State).opkeyValid
  | .admins l => { s with arr := { s.arr with admins := l } }
  | .enrolled ser (some m) => { s with arr := { s.arr with modules := s.arr.modules.insert (ofLe ser) m } }
  | .enrolled ser none => { s with arr := { s.arr with modules := s.arr.modules.erase (ofLe ser) } }
  | .layout l => ({ s with arr := { s.arr with layout := s.arr.layout.merge l } } : State).applyLayout l
  -- R82 goes on applying to every listed loss
  | .clearDeferred => { s with arr := { s.arr with deferred := [] } }
  | .epochInit =>
    if s.epoch = 0xFFFFFFFF then (s.setFld (dieF 0) Reg.TKO_EPOCH_EPOCH 1).setFld (dieF 0) Reg.TKO_EPOCH_HOLDERS 3 else s
  | .attach nsid l => s.setAttached nsid l true
  | .detach d =>
    let s := s.setAttached d.nsid d.ctrls false
    { s with arr := { s.arr with detaches := s.arr.detaches ++ [d] } }
  | .detached d =>
    let s := d.ctrls.foldl (fun s k => s.noteChanged d.nsid k) s
    { s with arr := { s.arr with detaches := s.arr.detaches.filter (· != d) } }
  | .sanEnd failed => match s.arr.sanitize with
    | some x =>
      let s := { s with arr := { s.arr with sanitize := none, sanFailed := failed }, host := { s.host with sanDone := !failed } }
      (s.asyncAll 6 1 0x81).finishTag x.tag (if failed then ⟨0, 0x1C⟩ else stOk)
    | none => s
  | .sanExit => { s with arr := { s.arr with sanFailed := false } }
  | .losses run gen es lbas keys =>
    if run ≤ s.arr.lossRuns then s
    else
      let a := s.arr
      let s := { s with arr := { a with lossRuns := run, defGen := gen, deferred := es,
                                        markedLbas := lbas.foldl (fun (m : SMap Mark) x => m.insert x.1 x.2) a.markedLbas,
                                        markedKeys := (a.markedKeys.filter fun x => !keys.any fun y => y.1 == x.1) ++ keys } }
      if gen = a.defGen then s else s.asyncAll 7 0xC0 0xC0
  | .domKey d [] _ _ =>
    -- the domain's keys are destroyed on this head as well (R184, R185, R226)
    let s := s.dropDomainKeys d
    { s with arr := { s.arr with domKeys := s.arr.domKeys.erase d, doms := s.arr.doms.insert d { s.dom d with gens := [] } } }
  | .domKey d w gens rotate =>
    let r := { s.dom d with gens := gens, nextGen := gens.foldl (fun n g => max n (g + 1)) (s.dom d).nextGen }
    let s := { s with arr := { s.arr with domKeys := s.arr.domKeys.insert d w, doms := s.arr.doms.insert d r } }
    if rotate then s.rotateWgen d (gens.getLastD 0) else s

/-- Carriers' EPOCH_INIT frames, which the head that acts on the installer's command sends (R137, R334). -/
def State.sendEpochInit (s : State) : State := s.tell .epochInit s.roster

/-- A change that takes effect on the head that makes it when it logs it. -/
def MetaChange.early : MetaChange → Bool
  | .attach _ _ | .detach _ | .detached _ | .sanEnd _ | .sanExit | .losses _ _ _ _ _ | .domKey _ [] _ _ => true
  | _ => false

/-- Make such a change: here now, and on the partner once its record is durable. -/
def State.changeNow (s : State) (c : MetaChange) : State := (s.log (.change c)).applyMeta c

/-- The array metadata that the log's records of namespaces, domains and shards do not hold, as changes that make it anew: for a new log
(R253). -/
def ArrayMeta.changes (a : ArrayMeta) : List MetaChange :=
  (a.opkeys.map fun x => .opkey x.1 (some x.2)) ++ [.admins a.admins, .layout a.layout] ++
    (a.modules.map fun x => .enrolled (le 16 x.1) (some x.2)) ++
    (a.domKeys.map fun x => .domKey x.1 x.2 ((a.doms.find? x.1).map DomRec.gens |>.getD []) false) ++ a.detaches.map .detach

/-- A change's record is durable: it takes effect. -/
def State.metaDurable (s : State) (c : MetaChange) : State :=
  let s := if c = .epochInit ∧ s.epoch = 0xFFFFFFFF then s.sendEpochInit else s
  if c.early then s else s.applyMeta c

end Sys2Proof.Machine
end

