-- ==== Sys2Proof/Machine/MapCache.lean ====
section
/-! DEFINITION. The map cache (R263 to R274): places of pages, ways, lookup lanes, fills, the range engine. -/

namespace Sys2Proof.Machine

open Sys2Proof

/-! ## Places (R263, R264) -/

def State.c0Lanes (s : State) (die : Nat) : Nat := min 8 (s.fld (dieM die) Reg.MAP_CTRL_C0_LANES)

/-- Lane of a lookup of classes 1 to 7. -/
def State.mapLane (s : State) (pid : Nat) : Nat :=
  let c := s.c0Lanes (s.mapDie pid)
  c + mapHash pid % 16 % (16 - c)

def State.line (s : State) (pid : Nat) : Option Line := s.ftl.lines.find? pid

def State.setLine (s : State) (pid : Nat) (l : Line) : State :=
  { s with ftl := { s.ftl with lines := s.ftl.lines.insert pid l } }

/-- A line's state word (R264). -/
def Line.word (l : Line) : BitVec 64 :=
  let bit := fun (b : Bool) (n : Nat) => if b then 2 ^ n else 0
  BitVec.ofNat 64 (bit l.v 0 + bit l.d 1 + bit l.r 2 + bit l.p 3 + bit l.rp 4 + bit l.b 5 + bit l.pf 6 + l.age % 16 * 2 ^ 8 + l.dlsn % 2 ^ 48 * 2 ^ 16)

/-- The set record of an M-die: 16 tags, then 16 state words (R264); its place in the area of MAP_BASE is not the manual's (log entry
203). -/
def State.setRecord (s : State) (die set : Nat) : Bytes :=
  let l := s.ftl.lines.keep fun k _ => s.mapDie k == die && s.mapSet k == set
  let at_ := fun (w : Nat) => List.find? (fun kl : Nat × Line => kl.2.way == w) l
  ((List.range 16).flatMap fun w => le 8 (((at_ w).map Prod.fst).getD 0)) ++
    (List.range 16).flatMap fun w => le 8 (((at_ w).map fun kl => kl.2.word.toNat).getD 0)

/-! ## Ways (R268, R269) -/

/-- Drop a line; a prefetched one that nothing hit is counted (R266); a leaf leaves the ordered index (R513). -/
def State.dropLine (s : State) (pid : Nat) : State :=
  let s := if pKind pid = 2 then s.ordDrop (pOwner pid + 1) pid else s
  let s := match s.line pid with
    | some l => if l.pf then s.addFld (dieM (s.mapDie pid)) Reg.MAP_PF_UNUSED 1 else s
    | none => s
  { s with ftl := { s.ftl with lines := s.ftl.lines.erase pid } }

/-- The line with the oldest AGE, the lowest page where several are. -/
def oldest (l : SMap Line) : Option Nat :=
  (l.foldl (fun (b : Option (Nat × Nat)) kv => match b with
    | some x => if x.2 < kv.2.age then some (kv.1, kv.2.age) else b
    | none => some (kv.1, kv.2.age)) none).map Prod.fst

/-- Pages that the first of the waiting changes needs: they keep their ways until it is applied. -/
def State.headPages (s : State) : List Nat :=
  match s.ftl.todo with
  | c :: _ => s.changePages c
  | [] => []

/-- Lines of a page's set that may give up their way (R268). -/
def State.victims (s : State) (pid : Nat) : SMap Line :=
  let keep := s.headPages
  (s.setMates pid).keep fun k l => !(l.p || l.rp || l.r || l.b || keep.contains k)

/-- A way for a page: the state with one free in its set, and the way, if there is one. A dirty victim is written first (R268). -/
def State.takeWay (s : State) (pid : Nat) : State × Option Nat :=
  let mates := s.setMates pid
  match (List.range 16).find? fun w => mates.vals.all fun l => l.way != w with
  | some w => (s, some w)
  | none =>
    let l := s.victims pid
    match oldest (l.keep fun _ l => !l.d) with
    | some k => (s.dropLine k, some (l.getD k Line.fresh).way)
    | none => match oldest l with
      | some k => (if (l.getD k Line.fresh).writing.isSome then s else s.writePage k, none)
      | none => (s, none)

/-- Make a line the newest of its set. -/
def State.touch (s : State) (pid : Nat) : State :=
  match s.line pid with
  | none => s
  | some l =>
    let mates := s.setMates pid
    let s := mates.keys.foldl (fun s k => match s.line k with
      | some m => if k ≠ pid ∧ m.age ≤ l.age then s.setLine k { m with age := min 15 (m.age + 1) } else s
      | none => s) s
    s.setLine pid { l with age := 0 }

/-- Enter a line for a page that is not in the cache: filled from flash where the directory has it, at once as R252 states where it
does not. -/
def State.enterLine (s : State) (pid cls : Nat) (f : Line → Line) : State × Bool :=
  match s.takeWay pid with
  | (s, none) => (s, false)
  | (s, some w) =>
    let l := f { Line.fresh with way := w, v := !s.ftl.dir.has pid, b := s.ftl.dir.has pid, age := 15 }
    let s := s.setLine pid l
    match s.ftl.dir.find? pid with
    | none => (s, true)
    | some d =>
      let s := { s with ftl := { s.ftl with fills := s.ftl.fills.insert pid { cls := cls, again := false, got := none } } }
      match s.locate d.maddr with
      | some (sd, k, pos) => (s.requestCw (sd.cwAddr k (pos / 65536) (pos % 65536 / 4096)) sd.segid cls (.page pid), true)
      | none => ({ s with ftl := { s.ftl with fills := s.ftl.fills.insert pid { cls := cls, again := true, got := some none } } }, true)

/-- The line of a waiting fill with what another request adds to it. -/
def WayWait.join (a b : WayWait) : WayWait :=
  { a with line := { a.line with p := a.line.p || b.line.p, rp := a.line.rp || b.line.rp, pf := a.line.pf && b.line.pf,
                                 age := min a.line.age b.line.age },
           miss := a.miss || b.miss, cls := min a.cls b.cls }

/-- A fill waits for a way in its set (R268). -/
def State.awaitWay (s : State) (w : WayWait) : State :=
  if s.ftl.waits.any fun x => x.page == w.page then
    { s with ftl := { s.ftl with waits := s.ftl.waits.map fun x => if x.page = w.page then x.join w else x } }
  else { s with ftl := { s.ftl with waits := s.ftl.waits ++ [w] } }

/-- A fill that is asked for: it is entered, or waits for a way; where no way qualifies it is counted when the wait begins (R268). -/
def State.firstEnter (s : State) (pid cls : Nat) (miss : Bool) (f : Line → Line) : State × Bool :=
  let w : WayWait := { page := pid, cls := cls, line := f { Line.fresh with age := 15 }, miss := miss }
  if s.ftl.waits.any fun x => x.page == pid then (s.awaitWay w, false)
  else
    let stuck := ((List.range 16).all fun w => (s.setMates pid).vals.any fun l => l.way == w) && (s.victims pid).isEmpty
    let s := if stuck then s.addFld (dieM (s.mapDie pid)) Reg.MAP_NOWAY_COUNT 1 else s
    match s.enterLine pid cls f with
    | (s, true) => (s, true)
    | (s, false) => (s.awaitWay w, false)

/-! ## Lookups (R265, R266) -/

/-- Bytes of an entry of a page. -/
def State.entryBytes (s : State) (pid entry : Nat) : Bytes :=
  let b := (s.page pid).body.bytes (s.pageDomain pid)
  let cut := fun (base size : Nat) => (b.drop (base + size * entry)).take size
  match pKind pid with
  | 1 | 4 => cut 0 8
  | 2 => cut 64 64
  | 3 => cut 64 32
  | 5 => cut 0 32
  | _ => cut 64 48

def State.answerLook (s : State) (l : Look) (ok : Bool) : State :=
  s.emit (.mapAnswer l.tag l.pageid l.entry (if ok then some (s.entryBytes l.pageid l.entry) else none))

/-- A page is resident or in flight, or its fill waits for a way. -/
def State.inCache (s : State) (pid : Nat) : Bool := s.ftl.lines.has pid || s.ftl.waits.any fun w => w.page == pid

/-- Prefetch the page after a missed one (R266). -/
def State.prefetch (s : State) (pid cls : Nat) : State :=
  let die := s.mapDie pid
  let d := dieM die
  let next := pid + 1
  let out := (s.ftl.lines.keep fun k l => l.b && l.pf && s.mapDie k == die).length +
    (s.ftl.waits.filter fun w => w.line.pf && s.mapDie w.page == die).length
  if (pKind pid == 1 || pKind pid == 4 || pKind pid == 5) && s.flag d Reg.MAP_CTRL_PF_EN && s.ftl.dir.has next &&
      !s.inCache next && decide (out < s.fld d Reg.MAP_CTRL_PF_MAX) then
    (s.firstEnter next cls false fun l => { l with pf := true }).1.addFld d Reg.MAP_PF_ISSUED 1
  else s

/-- Serve one lookup of a lane that nothing of the lane stands before (R265). -/
def State.serveLook (s : State) (l : Look) : State :=
  let d := dieM l.die
  let add := fun (s : State) (l : Look) => { s with ftl := { s.ftl with looks := s.ftl.looks ++ [l] } }
  match s.line l.pageid with
  | some x =>
    if x.v then
      let s := (s.addFld d Reg.MAP_LOOKUP_HITS 1).touch l.pageid
      let s := match s.line l.pageid with
        | some x => s.setLine l.pageid { x with pf := false }
        | none => s
      s.answerLook l true
    else add s { l with miss := false, behind := false }
  | none =>
    if s.ftl.looks.any fun x => x.miss && x.die == l.die && x.lane == l.lane then add s { l with behind := true }
    else
      let s := s.addFld d Reg.MAP_LOOKUP_MISSES 1
      match s.firstEnter l.pageid l.cls true fun x => { x with age := 0 } with
      | (s, true) =>
        let s := s.touch l.pageid
        if (s.line l.pageid).any Line.v then (s.answerLook l true).prefetch l.pageid l.cls
        else (add s { l with miss := true, behind := false }).prefetch l.pageid l.cls
      | (s, false) => add s { l with miss := true, behind := false }

/-- A lookup arrives at its lane. -/
def State.lookup (s : State) (l : Look) : State :=
  if s.ftl.looks.any fun x => x.behind && x.die == l.die && x.lane == l.lane then
    { s with ftl := { s.ftl with looks := s.ftl.looks ++ [{ l with behind := true }] } }
  else s.serveLook l

/-- A lane's miss slot is free: what waits behind goes on, in order. -/
def State.freeLane (s : State) (die lane : Nat) : State :=
  let mine := fun (x : Look) => x.behind && x.die == die && x.lane == lane
  let l := s.ftl.looks.filter mine
  let s := { s with ftl := { s.ftl with looks := s.ftl.looks.filter fun x => !mine x } }
  l.foldl (fun s x => s.lookup { x with behind := false }) s

/-- The lookups of a page are answered, or fail with it. -/
def State.endLooks (s : State) (pid : Nat) (ok : Bool) : State :=
  let mine := fun (x : Look) => !x.behind && x.pageid == pid
  let l := s.ftl.looks.filter mine
  let s := { s with ftl := { s.ftl with looks := s.ftl.looks.filter fun x => !mine x } }
  let s := l.foldl (fun s x => s.answerLook x ok) s
  (l.filter Look.miss).foldl (fun s x => s.freeLane x.die x.lane) s

/-! ## The range engine (R273, R274) -/

/-- A line may be dropped. -/
def Line.droppable (l : Line) : Bool := l.v && !(l.d || l.p || l.rp || l.r || l.b)

def State.setRange (s : State) (die : Nat) (r : RangeOp) : State :=
  { s with ftl := { s.ftl with range := s.ftl.range.insert die r } }

/-- A fill of a page that a range operation waits for has ended (R274). -/
def State.rangeFill (s : State) (die pid : Nat) (acted : Bool) (err : Nat) : State :=
  match s.ftl.range.find? die with
  | some r => if r.todo.contains pid then
      s.setRange die { r with todo := r.todo.filter (· != pid), lines := r.lines + (if acted then 1 else 0), err := if err = 0 then r.err else err }
    else s
  | none => s

/-- A page of a range operation is done with: a line acted upon where `acted`. -/
def State.rangeStep (s : State) (die pid : Nat) (acted : Bool) (err : Nat) : State :=
  match s.ftl.range.find? die with
  | some r => s.setRange die { r with todo := r.todo.filter (· != pid), lines := r.lines + (if acted then 1 else 0),
                                      err := if err = 0 then r.err else err }
  | none => s

/-- Lines of an M-die within a range. -/
def State.rangeLines (s : State) (die lo hi : Nat) : SMap Line :=
  s.ftl.lines.keep fun k _ => s.mapDie k == die && decide (lo ≤ k) && decide (k ≤ hi)

/-- Pinned lines in the set of a page, those that wait for a way among them. -/
def State.pinnedWays (s : State) (pid : Nat) : Nat :=
  ((s.setMates pid).filter fun kv => kv.2.p || kv.2.rp).length +
    (s.ftl.waits.filter fun w => (w.line.p || w.line.rp) && w.page != pid && s.mapDie w.page == s.mapDie pid && s.mapSet w.page == s.mapSet pid).length

/-- Pages of KIND 0x1 of the namespaces within a range, rising. -/
def State.blockPages (s : State) (lo hi : Nat) : List Nat :=
  s.arr.nss.flatMap fun kv =>
    if kv.2.kv then []
    else
      let base := pageId 1 (kv.1 - 1) 0
      let n := (kv.2.blocks + 511) / 512
      let a := lo - base
      let b := min n (hi + 1 - base)
      (List.range (b - a)).map fun i => base + a + i

/-- LOAD_PIN stops at the pin limit: what it has asked for before is still awaited, the pages from here on are not (R273). -/
def State.stopPin (s : State) (die : Nat) (rest : List Nat) : State :=
  match s.ftl.range.find? die with
  | some r => s.setRange die { r with err := 1, todo := r.todo.filter fun p => !rest.contains p }
  | none => s

/-- Pin the pages of LOAD_PIN one after another; the pin limit stops it (R273). -/
def State.loadPin (s : State) (die : Nat) : List Nat → State
  | [] => s
  | pid :: rest =>
    let full := decide (min 0xE (s.fld (dieM die) Reg.MAP_CTRL_PIN_WAYS) ≤ s.pinnedWays pid)
    match s.line pid with
    | some l =>
      if full && !(l.p || l.rp) then s.stopPin die (pid :: rest)
      else
        let s := s.setLine pid { l with p := true }
        (if l.v then s.rangeStep die pid true 0 else s).loadPin die rest
    | none =>
      if full then s.stopPin die (pid :: rest)
      else
        let s := (s.firstEnter pid 7 false fun l => { l with p := true, age := 0 }).1
        (if (s.line pid).any Line.v then s.rangeStep die pid true 0 else s).loadPin die rest

/-- Chunk-table pages that pinned lines refer to. -/
def State.pinnedChunkPages (s : State) : List Nat :=
  ((s.ftl.lines.keep fun _ l => l.p && l.v).keys.flatMap fun k => (s.page k).body.refs.map chunkPage).eraseDups

/-- Begin a range operation on an M-die over a range of page identifiers (R273, R274). -/
def State.startRangeOn (s : State) (die op lo hi : Nat) : State :=
  let d := dieM die
  if !s.variant.populated d || !s.mapOn die then s
  else if s.flag d Reg.MAP_RANGE_STATUS_BUSY then s.setFlag d Reg.MAP_RANGE_STATUS_LOST true
  else
    let ls := s.rangeLines die lo hi
    let s := s.setFlag d Reg.MAP_RANGE_STATUS_BUSY true
    let s := s.setRange die { op := op, lo := lo, hi := hi, todo := [], lines := 0, err := 0 }
    let setTodo := fun (s : State) (l : List Nat) => s.setRange die { op := op, lo := lo, hi := hi, todo := l, lines := 0, err := 0 }
    let dirty := (ls.keep fun _ l => l.d).keys
    let drop := fun (s : State) (ks : List Nat) => ks.foldl (fun s k => match s.line k with
      | some l => if l.droppable then (s.dropLine k).rangeStep die k true 0 else s.rangeStep die k false 3
      | none => s.rangeStep die k false 0) s
    match op with
    | 1 => dirty.foldl (fun s k => if (s.line k).any (fun l => l.writing.isNone) then s.writePage k else s) (setTodo s dirty)
    | 2 => drop s ls.keys
    | 3 =>
      let s := dirty.foldl (fun s k => if (s.line k).any (fun l => l.writing.isNone) then s.writePage k else s) (setTodo s dirty)
      drop s (ls.keep fun _ l => !l.d).keys
    | 4 =>
      let l := (s.blockPages lo hi).filter fun p => s.mapDie p == die
      (setTodo s l).loadPin die l
    | 5 => ls.keys.foldl (fun s k => match s.line k with
        | some l => if l.p then (s.setLine k { l with p := false }).rangeStep die k true 0 else s
        | none => s) s
    | 6 =>
      let s := { s with ftl := { s.ftl with lines := s.ftl.lines.mapV fun k l => if s.mapDie k = die then { l with rp := false } else l } }
      let l := s.pinnedChunkPages.filter fun p => s.mapDie p == die
      l.foldl (fun s p => match s.line p with
        | some x =>
          let s := s.setLine p { x with rp := true }
          if x.v then s.rangeStep die p true 0 else s
        | none => match s.firstEnter p 7 false fun x => { x with rp := true, age := 0 } with
          | (s, true) => if (s.line p).any Line.v then s.rangeStep die p true 0 else s
          | (s, false) => s) (setTodo s l)
    | _ => s

/-- Begin a range operation by a write of MAP_RANGE_CMD: the range is that of MAP_RANGE_LO and MAP_RANGE_HI. -/
def State.startRange (s : State) (die op : Nat) : State :=
  s.startRangeOn die op (s.fld (dieM die) Reg.MAP_RANGE_LO_PAGEID) (s.fld (dieM die) Reg.MAP_RANGE_HI_PAGEID)

/-- What the range engine and the fills wait for is tried again: pages to be written, ways. A miss that gets its way is followed by the
prefetch of R266. -/
def State.mapRetry (s : State) : State :=
  let s := s.ftl.range.foldl (fun s (kr : Nat × RangeOp) =>
    kr.2.todo.foldl (fun s p => match s.line p with
      | some l => if l.d && l.writing.isNone && (kr.2.op == 1 || kr.2.op == 3) then s.writePage p else s
      | none => if s.inCache p then s else s.rangeStep kr.1 p false 0) s) s
  s.ftl.waits.foldl (fun s w =>
    match s.enterLine w.page w.cls fun l => { w.line with way := l.way, v := l.v, b := l.b } with
    | (s, true) =>
      let s := { s with ftl := { s.ftl with waits := s.ftl.waits.filter fun x => x.page != w.page } }
      let s := if (s.line w.page).any Line.v then (s.rangeFill (s.mapDie w.page) w.page true 0).endLooks w.page true else s
      if w.miss then s.prefetch w.page w.cls else s
    | (s, false) => s) s

/-! ## Fills and writes -/

/-- A page is unreadable (R308): its lookups fail, exception and event. -/
def State.pageFailed (s : State) (pid : Nat) : State :=
  let die := s.mapDie pid
  let s := { s with ftl := { s.ftl with badPages := if s.ftl.badPages.contains pid then s.ftl.badPages else s.ftl.badPages ++ [pid],
                                        lines := s.ftl.lines.erase pid, fills := s.ftl.fills.erase pid } }
  let s := ((s.exc 0 .pageCrc [pid]).event (dieM die) 0x23 1 noInst).rangeFill die pid false 2
  s.endLooks pid false

/-- A fill is complete (R267): the codeword against the directory's CRC; recovered once where it differs, at the class of the fill (log
entry 202). -/
def State.fillDone (s : State) (pid : Nat) : State :=
  match s.ftl.fills.find? pid, s.ftl.dir.find? pid with
  | some { cls := cls, again := again, got := some got }, some d =>
    let good := match got with
      | some b => (crc32c (padTo 4096 b)).toNat == d.crc
      | none => false
    if good then
      let s := { s with ftl := { s.ftl with fills := s.ftl.fills.erase pid, badPages := s.ftl.badPages.filter (· != pid) } }
      let waited := s.ftl.looks.any fun x => !x.behind && x.pageid == pid
      let s := match s.line pid with
        | some l => s.setLine pid { l with v := true, b := false, pf := l.pf && !waited }
        | none => s
      (s.rangeFill (s.mapDie pid) pid true 0).endLooks pid true
    else if got.isSome && !again then
      let s := { s with ftl := { s.ftl with fills := s.ftl.fills.insert pid { cls := cls, again := true, got := none } } }
      match s.locate d.maddr with
      | some (sd, k, pos) =>
        let (s, id) := s.newCw (sd.cwAddr k (pos / 65536) (pos % 65536 / 4096)) sd.segid cls (.page pid)
        s.startAround id
      | none => s.pageFailed pid
    else s.pageFailed pid
  | _, _ => s

/-- A line's write is complete (R269): it becomes clean unless a change came during the write. -/
def State.writebackDone (s : State) (pid : Nat) : State :=
  match s.line pid, s.ftl.dir.find? pid with
  | some l, some d =>
    if l.writing ≠ some d.maddr then s
    else
      let l' := match l.changed with
        | some lsn => { l with writing := none, changed := none, dlsn := lsn }
        | none => { l with writing := none, d := false, dlsn := 0 }
      let s := s.setLine pid l'
      let die := s.mapDie pid
      match s.ftl.range.find? die with
      | some r =>
        if !r.todo.contains pid then s
        else if r.op = 3 then
          if l'.droppable then (s.dropLine pid).rangeStep die pid true 0 else s.rangeStep die pid true 3
        else s.rangeStep die pid true 0
      | none => s
  | _, _ => s

end Sys2Proof.Machine
end

