-- ==== Sys2Proof/Machine/Packs.lean ====
section
/-! DEFINITION. What becomes of a pack that has been read: delivery to its users, recovery of a malformed one, loss (R191, R216,
R246). -/

namespace Sys2Proof.Machine

open Sys2Proof

/-- Forget a read of a pack. -/
def State.dropRd (s : State) (rd : Nat) : State := { s with med := { s.med with rds := s.med.rds.erase rd } }

/-! ## Copies of packs (R246, R284, R287) -/

def State.setScan (s : State) (seg : Nat) (x : Scan) : State :=
  { s with ftl := { s.ftl with scans := s.ftl.scans.insert seg x } }

/-- A pack is live at an address (R284). -/
def State.livePack (s : State) (chunk a : Nat) : Bool :=
  (List.range 8).any fun i =>
    let e := s.chunk (chunk + i)
    e.pack == a && e.member == i && e.state != 3 && e.state != 0

/-- A pack waits, where it is, to be copied. -/
def State.waitCopy (s : State) (seg chunk a : Nat) : State :=
  match s.ftl.scans.find? seg with
  | some x => if x.stuck.contains (chunk, a) then s else s.setScan seg { x with stuck := x.stuck ++ [(chunk, a)] }
  | none => s

/-- A pack that cannot be copied stays where it is, reported (R287). -/
def State.stickPack (s : State) (seg chunk a : Nat) : State :=
  ((s.waitCopy seg chunk a).addFld (dieM 0) Reg.FTL_GC_STUCK 1).exc 0 .stuckPack [chunk, a]

/-- A pack that is malformed after full recovery as well: its copy is abandoned (R246). -/
def State.abandonCopy (s : State) (seg chunk a : Nat) : State :=
  (s.stickPack seg chunk a).exc (seg % s.variant.tiles) .copyAbandoned [chunk, a]

/-- A pack that a copy finds malformed is treated as an unreadable codeword (R246): each of its codewords is recovered, once. With row 0 it
is whole, but must be read by itself. -/
def State.copyAgain (s : State) (seg chunk a size cls row : Nat) : State :=
  let tile := seg % s.variant.tiles
  let id := s.med.nextId
  let w := cwSpan a (max 32 (min size 65600))
  let r : PackRd := { maddr := a, domain := refDomain chunk, chunk := chunk, cls := cls, tile := tile, cws := [], want := w, env := none,
                      plain := none, again := row != 0, users := [.copy seg] }
  let s := s.waitCopy seg chunk a
  let s := if row = 0 then s else s.event (dieC tile) 0x33 row noInst
  let s := { s with med := { s.med with nextId := id + 1, rds := s.med.rds.insert id r } }
  s.askPack id r 0 w

/-- Copy a live pack (R284): whole, re-encrypted under WGEN where its domain asks for it (R224). -/
def State.copyPack (s : State) (seg : Nat) (e : Env) (a : Nat) (bytes : Bytes) (again : Bool) : State :=
  match s.ftl.scans.find? seg with
  | none => s
  | some x =>
  let dom := refDomain e.chunk
  let tile := seg % s.variant.tiles
  let rekey := s.tblFlag (dieC tile) 0 dom 0 Reg.XTS_DOM_DATA_REKEY && s.wgen tile dom != e.gen
  let id := s.dst.nextPack
  let p : Pack := { tile := tile, domain := dom, cls := x.cls, kv := e.kv, mems := [], st := if rekey then .closed else .encrypted,
                    addedAt := s.ao.tb, chunk := e.chunk, gen := e.gen, stream := [], stored := false, env := bytes, maddr := 0,
                    copyOf := some (a, e.gen), reserved := x.purpose != 0, logged := false, again := again }
  let s := { s with dst := { s.dst with nextPack := id + 1 } }
  let s := (s.setPack id p).setScan seg { x with copies := x.copies ++ [(id, a)], stuck := x.stuck.filter fun ca => ca.2 != a }
  s.placePack id

/-- A pack that a copy has had recovered is whole: it is copied, or abandoned if it is malformed still. -/
def State.copyReads (s : State) (rd : Nat) : State :=
  match s.med.rds.find? rd with
  | none => s
  | some r => match r.env with
    | none => s
    | some b =>
      let segs := r.users.filterMap fun u => match u with
        | .copy seg => some seg
        | _ => none
      if segs.isEmpty then s
      else
        let rest := r.users.filter fun u => !segs.any fun seg => u == .copy seg
        let s := if rest.isEmpty then s.dropRd rd else { s with med := { s.med with rds := s.med.rds.insert rd { r with users := rest } } }
        segs.foldl (fun s seg => match envOf b with
          | some e => if e.chunk = r.chunk then s.copyPack seg e r.maddr b true else s.abandonCopy seg r.chunk r.maddr
          | none => s.abandonCopy seg r.chunk r.maddr) s

/-- Put one piece of a read in place (R211: member `m` of a pack), or lose it, and go on with its command. -/
def State.givePiece (s : State) (tag n : Nat) (b : Option Bytes) : State :=
  match s.cmd tag with
  | none => s
  | some c => match c.pieces with
    | none => s
    | some ps =>
      let put := fun (p : Piece) => match p, b with
        | .chunk _ _ len, some x => Piece.bytes (padTo len (x.take len))
        | .chunk _ _ len, none => Piece.lost len
        | q, _ => q
      let ps := ((List.range ps.length).zip ps).map fun ip => if ip.1 = n then put ip.2 else ip.2
      (s.setCmd { c with pieces := some ps }).advance tag

/-- The byte compare of a candidate ends (R191): a full match confirms it; else the chunk is new. -/
def State.compareDone (s : State) (j n : Nat) (b : Option Bytes) : State :=
  match s.job j with
  | none => s
  | some x => match x.chunkAt n with
    | some { bytes := own, st := .comparing fp ref } =>
      if b = some own then s.confirmChunk j n x fp ref
      else
        let s := s.addFld (dieC x.tile) Reg.FPL_MISC_UNCONFIRMED 1
        let s := if b.isSome then (s.addFld (dieC x.tile) Reg.FPL_MISC_COLLIDE 1).event (dieC x.tile) 0x31 0 noInst else s
        s.freshChunk j n x fp
    | _ => s

/-- Give a user its member, or its loss. -/
def State.giveUser (s : State) (r : PackRd) (u : RdUser) (get : Nat → Option Bytes) : State :=
  match u with
  | .read tag n m => s.givePiece tag n (get m)
  | .compare j n m => s.compareDone j n (get m)
  | .repl k i m => s.replPart k i (get m)
  -- its codewords are lost
  | .copy seg => s.stickPack seg r.chunk r.maddr
  | .refp ref m => s.refpPart ref (get m)

/-- A pack's users get their members. -/
def State.packServe (s : State) (rd : Nat) (get : Nat → Option Bytes) : State :=
  match s.med.rds.find? rd with
  | none => s
  | some r => r.users.foldl (fun s u => s.giveUser r u get) (s.dropRd rd)

/-- A pack cannot be read. -/
def State.packLost (s : State) (rd : Nat) : State := s.packServe rd fun _ => none

/-- Members of a plaintext. -/
def memberOf (e : Env) (plain : Bytes) (m : Nat) : Option Bytes :=
  if m < e.members then some ((plain.drop (m * e.size)).take e.size) else none

/-- A malformed pack (R246, the row of whose table is given): treated as an unreadable codeword, each of its codewords is recovered from the other members of its
stripe, once; malformed again, it is lost. -/
def State.packBad (s : State) (rd row : Nat) : State :=
  match s.med.rds.find? rd with
  | none => s
  | some r =>
    let s := s.event (dieC r.tile) 0x33 row noInst
    if r.again then s.packLost rd
    else
      let r' := { r with cws := [], env := none, plain := none, again := true }
      let s := { s with med := { s.med with rds := s.med.rds.insert rd r' } }
      (List.range r.want).foldl (fun s i => match s.packCw r.maddr i with
        | some (a, seg) =>
          let (s, id) := s.newCw a seg r.cls (.pack rd i)
          s.startAround id
        | none => s) s

/-- The keys of a domain's record on a tile lack a generation: packs that name it are malformed (R225, R246). -/
def State.genAbsent (s : State) (tile domain gen : Nat) : State :=
  (s.med.rds.keep fun _ r => s.laneTile .dec r.tile == some tile && r.domain == domain && r.plain.isNone &&
    (match r.env.bind envOf with
      | some e => e.gen == gen
      | none => false)).keys.foldl (fun s rd => (s.addFld (dieC tile) Reg.DCP_ERR_FORMAT 1).packBad rd 2) s

/-- The same of copies that wait for their decryption under the generation (R224, R225, R246). -/
def State.genAbsentCopies (s : State) (tile domain gen : Nat) : State :=
  let l := s.dst.packs.keep fun _ p => s.laneTile .dec p.tile == some tile && p.domain == domain && p.st == .closed && p.copyOf.isSome && p.gen == gen
  l.foldl (fun s kp =>
    let a := (kp.2.copyOf.map Prod.fst).getD 0
    let s := { (s.addFld (dieC tile) Reg.DCP_ERR_FORMAT 1) with dst := { s.dst with packs := s.dst.packs.erase kp.1 } }
    match List.find? (fun kx : Nat × Scan => kx.2.copies.any fun c => c.1 == kp.1) s.ftl.scans with
    | some (seg, x) =>
      let s := s.setScan seg { x with copies := x.copies.filter fun c => c.1 != kp.1 }
      if kp.2.again then s.abandonCopy seg kp.2.chunk a else s.copyAgain seg kp.2.chunk a kp.2.env.length kp.2.cls 2
    | none => s) s

end Sys2Proof.Machine
end

