-- ==== Sys2Proof/Machine/Sj.lean ====
section
/-! DEFINITION. The stripe journal (R391 to R394). -/

namespace Sys2Proof.Machine

open Sys2Proof

/-- The 64 bytes of an entry (R392). -/
def SjEnt.bytes (e : SjEnt) : Bytes :=
  let b := le 2 0x5345 ++ le 1 e.kind ++ le 1 e.member ++ le 4 e.seg ++ le 4 e.dest ++ le 2 e.stripe ++ zeros 2 ++ le 8 e.target ++ le 8 e.time
  padTo 60 b ++ le 4 (crc32c (padTo 60 b)).toNat

/-- The bytes of a page (R391). -/
def sjPage (side n : Nat) (l : List SjEnt) : Bytes :=
  let body := padTo (65536 - 64) (l.flatMap SjEnt.bytes)
  let h := padTo 60 (le 2 0x534A ++ le 1 side ++ [0] ++ le 8 n)
  h ++ le 4 (crc32c (h ++ body)).toNat ++ body

/-- Register view of the copies (R410). -/
def State.sjRegs (s : State) : State :=
  let s := s.setFld (dieM 0) Reg.PAR_SJ_CARRIER_A ((s.par.sjA.map mCp).getD 0)
  s.setFld (dieM 0) Reg.PAR_SJ_CARRIER_B ((s.par.sjB.map mCp).getD 0)

/-- Carriers that hold a segment being rebuilt. -/
def State.rebuildCps (s : State) : List Nat :=
  match s.par.cur.bind fun r => s.ftl.segs.find? r.seg with
  | some d => d.members.map Member.carrier
  | none => []

/-- RESTATE entries: the progress of each rebuild and reshape (R392, R394). -/
def State.restate (s : State) : List SjEnt :=
  let ent := fun (seg stripe : Nat) => ({ kind := 5, member := 0, seg := seg, dest := 0, stripe := stripe, target := 0, time := s.ao.tb } : SjEnt)
  ((s.par.cur.map fun r => ent r.seg r.stripe).toList) ++ (s.par.reshape.map fun r => ent (r.source.getD r.bseg) r.bstripe).toList

/-- What a full pair of blocks hands to the next one: the newest entries of each rebuild and reshape in progress (log entry 223). -/
def State.sjCarry (s : State) : List SjEnt :=
  let last := fun (p : SjEnt → Bool) => ((s.par.sjDone.filter p).getLast?).toList
  (match s.par.cur with
    | some r => r.repl.keys.flatMap fun m => last fun e => e.kind == 1 && e.seg == r.seg && e.member == m
    | none => []) ++
  (if s.par.reshape.isSome then last fun e => e.kind == 2 || e.kind == 3 else [])

/-- Program page `n` with entries on a copy. -/
def State.sjSend (s : State) (n c : Nat) (b : Option Nat) (l : List SjEnt) : State :=
  match b with
  | none => s
  | some b =>
    let a := b + (n - s.par.sjAt) * 2 ^ 22
    s.issue { cp := mCp b, req := .program a true false (s.pageCws a 0 1 (sjPage s.side n l)), cls := 1, why := .sj n c, since := s.ao.tb }

/-- Open both copies on two carriers, logged; full ones hand on what they hold of work in progress, and are erased. -/
def State.sjOpen (s : State) : State :=
  match s.pickBlocks false 2 [] with
  | [a, b] =>
    let old := s.par.sjA.toList ++ s.par.sjB.toList
    let s := s.takeBlocks [a, b]
    let s := { s with par := { s.par with sjA := some a, sjB := some b, sjAt := s.par.sjNext } }
    let s := ((s.log (.jblock a true)).log (.jblock b true)).sjRegs
    let s := if old.isEmpty then s else { s with par := { s.par with sjCur := s.sjCarry ++ s.par.sjCur } }
    old.foldl (fun s b => (s.log (.jblock b false)).eraseBlock b 7) s
  | _ => s

/-- Program the present page (R393). -/
def State.sjProgram (s : State) : State :=
  if s.par.sjCur.isEmpty then s
  else
    let room := fun (b : Nat) => decide (s.par.sjNext - s.par.sjAt < (s.die (dieOf b)).pages / max 1 (s.die (dieOf b)).bpc)
    let l := s.par.sjA.toList ++ s.par.sjB.toList
    let s := if l.isEmpty || l.any (fun b => !room b) then s.sjOpen else s
    if s.par.sjA.isNone && s.par.sjB.isNone then s
    else
      let n := s.par.sjNext
      let l := s.par.sjCur.take 1023
      let s := { s with par := { s.par with sjNext := n + 1, sjCur := s.par.sjCur.drop 1023, sjPages := s.par.sjPages.insert n (l, []) } }
      (s.sjSend n 0 s.par.sjA l).sjSend n 1 s.par.sjB l

/-- Append an entry; a checkpoint or DONE entry, or the 1,023rd, programs its page at once (R393). -/
def State.sjAppend (s : State) (kind member seg dest stripe target : Nat) : State :=
  let e : SjEnt := { kind := kind, member := member, seg := seg, dest := dest, stripe := stripe, target := target, time := s.ao.tb }
  let since := if s.par.sjCur.isEmpty then s.ao.tb else s.par.sjSince
  let s := { s with par := { s.par with sjCur := s.par.sjCur ++ [e], sjSince := since } }
  if kind = 3 ∨ kind = 4 ∨ 1023 ≤ s.par.sjCur.length then s.sjProgram else s

/-- A copy of a page is acknowledged: its entries are durable once both copies are, or the one that remains (R393, R394). -/
def State.sjAcked (s : State) (n c : Nat) : State :=
  let s := if s.par.sjWait = some (c, n) then
      ({ s with par := { s.par with sjWait := none } } : State).setFlag (dieM 0) Reg.PAR_SJ_SINGLE false else s
  match s.par.sjPages.find? n with
  | none => s
  | some (l, acks) =>
    let acks := if acks.contains c then acks else acks ++ [c]
    let single := s.flag (dieM 0) Reg.PAR_SJ_SINGLE
    let mine := (s.par.sjWait.map Prod.fst)
    let whole := if single then acks.any fun x => some x != mine else decide (2 ≤ acks.length)
    if whole then { s with par := { s.par with sjPages := s.par.sjPages.erase n, sjDone := s.par.sjDone ++ l } }
    else { s with par := { s.par with sjPages := s.par.sjPages.insert n (l, acks) } }

/-- Open a copy in place of one that is lost, and write it a page of RESTATE entries (R394). -/
def State.sjReopen (s : State) : State :=
  let go := fun (s : State) (c : Nat) (other : Nat) =>
    match s.pickBlock (mCp other :: s.rebuildCps) false with
    | none => s
    | some b =>
      let s := s.takeBlocks [b]
      let n := s.par.sjNext
      let p := if c = 0 then { s.par with sjA := some b } else { s.par with sjB := some b }
      let s := { s with par := { p with sjNext := n + 1, sjWait := some (c, n) } }
      ((s.log (.jblock b true)).sjRegs).sjSend n c (some b) s.restate
  match s.par.sjA, s.par.sjB with
  | none, some b => if s.par.sjWait.isSome then s else go s 0 b
  | some a, none => if s.par.sjWait.isSome then s else go s 1 a
  | _, _ => s

/-- A carrier is lost or its port down: a copy on it is lost (R394). Pages that waited for that copy alone are durable. -/
def State.sjCarrierLost (s : State) (cp : Nat) : State :=
  let on := fun (b : Option Nat) => b.any fun a => mCp a == cp
  if !(on s.par.sjA || on s.par.sjB) then s
  else
    let c := if on s.par.sjA then 0 else 1
    let p := { s.par with sjA := if on s.par.sjA then none else s.par.sjA, sjB := if on s.par.sjB then none else s.par.sjB,
                          sjWait := none }
    let s := ({ s with par := p } : State).setFlag (dieM 0) Reg.PAR_SJ_SINGLE true
    let done := s.par.sjPages.keep fun _ la => la.2.any (· != c)
    let s := { s with par := { s.par with sjPages := s.par.sjPages.keep fun k _ => !done.has k,
                                          sjDone := s.par.sjDone ++ done.vals.flatMap Prod.fst } }
    s.sjRegs.sjReopen

end Sys2Proof.Machine
end

