-- ==== Sys2Proof/Machine/Copy.lean ====
section
/-! DEFINITION. Copying segments: collection (R284 to R288), native reshape and the VX5 moving boundary (R397 to R406). -/

namespace Sys2Proof.Machine

open Sys2Proof

/-! ## Copying segments (R284 to R288, R399, R404) -/

/-- Ask for the data codewords of the stripe that a scan stands at. -/
def State.readStripe (s : State) (seg : Nat) : State :=
  match s.ftl.scans.find? seg, s.ftl.segs.find? seg with
  | some x, some d =>
    if x.stop ≤ x.stripe then s
    else
      let n := d.width * 16
      let s := s.setScan seg { x with parts := [], bad := [], want := n }
      (List.range n).foldl (fun s i => s.requestCw (d.cwAddr x.stripe (i / 16) (i % 16)) seg x.cls (.scan seg i)) s
  | _, _ => s

/-- Packs whose members the chunk table places in a stripe from a position on: reference of member 0 and address. -/
def State.packsIn (s : State) (seg k pos : Nat) : List (Nat × Nat) :=
  ((s.ftl.pages.keep fun p _ => pKind p == 5).flatMap fun kp => match kp.2.body with
    | .chunk es => es.filterMap fun ie =>
        let ref := mkRef (pOwner kp.1) (pIndex kp.1 * 128 + ie.1)
        if ie.2.state = 1 ∨ ie.2.state = 2 then
          match s.locate ie.2.pack with
          | some (d, j, p) => if d.segid = seg ∧ j = k ∧ pos ≤ p then some (ref - ie.2.member, ie.2.pack) else none
          | none => none
        else none
    | _ => []).eraseDups

/-- Follow the envelopes of a stripe from a position (R284); `fuel` bounds their number. -/
def State.scanStripe (s : State) (seg : Nat) (d : SegDesc) (k : Nat) (data : Bytes) (bad : List Nat) : Nat → Nat → State
  | 0, _ => s
  | fuel + 1, pos =>
    match s.ftl.scans.find? seg with
    | none => s
    | some x =>
      let spans := fun (len : Nat) => bad.any fun i => decide (i * 4096 < pos + len) && decide (pos < (i + 1) * 4096)
      let stick := fun (s : State) => (s.packsIn seg k pos).foldl (fun s ca => s.stickPack seg ca.1 ca.2) s
      let again := fun (s : State) => (s.packsIn seg k pos).foldl (fun s ca => s.copyAgain seg ca.1 ca.2 32 x.cls 1) s
      if data.length < pos + 32 then s
      else if spans 32 then stick s
      else
        let b := data.drop pos
        -- no envelope here; packs that the table places from here on are malformed
        if leAt b 0 2 ≠ 0x4556 then
          -- the end of a pack of the stripe before, in a VX5 segment
          let first := (((s.packsIn seg k 16).filterMap fun ca => (s.locate ca.2).map fun l => l.2.2).mergeSort fun a b => decide (a ≤ b)).head?
          match first with
          | some p => if d.vx5 ∧ pos = 0 then s.scanStripe seg d k data bad fuel p else again s
          | none => again s
        else
          let size := 32 + roundUp (leAt b 12 4) 16
          let a := d.dataAddr k pos
          let chunk := leAt b 16 8
          let here := ((s.packsIn seg k pos).find? fun ca => ca.2 == a).map Prod.fst
          let live := here.isSome
          let named := here.getD chunk
          let gone := fun (s : State) => if !live && (s.chunk chunk).pack == a then
              s.setScan seg { x with dead := x.dead ++ [(refDomain chunk, leAt b 6 2)] } else s
          -- a pack of a VX5 segment may go on in the next stripe (R404)
          if d.vx5 && decide (data.length < pos + size) && decide (size ≤ 65600) then
            (if live then s.copyAgain seg named a size x.cls 0 else gone s)
          else if spans size then (if live then s.stickPack seg named a else gone s).scanStripe seg d k data bad fuel (pos + size)
          else match envOf (b.take size) with
          | none =>
            -- a length beyond R212 says nothing of where the next envelope stands; the table does
            let later := (s.packsIn seg k (pos + 1)).filterMap fun ca => (s.locate ca.2).map fun l => l.2.2
            let next := if size ≤ 65600 then pos + size else later.foldl min (data.length)
            (if live then s.copyAgain seg named a size x.cls 1 else s).scanStripe seg d k data bad fuel next
          | some e =>
            (if live then (if e.chunk = named then s.copyPack seg e a (b.take size) false else s.copyAgain seg named a size x.cls 1)
             else gone s).scanStripe seg d k data bad fuel (pos + size)

/-- Add to the estimate of live bytes of the segment that holds an address (R275). -/
def State.addValid (s : State) (a : Nat) (n : Int) : State :=
  match s.segOf a with
  | some d => s.setSeg { d with valid := ((d.valid : Int) + n).toNat }
  | none => s

/-- Pages of a metadata segment that the directory still places in it. -/
def State.metaLeft (s : State) (seg : Nat) : List Nat :=
  (s.ftl.dir.keep fun _ e => match s.segOf e.maddr with
    | some d => d.segid == seg
    | none => false).keys

/-- Write the pages of a metadata segment that is being vacated anew: a page that is not in the cache is filled first (R267), an
unreadable one stays. -/
def State.rewriteMeta (s : State) (seg : Nat) : State :=
  match s.ftl.segs.find? seg with
  | some d =>
    if d.kind ≠ 1 then s
    else (s.metaLeft seg).foldl (fun s p =>
      if !s.inCache p then
        if s.ftl.badPages.contains p then s
        else (s.firstEnter p (((s.ftl.scans.find? seg).map Scan.cls).getD 7) false id).1
      else if (s.line p).any fun l => l.v && !l.b && l.writing.isNone then s.writePage p else s) s
  | none => s

/-- A segment whose copies are all durable enters RECLAIM; its dead packs leave the count of their generations (R276, R223). -/
def State.reclaimSeg (s : State) (seg : Nat) : State :=
  match s.ftl.scans.find? seg, s.ftl.segs.find? seg with
  | some x, some d =>
    let s := { s with ftl := { s.ftl with scans := s.ftl.scans.erase seg }, par := { s.par with list := s.par.list.filter (· != seg) } }
    let s := if x.dead.isEmpty then s else (s.logTxn none 0 0 (x.dead.map fun dg => .gencnt dg.1 dg.2 (-1))).1
    let d := { d with state := .reclaim, relocAt := s.ao.tb }
    (s.setSeg d).log (.segment d)
  | _, _ => s

/-- Seal the open segments that are reserved to a source. -/
def State.sealReserved (s : State) (src : Option Nat) : State :=
  (s.ftl.opens.filter fun o => o.source == src && src.isSome).foldl (fun s o =>
    let s := s.endStripe o true
    match s.ftl.segs.find? o.segid with
    | some d => if d.state == SegState.opened then s.sealSegment d else s
    | none => s) s

/-- The step of a reshape after its present segment or window has switched (R399 step 5, R404 steps 5 and 6). -/
def State.switched (s : State) (r : Reshape) (seg lsn : Nat) : State :=
  let put := fun (s : State) (r : Reshape) => { s with par := { s.par with reshape := some r } }
  if !r.vx5 then
    ((put (s.reclaimSeg seg) { r with source := none, txn := none }).sealReserved r.dest).sjAppend 4 0 seg 0 0 0
  else
    match s.ftl.scans.find? seg, s.ftl.segs.find? seg with
    | some x, some d =>
      let dest := ((s.ftl.opens.find? fun o => o.source == r.dest).map OpenSeg.segid).getD 0
      let s := s.sjAppend 3 0 seg dest x.stop lsn
      let s := put s { r with source := none, txn := none, bstripe := x.stop }
      if d.next ≤ x.stop then s.reclaimSeg seg
      else
        let s := { s with ftl := { s.ftl with scans := s.ftl.scans.erase seg } }
        if x.dead.isEmpty then s else (s.logTxn none 0 0 (x.dead.map fun dg => .gencnt dg.1 dg.2 (-1))).1
    | _, _ => s

/-- What follows when a scan has read all its stripes. A collected segment is reclaimed once nothing of it is live (R276); a reshape
logs the relocations of all its copies in one transaction once all are placed (R399 step 4, R404 step 4). -/
def State.checkScan (s : State) (seg : Nat) : State :=
  match s.ftl.scans.find? seg with
  | none => s
  | some x =>
    let read := decide (x.stop ≤ x.stripe) && x.want == 0 && (x.stuck.all fun ca => !s.livePack ca.1 ca.2) && (s.metaLeft seg).isEmpty
    if !read then s
    else if x.purpose = 0 then (if x.copies.isEmpty then s.reclaimSeg seg else s)
    else match s.par.reshape with
    | none => s
    | some r =>
      if r.txn.isSome ∨ r.source ≠ some seg then s
      else if x.copies.isEmpty then s.switched r seg s.ftl.durable
      else
        let ps := x.copies.filterMap fun c => (s.pack c.1).map fun p => (c, p)
        if ps.length ≠ x.copies.length ∨ ps.any (fun cp => cp.2.st != .placed) then s
        else
          let n := s.ftl.nextTxn
          let s := { s with ftl := { s.ftl with nextTxn := n + 1 } }
          let k := ps.length
          let s := ((List.range k).zip ps).foldl (fun s ip =>
            let p := ip.2.2
            s.logRec n (ip.1 + 1 == k) (.reloc p.chunk ip.2.1.2 p.maddr ((p.copyOf.map Prod.snd).getD p.gen) p.gen)) s
          let s := { s with dst := { s.dst with packs := s.dst.packs.keep fun i _ => !(x.copies.any fun c => c.1 == i) } }
          { s with par := { s.par with reshape := some { r with txn := some n } } }

/-- A stripe of a segment reserved to a reshape is placed: a RESHAPE entry, and perhaps the switch (R399 steps 3 and 4). -/
def State.reservedPlaced (s : State) (seg k : Nat) : State :=
  match s.par.reshape with
  | none => s
  | some r =>
    let reserved := s.ftl.opens.any fun o => o.segid == seg && o.source.isSome
    match r.source with
    | some src =>
      let stripe := ((s.ftl.scans.find? src).map Scan.stripe).getD k
      let s := if reserved && !r.vx5 then s.sjAppend 2 0 src seg stripe 0 else s
      s.checkScan src
    | none => s

/-- The END record of a switch is durable (R400). -/
def State.switchDone (s : State) (txn lsn : Nat) : State :=
  match s.par.reshape with
  | some r => match r.source with
    | some seg => if r.txn = some txn then s.switched r seg lsn else s
    | none => s
  | none => s

/-- A codeword of a scan has come, or is lost. When the stripe is whole its packs are copied and the next stripe is read. -/
def State.scanPart (s : State) (seg i : Nat) (b : Option Bytes) : State :=
  match s.ftl.scans.find? seg, s.ftl.segs.find? seg with
  | some x, some d =>
    let x := { x with want := x.want - 1, parts := match b with
                        | some b => x.parts.insert i b
                        | none => x.parts,
                      bad := if b.isNone then x.bad ++ [i] else x.bad }
    let s := s.setScan seg x
    if 0 < x.want then s
    else
      let data := (List.range (d.width * 16)).flatMap fun i => padTo 4096 (x.parts.getD i [])
      let s := s.scanStripe seg d x.stripe data x.bad (d.width * 2048) 0
      match s.ftl.scans.find? seg with
      | none => s
      | some y =>
        let s := s.setScan seg { y with stripe := y.stripe + 1, parts := [], bad := [] }
        if x.stop ≤ x.stripe + 1 then s.checkScan seg else s.readStripe seg
  | _, _ => s

/-- Begin to copy a segment's live packs. -/
def State.beginScan (s : State) (seg cls purpose first stop : Nat) : State :=
  let x : Scan := { cls := cls, purpose := purpose, stripe := first, stop := stop, parts := [], bad := [], want := 0, copies := [],
                    dead := [], stuck := [] }
  let s := s.setScan seg x
  if stop ≤ first then s.checkScan seg else s.readStripe seg

/-- Post a segment for collection (R276, R284): a SEALED data segment of a side whose FTL this head runs. -/
def State.collect (s : State) (seg cls : Nat) : State :=
  match s.ftl.segs.find? seg with
  | none => s
  | some d =>
    if d.state ≠ .sealed ∨ d.kind = 2 ∨ (d.segid / 2 ^ 31 ≠ s.side ∧ s.pair.head ≠ .solo) ∨ s.ftl.scans.has seg then s
    else
      let d := { d with state := .collecting }
      (((s.setSeg d).log (.segment d)).beginScan seg cls 0 0 (if d.kind = 0 then d.next else 0)).rewriteMeta seg

/-! ## Reshape (R397 to R406) -/

/-- A segment needs a native reshape (R398). -/
def State.needsReshape (s : State) (target : Nat) (d : SegDesc) : Bool :=
  d.state == .sealed && d.kind != 2 && !d.vx5 &&
    (d.width != target || d.members.any fun m => s.fld (dieM 0) Reg.PAR_RS_EVAC_EVAC / 2 ^ m.carrier % 2 == 1)

/-- The side of a segment is this head's to run: its own, or in SOLO either. -/
def State.runs (s : State) (seg : Nat) : Bool := seg / 2 ^ 31 == s.side || s.pair.head == .solo

/-- Segments of a VX5 region from the boundary on, rising (R403): those of VX5 layout that hold live data. -/
def State.vx5Left (s : State) (r : Reshape) : List SegDesc :=
  s.ftl.segs.vals.filter fun d => d.vx5 && d.state == .sealed && decide (r.bseg ≤ d.segid)

/-- Segments still to be reshaped. -/
def State.reshapeLeft (s : State) (r : Reshape) : List Nat :=
  if r.vx5 then (s.vx5Left r).map SegDesc.segid else (s.ftl.segs.vals.filter fun d => s.needsReshape r.target d).map SegDesc.segid

/-- Take the next segment or window of a reshape, or end it (R398, R402, R404). -/
def State.reshapeNext (s : State) : State :=
  match s.par.reshape with
  | none => s
  | some r =>
    let d := dieM 0
    let s := s.setFld d Reg.PAR_RS_STATUS_SEGS_LEFT ((s.reshapeLeft r).filter s.runs).length
    -- one head runs the whole of a VX5 region (R404)
    let left := if r.vx5 then s.reshapeLeft r else (s.reshapeLeft r).filter s.runs
    let s := s.setFlag d Reg.PAR_RS_STATUS_PAUSED (decide (2 ≤ s.ftl.level))
    if r.source.isSome || !s.flag d Reg.PAR_CTRL_EN || !s.serving then s
    else if r.stopped ∨ (s.reshapeLeft r).isEmpty then
      let s := ({ s with par := { s.par with reshape := none } } : State).sealReserved r.dest
      let s := (s.setFlag d Reg.PAR_RS_STATUS_ACTIVE false).setFlag d Reg.PAR_RS_STATUS_PAUSED false
      if r.stopped then s else
        let s := s.setFlag d Reg.PAR_RS_STATUS_DONE true
        if r.vx5 then s.sjAppend 4 0 r.bseg 0 r.bstripe 0 else s
    else if 2 ≤ s.ftl.level then s
    else
      match left.find? fun k => !s.ftl.scans.has k with
      | none => s
      | some seg => match s.ftl.segs.find? seg with
        | none => s
        | some x =>
          let first := if r.vx5 && r.bseg == seg then r.bstripe else 0
          let n := max 1 (s.fld d Reg.PAR_RS_CKPT_STRIPES)
          let stop := if x.kind = 1 then 0 else if r.vx5 then min x.next (first + n) else x.next
          let r := { r with source := some seg, bseg := if r.vx5 then seg else r.bseg, bstripe := if r.vx5 then first else r.bstripe }
          let s := { s with par := { s.par with reshape := some r } }
          (s.beginScan seg r.cls (if r.vx5 then 2 else 1) first stop).rewriteMeta seg


end Sys2Proof.Machine
end

