-- ==== Sys2Proof/Machine/Ftl.lean ====
section
/-! DEFINITION. Flash translation as it happens: stripes placed and failed (R279, R286), the log made durable (R293 to R299),
checkpoints (R300, R301), journal blocks and the dump reserve (R280, R281). -/

namespace Sys2Proof.Machine

open Sys2Proof

/-! ## Telling the partner (R138, R270) -/

/-- Send a map change to the partner: how many messages went. -/
def State.sendUpd (s : State) (cls : Nat) (m : MapChange) (lsn : Nat) : State × Nat :=
  if s.mirroring then (s.send (vlLock cls) cls 0 (.mapupd m lsn), 1) else (s, 0)

/-! ## Stripes placed, or not (R279, R285, R286) -/

/-- A copy is placed: a collection logs its relocation at once, a reshape once the whole segment or window is. -/
def State.copyPlaced (s : State) (id : Nat) (p : Pack) (old : Nat × Nat) : State :=
  let s := s.setPack id { p with st := .placed }
  match List.find? (fun (kx : Nat × Scan) => kx.2.copies.any fun c => c.1 == id) s.ftl.scans with
  | some (_, x) =>
    if x.purpose = 0 then
      let s := s.log (.reloc p.chunk old.1 p.maddr old.2 p.gen)
      { s with dst := { s.dst with packs := s.dst.packs.erase id } }
    else s
  | none => { s with dst := { s.dst with packs := s.dst.packs.erase id } }

/-- A pack is placed. -/
def State.packPlaced (s : State) (id : Nat) : State :=
  match s.pack id with
  | none => s
  | some p => match p.copyOf with
    | some old => s.copyPlaced id p old
    | none =>
      let s := s.setPack id { p with st := .placed }
      ((List.range p.mems.length).zip p.mems).foldl (fun s im => s.setChunk im.2.job im.2.n (.done (p.chunk + im.1))) s

/-- A metadata page is placed: its PAGE record is logged; a checkpoint page is done with. -/
def State.pagePlaced (s : State) (pid : Nat) (d : DirEnt) : State :=
  if pKind pid = 7 then
    match s.ftl.ckpt with
    | some c =>
      let c := { c with left := c.left.filter (· != pid) }
      let s := { s with ftl := { s.ftl with ckpt := some c } }
      if c.left.isEmpty && c.endLsn.isNone then
        let lsn := s.ftl.nextLsn
        let s := s.log (.ckptEnd c.num c.beginLsn c.firstSeg c.count c.crc)
        let lsn := max lsn (s.ftl.nextLsn - 1)
        { s with ftl := { s.ftl with ckpt := some { c with endLsn := some lsn } } }
      else s
    | none => s
  else s.log (.page pid d)

/-- The stripes of a program unit are placed once every member has acknowledged. -/
def State.unitPlaced (s : State) (seg k : Nat) : State :=
  match s.ftl.progs.find? (progKey seg k), s.ftl.segs.find? seg with
  | some pr, some d =>
    if pr.failed ∨ pr.acks.length < d.width + 2 then s
    else
      let s := { s with ftl := { s.ftl with progs := s.ftl.progs.erase (progKey seg k) } }
      let s := pr.packs.foldl (fun s id => s.packPlaced id) s
      let s := pr.pages.foldl (fun s pd => s.pagePlaced pd.1 pd.2) s
      (s.reservedPlaced seg k).tryTxns
  | _, _ => s

/-! ## Relocations and chunk states (R258, R285) -/

/-- References of the members of a pack at an address. -/
def State.membersAt (s : State) (chunk a : Nat) : List Nat :=
  ((List.range 8).map (chunk + ·)).filter fun r => (s.chunk r).pack == a && (s.chunk r).state != 0

/-- Mark the page of a chunk as changed by a record of a side. -/
def State.chunkChanged (s : State) (ref side lsn : Nat) : State :=
  let p := chunkPage ref
  let s := s.raiseLsn p side lsn
  if side = s.side then s.dirtyLine p lsn else s.partnerLine p lsn

/-- Apply a relocation (R285). -/
def State.applyReloc (s : State) (chunk old new og ng side lsn : Nat) : State :=
  let l := s.membersAt chunk old
  let size : Int := l.foldl (fun n r => n + (s.chunk r).len / 16) 0
  let s := (s.addValid old (-size)).addValid new size
  let s := l.foldl (fun s r => (s.modChunk r fun e => { e with pack := new }).chunkChanged r side lsn) s
  if og = ng ∨ l.isEmpty then s
  else (s.applyItem (.gencnt (refDomain chunk) og (-1))).applyItem (.gencnt (refDomain chunk) ng 1)

/-- Apply a change of a chunk's state (R197). -/
def State.applyState (s : State) (ref st side lsn : Nat) : State :=
  let s := if st = 3 then s.addValid (s.chunk ref).pack (-((s.chunk ref).len / 16 : Nat)) else s
  (s.modChunk ref fun e => { e with state := st }).chunkChanged ref side lsn

/-! ## Durable records (R293, R297) -/

/-- A change of a pinned line of a C0-eligible namespace keeps the chunk-table page that it refers to resident (R272): the page is in the
cache by then. -/
def State.keepResident (s : State) (it : Item) : State :=
  match it with
  | .mapset pid _ ref =>
    if (s.line pid).any Line.p && s.nsFlag 0 (pOwner pid + 1) Reg.NVF_NSTAB_DATA_C0_ELIGIBLE && refNum ref != 0 then
      match s.line (chunkPage ref) with
      | some l => s.setLine (chunkPage ref) { l with rp := true }
      | none => s
    else s
  | _ => s

/-- An item of a durable transaction of this side takes effect; its MAPUPD goes to the partner and is counted with the journal records of
the transaction. -/
def State.applyOwn (s : State) (txn lsn sgen cls : Nat) (rec : Option (Nat × Nat)) (it : Item) : State :=
  let pid := (s.itemPages it).head?.getD 0
  let s := ((s.applyDurable s.side lsn it).endMarks rec it).keepResident it
  let s := match it with
    | .alloc _ m _ ulen => s.addValid m (ulen / 16 : Nat)
    | _ => s
  let (s, k) := s.sendUpd cls (.item pid it sgen s.side lsn rec) lsn
  if k = 0 then s
  else
    let more := fun (m : SMap JEnt) => m.mapV fun _ e => if e.txn = txn ∧ txn ≠ 0 then { e with updates := e.updates + k } else e
    { s with jrnl := { s.jrnl with own := more s.jrnl.own, mirror := more s.jrnl.mirror },
             ftl := { s.ftl with updOf := s.ftl.updOf.insert lsn txn } }

/-- Every item of a transaction has taken effect (R297): its journal records are durable, its job is done. -/
def State.txnDone (s : State) (txn : Nat) : State :=
  let mark := fun (m : SMap JEnt) => m.mapV fun _ e => if e.txn = txn ∧ txn ≠ 0 then { e with durable := true } else e
  let s := { s with jrnl := { s.jrnl with own := mark s.jrnl.own, mirror := mark s.jrnl.mirror } }
  let jobs := (s.dst.jobs.keep fun _ x => x.txn != some txn).mapV fun _ x => if x.fix = txn then { x with fix := 0 } else x
  { s with dst := { s.dst with jobs := jobs } }

/-- Reclaim log blocks and checkpoint segments that the newest anchor no longer needs (R301). -/
def State.reclaimLog (s : State) (c : Ckpt) : State :=
  let redo := min (if s.side = 0 then c.redo0 else c.redo1) c.beginLsn
  let old := s.ftl.oldTriples.filter fun t => decide (t.1 < redo)
  let s := { s with ftl := { s.ftl with oldTriples := s.ftl.oldTriples.filter fun t => decide (redo ≤ t.1) } }
  let s := (old.flatMap Prod.snd).foldl (fun s b => s.eraseBlock b 7) s
  let segs := s.ftl.segs.vals.filter fun d => d.kind == 2 && d.state == .sealed && d.segid != c.firstSeg && decide (d.segid < c.firstSeg) &&
    d.segid / 2 ^ 31 == s.side
  segs.foldl (fun s d =>
    let s := d.members.foldl (fun s m => s.eraseBlock m.addr 7) s
    let d' := { d with state := .empty }
    (s.setSeg d').log (.segment d')) s

/-- A chunk-table page that is FREE in every entry leaves the directory once a checkpoint has completed (R259). -/
def State.dropFreePages (s : State) (before : Nat) : State :=
  let l := (s.ftl.pages.keep fun p x => pKind p == 5 && decide ((if s.side = 0 then x.lsn0 else x.lsn1) < before) && !((s.line p).any fun l => l.d || l.r) &&
    (match x.body with
      | .chunk es => es.length == 128 && es.vals.all fun e => e.state == 3
      | _ => false)).keys
  { s with ftl := { s.ftl with pages := s.ftl.pages.keep fun p _ => !l.contains p, dir := s.ftl.dir.keep fun p _ => !l.contains p,
                               lines := s.ftl.lines.keep fun p _ => !l.contains p } }

/-- A checkpoint ends: every anchor is answered (R300). -/
def State.endCkpt (s : State) : State :=
  match s.ftl.ckpt with
  | none => s
  | some c =>
    let s := { s with ftl := { s.ftl with ckpt := none, ckptAt := s.ao.tb } }
    let s := (s.setFld (dieM 0) Reg.FTL_CKPT_NUM c.num).setFlag (dieM 0) Reg.FTL_CKPT_BUSY false
    (s.reclaimLog c).dropFreePages c.beginLsn

/-- Address of the log page that holds an LSN of this side. -/
def State.logAddr (s : State) (lsn : Nat) : Nat :=
  s.ftl.logIndex.foldl (fun a x => if x.1 ≤ lsn then x.2 else a) 0

/-- Write the anchor record of a checkpoint to every present carrier (R300, R301, R350). Its layout, and the page it takes, are
the model's (log entry 14); the address of the partner's REDO page is not known to this head by any message, a free value. -/
def State.writeAnchors (s : State) : State :=
  match s.ftl.ckpt with
  | none => s
  | some c =>
    let cps := s.cps.filter s.cpOpen
    let addr := fun (side redo : Nat) => if side = s.side then s.logAddr redo else Config.freeNat s.free % 2 ^ 64
    let b := le 1 s.side ++ zeros 3 ++ le 4 c.num ++ le 8 (addr 0 c.redo0) ++ le 8 (addr 1 c.redo1) ++ le 8 (s.logAddr (c.endLsn.getD 0))
    let b := b ++ le 4 (crc32c b).toNat
    let s := { s with free := s.free + 1, ftl := { s.ftl with ckpt := some { c with anchors := cps.length } } }
    let blk := c.num % 2
    let s := cps.foldl (fun s cp =>
      let pages := max 1 ((s.die (dieKey cp 0)).pages / max 1 (s.die (dieKey cp 0)).bpc)
      let pg := c.num / 2 % pages
      let a := maddr cp 0 blk pg 0 0
      let s := if pg = 0 ∧ 1 < c.num then s.issue { cp := cp, req := .erase (blockOf a), cls := 1, why := .erase, since := s.ao.tb } else s
      s.issue { cp := cp, req := .program a true false (s.pageCws a 0 1 b), cls := 1, why := .anchor c.num, since := s.ao.tb }) s
    if cps.isEmpty then s.endCkpt else s

/-- The SEGMENT record that ends a replacement is durable (R387 step 5): the lost blocks are retired, the segment is rebuilt. -/
def State.rebuildLogged (s : State) (d : SegDesc) : State :=
  match s.par.cur with
  | some r =>
    if r.logged ∧ r.seg = d.segid then
      let lost := r.repl.keys.filterMap fun m => ((s.ftl.segs.find? r.seg).bind fun d => d.members[m]?).map Member.addr
      let s := s.setSeg d
      let s := { s with par := { s.par with cur := none, list := s.par.list.filter (· != r.seg) } }
      let s := { s with par := { s.par with lostBlocks := s.par.lostBlocks ++ lost } }
      let s := lost.foldl (fun s b => s.retireBlock b) s
      s.sjAppend 4 0 r.seg 0 r.stripe 0
    else s
  | none => s

/-- What a durable record of this side does. -/
def State.applyRec (s : State) (r : LogRec) : State :=
  match r.body with
  | .page pid d =>
    let old := s.ftl.dir.find? pid
    let newer := match old with
      | some o => decide (o.lsn0 ≤ d.lsn0) && decide (o.lsn1 ≤ d.lsn1)
      | none => true
    let s := if newer then
        let s := (s.addValid d.maddr 256).addValid ((old.map DirEnt.maddr).getD 0) (-256)
        let s := { s with ftl := { s.ftl with dir := s.ftl.dir.insert pid d } }
        s.ftl.scans.keys.foldl (fun s k => s.checkScan k) s
      else s
    (s.sendUpd 1 (.pageNotice pid s.side (if s.side = 0 then d.lsn0 else d.lsn1) d) r.lsn).1
  | .reloc chunk old new og ng =>
    let s := (s.applyReloc chunk old new og ng r.side r.lsn).addFld (dieM 0) Reg.FTL_GC_PACKS 1
    let s := (s.sendUpd 1 (.log r.body r.side r.lsn) r.lsn).1
    let segs := (s.ftl.scans.keep fun _ x => x.copies.any fun c => c.2 == old).keys
    segs.foldl (fun s k => match s.ftl.scans.find? k with
      | some x => (s.setScan k { x with copies := x.copies.filter fun c => c.2 != old }).checkScan k
      | none => s) s
  | .state ref st =>
    let s := s.applyState ref st r.side r.lsn
    let s := match s.dst.freeing.find? ref with
      | some f =>
        let f := { f with dying := true, acked := f.acked || !s.mirroring }
        if st = 2 then { s with dst := { s.dst with freeing := s.dst.freeing.insert ref f } } else s
      | none => s
    (s.sendUpd 1 (.log r.body r.side r.lsn) r.lsn).1
  -- the identifier of a deleted namespace is free from here on (R102)
  | .nsrec nsid none => ({ s with arr := { s.arr with nss := s.arr.nss.erase nsid } } : State).sendUpd 1 (.log r.body r.side r.lsn) r.lsn |>.1
  | .pool b (some _) =>
    let s := if s.ftl.erased.contains b then
        ({ s with ftl := { s.ftl with erased := s.ftl.erased.filter (· != b), pools := s.ftl.pools.insert b s.side } } : State).updateFree
      else s
    (s.sendUpd 1 (.log r.body r.side r.lsn) r.lsn).1
  | .nsrec _ _ | .domrec _ _ | .progress _ _ _ _ | .status _ _ | .shard _ _ _ | .jblock _ _ | .pool _ none => (s.sendUpd 1 (.log r.body r.side r.lsn) r.lsn).1
  | .change c => (s.sendUpd 1 (.log r.body r.side r.lsn) r.lsn).1.metaDurable c
  | .segment d => (s.rebuildLogged d).sendUpd 1 (.log r.body r.side r.lsn) r.lsn |>.1
  | .ckptEnd _ _ _ _ _ => if (s.ftl.ckpt.bind Ckpt.endLsn) == some r.lsn then s.writeAnchors else s
  | _ => s

/-- A record changes metadata pages. -/
def LogBody.paged : LogBody → Bool
  | .reloc _ _ _ _ _ | .state _ _ => true
  | _ => false

/-- The changes that the records of a transaction make, in order (R297). -/
def State.txnChanges (s : State) (txn lsn : Nat) (l : List LogRec) : List Change :=
  (l.flatMap fun r => match r.body with
    | .txn jside _ sgen jseq items =>
      let rec_ := jside.map fun j => (j, jseq)
      let cls := ((rec_.bind fun q => s.jent q.1 q.2).map fun e => e.r.cls).getD 1
      items.map fun it => Change.item txn r.lsn sgen cls rec_ it
    | _ => [.alone r]) ++ [.txnEnd txn lsn]

/-- One durable record, in LSN order: the records of a transaction wait for its END (R297), changes of pages then for their pages (R269,
R270). -/
def State.durableRec (s : State) (r : LogRec) : State :=
  let queue := fun (s : State) (l : List Change) => { s with ftl := { s.ftl with todo := s.ftl.todo ++ l } }
  if r.txn = 0 then (if r.body.paged then queue s [.alone r] else s.applyRec r)
  else if !r.fin then { s with ftl := { s.ftl with held := s.ftl.held ++ [r] } }
  else
    let mine := fun (x : LogRec) => x.txn == r.txn && x.side == r.side
    let l := s.ftl.held.filter mine ++ [r]
    queue { s with ftl := { s.ftl with held := s.ftl.held.filter fun x => !mine x } } (s.txnChanges r.txn r.lsn l)

/-- Make the oldest log page durable if two of its copies are programmed (R293). -/
def State.logDurable (s : State) (n : Nat) : State :=
  match s.ftl.logPages with
  | (k, pg) :: _ =>
    if k ≠ n ∨ pg.acks.length < 2 then s
    else
      let last := pg.recs.foldl (fun m r => max m r.lsn) s.ftl.durable
      let s := { s with ftl := { s.ftl with logPages := s.ftl.logPages.erase k, durable := last } }
      let s := s.setFld (dieM 0) Reg.FTL_LSN_DURABLE last
      (pg.recs.foldl (fun s r => s.durableRec r) s).tryTxns
  | [] => s

/-- A copy of a log page failed (R293): the log goes on on a new triple; a page that can no longer reach two copies is programmed
again there. -/
def State.logFailed (s : State) (n c : Nat) : State :=
  match s.ftl.logPages.find? n with
  | none => s
  | some pg =>
    let pg := { pg with fails := if pg.fails.contains c then pg.fails else pg.fails ++ [c] }
    let s := { s with ftl := { s.ftl with tripleBad := true, logPages := s.ftl.logPages.insert n pg } }
    if pg.fails.length < 2 then s
    else
      let l := s.pickBlocks false 3 []
      if l.length < 3 then s
      else
        let s := s.takeBlocks l
        let s := { s with ftl := { s.ftl with oldTriples := s.ftl.oldTriples ++ [(s.ftl.nextLsn - 1, s.ftl.triple)], triple := l,
                                              tripleAt := n, tripleBad := false } }
        (s.ftl.logPages.keep fun k _ => decide (n ≤ k)).foldl (fun s kp =>
          let pg := { kp.2 with acks := [], fails := [] }
          ({ s with ftl := { s.ftl with logPages := s.ftl.logPages.insert kp.1 pg } } : State).sendLogPage kp.1 pg) s

/-! ## Checkpoints (R300, R301) -/

/-- Side and LSN of the record that a waiting change comes from. -/
def Change.from (own : Nat) : Change → Option (Nat × Nat)
  | .item _ lsn _ _ _ _ | .txnEnd _ lsn => some (own, lsn)
  | .alone r => some (r.side, r.lsn)
  | .upd _ _ (.item _ _ _ side lsn _) _ | .upd _ _ (.log _ side lsn) _ => some (side, lsn)
  | .upd _ _ _ _ => none

/-- REDO of a side: the lowest LSN of a change that a dirty or R line holds, or that still waits for its page, else the durable end of its
log. -/
def State.redo (s : State) (side : Nat) : Nat :=
  let ls := (s.ftl.lines.vals ++ s.ftl.waits.map WayWait.line).filterMap fun l =>
    if side = s.side then (if l.d then some l.dlsn else none) else if l.r then some l.rfirst else none
  let ls := ls ++ (s.ftl.todo.filterMap (Change.from s.side)).filterMap fun c => if c.1 = side then some c.2 else none
  let end_ := if side = s.side then s.ftl.durable else s.ftl.partnerLsn
  ls.foldl min (if ls.isEmpty then end_ else ls.headD end_)

/-- What a checkpoint writes (R300 step 2): directory, segment table, namespace, domain and shard records, pools; the rest of the array
metadata, the marks of R82 among it, which outlast the log records that made them; one after another (log entry 14). -/
def State.ckptBytes (s : State) : Bytes :=
  let rec' := fun (b : LogBody) => b.bytes s.pageDomain
  (s.ftl.dir.flatMap fun pd => le 8 pd.1 ++ pd.2.bytes) ++ s.ftl.segs.vals.flatMap SegDesc.bytes ++
    (s.arr.nss.flatMap fun x => rec' (.nsrec x.1 (some x.2))) ++ (s.arr.doms.flatMap fun x => rec' (.domrec x.1 x.2)) ++
    ((List.range 256).flatMap fun e => rec' (.shard e (s.owner e) (s.arr.sgen.getD e 0))) ++
    (s.ftl.pools.flatMap fun x => rec' (.pool x.1 (some x.2))) ++
    (s.arr.changes ++ [MetaChange.losses s.arr.lossRuns s.arr.defGen s.arr.deferred s.arr.markedLbas s.arr.markedKeys]).flatMap fun c => rec' (.change c)

/-- The open checkpoint segment is closed, so that a checkpoint begins in a new one (R300). -/
def State.sealCkptSeg (s : State) : State :=
  match s.openOf 2 none with
  | some o =>
    let s := s.endStripe o true
    match s.ftl.segs.find? o.segid with
    | some d => if d.state == SegState.opened then s.sealSegment d else s
    | none => s
  | none => s

/-- Place the pages of a checkpoint, by PAGEID (R300). -/
def State.placeCkptPages (s : State) (pages : List (Nat × Bytes)) : Option State :=
  pages.foldl (fun (o : Option State) ip => o.bind fun s =>
    let ent := fun (a : Nat) => ({ maddr := a, crc := (crc32c (padTo 4096 ip.2)).toNat, lsn0 := 0, lsn1 := 0 } : DirEnt)
    (s.placeBytes 2 none 4096 (padTo 4096 ip.2) (fun o a => { o with pages := o.pages ++ [(ip.1, ent a)] }) 4).map Prod.fst) (some s)

/-- The stripe that the last checkpoint page lies in is programmed as it is. -/
def State.endCkptStripe (s : State) : State :=
  match s.openOf 2 none with
  | some o => s.endStripe o true
  | none => s

/-- Start a checkpoint unless one runs (R300): a new checkpoint segment, its pages, programmed at once. None starts where its pages cannot
be placed; the next is due as R301 says. -/
def State.startCkpt (s : State) : State :=
  if s.ftl.ckpt.isSome ∨ !s.flag (dieM 0) Reg.FTL_CTRL_EN then s
  else
    let b := s.log (.ckptBegin (s.redo 0) (s.redo 1))
    let t := b.sealCkptSeg
    let pgs := pieces 4096 t.ckptBytes
    let ids := (List.range pgs.length).map fun i => pageId 7 s.side i
    match t.placeCkptPages (ids.zip pgs) with
    | none => s
    | some u =>
      let c : Ckpt := { num := s.fld (dieM 0) Reg.FTL_CKPT_NUM + 1, redo0 := s.redo 0, redo1 := s.redo 1, beginLsn := b.ftl.nextLsn - 1,
                        endLsn := none, firstSeg := ((u.openOf 2 none).map OpenSeg.segid).getD 0, count := pgs.length,
                        crc := (crc32c (pgs.flatMap fun p => padTo 4096 p)).toNat, left := ids, anchors := 0 }
      (({ u with ftl := { u.ftl with ckpt := some c } } : State).setFlag (dieM 0) Reg.FTL_CKPT_BUSY true).endCkptStripe

/-- A checkpoint that lost pages to a failed stripe begins again (R286). -/
def State.redoCkpt (s : State) : State :=
  if s.ftl.ckpt.isNone then s
  else (({ s with ftl := { s.ftl with ckpt := none } } : State).setFlag (dieM 0) Reg.FTL_CKPT_BUSY false).startCkpt

/-! ## Failed stripes (R286) -/

/-- Seal a segment before stripe `k` (R286): what its later units and its open stripes held is placed again,
a checkpoint whose pages were among it from its start. -/
def State.sealEarly (s : State) (d : SegDesc) (k : Nat) : State :=
  let seg := d.segid
  let later := s.ftl.progs.keep fun key _ => key / 65536 == seg && decide (k ≤ key % 65536)
  let open_ := s.ftl.opens.filter fun o => o.segid == seg
  let packs := later.vals.flatMap Prog.packs ++ open_.flatMap fun o => o.packs ++ o.unit.flatMap fun u => u.2.1
  let pages := later.vals.flatMap Prog.pages ++ open_.flatMap fun o => o.pages ++ o.unit.flatMap fun u => u.2.2
  let s := { s with ftl := { s.ftl with progs := s.ftl.progs.keep fun key _ => !later.has key } }
  let s := s.sealSegment { d with next := min d.next k }
  let s := s.exc 0 .segmentSealed [seg, k]
  let s := packs.foldl (fun s id => match s.pack id with
    | some p => s.setPack id { p with st := .encrypted }
    | none => s) s
  let s := s.placePacks
  let s := if pages.any fun pd => pKind pd.1 == 7 then s.redoCkpt else s
  pages.foldl (fun s pd =>
    if pKind pd.1 = 7 then s
    else match s.line pd.1 with
    | some l => if l.writing = some pd.2.maddr then (s.setLine pd.1 { l with writing := none }).writePage pd.1 else s
    | none => s) s

/-- A column of a unit failed (R286). -/
def State.unitFailed (s : State) (seg k : Nat) : State :=
  match s.ftl.progs.find? (progKey seg k), s.ftl.segs.find? seg with
  | some _, some d => (s.addFld (dieM 0) Reg.FTL_GC_TARGET_FAIL 1).sealEarly d k
  | _, _ => s

/-! ## Journal blocks and the dump reserve (R280, R281) -/

/-- Open journal blocks up to JCARRIERS carriers. -/
def State.keepJournal (s : State) : Nat → State
  | 0 => s
  | fuel + 1 =>
    let l := s.journalBlocks
    if max 3 (s.fld (dieM 0) Reg.FTL_JOURNAL_JCARRIERS) ≤ l.length then s
    else match s.pickBlock (l.map mCp) true with
    | some b =>
      let s := s.takeBlocks [b]
      let s := { s with ftl := { s.ftl with jblks := s.ftl.jblks.insert b { recs := [], next := 0 } } }
      (s.log (.jblock b true)).keepJournal fuel
    | none => s

/-- Blocks of the dump reserve on a carrier. -/
def State.reserveOn (s : State) (cp : Nat) : Nat := (s.ftl.dumpRes.filter fun b => mCp b == cp).length

/-- The element of a list with the least measure, the first where several are. -/
def leastBy (f : Nat → Nat) (l : List Nat) : Option Nat :=
  l.foldl (fun (b : Option Nat) x => match b with
    | some y => if f x < f y then some x else some y
    | none => some x) none

/-- Keep the dump reserve (R281): while it is short, a block from the carrier that has the fewest of its blocks; then a block at a time
moves from the carrier that has the most to one that has two fewer, so that it stays spread over every present carrier. -/
def State.keepReserve (s : State) : Nat → State
  | 0 => s
  | fuel + 1 =>
    let free := s.eligible false
    let add := fun (s : State) (a : Nat) =>
      { s.takeBlocks [a] with ftl := { (s.takeBlocks [a]).ftl with dumpRes := s.ftl.dumpRes ++ [a] } }
    if !s.nand.dumps.isEmpty then s.journalRegs
    else match (leastBy s.reserveOn (free.map mCp).eraseDups).bind fun cp => free.find? fun a => mCp a == cp with
    | none => s.journalRegs
    | some a =>
      if !s.reserveBig then (add s a).keepReserve fuel
      else
        let most := leastBy (fun cp => s.ftl.dumpRes.length - s.reserveOn cp) (s.ftl.dumpRes.map mCp).eraseDups
        match most.bind fun cp => s.ftl.dumpRes.find? fun b => mCp b == cp with
        | some b =>
          if s.reserveOn (mCp b) < s.reserveOn (mCp a) + 2 then s.journalRegs
          else
            let s := add s a
            let s := { s with ftl := { s.ftl with dumpRes := s.ftl.dumpRes.filter (· != b), pools := s.ftl.pools.insert b s.side } }
            (s.log (.pool b (some s.side))).updateFree.keepReserve fuel
        | none => s.journalRegs

/-- Journal blocks all of whose records are released are erased (R280). -/
def State.eraseJournal (s : State) : State :=
  s.ftl.jblks.foldl (fun s bj =>
    let live := bj.2.recs.any fun q => if q.1 = s.side then s.jrnl.own.has q.2 else s.jrnl.mirror.has q.2
    if live || bj.2.recs.isEmpty then s
    else
      let s := { s with ftl := { s.ftl with jblks := s.ftl.jblks.erase bj.1 } }
      let s := s.log (.jblock bj.1 false)
      if s.ftl.retired.contains bj.1 then s else s.eraseBlock bj.1 7) s

/-- The FTL's own upkeep: journal blocks, dump reserve, packs and pages that waited for a segment, lines and lookups that waited,
the protection of a die where FTL_FREE.LEVEL has risen (R349). -/
def State.upkeep (s : State) : State :=
  let s := if s.serving then (s.keepJournal 48).keepReserve (s.ftl.pools.length + 1) else s
  let s := if s.flag (dieM 0) Reg.PAR_SJ_SINGLE then s.sjReopen else s
  let s := s.ftl.scans.keys.foldl (fun s k => s.rewriteMeta k) s
  let s := if s.med.starved.isEmpty then s else s.protect
  s.placePacks.mapRetry.reshapeNext

/-! ## Release (R282) -/

/-- Release a record on this head. -/
def State.releaseRec (s : State) (side seq : Nat) : State :=
  if side = s.side then
    match s.jrnl.own.find? seq with
    | some e => { s with jrnl := { s.jrnl with own := s.jrnl.own.erase seq, used := s.jrnl.used - e.r.size } }.journalRegs
    | none => s
  else { s with jrnl := { s.jrnl with mirror := s.jrnl.mirror.erase seq } }

end Sys2Proof.Machine
end

