-- ==== Sys2Proof/Machine/Par.lean ====
section
/-! DEFINITION. Losses, rebuild, reshape and scrub (R376 to R406). -/

namespace Sys2Proof.Machine

open Sys2Proof

/-! ## Losses (R377, R378, R384, R390) -/

/-- A die is LOST, itself or with its carrier. -/
def State.dieLost (s : State) (key : Nat) : Bool := (s.die key).lost || s.par.lostCps.contains (key / 1024)

/-- Member indices of a segment that are LOST. -/
def State.lostMembers (s : State) (d : SegDesc) : List Nat :=
  (List.range d.members.length).filter fun m => match d.members[m]? with
    | some x => s.dieLost (dieKey x.carrier x.die)
    | none => false

/-- PAR_RB_STATUS (R410). -/
def State.parRegs (s : State) : State :=
  let d := dieM 0
  let s := s.setFlag d Reg.PAR_RB_STATUS_ACTIVE (!s.par.list.isEmpty)
  let s := s.setFld d Reg.PAR_RB_STATUS_SEGS_LEFT s.par.list.length
  s.setFlag d Reg.PAR_RB_STATUS_DOUBLE (s.ftl.segs.vals.any fun x => x.state != .empty && x.segid / 2 ^ 31 == s.side &&
    decide (2 ≤ (s.lostMembers x).length))

/-- Pages of a record not yet acknowledged in a journal block: queued or sent. -/
def State.pagesDue (s : State) (side seq b : Nat) : Nat :=
  let mine := fun (o : MedOp) => o.why == MedWhy.journal side seq && blockOf o.req.addr == b
  (s.med.queue.filter mine).length + (s.med.ops.vals.filter mine).length

/-- Journal blocks on a LOST die (R377): each unreleased record in them is programmed once more, in a block that does not hold it. -/
def State.journalLost (s : State) (gone : Nat → Bool) : State :=
  let l := s.ftl.jblks.keep fun b _ => gone b
  let s := l.keys.foldl (fun s b =>
    ({ s with ftl := { s.ftl with jblks := s.ftl.jblks.erase b } } : State).log (.jblock b false)) s
  let s := s.keepJournal 48
  l.foldl (fun s bj => bj.2.recs.foldl (fun s q => match s.jent q.1 q.2 with
    | none => s
    | some e =>
      let have_ := e.r.pages - s.pagesDue q.1 q.2 bj.1
      let s := s.setJent q.1 q.2 { e with placed := e.placed - have_ }
      let s := { s with med := { s.med with queue := s.med.queue.filter fun o => !(o.why == MedWhy.journal q.1 q.2 && blockOf o.req.addr == bj.1) } }
      match s.journalBlocks.find? fun b => !((s.ftl.jblks.getD b { recs := [], next := 0 }).recs.contains q) with
      | some b => s.programIn e.r b
      | none => s) s) s

/-- Order of rebuild (R385): a segment's group. -/
def State.rebuildGroup (s : State) (seg : Nat) : Nat :=
  match s.ftl.segs.find? seg with
  | none => 4
  | some d => if 2 ≤ (s.lostMembers d).length then 0 else if d.kind = 2 then 1 else if d.kind = 1 then 2 else 3

/-- The listed segment to be rebuilt next: none that is being copied already. -/
def State.rebuildPick (s : State) : Option Nat :=
  let l := s.par.list.filter fun k => !s.ftl.scans.has k
  l.foldl (fun (b : Option Nat) k => match b with
    | none => some k
    | some x => if s.rebuildGroup k < s.rebuildGroup x ∨ (s.rebuildGroup k = s.rebuildGroup x ∧ k < x) then some k else b) none

/-- Class of rebuild (R388). -/
def State.rebuildClass (s : State) : Nat := if s.par.boost then 1 else s.fld (dieM 0) Reg.PAR_RB_CLASS

def State.setRebuild (s : State) (r : Option Rebuild) : State := { s with par := { s.par with cur := r } }

/-- A segment that lies below RELOC_PCT is copied away (R386). -/
def State.thin (s : State) (d : SegDesc) : Bool :=
  d.kind != 2 && decide (d.valid * 16 * 100 < min 100 (s.fld (dieM 0) Reg.PAR_CTRL_RELOC_PCT) * (d.stripes * d.width * 65536))

/-- Give up a replacement: its blocks are erased and return to the pool (R389, R390). -/
def State.rebuildAbandon (s : State) : State :=
  match s.par.cur with
  | some r => r.repl.vals.foldl (fun s b => s.eraseBlock b 7) (s.setRebuild none)
  | none => s

/-- Stripes of a program unit of a replacement block. -/
def State.replUnit (s : State) (d : SegDesc) (r : Rebuild) : Nat :=
  match r.repl.vals.head? with
  | some b => if d.slc then 1 else max 1 (s.die (dieOf b)).bpc
  | none => 1

def rbKey (k m slot : Nat) : Nat := (k * 32 + m) * 16 + slot

/-- Reconstruct the lost columns of the next program unit, or end the replacement with its SEGMENT record (R387). -/
def State.rebuildUnit (s : State) : State :=
  match s.par.cur with
  | none => s
  | some r => match s.ftl.segs.find? r.seg with
    | none => s.rebuildAbandon
    | some d =>
      if d.next ≤ r.stripe then
        let d' := { d with members := ((List.range d.members.length).zip d.members).map fun im => match r.repl.find? im.1 with
          | some b => { carrier := mCp b, die := mDie b, block := mBlock b }
          | none => im.2 }
        (s.setRebuild (some { r with logged := true })).log (.segment d')
      else
        let ks := (List.range (s.replUnit d r)).map (r.stripe + ·)
        let all := ks.flatMap fun k => r.repl.keys.flatMap fun m => (List.range 16).map fun sl => (k, m, sl)
        let s := s.setRebuild (some { r with parts := [], bad := [], reads := all.length })
        all.foldl (fun s x =>
          s.requestCw (d.cwAddr x.1 (d.colOf x.1 x.2.1) x.2.2) r.seg s.rebuildClass (.rebuild r.seg x.1 x.2.2 x.2.1)) s

/-- Begin the replacement of a segment's lost members (R387 step 1). -/
def State.rebuildStart (s : State) (seg : Nat) : State :=
  match s.ftl.segs.find? seg with
  | none => s
  | some d =>
    let used := d.members.map Member.carrier
    let pick := (s.lostMembers d).foldl (fun (a : Option (SMap Nat)) m => a.bind fun l =>
      (s.pickBlock (used ++ l.vals.map mCp) false).map fun b => l.insert m b) (some [])
    match pick with
    | some l =>
      let s := s.takeBlocks l.vals
      (s.setRebuild (some { seg := seg, repl := l, stripe := 0, parts := [], bad := [], reads := 0, progs := 0,
                            logged := false })).rebuildUnit
    | none => s

/-- Go on with the list of segments (R384 step 3, R385, R386); `fuel` bounds its length. -/
def State.rebuildGo (s : State) : Nat → State
  | 0 => s
  | fuel + 1 =>
    if s.par.cur.isSome || !s.serving || !s.flag (dieM 0) Reg.PAR_CTRL_EN then s
    else match s.rebuildPick with
    | none => s
    | some seg => match s.ftl.segs.find? seg with
      | none => ({ s with par := { s.par with list := s.par.list.filter (· != seg) } } : State).rebuildGo fuel
      | some d =>
        if d.state != .sealed || (s.lostMembers d).isEmpty then
          ({ s with par := { s.par with list := s.par.list.filter (· != seg) } } : State).rebuildGo fuel
        else if s.thin d then (s.collect seg s.rebuildClass).rebuildGo fuel
        else s.rebuildStart seg

def State.rebuildNext (s : State) : State := (s.rebuildGo (s.par.list.length + 1)).parRegs

/-- Packs of a stripe with the ends of the places they may take: the next pack's begin. -/
def packSpans : List (Nat × Nat × Nat) → Nat → List (Nat × Nat × Nat × Nat)
  | [], _ => []
  | [x], top => [(x.1, x.2.1, x.2.2, top)]
  | x :: y :: l, top => (x.1, x.2.1, x.2.2, y.2.2) :: packSpans (y :: l) top

/-- Report the packs that overlap a slot of a stripe (R389). -/
def State.reportSlot (s : State) (d : SegDesc) (k slot : Nat) : State :=
  let ps := (s.packsIn d.segid k 0).filterMap fun ca => (s.locate ca.2).map fun l => (ca.1, ca.2, l.2.2)
  let ps := ps.mergeSort fun a b => decide (a.2.2 ≤ b.2.2)
  (packSpans ps (d.width * 65536)).foldl (fun s x =>
    let hit := (List.range d.width).any fun c =>
      decide (x.2.2.1 < c * 65536 + slot * 4096 + 4096) && decide (c * 65536 + slot * 4096 < x.2.2.2)
    if hit then s.exc 0 .packLost [x.1, x.2.1] else s) s

/-- A lost codeword of the unit has been reconstructed, or cannot be (R387, R389). -/
def State.rebuildPart (s : State) (seg k slot m : Nat) (b : Option Bytes) : State :=
  match s.par.cur, s.ftl.segs.find? seg with
  | some r, some d =>
    if r.seg ≠ seg ∨ r.logged then s
    else
      let r := { r with reads := r.reads - 1, parts := match b with
                          | some b => r.parts.insert (rbKey k m slot) b
                          | none => r.parts,
                        bad := if b.isNone then r.bad ++ [rbKey k m slot] else r.bad }
      let s := s.setRebuild (some r)
      if 0 < r.reads then s
      else if !r.bad.isEmpty then
        let s := s.rebuildAbandon.setFlag (dieM 0) Reg.PAR_RB_STATUS_LOSS true
        let s := (r.bad.map fun x => (x / 512, x % 16)).eraseDups.foldl (fun s ks => s.reportSlot d ks.1 ks.2) s
        -- the packs of a checkpoint segment are its checkpoint: another one takes its place
        if d.kind = 2 then ({ s with par := { s.par with list := s.par.list.filter (· != seg) } } : State).startCkpt
        else s.collect seg s.rebuildClass
      else
        let s := s.setRebuild (some { r with progs := r.repl.length, parts := [] })
        let ks := (List.range (s.replUnit d r)).map (r.stripe + ·)
        r.repl.foldl (fun s mb =>
          let cws := ks.flatMap fun k =>
            s.pageCws (mb.2 + k * 2 ^ 22) seg 0 ((List.range 16).flatMap fun sl => padTo 4096 (r.parts.getD (rbKey k mb.1 sl) []))
          s.issue { cp := mCp mb.2, req := .program (mb.2 + r.stripe * 2 ^ 22) d.slc false cws, cls := s.rebuildClass,
                    why := .rebuild seg mb.1 r.stripe, since := s.ao.tb }) s
  | _, _ => s

/-- A unit of a replacement block is programmed (R387 steps 2 and 3). -/
def State.rebuildPlaced (s : State) (seg k : Nat) : State :=
  match s.par.cur, s.ftl.segs.find? seg with
  | some r, some d =>
    if r.seg ≠ seg ∨ r.stripe ≠ k ∨ r.progs = 0 then s
    else
      let n := s.replUnit d r
      let s := { s with par := { s.par with winBytes := s.par.winBytes + n * 65536 } }
      let r := { r with progs := r.progs - 1 }
      if 0 < r.progs then s.setRebuild (some r)
      else
        let r := { r with stripe := r.stripe + n }
        let s := s.setRebuild (some r)
        (r.repl.foldl (fun s mb => s.sjAppend 1 mb.1 seg 0 r.stripe mb.2) s).rebuildUnit
  | _, _ => s

/-- A unit of a replacement block failed to program: the replacement begins again with new blocks. -/
def State.rebuildFailed (s : State) (seg : Nat) : State :=
  match s.par.cur with
  | some r => if r.seg = seg then s.rebuildAbandon.rebuildNext else s
  | none => s

/-- Declare a die or a carrier LOST (R377, R378, R384). -/
def State.declareLost (s : State) (cp die : Nat) (whole : Bool) : State :=
  let known := s.med.dies.keys.any fun k => if whole then k / 1024 == cp else k == dieKey cp die
  if !known then s.event (dieM 0) 0x26 8 noInst
  else
    let s := if whole then { s with par := { s.par with lostCps := if s.par.lostCps.contains cp then s.par.lostCps else s.par.lostCps ++ [cp] } }
      else s.setDie (dieKey cp die) { s.die (dieKey cp die) with lost := true }
    let gone := fun (b : Nat) => s.dieLost (dieOf b)
    let s := s.startCkpt
    let s := (s.ftl.segs.vals.filter fun d => d.state == .opened && s.runs d.segid && !(s.lostMembers d).isEmpty).foldl (fun s d =>
      let first := (s.ftl.progs.keep fun key _ => key / 65536 == d.segid).keys.map (· % 65536)
      s.sealEarly d (first.foldl min d.next)) s
    let new := (s.ftl.segs.vals.filter fun d => d.state == .sealed && s.runs d.segid && !(s.lostMembers d).isEmpty &&
      !s.ftl.scans.has d.segid && !s.par.list.contains d.segid).map SegDesc.segid
    let s := { s with par := { s.par with list := s.par.list ++ new } }
    let s := if s.ftl.triple.any gone then { s with ftl := { s.ftl with tripleBad := true } } else s
    let s := s.journalLost gone
    let s := if (s.par.sjA.toList ++ s.par.sjB.toList).any gone then s.sjCarrierLost cp else s
    s.rebuildNext

/-- Blocks that a descriptor, a journal, the log, an anchor or the dump reserve names. -/
def State.namedBlocks (s : State) : List Nat :=
  (s.ftl.segs.vals.filter fun d => d.state != .empty).flatMap (fun d => d.members.map Member.addr) ++ s.ftl.jblks.keys ++ s.ftl.triple ++
    s.ftl.oldTriples.flatMap Prod.snd ++ s.par.sjA.toList ++ s.par.sjB.toList ++ s.ftl.dumpRes ++ s.ftl.erasing ++ s.ftl.erased ++ s.ftl.pools.keys ++
    s.ftl.retired ++ ((s.par.cur.map fun r => r.repl.vals).getD [])

/-- Blocks of the dies of a carrier. -/
def State.blocksOf (s : State) (cp : Nat) : List Nat :=
  (s.med.dies.keep fun k d => k / 1024 == cp && d.used).flatMap fun kd =>
    (List.range kd.2.blocks).filterMap fun b => if kd.1 % 1024 = 0 ∧ b < 2 then none else some (maddr cp (kd.1 % 1024) b 0 0 0)

/-- A LOST carrier has come back (R390): its blocks that nothing names, and those whose segment was rebuilt meanwhile, are erased
again. -/
def State.returnBlocks (s : State) (cp : Nat) : State :=
  let back := s.par.lostBlocks.filter fun b => mCp b == cp
  let s := { s with par := { s.par with lostBlocks := s.par.lostBlocks.filter fun b => mCp b != cp },
                    ftl := { s.ftl with retired := s.ftl.retired.filter fun b => !back.contains b } }
  let named := s.namedBlocks
  -- each head erases its half (log entry 14)
  ((s.blocksOf cp).filter fun b => !named.contains b && (s.pair.head == .solo || mBlock b % 2 == s.side)).foldl (fun s b => s.eraseBlock b 7) s

/-- Clear a loss (R390): members still in use are read again, and a rebuild that replaces one of them is abandoned. -/
def State.clearLost (s : State) (cp die : Nat) (whole : Bool) : State :=
  let s := if whole then { s with par := { s.par with lostCps := s.par.lostCps.filter (· != cp) } } else s
  let keys := s.med.dies.keys.filter fun k => if whole then k / 1024 == cp else k == dieKey cp die
  let s := keys.foldl (fun s k => s.setDie k { s.die k with lost := false }) s
  let s := match s.par.cur with
    | some r => match s.ftl.segs.find? r.seg with
      | some d =>
        if !r.logged && r.repl.keys.any (fun m => !(s.lostMembers d).contains m) then s.rebuildAbandon else s
      | none => s
    | none => s
  let keep := s.par.list.filter fun k => match s.ftl.segs.find? k with
    | some d => !(s.lostMembers d).isEmpty
    | none => false
  ({ s with par := { s.par with list := keep } } : State).rebuildNext

/-! ## Reshape by PAR_RS (R397, R402, R404, R409) -/

/-- Give up the copy in progress of a reshape (R401, R402): its packs are dropped, its destinations sealed and posted for
collection. -/
def State.reshapeAbandon (s : State) : State :=
  match s.par.reshape with
  | none => s
  | some r =>
    let src := r.source.getD 0
    let copies := ((s.ftl.scans.find? src).map fun x => x.copies.map Prod.fst).getD []
    let dests := ((copies.filterMap s.pack).filterMap fun p => (s.segOf p.maddr).map SegDesc.segid).eraseDups
    let s := { s with dst := { s.dst with packs := s.dst.packs.keep fun i _ => !copies.contains i },
                      ftl := { s.ftl with scans := s.ftl.scans.erase src },
                      par := { s.par with reshape := some { r with source := none } } }
    let s := s.sealReserved r.dest
    dests.foldl (fun s k => s.collect k r.cls) s

/-- STOP (R402): a copy that has ended finishes its switch; else it is abandoned. -/
def State.reshapeStop (s : State) : State :=
  match s.par.reshape with
  | none => s
  | some r =>
    let s := { s with par := { s.par with reshape := some { r with stopped := true } } }
    (if r.source.isSome && r.txn.isNone then s.reshapeAbandon else s).reshapeNext

/-- Carriers that are present and not to be vacated. -/
def State.keptCarriers (s : State) : Nat :=
  (s.roster.filter fun cp => s.fld (dieM 0) Reg.PAR_RS_EVAC_EVAC / 2 ^ cp % 2 == 0).length

/-- GO (R397, R404), or its refusal (R409). The layout of the checkpoint segments changes with the checkpoint that a native reshape starts. -/
def State.reshapeGo (s : State) : State :=
  let d := dieM 0
  let target := max 4 (min 16 (s.fld d Reg.PAR_RS_TARGET_WIDTH))
  let vx5 := s.flag d Reg.PAR_RS_VX5
  let refuse := fun (s : State) (row : Nat) => (s.setFlag d Reg.PAR_RS_STATUS_REFUSED true).event d 0x26 row noInst
  if s.par.reshape.isSome then refuse s 7
  else if s.keptCarriers < target + 2 then refuse s 6
  else
    let r : Reshape := { vx5 := vx5, nsid := s.fld d Reg.PAR_RS_NSID_M1 + 1, target := target, cls := s.fld d Reg.PAR_RS_CLASS,
                         source := none, txn := none, bseg := 0, bstripe := 0, stopped := false }
    match s.reshapeLeft r with
    | first :: _ =>
      if vx5 && !s.runs first then s
      else
        let r := { r with bseg := if vx5 then first else 0 }
        let s := if vx5 then s else s.startCkpt
        (({ s with par := { s.par with reshape := some r } } : State).setFlag d Reg.PAR_RS_STATUS_ACTIVE true).reshapeNext
    | [] => ({ s with par := { s.par with reshape := some r } } : State).reshapeNext

/-! ## Scrub (R376) -/

/-- The syndromes of a slot: SP and SQ from its columns. -/
def syndromes (d : Nat) (cols : List Bytes) : Bytes × Bytes :=
  let data := cols.take d
  (xorBytes ((cols[d]?).getD []) (parityP data), xorBytes ((cols[d + 1]?).getD []) (parityQ data))

/-- The wrong column that syndromes point to: none where they are consistent; `some none` where none can be located. -/
def locateWrong (d : Nat) (sp sq : Bytes) : Option (Option Nat) :=
  let zero := fun (b : Bytes) => b.all (· == 0)
  if zero sp ∧ zero sq then none
  else if zero sp then some (some (d + 1))
  else if zero sq then some (some d)
  else some ((List.range d).find? fun x => (sp.zip sq).all fun pq => pq.2 == gfMul (gfPow x) pq.1)

/-- A column of a scrubbed slot has been read. An unreadable column ends the scrub: the read itself has been recovered or reported. -/
def State.scrubPart (s : State) (seg stripe slot col : Nat) (b : Option Bytes) : State :=
  match s.par.scrubs.find? fun x => x.seg == seg && x.stripe == stripe && x.slot == slot, s.ftl.segs.find? seg with
  | some x, some d =>
    let y := { x with parts := match b with
                        | some b => x.parts.insert col b
                        | none => x.parts,
                      bad := if b.isNone then x.bad ++ [col] else x.bad }
    let rest := s.par.scrubs.filter (· != x)
    if y.parts.length + y.bad.length < d.width + 2 then { s with par := { s.par with scrubs := rest ++ [y] } }
    else
      let s := { s with par := { s.par with scrubs := rest } }
      let m := dieM 0
      if !y.bad.isEmpty then s
      else
        let s := s.addFld m Reg.PAR_SCRUB_SLOTS 1
        let (sp, sq) := syndromes d.width (y.parts.vals.map (padTo 4096))
        match locateWrong d.width sp sq with
        | none => s
        | some (some c) =>
          let a := d.cwAddr stripe c slot
          let s := { s with par := { s.par with wrong := if s.par.wrong.contains a then s.par.wrong else s.par.wrong ++ [a] } }
          (s.addFld m Reg.PAR_SCRUB_LOCATED 1).refresh a
        | some none => ((s.addFld m Reg.PAR_SCRUB_UNLOCATED 1).exc 0 .unlocated [seg, stripe, slot]).event m 0x26 0 noInst
  | _, _ => s

/-- Post a scrub of a slot: every column is read at class 7. -/
def State.scrub (s : State) (seg stripe slot : Nat) : State :=
  match s.ftl.segs.find? seg with
  | none => s
  | some d =>
    if !s.flag (dieM 0) Reg.PAR_CTRL_EN ∨ d.state = .empty ∨ d.next ≤ stripe ∨ 16 ≤ slot ∨
        s.par.scrubs.any (fun x => x.seg == seg && x.stripe == stripe && x.slot == slot) then s
    else
      let x : Scrub := { seg := seg, stripe := stripe, slot := slot, parts := [], bad := [] }
      let s := { s with par := { s.par with scrubs := s.par.scrubs ++ [x] } }
      (List.range (d.width + 2)).foldl (fun s c => s.requestCw (d.cwAddr stripe c slot) seg 7 (.scrub seg stripe slot c)) s

end Sys2Proof.Machine
end

