-- ==== Sys2Proof/Machine/Snap.lean ====
section
/-! DEFINITION. Snapshots: creation, READY, deletion and the release of frozen copies (R463 to R473). -/

namespace Sys2Proof.Machine

open Sys2Proof

/-- Newest epoch of a namespace's snapshots that are not in DELETING; 0 when it has none. -/
def NsRec.newest (n : NsRec) : Nat := (n.snaps.vals.filter fun x => x.state != .deleting).foldl (fun e x => max e x.epoch) 0

/-- Commit a namespace's NEWEST and ROOT in table 0 of the PGT block (R470, R494). -/
def State.setNewest (s : State) (nsid : Nat) : State :=
  let n := s.ns nsid
  let e := (n.map NsRec.newest).getD 0
  let held := (n.map fun n => !n.snaps.isEmpty).getD false || s.arr.frozen.any fun f => f.nsid == nsid
  let put := fun (s : State) (w : Nat) (v : Word) =>
    let k := tblKey (dieF 0) 0x17 0 (nsid - 1) w
    (s.setActive k v).setShadow k v
  if s.newestEpoch nsid = e then s
  else (put (put s 0 (BitVec.ofNat 64 e)) 1 (BitVec.ofNat 64 (if held then freezeRoot nsid else 0))).addFld (dieF 0) (tcGen 0x17) 1

/-- Change a namespace's record, log it, and keep the table of newest epochs. -/
def State.putNs (s : State) (nsid : Nat) (n : NsRec) : State :=
  (({ s with arr := { s.arr with nss := s.arr.nss.insert nsid n } } : State).log (.nsrec nsid (some n))).setNewest nsid

/-- Namespace of a snapshot, its record, and the snapshot. -/
def State.findSnap (s : State) (id : Nat) : Option (Nat × NsRec × Snap) :=
  s.arr.nss.findSome? fun kn => (kn.2.snaps.find? id).map fun x => (kn.1, kn.2, x)

/-- Snapshots of the pair. -/
def State.snapCount (s : State) : Nat := s.arr.nss.vals.foldl (fun k n => k + n.snaps.length) 0

/-- The lowest SNAPID from 1 that is not in use. -/
def State.freeSnapId (s : State) : Nat :=
  ((List.range 65537).find? fun i => (s.findSnap (i + 1)).isNone).getD 0 + 1

/-- Create a snapshot of a namespace with this moment as its epoch (R463): at most 1,024 of a namespace and 65,536 of the pair. -/
def State.snapCreate (s : State) (nsid : Nat) : State × Option Nat :=
  match s.ns nsid with
  | none => (s, none)
  | some n =>
    if decide (1024 ≤ n.snaps.length) || decide (65536 ≤ s.snapCount) || n.deleting || n.releasing then (s, none)
    else
      let id := s.freeSnapId
      (s.putNs nsid { n with snaps := n.snaps.insert id { epoch := s.ao.tb, state := .pending, side := s.side } }, some id)

/-- A clone names the snapshot as its base (R473). -/
def State.hasClone (s : State) (nsid id : Nat) : Bool := s.arr.nss.vals.any fun n => n.base == some (nsid, id)

/-- Lowest key epoch that a copy serves: the next lower key epoch of its page. -/
def State.copyFrom (s : State) (f : Frozen) : Nat :=
  (s.arr.frozen.filter fun g => g.page == f.page && decide (g.epoch < f.epoch)).foldl (fun e g => max e g.epoch) 0

/-- Snapshots that a copy serves (R470): epochs above the next lower key epoch of its page, up to its own. -/
def State.served (s : State) (n : NsRec) (f : Frozen) : List Snap :=
  n.snaps.vals.filter fun x => decide (s.copyFrom f < x.epoch) && decide (x.epoch ≤ f.epoch)

/-- Key of a copy in the freeze tree (R466). -/
def Frozen.key (f : Frozen) : Key := be 8 f.page ++ be 8 f.epoch

/-- The removal of a copy has been logged and is not durable yet. -/
def State.releasing (s : State) (f : Frozen) : Bool :=
  s.pendingRecs.any fun r => match r.body with
    | .txn _ _ _ _ items => items.contains (.keydel (freezeRoot f.nsid) f.key)
    | _ => false

/-- Release the copies that only snapshots in DELETING are served by, one transaction each; then those snapshots go (R470). -/
def State.snapNext (s : State) (nsid : Nat) : State :=
  match s.ns nsid with
  | none => s
  | some n =>
    let gone := n.snaps.keep fun _ x => x.state == .deleting && (x.side == s.side || s.pair.head == .solo)
    if gone.isEmpty then s
    else
      let due := s.arr.frozen.filter fun f => f.nsid == nsid && (let l := s.served n f; !l.isEmpty && l.all fun x => x.state == .deleting)
      if !due.isEmpty then
        due.foldl (fun s f => if s.releasing f then s
          else (s.logTxn none 0 0 (.keydel (freezeRoot nsid) f.key :: countItems s.side (-1) (s.page f.copy).body.refs)).1) s
      else s.putNs nsid { n with snaps := n.snaps.keep fun k _ => !gone.has k }

/-- Delete a snapshot (R465, R473): it must be READY and no clone may name it. -/
def State.snapDelete (s : State) (id : Nat) : State × Bool :=
  match s.findSnap id with
  | none => (s, false)
  | some (nsid, n, x) =>
    if x.state != .ready || s.hasClone nsid id then (s, false)
    else ((s.putNs nsid { n with snaps := n.snaps.insert id { x with state := .deleting, side := s.side } }).snapNext nsid, true)

/-- A PENDING snapshot may become READY (R465): no command of its namespace with ARRIVAL below its epoch that may still write is in
flight on either head, and no journal record with ARRIVAL below it is unreleased. -/
def State.snapSettled (s : State) (nsid : Nat) (x : Snap) : Bool :=
  let writes := fun (op : HostOp) => match op with
    | .write _ _ | .compareAndWrite _ _ _ | .writeZeroes _ _ _ | .deallocate _ | .store _ _ _ | .delete _ => true
    | _ => false
  !(s.host.cmds.vals.any fun c => c.nsid == nsid && writes c.op && decide (c.arrival < x.epoch)) &&
    !(s.pair.capsules.vals.any fun c => c.nsid == nsid && writes c.op && c.res.isNone && decide (c.arrival < x.epoch)) &&
    !(s.allRecs.any fun r => r.nsid == nsid && decide (r.arrival < x.epoch))

end Sys2Proof.Machine
end

