-- ==== Sys2Proof/Machine/Wipe.lean ====
section
/-! DEFINITION. Background work of a Format, a Sanitize and the release of a deleted namespace (R94 to R102, R184, R253, R302). -/

namespace Sys2Proof.Machine

open Sys2Proof

/-! ## What a namespace still refers to -/

/-- Block-map pages of a namespace that refer to anything, as its live view resolves them. -/
def State.mapLeft (s : State) (nsid : Nat) : List (Nat × List (Nat × Nat)) :=
  let idx := ((s.ftl.pages.keep fun p _ => pKind p == 1).keys.map pIndex).eraseDups
  idx.filterMap fun i =>
    let pid := pageId 1 (nsid - 1) i
    match (s.page (s.livePage nsid pid)).body with
    | .map m => let l := m.filter fun kv => refNum kv.2 != 0
      if l.isEmpty then none else some (pid, l)
    | _ => none

/-- Own leaves of a namespace that hold entries: no frozen copy. -/
def State.leavesLeft (s : State) (nsid : Nat) : List (Nat × List ValEnt) :=
  s.ftl.pages.filterMap fun kp =>
    if pKind kp.1 = 2 ∧ pOwner kp.1 = nsid - 1 ∧ !(s.arr.frozen.any fun f => f.copy == kp.1) then match kp.2.body with
      | .leaf _ es => if es.isEmpty then none else some (kp.1, es)
      | _ => none
    else none

/-- Items that empty one leaf, with what R467 asks for first. -/
def State.emptyLeaf (s : State) (nsid pid : Nat) (es : List ValEnt) (n : NsRec) : List Item × NsRec :=
  let t := some s.ao.tb
  let (pre, _, n) := (s.beforeChange nsid pid t n).getD ([], [], n)
  es.foldl (fun (acc : List Item × NsRec) v =>
    let (drop, n) := (s.dropValue nsid s.side t acc.2 v).getD ([], acc.2)
    (acc.1 ++ drop ++ [.keydel pid v.key], n)) (pre, n)

/-- Items that deallocate everything a namespace holds, and the record they leave. A key-value clone whose own leaves are empty gets
an empty leaf of its own as its root: its base's keys are not its own any more. -/
def State.emptyItems (s : State) (nsid : Nat) (n : NsRec) : List Item × NsRec :=
  if !n.kv then
    (s.mapLeft nsid).foldl (fun (acc : List Item × NsRec) pl =>
      let z := mkRef n.domain 0
      let (is, n) := (s.mapItems nsid s.side (some s.ao.tb) acc.2 pl.1 (pl.2.map fun x => (x.1, z))).getD ([], acc.2)
      (acc.1 ++ is, n)) ([], n)
  else
    let (is, n) := (s.leavesLeft nsid).foldl (fun (acc : List Item × NsRec) pl =>
      let (is, n) := s.emptyLeaf nsid pl.1 pl.2 acc.2
      (acc.1 ++ is, n)) ([], n)
    if n.base.isSome then
      let root := pageId 2 (nsid - 1) n.index
      (is ++ [.pageimg root (.leaf 0 [])], { n with base := none, root := root, index := n.index + 1 })
    else (is, n)

/-- References that a namespace's live view holds, as often as it holds them. -/
def State.refsHeld (s : State) (nsid : Nat) (n : NsRec) : List Nat :=
  if !n.kv then (s.mapLeft nsid).flatMap fun pl => pl.2.map Prod.snd
  else (s.leavesLeft nsid).flatMap fun pl => pl.2.flatMap fun v => s.valRefs nsid v

/-- A transaction not yet durable changes a page of the namespace. -/
def State.nsPending (s : State) (nsid : Nat) : Bool := s.pendingPages.any fun p => pOwner p == nsid - 1

/-- Commands and journal records of a namespace are still on their way. -/
def State.nsBusy (s : State) (nsid : Nat) : Bool :=
  (s.host.cmds.vals.any fun c => c.nsid == nsid && !c.op.isAdmin && c.result.isNone) ||
    (s.allRecs.any fun r => r.nsid == nsid) || s.nsPending nsid

/-- End the marking of a namespace's blocks and keys (R83). -/
def State.unmark (s : State) (nsid : Nat) : State :=
  { s with arr := { s.arr with markedLbas := s.arr.markedLbas.keep fun k _ => k / 2 ^ 64 != nsid,
                               markedKeys := s.arr.markedKeys.filter fun k => k.1.1 != nsid } }

/-- This head runs the background work of a namespace. -/
def State.runsNs (s : State) (n : NsRec) : Bool := n.runner == s.side || s.pair.head == .solo

/-- The keys of a domain are destroyed (R94, R184, R185, R226): its wrapped record goes, and every slot that holds its keys; on the partner
once the log record is durable. -/
def State.destroyDomain (s : State) (d : Nat) : State := s.changeNow (.domKey d [] [] false)

/-- The destruction of a domain's keys is not durable yet, or the partner has not acknowledged it. -/
def State.destroying (s : State) (d : Nat) : Bool :=
  let is := fun (b : LogBody) => match b with
    | .change (.domKey x [] _ _) => x == d
    | _ => false
  (s.pendingRecs.any fun r => is r.body) || s.pair.groups.vals.any fun g => (g.unacked ++ g.waiting).any fun t => match t.msg with
    | .mapupd (.log b _ _) _ => is b
    | _ => false

/-- Seal an open segment as it stands. -/
def State.sealNow (s : State) (seg : Nat) : State :=
  match s.ftl.opens.find? fun o => o.segid == seg with
  | some o =>
    let s := s.endStripe o true
    match s.ftl.segs.find? seg with
    | some d => if d.state == SegState.opened then s.sealSegment d else s
    | none => s
  | none => s

/-- The blocks of a segment have been erased, or it is not this head's to erase. -/
def State.segWiped (s : State) (seg : Nat) : Bool :=
  match s.ftl.segs.find? seg with
  | some d => !s.runs seg || (d.state == .empty && d.members.all fun m => !s.ftl.erasing.contains m.addr)
  | none => true

/-- One step of a Format in progress. -/
def State.formatNext (s : State) (nsid : Nat) : State :=
  match s.ns nsid with
  | none => s
  | some n => match n.formatting with
    | none => s
    | some (ses, _) =>
      let put := fun (s : State) (n : NsRec) => (s.setNs nsid n).log (.nsrec nsid (some n))
      if !s.runsNs n || s.nsBusy nsid then s
      else if n.phase = 0 then
        let (is, n') := s.emptyItems nsid n
        if is.isEmpty then
          let s := s.unmark nsid
          let s := if ses = 2 then s.destroyDomain n.domain else s
          put s { n with phase := if ses = 1 then 1 else 2 }
        else
          let held := s.refsHeld nsid n
          let own := if ses = 1 then held.eraseDups.filter fun r => (s.chunk r).sum == ((held.filter (· == r)).length : Int) else []
          let segs := (own.filterMap fun r => (s.segOf (s.chunk r).pack).map SegDesc.segid).eraseDups
          put (s.logTxn none 0 0 is).1 { n' with wipeRefs := n.wipeRefs ++ own, wipeSegs := n.wipeSegs ++ segs }
      else if n.phase = 1 then
        if n.wipeRefs.any fun r => (s.chunk r).state == 1 || (s.chunk r).state == 2 then s
        else
          let s := n.wipeSegs.foldl (fun s seg => ((s.sealNow seg).collect seg 7)) s
          if n.wipeSegs.all s.segWiped then put s { n with phase := 2 } else s
      else s

/-- The record of a namespace's release is logged and not durable: until it is, the identifier stays taken (R102). -/
def State.releaseLogged (s : State) (nsid : Nat) : Bool := s.pendingRecs.any fun r => match r.body with
  | .nsrec k none => k == nsid
  | _ => false

/-- One step of the release of a deleted namespace's map: emptied, its pages leave the directory, and the release is logged
(R102, R302). -/
def State.releaseNext (s : State) (nsid : Nat) : State :=
  match s.ns nsid with
  | none => s
  | some n =>
    if !n.releasing || !s.runsNs n || s.nsBusy nsid || !n.snaps.isEmpty || s.releaseLogged nsid then s
    else
      let (is, n') := s.emptyItems nsid n
      if !is.isEmpty then ((s.logTxn none 0 0 is).1).setNs nsid n'
      else
        let mine := fun (p : Nat) => pKind p ≤ 4 && pOwner p == nsid - 1
        let s := { s.unmark nsid with ftl := { (s.unmark nsid).ftl with pages := s.ftl.pages.keep fun p _ => !mine p,
                                                                        dir := s.ftl.dir.keep fun p _ => !mine p,
                                                                        lines := s.ftl.lines.keep fun p _ => !mine p,
                                                                        waits := s.ftl.waits.filter fun w => !mine w.page } }
        s.log (.nsrec nsid none)

/-! ## Sanitize (R96 to R99, R253) -/

/-- Blocks that a Sanitize erases on this head's side: user data, metadata, log, journal, dumps, and what retired blocks still hold. -/
def State.sanBlocks (s : State) : List Nat :=
  let mine := s.ftl.segs.vals.filter fun d => d.state != .empty && s.runs d.segid
  (mine.flatMap fun d => d.members.map Member.addr) ++ s.ftl.jblks.keys ++ s.ftl.triple ++ (s.ftl.oldTriples.flatMap Prod.snd) ++
    (if s.nand.dumps.isEmpty then [] else s.ftl.dumpRes) ++ s.ftl.retired.filter fun b => mBlock b % 2 == s.side || s.pair.head == .solo

/-- Everything that a Sanitize does away with, and a new log that holds the namespace and domain records with empty maps. -/
def State.sanWipe (s : State) (crypto : Bool) : State :=
  let doms := s.arr.doms.keys
  let s := doms.foldl (fun s d => if crypto then s.applyMeta (.domKey d [] [] false) else s.filterDropDomain d) s
  let s := (s.ftl.pages.keep fun p _ => pKind p == 2).keys.foldl (fun s p => s.ordDrop (pOwner p + 1) p) s
  let blocks := s.sanBlocks.eraseDups
  let segs := s.ftl.segs.mapV fun k d => if s.runs k then { d with state := SegState.empty, valid := 0 } else d
  let f := s.ftl
  let f := { f with segs := segs, opens := [], progs := [], pages := [], badPages := [], dir := [], lines := [], waits := [], todo := [], holds := [], looks := [],
                    fills := [], jblks := [], triple := [], tripleAt := f.nextPage, tripleBad := false, noOpen := false, erased := [], oldTriples := [],
                    logIndex := [], cur := [], logPages := [], held := [], updOf := [], ckpt := none, scans := [],
                    auditList := [], dumpRes := if s.nand.dumps.isEmpty then f.dumpRes else [] }
  let nss := s.arr.nss.mapV fun k n =>
    let n := { n with base := none, phase := 2, wipeRefs := [], wipeSegs := [], snaps := [], cycle := none }
    if n.kv then { n with root := pageId 2 (k - 1) n.index, index := n.index + 1 } else n
  let ds := s.arr.doms.mapV fun _ d => { d with packs := ([] : SMap Int) }
  let a := { s.arr with nss := nss, doms := ds, deferred := [], markedLbas := [], markedKeys := [], frozen := [] }
  let j := { s.jrnl with own := [], mirror := [], used := 0, lagging := false }
  let d := { s.dst with jobs := [], packs := [], freeing := [], running := [] }
  let s := { s with ftl := f, arr := a, jrnl := j, dst := d, nand := { s.nand with dumps := [] } }
  let s := (s.clearIntents 0 (2 ^ 64 - 1)).clearIntents 1 (2 ^ 64 - 1)
  let s := blocks.foldl (fun s b => s.eraseBlock b 7) s
  -- anchor blocks: blocks 0 and 1 of die 0 of each carrier (R301)
  let s := (s.cps.filter s.cpUp).foldl (fun s cp => [0, 1].foldl (fun s b =>
    s.issue { cp := cp, req := .erase (maddr cp 0 b 0 0 0), cls := 7, why := .erase, since := s.ao.tb }) s) s
  let s := s.arr.nss.foldl (fun s kn => s.log (.nsrec kn.1 (some kn.2))) s
  let s := s.arr.nss.keys.foldl (fun s k => s.setNewest k) s
  let s := s.arr.doms.foldl (fun s kd => s.log (.domrec kd.1 kd.2)) s
  (s.arr.changes.foldl (fun s c => s.log (.change c)) s).journalRegs

/-- An erase is queued or sent. -/
def State.erasesDue (s : State) : Bool :=
  let f := fun (o : MedOp) => o.why == MedWhy.erase || o.why == MedWhy.clear
  (s.med.queue.any f) || s.med.ops.vals.any f

/-- Second number of a progress record of a Sanitize: crypto erase; this head's part done; everything wiped (R98, log entry 205). -/
def San.code (x : San) : Nat := (if x.crypto then 1 else 0) + (if x.phase = 2 then 2 else 0) + (if x.phase = 0 then 0 else 4)

/-- One step of a Sanitize: once earlier commands are done everything goes; when the erases are done this head reports its part. A head
in SOLO does away with what is left of its partner's part as well (R98). -/
def State.sanNext (s : State) : State :=
  match s.arr.sanitize with
  | none => s
  | some x =>
    let solo := s.pair.head == .solo
    let put := fun (s : State) (x : San) =>
      ({ s with arr := { s.arr with sanitize := some x } } : State).log (.progress 1 x.code x.done x.total)
    let wipe := put (s.sanWipe x.crypto) { x with phase := 1, partnerDone := x.partnerDone || solo }
    if x.phase = 0 then
      if s.host.cmds.vals.any fun c => !c.op.isAdmin && c.result.isNone then s else wipe
    else if x.phase = 1 then
      if !s.ftl.erasing.isEmpty || s.erasesDue || !s.ftl.fresh.isEmpty then s
      else put s { x with phase := 2, done := x.total }
    else if solo && !x.partnerDone then wipe else s

/-- Every background operation goes on (R98: at entry to TWIN or SOLO). -/
def State.wipeNext (s : State) : State :=
  if !s.serving then s
  else
    let s := s.sanNext
    s.arr.nss.keys.foldl (fun s k => ((s.snapNext k).formatNext k).releaseNext k) s

end Sys2Proof.Machine
end

