-- ==== Sys2Proof/Machine/Changes.lean ====
section
/-! DEFINITION. Changes of metadata as they take effect on a head: log records that are replayed or come from the partner (R295, R303), and
the queue of changes that wait for their pages (R269, R270, R272). -/

namespace Sys2Proof.Machine

open Sys2Proof

/-! ## Records that are no map change -/

/-- A block leaves the pools. -/
def State.leavePools (s : State) (l : List Nat) : State :=
  { s with ftl := { s.ftl with pools := s.ftl.pools.keep fun a _ => !l.contains a } }

/-- A namespace's record has come: where it shows a removal begun or ended by the partner, this head's controllers follow (R101). -/
def State.nsRecord (s : State) (nsid : Nat) (r : NsRec) : State :=
  let old := s.ns nsid
  let was := fun (f : NsRec → Bool) => old.any f
  let s := { s with arr := { s.arr with nss := s.arr.nss.insert nsid r } }
  let s := if was (fun n => n.removing.isSome) && r.removing.isNone then s.nsChanged nsid else s
  let s := if r.releasing && !was NsRec.releasing then s.setAttached nsid (s.allCtrls.map Ctrl.cntlid) false else s
  s.setNewest nsid

/-- A domain's record has come: the packs counted stay those of the items, and numbers never go back (R223, R259). -/
def State.domRecord (s : State) (d : Nat) (r : DomRec) : State :=
  let o := s.dom d
  let r := { r with packs := o.packs, nextGen := max o.nextGen r.nextGen, next0 := max o.next0 r.next0, next1 := max o.next1 r.next1 }
  { s with arr := { s.arr with doms := s.arr.doms.insert d r } }

/-- A progress record of a Sanitize has come (R98): of this side in a replay, of the partner. -/
def State.sanRecord (s : State) (code done total side : Nat) : State :=
  let x := s.arr.sanitize.getD { crypto := code % 2 == 1, tag := none, done := 0, total := total, phase := 0, partnerDone := false }
  let part := decide (code / 2 % 2 = 1)
  let x := if side = s.side then
      { x with done := max x.done done, phase := max x.phase (if part then 2 else if code / 4 % 2 = 1 then 1 else 0) }
    else { x with partnerDone := x.partnerDone || part }
  { s with arr := { s.arr with sanitize := some x } }

/-- A record that is no map change takes effect. -/
def State.applyBody (s : State) (b : LogBody) (side lsn : Nat) : State :=
  let below := fun (ref : Nat) => let p := s.page (chunkPage ref); decide ((if side = 0 then p.lsn0 else p.lsn1) < lsn)
  match b with
  | .page pid d =>
    let newer := match s.ftl.dir.find? pid with
      | some o => decide (o.lsn0 ≤ d.lsn0) && decide (o.lsn1 ≤ d.lsn1)
      | none => true
    if newer then { s with ftl := { s.ftl with dir := s.ftl.dir.insert pid d } } else s
  | .segment d =>
    let s := if d.state == .empty then s else s.leavePools (d.members.map Member.addr)
    let s := if d.state == .empty || d.sound then s else s.event (dieM 0) 0x26 4 noInst
    if s.ftl.opens.any fun o => o.segid == d.segid then s else s.setSeg d
  | .reloc c o n og ng => if below c then s.applyReloc c o n og ng side lsn else s
  | .state ref st => if below ref then s.applyState ref st side lsn else s
  | .progress 1 k done total => s.sanRecord k done total side
  | .progress _ nsid done total => match s.ns nsid with
    | some n => { s with arr := { s.arr with nss := s.arr.nss.insert nsid { n with done := done, total := total } } }
    | none => s
  | .nsrec nsid (some r) => s.nsRecord nsid r
  | .nsrec nsid none => ({ s with arr := { s.arr with nss := s.arr.nss.erase nsid } } : State).setNewest nsid
  | .domrec d r => s.domRecord d r
  | .shard sh _ g => { s with arr := { s.arr with sgen := s.arr.sgen.insert sh (max g (s.arr.sgen.getD sh 0)) } }
  | .pool a (some sd) => { s with ftl := { s.ftl with pools := s.ftl.pools.insert a sd } }
  | .pool a none => { s.leavePools [a] with ftl := { (s.leavePools [a]).ftl with
      retired := if s.ftl.retired.contains a then s.ftl.retired else s.ftl.retired ++ [a] } }
  | .jblock a true => s.leavePools [a]
  | .link l => s.leavePools l
  | .status ro _ => { s with arr := { s.arr with readOnly := ro } }
  | .change c => s.applyMeta c
  | _ => s

/-! ## The queue of changes -/

/-- Every page that a change needs is in the cache and valid, or cannot be read at all (R308). -/
def State.changeReady (s : State) (c : Change) : Bool :=
  (s.changePages c).all fun p => s.mapOn (s.mapDie p) && ((s.line p).any Line.v || s.ftl.badPages.contains p)

/-- Ask for the pages that a change needs and the cache has not (R270). -/
def State.askPages (s : State) (c : Change) : State :=
  let cls := match c with
    | .item _ _ _ cls _ _ => cls
    | _ => 1
  (s.changePages c).foldl (fun s p =>
    if !s.mapOn (s.mapDie p) || s.inCache p || s.ftl.badPages.contains p then s else (s.firstEnter p cls false id).1) s

/-- The partner's change to a page takes effect (R138, R270, R272): unless the page has it. -/
def State.applyUpdItem (s : State) (pid : Nat) (it : Item) (side lsn : Nat) (rec : Option (Nat × Nat)) : State :=
  let p := s.page pid
  let old := decide (lsn ≤ (if side = 0 then p.lsn0 else p.lsn1)) && !(s.itemPages it).isEmpty
  let s := (if old then s else s.applyDurable side lsn it).endMarks rec it
  match it with
  | .fpadd ref _ fp => s.filterInsert (refDomain ref) fp ref
  | .alloc _ a _ ulen => if old then s else s.addValid a (ulen / 16 : Nat)
  | it => s.keepResident it

/-- A partner's MAPUPD takes effect. The end of a Sanitize is logged on this side as well (log entry 205). -/
def State.applyUpd (s : State) (m : MapChange) (lsn : Nat) : State :=
  let s := { s with ftl := { s.ftl with partnerLsn := max s.ftl.partnerLsn lsn } }
  match m with
  | .item pid it _ side l rec => s.applyUpdItem pid it side l rec
  | .log b side l =>
    let ends := s.arr.sanitize.isSome && (match b with
      | .change (.sanEnd _) => true
      | _ => false)
    let s := s.applyBody b side l
    if ends then s.log b else s
  | _ => s

/-- A waiting change takes effect. -/
def State.applyChange (s : State) (c : Change) : State :=
  match c with
  | .item txn lsn sgen cls rec it => s.applyOwn txn lsn sgen cls rec it
  | .alone r => s.applyRec r
  | .txnEnd txn lsn => (s.txnDone txn).switchDone txn lsn
  | .upd _ _ m lsn => s.applyUpd m lsn

/-- Waiting changes take effect one after another, as far as their pages are there; `fuel` bounds their number. -/
def State.runChanges (s : State) : Nat → State
  | 0 => s
  | fuel + 1 => match s.ftl.todo with
    | [] => s
    | c :: rest =>
      let s := s.askPages c
      if s.changeReady c then (({ s with ftl := { s.ftl with todo := rest } } : State).applyChange c).runChanges fuel else s

/-! ## Chunks in use, and acknowledgements that wait for them (R198) -/

/-- This head frees chunks of a reference's side (R195, R198). -/
def State.frees (s : State) (ref : Nat) : Bool := refSide ref == s.side || s.pair.head == .solo

/-- A record in destage refers to the chunk, or its transaction does and is not durable yet. -/
def State.chunkInUse (s : State) (ref : Nat) : Bool :=
  (s.dst.jobs.vals.any fun x => x.chunks.any fun c => match c.st with
    | .done r => r == ref
    | .comparing _ r => r == ref
    | _ => false) ||
  s.pendingItems.any fun i => match i with
    | .count c _ _ => c == ref
    | _ => false

/-- Waiting changes go on. A removal of the partner's whose chunk no confirmation of this head holds any more may be acknowledged, and
transactions that changed pages have kept back go on. -/
def State.changesNext (s : State) : State :=
  if s.ftl.todo.isEmpty && s.ftl.holds.isEmpty then s
  else
    let s := s.runChanges (s.ftl.todo.length + 1)
    ({ s with ftl := { s.ftl with holds := s.ftl.holds.filter fun h => s.chunkInUse h.2.2 } } : State).tryTxns

end Sys2Proof.Machine
end

