-- ==== Sys2Proof/Machine/Lanes.lean ====
section
/-! DEFINITION. Lanes of the tiles (R182, R200 to R202, R207, R217, R222, R240 to R245): which work waits for a lane, and which work a
free lane takes. -/

namespace Sys2Proof.Machine

open Sys2Proof

/-- Work that a lane can take: what, its class, the length of its plaintext, and whether it has what the lane needs. -/
structure LaneWork where
  item : LaneItem
  cls : Nat
  ulen : Nat
  ready : Bool
deriving DecidableEq, Repr

/-- A pack that is read has nothing wrong that shows without a key: its envelope, or none. -/
def PackRd.env? (r : PackRd) : Option Env :=
  match r.env.bind envOf with
  | some e => if e.chunk = r.chunk then some e else none
  | none => none

/-- A domain's record that sets numbers aside is not durable yet (log entry 200). -/
def State.numbersDue (s : State) (domain : Nat) : Bool :=
  s.pendingRecs.any fun r => match r.body with
    | .domrec d _ => d == domain
    | _ => false

/-- Chunks of the jobs that wait to be hashed on a tile (R178, R182). -/
def State.fplWork (s : State) (t : Nat) : List LaneWork :=
  (s.dst.jobs.keep fun _ x => !x.held && x.txn.isNone && s.laneTile .fpl x.tile == some t).flatMap fun jx =>
    (List.range jx.2.chunks.length).filterMap fun n => match jx.2.chunkAt n with
      | some { bytes := b, st := .hash } =>
        some { item := .chunk jx.1 n, cls := jx.2.cls, ulen := b.length,
               ready := s.dst.fpSlots.has (fpKey t jx.2.domain) || !s.fplDom t jx.2.domain Reg.FPL_DOM_DATA_VALID }
      | _ => none

/-- Packs that wait on a tile, by the kind of lane (R213, R218, R224). -/
def State.packWork (s : State) (k : LaneKind) (t : Nat) : List LaneWork :=
  s.dst.packs.filterMap fun ip =>
    let p := ip.2
    let w := fun (ready : Bool) => some ({ item := .pack ip.1, cls := p.cls, ulen := p.plain.length, ready := ready } : LaneWork)
    if s.laneTile k p.tile ≠ some t then none
    else match k with
    | .cmp => if p.st = .closed ∧ p.copyOf = none then w true else none
    | .enc => if p.st = .compressed then w (s.dst.xtsSlots.has (xtsKey t p.domain (s.wgen t p.domain)) && !s.numbersDue p.domain) else none
    | .dec => if p.st = .closed ∧ p.copyOf.isSome then w (s.dst.xtsSlots.has (xtsKey t p.domain p.gen)) else none
    | _ => none

/-- Packs read from the media that wait on a tile, by the kind of lane (R216, R218). -/
def State.readWork (s : State) (k : LaneKind) (t : Nat) : List LaneWork :=
  s.med.rds.filterMap fun ir =>
    let r := ir.2
    let w := fun (ready : Bool) =>
      some ({ item := .read ir.1, cls := r.cls, ulen := leAt (r.env.getD []) 8 4, ready := ready } : LaneWork)
    if s.laneTile k r.tile ≠ some t ∨ r.env = none then none
    else match k with
    | .dec => if r.plain.isSome then none else w (match r.env? with
        | some e => s.dst.xtsSlots.has (xtsKey t r.domain e.gen)
        | none => true)
    | .dcp => if r.plain.isSome then w true else none
    | _ => none

/-- The work of a kind on a tile. -/
def State.laneWork (s : State) (k : LaneKind) (t : Nat) : List LaneWork :=
  match k with
  | .fpl => s.fplWork t
  | .cmp | .enc => s.packWork k t
  | .dec => s.readWork k t ++ s.packWork k t
  | .dcp => s.readWork k t
  | .cdc | .gcm => []

/-- What a lane holds. -/
def State.runOf (s : State) (k : LaneKind) (i : LaneItem) : Option LaneRun := s.dst.running.find? fun r => r.kind == k && r.item == i

/-- A lane is free of its item. -/
def State.leaveLane (s : State) (r : LaneRun) : State :=
  ({ s with dst := { s.dst with running := s.dst.running.filter (· != r) } } : State).emptyFlushed

/-- Lanes of a kind on a tile that R241 reserves: of decompression, and of XTS decryption. -/
def State.reservedLanes (s : State) (k : LaneKind) (t : Nat) : Nat :=
  match k with
  | .dcp => min 4 (s.fld (dieC t) Reg.DCP_CTRL_C0_LANES)
  | .dec => min 4 (s.fld (dieC t) Reg.XTS_CTRL_C0_LANES)
  | _ => 0

def LaneKind.num : LaneKind → Nat
  | .cdc => 0 | .fpl => 1 | .cmp => 2 | .dcp => 3 | .enc => 4 | .dec => 5 | .gcm => 6

/-- The work that lane `l` of a tile takes next, and the turn of classes 1 to 7 after it (R62, R240, R241): class 0 before any other; a
reserved lane takes another class only while no class-0 work waits, and only for packs of 16,384 bytes or less. -/
def State.pickWork (s : State) (k : LaneKind) (t l : Nat) (work : List LaneWork) : Option (LaneWork × (Nat × Nat)) :=
  let turn := s.dst.turns.getD (t * 8 + k.num) (0, 0)
  let can := work.filter fun w => w.ready
  match can.find? fun w => w.cls == 0 with
  | some w => some (w, turn)
  | none =>
    let held := decide (l < s.reservedLanes k t)
    let can := if !held then can else if work.any fun w => w.cls == 0 then [] else can.filter fun w => decide (w.ulen ≤ 16384)
    match wrrNext 8 (s.cweight (dieF 0)) (fun c => can.any fun w => w.cls == c) turn with
    | some (c, turn) => (can.find? fun w => w.cls == c).map fun w => (w, turn)
    | none => none

/-- A free lane takes its next work. A chunk whose domain is not valid takes no lane: its record is held (R203); what the domain's entry
asks for is read now (R207). -/
def State.startLane (s : State) (k : LaneKind) (t l : Nat) : State :=
  let work := (s.laneWork k t).filter fun w => (s.runOf k w.item).isNone
  match s.pickWork k t l work with
  | none => s
  | some (w, turn) =>
    let run := fun (s : State) (filter cmp : Bool) =>
      { s with dst := { s.dst with running := s.dst.running ++ [{ kind := k, tile := t, lane := l, item := w.item, filter := filter, cmp := cmp }],
                                   turns := s.dst.turns.insert (t * 8 + k.num) turn } }
    match w.item with
    | .chunk j _ => match s.job j with
      | some x =>
        if !s.fplDom t x.domain Reg.FPL_DOM_DATA_VALID then s.holdJob j x .domainInvalid (x.domain :: x.seqs)
        else run s (s.fplDom t x.domain Reg.FPL_DOM_DATA_FILTER) (s.fplDom t x.domain Reg.FPL_DOM_DATA_BYTE_CMP)
      | none => s
    | _ => run s false false

/-- Lanes of a kind on a tile that are enabled and hold no work. -/
def State.leaveLanes (s : State) (k : LaneKind) (t : Nat) : List Nat :=
  (List.range 16).filter fun l => s.lanes k t / 2 ^ l % 2 == 1 && !(s.dst.running.any fun r => r.kind == k && r.tile == t && r.lane == l)

/-- A lane's item is still work of its kind that has what it needs; an item that is gone leaves the lane idle. -/
def State.runStands (s : State) (r : LaneRun) : Bool :=
  match r.kind, r.item with
  | .fpl, .chunk j n => (s.job j).any fun x => !x.held && (x.chunkAt n).any fun c => c.st == .hash
  | .cmp, .pack i => (s.pack i).any fun p => p.st == .closed && p.copyOf.isNone
  | .enc, .pack i => (s.pack i).any fun p => p.st == .compressed
  | .dec, .pack i => (s.pack i).any fun p => p.st == .closed && p.copyOf.isSome
  | .dec, .read i => (s.med.rds.find? i).any fun x => x.env.isSome && x.plain.isNone
  | .dcp, .read i => (s.med.rds.find? i).any fun x => x.plain.isSome
  | _, _ => false

/-- Every free lane takes work where there is some for it. -/
def State.startLanes (s : State) : State :=
  if s.dst.jobs.isEmpty && s.dst.packs.isEmpty && s.med.rds.isEmpty && s.dst.running.isEmpty then s
  else
    let s := ({ s with dst := { s.dst with running := s.dst.running.filter s.runStands } } : State).emptyFlushed
    (List.range s.variant.tiles).foldl (fun s t =>
      [LaneKind.fpl, .cmp, .enc, .dec, .dcp].foldl (fun s k =>
        if (s.laneWork k t).isEmpty then s else (s.leaveLanes k t).foldl (fun s l => s.startLane k t l) s) s) s

/-! ## Decoders of the M-dies (R318, R344) -/

/-- All the bits that a codeword's next decode needs are there: the hard bits, for a soft decode all planes (R318). -/
def State.rawReady (s : State) (x : RawCw) : Bool :=
  (s.med.cws.find? x.id).any fun c => if c.step = 100 then x.planes == 7 else x.planes % 2 == 1

/-- Class of the codeword that raw bits belong to: 0 for class-0 codewords and their read-around (R344). -/
def State.rawClass (s : State) (x : RawCw) : Nat := ((s.med.cws.find? x.id).map fun c => if c.ro then 0 else c.cls).getD 7

/-- The codeword that takes an M-die's next hard decoder: of its 64, LDP_CTRL.C0_DEC are reserved to class 0 and read-around (R344); class
0 goes first, then classes 1 to 7 by the weights of R62. -/
def State.nextDecode (s : State) (die : Nat) : Option (RawCw × (Nat × Nat)) :=
  let hard := s.med.raws.filter fun x => cpDie x.cp == die && (s.med.cws.find? x.id).any fun c => c.step != 100
  let used := hard.filter RawCw.dec
  let waits := hard.filter fun x => !x.dec && s.rawReady x
  let turn := s.dst.turns.getD (2048 + die) (0, 0)
  if 64 ≤ used.length then none
  else match waits.find? fun x => s.rawClass x == 0 with
    | some x => some (x, turn)
    | none =>
      if 64 - min 32 (s.fld die Reg.LDP_CTRL_C0_DEC) ≤ (used.filter fun x => s.rawClass x != 0).length then none
      else match wrrNext 8 (s.cweight (dieF 0)) (fun c => waits.any fun x => s.rawClass x == c) turn with
        | some (c, turn) => (waits.find? fun x => s.rawClass x == c).map fun x => (x, turn)
        | none => none

/-- Codewords go into free hard decoders. -/
def State.fillDecoders (s : State) (die : Nat) : Nat → State
  | 0 => s
  | fuel + 1 => match s.nextDecode die with
    | some (x, turn) =>
      ({ s with med := { s.med with raws := s.med.raws.map fun y => if y.id = x.id then { y with dec := true } else y },
                dst := { s.dst with turns := s.dst.turns.insert (2048 + die) turn } } : State).fillDecoders die fuel
    | none => s

/-- Codewords whose bits are there are decoded: soft reads at once, the number of whose decoders the manual does not give. -/
def State.startDecodes (s : State) : State :=
  if s.med.raws.isEmpty then s
  else
    let soft := fun (x : RawCw) => (s.med.cws.find? x.id).any fun c => c.step == 100 && x.planes == 7
    let s := { s with med := { s.med with raws := s.med.raws.map fun x => if soft x then { x with dec := true } else x } }
    [dieM 0, dieM 1].foldl (fun s d => s.fillDecoders d s.med.raws.length) s

end Sys2Proof.Machine
end

