-- ==== Sys2Proof/Machine/Digest.lean ====
section
/-! DEFINITION. The digest and keyed-digest engines of the B-die and the tiles (spec/12). -/

namespace Sys2Proof.Machine

open Sys2Proof

/-! ## Registers and sessions -/

def dgeKey (die ses : Nat) : Nat := die * 4 + ses

/-- A session's register field. -/
def sesFld (ses : Nat) (f : Fld) : Fld := f.plus (ses * 0x100)

def State.dge (s : State) (die ses : Nat) : Option DgeSes := s.keys.dge.find? (dgeKey die ses)

def State.setDge (s : State) (die ses : Nat) (x : DgeSes) : State :=
  { s with keys := { s.keys with dge := s.keys.dge.insert (dgeKey die ses) x } }

def State.dropDge (s : State) (die ses : Nat) : State := { s with keys := { s.keys with dge := s.keys.dge.erase (dgeKey die ses) } }

/-- The die carries an engine, it runs, and the session exists. -/
def State.dgeOn (s : State) (die ses : Nat) : Bool :=
  s.variant.populated die && (die == 0 || decide (16 ≤ die)) && decide (ses < 4) && s.flag die Reg.DGE_CTRL_EN

/-- SES_STATUS and SES_COUNT as the session stands. -/
def State.showDge (s : State) (die ses : Nat) : State :=
  let f := sesFld ses
  match s.dge die ses with
  | none =>
    let s := (s.setFlag die (f Reg.SES_STATUS_OPEN) false).setFlag die (f Reg.SES_STATUS_BUSY) false
    s.setFlag die (f Reg.SES_STATUS_ARMED) false
  | some x =>
    let s := (s.setFlag die (f Reg.SES_STATUS_OPEN) true).setFlag die (f Reg.SES_STATUS_BUSY) x.feed.isSome
    let s := (s.setFlag die (f Reg.SES_STATUS_ARMED) x.armed.isSome).setFlag die (f Reg.SES_STATUS_TRUNC) x.trunc
    (s.setFlag die (f Reg.SES_STATUS_TAPFAULT) x.tapFault).setFld die (f Reg.SES_COUNT_COUNT) x.count

/-- An operation ends: DONE and ERR (R549). -/
def State.dgeEnd (s : State) (die ses err : Nat) : State :=
  ((s.setFlag die (sesFld ses Reg.SES_STATUS_DONE) true).setFld die (sesFld ses Reg.SES_STATUS_ERR) err).showDge die ses

def cfgOf (x : DgeSes) (f : Fld) : Nat := bitsAt x.cfg f.lo f.w
def DgeSes.alg (x : DgeSes) : Nat := cfgOf x Reg.SES_CFG_ALG
def DgeSes.pad (x : DgeSes) : Bool := cfgOf x Reg.SES_CFG_PAD == 1
def DgeSes.declEn (x : DgeSes) : Bool := cfgOf x Reg.SES_CFG_DECL_EN == 1

/-- Bytes enter a session (R527, R534): beyond a declared length they are discarded, and TRUNC is set. -/
def DgeSes.feedBytes (x : DgeSes) (l : Bytes) : DgeSes :=
  let room := x.decl - x.count
  let excess := x.declEn && decide (room < l.length)
  let take := if excess then l.take room else l
  let (st, buf) := digestAbsorb x.alg ((x.buf ++ take).length / digestBlock x.alg + 1) x.st (x.buf ++ take)
  { x with st := st, buf := buf, count := x.count + take.length, trunc := x.trunc || excess }

/-- A PAD = 1 session whose count has reached LEN completes (R533, R541). -/
def DgeSes.settle (x : DgeSes) : DgeSes :=
  if x.pad && decide (x.decl ≤ x.count) then { x with ending := true, armed := none } else x

/-- An operation on an open session that has not completed; on a closed one it ends with ERR = 1. -/
def State.withDge (s : State) (die ses : Nat) (k : DgeSes → State) : State :=
  if !s.dgeOn die ses then s
  else match s.dge die ses with
  | some x => if x.ending then s.dgeEnd die ses 1 else k x
  | none => s.dgeEnd die ses 1

/-! ## Opening and feeding (R531 to R536, R538, R544, R545) -/

def resFld (r : Nat) (f : Fld) : Fld := f.plus (r * 0x80)

/-- DGE_START. -/
def execDgeStart (die ses : Nat) (s : State) : Res :=
  if !s.dgeOn die ses then .next s
  else
    let f := fun x => s.fld die (sesFld ses x)
    let alg := f Reg.SES_CFG_ALG
    let pad := f Reg.SES_CFG_PAD == 1
    let en := f Reg.SES_CFG_DECL_EN == 1
    let len := f Reg.SES_DECL_LEN
    let out := f Reg.SES_CFG_OUTLEN
    let r := f Reg.SES_CFG_RSLOT
    let slot := s.keys.slots.find? (die * 16 + f Reg.SES_CFG_SLOT)
    let taken := (List.range 4).any fun n => n != ses && (match s.dge die n with
      | some y => cfgOf y Reg.SES_CFG_RSLOT == r
      | none => false)
    if (s.dge die ses).isSome || !digestKnown alg || (alg == 7 && (out == 0 || decide (64 < out))) || (pad && !en) then
      .next (s.dgeEnd die ses 1)
    else if digestKeyed alg && !((slot.map fun k => k.alg == alg).getD false) then .next (s.dgeEnd die ses 2)
    else if s.flag die (resFld r Reg.RES_INFO_LOCKED) || taken then .next (s.dgeEnd die ses 5)
    else
      let st := match slot, digestKeyed alg with
        | some k, true => (k.icv, k.ocv)
        | _, _ => (digestInit alg, [])
      let x : DgeSes := { cfg := s.reg die 0x37 (0x1000 + ses * 0x100), decl := len, st := st.1, ocv := st.2, buf := [], count := 0,
                          trunc := false, short := false, tapFault := false, armed := none, feed := none, finish := false,
                          ending := false }
      let s := s.setFlag die (resFld r Reg.RES_INFO_VALID) false
      .next ((s.setDge die ses x.settle).dgeEnd die ses 0)

/-- DGE_DATA: 8 bytes by a SES_DATA write; while a FEED runs or a tap is armed it is discarded with ERR = 4 (R531). -/
def execDgeData (die ses : Nat) (val : Word) (s : State) : Res :=
  .next (s.withDge die ses fun x =>
    if x.feed.isSome || x.armed.isSome then s.dgeEnd die ses 4
    else ((s.setDge die ses (x.feedBytes (le 8 val.toNat)).settle)).showDge die ses)

/-- DGE_LAST: the first SES_LAST_VB bytes are the last of a PAD = 0 message (R533). In a PAD = 1 session they are bytes like
any other. -/
def execDgeLast (die ses : Nat) (val : Word) (s : State) : Res :=
  .next (s.withDge die ses fun x =>
    if x.feed.isSome || x.armed.isSome then s.dgeEnd die ses 4
    else
      let y := x.feedBytes ((le 8 val.toNat).take (min 8 (s.fld die (sesFld ses Reg.SES_LAST_VB_VB))))
      (s.setDge die ses (if x.pad then y.settle else { y with ending := true })).dgeEnd die ses 0)

/-- DGE_FEED: a DMA of SES_LEN bytes at SES_ADDR begins (R531). -/
def execDgeFeed (die ses : Nat) (s : State) : Res :=
  .next (s.withDge die ses fun x =>
    if x.feed.isSome || x.armed.isSome then s.dgeEnd die ses 4
    else (s.setDge die ses { x with feed := some (s.fld die (sesFld ses Reg.SES_ADDR_ADDR), s.fld die (sesFld ses Reg.SES_LEN_LEN)) }).showDge
      die ses)

/-- First access of an engine's DMA that is not permitted: address and cause. The B-die's engine has no window unit. -/
def State.dgeFault (s : State) (die addr len : Nat) (k : AccKind) : Option (Nat × Nat) :=
  if die = 0 then none else s.rangeFault (die - 16) 11 addr len k

/-- The channel of a session freezes at a window fault (R561). -/
def State.dgeFreeze (s : State) (die ses addr : Nat) (k : AccKind) (cause : Nat) : State :=
  if die = 0 then s else s.channelFault (die - 16) 11 ses addr k cause

/-- The end of a FEED, and of a FINISH that waited for it (R533, R536). -/
def DgeSes.fedSettle (x : DgeSes) : DgeSes :=
  let y := { x with feed := none }.settle
  if y.ending || !x.finish then { y with finish := false } else { y with finish := false, ending := true, short := true }

/-- DGE_FEED_DONE: the bytes are hashed; at a window fault those before it, with ERR = 7 (R532). A FINISH that waits, and a LEN that is
reached, take effect at either end (R533, R536; log entry 227). -/
def execDgeFeedDone (die ses : Nat) (s : State) : Res :=
  match s.dge die ses with
  | none => .next s
  | some x => match x.feed with
    | none => .next s
    | some (a, n) => match s.dgeFault die a n .read with
      | none => .next ((s.setDge die ses (x.feedBytes (s.loads a n)).fedSettle).dgeEnd die ses 0)
      | some (at_, c) =>
        let y := (x.feedBytes (s.loads a (at_ - a))).fedSettle
        .next (((s.setDge die ses y).dgeEnd die ses 7).dgeFreeze die ses at_ .read c)

/-- DGE_FINISH: a PAD = 1 session below LEN completes at its count, with SHORT; while a FEED runs it waits (R536). In a PAD = 0
session it has no message to end and changes nothing. -/
def execDgeFinish (die ses : Nat) (s : State) : Res :=
  .next (s.withDge die ses fun x =>
    if !x.pad then s.dgeEnd die ses 0
    else if x.feed.isSome then (s.setDge die ses { x with finish := true }).dgeEnd die ses 0
    else (s.setDge die ses { x with ending := true, short := true, armed := none }).dgeEnd die ses 0)

/-- DGE_ABORT: the session closes without a result. -/
def execDgeAbort (die ses : Nat) (s : State) : Res :=
  if !s.dgeOn die ses then .next s else .next ((s.dropDge die ses).dgeEnd die ses 0)

/-! ## Snoop taps (R540 to R543) -/

/-- DGE_ARM: one session per TAPID of a tap; not while a FEED runs (R531, R541). The B-die has tap 0 and no TAPID. -/
def execDgeArm (die ses tap tapid : Nat) (s : State) : Res :=
  .next (s.withDge die ses fun x =>
    let id := if die = 0 then 0 else tapid
    let taken := (List.range 4).any fun n => (match s.dge die n with
      | some y => y.armed == some (tap, id)
      | none => false)
    if die = 0 ∧ tap ≠ 0 then s.dgeEnd die ses 6
    else if x.feed.isSome || x.armed.isSome || taken then s.dgeEnd die ses 4
    else (s.setDge die ses { x with armed := some (tap, id) }).dgeEnd die ses 0)

/-- DGE_DISARM (R541): transfers are single commands of this model, so none is in progress. -/
def execDgeDisarm (die ses : Nat) (s : State) : Res :=
  .next (s.withDge die ses fun x => (s.setDge die ses { x with armed := none }).dgeEnd die ses 0)

/-- DGE_TAP_TRANSFER: the bytes that were delivered; `whole` is false where the transfer ended with a fault (R543). -/
def execDgeTapTransfer (die tap tapid : Nat) (bytes : Bytes) (whole : Bool) (s : State) : Res :=
  let id := if die = 0 then 0 else tapid
  match (List.range 4).find? fun n => (match s.dge die n with
      | some y => y.armed == some (tap, id) && !y.ending
      | none => false) with
  | none => .next s
  | some n => match s.dge die n with
    | none => .next s
    | some x =>
      let y := x.feedBytes bytes
      .next ((s.setDge die n ({ y with tapFault := y.tapFault || !whole }).settle).showDge die n)

/-! ## Results (R544, R545) -/

/-- Write a result slot: the digest and RES_INFO, VALID last; SEQ counts, the slot may lock. -/
def State.putResult (s : State) (die r alg : Nat) (d : Bytes) (trunc short tapFault lock : Bool) (count : Nat) : State :=
  let f := resFld r
  let s := (List.range 8).foldl (fun s k => s.setFld die (f (Reg.RES_D_BYTES.plus (8 * k))) (leAt d (8 * k) 8)) s
  let s := (s.setFld die (f Reg.RES_INFO_ALG) alg).setFlag die (f Reg.RES_INFO_TRUNC) trunc
  let s := (s.setFlag die (f Reg.RES_INFO_SHORT) short).setFlag die (f Reg.RES_INFO_TAPFAULT) tapFault
  let s := (s.setFld die (f Reg.RES_INFO_LEN) count).setFlag die (f Reg.RES_INFO_LOCKED) lock
  (s.addFld die (f Reg.RES_INFO_SEQ) 1).setFlag die (f Reg.RES_INFO_VALID) true

/-- DGE_RESULT: the digest and RES_INFO, VALID last; SEQ counts, the slot may lock, the session closes. -/
def execDgeResult (die ses : Nat) (s : State) : Res :=
  match s.dge die ses with
  | none => .next s
  | some x =>
    if !x.ending then .next s
    else
      let alg := x.alg
      let n := digestLen alg (cfgOf x Reg.SES_CFG_OUTLEN)
      let total := x.count + (if digestKeyed alg then digestBlock alg else 0)
      let inner := digestEnd alg n x.st x.buf total
      let d := padTo 64 (if digestKeyed alg then digestOuter alg x.ocv inner else inner)
      let r := cfgOf x Reg.SES_CFG_RSLOT
      let s := s.putResult die r alg d x.trunc x.short x.tapFault (cfgOf x Reg.SES_CFG_RLOCK == 1) x.count
      let s := s.setFlag die (sesFld ses Reg.SES_STATUS_DONE) true
      .next ((s.dropDge die ses).showDge die ses)

/-! ## Saving a session (R546 to R548) -/

/-- The 384-byte context (R547). -/
def DgeSes.context (x : DgeSes) : Bytes :=
  let sponge := digestSponge x.alg
  let tail := x.buf.drop 88
  let state := if sponge then padTo 200 x.st else padTo 64 x.st ++ padTo 136 tail
  let ocv := if sponge then padTo 64 tail else padTo 64 x.ocv
  le 8 x.cfg.toNat ++ le 6 x.decl ++ le 1 ((if x.trunc then 1 else 0) + (if digestKeyed x.alg then 2 else 0)) ++
    le 1 x.buf.length ++ state ++ ocv ++ padTo 88 (x.buf.take 88) ++ le 16 x.count

/-- The session that a context describes. -/
def contextSes (l : Bytes) : DgeSes :=
  let cfg : Word := BitVec.ofNat 64 (leAt l 0 8)
  let alg := bitsAt cfg 0 4
  let nbuf := leAt l 15 1
  let sponge := digestSponge alg
  let state := (l.drop 16).take 200
  let tail := if sponge then (l.drop 216).take 64 else state.drop 64
  let stLen := if sponge then 200 else if digestBlock alg = 64 then 32 else 64
  { cfg := cfg, decl := leAt l 8 6, st := state.take stLen, ocv := if sponge then [] else ((l.drop 216).take 64).take stLen,
    buf := ((l.drop 280).take 88 ++ tail).take nbuf, count := leAt l 368 16, trunc := leAt l 14 1 % 2 == 1, short := false,
    tapFault := false, armed := none, feed := none, finish := false, ending := false }

/-- A save: an open session neither BUSY nor armed; the bytes go to SES_ADDR and the session closes (R546). -/
def State.dgeSave (s : State) (die ses : Nat) (ok : DgeSes → Bool) (f : DgeSes → Bytes) : State :=
  if !s.dgeOn die ses then s
  else match s.dge die ses with
  | none => s.dgeEnd die ses 6
  | some x =>
    if x.ending || x.feed.isSome || x.armed.isSome || !ok x then s.dgeEnd die ses 6
    else
      let a := s.fld die (sesFld ses Reg.SES_ADDR_ADDR)
      let b := f x
      match s.dgeFault die a b.length .write with
      | some (at_, c) => (s.dgeEnd die ses 7).dgeFreeze die ses at_ .write c
      | none => ((s.stores a b).dropDge die ses).dgeEnd die ses 0

/-- DGE_SAVE_CLEAR: only for unkeyed algorithms. -/
def execDgeSaveClear (die ses : Nat) (s : State) : Res := .next (s.dgeSave die ses (fun x => !digestKeyed x.alg) DgeSes.context)

/-- DGE_SAVE_WRAPPED: under the engine's context key. -/
def execDgeSaveWrapped (die ses : Nat) (s : State) : Res :=
  .next (s.dgeSave die ses (fun _ => true) fun x => kwpWrap (s.ctxKey die 1) x.context)

/-- DGE_RESTORE: into a closed session; a wrapped context is checked (R546, R548). -/
def execDgeRestore (die ses : Nat) (wrapped : Bool) (s : State) : Res :=
  if !s.dgeOn die ses then .next s
  else if (s.dge die ses).isSome then .next (s.dgeEnd die ses 6)
  else
    let a := s.fld die (sesFld ses Reg.SES_ADDR_ADDR)
    let n := if wrapped then 392 else 384
    match s.dgeFault die a n .read with
    | some (at_, c) => .next ((s.dgeEnd die ses 7).dgeFreeze die ses at_ .read c)
    | none =>
      match (if wrapped then kwpUnwrap (s.ctxKey die 1) (s.loads a n) else some (s.loads a n)) with
      | none => .next (s.dgeEnd die ses 3)
      | some b =>
        if digestKnown (contextSes b).alg && decide (b.length = 384) then .next ((s.setDge die ses (contextSes b)).dgeEnd die ses 0)
        else .next (s.dgeEnd die ses 6)

/-! ## Key slots (R537, R539) -/

def State.slotEnd (s : State) (die err : Nat) : State :=
  let valid := (List.range 16).foldl (fun n i => if s.keys.slots.has (die * 16 + i) then n + 2 ^ i else n) 0
  ((s.setFlag die Reg.DGE_SLOTRES_DONE true).setFld die Reg.DGE_SLOTRES_ERR err).setFld die Reg.DGE_SLOTRES_VALID valid

/-- Load a slot from a key. -/
def State.loadSlot (s : State) (die slot alg : Nat) (key : Bytes) : State :=
  let (i, o) := digestKey alg key
  ({ s with keys := { s.keys with slots := s.keys.slots.insert (die * 16 + slot % 16) { alg := alg, icv := i, ocv := o } } }).slotEnd die 0

def slotAlg (alg : Nat) : Bool := alg == 9 || alg == 0xA || alg == 0xB

def keyLen (n : Nat) : Nat := if n = 0 then 128 else n

/-- DGE_SLOT_LOAD_CLEAR: only while CLEAR_KEY_EN is 1. -/
def execDgeSlotLoadClear (die slot alg keylen : Nat) (s : State) : Res :=
  if !s.dgeOn die 0 then .next s
  else if !s.flag die Reg.DGE_CTRL_CLEAR_KEY_EN then .next (s.slotEnd die 6)
  else if !slotAlg alg || decide (128 < keyLen keylen) then .next (s.slotEnd die 1)
  else
    let key := (List.range 16).flatMap fun i => le 8 (s.wo.getD (regKey die 0x37 (0x100 + 8 * i)) 0).toNat
    .next (s.loadSlot die slot alg (key.take (keyLen keylen)))

/-- DGE_SLOT_LOAD_WRAPPED: a KWP under the AWK at DGE_SLOTSRC, on a tile (R539). -/
def execDgeSlotLoadWrapped (die slot alg keylen : Nat) (s : State) : Res :=
  if !s.dgeOn die 0 then .next s
  else if die = 0 then .next (s.slotEnd die 6)
  else if !slotAlg alg || decide (128 < keyLen keylen) then .next (s.slotEnd die 1)
  else
    let a := s.fld die Reg.DGE_SLOTSRC_ADDR
    let n := roundUp (keyLen keylen) 8 + 8
    match s.dgeFault die a n .read with
    | some (at_, c) => .next ((s.slotEnd die 7).dgeFreeze die 0 at_ .read c)
    | none => match (s.awkOf (die - 16)).bind fun k => kwpUnwrap k (s.loads a n) with
      | some key => .next (s.loadSlot die slot alg key)
      | none => .next (s.slotEnd die 3)

/-- DGE_SLOT_LOAD_DERIVED: the digest key of a label, on the B-die (R586). -/
def execDgeSlotLoadDerived (die slot alg label : Nat) (s : State) : Res :=
  if !s.dgeOn die 0 then .next s
  else if die ≠ 0 then .next (s.slotEnd die 6)
  else if !slotAlg alg then .next (s.slotEnd die 1)
  else .next (s.loadSlot die slot alg (derive (ascii "VX8-DGE" ++ le 2 label ++ s.wrapGen) (if alg = 9 then 32 else 64)))

/-- DGE_SLOT_CLEAR. -/
def execDgeSlotClear (die slot : Nat) (s : State) : Res :=
  if !s.dgeOn die 0 then .next s
  else .next ({ s with keys := { s.keys with slots := s.keys.slots.erase (die * 16 + slot % 16) } }.slotEnd die 0)

end Sys2Proof.Machine
end

