-- ==== Sys2Proof/Machine/Time.lean ====
section
/-! DEFINITION. The module time base (spec/01): its advance, its sources, samples, steps and rate corrections (R35 to R45,
R715). -/

namespace Sys2Proof.Machine

open Sys2Proof

/-! ## Advance -/

/-- Largest rate correction in ppm (R44): 0 acts as 1, values above 0xC8 as 0xC8. -/
def State.slewMax (s : State) : Nat := max 1 (min 0xC8 (s.fld dieB Reg.TBS_CTRL_SLEW_PPM))

/-- The rate correction in force: a free value not above SLEW_PPM and not 0, so that some correction always remains (R36). -/
def State.slew (s : State) : Nat := max 1 (min s.slewMax (Config.slewRate s.time.ticks))

/-- One nanosecond of the module reference clock: the count rises by 1, and by 1 more or none where the rate correction has
gathered a nanosecond (R36: it never decreases). -/
def State.tickTime (s : State) : State :=
  let t := { s.time with ticks := s.time.ticks + 1 }
  if t.corr = 0 then { s with ao := { s.ao with tb := (s.ao.tb + 1) % tbMod }, time := { t with acc := 0 } }
  else
    let acc := t.acc + s.slew
    if acc < 1000000 then { s with ao := { s.ao with tb := (s.ao.tb + 1) % tbMod }, time := { t with acc := acc } }
    else
      let up : Bool := decide ((0 : Int) < t.corr)
      let adj : Int := if up then 1 else -1
      { s with ao := { s.ao with tb := (if up then s.ao.tb + 2 else s.ao.tb) % tbMod },
               time := { t with acc := acc - 1000000, corr := t.corr - adj } }

/-- TIME_MESSAGE (R35): the B-die sends its count to every island, and each island corrects its local copy. -/
def execTimeMessage (s : State) : Res := .next { s with time := { s.time with synced := s.time.ticks } }

/-! ## Samples -/

/-- Drop a sample: REJECT is set (R45). -/
def State.rejectSample (s : State) : State := s.setFlag dieB Reg.TBS_STATUS_REJECT true

/-- Drive the offset of the current source towards 0 by rate (R36), and show it (R44). -/
def State.discipline (s : State) (r : TimeRef) (off : Int) : State :=
  if s.fld dieB Reg.TBS_STATUS_SOURCE = r.code then { s with time := { s.time with corr := -off, acc := 0 } } else s

/-- What is kept of a source at a sample, and the source chosen then; OFFSET is that of the current source (R37, R44). -/
def State.heard (s : State) (r : TimeRef) (x : TimeSrc) (off : Int) : State :=
  let s := ({ s with time := { s.time.setSrc r x with everLocked := s.time.everLocked || x.locked } } : State).selectSource
  if s.fld dieB Reg.TBS_STATUS_SOURCE = r.code then s.setFld dieB Reg.TBS_STATUS_OFFSET (ofInt 32 off) else s

/-- One sample of a source with the offset of the time base from it (R36 to R38, R44, R45, R715). Before the first entry to TWIN or SOLO
a head at cold boot without a partner steps to its first source. After it, a PTP or partner sample more than 1 µs off is rejected once
the source has come within 1 µs, and eight in a row shut the source out; a PTP or 1PPS source that is new since the entry, or has not come
within 1 µs since it, is recorded at its first sample. -/
def State.sample (s : State) (r : TimeRef) (off : Int) : State :=
  let x := (s.time.src r).judge s.ao.tb off
  let far : Bool := !(decide (-1000 ≤ off) && decide (off ≤ 1000))
  if !s.srcEnabled r || x.dead then s
  else if !s.time.entered then
    let s : State := s.heard r { x with seen := true } off
    if r ≠ .partner ∧ !s.time.stepped ∧ s.pair.partner.isNone ∧ s.fld dieB Reg.TBS_STATUS_SOURCE = r.code then
      { s.stepTime off with time := { (s.stepTime off).time with stepped := true } }
    else if r = .partner then s
    else s.discipline r off
  else if far && x.within && r != .pps then
    let n := x.rejects + 1
    ((s.heard r { x with rejects := n, dead := decide (8 ≤ n) } off).rejectSample).event dieB 0x08 1 noInst
  else
    let new := r != .partner && !x.sampled && (far || !x.seen)
    let s := if new then s.event dieB 0x08 2 noInst else s
    (s.heard r { x with seen := true, sampled := true, within := x.within || !far, rejects := 0 } off).discipline r off

/-! ## Commands -/

/-- PTP_SYNC_SAMPLE (R715): a Sync whose origin time is `origin` arrives now; `twoStep` says what its master is and `followUp`
whether its Follow_Up has come. It yields a sample once a delay exchange has completed. -/
def execPtpSyncSample (origin : Nat) (twoStep followUp : Bool) (s : State) : Res :=
  if twoStep && !followUp then .next s
  else
    let t2 := s.ao.tb
    let s := { s with time := { s.time with lastSync := some (origin, t2) } }
    match s.time.meanDelay with
    | none => .next s
    | some d => .next (s.sample .ptp ((t2 : Int) - origin - d))

/-- DELAY_REQ_SEND (R715). -/
def execDelayReqSend (s : State) : Res :=
  if s.flag dieB Reg.TBS_CTRL_PTP_EN then
    .next ({ s with time := { s.time with reqSent := some s.ao.tb } }.emit .delayReq)
  else .next s

/-- PTP_DELAY_RESP (R715): the master received the Delay_Req at `received`; the exchange of IEEE 1588-2019 gives the mean path
delay. -/
def execPtpDelayResp (received : Nat) (s : State) : Res :=
  match s.time.reqSent, s.time.lastSync with
  | some t3, some (t1, t2) =>
    let d : Int := (((t2 : Int) - t1) + ((received : Int) - t3)) / 2
    .next { s with time := { s.time with meanDelay := some d, reqSent := none } }
  | _, _ => .next s

/-- The order of the best master clock algorithm of IEEE 1588-2019 (PRESUMED, log entry 193): the attributes in turn, then the identity;
of two ways to one grandmaster, the one with fewer steps. -/
def PtpDs.better (a b : PtpDs × Nat) : Bool :=
  let key := fun (d : PtpDs × Nat) => [d.1.prio1, d.1.cls, d.1.accuracy, d.1.variance, d.1.prio2, d.1.id, d.2]
  match ((key a).zip (key b)).find? fun p => p.1 != p.2 with
  | some p => decide (p.1 < p.2)
  | none => false

/-- PTP_ANNOUNCE (R45): an Announce with its grandmaster's attributes and the steps removed. A better grandmaster takes the place of the
present one, and a change of identity is recorded; the present one's own attributes are followed. -/
def execPtpAnnounce (gm : PtpDs) (steps : Nat) (s : State) : Res :=
  let put : State := { s with time := { s.time with gm := some (gm, steps) } }
  match s.time.gm with
  | none => .next put
  | some g =>
    if g.1.id = gm.id then .next put
    else if PtpDs.better (gm, steps) g then .next (put.event dieB 0x08 4 noInst) else .next s

/-- The whole second nearest to a time; half-way counts to the later one (R715). -/
def nearestSecond (t : Nat) : Nat := (t + 500000000) / 1000000000 * 1000000000

/-- PPS_IN_EDGE (R715, R45): a rising edge of 1PPS in. An edge closer than 999 ms to the last, or farther than 1,001 ms, is
ignored. -/
def execPpsInEdge (s : State) : Res :=
  let now := s.ao.tb
  let ok := match s.time.lastPps with
    | none => true
    | some t => decide (999000000 ≤ now - t) && decide (now - t ≤ 1001000000)
  let s := { s with time := { s.time with lastPps := some now } }
  if ok then .next (s.sample .pps ((now : Int) - nearestSecond now))
  else .next (s.rejectSample.event dieB 0x08 3 noInst)

/-- PARTNER_TIME_TIMEOUT (R45): no partner exchange for 1 ms while the partner is in TWIN. -/
def execPartnerTimeTimeout (s : State) : Res :=
  if s.pair.head = .twin ∧ s.pair.partner = some .twin ∧ !s.time.partnerStale ∧ 1000000 ≤ s.since s.time.lastExch then
    .next (({ s with time := { s.time with partnerStale := true } }.selectSource).event dieB 0x08 6 noInst)
  else .next s

/-- PPS_OUT_EDGE (R715): 1PPS out rises at a whole second of the time base while PPS_OUT_EN is 1. -/
def execPpsOutEdge (s : State) : Res :=
  if s.flag dieB Reg.TBS_CTRL_PPS_OUT_EN && s.ao.tb % 1000000000 == 0 then .next (s.emit .ppsOut) else .next s

/-- What a TIME exchange leaves in the time base: when it was, whether the partner has a source, and that the offset is measured. -/
def State.noteExchange (s : State) (rtt : Nat) (hasSource : Bool) : State :=
  { s with time := { s.time with lastExch := s.ao.tb, partnerStale := false, partnerHasSource := hasSource,
                                 measured := s.time.measured || decide (rtt ≤ 2000) } }

/-- A TIME exchange has completed with the partner (R40, R45, R715): leadership passes at it, a round trip above 2 µs rejects
the sample without counting. -/
def State.timeExchange (s : State) (off : Int) (rtt : Nat) (hasSource : Bool) : State :=
  let s := s.setFld dieB Reg.TBS_PARTNER_OFFSET (ofInt 32 off)
  let s := s.setFld dieB Reg.TBS_PARTNER_ROUND_TRIP rtt
  let s := s.noteExchange rtt hasSource
  let s := if s.pair.head = .twin then s.setFlag dieB Reg.TBS_STATUS_LEADER s.leads else s
  let s := s.selectSource
  if 2000 < rtt then s.rejectSample
  else if s.follower || !s.time.entered then s.sample .partner off
  else s

end Sys2Proof.Machine
end

