-- ==== Sys2Proof/Machine/Power.lean ====
section
/-! DEFINITION. Power, reset and start-up (spec/16): supply, warnings, the journal dump's end, the power-down hold, and the reset
sources. -/

namespace Sys2Proof.Machine

open Sys2Proof

/-! ## Counter log and trip records in NOR (R648, R656) -/

/-- The present counters as an entry. -/
def State.counterEnt (s : State) : CounterEnt :=
  { hours := s.ao.hours, seconds := s.ao.seconds, pcycle := s.ao.pcycle, seq := 0 }

/-- Append an entry: when a sector of 8,192 entries is full, the other is erased and written next (R656). -/
def Nor.appendCounter (n : Nor) (e : CounterEnt) : Nor :=
  let e := { e with seq := n.ctrSeq }
  let n := { n with ctrSeq := n.ctrSeq + 1 }
  if n.inB then
    if n.ctrB.length < 8192 then { n with ctrB := n.ctrB ++ [e] } else { n with ctrA := [e], inB := false }
  else
    if n.ctrA.length < 8192 then { n with ctrA := n.ctrA ++ [e] } else { n with ctrB := [e], inB := true }

/-- Log the counters; outside the NOR window the entry waits in the always-on island (R649). -/
def State.logCounters (s : State) : State :=
  if s.norWindow && s.ao.heldCounters.isEmpty then { s with nor := s.nor.appendCounter s.counterEnt }
  else { s with ao := { s.ao with heldCounters := s.ao.heldCounters ++ [s.counterEnt] } }

/-- The entry with the highest sequence number. -/
def Nor.lastCounter (n : Nor) : Option CounterEnt :=
  (n.ctrA ++ n.ctrB).foldl (fun best e => match best with
    | none => some e
    | some b => if b.seq < e.seq then some e else some b) none

/-- Trip records the region holds (R648). -/
def tripSlots : Nat := 15360

/-- Append a trip record; one that cannot be written is held, up to 4, and counted when no place is left (R648). -/
def State.logTrip (s : State) (r : TripRec) : State :=
  if s.norWindow && decide (s.nor.trips.length < tripSlots) && s.ao.heldTrips.isEmpty then
    { s with nor := { s.nor with trips := s.nor.trips ++ [r] } }
  else if s.ao.heldTrips.length < 4 then { s with ao := { s.ao with heldTrips := s.ao.heldTrips ++ [r] } }
  else { s with ao := { s.ao with tripsLost := s.ao.tripsLost + 1 } }

/-- Latch a trip, write its record and its event (R646 steps 4 and 5, R717). -/
def State.finishTrip (s : State) (r : TripRec) : State :=
  let s := { s with ao := { s.ao with tripLatched := true } }
  let n := s.nor.trips.length
  let s := s.logTrip r
  let idx := if n < s.nor.trips.length then n else 0xFFFFFFFF
  s.mfwEvent 0x0023 (le 1 r.cause ++ le 1 r.die ++ le 2 (ofInt 16 r.temp) ++ le 2 (ofInt 16 r.rate) ++ le 4 idx)

/-- Write what waits for the NOR window: event records, trip records while the area has room, counter entries (R648, R649). -/
def State.norFlush (s : State) : State :=
  if !s.norWindow then s
  else
    let s := s.writeHeld
    let room := tripSlots - s.nor.trips.length
    let s := { s with nor := { s.nor with trips := s.nor.trips ++ s.ao.heldTrips.take room },
                      ao := { s.ao with heldTrips := s.ao.heldTrips.drop room } }
    { s with nor := s.ao.heldCounters.foldl Nor.appendCounter s.nor, ao := { s.ao with heldCounters := [] } }

/-! ## Loss of power -/

/-- Power leaves every die except the B-die: their domains are reset, the B domain keeps its registers (R646). -/
def State.powerDownDies (s : State) : State :=
  let t := s.headReset (s.fld dieB Reg.PWR_STATUS_LAST_CAUSE)
  { t with regs := (s.regs.keep fun k _ => k / 2 ^ 32 == 0) ++ (t.regs.keep fun k _ => k / 2 ^ 32 != 0),
           wo := s.wo.keep (fun k _ => k / 2 ^ 32 == 0), thm := s.thm, boot := s.boot,
           keys := { t.keys with dge := s.keys.dge.keep (fun k _ => k / 4 == 0), slots := s.keys.slots.keep (fun k _ => k / 16 == 0),
                                 ctx := t.keys.ctx.insert 0 (s.keys.ctx.getD 0 s.keys.ctxBase) },
           pair := { t.pair with head := s.pair.head, faulted := s.pair.faulted } }

/-- The B-die loses power: OFF, whatever the state was (R113). -/
def State.powerLoss (s : State) : State :=
  let t := s.headReset (s.fld dieB Reg.PWR_STATUS_LAST_CAUSE)
  let t := { t with ao := { t.ao with bPower := false } }
  (t.setFlag dieB Reg.PWR_STATUS_PWR_GOOD false).enter .off

/-! ## The end of a dump -/

/-- Records not yet released, in ascending SEQ. -/
def unreleased (m : SMap JEnt) : List JRec := m.vals.map JEnt.r

/-- DUMPID of the dump in progress (R672). -/
def State.dumpId (s : State) : Nat := s.ao.pcycle * 2 ^ 40 + s.ao.dumps

/-- The blocks of the dump reserve that take programs, in rotation over their carriers (R671). -/
def State.dumpBlocks (s : State) : List Nat :=
  let l := s.ftl.dumpRes.filter fun b => s.cpOpen (mCp b)
  (List.range l.length).flatMap fun i => (l.map mCp).eraseDups.filterMap fun cp => (l.filter fun b => mCp b == cp)[i]?

/-- The dump header of block `no` (R672). -/
def DumpImage.header (d : DumpImage) (side no : Nat) : Bytes :=
  let h := le 4 0x56444D50 ++ le 1 side ++ le 1 (if d.warm then 1 else 0) ++ le 2 no ++ le 8 d.dumpid ++ le 4 d.epoch ++ le 8 d.time ++
    zeros 4064
  h ++ le 4 (crc32c h).toNat

/-- An end marker after `n` records; that of the last block carries FINAL and the dump's count (R672). -/
def endMarker (n : Nat) (total : Option Nat) : Bytes :=
  let h := le 4 0x5644454E ++ le 4 n ++ le 1 (if total.isSome then 1 else 0) ++ zeros 3 ++ le 4 (total.getD 0) ++ zeros 108
  h ++ le 4 (crc32c h).toNat

/-- The records that fit in a number of bytes, and the others. -/
def fillBlock : Nat → List JRec → List JRec × List JRec
  | _, [] => ([], [])
  | room, r :: l => if r.size ≤ room then (let x := fillBlock (room - r.size) l; (r :: x.1, x.2)) else ([], r :: l)

/-- Records packed into blocks with room for so many bytes each; no record crosses a block (R672). -/
def packDump : List Nat → List JRec → List (List JRec)
  | [], _ => []
  | c :: cs, l => let x := fillBlock c l; x.1 :: (if x.2.isEmpty then [] else packDump cs x.2)

/-- What the blocks of a dump hold: header, records, and the end marker, which the last block has only in a whole dump. -/
def DumpImage.blocks (d : DumpImage) (side : Nat) (packed : List (List JRec)) : List Bytes :=
  let total := packed.flatten.length
  (List.zip (List.range packed.length) packed).map fun x =>
    let last := x.1 + 1 == packed.length
    d.header side x.1 ++ x.2.flatMap JRec.bytes ++
      (if last && !d.final then [] else endMarker x.2.length (if last then some total else none))

/-- Record the dump's result and what its blocks hold. `n` of its records were programmed, own half first; `whole` says that
the FINAL marker was; `fenced` that it ended on FENCED replies; `lost` lists SEQ of own and mirror records in a stack that
raised an uncorrectable error, which are left out. Without a reserve block that takes programs nothing is written (R670 to R673, R679). -/
def State.closeDump (s : State) (d : Dump) (n : Nat) (whole fenced : Bool) (lostOwn lostMirror : List Nat) : State :=
  let own := (unreleased s.jrnl.own).filter fun r => !lostOwn.contains r.seq
  let mir := (unreleased s.jrnl.mirror).filter fun r => !lostMirror.contains r.seq
  let blks := s.dumpBlocks
  let packed := packDump (blks.map fun b => s.slcPages b * 65536 - 4224) (if whole then own ++ mir else (own ++ mir).take n)
  let put := packed.flatten
  let whole := whole && !blks.isEmpty && put.length == own.length + mir.length
  let own' := put.take own.length
  let mir' := put.drop own.length
  let bytes := (own' ++ mir').foldl (fun k r => k + r.size) 0
  let img : DumpImage := { dumpid := s.dumpId, epoch := s.epoch, time := d.tw, warm := d.warm, own := own', mirror := mir',
                           final := whole }
  let s := if blks.isEmpty then s else
    (List.zip blks (img.blocks s.side packed)).foldl (fun s x => s.emit (.dumpBlock x.1 x.2))
      { s with nand := { s.nand with dumps := s.nand.dumps.insert s.side img } }
  let s := s.setFld dieB Reg.PWR_DUMP_KIB (bytes / 1024)
  let s := s.setFld dieB Reg.PWR_DUMP_DURATION_US (s.since d.tw / 1000)
  let s := s.setFlag dieB Reg.PWR_DUMP_COMPLETE whole
  let s := s.setFlag dieB Reg.PWR_DUMP_FENCED fenced
  let s := s.setFlag dieB Reg.PWR_DUMP_SKIPPED (!lostOwn.isEmpty || !lostMirror.isEmpty)
  let s := s.setFld dieB Reg.PWR_DUMPID_ID s.dumpId
  (s.logCounters).event dieB 0x05 0 noInst

/-- DUMP_END (R673, R682): a warm dump applies the reset held during it; a power-fail dump ends in the power-down hold, which
discards it. -/
def execDumpEnd (n : Nat) (whole fenced : Bool) (lostOwn lostMirror : List Nat) (s : State) : Res :=
  match s.ao.dump with
  | none => .next s
  | some d =>
    let t := s.closeDump d n whole fenced lostOwn lostMirror
    let t := { t with ao := { t.ao with dump := none } }
    match d.heldReset, d.after with
    | _, .hold => .next t.powerHold
    | some c, _ => .next (t.headReset c)
    | none, .reset c => .next (t.headReset c)
    | none, .fence => .next (t.enter .fenced)
    | none, .thermal r => .next ((t.powerDownDies.enter .thermalHold).finishTrip r)

/-! ## Supply -/

/-- The converter starts when VIN has risen above 35 V and MOD_EN is high (R660). -/
def State.tryConverter (s : State) : State :=
  if decide (35000 < s.pins.vin) && s.pins.modEn then { s with ao := { s.ao with converter := true } } else s

/-- VIN_RISE (R662): VIN has risen to `mv`. -/
def execVinRise (mv : Nat) (s : State) : Res := .next ({ s with pins := { s.pins with vin := mv } }.tryConverter)

/-- MOD_EN_RISE (R660). -/
def execModEnRise (s : State) : Res := .next ({ s with pins := { s.pins with modEn := true } }.tryConverter)

/-- CONVERTER_STOP (R660): VIN has fallen to `mv`, below 27 V: every rail but the AO island's is lost. A dump under way is cut
short by it; `n` of its records were programmed (R673). -/
def execConverterStop (mv n : Nat) (s : State) : Res :=
  let s := { s with pins := { s.pins with vin := mv } }
  if mv < 27000 then
    let s := match s.ao.dump with
      | some d => s.closeDump d n false false [] []
      | none => s
    let t := s.powerLoss
    -- a dump cut short ends in the power-down hold (R673, R674)
    .next { t with ao := { t.ao with converter := false, hold := t.ao.rail } }
  else .next s

/-- UV_WARN_DV in mV: held to 30.0 V to 34.0 V (R686). -/
def State.uvWarn (s : State) : Nat := max 0x12C (min 0x154 (s.fld dieB Reg.PWR_CTRL_UV_WARN_DV)) * 100

/-- PF_WARN (R666): PF_WARN_N has been low for 1 µs. -/
def execPfWarn (s : State) : Res :=
  let s := { s with pins := { s.pins with pfWarnN := false } }
  if s.flag dieB Reg.PWR_CTRL_PFW_EN then .next s.powerWarn else .next s

/-- VIN_UNDERVOLTAGE (R666): VIN has been at `mv` for 10 µs. -/
def execVinUndervoltage (mv : Nat) (s : State) : Res :=
  let s := { s with pins := { s.pins with vin := mv } }
  if mv < s.uvWarn then .next s.powerWarn else .next s

/-- MOD_EN_LOW (R666): MOD_EN has been low for 1 µs. -/
def execModEnLow (s : State) : Res := .next ({ s with pins := { s.pins with modEn := false } }.powerWarn)

/-- POWER_HOLD_EXIT (R674): for 100 ms VIN has been at `mv` and MOD_EN and PF_WARN_N at the levels given. The head leaves the
hold as a power-on reset of the B-die, and PCYCLE increases (R655). -/
def execPowerHoldExit (mv : Nat) (modEn pfWarnN : Bool) (s : State) : Res :=
  let s := { s with pins := { s.pins with vin := mv, modEn := modEn, pfWarnN := pfWarnN } }
  if s.ao.hold && s.ao.rail && decide (35000 < mv) && modEn && pfWarnN then
    let t := s.headReset 2
    .next { t with ao := { t.ao with hold := false, converter := true, bPower := true, dumps := 0,
                                     pcycle := (t.ao.pcycle + 1) % 2 ^ 24 },
                   time := { t.time with everLocked := false } }
  else .next s

/-! ## Reset sources (R679, R680) -/

/-- SYS_RST (R679): SYS_RST_N has been low for 1 µs. -/
def execSysRst (s : State) : Res := .next ({ s with pins := { s.pins with sysRstN := false } }.requestReset 3)

/-- PWR_RST_HEAD (R679): a write of PWR_RST with GO and HEAD. -/
def execPwrRstHead (val : Word) (s : State) : Res :=
  if bitsAt val 63 1 = 1 ∧ bitsAt val 0 1 = 1 then .next (s.requestReset 4) else .next s

/-- What a tile and its stack lose (R247, R550, R681): the control plane of the tile, its key stores, slots, jobs and open packs. -/
def State.resetTile (s : State) (tl : Nat) : State :=
  let mine := fun (k : Nat) => k / hbmStride == tl && decide (k < ddrBase)
  let h := s.hrd
  let s : State := { s with
    mem := s.mem.keep (fun k _ => !mine k),
    hrd := { h with rings := h.rings.keep (fun k _ => k / 4096 != tl), log := h.log.erase tl,
                    frz := h.frz.keep (fun k _ => k / 256 != tl), dma := h.dma.keep (fun k _ => k / 8 != tl),
                    wdog := h.wdog.keep (fun k _ => k / 4 != tl), stopped := h.stopped.keep (fun k _ => k / 4 != tl),
                    replay := h.replay.erase tl, replayed := h.replayed.erase tl, lost := h.lost.erase tl,
                    tickAt := h.tickAt.keep (fun k _ => k / 4 != tl), irq := h.irq.keep (fun k _ => k / 4 != tl) } }
  (s.dropKeys (dieC tl)).dropTileWork tl

/-- What an F-die loses (R458, R492): receive and reorder buffers, its context cache, its link group, its sessions, and with table 0 of
the PGT block both of whose copies it holds. -/
def State.resetF (s : State) (f : Nat) : State :=
  let q := s.rdma.qps.mapV fun _ q =>
    if q.fdie = f then { q with onDie := false, held := [], heldSince := none, heldR := [], heldRSince := none, fetching := false } else q
  { s with
    rdma := { s.rdma with qps := q, ports := s.rdma.ports.keep (fun k _ => k / 4 != f),
                          waiting := s.rdma.waiting.filter (fun w => w.1.qpn / 2 ^ 22 % 2 != f),
                          hits := s.rdma.hits.keep fun k _ => k / 128 != f },
    pgt := { sess := s.pgt.sess.keep (fun _ x => x.fdie != f), tx := s.pgt.tx.filter (fun x => x.fdie != f),
             rx := s.pgt.rx.filter fun x => x.fdie != f },
    pair := { s.pair with groups := s.pair.groups.erase f } }

/-- What an M-die loses (R307, R365, R407): DDR, map cache and directory, its carrier ports with their queued and unanswered operations,
and every reconstruction and LOST declaration of the head. -/
def State.resetM (s : State) (m : Nat) : State :=
  let mine := fun (cp : Nat) => cp / 24 == m
  let d := s.med
  { s with
    mem := s.mem.keep (fun k _ => decide (k < ddrBase)),
    hrd := { s.hrd with cap := [], capPos := [] },
    med := { d with ports := d.ports.keep (fun k _ => !mine k), dies := (d.dies.keep fun k _ => !mine (k / 1024)).mapV fun _ x => { x with lost := false },
                    queue := d.queue.filter (fun o => !mine o.cp), ops := d.ops.keep (fun k _ => !mine (k / 65536)), levels := [],
                    starved := d.starved.filter (fun k => !mine (k / 1024)),
                    prot := if (d.prot.map fun k => mine (k / 1024)).getD false then none else d.prot,
                    raws := d.raws.filter (fun r => !mine r.cp), cws := d.cws.keep fun _ c => !mine (mCp c.addr) },
    ftl := { s.ftl with dir := s.ftl.dir.keep (fun k _ => s.mapDie k != m), lines := s.ftl.lines.keep (fun k _ => s.mapDie k != m),
                        looks := s.ftl.looks.filter (fun l => l.die != m), fills := s.ftl.fills.keep (fun k _ => s.mapDie k != m),
                        range := s.ftl.range.erase m },
    par := { s.par with lostCps := [], list := [], cur := none, reshape := none, scrubs := [] } }

/-- Reset of one die domain beside B (R678, R681): its registers and tables, and what its units hold. -/
def State.resetDie (s : State) (die : Nat) : State :=
  let s := (s.resetRegs die fun _ _ => false).resetTables die
  if 16 ≤ die then s.resetTile (die - 16)
  else if die = 1 ∨ die = 2 then s.resetF (die - 1)
  else if die = 4 ∨ die = 5 then s.resetM (die - 4)
  else if die = 8 ∨ die = 9 then { s with csa := s.csa.erase (die - 8) }
  else s

/-- The die domains that a value of PWR_RST names and the head carries (R686). -/
def State.rstDies (s : State) (val : Word) : List Nat :=
  (((List.range 8).filter fun n => bitsAt val (8 + n) 1 = 1).map dieC ++
    ((List.range 2).filter fun n => bitsAt val (16 + n) 1 = 1).map dieF ++
    ((List.range 2).filter fun n => bitsAt val (18 + n) 1 = 1).map dieM ++
    ((List.range 2).filter fun n => bitsAt val (20 + n) 1 = 1).map dieS).filter s.variant.populated

/-- PWR_RST_DOMAIN (R680): a write of PWR_RST with GO that names die domains: reset in BOOT, FENCED or THERMAL_HOLD; in the
other states a head reset. -/
def execPwrRstDomain (val : Word) (s : State) : Res :=
  if bitsAt val 63 1 = 0 then .next s
  else if bitsAt val 0 1 = 1 then .next (s.requestReset 4)
  else if (s.rstDies val).isEmpty then .next s
  else match s.pair.head with
    | .boot | .fenced | .thermalHold => .next ((s.rstDies val).foldl State.resetDie s)
    | _ => .next (s.requestReset 4)

/-- RAIL_FAULT (R679, R661): a rail has been out of regulation for 10 µs. -/
def execRailFault (s : State) : Res := .next ((s.setFlag dieB Reg.PWR_STATUS_PWR_GOOD false).requestReset 7)

/-- REFCLK_LOSS (R694): acts as a rail out of regulation. -/
def execRefclkLoss (s : State) : Res :=
  .next (({ s with pins := { s.pins with refclk := false } }.setFlag dieB Reg.PWR_STATUS_PWR_GOOD false).requestReset 7)

/-! ## The AO rail -/

/-- AO_RAIL_LOSS (R678): the AO domain is lost with everything in it. -/
def execAoRailLoss (s : State) : Res :=
  let t := s.powerLoss
  .next { t with regs := [], wo := [], time := .reset, thm := .reset,
                 ao := { Ao.reset with rail := false, bPower := false, converter := s.ao.converter } }

/-- AO_RAIL_RISE (R656, R662, R665): a full power-on. HEAD_SIDE is sampled, the counters resume from the last entry of the
counter log, PCYCLE increases, and LAST_CAUSE is 0x1. -/
def execAoRailRise (side : Nat) (s : State) : Res :=
  let c := s.nor.lastCounter
  let t := { s with side := side % 2, regs := [], wo := [], time := .reset, thm := .reset }
  let t := t.headReset 1
  .next { t with ao := { Ao.reset with hours := (c.map CounterEnt.hours).getD 0, seconds := (c.map CounterEnt.seconds).getD 0,
                                       pcycle := ((c.map CounterEnt.pcycle).getD 0 + 1) % 2 ^ 24 } }

end Sys2Proof.Machine
end

