-- ==== Sys2Proof/Machine/Recorder.lean ====
section
/-! DEFINITION. Management plane, part one (spec/15): mailboxes, sensors, throttling, thermal trips, the recorder's commands and
the hour counters. -/

namespace Sys2Proof.Machine

open Sys2Proof

/-! ## Mailboxes (R639, R640) -/

/-- The words of a message, 8 bytes each. -/
def toWords (l : Bytes) : List Word := (pieces 8 l).map fun p => BitVec.ofNat 64 (ofLe p)

/-- MPX_MBm_DATAk. -/
def mbData (m k : Nat) : Fld := (Reg.MPX_MB_DATA_BYTES.plus (m * 0x1000)).plus (8 * k)

/-- Write a message's bytes in a mailbox. -/
def State.writeMb (s : State) (m : Nat) (l : Bytes) : State :=
  (List.zip (List.range 512) (toWords l)).foldl (fun s kw => s.setFld dieB (mbData m kw.1) kw.2.toNat) s

/-- The bytes of a mailbox's message. -/
def State.readMb (s : State) (m : Nat) : Bytes :=
  let n := s.fld dieB (Reg.MPX_MB_LEN.plus (8 * m))
  (((List.range (min 512 ((n + 7) / 8))).flatMap fun k => le 8 (s.fld dieB (mbData m k)))).take n

def State.mbFull (s : State) (m : Nat) : Bool := s.flag dieB (Reg.MPX_MB_FULL.plus (8 * m))

/-- Raise the mailbox interrupt of a cluster that the head has (R639). -/
def State.raiseMb (s : State) (target : Nat) : State :=
  if target / 4 < s.variant.tiles then
    { s with hrd := { s.hrd with irq := s.hrd.irq.putD target true false } }.emit (.mailboxIrq (target / 4) (target % 4))
  else s

/-- Set LEN, TARGET and FULL of a mailbox; mailboxes 0 to 7 raise the interrupt (R639). -/
def State.fillMb (s : State) (m len target : Nat) : State :=
  let s := s.setFld dieB (Reg.MPX_MB_LEN.plus (8 * m)) len
  let s := s.setFld dieB (Reg.MPX_MB_TARGET.plus (8 * m)) target
  let s := s.setFlag dieB (Reg.MPX_MB_FULL.plus (8 * m)) true
  if m < 8 then s.raiseMb (target % 32) else s

/-- Management firmware sends a message in a mailbox that is not FULL: the header of R640, then the body. -/
def State.sendMb (s : State) (m target type : Nat) (body : Bytes) : State :=
  let n := s.thm.mbSeq
  let l := le 2 type ++ zeros 2 ++ le 4 n ++ le 8 n ++ body
  let s := { s with thm := { s.thm with mbSeq := n + 1 } }
  (s.writeMb m l).fillMb m l.length target

/-- Management firmware reads the message of a type from mailbox `m`, 8 to 15, and clears FULL: its TAG and body. -/
def State.takeMb (s : State) (m type : Nat) : Option (Nat × Bytes × State) :=
  if 8 ≤ m ∧ m < 16 ∧ s.mbFull m then
    let l := s.readMb m
    if 16 ≤ l.length ∧ leAt l 0 2 = type then
      some (leAt l 8 8, l.drop 16, s.setFlag dieB (Reg.MPX_MB_FULL.plus (8 * m)) false)
    else none
  else none

/-- MAILBOX_SEND (R639): a sender has written its message and sets FULL, with LEN and TARGET. -/
def execMailboxSend (m len target : Nat) (s : State) : Res :=
  if m < 16 then .next (s.fillMb m len target) else .next s

/-- A notice for control-plane firmware: code, die and value (R640). -/
def State.notice (s : State) (code die : Nat) (value : Nat) : State :=
  { s with thm := { s.thm with notices := s.thm.notices ++ [(code, die, value)] } }

/-- MAILBOX_NOTICE (R640): the oldest notice goes into mailbox `m`, 0 to 7, that is free. -/
def execMailboxNotice (m target : Nat) (s : State) : Res :=
  match s.thm.notices with
  | (c, d, v) :: rest =>
    if m < 8 ∧ !s.mbFull m then
      .next ({ s with thm := { s.thm with notices := rest } }.sendMb m target 4 (le 4 c ++ le 4 d ++ le 8 v))
    else .next s
  | [] => .next s

/-! ## Sensing (R641 to R643) -/

/-- A sampled value of a die: the highest of its sensors of a kind, and for a tile of its stack (listed under 32 and the
tile's number). -/
def sampleOf (vals : List (Nat × Int)) (die : Nat) : Option Int :=
  match vals.find? (·.1 == die), vals.find? (fun v => decide (16 ≤ die) && v.1 == die + 16) with
  | some v, some w => some (max v.2 w.2)
  | some v, none => some v.2
  | none, some w => some w.2
  | none, none => none

def State.setTemp (s : State) (die : Nat) (d : DieTemp) : State :=
  { s with thm := { s.thm with dies := s.thm.dies.putD die d .none } }

/-- The temperatures that the stacks report, kept under 32 and the tile's number. -/
def State.stackTemps (s : State) (vals : List (Nat × Int)) : State :=
  vals.foldl (fun s v => if 32 ≤ v.1 ∧ s.variant.populated (v.1 - 16) then
    s.setTemp v.1 { s.dieTemp v.1 with ro := v.2, diode := v.2 } else s) s

/-- RO_SENSOR_SAMPLE (R641): the ring-oscillator maxima of the dies listed, in units of 0.125 °C. -/
def execRoSensorSample (vals : List (Nat × Int)) (s : State) : Res :=
  .next (s.variant.dies.foldl (fun s die => match sampleOf vals die with
    | some v => s.setTemp die { s.dieTemp die with ro := v }
    | none => s) (s.stackTemps vals))

/-- One die's diodes have been read (R643): three reads in a row more than 6 °C apart set FALLBACK. -/
def State.readDiode (s : State) (die : Nat) (v : Int) : State :=
  let ro := s.usesRo die
  let d := { s.dieTemp die with diode := v }
  if !ro then s.setTemp die d
  else if decide (v - d.ro ≤ 48) && decide (d.ro - v ≤ 48) then s.setTemp die { d with apart := 0 }
  else if d.apart < 2 then s.setTemp die { d with apart := d.apart + 1 }
  else (s.setTemp die { d with apart := d.apart + 1, fallback := true }).mfwEvent 0x0024
      (le 1 die ++ zeros 1 ++ le 2 (ofInt 16 v) ++ le 2 (ofInt 16 d.ro))

/-- DIODE_SENSOR_SAMPLE (R641, R643, R647): the diode maxima of the dies listed. A die at 100 °C or more during a start latches
the trip again. -/
def execDiodeSensorSample (vals : List (Nat × Int)) (s : State) : Res :=
  let s := s.variant.dies.foldl (fun s die => match sampleOf vals die with
    | some v => s.readDiode die v
    | none => s) (s.stackTemps vals)
  let calm := decide ((s.dieTemp dieB).diode ≤ 560)
  let s := { s with thm := { s.thm with calmSince := if calm then some (s.thm.calmSince.getD s.ao.tb) else none } }
  if s.pair.head == .boot && s.variant.dies.any (fun die => decide (800 ≤ (s.dieTemp die).diode)) then
    .next { s with ao := { s.ao with tripLatched := true } }
  else .next s

/-! ## Thresholds, throttling and trips (R644 to R646) -/

/-- Enter an evaluation of a die. -/
def State.evaluate (s : State) (die : Nat) : State :=
  let t := s.temp die
  let d := s.dieTemp die
  let d := { d with hist := (t :: d.hist).take 101 }
  s.setTemp die { d with hot := if 880 ≤ t then d.hot + 1 else 0, fast := if 80 < d.shortRate then d.fast + 1 else 0,
                         hotAt := if 800 ≤ t then some (d.hotAt.getD s.ao.tb) else none }

/-- The die with the highest T. -/
def State.hottest (s : State) : Nat :=
  s.variant.dies.foldl (fun b die => if s.temp b < s.temp die then die else b) dieB

/-- The trip record of a die at this moment (R648). -/
def State.tripRec (s : State) (resolve : Bool) (cause die : Nat) : TripRec :=
  { resolve := resolve, cause := cause, die := die, hours := s.ao.hours, seconds := s.ao.seconds, pcycle := s.ao.pcycle,
    state := s.pair.head.code, time := s.ao.tb, temp := s.temp die, rate := (s.dieTemp die).shortRate,
    dies := [16, 17, 18, 19, 20, 21, 22, 23, 40, 41, 42, 43, 44, 45, 46, 47, 1, 2, 4, 5, 8, 9, 0].map fun d =>
      if decide (40 ≤ d) then
        (if s.variant.populated (d - 24) then (s.dieTemp (d - 8)).diode else -32768)
      else if s.variant.populated d then s.temp d else -32768 }

/-- A trip condition holds (R646). -/
def State.thermalTrip (s : State) (cause die : Nat) : State :=
  let r := s.tripRec false cause die
  match s.pair.head with
  | .twin => (((s.yield 0x05).powerDownDies).enter .thermalHold).finishTrip r
  | .solo => if s.ao.dump.isSome then s else (s.yield 0x05).beginDump false (.thermal r)
  | .off | .thermalHold => s
  | _ => (s.headReset 6).finishTrip r

/-- A warning flag after an evaluation: set, with its NOTICE and its event on entry, or cleared (R644). `stat` is the flag,
`set?` and `keep?` the conditions that set it and that keep it, by die. -/
def State.warnFlag (s : State) (stat : Fld) (code : Nat) (set? keep? : Nat → Bool) : State :=
  match s.variant.dies.find? set? with
  | some die =>
    if s.flag dieB stat then s
    else
      let s := s.setFlag dieB stat true
      let s := s.notice code die (ofInt 16 (s.temp die))
      s.mfwEvent code (le 1 die ++ zeros 1 ++ le 2 (ofInt 16 (s.temp die)) ++ le 2 (ofInt 16 (s.dieTemp die).longRate))
  | none => if s.variant.dies.any keep? then s else s.setFlag dieB stat false

/-- The temperature notice (spec/02, opcode 0x0C): the highest temperature, in kelvin, has reached the threshold that a controller has
set by feature 0x04. -/
def State.tempNotices (s : State) (old new : Int) : State :=
  let kelvin := fun (t : Int) => t / 8 + 273
  s.host.ctrls.vals.foldl (fun s k => match k.features.find? 0x04 with
    | some v =>
      let lim : Int := (v % 65536 : Nat)
      if v / 65536 % 64 = 0 ∧ kelvin old < lim ∧ lim ≤ kelvin new then s.asyncNotice k.cntlid 1 1 2 else s
    | none => s) s

/-- Every die's temperature and rates enter an evaluation; MAX, the warnings of R644 and the time spent below 97 °C follow. -/
def State.judgeHeat (s : State) : State :=
  let s := s.variant.dies.foldl State.evaluate s
  let h := s.hottest
  let s := s.tempNotices (toInt 16 (s.fld dieB Reg.THM_STATUS_MAX)) (s.temp h)
  let s := (s.setFld dieB Reg.THM_STATUS_MAX (ofInt 16 (s.temp h))).setFld dieB Reg.THM_STATUS_MAX_DIE h
  let warn : Int := (min 0x5F (s.fld dieB Reg.THM_CTRL_WARN_C) : Nat) * 8
  let s := s.warnFlag Reg.THM_STATUS_WARN 0x20 (fun d => decide (warn < s.temp d)) (fun d => decide (warn - 16 < s.temp d))
  let s := s.warnFlag Reg.THM_STATUS_RATE_WARN 0x21 (fun d => decide (24 < (s.dieTemp d).longRate))
    (fun d => decide (16 < (s.dieTemp d).longRate))
  let cool := s.variant.dies.all fun d => decide (s.temp d < 776)
  { s with thm := { s.thm with coolSince := if cool then some (s.thm.coolSince.getD s.ao.tb) else none } }

/-- THERMAL_EVALUATE (R644, R646): every die's temperature and rates against the conditions of the table; two evaluations in a row at
110 °C or more, or 21 in a row with a short rate above 10 °C/s, are a trip, unless one is latched. -/
def execThermalEvaluate (s : State) : Res :=
  let s := s.judgeHeat
  if s.ao.tripLatched then .next s
  else match s.variant.dies.find? fun d => decide (2 ≤ (s.dieTemp d).hot) with
    | some d => .next (s.thermalTrip 1 d)
    | none => match s.variant.dies.find? fun d => decide (21 ≤ (s.dieTemp d).fast) with
      | some d => .next (s.thermalTrip 2 d)
      | none => .next s

/-- A change of the throttle level: NOTICE and event (R645, R717). -/
def State.throttle (s : State) (new : Nat) : State :=
  let old := s.fld dieB Reg.THM_STATUS_LEVEL
  let s := s.setFld dieB Reg.THM_STATUS_LEVEL new
  let h := s.hottest
  (s.notice 0x22 h new).mfwEvent 0x22 (le 1 new ++ le 1 old ++ le 1 h ++ zeros 1 ++ le 2 (ofInt 16 (s.temp h)))

/-- THROTTLE_RAISE (R645): a die has stayed at or above 100 °C for 1 s, or for 1 s since the last rise. -/
def execThrottleRaise (s : State) : Res :=
  let due := s.variant.dies.any fun d => match (s.dieTemp d).hotAt with
    | some t => decide (10 ^ 9 ≤ s.since t)
    | none => false
  if !due then .next s
  else
    let s := { s with thm := { s.thm with dies := s.thm.dies.mapV fun _ d => { d with hotAt := d.hotAt.map fun _ => s.ao.tb } } }
    let l := s.fld dieB Reg.THM_STATUS_LEVEL
    if l < 3 then .next (s.throttle (l + 1)) else .next s

/-- THROTTLE_LOWER (R645): every die has stayed below 97 °C for 5 s, or for 5 s since the last fall. -/
def execThrottleLower (s : State) : Res :=
  match s.thm.coolSince with
  | none => .next s
  | some t =>
    if s.since t < 5 * 10 ^ 9 then .next s
    else
      let s := { s with thm := { s.thm with coolSince := some s.ao.tb } }
      let l := s.fld dieB Reg.THM_STATUS_LEVEL
      if l = 0 then .next s else .next (s.throttle (l - 1))

/-- ALERT_N is asserted (R644). -/
def State.alert (s : State) : Bool :=
  s.flag dieB Reg.THM_STATUS_WARN || s.flag dieB Reg.THM_STATUS_RATE_WARN || decide (0 < s.fld dieB Reg.THM_STATUS_LEVEL) ||
    s.ao.tripLatched || s.flag dieB Reg.EVR_STATUS_FULL

/-! ## Counters and the recorder -/

/-- SECONDS_TICK (R655): the always-on island counts while the B-die is powered. -/
def execSecondsTick (s : State) : Res :=
  if !s.ao.bPower then .next s
  else if s.ao.seconds + 1 < 3600 then .next { s with ao := { s.ao with seconds := s.ao.seconds + 1 } }
  else .next { s with ao := { s.ao with seconds := 0, hours := (s.ao.hours + 1) % 2 ^ 24 } }

/-- COUNTER_LOG_ENTRY (R656): at each whole 600 s of SECONDS. -/
def execCounterLogEntry (s : State) : Res :=
  if s.ao.seconds % 600 = 0 then .next s.logCounters else .next s

/-- A record from its 64 bytes, the fields of R650 that the controller fills taken at its arrival. -/
def State.recordFrom (s : State) (source : Nat) (b : Bytes) : EventRec :=
  { code := leAt b 0 2, source := source, severity := leAt b 3 1 % 4, held := false, hours := s.ao.hours,
    seconds := s.ao.seconds, pcycle := s.ao.pcycle, side := s.side, state := s.pair.head.code, time := leAt b 16 8,
    data := padTo 32 ((b.drop 24).take 32), seq := 0 }

/-- EVR_POST (R650, R658): a write of `val` to EVR_POST7 posts the record that EVR_POST0 to EVR_POST7 hold. -/
def execEvrPost (val : Word) (s : State) : Res :=
  let w := fun k => (s.wo.getD (regKey dieB 0x03 (0x100 + 8 * k)) 0).toNat
  let b := (List.range 7).flatMap (fun k => le 8 (w k)) ++ le 8 val.toNat
  .next (s.record (s.recordFrom (leAt b 2 1) b))

/-- EVENT_MESSAGE (R640, R717): management firmware takes an EVENT message from mailbox `m` and posts its record. -/
def execEventMessage (m : Nat) (s : State) : Res :=
  match s.takeMb m 8 with
  | some (_, b, t) => .next (t.record (t.recordFrom 0xFD b))
  | none => .next s

/-- EVR_FREEZE_TIMEOUT (R653): 60 s after the last freeze, the recorder thaws. -/
def execEvrFreezeTimeout (s : State) : Res :=
  match s.thm.frozenUntil with
  | none => .next s
  | some t => if s.ao.tb < t then .next s else .next s.thawEvr

end Sys2Proof.Machine
end

