-- ==== Sys2Proof/Machine/Give.lean ====
section
/-! DEFINITION. Moving shards (R139, R299, R719) and giving ports and shards to the partner (R158, R159). -/

namespace Sys2Proof.Machine

open Sys2Proof

/-! ## Moves -/

/-- The head stops destaging a shard: its records there that have not logged their transaction are the new owner's. -/
def State.stopDestage (s : State) (shard : Nat) : State :=
  let jobs := s.dst.jobs.keep fun _ x => x.shard == shard && x.txn.isNone
  let s := jobs.vals.foldl (fun s x => x.seqs.foldl (fun s q => match s.jent x.side q with
    | some e => s.setJent x.side q { e with destaging := false }
    | none => s) s) s
  { s with dst := { s.dst with jobs := s.dst.jobs.keep fun j _ => !jobs.has j } }

/-- Grants freeze on shards this head no longer owns, until their move message goes; on those it now owns they wait for it, unless
it has come before (marked by the shard + 256). -/
def State.moveShards (s : State) (moved : List Nat) : State :=
  moved.foldl (fun s e =>
    if s.owner e = s.side then
      let w := s.pair.awaitMove
      { s with pair := { s.pair with awaitMove := if w.contains (e + 256) then w.filter (· != e + 256) else w ++ [e] } }
    else ({ s with pair := { s.pair with movesDue := s.pair.movesDue ++ [e] } } : State).stopDestage e) s

/-- A transaction of a shard is logged and not durable. -/
def State.shardPending (s : State) (shard : Nat) : Bool := s.pendingRecs.any fun r => match r.body with
  | .txn _ sh _ _ _ => sh == shard
  | _ => false

/-- Send the moves that are due: once the last change to the shard is durable, its held entries and waiters go in one LOCK move
message on VL1 (R139, R299). -/
def State.sendMoves (s : State) : State :=
  s.pair.movesDue.foldl (fun s e =>
    if s.shardPending e then (if s.ftl.cur.isEmpty then s else s.programLogPage)
    else
      let es := s.host.locks.filter fun l => l.shard == e
      let s := s.setLocks (s.host.locks.filter fun l => l.shard != e || l.side == s.side)
      let s := { s with pair := { s.pair with movesDue := s.pair.movesDue.filter (· != e) },
                        arr := { s.arr with sgen := s.arr.sgen.insert e (s.arr.sgen.getD e 0 + 1) } }
      s.send 1 0 0 (.lock (.move e es))) s

/-- The move message of a shard arrives: its entries stand in the order they had, before requests of this head that it does not
list; the new owner logs the move (R139, R299). -/
def State.moveIn (s : State) (shard : Nat) (es : List LockEnt) : State :=
  let mine := s.host.locks.filter fun l => l.shard == shard && !(es.any fun e => e.tag == l.tag)
  let s := s.setLocks ((s.host.locks.filter fun l => l.shard != shard) ++ es ++ mine.map fun l => { l with entered := false })
  let w := s.pair.awaitMove
  let s := { s with pair := { s.pair with awaitMove := if w.contains shard then w.filter (· != shard) else w ++ [shard + 256] } }
  let g := s.arr.sgen.getD shard 0 + 1
  let s := { s with arr := { s.arr with sgen := s.arr.sgen.insert shard g } }
  (s.log (.shard shard s.side g)).enterWaiters

/-! ## Giving -/

/-- A message that a planned handover waits for (R158). -/
def ChlMsg.flushed : ChlMsg → Bool
  | .capsule _ | .ledger _ | .jwrite _ _ _ => true
  | _ => false

/-- Every CAPSULE, LEDGER and JWRITE message is acknowledged. -/
def State.mirrorIdle (s : State) : Bool :=
  s.pair.groups.vals.all fun g => (g.unacked ++ g.waiting).all fun t => !t.msg.flushed

/-- Give ports and shards: admission on them stops (R158 step 1). -/
def State.give (s : State) (ports shards : List Nat) : State :=
  { s with pair := { s.pair with giving := some (0, ports, shards) } }

/-- R158 step 2: with the mirror messages acknowledged, transmission stops and HANDOVER goes. -/
def State.giveNext (s : State) : State :=
  match s.pair.giving with
  | some (0, ports, shards) =>
    if s.mirrorIdle && s.pair.head == .twin then
      ({ s with pair := { s.pair with giving := some (1, ports, shards) } } : State).send 0 0 0 (.handover ports shards)
    else s
  | _ => s

end Sys2Proof.Machine
end

