-- ==== Sys2Proof/Machine/Tables.lean ====
section
/-! DEFINITION. Shadowed tables: commit, abort, the copy back (R22 to R27), and what a commit does in its block. -/

namespace Sys2Proof.Machine

open Sys2Proof

/-! ## Commit of shadowed tables -/

/-- A valid window of a tile that grants a master both R and W holds a range of memory. -/
def State.windowHolds (s : State) (tile mid addr len : Nat) : Bool :=
  s.isMem addr && s.isMem (addr + len - 1) && (List.range 256).any fun e =>
    let w0 := s.tbl (dieC tile) 0x39 0 e 0
    let w1 := s.tbl (dieC tile) 0x39 0 e 1
    bitsAt w1 39 1 == 1 && bitsAt w1 (48 + mid) 1 == 1 && bitsAt w1 36 2 == 3 &&
      decide (bitsAt w0 0 36 * 4096 ≤ addr) && decide (addr + len ≤ (bitsAt w1 0 36 + 1) * 4096)

/-- Rings of a tile that a commit would make valid although their memory lies outside a window granting MID 13 both R and W
(R568). -/
def State.badRings (s : State) (tile : Nat) : List Nat :=
  (s.shadow.filter fun kv => kv.1 / 2 ^ 18 == tblBase (dieC tile) 0x38 1 / 2 ^ 18).filterMap fun kv =>
    let r := kv.1 / 4 % 2 ^ 16
    let base := bitsAt kv.2 8 42 * 64
    let len := 2 ^ (max 6 (min 20 (bitsAt kv.2 3 5))) * 64
    if bitsAt kv.2 0 1 = 1 ∧ bitsAt (s.tbl (dieC tile) 0x38 1 r 0) 0 1 = 0 ∧ !s.windowHolds tile 13 base len then some r else none

/-- What a commit of the tables that `mask` selects does in its block beside making them active (R172, R207, R317, R568). -/
def State.commitHook (s : State) (die blk mask : Nat) (before : State) : State :=
  let first : Bool := mask % 2 == 1
  match blk with
  | 0x30 => if first then s.setFlag die Reg.CDC_STATUS_GEAR_SET true else s
  | 0x22 => if first then s.setFlag die Reg.LDP_CIRC_IDX_CIRC_SET true else s
  | 0x38 =>
    if mask / 2 % 2 = 0 then s else match before.badRings (die - 16) with
    | [] => s
    | bad => (bad.foldl (fun s r => s.setActive (tblKey die blk 1 r 0) (before.tbl die blk 1 r 0)) s).setFlag die
        Reg.HRD_STATUS_RING_ERR true
  | 0x31 => s.resumeJobs (die - 16)
  | 0x34 => ((s.openPacks (die - 16)).keep fun _ p => s.wgen (die - 16) p.domain != before.wgen (die - 16) p.domain).keys.foldl
      (fun s k => s.closePack k) s
  | 0x40 => s.csaCommit before (die - 8)
  | _ => s

/-- Key of the copy back of a block's tables. -/
def copyKey (die blk : Nat) : Nat := homeDie die blk 0xFF00 * 256 + blk

/-- Make the shadow copies of the selected tables active (R22, R26): BUSY until the copy back is done (R23). -/
def State.commitTables (s : State) (die blk mask : Nat) : State :=
  let t := { s with active := copyTables die blk mask s.shadow s.active, copying := s.copying.insert (copyKey die blk) mask }
  let t := t.setFlag die (tcBusy blk) true
  (t.addFld die (tcGen blk) 1).commitHook die blk mask s

/-- Owners of the shards after and before a commit of TKO table 0 differ in these. -/
def shardsMoved (s t : State) : List Nat := (List.range 256).filter fun e => s.owner e != t.owner e

/-- After a commit of TKO table 0 in TWIN, the master sends the whole table and its GEN on VL0 (R719), then shards move. -/
def State.announceShards (s before : State) : State :=
  if s.pair.head = .twin then
    let s := s.send 0 0 0 (.shardset s.ownerBits (s.fld (dieF 0) (tcGen 0x16)))
    (s.moveShards (shardsMoved before s)).sendMoves
  else s

/-- TABLE_COMMIT (R26): a write of BLOCK_TCOMMIT with COMMIT set: TABLES first, then the commit, or LOST if a copy is under way
(R25) or ABORT is set as well. -/
def execTableCommit (die blk : Nat) (val : Word) (s : State) : Res :=
  if (blockTables blk).isEmpty || !s.variant.populated die || !blockOn die blk then .next s
  else
    let t := s.setFld die (tcTables blk) (bitsAt val 16 16)
    let t := if bitsAt val 2 1 = 1 then t.setFlag die (tcLost blk) false else t
    if bitsAt val 3 1 = 1 ∨ t.flag die (tcBusy blk) then .next (t.setFlag die (tcLost blk) true)
    else if blk = 0x16 ∧ !s.shardWriter then .next t
    else
      let u := t.commitTables die blk (bitsAt val 16 16)
      if blk = 0x16 then .next (u.announceShards t) else .next u

/-- TABLE_ABORT (R26): a write of BLOCK_TCOMMIT with ABORT set and COMMIT clear: while BUSY is 0 the active copies go over the
shadow copies. -/
def execTableAbort (die blk : Nat) (val : Word) (s : State) : Res :=
  if (blockTables blk).isEmpty || !s.variant.populated die || !blockOn die blk then .next s
  else
    let t := s.setFld die (tcTables blk) (bitsAt val 16 16)
    let t := if bitsAt val 2 1 = 1 then t.setFlag die (tcLost blk) false else t
    if t.flag die (tcBusy blk) then .next t
    else .next { t with shadow := copyTables die blk (bitsAt val 16 16) t.active t.shadow }

/-- A held write of a table word, by the access codes of the data register that it came through (R9, R24). -/
def State.heldWrite (s : State) (die blk k : Nat) (v : Word) : State :=
  match (blockTables blk).findSome? fun x => if x.1 = k / 4 / 2 ^ 16 % 2 then findReg blk (x.2.2.getD (k % 4) 0) else none with
  | some r => s.setShadow k (wordAfterWrite (s.locked die blk) r (s.shadow.getD k (tblDefault k)) v 0)
  | none => s

/-- The end of a copy (R23, R24): the new active contents are in the shadow copy, BUSY clears, and the held writes of the block are
applied in order. -/
def State.finishCopy (s : State) (die blk : Nat) : State :=
  match s.copying.find? (copyKey die blk) with
  | none => s
  | some mask =>
    let t := { s with shadow := copyTables die blk mask s.active s.shadow, copying := s.copying.erase (copyKey die blk) }
    let t := t.setFlag die (tcBusy blk) false
    let mine := fun (k : Nat) => k / 4 / 2 ^ 16 / 2 == tableDie die blk * 256 + blk
    let t := { t with heldWrites := t.heldWrites.filter fun kv => !mine kv.1 }
    (s.heldWrites.filter fun kv => mine kv.1).foldl (fun t kv => t.heldWrite die blk kv.1 kv.2) t

/-- COMMIT_COPY_DONE (R23, R24). -/
def execCommitCopyDone (die blk : Nat) (s : State) : Res := .next (s.finishCopy die blk)

end Sys2Proof.Machine
end

