-- ==== Sys2Proof/Machine/Trust.lean ====
section
/-! DEFINITION. Trust of the B-die (spec/14): the calibration row, key digests, signatures, attestation reports, and what is wrapped for
another module (R584 to R589, R610 to R612, R622 to R624). -/

namespace Sys2Proof.Machine

open Sys2Proof

/-! ## Keys and signatures -/

/-- A key digest (R585). -/
def keyDigest (pub : Bytes) : Bytes := shake256 (padTo 1952 pub) 32

/-- HashML-DSA-65 with the SHAKE256 pre-hash of 64 bytes, under a context string. -/
def sigOk (pub : Bytes) (ctx : String) (msg sig : Bytes) : Bool := Config.sigVerify pub (ascii ctx) (shake256 msg 64) sig

/-- MAKER_DIGEST of the OTP (R584). -/
def makerDigest : Bytes := padTo 32 Config.makerDigest

/-- INST_DIGEST (R584). -/
def Otp.instDigest (o : Otp) : Bytes := o.inst.take 32

/-- Seed, public key and secret use of the identity key and of the encapsulation key pair (R586). -/
def idKeySeed : Bytes := derive (ascii "VX8-ID") 32
def identityPub : Bytes := padTo 1952 (Config.sigPublic idKeySeed)
def State.kemSeed (s : State) : Bytes := derive (ascii "VX8-KEM" ++ s.wrapGen) 64
def State.kemKey (s : State) : Bytes := padTo 1568 (Config.kemPublic s.kemSeed)

/-! ## The calibration row (R588) -/

/-- The row, with the header fields that the manual fixes for this part: MAGIC and the variant code. -/
def State.calRow (s : State) : Bytes :=
  le 4 0x46435231 ++ le 1 s.variant.code ++ (padTo 16384 Config.calRow).drop 5

def rowSerial (row : Bytes) : Bytes := (row.drop 16).take 16
def State.serial (s : State) : Bytes := rowSerial s.calRow

/-- The row's maker signature under a key (R588). -/
def rowSigned (pub row : Bytes) : Bool := sigOk pub "VX8-FCR" (row.take 0x3000) ((row.drop 0x3000).take 3309)

/-- Both checks of R589. -/
def State.rowOk (s : State) (pub : Bytes) : Bool :=
  (s.calRow.drop 0x2800).take 1952 == identityPub && rowSigned pub s.calRow

/-! ## Attestation (R610, R612) -/

/-- A measurement that a locked result slot of the B-die's digest engine holds; 0 when not loaded (R598). -/
def State.loadedMeas (s : State) (k : Nat) : Bytes :=
  if s.flag dieB (Reg.RES_INFO_VALID.plus (k * 0x80)) && s.flag dieB (Reg.RES_INFO_LOCKED.plus (k * 0x80)) then
    (List.range 8).flatMap fun i => le 8 (s.fld dieB (Reg.RES_D_BYTES.plus (k * 0x80 + 8 * i)))
  else zeros 64

/-- The first 1,960 bytes of a report for a nonce. -/
def State.reportBody (s : State) (nonce : Bytes) : Bytes :=
  let b := fun (x : Bool) (n : Nat) => if x then 2 ^ n else 0
  let flags := b s.otp.instLock 0 + b (decide (0 < s.otp.wrapGen)) 1 + b (s.flag dieB Reg.BOOT_STATUS_MEAS_OK) 2 + b (s.flag dieB Reg.BOOT_STATUS_TRIAL) 3
  le 4 0x56584154 ++ le 2 1 ++ le 1 s.side ++ le 1 s.pair.head.code ++ padTo 16 s.serial ++ le 1 s.variant.code ++ le 1 flags ++ zeros 2 ++
    le 4 (s.fld dieB Reg.BOOT_FORMAT_FORMAT) ++ le 8 s.ao.tb ++ padTo 32 nonce ++ shake256 s.calRow 32 ++
    (if s.otp.instLock then s.otp.instDigest else zeros 32) ++ s.loadedMeas 0 ++ s.loadedMeas 1 ++ s.loadedMeas 2 ++
    padTo 64 s.boot.record ++ s.kemKey

/-- An attestation report (R610). -/
def State.report (s : State) (nonce : Bytes) : Bytes :=
  let b := s.reportBody nonce
  b ++ padTo 3309 (Config.sigSign idKeySeed (ascii "VX8-ATT") (shake256 b 64))

/-- The steps of R612 that a head takes with a report and its calibration row under its own maker key: row against CALROW, the row's
signature, SIG, NONCE and FLAGS (log entry 34). -/
def State.reportOk (s : State) (report row nonce : Bytes) : Bool :=
  report.length == 5269 && row.length == 16384 && leAt report 0 4 == 0x56584154 && leAt report 4 2 == 1 &&
    (report.drop 72).take 32 == shake256 row 32 && rowSigned s.boot.makerPub row &&
    keyDigest s.boot.makerPub == makerDigest && (report.drop 8).take 16 == rowSerial row &&
    sigOk ((row.drop 0x2800).take 1952) "VX8-ATT" (report.take 1960) (report.drop 1960) && (report.drop 40).take 32 == padTo 32 nonce &&
    leAt report 25 1 % 2 == 1 && leAt report 25 1 / 4 % 2 == 1

def reportEk (report : Bytes) : Bytes := (report.drop 392).take 1568
def reportInst (report : Bytes) : Bytes := (report.drop 104).take 32

/-! ## The AWK (R228, R229, R622) -/

/-- The B-die delivers the AWK to the islands of every tile, and keeps it in the boot island (R228). -/
def State.setAwk (s : State) (awk : Bytes) : State :=
  { s with boot := { s.boot with awk := some awk }, dst := { s.dst with awk := (List.range s.variant.tiles).foldl (fun m t => m.insert t awk) s.dst.awk } }

/-- The key that carries something to a module: from the shared secret of an encapsulation, under a label (R622, R623). -/
def carryKey (label : String) (secret serial : Bytes) : Bytes := shake256 (ascii label ++ secret ++ serial) 32

/-- The AWK for a joiner whose report is given (R622): ciphertext and wrapped AWK; none where a condition fails. -/
def State.awkFor (s : State) (report row : Bytes) : Option (Bytes × Bytes) :=
  let ser := rowSerial row
  let enrolled := (s.arr.modules.find? (ofLe ser)).any fun m => decide (m.wrapGen = leAt report 344 1)
  match s.boot.awk, s.boot.joinNonce with
  | some awk, some n =>
    if enrolled && s.reportOk report row n && reportInst report == s.otp.instDigest then
      let (ct, ss) := Config.kemEncap (reportEk report) s.free
      some (padTo 1568 ct, kwpWrap (carryKey "VX8-AWKX" ss ser) awk)
    else none
  | _, _ => none

/-- The joiner unwraps an AWK sent to it. -/
def State.awkFrom (s : State) (ct wrapped : Bytes) : Option Bytes :=
  kwpUnwrap (carryKey "VX8-AWKX" (Config.kemDecap s.kemSeed ct) s.serial) wrapped

/-- The AWK copy of array metadata for this module, wrapped under its wrap key (R228). -/
def State.ownCopy (s : State) (awk : Bytes) : ModuleRec := { wrapGen := s.otp.wrapGen, awk := some (kwpWrap s.wrapKey awk) }

/-! ## Challenges (R614) -/

def challengeLife : Nat := 600 * 10 ^ 9

def State.countChallenges (s : State) : State := s.setFld dieB Reg.ROLE_STATUS_CHALLENGES s.boot.challenges.length

/-- Drop the challenges that have lapsed. -/
def State.lapseChallenges (s : State) : State :=
  ({ s with boot := { s.boot with challenges := s.boot.challenges.filter fun c => decide (s.since c.2 < challengeLife) } } : State).countChallenges

/-- Issue a challenge; a ninth replaces the oldest. -/
def State.issueChallenge (s : State) : Bytes × State :=
  let (b, s) := s.random 32
  let l := s.boot.challenges ++ [(b, s.ao.tb)]
  (b, ({ s with boot := { s.boot with challenges := l.drop (l.length - 8) } } : State).countChallenges)

end Sys2Proof.Machine
end

