-- ==== Sys2Proof/Machine/Boot.lean ====
section
/-! DEFINITION. Slots, images and the start (spec/14, R590 to R608), and the configuration image's application (R599 to R602). -/

namespace Sys2Proof.Machine

open Sys2Proof

/-! ## Slots (R590 to R593) -/

/-- Slot 0 is A on NOR device 0, slot 1 is B on NOR device 1. -/
def State.norSlot (s : State) (k : Nat) : NorSlot := if k = 0 then s.nor.slotA else s.nor.slotB

def State.setNorSlot (s : State) (k : Nat) (x : NorSlot) : State :=
  { s with nor := if k = 0 then { s.nor with slotA := x } else { s.nor with slotB := x } }

def SlotHdr.blank : SlotHdr := { state := 0, tries := 0, reason := 0, gen := 0, hseq := 0, mfwLen := 0, cfgLen := 0, hfwLen := 0 }

/-- The valid copy with the higher HSEQ (R591). -/
def NorSlot.hdr (x : NorSlot) : Option SlotHdr :=
  match x.hdr0, x.hdr1 with
  | some a, some b => if a.hseq < b.hseq then some b else some a
  | some a, none => some a
  | none, b => b

def NorSlot.head (x : NorSlot) : SlotHdr := x.hdr.getD .blank

/-- A header write goes to the other copy, with HSEQ increased by 1 (R591). -/
def NorSlot.writeHdr (x : NorSlot) (h : SlotHdr) : NorSlot :=
  let h := { h with hseq := (x.head.hseq + 1) % 2 ^ 32 }
  match x.hdr0, x.hdr1 with
  | some a, some b => if a.hseq < b.hseq then { x with hdr0 := some h } else { x with hdr1 := some h }
  | some _, none => { x with hdr1 := some h }
  | none, _ => { x with hdr0 := some h }

/-- BOOT_STATUS.REASON_A and REASON_B. -/
def State.showReason (s : State) (k reason : Nat) : State :=
  s.setFld dieB (if k = 0 then Reg.BOOT_STATUS_REASON_A else Reg.BOOT_STATUS_REASON_B) reason

/-- Write a slot's header. -/
def State.writeHdr (s : State) (k : Nat) (h : SlotHdr) : State :=
  (s.setNorSlot k ((s.norSlot k).writeHdr h)).showReason k h.reason

/-- Size of the region of an image kind (R590), and the image's length by the header. -/
def regionSize : Nat → Nat
  | 1 => 8 * 2 ^ 20
  | 2 => 16 * 2 ^ 20
  | _ => 64 * 2 ^ 20

def SlotHdr.lenOf (h : SlotHdr) : Nat → Nat
  | 1 => h.mfwLen
  | 2 => h.cfgLen
  | _ => h.hfwLen

def SlotHdr.setLen (h : SlotHdr) (kind n : Nat) : SlotHdr :=
  match kind with
  | 1 => { h with mfwLen := n }
  | 2 => { h with cfgLen := n }
  | _ => { h with hfwLen := n }

def NorSlot.region (x : NorSlot) : Nat → Bytes
  | 1 => x.mfw
  | 2 => x.cfg
  | _ => x.hfw

def NorSlot.setRegion (x : NorSlot) (kind : Nat) (b : Bytes) : NorSlot :=
  match kind with
  | 1 => { x with mfw := b }
  | 2 => { x with cfg := b }
  | _ => { x with hfw := b }

/-- The bytes of a region that an image of a length takes; bytes not programmed read as erased. -/
def NorSlot.image (x : NorSlot) (kind len : Nat) : Bytes :=
  let b := (x.region kind).take len
  b ++ List.replicate (len - b.length) 0xFF

/-! ## Images (R595 to R599) -/

structure Section where
  type : Nat
  off : Nat
  len : Nat
  crc : Nat
deriving DecidableEq, Repr

/-- The section table of an image (R595). -/
def sectionsOf (b : Bytes) : List Section :=
  (List.range (leAt b 7 1)).map fun i =>
    let e := b.drop (256 + 32 * i)
    { type := leAt e 0 4, off := leAt e 8 8, len := leAt e 16 8, crc := leAt e 24 4 }

def Section.bytes (x : Section) (b : Bytes) : Bytes := (b.drop x.off).take x.len

/-- The bytes of a section of a type, none where the image has none. -/
def sectionBytes (b : Bytes) (type : Nat) : Option Bytes := ((sectionsOf b).find? fun x => x.type == type).map fun x => x.bytes b

def imgSvn (b : Bytes) : Nat := leAt b 8 2
def imgFormat (b : Bytes) : Nat := leAt b 12 4
def imgSigned (b : Bytes) : Nat := leAt b 16 8
def imgEntry (b : Bytes) : Nat := leAt b 24 8
def imgPub (b : Bytes) : Bytes := (b.drop (imgSigned b)).take 1952
def imgSig (b : Bytes) : Bytes := (b.drop (imgSigned b + 1952)).take 3309

/-- The first check of R597, and the sections that a configuration image must hold (R599). -/
def shapeOk (kind len : Nat) (b : Bytes) : Bool :=
  let n := leAt b 7 1
  let ss := sectionsOf b
  let sg := imgSigned b
  leAt b 0 4 == 0x5658494D && leAt b 4 1 == kind && leAt b 5 1 == 1 && decide (1 ≤ n) && decide (n ≤ 32) && sg % 16 == 0 &&
    decide (sg + 5264 ≤ len) && decide (len ≤ regionSize kind) &&
    ss.all (fun x => decide (256 + 32 * n ≤ x.off) && decide (x.off + x.len ≤ sg) && (crc32c (x.bytes b)).toNat == x.crc) &&
    (List.range n).all (fun i => (List.range i).all fun j => match ss[i]?, ss[j]? with
      | some x, some y => decide (x.off + x.len ≤ y.off) || decide (y.off + y.len ≤ x.off)
      | _, _ => true) &&
    (kind != 2 || [1, 2, 3, 4].all fun t => ss.any fun x => x.type == t)

/-- Context string of an image's signature (R596). -/
def imgCtx : Nat → String
  | 1 => "VX8-MFW"
  | 2 => "VX8-CFG"
  | _ => "VX8-HFW"

/-- The image's measurement (R598). -/
def imgMeas (b : Bytes) : Bytes := shake256 (b.take (imgSigned b)) 64

/-- The signer's key is the one that a kind needs (R597). -/
def State.imgKeyOk (s : State) (kind : Nat) (b : Bytes) : Bool :=
  if kind = 1 then keyDigest (imgPub b) == makerDigest else s.otp.instLock && keyDigest (imgPub b) == s.otp.instDigest

def Otp.minOf (o : Otp) : Nat → Nat
  | 1 => o.mfwMin
  | 2 => o.cfgMin
  | _ => o.hfwMin

/-- The variant bit (R595). -/
def Variant.bit : Variant → Nat
  | .v4a => 0
  | .v8a => 1

/-- IDENT approves a measurement of management firmware (R600). -/
def approves (cfg meas : Bytes) : Bool := ((sectionBytes cfg 1).map fun x => (Config.identMeasurements x).contains meas).getD false

/-- REASON of the first check of R597 that an image fails, 0 where it passes: its kind, length and bytes, the measurement of the management
firmware it would run under, and whether its load ended with a tap fault. Without the whole image under the tap there is nothing to
verify a signature against, so that fault comes before it. -/
def State.imgReason (s : State) (kind len : Nat) (b mfwMeas : Bytes) (tapFault : Bool) : Nat :=
  if !shapeOk kind len b then 1
  else if !s.imgKeyOk kind b then 2
  else if tapFault then 6
  else if !sigOk (imgPub b) (imgCtx kind) (b.take (imgSigned b)) (imgSig b) then 2
  else if imgSvn b < s.otp.minOf kind then 3
  else if leAt b 6 1 / 2 ^ s.variant.bit % 2 = 0 then 4
  else if kind = 2 && !approves b mfwMeas then 5
  else 0

/-! ## Registers of the start -/

/-- Put an accepted image's measurement in its locked result slot (R598). -/
def State.measure (s : State) (slot : Nat) (b : Bytes) : State :=
  (s.setFlag dieB Reg.DGE_CTRL_EN true).putResult dieB slot 7 (imgMeas b) false false false true (imgSigned b)

/-- BOOT_SVN's minima, BOOT_STATUS.INSTALLED and WRAPGEN follow the OTP. -/
def State.showOtp (s : State) : State :=
  let s := (s.setFld dieB Reg.BOOT_SVN_MFW_MIN s.otp.mfwMin).setFld dieB Reg.BOOT_SVN_CFG_MIN s.otp.cfgMin
  let s := (s.setFld dieB Reg.BOOT_SVN_HFW_MIN s.otp.hfwMin).setFlag dieB Reg.BOOT_STATUS_INSTALLED s.otp.instLock
  s.setFld dieB Reg.BOOT_STATUS_WRAPGEN s.otp.wrapGen

/-- The boot decision record (R611); `slot` 0xFF in recovery. The SVNs are those of the image headers of the slot. -/
def State.decisionRecord (s : State) (slot : Nat) (svns : List Nat) : Bytes :=
  let a := s.nor.slotA.head
  let b := s.nor.slotB.head
  let h := (s.norSlot slot).head
  padTo 64 (le 4 (if slot = 0xFF then 0 else h.gen) ++ le 1 slot ++ le 1 a.state ++ le 1 b.state ++ le 1 a.reason ++ le 1 b.reason ++
    le 1 (if slot = 0xFF then 0 else h.tries) ++ svns.flatMap (le 1) ++ le 1 s.otp.mfwMin ++ le 1 s.otp.cfgMin ++ le 1 s.otp.hfwMin ++
    le 1 s.otp.wrapGen ++ le 1 (if s.otp.instLock then 1 else 0) ++ le 1 (s.fld dieB Reg.BOOT_STATUS_FCR_OK))

/-- The booted slot. -/
def State.booted (s : State) : Nat := s.fld dieB Reg.BOOT_STATUS_SLOT

def State.setPhase (s : State) (p : BootPhase) : State := { s with boot := { s.boot with phase := p } }

/-- A check failed during a start: the slot is REJECTED with its REASON, and the B-die is reset (R607). -/
def State.rejectSlot (s : State) (k reason : Nat) : State :=
  let s := s.writeHdr k { (s.norSlot k).head with state := 4, reason := reason }
  (s.resetB).setFld dieB Reg.PWR_STATUS_LAST_CAUSE 5

/-! ## Applying the configuration image (R602) -/

/-- Commit a block's tables; the copy back has ended before management firmware goes on (R23). -/
def State.commitNow (s : State) (die blk mask : Nat) : State :=
  (s.commitTables die blk mask).finishCopy die blk

/-- A write by management firmware; one of BLOCK_TCOMMIT with COMMIT set commits. -/
def State.mfwWrite (s : State) (addr : Nat) (v : Word) : State :=
  match s.decodeCsr addr 8 with
  | some (die, blk, off, r) =>
    let t := s.writeReg .mp die blk off r v 0
    if off = 0xFF00 && !(blockTables blk).isEmpty && bitsAt v 0 1 == 1 && bitsAt v 3 1 == 0 then t.commitNow die blk (bitsAt v 16 16) else t
  | none => s

/-- An entry of REGINIT: ADDR, VALUE, MASK. -/
def regEntries (b : Bytes) : List (Nat × Nat × Nat) :=
  (List.range (b.length / 24)).map fun i => (leAt b (24 * i) 8, leAt b (24 * i + 8) 8, leAt b (24 * i + 16) 8)

/-- Apply an entry: register := (register and not MASK) or (VALUE and MASK); a decode error, BOOT and ROLE are skipped with an event
record. -/
def State.regInit (s : State) (e : Nat × Nat × Nat) : State :=
  match s.decodeCsr e.1 8 with
  | none => s.event dieB 0x01 0 noInst
  | some (die, blk, off, _) =>
    if blk = 0x01 ∨ blk = 0x02 then s.event dieB 0x01 0 noInst
    else
      let old := match s.windowKey die blk off with
        | some k => s.shadow.getD k (tblDefault k)
        | none => s.reg die blk off
      let mask := BitVec.ofNat 64 e.2.2
      s.mfwWrite e.1 ((old &&& ~~~mask) ||| (BitVec.ofNat 64 e.2.1 &&& mask))

/-- The entry writes the CDC, MED or LDP block: it is applied after the tables. -/
def lateEntry (e : Nat × Nat × Nat) : Bool :=
  let blk := e.1 / 2 ^ 24 % 256
  blk == 0x30 || blk == 0x21 || blk == 0x22

/-- Write consecutive entries of table 0 of a block from 8-byte words, as writes of its data register (R10). -/
def State.loadTable (s : State) (die blk : Nat) (b : Bytes) : State :=
  match findReg blk 0x108 with
  | some r => (List.range (b.length / 8)).foldl (fun s i => s.writeTable die blk (tblKey die blk 0 i 0) r (BitVec.ofNat 64 (leAt b (8 * i) 8))) s
  | none => s

/-- REGINIT, then gear table, LDPC table and NAND profiles, then the entries that come after them (R602). -/
def State.applyConfig (s : State) (cfg : Bytes) (profAt : Nat) : State :=
  let es := ((sectionBytes cfg 5).map regEntries).getD []
  let s := (es.filter fun e => !lateEntry e).foldl State.regInit s
  let gear := ((sectionBytes cfg 2).getD []).take 2048
  let s := (List.range s.variant.tiles).foldl (fun s t =>
    let d := dieC t
    let s := (s.loadTable d 0x30 gear).commitNow d 0x30 1
    if s.flag d Reg.CDC_STATUS_GEAR_SET then (s.setFlag d Reg.CDC_CTRL_EN true).setFlag d Reg.CDC_CTRL_LOCK true else s) s
  let ldpc := (sectionBytes cfg 3).getD []
  let nand := (sectionBytes cfg 4).getD []
  let s := (List.range s.variant.sides).foldl (fun s m =>
    let d := dieM m
    let s := (s.loadTable d 0x22 ((ldpc.drop 4).take (8 * leAt ldpc 0 4))).commitNow d 0x22 1
    if s.flag d Reg.LDP_CIRC_IDX_CIRC_SET then (s.setFlag d Reg.LDP_CTRL_EN true).setFlag d Reg.LDP_CTRL_LOCK true else s) s
  let s := s.stores profAt (nand.drop 4)
  let s := (List.range s.variant.sides).foldl (fun s m =>
    (s.setFld (dieM m) Reg.MED_PROF_BASE_ADDR profAt).setFld (dieM m) Reg.MED_PROF_COUNT_COUNT (leAt nand 0 4)) s
  (es.filter lateEntry).foldl State.regInit s

/-! ## The start (R603 to R607, R647, R649, R654, R664) -/

/-- Erase of the recorder cut short by a loss of power (R654): slot 0 is empty and a later one is not. It is completed, and the CLEARED
record comes before any other. -/
def State.clearedRecord (s : State) (n : Nat) : State :=
  let s := ({ s with nor := { s.nor with events := [], evSeq := 0 } } : State).scanEvents
  let s' := { s with free := s.free + 1 }
  s'.writeEvent (s.mfwRecord 0x0002 (padTo 16 s.otp.instDigest ++ le 4 n))

def State.finishErase (s : State) : State :=
  if !s.nor.events.isEmpty && !s.nor.events.has 0 then s.clearedRecord s.nor.events.length else s.scanEvents

/-- From what moment the rails of some dies count as in regulation (R642). -/
def State.railsUp (s : State) (dies : List Nat) : State :=
  dies.foldl (fun s d => s.setTemp d { s.dieTemp d with railsAt := s.ao.tb }) s

/-- Steps 4 to 8 of R603. -/
def State.startRest (s : State) (x : StartIn) : State :=
  let k := s.booted
  let sl := s.norSlot k
  let h := sl.head
  let cfg := sl.image 2 h.cfgLen
  let hfw := sl.image 3 h.hfwLen
  let bad := s.imgReason 2 h.cfgLen cfg (s.loadedMeas 0) (x.tapFaults.contains 2)
  if bad ≠ 0 then s.rejectSlot k bad
  else
    let s := (s.measure 1 cfg).setFld dieB Reg.BOOT_SVN_CFG (imgSvn cfg)
    let s := s.setFld dieB Reg.BOOT_FORMAT_FORMAT (imgFormat cfg)
    let s := (x.dimms.filter fun d => s.variant.populated (dieM d.1)).foldl (fun s d =>
      let f := fun (f : Fld) => f.plus (8 * (d.2.1 % 8))
      ((s.setFlag (dieM d.1) (f Reg.DMC_CHAN_PRESENT) true).setFlag (dieM d.1) (f Reg.DMC_CHAN_TRAINED) d.2.2.2).setFld (dieM d.1)
        (f Reg.DMC_CHAN_SIZE_GIB) d.2.2.1) s
    if !x.railsOk || x.dimms.any fun d => !d.2.2.2 then
      let s := (s.setFlag dieB Reg.PWR_STATUS_DIE_FAIL true).setFlag dieB Reg.PWR_STATUS_PWR_GOOD false
      (s.event dieB 0x05 0 noInst).setPhase .railFail
    else
      let s := s.railsUp (s.variant.dies.filter (· != 0))
      let bad := s.imgReason 3 h.hfwLen hfw (s.loadedMeas 0) (x.tapFaults.contains 3)
      if bad ≠ 0 then s.rejectSlot k bad
      else
        let s := (s.measure 2 hfw).setFld dieB Reg.BOOT_SVN_HFW (imgSvn hfw)
        let s := s.setFlag dieB Reg.BOOT_STATUS_MEAS_OK true
        let s := (s.stores x.herdAt hfw).stores x.cfgAt cfg
        let sect := ((sectionsOf cfg).find? fun y => y.type == 7).map fun y => x.cfgAt + y.off
        let s := { s with boot := { s.boot with herdAt := x.herdAt, cfgAt := x.cfgAt, sectAt := sect.getD 0, nqn := Config.identNqn ((sectionBytes cfg 1).getD []) } }
        let s := s.applyConfig cfg x.profAt
        let s := s.setFld dieB Reg.BOOT_HVEC_ADDR (x.herdAt + imgEntry hfw)
        let s := (List.range s.variant.tiles).foldl (fun s t => s.setFlag (dieC t) Reg.HRD_CTRL_EN true) s
        s.setPhase .loaded

/-- Management firmware is entered: held records are written, and a POWER_ON record (R650, R657, R717). -/
def State.mfwRuns (s : State) : State :=
  let slot := leAt s.boot.record 4 1
  (s.norFlush).mfwEvent 0x0004 (le 1 (s.fld dieB Reg.PWR_STATUS_LAST_CAUSE) ++ le 1 slot)

/-- Steps 2 and 3 of R603 for a chosen slot. -/
def State.startSlot (s : State) (x : StartIn) (k : Nat) (trial : Bool) : State :=
  let sl := s.norSlot k
  let h := sl.head
  let b := sl.image 1 h.mfwLen
  let s := (s.setFld dieB Reg.BOOT_STATUS_SLOT k).setFlag dieB Reg.BOOT_STATUS_TRIAL trial
  if !shapeOk 1 h.mfwLen b then s.rejectSlot k 1
  else if !s.imgKeyOk 1 b then s.rejectSlot k 2
  else if !s.rowOk (imgPub b) then s.setPhase .rowFailed
  else
    let s := s.setFlag dieB Reg.BOOT_STATUS_FCR_OK true
    let bad := s.imgReason 1 h.mfwLen b [] (x.tapFaults.contains 1)
    if bad ≠ 0 then s.rejectSlot k bad
    else
      let s := (s.measure 0 b).setFld dieB Reg.BOOT_SVN_MFW (imgSvn b)
      let svn := fun (kind : Nat) => imgSvn (sl.image kind (h.lenOf kind))
      let s := { s with boot := { s.boot with makerPub := imgPub b, record := s.decisionRecord k [svn 1, svn 2, svn 3] } }
      let s := s.mfwRuns
      if !s.otp.instLock then s.setPhase .uninstalled
      else if s.ao.tripLatched then s.setPhase .tripWait
      else s.startRest x

/-- Step 1 of R603: the choice of R607 among the slots whose devices can be read (R627). -/
def State.bootRom (s : State) (x : StartIn) : State :=
  let s := (s.setFlag dieB Reg.PWR_STATUS_PWR_GOOD true).railsUp [dieB]
  let s := s.finishErase.showOtp
  let can := fun (k : Nat) => if k = 0 then x.nor0 else x.nor1
  let hdr := fun (s : State) (k : Nat) => if can k then (s.norSlot k).hdr else none
  let s := [0, 1].foldl (fun s k => s.showReason k (((hdr s k).map SlotHdr.reason).getD 0)) s
  let is := fun (s : State) (k st : Nat) => (hdr s k).any fun h => h.state == st
  match [0, 1].find? fun k => is s k 2 && (hdr s k).any fun h => decide (0 < h.tries) with
  | some k =>
    let h := (s.norSlot k).head
    (s.writeHdr k { h with tries := h.tries - 1 }).startSlot x k true
  | none =>
    let s := ([0, 1].filter fun k => is s k 2).foldl (fun s k => s.writeHdr k { (s.norSlot k).head with state := 4, reason := 7 }) s
    match is s 0 3, is s 1 3 with
    | true, true => s.startSlot x (if (s.norSlot 0).head.gen < (s.norSlot 1).head.gen then 1 else 0) false
    | true, false => s.startSlot x 0 false
    | false, true => s.startSlot x 1 false
    | false, false => s.setPhase .waitImage

/-- An image received by the boot ROM is accepted and run with RECOVERY set (R606, R638): REASON of the check it fails, or 0. -/
def State.runRecovery (s : State) (len : Nat) (b : Bytes) : Nat × State :=
  let b := b.take len ++ List.replicate (len - b.length) 0xFF
  let bad := s.imgReason 1 len b [] false
  if bad ≠ 0 then (bad, s)
  else if !s.rowOk (imgPub b) then (0, s.setPhase .rowFailed)
  else
    let s := (s.setFlag dieB Reg.BOOT_STATUS_FCR_OK true).setFlag dieB Reg.BOOT_STATUS_RECOVERY true
    let s := (s.measure 0 b).setFld dieB Reg.BOOT_SVN_MFW (imgSvn b)
    let s := { s with boot := { s.boot with makerPub := imgPub b, record := s.decisionRecord 0xFF [imgSvn b, 0, 0] } }
    (0, s.mfwRuns.setPhase .recovery)

/-- The head can start, or go on with a start that waited (R603, R647, R679). -/
def State.canStart (s : State) : Bool :=
  s.pair.head == .boot && s.ao.bPower && !s.ao.hold && s.ao.dump.isNone && (s.boot.phase == .idle || s.boot.phase == .resumed)

/-- The start, or what is left of it; it waits while the NOR window is not met (R649). -/
def State.start (s : State) (x : StartIn) : State :=
  let s := { s with pins := { s.pins with sysRstN := true } }
  if !s.canStart || !s.norWindow then s
  else if s.boot.phase = .resumed then s.startRest x
  else s.bootRom x

/-! ## Confirmation (R608) -/

/-- A head in TWIN or SOLO that runs from a TRIAL slot confirms it, within the NOR window, and raises the minima. -/
def State.confirmSlot (s : State) : State :=
  let k := s.booted
  let sl := s.norSlot k
  if (s.pair.head == .twin || s.pair.head == .solo) && s.flag dieB Reg.BOOT_STATUS_TRIAL && sl.head.state == 2 && s.norWindow then
    let h := sl.head
    let s := s.writeHdr k { h with state := 3 }
    let svn := fun (kind : Nat) => imgSvn (sl.image kind (h.lenOf kind))
    let o := s.otp
    ({ s with otp := { o with mfwMin := max o.mfwMin (svn 1), cfgMin := max o.cfgMin (svn 2), hfwMin := max o.hfwMin (svn 3) } } : State).showOtp
  else s

end Sys2Proof.Machine
end

