-- ==== Sys2Proof/Machine/Repl.lean ====
section
/-! DEFINITION. Replication between pairs (R483 to R490): what a message says, the source's cycle, the remote head's batch, and the
journal records of a synchronous session. -/

namespace Sys2Proof.Machine

open Sys2Proof

/-! ## Messages (R483) -/

/-- Cut items into messages of a kind, each no longer than a message may be: their count and their bytes. -/
def groupItems (items : List Bytes) : List (Nat × Bytes) :=
  let r := items.foldl (fun (a : List (Nat × Bytes) × Nat × Bytes) i =>
    if a.2.1 ≠ 0 ∧ maxMsg < 16 + a.2.2.length + i.length then (a.1 ++ [(a.2.1, a.2.2)], 1, i) else (a.1, a.2.1 + 1, a.2.2 ++ i)) ([], 0, [])
  if r.2.1 = 0 then r.1 else r.1 ++ [(r.2.1, r.2.2)]

/-- The bitmap that has a bit for each of `n` items. -/
def bitmap (n : Nat) (p : Nat → Bool) : Bytes :=
  (List.range ((n + 7) / 8)).map fun b => BitVec.ofNat 8 ((List.range 8).foldl (fun v i => v + (if decide (b * 8 + i < n) && p (b * 8 + i) then 2 ^ i else 0)) 0)

/-- Bit `i` of a bitmap. -/
def bitSet (b : Bytes) (i : Nat) : Bool := (b.getD (i / 8) 0).getLsbD (i % 8)

/-- Bytes of a MAPS item. -/
def MapIt.bytes : MapIt → Bytes
  | .block lba idx => le 8 lba ++ le 4 (idx.getD 0xFFFFFFFF)
  | .value key vlen idxs => le 1 key.length ++ zeros 3 ++ le 4 vlen ++ le 4 ((idxs.map List.length).getD 0xFFFFFFFF) ++ padTo 16 key ++
      (idxs.getD []).flatMap (le 4)

/-- Read MAPS items; none where the bytes end within one, or go on after the last. -/
def readMaps (kv : Bool) : Nat → Bytes → Option (List MapIt)
  | 0, b => if b.isEmpty then some [] else none
  | n + 1, b =>
    if !kv then
      if b.length < 12 then none
      else
        let i := leAt b 8 4
        (readMaps kv n (b.drop 12)).map fun l => .block (leAt b 0 8) (if i = 0xFFFFFFFF then none else some i) :: l
    else if b.length < 28 then none
    else
      let k := leAt b 8 4
      let del := k == 0xFFFFFFFF
      let m := if del then 0 else k
      if b.length < 28 + 4 * m then none
      else
        let idxs := (List.range m).map fun i => leAt b (28 + 4 * i) 4
        let it := MapIt.value ((b.drop 12).take (min 16 (leAt b 0 1))) (leAt b 4 4) (if del then none else some idxs)
        -- a key length outside 1 to 16 is told by its key (R491)
        let it := if leAt b 0 1 = 0 ∨ 16 < leAt b 0 1 then MapIt.value [] 0 none else it
        (readMaps kv n (b.drop (28 + 4 * m))).map fun l => it :: l

/-- Read CHUNKS items: index, ULEN, stream. -/
def readChunks : Nat → Bytes → Option (List (Nat × Nat × Bytes))
  | 0, b => if b.isEmpty then some [] else none
  | n + 1, b =>
    let sl := leAt b 8 4
    if b.length < 12 + sl then none
    else (readChunks n (b.drop (12 + sl))).map fun l => (leAt b 0 4, leAt b 4 4, (b.drop 12).take sl) :: l

/-- Read a journal record (R143); none where its CRC fails or its BLOCKS disagree with its length. -/
def JRec.ofBytes (b : Bytes) : Option JRec :=
  let n := leAt b 6 2
  let body := b.drop 128
  if b.length ≠ 128 + n * 4096 ∨ leAt b 0 4 ≠ 0x56584A31 ∨ leAt b 124 4 ≠ (crc32c (b.take 124 ++ body)).toNat then none
  else
    let f := fun (i : Nat) => leAt b 5 1 / 2 ^ i % 2 == 1
    let part := leAt b 8 2
    let v := leAt b 40 8
    some { side := leAt b 4 1, kv := f 0, mediaDur := f 1, zeroes := f 2, dealloc := f 3, part := part, parts := leAt b 10 2,
           epoch := leAt b 12 4, seq := leAt b 16 8, tag := leAt b 24 8, nsid := leAt b 32 4,
           key := (b.drop 48).take (min 16 (leAt b 36 1)), cls := leAt b 37 1, slba := v, nlb := leAt b 72 8, arrival := leAt b 64 8,
           append := leAt b 80 8, data := if f 0 then body.take (min 131072 (v - part * 131072)) else body }

/-! ## The source (R485, R486) -/

/-- The head that runs the cycles of the pair. -/
def State.runsRepl (s : State) : Bool :=
  s.serving && (s.pair.head == .solo || s.flag (dieF 0) Reg.TKO_STATE_SHARD_MASTER)

/-- A page as a snapshot of epoch `e` holds it. -/
def State.pageAt (s : State) (nsid e pid : Nat) : PageBody := (s.page (s.resolvePage nsid (some e) pid 64)).body

/-- References of a value as a snapshot holds it. -/
def State.valRefsAt (s : State) (nsid e : Nat) (v : ValEnt) : List Nat :=
  if v.nchunk ≤ 3 then v.refs.take v.nchunk
  else (List.range v.nchunk).map fun j =>
    let pid := ownPage nsid v.list + j / 512
    pageRef (s.pageAt nsid e pid) (s.pageDomain pid) (j % 512)

/-- Pages to compare (R486 step 2): with a freeze-tree entry from the epoch of the last cycle's snapshot up to this one's; in cycle 0
every written page. -/
def State.listPages (s : State) (nsid : Nat) (prev : Option Nat) (cur : Nat) (kind : Nat) : List Nat :=
  match prev with
  | some e => ((s.arr.frozen.filter fun f => f.nsid == nsid && decide (e ≤ f.epoch) && decide (f.epoch < cur) && pKind f.page == kind).map
      Frozen.page).eraseDups
  | none => (((s.ftl.pages.keep fun p _ => pKind p == kind && !(s.arr.frozen.any fun f => f.copy == p)).keys.map pIndex).eraseDups).map
      (pageId kind (nsid - 1))

/-- Entries of a namespace that differ between two snapshots: blocks, or keys with their length, with references (none: the key is
gone). -/
def State.diff (s : State) (nsid : Nat) (n : NsRec) (prev : Option Nat) (cur : Nat) : List (Nat × Key × Nat × Option (List Nat)) :=
  if !n.kv then
    (s.listPages nsid prev cur 1).flatMap fun p =>
      let dom := s.pageDomain p
      let new := s.pageAt nsid cur p
      (List.range 512).filterMap fun i =>
        let r := pageRef new dom i
        let old := match prev with
          | some e => pageRef (s.pageAt nsid e p) dom i
          | none => mkRef dom 0
        if r = old then none else some (pIndex p * 512 + i, [], 0, some [r])
  else
    let keysOf := fun (b : PageBody) => match b with
      | .leaf _ es => es.map ValEnt.key
      | _ => []
    let keys := ((s.listPages nsid prev cur 2).flatMap fun p =>
      keysOf (s.pageAt nsid cur p) ++ (match prev with
        | some e => keysOf (s.pageAt nsid e p)
        | none => [])).eraseDups
    keys.filterMap fun k =>
      let val := fun (e : Nat) => (s.kvFind nsid (some e) k).map fun v => (v.vlen, s.valRefsAt nsid e v)
      let new := val cur
      if prev.isSome ∧ prev.bind val = new then none
      else match new with
        | some (vlen, refs) => some (0, k, vlen, some refs)
        | none => if prev.isSome then some (0, k, 0, none) else none

/-- Fingerprint of a chunk, as the index holds it. -/
def State.fpOf (s : State) (ref : Nat) : Bytes := padTo 32 (((s.indexOf ref).head?.map FpEnt.fp).getD [])

/-- List the differences of a cycle and send their FPLIST (R486 steps 2 to 4). -/
def State.listCycle (s : State) (k : Nat) : State :=
  match s.sess k with
  | none => s
  | some x => match x.src, s.ns x.d.nsid with
    | some c, some n =>
      let epoch := fun (id : Nat) => (s.snap x.d.nsid id).map Snap.epoch
      match epoch c.cur with
      | none => s
      | some e =>
        let l := s.diff x.d.nsid n (c.prev.bind epoch) e
        let refs := ((l.flatMap fun d => d.2.2.2.getD []).filter fun r => refNum r != 0).eraseDups
        let idx := fun (r : Nat) => refs.findIdx? (· == r)
        let fps := refs.map fun r => (s.fpOf r, (s.chunk r).len, r)
        let maps := l.map fun d => match d.2.2.2 with
          | some rs => if n.kv then MapIt.value d.2.1 d.2.2.1 (some (rs.map fun r => (idx r).getD 0)) else .block d.1 (rs.head?.bind idx)
          | none => .value d.2.1 0 none
        let c := { c with listed := true, fps := fps, maps := maps, mapsSent := false, want := none, parts := [] }
        (s.setSess k { x with src := some c }).sendMsg k
          (repHead 1 c.batch x.d.rnsid fps.length ++ fps.flatMap fun f => f.1 ++ le 4 f.2.1)
    | _, _ => s

/-- Begin a cycle, or take up the one that the namespace record names (R486 step 1, R490). -/
def State.startCycle (s : State) (k : Nat) : State :=
  match s.sess k with
  | none => s
  | some x => match s.ns x.d.nsid with
    | none => s
    | some n =>
      if x.src.isSome || n.replica || !s.runsRepl || (x.d.sync && !x.degraded) then s
      else
        let mk := fun (b : Nat) (p : Option Nat) (c : Nat) =>
          ({ batch := b, prev := p, cur := c, listed := false, fps := [], maps := [], mapsSent := false, want := none, parts := [] } : SrcCycle)
        match n.cycle with
        | some (b, p, c) => s.setSess k { x with src := some (mk b p c) }
        | none => match s.snapCreate x.d.nsid with
          | (s, some c) => match s.ns x.d.nsid with
            | some n => (s.putNs x.d.nsid { n with cycle := some (0, none, c) }).setSess k { x with src := some (mk 0 none c) }
            | none => s
          | (s, none) => s

/-- The remote pair holds a cycle (R486 step 6): the last cycle's snapshot goes, and the next cycle begins. -/
def State.nextCycle (s : State) (k : Nat) (x : Sess) (c : SrcCycle) : State :=
  let nsid := x.d.nsid
  let s := s.setSess k { x with src := none }
  let s := match c.prev with
    | some p => (s.snapDelete p).1
    | none => s
  let set := fun (s : State) (v : Option (Nat × Option Nat × Nat)) => match s.ns nsid with
    | some n => s.putNs nsid { n with cycle := v }
    | none => s
  match s.snapCreate nsid with
  | (s, some new) => (set s (some (c.batch + 1, some c.cur, new))).startCycle k
  | (s, none) => set s none

/-- Ask for the chunks of a NEED. -/
def State.fetchNeeded (s : State) (k : Nat) (x : Sess) (c : SrcCycle) (l : List Nat) : State :=
  let s := s.setSess k { x with src := some { c with want := some l, parts := [] } }
  l.foldl (fun s i => match c.fps[i]? with
    | some (_, _, ref) =>
      let e := s.chunk ref
      s.readPack e.pack (ref - e.member) (refDomain ref) x.d.cls x.d.tile (.repl k i e.member)
    | none => s) s

/-- Send the chunks of a NEED when all are read; after the first NEED of a batch its MAPS and COMMIT as well (R485, R486). -/
def State.answerNeed (s : State) (k : Nat) : State :=
  match s.sess k with
  | none => s
  | some x => match x.src with
    | none => s
    | some c => match c.want with
      | none => s
      | some l =>
        if !(l.all fun i => c.parts.has i) then s
        else
          let items := l.map fun i =>
            let b := c.parts.getD i []
            let st := (deflate b).1
            le 4 i ++ le 4 b.length ++ le 4 st.length ++ st
          let send := fun (kind : Nat) (s : State) (g : Nat × Bytes) => s.sendMsg k (repHead kind c.batch x.d.rnsid g.1 ++ g.2)
          let s := s.setSess k { x with src := some { c with want := none, parts := [], mapsSent := true } }
          let s := (groupItems items).foldl (send 3) s
          if c.mapsSent then s
          else
            let s := (groupItems (c.maps.map MapIt.bytes)).foldl (send 4) s
            let e := ((s.snap x.d.nsid c.cur).map Snap.epoch).getD 0
            s.sendMsg k (repHead 5 c.batch x.d.rnsid 0 ++ le 8 e)

/-! ## The remote head (R484, R485, R487) -/

/-- The stored chunk that confirms an item of an FPLIST: the highest reference (R187 to R189). -/
def State.confirmed (s : State) (domain : Nat) (f : Bytes × Nat) : Option Nat :=
  (s.confirmable domain f.1 f.2).foldl (fun (b : Option Nat) e => some (max e.ref (b.getD 0))) none

/-- Ask the source for items of the batch. -/
def State.sendNeed (s : State) (k : Nat) (x : Sess) (b : DstBatch) (p : Nat → Bool) : State :=
  s.sendMsg k (repHead 2 b.batch x.d.nsid b.fps.length ++ bitmap b.fps.length p)

/-- Indexes that an item names. -/
def MapIt.idxs : MapIt → List Nat
  | .block _ i => i.toList
  | .value _ _ l => l.getD []

/-- The change that an item makes to the replica, with the references of its chunks. -/
def State.mapChange (s : State) (nsid : Nat) (n : NsRec) (ref : Nat → Nat) : MapIt → Option (List Item × NsRec)
  | .block lba i => s.mapItems nsid s.side (some s.ao.tb) n (lbaPage nsid lba) [(lba % 512, (i.map ref).getD (mkRef n.domain 0))]
  | .value key vlen l => s.kvItems nsid s.side (some s.ao.tb) n key (l.map fun l => (vlen, l.map ref))

/-- Apply the first item of MAPS that waits, as soon as its chunks confirm and no change of its pages is under way; `fuel` bounds the
items. -/
def State.applyMaps (s : State) (k : Nat) : Nat → State
  | 0 => s
  | fuel + 1 => match s.sess k with
    | none => s
    | some x => match x.dst, s.ns x.d.nsid with
      | some b, some n => match b.items with
        | [] => s
        | it :: rest =>
          let got := fun (i : Nat) => (b.fps[i]?).bind (s.confirmed n.domain)
          let missing := it.idxs.filter fun i => (got i).isNone
          let busyJobs := s.dst.jobs.vals.any fun j => j.repl.any fun r => r.1 == k
          if b.held || (!missing.isEmpty && busyJobs) then s
          else if !missing.isEmpty then
            if missing.all b.asked.contains then s
            else (s.setSess k { x with dst := some { b with asked := b.asked ++ missing } }).sendNeed k x b fun i => missing.contains i
          else
            let full := match it with
              | .value key _ (some _) => s.leafFull x.d.nsid key
              | _ => false
            if full then (s.setSess k { x with dst := some { b with held := true } }).exc x.d.tile .split [x.d.nsid, x.d.session]
            else match s.mapChange x.d.nsid n (fun i => (got i).getD 0) it with
              | none => s
              | some (items, n') =>
                let busy := s.pendingPages
                if items.any fun i => (s.itemPages i).any fun p => decide (pKind p ≤ 4) && busy.contains p then s
                else
                  let shard := match it with
                    | .block lba _ => shardOf x.d.nsid lba
                    | .value key _ _ => keyShard x.d.nsid key
                  let s := (s.logTxn none shard 0 items).1
                  let s := if n'.index = n.index then s else s.putNs x.d.nsid n'
                  (s.setSess k { x with dst := some { b with items := rest } }).applyMaps k fuel
      | _, _ => s

/-- COMMIT has come and every item is applied and durable: the replica snapshot; when it is READY, COMMITTED (R487). -/
def State.commitBatch (s : State) (k : Nat) : State :=
  match s.sess k with
  | none => s
  | some x => match x.dst with
    | none => s
    | some b =>
      let busyJobs := s.dst.jobs.vals.any fun j => j.repl.any fun r => r.1 == k
      if !b.commit || !b.items.isEmpty || busyJobs then s
      else match b.snap with
        | none => if s.nsPending x.d.nsid then s else match s.snapCreate x.d.nsid with
          | (s, some id) => s.setSess k { x with dst := some { b with snap := some id } }
          | (s, none) => s
        | some id => match s.snap x.d.nsid id with
          | some { state := .ready, .. } =>
            (s.setSess k { x with dst := none }).sendMsg k (repHead 6 b.batch x.d.nsid 1 ++ le 4 id)
          | _ => s

/-- JACKs of remote records that are appended and mirrored (R488). -/
def State.sendJacks (s : State) (k : Nat) : State :=
  match s.sess k with
  | none => s
  | some x =>
    let done := x.jacks.filter fun q => !s.mirroring || (match s.jrnl.own.find? q with
      | some e => e.acked
      | none => true)
    if done.isEmpty then s
    else
      let tags := done.filterMap fun q => (s.jrnl.own.find? q).map fun e => e.r.tag
      let s := s.setSess k { x with jacks := x.jacks.filter fun q => !done.contains q }
      if tags.isEmpty then s else s.sendMsg k (repHead 8 0 x.d.nsid tags.length ++ tags.flatMap (le 8))

/-- Every session goes on as far as it can. -/
def State.replNext (s : State) : State :=
  s.pgt.sess.keys.foldl (fun s k =>
    let s := s.startCycle k
    let ready : Bool := match s.sess k with
      | some x => x.src.any fun c => !c.listed && (match s.snap x.d.nsid c.cur with
          | some { state := .ready, .. } => true
          | _ => false)
      | none => false
    let s := if ready then s.listCycle k else s
    let n := ((s.sess k).bind fun x => x.dst.map fun b => b.items.length).getD 0
    ((((s.answerNeed k).applyMaps k (n + 1)).commitBatch k).sendJacks k)) s

end Sys2Proof.Machine
end

