-- ==== Sys2Proof/Machine/Sess.lean ====
section
/-! DEFINITION. Creating and destroying Pronghorn sessions (R474, R490, R494), by register or by role command. -/

namespace Sys2Proof.Machine

open Sys2Proof

/-- Read a descriptor; none where a field holds a value outside its table. -/
def State.readDesc (s : State) (addr : Nat) : Option SessDesc :=
  let b := s.loads addr 64
  let n := fun (i w : Nat) => leAt b i w
  let fl := n 4 1
  let bad := decide (8 ≤ fl) || n 5 1 == 0 || decide (16 < n 5 1) || n 6 1 == 0 || decide (16 ≤ n 6 1) || n 7 1 == 0 || decide (7 < n 7 1) ||
    decide (s.variant.tiles ≤ n 10 1) || n 11 1 != 0 || (b.drop 52).any (· != 0) || (fl % 2 == 0 && n 16 12 != 0)
  if bad then none
  else some { session := n 0 4, ipv6 := fl % 2 == 1, sync := fl / 2 % 2 == 1, strict := fl / 4 % 2 == 1, paths := n 5 1, ports := n 6 1,
              cls := n 7 1, txEntry := n 8 1, rxEntry := n 9 1, tile := n 10 1, raddr := BitVec.ofNat 128 (n 12 16),
              rmac := BitVec.ofNat 48 (n 28 6), sportBase := n 34 2, txLoad := n 36 4, rxLoad := n 40 4, nsid := n 44 4, rnsid := n 48 4 }

/-- Result of a session command. -/
def State.sessResult (s : State) (fdie err : Nat) : State :=
  ((s.setFld (dieF fdie) Reg.PGT_SESSRES_ERR err).setFlag (dieF fdie) Reg.PGT_SESSRES_BUSY false).setFlag (dieF fdie) Reg.PGT_SESSRES_DONE true

/-- A session with nothing under way, every path at the line rate of its port. -/
def State.freshSess (s : State) (fdie : Nat) (d : SessDesc) : Sess :=
  { d := d, fdie := fdie, degraded := false, nextMsg := 0, cum := 0, outs := [], queue := [], turn := 0,
    paths := d.allPaths.foldl (fun m p => m.insert p (PgPath.fresh (s.lineRate (fdie * 4 + p / 16)) s.ao.tb)) ([] : SMap PgPath),
    rxLoad := d.rxLoad, rxCum := 0, ins := [], lastPath := d.allPaths.headD 0, ce := 0, ready := [], jrecs := [], jacks := [], seen := [],
    src := none, dst := none }

/-- Announce a generation with a PROBE (R481). -/
def State.sendProbe (s : State) (k : Nat) : State :=
  match s.sess k with
  | none => s
  | some x =>
    let (p, turn) := x.nextPath
    (s.setSess k { x with turn := turn }).pgPacket x p (PgHdr.blank 4) 0 []

/-- Send the records of a namespace again that no JACK covers: own and adopted ones (R490). -/
def State.resendJrecs (s : State) (k : Nat) : State :=
  match s.sess k with
  | none => s
  | some x =>
    if !x.d.sync || x.degraded then s
    else
      let l := (s.jrnl.own.vals ++ s.jrnl.mirror.vals).filter fun e => !e.jack && e.r.nsid == x.d.nsid
      l.foldl (fun s e => s.sendJrec k e.r) s

/-- Create a session (R474). -/
def State.sessCreate (s : State) (fdie addr : Nat) : State :=
  match s.readDesc addr with
  | none => s.sessResult fdie 3
  | some d =>
    let k := sessKey fdie d.session
    if (s.sess k).isSome then s.sessResult fdie 3
    else if 256 ≤ (s.pgt.sess.vals.filter fun x => x.fdie == fdie).length then s.sessResult fdie 1
    else (((s.setSess k (s.freshSess fdie d)).sendProbe k).resendJrecs k).sessResult fdie 0

/-- Destroy a session: records that wait for its JACK wait no longer. -/
def State.sessDestroy (s : State) (fdie session : Nat) : State :=
  let k := sessKey fdie session
  match s.sess k with
  | none => s.sessResult fdie 2
  | some _ =>
    let s := s.degrade k
    let p := { s.pgt with sess := s.pgt.sess.erase k, tx := s.pgt.tx.filter fun t => !(t.fdie == fdie && t.session == session),
                          rx := s.pgt.rx.filter fun t => !(t.fdie == fdie && t.hdr.session == session) }
    ({ s with pgt := p } : State).sessResult fdie 0

end Sys2Proof.Machine
end

