-- ==== Sys2Proof/Machine/Roles.lean ====
section
/-! DEFINITION. Role commands (spec/14, R613 to R625): what an envelope must satisfy, what each command does, and its outcome. -/

namespace Sys2Proof.Machine

open Sys2Proof

/-! ## The table of R617 -/

def RoleBody.code : RoleBody → Nat
  | .getChallenge => 0x01
  | .getCalrow => 0x02
  | .install _ => 0x10
  | .setOpkey _ _ => 0x11
  | .revokeOpkey _ => 0x12
  | .clearEvr => 0x13
  | .layout _ _ _ _ => 0x14
  | .epochReinit => 0x15
  | .clearDeferred => 0x16
  | .nsCreate _ _ _ _ => 0x20
  | .nsDelete _ => 0x21
  | .nsDisable _ => 0x22
  | .nsEnable _ => 0x23
  | .c0Resident _ => 0x24
  | .adminHosts _ => 0x25
  | .snapCreate _ => 0x26
  | .snapDelete _ => 0x27
  | .cloneCreate _ _ => 0x28
  | .replCreate _ _ _ | .replEnd _ _ => 0x29
  | .domainCreate _ => 0x2A
  | .keyRotate _ => 0x2B
  | .domainExport _ _ _ => 0x2C
  | .domainImport _ _ => 0x2D
  | .enrolModule _ _ => 0x2E
  | .unenrolModule _ => 0x2F
  | .activate => 0x30
  | .thermalResume => 0x31
  | .debugUnlock => 0x40
  | .unknown c => c

/-- ROLE that a code needs (R617): 0 none, 1 maker, 2 installer, 3 operator. -/
def roleFor (code : Nat) : Nat :=
  if code ≤ 2 then 0 else if code = 0x40 then 1 else if code < 0x20 then 2 else 3

/-- TARGET of a code (R617): 0 the receiving module, 1 the pair. -/
def targetFor (code : Nat) : Nat := if [0x01, 0x02, 0x10, 0x13, 0x30, 0x31, 0x40].contains code then 0 else 1

/-- Control-plane firmware carries the command out, and its outcome is waited for (R617, R618). -/
def RoleBody.byCpf (b : RoleBody) : Bool :=
  let c := b.code
  decide (c = 0x11) || decide (c = 0x12) || (decide (0x14 ≤ c) && decide (c ≤ 0x2F) && decide (c ≠ 0x2C) && decide (c ≠ 0x2D))

/-- The command would write NOR or program OTP (R649). -/
def RoleBody.writesNor (b : RoleBody) : Bool := [0x10, 0x13, 0x30, 0x31, 0x40].contains b.code

/-- Operands outside what R621 and R617 allow make an envelope malformed. -/
def RoleBody.fits : RoleBody → Bool
  | .setOpkey k d => decide (k < 16) && d.length == 32
  | .revokeOpkey k => decide (k < 16)
  | .enrolModule ser g => ser.length == 16 && decide (g ≤ 16)
  | .unenrolModule ser => ser.length == 16
  | .domainCreate d | .keyRotate d | .domainExport d _ _ | .domainImport d _ => decide (d < 4096)
  | .unknown _ => false
  | _ => true

/-! ## The envelope (R613, R615) -/

/-- The header's 64 bytes and the BODY: what the signature covers. -/
def RoleEnv.message (e : RoleEnv) (code : Nat) : Bytes :=
  le 4 0x56585243 ++ le 1 e.role ++ le 1 e.keyidx ++ le 1 code ++ le 1 e.target ++ padTo 16 e.serial ++ padTo 32 e.challenge ++
    le 4 e.body.length ++ zeros 4 ++ e.body

/-- The fields are consistent (R613, R615). -/
def RoleEnv.consistent (e : RoleEnv) (b : RoleBody) : Bool :=
  let c := b.code
  e.ok && b.fits && decide (e.role ≤ 3) && (if e.role = 3 then decide (e.keyidx < 16) else e.keyidx == 0) && decide (e.target ≤ 1) &&
    e.serial.length == 16 && e.challenge.length == 32 && decide (e.body.length ≤ 24576) &&
    (if c ≤ 2 then e.role == 0 && e.challenge == zeros 32 && e.body.isEmpty && e.pub.isEmpty && e.sig.isEmpty
     else decide (1 ≤ e.role) && e.pub.length == 1952 && e.sig.length == 3309)

/-- A key digest is the installer's that INSTALL may program: any while INST_DIGEST is blank, else one with a 1 in every bit
programmed (R620). -/
def Otp.mayInstall (o : Otp) (d : Bytes) : Bool := (List.zip o.instDigest d).all fun x => x.1 &&& x.2 == x.1

/-- The key is one that the ROLE admits (R615, R620). -/
def State.roleKeyOk (s : State) (e : RoleEnv) (b : RoleBody) : Bool :=
  let d := keyDigest e.pub
  match b with
  | .install _ => e.role == 2 && s.otp.mayInstall d
  | _ => match e.role with
    | 1 => d == makerDigest
    | 2 => s.otp.instLock && d == s.otp.instDigest
    | 3 => s.boot.opkeys.find? e.keyidx == some d
    | _ => true

/-- RESULT of the checks of R615, 0 where all hold; `held`: the challenge was held and had not lapsed. Where several fail, the first of
this order counts (log entry 36). -/
def State.roleCheck (s : State) (e : RoleEnv) (b : RoleBody) (held : Bool) : Nat :=
  let c := b.code
  if !e.consistent b then 1
  else if !s.roleKeyOk e b then 2
  else if e.role ≠ roleFor c then 2
  else if e.target ≠ targetFor c then 1
  else if e.serial ≠ (if e.target = 0 then s.serial else zeros 16) then 1
  else if c ≤ 2 then 0
  else if !held then 3
  else if !sigOk e.pub "VX8-ROLE" (e.message c) e.sig then 2
  else 0

/-! ## What management firmware carries out -/

/-- INSTALL (R620): program INST_DIGEST and its CRC32C as far as `took` says, read them back, then INST_LOCK. -/
def State.runInstall (s : State) (d took : Bytes) : Nat × State :=
  if s.otp.instLock then (4, s)
  else
    let want := d ++ le 4 (crc32c d).toNat
    let inst := (List.range 36).map fun i => s.otp.inst.getD i 0 ||| (want.getD i 0 &&& took.getD i 0)
    let s := { s with otp := { s.otp with inst := inst } }
    if inst = want then (0, ({ s with otp := { s.otp with instLock := true } } : State).showOtp) else (6, s)

/-- CLEAR_EVR (R654): the region is erased, the CLEARED record is SEQ 0, then the held records are written. -/
def State.runClearEvr (s : State) : Nat × State :=
  if s.evrFrozen then (4, s) else (0, (s.clearedRecord s.nor.events.length).writeHeld)

/-- THERMAL_RESUME (R647). -/
def State.runResume (s : State) : Nat × State :=
  let calm := s.thm.calmSince.any fun t => decide (60 * 10 ^ 9 ≤ s.since t)
  if !calm || !(s.pair.head == .thermalHold || (s.pair.head == .boot && s.ao.tripLatched)) then (4, s)
  else
    let s := { s with ao := { s.ao with tripLatched := false } }
    let s := s.logTrip { s.tripRec true 0 dieB with rate := 0 }
    let s := s.mfwEvent 0x0025 (zeros 2 ++ le 2 (ofInt 16 (s.dieTemp dieB).diode))
    (0, if s.boot.phase = .tripWait then s.setPhase .resumed else s)

/-- DEBUG_UNLOCK (R625): every key is cleared, one more bit of WRAPGEN is programmed, JTAG_EN is set. -/
def State.runUnlock (s : State) : Nat × State :=
  let ok := s.pair.head == .boot || s.pair.head == .fawn || s.pair.head == .fenced || s.pair.head == .thermalHold
  if 16 ≤ s.otp.wrapGen then (6, s)
  else if !ok then (4, s)
  else
    let s := { s with keys := { s.keys with dge := [], slots := [], kcu := [], gcm := [] },
                      dst := { s.dst with fpSlots := [], xtsSlots := [], awk := [] },
                      boot := { s.boot with awk := none, opkeys := [] }, otp := { s.otp with wrapGen := s.otp.wrapGen + 1 } }
    (0, (s.opkeyValid.showOtp).setFlag dieB Reg.BOOT_CTRL_JTAG_EN true)

/-- The unbooted slot may be activated (R609): WRITTEN, or ACTIVE with the lower GEN; its images pass; its format is the partner's. -/
def State.activatable (s : State) : Bool :=
  let k := 1 - s.booted
  let sl := s.norSlot k
  let h := sl.head
  let img := fun (kind : Nat) => sl.image kind (h.lenOf kind)
  let meas := imgMeas (img 1)
  s.pair.head == .twin && s.pair.partner == some .twin && sl.hdr.isSome &&
    (h.state == 1 || (h.state == 3 && decide (h.gen < (s.norSlot s.booted).head.gen))) &&
    [1, 2, 3].all (fun kind => s.imgReason kind (h.lenOf kind) (img kind) meas false == 0) &&
    imgFormat (img 2) == s.fld dieB Reg.BOOT_FORMAT_FORMAT

/-- ACTIVATE (R609): the slot becomes TRIAL, and the activation waits to be passed to control-plane firmware. -/
def State.runActivate (s : State) : Nat × State :=
  if !s.activatable then (4, s)
  else
    let k := 1 - s.booted
    let gen := (s.norSlot s.booted).head.gen + 1
    let s := s.writeHdr k { (s.norSlot k).head with state := 2, tries := 2, gen := gen }
    (0, { s with boot := { s.boot with activation := true } })

/-- The head serves, so that array metadata can be read and changed. -/
def State.serves (s : State) : Bool := s.pair.head == .twin || s.pair.head == .solo

/-- A domain's key record, from array metadata under the AWK (R227). -/
def State.domRec (s : State) (d : Nat) : Option KeyRec :=
  match s.boot.awk, s.arr.domKeys.find? d with
  | some awk, some w => (kwpUnwrap awk w).bind keyRecOf
  | _, _ => none

/-- A change to a domain's record is logged and not durable. -/
def State.domPending (s : State) (d : Nat) : Bool := s.pendingRecs.any fun r => match r.body with
  | .change (.domKey x _ _ _) => x == d
  | _ => false

/-- The domain exists: it has its keys, with which its life ends (R184), or a change to them is on its way. -/
def State.hasDomain (s : State) (d : Nat) : Bool := s.arr.domKeys.has d || s.domPending d

/-- DOMAIN_EXPORT (R623): RESULT and reply. -/
def State.runExport (s : State) (d : Nat) (report row challenge : Bytes) : Nat × Bytes × State :=
  if !s.serves then (4, [], s)
  else if !s.reportOk report row challenge then (2, [], s)
  else match s.domRec d with
    | none => (5, [], s)
    | some r =>
      let (ct, ss) := Config.kemEncap (reportEk report) s.free
      let pt := le 2 d ++ zeros 6 ++ padTo 32 r.icv ++ padTo 32 r.ocv
      (0, padTo 1568 ct ++ kwpWrap (carryKey "VX8-XPORT" ss (rowSerial row)) pt, { s with free := s.free + 1 })

/-- DOMAIN_IMPORT (R624): a record with the imported chaining values and a generation 0 of its own, wrapped under the AWK. -/
def State.runImport (s : State) (d : Nat) (reply : Bytes) : Nat × Bytes × State :=
  if !s.serves then (4, [], s)
  else if s.hasDomain d || reply.length != 1648 then (5, [], s)
  else
    let ss := Config.kemDecap s.kemSeed (reply.take 1568)
    match s.boot.awk, kwpUnwrap (carryKey "VX8-XPORT" ss s.serial) (reply.drop 1568) with
    | some awk, some pt =>
      if pt.length ≠ 72 then (5, [], s)
      else
        match s.drawGen d 0 with
        | (none, s) => (5, [], s)
        | (some g, s) =>
          let r : KeyRec := { domain := d, icv := (pt.drop 8).take 32, ocv := (pt.drop 40).take 32, gens := [g] }
          let w := kwpWrap awk r.bytes
          (0, w, s.log (.change (.domKey d w [0] false)))
    | _, _ => (5, [], s)

/-! ## What control-plane firmware carries out: RESULT and the changed state -/

/-- A replica namespace is marked while a session that names it as such is held (R487). -/
def State.markReplica (s : State) (nsid : Nat) (on : Bool) : State :=
  match s.ns nsid with
  | some n => if n.replica = on then s else s.putNs nsid { n with replica := on }
  | none => s

/-- RESULT of a session command by PGT_SESSRES.ERR (R494). -/
def sessRes (err : Nat) : Nat := if err = 0 then 0 else if err = 1 then 6 else 5

/-- REPL_SESSION (R474). -/
def State.runReplCreate (s : State) (fdie addr : Nat) (replica : Bool) : Nat × State :=
  if s.variant.sides ≤ fdie then (5, s)
  else match s.readDesc addr with
    | none => (5, s)
    | some d =>
      if (s.ns d.nsid).isNone then (5, s)
      else
        let t := s.sessCreate fdie addr
        let r := sessRes (t.fld (dieF fdie) Reg.PGT_SESSRES_ERR)
        if r = 0 then (0, if replica then t.markReplica d.nsid true else t) else (r, t)

def State.runReplEnd (s : State) (fdie session : Nat) : Nat × State :=
  match s.sess (sessKey fdie session) with
  | none => (5, s)
  | some x => (0, (s.sessDestroy fdie session).markReplica x.d.nsid false)

/-- A record gets a further generation: its durable form and its use wait for the log (R223, R224). -/
def State.rotateTo (s : State) (awk : Bytes) (d : Nat) (r : KeyRec) (gen : Nat) : Nat × State :=
  let x := s.drawGen d gen
  match x.1 with
  | none => (5, x.2)
  | some g =>
    let gens := r.gens ++ [g]
    (0, (x.2.useGen d gen).log (.change (.domKey d (kwpWrap awk { r with gens := gens }.bytes) (gens.map KeyGen.gen) true)))

/-- KEY_ROTATE (R224): a further generation, and WGEN goes to it with REKEY = 1. -/
def State.runRotate (s : State) (d : Nat) : Nat × State :=
  match s.boot.awk, s.domRec d with
  | some awk, some r =>
    if s.domPending d then (5, s)
    else if 4 ≤ r.gens.length then (6, s)
    else
      match s.nextGenOf r with
      | none => (6, s)
      | some gen => s.rotateTo awk d r gen
  | _, _ => (5, s)

/-- DOMAIN_CREATE (R235). -/
def State.runDomain (s : State) (d : Nat) : Nat × State :=
  match s.boot.awk with
  | none => (5, s)
  | some awk =>
    if s.hasDomain d then (5, s)
    else
      match s.newRec d with
      | (none, s) => (5, s)
      | (some r, s) => (0, s.log (.change (.domKey d (kwpWrap awk r.bytes) [0] false)))

/-- ENROL_MODULE (R228, R622): serial and WRAPGEN. The module's AWK copy stands if its WRAPGEN is as recorded; this module's own is
written here, and at the first enrolment of the array the AWK is created (log entry 37). -/
def State.runEnrol (s : State) (ser : Bytes) (gen : Nat) : Nat × State :=
  let old := s.arr.modules.find? (ofLe ser)
  let none? := s.boot.awk.isNone && s.arr.modules.vals.all fun m => m.awk.isNone
  let mine := ser == s.serial && gen == s.otp.wrapGen
  let s := if mine && none? then
      let (k, s) := s.random 32
      s.setAwk k
    else s
  let m : ModuleRec := match mine, s.boot.awk with
    | true, some k => s.ownCopy k
    | _, _ => { wrapGen := gen, awk := (old.filter fun m => m.wrapGen == gen).bind ModuleRec.awk }
  (0, s.log (.change (.enrolled ser (some m))))

/-- C0_RESIDENT (R61, R272): the record asks for residence; both heads then load and pin the map. -/
def State.runC0 (s : State) (nsid : Nat) : Nat × State :=
  match s.ns nsid with
  | none => (5, s)
  | some n =>
    if n.kv || n.releasing || n.removing.isSome then (5, s)
    else
      let s := { s with ftl := { s.ftl with c0 := s.ftl.c0.erase nsid } }
      (0, (s.setNs nsid { n with c0 := true }).log (.nsrec nsid (some { n with c0 := true })))

/-- CLONE_CREATE (R471, R473). -/
def State.runClone (s : State) (snap : Nat) (readOnly : Bool) : Nat × State :=
  match s.findSnap snap with
  | none => (5, s)
  | some (nsid, n, x) =>
    if x.state != .ready || n.deleting || n.releasing then (5, s)
    else match s.freeNsid with
      | none => (6, s)
      | some k =>
      let fresh := NsRec.fresh n.kv n.blocks n.domain n.mediaDur
      (0, s.createNs k { fresh with base := some (nsid, snap), readOnly := readOnly, root := n.root, index := n.index })

/-- A clone names a snapshot of the namespace as its base (R473). -/
def State.baseOfClone (s : State) (nsid : Nat) : Bool := s.arr.nss.vals.any fun n => n.base.any fun b => b.1 == nsid

/-- The commands that control-plane firmware carries out (R617). -/
def State.cpfRun (s : State) (b : RoleBody) : Nat × State :=
  let change := fun (c : MetaChange) => ((0, s.log (.change c)) : Nat × State)
  if !s.serves then (4, s)
  else match b with
  | .setOpkey k d => change (.opkey k (some d))
  | .revokeOpkey k => change (.opkey k none)
  | .layout w t r e => if r.isSome && s.pair.head != .twin then (4, s) else change (.layout { width := w, target := t, roster := r, evac := e })
  | .epochReinit => if s.epoch = 0xFFFFFFFF then change .epochInit else (4, s)
  | .clearDeferred => change .clearDeferred
  | .nsCreate kv blocks domain media => match s.freeNsid with
    | none => (6, s)
    | some n => (0, s.createNs n (.fresh kv blocks domain media))
  | .nsDelete n => match s.ns n with
    | none => (5, s)
    | some x => if x.removing.isSome || x.releasing || s.baseOfClone n then (5, s) else (0, s.beginRemoval n none true)
  | .nsDisable n => match s.ns n with
    | none => (5, s)
    | some x => if x.removing.isSome || x.releasing then (5, s) else (0, s.beginRemoval n none false)
  | .nsEnable n => match s.ns n with
    | none => (5, s)
    | some x =>
      if x.removing.isSome || x.releasing then (5, s)
      else (0, ((s.setNs n { x with disabled := false }).log (.nsrec n (some { x with disabled := false }))).nsChanged n)
  | .c0Resident n => s.runC0 n
  | .adminHosts l => change (.admins l)
  | .snapCreate n => match s.ns n with
    | none => (5, s)
    | some x =>
      if x.deleting || x.releasing then (5, s)
      else match s.snapCreate n with
        | (s, some _) => (0, s)
        | (s, none) => (6, s)
  | .snapDelete i => match s.snapDelete i with
    | (s, true) => (0, s)
    | (s, false) => (5, s)
  | .cloneCreate i ro => s.runClone i ro
  | .replCreate f a r => s.runReplCreate f a r
  | .replEnd f k => s.runReplEnd f k
  | .domainCreate d => s.runDomain d
  | .keyRotate d => s.runRotate d
  | .enrolModule ser g => s.runEnrol ser g
  | .unenrolModule ser => if s.arr.modules.has (ofLe ser) then change (.enrolled ser none) else (5, s)
  | _ => (5, s)

/-! ## Outcome (R616, R618, R619, R631) -/

/-- The event record of R7 and R618. -/
def State.roleEvent (s : State) (code role keyidx target result : Nat) (serial : Bytes) : State :=
  s.mfwEvent 0x0010 (le 1 code ++ le 1 role ++ le 1 keyidx ++ le 1 result ++ le 1 target ++ zeros 3 ++ padTo 16 serial)

/-- ROLE_STATUS and ROLE_REJECT. -/
def State.roleRegs (s : State) (code role keyidx result : Nat) : State :=
  let s := (s.setFld dieB Reg.ROLE_STATUS_LAST_CODE code).setFld dieB Reg.ROLE_STATUS_LAST_ROLE role
  let s := (s.setFld dieB Reg.ROLE_STATUS_LAST_KEYIDX keyidx).setFld dieB Reg.ROLE_STATUS_LAST_RESULT result
  if result = 0 then s
  else if result = 2 then s.addFld dieB Reg.ROLE_REJECT_BADSIG 1
  else s.addFld dieB Reg.ROLE_REJECT_OTHER 1

/-- RESULT and reply go to the requester (R619, R636). -/
def State.roleReply (s : State) (src : RoleFrom) (result : Nat) (reply : Bytes) : State :=
  match src with
  | .mgmt udp ep => s.emit (.mgmt (if udp then 1 else 0) ep 7 0 (le 1 result ++ reply))
  | .nvme tag => match s.cmd tag with
    | none => s
    | some c =>
      let s := match s.host.ctrls.find? c.tag.cntlid with
        | some k => s.setCtrl { k with reply := some reply }
        | none => s
      s.finish c stOk result

/-- A role command ends: registers, event record, reply (R618). -/
def State.roleEnd (s : State) (src : RoleFrom) (code role keyidx target : Nat) (serial : Bytes) (result : Nat) (reply : Bytes) : State :=
  ((s.roleRegs code role keyidx result).roleEvent code role keyidx target result serial).roleReply src result reply

/-- States of a head that is not installed (R605). -/
def RoleBody.whenBlank (b : RoleBody) : Bool := [0x01, 0x02, 0x10, 0x40].contains b.code

/-- What management firmware carries out itself: RESULT, reply and state. -/
def State.mfwRun (s : State) (e : RoleEnv) (b : RoleBody) : Nat × Bytes × State :=
  let plain := fun (x : Nat × State) => ((x.1, [], x.2) : Nat × Bytes × State)
  match b with
  | .getChallenge =>
    let (c, s) := s.issueChallenge
    (0, c, s)
  | .getCalrow => (0, s.calRow, s)
  | .install took => plain (s.runInstall (keyDigest e.pub) took)
  | .clearEvr => plain s.runClearEvr
  | .domainExport d report row => s.runExport d report row e.challenge
  | .domainImport d reply => s.runImport d reply
  | .activate => plain s.runActivate
  | .thermalResume => plain s.runResume
  | .debugUnlock => plain s.runUnlock
  | _ => (1, [], s)

/-- What follows the reply: INSTALL resets the B-die (R620); from THERMAL_HOLD a resumed head passes to BOOT (R647). -/
def State.roleAfter (s : State) (b : RoleBody) : State :=
  match b with
  | .install _ => s.resetB
  | .thermalResume => if s.pair.head == .thermalHold then s.headReset 6 else s
  | _ => s

/-- An envelope reaches management firmware (R615, R618). -/
def State.roleRun (s : State) (src : RoleFrom) (e : RoleEnv) (b : RoleBody) : State :=
  let s := s.lapseChallenges
  let held := s.boot.challenges.any fun c => c.1 == e.challenge
  -- a challenge lapses when it is presented (R614)
  let s := ({ s with boot := { s.boot with challenges := s.boot.challenges.filter fun c => c.1 != e.challenge } } : State).countChallenges
  let code := b.code
  let fin := fun (s : State) (r : Nat) (reply : Bytes) => s.roleEnd src code e.role e.keyidx e.target e.serial r reply
  let bad := s.roleCheck e b held
  if bad ≠ 0 then fin s bad []
  else
    let s := s.addFld dieB Reg.ROLE_STATUS_ACCEPTED 1
    if s.boot.phase = .uninstalled ∧ !b.whenBlank then fin s 4 []
    else if b.writesNor && !s.norWindow then fin s 4 []
    else if b.byCpf then
      if !s.serves then fin s 4 []
      else
        let (r, s) := s.cpfRun b
        let j : RoleJob := { src := src, code := code, role := e.role, keyidx := e.keyidx, target := e.target, serial := e.serial,
                             msg := e.message code, result := r, lsn := s.ftl.nextLsn, tag := none }
        { s with boot := { s.boot with jobs := s.boot.jobs ++ [j] } }
    else
      let (r, reply, s) := s.mfwRun e b
      let s := fin s r reply
      if r = 0 then s.roleAfter b else s

/-! ## Messages to and from control-plane firmware (R618, R640) -/

/-- Map changes of array metadata below an LSN that the partner has not acknowledged. -/
def State.changesOut (s : State) (lsn : Nat) : Bool :=
  s.pair.groups.vals.any fun g => (g.unacked ++ g.waiting).any fun t => match t.msg with
    | .mapupd (.log _ _ _) l => decide (l < lsn)
    | _ => false

/-- A job's records are durable, and the partner has them. -/
def State.jobDone (s : State) (j : RoleJob) : Bool :=
  !(s.pendingRecs.any fun r => r.side == s.side && decide (r.lsn < j.lsn)) && !s.changesOut j.lsn

/-- The oldest role command not yet passed on goes into mailbox `m`; one longer than a mailbox goes in pieces, each a ROLE_REQ of its
own, and the outcome names the last (log entry 102). -/
def State.sendRole (s : State) (m target : Nat) : State :=
  match s.boot.jobs.find? fun j => j.tag.isNone with
  | none => s
  | some j =>
    if 8 ≤ m || s.mbFull m then s
    else
      let rest := j.msg.drop 4080
      let next : RoleJob := if rest.isEmpty then { j with tag := some s.thm.mbSeq } else { j with msg := rest }
      let s := s.sendMb m target 2 (j.msg.take 4080)
      { s with boot := { s.boot with jobs := s.boot.jobs.map fun x => if x = j then next else x } }

/-- The outcome of a role command has come in mailbox `m` (R618). -/
def State.roleDone (s : State) (m : Nat) : State :=
  match s.takeMb m 3 with
  | none => s
  | some (tag, body, t) =>
    match s.boot.jobs.find? fun j => j.tag == some tag with
    | none => t
    | some j =>
      if leAt body 8 1 ≠ j.result ∨ !s.jobDone j then s
      else
        let t := { t with boot := { t.boot with jobs := t.boot.jobs.filter (· != j) } }
        t.roleEnd j.src j.code j.role j.keyidx j.target j.serial j.result []

/-! ## Residence for class 0 (R272) -/

/-- Set C0_ELIGIBLE of a namespace in both copies of the namespace table of every F-die. -/
def State.setEligible (s : State) (nsid : Nat) : State :=
  (List.range s.variant.sides).foldl (fun s f =>
    let k := tblKey (dieF f) 0x13 1 (nsid - 1) 0
    let w := setBits (s.tbl (dieF f) 0x13 1 (nsid - 1) 0) Reg.NVF_NSTAB_DATA_C0_ELIGIBLE.lo 1 1
    ((s.setActive k w).setShadow k w).addFld (dieF f) (tcGen 0x13) 1) s

/-- The M-dies' last range operation ended without an error. -/
def State.rangesOk (s : State) : Bool :=
  (List.range s.variant.sides).all fun m => s.fld (dieM m) Reg.MAP_RANGE_STATUS_ERR == 0

/-- LOAD_PIN over the map of a namespace, then SWEEP, then C0_ELIGIBLE, on each head (R272). -/
def State.c0Next (s : State) : State :=
  if !s.serves || !s.ftl.range.isEmpty then s
  else
    let due := s.arr.nss.filter fun kn => kn.2.c0 && !kn.2.kv && !kn.2.releasing && s.ftl.c0.getD kn.1 0 != 3 &&
      !s.tblFlag (dieF 0) 1 (kn.1 - 1) 0 Reg.NVF_NSTAB_DATA_C0_ELIGIBLE
    match due with
    | [] => s
    | (nsid, n) :: _ =>
      let step := fun (s : State) (x : Nat) => { s with ftl := { s.ftl with c0 := s.ftl.c0.insert nsid x } }
      let base := pageId 1 (nsid - 1) 0
      let all := fun (s : State) (op : Nat) => (List.range s.variant.sides).foldl (fun s m =>
        s.startRangeOn m op base (base + (n.blocks + 511) / 512 - 1)) s
      match s.ftl.c0.getD nsid 0 with
      | 0 => step (all s 4) 1
      | 1 => if s.rangesOk then step (all s 6) 2 else step s 3
      | _ => if s.rangesOk then step (s.setEligible nsid) 3 else step s 3

/-! ## Admin commands that the B-die answers (R612, R619) -/

/-- Run an accepted admin command: role envelopes and attestation here, the others as spec/02 has them. -/
def State.adminAny (s : State) (c : Cmd) : State :=
  match s.host.ctrls.find? c.tag.cntlid with
  | none => s
  | some k => match c.op with
    | .role e b => s.roleRun (.nvme c.tag.num) e b
    | .roleReply len => match k.reply with
      | none => s.finish c ⟨0, 0x0C⟩ 0
      | some r => s.answerData c (r.take (min 8192 len))
    | .attestReport len => match k.nonce with
      | none => s.finish c ⟨0, 0x0C⟩ 0
      | some n => if len < 5269 then s.finish c ⟨0, 0x0F⟩ 0 else (s.setCtrl { k with nonce := none }).answerData c (s.report n)
    | .attestCalrow len => if len < 16384 then s.finish c ⟨0, 0x0F⟩ 0 else s.answerData c s.calRow
    | _ => s.adminRun c

end Sys2Proof.Machine
end

