-- ==== Sys2Proof/Machine/Settle.lean ====
section
/-! DEFINITION. What a command sets going within its own step: codewords that have ended reach whatever asked for them, the FTL's
upkeep goes on, and host commands move on. -/

namespace Sys2Proof.Machine

open Sys2Proof

/-- A codeword request has ended: what asked for it gets its data, or its loss. -/
def State.settleOne (s : State) (c : CwReq) (b : Option Bytes) : State :=
  match c.why with
  | .pack rd i => match b with
    | some x => (s.packPart rd i x).copyReads rd
    | none => s.packLost rd
  | .page pid => match s.ftl.fills.find? pid with
    | some f => { s with ftl := { s.ftl with fills := s.ftl.fills.insert pid { f with got := some b } } }
    | none => s
  | .scan seg i => s.scanPart seg i b
  | .rebuild seg k slot m => s.rebuildPart seg k slot m b
  | .scrub seg k slot col => s.scrubPart seg k slot col b
  -- R396: the page is blank, so the replacement goes on there; anything else abandons it
  | .blankCheck seg => match s.par.cur with
    | some r => if r.seg ≠ seg then s else if b.isNone then s.rebuildUnit else s.rebuildAbandon.rebuildNext
    | none => s
  | .input _ _ | .update => s

/-- Accepted admin commands that have not run, oldest first. -/
def State.runAdmins (s : State) : State :=
  let due := s.host.cmds.vals.filter fun c => c.accepted && c.op.isAdmin && c.result.isNone && c.pieces.isNone && !c.begun
  (due.mergeSort fun a b => decide (a.arrival ≤ b.arrival)).foldl (fun s c =>
    let c := { c with begun := true }
    (s.setCmd c).adminAny c) s

/-- Settle what has ended; `fuel` bounds the rounds. -/
def State.settleLoop (s : State) : Nat → State
  | 0 => s
  | fuel + 1 =>
    let s := s.settleInputs (s.med.done.length + s.med.cws.length + 1)
    let l := s.med.done
    let s := { s with med := { s.med with done := [] } }
    let s := l.foldl (fun s d => s.settleOne d.1 d.2) s
    if s.med.done.isEmpty then s else s.settleLoop fuel

/-- Blocks that an attach found unused are erased once the head serves (R347). -/
def State.eraseFresh (s : State) : State :=
  if !s.serving || s.ftl.fresh.isEmpty then s
  else
    let named := s.namedBlocks
    let l := s.ftl.fresh.filter fun b => !named.contains b
    l.foldl (fun s b => s.eraseBlock b 7) { s with ftl := { s.ftl with fresh := [] } }

/-- What every event that may set something going ends with. -/
def State.settle (s : State) : State :=
  let s := (s.settleLoop 64).eraseFresh.wipeNext.replNext.upkeep.changesNext.rebuildNext
  ((s.settleLoop 64).runAdmins.advanceAll.settleLoop 64).sendMoves.giveNext.c0Next.confirmSlot.startLanes.startDecodes

end Sys2Proof.Machine
end

