-- ==== Sys2Proof/Machine/AdminRows.lean ====
section
/-! DEFINITION. Host commands of admin queues (spec/02, R47 to R60, R78 to R81, R94 to R102), and what follows from them in time. -/

namespace Sys2Proof.Machine

open Sys2Proof

/-- An admin command: `len` is the data it transfers. -/
def State.adminCmd (s : State) (cap : Cap) (io : Bool) (op : HostOp) (len : Option Nat) : State :=
  s.arrive cap io fun s q pre =>
    let incaps := s.flag (dieF cap.fdie) Reg.NVF_CTRL_INCAPS_EN
    let st := firstFail [pre, if cap.fuse != .single then some stBadField else none, sglCheck cap incaps len]
    s.enterCmd cap q op q.cls [] false (st.map fun x => (x, 0)) none

/-- CONNECT (R46 to R49, R57 to R59, R105, R444): an admin queue with its controller, or an I/O queue of one. -/
def execConnect (cap : Cap) (nqn : ConnNqn) (cntlid qid sqsize kato : Nat) (disc : Bool) (s : State) : Res :=
  .next (s.connect cap nqn cntlid qid sqsize kato disc).settle

/-- DISCONNECT (R52, R106): of the queue it arrives on, the controller where that is the admin queue. -/
def execDisconnect (cap : Cap) (s : State) : Res := .next (s.adminCmd cap (cap.qid != 0) .disconnect none).settle

/-- PROPERTY_GET and PROPERTY_SET (R52, R58). -/
def execPropertyGet (cap : Cap) (off : Nat) (s : State) : Res := .next (s.adminCmd cap false (.propGet off) none).settle
def execPropertySet (cap : Cap) (off val : Nat) (s : State) : Res := .next (s.adminCmd cap false (.propSet off val) none).settle

/-- GET_LOG_PAGE (R50, R52, R81, R83, R97). -/
def execGetLogPage (cap : Cap) (lid off len : Nat) (rae : Bool) (s : State) : Res :=
  .next (s.adminCmd cap false (.getLog lid off len rae) (some len)).settle

/-- IDENTIFY (R51, R52, R95). -/
def execIdentify (cap : Cap) (cns cntid : Nat) (s : State) : Res := .next (s.adminCmd cap false (.identify cns cntid) (some 4096)).settle

/-- ABORT (R52, R78 to R80). -/
def execAbort (cap : Cap) (qid cid : Nat) (s : State) : Res := .next (s.adminCmd cap false (.abort qid cid) none).settle

/-- SET_FEATURES and GET_FEATURES (R55). -/
def execSetFeatures (cap : Cap) (fid val : Nat) (save : Bool) (s : State) : Res :=
  .next (s.adminCmd cap false (.setFeature fid val save) none).settle
def execGetFeatures (cap : Cap) (fid : Nat) (s : State) : Res := .next (s.adminCmd cap false (.getFeature fid) none).settle

/-- ASYNC_EVENT_REQUEST (R52, R81): held until there is a notice. -/
def execAsyncEventRequest (cap : Cap) (s : State) : Res := .next (s.adminCmd cap false .asyncEvent none).settle

/-- NAMESPACE_MANAGEMENT (R56, R101, R102): create, or delete the namespace of the command. -/
def execNamespaceManagement (cap : Cap) (create kv : Bool) (blocks domain : Nat) (media : Bool) (s : State) : Res :=
  .next (s.adminCmd cap false (if create then .nsCreate kv blocks domain media else .nsDelete) none).settle

/-- NAMESPACE_ATTACHMENT (R56, R101): attach to, or detach from, a list of controllers. -/
def execNamespaceAttachment (cap : Cap) (attach : Bool) (ctrls : List Nat) (s : State) : Res :=
  .next (s.adminCmd cap false (if attach then .attach ctrls else .detach ctrls) none).settle

/-- KEEP_ALIVE (R60). -/
def execKeepAlive (cap : Cap) (s : State) : Res := .next (s.adminCmd cap false .keepAlive none).settle

/-- KEEP_ALIVE_EXPIRY (R57, R105, R106): the keep-alive timeout of a controller has passed; 0 sets none. -/
def execKeepAliveExpiry (cntlid : Nat) (s : State) : Res :=
  match s.host.ctrls.find? cntlid with
  | some k => if k.kato ≠ 0 ∧ k.kaAt + k.kato * 10 ^ 6 ≤ s.ao.tb then .next (s.deleteCtrl cntlid).settle else .next s
  | none => .next s

/-- FORMAT_NVM (R56, R94, R95). -/
def execFormatNvm (cap : Cap) (lbaf ses : Nat) (s : State) : Res := .next (s.adminCmd cap false (.format lbaf ses) none).settle

/-- Sanitize by its SANACT: that of the row, or another that the capsule holds (R56, R96, R97, R99). -/
def sanAct (cap : Cap) (row : Nat) : HostOp := match cap.alt with
  | .sanact n => .sanitize n
  | _ => .sanitize row
def execSanitizeExitFailure (cap : Cap) (s : State) : Res := .next (s.adminCmd cap false (sanAct cap 1) none).settle
def execSanitizeBlockErase (cap : Cap) (s : State) : Res := .next (s.adminCmd cap false (sanAct cap 2) none).settle
def execSanitizeCryptoErase (cap : Cap) (s : State) : Res := .next (s.adminCmd cap false (sanAct cap 4) none).settle

/-! ## Removal of a namespace (R101) -/

/-- A command to a namespace that arrived before a removal concerns it: of all controllers, or of those a detach names. -/
def concerned (nsid : Nat) (ctrls : Option (List Nat)) (t n cntlid arrival : Nat) : Bool :=
  n == nsid && decide (arrival ≤ t) && (match ctrls with
    | some l => l.contains cntlid
    | none => true)

/-- Commands of this head to a namespace that arrived before a removal. -/
def State.earlier (s : State) (nsid : Nat) (ctrls : Option (List Nat)) (t : Nat) : List Cmd :=
  s.host.cmds.vals.filter fun c => !c.op.isAdmin && concerned nsid ctrls t c.nsid c.tag.cntlid c.arrival

/-- Commands of the partner to it whose response it has not announced by LEDGER. -/
def State.partnerEarlier (s : State) (nsid : Nat) (ctrls : Option (List Nat)) (t : Nat) : List MirrorCap :=
  if s.pair.head != .twin then []
  else s.pair.capsules.vals.filter fun c => !c.op.isAdmin && c.res.isNone && concerned nsid ctrls t c.nsid c.tag.cntlid c.arrival &&
    !s.pair.ledger.has (ledgerKey c.tag.num .response) && !s.pair.dropped.contains c.tag.num

/-- A command that R101 step 3 still catches: its append has not begun, or no data has been sent. -/
def Cmd.catchable (c : Cmd) : Bool := c.result.isNone && (if c.appends.isSome then !c.begun else !c.sentData)

/-- Removals of a namespace in progress: time, controllers, and the detach. -/
def State.removals (s : State) (nsid : Nat) : List (Nat × Option (List Nat) × Option Detach) :=
  (match (s.ns nsid).bind NsRec.removing with
  | some (t, _) => [(t, none, none)]
  | none => []) ++ (s.arr.detaches.filter fun d => d.nsid == nsid).map fun d => (d.at_, some d.ctrls, some d)

/-- NS_REMOVAL_TIMEOUT (R101 step 3): 100 ms after the acceptance of a removal, each head fails its own commands that it catches. -/
def execNsRemovalTimeout (nsid : Nat) (s : State) : Res :=
  .next ((s.removals nsid).foldl (fun s r =>
    if s.ao.tb < r.1 + 100 * 10 ^ 6 then s
    else ((s.earlier nsid r.2.1 r.1).filter Cmd.catchable).foldl (fun s c => s.failCmd c stBadNs) s) s).settle

/-- End the removal of a namespace that a Namespace Management or a role command of this head asked for. -/
def State.endRemoval (s : State) (nsid : Nat) : State :=
  match s.ns nsid with
  | none => s
  | some n => match n.removing with
    | none => s
    | some (_, tag) =>
      if !s.runsNs n then s
      else
        let n' := if n.deleting then { n with releasing := true, removing := none, done := 0, total := max 1 (s.nsUnits nsid) }
          else { n with removing := none }
        let s := (s.setNs nsid n').log (.nsrec nsid (some n'))
        let s := s.nsChanged nsid
        let s := if n.deleting then s.setAttached nsid (s.allCtrls.map Ctrl.cntlid) false else s
        s.finishTag tag stOk

/-- End a detach of this head, or of a partner that is gone. -/
def State.endDetach (s : State) (d : Detach) : State :=
  if d.side ≠ s.side ∧ s.pair.head ≠ .solo then s else (s.changeNow (.detached d)).finishTag (some d.tag) stOk

/-- NS_REMOVAL_COMPLETE (R101 step 4): every earlier command to the namespace has completed, on both heads. -/
def execNsRemovalComplete (nsid : Nat) (s : State) : Res :=
  .next ((s.removals nsid).foldl (fun s r =>
    if !(s.earlier nsid r.2.1 r.1).isEmpty || !(s.partnerEarlier nsid r.2.1 r.1).isEmpty then s
    else match r.2.2 with
    | none => s.endRemoval nsid
    | some d => s.endDetach d) s).settle

/-! ## Ends of background work -/

/-- FORMAT_COMPLETE (R94, R95, R185): the background work of a Format is done, a destruction of keys on the partner too. -/
def execFormatComplete (nsid : Nat) (s : State) : Res :=
  match s.ns nsid with
  | none => .next s
  | some n => match n.formatting with
    | none => .next s
    | some (_, tag) =>
      if n.phase ≠ 2 ∨ !s.runsNs n ∨ s.destroying n.domain then .next s
      else
        let n := { n with formatting := none, phase := 0, wipeRefs := [], wipeSegs := [], done := 0, total := 0 }
        .next (((s.setNs nsid n).log (.nsrec nsid (some n))).finishTag tag stOk).settle

/-- SANITIZE_COMPLETE (R83, R96 to R98): this head's part is done, and the partner's. -/
def execSanitizeComplete (s : State) : Res :=
  match s.arr.sanitize with
  | some x => if x.phase = 2 ∧ x.partnerDone then .next (s.changeNow (.sanEnd false)).settle else .next s
  | none => .next s

/-- SANITIZE_FAILED (R99): the subsystem is in sanitise failure mode. -/
def execSanitizeFailed (s : State) : Res :=
  if s.arr.sanitize.isSome then .next (s.changeNow (.sanEnd true)).settle else .next s

/-- PROGRESS_LOG (R302): `op` 0 Format, 1 Sanitize, 2 release of a namespace; `done` units are done. -/
def execProgressLog (op nsid done : Nat) (s : State) : Res :=
  match op with
  | 1 => match s.arr.sanitize with
    | some x =>
      let d := min done x.total
      .next ((({ s with arr := { s.arr with sanitize := some { x with done := d } } } : State)).log (.progress 1 x.code d x.total)).settle
    | none => .next s
  | _ => match s.ns nsid with
    | some n =>
      if (op = 0 ∧ n.formatting.isSome) ∨ (op = 2 ∧ n.releasing) then
        let d := min done n.total
        .next ((s.setNs nsid { n with done := d }).log (.progress op nsid d n.total)).settle
      else .next s
    | none => .next s

end Sys2Proof.Machine
end

