-- ==== Sys2Proof/Machine/Control.lean ====
section
/-! DEFINITION. The control plane (spec/13): freezes and thaws, the fault log, rings, ticks, the DMA engine, cache maintenance,
watchdogs and the commands of the replay capture. -/

namespace Sys2Proof.Machine

open Sys2Proof

/-- The head carries the tile. -/
def State.hasTile (s : State) (tile : Nat) : Bool := decide (tile < s.variant.tiles)

/-- Channels of a master (R557). -/
def channels (mid : Nat) : Nat :=
  if mid ≤ 4 ∨ mid = 14 then 8 else if mid ≤ 8 then 16 else if mid ≤ 11 then 4 else if mid = 12 ∨ mid = 13 then 1 else 0

/-! ## Freezing and thawing (R561 to R567) -/

/-- Bit 16k + c of FRZ_Fm is channel c of MID 4m + k. -/
def frzBit (mid chan : Nat) : Nat := 16 * (mid % 4) + chan

/-- The channels that a write of 1 bits to FRZ_Fm asks to freeze: those of MID 4 to 15 that exist and are not frozen. -/
def State.freezeTargets (s : State) (tile m : Nat) (val : Word) : List (Nat × Nat) :=
  (List.range 4).flatMap fun k => (List.range 16).filterMap fun c =>
    let mid := 4 * m + k
    if decide (4 ≤ mid) && decide (c < channels mid) && bitsAt val (16 * k + c) 1 == 1 && !(s.frozen tile mid c) then some (mid, c)
    else none

/-- A freeze of one channel is requested: its bit of FRZ_Fm reads 1, and REQ_PEND is set until the channel has reached a boundary. -/
def State.requestFreeze (s : State) (tile mid chan : Nat) : State :=
  let s := s.setFrz tile mid chan { s.frz tile mid chan with requested := true }
  let f := Reg.FRZ_F_FROZEN.plus (8 * (mid / 4))
  let s := s.setFld (dieC tile) f (s.fld (dieC tile) f ||| 2 ^ frzBit mid chan)
  s.setFlag (dieC tile) Reg.FRZ_STATUS_REQ_PEND true

/-- CHANNEL_FREEZE_REQUEST (R565): a write of 1 bits to FRZ_Fm of a tile. -/
def execChannelFreezeRequest (tile m : Nat) (val : Word) (s : State) : Res :=
  if !s.hasTile tile || decide (4 ≤ m) then .next s
  else .next ((s.freezeTargets tile m val).foldl (fun s mc => s.requestFreeze tile mc.1 mc.2) s)

/-- A requested freeze of a tile still waits for its access boundary. -/
def State.freezePending (s : State) (tile : Nat) : Bool := s.hrd.frz.any fun kv => kv.1 / 256 == tile && kv.2.requested

/-- CHANNEL_FROZEN (R565): the channel has reached an access boundary. -/
def execChannelFrozen (tile mid chan : Nat) (s : State) : Res :=
  if (s.frz tile mid chan).requested then
    let s := s.freezeChan tile mid chan none
    .next (s.setFlag (dieC tile) Reg.FRZ_STATUS_REQ_PEND (s.freezePending tile))
  else .next s

/-- Clear a channel's freeze. -/
def State.unfreeze (s : State) (tile mid chan : Nat) : State :=
  let d := dieC tile
  let s := s.setFrz tile mid chan .none
  let f := Reg.FRZ_F_FROZEN.plus (mid / 4 * 8)
  let s := s.setFld d f (s.fld d f &&& (2 ^ 64 - 1 - 2 ^ frzBit mid chan))
  s.setFlag d Reg.FRZ_STATUS_ANY (s.hrd.frz.any fun kv => kv.1 / 256 == tile && kv.2.frozen)

/-- Write the message that a halted ring holds, checked again, and those that wait behind it (R562). -/
def State.resumeRings (s : State) (tile : Nat) : State :=
  (s.hrd.rings.filter fun kv => kv.1 / 4096 == tile && kv.2.halted).foldl (fun s kv =>
    let r := kv.1 % 4096
    let x := s.ring tile r
    if s.frozen tile 13 0 then s
    else (s.setRing tile r { x with halted := false }).drainRing tile r (x.waiting.length + 1)) s

/-! ## The DMA engine (R573) -/

def dmaKey (tile chan : Nat) : Nat := tile * 8 + chan

def State.setDma (s : State) (tile chan : Nat) (l : List DmaJob) : State :=
  { s with hrd := { s.hrd with dma := s.hrd.dma.putD (dmaKey tile chan) l [] } }

/-- Bytes that a descriptor moves. -/
def DmaJob.total (j : DmaJob) : Nat := if j.op = 1 then j.d.len else j.buf.length

/-- Carry a descriptor on from the bytes already written, access by access: it ends, or stops at a window fault with every byte
before the faulting access written (R561, R562). Answers the fault. -/
def State.runDma (s : State) (tile : Nat) (j : DmaJob) : State × DmaJob × Option (Nat × AccKind × Nat) :=
  let n := j.total - j.done
  let src := j.d.src + j.done
  let dst := j.d.dst + j.done
  let rd := if j.op = 1 then s.rangeFault tile 14 src n .read else none
  let wr := s.rangeFault tile 14 dst n .write
  let go := fun (m : Nat) =>
    let b := if j.op = 1 then s.loads src m else (j.buf.drop j.done).take m
    (s.stores dst b, { j with done := j.done + m })
  match rd, wr with
  | none, none => let x := go n; (x.1, { x.2 with held := false }, none)
  | some (a, c), none => let x := go (a - src); (x.1, { x.2 with held := true }, some (a, .read, c))
  | none, some (a, c) => let x := go (a - dst); (x.1, { x.2 with held := true }, some (a, .write, c))
  | some (a, c), some (a', c') =>
    if a - src ≤ a' - dst then let x := go (a - src); (x.1, { x.2 with held := true }, some (a, .read, c))
    else let x := go (a' - dst); (x.1, { x.2 with held := true }, some (a', .write, c'))

/-- Run a descriptor and append it to its channel; a fault freezes the channel with the descriptor held. -/
def State.doDma (s : State) (j : DmaJob) : State :=
  let tile := j.d.tile
  let chan := j.d.chan
  let before := s.hrd.dma.getD (dmaKey tile chan) []
  match s.runDma tile j with
  | (s, j, none) => s.setDma tile chan (before ++ [j])
  | (s, j, some (a, k, c)) => (s.setDma tile chan (before ++ [j])).channelFault tile 14 chan a k c

/-- A descriptor is well formed: its class, its length, its reserved bytes (R573). -/
def DmaDesc.ok (d : DmaDesc) : Bool :=
  decide (1 ≤ d.cls) && decide (d.cls ≤ 7) && decide (1 ≤ d.len) && decide (d.len ≤ 16 * 2 ^ 20) && d.reservedOk

/-- A descriptor that has moved nothing yet; `buf` is what it moves where that comes from no address. -/
def DmaJob.start (op : Nat) (d : DmaDesc) (buf : Bytes) (status : Nat) : DmaJob :=
  { op := op, d := d, buf := buf, done := 0, status := status, held := false }

/-- A descriptor ends without moving anything. -/
def State.endDma (s : State) (d : DmaDesc) (op status : Nat) : State :=
  s.setDma d.tile d.chan (s.hrd.dma.getD (dmaKey d.tile d.chan) [] ++ [.start op d [] status])

/-- A channel takes a descriptor: not while it is frozen or holds one at a fault. A malformed one ends with STATUS 3, unreadable
media (`buf` none) with STATUS 2. -/
def State.takeDma (s : State) (op : Nat) (d : DmaDesc) (fits : Bool) (buf : Option Bytes) : State :=
  let l := s.hrd.dma.getD (dmaKey d.tile d.chan) []
  if !s.hasTile d.tile || decide (8 ≤ d.chan) || s.frozen d.tile 14 d.chan || l.any DmaJob.held then s
  else
    if !d.ok || !fits then s.endDma d op 3
    else match buf with
      | none => s.endDma d op 2
      | some b => s.doDma (.start op d b 0)

/-- DMA_COPY (R573). -/
def execDmaCopy (d : DmaDesc) (s : State) : Res := .next (s.takeDma 1 d true (some []))

/-- DMA_FILL (R573): the 8-byte pattern of SRC over LEN bytes. -/
def execDmaFill (d : DmaDesc) (s : State) : Res :=
  .next (s.takeDma 2 d true (some ((List.range d.len).map fun i => BitVec.ofNat 8 (d.src / 256 ^ (i % 8)))))

/-- DMA_READ_PAGE (R573): `page` is the metadata page at MADDR SRC after recovery, none where the media cannot give it. -/
def execDmaReadPage (d : DmaDesc) (page : Option Bytes) (s : State) : Res :=
  .next (s.takeDma 3 d true (page.map (padTo 4096)))

/-- DMA_READ_PACK (R573): `pack` is the number of members and the plaintext of the pack whose envelope is at MADDR SRC. -/
def execDmaReadPack (d : DmaDesc) (member : Nat) (pack : Option (Nat × Bytes)) (s : State) : Res :=
  match pack with
  | none => .next (s.takeDma 4 d true none)
  | some (members, plain) =>
    let size := plain.length / members
    .next (s.takeDma 4 d (decide (d.len ≤ size) && decide (member < members))
      (some ((plain.drop (member * size)).take d.len)))

/-- DMA_DONE (R573): the channel's oldest descriptor ends, and its message is posted. -/
def execDmaDone (tile chan : Nat) (s : State) : Res :=
  match s.hrd.dma.getD (dmaKey tile chan) [] with
  | j :: rest =>
    if j.held then .next s
    else .next ((s.setDma tile chan rest).post tile (j.d.ring % 4096) 14 (.dmaDone j.d.tag j.status j.done))
  | [] => .next s

/-- A held descriptor of a thawed channel: it goes on from its faulting access, or ends with STATUS 1 (R562). -/
def State.thawDma (s : State) (tile chan : Nat) (abort : Bool) : State :=
  let l := s.hrd.dma.getD (dmaKey tile chan) []
  match l.reverse with
  | j :: front =>
    if !j.held then s
    else if abort then s.setDma tile chan (front.reverse ++ [{ j with held := false, status := 1 }])
    else match s.runDma tile j with
      | (s, j, none) => s.setDma tile chan (front.reverse ++ [j])
      | (s, j, some (a, k, c)) => (s.setDma tile chan (front.reverse ++ [j])).channelFault tile 14 chan a k c
  | [] => s

/-- What a thaw does, by master (R562): lanes make their faulting access again, or give up the item; the key cipher unit and
digest engine are usable again; the capture starts again; halted rings write their messages; the DMA engine goes on. -/
def State.thaw (s : State) (tile mid chan : Nat) (abort : Bool) : State :=
  let f := s.frz tile mid chan
  if !f.frozen || s.flag (dieC tile) Reg.FRZ_STATUS_HEAD then s
  else
    let s := s.unfreeze tile mid chan
    if mid = 12 then (if s.flag (dieC tile) Reg.RPL_CTRL_EN then s.capStart tile else s)
    else if mid = 13 then s.resumeRings tile
    else if mid = 14 then s.thawDma tile chan abort
    else if 4 ≤ mid ∧ mid ≤ 9 ∧ !abort then
      match f.access with
      | some (a, k) => match s.windowFault tile mid a k with
        | some c => s.channelFault tile mid chan a k c
        | none => s
      | none => s
    else s

/-- THAW_RESUME and THAW_ABORT (R562): FRZ_THAW written with GO. -/
def execThawResume (tile mid chan : Nat) (s : State) : Res := .next (s.thaw tile mid chan false)
def execThawAbort (tile mid chan : Nat) (s : State) : Res := .next (s.thaw tile mid chan true)

/-- CSR address of WIN_FLOG of a tile (R583). -/
def winLogAddr (tile : Nat) : Nat := dieC tile * 2 ^ 32 + 0x39 * 2 ^ 24 + 0x120

/-- A read of WIN_FLOG returns the oldest record and removes it; 0 where there is none. -/
def State.popLog (s : State) (who : Requester) (tile : Nat) : State :=
  match s.hrd.log.getD tile [] with
  | [] => s.readDone who (winLogAddr tile) 0
  | f :: _ => (s.dropFault tile).readDone who (winLogAddr tile) (BitVec.ofNat 64 f.word)

/-- WIN_FAULT_READ (R566): the oldest record is returned and removed, and WIN_FTIME takes its time. -/
def execWinFaultRead (who : Requester) (tile : Nat) (s : State) : Res :=
  let addr := winLogAddr tile
  let x := s.checkAccess who addr 8 .read
  if x.1 then .next (x.2.popLog who tile) else .next (x.2.emit (.readData addr 0))

/-! ## Rings (R568 to R572) -/

/-- The cluster of the core has been stopped by a divergence (R580). -/
def State.clusterStopped (s : State) (tile cluster : Nat) : Bool := s.hrd.stopped.getD (tile * 4 + cluster) false

def State.ringDir (s : State) (tile r : Nat) : Nat := s.tblFld (dieC tile) 1 r 0 Reg.HRD_RING_DATA_DIR

def State.ringCapture (s : State) (tile r : Nat) : Bool := s.tblFlag (dieC tile) 1 r 0 Reg.HRD_RING_DATA_CAPTURE

/-- Captured MSG and ATT records for a core, delivered in place of live messages: the messages are written in the ring's slots
from the consumer index on, the attachments at their addresses (R580). -/
def State.deliverReplay (s : State) (tile core r : Nat) : State :=
  match s.takeReplay tile core with
  | some (.msg _ r' ms, t) =>
    if r' ≠ r then t.diverge tile core
    else
      let slots := t.ringSlots tile r
      let c := t.fld (dieC tile) (Reg.HRD_RING_CONS.plus (8 * r))
      (List.zip (List.range ms.length) ms).foldl (fun t im =>
        let t := t.stores (t.ringBase tile r + (c + im.1) % slots * 64) im.2.bytes
        match im.2.attach with
        | none => t
        | some (a, _) => match t.takeReplay tile core with
          | some (.att _ b, u) => u.stores a b
          | some (_, u) => u.diverge tile core
          | none => t.diverge tile core) t
  | some (_, t) => t.diverge tile core
  | none => s.diverge tile core

/-- RING_CONSUME (R571, R576): core `core` of a cluster writes CONS of a ring to cores. The consumed messages are captured,
and producers that wait get room. -/
def execRingConsume (tile cluster core r cons : Nat) (s : State) : Res :=
  if !s.hasTile tile || decide (4096 ≤ r) || !s.ringValid tile r || s.ringDir tile r != 0 || s.clusterStopped tile cluster then .next s
  else
    let c := cluster * 8 + core
    let f := Reg.HRD_RING_CONS.plus (8 * r)
    if s.replaying tile then
      .next ((s.deliverReplay tile c r).setFld (dieC tile) f cons)
    else
      let x := s.ring tile r
      let n := (cons + 2 ^ 20 - s.fld (dieC tile) f) % 2 ^ 20
      let taken := x.msgs.take n
      let s := (s.setRing tile r { x with msgs := x.msgs.drop n }).setFld (dieC tile) f cons
      let s := if s.ringCapture tile r then
        taken.foldl (fun s m => match m.attach with
          | some (a, len) => s.capture tile (.att c (s.loads a (min len 4096)))
          | none => s) (s.capture tile (.msg c r taken))
      else s
      .next (s.drainRing tile r (x.waiting.length + 1))

/-- Write slots of a ring from position `p` on (R568). -/
def State.writeSlots (s : State) (tile r p : Nat) (slots : List Bytes) : State :=
  (List.zip (List.range slots.length) slots).foldl (fun t ib =>
    t.stores (t.ringBase tile r + (p + ib.1) % t.ringSlots tile r * 64) ib.2) s

/-- RING_POST (R571, R576): core `core` writes the slots and then PROD of a ring from cores. In replay the slots are compared
with the capture, and no descriptor is executed (R580). -/
def execRingPost (tile cluster core r : Nat) (slots : List Bytes) (s : State) : Res :=
  if !s.hasTile tile || decide (4096 ≤ r) || !s.ringValid tile r || s.ringDir tile r != 1 || s.clusterStopped tile cluster then .next s
  else
    let c := cluster * 8 + core
    let f := Reg.HRD_RING_PROD.plus (8 * r)
    let p := s.fld (dieC tile) f
    let slots := slots.map (padTo 64)
    let t := (s.writeSlots tile r p slots).setFld (dieC tile) f (p + slots.length)
    if s.replaying tile then
      if !s.ringCapture tile r then .next t
      else match t.takeReplay tile c with
        | some (.out _ r' sl, u) => if r' = r ∧ sl = slots then .next u else .next (u.diverge tile c)
        | some (_, u) => .next (u.diverge tile c)
        | none => .next (t.diverge tile c)
    else
      let x := t.ring tile r
      let t := t.setRing tile r { x with msgs := x.msgs ++ slots.map (fun b => { t.msgOf tile cluster (.work b) with seq := x.posted }),
                                         posted := x.posted + slots.length }
      if s.ringCapture tile r && s.flag (dieC tile) Reg.RPL_CTRL_OUT_EN then .next (t.capture tile (.out c r slots)) else .next t

/-- TICK (R572, R570): a TICK message to a cluster's tick ring each TICK_US; one that finds the ring full is counted in MISSED of
the next. -/
def execTick (tile cluster : Nat) (s : State) : Res :=
  let d := dieC tile
  let k := tile * 4 + cluster
  let us := max 1 (s.fld d Reg.HRD_CTRL_TICK_US)
  if !s.hasTile tile || decide (4 ≤ cluster) || decide (s.since (s.hrd.tickAt.getD k 0) < us * 1000) then .next s
  else
    let s := { s with hrd := { s.hrd with tickAt := s.hrd.tickAt.insert k s.ao.tb } }
    let r := s.fld d (Reg.HRD_TICK_RING.plus (8 * cluster))
    let x := s.ring tile r
    if !s.ringValid tile r then .next s
    else if s.ringSlots tile r ≤ x.msgs.length then .next (s.setRing tile r { x with missed := x.missed + 1 })
    else .next ((s.setRing tile r { x with missed := 0 }).post tile r 0xFF (.tick x.missed))

/-! ## Cache maintenance (R554 to R556) -/

/-- A cached byte's line lies in the range of CMT_LO to CMT_HI. -/
def State.inCmt (s : State) (tile a : Nat) : Bool :=
  let l := a / 64 * 64
  decide (s.fld (dieC tile) Reg.CMT_LO_ADDR ≤ l) && decide (l ≤ s.fld (dieC tile) Reg.CMT_HI_ADDR)

/-- A write of CMT_CMD: while BUSY it is ignored and LOST is set (R556). `wb` writes dirty lines back, `drop` drops the lines. -/
def State.cmt (s : State) (tile : Nat) (wb drop : Bool) : State :=
  let d := dieC tile
  if !s.hasTile tile then s
  else if s.flag d Reg.CMT_STATUS_BUSY then s.setFlag d Reg.CMT_STATUS_LOST true
  else
    let mine := s.hrd.cache.filter fun kv => s.inCmt tile kv.1
    let t := if wb then mine.foldl (fun t kv => if kv.2.2 then t.store kv.1 kv.2.1 else t) s else s
    let cache := if drop then s.hrd.cache.filter fun kv => !s.inCmt tile kv.1
      else s.hrd.cache.mapV fun k v => if s.inCmt tile k then (v.1, false) else v
    ({ t with hrd := { t.hrd with cache := cache } }).setFlag d Reg.CMT_STATUS_BUSY true

/-- CMT_CLEAN, CMT_INVALIDATE, CMT_CLEAN_INV (R555). -/
def execCmtClean (tile : Nat) (s : State) : Res := .next (s.cmt tile true false)
def execCmtInvalidate (tile : Nat) (s : State) : Res := .next (s.cmt tile false true)
def execCmtCleanInv (tile : Nat) (s : State) : Res := .next (s.cmt tile true true)

/-- CMT_DONE (R555): every cache has completed the operation. -/
def execCmtDone (tile : Nat) (s : State) : Res :=
  if s.flag (dieC tile) Reg.CMT_STATUS_BUSY then
    .next ((s.setFlag (dieC tile) Reg.CMT_STATUS_BUSY false).setFlag (dieC tile) Reg.CMT_STATUS_DONE true)
  else .next s

/-! ## Watchdogs (R575) -/

/-- A write of HRD_WDOGn: EN arms for good, TIMEOUT_US is fixed once EN is 1, KICK restarts the count. -/
def State.writeWdog (s : State) (tile cluster : Nat) (val : Word) : State :=
  let d := dieC tile
  let en := Reg.HRD_WDOG_EN.plus (8 * cluster)
  let was := s.flag d en
  let s := if was then s else s.setFld d (Reg.HRD_WDOG_TIMEOUT_US.plus (8 * cluster)) (bitsAt val 32 32)
  let s := if bitsAt val 0 1 = 1 then s.setFlag d en true else s
  if (bitsAt val 0 1 = 1 ∧ !was) ∨ bitsAt val 1 1 = 1 then
    { s with hrd := { s.hrd with wdog := s.hrd.wdog.insert (tile * 4 + cluster) s.ao.tb } }
  else s

/-- WATCHDOG_ARM: a write with EN. -/
def execWatchdogArm (tile cluster : Nat) (val : Word) (s : State) : Res :=
  if s.hasTile tile && decide (cluster < 4) then .next (s.writeWdog tile cluster (setBits val 0 1 1)) else .next s

/-- WATCHDOG_KICK: a write with KICK. -/
def execWatchdogKick (tile cluster : Nat) (val : Word) (s : State) : Res :=
  if s.hasTile tile && decide (cluster < 4) then .next (s.writeWdog tile cluster (setBits val 1 1 1)) else .next s

/-- WATCHDOG_EXPIRY: TIMEOUT_US has passed since the arming or the last kick. -/
def execWatchdogExpiry (tile cluster : Nat) (s : State) : Res :=
  let d := dieC tile
  let off := 8 * cluster
  let us := max 1 (s.fld d (Reg.HRD_WDOG_TIMEOUT_US.plus off))
  if s.hasTile tile && decide (cluster < 4) && s.flag d (Reg.HRD_WDOG_EN.plus off) && !s.flag d (Reg.HRD_WDOG_EXPIRED.plus off) &&
      decide (us * 1000 ≤ s.since (s.hrd.wdog.getD (tile * 4 + cluster) 0)) then
    .next ((s.setFlag d (Reg.HRD_WDOG_EXPIRED.plus off) true).raiseFault 0x04 d 0x38)
  else .next s

/-! ## Replay capture (R576) -/

/-- A write of RPL_CTRL. -/
def State.writeRpl (s : State) (tile : Nat) (val : Word) : State :=
  match findReg 0x3C 0 with
  | some r => s.writePlain (dieC tile) 0x3C 0 r val 0
  | none => s

/-- CAPTURE_START: a write of RPL_CTRL with EN 1; EN going from 0 to 1 starts the capture. -/
def execCaptureStart (tile : Nat) (val : Word) (s : State) : Res :=
  if !s.hasTile tile then .next s
  else
    let was := s.flag (dieC tile) Reg.RPL_CTRL_EN
    let s := s.writeRpl tile (setBits val 0 1 1)
    if was then .next s else .next (s.capStart tile)

/-- CAPTURE_STOP: a write of RPL_CTRL with EN 0: STOP, and the capture ends. -/
def execCaptureStop (tile : Nat) (val : Word) (s : State) : Res :=
  if !s.hasTile tile then .next s
  else
    let s := if s.capRunning tile then s.capture tile .stop else s
    .next ((s.writeRpl tile (setBits val 0 1 0)).setFlag (dieC tile) Reg.RPL_STATUS_RUNNING false)

/-- CAPTURE_SNAP: a write of RPL_SNAPCMD: `pages` × 4 KiB from `addr` as one SNAP record, read as master 12. -/
def execCaptureSnap (tile addr pages : Nat) (s : State) : Res :=
  if !s.hasTile tile || !s.capRunning tile || s.frozen tile 12 0 then .next s
  else match s.rangeFault tile 12 addr (pages * 4096) .read with
    | some (a, c) =>
      let d := dieC tile
      .next (((s.setFlag d Reg.RPL_STATUS_RUNNING false).setFlag d Reg.RPL_STATUS_FAULT true).channelFault tile 12 0 a .read c)
    | none => .next (s.capture tile (.snap addr (s.loads addr (pages * 4096))))

end Sys2Proof.Machine
end

