-- ==== Sys2Proof/Machine/CsaRows.lean ====
section
/-! DEFINITION. Operations of the content search arrays as commands (R506, R525): those of firmware by CSA_CMD, those of the
fingerprint lanes and the map cache, and the end of a respread. -/

namespace Sys2Proof.Machine

open Sys2Proof

/-- A value of the request registers: five words of 64 bits, cut to the width of the partition. -/
def State.csaReg (s : State) (d : Nat) (f : Fld) (bits : Nat) : Nat :=
  ((List.range 5).foldl (fun n i => n + s.fld (dieS d) (f.plus (8 * i)) * 2 ^ (64 * i)) 0) % 2 ^ bits

def State.setCsaReg (s : State) (d : Nat) (f : Fld) (v : Nat) : State :=
  (List.range 5).foldl (fun s i => s.setFld (dieS d) (f.plus (8 * i)) (v / 2 ^ (64 * i))) s

/-- The end of an operation: DONE, HIT, ERR, and an entry found in the request registers (R525). -/
def State.csaEnd (s : State) (d err : Nat) (hit : Bool) (r : Option (Nat × CsaEnt)) : State :=
  let s := s.setFlag (dieS d) Reg.CSA_RESULT_DONE true
  let s := s.setFlag (dieS d) Reg.CSA_RESULT_HIT hit
  let s := s.setFld (dieS d) Reg.CSA_RESULT_ERR err
  match r with
  | none => s
  | some (a, e) =>
    let s := (s.setFld (dieS d) Reg.CSA_RESULT_RANK e.rank).setFld (dieS d) Reg.CSA_RESULT_ADDR a
    let s := (s.setCsaReg d Reg.CSA_KEY_V e.val).setCsaReg d Reg.CSA_EMASK_V e.mask
    s.setFld (dieS d) Reg.CSA_ASSOC_V e.assoc

/-- A write of CSA_CMD: refused while BUSY or not READY; partition and permission, then the operation (R506, R522). -/
def State.csaCmd (s : State) (d part : Nat) (ok : CsaPart → Bool) (k : State → CsaPart → State) : State :=
  if !s.variant.populated (dieS d) || !s.csaFlag d Reg.CSA_STATUS_READY then s
  else if s.csaFlag d Reg.CSA_RESULT_BUSY then s.csaCount d 5 1
  else match s.csaPart d part with
  | none => s.csaEnd d 1 false none
  | some p => if ok p then k s p else s.csaEnd d 2 false none

/-- CSA_SEARCH (R504). `ecc` lists entries read out with an error, and whether it is corrected (R497). -/
def execCsaSearch (d part : Nat) (ecc : List (Nat × Bool)) (s : State) : Res :=
  .next (s.csaCmd d part (fun _ => true) fun s p =>
    let (k, sm) := (s.csaReg d Reg.CSA_KEY_V p.bits, s.csaReg d Reg.CSA_SMASK_V p.bits)
    let (s, r) := s.csaTry d ecc (fun s => s.csaFind d p k sm) ecc.length
    s.csaEnd d 0 r.isSome r)

/-- CSA_FLOOR (R505). -/
def execCsaFloor (d part : Nat) (ecc : List (Nat × Bool)) (s : State) : Res :=
  .next (s.csaCmd d part (fun p => p.purpose == 1) fun s p =>
    let k := s.csaReg d Reg.CSA_KEY_V p.bits
    let (s, r) := s.csaTry d ecc (fun s => s.csaFloor d p k) ecc.length
    s.csaEnd d 0 r.isSome r)

/-- CSA_WRITE (R506): only in a CLASSIFY partition, at an address of it. -/
def execCsaWrite (d part rank addr : Nat) (s : State) : Res :=
  .next (s.csaCmd d part (fun p => p.purpose == 2) fun s p =>
    if !p.holds addr then s.csaEnd d 3 false none
    else
      let e : CsaEnt := { val := s.csaReg d Reg.CSA_KEY_V p.bits, mask := s.csaReg d Reg.CSA_EMASK_V p.bits, rank := rank % 16,
                          assoc := s.fld (dieS d) Reg.CSA_ASSOC_V }
      (s.setCsa d { s.csaOf d with ents := (s.csaOf d).ents.insert addr e }).csaEnd d 0 false none)

/-- CSA_INVALIDATE (R506). -/
def execCsaInvalidate (d part addr : Nat) (s : State) : Res :=
  .next (s.csaCmd d part (fun p => p.purpose == 2) fun s p =>
    if !p.holds addr then s.csaEnd d 3 false none
    else (s.setCsa d { s.csaOf d with ents := (s.csaOf d).ents.erase addr }).csaEnd d 0 false none)

/-- CSA_READ (R506, R525): the entry at an address goes to the request registers; ERR 7 for an uncorrectable one. An entry that is
not valid loads nothing. -/
def execCsaRead (d part addr : Nat) (ecc : List (Nat × Bool)) (s : State) : Res :=
  .next (s.csaCmd d part (fun _ => true) fun s p =>
    if !p.holds addr then s.csaEnd d 3 false none
    else
      let bad := (s.csaOf d).ents.has addr && ecc.lookup addr == some false
      let s := s.csaEcc d ecc addr
      if bad then s.csaEnd d 7 false none
      else s.csaEnd d 0 false (((s.csaOf d).ents.find? addr).map fun e => (addr, e)))

/-- An operation that reaches an S-die for a partition of one purpose, from a lane, the freeing steps or the map cache; from
firmware by CSA_CMD it is not permitted (R506). -/
def State.csaAsk (s : State) (fw : Bool) (d part purpose : Nat) (k : State → CsaPart → State) : State :=
  if fw then s.csaCmd d part (fun _ => false) fun s _ => s
  else if !s.variant.populated (dieS d) || !s.csaFlag d Reg.CSA_STATUS_READY then s
  else match s.csaPart d part with
  | some p => if p.purpose = purpose then k s p else s
  | none => s

/-- INSERT_RING (R508): the lane writes the chunk reference to the HBM slot of the address returned (R510). -/
def execInsertRing (fw : Bool) (d part key ref : Nat) (s : State) : Res :=
  .next (s.csaAsk fw d part 0 fun s p =>
    let (s, a) := s.csaInsertRing d part p (key % 2 ^ p.bits)
    s.setCsa d { s.csaOf d with slots := (s.csaOf d).slots.insert a ref })

/-- DELETE_MATCH (R506). -/
def execDeleteMatch (fw : Bool) (d part key : Nat) (s : State) : Res :=
  .next (s.csaAsk fw d part 0 fun s p => s.csaDeleteMatch d p (key % 2 ^ p.bits))

/-- INVALIDATE_MASKED (R506, R511): by firmware on a CLASSIFY partition, or for the removal of a domain on a FILTER partition. -/
def execInvalidateMasked (fw : Bool) (d part domain : Nat) (s : State) : Res :=
  if fw then .next (s.csaCmd d part (fun p => p.purpose == 2) fun s p =>
    (s.csaInvalidateMasked d p (s.csaReg d Reg.CSA_KEY_V p.bits) (s.csaReg d Reg.CSA_SMASK_V p.bits)).csaEnd d 0 false none)
  else .next (s.csaAsk false d part 0 fun s p =>
    s.csaInvalidateMasked d p (domain % 4096 * 2 ^ 148) ((2 ^ 12 - 1) * 2 ^ 148))

/-- ORD_INSERT (R515). -/
def execOrdInsert (fw : Bool) (d part val leaf : Nat) (s : State) : Res :=
  .next (s.csaAsk fw d part 1 fun s p =>
    (s.csaOrdInsert d part p { val := val % 2 ^ 320, mask := 2 ^ 320 - 1, rank := 0, assoc := leaf }).1)

/-- ORD_DELETE (R506). -/
def execOrdDelete (fw : Bool) (d part val : Nat) (s : State) : Res :=
  .next (s.csaAsk fw d part 1 fun s p => s.csaOrdDelete d p (val % 2 ^ 320))

/-- RESPREAD_DONE (R517). -/
def execRespreadDone (d part : Nat) (s : State) : Res :=
  match s.csaPart d part with
  | some p => if (s.csaOf d).spread.contains part then .next (s.csaRespread d part p) else .next s
  | none => .next s

end Sys2Proof.Machine
end

