-- ==== Sys2Proof/Machine/DestageRows.lean ====
section
/-! DEFINITION. Destage as commands (spec/04, spec/05): records, chunks, key slots, lanes, chunks being freed, packs. -/

namespace Sys2Proof.Machine

open Sys2Proof

/-! ## Records and chunks -/

/-- Page images of control-plane firmware for a job that waits for them (R257, R467, R470, R472): one transaction, with a new
root and INDEX counter where the operand gives them. -/
def State.firmwareFix (s : State) (j : Nat) (x : Job) (fix : List Item) (root : Option (Nat × Nat)) : State :=
  -- the INDEX counter stands in the log before what it names (R250)
  let s := match root, s.arr.nss.find? x.nsid with
    | some (r, i), some n =>
      let n := { n with root := r, index := i }
      ({ s with arr := { s.arr with nss := s.arr.nss.insert x.nsid n } } : State).log (.nsrec x.nsid (some n))
    | _, _ => s
  let (s, t) := s.logTxn none x.shard 0 fix
  s.setJob j { x with fix := t, held := false, fixed := x.fixed || !(x.kv && s.leafFull x.nsid x.key) }

/-- The job that a record belongs to. -/
def State.jobOf (s : State) (side seq : Nat) : Option (Nat × Job) :=
  List.find? (fun jx : Nat × Job => jx.2.side == side && jx.2.seqs.contains seq) s.dst.jobs

/-- JOURNAL_DESTAGE (R193): of the record `seq` of a side, its own or adopted. `fix` and `root` are firmware's page images for a
record whose destage waits for them. -/
def execJournalDestage (side seq : Nat) (fix : List Item) (root : Option (Nat × Nat)) (s : State) : Res :=
  match s.jobOf side seq with
  | some (j, x) => if x.held && !fix.isEmpty && x.txn.isNone then .next (s.firmwareFix j x fix root).settle else .next (s.tryTxn j).settle
  | none => match s.jent side seq with
    | none => .next s
    | some e =>
      let parts := if e.r.kv then s.valueParts e.r else [e.r]
      let whole := parts.all fun q => match s.jent q.side q.seq with
        | some d => side != s.side || s.recComplete d
        | none => false
      let last := !e.r.kv || e.r.part + 1 == max 1 e.r.parts
      if s.mayTransmit && s.flag (dieM 0) Reg.FTL_CTRL_EN && !e.destaging && e.txn == 0 && last && whole &&
          parts.length == (if e.r.kv then max 1 e.r.parts else 1) && s.owner e.r.shard == s.side then
        .next (s.beginDestage e).settle
      else .next s

/-- A hashed chunk: it is compared with the fingerprint a remote pair announced (R485), or the filter is probed where its domain asks for
that (R187). -/
def State.hashed (s : State) (job n : Nat) (x : Job) (r : LaneRun) (fp : Bytes) : State :=
  match x.repl with
  | some (k, fps) => if fps.getD n [] = fp then s.freshChunk job n x fp else s.wrongChunk job n x k
  | none =>
    if !r.filter then s.freshChunk job n x fp
    else match s.filterProbe x.domain fp with
    | (s, some ref) => (s.addFld (dieC r.tile) Reg.FPL_HIT_FILTER_HIT 1).setChunk job n (.candidate fp ref r.cmp)
    | (s, none) => s.freshChunk job n x fp

/-- FINGERPRINT_DONE (R178, R182, R187, R485): of chunk `n` of a job, by the lane that holds it. The job goes on on that lane's tile
(R202). -/
def execFingerprintDone (job n : Nat) (s : State) : Res :=
  let s := s.startLanes
  match s.runOf .fpl (.chunk job n), s.job job with
  | some r, some x => match x.chunkAt n with
    | some { bytes := b, st := .hash } => match s.useFp r.tile x.domain with
      | none => .next (s.leaveLane r).settle
      | some (icv, ocv, s) =>
        let x := { x with tile := r.tile }
        .next (((s.leaveLane r).setJob job x).hashed job n x r (hmacFrom (icv, ocv) b)).settle
    | _ => .next s
  | _, _ => .next s

/-- Confirm a chunk against an index entry, by byte compare where its domain asked for one (R191, R207). A candidate whose length in the
chunk table differs is rejected, counted (R189, R206). -/
def State.confirmBy (s : State) (j n : Nat) (x : Job) (fp : Bytes) (cmp : Bool) (e : FpEnt) : State :=
  let c := s.chunk e.ref
  if c.len ≠ e.len then
    ((s.addFld (dieC x.tile) Reg.FPL_MISC_UNCONFIRMED 1).event (dieC x.tile) 0x31 5 noInst).freshChunk j n x fp
  else if cmp then
    (s.setChunk j n (.comparing fp e.ref)).readPack c.pack (e.ref - c.member) x.domain x.cls x.tile (.compare j n c.member)
  else s.confirmChunk j n x fp e.ref

/-- CANDIDATE_CONFIRM (R188 to R191): of chunk `n` of a job. -/
def execCandidateConfirm (job n : Nat) (s : State) : Res :=
  match s.job job with
  | none => .next s
  | some x => match x.chunkAt n with
    | some { bytes := b, st := .candidate fp ref cmp } =>
      let l := s.confirmable x.domain fp b.length
      match l.find? fun e => e.ref == ref with
      | some e => .next (s.confirmBy job n x fp cmp e).settle
      | none =>
        let s := s.addFld (dieC x.tile) Reg.FPL_MISC_UNCONFIRMED 1
        match l.foldl (fun (b : Option FpEnt) e => match b with
          | some a => if a.ref < e.ref then some e else some a
          | none => some e) none with
        | some e => .next (s.confirmBy job n x fp cmp e).settle
        | none => .next (s.freshChunk job n x fp).settle
    | _ => .next s

/-! ## Key slots -/

/-- The record of a domain at an address, unwrapped under the tile's AWK; the outer option: the tile holds an AWK. -/
def State.loadRec (s : State) (tile domain addr : Nat) : Option (Option KeyRec) :=
  (s.awkOf tile).map fun awk => (unwrapRec awk (s.loads addr 368)).bind fun r => if r.domain = domain then some r else none

/-- A chunk waits on a tile for the key state of a domain: of a job, or of a freeing whose fingerprint is made again (R199). -/
def State.fpWanted (s : State) (tile domain : Nat) : Bool :=
  (s.dst.jobs.vals.any fun x => x.domain == domain && !x.held && s.laneTile .fpl x.tile == some tile && x.chunks.any fun c => c.st == .hash) ||
    s.dst.freeing.any fun rf => refDomain rf.1 == domain && rf.2.data.isSome && s.laneTile .fpl (rf.1 % s.variant.tiles) == some tile

/-- A pack waits on a tile for a generation of a domain: one that is read, one to be encrypted, a copy to be decrypted (R221, R224). -/
def State.xtsWanted (s : State) (tile domain gen : Nat) : Bool :=
  (s.med.rds.vals.any fun r => r.domain == domain && r.plain.isNone && s.laneTile .dec r.tile == some tile && (match r.env.bind envOf with
    | some e => e.gen == gen
    | none => false)) ||
  s.dst.packs.vals.any fun p => p.domain == domain &&
    ((p.st == .compressed && s.laneTile .enc p.tile == some tile && s.wgen tile domain == gen) ||
     (p.st == .closed && p.copyOf.isSome && p.gen == gen && s.laneTile .dec p.tile == some tile))

/-- FP_SLOT_LOAD (R180, R181): for a chunk that waits; the domain's record lies at `addr` in DDR. Every load is counted. -/
def execFpSlotLoad (tile domain addr : Nat) (s : State) : Res :=
  if !s.fpWanted tile domain || s.dst.fpSlots.has (fpKey tile domain) then .next s
  else match s.loadRec tile domain addr with
  | none => .next s
  | some r =>
    let s := s.addFld (dieC tile) Reg.FPL_SLOT_MISS_COUNT 1
    match r with
    | none => .next (s.raiseFault 0x02 (dieC tile) 0x31).settle
    | some r => .next (s.putFpSlot tile domain r.icv r.ocv).settle

/-- XTS_SLOT_LOAD (R221): for a pack that waits for a generation of a domain; a record without it makes the packs that name it
malformed (R225, R246). Every load is counted. -/
def execXtsSlotLoad (tile domain gen addr : Nat) (s : State) : Res :=
  if !s.xtsWanted tile domain gen || s.dst.xtsSlots.has (xtsKey tile domain gen) then .next s
  else match s.loadRec tile domain addr with
  | none => .next s
  | some r =>
    let s := s.addFld (dieC tile) Reg.XTS_SLOT_MISS_COUNT 1
    match r with
    | none => .next (s.raiseFault 0x02 (dieC tile) 0x34).settle
    | some r => match r.gens.find? fun g => g.gen == gen with
      | some g => .next (s.putXtsSlot tile domain g).settle
      | none => .next ((s.genAbsent tile domain gen).genAbsentCopies tile domain gen).settle

/-- FP_SLOT_FLUSH (R207): a write of FPL_SLOT_FLUSH. -/
def execFpSlotFlush (tile : Nat) (val : Word) (s : State) : Res :=
  .next (s.flushFpLater tile (if bitsAt val 12 1 = 1 then none else some (bitsAt val 0 12))).settle

/-- XTS_SLOT_FLUSH (R249): a write of XTS_SLOT_FLUSH. -/
def execXtsSlotFlush (tile : Nat) (val : Word) (s : State) : Res :=
  .next (s.flushXtsLater tile (if bitsAt val 12 1 = 1 then none else some (bitsAt val 0 12))).settle

/-! ## Lanes -/

/-- Fields of a kind of lanes: enable bits, fault bits, how many. -/
def LaneKind.regs : LaneKind → Fld × Fld × Nat
  | .cdc => (Reg.CDC_CTRL_LANE_EN, Reg.CDC_STATUS_LANE_FAULT, 8)
  | .fpl => (Reg.FPL_CTRL_LANE_EN, Reg.FPL_STATUS_LANE_FAULT, 16)
  | .cmp => (Reg.CMP_CTRL_LANE_EN, Reg.CMP_STATUS_LANE_FAULT, 16)
  | .dcp => (Reg.DCP_CTRL_LANE_EN, Reg.DCP_STATUS_LANE_FAULT, 16)
  | .enc => (Reg.XTS_CTRL_ENC_LANE_EN, Reg.XTS_STATUS_ENC_FAULT, 8)
  | .dec => (Reg.XTS_CTRL_DEC_LANE_EN, Reg.XTS_STATUS_DEC_FAULT, 8)
  | .gcm => (Reg.GCM_CTRL_LANE_EN, Reg.GCM_STATUS_LANE_FAULT, 4)

/-- Clear the enable bit of a lane; the last decompression or XTS decrypt lane of the head to go raises an internal fault (R200,
R243, R245). -/
def State.stopLane (s : State) (tile : Nat) (k : LaneKind) (lane : Nat) : State :=
  let d := dieC tile
  let en := s.fld d k.regs.1
  let bit := en / 2 ^ lane % 2
  let had := (s.laneTile k 0).isSome
  let s := s.setFld d k.regs.1 (en - bit * 2 ^ lane)
  let none_ := (s.laneTile k 0).isNone
  if (k == .dcp || k == .dec) && had && none_ then s.raiseFault 0x02 d (if k = .dcp then 0x33 else 0x34) else s

/-- LANE_DISABLE (R200, R243): the lane finishes the item it holds, and takes no more. -/
def execLaneDisable (tile : Nat) (kind : LaneKind) (lane : Nat) (s : State) : Res :=
  if s.variant.populated (dieC tile) && decide (lane < kind.regs.2.2) then .next (s.stopLane tile kind lane).settle else .next s

/-- LANE_FAULT (R201, R244): of an enabled lane. Its partial result is discarded: its item runs again from its start on another lane. -/
def execLaneFault (tile : Nat) (kind : LaneKind) (lane : Nat) (s : State) : Res :=
  let d := dieC tile
  if s.lanes kind tile / 2 ^ lane % 2 = 0 ∨ kind.regs.2.2 ≤ lane then .next s
  else
    let old := s.fld d kind.regs.2.1
    let s := s.setFld d kind.regs.2.1 (old ||| 2 ^ lane)
    let s := { s with dst := { s.dst with running := s.dst.running.filter fun r => !(r.kind == kind && r.tile == tile && r.lane == lane) } }
    .next ((s.event d kind.regs.1.blk 0 lane).stopLane tile kind lane).settle

/-! ## Chunks being freed (R195 to R199) -/

/-- CHUNK_FREE_START (R198 step 1): DYING is logged and the index and filter entries go; the removal reaches the partner once it
is durable. -/
def execChunkFreeStart (ref : Nat) (s : State) : Res :=
  let c := s.chunk ref
  if refNum ref = 0 ∨ c.state ≠ 1 ∨ c.sum ≠ 0 ∨ !s.frees ref ∨ s.dst.freeing.has ref ∨ s.chunkInUse ref then .next s
  else
    let es := s.indexOf ref
    let s := es.foldl (fun s e => s.filterDelete (refDomain ref) e.fp) (s.log (.state ref 2))
    let s := if es.isEmpty then s else (s.logTxn none 0 0 (es.map fun e => .fpdel ref e.len e.fp)).1
    let f : Freeing := { since := s.ao.tb, dying := false, acked := s.pair.head == .solo, fp := es.head?.map FpEnt.fp, data := none }
    .next { s with dst := { s.dst with freeing := s.dst.freeing.insert ref f } }

/-- A DYING chunk is LIVE again, with its index entry (R198 step 5). -/
def State.restoreChunk (s : State) (ref : Nat) (fp : Bytes) : State :=
  let s := s.log (.state ref 1)
  let s := { s with dst := { s.dst with freeing := s.dst.freeing.erase ref } }
  (s.logTxn none 0 0 [.fpadd ref (s.chunk ref).len fp]).1

/-- The fingerprint of a DYING chunk that no start has found is made again from the chunk's bytes (R199): they are read, then hashed
under the domain's key state. -/
def State.refp (s : State) (ref : Nat) (f : Freeing) : State :=
  let c := s.chunk ref
  let home := ref % s.variant.tiles
  match f.data with
  | none =>
    if s.med.rds.vals.any fun r => r.users.any fun u => u == .refp ref c.member then s
    else s.readPack c.pack (ref - c.member) (refDomain ref) 7 home (.refp ref c.member)
  | some b => match s.laneTile .fpl home with
    | none => s
    | some t => match s.useFp t (refDomain ref) with
      | none => s
      | some (icv, ocv, s) => s.restoreChunk ref (hmacFrom (icv, ocv) b)

/-- CHUNK_FREE_FINISH (R198 steps 4 and 5, R199). -/
def execChunkFreeFinish (ref : Nat) (s : State) : Res :=
  match s.dst.freeing.find? ref with
  | none => .next s
  | some f =>
    if !f.dying then .next s
    else if (s.chunk ref).sum ≠ 0 then match f.fp with
      | some fp => .next (s.restoreChunk ref fp).settle
      | none => .next (s.refp ref f).settle
    else if f.acked ∧ ¬ s.pointBefore f.since ∧ ¬ s.chunkInUse ref then
      let s := s.log (.state ref 3)
      .next ({ s with dst := { s.dst with freeing := s.dst.freeing.erase ref } } : State).settle
    else .next s

/-! ## Packs on their way to the media -/

/-- A chunk that no open pack can take waits on a tile. -/
def State.packWanted (s : State) (tile : Nat) : Bool :=
  s.dst.jobs.vals.any fun x => x.tile == tile && !x.held && (match x.chunks.find? fun c => (match c.st with
    | .new _ _ _ => false
    | .done _ => false
    | _ => true) with
    | some { bytes := _, st := .fresh _ } => (s.packFor tile x.domain x.cls x.kv).isNone
    | _ => false)

/-- PACK_CLOSE (R210): a full pack, or the oldest of 16 open ones while a chunk waits for a place. -/
def execPackClose (pack : Nat) (s : State) : Res :=
  match s.pack pack with
  | none => .next s
  | some p =>
    let l := s.openPacks p.tile
    let oldest := l.keys.head? == some pack && decide (16 ≤ l.length) && s.packWanted p.tile
    if p.st = .opened ∧ (p.full ∨ oldest) then .next (s.closePack pack).settle else .next s

/-- PACK_FLUSH_TIMEOUT (R210): FLUSH_US has passed without a new member; 0 acts as 1. -/
def execPackFlushTimeout (pack : Nat) (s : State) : Res :=
  match s.pack pack with
  | none => .next s
  | some p =>
    if p.st = .opened ∧ max 1 (s.fld (dieC p.tile) Reg.CMP_CTRL_FLUSH_US) * 1000 ≤ s.since p.addedAt then .next (s.closePack pack).settle
    else .next s

/-- CMP_FLUSH (R210): a write of CMP_FLUSH closes a domain's open packs, or all. -/
def execCmpFlush (tile : Nat) (val : Word) (s : State) : Res :=
  let all := bitsAt val 12 1 == 1
  .next (((s.openPacks tile).keep fun _ p => all || p.domain == bitsAt val 0 12).keys.foldl (fun s k => s.closePack k) s).settle

/-- PACK_COMPRESS_DONE (R213, R214, R217): of the pack that a compression lane holds. -/
def execPackCompressDone (pack : Nat) (s : State) : Res :=
  let s := s.startLanes
  match s.runOf .cmp (.pack pack), s.pack pack with
  | some r, some p =>
    if p.st = .closed ∧ p.copyOf = none then
      let (st, stored) := deflate p.plain
      let s := ((s.leaveLane r).addFld (dieC r.tile) Reg.CMP_COUNT_PACKS 1).addFld (dieC r.tile) Reg.CMP_COUNT_ALL_STORED (if stored then 1 else 0)
      .next (s.setPack pack { p with st := .compressed, stream := st, stored := stored }).settle
    else .next s
  | _, _ => .next s

/-- PACK_ENCRYPT_DONE (R218 to R223): of the pack that an XTS encrypt lane holds, under WGEN; then the pack is placed. A copy under R224
keeps its envelope but for KEYGEN and CRC. -/
def execPackEncryptDone (pack : Nat) (s : State) : Res :=
  let s := s.startLanes
  match s.runOf .enc (.pack pack), s.pack pack with
  | some r, some p =>
    if p.st ≠ .compressed then .next s
    else
      let g := s.wgen r.tile p.domain
      match s.useXts r.tile p.domain g with
      | none => .next (s.leaveLane r).settle
      | some (k1, k2, s) =>
        let ct := xtsEnc k1 k2 p.chunk (padMul 16 p.stream)
        let env := if p.copyOf.isSome then
            let h := p.env.take 6 ++ le 2 g ++ (p.env.drop 8).take 20
            h ++ le 4 (crc32c (h ++ ct)).toNat ++ ct
          else envelope p.kv p.stored p.mems.length g p.chunk p.plain p.stream ct
        .next (((s.leaveLane r).setPack pack { p with st := .encrypted, gen := g, env := env }).placePack pack).settle
  | _, _ => .next s

/-! ## Packs read from the media -/

/-- A copy that is to be re-encrypted leaves its decrypt lane (R224). -/
def State.copyDecrypted (s : State) (id : Nat) : State :=
  match s.runOf .dec (.pack id), s.pack id with
  | some r, some p =>
    if p.st = .closed ∧ p.copyOf.isSome then
      match envOf p.env, s.useXts r.tile p.domain p.gen with
      | some e, some (k1, k2, s) =>
        (s.leaveLane r).setPack id { p with st := .compressed, stream := (xtsDec k1 k2 p.chunk e.payload).take e.slen }
      | _, _ => s.leaveLane r
    else s
  | _, _ => s

/-- A pack being read leaves its decrypt lane (R218, R246). -/
def State.readDecrypted (s : State) (id : Nat) : State :=
  match s.runOf .dec (.read id), s.med.rds.find? id with
  | some r, some x =>
    if x.env.isNone ∨ x.plain.isSome then s
    else match x.env? with
    | none => (s.leaveLane r).packBad id 1
    | some e => match s.useXts r.tile x.domain e.gen with
      | none => s.leaveLane r
      | some (k1, k2, s) =>
        let x := { x with plain := some (xtsDec k1 k2 e.chunk e.payload) }
        let s := s.leaveLane r
        { s with med := { s.med with rds := s.med.rds.insert id x } }
  | _, _ => s

/-- PACK_DECRYPT_DONE (R218, R224, R246): of the pack that an XTS decrypt lane holds: one being read, or a copy. -/
def execPackDecryptDone (copy : Bool) (id : Nat) (s : State) : Res :=
  let s := s.startLanes
  .next (if copy then s.copyDecrypted id else s.readDecrypted id).settle

/-- PACK_INFLATE_DONE (R216, R217): of the pack being read that a decompression lane holds. -/
def execPackInflateDone (rd : Nat) (s : State) : Res :=
  let s := s.startLanes
  match s.runOf .dcp (.read rd), s.med.rds.find? rd with
  | some r, some x => match x.env.bind envOf, x.plain with
    | some e, some st =>
      let d := dieC r.tile
      let s := s.leaveLane r
      match inflate (st.take e.slen) with
      | some out =>
        if out.length ≠ e.ulen then .next ((s.addFld d Reg.DCP_ERR_FORMAT 1).packBad rd 2).settle
        else if (crc32c out).toNat ≠ e.ucrc then .next ((s.addFld d Reg.DCP_ERR_UCRC 1).packBad rd 2).settle
        else .next (s.packServe rd (memberOf e out)).settle
      | none => .next ((s.addFld d Reg.DCP_ERR_FORMAT 1).packBad rd 2).settle
    | _, _ => .next s
  | _, _ => .next s

end Sys2Proof.Machine
end

