-- ==== Sys2Proof/Machine/FtlRows.lean ====
section
/-! DEFINITION. Flash translation as commands (spec/06): the map cache, stripes, collection, journal release, the log, checkpoints. -/

namespace Sys2Proof.Machine

open Sys2Proof

/-! ## Map cache -/

/-- MAP_LOOKUP (R263, R265): of an entry of a page, with its request's tag and class, on its lane. While C0_LANES is 0 a lookup of class 0
is on the lanes of the other classes (the model's choice, log entry 209). -/
def execMapLookup (pageid entry tag cls : Nat) (s : State) : Res :=
  let die := s.mapDie pageid
  if !s.mapOn die then .next s
  else
    let c0 := decide (cls = 0) && decide (0 < s.c0Lanes die)
    let n := s.ftl.rr.getD die 0
    let lane := if c0 then n % s.c0Lanes die else s.mapLane pageid
    let s := if c0 then { s with ftl := { s.ftl with rr := s.ftl.rr.insert die (n + 1) } } else s
    .next (s.lookup { die := die, lane := lane, pageid := pageid, entry := entry, tag := tag, cls := cls, miss := false,
                      behind := false }).settle

/-- MAP_FILL_DONE (R267): the codeword of a fill is judged, and what waited for it goes on. -/
def execMapFillDone (pageid : Nat) (s : State) : Res := .next (s.fillDone pageid).settle

/-- MAP_LINE_WRITEBACK_DONE (R269). -/
def execMapLineWritebackDone (pageid : Nat) (s : State) : Res := .next (s.writebackDone pageid).settle

/-- The range operations, by a write of MAP_RANGE_CMD on an M-die (R273). -/
def execMapRangeClean (die : Nat) (s : State) : Res := .next (s.startRange die 1).settle
def execMapRangeInvalidate (die : Nat) (s : State) : Res := .next (s.startRange die 2).settle
def execMapRangeCleanInv (die : Nat) (s : State) : Res := .next (s.startRange die 3).settle
def execMapRangeLoadPin (die : Nat) (s : State) : Res := .next (s.startRange die 4).settle
def execMapRangeUnpin (die : Nat) (s : State) : Res := .next (s.startRange die 5).settle
def execMapRangeSweep (die : Nat) (s : State) : Res := .next (s.startRange die 6).settle

/-- MAP_RANGE_DONE (R274): every page of the operation is done with. -/
def execMapRangeDone (die : Nat) (s : State) : Res :=
  match s.ftl.range.find? die with
  | some r =>
    if !r.todo.isEmpty then .next s
    else
      let d := dieM die
      let s := { s with ftl := { s.ftl with range := s.ftl.range.erase die } }
      let s := (s.setFlag d Reg.MAP_RANGE_STATUS_BUSY false).setFlag d Reg.MAP_RANGE_STATUS_DONE true
      .next ((s.setFld d Reg.MAP_RANGE_STATUS_ERR r.err).setFld d Reg.MAP_RANGE_STATUS_LINES r.lines).settle
  | none => .next s

/-! ## Stripes and segments -/

/-- STRIPE_TIMEOUT (R279, R339): STRIPE_US after its first placement the stripe of an open segment is programmed as it is. -/
def execStripeTimeout (seg : Nat) (s : State) : Res :=
  match s.ftl.opens.find? fun o => o.segid == seg with
  | some o =>
    let due := decide (o.since + s.fld (dieM 0) Reg.FTL_CTRL_STRIPE_US * 1000 ≤ s.ao.tb)
    if due && !(o.buf.isEmpty && o.unit.isEmpty) then .next (s.endStripe o true).settle else .next s
  | none => .next s

/-- STRIPE_PLACED (R279, R285): of the program unit that begins at stripe `k`. -/
def execStripePlaced (seg k : Nat) (s : State) : Res := .next (s.unitPlaced seg k).settle

/-- GC_SEGMENT (R276, R284): a segment posted for collection, with its class. -/
def execGcSegment (seg cls : Nat) (s : State) : Res := if s.serving then .next (s.collect seg cls).settle else .next s

/-- SEGMENT_RECLAIM (R276, R288): no read point predates RELOC_AT by less than 100 ns after it. -/
def execSegmentReclaim (seg : Nat) (s : State) : Res :=
  match s.ftl.segs.find? seg with
  | some d =>
    if d.state == SegState.reclaim && s.runs seg && !s.pointBefore (d.relocAt + 100) then
      let d' := { d with state := .empty }
      let s := (s.setSeg d').log (.segment d')
      .next (d.members.foldl (fun s m => s.eraseBlock m.addr 7) s).settle
    else .next s
  | none => .next s

/-- READ_POINT_NOTICE (R287): the oldest map epoch of the read points in flight goes to the partner. -/
def execReadPointNotice (s : State) : Res :=
  if s.pair.head != .twin then .next s
  else
    let l := s.ftl.points.vals
    let oldest := l.foldl min (l.headD s.ao.tb)
    .next (s.sendUpd 1 (.readPoint oldest) 0).1

/-! ## Journal -/

/-- JOURNAL_RELEASE (R282): the oldest unreleased record of a side that this head destages as the owner of its shard (R138), once its transaction is durable with its
packs placed and its MAPUPDs acknowledged. Records are released in the order of their SEQ, as the RELEASE message names them. -/
def execJournalRelease (side seq : Nat) (s : State) : Res :=
  let mine := fun (e : JEnt) => s.owner e.r.shard == s.side
  let l := ((if side = s.side then s.jrnl.own else s.jrnl.mirror).keep fun _ e => mine e).keys
  match s.jent side seq with
  | some e =>
    if mine e && e.durable && e.updates == 0 && l.head? == some seq then
      let s := s.releaseRec side seq
      let s := if s.mirroring then s.send 2 0 0 (.release side seq) else s
      .next ((s.clearIntents side seq).eraseJournal).settle
    else .next s
  | none => .next s

/-! ## Log and checkpoints -/

/-- LOG_PAGE_TIMEOUT (R293): LOG_US after its first record the present log page is programmed. -/
def execLogPageTimeout (s : State) : Res :=
  if !s.ftl.cur.isEmpty && decide (s.ftl.curSince + s.fld (dieM 0) Reg.FTL_CTRL_LOG_US * 1000 ≤ s.ao.tb) then
    .next s.programLogPage.settle
  else .next s

/-- LOG_PAGE_DURABLE (R293, R297): the oldest log page has two of its three copies. -/
def execLogPageDurable (page : Nat) (s : State) : Res := .next (s.logDurable page).settle

/-- CHECKPOINT_REQ (R300): a write of FTL_CKPT with REQ. -/
def execCheckpointReq (val : Word) (s : State) : Res :=
  if bitsAt val 32 1 = 1 then .next s.startCkpt.settle else .next s

/-- CHECKPOINT_TIMER (R301): after 60 s, or because the log exceeds half of the log blocks (`full`): the lines with the oldest DLSN
are then written first. -/
def execCheckpointTimer (full : Bool) (s : State) : Res :=
  if !s.serving ∨ (!full ∧ s.ao.tb < s.ftl.ckptAt + 60 * 10 ^ 9) then .next s
  else
    let s := if !full then s
      else
        let l := ((s.ftl.lines.keep fun _ l => l.d && l.writing.isNone).mergeSort fun a b => decide (a.2.dlsn ≤ b.2.dlsn))
        (l.map Prod.fst).foldl (fun s p => s.writePage p) s
    .next s.startCkpt.settle

end Sys2Proof.Machine
end

