-- ==== Sys2Proof/Machine/HostIo.lean ====
section
/-! DEFINITION. Host commands of I/O queues (spec/02, R53, R54), and the events that move waiting commands on. -/

namespace Sys2Proof.Machine

open Sys2Proof

/-- FLUSH (R53): a no-op, complete after the writes that completed before it. -/
def execFlush (cap : Cap) (s : State) : Res := .next (s.ioCmd cap false .flush none false [] [] false).settle

/-- A fused pair (R76, R77): both commands or neither. Where only one of the two brings its data in its capsule, the other's is fetched (R100). -/
def State.fused (s : State) (cap cap2 : Cap) (slba nlb slba2 nlb2 : Nat) : State :=
  s.arrive cap true fun s q pre =>
    let incaps := s.flag (dieF cap.fdie) Reg.NVF_CTRL_INCAPS_EN
    let bad := cap.nsid != cap2.nsid || slba != slba2 || nlb != nlb2 || decide (32 < nlb)
    let taken := s.cidTaken q cap2.cid || cap2.cid == cap.cid
    let st := firstFail [pre, if taken then some ⟨0, 0x03⟩ else none, if cap2.bytes < 64 then some ⟨0, 0x11⟩ else none,
      if cap2.alt != .asRow then some stBadOpcode else none, s.nsCheck cap false, if bad then some stBadField else none, sglCheck cap incaps (some (nlb * 4096)),
      sglCheck cap2 incaps (some (nlb * 4096)), s.lbaCheck cap.nsid slba nlb]
    let (s, cls) := if st.isSome then (s, q.cls) else s.cmdClass cap q false (nlb * 8192)
    let both := cap.sgl.inCapsule && cap2.sgl.inCapsule
    let d1 := cap.data.take (nlb * 4096)
    let d2 := cap2.data.take (nlb * 4096)
    let part := if both then none else if cap.sgl.inCapsule then some (true, d1) else if cap2.sgl.inCapsule then some (false, d2) else none
    let cap' := { cap with data := if both then d1 ++ d2 else [], sgl := { cap.sgl with inCapsule := both }, npsn := cap.npsn + cap2.npsn }
    s.enterAs cap' q (.compareAndWrite slba nlb cap2.cid) cls (rangeWants cap.nsid slba nlb) true part
      (st.map fun x => (x, 0)) (st.map fun x => (x, 0))

/-- The second of a fused pair comes after an aborted first: it completes as the first did (R78). -/
def State.abortedHalf (s : State) (cap : Cap) : State :=
  s.arrive cap true fun s q pre => s.enterCmd cap q .judged q.cls [] false (some (pre.getD stAborted, 0)) none

/-- WRITE (R53, R141): `nlb` blocks from `slba`. The second of a fused pair completes the pair that a Compare began. -/
def execWrite (cap : Cap) (slba nlb : Nat) (s : State) : Res :=
  if cap.fuse = .second then
    match s.takeHalf cap with
    | (s, some h) =>
      if h.aborted then .next (s.abortedHalf cap).settle
      else .next (s.fused { h.cap with fuse := .single } cap h.slba h.nlb slba nlb).settle
    | (s, none) => .next (s.arrive cap true fun s q pre => s.enterCmd cap q .judged q.cls [] false
        (some ((pre.getD ⟨0, 0x0A⟩), 0)) none).settle
  else
    .next (s.ioCmd cap false (.write slba nlb) (some (nlb * 4096)) false [s.lbaCheck cap.nsid slba nlb]
      (rangeWants cap.nsid slba nlb) true).settle

/-- READ (R53, R70). -/
def execRead (cap : Cap) (slba nlb : Nat) (s : State) : Res :=
  .next (s.ioCmd cap false (.read slba nlb) (some (nlb * 4096)) false [s.lbaCheck cap.nsid slba nlb] (rangeWants cap.nsid slba nlb) false).settle

/-- COMPARE (R53): alone under a shared lock; as the first of a fused pair it waits for its second (R77). -/
def execCompare (cap : Cap) (slba nlb : Nat) (s : State) : Res :=
  if cap.fuse = .first then
    .next (s.arrive cap true fun s q pre => match pre with
      | some st => s.enterCmd cap q .judged q.cls [] false (some (st, 0)) none
      | none => s.setQueue { q with half := some { cap := cap, slba := slba, nlb := nlb, aborted := false } }).settle
  else
    .next (s.ioCmd cap false (.compare slba nlb) (some (nlb * 4096)) false [s.lbaCheck cap.nsid slba nlb]
      (rangeWants cap.nsid slba nlb) false).settle

/-- COMPARE_AND_WRITE (R76): the two capsules of a pair, one after the other. -/
def execCompareAndWrite (cap cap2 : Cap) (slba nlb slba2 nlb2 : Nat) (s : State) : Res :=
  .next (s.fused cap cap2 slba nlb slba2 nlb2).settle

/-- WRITE_ZEROES (R93). -/
def execWriteZeroes (cap : Cap) (slba nlb : Nat) (deac : Bool) (s : State) : Res :=
  .next (s.ioCmd cap false (.writeZeroes slba nlb deac) none false [s.lbaCheck cap.nsid slba nlb] (rangeWants cap.nsid slba nlb) true).settle

/-- DATASET_MANAGEMENT (R91, R100): `nr` ranges declared, `ranges` given; without the deallocate attribute there is nothing to do. -/
def execDatasetManagement (cap : Cap) (deallocate : Bool) (ranges : List (Nat × Nat)) (s : State) : Res :=
  let len := if cap.sgl.len < 16 * ranges.length then some stSglLen else none
  let out := if ranges.any fun r => decide (s.nsBlocks cap.nsid < r.1 + r.2) then some ⟨0, 0x80⟩ else none
  if deallocate then
    .next (s.ioCmd cap false (.deallocate ranges) none false [len, out] (rangesWants cap.nsid ranges) true).settle
  else .next (s.ioCmd cap false .flush none false [len, out] [] false).settle

/-- VERIFY (R53). -/
def execVerify (cap : Cap) (slba nlb : Nat) (s : State) : Res :=
  .next (s.ioCmd cap false (.verify slba nlb) none false [s.lbaCheck cap.nsid slba nlb] (rangeWants cap.nsid slba nlb) false).settle

/-- Key checks (R84). -/
def keyCheck (k : Key) : Option Status := if k.isEmpty || decide (16 < k.length) then some ⟨1, 0x86⟩ else none

/-- STORE (R84 to R86, R100). A Store's length is bounded by R84, not by the transfer limit of R100 (log entry 15). -/
def execStore (cap : Cap) (key : Key) (vlen : Nat) (opts : StoreOpts) (s : State) : Res :=
  let big := if 2 ^ 24 < vlen then some ⟨1, 0x85⟩ else none
  let opt := if opts.append || opts.compress then some stBadField else none
  let len := if cap.sgl.len < vlen then some stSglLen else none
  .next (s.ioCmd cap true (.store key vlen opts) none false [keyCheck key, big, opt, len] (keyWants cap.nsid key) true).settle

/-- A transfer of the whole buffer above 1 MiB (R100). -/
def bufCheck (cap : Cap) : Option Status := if 2 ^ 20 < cap.sgl.len then some stBadField else none

/-- RETRIEVE (R88, R100): no lock; the buffer is the SGL's length. -/
def execRetrieve (cap : Cap) (key : Key) (s : State) : Res :=
  .next (s.ioCmd cap true (.retrieve key cap.sgl.len) none false [keyCheck key, bufCheck cap] [] false).settle

/-- LIST (R89, R100). -/
def execList (cap : Cap) (key : Key) (s : State) : Res :=
  .next (s.ioCmd cap true (.list key cap.sgl.len) none false
    [keyCheck key, bufCheck cap, if cap.sgl.len < 4 then some stSglLen else none] [] false).settle

/-- DELETE (R87). -/
def execDelete (cap : Cap) (key : Key) (s : State) : Res :=
  .next (s.ioCmd cap true (.delete key) none false [keyCheck key] (keyWants cap.nsid key) true).settle

/-- EXIST (R87). -/
def execExist (cap : Cap) (key : Key) (s : State) : Res :=
  .next (s.ioCmd cap true (.exist key) none false [keyCheck key] [] false).settle

/-! ## Events that move commands on -/

/-- LOCK_GRANT (R71): a waiting request of a command on a shard is granted, if nothing stands against it. -/
def execLockGrant (tag shard : Nat) (s : State) : Res :=
  match s.host.locks.find? fun e => e.tag == tag && e.shard == shard && s.mayGrant e with
  | some e => .next ((s.grantLock e).advance tag).settle
  | none => .next s

/-- REMOTE_LOCK_TIMEOUT (R74, R152): after 20 µs without an answer the request is neither failed nor granted; it waits until
ownership of the shard is settled. -/
def execRemoteLockTimeout (tag : Nat) (s : State) : Res :=
  match s.host.remote.find? tag with
  | some t => if decide (t + 20000 ≤ s.ao.tb) && !s.host.unsettled.contains tag then
      .next { s with host := { s.host with unsettled := s.host.unsettled ++ [tag] } } else .next s
  | none => .next s

/-- JOURNAL_ADMIT (R280, R281, R283): commands that wait for room are tried again, class 0 first, then in order of arrival. -/
def execJournalAdmit (s : State) : Res :=
  let w := s.host.cmds.vals.filter Cmd.admitWait
  let o := w.mergeSort fun a b => if (a.cls == 0) != (b.cls == 0) then a.cls == 0 else decide (a.arrival ≤ b.arrival)
  .next (o.foldl (fun s c => s.advance c.tag.num) s.journalRegs).settle

end Sys2Proof.Machine
end

