-- ==== Sys2Proof/Machine/Kcu.lean ====
section
/-! DEFINITION. The key cipher units and the GCM key tables of the tiles (R230 to R239). -/

namespace Sys2Proof.Machine

open Sys2Proof

def kcuFld (ses : Nat) (f : Fld) : Fld := f.plus (ses * 0x100)

def State.kcu (s : State) (tile ses : Nat) : Option KcuSes := s.keys.kcu.find? (dieC tile * 4 + ses)

def State.setKcu (s : State) (tile ses : Nat) (x : KcuSes) : State :=
  { s with keys := { s.keys with kcu := s.keys.kcu.insert (dieC tile * 4 + ses) x } }

/-- An operation ends: DONE, ERR, KEYED, CLEARKEY. -/
def State.kcuEnd (s : State) (tile ses err : Nat) : State :=
  let f := kcuFld ses
  let x := s.kcu tile ses
  let s := (s.setFlag (dieC tile) (f Reg.KCU_STATUS_DONE) true).setFld (dieC tile) (f Reg.KCU_STATUS_ERR) err
  (s.setFlag (dieC tile) (f Reg.KCU_STATUS_KEYED) x.isSome).setFlag (dieC tile) (f Reg.KCU_STATUS_CLEARKEY)
    ((x.map KcuSes.clear).getD false)

/-- A write of KCU_CMD: nothing happens while the unit does not run (R243). -/
def State.withKcu (s : State) (tile ses : Nat) (k : State) : State :=
  if decide (s.variant.tiles ≤ tile) || decide (4 ≤ ses) || !s.flag (dieC tile) Reg.KCU_CTRL_EN then s else k

/-- The input block. -/
def State.kcuIn (s : State) (tile ses : Nat) : Bytes :=
  (List.range 2).flatMap fun i => le 8 (s.fld (dieC tile) (kcuFld ses (Reg.KCU_DATA_BYTES.plus (8 * i))))

/-- A block operation: output and new CHAIN from key, CHAIN and input (R235). -/
def State.kcuBlock (s : State) (tile ses : Nat) (f : Bytes → Bytes → Bytes → Bytes × Bytes) : State :=
  s.withKcu tile ses (match s.kcu tile ses with
    | none => s.kcuEnd tile ses 1
    | some x =>
      let (out, chain) := f x.key x.chain (s.kcuIn tile ses)
      let s := (List.range 2).foldl (fun s i => s.setFld (dieC tile) (kcuFld ses (Reg.KCU_DATA_BYTES.plus (8 * i))) (leAt out (8 * i) 8)) s
      let s := s.addFld (dieC tile) (kcuFld ses Reg.KCU_STATUS_OPS) 1
      (s.setKcu tile ses { x with chain := chain, ops := x.ops + 1 }).kcuEnd tile ses 0)

def execKcuEnc (tile ses : Nat) (s : State) : Res := .next (s.kcuBlock tile ses fun k c b => (aesEnc k b, c))
def execKcuDec (tile ses : Nat) (s : State) : Res := .next (s.kcuBlock tile ses fun k c b => (aesDec k b, c))
def execKcuEncChain (tile ses : Nat) (s : State) : Res :=
  .next (s.kcuBlock tile ses fun k c b => let o := aesEnc k (xorBytes b c); (o, o))
def execKcuDecChain (tile ses : Nat) (s : State) : Res := .next (s.kcuBlock tile ses fun k c b => (xorBytes (aesDec k b) c, b))

/-- KCU_SET_CHAIN (R235): CHAIN takes the input; no block is ciphered. -/
def execKcuSetChain (tile ses : Nat) (s : State) : Res :=
  .next (s.withKcu tile ses (match s.kcu tile ses with
    | none => s.kcuEnd tile ses 1
    | some x => (s.setKcu tile ses { x with chain := s.kcuIn tile ses }).kcuEnd tile ses 0))

/-- A DMA of the unit: the first access that is not permitted ends the operation with ERR = 7 (R239). -/
def State.kcuDma (s : State) (tile ses addr len : Nat) (k : AccKind) (go : State) : State :=
  match s.rangeFault tile 10 addr len k with
  | some (a, c) => (s.kcuEnd tile ses 7).channelFault tile 10 ses a k c
  | none => go

def State.kcuSrc (s : State) (tile ses : Nat) : Nat := s.fld (dieC tile) (kcuFld ses Reg.KCU_SRC_ADDR)
def State.kcuDst (s : State) (tile ses : Nat) : Nat := s.fld (dieC tile) (kcuFld ses Reg.KCU_DST_ADDR)

/-- KCU_LOAD_WRAPPED (R234): a KWP under the AWK; one that fails its check ends with ERR = 3 (log entry 22). -/
def execKcuLoadWrapped (tile ses : Nat) (s : State) : Res :=
  .next (s.withKcu tile ses (
    if (s.kcu tile ses).isSome then s.kcuEnd tile ses 2
    else s.kcuDma tile ses (s.kcuSrc tile ses) 40 .read (
      match (s.awkOf tile).bind fun k => kwpUnwrap k (s.loads (s.kcuSrc tile ses) 40) with
      | some key => if key.length = 16 ∨ key.length = 32 then
          (s.setKcu tile ses { key := key, chain := zeros 16, clear := false, ops := 0 }).kcuEnd tile ses 0
        else s.kcuEnd tile ses 3
      | none => s.kcuEnd tile ses 3)))

/-- KCU_LOAD_CLEAR (R234): only while CLEAR_KEY_EN is 1. -/
def execKcuLoadClear (tile ses : Nat) (long : Bool) (s : State) : Res :=
  .next (s.withKcu tile ses (
    if (s.kcu tile ses).isSome then s.kcuEnd tile ses 2
    else if !s.flag (dieC tile) Reg.KCU_CTRL_CLEAR_KEY_EN then (s.kcuEnd tile ses 5).event (dieC tile) 0x36 9 noInst
    else
      let key := (List.range 4).flatMap fun i => le 8 (s.wo.getD (regKey (dieC tile) 0x36 (0x1030 + ses * 0x100 + 8 * i)) 0).toNat
      (s.setKcu tile ses { key := key.take (if long then 32 else 16), chain := zeros 16, clear := true, ops := 0 }).kcuEnd tile ses 0))

/-- The 64-byte context (R238). Its 8 bytes of key length and load kind are 4 each here (log entry 214). -/
def KcuSes.context (x : KcuSes) : Bytes :=
  padTo 32 x.key ++ padTo 16 x.chain ++ le 4 x.key.length ++ le 4 (if x.clear then 1 else 0) ++ le 8 x.ops

def contextKcu (l : Bytes) : KcuSes :=
  { key := l.take (min 32 (leAt l 48 4)), chain := (l.drop 32).take 16, clear := leAt l 52 4 == 1, ops := leAt l 56 8 }

/-- A save of the context to DST. -/
def State.kcuSave (s : State) (tile ses : Nat) (ok : KcuSes → Bool) (f : KcuSes → Bytes) : State :=
  s.withKcu tile ses (match s.kcu tile ses with
    | none => s.kcuEnd tile ses 1
    | some x =>
      if !ok x then (s.kcuEnd tile ses 5).event (dieC tile) 0x36 9 noInst
      else s.kcuDma tile ses (s.kcuDst tile ses) (f x).length .write ((s.stores (s.kcuDst tile ses) (f x)).kcuEnd tile ses 0))

/-- KCU_SAVE_CLEAR: only a key from LOAD_CLEAR. -/
def execKcuSaveClear (tile ses : Nat) (s : State) : Res := .next (s.kcuSave tile ses KcuSes.clear KcuSes.context)

/-- KCU_SAVE_WRAPPED: under the tile's context key. -/
def execKcuSaveWrapped (tile ses : Nat) (s : State) : Res :=
  .next (s.kcuSave tile ses (fun _ => true) fun x => kwpWrap (s.ctxKey (dieC tile) 0) x.context)

/-- KCU_RESTORE: into a session without a key; a check that fails ends with ERR = 3 (R238). -/
def execKcuRestore (tile ses : Nat) (wrapped : Bool) (s : State) : Res :=
  let n := if wrapped then 72 else 64
  .next (s.withKcu tile ses (
    if (s.kcu tile ses).isSome then s.kcuEnd tile ses 2
    else s.kcuDma tile ses (s.kcuSrc tile ses) n .read (
      let b := s.loads (s.kcuSrc tile ses) n
      match (if wrapped then kwpUnwrap (s.ctxKey (dieC tile) 0) b else some b) with
      | some p => if p.length = 64 ∧ (leAt p 48 4 = 16 ∨ leAt p 48 4 = 32) then
          (s.setKcu tile ses (contextKcu p)).kcuEnd tile ses 0 else s.kcuEnd tile ses 3
      | none => s.kcuEnd tile ses 3)))

/-- KCU_CLOSE; a session with no key ends with ERR = 1 (R246). -/
def execKcuClose (tile ses : Nat) (s : State) : Res :=
  .next (s.withKcu tile ses (
    if (s.kcu tile ses).isNone then s.kcuEnd tile ses 1
    else ({ s with keys := { s.keys with kcu := s.keys.kcu.erase (dieC tile * 4 + ses) } } : State).kcuEnd tile ses 0))

/-! ## Domain key records (R227, R235) -/

/-- Write a record, wrapped under the AWK, to DST. -/
def State.writeRec (s : State) (tile ses : Nat) (r : KeyRec) : State :=
  match s.awkOf tile with
  | none => s.kcuEnd tile ses 4
  | some k =>
    let b := kwpWrap k r.bytes
    s.kcuDma tile ses (s.kcuDst tile ses) b.length .write ((s.stores (s.kcuDst tile ses) b).kcuEnd tile ses 0)

/-- The record at SRC. -/
def State.readRec (s : State) (tile ses : Nat) (k : KeyRec → State) : State :=
  s.withKcu tile ses (
    let a := s.kcuSrc tile ses
    let n := match s.rangeFault tile 10 a 368 .read with
      | none => 368
      | some (at_, _) => at_ - a
    if n < 152 then s.kcuDma tile ses a 152 .read s
    else match (s.awkOf tile).bind fun w => unwrapRec w (s.loads a n) with
    | some r => k r
    | none => s.kcuEnd tile ses 4)

/-- KCU_REC_CREATE: generation 0. While the tile holds no AWK the record cannot be wrapped: ERR = 4, nothing written (log entry 216). -/
def execKcuRecCreate (tile ses domain : Nat) (s : State) : Res :=
  .next (s.withKcu tile ses (
    if (s.awkOf tile).isNone then s.kcuEnd tile ses 4
    else
      match s.newRec (domain % 4096) with
      | (some r, s) => s.writeRec tile ses r
      | (none, s) => s.kcuEnd tile ses 4))

/-- KCU_REC_ADD_GEN: the next generation, with a number never used in the domain (R223); not a fifth. -/
def execKcuRecAddGen (tile ses : Nat) (s : State) : Res :=
  .next (s.readRec tile ses fun r =>
    if 4 ≤ r.gens.length then s.kcuEnd tile ses 6
    else
      match s.nextGenOf r with
      | none => s.kcuEnd tile ses 6
      | some gen =>
        let x := s.drawGen r.domain gen
        match x.1 with
        | some g => (x.2.useGen r.domain gen).writeRec tile ses { r with gens := r.gens ++ [g] }
        | none => x.2.kcuEnd tile ses 4)

/-- KCU_REC_DROP_GEN: a record keeps at least one generation (log entry 23); one without the generation named is written as it is (log
entry 217). -/
def execKcuRecDropGen (tile ses gen : Nat) (s : State) : Res :=
  .next (s.readRec tile ses fun r =>
    let l := r.gens.filter fun g => g.gen != gen
    if l.isEmpty then s.kcuEnd tile ses 4 else s.writeRec tile ses { r with gens := l })

/-! ## GCM lanes (R230 to R233) -/

def gcmKey (tile entry : Nat) : Nat := tile * 256 + entry % 256

/-- GCM_KEY_LOAD (R232): a load count not above the entry's last is refused; else the key is unwrapped under the AWK. One that cannot be
leaves the entry without a key, its load count taken (log entry 215). The lanes' EN does not matter here. -/
def execGcmKeyLoad (tile entry load : Nat) (s : State) : Res :=
  let die := dieC tile
  if s.variant.tiles ≤ tile then .next s
  else
    let old := s.keys.gcm.find? (gcmKey tile entry)
    if (old.map fun e => decide (load % 2 ^ 28 ≤ e.load)).getD false then .next (s.addFld die Reg.GCM_ERR_LOAD_REFUSED 1)
    else
      let a := s.fld die Reg.GCM_LOAD_ADDR_ADDR
      let key := ((s.awkOf tile).bind fun k => kwpUnwrap k (s.loads a 40)).filter fun k => decide (k.length = 32)
      let s := { s with keys := { s.keys with gcm := s.keys.gcm.insert (gcmKey tile entry) { key := key, load := load % 2 ^ 28, ctr := 0 } } }
      .next (s.setFld die Reg.GCM_STATUS_LOADED (s.keys.gcm.filter fun kv => kv.1 / 256 == tile && kv.2.key.isSome).length)

/-- The IV of an entry's next packet (R231). -/
def State.gcmIv (s : State) (tile : Nat) (e : GcmEnt) : Bytes :=
  be 4 (s.side % 2 * 2 ^ 31 + tile % 8 * 2 ^ 28 + e.load % 2 ^ 28) ++ be 8 e.ctr

/-- Protect a packet: its IV, ciphertext and tag; the entry's counter goes on. -/
def State.gcmSeal (s : State) (tile entry : Nat) (aad pt : Bytes) : State × Option (Bytes × Bytes × Bytes) :=
  match s.keys.gcm.find? (gcmKey tile entry) with
  | some e => match e.key with
    | some k =>
      let iv := s.gcmIv tile e
      let (ct, tag) := gcmEnc k iv aad pt
      ({ s with keys := { s.keys with gcm := s.keys.gcm.insert (gcmKey tile entry) { e with ctr := e.ctr + 1 } } }, some (iv, ct, tag))
    | none => (s, none)
  | none => (s, none)

/-- Verify a packet (R233): a tag that fails is counted and nothing is given; so is a packet whose entry holds no key (log entry 218). -/
def State.gcmOpen (s : State) (tile entry : Nat) (iv aad ct tag : Bytes) : State × Option Bytes :=
  match (s.keys.gcm.find? (gcmKey tile entry)).bind GcmEnt.key with
  | none => (s.addFld (dieC tile) Reg.GCM_ERR_TAG_FAIL 1, none)
  | some k => match gcmDec k iv aad ct tag with
    | some p => (s, some p)
    | none => (s.addFld (dieC tile) Reg.GCM_ERR_TAG_FAIL 1, none)

end Sys2Proof.Machine
end

