-- ==== Sys2Proof/Machine/RoleRows.lean ====
section
/-! DEFINITION. Role commands, one meaning per code of R617, the attestation opcode (R612), and the messages between management firmware
and control-plane firmware (R640). -/

namespace Sys2Proof.Machine

open Sys2Proof

/-! ## Management transports (R632 to R636) -/

/-- A management request is heard (R632 to R634): the B-die runs; over I3C once an endpoint ID is set, over UDP while MPX_NET.EN is 1; a
message above 32,784 bytes is discarded. -/
def State.mgmtHeard (s : State) (h : MgmtHdr) : Bool :=
  s.ao.bPower && !s.ao.hold && s.boot.phase != .idle && decide (h.size ≤ 32784) &&
    (if h.udp then s.flag dieB Reg.MPX_NET_EN else s.boot.eid.isSome)

/-- STATUS that ends a management request before its command is looked at (R589, R605, R635, R636, R638), none where it goes on. -/
def State.mgmtGate (s : State) (h : MgmtHdr) (cmd : Nat) : Option Nat :=
  let img := [0x09, 0x0A, 0x0B].contains cmd
  if !h.ok || (h.ien != Config.ien && !(h.ien == 0 && cmd == 0)) then some 1
  else if s.boot.phase = .waitImage && (h.udp || !(img || cmd == 0)) then some 5
  else if s.boot.phase = .rowFailed && !([0x00, 0x01, 0x02, 0x04, 0x06].contains cmd) then some 5
  else if img && (s.boot.phase = .uninstalled || s.pair.head == .thermalHold) then some 5
  else none

/-- A management reply goes back over the transport of its request. -/
def State.mgmtReply (s : State) (h : MgmtHdr) (cmd status : Nat) (payload : Bytes) : State :=
  s.emit (.mgmt (if h.udp then 1 else 0) h.ep cmd status payload)

/-- A management command: STATUS, payload and state by `f` once the request is heard and passes. -/
def State.mgmt (s : State) (h : MgmtHdr) (cmd : Nat) (f : State → Nat × Bytes × State) : State :=
  if !s.mgmtHeard h then s
  else match s.mgmtGate h cmd with
    | some st => s.mgmtReply h cmd st []
    | none => match f s with
      | (st, p, s) => s.mgmtReply h cmd st p

/-- An envelope in the management command ROLE (R636): RESULT and reply come when they are known. -/
def State.mgmtRole (s : State) (h : MgmtHdr) (e : RoleEnv) (b : RoleBody) : State :=
  if !s.mgmtHeard h then s
  else match s.mgmtGate h 7 with
    | some st => s.mgmtReply h 7 st []
    | none => s.roleRun (.mgmt h.udp h.ep) e b

/-! ## Role commands (R613 to R625) -/

/-- An envelope arrives, by admin opcode 0xC1 or by the management command ROLE. -/
def State.roleArrive (s : State) (via : Via) (e : RoleEnv) (b : RoleBody) : State :=
  (match via with
  | .nvme cap => s.adminCmd cap false (.role e b) (some (64 + e.body.length + e.pub.length + e.sig.length))
  | .mgmt h => s.mgmtRole h e b).settle

/-- GET_CHALLENGE, GET_CALROW (R614, R617). -/
def execGetChallenge (via : Via) (env : RoleEnv) (s : State) : Res := .next (s.roleArrive via env .getChallenge)
def execGetCalrow (via : Via) (env : RoleEnv) (s : State) : Res := .next (s.roleArrive via env .getCalrow)

/-- INSTALL (R620). -/
def execInstall (via : Via) (env : RoleEnv) (took : Bytes) (s : State) : Res := .next (s.roleArrive via env (.install took))

/-- SET_OPKEY, REVOKE_OPKEY (R621). -/
def execSetOpkey (via : Via) (env : RoleEnv) (slot : Nat) (digest : Bytes) (s : State) : Res :=
  .next (s.roleArrive via env (.setOpkey slot digest))
def execRevokeOpkey (via : Via) (env : RoleEnv) (slot : Nat) (s : State) : Res := .next (s.roleArrive via env (.revokeOpkey slot))

/-- CLEAR_EVR (R654). -/
def execClearEvr (via : Via) (env : RoleEnv) (s : State) : Res := .next (s.roleArrive via env .clearEvr)

/-- LAYOUT (R331, R397), EPOCH_REINIT (R137, R334), CLEAR_DEFERRED (R83). -/
def execLayout (via : Via) (env : RoleEnv) (width target roster evac : Option Nat) (s : State) : Res :=
  .next (s.roleArrive via env (.layout width target roster evac))
def execEpochReinit (via : Via) (env : RoleEnv) (s : State) : Res := .next (s.roleArrive via env .epochReinit)
def execClearDeferred (via : Via) (env : RoleEnv) (s : State) : Res := .next (s.roleArrive via env .clearDeferred)

/-- NS_CREATE, NS_DELETE, NS_DISABLE, NS_ENABLE (R101, R102, R617). -/
def execNsCreate (via : Via) (env : RoleEnv) (kv : Bool) (blocks domain : Nat) (media : Bool) (s : State) : Res :=
  .next (s.roleArrive via env (.nsCreate kv blocks domain media))
def execNsDelete (via : Via) (env : RoleEnv) (nsid : Nat) (s : State) : Res := .next (s.roleArrive via env (.nsDelete nsid))
def execNsDisable (via : Via) (env : RoleEnv) (nsid : Nat) (s : State) : Res := .next (s.roleArrive via env (.nsDisable nsid))
def execNsEnable (via : Via) (env : RoleEnv) (nsid : Nat) (s : State) : Res := .next (s.roleArrive via env (.nsEnable nsid))

/-- C0_RESIDENT (R61, R272), ADMIN_HOSTS (R56). -/
def execC0Resident (via : Via) (env : RoleEnv) (nsid : Nat) (s : State) : Res := .next (s.roleArrive via env (.c0Resident nsid))
def execAdminHosts (via : Via) (env : RoleEnv) (nqns : List Bytes) (s : State) : Res := .next (s.roleArrive via env (.adminHosts nqns))

/-- SNAP_CREATE (R463), SNAP_DELETE (R470), CLONE_CREATE (R471). -/
def execSnapCreate (via : Via) (env : RoleEnv) (nsid : Nat) (s : State) : Res := .next (s.roleArrive via env (.snapCreate nsid))
def execSnapDelete (via : Via) (env : RoleEnv) (id : Nat) (s : State) : Res := .next (s.roleArrive via env (.snapDelete id))
def execCloneCreate (via : Via) (env : RoleEnv) (snap : Nat) (readOnly : Bool) (s : State) : Res :=
  .next (s.roleArrive via env (.cloneCreate snap readOnly))

/-- REPL_SESSION (R474): create one from the descriptor at `addr`, as replica or as source, or end session `addr`. -/
def execReplSession (via : Via) (env : RoleEnv) (create : Bool) (fdie addr : Nat) (replica : Bool) (s : State) : Res :=
  .next (s.roleArrive via env (if create then .replCreate fdie addr replica else .replEnd fdie addr))

/-- DOMAIN_CREATE (R235, R617), KEY_ROTATE (R224). -/
def execDomainCreate (via : Via) (env : RoleEnv) (domain : Nat) (s : State) : Res := .next (s.roleArrive via env (.domainCreate domain))
def execKeyRotate (via : Via) (env : RoleEnv) (domain : Nat) (s : State) : Res := .next (s.roleArrive via env (.keyRotate domain))

/-- DOMAIN_EXPORT (R623), DOMAIN_IMPORT (R624). -/
def execDomainExport (via : Via) (env : RoleEnv) (domain : Nat) (report row : Bytes) (s : State) : Res :=
  .next (s.roleArrive via env (.domainExport domain report row))
def execDomainImport (via : Via) (env : RoleEnv) (domain : Nat) (reply : Bytes) (s : State) : Res :=
  .next (s.roleArrive via env (.domainImport domain reply))

/-- ENROL_MODULE, UNENROL_MODULE (R622). -/
def execEnrolModule (via : Via) (env : RoleEnv) (serial : Bytes) (wrapGen : Nat) (s : State) : Res :=
  .next (s.roleArrive via env (.enrolModule serial wrapGen))
def execUnenrolModule (via : Via) (env : RoleEnv) (serial : Bytes) (s : State) : Res := .next (s.roleArrive via env (.unenrolModule serial))

/-- ACTIVATE (R609), THERMAL_RESUME (R647), DEBUG_UNLOCK (R625). -/
def execActivate (via : Via) (env : RoleEnv) (s : State) : Res := .next (s.roleArrive via env .activate)
def execThermalResume (via : Via) (env : RoleEnv) (s : State) : Res := .next (s.roleArrive via env .thermalResume)
def execDebugUnlock (via : Via) (env : RoleEnv) (s : State) : Res := .next (s.roleArrive via env .debugUnlock)

/-- CHALLENGE_LAPSE (R614): challenges issued 600 s ago lapse. -/
def execChallengeLapse (s : State) : Res := .next s.lapseChallenges

/-! ## Admin opcodes 0xC1 and 0xC2 -/

/-- ROLE_REPLY_READ (R619): opcode 0xC1 with CDW10 bit 0 set, into a buffer of `len` bytes. -/
def execRoleReplyRead (cap : Cap) (len : Nat) (s : State) : Res := .next (s.adminCmd cap false (.roleReply len) (some len)).settle

/-- ATTEST_NONCE, ATTEST_REPORT, ATTEST_CALROW: opcode 0xC2 with value 0, 1 and 2 (R612). -/
def execAttestNonce (cap : Cap) (nonce : Bytes) (s : State) : Res := .next (s.adminCmd cap false (.attestNonce (padTo 32 nonce)) (some 32)).settle
def execAttestReport (cap : Cap) (len : Nat) (s : State) : Res := .next (s.adminCmd cap false (.attestReport len) (some len)).settle
def execAttestCalrow (cap : Cap) (len : Nat) (s : State) : Res := .next (s.adminCmd cap false (.attestCalrow len) (some len)).settle

/-! ## Start and what waits for the window -/

/-- B_DIE_START (R603). -/
def execBDieStart (x : StartIn) (s : State) : Res := .next (s.start x).settle

/-- BOOT_COMPLETE (R662): herd firmware has run, and the head enters FAWN. -/
def execBootComplete (s : State) : Res :=
  if s.boot.phase = .loaded ∧ s.pair.head = .boot ∧ !s.ao.tripLatched then .next (s.enter .fawn).settle else .next s

/-- NOR_WINDOW_OPEN (R649): what waits for the window is written, if it is met. -/
def execNorWindowOpen (s : State) : Res := .next s.norFlush.settle

/-! ## Mailbox messages (R640) -/

/-- HANDOFF (R603, R640): variant code and DDR addresses of herd image, configuration copy and HERD section go into mailbox `m`. -/
def execHandoff (m target : Nat) (s : State) : Res :=
  if s.boot.phase ≠ .loaded ∨ 8 ≤ m ∨ s.mbFull m then .next s
  else .next (s.sendMb m target 1 (le 8 s.variant.code ++ le 8 s.boot.herdAt ++ le 8 s.boot.cfgAt ++ le 8 s.boot.sectAt))

/-- ROLE_REQ and ROLE_DONE (R618). -/
def execRoleReq (m target : Nat) (s : State) : Res := .next (s.sendRole m target)
def execRoleDone (m : Nat) (s : State) : Res := .next (s.roleDone m).settle

/-- OPKEYS (R621): 16 digests and their valid bits. -/
def execOpkeys (m : Nat) (s : State) : Res :=
  match s.takeMb m 5 with
  | some (_, b, t) =>
    if b.length < 514 then .next t
    else
      let on := (List.range 16).filter fun i => leAt b 512 2 / 2 ^ i % 2 == 1
      let keys : SMap Bytes := on.foldl (fun l i => l.insert i ((b.drop (32 * i)).take 32)) []
      .next ({ t with boot := { t.boot with opkeys := keys } } : State).opkeyValid
  | none => .next s

/-- AWK (R228): the module's copy is unwrapped under its wrap key and delivered to the islands of every tile. -/
def execAwk (m : Nat) (s : State) : Res :=
  match s.takeMb m 6 with
  | some (_, b, t) => match kwpUnwrap t.wrapKey (b.take 40) with
    | some k => .next (t.setAwk k).settle
    | none => .next t
  | none => .next s

/-- ACTIVATE_MESSAGE (R609): the activation goes to control-plane firmware, which gives all ports and shards to the partner. -/
def execActivateMessage (m target : Nat) (s : State) : Res :=
  if !s.boot.activation ∨ 8 ≤ m ∨ s.mbFull m then .next s
  else
    let s := ({ s with boot := { s.boot with activation := false } } : State).sendMb m target 7 (le 1 (1 - s.booted))
    if s.pair.head == .twin && s.pair.giving.isNone then .next (s.give s.fps (List.range 256)).settle else .next s

end Sys2Proof.Machine
end

