-- ==== Sys2Proof/Machine/MgmtRows.lean ====
section
/-! DEFINITION. The management plane's requests (spec/15): MCTP control messages, management commands, image transfer; and the JTAG port. -/

namespace Sys2Proof.Machine

open Sys2Proof

/-! ## Records as bytes (R648, R650) -/

/-- A recorder record's 64 bytes. -/
def EventRec.bytes (r : EventRec) : Bytes :=
  let b := le 2 r.code ++ le 1 r.source ++ le 1 (r.severity % 4 + if r.held then 4 else 0) ++ le 3 r.hours ++ le 2 r.seconds ++ le 3 r.pcycle ++
    le 1 (r.side + 2 * r.state) ++ zeros 3 ++ le 8 r.time ++ padTo 32 r.data ++ le 4 r.seq
  b ++ le 4 (crc32c b).toNat

/-- A slot's bytes. -/
def EvSlot.bytes (x : EvSlot) (i : Nat) : Bytes :=
  match x with
  | .whole r => r.bytes
  | .torn => padTo 64 (Config.tornSlot i)

/-- A trip record's 256 bytes. -/
def TripRec.bytes (r : TripRec) : Bytes :=
  let b := padTo 252 (le 2 (if r.resolve then 0x5253 else 0x5452) ++ le 1 r.cause ++ le 1 r.die ++ le 3 r.hours ++ le 2 r.seconds ++
    le 3 r.pcycle ++ le 1 r.state ++ zeros 3 ++ le 8 r.time ++ le 2 (ofInt 16 r.temp) ++ le 2 (ofInt 16 r.rate) ++
    r.dies.flatMap fun t => le 2 (ofInt 16 t))
  b ++ le 4 (crc32c b).toNat

/-! ## I3C and MCTP control messages (R632, R633) -/

/-- I3C_DYNAMIC_ADDRESS (R632): by ENTDAA, or by SETDASA that names this side's static address. -/
def execI3cDynamicAddress (addr : Nat) (setdasa : Option Nat) (s : State) : Res :=
  let mine := match setdasa with
    | some a => a == 0x4E + s.side
    | none => true
  if s.ao.bPower && mine && decide (addr < 128) then .next { s with boot := { s.boot with i3c := some addr } } else .next s

/-- I3C_MAX_LENGTH_SET (R632): both lengths at 256 or more make the transmission unit 256 bytes. -/
def execI3cMaxLengthSet (rd wr : Nat) (s : State) : Res :=
  if s.ao.bPower && decide (256 ≤ rd) && decide (256 ≤ wr) then .next { s with boot := { s.boot with unit := 256 } } else .next s

/-- An MCTP control request is answered while the B-die runs: completion code and the bytes after it. -/
def State.mctp (s : State) (cmd : Nat) (f : State → Nat × Bytes × State) : State :=
  if !s.ao.bPower || s.ao.hold || s.boot.phase = .idle then s
  else match f s with
    | (cc, p, s) => s.emit (.mctp cmd cc p)

/-- SET_ENDPOINT_ID (R633): operations 0 and 1 set an ID from 8 to 254; the others do not apply to this endpoint. -/
def execSetEndpointId (oper eid : Nat) (s : State) : Res :=
  .next (s.mctp 0x01 fun s =>
    if 1 < oper ∨ eid < 8 ∨ 254 < eid then (2, [], s)
    else (0, [0, BitVec.ofNat 8 eid, 0], { s with boot := { s.boot with eid := some eid } }))

/-- GET_ENDPOINT_ID (R633): the ID, 0 before one is set; a simple endpoint with a dynamic ID. -/
def execGetEndpointId (s : State) : Res := .next (s.mctp 0x02 fun s => (0, [BitVec.ofNat 8 (s.boot.eid.getD 0), 0, 0], s))

/-- GET_MCTP_VERSION_SUPPORT (R633): of a message type that the head carries: 0xFF base, 0x00 control, 0x7F vendor-defined. -/
def execGetMctpVersionSupport (ty : Nat) (s : State) : Res :=
  .next (s.mctp 0x04 fun s => if ty = 0xFF ∨ ty = 0 ∨ ty = 0x7F then (0, Config.mctpVersions ty, s) else (0x80, [], s))

/-- GET_MESSAGE_TYPE_SUPPORT (R633, R635): vendor-defined messages by IANA number. -/
def execGetMessageTypeSupport (s : State) : Res := .next (s.mctp 0x05 fun s => (0, [1, 0x7F], s))

/-- GET_VENDOR_MESSAGE_SUPPORT (R633, R635): one set, the IANA number. -/
def execGetVendorMessageSupport (selector : Nat) (s : State) : Res :=
  .next (s.mctp 0x06 fun s => if selector = 0 then (0, [0xFF, 1] ++ be 4 Config.ien ++ le 2 Config.mctpCommandSet, s) else (2, [], s))

/-! ## Reads and the recorder (R636) -/

/-- GET_ID: serial, variant, side, state, BOOT_STATUS, BOOT_SVN, IEN. -/
def execGetId (h : MgmtHdr) (s : State) : Res :=
  .next (s.mgmt h 0x00 fun s => (0, s.serial ++ le 1 s.variant.code ++ le 1 s.side ++ le 1 s.pair.head.code ++
    le 8 (s.shown dieB 0x01 0).toNat ++ le 8 (s.shown dieB 0x01 8).toNat ++ be 4 Config.ien, s))

/-- GET_SENSORS: THM_STATUS, then THM_DIE_DATA of each populated die. -/
def execGetSensors (h : MgmtHdr) (s : State) : Res :=
  .next (s.mgmt h 0x01 fun s => (0, le 8 (s.shown dieB 0x04 8).toNat ++ s.variant.dies.flatMap fun d => le 8 (s.dieData d), s))

/-- GET_COUNTERS: EVR_HOURS, EVR_STATUS, EVR_LOST; the read of EVR_LOST clears it (R12, R658). -/
def execGetCounters (h : MgmtHdr) (s : State) : Res :=
  .next (s.mgmt h 0x02 fun s =>
    let lost := s.reg dieB 0x03 8
    (0, le 8 (s.shown dieB 0x03 0x18).toNat ++ le 8 (s.shown dieB 0x03 0).toNat ++ le 8 lost.toNat, s.setReg dieB 0x03 8 0))

/-- EVR_FREEZE, EVR_THAW (R653). -/
def execEvrFreeze (h : MgmtHdr) (s : State) : Res := .next (s.mgmt h 0x03 fun s => (0, [], s.freezeEvr))
def execEvrThaw (h : MgmtHdr) (s : State) : Res := .next (s.mgmt h 0x05 fun s => (0, [], s.thawEvr))

/-- EVR_READ: up to 64 records from index `first`. -/
def execEvrRead (h : MgmtHdr) (first : Nat) (s : State) : Res :=
  .next (s.mgmt h 0x04 fun s =>
    if evSlots ≤ first then (6, [], s)
    else (0, ((s.nor.events.keep fun i _ => decide (first ≤ i)).take 64).flatMap fun x => x.2.bytes x.1, s))

/-- TRIP_READ: up to 16 trip records from index `first`. -/
def execTripRead (h : MgmtHdr) (first : Nat) (s : State) : Res :=
  .next (s.mgmt h 0x06 fun s =>
    if tripSlots ≤ first then (6, [], s) else (0, ((s.nor.trips.drop first).take 16).flatMap TripRec.bytes, s))

/-- MGMT_ROLE (R636): an envelope over a management transport. -/
def execMgmtRole (h : MgmtHdr) (env : RoleEnv) (body : RoleBody) (s : State) : Res := .next (s.mgmtRole h env body).settle

/-- ATTEST (R612, R636): value 0 keeps a nonce for this transport and endpoint, 1 returns the report for it, 2 the calibration row. -/
def execAttest (h : MgmtHdr) (value : Nat) (nonce : Bytes) (s : State) : Res :=
  .next (s.mgmt h 0x08 fun s =>
    let k := 2 * h.ep + if h.udp then 1 else 0
    match value with
    | 0 => (0, [], { s with boot := { s.boot with nonces := s.boot.nonces.insert k (padTo 32 nonce) } })
    | 1 => match s.boot.nonces.find? k with
      | some n => (0, s.report n, { s with boot := { s.boot with nonces := s.boot.nonces.erase k } })
      | none => (5, [], s)
    | 2 => (0, s.calRow, s)
    | _ => (1, [], s))

/-! ## Image transfer (R637, R638) -/

/-- The transfer that a request may go on with. -/
def State.myXfer (s : State) (h : MgmtHdr) : Option Xfer := s.boot.xfer.filter fun x => x.udp == h.udp && x.ep == h.ep

def State.setXfer (s : State) (x : Option Xfer) : State := { s with boot := { s.boot with xfer := x } }

/-- The slot that images are written into: the one not booted; slot A in recovery (R593, R606). -/
def State.imgSlot (s : State) : Nat := if s.boot.phase = .recovery then 0 else 1 - s.booted

/-- The xSPI controller refuses erases and programs of the images of a slot: it is the booted one and SLOT_WP is 1 (R594). -/
def State.imgProtected (s : State) (k : Nat) : Bool :=
  s.flag dieB Reg.BOOT_CTRL_SLOT_WP && s.boot.phase != .recovery && k == s.booted

/-- Erase, or program, the image region of a kind in a slot, where the controller lets it. -/
def State.putRegion (s : State) (k kind : Nat) (b : Bytes) : State :=
  if s.imgProtected k then s else s.setNorSlot k ((s.norSlot k).setRegion kind b)

/-- IMG_BEGIN: STATUS and state. -/
def State.imgBegin (s : State) (h : MgmtHdr) (kind len : Nat) : Nat × State :=
  let mine := s.myXfer h
  let x : Xfer := { udp := h.udp, ep := h.ep, kind := kind, len := len, kinds := ((mine.map Xfer.kinds).getD []).filter (·.1 != kind) ++ [(kind, len)],
                    buf := [] }
  if kind = 0 ∨ 3 < kind then (1, s)
  else if s.boot.xfer.isSome && mine.isNone then (5, s)
  else if s.boot.phase = .waitImage then (if kind = 1 then (0, s.setXfer (some x)) else (5, s))
  else
    let k := s.imgSlot
    if (s.norSlot k).head.state = 2 then (5, s)
    else if !s.norWindow then (4, s)
    else
      let s := if mine.isNone then s.writeHdr k { (s.norSlot k).head with state := 0, tries := 0 } else s
      (0, (s.putRegion k kind []).setXfer (some x))

/-- Put bytes in an erased region at an offset. -/
def programAt (b : Bytes) (off : Nat) (d : Bytes) : Bytes :=
  b.take off ++ List.replicate (off - b.length) 0xFF ++ d ++ b.drop (off + d.length)

/-- IMG_WRITE: STATUS and state. -/
def State.imgWrite (s : State) (h : MgmtHdr) (off : Nat) (d : Bytes) : Nat × State :=
  if d.isEmpty ∨ 4096 < d.length ∨ off % 256 ≠ 0 then (1, s)
  else match s.myXfer h with
    | none => (5, s)
    | some x =>
      if x.len < off + d.length ∨ regionSize x.kind < off + d.length then (6, s)
      else if s.boot.phase = .waitImage then (0, s.setXfer (some { x with buf := programAt x.buf off d }))
      else if !s.norWindow then (4, s)
      else
        let k := s.imgSlot
        (0, s.putRegion k x.kind (programAt ((s.norSlot k).region x.kind) off d))

/-- The images of a slot once a transfer ends: those received, and copies from the booted slot of the others. -/
def State.completeSlot (s : State) (x : Xfer) : State :=
  let k := s.imgSlot
  let from_ := s.norSlot s.booted
  let s := ([1, 2, 3].filter fun kind => !(x.kinds.any fun y => y.1 == kind)).foldl (fun s kind =>
    s.putRegion k kind (from_.image kind (from_.head.lenOf kind))) s
  let h := [1, 2, 3].foldl (fun (h : SlotHdr) kind =>
    h.setLen kind (match x.kinds.find? fun y => y.1 == kind with
      | some y => y.2
      | none => from_.head.lenOf kind)) (s.norSlot k).head
  (s.writeHdr k { h with state := 1 }).setXfer none

/-- IMG_END: STATUS and state. -/
def State.imgEnd (s : State) (h : MgmtHdr) : Nat × State :=
  match s.myXfer h with
  | none => (5, s)
  | some x =>
    if s.boot.phase = .waitImage then
      match (s.setXfer none).runRecovery x.len x.buf with
      | (bad, t) => (if bad = 0 then 0 else 1, t)
    else if s.boot.phase = .recovery && x.kinds.length != 3 then (5, s)
    else if !s.norWindow then (4, s)
    else (0, s.completeSlot x)

/-- A management command without a payload in its reply. -/
def bare (x : Nat × State) : Nat × Bytes × State := (x.1, [], x.2)

/-- IMG_BEGIN, IMG_WRITE, IMG_END (R637, R638). -/
def execImgBegin (h : MgmtHdr) (kind len : Nat) (s : State) : Res := .next (s.mgmt h 0x09 fun s => bare (s.imgBegin h kind len))
def execImgWrite (h : MgmtHdr) (off : Nat) (bytes : Bytes) (s : State) : Res := .next (s.mgmt h 0x0A fun s => bare (s.imgWrite h off bytes))
def execImgEnd (h : MgmtHdr) (s : State) : Res := .next (s.mgmt h 0x0B fun s => bare (s.imgEnd h))

/-! ## JTAG (R626) -/

/-- IDCODE of the variant, at module revision 0 (R703). -/
def Variant.idcode : Variant → Nat
  | .v4a => 0x0B80433D
  | .v8a => 0x0B80833D

/-- JTAG_INSTRUCTION: boundary scan runs at all times, any other instruction only while JTAG_EN is 1; the TAP's device identification
register holds the IDCODE. -/
def execJtagInstruction (instr : Nat) (boundaryScan : Bool) (s : State) : Res :=
  .next (s.emit (.jtag instr (boundaryScan || s.flag dieB Reg.BOOT_CTRL_JTAG_EN) s.variant.idcode))

end Sys2Proof.Machine
end

