-- ==== Sys2Proof/Machine/Bridge.lean ====
section
/-! DEFINITION. Frames from the carrier bridges, and what the ends of media operations cause (spec/07). -/

namespace Sys2Proof.Machine

open Sys2Proof

/-! ## Receiving (R321 to R325, R364) -/

/-- A frame with this last SEQ is covered by an ACK. -/
def ackCovers (last ack : Nat) : Bool := decide (seqDist last ack < 32768)

/-- Times of the last millisecond. -/
def recentMs (now : Nat) (l : List Nat) : List Nat := l.filter fun t => decide (now < t + 1000000)

def Lane.fresh : Lane := { errs := [], retired := false, cleanSince := 0 }

/-- The head enters FENCED on a FENCED reply, unless it has raised a fault (R135). -/
def State.fencedReply (s : State) (cp : Nat) : State :=
  let s := s.addCpFld cp Reg.SFB_PVIOL_FENCED 1
  if (s.pair.head == .twin || s.pair.head == .solo) && s.pair.faulted.isNone then (s.setLast 6 false).enter .fenced else s

/-- A codeword that its own die does not deliver: reconstructed, or an erasure of a reconstruction (R343, R363). -/
def State.cwNoData (s : State) (id : Nat) : State :=
  match s.med.cws.find? id with
  | none => s
  | some c => match c.why with
    | .input _ _ | .update => s.endCw id none
    | .blankCheck _ => s.endCw id (some [])
    | _ => if c.step < 200 then s.startAround id else s

/-- A bridge answers DEFER (R343): a class-0 codeword is read around; with one deferring partner the other columns do; with more, the
read goes again to the partner that deferred first. -/
def State.cwDeferred (s : State) (id : Nat) : State :=
  match s.med.cws.find? id with
  | none => s
  | some c =>
    let s := s.addFld (cpDie (mCp c.addr)) Reg.MED_SUSP_DEFERS 1
    match c.why with
    | .input p col => match s.med.cws.find? p with
      | none => s.endCw id none
      | some q =>
        let l := (q.deferred.filter (· != col)) ++ [col]
        let first := (l.head?).getD col
        let q := { q with deferred := if l.length < 2 then l else l.tail ++ [first] }
        let s := s.setCw p q
        if l.length < 2 then s
        else match List.find? (fun (kc : Nat × CwReq) => kc.2.why == CwWhy.input p first) s.med.cws with
          | some (i, ci) => s.sense i ci (s.level ci.addr)
          | none => s
    | _ => if c.cls = 0 then s.startAround id else s.sense id c (s.level c.addr)

/-- Suspended time of a die's operation ends: no read with SUSPEND_OK is left on the die (R342, R346). -/
def State.noteResume (s : State) (k : Nat) : State :=
  let d := s.die k
  match d.suspAt with
  | some t =>
    let reads := (s.dieOps k).any fun o => match o.req with
      | .read _ _ true _ _ | .readSoft _ _ true _ _ => true
      | _ => false
    if reads then s else s.setDie k { d with suspAt := none, suspUs := d.suspUs + (s.ao.tb - t) / 1000 }
  | none => s

/-- A program or erase of a die has ended (R346, R349, R362): `busy` µs against twice its declared time. -/
def State.writeEnded (s : State) (o : MedOp) (busy : Nat) : State :=
  let k := dieOf o.req.addr
  let d := s.die k
  let lim := match o.req with
    | .erase _ => 2 * d.tbers
    | .program _ slc _ _ => 2 * (if slc then d.tslc else d.tprog)
    | _ => 0
  let s := if d.used ∧ lim < busy - d.suspUs then s.exc 0 .dieFault [k / 1024, k % 1024] else s
  let s := s.setDie k { s.die k with susp := 0, suspUs := 0, suspAt := none }
  let s := { s with med := { s.med with starved := s.med.starved.filter (· != k),
                                        prot := if s.med.prot = some k then none else s.med.prot } }
  s.protect

/-- The latency monitor (R361). -/
def State.monitor (s : State) (k busy : Nat) : State :=
  let d := s.die k
  let m := cpDie (k / 1024)
  if !d.used || decide (busy ≤ d.tr + s.fld m Reg.MED_MON_MARGIN_US) then s
  else
    let win := s.fld m Reg.MED_MON_WINDOW_MS * 1000000
    let l := (d.overs ++ [s.ao.tb]).filter fun t => decide (s.ao.tb < t + win)
    if d.slow.isNone && decide (max 1 (s.fld m Reg.MED_MON_COUNT) ≤ l.length) then
      (s.setDie k { d with overs := [], slow := some s.ao.tb, evictSent := false, probes := 0, probeAt := s.ao.tb }).exc 0 .slowDie [k / 1024, k % 1024]
    else s.setDie k { d with overs := l }

/-! ## Journal programs and intents (R155, R280, R333) -/

/-- A journal record is programmed anew in a block that does not hold it; the failed block takes no more records. -/
def State.journalAgain (s : State) (side seq b : Nat) : State :=
  let x := s.ftl.jblks.getD b { recs := [], next := 0 }
  let s := { s with ftl := { s.ftl with jblks := s.ftl.jblks.insert b { recs := x.recs.filter (· != (side, seq)), next := 4096 } } }
  match s.jent side seq with
  | none => s
  | some e =>
    let s := s.setJent side seq { e with placed := e.placed - (e.r.pages - 1 - s.pagesDue side seq b) }
    let s := s.keepJournal 48
    match s.journalBlocks.find? fun c => !((s.ftl.jblks.getD c { recs := [], next := 0 }).recs.contains (side, seq)) with
    | some c => s.programIn e.r c
    | none => s

/-- Intent slots whose records are programmed are cleared, up to the first that is not (R333). -/
def State.clearProgrammed (s : State) (side seq : Nat) : State :=
  let l := if side = s.side then s.jrnl.own.vals else s.jrnl.mirror.vals
  let whole := fun (e : JEnt) => e.r.mediaDur || decide (e.r.pages ≤ e.placed)
  if (l.filter fun e => decide (e.r.seq ≤ seq)).all whole then s.clearIntents side seq else s

/-- A page of a journal record is programmed (R155, R157, R280). -/
def State.journalPlaced (s : State) (side seq : Nat) : State :=
  match s.jent side seq with
  | none => s
  | some e =>
    let s := s.setJent side seq { e with placed := e.placed + 1 }
    let s := if e.placed + 1 = e.r.pages ∧ ¬ e.r.mediaDur then s.clearProgrammed side seq else s
    s.lagCheck

/-- An intent post is answered: it is done, or the header goes to the next journal carrier (R333, R363). -/
def State.intentDone (s : State) (side seq : Nat) (ok : Bool) : State :=
  match s.jent side seq with
  | none => s
  | some e => if ok then s.setJent side seq { e with intent := true } else s.postIntent e.r

/-! ## The end of an operation (R326, R354, R355, R360, R363) -/

/-- A program failed at the die itself: its block is retired. -/
def diefail (st : Nat) : Bool := st == 2 || st == 4

/-- Send an erase that did not complete again (R347). -/
def State.eraseAgain (s : State) (b : Nat) : State :=
  if s.cpOpen (mCp b) then s.issue { cp := mCp b, req := .erase b, cls := 7, why := .erase, since := s.ao.tb } else s

/-- Pending erases of a carrier that are not under way are issued again (R347, R363). -/
def State.erasePending (s : State) (cp : Nat) : State :=
  (s.ftl.erasing.filter fun b => mCp b == cp && !(s.med.queue.any fun o => o.req == .erase b) &&
    !(s.med.ops.vals.any fun o => o.req == .erase b)).foldl (fun s b => s.eraseAgain b) s

/-- A block is erased: the log records it, and it enters this side's pool once that record is durable (R277, R347); while the log has no
blocks to stand in, at once (log entry 222). A retired one stays out of every pool. -/
def State.blockErased (s : State) (b : Nat) : State :=
  let s := { s with ftl := { s.ftl with erasing := s.ftl.erasing.filter (· != b) },
                    par := { s.par with wrong := s.par.wrong.filter fun a => blockOf a != b } }
  if s.ftl.retired.contains b then s
  else if s.ftl.triple.isEmpty then
    (({ s with ftl := { s.ftl with pools := s.ftl.pools.insert b s.side } } : State).log (.pool b (some s.side))).updateFree
  else ({ s with ftl := { s.ftl with erased := s.ftl.erased ++ [b] } } : State).log (.pool b (some s.side))

/-- What the end of an operation does for what it served. -/
def State.opResult (s : State) (o : MedOp) (st arg : Nat) : State :=
  let ok := st == 0
  let a := o.req.addr
  let retire := fun (s : State) => if diefail st then s.retireBlock a else s
  match o.why with
  | .intent side seq => s.intentDone side seq ok
  | .clear | .aside | .resume => s
  | .journal side seq =>
    if ok then s.journalPlaced side seq else retire (s.journalAgain side seq (blockOf a))
  | .unit seg k m =>
    if ok then
      { s with ftl := { s.ftl with progs := s.ftl.progs.adjust (progKey seg k) fun p =>
          { p with acks := if p.acks.contains m then p.acks else p.acks ++ [m] } } }
    else
      let s := { s with ftl := { s.ftl with progs := s.ftl.progs.adjust (progKey seg k) fun p => { p with failed := true } } }
      retire (s.unitFailed seg k)
  | .log p c =>
    if ok then
      { s with ftl := { s.ftl with logPages := s.ftl.logPages.adjust p fun x =>
          { x with acks := if x.acks.contains c then x.acks else x.acks ++ [c] } } }
    else retire (s.logFailed p c)
  | .anchor num => match s.ftl.ckpt with
    | some c =>
      if c.num = num then
        let s := { s with ftl := { s.ftl with ckpt := some { c with anchors := c.anchors - 1 } } }
        if c.anchors ≤ 1 then s.endCkpt else s
      else s
    | none => s
  | .sj p c => if ok then s.sjAcked p c else retire (s.sjCarrierLost o.cp)
  | .rebuild seg _ k => if ok then s.rebuildPlaced seg k else retire (s.rebuildFailed seg)
  | .erase =>
    let b := blockOf a
    if ok then
      if mDie b = 0 ∧ mBlock b < 2 then s
      else if s.ftl.erasing.contains b then s.blockErased b else s
    else if st = 3 then ({ s with ftl := { s.ftl with erasing := s.ftl.erasing.filter (· != b) } } : State).retireBlock b
    else if st = 6 then s else s.eraseAgain b
  | .read ids =>
    if st = 0 then s
    else if st = 7 then ids.foldl (fun s i => s.cwDeferred i) s
    else ids.foldl (fun s i => s.cwNoData i) s
  | .probe =>
    let k := dieOf a
    let d := s.die k
    if ok && decide (arg ≤ d.tr + s.fld (cpDie o.cp) Reg.MED_MON_MARGIN_US) then
      if 8 ≤ d.probes + 1 then s.setDie k { d with probes := 0, slow := none, overs := [] } else s.setDie k { d with probes := d.probes + 1 }
    else s.setDie k { d with probes := 0 }

/-- Epoch and holder mask that a carrier has reported (R329, R367). -/
def State.epochReported (s : State) (cp epoch holders : Nat) : State :=
  (s.setCpFld cp Reg.SFB_PEPOCH_EPOCH epoch).setCpFld cp Reg.SFB_PEPOCH_HOLDERS holders

/-- The 6-byte payload of the answer to a CLAIM or SEAL (R329): an APPLIED with an epoch other than NEW counts as not applied (R364). -/
def State.epochAnswer (s : State) (cp : Nat) (req : SfbReq) (b : Bytes) : State :=
  let new := match req with
    | .claim _ n _ | .seal n _ => some n
    | _ => none
  match new with
  | none => s
  | some n =>
    if b.length ≠ 6 then s
    else
      let s := s.epochReported cp (leAt b 0 4) (leAt b 4 1)
      if leAt b 5 1 = 1 ∧ leAt b 0 4 ≠ n then s.event (cpDie cp) 0x20 5 cp else s

/-- A COMPLETE frame (R326): the operation of its tag ends. -/
def State.sfbComplete (s : State) (cp tag status arg : Nat) (payload : Bytes) : State :=
  match s.med.ops.find? (opKey cp tag) with
  | none => s.addCpFld cp Reg.SFB_PVIOL_VIOL 1
  | some o =>
    let s := { s with med := { s.med with ops := s.med.ops.erase (opKey cp tag) } }
    let k := dieOf o.req.addr
    let s := s.epochAnswer cp o.req payload
    let s := if o.req.writes then s.writeEnded o arg else if o.req.isRead then s.noteResume k else s
    let s := if o.req.isRead && status == 0 then (match o.why with
      | .probe => s
      | _ => s.monitor k arg) else s
    -- R364: accepted although the bridge had begun to refuse
    let s := if o.req.writes && status == 0 && !s.cpFlag cp Reg.SFB_PSTAT_TEMP_OK && decide ((s.sport cp).tempAt < o.since) then
        s.event (cpDie cp) 0x21 8 cp else s
    let s := if status = 6 then s.setCpFlag cp Reg.SFB_PSTAT_TEMP_OK false else s
    let s := if status = 1 then s.fencedReply cp else s.opResult o status arg
    s.pump (s.med.queue.length + 1)

/-- An RDATA frame (R322, R364): one plane of one codeword of a read. -/
def State.rdata (s : State) (cp tag slot plane : Nat) (raw : Bytes) : State :=
  match s.med.ops.find? (opKey cp tag) with
  | some { req := r, why := .read ids, .. } =>
    match ids[slot - mSlot r.addr]? with
    | some id =>
      if slot < mSlot r.addr ∨ 2 < plane then s.addCpFld cp Reg.SFB_PVIOL_VIOL 1
      else
        let old := s.med.raws.find? fun x => x.id == id
        let base : RawCw := old.getD { id := id, cp := cp, raw := [], planes := 0, dec := false }
        let new : RawCw := { base with raw := if plane = 0 then raw else base.raw, planes := base.planes ||| 2 ^ plane }
        { s with med := { s.med with raws := (s.med.raws.filter fun x => x.id != id) ++ [new] } }
    | none => s.addCpFld cp Reg.SFB_PVIOL_VIOL 1
  | some { why := .probe, .. } => s
  | _ => s.addCpFld cp Reg.SFB_PVIOL_VIOL 1

/-- An EVENT frame (R322, R359, R360): 1 the temperature left the window, 2 it is back in it, 3 a die fault, 4 the carrier's power is
failing. -/
def State.sfbEvent (s : State) (cp arg : Nat) : State :=
  match arg with
  | 1 =>
    let s := s.setCpFlag cp Reg.SFB_PSTAT_TEMP_OK false
    (s.setSport cp { s.sport cp with tempAt := s.ao.tb }).journalRegs
  | 2 => ((s.setCpFlag cp Reg.SFB_PSTAT_TEMP_OK true).erasePending cp).journalRegs
  | 3 => s.exc 0 .dieFault [cp]
  | _ => s.event (cpDie cp) 0x20 0 cp

def State.applyIn (s : State) (cp : Nat) : SfbIn → State
  | .complete tag st arg b => s.sfbComplete cp tag st arg b
  | .rdata tag slot plane raw => s.rdata cp tag slot plane raw
  | .event arg => s.sfbEvent cp arg

/-! ## Loss and return of a port (R324, R358, R363, R380) -/

/-- The operations of a port end without an answer (R363). -/
def State.endPortOps (s : State) (cp : Nat) : State :=
  let mine := (s.med.ops.keep fun k _ => k / 65536 == cp).vals ++ s.med.queue.filter fun o => o.cp == cp
  let s := { s with med := { s.med with ops := s.med.ops.keep fun k _ => k / 65536 != cp, queue := s.med.queue.filter fun o => o.cp != cp } }
  let gone := fun (k : Nat) => k / 1024 == cp
  let dies := s.med.dies.mapV fun k d => if gone k then { d with susp := 0, suspUs := 0, suspAt := none } else d
  let s := { s with med := { s.med with starved := s.med.starved.filter (fun k => !gone k), prot := s.med.prot.filter (fun k => !gone k),
                                        dies := dies } }
  mine.foldl (fun s o => match o.why with
    | .erase | .clear | .aside | .resume | .probe => s
    | .sj _ _ => s
    | _ => s.opResult o 9 0) s.protect

/-- A port is lost. -/
def State.portLost (s : State) (cp : Nat) : State :=
  let x := s.sport cp
  let s := s.setSport cp { SPort.reset with lanes := x.lanes, lastFrame := x.lastFrame, tempAt := x.tempAt }
  let s := (s.setCpFlag cp Reg.SFB_PSTAT_UP false).setCpFlag cp Reg.SFB_PSTAT_ATTACHED false
  let s := s.setCpFld cp Reg.SFB_PSTAT_LANES 0
  let s := s.endPortOps cp
  (s.sjCarrierLost cp).journalRegs

/-- A CRC error on a lane (R324, R364). -/
def State.sfbCrcError (s : State) (cp lane : Nat) : State :=
  let x := s.sport cp
  let l := x.lanes.getD lane Lane.fresh
  let l := { l with errs := recentMs s.ao.tb l.errs ++ [s.ao.tb], cleanSince := s.ao.tb }
  (s.setSport cp { x with lanes := x.lanes.insert lane l }).addCpFld cp Reg.SFB_PERR_CRC_ERR 1

/-- What the header of every good frame does: ACK covers frames (R324), credits come back (R325). -/
def State.sfbAck (s : State) (h : SfbHdr) : State :=
  let x := s.sport h.cp
  let left := x.unacked.filter fun t => !ackCovers (t.seq + t.frames - 1) h.ack
  s.setSport h.cp { x with lastFrame := s.ao.tb, unacked := left,
                           ackSince := if left.isEmpty then none else if left.length < x.unacked.length then some s.ao.tb else x.ackSince,
                           credits := match h.credit with
                             | some (vc, n) => x.credits.insert vc (x.credits.getD vc 0 + n)
                             | none => x.credits }

/-- What waits on a port goes as far as it can. -/
def State.sfbDrain (s : State) (cp : Nat) : State := s.drainPort cp ((s.sport cp).waiting.length + 1)

/-- What every received frame does on a port that runs (R324, R325, R364); `k` is its effect if its CRC is right. -/
def State.sfbRx (s : State) (h : SfbHdr) (m : Option SfbIn) (link : Nat) (k : State → State) : State :=
  if !s.sfbUp h.cp then s
  else if !h.ok m link then s.sfbCrcError h.cp h.lane
  else (k (s.sfbAck h)).sfbDrain h.cp

/-- A frame of a channel is applied: its credit is owed to the bridge (R325). -/
def State.sfbApply (s : State) (cp vc : Nat) (m : SfbIn) : State :=
  let x := s.sport cp
  (s.setSport cp { x with rxSeq := (x.rxSeq + 1) % 65536, owed := x.owed.insert vc (x.owed.getD vc 0 + 1) }).applyIn cp m

/-- Apply the frames held ahead of a gap that are now in order; `fuel` bounds their number. -/
def State.applyAhead (s : State) (cp : Nat) : Nat → State
  | 0 => s
  | fuel + 1 =>
    let x := s.sport cp
    match x.ahead.find? fun p => p.1 == x.rxSeq with
    | some p => ((s.setSport cp { x with ahead := x.ahead.erase p }).sfbApply cp p.2.1 p.2.2).applyAhead cp fuel
    | none => s.setSport cp { x with gapSince := if x.ahead.isEmpty then none else some (x.gapSince.getD s.ao.tb) }

/-- A frame without a credit (R364): counted; with 16 in 1 ms the port retrains. -/
def State.sfbNoCredit (s : State) (cp : Nat) : State :=
  let x := s.sport cp
  let l := recentMs s.ao.tb x.noCredit ++ [s.ao.tb]
  let s := (s.setSport cp { x with noCredit := l }).addCpFld cp Reg.SFB_PVIOL_VIOL 1
  if 16 ≤ l.length then s.portLost cp else s

/-- A frame that carries a SEQ, if the bridge held a credit for its channel: in order it is applied; ahead of a gap it is held, up to 64
frames; one held or applied already is dropped (R324, R325). -/
def State.sfbSeq (s : State) (h : SfbHdr) (m : SfbIn) : State :=
  let x := s.sport h.cp
  let d := seqDist x.rxSeq h.seq
  if 32768 ≤ d ∨ x.ahead.any (fun p => p.1 == h.seq) ∨ (d ≠ 0 ∧ 64 ≤ x.ahead.length) then s
  else if x.rxCredits.getD h.vc 0 = 0 then s.sfbNoCredit h.cp
  else
    let x := { x with rxCredits := x.rxCredits.insert h.vc (x.rxCredits.getD h.vc 0 - 1) }
    if d = 0 then ((s.setSport h.cp x).sfbApply h.cp h.vc m).applyAhead h.cp (x.ahead.length + 1)
    else s.setSport h.cp { x with ahead := x.ahead ++ [(h.seq, h.vc, m)], gapSince := some (x.gapSince.getD s.ao.tb) }

/-- A frame that carries a SEQ arrives. -/
def State.sfbMsg (s : State) (h : SfbHdr) (m : SfbIn) : State := s.sfbRx h (some m) 0 fun s => s.sfbSeq h m

/-- A port that trains (R324): its first active lane brings it up, with SEQ 0 and the credits of R323. -/
def State.sfbTrain (s : State) (cp lane : Nat) : State :=
  let x := s.sport cp
  let l := x.lanes.getD lane Lane.fresh
  if 2 ≤ lane ∨ !s.sfbOn cp ∨ l.retired then s
  else
    let n := s.cpFld cp Reg.SFB_PSTAT_LANES
    let s := if s.cpFlag cp Reg.SFB_PSTAT_UP then s else s.setSport cp { SPort.reset with lanes := x.lanes, lastFrame := s.ao.tb, tempAt := x.tempAt }
    (s.setCpFlag cp Reg.SFB_PSTAT_UP true).setCpFld cp Reg.SFB_PSTAT_LANES (n ||| 2 ^ lane)

/-! ## Attach (R312 to R314, R338, R390) -/

/-- The profile record of a part: the first whose names match, if its CRC is right (R337, R338). -/
def State.profileOf (s : State) (m : Nat) (p : DiePage) : Option Bytes :=
  let base := s.fld (dieM m) Reg.MED_PROF_BASE_ADDR
  let l := (List.range (min 64 (s.fld (dieM m) Reg.MED_PROF_COUNT_COUNT))).map fun i => s.loads (base + 512 * i) 512
  match l.find? fun r => r.take 12 == padTo 12 p.manuf && (r.drop 12).take 20 == padTo 20 p.model with
  | some r => if (crc32c (r.take 508)).toNat = leAt r 508 4 then some r else none
  | none => none

/-- A die as its attach leaves it (R313, R314). -/
def dieOfPage (p : DiePage) (r : Option Bytes) : DieInfo :=
  match r with
  | none => { DieInfo.none with uid := p.uid }
  | some r =>
    let bpc := leAt r 32 1
    let ok := p.crcOk && p.profileOk && p.planes == 4 && p.planeData == 16384 && decide (2048 ≤ p.planeSpare) && (bpc == 3 || bpc == 4) &&
      decide (p.pages ≤ 4096) && p.pages % bpc == 0 && decide (p.blocks ≤ 16384) && decide (p.blocks * p.pages * 65536 ≤ 256 * 2 ^ 30)
    { DieInfo.none with used := ok, uid := p.uid, bpc := bpc, pages := p.pages, blocks := p.blocks, retryN := leAt r 49 1, tr := p.tr,
                        tsus := leAt r 34 2, tslc := leAt r 36 2, tprog := p.tprog, tbers := p.tbers }

/-- MED_TIMING of an M-die: the largest declared values over its dies in use (R368). -/
def State.timingRegs (s : State) (m : Nat) : State :=
  let l := (s.med.dies.keep fun k d => d.used && k / 1024 / 24 == m).vals
  let most := fun (f : DieInfo → Nat) => l.foldl (fun n d => max n (f d)) 0
  let d := dieM m
  ((s.setFld d Reg.MED_TIMING_TR_US (most DieInfo.tr)).setFld d Reg.MED_TIMING_TSUS_US (most DieInfo.tsus)).setFld d
    Reg.MED_TIMING_TPROG_US (most DieInfo.tprog) |>.setFld d Reg.MED_TIMING_TBERS_MS (most DieInfo.tbers / 1000)

/-- A carrier is attached: CSTATUS, parameter pages and profiles have been exchanged (R312). -/
def State.attach (s : State) (cp : Nat) (temp : Int) (pages : List DiePage) : State :=
  let m := cp / 24
  if 1024 < pages.length then s.event (dieM m) 0x21 6 cp
  else
    let spare0 := s.spareLeft
    let s := s.exchange cp .cstatus
    let s := pages.foldl (fun s p =>
      let at0 := maddr cp p.die 0 0 0 0
      let s := (s.exchange cp (.param at0 0)).exchange cp (.param at0 1)
      let r := s.profileOf m p
      let d := dieOfPage p r
      let key := dieKey cp p.die
      let old := s.die key
      let s := match r with
        | some b => s.exchange cp (.profile at0 b)
        | none => s
      let s := if d.used then s else s.event (dieM m) 0x21 6 cp
      let s := { s with med := { s.med with dies := s.med.dies.insert key { d with lost := old.lost, slow := old.slow, evictSent := old.evictSent } } }
      if s.arr.uids.contains p.uid then s
      else
        let s := ({ s with arr := { s.arr with uids := s.arr.uids ++ [p.uid] } } : State).exchange cp (.param at0 2)
        p.bad.foldl (fun s b => s.dropBlock (maddr cp p.die b 0 0 0)) s) s
    let used := (s.med.dies.keep fun k d => k / 1024 == cp && d.used).vals
    let s := s.setCpFlag cp Reg.SFB_PSTAT_ATTACHED true
    let s := s.setCpFlag cp Reg.SFB_PSTAT_TEMP_OK (decide (0 ≤ temp) && decide (temp ≤ 75))
    let s := s.setCpFlag cp Reg.SFB_PSTAT_C0_MEDIA (used.all fun d => decide (d.tr ≤ 60) && decide (d.tsus ≤ 30))
    let s := s.setCpFlag cp Reg.SFB_PSTAT_JOURNAL_OK (used.any fun d => decide (d.tslc ≤ 45))
    let s := s.setCpFld cp Reg.SFB_PSTAT_DIES used.length
    let s := (s.setCpFld cp Reg.SFB_PSTAT_NAND_TEMP (ofInt 8 temp)).timingRegs m
    let named := s.namedBlocks
    let due := (s.blocksOf cp).filter fun b => mBlock b % 2 == s.side && !named.contains b
    let s := { s with ftl := { s.ftl with fresh := s.ftl.fresh.filter (fun b => mCp b != cp) ++ due } }
    let s := if s.par.lostCps.contains cp || s.med.dies.any (fun kd => kd.1 / 1024 == cp && kd.2.lost) then s.returnBlocks cp else s
    ((if s.serving then s.erasePending cp else s).checkSpare.addSpare spare0).journalRegs

/-! ## Decoding (R318, R319, R351, R352) -/

/-- Bits in which two strings differ. -/
def bitDiff (a b : Bytes) : Nat :=
  (a.zip b).foldl (fun n p => (List.range 8).foldl (fun n i => if (p.1 ^^^ p.2).getLsbD i then n + 1 else n) n) 0

/-- Judge a decoded codeword (R319): its data and the bits corrected, if it meets every parity check and is the one asked for. -/
def State.judgeCw (s : State) (c : CwReq) (raw cw : Bytes) : Option (Bytes × Nat) :=
  if cw.length == 4608 && ldpcOk (s.circs (cpDie (mCp c.addr))) cw then
    match cwRead c.addr (cw.take 4112) with
    | some (d, seg) => if c.seg = 0 ∨ seg = c.seg then some (d, bitDiff raw cw) else none
    | none => none
  else none

/-- A decoder has finished with the bits of a request: `cw` is the codeword it arrived at, none where it failed with `unsat` checks
not met (R318). -/
def State.decodeDone (s : State) (id : Nat) (cw : Option Bytes) (unsat : Nat) : State :=
  match s.med.cws.find? id, s.med.raws.find? fun x => x.id == id with
  | some c, some x =>
    let die := cpDie (mCp c.addr)
    if !x.dec || !s.flag die Reg.LDP_CTRL_EN then s
    else
      let drop := fun (s : State) => { s with med := { s.med with raws := s.med.raws.filter fun y => y.id != id } }
      let again := c.cls == 0 && c.step == 0 && (match c.why with
        | .input _ _ => false
        | _ => true)
      if cwBlank x.raw then
        let s := drop (s.addFld die Reg.LDP_MISC_BLANK 1)
        match c.why with
        | .blankCheck _ => s.endCw id none
        | _ => s.cwNoData id
      else match c.why with
        | .blankCheck _ => (drop s).endCw id (some [])
        | _ =>
          match cw.bind (s.judgeCw c x.raw) with
          | some (d, bits) => (drop s).cwGood id bits d
          | none =>
            let s := if c.step = 0 then s.addFld die Reg.LDP_STAT_HARD_FAIL 1 else s
            let s := if cw.any (fun w => ldpcOk (s.circs die) w) then s.addFld die Reg.LDP_MISC_MISDIRECT 1 else s
            (if again then s else drop s).nextStep id unsat
  | _, _ => s

end Sys2Proof.Machine
end

