-- ==== Sys2Proof/Machine/Recover.lean ====
section
/-! DEFINITION. Crash recovery (R303, R304): replay of the logs, the journal of the dumps and journal blocks, losses (R81 to R83). -/

namespace Sys2Proof.Machine

open Sys2Proof

/-- What the media hold of a side. -/
def MediaImage.of (m : MediaImage) (side : Nat) : SideImage := if side = 0 then m.s0 else m.s1

/-- An item of a record is applied if it is new to one of its pages; `new` tells it (R303 step 4). -/
def State.replayItem (s : State) (r : LogRec) (new : Nat → Bool) (it : Item) : State :=
  let ps := s.itemPages it
  let known := match it with
    | .fpadd ref _ fp => (s.bucketChain (refDomain ref) fp).any fun pe => pe.2.any fun e => e.ref == ref
    | .gencnt _ _ _ => false
    | _ => false
  if known || !(ps.isEmpty || ps.any new) then s
  else
    let s := s.applyDurable r.side r.lsn it
    match it with
    | .alloc _ m _ ulen => s.addValid m (ulen / 16 : Nat)
    | _ => s

/-- Replay the items of a record that a test picks; an item that was durable before ends the marks of its block or key all the same
(R82). -/
def State.replayItems (s : State) (r : LogRec) (pick : Item → Bool) : State :=
  match r.body with
  | .txn jside _ _ jseq items =>
    let before := s
    let new := fun (p : Nat) => let x := before.page p; decide ((if r.side = 0 then x.lsn0 else x.lsn1) < r.lsn)
    (items.filter pick).foldl (fun s it => (s.replayItem r new it).endMarks (jside.map fun j => (j, jseq)) it) s
  | _ => s

/-- Map and value items: those of pages that belong to a namespace. -/
def Item.ofNs : Item → Bool
  | .mapset _ _ _ | .valset _ _ | .keydel _ _ | .list _ _ _ => true
  | .pageimg p _ => decide (pKind p ≤ 4)
  | _ => false

/-- Records of transactions whose END is in the log, and the records that stand alone. -/
def wholeRecs (l : List LogRec) : List LogRec :=
  l.filter fun r => r.txn == 0 || l.any fun x => x.txn == r.txn && x.side == r.side && x.fin

/-- Replay logs (R303 step 4): first what orders by LSN alone, each side for itself, then map and value items by SGEN, then LSN. -/
def State.replay (s : State) (l : List LogRec) : State :=
  let l := (wholeRecs l).mergeSort fun a b => decide (a.side < b.side) || (a.side == b.side && decide (a.lsn ≤ b.lsn))
  let s := l.foldl (fun s r => match r.body with
    | .txn _ _ _ _ _ => s.replayItems r fun i => !i.ofNs
    | b => s.applyBody b r.side r.lsn) s
  let gen : LogRec → Nat := fun r => match r.body with
    | .txn _ _ g _ _ => g
    | _ => 0
  let t := l.mergeSort fun a b => decide (gen a < gen b) || (gen a == gen b && decide (a.lsn ≤ b.lsn))
  t.foldl (fun s r => s.replayItems r Item.ofNs) s

/-- Journal records, by side and SEQ, that the durable transactions of a log name (R296). -/
def namedRecs (l : List LogRec) : List (Nat × Nat) := (wholeRecs l).filterMap fun r => match r.body with
  | .txn (some j) _ _ q _ => some (j, q)
  | _ => none

/-! ## Losses (R81 to R83) -/

/-- Entries of log page 0xC0. -/
def defMax : Nat := 16384

/-- What is left of a half-open interval without another. -/
def cutSpan (x y : Nat × Nat) : List (Nat × Nat) := [(x.1, min x.2 y.1), (max x.1 y.2, x.2)].filter fun z => decide (z.1 < z.2)

/-- What is left of an interval without several others. -/
def cutSpans (x : Nat × Nat) (l : List (Nat × Nat)) : List (Nat × Nat) := l.foldl (fun xs y => xs.flatMap fun z => cutSpan z y) [x]

/-- A loss of an LBA range as an entry of log page 0xC0; SEQ is given when it is listed. -/
def rangeLoss (r : JRec) (x : Nat × Nat) : DefEnt :=
  { seq := 0, nsid := r.nsid, kind := 0, key := [], slba := x.1, count := x.2 - x.1, hint := r.dealloc, lostBy := r.append }

/-- Losses of ranges in ascending order, those that touch or overlap as one (log entry 206). -/
def mergeLoss : List DefEnt → List DefEnt
  | [] => []
  | e :: l => match mergeLoss l with
    | [] => [e]
    | f :: m =>
      let end_ := max (e.slba + e.count) (f.slba + f.count)
      if e.nsid = f.nsid ∧ e.hint = f.hint ∧ f.slba ≤ e.slba + e.count ∧ end_ - e.slba < 2 ^ 32 then
        { e with count := end_ - e.slba, lostBy := max e.lostBy f.lostBy } :: m
      else e :: f :: m

/-- The losses that lost headers stand for (R81, R82): LBA ranges without what a later record that survives gives, and keys, each once, that
none stores or deletes later. -/
def lossesOf (lost survive : List JRec) : List DefEnt :=
  let newer := fun (h : JRec) => survive.filter fun x => x.kv == h.kv && x.nsid == h.nsid && x.later h
  let ranges := (lost.filter fun h => !h.kv).flatMap fun h =>
    (cutSpans (h.slba, h.slba + h.blocks) ((newer h).map fun x => (x.slba, x.slba + x.blocks))).map (rangeLoss h)
  let ranges := ranges.mergeSort fun a b => decide (a.nsid < b.nsid) || (a.nsid == b.nsid &&
    ((!a.hint && b.hint) || (a.hint == b.hint && decide (a.slba ≤ b.slba))))
  let gone := (lost.filter fun h => h.kv && !(newer h).any fun x => x.key == h.key)
  let keys := (gone.map fun h => (h.nsid, h.key)).eraseDups.map fun nk =>
    { seq := 0, nsid := nk.1, kind := 1, key := nk.2, slba := 0, count := 1, hint := false,
      lostBy := ((gone.filter fun h => h.nsid == nk.1 && h.key == nk.2).map JRec.append).foldl max 0 : DefEnt }
  mergeLoss ranges ++ keys

/-- Log page 0xC0 with the losses of a run, and GEN (R83): as many as find an entry; where there are more, the last entry counts the
others. -/
def listLosses (gen : Nat) (es ls : List DefEnt) : Nat × List DefEnt :=
  let late := fun (l : List DefEnt) => (l.map DefEnt.lostBy).foldl max 0
  let put := fun (l : List DefEnt) => ((List.range l.length).zip l).map fun x => { x.2 with seq := es.length + x.1 }
  if es.any fun e => e.kind == 2 then
    (gen, es.map fun e => if e.kind = 2 then { e with count := e.count + ls.length, lostBy := max e.lostBy (late ls) } else e)
  else
    let free := defMax - es.length
    if ls.length ≤ free then (gen + 1, es ++ put ls)
    else if free = 0 then
      let last := es.getLast?.toList
      let rest := last ++ ls
      (gen + 1, es.dropLast ++ [{ seq := defMax - 1, nsid := 0, kind := 2, key := [], slba := 0, count := rest.length, hint := false, lostBy := late rest }])
    else
      let rest := ls.drop (free - 1)
      let rest_ : DefEnt := { seq := 0, nsid := 0, kind := 2, key := [], slba := 0, count := rest.length, hint := false, lostBy := late rest }
      (gen + 1, es ++ put (ls.take (free - 1) ++ [rest_]))

/-- A start has found losses (R81 to R83): they are listed, their blocks and keys marked, on both heads and in the log. -/
def State.lose (s : State) (ls : List DefEnt) (m : Mark) : State :=
  if ls.isEmpty then s
  else
    let (gen, es) := listLosses s.arr.defGen s.arr.deferred ls
    let lbas := (ls.filter fun e => e.kind == 0 && !e.hint).flatMap fun e => (List.range e.count).map fun i => (e.nsid * 2 ^ 64 + e.slba + i, m)
    let keys := (ls.filter fun e => e.kind == 1).map fun e => ((e.nsid, e.key), m)
    s.changeNow (.losses (s.arr.lossRuns + 1) gen es lbas keys)

/-! ## The journal (R303 step 5) -/

/-- A record as recovery holds it: on the media already, or in a dump. -/
def adoptedEnt (r : JRec) (off now : Nat) : JEnt :=
  { r := r, off := off, acked := true, intent := true, copies := 3, placed := 3 * r.pages, destaging := false, txn := 0, durable := false,
    updates := 0, jack := true, since := now }

/-- Parts of a value that never took effect are done with at once (R144). -/
def State.dropPartial (s : State) : State :=
  let all := s.allRecs
  let part := fun (r : JRec) => r.kv && decide (1 < r.parts) &&
    !((List.range r.parts).all fun i => all.any fun x => x.kv && x.side == r.side && x.group == r.group && x.part == i)
  let mark := fun (m : SMap JEnt) => m.mapV fun _ e => if part e.r then { e with txn := 0, durable := true, destaging := true } else e
  { s with jrnl := { s.jrnl with own := mark s.jrnl.own, mirror := mark s.jrnl.mirror } }

/-- A value of whose Store every part is among some records. -/
def wholeIn (l : List JRec) (r : JRec) : Bool :=
  !r.kv || (List.range r.parts).all fun i => l.any fun x => x.kv && x.side == r.side && x.group == r.group && x.part == i

/-- Take the records of the dumps, whole or not (R675), and of the journal blocks that no durable transaction names; the sequences go on above everything
found. A record whose value length disagrees with its parts is none (R206). -/
def State.takeJournal (s : State) (m : MediaImage) (named : List (Nat × Nat)) : State :=
  let dumps := s.nand.dumps.vals ++ (m.of (1 - s.side)).dump.toList
  let dumped := dumps.flatMap fun d => d.own ++ d.mirror
  let key := fun (r : JRec) => (r.side, r.seq)
  let found := (dumped ++ m.recs).foldl (fun (l : List JRec) r => if l.any fun x => key x == key r then l else l ++ [r]) []
  let all := found.filter JRec.lengthOk
  let live := all.filter fun r => !named.contains (key r)
  let put := fun (side : Nat) => ((live.filter fun r => r.side == side).foldl (fun (st : SMap JEnt × Nat) r =>
    (st.1.insert r.seq (adoptedEnt r st.2 s.ao.tb), st.2 + r.size)) (([] : SMap JEnt), 0))
  let next : Nat → Nat := fun side => ((((found ++ m.intents).filter fun (r : JRec) => r.side == side).map fun (r : JRec) => r.seq + 1) ++
    ((named.filter fun (q : Nat × Nat) => q.1 == side).map fun (q : Nat × Nat) => q.2 + 1)).foldl max 0
  let own := put s.side
  let oth := put (1 - s.side)
  let s := (found.filter fun r => !r.lengthOk).foldl (fun s r => s.event (dieC (s.tileOf r.shard)) 0x31 4 noInst) s
  let s := { s with jrnl := { s.jrnl with own := own.1, mirror := oth.1, nextSeq := next s.side, partnerSeq := next (1 - s.side), tail := own.2,
                                          used := own.2, adopted := true },
                    pair := { s.pair with dumpRecs := (dumped.filter fun r => live.any fun x => key x == key r).map key } }
  let lost := m.intents.filter fun h => !(all.any fun r => key r == key h) && !named.contains (key h)
  let survive := (all ++ m.intents).filter fun r => named.contains (key r) || (all.any (fun x => key x == key r) && wholeIn all r)
  let s := s.dropPartial.journalRegs
  s.lose (lossesOf lost survive) { next0 := next 0, next1 := next 1 }

/-! ## Recovery -/

/-- Rebuilds go on (R395, R396, R408): the segments that lack a member are listed; where no rebuild runs, one goes on in the replacement
blocks that the REBUILD entries of a stripe journal name, once the page it stopped at proves blank. -/
def State.resumeRebuild (s : State) (l : List SjEnt) : State :=
  let lossy := (s.ftl.segs.vals.filter fun d => d.state == .sealed && !(s.lostMembers d).isEmpty && s.runs d.segid).map SegDesc.segid
  let s := { s with par := { s.par with list := s.par.list ++ lossy.filter fun k => !s.par.list.contains k } }
  let lastOf := fun (seg : Nat) => (l.filter fun e => e.seg == seg && (e.kind == 1 || e.kind == 4)).getLast?
  if s.par.cur.isSome then s
  else match lossy.find? fun seg => (lastOf seg).any fun e => e.kind == 1 with
  | none => s
  | some seg => match lastOf seg with
    | some e =>
      let repl : SMap Nat := (l.filter fun x => x.seg == seg && x.kind == 1).foldl (fun (r : SMap Nat) x => r.insert x.member x.target) []
      let s := s.setRebuild (some { seg := seg, repl := repl, stripe := e.stripe, parts := [], bad := [], reads := 0, progs := 0, logged := false })
      match repl.vals.head? with
      | some b => s.requestCw (b + e.stripe * 2 ^ 22) 0 s.rebuildClass (.blankCheck seg)
      | none => s
    | none => s

/-- Addresses that the chunk tables and the directory hold: the placements that the logs have recorded. -/
def State.placements (s : State) : List Nat :=
  ((s.ftl.pages.vals.flatMap fun p => match p.body with
    | .chunk es => (es.vals.filter fun e => e.state != 0 && e.state != 3).map ChunkEnt.pack
    | _ => []) ++ s.ftl.dir.vals.map DirEnt.maddr).eraseDups

/-- Seal the open segments that a test picks at their last stripe whose placement is logged (R303 step 6). -/
def State.sealOpens (s : State) (p : Nat → Bool) : State :=
  let l := s.placements
  (s.ftl.segs.vals.filter fun d => d.state == .opened && p d.segid && !(s.ftl.opens.any fun o => o.segid == d.segid)).foldl
    (fun s d =>
      let mine := l.filter fun a => d.members.any fun m => m.addr == blockOf a
      let n := mine.foldl (fun n a => max n (roundUp (mPage a + 1) (s.unitStripes d))) 0
      s.sealSegment { d with next := max d.next n }) s

/-- Entries of a stripe journal whose operation no later DONE ends. -/
def openEnts : List SjEnt → List SjEnt
  | [] => []
  | e :: l => if e.kind != 4 && !(l.any fun x => x.kind == 4 && x.seg == e.seg) then e :: openEnts l else openEnts l

/-- Where a VX5 reshape resumes (R405): the later of its last checkpoint that the log shows durable and the first stripe of the stream
where a live pack begins that still lies at its source. -/
def State.vx5Boundary (s : State) (l : List SjEnt) : Nat × Nat :=
  let ck := (l.filter fun e => e.kind == 3 && decide (e.target ≤ s.ftl.durable)).foldl (fun (b : Option SjEnt) e => match b with
    | some x => if x.target < e.target then some e else b
    | none => some e) none
  let live := s.placements.filterMap fun a => (s.segOf a).bind fun d => if d.vx5 then some (d.segid, mPage a) else none
  let later := fun (a b : Nat × Nat) => decide (a.1 < b.1) || (a.1 == b.1 && decide (a.2 ≤ b.2))
  let first := live.foldl (fun (b : Option (Nat × Nat)) p => match b with
    | some x => if later x p then b else some p
    | none => some p) none
  let done := (ck.map fun e => (e.seg, e.stripe)).getD (0, 0)
  match first with
  | some p => if later done p then p else done
  | none => done

/-- A reshape that was in progress goes on (R401, R405, R407, R408): what it had copied without a switch is collected. -/
def State.resumeReshape (s : State) (l : List SjEnt) : State :=
  if s.par.reshape.isSome then s
  else
    let left := (openEnts l).filter fun e => e.kind == 2 || e.kind == 3
    match left.getLast? with
    | none => s
    | some e =>
      let d := dieM 0
      let vx5 := e.kind == 3
      let b := if vx5 then s.vx5Boundary l else (0, 0)
      let r : Reshape := { vx5 := vx5, nsid := s.fld d Reg.PAR_RS_NSID_M1 + 1,
                           target := if vx5 then max 4 (min 16 (s.fld d Reg.PAR_RS_TARGET_WIDTH))
                             else s.arr.layout.target.getD (s.fld d Reg.FTL_CTRL_WIDTH),
                           cls := s.fld d Reg.PAR_RS_CLASS, source := none, txn := none, bseg := b.1, bstripe := b.2, stopped := false }
      let s := ({ s with par := { s.par with reshape := some r } } : State).setFlag d Reg.PAR_RS_STATUS_ACTIVE true
      ((left.map SjEnt.dest).eraseDups.filter (· != 0)).foldl (fun s k => s.collect k r.cls) s

/-- Fingerprint under which a log takes a chunk out of the index. -/
def fpInLog (l : List LogRec) (ref : Nat) : Option Bytes :=
  (l.flatMap fun r => match r.body with
    | .txn _ _ _ _ items => items
    | _ => []).findSome? fun it => match it with
    | .fpdel r _ fp => if r = ref then some fp else none
    | _ => none

/-- Resume freeing (R199): of every DYING chunk that this head frees and is not freeing. What is left of R198 step 1 is done, and step 2
follows once it is durable. The fingerprint is that of the index, or of the log; where neither has it, it is made again should the chunk
live. -/
def State.resumeFrees (s : State) (logs : List LogRec) : State :=
  let dying := (s.ftl.pages.keep fun p _ => pKind p == 5).flatMap fun pp => match pp.2.body with
    | .chunk es => (es.filter fun ne => ne.2.state == 2).map fun ne => mkRef (pOwner pp.1) (pIndex pp.1 * 128 + ne.1)
    | _ => []
  (dying.filter fun ref => s.frees ref && !s.dst.freeing.has ref).foldl (fun s ref =>
    let es := s.indexOf ref
    let s := es.foldl (fun s e => s.filterDelete (refDomain ref) e.fp) (s.log (.state ref 2))
    let s := if es.isEmpty then s else (s.logTxn none 0 0 (es.map fun e => .fpdel ref e.len e.fp)).1
    let f : Freeing := { since := s.ao.tb, dying := false, acked := s.pair.head == .solo,
                         fp := (es.head?.map FpEnt.fp).or (fpInLog logs ref), data := none }
    { s with dst := { s.dst with freeing := s.dst.freeing.insert ref f } }) s

/-- Resume what the metadata show in progress: chunks being freed (R199), segments in collection. -/
def State.resumeWork (s : State) (logs : List LogRec) : State :=
  let s := s.resumeFrees logs
  (s.ftl.segs.vals.filter fun d => d.state == .collecting && !s.ftl.scans.has d.segid && s.runs d.segid).foldl
    (fun s d => (s.beginScan d.segid 7 0 0 d.next).rewriteMeta d.segid) s

/-- Set the owner of every shard, in both copies of TKO table 0 (R166, R719). -/
def State.setOwners (s : State) (f : Nat → Nat) : State :=
  (List.range 256).foldl (fun s e =>
    let k := tblKey (dieF 0) 0x16 0 e 0
    let w := setBits (s.tbl (dieF 0) 0x16 0 e 0) 0 1 (f e)
    (s.setActive k w).setShadow k w) s

/-- Set the sequences and stores that a side's log and checkpoint give (R303 steps 1 to 3). -/
def State.loadMedia (s : State) (m : MediaImage) : State :=
  let mine := m.of s.side
  let other := m.of (1 - s.side)
  let top := fun (x : SideImage) (z : Nat) => x.log.foldl (fun n r => max n r.lsn) z
  let segs := m.segs.keys ++ (mine.log.filterMap fun r => match r.body with
    | .segment d => some d.segid
    | _ => none)
  let jb := (mine.jblks ++ other.jblks).foldl (fun (b : SMap JBlk) x => b.insert x.1 { recs := x.2, next := 4096 }) []
  let f := { s.ftl with
      pages := m.pages, dir := m.dir, segs := m.segs, pools := m.pools, retired := m.retired, lines := [], waits := [], todo := [], holds := [], jblks := jb,
      nextLsn := top mine (mine.redo0 + mine.redo1) + 1, partnerLsn := top other 0, partnerPage := other.lastPage, durable := top mine 0,
      nextTxn := mine.log.foldl (fun n r => max n (r.txn + 1)) 1, nextPage := mine.nextPage, oldTriples := mine.blocks, triple := [],
      nextSeg := (segs.filter fun k => k / 2 ^ 31 == s.side).foldl (fun n k => max n (k % 2 ^ 31 % 0x70000000 + 1)) 0 }
  let s := { s with ftl := f, arr := { m.arr with uids := s.arr.uids ++ m.arr.uids.filter fun u => !s.arr.uids.contains u } }
  let s := s.arr.nss.keys.foldl (fun s k => s.setNewest k) s
  let s := (m.segs.vals.filter fun d => d.state != .empty && !d.sound).foldl (fun s _ => s.event (dieM 0) 0x26 4 noInst) s
  s.setFld (dieM 0) Reg.FTL_CKPT_NUM mine.ckpt

/-- Next chunk numbers lie above every number in use. -/
def State.nextChunks (s : State) : State :=
  { s with arr := { s.arr with doms := s.arr.doms.mapV fun d r =>
      let used := (s.ftl.pages.keep fun p _ => pKind p == 5 && pOwner p == d).flatMap fun pp => match pp.2.body with
        | .chunk es => es.keys.map fun n => pIndex pp.1 * 128 + n + 1
        | _ => []
      { r with next0 := (used.filter (· ≤ 2 ^ 51)).foldl max r.next0, next1 := (used.filter (2 ^ 51 < ·)).foldl max r.next1 } } }

/-- Crash recovery (R303): under a claim that is won and sealed. -/
def State.recover (s : State) (m : MediaImage) : State :=
  let logs := m.s0.log ++ m.s1.log
  let s := ((s.loadMedia m).replay logs).nextChunks
  let s := if m.s0.badLog || m.s1.badLog then (s.setReadOnly true).event (dieM 0) 0x24 2 noInst else s
  let s := s.takeJournal m (namedRecs logs)
  let s := { s with pair := { s.pair with recovered := true } }
  let s := (s.sealOpens fun _ => true).resumeWork logs
  let s := (s.resumeRebuild (m.s0.sj ++ m.s1.sj)).resumeReshape (m.s0.sj ++ m.s1.sj)
  s.updateFree.startCkpt

end Sys2Proof.Machine
end

