-- ==== Sys2Proof/Machine/Adopt.lean ====
section
/-! DEFINITION. Taking over the partner's work (R145 to R155, R305), and handing it back (R158, R159). -/

namespace Sys2Proof.Machine

open Sys2Proof

/-! ## Addresses (R146, R418) -/

/-- Set or clear ACTIVE, in both copies, of the adopted entries of the MAC address tables for listed front ports; GEN counts it
(R418). -/
def State.setAdopted (s : State) (ports : List Nat) (on : Bool) : State :=
  (List.range s.variant.sides).foldl (fun s f =>
    let hit := (List.range 64).filter fun e => s.tblFlag (dieF f) 0 e 2 Reg.MAC_ADDR_CTL_VALID && s.tblFlag (dieF f) 0 e 2 Reg.MAC_ADDR_CTL_ADOPTED &&
      ports.contains (f * 4 + s.tblFld (dieF f) 0 e 2 Reg.MAC_ADDR_CTL_PORT)
    let s := hit.foldl (fun s e =>
      let k := tblKey (dieF f) 0x10 0 e 2
      let w := setBits (s.tbl (dieF f) 0x10 0 e 2) 6 1 (if on then 1 else 0)
      (s.setActive k w).setShadow k w) s
    s.addFld (dieF f) (tcGen 0x10) 1) s

/-- Frame of the address responder, or announcement: ARP or neighbour discovery, sent as class 7 (log entry 29). -/
def addrFrame (kind : Nat) (adopted : Bool) : TxFrame :=
  { cls := 7, control := false, size := if kind = 2 then 90 else 64, qp := none, adopted := adopted, ip := kind == 2, who := none }

/-- Three announcements of each IP address of the partner's twin ports among the listed ones (R146). -/
def State.announceAddrs (s : State) (ports : List Nat) : State :=
  (s.partnerAddrs.filter fun a => a.2.1 != 0 && ports.contains a.1 && s.hasLink a.1).foldl (fun s a =>
    (List.replicate 3 ()).foldl (fun s _ => (s.queueFrame a.1 (addrFrame a.2.1 true)).emit (.announce a.1 a.2.1 a.2.2)) s) s

/-! ## Queue pairs and their commands (R140, R142, R145, R147) -/

/-- The PSN after the last of some PSN ranges, from a PSN on. -/
def psnAfter (from_ : Nat) (l : List (Nat × Nat)) : Nat :=
  l.foldl (fun p r =>
    let e := psnAdd r.1 r.2
    if psnDist from_ p < psnDist from_ e ∧ psnDist from_ e < 2 ^ 23 then e else p) from_

/-- F-die of a queue pair's number (R440). -/
def qpDie (qpn : Nat) : Nat := qpn / 2 ^ 22 % 2

/-- Ledger records of a queue pair in the order of their PSNs, from a PSN on. -/
def State.ledgersOf (s : State) (qpn from_ : Nat) : List LedgerRec :=
  (s.pair.ledger.vals.filter fun l => l.qpn == qpn).mergeSort fun a b => decide (psnDist from_ a.psn ≤ psnDist from_ b.psn)

/-- Activate a shadow context (R145, R444): its expected PSN follows the last acknowledged CAPSULE; the ledgered phases keep their PSNs, and
new work comes after them (R147). A queue pair whose port has no link goes to the error state (R146). -/
def State.adoptQp (s : State) (e : QpExport) : State :=
  let qpn := e.qpn
  let caps := (s.pair.capsules.vals.filter fun c => c.qpn == qpn && decide (0 < c.npsn))
  let back := psnAdd e.spsn (2 ^ 24 - 2 ^ 22)
  let leds := s.ledgersOf qpn back
  let epsn := psnAfter e.epsn (caps.map fun c => (c.psn, c.npsn))
  let spsn := psnAfter e.spsn (leds.map fun l => (l.psn, l.count))
  let fdie := qpDie qpn
  let full := decide (2 * s.pinMax fdie ≤ s.pinned fdie)
  let cls := if e.cls = 0 ∧ full then 1 else e.cls
  let q := Qp.fresh { e with epsn := epsn, spsn := spsn, cls := cls } fdie 0 s.ao.tb
  let q := { q with cc := Cc.fresh (s.lineRate q.fp) s.ao.tb, pinned := decide (cls = 0), probes := if leds.isEmpty then 0 else 1,
                    resv := leds.map fun l => { tag := l.tag, phase := l.phase, psn := l.psn, n := l.count } }
  let s := { s with rdma := { s.rdma with shadows := s.rdma.shadows.erase qpn } }
  let s := match s.pair.shCtrls.find? e.cntlid with
    | some k => if s.host.ctrls.has e.cntlid then s else { s with host := { s.host with ctrls := s.host.ctrls.insert e.cntlid k } }
    | none => s
  let key := queueKey e.cntlid e.qid
  let s := match s.pair.shQueues.find? key with
    | some u => { s with host := { s.host with queues := s.host.queues.insert key { u with cls := cls } } }
    | none => s
  let s := s.setQp qpn q
  if s.hasLink q.fp then s else s.qpFail qpn

/-- The first packets of an adopted queue pair: a NAK with the PSN it expects (R145), and where PSNs are ledgered a probe (R147). -/
def State.greetQp (s : State) (qpn : Nat) : State :=
  match s.qp qpn with
  | none => s
  | some q =>
    if q.error then s
    else
      let s := s.sendNak q (.nakSequence qpn q.epsn)
      if q.probes = 0 then s
      else (s.setQp qpn { q with probeAt := some s.ao.tb }).sendPkt qpn q { psn := psnAdd q.spsn 0x400000, n := 0, kind := .probe }

/-- Locks of an operation: its shards and ranges, and whether exclusive (R68, R69). -/
def HostOp.wants (nsid : Nat) : HostOp → List Want × Bool
  | .read a n | .compare a n | .verify a n => (rangeWants nsid a n, false)
  | .write a n | .compareAndWrite a n _ | .writeZeroes a n _ => (rangeWants nsid a n, true)
  | .deallocate l => (rangesWants nsid l, true)
  | .store k _ _ | .delete k => (keyWants nsid k, true)
  | _ => ([], false)

/-- Records that an operation writes. -/
def HostOp.recCount : HostOp → Nat
  | .write _ n | .compareAndWrite _ n _ => (n + 31) / 32
  | .store _ v _ => max 1 ((v + 131071) / 131072)
  | .writeZeroes _ _ _ | .delete _ => 1
  | .deallocate l => l.length
  | _ => 0

/-- Background work in progress names a command. -/
def State.runsFor (s : State) (tag : Nat) : Bool :=
  (s.arr.nss.vals.any fun n => n.formatting.any (fun f => f.2 == some tag) || n.removing.any (fun f => f.2 == some tag)) ||
    s.arr.sanitize.any (fun x => x.tag == some tag) || s.host.ctrls.vals.any (fun k => k.aers.any fun t => t.num == tag)

/-- A command of the failed head as the survivor finishes it (R145, R147, R150 step 11): with its ledgered phases, with its data where the
capsule carried it; its records count as appended if all of them are here. Of a read whose data are ledgered the outcome follows from
them again. -/
def State.redrive (s : State) (m : MirrorCap) : Cmd :=
  let t := m.tag.num
  let led := fun (ph : Phase) => s.pair.ledger.find? (ledgerKey t ph)
  let state := fun (ph : Phase) => if (led ph).isSome then Led.acked else .idle
  let recs := (s.jrnl.mirror.vals.filter fun e => e.r.tag == t).length
  let need := m.op.recCount
  let begun := decide (0 < need ∧ need ≤ recs) || s.runsFor t
  let again := (led .readData).isSome
  let res := if again then none else ((led .response).bind LedgerRec.res).or m.res
  let res2 := if again then none else ((led .response).bind LedgerRec.res2).or m.res2
  let w := m.op.wants m.nsid
  let wants := if res.isSome || begun then [] else w.1
  { tag := m.tag, fdie := m.fdie, port := m.port, qpn := m.qpn, nsid := m.nsid, op := m.op, cls := m.cls, sgl := m.sgl,
    arrival := m.arrival, accepted := true, epoch := m.epoch, wants := wants, excl := w.2, asked := 0,
    fetchLedger := state .readRequests, fetching := false, data := if m.sgl.inCapsule && m.op.dataLen.isSome then some m.data else none,
    part := m.part, begun := begun, seqs := [], admitWait := false, pieces := none,
    point := ((led .readData).map LedgerRec.point).getD ⟨0, 0, 0⟩,
    dataLedger := state .readData, sentData := false, result := res, result2 := res2, respLedger := state .response, mute := false,
    fetchAt := 0, skips := [] }

/-- Activate the shadow contexts that a test picks, and take up the accepted commands of their hosts, but for those whose queue is gone
(R106): the commands, in the order of their arrival, and the state. -/
def State.adoptQps (s : State) (p : QpExport → Bool) : List Cmd × State :=
  let qs := s.rdma.shadows.vals.filter p
  let mine := fun (c : MirrorCap) => qs.any fun e => e.qpn == c.qpn
  let caps := (s.pair.capsules.vals.filter mine).mergeSort fun a b => decide (a.arrival ≤ b.arrival)
  let s := qs.foldl (fun s e => s.adoptQp e) s
  let live := caps.filter fun c => !s.pair.dropped.contains c.tag.num && (s.qp c.qpn).any fun q => !q.error
  let cmds := live.map s.redrive
  let s := cmds.foldl (fun s c => s.setCmd c) s
  (cmds, { s with pair := { s.pair with capsules := s.pair.capsules.keep fun _ c => !mine c,
                                        dropped := s.pair.dropped.filter fun t => !caps.any fun c => c.tag.num == t } })

/-- The lock slices of every shard anew (R150 step 6): first what this head's commands hold, in the order of the grants; then the requests
of every other accepted command that has not begun its append, in the order of arrival. -/
def State.rebuildLocks (s : State) (cmds : List Cmd) : State :=
  let own := s.host.locks.filter fun e => e.side == s.side
  let held := (own.filter LockEnt.granted).mergeSort fun a b => decide (a.order ≤ b.order)
  let ask := fun (c : Cmd) => c.wants.head?.map (c.entry s.side)
  let s := cmds.foldl (fun s c => if c.wants.isEmpty then s else s.setCmd { c with asked := 1 }) s
  let at_ := fun (e : LockEnt) => ((s.cmd e.tag).map Cmd.arrival).getD 0
  let reqs := ((own.filter fun e => !e.granted) ++ cmds.filterMap ask).mergeSort fun a b => decide (at_ a ≤ at_ b)
  s.setLocks ((held.map fun e => { e with entered := true, withdrawn := false }) ++ reqs.map fun e => { e with entered := false })

/-- The requests of rebuilt lock slices take entries, and their locks where nothing stands against them (R71 to R73). -/
def State.grantRebuilt (s : State) : State :=
  let s := s.enterWaiters.preemptAll
  (s.host.locks.foldl (fun s e => if s.mayGrant e then s.grantLock e else s) s).countLocks

/-! ## Takeover (R150, R305) -/

/-- The head serves alone: nothing waits for the partner any more. Arrived capsules are accepted (R140), records and map updates need no
answer. -/
def State.alone (s : State) : State :=
  let groups := s.pair.groups.mapV fun _ g => { g with unacked := [], waiting := [], ackSince := none }
  let solo := fun (m : SMap JEnt) => m.mapV fun _ e => { e with updates := 0, acked := true }
  let s := { s with pair := { s.pair with groups := groups, giving := none, rejoin := 0, handback := [], awaitMove := [], movesDue := [] },
                    jrnl := { s.jrnl with own := solo s.jrnl.own, mirror := solo s.jrnl.mirror },
                    dst := { s.dst with freeing := s.dst.freeing.mapV fun _ f => { f with acked := true } },
                    ftl := { s.ftl with updOf := [], holds := [] },
                    host := { s.host with cmds := s.host.cmds.mapV fun _ c => { c with accepted := true }, remote := [], unsettled := [] } }
  let s := s.fps.foldl State.startTx s
  s.rdma.qps.vals.foldl (fun s q => match q.owed.getLast? with
    | some (psn, _) => s.sendAck q.e.qpn { q with owed := [] } psn
    | none => s) s

/-- Program again every adopted record that the failed side's log does not name (R155, R205); what its MAPUPDs and the log's tail say takes
effect first. -/
def State.adoptJournal (s : State) (m : MediaImage) : State :=
  let s := s.ftl.todo.foldl (fun s c => match c with
    | .upd _ _ m lsn => s.applyUpd m lsn
    | _ => s) s
  let s := { s with ftl := { s.ftl with todo := s.ftl.todo.filter fun c => match c with
    | .upd _ _ _ _ => false
    | _ => true } }
  let l := (m.of (1 - s.side)).log
  let s := { s with ftl := { s.ftl with partnerPage := (m.of (1 - s.side)).lastPage } }
  let s := s.replay (l.filter fun r => match r.body with
    | .txn _ _ _ _ _ => true
    | _ => decide (s.ftl.partnerLsn < r.lsn))
  let named := namedRecs l
  let s := { s with jrnl := { s.jrnl with adopted := true, mirror := s.jrnl.mirror.mapV fun _ e =>
      let done := named.contains (e.r.side, e.r.seq)
      { e with acked := true, updates := 0, since := s.ao.tb, copies := if e.durable || done then e.copies else s.copiesOf e.r, destaging := e.destaging && e.txn != 0, durable := e.durable || done } } }
  let s := s.dropPartial
  (s.jrnl.mirror.vals.filter fun e => !e.durable).foldl (fun s e =>
    let s := if e.r.mediaDur then s else s.postIntent e.r
    s.programRec e.r (s.copiesOf e.r)) s

/-- Make every shard this head's, log each adopted one with the next SGEN (R166, R299, R305). A commit in progress ends first. -/
def State.adoptShards (s : State) : State :=
  let s := s.finishCopy (dieF 0) 0x16
  let old := (List.range 256).filter fun e => s.owner e != s.side
  let s := (s.setOwners fun _ => s.side).addFld (dieF 0) (tcGen 0x16) 1
  old.foldl (fun s e =>
    let g := s.arr.sgen.getD e 0 + 1
    ({ s with arr := { s.arr with sgen := s.arr.sgen.insert e g } } : State).log (.shard e s.side g)) s

/-- The failed side's lines, segments and pool become this head's (R305); its next checkpoint starts. -/
def State.adoptMedia (s : State) (m : MediaImage) : State :=
  let own := fun (l : Line) => if l.r then { l with d := true, dlsn := if l.d then min l.dlsn l.rfirst else l.rfirst } else l
  let s := { s with ftl := { s.ftl with lines := s.ftl.lines.mapV fun _ l => own l, waits := s.ftl.waits.map fun (w : WayWait) => { w with line := own w.line }, pools := s.ftl.pools.mapV fun _ _ => s.side } }
  let s := s.sealOpens fun k => k / 2 ^ 31 != s.side
  let sj := (m.of (1 - s.side)).sj
  let s := (s.resumeRebuild sj).resumeReshape sj
  let named := s.namedBlocks
  let due := (s.roster.flatMap s.blocksOf).filter fun b => !named.contains b && !s.ftl.fresh.contains b
  let s := { s with ftl := { s.ftl with fresh := s.ftl.fresh ++ due } }
  (s.resumeWork (m.s0.log ++ m.s1.log)).updateFree.startCkpt

/-- Adopted records of a synchronous session whose commands have no outcome yet lack their JACK (R490): they wait for it, and are sent
again in the next generation. -/
def State.holdAdopted (s : State) : State :=
  s.pgt.sess.keys.foldl (fun s k => match s.sess k with
    | some x =>
      if !x.d.sync || x.degraded then s
      else
        let due := s.jrnl.mirror.vals.filter fun e => e.r.nsid == x.d.nsid && (s.cmd e.r.tag).any fun c => c.result.isNone
        due.foldl (fun s e => match (s.setJack e.r.side e.r.seq false).sess k with
          | some x => (s.setJack e.r.side e.r.seq false).setSess k { x with jrecs := x.jrecs.insert (e.r.jtag % 2 ^ 48) s.ao.tb }
          | none => s) s
    | none => s) s

/-- Steps 6 to 9 and 11 of R150, with `t0` for the duration: journal and lock slices; contexts and shards; announcements; NAKs and probes.
The commands move on with what ends every step of this head. -/
def State.adopt (s : State) (t0 : Nat) (m : MediaImage) : State :=
  let qs := s.rdma.shadows.keys
  let s := s.adoptJournal m
  let (cmds, s) := s.adoptQps fun _ => true
  let s := ((s.rebuildLocks cmds).adoptShards.adoptMedia m).holdAdopted
  let s := (s.setAdopted s.fps true).announceAddrs s.fps
  let s := (qs.foldl (fun s q => s.greetQp q) s).grantRebuilt
  let s := s.setFld (dieF 0) Reg.TKO_LAST_DURATION_NS (s.since t0)
  let s := { s with pair := { s.pair with pending := none } }
  s.setFlag (dieF 0) Reg.TKO_STATE_PENDING false

/-- The survivor has won its claim (R150 from step 5 on; R152 while AUTO_EN is 0): of a fault detected at a moment. -/
def State.takeover (s : State) (cause t0 detected : Nat) (m : MediaImage) : State :=
  let last := s.pair.rxAt.getD t0
  let s := ((s.setLast cause true).enter .solo).alone
  let s := { s with pair := { s.pair with holdTx := some last, silence := none, deferTill := none } }
  if s.flag (dieF 0) Reg.TKO_CTRL_AUTO_EN then s.adopt t0 m
  else
    let s := { s with pair := { s.pair with pending := some (cause, t0) } }
    let s := s.setFlag (dieF 0) Reg.TKO_STATE_PENDING true
    s.post 0 (s.fld (dieF 0) Reg.TKO_CTRL_PEND_RING) 13 (.takeoverPending cause detected)

/-! ## Handing back (R158, R159 step 9) -/

/-- This head takes queue pairs back from the serving head (R158): those of this side on the listed ports. -/
def State.takeBack (s : State) (t0 : Nat) (ports : List Nat) : State :=
  let s := s.setLast 7 true
  let mine := fun (e : QpExport) => qpSide e.qpn == s.side && ports.contains (qpDie e.qpn * 4 + e.port % 4)
  let qs := (s.rdma.shadows.vals.filter mine).map QpExport.qpn
  let s := (s.adoptQps mine).2
  let s := (s.ownAddrs.filter fun a => ports.contains a.1 && s.hasLink a.1).foldl (fun s a => s.emits (List.replicate 3 (.announce a.1 a.2.1 a.2.2))) s
  let s := qs.foldl (fun s q => s.greetQp q) s
  s.setFld (dieF 0) Reg.TKO_LAST_DURATION_NS (s.since t0)

/-- The giving head has handed ports back: their adopted queue pairs are shadows again, their commands are the
partner's, and nothing of them is left in the transmit buffers. -/
def State.gaveBack (s : State) (ports : List Nat) : State :=
  let qs := s.rdma.qps.vals.filter fun q => ports.contains q.fp && qpSide q.e.qpn != s.side
  let s := qs.foldl (fun s q =>
    let mine := s.host.cmds.vals.filter fun c => c.qpn == q.e.qpn
    let s := mine.foldl (fun s c =>
      let t := c.tag.num
      let s := s.releaseLocks t
      { s with host := { s.host with cmds := s.host.cmds.erase t }, ftl := { s.ftl with points := s.ftl.points.erase t } }) s
    let e := { q.e with epsn := q.epsn, spsn := q.spsn }
    let key := queueKey q.e.cntlid q.e.qid
    let s := { s with rdma := { s.rdma with qps := s.rdma.qps.erase q.e.qpn, shadows := s.rdma.shadows.insert q.e.qpn e } }
    let s := match s.host.queues.find? key with
      | some u => { s with pair := { s.pair with shQueues := s.pair.shQueues.insert key u }, host := { s.host with queues := s.host.queues.erase key } }
      | none => s
    match s.host.ctrls.find? q.e.cntlid with
    | some k => if q.e.qid = 0 then
        { s with pair := { s.pair with shCtrls := s.pair.shCtrls.insert k.cntlid k }, host := { s.host with ctrls := s.host.ctrls.erase k.cntlid } } else s
    | none => s) s
  let s := ports.foldl (fun s p =>
    let x := s.fport p
    s.setFport p { x with txq := x.txq.filter fun f => !f.adopted, sending := x.sending.filter fun f => !f.adopted }) s
  s.setAdopted ports false

end Sys2Proof.Machine
end

