-- ==== Sys2Proof/Machine/Pair.lean ====
section
/-! DEFINITION. The pair as events of the Chamois link drive it (spec/03): claims, rejoin, received messages, acknowledgements. -/

namespace Sys2Proof.Machine

open Sys2Proof

/-! ## Claims (R133 to R137) -/

/-- Claim the carriers: CLAIM to every present carrier; none once the epoch has reached its end (R137). -/
def State.startClaim (s : State) (why : ClaimWhy) (expect holders : Nat) : State :=
  if 0xFFFFFFFF ≤ expect then s
  else
    let c : Claim := { why := why, expect := expect, holders := holders, begun := s.ao.tb, applied := [], answered := [], highest := 0 }
    ({ s with pair := { s.pair with claim := some c, silence := none, deferTill := none } } : State).tell (.claim expect (expect + 1) holders) s.roster

/-- Claim alone after a fault of the partner that was detected at a moment. -/
def State.claimTakeover (s : State) (cause t0 detected : Nat) : State :=
  if s.pair.head == .twin && s.pair.faulted.isNone && s.pair.claim.isNone then
    s.startClaim (.takeover cause t0 detected) s.epoch (2 ^ s.side) else s

/-- The partner broke the protocol so that this head treats it as faulty (R163, R206, R308); the cause code is the model's choice
(log entry 27). -/
def State.partnerFaulty (s : State) : State := s.claimTakeover 6 s.ao.tb s.ao.tb

/-- A side wins with half of the present carriers, side 1 with more (R133). -/
def State.claimWins (s : State) (applied : Nat) : Bool :=
  if s.side = 0 then decide (s.roster.length ≤ 2 * applied) else decide (s.roster.length < 2 * applied)

/-- Enter TWIN beside the partner. Each head frees the chunks of its own side (R198): a head that served alone leaves the others to the
partner, which takes them up. -/
def State.enterTwin (s : State) (master : Bool) : State :=
  let s := s.enter .twin
  let s := { s with jrnl := { s.jrnl with adopted := false }, pair := { s.pair with recovered := false },
                    dst := { s.dst with freeing := s.dst.freeing.keep fun ref _ => refSide ref == s.side } }
  (s.setFlag (dieF 0) Reg.TKO_STATE_SHARD_MASTER master).resumeFrees []

/-- A head in TWIN that wins a claim holds the lease from then on (R130). -/
def State.leaseWon (s : State) : State :=
  if s.pair.head = .twin then ({ s with pair := { s.pair with leaseAt := s.ao.tb } } : State).setFlag (dieF 0) Reg.TKO_STATE_LEASE true else s

/-- What a won and sealed claim was for. Recovery runs once in a start (R83). -/
def State.claimWon (s : State) (c : Claim) (m : MediaImage) : State :=
  let s := { s with pair := { s.pair with claim := none } }
  let s := (s.setFld (dieF 0) Reg.TKO_EPOCH_EPOCH (c.expect + 1)).setFld (dieF 0) Reg.TKO_EPOCH_HOLDERS c.holders
  let s := (s.tell (.seal (c.expect + 1) c.holders) s.roster).leaseWon
  match c.why with
  | .takeover cause t0 detected => s.takeover cause t0 detected m
  | .handoverIn t0 ports shards => if shards.isEmpty then s.takeBack t0 ports else s.takeover 7 t0 t0 m
  | .soloStart =>
    let s := if s.pair.recovered then s else s.recover m
    ((s.adoptShards).enter .solo).resumeFrees (m.s0.log ++ m.s1.log)
  | .pairStart => s.recover m
  | .rejoin => { (s.enterTwin true) with pair := { (s.enterTwin true).pair with rejoin := 9, handback := s.fps } }

/-- The claim is lost, or has failed: a head that would have taken over enters FENCED (R135, R136); another claim begins again from
the highest epoch reported (R114). -/
def State.claimLost (s : State) (c : Claim) : State :=
  match c.why with
  | .takeover _ _ _ | .handoverIn _ _ _ => ({ s with pair := { s.pair with claim := none } } : State).setLast 6 false |>.enter .fenced
  | w => ({ s with pair := { s.pair with claim := none } } : State).startClaim w (max c.expect c.highest) c.holders

/-- A carrier has answered a CLAIM with its epoch and whether it applied it (R133). -/
def State.claimReply (s : State) (cp epoch : Nat) (applied : Bool) (m : MediaImage) : State :=
  match s.pair.claim with
  | none => s
  | some c =>
    if c.answered.contains cp || !s.inRoster cp then s
    else
      -- R364: an APPLIED with another epoch than NEW counts as not applied
      let s := if applied ∧ epoch ≠ c.expect + 1 then s.event (cpDie cp) 0x20 5 cp else s
      let applied := applied && epoch == c.expect + 1
      let c := { c with answered := c.answered ++ [cp], applied := if applied then c.applied ++ [cp] else c.applied,
                        highest := max c.highest epoch }
      let s := { s with pair := { s.pair with claim := some c } }
      if s.claimWins c.applied.length then s.claimWon c m
      else if s.roster.length ≤ c.answered.length then s.claimLost c else s

/-! ## Rejoin (R114, R159, R306) -/

/-- This head serves, or has recovered a pair start, and its partner is ready in FAWN. -/
def State.canSync (s : State) : Bool :=
  (s.pair.head == .solo || (s.pair.head == .fawn && s.pair.recovered && s.side == 0)) && s.pair.pending.isNone && s.pair.compatible &&
    s.pair.partner == some .fawn && !s.upGroups.isEmpty

/-- Steps 3 to 6 of R159: mirroring begins, with the capsules of the commands in progress; journal, addresses and contexts go to the
joiner, and the map cache is cleaned (R306). -/
def State.beginSync (s : State) : State :=
  let s := { s with pair := { s.pair with rejoin := 3 } }
  let s := (List.range s.variant.sides).foldl (fun s d => s.startRangeOn d 1 0 (2 ^ 64 - 1)) s
  let recs := s.jrnl.own.vals ++ s.jrnl.mirror.vals
  let s := recs.foldl (fun s e => s.send 4 0 0 (.sync (.journal e.off e.r))) s
  let s := s.rdma.qps.keys.foldl (fun s q => s.sendShadow q) s
  let s := s.send 4 0 0 (.sync (.addresses s.ownAddrs s.jrnl.partnerSeq (s.ftl.partnerLsn + 1) s.ftl.partnerPage))
  (s.host.cmds.vals.filter fun c => !c.mute).foldl (fun s c =>
    let m : MirrorCap := { tag := c.tag, op := c.op, fdie := c.fdie, port := c.port, qpn := c.qpn, nsid := c.nsid, sgl := c.sgl,
                           data := if c.sgl.inCapsule then c.data.getD [] else [], arrival := c.arrival, psn := 0, npsn := 0, cls := c.cls,
                           part := c.part, epoch := c.epoch, res := c.result, res2 := c.result2 }
    s.send (vlData c.cls) c.cls c.tag.num (.capsule m)) s

/-- Before the mirror half is written, a serving head that holds the AWK asks the joiner with a nonce whether it lacks it (R229, R622). -/
def State.askJoiner (s : State) : State :=
  if s.boot.awk.isNone then s.beginSync
  else
    let (n, s) := s.random 32
    ({ s with boot := { s.boot with joinNonce := some n }, pair := { s.pair with rejoin := 2 } } : State).send 4 0 0 (.sync (.nonce n))

/-- The joiner's answer: a report whose conditions hold draws the AWK (R622); then the synchronisation goes on (log entry 35). -/
def State.joinerAnswer (s : State) (r : Option (Bytes × Bytes)) : State :=
  if s.pair.rejoin ≠ 2 then s
  else
    let s := match r.bind fun x => s.awkFor x.1 x.2 with
      | some (ct, w) => ({ s with free := s.free + 1 } : State).send 4 0 0 (.sync (.awk ct w))
      | none => s
    ({ s with boot := { s.boot with joinNonce := none } } : State).beginSync

/-- Nothing sent to the partner awaits an acknowledgement. -/
def State.linkIdle (s : State) : Bool := s.pair.groups.vals.all fun g => g.unacked.isEmpty && g.waiting.isEmpty

/-- The CLEAN of R306 is done: no range operation runs, no line is dirty. -/
def State.cleaned (s : State) : Bool := s.ftl.range.isEmpty && !(s.ftl.lines.vals.any Line.d)

/-- Steps 9 and 10 of R159, one port at a time, then the default shard table by moves. -/
def State.handbackNext (s : State) : State :=
  if s.pair.rejoin ≠ 9 ∨ s.pair.giving.isSome ∨ s.pair.head ≠ .twin then s
  else match s.pair.handback with
  | p :: rest => ({ s with pair := { s.pair with handback := rest } } : State).give [p] []
  | [] =>
    let before := s
    let s := { s with pair := { s.pair with rejoin := 0 } }
    (((s.setOwners fun e => e % 2).addFld (dieF 0) (tcGen 0x16) 1).announceShards before)

/-- The serving head's side of the synchronisation. -/
def State.syncNext (s : State) : State :=
  if s.pair.rejoin = 9 then s.handbackNext
  else if !s.canSync then s
  else if s.pair.rejoin = 0 then s.askJoiner
  else if s.pair.rejoin = 3 && s.linkIdle && s.cleaned && s.pair.claim.isNone then
    if s.pair.head = .fawn then
      let s := { (s.enterTwin true) with pair := { (s.enterTwin true).pair with rejoin := 0, handback := [] } }
      s.setLast 0 false
    else s.startClaim .rejoin s.epoch 3
  else s

/-- The joiner's side: it steps to the time of a serving head (R39), loads what the media hold, and erases its dump blocks unless this is a pair start
(R677). It then waits for its
partner to show TWIN. -/
def State.joinSync (s : State) (m : MediaImage) : State :=
  let s := if s.pair.partner = some .fawn then s else s.alignTime
  let seq := s.jrnl.nextSeq
  let lsn := s.ftl.nextLsn
  let s := ((s.loadMedia m).replay (m.s0.log ++ m.s1.log)).nextChunks
  let ftl := { s.ftl with lines := [], nextLsn := max lsn s.ftl.nextLsn }
  { s with ftl := ftl, nand := { s.nand with dumps := if s.pair.partner = some .fawn then s.nand.dumps else [] }, jrnl := { s.jrnl with nextSeq := max seq s.jrnl.nextSeq },
           pair := { s.pair with rejoin := 100 } }

/-! ## Acknowledgements (R122, R138, R140, R142) -/

/-- The CAPSULE of a command is acknowledged: it is accepted, and its packets are acknowledged in their order (R140). -/
def State.capsuleAcked (s : State) (tag qpn : Nat) : State :=
  let s := match s.cmd tag with
    | some c => s.setCmd { c with accepted := true, epoch := if c.accepted then c.epoch else s.epoch }
    | none => s
  match s.qp qpn with
  | none => s
  | some q =>
    let ok := fun (p : Nat × Nat) => match s.cmd p.2 with
      | some c => c.accepted
      | none => true
    match (q.owed.takeWhile ok).getLast? with
    | some (psn, _) => s.sendAck qpn { q with owed := q.owed.dropWhile ok } psn
    | none => s

/-- Is a chunk's removal still on its way to the partner, or before that (R198)? -/
def State.removalOut (s : State) (ref : Nat) : Bool :=
  (s.pair.groups.vals.any fun g => (g.unacked ++ g.waiting).any fun t => match t.msg with
    | .mapupd (.item _ (.fpdel r _ _) _ _ _ _) _ => r == ref
    | .mapupd (.log (.state r _) _ _) _ => r == ref
    | _ => false) ||
  s.pendingItems.any fun i => match i with
    | .fpdel r _ _ => r == ref
    | _ => false

/-- A MAPUPD is acknowledged. -/
def State.updAcked (s : State) (m : MapChange) (lsn : Nat) : State :=
  let s := match m, s.ftl.updOf.find? lsn with
    | .item _ _ _ _ _ _, some txn =>
      let dec := fun (l : SMap JEnt) => l.mapV fun _ e => if e.txn = txn then { e with updates := e.updates - 1 } else e
      { s with jrnl := { s.jrnl with own := dec s.jrnl.own, mirror := dec s.jrnl.mirror } }
    | _, _ => s
  let free := s.dst.freeing.mapV fun ref f => if f.dying && !s.removalOut ref then { f with acked := true } else f
  let s := { s with dst := { s.dst with freeing := free } }
  let open_ := fun (txn : Nat) => (s.jrnl.own.vals ++ s.jrnl.mirror.vals).any fun e => e.txn == txn && decide (0 < e.updates)
  { s with ftl := { s.ftl with updOf := s.ftl.updOf.keep fun l txn => l != lsn || open_ txn } }

/-- A message of this head is acknowledged. -/
def State.onAcked (s : State) (t : TxMsg) : State :=
  match t.msg with
  | .capsule c => s.capsuleAcked c.tag.num c.qpn
  -- a ledger whose PSNs are no longer the phase's has been sent anew since
  | .ledger l => match s.cmd l.tag, (s.qp l.qpn).bind fun q => q.resvOf l.tag l.phase with
    | some c, some r => if r.psn = l.psn then s.setCmd (c.setLed l.phase .acked) else s
    | _, _ => s
  | .jwrite _ r _ => match s.jent r.side r.seq with
    | some e => s.setJent r.side r.seq { e with acked := true }
    | none => s
  | .mapupd m lsn => s.updAcked m lsn
  | _ => s

/-! ## Messages of the partner -/

/-- HEARTBEAT (R116, R127, R130). -/
def State.onHeartbeat (s : State) (g : Nat) (h : Heartbeat) : State :=
  let ok := h.variant == s.variant && h.side != s.side && h.formatVer == s.fld dieB Reg.BOOT_FORMAT_FORMAT
  if (s.group g).deaf then s
  else if !ok then
    let s := if s.pair.rxAt.isNone || s.pair.compatible then s.event (dieF g) 0x15 8 g else s
    let s := (s.setFld (dieF 0) Reg.TKO_STATE_PARTNER h.state.code).setFld (dieF g) Reg.CHL_STATUS_PARTNER_SIDE h.side
    { s with pair := { s.pair with compatible := false, rxAt := some s.ao.tb } }
  else
    let now := s.ao.tb
    let s := { s with pair := { s.pair with compatible := true, partner := some h.state, rxCount := h.count, rxAt := some now, rxSent := h.sent } }
    let s := (s.setFld (dieF 0) Reg.TKO_STATE_PARTNER h.state.code).setFld (dieF g) Reg.CHL_STATUS_PARTNER_SIDE h.side
    let s := match s.pair.sentHb.find? fun x => x.1 == h.echo with
      | some (_, t) =>
        let s := (s.setFld (dieF g) Reg.CHL_RTT_LAST_NS (now - t)).maxFld (dieF g) Reg.CHL_RTT_MAX_NS (now - t)
        if s.pair.head == .twin && s.flag (dieF 0) Reg.TKO_STATE_LEASE && decide (now ≤ t + 4000) then
          { s with pair := { s.pair with leaseAt := now } } else s
      | none => s
    let serving := h.state == .twin || h.state == .solo
    let s := if serving && s.epoch < h.epoch && (s.pair.head == .fawn || (s.pair.head == .twin && h.state == .twin)) && s.pair.claim.isNone then
        s.setFld (dieF 0) Reg.TKO_EPOCH_EPOCH h.epoch else s
    if s.pair.head == .fawn && s.pair.rejoin == 100 && h.state == .twin then
      let s := s.enterTwin false
      { s with pair := { s.pair with rejoin := 0 } }
    else s

/-- CAPSULE (R140): stored under its tag in place of what held its identifier; what it does to the controller's state, and to the PSN that
the queue pair expects, the shadow follows (R145). -/
def State.onCapsule (s : State) (c : MirrorCap) : State :=
  let same := fun (x : MirrorCap) => x.tag.cntlid == c.tag.cntlid && x.tag.qid == c.tag.qid && x.tag.cid == c.tag.cid
  let gone := ((s.pair.capsules.keep fun _ x => same x).keys)
  let p := { s.pair with capsules := (s.pair.capsules.keep fun _ x => !same x).insert c.tag.num c,
                         ledger := s.pair.ledger.keep fun k _ => !gone.contains (k / 4) || k / 4 == c.tag.num }
  let p := { p with dropped := p.dropped.filter fun t => !gone.contains t }
  let key := queueKey c.tag.cntlid c.tag.qid
  let p := match p.shQueues.find? key with
    | some u => { p with shQueues := p.shQueues.insert key { u with issue := (c.tag.issue + 1) % 2 ^ 24 } }
    | none => p
  let p := match p.shCtrls.find? c.tag.cntlid with
    | none => p
    | some k =>
      let put := fun (k : Ctrl) => { p with shCtrls := p.shCtrls.insert k.cntlid k }
      if c.res.isSome then p
      else match c.op with
      | .keepAlive => put { k with kaAt := c.arrival }
      | .setFeature fid val save => put (k.setFeature fid val c.arrival save).2.2
      | .propSet off val => put (k.setProperty off val).2
      | .asyncEvent => put (if k.aers.length < 8 then { k with aers := k.aers ++ [c.tag] } else k)
      | .attestNonce n => put { k with nonce := some n }
      | .getLog lid _ _ false => put { k with masked := k.masked.filter fun t => some t != eventOf lid, changed := if lid = 4 then [] else k.changed }
      | .disconnect => if c.tag.qid = 0 then { p with shCtrls := p.shCtrls.erase k.cntlid, shQueues := p.shQueues.keep fun q _ => q / 256 != k.cntlid }
          else { p with shQueues := p.shQueues.erase key }
      | .attach l => { p with shCtrls := p.shCtrls.mapV fun i x => if l.contains i && !x.attached.contains c.nsid then
          { x with attached := x.attached ++ [c.nsid] } else x }
      | .detach l => { p with shCtrls := p.shCtrls.mapV fun i x => if l.contains i then
          { x with attached := x.attached.filter (· != c.nsid) } else x }
      | _ => p
  let next := fun (e : QpExport) => { e with epsn := psnAfter e.epsn [(c.psn, c.npsn)] }
  { s with pair := p, rdma := { s.rdma with shadows := if c.npsn = 0 then s.rdma.shadows else s.rdma.shadows.adjust c.qpn next } }

/-- LEDGER (R142); the shadow's send PSN follows (R147). -/
def State.onLedger (s : State) (l : LedgerRec) : State :=
  let p := { s.pair with ledger := s.pair.ledger.insert (ledgerKey l.tag l.phase) l }
  let p := if l.phase = .response then
      { p with shCtrls := p.shCtrls.mapV fun _ k => { k with aers := k.aers.filter fun t => t.num != l.tag } } else p
  let next := fun (e : QpExport) => { e with spsn := psnAfter e.spsn [(l.psn, l.count)] }
  { s with pair := p, rdma := { s.rdma with shadows := s.rdma.shadows.adjust l.qpn next } }

/-- A record of the partner's stands in this head's memory (R138). -/
def State.putRec (s : State) (off : Nat) (r : JRec) : State :=
  let e : JEnt := { adoptedEnt r off s.ao.tb with intent := false, copies := 0, placed := 0 }
  let s := s.setJent r.side r.seq e
  if r.side = s.side then { s with jrnl := { s.jrnl with nextSeq := max s.jrnl.nextSeq (r.seq + 1), used := s.jrnl.used + r.size } }
  else { s with jrnl := { s.jrnl with partnerSeq := max s.jrnl.partnerSeq (r.seq + 1) } }

/-- A record copied at a rejoin (R159 step 4). One of this head's side is the serving head's to program and counts as programmed here (log
entry 207). -/
def State.copyRec (s : State) (off : Nat) (r : JRec) : State :=
  let s := s.putRec off r
  if r.side = s.side then s.setJent r.side r.seq (adoptedEnt r off s.ao.tb) else s

/-- JWRITE (R141, R144, R163). A record whose CRC fails, or whose value length disagrees with its parts (R206), is not part of the
journal. -/
def State.onJwrite (s : State) (g off : Nat) (r : JRec) (crcOk : Bool) : State :=
  if s.halfSize < off + r.size then (s.event (dieF g) 0x15 5 g).partnerFaulty
  else if !crcOk then s
  else if !r.lengthOk then s.event (dieC (s.tileOf r.shard)) 0x31 4 noInst
  else s.putRec off r

/-- RELEASE (R282): the sender has done with the records of a side up to a SEQ that it destages. -/
def State.onRelease (s : State) (side seq : Nat) : State :=
  let l := ((if side = s.side then s.jrnl.own else s.jrnl.mirror).keep fun q e => decide (q ≤ seq) && s.owner e.r.shard != s.side).keys
  (l.foldl (fun s q => s.releaseRec side q) s).eraseJournal

/-- A LOCK request (R138, R139). A holder whose lock was withdrawn asks again: it had not begun, and its withdrawal counts (R72). -/
def State.onLockRequest (s : State) (tag sh : Nat) (spans : List (Nat × Nat)) (excl : Bool) (cls : Nat) : State :=
  let is := fun (e : LockEnt) => e.tag == tag && e.shard == sh
  match s.host.locks.find? is with
  | some e =>
    if e.granted && e.withdrawn then
      let s := s.setLocks (s.host.locks.map fun x => if is x then { x with granted := false } else x)
      (s.addFld (dieF 0) Reg.RLK_PREEMPT_CNT_COUNT 1).countLocks
    else s
  | none =>
    let e : LockEnt := { tag := tag, side := 1 - s.side, fdie := 0, shard := sh, spans := spans, excl := excl, cls := cls, entered := false,
                         granted := false, begun := false, withdrawn := false, order := 0, behind := none }
    if s.owner sh = s.side then s.requestLock e else s.setLocks (s.host.locks ++ [e])

/-- A LOCK grant of the partner's (R138, R139): the time since the request is the latency of RLK_REMOTE_LAT (R108); it says whether the owner's
side has F ≤ RESV (R290). -/
def State.onLockGrant (s : State) (tag sh : Nat) (full : Bool) : State :=
  match s.host.locks.find? fun e => e.tag == tag && e.shard == sh with
  | none => s
  | some e =>
    let n := s.host.lockOrder + 1
    let s := s.setLocks (s.host.locks.map fun x => if x = e then
      { x with granted := true, withdrawn := false, order := if x.order = 0 then n else x.order } else x)
    let s := { s with host := { s.host with lockOrder := n, ownerFull := full } }
    let s := match s.host.remote.find? tag with
      | some t => (s.setFld (dieF e.fdie) Reg.RLK_REMOTE_LAT_LAST_NS (s.since t)).maxFld (dieF e.fdie) Reg.RLK_REMOTE_LAT_MAX_NS (s.since t)
      | none => s
    ({ s with host := { s.host with remote := s.host.remote.erase tag, unsettled := s.host.unsettled.filter (· != tag) } } : State).countLocks

/-- A LOCK free: the partner's command releases its lock, or this head's command loses its own to R72 unless it has begun; it asks again,
and resolves its references anew. -/
def State.onLockFree (s : State) (tag sh : Nat) : State :=
  let is := fun (e : LockEnt) => e.tag == tag && e.shard == sh
  match s.host.locks.find? is with
  | none => s
  | some e =>
    if e.side ≠ s.side then (s.setLocks (s.host.locks.filter fun x => !is x)).enterWaiters.countLocks
    else if e.begun || !e.granted then s
    else
      let s := (s.setLocks (s.host.locks.map fun x => if is x then { x with granted := false, withdrawn := true } else x)).unresolve tag
      (s.send (vlLock e.cls) e.cls tag (.lock (.request sh e.spans e.excl e.cls))).countLocks

/-- LOCK (R72, R138, R139). -/
def State.onLock (s : State) (tag : Nat) (m : LockMsg) : State :=
  match m with
  | .request sh spans excl cls => s.onLockRequest tag sh spans excl cls
  | .grant sh full => s.onLockGrant tag sh full
  | .free sh => s.onLockFree tag sh
  | .move sh es => s.moveIn sh es

/-- Row of R206 that an item of the partner breaks. -/
def State.itemBad (s : State) (pid : Nat) (it : Item) : Option Nat :=
  match it with
  | .fpadd ref _ _ => if pOwner pid ≠ refDomain ref then some 1 else none
  | .count ref side _ => if refNum ref = 0 ∨ (s.chunk ref).state = 3 then some 2 else if side = s.side then some 3 else none
  | _ => none

/-- MAPUPD (R138, R206, R270, R308), whose message begins with frame `seq` of group `g`. A change waits in the queue for its pages; page
notices and read points take effect at once. A removal leaves this head's filter at once, and is acknowledged once the confirmations of
its chunk that have begun are finished (R198 step 3). -/
def State.onMapupd (s : State) (g seq : Nat) (m : MapChange) (lsn : Nat) : State :=
  let put := fun (s : State) =>
    let s := { s with ftl := { s.ftl with todo := s.ftl.todo ++ [Change.upd g seq m lsn] } }
    s.runChanges s.ftl.todo.length
  match m with
  | .item pid it _ _ _ _ =>
    match s.itemBad pid it with
    | some row => (s.event (dieC 0) 0x31 row noInst).partnerFaulty
    | none => match it with
      | .fpdel ref _ fp =>
        let s := put (s.filterDelete (refDomain ref) fp)
        if s.chunkInUse ref then { s with ftl := { s.ftl with holds := s.ftl.holds ++ [(g, seq, ref)] } } else s
      | _ => put s
  | .log _ _ _ => put s
  | .pageNotice pid side l d =>
    if pKind pid = 1 ∧ s.owner (shardOf (pOwner pid + 1) (pIndex pid * 512)) = s.side then (s.event (dieM 0) 0x24 6 noInst).partnerFaulty
    else
      let s := { s with ftl := { s.ftl with dir := s.ftl.dir.insert pid d } }
      match s.line pid with
      | some x => if side ≠ s.side ∧ x.rlsn ≤ l then s.setLine pid { x with r := false } else s
      | none => s
  | .readPoint e => { s with ftl := { s.ftl with partnerPoint := e } }

/-- SYNC (R159, R229, R622). A joiner that is sent the AWK records its own copy of it. -/
def State.onSync (s : State) (b : SyncBody) : State :=
  match b with
  | .report r => s.joinerAnswer r
  | b =>
    if s.pair.head ≠ .fawn then s
    else match b with
    | .addresses l seq lsn pg =>
      { s with pair := { s.pair with addrs := l }, jrnl := { s.jrnl with nextSeq := max seq s.jrnl.nextSeq },
               ftl := { s.ftl with nextLsn := max lsn s.ftl.nextLsn, logIndex := if pg = 0 then s.ftl.logIndex else s.ftl.logIndex ++ [(lsn - 1, pg)] } }
    | .nonce n => s.send 4 0 0 (.sync (.report (if s.boot.awk.isSome then none else some (s.report n, s.calRow))))
    | .awk ct w => match s.awkFrom ct w with
      | some awk => (s.setAwk awk).log (.change (.enrolled s.serial (some (s.ownCopy awk))))
      | none => s
    | .journal off r => s.copyRec off r
    | .report _ => s

/-- SHADOWQP (R442). A context whose queue is gone leaves the commands of that queue to be dropped (R106). -/
def State.onShadow (s : State) (create : Bool) (e : QpExport) (k : Option Ctrl) (u : Option Queue) : State :=
  if create then
    let p := match k with
      | some k => { s.pair with shCtrls := s.pair.shCtrls.insert k.cntlid k }
      | none => if e.qid = 0 then { s.pair with shCtrls := s.pair.shCtrls.erase e.cntlid } else s.pair
    let p := match u with
      | some u => { p with shQueues := p.shQueues.insert (queueKey u.cntlid u.qid) u }
      | none => { p with shQueues := p.shQueues.erase (queueKey e.cntlid e.qid),
                         dropped := p.dropped ++ (p.capsules.keep fun t c => c.qpn == e.qpn && !p.dropped.contains t).keys }
    { s with pair := p, rdma := { s.rdma with shadows := s.rdma.shadows.insert e.qpn e } }
  else
    let p := { s.pair with shQueues := s.pair.shQueues.erase (queueKey e.cntlid e.qid),
                           shCtrls := if e.qid = 0 then s.pair.shCtrls.erase e.cntlid else s.pair.shCtrls }
    { s with pair := p, rdma := { s.rdma with shadows := s.rdma.shadows.erase e.qpn } }

/-- SHARDSET (R719). -/
def State.onShardset (s : State) (owners : BitVec 256) (gen : Nat) : State :=
  let t := (s.setOwners fun e => if owners.getLsbD e then 1 else 0).setFld (dieF 0) (tcGen 0x16) gen
  (t.moveShards (shardsMoved s t)).sendMoves

/-- NOTICE (R148, R150): the fault arose before it reached this head, by a time that the manual bounds only (log entry 28). -/
def State.onNotice (s : State) (cause : Nat) : State :=
  let t0 := s.ao.tb - Config.freeNat s.free % 801
  ({ s with free := s.free + 1 } : State).claimTakeover cause t0 s.ao.tb

/-- HANDOVER (R158). -/
def State.onHandover (s : State) (ports shards : List Nat) : State :=
  if s.pair.head == .twin && s.pair.faulted.isNone && s.pair.claim.isNone then
    s.startClaim (.handoverIn s.ao.tb ports shards) s.epoch (if shards.isEmpty then 3 else 2 ^ s.side) else s

/-- The effect of a message of the partner on group `g` that begins with frame `seq`. -/
def State.applyMsg (s : State) (g seq tag : Nat) : ChlMsg → State
  | .heartbeat h => s.onHeartbeat g h
  | .time off rtt src => s.timeExchange off rtt src
  | .notice c => s.onNotice c
  | .handover p sh => s.onHandover p sh
  | .shardset o n => s.onShardset o n
  | .capsule c => s.onCapsule c
  | .ledger l => s.onLedger l
  | .jwrite off r ok => s.onJwrite g off r ok
  | .release side seq => s.onRelease side seq
  | .lock m => s.onLock tag m
  | .mapupd m lsn => s.onMapupd g seq m lsn
  | .sync b => s.onSync b
  | .shadowqp c e k u => s.onShadow c e k u

/-! ## Receiving (R118 to R125, R162, R163) -/

/-- The tag whose command holds an identifier on this head: of an accepted command of the partner, or of a command of its own. -/
def State.holder (s : State) (tag : Nat) : Option Nat :=
  let same := fun (t : Tag) => t.num / 2 ^ 24 == tag / 2 ^ 24
  ((s.pair.capsules.vals.find? fun c => same c.tag).map fun c => c.tag.num).or ((s.host.cmds.vals.find? fun c => same c.tag).map fun c => c.tag.num)

/-- A message that R162 discards: its EPOCH is not this head's, or its TAG is not that of the command which holds its identifier. A CAPSULE
brings its command: an older ISSUE than the holder's is not the holder's. A LOCK request may come before its command's CAPSULE, on another
lane (log entry 127). -/
def State.stale (s : State) (epoch tag : Nat) (m : ChlMsg) : Bool :=
  let other := (s.holder tag).any (· != tag)
  match m with
  | .heartbeat _ | .time _ _ _ | .sync _ => false
  | .capsule c =>
    let older := (s.pair.capsules.vals.any fun x => x.tag.num / 2 ^ 24 == tag / 2 ^ 24 && x.tag.num != tag &&
      decide ((x.tag.issue + 2 ^ 24 - c.tag.issue) % 2 ^ 24 < 2 ^ 23))
    epoch != s.epoch || c.tag.num != tag || older
  | .lock (.request _ _ _ _) => epoch != s.epoch || other
  | _ => epoch != s.epoch || (tag != 0 && s.holder tag != some tag)

/-- The frames of a message that are all here in order: it takes effect, or is discarded (R162, R163). -/
def State.deliver (s : State) (g : Nat) (fs : List Bytes) (m : ChlMsg) : State :=
  let f := fs.headD []
  if fs.any fun x => frameType x != m.code || !(vlsOf (frameType x)).contains (frameVl x) then
    (s.addFld (dieF g) Reg.CHL_DISCARD_VIOL fs.length).event (dieF g) 0x15 3 g
  else if !framesWhole fs then s.event (dieF g) 0x15 4 g
  else if s.stale (frameEpoch f) (frameTag f) m then s.addFld (dieF g) Reg.CHL_DISCARD_STALE 1
  else s.applyMsg g (frameSeq f) (frameTag f) m

/-- A CRC error on a lane (R125, R163). A message frame lost leaves a gap (R123). -/
def State.chlCrcError (s : State) (g lane : Nat) (gap : Bool) : State :=
  let now := s.ao.tb
  let x := s.group g
  let l := x.lanes.getD lane Lane.fresh
  let x := { x with lanes := x.lanes.insert lane { l with errs := recentMs now l.errs ++ [now], cleanSince := now },
                    gapSince := if gap then some (x.gapSince.getD now) else x.gapSince }
  (s.setGroup g x).addFld (dieF g) Reg.CHL_ERR_CRC_ERR 1

/-- What the header of every good frame does: ACK covers messages (R122), credits come back (R121). -/
def State.chlHead (s : State) (g : Nat) (f : Bytes) : State :=
  let x := s.group g
  let now := s.ao.tb
  let covered := fun (t : TxMsg) => ackCovers (t.seq + t.frames - 1) (frameAck f)
  let done := x.unacked.filter covered
  let left := x.unacked.filter fun t => !covered t
  let x := { x with lastFrame := now, unacked := left,
                    ackSince := if left.isEmpty then none else if done.isEmpty then x.ackSince else some now,
                    credits := match frameCredit f with
                      | some (vl, n) => x.credits.insert vl (x.credits.getD vl 0 + n)
                      | none => x.credits }
  let s := s.setGroup g x
  let s := if done.isEmpty then s else s.setFlag (dieF g) Reg.CHL_STATUS_REPLAYING false
  done.foldl (fun s t => s.onAcked t) s

/-- The frames held that follow the last one applied without a gap; `fuel` bounds their number. -/
def Group.run (x : Group) (seq : Nat) : Nat → List RxFrame
  | 0 => []
  | fuel + 1 => match x.ahead.find? fun p => p.seq == seq with
    | some p => p :: x.run ((seq + 1) % 65536) fuel
    | none => []

/-- The frames of the first message of a run, up to its last one; none while that is missing. -/
def firstMessage : List RxFrame → Option (List RxFrame)
  | [] => none
  | p :: l => if frameEom p.bytes then some [p] else (firstMessage l).map fun m => p :: m

/-- Messages that are whole and in order take effect one after another, and their frames' credits are owed to the partner (R121, R122);
`fuel` bounds their number. -/
def State.chlRun (s : State) (g : Nat) : Nat → State
  | 0 => s
  | fuel + 1 =>
    let x := s.group g
    let run := x.run x.rxSeq (x.ahead.length + 1)
    match run, firstMessage run with
    | p :: _, some l =>
      let owed := l.foldl (fun (o : SMap Nat) q => o.insert (frameVl q.bytes) (o.getD (frameVl q.bytes) 0 + 1)) x.owed
      let s := s.setGroup g { x with ahead := x.ahead.filter fun q => !l.contains q, rxSeq := (x.rxSeq + l.length) % 65536, owed := owed }
      (s.deliver g (l.map RxFrame.bytes) p.msg).chlRun g fuel
    | _, _ => s.setGroup g { x with gapSince := if x.ahead.length ≤ run.length then none else some (x.gapSince.getD s.ao.tb) }

/-- A message frame without a credit for its lane (R163): counted; with 16 in 1 ms the group retrains. -/
def State.chlNoCredit (s : State) (g : Nat) : State :=
  let x := s.group g
  let l := recentMs s.ao.tb x.noCredit ++ [s.ao.tb]
  let s := (s.setGroup g { x with noCredit := l }).addFld (dieF g) Reg.CHL_DISCARD_VIOL 1
  if 16 ≤ l.length then s.groupLost g true else s

/-- A good message frame by its SEQ (R121, R123, R163): one held or applied already is dropped, one more than 256 beyond the expected SEQ is
discarded with a NAK, any other is held, in order or ahead of a gap, if the partner held a credit for it. -/
def State.chlFrame (s : State) (g : Nat) (f : Bytes) (m : ChlMsg) : State :=
  let x := s.group g
  let run := x.run x.rxSeq (x.ahead.length + 1)
  let d := seqDist ((x.rxSeq + run.length) % 65536) (frameSeq f)
  let vl := frameVl f
  if 32768 ≤ d ∨ x.ahead.any (fun p => p.seq == frameSeq f) then s
  else if 256 < d then s.sendChlNak g
  else if vl < 5 ∧ x.rxCredits.getD vl 0 = 0 then s.chlNoCredit g
  else s.setGroup g { x with ahead := x.ahead ++ [{ seq := frameSeq f, bytes := f, msg := m }],
                             rxCredits := x.rxCredits.insert vl (x.rxCredits.getD vl 0 - 1),
                             gapSince := if d = 0 then x.gapSince else some (x.gapSince.getD s.ao.tb) }

/-- The frames of a message row, one after another, on a group that is up (R122, R123, R163). -/
def State.chlFrames (s : State) (g : Nat) (m : ChlMsg) : List (Nat × Bytes) → State
  | [] => s
  | (lane, f) :: l =>
    let s := if !s.groupUp g then s
      else if !frameOk f then s.chlCrcError g lane true
      else
        let s := (s.chlHead g f).chlFrame g f m
        if s.groupUp g then s.chlRun g ((s.group g).ahead.length + 1) else s
    s.chlFrames g m l

/-- What waits on a group goes as far as it can. -/
def State.chlDrain (s : State) (g : Nat) : State := s.drainGroup g ((s.group g).waiting.length + 1)

/-- The frames of a message arrive (R117 to R123). -/
def State.chlMsg (s : State) (h : ChlHdr) (m : ChlMsg) : State := (s.chlFrames h.group m h.frames).chlDrain h.group

/-- A control frame of a TYPE arrives (R119): ACK and credits, then its effect. -/
def State.chlControl (s : State) (h : ChlHdr) (ty : Nat) (k : State → State) : State :=
  (h.frames.foldl (fun s lf =>
    if !s.groupUp h.group then s
    else if !frameOk lf.2 then s.chlCrcError h.group lf.1 false
    else
      let s := s.chlHead h.group lf.2
      if frameType lf.2 = ty then k s else (s.addFld (dieF h.group) Reg.CHL_DISCARD_VIOL 1).event (dieF h.group) 0x15 3 h.group) s).chlDrain h.group

/-- A TRAIN frame on a lane (R125, R714): an enabled lane that is not retired is active; with 8 of them at both ends a lost group
returns, as after a reset (R167). -/
def State.chlTrain (s : State) (g lane peer : Nat) : State :=
  let d := dieF g
  let x := s.group g
  let l := x.lanes.getD lane Lane.fresh
  if s.variant.sides ≤ g ∨ !s.flag d Reg.CHL_CTRL_EN ∨ s.fld d Reg.CHL_CTRL_LANE_EN / 2 ^ lane % 2 = 0 ∨ l.retired then s
  else
    let up := s.fld d Reg.CHL_STATUS_LANES_UP ||| 2 ^ lane
    let s := s.setFld d Reg.CHL_STATUS_LANES_UP up
    let n := ((List.range 16).filter fun i => up / 2 ^ i % 2 == 1).length
    if s.groupUp g ∨ n < 8 ∨ peer < 8 then s
    else (s.setGroup g { Group.reset with lanes := x.lanes, lastFrame := s.ao.tb }).setFlag d Reg.CHL_STATUS_UP true

end Sys2Proof.Machine
end

