-- ==== Sys2Proof/Machine/PairRows.lean ====
section
/-! DEFINITION. The two heads as commands (spec/03): the Chamois link, heartbeats and witness, claims, takeover, handover, rejoin. -/

namespace Sys2Proof.Machine

open Sys2Proof

/-! ## Frames of the link -/

/-- CHL_IDLE (R122): credits and ACK. -/
def execChlIdle (h : ChlHdr) (s : State) : Res := .next (s.chlControl h chlIdleType id).settle

/-- A replay of everything not acknowledged begins (R123): every frame goes again in the order of SEQ. -/
def State.replayFrom (s : State) (g : Nat) : State :=
  let x := s.group g
  match x.unacked.head? with
  | some t =>
    let s := (s.setGroup g { x with ackSince := some s.ao.tb }).addFld (dieF g) Reg.CHL_ERR_REPLAYS 1
    let s := (s.setFlag (dieF g) Reg.CHL_STATUS_REPLAYING true).emit (.chlReplay g t.seq)
    x.unacked.foldl (fun s t => s.emitMsg g t) s
  | none => s

/-- CHL_NAK (R123): every frame after ACK is sent again. -/
def execChlNak (h : ChlHdr) (s : State) : Res := .next (s.chlControl h chlNakType fun s => s.replayFrom h.group).settle

/-- CHL_TRAIN (R125, R714): a TRAIN frame on a lane; `peer` lanes of the group are active at the partner's end. -/
def execChlTrain (group lane peer : Nat) (crcOk : Bool) (s : State) : Res :=
  if crcOk then .next (s.chlTrain group lane peer) else .next (s.chlCrcError group lane false)

/-- HEARTBEAT (R116, R127, R130). -/
def execHeartbeat (h : ChlHdr) (hb : Heartbeat) (s : State) : Res := .next (s.chlMsg h (.heartbeat hb)).settle

/-- TIME (R40, R715): offset and round trip as this head measures them, and whether the partner has a locked source. -/
def execTime (h : ChlHdr) (offset : Int) (roundTrip : Nat) (hasSource : Bool) (s : State) : Res :=
  .next (s.chlMsg h (.time offset roundTrip hasSource)).settle

/-- NOTICE (R148, R150). -/
def execNotice (h : ChlHdr) (cause : Nat) (s : State) : Res := .next (s.chlMsg h (.notice cause)).settle

/-- HANDOVER (R158). -/
def execHandover (h : ChlHdr) (ports shards : List Nat) (s : State) : Res := .next (s.chlMsg h (.handover ports shards)).settle

/-- SHARDSET (R719). -/
def execShardset (h : ChlHdr) (owners : BitVec 256) (gen : Nat) (s : State) : Res := .next (s.chlMsg h (.shardset owners gen)).settle

/-- CAPSULE (R140). -/
def execCapsule (h : ChlHdr) (c : MirrorCap) (s : State) : Res := .next (s.chlMsg h (.capsule c)).settle

/-- LEDGER (R142). -/
def execLedger (h : ChlHdr) (l : LedgerRec) (s : State) : Res := .next (s.chlMsg h (.ledger l)).settle

/-- JWRITE (R141, R163). -/
def execJwrite (h : ChlHdr) (off : Nat) (r : JRec) (crcOk : Bool) (s : State) : Res := .next (s.chlMsg h (.jwrite off r crcOk)).settle

/-- RELEASE (R282). -/
def execRelease (h : ChlHdr) (side seq : Nat) (s : State) : Res := .next (s.chlMsg h (.release side seq)).settle

/-- LOCK (R72, R139). -/
def execLock (h : ChlHdr) (m : LockMsg) (s : State) : Res := .next (s.chlMsg h (.lock m)).settle

/-- MAPUPD (R138, R270). -/
def execMapupd (h : ChlHdr) (m : MapChange) (lsn : Nat) (s : State) : Res := .next (s.chlMsg h (.mapupd m lsn)).settle

/-- SYNC (R159). -/
def execSync (h : ChlHdr) (b : SyncBody) (s : State) : Res := .next (s.chlMsg h (.sync b)).settle

/-- SHADOWQP (R442). -/
def execShadowqp (h : ChlHdr) (create : Bool) (q : QpExport) (k : Option Ctrl) (u : Option Queue) (s : State) : Res :=
  .next (s.chlMsg h (.shadowqp create q k u)).settle

/-! ## Timers of the link -/

/-- CHL_GAP_TIMEOUT (R123): a gap has lasted 1 µs. -/
def execChlGapTimeout (group : Nat) (s : State) : Res :=
  let x := s.group group
  match x.gapSince with
  | some t => if s.groupUp group && decide (t + 1000 ≤ s.ao.tb) then
      .next ((s.setGroup group { x with gapSince := some s.ao.tb }).sendChlNak group) else .next s
  | none => .next s

/-- A message has not been delivered for 100 µs after it was first sent (R162): the oldest one that is not acknowledged, unless it is a
MAPUPD, whose acknowledgement may wait (R198, R270; log entry 208). -/
def State.undelivered (s : State) (g : Nat) : Bool :=
  match (s.group g).unacked.head? with
  | some t => decide (t.sentAt + 100000 ≤ s.ao.tb) && t.msg.code != 0x31
  | none => false

/-- CHL_ACK_TIMEOUT (R123, R162): ACK has not advanced for 2 µs with frames outstanding: they are sent again; after 100 µs the group is
lost. -/
def execChlAckTimeout (group : Nat) (s : State) : Res :=
  match (s.group group).ackSince with
  | some t =>
    if !(s.groupUp group && decide (t + 2000 ≤ s.ao.tb)) then .next s
    else if s.undelivered group then .next (s.groupLost group false).settle
    else .next (s.replayFrom group)
  | none => .next s

/-- CHL_LANE_RETIRE (R125): more than 16 CRC errors of a lane within 1 ms; a group with fewer than 8 active lanes is lost. -/
def execChlLaneRetire (group lane : Nat) (s : State) : Res :=
  let x := s.group group
  let l := x.lanes.getD lane Lane.fresh
  if l.retired ∨ (recentMs s.ao.tb l.errs).length ≤ 16 then .next s
  else
    let up := s.fld (dieF group) Reg.CHL_STATUS_LANES_UP
    let s := s.setGroup group { x with lanes := x.lanes.insert lane { l with retired := true, errs := [], cleanSince := s.ao.tb } }
    .next (s.setFld (dieF group) Reg.CHL_STATUS_LANES_UP (up - (if up / 2 ^ lane % 2 = 1 then 2 ^ lane else 0)))

/-- CHL_LANE_RETURN (R125): a retired lane has trained without error for 100 ms. -/
def execChlLaneReturn (group lane : Nat) (s : State) : Res :=
  let x := s.group group
  let l := x.lanes.getD lane Lane.fresh
  if !l.retired ∨ s.ao.tb < l.cleanSince + 100000000 then .next s
  else .next ((s.setGroup group { x with lanes := x.lanes.insert lane { l with retired := false } }).chlTrain group lane 0)

/-- CHL_GROUP_LOST (R125, R713): fewer than 8 active lanes, or no frame but TRAIN for 2 µs. -/
def execChlGroupLost (group : Nat) (s : State) : Res :=
  let up := s.fld (dieF group) Reg.CHL_STATUS_LANES_UP
  let n := ((List.range 16).filter fun i => up / 2 ^ i % 2 == 1).length
  if s.groupUp group && (decide (n < 8) || decide ((s.group group).lastFrame + 2000 ≤ s.ao.tb)) then .next (s.groupLost group false).settle
  else .next s

/-- CHL_IDLE_SEND (R125, R713): an active lane with nothing else to send; of a lost group every enabled lane sends TRAIN. -/
def execChlIdleSend (group lane : Nat) (s : State) : Res :=
  let d := dieF group
  if s.groupUp group then
    if s.fld d Reg.CHL_STATUS_LANES_UP / 2 ^ lane % 2 = 1 then .next (s.controlFrame group chlIdleType (.chlIdle group lane)) else .next s
  else if s.flag d Reg.CHL_CTRL_EN && s.fld d Reg.CHL_CTRL_LANE_EN / 2 ^ lane % 2 == 1 then
    .next (s.controlFrame group chlTrainType (.chlTrain group lane))
  else .next s

/-! ## Heartbeat, witness, lease -/

/-- HEARTBEAT_SEND (R127, R149): on every group, unless the head has raised a fault. -/
def execHeartbeatSend (s : State) : Res :=
  if s.pair.faulted.isSome || s.pair.head == .off || s.pair.head == .boot then .next s
  else
    let n := (s.pair.hbCount + 1) % 2 ^ 32
    let now := s.ao.tb
    let hb : Heartbeat := { side := s.side, state := s.pair.head, epoch := s.epoch, variant := s.variant,
                            formatVer := s.fld dieB Reg.BOOT_FORMAT_FORMAT, health := s.health, count := n, echo := s.pair.rxCount, sent := now }
    let sent := (s.pair.sentHb.filter fun x => decide (now ≤ x.2 + 4000)) ++ [(n, now)]
    let s := { s with pair := { s.pair with hbCount := n, sentHb := sent } }
    .next (s.upGroups.foldl (fun s g => s.sendOn g 0 0 0 (.heartbeat hb)) s)

/-- The three witness carriers (R128). -/
def State.witnesses (s : State) : List Nat :=
  [s.fld (dieF 0) Reg.TKO_WITNESS_CARRIER0, s.fld (dieF 0) Reg.TKO_WITNESS_CARRIER1, s.fld (dieF 0) Reg.TKO_WITNESS_CARRIER2]

/-- WITNESS_WRITE_TICK (R128, R149): a fenced head writes too. -/
def execWitnessWriteTick (s : State) : Res :=
  if s.pair.head == .off then .next s
  else
    let n := (s.pair.hbCount + (if s.pair.faulted.isSome then 1 else 0)) % 2 ^ 32
    let s := { s with pair := { s.pair with hbCount := n } }
    .next (s.tell (.witWrite (witnessValue n s.pair.head.code s.health s.epoch)) s.witnesses)

/-- PARTNER_SILENCE (R128, R129): no HEARTBEAT for 3 µs; the first of the two reads. -/
def execPartnerSilence (s : State) : Res :=
  if s.pair.head == .twin && s.pair.faulted.isNone && s.pair.claim.isNone && s.pair.silence.isNone && s.pair.deferTill.isNone &&
      decide (s.pair.rxAt.getD s.pair.leaseAt + 3000 ≤ s.ao.tb) then
    let s := { s with pair := { s.pair with silence := some s.ao.tb } }
    .next (s.tell (.witRead (1 - s.side)) s.witnesses)
  else .next s

/-- The witness reads that carriers have answered are over. -/
def State.witnessAnswers (s : State) (cps : List Nat) : State :=
  cps.foldl (fun s cp => (s.answered cp SfbReq.isWitRead).answered cp SfbReq.isWitRead) s

/-- WITNESS_EVALUATE (R129, R135): the second read, 2 µs after the first and not before 5 µs of silence (R150), with what the witness
carriers that answered held at the two reads: carrier, both COUNTs, HEALTH. -/
def execWitnessEvaluate (answers : List (Nat × Nat × Nat × Nat)) (s : State) : Res :=
  match s.pair.silence with
  | none => .next s
  | some first =>
    if s.pair.head != .twin || s.pair.faulted.isSome || decide (s.ao.tb < first + 2000) ||
        decide (s.ao.tb < s.pair.rxAt.getD s.pair.leaseAt + 5000) then .next s
    else
      let l := answers.filter fun a => s.witnesses.contains a.1
      let alive := decide (2 ≤ l.length) && l.any fun a => a.2.1 != a.2.2.1
      let s := (s.tell (.witRead (1 - s.side)) s.witnesses).witnessAnswers (answers.map Prod.fst)
      let t0 := s.pair.rxSent
      if !alive then .next (s.claimTakeover 1 t0 first).settle
      else
        let other := l.foldl (fun n a => max n a.2.2.2) 0
        if other < s.health ∨ (other = s.health ∧ s.side = 0) then .next (s.claimTakeover 6 t0 first).settle
        else .next { s with pair := { s.pair with silence := none, deferTill := some (s.ao.tb + 3000, first) } }

/-- CLAIM_DEFER_END (R135). -/
def execClaimDeferEnd (s : State) : Res :=
  match s.pair.deferTill with
  | some (t, first) => if t ≤ s.ao.tb then
      .next (({ s with pair := { s.pair with deferTill := none } } : State).claimTakeover 6 s.pair.rxSent first).settle else .next s
  | none => .next s

/-- LEASE_EXPIRY (R130). -/
def execLeaseExpiry (s : State) : Res :=
  if s.pair.head == .twin && decide (s.pair.leaseAt + 4000 ≤ s.ao.tb) then .next (s.setFlag (dieF 0) Reg.TKO_STATE_LEASE false) else .next s

/-! ## Claims and takeover -/

/-- CLAIM_REPLY (R133, R134): from carrier `cp`, with its epoch; `m` is what the media hold, for the recovery or takeover that a win
begins. -/
def execClaimReply (cp epoch holders : Nat) (applied : Bool) (m : MediaImage) (s : State) : Res :=
  .next (((s.answered cp SfbReq.isClaim).epochReported cp epoch holders).claimReply cp epoch applied m).settle

/-- CLAIM_TIMEOUT (R136): 100 µs without a win. -/
def execClaimTimeout (s : State) : Res :=
  match s.pair.claim with
  | some c => if c.begun + 100000 ≤ s.ao.tb then .next (s.claimLost c).settle else .next s
  | none => .next s

/-- FENCED_REPLY (R135): to any media operation. -/
def execFencedReply (cp : Nat) (s : State) : Res := .next (s.fencedReply cp).settle

/-- TAKEOVER_TRANSMIT_RELEASE (R131). -/
def execTakeoverTransmitRelease (s : State) : Res :=
  match s.pair.holdTx with
  | some t => if t + 8000 ≤ s.ao.tb then .next ({ s with pair := { s.pair with holdTx := none } } : State).settle else .next s
  | none => .next s

/-- TAKEOVER_GO (R152): a write of TKO_CTRL with TAKEOVER_GO. -/
def execTakeoverGo (val : Word) (m : MediaImage) (s : State) : Res :=
  if bitsAt val 5 1 = 1 && s.pair.pending.isSome && s.pair.head == .solo then .next (s.adopt s.ao.tb m).settle else .next s

/-- HANDOVER_REQ (R158): a write of TKO_CTRL with HANDOVER_REQ in TWIN. -/
def execHandoverReq (val : Word) (s : State) : Res :=
  if bitsAt val 4 1 = 1 && s.pair.head == .twin && s.pair.faulted.isNone && s.pair.giving.isNone then
    .next (s.give s.fps (List.range 256)).settle else .next s

/-- HANDOVER_ACKED (R158, R679): a full handover ends in the head's reset with cause 0x8, a handback in the next port's. -/
def execHandoverAcked (s : State) : Res :=
  let out := s.pair.groups.vals.any fun g => (g.unacked ++ g.waiting).any fun t => match t.msg with
    | .handover _ _ => true
    | _ => false
  match s.pair.giving with
  | some (1, ports, shards) =>
    if out then .next s
    else if !shards.isEmpty then .next ((s.setLast 7 false).headReset 8)
    else
      let s := s.gaveBack ports
      let s := { s with pair := { s.pair with giving := none } }
      .next ((ports.foldl State.startTx s).handbackNext).settle
  | _ => .next s

/-- PROBE_TIMEOUT (R147): 10 µs without a NAK; at most three repetitions. -/
def execProbeTimeout (qpn : Nat) (s : State) : Res :=
  match s.qp qpn with
  | some q => match q.probeAt with
    | some t =>
      if q.probes = 0 ∨ q.error ∨ s.ao.tb < t + 10000 then .next s
      else if 4 ≤ q.probes then .next (s.qpFail qpn).settle
      else .next ((s.setQp qpn { q with probes := q.probes + 1, probeAt := some s.ao.tb }).sendPkt qpn q
        { psn := psnAdd q.spsn 0x400000, n := 0, kind := .probe })
    | none => .next s
  | none => .next s

/-! ## Starts and rejoin -/

/-- SOLO_WAIT_EXPIRY (R115): the head has been in FAWN for SOLO_WAIT_S without a trained link. -/
def execSoloWaitExpiry (s : State) : Res :=
  let wait := max 1 (s.fld (dieF 0) Reg.TKO_CTRL_SOLO_WAIT_S) * 10 ^ 9
  if s.pair.head == .fawn && s.upGroups.isEmpty && s.flag (dieF 0) Reg.TKO_CTRL_SOLO_BOOT_EN && s.pair.claim.isNone &&
      decide (s.pair.fawnAt + wait ≤ s.ao.tb) then .next (s.startClaim .soloStart s.epoch (2 ^ s.side)).settle
  else .next s

/-- PAIR_START (R114): both heads are in FAWN, the link has trained, and TIME exchanges have measured the offset (R39). The head that is to follow steps its time; side 0 claims. -/
def execPairStart (s : State) : Res :=
  if s.pair.head == .fawn && s.pair.partner == some .fawn && s.pair.compatible && !s.upGroups.isEmpty && s.pair.claim.isNone && !s.pair.recovered &&
      s.pair.rejoin == 0 && (s.time.measured || s.time.aligned) then
    let s := if s.leads || s.time.aligned then s else s.alignTime
    .next (if s.side = 0 then s.startClaim .pairStart s.epoch 3 else s).settle
  else .next s

/-- REJOIN_SYNC (R114, R159): the next step of the synchronisation that can be taken, on the serving head or on the joiner; `m` is what
the media hold. -/
def execRejoinSync (m : MediaImage) (s : State) : Res :=
  if s.pair.head == .fawn && !s.pair.recovered then
    let serving := s.pair.partner == some .twin || s.pair.partner == some .solo || (s.pair.partner == some .fawn && s.side == 1)
    let timed := if s.pair.partner == some .fawn then s.leads || s.time.aligned else s.time.measured
    if serving && timed && s.pair.compatible && !s.upGroups.isEmpty && s.pair.rejoin == 0 then .next (s.joinSync m).settle else .next s
  else .next s.syncNext.settle

/-! ## Faults -/

/-- UNCORRECTABLE_MEMORY_ERROR (R29, R148, R720): of the HBM of a C-die (HMC_ERR.UE), or of a DDR channel of an M-die (DMC_CHAN.UE). -/
def execUncorrectableMemoryError (a : MemAt) (s : State) : Res :=
  let f := if 16 ≤ a.die then Reg.HMC_ERR_UE else Reg.DMC_CHAN_UE.plus (8 * (a.chan % 8))
  .next ((s.setFlag a.die f true).raiseFault 0x02 a.die 0x25).settle

/-- MANAGEMENT_WATCHDOG_EXPIRY (R148, R720). -/
def execManagementWatchdogExpiry (s : State) : Res := .next (s.raiseFault 0x04 dieB 0x02).settle

/-- FRONT_PORT_LINK_FAULT (R148, R720): an enabled port without link for 2 µs while the twin port has link: a fault in TWIN and SOLO, an event
in FENCED and THERMAL_HOLD. -/
def execFrontPortLinkFault (p : Nat) (twinLink : Bool) (s : State) : Res :=
  let due := (s.fport p).downAt.any fun t => decide (t + 2000 ≤ s.ao.tb)
  if !(twinLink && due && !s.hasLink p && s.flag (portDie p) (Reg.MAC_CFG_EN.plus (portOff p))) then .next s
  else match s.pair.head with
  | .twin | .solo => if s.pair.faulted.isNone then .next (s.fenceForFault 0x03).settle else .next s
  | .fenced | .thermalHold => .next (s.event (portDie p) 0x10 0 noInst)
  | _ => .next s

/-- DUMP_ERASE (R676): the recovery checkpoint is durable and the dumped records are destaged. -/
def execDumpErase (s : State) : Res :=
  let left := s.pair.dumpRecs.any fun q => (s.jent q.1 q.2).isSome
  if s.nand.dumps.isEmpty || left || s.ftl.ckpt.isSome || !s.serving then .next s
  else
    let bs := s.ftl.dumpRes
    let s := { s with nand := { s.nand with dumps := [] }, ftl := { s.ftl with dumpRes := [] }, pair := { s.pair with dumpRecs := [] } }
    .next (bs.foldl (fun s b => s.eraseBlock b 7) s).settle

/-- TIME_EXCHANGE_SEND (R715): the head starts a TIME exchange; the values are those its partner will measure. -/
def execTimeExchangeSend (s : State) : Res :=
  .next (s.send 0 0 0 (.time 0 0 s.hasLockedSource))

end Sys2Proof.Machine
end

