-- ==== Sys2Proof/Machine/ParRows.lean ====
section
/-! DEFINITION. Losses, rebuild, reshape and scrub as commands (spec/08). -/

namespace Sys2Proof.Machine

open Sys2Proof

/-- PAR_LOST_DECLARE (R378, R384): a write of PAR_LOST with GO and without CLEAR. -/
def execParLostDeclare (val : Word) (s : State) : Res :=
  if bitsAt val 63 1 = 1 ∧ bitsAt val 17 1 = 0 then
    .next (s.declareLost (bitsAt val 0 6) (bitsAt val 6 10) (bitsAt val 16 1 == 1)).settle
  else .next s

/-- PAR_LOST_CLEAR (R390): a write of PAR_LOST with GO and CLEAR. -/
def execParLostClear (val : Word) (s : State) : Res :=
  if bitsAt val 63 1 = 1 ∧ bitsAt val 17 1 = 1 then
    .next (s.clearLost (bitsAt val 0 6) (bitsAt val 6 10) (bitsAt val 16 1 == 1)).settle
  else .next s

/-- REBUILD_RATE_WINDOW (R388): a window of 100 ms ends. -/
def execRebuildRateWindow (s : State) : Res :=
  if s.ao.tb < s.par.winAt + 100000000 then .next s
  else
    let d := dieM 0
    let mbps := s.par.winBytes * 10 / 10 ^ 6
    let low := !s.par.list.isEmpty && decide (mbps < s.fld d Reg.PAR_RB_FLOOR_MBPS)
    let s := { s with par := { s.par with winBytes := 0, winAt := s.ao.tb, boost := low } }
    let s := s.setFld d Reg.PAR_RB_RATE_MBPS mbps
    .next (if low then s.addFld d Reg.PAR_RB_RATE_FLOOR_WINDOWS 1 else s)

/-- SLOW_EVICT (R381): a die has been slow for SLOW_EVICT_S. -/
def execSlowEvict (cp die : Nat) (s : State) : Res :=
  let d := s.die (dieKey cp die)
  match d.slow with
  | some t => if !d.evictSent && decide (t + max 1 (s.fld (dieM 0) Reg.PAR_RB_SLOW_EVICT_S) * 10 ^ 9 ≤ s.ao.tb) then
      .next ((s.setDie (dieKey cp die) { d with evictSent := true }).exc 0 .evict [cp, die]) else .next s
  | none => .next s

/-- SJ_PAGE_TIMEOUT (R393): INTERVAL_MS after the first unwritten entry. -/
def execSjPageTimeout (s : State) : Res :=
  if !s.par.sjCur.isEmpty && decide (s.par.sjSince + max 1 (s.fld (dieM 0) Reg.PAR_SJ_INTERVAL_MS) * 1000000 ≤ s.ao.tb) then
    .next s.sjProgram.settle
  else .next s

/-- A write of PAR_RS keeps its RW fields. -/
def State.writeRs (s : State) (val : Word) : State :=
  let d := dieM 0
  let s := (s.setFlag d Reg.PAR_RS_VX5 (bitsAt val 2 1 == 1)).setFld d Reg.PAR_RS_TARGET_WIDTH (bitsAt val 8 5)
  let s := (s.setFld d Reg.PAR_RS_CLASS (bitsAt val 16 3)).setFld d Reg.PAR_RS_CKPT_STRIPES (bitsAt val 32 16)
  s.setFld d Reg.PAR_RS_NSID_M1 (bitsAt val 48 14)

/-- RESHAPE_NATIVE_GO (R397): a write of PAR_RS with GO and VX5 = 0. -/
def execReshapeNativeGo (val : Word) (s : State) : Res :=
  if bitsAt val 0 1 = 1 ∧ bitsAt val 2 1 = 0 then .next ((s.writeRs val).reshapeGo).settle else .next s

/-- RESHAPE_VX5_GO (R404): a write of PAR_RS with GO and VX5 = 1. -/
def execReshapeVx5Go (val : Word) (s : State) : Res :=
  if bitsAt val 0 1 = 1 ∧ bitsAt val 2 1 = 1 then .next ((s.writeRs val).reshapeGo).settle else .next s

/-- RESHAPE_STOP (R402): a write of PAR_RS with STOP. -/
def execReshapeStop (val : Word) (s : State) : Res :=
  if bitsAt val 1 1 = 1 then .next ((s.writeRs val).reshapeStop).settle else .next s

/-- SCRUB_POST (R376): scrub work for one slot of a stripe. -/
def execScrubPost (seg stripe slot : Nat) (s : State) : Res := .next (s.scrub seg stripe slot).settle

end Sys2Proof.Machine
end

