-- ==== Sys2Proof/Machine/Ports.lean ====
section
/-! DEFINITION. Front ports (R411 to R437): what a frame says, buffer pools, flow control, the address table, the pattern filters. -/

namespace Sys2Proof.Machine

open Sys2Proof

/-! ## Settings of a port (R415, R422, R427, R460) -/

/-- The head carries the port, it runs, and its link is up. -/
def State.portUp (s : State) (p : Nat) : Bool := s.fps.contains p && s.portFld p Reg.MAC_CFG_EN == 1 && s.hasLink p

/-- MAX_FRAME held to 1,518 to 9,600 bytes (R460). -/
def State.maxFrame (s : State) (p : Nat) : Nat := max 1518 (min 9600 (s.portFld p Reg.MAC_CFG_MAX_FRAME))

/-- Flow-control mode (R427): 3 acts as 2. -/
def State.pauseMode (s : State) (p : Nat) : Nat := min 2 (s.portFld p Reg.MAC_CFG_PAUSE)

/-- Hundredths of a ns in a pause quantum of 512 bit times (R428). -/
def State.quantum (s : State) (p : Nat) : Nat :=
  match s.portFld p Reg.MAC_CFG_MODE with
  | 2 => 128
  | 3 => 256
  | _ => 64

/-- Time of a number of quanta in ns, rounded up. -/
def State.quanta (s : State) (p n : Nat) : Nat := (n * s.quantum p + 99) / 100

/-! ## What a frame says (R416, R417, R422) -/

/-- What the parser takes from the first bytes of a frame, by the layouts of IEEE 802.1Q, IP, UDP, ARP, ICMPv6 and BTH. -/
structure FrameInfo where
  /-- PCP and VLAN identifier -/
  tag : Option (Nat × Nat)
  etype : Nat
  /-- DSCP and ECN of an IP packet -/
  tos : Option (Nat × Nat)
  /-- kind (1 IPv4, 2 IPv6) and address an IP packet goes to -/
  dst : Option (Nat × BitVec 128)
  udp : Option Nat
  /-- length field of the UDP header, and what follows the header -/
  udpLen : Nat
  payload : Bytes
  /-- destination of the BTH, where the UDP payload is one -/
  qpn : Nat
  /-- kind and address that an ARP request or neighbour solicitation asks for -/
  asks : Option (Nat × BitVec 128)
deriving DecidableEq, Repr

def beAt (l : Bytes) (i n : Nat) : Nat := ofBe ((l.drop i).take n)

/-- What a UDP datagram adds. -/
def udpInfo (i : FrameInfo) (u : Bytes) : FrameInfo :=
  { i with udp := some (beAt u 2 2), udpLen := beAt u 4 2, payload := (u.drop 8).take (beAt u 4 2 - 8), qpn := beAt u 13 3 }

/-- Parse a frame (without its FCS). -/
def parseFrame (b : Bytes) : FrameInfo :=
  let tagged := beAt b 12 2 == 0x8100
  let tag := if tagged then some (beAt b 14 1 / 32, beAt b 14 2 % 4096) else none
  let o := if tagged then 18 else 14
  let et := beAt b (o - 2) 2
  let l := b.drop o
  let info : FrameInfo := { tag := tag, etype := et, tos := none, dst := none, udp := none, udpLen := 0, payload := [], qpn := 0, asks := none }
  if et = 0x0800 ∧ 20 ≤ l.length then
    let h := beAt l 0 1 % 16 * 4
    let info := { info with tos := some (beAt l 1 1 / 4, beAt l 1 1 % 4), dst := some (1, BitVec.ofNat 128 (beAt l 16 4)) }
    if beAt l 9 1 = 17 ∧ h + 8 ≤ l.length then udpInfo info (l.drop h) else info
  else if et = 0x86DD ∧ 40 ≤ l.length then
    let tc := beAt l 0 2 / 16 % 256
    let info := { info with tos := some (tc / 4, tc % 4), dst := some (2, BitVec.ofNat 128 (beAt l 24 16)) }
    if beAt l 6 1 = 17 ∧ 48 ≤ l.length then udpInfo info (l.drop 40)
    else if beAt l 6 1 = 58 ∧ beAt l 40 1 = 135 then { info with asks := some (2, BitVec.ofNat 128 (beAt l 48 16)) }
    else info
  else if et = 0x0806 ∧ beAt l 6 2 = 1 then { info with asks := some (1, BitVec.ofNat 128 (beAt l 24 4)) }
  else info

/-- A valid entry of the address table is an address of the port (R460). -/
def State.addrAt (s : State) (p kind : Nat) (a : BitVec 128) (e : Nat) : Bool :=
  let f := fun (f : Fld) => s.tblFld (portDie p) 0 e 2 f
  f Reg.MAC_ADDR_CTL_VALID == 1 && f Reg.MAC_ADDR_CTL_KIND == kind && f Reg.MAC_ADDR_CTL_PORT == p % 4 &&
    (let v := (s.tbl (portDie p) 0x10 0 e 0).toNat + (s.tbl (portDie p) 0x10 0 e 1).toNat * 2 ^ 64
     if kind = 1 then v % 2 ^ 32 == a.toNat % 2 ^ 32 else v == a.toNat)

/-- An address is an active address of the port (R418, R460). -/
def State.isActiveAddr (s : State) (p kind : Nat) (a : BitVec 128) : Bool :=
  (List.range 64).any fun e =>
    s.addrAt p kind a e &&
      (s.tblFld (portDie p) 0 e 2 Reg.MAC_ADDR_CTL_ADOPTED == 0 || s.tblFld (portDie p) 0 e 2 Reg.MAC_ADDR_CTL_ACTIVE == 1)

/-- An active address of the port is one taken over from the partner (R146). -/
def State.isAdoptedAddr (s : State) (p kind : Nat) (a : BitVec 128) : Bool :=
  (List.range 64).all fun e => !s.addrAt p kind a e || s.tblFld (portDie p) 0 e 2 Reg.MAC_ADDR_CTL_ADOPTED == 1

/-- The steps 3 to 5 of R417 that a frame may take: where it goes, none for the pattern filters. The engines take what comes while
they run. -/
def State.destOf (s : State) (p : Nat) (i : FrameInfo) : Option RxDest :=
  let vlan := s.portFld p Reg.MAC_CFG_VLAN_ID
  let mine := if vlan = 0 then i.tag.isNone else i.tag.any fun t => t.2 == vlan
  let here := i.dst.any fun d => s.isActiveAddr p d.1 d.2
  if !mine then none
  else if here && i.udp == some 4791 then some (.roce i.qpn)
  else if here && i.udp == some (s.fld (portDie p) Reg.PGT_CTRL_UDP_PORT) then
    some (.pronghorn (i.tos.any fun t => t.2 == 3) i.udpLen i.payload)
  else if i.asks.any fun d => s.isActiveAddr p d.1 d.2 then some .address
  else none

/-- Priority of a frame (R422); a frame without the field has 0. -/
def State.rxPrio (s : State) (p : Nat) (i : FrameInfo) : Nat :=
  if s.portFld p Reg.MAC_CFG_RX_PRIO_SRC = 0 then (i.tag.map Prod.fst).getD 0 else (i.tos.map fun t => t.1 / 8).getD 0

/-! ## Buffer pools (R420 to R423, R427) -/

/-- Bytes that a pool holds. -/
def Port.used (x : Port) (k : Pool) : Nat := (x.rx.filter fun e => e.2.1 == k).foldl (fun n e => n + e.2.2) 0

/-- Bytes of a pool: in mode 0x1 the lossless pool has the lossy pool's space as well. -/
def State.poolSize (s : State) (p : Nat) (k : Pool) : Nat :=
  let c0 := s.portFld p Reg.MAC_BUF_C0_KIB
  let ll := s.portFld p Reg.MAC_BUF_LL_KIB
  let all := 4096 - 64 - c0
  let kib := match k with
    | .control => 64
    | .c0 => c0
    | .lossless => if s.pauseMode p = 1 then all else ll
    | .lossy => if s.pauseMode p = 1 then 0 else all - ll
  kib * 1024

/-- The pool takes another frame (R423). -/
def State.poolRoom (s : State) (p : Nat) (k : Pool) : Bool := decide ((s.fport p).used k + s.maxFrame p ≤ s.poolSize p k)

/-- XON_KIB in bytes: acts as XOFF_KIB − 64 when it is not below XOFF_KIB (R428). -/
def State.xonBytes (s : State) (p : Nat) : Nat :=
  let off := s.portFld p Reg.MAC_PFC_XOFF_KIB
  let on := s.portFld p Reg.MAC_PFC_XON_KIB
  (if off ≤ on then off - 64 else on) * 1024

/-- Send a pause frame with a time: PFC for LL_PRIO or PAUSE, by the mode (R428). -/
def State.sendPause (s : State) (p time : Nat) : State :=
  let pfc := s.pauseMode p == 2
  let prio := if pfc then s.portFld p Reg.MAC_PFC_LL_PRIO else 0
  (s.queueFrame p { cls := 0, control := true, size := 64, qp := none, adopted := false, ip := false, who := none }).emit (.pause (p / 4) (p % 4) prio time pfc)

/-- The lossless pool has risen to XOFF_KIB: pause the partner (R428). -/
def State.checkXoff (s : State) (p : Nat) : State :=
  let x := s.fport p
  if x.xoff.isSome || s.pauseMode p == 0 || !s.mayTransmit || decide (x.used .lossless < s.portFld p Reg.MAC_PFC_XOFF_KIB * 1024) then s
  else (s.setFport p { x with xoff := some s.ao.tb }).sendPause p 0xFFFF

/-- Place a frame for an engine in its pool, or drop it (R421, R423). -/
def State.admitFrame (s : State) (p prio size : Nat) (d : RxDest) : State :=
  let class0 := match d with
    | .roce qpn => (s.qp qpn).any Qp.pinned
    | _ => false
  let excess := class0 && !s.poolRoom p .c0
  let s := if excess then s.portCount p 6 1 else s
  let byPrio := if s.pauseMode p = 1 ∨ prio = s.portFld p Reg.MAC_PFC_LL_PRIO then Pool.lossless else .lossy
  let k := if class0 && !excess then Pool.c0 else byPrio
  if s.poolRoom p k then
    let x := s.fport p
    (s.setFport p { x with rx := x.rx ++ [(d, k, size)] }).checkXoff p
  else s.portCount p (if k == .lossless then 5 else 4) 1

/-- The first frame for a destination leaves the receive buffer. -/
def State.leaveRx (s : State) (p : Nat) (d : RxDest) : State :=
  let x := s.fport p
  s.setFport p { x with rx := x.rx.eraseP fun e => e.1 == d }

/-! ## Pattern filters (R434 to R437) -/

/-- The check value of a filter's selected bytes; none where one lies beyond the frame (R435). -/
def patCheck (b : Bytes) (off : Nat) (mask : Word) : Option (BitVec 16) :=
  let sel := (List.range 64).filter fun i => mask.getLsbD i
  if sel.any fun i => decide (b.length ≤ off + i) then none
  else some (crc16ccitt (sel.map fun i => b.getD (off + i) 0))

/-- Filter `e` matches a frame of a port in the head's state. -/
def State.patMatch (s : State) (p e : Nat) (b : Bytes) : Bool :=
  let f := fun (f : Fld) => s.tblFld (portDie p) 0 e 1 f
  f Reg.PAT_DATA_VALID == 1 && f Reg.PAT_DATA_PORTS / 2 ^ (p % 4) % 2 == 1 &&
    (if s.pair.head = .fawn then f Reg.PAT_DATA_IN_FAWN == 1 else f Reg.PAT_DATA_IN_SERVICE == 1) &&
    patCheck b (min 1472 (f Reg.PAT_DATA_OFFSET)) (s.tbl (portDie p) 0x18 0 e 0) == some (BitVec.ofNat 16 (f Reg.PAT_DATA_CHECK))

/-- Deliver a frame on a ring given by tile and ring (R417, R437). -/
def State.deliverFrame (s : State) (p ring filter : Nat) (wake : Bool) (b : Bytes) : State :=
  s.post (ring / 4096 % 8) (ring % 4096) 13 (.frame p s.ao.tb (b.length + 4) filter wake (b.take 128))

/-- A frame at the pattern filters (R436): the lowest matching filter acts. -/
def State.filterFrame (s : State) (p : Nat) (b : Bytes) : State :=
  let on := s.flag (portDie p) Reg.PAT_CTRL_EN
  match (List.range 128).find? fun e => on && s.patMatch p e b with
  | none => s.portCount p 9 1
  | some e =>
    let k := (portDie p - 1) * 128 + e
    let s := { s with rdma := { s.rdma with hits := s.rdma.hits.putD k (s.rdma.hits.getD k 0 + 1) 0 } }
    let act := s.tblFld (portDie p) 0 e 1 Reg.PAT_DATA_ACTION
    if act = 1 ∨ act = 2 then
      s.deliverFrame p (s.tblFld (portDie p) 0 e 1 Reg.PAT_DATA_RING) e (act == 2 && s.pair.head == .fawn) b
    else s

/-! ## Dispatch (R417) -/

/-- A RoCEv2 packet: for queue pair 1 to the ring of connection management, else into its pool. -/
def State.dispatchRoce (s : State) (p prio qpn : Nat) (b : Bytes) : State :=
  if !s.flag (portDie p) Reg.RDM_CTRL_EN then s
  else if qpn = 1 then s.deliverFrame p (s.fld (portDie p) Reg.RDM_CTRL_GSI_RING) 0 false b
  else s.admitFrame p prio (b.length + 4) (.roce qpn)

/-- Dispatch a received frame that has passed step 1. -/
def State.dispatch (s : State) (p : Nat) (b : Bytes) : State :=
  let i := parseFrame b
  if i.etype = 0x8808 then s
  else match s.pair.head with
    | .twin | .solo => match s.destOf p i with
      | some (.roce qpn) =>
        let ce := i.tos.any fun t => t.2 == 3
        (if ce then s.portCount p 8 1 else s).dispatchRoce p (s.rxPrio p i) qpn b
      | some (.pronghorn ce n u) =>
        if s.flag (portDie p) Reg.PGT_CTRL_EN then s.admitFrame p (s.rxPrio p i) (b.length + 4) (.pronghorn ce n u) else s
      | some .address => s.admitFrame p (s.rxPrio p i) (b.length + 4) .address
      | none => s.filterFrame p b
    | .fawn => s.filterFrame p b
    | _ => s

/-- A frame has been received (R415, R417, R432). -/
def State.receiveFrame (s : State) (p : Nat) (fcsOk : Bool) (b : Bytes) : State :=
  let n := b.length + 4
  if !fcsOk then s.portCount p 2 1
  else
    let s := (s.portCount p 0 1).portCount p 1 n
    if n < 64 ∨ s.maxFrame p < n then s.portCount p 3 1 else s.dispatch p b

/-! ## Received pause (R430, R431) -/

/-- Change the holds of a port: the held time is counted first, the transmitter looks again. -/
def State.setHold (s : State) (p : Nat) (h : SMap (Nat × Nat)) : State :=
  let s := s.accrueHold p
  let x := { s.fport p with hold := h }
  (s.setFport p { x with holdAt := if x.anyHeld s.ao.tb then some s.ao.tb else none }).startTx p

/-- An honoured pause for a priority, `t` quanta (R430): it replaces the remaining time; a stormed priority disregards it (R431). -/
def State.pausePrio (s : State) (p prio t : Nat) : State :=
  let x := s.fport p
  if x.storm.has prio then s.setFport p { x with storm := x.storm.insert prio s.ao.tb }
  else if t = 0 then s.setHold p (x.hold.erase prio)
  else
    let since := match x.hold.find? prio with
      | some (till, b) => if s.ao.tb < till then b else s.ao.tb
      | none => s.ao.tb
    s.setHold p (x.hold.insert prio (s.ao.tb + s.quanta p t, since))

/-- A MAC control frame that the mode does not honour: an event after 1,000 in 1 s (R457). -/
def State.badControl (s : State) (p : Nat) : State :=
  let x := s.fport p
  let fresh := decide (x.badCtlAt + 10 ^ 9 ≤ s.ao.tb) || x.badCtl == 0
  let x := if fresh then { x with badCtl := 1, badCtlAt := s.ao.tb } else { x with badCtl := x.badCtl + 1 }
  let s := s.setFport p x
  if x.badCtl = 1000 then s.event (portDie p) 0x10 9 (p % 4) else s

/-- A received MAC control frame (R427, R430): opcode 0x0001 PAUSE or 0x0101 PFC, with priorities and their times. -/
def State.pauseFrame (s : State) (p op : Nat) (times : List (Nat × Nat)) : State :=
  let s := s.portCount p 7 1
  let mode := s.pauseMode p
  if mode = 1 ∧ op = 0x0001 then
    (List.range 8).foldl (fun s q => s.pausePrio p q ((times.head?.map Prod.snd).getD 0 % 65536)) s
  else if mode = 2 ∧ op = 0x0101 then
    let honour := s.portFld p Reg.MAC_PFC_RX_HONOUR
    (times.filter fun t => decide (t.1 < 8) && honour / 2 ^ t.1 % 2 == 1).foldl (fun s t => s.pausePrio p t.1 (t.2 % 65536)) s
  else s.badControl p

/-! ## Counters (R433) -/

/-- Copy the 16 counters of a port to its snapshot registers and clear them. -/
def State.snapCounters (s : State) (p : Nat) : State :=
  let s := s.accrueHold p
  let s := (List.range 16).foldl (fun s i =>
    let c := Reg.MAC_CNT_COUNT.plus (portOff p + 8 * i)
    (s.setFld (portDie p) (Reg.MAC_SNAPC_COUNT.plus (portOff p + 8 * i)) (s.fld (portDie p) c)).setFld (portDie p) c 0) s
  s.addFld (portDie p) (Reg.MAC_SNAP_SEQ.plus (portOff p)) 1

end Sys2Proof.Machine
end

