-- ==== Sys2Proof/Machine/Roce.lean ====
section
/-! DEFINITION. The RDMA engines: received packets (R438, R445, R446, R449, R450, R457), rate control (R447), the context cache
(R443 to R445), queue pairs by command (R440 to R442, R451). -/

namespace Sys2Proof.Machine

open Sys2Proof

/-- Counter `i` of R461. -/
def State.rdmCount (s : State) (fdie i n : Nat) : State := s.addFld (dieF fdie) (Reg.RDM_CNT_COUNT.plus (8 * i)) n

/-! ## Sending again (R147, R450, R451) -/

/-- Last PSN of something sent. -/
def SentPkt.last (x : SentPkt) : Nat := psnAdd x.psn (max 1 x.n - 1)

def SentPkt.isRead (x : SentPkt) : Bool := match x.kind with
  | .readReq _ _ _ => true
  | _ => false

/-- Command whose data something sent carries or asks for. -/
def SentPkt.dataTag (x : SentPkt) : Option Nat := match x.kind with
  | .readReq t _ _ | .write t _ _ => some t
  | _ => none

/-- Send packets again, counted in RETRANS. -/
def State.resend (s : State) (qpn : Nat) (l : List SentPkt) : State :=
  match s.qp qpn with
  | none => s
  | some q =>
    let s := s.setQp qpn { q with lastTx := s.ao.tb }
    l.foldl (fun s x => (s.rdmCount q.fdie 3 1).sendPkt qpn q x) s

/-- Everything before a PSN is acknowledged; a READ waits for its response. -/
def Qp.ackBefore (q : Qp) (psn now : Nat) : Qp :=
  let last := psnAdd psn (2 ^ 24 - 1)
  { q with sent := q.sent.filter fun x => x.isRead || !(psnBefore x.last psn), acked := if psnBefore q.acked last then last else q.acked,
           retries := 0, rnr := 0, lastTx := now }

/-! ## Failing commands and queue pairs -/

/-- A transfer of a command has failed: Transient Transport Error (R100, R105, R450). -/
def State.failTransfer (s : State) (tag : Nat) : State :=
  match s.cmd tag with
  | none => s
  | some c => match c.op with
    | .compareAndWrite _ _ _ => s.finish2 c ⟨3, 0x22⟩ ⟨0, 0x09⟩
    | _ => s.finish c ⟨3, 0x22⟩ 0

/-- The host rejected a READ request or WRITE packet (R450): the rest of the phase is not sent, the command fails, and what was sent
after it takes the PSNs from the rejected one on. -/
def State.rejected (s : State) (qpn psn : Nat) : State :=
  match s.qp qpn with
  | none => s
  | some q =>
    let q := q.ackBefore psn s.ao.tb
    match q.sent.find? fun x => !(psnBefore x.last psn) with
    | none => s
    | some x => match x.dataTag with
      | none => s.qpFail qpn
      | some tag =>
        let keep := q.sent.filter fun y => y.dataTag != some tag
        let old := keep.filter fun y => psnBefore y.last psn
        let rest := keep.filter fun y => !(psnBefore y.last psn)
        let (rest, next) := rest.foldl (fun (a : List SentPkt × Nat) y => (a.1 ++ [{ y with psn := a.2 }], psnAdd a.2 y.n)) ([], psn)
        let s := (s.setQp qpn { q with sent := old ++ rest, spsn := next }).rdmCount q.fdie 11 1
        (s.failTransfer tag).resend qpn rest

/-- A packet that breaks R438 (R457): NAK invalid request, and the queue pair to the error state. -/
def State.invalidReq (s : State) (qpn psn : Nat) : State :=
  match s.qp qpn with
  | none => s
  | some q => ((s.rdmCount q.fdie 12 1).sendNak q (.nakInvalid qpn psn)).qpFail qpn

/-! ## The reorder window (R449) -/

/-- PSNs of the window: REORDER_PKTS above 0x40 acts as 0x40. -/
def State.window (s : State) (fdie : Nat) : Nat := min 0x40 (s.fld (dieF fdie) Reg.RDM_CTRL_REORDER_PKTS)

/-- Packets that an F-die holds. -/
def State.heldPkts (s : State) (fdie : Nat) : Nat :=
  (s.rdma.qps.vals.filter fun q => q.fdie == fdie).foldl (fun n q => n + q.held.length + q.heldR.length) 0

/-- Take the SEND packet with the expected PSN: the last of a message hands its capsule on. -/
def State.takeSend (s : State) (qpn psn : Nat) (first last : Bool) (len : Nat) : State :=
  match s.qp qpn with
  | none => s
  | some q =>
    if q.error then s
    else if first == q.asm.isSome || (if last then decide (q.e.mtu < len) else len != q.e.mtu) then s.invalidReq qpn psn
    else
      let start := q.asm.getD psn
      let s := s.setQp qpn { q with epsn := psnAdd psn 1, asm := if last then none else some start }
      if last then { s with rdma := { s.rdma with capsules := s.rdma.capsules ++ [(qpn, start, psnDist start psn + 1)] } } else s

/-- Process the held SEND packets that now come in order, counted in REORDERED. -/
def State.drainSends (s : State) (qpn : Nat) : Nat → State
  | 0 => s
  | fuel + 1 =>
    match s.qp qpn with
    | none => s
    | some q => match q.held.find? q.epsn with
      | some (.send first last len) =>
        let h := q.held.erase q.epsn
        let s := s.setQp qpn { q with held := h, heldSince := if h.isEmpty then none else q.heldSince }
        ((s.rdmCount q.fdie 7 1).takeSend qpn q.epsn first last len).drainSends qpn fuel
      | _ => s

/-- Discard the held SEND packets and ask for the expected one. -/
def State.expireSends (s : State) (qpn : Nat) : State :=
  match s.qp qpn with
  | none => s
  | some q =>
    let q := { q with held := [], heldSince := none }
    ((s.setQp qpn q).rdmCount q.fdie 8 1).sendNak q (.nakSequence qpn q.epsn)

/-- A SEND packet (R449). -/
def State.onSend (s : State) (qpn psn : Nat) (first last : Bool) (len : Nat) : State :=
  match s.qp qpn with
  | none => s
  | some q =>
    let d := psnDist q.epsn psn
    if d = 0 then (s.takeSend qpn psn first last len).drainSends qpn (q.held.length + 1)
    else if d < s.window q.fdie then
      if q.held.has psn then s
      else if 4096 ≤ s.heldPkts q.fdie then s.expireSends qpn
      else s.setQp qpn { q with held := q.held.insert psn (.send first last len), heldSince := some (q.heldSince.getD s.ao.tb) }
    else if 2 ^ 23 ≤ d then
      if psnBefore q.ackSent psn then s else s.sendAck qpn q q.ackSent
    else s.expireSends qpn

/-- The oldest RDMA READ that waits for its response. -/
def Qp.reading (q : Qp) : Option (SentPkt × Nat × Nat × Bytes) :=
  q.sent.findSome? fun x => match x.kind with
    | .readReq t n got => some (x, t, n, got)
    | _ => none

/-- Expected PSN of READ Responses. -/
def Qp.respPsn (q : Qp) : Option Nat := q.reading.map fun r => psnAdd r.1.psn (r.2.2.2.length / max 1 q.e.mtu)

/-- Take the READ Response with the expected PSN: its data go to staging; the last ends the READ. -/
def State.takeResp (s : State) (qpn psn : Nat) (last : Bool) (b : Bytes) : State :=
  match s.qp qpn with
  | none => s
  | some q => match q.reading with
    | none => s
    | some (x, tag, len, got) =>
      let others := q.sent.erase x
      let all := got ++ b
      if q.error then s
      else if len < all.length ∨ (last ∧ all.length < len) then (s.setQp qpn { q with sent := others }).failTransfer tag
      else if if last then decide (q.e.mtu < b.length) else b.length != q.e.mtu then s.invalidReq qpn psn
      else if all.length = len then
        let q := ({ q with sent := others } : Qp).ackBefore x.psn s.ao.tb
        let s := s.setQp qpn q
        match s.cmd tag with
        | some c =>
          let d := match c.part with
            | some (true, b) => b ++ all
            | some (false, b) => all ++ b
            | none => all
          (s.setCmd { c with data := some d, skips := c.skips ++ [(c.fetchAt, s.ao.tb)] }).advance tag
        | none => s
      else
        let up := q.sent.map fun y => if y = x then { y with kind := .readReq tag len all } else y
        s.setQp qpn { q with sent := up, retries := 0, lastTx := s.ao.tb }

/-- Process the held READ Responses that now come in order. -/
def State.drainResps (s : State) (qpn : Nat) : Nat → State
  | 0 => s
  | fuel + 1 =>
    match s.qp qpn with
    | none => s
    | some q => match q.respPsn.bind fun p => (q.heldR.find? p).map fun k => (p, k) with
      | some (p, .resp _ last b) =>
        let h := q.heldR.erase p
        let s := s.setQp qpn { q with heldR := h, heldRSince := if h.isEmpty then none else q.heldRSince }
        ((s.rdmCount q.fdie 7 1).takeResp qpn p last b).drainResps qpn fuel
      | _ => s

/-- Discard the held READ Responses and issue the READ again from the first missing byte. -/
def State.expireResps (s : State) (qpn : Nat) : State :=
  match s.qp qpn with
  | none => s
  | some q =>
    let q := { q with heldR := [], heldRSince := none }
    ((s.setQp qpn q).rdmCount q.fdie 8 1).resend qpn ((q.reading.map fun r => r.1).toList)

/-- A READ Response packet (R449, R457); one that answers nothing outstanding is a duplicate. -/
def State.onResp (s : State) (qpn psn : Nat) (first last : Bool) (b : Bytes) : State :=
  match s.qp qpn with
  | none => s
  | some q => match q.respPsn with
    | none => s
    | some e =>
      let d := psnDist e psn
      if d = 0 then (s.takeResp qpn psn last b).drainResps qpn (q.heldR.length + 1)
      else if d < s.window q.fdie then
        if q.heldR.has psn then s
        else if 4096 ≤ s.heldPkts q.fdie then s.expireResps qpn
        else s.setQp qpn { q with heldR := q.heldR.insert psn (.resp first last b), heldRSince := some (q.heldRSince.getD s.ao.tb) }
      else if 2 ^ 23 ≤ d then s
      else s.expireResps qpn

/-! ## Acknowledge packets (R147, R450, R451) -/

/-- The probe of an adopted queue pair is answered (R147): every ledgered READ request whose response is not here goes first, with its
PSNs; of the other ledgered phases those that the host does not have whole follow in the order of their PSNs; work not yet ledgered
follows them. -/
def State.resume (s : State) (qpn : Nat) : State :=
  match s.qp qpn with
  | none => s
  | some q =>
    let next := psnAdd q.acked 1
    let reads := q.resv.filter fun r => r.phase == .readRequests && s.resvLive r
    let rest := q.resv.filter fun r => r.phase != .readRequests && !(psnBefore (psnAdd r.psn (max 1 r.n - 1)) next)
    let s := reads.foldl (fun s r => match s.cmd r.tag with
      | some c => match s.qp qpn with
        | some q => (s.setCmd { c with fetching := true, fetchAt := s.ao.tb }).sendAt qpn q r.psn r.n
            (.readReq r.tag (c.fetchLen.getD 0) [])
        | none => s
      | none => s) s
    match s.qp qpn with
    | some q => (s.setQp qpn { q with resv := rest }).trimResv qpn
    | none => s

/-- The host expects a PSN: what it has is acknowledged, the rest is sent again; to an adopted queue pair it answers the probe. -/
def State.onNakSeq (s : State) (qpn psn : Nat) : State :=
  match s.qp qpn with
  | none => s
  | some q =>
    let p := q.ackBefore psn s.ao.tb
    if 0 < q.probes then (s.setQp qpn { p with acked := psnAdd psn (2 ^ 24 - 1), probes := 0, probeAt := none }).resume qpn
    else (s.setQp qpn p).resend qpn (p.sent.filter fun x => !(psnBefore x.last psn))

/-- An RNR NAK: after the RNR retry count the retries are exhausted (R451), else what it refuses is sent again. -/
def State.onRnr (s : State) (qpn psn : Nat) : State :=
  match s.qp qpn with
  | none => s
  | some q =>
    if q.e.rnrRetries ≤ q.rnr + 1 then s.qpFail qpn
    else
      let p := { q.ackBefore psn s.ao.tb with rnr := q.rnr + 1 }
      (s.setQp qpn p).resend qpn (p.sent.filter fun x => !(psnBefore x.last psn))

/-- An Acknowledge packet. A NAK that R450 does not name follows the requester rule of Annex A17: the queue pair is in error. -/
def State.onAckPkt (s : State) (qpn psn : Nat) (k : AckKind) : State :=
  match k with
  | .ack => match s.qp qpn with
    | some q => s.setQp qpn (q.ackBefore (psnAdd psn 1) s.ao.tb)
    | none => s
  | .nakSequence => s.onNakSeq qpn psn
  | .rnrNak => s.onRnr qpn psn
  | .nakAccess | .nakOperational => s.rejected qpn psn
  | .nakInvalid => s.qpFail qpn

/-- A local ACK timeout (R451): after the retry count the retries are exhausted, else everything not acknowledged is sent again. -/
def State.ackTimeout (s : State) (qpn : Nat) : State :=
  match s.qp qpn with
  | none => s
  | some q =>
    if q.e.retries ≤ q.retries + 1 then s.qpFail qpn
    else (s.setQp qpn { q with retries := q.retries + 1 }).resend qpn q.sent

/-! ## Rate control (R446 to R448) -/

/-- A CNP is sent for a marked packet, at most one in CNP_US. -/
def State.markCe (s : State) (qpn : Nat) : State :=
  match s.qp qpn with
  | none => s
  | some q =>
    let gap := s.fld (dieF q.fdie) Reg.RDM_CC_CNP_US * 1000
    if q.cnpSent.any fun t => decide (s.ao.tb < t + gap) then s
    else
      let q := { q with cnpSent := some s.ao.tb }
      ((s.setQp qpn q).rdmCount q.fdie 4 1).sendBare q 0 16 (.cnp qpn)

/-- Gain g = 2^−G_SHIFT; G_SHIFT 0 acts as 1. -/
def State.ccGain (s : State) (fdie : Nat) : Rat := 1 / ((2 ^ max 1 (s.fld (dieF fdie) Reg.RDM_CC_G_SHIFT) : Nat) : Rat)

/-- The queue pair's rate is not adjusted: class 0 while C0_EXEMPT is 1 (R448). -/
def State.ccExempt (s : State) (q : Qp) : Bool := q.e.cls == 0 && s.flag (dieF q.fdie) Reg.RDM_CC_C0_EXEMPT

def maxRat (a b : Rat) : Rat := if a ≤ b then b else a
def minRat (a b : Rat) : Rat := if a ≤ b then a else b

/-- A CNP: the rate falls, at most once in DEC_US (R447); `g` the gain, `low` the least rate, `dec` DEC_US in ns. -/
def Cc.cnp (x : Cc) (now : Nat) (g low : Rat) (dec : Nat) : Cc :=
  let x := { x with lastCnp := some now }
  if now < x.lastDec + dec then x
  else { x with target := x.rate, rate := maxRat low (x.rate * (1 - x.alpha / 2)), alpha := x.alpha * (1 - g) + g, lastDec := now, steps := 0 }

/-- A rate state after a CNP, by the registers of an F-die. -/
def State.ccCnp (s : State) (fdie : Nat) (x : Cc) : Cc :=
  x.cnp s.ao.tb (s.ccGain fdie) (s.fld (dieF fdie) Reg.RDM_CC_RATE_MIN_MBPS : Nat) (s.fld (dieF fdie) Reg.RDM_CC_DEC_US * 1000)

/-- A CNP for a queue pair, counted. -/
def State.onCnp (s : State) (qpn : Nat) : State :=
  match s.qp qpn with
  | none => s
  | some q =>
    let s := s.rdmCount q.fdie 5 1
    s.setQp qpn { q with cc := if s.ccExempt q then { q.cc with lastCnp := some s.ao.tb } else s.ccCnp q.fdie q.cc }

/-- ALPHA_US without a CNP. -/
def State.ccAlpha (s : State) (fdie : Nat) (x : Cc) : Cc :=
  let now := s.ao.tb
  let from_ := max x.lastAlpha (x.lastCnp.getD 0)
  if now < from_ + s.fld (dieF fdie) Reg.RDM_CC_ALPHA_US * 1000 then x
  else { x with alpha := x.alpha * (1 - s.ccGain fdie), lastAlpha := now }

/-- INC_US after the last decrease or increase, while the rate is below the line rate. -/
def State.ccIncrease (s : State) (fdie : Nat) (line : Rat) (x : Cc) : Cc :=
  let now := s.ao.tb
  if now < max x.lastDec x.lastInc + s.fld (dieF fdie) Reg.RDM_CC_INC_US * 1000 ∨ line ≤ x.rate then x
  else
    let n := x.steps + 1
    let rai : Rat := (s.fld (dieF fdie) Reg.RDM_CC_RATE_RAI_MBPS : Rat)
    let rt := if s.fld (dieF fdie) Reg.RDM_CC_FR_STEPS < n then minRat line (x.target + rai) else x.target
    { x with steps := n, target := rt, rate := (rt + x.rate) / 2, lastInc := now }

/-- Change a rate state: of a queue pair, or of a path of a session. -/
def State.modCc (s : State) (who : CcWho) (f : Nat → Nat → Cc → Cc) : State :=
  match who with
  | .qp n => match s.qp n with
    | some q => s.setQp n { q with cc := f q.fdie q.fp q.cc }
    | none => s
  | .path fd k p => match s.sess (sessKey fd k) with
    | some x =>
      let y := s.path x p
      s.setSess (sessKey fd k) { x with paths := x.paths.insert p { y with cc := f fd (fd * 4 + p / 16) y.cc } }
    | none => s

/-! ## The context cache (R443 to R445) -/

/-- Packets of a queue pair wait for its context. -/
def State.ctxWaits (s : State) (qpn : Nat) : Bool := s.rdma.waiting.any fun w => w.1.qpn == qpn

/-- Bring a context on die; beyond 8,192 the least recently used unpinned one without a packet in process leaves. -/
def State.cacheCtx (s : State) (qpn : Nat) : State :=
  match s.qp qpn with
  | none => s
  | some q =>
    let c := s.rdma.clock + 1
    let s : State := { s with rdma := { s.rdma with clock := c } }
    let s := s.setQp qpn { q with onDie := true, fetching := false, used := c }
    let on := s.rdma.qps.vals.filter fun x => x.fdie == q.fdie && x.onDie
    if on.length ≤ 8192 then s
    else
      let free := on.filter fun x => !x.pinned && x.e.qpn != qpn && !s.ctxWaits x.e.qpn
      match free.foldl (fun (b : Option Qp) x => match b with
        | none => some x
        | some y => if x.used < y.used then some x else b) none with
      | some v => s.setQp v.e.qpn { v with onDie := false }
      | none => s

/-- Start fetches of contexts that packets wait for, at most 64 on an F-die, each counted in CTX_MISS. -/
def State.fetchCtx (s : State) : State :=
  s.rdma.waiting.foldl (fun s w => match s.qp w.1.qpn with
    | some q =>
      let out := (s.rdma.qps.vals.filter fun x => x.fdie == q.fdie && x.fetching).length
      if q.onDie || q.fetching || decide (64 ≤ out) then s
      else (s.setQp w.1.qpn { q with fetching := true }).rdmCount q.fdie 9 1
    | none => s) s

/-! ## Received packets (R445, R446, R451, R457) -/

/-- A packet whose context is on die is processed; it leaves the receive buffer. -/
def State.process (s : State) (h : RoceHdr) (k : RocePkt) : State :=
  let s := s.leaveRx h.port (.roce h.qpn)
  match s.qp h.qpn with
  | none => s
  | some q =>
    if q.error then s
    else
      let s := s.cacheCtx h.qpn
      let s := if h.ce then s.markCe h.qpn else s
      if !h.opOk then s.invalidReq h.qpn h.psn
      else match k with
        | .send first last len => s.onSend h.qpn h.psn first last len
        | .resp first last b => s.onResp h.qpn h.psn first last b
        | .ack a => s.onAckPkt h.qpn h.psn a
        | .cnp => s.onCnp h.qpn

/-- A RoCEv2 packet reaches the RDMA engine of its port's F-die: ICRC, queue-pair number, source, then the context (R457). -/
def State.roceIn (s : State) (h : RoceHdr) (k : RocePkt) : State :=
  let f := h.port / 4
  let drop := fun (i : Nat) => (s.leaveRx h.port (.roce h.qpn)).rdmCount f i 1
  if !s.portUp h.port || !s.flag (dieF f) Reg.RDM_CTRL_EN || !(s.pair.head == .twin || s.pair.head == .solo) then s
  else if !h.icrcOk then drop 1
  else match s.qp h.qpn with
    | none => drop 0
    | some q =>
      if q.fdie ≠ f ∨ h.srcIp ≠ q.e.dstIp ∨ h.srcPort ≠ q.e.srcPort then drop 0
      else if q.onDie && !s.ctxWaits h.qpn then s.process h k
      else ({ s with rdma := { s.rdma with waiting := s.rdma.waiting ++ [(h, k)] } } : State).fetchCtx

/-- A context has been fetched: its packets proceed in order, and the next fetches start. -/
def State.ctxArrived (s : State) (qpn : Nat) : State :=
  match s.qp qpn with
  | none => s
  | some q =>
    if !q.fetching then s
    else
      let s := s.cacheCtx qpn
      let l := s.rdma.waiting.filter fun w => w.1.qpn == qpn
      let s := { s with rdma := { s.rdma with waiting := s.rdma.waiting.filter fun w => w.1.qpn != qpn } }
      (l.foldl (fun s w => s.process w.1 w.2) s).fetchCtx

/-! ## Queue pairs by command (R440 to R443, R451, R461) -/

/-- An exported part read from its 128 bytes (R442); none where a field holds a value outside its table. -/
def QpExport.ofBytes (b : Bytes) : Option QpExport :=
  let n := fun (i w : Nat) => leAt b i w
  let pm := n 7 1 / 2 % 4
  let res := n 7 1 / 16 != 0 || n 55 1 != 0 || n 59 1 != 0 || n 63 1 != 0 || (b.drop 72).any (· != 0)
  if res || pm == 3 || decide (3 < n 3 1) || decide (7 < n 48 1) || n 51 1 == 0 || decide (128 < n 51 1) then none
  else some { qpn := n 0 3, port := n 3 1, remoteQpn := n 4 3, ipv6 := n 7 1 % 2 == 1, admin := n 7 1 / 8 % 2 == 1, mtu := 1024 * 2 ^ pm,
              dstIp := BitVec.ofNat 128 (n 8 16), srcIp := BitVec.ofNat 128 (n 24 16), dstMac := BitVec.ofNat 48 (n 40 6), srcPort := n 46 2,
              cls := n 48 1, timeout := n 49 1, retries := n 50 1 % 8, rnrRetries := n 50 1 / 16 % 8, ord := n 51 1, cntlid := n 52 2,
              qid := n 54 1, epsn := n 56 3, spsn := n 60 3, kadl := n 64 8 }

/-- A context index is free: no queue pair has it, and the time of R441 has passed. -/
def State.ctxFree (s : State) (fdie i : Nat) : Bool :=
  !s.rdma.freed.has (fdie * 65536 + i) && !s.rdma.qps.keys.any fun q => q % 65536 == i && q / 2 ^ 22 % 2 == fdie && qpSide q == s.side

/-- Number of a new queue pair with a context index and the next generation (R440). -/
def State.nextQpn (s : State) (fdie i : Nat) : Nat × Nat :=
  let g := s.rdma.gens.getD (fdie * 65536 + i) 0 % 0x3F + 1
  (s.side * 2 ^ 23 + fdie * 2 ^ 22 + g * 65536 + i, g)

/-- Result of a queue-pair command (R461). -/
def State.qpResult (s : State) (fdie err : Nat) : State :=
  ((s.setFld (dieF fdie) Reg.RDM_QPRES_ERR err).setFlag (dieF fdie) Reg.RDM_QPRES_BUSY false).setFlag (dieF fdie) Reg.RDM_QPRES_DONE true

/-- Create a queue pair from the exported part at an address (R442, R443): the lowest free index; its shadow goes to the partner. -/
def State.qpCreate (s : State) (fdie addr : Nat) : State :=
  match QpExport.ofBytes (s.loads addr 128) with
  | none => s.qpResult fdie 3
  | some e =>
    let own := s.rdma.qps.vals.filter fun q => q.fdie == fdie && qpSide q.e.qpn == s.side
    match (List.range 65536).find? (s.ctxFree fdie) with
    | none => s.qpResult fdie 1
    | some i =>
      if 65536 ≤ own.length then s.qpResult fdie 1
      else
        let (qpn, g) := s.nextQpn fdie i
        let e := { e with qpn := qpn }
        let s := { s with rdma := { s.rdma with gens := s.rdma.gens.insert (fdie * 65536 + i) g } }
        let rate := s.lineRate (fdie * 4 + e.port)
        let s := (s.setQp qpn (Qp.fresh e fdie rate s.ao.tb)).cacheCtx qpn
        let s := if s.mirroring then s.sendShadow qpn else s
        (s.setFld (dieF fdie) Reg.RDM_QPRES_QPN qpn).qpResult fdie 0

/-- Destroy a queue pair (R441): its queue goes as R106 has it, its shadow is deleted, its index waits. -/
def State.qpDestroy (s : State) (fdie qpn : Nat) : State :=
  match s.qp qpn with
  | none => s.qpResult fdie 2
  | some q =>
    if q.fdie ≠ fdie then s.qpResult fdie 2
    else
      let s := s.dropCmds fun c => c.qpn == qpn
      let s := if (s.host.queues.find? (queueKey q.e.cntlid q.e.qid)).any fun u => u.qpn == qpn then
          (if q.e.qid = 0 then s.deleteCtrl q.e.cntlid else s.deleteQueue q.e.cntlid q.e.qid) else s
      let s := if s.mirroring && !q.error then s.send 4 0 0 (.shadowqp false q.e none none) else s
      let freed := if qpSide qpn = s.side then s.rdma.freed.insert (ctxOf qpn) s.ao.tb else s.rdma.freed
      let s := { s with rdma := { s.rdma with qps := s.rdma.qps.erase qpn, freed := freed,
                                              waiting := s.rdma.waiting.filter fun w => w.1.qpn != qpn } }
      s.qpResult fdie 0

/-- Move a queue pair to the error state (R451). -/
def State.qpToError (s : State) (fdie qpn : Nat) : State :=
  match s.qp qpn with
  | some q => if q.fdie = fdie then (s.qpFail qpn).qpResult fdie 0 else s.qpResult fdie 2
  | none => s.qpResult fdie 2

end Sys2Proof.Machine
end

