-- ==== Sys2Proof/Machine/Pronghorn.lean ====
section
/-! DEFINITION. The Pronghorn transport (R474 to R482, R491): GCM lanes, the receiving side, acknowledgement, sessions by command. -/

namespace Sys2Proof.Machine

open Sys2Proof

/-! ## Packets (R475, R476) -/

/-- The 40 bytes of a header, big-endian. -/
def PgHdr.bytes (h : PgHdr) : Bytes :=
  be 1 h.ver ++ be 1 h.ty ++ be 1 h.flags ++ be 1 h.path ++ be 4 h.session ++ be 4 h.msgno ++ be 4 h.mlen ++ be 4 h.offset ++ be 2 h.plen ++
    be 2 h.ce ++ padTo 12 h.iv ++ zeros 4

/-- Read a header. -/
def PgHdr.ofBytes (b : Bytes) : PgHdr :=
  { ver := beAt b 0 1, ty := beAt b 1 1, flags := beAt b 2 1, path := beAt b 3 1, session := beAt b 4 4, msgno := beAt b 8 4,
    mlen := beAt b 12 4, offset := beAt b 16 4, plen := beAt b 20 2, ce := beAt b 22 2, iv := (b.drop 24).take 12 }

/-- Load count in the fixed field of an IV (R231, R481). -/
def PgHdr.load (h : PgHdr) : Nat := ofBe (h.iv.take 4) % 2 ^ 28

/-- Bytes of a Pronghorn frame (R477): Ethernet header, tag, IP, UDP, header, payload, GCM tag, FCS. -/
def State.pgFrameSize (s : State) (p : Nat) (ipv6 : Bool) (len : Nat) : Nat :=
  max 64 (14 + (if s.portFld p Reg.MAC_CFG_VLAN_ID = 0 then 0 else 4) + (if ipv6 then 40 else 20) + 8 + 40 + len + 16 + 4)

/-- A packet has left its GCM lane: counted, and a DATA packet's message notes the time (R480). -/
def State.pgSent (s : State) (k : Nat) (x : Sess) (p : PgTx) : State :=
  let s := s.pgCount p.fdie 0 1
  if p.hdr.ty ≠ 1 then s
  else
    let s := if p.hdr.flags / 2 % 2 = 1 then s.pgCount p.fdie 2 1 else s
    match x.outs.find? p.hdr.msgno with
    | some m => s.setSess k { x with outs := x.outs.insert p.hdr.msgno { m with left := m.left - 1, sentAt := some s.ao.tb } }
    | none => s

/-- The class that an arbiter of GCM lanes serves: class 0 before any other, then classes 1 to 7 by their weights (R62, R240). `key` names
the arbiter among `dst.turns`. -/
def State.gcmClass (s : State) (key : Nat) (waits : Nat → Bool) : Option (Nat × State) :=
  if waits 0 then some (0, s)
  else (wrrNext 8 (s.cweight (dieF 0)) (fun c => c != 0 && waits c) (s.dst.turns.getD key (0, 0))).map fun ct =>
    (ct.1, { s with dst := { s.dst with turns := s.dst.turns.insert key ct.2 } })

/-- A lane of a tile protects the next packet that waits for it and hands it to its port (R230, R231, R240, R475): packets of its own
sessions, and of tiles without a GCM lane whose work comes to it (R245). The key and the IV are the session's (log entry 219). -/
def State.gcmEncrypt (s : State) (tile : Nat) : State :=
  let due := fun (c : Nat) (p : PgTx) => (s.sess (sessKey p.fdie p.session)).any fun x => s.laneTile .gcm x.d.tile == some tile && x.d.cls == c
  match s.gcmClass (tile * 8 + LaneKind.gcm.num) (fun c => s.pgt.tx.any (due c)) with
  | none => s
  | some (c, s) =>
  match s.pgt.tx.find? (due c) with
  | none => s
  | some p =>
    let k := sessKey p.fdie p.session
    match s.sess k with
    | none => s
    | some x => match s.keys.gcm.find? (gcmKey x.d.tile x.d.txEntry) with
      | none => s
      | some e =>
        let hdr := { p.hdr with iv := s.gcmIv x.d.tile e }
        match s.gcmSeal x.d.tile x.d.txEntry hdr.bytes p.payload with
        | (_, none) => s
        | (s, some (_, ct, tag)) =>
          let s := { s with pgt := { s.pgt with tx := s.pgt.tx.eraseP (due c) } }
          let s := s.queueFrame p.port
            { cls := x.d.cls, control := false, size := s.pgFrameSize p.port x.d.ipv6 p.payload.length, qp := none, adopted := false, ip := true,
              who := some (.path p.fdie p.hdr.session (p.port % 4 * 16 + p.hdr.path)) }
          let s := s.emit (.pronghorn p.fdie p.port (x.d.sportBase + p.hdr.path) x.d.raddr (hdr.bytes ++ ct ++ tag))
          s.pgSent k x p

/-- Class of a received Pronghorn packet: its session's; one of no session waits at the lowest. -/
def State.pgClass (s : State) (p : Nat) (u : Bytes) : Nat := ((s.sess (sessKey (p / 4) (PgHdr.ofBytes u).session)).map fun x => x.d.cls).getD 7

/-- First Pronghorn frame of a class in a port's receive buffer. -/
def State.pgFirst (s : State) (p c : Nat) : Option (RxDest × Bool × Nat × Bytes) :=
  (s.fport p).rx.findSome? fun e => match e.1 with
    | .pronghorn ce n u => if s.pgClass p u = c then some (e.1, ce, n, u) else none
    | _ => none

/-- A lane verifies the next Pronghorn packet of a port (R233, R240, R476): one of the session's tile, or of the tile its work passes to
(R245). Packets that R481 and R491 turn away never reach it. -/
def State.gcmDecrypt (s : State) (p : Nat) : State :=
  match s.gcmClass (1024 + p) (fun c => (s.pgFirst p c).isSome) with
  | none => s
  | some (c, t) =>
  match s.pgFirst p c with
  | none => s
  | some (d, ce, n, u) =>
    let f := p / 4
    let h := PgHdr.ofBytes u
    let gone := fun (i : Nat) => ((s.leaveRx p d).pgCount f 1 1).pgCount f i 1
    if u.length < 56 ∨ h.ver ≠ 1 ∨ h.ty < 1 ∨ 4 < h.ty then gone 8
    else match s.sess (sessKey f h.session) with
      | none => gone 7
      | some x =>
        if n ≠ 8 + 40 + h.plen + 16 ∨ u.length ≠ 56 + h.plen then gone 8
        else if h.load < x.rxLoad then gone 5
        else if (s.laneTile .gcm x.d.tile).isNone then s
        else
          let s := (t.leaveRx p d).pgCount f 1 1
          match s.gcmOpen x.d.tile x.d.rxEntry h.iv (u.take 40) ((u.drop 40).take h.plen) (u.drop (40 + h.plen)) with
          | (s, none) => s.pgCount f 4 1
          | (s, some b) => { s with pgt := { s.pgt with rx := s.pgt.rx ++ [{ fdie := f, port := p, ce := ce, hdr := h, payload := b }] } }

/-! ## Receiving (R479 to R481) -/

/-- Send an ACK on the path of the last DATA packet, with the ECN marks since the last one (R475, R480). -/
def State.sendPgAck (s : State) (k : Nat) : State :=
  match s.sess k with
  | none => s
  | some x =>
    let whole := fun (i : Nat) => (x.ins.find? (x.rxCum + i)).any fun m => m.got == m.mlen
    let b := be 4 x.rxCum ++ bitmap 256 whole
    let s := s.setSess k { x with ce := 0 }
    s.pgPacket x x.lastPath { PgHdr.blank 2 with ce := min 0xFFFF x.ce } 0 b

/-- Send a NACK for an incomplete message: its slots from the first missing one on (R480). -/
def State.sendPgNack (s : State) (k msgno : Nat) : State :=
  match s.sess k with
  | none => s
  | some x => match x.ins.find? msgno with
    | none => s
    | some m =>
      let n := s.slotCount x.fdie m.mlen
      let base := ((List.range n).find? fun i => !m.slots.has i).getD 0
      let s := s.setSess k { x with ins := x.ins.insert msgno { m with newAt := s.ao.tb } }
      (s.pgCount x.fdie 3 1).pgPacket x x.lastPath { PgHdr.blank 3 with msgno := msgno } 0
        (be 2 base ++ zeros 2 ++ bitmap 1024 fun i => m.slots.has (base + i))

/-- Deliver complete messages in order (R479); a message of no kind of R483 is dropped. -/
def State.pgDeliver (s : State) (k : Nat) : Nat → State
  | 0 => s
  | fuel + 1 => match s.sess k with
    | none => s
    | some x => match x.ins.find? x.rxCum with
      | none => s
      | some m =>
        if m.got ≠ m.mlen then s
        else
          let b := m.slots.vals.flatMap id
          let known := decide (16 ≤ b.length) && decide (1 ≤ leAt b 0 1) && decide (leAt b 0 1 ≤ 8)
          let x := { x with ins := x.ins.erase x.rxCum, rxCum := x.rxCum + 1, ready := if known then x.ready ++ [b] else x.ready }
          ((if known then s else s.pgCount x.fdie 8 1).setSess k x).pgDeliver k fuel

/-- A verified packet of a session: a load count above the current one begins a new generation, one below is late (R481). -/
def State.pgGeneration (s : State) (k : Nat) (x : Sess) (h : PgHdr) : Option State :=
  if h.load < x.rxLoad then none
  else if h.load = x.rxLoad then some s
  else some (s.setSess k { x with rxLoad := h.load, rxCum := 0, ins := [] })

/-- Bytes of the message buffers of an F-die. -/
def State.rxBytes (s : State) (fdie : Nat) : Nat :=
  (s.pgt.sess.vals.filter fun x => x.fdie == fdie).foldl (fun n x => x.ins.vals.foldl (fun n m => n + m.mlen) n) 0

/-- Place a DATA packet (R479, R491). -/
def State.pgData (s : State) (k : Nat) (x : Sess) (p : PgRx) : State :=
  let h := p.hdr
  let f := x.fdie
  let pl := s.pgPayload f
  let viol := s.pgCount f 8 1
  if h.mlen = 0 ∨ maxMsg < h.mlen ∨ h.offset % pl ≠ 0 ∨ h.mlen < h.offset + h.plen ∨ h.plen ≠ min pl (h.mlen - h.offset) ∨ h.plen = 0 ∨
      (h.flags % 2 = 1 ∧ h.offset + h.plen ≠ h.mlen) ∨ x.rxCum + 256 ≤ h.msgno then viol
  else
    let x := { x with lastPath := p.port % 4 * 16 + h.path % 16, ce := x.ce + if p.ce then 1 else 0 }
    let s := s.setSess k x
    if h.msgno < x.rxCum then s.sendPgAck k
    else
      let fresh : PgIn := { mlen := h.mlen, slots := [], got := 0, newAt := s.ao.tb, bad := 0 }
      let none_ := (x.ins.find? h.msgno).isNone
      let m := (x.ins.find? h.msgno).getD fresh
      if none_ && decide (s.fld (dieF f) Reg.PGT_CFG_RXBUF_MIB * 2 ^ 20 < s.rxBytes f + h.mlen) then s.pgCount f 6 1
      else if m.mlen ≠ h.mlen then
        let s := s.pgCount f 8 1
        if m.bad + 1 < 16 then s.setSess k { x with ins := x.ins.insert h.msgno { m with bad := m.bad + 1 } }
        else (s.setSess k { x with ins := x.ins.erase h.msgno }).event (dieF f) 0x17 6 h.session
      else
        let i := h.offset / pl
        if m.slots.has i then s
        else
          let m := { m with slots := m.slots.insert i p.payload, got := m.got + h.plen, newAt := s.ao.tb }
          let s := s.setSess k { x with ins := x.ins.insert h.msgno m }
          if m.got ≠ m.mlen then s else ((s.pgCount f 10 1).pgDeliver k 257).sendPgAck k

/-! ## Acknowledgement at the sender (R478, R480, R482) -/

/-- Paths on which a message's slots were last sent. -/
def PgOut.usedPaths (m : PgOut) : List Nat := m.slotPath.vals.eraseDups

/-- An ACK: messages below CUM and those that its bitmap shows complete are done; CE acts as a CNP on each active path. -/
def State.pgAck (s : State) (k : Nat) (x : Sess) (p : PgRx) : State :=
  let cum := beAt p.payload 0 4
  if x.nextMsg < cum ∨ p.payload.length ≠ 36 then s
  else
    let map := p.payload.drop 4
    let done := fun (n : Nat) => decide (n < cum) || (decide (n < cum + 256) && bitSet map (n - cum))
    let old := x.outs.keep fun n _ => done n
    let s := s.setSess k { x with cum := max x.cum cum, outs := x.outs.keep fun n _ => !done n }
    let s := (old.vals.flatMap PgOut.usedPaths).eraseDups.foldl (fun s q => s.pathReport k q false) s
    let s := match s.sess k with
      | some x =>
        let ps := if p.hdr.ce = 0 then x.paths
          else x.active.foldl (fun m q => m.insert q (let y := s.path x q; { y with cc := s.ccCnp x.fdie y.cc })) x.paths
        s.setSess k { x with paths := ps }
      | none => s
    s.pgFlush k 257

/-- A NACK: the slots it shows missing are sent again (R480). -/
def State.pgNack (s : State) (k : Nat) (x : Sess) (p : PgRx) : State :=
  let n := p.hdr.msgno
  match x.outs.find? n with
  | none => s
  | some m =>
    let base := beAt p.payload 0 2
    let map := p.payload.drop 4
    let slots := (List.range (min 1024 (map.length * 8))).filter fun i => decide (base + i < s.slotCount x.fdie m.bytes.length)
    let s := s.setSess k { x with outs := x.outs.insert n { m with heardAt := s.ao.tb } }
    slots.foldl (fun s i =>
      let q := m.slotPath.getD (base + i) 0
      if bitSet map i then s.pathReport k q false else (s.pathReport k q true).sendSlot k n (base + i) true) s

/-- RTO_US after a message's last packet without an ACK or NACK: every slot is sent again. -/
def State.pgRto (s : State) (k msgno : Nat) : State :=
  match s.sess k with
  | none => s
  | some x => match x.outs.find? msgno with
    | none => s
    | some m => match m.sentAt with
      | none => s
      | some t =>
        if m.left ≠ 0 ∨ s.ao.tb < max t m.heardAt + s.fld (dieF x.fdie) Reg.PGT_CFG_RTO_US * 1000 then s
        else
          let s := m.slotPath.vals.foldl (fun s q => s.pathReport k q true) s
          s.sendSlots k msgno true

/-! ## A new generation -/

/-- A new generation of the sending direction (R481, R490): message numbers start at 0; replies go out again, the cycle restarts at step 2
and records without a JACK are sent again. -/
def State.sessGeneration (s : State) (fdie addr : Nat) : State :=
  match s.readDesc addr with
  | none => s.sessResult fdie 3
  | some d =>
    let k := sessKey fdie d.session
    match s.sess k with
    | none => s.sessResult fdie 2
    | some x =>
      let replies := (x.outs.vals.map PgOut.bytes ++ x.queue).filter fun b => [2, 6, 8].contains (leAt b 0 1)
      let src := x.src.map fun c => { c with listed := false, want := none, parts := ([] : SMap Bytes), mapsSent := false }
      let y := { x with d := d, nextMsg := 0, cum := 0, outs := [], queue := [], src := src }
      let s := { s with pgt := { s.pgt with tx := s.pgt.tx.filter fun t => !(t.fdie == fdie && t.session == d.session && t.hdr.ty == 1) } }
      let s := (s.setSess k y).sendProbe k
      let s := replies.foldl (fun s b => s.sendMsg k b) s
      (s.resendJrecs k).sessResult fdie 0

end Sys2Proof.Machine
end

