-- ==== Sys2Proof/Machine/PgtRows.lean ====
section
/-! DEFINITION. The commands of the Pronghorn transport, of replication and of snapshots (spec/10), and the GCM lanes (R230 to R233). -/

namespace Sys2Proof.Machine

open Sys2Proof

/-- GCM_ENCRYPT (R230, R231): a lane of a tile takes the first packet that waits for one. -/
def execGcmEncrypt (tile : Nat) (s : State) : Res := if s.lanes .gcm tile = 0 then .next s else .next (s.gcmEncrypt tile)

/-- GCM_DECRYPT (R230, R233, R476): a lane takes the first Pronghorn packet of a front port. -/
def execGcmDecrypt (p : Nat) (s : State) : Res := .next (s.gcmDecrypt p)

/-- SNAPSHOT_READY (R465). -/
def execSnapshotReady (id : Nat) (s : State) : Res :=
  match s.findSnap id with
  | some (nsid, n, x) =>
    if s.serving && x.state == .pending && s.snapSettled nsid x then
      .next (s.putNs nsid { n with snaps := n.snaps.insert id { x with state := .ready } }).settle
    else .next s
  | none => .next s

/-! ## Packets -/

/-- Take the first verified packet of an F-die if it is of a type, through the check of its generation. -/
def State.withPacket (s : State) (fdie ty : Nat) (go : State → Nat → Sess → PgRx → State) : State :=
  match s.pgt.rx.find? fun p => p.fdie == fdie with
  | none => s
  | some p =>
    if p.hdr.ty ≠ ty then s
    else
      let s := { s with pgt := { s.pgt with rx := s.pgt.rx.erase p } }
      let k := sessKey fdie p.hdr.session
      match s.sess k with
      | none => s.pgCount fdie 7 1
      | some x => match s.pgGeneration k x p.hdr with
        | none => s.pgCount fdie 5 1
        | some s => match s.sess k with
          | some x => go s k x p
          | none => s

/-- PRONGHORN_DATA (R479, R480, R481, R491). -/
def execPronghornData (fdie : Nat) (s : State) : Res := .next (s.withPacket fdie 1 State.pgData)

/-- PRONGHORN_ACK (R480, R482). -/
def execPronghornAck (fdie : Nat) (s : State) : Res := .next (s.withPacket fdie 2 State.pgAck)

/-- PRONGHORN_NACK (R478, R480). -/
def execPronghornNack (fdie : Nat) (s : State) : Res := .next (s.withPacket fdie 3 State.pgNack)

/-- PRONGHORN_PROBE (R481): it carries nothing but its load count. -/
def execPronghornProbe (fdie : Nat) (s : State) : Res := .next (s.withPacket fdie 4 fun s _ _ _ => s)

/-- PGT_NACK_TIMEOUT (R480): NACK_US without a new slot of an incomplete message. -/
def execPgtNackTimeout (fdie session msgno : Nat) (s : State) : Res :=
  let k := sessKey fdie session
  match (s.sess k).bind fun x => x.ins.find? msgno with
  | some m =>
    if m.got ≠ m.mlen ∧ m.newAt + s.fld (dieF fdie) Reg.PGT_CFG_NACK_US * 1000 ≤ s.ao.tb then .next (s.sendPgNack k msgno) else .next s
  | none => .next s

/-- PGT_RTO (R478, R480). -/
def execPgtRto (fdie session msgno : Nat) (s : State) : Res := .next (s.pgRto (sessKey fdie session) msgno)

/-- PATH_QUARANTINE_END (R478): 100 ms after the quarantine of a path. -/
def execPathQuarantineEnd (fdie session path : Nat) (s : State) : Res :=
  let k := sessKey fdie session
  match s.sess k with
  | none => .next s
  | some x => match x.paths.find? path with
    | some { bad := b, quar := some t, cc := c } =>
      if t + 10 ^ 8 ≤ s.ao.tb then .next (s.setSess k { x with paths := x.paths.insert path { bad := b, quar := none, cc := c } })
      else .next s
    | _ => .next s

/-! ## Replication messages (R483 to R489, R491) -/

/-- Take the first delivered message of a session if it is of a kind. `toReplica`: it goes to the replica, whose NSID it must name; else
it is a reply, and names the remote namespace (R491). -/
def State.withMsg (s : State) (fdie session kind : Nat) (toReplica : Bool) (go : State → Nat → Sess → Bytes → State) : State :=
  let k := sessKey fdie session
  match s.sess k with
  | none => s
  | some x => match x.ready with
    | [] => s
    | b :: rest =>
      if leAt b 0 1 ≠ kind then s
      else
        let ok := if toReplica then leAt b 8 4 == x.d.nsid && (s.ns x.d.nsid).any NsRec.replica else leAt b 8 4 == x.d.rnsid
        let x := { x with ready := rest }
        let s := s.setSess k x
        if ok then go s k x b else s.event (dieF fdie) 0x17 11 session

/-- FPLIST (R484): the remote head looks up every fingerprint and asks for those that do not confirm. -/
def execFplist (fdie session : Nat) (s : State) : Res :=
  .next (s.withMsg fdie session 1 true fun s k x b =>
    let n := leAt b 12 4
    let body := b.drop 16
    if body.length ≠ 36 * n then s.abandonBatch k 10
    else
      let fps := (List.range n).map fun i => ((body.drop (36 * i)).take 32, leAt body (36 * i + 32) 4)
      let d : DstBatch := { batch := leAt b 4 4, fps := fps, items := [], asked := [], held := false, commit := false, snap := none }
      let dom := ((s.ns x.d.nsid).map NsRec.domain).getD 0
      let missing := (List.range n).filter fun i => match fps[i]? with
        | some f => (s.confirmed dom f).isNone
        | none => false
      (s.setSess k { x with dst := some d }).sendNeed k x d fun i => missing.contains i).settle

/-- NEED (R485, R486): the source reads the chunks asked for and sends them; after the first NEED its MAPS and COMMIT follow. -/
def execNeed (fdie session : Nat) (s : State) : Res :=
  .next (s.withMsg fdie session 2 false fun s k x b =>
    match x.src with
    | some c =>
      if c.batch ≠ leAt b 4 4 ∨ !c.listed then s
      else
        let l := (List.range (min (leAt b 12 4) c.fps.length)).filter fun i => bitSet (b.drop 16) i
        s.fetchNeeded k x c (((c.want.getD []) ++ l).eraseDups)
    | none => s).settle

/-- The chunks of a CHUNKS message, inflated and of their lengths; none where one is not (R485, R491). -/
def takeChunks (fps : List (Bytes × Nat)) : List (Nat × Nat × Bytes) → Option (List (Bytes × Bytes))
  | [] => some []
  | (i, ulen, st) :: l => match fps[i]?, inflate st, takeChunks fps l with
    | some f, some b, some r => if b.length = ulen ∧ f.2 = ulen then some ((f.1, b) :: r) else none
    | _, _, _ => none

/-- CHUNKS (R485, R491): each chunk goes to a lane for its fingerprint, and is stored when it is the one announced. -/
def execChunks (fdie session : Nat) (s : State) : Res :=
  .next (s.withMsg fdie session 3 true fun s k x b =>
    match x.dst, s.ns x.d.nsid with
    | some d, some n =>
      if d.batch ≠ leAt b 4 4 then s
      else match (readChunks (leAt b 12 4) (b.drop 16)).bind (takeChunks d.fps) with
        | none => s.badBatch k
        | some [] => s
        | some l =>
          let id := s.dst.nextPack
          let j : Job := { side := s.side, seqs := [], shard := 0, tile := x.d.tile, cls := x.d.cls, nsid := x.d.nsid, domain := n.domain,
                           kv := n.kv, key := [], vlen := 0, slba := 0, arrival := s.ao.tb,
                           chunks := l.map fun fb => { bytes := fb.2, st := .hash }, held := false, noDom := false, fix := 0, fixed := false,
                           repl := some (k, l.map Prod.fst), txn := none }
          let s := s.setSess k { x with dst := some { d with asked := [] } }
          ({ s with dst := { s.dst with nextPack := id + 1 } } : State).setJob id j
    | _, _ => s).settle

/-- A MAPS item is well formed: its indexes lie in the FPLIST, its LBA in the namespace, its key has 1 to 16 bytes (R491). -/
def MapIt.ok (fps blocks : Nat) : MapIt → Bool
  | .block lba i => decide (lba < blocks) && i.all fun i => decide (i < fps)
  | .value key _ l => decide (1 ≤ key.length) && decide (key.length ≤ 16) && (l.getD []).all fun i => decide (i < fps)

/-- MAPS (R484, R487, R491): its items are applied in order. `fix` and `root` are control-plane firmware's page images for an item that
waits for a split of its leaf (R257). -/
def execMaps (fdie session : Nat) (fix : List Item) (root : Option (Nat × Nat)) (s : State) : Res :=
  let k := sessKey fdie session
  match s.sess k with
  | some { d := d, dst := some b, .. } =>
    if b.held && !fix.isEmpty then
      let s := (s.logTxn none 0 0 fix).1
      let s := match root, s.ns d.nsid with
        | some (r, i), some n => s.putNs d.nsid { n with root := r, index := i }
        | _, _ => s
      let x := s.sess k
      .next ((match x with
        | some x => s.setSess k { x with dst := some { b with held := false } }
        | none => s).settle)
    else .next (s.withMsg fdie session 4 true fun s k x m =>
      match s.ns d.nsid with
      | some n =>
        if b.batch ≠ leAt m 4 4 then s
        else match readMaps n.kv (leAt m 12 4) (m.drop 16) with
          | some l => if l.all (MapIt.ok b.fps.length n.blocks) then s.setSess k { x with dst := some { b with items := b.items ++ l } }
            else s.abandonBatch k 10
          | none => s.abandonBatch k 10
      | none => s).settle
  | _ => .next (s.withMsg fdie session 4 true fun s _ _ _ => s).settle

/-- COMMIT (R487): the batch is complete; COMMITTED follows when the replica snapshot is READY. -/
def execCommit (fdie session : Nat) (s : State) : Res :=
  .next (s.withMsg fdie session 5 true fun s k x b =>
    match x.dst with
    | some d => if d.batch = leAt b 4 4 then s.setSess k { x with dst := some { d with commit := true } } else s
    | none => s).settle

/-- COMMITTED (R486). -/
def execCommitted (fdie session : Nat) (s : State) : Res :=
  .next (s.withMsg fdie session 6 false fun s k x b =>
    match x.src with
    | some c => if c.batch = leAt b 4 4 && c.mapsSent then s.nextCycle k x c else s
    | none => s).settle

/-- Key of the records a remote pair has had accepted: within the last second, or still in a journal half (R489). -/
def State.jrecSeen (s : State) (x : Sess) (tag : Nat) : Bool :=
  (x.seen.any fun t => t.1 == tag && decide (s.ao.tb < t.2 + 10 ^ 9)) ||
    s.allRecs.any fun r => r.tag == tag && decide (s.ao.tb < r.append + 10 ^ 9)

/-- JREC (R488, R489, R491): appended as a write to the replica, and acknowledged once it is mirrored; a duplicate is only acknowledged.
Without room in the journal it waits. -/
def execJrec (fdie session : Nat) (s : State) : Res :=
  let k := sessKey fdie session
  let rec_ := ((s.sess k).bind fun x => x.ready.head?).map fun b => JRec.ofBytes (b.drop 16)
  match rec_ with
  | some (some r) =>
    let media := ((s.sess k).bind fun x => s.ns x.d.nsid).any NsRec.mediaDur
    if !s.serving || !s.roomFor 1 r.size (media || s.soloMedia) then .next s
    else .next (s.withMsg fdie session 7 true fun s k x _ =>
      let tag := r.jtag
      if s.jrecSeen x tag then s.sendMsg k (repHead 8 0 x.d.nsid 1 ++ le 8 tag)
      else
        let q := s.jrnl.nextSeq
        let s := s.appendRec { r with nsid := x.d.nsid, tag := tag, cls := 1, mediaDur := media, epoch := s.epoch, arrival := s.ao.tb }
        match s.sess k with
        | some x =>
          let seen := (x.seen.filter fun t => decide (s.ao.tb < t.2 + 10 ^ 9)) ++ [(tag, s.ao.tb)]
          s.setSess k { x with jacks := x.jacks ++ [q], seen := seen }
        | none => s).settle
  | some none => .next (s.withMsg fdie session 7 true fun s _ x _ => s.pgCount x.fdie 8 1)
  | none => .next s

/-- JACK (R488): the records it names wait no longer. -/
def execJack (fdie session : Nat) (s : State) : Res :=
  .next (s.withMsg fdie session 8 false fun s k x b =>
    let tags := (List.range (leAt b 12 4)).map fun i => leAt b (16 + 8 * i) 8
    let js := (tags.filter fun t => t / 2 ^ 48 == 0xFFFF).map (· % 2 ^ 48)
    let s := s.setSess k { x with jrecs := js.foldl (fun m j => m.erase j) x.jrecs }
    js.foldl (fun s j => s.setJack (j / 2 ^ 47) (j % 2 ^ 47) true) s).settle

/-- SYNC_REPL_TIMEOUT (R490): a record has had no JACK for SYNC_MS (0 acts as 1) after it was first sent. -/
def execSyncReplTimeout (fdie session : Nat) (s : State) : Res :=
  let k := sessKey fdie session
  match s.sess k with
  | some x =>
    let ms := max 1 (s.fld (dieF fdie) Reg.PGT_CFG_SYNC_MS)
    if x.jrecs.vals.any fun t => decide (t + ms * 10 ^ 6 ≤ s.ao.tb) then .next ((s.degrade k).event (dieF fdie) 0x17 0 session).settle
    else .next s
  | none => .next s

/-! ## Sessions (R474, R481, R490, R494) -/

/-- SESSION_CREATE: PGT_SESSCMD with OP 1. -/
def execSessionCreate (fdie addr : Nat) (s : State) : Res :=
  if fdie < s.variant.sides then .next (s.sessCreate fdie addr).settle else .next s

/-- SESSION_DESTROY: OP 2. -/
def execSessionDestroy (fdie session : Nat) (s : State) : Res :=
  if fdie < s.variant.sides then .next (s.sessDestroy fdie session).settle else .next s

/-- SESSION_NEW_GENERATION: OP 3. -/
def execSessionNewGeneration (fdie addr : Nat) (s : State) : Res :=
  if fdie < s.variant.sides then .next (s.sessGeneration fdie addr).settle else .next s

/-- SESSION_SET_DEGRADED: OP 4. -/
def execSessionSetDegraded (fdie session : Nat) (s : State) : Res :=
  if s.variant.sides ≤ fdie then .next s
  else if (s.sess (sessKey fdie session)).isNone then .next (s.sessResult fdie 2)
  else .next ((s.degrade (sessKey fdie session)).sessResult fdie 0).settle

/-- SESSION_CLEAR_DEGRADED: OP 5. -/
def execSessionClearDegraded (fdie session : Nat) (s : State) : Res :=
  if s.variant.sides ≤ fdie then .next s
  else match s.sess (sessKey fdie session) with
    | some x => .next ((s.setSess (sessKey fdie session) { x with degraded := false }).sessResult fdie 0).settle
    | none => .next (s.sessResult fdie 2)

end Sys2Proof.Machine
end

