-- ==== Sys2Proof/Machine/PortRows.lean ====
section
/-! DEFINITION. The commands of the front ports and RDMA engines (spec/09). -/

namespace Sys2Proof.Machine

open Sys2Proof

/-! ## Frames -/

/-- FRAME_RECEIVE (R415 to R423, R434 to R437, R457): a frame arrives at front port `p`: whether its FCS is right, and its bytes without
it. What goes to the pause logic, the RDMA or Pronghorn engine or the address responder waits in its pool for that unit's own
command. -/
def execFrameReceive (p : Nat) (fcsOk : Bool) (bytes : Bytes) (s : State) : Res :=
  if s.portUp p && s.pair.head != .off then .next (s.receiveFrame p fcsOk bytes) else .next s

/-- LOSSLESS_XON (R428): the lossless pool of a paused port has fallen to XON_KIB. -/
def execLosslessXon (p : Nat) (s : State) : Res :=
  let x := s.fport p
  if x.xoff.isSome && decide (x.used .lossless ≤ s.xonBytes p) then .next ((s.setFport p { x with xoff := none }).sendPause p 0)
  else .next s

/-- PFC_REFRESH (R428): half of the last time sent has passed, and the pool is still above XON_KIB. -/
def execPfcRefresh (p : Nat) (s : State) : Res :=
  let x := s.fport p
  match x.xoff with
  | some t =>
    if decide (s.xonBytes p < x.used .lossless) && decide (t + s.quanta p 0xFFFF / 2 ≤ s.ao.tb) then
      .next ((s.setFport p { x with xoff := some s.ao.tb }).sendPause p 0xFFFF)
    else .next s
  | none => .next s

/-- PAUSE_FRAME (R427, R430, R431, R457): a MAC control frame with its opcode, and its times in quanta by priority (a PAUSE carries
one). -/
def execPauseFrame (p op : Nat) (times : List (Nat × Nat)) (s : State) : Res :=
  if s.portUp p && s.pair.head != .off then .next (s.pauseFrame p op times) else .next s

/-- PAUSE_EXPIRY (R430): the time of a held priority has passed. -/
def execPauseExpiry (p prio : Nat) (s : State) : Res :=
  let x := s.fport p
  match x.hold.find? prio with
  | some (till, _) => if till ≤ s.ao.tb then .next (s.setHold p (x.hold.erase prio)) else .next s
  | none => .next s

/-- PAUSE_STORM (R431): a priority has been held without a break for STORM_MS. -/
def execPauseStorm (p prio : Nat) (s : State) : Res :=
  let x := s.fport p
  let ms := s.portFld p Reg.MAC_PFC_STORM_MS
  match x.hold.find? prio with
  | some (till, since) =>
    if ms ≠ 0 ∧ s.ao.tb < till ∧ since + ms * 10 ^ 6 ≤ s.ao.tb then
      let s := s.setHold p (x.hold.erase prio)
      let y := s.fport p
      .next ((s.setFport p { y with storm := y.storm.insert prio s.ao.tb }).event (portDie p) 0x10 0 (p % 4))
    else .next s
  | none => .next s

/-- PAUSE_STORM_END (R431): 100 ms without a pause frame for the priority. -/
def execPauseStormEnd (p prio : Nat) (s : State) : Res :=
  let x := s.fport p
  match x.storm.find? prio with
  | some t => if t + 10 ^ 8 ≤ s.ao.tb then .next (s.setFport p { x with storm := x.storm.erase prio }) else .next s
  | none => .next s

/-- TX_FRAME_DONE (R158, R416, R424 to R426, R432, R456): the frame in transmission is out, and the next is chosen. -/
def execTxFrameDone (p : Nat) (s : State) : Res :=
  let x := s.fport p
  match x.sending with
  | some f =>
    if !s.hasLink p || !s.mayTransmit || s.txStopped p f then .next s
    else
      let s := (s.setFport p { x with sending := none }).emit (s.frameOut p f)
      let s := (s.portCount p 10 1).portCount p 11 f.size
      let s := if f.control then s.portCount p 12 1 else s
      .next (s.startTx p)
  | none => .next (s.startTx p)

/-- COUNTER_SNAPSHOT (R433): MAC_SNAP.GO is written with 1. -/
def execCounterSnapshot (p : Nat) (s : State) : Res := if s.fps.contains p then .next (s.snapCounters p) else .next s

/-- ADDRESS_REQUEST (R419): an ARP request (kind 1) or neighbour solicitation (kind 2) for an address. -/
def execAddressRequest (p kind : Nat) (addr : BitVec 128) (s : State) : Res :=
  let s := s.leaveRx p .address
  if s.portUp p && (s.pair.head == .twin || s.pair.head == .solo) && s.flag (dieF 0) Reg.TKO_STATE_LEASE && s.isActiveAddr p kind addr then
    .next ((s.queueFrame p (addrFrame kind (s.isAdoptedAddr p kind addr))).emit (.addrReply (p / 4) (p % 4) kind addr))
  else .next s

/-! ## RoCEv2 packets -/

/-- ROCE_SEND (R438, R446, R449, R457): a SEND packet with its place in its message and the length of its payload. The capsule that its
last packet completes waits for the command row that it carries. -/
def execRoceSend (h : RoceHdr) (first last : Bool) (len : Nat) (s : State) : Res := .next (s.roceIn h (.send first last len)).settle

/-- RDMA_READ_RESPONSE (R100, R449, R457). -/
def execRdmaReadResponse (h : RoceHdr) (first last : Bool) (bytes : Bytes) (s : State) : Res :=
  .next (s.roceIn h (.resp first last bytes)).settle

/-- ROCE_ACKNOWLEDGE (R147, R450, R451). -/
def execRoceAcknowledge (h : RoceHdr) (k : AckKind) (s : State) : Res := .next (s.roceIn h (.ack k)).settle

/-- CNP_RECEIVE (R447, R448, R457). -/
def execCnpReceive (h : RoceHdr) (s : State) : Res := .next (s.roceIn h .cnp)

/-- CC_ALPHA_UPDATE (R447): of a queue pair, or of a path of a Pronghorn session (R482). -/
def execCcAlphaUpdate (who : CcWho) (s : State) : Res := .next (s.modCc who fun f _ x => s.ccAlpha f x)

/-- CC_RATE_INCREASE (R447). -/
def execCcRateIncrease (who : CcWho) (s : State) : Res := .next (s.modCc who fun f p x => s.ccIncrease f (s.lineRate p) x)

/-- REORDER_TIMEOUT (R449): packets of a queue pair have been held for REORDER_US. -/
def execReorderTimeout (qpn : Nat) (s : State) : Res :=
  match s.qp qpn with
  | none => .next s
  | some q =>
    let us := s.fld (dieF q.fdie) Reg.RDM_CTRL_REORDER_US * 1000
    let due := fun (t : Option Nat) => t.any fun t => decide (t + us ≤ s.ao.tb)
    let s' := if due q.heldSince then s.expireSends qpn else s
    .next (if due q.heldRSince then s'.expireResps qpn else s')

/-- CONTEXT_FETCH_DONE (R445). -/
def execContextFetchDone (qpn : Nat) (s : State) : Res := .next (s.ctxArrived qpn).settle

/-- LOCAL_ACK_TIMEOUT (R442, R451): 4.096 µs · 2^TIMEOUT without progress while packets are out. -/
def execLocalAckTimeout (qpn : Nat) (s : State) : Res :=
  match s.qp qpn with
  | some q =>
    if !q.error && !q.sent.isEmpty && decide (q.lastTx + 4096 * 2 ^ q.e.timeout ≤ s.ao.tb) then .next (s.ackTimeout qpn).settle
    else .next s
  | none => .next s

/-! ## Queue pairs -/

/-- QP_CREATE (R440, R442, R443, R461): RDM_QPCMD with OP 1. -/
def execQpCreate (fdie addr : Nat) (s : State) : Res :=
  if fdie < s.variant.sides then .next (s.qpCreate fdie addr) else .next s

/-- QP_DESTROY (R441, R461): RDM_QPCMD with OP 2. -/
def execQpDestroy (fdie qpn : Nat) (s : State) : Res :=
  if fdie < s.variant.sides then .next (s.qpDestroy fdie qpn).settle else .next s

/-- QP_MOVE_TO_ERROR (R106, R451, R461): RDM_QPCMD with OP 3. -/
def execQpMoveToError (fdie qpn : Nat) (s : State) : Res :=
  if fdie < s.variant.sides then .next (s.qpToError fdie qpn).settle else .next s

/-- QP_REUSE_EXPIRY (R441): REUSE_MS (0 acts as 1) after a queue pair was destroyed. -/
def execQpReuseExpiry (fdie index : Nat) (s : State) : Res :=
  let k := fdie * 65536 + index
  match s.rdma.freed.find? k with
  | some t =>
    if t + max 1 (s.fld (dieF fdie) Reg.RDM_REUSE_REUSE_MS) * 10 ^ 6 ≤ s.ao.tb then
      .next { s with rdma := { s.rdma with freed := s.rdma.freed.erase k } }
    else .next s
  | none => .next s

/-! ## Links -/

/-- LINK_DOWN (R455): front port `p` loses its link; its frames and queue pairs stay. -/
def execLinkDown (p : Nat) (s : State) : Res :=
  if s.fps.contains p && s.hasLink p then
    .next (((s.portDown p).setPortFld p Reg.MAC_STATUS_FEC_LOCK 0).setPortFld p Reg.MAC_STATUS_AN_DONE 0)
  else .next s

/-- LINK_UP (R411, R412, R455): the link of an enabled port is up; the frames kept are sent in order. -/
def execLinkUp (p : Nat) (s : State) : Res :=
  if s.fps.contains p && s.portFld p Reg.MAC_CFG_EN == 1 && !s.hasLink p then
    let an := s.portFld p Reg.MAC_CFG_AN_EN == 1 && s.portFld p Reg.MAC_CFG_MEDIA != 2
    let s := (s.setPortFld p Reg.MAC_STATUS_LINK 1).setPortFld p Reg.MAC_STATUS_FEC_LOCK 1
    let s := s.setPortFld p Reg.MAC_STATUS_AN_DONE (boolNat an)
    .next ((s.setFport p { s.fport p with downAt := none }).startTx p)
  else .next s

/-- LINK_DOWN_TIMEOUT (R451, R455): DOWN_MS (0 acts as 1) without link: the port's queue pairs enter the error state. -/
def execLinkDownTimeout (p : Nat) (s : State) : Res :=
  match (s.fport p).downAt with
  | some t =>
    if !s.hasLink p && decide (t + max 1 (s.portFld p Reg.MAC_LINK_DOWN_MS) * 10 ^ 6 ≤ s.ao.tb) then
      let l := (s.rdma.qps.vals.filter fun q => q.fp == p).map fun q => q.e.qpn
      .next (l.foldl (fun s k => s.qpFail k) s).settle
    else .next s
  | none => .next s

end Sys2Proof.Machine
end

