-- ==== Sys2Proof/Machine/SfbRows.lean ====
section
/-! DEFINITION. The Sundas fabric and the media sequencers as commands (spec/07). -/

namespace Sys2Proof.Machine

open Sys2Proof

/-- CARRIER_ATTACH (R312): CSTATUS has reported a NAND temperature, and the dies their parameter pages and unique IDs. -/
def execCarrierAttach (cp : Nat) (temp : Int) (pages : List DiePage) (s : State) : Res :=
  if s.cpFlag cp Reg.SFB_PSTAT_UP && !s.cpFlag cp Reg.SFB_PSTAT_ATTACHED && s.flag (cpDie cp) Reg.MED_CTRL_EN then
    .next (s.attach cp temp pages).settle
  else .next s

/-- SFB_IDLE (R322, R324): credits and ACK. -/
def execSfbIdle (h : SfbHdr) (s : State) : Res := .next (s.sfbRx h none sfbIdleType id).settle

/-- SFB_NAK (R324): every frame after ACK is sent again. -/
def execSfbNak (h : SfbHdr) (s : State) : Res := .next (s.sfbRx h none sfbNakType fun s => s.sfbReplayAll h.cp).settle

/-- SFB_TRAIN (R324): a TRAIN frame on a lane. -/
def execSfbTrain (cp lane : Nat) (crcOk : Bool) (s : State) : Res :=
  if crcOk then .next (s.sfbTrain cp lane) else .next (s.sfbCrcError cp lane)

/-- SFB_COMPLETE (R326). -/
def execSfbComplete (h : SfbHdr) (tag status arg : Nat) (s : State) : Res := .next (s.sfbMsg h (.complete tag status arg h.payload)).settle

/-- RDATA (R322, R342): one codeword of a read, or one plane of its soft data. -/
def execRdata (h : SfbHdr) (tag slot plane : Nat) (raw : Bytes) (s : State) : Res := .next (s.sfbMsg h (.rdata tag slot plane raw)).settle

/-- SFB_EVENT (R322, R359, R360). -/
def execSfbEvent (h : SfbHdr) (arg : Nat) (s : State) : Res := .next (s.sfbMsg h (.event arg)).settle

/-- SFB_GAP_TIMEOUT (R324): a gap has lasted 1 µs. -/
def execSfbGapTimeout (cp : Nat) (s : State) : Res :=
  let x := s.sport cp
  match x.gapSince with
  | some t => if s.sfbUp cp && decide (t + 1000 ≤ s.ao.tb) then
      .next ((s.setSport cp { x with gapSince := some s.ao.tb }).sendSfbNak cp) else .next s
  | none => .next s

/-- SFB_ACK_TIMEOUT (R324): ACK has not advanced for 2 µs with frames outstanding. -/
def execSfbAckTimeout (cp : Nat) (s : State) : Res :=
  match (s.sport cp).ackSince with
  | some t => if s.sfbUp cp && decide (t + 2000 ≤ s.ao.tb) then .next (s.sfbReplayAll cp) else .next s
  | none => .next s

/-- SFB_LANE_RETIRE (R324): more than 16 CRC errors of a lane within 1 ms. -/
def execSfbLaneRetire (cp lane : Nat) (s : State) : Res :=
  let x := s.sport cp
  let l := x.lanes.getD lane Lane.fresh
  if l.retired ∨ (recentMs s.ao.tb l.errs).length ≤ 16 then .next s
  else
    let n := s.cpFld cp Reg.SFB_PSTAT_LANES
    let s := s.setSport cp { x with lanes := x.lanes.insert lane { l with retired := true, errs := [], cleanSince := s.ao.tb } }
    .next (s.setCpFld cp Reg.SFB_PSTAT_LANES (n - (if n / 2 ^ lane % 2 = 1 then 2 ^ lane else 0)))

/-- SFB_LANE_RETURN (R324): a retired lane has trained without error for 100 ms. -/
def execSfbLaneReturn (cp lane : Nat) (s : State) : Res :=
  let x := s.sport cp
  let l := x.lanes.getD lane Lane.fresh
  if !l.retired ∨ s.ao.tb < l.cleanSince + 100000000 then .next s
  else
    let s := s.setSport cp { x with lanes := x.lanes.insert lane { l with retired := false } }
    .next (s.sfbTrain cp lane)

/-- SFB_PORT_LOST (R324, R363): no frame on either lane for 2 µs. -/
def execSfbPortLost (cp : Nat) (s : State) : Res :=
  if s.cpFlag cp Reg.SFB_PSTAT_UP && decide ((s.sport cp).lastFrame + 2000 ≤ s.ao.tb) then .next (s.portLost cp).settle else .next s

/-- LDPC_DECODE_DONE (R318, R319, R351, R352): of codeword request `id`; the decoder arrived at the codeword `cw`, or failed with
`unsat` checks not met. -/
def execLdpcDecodeDone (id : Nat) (cw : Option Bytes) (unsat : Nat) (s : State) : Res := .next (s.decodeDone id cw unsat).settle

/-- OP_STARVED (R346, R349): a program or erase of a die has spent STARVE_MS suspended. -/
def execOpStarved (cp die : Nat) (s : State) : Res :=
  let k := dieKey cp die
  let d := s.die k
  let us := d.suspUs + (match d.suspAt with
    | some t => (s.ao.tb - t) / 1000
    | none => 0)
  let writes := (s.dieOps k).any fun o => o.req.writes
  if !writes ∨ s.med.starved.contains k ∨ us < max 1 (s.fld (cpDie cp) Reg.MED_CTRL_STARVE_MS) * 1000 then .next s
  else
    let s := { s with med := { s.med with starved := s.med.starved ++ [k] } }
    .next s.protect.settle

/-- SLOW_DIE_PROBE (R362): once a second, one read of a slow die at class 7. -/
def execSlowDieProbe (cp die : Nat) (s : State) : Res :=
  let k := dieKey cp die
  let d := s.die k
  if d.slow.isNone ∨ !s.cpUp cp ∨ s.ao.tb < d.probeAt + 10 ^ 9 then .next s
  else
    let s := s.setDie k { d with probeAt := s.ao.tb }
    .next (s.issue { cp := cp, req := .read (maddr cp die 0 0 0 0) 1 false (die == 0) 0, cls := 7, why := .probe, since := s.ao.tb }).settle

/-- SFB_IDLE_SEND (R324): an active lane with nothing else to send; of a lost port every lane sends TRAIN. -/
def execSfbIdleSend (cp lane : Nat) (s : State) : Res :=
  if s.sfbUp cp then
    if (s.sfbLanes cp).contains lane then .next (s.sfbLinkFrame cp sfbIdleType (.sfbIdle cp lane)) else .next s
  else if s.sfbOn cp && decide (lane < 2) then .next (s.sfbLinkFrame cp sfbTrainType (.sfbTrain cp lane))
  else .next s

end Sys2Proof.Machine
end

