-- ==== Sys2Proof/Machine/Dispatch.lean ====
section
/-! DEFINITION. The meaning of every command: one arm for each constructor, each a direct call of its meaning. -/

namespace Sys2Proof.Machine

open Sys2Proof

/-- The effect of a command on everything but the queue. -/
def exec (i : Instr) (s : State) : Host.Outcome State Fault Refusal :=
  match i with
  | .registerWrite who addr size val events => Sys2Proof.Machine.execRegisterWrite who addr size val events s
  | .blockLock who addr val => Sys2Proof.Machine.execBlockLock who addr val s
  | .tableCommit die blk val => Sys2Proof.Machine.execTableCommit die blk val s
  | .tableAbort die blk val => Sys2Proof.Machine.execTableAbort die blk val s
  | .commitCopyDone die blk => Sys2Proof.Machine.execCommitCopyDone die blk s
  | .timeMessage => Sys2Proof.Machine.execTimeMessage s
  | .ptpSyncSample origin twoStep followUp => Sys2Proof.Machine.execPtpSyncSample origin twoStep followUp s
  | .delayReqSend => Sys2Proof.Machine.execDelayReqSend s
  | .ptpAnnounce gm steps => Sys2Proof.Machine.execPtpAnnounce gm steps s
  | .ppsInEdge => Sys2Proof.Machine.execPpsInEdge s
  | .partnerTimeTimeout => Sys2Proof.Machine.execPartnerTimeTimeout s
  | .flush cap => Sys2Proof.Machine.execFlush cap s
  | .write cap slba nlb => Sys2Proof.Machine.execWrite cap slba nlb s
  | .read cap slba nlb => Sys2Proof.Machine.execRead cap slba nlb s
  | .compare cap slba nlb => Sys2Proof.Machine.execCompare cap slba nlb s
  | .compareAndWrite cap cap2 slba nlb slba2 nlb2 => Sys2Proof.Machine.execCompareAndWrite cap cap2 slba nlb slba2 nlb2 s
  | .writeZeroes cap slba nlb deac => Sys2Proof.Machine.execWriteZeroes cap slba nlb deac s
  | .datasetManagement cap deallocate ranges => Sys2Proof.Machine.execDatasetManagement cap deallocate ranges s
  | .verify cap slba nlb => Sys2Proof.Machine.execVerify cap slba nlb s
  | .store cap key vlen opts => Sys2Proof.Machine.execStore cap key vlen opts s
  | .retrieve cap key => Sys2Proof.Machine.execRetrieve cap key s
  | .list cap key => Sys2Proof.Machine.execList cap key s
  | .delete cap key => Sys2Proof.Machine.execDelete cap key s
  | .exist cap key => Sys2Proof.Machine.execExist cap key s
  | .connect cap nqn cntlid qid sqsize kato disc => Sys2Proof.Machine.execConnect cap nqn cntlid qid sqsize kato disc s
  | .disconnect cap => Sys2Proof.Machine.execDisconnect cap s
  | .propertyGet cap off => Sys2Proof.Machine.execPropertyGet cap off s
  | .propertySet cap off val => Sys2Proof.Machine.execPropertySet cap off val s
  | .getLogPage cap lid off len rae => Sys2Proof.Machine.execGetLogPage cap lid off len rae s
  | .identify cap cns cntid => Sys2Proof.Machine.execIdentify cap cns cntid s
  | .abort cap qid cid => Sys2Proof.Machine.execAbort cap qid cid s
  | .setFeatures cap fid val save => Sys2Proof.Machine.execSetFeatures cap fid val save s
  | .getFeatures cap fid => Sys2Proof.Machine.execGetFeatures cap fid s
  | .asyncEventRequest cap => Sys2Proof.Machine.execAsyncEventRequest cap s
  | .namespaceManagement cap create kv blocks domain media => Sys2Proof.Machine.execNamespaceManagement cap create kv blocks domain media s
  | .namespaceAttachment cap attach ctrls => Sys2Proof.Machine.execNamespaceAttachment cap attach ctrls s
  | .nsRemovalTimeout nsid => Sys2Proof.Machine.execNsRemovalTimeout nsid s
  | .nsRemovalComplete nsid => Sys2Proof.Machine.execNsRemovalComplete nsid s
  | .keepAlive cap => Sys2Proof.Machine.execKeepAlive cap s
  | .keepAliveExpiry cntlid => Sys2Proof.Machine.execKeepAliveExpiry cntlid s
  | .formatNvm cap lbaf ses => Sys2Proof.Machine.execFormatNvm cap lbaf ses s
  | .formatComplete nsid => Sys2Proof.Machine.execFormatComplete nsid s
  | .sanitizeExitFailure cap => Sys2Proof.Machine.execSanitizeExitFailure cap s
  | .sanitizeBlockErase cap => Sys2Proof.Machine.execSanitizeBlockErase cap s
  | .sanitizeCryptoErase cap => Sys2Proof.Machine.execSanitizeCryptoErase cap s
  | .sanitizeComplete => Sys2Proof.Machine.execSanitizeComplete s
  | .sanitizeFailed => Sys2Proof.Machine.execSanitizeFailed s
  | .progressLog op nsid done => Sys2Proof.Machine.execProgressLog op nsid done s
  | .lockGrant tag shard => Sys2Proof.Machine.execLockGrant tag shard s
  | .remoteLockTimeout tag => Sys2Proof.Machine.execRemoteLockTimeout tag s
  | .chlIdle h => Sys2Proof.Machine.execChlIdle h s
  | .chlNak h => Sys2Proof.Machine.execChlNak h s
  | .chlTrain group lane peer crcOk => Sys2Proof.Machine.execChlTrain group lane peer crcOk s
  | .heartbeat h hb => Sys2Proof.Machine.execHeartbeat h hb s
  | .time h offset roundTrip hasSource => Sys2Proof.Machine.execTime h offset roundTrip hasSource s
  | .notice h cause => Sys2Proof.Machine.execNotice h cause s
  | .handover h ports shards => Sys2Proof.Machine.execHandover h ports shards s
  | .shardset h owners gen => Sys2Proof.Machine.execShardset h owners gen s
  | .capsule h c => Sys2Proof.Machine.execCapsule h c s
  | .ledger h l => Sys2Proof.Machine.execLedger h l s
  | .jwrite h off r crcOk => Sys2Proof.Machine.execJwrite h off r crcOk s
  | .release h side seq => Sys2Proof.Machine.execRelease h side seq s
  | .lock h m => Sys2Proof.Machine.execLock h m s
  | .mapupd h m lsn => Sys2Proof.Machine.execMapupd h m lsn s
  | .sync h b => Sys2Proof.Machine.execSync h b s
  | .shadowqp h create q k u => Sys2Proof.Machine.execShadowqp h create q k u s
  | .chlGapTimeout group => Sys2Proof.Machine.execChlGapTimeout group s
  | .chlAckTimeout group => Sys2Proof.Machine.execChlAckTimeout group s
  | .chlLaneRetire group lane => Sys2Proof.Machine.execChlLaneRetire group lane s
  | .chlLaneReturn group lane => Sys2Proof.Machine.execChlLaneReturn group lane s
  | .chlGroupLost group => Sys2Proof.Machine.execChlGroupLost group s
  | .chlIdleSend group lane => Sys2Proof.Machine.execChlIdleSend group lane s
  | .heartbeatSend => Sys2Proof.Machine.execHeartbeatSend s
  | .witnessWriteTick => Sys2Proof.Machine.execWitnessWriteTick s
  | .partnerSilence => Sys2Proof.Machine.execPartnerSilence s
  | .witnessEvaluate answers => Sys2Proof.Machine.execWitnessEvaluate answers s
  | .claimDeferEnd => Sys2Proof.Machine.execClaimDeferEnd s
  | .leaseExpiry => Sys2Proof.Machine.execLeaseExpiry s
  | .claimReply cp epoch holders applied m => Sys2Proof.Machine.execClaimReply cp epoch holders applied m s
  | .claimTimeout => Sys2Proof.Machine.execClaimTimeout s
  | .fencedReply cp => Sys2Proof.Machine.execFencedReply cp s
  | .takeoverTransmitRelease => Sys2Proof.Machine.execTakeoverTransmitRelease s
  | .takeoverGo val m => Sys2Proof.Machine.execTakeoverGo val m s
  | .handoverReq val => Sys2Proof.Machine.execHandoverReq val s
  | .handoverAcked => Sys2Proof.Machine.execHandoverAcked s
  | .probeTimeout qpn => Sys2Proof.Machine.execProbeTimeout qpn s
  | .soloWaitExpiry => Sys2Proof.Machine.execSoloWaitExpiry s
  | .pairStart => Sys2Proof.Machine.execPairStart s
  | .rejoinSync m => Sys2Proof.Machine.execRejoinSync m s
  | .uncorrectableMemoryError a => Sys2Proof.Machine.execUncorrectableMemoryError a s
  | .frontPortLinkFault p twinLink => Sys2Proof.Machine.execFrontPortLinkFault p twinLink s
  | .journalDestage side seq fix root => Sys2Proof.Machine.execJournalDestage side seq fix root s
  | .fingerprintDone job n => Sys2Proof.Machine.execFingerprintDone job n s
  | .fpSlotLoad tile domain addr => Sys2Proof.Machine.execFpSlotLoad tile domain addr s
  | .candidateConfirm job n => Sys2Proof.Machine.execCandidateConfirm job n s
  | .fpSlotFlush tile val => Sys2Proof.Machine.execFpSlotFlush tile val s
  | .xtsSlotFlush tile val => Sys2Proof.Machine.execXtsSlotFlush tile val s
  | .laneDisable tile kind lane => Sys2Proof.Machine.execLaneDisable tile kind lane s
  | .laneFault tile kind lane => Sys2Proof.Machine.execLaneFault tile kind lane s
  | .chunkFreeStart ref => Sys2Proof.Machine.execChunkFreeStart ref s
  | .chunkFreeFinish ref => Sys2Proof.Machine.execChunkFreeFinish ref s
  | .packClose pack => Sys2Proof.Machine.execPackClose pack s
  | .packFlushTimeout pack => Sys2Proof.Machine.execPackFlushTimeout pack s
  | .cmpFlush tile val => Sys2Proof.Machine.execCmpFlush tile val s
  | .packCompressDone pack => Sys2Proof.Machine.execPackCompressDone pack s
  | .packEncryptDone pack => Sys2Proof.Machine.execPackEncryptDone pack s
  | .packDecryptDone copy id => Sys2Proof.Machine.execPackDecryptDone copy id s
  | .packInflateDone rd => Sys2Proof.Machine.execPackInflateDone rd s
  | .xtsSlotLoad tile domain gen addr => Sys2Proof.Machine.execXtsSlotLoad tile domain gen addr s
  | .gcmKeyLoad tile entry load => Sys2Proof.Machine.execGcmKeyLoad tile entry load s
  | .gcmEncrypt tile => Sys2Proof.Machine.execGcmEncrypt tile s
  | .gcmDecrypt p => Sys2Proof.Machine.execGcmDecrypt p s
  | .kcuEnc tile ses => Sys2Proof.Machine.execKcuEnc tile ses s
  | .kcuDec tile ses => Sys2Proof.Machine.execKcuDec tile ses s
  | .kcuEncChain tile ses => Sys2Proof.Machine.execKcuEncChain tile ses s
  | .kcuDecChain tile ses => Sys2Proof.Machine.execKcuDecChain tile ses s
  | .kcuSetChain tile ses => Sys2Proof.Machine.execKcuSetChain tile ses s
  | .kcuLoadWrapped tile ses => Sys2Proof.Machine.execKcuLoadWrapped tile ses s
  | .kcuLoadClear tile ses long => Sys2Proof.Machine.execKcuLoadClear tile ses long s
  | .kcuSaveClear tile ses => Sys2Proof.Machine.execKcuSaveClear tile ses s
  | .kcuSaveWrapped tile ses => Sys2Proof.Machine.execKcuSaveWrapped tile ses s
  | .kcuRestore tile ses wrapped => Sys2Proof.Machine.execKcuRestore tile ses wrapped s
  | .kcuRecCreate tile ses domain => Sys2Proof.Machine.execKcuRecCreate tile ses domain s
  | .kcuRecAddGen tile ses => Sys2Proof.Machine.execKcuRecAddGen tile ses s
  | .kcuRecDropGen tile ses gen => Sys2Proof.Machine.execKcuRecDropGen tile ses gen s
  | .kcuClose tile ses => Sys2Proof.Machine.execKcuClose tile ses s
  | .mapLookup pageid entry tag cls => Sys2Proof.Machine.execMapLookup pageid entry tag cls s
  | .mapFillDone pageid => Sys2Proof.Machine.execMapFillDone pageid s
  | .mapLineWritebackDone pageid => Sys2Proof.Machine.execMapLineWritebackDone pageid s
  | .mapRangeClean die => Sys2Proof.Machine.execMapRangeClean die s
  | .mapRangeInvalidate die => Sys2Proof.Machine.execMapRangeInvalidate die s
  | .mapRangeCleanInv die => Sys2Proof.Machine.execMapRangeCleanInv die s
  | .mapRangeLoadPin die => Sys2Proof.Machine.execMapRangeLoadPin die s
  | .mapRangeUnpin die => Sys2Proof.Machine.execMapRangeUnpin die s
  | .mapRangeSweep die => Sys2Proof.Machine.execMapRangeSweep die s
  | .mapRangeDone die => Sys2Proof.Machine.execMapRangeDone die s
  | .stripeTimeout seg => Sys2Proof.Machine.execStripeTimeout seg s
  | .stripePlaced seg k => Sys2Proof.Machine.execStripePlaced seg k s
  | .gcSegment seg cls => Sys2Proof.Machine.execGcSegment seg cls s
  | .segmentReclaim seg => Sys2Proof.Machine.execSegmentReclaim seg s
  | .readPointNotice => Sys2Proof.Machine.execReadPointNotice s
  | .journalAdmit => Sys2Proof.Machine.execJournalAdmit s
  | .journalRelease side seq => Sys2Proof.Machine.execJournalRelease side seq s
  | .logPageTimeout => Sys2Proof.Machine.execLogPageTimeout s
  | .logPageDurable page => Sys2Proof.Machine.execLogPageDurable page s
  | .checkpointReq val => Sys2Proof.Machine.execCheckpointReq val s
  | .checkpointTimer full => Sys2Proof.Machine.execCheckpointTimer full s
  | .carrierAttach cp temp pages => Sys2Proof.Machine.execCarrierAttach cp temp pages s
  | .sfbIdle h => Sys2Proof.Machine.execSfbIdle h s
  | .sfbNak h => Sys2Proof.Machine.execSfbNak h s
  | .sfbTrain cp lane crcOk => Sys2Proof.Machine.execSfbTrain cp lane crcOk s
  | .sfbComplete h tag status arg => Sys2Proof.Machine.execSfbComplete h tag status arg s
  | .rdata h tag slot plane raw => Sys2Proof.Machine.execRdata h tag slot plane raw s
  | .sfbEvent h arg => Sys2Proof.Machine.execSfbEvent h arg s
  | .sfbGapTimeout cp => Sys2Proof.Machine.execSfbGapTimeout cp s
  | .sfbAckTimeout cp => Sys2Proof.Machine.execSfbAckTimeout cp s
  | .sfbLaneRetire cp lane => Sys2Proof.Machine.execSfbLaneRetire cp lane s
  | .sfbLaneReturn cp lane => Sys2Proof.Machine.execSfbLaneReturn cp lane s
  | .sfbPortLost cp => Sys2Proof.Machine.execSfbPortLost cp s
  | .ldpcDecodeDone id cw unsat => Sys2Proof.Machine.execLdpcDecodeDone id cw unsat s
  | .opStarved cp die => Sys2Proof.Machine.execOpStarved cp die s
  | .slowDieProbe cp die => Sys2Proof.Machine.execSlowDieProbe cp die s
  | .parLostDeclare val => Sys2Proof.Machine.execParLostDeclare val s
  | .parLostClear val => Sys2Proof.Machine.execParLostClear val s
  | .rebuildRateWindow => Sys2Proof.Machine.execRebuildRateWindow s
  | .slowEvict cp die => Sys2Proof.Machine.execSlowEvict cp die s
  | .sjPageTimeout => Sys2Proof.Machine.execSjPageTimeout s
  | .reshapeNativeGo val => Sys2Proof.Machine.execReshapeNativeGo val s
  | .reshapeVx5Go val => Sys2Proof.Machine.execReshapeVx5Go val s
  | .reshapeStop val => Sys2Proof.Machine.execReshapeStop val s
  | .scrubPost seg stripe slot => Sys2Proof.Machine.execScrubPost seg stripe slot s
  | .frameReceive p fcsOk bytes => Sys2Proof.Machine.execFrameReceive p fcsOk bytes s
  | .losslessXon p => Sys2Proof.Machine.execLosslessXon p s
  | .pfcRefresh p => Sys2Proof.Machine.execPfcRefresh p s
  | .pauseFrame p op times => Sys2Proof.Machine.execPauseFrame p op times s
  | .pauseExpiry p prio => Sys2Proof.Machine.execPauseExpiry p prio s
  | .pauseStorm p prio => Sys2Proof.Machine.execPauseStorm p prio s
  | .pauseStormEnd p prio => Sys2Proof.Machine.execPauseStormEnd p prio s
  | .txFrameDone p => Sys2Proof.Machine.execTxFrameDone p s
  | .counterSnapshot p => Sys2Proof.Machine.execCounterSnapshot p s
  | .addressRequest p kind addr => Sys2Proof.Machine.execAddressRequest p kind addr s
  | .roceSend h first last len => Sys2Proof.Machine.execRoceSend h first last len s
  | .rdmaReadResponse h first last bytes => Sys2Proof.Machine.execRdmaReadResponse h first last bytes s
  | .roceAcknowledge h k => Sys2Proof.Machine.execRoceAcknowledge h k s
  | .cnpReceive h => Sys2Proof.Machine.execCnpReceive h s
  | .ccAlphaUpdate who => Sys2Proof.Machine.execCcAlphaUpdate who s
  | .ccRateIncrease who => Sys2Proof.Machine.execCcRateIncrease who s
  | .reorderTimeout qpn => Sys2Proof.Machine.execReorderTimeout qpn s
  | .contextFetchDone qpn => Sys2Proof.Machine.execContextFetchDone qpn s
  | .localAckTimeout qpn => Sys2Proof.Machine.execLocalAckTimeout qpn s
  | .qpCreate fdie addr => Sys2Proof.Machine.execQpCreate fdie addr s
  | .qpDestroy fdie qpn => Sys2Proof.Machine.execQpDestroy fdie qpn s
  | .qpMoveToError fdie qpn => Sys2Proof.Machine.execQpMoveToError fdie qpn s
  | .qpReuseExpiry fdie index => Sys2Proof.Machine.execQpReuseExpiry fdie index s
  | .linkDown p => Sys2Proof.Machine.execLinkDown p s
  | .linkUp p => Sys2Proof.Machine.execLinkUp p s
  | .linkDownTimeout p => Sys2Proof.Machine.execLinkDownTimeout p s
  | .snapshotReady id => Sys2Proof.Machine.execSnapshotReady id s
  | .pronghornData fdie => Sys2Proof.Machine.execPronghornData fdie s
  | .pronghornAck fdie => Sys2Proof.Machine.execPronghornAck fdie s
  | .pronghornNack fdie => Sys2Proof.Machine.execPronghornNack fdie s
  | .pronghornProbe fdie => Sys2Proof.Machine.execPronghornProbe fdie s
  | .pgtNackTimeout fdie session msgno => Sys2Proof.Machine.execPgtNackTimeout fdie session msgno s
  | .pgtRto fdie session msgno => Sys2Proof.Machine.execPgtRto fdie session msgno s
  | .pathQuarantineEnd fdie session path => Sys2Proof.Machine.execPathQuarantineEnd fdie session path s
  | .fplist fdie session => Sys2Proof.Machine.execFplist fdie session s
  | .need fdie session => Sys2Proof.Machine.execNeed fdie session s
  | .chunks fdie session => Sys2Proof.Machine.execChunks fdie session s
  | .maps fdie session fix root => Sys2Proof.Machine.execMaps fdie session fix root s
  | .commit fdie session => Sys2Proof.Machine.execCommit fdie session s
  | .committed fdie session => Sys2Proof.Machine.execCommitted fdie session s
  | .jrec fdie session => Sys2Proof.Machine.execJrec fdie session s
  | .jack fdie session => Sys2Proof.Machine.execJack fdie session s
  | .syncReplTimeout fdie session => Sys2Proof.Machine.execSyncReplTimeout fdie session s
  | .sessionCreate fdie addr => Sys2Proof.Machine.execSessionCreate fdie addr s
  | .sessionDestroy fdie session => Sys2Proof.Machine.execSessionDestroy fdie session s
  | .sessionNewGeneration fdie addr => Sys2Proof.Machine.execSessionNewGeneration fdie addr s
  | .sessionSetDegraded fdie session => Sys2Proof.Machine.execSessionSetDegraded fdie session s
  | .sessionClearDegraded fdie session => Sys2Proof.Machine.execSessionClearDegraded fdie session s
  | .csaSearch d part ecc => Sys2Proof.Machine.execCsaSearch d part ecc s
  | .csaFloor d part ecc => Sys2Proof.Machine.execCsaFloor d part ecc s
  | .csaWrite d part rank addr => Sys2Proof.Machine.execCsaWrite d part rank addr s
  | .csaInvalidate d part addr => Sys2Proof.Machine.execCsaInvalidate d part addr s
  | .csaRead d part addr ecc => Sys2Proof.Machine.execCsaRead d part addr ecc s
  | .insertRing fw d part key ref => Sys2Proof.Machine.execInsertRing fw d part key ref s
  | .deleteMatch fw d part key => Sys2Proof.Machine.execDeleteMatch fw d part key s
  | .invalidateMasked fw d part domain => Sys2Proof.Machine.execInvalidateMasked fw d part domain s
  | .ordInsert fw d part val leaf => Sys2Proof.Machine.execOrdInsert fw d part val leaf s
  | .ordDelete fw d part val => Sys2Proof.Machine.execOrdDelete fw d part val s
  | .respreadDone d part => Sys2Proof.Machine.execRespreadDone d part s
  | .dgeStart die ses => Sys2Proof.Machine.execDgeStart die ses s
  | .dgeData die ses val => Sys2Proof.Machine.execDgeData die ses val s
  | .dgeLast die ses val => Sys2Proof.Machine.execDgeLast die ses val s
  | .dgeFeed die ses => Sys2Proof.Machine.execDgeFeed die ses s
  | .dgeFeedDone die ses => Sys2Proof.Machine.execDgeFeedDone die ses s
  | .dgeFinish die ses => Sys2Proof.Machine.execDgeFinish die ses s
  | .dgeAbort die ses => Sys2Proof.Machine.execDgeAbort die ses s
  | .dgeArm die ses tap tapid => Sys2Proof.Machine.execDgeArm die ses tap tapid s
  | .dgeDisarm die ses => Sys2Proof.Machine.execDgeDisarm die ses s
  | .dgeTapTransfer die tap tapid bytes whole => Sys2Proof.Machine.execDgeTapTransfer die tap tapid bytes whole s
  | .dgeSaveClear die ses => Sys2Proof.Machine.execDgeSaveClear die ses s
  | .dgeSaveWrapped die ses => Sys2Proof.Machine.execDgeSaveWrapped die ses s
  | .dgeRestore die ses wrapped => Sys2Proof.Machine.execDgeRestore die ses wrapped s
  | .dgeResult die ses => Sys2Proof.Machine.execDgeResult die ses s
  | .dgeSlotLoadClear die slot alg keylen => Sys2Proof.Machine.execDgeSlotLoadClear die slot alg keylen s
  | .dgeSlotLoadWrapped die slot alg keylen => Sys2Proof.Machine.execDgeSlotLoadWrapped die slot alg keylen s
  | .dgeSlotLoadDerived die slot alg label => Sys2Proof.Machine.execDgeSlotLoadDerived die slot alg label s
  | .dgeSlotClear die slot => Sys2Proof.Machine.execDgeSlotClear die slot s
  | .channelFreezeRequest tile m val => Sys2Proof.Machine.execChannelFreezeRequest tile m val s
  | .channelFrozen tile mid chan => Sys2Proof.Machine.execChannelFrozen tile mid chan s
  | .thawResume tile mid chan => Sys2Proof.Machine.execThawResume tile mid chan s
  | .thawAbort tile mid chan => Sys2Proof.Machine.execThawAbort tile mid chan s
  | .winFaultRead who tile => Sys2Proof.Machine.execWinFaultRead who tile s
  | .ringConsume tile cluster core r cons => Sys2Proof.Machine.execRingConsume tile cluster core r cons s
  | .ringPost tile cluster core r slots => Sys2Proof.Machine.execRingPost tile cluster core r slots s
  | .tick tile cluster => Sys2Proof.Machine.execTick tile cluster s
  | .dmaCopy d => Sys2Proof.Machine.execDmaCopy d s
  | .dmaFill d => Sys2Proof.Machine.execDmaFill d s
  | .dmaReadPage d page => Sys2Proof.Machine.execDmaReadPage d page s
  | .dmaReadPack d member pack => Sys2Proof.Machine.execDmaReadPack d member pack s
  | .dmaDone tile chan => Sys2Proof.Machine.execDmaDone tile chan s
  | .cmtClean tile => Sys2Proof.Machine.execCmtClean tile s
  | .cmtInvalidate tile => Sys2Proof.Machine.execCmtInvalidate tile s
  | .cmtCleanInv tile => Sys2Proof.Machine.execCmtCleanInv tile s
  | .cmtDone tile => Sys2Proof.Machine.execCmtDone tile s
  | .watchdogArm tile cluster val => Sys2Proof.Machine.execWatchdogArm tile cluster val s
  | .watchdogKick tile cluster val => Sys2Proof.Machine.execWatchdogKick tile cluster val s
  | .watchdogExpiry tile cluster => Sys2Proof.Machine.execWatchdogExpiry tile cluster s
  | .captureStart tile val => Sys2Proof.Machine.execCaptureStart tile val s
  | .captureStop tile val => Sys2Proof.Machine.execCaptureStop tile val s
  | .captureSnap tile addr pages => Sys2Proof.Machine.execCaptureSnap tile addr pages s
  | .bDieStart x => Sys2Proof.Machine.execBDieStart x s
  | .challengeLapse => Sys2Proof.Machine.execChallengeLapse s
  | .getChallenge via env => Sys2Proof.Machine.execGetChallenge via env s
  | .getCalrow via env => Sys2Proof.Machine.execGetCalrow via env s
  | .install via env took => Sys2Proof.Machine.execInstall via env took s
  | .setOpkey via env slot digest => Sys2Proof.Machine.execSetOpkey via env slot digest s
  | .revokeOpkey via env slot => Sys2Proof.Machine.execRevokeOpkey via env slot s
  | .clearEvr via env => Sys2Proof.Machine.execClearEvr via env s
  | .layout via env width target roster evac => Sys2Proof.Machine.execLayout via env width target roster evac s
  | .epochReinit via env => Sys2Proof.Machine.execEpochReinit via env s
  | .clearDeferred via env => Sys2Proof.Machine.execClearDeferred via env s
  | .nsCreate via env kv blocks domain media => Sys2Proof.Machine.execNsCreate via env kv blocks domain media s
  | .nsDelete via env nsid => Sys2Proof.Machine.execNsDelete via env nsid s
  | .nsDisable via env nsid => Sys2Proof.Machine.execNsDisable via env nsid s
  | .nsEnable via env nsid => Sys2Proof.Machine.execNsEnable via env nsid s
  | .c0Resident via env nsid => Sys2Proof.Machine.execC0Resident via env nsid s
  | .adminHosts via env nqns => Sys2Proof.Machine.execAdminHosts via env nqns s
  | .snapCreate via env nsid => Sys2Proof.Machine.execSnapCreate via env nsid s
  | .snapDelete via env id => Sys2Proof.Machine.execSnapDelete via env id s
  | .cloneCreate via env snap readOnly => Sys2Proof.Machine.execCloneCreate via env snap readOnly s
  | .replSession via env create fdie addr replica => Sys2Proof.Machine.execReplSession via env create fdie addr replica s
  | .domainCreate via env domain => Sys2Proof.Machine.execDomainCreate via env domain s
  | .keyRotate via env domain => Sys2Proof.Machine.execKeyRotate via env domain s
  | .domainExport via env domain report row => Sys2Proof.Machine.execDomainExport via env domain report row s
  | .domainImport via env domain reply => Sys2Proof.Machine.execDomainImport via env domain reply s
  | .enrolModule via env serial wrapGen => Sys2Proof.Machine.execEnrolModule via env serial wrapGen s
  | .unenrolModule via env serial => Sys2Proof.Machine.execUnenrolModule via env serial s
  | .activate via env => Sys2Proof.Machine.execActivate via env s
  | .thermalResume via env => Sys2Proof.Machine.execThermalResume via env s
  | .debugUnlock via env => Sys2Proof.Machine.execDebugUnlock via env s
  | .roleReplyRead cap len => Sys2Proof.Machine.execRoleReplyRead cap len s
  | .attestNonce cap nonce => Sys2Proof.Machine.execAttestNonce cap nonce s
  | .attestReport cap len => Sys2Proof.Machine.execAttestReport cap len s
  | .attestCalrow cap len => Sys2Proof.Machine.execAttestCalrow cap len s
  | .setEndpointId oper eid => Sys2Proof.Machine.execSetEndpointId oper eid s
  | .getEndpointId => Sys2Proof.Machine.execGetEndpointId s
  | .getMctpVersionSupport ty => Sys2Proof.Machine.execGetMctpVersionSupport ty s
  | .getMessageTypeSupport => Sys2Proof.Machine.execGetMessageTypeSupport s
  | .getVendorMessageSupport selector => Sys2Proof.Machine.execGetVendorMessageSupport selector s
  | .getId h => Sys2Proof.Machine.execGetId h s
  | .getSensors h => Sys2Proof.Machine.execGetSensors h s
  | .getCounters h => Sys2Proof.Machine.execGetCounters h s
  | .evrFreeze h => Sys2Proof.Machine.execEvrFreeze h s
  | .evrRead h first => Sys2Proof.Machine.execEvrRead h first s
  | .evrThaw h => Sys2Proof.Machine.execEvrThaw h s
  | .evrFreezeTimeout => Sys2Proof.Machine.execEvrFreezeTimeout s
  | .tripRead h first => Sys2Proof.Machine.execTripRead h first s
  | .mgmtRole h env body => Sys2Proof.Machine.execMgmtRole h env body s
  | .attest h value nonce => Sys2Proof.Machine.execAttest h value nonce s
  | .imgBegin h kind len => Sys2Proof.Machine.execImgBegin h kind len s
  | .imgWrite h off bytes => Sys2Proof.Machine.execImgWrite h off bytes s
  | .imgEnd h => Sys2Proof.Machine.execImgEnd h s
  | .mailboxSend m len target => Sys2Proof.Machine.execMailboxSend m len target s
  | .handoff m target => Sys2Proof.Machine.execHandoff m target s
  | .roleReq m target => Sys2Proof.Machine.execRoleReq m target s
  | .roleDone m => Sys2Proof.Machine.execRoleDone m s
  | .mailboxNotice m target => Sys2Proof.Machine.execMailboxNotice m target s
  | .opkeys m => Sys2Proof.Machine.execOpkeys m s
  | .awk m => Sys2Proof.Machine.execAwk m s
  | .activateMessage m target => Sys2Proof.Machine.execActivateMessage m target s
  | .eventMessage m => Sys2Proof.Machine.execEventMessage m s
  | .evrPost val => Sys2Proof.Machine.execEvrPost val s
  | .norWindowOpen => Sys2Proof.Machine.execNorWindowOpen s
  | .roSensorSample vals => Sys2Proof.Machine.execRoSensorSample vals s
  | .diodeSensorSample vals => Sys2Proof.Machine.execDiodeSensorSample vals s
  | .thermalEvaluate => Sys2Proof.Machine.execThermalEvaluate s
  | .throttleRaise => Sys2Proof.Machine.execThrottleRaise s
  | .throttleLower => Sys2Proof.Machine.execThrottleLower s
  | .secondsTick => Sys2Proof.Machine.execSecondsTick s
  | .counterLogEntry => Sys2Proof.Machine.execCounterLogEntry s
  | .aoRailRise side => Sys2Proof.Machine.execAoRailRise side s
  | .vinRise mv => Sys2Proof.Machine.execVinRise mv s
  | .converterStop mv n => Sys2Proof.Machine.execConverterStop mv n s
  | .pfWarn => Sys2Proof.Machine.execPfWarn s
  | .vinUndervoltage mv => Sys2Proof.Machine.execVinUndervoltage mv s
  | .modEnLow => Sys2Proof.Machine.execModEnLow s
  | .dumpEnd n whole fenced lostOwn lostMirror => Sys2Proof.Machine.execDumpEnd n whole fenced lostOwn lostMirror s
  | .powerHoldExit mv modEn pfWarnN => Sys2Proof.Machine.execPowerHoldExit mv modEn pfWarnN s
  | .sysRst => Sys2Proof.Machine.execSysRst s
  | .pwrRstHead val => Sys2Proof.Machine.execPwrRstHead val s
  | .pwrRstDomain val => Sys2Proof.Machine.execPwrRstDomain val s
  | .railFault => Sys2Proof.Machine.execRailFault s
  | .refclkLoss => Sys2Proof.Machine.execRefclkLoss s
  | .dumpErase => Sys2Proof.Machine.execDumpErase s
  | .timeExchangeSend => Sys2Proof.Machine.execTimeExchangeSend s
  | .ptpDelayResp received => Sys2Proof.Machine.execPtpDelayResp received s
  | .ppsOutEdge => Sys2Proof.Machine.execPpsOutEdge s
  | .sfbIdleSend cp lane => Sys2Proof.Machine.execSfbIdleSend cp lane s
  | .aoRailLoss => Sys2Proof.Machine.execAoRailLoss s
  | .bootComplete => Sys2Proof.Machine.execBootComplete s
  | .managementWatchdogExpiry => Sys2Proof.Machine.execManagementWatchdogExpiry s
  | .registerReadClear who addr size events => Sys2Proof.Machine.execRegisterReadClear who addr size events s
  | .jtagInstruction instr boundaryScan => Sys2Proof.Machine.execJtagInstruction instr boundaryScan s
  | .i3cDynamicAddress addr setdasa => Sys2Proof.Machine.execI3cDynamicAddress addr setdasa s
  | .i3cMaxLengthSet rd wr => Sys2Proof.Machine.execI3cMaxLengthSet rd wr s
  | .modEnRise => Sys2Proof.Machine.execModEnRise s

end Sys2Proof.Machine
end

