-- ==== Sys2Proof/Safety.lean ====
section
/-! DEFINITION. What a claim calls a good state of the head, and what no command may undo. -/

namespace Sys2Proof.Machine

open Sys2Proof

/-- Memory of the head is in its canonical form: addresses strictly rising, and no entry equal to what an unlisted address reads. -/
def Memory.wf (m : SMap Byte) : Bool := m.wfD fun _ => 0

/-- The OTP is only ever programmed: once INST_LOCK is 1 it stays 1 with its digest, and no minimum and no WRAPGEN is lowered (R584,
R608, R620, R625). -/
structure Otp.Grows (a b : Otp) : Prop where
  lock : a.instLock = true → b.instLock = true ∧ b.inst = a.inst
  mfw : a.mfwMin ≤ b.mfwMin
  cfg : a.cfgMin ≤ b.cfgMin
  hfw : a.hfwMin ≤ b.hfwMin
  wrap : a.wrapGen ≤ b.wrapGen

/-- The invariant of the head's state: memory is canonical, the register file lists each register once, in the order of their
addresses, and HEAD_SIDE is one of two sides (R665). -/
def State.Inv (s : State) : Prop := Memory.wf s.mem = true ∧ s.Ordered ∧ s.side < 2

end Sys2Proof.Machine
end

