-- ==== Sys2Proof/Certificates/Slice0/Obligations.lean ====
section
/-! DEFINITION. What is claimed of the head: for every command of the table, what it leaves in the state when it acts and what it
leaves alone, the rules that hold at every step, and the invariant. Each statement cites the rules of spec/ that it formalises. -/

open Sys2Proof Sys2Proof.Machine

/-! ## The machine as a whole -/

/-- A step takes the command at the front of the queue and runs it on the state with the queue's rest. -/
def Obligations.StepRunsFrontCommand : Prop :=
  ∀ (c : Instr) (rest : List Instr) (s : State), step { s with pending := c :: rest } = exec c { s with pending := rest }

/-- On an empty queue a step is one tick of the module clock (log entry 10, the model's choice): the time base never decreases (R36),
counts exactly 1 where no correction is due, and everything but it and the discipline's own state stays. -/
def Obligations.IdleStepCountsTimeBase : Prop :=
  ∀ s : State, s.pending = [] →
    ∃ t, step s = .next t ∧ (∃ n, n ≤ 2 ∧ t.ao.tb = (s.ao.tb + n) % 2 ^ 64 ∧ (s.time.corr = 0 → n = 1)) ∧
      t = { s with ao := { s.ao with tb := t.ao.tb }, time := t.time }

/-- After a full power-on the head is in BOOT, every register reads its reset value, shard `e` belongs to side `e mod 2`, every byte
of memory reads 0, and nothing waits (R138, R165, R681). Variant and side are the model's choice (log entry 1), and so is what memory reads
before a first reset (log entry 178). -/
def Obligations.ResetStateReadsResetValues : Prop :=
  State.reset.pair.head = .boot ∧ (∀ die blk off, State.reset.reg die blk off = resetWord State.reset.variant blk off) ∧
    (∀ die e, State.reset.tbl die 0x16 0 e 0 = BitVec.ofNat 64 (e % 2)) ∧ (∀ a, State.reset.load a = 0) ∧
    State.reset.pending = [] ∧ State.reset.host.cmds = [] ∧ State.reset.jrnl.own = [] ∧ State.reset.jrnl.mirror = [] ∧
    State.reset.out = []

/-- The state right after reset meets the invariant. -/
def Obligations.ResetStateMeetsInv : Prop := State.reset.Inv

/-- The invariant is kept by every step, from every state that meets it: memory and register file stay in their canonical form,
and HEAD_SIDE stays one of two sides. -/
def Obligations.EveryStepKeepsInv : Prop :=
  ∀ s t : State, s.Inv → step s = .next t → t.Inv

/-- No command stops the machine, no command puts one into the queue or takes one out of it, and none changes the variant. -/
def Obligations.EveryCommandEndsInANextState : Prop :=
  ∀ (c : Instr) (s : State), ∃ t, exec c s = .next t ∧ t.pending = s.pending ∧ t.variant = s.variant

/-- No command unprograms the OTP: INST_LOCK once 1 stays 1 with its digest, and no SVN minimum and no WRAPGEN falls (R584, R608). -/
def Obligations.OtpOnlyGrows : Prop :=
  ∀ (c : Instr) (s t : State), exec c s = .next t → s.otp.Grows t.otp

/-! ## Registers, locks and shadowed tables (spec/00, spec/01) -/

/-- Registers whose write does more than set fields, or that a condition of their chapter guards; RegisterWritesWithConditions and the
statements of their chapters speak of these. -/
def Sys2Proof.Machine.guardedReg (blk off : Nat) : Bool :=
  (blk == 0x03 && off == 0x10) || (blk == 0x07 && decide (0x10000 ≤ off)) || (blk == 0x08 && off == 0x8) ||
    (blk == 0x10 && decide (off < 0x4000) && (off % 0x1000 == 0 || off % 0x1000 == 0x20)) || (blk == 0x14 && off == 0) ||
    (blk == 0x15 && off == 0) || (blk == 0x22 && off == 0) || (blk == 0x30 && off == 0) || blk == 0x33 || blk == 0x34 ||
    (blk == 0x38 && decide (0x10 ≤ off) && decide (off < 0x30)) || (blk == 0x3C && off == 0x10) || (blk == 0x3D && decide (off < 0x20)) ||
    (blk == 0x40 && off == 0)

/-- R9, R11, R13: a 64-bit write of the management processor leaves in each field what its access code says, with W1C bits that an event sets
during the access reading 1, and a locked block keeping its RWL fields; it changes no other register and nothing else (what it
wrote to WO fields is kept for the action they serve). -/
def Obligations.RegisterWriteFollowsAccessCodes : Prop :=
  ∀ (s : State) (addr die blk off : Nat) (val events : Word) (r : RegDesc), s.Ordered →
    s.decodeCsr addr 8 = some (die, blk, off, r) → s.windowKey die blk off = none → guardedReg blk off = false →
    ∃ t, exec (.registerWrite .mp addr 8 val events) s = .next t ∧
      (∀ f ∈ r.fields, bitsAt (t.reg die blk off) f.lo f.w =
        match f.acc with
        | .ro | .rc | .wo => bitsAt (s.reg die blk off) f.lo f.w
        | .rw => bitsAt val f.lo f.w
        | .rwl => if s.locked die blk then bitsAt (s.reg die blk off) f.lo f.w else bitsAt val f.lo f.w
        | .w1c => (bitsAt (s.reg die blk off) f.lo f.w &&& (2 ^ f.w - 1 - bitsAt val f.lo f.w)) ||| bitsAt events f.lo f.w
        | .w1s => bitsAt (s.reg die blk off) f.lo f.w ||| bitsAt val f.lo f.w) ∧
      (∀ d b o, regKey d b o ≠ regKey die blk off → t.reg d b o = s.reg d b o) ∧
      t = { s with regs := t.regs, wo := t.wo }

/-- R13: a write that sets LOCK locks the block, writes the RWL fields it carries if LOCK was 0 and leaves them if it was 1. -/
def Obligations.BlockLockLocksAfterItsOwnWrite : Prop :=
  ∀ (s : State) (addr die blk off : Nat) (val : Word) (r : RegDesc) (l : Fld), s.Ordered →
    s.decodeCsr addr 8 = some (die, blk, off, r) → s.windowKey die blk off = none → guardedReg blk off = false →
    l ∈ blockLocks blk → l.off = off →
    ∃ t, exec (.blockLock .mp addr val) s = .next t ∧ t.locked die blk = true ∧
      (∀ f ∈ r.fields, f.acc = .rwl →
        bitsAt (t.reg die blk off) f.lo f.w = if s.locked die blk then bitsAt (s.reg die blk off) f.lo f.w else bitsAt val f.lo f.w) ∧
      (∀ d b o, regKey d b o ≠ regKey die blk off → t.reg d b o = s.reg d b o) ∧
      t = { s with regs := t.regs, wo := t.wo }

/-- R9, R12, R566: a read of the management processor returns every field but the WO ones, which read 0, clears the RC fields to the events
that occur during it, and changes nothing else; a read of WIN_FAULT returns the oldest record of the tile's log, removes it and puts its time in
WIN_FTIME. (PAT_HIT and TX_HOLD_NS, which show counters kept elsewhere, are left to their own chapters.) -/
def Obligations.RegisterReadReturnsAndClears : Prop :=
  (∀ (s : State) (addr die blk off : Nat) (events : Word) (r : RegDesc), s.Ordered →
    s.decodeCsr addr 8 = some (die, blk, off, r) → (blk = 0x10 → off % 0x1000 ≠ 0x168) → (blk = 0x18 → off ≠ 0x118) →
    (blk = 0x39 → off ≠ 0x120) →
    ∃ t v, exec (.registerReadClear .mp addr 8 events) s = .next t ∧ t.out = s.out ++ [.readData addr v] ∧
      (∀ f ∈ r.fields, bitsAt v f.lo f.w = if f.acc = .wo then 0 else bitsAt (s.shown die blk off) f.lo f.w) ∧
      (∀ f ∈ r.fields, bitsAt (t.reg die blk off) f.lo f.w =
        if f.acc = .rc then bitsAt events f.lo f.w else bitsAt (s.reg die blk off) f.lo f.w) ∧
      (∀ d b o, regKey d b o ≠ regKey die blk off → t.reg d b o = s.reg d b o) ∧
      t = { s with regs := t.regs, out := t.out }) ∧
  (∀ (s : State) (addr tile : Nat) (events : Word) (r : RegDesc) (f : FaultRec) (rest : List FaultRec), s.Ordered →
    s.decodeCsr addr 8 = some (dieC tile, 0x39, 0x120, r) → s.hrd.log.getD tile [] = f :: rest →
    ∃ t, exec (.registerReadClear .mp addr 8 events) s = .next t ∧ t.fld (dieC tile) Reg.WIN_FTIME_TIME = f.time % 2 ^ Reg.WIN_FTIME_TIME.w ∧
      t = { s.setLog tile rest with regs := t.regs, out := s.out ++ [.readData addr (readMask r (BitVec.ofNat 64 f.word))] })

/-- R33, R34, R560: an access that is no register access changes nothing; the management processor gets a bus error, a herd core without
a window right takes a trap with a fault record, and a read returns 0. -/
def Obligations.UndecodedAccessesChangeNothing : Prop :=
  (∀ (s : State) (addr size : Nat) (val events : Word), s.decodeCsr addr size = none →
    ∃ t, exec (.registerWrite .mp addr size val events) s = .next t ∧
      t = { s with out := s.out ++ [.busError addr], hrd := { s.hrd with busErrors := s.hrd.busErrors + 1 } }) ∧
  (∀ (s : State) (addr size : Nat) (events : Word), s.decodeCsr addr size = none →
    ∃ t, exec (.registerReadClear .mp addr size events) s = .next t ∧
      t = { s with out := s.out ++ [.busError addr, .readData addr 0], hrd := { s.hrd with busErrors := s.hrd.busErrors + 1 } }) ∧
  (∀ (s : State) (tile cl core addr size cause : Nat) (val events : Word), s.Ordered →
    s.windowFault tile cl (csrBase + addr) .write = some cause →
    ∃ t, exec (.registerWrite (.herd tile cl core) addr size val events) s = .next t ∧
      t.hrd.traps = s.hrd.traps ++ [(tile, cl, core, csrBase + addr)] ∧
      t.hrd = { s.hrd with traps := t.hrd.traps, log := t.hrd.log } ∧
      (∀ d b o, regKey d b o ≠ regKey (dieC tile) Reg.WIN_FCNT_FAULTS.blk Reg.WIN_FCNT_FAULTS.off → t.reg d b o = s.reg d b o) ∧
      t = { s with regs := t.regs, hrd := t.hrd })

/-- Writes that their chapter guards: HRD_WDOGn keeps TIMEOUT_US once EN is 1 and FRZ_F0 takes nothing (R583), MAC_BUF below 448 KiB of lossy
pool only sets BUF_ERR (R420), a mailbox takes no write while FULL is 1 (R639), CDC_CTRL.EN stays until every gear entry is
set (R172), a write of TBS_CTRL chooses the source anew (R37, R44), and EVR_CTRL freezes or thaws the recorder (R658). -/
def Obligations.RegisterWritesWithConditions : Prop :=
  (∀ (s : State) (addr die off : Nat) (val events : Word) (r : RegDesc), s.Ordered →
    s.decodeCsr addr 8 = some (die, 0x38, off, r) → 0x10 ≤ off → off < 0x30 → bitsAt (s.reg die 0x38 off) 0 1 = 1 →
    ∃ t, exec (.registerWrite .mp addr 8 val events) s = .next t ∧
      bitsAt (t.reg die 0x38 off) 32 32 = bitsAt (s.reg die 0x38 off) 32 32) ∧
  (∀ (s : State) (addr die off : Nat) (val events : Word) (r : RegDesc), s.Ordered →
    s.decodeCsr addr 8 = some (die, 0x10, off, r) → s.windowKey die 0x10 off = none → off < 0x4000 → off % 0x1000 = 0x20 →
    lossyKib val < 448 →
    ∃ t, exec (.registerWrite .mp addr 8 val events) s = .next t ∧
      t = s.setFlag die (Reg.MAC_STATUS_BUF_ERR.plus (off / 0x1000 * 0x1000)) true) ∧
  (∀ (s : State) (addr die off : Nat) (val events : Word) (r : RegDesc),
    s.decodeCsr addr 8 = some (die, 0x07, off, r) → 0x10000 ≤ off →
    s.flag die (Reg.MPX_MB_FULL.plus ((off - 0x10000) / 0x1000 * 8)) = true →
    exec (.registerWrite .mp addr 8 val events) s = .next s) ∧
  (∀ (s : State) (addr die : Nat) (val events : Word) (r : RegDesc), s.Ordered →
    s.decodeCsr addr 8 = some (die, 0x30, 0x0, r) → s.flag die Reg.CDC_STATUS_GEAR_SET = false →
    ∃ t, exec (.registerWrite .mp addr 8 val events) s = .next t ∧ t.flag die Reg.CDC_CTRL_EN = s.flag die Reg.CDC_CTRL_EN) ∧
  (∀ (s : State) (addr die : Nat) (val events : Word) (r : RegDesc), s.decodeCsr addr 8 = some (die, 0x08, 0x8, r) →
    exec (.registerWrite .mp addr 8 val events) s = .next (s.writePlain die 0x08 0x8 r val events).refreshSources) ∧
  (∀ (s : State) (addr die : Nat) (val events : Word) (r : RegDesc), s.decodeCsr addr 8 = some (die, 0x03, 0x10, r) →
    exec (.registerWrite .mp addr 8 val events) s = .next (
      if bitsAt val 0 2 = 1 then (s.writePlain die 0x03 0x10 r val events).freezeEvr
      else if bitsAt val 0 2 = 2 then (s.writePlain die 0x03 0x10 r val events).thawEvr else s.writePlain die 0x03 0x10 r val events))

/-- A write of BLOCK_TCOMMIT sets TABLES, and clears LOST where it carries a 1 for it (R26). -/
def Sys2Proof.Machine.State.tcWritten (s : State) (die blk : Nat) (val : Word) : State :=
  let t := s.setFld die (tcTables blk) (bitsAt val 16 16)
  if bitsAt val 2 1 = 1 then t.setFlag die (tcLost blk) false else t

/-- R22, R24, R26: writes of a table's data register go to the shadow copy and are held while BUSY is 1; a commit makes the shadow copies of the selected
tables active, sets BUSY and counts GEN, and its block does what it does at a commit; while BUSY, or with ABORT in the same write, it only sets LOST; an abort
copies active over shadow, while BUSY only TABLES and LOST are written; the copy back brings the new contents into the shadow, clears BUSY and applies the
held writes of the block in order, those of other blocks staying held. -/
def Obligations.ShadowedTablesCommitWhole : Prop :=
  (∀ (s : State) (addr die blk off k : Nat) (val events : Word) (r : RegDesc), s.decodeCsr addr 8 = some (die, blk, off, r) →
    s.windowKey die blk off = some k → blk ≠ 0x16 →
    ∃ t, exec (.registerWrite .mp addr 8 val events) s = .next t ∧
      t = if s.flag die (tcBusy blk) then { s with heldWrites := s.heldWrites ++ [(k, val)] }
          else { s with shadow := s.shadow.putD k (wordAfterWrite (s.locked die blk) r (s.shadow.getD k (tblDefault k)) val 0) (tblDefault k) }) ∧
  (∀ (s : State) (die blk : Nat) (val : Word), s.Ordered → (blockTables blk).isEmpty = false → s.variant.populated die = true →
    blockOn die blk = true → blk ∉ [0x16, 0x22, 0x30, 0x31, 0x34, 0x38, 0x40] → bitsAt val 3 1 = 0 → s.flag die (tcBusy blk) = false →
    ∃ t, exec (.tableCommit die blk val) s = .next t ∧ t.active = copyTables die blk (bitsAt val 16 16) s.shadow s.active ∧
      t.shadow = s.shadow ∧ t.flag die (tcBusy blk) = true ∧ t.fld die (tcGen blk) = (s.fld die (tcGen blk) + 1) % 2 ^ 16 ∧
      t.fld die (tcTables blk) = bitsAt val 16 16 ∧ t = { s with regs := t.regs, active := t.active, copying := t.copying }) ∧
  (∀ (s : State) (die blk : Nat) (val : Word), s.Ordered → (blockTables blk).isEmpty = false → s.variant.populated die = true →
    blockOn die blk = true → (blk = 0x16 → s.shardWriter = true) → bitsAt val 3 1 = 0 → s.flag die (tcBusy blk) = false →
    exec (.tableCommit die blk val) s = .next (
      let t := s.tcWritten die blk val
      let u := t.commitTables die blk (bitsAt val 16 16)
      if blk = 0x16 then u.announceShards t else u)) ∧
  (∀ (s : State) (die blk : Nat) (val : Word), s.Ordered → (blockTables blk).isEmpty = false → s.variant.populated die = true →
    blockOn die blk = true → bitsAt val 3 1 = 1 ∨ s.flag die (tcBusy blk) = true →
    ∃ t, exec (.tableCommit die blk val) s = .next t ∧ t.flag die (tcLost blk) = true ∧ t.fld die (tcGen blk) = s.fld die (tcGen blk) ∧
      t = { s with regs := t.regs }) ∧
  (∀ (s : State) (die blk : Nat) (val : Word), s.Ordered → (blockTables blk).isEmpty = false → s.variant.populated die = true →
    blockOn die blk = true →
    ∃ t, exec (.tableAbort die blk val) s = .next t ∧
      t.shadow = (if s.flag die (tcBusy blk) then s.shadow else copyTables die blk (bitsAt val 16 16) s.active s.shadow) ∧
      t.flag die (tcBusy blk) = s.flag die (tcBusy blk) ∧ t.fld die (tcGen blk) = s.fld die (tcGen blk) ∧
      t.fld die (tcTables blk) = bitsAt val 16 16 ∧ t = { s with regs := t.regs, shadow := t.shadow }) ∧
  (∀ (s : State) (die blk mask : Nat), s.Ordered → s.copying.find? (copyKey die blk) = some mask →
    ∃ t, exec (.commitCopyDone die blk) s = .next t ∧ t.flag die (tcBusy blk) = false ∧ t.fld die (tcGen blk) = s.fld die (tcGen blk) ∧
      t.heldWrites = s.heldWrites.filter (fun kv => kv.1 / 4 / 2 ^ 16 / 2 != tableDie die blk * 256 + blk) ∧
      (t.heldWrites = s.heldWrites → t.shadow = copyTables die blk mask s.active s.shadow) ∧
      t = { s with regs := t.regs, shadow := t.shadow, copying := s.copying.erase (copyKey die blk), heldWrites := t.heldWrites }) ∧
  (∀ (s : State) (die blk : Nat), s.copying.find? (copyKey die blk) = none → exec (.commitCopyDone die blk) s = .next s)

/-! ## The time base (spec/01) -/

/-- R35, R45, R715: a time message brings every island's copy to the count; a Delay_Req notes when it left and its Delay_Resp gives the mean path
delay of IEEE 1588; a Sync before any exchange is only noted; 1PPS out rises at whole seconds; a change of grandmaster (by the order
of log entry 193) and a lapsed partner exchange are recorded. What each leaves alone is everything but the discipline's own state and what is named. -/
def Obligations.TimeCommandsFollowTheirRules : Prop :=
  (∀ s : State, ∃ t, exec .timeMessage s = .next t ∧ (∀ die island, t.stamp die island = s.ao.tb) ∧ t = { s with time := t.time }) ∧
  (∀ s : State, s.flag dieB Reg.TBS_CTRL_PTP_EN = true →
    ∃ t, exec .delayReqSend s = .next t ∧ t.time = { s.time with reqSent := some s.ao.tb } ∧
      t = { s with time := t.time, out := s.out ++ [.delayReq] }) ∧
  (∀ (s : State) (received t1 t2 t3 : Nat), s.time.reqSent = some t3 → s.time.lastSync = some (t1, t2) →
    ∃ t, exec (.ptpDelayResp received) s = .next t ∧
      t.time = { s.time with reqSent := none, meanDelay := some ((((t2 : Int) - t1) + ((received : Int) - t3)) / 2) } ∧
      t = { s with time := t.time }) ∧
  (∀ (s : State) (origin : Nat) (twoStep : Bool), s.time.meanDelay = none →
    ∃ t, exec (.ptpSyncSample origin twoStep true) s = .next t ∧ t.time = { s.time with lastSync := some (origin, s.ao.tb) } ∧
      t = { s with time := t.time }) ∧
  (∀ s : State, s.flag dieB Reg.TBS_CTRL_PPS_OUT_EN = true → s.ao.tb % 1000000000 = 0 →
    ∃ t, exec .ppsOutEdge s = .next t ∧ t = { s with out := s.out ++ [.ppsOut] }) ∧
  (∀ (s : State) (gm : PtpDs) (steps : Nat), (∀ g, s.time.gm = some g → g.1.id = gm.id) →
    ∃ t, exec (.ptpAnnounce gm steps) s = .next t ∧ t = { s with time := { s.time with gm := some (gm, steps) } }) ∧
  (∀ (s : State) (g : PtpDs × Nat) (gm : PtpDs) (steps : Nat), s.time.gm = some g → g.1.id ≠ gm.id →
    exec (.ptpAnnounce gm steps) s = .next (if PtpDs.better (gm, steps) g then
      ({ s with time := { s.time with gm := some (gm, steps) } } : State).event dieB 0x08 4 noInst else s)) ∧
  (∀ s : State, s.pair.head = .twin → s.pair.partner = some .twin → s.time.partnerStale = false → 1000000 ≤ s.since s.time.lastExch →
    exec .partnerTimeTimeout s =
      .next (({ s with time := { s.time with partnerStale := true } } : State).selectSource.event dieB 0x08 6 noInst))

/-- R38, R715: at a cold boot without a partner, before the head has entered TWIN or SOLO, the time base steps to the first PTP sample and to the
first 1PPS edge, which counts as the nearest whole second; an edge closer than 999 ms or farther than 1,001 ms from the last is ignored, sets
REJECT and is recorded (R45). The moments that later samples are measured from step with the time base. -/
def Obligations.FirstSampleStepsTheTimeBase : Prop :=
  (∀ (s : State) (origin : Nat) (d : Int), s.Ordered → s.time.meanDelay = some d → s.flag dieB Reg.TBS_CTRL_PTP_EN = true →
    s.time.entered = false → s.time.stepped = false → s.pair.partner = none → s.time.ptp.dead = false →
    ∃ t, exec (.ptpSyncSample origin false false) s = .next t ∧ (t.ao.tb : Int) = ((origin : Int) + d) % 2 ^ 64 ∧ t.time.stepped = true ∧
      t.time.lastSync = some (origin, t.ao.tb) ∧ t = { s with regs := t.regs, ao := { s.ao with tb := t.ao.tb }, time := t.time }) ∧
  (∀ (s : State), s.Ordered → s.time.lastPps = none → s.flag dieB Reg.TBS_CTRL_PPS_EN = true → s.time.entered = false →
    s.time.stepped = false → s.pair.partner = none → s.time.pps.dead = false → s.time.ptp.seen = false → s.ao.tb + 500000000 < 2 ^ 64 →
    ∃ t, exec .ppsInEdge s = .next t ∧ t.ao.tb = nearestSecond s.ao.tb ∧ t.time.stepped = true ∧ t.time.lastPps = some t.ao.tb ∧
      t = { s with regs := t.regs, ao := { s.ao with tb := t.ao.tb }, time := t.time }) ∧
  (∀ (s : State) (last : Nat), s.time.lastPps = some last → s.ao.tb - last < 999000000 ∨ 1001000000 < s.ao.tb - last →
    exec .ppsInEdge s = .next ((({ s with time := { s.time with lastPps := some s.ao.tb } } : State).setFlag dieB Reg.TBS_STATUS_REJECT true).event
      dieB 0x08 3 noInst))

/-! ## Power and reset (spec/16) -/

/-- R113, R678, R681: what a head reset under `cause` leaves of `s`: BOOT, memory all zeros, registers of every domain but the always-on
island, tables, queues and commands at their reset contents; the always-on island, NOR, OTP and what the carriers hold as they were. -/
def Sys2Proof.Machine.HeadResetOf (s t : State) (cause : Nat) : Prop :=
  t.pair.head = .boot ∧ (∀ a, t.load a = 0) ∧ t.active = [] ∧ t.shadow = [] ∧ t.jrnl = .reset ∧ t.host = .reset ∧ t.rdma = .reset ∧
    t.boot = .reset ∧ t.ao = { s.ao with dump := none } ∧ t.nor = s.nor ∧ t.otp = s.otp ∧ t.arr = s.arr ∧ t.nand = s.nand ∧ t.side = s.side ∧
    t.fld dieB Reg.PWR_STATUS_LAST_CAUSE = cause % 16 ∧ t.fld dieB Reg.PWR_CTRL_UV_WARN_DV = s.fld dieB Reg.PWR_CTRL_UV_WARN_DV

/-- R679: the reset sources. In BOOT, FAWN, FENCED and THERMAL_HOLD each is a head reset at once, with its cause; in SOLO a dump with WARM = 1
begins first and the reset waits for its end; in TWIN the head first raises the fault of cause 0x01; in OFF nothing is reset. A reset
during a dump is held until its end (R682). -/
def Obligations.ResetSourcesActByHeadState : Prop :=
  (∀ (s : State) (c : Instr) (u : State) (cause : Nat), s.Ordered →
    ((c, u, cause) = (.sysRst, { s with pins := { s.pins with sysRstN := false } }, 3) ∨
      (∃ val : Word, bitsAt val 63 1 = 1 ∧ bitsAt val 0 1 = 1 ∧ (c, u, cause) = (.pwrRstHead val, s, 4)) ∨
      (c, u, cause) = (.railFault, s.setFlag dieB Reg.PWR_STATUS_PWR_GOOD false, 7) ∨
      (c, u, cause) = (.refclkLoss, ({ s with pins := { s.pins with refclk := false } } : State).setFlag dieB Reg.PWR_STATUS_PWR_GOOD false, 7)) →
    (s.ao.dump = none → s.pair.head ∈ [HeadState.boot, .fawn, .fenced, .thermalHold] → ∃ t, exec c s = .next t ∧ HeadResetOf u t cause) ∧
    (s.ao.dump = none → s.pair.head = .solo → ∃ t, exec c s = .next t ∧
      t.ao = { s.ao with dumps := s.ao.dumps + 1, dump := some { warm := true, tw := s.ao.tb, after := .reset cause, heldReset := none } } ∧
      t.pair = s.pair ∧ t.mem = s.mem ∧ t.jrnl = s.jrnl) ∧
    (s.ao.dump = none → s.pair.head = .twin → exec c s = .next ((u.yield 0x01).headReset cause)) ∧
    (s.ao.dump = none → s.pair.head = .off → exec c s = .next u) ∧
    (∀ d, s.ao.dump = some d → ∃ t, exec c s = .next t ∧ t = { u with ao := { s.ao with dump := some { d with heldReset := some cause } } }))

/-- R680: PWR_RST with GO naming die domains. In BOOT, FENCED and THERMAL_HOLD just these are reset: every register of a named domain reads its
reset value and those of the others stay, but that of PGT's shadowed table 0, which lies on both F-dies (R492); the reset of an S-die empties its
search arrays and leaves memory and the other S-die; that of M-dies empties DDR and leaves HBM. In the other states it is a head reset of cause 0x4,
which FAWN takes at once, TWIN after the fault of cause 0x01, SOLO after a warm dump, and OFF not at all. -/
def Obligations.DieDomainsResetAlone : Prop :=
  (∀ (s : State) (val : Word), bitsAt val 63 1 = 1 → bitsAt val 0 1 = 0 → (s.rstDies val).isEmpty = false → s.Ordered →
    s.pair.head ∈ [HeadState.boot, .fenced, .thermalHold] → ∃ t, exec (.pwrRstDomain val) s = .next t ∧
      t = (s.rstDies val).foldl State.resetDie s ∧
      (∀ die, ∀ blk < 256, ∀ off < 2 ^ 24, homeDie die blk off ∈ s.rstDies val → t.reg die blk off = resetWord s.variant blk off) ∧
      (∀ die, ∀ blk < 256, ∀ off < 2 ^ 24, homeDie die blk off ∉ s.rstDies val → (homeDie die blk off, blk, off) ≠ (dieF 0, 0x17, 0xFF00) →
        t.reg die blk off = s.reg die blk off) ∧
      t.pair.head = s.pair.head ∧ t.arr = s.arr ∧ t.nand = s.nand ∧ t.otp = s.otp ∧ t.nor = s.nor ∧ t.ao = s.ao ∧ t.time = s.time) ∧
  (∀ (s : State), s.pair.head ∈ [HeadState.boot, .fenced, .thermalHold] →
    ∃ t, exec (.pwrRstDomain (BitVec.ofNat 64 (2 ^ 63 + 2 ^ 20))) s = .next t ∧ t.csa = s.csa.erase 0 ∧ t.mem = s.mem ∧ t.pair = s.pair ∧
      t = { s with regs := t.regs, wo := t.wo, active := t.active, shadow := t.shadow, copying := t.copying, heldWrites := t.heldWrites, csa := t.csa }) ∧
  (∀ (s : State), s.pair.head ∈ [HeadState.boot, .fenced, .thermalHold] → s.Ordered → Memory.wf s.mem = true →
    ∃ t, exec (.pwrRstDomain (BitVec.ofNat 64 (2 ^ 63 + 2 ^ 18))) s = .next t ∧
      (∀ a, t.load a = if a < ddrBase then s.load a else 0) ∧ t.jrnl = s.jrnl ∧ t.otp = s.otp ∧ t.pair = s.pair) ∧
  (∀ (s : State) (val : Word), s.Ordered → bitsAt val 63 1 = 1 → bitsAt val 0 1 = 0 → (s.rstDies val).isEmpty = false → s.ao.dump = none →
    (s.pair.head = .fawn → ∃ t, exec (.pwrRstDomain val) s = .next t ∧ HeadResetOf s t 4) ∧
    (s.pair.head = .solo → ∃ t, exec (.pwrRstDomain val) s = .next t ∧ t.pair = s.pair ∧ t.mem = s.mem ∧ t.jrnl = s.jrnl ∧
      t.ao = { s.ao with dumps := s.ao.dumps + 1, dump := some { warm := true, tw := s.ao.tb, after := .reset 4, heldReset := none } }) ∧
    (s.pair.head = .twin → exec (.pwrRstDomain val) s = .next ((s.yield 0x01).headReset 4)) ∧
    (s.pair.head = .off → exec (.pwrRstDomain val) s = .next s)) ∧
  (∀ (s : State) (val : Word), bitsAt val 63 1 = 0 ∨ (bitsAt val 0 1 = 0 ∧ s.rstDies val = []) → exec (.pwrRstDomain val) s = .next s)

/-- R660, R662, R666: the converter starts above 35 V with MOD_EN high; PF_WARN_N, VIN below UV_WARN_DV and MOD_EN low begin a warning. -/
def Obligations.SupplyCommandsStartAndWarn : Prop :=
  (∀ (s : State) (mv : Nat), 35000 < mv → s.pins.modEn = true →
    ∃ t, exec (.vinRise mv) s = .next t ∧ t = { s with pins := { s.pins with vin := mv }, ao := { s.ao with converter := true } }) ∧
  (∀ s : State, 35000 < s.pins.vin →
    ∃ t, exec .modEnRise s = .next t ∧ t = { s with pins := { s.pins with modEn := true }, ao := { s.ao with converter := true } }) ∧
  (∀ s : State, s.flag dieB Reg.PWR_CTRL_PFW_EN = true →
    exec .pfWarn s = .next ({ s with pins := { s.pins with pfWarnN := false } } : State).powerWarn) ∧
  (∀ (s : State) (mv : Nat), mv < max 0x12C (min 0x154 (s.fld dieB Reg.PWR_CTRL_UV_WARN_DV)) * 100 →
    exec (.vinUndervoltage mv) s = .next ({ s with pins := { s.pins with vin := mv } } : State).powerWarn) ∧
  (∀ s : State, exec .modEnLow s = .next ({ s with pins := { s.pins with modEn := false } } : State).powerWarn)

/-- R666, R669, R670: a warning sets WARNED once; in BOOT, FAWN, FENCED and THERMAL_HOLD the head enters the power-down hold at once, with PWR_GOOD low and in OFF;
in SOLO the dump begins; in TWIN the head first raises the fault of cause 0x01. -/
def Obligations.PowerWarningHoldsOrDumps : Prop :=
  (∀ s : State, s.Ordered → s.flag dieB Reg.PWR_STATUS_WARNED = false → s.ao.hold = false → s.ao.dump = none →
    s.pair.head ∈ [HeadState.boot, .fawn, .fenced, .thermalHold] →
    ∃ t, exec .modEnLow s = .next t ∧ t.pair.head = .off ∧ t.ao = { s.ao with hold := true } ∧ t.flag dieB Reg.PWR_STATUS_PWR_GOOD = false ∧
      t.flag dieB Reg.PWR_STATUS_WARNED = true ∧ t.mem = s.mem ∧ t.nor = s.nor) ∧
  (∀ s : State, s.flag dieB Reg.PWR_STATUS_WARNED = false → s.ao.hold = false → s.ao.dump = none → s.pair.head = .solo →
    ∃ t, exec .modEnLow s = .next t ∧ t.pair = s.pair ∧ t.mem = s.mem ∧ t.jrnl = s.jrnl ∧
      t.ao = { s.ao with dumps := s.ao.dumps + 1, dump := some { warm := false, tw := s.ao.tb, after := .hold, heldReset := none } }) ∧
  (∀ s : State, s.flag dieB Reg.PWR_STATUS_WARNED = false → s.ao.hold = false → s.ao.dump = none → s.pair.head = .twin →
    exec .modEnLow s = .next ((((({ s with pins := { s.pins with modEn := false } } : State).setFlag dieB Reg.PWR_STATUS_WARNED true).yield 0x01).beginDump
      false .hold)))

/-- R671: the record bytes that each block of the dump reserve has room for, header and end marker taken off. -/
def Sys2Proof.Machine.State.dumpRooms (s : State) : List Nat := s.dumpBlocks.map fun b => s.slcPages b * 65536 - 4224

/-- R670 to R674, R682: the end of a dump leaves both journal halves in the dump blocks that the reserve has room for, none of them where the reserve has
no block, and then enters the power-down hold, applies the reset held during it, or fences; the exit from the hold is a power-on reset that counts
PCYCLE. -/
def Obligations.DumpEndsInHoldOrReset : Prop :=
  (∀ (s : State) (d : Dump) (n : Nat) (fenced : Bool), s.ao.dump = some d → d.after = .hold →
    ∃ t, exec (.dumpEnd n true fenced [] []) s = .next t ∧ t.pair.head = .off ∧ t.ao.hold = true ∧ t.ao.dump = none ∧ t.mem = s.mem ∧
      (s.dumpBlocks = [] → t.nand = s.nand) ∧
      (s.dumpBlocks ≠ [] → (packDump s.dumpRooms (s.jrnl.own.vals.map JEnt.r ++ s.jrnl.mirror.vals.map JEnt.r)).flatten =
          s.jrnl.own.vals.map JEnt.r ++ s.jrnl.mirror.vals.map JEnt.r →
        t.nand = { s.nand with dumps := t.nand.dumps } ∧ t.nand.dumps = s.nand.dumps.insert s.side
          { dumpid := s.ao.pcycle * 2 ^ 40 + s.ao.dumps, epoch := s.epoch, time := d.tw, warm := d.warm,
            own := s.jrnl.own.vals.map JEnt.r, mirror := s.jrnl.mirror.vals.map JEnt.r, final := true })) ∧
  (∀ (s : State) (d : Dump) (n cause : Nat) (whole fenced : Bool) (lostOwn lostMirror : List Nat), s.ao.dump = some d → d.after ≠ .hold →
    d.heldReset = some cause →
    ∃ u : State, exec (.dumpEnd n whole fenced lostOwn lostMirror) s = .next (u.headReset cause) ∧ u.otp = s.otp ∧ u.ao.tb = s.ao.tb ∧ u.ao.dump = none) ∧
  (∀ (s : State) (d : Dump) (n : Nat) (whole fenced : Bool) (lostOwn lostMirror : List Nat), s.ao.dump = some d → d.after = .fence →
    d.heldReset = none → ∃ t, exec (.dumpEnd n whole fenced lostOwn lostMirror) s = .next t ∧ t.pair.head = .fenced ∧ t.mem = s.mem) ∧
  (∀ (s : State) (mv : Nat), s.Ordered → s.ao.hold = true → s.ao.rail = true → 35000 < mv →
    ∃ t, exec (.powerHoldExit mv true true) s = .next t ∧ t.pair.head = .boot ∧ t.ao.hold = false ∧ t.ao.converter = true ∧
      t.ao.pcycle = (s.ao.pcycle + 1) % 2 ^ 24 ∧ t.ao.tb = s.ao.tb ∧ (∀ a, t.load a = 0) ∧ t.fld dieB Reg.PWR_STATUS_LAST_CAUSE = 2 ∧
      t.otp = s.otp ∧ t.nor = s.nor)

/-- R656, R660, R678: VIN below 27 V stops the converter, and the head is in OFF with memory lost; the loss of the AO rail also loses the time base, the counters
and the PWR registers; its rise is a full power-on that samples HEAD_SIDE, resumes the counters from NOR and counts PCYCLE. -/
def Obligations.PowerLossAndRise : Prop :=
  (∀ (s : State) (mv n : Nat), mv < 27000 → s.ao.dump = none →
    ∃ t, exec (.converterStop mv n) s = .next t ∧ t.pair.head = .off ∧ t.ao.converter = false ∧ t.ao.bPower = false ∧ t.ao.hold = s.ao.rail ∧
      t.ao.tb = s.ao.tb ∧ (∀ a, t.load a = 0) ∧ t.otp = s.otp ∧ t.nor = s.nor ∧ t.pins.vin = mv) ∧
  (∀ s : State, ∃ t, exec .aoRailLoss s = .next t ∧ t.pair.head = .off ∧ t.ao.tb = 0 ∧ t.ao.tripLatched = false ∧ t.ao.heldTrips = [] ∧
      t.ao.heldEvents = [] ∧ t.regs = [] ∧ (∀ a, t.load a = 0) ∧ t.otp = s.otp ∧ t.nor = s.nor) ∧
  (∀ (s : State) (side : Nat) (e : CounterEnt), s.nor.lastCounter = some e →
    ∃ t, exec (.aoRailRise side) s = .next t ∧ t.pair.head = .boot ∧ t.side = side % 2 ∧ t.ao.hours = e.hours ∧ t.ao.seconds = e.seconds ∧
      t.ao.pcycle = (e.pcycle + 1) % 2 ^ 24 ∧ t.ao.tb = 0 ∧ t.fld dieB Reg.PWR_STATUS_LAST_CAUSE = 1 ∧ t.otp = s.otp ∧ t.nor = s.nor)

/-! ## Host commands (spec/02) -/

/-- What a capsule finds on its arrival: it has left the reassembly of its queue pair, and a first command of a fused pair that waited on its queue
for another has failed (R77). -/
def Sys2Proof.Machine.State.arrived (s : State) (cap : Cap) : State :=
  ({ s with rdma := { s.rdma with capsules := s.rdma.capsules.filter fun c => c.1 != cap.qpn || c.2.1 != cap.psn } } : State).failHalf cap

/-- R104, R105, R158, R670: a capsule may reach a queue: NVF is enabled, no handover has stopped the queue pair, no dump runs, and the queue is there. -/
def Sys2Proof.Machine.HostReaches (s : State) (cap : Cap) (q : Queue) : Prop :=
  s.flag (dieF cap.fdie) Reg.NVF_CTRL_EN = true ∧ (s.qp cap.qpn).any s.givesQp = false ∧ s.ao.dump = none ∧ (s.arrived cap).queue cap = some q

/-- R104, R105: its queue takes it: the queue is not full, and the command identifier can be read. -/
def Sys2Proof.Machine.HostTakes (s : State) (cap : Cap) (q : Queue) : Prop :=
  HostReaches s cap q ∧ ((s.arrived cap).outstanding cap.cntlid cap.qid).length < q.size ∧ 4 ≤ cap.bytes

/-- R52 to R54, R103, R105: what a capsule fails with whatever its row: an identifier that is outstanding, an entry that is not whole, a queue of the
other kind, another opcode. -/
def Sys2Proof.Machine.State.arrivalFault (s : State) (cap : Cap) (q : Queue) (io : Bool) : Option Status :=
  if s.cidTaken q cap.cid then some ⟨0, 0x03⟩
  else if cap.bytes < 64 then some ⟨0, 0x11⟩
  else if (cap.qid == 0) == io then some ⟨0, 0x01⟩
  else match cap.alt with
    | .opcode _ => some ⟨0, 0x01⟩
    | _ => none

/-- A command enters with the outcome of the first of its checks that fails (R54, R105), else at the class of R60 to R63. -/
def Sys2Proof.Machine.State.entersCmd (s : State) (cap : Cap) (q : Queue) (kv : Bool) (op : HostOp) (len : Nat) (checks : List (Option Status))
    (wants : List Want) (excl : Bool) : State :=
  let st := firstFail checks
  let sc := if st.isSome then (s, q.cls) else s.cmdClass cap q kv len
  sc.1.enterCmd cap q op sc.2 wants excl (st.map fun x => (x, 0)) none

/-- R53, R54, R68, R69, R100, R105: an I/O command enters with its checks in order, and with its locks: exclusive for what changes a range or a key, shared
for what reads a range, none for Flush, Retrieve, List and Exist. A capsule of a full queue puts its queue pair into error; one without a readable
identifier is discarded and counted. -/
def Obligations.IoCommandsEnterWithChecksAndLocks : Prop :=
  (∀ (s : State) (cap : Cap) (q : Queue), HostTakes s cap q →
    let u := s.arrived cap
    let pre := u.arrivalFault cap q true
    let fz : Option Status := if cap.fuse != .single then some ⟨0, 0x02⟩ else none
    let inc := u.flag (dieF cap.fdie) Reg.NVF_CTRL_INCAPS_EN
    exec (.flush cap) s = .next (u.entersCmd cap q false .flush 0 [pre, fz, u.nsCheck cap false, sglCheck cap inc none] [] false).settle ∧
    (∀ slba nlb : Nat,
      let at_ := fun need => [pre, fz, u.nsCheck cap false, sglCheck cap inc need, s.lbaCheck cap.nsid slba nlb]
      let w := rangeWants cap.nsid slba nlb
      (cap.fuse ≠ .second →
        exec (.write cap slba nlb) s = .next (u.entersCmd cap q false (.write slba nlb) (nlb * 4096) (at_ (some (nlb * 4096))) w true).settle) ∧
      exec (.read cap slba nlb) s = .next (u.entersCmd cap q false (.read slba nlb) (nlb * 4096) (at_ (some (nlb * 4096))) w false).settle ∧
      (cap.fuse ≠ .first → exec (.compare cap slba nlb) s = .next (u.entersCmd cap q false (.compare slba nlb) (nlb * 4096)
        (at_ (some (nlb * 4096))) w false).settle) ∧
      exec (.verify cap slba nlb) s = .next (u.entersCmd cap q false (.verify slba nlb) 0 (at_ none) w false).settle ∧
      ∀ deac, exec (.writeZeroes cap slba nlb deac) s =
        .next (u.entersCmd cap q false (.writeZeroes slba nlb deac) 0 (at_ none) w true).settle) ∧
    (∀ ranges : List (Nat × Nat),
      let l := [pre, fz, u.nsCheck cap false, sglCheck cap inc none, if cap.sgl.len < 16 * ranges.length then some ⟨0, 0x0F⟩ else none,
        if ranges.any fun r => decide (s.nsBlocks cap.nsid < r.1 + r.2) then some ⟨0, 0x80⟩ else none]
      exec (.datasetManagement cap true ranges) s =
        .next (u.entersCmd cap q false (.deallocate ranges) 0 l (rangesWants cap.nsid ranges) true).settle ∧
      exec (.datasetManagement cap false ranges) s = .next (u.entersCmd cap q false .flush 0 l [] false).settle) ∧
    (∀ (key : Key),
      let at_ := [pre, fz, u.nsCheck cap true, sglCheck cap inc none, if key.isEmpty || decide (16 < key.length) then some ⟨1, 0x86⟩ else none]
      let whole : Option Status := if 2 ^ 20 < cap.sgl.len then some ⟨0, 0x02⟩ else none
      exec (.retrieve cap key) s = .next (u.entersCmd cap q true (.retrieve key cap.sgl.len) 0 (at_ ++ [whole]) [] false).settle ∧
      exec (.exist cap key) s = .next (u.entersCmd cap q true (.exist key) 0 at_ [] false).settle ∧
      exec (.delete cap key) s = .next (u.entersCmd cap q true (.delete key) 0 at_ (keyWants cap.nsid key) true).settle ∧
      exec (.list cap key) s = .next (u.entersCmd cap q true (.list key cap.sgl.len) 0
        (at_ ++ [whole, if cap.sgl.len < 4 then some ⟨0, 0x0F⟩ else none]) [] false).settle ∧
      ∀ (vlen : Nat) (opts : StoreOpts), exec (.store cap key vlen opts) s = .next (u.entersCmd cap q true (.store key vlen opts) 0
        (at_ ++ [if 2 ^ 24 < vlen then some ⟨1, 0x85⟩ else none, if opts.append || opts.compress then some ⟨0, 0x02⟩ else none,
          if cap.sgl.len < vlen then some ⟨0, 0x0F⟩ else none]) (keyWants cap.nsid key) true).settle)) ∧
  (∀ (s : State) (cap : Cap) (q : Queue), HostReaches s cap q →
    (q.size ≤ ((s.arrived cap).outstanding cap.cntlid cap.qid).length →
      exec (.flush cap) s = .next ((s.arrived cap).qpFail cap.qpn).settle) ∧
    (((s.arrived cap).outstanding cap.cntlid cap.qid).length < q.size → cap.bytes < 4 →
      let u := s.arrived cap
      exec (.flush cap) s = .next ({ u with host := { u.host with discards := u.host.discards + 1 } } : State).settle))

/-- R76, R77, R78, R100, R103: the two commands of a fused pair enter as one under an exclusive lock; with different ranges or more than 32 blocks both
fail with Invalid Field, and what one of them brings in its capsule is not fetched. A first command alone waits for its second, which must be the next
on the queue; a second alone, and a first that another command follows, fail with Missing Fused Command; a second whose first was aborted fails as that. -/
def Obligations.FusedPairEntersAsOne : Prop :=
  (∀ (s : State) (cap cap2 : Cap) (q : Queue) (slba nlb slba2 nlb2 : Nat), HostTakes s cap q →
    let u := s.arrived cap
    let inc := u.flag (dieF cap.fdie) Reg.NVF_CTRL_INCAPS_EN
    let st := firstFail [u.arrivalFault cap q true, if u.cidTaken q cap2.cid || cap2.cid == cap.cid then some ⟨0, 0x03⟩ else none,
      if cap2.bytes < 64 then some ⟨0, 0x11⟩ else none, if cap2.alt != .asRow then some ⟨0, 0x01⟩ else none, u.nsCheck cap false,
      if cap.nsid != cap2.nsid || slba != slba2 || nlb != nlb2 || decide (32 < nlb) then some ⟨0, 0x02⟩ else none,
      sglCheck cap inc (some (nlb * 4096)), sglCheck cap2 inc (some (nlb * 4096)), u.lbaCheck cap.nsid slba nlb]
    let sc := if st.isSome then (u, q.cls) else u.cmdClass cap q false (nlb * 8192)
    let both := cap.sgl.inCapsule && cap2.sgl.inCapsule
    let d1 := cap.data.take (nlb * 4096)
    let d2 := cap2.data.take (nlb * 4096)
    exec (.compareAndWrite cap cap2 slba nlb slba2 nlb2) s =
      .next (sc.1.enterAs { cap with data := if both then d1 ++ d2 else [], sgl := { cap.sgl with inCapsule := both }, npsn := cap.npsn + cap2.npsn }
        q (.compareAndWrite slba nlb cap2.cid) sc.2 (rangeWants cap.nsid slba nlb) true
        (if both then none else if cap.sgl.inCapsule then some (true, d1) else if cap2.sgl.inCapsule then some (false, d2) else none)
        (st.map fun x => (x, 0)) (st.map fun x => (x, 0))).settle) ∧
  (∀ (s : State) (cap : Cap) (q : Queue) (slba nlb : Nat), HostTakes s cap q → cap.fuse = .first →
    ((s.arrived cap).arrivalFault cap q true = none → exec (.compare cap slba nlb) s =
      .next ((s.arrived cap).setQueue { q with half := some { cap := cap, slba := slba, nlb := nlb, aborted := false } }).settle) ∧
    (∀ st, (s.arrived cap).arrivalFault cap q true = some st →
      exec (.compare cap slba nlb) s = .next ((s.arrived cap).enterCmd cap q .judged q.cls [] false (some (st, 0)) none).settle)) ∧
  (∀ (s : State) (cap : Cap) (q : Queue) (h : Half) (slba nlb : Nat), s.queue cap = some q → q.half = some h → cap.fuse = .second →
    let u := s.setQueue { q with half := none }
    (h.aborted = false → exec (.write cap slba nlb) s = exec (.compareAndWrite { h.cap with fuse := .single } cap h.slba h.nlb slba nlb) u) ∧
    (h.aborted = true → ∀ q', HostTakes u cap q' → exec (.write cap slba nlb) s =
      .next ((u.arrived cap).enterCmd cap q' .judged q'.cls [] false (some (((u.arrived cap).arrivalFault cap q' true).getD ⟨0, 0x07⟩, 0)) none).settle)) ∧
  (∀ (s : State) (cap : Cap) (q : Queue) (slba nlb : Nat), s.queue cap = some q → q.half = none → cap.fuse = .second →
    let u := s.setQueue q
    ∀ q', HostTakes u cap q' → exec (.write cap slba nlb) s =
      .next ((u.arrived cap).enterCmd cap q' .judged q'.cls [] false (some (((u.arrived cap).arrivalFault cap q' true).getD ⟨0, 0x0A⟩, 0)) none).settle) ∧
  (∀ (s : State) (cap : Cap) (q : Queue) (h : Half), s.queue cap = some q → q.half = some h → q.cntlid = cap.cntlid → q.qid = cap.qid →
    let q' := { q with half := none }
    s.failHalf cap = if h.aborted then s.setQueue q' else (s.setQueue q').enterCmd h.cap q' .judged q.cls [] false (some (⟨0, 0x0A⟩, 0)) none)

/-- R64, R68, R104, R140: a command that has entered holds its tag, arrival, class, wanted locks and fixed outcome; its queue's ISSUE has counted; it is
accepted at once where new work is not mirrored. Entering changes no memory, journal, map or array metadata until `advance` moves it on. -/
def Obligations.EnteredCommandIsRecorded : Prop :=
  ∀ (s : State) (cap : Cap) (q : Queue) (op : HostOp) (cls : Nat) (wants : List Want) (excl : Bool) (res res2 : Option (Status × Nat)),
    let tag : Tag := { cntlid := cap.cntlid, qid := cap.qid, cid := cap.cid, issue := q.issue }
    ∃ (u : State) (c : Cmd), s.enterCmd cap q op cls wants excl res res2 = u.advance tag.num ∧ u.cmd tag.num = some c ∧ c.tag = tag ∧ c.op = op ∧ c.cls = cls ∧
      c.nsid = cap.nsid ∧ c.excl = excl ∧ c.arrival = s.ao.tb ∧ c.accepted = !s.mirroring ∧ c.wants = (if res.isSome then [] else wants) ∧
      c.result = res ∧ c.result2 = res2 ∧ c.begun = false ∧ c.epoch = s.epoch ∧ u.queue cap = some { q with issue := (q.issue + 1) % 2 ^ 24 } ∧
      u.mem = s.mem ∧ u.jrnl = s.jrnl ∧ u.ftl = s.ftl ∧ u.arr = s.arr ∧ u.otp = s.otp ∧ u.nand = s.nand

/-- R104, R142: a command with an outcome, where new work is not mirrored, none of its data is out and no ledgered phase of its queue pair is to be sent
first, sends its response capsule with that status
and that Dword 0 and is then forgotten, with its read point. -/
def Obligations.CommandWithOutcomeResponds : Prop :=
  ∀ (s : State) (t : Nat) (c : Cmd) (q : Qp) (st : Status) (dw0 : Nat), s.cmd t = some c → c.result = some (st, dw0) → c.result2 = none →
    c.accepted = true → s.dataOut c.qpn t = false → s.mirroring = false → s.maySendQp c.qpn = true → s.qp c.qpn = some q → q.error = false →
    q.resv = [] → s.pair.ledger.find? (ledgerKey t .response) = none → c.mute = false → c.op ≠ .disconnect →
    (s.stageRespond t).out.contains (.response c.qpn q.spsn c.tag.cntlid c.tag.qid c.tag.cid st dw0 c.sgl.invalidate) = true ∧
      (s.stageRespond t).host = { s.host with cmds := s.host.cmds.erase t } ∧ (s.stageRespond t).mem = s.mem ∧
      (s.stageRespond t).jrnl = s.jrnl ∧ (s.stageRespond t).ftl = { s.ftl with points := s.ftl.points.erase t }

/-- R47 to R52, R55, R78, R81, R94, R96, R101, R105: an admin command that its queue takes enters without locks, with the checks of its SGL. -/
def Obligations.AdminCommandsEnter : Prop :=
  (∀ (s : State) (cap : Cap) (q : Queue), HostTakes s cap q →
    let u := s.arrived cap
    exec (.disconnect cap) s = .next (u.enterCmd cap q .disconnect q.cls [] false
      ((firstFail [u.arrivalFault cap q (cap.qid != 0), if cap.fuse != .single then some ⟨0, 0x02⟩ else none,
        sglCheck cap (u.flag (dieF cap.fdie) Reg.NVF_CTRL_INCAPS_EN) none]).map fun x => (x, 0)) none).settle) ∧
  ∀ (s : State) (cap : Cap) (q : Queue), HostTakes s cap q →
    let u := s.arrived cap
    let inc := u.flag (dieF cap.fdie) Reg.NVF_CTRL_INCAPS_EN
    let r := fun (op : HostOp) (len : Option Nat) => (Host.Outcome.next
      ((u.enterCmd cap q op q.cls [] false ((firstFail [u.arrivalFault cap q false, if cap.fuse != .single then some ⟨0, 0x02⟩ else none,
        sglCheck cap inc len]).map fun x => (x, 0)) none).settle) : Host.Outcome State Fault Refusal)
    (∀ off, exec (.propertyGet cap off) s = r (.propGet off) none) ∧
    (∀ off val, exec (.propertySet cap off val) s = r (.propSet off val) none) ∧
    (∀ lid off len rae, exec (.getLogPage cap lid off len rae) s = r (.getLog lid off len rae) (some len)) ∧
    (∀ cns cntid, exec (.identify cap cns cntid) s = r (.identify cns cntid) (some 4096)) ∧
    (∀ qid cid, exec (.abort cap qid cid) s = r (.abort qid cid) none) ∧
    (∀ fid val save, exec (.setFeatures cap fid val save) s = r (.setFeature fid val save) none) ∧
    (∀ fid, exec (.getFeatures cap fid) s = r (.getFeature fid) none) ∧
    exec (.asyncEventRequest cap) s = r .asyncEvent none ∧
    (∀ kv blocks domain media, exec (.namespaceManagement cap true kv blocks domain media) s = r (.nsCreate kv blocks domain media) none) ∧
    (∀ kv blocks domain media, exec (.namespaceManagement cap false kv blocks domain media) s = r .nsDelete none) ∧
    (∀ ctrls, exec (.namespaceAttachment cap true ctrls) s = r (.attach ctrls) none) ∧
    (∀ ctrls, exec (.namespaceAttachment cap false ctrls) s = r (.detach ctrls) none) ∧
    exec (.keepAlive cap) s = r .keepAlive none ∧
    (∀ lbaf ses, exec (.formatNvm cap lbaf ses) s = r (.format lbaf ses) none) ∧
    ((∀ n, cap.alt ≠ .sanact n) → exec (.sanitizeExitFailure cap) s = r (.sanitize 1) none ∧
      exec (.sanitizeBlockErase cap) s = r (.sanitize 2) none ∧ exec (.sanitizeCryptoErase cap) s = r (.sanitize 4) none) ∧
    (∀ n, cap.alt = .sanact n → ∀ c ∈ [Instr.sanitizeExitFailure cap, .sanitizeBlockErase cap, .sanitizeCryptoErase cap],
      exec c s = r (.sanitize n) none)

/-- R51, R52, R55, R56, R58, R60, R78, R79, R97, R99: what an accepted admin command does. -/
def Obligations.AdminCommandsAct : Prop :=
  ∀ (s : State) (c : Cmd) (k : Ctrl), s.host.ctrls.find? c.tag.cntlid = some k →
    (c.op = .keepAlive → s.adminRun c = (s.setCtrl { k with kaAt := s.ao.tb }).finish c stOk 0) ∧
    (c.op = .propGet 0x08 → s.adminRun c = s.finish c stOk 0x00020000) ∧
    (∀ off, c.op = .propGet off → off ∉ [0x00, 0x08, 0x14, 0x1C] → s.adminRun c = s.finish c stBadField 0) ∧
    (∀ fid val, c.op = .setFeature fid val true → s.adminRun c = (s.setCtrl k).finish c ⟨1, 0x0D⟩ 0) ∧
    (∀ fid, c.op = .getFeature fid → featureKnown fid = true → s.adminRun c = s.finish c stOk (k.features.getD fid (s.featureDefault k fid))) ∧
    (∀ cns cntid b, c.op = .identify cns cntid → s.identifyBytes c.tag.cntlid c.nsid cns cntid = some b →
      s.adminRun c = s.setCmd { c with pieces := some [.bytes b] }) ∧
    (c.op = .asyncEvent → k.aers.length < 8 → k.notices = [] → s.adminRun c = s.setCtrl { k with aers := k.aers ++ [c.tag] }) ∧
    (c.op = .asyncEvent → 8 ≤ k.aers.length → s.adminRun c = s.finish c ⟨1, 0x05⟩ 0) ∧
    (∀ act, c.op = .sanitize act → s.arr.admins.contains k.nqn = true → s.arr.sanitize.isSome = true → s.adminRun c = s.finish c ⟨0, 0x1D⟩ 0) ∧
    (c.op = .sanitize 1 → s.arr.admins.contains k.nqn = true → s.arr.sanitize = none →
      s.adminRun c = (({ (s.log (.change .sanExit)).event (dieF c.fdie) 0x13 0 noInst with
        arr := { ((s.log (.change .sanExit)).event (dieF c.fdie) 0x13 0 noInst).arr with sanFailed := false } } : State)).finish c stOk 0) ∧
    (∀ act, c.op = .sanitize act → act ∉ [1, 2, 4] → s.arr.admins.contains k.nqn = true → s.arr.sanitize = none →
      s.adminRun c = s.finish c stBadField 0) ∧
    (∀ kv blocks domain media n, c.op = .nsCreate kv blocks domain media → s.arr.admins.contains k.nqn = true → s.freeNsid = some n →
      s.adminRun c = ((s.createNs n (.fresh kv blocks domain media)).event (dieF c.fdie) 0x13 0 noInst).finish c stOk n) ∧
    (∀ op n, c.op = op → op = .nsDelete ∨ (∃ l, op = .attach l) ∨ (∃ l, op = .detach l) → s.arr.admins.contains k.nqn = true →
      s.ns c.nsid = some n → (n.removing.isSome = true → s.adminRun c = s.finish c stBadNs 0) ∧
      (n.removing = none → n.releasing = false → n.formatting.isSome = true → s.adminRun c = s.finish c ⟨0, 0x84⟩ 0)) ∧
    (∀ op, c.op = op → (op = .nsDelete ∨ (∃ l, op = .attach l) ∨ (∃ l, op = .detach l) ∨ (∃ a b, op = .format a b) ∨ (∃ a, op = .sanitize a)) →
      s.arr.admins.contains k.nqn = false → s.adminRun c = (s.event (dieF c.fdie) 0x13 0 noInst).finish c ⟨0, 0x15⟩ 0)

/-- The queue that a Connect makes. -/
def Sys2Proof.Machine.newQueue (cap : Cap) (cntlid qid cls sqsize : Nat) : Queue :=
  { cntlid := cntlid, qid := qid, cls := cls, size := sqsize + 1, qpn := cap.qpn, fdie := cap.fdie, port := cap.port, issue := 0, half := none }

/-- R47 to R49, R57 to R59: Connect to queue 0 makes a controller with a free identifier and its admin queue of class 7; to another queue it makes an I/O
queue of the class of the queue class table. A Connect that its checks refuse is answered with their status and makes neither; one on a queue pair that
carries a queue, or to another subsystem than that of the configuration image, fails with 1h/0x82 (the latter by log entry 198). -/
def Obligations.ConnectMakesControllersAndQueues : Prop :=
  (∀ (s : State) (cap : Cap) (nqn : ConnNqn) (sqsize kato c : Nat) (disc : Bool), s.flag (dieF cap.fdie) Reg.NVF_CTRL_EN = true → sqsize ≤ 31 →
    disc = true ∨ (500 ≤ kato ∧ kato ≤ 3600000) → s.freeCntlid = some c → (∀ u ∈ s.host.queues.vals, u.qpn ≠ cap.qpn) →
    disc = true ∨ nqn.sub = s.boot.nqn →
    ∃ u : State, exec (.connect cap nqn 0xFFFF 0 sqsize kato disc) s =
        .next (u.enterCmd { cap with cntlid := c, qid := 0 } (newQueue cap c 0 7 sqsize) .judged 7 [] false (some (stOk, c)) none).settle ∧
      u.host.ctrls = s.host.ctrls.insert c (.fresh c nqn.host kato s.ao.tb s.liveNss disc) ∧
      u.host.queues = s.host.queues.insert (c * 256) (newQueue cap c 0 7 sqsize) ∧
      u.mem = s.mem ∧ u.jrnl = s.jrnl ∧ u.arr = s.arr ∧ u.host.cmds = s.host.cmds) ∧
  (∀ (s : State) (cap : Cap) (nqn : ConnNqn) (k : Ctrl) (cntlid qid sqsize kato : Nat) (disc : Bool), s.flag (dieF cap.fdie) Reg.NVF_CTRL_EN = true →
    0 < qid → qid ≤ 128 → sqsize ≤ 1023 → s.host.ctrls.find? cntlid = some k → s.host.queues.has (cntlid * 256 + qid) = false →
    (∀ u ∈ s.host.queues.vals, u.qpn ≠ cap.qpn) → disc = true ∨ nqn.sub = s.boot.nqn →
    ∃ (u : State) (cls : Nat), (u, cls) = s.bindQueue cap.qpn cntlid qid (s.queueClass cap.fdie k.nqn qid) ∧ u.host = s.host ∧
      let q := { newQueue cap cntlid qid cls sqsize with issue := s.firstIssue cntlid qid }
      let v : State := { u with host := { s.host with queues := s.host.queues.insert (cntlid * 256 + qid) q } }
      exec (.connect cap nqn cntlid qid sqsize kato disc) s =
        .next ((if v.mirroring then v.sendShadow cap.qpn else v).enterCmd { cap with cntlid := cntlid, qid := qid } q .judged cls [] false
          (some (stOk, cntlid)) none).settle) ∧
  (∀ (s : State) (cap : Cap) (nqn : ConnNqn) (cntlid qid sqsize kato : Nat) (disc : Bool) (st : Status),
    s.flag (dieF cap.fdie) Reg.NVF_CTRL_EN = true → s.connectCheck cap.qpn nqn.sub cntlid qid sqsize kato disc = some st →
    ∃ u : State, exec (.connect cap nqn cntlid qid sqsize kato disc) s = .next u.settle ∧ u = s.answerBare cap.qpn cntlid qid cap.cid st 0 ∧
      u.host = s.host) ∧
  (∀ (s : State) (u : Queue) (qpn cntlid qid sqsize kato : Nat) (sub : Bytes) (disc : Bool), (u ∈ s.host.queues.vals ∧ u.qpn = qpn) ∨
    (disc = false ∧ sub ≠ s.boot.nqn) → s.connectCheck qpn sub cntlid qid sqsize kato disc = some ⟨1, 0x82⟩)

/-- R57, R95, R97, R99, R101, R302: what follows from host commands in time. A keep-alive that has run out deletes the controller; 100 ms after a removal the
commands it still catches fail with Invalid Namespace, and it ends when none is left; a Format and a sanitise end once their work is done; progress is logged. -/
def Obligations.HostTimersAndBackgroundEnds : Prop :=
  (∀ (s : State) (cntlid : Nat) (k : Ctrl), s.host.ctrls.find? cntlid = some k → k.kato ≠ 0 → k.kaAt + k.kato * 10 ^ 6 ≤ s.ao.tb →
    ∃ u : State, exec (.keepAliveExpiry cntlid) s = .next u.settle ∧ u.host.ctrls = s.host.ctrls.erase cntlid ∧
      u.host.queues = (s.host.queues.keep fun key _ => key / 256 != cntlid) ∧ u.mem = s.mem ∧ u.jrnl = s.jrnl ∧ u.arr = s.arr) ∧
  (∀ (s : State) (nsid : Nat) (r : Nat × Option (List Nat) × Option Detach), s.removals nsid = [r] → r.1 + 100 * 10 ^ 6 ≤ s.ao.tb →
    exec (.nsRemovalTimeout nsid) s =
      .next (((s.earlier nsid r.2.1 r.1).filter Cmd.catchable).foldl (fun s c => s.failCmd c stBadNs) s).settle) ∧
  (∀ (s : State) (nsid t : Nat), s.removals nsid = [(t, none, none)] → s.earlier nsid none t = [] → s.partnerEarlier nsid none t = [] →
    exec (.nsRemovalComplete nsid) s = .next (s.endRemoval nsid).settle) ∧
  (∀ (s : State) (nsid : Nat) (d : Detach), s.removals nsid = [(d.at_, some d.ctrls, some d)] → s.earlier nsid (some d.ctrls) d.at_ = [] →
    s.partnerEarlier nsid (some d.ctrls) d.at_ = [] → d.side = s.side →
    exec (.nsRemovalComplete nsid) s = .next ((s.changeNow (.detached d)).finishTag (some d.tag) ⟨0, 0⟩).settle) ∧
  (∀ (s : State) (nsid : Nat) (r : Nat × Option (List Nat) × Option Detach), s.removals nsid = [r] →
    s.earlier nsid r.2.1 r.1 ≠ [] ∨ s.partnerEarlier nsid r.2.1 r.1 ≠ [] → exec (.nsRemovalComplete nsid) s = .next s.settle) ∧
  (∀ (s : State) (nsid ses : Nat) (tag : Option Nat) (n : NsRec), s.ns nsid = some n → n.formatting = some (ses, tag) → n.phase = 2 →
    s.runsNs n = true → s.destroying n.domain = false →
    let n' := { n with formatting := none, phase := 0, wipeRefs := [], wipeSegs := [], done := 0, total := 0 }
    exec (.formatComplete nsid) s = .next (((s.setNs nsid n').log (.nsrec nsid (some n'))).finishTag tag ⟨0, 0⟩).settle) ∧
  (∀ (s : State) (x : San), s.arr.sanitize = some x → x.phase = 2 → x.partnerDone = true →
    exec .sanitizeComplete s = .next (s.changeNow (.sanEnd false)).settle) ∧
  (∀ (s : State) (x : San), s.arr.sanitize = some x → x.phase ≠ 2 ∨ x.partnerDone = false → exec .sanitizeComplete s = .next s) ∧
  (∀ (s : State) (x : San), s.arr.sanitize = some x → exec .sanitizeFailed s = .next (s.changeNow (.sanEnd true)).settle) ∧
  (∀ (s : State) (x : San) (failed : Bool), s.arr.sanitize = some x → s.applyMeta (.sanEnd failed) =
    (({ s with arr := { s.arr with sanitize := none, sanFailed := failed }, host := { s.host with sanDone := !failed } } : State).asyncAll
      6 1 0x81).finishTag x.tag (if failed then ⟨0, 0x1C⟩ else ⟨0, 0⟩)) ∧
  (∀ (s : State) (nsid done : Nat) (x : San), s.arr.sanitize = some x →
    exec (.progressLog 1 nsid done) s =
      .next (({ s with arr := { s.arr with sanitize := some { x with done := min done x.total } } } : State).log
        (.progress 1 x.code (min done x.total) x.total)).settle) ∧
  (∀ (s : State) (nsid done : Nat) (n : NsRec), s.ns nsid = some n → n.formatting.isSome = true →
    exec (.progressLog 0 nsid done) s =
      .next ((s.setNs nsid { n with done := min done n.total }).log (.progress 0 nsid (min done n.total) n.total)).settle)

/-- R70, R71, R74: a lock request that nothing stands against is granted, to a command of the partner by a LOCK message; a remote request unanswered after 20 µs
is neither failed nor granted; locks go with the command's outcome. What a grant leaves as it was is said apart from the marks by which R66 measures
waiting (`behind`, `skips`). -/
def Obligations.LockRequestsGrantLapseAndGo : Prop :=
  (∀ (s : State) (tag shard : Nat) (e : LockEnt), (s.host.locks.find? fun e => e.tag == tag && e.shard == shard && s.mayGrant e) = some e →
    ∃ u : State, exec (.lockGrant tag shard) s = .next (u.advance tag).settle ∧ u.host.lockOrder = s.host.lockOrder + 1 ∧
      (u.host.locks.map fun x => { x with behind := none }) = (s.host.locks.map fun x => { (if x = e then
        { e with granted := true, withdrawn := false, order := if e.order = 0 then s.host.lockOrder + 1 else e.order } else x) with behind := none }) ∧
      (∀ t, (u.cmd t).map (fun c => { c with skips := [] }) = (s.cmd t).map fun c => { c with skips := [] }) ∧ u.mem = s.mem ∧ u.jrnl = s.jrnl) ∧
  (∀ (s : State) (tag shard : Nat), (∀ e ∈ s.host.locks, e.tag = tag → e.shard = shard → s.mayGrant e = false) →
    exec (.lockGrant tag shard) s = .next s) ∧
  (∀ (s : State) (e x : LockEnt), x ∈ s.host.locks → x.granted = true → x.conflicts e = true → s.mayGrant e = false) ∧
  (∀ (s : State) (tag t : Nat), s.host.remote.find? tag = some t → t + 20000 ≤ s.ao.tb → s.host.unsettled.contains tag = false →
    exec (.remoteLockTimeout tag) s = .next { s with host := { s.host with unsettled := s.host.unsettled ++ [tag] } }) ∧
  (∀ (s : State) (c : Cmd) (st : Status) (dw0 : Nat), ∀ e ∈ (s.finish c st dw0).host.locks, e.tag ≠ c.tag.num) ∧
  (∀ (s : State), (s.host.cmds.vals.filter Cmd.admitWait) = [] → exec .journalAdmit s = .next s.journalRegs.settle) ∧
  (∀ (s : State) (c : Cmd), (s.host.cmds.vals.filter Cmd.admitWait) = [c] → exec .journalAdmit s = .next (s.journalRegs.advance c.tag.num).settle)

/-! ## The two heads (spec/03) -/

/-- The command that a message of the partner arrives as. -/
def Sys2Proof.Machine.linkCommand (h : ChlHdr) : ChlMsg → Instr
  | .heartbeat hb => .heartbeat h hb
  | .time off rtt src => .time h off rtt src
  | .notice c => .notice h c
  | .handover p sh => .handover h p sh
  | .shardset o n => .shardset h o n
  | .capsule c => .capsule h c
  | .ledger l => .ledger h l
  | .jwrite off r ok => .jwrite h off r ok
  | .release side seq => .release h side seq
  | .lock m => .lock h m
  | .mapupd m lsn => .mapupd h m lsn
  | .sync b => .sync h b
  | .shadowqp c e k u => .shadowqp h c e k u

/-- R121, R122: what the header of a good frame does: the group has heard a frame, everything that ACK covers is acknowledged, the credits come back. -/
def Sys2Proof.Machine.State.chlTook (s : State) (g : Nat) (f : Bytes) : State :=
  let x := s.group g
  let done := x.unacked.filter fun t => ackCovers (t.seq + t.frames - 1) (frameAck f)
  let left := x.unacked.filter fun t => !ackCovers (t.seq + t.frames - 1) (frameAck f)
  let credits := match frameCredit f with
    | some (vl, n) => x.credits.insert vl (x.credits.getD vl 0 + n)
    | none => x.credits
  let since := if left.isEmpty then none else if done.isEmpty then x.ackSince else some s.ao.tb
  let s := s.setGroup g { x with lastFrame := s.ao.tb, unacked := left, ackSince := since, credits := credits }
  done.foldl (fun s t => s.onAcked t) (if done.isEmpty then s else s.setFlag (dieF g) Reg.CHL_STATUS_REPLAYING false)

/-- What waits on a group goes as far as it can. -/
def Sys2Proof.Machine.State.drained (s : State) (g : Nat) : State := s.drainGroup g ((s.group g).waiting.length + 1)

/-- R121, R123: a group that holds a frame, for which the partner has spent a credit. -/
def Sys2Proof.Machine.Group.holding (x : Group) (f : Bytes) (m : ChlMsg) : Group :=
  { x with ahead := x.ahead ++ [{ seq := frameSeq f, bytes := f, msg := m }],
           rxCredits := x.rxCredits.insert (frameVl f) (x.rxCredits.getD (frameVl f) 0 - 1) }

/-- R121, R122: a group that has applied some frames and holds none: RXSEQ has counted, and their credits are owed. -/
def Sys2Proof.Machine.Group.applied (x : Group) (fs : List Bytes) : Group :=
  { x with ahead := [], rxSeq := (x.rxSeq + fs.length) % 65536,
           owed := fs.foldl (fun o f => o.insert (frameVl f) (o.getD (frameVl f) 0 + 1)) x.owed }

/-- R117 to R123, R163: a good frame with a credit on a group that is up. One that is a message of any kind by itself and is next in order has it delivered; the
first of two is held, and the second has the message delivered; one ahead of a gap is held and begins the gap. A frame whose CRC fails is counted and leaves a gap;
a lost group takes nothing. R119, R162, R163: delivery is the message's effect, unless a TYPE or lane is wrong, the lengths disagree or the epoch or tag is stale,
when it is counted or recorded and has no other effect. -/
def Obligations.LinkMessagesTakeEffectInOrder : Prop :=
  (∀ (s : State) (g lane : Nat) (f : Bytes) (m : ChlMsg), s.groupUp g = true → frameOk f = true →
    let v := s.chlTook g f
    let x := v.group g
    v.groupUp g = true → (frameVl f < 5 → 0 < x.rxCredits.getD (frameVl f) 0) →
    (x.ahead = [] → frameSeq f = x.rxSeq →
      (frameEom f = true → exec (linkCommand ⟨g, [(lane, f)]⟩ m) s =
        .next (((((v.setGroup g ((x.holding f m).applied [f])).deliver g [f] m).chlRun g 1).drained g).settle)) ∧
      (frameEom f = false → exec (linkCommand ⟨g, [(lane, f)]⟩ m) s =
        .next ((v.setGroup g { x.holding f m with gapSince := none }).drained g).settle)) ∧
    (∀ p : RxFrame, x.ahead = [p] → p.seq = x.rxSeq → frameEom p.bytes = false → frameSeq f = (x.rxSeq + 1) % 65536 → frameEom f = true →
      exec (linkCommand ⟨g, [(lane, f)]⟩ m) s =
        .next (((((v.setGroup g ((x.holding f m).applied [p.bytes, f])).deliver g [p.bytes, f] p.msg).chlRun g 2).drained g).settle)) ∧
    (x.ahead = [] → 0 < seqDist x.rxSeq (frameSeq f) → seqDist x.rxSeq (frameSeq f) ≤ 256 → exec (linkCommand ⟨g, [(lane, f)]⟩ m) s =
      .next ((v.setGroup g { x.holding f m with gapSince := some (x.gapSince.getD v.ao.tb) }).drained g).settle)) ∧
  (∀ (s : State) (h : ChlHdr) (m : ChlMsg), s.groupUp h.group = false → exec (linkCommand h m) s = .next s.settle) ∧
  (∀ (s : State) (g lane : Nat) (f : Bytes) (m : ChlMsg), s.groupUp g = true → frameOk f = false →
    let x := s.group g
    let l := x.lanes.getD lane Lane.fresh
    exec (linkCommand ⟨g, [(lane, f)]⟩ m) s = .next (((s.setGroup g { x with
      lanes := x.lanes.insert lane { l with errs := recentMs s.ao.tb l.errs ++ [s.ao.tb], cleanSince := s.ao.tb },
      gapSince := some (x.gapSince.getD s.ao.tb) }).addFld (dieF g) Reg.CHL_ERR_CRC_ERR 1).drained g).settle) ∧
  (∀ (s : State) (g : Nat) (fs : List Bytes) (m : ChlMsg),
    let f := fs.headD []
    let typed := ∀ x ∈ fs, frameType x = m.code ∧ frameVl x ∈ vlsOf m.code
    (typed → framesWhole fs = true → s.stale (frameEpoch f) (frameTag f) m = false → s.deliver g fs m = s.applyMsg g (frameSeq f) (frameTag f) m) ∧
    (¬ typed → s.deliver g fs m = (s.addFld (dieF g) Reg.CHL_DISCARD_VIOL fs.length).event (dieF g) 0x15 3 g) ∧
    (typed → framesWhole fs = false → s.deliver g fs m = s.event (dieF g) 0x15 4 g) ∧
    (typed → framesWhole fs = true → s.stale (frameEpoch f) (frameTag f) m = true →
      s.deliver g fs m = s.addFld (dieF g) Reg.CHL_DISCARD_STALE 1)) ∧
  (∀ (s : State) (epoch tag : Nat) (m : ChlMsg), epoch ≠ s.epoch →
    s.stale epoch tag m = match m with
      | .heartbeat _ | .time _ _ _ | .sync _ => false
      | _ => true)

/-- R116, R127, R130, R138 to R142, R144, R148, R158, R159, R206, R270, R442, R719: what each message of the partner does when it takes effect. -/
def Obligations.LinkMessagesHaveTheirEffects : Prop :=
  (∀ (s : State) (g seq tag : Nat) (h : Heartbeat), (s.group g).deaf = false → h.variant = s.variant → h.side ≠ s.side →
    h.formatVer = s.fld dieB Reg.BOOT_FORMAT_FORMAT →
    (s.pair.rejoin ≠ 100 ∨ h.state ≠ .twin →
      let t := s.applyMsg g seq tag (.heartbeat h)
      t.pair.partner = some h.state ∧ t.pair.rxCount = h.count ∧ t.pair.rxAt = some s.ao.tb ∧ t.pair.rxSent = h.sent ∧ t.pair.compatible = true ∧
        t = { s with pair := t.pair, regs := t.regs }) ∧
    (s.pair.head = .fawn → s.pair.rejoin = 100 → h.state = .twin → ∃ u : State, u.pair.partner = some .twin ∧ u.pair.compatible = true ∧
      s.applyMsg g seq tag (.heartbeat h) =
        { u.enterTwin false with pair := { (u.enterTwin false).pair with rejoin := 0 } })) ∧
  (∀ (s : State) (g seq tag rtt : Nat) (off : Int) (src : Bool),
    let t := s.applyMsg g seq tag (.time off rtt src)
    t.time.lastExch = s.ao.tb ∧ t.time.partnerHasSource = src ∧ t.time.partnerStale = false ∧ (rtt ≤ 2000 → t.time.measured = true) ∧
      t.pair = s.pair ∧ t.mem = s.mem ∧ t.jrnl = s.jrnl ∧ t.rdma = s.rdma ∧ t.out = s.out) ∧
  (∀ (s : State) (g seq tag cause : Nat), s.pair.head = .twin → s.pair.faulted = none → s.pair.claim = none → s.epoch < 0xFFFFFFFF →
    ∃ t0, t0 ≤ s.ao.tb ∧ (s.applyMsg g seq tag (.notice cause)).pair.claim =
      some { why := .takeover cause t0 s.ao.tb, expect := s.epoch, holders := 2 ^ s.side, begun := s.ao.tb, applied := [], answered := [], highest := 0 }) ∧
  (∀ (s : State) (g seq tag : Nat) (ports shards : List Nat), s.pair.head = .twin → s.pair.faulted = none → s.pair.claim = none → s.epoch < 0xFFFFFFFF →
    (s.applyMsg g seq tag (.handover ports shards)).pair.claim =
      some { why := .handoverIn s.ao.tb ports shards, expect := s.epoch, holders := if shards.isEmpty then 3 else 2 ^ s.side, begun := s.ao.tb, applied := [],
             answered := [], highest := 0 }) ∧
  (∀ (s : State) (g seq tag gen : Nat) (owners : BitVec 256),
    let t := (s.setOwners fun e => if owners.getLsbD e then 1 else 0).setFld (dieF 0) (tcGen 0x16) gen
    s.applyMsg g seq tag (.shardset owners gen) = (t.moveShards (shardsMoved s t)).sendMoves) ∧
  (∀ (s : State) (g seq tag : Nat) (c : MirrorCap),
    let t := s.applyMsg g seq tag (.capsule c)
    t.pair.capsules.find? c.tag.num = some c ∧ t = { s with pair := t.pair, rdma := { s.rdma with shadows := t.rdma.shadows } } ∧
      (c.npsn = 0 → t.rdma = s.rdma)) ∧
  (∀ (s : State) (g seq tag : Nat) (l : LedgerRec),
    let t := s.applyMsg g seq tag (.ledger l)
    t.pair.ledger.find? (ledgerKey l.tag l.phase) = some l ∧ t = { s with pair := t.pair, rdma := { s.rdma with shadows := t.rdma.shadows } }) ∧
  (∀ (s : State) (g seq tag off : Nat) (r : JRec), off + r.size ≤ s.halfSize →
    (r.lengthOk = true → ((s.applyMsg g seq tag (.jwrite off r true)).jent r.side r.seq).map (fun e => (e.r, e.off)) = some (r, off) ∧
      s.applyMsg g seq tag (.jwrite off r true) = { s with jrnl := (s.applyMsg g seq tag (.jwrite off r true)).jrnl }) ∧
    (r.lengthOk = false → s.applyMsg g seq tag (.jwrite off r true) = s.event (dieC (s.tileOf r.shard)) 0x31 4 noInst) ∧
    s.applyMsg g seq tag (.jwrite off r false) = s) ∧
  (∀ (s : State) (g seq tag side upto : Nat), s.applyMsg g seq tag (.release side upto) =
    (((if side = s.side then s.jrnl.own else s.jrnl.mirror).keep fun q e => decide (q ≤ upto) && s.owner e.r.shard != s.side).keys.foldl
      (fun s q => s.releaseRec side q) s).eraseJournal) ∧
  (∀ (s : State) (g seq tag shard : Nat) (full : Bool) (e : LockEnt), (s.host.locks.find? fun x => x.tag == tag && x.shard == shard) = some e →
    let n := s.host.lockOrder + 1
    let t := s.applyMsg g seq tag (.lock (.grant shard full))
    (t.host.locks.map fun x => { x with behind := none }) = (s.host.locks.map fun x => { (if x = e then
      { e with granted := true, withdrawn := false, order := if e.order = 0 then n else e.order } else x) with behind := none }) ∧
    t.host.lockOrder = n ∧ t.host.ownerFull = full ∧ t.host.remote = s.host.remote.erase tag ∧ t = { s with host := t.host, regs := t.regs }) ∧
  (∀ (s : State) (g seq tag lsn : Nat) (m : MapChange), s.ftl.todo = [] →
    (match m with
      | .log _ _ _ => True
      | .item pid it _ _ _ _ => s.itemBad pid it = none ∧ ∀ ref n fp, it ≠ .fpdel ref n fp
      | _ => False) →
    State.changeReady { s with ftl := { s.ftl with todo := [.upd g seq m lsn] } } (.upd g seq m lsn) = true →
    s.applyMsg g seq tag (.mapupd m lsn) = s.applyUpd m lsn) ∧
  (∀ (s : State) (lsn side l : Nat) (b : LogBody), (∀ failed, b ≠ .change (.sanEnd failed)) →
    s.applyUpd (.log b side l) lsn = State.applyBody { s with ftl := { s.ftl with partnerLsn := max s.ftl.partnerLsn lsn } } b side l) ∧
  (∀ (s : State) (g seq tag jseq lsn x : Nat) (l : List (Nat × Nat × BitVec 128)), s.pair.head = .fawn →
    s.applyMsg g seq tag (.sync (.addresses l jseq lsn x)) =
      { s with pair := { s.pair with addrs := l }, jrnl := { s.jrnl with nextSeq := max jseq s.jrnl.nextSeq },
               ftl := { s.ftl with nextLsn := max lsn s.ftl.nextLsn,
                                   logIndex := if x = 0 then s.ftl.logIndex else s.ftl.logIndex ++ [(lsn - 1, x)] } }) ∧
  (∀ (s : State) (g seq tag : Nat) (e : QpExport) (k : Option Ctrl) (u : Option Queue),
    (s.applyMsg g seq tag (.shadowqp true e k u)).rdma = { s.rdma with shadows := s.rdma.shadows.insert e.qpn e } ∧
    (s.applyMsg g seq tag (.shadowqp false e k u)).rdma = { s.rdma with shadows := s.rdma.shadows.erase e.qpn })

/-- R122, R123, R125, R162, R713 to R715: the frames without a message, lanes and timers of the link. -/
def Obligations.LinkLanesAndTimers : Prop :=
  (∀ (s : State) (g lane : Nat) (f : Bytes), s.groupUp g = true →
    (frameOk f = true → frameType f = 0 → exec (.chlIdle ⟨g, [(lane, f)]⟩) s = .next ((s.chlTook g f).drained g).settle) ∧
    (frameOk f = true → frameType f = 1 → exec (.chlNak ⟨g, [(lane, f)]⟩) s = .next (((s.chlTook g f).replayFrom g).drained g).settle) ∧
    (frameOk f = true → frameType f ≠ 0 → exec (.chlIdle ⟨g, [(lane, f)]⟩) s =
      .next ((((s.chlTook g f).addFld (dieF g) Reg.CHL_DISCARD_VIOL 1).event (dieF g) 0x15 3 g).drained g).settle) ∧
    (frameOk f = false →
      let x := s.group g
      let l := x.lanes.getD lane Lane.fresh
      exec (.chlIdle ⟨g, [(lane, f)]⟩) s = .next (((s.setGroup g { x with
        lanes := x.lanes.insert lane { l with errs := recentMs s.ao.tb l.errs ++ [s.ao.tb], cleanSince := s.ao.tb } }).addFld (dieF g)
          Reg.CHL_ERR_CRC_ERR 1).drained g).settle)) ∧
  (∀ (s : State) (g lane peer : Nat), s.Ordered → g < s.variant.sides → s.flag (dieF g) Reg.CHL_CTRL_EN = true →
    s.fld (dieF g) Reg.CHL_CTRL_LANE_EN / 2 ^ lane % 2 = 1 → ((s.group g).lanes.getD lane Lane.fresh).retired = false → s.groupUp g = true →
    exec (.chlTrain g lane peer true) s = .next (s.setFld (dieF g) Reg.CHL_STATUS_LANES_UP (s.fld (dieF g) Reg.CHL_STATUS_LANES_UP ||| 2 ^ lane))) ∧
  (∀ (s : State) (g t : Nat), (s.group g).gapSince = some t → s.groupUp g = true → t + 1000 ≤ s.ao.tb →
    ∃ u : State, exec (.chlGapTimeout g) s = .next u ∧ (u.group g).gapSince = some s.ao.tb ∧ u.out = s.out ++ [.chlNak g
      (laneAfter (s.lanesUp g) (s.group g).txLane) (frameOf (frameHead 1 0 0 false false 0 (s.ackSeq g) (s.group g).credit 0) [])] ∧
      u = { s with pair := { s.pair with groups := u.pair.groups }, out := u.out }) ∧
  (∀ (s : State) (g t : Nat) (m : TxMsg) (l : List TxMsg), (s.group g).ackSince = some t → s.groupUp g = true → t + 2000 ≤ s.ao.tb →
    (s.group g).unacked = m :: l →
    (s.ao.tb < m.sentAt + 100000 ∨ m.msg.code = 0x31 → exec (.chlAckTimeout g) s = .next (s.replayFrom g)) ∧
    (m.sentAt + 100000 ≤ s.ao.tb → m.msg.code ≠ 0x31 → exec (.chlAckTimeout g) s = .next (s.groupLost g false).settle)) ∧
  (∀ (s : State) (g : Nat) (m : TxMsg) (l : List TxMsg), (s.group g).unacked = m :: l →
    ∃ fs : List (List (Nat × Bytes)), fs.length = l.length + 1 ∧
      (s.replayFrom g).out = s.out ++ .chlReplay g m.seq :: List.zipWith (fun (t : TxMsg) f => Out.chl g t.vl t.msg f) (m :: l) fs) ∧
  (∀ (s : State) (g lane : Nat),
    let l := (s.group g).lanes.getD lane Lane.fresh
    let up := s.fld (dieF g) Reg.CHL_STATUS_LANES_UP
    l.retired = false → 16 < (recentMs s.ao.tb l.errs).length →
    exec (.chlLaneRetire g lane) s = .next ((s.setGroup g { s.group g with
      lanes := (s.group g).lanes.insert lane { l with retired := true, errs := [], cleanSince := s.ao.tb } }).setFld (dieF g)
        Reg.CHL_STATUS_LANES_UP (up - (if up / 2 ^ lane % 2 = 1 then 2 ^ lane else 0)))) ∧
  (∀ (s : State) (g lane : Nat),
    let l := (s.group g).lanes.getD lane Lane.fresh
    l.retired = true → l.cleanSince + 100000000 ≤ s.ao.tb →
    exec (.chlLaneReturn g lane) s =
      .next ((s.setGroup g { s.group g with lanes := (s.group g).lanes.insert lane { l with retired := false } }).chlTrain g lane 0)) ∧
  (∀ (s : State) (g : Nat), s.groupUp g = true → ((s.lanesUp g).length < 8 ∨ (s.group g).lastFrame + 2000 ≤ s.ao.tb) →
    ∃ u, exec (.chlGroupLost g) s = .next (State.settle u) ∧ u = s.groupLost g false ∧
      u = { s with regs := u.regs, out := u.out, ftl := { s.ftl with holds := u.ftl.holds, todo := u.ftl.todo },
                   pair := { s.pair with groups := u.pair.groups, fawnAt := u.pair.fawnAt, rejoin := u.pair.rejoin } }) ∧
  (∀ (s : State) (g lane : Nat), s.groupUp g = true → s.fld (dieF g) Reg.CHL_STATUS_LANES_UP / 2 ^ lane % 2 = 1 →
    exec (.chlIdleSend g lane) s = .next ((s.setGroup g (s.group g).credited).emit
      (.chlIdle g lane (frameOf (frameHead 0 0 0 false false 0 (s.ackSeq g) (s.group g).credit 0) [])))) ∧
  (∀ (s : State) (g lane : Nat), s.groupUp g = false → s.flag (dieF g) Reg.CHL_CTRL_EN = true → s.fld (dieF g) Reg.CHL_CTRL_LANE_EN / 2 ^ lane % 2 = 1 →
    exec (.chlIdleSend g lane) s = .next ((s.setGroup g (s.group g).credited).emit
      (.chlTrain g lane (frameOf (frameHead 2 0 0 false false 0 (s.ackSeq g) (s.group g).credit 0) [])))) ∧
  (∀ (s : State) (g : Nat), s.pickGroup = some g → exec .timeExchangeSend s = .next (s.sendOn g 0 0 0 (.time 0 0 s.hasLockedSource))) ∧
  (∀ s : State, s.pickGroup = none → exec .timeExchangeSend s = .next s)

/-- R127 to R136, R364: heartbeats, witness, lease and claims. -/
def Obligations.HeartbeatWitnessLeaseAndClaims : Prop :=
  (∀ s : State, s.pair.faulted = none → s.pair.head ∈ [HeadState.fawn, .twin, .solo, .fenced, .thermalHold] →
    ∃ t, exec .heartbeatSend s = .next t ∧ t.pair.hbCount = (s.pair.hbCount + 1) % 2 ^ 32 ∧
      t.pair.sentHb = (s.pair.sentHb.filter fun x => decide (s.ao.tb ≤ x.2 + 4000)) ++ [((s.pair.hbCount + 1) % 2 ^ 32, s.ao.tb)] ∧
      t = { s with pair := { s.pair with hbCount := t.pair.hbCount, sentHb := t.pair.sentHb, groups := t.pair.groups }, out := t.out }) ∧
  (∀ s : State, s.pair.faulted.isSome = true → exec .heartbeatSend s = .next s) ∧
  (∀ s : State, s.pair.head ≠ .off →
    let n := (s.pair.hbCount + (if s.pair.faulted.isSome then 1 else 0)) % 2 ^ 32
    exec .witnessWriteTick s = .next (State.tell { s with pair := { s.pair with hbCount := n } }
      (.witWrite (witnessValue n s.pair.head.code s.health s.epoch)) s.witnesses)) ∧
  (∀ s : State, s.pair.head = .twin → s.pair.faulted = none → s.pair.claim = none → s.pair.silence = none → s.pair.deferTill = none →
    s.pair.rxAt.getD s.pair.leaseAt + 3000 ≤ s.ao.tb →
    exec .partnerSilence s = .next (State.tell { s with pair := { s.pair with silence := some s.ao.tb } } (.witRead (1 - s.side)) s.witnesses)) ∧
  (∀ (s : State) (req : SfbReq) (cps : List Nat), s.tell req cps = { s with med := (s.tell req cps).med, out := (s.tell req cps).out }) ∧
  (∀ (s : State) (first : Nat) (answers : List (Nat × Nat × Nat × Nat)), s.pair.head = .twin → s.pair.faulted = none → s.pair.silence = some first →
    first + 2000 ≤ s.ao.tb → s.pair.rxAt.getD s.pair.leaseAt + 5000 ≤ s.ao.tb →
    let l := answers.filter fun a => s.witnesses.contains a.1
    let v := (s.tell (.witRead (1 - s.side)) s.witnesses).witnessAnswers (answers.map Prod.fst)
    let other := l.foldl (fun n a => max n a.2.2.2) 0
    (l.length < 2 ∨ (∀ a ∈ l, a.2.1 = a.2.2.1) → exec (.witnessEvaluate answers) s = .next (State.claimTakeover v 1 s.pair.rxSent first).settle) ∧
    (2 ≤ l.length → (∃ a ∈ l, a.2.1 ≠ a.2.2.1) → other < s.health ∨ (other = s.health ∧ s.side = 0) →
      exec (.witnessEvaluate answers) s = .next (State.claimTakeover v 6 s.pair.rxSent first).settle) ∧
    (2 ≤ l.length → (∃ a ∈ l, a.2.1 ≠ a.2.2.1) → s.health < other ∨ (other = s.health ∧ s.side ≠ 0) →
      exec (.witnessEvaluate answers) s = .next { v with pair := { s.pair with silence := none, deferTill := some (s.ao.tb + 3000, first) } })) ∧
  (∀ (s : State) (t first : Nat), s.pair.deferTill = some (t, first) → t ≤ s.ao.tb → s.pair.head = .twin → s.pair.faulted = none → s.pair.claim = none →
    s.epoch < 0xFFFFFFFF →
    let c : Claim := { why := .takeover 6 s.pair.rxSent first, expect := s.epoch, holders := 2 ^ s.side, begun := s.ao.tb, applied := [],
                       answered := [], highest := 0 }
    exec .claimDeferEnd s = .next (State.settle (State.tell { s with pair := { s.pair with claim := some c, silence := none, deferTill := none } }
      (.claim s.epoch (s.epoch + 1) (2 ^ s.side)) s.roster))) ∧
  (∀ s : State, s.Ordered → s.pair.head = .twin → s.pair.leaseAt + 4000 ≤ s.ao.tb →
    ∃ t, exec .leaseExpiry s = .next t ∧ t.flag (dieF 0) Reg.TKO_STATE_LEASE = false ∧ t = { s with regs := t.regs }) ∧
  (∀ (s : State) (cp epoch holders : Nat) (applied : Bool) (m : MediaImage) (c : Claim), s.pair.claim = some c → c.answered.contains cp = false →
    let w := (s.answered cp SfbReq.isClaim).epochReported cp epoch holders
    w.inRoster cp = true →
    let ok := applied && epoch == c.expect + 1
    let w' := if applied = true ∧ epoch ≠ c.expect + 1 then w.event (cpDie cp) 0x20 5 cp else w
    let c' := { c with answered := c.answered ++ [cp], applied := if ok then c.applied ++ [cp] else c.applied, highest := max c.highest epoch }
    let v := { w' with pair := { s.pair with claim := some c' } }
    (State.claimWins v c'.applied.length = true → exec (.claimReply cp epoch holders applied m) s = .next (State.claimWon v c' m).settle) ∧
    (State.claimWins v c'.applied.length = false → v.roster.length ≤ c'.answered.length →
      exec (.claimReply cp epoch holders applied m) s = .next (State.claimLost v c').settle) ∧
    (State.claimWins v c'.applied.length = false → c'.answered.length < v.roster.length →
      exec (.claimReply cp epoch holders applied m) s = .next (State.settle v))) ∧
  (∀ (s : State) (c : Claim) (cause t0 first : Nat), s.pair.claim = some c → c.why = .takeover cause t0 first → c.begun + 100000 ≤ s.ao.tb →
    ∃ u, exec .claimTimeout s = .next (State.settle u) ∧ u.pair.head = .fenced ∧ u.pair.claim = none ∧ u.mem = s.mem ∧ u.jrnl = s.jrnl) ∧
  (∀ (s : State) (cp : Nat), s.pair.head ∈ [HeadState.twin, .solo] → s.pair.faulted = none →
    ∃ u, exec (.fencedReply cp) s = .next (State.settle u) ∧ u = { s with regs := u.regs, time := u.time, pair := u.pair } ∧
      u.pair = { s.pair with head := .fenced, claim := none, silence := none, deferTill := none }) ∧
  (∀ (s : State) (t : Nat), s.pair.holdTx = some t → t + 8000 ≤ s.ao.tb →
    exec .takeoverTransmitRelease s = .next (State.settle { s with pair := { s.pair with holdTx := none } }))

/-- R113 to R115, R147, R148, R152, R158, R159, R676, R679, R720: takeovers asked for, handovers, starts, rejoin, faults of the head. -/
def Obligations.TakeoverHandoverStartAndFaults : Prop :=
  (∀ (s : State) (val : Word) (m : MediaImage), bitsAt val 5 1 = 1 → s.pair.pending.isSome = true → s.pair.head = .solo →
    exec (.takeoverGo val m) s = .next (s.adopt s.ao.tb m).settle) ∧
  (∀ (s : State) (val : Word), bitsAt val 4 1 = 1 → s.pair.head = .twin → s.pair.faulted = none → s.pair.giving = none →
    exec (.handoverReq val) s = .next (State.settle { s with pair := { s.pair with giving := some (0, s.fps, List.range 256) } })) ∧
  (∀ (s : State) (ports shards : List Nat), s.pair.giving = some (1, ports, shards) →
    (∀ g ∈ s.pair.groups.vals, ∀ t ∈ g.unacked ++ g.waiting, ∀ p sh, t.msg ≠ .handover p sh) →
    (shards ≠ [] → exec .handoverAcked s = .next ((s.setLast 7 false).headReset 8)) ∧
    (shards = [] →
      let v := s.gaveBack ports
      exec .handoverAcked s = .next ((ports.foldl State.startTx { v with pair := { v.pair with giving := none } }).handbackNext).settle)) ∧
  (∀ (s : State) (qpn t : Nat) (q : Qp), s.qp qpn = some q → q.probeAt = some t → q.error = false → t + 10000 ≤ s.ao.tb →
    (0 < q.probes → q.probes < 4 → exec (.probeTimeout qpn) s = .next ((s.setQp qpn { q with probes := q.probes + 1, probeAt := some s.ao.tb }).sendPkt qpn q
      { psn := psnAdd q.spsn 0x400000, n := 0, kind := .probe })) ∧
    (4 ≤ q.probes → exec (.probeTimeout qpn) s = .next (s.qpFail qpn).settle)) ∧
  (∀ s : State, s.pair.head = .fawn → s.upGroups = [] → s.flag (dieF 0) Reg.TKO_CTRL_SOLO_BOOT_EN = true → s.pair.claim = none →
    s.pair.fawnAt + max 1 (s.fld (dieF 0) Reg.TKO_CTRL_SOLO_WAIT_S) * 10 ^ 9 ≤ s.ao.tb →
    exec .soloWaitExpiry s = .next (s.startClaim .soloStart s.epoch (2 ^ s.side)).settle) ∧
  (∀ s : State, s.pair.head = .fawn → s.pair.partner = some .fawn → s.pair.compatible = true → s.upGroups ≠ [] → s.pair.claim = none →
    s.pair.recovered = false → s.pair.rejoin = 0 → s.time.measured = true ∨ s.time.aligned = true →
    let v := if s.leads = true ∨ s.time.aligned = true then s else s.alignTime
    exec .pairStart s = .next (if s.side = 0 then v.startClaim .pairStart v.epoch 3 else v).settle) ∧
  (∀ (s : State) (m : MediaImage), s.pair.head = .fawn → s.pair.recovered = false → s.pair.compatible = true → s.upGroups ≠ [] → s.pair.rejoin = 0 →
    (s.pair.partner ∈ [some HeadState.twin, some .solo] ∧ s.time.measured = true) ∨
      (s.pair.partner = some .fawn ∧ s.side = 1 ∧ (s.leads = true ∨ s.time.aligned = true)) →
    exec (.rejoinSync m) s = .next (s.joinSync m).settle) ∧
  (∀ (s : State) (m : MediaImage), s.pair.head ≠ .fawn → exec (.rejoinSync m) s = .next s.syncNext.settle) ∧
  (∀ (s v : State) (c : Instr) (cause die blk : Nat),
    (∃ a : MemAt, c = .uncorrectableMemoryError a ∧ cause = 0x02 ∧ die = a.die ∧ blk = 0x25 ∧
      v = s.setFlag a.die (if 16 ≤ a.die then Reg.HMC_ERR_UE else Reg.DMC_CHAN_UE.plus (8 * (a.chan % 8))) true) ∨
      (c = .managementWatchdogExpiry ∧ cause = 0x04 ∧ die = dieB ∧ blk = 0x02 ∧ v = s) →
    (s.pair.head = .twin → exec c s = .next ((v.yield cause).enter .fenced).settle) ∧
    (s.pair.head = .solo → exec c s = .next ((v.yield cause).beginDump true .fence).settle) ∧
    (s.pair.head ∈ [HeadState.boot, .fawn] → exec c s = .next ((v.event die blk 0 noInst).headReset 9).settle) ∧
    (s.pair.head ∈ [HeadState.fenced, .thermalHold] → exec c s = .next (v.event die blk 0 noInst).settle) ∧
    (s.pair.head = .off → exec c s = .next v.settle)) ∧
  (∀ (s : State) (p t : Nat), (s.fport p).downAt = some t → t + 2000 ≤ s.ao.tb → s.hasLink p = false →
    s.flag (portDie p) (Reg.MAC_CFG_EN.plus (portOff p)) = true →
    (s.pair.head = .twin → s.pair.faulted = none → exec (.frontPortLinkFault p true) s = .next ((s.yield 0x03).enter .fenced).settle) ∧
    (s.pair.head = .solo → s.pair.faulted = none → exec (.frontPortLinkFault p true) s = .next ((s.yield 0x03).beginDump true .fence).settle) ∧
    (s.pair.head ∈ [HeadState.fenced, .thermalHold] → exec (.frontPortLinkFault p true) s = .next (s.event (portDie p) 0x10 0 noInst))) ∧
  (∀ s : State, s.boot.phase = .loaded → s.pair.head = .boot → s.ao.tripLatched = false →
    ∃ u, exec .bootComplete s = .next (State.settle u) ∧ u.pair = { s.pair with head := .fawn, fawnAt := s.ao.tb } ∧ u.mem = s.mem ∧ u.jrnl = s.jrnl) ∧
  (∀ s : State, s.nand.dumps.isEmpty = false → (s.pair.dumpRecs.any fun q => (s.jent q.1 q.2).isSome) = false → s.ftl.ckpt = none → s.serving = true →
    exec .dumpErase s = .next (s.ftl.dumpRes.foldl (fun (s : State) b => s.eraseBlock b 7)
      { s with nand := { s.nand with dumps := [] }, ftl := { s.ftl with dumpRes := [] }, pair := { s.pair with dumpRecs := [] } }).settle)

/-! ## Destage, packs, key cipher units (spec/04, spec/05) -/

/-- R180, R187, R188, R189, R191, R193, R195, R198, R201, R202, R207, R221, R243, R244: records, chunks, key slots, lanes and chunks being freed. -/
def Obligations.DestageMovesRecordsAndChunks : Prop :=
  (∀ (s : State) (side seq : Nat) (fix : List Item) (root : Option (Nat × Nat)) (e : JEnt), s.jobOf side seq = none → s.jent side seq = some e →
    s.mayTransmit = true → s.flag (dieM 0) Reg.FTL_CTRL_EN = true → e.destaging = false → e.txn = 0 → e.r.kv = false →
    (s.jent e.r.side e.r.seq).any (fun d => side != s.side || s.recComplete d) = true → s.owner e.r.shard = s.side →
    exec (.journalDestage side seq fix root) s = .next (s.beginDestage e).settle) ∧
  (∀ (s : State) (side seq j : Nat) (x : Job) (root : Option (Nat × Nat)), s.jobOf side seq = some (j, x) →
    exec (.journalDestage side seq [] root) s = .next (s.tryTxn j).settle) ∧
  (∀ (s : State) (job n : Nat) (r : LaneRun) (x : Job) (b icv ocv : Bytes) (v : State),
    let u := s.startLanes
    u.runOf .fpl (.chunk job n) = some r → u.job job = some x → x.chunkAt n = some { bytes := b, st := .hash } →
    u.useFp r.tile x.domain = some (icv, ocv, v) →
    let y := { x with tile := r.tile }
    let w := (v.leaveLane r).setJob job y
    let fp := hmacFrom (icv, ocv) b
    (x.repl = none → r.filter = false → exec (.fingerprintDone job n) s = .next (w.freshChunk job n y fp).settle) ∧
    (x.repl = none → r.filter = true → exec (.fingerprintDone job n) s = .next (State.settle (match w.filterProbe x.domain fp with
      | (z, some ref) => (z.addFld (dieC r.tile) Reg.FPL_HIT_FILTER_HIT 1).setChunk job n (.candidate fp ref r.cmp)
      | (z, none) => z.freshChunk job n y fp))) ∧
    (∀ k fps, x.repl = some (k, fps) → exec (.fingerprintDone job n) s =
      .next (State.settle (if fps.getD n [] = fp then w.freshChunk job n y fp else w.wrongChunk job n y k)))) ∧
  (∀ (s : State) (job n : Nat) (x : Job) (b fp : Bytes) (ref : Nat) (cmp : Bool) (e : FpEnt), s.job job = some x →
    x.chunkAt n = some { bytes := b, st := .candidate fp ref cmp } → ((s.confirmable x.domain fp b.length).find? fun e => e.ref == ref) = some e →
    ((s.chunk e.ref).len = e.len → cmp = false → exec (.candidateConfirm job n) s = .next (s.confirmChunk job n x fp e.ref).settle) ∧
    ((s.chunk e.ref).len = e.len → cmp = true → exec (.candidateConfirm job n) s = .next ((s.setChunk job n (.comparing fp e.ref)).readPack
      (s.chunk e.ref).pack (e.ref - (s.chunk e.ref).member) x.domain x.cls x.tile (.compare job n (s.chunk e.ref).member)).settle) ∧
    ((s.chunk e.ref).len ≠ e.len → exec (.candidateConfirm job n) s =
      .next ((((s.addFld (dieC x.tile) Reg.FPL_MISC_UNCONFIRMED 1).event (dieC x.tile) 0x31 5 noInst).freshChunk job n x fp).settle))) ∧
  (∀ (s : State) (ref : Nat), refNum ref ≠ 0 → (s.chunk ref).state = 1 → (s.chunk ref).sum = 0 → s.frees ref = true → s.dst.freeing.has ref = false →
    s.chunkInUse ref = false →
    ∃ t, exec (.chunkFreeStart ref) s = .next t ∧ t.dst.freeing.find? ref =
      some { since := s.ao.tb, dying := false, acked := s.pair.head == .solo, fp := (s.indexOf ref).head?.map FpEnt.fp, data := none }) ∧
  (∀ (s : State) (ref : Nat) (f : Freeing), s.dst.freeing.find? ref = some f → f.dying = true →
    ((s.chunk ref).sum = 0 → f.acked = true → s.pointBefore f.since = false → s.chunkInUse ref = false →
      let u := s.log (.state ref 3)
      exec (.chunkFreeFinish ref) s = .next (State.settle { u with dst := { u.dst with freeing := u.dst.freeing.erase ref } })) ∧
    (∀ fp, (s.chunk ref).sum ≠ 0 → f.fp = some fp → exec (.chunkFreeFinish ref) s = .next (s.restoreChunk ref fp).settle) ∧
    ((s.chunk ref).sum = 0 → f.acked = false ∨ s.pointBefore f.since = true ∨ s.chunkInUse ref = true →
      exec (.chunkFreeFinish ref) s = .next s)) ∧
  (∀ (s : State) (tile domain addr : Nat), s.fpWanted tile domain = true → s.dst.fpSlots.has (fpKey tile domain) = false →
    let u := s.addFld (dieC tile) Reg.FPL_SLOT_MISS_COUNT 1
    exec (.fpSlotLoad tile domain addr) s = .next (match s.loadRec tile domain addr with
      | some (some r) => (u.putFpSlot tile domain r.icv r.ocv).settle
      | some none => (u.raiseFault 0x02 (dieC tile) 0x31).settle
      | none => s)) ∧
  (∀ (s : State) (tile domain : Nat) (icv ocv : Bytes),
    let u := s.putFpSlot tile domain icv ocv
    u.dst.fpSlots.find? (fpKey tile domain) = some (icv, ocv, s.dst.clock) ∧
      u = { s with dst := { s.dst with fpSlots := u.dst.fpSlots, clock := s.dst.clock + 1 } }) ∧
  (∀ (s : State) (tile domain gen addr : Nat), s.xtsWanted tile domain gen = true → s.dst.xtsSlots.has (xtsKey tile domain gen) = false →
    let u := s.addFld (dieC tile) Reg.XTS_SLOT_MISS_COUNT 1
    exec (.xtsSlotLoad tile domain gen addr) s = .next (match s.loadRec tile domain addr with
      | some (some r) => (match r.gens.find? fun g => g.gen == gen with
        | some g => (u.putXtsSlot tile domain g).settle
        | none => ((u.genAbsent tile domain gen).genAbsentCopies tile domain gen).settle)
      | some none => (u.raiseFault 0x02 (dieC tile) 0x34).settle
      | none => s)) ∧
  (∀ (s : State) (tile domain : Nat) (g : KeyGen),
    let u := s.putXtsSlot tile domain g
    u.dst.xtsSlots.find? (xtsKey tile domain g.gen) = some (g.k1, g.k2, s.dst.clock) ∧
      u = { s with dst := { s.dst with xtsSlots := u.dst.xtsSlots, clock := s.dst.clock + 1 } }) ∧
  (∀ (s : State) (tile : Nat) (val : Word),
    let dom := if bitsAt val 12 1 = 1 then none else some (bitsAt val 0 12)
    let hit := fun (d : Nat) => bitsAt val 12 1 == 1 || d == bitsAt val 0 12
    exec (.fpSlotFlush tile val) s = .next (s.flushFpLater tile dom).settle ∧
    exec (.xtsSlotFlush tile val) s = .next (s.flushXtsLater tile dom).settle ∧
    (s.dst.running = [] →
      s.flushFpLater tile dom = { s with dst := { s.dst with fpSlots := s.dst.fpSlots.keep fun k _ => !(k / 4096 == tile && hit (k % 4096)) } } ∧
      s.flushXtsLater tile dom =
        { s with dst := { s.dst with xtsSlots := s.dst.xtsSlots.keep fun k _ => !(k / 65536 / 4096 == tile && hit (k / 65536 % 4096)) } })) ∧
  (∀ (s : State) (tile lane : Nat) (kind : LaneKind), s.variant.populated (dieC tile) = true → lane < kind.regs.2.2 →
    exec (.laneDisable tile kind lane) s = .next (s.stopLane tile kind lane).settle ∧
    (kind ≠ .dcp → kind ≠ .dec → s.stopLane tile kind lane =
      s.setFld (dieC tile) kind.regs.1 (s.fld (dieC tile) kind.regs.1 - s.fld (dieC tile) kind.regs.1 / 2 ^ lane % 2 * 2 ^ lane))) ∧
  (∀ (s : State) (tile lane : Nat) (kind : LaneKind), s.lanes kind tile / 2 ^ lane % 2 = 1 → lane < kind.regs.2.2 →
    let u := s.setFld (dieC tile) kind.regs.2.1 (s.fld (dieC tile) kind.regs.2.1 ||| 2 ^ lane)
    let left := s.dst.running.filter fun r => !(r.kind == kind && r.tile == tile && r.lane == lane)
    exec (.laneFault tile kind lane) s =
      .next (((State.event { u with dst := { u.dst with running := left } } (dieC tile) kind.regs.1.blk 0 lane).stopLane tile kind lane).settle))

/-- R209 to R218, R223, R224, R240, R241, R246: a pack is closed when full, flushed or timed out, compressed, encrypted under WGEN and placed; one that is read is decrypted,
inflated, checked and served, or treated as malformed. -/
def Obligations.PacksCloseCipherAndServe : Prop :=
  (∀ (s : State) (pack : Nat) (p : Pack), s.pack pack = some p → p.st = .opened →
    (p.full = true → exec (.packClose pack) s = .next (s.closePack pack).settle) ∧
    ((s.openPacks p.tile).keys.head? = some pack → 16 ≤ (s.openPacks p.tile).length → s.packWanted p.tile = true →
      exec (.packClose pack) s = .next (s.closePack pack).settle) ∧
    (max 1 (s.fld (dieC p.tile) Reg.CMP_CTRL_FLUSH_US) * 1000 ≤ s.since p.addedAt →
      exec (.packFlushTimeout pack) s = .next (s.closePack pack).settle)) ∧
  (∀ (s : State) (tile : Nat) (val : Word), exec (.cmpFlush tile val) s =
    .next (((s.openPacks tile).keep fun _ p => bitsAt val 12 1 == 1 || p.domain == bitsAt val 0 12).keys.foldl (fun s k => s.closePack k) s).settle) ∧
  (∀ (s : State) (pack : Nat) (r : LaneRun) (p : Pack),
    let u := s.startLanes
    u.runOf .cmp (.pack pack) = some r → u.pack pack = some p → p.st = .closed → p.copyOf = none →
    let d := deflate p.plain
    exec (.packCompressDone pack) s = .next (((((u.leaveLane r).addFld (dieC r.tile) Reg.CMP_COUNT_PACKS 1).addFld (dieC r.tile)
      Reg.CMP_COUNT_ALL_STORED (if d.2 then 1 else 0)).setPack pack { p with st := .compressed, stream := d.1, stored := d.2 }).settle)) ∧
  (∀ (s : State) (pack : Nat) (r : LaneRun) (p : Pack) (k1 k2 : Bytes) (v : State),
    let u := s.startLanes
    let g := u.wgen r.tile p.domain
    u.runOf .enc (.pack pack) = some r → u.pack pack = some p → p.st = .compressed → u.useXts r.tile p.domain g = some (k1, k2, v) →
    let ct := xtsEnc k1 k2 p.chunk (padMul 16 p.stream)
    let head := p.env.take 6 ++ le 2 g ++ (p.env.drop 8).take 20
    let env := if p.copyOf = none then envelope p.kv p.stored p.mems.length g p.chunk p.plain p.stream ct
      else head ++ le 4 (crc32c (head ++ ct)).toNat ++ ct
    exec (.packEncryptDone pack) s =
      .next (((v.leaveLane r).setPack pack { p with st := .encrypted, gen := g, env := env }).placePack pack).settle) ∧
  (∀ (s : State) (id : Nat) (r : LaneRun) (x : PackRd),
    let u := s.startLanes
    u.runOf .dec (.read id) = some r → u.med.rds.find? id = some x → x.env.isSome = true → x.plain = none →
    (∀ e k1 k2 v, x.env? = some e → u.useXts r.tile x.domain e.gen = some (k1, k2, v) →
      let w := v.leaveLane r
      exec (.packDecryptDone false id) s = .next (State.settle { w with med := { w.med with
        rds := w.med.rds.insert id { x with plain := some (xtsDec k1 k2 e.chunk e.payload) } } })) ∧
    (x.env? = none → exec (.packDecryptDone false id) s = .next ((u.leaveLane r).packBad id 1).settle)) ∧
  (∀ (s : State) (id : Nat) (r : LaneRun) (p : Pack) (k1 k2 : Bytes) (e : Env) (v : State),
    let u := s.startLanes
    u.runOf .dec (.pack id) = some r → u.pack id = some p → p.st = .closed → p.copyOf.isSome = true → envOf p.env = some e →
    u.useXts r.tile p.domain p.gen = some (k1, k2, v) →
    exec (.packDecryptDone true id) s =
      .next ((v.leaveLane r).setPack id { p with st := .compressed, stream := (xtsDec k1 k2 p.chunk e.payload).take e.slen }).settle) ∧
  (∀ (s : State) (rd : Nat) (r : LaneRun) (x : PackRd) (st : Bytes) (e : Env),
    let u := s.startLanes
    u.runOf .dcp (.read rd) = some r → u.med.rds.find? rd = some x → x.env.bind envOf = some e → x.plain = some st →
    let w := u.leaveLane r
    (∀ out, inflate (st.take e.slen) = some out →
      (out.length = e.ulen → (crc32c out).toNat = e.ucrc → exec (.packInflateDone rd) s = .next (w.packServe rd (memberOf e out)).settle) ∧
      (out.length = e.ulen → (crc32c out).toNat ≠ e.ucrc →
        exec (.packInflateDone rd) s = .next ((w.addFld (dieC r.tile) Reg.DCP_ERR_UCRC 1).packBad rd 2).settle) ∧
      (out.length ≠ e.ulen → exec (.packInflateDone rd) s = .next ((w.addFld (dieC r.tile) Reg.DCP_ERR_FORMAT 1).packBad rd 2).settle)) ∧
    (inflate (st.take e.slen) = none →
      exec (.packInflateDone rd) s = .next ((w.addFld (dieC r.tile) Reg.DCP_ERR_FORMAT 1).packBad rd 2).settle)) ∧
  (∀ (s : State) (k : LaneKind) (t l : Nat) (work : List LaneWork) (w : LaneWork) (turn : Nat × Nat), s.pickWork k t l work = some (w, turn) →
    w ∈ work ∧ w.ready = true ∧ (w.cls ≠ 0 → (∀ x ∈ work, x.ready = true → x.cls ≠ 0) ∧
      (l < s.reservedLanes k t → w.ulen ≤ 16384 ∧ ∀ x ∈ work, x.cls ≠ 0)))

/-- The key cipher unit of a tile runs and has this session (R235, R243). -/
def Sys2Proof.Machine.KcuRuns (s : State) (tile ses : Nat) : Prop :=
  tile < s.variant.tiles ∧ ses < 4 ∧ s.flag (dieC tile) Reg.KCU_CTRL_EN = true

/-- What a block operation of the key cipher unit does to the session's key, CHAIN and input: output and new CHAIN (R235). -/
def Sys2Proof.Machine.kcuCipher (tile ses : Nat) (c : Instr) (key chain input out chain' : Bytes) : Prop :=
  (c = .kcuEnc tile ses ∧ out = aesEnc key input ∧ chain' = chain) ∨
  (c = .kcuDec tile ses ∧ out = aesDec key input ∧ chain' = chain) ∨
  (c = .kcuEncChain tile ses ∧ out = aesEnc key (xorBytes input chain) ∧ chain' = out) ∨
  (c = .kcuDecChain tile ses ∧ out = xorBytes (aesDec key input) chain ∧ chain' = input)

/-- R234 to R239: block operations, loads, saves and restores of key cipher sessions, and domain key records. A session's operation ends with DONE and its ERR;
what it writes to memory is what stands at DST and nothing else. -/
def Obligations.KeyCipherUnitOperations : Prop :=
  (∀ (s : State) (tile ses : Nat) (c : Instr) (x : KcuSes) (out chain' : Bytes), KcuRuns s tile ses → s.Ordered → s.kcu tile ses = some x →
    kcuCipher tile ses c x.key x.chain (s.kcuIn tile ses) out chain' →
    ∃ t, exec c s = .next t ∧ t.kcu tile ses = some { x with chain := chain', ops := x.ops + 1 } ∧
      (∀ i < 2, t.fld (dieC tile) (kcuFld ses (Reg.KCU_DATA_BYTES.plus (8 * i))) = leAt out (8 * i) 8) ∧
      t.flag (dieC tile) (kcuFld ses Reg.KCU_STATUS_DONE) = true ∧ t.fld (dieC tile) (kcuFld ses Reg.KCU_STATUS_ERR) = 0 ∧
      t = { s with regs := t.regs, keys := { s.keys with kcu := t.keys.kcu } }) ∧
  (∀ (s : State) (tile ses : Nat) (c : Instr), KcuRuns s tile ses → s.kcu tile ses = none →
    c ∈ [Instr.kcuEnc tile ses, .kcuDec tile ses, .kcuEncChain tile ses, .kcuDecChain tile ses, .kcuSetChain tile ses, .kcuSaveClear tile ses,
      .kcuSaveWrapped tile ses, .kcuClose tile ses] → exec c s = .next (s.kcuEnd tile ses 1)) ∧
  (∀ (s : State) (tile ses : Nat) (x : KcuSes), KcuRuns s tile ses → s.kcu tile ses = some x →
    exec (.kcuSetChain tile ses) s = .next ((s.setKcu tile ses { x with chain := s.kcuIn tile ses }).kcuEnd tile ses 0)) ∧
  (∀ (s : State) (tile ses : Nat), KcuRuns s tile ses → s.kcu tile ses = none → s.rangeFault tile 10 (s.kcuSrc tile ses) 40 .read = none →
    exec (.kcuLoadWrapped tile ses) s = .next (match (s.awkOf tile).bind fun k => kwpUnwrap k (s.loads (s.kcuSrc tile ses) 40) with
      | some key => if key.length = 16 ∨ key.length = 32 then
          (s.setKcu tile ses { key := key, chain := zeros 16, clear := false, ops := 0 }).kcuEnd tile ses 0 else s.kcuEnd tile ses 3
      | none => s.kcuEnd tile ses 3)) ∧
  (∀ (s : State) (tile ses : Nat) (long : Bool), KcuRuns s tile ses → s.kcu tile ses = none →
    let key := (List.range 4).flatMap fun i => le 8 (s.wo.getD (regKey (dieC tile) 0x36 (0x1030 + ses * 0x100 + 8 * i)) 0).toNat
    (s.flag (dieC tile) Reg.KCU_CTRL_CLEAR_KEY_EN = true → exec (.kcuLoadClear tile ses long) s =
      .next ((s.setKcu tile ses { key := key.take (if long then 32 else 16), chain := zeros 16, clear := true, ops := 0 }).kcuEnd tile ses 0)) ∧
    (s.flag (dieC tile) Reg.KCU_CTRL_CLEAR_KEY_EN = false →
      exec (.kcuLoadClear tile ses long) s = .next ((s.kcuEnd tile ses 5).event (dieC tile) 0x36 9 noInst))) ∧
  (∀ (s : State) (tile ses : Nat) (c : Instr) (x : KcuSes) (b : Bytes), KcuRuns s tile ses → s.kcu tile ses = some x → Memory.wf s.mem = true →
    (c = .kcuSaveClear tile ses ∧ x.clear = true ∧ b = x.context) ∨ (c = .kcuSaveWrapped tile ses ∧ b = kwpWrap (s.ctxKey (dieC tile) 0) x.context) →
    s.rangeFault tile 10 (s.kcuDst tile ses) b.length .write = none →
    ∃ t, exec c s = .next t ∧ (∀ i < b.length, t.load (s.kcuDst tile ses + i) = b.getD i 0) ∧
      (∀ a, a < s.kcuDst tile ses ∨ s.kcuDst tile ses + b.length ≤ a → t.load a = s.load a) ∧ t = { s with regs := t.regs, mem := t.mem }) ∧
  (∀ (s : State) (tile ses : Nat) (x : KcuSes), KcuRuns s tile ses → s.kcu tile ses = some x → x.clear = false →
    exec (.kcuSaveClear tile ses) s = .next ((s.kcuEnd tile ses 5).event (dieC tile) 0x36 9 noInst)) ∧
  (∀ (s : State) (tile ses : Nat), KcuRuns s tile ses → s.kcu tile ses = none →
    let put := fun (p : Option Bytes) => match p with
      | some p => if p.length = 64 ∧ (leAt p 48 4 = 16 ∨ leAt p 48 4 = 32) then (s.setKcu tile ses (contextKcu p)).kcuEnd tile ses 0 else s.kcuEnd tile ses 3
      | none => s.kcuEnd tile ses 3
    (s.rangeFault tile 10 (s.kcuSrc tile ses) 64 .read = none →
      exec (.kcuRestore tile ses false) s = .next (put (some (s.loads (s.kcuSrc tile ses) 64)))) ∧
    (s.rangeFault tile 10 (s.kcuSrc tile ses) 72 .read = none →
      exec (.kcuRestore tile ses true) s = .next (put (kwpUnwrap (s.ctxKey (dieC tile) 0) (s.loads (s.kcuSrc tile ses) 72))))) ∧
  (∀ (s : State) (tile ses : Nat) (x : KcuSes), KcuRuns s tile ses → s.kcu tile ses = some x → exec (.kcuClose tile ses) s =
    .next (State.kcuEnd { s with keys := { s.keys with kcu := s.keys.kcu.erase (dieC tile * 4 + ses) } } tile ses 0)) ∧
  (∀ (s : State) (tile ses a c : Nat), KcuRuns s tile ses → s.kcu tile ses = none →
    s.rangeFault tile 10 (s.kcuSrc tile ses) 40 .read = some (a, c) →
    exec (.kcuLoadWrapped tile ses) s = .next ((s.kcuEnd tile ses 7).channelFault tile 10 ses a .read c)) ∧
  (∀ (s : State) (tile ses domain : Nat) (awk : Bytes), KcuRuns s tile ses → s.awkOf tile = some awk →
    let v := (s.newRec (domain % 4096)).2
    v = { s with free := v.free } ∧
    (∀ r, (s.newRec (domain % 4096)).1 = some r → s.rangeFault tile 10 (s.kcuDst tile ses) (kwpWrap awk r.bytes).length .write = none →
      exec (.kcuRecCreate tile ses domain) s = .next ((v.stores (s.kcuDst tile ses) (kwpWrap awk r.bytes)).kcuEnd tile ses 0)) ∧
    ((s.newRec (domain % 4096)).1 = none → exec (.kcuRecCreate tile ses domain) s = .next (v.kcuEnd tile ses 4))) ∧
  (∀ (s : State) (tile ses gen : Nat) (awk : Bytes), KcuRuns s tile ses → s.awkOf tile = some awk →
    s.rangeFault tile 10 (s.kcuSrc tile ses) 368 .read = none →
    exec (.kcuRecAddGen tile ses) s = .next (match unwrapRec awk (s.loads (s.kcuSrc tile ses) 368) with
      | some r => if 4 ≤ r.gens.length then s.kcuEnd tile ses 6
        else match s.nextGenOf r with
        | none => s.kcuEnd tile ses 6
        | some gen => match (s.drawGen r.domain gen).1 with
          | some g => ((s.drawGen r.domain gen).2.useGen r.domain gen).writeRec tile ses { r with gens := r.gens ++ [g] }
          | none => (s.drawGen r.domain gen).2.kcuEnd tile ses 4
      | none => s.kcuEnd tile ses 4) ∧
    exec (.kcuRecDropGen tile ses gen) s = .next (match unwrapRec awk (s.loads (s.kcuSrc tile ses) 368) with
      | some r => if (r.gens.filter fun g => g.gen != gen).isEmpty then s.kcuEnd tile ses 4
        else s.writeRec tile ses { r with gens := r.gens.filter fun g => g.gen != gen }
      | none => s.kcuEnd tile ses 4)) ∧
  (∀ (s : State) (r : KeyRec) (gen : Nat), s.nextGenOf r = some gen → gen < 65536 ∧ (∀ g ∈ r.gens, g.gen < gen) ∧ (s.dom r.domain).nextGen ≤ gen ∧
    gen < ((s.useGen r.domain gen).dom r.domain).nextGen) ∧
  (∀ (s : State) (domain gen : Nat) (g : KeyGen), (s.drawGen domain gen).1 = some g → g.k1 ≠ g.k2)

/-- R230 to R233, R240, R245: a GCM entry is loaded only under a count above its last; a lane protects the first waiting packet of the class that is due, of its tile
or of a tile whose work passes to it, under the entry's counter, which goes on, and gives a received packet only if its tag verifies. -/
def Obligations.GcmKeysPacketsAndTags : Prop :=
  (∀ (s : State) (tile entry load : Nat), tile < s.variant.tiles →
    (∀ e, s.keys.gcm.find? (gcmKey tile entry) = some e → e.load < load % 2 ^ 28) →
    let key := ((s.awkOf tile).bind fun k => kwpUnwrap k (s.loads (s.fld (dieC tile) Reg.GCM_LOAD_ADDR_ADDR) 40)).filter fun k => decide (k.length = 32)
    ∃ t, exec (.gcmKeyLoad tile entry load) s = .next t ∧ t.keys.gcm.find? (gcmKey tile entry) = some { key := key, load := load % 2 ^ 28, ctr := 0 } ∧
      t = { s with regs := t.regs, keys := { s.keys with gcm := t.keys.gcm } }) ∧
  (∀ (s : State) (tile entry load : Nat) (e : GcmEnt), tile < s.variant.tiles →
    s.keys.gcm.find? (gcmKey tile entry) = some e → load % 2 ^ 28 ≤ e.load →
    exec (.gcmKeyLoad tile entry load) s = .next (s.addFld (dieC tile) Reg.GCM_ERR_LOAD_REFUSED 1)) ∧
  (∀ (s v : State) (tile c : Nat) (p : PgTx) (x : Sess) (e : GcmEnt) (k : Bytes), s.lanes .gcm tile ≠ 0 →
    let due := fun (c : Nat) (p : PgTx) => (s.sess (sessKey p.fdie p.session)).any fun x => s.laneTile .gcm x.d.tile == some tile && x.d.cls == c
    s.gcmClass (tile * 8 + LaneKind.gcm.num) (fun c => s.pgt.tx.any (due c)) = some (c, v) → s.pgt.tx.find? (due c) = some p →
    s.sess (sessKey p.fdie p.session) = some x → s.keys.gcm.find? (gcmKey x.d.tile x.d.txEntry) = some e → e.key = some k →
    let h := { p.hdr with iv := s.gcmIv x.d.tile e }
    ∃ t, exec (.gcmEncrypt tile) s = .next t ∧ t.keys.gcm.find? (gcmKey x.d.tile x.d.txEntry) = some { e with ctr := e.ctr + 1 } ∧
      Out.pronghorn p.fdie p.port (x.d.sportBase + p.hdr.path) x.d.raddr (h.bytes ++ (gcmEnc k h.iv h.bytes p.payload).1 ++
        (gcmEnc k h.iv h.bytes p.payload).2) ∈ t.out ∧ t.mem = s.mem ∧ t.jrnl = s.jrnl) ∧
  (∀ (s v : State) (p c n : Nat) (d : RxDest) (ce : Bool) (u k : Bytes) (x : Sess),
    s.gcmClass (1024 + p) (fun c => (s.pgFirst p c).isSome) = some (c, v) → s.pgFirst p c = some (d, ce, n, u) → 56 ≤ u.length →
    (PgHdr.ofBytes u).ver = 1 → 1 ≤ (PgHdr.ofBytes u).ty → (PgHdr.ofBytes u).ty ≤ 4 → s.sess (sessKey (p / 4) (PgHdr.ofBytes u).session) = some x →
    n = 8 + 40 + (PgHdr.ofBytes u).plen + 16 → u.length = 56 + (PgHdr.ofBytes u).plen → x.rxLoad ≤ (PgHdr.ofBytes u).load →
    (s.laneTile .gcm x.d.tile).isSome = true →
    (s.keys.gcm.find? (gcmKey x.d.tile x.d.rxEntry)).bind GcmEnt.key = some k →
    let h := PgHdr.ofBytes u
    let ans := gcmDec k h.iv (u.take 40) ((u.drop 40).take h.plen) (u.drop (40 + h.plen))
    (∀ b, ans = some b → ∃ t, exec (.gcmDecrypt p) s = .next t ∧
      t.pgt = { s.pgt with rx := s.pgt.rx ++ [{ fdie := p / 4, port := p, ce := ce, hdr := h, payload := b }] } ∧ t.keys = s.keys ∧ t.mem = s.mem) ∧
    (ans = none → ∃ t, exec (.gcmDecrypt p) s = .next t ∧ t.pgt = s.pgt ∧ t.keys = s.keys ∧ t.mem = s.mem)) ∧
  (∀ (s : State) (waits : Nat → Bool) (key c : Nat) (v : State), s.gcmClass key waits = some (c, v) → waits c = true ∧ (c ≠ 0 → waits 0 = false) ∧
    v = { s with dst := { s.dst with turns := v.dst.turns } })

/-! ## Map cache, flash translation (spec/06) -/

/-- A range operation of an M-die has begun over the pages `todo` of the range in MAP_RANGE_LO and MAP_RANGE_HI. -/
def Sys2Proof.Machine.State.rangeBegun (s : State) (die op : Nat) (todo : List Nat) : State :=
  (s.setFlag (dieM die) Reg.MAP_RANGE_STATUS_BUSY true).setRange die
    { op := op, lo := s.fld (dieM die) Reg.MAP_RANGE_LO_PAGEID, hi := s.fld (dieM die) Reg.MAP_RANGE_HI_PAGEID, todo := todo, lines := 0, err := 0 }

/-- Lines in the range of MAP_RANGE_LO and MAP_RANGE_HI. -/
def Sys2Proof.Machine.State.inRange (s : State) (die : Nat) : SMap Line :=
  s.rangeLines die (s.fld (dieM die) Reg.MAP_RANGE_LO_PAGEID) (s.fld (dieM die) Reg.MAP_RANGE_HI_PAGEID)

/-- An M-die takes a range operation. -/
def RangeFree (s : State) (die : Nat) : Prop :=
  s.variant.populated (dieM die) = true ∧ s.mapOn die = true ∧ s.flag (dieM die) Reg.MAP_RANGE_STATUS_BUSY = false ∧ s.ftl.lines.rising = true ∧ s.Ordered

/-- R263, R265, R267, R269, R308: lookups, fills and line writes of the map cache. That a lookup of class 0 goes to the lane of its page while C0_LANES is 0 is the
model's choice (log entry 209). -/
def Obligations.MapLookupsFillsAndWrites : Prop :=
  (∀ (s : State) (pid entry tag cls : Nat), s.mapOn (s.mapDie pid) = true → cls ≠ 0 ∨ s.c0Lanes (s.mapDie pid) = 0 →
    exec (.mapLookup pid entry tag cls) s = .next (State.settle (s.lookup
      { die := s.mapDie pid, lane := min 8 (s.fld (dieM (s.mapDie pid)) Reg.MAP_CTRL_C0_LANES) +
          (pid ^^^ (pid / 2 ^ 23) ^^^ (pid / 2 ^ 46)) % 16 % (16 - min 8 (s.fld (dieM (s.mapDie pid)) Reg.MAP_CTRL_C0_LANES)),
        pageid := pid, entry := entry, tag := tag, cls := cls, miss := false, behind := false }))) ∧
  (∀ (s : State) (pid entry tag : Nat), s.mapOn (s.mapDie pid) = true → 0 < s.c0Lanes (s.mapDie pid) →
    let n := s.ftl.rr.getD (s.mapDie pid) 0
    let u := { s with ftl := { s.ftl with rr := s.ftl.rr.insert (s.mapDie pid) (n + 1) } }
    exec (.mapLookup pid entry tag 0) s = .next (State.settle (State.lookup u
      { die := s.mapDie pid, lane := n % s.c0Lanes (s.mapDie pid), pageid := pid, entry := entry, tag := tag, cls := 0, miss := false, behind := false }))) ∧
  (∀ (s : State) (l : Look) (x : Line), (s.ftl.looks.any fun y => y.behind && y.die == l.die && y.lane == l.lane) = false → s.line l.pageid = some x →
    x.v = true → ∃ x', (s.lookup l).out = s.out ++ [.mapAnswer l.tag l.pageid l.entry (some (s.entryBytes l.pageid l.entry))] ∧
      (s.lookup l).ftl.looks = s.ftl.looks ∧ (s.lookup l).line l.pageid = some x' ∧ x'.age = 0 ∧ x'.pf = false ∧ x'.v = true ∧
      s.lookup l = { s with regs := (s.lookup l).regs, ftl := { s.ftl with lines := (s.lookup l).ftl.lines }, out := (s.lookup l).out }) ∧
  (∀ (s : State) (l : Look) (x : Line), (s.ftl.looks.any fun y => y.behind && y.die == l.die && y.lane == l.lane) = false → s.line l.pageid = some x →
    x.v = false → s.lookup l = { s with ftl := { s.ftl with looks := s.ftl.looks ++ [{ l with miss := false, behind := false }] } }) ∧
  (∀ (s : State) (l : Look), s.line l.pageid = none → (s.ftl.looks.any fun y => y.miss && y.die == l.die && y.lane == l.lane) = true →
    s.lookup l = { s with ftl := { s.ftl with looks := s.ftl.looks ++ [{ l with behind := true }] } }) ∧
  (∀ (s : State) (pid cls : Nat) (again : Bool) (b : Bytes) (d : DirEnt) (x : Line), s.ftl.fills.find? pid = some { cls := cls, again := again, got := some (some b) } →
    s.ftl.dir.find? pid = some d → (crc32c (padTo 4096 b)).toNat = d.crc → s.line pid = some x →
    ∃ u : State, exec (.mapFillDone pid) s = .next (((u.rangeFill (s.mapDie pid) pid true 0).endLooks pid true).settle) ∧
      u = { s with ftl := { s.ftl with fills := s.ftl.fills.erase pid, badPages := u.ftl.badPages, lines := u.ftl.lines } } ∧
      u.ftl.badPages = s.ftl.badPages.filter (· != pid) ∧ (u.line pid).map (fun y => (y.v, y.b)) = some (true, false) ∧ ∀ k, k ≠ pid → u.line k = s.line k) ∧
  (∀ (s : State) (pid cls : Nat) (again : Bool) (b : Option Bytes) (d : DirEnt), s.ftl.fills.find? pid = some { cls := cls, again := again, got := some b } → again = true ∨ b = none →
    s.ftl.dir.find? pid = some d → (∀ x, b = some x → (crc32c (padTo 4096 x)).toNat ≠ d.crc) →
    exec (.mapFillDone pid) s = .next (s.pageFailed pid).settle) ∧
  (∀ (s : State) (pid : Nat) (x : Line) (d : DirEnt), s.line pid = some x → s.ftl.dir.find? pid = some d → x.writing = some d.maddr →
    (s.ftl.range.find? (s.mapDie pid)).all (fun r => !r.todo.contains pid) = true →
    exec (.mapLineWritebackDone pid) s = .next (State.settle (s.setLine pid (match x.changed with
      | some lsn => { x with writing := none, changed := none, dlsn := lsn }
      | none => { x with writing := none, d := false, dlsn := 0 }))))

/-- R273, R274: the range operations. -/
def Obligations.MapRangeOperations : Prop :=
  (∀ (s : State) (die : Nat), s.variant.populated (dieM die) = true → s.mapOn die = true → s.flag (dieM die) Reg.MAP_RANGE_STATUS_BUSY = true →
    ∀ c ∈ [Instr.mapRangeClean die, .mapRangeInvalidate die, .mapRangeCleanInv die, .mapRangeLoadPin die, .mapRangeUnpin die, .mapRangeSweep die],
      exec c s = .next (s.setFlag (dieM die) Reg.MAP_RANGE_STATUS_LOST true).settle) ∧
  (∀ (s : State) (die : Nat), RangeFree s die →
    let dirty := ((s.inRange die).keep fun _ l => l.d).keys
    exec (.mapRangeClean die) s = .next (State.settle (dirty.foldl (fun (s : State) k => if (s.line k).any (fun l => l.writing.isNone) then s.writePage k else s)
      (s.rangeBegun die 1 dirty)))) ∧
  (∀ (s : State) (die : Nat), RangeFree s die → ∃ u : State, exec (.mapRangeInvalidate die) s = .next u.settle ∧
    (∀ k x, s.line k = some x → u.line k = if (s.inRange die).has k && x.droppable then none else some x) ∧
    u.ftl.range.find? die = some (RangeOp.mk 2 (s.fld (dieM die) Reg.MAP_RANGE_LO_PAGEID) (s.fld (dieM die) Reg.MAP_RANGE_HI_PAGEID) []
      ((s.inRange die).keep fun _ x => x.droppable).length (if (s.inRange die).vals.all Line.droppable then 0 else 3)) ∧
    u = { s with regs := u.regs, ftl := { s.ftl with lines := u.ftl.lines, range := u.ftl.range }, csa := u.csa }) ∧
  (∀ (s : State) (die : Nat), RangeFree s die → ((s.inRange die).vals.any fun x => x.d) = false → ∃ u : State, exec (.mapRangeCleanInv die) s = .next u.settle ∧
    (∀ k x, s.line k = some x → u.line k = if (s.inRange die).has k && x.droppable then none else some x) ∧
    (u.ftl.range.find? die).map (fun r => (r.op, r.lines, r.err)) = some (3, ((s.inRange die).keep fun _ x => x.droppable).length,
      if (s.inRange die).vals.all Line.droppable then 0 else 3) ∧
    u = { s with regs := u.regs, ftl := { s.ftl with lines := u.ftl.lines, range := u.ftl.range }, csa := u.csa }) ∧
  (∀ (s : State) (die : Nat), RangeFree s die →
    let l := (s.blockPages (s.fld (dieM die) Reg.MAP_RANGE_LO_PAGEID) (s.fld (dieM die) Reg.MAP_RANGE_HI_PAGEID)).filter fun p => s.mapDie p == die
    exec (.mapRangeLoadPin die) s = .next (State.settle ((s.rangeBegun die 4 l).loadPin die l))) ∧
  (∀ (s : State) (die pid : Nat) (rest : List Nat) (x : Line), s.line pid = some x → x.v = true →
    s.pinnedWays pid < min 0xE (s.fld (dieM die) Reg.MAP_CTRL_PIN_WAYS) →
    s.loadPin die (pid :: rest) = ((s.setLine pid { x with p := true }).rangeStep die pid true 0).loadPin die rest) ∧
  (∀ (s : State) (die pid : Nat) (rest : List Nat) (r : RangeOp), (s.line pid).any (fun x => x.p || x.rp) = false → s.ftl.range.find? die = some r →
    min 0xE (s.fld (dieM die) Reg.MAP_CTRL_PIN_WAYS) ≤ s.pinnedWays pid →
    s.loadPin die (pid :: rest) = s.setRange die { r with err := 1, todo := r.todo.filter fun p => !(pid :: rest).contains p }) ∧
  (∀ (s : State) (die : Nat), RangeFree s die → ∃ u : State, exec (.mapRangeUnpin die) s = .next u.settle ∧
    (∀ k x, s.line k = some x → u.line k = some (if (s.inRange die).has k then { x with p := false } else x)) ∧
    (u.ftl.range.find? die).map (fun r => (r.op, r.lines, r.err)) = some (5, ((s.inRange die).keep fun _ x => x.p).length, 0) ∧
    u = { s with regs := u.regs, ftl := { s.ftl with lines := u.ftl.lines, range := u.ftl.range } }) ∧
  (∀ (s : State) (die : Nat), RangeFree s die → (∀ p ∈ s.pinnedChunkPages, s.mapDie p = die → (s.line p).isSome = true) →
    ∃ u : State, exec (.mapRangeSweep die) s = .next u.settle ∧
    (∀ k x, s.line k = some x → u.line k = some (if s.mapDie k = die then { x with rp := s.pinnedChunkPages.contains k } else x)) ∧
    (u.ftl.range.find? die).map (fun r => (r.op, r.err)) = some (6, 0) ∧
    u = { s with regs := u.regs, ftl := { s.ftl with lines := u.ftl.lines, range := u.ftl.range } }) ∧
  (∀ (s : State) (die : Nat) (r : RangeOp), s.ftl.range.find? die = some r → r.todo = [] →
    let d := dieM die
    let u : State := { s with ftl := { s.ftl with range := s.ftl.range.erase die } }
    exec (.mapRangeDone die) s = .next (State.settle ((((u.setFlag d Reg.MAP_RANGE_STATUS_BUSY false).setFlag d Reg.MAP_RANGE_STATUS_DONE true).setFld d
      Reg.MAP_RANGE_STATUS_ERR r.err).setFld d Reg.MAP_RANGE_STATUS_LINES r.lines)))

/-- R276, R279, R282, R284, R285, R287, R288, R293, R300, R301: stripes, segments, read points, journal release, the log, checkpoints. -/
def Obligations.FlashTranslationGoesOn : Prop :=
  (∀ (s : State) (seg : Nat) (o : OpenSeg), (s.ftl.opens.find? fun o => o.segid == seg) = some o → (o.buf ≠ [] ∨ o.unit ≠ []) →
    o.since + s.fld (dieM 0) Reg.FTL_CTRL_STRIPE_US * 1000 ≤ s.ao.tb → exec (.stripeTimeout seg) s = .next (s.endStripe o true).settle) ∧
  (∀ (s : State) (o : OpenSeg) (d : SegDesc), s.ftl.segs.find? o.segid = some d → (o.buf ≠ [] ∨ o.unit ≠ []) →
    let unit := if o.buf.isEmpty then o.unit else o.unit ++ [(o.buf, o.packs, o.pages)]
    let n := s.unitStripes d
    let d' := { d with next := d.next + n }
    let u := s.setSeg d'
    let u : State := { u with ftl := { u.ftl with opens := u.ftl.opens.map fun x =>
      if x.segid = o.segid then { o with buf := [], packs := [], pages := [], since := s.ao.tb, unit := [] } else x } }
    s.endStripe o true = if d'.stripes < d'.next + n then (u.programUnit d d.next unit (n - unit.length)).sealSegment d'
      else u.programUnit d d.next unit (n - unit.length)) ∧
  (∀ (s : State) (seg k : Nat) (pr : Prog) (d : SegDesc), s.ftl.progs.find? (progKey seg k) = some pr → s.ftl.segs.find? seg = some d →
    pr.failed = false → d.width + 2 ≤ pr.acks.length →
    let u : State := { s with ftl := { s.ftl with progs := s.ftl.progs.erase (progKey seg k) } }
    exec (.stripePlaced seg k) s = .next (State.settle (((pr.pages.foldl (fun s pd => s.pagePlaced pd.1 pd.2)
      (pr.packs.foldl (fun (s : State) id => s.packPlaced id) u)).reservedPlaced seg k).tryTxns))) ∧
  (∀ (s : State) (id : Nat) (p : Pack), s.pack id = some p → p.copyOf = none →
    s.packPlaced id = ((List.range p.mems.length).zip p.mems).foldl (fun s im => s.setChunk im.2.job im.2.n (.done (p.chunk + im.1)))
      (s.setPack id { p with st := .placed })) ∧
  (∀ (s : State) (pid : Nat) (d : DirEnt), pKind pid ≠ 7 → s.pagePlaced pid d = s.log (.page pid d)) ∧
  (∀ (s : State) (seg cls : Nat) (d : SegDesc), s.serving = true → s.ftl.segs.find? seg = some d → d.state = .sealed → d.kind ≠ 2 →
    (d.segid / 2 ^ 31 = s.side ∨ s.pair.head = .solo) → s.ftl.scans.has seg = false →
    let d' := { d with state := .collecting }
    exec (.gcSegment seg cls) s = .next (State.settle
      ((((s.setSeg d').log (.segment d')).beginScan seg cls 0 0 (if d.kind = 0 then d.next else 0)).rewriteMeta seg))) ∧
  (∀ (s : State) (seg : Nat) (d : SegDesc), s.ftl.segs.find? seg = some d → d.state = .reclaim → s.runs seg = true → s.pointBefore (d.relocAt + 100) = false →
    exec (.segmentReclaim seg) s = .next (State.settle
      (d.members.foldl (fun s m => s.eraseBlock m.addr 7) ((s.setSeg { d with state := .empty }).log (.segment { d with state := .empty }))))) ∧
  (∀ s : State, s.pair.head = .twin → exec .readPointNotice s = .next (s.send (vlLock 1) 1 0
    (.mapupd (.readPoint (s.ftl.points.vals.foldl min (s.ftl.points.vals.headD s.ao.tb))) 0))) ∧
  (∀ (s : State) (side seq : Nat) (e : JEnt), s.jent side seq = some e → s.owner e.r.shard = s.side → e.durable = true → e.updates = 0 →
    ((if side = s.side then s.jrnl.own else s.jrnl.mirror).keep fun _ e => s.owner e.r.shard == s.side).keys.head? = some seq →
    let u := s.releaseRec side seq
    let v := if u.mirroring then u.send 2 0 0 (.release side seq) else u
    exec (.journalRelease side seq) s = .next (State.settle ((v.clearIntents side seq).eraseJournal))) ∧
  (∀ (s : State) (seq : Nat) (e : JEnt), s.jrnl.own.find? seq = some e →
    s.releaseRec s.side seq = ({ s with jrnl := { s.jrnl with own := s.jrnl.own.erase seq, used := s.jrnl.used - e.r.size } } : State).journalRegs) ∧
  (∀ (s : State) (side seq : Nat), side ≠ s.side → s.releaseRec side seq = { s with jrnl := { s.jrnl with mirror := s.jrnl.mirror.erase seq } }) ∧
  (∀ s : State, s.ftl.cur ≠ [] → s.ftl.curSince + s.fld (dieM 0) Reg.FTL_CTRL_LOG_US * 1000 ≤ s.ao.tb →
    exec .logPageTimeout s = .next s.programLogPage.settle) ∧
  (∀ (s : State) (n : Nat) (pg : LogPage) (l : SMap LogPage), s.ftl.logPages = (n, pg) :: l → 2 ≤ pg.acks.length →
    let last := pg.recs.foldl (fun m r => max m r.lsn) s.ftl.durable
    let u : State := { s with ftl := { s.ftl with logPages := l, durable := last } }
    exec (.logPageDurable n) s = .next (State.settle ((pg.recs.foldl (fun s r => s.durableRec r) (u.setFld (dieM 0) Reg.FTL_LSN_DURABLE last)).tryTxns))) ∧
  (∀ (s : State) (val : Word), s.ftl.ckpt = none → s.flag (dieM 0) Reg.FTL_CTRL_EN = true → bitsAt val 32 1 = 1 →
    let b := s.log (.ckptBegin (s.redo 0) (s.redo 1))
    let pgs := pieces 4096 b.sealCkptSeg.ckptBytes
    let ids := (List.range pgs.length).map fun i => pageId 7 s.side i
    (b.sealCkptSeg.placeCkptPages (ids.zip pgs) = none → exec (.checkpointReq val) s = .next s.settle) ∧
    ∀ u : State, b.sealCkptSeg.placeCkptPages (ids.zip pgs) = some u →
      ∃ (v : State) (c : Ckpt), exec (.checkpointReq val) s = .next v.endCkptStripe.settle ∧
        v.ftl.ckpt = some c ∧ c.num = s.fld (dieM 0) Reg.FTL_CKPT_NUM + 1 ∧ c.redo0 = s.redo 0 ∧ c.redo1 = s.redo 1 ∧ c.endLsn = none ∧
        c.left = ids ∧ c.count = pgs.length ∧ c.beginLsn + 1 = max 1 b.ftl.nextLsn ∧
        v = ({ u with ftl := { u.ftl with ckpt := some c } } : State).setFlag (dieM 0) Reg.FTL_CKPT_BUSY true) ∧
  (∀ s : State, s.serving = true → s.ftl.ckptAt + 60 * 10 ^ 9 ≤ s.ao.tb →
    exec (.checkpointTimer false) s = exec (.checkpointReq (BitVec.ofNat 64 (2 ^ 32))) s) ∧
  (∀ s : State, s.serving = true →
    exec (.checkpointTimer true) s = .next (State.settle (State.startCkpt
      (((((s.ftl.lines.keep fun _ l => l.d && l.writing.isNone).mergeSort fun a b => decide (a.2.dlsn ≤ b.2.dlsn)).map Prod.fst)).foldl
        (fun (s : State) p => s.writePage p) s))))

/-! ## Sundas fabric, media sequencers, parity (spec/07, spec/08) -/

/-- A good frame on a port that is up: its time, its ACK, its credits (R324, R325). -/
def Sys2Proof.Machine.State.sfbTook (s : State) (h : SfbHdr) : State :=
  let x := s.sport h.cp
  let left := x.unacked.filter fun t => !ackCovers (t.seq + t.frames - 1) h.ack
  s.setSport h.cp { x with
    lastFrame := s.ao.tb, unacked := left,
    ackSince := if left.isEmpty then none else if left.length < x.unacked.length then some s.ao.tb else x.ackSince,
    credits := match h.credit with
      | some (vc, n) => x.credits.insert vc (x.credits.getD vc 0 + n)
      | none => x.credits }

/-- The command of a frame that carries a SEQ, its payload as the header has it. -/
def sfbCommand (h : SfbHdr) : SfbIn → Instr
  | .complete tag st arg _ => .sfbComplete h tag st arg
  | .rdata tag slot plane raw => .rdata h tag slot plane raw
  | .event arg => .sfbEvent h arg

/-- A message and the header that brings it: the payload of COMPLETE stands with the header. -/
def SfbBrings (h : SfbHdr) : SfbIn → Prop
  | .complete _ _ _ b => b = h.payload
  | _ => True

/-- A frame of any kind, with what its CRC covers. -/
def SfbFrameOf (h : SfbHdr) (c : Instr) (m : Option SfbIn) (link : Nat) : Prop :=
  (c = .sfbIdle h ∧ m = none ∧ link = 0) ∨ (c = .sfbNak h ∧ m = none ∧ link = 1) ∨ (∃ x, c = sfbCommand h x ∧ SfbBrings h x ∧ m = some x ∧ link = 0)

/-- A lane with one more CRC error, those of the last millisecond kept. -/
def Sys2Proof.Machine.State.sfbErred (s : State) (cp lane : Nat) : State :=
  let x := s.sport cp
  let l := x.lanes.getD lane Lane.fresh
  (s.setSport cp { x with lanes := x.lanes.insert lane { l with
    errs := (l.errs.filter fun t => decide (s.ao.tb < t + 1000000)) ++ [s.ao.tb], cleanSince := s.ao.tb } }).addCpFld cp Reg.SFB_PERR_CRC_ERR 1

/-- Everything from the first frame that is not acknowledged goes again (R324). -/
def Sys2Proof.Machine.State.sfbReplayed (s : State) (cp : Nat) (t : SfbTx) (l : List SfbTx) : State :=
  (t :: l).foldl (fun s t => s.emitSfb cp t)
    (((s.setSport cp { s.sport cp with ackSince := some s.ao.tb }).addCpFld cp Reg.SFB_PERR_REPLAYS 1).emit (.sfbReplay cp t.seq))

/-- Attach of one die (R312, R314, R338): what is asked of it, its record, and its factory bad blocks where it is new. -/
def Sys2Proof.Machine.State.dieAttached (cp : Nat) (s : State) (p : DiePage) : State :=
  let at0 := maddr cp p.die 0 0 0 0
  let u := (s.exchange cp (.param at0 0)).exchange cp (.param at0 1)
  let r := u.profileOf (cp / 24) p
  let u := match r with
    | some b => u.exchange cp (.profile at0 b)
    | none => u
  let u := if (dieOfPage p r).used then u else u.event (dieM (cp / 24)) 0x21 6 cp
  let old := s.die (dieKey cp p.die)
  let d := { dieOfPage p r with lost := old.lost, slow := old.slow, evictSent := old.evictSent }
  let u := { u with med := { u.med with dies := u.med.dies.insert (dieKey cp p.die) d } }
  if u.arr.uids.contains p.uid then u
  else
    let u := ({ u with arr := { u.arr with uids := u.arr.uids ++ [p.uid] } } : State).exchange cp (.param at0 2)
    p.bad.foldl (fun s b => s.dropBlock (maddr cp p.die b 0 0 0)) u

/-- R320, R321, R322: the 32 bytes of a Sundas frame header, the TYPE of every frame, and the CRC32C at its end. -/
def SfbHeaderFields : Prop :=
  (∀ (ty vc cls seq ack tag len epoch addr flags status arg : Nat) (cr : Option (Nat × Nat)),
    let b := sfbHead ty vc cls seq ack cr tag len epoch addr flags status arg
    b.length = 32 ∧ leAt b 0 1 = ty % 256 ∧ leAt b 1 1 = vc % 8 + 8 * (cls % 8) ∧ leAt b 2 2 = seq % 65536 ∧ leAt b 4 2 = ack % 65536 ∧
    leAt b 6 2 = (match cr with
      | some (c, n) => 1 + 2 * (c % 8) + 16 * (n % 256)
      | none => 0) ∧
    leAt b 8 2 = tag % 65536 ∧ leAt b 10 2 = len % 8192 ∧ leAt b 12 4 = epoch % 2 ^ 32 ∧ leAt b 16 8 = addr % 2 ^ 64 ∧ leAt b 24 1 = flags % 256 ∧
    leAt b 25 1 = status % 256 ∧ leAt b 26 2 = arg % 65536 ∧ leAt b 28 4 = 0) ∧
  (∀ h p : Bytes, sfbFrame h p = h ++ p ++ le 4 (crc32c (h ++ p)).toNat) ∧
  (∀ (h : SfbHdr) (m : Option SfbIn) (link : Nat), h.ok m link = true ↔ h.crc = (crc32c (h.bytes m link)).toNat)

/-- R312, R314, R322 to R326, R359, R360, R363, R364: attach, frames, lanes and loss of the carrier ports. -/
def Obligations.CarrierPortsAndFrames : Prop :=
  SfbHeaderFields ∧
  (∀ (s : State) (cp : Nat) (temp : Int) (pages : List DiePage), s.cpFlag cp Reg.SFB_PSTAT_UP = true → s.cpFlag cp Reg.SFB_PSTAT_ATTACHED = false →
    s.flag (cpDie cp) Reg.MED_CTRL_EN = true → exec (.carrierAttach cp temp pages) s = .next (s.attach cp temp pages).settle) ∧
  (∀ (s : State) (cp : Nat) (temp : Int) (pages : List DiePage), 1024 < pages.length → s.attach cp temp pages = s.event (dieM (cp / 24)) 0x21 6 cp) ∧
  (∀ (s : State) (cp : Nat) (temp : Int) (pages : List DiePage), pages.length ≤ 1024 →
    let u := pages.foldl (State.dieAttached cp) (s.exchange cp .cstatus)
    let used := (u.med.dies.keep fun k d => k / 1024 == cp && d.used).vals
    let u := (u.setCpFlag cp Reg.SFB_PSTAT_ATTACHED true).setCpFlag cp Reg.SFB_PSTAT_TEMP_OK (decide (0 ≤ temp) && decide (temp ≤ 75))
    let u := (u.setCpFlag cp Reg.SFB_PSTAT_C0_MEDIA (used.all fun d => decide (d.tr ≤ 60) && decide (d.tsus ≤ 30))).setCpFlag cp
      Reg.SFB_PSTAT_JOURNAL_OK (used.any fun d => decide (d.tslc ≤ 45))
    let u := ((u.setCpFld cp Reg.SFB_PSTAT_DIES used.length).setCpFld cp Reg.SFB_PSTAT_NAND_TEMP (ofInt 8 temp)).timingRegs (cp / 24)
    let due := (u.blocksOf cp).filter fun b => mBlock b % 2 == u.side && !u.namedBlocks.contains b
    let u : State := { u with ftl := { u.ftl with fresh := u.ftl.fresh.filter (fun b => mCp b != cp) ++ due } }
    let u := if u.par.lostCps.contains cp || u.med.dies.any (fun kd => kd.1 / 1024 == cp && kd.2.lost) then u.returnBlocks cp else u
    s.attach cp temp pages = (((if u.serving then u.erasePending cp else u).checkSpare).addSpare s.spareLeft).journalRegs) ∧
  (∀ (p : DiePage) (r : Bytes), (dieOfPage p (some r)).used = true ↔
    p.crcOk = true ∧ p.profileOk = true ∧ p.planes = 4 ∧ p.planeData = 16384 ∧ 2048 ≤ p.planeSpare ∧ (leAt r 32 1 = 3 ∨ leAt r 32 1 = 4) ∧ p.pages ≤ 4096 ∧
      p.pages % leAt r 32 1 = 0 ∧ p.blocks ≤ 16384 ∧ p.blocks * p.pages * 65536 ≤ 256 * 2 ^ 30) ∧
  (∀ p : DiePage, (dieOfPage p none).used = false) ∧
  (∀ (s : State) (h : SfbHdr), s.sfbUp h.cp = true → h.ok none 0 = true → exec (.sfbIdle h) s = .next (State.settle ((s.sfbTook h).sfbDrain h.cp))) ∧
  (∀ (s : State) (h : SfbHdr) (c : Instr) (m : Option SfbIn) (link : Nat), SfbFrameOf h c m link →
    (s.sfbUp h.cp = false → exec c s = .next s.settle) ∧
    (s.sfbUp h.cp = true → h.ok m link = false → exec c s = .next (State.settle (s.sfbErred h.cp h.lane)))) ∧
  (∀ (s : State) (h : SfbHdr) (t : SfbTx) (l : List SfbTx), s.sfbUp h.cp = true → h.ok none 1 = true → ((s.sfbTook h).sport h.cp).unacked = t :: l →
    exec (.sfbNak h) s = .next (State.settle (((s.sfbTook h).sfbReplayed h.cp t l).sfbDrain h.cp))) ∧
  (∀ (s : State) (cp : Nat) (t : SfbTx), (s.emitSfb cp t).out = s.out ++ [.sfb cp t.vc t.tag t.req
    ((lanesAfter (s.sfbLanes cp) t.frames (s.sport cp).txLane).zip (t.pack (s.sport cp).ack (s.sport cp).credit))]) ∧
  (∀ (s : State) (cp lane : Nat), exec (.sfbTrain cp lane false) s = .next (s.sfbErred cp lane)) ∧
  (∀ (s : State) (cp lane : Nat), lane < 2 → s.sfbOn cp = true →
    ((s.sport cp).lanes.getD lane Lane.fresh).retired = false →
    let u := if s.cpFlag cp Reg.SFB_PSTAT_UP then s
      else s.setSport cp { SPort.reset with lanes := (s.sport cp).lanes, lastFrame := s.ao.tb, tempAt := (s.sport cp).tempAt }
    exec (.sfbTrain cp lane true) s = .next ((u.setCpFlag cp Reg.SFB_PSTAT_UP true).setCpFld cp Reg.SFB_PSTAT_LANES
      (s.cpFld cp Reg.SFB_PSTAT_LANES ||| 2 ^ lane))) ∧
  (∀ (s : State) (h : SfbHdr) (m : SfbIn), s.sfbUp h.cp = true → SfbBrings h m → h.ok (some m) 0 = true →
    let u := s.sfbTook h
    let x := u.sport h.cp
    let y := { x with rxCredits := x.rxCredits.insert h.vc (x.rxCredits.getD h.vc 0 - 1) }
    let d := seqDist x.rxSeq h.seq
    let old := 32768 ≤ d ∨ (∃ p ∈ x.ahead, p.1 = h.seq) ∨ d ≠ 0 ∧ 64 ≤ x.ahead.length
    let errs := (x.noCredit.filter fun t => decide (s.ao.tb < t + 1000000)) ++ [s.ao.tb]
    let z := (u.setSport h.cp { x with noCredit := errs }).addCpFld h.cp Reg.SFB_PVIOL_VIOL 1
    (old → exec (sfbCommand h m) s = .next (State.settle (u.sfbDrain h.cp))) ∧
    (¬ old → 0 < x.rxCredits.getD h.vc 0 → d = 0 →
      exec (sfbCommand h m) s = .next (State.settle ((((u.setSport h.cp y).sfbApply h.cp h.vc m).applyAhead h.cp (x.ahead.length + 1)).sfbDrain h.cp))) ∧
    (¬ old → 0 < x.rxCredits.getD h.vc 0 → 0 < d → exec (sfbCommand h m) s =
      .next (State.settle ((u.setSport h.cp { y with ahead := x.ahead ++ [(h.seq, h.vc, m)], gapSince := some (x.gapSince.getD s.ao.tb) }).sfbDrain h.cp))) ∧
    (¬ old → x.rxCredits.getD h.vc 0 = 0 →
      exec (sfbCommand h m) s = .next (State.settle ((if 16 ≤ errs.length then z.portLost h.cp else z).sfbDrain h.cp)))) ∧
  (∀ (s : State) (cp vc : Nat) (m : SfbIn), let x := s.sport cp
    s.sfbApply cp vc m = (s.setSport cp { x with rxSeq := (x.rxSeq + 1) % 65536, owed := x.owed.insert vc (x.owed.getD vc 0 + 1) }).applyIn cp m) ∧
  (∀ (s : State) (cp tag st arg : Nat) (b : Bytes), s.med.ops.find? (opKey cp tag) = none →
    s.applyIn cp (.complete tag st arg b) = s.addCpFld cp Reg.SFB_PVIOL_VIOL 1) ∧
  (∀ (s : State) (cp tag st arg : Nat) (b : Bytes) (o : MedOp), s.med.ops.find? (opKey cp tag) = some o → o.req.writes = false → o.req.isRead = false →
    st ≠ 6 →
    let u := ({ s with med := { s.med with ops := s.med.ops.erase (opKey cp tag) } } : State).epochAnswer cp o.req b
    let v := if st = 1 then u.fencedReply cp else u.opResult o st arg
    s.applyIn cp (.complete tag st arg b) = v.pump (v.med.queue.length + 1)) ∧
  (∀ (s : State) (cp e n hm : Nat) (b : Bytes), b.length = 6 → ∀ r : SfbReq, r = .claim e n hm ∨ r = .seal n hm →
    let u := (s.setCpFld cp Reg.SFB_PEPOCH_EPOCH (leAt b 0 4)).setCpFld cp Reg.SFB_PEPOCH_HOLDERS (leAt b 4 1)
    s.epochAnswer cp r b = if leAt b 5 1 = 1 ∧ leAt b 0 4 ≠ n then u.event (cpDie cp) 0x20 5 cp else u) ∧
  (∀ (s : State) (cp : Nat), s.pair.head = .twin ∨ s.pair.head = .solo → s.pair.faulted = none →
    s.fencedReply cp = ((s.addCpFld cp Reg.SFB_PVIOL_FENCED 1).setLast 6 false).enter .fenced) ∧
  (∀ (s : State) (cp tag slot plane id : Nat) (raw : Bytes) (r : SfbReq) (ids : List Nat) (c w t : Nat),
    s.med.ops.find? (opKey cp tag) = some { cp := c, req := r, cls := w, why := .read ids, since := t } → mSlot r.addr ≤ slot → plane ≤ 2 →
    ids[slot - mSlot r.addr]? = some id → ∃ x, s.applyIn cp (.rdata tag slot plane raw) =
        { s with med := { s.med with raws := (s.med.raws.filter fun y => y.id != id) ++ [x] } } ∧ x.id = id ∧ (plane = 0 → x.raw = raw) ∧
      x.planes = ((s.med.raws.find? fun y => y.id == id).map RawCw.planes).getD 0 ||| 2 ^ plane) ∧
  (∀ (s : State) (cp : Nat),
    s.applyIn cp (.event 1) = ((s.setCpFlag cp Reg.SFB_PSTAT_TEMP_OK false).setSport cp { s.sport cp with tempAt := s.ao.tb }).journalRegs ∧
    s.applyIn cp (.event 2) = ((s.setCpFlag cp Reg.SFB_PSTAT_TEMP_OK true).erasePending cp).journalRegs ∧
    s.applyIn cp (.event 3) = s.exc 0 .dieFault [cp] ∧ s.applyIn cp (.event 4) = s.event (cpDie cp) 0x20 0 cp) ∧
  (∀ (s : State) (cp t : Nat), (s.sport cp).gapSince = some t → s.sfbUp cp = true → t + 1000 ≤ s.ao.tb →
    exec (.sfbGapTimeout cp) s = .next ((s.setSport cp { s.sport cp with gapSince := some s.ao.tb }).sendSfbNak cp)) ∧
  (∀ (s : State) (cp : Nat), s.med.ports.rising = true → (s.sendSfbNak cp).out = s.out ++ [.sfbNak cp (laneAfter (s.sfbLanes cp) (s.sport cp).txLane)
    (sfbLink 1 (s.sport cp).ack (s.sport cp).credit s.epoch)]) ∧
  (∀ (s : State) (cp t : Nat) (u : SfbTx) (l : List SfbTx), (s.sport cp).ackSince = some t → (s.sport cp).unacked = u :: l → s.sfbUp cp = true →
    t + 2000 ≤ s.ao.tb → exec (.sfbAckTimeout cp) s = .next (s.sfbReplayed cp u l)) ∧
  (∀ (s : State) (cp lane : Nat), ((s.sport cp).lanes.getD lane Lane.fresh).retired = false →
    16 < (((s.sport cp).lanes.getD lane Lane.fresh).errs.filter fun t => decide (s.ao.tb < t + 1000000)).length →
    let n := s.cpFld cp Reg.SFB_PSTAT_LANES
    exec (.sfbLaneRetire cp lane) s = .next ((s.setSport cp { s.sport cp with
      lanes := (s.sport cp).lanes.insert lane { errs := [], retired := true, cleanSince := s.ao.tb } }).setCpFld cp Reg.SFB_PSTAT_LANES
        (n - n / 2 ^ lane % 2 * 2 ^ lane))) ∧
  (∀ (s : State) (cp lane : Nat) (l : Lane), (s.sport cp).lanes.find? lane = some l → l.retired = true → l.cleanSince + 100000000 ≤ s.ao.tb →
    let u := s.setSport cp { s.sport cp with lanes := (s.sport cp).lanes.insert lane { l with retired := false } }
    exec (.sfbLaneReturn cp lane) s = exec (.sfbTrain cp lane true) u ∧ ∃ t, exec (.sfbLaneReturn cp lane) s = .next t) ∧
  (∀ (s : State) (cp : Nat), s.cpFlag cp Reg.SFB_PSTAT_UP = true → (s.sport cp).lastFrame + 2000 ≤ s.ao.tb →
    let u := s.setSport cp { SPort.reset with lanes := (s.sport cp).lanes, lastFrame := (s.sport cp).lastFrame, tempAt := (s.sport cp).tempAt }
    let u := ((u.setCpFlag cp Reg.SFB_PSTAT_UP false).setCpFlag cp Reg.SFB_PSTAT_ATTACHED false).setCpFld cp Reg.SFB_PSTAT_LANES 0
    exec (.sfbPortLost cp) s = .next (State.settle (((u.endPortOps cp).sjCarrierLost cp).journalRegs))) ∧
  (∀ (s : State) (cp lane : Nat), lane < 2 → s.sfbOn cp = true →
    let frame := fun (ty : Nat) => sfbLink ty (s.sport cp).ack (s.sport cp).credit s.epoch
    (s.cpFlag cp Reg.SFB_PSTAT_UP = true → s.cpFld cp Reg.SFB_PSTAT_LANES / 2 ^ lane % 2 = 1 →
      exec (.sfbIdleSend cp lane) s = .next { (s.setSport cp (s.sport cp).credited) with out := s.out ++ [.sfbIdle cp lane (frame 0)] }) ∧
    (s.cpFlag cp Reg.SFB_PSTAT_UP = false →
      exec (.sfbIdleSend cp lane) s = .next { (s.setSport cp (s.sport cp).credited) with out := s.out ++ [.sfbTrain cp lane (frame 2)] })) ∧
  (∀ (s : State) (die : Nat) (x : RawCw) (t : Nat × Nat), s.nextDecode die = some (x, t) → s.rawClass x ≠ 0 →
    ((s.med.raws.filter fun y => cpDie y.cp == die && y.dec && s.rawClass y != 0 && (s.med.cws.find? y.id).any fun c => c.step != 100).length <
      64 - min 32 (s.fld die Reg.LDP_CTRL_C0_DEC))) ∧
  (∀ (x : SPort) (t : SfbTx), x.canSend t = true → t.vc = 1 → t.cls ≠ 0 → t.frames + 64 ≤ x.credits.getD 1 0) ∧
  (∀ (s : State) (id unsat : Nat) (cw : Option Bytes) (c : CwReq) (x : RawCw), s.med.cws.find? id = some c → (s.med.raws.find? fun x => x.id == id) = some x →
    x.dec = true → s.flag (cpDie (mCp c.addr)) Reg.LDP_CTRL_EN = true → (∀ g, c.why ≠ .blankCheck g) →
    let die := cpDie (mCp c.addr)
    let drop := fun (s : State) => { s with med := { s.med with raws := s.med.raws.filter fun y => y.id != id } }
    exec (.ldpcDecodeDone id cw unsat) s = .next (State.settle
      (if cwBlank x.raw then (drop (s.addFld die Reg.LDP_MISC_BLANK 1)).cwNoData id
      else match cw.bind (s.judgeCw c x.raw) with
        | some (d, bits) => (drop s).cwGood id bits d
        | none =>
          let u := if c.step = 0 then s.addFld die Reg.LDP_STAT_HARD_FAIL 1 else s
          let u := if cw.any (fun w => ldpcOk (s.circs die) w) then u.addFld die Reg.LDP_MISC_MISDIRECT 1 else u
          (if c.cls == 0 && c.step == 0 && (match c.why with
            | .input _ _ => false
            | _ => true) then u else drop u).nextStep id unsat))) ∧
  (∀ (s : State) (id unsat g : Nat) (cw : Option Bytes) (c : CwReq) (x : RawCw), s.med.cws.find? id = some c → (s.med.raws.find? fun x => x.id == id) = some x →
    x.dec = true → s.flag (cpDie (mCp c.addr)) Reg.LDP_CTRL_EN = true → c.why = .blankCheck g →
    let drop := fun (s : State) => { s with med := { s.med with raws := s.med.raws.filter fun y => y.id != id } }
    exec (.ldpcDecodeDone id cw unsat) s = .next (State.settle
      (if cwBlank x.raw then (drop (s.addFld (cpDie (mCp c.addr)) Reg.LDP_MISC_BLANK 1)).endCw id none else (drop s).endCw id (some [])))) ∧
  (∀ (s : State) (c : CwReq) (raw cw d : Bytes) (bits : Nat), s.judgeCw c raw cw = some (d, bits) →
    cw.length = 4608 ∧ ldpcOk (s.circs (cpDie (mCp c.addr))) cw = true ∧ bits = bitDiff raw cw ∧
      ∃ g, cwRead c.addr (cw.take 4112) = some (d, g) ∧ (c.seg = 0 ∨ g = c.seg)) ∧
  (∀ (s : State) (cp die : Nat), let k := dieKey cp die
    ((s.dieOps k).any fun o => o.req.writes) = true → k ∉ s.med.starved →
    max 1 (s.fld (cpDie cp) Reg.MED_CTRL_STARVE_MS) * 1000 ≤ (s.die k).suspUs + (match (s.die k).suspAt with
      | some t => (s.ao.tb - t) / 1000
      | none => 0) →
    exec (.opStarved cp die) s = .next (State.settle (State.protect { s with med := { s.med with starved := s.med.starved ++ [k] } }))) ∧
  (∀ (s : State) (cp die : Nat), let k := dieKey cp die
    (s.die k).slow.isSome = true → s.cpUp cp = true → (s.die k).probeAt + 10 ^ 9 ≤ s.ao.tb →
    exec (.slowDieProbe cp die) s = .next (State.settle ((s.setDie k { s.die k with probeAt := s.ao.tb }).issue
      { cp := cp, req := .read (maddr cp die 0 0 0 0) 1 false (die == 0) 0, cls := 7, why := .probe, since := s.ao.tb })))

/-- The RW fields of PAR_RS as a write leaves them. -/
def Sys2Proof.Machine.State.rsWritten (s : State) (val : Word) : State :=
  let d := dieM 0
  let u := (s.setFlag d Reg.PAR_RS_VX5 (bitsAt val 2 1 == 1)).setFld d Reg.PAR_RS_TARGET_WIDTH (bitsAt val 8 5)
  let u := (u.setFld d Reg.PAR_RS_CLASS (bitsAt val 16 3)).setFld d Reg.PAR_RS_CKPT_STRIPES (bitsAt val 32 16)
  u.setFld d Reg.PAR_RS_NSID_M1 (bitsAt val 48 14)

/-- R376, R378, R381, R384, R388, R390, R393, R397, R402, R404, R409: losses, rebuild rate, stripe journal, reshape, scrub. -/
def Obligations.LossRebuildReshapeAndScrub : Prop :=
  (∀ (s : State) (val : Word), bitsAt val 63 1 = 1 → bitsAt val 17 1 = 0 →
    let cp := bitsAt val 0 6
    let die := bitsAt val 6 10
    let whole := bitsAt val 16 1 == 1
    ((s.med.dies.keys.any fun k => if whole then k / 1024 == cp else k == dieKey cp die) = false →
      exec (.parLostDeclare val) s = .next (s.event (dieM 0) 0x26 8 noInst).settle) ∧
    ((s.med.dies.keys.any fun k => if whole then k / 1024 == cp else k == dieKey cp die) = true → ∃ u : State,
      exec (.parLostDeclare val) s = .next u.rebuildNext.settle ∧
      (let v : State := if whole then { s with par := { s.par with lostCps := if s.par.lostCps.contains cp then s.par.lostCps else s.par.lostCps ++ [cp] } }
        else s.setDie (dieKey cp die) { s.die (dieKey cp die) with lost := true }
      let gone := fun (b : Nat) => v.dieLost (dieOf b)
      let c := v.startCkpt
      let c := (c.ftl.segs.vals.filter fun d => d.state == .opened && c.runs d.segid && !(c.lostMembers d).isEmpty).foldl (fun (s : State) d =>
        s.sealEarly d (((s.ftl.progs.keep fun key _ => key / 65536 == d.segid).keys.map (· % 65536)).foldl min d.next)) c
      let list := c.par.list ++ (c.ftl.segs.vals.filter fun d => d.state == .sealed && c.runs d.segid && !(c.lostMembers d).isEmpty &&
        !c.ftl.scans.has d.segid && !c.par.list.contains d.segid).map SegDesc.segid
      let c : State := { c with par := { c.par with list := list } }
      let c : State := if c.ftl.triple.any gone then { c with ftl := { c.ftl with tripleBad := true } } else c
      let c := c.journalLost gone
      u = if (c.par.sjA.toList ++ c.par.sjB.toList).any gone then c.sjCarrierLost cp else c))) ∧
  (∀ (s : State) (val : Word), bitsAt val 63 1 = 1 → bitsAt val 17 1 = 1 → s.par.cur = none →
    let cp := bitsAt val 0 6
    let whole := bitsAt val 16 1 == 1
    let u : State := if whole then { s with par := { s.par with lostCps := s.par.lostCps.filter (· != cp) } } else s
    let u := (u.med.dies.keys.filter fun k => if whole then k / 1024 == cp else k == dieKey cp (bitsAt val 6 10)).foldl
      (fun (s : State) k => s.setDie k { s.die k with lost := false }) u
    let left := u.par.list.filter fun k => (u.ftl.segs.find? k).any fun d => !(u.lostMembers d).isEmpty
    exec (.parLostClear val) s = .next (State.settle (State.rebuildNext { u with par := { u.par with list := left } }))) ∧
  (∀ (s : State) (cp die : Nat) (r : Rebuild) (d : SegDesc), s.par.cur = some r → r.logged = false → s.ftl.segs.find? r.seg = some d →
    let u := s.setDie (dieKey cp die) { s.die (dieKey cp die) with lost := false }
    s.med.dies.has (dieKey cp die) = true → s.med.dies.rising = true → (∃ m ∈ r.repl.keys, m ∉ u.lostMembers d) →
    s.clearLost cp die false = State.rebuildNext { u.rebuildAbandon with
      par := { u.rebuildAbandon.par with list := u.rebuildAbandon.par.list.filter fun k =>
        (u.rebuildAbandon.ftl.segs.find? k).any fun d => !(u.rebuildAbandon.lostMembers d).isEmpty } }) ∧
  (∀ s : State, s.par.winAt + 100000000 ≤ s.ao.tb →
    let mbps := s.par.winBytes * 10 / 10 ^ 6
    let low := !s.par.list.isEmpty && decide (mbps < s.fld (dieM 0) Reg.PAR_RB_FLOOR_MBPS)
    let u : State := { s with par := { s.par with winBytes := 0, winAt := s.ao.tb, boost := low } }
    let u := u.setFld (dieM 0) Reg.PAR_RB_RATE_MBPS mbps
    exec .rebuildRateWindow s = .next (if low then u.addFld (dieM 0) Reg.PAR_RB_RATE_FLOOR_WINDOWS 1 else u)) ∧
  (∀ (s : State) (cp die t : Nat), (s.die (dieKey cp die)).slow = some t → (s.die (dieKey cp die)).evictSent = false →
    t + max 1 (s.fld (dieM 0) Reg.PAR_RB_SLOW_EVICT_S) * 10 ^ 9 ≤ s.ao.tb →
    exec (.slowEvict cp die) s = .next ((s.setDie (dieKey cp die) { s.die (dieKey cp die) with evictSent := true }).exc 0 .evict [cp, die])) ∧
  (∀ s : State, s.par.sjCur ≠ [] → s.par.sjSince + max 1 (s.fld (dieM 0) Reg.PAR_SJ_INTERVAL_MS) * 1000000 ≤ s.ao.tb →
    exec .sjPageTimeout s = .next s.sjProgram.settle) ∧
  (∀ (s : State) (a b : Nat), s.par.sjCur ≠ [] → s.par.sjA = some a → s.par.sjB = some b →
    (∀ x, x = a ∨ x = b → s.par.sjNext - s.par.sjAt < (s.die (dieOf x)).pages / max 1 (s.die (dieOf x)).bpc) →
    let l := s.par.sjCur.take 1023
    let u : State := { s with par := { s.par with
      sjNext := s.par.sjNext + 1, sjCur := s.par.sjCur.drop 1023, sjPages := s.par.sjPages.insert s.par.sjNext (l, []) } }
    s.sjProgram = (u.sjSend s.par.sjNext 0 (some a) l).sjSend s.par.sjNext 1 (some b) l) ∧
  (∀ (s : State) (val : Word), bitsAt val 0 1 = 1 →
    (bitsAt val 2 1 = 0 → exec (.reshapeNativeGo val) s = .next (s.rsWritten val).reshapeGo.settle) ∧
    (bitsAt val 2 1 = 1 → exec (.reshapeVx5Go val) s = .next (s.rsWritten val).reshapeGo.settle)) ∧
  (∀ s : State, let target := max 4 (min 16 (s.fld (dieM 0) Reg.PAR_RS_TARGET_WIDTH))
    let refused := fun (row : Nat) => (s.setFlag (dieM 0) Reg.PAR_RS_STATUS_REFUSED true).event (dieM 0) 0x26 row noInst
    let r : Reshape := Reshape.mk (s.flag (dieM 0) Reg.PAR_RS_VX5) (s.fld (dieM 0) Reg.PAR_RS_NSID_M1 + 1) target (s.fld (dieM 0) Reg.PAR_RS_CLASS) none none 0 0 false
    (s.par.reshape.isSome = true → s.reshapeGo = refused 7) ∧
    (s.par.reshape = none → s.keptCarriers < target + 2 → s.reshapeGo = refused 6) ∧
    (s.par.reshape = none → target + 2 ≤ s.keptCarriers → s.reshapeLeft r = [] →
      s.reshapeGo = State.reshapeNext { s with par := { s.par with reshape := some r } }) ∧
    (∀ first l, s.par.reshape = none → target + 2 ≤ s.keptCarriers → s.reshapeLeft r = first :: l → s.flag (dieM 0) Reg.PAR_RS_VX5 = false ∨ s.runs first = true →
      let w := if s.flag (dieM 0) Reg.PAR_RS_VX5 then s else s.startCkpt
      s.reshapeGo = State.reshapeNext (({ w with par := { w.par with
        reshape := some { r with bseg := if s.flag (dieM 0) Reg.PAR_RS_VX5 then first else 0 } } } : State).setFlag (dieM 0) Reg.PAR_RS_STATUS_ACTIVE true))) ∧
  (∀ (s : State) (val : Word) (r : Reshape), bitsAt val 1 1 = 1 → s.par.reshape = some r →
    let v := s.rsWritten val
    let u : State := { v with par := { v.par with reshape := some { r with stopped := true } } }
    exec (.reshapeStop val) s = .next (State.settle (if r.source.isSome && r.txn.isNone then u.reshapeAbandon.reshapeNext else u.reshapeNext))) ∧
  (∀ (s : State) (seg stripe slot : Nat) (d : SegDesc), s.ftl.segs.find? seg = some d → s.flag (dieM 0) Reg.PAR_CTRL_EN = true → d.state ≠ .empty →
    stripe < d.next → slot < 16 → (s.par.scrubs.any fun x => x.seg == seg && x.stripe == stripe && x.slot == slot) = false →
    let u : State := { s with par := { s.par with scrubs := s.par.scrubs ++ [Scrub.mk seg stripe slot [] []] } }
    exec (.scrubPost seg stripe slot) s = .next (State.settle
      ((List.range (d.width + 2)).foldl (fun (s : State) c => s.requestCw (d.cwAddr stripe c slot) seg 7 (.scrub seg stripe slot c)) u)))

/-! ## Front ports and RDMA (spec/09) -/

/-- A frame of `n` bytes with a good FCS is counted (R432). -/
def Sys2Proof.Machine.State.rxCounted (s : State) (p n : Nat) : State := (s.portCount p 0 1).portCount p 1 n

/-- R415, R417, R419, R423, R427, R428, R430 to R433, R436, R455, R456: front ports. -/
def Obligations.FrontPortsReceiveHoldAndSend : Prop :=
  (∀ (s : State) (p : Nat) (b : Bytes), s.portUp p = true → s.pair.head ≠ .off →
    exec (.frameReceive p false b) s = .next (s.portCount p 2 1) ∧
    (b.length + 4 < 64 ∨ max 1518 (min 9600 ((s.rxCounted p (b.length + 4)).portFld p Reg.MAC_CFG_MAX_FRAME)) < b.length + 4 →
      exec (.frameReceive p true b) s = .next ((s.rxCounted p (b.length + 4)).portCount p 3 1)) ∧
    (64 ≤ b.length + 4 → b.length + 4 ≤ max 1518 (min 9600 ((s.rxCounted p (b.length + 4)).portFld p Reg.MAC_CFG_MAX_FRAME)) →
      let u := s.rxCounted p (b.length + 4)
      let i := parseFrame b
      (i.etype = 0x8808 ∨ s.pair.head ∈ [.boot, .fenced, .thermalHold] → exec (.frameReceive p true b) s = .next u) ∧
      (i.etype ≠ 0x8808 → s.pair.head = .fawn → exec (.frameReceive p true b) s = .next (u.filterFrame p b)) ∧
      (i.etype ≠ 0x8808 → s.pair.head = .twin ∨ s.pair.head = .solo →
        (u.destOf p i = none → exec (.frameReceive p true b) s = .next (u.filterFrame p b)) ∧
        (u.destOf p i = some .address → exec (.frameReceive p true b) s = .next (u.admitFrame p (u.rxPrio p i) (b.length + 4) .address)) ∧
        (∀ ce n x, u.destOf p i = some (.pronghorn ce n x) → u.flag (portDie p) Reg.PGT_CTRL_EN = true →
          exec (.frameReceive p true b) s = .next (u.admitFrame p (u.rxPrio p i) (b.length + 4) (.pronghorn ce n x))) ∧
        (∀ qpn, u.destOf p i = some (.roce qpn) →
          let v := if i.tos.any (fun t => t.2 == 3) then u.portCount p 8 1 else u
          v.flag (portDie p) Reg.RDM_CTRL_EN = true → exec (.frameReceive p true b) s = .next (if qpn = 1
            then v.deliverFrame p (v.fld (portDie p) Reg.RDM_CTRL_GSI_RING) 0 false b
            else v.admitFrame p (u.rxPrio p i) (b.length + 4) (.roce qpn)))))) ∧
  (∀ (s : State) (p : Nat) (b : Bytes),
    let hit := (List.range 128).find? fun e => s.flag (portDie p) Reg.PAT_CTRL_EN && s.patMatch p e b
    (hit = none → s.filterFrame p b = s.portCount p 9 1) ∧
    (∀ e, hit = some e →
      let k := (portDie p - 1) * 128 + e
      let u : State := { s with rdma := { s.rdma with hits := s.rdma.hits.putD k (s.rdma.hits.getD k 0 + 1) 0 } }
      let act := s.tblFld (portDie p) 0 e 1 Reg.PAT_DATA_ACTION
      let ring := s.tblFld (portDie p) 0 e 1 Reg.PAT_DATA_RING
      s.filterFrame p b = if act = 1 ∨ act = 2 then u.post (ring / 4096 % 8) (ring % 4096) 13
        (.frame p s.ao.tb (b.length + 4) e (act == 2 && s.pair.head == .fawn) (b.take 128)) else u)) ∧
  (∀ (s : State) (p prio size : Nat) (d : RxDest), (∀ qpn, d = .roce qpn → (s.qp qpn).any Qp.pinned = false) →
    let k := if s.pauseMode p = 1 ∨ prio = s.portFld p Reg.MAC_PFC_LL_PRIO then Pool.lossless else .lossy
    ((s.fport p).used k + s.maxFrame p ≤ s.poolSize p k →
      s.admitFrame p prio size d = (s.setFport p { s.fport p with rx := (s.fport p).rx ++ [(d, k, size)] }).checkXoff p) ∧
    (s.poolSize p k < (s.fport p).used k + s.maxFrame p → s.admitFrame p prio size d = s.portCount p (if k = .lossless then 5 else 4) 1)) ∧
  (∀ (s : State) (p prio size qpn : Nat), (s.qp qpn).any Qp.pinned = true →
    ((s.fport p).used .c0 + s.maxFrame p ≤ s.poolSize p .c0 →
      s.admitFrame p prio size (.roce qpn) = (s.setFport p { s.fport p with rx := (s.fport p).rx ++ [(.roce qpn, .c0, size)] }).checkXoff p) ∧
    (s.poolSize p .c0 < (s.fport p).used .c0 + s.maxFrame p →
      let u := s.portCount p 6 1
      let k := if u.pauseMode p = 1 ∨ prio = u.portFld p Reg.MAC_PFC_LL_PRIO then Pool.lossless else .lossy
      s.admitFrame p prio size (.roce qpn) = if u.poolRoom p k then (u.setFport p { u.fport p with rx := (u.fport p).rx ++ [(.roce qpn, k, size)] }).checkXoff p
        else u.portCount p (if k = .lossless then 5 else 4) 1)) ∧
  (∀ (s : State) (p : Nat), (s.fport p).xoff = none → s.pauseMode p ≠ 0 → s.mayTransmit = true →
    s.portFld p Reg.MAC_PFC_XOFF_KIB * 1024 ≤ (s.fport p).used .lossless →
    s.checkXoff p = (s.setFport p { s.fport p with xoff := some s.ao.tb }).sendPause p 0xFFFF) ∧
  (∀ (s : State) (p t : Nat), (s.fport p).xoff = some t →
    ((s.fport p).used .lossless ≤ s.xonBytes p → exec (.losslessXon p) s = .next ((s.setFport p { s.fport p with xoff := none }).sendPause p 0)) ∧
    (s.xonBytes p < (s.fport p).used .lossless → t + s.quanta p 0xFFFF / 2 ≤ s.ao.tb →
      exec (.pfcRefresh p) s = .next ((s.setFport p { s.fport p with xoff := some s.ao.tb }).sendPause p 0xFFFF))) ∧
  (∀ (s : State) (p op : Nat) (times : List (Nat × Nat)), s.portUp p = true → s.pair.head ≠ .off →
    let u := s.portCount p 7 1
    (u.pauseMode p = 1 → op = 1 → exec (.pauseFrame p op times) s =
      .next ((List.range 8).foldl (fun (s : State) q => s.pausePrio p q ((times.head?.map Prod.snd).getD 0 % 65536)) u)) ∧
    (u.pauseMode p = 2 → op = 0x0101 → exec (.pauseFrame p op times) s =
      .next ((times.filter fun t => decide (t.1 < 8) && u.portFld p Reg.MAC_PFC_RX_HONOUR / 2 ^ t.1 % 2 == 1).foldl
        (fun (s : State) t => s.pausePrio p t.1 (t.2 % 65536)) u)) ∧
    (¬ (u.pauseMode p = 1 ∧ op = 1) → ¬ (u.pauseMode p = 2 ∧ op = 0x0101) → exec (.pauseFrame p op times) s = .next (u.badControl p))) ∧
  (∀ (s : State) (p prio t : Nat),
    ((s.fport p).storm.has prio = true → s.pausePrio p prio t = s.setFport p { s.fport p with storm := (s.fport p).storm.insert prio s.ao.tb }) ∧
    ((s.fport p).storm.has prio = false → s.pausePrio p prio 0 = s.setHold p ((s.fport p).hold.erase prio)) ∧
    ((s.fport p).storm.has prio = false → t ≠ 0 → (s.fport p).hold.find? prio = none →
      s.pausePrio p prio t = s.setHold p ((s.fport p).hold.insert prio (s.ao.tb + s.quanta p t, s.ao.tb)))) ∧
  (∀ (s : State) (p prio till since : Nat), (s.fport p).hold.find? prio = some (till, since) →
    (till ≤ s.ao.tb → exec (.pauseExpiry p prio) s = .next (s.setHold p ((s.fport p).hold.erase prio))) ∧
    (s.portFld p Reg.MAC_PFC_STORM_MS ≠ 0 → s.ao.tb < till → since + s.portFld p Reg.MAC_PFC_STORM_MS * 10 ^ 6 ≤ s.ao.tb →
      let u := s.setHold p ((s.fport p).hold.erase prio)
      exec (.pauseStorm p prio) s = .next ((u.setFport p { u.fport p with storm := (u.fport p).storm.insert prio u.ao.tb }).event (portDie p) 0x10 0 (p % 4)))) ∧
  (∀ (s : State) (p prio t : Nat), (s.fport p).storm.find? prio = some t → t + 10 ^ 8 ≤ s.ao.tb →
    exec (.pauseStormEnd p prio) s = .next (s.setFport p { s.fport p with storm := (s.fport p).storm.erase prio })) ∧
  (∀ (s : State) (p : Nat) (f : TxFrame), (s.fport p).sending = some f → s.hasLink p = true → s.mayTransmit = true → s.txStopped p f = false →
    let u := (((s.setFport p { s.fport p with sending := none }).emit (s.frameOut p f)).portCount p 10 1).portCount p 11 f.size
    exec (.txFrameDone p) s = .next ((if f.control then u.portCount p 12 1 else u).startTx p)) ∧
  (∀ (s : State) (p : Nat), (s.fport p).sending = none → exec (.txFrameDone p) s = .next (s.startTx p)) ∧
  (∀ (s : State) (p : Nat) (f : TxFrame), ∃ vlan pcp dscp ecn, s.frameOut p f = .frame (p / 4) (p % 4) f vlan pcp dscp ecn ∧ vlan = s.portFld p Reg.MAC_CFG_VLAN_ID ∧
    (vlan ≠ 0 → pcp = s.prioOf p f.cls) ∧ (f.ip = true → dscp = s.portFld p { Reg.MAC_DSCP_DSCP_p with lo := 6 * s.prioOf p f.cls, w := 6 }) ∧
    (∀ n, f.who = some (.qp n) → ecn = if s.flag (portDie p) Reg.RDM_CC_ECT then 2 else 0)) ∧
  (∀ (s : State) (p : Nat), (s.fport p).sending = none → s.hasLink p = true → s.mayTransmit = true →
    let x := s.fport p
    let control := fun (f : TxFrame) => f.control && !s.txStopped p f
    let class0 := fun (f : TxFrame) => !f.control && f.cls == 0 && !s.txStopped p f && !x.waits s.ao.tb f
    (x.txq.any control = true → s.startTx p = s.setFport p (x.start s.ao.tb (s.gap p) control)) ∧
    (x.txq.any control = false → x.held s.ao.tb (s.prioOf p 0) = false → x.txq.any class0 = true →
      s.startTx p = s.setFport p (x.start s.ao.tb (s.gap p) class0))) ∧
  (∀ (x : Port) (now : Nat) (gap : TxFrame → Option (CcWho × Nat)) (pick : TxFrame → Bool),
    (x.start now gap pick).sending = x.txq.find? pick ∧ (x.start now gap pick).txq = x.txq.eraseP pick ∧
      ∀ f w t, x.txq.find? pick = some f → gap f = some (w, t) → (w, t) ∈ (x.start now gap pick).paced) ∧
  (∀ (s : State) (p n : Nat) (f : TxFrame) (q : Qp), f.who = some (.qp n) → s.qp n = some q →
    (f.cls ≠ 0 → q.cc.rate < s.lineRate p → s.gap p f = some (.qp n, s.ao.tb + (((f.size * 8000 : Nat) : Rat) / q.cc.rate).ceil.toNat)) ∧
    (f.cls = 0 ∨ s.lineRate p ≤ q.cc.rate → s.gap p f = none)) ∧
  (∀ (s : State) (p : Nat) (f : TxFrame) (ports shards : List Nat), s.pair.giving = some (1, ports, shards) → p ∈ ports → shards ≠ [] ∨ f.adopted = true →
    s.txStopped p f = true) ∧
  (∀ (s : State) (p : Nat), s.mayTransmit = false ∨ s.hasLink p = false → s.startTx p = s) ∧
  (∀ (s : State) (p : Nat), p ∈ s.fps → s.Ordered → ∃ t : State, exec (.counterSnapshot p) s = .next t ∧
    (∀ i, i < 16 → t.fld (portDie p) (Reg.MAC_CNT_COUNT.plus (portOff p + 8 * i)) = 0 ∧
      t.fld (portDie p) (Reg.MAC_SNAPC_COUNT.plus (portOff p + 8 * i)) =
        (s.accrueHold p).fld (portDie p) (Reg.MAC_CNT_COUNT.plus (portOff p + 8 * i))) ∧
    t = { s with regs := t.regs, rdma := t.rdma }) ∧
  (∀ (s : State) (p kind : Nat) (a : BitVec 128), let u := s.leaveRx p .address
    u.portUp p = true → u.pair.head = .twin ∨ u.pair.head = .solo → u.flag (dieF 0) Reg.TKO_STATE_LEASE = true → u.isActiveAddr p kind a = true →
    exec (.addressRequest p kind a) s = .next ((u.queueFrame p (addrFrame kind (u.isAdoptedAddr p kind a))).emit
      (.addrReply (p / 4) (p % 4) kind a))) ∧
  (∀ (s : State) (p : Nat), p ∈ s.fps → s.hasLink p = true →
    exec (.linkDown p) s = .next (((s.portDown p).setPortFld p Reg.MAC_STATUS_FEC_LOCK 0).setPortFld p Reg.MAC_STATUS_AN_DONE 0) ∧
    (s.portDown p).fport p = { s.fport p with downAt := some s.ao.tb }) ∧
  (∀ (s : State) (p : Nat), p ∈ s.fps → s.portFld p Reg.MAC_CFG_EN = 1 → s.hasLink p = false →
    let u := ((s.setPortFld p Reg.MAC_STATUS_LINK 1).setPortFld p Reg.MAC_STATUS_FEC_LOCK 1).setPortFld p Reg.MAC_STATUS_AN_DONE
      (if s.portFld p Reg.MAC_CFG_AN_EN = 1 ∧ s.portFld p Reg.MAC_CFG_MEDIA ≠ 2 then 1 else 0)
    exec (.linkUp p) s = .next ((u.setFport p { u.fport p with downAt := none }).startTx p))

/-- A packet reaches a queue pair of its port's engine with its context on die and nothing waiting for it (R445, R457). -/
def RoceReaches (s : State) (h : RoceHdr) (q : Qp) : Prop :=
  s.portUp h.port = true ∧ s.flag (dieF (h.port / 4)) Reg.RDM_CTRL_EN = true ∧ (s.pair.head = .twin ∨ s.pair.head = .solo) ∧ h.icrcOk = true ∧
    s.qp h.qpn = some q ∧ q.fdie = h.port / 4 ∧ h.srcIp = q.e.dstIp ∧ h.srcPort = q.e.srcPort ∧ q.onDie = true ∧ s.ctxWaits h.qpn = false

/-- The state in which its packet is judged: it has left the receive buffer, its context is the most recent, a CNP is due for a mark. -/
def Sys2Proof.Machine.State.roceAt (s : State) (h : RoceHdr) : State :=
  let u := (s.leaveRx h.port (.roce h.qpn)).cacheCtx h.qpn
  if h.ce then u.markCe h.qpn else u

/-- What each of the four packet commands carries. -/
def roceCommand (h : RoceHdr) : RocePkt → Instr
  | .send first last len => .roceSend h first last len
  | .resp first last b => .rdmaReadResponse h first last b
  | .ack k => .roceAcknowledge h k
  | .cnp => .cnpReceive h

/-- What follows a packet in its step: a CNP sets nothing else going. -/
def roceEnds (k : RocePkt) (s : State) : State := match k with
  | .cnp => s
  | _ => s.settle

/-- R438, R445, R447 to R451, R457: packets of the RDMA engines, reordering, rate control, retries. -/
def Obligations.RocePacketsAndRates : Prop :=
  (∀ (s : State) (h : RoceHdr) (q : Qp) (k : RocePkt), RoceReaches s h q → q.error = false →
    let u := s.roceAt h
    (h.opOk = false → exec (roceCommand h k) s = .next (roceEnds k (u.invalidReq h.qpn h.psn))) ∧
    (h.opOk = true → exec (roceCommand h k) s = .next (roceEnds k (match k with
      | .send first last len => u.onSend h.qpn h.psn first last len
      | .resp first last b => u.onResp h.qpn h.psn first last b
      | .ack a => u.onAckPkt h.qpn h.psn a
      | .cnp => u.onCnp h.qpn)))) ∧
  (∀ (s : State) (h : RoceHdr) (q : Qp) (k : RocePkt), RoceReaches s h q → q.error = true →
    exec (roceCommand h k) s = .next (roceEnds k (s.leaveRx h.port (.roce h.qpn)))) ∧
  (∀ (s : State) (h : RoceHdr) (k : RocePkt), s.portUp h.port = true → s.flag (dieF (h.port / 4)) Reg.RDM_CTRL_EN = true →
    s.pair.head = .twin ∨ s.pair.head = .solo →
    let drop := fun (i : Nat) => (s.leaveRx h.port (.roce h.qpn)).rdmCount (h.port / 4) i 1
    (h.icrcOk = false → exec (roceCommand h k) s = .next (roceEnds k (drop 1))) ∧
    (h.icrcOk = true → s.qp h.qpn = none → exec (roceCommand h k) s = .next (roceEnds k (drop 0))) ∧
    (∀ q, h.icrcOk = true → s.qp h.qpn = some q → q.fdie ≠ h.port / 4 ∨ h.srcIp ≠ q.e.dstIp ∨ h.srcPort ≠ q.e.srcPort →
      exec (roceCommand h k) s = .next (roceEnds k (drop 0))) ∧
    (∀ q, h.icrcOk = true → s.qp h.qpn = some q → q.fdie = h.port / 4 → h.srcIp = q.e.dstIp → h.srcPort = q.e.srcPort → q.onDie = false →
      exec (roceCommand h k) s = .next (roceEnds k (State.fetchCtx { s with rdma := { s.rdma with waiting := s.rdma.waiting ++ [(h, k)] } })))) ∧
  (∀ (s : State) (qpn psn len : Nat) (first last : Bool) (q : Qp), s.qp qpn = some q →
    let d := psnDist q.epsn psn
    let win := min 0x40 (s.fld (dieF q.fdie) Reg.RDM_CTRL_REORDER_PKTS)
    (d = 0 → s.onSend qpn psn first last len = (s.takeSend qpn psn first last len).drainSends qpn (q.held.length + 1)) ∧
    (0 < d → d < win → q.held.has psn = false → s.heldPkts q.fdie < 4096 → s.onSend qpn psn first last len =
      s.setQp qpn { q with held := q.held.insert psn (.send first last len), heldSince := some (q.heldSince.getD s.ao.tb) }) ∧
    (0 < d → win ≤ d → d < 2 ^ 23 → s.onSend qpn psn first last len = s.expireSends qpn) ∧
    (win ≤ d → 2 ^ 23 ≤ d → psnBefore q.ackSent psn = false → s.onSend qpn psn first last len = s.sendAck qpn q q.ackSent)) ∧
  (∀ (s : State) (qpn psn len : Nat) (first last : Bool) (q : Qp), s.qp qpn = some q → q.error = false → first ≠ q.asm.isSome →
    (if last then len ≤ q.e.mtu else len = q.e.mtu) →
    let u := s.setQp qpn { q with epsn := (psn + 1) % 2 ^ 24, asm := if last then none else some (q.asm.getD psn) }
    s.takeSend qpn psn first last len = if last then { u with rdma := { u.rdma with
      capsules := u.rdma.capsules ++ [(qpn, q.asm.getD psn, psnDist (q.asm.getD psn) psn + 1)] } } else u) ∧
  (∀ (s : State) (qpn : Nat) (q : Qp), s.qp qpn = some q →
    s.expireSends qpn = (((s.setQp qpn { q with held := [], heldSince := none }).rdmCount q.fdie 8 1).sendNak { q with held := [], heldSince := none }
      (.nakSequence qpn q.epsn)) ∧
    s.expireResps qpn = ((s.setQp qpn { q with heldR := [], heldRSince := none }).rdmCount q.fdie 8 1).resend qpn (q.reading.map fun r => r.1).toList) ∧
  (∀ (s : State) (qpn psn tag : Nat) (last : Bool) (b got : Bytes) (q : Qp) (x : SentPkt) (c : Cmd), s.qp qpn = some q → q.error = false →
    q.reading = some (x, tag, (got ++ b).length, got) → (if last then b.length ≤ q.e.mtu else b.length = q.e.mtu) → s.cmd tag = some c →
    s.takeResp qpn psn last b = ((s.setQp qpn (({ q with sent := q.sent.erase x } : Qp).ackBefore x.psn s.ao.tb)).setCmd
      { c with data := some (match c.part with
        | some (true, d) => d ++ (got ++ b)
        | some (false, d) => got ++ b ++ d
        | none => got ++ b), skips := c.skips ++ [(c.fetchAt, s.ao.tb)] }).advance tag) ∧
  (∀ (s : State) (qpn psn : Nat) (q : Qp), s.qp qpn = some q →
    s.onAckPkt qpn psn .ack = s.setQp qpn (q.ackBefore ((psn + 1) % 2 ^ 24) s.ao.tb) ∧ s.onAckPkt qpn psn .nakInvalid = s.qpFail qpn ∧
    (q.e.rnrRetries ≤ q.rnr + 1 → s.onAckPkt qpn psn .rnrNak = s.qpFail qpn) ∧
    (q.rnr + 1 < q.e.rnrRetries → let p := { q.ackBefore psn s.ao.tb with rnr := q.rnr + 1 }
      s.onAckPkt qpn psn .rnrNak = (s.setQp qpn p).resend qpn (p.sent.filter fun x => !(psnBefore x.last psn))) ∧
    (q.probes = 0 → let p := q.ackBefore psn s.ao.tb
      s.onAckPkt qpn psn .nakSequence = (s.setQp qpn p).resend qpn (p.sent.filter fun x => !(psnBefore x.last psn)))) ∧
  (∀ (s : State) (qpn : Nat) (q : Qp), s.qp qpn = some q →
    let u := s.rdmCount q.fdie 5 1
    let g : Rat := 1 / ((2 ^ max 1 (u.fld (dieF q.fdie) Reg.RDM_CC_G_SHIFT) : Nat) : Rat)
    (u.ccExempt q = true → s.onCnp qpn = u.setQp qpn { q with cc := { q.cc with lastCnp := some s.ao.tb } }) ∧
    (u.ccExempt q = false → q.cc.lastDec + u.fld (dieF q.fdie) Reg.RDM_CC_DEC_US * 1000 ≤ s.ao.tb → s.onCnp qpn = u.setQp qpn { q with
      cc := { q.cc with
        target := q.cc.rate, rate := maxRat (u.fld (dieF q.fdie) Reg.RDM_CC_RATE_MIN_MBPS : Nat) (q.cc.rate * (1 - q.cc.alpha / 2)),
        alpha := q.cc.alpha * (1 - g) + g, lastDec := s.ao.tb, steps := 0, lastCnp := some s.ao.tb } })) ∧
  (∀ (s : State) (qpn : Nat) (q : Qp), s.qp qpn = some q →
    let us := fun (f : Fld) => s.fld (dieF q.fdie) f * 1000
    let g : Rat := 1 / ((2 ^ max 1 (s.fld (dieF q.fdie) Reg.RDM_CC_G_SHIFT) : Nat) : Rat)
    (max q.cc.lastAlpha (q.cc.lastCnp.getD 0) + us Reg.RDM_CC_ALPHA_US ≤ s.ao.tb → exec (.ccAlphaUpdate (.qp qpn)) s =
      .next (s.setQp qpn { q with cc := { q.cc with alpha := q.cc.alpha * (1 - g), lastAlpha := s.ao.tb } })) ∧
    (max q.cc.lastDec q.cc.lastInc + us Reg.RDM_CC_INC_US ≤ s.ao.tb → q.cc.rate < s.lineRate q.fp →
      let rt := if s.fld (dieF q.fdie) Reg.RDM_CC_FR_STEPS < q.cc.steps + 1
        then minRat (s.lineRate q.fp) (q.cc.target + (s.fld (dieF q.fdie) Reg.RDM_CC_RATE_RAI_MBPS : Rat)) else q.cc.target
      exec (.ccRateIncrease (.qp qpn)) s = .next (s.setQp qpn { q with
        cc := { q.cc with steps := q.cc.steps + 1, target := rt, rate := (rt + q.cc.rate) / 2, lastInc := s.ao.tb } }))) ∧
  (∀ (s : State) (fd k p : Nat) (x : Sess), s.sess (sessKey fd k) = some x →
    let put := fun (c : Cc) => s.setSess (sessKey fd k) { x with paths := x.paths.insert p { s.path x p with cc := c } }
    exec (.ccAlphaUpdate (.path fd k p)) s = .next (put (s.ccAlpha fd (s.path x p).cc)) ∧
    exec (.ccRateIncrease (.path fd k p)) s = .next (put (s.ccIncrease fd (s.lineRate (fd * 4 + p / 16)) (s.path x p).cc))) ∧
  (∀ (s : State) (qpn t : Nat) (q : Qp), s.qp qpn = some q → t + s.fld (dieF q.fdie) Reg.RDM_CTRL_REORDER_US * 1000 ≤ s.ao.tb →
    (q.heldSince = some t → q.heldRSince = none → exec (.reorderTimeout qpn) s = .next (s.expireSends qpn)) ∧
    (q.heldSince = none → q.heldRSince = some t → exec (.reorderTimeout qpn) s = .next (s.expireResps qpn))) ∧
  (∀ (s : State) (qpn : Nat) (q : Qp), s.qp qpn = some q → q.fetching = true →
    let u := s.cacheCtx qpn
    exec (.contextFetchDone qpn) s = .next (State.settle (((u.rdma.waiting.filter fun w => w.1.qpn == qpn).foldl (fun (s : State) w => s.process w.1 w.2)
      { u with rdma := { u.rdma with waiting := u.rdma.waiting.filter fun w => w.1.qpn != qpn } }).fetchCtx))) ∧
  (∀ (s : State) (qpn : Nat) (q : Qp), s.qp qpn = some q → q.error = false → q.sent ≠ [] → q.lastTx + 4096 * 2 ^ q.e.timeout ≤ s.ao.tb →
    (q.e.retries ≤ q.retries + 1 → exec (.localAckTimeout qpn) s = .next (s.qpFail qpn).settle) ∧
    (q.retries + 1 < q.e.retries → exec (.localAckTimeout qpn) s =
      .next (State.settle ((s.setQp qpn { q with retries := q.retries + 1 }).resend qpn q.sent))))

/-- R440 to R443, R451, R455, R461: queue pairs by command, and by a link that stays down. -/
def Obligations.QueuePairsByCommand : Prop :=
  (∀ (s : State) (f addr : Nat), f < s.variant.sides →
    let ended := fun (s : State) (err : Nat) => ((s.setFld (dieF f) Reg.RDM_QPRES_ERR err).setFlag (dieF f) Reg.RDM_QPRES_BUSY false).setFlag (dieF f) Reg.RDM_QPRES_DONE true
    let own := (s.rdma.qps.vals.filter fun q => q.fdie == f && qpSide q.e.qpn == s.side).length
    (QpExport.ofBytes (s.loads addr 128) = none → exec (.qpCreate f addr) s = .next (ended s 3)) ∧
    (∀ e, QpExport.ofBytes (s.loads addr 128) = some e → 65536 ≤ own ∨ (List.range 65536).find? (s.ctxFree f) = none →
      exec (.qpCreate f addr) s = .next (ended s 1)) ∧
    (∀ e i, QpExport.ofBytes (s.loads addr 128) = some e → own < 65536 → (List.range 65536).find? (s.ctxFree f) = some i →
      let g := s.rdma.gens.getD (f * 65536 + i) 0 % 0x3F + 1
      let qpn := s.side * 2 ^ 23 + f * 2 ^ 22 + g * 65536 + i
      let u : State := { s with rdma := { s.rdma with gens := s.rdma.gens.insert (f * 65536 + i) g } }
      let u := (u.setQp qpn (Qp.fresh { e with qpn := qpn } f (s.lineRate (f * 4 + e.port)) s.ao.tb)).cacheCtx qpn
      let u := if u.mirroring then u.sendShadow qpn else u
      exec (.qpCreate f addr) s = .next (ended (u.setFld (dieF f) Reg.RDM_QPRES_QPN qpn) 0))) ∧
  (∀ (e : QpExport) (f : Nat) (rate : Rat) (now : Nat), let q := Qp.fresh e f rate now
    q.e = e ∧ q.epsn = e.epsn ∧ q.spsn = e.spsn ∧ q.error = false ∧ q.sent = [] ∧ q.cc.rate = rate ∧ q.cc.target = rate ∧ q.cc.alpha = 1) ∧
  (∀ (s : State) (f qpn : Nat), f < s.variant.sides → (∀ q, s.qp qpn = some q → q.fdie ≠ f) →
    let ended := ((s.setFld (dieF f) Reg.RDM_QPRES_ERR 2).setFlag (dieF f) Reg.RDM_QPRES_BUSY false).setFlag (dieF f) Reg.RDM_QPRES_DONE true
    exec (.qpDestroy f qpn) s = .next ended.settle ∧ exec (.qpMoveToError f qpn) s = .next ended.settle) ∧
  (∀ (s : State) (f qpn : Nat) (q : Qp), f < s.variant.sides → s.qp qpn = some q → q.fdie = f →
    let u := s.dropCmds fun c => c.qpn == qpn
    let u := if (u.host.queues.find? (queueKey q.e.cntlid q.e.qid)).any fun x => x.qpn == qpn then
      (if q.e.qid = 0 then u.deleteCtrl q.e.cntlid else u.deleteQueue q.e.cntlid q.e.qid) else u
    let u := if u.mirroring && !q.error then u.send 4 0 0 (.shadowqp false q.e none none) else u
    let freed := if qpSide qpn = u.side then u.rdma.freed.insert (ctxOf qpn) u.ao.tb else u.rdma.freed
    exec (.qpDestroy f qpn) s = .next (State.settle (State.qpResult { u with rdma := { u.rdma with
      qps := u.rdma.qps.erase qpn, freed := freed, waiting := u.rdma.waiting.filter fun w => w.1.qpn != qpn } } f 0)) ∧
    exec (.qpMoveToError f qpn) s = .next (State.settle ((s.qpFail qpn).qpResult f 0))) ∧
  (∀ (s : State) (qpn : Nat) (q : Qp), s.qp qpn = some q → q.error = false →
    let u := s.setQp qpn { q with error := true, sent := [], held := [], heldSince := none, heldR := [], heldRSince := none, asm := none, owed := [] }
    let u := u.dropCmds fun c => c.qpn == qpn
    let u := if q.e.qid = 0 then u.deleteCtrl q.e.cntlid else u.deleteQueue q.e.cntlid q.e.qid
    let u := u.addFld (dieF q.fdie) (Reg.RDM_CNT_COUNT.plus 48) 1
    s.qpFail qpn = (if u.mirroring then u.send 4 0 0 (.shadowqp false q.e none none) else u).exc 0 .qpError [qpn]) ∧
  (∀ (s : State) (qpn n : Nat) (k : SentKind) (q : Qp), s.qp qpn = some q → q.error = true → s.sendQp qpn n k = s) ∧
  (∀ (s : State) (f i t : Nat), s.rdma.freed.find? (f * 65536 + i) = some t → t + max 1 (s.fld (dieF f) Reg.RDM_REUSE_REUSE_MS) * 10 ^ 6 ≤ s.ao.tb →
    exec (.qpReuseExpiry f i) s = .next { s with rdma := { s.rdma with freed := s.rdma.freed.erase (f * 65536 + i) } }) ∧
  (∀ (s : State) (p t : Nat), (s.fport p).downAt = some t → s.hasLink p = false → t + max 1 (s.portFld p Reg.MAC_LINK_DOWN_MS) * 10 ^ 6 ≤ s.ao.tb →
    exec (.linkDownTimeout p) s = .next (State.settle
      (((s.rdma.qps.vals.filter fun q => q.fp == p).map fun q => q.e.qpn).foldl (fun (s : State) k => s.qpFail k) s)))

/-! ## Snapshots and replication (spec/10) -/

/-- The first verified packet of an F-die is of this type and belongs to this session. -/
def PacketFor (s : State) (fdie ty : Nat) (p : PgRx) (x : Sess) : Prop :=
  (s.pgt.rx.find? fun p => p.fdie == fdie) = some p ∧ p.hdr.ty = ty ∧ s.sess (sessKey fdie p.hdr.session) = some x

/-- It has been taken, and a load count above the session's has begun a new generation (R481). -/
def Sys2Proof.Machine.State.pgTaken (s : State) (p : PgRx) (k : Nat) (x : Sess) : State :=
  let u : State := { s with pgt := { s.pgt with rx := s.pgt.rx.erase p } }
  if p.hdr.load = x.rxLoad then u else u.setSess k { x with rxLoad := p.hdr.load, rxCum := 0, ins := [] }

/-- A DATA packet is well formed (R491). -/
def DataOk (s : State) (x : Sess) (h : PgHdr) : Prop :=
  let pl := max 1024 (s.fld (dieF x.fdie) Reg.PGT_CFG_PAYLOAD)
  h.mlen ≠ 0 ∧ h.mlen ≤ 16777216 ∧ h.offset % pl = 0 ∧ h.offset + h.plen ≤ h.mlen ∧ h.plen = min pl (h.mlen - h.offset) ∧ h.plen ≠ 0 ∧
    (h.flags % 2 = 1 → h.offset + h.plen = h.mlen) ∧ h.msgno < x.rxCum + 256

/-- R465, R474, R478 to R482, R490, R491, R494: snapshots ready, Pronghorn packets, timers and sessions. -/
def Obligations.PronghornPacketsAndSessions : Prop :=
  (∀ (s : State) (id nsid : Nat) (n : NsRec) (x : Snap), s.findSnap id = some (nsid, n, x) → s.serving = true → x.state = .pending → s.snapSettled nsid x = true →
    exec (.snapshotReady id) s = .next (State.settle (s.putNs nsid { n with snaps := n.snaps.insert id { x with state := .ready } }))) ∧
  (∀ (s : State) (f ty : Nat) (p : PgRx) (x : Sess) (c : Instr), PacketFor s f ty p x → (ty, c) ∈ [(1, Instr.pronghornData f), (2, .pronghornAck f), (3, .pronghornNack f),
      (4, .pronghornProbe f)] → p.hdr.load < x.rxLoad →
    exec c s = .next (State.pgCount { s with pgt := { s.pgt with rx := s.pgt.rx.erase p } } f 5 1)) ∧
  (∀ (s : State) (f : Nat) (p : PgRx) (x : Sess), x.rxLoad ≤ p.hdr.load →
    let k := sessKey f p.hdr.session
    let u := s.pgTaken p k x
    let y := if p.hdr.load = x.rxLoad then x else { x with rxLoad := p.hdr.load, rxCum := 0, ins := [] }
    (PacketFor s f 1 p x → exec (.pronghornData f) s = .next (u.pgData k y p)) ∧
    (PacketFor s f 2 p x → exec (.pronghornAck f) s = .next (u.pgAck k y p)) ∧
    (PacketFor s f 3 p x → exec (.pronghornNack f) s = .next (u.pgNack k y p)) ∧
    (PacketFor s f 4 p x → exec (.pronghornProbe f) s = .next u)) ∧
  (∀ (s : State) (k : Nat) (x : Sess) (p : PgRx), ¬ DataOk s x p.hdr → s.pgData k x p = s.pgCount x.fdie 8 1) ∧
  (∀ (s : State) (k : Nat) (x : Sess) (p : PgRx), DataOk s x p.hdr →
    let h := p.hdr
    let y := { x with lastPath := p.port % 4 * 16 + h.path % 16, ce := x.ce + if p.ce then 1 else 0 }
    let u := s.setSess k y
    let i := h.offset / max 1024 (s.fld (dieF x.fdie) Reg.PGT_CFG_PAYLOAD)
    (h.msgno < x.rxCum → s.pgData k x p = u.sendPgAck k) ∧
    (x.rxCum ≤ h.msgno → x.ins.find? h.msgno = none → u.fld (dieF x.fdie) Reg.PGT_CFG_RXBUF_MIB * 2 ^ 20 < u.rxBytes x.fdie + h.mlen →
      s.pgData k x p = u.pgCount x.fdie 6 1) ∧
    (∀ m : PgIn, x.rxCum ≤ h.msgno → x.ins.find? h.msgno = some m → m.mlen = h.mlen → m.slots.has i = true → s.pgData k x p = u) ∧
    (∀ m : PgIn, x.rxCum ≤ h.msgno → x.ins.find? h.msgno = some m → m.mlen ≠ h.mlen → s.pgData k x p = if m.bad + 1 < 16
      then (u.pgCount x.fdie 8 1).setSess k { y with ins := y.ins.insert h.msgno { m with bad := m.bad + 1 } }
      else ((u.pgCount x.fdie 8 1).setSess k { y with ins := y.ins.erase h.msgno }).event (dieF x.fdie) 0x17 6 h.session) ∧
    (∀ m : PgIn, x.rxCum ≤ h.msgno → (x.ins.find? h.msgno = some m ∨ x.ins.find? h.msgno = none ∧ m = { mlen := h.mlen, slots := [], got := 0, newAt := s.ao.tb, bad := 0 } ∧
        u.rxBytes x.fdie + h.mlen ≤ u.fld (dieF x.fdie) Reg.PGT_CFG_RXBUF_MIB * 2 ^ 20) → m.mlen = h.mlen → m.slots.has i = false →
      let n := { m with slots := m.slots.insert i p.payload, got := m.got + h.plen, newAt := s.ao.tb }
      let v := u.setSess k { y with ins := y.ins.insert h.msgno n }
      s.pgData k x p = if n.got ≠ n.mlen then v else ((v.pgCount x.fdie 10 1).pgDeliver k 257).sendPgAck k)) ∧
  (∀ (s : State) (k : Nat) (x : Sess) (p : PgRx), p.payload.length = 36 → beAt p.payload 0 4 ≤ x.nextMsg →
    let cum := beAt p.payload 0 4
    let done := fun (n : Nat) => decide (n < cum) || (decide (n < cum + 256) && bitSet (p.payload.drop 4) (n - cum))
    let u := s.setSess k { x with cum := max x.cum cum, outs := x.outs.keep fun n _ => !done n }
    let v := (((x.outs.keep fun n _ => done n).vals.flatMap PgOut.usedPaths).eraseDups).foldl (fun (s : State) q => s.pathReport k q false) u
    s.pgAck k x p = (match v.sess k with
      | some y =>
        let marked := y.active.foldl (fun (m : SMap PgPath) q => m.insert q { v.path y q with cc := v.ccCnp y.fdie (v.path y q).cc }) y.paths
        v.setSess k { y with paths := if p.hdr.ce = 0 then y.paths else marked }
      | none => v).pgFlush k 257) ∧
  (∀ (s : State) (k : Nat) (x : Sess) (p : PgRx) (m : PgOut), x.outs.find? p.hdr.msgno = some m →
    let base := beAt p.payload 0 2
    let map := p.payload.drop 4
    s.pgNack k x p = ((List.range (min 1024 (map.length * 8))).filter fun i => decide (base + i < s.slotCount x.fdie m.bytes.length)).foldl
      (fun (s : State) i => if bitSet map i then s.pathReport k (m.slotPath.getD (base + i) 0) false
        else (s.pathReport k (m.slotPath.getD (base + i) 0) true).sendSlot k p.hdr.msgno (base + i) true)
      (s.setSess k { x with outs := x.outs.insert p.hdr.msgno { m with heardAt := s.ao.tb } })) ∧
  (∀ (s : State) (k p : Nat) (x : Sess), s.sess k = some x → (s.path x p).quar = none →
    (s.pathReport k p false = s.setSess k { x with paths := x.paths.insert p { s.path x p with bad := 0 } }) ∧
    ((s.path x p).bad + 1 < 8 → s.pathReport k p true = s.setSess k { x with paths := x.paths.insert p { s.path x p with bad := (s.path x p).bad + 1 } }) ∧
    (8 ≤ (s.path x p).bad + 1 → let y := { x with paths := x.paths.insert p { s.path x p with bad := 0, quar := some s.ao.tb } }
      s.pathReport k p true = (s.setSess k (if y.active.isEmpty then { y with paths := y.paths.mapV fun _ z => { z with quar := none } } else y)).pgCount x.fdie 9 1)) ∧
  (∀ (s : State) (f session msgno : Nat) (x : Sess) (m : PgIn), s.sess (sessKey f session) = some x → x.ins.find? msgno = some m → m.got ≠ m.mlen →
    m.newAt + s.fld (dieF f) Reg.PGT_CFG_NACK_US * 1000 ≤ s.ao.tb →
    let k := sessKey f session
    let base := ((List.range (s.slotCount x.fdie m.mlen)).find? fun i => !m.slots.has i).getD 0
    exec (.pgtNackTimeout f session msgno) s = .next (((s.setSess k { x with ins := x.ins.insert msgno { m with newAt := s.ao.tb } }).pgCount x.fdie 3 1).pgPacket
      { x with ins := x.ins.insert msgno { m with newAt := s.ao.tb } } x.lastPath { PgHdr.blank 3 with msgno := msgno } 0
      (be 2 base ++ zeros 2 ++ bitmap 1024 fun i => m.slots.has (base + i)))) ∧
  (∀ (s : State) (f session msgno t : Nat) (x : Sess) (m : PgOut), s.sess (sessKey f session) = some x → x.outs.find? msgno = some m → m.sentAt = some t →
    m.left = 0 → max t m.heardAt + s.fld (dieF x.fdie) Reg.PGT_CFG_RTO_US * 1000 ≤ s.ao.tb →
    exec (.pgtRto f session msgno) s = .next ((m.slotPath.vals.foldl (fun (s : State) q => s.pathReport (sessKey f session) q true) s).sendSlots
      (sessKey f session) msgno true)) ∧
  (∀ (s : State) (f session path t bad : Nat) (c : Cc) (x : Sess), s.sess (sessKey f session) = some x →
    x.paths.find? path = some { bad := bad, quar := some t, cc := c } → t + 10 ^ 8 ≤ s.ao.tb →
    exec (.pathQuarantineEnd f session path) s =
      .next (s.setSess (sessKey f session) { x with paths := x.paths.insert path { bad := bad, quar := none, cc := c } })) ∧
  (∀ (s : State) (f addr : Nat), f < s.variant.sides →
    (s.readDesc addr = none → exec (.sessionCreate f addr) s = .next (s.sessResult f 3).settle ∧
      exec (.sessionNewGeneration f addr) s = .next (s.sessResult f 3).settle) ∧
    (∀ d, s.readDesc addr = some d → s.sess (sessKey f d.session) = none →
      let k := sessKey f d.session
      let many := 256 ≤ (s.pgt.sess.vals.filter fun x => x.fdie == f).length
      exec (.sessionCreate f addr) s = .next (State.settle (if many then s.sessResult f 1
        else (((s.setSess k (s.freshSess f d)).sendProbe k).resendJrecs k).sessResult f 0)) ∧
      exec (.sessionNewGeneration f addr) s = .next (s.sessResult f 2).settle) ∧
    (∀ d x, s.readDesc addr = some d → s.sess (sessKey f d.session) = some x →
      let k := sessKey f d.session
      let replies := (x.outs.vals.map PgOut.bytes ++ x.queue).filter fun b => [2, 6, 8].contains (leAt b 0 1)
      let y := { x with
        d := d, nextMsg := 0, cum := 0, outs := [], queue := [],
        src := x.src.map fun c => { c with listed := false, want := none, parts := ([] : SMap Bytes), mapsSent := false } }
      let u : State := { s with pgt := { s.pgt with tx := s.pgt.tx.filter fun t => !(t.fdie == f && t.session == d.session && t.hdr.ty == 1) } }
      exec (.sessionCreate f addr) s = .next (s.sessResult f 3).settle ∧
      exec (.sessionNewGeneration f addr) s = .next (State.settle (((replies.foldl (fun (s : State) b => s.sendMsg k b)
        ((u.setSess k y).sendProbe k)).resendJrecs k).sessResult f 0)))) ∧
  (∀ (s : State) (f : Nat) (d : SessDesc), let x := s.freshSess f d
    x.d = d ∧ x.degraded = false ∧ x.nextMsg = 0 ∧ x.cum = 0 ∧ x.rxLoad = d.rxLoad ∧ x.rxCum = 0 ∧ x.outs = [] ∧ x.ins = [] ∧ x.src = none ∧ x.dst = none) ∧
  (∀ (s : State) (f session : Nat), f < s.variant.sides → s.sess (sessKey f session) = none →
    exec (.sessionDestroy f session) s = .next (s.sessResult f 2).settle ∧ exec (.sessionSetDegraded f session) s = .next (s.sessResult f 2) ∧
    exec (.sessionClearDegraded f session) s = .next (s.sessResult f 2)) ∧
  (∀ (s : State) (f session : Nat) (x : Sess), f < s.variant.sides → s.sess (sessKey f session) = some x →
    let k := sessKey f session
    let u := s.degrade k
    exec (.sessionDestroy f session) s = .next (State.settle (State.sessResult { u with pgt := { u.pgt with
      sess := u.pgt.sess.erase k, tx := u.pgt.tx.filter fun t => !(t.fdie == f && t.session == session),
      rx := u.pgt.rx.filter fun t => !(t.fdie == f && t.hdr.session == session) } } f 0)) ∧
    exec (.sessionSetDegraded f session) s = .next (State.settle (u.sessResult f 0)) ∧
    (u.sess k).map (fun y => (y.degraded, y.jrecs)) = some (true, []) ∧
    exec (.sessionClearDegraded f session) s = .next (State.settle ((s.setSess k { x with degraded := false }).sessResult f 0)))

/-- The first message delivered to a session, of a kind and for the namespace it must name (R491). -/
def MessageFor (s : State) (f session kind : Nat) (toReplica : Bool) (x : Sess) (b : Bytes) (rest : List Bytes) : Prop :=
  s.sess (sessKey f session) = some x ∧ x.ready = b :: rest ∧ leAt b 0 1 = kind ∧
    if toReplica then leAt b 8 4 = x.d.nsid ∧ (s.ns x.d.nsid).any NsRec.replica = true else leAt b 8 4 = x.d.rnsid

/-- R484 to R491: the messages of replication. -/
def Obligations.ReplicationMessagesHaveTheirEffects : Prop :=
  (∀ (s : State) (f session kind : Nat) (toReplica : Bool) (x : Sess) (b : Bytes) (rest : List Bytes) (c : Instr), s.sess (sessKey f session) = some x →
    x.ready = b :: rest → leAt b 0 1 = kind → (kind, toReplica, c) ∈ [(1, true, Instr.fplist f session), (2, false, .need f session), (3, true, .chunks f session),
      (5, true, .commit f session), (6, false, .committed f session), (8, false, .jack f session)] →
    (if toReplica then leAt b 8 4 ≠ x.d.nsid ∨ (s.ns x.d.nsid).any NsRec.replica = false else leAt b 8 4 ≠ x.d.rnsid) →
    exec c s = .next (State.settle ((s.setSess (sessKey f session) { x with ready := rest }).event (dieF f) 0x17 11 session))) ∧
  (∀ (s : State) (f session : Nat) (x : Sess) (b : Bytes) (rest : List Bytes),
    let k := sessKey f session
    let y := { x with ready := rest }
    let u := s.setSess k y
    (MessageFor s f session 1 true x b rest →
      let n := leAt b 12 4
      let fps := (List.range n).map fun i => (((b.drop 16).drop (36 * i)).take 32, leAt (b.drop 16) (36 * i + 32) 4)
      let d : DstBatch := { batch := leAt b 4 4, fps := fps, items := [], asked := [], held := false, commit := false, snap := none }
      let missing := (List.range n).filter fun i => (fps[i]?).any fun e => (u.confirmed (((u.ns x.d.nsid).map NsRec.domain).getD 0) e).isNone
      exec (.fplist f session) s = .next (State.settle (if (b.drop 16).length ≠ 36 * n then u.abandonBatch k 10
        else (u.setSess k { y with dst := some d }).sendNeed k y d fun i => missing.contains i))) ∧
    (∀ c : SrcCycle, MessageFor s f session 2 false x b rest → x.src = some c → c.batch = leAt b 4 4 → c.listed = true →
      let l := (List.range (min (leAt b 12 4) c.fps.length)).filter fun i => bitSet (b.drop 16) i
      exec (.need f session) s = .next (State.settle (u.fetchNeeded k y c (((c.want.getD []) ++ l).eraseDups)))) ∧
    (∀ (d : DstBatch) (n : NsRec), MessageFor s f session 3 true x b rest → x.dst = some d → s.ns x.d.nsid = some n → d.batch = leAt b 4 4 →
      exec (.chunks f session) s = .next (State.settle (match (readChunks (leAt b 12 4) (b.drop 16)).bind (takeChunks d.fps) with
        | none => u.badBatch k
        | some [] => u
        | some l =>
          let v := u.setSess k { y with dst := some { d with asked := [] } }
          State.setJob { v with dst := { v.dst with nextPack := s.dst.nextPack + 1 } } s.dst.nextPack
            { side := s.side, seqs := [], shard := 0, tile := x.d.tile, cls := x.d.cls, nsid := x.d.nsid, domain := n.domain,
              kv := n.kv, key := [], vlen := 0, slba := 0, arrival := s.ao.tb, chunks := l.map fun e => { bytes := e.2, st := .hash },
              held := false, noDom := false, fix := 0, fixed := false, repl := some (k, l.map Prod.fst), txn := none }))) ∧
    (∀ (d : DstBatch) (n : NsRec) (fix : List Item) (root : Option (Nat × Nat)), MessageFor s f session 4 true x b rest → x.dst = some d → s.ns x.d.nsid = some n →
      d.held = false ∨ fix = [] → d.batch = leAt b 4 4 →
      exec (.maps f session fix root) s = .next (State.settle (match readMaps n.kv (leAt b 12 4) (b.drop 16) with
        | some l => if l.all (MapIt.ok d.fps.length n.blocks) then u.setSess k { y with dst := some { d with items := d.items ++ l } } else u.abandonBatch k 10
        | none => u.abandonBatch k 10))) ∧
    (∀ d : DstBatch, MessageFor s f session 5 true x b rest → x.dst = some d → d.batch = leAt b 4 4 →
      exec (.commit f session) s = .next (State.settle (u.setSess k { y with dst := some { d with commit := true } }))) ∧
    (∀ c : SrcCycle, MessageFor s f session 6 false x b rest → x.src = some c → c.batch = leAt b 4 4 → c.mapsSent = true →
      exec (.committed f session) s = .next (State.settle (u.nextCycle k y c))) ∧
    (MessageFor s f session 8 false x b rest →
      let tags := (List.range (leAt b 12 4)).map fun i => leAt b (16 + 8 * i) 8
      let js := (tags.filter fun t => t / 2 ^ 48 == 0xFFFF).map (· % 2 ^ 48)
      exec (.jack f session) s = .next (State.settle (js.foldl (fun (s : State) j => s.setJack (j / 2 ^ 47) (j % 2 ^ 47) true)
        (u.setSess k { y with jrecs := js.foldl (fun m j => m.erase j) x.jrecs })))) ∧
    (MessageFor s f session 7 true x b rest → JRec.ofBytes (b.drop 16) = none → exec (.jrec f session) s = .next (u.pgCount x.fdie 8 1)) ∧
    (∀ r : JRec, MessageFor s f session 7 true x b rest → JRec.ofBytes (b.drop 16) = some r → s.serving = true →
      let media := (s.ns x.d.nsid).any NsRec.mediaDur
      s.roomFor 1 r.size (media || s.soloMedia) = true →
      (u.jrecSeen y r.jtag = true → exec (.jrec f session) s = .next (State.settle (u.sendMsg k (repHead 8 0 x.d.nsid 1 ++ le 8 r.jtag)))) ∧
      (u.jrecSeen y r.jtag = false →
        let v := u.appendRec { r with nsid := x.d.nsid, tag := r.jtag, cls := 1, mediaDur := media, epoch := s.epoch, arrival := s.ao.tb }
        exec (.jrec f session) s = .next (State.settle (match v.sess k with
          | some z => v.setSess k { z with
              jacks := z.jacks ++ [s.jrnl.nextSeq],
              seen := (z.seen.filter fun t => decide (v.ao.tb < t.2 + 10 ^ 9)) ++ [(r.jtag, v.ao.tb)] }
          | none => v))))) ∧
  (∀ (s : State) (f session : Nat) (x : Sess) (d : DstBatch) (fix : List Item) (root : Option (Nat × Nat)), s.sess (sessKey f session) = some x → x.dst = some d → d.held = true → fix ≠ [] →
    let u := (s.logTxn none 0 0 fix).1
    let u := match root, u.ns x.d.nsid with
      | some (r, i), some n => u.putNs x.d.nsid { n with root := r, index := i }
      | _, _ => u
    exec (.maps f session fix root) s = .next (State.settle (match u.sess (sessKey f session) with
      | some y => u.setSess (sessKey f session) { y with dst := some { d with held := false } }
      | none => u))) ∧
  (∀ (s : State) (f session j t : Nat) (x : Sess), s.sess (sessKey f session) = some x → x.jrecs.find? j = some t →
    t + max 1 (s.fld (dieF f) Reg.PGT_CFG_SYNC_MS) * 10 ^ 6 ≤ s.ao.tb →
    exec (.syncReplTimeout f session) s = .next (State.settle ((s.degrade (sessKey f session)).event (dieF f) 0x17 0 session)))

/-! ## The content search arrays (spec/11) -/

/-- The array of an S-die runs and takes an operation of firmware. -/
def CsaRuns (s : State) (d : Nat) : Prop :=
  s.variant.populated (dieS d) = true ∧ s.csaFlag d Reg.CSA_STATUS_READY = true ∧ s.csaFlag d Reg.CSA_RESULT_BUSY = false

/-- The array of an S-die runs, and a partition of this purpose is valid there. -/
def CsaHas (s : State) (d part purpose : Nat) (p : CsaPart) : Prop :=
  s.variant.populated (dieS d) = true ∧ s.csaFlag d Reg.CSA_STATUS_READY = true ∧ s.csaPart d part = some p ∧ p.purpose = purpose

/-- The array of an S-die with other entries. -/
def Sys2Proof.Machine.State.withEnts (s : State) (d : Nat) (f : SMap CsaEnt → SMap CsaEnt) : State :=
  s.setCsa d { s.csaOf d with ents := f (s.csaOf d).ents }

/-- The value and the two masks of the request registers. -/
def Sys2Proof.Machine.State.csaK (s : State) (d : Nat) (p : CsaPart) : Nat := s.csaReg d Reg.CSA_KEY_V p.bits
def Sys2Proof.Machine.State.csaSm (s : State) (d : Nat) (p : CsaPart) : Nat := s.csaReg d Reg.CSA_SMASK_V p.bits

/-- R497, R503 to R506, R522, R525: operations of firmware on the search arrays by CSA_CMD. -/
def Obligations.SearchArrayCommands : Prop :=
  (∀ (s : State) (d part rank addr : Nat) (ecc : List (Nat × Bool)) (c : Instr),
    c ∈ [.csaSearch d part ecc, .csaFloor d part ecc, .csaWrite d part rank addr, .csaInvalidate d part addr, .csaRead d part addr ecc,
      .insertRing true d part rank addr, .deleteMatch true d part rank, .invalidateMasked true d part rank, .ordInsert true d part rank addr,
      .ordDelete true d part rank] →
    (s.variant.populated (dieS d) = true → s.csaFlag d Reg.CSA_STATUS_READY = true → s.csaFlag d Reg.CSA_RESULT_BUSY = true →
      exec c s = .next (s.addFld (dieS d) (Reg.CSA_CNT_COUNT.plus 40) 1)) ∧
    (CsaRuns s d → s.csaPart d part = none → exec c s = .next (s.csaEnd d 1 false none))) ∧
  (∀ (s : State) (d part rank addr : Nat) (ecc : List (Nat × Bool)) (p : CsaPart), CsaRuns s d → s.csaPart d part = some p →
    let refused : Res := .next (s.csaEnd d 2 false none)
    (p.purpose ≠ 1 → exec (.csaFloor d part ecc) s = refused) ∧
    (p.purpose ≠ 2 → exec (.csaWrite d part rank addr) s = refused ∧ exec (.csaInvalidate d part addr) s = refused ∧
      exec (.invalidateMasked true d part rank) s = refused) ∧
    exec (.insertRing true d part rank addr) s = refused ∧ exec (.deleteMatch true d part rank) s = refused ∧
    exec (.ordInsert true d part rank addr) s = refused ∧ exec (.ordDelete true d part rank) s = refused ∧
    (p.holds addr = false → p.purpose = 2 → exec (.csaWrite d part rank addr) s = .next (s.csaEnd d 3 false none) ∧
      exec (.csaInvalidate d part addr) s = .next (s.csaEnd d 3 false none)) ∧
    (p.holds addr = false → exec (.csaRead d part addr ecc) s = .next (s.csaEnd d 3 false none))) ∧
  (∀ (s : State) (d part : Nat) (ecc : List (Nat × Bool)) (p : CsaPart), CsaRuns s d → s.csaPart d part = some p → s.Ordered → s.csa.rising = true →
    (s.csaOf d).ents.rising = true →
    let found := [(Instr.csaSearch d part ecc, bestHit ((s.csaEnts d p).filter fun ae => ae.2.hits (s.csaK d p) (s.csaSm d p)))] ++
      (if p.purpose = 1 then [(Instr.csaFloor d part ecc, floorHit (s.csaEnts d p) (s.csaK d p))] else [])
    let v := s.addFld (dieS d) Reg.CSA_CNT_COUNT 1
    let w := v.addFld (dieS d) (Reg.CSA_CNT_COUNT.plus 8) 1
    (∀ c, (c, none) ∈ found → exec c s = .next (v.csaEnd d 0 false none)) ∧
    ∀ c a e, (c, some (a, e)) ∈ found →
      (ecc.lookup a = none → exec c s = .next (w.csaEnd d 0 true (some (a, e)))) ∧
      (ecc.lookup a = some true → exec c s = .next ((w.addFld (dieS d) (Reg.CSA_CNT_COUNT.plus 48) 1).csaEnd d 0 true (some (a, e)))) ∧
      (ecc.lookup a = some false → exec c s = exec c ((s.withEnts d fun m => m.erase a).addFld (dieS d) (Reg.CSA_CNT_COUNT.plus 56) 1))) ∧
  (∀ (s : State) (d part rank addr : Nat) (p : CsaPart), CsaRuns s d → s.csaPart d part = some p → p.purpose = 2 → p.holds addr = true →
    let e : CsaEnt := .mk (s.csaK d p) (s.csaReg d Reg.CSA_EMASK_V p.bits) (rank % 16) (s.fld (dieS d) Reg.CSA_ASSOC_V)
    exec (.csaWrite d part rank addr) s = .next ((s.withEnts d fun m => m.insert addr e).csaEnd d 0 false none) ∧
    exec (.csaInvalidate d part addr) s = .next ((s.withEnts d fun m => m.erase addr).csaEnd d 0 false none) ∧
    exec (.invalidateMasked true d part rank) s =
      .next ((s.withEnts d fun m => m.keep fun a e => !(p.holds a && e.hits (s.csaK d p) (s.csaSm d p))).csaEnd d 0 false none)) ∧
  (∀ (s : State) (d part addr : Nat) (ecc : List (Nat × Bool)) (p : CsaPart), CsaRuns s d → s.csaPart d part = some p → p.holds addr = true →
    let u := s.csaEcc d ecc addr
    ((s.csaOf d).ents.find? addr = none → exec (.csaRead d part addr ecc) s = .next (s.csaEnd d 0 false none)) ∧
    (∀ e, (s.csaOf d).ents.find? addr = some e →
      (ecc.lookup addr = some false → exec (.csaRead d part addr ecc) s = .next (u.csaEnd d 7 false none)) ∧
      (ecc.lookup addr ≠ some false → u.csaOf d = s.csaOf d ∧ exec (.csaRead d part addr ecc) s = .next (u.csaEnd d 0 false (some (addr, e)))))) ∧
  (∀ (l : SMap CsaEnt), l.rising = true →
    (bestHit l = none ↔ l = []) ∧
    (∀ a e, bestHit l = some (a, e) → (a, e) ∈ l ∧ ∀ b f, (b, f) ∈ l → f.rank < e.rank ∨ f.rank = e.rank ∧ a ≤ b) ∧
    (∀ k, floorHit l k = none ↔ ∀ b f, (b, f) ∈ l → ordKey k < ordKey f.val) ∧
    (∀ k a e, floorHit l k = some (a, e) → (a, e) ∈ l ∧ ordKey e.val ≤ ordKey k ∧ ∀ b f, (b, f) ∈ l → ordKey f.val ≤ ordKey k → b ≤ a)) ∧
  (∀ (s : State) (d a : Nat) (ecc : List (Nat × Bool)), s.csaEcc d ecc a = if (s.csaOf d).ents.find? a = none ∨ ecc.lookup a = none then s
    else if ecc.lookup a = some true then s.addFld (dieS d) (Reg.CSA_CNT_COUNT.plus 48) 1
    else (s.withEnts d fun m => m.erase a).addFld (dieS d) (Reg.CSA_CNT_COUNT.plus 56) 1) ∧
  (∀ (s : State) (d err : Nat) (hit : Bool) (r : Option (Nat × CsaEnt)), s.Ordered →
    let t := s.csaEnd d err hit r
    t = { s with regs := t.regs } ∧ t.flag (dieS d) Reg.CSA_RESULT_DONE = true ∧ t.flag (dieS d) Reg.CSA_RESULT_HIT = hit ∧
    t.fld (dieS d) Reg.CSA_RESULT_ERR = err % 8 ∧
    (∀ a e, r = some (a, e) → t.fld (dieS d) Reg.CSA_RESULT_RANK = e.rank % 16 ∧ t.fld (dieS d) Reg.CSA_RESULT_ADDR = a % 2 ^ 21 ∧
      t.fld (dieS d) Reg.CSA_ASSOC_V = e.assoc % 2 ^ 64))

/-- R506, R508, R511, R515 to R518: operations of the lanes and the map cache on the search arrays. -/
def Obligations.FilterAndOrderedIndexOperations : Prop :=
  (∀ (s : State) (d part key ref : Nat) (p : CsaPart), CsaHas s d part 0 p →
    let c := s.csaOf d
    let k := key % 2 ^ p.bits
    let pos := c.ring.getD part 0 % p.positions
    let e : CsaEnt := { val := k, mask := 2 ^ p.bits - 1, rank := 0, assoc := 0 }
    let held := c.ents.keep fun a x => !(p.holds a && x.val == k)
    let c' : Csa := { c with ents := held.insert (p.addr pos) e, ring := c.ring.putD part ((pos + 1) % p.positions) 0 }
    let u := (s.setCsa d c').addFld (dieS d) (Reg.CSA_CNT_COUNT.plus 16) 1
    exec (.insertRing false d part key ref) s = .next (u.setCsa d { u.csaOf d with slots := (u.csaOf d).slots.insert (p.addr pos) ref }) ∧
    c'.ents.find? (p.addr pos) = some e ∧ (∀ a x, a ≠ p.addr pos → p.holds a = true → c'.ents.find? a = some x → x.val ≠ k)) ∧
  (∀ (s : State) (d part key domain : Nat) (p : CsaPart), CsaHas s d part 0 p →
    let k := key % 2 ^ p.bits
    exec (.deleteMatch false d part key) s =
      .next (s.withEnts d fun m => m.keep fun a x => !(p.holds a && x.val == k && x.mask == 2 ^ p.bits - 1)) ∧
    exec (.invalidateMasked false d part domain) s =
      .next (s.withEnts d fun m => m.keep fun a x => !(p.holds a && x.hits (domain % 2 ^ 12 * 2 ^ 148) ((2 ^ 12 - 1) * 2 ^ 148)))) ∧
  (∀ (s : State) (d part val : Nat) (p : CsaPart), CsaHas s d part 1 p →
    exec (.ordDelete false d part val) s = .next (s.withEnts d fun m => m.keep fun a x => !(p.holds a && ordKey x.val == ordKey (val % 2 ^ 320)))) ∧
  (∀ (s : State) (d part val leaf : Nat) (p : CsaPart), CsaHas s d part 1 p →
    (part ∈ (s.csaOf d).spread ∨ s.csaFull d p = true) → exec (.ordInsert false d part val leaf) s = .next s) ∧
  (∀ (s : State) (d part val leaf : Nat) (p : CsaPart), CsaHas s d part 1 p → part ∉ (s.csaOf d).spread → s.csaFull d p = false →
    let c := s.csaOf d
    let e : CsaEnt := { val := val % 2 ^ 320, mask := 2 ^ 320 - 1, rank := 0, assoc := leaf }
    let same := List.find? (fun x => ordKey x.2.val == ordKey e.val) (s.csaEnts d p)
    let f := (floorHit (s.csaEnts d p) e.val).map fun x => p.pos x.1
    let next := (f.map fun n => n + 1).getD 0
    let hole := fun n => !c.ents.has (p.addr n)
    let up := (List.range (p.shift + 1)).find? fun k => decide (0 < k) && decide (next + k < p.positions) && hole (next + k)
    let down := f.bind fun f => (List.range (p.shift + 1)).find? fun k => decide (0 < k) && decide (k ≤ f) && hole (f - k)
    let stood := fun (u : State) => u.addFld (dieS d) (Reg.CSA_CNT_COUNT.plus 16) 1
    let moved := fun (k : Nat) => s.addFld (dieS d) (Reg.CSA_CNT_COUNT.plus 24) k
    (∀ a x, same = some (a, x) → exec (.ordInsert false d part val leaf) s = .next (stood (s.withEnts d fun m => m.insert a e))) ∧
    (same = none → next < p.positions → hole next = true →
      exec (.ordInsert false d part val leaf) s = .next (stood (s.withEnts d fun m => m.insert (p.addr next) e))) ∧
    (same = none → ¬ (next < p.positions ∧ hole next = true) →
      (up = none → down = none → exec (.ordInsert false d part val leaf) s =
        .next ((s.setCsa d { c with spread := c.spread ++ [part], kept := c.kept.erase part }).addFld (dieS d) (Reg.CSA_CNT_COUNT.plus 32) 1)) ∧
      (∀ u, up = some u → (∀ k, down = some k → u ≤ k) → exec (.ordInsert false d part val leaf) s =
        .next (stood ((moved u).setCsa d { c with ents := (moveRun p true next u c.ents).insert (p.addr next) e }))) ∧
      (∀ k, down = some k → (∀ u, up = some u → k < u) → exec (.ordInsert false d part val leaf) s =
        .next (stood ((moved k).setCsa d { c with ents := (moveRun p false (next - k) k c.ents).insert (p.addr (next - 1)) e }))))) ∧
  (∀ (s : State) (d part : Nat) (p : CsaPart), s.csaPart d part = some p → part ∈ (s.csaOf d).spread →
    let c := s.csaOf d
    let l := s.csaEnts d p
    let spots := ((List.range l.length).zip l).map fun x => (x.1 * p.positions / l.length, x.2)
    let moves := (spots.map fun x => (x.1 - p.pos x.2.1) + (p.pos x.2.1 - x.1)).sum
    exec (.respreadDone d part) s = .next ((s.setCsa d { c with
      ents := spots.foldl (fun m x => m.insert (p.addr x.1) x.2.2) (c.ents.keep fun a _ => !p.holds a)
      spread := c.spread.filter (· != part) }).addFld (dieS d) (Reg.CSA_CNT_COUNT.plus 24) moves)) ∧
  (∀ (s : State) (d : Nat) (c : Csa), s.csa.rising = true →
    (s.setCsa d c).csaOf d = c ∧ (∀ x, x ≠ d → (s.setCsa d c).csaOf x = s.csaOf x) ∧ s.setCsa d c = { s with csa := (s.setCsa d c).csa })

/-! ## The digest engines (spec/12) -/

/-- A session that is open and has not completed. -/
def DgeOpen (s : State) (die ses : Nat) (x : DgeSes) : Prop := s.dgeOn die ses = true ∧ s.dge die ses = some x ∧ x.ending = false

/-- It is closed, or has completed. -/
def DgeClosed (s : State) (die ses : Nat) : Prop := s.dgeOn die ses = true ∧ ∀ x, s.dge die ses = some x → x.ending = true

/-- A field of SES_CFG and its neighbours, as a session's registers hold it. -/
def Sys2Proof.Machine.State.sesOf (s : State) (die ses : Nat) (f : Fld) : Nat := s.fld die (f.plus (ses * 0x100))

/-- START is refused for what it names: ERR 1; for its key slot: ERR 2; for its result slot: ERR 5 (R526, R535, R538, R545). -/
def StartBad (s : State) (die ses : Nat) : Prop :=
  let f := s.sesOf die ses
  (s.dge die ses).isSome = true ∨ f Reg.SES_CFG_ALG ∉ [1, 2, 3, 4, 5, 6, 7, 9, 10, 11] ∨
    (f Reg.SES_CFG_ALG = 7 ∧ (f Reg.SES_CFG_OUTLEN = 0 ∨ 64 < f Reg.SES_CFG_OUTLEN)) ∨ (f Reg.SES_CFG_PAD = 1 ∧ f Reg.SES_CFG_DECL_EN ≠ 1)
def StartKeyless (s : State) (die ses : Nat) : Prop :=
  9 ≤ s.sesOf die ses Reg.SES_CFG_ALG ∧
    ∀ k, s.keys.slots.find? (die * 16 + s.sesOf die ses Reg.SES_CFG_SLOT) = some k → k.alg ≠ s.sesOf die ses Reg.SES_CFG_ALG
def StartTaken (s : State) (die ses : Nat) : Prop :=
  let r := s.sesOf die ses Reg.SES_CFG_RSLOT
  s.flag die (Reg.RES_INFO_LOCKED.plus (r * 0x80)) = true ∨ ∃ n y, n < 4 ∧ n ≠ ses ∧ s.dge die n = some y ∧ cfgOf y Reg.SES_CFG_RSLOT = r

/-- R527, R529, R531 to R536, R538, R540, R541, R543 to R545, R549: sessions of the digest engines, from START to their result. -/
def Obligations.DigestSessionsAndResults : Prop :=
  (∀ (s : State) (die ses : Nat), s.dgeOn die ses = true →
    (StartBad s die ses → exec (.dgeStart die ses) s = .next (s.dgeEnd die ses 1)) ∧
    (¬ StartBad s die ses → StartKeyless s die ses → exec (.dgeStart die ses) s = .next (s.dgeEnd die ses 2)) ∧
    (¬ StartBad s die ses → ¬ StartKeyless s die ses → StartTaken s die ses → exec (.dgeStart die ses) s = .next (s.dgeEnd die ses 5)) ∧
    (¬ StartBad s die ses → ¬ StartKeyless s die ses → ¬ StartTaken s die ses →
      let f := s.sesOf die ses
      let alg := f Reg.SES_CFG_ALG
      let st := match s.keys.slots.find? (die * 16 + f Reg.SES_CFG_SLOT) with
        | some k => if 9 ≤ alg then (k.icv, k.ocv) else (digestInit alg, [])
        | none => (digestInit alg, [])
      let empty := f Reg.SES_CFG_PAD == 1 && f Reg.SES_DECL_LEN == 0
      exec (.dgeStart die ses) s = .next (((s.setFlag die (Reg.RES_INFO_VALID.plus (f Reg.SES_CFG_RSLOT * 0x80)) false).setDge die ses
        { cfg := s.reg die 0x37 (0x1000 + ses * 0x100), decl := f Reg.SES_DECL_LEN, st := st.1, ocv := st.2, buf := [], count := 0, trunc := false,
          short := false, tapFault := false, armed := none, feed := none, finish := false, ending := empty }).dgeEnd die ses 0)) ∧
    exec (.dgeAbort die ses) s = .next ((s.dropDge die ses).dgeEnd die ses 0)) ∧
  (∀ (s : State) (die ses tap id : Nat) (v : Word) (c : Instr), DgeClosed s die ses → c ∈ [.dgeData die ses v, .dgeLast die ses v, .dgeFeed die ses,
      .dgeFinish die ses, .dgeArm die ses tap id, .dgeDisarm die ses] → exec c s = .next (s.dgeEnd die ses 1)) ∧
  (∀ (s : State) (die ses : Nat) (v : Word) (x : DgeSes), DgeOpen s die ses x →
    let busy : Res := .next (s.dgeEnd die ses 4)
    (x.feed ≠ none ∨ x.armed ≠ none → exec (.dgeData die ses v) s = busy ∧ exec (.dgeLast die ses v) s = busy ∧ exec (.dgeFeed die ses) s = busy) ∧
    (x.feed = none → x.armed = none →
      let y := x.feedBytes (le 8 v.toNat)
      let z := x.feedBytes ((le 8 v.toNat).take (min 8 (s.sesOf die ses Reg.SES_LAST_VB_VB)))
      exec (.dgeData die ses v) s = .next ((s.setDge die ses y.settle).showDge die ses) ∧
      exec (.dgeLast die ses v) s = .next ((s.setDge die ses (if x.pad then z.settle else { z with ending := true })).dgeEnd die ses 0) ∧
      exec (.dgeFeed die ses) s = .next ((s.setDge die ses { x with feed := some (s.sesOf die ses Reg.SES_ADDR_ADDR, s.sesOf die ses Reg.SES_LEN_LEN) }).showDge
        die ses)) ∧
    (x.pad = false → exec (.dgeFinish die ses) s = .next (s.dgeEnd die ses 0)) ∧
    (x.pad = true → exec (.dgeFinish die ses) s = .next ((s.setDge die ses (if x.feed.isSome then { x with finish := true }
      else { x with ending := true, short := true, armed := none })).dgeEnd die ses 0)) ∧
    exec (.dgeDisarm die ses) s = .next ((s.setDge die ses { x with armed := none }).dgeEnd die ses 0)) ∧
  (∀ (s : State) (die ses tap tapid : Nat) (x : DgeSes), DgeOpen s die ses x →
    let id := if die = 0 then 0 else tapid
    (die = 0 → tap ≠ 0 → exec (.dgeArm die ses tap tapid) s = .next (s.dgeEnd die ses 6)) ∧
    (die ≠ 0 ∨ tap = 0 → (x.feed ≠ none ∨ x.armed ≠ none ∨ ∃ n y, n < 4 ∧ s.dge die n = some y ∧ y.armed = some (tap, id)) →
      exec (.dgeArm die ses tap tapid) s = .next (s.dgeEnd die ses 4)) ∧
    (die ≠ 0 ∨ tap = 0 → x.feed = none → x.armed = none → (∀ n y, n < 4 → s.dge die n = some y → y.armed ≠ some (tap, id)) →
      exec (.dgeArm die ses tap tapid) s = .next ((s.setDge die ses { x with armed := some (tap, id) }).dgeEnd die ses 0))) ∧
  (∀ (s : State) (die ses a n : Nat) (x : DgeSes), s.dge die ses = some x → x.feed = some (a, n) →
    let fed := fun (m : Nat) =>
      let y := { x.feedBytes (s.loads a m) with feed := none }.settle
      if x.finish && !y.ending then { y with finish := false, ending := true, short := true } else { y with finish := false }
    (s.dgeFault die a n .read = none → exec (.dgeFeedDone die ses) s = .next ((s.setDge die ses (fed n)).dgeEnd die ses 0)) ∧
    (∀ b c, s.dgeFault die a n .read = some (b, c) →
      exec (.dgeFeedDone die ses) s = .next (((s.setDge die ses (fed (b - a))).dgeEnd die ses 7).dgeFreeze die ses b .read c))) ∧
  (∀ (s : State) (die ses tap tapid : Nat) (bytes : Bytes) (whole : Bool) (x : DgeSes), ses < 4 → s.dge die ses = some x → x.ending = false →
    x.armed = some (tap, if die = 0 then 0 else tapid) →
    (∀ n y, n < ses → s.dge die n = some y → y.armed ≠ some (tap, if die = 0 then 0 else tapid) ∨ y.ending = true) →
    let y := x.feedBytes bytes
    exec (.dgeTapTransfer die tap tapid bytes whole) s =
      .next ((s.setDge die ses { y with tapFault := y.tapFault || !whole }.settle).showDge die ses)) ∧
  (∀ (s : State) (die ses : Nat) (x : DgeSes), s.dge die ses = some x → x.ending = true →
    let n := digestLen x.alg (cfgOf x Reg.SES_CFG_OUTLEN)
    let plain := digestEnd x.alg n x.st x.buf x.count
    let keyed := digestOuter x.alg x.ocv (digestEnd x.alg n x.st x.buf (x.count + digestBlock x.alg))
    let u := s.putResult die (cfgOf x Reg.SES_CFG_RSLOT) x.alg (padTo 64 (if 9 ≤ x.alg then keyed else plain)) x.trunc x.short x.tapFault
      (cfgOf x Reg.SES_CFG_RLOCK == 1) x.count
    exec (.dgeResult die ses) s = .next (((u.setFlag die (Reg.SES_STATUS_DONE.plus (ses * 0x100)) true).dropDge die ses).showDge die ses)) ∧
  (∀ (s : State) (die r alg count : Nat) (d : Bytes) (trunc short tap lock : Bool), s.Ordered → r < 16 →
    let u := s.putResult die r alg d trunc short tap lock count
    let f := fun (x : Fld) => u.fld die (x.plus (r * 0x80))
    u = { s with regs := u.regs } ∧ f Reg.RES_INFO_VALID = 1 ∧ f Reg.RES_INFO_ALG = alg % 16 ∧ f Reg.RES_INFO_TRUNC = trunc.toNat ∧
    f Reg.RES_INFO_SHORT = short.toNat ∧ f Reg.RES_INFO_TAPFAULT = tap.toNat ∧ f Reg.RES_INFO_LOCKED = lock.toNat ∧
    f Reg.RES_INFO_SEQ = (s.fld die (Reg.RES_INFO_SEQ.plus (r * 0x80)) + 1) % 128 ∧ f Reg.RES_INFO_LEN = count % 2 ^ 48 ∧
    (∀ k, k < 8 → f (Reg.RES_D_BYTES.plus (8 * k)) = leAt d (8 * k) 8)) ∧
  (∀ (x : DgeSes), (x.pad = true → x.decl ≤ x.count → x.settle = { x with ending := true, armed := none }) ∧
    (x.pad = false ∨ x.count < x.decl → x.settle = x)) ∧
  (∀ (x : DgeSes) (a b : Bytes), x.buf.length < digestBlock x.alg → (x.declEn = true → x.count ≤ x.decl) →
    let y := x.feedBytes a
    x.feedBytes (a ++ b) = y.feedBytes b ∧ y.buf.length < digestBlock y.alg ∧
    y.count = (if x.declEn then min x.decl (x.count + a.length) else x.count + a.length) ∧
    y.trunc = (x.trunc || (x.declEn && decide (x.decl < x.count + a.length))))

/-- R539, R546 to R549: contexts of sessions are saved and restored, key slots loaded and cleared. -/
def Obligations.DigestContextsAndKeySlots : Prop :=
  (∀ (s : State) (die ses : Nat), s.dgeOn die ses = true →
    ((∀ x, s.dge die ses = some x → x.ending = true ∨ x.feed ≠ none ∨ x.armed ≠ none) →
      exec (.dgeSaveClear die ses) s = .next (s.dgeEnd die ses 6) ∧ exec (.dgeSaveWrapped die ses) s = .next (s.dgeEnd die ses 6)) ∧
    (∀ x, s.dge die ses = some x → x.ending = false → x.feed = none → x.armed = none →
      let a := s.sesOf die ses Reg.SES_ADDR_ADDR
      let wrapped := kwpWrap (s.ctxKey die 1) x.context
      (9 ≤ x.alg → exec (.dgeSaveClear die ses) s = .next (s.dgeEnd die ses 6)) ∧
      (x.alg < 9 → exec (.dgeSaveClear die ses) s = .next (match s.dgeFault die a x.context.length .write with
        | none => ((s.stores a x.context).dropDge die ses).dgeEnd die ses 0
        | some (b, c) => (s.dgeEnd die ses 7).dgeFreeze die ses b .write c)) ∧
      exec (.dgeSaveWrapped die ses) s = .next (match s.dgeFault die a wrapped.length .write with
        | none => ((s.stores a wrapped).dropDge die ses).dgeEnd die ses 0
        | some (b, c) => (s.dgeEnd die ses 7).dgeFreeze die ses b .write c)) ∧
    (∀ w, (s.dge die ses).isSome = true → exec (.dgeRestore die ses w) s = .next (s.dgeEnd die ses 6)) ∧
    (s.dge die ses = none →
      let a := s.sesOf die ses Reg.SES_ADDR_ADDR
      let take := fun (b : Bytes) => if digestKnown (contextSes b).alg = true ∧ b.length = 384
        then (s.setDge die ses (contextSes b)).dgeEnd die ses 0 else s.dgeEnd die ses 6
      exec (.dgeRestore die ses false) s = .next (match s.dgeFault die a 384 .read with
        | none => take (s.loads a 384)
        | some (b, c) => (s.dgeEnd die ses 7).dgeFreeze die ses b .read c) ∧
      exec (.dgeRestore die ses true) s = .next (match s.dgeFault die a 392 .read with
        | none => (match kwpUnwrap (s.ctxKey die 1) (s.loads a 392) with
          | some b => take b
          | none => s.dgeEnd die ses 3)
        | some (b, c) => (s.dgeEnd die ses 7).dgeFreeze die ses b .read c))) ∧
  (∀ (x : DgeSes), digestKnown x.alg = true → x.decl < 2 ^ 48 → x.count < 2 ^ 128 → x.buf.length < digestBlock x.alg → x.ending = false →
    x.armed = none → x.feed = none → x.finish = false →
    x.st.length = (if digestSponge x.alg then 200 else if digestBlock x.alg = 64 then 32 else 64) →
    x.ocv.length = (if digestKeyed x.alg then x.st.length else 0) →
    x.context.length = 384 ∧
    contextSes x.context = { x with short := false, tapFault := false, ocv := if digestSponge x.alg then [] else padTo x.st.length x.ocv }) ∧
  (∀ (s : State) (a : Nat) (l : Bytes), Memory.wf s.mem = true → (s.stores a l).loads a l.length = l ∧
    (∀ b, b < a ∨ a + l.length ≤ b → (s.stores a l).load b = s.load b) ∧ s.stores a l = { s with mem := (s.stores a l).mem }) ∧
  (∀ (s : State) (die slot alg keylen label : Nat), s.dgeOn die 0 = true →
    let n := if keylen = 0 then 128 else keylen
    let hmac := alg ∈ [9, 10, 11]
    (s.flag die Reg.DGE_CTRL_CLEAR_KEY_EN = false → exec (.dgeSlotLoadClear die slot alg keylen) s = .next (s.slotEnd die 6)) ∧
    (s.flag die Reg.DGE_CTRL_CLEAR_KEY_EN = true → (¬ hmac ∨ 128 < n) → exec (.dgeSlotLoadClear die slot alg keylen) s = .next (s.slotEnd die 1)) ∧
    (s.flag die Reg.DGE_CTRL_CLEAR_KEY_EN = true → hmac → n ≤ 128 →
      exec (.dgeSlotLoadClear die slot alg keylen) s = .next (s.loadSlot die slot alg
        (((List.range 16).flatMap fun i => le 8 (s.wo.getD (regKey die 0x37 (0x100 + 8 * i)) 0).toNat).take n))) ∧
    (die = 0 → exec (.dgeSlotLoadWrapped die slot alg keylen) s = .next (s.slotEnd die 6)) ∧
    (die ≠ 0 → exec (.dgeSlotLoadDerived die slot alg label) s = .next (s.slotEnd die 6)) ∧
    (die ≠ 0 → (¬ hmac ∨ 128 < n) → exec (.dgeSlotLoadWrapped die slot alg keylen) s = .next (s.slotEnd die 1)) ∧
    (die ≠ 0 → hmac → n ≤ 128 →
      let a := s.fld die Reg.DGE_SLOTSRC_ADDR
      let m := (n + 7) / 8 * 8 + 8
      exec (.dgeSlotLoadWrapped die slot alg keylen) s = .next (match s.dgeFault die a m .read with
        | some (b, c) => (s.slotEnd die 7).dgeFreeze die 0 b .read c
        | none => (match s.dst.awk.find? (die - 16) with
          | some k => (match kwpUnwrap k (s.loads a m) with
            | some key => s.loadSlot die slot alg key
            | none => s.slotEnd die 3)
          | none => s.slotEnd die 3))) ∧
    (die = 0 → ¬ hmac → exec (.dgeSlotLoadDerived die slot alg label) s = .next (s.slotEnd die 1)) ∧
    (die = 0 → hmac → exec (.dgeSlotLoadDerived die slot alg label) s =
      .next (s.loadSlot die slot alg (derive (ascii "VX8-DGE" ++ le 2 label ++ s.wrapGen) (if alg = 9 then 32 else 64)))) ∧
    exec (.dgeSlotClear die slot) s = .next (State.slotEnd { s with keys := { s.keys with slots := s.keys.slots.erase (die * 16 + slot % 16) } } die 0)) ∧
  (∀ (s : State) (die slot alg : Nat) (key : Bytes),
    let t := s.loadSlot die slot alg key
    t.keys.slots.find? (die * 16 + slot % 16) = some { alg := alg, icv := (digestKey alg key).1, ocv := (digestKey alg key).2 } ∧
    (∀ k, k ≠ die * 16 + slot % 16 → t.keys.slots.find? k = s.keys.slots.find? k) ∧ t.mem = s.mem ∧ t.keys.dge = s.keys.dge)

/-! ## The control plane (spec/13) -/

/-- Where a descriptor stops at a window fault: bytes moved before it, address, kind and cause; a read is met before a write. -/
def Sys2Proof.Machine.State.dmaStop (s : State) (tile : Nat) (j : DmaJob) : Option (Nat × Nat × AccKind × Nat) :=
  let n := j.total - j.done
  let rd := if j.op = 1 then s.rangeFault tile 14 (j.d.src + j.done) n .read else none
  let r := rd.map fun x => (x.1 - (j.d.src + j.done), x.1, AccKind.read, x.2)
  let w := (s.rangeFault tile 14 (j.d.dst + j.done) n .write).map fun x => (x.1 - (j.d.dst + j.done), x.1, AccKind.write, x.2)
  match r, w with
  | some x, some y => if x.1 ≤ y.1 then r else w
  | some _, none => r
  | none, _ => w

/-- A descriptor goes on to its end or to a fault, behind the others of its channel (R561, R562, R573). -/
def Sys2Proof.Machine.State.dmaRan (s : State) (tile chan : Nat) (l : List DmaJob) (j : DmaJob) : State :=
  let b := fun (m : Nat) => if j.op = 1 then s.loads (j.d.src + j.done) m else (j.buf.drop j.done).take m
  let moved := fun (m : Nat) (held : Bool) =>
    (s.stores (j.d.dst + j.done) (b m)).setDma tile chan (l ++ [{ j with done := j.done + m, held := held }])
  match s.dmaStop tile j with
  | none => moved (j.total - j.done) false
  | some (m, a, k, c) => (moved m true).channelFault tile 14 chan a k c

/-- A DMA channel takes a descriptor. -/
def DmaTakes (s : State) (d : DmaDesc) : Prop :=
  d.tile < s.variant.tiles ∧ d.chan < 8 ∧ s.frozen d.tile 14 d.chan = false ∧ ∀ j ∈ s.hrd.dma.getD (dmaKey d.tile d.chan) [], j.held = false

/-- A descriptor that has moved nothing. -/
def newJob (op : Nat) (d : DmaDesc) (buf : Bytes) (status : Nat) : DmaJob :=
  { op := op, d := d, buf := buf, done := 0, status := status, held := false }

/-- R555, R556, R561, R562, R564 to R566, R573: freezes and thaws, the fault log, the DMA engine and cache maintenance. -/
def Obligations.FreezesThawsDmaAndCaches : Prop :=
  (∀ (s : State) (tile m : Nat) (val : Word), tile < s.variant.tiles → m < 4 →
    exec (.channelFreezeRequest tile m val) s = .next ((s.freezeTargets tile m val).foldl (fun (s : State) x => s.requestFreeze tile x.1 x.2) s) ∧
    ∀ mid chan, (mid, chan) ∈ s.freezeTargets tile m val ↔ mid / 4 = m ∧ 4 ≤ mid ∧ chan < channels mid ∧
      bitsAt val (16 * (mid % 4) + chan) 1 = 1 ∧ s.frozen tile mid chan = false) ∧
  (∀ (s : State) (tile mid chan : Nat), s.Ordered → chan < 16 →
    let t := s.requestFreeze tile mid chan
    t.frz tile mid chan = { s.frz tile mid chan with requested := true } ∧ t.flag (dieC tile) Reg.FRZ_STATUS_REQ_PEND = true ∧
    bitsAt (t.reg (dieC tile) Reg.FRZ_F_FROZEN.blk (Reg.FRZ_F_FROZEN.off + 8 * (mid / 4))) (16 * (mid % 4) + chan) 1 = 1) ∧
  (∀ (s : State) (tile mid chan : Nat), (s.frz tile mid chan).requested = true →
    let u := s.freezeChan tile mid chan none
    exec (.channelFrozen tile mid chan) s = .next (u.setFlag (dieC tile) Reg.FRZ_STATUS_REQ_PEND (u.freezePending tile)) ∧
    u.frz tile mid chan = { frozen := true, requested := false, access := none }) ∧
  (∀ (s : State) (tile mid chan addr cause : Nat) (k : AccKind),
    let t := s.channelFault tile mid chan addr k cause
    let f : FaultRec := { mid := mid, chan := chan, addr := addr, kind := k, cause := cause, time := s.stamp (dieC tile) 11 }
    let l := s.hrd.log.getD tile []
    t.frz tile mid chan = { frozen := true, requested := false, access := some (addr, k) } ∧
    t.hrd.log.getD tile [] = (if l.length < 16 then l ++ [f] else l) ∧
    t = ((s.freezeChan tile mid chan (some (addr, k))).logFault tile f).postWinfault tile f) ∧
  (∀ (s : State) (tile : Nat) (f : FaultRec),
    let l := s.hrd.log.getD tile []
    let u := s.addFld (dieC tile) Reg.WIN_FCNT_FAULTS 1
    (l.length < 16 → s.logFault tile f = u.setLog tile (l ++ [f])) ∧ (16 ≤ l.length → s.logFault tile f = u.addFld (dieC tile) Reg.WIN_FCNT_DROPPED 1)) ∧
  (∀ (s : State) (tile mid chan : Nat) (c : Instr), c ∈ [.thawResume tile mid chan, .thawAbort tile mid chan] → s.frozen tile mid chan = true →
    s.flag (dieC tile) Reg.FRZ_STATUS_HEAD = false →
    let u := s.unfreeze tile mid chan
    (mid = 10 ∨ mid = 11 → exec c s = .next u) ∧
    (mid = 12 → exec c s = .next (if u.flag (dieC tile) Reg.RPL_CTRL_EN then u.capStart tile else u)) ∧
    (mid = 13 → exec c s = .next (u.resumeRings tile))) ∧
  (∀ (s : State) (tile mid chan : Nat), s.frozen tile mid chan = true → s.flag (dieC tile) Reg.FRZ_STATUS_HEAD = false → 4 ≤ mid → mid ≤ 9 →
    let u := s.unfreeze tile mid chan
    exec (.thawAbort tile mid chan) s = .next u ∧
    ((s.frz tile mid chan).access = none → exec (.thawResume tile mid chan) s = .next u) ∧
    (∀ a k, (s.frz tile mid chan).access = some (a, k) → exec (.thawResume tile mid chan) s = .next (match u.windowFault tile mid a k with
      | none => u
      | some c => u.channelFault tile mid chan a k c))) ∧
  (∀ (s : State) (tile chan : Nat), s.frozen tile 14 chan = true → s.flag (dieC tile) Reg.FRZ_STATUS_HEAD = false →
    let u := s.unfreeze tile 14 chan
    let l := s.hrd.dma.getD (dmaKey tile chan) []
    ((∀ j ∈ l, j.held = false) → exec (.thawResume tile 14 chan) s = .next u ∧ exec (.thawAbort tile 14 chan) s = .next u) ∧
    (∀ front j, l = front ++ [j] → j.held = true → exec (.thawResume tile 14 chan) s = .next (u.dmaRan tile chan front j) ∧
      exec (.thawAbort tile 14 chan) s = .next (u.setDma tile chan (front ++ [{ j with held := false, status := 1 }])))) ∧
  (∀ (s : State) (tile mid chan : Nat), s.hrd.frz.rising = true →
    let u := s.unfreeze tile mid chan
    u.frz tile mid chan = { frozen := false, requested := false, access := none } ∧ u.mem = s.mem ∧ u.hrd.dma = s.hrd.dma ∧
    ∀ m c, c < 16 → m < 16 → chan < 16 → mid < 16 → (m, c) ≠ (mid, chan) → u.frz tile m c = s.frz tile m c) ∧
  (∀ (s : State) (who : Requester) (tile : Nat),
    let addr := dieC tile * 2 ^ 32 + 0x39 * 2 ^ 24 + 0x120
    let v := (s.checkAccess who addr 8 .read).2
    (s.checkAccess who addr 8 .read).1 = true → exec (.winFaultRead who tile) s = .next (match v.hrd.log.getD tile [] with
      | [] => v.readDone who addr 0
      | f :: rest => ((v.setLog tile rest).setFld (dieC tile) Reg.WIN_FTIME_TIME f.time).readDone who addr (BitVec.ofNat 64 f.word))) ∧
  (∀ (s : State) (d : DmaDesc), DmaTakes s d →
    let l := s.hrd.dma.getD (dmaKey d.tile d.chan) []
    let ends := fun (op status : Nat) => (.next (s.setDma d.tile d.chan (l ++ [newJob op d [] status])) : Res)
    let moves := fun (op : Nat) (b : Bytes) => (.next (s.dmaRan d.tile d.chan l (newJob op d b 0)) : Res)
    (d.ok = false → exec (.dmaCopy d) s = ends 1 3 ∧ exec (.dmaFill d) s = ends 2 3 ∧ (∀ p, exec (.dmaReadPage d p) s = ends 3 3) ∧
      ∀ m p, exec (.dmaReadPack d m p) s = ends 4 3) ∧
    (d.ok = true → exec (.dmaCopy d) s = moves 1 [] ∧
      exec (.dmaFill d) s = moves 2 ((List.range d.len).map fun i => BitVec.ofNat 8 (d.src / 256 ^ (i % 8))) ∧
      exec (.dmaReadPage d none) s = ends 3 2 ∧ (∀ p, exec (.dmaReadPage d (some p)) s = moves 3 (padTo 4096 p)) ∧
      (∀ m, exec (.dmaReadPack d m none) s = ends 4 2) ∧
      (∀ m n b, m < n → d.len ≤ b.length / n →
        exec (.dmaReadPack d m (some (n, b))) s = moves 4 ((b.drop (m * (b.length / n))).take d.len)) ∧
      (∀ m n b, n ≤ m ∨ b.length / n < d.len → exec (.dmaReadPack d m (some (n, b))) s = ends 4 3)) ∧
    (d.ok = true ↔ 1 ≤ d.cls ∧ d.cls ≤ 7 ∧ 1 ≤ d.len ∧ d.len ≤ 2 ^ 24 ∧ d.reservedOk = true)) ∧
  (∀ (s : State) (tile chan : Nat) (j : DmaJob) (rest : List DmaJob), s.hrd.dma.getD (dmaKey tile chan) [] = j :: rest → j.held = false →
    exec (.dmaDone tile chan) s = .next ((s.setDma tile chan rest).post tile (j.d.ring % 4096) 14 (.dmaDone j.d.tag j.status j.done))) ∧
  (∀ (s : State) (tile : Nat) (c : Instr), tile < s.variant.tiles → s.flag (dieC tile) Reg.CMT_STATUS_BUSY = true →
    c ∈ [.cmtClean tile, .cmtInvalidate tile, .cmtCleanInv tile] → exec c s = .next (s.setFlag (dieC tile) Reg.CMT_STATUS_LOST true)) ∧
  (∀ (s : State) (tile : Nat) (c : Instr) (wb drop : Bool), tile < s.variant.tiles → s.flag (dieC tile) Reg.CMT_STATUS_BUSY = false →
    Memory.wf s.mem = true → s.hrd.cache.rising = true →
    (c, wb, drop) ∈ [(Instr.cmtClean tile, true, false), (.cmtInvalidate tile, false, true), (.cmtCleanInv tile, true, true)] →
    ∃ t : State, exec c s = .next (t.setFlag (dieC tile) Reg.CMT_STATUS_BUSY true) ∧ t = { s with mem := t.mem, hrd := { s.hrd with cache := t.hrd.cache } } ∧
      ∀ a, let within := s.fld (dieC tile) Reg.CMT_LO_ADDR ≤ a / 64 * 64 ∧ a / 64 * 64 ≤ s.fld (dieC tile) Reg.CMT_HI_ADDR
        (∀ b, s.hrd.cache.find? a = some (b, true) → within → wb = true → t.load a = b) ∧
        ((∀ b, s.hrd.cache.find? a ≠ some (b, true)) ∨ ¬ within ∨ wb = false → t.load a = s.load a) ∧
        (within → drop = true → t.hrd.cache.find? a = none) ∧
        (within → drop = false → t.hrd.cache.find? a = (s.hrd.cache.find? a).map fun x => (x.1, false)) ∧
        (¬ within → t.hrd.cache.find? a = s.hrd.cache.find? a)) ∧
  (∀ (s : State) (tile : Nat), s.flag (dieC tile) Reg.CMT_STATUS_BUSY = true →
    exec (.cmtDone tile) s = .next ((s.setFlag (dieC tile) Reg.CMT_STATUS_BUSY false).setFlag (dieC tile) Reg.CMT_STATUS_DONE true))

/-- A ring of a tile to (0) or from (1) cores, in use, of a cluster that no divergence has stopped. -/
def RingWorks (s : State) (tile cluster r dir : Nat) : Prop :=
  tile < s.variant.tiles ∧ r < 4096 ∧ s.ringValid tile r = true ∧ s.ringDir tile r = dir ∧ s.hrd.stopped.getD (tile * 4 + cluster) false = false

/-- R568, R570 to R572, R575 to R578, R580: rings, ticks, watchdogs and the replay capture. -/
def Obligations.RingsTicksWatchdogsAndCapture : Prop :=
  (∀ (s : State) (tile cluster core r cons : Nat), RingWorks s tile cluster r 0 →
    let c := cluster * 8 + core
    let f := Reg.HRD_RING_CONS.plus (8 * r)
    let x := s.ring tile r
    let n := (cons + 2 ^ 20 - s.fld (dieC tile) f) % 2 ^ 20
    let u := (s.setRing tile r { x with msgs := x.msgs.drop n }).setFld (dieC tile) f cons
    let att := fun (t : State) (m : RingMsg) => match m.attach with
      | some (a, len) => t.capture tile (.att c (t.loads a (min len 4096)))
      | none => t
    (s.replaying tile = false → exec (.ringConsume tile cluster core r cons) s = .next (State.drainRing
      (if s.ringCapture tile r then (x.msgs.take n).foldl att (u.capture tile (.msg c r (x.msgs.take n))) else u) tile r (x.waiting.length + 1))) ∧
    (s.replaying tile = true → exec (.ringConsume tile cluster core r cons) s = .next ((s.deliverReplay tile c r).setFld (dieC tile) f cons))) ∧
  (∀ (s : State) (tile cluster core r cons : Nat), RingWorks s tile cluster r 1 → exec (.ringConsume tile cluster core r cons) s = .next s) ∧
  (∀ (s : State) (tile cluster core r : Nat) (l : List Bytes), RingWorks s tile cluster r 0 → exec (.ringPost tile cluster core r l) s = .next s) ∧
  (∀ (s : State) (tile cluster core r : Nat) (l : List Bytes), RingWorks s tile cluster r 1 →
    let c := cluster * 8 + core
    let f := Reg.HRD_RING_PROD.plus (8 * r)
    let p := s.fld (dieC tile) f
    let l := l.map (padTo 64)
    let t := (s.writeSlots tile r p l).setFld (dieC tile) f (p + l.length)
    let x := t.ring tile r
    let u := t.setRing tile r (.mk (x.msgs ++ l.map fun b => { t.msgOf tile cluster (.work b) with seq := x.posted }) x.waiting (x.posted + l.length) x.missed x.halted)
    (s.replaying tile = false → exec (.ringPost tile cluster core r l) s =
      .next (if t.ringCapture tile r && t.flag (dieC tile) Reg.RPL_CTRL_OUT_EN then u.capture tile (.out c r l) else u)) ∧
    (s.replaying tile = true → exec (.ringPost tile cluster core r l) s = .next (if t.ringCapture tile r then
      (match t.takeReplay tile c with
        | some (.out _ r' sl, v) => if r' = r ∧ sl = l then v else v.diverge tile c
        | some (_, v) => v.diverge tile c
        | none => t.diverge tile c) else t))) ∧
  (∀ (s : State) (tile core : Nat), s.Ordered →
    let t := s.diverge tile core
    t.flag (dieC tile) Reg.RPL_STATUS_DIVERGED = true ∧ t.hrd.stopped.getD (tile * 4 + core / 8) false = true ∧ t.mem = s.mem) ∧
  (∀ (s : State) (tile cluster : Nat), tile < s.variant.tiles → cluster < 4 →
    (max 1 (s.fld (dieC tile) Reg.HRD_CTRL_TICK_US)) * 1000 ≤ s.ao.tb - s.hrd.tickAt.getD (tile * 4 + cluster) 0 →
    let u : State := { s with hrd := { s.hrd with tickAt := s.hrd.tickAt.insert (tile * 4 + cluster) s.ao.tb } }
    let r := s.fld (dieC tile) (Reg.HRD_TICK_RING.plus (8 * cluster))
    let x := s.ring tile r
    (s.ringValid tile r = false → exec (.tick tile cluster) s = .next u) ∧
    (s.ringValid tile r = true → s.ringSlots tile r ≤ x.msgs.length →
      exec (.tick tile cluster) s = .next (u.setRing tile r { x with missed := x.missed + 1 })) ∧
    (s.ringValid tile r = true → x.msgs.length < s.ringSlots tile r →
      exec (.tick tile cluster) s = .next ((u.setRing tile r { x with missed := 0 }).post tile r 0xFF (.tick x.missed)))) ∧
  (∀ (s : State) (tile r mid : Nat) (b : RingBody), s.ringValid tile r = true → (s.ring tile r).halted = false → s.frozen tile 13 0 = false →
    (s.ring tile r).waiting = [] →
    let m := s.msgOf tile mid b
    let x := s.ring tile r
    let a := s.ringBase tile r + s.fld (dieC tile) (Reg.HRD_RING_PROD.plus (8 * r)) % s.ringSlots tile r * 64
    (s.ringSlots tile r ≤ x.msgs.length →
      s.post tile r mid b = (s.setRing tile r { x with waiting := [m] }).addFld (dieC tile) Reg.HRD_STATUS_FULL_WAITS 1) ∧
    (x.msgs.length < s.ringSlots tile r → s.windowFault tile 13 a .write = none →
      let n := { m with seq := x.posted }
      s.post tile r mid b = ((s.stores a n.bytes).setRing tile r (.mk (x.msgs ++ [n]) [] (x.posted + 1) x.missed false)).setFld (dieC tile)
        (Reg.HRD_RING_PROD.plus (8 * r)) (s.fld (dieC tile) (Reg.HRD_RING_PROD.plus (8 * r)) + 1))) ∧
  (∀ (s : State) (tile cluster : Nat) (val : Word), s.Ordered → tile < s.variant.tiles → cluster < 4 →
    let d := dieC tile
    let fresh := s.flag d (Reg.HRD_WDOG_EN.plus (8 * cluster)) = false
    ∃ t u : State, exec (.watchdogArm tile cluster val) s = .next t ∧ exec (.watchdogKick tile cluster val) s = .next u ∧
      t.flag d (Reg.HRD_WDOG_EN.plus (8 * cluster)) = true ∧
      (∀ v ∈ [t, u], v = { s with regs := v.regs, hrd := { s.hrd with wdog := v.hrd.wdog } } ∧
        v.fld d (Reg.HRD_WDOG_TIMEOUT_US.plus (8 * cluster)) =
          (if s.flag d (Reg.HRD_WDOG_EN.plus (8 * cluster)) then s.fld d (Reg.HRD_WDOG_TIMEOUT_US.plus (8 * cluster)) else bitsAt val 32 32)) ∧
      (fresh → t.hrd.wdog.find? (tile * 4 + cluster) = some s.ao.tb) ∧ u.hrd.wdog.find? (tile * 4 + cluster) = some s.ao.tb) ∧
  (∀ (s : State) (tile cluster : Nat), tile < s.variant.tiles → cluster < 4 →
    let d := dieC tile
    let off := 8 * cluster
    s.flag d (Reg.HRD_WDOG_EN.plus off) = true → s.flag d (Reg.HRD_WDOG_EXPIRED.plus off) = false →
    max 1 (s.fld d (Reg.HRD_WDOG_TIMEOUT_US.plus off)) * 1000 ≤ s.ao.tb - s.hrd.wdog.getD (tile * 4 + cluster) 0 →
    exec (.watchdogExpiry tile cluster) s = .next ((s.setFlag d (Reg.HRD_WDOG_EXPIRED.plus off) true).raiseFault 0x04 d 0x38)) ∧
  (∀ (s : State) (tile : Nat) (val : Word), tile < s.variant.tiles →
    let on := s.writeRpl tile (setBits val 0 1 1)
    let off := fun (t : State) => (t.writeRpl tile (setBits val 0 1 0)).setFlag (dieC tile) Reg.RPL_STATUS_RUNNING false
    exec (.captureStart tile val) s = .next (if s.flag (dieC tile) Reg.RPL_CTRL_EN then on else on.capStart tile) ∧
    exec (.captureStop tile val) s = .next (off (if s.flag (dieC tile) Reg.RPL_STATUS_RUNNING then s.capture tile .stop else s))) ∧
  (∀ (s : State) (tile addr pages : Nat), tile < s.variant.tiles → s.flag (dieC tile) Reg.RPL_STATUS_RUNNING = true → s.frozen tile 12 0 = false →
    exec (.captureSnap tile addr pages) s = .next (match s.rangeFault tile 12 addr (pages * 4096) .read with
      | none => s.capture tile (.snap addr (s.loads addr (pages * 4096)))
      | some (a, c) => ((s.setFlag (dieC tile) Reg.RPL_STATUS_RUNNING false).setFlag (dieC tile) Reg.RPL_STATUS_FAULT true).channelFault tile 12 0 a .read c)) ∧
  (∀ (s : State) (tile : Nat),
    let u := s.setFlag (dieC tile) Reg.RPL_STATUS_RUNNING true
    s.capStart tile = State.capture { u with hrd := { s.hrd with cap := s.hrd.cap.erase tile, capPos := s.hrd.capPos.erase tile } } tile
      (.start (u.measurement 2) (u.fld dieB Reg.BOOT_FORMAT_FORMAT) s.variant.code tile)) ∧
  (∀ (s : State) (tile : Nat) (r : CapRec), s.flag (dieC tile) Reg.RPL_STATUS_RUNNING = false ∨ s.frozen tile 12 0 = true → s.capture tile r = s) ∧
  (∀ (s : State) (tile : Nat) (r : CapRec), s.flag (dieC tile) Reg.RPL_STATUS_RUNNING = true → s.frozen tile 12 0 = false →
    let size := s.fld (dieC tile) Reg.RPL_SIZE_MIB * 2 ^ 20
    let o := s.hrd.capPos.getD tile 0 % size
    let base := s.fld (dieC tile) Reg.RPL_BASE_ADDR
    let b := r.bytes (s.stamp (dieC tile) 11)
    let m := min b.length (size - o)
    let stop := s.flag (dieC tile) Reg.RPL_CTRL_MODE
    (stop = true → 0 < size → size < s.hrd.capPos.getD tile 0 + r.size →
      s.capture tile r = (s.capWrite tile .stop).setFlag (dieC tile) Reg.RPL_STATUS_RUNNING false) ∧
    (stop = false → size < r.size → let u := s.addFld (dieC tile) Reg.RPL_STATUS_GAPS 1
      s.capture tile r = { u with hrd := { u.hrd with lost := u.hrd.lost.modD tile 0 (· + 1) } }) ∧
    (stop = false ∨ s.hrd.capPos.getD tile 0 + r.size ≤ size → r.size ≤ size → s.hrd.lost.getD tile 0 = 0 →
      s.rangeFault tile 12 (base + o) m .write = none → s.rangeFault tile 12 base (b.length - m) .write = none →
      let t := (s.stores (base + o) (b.take m)).stores base (b.drop m)
      s.capture tile r = { t with hrd := { t.hrd with
        capPos := t.hrd.capPos.insert tile (t.hrd.capPos.getD tile 0 + b.length)
        cap := t.hrd.cap.insert tile (dropOldest size (t.hrd.cap.getD tile [] ++ [r])) } }))

/-! ## Role commands, the start, attestation and mailboxes (spec/14, spec/15) -/

/-- The role commands over one transport, what their envelopes say, and their CODE, ROLE and TARGET of R617. -/
def RoleRow (via : Via) (e : RoleEnv) (c : Instr) (w : RoleBody) (row : Nat × Nat × Nat) : Prop :=
  (c = .getChallenge via e ∧ w = .getChallenge ∧ row = (0x01, 0, 0)) ∨ (c = .getCalrow via e ∧ w = .getCalrow ∧ row = (0x02, 0, 0)) ∨
    (∃ x, c = .install via e x ∧ w = .install x ∧ row = (0x10, 2, 0)) ∨ (∃ k x, c = .setOpkey via e k x ∧ w = .setOpkey k x ∧ row = (0x11, 2, 1)) ∨
    (∃ k, c = .revokeOpkey via e k ∧ w = .revokeOpkey k ∧ row = (0x12, 2, 1)) ∨ (c = .clearEvr via e ∧ w = .clearEvr ∧ row = (0x13, 2, 0)) ∨
    (∃ o p q r, c = .layout via e o p q r ∧ w = .layout o p q r ∧ row = (0x14, 2, 1)) ∨ (c = .epochReinit via e ∧ w = .epochReinit ∧ row = (0x15, 2, 1)) ∨
    (c = .clearDeferred via e ∧ w = .clearDeferred ∧ row = (0x16, 2, 1)) ∨
    (∃ a k n b, c = .nsCreate via e a k n b ∧ w = .nsCreate a k n b ∧ row = (0x20, 3, 1)) ∨
    (∃ k, c = .nsDelete via e k ∧ w = .nsDelete k ∧ row = (0x21, 3, 1)) ∨ (∃ k, c = .nsDisable via e k ∧ w = .nsDisable k ∧ row = (0x22, 3, 1)) ∨
    (∃ k, c = .nsEnable via e k ∧ w = .nsEnable k ∧ row = (0x23, 3, 1)) ∨ (∃ k, c = .c0Resident via e k ∧ w = .c0Resident k ∧ row = (0x24, 3, 1)) ∨
    (∃ l, c = .adminHosts via e l ∧ w = .adminHosts l ∧ row = (0x25, 3, 1)) ∨ (∃ k, c = .snapCreate via e k ∧ w = .snapCreate k ∧ row = (0x26, 3, 1)) ∨
    (∃ k, c = .snapDelete via e k ∧ w = .snapDelete k ∧ row = (0x27, 3, 1)) ∨
    (∃ k a, c = .cloneCreate via e k a ∧ w = .cloneCreate k a ∧ row = (0x28, 3, 1)) ∨
    (∃ k n a, c = .replSession via e true k n a ∧ w = .replCreate k n a ∧ row = (0x29, 3, 1)) ∨
    (∃ k n a, c = .replSession via e false k n a ∧ w = .replEnd k n ∧ row = (0x29, 3, 1)) ∨
    (∃ k, c = .domainCreate via e k ∧ w = .domainCreate k ∧ row = (0x2A, 3, 1)) ∨ (∃ k, c = .keyRotate via e k ∧ w = .keyRotate k ∧ row = (0x2B, 3, 1)) ∨
    (∃ k x y, c = .domainExport via e k x y ∧ w = .domainExport k x y ∧ row = (0x2C, 3, 1)) ∨
    (∃ k x, c = .domainImport via e k x ∧ w = .domainImport k x ∧ row = (0x2D, 3, 1)) ∨
    (∃ x m, c = .enrolModule via e x m ∧ w = .enrolModule x m ∧ row = (0x2E, 3, 1)) ∨
    (∃ x, c = .unenrolModule via e x ∧ w = .unenrolModule x ∧ row = (0x2F, 3, 1)) ∨ (c = .activate via e ∧ w = .activate ∧ row = (0x30, 3, 0)) ∨
    (c = .thermalResume via e ∧ w = .thermalResume ∧ row = (0x31, 3, 0)) ∨ (c = .debugUnlock via e ∧ w = .debugUnlock ∧ row = (0x40, 1, 0))

/-- A management request is heard, and its command is looked at. -/
def MgmtPasses (s : State) (h : MgmtHdr) (cmd : Nat) : Prop := s.mgmtHeard h = true ∧ s.mgmtGate h cmd = none

/-- An admin command that its queue takes enters with the checks of its arrival and of its SGL, `len` bytes long (R100, R105). -/
def Sys2Proof.Machine.State.entersAdmin (s : State) (cap : Cap) (q : Queue) (op : HostOp) (len : Nat) : State :=
  let u := s.arrived cap
  u.enterCmd cap q op q.cls [] false ((firstFail [u.arrivalFault cap q false, if cap.fuse != .single then some ⟨0, 0x02⟩ else none,
    sglCheck cap (u.flag (dieF cap.fdie) Reg.NVF_CTRL_INCAPS_EN) (some len)]).map fun x => (x, 0)) none

/-- The challenges that have lapsed, and the one that an envelope presents, are dropped (R614). -/
def Sys2Proof.Machine.State.presented (s : State) (c : Bytes) : State :=
  let l := s.boot.challenges.filter fun x => decide (s.ao.tb - x.2 < 600 * 10 ^ 9)
  let u : State := { s with boot := { s.boot with challenges := l } }
  let v : State := u.countChallenges
  ({ v with boot := { v.boot with challenges := l.filter fun x => x.1 != c } } : State).countChallenges

/-- R613 to R620: role commands arrive over either transport and are checked; RESULT, the registers, the event record and the reply of each. -/
def Obligations.RoleEnvelopesAreChecked : Prop :=
  (∀ (s : State) (h : MgmtHdr) (e : RoleEnv) (c : Instr) (w : RoleBody) (row : Nat × Nat × Nat), RoleRow (.mgmt h) e c w row →
    (w.code = row.1 ∧ roleFor row.1 = row.2.1 ∧ targetFor row.1 = row.2.2 ∧ (w.byCpf = true ↔ row.2.2 = 1 ∧ row.1 ∉ [0x2C, 0x2D])) ∧
    (MgmtPasses s h 7 → exec c s = .next (s.roleRun (.mgmt h.udp h.ep) e w).settle) ∧
    (∀ st, s.mgmtHeard h = true → s.mgmtGate h 7 = some st → exec c s = .next (s.mgmtReply h 7 st []).settle)) ∧
  (∀ (s : State) (cap : Cap) (q : Queue) (e : RoleEnv) (c : Instr) (w : RoleBody) (row : Nat × Nat × Nat), RoleRow (.nvme cap) e c w row →
    HostTakes s cap q → exec c s = .next (s.entersAdmin cap q (.role e w) (64 + e.body.length + e.pub.length + e.sig.length)).settle) ∧
  (∀ (s : State) (c : Cmd) (k : Ctrl) (e : RoleEnv) (b : RoleBody), s.host.ctrls.find? c.tag.cntlid = some k → c.op = .role e b →
    s.adminAny c = s.roleRun (.nvme c.tag.num) e b) ∧
  (∀ (s : State) (src : RoleFrom) (e : RoleEnv) (b : RoleBody),
    let u := s.presented e.challenge
    let held := s.boot.challenges.any fun x => x.1 == e.challenge && decide (s.ao.tb - x.2 < 600 * 10 ^ 9)
    let ends := fun (t : State) (r : Nat) (reply : Bytes) => t.roleEnd src b.code e.role e.keyidx e.target e.serial r reply
    (u.roleCheck e b held ≠ 0 → s.roleRun src e b = ends u (u.roleCheck e b held) []) ∧
    (u.roleCheck e b held = 0 →
      let v := u.addFld dieB Reg.ROLE_STATUS_ACCEPTED 1
      let refused := (v.boot.phase = .uninstalled ∧ b.code ∉ [0x01, 0x02, 0x10, 0x40]) ∨ (b.code ∈ [0x10, 0x13, 0x30, 0x31, 0x40] ∧ v.norWindow = false) ∨
        (b.byCpf = true ∧ v.pair.head ≠ .twin ∧ v.pair.head ≠ .solo)
      let t := (v.cpfRun b).2
      let w := ends (v.mfwRun e b).2.2 (v.mfwRun e b).1 (v.mfwRun e b).2.1
      s.roleRun src e b = if refused then ends v 4 []
        else if b.byCpf = true then { t with boot := { t.boot with jobs := t.boot.jobs ++ [{
          src := src, code := b.code, role := e.role, keyidx := e.keyidx, target := e.target, serial := e.serial, msg := e.message b.code,
          result := (v.cpfRun b).1, lsn := t.ftl.nextLsn, tag := none }] } }
        else if (v.mfwRun e b).1 = 0 then w.roleAfter b else w)) ∧
  (∀ (s : State) (e : RoleEnv) (b : RoleBody) (held : Bool),
    let serial := if e.target = 0 then s.serial else zeros 16
    (e.consistent b = false → s.roleCheck e b held = 1) ∧
    (e.consistent b = true → s.roleKeyOk e b = false ∨ e.role ≠ roleFor b.code → s.roleCheck e b held = 2) ∧
    (e.consistent b = true → s.roleKeyOk e b = true → e.role = roleFor b.code → e.target ≠ targetFor b.code ∨ e.serial ≠ serial → s.roleCheck e b held = 1) ∧
    (e.consistent b = true → s.roleKeyOk e b = true → e.role = roleFor b.code → e.target = targetFor b.code → e.serial = serial →
      s.roleCheck e b held = if b.code ≤ 2 then 0 else if held = false then 3 else if sigOk e.pub "VX8-ROLE" (e.message b.code) e.sig then 0 else 2)) ∧
  (∀ (s : State) (e : RoleEnv) (b : RoleBody), (∀ x, b ≠ .install x) →
    (e.role = 1 → s.roleKeyOk e b = (keyDigest e.pub == makerDigest)) ∧
    (e.role = 2 → s.roleKeyOk e b = (s.otp.instLock && keyDigest e.pub == s.otp.instDigest)) ∧
    (e.role = 3 → s.roleKeyOk e b = (s.boot.opkeys.find? e.keyidx == some (keyDigest e.pub)))) ∧
  (∀ (s : State) (src : RoleFrom) (code role keyidx target result : Nat) (serial reply : Bytes),
    s.roleEnd src code role keyidx target serial result reply =
      (((s.roleRegs code role keyidx result).mfwEvent 0x0010 (le 1 code ++ le 1 role ++ le 1 keyidx ++ le 1 result ++ le 1 target ++ zeros 3 ++ padTo 16 serial)).roleReply
        src result reply)) ∧
  (∀ (s : State) (code role keyidx result : Nat), s.Ordered →
    let t := s.roleRegs code role keyidx result
    t = { s with regs := t.regs } ∧ t.fld dieB Reg.ROLE_STATUS_LAST_CODE = code % 2 ^ Reg.ROLE_STATUS_LAST_CODE.w ∧
    t.fld dieB Reg.ROLE_STATUS_LAST_RESULT = result % 2 ^ Reg.ROLE_STATUS_LAST_RESULT.w)

/-- R101, R224, R235, R463, R470, R471, R474, R614, R617, R620, R622 to R625, R647, R654: what the role commands do, and the RESULT of each. -/
def Obligations.RoleCommandsHaveTheirEffects : Prop :=
  (∀ (s : State) (e : RoleEnv), ∃ t : State, let c := (padTo 32 (Config.drbg s.free 32) : Bytes)
    s.mfwRun e .getChallenge = (0, c, t) ∧ c.length = 32 ∧ t.boot.challenges = ((s.boot.challenges ++ [(c, s.ao.tb)]).reverse.take 8).reverse ∧
    t = { s with regs := t.regs, free := s.free + 1, boot := { s.boot with challenges := t.boot.challenges } }) ∧
  (∀ (s : State) (e : RoleEnv), s.mfwRun e .getCalrow = (0, s.calRow, s) ∧ s.calRow.length = 16384) ∧
  (∀ (s : State) (e : RoleEnv) (took : Bytes),
    let want := keyDigest e.pub ++ le 4 (crc32c (keyDigest e.pub)).toNat
    let t := (s.mfwRun e (.install took)).2.2
    (s.otp.instLock = true → s.mfwRun e (.install took) = (4, [], s)) ∧
    (s.otp.instLock = false → (∀ i, i < 36 → t.otp.inst.getD i 0 = (s.otp.inst.getD i 0 ||| (want.getD i 0 &&& took.getD i 0))) ∧
      (s.mfwRun e (.install took)).1 = (if t.otp.inst = want then 0 else 6) ∧ t.otp.instLock = decide (t.otp.inst = want)) ∧
    s.roleAfter (.install took) = s.resetB) ∧
  (∀ (s : State) (e : RoleEnv), (s.evrFrozen = true → s.mfwRun e .clearEvr = (4, [], s)) ∧
    (s.evrFrozen = false → s.mfwRun e .clearEvr = (0, [], (s.clearedRecord s.nor.events.length).writeHeld))) ∧
  (∀ (s : State) (e : RoleEnv),
    let k := 1 - s.booted
    let t := s.writeHdr k { (s.norSlot k).head with state := 2, tries := 2, gen := (s.norSlot s.booted).head.gen + 1 }
    s.mfwRun e .activate = if s.activatable then (0, [], { t with boot := { t.boot with activation := true } }) else (4, [], s)) ∧
  (∀ (s : State), let h := (s.norSlot (1 - s.booted)).head
    s.pair.head ≠ .twin ∨ s.pair.partner ≠ some .twin ∨ (h.state ≠ 1 ∧ h.state ≠ 3) ∨ (h.state = 3 ∧ (s.norSlot s.booted).head.gen ≤ h.gen) → s.activatable = false) ∧
  (∀ (s : State) (e : RoleEnv), (s.thm.calmSince = none → s.mfwRun e .thermalResume = (4, [], s)) ∧
    (∀ t, s.thm.calmSince = some t → 60 * 10 ^ 9 ≤ s.ao.tb - t → s.pair.head = .thermalHold ∨ (s.pair.head = .boot ∧ s.ao.tripLatched = true) →
      ∃ u, s.mfwRun e .thermalResume = (0, [], u) ∧ u.ao.tripLatched = false ∧ u.pair = s.pair ∧ (s.boot.phase = .tripWait → u.boot.phase = .resumed) ∧
        (s.boot.phase ≠ .tripWait → u.boot.phase = s.boot.phase)) ∧
    (s.roleAfter .thermalResume = if s.pair.head = .thermalHold then s.headReset 6 else s)) ∧
  (∀ (s : State) (e : RoleEnv), (16 ≤ s.otp.wrapGen → s.mfwRun e .debugUnlock = (6, [], s)) ∧
    (s.otp.wrapGen < 16 → s.pair.head ∉ [.boot, .fawn, .fenced, .thermalHold] → s.mfwRun e .debugUnlock = (4, [], s)) ∧
    (s.otp.wrapGen < 16 → s.pair.head ∈ [.boot, .fawn, .fenced, .thermalHold] → s.Ordered → ∃ u, s.mfwRun e .debugUnlock = (0, [], u) ∧
      u.otp = { s.otp with wrapGen := s.otp.wrapGen + 1 } ∧ u.boot.awk = none ∧ u.boot.opkeys = [] ∧ u.dst.awk = [] ∧ u.dst.fpSlots = [] ∧ u.dst.xtsSlots = [] ∧
      u.keys.dge = [] ∧ u.keys.slots = [] ∧ u.keys.kcu = [] ∧ u.keys.gcm = [] ∧ u.flag dieB Reg.BOOT_CTRL_JTAG_EN = true ∧ u.mem = s.mem)) ∧
  (∀ (s : State) (e : RoleEnv) (d : Nat) (report row reply : Bytes),
    (s.pair.head ≠ .twin → s.pair.head ≠ .solo → s.mfwRun e (.domainExport d report row) = (4, [], s) ∧ s.mfwRun e (.domainImport d reply) = (4, [], s)) ∧
    (s.serves = true →
      let x := Config.kemEncap (reportEk report) s.free
      let ss := Config.kemDecap s.kemSeed (reply.take 1568)
      s.mfwRun e (.domainExport d report row) = (if s.reportOk report row e.challenge = false then (2, [], s) else match s.domRec d with
        | none => (5, [], s)
        | some r => (0, padTo 1568 x.1 ++ kwpWrap (carryKey "VX8-XPORT" x.2 (rowSerial row)) (le 2 d ++ zeros 6 ++ padTo 32 r.icv ++ padTo 32 r.ocv),
            { s with free := s.free + 1 })) ∧
      (s.hasDomain d = true ∨ reply.length ≠ 1648 → s.mfwRun e (.domainImport d reply) = (5, [], s)) ∧
      (s.hasDomain d = false → reply.length = 1648 → s.mfwRun e (.domainImport d reply) =
        match s.boot.awk, kwpUnwrap (carryKey "VX8-XPORT" ss s.serial) (reply.drop 1568) with
        | some awk, some pt => if pt.length ≠ 72 then (5, [], s) else
            let x := s.drawGen d 0
            match x.1 with
            | none => (5, [], x.2)
            | some g =>
              let w := kwpWrap awk (KeyRec.mk d ((pt.drop 8).take 32) ((pt.drop 40).take 32) [g]).bytes
              (0, w, x.2.log (.change (.domKey d w [0] false)))
        | _, _ => (5, [], s)))) ∧
  (∀ (s : State), s.serves = true →
    let did := fun (c : MetaChange) => (0, s.log (.change c))
    (∀ k x, s.cpfRun (.setOpkey k x) = did (.opkey k (some x)) ∧ s.cpfRun (.revokeOpkey k) = did (.opkey k none)) ∧
    (∀ w t ev, s.cpfRun (.layout w t none ev) = did (.layout { width := w, target := t, roster := none, evac := ev })) ∧
    (∀ w t r ev, s.cpfRun (.layout w t (some r) ev) = if s.pair.head = .twin then did (.layout { width := w, target := t, roster := some r, evac := ev }) else (4, s)) ∧
    s.cpfRun .epochReinit = (if s.epoch = 0xFFFFFFFF then did .epochInit else (4, s)) ∧ s.cpfRun .clearDeferred = did .clearDeferred ∧
    (∀ l, s.cpfRun (.adminHosts l) = did (.admins l)) ∧
    (∀ ser, s.cpfRun (.unenrolModule ser) = if s.arr.modules.has (ofLe ser) then did (.enrolled ser none) else (5, s)) ∧
    (∀ kv blocks domain media, s.cpfRun (.nsCreate kv blocks domain media) = match s.freeNsid with
      | none => (6, s)
      | some n => (0, s.createNs n (.fresh kv blocks domain media))) ∧
    (∀ k, s.ns k = none → s.cpfRun (.nsDelete k) = (5, s) ∧ s.cpfRun (.nsDisable k) = (5, s) ∧ s.cpfRun (.nsEnable k) = (5, s) ∧
      s.cpfRun (.c0Resident k) = (5, s) ∧ s.cpfRun (.snapCreate k) = (5, s)) ∧
    (∀ k x, s.ns k = some x → x.removing = none → x.releasing = false →
      s.cpfRun (.nsDelete k) = (if s.baseOfClone k then (5, s) else (0, s.beginRemoval k none true)) ∧
      s.cpfRun (.nsDisable k) = (0, s.beginRemoval k none false) ∧
      s.cpfRun (.nsEnable k) = (0, ((s.setNs k { x with disabled := false }).log (.nsrec k (some { x with disabled := false }))).nsChanged k) ∧
      s.cpfRun (.c0Resident k) = (if x.kv then (5, s) else
        (0, (({ s with ftl := { s.ftl with c0 := s.ftl.c0.erase k } } : State).setNs k { x with c0 := true }).log (.nsrec k (some { x with c0 := true })))) ∧
      (x.deleting = false → s.cpfRun (.snapCreate k) = if 1024 ≤ x.snaps.length ∨ 65536 ≤ s.snapCount then (6, s)
        else (0, s.putNs k { x with snaps := x.snaps.insert s.freeSnapId { epoch := s.ao.tb, state := .pending, side := s.side } }))) ∧
    (∀ i ro, s.findSnap i = none → s.cpfRun (.snapDelete i) = (5, s) ∧ s.cpfRun (.cloneCreate i ro) = (5, s)) ∧
    (∀ i ro k n x, s.findSnap i = some (k, n, x) →
      (x.state ≠ .ready → s.cpfRun (.snapDelete i) = (5, s) ∧ s.cpfRun (.cloneCreate i ro) = (5, s)) ∧
      (x.state = .ready → s.cpfRun (.snapDelete i) = (if s.hasClone k i then (5, s)
        else (0, (s.putNs k { n with snaps := n.snaps.insert i { x with state := .deleting, side := s.side } }).snapNext k))) ∧
      (x.state = .ready → n.deleting = false → n.releasing = false → s.cpfRun (.cloneCreate i ro) = match s.freeNsid with
        | none => (6, s)
        | some j => (0, s.createNs j { NsRec.fresh n.kv n.blocks n.domain n.mediaDur with base := some (k, i), readOnly := ro, root := n.root, index := n.index }))) ∧
    (∀ f a r, s.variant.sides ≤ f ∨ s.readDesc a = none → s.cpfRun (.replCreate f a r) = (5, s)) ∧
    (∀ f a r d, f < s.variant.sides → s.readDesc a = some d → (s.ns d.nsid).isSome = true →
      let t := s.sessCreate f a
      let err := t.fld (dieF f) Reg.PGT_SESSRES_ERR
      s.cpfRun (.replCreate f a r) = if err = 0 then (0, if r then t.markReplica d.nsid true else t) else (if err = 1 then 6 else 5, t)) ∧
    (∀ f k, s.sess (sessKey f k) = none → s.cpfRun (.replEnd f k) = (5, s)) ∧
    (∀ f k x, s.sess (sessKey f k) = some x → s.cpfRun (.replEnd f k) = (0, (s.sessDestroy f k).markReplica x.d.nsid false)) ∧
    (∀ d, s.boot.awk = none → s.cpfRun (.domainCreate d) = (5, s) ∧ s.cpfRun (.keyRotate d) = (5, s)) ∧
    (∀ d awk, s.boot.awk = some awk →
      s.cpfRun (.domainCreate d) = (if s.hasDomain d then (5, s) else match (s.newRec d).1 with
        | none => (5, (s.newRec d).2)
        | some r => (0, (s.newRec d).2.log (.change (.domKey d (kwpWrap awk r.bytes) [0] false)))) ∧
      s.cpfRun (.keyRotate d) = (match s.domRec d with
        | none => (5, s)
        | some r => if s.domPending d then (5, s) else if 4 ≤ r.gens.length then (6, s) else match s.nextGenOf r with
          | none => (6, s)
          | some n =>
            let x := s.drawGen d n
            match x.1 with
            | none => (5, x.2)
            | some g =>
              let l := r.gens ++ [g]
              (0, (x.2.useGen d n).log (.change (.domKey d (kwpWrap awk { r with gens := l }.bytes) (l.map KeyGen.gen) true))))) ∧
    (∀ ser g, s.boot.awk.isSome = true ∨ ser ≠ s.serial ∨ g ≠ s.otp.wrapGen → s.cpfRun (.enrolModule ser g) =
      did (.enrolled ser (some (match s.boot.awk with
        | some k => if ser = s.serial ∧ g = s.otp.wrapGen then s.ownCopy k
          else { wrapGen := g, awk := ((s.arr.modules.find? (ofLe ser)).filter fun m => m.wrapGen == g).bind ModuleRec.awk }
        | none => { wrapGen := g, awk := ((s.arr.modules.find? (ofLe ser)).filter fun m => m.wrapGen == g).bind ModuleRec.awk })))))

/-- R588, R597, R602, R603, R607, R612, R614, R618, R619, R621, R639, R640: the start, attestation, challenges and mailbox messages. -/
def Obligations.StartAttestationAndMailboxes : Prop :=
  (∀ (s : State) (x : StartIn),
    let u : State := { s with pins := { s.pins with sysRstN := true } }
    (s.pair.head = .boot → s.ao.bPower = true → s.ao.hold = false → s.ao.dump = none → s.norWindow = true →
      (s.boot.phase = .idle → exec (.bDieStart x) s = .next (u.bootRom x).settle) ∧
      (s.boot.phase = .resumed → exec (.bDieStart x) s = .next (u.startRest x).settle)) ∧
    (s.norWindow = false → exec (.bDieStart x) s = .next u.settle)) ∧
  (∀ (s : State) (x : StartIn),
    let v := (((s.setFlag dieB Reg.PWR_STATUS_PWR_GOOD true).railsUp [dieB]).finishErase).showOtp
    let hdr := fun (k : Nat) => if (if k = 0 then x.nor0 else x.nor1) then (v.norSlot k).hdr else none
    let shown := (v.showReason 0 (((hdr 0).map SlotHdr.reason).getD 0)).showReason 1 (((hdr 1).map SlotHdr.reason).getD 0)
    let is := fun (k st : Nat) => (hdr k).map SlotHdr.state = some st
    let trial := fun (k : Nat) => ∃ h, hdr k = some h ∧ h.state = 2 ∧ 0 < h.tries
    (∀ k h, k < 2 → trial k → (k = 1 → ¬ trial 0) → hdr k = some h → s.bootRom x = (shown.writeHdr k { h with tries := h.tries - 1 }).startSlot x k true) ∧
    (¬ is 0 2 → ¬ is 1 2 → ¬ is 0 3 → ¬ is 1 3 → s.bootRom x = shown.setPhase .waitImage) ∧
    (¬ is 0 2 → ¬ is 1 2 → is 0 3 → ¬ is 1 3 → s.bootRom x = shown.startSlot x 0 false) ∧
    (¬ is 0 2 → ¬ is 1 2 → ¬ is 0 3 → is 1 3 → s.bootRom x = shown.startSlot x 1 false) ∧
    (∀ a b, hdr 0 = some a → hdr 1 = some b → a.state = 3 → b.state = 3 → s.bootRom x = shown.startSlot x (if a.gen < b.gen then 1 else 0) false)) ∧
  (∀ (s : State) (x : StartIn) (k : Nat) (trial : Bool),
    let h := (s.norSlot k).head
    let b := (s.norSlot k).image 1 h.mfwLen
    let u := (s.setFld dieB Reg.BOOT_STATUS_SLOT k).setFlag dieB Reg.BOOT_STATUS_TRIAL trial
    let v := u.setFlag dieB Reg.BOOT_STATUS_FCR_OK true
    let bad := v.imgReason 1 h.mfwLen b [] (x.tapFaults.contains 1)
    let m := (v.measure 0 b).setFld dieB Reg.BOOT_SVN_MFW (imgSvn b)
    let svn := fun (kind : Nat) => imgSvn ((s.norSlot k).image kind (h.lenOf kind))
    let w := ({ m with boot := { m.boot with makerPub := imgPub b, record := m.decisionRecord k [svn 1, svn 2, svn 3] } } : State).mfwRuns
    s.startSlot x k trial = if shapeOk 1 h.mfwLen b = false then u.rejectSlot k 1 else if u.imgKeyOk 1 b = false then u.rejectSlot k 2
      else if u.rowOk (imgPub b) = false then u.setPhase .rowFailed else if bad ≠ 0 then v.rejectSlot k bad
      else if w.otp.instLock = false then w.setPhase .uninstalled else if w.ao.tripLatched then w.setPhase .tripWait else w.startRest x) ∧
  (∀ (s : State) (k reason : Nat), s.rejectSlot k reason =
    ((s.writeHdr k { (s.norSlot k).head with state := 4, reason := reason }).resetB).setFld dieB Reg.PWR_STATUS_LAST_CAUSE 5) ∧
  (∀ (s : State) (kind len : Nat) (b meas : Bytes) (tap : Bool),
    s.imgReason kind len b meas tap = if shapeOk kind len b = false then 1 else if s.imgKeyOk kind b = false then 2 else if tap then 6
      else if sigOk (imgPub b) (imgCtx kind) (b.take (imgSigned b)) (imgSig b) = false then 2 else if imgSvn b < s.otp.minOf kind then 3
      else if leAt b 6 1 / 2 ^ s.variant.bit % 2 = 0 then 4 else if kind = 2 ∧ approves b meas = false then 5 else 0) ∧
  (∀ (s : State) (addr v m : Nat), s.decodeCsr addr 8 = none → s.regInit (addr, v, m) = s.event dieB 0x01 0 noInst) ∧
  (∀ (s : State) (addr v m die blk off : Nat) (r : RegDesc), s.decodeCsr addr 8 = some (die, blk, off, r) → s.windowKey die blk off = none →
    s.regInit (addr, v, m) = if blk = 0x01 ∨ blk = 0x02 then s.event dieB 0x01 0 noInst
      else s.mfwWrite addr ((s.reg die blk off &&& ~~~BitVec.ofNat 64 m) ||| (BitVec.ofNat 64 v &&& BitVec.ofNat 64 m))) ∧
  (∀ (s : State), s.Ordered → ∃ t : State, exec .challengeLapse s = .next t ∧
    t.boot.challenges = s.boot.challenges.filter (fun c => decide (s.ao.tb - c.2 < 600 * 10 ^ 9)) ∧
    t = { s with regs := t.regs, boot := { s.boot with challenges := t.boot.challenges } } ∧
    t.fld dieB Reg.ROLE_STATUS_CHALLENGES = t.boot.challenges.length % 2 ^ Reg.ROLE_STATUS_CHALLENGES.w) ∧
  (∀ (s : State) (cap : Cap) (q : Queue) (len : Nat) (nonce : Bytes) (c : Instr) (op : HostOp) (n : Nat), HostTakes s cap q →
    (c, op, n) ∈ [(Instr.roleReplyRead cap len, HostOp.roleReply len, len), (.attestNonce cap nonce, .attestNonce (padTo 32 nonce), 32),
      (.attestReport cap len, .attestReport len, len), (.attestCalrow cap len, .attestCalrow len, len)] →
    exec c s = .next (s.entersAdmin cap q op n).settle) ∧
  (∀ (s : State) (c : Cmd) (k : Ctrl) (len : Nat) (nonce : Bytes), s.host.ctrls.find? c.tag.cntlid = some k →
    (c.op = .roleReply len → s.adminAny c = match k.reply with
      | none => s.finish c ⟨0, 0x0C⟩ 0
      | some r => s.answerData c (r.take (min 8192 len))) ∧
    (c.op = .attestNonce nonce → s.adminAny c = (s.setCtrl { k with nonce := some nonce }).finish c stOk 0) ∧
    (c.op = .attestReport len → s.adminAny c = match k.nonce with
      | none => s.finish c ⟨0, 0x0C⟩ 0
      | some n => if len < 5269 then s.finish c ⟨0, 0x0F⟩ 0 else (s.setCtrl { k with nonce := none }).answerData c (s.report n)) ∧
    (c.op = .attestCalrow len → s.adminAny c = if len < 16384 then s.finish c ⟨0, 0x0F⟩ 0 else s.answerData c s.calRow)) ∧
  (∀ (s : State) (m target : Nat), m < 8 → s.mbFull m = false →
    (s.boot.phase = .loaded → exec (.handoff m target) s =
      .next (s.sendMb m target 1 (le 8 s.variant.code ++ le 8 s.boot.herdAt ++ le 8 s.boot.cfgAt ++ le 8 s.boot.sectAt))) ∧
    (∀ c d v rest, s.thm.notices = (c, d, v) :: rest → exec (.mailboxNotice m target) s =
      .next (({ s with thm := { s.thm with notices := rest } } : State).sendMb m target 4 (le 4 c ++ le 4 d ++ le 8 v))) ∧
    (∀ j, (s.boot.jobs.find? fun j => j.tag.isNone) = some j →
      let u := s.sendMb m target 2 (j.msg.take 4080)
      let v : RoleJob := if 4080 < j.msg.length then { j with msg := j.msg.drop 4080 } else { j with tag := some s.thm.mbSeq }
      exec (.roleReq m target) s = .next { u with boot := { u.boot with jobs := u.boot.jobs.map fun x => if x = j then v else x } }) ∧
    (s.boot.activation = true → let u := ({ s with boot := { s.boot with activation := false } } : State).sendMb m target 7 (le 1 (1 - s.booted))
      exec (.activateMessage m target) s =
        .next (if u.pair.head = .twin ∧ u.pair.giving = none then (u.give u.fps (List.range 256)).settle else u))) ∧
  (∀ (s : State) (m target type : Nat) (body : Bytes), s.Ordered → m < 16 → body.length ≤ 4080 →
    let t := s.sendMb m target type body
    t.mbFull m = true ∧ t.readMb m = le 2 type ++ zeros 2 ++ le 4 s.thm.mbSeq ++ le 8 s.thm.mbSeq ++ body ∧ t.thm.mbSeq = s.thm.mbSeq + 1 ∧
    t.mem = s.mem ∧ t.boot = s.boot ∧ (∀ n, n < 16 → n ≠ m → t.mbFull n = s.mbFull n ∧ t.readMb n = s.readMb n) ∧
    t.hrd.irq.getD (target % 32) false = (if m < 8 ∧ target % 32 / 4 < s.variant.tiles then true else s.hrd.irq.getD (target % 32) false)) ∧
  (∀ (s : State) (m len target : Nat), m < 16 → exec (.mailboxSend m len target) s = .next (s.fillMb m len target)) ∧
  (∀ (s : State) (m tag : Nat) (b : Bytes) (t : State),
    (s.takeMb m 3 = some (tag, b, t) → ∀ j, (s.boot.jobs.find? fun j => j.tag == some tag) = some j → leAt b 8 1 = j.result → s.jobDone j = true →
      exec (.roleDone m) s = .next (State.settle (({ t with boot := { t.boot with jobs := t.boot.jobs.filter (· != j) } } : State).roleEnd j.src j.code j.role
        j.keyidx j.target j.serial j.result []))) ∧
    (s.takeMb m 5 = some (tag, b, t) → 514 ≤ b.length → ∃ u : State, exec (.opkeys m) s = .next u ∧
      (∀ i, u.boot.opkeys.find? i = if i < 16 ∧ leAt b 512 2 / 2 ^ i % 2 = 1 then some ((b.drop (32 * i)).take 32) else none) ∧
      u = { t with regs := u.regs, boot := { t.boot with opkeys := u.boot.opkeys } }) ∧
    (s.takeMb m 6 = some (tag, b, t) → exec (.awk m) s = .next (match kwpUnwrap t.wrapKey (b.take 40) with
      | some k => (t.setAwk k).settle
      | none => t))) ∧
  (∀ (s : State) (k : Bytes), let t := s.setAwk k
    t.boot.awk = some k ∧ (∀ i, i < s.variant.tiles → t.dst.awk.find? i = some k) ∧ t.keys = s.keys ∧ t.mem = s.mem)

/-! ## The management plane (spec/15) -/

/-- The B-die runs and answers MCTP control messages. -/
def McpRuns (s : State) : Prop := s.ao.bPower = true ∧ s.ao.hold = false ∧ s.boot.phase ≠ .idle

/-- A command carries this management request. -/
def MgmtCommand (h : MgmtHdr) (c : Instr) (cmd : Nat) : Prop :=
  (c = .getId h ∧ cmd = 0x00) ∨ (c = .getSensors h ∧ cmd = 0x01) ∨ (c = .getCounters h ∧ cmd = 0x02) ∨ (c = .evrFreeze h ∧ cmd = 0x03) ∨
    (∃ i, c = .evrRead h i ∧ cmd = 0x04) ∨ (c = .evrThaw h ∧ cmd = 0x05) ∨ (∃ i, c = .tripRead h i ∧ cmd = 0x06) ∨
    (∃ v n, c = .attest h v n ∧ cmd = 0x08) ∨ (∃ k n, c = .imgBegin h k n ∧ cmd = 0x09) ∨ (∃ o b, c = .imgWrite h o b ∧ cmd = 0x0A) ∨ (c = .imgEnd h ∧ cmd = 0x0B)

/-- R594, R626, R632, R633, R635 to R638, R649, R653: management requests and their replies, image transfer, I3C, MCTP control and JTAG. -/
def Obligations.ManagementRequestsAreAnswered : Prop :=
  (∀ (s : State), McpRuns s →
    let ans := fun (t : State) (cmd cc : Nat) (b : Bytes) => (.next (t.emit (.mctp cmd cc b)) : Res)
    (∀ oper eid, oper ≤ 1 → 8 ≤ eid → eid ≤ 254 → exec (.setEndpointId oper eid) s =
      ans { s with boot := { s.boot with eid := some eid } } 0x01 0 [0, BitVec.ofNat 8 eid, 0]) ∧
    (∀ oper eid, 1 < oper ∨ eid < 8 ∨ 254 < eid → exec (.setEndpointId oper eid) s = ans s 0x01 2 []) ∧
    exec .getEndpointId s = ans s 0x02 0 [BitVec.ofNat 8 (s.boot.eid.getD 0), 0, 0] ∧
    (∀ ty, exec (.getMctpVersionSupport ty) s = if ty ∈ [0xFF, 0x00, 0x7F] then ans s 0x04 0 (Config.mctpVersions ty) else ans s 0x04 0x80 []) ∧
    exec .getMessageTypeSupport s = ans s 0x05 0 [1, 0x7F] ∧
    (∀ n, exec (.getVendorMessageSupport n) s = if n = 0 then ans s 0x06 0 ([0xFF, 1] ++ be 4 Config.ien ++ le 2 Config.mctpCommandSet) else ans s 0x06 2 [])) ∧
  (∀ (s : State) (addr rd wr : Nat), s.ao.bPower = true →
    (∀ a, addr < 128 → a = none ∨ a = some (0x4E + s.side) → exec (.i3cDynamicAddress addr a) s = .next { s with boot := { s.boot with i3c := some addr } }) ∧
    (∀ a, a ≠ 0x4E + s.side → exec (.i3cDynamicAddress addr (some a)) s = .next s) ∧
    (256 ≤ rd → 256 ≤ wr → exec (.i3cMaxLengthSet rd wr) s = .next { s with boot := { s.boot with unit := 256 } }) ∧
    (rd < 256 ∨ wr < 256 → exec (.i3cMaxLengthSet rd wr) s = .next s)) ∧
  (∀ (s : State) (h : MgmtHdr) (c : Instr) (cmd : Nat), MgmtCommand h c cmd → (s.mgmtHeard h = false → exec c s = .next s) ∧
    (∀ st, s.mgmtHeard h = true → s.mgmtGate h cmd = some st → exec c s = .next (s.mgmtReply h cmd st []))) ∧
  (∀ (s : State) (h : MgmtHdr), s.mgmtHeard h = true ↔ s.ao.bPower = true ∧ s.ao.hold = false ∧ s.boot.phase ≠ .idle ∧ h.size ≤ 32784 ∧
    (if h.udp then s.flag dieB Reg.MPX_NET_EN = true else s.boot.eid ≠ none)) ∧
  (∀ (s : State) (h : MgmtHdr) (cmd : Nat), let img := cmd ∈ [0x09, 0x0A, 0x0B]
    let known := h.ok = true ∧ (h.ien = Config.ien ∨ (h.ien = 0 ∧ cmd = 0))
    (¬ known → s.mgmtGate h cmd = some 1) ∧
    (known → s.boot.phase = .waitImage → s.mgmtGate h cmd = if h.udp = false ∧ (img ∨ cmd = 0) then (if img ∧ s.pair.head = .thermalHold then some 5 else none) else some 5) ∧
    (known → s.boot.phase = .rowFailed → cmd ∉ [0x00, 0x01, 0x02, 0x04, 0x06] → s.mgmtGate h cmd = some 5) ∧
    (known → img → s.pair.head = .thermalHold → s.mgmtGate h cmd = some 5)) ∧
  (∀ (s : State) (h : MgmtHdr),
    let ok := fun (t : State) (cmd : Nat) (b : Bytes) => (.next (t.mgmtReply h cmd 0 b) : Res)
    let no := fun (cmd st : Nat) => (.next (s.mgmtReply h cmd st []) : Res)
    (MgmtPasses s h 0x00 → exec (.getId h) s = ok s 0x00 (s.serial ++ le 1 s.variant.code ++ le 1 s.side ++ le 1 s.pair.head.code ++
      le 8 (s.shown dieB 0x01 0).toNat ++ le 8 (s.shown dieB 0x01 8).toNat ++ be 4 Config.ien)) ∧
    (MgmtPasses s h 0x01 → exec (.getSensors h) s = ok s 0x01 (le 8 (s.shown dieB 0x04 8).toNat ++ s.variant.dies.flatMap fun d => le 8 (s.dieData d))) ∧
    (MgmtPasses s h 0x02 → exec (.getCounters h) s = ok (s.setReg dieB 0x03 8 0) 0x02
      (le 8 (s.shown dieB 0x03 0x18).toNat ++ le 8 (s.shown dieB 0x03 0).toNat ++ le 8 (s.reg dieB 0x03 8).toNat)) ∧
    (MgmtPasses s h 0x03 → exec (.evrFreeze h) s = ok { s with thm := { s.thm with frozenUntil := some (s.ao.tb + 60 * 10 ^ 9) } } 0x03 []) ∧
    (MgmtPasses s h 0x05 → exec (.evrThaw h) s = ok (State.writeHeld { s with thm := { s.thm with frozenUntil := none } }) 0x05 []) ∧
    (∀ i, MgmtPasses s h 0x04 → exec (.evrRead h i) s = if 65536 ≤ i then no 0x04 6
      else ok s 0x04 (((s.nor.events.keep fun n _ => decide (i ≤ n)).take 64).flatMap fun x => x.2.bytes x.1)) ∧
    (∀ i, MgmtPasses s h 0x06 → exec (.tripRead h i) s = if tripSlots ≤ i then no 0x06 6 else ok s 0x06 (((s.nor.trips.drop i).take 16).flatMap TripRec.bytes)) ∧
    (∀ n v, MgmtPasses s h 0x08 → let k := 2 * h.ep + if h.udp then 1 else 0
      exec (.attest h 0 n) s = ok { s with boot := { s.boot with nonces := s.boot.nonces.insert k (padTo 32 n) } } 0x08 [] ∧
      exec (.attest h 1 n) s = (match s.boot.nonces.find? k with
        | some m => ok { s with boot := { s.boot with nonces := s.boot.nonces.erase k } } 0x08 (s.report m)
        | none => no 0x08 5) ∧
      exec (.attest h 2 n) s = ok s 0x08 s.calRow ∧ (2 < v → exec (.attest h v n) s = no 0x08 1)) ∧
    (∀ k n, MgmtPasses s h 0x09 → exec (.imgBegin h k n) s = .next ((s.imgBegin h k n).2.mgmtReply h 0x09 (s.imgBegin h k n).1 [])) ∧
    (∀ o b, MgmtPasses s h 0x0A → exec (.imgWrite h o b) s = .next ((s.imgWrite h o b).2.mgmtReply h 0x0A (s.imgWrite h o b).1 [])) ∧
    (MgmtPasses s h 0x0B → exec (.imgEnd h) s = .next ((s.imgEnd h).2.mgmtReply h 0x0B (s.imgEnd h).1 [])) ∧
    (∀ e b, MgmtPasses s h 7 → exec (.mgmtRole h e b) s = .next (s.roleRun (.mgmt h.udp h.ep) e b).settle)) ∧
  (∀ (s : State) (h : MgmtHdr) (kind len : Nat),
    let mine := s.myXfer h
    let x : Xfer := { udp := h.udp, ep := h.ep, kind := kind, len := len, kinds := ((mine.map Xfer.kinds).getD []).filter (fun y => y.1 != kind) ++ [(kind, len)], buf := [] }
    let k := s.imgSlot
    let cleared := if mine = none then s.writeHdr k { (s.norSlot k).head with state := 0, tries := 0 } else s
    (kind = 0 ∨ 3 < kind → s.imgBegin h kind len = (1, s)) ∧
    (1 ≤ kind → kind ≤ 3 → s.boot.xfer ≠ none → mine = none → s.imgBegin h kind len = (5, s)) ∧
    (1 ≤ kind → kind ≤ 3 → s.boot.xfer = none ∨ mine ≠ none →
      s.imgBegin h kind len = if s.boot.phase = .waitImage then (if kind = 1 then (0, s.setXfer (some x)) else (5, s))
        else if (s.norSlot k).head.state = 2 then (5, s) else if s.norWindow = false then (4, s)
        else (0, (cleared.putRegion k kind []).setXfer (some x)))) ∧
  (∀ (s : State) (h : MgmtHdr) (off : Nat) (d : Bytes),
    (d = [] ∨ 4096 < d.length ∨ off % 256 ≠ 0 → s.imgWrite h off d = (1, s)) ∧
    (d ≠ [] → d.length ≤ 4096 → off % 256 = 0 → (s.myXfer h = none → s.imgWrite h off d = (5, s)) ∧
      ∀ x, s.myXfer h = some x → s.imgWrite h off d = if x.len < off + d.length ∨ regionSize x.kind < off + d.length then (6, s)
        else if s.boot.phase = .waitImage then (0, s.setXfer (some { x with buf := programAt x.buf off d }))
        else if s.norWindow = false then (4, s)
        else (0, s.putRegion s.imgSlot x.kind (programAt ((s.norSlot s.imgSlot).region x.kind) off d)))) ∧
  (∀ (s : State) (k kind : Nat) (b : Bytes),
    (s.flag dieB Reg.BOOT_CTRL_SLOT_WP = true → s.boot.phase ≠ .recovery → k = s.booted → s.putRegion k kind b = s) ∧
    (s.flag dieB Reg.BOOT_CTRL_SLOT_WP = false ∨ s.boot.phase = .recovery ∨ k ≠ s.booted →
      s.putRegion k kind b = s.setNorSlot k ((s.norSlot k).setRegion kind b))) ∧
  (∀ (b d : Bytes) (off : Nat), let p := programAt b off d
    p.length = max b.length (off + d.length) ∧ (p.drop off).take d.length = d ∧
    ∀ i, i < off ∨ off + d.length ≤ i → p.getD i 0xFF = b.getD i 0xFF) ∧
  (∀ (s : State) (h : MgmtHdr), (s.myXfer h = none → s.imgEnd h = (5, s)) ∧
    ∀ x, s.myXfer h = some x → s.imgEnd h = if s.boot.phase = .waitImage then
        (let r := (s.setXfer none).runRecovery x.len x.buf
        (if r.1 = 0 then 0 else 1, r.2))
      else if s.boot.phase = .recovery ∧ x.kinds.length ≠ 3 then (5, s) else if s.norWindow = false then (4, s) else (0, s.completeSlot x)) ∧
  (∀ (s : State) (x : Xfer), (s.norSlot s.imgSlot).head.hseq < 2 ^ 32 - 1 → let t := s.completeSlot x
    (t.norSlot s.imgSlot).head.state = 1 ∧ t.boot.xfer = none ∧ t.norSlot (1 - s.imgSlot) = s.norSlot (1 - s.imgSlot) ∧ t.mem = s.mem) ∧
  (∀ (s : State) (i : Nat) (b : Bool), exec (.jtagInstruction i b) s = .next (s.emit (.jtag i (b || s.flag dieB Reg.BOOT_CTRL_JTAG_EN) s.variant.idcode))) ∧
  Variant.idcode .v4a = 0x0B80433D ∧ Variant.idcode .v8a = 0x0B80833D

/-- R641 to R646, R649, R650, R653, R655, R656: sensors, warnings, trips, throttling, the recorder and the counters. -/
def Obligations.SensorsThrottleAndRecorder : Prop :=
  (∀ (s : State) (vals : List (Nat × Int)), s.thm.dies.rising = true → ∃ t : State, exec (.roSensorSample vals) s = .next t ∧
    t = { s with thm := { s.thm with dies := t.thm.dies } } ∧
    ∀ die, s.variant.populated die = true → die < 24 → t.dieTemp die = (match sampleOf vals die with
      | some v => { s.dieTemp die with ro := v }
      | none => s.dieTemp die)) ∧
  (∀ (vals : List (Nat × Int)) (die : Nat) (v : Int), die < 16 → (vals.find? fun x => x.1 == die) = some (die, v) → sampleOf vals die = some v) ∧
  (∀ (s : State) (vals : List (Nat × Int)),
    let u := s.variant.dies.foldl (fun (s : State) die => match sampleOf vals die with
      | some v => s.readDiode die v
      | none => s) (s.stackTemps vals)
    let c := if (u.dieTemp dieB).diode ≤ 560 then some (u.thm.calmSince.getD u.ao.tb) else none
    let t : State := { u with thm := { u.thm with calmSince := c } }
    exec (.diodeSensorSample vals) s = .next (if t.pair.head = .boot ∧ (t.variant.dies.any fun d => decide (800 ≤ (t.dieTemp d).diode)) = true
      then { t with ao := { t.ao with tripLatched := true } } else t)) ∧
  (∀ (s : State) (die : Nat) (v : Int),
    let d := { s.dieTemp die with diode := v }
    (s.usesRo die = false → s.readDiode die v = s.setTemp die d) ∧
    (s.usesRo die = true → v - d.ro ≤ 48 → d.ro - v ≤ 48 → s.readDiode die v = s.setTemp die { d with apart := 0 }) ∧
    (s.usesRo die = true → 48 < v - d.ro ∨ 48 < d.ro - v → d.apart < 2 → s.readDiode die v = s.setTemp die { d with apart := d.apart + 1 }) ∧
    (s.usesRo die = true → 48 < v - d.ro ∨ 48 < d.ro - v → 2 ≤ d.apart → s.readDiode die v =
      (s.setTemp die { d with apart := d.apart + 1, fallback := true }).mfwEvent 0x0024 (le 1 die ++ zeros 1 ++ le 2 (ofInt 16 v) ++ le 2 (ofInt 16 d.ro)))) ∧
  (∀ (s : State), let u := s.judgeHeat
    (u.ao.tripLatched = true → exec .thermalEvaluate s = .next u) ∧
    (u.ao.tripLatched = false → (∀ d, u.variant.dies.find? (fun d => decide (2 ≤ (u.dieTemp d).hot)) = some d → exec .thermalEvaluate s = .next (u.thermalTrip 1 d)) ∧
      (u.variant.dies.find? (fun d => decide (2 ≤ (u.dieTemp d).hot)) = none →
        exec .thermalEvaluate s = .next (match u.variant.dies.find? fun d => decide (21 ≤ (u.dieTemp d).fast) with
          | some d => u.thermalTrip 2 d
          | none => u)))) ∧
  (∀ (s : State) (die : Nat), s.thm.dies.rising = true →
    let d := s.dieTemp die
    let e := (s.evaluate die).dieTemp die
    e.hist = (s.temp die :: d.hist).take 101 ∧ e.hot = (if 880 ≤ s.temp die then d.hot + 1 else 0) ∧ e.fast = (if 80 < e.shortRate then d.fast + 1 else 0) ∧
    e.hotAt = (if 800 ≤ s.temp die then some (d.hotAt.getD s.ao.tb) else none) ∧ e.ro = d.ro ∧ e.diode = d.diode ∧ e.apart = d.apart ∧
    (∀ x, x ≠ die → (s.evaluate die).dieTemp x = s.dieTemp x)) ∧
  (∀ (s : State) (f : Fld) (code : Nat) (on hold : Nat → Bool),
    (∀ die, s.variant.dies.find? on = some die → s.flag dieB f = true → s.warnFlag f code on hold = s) ∧
    (∀ die, s.variant.dies.find? on = some die → s.flag dieB f = false → 
      let v := s.setFlag dieB f true
      let u := v.notice code die (ofInt 16 (v.temp die))
      s.warnFlag f code on hold = u.mfwEvent code (le 1 die ++ zeros 1 ++ le 2 (ofInt 16 (u.temp die)) ++ le 2 (ofInt 16 (u.dieTemp die).longRate))) ∧
    (s.variant.dies.find? on = none → s.warnFlag f code on hold = if s.variant.dies.any hold then s else s.setFlag dieB f false)) ∧
  (∀ (s : State) (cause die : Nat), let r := s.tripRec false cause die
    (s.pair.head = .twin → s.thermalTrip cause die = (((s.yield 0x05).powerDownDies).enter .thermalHold).finishTrip r) ∧
    (s.pair.head = .solo → s.ao.dump = none → s.thermalTrip cause die = (s.yield 0x05).beginDump false (.thermal r)) ∧
    (s.pair.head ∈ [.boot, .fawn, .fenced] → s.thermalTrip cause die = (s.headReset 6).finishTrip r)) ∧
  (∀ (s : State), let l := s.fld dieB Reg.THM_STATUS_LEVEL
    let u : State := { s with thm := { s.thm with dies := s.thm.dies.mapV fun _ d => { d with hotAt := d.hotAt.map fun _ => s.ao.tb } } }
    (∀ d t, d ∈ s.variant.dies → (s.dieTemp d).hotAt = some t → 10 ^ 9 ≤ s.ao.tb - t → exec .throttleRaise s = .next (if l < 3 then u.throttle (l + 1) else u)) ∧
    ((∀ d ∈ s.variant.dies, ∀ t, (s.dieTemp d).hotAt = some t → s.ao.tb - t < 10 ^ 9) → exec .throttleRaise s = .next s)) ∧
  (∀ (s : State) (t : Nat), s.thm.coolSince = some t → let l := s.fld dieB Reg.THM_STATUS_LEVEL
    let u : State := { s with thm := { s.thm with coolSince := some s.ao.tb } }
    (5 * 10 ^ 9 ≤ s.ao.tb - t → exec .throttleLower s = .next (if l = 0 then u else u.throttle (l - 1))) ∧
    (s.ao.tb - t < 5 * 10 ^ 9 → exec .throttleLower s = .next s)) ∧
  (∀ (s : State) (n : Nat), s.Ordered → let u := s.setFld dieB Reg.THM_STATUS_LEVEL n
    s.throttle n = (u.notice 0x22 u.hottest n).mfwEvent 0x22
      (le 1 n ++ le 1 (s.fld dieB Reg.THM_STATUS_LEVEL) ++ le 1 u.hottest ++ zeros 1 ++ le 2 (ofInt 16 (u.temp u.hottest))) ∧
    u.fld dieB Reg.THM_STATUS_LEVEL = n % 2 ^ Reg.THM_STATUS_LEVEL.w) ∧
  (∀ (s : State), (s.ao.bPower = false → exec .secondsTick s = .next s) ∧
    (s.ao.bPower = true → s.ao.seconds < 3599 → exec .secondsTick s = .next { s with ao := { s.ao with seconds := s.ao.seconds + 1 } }) ∧
    (s.ao.bPower = true → s.ao.seconds = 3599 → exec .secondsTick s = .next { s with ao := { s.ao with seconds := 0, hours := (s.ao.hours + 1) % 2 ^ 24 } })) ∧
  (∀ (s : State), s.ao.seconds % 600 = 0 →
    (s.norWindow = true → s.ao.heldCounters = [] → exec .counterLogEntry s = .next { s with nor := s.nor.appendCounter s.counterEnt }) ∧
    (s.norWindow = false ∨ s.ao.heldCounters ≠ [] →
      exec .counterLogEntry s = .next { s with ao := { s.ao with heldCounters := s.ao.heldCounters ++ [s.counterEnt] } })) ∧
  (∀ (s : State) (val : Word),
    let b := ((List.range 7).flatMap fun k => le 8 (s.wo.getD (regKey dieB 0x03 (0x100 + 8 * k)) 0).toNat) ++ le 8 val.toNat
    exec (.evrPost val) s = .next (s.record (s.recordFrom (leAt b 2 1) b))) ∧
  (∀ (s : State) (m tag : Nat) (b : Bytes) (t : State), s.takeMb m 8 = some (tag, b, t) → exec (.eventMessage m) s = .next (t.record (t.recordFrom 0xFD b))) ∧
  (∀ (s : State) (r : EventRec),
    let waits := s.evrFrozen = true ∨ s.norWindow = false ∨ s.ao.heldEvents ≠ []
    (waits → s.ao.heldEvents.length < 512 → s.record r = { s with ao := { s.ao with heldEvents := s.ao.heldEvents ++ [r] } }) ∧
    (waits → 512 ≤ s.ao.heldEvents.length → let u := s.addFld dieB Reg.EVR_LOST_HOLD_LOST 1
      s.record r = { u with ao := { u.ao with lostSince := u.ao.lostSince + 1 } }) ∧
    (s.evrFrozen = false → s.norWindow = true → s.ao.heldEvents = [] → s.record r = s.writeEvent r)) ∧
  (∀ (s : State) (r : EventRec), let n := s.fld dieB Reg.EVR_STATUS_NEXT
    let u := State.setFld { s with nor := { s.nor with events := s.nor.events.insert n (.whole { r with seq := s.nor.evSeq }), evSeq := s.nor.evSeq + 1 } } dieB
      Reg.EVR_STATUS_NEXT (n + 1)
    (s.flag dieB Reg.EVR_STATUS_FULL = true → s.writeEvent r = s.addFld dieB Reg.EVR_LOST_FULL_LOST 1) ∧
    (s.Ordered → s.flag dieB Reg.EVR_STATUS_FULL = false → n < 65534 → s.writeEvent r = u)) ∧
  (∀ (s : State), (s.norWindow = false → exec .norWindowOpen s = .next s.settle) ∧
    (s.norWindow = true → let u := s.writeHeld
      let room := tripSlots - u.nor.trips.length
      let n := { u.nor with trips := u.nor.trips ++ u.ao.heldTrips.take room }
      exec .norWindowOpen s = .next (State.settle { u with
        nor := u.ao.heldCounters.foldl Nor.appendCounter n
        ao := { u.ao with heldTrips := u.ao.heldTrips.drop room, heldCounters := [] } }))) ∧
  (∀ (s : State) (t : Nat), s.thm.frozenUntil = some t →
    (t ≤ s.ao.tb → exec .evrFreezeTimeout s = .next (State.writeHeld { s with thm := { s.thm with frozenUntil := none } })) ∧
    (s.ao.tb < t → exec .evrFreezeTimeout s = .next s))
end

