-- ==== Sys2Proof/Laws/SMap.lean ====
section
/-! SUPPORT. Laws of sparse maps: every operation keeps the canonical form, and reads after writes. -/

namespace Sys2Proof.SMap

variable {V : Type}

theorem rising_iff (m : SMap V) : m.rising = true ↔ m.Pairwise fun x y => x.1 < y.1 := by
  induction m with
  | nil => simp [rising]
  | cons x m ih =>
    cases m with
    | nil => simp [rising]
    | cons y m =>
      rw [rising, Bool.and_eq_true, ih, List.pairwise_cons (a := x), decide_eq_true_eq]
      refine ⟨fun ⟨h, hp⟩ => ⟨fun z hz => ?_, hp⟩, fun ⟨h, hp⟩ => ⟨h y (by simp), hp⟩⟩
      rcases List.mem_cons.1 hz with rfl | hz
      · exact h
      · exact Nat.lt_trans h ((List.pairwise_cons.1 hp).1 z hz)

theorem mem_insert {m : SMap V} {a : Nat} {w : V} {x : Nat × V} (h : x ∈ m.insert a w) : x = (a, w) ∨ x ∈ m := by
  induction m with
  | nil => simpa [insert] using h
  | cons y m ih =>
    obtain ⟨k, v⟩ := y
    simp only [insert] at h
    split at h
    · simpa using h
    · split at h
      · rcases List.mem_cons.1 h with h | h
        · exact .inl h
        · exact .inr (by simp [h])
      · rcases List.mem_cons.1 h with h | h
        · exact .inr (by simp [h])
        · exact (ih h).imp_right fun h => by simp [h]

theorem mem_erase {m : SMap V} {a : Nat} {x : Nat × V} (h : x ∈ m.erase a) : x ∈ m := by
  induction m with
  | nil => simp [erase] at h
  | cons y m ih =>
    obtain ⟨k, v⟩ := y
    simp only [erase] at h
    split at h
    · simp [h]
    · split at h
      · exact h
      · rcases List.mem_cons.1 h with h | h
        · simp [h]
        · simp [ih h]

theorem pairwise_insert {m : SMap V} (h : m.Pairwise fun x y => x.1 < y.1) (a : Nat) (w : V) :
    (m.insert a w).Pairwise fun x y => x.1 < y.1 := by
  induction m with
  | nil => simp [insert]
  | cons y m ih =>
    obtain ⟨k, v⟩ := y
    have h' := List.pairwise_cons.1 h
    simp only [insert]
    split
    · refine List.pairwise_cons.2 ⟨fun z hz => ?_, h⟩
      rcases List.mem_cons.1 hz with rfl | hz
      · assumption
      · exact Nat.lt_trans (by assumption) (h'.1 z hz)
    · split
      · subst_vars; exact List.pairwise_cons.2 ⟨h'.1, h'.2⟩
      · refine List.pairwise_cons.2 ⟨fun z hz => ?_, ih h'.2⟩
        rcases mem_insert hz with rfl | hz
        · exact Nat.lt_of_le_of_ne (Nat.le_of_not_lt (by assumption)) (by omega)
        · exact h'.1 z hz

theorem pairwise_erase {m : SMap V} (h : m.Pairwise fun x y => x.1 < y.1) (a : Nat) :
    (m.erase a).Pairwise fun x y => x.1 < y.1 := by
  induction m with
  | nil => simp [erase]
  | cons y m ih =>
    obtain ⟨k, v⟩ := y
    have h' := List.pairwise_cons.1 h
    simp only [erase]
    split
    · exact h'.2
    · split
      · exact h
      · exact List.pairwise_cons.2 ⟨fun z hz => h'.1 z (mem_erase hz), ih h'.2⟩

theorem find?_insert_same {m : SMap V} (h : m.Pairwise fun x y => x.1 < y.1) (a : Nat) (w : V) : (m.insert a w).find? a = some w := by
  induction m with
  | nil => simp [insert, find?]
  | cons y m ih =>
    obtain ⟨k, v⟩ := y
    simp only [insert]
    split
    · simp [find?]
    · split
      · simp [find?]
      · simp only [find?]
        rw [if_neg (by assumption), if_neg (by assumption), ih (List.pairwise_cons.1 h).2]

theorem find?_of_lt {m : SMap V} {a : Nat} (h : ∀ x ∈ m, a < x.1) : m.find? a = none := by
  cases m with
  | nil => rfl
  | cons y m =>
    have := h y (by simp)
    simp only [find?]
    rw [if_neg (by omega), if_pos this]

theorem find?_insert_ne {m : SMap V} (h : m.Pairwise fun x y => x.1 < y.1) {a b : Nat} (hab : b ≠ a) (w : V) :
    (m.insert a w).find? b = m.find? b := by
  induction m with
  | nil => simp only [insert, find?]; rw [if_neg hab]; split <;> rfl
  | cons y m ih =>
    obtain ⟨k, v⟩ := y
    have h' := List.pairwise_cons.1 h
    simp only [insert]
    split
    · rename_i hak
      simp only [find?]
      rw [if_neg hab]
      by_cases hb : b < a
      · rw [if_pos hb, if_neg (by omega), if_pos (by omega)]
      · rw [if_neg hb]
    · split
      · subst_vars
        simp only [find?]
        rw [if_neg hab, if_neg hab]
      · simp only [find?]
        rw [ih h'.2]

theorem find?_erase_same {m : SMap V} (h : m.Pairwise fun x y => x.1 < y.1) (a : Nat) : (m.erase a).find? a = none := by
  induction m with
  | nil => rfl
  | cons y m ih =>
    obtain ⟨k, v⟩ := y
    have h' := List.pairwise_cons.1 h
    simp only [erase]
    split
    · subst_vars; exact find?_of_lt fun x hx => h'.1 x hx
    · split
      · simp only [find?]; rw [if_neg (by assumption), if_pos (by assumption)]
      · simp only [find?]; rw [if_neg (by assumption), if_neg (by assumption), ih h'.2]

theorem find?_erase_ne {m : SMap V} (h : m.Pairwise fun x y => x.1 < y.1) {a b : Nat} (hab : b ≠ a) : (m.erase a).find? b = m.find? b := by
  induction m with
  | nil => rfl
  | cons y m ih =>
    obtain ⟨k, v⟩ := y
    have h' := List.pairwise_cons.1 h
    simp only [erase]
    split
    · subst_vars
      simp only [find?]
      rw [if_neg hab]
      by_cases hb : b < k
      · rw [if_pos hb]; exact find?_of_lt fun x hx => Nat.lt_trans hb (h'.1 x hx)
      · rw [if_neg hb]
    · split
      · rfl
      · simp only [find?]; rw [ih h'.2]

/-- Of the keys that a test keeps a map holds what it held, of the others nothing. -/
theorem find?_keep {m : SMap V} (h : m.Pairwise fun x y => x.1 < y.1) (p : Nat → Bool) (a : Nat) :
    SMap.find? (m.keep fun k _ => p k) a = if p a then SMap.find? m a else none := by
  induction m with
  | nil => simp [keep, find?]
  | cons y m ih =>
    obtain ⟨k, v⟩ := y
    have h' := List.pairwise_cons.1 h
    have hm : SMap.find? (SMap.keep m fun k _ => p k) a = if p a then SMap.find? m a else none := ih h'.2
    by_cases hk : p k
    · have e : SMap.keep ((k, v) :: m) (fun k _ => p k) = (k, v) :: SMap.keep m (fun k _ => p k) := by simp [keep, hk]
      rw [e]; simp only [find?]; rw [hm]
      by_cases ha : a = k
      · subst ha; simp [hk]
      · rw [if_neg ha, if_neg ha]; by_cases hl : a < k <;> simp [hl]
    · have e : SMap.keep ((k, v) :: m) (fun k _ => p k) = SMap.keep m (fun k _ => p k) := by simp [keep, hk]
      rw [e, hm]; simp only [find?]
      by_cases ha : a = k
      · subst ha; simp [hk]
      · rw [if_neg ha]
        by_cases hl : a < k
        · rw [if_pos hl, find?_of_lt fun x hx => by have := h'.1 x hx; simp only at this; omega]
        · rw [if_neg hl]

variable [DecidableEq V]

theorem wfD_iff (m : SMap V) (d : Nat → V) :
    m.wfD d = true ↔ (m.Pairwise fun x y => x.1 < y.1) ∧ ∀ x ∈ m, x.2 ≠ d x.1 := by
  simp [wfD, rising_iff]

/-- A map with nothing listed has the canonical form. -/
theorem wfD_nil (d : Nat → V) : wfD ([] : SMap V) d = true := by simp [wfD, rising]

/-- Setting a key keeps the canonical form. -/
theorem wfD_putD {m : SMap V} {d : V} (h : m.wfD (fun _ => d) = true) (a : Nat) (v : V) : (m.putD a v d).wfD (fun _ => d) = true := by
  rw [wfD_iff] at h ⊢
  unfold putD
  split
  · exact ⟨pairwise_erase h.1 a, fun x hx => h.2 x (mem_erase hx)⟩
  · refine ⟨pairwise_insert h.1 a v, fun x hx => ?_⟩
    rcases mem_insert hx with rfl | hx
    · assumption
    · exact h.2 x hx

/-- Dropping pairs keeps the canonical form. -/
theorem wfD_keep {m : SMap V} {d : Nat → V} (h : m.wfD d = true) (p : Nat → V → Bool) : (m.keep p).wfD d = true := by
  rw [wfD_iff] at h ⊢
  exact ⟨h.1.filter _, fun x hx => h.2 x ((List.mem_filter.1 hx).1)⟩

/-! ## Reads after writes -/

/-- A key reads what was written to it. -/
theorem getD_putD_same {m : SMap V} {d : V} (h : m.wfD (fun _ => d) = true) (a : Nat) (v : V) : (m.putD a v d).getD a d = v := by
  rw [wfD_iff] at h
  unfold putD getD
  split
  · rw [find?_erase_same h.1]; subst_vars; rfl
  · rw [find?_insert_same h.1]; rfl

/-- A write leaves every other key alone. -/
theorem getD_putD_ne {m : SMap V} {d : V} (h : m.wfD (fun _ => d) = true) {a b : Nat} (hab : b ≠ a) (v : V) :
    (m.putD a v d).getD b d = m.getD b d := by
  rw [wfD_iff] at h
  unfold putD getD
  split
  · rw [find?_erase_ne h.1 hab]
  · rw [find?_insert_ne h.1 hab]

end Sys2Proof.SMap
end

