-- ==== Sys2Proof/Laws/Bits.lean ====
section
/-! SUPPORT. Reading a field back after a write of a field of the same word, and of a register of the file. -/

namespace Sys2Proof.Machine

open Sys2Proof

theorem bitsAt_lt (x : Word) (lo w : Nat) : bitsAt x lo w < 2 ^ w := Nat.mod_lt _ (Nat.two_pow_pos w)

/-- A part of a number that starts at bit `lo` and is `w` bits wide lies below the number. -/
theorem part_le (n lo w : Nat) : n / 2 ^ lo % 2 ^ w * 2 ^ lo ≤ n :=
  (Nat.mul_le_mul_right _ (Nat.mod_le _ _)).trans (Nat.div_mul_le_self _ _)

/-- A number is its low part, the part of a field and its high part. -/
theorem split_at (n lo w : Nat) : n = n % 2 ^ lo + n / 2 ^ lo % 2 ^ w * 2 ^ lo + n / 2 ^ (lo + w) * 2 ^ (lo + w) := by
  have h1 := Nat.mod_add_div n (2 ^ lo)
  have h2 := Nat.mod_add_div (n / 2 ^ lo) (2 ^ w)
  rw [Nat.div_div_eq_div_mul, ← pow_add] at h2
  have h3 : 2 ^ lo * (n / 2 ^ lo) = n / 2 ^ lo % 2 ^ w * 2 ^ lo + n / 2 ^ (lo + w) * 2 ^ (lo + w) := by
    conv_lhs => rw [← h2]
    rw [pow_add]; ring
  omega

theorem setBits_toNat {x : Word} {lo w : Nat} (h : lo + w ≤ 64) (v : Nat) :
    (setBits x lo w v).toNat = x.toNat % 2 ^ lo + v % 2 ^ w * 2 ^ lo + x.toNat / 2 ^ (lo + w) * 2 ^ (lo + w) := by
  have hs := split_at x.toNat lo w
  have hl := part_le x.toNat lo w
  have hx := x.isLt
  have hv : v % 2 ^ w < 2 ^ w := Nat.mod_lt _ (Nat.two_pow_pos w)
  have hlow : x.toNat % 2 ^ lo < 2 ^ lo := Nat.mod_lt _ (Nat.two_pow_pos lo)
  have e : x.toNat - bitsAt x lo w * 2 ^ lo + v % 2 ^ w * 2 ^ lo =
      x.toNat % 2 ^ lo + v % 2 ^ w * 2 ^ lo + x.toNat / 2 ^ (lo + w) * 2 ^ (lo + w) := by
    unfold bitsAt; omega
  unfold setBits
  rw [e, BitVec.toNat_ofNat, Nat.mod_eq_of_lt]
  have hd : x.toNat / 2 ^ (lo + w) + 1 ≤ 2 ^ (64 - (lo + w)) := by
    rw [Nat.succ_le_iff, Nat.div_lt_iff_lt_mul (Nat.two_pow_pos _), ← pow_add]
    rwa [show 64 - (lo + w) + (lo + w) = 64 by omega]
  have hp : (2 : Nat) ^ 64 = 2 ^ (64 - (lo + w)) * 2 ^ (lo + w) := by rw [← pow_add]; congr 1; omega
  have hb : v % 2 ^ w * 2 ^ lo + 2 ^ lo ≤ 2 ^ (lo + w) := by
    rw [pow_add, Nat.mul_comm (2 ^ lo)]; nlinarith [Nat.two_pow_pos lo]
  rw [hp]
  nlinarith [Nat.mul_le_mul_right (2 ^ (lo + w)) hd]

/-- The field that was set reads as set. -/
theorem bitsAt_setBits_same {x : Word} {lo w : Nat} (h : lo + w ≤ 64) (v : Nat) : bitsAt (setBits x lo w v) lo w = v % 2 ^ w := by
  unfold bitsAt
  rw [setBits_toNat h, pow_add]
  have hlow : x.toNat % 2 ^ lo < 2 ^ lo := Nat.mod_lt _ (Nat.two_pow_pos lo)
  have hv : v % 2 ^ w < 2 ^ w := Nat.mod_lt _ (Nat.two_pow_pos w)
  rw [show x.toNat % 2 ^ lo + v % 2 ^ w * 2 ^ lo + x.toNat / (2 ^ lo * 2 ^ w) * (2 ^ lo * 2 ^ w) =
    x.toNat % 2 ^ lo + 2 ^ lo * (v % 2 ^ w + 2 ^ w * (x.toNat / (2 ^ lo * 2 ^ w))) by ring,
    Nat.add_mul_div_left _ _ (Nat.two_pow_pos lo), Nat.div_eq_of_lt hlow, Nat.zero_add, Nat.add_mul_mod_self_left,
    Nat.mod_eq_of_lt hv]

/-- A field that lies wholly below or above the one that was set reads as before. -/
theorem bitsAt_setBits_of_disjoint {x : Word} {lo w lo' w' : Nat} (h : lo + w ≤ 64) (v : Nat)
    (d : lo' + w' ≤ lo ∨ lo + w ≤ lo') : bitsAt (setBits x lo w v) lo' w' = bitsAt x lo' w' := by
  unfold bitsAt
  rw [setBits_toNat h]
  rcases d with d | d
  · have key : ∀ n m : Nat, n % 2 ^ lo = m % 2 ^ lo → n / 2 ^ lo' % 2 ^ w' = m / 2 ^ lo' % 2 ^ w' := by
      intro n m e
      have r : ∀ k : Nat, k / 2 ^ lo' % 2 ^ w' = k % 2 ^ lo / 2 ^ lo' % 2 ^ w' := by
        intro k
        rw [← Nat.mod_mul_right_div_self, ← Nat.mod_mul_right_div_self, ← pow_add,
          Nat.mod_mod_of_dvd _ (Nat.pow_dvd_pow 2 d)]
      rw [r n, r m, e]
    apply key
    rw [pow_add, show x.toNat % 2 ^ lo + v % 2 ^ w * 2 ^ lo + x.toNat / (2 ^ lo * 2 ^ w) * (2 ^ lo * 2 ^ w) =
      x.toNat % 2 ^ lo + 2 ^ lo * (v % 2 ^ w + 2 ^ w * (x.toNat / (2 ^ lo * 2 ^ w))) by ring, Nat.add_mul_mod_self_left, Nat.mod_mod]
  · have hs := split_at x.toNat lo w
    have hp : ∀ a b : Nat, a < 2 ^ (lo + w) → (a + b * 2 ^ (lo + w)) / 2 ^ lo' = b / 2 ^ (lo' - (lo + w)) := by
      intro a b ha
      rw [show (2 : Nat) ^ lo' = 2 ^ (lo + w) * 2 ^ (lo' - (lo + w)) by rw [← pow_add]; congr 1; omega,
        ← Nat.div_div_eq_div_mul, Nat.add_mul_div_right _ _ (Nat.two_pow_pos _), Nat.div_eq_of_lt ha, Nat.zero_add]
    have hlow : x.toNat % 2 ^ lo < 2 ^ lo := Nat.mod_lt _ (Nat.two_pow_pos lo)
    have bound : ∀ u : Nat, u < 2 ^ w → x.toNat % 2 ^ lo + u * 2 ^ lo < 2 ^ (lo + w) := by
      intro u hu
      have : u * 2 ^ lo + 2 ^ lo ≤ 2 ^ (lo + w) := by
        rw [pow_add, Nat.mul_comm (2 ^ lo)]; nlinarith [Nat.two_pow_pos lo]
      omega
    rw [hp _ _ (bound _ (Nat.mod_lt _ (Nat.two_pow_pos w)))]
    conv_rhs => rw [hs]
    rw [hp _ _ (bound _ (Nat.mod_lt _ (Nat.two_pow_pos w)))]

/-! ## The register file -/

theorem State.reg_setReg_same {s : State} (h : s.Ordered) (die blk off : Nat) (w : Word) :
    (s.setReg die blk off w).reg die blk off = w := by
  have hp := (SMap.rising_iff _).1 h
  simp only [State.reg, State.setReg, SMap.getD, SMap.putD]
  split
  · rw [SMap.find?_erase_same hp]; simp [*]
  · rw [SMap.find?_insert_same hp]; rfl

theorem State.reg_setReg_ne {s : State} (h : s.Ordered) {die blk off die' blk' off' : Nat} (w : Word)
    (k : regKey die' blk' off' ≠ regKey die blk off) : (s.setReg die blk off w).reg die' blk' off' = s.reg die' blk' off' := by
  have hp := (SMap.rising_iff _).1 h
  simp only [State.reg, State.setReg, SMap.getD, SMap.putD]
  split
  · rw [SMap.find?_erase_ne hp k]
  · rw [SMap.find?_insert_ne hp k]

theorem State.ordered_setReg {s : State} (h : s.Ordered) (die blk off : Nat) (w : Word) : (s.setReg die blk off w).Ordered := by
  have hp := (SMap.rising_iff _).1 h
  refine (SMap.rising_iff _).2 ?_
  simp only [State.setReg, SMap.putD]
  split
  · exact SMap.pairwise_erase hp _
  · exact SMap.pairwise_insert hp _ _

/-! ## Fields -/

/-- A register depends on the register file and the variant alone. -/
theorem State.reg_congr {s t : State} (h : t.regs = s.regs) (hv : t.variant = s.variant) (die blk off : Nat) :
    t.reg die blk off = s.reg die blk off := by
  unfold State.reg; rw [h, hv]

theorem State.fld_congr {s t : State} (h : t.regs = s.regs) (hv : t.variant = s.variant) (die : Nat) (f : Fld) : t.fld die f = s.fld die f := by
  unfold State.fld; rw [State.reg_congr h hv]

theorem State.flag_congr {s t : State} (h : t.regs = s.regs) (hv : t.variant = s.variant) (die : Nat) (f : Fld) :
    t.flag die f = s.flag die f := by
  unfold State.flag; rw [State.fld_congr h hv]

theorem State.fld_setFld_same {s : State} (h : s.Ordered) (die : Nat) {f : Fld} (hf : f.lo + f.w ≤ 64) (v : Nat) :
    (s.setFld die f v).fld die f = v % 2 ^ f.w := by
  unfold State.fld State.setFld
  rw [State.reg_setReg_same h, bitsAt_setBits_same hf]

/-- A field of the same register that lies wholly below or above. -/
theorem State.fld_setFld_apart {s : State} (h : s.Ordered) (die : Nat) {f g : Fld} (hf : f.lo + f.w ≤ 64) (v : Nat)
    (hb : g.blk = f.blk) (ho : g.off = f.off) (d : g.lo + g.w ≤ f.lo ∨ f.lo + f.w ≤ g.lo) :
    (s.setFld die f v).fld die g = s.fld die g := by
  unfold State.fld State.setFld
  rw [hb, ho, State.reg_setReg_same h, bitsAt_setBits_of_disjoint hf v d]

/-- A field of another register. -/
theorem State.fld_setFld_ne {s : State} (h : s.Ordered) {die die' : Nat} {f g : Fld} (v : Nat)
    (k : regKey die' g.blk g.off ≠ regKey die f.blk f.off) : (s.setFld die f v).fld die' g = s.fld die' g := by
  unfold State.fld State.setFld
  rw [State.reg_setReg_ne h _ k]

theorem State.ordered_setFld {s : State} (h : s.Ordered) (die : Nat) (f : Fld) (v : Nat) : (s.setFld die f v).Ordered :=
  State.ordered_setReg h ..

theorem State.flag_setFlag_same {s : State} (h : s.Ordered) (die : Nat) {f : Fld} (hf : f.lo + f.w ≤ 64) (hw : f.w = 1) (b : Bool) :
    (s.setFlag die f b).flag die f = b := by
  unfold State.flag State.setFlag
  rw [State.fld_setFld_same h die hf, hw]
  cases b <;> rfl

/-- A write of a field of a state that differs from `s` in the register file alone gives another such state. -/
theorem State.setFld_only {s t : State} (h : ∃ r, t = { s with regs := r }) (die : Nat) (f : Fld) (v : Nat) :
    ∃ r, t.setFld die f v = { s with regs := r } := by
  obtain ⟨r, rfl⟩ := h
  unfold State.setFld State.setReg
  exact ⟨_, rfl⟩

theorem State.setFlag_only {s t : State} (h : ∃ r, t = { s with regs := r }) (die : Nat) (f : Fld) (b : Bool) :
    ∃ r, t.setFlag die f b = { s with regs := r } := State.setFld_only h die f _

end Sys2Proof.Machine
end

