-- ==== Sys2Proof/Laws/Frames.lean ====
section
/-! SUPPORT. Numbers as bytes, and the CRC of a Chamois frame. -/

namespace Sys2Proof

theorem ofLe_lt (l : Bytes) : ofLe l < 256 ^ l.length := by
  induction l with
  | nil => simp [ofLe]
  | cons b l ih => simp only [ofLe, List.length_cons, Nat.pow_succ]; have := b.isLt; omega

theorem le_succ (n v : Nat) : le (n + 1) v = BitVec.ofNat 8 v :: le n (v / 256) := by
  simp [le, List.range_succ_eq_map, Nat.pow_succ, Nat.div_div_eq_div_mul, Nat.mul_comm]

@[simp] theorem le_length (n v : Nat) : (le n v).length = n := by simp [le]

/-- Reading back what `le` wrote gives the number, cut to the bytes there are. -/
theorem ofLe_le (n v : Nat) : ofLe (le n v) = v % 256 ^ n := by
  induction n generalizing v with
  | zero => simp [le, ofLe, Nat.mod_one]
  | succ n ih =>
    have h : v % 256 ^ (n + 1) = v % 256 + 256 * (v / 256 % 256 ^ n) := by rw [Nat.pow_succ, Nat.mul_comm, Nat.mod_mul]
    rw [le_succ]
    simp only [ofLe, ih, BitVec.toNat_ofNat]
    exact h.symm

namespace Machine

/-- A frame that the head makes passes its CRC (R117). -/
theorem frameOk_frameOf {h p : Bytes} (hh : h.length = 12) : frameOk (frameOf h p) = true := by
  have hb : (h ++ padTo 240 p).length = 252 := by simp [padTo, zeros, hh]; omega
  simp only [frameOk, frameOf]
  generalize h ++ padTo 240 p = b at hb
  have h1 : (b ++ le 4 (crc32c b).toNat).take 252 = b := by rw [← hb]; simp
  have h2 : (b ++ le 4 (crc32c b).toNat).drop 252 = le 4 (crc32c b).toNat := by rw [← hb]; simp
  rw [h1, h2, ofLe_le]
  simp [hb]
  have := (crc32c b).isLt
  omega

end Machine
end Sys2Proof
end

