-- ==== Sys2Proof/Laws/Keeps.lean ====
section
/-! SUPPORT. What no command changes or undoes, as one relation between two states, and how it passes through the shapes that the
model's definitions are written in. -/

namespace Sys2Proof.Machine

open Sys2Proof

theorem Otp.Grows.refl (a : Otp) : a.Grows a := ⟨fun h => ⟨h, rfl⟩, Nat.le_refl _, Nat.le_refl _, Nat.le_refl _, Nat.le_refl _⟩

theorem Otp.Grows.trans {a b c : Otp} (h : a.Grows b) (k : b.Grows c) : a.Grows c :=
  ⟨fun x => ⟨(k.lock (h.lock x).1).1, (k.lock (h.lock x).1).2.trans (h.lock x).2⟩, Nat.le_trans h.mfw k.mfw, Nat.le_trans h.cfg k.cfg,
   Nat.le_trans h.hfw k.hfw, Nat.le_trans h.wrap k.wrap⟩

theorem Memory.wf_nil : Memory.wf [] = true := SMap.wfD_nil _

theorem SMap.rising_keep {V : Type} {m : SMap V} (h : m.rising = true) (p : Nat → V → Bool) : (m.keep p).rising = true :=
  (SMap.rising_iff _).2 (((SMap.rising_iff _).1 h).filter _)

theorem SMap.rising_putD {V : Type} [DecidableEq V] {m : SMap V} (h : m.rising = true) (a : Nat) (v d : V) : (m.putD a v d).rising = true := by
  have hp := (SMap.rising_iff _).1 h
  refine (SMap.rising_iff _).2 ?_
  unfold SMap.putD
  split
  · exact SMap.pairwise_erase hp _
  · exact SMap.pairwise_insert hp _ _

theorem Memory.wf_keep {m : SMap Byte} (h : Memory.wf m = true) (p : Nat → Byte → Bool) : Memory.wf (m.keep p) = true := SMap.wfD_keep h p

theorem Memory.wf_put {m : SMap Byte} (h : Memory.wf m = true) (a : Nat) (b : Byte) : Memory.wf (m.putD a b 0) = true := SMap.wfD_putD h a b

/-- From `s` to `t`: same variant and queue; side, memory and register file stay as they must; OTP only grows. -/
structure Keeps (s t : State) : Prop where
  variant : t.variant = s.variant
  pending : t.pending = s.pending
  side : s.side < 2 → t.side < 2
  mem : Memory.wf s.mem = true → Memory.wf t.mem = true
  otp : s.otp.Grows t.otp
  regs : s.regs.rising = true → t.regs.rising = true

namespace Keeps

theorem refl (s : State) : Keeps s s := ⟨rfl, rfl, id, id, .refl _, id⟩

theorem trans {s t u : State} (h : Keeps s t) (k : Keeps t u) : Keeps s u :=
  ⟨k.variant.trans h.variant, k.pending.trans h.pending, fun x => k.side (h.side x), fun x => k.mem (h.mem x), h.otp.trans k.otp,
   fun x => k.regs (h.regs x)⟩

/-- A change of other fields. -/
theorem upd {s t u : State} (h : Keeps s t) (hv : u.variant = t.variant) (hp : u.pending = t.pending) (hs : u.side = t.side)
    (hm : u.mem = t.mem) (ho : u.otp = t.otp) (hr : u.regs = t.regs) : Keeps s u :=
  ⟨hv.trans h.variant, hp.trans h.pending, fun x => hs ▸ h.side x, fun x => hm ▸ h.mem x, ho ▸ h.otp, fun x => hr ▸ h.regs x⟩

end Keeps

/-- A result that satisfies `P`; a name, so that the rules below see the shape of the result. -/
def Ends {β : Type} (P : β → Prop) (b : β) : Prop := P b

/-- A state that keeps what `s` holds. -/
abbrev Ok (s : State) : State → Prop := Ends (Keeps s)

namespace Ends

variable {s : State} {β : Type} {P : β → Prop}

theorem cut {x : State} {b : β} (h : Ok s x) (k : Ok s x → Ends P b) : Ends P b := k h

theorem isFn {α γ : Type} (_ : α → γ) : True := trivial

theorem isPair {α γ : Type} (_ : α × γ) : True := trivial

theorem ite {a b : β} {c : Prop} [Decidable c] (h : Ends P a) (k : Ends P b) : Ends P (if c then a else b) := by
  split <;> assumption

theorem fold {α : Type} {t : State} {g : State → α → State} {l : List α} (h : Ok s t) (k : ∀ x a, Ok s x → Ok s (g x a)) :
    Ok s (l.foldl g t) := by
  induction l generalizing t with
  | nil => exact h
  | cons a l ih => exact ih (k t a h)

theorem foldL {α δ : Type} {t : State × δ} {g : State × δ → α → State × δ} {l : List α} (h : Ends (fun p : State × δ => Keeps s p.1) t)
    (k : ∀ x a, Ends (fun p : State × δ => Keeps s p.1) x → Ends (fun p : State × δ => Keeps s p.1) (g x a)) :
    Ends (fun p : State × δ => Keeps s p.1) (l.foldl g t) := by
  induction l generalizing t with
  | nil => exact h
  | cons a l ih => exact ih (k t a h)

theorem foldR {α δ : Type} {t : δ × State} {g : δ × State → α → δ × State} {l : List α} (h : Ends (fun p : δ × State => Keeps s p.2) t)
    (k : ∀ x a, Ends (fun p : δ × State => Keeps s p.2) x → Ends (fun p : δ × State => Keeps s p.2) (g x a)) :
    Ends (fun p : δ × State => Keeps s p.2) (l.foldl g t) := by
  induction l generalizing t with
  | nil => exact h
  | cons a l ih => exact ih (k t a h)

/-- A change of fields that the relation does not speak of. -/
theorem upd {t : State} {x3 : SMap Word} {x4 : SMap Word} {x5 : SMap Word} {x6 : SMap Nat} {x7 : List (Nat × Word)} {x9 : Pins} {x10 : Ao} {x11 : TimeUnit} {x12 : Nor} {x13 : Thm} {x14 : Nand} {x15 : Hrd} {x16 : HostU} {x17 : PairU} {x18 : Journal} {x19 : Rdma} {x20 : Med} {x21 : Dst} {x22 : Ftl} {x23 : ParU} {x24 : ArrayMeta} {x25 : SMap Csa} {x26 : Keys} {x27 : Pgt} {x29 : Boot} {x30 : Nat} {x31 : List Out}
    (h : Ok s t) : Ok s { t with wo := x3, active := x4, shadow := x5, copying := x6, heldWrites := x7, pins := x9, ao := x10, time := x11, nor := x12, thm := x13, nand := x14, hrd := x15, host := x16, pair := x17, jrnl := x18, rdma := x19, med := x20, dst := x21, ftl := x22, par := x23, arr := x24, csa := x25, keys := x26, pgt := x27, boot := x29, free := x30, out := x31 } :=
  ⟨h.1, h.2, h.3, h.4, h.5, h.6⟩

/-- The same with a register file that stays ascending. -/
theorem updRegs {t : State} {x2 : SMap Word} {x3 : SMap Word} {x4 : SMap Word} {x5 : SMap Word} {x6 : SMap Nat} {x7 : List (Nat × Word)} {x9 : Pins} {x10 : Ao} {x11 : TimeUnit} {x12 : Nor} {x13 : Thm} {x14 : Nand} {x15 : Hrd} {x16 : HostU} {x17 : PairU} {x18 : Journal} {x19 : Rdma} {x20 : Med} {x21 : Dst} {x22 : Ftl} {x23 : ParU} {x24 : ArrayMeta} {x25 : SMap Csa} {x26 : Keys} {x27 : Pgt} {x29 : Boot} {x30 : Nat} {x31 : List Out}
    (h : Ok s t) (hr : s.regs.rising = true → x2.rising = true) : Ok s { t with regs := x2, wo := x3, active := x4, shadow := x5, copying := x6, heldWrites := x7, pins := x9, ao := x10, time := x11, nor := x12, thm := x13, nand := x14, hrd := x15, host := x16, pair := x17, jrnl := x18, rdma := x19, med := x20, dst := x21, ftl := x22, par := x23, arr := x24, csa := x25, keys := x26, pgt := x27, boot := x29, free := x30, out := x31 } :=
  ⟨h.1, h.2, h.3, h.4, h.5, hr⟩

theorem snd {α : Type} {x : State} {a : α} (h : Ok s x) : Ends (fun p : α × State => Keeps s p.2) (a, x) := h

theorem fst {α : Type} {x : State} {a : α} (h : Ok s x) : Ends (fun p : State × α => Keeps s p.1) (x, a) := h

theorem thd {α γ : Type} {x : State} {a : α} {c : γ} (h : Ok s x) : Ends (fun p : α × γ × State => Keeps s p.2.2) (a, c, x) := h

theorem fst3 {α γ : Type} {x : State} {a : α} {c : γ} (h : Ok s x) : Ends (fun p : State × α × γ => Keeps s p.1) (x, a, c) := h

theorem ofR {α : Type} {x : State} {p : α × State} {a : α} (h : p = (a, x)) (k : Ends (fun p : α × State => Keeps s p.2) p) : Ok s x := by
  subst h; exact k

theorem ofL {α : Type} {x : State} {p : State × α} {a : α} (h : p = (x, a)) (k : Ends (fun p : State × α => Keeps s p.1) p) : Ok s x := by
  subst h; exact k

theorem ofRR {α γ : Type} {x : State} {p : α × γ × State} {a : α} {c : γ} (h : p = (a, c, x))
    (k : Ends (fun p : α × γ × State => Keeps s p.2.2) p) : Ok s x := by
  subst h; exact k

theorem mid {α γ : Type} {x : State} {a : α} {c : γ} (h : Ok s x) : Ends (fun p : α × State × γ => Keeps s p.2.1) (a, x, c) := h

theorem ofMid {α γ : Type} {x : State} {p : α × State × γ} {a : α} {c : γ} (h : p = (a, x, c))
    (k : Ends (fun p : α × State × γ => Keeps s p.2.1) p) : Ok s x := by
  subst h; exact k

theorem ofF3 {α γ : Type} {x : State} {p : State × α × γ} {a : α} {c : γ} (h : p = (x, a, c))
    (k : Ends (fun p : State × α × γ => Keeps s p.1) p) : Ok s x := by
  subst h; exact k

theorem projMid {α γ : Type} {p : α × State × γ} (k : Ends (fun p : α × State × γ => Keeps s p.2.1) p) : Ok s p.2.1 := k

theorem projR {α : Type} {p : α × State} (k : Ends (fun p : α × State => Keeps s p.2) p) : Ok s p.2 := k

theorem projL {α : Type} {p : State × α} (k : Ends (fun p : State × α => Keeps s p.1) p) : Ok s p.1 := k

theorem projRR {α γ : Type} {p : α × γ × State} (k : Ends (fun p : α × γ × State => Keeps s p.2.2) p) : Ok s p.2.2 := k

theorem elim {α : Type} {o : Option α} {b : β} {g : α → β} (h : Ends P b) (k : ∀ a, Ends P (g a)) : Ends P (o.elim b g) := by
  cases o
  · exact h
  · exact k _

theorem idR {x : State} (h : Ok s x) : Ok s (id x) := h

theorem sndOf {α γ : Type} {q : α × γ × State} (k : Ends (fun p : α × γ × State => Keeps s p.2.2) q) :
    Ends (fun p : γ × State => Keeps s p.2) q.2 := k

theorem next {x : State} (h : Ok s x) : Ends (fun r : Host.Outcome State Fault Refusal => ∀ t, r = .next t → Keeps s t) (.next x) := by
  intro t e; cases e; exact h

end Ends
end Sys2Proof.Machine
end

