-- ==== Sys2Proof/Laws/Keeps1.lean ====
section
/-! SUPPORT. Part 1 of 6: no operation of the model undoes what `Keeps` names; one lemma for each, in the order in which they call each
other. -/

set_option linter.all false

namespace Sys2Proof.Machine

open Sys2Proof

theorem State_setReg_keeps {s0 s : State} {a1 a2 a3 : Nat} {a4 : Word} (h : Ok s0 s) : Ok s0 (s.setReg a1 a2 a3 a4) :=
  ⟨h.1, h.2, h.3, h.4, h.5, fun x => SMap.rising_putD (h.6 x) _ _ _⟩

theorem State_setFld_keeps {s0 : State} {s : State} {a1 : ℕ} {a2 : Fld} {a3 : ℕ} (h : Ok s0 s) : Ok s0 (State.setFld s a1 a2 a3) := by
  unfold State.setFld
  refine State_setReg_keeps ?_
  assumption

theorem State_addFld_keeps {s0 : State} {s : State} {a1 : ℕ} {a2 : Fld} {a3 : ℕ} (h : Ok s0 s) : Ok s0 (State.addFld s a1 a2 a3) := by
  unfold State.addFld
  refine State_setFld_keeps ?_
  assumption

theorem State_appendEvent_keeps {s0 : State} {s : State} {a1 : EventRec} (h : Ok s0 s) : Ok s0 (State.appendEvent s a1) := by
  unfold State.appendEvent
  (extract_lets +onlyGivenNames x; clear_value x)
  (extract_lets +onlyGivenNames x; subst x)
  (extract_lets +onlyGivenNames x; refine Ends.cut (x := x) (s := s0) ?_ (fun _ => ?_) <;> [subst x; clear_value x])
  refine Ends.upd ?_
  assumption
  refine State_setFld_keeps ?_
  assumption

theorem State_setFlag_keeps {s0 : State} {s : State} {a1 : ℕ} {a2 : Fld} {a3 : Bool} (h : Ok s0 s) : Ok s0 (State.setFlag s a1 a2 a3) := by
  unfold State.setFlag
  refine State_setFld_keeps ?_
  assumption

theorem State_writeEvent_keeps {s0 : State} {s : State} {a1 : EventRec} (h : Ok s0 s) : Ok s0 (State.writeEvent s a1) := by
  unfold State.writeEvent
  refine Ends.ite ?_ ?_
  refine State_addFld_keeps ?_
  assumption
  (extract_lets +onlyGivenNames x; refine Ends.cut (x := x) (s := s0) ?_ (fun _ => ?_) <;> [subst x; clear_value x])
  refine State_appendEvent_keeps ?_
  assumption
  refine Ends.ite ?_ ?_
  refine State_setFlag_keeps ?_
  refine State_appendEvent_keeps ?_
  assumption
  assumption

theorem State_record_keeps {s0 : State} {s : State} {a1 : EventRec} (h : Ok s0 s) : Ok s0 (State.record s a1) := by
  unfold State.record
  refine Ends.ite ?_ ?_
  refine Ends.ite ?_ ?_
  refine Ends.upd ?_
  assumption
  (extract_lets +onlyGivenNames x; refine Ends.cut (x := x) (s := s0) ?_ (fun _ => ?_) <;> [subst x; clear_value x])
  refine State_addFld_keeps ?_
  assumption
  refine Ends.upd ?_
  assumption
  refine State_writeEvent_keeps ?_
  assumption

theorem State_event_keeps {s0 : State} {s : State} {a1 : ℕ} {a2 : ℕ} {a3 : ℕ} {a4 : ℕ} (h : Ok s0 s) : Ok s0 (State.event s a1 a2 a3 a4) := by
  unfold State.event
  (extract_lets +onlyGivenNames x; clear_value x)
  (extract_lets +onlyGivenNames x; refine Ends.cut (x := x) (s := s0) ?_ (fun _ => ?_) <;> [subst x; clear_value x])
  refine Ends.upd ?_
  assumption
  refine State_record_keeps ?_
  assumption

theorem State_setSess_keeps {s0 : State} {s : State} {a1 : ℕ} {a2 : Sess} (h : Ok s0 s) : Ok s0 (State.setSess s a1 a2) := by
  unfold State.setSess
  refine Ends.upd ?_
  assumption

theorem State_abandonBatch_keeps {s0 : State} {s : State} {a1 : ℕ} {a2 : ℕ} (h : Ok s0 s) : Ok s0 (State.abandonBatch s a1 a2) := by
  unfold State.abandonBatch
  split
  assumption
  refine State_event_keeps ?_
  refine State_setSess_keeps ?_
  assumption

theorem State_setRing_keeps {s0 : State} {s : State} {a1 : ℕ} {a2 : ℕ} {a3 : Ring} (h : Ok s0 s) : Ok s0 (State.setRing s a1 a2 a3) := by
  unfold State.setRing
  refine Ends.upd ?_
  assumption

theorem State_store_keeps {s0 s : State} {a : Nat} {b : Byte} (h : Ok s0 s) : Ok s0 (s.store a b) :=
  ⟨h.1, h.2, h.3, fun x => Memory.wf_put (h.4 x) a b, h.5, h.6⟩

theorem State_stores_keeps {s0 : State} {s : State} {a1 : Nat} {a2 : Bytes} (h : Ok s0 s) : Ok s0 (State.stores s a1 a2) := by
  induction a2 generalizing s a1
  · rw [State.stores.eq_1]
    assumption
  · rename_i ih
    rw [State.stores.eq_2]
    apply ih
    refine State_store_keeps ?_
    assumption

theorem State_placeMsg_keeps {s0 : State} {s : State} {a1 : ℕ} {a2 : ℕ} {a3 : RingMsg} (h : Ok s0 s) : Ok s0 (State.placeMsg s a1 a2 a3) := by
  unfold State.placeMsg
  (extract_lets +onlyGivenNames x; clear_value x)
  (extract_lets +onlyGivenNames x; clear_value x)
  (extract_lets +onlyGivenNames x; clear_value x)
  (extract_lets +onlyGivenNames x; clear_value x)
  (extract_lets +onlyGivenNames x; clear_value x)
  (extract_lets +onlyGivenNames x; clear_value x)
  (extract_lets +onlyGivenNames x; refine Ends.cut (x := x) (s := s0) ?_ (fun _ => ?_) <;> [subst x; clear_value x])
  refine State_stores_keeps ?_
  assumption
  (extract_lets +onlyGivenNames x; refine Ends.cut (x := x) (s := s0) ?_ (fun _ => ?_) <;> [subst x; clear_value x])
  refine State_setRing_keeps ?_
  assumption
  refine State_setFld_keeps ?_
  assumption

theorem State_tryPost_keeps {s0 : State} {s : State} {a1 : ℕ} {a2 : ℕ} {a3 : RingMsg} (h : Ok s0 s) : Ends (fun p : State × Option (ℕ × ℕ) => Keeps s0 p.1) (State.tryPost s a1 a2 a3) := by
  unfold State.tryPost
  (extract_lets +onlyGivenNames x; clear_value x)
  (extract_lets +onlyGivenNames x; refine Ends.cut (x := x) (s := s0) ?_ (fun _ => ?_) <;> [subst x; clear_value x])
  refine State_setRing_keeps ?_
  assumption
  refine Ends.ite ?_ ?_
  refine Ends.fst ?_
  assumption
  refine Ends.ite ?_ ?_
  refine Ends.fst ?_
  refine State_addFld_keeps ?_
  assumption
  (extract_lets +onlyGivenNames x; clear_value x)
  split
  refine Ends.fst ?_
  refine State_placeMsg_keeps ?_
  assumption
  refine Ends.fst ?_
  refine State_setRing_keeps ?_
  assumption

theorem State_postWinfault_keeps {s0 : State} {s : State} {a1 : ℕ} {a2 : FaultRec} (h : Ok s0 s) : Ok s0 (State.postWinfault s a1 a2) := by
  unfold State.postWinfault
  refine Ends.projL ?_
  refine State_tryPost_keeps ?_
  assumption

theorem State_logFault_keeps {s0 : State} {s : State} {a1 : ℕ} {a2 : FaultRec} (h : Ok s0 s) : Ok s0 (State.logFault s a1 a2) := by
  unfold State.logFault
  (extract_lets +onlyGivenNames x; clear_value x)
  (extract_lets +onlyGivenNames x; refine Ends.cut (x := x) (s := s0) ?_ (fun _ => ?_) <;> [subst x; clear_value x])
  refine State_addFld_keeps ?_
  assumption
  refine Ends.ite ?_ ?_
  refine Ends.upd ?_
  assumption
  refine State_addFld_keeps ?_
  assumption

theorem State_setFrz_keeps {s0 : State} {s : State} {a1 : ℕ} {a2 : ℕ} {a3 : ℕ} {a4 : Frz} (h : Ok s0 s) : Ok s0 (State.setFrz s a1 a2 a3 a4) := by
  unfold State.setFrz
  refine Ends.upd ?_
  assumption

theorem State_freezeChan_keeps {s0 : State} {s : State} {a1 : ℕ} {a2 : ℕ} {a3 : ℕ} {a4 : Option (ℕ × AccKind)} (h : Ok s0 s) : Ok s0 (State.freezeChan s a1 a2 a3 a4) := by
  unfold State.freezeChan
  (extract_lets +onlyGivenNames x; refine Ends.cut (x := x) (s := s0) ?_ (fun _ => ?_) <;> [subst x; clear_value x])
  refine State_setFrz_keeps ?_
  assumption
  (extract_lets +onlyGivenNames x; clear_value x)
  (extract_lets +onlyGivenNames x; clear_value x)
  (extract_lets +onlyGivenNames x; refine Ends.cut (x := x) (s := s0) ?_ (fun _ => ?_) <;> [subst x; clear_value x])
  refine State_setFld_keeps ?_
  assumption
  (extract_lets +onlyGivenNames x; refine Ends.cut (x := x) (s := s0) ?_ (fun _ => ?_) <;> [subst x; clear_value x])
  refine State_setFld_keeps ?_
  refine State_setFlag_keeps ?_
  assumption
  refine State_addFld_keeps ?_
  refine State_setFld_keeps ?_
  assumption

theorem State_channelFault_keeps {s0 : State} {s : State} {a1 : ℕ} {a2 : ℕ} {a3 : ℕ} {a4 : ℕ} {a5 : AccKind} {a6 : ℕ} (h : Ok s0 s) : Ok s0 (State.channelFault s a1 a2 a3 a4 a5 a6) := by
  unfold State.channelFault
  (extract_lets +onlyGivenNames x; clear_value x)
  refine State_postWinfault_keeps ?_
  refine State_logFault_keeps ?_
  refine State_freezeChan_keeps ?_
  assumption

theorem State_post_keeps {s0 : State} {s : State} {a1 : ℕ} {a2 : ℕ} {a3 : ℕ} {a4 : RingBody} (h : Ok s0 s) : Ok s0 (State.post s a1 a2 a3 a4) := by
  unfold State.post
  split
  refine Ends.ofL (by assumption) ?_
  refine State_tryPost_keeps ?_
  assumption
  refine State_channelFault_keeps ?_
  refine Ends.ofL (by assumption) ?_
  refine State_tryPost_keeps ?_
  assumption

theorem State_exc_keeps {s0 : State} {s : State} {a1 : ℕ} {a2 : ExcKind} {a3 : List ℕ} (h : Ok s0 s) : Ok s0 (State.exc s a1 a2 a3) := by
  unfold State.exc
  refine State_post_keeps ?_
  assumption

theorem State_setScan_keeps {s0 : State} {s : State} {a1 : ℕ} {a2 : Scan} (h : Ok s0 s) : Ok s0 (State.setScan s a1 a2) := by
  unfold State.setScan
  refine Ends.upd ?_
  assumption

theorem State_waitCopy_keeps {s0 : State} {s : State} {a1 : ℕ} {a2 : ℕ} {a3 : ℕ} (h : Ok s0 s) : Ok s0 (State.waitCopy s a1 a2 a3) := by
  unfold State.waitCopy
  split
  refine Ends.ite ?_ ?_
  assumption
  refine State_setScan_keeps ?_
  assumption
  assumption

theorem State_stickPack_keeps {s0 : State} {s : State} {a1 : ℕ} {a2 : ℕ} {a3 : ℕ} (h : Ok s0 s) : Ok s0 (State.stickPack s a1 a2 a3) := by
  unfold State.stickPack
  refine State_exc_keeps ?_
  refine State_addFld_keeps ?_
  refine State_waitCopy_keeps ?_
  assumption

theorem State_abandonCopy_keeps {s0 : State} {s : State} {a1 : ℕ} {a2 : ℕ} {a3 : ℕ} (h : Ok s0 s) : Ok s0 (State.abandonCopy s a1 a2 a3) := by
  unfold State.abandonCopy
  refine State_exc_keeps ?_
  refine State_stickPack_keeps ?_
  assumption

theorem State_setQueueAt_keeps {s0 : State} {s : State} {a1 : ℕ} {a2 : Queue} (h : Ok s0 s) : Ok s0 (State.setQueueAt s a1 a2) := by
  unfold State.setQueueAt
  refine Ends.upd ?_
  assumption

theorem State_setCmd_keeps {s0 : State} {s : State} {a1 : Cmd} (h : Ok s0 s) : Ok s0 (State.setCmd s a1) := by
  unfold State.setCmd
  refine Ends.upd ?_
  assumption

theorem State_setQp_keeps {s0 : State} {s : State} {a1 : ℕ} {a2 : Qp} (h : Ok s0 s) : Ok s0 (State.setQp s a1 a2) := by
  unfold State.setQp
  refine Ends.upd ?_
  assumption

theorem State_emit_keeps {s0 : State} {s : State} {a1 : Out} (h : Ok s0 s) : Ok s0 (State.emit s a1) := by
  unfold State.emit
  refine Ends.upd ?_
  assumption

theorem State_setFport_keeps {s0 : State} {s : State} {a1 : ℕ} {a2 : Port} (h : Ok s0 s) : Ok s0 (State.setFport s a1 a2) := by
  unfold State.setFport
  refine Ends.upd ?_
  assumption

theorem State_startTx_keeps {s0 : State} {s : State} {a1 : ℕ} (h : Ok s0 s) : Ok s0 (State.startTx s a1) := by
  unfold State.startTx
  (extract_lets +onlyGivenNames x; clear_value x)
  refine Ends.ite ?_ ?_
  assumption
  (extract_lets +onlyGivenNames x; clear_value x)
  (extract_lets +onlyGivenNames x; clear_value x)
  (extract_lets +onlyGivenNames x; clear_value x)
  refine Ends.ite ?_ ?_
  refine State_setFport_keeps ?_
  assumption
  (extract_lets +onlyGivenNames x; clear_value x)
  refine Ends.ite ?_ ?_
  refine State_setFport_keeps ?_
  assumption
  split
  refine State_setFport_keeps ?_
  assumption
  assumption

theorem State_queueFrame_keeps {s0 : State} {s : State} {a1 : ℕ} {a2 : TxFrame} (h : Ok s0 s) : Ok s0 (State.queueFrame s a1 a2) := by
  unfold State.queueFrame
  (extract_lets +onlyGivenNames x; clear_value x)
  refine State_startTx_keeps ?_
  refine State_setFport_keeps ?_
  assumption

theorem State_sendBare_keeps {s0 : State} {s : State} {a1 : Qp} {a2 : ℕ} {a3 : ℕ} {a4 : Out} (h : Ok s0 s) : Ok s0 (State.sendBare s a1 a2 a3 a4) := by
  unfold State.sendBare
  refine State_emit_keeps ?_
  refine State_queueFrame_keeps ?_
  assumption

theorem State_sendAck_keeps {s0 : State} {s : State} {a1 : ℕ} {a2 : Qp} {a3 : ℕ} (h : Ok s0 s) : Ok s0 (State.sendAck s a1 a2 a3) := by
  unfold State.sendAck
  (extract_lets +onlyGivenNames x; clear_value x)
  refine State_sendBare_keeps ?_
  refine State_setQp_keeps ?_
  assumption

theorem State_setGroup_keeps {s0 : State} {s : State} {a1 : ℕ} {a2 : Group} (h : Ok s0 s) : Ok s0 (State.setGroup s a1 a2) := by
  unfold State.setGroup
  refine Ends.upd ?_
  assumption

theorem State_emitMsg_keeps {s0 : State} {s : State} {a1 : ℕ} {a2 : TxMsg} (h : Ok s0 s) : Ok s0 (State.emitMsg s a1 a2) := by
  unfold State.emitMsg
  (extract_lets +onlyGivenNames x; clear_value x)
  (extract_lets +onlyGivenNames x; clear_value x)
  (extract_lets +onlyGivenNames x; clear_value x)
  refine State_emit_keeps ?_
  refine State_setGroup_keeps ?_
  assumption

theorem State_transmit_keeps {s0 : State} {s : State} {a1 : ℕ} {a2 : TxMsg} (h : Ok s0 s) : Ok s0 (State.transmit s a1 a2) := by
  unfold State.transmit
  (extract_lets +onlyGivenNames x; clear_value x)
  (extract_lets +onlyGivenNames x; clear_value x)
  (extract_lets +onlyGivenNames x; clear_value x)
  refine State_emitMsg_keeps ?_
  refine State_setGroup_keeps ?_
  assumption

theorem State_drainGroup_keeps {s0 : State} {s : State} {a1 : ℕ} {a2 : ℕ} (h : Ok s0 s) : Ok s0 (State.drainGroup s a1 a2) := by
  induction a2 generalizing s a1
  · rw [State.drainGroup.eq_1]
    assumption
  · rename_i ih
    rw [State.drainGroup.eq_2]
    refine Ends.ite ?_ ?_
    assumption
    refine Ends.ite ?_ ?_
    beta_reduce
    split
    (extract_lets +onlyGivenNames x; refine Ends.cut (x := x) (s := s0) ?_ (fun _ => ?_) <;> [subst x; clear_value x])
    refine State_setGroup_keeps ?_
    assumption
    apply ih
    refine State_transmit_keeps ?_
    assumption
    assumption
    refine Ends.ite ?_ ?_
    beta_reduce
    split
    (extract_lets +onlyGivenNames x; refine Ends.cut (x := x) (s := s0) ?_ (fun _ => ?_) <;> [subst x; clear_value x])
    refine State_setGroup_keeps ?_
    assumption
    apply ih
    refine State_transmit_keeps ?_
    assumption
    assumption
    split
    beta_reduce
    split
    (extract_lets +onlyGivenNames x; refine Ends.cut (x := x) (s := s0) ?_ (fun _ => ?_) <;> [subst x; clear_value x])
    refine State_setGroup_keeps ?_
    assumption
    apply ih
    refine State_transmit_keeps ?_
    assumption
    assumption
    assumption

theorem State_sendOn_keeps {s0 : State} {s : State} {a1 : ℕ} {a2 : ℕ} {a3 : ℕ} {a4 : ℕ} {a5 : ChlMsg} (h : Ok s0 s) : Ok s0 (State.sendOn s a1 a2 a3 a4 a5) := by
  unfold State.sendOn
  (extract_lets +onlyGivenNames x; clear_value x)
  (extract_lets +onlyGivenNames x; clear_value x)
  (extract_lets +onlyGivenNames x; refine Ends.cut (x := x) (s := s0) ?_ (fun _ => ?_) <;> [subst x; clear_value x])
  refine State_setGroup_keeps ?_
  assumption
  refine State_drainGroup_keeps ?_
  assumption

theorem State_send_keeps {s0 : State} {s : State} {a1 : ℕ} {a2 : ℕ} {a3 : ℕ} {a4 : ChlMsg} (h : Ok s0 s) : Ok s0 (State.send s a1 a2 a3 a4) := by
  unfold State.send
  split
  refine State_sendOn_keeps ?_
  assumption
  assumption

theorem State_forget_keeps {s0 : State} {s : State} {a1 : ℕ} (h : Ok s0 s) : Ok s0 (State.forget s a1) := by
  unfold State.forget
  refine Ends.upd ?_
  assumption

theorem State_ledger_keeps {s0 : State} {s : State} {a1 : Cmd} {a2 : Phase} {a3 : ℕ} (h : Ok s0 s) : Ends (fun p : State × Bool => Keeps s0 p.1) (State.ledger s a1 a2 a3) := by
  unfold State.ledger
  (extract_lets +onlyGivenNames x; clear_value x)
  refine Ends.ite ?_ ?_
  refine Ends.fst ?_
  assumption
  split
  refine Ends.fst ?_
  assumption
  refine Ends.fst ?_
  assumption
  split
  refine Ends.fst ?_
  assumption
  (extract_lets +onlyGivenNames x; clear_value x)
  (extract_lets +onlyGivenNames x; refine Ends.cut (x := x) (s := s0) ?_ (fun _ => ?_) <;> [subst x; clear_value x])
  refine State_setQp_keeps ?_
  assumption
  refine Ends.fst ?_
  refine State_send_keeps ?_
  refine State_setCmd_keeps ?_
  assumption

theorem State_sendPkt_keeps {s0 : State} {s : State} {a1 : ℕ} {a2 : Qp} {a3 : SentPkt} (h : Ok s0 s) : Ok s0 (State.sendPkt s a1 a2 a3) := by
  unfold State.sendPkt
  (extract_lets +onlyGivenNames x; clear_value x)
  refine State_emit_keeps ?_
  refine State_queueFrame_keeps ?_
  assumption

theorem State_sendAt_keeps {s0 : State} {s : State} {a1 : ℕ} {a2 : Qp} {a3 : ℕ} {a4 : ℕ} {a5 : SentKind} (h : Ok s0 s) : Ok s0 (State.sendAt s a1 a2 a3 a4 a5) := by
  unfold State.sendAt
  (extract_lets +onlyGivenNames x; clear_value x)
  (extract_lets +onlyGivenNames x; clear_value x)
  refine State_sendPkt_keeps ?_
  refine State_setQp_keeps ?_
  assumption

theorem State_sendQp_keeps {s0 : State} {s : State} {a1 : ℕ} {a2 : ℕ} {a3 : SentKind} (h : Ok s0 s) : Ok s0 (State.sendQp s a1 a2 a3) := by
  unfold State.sendQp
  split
  assumption
  refine Ends.ite ?_ ?_
  assumption
  refine State_sendAt_keeps ?_
  assumption

theorem State_sendPhase_keeps {s0 : State} {s : State} {a1 : ℕ} {a2 : Phase} {a3 : ℕ} {a4 : ℕ} {a5 : ℕ} {a6 : SentKind} (h : Ok s0 s) : Ok s0 (State.sendPhase s a1 a2 a3 a4 a5 a6) := by
  unfold State.sendPhase
  split
  assumption
  split
  (extract_lets +onlyGivenNames x; clear_value x)
  refine Ends.ite ?_ ?_
  assumption
  refine State_sendAt_keeps ?_
  assumption
  refine Ends.ite ?_ ?_
  assumption
  refine State_sendQp_keeps ?_
  assumption

theorem State_phaseSent_keeps {s0 : State} {s : State} {a1 : ℕ} {a2 : ℕ} {a3 : Phase} (h : Ok s0 s) : Ok s0 (State.phaseSent s a1 a2 a3) := by
  unfold State.phaseSent
  split
  refine Ends.ite ?_ ?_
  refine State_setQp_keeps ?_
  assumption
  assumption
  assumption

theorem State_maxFld_keeps {s0 : State} {s : State} {a1 : ℕ} {a2 : Fld} {a3 : ℕ} (h : Ok s0 s) : Ok s0 (State.maxFld s a1 a2 a3) := by
  unfold State.maxFld
  refine Ends.ite ?_ ?_
  refine State_setFld_keeps ?_
  assumption
  assumption

theorem State_trimResv_keeps {s0 : State} {s : State} {a1 : ℕ} (h : Ok s0 s) : Ok s0 (State.trimResv s a1) := by
  unfold State.trimResv
  split
  assumption
  (extract_lets +onlyGivenNames x; clear_value x)
  split
  assumption
  refine Ends.ite ?_ ?_
  assumption
  (extract_lets +onlyGivenNames x; clear_value x)
  (extract_lets +onlyGivenNames x; refine Ends.cut (x := x) (s := s0) ?_ (fun _ => ?_) <;> [subst x; clear_value x])
  refine State_setQp_keeps ?_
  assumption
  refine Ends.fold ?_ (fun _ _ _ => ?_)
  assumption
  refine Ends.upd ?_
  assumption

theorem State_setLocks_keeps {s0 : State} {s : State} {a1 : List LockEnt} (h : Ok s0 s) : Ok s0 (State.setLocks s a1) := by
  unfold State.setLocks
  refine Ends.upd ?_
  assumption

theorem State_noteWaits_keeps {s0 : State} {s : State} (h : Ok s0 s) : Ok s0 (State.noteWaits s) := by
  unfold State.noteWaits
  refine Ends.fold ?_ (fun _ _ _ => ?_)
  assumption
  (extract_lets +onlyGivenNames x; clear_value x)
  refine Ends.ite ?_ ?_
  assumption
  split
  refine Ends.ite ?_ ?_
  refine State_setLocks_keeps ?_
  assumption
  assumption
  refine Ends.ite ?_ ?_
  assumption
  (extract_lets +onlyGivenNames x; refine Ends.cut (x := x) (s := s0) ?_ (fun _ => ?_) <;> [subst x; clear_value x])
  refine State_setLocks_keeps ?_
  assumption
  refine Ends.upd ?_
  assumption

theorem State_countLocks_keeps {s0 : State} {s : State} (h : Ok s0 s) : Ok s0 (State.countLocks s) := by
  unfold State.countLocks
  (extract_lets +onlyGivenNames x; refine Ends.cut (x := x) (s := s0) ?_ (fun _ => ?_) <;> [subst x; clear_value x])
  refine State_noteWaits_keeps ?_
  assumption
  refine Ends.fold ?_ (fun _ _ _ => ?_)
  assumption
  (extract_lets +onlyGivenNames x; clear_value x)
  (extract_lets +onlyGivenNames x; clear_value x)
  (extract_lets +onlyGivenNames x; clear_value x)
  refine State_maxFld_keeps ?_
  refine State_setFld_keeps ?_
  refine State_setFld_keeps ?_
  assumption

theorem State_enterWaiters_keeps {s0 : State} {s : State} (h : Ok s0 s) : Ok s0 (State.enterWaiters s) := by
  unfold State.enterWaiters
  refine Ends.fold ?_ (fun _ _ _ => ?_)
  assumption
  refine Ends.ite ?_ ?_
  refine State_setLocks_keeps ?_
  assumption
  assumption

theorem State_releaseLocks_keeps {s0 : State} {s : State} {a1 : ℕ} (h : Ok s0 s) : Ok s0 (State.releaseLocks s a1) := by
  unfold State.releaseLocks
  (extract_lets +onlyGivenNames x; clear_value x)
  (extract_lets +onlyGivenNames x; refine Ends.cut (x := x) (s := s0) ?_ (fun _ => ?_) <;> [subst x; clear_value x])
  refine State_setLocks_keeps ?_
  assumption
  (extract_lets +onlyGivenNames x; clear_value x)
  (extract_lets +onlyGivenNames x; subst x)
  (extract_lets +onlyGivenNames x; refine Ends.cut (x := x) (s := s0) ?_ (fun _ => ?_) <;> [subst x; clear_value x])
  refine Ends.upd ?_
  assumption
  (extract_lets +onlyGivenNames x; refine Ends.cut (x := x) (s := s0) ?_ (fun _ => ?_) <;> [subst x; clear_value x])
  refine Ends.fold ?_ (fun _ _ _ => ?_)
  assumption
  refine Ends.ite ?_ ?_
  assumption
  refine State_send_keeps ?_
  assumption
  refine State_countLocks_keeps ?_
  refine State_enterWaiters_keeps ?_
  assumption

theorem State_dropCmds_keeps {s0 : State} {s : State} {a1 : Cmd → Bool} (h : Ok s0 s) : Ok s0 (State.dropCmds s a1) := by
  unfold State.dropCmds
  refine Ends.fold ?_ (fun _ _ _ => ?_)
  assumption
  refine Ends.ite ?_ ?_
  assumption
  refine Ends.ite ?_ ?_
  refine State_trimResv_keeps ?_
  refine State_setCmd_keeps ?_
  assumption
  refine State_trimResv_keeps ?_
  refine State_forget_keeps ?_
  refine State_releaseLocks_keeps ?_
  assumption

theorem State_sendShadow_keeps {s0 : State} {s : State} {a1 : ℕ} (h : Ok s0 s) : Ok s0 (State.sendShadow s a1) := by
  unfold State.sendShadow
  split
  refine Ends.ite ?_ ?_
  assumption
  refine State_send_keeps ?_
  assumption
  assumption

theorem State_reshadow_keeps {s0 : State} {s : State} {a1 : ℕ} (h : Ok s0 s) : Ok s0 (State.reshadow s a1) := by
  unfold State.reshadow
  refine Ends.ite ?_ ?_
  refine State_sendShadow_keeps ?_
  assumption
  assumption

theorem State_deleteCtrl_keeps {s0 : State} {s : State} {a1 : ℕ} (h : Ok s0 s) : Ok s0 (State.deleteCtrl s a1) := by
  unfold State.deleteCtrl
  (extract_lets +onlyGivenNames x; clear_value x)
  (extract_lets +onlyGivenNames x; refine Ends.cut (x := x) (s := s0) ?_ (fun _ => ?_) <;> [subst x; clear_value x])
  refine State_dropCmds_keeps ?_
  assumption
  (extract_lets +onlyGivenNames x; subst x)
  (extract_lets +onlyGivenNames x; refine Ends.cut (x := x) (s := s0) ?_ (fun _ => ?_) <;> [subst x; clear_value x])
  refine Ends.upd ?_
  assumption
  refine Ends.fold ?_ (fun _ _ _ => ?_)
  assumption
  refine State_reshadow_keeps ?_
  assumption

theorem State_deleteQueue_keeps {s0 : State} {s : State} {a1 : ℕ} {a2 : ℕ} (h : Ok s0 s) : Ok s0 (State.deleteQueue s a1 a2) := by
  unfold State.deleteQueue
  (extract_lets +onlyGivenNames x; clear_value x)
  (extract_lets +onlyGivenNames x; refine Ends.cut (x := x) (s := s0) ?_ (fun _ => ?_) <;> [subst x; clear_value x])
  refine State_dropCmds_keeps ?_
  assumption
  (extract_lets +onlyGivenNames x; subst x)
  (extract_lets +onlyGivenNames x; refine Ends.cut (x := x) (s := s0) ?_ (fun _ => ?_) <;> [subst x; clear_value x])
  refine Ends.upd ?_
  assumption
  split
  refine State_reshadow_keeps ?_
  assumption
  assumption

theorem State_afterResponse_keeps {s0 : State} {s : State} {a1 : Cmd} (h : Ok s0 s) : Ok s0 (State.afterResponse s a1) := by
  unfold State.afterResponse
  split
  refine Ends.ite ?_ ?_
  refine State_deleteCtrl_keeps ?_
  assumption
  refine State_deleteQueue_keeps ?_
  assumption
  assumption

theorem State_stageRespond_keeps {s0 : State} {s : State} {a1 : ℕ} (h : Ok s0 s) : Ok s0 (State.stageRespond s a1) := by
  unfold State.stageRespond
  split
  assumption
  split
  assumption
  refine Ends.ite ?_ ?_
  refine State_forget_keeps ?_
  assumption
  refine Ends.ite ?_ ?_
  assumption
  split
  refine Ends.ofL (by assumption) ?_
  refine State_ledger_keeps ?_
  assumption
  refine Ends.ite ?_ ?_
  refine Ends.ofL (by assumption) ?_
  refine State_ledger_keeps ?_
  assumption
  (extract_lets +onlyGivenNames x; refine Ends.cut (x := x) (s := s0) ?_ (fun _ => ?_) <;> [subst x; clear_value x])
  refine State_sendPhase_keeps ?_
  refine Ends.ofL (by assumption) ?_
  refine State_ledger_keeps ?_
  assumption
  (extract_lets +onlyGivenNames x; refine Ends.cut (x := x) (s := s0) ?_ (fun _ => ?_) <;> [subst x; clear_value x])
  split
  refine State_sendPhase_keeps ?_
  assumption
  assumption
  (extract_lets +onlyGivenNames x; refine Ends.cut (x := x) (s := s0) ?_ (fun _ => ?_) <;> [subst x; clear_value x])
  refine State_phaseSent_keeps ?_
  assumption
  (extract_lets +onlyGivenNames x; refine Ends.cut (x := x) (s := s0) ?_ (fun _ => ?_) <;> [subst x; clear_value x])
  refine Ends.ite ?_ ?_
  refine State_maxFld_keeps ?_
  assumption
  assumption
  refine State_afterResponse_keeps ?_
  refine State_forget_keeps ?_
  assumption

theorem State_sendData_keeps {s0 : State} {s : State} {a1 : ℕ} {a2 : ℕ} {a3 : ℕ} {a4 : ℕ} {a5 : List Bytes} (h : Ok s0 s) : Ok s0 (State.sendData s a1 a2 a3 a4 a5) := by
  induction a5 generalizing s a1 a2 a3 a4
  · rw [State.sendData.eq_1]
    assumption
  · rename_i ih
    rw [State.sendData.eq_2]
    apply ih
    refine State_sendPhase_keeps ?_
    assumption

theorem State_finish_keeps {s0 : State} {s : State} {a1 : Cmd} {a2 : Status} {a3 : ℕ} (h : Ok s0 s) : Ok s0 (State.finish s a1 a2 a3) := by
  unfold State.finish
  refine State_trimResv_keeps ?_
  refine State_releaseLocks_keeps ?_
  refine State_setCmd_keeps ?_
  assumption

theorem State_stageSend_keeps {s0 : State} {s : State} {a1 : ℕ} (h : Ok s0 s) : Ok s0 (State.stageSend s a1) := by
  unfold State.stageSend
  split
  assumption
  (extract_lets +onlyGivenNames x; clear_value x)
  split
  refine Ends.ite ?_ ?_
  assumption
  (extract_lets +onlyGivenNames x; clear_value x)
  split
  refine Ends.ofL (by assumption) ?_
  refine State_ledger_keeps ?_
  assumption
  refine Ends.ite ?_ ?_
  refine Ends.ofL (by assumption) ?_
  refine State_ledger_keeps ?_
  assumption
  (extract_lets +onlyGivenNames x; clear_value x)
  (extract_lets +onlyGivenNames x; refine Ends.cut (x := x) (s := s0) ?_ (fun _ => ?_) <;> [subst x; clear_value x])
  refine State_phaseSent_keeps ?_
  refine State_sendData_keeps ?_
  refine State_setCmd_keeps ?_
  refine Ends.ofL (by assumption) ?_
  refine State_ledger_keeps ?_
  assumption
  (extract_lets +onlyGivenNames x; clear_value x)
  (extract_lets +onlyGivenNames x; refine Ends.cut (x := x) (s := s0) ?_ (fun _ => ?_) <;> [subst x; clear_value x])
  refine Ends.ite ?_ ?_
  refine State_maxFld_keeps ?_
  assumption
  assumption
  refine State_finish_keeps ?_
  assumption
  assumption

theorem State_setSport_keeps {s0 : State} {s : State} {a1 : ℕ} {a2 : SPort} (h : Ok s0 s) : Ok s0 (State.setSport s a1 a2) := by
  unfold State.setSport
  refine Ends.upd ?_
  assumption

theorem State_emitSfb_keeps {s0 : State} {s : State} {a1 : ℕ} {a2 : SfbTx} (h : Ok s0 s) : Ok s0 (State.emitSfb s a1 a2) := by
  unfold State.emitSfb
  (extract_lets +onlyGivenNames x; clear_value x)
  (extract_lets +onlyGivenNames x; clear_value x)
  refine State_emit_keeps ?_
  refine State_setSport_keeps ?_
  assumption

theorem State_drainPort_keeps {s0 : State} {s : State} {a1 : ℕ} {a2 : ℕ} (h : Ok s0 s) : Ok s0 (State.drainPort s a1 a2) := by
  induction a2 generalizing s a1
  · rw [State.drainPort.eq_1]
    assumption
  · rename_i ih
    rw [State.drainPort.eq_2]
    refine Ends.ite ?_ ?_
    assumption
    refine Ends.ite ?_ ?_
    beta_reduce
    split
    (extract_lets +onlyGivenNames x; clear_value x)
    (extract_lets +onlyGivenNames x; clear_value x)
    apply ih
    refine State_emitSfb_keeps ?_
    refine State_setSport_keeps ?_
    assumption
    assumption
    refine Ends.ite ?_ ?_
    beta_reduce
    split
    (extract_lets +onlyGivenNames x; clear_value x)
    (extract_lets +onlyGivenNames x; clear_value x)
    apply ih
    refine State_emitSfb_keeps ?_
    refine State_setSport_keeps ?_
    assumption
    assumption
    split
    beta_reduce
    split
    (extract_lets +onlyGivenNames x; clear_value x)
    (extract_lets +onlyGivenNames x; clear_value x)
    apply ih
    refine State_emitSfb_keeps ?_
    refine State_setSport_keeps ?_
    assumption
    assumption
    assumption

theorem State_sendOp_keeps {s0 : State} {s : State} {a1 : MedOp} (h : Ok s0 s) : Ok s0 (State.sendOp s a1) := by
  unfold State.sendOp
  (extract_lets +onlyGivenNames x; clear_value x)
  (extract_lets +onlyGivenNames x; clear_value x)
  (extract_lets +onlyGivenNames x; subst x)
  (extract_lets +onlyGivenNames x; refine Ends.cut (x := x) (s := s0) ?_ (fun _ => ?_) <;> [subst x; clear_value x])
  refine Ends.upd ?_
  assumption
  (extract_lets +onlyGivenNames x; clear_value x)
  (extract_lets +onlyGivenNames x; refine Ends.cut (x := x) (s := s0) ?_ (fun _ => ?_) <;> [subst x; clear_value x])
  refine State_setSport_keeps ?_
  assumption
  refine State_drainPort_keeps ?_
  assumption

theorem State_setDie_keeps {s0 : State} {s : State} {a1 : ℕ} {a2 : DieInfo} (h : Ok s0 s) : Ok s0 (State.setDie s a1 a2) := by
  unfold State.setDie
  refine Ends.upd ?_
  assumption

theorem State_noteSuspend_keeps {s0 : State} {s : State} {a1 : MedOp} (h : Ok s0 s) : Ok s0 (State.noteSuspend s a1) := by
  unfold State.noteSuspend
  split
  (extract_lets +onlyGivenNames x; clear_value x)
  refine Ends.ite ?_ ?_
  refine State_addFld_keeps ?_
  refine State_setDie_keeps ?_
  assumption
  assumption
  (extract_lets +onlyGivenNames x; clear_value x)
  refine Ends.ite ?_ ?_
  refine State_addFld_keeps ?_
  refine State_setDie_keeps ?_
  assumption
  assumption
  assumption

theorem State_pump_keeps {s0 : State} {s : State} {a1 : ℕ} (h : Ok s0 s) : Ok s0 (State.pump s a1) := by
  induction a1 generalizing s
  · rw [State.pump.eq_1]
    assumption
  · rename_i ih
    rw [State.pump.eq_2]
    split
    beta_reduce
    (extract_lets +onlyGivenNames x; subst x)
    (extract_lets +onlyGivenNames x; refine Ends.cut (x := x) (s := s0) ?_ (fun _ => ?_) <;> [subst x; clear_value x])
    refine Ends.upd ?_
    assumption
    apply ih
    refine State_sendOp_keeps ?_
    refine State_noteSuspend_keeps ?_
    assumption
    split
    split
    beta_reduce
    (extract_lets +onlyGivenNames x; subst x)
    (extract_lets +onlyGivenNames x; refine Ends.cut (x := x) (s := s0) ?_ (fun _ => ?_) <;> [subst x; clear_value x])
    refine Ends.upd ?_
    assumption
    apply ih
    refine State_sendOp_keeps ?_
    refine State_noteSuspend_keeps ?_
    assumption
    assumption
    assumption

theorem State_issue_keeps {s0 : State} {s : State} {a1 : MedOp} (h : Ok s0 s) : Ok s0 (State.issue s a1) := by
  unfold State.issue
  refine Ends.ite ?_ ?_
  assumption
  (extract_lets +onlyGivenNames x; subst x)
  (extract_lets +onlyGivenNames x; refine Ends.cut (x := x) (s := s0) ?_ (fun _ => ?_) <;> [subst x; clear_value x])
  refine Ends.upd ?_
  assumption
  refine State_pump_keeps ?_
  assumption

theorem State_programIn_keeps {s0 : State} {s : State} {a1 : JRec} {a2 : ℕ} (h : Ok s0 s) : Ok s0 (State.programIn s a1 a2) := by
  unfold State.programIn
  (extract_lets +onlyGivenNames x; clear_value x)
  (extract_lets +onlyGivenNames x; subst x)
  (extract_lets +onlyGivenNames x; refine Ends.cut (x := x) (s := s0) ?_ (fun _ => ?_) <;> [subst x; clear_value x])
  refine Ends.upd ?_
  assumption
  (extract_lets +onlyGivenNames x; clear_value x)
  refine Ends.fold ?_ (fun _ _ _ => ?_)
  assumption
  (extract_lets +onlyGivenNames x; clear_value x)
  refine State_issue_keeps ?_
  assumption

theorem State_programRec_keeps {s0 : State} {s : State} {a1 : JRec} {a2 : ℕ} (h : Ok s0 s) : Ok s0 (State.programRec s a1 a2) := by
  unfold State.programRec
  (extract_lets +onlyGivenNames x; clear_value x)
  (extract_lets +onlyGivenNames x; clear_value x)
  (extract_lets +onlyGivenNames x; subst x)
  (extract_lets +onlyGivenNames x; refine Ends.cut (x := x) (s := s0) ?_ (fun _ => ?_) <;> [subst x; clear_value x])
  refine Ends.upd ?_
  assumption
  refine Ends.fold ?_ (fun _ _ _ => ?_)
  assumption
  refine State_programIn_keeps ?_
  assumption

theorem State_setJent_keeps {s0 : State} {s : State} {a1 : ℕ} {a2 : ℕ} {a3 : JEnt} (h : Ok s0 s) : Ok s0 (State.setJent s a1 a2 a3) := by
  unfold State.setJent
  refine Ends.ite ?_ ?_
  refine Ends.upd ?_
  assumption
  refine Ends.upd ?_
  assumption

theorem State_raiseCopies_keeps {s0 : State} {s : State} {a1 : ℕ} (h : Ok s0 s) : Ok s0 (State.raiseCopies s a1) := by
  unfold State.raiseCopies
  refine Ends.ite ?_ ?_
  assumption
  refine Ends.fold ?_ (fun _ _ _ => ?_)
  assumption
  (extract_lets +onlyGivenNames x; refine Ends.cut (x := x) (s := s0) ?_ (fun _ => ?_) <;> [subst x; clear_value x])
  refine State_programRec_keeps ?_
  assumption
  split
  refine State_setJent_keeps ?_
  assumption
  assumption

theorem State_lagCheck_keeps {s0 : State} {s : State} (h : Ok s0 s) : Ok s0 (State.lagCheck s) := by
  unfold State.lagCheck
  (extract_lets +onlyGivenNames x; clear_value x)
  refine Ends.upd ?_
  assumption

theorem State_finish2_keeps {s0 : State} {s : State} {a1 : Cmd} {a2 : Status} {a3 : Status} (h : Ok s0 s) : Ok s0 (State.finish2 s a1 a2 a3) := by
  unfold State.finish2
  refine State_trimResv_keeps ?_
  refine State_releaseLocks_keeps ?_
  refine State_setCmd_keeps ?_
  assumption

theorem State_stageComplete_keeps {s0 : State} {s : State} {a1 : ℕ} (h : Ok s0 s) : Ok s0 (State.stageComplete s a1) := by
  unfold State.stageComplete
  split
  assumption
  refine Ends.ite ?_ ?_
  assumption
  (extract_lets +onlyGivenNames x; refine Ends.cut (x := x) (s := s0) ?_ (fun _ => ?_) <;> [subst x; clear_value x])
  refine State_raiseCopies_keeps ?_
  assumption
  (extract_lets +onlyGivenNames x; refine Ends.cut (x := x) (s := s0) ?_ (fun _ => ?_) <;> [subst x; clear_value x])
  refine State_lagCheck_keeps ?_
  assumption
  (extract_lets +onlyGivenNames x; clear_value x)
  (extract_lets +onlyGivenNames x; clear_value x)
  refine Ends.ite ?_ ?_
  assumption
  split
  refine State_finish2_keeps ?_
  assumption
  refine State_finish_keeps ?_
  assumption

theorem State_markBegun_keeps {s0 : State} {s : State} {a1 : ℕ} (h : Ok s0 s) : Ok s0 (State.markBegun s a1) := by
  unfold State.markBegun
  refine State_setLocks_keeps ?_
  assumption

theorem State_postIntent_keeps {s0 : State} {s : State} {a1 : JRec} (h : Ok s0 s) : Ok s0 (State.postIntent s a1) := by
  unfold State.postIntent
  split
  (extract_lets +onlyGivenNames x; subst x)
  (extract_lets +onlyGivenNames x; refine Ends.cut (x := x) (s := s0) ?_ (fun _ => ?_) <;> [subst x; clear_value x])
  refine Ends.upd ?_
  assumption
  refine State_issue_keeps ?_
  assumption
  assumption

theorem State_journalRegs_keeps {s0 : State} {s : State} (h : Ok s0 s) : Ok s0 (State.journalRegs s) := by
  unfold State.journalRegs
  (extract_lets +onlyGivenNames x; refine Ends.cut (x := x) (s := s0) ?_ (fun _ => ?_) <;> [subst x; clear_value x])
  refine State_setFld_keeps ?_
  assumption
  refine State_setFlag_keeps ?_
  assumption

theorem State_pgPacket_keeps {s0 : State} {s : State} {a1 : Sess} {a2 : ℕ} {a3 : PgHdr} {a4 : ℕ} {a5 : Bytes} (h : Ok s0 s) : Ok s0 (State.pgPacket s a1 a2 a3 a4 a5) := by
  unfold State.pgPacket
  (extract_lets +onlyGivenNames x; clear_value x)
  refine Ends.upd ?_
  assumption

theorem State_sendSlot_keeps {s0 : State} {s : State} {a1 : ℕ} {a2 : ℕ} {a3 : ℕ} {a4 : Bool} (h : Ok s0 s) : Ok s0 (State.sendSlot s a1 a2 a3 a4) := by
  unfold State.sendSlot
  split
  assumption
  split
  assumption
  (extract_lets +onlyGivenNames x; clear_value x)
  (extract_lets +onlyGivenNames x; clear_value x)
  (extract_lets +onlyGivenNames x; clear_value x)
  split
  (extract_lets +onlyGivenNames x; clear_value x)
  (extract_lets +onlyGivenNames x; clear_value x)
  (extract_lets +onlyGivenNames x; clear_value x)
  (extract_lets +onlyGivenNames x; clear_value x)
  refine State_pgPacket_keeps ?_
  refine State_setSess_keeps ?_
  assumption

theorem State_sendSlots_keeps {s0 : State} {s : State} {a1 : ℕ} {a2 : ℕ} {a3 : Bool} (h : Ok s0 s) : Ok s0 (State.sendSlots s a1 a2 a3) := by
  unfold State.sendSlots
  split
  refine Ends.fold ?_ (fun _ _ _ => ?_)
  assumption
  refine State_sendSlot_keeps ?_
  assumption
  assumption

theorem State_pgFlush_keeps {s0 : State} {s : State} {a1 : ℕ} {a2 : ℕ} (h : Ok s0 s) : Ok s0 (State.pgFlush s a1 a2) := by
  induction a2 generalizing s a1
  · rw [State.pgFlush.eq_1]
    assumption
  · rename_i ih
    rw [State.pgFlush.eq_2]
    split
    assumption
    split
    assumption
    refine Ends.ite ?_ ?_
    assumption
    (extract_lets +onlyGivenNames x; clear_value x)
    (extract_lets +onlyGivenNames x; clear_value x)
    apply ih
    refine State_sendSlots_keeps ?_
    refine State_setSess_keeps ?_
    assumption

theorem State_sendMsg_keeps {s0 : State} {s : State} {a1 : ℕ} {a2 : Bytes} (h : Ok s0 s) : Ok s0 (State.sendMsg s a1 a2) := by
  unfold State.sendMsg
  split
  assumption
  refine State_pgFlush_keeps ?_
  refine State_setSess_keeps ?_
  assumption

theorem State_sendJrec_keeps {s0 : State} {s : State} {a1 : ℕ} {a2 : JRec} (h : Ok s0 s) : Ok s0 (State.sendJrec s a1 a2) := by
  unfold State.sendJrec
  split
  assumption
  (extract_lets +onlyGivenNames x; clear_value x)
  (extract_lets +onlyGivenNames x; clear_value x)
  refine State_sendMsg_keeps ?_
  refine State_setSess_keeps ?_
  assumption

theorem State_setJack_keeps {s0 : State} {s : State} {a1 : ℕ} {a2 : ℕ} {a3 : Bool} (h : Ok s0 s) : Ok s0 (State.setJack s a1 a2 a3) := by
  unfold State.setJack
  refine Ends.ite ?_ ?_
  refine Ends.upd ?_
  assumption
  refine Ends.upd ?_
  assumption

theorem State_replicate_keeps {s0 : State} {s : State} {a1 : JRec} (h : Ok s0 s) : Ok s0 (State.replicate s a1) := by
  unfold State.replicate
  refine Ends.ite ?_ ?_
  assumption
  split
  refine Ends.ite ?_ ?_
  assumption
  refine State_sendJrec_keeps ?_
  refine State_setJack_keeps ?_
  assumption
  assumption

theorem State_appendRec_keeps {s0 : State} {s : State} {a1 : JRec} (h : Ok s0 s) : Ok s0 (State.appendRec s a1) := by
  unfold State.appendRec
  (extract_lets +onlyGivenNames x; clear_value x)
  (extract_lets +onlyGivenNames x; clear_value x)
  (extract_lets +onlyGivenNames x; clear_value x)
  (extract_lets +onlyGivenNames x; subst x)
  (extract_lets +onlyGivenNames x; refine Ends.cut (x := x) (s := s0) ?_ (fun _ => ?_) <;> [subst x; clear_value x])
  refine Ends.upd ?_
  assumption
  (extract_lets +onlyGivenNames x; clear_value x)
  (extract_lets +onlyGivenNames x; refine Ends.cut (x := x) (s := s0) ?_ (fun _ => ?_) <;> [subst x; clear_value x])
  refine Ends.ite ?_ ?_
  refine State_send_keeps ?_
  assumption
  assumption
  (extract_lets +onlyGivenNames x; refine Ends.cut (x := x) (s := s0) ?_ (fun _ => ?_) <;> [subst x; clear_value x])
  refine Ends.ite ?_ ?_
  assumption
  refine State_postIntent_keeps ?_
  assumption
  refine State_journalRegs_keeps ?_
  refine State_replicate_keeps ?_
  refine State_programRec_keeps ?_
  assumption

theorem State_stageAppend_keeps {s0 : State} {s : State} {a1 : ℕ} (h : Ok s0 s) : Ok s0 (State.stageAppend s a1) := by
  unfold State.stageAppend
  split
  assumption
  split
  assumption
  refine Ends.ite ?_ ?_
  assumption
  split
  split
  refine State_finish2_keeps ?_
  assumption
  refine State_finish_keeps ?_
  assumption
  (extract_lets +onlyGivenNames x; clear_value x)
  (extract_lets +onlyGivenNames x; clear_value x)
  refine Ends.ite ?_ ?_
  (extract_lets +onlyGivenNames x; clear_value x)
  (extract_lets +onlyGivenNames x; refine Ends.cut (x := x) (s := s0) ?_ (fun _ => ?_) <;> [subst x; clear_value x])
  refine State_setCmd_keeps ?_
  assumption
  refine Ends.ite ?_ ?_
  refine State_event_keeps ?_
  assumption
  assumption
  (extract_lets +onlyGivenNames x; clear_value x)
  (extract_lets +onlyGivenNames x; refine Ends.cut (x := x) (s := s0) ?_ (fun _ => ?_) <;> [subst x; clear_value x])
  refine State_markBegun_keeps ?_
  refine State_setCmd_keeps ?_
  assumption
  refine State_lagCheck_keeps ?_
  refine Ends.fold ?_ (fun _ _ _ => ?_)
  assumption
  refine State_appendRec_keeps ?_
  assumption

theorem State_stageJudge_keeps {s0 : State} {s : State} {a1 : ℕ} (h : Ok s0 s) : Ok s0 (State.stageJudge s a1) := by
  unfold State.stageJudge
  split
  assumption
  split
  assumption
  refine Ends.ite ?_ ?_
  assumption
  refine Ends.ite ?_ ?_
  split
  refine State_finish2_keeps ?_
  assumption
  refine State_finish_keeps ?_
  assumption
  split
  assumption
  split
  refine State_finish_keeps ?_
  assumption
  split
  refine State_finish_keeps ?_
  assumption
  assumption
  split
  refine Ends.ite ?_ ?_
  assumption
  refine State_finish2_keeps ?_
  assumption
  assumption
  assumption

theorem State_newCw_keeps {s0 : State} {s : State} {a1 : ℕ} {a2 : ℕ} {a3 : ℕ} {a4 : CwWhy} (h : Ok s0 s) : Ends (fun p : State × ℕ => Keeps s0 p.1) (State.newCw s a1 a2 a3 a4) := by
  unfold State.newCw
  (extract_lets +onlyGivenNames x; clear_value x)
  (extract_lets +onlyGivenNames x; clear_value x)
  refine Ends.fst ?_
  refine Ends.upd ?_
  assumption

theorem State_endCw_keeps {s0 : State} {s : State} {a1 : ℕ} {a2 : Option Bytes} (h : Ok s0 s) : Ok s0 (State.endCw s a1 a2) := by
  unfold State.endCw
  split
  assumption
  refine Ends.upd ?_
  assumption

theorem State_setCw_keeps {s0 : State} {s : State} {a1 : ℕ} {a2 : CwReq} (h : Ok s0 s) : Ok s0 (State.setCw s a1 a2) := by
  unfold State.setCw
  refine Ends.upd ?_
  assumption

theorem State_slotLost_keeps {s0 : State} {s : State} {a1 : ℕ} (h : Ok s0 s) : Ok s0 (State.slotLost s a1) := by
  unfold State.slotLost
  split
  assumption
  refine State_endCw_keeps ?_
  refine State_exc_keeps ?_
  refine State_addFld_keeps ?_
  assumption

theorem State_sense_keeps {s0 : State} {s : State} {a1 : ℕ} {a2 : CwReq} {a3 : ℕ} (h : Ok s0 s) : Ok s0 (State.sense s a1 a2 a3) := by
  unfold State.sense
  refine State_issue_keeps ?_
  assumption

theorem State_startAround_keeps {s0 : State} {s : State} {a1 : ℕ} (h : Ok s0 s) : Ok s0 (State.startAround s a1) := by
  unfold State.startAround
  split
  assumption
  split
  refine State_endCw_keeps ?_
  assumption
  (extract_lets +onlyGivenNames x; clear_value x)
  (extract_lets +onlyGivenNames x; clear_value x)
  (extract_lets +onlyGivenNames x; clear_value x)
  (extract_lets +onlyGivenNames x; clear_value x)
  (extract_lets +onlyGivenNames x; refine Ends.cut (x := x) (s := s0) ?_ (fun _ => ?_) <;> [subst x; clear_value x])
  refine State_setCw_keeps ?_
  assumption
  (extract_lets +onlyGivenNames x; clear_value x)
  (extract_lets +onlyGivenNames x; refine Ends.cut (x := x) (s := s0) ?_ (fun _ => ?_) <;> [subst x; clear_value x])
  refine Ends.ite ?_ ?_
  refine State_addFld_keeps ?_
  assumption
  assumption
  refine Ends.ite ?_ ?_
  refine State_endCw_keeps ?_
  assumption
  refine Ends.ite ?_ ?_
  refine State_slotLost_keeps ?_
  assumption
  refine Ends.fold ?_ (fun _ _ _ => ?_)
  assumption
  split
  split
  (extract_lets +onlyGivenNames x; clear_value x)
  refine State_sense_keeps ?_
  refine State_setCw_keeps ?_
  refine Ends.ofL (by assumption) ?_
  refine State_newCw_keeps ?_
  assumption
  refine Ends.ofL (by assumption) ?_
  refine State_newCw_keeps ?_
  assumption

theorem State_requestCw_keeps {s0 : State} {s : State} {a1 : ℕ} {a2 : ℕ} {a3 : ℕ} {a4 : CwWhy} (h : Ok s0 s) : Ok s0 (State.requestCw s a1 a2 a3 a4) := by
  unfold State.requestCw
  split
  split
  refine Ends.ofL (by assumption) ?_
  refine State_newCw_keeps ?_
  assumption
  (extract_lets +onlyGivenNames x; subst x)
  refine Ends.ite ?_ ?_
  refine State_startAround_keeps ?_
  refine Ends.ofL (by assumption) ?_
  refine State_newCw_keeps ?_
  assumption
  refine Ends.ite ?_ ?_
  refine State_startAround_keeps ?_
  refine Ends.ofL (by assumption) ?_
  refine State_newCw_keeps ?_
  assumption
  refine Ends.ite ?_ ?_
  refine State_sense_keeps ?_
  refine Ends.ofL (by assumption) ?_
  refine State_newCw_keeps ?_
  assumption
  refine Ends.ite ?_ ?_
  refine State_startAround_keeps ?_
  refine Ends.ofL (by assumption) ?_
  refine State_newCw_keeps ?_
  assumption
  refine Ends.ite ?_ ?_
  refine State_sense_keeps ?_
  refine Ends.ofL (by assumption) ?_
  refine State_newCw_keeps ?_
  assumption
  refine State_startAround_keeps ?_
  refine Ends.ofL (by assumption) ?_
  refine State_newCw_keeps ?_
  assumption

theorem State_askPack_keeps {s0 : State} {s : State} {a1 : ℕ} {a2 : PackRd} {a3 : ℕ} {a4 : ℕ} (h : Ok s0 s) : Ok s0 (State.askPack s a1 a2 a3 a4) := by
  unfold State.askPack
  refine Ends.fold ?_ (fun _ _ _ => ?_)
  assumption
  split
  refine Ends.ite ?_ ?_
  split
  refine State_startAround_keeps ?_
  refine Ends.ofL (by assumption) ?_
  refine State_newCw_keeps ?_
  assumption
  refine State_requestCw_keeps ?_
  assumption
  refine Ends.upd ?_
  assumption

theorem State_readPack_keeps {s0 : State} {s : State} {a1 : ℕ} {a2 : ℕ} {a3 : ℕ} {a4 : ℕ} {a5 : ℕ} {a6 : RdUser} (h : Ok s0 s) : Ok s0 (State.readPack s a1 a2 a3 a4 a5 a6) := by
  unfold State.readPack
  split
  refine Ends.upd ?_
  assumption
  (extract_lets +onlyGivenNames x; clear_value x)
  (extract_lets +onlyGivenNames x; clear_value x)
  (extract_lets +onlyGivenNames x; clear_value x)
  (extract_lets +onlyGivenNames x; subst x)
  (extract_lets +onlyGivenNames x; refine Ends.cut (x := x) (s := s0) ?_ (fun _ => ?_) <;> [subst x; clear_value x])
  refine Ends.upd ?_
  assumption
  refine State_askPack_keeps ?_
  assumption

theorem State_askChunk_keeps {s0 : State} {s : State} {a1 : ℕ} {a2 : ℕ} {a3 : ℕ} {a4 : Cmd} (h : Ok s0 s) : Ok s0 (State.askChunk s a1 a2 a3 a4) := by
  unfold State.askChunk
  (extract_lets +onlyGivenNames x; clear_value x)
  refine State_readPack_keeps ?_
  assumption

theorem State_csaCount_keeps {s0 : State} {s : State} {a1 : ℕ} {a2 : ℕ} {a3 : ℕ} (h : Ok s0 s) : Ok s0 (State.csaCount s a1 a2 a3) := by
  unfold State.csaCount
  refine State_addFld_keeps ?_
  assumption

theorem State_csaFloor_keeps {s0 : State} {s : State} {a1 : ℕ} {a2 : CsaPart} {a3 : ℕ} (h : Ok s0 s) : Ends (fun p : State × Option (ℕ × CsaEnt) => Keeps s0 p.1) (State.csaFloor s a1 a2 a3) := by
  unfold State.csaFloor
  (extract_lets +onlyGivenNames x; clear_value x)
  (extract_lets +onlyGivenNames x; refine Ends.cut (x := x) (s := s0) ?_ (fun _ => ?_) <;> [subst x; clear_value x])
  refine State_csaCount_keeps ?_
  assumption
  refine Ends.fst ?_
  refine Ends.ite ?_ ?_
  refine State_csaCount_keeps ?_
  assumption
  assumption

theorem State_ordLookup_keeps {s0 : State} {s : State} {a1 : ℕ} {a2 : Key} (h : Ok s0 s) : Ends (fun p : State × Option ℕ => Keeps s0 p.1) (State.ordLookup s a1 a2) := by
  unfold State.ordLookup
  (extract_lets +onlyGivenNames x; clear_value x)
  split
  refine Ends.fst ?_
  assumption
  (extract_lets +onlyGivenNames x; clear_value x)
  split
  split
  refine Ends.fst ?_
  refine Ends.ofL (by assumption) ?_
  refine State_csaFloor_keeps ?_
  assumption
  (extract_lets +onlyGivenNames x; subst x)
  (extract_lets +onlyGivenNames x; subst x)
  refine Ends.ite ?_ ?_
  refine Ends.fst ?_
  refine Ends.ofL (by assumption) ?_
  refine State_csaFloor_keeps ?_
  assumption
  refine Ends.fst ?_
  refine Ends.ofL (by assumption) ?_
  refine State_csaFloor_keeps ?_
  assumption

theorem State_setCsa_keeps {s0 : State} {s : State} {a1 : ℕ} {a2 : Csa} (h : Ok s0 s) : Ok s0 (State.setCsa s a1 a2) := by
  unfold State.setCsa
  refine Ends.upd ?_
  assumption

theorem State_csaOrdInsert_keeps {s0 : State} {s : State} {a1 : ℕ} {a2 : ℕ} {a3 : CsaPart} {a4 : CsaEnt} (h : Ok s0 s) : Ends (fun p : State × ℕ => Keeps s0 p.1) (State.csaOrdInsert s a1 a2 a3 a4) := by
  unfold State.csaOrdInsert
  (extract_lets +onlyGivenNames x; clear_value x)
  (extract_lets +onlyGivenNames x; clear_value x)
  refine Ends.ite ?_ ?_
  refine Ends.fst ?_
  assumption
  refine Ends.ite ?_ ?_
  refine Ends.fst ?_
  assumption
  (extract_lets +onlyGivenNames x; subst x; beta_reduce)
  split
  refine Ends.fst ?_
  refine State_csaCount_keeps ?_
  refine State_setCsa_keeps ?_
  assumption
  (extract_lets +onlyGivenNames x; clear_value x)
  (extract_lets +onlyGivenNames x; clear_value x)
  (extract_lets +onlyGivenNames x; clear_value x)
  refine Ends.ite ?_ ?_
  refine Ends.fst ?_
  refine State_csaCount_keeps ?_
  refine State_setCsa_keeps ?_
  assumption
  (extract_lets +onlyGivenNames x; clear_value x)
  (extract_lets +onlyGivenNames x; clear_value x)
  split
  refine Ends.fst ?_
  refine State_csaCount_keeps ?_
  refine State_setCsa_keeps ?_
  assumption
  split
  refine Ends.fst ?_
  refine State_csaCount_keeps ?_
  refine State_setCsa_keeps ?_
  refine State_csaCount_keeps ?_
  assumption
  refine Ends.fst ?_
  refine State_csaCount_keeps ?_
  refine State_setCsa_keeps ?_
  refine State_csaCount_keeps ?_
  assumption
  refine Ends.fst ?_
  refine State_csaCount_keeps ?_
  refine State_setCsa_keeps ?_
  refine State_csaCount_keeps ?_
  assumption

theorem State_ordEnter_keeps {s0 : State} {s : State} {a1 : ℕ} {a2 : Key} {a3 : Option Key} {a4 : ℕ} (h : Ok s0 s) : Ok s0 (State.ordEnter s a1 a2 a3 a4) := by
  unfold State.ordEnter
  (extract_lets +onlyGivenNames x; clear_value x)
  split
  refine Ends.projL ?_
  refine State_csaOrdInsert_keeps ?_
  assumption
  assumption

theorem State_resolveLeaf_keeps {s0 : State} {s : State} {a1 : ℕ} {a2 : Key} (h : Ok s0 s) : Ok s0 (State.resolveLeaf s a1 a2) := by
  unfold State.resolveLeaf
  split
  refine Ends.ofL (by assumption) ?_
  refine State_ordLookup_keeps ?_
  assumption
  split
  refine Ends.ofL (by assumption) ?_
  refine State_ordLookup_keeps ?_
  assumption
  split
  refine Ends.ite ?_ ?_
  refine State_ordEnter_keeps ?_
  refine Ends.ofL (by assumption) ?_
  refine State_ordLookup_keeps ?_
  assumption
  refine Ends.ofL (by assumption) ?_
  refine State_ordLookup_keeps ?_
  assumption

theorem State_viewAt_keeps {s0 : State} {s : State} {a1 : ReadPoint} (h : Ok s0 s) : Ok s0 (State.viewAt s a1) := by
  unfold State.viewAt
  (extract_lets +onlyGivenNames x; clear_value x)
  refine Ends.upd ?_
  assumption

theorem State_stageResolve_keeps {s0 : State} {s : State} {a1 : ℕ} (h : Ok s0 s) : Ok s0 (State.stageResolve s a1) := by
  unfold State.stageResolve
  split
  assumption
  refine Ends.ite ?_ ?_
  assumption
  (extract_lets +onlyGivenNames x; subst x; beta_reduce)
  (extract_lets +onlyGivenNames x; subst x; beta_reduce)
  (extract_lets +onlyGivenNames x; refine Ends.cut (x := x) (s := s0) ?_ (fun _ => ?_) <;> [subst x; clear_value x])
  split
  refine State_resolveLeaf_keeps ?_
  assumption
  refine State_resolveLeaf_keeps ?_
  assumption
  refine State_resolveLeaf_keeps ?_
  assumption
  assumption
  (extract_lets +onlyGivenNames x; refine Ends.cut (x := x) (s := s0) ?_ (fun _ => ?_) <;> [subst x; clear_value x])
  split
  refine State_viewAt_keeps ?_
  assumption
  assumption
  split
  (extract_lets +onlyGivenNames x; clear_value x)
  (extract_lets +onlyGivenNames x; clear_value x)
  (extract_lets +onlyGivenNames x; refine Ends.cut (x := x) (s := s0) ?_ (fun _ => ?_) <;> [subst x; clear_value x])
  refine State_setCmd_keeps ?_
  assumption
  (extract_lets +onlyGivenNames x; refine Ends.cut (x := x) (s := s0) ?_ (fun _ => ?_) <;> [subst x; clear_value x])
  refine Ends.ite ?_ ?_
  refine State_releaseLocks_keeps ?_
  assumption
  assumption
  (extract_lets +onlyGivenNames x; subst x)
  (extract_lets +onlyGivenNames x; refine Ends.cut (x := x) (s := s0) ?_ (fun _ => ?_) <;> [subst x; clear_value x])
  refine Ends.upd ?_
  assumption
  refine Ends.fold ?_ (fun _ _ _ => ?_)
  assumption
  split
  refine State_askChunk_keeps ?_
  assumption
  assumption
  (extract_lets +onlyGivenNames x; clear_value x)
  (extract_lets +onlyGivenNames x; clear_value x)
  (extract_lets +onlyGivenNames x; refine Ends.cut (x := x) (s := s0) ?_ (fun _ => ?_) <;> [subst x; clear_value x])
  refine State_setCmd_keeps ?_
  assumption
  (extract_lets +onlyGivenNames x; refine Ends.cut (x := x) (s := s0) ?_ (fun _ => ?_) <;> [subst x; clear_value x])
  refine Ends.ite ?_ ?_
  refine State_releaseLocks_keeps ?_
  assumption
  assumption
  (extract_lets +onlyGivenNames x; subst x)
  (extract_lets +onlyGivenNames x; refine Ends.cut (x := x) (s := s0) ?_ (fun _ => ?_) <;> [subst x; clear_value x])
  refine Ends.upd ?_
  assumption
  refine Ends.fold ?_ (fun _ _ _ => ?_)
  assumption
  split
  refine State_askChunk_keeps ?_
  assumption
  assumption
  (extract_lets +onlyGivenNames x; clear_value x)
  (extract_lets +onlyGivenNames x; clear_value x)
  (extract_lets +onlyGivenNames x; refine Ends.cut (x := x) (s := s0) ?_ (fun _ => ?_) <;> [subst x; clear_value x])
  refine State_setCmd_keeps ?_
  assumption
  (extract_lets +onlyGivenNames x; refine Ends.cut (x := x) (s := s0) ?_ (fun _ => ?_) <;> [subst x; clear_value x])
  refine Ends.ite ?_ ?_
  refine State_releaseLocks_keeps ?_
  assumption
  assumption
  (extract_lets +onlyGivenNames x; subst x)
  (extract_lets +onlyGivenNames x; refine Ends.cut (x := x) (s := s0) ?_ (fun _ => ?_) <;> [subst x; clear_value x])
  refine Ends.upd ?_
  assumption
  refine Ends.fold ?_ (fun _ _ _ => ?_)
  assumption
  split
  refine State_askChunk_keeps ?_
  assumption
  assumption
  (extract_lets +onlyGivenNames x; clear_value x)
  (extract_lets +onlyGivenNames x; clear_value x)
  (extract_lets +onlyGivenNames x; refine Ends.cut (x := x) (s := s0) ?_ (fun _ => ?_) <;> [subst x; clear_value x])
  refine State_setCmd_keeps ?_
  assumption
  (extract_lets +onlyGivenNames x; refine Ends.cut (x := x) (s := s0) ?_ (fun _ => ?_) <;> [subst x; clear_value x])
  refine Ends.ite ?_ ?_
  refine State_releaseLocks_keeps ?_
  assumption
  assumption
  (extract_lets +onlyGivenNames x; subst x)
  (extract_lets +onlyGivenNames x; refine Ends.cut (x := x) (s := s0) ?_ (fun _ => ?_) <;> [subst x; clear_value x])
  refine Ends.upd ?_
  assumption
  refine Ends.fold ?_ (fun _ _ _ => ?_)
  assumption
  split
  refine State_askChunk_keeps ?_
  assumption
  assumption
  split
  (extract_lets +onlyGivenNames x; clear_value x)
  (extract_lets +onlyGivenNames x; clear_value x)
  (extract_lets +onlyGivenNames x; refine Ends.cut (x := x) (s := s0) ?_ (fun _ => ?_) <;> [subst x; clear_value x])
  refine State_setCmd_keeps ?_
  assumption
  (extract_lets +onlyGivenNames x; refine Ends.cut (x := x) (s := s0) ?_ (fun _ => ?_) <;> [subst x; clear_value x])
  refine Ends.ite ?_ ?_
  refine State_releaseLocks_keeps ?_
  assumption
  assumption
  (extract_lets +onlyGivenNames x; subst x)
  (extract_lets +onlyGivenNames x; refine Ends.cut (x := x) (s := s0) ?_ (fun _ => ?_) <;> [subst x; clear_value x])
  refine Ends.upd ?_
  assumption
  refine Ends.fold ?_ (fun _ _ _ => ?_)
  assumption
  split
  refine State_askChunk_keeps ?_
  assumption
  assumption
  refine State_finish_keeps ?_
  assumption
  split
  refine Ends.ite ?_ ?_
  refine State_finish_keeps ?_
  assumption
  refine State_finish_keeps ?_
  assumption
  refine State_finish_keeps ?_
  assumption
  (extract_lets +onlyGivenNames x; clear_value x)
  (extract_lets +onlyGivenNames x; clear_value x)
  (extract_lets +onlyGivenNames x; refine Ends.cut (x := x) (s := s0) ?_ (fun _ => ?_) <;> [subst x; clear_value x])
  refine State_setCmd_keeps ?_
  assumption
  (extract_lets +onlyGivenNames x; refine Ends.cut (x := x) (s := s0) ?_ (fun _ => ?_) <;> [subst x; clear_value x])
  refine Ends.ite ?_ ?_
  refine State_releaseLocks_keeps ?_
  assumption
  assumption
  (extract_lets +onlyGivenNames x; subst x)
  (extract_lets +onlyGivenNames x; refine Ends.cut (x := x) (s := s0) ?_ (fun _ => ?_) <;> [subst x; clear_value x])
  refine Ends.upd ?_
  assumption
  refine Ends.fold ?_ (fun _ _ _ => ?_)
  assumption
  split
  refine State_askChunk_keeps ?_
  assumption
  assumption
  assumption

theorem State_stageFetch_keeps {s0 : State} {s : State} {a1 : ℕ} (h : Ok s0 s) : Ok s0 (State.stageFetch s a1) := by
  unfold State.stageFetch
  split
  assumption
  split
  assumption
  refine Ends.ite ?_ ?_
  assumption
  refine Ends.ite ?_ ?_
  refine State_setCmd_keeps ?_
  assumption
  (extract_lets +onlyGivenNames x; clear_value x)
  split
  refine Ends.ofL (by assumption) ?_
  refine State_ledger_keeps ?_
  assumption
  refine Ends.ite ?_ ?_
  refine Ends.ofL (by assumption) ?_
  refine State_ledger_keeps ?_
  assumption
  refine State_phaseSent_keeps ?_
  refine State_sendPhase_keeps ?_
  refine State_setCmd_keeps ?_
  refine Ends.ofL (by assumption) ?_
  refine State_ledger_keeps ?_
  assumption

theorem State_unresolve_keeps {s0 : State} {s : State} {a1 : ℕ} (h : Ok s0 s) : Ok s0 (State.unresolve s a1) := by
  unfold State.unresolve
  refine Ends.upd ?_
  assumption

theorem State_preempt_keeps {s0 : State} {s : State} {a1 : LockEnt} (h : Ok s0 s) : Ok s0 (State.preempt s a1) := by
  unfold State.preempt
  refine Ends.ite ?_ ?_
  assumption
  refine Ends.fold ?_ (fun _ _ _ => ?_)
  assumption
  (extract_lets +onlyGivenNames x; refine Ends.cut (x := x) (s := s0) ?_ (fun _ => ?_) <;> [subst x; clear_value x])
  refine State_setLocks_keeps ?_
  assumption
  refine Ends.ite ?_ ?_
  refine State_unresolve_keeps ?_
  refine State_addFld_keeps ?_
  assumption
  refine State_send_keeps ?_
  assumption

theorem State_grantLock_keeps {s0 : State} {s : State} {a1 : LockEnt} (h : Ok s0 s) : Ok s0 (State.grantLock s a1) := by
  unfold State.grantLock
  (extract_lets +onlyGivenNames x; clear_value x)
  (extract_lets +onlyGivenNames x; clear_value x)
  (extract_lets +onlyGivenNames x; subst x)
  (extract_lets +onlyGivenNames x; refine Ends.cut (x := x) (s := s0) ?_ (fun _ => ?_) <;> [subst x; clear_value x])
  refine Ends.upd ?_
  assumption
  (extract_lets +onlyGivenNames x; refine Ends.cut (x := x) (s := s0) ?_ (fun _ => ?_) <;> [subst x; clear_value x])
  refine State_setLocks_keeps ?_
  assumption
  refine Ends.ite ?_ ?_
  refine State_countLocks_keeps ?_
  assumption
  refine State_send_keeps ?_
  assumption

theorem State_requestLock_keeps {s0 : State} {s : State} {a1 : LockEnt} (h : Ok s0 s) : Ok s0 (State.requestLock s a1) := by
  unfold State.requestLock
  refine Ends.ite ?_ ?_
  (extract_lets +onlyGivenNames x; clear_value x)
  (extract_lets +onlyGivenNames x; refine Ends.cut (x := x) (s := s0) ?_ (fun _ => ?_) <;> [subst x; clear_value x])
  refine State_setLocks_keeps ?_
  assumption
  (extract_lets +onlyGivenNames x; refine Ends.cut (x := x) (s := s0) ?_ (fun _ => ?_) <;> [subst x; clear_value x])
  refine State_preempt_keeps ?_
  assumption
  refine State_countLocks_keeps ?_
  refine Ends.ite ?_ ?_
  refine State_grantLock_keeps ?_
  assumption
  assumption
  (extract_lets +onlyGivenNames x; refine Ends.cut (x := x) (s := s0) ?_ (fun _ => ?_) <;> [subst x; clear_value x])
  refine State_setLocks_keeps ?_
  assumption
  (extract_lets +onlyGivenNames x; subst x)
  (extract_lets +onlyGivenNames x; refine Ends.cut (x := x) (s := s0) ?_ (fun _ => ?_) <;> [subst x; clear_value x])
  refine Ends.upd ?_
  assumption
  refine State_countLocks_keeps ?_
  refine State_send_keeps ?_
  assumption

theorem State_nextLocks_keeps {s0 : State} {s : State} {a1 : ℕ} {a2 : ℕ} (h : Ok s0 s) : Ok s0 (State.nextLocks s a1 a2) := by
  induction a2 generalizing s a1
  · rw [State.nextLocks.eq_1]
    assumption
  · rename_i ih
    rw [State.nextLocks.eq_2]
    split
    assumption
    split
    assumption
    refine Ends.ite ?_ ?_
    assumption
    (extract_lets +onlyGivenNames x; subst x)
    (extract_lets +onlyGivenNames x; refine Ends.cut (x := x) (s := s0) ?_ (fun _ => ?_) <;> [subst x; clear_value x])
    refine Ends.upd ?_
    assumption
    apply ih
    refine State_requestLock_keeps ?_
    assumption

theorem State_stageLock_keeps {s0 : State} {s : State} {a1 : ℕ} (h : Ok s0 s) : Ok s0 (State.stageLock s a1) := by
  unfold State.stageLock
  refine State_nextLocks_keeps ?_
  assumption

theorem State_advance_keeps {s0 : State} {s : State} {a1 : ℕ} (h : Ok s0 s) : Ok s0 (State.advance s a1) := by
  unfold State.advance
  refine State_stageRespond_keeps ?_
  refine State_stageSend_keeps ?_
  refine State_stageComplete_keeps ?_
  refine State_stageAppend_keeps ?_
  refine State_stageJudge_keeps ?_
  refine State_stageResolve_keeps ?_
  refine State_stageFetch_keeps ?_
  refine State_stageLock_keeps ?_
  assumption

theorem State_enterAs_keeps {s0 : State} {s : State} {a1 : Cap} {a2 : Queue} {a3 : HostOp} {a4 : ℕ} {a5 : List Want} {a6 : Bool} {a7 : Option (Bool × Bytes)} {a8 : Option (Status × ℕ)} {a9 : Option (Status × ℕ)} (h : Ok s0 s) : Ok s0 (State.enterAs s a1 a2 a3 a4 a5 a6 a7 a8 a9) := by
  unfold State.enterAs
  (extract_lets +onlyGivenNames x; clear_value x)
  (extract_lets +onlyGivenNames x; clear_value x)
  (extract_lets +onlyGivenNames x; refine Ends.cut (x := x) (s := s0) ?_ (fun _ => ?_) <;> [subst x; clear_value x])
  refine State_setQueueAt_keeps ?_
  assumption
  (extract_lets +onlyGivenNames x; clear_value x)
  (extract_lets +onlyGivenNames x; clear_value x)
  (extract_lets +onlyGivenNames x; clear_value x)
  (extract_lets +onlyGivenNames x; clear_value x)
  (extract_lets +onlyGivenNames x; refine Ends.cut (x := x) (s := s0) ?_ (fun _ => ?_) <;> [subst x; clear_value x])
  refine State_setCmd_keeps ?_
  assumption
  (extract_lets +onlyGivenNames x; refine Ends.cut (x := x) (s := s0) ?_ (fun _ => ?_) <;> [subst x; clear_value x])
  split
  refine Ends.ite ?_ ?_
  refine State_setQp_keeps ?_
  assumption
  refine State_sendAck_keeps ?_
  assumption
  assumption
  (extract_lets +onlyGivenNames x; subst x)
  (extract_lets +onlyGivenNames x; refine Ends.cut (x := x) (s := s0) ?_ (fun _ => ?_) <;> [subst x; clear_value x])
  refine Ends.ite ?_ ?_
  refine State_send_keeps ?_
  assumption
  assumption
  refine State_advance_keeps ?_
  assumption

theorem State_enterCmd_keeps {s0 : State} {s : State} {a1 : Cap} {a2 : Queue} {a3 : HostOp} {a4 : ℕ} {a5 : List Want} {a6 : Bool} {a7 : Option (Status × ℕ)} {a8 : Option (Status × ℕ)} (h : Ok s0 s) : Ok s0 (State.enterCmd s a1 a2 a3 a4 a5 a6 a7 a8) := by
  unfold State.enterCmd
  refine State_enterAs_keeps ?_
  assumption

theorem State_setQueue_keeps {s0 : State} {s : State} {a1 : Queue} (h : Ok s0 s) : Ok s0 (State.setQueue s a1) := by
  unfold State.setQueue
  refine State_setQueueAt_keeps ?_
  assumption

theorem State_abortHalf_keeps {s0 : State} {s : State} {a1 : ℕ} {a2 : ℕ} (h : Ok s0 s) : Ok s0 (State.abortHalf s a1 a2) := by
  unfold State.abortHalf
  split
  split
  (extract_lets +onlyGivenNames x; clear_value x)
  refine State_enterCmd_keeps ?_
  refine State_setQueue_keeps ?_
  assumption
  assumption
  assumption

theorem State_takeHalf_keeps {s0 : State} {s : State} {a1 : Cap} (h : Ok s0 s) : Ends (fun p : State × Option Half => Keeps s0 p.1) (State.takeHalf s a1) := by
  unfold State.takeHalf
  split
  refine Ends.fst ?_
  refine State_setQueue_keeps ?_
  assumption
  refine Ends.fst ?_
  assumption

theorem State_failHalf_keeps {s0 : State} {s : State} {a1 : Cap} (h : Ok s0 s) : Ok s0 (State.failHalf s a1) := by
  unfold State.failHalf
  split
  split
  refine Ends.ite ?_ ?_
  refine Ends.ofL (by assumption) ?_
  refine State_takeHalf_keeps ?_
  assumption
  refine State_enterCmd_keeps ?_
  refine Ends.ofL (by assumption) ?_
  refine State_takeHalf_keeps ?_
  assumption
  refine Ends.ofL (by assumption) ?_
  refine State_takeHalf_keeps ?_
  assumption
  refine Ends.ofL (by assumption) ?_
  refine State_takeHalf_keeps ?_
  assumption

theorem State_qpFail_keeps {s0 : State} {s : State} {a1 : ℕ} (h : Ok s0 s) : Ok s0 (State.qpFail s a1) := by
  unfold State.qpFail
  split
  assumption
  refine Ends.ite ?_ ?_
  assumption
  (extract_lets +onlyGivenNames x; refine Ends.cut (x := x) (s := s0) ?_ (fun _ => ?_) <;> [subst x; clear_value x])
  refine State_setQp_keeps ?_
  assumption
  (extract_lets +onlyGivenNames x; refine Ends.cut (x := x) (s := s0) ?_ (fun _ => ?_) <;> [subst x; clear_value x])
  refine State_dropCmds_keeps ?_
  assumption
  (extract_lets +onlyGivenNames x; refine Ends.cut (x := x) (s := s0) ?_ (fun _ => ?_) <;> [subst x; clear_value x])
  refine Ends.ite ?_ ?_
  refine State_deleteCtrl_keeps ?_
  assumption
  refine State_deleteQueue_keeps ?_
  assumption
  (extract_lets +onlyGivenNames x; refine Ends.cut (x := x) (s := s0) ?_ (fun _ => ?_) <;> [subst x; clear_value x])
  refine State_addFld_keeps ?_
  assumption
  (extract_lets +onlyGivenNames x; refine Ends.cut (x := x) (s := s0) ?_ (fun _ => ?_) <;> [subst x; clear_value x])
  refine Ends.ite ?_ ?_
  refine State_send_keeps ?_
  assumption
  assumption
  refine State_exc_keeps ?_
  assumption

theorem State_arrive_keeps {s0 : State} {s : State} {a1 : Cap} {a2 : Bool} {a3 : State → Queue → Option Status → State} (h : Ok s0 s) (h3 : ∀ x0 x1 x2, Ok s0 x0 → Ok s0 (a3 x0 x1 x2)) : Ok s0 (State.arrive s a1 a2 a3) := by
  unfold State.arrive
  (extract_lets +onlyGivenNames x; subst x)
  (extract_lets +onlyGivenNames x; refine Ends.cut (x := x) (s := s0) ?_ (fun _ => ?_) <;> [subst x; clear_value x])
  refine Ends.upd ?_
  assumption
  refine Ends.ite ?_ ?_
  assumption
  (extract_lets +onlyGivenNames x; refine Ends.cut (x := x) (s := s0) ?_ (fun _ => ?_) <;> [subst x; clear_value x])
  refine State_failHalf_keeps ?_
  assumption
  split
  assumption
  (extract_lets +onlyGivenNames x; clear_value x)
  refine Ends.ite ?_ ?_
  refine State_qpFail_keeps ?_
  assumption
  refine Ends.ite ?_ ?_
  refine Ends.upd ?_
  assumption
  (extract_lets +onlyGivenNames x; clear_value x)
  refine h3 _ _ _ ?_
  assumption

theorem State_abortedHalf_keeps {s0 : State} {s : State} {a1 : Cap} (h : Ok s0 s) : Ok s0 (State.abortedHalf s a1) := by
  unfold State.abortedHalf
  refine State_arrive_keeps ?_ ?_
  assumption
  intros
  refine State_enterCmd_keeps ?_
  assumption

theorem State_portCount_keeps {s0 : State} {s : State} {a1 : ℕ} {a2 : ℕ} {a3 : ℕ} (h : Ok s0 s) : Ok s0 (State.portCount s a1 a2 a3) := by
  unfold State.portCount
  refine State_addFld_keeps ?_
  assumption

theorem State_accrueHold_keeps {s0 : State} {s : State} {a1 : ℕ} (h : Ok s0 s) : Ok s0 (State.accrueHold s a1) := by
  unfold State.accrueHold
  (extract_lets +onlyGivenNames x; clear_value x)
  split
  assumption
  (extract_lets +onlyGivenNames x; clear_value x)
  (extract_lets +onlyGivenNames x; clear_value x)
  refine State_setFport_keeps ?_
  refine State_portCount_keeps ?_
  assumption

theorem State_rdmCount_keeps {s0 : State} {s : State} {a1 : ℕ} {a2 : ℕ} {a3 : ℕ} (h : Ok s0 s) : Ok s0 (State.rdmCount s a1 a2 a3) := by
  unfold State.rdmCount
  refine State_addFld_keeps ?_
  assumption

theorem State_resend_keeps {s0 : State} {s : State} {a1 : ℕ} {a2 : List SentPkt} (h : Ok s0 s) : Ok s0 (State.resend s a1 a2) := by
  unfold State.resend
  split
  assumption
  (extract_lets +onlyGivenNames x; refine Ends.cut (x := x) (s := s0) ?_ (fun _ => ?_) <;> [subst x; clear_value x])
  refine State_setQp_keeps ?_
  assumption
  refine Ends.fold ?_ (fun _ _ _ => ?_)
  assumption
  refine State_sendPkt_keeps ?_
  refine State_rdmCount_keeps ?_
  assumption

theorem State_ackTimeout_keeps {s0 : State} {s : State} {a1 : ℕ} (h : Ok s0 s) : Ok s0 (State.ackTimeout s a1) := by
  unfold State.ackTimeout
  split
  assumption
  refine Ends.ite ?_ ?_
  refine State_qpFail_keeps ?_
  assumption
  refine State_resend_keeps ?_
  refine State_setQp_keeps ?_
  assumption

theorem State_addCpFld_keeps {s0 : State} {s : State} {a1 : ℕ} {a2 : Fld} {a3 : ℕ} (h : Ok s0 s) : Ok s0 (State.addCpFld s a1 a2 a3) := by
  unfold State.addCpFld
  refine State_addFld_keeps ?_
  assumption

theorem State_addRec_keeps {s0 : State} {s : State} {a1 : LogRec} (h : Ok s0 s) : Ok s0 (State.addRec s a1) := by
  unfold State.addRec
  (extract_lets +onlyGivenNames x; clear_value x)
  refine Ends.upd ?_
  assumption

theorem State_updateFree_keeps {s0 : State} {s : State} (h : Ok s0 s) : Ok s0 (State.updateFree s) := by
  unfold State.updateFree
  (extract_lets +onlyGivenNames x; clear_value x)
  (extract_lets +onlyGivenNames x; clear_value x)
  (extract_lets +onlyGivenNames x; clear_value x)
  (extract_lets +onlyGivenNames x; clear_value x)
  (extract_lets +onlyGivenNames x; refine Ends.cut (x := x) (s := s0) ?_ (fun _ => ?_) <;> [subst x; clear_value x])
  refine State_setFld_keeps ?_
  refine State_setFld_keeps ?_
  assumption
  (extract_lets +onlyGivenNames x; subst x)
  (extract_lets +onlyGivenNames x; refine Ends.cut (x := x) (s := s0) ?_ (fun _ => ?_) <;> [subst x; clear_value x])
  refine Ends.upd ?_
  assumption
  (extract_lets +onlyGivenNames x; refine Ends.cut (x := x) (s := s0) ?_ (fun _ => ?_) <;> [subst x; clear_value x])
  refine Ends.ite ?_ ?_
  refine State_exc_keeps ?_
  assumption
  assumption
  refine Ends.ite ?_ ?_
  refine State_exc_keeps ?_
  assumption
  assumption

theorem State_takeBlocks_keeps {s0 : State} {s : State} {a1 : List ℕ} (h : Ok s0 s) : Ok s0 (State.takeBlocks s a1) := by
  unfold State.takeBlocks
  refine State_updateFree_keeps ?_
  refine Ends.upd ?_
  assumption

theorem State_sendLogPage_keeps {s0 : State} {s : State} {a1 : ℕ} {a2 : LogPage} (h : Ok s0 s) : Ok s0 (State.sendLogPage s a1 a2) := by
  unfold State.sendLogPage
  (extract_lets +onlyGivenNames x; clear_value x)
  (extract_lets +onlyGivenNames x; clear_value x)
  refine Ends.fold ?_ (fun _ _ _ => ?_)
  assumption
  (extract_lets +onlyGivenNames x; clear_value x)
  refine State_issue_keeps ?_
  assumption

theorem State_programLogPage_keeps {s0 : State} {s : State} (h : Ok s0 s) : Ok s0 (State.programLogPage s) := by
  unfold State.programLogPage
  (extract_lets +onlyGivenNames x; clear_value x)
  (extract_lets +onlyGivenNames x; clear_value x)
  (extract_lets +onlyGivenNames x; subst x; beta_reduce)
  refine Ends.ite ?_ ?_
  assumption
  (extract_lets +onlyGivenNames x; clear_value x)
  (extract_lets +onlyGivenNames x; refine Ends.cut (x := x) (s := s0) ?_ (fun _ => ?_) <;> [subst x; clear_value x])
  refine State_takeBlocks_keeps ?_
  assumption
  (extract_lets +onlyGivenNames x; subst x)
  (extract_lets +onlyGivenNames x; refine Ends.cut (x := x) (s := s0) ?_ (fun _ => ?_) <;> [subst x; clear_value x])
  refine Ends.ite ?_ ?_
  refine Ends.upd ?_
  assumption
  assumption
  (extract_lets +onlyGivenNames x; clear_value x)
  (extract_lets +onlyGivenNames x; clear_value x)
  (extract_lets +onlyGivenNames x; clear_value x)
  (extract_lets +onlyGivenNames x; clear_value x)
  refine Ends.ite ?_ ?_
  assumption
  (extract_lets +onlyGivenNames x; refine Ends.cut (x := x) (s := s0) ?_ (fun _ => ?_) <;> [subst x; clear_value x])
  refine Ends.ite ?_ ?_
  refine State_addRec_keeps ?_
  assumption
  assumption
  (extract_lets +onlyGivenNames x; clear_value x)
  (extract_lets +onlyGivenNames x; refine Ends.cut (x := x) (s := s0) ?_ (fun _ => ?_) <;> [subst x; clear_value x])
  refine Ends.ite ?_ ?_
  refine State_addRec_keeps ?_
  assumption
  assumption
  (extract_lets +onlyGivenNames x; clear_value x)
  (extract_lets +onlyGivenNames x; clear_value x)
  (extract_lets +onlyGivenNames x; subst x)
  (extract_lets +onlyGivenNames x; refine Ends.cut (x := x) (s := s0) ?_ (fun _ => ?_) <;> [subst x; clear_value x])
  refine Ends.upd ?_
  assumption
  (extract_lets +onlyGivenNames x; refine Ends.cut (x := x) (s := s0) ?_ (fun _ => ?_) <;> [subst x; clear_value x])
  refine State_sendLogPage_keeps ?_
  assumption
  refine Ends.ite ?_ ?_
  (extract_lets +onlyGivenNames x; subst x)
  (extract_lets +onlyGivenNames x; refine Ends.cut (x := x) (s := s0) ?_ (fun _ => ?_) <;> [subst x; clear_value x])
  refine Ends.upd ?_
  assumption
  (extract_lets +onlyGivenNames x; refine Ends.cut (x := x) (s := s0) ?_ (fun _ => ?_) <;> [subst x; clear_value x])
  refine State_takeBlocks_keeps ?_
  assumption
  refine Ends.upd ?_
  assumption
  assumption

theorem State_logRec_keeps {s0 : State} {s : State} {a1 : ℕ} {a2 : Bool} {a3 : LogBody} (h : Ok s0 s) : Ok s0 (State.logRec s a1 a2 a3) := by
  unfold State.logRec
  (extract_lets +onlyGivenNames x; refine Ends.cut (x := x) (s := s0) ?_ (fun _ => ?_) <;> [subst x; clear_value x])
  refine Ends.ite ?_ ?_
  refine State_programLogPage_keeps ?_
  assumption
  assumption
  refine State_addRec_keeps ?_
  assumption

theorem State_log_keeps {s0 : State} {s : State} {a1 : LogBody} (h : Ok s0 s) : Ok s0 (State.log s a1) := by
  unfold State.log
  refine State_logRec_keeps ?_
  assumption

theorem State_setReadOnly_keeps {s0 : State} {s : State} {a1 : Bool} (h : Ok s0 s) : Ok s0 (State.setReadOnly s a1) := by
  unfold State.setReadOnly
  refine Ends.ite ?_ ?_
  assumption
  refine State_log_keeps ?_
  refine Ends.upd ?_
  assumption

theorem State_addSpare_keeps {s0 : State} {s : State} {a1 : ℕ} (h : Ok s0 s) : Ok s0 (State.addSpare s a1) := by
  unfold State.addSpare
  refine Ends.ite ?_ ?_
  refine State_setReadOnly_keeps ?_
  assumption
  assumption

theorem State_setSeg_keeps {s0 : State} {s : State} {a1 : SegDesc} (h : Ok s0 s) : Ok s0 (State.setSeg s a1) := by
  unfold State.setSeg
  refine Ends.upd ?_
  assumption

theorem State_addValid_keeps {s0 : State} {s : State} {a1 : ℕ} {a2 : ℤ} (h : Ok s0 s) : Ok s0 (State.addValid s a1 a2) := by
  unfold State.addValid
  split
  refine State_setSeg_keeps ?_
  assumption
  assumption

theorem State_countChallenges_keeps {s0 : State} {s : State} (h : Ok s0 s) : Ok s0 (State.countChallenges s) := by
  unfold State.countChallenges
  refine State_setFld_keeps ?_
  assumption

theorem State_lapseChallenges_keeps {s0 : State} {s : State} (h : Ok s0 s) : Ok s0 (State.lapseChallenges s) := by
  unfold State.lapseChallenges
  refine State_countChallenges_keeps ?_
  refine Ends.upd ?_
  assumption

theorem State_setCtrl_keeps {s0 : State} {s : State} {a1 : Ctrl} (h : Ok s0 s) : Ok s0 (State.setCtrl s a1) := by
  unfold State.setCtrl
  refine Ends.upd ?_
  assumption

theorem State_roleReply_keeps {s0 : State} {s : State} {a1 : RoleFrom} {a2 : ℕ} {a3 : Bytes} (h : Ok s0 s) : Ok s0 (State.roleReply s a1 a2 a3) := by
  unfold State.roleReply
  split
  refine State_emit_keeps ?_
  assumption
  split
  assumption
  (extract_lets +onlyGivenNames x; refine Ends.cut (x := x) (s := s0) ?_ (fun _ => ?_) <;> [subst x; clear_value x])
  split
  refine State_setCtrl_keeps ?_
  assumption
  assumption
  refine State_finish_keeps ?_
  assumption

theorem State_mfwEvent_keeps {s0 : State} {s : State} {a1 : ℕ} {a2 : Bytes} (h : Ok s0 s) : Ok s0 (State.mfwEvent s a1 a2) := by
  unfold State.mfwEvent
  (extract_lets +onlyGivenNames x; refine Ends.cut (x := x) (s := s0) ?_ (fun _ => ?_) <;> [subst x; clear_value x])
  refine Ends.upd ?_
  assumption
  refine State_record_keeps ?_
  assumption

theorem State_roleEvent_keeps {s0 : State} {s : State} {a1 : ℕ} {a2 : ℕ} {a3 : ℕ} {a4 : ℕ} {a5 : ℕ} {a6 : Bytes} (h : Ok s0 s) : Ok s0 (State.roleEvent s a1 a2 a3 a4 a5 a6) := by
  unfold State.roleEvent
  refine State_mfwEvent_keeps ?_
  assumption

theorem State_roleRegs_keeps {s0 : State} {s : State} {a1 : ℕ} {a2 : ℕ} {a3 : ℕ} {a4 : ℕ} (h : Ok s0 s) : Ok s0 (State.roleRegs s a1 a2 a3 a4) := by
  unfold State.roleRegs
  (extract_lets +onlyGivenNames x; refine Ends.cut (x := x) (s := s0) ?_ (fun _ => ?_) <;> [subst x; clear_value x])
  refine State_setFld_keeps ?_
  refine State_setFld_keeps ?_
  assumption
  (extract_lets +onlyGivenNames x; refine Ends.cut (x := x) (s := s0) ?_ (fun _ => ?_) <;> [subst x; clear_value x])
  refine State_setFld_keeps ?_
  refine State_setFld_keeps ?_
  assumption
  refine Ends.ite ?_ ?_
  assumption
  refine Ends.ite ?_ ?_
  refine State_addFld_keeps ?_
  assumption
  refine State_addFld_keeps ?_
  assumption

theorem State_roleEnd_keeps {s0 : State} {s : State} {a1 : RoleFrom} {a2 : ℕ} {a3 : ℕ} {a4 : ℕ} {a5 : ℕ} {a6 : Bytes} {a7 : ℕ} {a8 : Bytes} (h : Ok s0 s) : Ok s0 (State.roleEnd s a1 a2 a3 a4 a5 a6 a7 a8) := by
  unfold State.roleEnd
  refine State_roleReply_keeps ?_
  refine State_roleEvent_keeps ?_
  refine State_roleRegs_keeps ?_
  assumption

theorem State_setNs_keeps {s0 : State} {s : State} {a1 : ℕ} {a2 : NsRec} (h : Ok s0 s) : Ok s0 (State.setNs s a1 a2) := by
  unfold State.setNs
  refine Ends.upd ?_
  assumption

theorem State_createNs_keeps {s0 : State} {s : State} {a1 : ℕ} {a2 : NsRec} (h : Ok s0 s) : Ok s0 (State.createNs s a1 a2) := by
  unfold State.createNs
  (extract_lets +onlyGivenNames x; clear_value x)
  refine State_log_keeps ?_
  refine State_setNs_keeps ?_
  assumption

theorem State_beginRemoval_keeps {s0 : State} {s : State} {a1 : ℕ} {a2 : Option ℕ} {a3 : Bool} (h : Ok s0 s) : Ok s0 (State.beginRemoval s a1 a2 a3) := by
  unfold State.beginRemoval
  split
  assumption
  (extract_lets +onlyGivenNames x; clear_value x)
  refine State_log_keeps ?_
  refine State_setNs_keeps ?_
  assumption

theorem State_asyncNotice_keeps {s0 : State} {s : State} {a1 : ℕ} {a2 : ℕ} {a3 : ℕ} {a4 : ℕ} (h : Ok s0 s) : Ok s0 (State.asyncNotice s a1 a2 a3 a4) := by
  unfold State.asyncNotice
  split
  assumption
  refine Ends.ite ?_ ?_
  assumption
  split
  (extract_lets +onlyGivenNames x; clear_value x)
  (extract_lets +onlyGivenNames x; subst x)
  (extract_lets +onlyGivenNames x; refine Ends.cut (x := x) (s := s0) ?_ (fun _ => ?_) <;> [subst x; clear_value x])
  refine Ends.upd ?_
  assumption
  split
  refine State_advance_keeps ?_
  refine State_finish_keeps ?_
  assumption
  assumption
  refine Ends.ite ?_ ?_
  assumption
  refine Ends.upd ?_
  assumption

theorem State_nsChanged_keeps {s0 : State} {s : State} {a1 : ℕ} (h : Ok s0 s) : Ok s0 (State.nsChanged s a1) := by
  unfold State.nsChanged
  refine Ends.fold ?_ (fun _ _ _ => ?_)
  assumption
  refine Ends.ite ?_ ?_
  (extract_lets +onlyGivenNames x; clear_value x)
  (extract_lets +onlyGivenNames x; subst x)
  (extract_lets +onlyGivenNames x; refine Ends.cut (x := x) (s := s0) ?_ (fun _ => ?_) <;> [subst x; clear_value x])
  refine Ends.upd ?_
  assumption
  refine State_asyncNotice_keeps ?_
  assumption
  assumption

theorem State_runC0_keeps {s0 : State} {s : State} {a1 : ℕ} (h : Ok s0 s) : Ends (fun p : ℕ × State => Keeps s0 p.2) (State.runC0 s a1) := by
  unfold State.runC0
  split
  refine Ends.snd ?_
  assumption
  refine Ends.ite ?_ ?_
  refine Ends.snd ?_
  assumption
  (extract_lets +onlyGivenNames x; subst x)
  (extract_lets +onlyGivenNames x; refine Ends.cut (x := x) (s := s0) ?_ (fun _ => ?_) <;> [subst x; clear_value x])
  refine Ends.upd ?_
  assumption
  refine Ends.snd ?_
  refine State_log_keeps ?_
  refine State_setNs_keeps ?_
  assumption

theorem State_setShadow_keeps {s0 : State} {s : State} {a1 : ℕ} {a2 : Word} (h : Ok s0 s) : Ok s0 (State.setShadow s a1 a2) := by
  unfold State.setShadow
  refine Ends.upd ?_
  assumption

theorem State_setActive_keeps {s0 : State} {s : State} {a1 : ℕ} {a2 : Word} (h : Ok s0 s) : Ok s0 (State.setActive s a1 a2) := by
  unfold State.setActive
  refine Ends.upd ?_
  assumption

theorem State_setNewest_keeps {s0 : State} {s : State} {a1 : ℕ} (h : Ok s0 s) : Ok s0 (State.setNewest s a1) := by
  unfold State.setNewest
  (extract_lets +onlyGivenNames x; clear_value x)
  (extract_lets +onlyGivenNames x; clear_value x)
  (extract_lets +onlyGivenNames x; clear_value x)
  (extract_lets +onlyGivenNames x; subst x; beta_reduce)
  refine Ends.ite ?_ ?_
  assumption
  refine State_addFld_keeps ?_
  (extract_lets +onlyGivenNames x; clear_value x)
  refine State_setShadow_keeps ?_
  refine State_setActive_keeps ?_
  (extract_lets +onlyGivenNames x; clear_value x)
  refine State_setShadow_keeps ?_
  refine State_setActive_keeps ?_
  assumption

theorem State_putNs_keeps {s0 : State} {s : State} {a1 : ℕ} {a2 : NsRec} (h : Ok s0 s) : Ok s0 (State.putNs s a1 a2) := by
  unfold State.putNs
  refine State_setNewest_keeps ?_
  refine State_log_keeps ?_
  refine Ends.upd ?_
  assumption

theorem State_snapCreate_keeps {s0 : State} {s : State} {a1 : ℕ} (h : Ok s0 s) : Ends (fun p : State × Option ℕ => Keeps s0 p.1) (State.snapCreate s a1) := by
  unfold State.snapCreate
  split
  refine Ends.fst ?_
  assumption
  refine Ends.ite ?_ ?_
  refine Ends.fst ?_
  assumption
  (extract_lets +onlyGivenNames x; clear_value x)
  refine Ends.fst ?_
  refine State_putNs_keeps ?_
  assumption

theorem State_logTxn_keeps {s0 : State} {s : State} {a1 : Option ℕ} {a2 : ℕ} {a3 : ℕ} {a4 : List Item} (h : Ok s0 s) : Ends (fun p : State × ℕ => Keeps s0 p.1) (State.logTxn s a1 a2 a3 a4) := by
  unfold State.logTxn
  (extract_lets +onlyGivenNames x; clear_value x)
  (extract_lets +onlyGivenNames x; subst x)
  (extract_lets +onlyGivenNames x; refine Ends.cut (x := x) (s := s0) ?_ (fun _ => ?_) <;> [subst x; clear_value x])
  refine Ends.upd ?_
  assumption
  (extract_lets +onlyGivenNames x; clear_value x)
  (extract_lets +onlyGivenNames x; clear_value x)
  (extract_lets +onlyGivenNames x; clear_value x)
  refine Ends.fst ?_
  refine Ends.fold ?_ (fun _ _ _ => ?_)
  assumption
  refine State_logRec_keeps ?_
  assumption

theorem State_snapNext_keeps {s0 : State} {s : State} {a1 : ℕ} (h : Ok s0 s) : Ok s0 (State.snapNext s a1) := by
  unfold State.snapNext
  split
  assumption
  (extract_lets +onlyGivenNames x; clear_value x)
  refine Ends.ite ?_ ?_
  assumption
  (extract_lets +onlyGivenNames x; clear_value x)
  refine Ends.ite ?_ ?_
  refine Ends.fold ?_ (fun _ _ _ => ?_)
  assumption
  refine Ends.ite ?_ ?_
  assumption
  refine Ends.projL ?_
  refine State_logTxn_keeps ?_
  assumption
  refine State_putNs_keeps ?_
  assumption

theorem State_snapDelete_keeps {s0 : State} {s : State} {a1 : ℕ} (h : Ok s0 s) : Ends (fun p : State × Bool => Keeps s0 p.1) (State.snapDelete s a1) := by
  unfold State.snapDelete
  split
  refine Ends.fst ?_
  assumption
  refine Ends.ite ?_ ?_
  refine Ends.fst ?_
  assumption
  refine Ends.fst ?_
  refine State_snapNext_keeps ?_
  refine State_putNs_keeps ?_
  assumption

theorem State_runClone_keeps {s0 : State} {s : State} {a1 : ℕ} {a2 : Bool} (h : Ok s0 s) : Ends (fun p : ℕ × State => Keeps s0 p.2) (State.runClone s a1 a2) := by
  unfold State.runClone
  split
  refine Ends.snd ?_
  assumption
  refine Ends.ite ?_ ?_
  refine Ends.snd ?_
  assumption
  split
  refine Ends.snd ?_
  assumption
  (extract_lets +onlyGivenNames x; clear_value x)
  refine Ends.snd ?_
  refine State_createNs_keeps ?_
  assumption

theorem State_sessResult_keeps {s0 : State} {s : State} {a1 : ℕ} {a2 : ℕ} (h : Ok s0 s) : Ok s0 (State.sessResult s a1 a2) := by
  unfold State.sessResult
  refine State_setFlag_keeps ?_
  refine State_setFlag_keeps ?_
  refine State_setFld_keeps ?_
  assumption

theorem State_resendJrecs_keeps {s0 : State} {s : State} {a1 : ℕ} (h : Ok s0 s) : Ok s0 (State.resendJrecs s a1) := by
  unfold State.resendJrecs
  split
  assumption
  refine Ends.ite ?_ ?_
  assumption
  (extract_lets +onlyGivenNames x; clear_value x)
  refine Ends.fold ?_ (fun _ _ _ => ?_)
  assumption
  refine State_sendJrec_keeps ?_
  assumption

theorem State_sendProbe_keeps {s0 : State} {s : State} {a1 : ℕ} (h : Ok s0 s) : Ok s0 (State.sendProbe s a1) := by
  unfold State.sendProbe
  split
  assumption
  split
  refine State_pgPacket_keeps ?_
  refine State_setSess_keeps ?_
  assumption

theorem State_sessCreate_keeps {s0 : State} {s : State} {a1 : ℕ} {a2 : ℕ} (h : Ok s0 s) : Ok s0 (State.sessCreate s a1 a2) := by
  unfold State.sessCreate
  split
  refine State_sessResult_keeps ?_
  assumption
  (extract_lets +onlyGivenNames x; clear_value x)
  refine Ends.ite ?_ ?_
  refine State_sessResult_keeps ?_
  assumption
  refine Ends.ite ?_ ?_
  refine State_sessResult_keeps ?_
  assumption
  refine State_sessResult_keeps ?_
  refine State_resendJrecs_keeps ?_
  refine State_sendProbe_keeps ?_
  refine State_setSess_keeps ?_
  assumption

theorem State_markReplica_keeps {s0 : State} {s : State} {a1 : ℕ} {a2 : Bool} (h : Ok s0 s) : Ok s0 (State.markReplica s a1 a2) := by
  unfold State.markReplica
  split
  refine Ends.ite ?_ ?_
  assumption
  refine State_putNs_keeps ?_
  assumption
  assumption

theorem State_runReplCreate_keeps {s0 : State} {s : State} {a1 : ℕ} {a2 : ℕ} {a3 : Bool} (h : Ok s0 s) : Ends (fun p : ℕ × State => Keeps s0 p.2) (State.runReplCreate s a1 a2 a3) := by
  unfold State.runReplCreate
  refine Ends.ite ?_ ?_
  refine Ends.snd ?_
  assumption
  split
  refine Ends.snd ?_
  assumption
  refine Ends.ite ?_ ?_
  refine Ends.snd ?_
  assumption
  (extract_lets +onlyGivenNames x; refine Ends.cut (x := x) (s := s0) ?_ (fun _ => ?_) <;> [subst x; clear_value x])
  refine State_sessCreate_keeps ?_
  assumption
  (extract_lets +onlyGivenNames x; clear_value x)
  refine Ends.ite ?_ ?_
  refine Ends.snd ?_
  refine Ends.ite ?_ ?_
  refine State_markReplica_keeps ?_
  assumption
  assumption
  refine Ends.snd ?_
  assumption

theorem State_degrade_keeps {s0 : State} {s : State} {a1 : ℕ} (h : Ok s0 s) : Ok s0 (State.degrade s a1) := by
  unfold State.degrade
  split
  assumption
  (extract_lets +onlyGivenNames x; refine Ends.cut (x := x) (s := s0) ?_ (fun _ => ?_) <;> [subst x; clear_value x])
  refine Ends.fold ?_ (fun _ _ _ => ?_)
  assumption
  refine State_setJack_keeps ?_
  assumption
  refine State_setSess_keeps ?_
  assumption

theorem State_sessDestroy_keeps {s0 : State} {s : State} {a1 : ℕ} {a2 : ℕ} (h : Ok s0 s) : Ok s0 (State.sessDestroy s a1 a2) := by
  unfold State.sessDestroy
  (extract_lets +onlyGivenNames x; clear_value x)
  split
  refine State_sessResult_keeps ?_
  assumption
  (extract_lets +onlyGivenNames x; refine Ends.cut (x := x) (s := s0) ?_ (fun _ => ?_) <;> [subst x; clear_value x])
  refine State_degrade_keeps ?_
  assumption
  (extract_lets +onlyGivenNames x; clear_value x)
  (extract_lets +onlyGivenNames x; clear_value x)
  refine State_sessResult_keeps ?_
  refine Ends.upd ?_
  assumption

theorem State_runReplEnd_keeps {s0 : State} {s : State} {a1 : ℕ} {a2 : ℕ} (h : Ok s0 s) : Ends (fun p : ℕ × State => Keeps s0 p.2) (State.runReplEnd s a1 a2) := by
  unfold State.runReplEnd
  split
  refine Ends.snd ?_
  assumption
  refine Ends.snd ?_
  refine State_markReplica_keeps ?_
  refine State_sessDestroy_keeps ?_
  assumption

theorem State_random_keeps {s0 : State} {s : State} {a1 : ℕ} (h : Ok s0 s) : Ends (fun p : Bytes × State => Keeps s0 p.2) (State.random s a1) := by
  unfold State.random
  refine Ends.snd ?_
  refine Ends.upd ?_
  assumption

theorem State_drawOnce_keeps {s0 : State} {s : State} {a1 : ℕ} {a2 : ℕ} (h : Ok s0 s) : Ends (fun p : Option KeyGen × State => Keeps s0 p.2) (State.drawOnce s a1 a2) := by
  unfold State.drawOnce
  (extract_lets +onlyGivenNames x; subst x; beta_reduce)
  (extract_lets +onlyGivenNames x; clear_value x)
  refine Ends.snd ?_
  refine Ends.projR ?_
  refine State_random_keeps ?_
  assumption

theorem State_drawGenOf_keeps {s0 : State} {s : State} {a1 : ℕ} {a2 : ℕ} {a3 : ℕ} (h : Ok s0 s) : Ends (fun p : Option KeyGen × State => Keeps s0 p.2) (State.drawGenOf s a1 a2 a3) := by
  induction a3 generalizing s a1 a2
  · rw [State.drawGenOf.eq_1]
    refine State_drawOnce_keeps ?_
    assumption
  · rename_i ih
    rw [State.drawGenOf.eq_2]
    refine Ends.ite ?_ ?_
    refine State_drawOnce_keeps ?_
    assumption
    apply ih
    refine Ends.projR ?_
    refine State_drawOnce_keeps ?_
    assumption

theorem State_drawGen_keeps {s0 : State} {s : State} {a1 : ℕ} {a2 : ℕ} (h : Ok s0 s) : Ends (fun p : Option KeyGen × State => Keeps s0 p.2) (State.drawGen s a1 a2) := by
  unfold State.drawGen
  refine State_drawGenOf_keeps ?_
  assumption

theorem State_newRec_keeps {s0 : State} {s : State} {a1 : ℕ} (h : Ok s0 s) : Ends (fun p : Option KeyRec × State => Keeps s0 p.2) (State.newRec s a1) := by
  unfold State.newRec
  (extract_lets +onlyGivenNames x; subst x; beta_reduce)
  (extract_lets +onlyGivenNames x; clear_value x)
  (extract_lets +onlyGivenNames x; subst x; beta_reduce)
  refine Ends.snd ?_
  refine Ends.projR ?_
  refine State_drawGen_keeps ?_
  refine Ends.projR ?_
  refine State_random_keeps ?_
  assumption

theorem State_runDomain_keeps {s0 : State} {s : State} {a1 : ℕ} (h : Ok s0 s) : Ends (fun p : ℕ × State => Keeps s0 p.2) (State.runDomain s a1) := by
  unfold State.runDomain
  split
  refine Ends.snd ?_
  assumption
  refine Ends.ite ?_ ?_
  refine Ends.snd ?_
  assumption
  split
  refine Ends.snd ?_
  refine Ends.ofR (by assumption) ?_
  refine State_newRec_keeps ?_
  assumption
  refine Ends.snd ?_
  refine State_log_keeps ?_
  refine Ends.ofR (by assumption) ?_
  refine State_newRec_keeps ?_
  assumption

theorem State_useGen_keeps {s0 : State} {s : State} {a1 : ℕ} {a2 : ℕ} (h : Ok s0 s) : Ok s0 (State.useGen s a1 a2) := by
  unfold State.useGen
  refine Ends.upd ?_
  assumption

theorem State_rotateTo_keeps {s0 : State} {s : State} {a1 : Bytes} {a2 : ℕ} {a3 : KeyRec} {a4 : ℕ} (h : Ok s0 s) : Ends (fun p : ℕ × State => Keeps s0 p.2) (State.rotateTo s a1 a2 a3 a4) := by
  unfold State.rotateTo
  (extract_lets +onlyGivenNames x; subst x; beta_reduce)
  split
  refine Ends.snd ?_
  refine Ends.projR ?_
  refine State_drawGen_keeps ?_
  assumption
  (extract_lets +onlyGivenNames x; clear_value x)
  refine Ends.snd ?_
  refine State_log_keeps ?_
  refine State_useGen_keeps ?_
  refine Ends.projR ?_
  refine State_drawGen_keeps ?_
  assumption

theorem State_runRotate_keeps {s0 : State} {s : State} {a1 : ℕ} (h : Ok s0 s) : Ends (fun p : ℕ × State => Keeps s0 p.2) (State.runRotate s a1) := by
  unfold State.runRotate
  split
  refine Ends.ite ?_ ?_
  refine Ends.snd ?_
  assumption
  refine Ends.ite ?_ ?_
  refine Ends.snd ?_
  assumption
  split
  refine Ends.snd ?_
  assumption
  refine State_rotateTo_keeps ?_
  assumption
  refine Ends.snd ?_
  assumption

theorem State_setAwk_keeps {s0 : State} {s : State} {a1 : Bytes} (h : Ok s0 s) : Ok s0 (State.setAwk s a1) := by
  unfold State.setAwk
  refine Ends.upd ?_
  assumption

theorem State_runEnrol_keeps {s0 : State} {s : State} {a1 : Bytes} {a2 : ℕ} (h : Ok s0 s) : Ends (fun p : ℕ × State => Keeps s0 p.2) (State.runEnrol s a1 a2) := by
  unfold State.runEnrol
  (extract_lets +onlyGivenNames x; clear_value x)
  (extract_lets +onlyGivenNames x; clear_value x)
  (extract_lets +onlyGivenNames x; clear_value x)
  (extract_lets +onlyGivenNames x; refine Ends.cut (x := x) (s := s0) ?_ (fun _ => ?_) <;> [subst x; clear_value x])
  refine Ends.ite ?_ ?_
  split
  refine State_setAwk_keeps ?_
  refine Ends.ofR (by assumption) ?_
  refine State_random_keeps ?_
  assumption
  assumption
  (extract_lets +onlyGivenNames x; clear_value x)
  refine Ends.snd ?_
  refine State_log_keeps ?_
  assumption

theorem State_cpfRun_keeps {s0 : State} {s : State} {a1 : RoleBody} (h : Ok s0 s) : Ends (fun p : ℕ × State => Keeps s0 p.2) (State.cpfRun s a1) := by
  unfold State.cpfRun
  (extract_lets +onlyGivenNames x; subst x; beta_reduce)
  refine Ends.ite ?_ ?_
  refine Ends.snd ?_
  assumption
  split
  refine Ends.snd ?_
  refine State_log_keeps ?_
  assumption
  refine Ends.snd ?_
  refine State_log_keeps ?_
  assumption
  refine Ends.ite ?_ ?_
  refine Ends.snd ?_
  assumption
  refine Ends.snd ?_
  refine State_log_keeps ?_
  assumption
  refine Ends.ite ?_ ?_
  refine Ends.snd ?_
  refine State_log_keeps ?_
  assumption
  refine Ends.snd ?_
  assumption
  refine Ends.snd ?_
  refine State_log_keeps ?_
  assumption
  split
  refine Ends.snd ?_
  assumption
  refine Ends.snd ?_
  refine State_createNs_keeps ?_
  assumption
  split
  refine Ends.snd ?_
  assumption
  refine Ends.ite ?_ ?_
  refine Ends.snd ?_
  assumption
  refine Ends.snd ?_
  refine State_beginRemoval_keeps ?_
  assumption
  split
  refine Ends.snd ?_
  assumption
  refine Ends.ite ?_ ?_
  refine Ends.snd ?_
  assumption
  refine Ends.snd ?_
  refine State_beginRemoval_keeps ?_
  assumption
  split
  refine Ends.snd ?_
  assumption
  refine Ends.ite ?_ ?_
  refine Ends.snd ?_
  assumption
  refine Ends.snd ?_
  refine State_nsChanged_keeps ?_
  refine State_log_keeps ?_
  refine State_setNs_keeps ?_
  assumption
  refine State_runC0_keeps ?_
  assumption
  refine Ends.snd ?_
  refine State_log_keeps ?_
  assumption
  split
  refine Ends.snd ?_
  assumption
  refine Ends.ite ?_ ?_
  refine Ends.snd ?_
  assumption
  split
  refine Ends.snd ?_
  refine Ends.ofL (by assumption) ?_
  refine State_snapCreate_keeps ?_
  assumption
  refine Ends.snd ?_
  refine Ends.ofL (by assumption) ?_
  refine State_snapCreate_keeps ?_
  assumption
  split
  refine Ends.snd ?_
  refine Ends.ofL (by assumption) ?_
  refine State_snapDelete_keeps ?_
  assumption
  refine Ends.snd ?_
  refine Ends.ofL (by assumption) ?_
  refine State_snapDelete_keeps ?_
  assumption
  refine State_runClone_keeps ?_
  assumption
  refine State_runReplCreate_keeps ?_
  assumption
  refine State_runReplEnd_keeps ?_
  assumption
  refine State_runDomain_keeps ?_
  assumption
  refine State_runRotate_keeps ?_
  assumption
  refine State_runEnrol_keeps ?_
  assumption
  refine Ends.ite ?_ ?_
  refine Ends.snd ?_
  refine State_log_keeps ?_
  assumption
  refine Ends.snd ?_
  assumption
  refine Ends.snd ?_
  assumption

theorem State_issueChallenge_keeps {s0 : State} {s : State} (h : Ok s0 s) : Ends (fun p : Bytes × State => Keeps s0 p.2) (State.issueChallenge s) := by
  unfold State.issueChallenge
  split
  (extract_lets +onlyGivenNames x; clear_value x)
  refine Ends.snd ?_
  refine State_countChallenges_keeps ?_
  refine Ends.upd ?_
  refine Ends.ofR (by assumption) ?_
  refine State_random_keeps ?_
  assumption

theorem State_showOtp_keeps {s0 : State} {s : State} (h : Ok s0 s) : Ok s0 (State.showOtp s) := by
  unfold State.showOtp
  (extract_lets +onlyGivenNames x; refine Ends.cut (x := x) (s := s0) ?_ (fun _ => ?_) <;> [subst x; clear_value x])
  refine State_setFld_keeps ?_
  refine State_setFld_keeps ?_
  assumption
  (extract_lets +onlyGivenNames x; refine Ends.cut (x := x) (s := s0) ?_ (fun _ => ?_) <;> [subst x; clear_value x])
  refine State_setFlag_keeps ?_
  refine State_setFld_keeps ?_
  assumption
  refine State_setFld_keeps ?_
  assumption

theorem State_runInstall_keeps {s0 s : State} {d t : Bytes} (h : Ok s0 s) : Ends (fun p : Nat × State => Keeps s0 p.2) (s.runInstall d t) := by
  unfold State.runInstall
  dsimp only
  split
  · exact h
  · rename_i hl
    split
    · refine Ends.snd (State_showOtp_keeps ?_)
      exact ⟨h.1, h.2, h.3, h.4, h.5.trans ⟨fun x => absurd x hl, Nat.le_refl _, Nat.le_refl _, Nat.le_refl _, Nat.le_refl _⟩, h.6⟩
    · exact ⟨h.1, h.2, h.3, h.4, h.5.trans ⟨fun x => absurd x hl, Nat.le_refl _, Nat.le_refl _, Nat.le_refl _, Nat.le_refl _⟩, h.6⟩

theorem State_writeHeld_keeps {s0 : State} {s : State} (h : Ok s0 s) : Ok s0 (State.writeHeld s) := by
  unfold State.writeHeld
  refine Ends.ite ?_ ?_
  assumption
  (extract_lets +onlyGivenNames x; clear_value x)
  (extract_lets +onlyGivenNames x; subst x)
  (extract_lets +onlyGivenNames x; refine Ends.cut (x := x) (s := s0) ?_ (fun _ => ?_) <;> [subst x; clear_value x])
  refine Ends.upd ?_
  assumption
  (extract_lets +onlyGivenNames x; refine Ends.cut (x := x) (s := s0) ?_ (fun _ => ?_) <;> [subst x; clear_value x])
  refine Ends.fold ?_ (fun _ _ _ => ?_)
  assumption
  refine State_writeEvent_keeps ?_
  assumption
  refine Ends.ite ?_ ?_
  assumption
  (extract_lets +onlyGivenNames x; refine Ends.cut (x := x) (s := s0) ?_ (fun _ => ?_) <;> [subst x; clear_value x])
  refine State_writeEvent_keeps ?_
  assumption
  refine Ends.upd ?_
  assumption

theorem State_scanEvents_keeps {s0 : State} {s : State} (h : Ok s0 s) : Ok s0 (State.scanEvents s) := by
  unfold State.scanEvents
  (extract_lets +onlyGivenNames x; clear_value x)
  refine State_setFlag_keeps ?_
  refine State_setFld_keeps ?_
  assumption

theorem State_clearedRecord_keeps {s0 : State} {s : State} {a1 : ℕ} (h : Ok s0 s) : Ok s0 (State.clearedRecord s a1) := by
  unfold State.clearedRecord
  (extract_lets +onlyGivenNames x; subst x)
  (extract_lets +onlyGivenNames x; refine Ends.cut (x := x) (s := s0) ?_ (fun _ => ?_) <;> [subst x; clear_value x])
  refine State_scanEvents_keeps ?_
  refine Ends.upd ?_
  assumption
  (extract_lets +onlyGivenNames x; refine Ends.cut (x := x) (s := s0) ?_ (fun _ => ?_) <;> [subst x; clear_value x])
  refine Ends.upd ?_
  assumption
  refine State_writeEvent_keeps ?_
  assumption

theorem State_runClearEvr_keeps {s0 : State} {s : State} (h : Ok s0 s) : Ends (fun p : ℕ × State => Keeps s0 p.2) (State.runClearEvr s) := by
  unfold State.runClearEvr
  refine Ends.ite ?_ ?_
  refine Ends.snd ?_
  assumption
  refine Ends.snd ?_
  refine State_writeHeld_keeps ?_
  refine State_clearedRecord_keeps ?_
  assumption

theorem State_runExport_keeps {s0 : State} {s : State} {a1 : ℕ} {a2 : Bytes} {a3 : Bytes} {a4 : Bytes} (h : Ok s0 s) : Ends (fun p : ℕ × Bytes × State => Keeps s0 p.2.2) (State.runExport s a1 a2 a3 a4) := by
  unfold State.runExport
  refine Ends.ite ?_ ?_
  refine Ends.snd ?_
  assumption
  refine Ends.ite ?_ ?_
  refine Ends.snd ?_
  assumption
  split
  refine Ends.snd ?_
  assumption
  split
  (extract_lets +onlyGivenNames x; clear_value x)
  refine Ends.snd ?_
  refine Ends.upd ?_
  assumption

theorem State_runImport_keeps {s0 : State} {s : State} {a1 : ℕ} {a2 : Bytes} (h : Ok s0 s) : Ends (fun p : ℕ × Bytes × State => Keeps s0 p.2.2) (State.runImport s a1 a2) := by
  unfold State.runImport
  refine Ends.ite ?_ ?_
  refine Ends.snd ?_
  assumption
  refine Ends.ite ?_ ?_
  refine Ends.snd ?_
  assumption
  (extract_lets +onlyGivenNames x; clear_value x)
  split
  refine Ends.ite ?_ ?_
  refine Ends.snd ?_
  assumption
  split
  refine Ends.snd ?_
  refine Ends.ofR (by assumption) ?_
  refine State_drawGen_keeps ?_
  assumption
  (extract_lets +onlyGivenNames x; clear_value x)
  (extract_lets +onlyGivenNames x; clear_value x)
  refine Ends.snd ?_
  refine State_log_keeps ?_
  refine Ends.ofR (by assumption) ?_
  refine State_drawGen_keeps ?_
  assumption
  refine Ends.snd ?_
  assumption

theorem State_showReason_keeps {s0 : State} {s : State} {a1 : ℕ} {a2 : ℕ} (h : Ok s0 s) : Ok s0 (State.showReason s a1 a2) := by
  unfold State.showReason
  refine State_setFld_keeps ?_
  assumption

theorem State_setNorSlot_keeps {s0 : State} {s : State} {a1 : ℕ} {a2 : NorSlot} (h : Ok s0 s) : Ok s0 (State.setNorSlot s a1 a2) := by
  unfold State.setNorSlot
  refine Ends.upd ?_
  assumption

theorem State_writeHdr_keeps {s0 : State} {s : State} {a1 : ℕ} {a2 : SlotHdr} (h : Ok s0 s) : Ok s0 (State.writeHdr s a1 a2) := by
  unfold State.writeHdr
  refine State_showReason_keeps ?_
  refine State_setNorSlot_keeps ?_
  assumption

theorem State_runActivate_keeps {s0 : State} {s : State} (h : Ok s0 s) : Ends (fun p : ℕ × State => Keeps s0 p.2) (State.runActivate s) := by
  unfold State.runActivate
  refine Ends.ite ?_ ?_
  refine Ends.snd ?_
  assumption
  (extract_lets +onlyGivenNames x; clear_value x)
  (extract_lets +onlyGivenNames x; clear_value x)
  (extract_lets +onlyGivenNames x; subst x)
  (extract_lets +onlyGivenNames x; refine Ends.cut (x := x) (s := s0) ?_ (fun _ => ?_) <;> [subst x; clear_value x])
  refine State_writeHdr_keeps ?_
  assumption
  refine Ends.snd ?_
  refine Ends.upd ?_
  assumption

theorem State_logTrip_keeps {s0 : State} {s : State} {a1 : TripRec} (h : Ok s0 s) : Ok s0 (State.logTrip s a1) := by
  unfold State.logTrip
  refine Ends.ite ?_ ?_
  refine Ends.upd ?_
  assumption
  refine Ends.ite ?_ ?_
  refine Ends.upd ?_
  assumption
  refine Ends.upd ?_
  assumption

theorem State_setPhase_keeps {s0 : State} {s : State} {a1 : BootPhase} (h : Ok s0 s) : Ok s0 (State.setPhase s a1) := by
  unfold State.setPhase
  refine Ends.upd ?_
  assumption

theorem State_runResume_keeps {s0 : State} {s : State} (h : Ok s0 s) : Ends (fun p : Nat × State => Keeps s0 p.2) (State.runResume s) := by
  unfold State.runResume
  (extract_lets +onlyGivenNames x; clear_value x)
  refine Ends.ite ?_ ?_
  refine Ends.snd ?_
  assumption
  refine Ends.snd ?_
  refine Ends.ite ?_ ?_
  (extract_lets +onlyGivenNames x; clear_value x)
  (extract_lets +onlyGivenNames x; clear_value x)
  refine State_setPhase_keeps ?_
  refine State_mfwEvent_keeps ?_
  refine State_logTrip_keeps ?_
  refine Ends.upd ?_
  assumption
  (extract_lets +onlyGivenNames x; clear_value x)
  (extract_lets +onlyGivenNames x; clear_value x)
  refine State_mfwEvent_keeps ?_
  refine State_logTrip_keeps ?_
  refine Ends.upd ?_
  assumption

theorem State_opkeyValid_keeps {s0 : State} {s : State} (h : Ok s0 s) : Ok s0 (State.opkeyValid s) := by
  unfold State.opkeyValid
  refine State_setFld_keeps ?_
  assumption

theorem State_runUnlock_keeps {s0 s : State} (h : Ok s0 s) : Ends (fun p : Nat × State => Keeps s0 p.2) s.runUnlock := by
  unfold State.runUnlock
  dsimp only
  split
  · exact h
  · split
    · exact h
    · refine Ends.snd (State_setFlag_keeps (State_showOtp_keeps (State_opkeyValid_keeps ?_)))
      exact ⟨h.1, h.2, h.3, h.4, h.5.trans ⟨fun x => ⟨x, rfl⟩, Nat.le_refl _, Nat.le_refl _, Nat.le_refl _, Nat.le_succ _⟩, h.6⟩

theorem State_mfwRun_keeps {s0 : State} {s : State} {a1 : RoleEnv} {a2 : RoleBody} (h : Ok s0 s) : Ends (fun p : ℕ × Bytes × State => Keeps s0 p.2.2) (State.mfwRun s a1 a2) := by
  unfold State.mfwRun
  (extract_lets +onlyGivenNames x; subst x; beta_reduce)
  split
  split
  refine Ends.snd ?_
  refine Ends.ofR (by assumption) ?_
  refine State_issueChallenge_keeps ?_
  assumption
  refine Ends.snd ?_
  assumption
  refine Ends.snd ?_
  refine Ends.projR ?_
  refine State_runInstall_keeps ?_
  assumption
  refine Ends.snd ?_
  refine Ends.projR ?_
  refine State_runClearEvr_keeps ?_
  assumption
  refine State_runExport_keeps ?_
  assumption
  refine State_runImport_keeps ?_
  assumption
  refine Ends.snd ?_
  refine Ends.projR ?_
  refine State_runActivate_keeps ?_
  assumption
  refine Ends.snd ?_
  refine Ends.projR ?_
  refine State_runResume_keeps ?_
  assumption
  refine Ends.snd ?_
  refine Ends.projR ?_
  refine State_runUnlock_keeps ?_
  assumption
  refine Ends.snd ?_
  assumption

theorem State_resetRegs_keeps {s0 s : State} {a1 : Nat} {a2 : Nat → Nat → Bool} (h : Ok s0 s) : Ok s0 (s.resetRegs a1 a2) := by
  unfold State.resetRegs
  extract_lets p
  exact ⟨h.1, h.2, h.3, h.4, h.5, fun x => SMap.rising_keep (h.6 x) (fun k _ => p k)⟩

theorem State_withThm_keeps {s0 : State} {s : State} {a1 : Thm} (h : Ok s0 s) : Ok s0 (State.withThm s a1) := by
  unfold State.withThm
  refine Ends.upd ?_
  assumption

theorem State_dropKeys_keeps {s0 : State} {s : State} {a1 : ℕ} (h : Ok s0 s) : Ok s0 (State.dropKeys s a1) := by
  unfold State.dropKeys
  (extract_lets +onlyGivenNames x; clear_value x)
  refine Ends.upd ?_
  assumption

theorem State_resetB_keeps {s0 : State} {s : State} (h : Ok s0 s) : Ok s0 (State.resetB s) := by
  unfold State.resetB
  (extract_lets +onlyGivenNames x; clear_value x)
  (extract_lets +onlyGivenNames x; refine Ends.cut (x := x) (s := s0) ?_ (fun _ => ?_) <;> [subst x; clear_value x])
  refine State_resetRegs_keeps ?_
  assumption
  (extract_lets +onlyGivenNames x; subst x)
  (extract_lets +onlyGivenNames x; refine Ends.cut (x := x) (s := s0) ?_ (fun _ => ?_) <;> [subst x; clear_value x])
  refine State_withThm_keeps ?_
  refine State_dropKeys_keeps ?_
  assumption
  refine State_scanEvents_keeps ?_
  refine State_setFlag_keeps ?_
  refine Ends.upd ?_
  assumption

theorem State_keepMedia_keeps {s0 s t : State} (h : Ok s0 { t with otp := s.otp }) : Ok s0 (s.keepMedia t) := ⟨h.1, h.2, h.3, h.4, h.5, h.6⟩

theorem State_selectSource_keeps {s0 : State} {s : State} (h : Ok s0 s) : Ok s0 (State.selectSource s) := by
  unfold State.selectSource
  (extract_lets +onlyGivenNames x; clear_value x)
  (extract_lets +onlyGivenNames x; clear_value x)
  (extract_lets +onlyGivenNames x; subst x)
  (extract_lets +onlyGivenNames x; refine Ends.cut (x := x) (s := s0) ?_ (fun _ => ?_) <;> [subst x; clear_value x])
  refine Ends.ite ?_ ?_
  assumption
  refine Ends.upd ?_
  assumption
  (extract_lets +onlyGivenNames x; refine Ends.cut (x := x) (s := s0) ?_ (fun _ => ?_) <;> [subst x; clear_value x])
  refine State_setFld_keeps ?_
  assumption
  (extract_lets +onlyGivenNames x; refine Ends.cut (x := x) (s := s0) ?_ (fun _ => ?_) <;> [subst x; clear_value x])
  refine State_setFlag_keeps ?_
  assumption
  refine State_setFlag_keeps ?_
  assumption

theorem State_headReset_keeps {s0 s : State} {c : Nat} (h : Ok s0 s) : Ok s0 (s.headReset c) := by
  unfold State.headReset
  dsimp only
  refine State_scanEvents_keeps (State_setFld_keeps (State_setFlag_keeps (State_selectSource_keeps (State_setFlag_keeps
    (State_setFlag_keeps (State_setFld_keeps ?_))))))
  exact ⟨h.1, h.2, h.3, fun _ => Memory.wf_nil, h.5, fun x => SMap.rising_keep (h.6 x) (fun k _ => aoReg (k / 2 ^ 32) (k / 2 ^ 24 % 256))⟩

theorem State_roleAfter_keeps {s0 : State} {s : State} {a1 : RoleBody} (h : Ok s0 s) : Ok s0 (State.roleAfter s a1) := by
  unfold State.roleAfter
  split
  refine State_resetB_keeps ?_
  assumption
  refine Ends.ite ?_ ?_
  refine State_headReset_keeps ?_
  assumption
  assumption
  assumption

theorem State_roleRun_keeps {s0 : State} {s : State} {a1 : RoleFrom} {a2 : RoleEnv} {a3 : RoleBody} (h : Ok s0 s) : Ok s0 (State.roleRun s a1 a2 a3) := by
  unfold State.roleRun
  (extract_lets +onlyGivenNames x; refine Ends.cut (x := x) (s := s0) ?_ (fun _ => ?_) <;> [subst x; clear_value x])
  refine State_lapseChallenges_keeps ?_
  assumption
  (extract_lets +onlyGivenNames x; clear_value x)
  (extract_lets +onlyGivenNames x; subst x)
  (extract_lets +onlyGivenNames x; refine Ends.cut (x := x) (s := s0) ?_ (fun _ => ?_) <;> [subst x; clear_value x])
  refine State_countChallenges_keeps ?_
  refine Ends.upd ?_
  assumption
  (extract_lets +onlyGivenNames x; clear_value x)
  (extract_lets +onlyGivenNames x; subst x; beta_reduce)
  (extract_lets +onlyGivenNames x; clear_value x)
  refine Ends.ite ?_ ?_
  refine State_roleEnd_keeps ?_
  assumption
  (extract_lets +onlyGivenNames x; refine Ends.cut (x := x) (s := s0) ?_ (fun _ => ?_) <;> [subst x; clear_value x])
  refine State_addFld_keeps ?_
  assumption
  refine Ends.ite ?_ ?_
  refine State_roleEnd_keeps ?_
  assumption
  refine Ends.ite ?_ ?_
  refine State_roleEnd_keeps ?_
  assumption
  refine Ends.ite ?_ ?_
  refine Ends.ite ?_ ?_
  refine State_roleEnd_keeps ?_
  assumption
  split
  (extract_lets +onlyGivenNames x; clear_value x)
  refine Ends.upd ?_
  refine Ends.ofR (by assumption) ?_
  refine State_cpfRun_keeps ?_
  assumption
  split
  (extract_lets +onlyGivenNames x; refine Ends.cut (x := x) (s := s0) ?_ (fun _ => ?_) <;> [subst x; clear_value x])
  refine State_roleEnd_keeps ?_
  refine Ends.ofRR (by assumption) ?_
  refine State_mfwRun_keeps ?_
  assumption
  refine Ends.ite ?_ ?_
  refine State_roleAfter_keeps ?_
  assumption
  assumption

theorem State_answerData_keeps {s0 : State} {s : State} {a1 : Cmd} {a2 : Bytes} (h : Ok s0 s) : Ok s0 (State.answerData s a1 a2) := by
  unfold State.answerData
  refine State_setCmd_keeps ?_
  assumption

theorem State_finishAll_keeps {s0 : State} {s : State} {a1 : Cmd} {a2 : Status} (h : Ok s0 s) : Ok s0 (State.finishAll s a1 a2) := by
  unfold State.finishAll
  split
  refine State_finish2_keeps ?_
  assumption
  refine State_finish_keeps ?_
  assumption

theorem State_failCmd_keeps {s0 : State} {s : State} {a1 : Cmd} {a2 : Status} (h : Ok s0 s) : Ok s0 (State.failCmd s a1 a2) := by
  unfold State.failCmd
  refine State_advance_keeps ?_
  refine State_finishAll_keeps ?_
  assumption

theorem State_runAbort_keeps {s0 : State} {s : State} {a1 : Cmd} {a2 : ℕ} {a3 : ℕ} (h : Ok s0 s) : Ok s0 (State.runAbort s a1 a2 a3) := by
  unfold State.runAbort
  (extract_lets +onlyGivenNames x; clear_value x)
  refine Ends.ite ?_ ?_
  refine State_finish_keeps ?_
  assumption
  refine Ends.ite ?_ ?_
  refine State_finish_keeps ?_
  refine State_abortHalf_keeps ?_
  assumption
  split
  refine State_finish_keeps ?_
  refine State_failCmd_keeps ?_
  assumption
  refine State_finish_keeps ?_
  assumption

theorem State_adminDenied_keeps {s0 : State} {s : State} {a1 : Cmd} {a2 : State → State} (h : Ok s0 s) (h2 : ∀ x0, Ok s0 x0 → Ok s0 (a2 x0)) : Ok s0 (State.adminDenied s a1 a2) := by
  unfold State.adminDenied
  refine Ends.ite ?_ ?_
  refine h2 _ ?_
  assumption
  refine State_finish_keeps ?_
  refine State_event_keeps ?_
  assumption

theorem State_adminEvent_keeps {s0 : State} {s : State} {a1 : Cmd} (h : Ok s0 s) : Ok s0 (State.adminEvent s a1) := by
  unfold State.adminEvent
  refine State_event_keeps ?_
  assumption

theorem State_noteChanged_keeps {s0 : State} {s : State} {a1 : ℕ} {a2 : ℕ} (h : Ok s0 s) : Ok s0 (State.noteChanged s a1 a2) := by
  unfold State.noteChanged
  split
  assumption
  refine State_asyncNotice_keeps ?_
  refine State_setCtrl_keeps ?_
  assumption

theorem State_setAttached_keeps {s0 : State} {s : State} {a1 : ℕ} {a2 : List ℕ} {a3 : Bool} (h : Ok s0 s) : Ok s0 (State.setAttached s a1 a2 a3) := by
  unfold State.setAttached
  (extract_lets +onlyGivenNames x; refine Ends.cut (x := x) (s := s0) ?_ (fun _ => ?_) <;> [subst x; clear_value x])
  refine Ends.fold ?_ (fun _ _ _ => ?_)
  assumption
  refine Ends.ite ?_ ?_
  refine State_setCtrl_keeps ?_
  assumption
  assumption
  (extract_lets +onlyGivenNames x; subst x)
  (extract_lets +onlyGivenNames x; refine Ends.cut (x := x) (s := s0) ?_ (fun _ => ?_) <;> [subst x; clear_value x])
  refine Ends.upd ?_
  assumption
  refine Ends.ite ?_ ?_
  refine Ends.fold ?_ (fun _ _ _ => ?_)
  assumption
  refine State_noteChanged_keeps ?_
  assumption
  assumption

theorem State_startDetach_keeps {s0 : State} {s : State} {a1 : Cmd} {a2 : List ℕ} (h : Ok s0 s) : Ok s0 (State.startDetach s a1 a2) := by
  unfold State.startDetach
  (extract_lets +onlyGivenNames x; clear_value x)
  (extract_lets +onlyGivenNames x; refine Ends.cut (x := x) (s := s0) ?_ (fun _ => ?_) <;> [subst x; clear_value x])
  refine State_setAttached_keeps ?_
  refine State_log_keeps ?_
  assumption
  refine Ends.upd ?_
  assumption

theorem State_startFormat_keeps {s0 : State} {s : State} {a1 : Cmd} {a2 : ℕ} {a3 : ℕ} (h : Ok s0 s) : Ok s0 (State.startFormat s a1 a2 a3) := by
  unfold State.startFormat
  split
  refine State_finish_keeps ?_
  assumption
  (extract_lets +onlyGivenNames x; clear_value x)
  split
  refine State_finish_keeps ?_
  assumption
  refine Ends.ite ?_ ?_
  refine State_finish_keeps ?_
  assumption
  refine Ends.ite ?_ ?_
  refine State_finish_keeps ?_
  assumption
  refine Ends.ite ?_ ?_
  refine State_finish_keeps ?_
  assumption
  (extract_lets +onlyGivenNames x; clear_value x)
  refine State_adminEvent_keeps ?_
  refine State_log_keeps ?_
  refine State_log_keeps ?_
  refine State_setNs_keeps ?_
  assumption

theorem State_startSanitize_keeps {s0 : State} {s : State} {a1 : Cmd} {a2 : ℕ} (h : Ok s0 s) : Ok s0 (State.startSanitize s a1 a2) := by
  unfold State.startSanitize
  refine Ends.ite ?_ ?_
  refine State_finish_keeps ?_
  assumption
  split
  (extract_lets +onlyGivenNames x; refine Ends.cut (x := x) (s := s0) ?_ (fun _ => ?_) <;> [subst x; clear_value x])
  refine State_adminEvent_keeps ?_
  refine State_log_keeps ?_
  assumption
  refine State_finish_keeps ?_
  refine Ends.upd ?_
  assumption
  (extract_lets +onlyGivenNames x; clear_value x)
  (extract_lets +onlyGivenNames x; clear_value x)
  (extract_lets +onlyGivenNames x; subst x)
  (extract_lets +onlyGivenNames x; refine Ends.cut (x := x) (s := s0) ?_ (fun _ => ?_) <;> [subst x; clear_value x])
  refine Ends.upd ?_
  assumption
  refine State_adminEvent_keeps ?_
  refine State_log_keeps ?_
  assumption
  (extract_lets +onlyGivenNames x; clear_value x)
  (extract_lets +onlyGivenNames x; clear_value x)
  (extract_lets +onlyGivenNames x; subst x)
  (extract_lets +onlyGivenNames x; refine Ends.cut (x := x) (s := s0) ?_ (fun _ => ?_) <;> [subst x; clear_value x])
  refine Ends.upd ?_
  assumption
  refine State_adminEvent_keeps ?_
  refine State_log_keeps ?_
  assumption
  refine State_finish_keeps ?_
  assumption

end Sys2Proof.Machine
end

