-- ==== Sys2Proof/Laws/Keeps2.lean ====
section
/-! SUPPORT. Part 2 of 6: no operation of the model undoes what `Keeps` names; one lemma for each, in the order in which they call each
other. -/

set_option linter.all false

namespace Sys2Proof.Machine

open Sys2Proof

theorem State_adminRun_keeps {s0 : State} {s : State} {a1 : Cmd} (h : Ok s0 s) : Ok s0 (State.adminRun s a1) := by
  unfold State.adminRun
  (extract_lets +onlyGivenNames x; clear_value x)
  split
  assumption
  split
  refine State_finish_keeps ?_
  refine State_setCtrl_keeps ?_
  assumption
  refine State_finish_keeps ?_
  assumption
  split
  refine State_finish_keeps ?_
  assumption
  refine State_finish_keeps ?_
  assumption
  split
  refine State_finish_keeps ?_
  refine State_setCtrl_keeps ?_
  assumption
  split
  refine State_finish_keeps ?_
  assumption
  (extract_lets +onlyGivenNames x; clear_value x)
  refine State_answerData_keeps ?_
  refine State_setCtrl_keeps ?_
  assumption
  split
  refine State_answerData_keeps ?_
  assumption
  refine State_finish_keeps ?_
  assumption
  refine State_runAbort_keeps ?_
  assumption
  split
  refine State_finish_keeps ?_
  refine State_setCtrl_keeps ?_
  assumption
  refine Ends.ite ?_ ?_
  refine State_finish_keeps ?_
  assumption
  refine State_finish_keeps ?_
  assumption
  refine Ends.ite ?_ ?_
  refine State_finish_keeps ?_
  assumption
  (extract_lets +onlyGivenNames x; refine Ends.cut (x := x) (s := s0) ?_ (fun _ => ?_) <;> [subst x; clear_value x])
  refine State_setCtrl_keeps ?_
  assumption
  split
  refine State_asyncNotice_keeps ?_
  refine State_setCtrl_keeps ?_
  assumption
  assumption
  refine State_adminDenied_keeps ?_ ?_
  assumption
  intros
  split
  refine State_finish_keeps ?_
  assumption
  refine State_finish_keeps ?_
  refine State_adminEvent_keeps ?_
  refine State_createNs_keeps ?_
  assumption
  refine State_adminDenied_keeps ?_ ?_
  assumption
  intros
  split
  refine State_finish_keeps ?_
  assumption
  split
  refine State_finish_keeps ?_
  assumption
  refine State_adminEvent_keeps ?_
  refine State_beginRemoval_keeps ?_
  assumption
  refine State_adminDenied_keeps ?_ ?_
  assumption
  intros
  split
  refine State_finish_keeps ?_
  assumption
  split
  refine State_finish_keeps ?_
  assumption
  refine State_finish_keeps ?_
  refine State_adminEvent_keeps ?_
  refine State_setAttached_keeps ?_
  refine State_log_keeps ?_
  assumption
  refine State_adminDenied_keeps ?_ ?_
  assumption
  intros
  split
  refine State_finish_keeps ?_
  assumption
  split
  refine State_finish_keeps ?_
  assumption
  refine State_adminEvent_keeps ?_
  refine State_startDetach_keeps ?_
  assumption
  refine State_adminDenied_keeps ?_ ?_
  assumption
  intros
  refine State_startFormat_keeps ?_
  assumption
  refine State_adminDenied_keeps ?_ ?_
  assumption
  intros
  refine State_startSanitize_keeps ?_
  assumption
  refine State_finish_keeps ?_
  refine State_setCtrl_keeps ?_
  assumption
  assumption

theorem State_adminAny_keeps {s0 : State} {s : State} {a1 : Cmd} (h : Ok s0 s) : Ok s0 (State.adminAny s a1) := by
  unfold State.adminAny
  split
  assumption
  split
  refine State_roleRun_keeps ?_
  assumption
  split
  refine State_finish_keeps ?_
  assumption
  refine State_answerData_keeps ?_
  assumption
  split
  refine State_finish_keeps ?_
  assumption
  refine Ends.ite ?_ ?_
  refine State_finish_keeps ?_
  assumption
  refine State_answerData_keeps ?_
  refine State_setCtrl_keeps ?_
  assumption
  refine Ends.ite ?_ ?_
  refine State_finish_keeps ?_
  assumption
  refine State_answerData_keeps ?_
  assumption
  refine State_adminRun_keeps ?_
  assumption

theorem State_adminCmd_keeps {s0 : State} {s : State} {a1 : Cap} {a2 : Bool} {a3 : HostOp} {a4 : Option ℕ} (h : Ok s0 s) : Ok s0 (State.adminCmd s a1 a2 a3 a4) := by
  unfold State.adminCmd
  refine State_arrive_keeps ?_ ?_
  assumption
  intros
  (extract_lets +onlyGivenNames x; clear_value x)
  (extract_lets +onlyGivenNames x; clear_value x)
  refine State_enterCmd_keeps ?_
  assumption

theorem State_admitC0_keeps {s0 : State} {s : State} {a1 : ℕ} {a2 : ℕ} {a3 : ℕ} (h : Ok s0 s) : Ends (fun p : State × ℕ => Keeps s0 p.1) (State.admitC0 s a1 a2 a3) := by
  unfold State.admitC0
  (extract_lets +onlyGivenNames x; clear_value x)
  (extract_lets +onlyGivenNames x; clear_value x)
  (extract_lets +onlyGivenNames x; clear_value x)
  (extract_lets +onlyGivenNames x; clear_value x)
  (extract_lets +onlyGivenNames x; clear_value x)
  (extract_lets +onlyGivenNames x; clear_value x)
  (extract_lets +onlyGivenNames x; clear_value x)
  (extract_lets +onlyGivenNames x; clear_value x)
  refine Ends.ite ?_ ?_
  refine Ends.fst ?_
  refine State_addFld_keeps ?_
  assumption
  refine Ends.fst ?_
  refine Ends.upd ?_
  assumption

theorem State_sendPause_keeps {s0 : State} {s : State} {a1 : ℕ} {a2 : ℕ} (h : Ok s0 s) : Ok s0 (State.sendPause s a1 a2) := by
  unfold State.sendPause
  (extract_lets +onlyGivenNames x; clear_value x)
  (extract_lets +onlyGivenNames x; clear_value x)
  refine State_emit_keeps ?_
  refine State_queueFrame_keeps ?_
  assumption

theorem State_checkXoff_keeps {s0 : State} {s : State} {a1 : ℕ} (h : Ok s0 s) : Ok s0 (State.checkXoff s a1) := by
  unfold State.checkXoff
  (extract_lets +onlyGivenNames x; clear_value x)
  refine Ends.ite ?_ ?_
  assumption
  refine State_sendPause_keeps ?_
  refine State_setFport_keeps ?_
  assumption

theorem State_admitFrame_keeps {s0 : State} {s : State} {a1 : ℕ} {a2 : ℕ} {a3 : ℕ} {a4 : RxDest} (h : Ok s0 s) : Ok s0 (State.admitFrame s a1 a2 a3 a4) := by
  unfold State.admitFrame
  (extract_lets +onlyGivenNames x; clear_value x)
  (extract_lets +onlyGivenNames x; clear_value x)
  (extract_lets +onlyGivenNames x; refine Ends.cut (x := x) (s := s0) ?_ (fun _ => ?_) <;> [subst x; clear_value x])
  refine Ends.ite ?_ ?_
  refine State_portCount_keeps ?_
  assumption
  assumption
  (extract_lets +onlyGivenNames x; clear_value x)
  (extract_lets +onlyGivenNames x; clear_value x)
  refine Ends.ite ?_ ?_
  (extract_lets +onlyGivenNames x; clear_value x)
  refine State_checkXoff_keeps ?_
  refine State_setFport_keeps ?_
  assumption
  refine State_portCount_keeps ?_
  assumption

theorem State_endMarks_keeps {s0 : State} {s : State} {a1 : Option (ℕ × ℕ)} {a2 : Item} (h : Ok s0 s) : Ok s0 (State.endMarks s a1 a2) := by
  unfold State.endMarks
  split
  assumption
  (extract_lets +onlyGivenNames x; subst x; beta_reduce)
  (extract_lets +onlyGivenNames x; subst x; beta_reduce)
  split
  (extract_lets +onlyGivenNames x; clear_value x)
  split
  refine Ends.ite ?_ ?_
  refine Ends.upd ?_
  assumption
  assumption
  assumption
  refine Ends.upd ?_
  assumption
  refine Ends.upd ?_
  assumption
  assumption

theorem State_setPage_keeps {s0 : State} {s : State} {a1 : ℕ} {a2 : Page} (h : Ok s0 s) : Ok s0 (State.setPage s a1 a2) := by
  unfold State.setPage
  refine Ends.upd ?_
  assumption

theorem State_modChunk_keeps {s0 : State} {s : State} {a1 : ℕ} {a2 : ChunkEnt → ChunkEnt} (h : Ok s0 s) : Ok s0 (State.modChunk s a1 a2) := by
  unfold State.modChunk
  (extract_lets +onlyGivenNames x; clear_value x)
  (extract_lets +onlyGivenNames x; clear_value x)
  split
  refine State_setPage_keeps ?_
  assumption
  assumption

theorem State_ordDrop_keeps {s0 : State} {s : State} {a1 : ℕ} {a2 : ℕ} (h : Ok s0 s) : Ok s0 (State.ordDrop s a1 a2) := by
  unfold State.ordDrop
  (extract_lets +onlyGivenNames x; clear_value x)
  split
  (extract_lets +onlyGivenNames x; clear_value x)
  refine State_setCsa_keeps ?_
  assumption
  assumption

theorem State_ordImage_keeps {s0 : State} {s : State} {a1 : ℕ} {a2 : PageBody} (h : Ok s0 s) : Ok s0 (State.ordImage s a1 a2) := by
  unfold State.ordImage
  (extract_lets +onlyGivenNames x; clear_value x)
  (extract_lets +onlyGivenNames x; clear_value x)
  refine Ends.fold ?_ (fun _ _ _ => ?_)
  assumption
  refine State_ordDrop_keeps ?_
  assumption

theorem State_applyItem_keeps {s0 : State} {s : State} {a1 : Item} (h : Ok s0 s) : Ok s0 (State.applyItem s a1) := by
  unfold State.applyItem
  (extract_lets +onlyGivenNames x; subst x; beta_reduce)
  split
  (extract_lets +onlyGivenNames x; clear_value x)
  (extract_lets +onlyGivenNames x; clear_value x)
  split
  refine State_setPage_keeps ?_
  assumption
  refine State_setPage_keeps ?_
  assumption
  assumption
  refine State_modChunk_keeps ?_
  assumption
  refine Ends.fold ?_ (fun _ _ _ => ?_)
  assumption
  refine State_modChunk_keeps ?_
  assumption
  refine Ends.ite ?_ ?_
  (extract_lets +onlyGivenNames x; clear_value x)
  refine Ends.upd ?_
  assumption
  (extract_lets +onlyGivenNames x; clear_value x)
  split
  refine State_setPage_keeps ?_
  assumption
  assumption
  refine Ends.ite ?_ ?_
  (extract_lets +onlyGivenNames x; clear_value x)
  (extract_lets +onlyGivenNames x; clear_value x)
  refine Ends.upd ?_
  assumption
  (extract_lets +onlyGivenNames x; clear_value x)
  split
  refine State_setPage_keeps ?_
  assumption
  assumption
  refine Ends.fold ?_ (fun _ _ _ => ?_)
  assumption
  (extract_lets +onlyGivenNames x; clear_value x)
  (extract_lets +onlyGivenNames x; clear_value x)
  split
  refine State_setPage_keeps ?_
  assumption
  refine State_setPage_keeps ?_
  assumption
  assumption
  split
  (extract_lets +onlyGivenNames x; refine Ends.cut (x := x) (s := s0) ?_ (fun _ => ?_) <;> [subst x; clear_value x])
  split
  split
  refine State_setPage_keeps ?_
  assumption
  assumption
  assumption
  (extract_lets +onlyGivenNames x; clear_value x)
  split
  refine State_setPage_keeps ?_
  assumption
  assumption
  refine Ends.fold ?_ (fun _ _ _ => ?_)
  assumption
  (extract_lets +onlyGivenNames x; clear_value x)
  split
  refine Ends.ite ?_ ?_
  refine State_setPage_keeps ?_
  assumption
  assumption
  assumption
  (extract_lets +onlyGivenNames x; clear_value x)
  refine Ends.upd ?_
  assumption
  (extract_lets +onlyGivenNames x; refine Ends.cut (x := x) (s := s0) ?_ (fun _ => ?_) <;> [subst x; clear_value x])
  refine State_ordImage_keeps ?_
  assumption
  refine State_setPage_keeps ?_
  assumption

theorem State_raiseLsn_keeps {s0 : State} {s : State} {a1 : ℕ} {a2 : ℕ} {a3 : ℕ} (h : Ok s0 s) : Ok s0 (State.raiseLsn s a1 a2 a3) := by
  unfold State.raiseLsn
  (extract_lets +onlyGivenNames x; clear_value x)
  refine State_setPage_keeps ?_
  assumption

theorem State_markLine_keeps {s0 : State} {s : State} {a1 : ℕ} {a2 : Line → Line} (h : Ok s0 s) : Ok s0 (State.markLine s a1 a2) := by
  unfold State.markLine
  split
  refine Ends.upd ?_
  assumption
  (extract_lets +onlyGivenNames x; clear_value x)
  split
  refine Ends.upd ?_
  assumption
  (extract_lets +onlyGivenNames x; clear_value x)
  refine Ends.upd ?_
  assumption

theorem State_dirtyLine_keeps {s0 : State} {s : State} {a1 : ℕ} {a2 : ℕ} (h : Ok s0 s) : Ok s0 (State.dirtyLine s a1 a2) := by
  unfold State.dirtyLine
  refine State_markLine_keeps ?_
  assumption

theorem State_partnerLine_keeps {s0 : State} {s : State} {a1 : ℕ} {a2 : ℕ} (h : Ok s0 s) : Ok s0 (State.partnerLine s a1 a2) := by
  unfold State.partnerLine
  (extract_lets +onlyGivenNames x; clear_value x)
  refine Ends.ite ?_ ?_
  assumption
  refine State_markLine_keeps ?_
  assumption

theorem State_applyDurable_keeps {s0 : State} {s : State} {a1 : ℕ} {a2 : ℕ} {a3 : Item} (h : Ok s0 s) : Ok s0 (State.applyDurable s a1 a2 a3) := by
  unfold State.applyDurable
  (extract_lets +onlyGivenNames x; clear_value x)
  (extract_lets +onlyGivenNames x; refine Ends.cut (x := x) (s := s0) ?_ (fun _ => ?_) <;> [subst x; clear_value x])
  refine State_applyItem_keeps ?_
  assumption
  (extract_lets +onlyGivenNames x; refine Ends.cut (x := x) (s := s0) ?_ (fun _ => ?_) <;> [subst x; clear_value x])
  refine Ends.fold ?_ (fun _ _ _ => ?_)
  assumption
  (extract_lets +onlyGivenNames x; refine Ends.cut (x := x) (s := s0) ?_ (fun _ => ?_) <;> [subst x; clear_value x])
  refine State_raiseLsn_keeps ?_
  assumption
  refine Ends.ite ?_ ?_
  refine State_dirtyLine_keeps ?_
  assumption
  refine State_partnerLine_keeps ?_
  assumption
  split
  refine Ends.ite ?_ ?_
  refine State_event_keeps ?_
  refine Ends.upd ?_
  assumption
  assumption
  assumption

theorem State_csaInsertRing_keeps {s0 : State} {s : State} {a1 : ℕ} {a2 : ℕ} {a3 : CsaPart} {a4 : ℕ} (h : Ok s0 s) : Ends (fun p : State × ℕ => Keeps s0 p.1) (State.csaInsertRing s a1 a2 a3 a4) := by
  unfold State.csaInsertRing
  (extract_lets +onlyGivenNames x; clear_value x)
  (extract_lets +onlyGivenNames x; clear_value x)
  (extract_lets +onlyGivenNames x; clear_value x)
  (extract_lets +onlyGivenNames x; clear_value x)
  (extract_lets +onlyGivenNames x; clear_value x)
  refine Ends.fst ?_
  refine State_csaCount_keeps ?_
  refine State_setCsa_keeps ?_
  assumption

theorem State_filterInsert_keeps {s0 : State} {s : State} {a1 : ℕ} {a2 : Bytes} {a3 : ℕ} (h : Ok s0 s) : Ok s0 (State.filterInsert s a1 a2 a3) := by
  unfold State.filterInsert
  (extract_lets +onlyGivenNames x; clear_value x)
  (extract_lets +onlyGivenNames x; clear_value x)
  split
  split
  refine State_setCsa_keeps ?_
  refine Ends.ofL (by assumption) ?_
  refine State_csaInsertRing_keeps ?_
  assumption
  assumption

theorem State_setLine_keeps {s0 : State} {s : State} {a1 : ℕ} {a2 : Line} (h : Ok s0 s) : Ok s0 (State.setLine s a1 a2) := by
  unfold State.setLine
  refine Ends.upd ?_
  assumption

theorem State_keepResident_keeps {s0 : State} {s : State} {a1 : Item} (h : Ok s0 s) : Ok s0 (State.keepResident s a1) := by
  unfold State.keepResident
  split
  refine Ends.ite ?_ ?_
  split
  refine State_setLine_keeps ?_
  assumption
  assumption
  assumption
  assumption

theorem State_applyUpdItem_keeps {s0 : State} {s : State} {a1 : ℕ} {a2 : Item} {a3 : ℕ} {a4 : ℕ} {a5 : Option (ℕ × ℕ)} (h : Ok s0 s) : Ok s0 (State.applyUpdItem s a1 a2 a3 a4 a5) := by
  unfold State.applyUpdItem
  (extract_lets +onlyGivenNames x; clear_value x)
  (extract_lets +onlyGivenNames x; clear_value x)
  (extract_lets +onlyGivenNames x; refine Ends.cut (x := x) (s := s0) ?_ (fun _ => ?_) <;> [subst x; clear_value x])
  refine State_endMarks_keeps ?_
  refine Ends.ite ?_ ?_
  assumption
  refine State_applyDurable_keeps ?_
  assumption
  split
  refine State_filterInsert_keeps ?_
  assumption
  refine Ends.ite ?_ ?_
  assumption
  refine State_addValid_keeps ?_
  assumption
  refine State_keepResident_keeps ?_
  assumption

theorem State_leavePools_keeps {s0 : State} {s : State} {a1 : List ℕ} (h : Ok s0 s) : Ok s0 (State.leavePools s a1) := by
  unfold State.leavePools
  refine Ends.upd ?_
  assumption

theorem State_chunkChanged_keeps {s0 : State} {s : State} {a1 : ℕ} {a2 : ℕ} {a3 : ℕ} (h : Ok s0 s) : Ok s0 (State.chunkChanged s a1 a2 a3) := by
  unfold State.chunkChanged
  (extract_lets +onlyGivenNames x; clear_value x)
  (extract_lets +onlyGivenNames x; refine Ends.cut (x := x) (s := s0) ?_ (fun _ => ?_) <;> [subst x; clear_value x])
  refine State_raiseLsn_keeps ?_
  assumption
  refine Ends.ite ?_ ?_
  refine State_dirtyLine_keeps ?_
  assumption
  refine State_partnerLine_keeps ?_
  assumption

theorem State_applyReloc_keeps {s0 : State} {s : State} {a1 : ℕ} {a2 : ℕ} {a3 : ℕ} {a4 : ℕ} {a5 : ℕ} {a6 : ℕ} {a7 : ℕ} (h : Ok s0 s) : Ok s0 (State.applyReloc s a1 a2 a3 a4 a5 a6 a7) := by
  unfold State.applyReloc
  (extract_lets +onlyGivenNames x; clear_value x)
  (extract_lets +onlyGivenNames x; clear_value x)
  (extract_lets +onlyGivenNames x; refine Ends.cut (x := x) (s := s0) ?_ (fun _ => ?_) <;> [subst x; clear_value x])
  refine State_addValid_keeps ?_
  refine State_addValid_keeps ?_
  assumption
  (extract_lets +onlyGivenNames x; refine Ends.cut (x := x) (s := s0) ?_ (fun _ => ?_) <;> [subst x; clear_value x])
  refine Ends.fold ?_ (fun _ _ _ => ?_)
  assumption
  refine State_chunkChanged_keeps ?_
  refine State_modChunk_keeps ?_
  assumption
  refine Ends.ite ?_ ?_
  assumption
  refine State_applyItem_keeps ?_
  refine State_applyItem_keeps ?_
  assumption

theorem State_applyState_keeps {s0 : State} {s : State} {a1 : ℕ} {a2 : ℕ} {a3 : ℕ} {a4 : ℕ} (h : Ok s0 s) : Ok s0 (State.applyState s a1 a2 a3 a4) := by
  unfold State.applyState
  (extract_lets +onlyGivenNames x; refine Ends.cut (x := x) (s := s0) ?_ (fun _ => ?_) <;> [subst x; clear_value x])
  refine Ends.ite ?_ ?_
  refine State_addValid_keeps ?_
  assumption
  assumption
  refine State_chunkChanged_keeps ?_
  refine State_modChunk_keeps ?_
  assumption

theorem State_sanRecord_keeps {s0 : State} {s : State} {a1 : ℕ} {a2 : ℕ} {a3 : ℕ} {a4 : ℕ} (h : Ok s0 s) : Ok s0 (State.sanRecord s a1 a2 a3 a4) := by
  unfold State.sanRecord
  (extract_lets +onlyGivenNames x; clear_value x)
  (extract_lets +onlyGivenNames x; clear_value x)
  (extract_lets +onlyGivenNames x; clear_value x)
  refine Ends.upd ?_
  assumption

theorem State_nsRecord_keeps {s0 : State} {s : State} {a1 : ℕ} {a2 : NsRec} (h : Ok s0 s) : Ok s0 (State.nsRecord s a1 a2) := by
  unfold State.nsRecord
  (extract_lets +onlyGivenNames x; clear_value x)
  (extract_lets +onlyGivenNames x; clear_value x)
  (extract_lets +onlyGivenNames x; subst x)
  (extract_lets +onlyGivenNames x; refine Ends.cut (x := x) (s := s0) ?_ (fun _ => ?_) <;> [subst x; clear_value x])
  refine Ends.upd ?_
  assumption
  (extract_lets +onlyGivenNames x; refine Ends.cut (x := x) (s := s0) ?_ (fun _ => ?_) <;> [subst x; clear_value x])
  refine Ends.ite ?_ ?_
  refine State_nsChanged_keeps ?_
  assumption
  assumption
  (extract_lets +onlyGivenNames x; refine Ends.cut (x := x) (s := s0) ?_ (fun _ => ?_) <;> [subst x; clear_value x])
  refine Ends.ite ?_ ?_
  refine State_setAttached_keeps ?_
  assumption
  assumption
  refine State_setNewest_keeps ?_
  assumption

theorem State_domRecord_keeps {s0 : State} {s : State} {a1 : ℕ} {a2 : DomRec} (h : Ok s0 s) : Ok s0 (State.domRecord s a1 a2) := by
  unfold State.domRecord
  (extract_lets +onlyGivenNames x; clear_value x)
  (extract_lets +onlyGivenNames x; clear_value x)
  refine Ends.upd ?_
  assumption

theorem State_applyLayout_keeps {s0 : State} {s : State} {a1 : Layout} (h : Ok s0 s) : Ok s0 (State.applyLayout s a1) := by
  unfold State.applyLayout
  (extract_lets +onlyGivenNames x; refine Ends.cut (x := x) (s := s0) ?_ (fun _ => ?_) <;> [subst x; clear_value x])
  split
  refine Ends.fold ?_ (fun _ _ _ => ?_)
  assumption
  refine State_setFld_keeps ?_
  assumption
  assumption
  split
  refine Ends.ite ?_ ?_
  assumption
  refine State_setFld_keeps ?_
  assumption
  assumption

theorem State_finishTag_keeps {s0 : State} {s : State} {a1 : Option ℕ} {a2 : Status} (h : Ok s0 s) : Ok s0 (State.finishTag s a1 a2) := by
  unfold State.finishTag
  split
  refine State_advance_keeps ?_
  refine State_finish_keeps ?_
  assumption
  assumption

theorem State_asyncAll_keeps {s0 : State} {s : State} {a1 : ℕ} {a2 : ℕ} {a3 : ℕ} (h : Ok s0 s) : Ok s0 (State.asyncAll s a1 a2 a3) := by
  unfold State.asyncAll
  refine Ends.fold ?_ (fun _ _ _ => ?_)
  assumption
  refine State_asyncNotice_keeps ?_
  assumption

theorem State_csaInvalidateMasked_keeps {s0 : State} {s : State} {a1 : ℕ} {a2 : CsaPart} {a3 : ℕ} {a4 : ℕ} (h : Ok s0 s) : Ok s0 (State.csaInvalidateMasked s a1 a2 a3 a4) := by
  unfold State.csaInvalidateMasked
  (extract_lets +onlyGivenNames x; clear_value x)
  refine State_setCsa_keeps ?_
  assumption

theorem State_filterDropDomain_keeps {s0 : State} {s : State} {a1 : ℕ} (h : Ok s0 s) : Ok s0 (State.filterDropDomain s a1) := by
  unfold State.filterDropDomain
  (extract_lets +onlyGivenNames x; clear_value x)
  refine Ends.fold ?_ (fun _ _ _ => ?_)
  assumption
  refine Ends.fold ?_ (fun _ _ _ => ?_)
  assumption
  split
  refine Ends.ite ?_ ?_
  refine State_csaInvalidateMasked_keeps ?_
  assumption
  assumption
  assumption

theorem State_flushXts_keeps {s0 : State} {s : State} {a1 : ℕ} {a2 : Option ℕ} (h : Ok s0 s) : Ok s0 (State.flushXts s a1 a2) := by
  unfold State.flushXts
  refine Ends.upd ?_
  assumption

theorem State_flushFp_keeps {s0 : State} {s : State} {a1 : ℕ} {a2 : Option ℕ} (h : Ok s0 s) : Ok s0 (State.flushFp s a1 a2) := by
  unfold State.flushFp
  refine Ends.upd ?_
  assumption

theorem State_dropDomainKeys_keeps {s0 : State} {s : State} {a1 : ℕ} (h : Ok s0 s) : Ok s0 (State.dropDomainKeys s a1) := by
  unfold State.dropDomainKeys
  refine State_filterDropDomain_keeps ?_
  refine Ends.fold ?_ (fun _ _ _ => ?_)
  assumption
  refine State_flushXts_keeps ?_
  refine State_flushFp_keeps ?_
  assumption

theorem State_takeNumbers_keeps {s0 : State} {s : State} {a1 : ℕ} {a2 : ℕ} (h : Ok s0 s) : Ends (fun p : State × ℕ => Keeps s0 p.1) (State.takeNumbers s a1 a2) := by
  unfold State.takeNumbers
  (extract_lets +onlyGivenNames x; clear_value x)
  (extract_lets +onlyGivenNames x; clear_value x)
  (extract_lets +onlyGivenNames x; clear_value x)
  (extract_lets +onlyGivenNames x; subst x)
  (extract_lets +onlyGivenNames x; refine Ends.cut (x := x) (s := s0) ?_ (fun _ => ?_) <;> [subst x; clear_value x])
  refine Ends.upd ?_
  assumption
  refine Ends.ite ?_ ?_
  refine Ends.fst ?_
  assumption
  (extract_lets +onlyGivenNames x; clear_value x)
  refine Ends.fst ?_
  refine State_log_keeps ?_
  refine Ends.upd ?_
  assumption

theorem State_setPack_keeps {s0 : State} {s : State} {a1 : ℕ} {a2 : Pack} (h : Ok s0 s) : Ok s0 (State.setPack s a1 a2) := by
  unfold State.setPack
  refine Ends.upd ?_
  assumption

theorem State_setJob_keeps {s0 : State} {s : State} {a1 : ℕ} {a2 : Job} (h : Ok s0 s) : Ok s0 (State.setJob s a1 a2) := by
  unfold State.setJob
  refine Ends.upd ?_
  assumption

theorem State_setChunk_keeps {s0 : State} {s : State} {a1 : ℕ} {a2 : ℕ} {a3 : ChunkSt} (h : Ok s0 s) : Ok s0 (State.setChunk s a1 a2 a3) := by
  unfold State.setChunk
  split
  assumption
  refine State_setJob_keeps ?_
  assumption

theorem State_packTurn_keeps {s0 : State} {s : State} {a1 : ℕ} {a2 : ℕ} (h : Ok s0 s) : Ok s0 (State.packTurn s a1 a2) := by
  induction a2 generalizing s a1
  · rw [State.packTurn.eq_1]
    assumption
  · rename_i ih
    rw [State.packTurn.eq_2]
    split
    assumption
    refine Ends.ite ?_ ?_
    assumption
    split
    assumption
    split
    split
    assumption
    (extract_lets +onlyGivenNames x; clear_value x)
    split
    apply ih
    refine State_setChunk_keeps ?_
    refine Ends.ofL (by assumption) ?_
    split
    refine Ends.fst ?_
    refine State_setPack_keeps ?_
    assumption
    (extract_lets +onlyGivenNames x; clear_value x)
    (extract_lets +onlyGivenNames x; clear_value x)
    refine Ends.fst ?_
    refine State_setPack_keeps ?_
    refine Ends.upd ?_
    assumption
    assumption

theorem State_packTurns_keeps {s0 : State} {s : State} (h : Ok s0 s) : Ok s0 (State.packTurns s) := by
  unfold State.packTurns
  refine Ends.fold ?_ (fun _ _ _ => ?_)
  assumption
  refine State_packTurn_keeps ?_
  assumption

theorem State_closePack_keeps {s0 : State} {s : State} {a1 : ℕ} (h : Ok s0 s) : Ok s0 (State.closePack s a1) := by
  unfold State.closePack
  split
  assumption
  refine Ends.ite ?_ ?_
  assumption
  (extract_lets +onlyGivenNames x; clear_value x)
  split
  (extract_lets +onlyGivenNames x; clear_value x)
  (extract_lets +onlyGivenNames x; refine Ends.cut (x := x) (s := s0) ?_ (fun _ => ?_) <;> [subst x; clear_value x])
  refine State_setPack_keeps ?_
  refine Ends.ofL (by assumption) ?_
  refine State_takeNumbers_keeps ?_
  assumption
  (extract_lets +onlyGivenNames x; refine Ends.cut (x := x) (s := s0) ?_ (fun _ => ?_) <;> [subst x; clear_value x])
  refine Ends.fold ?_ (fun _ _ _ => ?_)
  assumption
  refine State_filterInsert_keeps ?_
  assumption
  refine State_packTurns_keeps ?_
  assumption

theorem State_rotateWgen_keeps {s0 : State} {s : State} {a1 : ℕ} {a2 : ℕ} (h : Ok s0 s) : Ok s0 (State.rotateWgen s a1 a2) := by
  unfold State.rotateWgen
  refine Ends.fold ?_ (fun _ _ _ => ?_)
  assumption
  (extract_lets +onlyGivenNames x; clear_value x)
  (extract_lets +onlyGivenNames x; clear_value x)
  (extract_lets +onlyGivenNames x; clear_value x)
  (extract_lets +onlyGivenNames x; clear_value x)
  (extract_lets +onlyGivenNames x; clear_value x)
  (extract_lets +onlyGivenNames x; clear_value x)
  (extract_lets +onlyGivenNames x; refine Ends.cut (x := x) (s := s0) ?_ (fun _ => ?_) <;> [subst x; clear_value x])
  refine State_addFld_keeps ?_
  refine State_setShadow_keeps ?_
  refine State_setActive_keeps ?_
  assumption
  refine Ends.ite ?_ ?_
  assumption
  refine Ends.fold ?_ (fun _ _ _ => ?_)
  assumption
  refine State_closePack_keeps ?_
  assumption

theorem State_applyMeta_keeps {s0 : State} {s : State} {a1 : MetaChange} (h : Ok s0 s) : Ok s0 (State.applyMeta s a1) := by
  unfold State.applyMeta
  split
  refine State_opkeyValid_keeps ?_
  refine Ends.upd ?_
  assumption
  refine State_opkeyValid_keeps ?_
  refine Ends.upd ?_
  assumption
  refine Ends.upd ?_
  assumption
  refine Ends.upd ?_
  assumption
  refine Ends.upd ?_
  assumption
  refine State_applyLayout_keeps ?_
  refine Ends.upd ?_
  assumption
  refine Ends.upd ?_
  assumption
  refine Ends.ite ?_ ?_
  refine State_setFld_keeps ?_
  refine State_setFld_keeps ?_
  assumption
  assumption
  refine State_setAttached_keeps ?_
  assumption
  (extract_lets +onlyGivenNames x; refine Ends.cut (x := x) (s := s0) ?_ (fun _ => ?_) <;> [subst x; clear_value x])
  refine State_setAttached_keeps ?_
  assumption
  refine Ends.upd ?_
  assumption
  (extract_lets +onlyGivenNames x; refine Ends.cut (x := x) (s := s0) ?_ (fun _ => ?_) <;> [subst x; clear_value x])
  refine Ends.fold ?_ (fun _ _ _ => ?_)
  assumption
  refine State_noteChanged_keeps ?_
  assumption
  refine Ends.upd ?_
  assumption
  split
  (extract_lets +onlyGivenNames x; subst x)
  (extract_lets +onlyGivenNames x; subst x)
  (extract_lets +onlyGivenNames x; refine Ends.cut (x := x) (s := s0) ?_ (fun _ => ?_) <;> [subst x; clear_value x])
  refine Ends.upd ?_
  assumption
  refine State_finishTag_keeps ?_
  refine State_asyncAll_keeps ?_
  assumption
  assumption
  refine Ends.upd ?_
  assumption
  refine Ends.ite ?_ ?_
  assumption
  (extract_lets +onlyGivenNames x; clear_value x)
  (extract_lets +onlyGivenNames x; refine Ends.cut (x := x) (s := s0) ?_ (fun _ => ?_) <;> [subst x; clear_value x])
  refine Ends.upd ?_
  assumption
  refine Ends.ite ?_ ?_
  assumption
  refine State_asyncAll_keeps ?_
  assumption
  (extract_lets +onlyGivenNames x; refine Ends.cut (x := x) (s := s0) ?_ (fun _ => ?_) <;> [subst x; clear_value x])
  refine State_dropDomainKeys_keeps ?_
  assumption
  refine Ends.upd ?_
  assumption
  (extract_lets +onlyGivenNames x; clear_value x)
  (extract_lets +onlyGivenNames x; clear_value x)
  (extract_lets +onlyGivenNames x; subst x)
  (extract_lets +onlyGivenNames x; refine Ends.cut (x := x) (s := s0) ?_ (fun _ => ?_) <;> [subst x; clear_value x])
  refine Ends.upd ?_
  assumption
  refine Ends.ite ?_ ?_
  refine State_rotateWgen_keeps ?_
  assumption
  assumption

theorem State_applyBody_keeps {s0 : State} {s : State} {a1 : LogBody} {a2 : ℕ} {a3 : ℕ} (h : Ok s0 s) : Ok s0 (State.applyBody s a1 a2 a3) := by
  unfold State.applyBody
  (extract_lets +onlyGivenNames x; clear_value x)
  split
  (extract_lets +onlyGivenNames x; clear_value x)
  refine Ends.ite ?_ ?_
  refine Ends.upd ?_
  assumption
  assumption
  (extract_lets +onlyGivenNames x; refine Ends.cut (x := x) (s := s0) ?_ (fun _ => ?_) <;> [subst x; clear_value x])
  refine Ends.ite ?_ ?_
  assumption
  refine State_leavePools_keeps ?_
  assumption
  (extract_lets +onlyGivenNames x; refine Ends.cut (x := x) (s := s0) ?_ (fun _ => ?_) <;> [subst x; clear_value x])
  refine Ends.ite ?_ ?_
  assumption
  refine State_event_keeps ?_
  assumption
  refine Ends.ite ?_ ?_
  assumption
  refine State_setSeg_keeps ?_
  assumption
  refine Ends.ite ?_ ?_
  refine State_applyReloc_keeps ?_
  assumption
  assumption
  refine Ends.ite ?_ ?_
  refine State_applyState_keeps ?_
  assumption
  assumption
  refine State_sanRecord_keeps ?_
  assumption
  split
  refine Ends.upd ?_
  assumption
  assumption
  refine State_nsRecord_keeps ?_
  assumption
  refine State_setNewest_keeps ?_
  refine Ends.upd ?_
  assumption
  refine State_domRecord_keeps ?_
  assumption
  refine Ends.upd ?_
  assumption
  refine Ends.upd ?_
  assumption
  (extract_lets +onlyGivenNames x; refine Ends.cut (x := x) (s := s0) ?_ (fun _ => ?_) <;> [subst x; clear_value x])
  refine State_leavePools_keeps ?_
  assumption
  refine Ends.upd ?_
  assumption
  refine State_leavePools_keeps ?_
  assumption
  refine State_leavePools_keeps ?_
  assumption
  refine Ends.upd ?_
  assumption
  refine State_applyMeta_keeps ?_
  assumption
  assumption

theorem State_applyUpd_keeps {s0 : State} {s : State} {a1 : MapChange} {a2 : ℕ} (h : Ok s0 s) : Ok s0 (State.applyUpd s a1 a2) := by
  unfold State.applyUpd
  (extract_lets +onlyGivenNames x; subst x)
  (extract_lets +onlyGivenNames x; refine Ends.cut (x := x) (s := s0) ?_ (fun _ => ?_) <;> [subst x; clear_value x])
  refine Ends.upd ?_
  assumption
  split
  refine State_applyUpdItem_keeps ?_
  assumption
  (extract_lets +onlyGivenNames x; clear_value x)
  (extract_lets +onlyGivenNames x; refine Ends.cut (x := x) (s := s0) ?_ (fun _ => ?_) <;> [subst x; clear_value x])
  refine State_applyBody_keeps ?_
  assumption
  refine Ends.ite ?_ ?_
  refine State_log_keeps ?_
  assumption
  assumption
  assumption

theorem State_replayItem_keeps {s0 : State} {s : State} {a1 : LogRec} {a2 : ℕ → Bool} {a3 : Item} (h : Ok s0 s) : Ok s0 (State.replayItem s a1 a2 a3) := by
  unfold State.replayItem
  (extract_lets +onlyGivenNames x; clear_value x)
  (extract_lets +onlyGivenNames x; clear_value x)
  refine Ends.ite ?_ ?_
  assumption
  (extract_lets +onlyGivenNames x; refine Ends.cut (x := x) (s := s0) ?_ (fun _ => ?_) <;> [subst x; clear_value x])
  refine State_applyDurable_keeps ?_
  assumption
  split
  refine State_addValid_keeps ?_
  assumption
  assumption

theorem State_replayItems_keeps {s0 : State} {s : State} {a1 : LogRec} {a2 : Item → Bool} (h : Ok s0 s) : Ok s0 (State.replayItems s a1 a2) := by
  unfold State.replayItems
  split
  (extract_lets +onlyGivenNames x; refine Ends.cut (x := x) (s := s0) ?_ (fun _ => ?_) <;> [subst x; clear_value x])
  assumption
  (extract_lets +onlyGivenNames x; clear_value x)
  refine Ends.fold ?_ (fun _ _ _ => ?_)
  assumption
  refine State_endMarks_keeps ?_
  refine State_replayItem_keeps ?_
  assumption
  assumption

theorem State_replay_keeps {s0 : State} {s : State} {a1 : List LogRec} (h : Ok s0 s) : Ok s0 (State.replay s a1) := by
  unfold State.replay
  (extract_lets +onlyGivenNames x; clear_value x)
  (extract_lets +onlyGivenNames x; refine Ends.cut (x := x) (s := s0) ?_ (fun _ => ?_) <;> [subst x; clear_value x])
  refine Ends.fold ?_ (fun _ _ _ => ?_)
  assumption
  split
  refine State_replayItems_keeps ?_
  assumption
  refine State_applyBody_keeps ?_
  assumption
  (extract_lets +onlyGivenNames x; clear_value x)
  (extract_lets +onlyGivenNames x; clear_value x)
  refine Ends.fold ?_ (fun _ _ _ => ?_)
  assumption
  refine State_replayItems_keeps ?_
  assumption

theorem State_dropPartial_keeps {s0 : State} {s : State} (h : Ok s0 s) : Ok s0 (State.dropPartial s) := by
  unfold State.dropPartial
  (extract_lets +onlyGivenNames x; clear_value x)
  (extract_lets +onlyGivenNames x; clear_value x)
  (extract_lets +onlyGivenNames x; clear_value x)
  refine Ends.upd ?_
  assumption

theorem State_adoptJournal_keeps {s0 : State} {s : State} {a1 : MediaImage} (h : Ok s0 s) : Ok s0 (State.adoptJournal s a1) := by
  unfold State.adoptJournal
  (extract_lets +onlyGivenNames x; refine Ends.cut (x := x) (s := s0) ?_ (fun _ => ?_) <;> [subst x; clear_value x])
  refine Ends.fold ?_ (fun _ _ _ => ?_)
  assumption
  split
  refine State_applyUpd_keeps ?_
  assumption
  assumption
  (extract_lets +onlyGivenNames x; subst x)
  (extract_lets +onlyGivenNames x; refine Ends.cut (x := x) (s := s0) ?_ (fun _ => ?_) <;> [subst x; clear_value x])
  refine Ends.upd ?_
  assumption
  (extract_lets +onlyGivenNames x; clear_value x)
  (extract_lets +onlyGivenNames x; subst x)
  (extract_lets +onlyGivenNames x; refine Ends.cut (x := x) (s := s0) ?_ (fun _ => ?_) <;> [subst x; clear_value x])
  refine Ends.upd ?_
  assumption
  (extract_lets +onlyGivenNames x; refine Ends.cut (x := x) (s := s0) ?_ (fun _ => ?_) <;> [subst x; clear_value x])
  refine State_replay_keeps ?_
  assumption
  (extract_lets +onlyGivenNames x; clear_value x)
  (extract_lets +onlyGivenNames x; subst x)
  (extract_lets +onlyGivenNames x; refine Ends.cut (x := x) (s := s0) ?_ (fun _ => ?_) <;> [subst x; clear_value x])
  refine Ends.upd ?_
  assumption
  (extract_lets +onlyGivenNames x; refine Ends.cut (x := x) (s := s0) ?_ (fun _ => ?_) <;> [subst x; clear_value x])
  refine State_dropPartial_keeps ?_
  assumption
  refine Ends.fold ?_ (fun _ _ _ => ?_)
  assumption
  (extract_lets +onlyGivenNames x; refine Ends.cut (x := x) (s := s0) ?_ (fun _ => ?_) <;> [subst x; clear_value x])
  refine Ends.ite ?_ ?_
  assumption
  refine State_postIntent_keeps ?_
  assumption
  refine State_programRec_keeps ?_
  assumption

theorem State_adoptQp_keeps {s0 : State} {s : State} {a1 : QpExport} (h : Ok s0 s) : Ok s0 (State.adoptQp s a1) := by
  unfold State.adoptQp
  (extract_lets +onlyGivenNames x; clear_value x)
  (extract_lets +onlyGivenNames x; clear_value x)
  (extract_lets +onlyGivenNames x; clear_value x)
  (extract_lets +onlyGivenNames x; clear_value x)
  (extract_lets +onlyGivenNames x; clear_value x)
  (extract_lets +onlyGivenNames x; clear_value x)
  (extract_lets +onlyGivenNames x; clear_value x)
  (extract_lets +onlyGivenNames x; clear_value x)
  (extract_lets +onlyGivenNames x; clear_value x)
  (extract_lets +onlyGivenNames x; clear_value x)
  (extract_lets +onlyGivenNames x; clear_value x)
  (extract_lets +onlyGivenNames x; subst x)
  (extract_lets +onlyGivenNames x; refine Ends.cut (x := x) (s := s0) ?_ (fun _ => ?_) <;> [subst x; clear_value x])
  refine Ends.upd ?_
  assumption
  (extract_lets +onlyGivenNames x; subst x)
  (extract_lets +onlyGivenNames x; refine Ends.cut (x := x) (s := s0) ?_ (fun _ => ?_) <;> [subst x; clear_value x])
  split
  refine Ends.ite ?_ ?_
  assumption
  refine Ends.upd ?_
  assumption
  assumption
  (extract_lets +onlyGivenNames x; clear_value x)
  (extract_lets +onlyGivenNames x; subst x)
  (extract_lets +onlyGivenNames x; refine Ends.cut (x := x) (s := s0) ?_ (fun _ => ?_) <;> [subst x; clear_value x])
  split
  refine Ends.upd ?_
  assumption
  assumption
  (extract_lets +onlyGivenNames x; refine Ends.cut (x := x) (s := s0) ?_ (fun _ => ?_) <;> [subst x; clear_value x])
  refine State_setQp_keeps ?_
  assumption
  refine Ends.ite ?_ ?_
  assumption
  refine State_qpFail_keeps ?_
  assumption

theorem State_adoptQps_keeps {s0 : State} {s : State} {a1 : QpExport → Bool} (h : Ok s0 s) : Ends (fun p : List Cmd × State => Keeps s0 p.2) (State.adoptQps s a1) := by
  unfold State.adoptQps
  (extract_lets +onlyGivenNames x; clear_value x)
  (extract_lets +onlyGivenNames x; clear_value x)
  (extract_lets +onlyGivenNames x; clear_value x)
  (extract_lets +onlyGivenNames x; refine Ends.cut (x := x) (s := s0) ?_ (fun _ => ?_) <;> [subst x; clear_value x])
  refine Ends.fold ?_ (fun _ _ _ => ?_)
  assumption
  refine State_adoptQp_keeps ?_
  assumption
  (extract_lets +onlyGivenNames x; clear_value x)
  (extract_lets +onlyGivenNames x; clear_value x)
  (extract_lets +onlyGivenNames x; refine Ends.cut (x := x) (s := s0) ?_ (fun _ => ?_) <;> [subst x; clear_value x])
  refine Ends.fold ?_ (fun _ _ _ => ?_)
  assumption
  refine State_setCmd_keeps ?_
  assumption
  refine Ends.snd ?_
  refine Ends.upd ?_
  assumption

theorem State_holdAdopted_keeps {s0 : State} {s : State} (h : Ok s0 s) : Ok s0 (State.holdAdopted s) := by
  unfold State.holdAdopted
  refine Ends.fold ?_ (fun _ _ _ => ?_)
  assumption
  split
  refine Ends.ite ?_ ?_
  assumption
  (extract_lets +onlyGivenNames x; clear_value x)
  refine Ends.fold ?_ (fun _ _ _ => ?_)
  assumption
  split
  refine State_setSess_keeps ?_
  refine State_setJack_keeps ?_
  assumption
  assumption
  assumption

theorem State_sealSegment_keeps {s0 : State} {s : State} {a1 : SegDesc} (h : Ok s0 s) : Ok s0 (State.sealSegment s a1) := by
  unfold State.sealSegment
  (extract_lets +onlyGivenNames x; clear_value x)
  (extract_lets +onlyGivenNames x; refine Ends.cut (x := x) (s := s0) ?_ (fun _ => ?_) <;> [subst x; clear_value x])
  refine State_setSeg_keeps ?_
  assumption
  refine State_log_keeps ?_
  refine Ends.upd ?_
  assumption

theorem State_sealOpens_keeps {s0 : State} {s : State} {a1 : ℕ → Bool} (h : Ok s0 s) : Ok s0 (State.sealOpens s a1) := by
  unfold State.sealOpens
  (extract_lets +onlyGivenNames x; clear_value x)
  refine Ends.fold ?_ (fun _ _ _ => ?_)
  assumption
  (extract_lets +onlyGivenNames x; clear_value x)
  (extract_lets +onlyGivenNames x; clear_value x)
  refine State_sealSegment_keeps ?_
  assumption

theorem State_awaitWay_keeps {s0 : State} {s : State} {a1 : WayWait} (h : Ok s0 s) : Ok s0 (State.awaitWay s a1) := by
  unfold State.awaitWay
  refine Ends.ite ?_ ?_
  refine Ends.upd ?_
  assumption
  refine Ends.upd ?_
  assumption

theorem State_dropLine_keeps {s0 : State} {s : State} {a1 : ℕ} (h : Ok s0 s) : Ok s0 (State.dropLine s a1) := by
  unfold State.dropLine
  (extract_lets +onlyGivenNames x; refine Ends.cut (x := x) (s := s0) ?_ (fun _ => ?_) <;> [subst x; clear_value x])
  refine Ends.ite ?_ ?_
  refine State_ordDrop_keeps ?_
  assumption
  assumption
  (extract_lets +onlyGivenNames x; refine Ends.cut (x := x) (s := s0) ?_ (fun _ => ?_) <;> [subst x; clear_value x])
  split
  refine Ends.ite ?_ ?_
  refine State_addFld_keeps ?_
  assumption
  assumption
  assumption
  refine Ends.upd ?_
  assumption

theorem State_openSegment_keeps {s0 s : State} {k : Nat} {src : Option Nat} {t : State} {d : SegDesc} (e : s.openSegment k src = some (t, d)) (h : Ok s0 s) : Ok s0 t := by
  by_cases hl : (s.pickBlocks false (s.newWidth src + 2) []).length < 6 ∨ (k = 0 ∧ s.openMax ≤ s.openData) ∨ (src.isSome ∧ 2 ≤ s.ftl.level)
  · have e2 : s.openSegment k src = none := if_pos hl
    exact absurd (e2.symm.trans e) (by simp)
  · have e2 : s.openSegment k src = some _ := if_neg hl
    have e3 : _ = t := congrArg Prod.fst (Option.some.inj (e2.symm.trans e))
    subst e3
    exact State_log_keeps (Ends.upd (State_setSeg_keeps (Ends.upd (State_takeBlocks_keeps h))))

theorem State_programUnit_keeps {s0 : State} {s : State} {a1 : SegDesc} {a2 : ℕ} {a3 : List (Bytes × List ℕ × List (ℕ × DirEnt))} {a4 : ℕ} (h : Ok s0 s) : Ok s0 (State.programUnit s a1 a2 a3 a4) := by
  unfold State.programUnit
  (extract_lets +onlyGivenNames x; clear_value x)
  (extract_lets +onlyGivenNames x; clear_value x)
  (extract_lets +onlyGivenNames x; clear_value x)
  (extract_lets +onlyGivenNames x; clear_value x)
  (extract_lets +onlyGivenNames x; subst x)
  (extract_lets +onlyGivenNames x; refine Ends.cut (x := x) (s := s0) ?_ (fun _ => ?_) <;> [subst x; clear_value x])
  refine Ends.upd ?_
  assumption
  (extract_lets +onlyGivenNames x; clear_value x)
  (extract_lets +onlyGivenNames x; clear_value x)
  refine Ends.fold ?_ (fun _ _ _ => ?_)
  assumption
  (extract_lets +onlyGivenNames x; clear_value x)
  split
  refine State_issue_keeps ?_
  assumption
  assumption

theorem State_endStripe_keeps {s0 : State} {s : State} {a1 : OpenSeg} {a2 : Bool} (h : Ok s0 s) : Ok s0 (State.endStripe s a1 a2) := by
  unfold State.endStripe
  split
  assumption
  (extract_lets +onlyGivenNames x; clear_value x)
  (extract_lets +onlyGivenNames x; clear_value x)
  (extract_lets +onlyGivenNames x; subst x; beta_reduce)
  (extract_lets +onlyGivenNames x; clear_value x)
  refine Ends.ite ?_ ?_
  assumption
  refine Ends.ite ?_ ?_
  refine Ends.upd ?_
  assumption
  (extract_lets +onlyGivenNames x; clear_value x)
  (extract_lets +onlyGivenNames x; clear_value x)
  (extract_lets +onlyGivenNames x; subst x)
  (extract_lets +onlyGivenNames x; refine Ends.cut (x := x) (s := s0) ?_ (fun _ => ?_) <;> [subst x; clear_value x])
  refine Ends.upd ?_
  refine State_setSeg_keeps ?_
  assumption
  (extract_lets +onlyGivenNames x; refine Ends.cut (x := x) (s := s0) ?_ (fun _ => ?_) <;> [subst x; clear_value x])
  refine State_programUnit_keeps ?_
  assumption
  refine Ends.ite ?_ ?_
  refine State_sealSegment_keeps ?_
  assumption
  assumption

theorem State_placeBytes_keeps {s0 s : State} {kind : Nat} {src : Option Nat} {cap : Nat} {bytes : Bytes} {note : OpenSeg → Nat → OpenSeg} {fuel : Nat} {t : State} {a : Nat} (e : s.placeBytes kind src cap bytes note fuel = some (t, a)) (h : Ok s0 s) : Ok s0 t := by
  induction fuel generalizing s with
  | zero => rw [State.placeBytes.eq_1] at e; cases e
  | succ n ih =>
    rw [State.placeBytes.eq_2] at e
    split at e
    · split at e
      · exact ih e (State_openSegment_keeps (by assumption) h)
      · cases e
    · split at e
      · cases e
      · split at e
        · exact ih e (State_endStripe_keeps h)
        · have e3 := congrArg Prod.fst (Option.some.inj e)
          subst e3
          refine Ends.ite (State_endStripe_keeps (Ends.upd h)) (Ends.upd h)

theorem State_writePage_keeps {s0 : State} {s : State} {a1 : ℕ} (h : Ok s0 s) : Ok s0 (State.writePage s a1) := by
  unfold State.writePage
  (extract_lets +onlyGivenNames x; clear_value x)
  (extract_lets +onlyGivenNames x; clear_value x)
  (extract_lets +onlyGivenNames x; clear_value x)
  split
  (extract_lets +onlyGivenNames x; clear_value x)
  refine Ends.upd ?_
  refine State_placeBytes_keeps (by assumption) ?_
  assumption
  assumption

theorem State_takeWay_keeps {s0 : State} {s : State} {a1 : ℕ} (h : Ok s0 s) : Ends (fun p : State × Option ℕ => Keeps s0 p.1) (State.takeWay s a1) := by
  unfold State.takeWay
  (extract_lets +onlyGivenNames x; clear_value x)
  split
  refine Ends.fst ?_
  assumption
  (extract_lets +onlyGivenNames x; clear_value x)
  split
  refine Ends.fst ?_
  refine State_dropLine_keeps ?_
  assumption
  split
  refine Ends.fst ?_
  refine Ends.ite ?_ ?_
  assumption
  refine State_writePage_keeps ?_
  assumption
  refine Ends.fst ?_
  assumption

theorem State_enterLine_keeps {s0 : State} {s : State} {a1 : ℕ} {a2 : ℕ} {a3 : Line → Line} (h : Ok s0 s) : Ends (fun p : State × Bool => Keeps s0 p.1) (State.enterLine s a1 a2 a3) := by
  unfold State.enterLine
  split
  refine Ends.fst ?_
  refine Ends.ofL (by assumption) ?_
  refine State_takeWay_keeps ?_
  assumption
  (extract_lets +onlyGivenNames x; clear_value x)
  (extract_lets +onlyGivenNames x; clear_value x)
  (extract_lets +onlyGivenNames x; refine Ends.cut (x := x) (s := s0) ?_ (fun _ => ?_) <;> [subst x; clear_value x])
  refine State_setLine_keeps ?_
  refine Ends.ofL (by assumption) ?_
  refine State_takeWay_keeps ?_
  assumption
  split
  refine Ends.fst ?_
  assumption
  (extract_lets +onlyGivenNames x; subst x)
  (extract_lets +onlyGivenNames x; refine Ends.cut (x := x) (s := s0) ?_ (fun _ => ?_) <;> [subst x; clear_value x])
  refine Ends.upd ?_
  assumption
  split
  refine Ends.fst ?_
  refine State_requestCw_keeps ?_
  assumption
  refine Ends.fst ?_
  refine Ends.upd ?_
  assumption

theorem State_firstEnter_keeps {s0 : State} {s : State} {a1 : ℕ} {a2 : ℕ} {a3 : Bool} {a4 : Line → Line} (h : Ok s0 s) : Ends (fun p : State × Bool => Keeps s0 p.1) (State.firstEnter s a1 a2 a3 a4) := by
  unfold State.firstEnter
  (extract_lets +onlyGivenNames x; clear_value x)
  (extract_lets +onlyGivenNames x; clear_value x)
  refine Ends.ite ?_ ?_
  refine Ends.fst ?_
  refine State_awaitWay_keeps ?_
  assumption
  (extract_lets +onlyGivenNames x; clear_value x)
  (extract_lets +onlyGivenNames x; refine Ends.cut (x := x) (s := s0) ?_ (fun _ => ?_) <;> [subst x; clear_value x])
  refine Ends.ite ?_ ?_
  refine State_addFld_keeps ?_
  assumption
  assumption
  split
  refine Ends.fst ?_
  refine Ends.ofL (by assumption) ?_
  refine State_enterLine_keeps ?_
  assumption
  refine Ends.fst ?_
  refine State_awaitWay_keeps ?_
  refine Ends.ofL (by assumption) ?_
  refine State_enterLine_keeps ?_
  assumption

theorem State_rewriteMeta_keeps {s0 : State} {s : State} {a1 : ℕ} (h : Ok s0 s) : Ok s0 (State.rewriteMeta s a1) := by
  unfold State.rewriteMeta
  split
  refine Ends.ite ?_ ?_
  assumption
  refine Ends.fold ?_ (fun _ _ _ => ?_)
  assumption
  refine Ends.ite ?_ ?_
  refine Ends.ite ?_ ?_
  assumption
  refine Ends.projL ?_
  refine State_firstEnter_keeps ?_
  assumption
  refine Ends.ite ?_ ?_
  refine State_writePage_keeps ?_
  assumption
  assumption
  assumption

theorem State_reclaimSeg_keeps {s0 : State} {s : State} {a1 : ℕ} (h : Ok s0 s) : Ok s0 (State.reclaimSeg s a1) := by
  unfold State.reclaimSeg
  split
  (extract_lets +onlyGivenNames x; subst x)
  (extract_lets +onlyGivenNames x; subst x)
  (extract_lets +onlyGivenNames x; refine Ends.cut (x := x) (s := s0) ?_ (fun _ => ?_) <;> [subst x; clear_value x])
  refine Ends.upd ?_
  assumption
  (extract_lets +onlyGivenNames x; refine Ends.cut (x := x) (s := s0) ?_ (fun _ => ?_) <;> [subst x; clear_value x])
  refine Ends.ite ?_ ?_
  assumption
  refine Ends.projL ?_
  refine State_logTxn_keeps ?_
  assumption
  (extract_lets +onlyGivenNames x; clear_value x)
  refine State_log_keeps ?_
  refine State_setSeg_keeps ?_
  assumption
  assumption

theorem State_sjRegs_keeps {s0 : State} {s : State} (h : Ok s0 s) : Ok s0 (State.sjRegs s) := by
  unfold State.sjRegs
  (extract_lets +onlyGivenNames x; refine Ends.cut (x := x) (s := s0) ?_ (fun _ => ?_) <;> [subst x; clear_value x])
  refine State_setFld_keeps ?_
  assumption
  refine State_setFld_keeps ?_
  assumption

theorem State_eraseBlock_keeps {s0 : State} {s : State} {a1 : ℕ} {a2 : ℕ} (h : Ok s0 s) : Ok s0 (State.eraseBlock s a1 a2) := by
  unfold State.eraseBlock
  refine Ends.ite ?_ ?_
  assumption
  (extract_lets +onlyGivenNames x; subst x)
  (extract_lets +onlyGivenNames x; refine Ends.cut (x := x) (s := s0) ?_ (fun _ => ?_) <;> [subst x; clear_value x])
  refine Ends.upd ?_
  assumption
  refine Ends.ite ?_ ?_
  refine State_issue_keeps ?_
  assumption
  assumption

theorem State_sjOpen_keeps {s0 : State} {s : State} (h : Ok s0 s) : Ok s0 (State.sjOpen s) := by
  unfold State.sjOpen
  split
  (extract_lets +onlyGivenNames x; clear_value x)
  (extract_lets +onlyGivenNames x; refine Ends.cut (x := x) (s := s0) ?_ (fun _ => ?_) <;> [subst x; clear_value x])
  refine State_takeBlocks_keeps ?_
  assumption
  (extract_lets +onlyGivenNames x; subst x)
  (extract_lets +onlyGivenNames x; refine Ends.cut (x := x) (s := s0) ?_ (fun _ => ?_) <;> [subst x; clear_value x])
  refine Ends.upd ?_
  assumption
  (extract_lets +onlyGivenNames x; refine Ends.cut (x := x) (s := s0) ?_ (fun _ => ?_) <;> [subst x; clear_value x])
  refine State_sjRegs_keeps ?_
  refine State_log_keeps ?_
  refine State_log_keeps ?_
  assumption
  (extract_lets +onlyGivenNames x; subst x)
  (extract_lets +onlyGivenNames x; refine Ends.cut (x := x) (s := s0) ?_ (fun _ => ?_) <;> [subst x; clear_value x])
  refine Ends.ite ?_ ?_
  assumption
  refine Ends.upd ?_
  assumption
  refine Ends.fold ?_ (fun _ _ _ => ?_)
  assumption
  refine State_eraseBlock_keeps ?_
  refine State_log_keeps ?_
  assumption
  assumption

theorem State_sjSend_keeps {s0 : State} {s : State} {a1 : ℕ} {a2 : ℕ} {a3 : Option ℕ} {a4 : List SjEnt} (h : Ok s0 s) : Ok s0 (State.sjSend s a1 a2 a3 a4) := by
  unfold State.sjSend
  split
  assumption
  (extract_lets +onlyGivenNames x; clear_value x)
  refine State_issue_keeps ?_
  assumption

theorem State_sjProgram_keeps {s0 : State} {s : State} (h : Ok s0 s) : Ok s0 (State.sjProgram s) := by
  unfold State.sjProgram
  refine Ends.ite ?_ ?_
  assumption
  (extract_lets +onlyGivenNames x; clear_value x)
  (extract_lets +onlyGivenNames x; clear_value x)
  (extract_lets +onlyGivenNames x; refine Ends.cut (x := x) (s := s0) ?_ (fun _ => ?_) <;> [subst x; clear_value x])
  refine Ends.ite ?_ ?_
  refine State_sjOpen_keeps ?_
  assumption
  assumption
  refine Ends.ite ?_ ?_
  assumption
  (extract_lets +onlyGivenNames x; clear_value x)
  (extract_lets +onlyGivenNames x; clear_value x)
  (extract_lets +onlyGivenNames x; subst x)
  (extract_lets +onlyGivenNames x; refine Ends.cut (x := x) (s := s0) ?_ (fun _ => ?_) <;> [subst x; clear_value x])
  refine Ends.upd ?_
  assumption
  refine State_sjSend_keeps ?_
  refine State_sjSend_keeps ?_
  assumption

theorem State_sjAppend_keeps {s0 : State} {s : State} {a1 : Nat} {a2 : Nat} {a3 : Nat} {a4 : Nat} {a5 : Nat} {a6 : Nat} (h : Ok s0 s) : Ok s0 (State.sjAppend s a1 a2 a3 a4 a5 a6) := by
  unfold State.sjAppend
  refine Ends.ite ?_ ?_
  (extract_lets +onlyGivenNames x; clear_value x)
  refine State_sjProgram_keeps ?_
  refine Ends.upd ?_
  assumption
  (extract_lets +onlyGivenNames x; clear_value x)
  refine Ends.upd ?_
  assumption

theorem State_sealReserved_keeps {s0 : State} {s : State} {a1 : Option ℕ} (h : Ok s0 s) : Ok s0 (State.sealReserved s a1) := by
  unfold State.sealReserved
  refine Ends.fold ?_ (fun _ _ _ => ?_)
  assumption
  (extract_lets +onlyGivenNames x; refine Ends.cut (x := x) (s := s0) ?_ (fun _ => ?_) <;> [subst x; clear_value x])
  refine State_endStripe_keeps ?_
  assumption
  split
  refine Ends.ite ?_ ?_
  refine State_sealSegment_keeps ?_
  assumption
  assumption
  assumption

theorem State_switched_keeps {s0 : State} {s : State} {a1 : Reshape} {a2 : ℕ} {a3 : ℕ} (h : Ok s0 s) : Ok s0 (State.switched s a1 a2 a3) := by
  unfold State.switched
  (extract_lets +onlyGivenNames x; subst x; beta_reduce)
  refine Ends.ite ?_ ?_
  refine State_sjAppend_keeps ?_
  refine State_sealReserved_keeps ?_
  refine Ends.upd ?_
  refine State_reclaimSeg_keeps ?_
  assumption
  split
  (extract_lets +onlyGivenNames x; clear_value x)
  (extract_lets +onlyGivenNames x; refine Ends.cut (x := x) (s := s0) ?_ (fun _ => ?_) <;> [subst x; clear_value x])
  refine State_sjAppend_keeps ?_
  assumption
  (extract_lets +onlyGivenNames x; subst x)
  (extract_lets +onlyGivenNames x; refine Ends.cut (x := x) (s := s0) ?_ (fun _ => ?_) <;> [subst x; clear_value x])
  refine Ends.upd ?_
  assumption
  refine Ends.ite ?_ ?_
  refine State_reclaimSeg_keeps ?_
  assumption
  (extract_lets +onlyGivenNames x; subst x)
  (extract_lets +onlyGivenNames x; refine Ends.cut (x := x) (s := s0) ?_ (fun _ => ?_) <;> [subst x; clear_value x])
  refine Ends.upd ?_
  assumption
  refine Ends.ite ?_ ?_
  assumption
  refine Ends.projL ?_
  refine State_logTxn_keeps ?_
  assumption
  assumption

theorem State_checkScan_keeps {s0 : State} {s : State} {a1 : ℕ} (h : Ok s0 s) : Ok s0 (State.checkScan s a1) := by
  unfold State.checkScan
  split
  assumption
  (extract_lets +onlyGivenNames x; clear_value x)
  refine Ends.ite ?_ ?_
  assumption
  refine Ends.ite ?_ ?_
  refine Ends.ite ?_ ?_
  refine State_reclaimSeg_keeps ?_
  assumption
  assumption
  split
  assumption
  refine Ends.ite ?_ ?_
  assumption
  refine Ends.ite ?_ ?_
  refine State_switched_keeps ?_
  assumption
  (extract_lets +onlyGivenNames x; clear_value x)
  refine Ends.ite ?_ ?_
  assumption
  (extract_lets +onlyGivenNames x; clear_value x)
  (extract_lets +onlyGivenNames x; subst x)
  (extract_lets +onlyGivenNames x; refine Ends.cut (x := x) (s := s0) ?_ (fun _ => ?_) <;> [subst x; clear_value x])
  refine Ends.upd ?_
  assumption
  (extract_lets +onlyGivenNames x; clear_value x)
  (extract_lets +onlyGivenNames x; refine Ends.cut (x := x) (s := s0) ?_ (fun _ => ?_) <;> [subst x; clear_value x])
  refine Ends.fold ?_ (fun _ _ _ => ?_)
  assumption
  (extract_lets +onlyGivenNames x; clear_value x)
  refine State_logRec_keeps ?_
  assumption
  (extract_lets +onlyGivenNames x; subst x)
  (extract_lets +onlyGivenNames x; refine Ends.cut (x := x) (s := s0) ?_ (fun _ => ?_) <;> [subst x; clear_value x])
  refine Ends.upd ?_
  assumption
  refine Ends.upd ?_
  assumption

theorem State_readStripe_keeps {s0 : State} {s : State} {a1 : ℕ} (h : Ok s0 s) : Ok s0 (State.readStripe s a1) := by
  unfold State.readStripe
  split
  refine Ends.ite ?_ ?_
  assumption
  (extract_lets +onlyGivenNames x; clear_value x)
  (extract_lets +onlyGivenNames x; refine Ends.cut (x := x) (s := s0) ?_ (fun _ => ?_) <;> [subst x; clear_value x])
  refine State_setScan_keeps ?_
  assumption
  refine Ends.fold ?_ (fun _ _ _ => ?_)
  assumption
  refine State_requestCw_keeps ?_
  assumption
  assumption

theorem State_beginScan_keeps {s0 : State} {s : State} {a1 : ℕ} {a2 : ℕ} {a3 : ℕ} {a4 : ℕ} {a5 : ℕ} (h : Ok s0 s) : Ok s0 (State.beginScan s a1 a2 a3 a4 a5) := by
  unfold State.beginScan
  (extract_lets +onlyGivenNames x; clear_value x)
  (extract_lets +onlyGivenNames x; refine Ends.cut (x := x) (s := s0) ?_ (fun _ => ?_) <;> [subst x; clear_value x])
  refine State_setScan_keeps ?_
  assumption
  refine Ends.ite ?_ ?_
  refine State_checkScan_keeps ?_
  assumption
  refine State_readStripe_keeps ?_
  assumption

theorem State_collect_keeps {s0 : State} {s : State} {a1 : ℕ} {a2 : ℕ} (h : Ok s0 s) : Ok s0 (State.collect s a1 a2) := by
  unfold State.collect
  split
  assumption
  refine Ends.ite ?_ ?_
  assumption
  (extract_lets +onlyGivenNames x; clear_value x)
  refine State_rewriteMeta_keeps ?_
  refine State_beginScan_keeps ?_
  refine State_log_keeps ?_
  refine State_setSeg_keeps ?_
  assumption

theorem State_resumeReshape_keeps {s0 : State} {s : State} {a1 : List SjEnt} (h : Ok s0 s) : Ok s0 (State.resumeReshape s a1) := by
  unfold State.resumeReshape
  refine Ends.ite ?_ ?_
  assumption
  (extract_lets +onlyGivenNames x; clear_value x)
  split
  assumption
  (extract_lets +onlyGivenNames x; clear_value x)
  (extract_lets +onlyGivenNames x; clear_value x)
  (extract_lets +onlyGivenNames x; clear_value x)
  (extract_lets +onlyGivenNames x; clear_value x)
  (extract_lets +onlyGivenNames x; subst x)
  (extract_lets +onlyGivenNames x; refine Ends.cut (x := x) (s := s0) ?_ (fun _ => ?_) <;> [subst x; clear_value x])
  refine State_setFlag_keeps ?_
  refine Ends.upd ?_
  assumption
  refine Ends.fold ?_ (fun _ _ _ => ?_)
  assumption
  refine State_collect_keeps ?_
  assumption

theorem State_setRebuild_keeps {s0 : State} {s : State} {a1 : Option Rebuild} (h : Ok s0 s) : Ok s0 (State.setRebuild s a1) := by
  unfold State.setRebuild
  refine Ends.upd ?_
  assumption

theorem State_resumeRebuild_keeps {s0 : State} {s : State} {a1 : List SjEnt} (h : Ok s0 s) : Ok s0 (State.resumeRebuild s a1) := by
  unfold State.resumeRebuild
  (extract_lets +onlyGivenNames x; clear_value x)
  (extract_lets +onlyGivenNames x; subst x)
  (extract_lets +onlyGivenNames x; refine Ends.cut (x := x) (s := s0) ?_ (fun _ => ?_) <;> [subst x; clear_value x])
  refine Ends.upd ?_
  assumption
  (extract_lets +onlyGivenNames x; clear_value x)
  refine Ends.ite ?_ ?_
  assumption
  split
  assumption
  split
  (extract_lets +onlyGivenNames x; clear_value x)
  (extract_lets +onlyGivenNames x; refine Ends.cut (x := x) (s := s0) ?_ (fun _ => ?_) <;> [subst x; clear_value x])
  refine State_setRebuild_keeps ?_
  assumption
  split
  refine State_requestCw_keeps ?_
  assumption
  assumption
  assumption

theorem State_sealCkptSeg_keeps {s0 : State} {s : State} (h : Ok s0 s) : Ok s0 (State.sealCkptSeg s) := by
  unfold State.sealCkptSeg
  split
  (extract_lets +onlyGivenNames x; refine Ends.cut (x := x) (s := s0) ?_ (fun _ => ?_) <;> [subst x; clear_value x])
  refine State_endStripe_keeps ?_
  assumption
  split
  refine Ends.ite ?_ ?_
  refine State_sealSegment_keeps ?_
  assumption
  assumption
  assumption
  assumption

theorem State_placeCkptPages_keeps {s0 s : State} {l : List (Nat × Bytes)} {t : State} (e : s.placeCkptPages l = some t) (h : Ok s0 s) :
    Ok s0 t := by
  unfold State.placeCkptPages at e
  suffices k : ∀ (l : List (Nat × Bytes)) (o : Option State), (∀ u, o = some u → Ok s0 u) → ∀ t, l.foldl (fun (o : Option State) ip => o.bind fun s =>
      let ent := fun (a : Nat) => ({ maddr := a, crc := (crc32c (padTo 4096 ip.2)).toNat, lsn0 := 0, lsn1 := 0 } : DirEnt)
      (s.placeBytes 2 none 4096 (padTo 4096 ip.2) (fun o a => { o with pages := o.pages ++ [(ip.1, ent a)] }) 4).map Prod.fst) o = some t → Ok s0 t from
    k l (some s) (fun u hu => by cases hu; exact h) t e
  intro l
  induction l with
  | nil => intro o ho t e; exact ho t e
  | cons a l ih =>
    intro o ho t e
    refine ih _ ?_ t e
    intro u hu
    obtain ⟨v, hv, hw⟩ := Option.bind_eq_some_iff.1 hu
    obtain ⟨⟨w, y⟩, h1, h2⟩ := Option.map_eq_some_iff.1 hw
    cases h2
    exact State_placeBytes_keeps h1 (ho v hv)

theorem State_endCkptStripe_keeps {s0 : State} {s : State} (h : Ok s0 s) : Ok s0 (State.endCkptStripe s) := by
  unfold State.endCkptStripe
  split
  refine State_endStripe_keeps ?_
  assumption
  assumption

theorem State_startCkpt_keeps {s0 : State} {s : State} (h : Ok s0 s) : Ok s0 (State.startCkpt s) := by
  unfold State.startCkpt
  refine Ends.ite ?_ ?_
  assumption
  (extract_lets +onlyGivenNames x; refine Ends.cut (x := x) (s := s0) ?_ (fun _ => ?_) <;> [subst x; clear_value x])
  refine State_log_keeps ?_
  assumption
  (extract_lets +onlyGivenNames x; refine Ends.cut (x := x) (s := s0) ?_ (fun _ => ?_) <;> [subst x; clear_value x])
  refine State_sealCkptSeg_keeps ?_
  assumption
  (extract_lets +onlyGivenNames x; clear_value x)
  (extract_lets +onlyGivenNames x; clear_value x)
  split
  assumption
  (extract_lets +onlyGivenNames x; clear_value x)
  refine State_endCkptStripe_keeps ?_
  refine State_setFlag_keeps ?_
  refine Ends.upd ?_
  refine State_placeCkptPages_keeps (by assumption) ?_
  assumption

theorem State_csaDeleteMatch_keeps {s0 : State} {s : State} {a1 : ℕ} {a2 : CsaPart} {a3 : ℕ} (h : Ok s0 s) : Ok s0 (State.csaDeleteMatch s a1 a2 a3) := by
  unfold State.csaDeleteMatch
  (extract_lets +onlyGivenNames x; clear_value x)
  refine State_setCsa_keeps ?_
  assumption

theorem State_filterDelete_keeps {s0 : State} {s : State} {a1 : ℕ} {a2 : Bytes} (h : Ok s0 s) : Ok s0 (State.filterDelete s a1 a2) := by
  unfold State.filterDelete
  (extract_lets +onlyGivenNames x; clear_value x)
  (extract_lets +onlyGivenNames x; clear_value x)
  split
  refine State_csaDeleteMatch_keeps ?_
  assumption
  assumption

theorem State_resumeFrees_keeps {s0 : State} {s : State} {a1 : List LogRec} (h : Ok s0 s) : Ok s0 (State.resumeFrees s a1) := by
  unfold State.resumeFrees
  (extract_lets +onlyGivenNames x; clear_value x)
  refine Ends.fold ?_ (fun _ _ _ => ?_)
  assumption
  (extract_lets +onlyGivenNames x; clear_value x)
  (extract_lets +onlyGivenNames x; refine Ends.cut (x := x) (s := s0) ?_ (fun _ => ?_) <;> [subst x; clear_value x])
  refine Ends.fold ?_ (fun _ _ _ => ?_)
  refine State_log_keeps ?_
  assumption
  refine State_filterDelete_keeps ?_
  assumption
  (extract_lets +onlyGivenNames x; refine Ends.cut (x := x) (s := s0) ?_ (fun _ => ?_) <;> [subst x; clear_value x])
  refine Ends.ite ?_ ?_
  assumption
  refine Ends.projL ?_
  refine State_logTxn_keeps ?_
  assumption
  (extract_lets +onlyGivenNames x; clear_value x)
  refine Ends.upd ?_
  assumption

theorem State_resumeWork_keeps {s0 : State} {s : State} {a1 : List LogRec} (h : Ok s0 s) : Ok s0 (State.resumeWork s a1) := by
  unfold State.resumeWork
  (extract_lets +onlyGivenNames x; refine Ends.cut (x := x) (s := s0) ?_ (fun _ => ?_) <;> [subst x; clear_value x])
  refine State_resumeFrees_keeps ?_
  assumption
  refine Ends.fold ?_ (fun _ _ _ => ?_)
  assumption
  refine State_rewriteMeta_keeps ?_
  refine State_beginScan_keeps ?_
  assumption

theorem State_adoptMedia_keeps {s0 : State} {s : State} {a1 : MediaImage} (h : Ok s0 s) : Ok s0 (State.adoptMedia s a1) := by
  unfold State.adoptMedia
  (extract_lets +onlyGivenNames x; clear_value x)
  (extract_lets +onlyGivenNames x; subst x)
  (extract_lets +onlyGivenNames x; refine Ends.cut (x := x) (s := s0) ?_ (fun _ => ?_) <;> [subst x; clear_value x])
  refine Ends.upd ?_
  assumption
  (extract_lets +onlyGivenNames x; refine Ends.cut (x := x) (s := s0) ?_ (fun _ => ?_) <;> [subst x; clear_value x])
  refine State_sealOpens_keeps ?_
  assumption
  (extract_lets +onlyGivenNames x; clear_value x)
  (extract_lets +onlyGivenNames x; refine Ends.cut (x := x) (s := s0) ?_ (fun _ => ?_) <;> [subst x; clear_value x])
  refine State_resumeReshape_keeps ?_
  refine State_resumeRebuild_keeps ?_
  assumption
  (extract_lets +onlyGivenNames x; clear_value x)
  (extract_lets +onlyGivenNames x; clear_value x)
  (extract_lets +onlyGivenNames x; subst x)
  (extract_lets +onlyGivenNames x; refine Ends.cut (x := x) (s := s0) ?_ (fun _ => ?_) <;> [subst x; clear_value x])
  refine Ends.upd ?_
  assumption
  refine State_startCkpt_keeps ?_
  refine State_updateFree_keeps ?_
  refine State_resumeWork_keeps ?_
  assumption

theorem State_heldWrite_keeps {s0 : State} {s : State} {a1 : ℕ} {a2 : ℕ} {a3 : ℕ} {a4 : Word} (h : Ok s0 s) : Ok s0 (State.heldWrite s a1 a2 a3 a4) := by
  unfold State.heldWrite
  split
  refine State_setShadow_keeps ?_
  assumption
  assumption

theorem State_finishCopy_keeps {s0 : State} {s : State} {a1 : ℕ} {a2 : ℕ} (h : Ok s0 s) : Ok s0 (State.finishCopy s a1 a2) := by
  unfold State.finishCopy
  split
  assumption
  (extract_lets +onlyGivenNames x; refine Ends.cut (x := x) (s := s0) ?_ (fun _ => ?_) <;> [subst x; clear_value x])
  refine Ends.upd ?_
  assumption
  (extract_lets +onlyGivenNames x; refine Ends.cut (x := x) (s := s0) ?_ (fun _ => ?_) <;> [subst x; clear_value x])
  refine State_setFlag_keeps ?_
  assumption
  (extract_lets +onlyGivenNames x; clear_value x)
  (extract_lets +onlyGivenNames x; refine Ends.cut (x := x) (s := s0) ?_ (fun _ => ?_) <;> [subst x; clear_value x])
  refine Ends.upd ?_
  assumption
  refine Ends.fold ?_ (fun _ _ _ => ?_)
  assumption
  refine State_heldWrite_keeps ?_
  assumption

theorem State_setOwners_keeps {s0 : State} {s : State} {a1 : ℕ → ℕ} (h : Ok s0 s) : Ok s0 (State.setOwners s a1) := by
  unfold State.setOwners
  refine Ends.fold ?_ (fun _ _ _ => ?_)
  assumption
  (extract_lets +onlyGivenNames x; clear_value x)
  (extract_lets +onlyGivenNames x; clear_value x)
  refine State_setShadow_keeps ?_
  refine State_setActive_keeps ?_
  assumption

theorem State_adoptShards_keeps {s0 : State} {s : State} (h : Ok s0 s) : Ok s0 (State.adoptShards s) := by
  unfold State.adoptShards
  (extract_lets +onlyGivenNames x; refine Ends.cut (x := x) (s := s0) ?_ (fun _ => ?_) <;> [subst x; clear_value x])
  refine State_finishCopy_keeps ?_
  assumption
  (extract_lets +onlyGivenNames x; clear_value x)
  (extract_lets +onlyGivenNames x; refine Ends.cut (x := x) (s := s0) ?_ (fun _ => ?_) <;> [subst x; clear_value x])
  refine State_addFld_keeps ?_
  refine State_setOwners_keeps ?_
  assumption
  refine Ends.fold ?_ (fun _ _ _ => ?_)
  assumption
  (extract_lets +onlyGivenNames x; clear_value x)
  refine State_log_keeps ?_
  refine Ends.upd ?_
  assumption

theorem State_rebuildLocks_keeps {s0 : State} {s : State} {a1 : List Cmd} (h : Ok s0 s) : Ok s0 (State.rebuildLocks s a1) := by
  unfold State.rebuildLocks
  (extract_lets +onlyGivenNames x; clear_value x)
  (extract_lets +onlyGivenNames x; clear_value x)
  (extract_lets +onlyGivenNames x; clear_value x)
  (extract_lets +onlyGivenNames x; refine Ends.cut (x := x) (s := s0) ?_ (fun _ => ?_) <;> [subst x; clear_value x])
  refine Ends.fold ?_ (fun _ _ _ => ?_)
  assumption
  refine Ends.ite ?_ ?_
  assumption
  refine State_setCmd_keeps ?_
  assumption
  (extract_lets +onlyGivenNames x; clear_value x)
  (extract_lets +onlyGivenNames x; clear_value x)
  refine State_setLocks_keeps ?_
  assumption

theorem State_announceAddrs_keeps {s0 : State} {s : State} {a1 : List ℕ} (h : Ok s0 s) : Ok s0 (State.announceAddrs s a1) := by
  unfold State.announceAddrs
  refine Ends.fold ?_ (fun _ _ _ => ?_)
  assumption
  refine Ends.fold ?_ (fun _ _ _ => ?_)
  assumption
  refine State_emit_keeps ?_
  refine State_queueFrame_keeps ?_
  assumption

theorem State_setAdopted_keeps {s0 : State} {s : State} {a1 : List ℕ} {a2 : Bool} (h : Ok s0 s) : Ok s0 (State.setAdopted s a1 a2) := by
  unfold State.setAdopted
  refine Ends.fold ?_ (fun _ _ _ => ?_)
  assumption
  (extract_lets +onlyGivenNames x; clear_value x)
  (extract_lets +onlyGivenNames x; refine Ends.cut (x := x) (s := s0) ?_ (fun _ => ?_) <;> [subst x; clear_value x])
  refine Ends.fold ?_ (fun _ _ _ => ?_)
  assumption
  (extract_lets +onlyGivenNames x; clear_value x)
  (extract_lets +onlyGivenNames x; clear_value x)
  refine State_setShadow_keeps ?_
  refine State_setActive_keeps ?_
  assumption
  refine State_addFld_keeps ?_
  assumption

theorem State_preemptAll_keeps {s0 : State} {s : State} (h : Ok s0 s) : Ok s0 (State.preemptAll s) := by
  unfold State.preemptAll
  refine Ends.fold ?_ (fun _ _ _ => ?_)
  assumption
  refine State_preempt_keeps ?_
  assumption

theorem State_grantRebuilt_keeps {s0 : State} {s : State} (h : Ok s0 s) : Ok s0 (State.grantRebuilt s) := by
  unfold State.grantRebuilt
  (extract_lets +onlyGivenNames x; refine Ends.cut (x := x) (s := s0) ?_ (fun _ => ?_) <;> [subst x; clear_value x])
  refine State_preemptAll_keeps ?_
  refine State_enterWaiters_keeps ?_
  assumption
  refine State_countLocks_keeps ?_
  refine Ends.fold ?_ (fun _ _ _ => ?_)
  assumption
  refine Ends.ite ?_ ?_
  refine State_grantLock_keeps ?_
  assumption
  assumption

theorem State_sendNak_keeps {s0 : State} {s : State} {a1 : Qp} {a2 : Out} (h : Ok s0 s) : Ok s0 (State.sendNak s a1 a2) := by
  unfold State.sendNak
  refine State_sendBare_keeps ?_
  refine State_addFld_keeps ?_
  assumption

theorem State_greetQp_keeps {s0 : State} {s : State} {a1 : ℕ} (h : Ok s0 s) : Ok s0 (State.greetQp s a1) := by
  unfold State.greetQp
  split
  assumption
  refine Ends.ite ?_ ?_
  assumption
  (extract_lets +onlyGivenNames x; refine Ends.cut (x := x) (s := s0) ?_ (fun _ => ?_) <;> [subst x; clear_value x])
  refine State_sendNak_keeps ?_
  assumption
  refine Ends.ite ?_ ?_
  assumption
  refine State_sendPkt_keeps ?_
  refine State_setQp_keeps ?_
  assumption

theorem State_adopt_keeps {s0 : State} {s : State} {a1 : ℕ} {a2 : MediaImage} (h : Ok s0 s) : Ok s0 (State.adopt s a1 a2) := by
  unfold State.adopt
  (extract_lets +onlyGivenNames x; clear_value x)
  (extract_lets +onlyGivenNames x; refine Ends.cut (x := x) (s := s0) ?_ (fun _ => ?_) <;> [subst x; clear_value x])
  refine State_adoptJournal_keeps ?_
  assumption
  split
  (extract_lets +onlyGivenNames x; refine Ends.cut (x := x) (s := s0) ?_ (fun _ => ?_) <;> [subst x; clear_value x])
  refine State_holdAdopted_keeps ?_
  refine State_adoptMedia_keeps ?_
  refine State_adoptShards_keeps ?_
  refine State_rebuildLocks_keeps ?_
  refine Ends.ofR (by assumption) ?_
  refine State_adoptQps_keeps ?_
  assumption
  (extract_lets +onlyGivenNames x; refine Ends.cut (x := x) (s := s0) ?_ (fun _ => ?_) <;> [subst x; clear_value x])
  refine State_announceAddrs_keeps ?_
  refine State_setAdopted_keeps ?_
  assumption
  (extract_lets +onlyGivenNames x; refine Ends.cut (x := x) (s := s0) ?_ (fun _ => ?_) <;> [subst x; clear_value x])
  refine State_grantRebuilt_keeps ?_
  refine Ends.fold ?_ (fun _ _ _ => ?_)
  assumption
  refine State_greetQp_keeps ?_
  assumption
  (extract_lets +onlyGivenNames x; refine Ends.cut (x := x) (s := s0) ?_ (fun _ => ?_) <;> [subst x; clear_value x])
  refine State_setFld_keeps ?_
  assumption
  (extract_lets +onlyGivenNames x; subst x)
  (extract_lets +onlyGivenNames x; refine Ends.cut (x := x) (s := s0) ?_ (fun _ => ?_) <;> [subst x; clear_value x])
  refine Ends.upd ?_
  assumption
  refine State_setFlag_keeps ?_
  assumption

theorem State_advanceAll_keeps {s0 : State} {s : State} (h : Ok s0 s) : Ok s0 (State.advanceAll s) := by
  unfold State.advanceAll
  (extract_lets +onlyGivenNames x; clear_value x)
  refine Ends.fold ?_ (fun _ _ _ => ?_)
  assumption
  refine State_advance_keeps ?_
  assumption

theorem State_stepTime_keeps {s0 : State} {s : State} {a1 : ℤ} (h : Ok s0 s) : Ok s0 (State.stepTime s a1) := by
  unfold State.stepTime
  (extract_lets +onlyGivenNames x; clear_value x)
  refine Ends.upd ?_
  assumption

theorem State_alignTime_keeps {s0 : State} {s : State} (h : Ok s0 s) : Ok s0 (State.alignTime s) := by
  unfold State.alignTime
  (extract_lets +onlyGivenNames x; refine Ends.cut (x := x) (s := s0) ?_ (fun _ => ?_) <;> [subst x; clear_value x])
  refine State_stepTime_keeps ?_
  assumption
  refine Ends.upd ?_
  assumption

theorem State_alone_keeps {s0 : State} {s : State} (h : Ok s0 s) : Ok s0 (State.alone s) := by
  unfold State.alone
  (extract_lets +onlyGivenNames x; clear_value x)
  (extract_lets +onlyGivenNames x; clear_value x)
  (extract_lets +onlyGivenNames x; subst x)
  (extract_lets +onlyGivenNames x; subst x)
  (extract_lets +onlyGivenNames x; subst x)
  (extract_lets +onlyGivenNames x; subst x)
  (extract_lets +onlyGivenNames x; subst x)
  (extract_lets +onlyGivenNames x; refine Ends.cut (x := x) (s := s0) ?_ (fun _ => ?_) <;> [subst x; clear_value x])
  refine Ends.upd ?_
  assumption
  (extract_lets +onlyGivenNames x; refine Ends.cut (x := x) (s := s0) ?_ (fun _ => ?_) <;> [subst x; clear_value x])
  refine Ends.fold ?_ (fun _ _ _ => ?_)
  assumption
  refine State_startTx_keeps ?_
  assumption
  refine Ends.fold ?_ (fun _ _ _ => ?_)
  assumption
  split
  refine State_sendAck_keeps ?_
  assumption
  assumption

theorem State_sendMoves_keeps {s0 : State} {s : State} (h : Ok s0 s) : Ok s0 (State.sendMoves s) := by
  unfold State.sendMoves
  refine Ends.fold ?_ (fun _ _ _ => ?_)
  assumption
  refine Ends.ite ?_ ?_
  refine Ends.ite ?_ ?_
  assumption
  refine State_programLogPage_keeps ?_
  assumption
  (extract_lets +onlyGivenNames x; clear_value x)
  (extract_lets +onlyGivenNames x; refine Ends.cut (x := x) (s := s0) ?_ (fun _ => ?_) <;> [subst x; clear_value x])
  refine State_setLocks_keeps ?_
  assumption
  (extract_lets +onlyGivenNames x; subst x)
  (extract_lets +onlyGivenNames x; subst x)
  (extract_lets +onlyGivenNames x; refine Ends.cut (x := x) (s := s0) ?_ (fun _ => ?_) <;> [subst x; clear_value x])
  refine Ends.upd ?_
  assumption
  refine State_send_keeps ?_
  assumption

theorem State_stopDestage_keeps {s0 : State} {s : State} {a1 : ℕ} (h : Ok s0 s) : Ok s0 (State.stopDestage s a1) := by
  unfold State.stopDestage
  (extract_lets +onlyGivenNames x; clear_value x)
  (extract_lets +onlyGivenNames x; refine Ends.cut (x := x) (s := s0) ?_ (fun _ => ?_) <;> [subst x; clear_value x])
  refine Ends.fold ?_ (fun _ _ _ => ?_)
  assumption
  refine Ends.fold ?_ (fun _ _ _ => ?_)
  assumption
  split
  refine State_setJent_keeps ?_
  assumption
  assumption
  refine Ends.upd ?_
  assumption

theorem State_moveShards_keeps {s0 : State} {s : State} {a1 : List ℕ} (h : Ok s0 s) : Ok s0 (State.moveShards s a1) := by
  unfold State.moveShards
  refine Ends.fold ?_ (fun _ _ _ => ?_)
  assumption
  refine Ends.ite ?_ ?_
  (extract_lets +onlyGivenNames x; clear_value x)
  refine Ends.upd ?_
  assumption
  refine State_stopDestage_keeps ?_
  refine Ends.upd ?_
  assumption

theorem State_announceShards_keeps {s0 : State} {s : State} {s1 : State} (h : Ok s0 s) (h1 : Ok s0 s1) : Ok s0 (State.announceShards s s1) := by
  unfold State.announceShards
  refine Ends.ite ?_ ?_
  (extract_lets +onlyGivenNames x; refine Ends.cut (x := x) (s := s0) ?_ (fun _ => ?_) <;> [subst x; clear_value x])
  refine State_send_keeps ?_
  assumption
  refine State_sendMoves_keeps ?_
  refine State_moveShards_keeps ?_
  assumption
  assumption

theorem State_answerBare_keeps {s0 : State} {s : State} {a1 : ℕ} {a2 : ℕ} {a3 : ℕ} {a4 : ℕ} {a5 : Status} {a6 : ℕ} (h : Ok s0 s) : Ok s0 (State.answerBare s a1 a2 a3 a4 a5 a6) := by
  unfold State.answerBare
  refine State_sendQp_keeps ?_
  assumption

theorem State_answerLook_keeps {s0 : State} {s : State} {a1 : Look} {a2 : Bool} (h : Ok s0 s) : Ok s0 (State.answerLook s a1 a2) := by
  unfold State.answerLook
  refine State_emit_keeps ?_
  assumption

theorem State_answerNeed_keeps {s0 : State} {s : State} {a1 : ℕ} (h : Ok s0 s) : Ok s0 (State.answerNeed s a1) := by
  unfold State.answerNeed
  split
  assumption
  split
  assumption
  split
  assumption
  refine Ends.ite ?_ ?_
  assumption
  (extract_lets +onlyGivenNames x; clear_value x)
  (extract_lets +onlyGivenNames x; subst x; beta_reduce)
  (extract_lets +onlyGivenNames x; refine Ends.cut (x := x) (s := s0) ?_ (fun _ => ?_) <;> [subst x; clear_value x])
  refine State_setSess_keeps ?_
  assumption
  (extract_lets +onlyGivenNames x; refine Ends.cut (x := x) (s := s0) ?_ (fun _ => ?_) <;> [subst x; clear_value x])
  refine Ends.fold ?_ (fun _ _ _ => ?_)
  assumption
  refine State_sendMsg_keeps ?_
  assumption
  refine Ends.ite ?_ ?_
  assumption
  (extract_lets +onlyGivenNames x; refine Ends.cut (x := x) (s := s0) ?_ (fun _ => ?_) <;> [subst x; clear_value x])
  refine Ends.fold ?_ (fun _ _ _ => ?_)
  assumption
  refine State_sendMsg_keeps ?_
  assumption
  (extract_lets +onlyGivenNames x; clear_value x)
  refine State_sendMsg_keeps ?_
  assumption

theorem State_answered_keeps {s0 : State} {s : State} {a1 : ℕ} {a2 : SfbReq → Bool} (h : Ok s0 s) : Ok s0 (State.answered s a1 a2) := by
  unfold State.answered
  split
  (extract_lets +onlyGivenNames x; clear_value x)
  (extract_lets +onlyGivenNames x; subst x)
  (extract_lets +onlyGivenNames x; refine Ends.cut (x := x) (s := s0) ?_ (fun _ => ?_) <;> [subst x; clear_value x])
  refine Ends.upd ?_
  assumption
  refine State_setSport_keeps ?_
  assumption
  assumption

theorem State_setCpFld_keeps {s0 : State} {s : State} {a1 : ℕ} {a2 : Fld} {a3 : ℕ} (h : Ok s0 s) : Ok s0 (State.setCpFld s a1 a2 a3) := by
  unfold State.setCpFld
  refine State_setFld_keeps ?_
  assumption

theorem State_epochReported_keeps {s0 : State} {s : State} {a1 : ℕ} {a2 : ℕ} {a3 : ℕ} (h : Ok s0 s) : Ok s0 (State.epochReported s a1 a2 a3) := by
  unfold State.epochReported
  refine State_setCpFld_keeps ?_
  refine State_setCpFld_keeps ?_
  assumption

theorem State_epochAnswer_keeps {s0 : State} {s : State} {a1 : ℕ} {a2 : SfbReq} {a3 : Bytes} (h : Ok s0 s) : Ok s0 (State.epochAnswer s a1 a2 a3) := by
  unfold State.epochAnswer
  (extract_lets +onlyGivenNames x; clear_value x)
  split
  assumption
  refine Ends.ite ?_ ?_
  assumption
  (extract_lets +onlyGivenNames x; refine Ends.cut (x := x) (s := s0) ?_ (fun _ => ?_) <;> [subst x; clear_value x])
  refine State_epochReported_keeps ?_
  assumption
  refine Ends.ite ?_ ?_
  refine State_event_keeps ?_
  assumption
  assumption

theorem State_starveRegs_keeps {s0 : State} {s : State} (h : Ok s0 s) : Ok s0 (State.starveRegs s) := by
  unfold State.starveRegs
  refine Ends.fold ?_ (fun _ _ _ => ?_)
  assumption
  (extract_lets +onlyGivenNames x; clear_value x)
  (extract_lets +onlyGivenNames x; clear_value x)
  (extract_lets +onlyGivenNames x; refine Ends.cut (x := x) (s := s0) ?_ (fun _ => ?_) <;> [subst x; clear_value x])
  refine State_setFld_keeps ?_
  assumption
  split
  refine State_setFld_keeps ?_
  refine State_setFld_keeps ?_
  refine State_setFlag_keeps ?_
  assumption
  refine State_setFld_keeps ?_
  refine State_setFld_keeps ?_
  refine State_setFlag_keeps ?_
  assumption

theorem State_protect_keeps {s0 : State} {s : State} (h : Ok s0 s) : Ok s0 (State.protect s) := by
  unfold State.protect
  refine Ends.ite ?_ ?_
  refine State_starveRegs_keeps ?_
  assumption
  (extract_lets +onlyGivenNames x; clear_value x)
  split
  (extract_lets +onlyGivenNames x; subst x)
  (extract_lets +onlyGivenNames x; refine Ends.cut (x := x) (s := s0) ?_ (fun _ => ?_) <;> [subst x; clear_value x])
  refine Ends.upd ?_
  assumption
  refine State_starveRegs_keeps ?_
  refine State_issue_keeps ?_
  assumption
  refine State_starveRegs_keeps ?_
  assumption

theorem State_writeEnded_keeps {s0 : State} {s : State} {a1 : MedOp} {a2 : ℕ} (h : Ok s0 s) : Ok s0 (State.writeEnded s a1 a2) := by
  unfold State.writeEnded
  (extract_lets +onlyGivenNames x; clear_value x)
  (extract_lets +onlyGivenNames x; clear_value x)
  (extract_lets +onlyGivenNames x; clear_value x)
  (extract_lets +onlyGivenNames x; refine Ends.cut (x := x) (s := s0) ?_ (fun _ => ?_) <;> [subst x; clear_value x])
  refine Ends.ite ?_ ?_
  refine State_exc_keeps ?_
  assumption
  assumption
  (extract_lets +onlyGivenNames x; subst x)
  (extract_lets +onlyGivenNames x; refine Ends.cut (x := x) (s := s0) ?_ (fun _ => ?_) <;> [subst x; clear_value x])
  refine State_setDie_keeps ?_
  assumption
  (extract_lets +onlyGivenNames x; subst x)
  (extract_lets +onlyGivenNames x; refine Ends.cut (x := x) (s := s0) ?_ (fun _ => ?_) <;> [subst x; clear_value x])
  refine Ends.upd ?_
  assumption
  refine State_protect_keeps ?_
  assumption

theorem State_noteResume_keeps {s0 : State} {s : State} {a1 : ℕ} (h : Ok s0 s) : Ok s0 (State.noteResume s a1) := by
  unfold State.noteResume
  (extract_lets +onlyGivenNames x; clear_value x)
  split
  (extract_lets +onlyGivenNames x; clear_value x)
  refine Ends.ite ?_ ?_
  assumption
  refine State_setDie_keeps ?_
  assumption
  assumption

theorem State_monitor_keeps {s0 : State} {s : State} {a1 : ℕ} {a2 : ℕ} (h : Ok s0 s) : Ok s0 (State.monitor s a1 a2) := by
  unfold State.monitor
  (extract_lets +onlyGivenNames x; clear_value x)
  (extract_lets +onlyGivenNames x; clear_value x)
  refine Ends.ite ?_ ?_
  assumption
  (extract_lets +onlyGivenNames x; clear_value x)
  (extract_lets +onlyGivenNames x; clear_value x)
  refine Ends.ite ?_ ?_
  refine State_exc_keeps ?_
  refine State_setDie_keeps ?_
  assumption
  refine State_setDie_keeps ?_
  assumption

theorem State_setCpFlag_keeps {s0 : State} {s : State} {a1 : ℕ} {a2 : Fld} {a3 : Bool} (h : Ok s0 s) : Ok s0 (State.setCpFlag s a1 a2 a3) := by
  unfold State.setCpFlag
  refine State_setFlag_keeps ?_
  assumption

theorem State_enter_keeps {s0 : State} {s : State} {a1 : HeadState} (h : Ok s0 s) : Ok s0 (State.enter s a1) := by
  unfold State.enter
  (extract_lets +onlyGivenNames x; subst x)
  (extract_lets +onlyGivenNames x; refine Ends.cut (x := x) (s := s0) ?_ (fun _ => ?_) <;> [subst x; clear_value x])
  refine Ends.upd ?_
  assumption
  split
  (extract_lets +onlyGivenNames x; subst x)
  (extract_lets +onlyGivenNames x; refine Ends.cut (x := x) (s := s0) ?_ (fun _ => ?_) <;> [subst x; clear_value x])
  refine State_selectSource_keeps ?_
  refine Ends.upd ?_
  assumption
  refine Ends.ite ?_ ?_
  refine State_event_keeps ?_
  assumption
  assumption
  (extract_lets +onlyGivenNames x; subst x)
  (extract_lets +onlyGivenNames x; refine Ends.cut (x := x) (s := s0) ?_ (fun _ => ?_) <;> [subst x; clear_value x])
  refine Ends.ite ?_ ?_
  assumption
  refine Ends.upd ?_
  assumption
  (extract_lets +onlyGivenNames x; refine Ends.cut (x := x) (s := s0) ?_ (fun _ => ?_) <;> [subst x; clear_value x])
  refine State_selectSource_keeps ?_
  refine State_setFlag_keeps ?_
  assumption
  (extract_lets +onlyGivenNames x; subst x)
  (extract_lets +onlyGivenNames x; refine Ends.cut (x := x) (s := s0) ?_ (fun _ => ?_) <;> [subst x; clear_value x])
  refine Ends.upd ?_
  assumption
  (extract_lets +onlyGivenNames x; refine Ends.cut (x := x) (s := s0) ?_ (fun _ => ?_) <;> [subst x; clear_value x])
  refine Ends.ite ?_ ?_
  refine State_setFlag_keeps ?_
  assumption
  assumption
  refine State_setFlag_keeps ?_
  assumption
  (extract_lets +onlyGivenNames x; subst x)
  (extract_lets +onlyGivenNames x; refine Ends.cut (x := x) (s := s0) ?_ (fun _ => ?_) <;> [subst x; clear_value x])
  refine Ends.ite ?_ ?_
  assumption
  refine Ends.upd ?_
  assumption
  (extract_lets +onlyGivenNames x; refine Ends.cut (x := x) (s := s0) ?_ (fun _ => ?_) <;> [subst x; clear_value x])
  refine State_selectSource_keeps ?_
  refine State_setFlag_keeps ?_
  assumption
  (extract_lets +onlyGivenNames x; subst x)
  (extract_lets +onlyGivenNames x; refine Ends.cut (x := x) (s := s0) ?_ (fun _ => ?_) <;> [subst x; clear_value x])
  refine Ends.upd ?_
  assumption
  (extract_lets +onlyGivenNames x; refine Ends.cut (x := x) (s := s0) ?_ (fun _ => ?_) <;> [subst x; clear_value x])
  refine Ends.ite ?_ ?_
  refine State_setFlag_keeps ?_
  assumption
  assumption
  refine State_setFlag_keeps ?_
  assumption
  (extract_lets +onlyGivenNames x; refine Ends.cut (x := x) (s := s0) ?_ (fun _ => ?_) <;> [subst x; clear_value x])
  refine State_setFlag_keeps ?_
  refine State_setFlag_keeps ?_
  assumption
  (extract_lets +onlyGivenNames x; subst x)
  (extract_lets +onlyGivenNames x; refine Ends.cut (x := x) (s := s0) ?_ (fun _ => ?_) <;> [subst x; clear_value x])
  refine Ends.upd ?_
  assumption
  refine State_selectSource_keeps ?_
  refine State_setFlag_keeps ?_
  assumption

theorem State_setLast_keeps {s0 : State} {s : State} {a1 : ℕ} {a2 : Bool} (h : Ok s0 s) : Ok s0 (State.setLast s a1 a2) := by
  unfold State.setLast
  refine State_setFlag_keeps ?_
  refine State_setFld_keeps ?_
  assumption

theorem State_fencedReply_keeps {s0 : State} {s : State} {a1 : ℕ} (h : Ok s0 s) : Ok s0 (State.fencedReply s a1) := by
  unfold State.fencedReply
  (extract_lets +onlyGivenNames x; refine Ends.cut (x := x) (s := s0) ?_ (fun _ => ?_) <;> [subst x; clear_value x])
  refine State_addCpFld_keeps ?_
  assumption
  refine Ends.ite ?_ ?_
  refine State_enter_keeps ?_
  refine State_setLast_keeps ?_
  assumption
  assumption

theorem State_checkSpare_keeps {s0 : State} {s : State} (h : Ok s0 s) : Ok s0 (State.checkSpare s) := by
  unfold State.checkSpare
  refine Ends.ite ?_ ?_
  refine State_setReadOnly_keeps ?_
  assumption
  assumption

theorem State_dropBlock_keeps {s0 : State} {s : State} {a1 : ℕ} (h : Ok s0 s) : Ok s0 (State.dropBlock s a1) := by
  unfold State.dropBlock
  (extract_lets +onlyGivenNames x; clear_value x)
  refine Ends.ite ?_ ?_
  assumption
  (extract_lets +onlyGivenNames x; subst x)
  (extract_lets +onlyGivenNames x; refine Ends.cut (x := x) (s := s0) ?_ (fun _ => ?_) <;> [subst x; clear_value x])
  refine Ends.upd ?_
  assumption
  refine State_log_keeps ?_
  assumption

theorem State_retireBlock_keeps {s0 : State} {s : State} {a1 : ℕ} (h : Ok s0 s) : Ok s0 (State.retireBlock s a1) := by
  unfold State.retireBlock
  refine State_checkSpare_keeps ?_
  refine State_dropBlock_keeps ?_
  assumption

theorem State_intentDone_keeps {s0 : State} {s : State} {a1 : ℕ} {a2 : ℕ} {a3 : Bool} (h : Ok s0 s) : Ok s0 (State.intentDone s a1 a2 a3) := by
  unfold State.intentDone
  split
  assumption
  refine Ends.ite ?_ ?_
  refine State_setJent_keeps ?_
  assumption
  refine State_postIntent_keeps ?_
  assumption

theorem State_clearIntents_keeps {s0 : State} {s : State} {a1 : ℕ} {a2 : ℕ} (h : Ok s0 s) : Ok s0 (State.clearIntents s a1 a2) := by
  unfold State.clearIntents
  refine Ends.fold ?_ (fun _ _ _ => ?_)
  assumption
  refine State_issue_keeps ?_
  assumption

theorem State_clearProgrammed_keeps {s0 : State} {s : State} {a1 : ℕ} {a2 : ℕ} (h : Ok s0 s) : Ok s0 (State.clearProgrammed s a1 a2) := by
  unfold State.clearProgrammed
  (extract_lets +onlyGivenNames x; clear_value x)
  (extract_lets +onlyGivenNames x; clear_value x)
  refine Ends.ite ?_ ?_
  refine State_clearIntents_keeps ?_
  assumption
  assumption

theorem State_journalPlaced_keeps {s0 : State} {s : State} {a1 : ℕ} {a2 : ℕ} (h : Ok s0 s) : Ok s0 (State.journalPlaced s a1 a2) := by
  unfold State.journalPlaced
  split
  assumption
  (extract_lets +onlyGivenNames x; refine Ends.cut (x := x) (s := s0) ?_ (fun _ => ?_) <;> [subst x; clear_value x])
  refine State_setJent_keeps ?_
  assumption
  (extract_lets +onlyGivenNames x; refine Ends.cut (x := x) (s := s0) ?_ (fun _ => ?_) <;> [subst x; clear_value x])
  refine Ends.ite ?_ ?_
  refine State_clearProgrammed_keeps ?_
  assumption
  assumption
  refine State_lagCheck_keeps ?_
  assumption

theorem State_keepJournal_keeps {s0 : State} {s : State} {a1 : ℕ} (h : Ok s0 s) : Ok s0 (State.keepJournal s a1) := by
  induction a1 generalizing s
  · rw [State.keepJournal.eq_1]
    assumption
  · rename_i ih
    rw [State.keepJournal.eq_2]
    refine Ends.ite ?_ ?_
    assumption
    split
    (extract_lets +onlyGivenNames x; refine Ends.cut (x := x) (s := s0) ?_ (fun _ => ?_) <;> [subst x; clear_value x])
    refine State_takeBlocks_keeps ?_
    assumption
    (extract_lets +onlyGivenNames x; subst x)
    (extract_lets +onlyGivenNames x; refine Ends.cut (x := x) (s := s0) ?_ (fun _ => ?_) <;> [subst x; clear_value x])
    refine Ends.upd ?_
    assumption
    apply ih
    refine State_log_keeps ?_
    assumption
    assumption

theorem State_journalAgain_keeps {s0 : State} {s : State} {a1 : ℕ} {a2 : ℕ} {a3 : ℕ} (h : Ok s0 s) : Ok s0 (State.journalAgain s a1 a2 a3) := by
  unfold State.journalAgain
  (extract_lets +onlyGivenNames x; clear_value x)
  (extract_lets +onlyGivenNames x; subst x)
  (extract_lets +onlyGivenNames x; refine Ends.cut (x := x) (s := s0) ?_ (fun _ => ?_) <;> [subst x; clear_value x])
  refine Ends.upd ?_
  assumption
  split
  assumption
  (extract_lets +onlyGivenNames x; refine Ends.cut (x := x) (s := s0) ?_ (fun _ => ?_) <;> [subst x; clear_value x])
  refine State_setJent_keeps ?_
  assumption
  (extract_lets +onlyGivenNames x; refine Ends.cut (x := x) (s := s0) ?_ (fun _ => ?_) <;> [subst x; clear_value x])
  refine State_keepJournal_keeps ?_
  assumption
  split
  refine State_programIn_keeps ?_
  assumption
  assumption

theorem State_noSegment_keeps {s0 : State} {s : State} (h : Ok s0 s) : Ok s0 (State.noSegment s) := by
  unfold State.noSegment
  refine Ends.ite ?_ ?_
  assumption
  refine State_event_keeps ?_
  refine Ends.upd ?_
  assumption

theorem State_placePack_keeps {s0 : State} {s : State} {a1 : ℕ} (h : Ok s0 s) : Ok s0 (State.placePack s a1) := by
  unfold State.placePack
  split
  assumption
  refine Ends.ite ?_ ?_
  assumption
  (extract_lets +onlyGivenNames x; clear_value x)
  (extract_lets +onlyGivenNames x; clear_value x)
  split
  refine State_setPack_keeps ?_
  refine State_placeBytes_keeps (by assumption) ?_
  assumption
  refine State_noSegment_keeps ?_
  assumption

theorem State_placePacks_keeps {s0 : State} {s : State} (h : Ok s0 s) : Ok s0 (State.placePacks s) := by
  unfold State.placePacks
  refine Ends.fold ?_ (fun _ _ _ => ?_)
  assumption
  refine State_placePack_keeps ?_
  assumption

theorem State_redoCkpt_keeps {s0 : State} {s : State} (h : Ok s0 s) : Ok s0 (State.redoCkpt s) := by
  unfold State.redoCkpt
  refine Ends.ite ?_ ?_
  assumption
  refine State_startCkpt_keeps ?_
  refine State_setFlag_keeps ?_
  refine Ends.upd ?_
  assumption

theorem State_sealEarly_keeps {s0 : State} {s : State} {a1 : SegDesc} {a2 : ℕ} (h : Ok s0 s) : Ok s0 (State.sealEarly s a1 a2) := by
  unfold State.sealEarly
  (extract_lets +onlyGivenNames x; clear_value x)
  (extract_lets +onlyGivenNames x; clear_value x)
  (extract_lets +onlyGivenNames x; clear_value x)
  (extract_lets +onlyGivenNames x; clear_value x)
  (extract_lets +onlyGivenNames x; clear_value x)
  (extract_lets +onlyGivenNames x; subst x)
  (extract_lets +onlyGivenNames x; refine Ends.cut (x := x) (s := s0) ?_ (fun _ => ?_) <;> [subst x; clear_value x])
  refine Ends.upd ?_
  assumption
  (extract_lets +onlyGivenNames x; refine Ends.cut (x := x) (s := s0) ?_ (fun _ => ?_) <;> [subst x; clear_value x])
  refine State_sealSegment_keeps ?_
  assumption
  (extract_lets +onlyGivenNames x; refine Ends.cut (x := x) (s := s0) ?_ (fun _ => ?_) <;> [subst x; clear_value x])
  refine State_exc_keeps ?_
  assumption
  (extract_lets +onlyGivenNames x; refine Ends.cut (x := x) (s := s0) ?_ (fun _ => ?_) <;> [subst x; clear_value x])
  refine Ends.fold ?_ (fun _ _ _ => ?_)
  assumption
  split
  refine State_setPack_keeps ?_
  assumption
  assumption
  (extract_lets +onlyGivenNames x; refine Ends.cut (x := x) (s := s0) ?_ (fun _ => ?_) <;> [subst x; clear_value x])
  refine State_placePacks_keeps ?_
  assumption
  (extract_lets +onlyGivenNames x; refine Ends.cut (x := x) (s := s0) ?_ (fun _ => ?_) <;> [subst x; clear_value x])
  refine Ends.ite ?_ ?_
  refine State_redoCkpt_keeps ?_
  assumption
  assumption
  refine Ends.fold ?_ (fun _ _ _ => ?_)
  assumption
  refine Ends.ite ?_ ?_
  assumption
  split
  refine Ends.ite ?_ ?_
  refine State_writePage_keeps ?_
  refine State_setLine_keeps ?_
  assumption
  assumption
  assumption

theorem State_unitFailed_keeps {s0 : State} {s : State} {a1 : ℕ} {a2 : ℕ} (h : Ok s0 s) : Ok s0 (State.unitFailed s a1 a2) := by
  unfold State.unitFailed
  split
  refine State_sealEarly_keeps ?_
  refine State_addFld_keeps ?_
  assumption
  assumption

theorem State_logFailed_keeps {s0 : State} {s : State} {a1 : ℕ} {a2 : ℕ} (h : Ok s0 s) : Ok s0 (State.logFailed s a1 a2) := by
  unfold State.logFailed
  split
  assumption
  (extract_lets +onlyGivenNames x; subst x)
  (extract_lets +onlyGivenNames x; subst x)
  (extract_lets +onlyGivenNames x; refine Ends.cut (x := x) (s := s0) ?_ (fun _ => ?_) <;> [subst x; clear_value x])
  refine Ends.upd ?_
  assumption
  refine Ends.ite ?_ ?_
  assumption
  (extract_lets +onlyGivenNames x; clear_value x)
  refine Ends.ite ?_ ?_
  assumption
  (extract_lets +onlyGivenNames x; refine Ends.cut (x := x) (s := s0) ?_ (fun _ => ?_) <;> [subst x; clear_value x])
  refine State_takeBlocks_keeps ?_
  assumption
  (extract_lets +onlyGivenNames x; subst x)
  (extract_lets +onlyGivenNames x; refine Ends.cut (x := x) (s := s0) ?_ (fun _ => ?_) <;> [subst x; clear_value x])
  refine Ends.upd ?_
  assumption
  refine Ends.fold ?_ (fun _ _ _ => ?_)
  assumption
  (extract_lets +onlyGivenNames x; clear_value x)
  (extract_lets +onlyGivenNames x; clear_value x)
  refine State_sendLogPage_keeps ?_
  refine Ends.upd ?_
  assumption

theorem State_dropFreePages_keeps {s0 : State} {s : State} {a1 : ℕ} (h : Ok s0 s) : Ok s0 (State.dropFreePages s a1) := by
  unfold State.dropFreePages
  (extract_lets +onlyGivenNames x; clear_value x)
  refine Ends.upd ?_
  assumption

theorem State_reclaimLog_keeps {s0 : State} {s : State} {a1 : Ckpt} (h : Ok s0 s) : Ok s0 (State.reclaimLog s a1) := by
  unfold State.reclaimLog
  (extract_lets +onlyGivenNames x; clear_value x)
  (extract_lets +onlyGivenNames x; clear_value x)
  (extract_lets +onlyGivenNames x; subst x)
  (extract_lets +onlyGivenNames x; refine Ends.cut (x := x) (s := s0) ?_ (fun _ => ?_) <;> [subst x; clear_value x])
  refine Ends.upd ?_
  assumption
  (extract_lets +onlyGivenNames x; refine Ends.cut (x := x) (s := s0) ?_ (fun _ => ?_) <;> [subst x; clear_value x])
  refine Ends.fold ?_ (fun _ _ _ => ?_)
  assumption
  refine State_eraseBlock_keeps ?_
  assumption
  (extract_lets +onlyGivenNames x; clear_value x)
  refine Ends.fold ?_ (fun _ _ _ => ?_)
  assumption
  (extract_lets +onlyGivenNames x; refine Ends.cut (x := x) (s := s0) ?_ (fun _ => ?_) <;> [subst x; clear_value x])
  refine Ends.fold ?_ (fun _ _ _ => ?_)
  assumption
  refine State_eraseBlock_keeps ?_
  assumption
  (extract_lets +onlyGivenNames x; clear_value x)
  refine State_log_keeps ?_
  refine State_setSeg_keeps ?_
  assumption

theorem State_endCkpt_keeps {s0 : State} {s : State} (h : Ok s0 s) : Ok s0 (State.endCkpt s) := by
  unfold State.endCkpt
  split
  assumption
  (extract_lets +onlyGivenNames x; subst x)
  (extract_lets +onlyGivenNames x; refine Ends.cut (x := x) (s := s0) ?_ (fun _ => ?_) <;> [subst x; clear_value x])
  refine Ends.upd ?_
  assumption
  (extract_lets +onlyGivenNames x; refine Ends.cut (x := x) (s := s0) ?_ (fun _ => ?_) <;> [subst x; clear_value x])
  refine State_setFlag_keeps ?_
  refine State_setFld_keeps ?_
  assumption
  refine State_dropFreePages_keeps ?_
  refine State_reclaimLog_keeps ?_
  assumption

theorem State_sjAcked_keeps {s0 : State} {s : State} {a1 : ℕ} {a2 : ℕ} (h : Ok s0 s) : Ok s0 (State.sjAcked s a1 a2) := by
  unfold State.sjAcked
  (extract_lets +onlyGivenNames x; subst x)
  (extract_lets +onlyGivenNames x; refine Ends.cut (x := x) (s := s0) ?_ (fun _ => ?_) <;> [subst x; clear_value x])
  refine Ends.ite ?_ ?_
  refine State_setFlag_keeps ?_
  refine Ends.upd ?_
  assumption
  assumption
  split
  assumption
  (extract_lets +onlyGivenNames x; clear_value x)
  (extract_lets +onlyGivenNames x; clear_value x)
  (extract_lets +onlyGivenNames x; clear_value x)
  (extract_lets +onlyGivenNames x; clear_value x)
  refine Ends.ite ?_ ?_
  refine Ends.upd ?_
  assumption
  refine Ends.upd ?_
  assumption

theorem State_sjReopen_keeps {s0 : State} {s : State} (h : Ok s0 s) : Ok s0 (State.sjReopen s) := by
  unfold State.sjReopen
  (extract_lets +onlyGivenNames x; subst x; beta_reduce)
  split
  refine Ends.ite ?_ ?_
  assumption
  split
  assumption
  (extract_lets +onlyGivenNames x; refine Ends.cut (x := x) (s := s0) ?_ (fun _ => ?_) <;> [subst x; clear_value x])
  refine State_takeBlocks_keeps ?_
  assumption
  (extract_lets +onlyGivenNames x; clear_value x)
  (extract_lets +onlyGivenNames x; clear_value x)
  (extract_lets +onlyGivenNames x; clear_value x)
  (extract_lets +onlyGivenNames x; refine Ends.cut (x := x) (s := s0) ?_ (fun _ => ?_) <;> [subst x; clear_value x])
  refine Ends.upd ?_
  assumption
  refine State_sjSend_keeps ?_
  refine State_sjRegs_keeps ?_
  refine State_log_keeps ?_
  assumption
  refine Ends.ite ?_ ?_
  assumption
  split
  assumption
  (extract_lets +onlyGivenNames x; refine Ends.cut (x := x) (s := s0) ?_ (fun _ => ?_) <;> [subst x; clear_value x])
  refine State_takeBlocks_keeps ?_
  assumption
  (extract_lets +onlyGivenNames x; clear_value x)
  (extract_lets +onlyGivenNames x; clear_value x)
  (extract_lets +onlyGivenNames x; clear_value x)
  (extract_lets +onlyGivenNames x; refine Ends.cut (x := x) (s := s0) ?_ (fun _ => ?_) <;> [subst x; clear_value x])
  refine Ends.upd ?_
  assumption
  refine State_sjSend_keeps ?_
  refine State_sjRegs_keeps ?_
  refine State_log_keeps ?_
  assumption
  assumption

theorem State_sjCarrierLost_keeps {s0 : State} {s : State} {a1 : ℕ} (h : Ok s0 s) : Ok s0 (State.sjCarrierLost s a1) := by
  unfold State.sjCarrierLost
  (extract_lets +onlyGivenNames x; clear_value x)
  refine Ends.ite ?_ ?_
  assumption
  (extract_lets +onlyGivenNames x; clear_value x)
  (extract_lets +onlyGivenNames x; clear_value x)
  (extract_lets +onlyGivenNames x; clear_value x)
  (extract_lets +onlyGivenNames x; refine Ends.cut (x := x) (s := s0) ?_ (fun _ => ?_) <;> [subst x; clear_value x])
  refine State_setFlag_keeps ?_
  refine Ends.upd ?_
  assumption
  (extract_lets +onlyGivenNames x; clear_value x)
  (extract_lets +onlyGivenNames x; subst x)
  (extract_lets +onlyGivenNames x; refine Ends.cut (x := x) (s := s0) ?_ (fun _ => ?_) <;> [subst x; clear_value x])
  refine Ends.upd ?_
  assumption
  refine State_sjReopen_keeps ?_
  refine State_sjRegs_keeps ?_
  assumption

theorem State_rebuildAbandon_keeps {s0 : State} {s : State} (h : Ok s0 s) : Ok s0 (State.rebuildAbandon s) := by
  unfold State.rebuildAbandon
  split
  refine Ends.fold ?_ (fun _ _ _ => ?_)
  refine State_setRebuild_keeps ?_
  assumption
  refine State_eraseBlock_keeps ?_
  assumption
  assumption

theorem State_rebuildUnit_keeps {s0 : State} {s : State} (h : Ok s0 s) : Ok s0 (State.rebuildUnit s) := by
  unfold State.rebuildUnit
  split
  assumption
  split
  refine State_rebuildAbandon_keeps ?_
  assumption
  refine Ends.ite ?_ ?_
  (extract_lets +onlyGivenNames x; clear_value x)
  refine State_log_keeps ?_
  refine State_setRebuild_keeps ?_
  assumption
  (extract_lets +onlyGivenNames x; clear_value x)
  (extract_lets +onlyGivenNames x; clear_value x)
  (extract_lets +onlyGivenNames x; refine Ends.cut (x := x) (s := s0) ?_ (fun _ => ?_) <;> [subst x; clear_value x])
  refine State_setRebuild_keeps ?_
  assumption
  refine Ends.fold ?_ (fun _ _ _ => ?_)
  assumption
  refine State_requestCw_keeps ?_
  assumption

theorem State_rebuildPlaced_keeps {s0 : State} {s : State} {a1 : ℕ} {a2 : ℕ} (h : Ok s0 s) : Ok s0 (State.rebuildPlaced s a1 a2) := by
  unfold State.rebuildPlaced
  split
  refine Ends.ite ?_ ?_
  assumption
  (extract_lets +onlyGivenNames x; clear_value x)
  (extract_lets +onlyGivenNames x; subst x)
  (extract_lets +onlyGivenNames x; refine Ends.cut (x := x) (s := s0) ?_ (fun _ => ?_) <;> [subst x; clear_value x])
  refine Ends.upd ?_
  assumption
  (extract_lets +onlyGivenNames x; subst x)
  refine Ends.ite ?_ ?_
  refine State_setRebuild_keeps ?_
  assumption
  (extract_lets +onlyGivenNames x; clear_value x)
  (extract_lets +onlyGivenNames x; refine Ends.cut (x := x) (s := s0) ?_ (fun _ => ?_) <;> [subst x; clear_value x])
  refine State_setRebuild_keeps ?_
  assumption
  refine State_rebuildUnit_keeps ?_
  refine Ends.fold ?_ (fun _ _ _ => ?_)
  assumption
  refine State_sjAppend_keeps ?_
  assumption
  assumption

theorem State_parRegs_keeps {s0 : State} {s : State} (h : Ok s0 s) : Ok s0 (State.parRegs s) := by
  unfold State.parRegs
  (extract_lets +onlyGivenNames x; clear_value x)
  (extract_lets +onlyGivenNames x; refine Ends.cut (x := x) (s := s0) ?_ (fun _ => ?_) <;> [subst x; clear_value x])
  refine State_setFlag_keeps ?_
  assumption
  (extract_lets +onlyGivenNames x; refine Ends.cut (x := x) (s := s0) ?_ (fun _ => ?_) <;> [subst x; clear_value x])
  refine State_setFld_keeps ?_
  assumption
  refine State_setFlag_keeps ?_
  assumption

theorem State_rebuildStart_keeps {s0 : State} {s : State} {a1 : ℕ} (h : Ok s0 s) : Ok s0 (State.rebuildStart s a1) := by
  unfold State.rebuildStart
  split
  assumption
  (extract_lets +onlyGivenNames x; clear_value x)
  (extract_lets +onlyGivenNames x; clear_value x)
  split
  (extract_lets +onlyGivenNames x; refine Ends.cut (x := x) (s := s0) ?_ (fun _ => ?_) <;> [subst x; clear_value x])
  refine State_takeBlocks_keeps ?_
  assumption
  refine State_rebuildUnit_keeps ?_
  refine State_setRebuild_keeps ?_
  assumption
  assumption

theorem State_rebuildGo_keeps {s0 : State} {s : State} {a1 : ℕ} (h : Ok s0 s) : Ok s0 (State.rebuildGo s a1) := by
  induction a1 generalizing s
  · rw [State.rebuildGo.eq_1]
    assumption
  · rename_i ih
    rw [State.rebuildGo.eq_2]
    refine Ends.ite ?_ ?_
    assumption
    split
    assumption
    split
    apply ih
    refine Ends.upd ?_
    assumption
    refine Ends.ite ?_ ?_
    apply ih
    refine Ends.upd ?_
    assumption
    refine Ends.ite ?_ ?_
    apply ih
    refine State_collect_keeps ?_
    assumption
    refine State_rebuildStart_keeps ?_
    assumption

theorem State_rebuildNext_keeps {s0 : State} {s : State} (h : Ok s0 s) : Ok s0 (State.rebuildNext s) := by
  unfold State.rebuildNext
  refine State_parRegs_keeps ?_
  refine State_rebuildGo_keeps ?_
  assumption

theorem State_rebuildFailed_keeps {s0 : State} {s : State} {a1 : ℕ} (h : Ok s0 s) : Ok s0 (State.rebuildFailed s a1) := by
  unfold State.rebuildFailed
  split
  refine Ends.ite ?_ ?_
  refine State_rebuildNext_keeps ?_
  refine State_rebuildAbandon_keeps ?_
  assumption
  assumption
  assumption

theorem State_blockErased_keeps {s0 : State} {s : State} {a1 : ℕ} (h : Ok s0 s) : Ok s0 (State.blockErased s a1) := by
  unfold State.blockErased
  (extract_lets +onlyGivenNames x; subst x)
  (extract_lets +onlyGivenNames x; subst x)
  (extract_lets +onlyGivenNames x; refine Ends.cut (x := x) (s := s0) ?_ (fun _ => ?_) <;> [subst x; clear_value x])
  refine Ends.upd ?_
  assumption
  refine Ends.ite ?_ ?_
  assumption
  refine Ends.ite ?_ ?_
  refine State_updateFree_keeps ?_
  refine State_log_keeps ?_
  refine Ends.upd ?_
  assumption
  refine State_log_keeps ?_
  refine Ends.upd ?_
  assumption

theorem State_eraseAgain_keeps {s0 : State} {s : State} {a1 : ℕ} (h : Ok s0 s) : Ok s0 (State.eraseAgain s a1) := by
  unfold State.eraseAgain
  refine Ends.ite ?_ ?_
  refine State_issue_keeps ?_
  assumption
  assumption

theorem State_cwDeferred_keeps {s0 : State} {s : State} {a1 : ℕ} (h : Ok s0 s) : Ok s0 (State.cwDeferred s a1) := by
  unfold State.cwDeferred
  split
  assumption
  (extract_lets +onlyGivenNames x; refine Ends.cut (x := x) (s := s0) ?_ (fun _ => ?_) <;> [subst x; clear_value x])
  refine State_addFld_keeps ?_
  assumption
  split
  split
  refine State_endCw_keeps ?_
  assumption
  (extract_lets +onlyGivenNames x; clear_value x)
  (extract_lets +onlyGivenNames x; clear_value x)
  (extract_lets +onlyGivenNames x; clear_value x)
  (extract_lets +onlyGivenNames x; refine Ends.cut (x := x) (s := s0) ?_ (fun _ => ?_) <;> [subst x; clear_value x])
  refine State_setCw_keeps ?_
  assumption
  refine Ends.ite ?_ ?_
  assumption
  split
  refine State_sense_keeps ?_
  assumption
  assumption
  refine Ends.ite ?_ ?_
  refine State_startAround_keeps ?_
  assumption
  refine State_sense_keeps ?_
  assumption

theorem State_cwNoData_keeps {s0 : State} {s : State} {a1 : ℕ} (h : Ok s0 s) : Ok s0 (State.cwNoData s a1) := by
  unfold State.cwNoData
  split
  assumption
  split
  refine State_endCw_keeps ?_
  assumption
  refine State_endCw_keeps ?_
  assumption
  refine State_endCw_keeps ?_
  assumption
  refine Ends.ite ?_ ?_
  refine State_startAround_keeps ?_
  assumption
  assumption

theorem State_opResult_keeps {s0 : State} {s : State} {a1 : MedOp} {a2 : ℕ} {a3 : ℕ} (h : Ok s0 s) : Ok s0 (State.opResult s a1 a2 a3) := by
  unfold State.opResult
  (extract_lets +onlyGivenNames x; clear_value x)
  (extract_lets +onlyGivenNames x; clear_value x)
  (extract_lets +onlyGivenNames x; subst x; beta_reduce)
  split
  refine State_intentDone_keeps ?_
  assumption
  assumption
  assumption
  assumption
  refine Ends.ite ?_ ?_
  refine State_journalPlaced_keeps ?_
  assumption
  refine Ends.ite ?_ ?_
  refine State_retireBlock_keeps ?_
  refine State_journalAgain_keeps ?_
  assumption
  refine State_journalAgain_keeps ?_
  assumption
  refine Ends.ite ?_ ?_
  refine Ends.upd ?_
  assumption
  (extract_lets +onlyGivenNames x; subst x)
  (extract_lets +onlyGivenNames x; refine Ends.cut (x := x) (s := s0) ?_ (fun _ => ?_) <;> [subst x; clear_value x])
  refine Ends.upd ?_
  assumption
  refine Ends.ite ?_ ?_
  refine State_retireBlock_keeps ?_
  refine State_unitFailed_keeps ?_
  assumption
  refine State_unitFailed_keeps ?_
  assumption
  refine Ends.ite ?_ ?_
  refine Ends.upd ?_
  assumption
  refine Ends.ite ?_ ?_
  refine State_retireBlock_keeps ?_
  refine State_logFailed_keeps ?_
  assumption
  refine State_logFailed_keeps ?_
  assumption
  split
  refine Ends.ite ?_ ?_
  (extract_lets +onlyGivenNames x; subst x)
  (extract_lets +onlyGivenNames x; refine Ends.cut (x := x) (s := s0) ?_ (fun _ => ?_) <;> [subst x; clear_value x])
  refine Ends.upd ?_
  assumption
  refine Ends.ite ?_ ?_
  refine State_endCkpt_keeps ?_
  assumption
  assumption
  assumption
  assumption
  refine Ends.ite ?_ ?_
  refine State_sjAcked_keeps ?_
  assumption
  refine Ends.ite ?_ ?_
  refine State_retireBlock_keeps ?_
  refine State_sjCarrierLost_keeps ?_
  assumption
  refine State_sjCarrierLost_keeps ?_
  assumption
  refine Ends.ite ?_ ?_
  refine State_rebuildPlaced_keeps ?_
  assumption
  refine Ends.ite ?_ ?_
  refine State_retireBlock_keeps ?_
  refine State_rebuildFailed_keeps ?_
  assumption
  refine State_rebuildFailed_keeps ?_
  assumption
  (extract_lets +onlyGivenNames x; clear_value x)
  refine Ends.ite ?_ ?_
  refine Ends.ite ?_ ?_
  assumption
  refine Ends.ite ?_ ?_
  refine State_blockErased_keeps ?_
  assumption
  assumption
  refine Ends.ite ?_ ?_
  refine State_retireBlock_keeps ?_
  refine Ends.upd ?_
  assumption
  refine Ends.ite ?_ ?_
  assumption
  refine State_eraseAgain_keeps ?_
  assumption
  refine Ends.ite ?_ ?_
  assumption
  refine Ends.ite ?_ ?_
  refine Ends.fold ?_ (fun _ _ _ => ?_)
  assumption
  refine State_cwDeferred_keeps ?_
  assumption
  refine Ends.fold ?_ (fun _ _ _ => ?_)
  assumption
  refine State_cwNoData_keeps ?_
  assumption
  (extract_lets +onlyGivenNames x; clear_value x)
  (extract_lets +onlyGivenNames x; clear_value x)
  refine Ends.ite ?_ ?_
  refine Ends.ite ?_ ?_
  refine State_setDie_keeps ?_
  assumption
  refine State_setDie_keeps ?_
  assumption
  refine State_setDie_keeps ?_
  assumption

theorem State_sfbComplete_keeps {s0 : State} {s : State} {a1 : ℕ} {a2 : ℕ} {a3 : ℕ} {a4 : ℕ} {a5 : Bytes} (h : Ok s0 s) : Ok s0 (State.sfbComplete s a1 a2 a3 a4 a5) := by
  unfold State.sfbComplete
  split
  refine State_addCpFld_keeps ?_
  assumption
  (extract_lets +onlyGivenNames x; subst x)
  (extract_lets +onlyGivenNames x; refine Ends.cut (x := x) (s := s0) ?_ (fun _ => ?_) <;> [subst x; clear_value x])
  refine Ends.upd ?_
  assumption
  (extract_lets +onlyGivenNames x; clear_value x)
  (extract_lets +onlyGivenNames x; refine Ends.cut (x := x) (s := s0) ?_ (fun _ => ?_) <;> [subst x; clear_value x])
  refine State_epochAnswer_keeps ?_
  assumption
  (extract_lets +onlyGivenNames x; refine Ends.cut (x := x) (s := s0) ?_ (fun _ => ?_) <;> [subst x; clear_value x])
  refine Ends.ite ?_ ?_
  refine State_writeEnded_keeps ?_
  assumption
  refine Ends.ite ?_ ?_
  refine State_noteResume_keeps ?_
  assumption
  assumption
  (extract_lets +onlyGivenNames x; refine Ends.cut (x := x) (s := s0) ?_ (fun _ => ?_) <;> [subst x; clear_value x])
  refine Ends.ite ?_ ?_
  split
  assumption
  refine State_monitor_keeps ?_
  assumption
  assumption
  (extract_lets +onlyGivenNames x; refine Ends.cut (x := x) (s := s0) ?_ (fun _ => ?_) <;> [subst x; clear_value x])
  refine Ends.ite ?_ ?_
  refine State_event_keeps ?_
  assumption
  assumption
  (extract_lets +onlyGivenNames x; refine Ends.cut (x := x) (s := s0) ?_ (fun _ => ?_) <;> [subst x; clear_value x])
  refine Ends.ite ?_ ?_
  refine State_setCpFlag_keeps ?_
  assumption
  assumption
  (extract_lets +onlyGivenNames x; refine Ends.cut (x := x) (s := s0) ?_ (fun _ => ?_) <;> [subst x; clear_value x])
  refine Ends.ite ?_ ?_
  refine State_fencedReply_keeps ?_
  assumption
  refine State_opResult_keeps ?_
  assumption
  refine State_pump_keeps ?_
  assumption

theorem State_rdata_keeps {s0 : State} {s : State} {a1 : ℕ} {a2 : ℕ} {a3 : ℕ} {a4 : ℕ} {a5 : Bytes} (h : Ok s0 s) : Ok s0 (State.rdata s a1 a2 a3 a4 a5) := by
  unfold State.rdata
  split
  split
  refine Ends.ite ?_ ?_
  refine State_addCpFld_keeps ?_
  assumption
  (extract_lets +onlyGivenNames x; clear_value x)
  (extract_lets +onlyGivenNames x; clear_value x)
  (extract_lets +onlyGivenNames x; clear_value x)
  refine Ends.upd ?_
  assumption
  refine State_addCpFld_keeps ?_
  assumption
  assumption
  refine State_addCpFld_keeps ?_
  assumption

theorem State_erasePending_keeps {s0 : State} {s : State} {a1 : ℕ} (h : Ok s0 s) : Ok s0 (State.erasePending s a1) := by
  unfold State.erasePending
  refine Ends.fold ?_ (fun _ _ _ => ?_)
  assumption
  refine State_eraseAgain_keeps ?_
  assumption

theorem State_sfbEvent_keeps {s0 : State} {s : State} {a1 : ℕ} {a2 : ℕ} (h : Ok s0 s) : Ok s0 (State.sfbEvent s a1 a2) := by
  unfold State.sfbEvent
  split
  (extract_lets +onlyGivenNames x; refine Ends.cut (x := x) (s := s0) ?_ (fun _ => ?_) <;> [subst x; clear_value x])
  refine State_setCpFlag_keeps ?_
  assumption
  refine State_journalRegs_keeps ?_
  refine State_setSport_keeps ?_
  assumption
  refine State_journalRegs_keeps ?_
  refine State_erasePending_keeps ?_
  refine State_setCpFlag_keeps ?_
  assumption
  refine State_exc_keeps ?_
  assumption
  refine State_event_keeps ?_
  assumption

theorem State_applyIn_keeps {s0 : State} {s : State} {a1 : ℕ} {a2 : SfbIn} (h : Ok s0 s) : Ok s0 (State.applyIn s a1 a2) := by
  unfold State.applyIn
  split
  refine State_sfbComplete_keeps ?_
  assumption
  refine State_rdata_keeps ?_
  assumption
  refine State_sfbEvent_keeps ?_
  assumption

theorem State_sfbApply_keeps {s0 : State} {s : State} {a1 : ℕ} {a2 : ℕ} {a3 : SfbIn} (h : Ok s0 s) : Ok s0 (State.sfbApply s a1 a2 a3) := by
  unfold State.sfbApply
  (extract_lets +onlyGivenNames x; clear_value x)
  refine State_applyIn_keeps ?_
  refine State_setSport_keeps ?_
  assumption

theorem State_applyAhead_keeps {s0 : State} {s : State} {a1 : ℕ} {a2 : ℕ} (h : Ok s0 s) : Ok s0 (State.applyAhead s a1 a2) := by
  induction a2 generalizing s a1
  · rw [State.applyAhead.eq_1]
    assumption
  · rename_i ih
    rw [State.applyAhead.eq_2]
    split
    apply ih
    refine State_sfbApply_keeps ?_
    refine State_setSport_keeps ?_
    assumption
    refine State_setSport_keeps ?_
    assumption

theorem State_sendUpd_keeps {s0 : State} {s : State} {a1 : ℕ} {a2 : MapChange} {a3 : ℕ} (h : Ok s0 s) : Ends (fun p : State × ℕ => Keeps s0 p.1) (State.sendUpd s a1 a2 a3) := by
  unfold State.sendUpd
  refine Ends.ite ?_ ?_
  refine Ends.fst ?_
  refine State_send_keeps ?_
  assumption
  refine Ends.fst ?_
  assumption

theorem State_applyOwn_keeps {s0 : State} {s : State} {a1 : ℕ} {a2 : ℕ} {a3 : ℕ} {a4 : ℕ} {a5 : Option (ℕ × ℕ)} {a6 : Item} (h : Ok s0 s) : Ok s0 (State.applyOwn s a1 a2 a3 a4 a5 a6) := by
  unfold State.applyOwn
  (extract_lets +onlyGivenNames x; clear_value x)
  (extract_lets +onlyGivenNames x; refine Ends.cut (x := x) (s := s0) ?_ (fun _ => ?_) <;> [subst x; clear_value x])
  refine State_keepResident_keeps ?_
  refine State_endMarks_keeps ?_
  refine State_applyDurable_keeps ?_
  assumption
  (extract_lets +onlyGivenNames x; refine Ends.cut (x := x) (s := s0) ?_ (fun _ => ?_) <;> [subst x; clear_value x])
  split
  refine State_addValid_keeps ?_
  assumption
  assumption
  split
  refine Ends.ite ?_ ?_
  refine Ends.ofL (by assumption) ?_
  refine State_sendUpd_keeps ?_
  assumption
  (extract_lets +onlyGivenNames x; clear_value x)
  refine Ends.upd ?_
  refine Ends.ofL (by assumption) ?_
  refine State_sendUpd_keeps ?_
  assumption

theorem State_tell_keeps {s0 : State} {s : State} {a1 : SfbReq} {a2 : List ℕ} (h : Ok s0 s) : Ok s0 (State.tell s a1 a2) := by
  unfold State.tell
  refine Ends.fold ?_ (fun _ _ _ => ?_)
  assumption
  refine Ends.ite ?_ ?_
  refine State_sendOp_keeps ?_
  assumption
  assumption

theorem State_sendEpochInit_keeps {s0 : State} {s : State} (h : Ok s0 s) : Ok s0 (State.sendEpochInit s) := by
  unfold State.sendEpochInit
  refine State_tell_keeps ?_
  assumption

theorem State_metaDurable_keeps {s0 : State} {s : State} {a1 : MetaChange} (h : Ok s0 s) : Ok s0 (State.metaDurable s a1) := by
  unfold State.metaDurable
  (extract_lets +onlyGivenNames x; refine Ends.cut (x := x) (s := s0) ?_ (fun _ => ?_) <;> [subst x; clear_value x])
  refine Ends.ite ?_ ?_
  refine State_sendEpochInit_keeps ?_
  assumption
  assumption
  refine Ends.ite ?_ ?_
  assumption
  refine State_applyMeta_keeps ?_
  assumption

theorem State_rebuildLogged_keeps {s0 : State} {s : State} {a1 : SegDesc} (h : Ok s0 s) : Ok s0 (State.rebuildLogged s a1) := by
  unfold State.rebuildLogged
  split
  refine Ends.ite ?_ ?_
  (extract_lets +onlyGivenNames x; clear_value x)
  (extract_lets +onlyGivenNames x; refine Ends.cut (x := x) (s := s0) ?_ (fun _ => ?_) <;> [subst x; clear_value x])
  refine State_setSeg_keeps ?_
  assumption
  (extract_lets +onlyGivenNames x; subst x)
  (extract_lets +onlyGivenNames x; refine Ends.cut (x := x) (s := s0) ?_ (fun _ => ?_) <;> [subst x; clear_value x])
  refine Ends.upd ?_
  assumption
  (extract_lets +onlyGivenNames x; subst x)
  (extract_lets +onlyGivenNames x; refine Ends.cut (x := x) (s := s0) ?_ (fun _ => ?_) <;> [subst x; clear_value x])
  refine Ends.upd ?_
  assumption
  (extract_lets +onlyGivenNames x; refine Ends.cut (x := x) (s := s0) ?_ (fun _ => ?_) <;> [subst x; clear_value x])
  refine Ends.fold ?_ (fun _ _ _ => ?_)
  assumption
  refine State_retireBlock_keeps ?_
  assumption
  refine State_sjAppend_keeps ?_
  assumption
  assumption
  assumption

end Sys2Proof.Machine
end

