-- ==== Sys2Proof/Laws/Keeps3.lean ====
section
/-! SUPPORT. Part 3 of 6: no operation of the model undoes what `Keeps` names; one lemma for each, in the order in which they call each
other. -/

set_option linter.all false

namespace Sys2Proof.Machine

open Sys2Proof

theorem State_writeAnchors_keeps {s0 : State} {s : State} (h : Ok s0 s) : Ok s0 (State.writeAnchors s) := by
  unfold State.writeAnchors
  split
  assumption
  (extract_lets +onlyGivenNames x; clear_value x)
  (extract_lets +onlyGivenNames x; clear_value x)
  (extract_lets +onlyGivenNames x; clear_value x)
  (extract_lets +onlyGivenNames x; clear_value x)
  (extract_lets +onlyGivenNames x; subst x)
  (extract_lets +onlyGivenNames x; refine Ends.cut (x := x) (s := s0) ?_ (fun _ => ?_) <;> [subst x; clear_value x])
  refine Ends.upd ?_
  assumption
  (extract_lets +onlyGivenNames x; clear_value x)
  (extract_lets +onlyGivenNames x; refine Ends.cut (x := x) (s := s0) ?_ (fun _ => ?_) <;> [subst x; clear_value x])
  refine Ends.fold ?_ (fun _ _ _ => ?_)
  assumption
  (extract_lets +onlyGivenNames x; clear_value x)
  (extract_lets +onlyGivenNames x; clear_value x)
  (extract_lets +onlyGivenNames x; clear_value x)
  (extract_lets +onlyGivenNames x; refine Ends.cut (x := x) (s := s0) ?_ (fun _ => ?_) <;> [subst x; clear_value x])
  refine Ends.ite ?_ ?_
  refine State_issue_keeps ?_
  assumption
  assumption
  refine State_issue_keeps ?_
  assumption
  refine Ends.ite ?_ ?_
  refine State_endCkpt_keeps ?_
  assumption
  assumption

theorem State_applyRec_keeps {s0 : State} {s : State} {a1 : LogRec} (h : Ok s0 s) : Ok s0 (State.applyRec s a1) := by
  unfold State.applyRec
  split
  (extract_lets +onlyGivenNames x; clear_value x)
  (extract_lets +onlyGivenNames x; clear_value x)
  (extract_lets +onlyGivenNames x; refine Ends.cut (x := x) (s := s0) ?_ (fun _ => ?_) <;> [subst x; clear_value x])
  refine State_addValid_keeps ?_
  refine State_addValid_keeps ?_
  assumption
  (extract_lets +onlyGivenNames x; subst x)
  (extract_lets +onlyGivenNames x; refine Ends.cut (x := x) (s := s0) ?_ (fun _ => ?_) <;> [subst x; clear_value x])
  refine Ends.upd ?_
  assumption
  (extract_lets +onlyGivenNames x; refine Ends.cut (x := x) (s := s0) ?_ (fun _ => ?_) <;> [subst x; clear_value x])
  refine Ends.ite ?_ ?_
  refine Ends.fold ?_ (fun _ _ _ => ?_)
  assumption
  refine State_checkScan_keeps ?_
  assumption
  assumption
  refine Ends.projL ?_
  refine State_sendUpd_keeps ?_
  assumption
  (extract_lets +onlyGivenNames x; refine Ends.cut (x := x) (s := s0) ?_ (fun _ => ?_) <;> [subst x; clear_value x])
  refine State_addFld_keeps ?_
  refine State_applyReloc_keeps ?_
  assumption
  (extract_lets +onlyGivenNames x; refine Ends.cut (x := x) (s := s0) ?_ (fun _ => ?_) <;> [subst x; clear_value x])
  refine Ends.projL ?_
  refine State_sendUpd_keeps ?_
  assumption
  (extract_lets +onlyGivenNames x; clear_value x)
  refine Ends.fold ?_ (fun _ _ _ => ?_)
  assumption
  split
  refine State_checkScan_keeps ?_
  refine State_setScan_keeps ?_
  assumption
  assumption
  (extract_lets +onlyGivenNames x; refine Ends.cut (x := x) (s := s0) ?_ (fun _ => ?_) <;> [subst x; clear_value x])
  refine State_applyState_keeps ?_
  assumption
  (extract_lets +onlyGivenNames x; subst x)
  (extract_lets +onlyGivenNames x; refine Ends.cut (x := x) (s := s0) ?_ (fun _ => ?_) <;> [subst x; clear_value x])
  split
  (extract_lets +onlyGivenNames x; clear_value x)
  refine Ends.ite ?_ ?_
  refine Ends.upd ?_
  assumption
  assumption
  assumption
  refine Ends.projL ?_
  refine State_sendUpd_keeps ?_
  assumption
  refine Ends.projL ?_
  refine State_sendUpd_keeps ?_
  refine Ends.upd ?_
  assumption
  (extract_lets +onlyGivenNames x; subst x)
  (extract_lets +onlyGivenNames x; refine Ends.cut (x := x) (s := s0) ?_ (fun _ => ?_) <;> [subst x; clear_value x])
  refine Ends.ite ?_ ?_
  refine State_updateFree_keeps ?_
  refine Ends.upd ?_
  assumption
  assumption
  refine Ends.projL ?_
  refine State_sendUpd_keeps ?_
  assumption
  refine Ends.projL ?_
  refine State_sendUpd_keeps ?_
  assumption
  refine Ends.projL ?_
  refine State_sendUpd_keeps ?_
  assumption
  refine Ends.projL ?_
  refine State_sendUpd_keeps ?_
  assumption
  refine Ends.projL ?_
  refine State_sendUpd_keeps ?_
  assumption
  refine Ends.projL ?_
  refine State_sendUpd_keeps ?_
  assumption
  refine Ends.projL ?_
  refine State_sendUpd_keeps ?_
  assumption
  refine Ends.projL ?_
  refine State_sendUpd_keeps ?_
  assumption
  refine State_metaDurable_keeps ?_
  refine Ends.projL ?_
  refine State_sendUpd_keeps ?_
  assumption
  refine Ends.projL ?_
  refine State_sendUpd_keeps ?_
  refine State_rebuildLogged_keeps ?_
  assumption
  refine Ends.ite ?_ ?_
  refine State_writeAnchors_keeps ?_
  assumption
  assumption
  assumption

theorem State_switchDone_keeps {s0 : State} {s : State} {a1 : ℕ} {a2 : ℕ} (h : Ok s0 s) : Ok s0 (State.switchDone s a1 a2) := by
  unfold State.switchDone
  split
  split
  refine Ends.ite ?_ ?_
  refine State_switched_keeps ?_
  assumption
  assumption
  assumption
  assumption

theorem State_txnDone_keeps {s0 : State} {s : State} {a1 : ℕ} (h : Ok s0 s) : Ok s0 (State.txnDone s a1) := by
  unfold State.txnDone
  (extract_lets +onlyGivenNames x; clear_value x)
  (extract_lets +onlyGivenNames x; subst x)
  (extract_lets +onlyGivenNames x; refine Ends.cut (x := x) (s := s0) ?_ (fun _ => ?_) <;> [subst x; clear_value x])
  refine Ends.upd ?_
  assumption
  (extract_lets +onlyGivenNames x; clear_value x)
  refine Ends.upd ?_
  assumption

theorem State_applyChange_keeps {s0 : State} {s : State} {a1 : Change} (h : Ok s0 s) : Ok s0 (State.applyChange s a1) := by
  unfold State.applyChange
  split
  refine State_applyOwn_keeps ?_
  assumption
  refine State_applyRec_keeps ?_
  assumption
  refine State_switchDone_keeps ?_
  refine State_txnDone_keeps ?_
  assumption
  refine State_applyUpd_keeps ?_
  assumption

theorem State_writeTable_keeps {s0 : State} {s : State} {a1 : ℕ} {a2 : ℕ} {a3 : ℕ} {a4 : RegDesc} {a5 : Word} (h : Ok s0 s) : Ok s0 (State.writeTable s a1 a2 a3 a4 a5) := by
  unfold State.writeTable
  refine Ends.ite ?_ ?_
  assumption
  refine Ends.ite ?_ ?_
  refine Ends.upd ?_
  assumption
  refine State_setShadow_keeps ?_
  assumption

theorem State_writePlain_keeps {s0 : State} {s : State} {a1 : ℕ} {a2 : ℕ} {a3 : ℕ} {a4 : RegDesc} {a5 : Word} {a6 : Word} (h : Ok s0 s) : Ok s0 (State.writePlain s a1 a2 a3 a4 a5 a6) := by
  unfold State.writePlain
  (extract_lets +onlyGivenNames x; refine Ends.cut (x := x) (s := s0) ?_ (fun _ => ?_) <;> [subst x; clear_value x])
  refine State_setReg_keeps ?_
  assumption
  refine Ends.ite ?_ ?_
  refine Ends.upd ?_
  assumption
  assumption

theorem State_portDown_keeps {s0 : State} {s : State} {a1 : ℕ} (h : Ok s0 s) : Ok s0 (State.portDown s a1) := by
  unfold State.portDown
  (extract_lets +onlyGivenNames x; refine Ends.cut (x := x) (s := s0) ?_ (fun _ => ?_) <;> [subst x; clear_value x])
  refine State_setFlag_keeps ?_
  assumption
  refine Ends.upd ?_
  assumption

theorem State_refreshSources_keeps {s0 : State} {s : State} (h : Ok s0 s) : Ok s0 (State.refreshSources s) := by
  unfold State.refreshSources
  (extract_lets +onlyGivenNames x; clear_value x)
  refine State_selectSource_keeps ?_
  refine Ends.upd ?_
  assumption

theorem State_freezeEvr_keeps {s0 : State} {s : State} (h : Ok s0 s) : Ok s0 (State.freezeEvr s) := by
  unfold State.freezeEvr
  refine Ends.upd ?_
  assumption

theorem State_thawEvr_keeps {s0 : State} {s : State} (h : Ok s0 s) : Ok s0 (State.thawEvr s) := by
  unfold State.thawEvr
  refine State_writeHeld_keeps ?_
  refine Ends.upd ?_
  assumption

theorem State_groupLost_keeps {s0 : State} {s : State} {a1 : ℕ} {a2 : Bool} (h : Ok s0 s) : Ok s0 (State.groupLost s a1 a2) := by
  unfold State.groupLost
  (extract_lets +onlyGivenNames x; clear_value x)
  (extract_lets +onlyGivenNames x; clear_value x)
  (extract_lets +onlyGivenNames x; subst x)
  (extract_lets +onlyGivenNames x; refine Ends.cut (x := x) (s := s0) ?_ (fun _ => ?_) <;> [subst x; clear_value x])
  refine State_setGroup_keeps ?_
  assumption
  (extract_lets +onlyGivenNames x; refine Ends.cut (x := x) (s := s0) ?_ (fun _ => ?_) <;> [subst x; clear_value x])
  refine State_setFlag_keeps ?_
  refine State_setFlag_keeps ?_
  assumption
  (extract_lets +onlyGivenNames x; refine Ends.cut (x := x) (s := s0) ?_ (fun _ => ?_) <;> [subst x; clear_value x])
  refine State_setFld_keeps ?_
  assumption
  (extract_lets +onlyGivenNames x; subst x)
  (extract_lets +onlyGivenNames x; refine Ends.cut (x := x) (s := s0) ?_ (fun _ => ?_) <;> [subst x; clear_value x])
  refine Ends.upd ?_
  assumption
  split
  refine Ends.fold ?_ (fun _ _ _ => ?_)
  assumption
  refine State_sendOn_keeps ?_
  assumption
  refine Ends.ite ?_ ?_
  refine Ends.upd ?_
  assumption
  assumption

theorem State_chlCtrlWritten_keeps {s0 : State} {s : State} {a1 : ℕ} {a2 : Bool} (h : Ok s0 s) : Ok s0 (State.chlCtrlWritten s a1 a2) := by
  unfold State.chlCtrlWritten
  (extract_lets +onlyGivenNames x; clear_value x)
  refine Ends.ite ?_ ?_
  refine State_groupLost_keeps ?_
  assumption
  (extract_lets +onlyGivenNames x; clear_value x)
  (extract_lets +onlyGivenNames x; refine Ends.cut (x := x) (s := s0) ?_ (fun _ => ?_) <;> [subst x; clear_value x])
  refine State_setFld_keeps ?_
  assumption
  refine Ends.ite ?_ ?_
  refine State_groupLost_keeps ?_
  assumption
  assumption

theorem State_freezeHead_keeps {s0 : State} {s : State} (h : Ok s0 s) : Ok s0 (State.freezeHead s) := by
  unfold State.freezeHead
  (extract_lets +onlyGivenNames x; clear_value x)
  (extract_lets +onlyGivenNames x; refine Ends.cut (x := x) (s := s0) ?_ (fun _ => ?_) <;> [subst x; clear_value x])
  refine Ends.fold ?_ (fun _ _ _ => ?_)
  assumption
  (extract_lets +onlyGivenNames x; refine Ends.cut (x := x) (s := s0) ?_ (fun _ => ?_) <;> [subst x; clear_value x])
  refine Ends.fold ?_ (fun _ _ _ => ?_)
  assumption
  refine State_setFld_keeps ?_
  assumption
  refine State_setFlag_keeps ?_
  refine State_setFlag_keeps ?_
  assumption
  refine Ends.upd ?_
  assumption

theorem State_beginDump_keeps {s0 : State} {s : State} {a1 : Bool} {a2 : AfterDump} (h : Ok s0 s) : Ok s0 (State.beginDump s a1 a2) := by
  unfold State.beginDump
  (extract_lets +onlyGivenNames x; subst x)
  (extract_lets +onlyGivenNames x; subst x)
  (extract_lets +onlyGivenNames x; refine Ends.cut (x := x) (s := s0) ?_ (fun _ => ?_) <;> [subst x; clear_value x])
  refine Ends.upd ?_
  assumption
  refine State_freezeHead_keeps ?_
  assumption

theorem State_yield_keeps {s0 : State} {s : State} {a1 : ℕ} (h : Ok s0 s) : Ok s0 (State.yield s a1) := by
  unfold State.yield
  (extract_lets +onlyGivenNames x; refine Ends.cut (x := x) (s := s0) ?_ (fun _ => ?_) <;> [subst x; clear_value x])
  refine State_setLast_keeps ?_
  assumption
  (extract_lets +onlyGivenNames x; subst x)
  (extract_lets +onlyGivenNames x; refine Ends.cut (x := x) (s := s0) ?_ (fun _ => ?_) <;> [subst x; clear_value x])
  refine Ends.upd ?_
  assumption
  (extract_lets +onlyGivenNames x; refine Ends.cut (x := x) (s := s0) ?_ (fun _ => ?_) <;> [subst x; clear_value x])
  refine State_freezeHead_keeps ?_
  assumption
  refine Ends.fold ?_ (fun _ _ _ => ?_)
  assumption
  refine State_sendOn_keeps ?_
  assumption

theorem State_fenceForFault_keeps {s0 : State} {s : State} {a1 : ℕ} (h : Ok s0 s) : Ok s0 (State.fenceForFault s a1) := by
  unfold State.fenceForFault
  refine Ends.ite ?_ ?_
  refine State_beginDump_keeps ?_
  refine State_yield_keeps ?_
  assumption
  refine State_enter_keeps ?_
  refine State_yield_keeps ?_
  assumption

theorem State_raiseFault_keeps {s0 : State} {s : State} {a1 : ℕ} {a2 : ℕ} {a3 : ℕ} (h : Ok s0 s) : Ok s0 (State.raiseFault s a1 a2 a3) := by
  unfold State.raiseFault
  split
  refine State_headReset_keeps ?_
  refine State_event_keeps ?_
  assumption
  refine State_headReset_keeps ?_
  refine State_event_keeps ?_
  assumption
  refine State_fenceForFault_keeps ?_
  assumption
  refine State_fenceForFault_keeps ?_
  assumption
  refine State_event_keeps ?_
  assumption
  refine State_event_keeps ?_
  assumption
  assumption

theorem State_writeHook_keeps {s0 : State} {s : State} {a1 : Requester} {a2 : ℕ} {a3 : ℕ} {a4 : ℕ} {a5 : RegDesc} {a6 : Word} {a7 : Word} {a8 : Word} (h : Ok s0 s) : Ok s0 (State.writeHook s a1 a2 a3 a4 a5 a6 a7 a8) := by
  unfold State.writeHook
  (extract_lets +onlyGivenNames x; refine Ends.cut (x := x) (s := s0) ?_ (fun _ => ?_) <;> [subst x; clear_value x])
  refine State_writePlain_keeps ?_
  assumption
  split
  refine Ends.ite ?_ ?_
  refine State_setFlag_keeps ?_
  assumption
  refine Ends.ite ?_ ?_
  (extract_lets +onlyGivenNames x; clear_value x)
  refine Ends.ite ?_ ?_
  refine State_portDown_keeps ?_
  assumption
  assumption
  assumption
  refine Ends.ite ?_ ?_
  refine State_refreshSources_keeps ?_
  assumption
  assumption
  refine Ends.ite ?_ ?_
  refine State_freezeEvr_keeps ?_
  assumption
  refine Ends.ite ?_ ?_
  refine State_thawEvr_keeps ?_
  assumption
  assumption
  refine Ends.ite ?_ ?_
  assumption
  assumption
  refine Ends.ite ?_ ?_
  split
  assumption
  refine Ends.ite ?_ ?_
  refine State_setReg_keeps ?_
  assumption
  refine State_setReg_keeps ?_
  assumption
  assumption
  refine Ends.ite ?_ ?_
  (extract_lets +onlyGivenNames x; refine Ends.cut (x := x) (s := s0) ?_ (fun _ => ?_) <;> [subst x; clear_value x])
  refine Ends.ite ?_ ?_
  assumption
  refine State_setFld_keeps ?_
  refine State_setFld_keeps ?_
  assumption
  refine Ends.ite ?_ ?_
  refine State_preemptAll_keeps ?_
  assumption
  assumption
  assumption
  refine Ends.ite ?_ ?_
  refine State_chlCtrlWritten_keeps ?_
  assumption
  assumption
  (extract_lets +onlyGivenNames x; clear_value x)
  refine Ends.ite ?_ ?_
  refine State_raiseFault_keeps ?_
  assumption
  assumption
  (extract_lets +onlyGivenNames x; clear_value x)
  refine Ends.ite ?_ ?_
  refine State_raiseFault_keeps ?_
  assumption
  assumption
  refine Ends.ite ?_ ?_
  refine State_setFlag_keeps ?_
  assumption
  assumption
  assumption

theorem State_writeReg_keeps {s0 : State} {s : State} {a1 : Requester} {a2 : ℕ} {a3 : ℕ} {a4 : ℕ} {a5 : RegDesc} {a6 : Word} {a7 : Word} (h : Ok s0 s) : Ok s0 (State.writeReg s a1 a2 a3 a4 a5 a6 a7) := by
  unfold State.writeReg
  split
  refine State_writeTable_keeps ?_
  assumption
  (extract_lets +onlyGivenNames x; clear_value x)
  refine State_writeHook_keeps ?_
  assumption

theorem State_holdJob_keeps {s0 : State} {s : State} {a1 : ℕ} {a2 : Job} {a3 : ExcKind} {a4 : List ℕ} (h : Ok s0 s) : Ok s0 (State.holdJob s a1 a2 a3 a4) := by
  unfold State.holdJob
  refine State_exc_keeps ?_
  refine State_setJob_keeps ?_
  assumption

theorem State_tryTxn_keeps {s0 : State} {s : State} {a1 : ℕ} (h : Ok s0 s) : Ok s0 (State.tryTxn s a1) := by
  unfold State.tryTxn
  split
  assumption
  refine Ends.ite ?_ ?_
  assumption
  refine Ends.ite ?_ ?_
  refine Ends.ite ?_ ?_
  assumption
  (extract_lets +onlyGivenNames x; clear_value x)
  split
  (extract_lets +onlyGivenNames x; refine Ends.cut (x := x) (s := s0) ?_ (fun _ => ?_) <;> [subst x; clear_value x])
  refine Ends.fold ?_ (fun _ _ _ => ?_)
  refine Ends.ofL (by assumption) ?_
  refine State_logTxn_keeps ?_
  assumption
  refine Ends.upd ?_
  assumption
  refine State_setJob_keeps ?_
  assumption
  split
  (extract_lets +onlyGivenNames x; clear_value x)
  (extract_lets +onlyGivenNames x; clear_value x)
  refine Ends.ite ?_ ?_
  assumption
  refine Ends.ite ?_ ?_
  split
  refine State_setJent_keeps ?_
  refine State_setJob_keeps ?_
  refine Ends.ofL (by assumption) ?_
  refine State_logTxn_keeps ?_
  assumption
  (extract_lets +onlyGivenNames x; clear_value x)
  (extract_lets +onlyGivenNames x; clear_value x)
  (extract_lets +onlyGivenNames x; clear_value x)
  refine Ends.ite ?_ ?_
  refine State_holdJob_keeps ?_
  assumption
  split
  (extract_lets +onlyGivenNames x; refine Ends.cut (x := x) (s := s0) ?_ (fun _ => ?_) <;> [subst x; clear_value x])
  refine Ends.ite ?_ ?_
  refine State_addFld_keeps ?_
  assumption
  assumption
  refine State_holdJob_keeps ?_
  assumption
  (extract_lets +onlyGivenNames x; clear_value x)
  (extract_lets +onlyGivenNames x; clear_value x)
  refine Ends.ite ?_ ?_
  assumption
  (extract_lets +onlyGivenNames x; clear_value x)
  (extract_lets +onlyGivenNames x; subst x)
  (extract_lets +onlyGivenNames x; refine Ends.cut (x := x) (s := s0) ?_ (fun _ => ?_) <;> [subst x; clear_value x])
  refine Ends.ite ?_ ?_
  assumption
  refine State_log_keeps ?_
  refine Ends.upd ?_
  assumption
  split
  (extract_lets +onlyGivenNames x; refine Ends.cut (x := x) (s := s0) ?_ (fun _ => ?_) <;> [subst x; clear_value x])
  refine Ends.fold ?_ (fun _ _ _ => ?_)
  refine Ends.ofL (by assumption) ?_
  refine State_logTxn_keeps ?_
  assumption
  refine Ends.upd ?_
  assumption
  refine Ends.fold ?_ (fun _ _ _ => ?_)
  refine State_setJob_keeps ?_
  assumption
  split
  refine State_setJent_keeps ?_
  assumption
  assumption
  split
  refine State_setJent_keeps ?_
  refine State_setJob_keeps ?_
  refine Ends.ofL (by assumption) ?_
  refine State_logTxn_keeps ?_
  assumption
  assumption

theorem State_resumeJobs_keeps {s0 : State} {s : State} {a1 : ℕ} (h : Ok s0 s) : Ok s0 (State.resumeJobs s a1) := by
  unfold State.resumeJobs
  refine Ends.fold ?_ (fun _ _ _ => ?_)
  assumption
  split
  refine Ends.ite ?_ ?_
  refine State_tryTxn_keeps ?_
  refine State_setJob_keeps ?_
  assumption
  assumption
  assumption

theorem State_csaCommit_keeps {s0 : State} {s : State} {s1 : State} {a2 : ℕ} (h : Ok s0 s) (h1 : Ok s0 s1) : Ok s0 (State.csaCommit s s1 a2) := by
  unfold State.csaCommit
  (extract_lets +onlyGivenNames x; clear_value x)
  (extract_lets +onlyGivenNames x; refine Ends.cut (x := x) (s := s0) ?_ (fun _ => ?_) <;> [subst x; clear_value x])
  refine Ends.fold ?_ (fun _ _ _ => ?_)
  assumption
  refine State_setActive_keeps ?_
  assumption
  (extract_lets +onlyGivenNames x; clear_value x)
  (extract_lets +onlyGivenNames x; refine Ends.cut (x := x) (s := s0) ?_ (fun _ => ?_) <;> [subst x; clear_value x])
  refine Ends.ite ?_ ?_
  assumption
  refine State_setFlag_keeps ?_
  assumption
  (extract_lets +onlyGivenNames x; clear_value x)
  (extract_lets +onlyGivenNames x; clear_value x)
  (extract_lets +onlyGivenNames x; clear_value x)
  (extract_lets +onlyGivenNames x; clear_value x)
  (extract_lets +onlyGivenNames x; clear_value x)
  (extract_lets +onlyGivenNames x; clear_value x)
  refine State_setCsa_keeps ?_
  assumption

theorem State_commitHook_keeps {s0 : State} {s : State} {a1 : ℕ} {a2 : ℕ} {a3 : ℕ} {s4 : State} (h : Ok s0 s) (h4 : Ok s0 s4) : Ok s0 (State.commitHook s a1 a2 a3 s4) := by
  unfold State.commitHook
  (extract_lets +onlyGivenNames x; clear_value x)
  split
  refine Ends.ite ?_ ?_
  refine State_setFlag_keeps ?_
  assumption
  assumption
  refine Ends.ite ?_ ?_
  refine State_setFlag_keeps ?_
  assumption
  assumption
  refine Ends.ite ?_ ?_
  assumption
  split
  assumption
  refine State_setFlag_keeps ?_
  refine Ends.fold ?_ (fun _ _ _ => ?_)
  assumption
  refine State_setActive_keeps ?_
  assumption
  refine State_resumeJobs_keeps ?_
  assumption
  refine Ends.fold ?_ (fun _ _ _ => ?_)
  assumption
  refine State_closePack_keeps ?_
  assumption
  refine State_csaCommit_keeps ?_ ?_
  assumption
  assumption
  assumption

theorem State_commitTables_keeps {s0 : State} {s : State} {a1 : ℕ} {a2 : ℕ} {a3 : ℕ} (h : Ok s0 s) : Ok s0 (State.commitTables s a1 a2 a3) := by
  unfold State.commitTables
  (extract_lets +onlyGivenNames x; refine Ends.cut (x := x) (s := s0) ?_ (fun _ => ?_) <;> [subst x; clear_value x])
  refine Ends.upd ?_
  assumption
  (extract_lets +onlyGivenNames x; refine Ends.cut (x := x) (s := s0) ?_ (fun _ => ?_) <;> [subst x; clear_value x])
  refine State_setFlag_keeps ?_
  assumption
  refine State_commitHook_keeps ?_ ?_
  refine State_addFld_keeps ?_
  assumption
  assumption

theorem State_commitNow_keeps {s0 : State} {s : State} {a1 : ℕ} {a2 : ℕ} {a3 : ℕ} (h : Ok s0 s) : Ok s0 (State.commitNow s a1 a2 a3) := by
  unfold State.commitNow
  refine State_finishCopy_keeps ?_
  refine State_commitTables_keeps ?_
  assumption

theorem State_mfwWrite_keeps {s0 : State} {s : State} {a1 : ℕ} {a2 : Word} (h : Ok s0 s) : Ok s0 (State.mfwWrite s a1 a2) := by
  unfold State.mfwWrite
  split
  (extract_lets +onlyGivenNames x; refine Ends.cut (x := x) (s := s0) ?_ (fun _ => ?_) <;> [subst x; clear_value x])
  refine State_writeReg_keeps ?_
  assumption
  refine Ends.ite ?_ ?_
  refine State_commitNow_keeps ?_
  assumption
  assumption
  assumption

theorem State_regInit_keeps {s0 : State} {s : State} {a1 : ℕ × ℕ × ℕ} (h : Ok s0 s) : Ok s0 (State.regInit s a1) := by
  unfold State.regInit
  split
  refine State_event_keeps ?_
  assumption
  refine Ends.ite ?_ ?_
  refine State_event_keeps ?_
  assumption
  (extract_lets +onlyGivenNames x; clear_value x)
  (extract_lets +onlyGivenNames x; clear_value x)
  refine State_mfwWrite_keeps ?_
  assumption

theorem State_loadTable_keeps {s0 : State} {s : State} {a1 : ℕ} {a2 : ℕ} {a3 : Bytes} (h : Ok s0 s) : Ok s0 (State.loadTable s a1 a2 a3) := by
  unfold State.loadTable
  split
  refine Ends.fold ?_ (fun _ _ _ => ?_)
  assumption
  refine State_writeTable_keeps ?_
  assumption
  assumption

theorem State_applyConfig_keeps {s0 : State} {s : State} {a1 : Bytes} {a2 : ℕ} (h : Ok s0 s) : Ok s0 (State.applyConfig s a1 a2) := by
  unfold State.applyConfig
  (extract_lets +onlyGivenNames x; clear_value x)
  (extract_lets +onlyGivenNames x; refine Ends.cut (x := x) (s := s0) ?_ (fun _ => ?_) <;> [subst x; clear_value x])
  refine Ends.fold ?_ (fun _ _ _ => ?_)
  assumption
  refine State_regInit_keeps ?_
  assumption
  (extract_lets +onlyGivenNames x; clear_value x)
  (extract_lets +onlyGivenNames x; refine Ends.cut (x := x) (s := s0) ?_ (fun _ => ?_) <;> [subst x; clear_value x])
  refine Ends.fold ?_ (fun _ _ _ => ?_)
  assumption
  (extract_lets +onlyGivenNames x; clear_value x)
  (extract_lets +onlyGivenNames x; refine Ends.cut (x := x) (s := s0) ?_ (fun _ => ?_) <;> [subst x; clear_value x])
  refine State_commitNow_keeps ?_
  refine State_loadTable_keeps ?_
  assumption
  refine Ends.ite ?_ ?_
  refine State_setFlag_keeps ?_
  refine State_setFlag_keeps ?_
  assumption
  assumption
  (extract_lets +onlyGivenNames x; clear_value x)
  (extract_lets +onlyGivenNames x; clear_value x)
  (extract_lets +onlyGivenNames x; refine Ends.cut (x := x) (s := s0) ?_ (fun _ => ?_) <;> [subst x; clear_value x])
  refine Ends.fold ?_ (fun _ _ _ => ?_)
  assumption
  (extract_lets +onlyGivenNames x; clear_value x)
  (extract_lets +onlyGivenNames x; refine Ends.cut (x := x) (s := s0) ?_ (fun _ => ?_) <;> [subst x; clear_value x])
  refine State_commitNow_keeps ?_
  refine State_loadTable_keeps ?_
  assumption
  refine Ends.ite ?_ ?_
  refine State_setFlag_keeps ?_
  refine State_setFlag_keeps ?_
  assumption
  assumption
  (extract_lets +onlyGivenNames x; refine Ends.cut (x := x) (s := s0) ?_ (fun _ => ?_) <;> [subst x; clear_value x])
  refine State_stores_keeps ?_
  assumption
  (extract_lets +onlyGivenNames x; refine Ends.cut (x := x) (s := s0) ?_ (fun _ => ?_) <;> [subst x; clear_value x])
  refine Ends.fold ?_ (fun _ _ _ => ?_)
  assumption
  refine State_setFld_keeps ?_
  refine State_setFld_keeps ?_
  assumption
  refine Ends.fold ?_ (fun _ _ _ => ?_)
  assumption
  refine State_regInit_keeps ?_
  assumption

theorem State_sendNeed_keeps {s0 : State} {s : State} {a1 : ℕ} {a2 : Sess} {a3 : DstBatch} {a4 : ℕ → Bool} (h : Ok s0 s) : Ok s0 (State.sendNeed s a1 a2 a3 a4) := by
  unfold State.sendNeed
  refine State_sendMsg_keeps ?_
  assumption

theorem State_applyMaps_keeps {s0 : State} {s : State} {a1 : ℕ} {a2 : ℕ} (h : Ok s0 s) : Ok s0 (State.applyMaps s a1 a2) := by
  induction a2 generalizing s a1
  · rw [State.applyMaps.eq_1]
    assumption
  · rename_i ih
    rw [State.applyMaps.eq_2]
    split
    assumption
    split
    split
    assumption
    (extract_lets +onlyGivenNames x; clear_value x)
    (extract_lets +onlyGivenNames x; clear_value x)
    (extract_lets +onlyGivenNames x; clear_value x)
    refine Ends.ite ?_ ?_
    assumption
    refine Ends.ite ?_ ?_
    refine Ends.ite ?_ ?_
    assumption
    refine State_sendNeed_keeps ?_
    refine State_setSess_keeps ?_
    assumption
    (extract_lets +onlyGivenNames x; clear_value x)
    refine Ends.ite ?_ ?_
    refine State_exc_keeps ?_
    refine State_setSess_keeps ?_
    assumption
    split
    assumption
    (extract_lets +onlyGivenNames x; clear_value x)
    refine Ends.ite ?_ ?_
    assumption
    (extract_lets +onlyGivenNames x; clear_value x)
    (extract_lets +onlyGivenNames x; refine Ends.cut (x := x) (s := s0) ?_ (fun _ => ?_) <;> [subst x; clear_value x])
    refine Ends.projL ?_
    refine State_logTxn_keeps ?_
    assumption
    (extract_lets +onlyGivenNames x; refine Ends.cut (x := x) (s := s0) ?_ (fun _ => ?_) <;> [subst x; clear_value x])
    refine Ends.ite ?_ ?_
    assumption
    refine State_putNs_keeps ?_
    assumption
    apply ih
    refine State_setSess_keeps ?_
    assumption
    assumption

theorem State_enterTwin_keeps {s0 : State} {s : State} {a1 : Bool} (h : Ok s0 s) : Ok s0 (State.enterTwin s a1) := by
  unfold State.enterTwin
  (extract_lets +onlyGivenNames x; refine Ends.cut (x := x) (s := s0) ?_ (fun _ => ?_) <;> [subst x; clear_value x])
  refine State_enter_keeps ?_
  assumption
  (extract_lets +onlyGivenNames x; subst x)
  (extract_lets +onlyGivenNames x; subst x)
  (extract_lets +onlyGivenNames x; subst x)
  (extract_lets +onlyGivenNames x; refine Ends.cut (x := x) (s := s0) ?_ (fun _ => ?_) <;> [subst x; clear_value x])
  refine Ends.upd ?_
  assumption
  refine State_resumeFrees_keeps ?_
  refine State_setFlag_keeps ?_
  assumption

theorem State_onHeartbeat_keeps {s0 : State} {s : State} {a1 : ℕ} {a2 : Heartbeat} (h : Ok s0 s) : Ok s0 (State.onHeartbeat s a1 a2) := by
  unfold State.onHeartbeat
  (extract_lets +onlyGivenNames x; clear_value x)
  refine Ends.ite ?_ ?_
  assumption
  refine Ends.ite ?_ ?_
  (extract_lets +onlyGivenNames x; refine Ends.cut (x := x) (s := s0) ?_ (fun _ => ?_) <;> [subst x; clear_value x])
  refine Ends.ite ?_ ?_
  refine State_event_keeps ?_
  assumption
  assumption
  (extract_lets +onlyGivenNames x; refine Ends.cut (x := x) (s := s0) ?_ (fun _ => ?_) <;> [subst x; clear_value x])
  refine State_setFld_keeps ?_
  refine State_setFld_keeps ?_
  assumption
  refine Ends.upd ?_
  assumption
  (extract_lets +onlyGivenNames x; clear_value x)
  (extract_lets +onlyGivenNames x; subst x)
  (extract_lets +onlyGivenNames x; refine Ends.cut (x := x) (s := s0) ?_ (fun _ => ?_) <;> [subst x; clear_value x])
  refine Ends.upd ?_
  assumption
  (extract_lets +onlyGivenNames x; refine Ends.cut (x := x) (s := s0) ?_ (fun _ => ?_) <;> [subst x; clear_value x])
  refine State_setFld_keeps ?_
  refine State_setFld_keeps ?_
  assumption
  (extract_lets +onlyGivenNames x; refine Ends.cut (x := x) (s := s0) ?_ (fun _ => ?_) <;> [subst x; clear_value x])
  split
  (extract_lets +onlyGivenNames x; refine Ends.cut (x := x) (s := s0) ?_ (fun _ => ?_) <;> [subst x; clear_value x])
  refine State_maxFld_keeps ?_
  refine State_setFld_keeps ?_
  assumption
  refine Ends.ite ?_ ?_
  refine Ends.upd ?_
  assumption
  assumption
  assumption
  (extract_lets +onlyGivenNames x; clear_value x)
  (extract_lets +onlyGivenNames x; refine Ends.cut (x := x) (s := s0) ?_ (fun _ => ?_) <;> [subst x; clear_value x])
  refine Ends.ite ?_ ?_
  refine State_setFld_keeps ?_
  assumption
  assumption
  refine Ends.ite ?_ ?_
  (extract_lets +onlyGivenNames x; refine Ends.cut (x := x) (s := s0) ?_ (fun _ => ?_) <;> [subst x; clear_value x])
  refine State_enterTwin_keeps ?_
  assumption
  refine Ends.upd ?_
  assumption
  assumption

theorem State_noteExchange_keeps {s0 : State} {s : State} {a1 : ℕ} {a2 : Bool} (h : Ok s0 s) : Ok s0 (State.noteExchange s a1 a2) := by
  unfold State.noteExchange
  refine Ends.upd ?_
  assumption

theorem State_rejectSample_keeps {s0 : State} {s : State} (h : Ok s0 s) : Ok s0 (State.rejectSample s) := by
  unfold State.rejectSample
  refine State_setFlag_keeps ?_
  assumption

theorem State_heard_keeps {s0 : State} {s : State} {a1 : TimeRef} {a2 : TimeSrc} {a3 : ℤ} (h : Ok s0 s) : Ok s0 (State.heard s a1 a2 a3) := by
  unfold State.heard
  (extract_lets +onlyGivenNames x; subst x)
  (extract_lets +onlyGivenNames x; refine Ends.cut (x := x) (s := s0) ?_ (fun _ => ?_) <;> [subst x; clear_value x])
  refine State_selectSource_keeps ?_
  refine Ends.upd ?_
  assumption
  refine Ends.ite ?_ ?_
  refine State_setFld_keeps ?_
  assumption
  assumption

theorem State_discipline_keeps {s0 : State} {s : State} {a1 : TimeRef} {a2 : ℤ} (h : Ok s0 s) : Ok s0 (State.discipline s a1 a2) := by
  unfold State.discipline
  refine Ends.ite ?_ ?_
  refine Ends.upd ?_
  assumption
  assumption

theorem State_sample_keeps {s0 : State} {s : State} {a1 : TimeRef} {a2 : ℤ} (h : Ok s0 s) : Ok s0 (State.sample s a1 a2) := by
  unfold State.sample
  (extract_lets +onlyGivenNames x; clear_value x)
  (extract_lets +onlyGivenNames x; clear_value x)
  refine Ends.ite ?_ ?_
  assumption
  refine Ends.ite ?_ ?_
  (extract_lets +onlyGivenNames x; refine Ends.cut (x := x) (s := s0) ?_ (fun _ => ?_) <;> [subst x; clear_value x])
  refine State_heard_keeps ?_
  assumption
  refine Ends.ite ?_ ?_
  (extract_lets +onlyGivenNames x; refine Ends.cut (x := x) (s := s0) ?_ (fun _ => ?_) <;> [subst x; clear_value x])
  refine State_stepTime_keeps ?_
  assumption
  refine Ends.upd ?_
  assumption
  refine Ends.ite ?_ ?_
  assumption
  refine State_discipline_keeps ?_
  assumption
  refine Ends.ite ?_ ?_
  (extract_lets +onlyGivenNames x; clear_value x)
  refine State_event_keeps ?_
  refine State_rejectSample_keeps ?_
  refine State_heard_keeps ?_
  assumption
  (extract_lets +onlyGivenNames x; clear_value x)
  (extract_lets +onlyGivenNames x; refine Ends.cut (x := x) (s := s0) ?_ (fun _ => ?_) <;> [subst x; clear_value x])
  refine Ends.ite ?_ ?_
  refine State_event_keeps ?_
  assumption
  assumption
  refine State_discipline_keeps ?_
  refine State_heard_keeps ?_
  assumption

theorem State_timeExchange_keeps {s0 : State} {s : State} {a1 : ℤ} {a2 : ℕ} {a3 : Bool} (h : Ok s0 s) : Ok s0 (State.timeExchange s a1 a2 a3) := by
  unfold State.timeExchange
  (extract_lets +onlyGivenNames x; refine Ends.cut (x := x) (s := s0) ?_ (fun _ => ?_) <;> [subst x; clear_value x])
  refine State_setFld_keeps ?_
  assumption
  (extract_lets +onlyGivenNames x; refine Ends.cut (x := x) (s := s0) ?_ (fun _ => ?_) <;> [subst x; clear_value x])
  refine State_setFld_keeps ?_
  assumption
  (extract_lets +onlyGivenNames x; refine Ends.cut (x := x) (s := s0) ?_ (fun _ => ?_) <;> [subst x; clear_value x])
  refine State_noteExchange_keeps ?_
  assumption
  (extract_lets +onlyGivenNames x; refine Ends.cut (x := x) (s := s0) ?_ (fun _ => ?_) <;> [subst x; clear_value x])
  refine Ends.ite ?_ ?_
  refine State_setFlag_keeps ?_
  assumption
  assumption
  (extract_lets +onlyGivenNames x; refine Ends.cut (x := x) (s := s0) ?_ (fun _ => ?_) <;> [subst x; clear_value x])
  refine State_selectSource_keeps ?_
  assumption
  refine Ends.ite ?_ ?_
  refine State_rejectSample_keeps ?_
  assumption
  refine Ends.ite ?_ ?_
  refine State_sample_keeps ?_
  assumption
  assumption

theorem State_startClaim_keeps {s0 : State} {s : State} {a1 : ClaimWhy} {a2 : ℕ} {a3 : ℕ} (h : Ok s0 s) : Ok s0 (State.startClaim s a1 a2 a3) := by
  unfold State.startClaim
  refine Ends.ite ?_ ?_
  assumption
  (extract_lets +onlyGivenNames x; clear_value x)
  refine State_tell_keeps ?_
  refine Ends.upd ?_
  assumption

theorem State_claimTakeover_keeps {s0 : State} {s : State} {a1 : ℕ} {a2 : ℕ} {a3 : ℕ} (h : Ok s0 s) : Ok s0 (State.claimTakeover s a1 a2 a3) := by
  unfold State.claimTakeover
  refine Ends.ite ?_ ?_
  refine State_startClaim_keeps ?_
  assumption
  assumption

theorem State_onNotice_keeps {s0 : State} {s : State} {a1 : ℕ} (h : Ok s0 s) : Ok s0 (State.onNotice s a1) := by
  unfold State.onNotice
  (extract_lets +onlyGivenNames x; clear_value x)
  refine State_claimTakeover_keeps ?_
  refine Ends.upd ?_
  assumption

theorem State_onHandover_keeps {s0 : State} {s : State} {a1 : List ℕ} {a2 : List ℕ} (h : Ok s0 s) : Ok s0 (State.onHandover s a1 a2) := by
  unfold State.onHandover
  refine Ends.ite ?_ ?_
  refine State_startClaim_keeps ?_
  assumption
  assumption

theorem State_onShardset_keeps {s0 : State} {s : State} {a1 : BitVec 256} {a2 : ℕ} (h : Ok s0 s) : Ok s0 (State.onShardset s a1 a2) := by
  unfold State.onShardset
  (extract_lets +onlyGivenNames x; refine Ends.cut (x := x) (s := s0) ?_ (fun _ => ?_) <;> [subst x; clear_value x])
  refine State_setFld_keeps ?_
  refine State_setOwners_keeps ?_
  assumption
  refine State_sendMoves_keeps ?_
  refine State_moveShards_keeps ?_
  assumption

theorem State_onCapsule_keeps {s0 : State} {s : State} {a1 : MirrorCap} (h : Ok s0 s) : Ok s0 (State.onCapsule s a1) := by
  unfold State.onCapsule
  (extract_lets +onlyGivenNames x; clear_value x)
  (extract_lets +onlyGivenNames x; clear_value x)
  (extract_lets +onlyGivenNames x; clear_value x)
  (extract_lets +onlyGivenNames x; clear_value x)
  (extract_lets +onlyGivenNames x; clear_value x)
  (extract_lets +onlyGivenNames x; clear_value x)
  (extract_lets +onlyGivenNames x; clear_value x)
  (extract_lets +onlyGivenNames x; clear_value x)
  (extract_lets +onlyGivenNames x; clear_value x)
  (extract_lets +onlyGivenNames x; clear_value x)
  refine Ends.upd ?_
  assumption

theorem State_onLedger_keeps {s0 : State} {s : State} {a1 : LedgerRec} (h : Ok s0 s) : Ok s0 (State.onLedger s a1) := by
  unfold State.onLedger
  (extract_lets +onlyGivenNames x; clear_value x)
  (extract_lets +onlyGivenNames x; clear_value x)
  (extract_lets +onlyGivenNames x; clear_value x)
  (extract_lets +onlyGivenNames x; clear_value x)
  refine Ends.upd ?_
  assumption

theorem State_partnerFaulty_keeps {s0 : State} {s : State} (h : Ok s0 s) : Ok s0 (State.partnerFaulty s) := by
  unfold State.partnerFaulty
  refine State_claimTakeover_keeps ?_
  assumption

theorem State_putRec_keeps {s0 : State} {s : State} {a1 : ℕ} {a2 : JRec} (h : Ok s0 s) : Ok s0 (State.putRec s a1 a2) := by
  unfold State.putRec
  (extract_lets +onlyGivenNames x; clear_value x)
  (extract_lets +onlyGivenNames x; clear_value x)
  (extract_lets +onlyGivenNames x; refine Ends.cut (x := x) (s := s0) ?_ (fun _ => ?_) <;> [subst x; clear_value x])
  refine State_setJent_keeps ?_
  assumption
  refine Ends.ite ?_ ?_
  refine Ends.upd ?_
  assumption
  refine Ends.upd ?_
  assumption

theorem State_onJwrite_keeps {s0 : State} {s : State} {a1 : ℕ} {a2 : ℕ} {a3 : JRec} {a4 : Bool} (h : Ok s0 s) : Ok s0 (State.onJwrite s a1 a2 a3 a4) := by
  unfold State.onJwrite
  refine Ends.ite ?_ ?_
  refine State_partnerFaulty_keeps ?_
  refine State_event_keeps ?_
  assumption
  refine Ends.ite ?_ ?_
  assumption
  refine Ends.ite ?_ ?_
  refine State_event_keeps ?_
  assumption
  refine State_putRec_keeps ?_
  assumption

theorem State_eraseJournal_keeps {s0 : State} {s : State} (h : Ok s0 s) : Ok s0 (State.eraseJournal s) := by
  unfold State.eraseJournal
  refine Ends.fold ?_ (fun _ _ _ => ?_)
  assumption
  (extract_lets +onlyGivenNames x; clear_value x)
  refine Ends.ite ?_ ?_
  assumption
  (extract_lets +onlyGivenNames x; subst x)
  (extract_lets +onlyGivenNames x; refine Ends.cut (x := x) (s := s0) ?_ (fun _ => ?_) <;> [subst x; clear_value x])
  refine Ends.upd ?_
  assumption
  (extract_lets +onlyGivenNames x; refine Ends.cut (x := x) (s := s0) ?_ (fun _ => ?_) <;> [subst x; clear_value x])
  refine State_log_keeps ?_
  assumption
  refine Ends.ite ?_ ?_
  assumption
  refine State_eraseBlock_keeps ?_
  assumption

theorem State_releaseRec_keeps {s0 : State} {s : State} {a1 : ℕ} {a2 : ℕ} (h : Ok s0 s) : Ok s0 (State.releaseRec s a1 a2) := by
  unfold State.releaseRec
  refine Ends.ite ?_ ?_
  split
  refine State_journalRegs_keeps ?_
  refine Ends.upd ?_
  assumption
  assumption
  refine Ends.upd ?_
  assumption

theorem State_onRelease_keeps {s0 : State} {s : State} {a1 : ℕ} {a2 : ℕ} (h : Ok s0 s) : Ok s0 (State.onRelease s a1 a2) := by
  unfold State.onRelease
  (extract_lets +onlyGivenNames x; clear_value x)
  refine State_eraseJournal_keeps ?_
  refine Ends.fold ?_ (fun _ _ _ => ?_)
  assumption
  refine State_releaseRec_keeps ?_
  assumption

theorem State_onLockRequest_keeps {s0 : State} {s : State} {a1 : ℕ} {a2 : ℕ} {a3 : List (ℕ × ℕ)} {a4 : Bool} {a5 : ℕ} (h : Ok s0 s) : Ok s0 (State.onLockRequest s a1 a2 a3 a4 a5) := by
  unfold State.onLockRequest
  (extract_lets +onlyGivenNames x; clear_value x)
  split
  refine Ends.ite ?_ ?_
  (extract_lets +onlyGivenNames x; refine Ends.cut (x := x) (s := s0) ?_ (fun _ => ?_) <;> [subst x; clear_value x])
  refine State_setLocks_keeps ?_
  assumption
  refine State_countLocks_keeps ?_
  refine State_addFld_keeps ?_
  assumption
  assumption
  (extract_lets +onlyGivenNames x; clear_value x)
  refine Ends.ite ?_ ?_
  refine State_requestLock_keeps ?_
  assumption
  refine State_setLocks_keeps ?_
  assumption

theorem State_onLockGrant_keeps {s0 : State} {s : State} {a1 : ℕ} {a2 : ℕ} {a3 : Bool} (h : Ok s0 s) : Ok s0 (State.onLockGrant s a1 a2 a3) := by
  unfold State.onLockGrant
  split
  assumption
  (extract_lets +onlyGivenNames x; clear_value x)
  (extract_lets +onlyGivenNames x; refine Ends.cut (x := x) (s := s0) ?_ (fun _ => ?_) <;> [subst x; clear_value x])
  refine State_setLocks_keeps ?_
  assumption
  (extract_lets +onlyGivenNames x; subst x)
  (extract_lets +onlyGivenNames x; refine Ends.cut (x := x) (s := s0) ?_ (fun _ => ?_) <;> [subst x; clear_value x])
  refine Ends.upd ?_
  assumption
  (extract_lets +onlyGivenNames x; refine Ends.cut (x := x) (s := s0) ?_ (fun _ => ?_) <;> [subst x; clear_value x])
  split
  refine State_maxFld_keeps ?_
  refine State_setFld_keeps ?_
  assumption
  assumption
  refine State_countLocks_keeps ?_
  refine Ends.upd ?_
  assumption

theorem State_onLockFree_keeps {s0 : State} {s : State} {a1 : ℕ} {a2 : ℕ} (h : Ok s0 s) : Ok s0 (State.onLockFree s a1 a2) := by
  unfold State.onLockFree
  (extract_lets +onlyGivenNames x; clear_value x)
  split
  assumption
  refine Ends.ite ?_ ?_
  refine State_countLocks_keeps ?_
  refine State_enterWaiters_keeps ?_
  refine State_setLocks_keeps ?_
  assumption
  refine Ends.ite ?_ ?_
  assumption
  (extract_lets +onlyGivenNames x; refine Ends.cut (x := x) (s := s0) ?_ (fun _ => ?_) <;> [subst x; clear_value x])
  refine State_unresolve_keeps ?_
  refine State_setLocks_keeps ?_
  assumption
  refine State_countLocks_keeps ?_
  refine State_send_keeps ?_
  assumption

theorem State_moveIn_keeps {s0 : State} {s : State} {a1 : ℕ} {a2 : List LockEnt} (h : Ok s0 s) : Ok s0 (State.moveIn s a1 a2) := by
  unfold State.moveIn
  (extract_lets +onlyGivenNames x; clear_value x)
  (extract_lets +onlyGivenNames x; refine Ends.cut (x := x) (s := s0) ?_ (fun _ => ?_) <;> [subst x; clear_value x])
  refine State_setLocks_keeps ?_
  assumption
  (extract_lets +onlyGivenNames x; clear_value x)
  (extract_lets +onlyGivenNames x; subst x)
  (extract_lets +onlyGivenNames x; refine Ends.cut (x := x) (s := s0) ?_ (fun _ => ?_) <;> [subst x; clear_value x])
  refine Ends.upd ?_
  assumption
  (extract_lets +onlyGivenNames x; clear_value x)
  (extract_lets +onlyGivenNames x; subst x)
  (extract_lets +onlyGivenNames x; refine Ends.cut (x := x) (s := s0) ?_ (fun _ => ?_) <;> [subst x; clear_value x])
  refine Ends.upd ?_
  assumption
  refine State_enterWaiters_keeps ?_
  refine State_log_keeps ?_
  assumption

theorem State_onLock_keeps {s0 : State} {s : State} {a1 : ℕ} {a2 : LockMsg} (h : Ok s0 s) : Ok s0 (State.onLock s a1 a2) := by
  unfold State.onLock
  split
  refine State_onLockRequest_keeps ?_
  assumption
  refine State_onLockGrant_keeps ?_
  assumption
  refine State_onLockFree_keeps ?_
  assumption
  refine State_moveIn_keeps ?_
  assumption

theorem State_askPages_keeps {s0 : State} {s : State} {a1 : Change} (h : Ok s0 s) : Ok s0 (State.askPages s a1) := by
  unfold State.askPages
  (extract_lets +onlyGivenNames x; clear_value x)
  refine Ends.fold ?_ (fun _ _ _ => ?_)
  assumption
  refine Ends.ite ?_ ?_
  assumption
  refine Ends.projL ?_
  refine State_firstEnter_keeps ?_
  assumption

theorem State_runChanges_keeps {s0 : State} {s : State} {a1 : ℕ} (h : Ok s0 s) : Ok s0 (State.runChanges s a1) := by
  induction a1 generalizing s
  · rw [State.runChanges.eq_1]
    assumption
  · rename_i ih
    rw [State.runChanges.eq_2]
    split
    assumption
    (extract_lets +onlyGivenNames x; refine Ends.cut (x := x) (s := s0) ?_ (fun _ => ?_) <;> [subst x; clear_value x])
    refine State_askPages_keeps ?_
    assumption
    refine Ends.ite ?_ ?_
    apply ih
    refine State_applyChange_keeps ?_
    refine Ends.upd ?_
    assumption
    assumption

theorem State_onMapupd_keeps {s0 : State} {s : State} {a1 : ℕ} {a2 : ℕ} {a3 : MapChange} {a4 : ℕ} (h : Ok s0 s) : Ok s0 (State.onMapupd s a1 a2 a3 a4) := by
  unfold State.onMapupd
  (extract_lets +onlyGivenNames x; subst x; beta_reduce)
  split
  split
  refine State_partnerFaulty_keeps ?_
  refine State_event_keeps ?_
  assumption
  split
  (extract_lets +onlyGivenNames x; subst x)
  (extract_lets +onlyGivenNames x; refine Ends.cut (x := x) (s := s0) ?_ (fun _ => ?_) <;> [subst x; clear_value x])
  refine Ends.upd ?_
  refine State_filterDelete_keeps ?_
  assumption
  (extract_lets +onlyGivenNames x; refine Ends.cut (x := x) (s := s0) ?_ (fun _ => ?_) <;> [subst x; clear_value x])
  refine State_runChanges_keeps ?_
  assumption
  refine Ends.ite ?_ ?_
  refine Ends.upd ?_
  assumption
  assumption
  (extract_lets +onlyGivenNames x; subst x)
  (extract_lets +onlyGivenNames x; refine Ends.cut (x := x) (s := s0) ?_ (fun _ => ?_) <;> [subst x; clear_value x])
  refine Ends.upd ?_
  assumption
  refine State_runChanges_keeps ?_
  assumption
  (extract_lets +onlyGivenNames x; subst x)
  (extract_lets +onlyGivenNames x; refine Ends.cut (x := x) (s := s0) ?_ (fun _ => ?_) <;> [subst x; clear_value x])
  refine Ends.upd ?_
  assumption
  refine State_runChanges_keeps ?_
  assumption
  refine Ends.ite ?_ ?_
  refine State_partnerFaulty_keeps ?_
  refine State_event_keeps ?_
  assumption
  (extract_lets +onlyGivenNames x; subst x)
  (extract_lets +onlyGivenNames x; refine Ends.cut (x := x) (s := s0) ?_ (fun _ => ?_) <;> [subst x; clear_value x])
  refine Ends.upd ?_
  assumption
  split
  refine Ends.ite ?_ ?_
  refine State_setLine_keeps ?_
  assumption
  assumption
  assumption
  refine Ends.upd ?_
  assumption

theorem State_setRange_keeps {s0 : State} {s : State} {a1 : ℕ} {a2 : RangeOp} (h : Ok s0 s) : Ok s0 (State.setRange s a1 a2) := by
  unfold State.setRange
  refine Ends.upd ?_
  assumption

theorem State_rangeStep_keeps {s0 : State} {s : State} {a1 : ℕ} {a2 : ℕ} {a3 : Bool} {a4 : ℕ} (h : Ok s0 s) : Ok s0 (State.rangeStep s a1 a2 a3 a4) := by
  unfold State.rangeStep
  split
  refine State_setRange_keeps ?_
  assumption
  assumption

theorem State_stopPin_keeps {s0 : State} {s : State} {a1 : ℕ} {a2 : List ℕ} (h : Ok s0 s) : Ok s0 (State.stopPin s a1 a2) := by
  unfold State.stopPin
  split
  refine State_setRange_keeps ?_
  assumption
  assumption

theorem State_loadPin_keeps {s0 : State} {s : State} {a1 : ℕ} {a2 : List ℕ} (h : Ok s0 s) : Ok s0 (State.loadPin s a1 a2) := by
  induction a2 generalizing s a1
  · rw [State.loadPin.eq_1]
    assumption
  · rename_i ih
    rw [State.loadPin.eq_2]
    split
    refine Ends.ite ?_ ?_
    refine State_stopPin_keeps ?_
    assumption
    (extract_lets +onlyGivenNames x; refine Ends.cut (x := x) (s := s0) ?_ (fun _ => ?_) <;> [subst x; clear_value x])
    refine State_setLine_keeps ?_
    assumption
    apply ih
    refine Ends.ite ?_ ?_
    refine State_rangeStep_keeps ?_
    assumption
    assumption
    refine Ends.ite ?_ ?_
    refine State_stopPin_keeps ?_
    assumption
    (extract_lets +onlyGivenNames x; refine Ends.cut (x := x) (s := s0) ?_ (fun _ => ?_) <;> [subst x; clear_value x])
    refine Ends.projL ?_
    refine State_firstEnter_keeps ?_
    assumption
    apply ih
    refine Ends.ite ?_ ?_
    refine State_rangeStep_keeps ?_
    assumption
    assumption

theorem State_startRangeOn_keeps {s0 : State} {s : State} {a1 : ℕ} {a2 : ℕ} {a3 : ℕ} {a4 : ℕ} (h : Ok s0 s) : Ok s0 (State.startRangeOn s a1 a2 a3 a4) := by
  unfold State.startRangeOn
  (extract_lets +onlyGivenNames x; clear_value x)
  refine Ends.ite ?_ ?_
  assumption
  refine Ends.ite ?_ ?_
  refine State_setFlag_keeps ?_
  assumption
  (extract_lets +onlyGivenNames x; clear_value x)
  (extract_lets +onlyGivenNames x; refine Ends.cut (x := x) (s := s0) ?_ (fun _ => ?_) <;> [subst x; clear_value x])
  refine State_setFlag_keeps ?_
  assumption
  (extract_lets +onlyGivenNames x; refine Ends.cut (x := x) (s := s0) ?_ (fun _ => ?_) <;> [subst x; clear_value x])
  refine State_setRange_keeps ?_
  assumption
  (extract_lets +onlyGivenNames x; subst x; beta_reduce)
  (extract_lets +onlyGivenNames x; clear_value x)
  (extract_lets +onlyGivenNames x; subst x; beta_reduce)
  split
  refine Ends.fold ?_ (fun _ _ _ => ?_)
  refine State_setRange_keeps ?_
  assumption
  refine Ends.ite ?_ ?_
  refine State_writePage_keeps ?_
  assumption
  assumption
  refine Ends.fold ?_ (fun _ _ _ => ?_)
  assumption
  split
  refine Ends.ite ?_ ?_
  refine State_rangeStep_keeps ?_
  refine State_dropLine_keeps ?_
  assumption
  refine State_rangeStep_keeps ?_
  assumption
  refine State_rangeStep_keeps ?_
  assumption
  (extract_lets +onlyGivenNames x; refine Ends.cut (x := x) (s := s0) ?_ (fun _ => ?_) <;> [subst x; clear_value x])
  refine Ends.fold ?_ (fun _ _ _ => ?_)
  refine State_setRange_keeps ?_
  assumption
  refine Ends.ite ?_ ?_
  refine State_writePage_keeps ?_
  assumption
  assumption
  refine Ends.fold ?_ (fun _ _ _ => ?_)
  assumption
  split
  refine Ends.ite ?_ ?_
  refine State_rangeStep_keeps ?_
  refine State_dropLine_keeps ?_
  assumption
  refine State_rangeStep_keeps ?_
  assumption
  refine State_rangeStep_keeps ?_
  assumption
  (extract_lets +onlyGivenNames x; clear_value x)
  refine State_loadPin_keeps ?_
  refine State_setRange_keeps ?_
  assumption
  refine Ends.fold ?_ (fun _ _ _ => ?_)
  assumption
  split
  refine Ends.ite ?_ ?_
  refine State_rangeStep_keeps ?_
  refine State_setLine_keeps ?_
  assumption
  assumption
  assumption
  (extract_lets +onlyGivenNames x; subst x)
  (extract_lets +onlyGivenNames x; refine Ends.cut (x := x) (s := s0) ?_ (fun _ => ?_) <;> [subst x; clear_value x])
  refine Ends.upd ?_
  assumption
  (extract_lets +onlyGivenNames x; clear_value x)
  refine Ends.fold ?_ (fun _ _ _ => ?_)
  refine State_setRange_keeps ?_
  assumption
  split
  (extract_lets +onlyGivenNames x; refine Ends.cut (x := x) (s := s0) ?_ (fun _ => ?_) <;> [subst x; clear_value x])
  refine State_setLine_keeps ?_
  assumption
  refine Ends.ite ?_ ?_
  refine State_rangeStep_keeps ?_
  assumption
  assumption
  split
  refine Ends.ite ?_ ?_
  refine State_rangeStep_keeps ?_
  refine Ends.ofL (by assumption) ?_
  refine State_firstEnter_keeps ?_
  assumption
  refine Ends.ofL (by assumption) ?_
  refine State_firstEnter_keeps ?_
  assumption
  refine Ends.ofL (by assumption) ?_
  refine State_firstEnter_keeps ?_
  assumption
  assumption

theorem State_beginSync_keeps {s0 : State} {s : State} (h : Ok s0 s) : Ok s0 (State.beginSync s) := by
  unfold State.beginSync
  (extract_lets +onlyGivenNames x; subst x)
  (extract_lets +onlyGivenNames x; refine Ends.cut (x := x) (s := s0) ?_ (fun _ => ?_) <;> [subst x; clear_value x])
  refine Ends.upd ?_
  assumption
  (extract_lets +onlyGivenNames x; refine Ends.cut (x := x) (s := s0) ?_ (fun _ => ?_) <;> [subst x; clear_value x])
  refine Ends.fold ?_ (fun _ _ _ => ?_)
  assumption
  refine State_startRangeOn_keeps ?_
  assumption
  (extract_lets +onlyGivenNames x; clear_value x)
  (extract_lets +onlyGivenNames x; refine Ends.cut (x := x) (s := s0) ?_ (fun _ => ?_) <;> [subst x; clear_value x])
  refine Ends.fold ?_ (fun _ _ _ => ?_)
  assumption
  refine State_send_keeps ?_
  assumption
  (extract_lets +onlyGivenNames x; refine Ends.cut (x := x) (s := s0) ?_ (fun _ => ?_) <;> [subst x; clear_value x])
  refine Ends.fold ?_ (fun _ _ _ => ?_)
  assumption
  refine State_sendShadow_keeps ?_
  assumption
  (extract_lets +onlyGivenNames x; refine Ends.cut (x := x) (s := s0) ?_ (fun _ => ?_) <;> [subst x; clear_value x])
  refine State_send_keeps ?_
  assumption
  refine Ends.fold ?_ (fun _ _ _ => ?_)
  assumption
  (extract_lets +onlyGivenNames x; clear_value x)
  refine State_send_keeps ?_
  assumption

theorem State_joinerAnswer_keeps {s0 : State} {s : State} {a1 : Option (Bytes × Bytes)} (h : Ok s0 s) : Ok s0 (State.joinerAnswer s a1) := by
  unfold State.joinerAnswer
  refine Ends.ite ?_ ?_
  assumption
  (extract_lets +onlyGivenNames x; refine Ends.cut (x := x) (s := s0) ?_ (fun _ => ?_) <;> [subst x; clear_value x])
  split
  refine State_send_keeps ?_
  refine Ends.upd ?_
  assumption
  assumption
  refine State_beginSync_keeps ?_
  refine Ends.upd ?_
  assumption

theorem State_copyRec_keeps {s0 : State} {s : State} {a1 : ℕ} {a2 : JRec} (h : Ok s0 s) : Ok s0 (State.copyRec s a1 a2) := by
  unfold State.copyRec
  (extract_lets +onlyGivenNames x; refine Ends.cut (x := x) (s := s0) ?_ (fun _ => ?_) <;> [subst x; clear_value x])
  refine State_putRec_keeps ?_
  assumption
  refine Ends.ite ?_ ?_
  refine State_setJent_keeps ?_
  assumption
  assumption

theorem State_onSync_keeps {s0 : State} {s : State} {a1 : SyncBody} (h : Ok s0 s) : Ok s0 (State.onSync s a1) := by
  unfold State.onSync
  split
  refine State_joinerAnswer_keeps ?_
  assumption
  refine Ends.ite ?_ ?_
  assumption
  split
  refine Ends.upd ?_
  assumption
  refine State_send_keeps ?_
  assumption
  split
  refine State_log_keeps ?_
  refine State_setAwk_keeps ?_
  assumption
  assumption
  refine State_copyRec_keeps ?_
  assumption
  assumption

theorem State_onShadow_keeps {s0 : State} {s : State} {a1 : Bool} {a2 : QpExport} {a3 : Option Ctrl} {a4 : Option Queue} (h : Ok s0 s) : Ok s0 (State.onShadow s a1 a2 a3 a4) := by
  unfold State.onShadow
  refine Ends.ite ?_ ?_
  (extract_lets +onlyGivenNames x; clear_value x)
  (extract_lets +onlyGivenNames x; clear_value x)
  (extract_lets +onlyGivenNames x; clear_value x)
  refine Ends.upd ?_
  assumption
  (extract_lets +onlyGivenNames x; clear_value x)
  (extract_lets +onlyGivenNames x; clear_value x)
  refine Ends.upd ?_
  assumption

theorem State_applyMsg_keeps {s0 : State} {s : State} {a1 : ℕ} {a2 : ℕ} {a3 : ℕ} {a4 : ChlMsg} (h : Ok s0 s) : Ok s0 (State.applyMsg s a1 a2 a3 a4) := by
  unfold State.applyMsg
  split
  refine State_onHeartbeat_keeps ?_
  assumption
  refine State_timeExchange_keeps ?_
  assumption
  refine State_onNotice_keeps ?_
  assumption
  refine State_onHandover_keeps ?_
  assumption
  refine State_onShardset_keeps ?_
  assumption
  refine State_onCapsule_keeps ?_
  assumption
  refine State_onLedger_keeps ?_
  assumption
  refine State_onJwrite_keeps ?_
  assumption
  refine State_onRelease_keeps ?_
  assumption
  refine State_onLock_keeps ?_
  assumption
  refine State_onMapupd_keeps ?_
  assumption
  refine State_onSync_keeps ?_
  assumption
  refine State_onShadow_keeps ?_
  assumption

theorem State_askJoiner_keeps {s0 : State} {s : State} (h : Ok s0 s) : Ok s0 (State.askJoiner s) := by
  unfold State.askJoiner
  refine Ends.ite ?_ ?_
  refine State_beginSync_keeps ?_
  assumption
  split
  refine State_send_keeps ?_
  refine Ends.upd ?_
  refine Ends.ofR (by assumption) ?_
  refine State_random_keeps ?_
  assumption

theorem State_exchange_keeps {s0 : State} {s : State} {a1 : ℕ} {a2 : SfbReq} (h : Ok s0 s) : Ok s0 (State.exchange s a1 a2) := by
  unfold State.exchange
  (extract_lets +onlyGivenNames x; clear_value x)
  (extract_lets +onlyGivenNames x; clear_value x)
  (extract_lets +onlyGivenNames x; refine Ends.cut (x := x) (s := s0) ?_ (fun _ => ?_) <;> [subst x; clear_value x])
  refine State_emitSfb_keeps ?_
  assumption
  (extract_lets +onlyGivenNames x; clear_value x)
  refine State_setSport_keeps ?_
  assumption

theorem State_timingRegs_keeps {s0 : State} {s : State} {a1 : ℕ} (h : Ok s0 s) : Ok s0 (State.timingRegs s a1) := by
  unfold State.timingRegs
  (extract_lets +onlyGivenNames x; clear_value x)
  (extract_lets +onlyGivenNames x; clear_value x)
  (extract_lets +onlyGivenNames x; clear_value x)
  refine State_setFld_keeps ?_
  refine State_setFld_keeps ?_
  refine State_setFld_keeps ?_
  refine State_setFld_keeps ?_
  assumption

theorem State_returnBlocks_keeps {s0 : State} {s : State} {a1 : ℕ} (h : Ok s0 s) : Ok s0 (State.returnBlocks s a1) := by
  unfold State.returnBlocks
  (extract_lets +onlyGivenNames x; clear_value x)
  (extract_lets +onlyGivenNames x; subst x)
  (extract_lets +onlyGivenNames x; subst x)
  (extract_lets +onlyGivenNames x; refine Ends.cut (x := x) (s := s0) ?_ (fun _ => ?_) <;> [subst x; clear_value x])
  refine Ends.upd ?_
  assumption
  (extract_lets +onlyGivenNames x; clear_value x)
  refine Ends.fold ?_ (fun _ _ _ => ?_)
  assumption
  refine State_eraseBlock_keeps ?_
  assumption

theorem State_attach_keeps {s0 : State} {s : State} {a1 : ℕ} {a2 : ℤ} {a3 : List DiePage} (h : Ok s0 s) : Ok s0 (State.attach s a1 a2 a3) := by
  unfold State.attach
  (extract_lets +onlyGivenNames x; clear_value x)
  refine Ends.ite ?_ ?_
  refine State_event_keeps ?_
  assumption
  (extract_lets +onlyGivenNames x; clear_value x)
  (extract_lets +onlyGivenNames x; refine Ends.cut (x := x) (s := s0) ?_ (fun _ => ?_) <;> [subst x; clear_value x])
  refine State_exchange_keeps ?_
  assumption
  (extract_lets +onlyGivenNames x; refine Ends.cut (x := x) (s := s0) ?_ (fun _ => ?_) <;> [subst x; clear_value x])
  refine Ends.fold ?_ (fun _ _ _ => ?_)
  assumption
  (extract_lets +onlyGivenNames x; clear_value x)
  (extract_lets +onlyGivenNames x; refine Ends.cut (x := x) (s := s0) ?_ (fun _ => ?_) <;> [subst x; clear_value x])
  refine State_exchange_keeps ?_
  refine State_exchange_keeps ?_
  assumption
  (extract_lets +onlyGivenNames x; clear_value x)
  (extract_lets +onlyGivenNames x; clear_value x)
  (extract_lets +onlyGivenNames x; clear_value x)
  (extract_lets +onlyGivenNames x; clear_value x)
  (extract_lets +onlyGivenNames x; refine Ends.cut (x := x) (s := s0) ?_ (fun _ => ?_) <;> [subst x; clear_value x])
  split
  refine State_exchange_keeps ?_
  assumption
  assumption
  (extract_lets +onlyGivenNames x; refine Ends.cut (x := x) (s := s0) ?_ (fun _ => ?_) <;> [subst x; clear_value x])
  refine Ends.ite ?_ ?_
  assumption
  refine State_event_keeps ?_
  assumption
  (extract_lets +onlyGivenNames x; subst x)
  (extract_lets +onlyGivenNames x; refine Ends.cut (x := x) (s := s0) ?_ (fun _ => ?_) <;> [subst x; clear_value x])
  refine Ends.upd ?_
  assumption
  refine Ends.ite ?_ ?_
  assumption
  (extract_lets +onlyGivenNames x; subst x)
  (extract_lets +onlyGivenNames x; refine Ends.cut (x := x) (s := s0) ?_ (fun _ => ?_) <;> [subst x; clear_value x])
  refine State_exchange_keeps ?_
  refine Ends.upd ?_
  assumption
  refine Ends.fold ?_ (fun _ _ _ => ?_)
  assumption
  refine State_dropBlock_keeps ?_
  assumption
  (extract_lets +onlyGivenNames x; clear_value x)
  (extract_lets +onlyGivenNames x; refine Ends.cut (x := x) (s := s0) ?_ (fun _ => ?_) <;> [subst x; clear_value x])
  refine State_setCpFlag_keeps ?_
  assumption
  (extract_lets +onlyGivenNames x; refine Ends.cut (x := x) (s := s0) ?_ (fun _ => ?_) <;> [subst x; clear_value x])
  refine State_setCpFlag_keeps ?_
  assumption
  (extract_lets +onlyGivenNames x; refine Ends.cut (x := x) (s := s0) ?_ (fun _ => ?_) <;> [subst x; clear_value x])
  refine State_setCpFlag_keeps ?_
  assumption
  (extract_lets +onlyGivenNames x; refine Ends.cut (x := x) (s := s0) ?_ (fun _ => ?_) <;> [subst x; clear_value x])
  refine State_setCpFlag_keeps ?_
  assumption
  (extract_lets +onlyGivenNames x; refine Ends.cut (x := x) (s := s0) ?_ (fun _ => ?_) <;> [subst x; clear_value x])
  refine State_setCpFld_keeps ?_
  assumption
  (extract_lets +onlyGivenNames x; refine Ends.cut (x := x) (s := s0) ?_ (fun _ => ?_) <;> [subst x; clear_value x])
  refine State_timingRegs_keeps ?_
  refine State_setCpFld_keeps ?_
  assumption
  (extract_lets +onlyGivenNames x; clear_value x)
  (extract_lets +onlyGivenNames x; clear_value x)
  (extract_lets +onlyGivenNames x; subst x)
  (extract_lets +onlyGivenNames x; refine Ends.cut (x := x) (s := s0) ?_ (fun _ => ?_) <;> [subst x; clear_value x])
  refine Ends.upd ?_
  assumption
  (extract_lets +onlyGivenNames x; refine Ends.cut (x := x) (s := s0) ?_ (fun _ => ?_) <;> [subst x; clear_value x])
  refine Ends.ite ?_ ?_
  refine State_returnBlocks_keeps ?_
  assumption
  assumption
  refine State_journalRegs_keeps ?_
  refine State_addSpare_keeps ?_
  refine State_checkSpare_keeps ?_
  refine Ends.ite ?_ ?_
  refine State_erasePending_keeps ?_
  assumption
  assumption

theorem State_badBatch_keeps {s0 : State} {s : State} {a1 : ℕ} (h : Ok s0 s) : Ok s0 (State.badBatch s a1) := by
  unfold State.badBatch
  (extract_lets +onlyGivenNames x; refine Ends.cut (x := x) (s := s0) ?_ (fun _ => ?_) <;> [subst x; clear_value x])
  refine State_abandonBatch_keeps ?_
  assumption
  split
  assumption
  refine State_exc_keeps ?_
  assumption

theorem State_badControl_keeps {s0 : State} {s : State} {a1 : ℕ} (h : Ok s0 s) : Ok s0 (State.badControl s a1) := by
  unfold State.badControl
  (extract_lets +onlyGivenNames x; clear_value x)
  (extract_lets +onlyGivenNames x; clear_value x)
  (extract_lets +onlyGivenNames x; clear_value x)
  (extract_lets +onlyGivenNames x; refine Ends.cut (x := x) (s := s0) ?_ (fun _ => ?_) <;> [subst x; clear_value x])
  refine State_setFport_keeps ?_
  assumption
  refine Ends.ite ?_ ?_
  refine State_event_keeps ?_
  assumption
  assumption

theorem State_beforeRead_keeps {s0 : State} {s : State} {a1 : ℕ} {a2 : ℕ} {a3 : ℕ} (h : Ok s0 s) : Ok s0 (State.beforeRead s a1 a2 a3) := by
  unfold State.beforeRead
  refine Ends.ite ?_ ?_
  refine State_accrueHold_keeps ?_
  assumption
  assumption

theorem State_cutOn_keeps {s0 : State} {s : State} {a1 : ℕ} {a2 : Bytes} (h : Ok s0 s) : Ends (fun p : State × List Bytes => Keeps s0 p.1) (State.cutOn s a1 a2) := by
  unfold State.cutOn
  (extract_lets +onlyGivenNames x; clear_value x)
  refine Ends.fst ?_
  refine State_addFld_keeps ?_
  refine State_addFld_keeps ?_
  assumption

theorem State_beginDestage_keeps {s0 : State} {s : State} {a1 : JEnt} (h : Ok s0 s) : Ok s0 (State.beginDestage s a1) := by
  unfold State.beginDestage
  (extract_lets +onlyGivenNames x; clear_value x)
  (extract_lets +onlyGivenNames x; clear_value x)
  (extract_lets +onlyGivenNames x; clear_value x)
  (extract_lets +onlyGivenNames x; clear_value x)
  (extract_lets +onlyGivenNames x; clear_value x)
  split
  assumption
  (extract_lets +onlyGivenNames x; clear_value x)
  split
  assumption
  split
  (extract_lets +onlyGivenNames x; clear_value x)
  (extract_lets +onlyGivenNames x; clear_value x)
  (extract_lets +onlyGivenNames x; refine Ends.cut (x := x) (s := s0) ?_ (fun _ => ?_) <;> [subst x; clear_value x])
  refine State_addFld_keeps ?_
  refine Ends.ofL (by assumption) ?_
  refine Ends.ite ?_ ?_
  refine Ends.fst ?_
  assumption
  refine Ends.ite ?_ ?_
  refine State_cutOn_keeps ?_
  assumption
  refine Ends.fst ?_
  assumption
  (extract_lets +onlyGivenNames x; clear_value x)
  (extract_lets +onlyGivenNames x; clear_value x)
  (extract_lets +onlyGivenNames x; clear_value x)
  (extract_lets +onlyGivenNames x; subst x)
  (extract_lets +onlyGivenNames x; refine Ends.cut (x := x) (s := s0) ?_ (fun _ => ?_) <;> [subst x; clear_value x])
  refine Ends.upd ?_
  assumption
  (extract_lets +onlyGivenNames x; refine Ends.cut (x := x) (s := s0) ?_ (fun _ => ?_) <;> [subst x; clear_value x])
  refine State_setJob_keeps ?_
  assumption
  (extract_lets +onlyGivenNames x; refine Ends.cut (x := x) (s := s0) ?_ (fun _ => ?_) <;> [subst x; clear_value x])
  refine Ends.fold ?_ (fun _ _ _ => ?_)
  assumption
  split
  refine State_setJent_keeps ?_
  assumption
  assumption
  refine Ends.ite ?_ ?_
  refine State_tryTxn_keeps ?_
  assumption
  refine State_exc_keeps ?_
  assumption

theorem State_bindQueue_keeps {s0 : State} {s : State} {a1 : ℕ} {a2 : ℕ} {a3 : ℕ} {a4 : ℕ} (h : Ok s0 s) : Ends (fun p : State × ℕ => Keeps s0 p.1) (State.bindQueue s a1 a2 a3 a4) := by
  unfold State.bindQueue
  split
  refine Ends.fst ?_
  assumption
  (extract_lets +onlyGivenNames x; clear_value x)
  (extract_lets +onlyGivenNames x; clear_value x)
  (extract_lets +onlyGivenNames x; refine Ends.cut (x := x) (s := s0) ?_ (fun _ => ?_) <;> [subst x; clear_value x])
  refine Ends.ite ?_ ?_
  refine State_addFld_keeps ?_
  assumption
  assumption
  (extract_lets +onlyGivenNames x; clear_value x)
  (extract_lets +onlyGivenNames x; clear_value x)
  (extract_lets +onlyGivenNames x; clear_value x)
  (extract_lets +onlyGivenNames x; refine Ends.cut (x := x) (s := s0) ?_ (fun _ => ?_) <;> [subst x; clear_value x])
  refine State_setQp_keeps ?_
  assumption
  refine Ends.fst ?_
  assumption

theorem State_setTemp_keeps {s0 : State} {s : State} {a1 : ℕ} {a2 : DieTemp} (h : Ok s0 s) : Ok s0 (State.setTemp s a1 a2) := by
  unfold State.setTemp
  refine Ends.upd ?_
  assumption

theorem State_railsUp_keeps {s0 : State} {s : State} {a1 : List ℕ} (h : Ok s0 s) : Ok s0 (State.railsUp s a1) := by
  unfold State.railsUp
  refine Ends.fold ?_ (fun _ _ _ => ?_)
  assumption
  refine State_setTemp_keeps ?_
  assumption

theorem State_finishErase_keeps {s0 : State} {s : State} (h : Ok s0 s) : Ok s0 (State.finishErase s) := by
  unfold State.finishErase
  refine Ends.ite ?_ ?_
  refine State_clearedRecord_keeps ?_
  assumption
  refine State_scanEvents_keeps ?_
  assumption

theorem State_rejectSlot_keeps {s0 : State} {s : State} {a1 : ℕ} {a2 : ℕ} (h : Ok s0 s) : Ok s0 (State.rejectSlot s a1 a2) := by
  unfold State.rejectSlot
  (extract_lets +onlyGivenNames x; subst x)
  (extract_lets +onlyGivenNames x; refine Ends.cut (x := x) (s := s0) ?_ (fun _ => ?_) <;> [subst x; clear_value x])
  refine State_writeHdr_keeps ?_
  assumption
  refine State_setFld_keeps ?_
  refine State_resetB_keeps ?_
  assumption

theorem State_putResult_keeps {s0 : State} {s : State} {a1 : ℕ} {a2 : ℕ} {a3 : ℕ} {a4 : Bytes} {a5 : Bool} {a6 : Bool} {a7 : Bool} {a8 : Bool} {a9 : ℕ} (h : Ok s0 s) : Ok s0 (State.putResult s a1 a2 a3 a4 a5 a6 a7 a8 a9) := by
  unfold State.putResult
  (extract_lets +onlyGivenNames x; clear_value x)
  (extract_lets +onlyGivenNames x; refine Ends.cut (x := x) (s := s0) ?_ (fun _ => ?_) <;> [subst x; clear_value x])
  refine Ends.fold ?_ (fun _ _ _ => ?_)
  assumption
  refine State_setFld_keeps ?_
  assumption
  (extract_lets +onlyGivenNames x; refine Ends.cut (x := x) (s := s0) ?_ (fun _ => ?_) <;> [subst x; clear_value x])
  refine State_setFlag_keeps ?_
  refine State_setFld_keeps ?_
  assumption
  (extract_lets +onlyGivenNames x; refine Ends.cut (x := x) (s := s0) ?_ (fun _ => ?_) <;> [subst x; clear_value x])
  refine State_setFlag_keeps ?_
  refine State_setFlag_keeps ?_
  assumption
  (extract_lets +onlyGivenNames x; refine Ends.cut (x := x) (s := s0) ?_ (fun _ => ?_) <;> [subst x; clear_value x])
  refine State_setFlag_keeps ?_
  refine State_setFld_keeps ?_
  assumption
  refine State_setFlag_keeps ?_
  refine State_addFld_keeps ?_
  assumption

theorem State_measure_keeps {s0 : State} {s : State} {a1 : ℕ} {a2 : Bytes} (h : Ok s0 s) : Ok s0 (State.measure s a1 a2) := by
  unfold State.measure
  refine State_putResult_keeps ?_
  refine State_setFlag_keeps ?_
  assumption

theorem State_norFlush_keeps {s0 : State} {s : State} (h : Ok s0 s) : Ok s0 (State.norFlush s) := by
  unfold State.norFlush
  refine Ends.ite ?_ ?_
  assumption
  (extract_lets +onlyGivenNames x; refine Ends.cut (x := x) (s := s0) ?_ (fun _ => ?_) <;> [subst x; clear_value x])
  refine State_writeHeld_keeps ?_
  assumption
  (extract_lets +onlyGivenNames x; clear_value x)
  (extract_lets +onlyGivenNames x; subst x)
  (extract_lets +onlyGivenNames x; subst x)
  (extract_lets +onlyGivenNames x; refine Ends.cut (x := x) (s := s0) ?_ (fun _ => ?_) <;> [subst x; clear_value x])
  refine Ends.upd ?_
  assumption
  refine Ends.upd ?_
  assumption

theorem State_mfwRuns_keeps {s0 : State} {s : State} (h : Ok s0 s) : Ok s0 (State.mfwRuns s) := by
  unfold State.mfwRuns
  (extract_lets +onlyGivenNames x; clear_value x)
  refine State_mfwEvent_keeps ?_
  refine State_norFlush_keeps ?_
  assumption

theorem State_startRest_keeps {s0 : State} {s : State} {a1 : StartIn} (h : Ok s0 s) : Ok s0 (State.startRest s a1) := by
  unfold State.startRest
  (extract_lets +onlyGivenNames x; clear_value x)
  (extract_lets +onlyGivenNames x; clear_value x)
  (extract_lets +onlyGivenNames x; clear_value x)
  (extract_lets +onlyGivenNames x; clear_value x)
  (extract_lets +onlyGivenNames x; clear_value x)
  (extract_lets +onlyGivenNames x; clear_value x)
  refine Ends.ite ?_ ?_
  refine State_rejectSlot_keeps ?_
  assumption
  (extract_lets +onlyGivenNames x; refine Ends.cut (x := x) (s := s0) ?_ (fun _ => ?_) <;> [subst x; clear_value x])
  refine State_setFld_keeps ?_
  refine State_measure_keeps ?_
  assumption
  (extract_lets +onlyGivenNames x; refine Ends.cut (x := x) (s := s0) ?_ (fun _ => ?_) <;> [subst x; clear_value x])
  refine State_setFld_keeps ?_
  assumption
  (extract_lets +onlyGivenNames x; refine Ends.cut (x := x) (s := s0) ?_ (fun _ => ?_) <;> [subst x; clear_value x])
  refine Ends.fold ?_ (fun _ _ _ => ?_)
  assumption
  (extract_lets +onlyGivenNames x; clear_value x)
  refine State_setFld_keeps ?_
  refine State_setFlag_keeps ?_
  refine State_setFlag_keeps ?_
  assumption
  refine Ends.ite ?_ ?_
  (extract_lets +onlyGivenNames x; refine Ends.cut (x := x) (s := s0) ?_ (fun _ => ?_) <;> [subst x; clear_value x])
  refine State_setFlag_keeps ?_
  refine State_setFlag_keeps ?_
  assumption
  refine State_setPhase_keeps ?_
  refine State_event_keeps ?_
  assumption
  (extract_lets +onlyGivenNames x; refine Ends.cut (x := x) (s := s0) ?_ (fun _ => ?_) <;> [subst x; clear_value x])
  refine State_railsUp_keeps ?_
  assumption
  (extract_lets +onlyGivenNames x; clear_value x)
  refine Ends.ite ?_ ?_
  refine State_rejectSlot_keeps ?_
  assumption
  (extract_lets +onlyGivenNames x; refine Ends.cut (x := x) (s := s0) ?_ (fun _ => ?_) <;> [subst x; clear_value x])
  refine State_setFld_keeps ?_
  refine State_measure_keeps ?_
  assumption
  (extract_lets +onlyGivenNames x; refine Ends.cut (x := x) (s := s0) ?_ (fun _ => ?_) <;> [subst x; clear_value x])
  refine State_setFlag_keeps ?_
  assumption
  (extract_lets +onlyGivenNames x; refine Ends.cut (x := x) (s := s0) ?_ (fun _ => ?_) <;> [subst x; clear_value x])
  refine State_stores_keeps ?_
  refine State_stores_keeps ?_
  assumption
  (extract_lets +onlyGivenNames x; clear_value x)
  (extract_lets +onlyGivenNames x; subst x)
  (extract_lets +onlyGivenNames x; refine Ends.cut (x := x) (s := s0) ?_ (fun _ => ?_) <;> [subst x; clear_value x])
  refine Ends.upd ?_
  assumption
  (extract_lets +onlyGivenNames x; refine Ends.cut (x := x) (s := s0) ?_ (fun _ => ?_) <;> [subst x; clear_value x])
  refine State_applyConfig_keeps ?_
  assumption
  (extract_lets +onlyGivenNames x; refine Ends.cut (x := x) (s := s0) ?_ (fun _ => ?_) <;> [subst x; clear_value x])
  refine State_setFld_keeps ?_
  assumption
  (extract_lets +onlyGivenNames x; refine Ends.cut (x := x) (s := s0) ?_ (fun _ => ?_) <;> [subst x; clear_value x])
  refine Ends.fold ?_ (fun _ _ _ => ?_)
  assumption
  refine State_setFlag_keeps ?_
  assumption
  refine State_setPhase_keeps ?_
  assumption

theorem State_startSlot_keeps {s0 : State} {s : State} {a1 : StartIn} {a2 : ℕ} {a3 : Bool} (h : Ok s0 s) : Ok s0 (State.startSlot s a1 a2 a3) := by
  unfold State.startSlot
  (extract_lets +onlyGivenNames x; clear_value x)
  (extract_lets +onlyGivenNames x; clear_value x)
  (extract_lets +onlyGivenNames x; clear_value x)
  (extract_lets +onlyGivenNames x; refine Ends.cut (x := x) (s := s0) ?_ (fun _ => ?_) <;> [subst x; clear_value x])
  refine State_setFlag_keeps ?_
  refine State_setFld_keeps ?_
  assumption
  refine Ends.ite ?_ ?_
  refine State_rejectSlot_keeps ?_
  assumption
  refine Ends.ite ?_ ?_
  refine State_rejectSlot_keeps ?_
  assumption
  refine Ends.ite ?_ ?_
  refine State_setPhase_keeps ?_
  assumption
  (extract_lets +onlyGivenNames x; refine Ends.cut (x := x) (s := s0) ?_ (fun _ => ?_) <;> [subst x; clear_value x])
  refine State_setFlag_keeps ?_
  assumption
  (extract_lets +onlyGivenNames x; clear_value x)
  refine Ends.ite ?_ ?_
  refine State_rejectSlot_keeps ?_
  assumption
  (extract_lets +onlyGivenNames x; refine Ends.cut (x := x) (s := s0) ?_ (fun _ => ?_) <;> [subst x; clear_value x])
  refine State_setFld_keeps ?_
  refine State_measure_keeps ?_
  assumption
  (extract_lets +onlyGivenNames x; clear_value x)
  (extract_lets +onlyGivenNames x; subst x)
  (extract_lets +onlyGivenNames x; refine Ends.cut (x := x) (s := s0) ?_ (fun _ => ?_) <;> [subst x; clear_value x])
  refine Ends.upd ?_
  assumption
  (extract_lets +onlyGivenNames x; refine Ends.cut (x := x) (s := s0) ?_ (fun _ => ?_) <;> [subst x; clear_value x])
  refine State_mfwRuns_keeps ?_
  assumption
  refine Ends.ite ?_ ?_
  refine State_setPhase_keeps ?_
  assumption
  refine Ends.ite ?_ ?_
  refine State_setPhase_keeps ?_
  assumption
  refine State_startRest_keeps ?_
  assumption

theorem State_bootRom_keeps {s0 : State} {s : State} {a1 : StartIn} (h : Ok s0 s) : Ok s0 (State.bootRom s a1) := by
  unfold State.bootRom
  (extract_lets +onlyGivenNames x; refine Ends.cut (x := x) (s := s0) ?_ (fun _ => ?_) <;> [subst x; clear_value x])
  refine State_railsUp_keeps ?_
  refine State_setFlag_keeps ?_
  assumption
  (extract_lets +onlyGivenNames x; refine Ends.cut (x := x) (s := s0) ?_ (fun _ => ?_) <;> [subst x; clear_value x])
  refine State_showOtp_keeps ?_
  refine State_finishErase_keeps ?_
  assumption
  (extract_lets +onlyGivenNames x; clear_value x)
  (extract_lets +onlyGivenNames x; subst x; beta_reduce)
  (extract_lets +onlyGivenNames x; refine Ends.cut (x := x) (s := s0) ?_ (fun _ => ?_) <;> [subst x; clear_value x])
  refine Ends.fold ?_ (fun _ _ _ => ?_)
  assumption
  refine State_showReason_keeps ?_
  assumption
  (extract_lets +onlyGivenNames x; subst x; beta_reduce)
  split
  (extract_lets +onlyGivenNames x; clear_value x)
  refine State_startSlot_keeps ?_
  refine State_writeHdr_keeps ?_
  assumption
  (extract_lets +onlyGivenNames x; refine Ends.cut (x := x) (s := s0) ?_ (fun _ => ?_) <;> [subst x; clear_value x])
  refine Ends.fold ?_ (fun _ _ _ => ?_)
  assumption
  refine State_writeHdr_keeps ?_
  assumption
  split
  refine State_startSlot_keeps ?_
  assumption
  refine State_startSlot_keeps ?_
  assumption
  refine State_startSlot_keeps ?_
  assumption
  refine State_setPhase_keeps ?_
  assumption

theorem State_setEligible_keeps {s0 : State} {s : State} {a1 : ℕ} (h : Ok s0 s) : Ok s0 (State.setEligible s a1) := by
  unfold State.setEligible
  refine Ends.fold ?_ (fun _ _ _ => ?_)
  assumption
  (extract_lets +onlyGivenNames x; clear_value x)
  (extract_lets +onlyGivenNames x; clear_value x)
  refine State_addFld_keeps ?_
  refine State_setShadow_keeps ?_
  refine State_setActive_keeps ?_
  assumption

theorem State_c0Next_keeps {s0 : State} {s : State} (h : Ok s0 s) : Ok s0 (State.c0Next s) := by
  unfold State.c0Next
  refine Ends.ite ?_ ?_
  assumption
  (extract_lets +onlyGivenNames x; clear_value x)
  split
  assumption
  (extract_lets +onlyGivenNames x; subst x; beta_reduce)
  (extract_lets +onlyGivenNames x; clear_value x)
  (extract_lets +onlyGivenNames x; subst x; beta_reduce)
  split
  refine Ends.upd ?_
  refine Ends.fold ?_ (fun _ _ _ => ?_)
  assumption
  refine State_startRangeOn_keeps ?_
  assumption
  refine Ends.ite ?_ ?_
  refine Ends.upd ?_
  refine Ends.fold ?_ (fun _ _ _ => ?_)
  assumption
  refine State_startRangeOn_keeps ?_
  assumption
  refine Ends.upd ?_
  assumption
  refine Ends.ite ?_ ?_
  refine Ends.upd ?_
  refine State_setEligible_keeps ?_
  assumption
  refine Ends.upd ?_
  assumption

theorem State_cacheCtx_keeps {s0 : State} {s : State} {a1 : ℕ} (h : Ok s0 s) : Ok s0 (State.cacheCtx s a1) := by
  unfold State.cacheCtx
  split
  assumption
  (extract_lets +onlyGivenNames x; clear_value x)
  (extract_lets +onlyGivenNames x; subst x)
  (extract_lets +onlyGivenNames x; refine Ends.cut (x := x) (s := s0) ?_ (fun _ => ?_) <;> [subst x; clear_value x])
  refine Ends.upd ?_
  assumption
  (extract_lets +onlyGivenNames x; refine Ends.cut (x := x) (s := s0) ?_ (fun _ => ?_) <;> [subst x; clear_value x])
  refine State_setQp_keeps ?_
  assumption
  (extract_lets +onlyGivenNames x; clear_value x)
  refine Ends.ite ?_ ?_
  assumption
  (extract_lets +onlyGivenNames x; clear_value x)
  split
  refine State_setQp_keeps ?_
  assumption
  assumption

theorem State_capPut_keeps {s0 : State} {s : State} {a1 : ℕ} {a2 : CapRec} {a3 : Bytes} (h : Ok s0 s) : Ok s0 (State.capPut s a1 a2 a3) := by
  unfold State.capPut
  (extract_lets +onlyGivenNames x; clear_value x)
  (extract_lets +onlyGivenNames x; clear_value x)
  (extract_lets +onlyGivenNames x; clear_value x)
  (extract_lets +onlyGivenNames x; refine Ends.cut (x := x) (s := s0) ?_ (fun _ => ?_) <;> [subst x; clear_value x])
  refine State_stores_keeps ?_
  refine State_stores_keeps ?_
  assumption
  refine Ends.upd ?_
  assumption

theorem State_capWrite_keeps {s0 : State} {s : State} {a1 : ℕ} {a2 : CapRec} (h : Ok s0 s) : Ok s0 (State.capWrite s a1 a2) := by
  unfold State.capWrite
  (extract_lets +onlyGivenNames x; clear_value x)
  refine Ends.elim ?_ (fun _ => ?_)
  refine State_capPut_keeps ?_
  assumption
  refine State_channelFault_keeps ?_
  refine State_setFlag_keeps ?_
  refine State_setFlag_keeps ?_
  assumption

theorem State_capture_keeps {s0 : State} {s : State} {a1 : ℕ} {a2 : CapRec} (h : Ok s0 s) : Ok s0 (State.capture s a1 a2) := by
  unfold State.capture
  (extract_lets +onlyGivenNames x; clear_value x)
  (extract_lets +onlyGivenNames x; clear_value x)
  refine Ends.ite ?_ ?_
  assumption
  refine Ends.ite ?_ ?_
  refine State_setFlag_keeps ?_
  refine Ends.ite ?_ ?_
  assumption
  refine State_capWrite_keeps ?_
  assumption
  refine Ends.ite ?_ ?_
  (extract_lets +onlyGivenNames x; refine Ends.cut (x := x) (s := s0) ?_ (fun _ => ?_) <;> [subst x; clear_value x])
  refine State_addFld_keeps ?_
  assumption
  refine Ends.upd ?_
  assumption
  (extract_lets +onlyGivenNames x; clear_value x)
  (extract_lets +onlyGivenNames x; refine Ends.cut (x := x) (s := s0) ?_ (fun _ => ?_) <;> [subst x; clear_value x])
  refine State_capWrite_keeps ?_
  assumption
  (extract_lets +onlyGivenNames x; subst x)
  (extract_lets +onlyGivenNames x; refine Ends.cut (x := x) (s := s0) ?_ (fun _ => ?_) <;> [subst x; clear_value x])
  refine Ends.ite ?_ ?_
  assumption
  refine Ends.upd ?_
  assumption
  refine State_capWrite_keeps ?_
  assumption

theorem State_capStart_keeps {s0 : State} {s : State} {a1 : ℕ} (h : Ok s0 s) : Ok s0 (State.capStart s a1) := by
  unfold State.capStart
  (extract_lets +onlyGivenNames x; refine Ends.cut (x := x) (s := s0) ?_ (fun _ => ?_) <;> [subst x; clear_value x])
  refine State_setFlag_keeps ?_
  assumption
  (extract_lets +onlyGivenNames x; subst x)
  (extract_lets +onlyGivenNames x; refine Ends.cut (x := x) (s := s0) ?_ (fun _ => ?_) <;> [subst x; clear_value x])
  refine Ends.upd ?_
  assumption
  refine State_capture_keeps ?_
  assumption

theorem State_capsuleAcked_keeps {s0 : State} {s : State} {a1 : ℕ} {a2 : ℕ} (h : Ok s0 s) : Ok s0 (State.capsuleAcked s a1 a2) := by
  unfold State.capsuleAcked
  (extract_lets +onlyGivenNames x; refine Ends.cut (x := x) (s := s0) ?_ (fun _ => ?_) <;> [subst x; clear_value x])
  split
  refine State_setCmd_keeps ?_
  assumption
  assumption
  split
  assumption
  (extract_lets +onlyGivenNames x; clear_value x)
  split
  refine State_sendAck_keeps ?_
  assumption
  assumption

theorem State_changeNow_keeps {s0 : State} {s : State} {a1 : MetaChange} (h : Ok s0 s) : Ok s0 (State.changeNow s a1) := by
  unfold State.changeNow
  refine State_applyMeta_keeps ?_
  refine State_log_keeps ?_
  assumption

theorem State_tryTxns_keeps {s0 : State} {s : State} (h : Ok s0 s) : Ok s0 (State.tryTxns s) := by
  unfold State.tryTxns
  refine Ends.fold ?_ (fun _ _ _ => ?_)
  assumption
  refine State_tryTxn_keeps ?_
  assumption

theorem State_changesNext_keeps {s0 : State} {s : State} (h : Ok s0 s) : Ok s0 (State.changesNext s) := by
  unfold State.changesNext
  refine Ends.ite ?_ ?_
  assumption
  (extract_lets +onlyGivenNames x; refine Ends.cut (x := x) (s := s0) ?_ (fun _ => ?_) <;> [subst x; clear_value x])
  refine State_runChanges_keeps ?_
  assumption
  refine State_tryTxns_keeps ?_
  refine Ends.upd ?_
  assumption

theorem State_coreFault_keeps {s0 : State} {s : State} {a1 : ℕ} {a2 : ℕ} {a3 : ℕ} {a4 : ℕ} {a5 : AccKind} {a6 : ℕ} (h : Ok s0 s) : Ok s0 (State.coreFault s a1 a2 a3 a4 a5 a6) := by
  unfold State.coreFault
  (extract_lets +onlyGivenNames x; clear_value x)
  (extract_lets +onlyGivenNames x; refine Ends.cut (x := x) (s := s0) ?_ (fun _ => ?_) <;> [subst x; clear_value x])
  refine State_logFault_keeps ?_
  assumption
  refine Ends.upd ?_
  assumption

theorem State_checkAccess_keeps {s0 : State} {s : State} {a1 : Requester} {a2 : ℕ} {a3 : ℕ} {a4 : AccKind} (h : Ok s0 s) : Ends (fun p : Bool × State => Keeps s0 p.2) (State.checkAccess s a1 a2 a3 a4) := by
  unfold State.checkAccess
  (extract_lets +onlyGivenNames x; clear_value x)
  split
  refine Ends.ite ?_ ?_
  refine Ends.snd ?_
  (extract_lets +onlyGivenNames x; refine Ends.cut (x := x) (s := s0) ?_ (fun _ => ?_) <;> [subst x; clear_value x])
  refine State_emit_keeps ?_
  assumption
  refine Ends.upd ?_
  assumption
  refine Ends.snd ?_
  assumption
  split
  refine Ends.snd ?_
  refine State_coreFault_keeps ?_
  assumption
  refine Ends.ite ?_ ?_
  refine Ends.snd ?_
  refine State_coreFault_keeps ?_
  assumption
  refine Ends.snd ?_
  assumption

theorem State_chlDrain_keeps {s0 : State} {s : State} {a1 : ℕ} (h : Ok s0 s) : Ok s0 (State.chlDrain s a1) := by
  unfold State.chlDrain
  refine State_drainGroup_keeps ?_
  assumption

theorem State_chlCrcError_keeps {s0 : State} {s : State} {a1 : ℕ} {a2 : ℕ} {a3 : Bool} (h : Ok s0 s) : Ok s0 (State.chlCrcError s a1 a2 a3) := by
  unfold State.chlCrcError
  (extract_lets +onlyGivenNames x; clear_value x)
  (extract_lets +onlyGivenNames x; clear_value x)
  (extract_lets +onlyGivenNames x; clear_value x)
  (extract_lets +onlyGivenNames x; clear_value x)
  refine State_addFld_keeps ?_
  refine State_setGroup_keeps ?_
  assumption

theorem State_updAcked_keeps {s0 : State} {s : State} {a1 : MapChange} {a2 : ℕ} (h : Ok s0 s) : Ok s0 (State.updAcked s a1 a2) := by
  unfold State.updAcked
  (extract_lets +onlyGivenNames x; subst x)
  (extract_lets +onlyGivenNames x; refine Ends.cut (x := x) (s := s0) ?_ (fun _ => ?_) <;> [subst x; clear_value x])
  split
  (extract_lets +onlyGivenNames x; clear_value x)
  refine Ends.upd ?_
  assumption
  assumption
  (extract_lets +onlyGivenNames x; clear_value x)
  (extract_lets +onlyGivenNames x; subst x)
  (extract_lets +onlyGivenNames x; refine Ends.cut (x := x) (s := s0) ?_ (fun _ => ?_) <;> [subst x; clear_value x])
  refine Ends.upd ?_
  assumption
  (extract_lets +onlyGivenNames x; clear_value x)
  refine Ends.upd ?_
  assumption

theorem State_onAcked_keeps {s0 : State} {s : State} {a1 : TxMsg} (h : Ok s0 s) : Ok s0 (State.onAcked s a1) := by
  unfold State.onAcked
  split
  refine State_capsuleAcked_keeps ?_
  assumption
  split
  refine Ends.ite ?_ ?_
  refine State_setCmd_keeps ?_
  assumption
  assumption
  assumption
  split
  refine State_setJent_keeps ?_
  assumption
  assumption
  refine State_updAcked_keeps ?_
  assumption
  assumption

theorem State_chlHead_keeps {s0 : State} {s : State} {a1 : ℕ} {a2 : Bytes} (h : Ok s0 s) : Ok s0 (State.chlHead s a1 a2) := by
  unfold State.chlHead
  (extract_lets +onlyGivenNames x; clear_value x)
  (extract_lets +onlyGivenNames x; clear_value x)
  (extract_lets +onlyGivenNames x; clear_value x)
  (extract_lets +onlyGivenNames x; clear_value x)
  (extract_lets +onlyGivenNames x; clear_value x)
  (extract_lets +onlyGivenNames x; clear_value x)
  (extract_lets +onlyGivenNames x; refine Ends.cut (x := x) (s := s0) ?_ (fun _ => ?_) <;> [subst x; clear_value x])
  refine State_setGroup_keeps ?_
  assumption
  (extract_lets +onlyGivenNames x; refine Ends.cut (x := x) (s := s0) ?_ (fun _ => ?_) <;> [subst x; clear_value x])
  refine Ends.ite ?_ ?_
  assumption
  refine State_setFlag_keeps ?_
  assumption
  refine Ends.fold ?_ (fun _ _ _ => ?_)
  assumption
  refine State_onAcked_keeps ?_
  assumption

theorem State_chlControl_keeps {s0 : State} {s : State} {a1 : ChlHdr} {a2 : ℕ} {a3 : State → State} (h : Ok s0 s) (h3 : ∀ x0, Ok s0 x0 → Ok s0 (a3 x0)) : Ok s0 (State.chlControl s a1 a2 a3) := by
  unfold State.chlControl
  refine State_chlDrain_keeps ?_
  refine Ends.fold ?_ (fun _ _ _ => ?_)
  assumption
  refine Ends.ite ?_ ?_
  assumption
  refine Ends.ite ?_ ?_
  refine State_chlCrcError_keeps ?_
  assumption
  (extract_lets +onlyGivenNames x; refine Ends.cut (x := x) (s := s0) ?_ (fun _ => ?_) <;> [subst x; clear_value x])
  refine State_chlHead_keeps ?_
  assumption
  refine Ends.ite ?_ ?_
  refine h3 _ ?_
  assumption
  refine State_event_keeps ?_
  refine State_addFld_keeps ?_
  assumption

theorem State_controlFrame_keeps {s0 : State} {s : State} {a1 : ℕ} {a2 : ℕ} {a3 : Bytes → Out} (h : Ok s0 s) : Ok s0 (State.controlFrame s a1 a2 a3) := by
  unfold State.controlFrame
  (extract_lets +onlyGivenNames x; clear_value x)
  refine State_emit_keeps ?_
  refine State_setGroup_keeps ?_
  assumption

theorem State_sendChlNak_keeps {s0 : State} {s : State} {a1 : ℕ} (h : Ok s0 s) : Ok s0 (State.sendChlNak s a1) := by
  unfold State.sendChlNak
  (extract_lets +onlyGivenNames x; clear_value x)
  (extract_lets +onlyGivenNames x; clear_value x)
  refine State_controlFrame_keeps ?_
  refine State_setGroup_keeps ?_
  assumption

theorem State_chlNoCredit_keeps {s0 : State} {s : State} {a1 : ℕ} (h : Ok s0 s) : Ok s0 (State.chlNoCredit s a1) := by
  unfold State.chlNoCredit
  (extract_lets +onlyGivenNames x; clear_value x)
  (extract_lets +onlyGivenNames x; clear_value x)
  (extract_lets +onlyGivenNames x; refine Ends.cut (x := x) (s := s0) ?_ (fun _ => ?_) <;> [subst x; clear_value x])
  refine State_addFld_keeps ?_
  refine State_setGroup_keeps ?_
  assumption
  refine Ends.ite ?_ ?_
  refine State_groupLost_keeps ?_
  assumption
  assumption

theorem State_chlFrame_keeps {s0 : State} {s : State} {a1 : ℕ} {a2 : Bytes} {a3 : ChlMsg} (h : Ok s0 s) : Ok s0 (State.chlFrame s a1 a2 a3) := by
  unfold State.chlFrame
  (extract_lets +onlyGivenNames x; clear_value x)
  (extract_lets +onlyGivenNames x; clear_value x)
  (extract_lets +onlyGivenNames x; clear_value x)
  (extract_lets +onlyGivenNames x; clear_value x)
  refine Ends.ite ?_ ?_
  assumption
  refine Ends.ite ?_ ?_
  refine State_sendChlNak_keeps ?_
  assumption
  refine Ends.ite ?_ ?_
  refine State_chlNoCredit_keeps ?_
  assumption
  refine State_setGroup_keeps ?_
  assumption

theorem State_deliver_keeps {s0 : State} {s : State} {a1 : ℕ} {a2 : List Bytes} {a3 : ChlMsg} (h : Ok s0 s) : Ok s0 (State.deliver s a1 a2 a3) := by
  unfold State.deliver
  (extract_lets +onlyGivenNames x; clear_value x)
  refine Ends.ite ?_ ?_
  refine State_event_keeps ?_
  refine State_addFld_keeps ?_
  assumption
  refine Ends.ite ?_ ?_
  refine State_event_keeps ?_
  assumption
  refine Ends.ite ?_ ?_
  refine State_addFld_keeps ?_
  assumption
  refine State_applyMsg_keeps ?_
  assumption

theorem State_chlRun_keeps {s0 : State} {s : State} {a1 : ℕ} {a2 : ℕ} (h : Ok s0 s) : Ok s0 (State.chlRun s a1 a2) := by
  induction a2 generalizing s a1
  · rw [State.chlRun.eq_1]
    assumption
  · rename_i ih
    rw [State.chlRun.eq_2]
    split
    (extract_lets +onlyGivenNames x; clear_value x)
    (extract_lets +onlyGivenNames x; refine Ends.cut (x := x) (s := s0) ?_ (fun _ => ?_) <;> [subst x; clear_value x])
    refine State_setGroup_keeps ?_
    assumption
    apply ih
    refine State_deliver_keeps ?_
    assumption
    refine State_setGroup_keeps ?_
    assumption

theorem State_chlFrames_keeps {s0 : State} {s : State} {a1 : ℕ} {a2 : ChlMsg} {a3 : List (ℕ × Bytes)} (h : Ok s0 s) : Ok s0 (State.chlFrames s a1 a2 a3) := by
  induction a3 generalizing s a1 a2
  · rw [State.chlFrames.eq_1]
    assumption
  · rename_i ih
    rw [State.chlFrames.eq_2]
    apply ih
    refine Ends.ite ?_ ?_
    assumption
    refine Ends.ite ?_ ?_
    refine State_chlCrcError_keeps ?_
    assumption
    refine Ends.ite ?_ ?_
    refine State_chlRun_keeps ?_
    refine State_chlFrame_keeps ?_
    refine State_chlHead_keeps ?_
    assumption
    refine State_chlFrame_keeps ?_
    refine State_chlHead_keeps ?_
    assumption

theorem State_chlMsg_keeps {s0 : State} {s : State} {a1 : ChlHdr} {a2 : ChlMsg} (h : Ok s0 s) : Ok s0 (State.chlMsg s a1 a2) := by
  unfold State.chlMsg
  refine State_chlDrain_keeps ?_
  refine State_chlFrames_keeps ?_
  assumption

theorem State_chlTrain_keeps {s0 : State} {s : State} {a1 : ℕ} {a2 : ℕ} {a3 : ℕ} (h : Ok s0 s) : Ok s0 (State.chlTrain s a1 a2 a3) := by
  unfold State.chlTrain
  (extract_lets +onlyGivenNames x; clear_value x)
  (extract_lets +onlyGivenNames x; clear_value x)
  (extract_lets +onlyGivenNames x; clear_value x)
  refine Ends.ite ?_ ?_
  assumption
  (extract_lets +onlyGivenNames x; clear_value x)
  (extract_lets +onlyGivenNames x; refine Ends.cut (x := x) (s := s0) ?_ (fun _ => ?_) <;> [subst x; clear_value x])
  refine State_setFld_keeps ?_
  assumption
  (extract_lets +onlyGivenNames x; clear_value x)
  refine Ends.ite ?_ ?_
  assumption
  refine State_setFlag_keeps ?_
  refine State_setGroup_keeps ?_
  assumption

theorem State_claimLost_keeps {s0 : State} {s : State} {a1 : Claim} (h : Ok s0 s) : Ok s0 (State.claimLost s a1) := by
  unfold State.claimLost
  split
  refine State_enter_keeps ?_
  refine State_setLast_keeps ?_
  refine Ends.upd ?_
  assumption
  refine State_enter_keeps ?_
  refine State_setLast_keeps ?_
  refine Ends.upd ?_
  assumption
  refine State_startClaim_keeps ?_
  refine Ends.upd ?_
  assumption

theorem State_leaseWon_keeps {s0 : State} {s : State} (h : Ok s0 s) : Ok s0 (State.leaseWon s) := by
  unfold State.leaseWon
  refine Ends.ite ?_ ?_
  refine State_setFlag_keeps ?_
  refine Ends.upd ?_
  assumption
  assumption

theorem State_takeover_keeps {s0 : State} {s : State} {a1 : ℕ} {a2 : ℕ} {a3 : ℕ} {a4 : MediaImage} (h : Ok s0 s) : Ok s0 (State.takeover s a1 a2 a3 a4) := by
  unfold State.takeover
  (extract_lets +onlyGivenNames x; clear_value x)
  (extract_lets +onlyGivenNames x; refine Ends.cut (x := x) (s := s0) ?_ (fun _ => ?_) <;> [subst x; clear_value x])
  refine State_alone_keeps ?_
  refine State_enter_keeps ?_
  refine State_setLast_keeps ?_
  assumption
  (extract_lets +onlyGivenNames x; subst x)
  (extract_lets +onlyGivenNames x; refine Ends.cut (x := x) (s := s0) ?_ (fun _ => ?_) <;> [subst x; clear_value x])
  refine Ends.upd ?_
  assumption
  refine Ends.ite ?_ ?_
  refine State_adopt_keeps ?_
  assumption
  (extract_lets +onlyGivenNames x; subst x)
  (extract_lets +onlyGivenNames x; refine Ends.cut (x := x) (s := s0) ?_ (fun _ => ?_) <;> [subst x; clear_value x])
  refine Ends.upd ?_
  assumption
  (extract_lets +onlyGivenNames x; refine Ends.cut (x := x) (s := s0) ?_ (fun _ => ?_) <;> [subst x; clear_value x])
  refine State_setFlag_keeps ?_
  assumption
  refine State_post_keeps ?_
  assumption

theorem State_emits_keeps {s0 : State} {s : State} {a1 : List Out} (h : Ok s0 s) : Ok s0 (State.emits s a1) := by
  unfold State.emits
  refine Ends.upd ?_
  assumption

theorem State_takeBack_keeps {s0 : State} {s : State} {a1 : ℕ} {a2 : List ℕ} (h : Ok s0 s) : Ok s0 (State.takeBack s a1 a2) := by
  unfold State.takeBack
  (extract_lets +onlyGivenNames x; refine Ends.cut (x := x) (s := s0) ?_ (fun _ => ?_) <;> [subst x; clear_value x])
  refine State_setLast_keeps ?_
  assumption
  (extract_lets +onlyGivenNames x; clear_value x)
  (extract_lets +onlyGivenNames x; clear_value x)
  (extract_lets +onlyGivenNames x; refine Ends.cut (x := x) (s := s0) ?_ (fun _ => ?_) <;> [subst x; clear_value x])
  refine Ends.projR ?_
  refine State_adoptQps_keeps ?_
  assumption
  (extract_lets +onlyGivenNames x; refine Ends.cut (x := x) (s := s0) ?_ (fun _ => ?_) <;> [subst x; clear_value x])
  refine Ends.fold ?_ (fun _ _ _ => ?_)
  assumption
  refine State_emits_keeps ?_
  assumption
  (extract_lets +onlyGivenNames x; refine Ends.cut (x := x) (s := s0) ?_ (fun _ => ?_) <;> [subst x; clear_value x])
  refine Ends.fold ?_ (fun _ _ _ => ?_)
  assumption
  refine State_greetQp_keeps ?_
  assumption
  refine State_setFld_keeps ?_
  assumption

theorem State_nextChunks_keeps {s0 : State} {s : State} (h : Ok s0 s) : Ok s0 (State.nextChunks s) := by
  unfold State.nextChunks
  refine Ends.upd ?_
  assumption

theorem State_loadMedia_keeps {s0 : State} {s : State} {a1 : MediaImage} (h : Ok s0 s) : Ok s0 (State.loadMedia s a1) := by
  unfold State.loadMedia
  (extract_lets +onlyGivenNames x; clear_value x)
  (extract_lets +onlyGivenNames x; clear_value x)
  (extract_lets +onlyGivenNames x; clear_value x)
  (extract_lets +onlyGivenNames x; clear_value x)
  (extract_lets +onlyGivenNames x; clear_value x)
  (extract_lets +onlyGivenNames x; clear_value x)
  (extract_lets +onlyGivenNames x; clear_value x)
  (extract_lets +onlyGivenNames x; subst x)
  (extract_lets +onlyGivenNames x; refine Ends.cut (x := x) (s := s0) ?_ (fun _ => ?_) <;> [subst x; clear_value x])
  refine Ends.upd ?_
  assumption
  (extract_lets +onlyGivenNames x; refine Ends.cut (x := x) (s := s0) ?_ (fun _ => ?_) <;> [subst x; clear_value x])
  refine Ends.fold ?_ (fun _ _ _ => ?_)
  assumption
  refine State_setNewest_keeps ?_
  assumption
  (extract_lets +onlyGivenNames x; refine Ends.cut (x := x) (s := s0) ?_ (fun _ => ?_) <;> [subst x; clear_value x])
  refine Ends.fold ?_ (fun _ _ _ => ?_)
  assumption
  refine State_event_keeps ?_
  assumption
  refine State_setFld_keeps ?_
  assumption

theorem State_lose_keeps {s0 : State} {s : State} {a1 : List DefEnt} {a2 : Mark} (h : Ok s0 s) : Ok s0 (State.lose s a1 a2) := by
  unfold State.lose
  refine Ends.ite ?_ ?_
  assumption
  split
  (extract_lets +onlyGivenNames x; clear_value x)
  (extract_lets +onlyGivenNames x; clear_value x)
  refine State_changeNow_keeps ?_
  assumption

theorem State_takeJournal_keeps {s0 : State} {s : State} {a1 : MediaImage} {a2 : List (ℕ × ℕ)} (h : Ok s0 s) : Ok s0 (State.takeJournal s a1 a2) := by
  unfold State.takeJournal
  (extract_lets +onlyGivenNames x; clear_value x)
  (extract_lets +onlyGivenNames x; clear_value x)
  (extract_lets +onlyGivenNames x; clear_value x)
  (extract_lets +onlyGivenNames x; clear_value x)
  (extract_lets +onlyGivenNames x; clear_value x)
  (extract_lets +onlyGivenNames x; clear_value x)
  (extract_lets +onlyGivenNames x; clear_value x)
  (extract_lets +onlyGivenNames x; clear_value x)
  (extract_lets +onlyGivenNames x; clear_value x)
  (extract_lets +onlyGivenNames x; clear_value x)
  (extract_lets +onlyGivenNames x; refine Ends.cut (x := x) (s := s0) ?_ (fun _ => ?_) <;> [subst x; clear_value x])
  refine Ends.fold ?_ (fun _ _ _ => ?_)
  assumption
  refine State_event_keeps ?_
  assumption
  (extract_lets +onlyGivenNames x; subst x)
  (extract_lets +onlyGivenNames x; subst x)
  (extract_lets +onlyGivenNames x; refine Ends.cut (x := x) (s := s0) ?_ (fun _ => ?_) <;> [subst x; clear_value x])
  refine Ends.upd ?_
  assumption
  (extract_lets +onlyGivenNames x; clear_value x)
  (extract_lets +onlyGivenNames x; clear_value x)
  (extract_lets +onlyGivenNames x; refine Ends.cut (x := x) (s := s0) ?_ (fun _ => ?_) <;> [subst x; clear_value x])
  refine State_journalRegs_keeps ?_
  refine State_dropPartial_keeps ?_
  assumption
  refine State_lose_keeps ?_
  assumption

theorem State_recover_keeps {s0 : State} {s : State} {a1 : MediaImage} (h : Ok s0 s) : Ok s0 (State.recover s a1) := by
  unfold State.recover
  (extract_lets +onlyGivenNames x; clear_value x)
  (extract_lets +onlyGivenNames x; refine Ends.cut (x := x) (s := s0) ?_ (fun _ => ?_) <;> [subst x; clear_value x])
  refine State_nextChunks_keeps ?_
  refine State_replay_keeps ?_
  refine State_loadMedia_keeps ?_
  assumption
  (extract_lets +onlyGivenNames x; refine Ends.cut (x := x) (s := s0) ?_ (fun _ => ?_) <;> [subst x; clear_value x])
  refine Ends.ite ?_ ?_
  refine State_event_keeps ?_
  refine State_setReadOnly_keeps ?_
  assumption
  assumption
  (extract_lets +onlyGivenNames x; refine Ends.cut (x := x) (s := s0) ?_ (fun _ => ?_) <;> [subst x; clear_value x])
  refine State_takeJournal_keeps ?_
  assumption
  (extract_lets +onlyGivenNames x; subst x)
  (extract_lets +onlyGivenNames x; refine Ends.cut (x := x) (s := s0) ?_ (fun _ => ?_) <;> [subst x; clear_value x])
  refine Ends.upd ?_
  assumption
  (extract_lets +onlyGivenNames x; refine Ends.cut (x := x) (s := s0) ?_ (fun _ => ?_) <;> [subst x; clear_value x])
  refine State_resumeWork_keeps ?_
  refine State_sealOpens_keeps ?_
  assumption
  (extract_lets +onlyGivenNames x; refine Ends.cut (x := x) (s := s0) ?_ (fun _ => ?_) <;> [subst x; clear_value x])
  refine State_resumeReshape_keeps ?_
  refine State_resumeRebuild_keeps ?_
  assumption
  refine State_startCkpt_keeps ?_
  refine State_updateFree_keeps ?_
  assumption

theorem State_claimWon_keeps {s0 : State} {s : State} {a1 : Claim} {a2 : MediaImage} (h : Ok s0 s) : Ok s0 (State.claimWon s a1 a2) := by
  unfold State.claimWon
  (extract_lets +onlyGivenNames x; subst x)
  (extract_lets +onlyGivenNames x; refine Ends.cut (x := x) (s := s0) ?_ (fun _ => ?_) <;> [subst x; clear_value x])
  refine Ends.upd ?_
  assumption
  (extract_lets +onlyGivenNames x; refine Ends.cut (x := x) (s := s0) ?_ (fun _ => ?_) <;> [subst x; clear_value x])
  refine State_setFld_keeps ?_
  refine State_setFld_keeps ?_
  assumption
  (extract_lets +onlyGivenNames x; refine Ends.cut (x := x) (s := s0) ?_ (fun _ => ?_) <;> [subst x; clear_value x])
  refine State_leaseWon_keeps ?_
  refine State_tell_keeps ?_
  assumption
  split
  refine State_takeover_keeps ?_
  assumption
  refine Ends.ite ?_ ?_
  refine State_takeBack_keeps ?_
  assumption
  refine State_takeover_keeps ?_
  assumption
  (extract_lets +onlyGivenNames x; refine Ends.cut (x := x) (s := s0) ?_ (fun _ => ?_) <;> [subst x; clear_value x])
  refine Ends.ite ?_ ?_
  assumption
  refine State_recover_keeps ?_
  assumption
  refine State_resumeFrees_keeps ?_
  refine State_enter_keeps ?_
  refine State_adoptShards_keeps ?_
  assumption
  refine State_recover_keeps ?_
  assumption
  (extract_lets +onlyGivenNames x; refine Ends.cut (x := x) (s := s0) ?_ (fun _ => ?_) <;> [subst x; clear_value x])
  refine State_enterTwin_keeps ?_
  assumption
  refine Ends.upd ?_
  assumption

theorem State_claimReply_keeps {s0 : State} {s : State} {a1 : ℕ} {a2 : ℕ} {a3 : Bool} {a4 : MediaImage} (h : Ok s0 s) : Ok s0 (State.claimReply s a1 a2 a3 a4) := by
  unfold State.claimReply
  split
  assumption
  refine Ends.ite ?_ ?_
  assumption
  (extract_lets +onlyGivenNames x; refine Ends.cut (x := x) (s := s0) ?_ (fun _ => ?_) <;> [subst x; clear_value x])
  refine Ends.ite ?_ ?_
  refine State_event_keeps ?_
  assumption
  assumption
  (extract_lets +onlyGivenNames x; clear_value x)
  (extract_lets +onlyGivenNames x; clear_value x)
  (extract_lets +onlyGivenNames x; subst x)
  (extract_lets +onlyGivenNames x; refine Ends.cut (x := x) (s := s0) ?_ (fun _ => ?_) <;> [subst x; clear_value x])
  refine Ends.upd ?_
  assumption
  refine Ends.ite ?_ ?_
  refine State_claimWon_keeps ?_
  assumption
  refine Ends.ite ?_ ?_
  refine State_claimLost_keeps ?_
  assumption
  assumption

theorem State_clearLost_keeps {s0 : State} {s : State} {a1 : ℕ} {a2 : ℕ} {a3 : Bool} (h : Ok s0 s) : Ok s0 (State.clearLost s a1 a2 a3) := by
  unfold State.clearLost
  (extract_lets +onlyGivenNames x; subst x)
  (extract_lets +onlyGivenNames x; refine Ends.cut (x := x) (s := s0) ?_ (fun _ => ?_) <;> [subst x; clear_value x])
  refine Ends.ite ?_ ?_
  refine Ends.upd ?_
  assumption
  assumption
  (extract_lets +onlyGivenNames x; clear_value x)
  (extract_lets +onlyGivenNames x; refine Ends.cut (x := x) (s := s0) ?_ (fun _ => ?_) <;> [subst x; clear_value x])
  refine Ends.fold ?_ (fun _ _ _ => ?_)
  assumption
  refine State_setDie_keeps ?_
  assumption
  (extract_lets +onlyGivenNames x; refine Ends.cut (x := x) (s := s0) ?_ (fun _ => ?_) <;> [subst x; clear_value x])
  split
  split
  refine Ends.ite ?_ ?_
  refine State_rebuildAbandon_keeps ?_
  assumption
  assumption
  assumption
  assumption
  (extract_lets +onlyGivenNames x; clear_value x)
  refine State_rebuildNext_keeps ?_
  refine Ends.upd ?_
  assumption

theorem State_setLog_keeps {s0 : State} {s : State} {a1 : ℕ} {a2 : List FaultRec} (h : Ok s0 s) : Ok s0 (State.setLog s a1 a2) := by
  unfold State.setLog
  refine Ends.upd ?_
  assumption

theorem State_dropFault_keeps {s0 : State} {s : State} {a1 : ℕ} (h : Ok s0 s) : Ok s0 (State.dropFault s a1) := by
  unfold State.dropFault
  split
  assumption
  refine State_setFld_keeps ?_
  refine State_setLog_keeps ?_
  assumption

theorem State_clearRead_keeps {s0 : State} {s : State} {a1 : ℕ} {a2 : ℕ} {a3 : ℕ} {a4 : RegDesc} {a5 : Word} (h : Ok s0 s) : Ok s0 (State.clearRead s a1 a2 a3 a4 a5) := by
  unfold State.clearRead
  refine Ends.ite ?_ ?_
  refine Ends.upd ?_
  assumption
  refine Ends.ite ?_ ?_
  refine State_dropFault_keeps ?_
  assumption
  refine State_setReg_keeps ?_
  assumption

theorem State_logCounters_keeps {s0 : State} {s : State} (h : Ok s0 s) : Ok s0 (State.logCounters s) := by
  unfold State.logCounters
  refine Ends.ite ?_ ?_
  refine Ends.upd ?_
  assumption
  refine Ends.upd ?_
  assumption

theorem State_closeDump_keeps {s0 : State} {s : State} {a1 : Dump} {a2 : ℕ} {a3 : Bool} {a4 : Bool} {a5 : List ℕ} {a6 : List ℕ} (h : Ok s0 s) : Ok s0 (State.closeDump s a1 a2 a3 a4 a5 a6) := by
  unfold State.closeDump
  (extract_lets +onlyGivenNames x; clear_value x)
  (extract_lets +onlyGivenNames x; clear_value x)
  (extract_lets +onlyGivenNames x; clear_value x)
  (extract_lets +onlyGivenNames x; clear_value x)
  (extract_lets +onlyGivenNames x; clear_value x)
  (extract_lets +onlyGivenNames x; clear_value x)
  (extract_lets +onlyGivenNames x; clear_value x)
  (extract_lets +onlyGivenNames x; clear_value x)
  (extract_lets +onlyGivenNames x; clear_value x)
  (extract_lets +onlyGivenNames x; clear_value x)
  (extract_lets +onlyGivenNames x; subst x)
  (extract_lets +onlyGivenNames x; refine Ends.cut (x := x) (s := s0) ?_ (fun _ => ?_) <;> [subst x; clear_value x])
  refine Ends.ite ?_ ?_
  assumption
  refine Ends.fold ?_ (fun _ _ _ => ?_)
  refine Ends.upd ?_
  assumption
  refine State_emit_keeps ?_
  assumption
  (extract_lets +onlyGivenNames x; refine Ends.cut (x := x) (s := s0) ?_ (fun _ => ?_) <;> [subst x; clear_value x])
  refine State_setFld_keeps ?_
  assumption
  (extract_lets +onlyGivenNames x; refine Ends.cut (x := x) (s := s0) ?_ (fun _ => ?_) <;> [subst x; clear_value x])
  refine State_setFld_keeps ?_
  assumption
  (extract_lets +onlyGivenNames x; refine Ends.cut (x := x) (s := s0) ?_ (fun _ => ?_) <;> [subst x; clear_value x])
  refine State_setFlag_keeps ?_
  assumption
  (extract_lets +onlyGivenNames x; refine Ends.cut (x := x) (s := s0) ?_ (fun _ => ?_) <;> [subst x; clear_value x])
  refine State_setFlag_keeps ?_
  assumption
  (extract_lets +onlyGivenNames x; refine Ends.cut (x := x) (s := s0) ?_ (fun _ => ?_) <;> [subst x; clear_value x])
  refine State_setFlag_keeps ?_
  assumption
  (extract_lets +onlyGivenNames x; refine Ends.cut (x := x) (s := s0) ?_ (fun _ => ?_) <;> [subst x; clear_value x])
  refine State_setFld_keeps ?_
  assumption
  refine State_event_keeps ?_
  refine State_logCounters_keeps ?_
  assumption

theorem State_cmdClass_keeps {s0 : State} {s : State} {a1 : Cap} {a2 : Queue} {a3 : Bool} {a4 : ℕ} (h : Ok s0 s) : Ends (fun p : State × ℕ => Keeps s0 p.1) (State.cmdClass s a1 a2 a3 a4) := by
  unfold State.cmdClass
  refine Ends.ite ?_ ?_
  refine Ends.fst ?_
  assumption
  refine Ends.ite ?_ ?_
  refine Ends.fst ?_
  assumption
  refine State_admitC0_keeps ?_
  assumption

theorem State_cmt_keeps {s0 : State} {s : State} {a1 : ℕ} {a2 : Bool} {a3 : Bool} (h : Ok s0 s) : Ok s0 (State.cmt s a1 a2 a3) := by
  unfold State.cmt
  (extract_lets +onlyGivenNames x; clear_value x)
  refine Ends.ite ?_ ?_
  assumption
  refine Ends.ite ?_ ?_
  refine State_setFlag_keeps ?_
  assumption
  (extract_lets +onlyGivenNames x; clear_value x)
  (extract_lets +onlyGivenNames x; refine Ends.cut (x := x) (s := s0) ?_ (fun _ => ?_) <;> [subst x; clear_value x])
  refine Ends.ite ?_ ?_
  refine Ends.fold ?_ (fun _ _ _ => ?_)
  assumption
  refine Ends.ite ?_ ?_
  refine State_store_keeps ?_
  assumption
  assumption
  assumption
  (extract_lets +onlyGivenNames x; clear_value x)
  refine State_setFlag_keeps ?_
  refine Ends.upd ?_
  assumption

theorem State_commitBatch_keeps {s0 : State} {s : State} {a1 : ℕ} (h : Ok s0 s) : Ok s0 (State.commitBatch s a1) := by
  unfold State.commitBatch
  split
  assumption
  split
  assumption
  (extract_lets +onlyGivenNames x; clear_value x)
  refine Ends.ite ?_ ?_
  assumption
  split
  refine Ends.ite ?_ ?_
  assumption
  split
  refine State_setSess_keeps ?_
  refine Ends.ofL (by assumption) ?_
  refine State_snapCreate_keeps ?_
  assumption
  refine Ends.ofL (by assumption) ?_
  refine State_snapCreate_keeps ?_
  assumption
  split
  refine State_sendMsg_keeps ?_
  refine State_setSess_keeps ?_
  assumption
  assumption

theorem State_confirmChunk_keeps {s0 : State} {s : State} {a1 : ℕ} {a2 : ℕ} {a3 : Job} {a4 : Bytes} {a5 : ℕ} (h : Ok s0 s) : Ok s0 (State.confirmChunk s a1 a2 a3 a4 a5) := by
  unfold State.confirmChunk
  (extract_lets +onlyGivenNames x; refine Ends.cut (x := x) (s := s0) ?_ (fun _ => ?_) <;> [subst x; clear_value x])
  refine State_filterInsert_keeps ?_
  refine State_addFld_keeps ?_
  assumption
  refine State_tryTxn_keeps ?_
  refine State_packTurn_keeps ?_
  refine State_setChunk_keeps ?_
  assumption

theorem State_freshChunk_keeps {s0 : State} {s : State} {a1 : ℕ} {a2 : ℕ} {a3 : Job} {a4 : Bytes} (h : Ok s0 s) : Ok s0 (State.freshChunk s a1 a2 a3 a4) := by
  unfold State.freshChunk
  refine State_packTurn_keeps ?_
  refine State_setChunk_keeps ?_
  assumption

theorem State_compareDone_keeps {s0 : State} {s : State} {a1 : ℕ} {a2 : ℕ} {a3 : Option Bytes} (h : Ok s0 s) : Ok s0 (State.compareDone s a1 a2 a3) := by
  unfold State.compareDone
  split
  assumption
  split
  refine Ends.ite ?_ ?_
  refine State_confirmChunk_keeps ?_
  assumption
  (extract_lets +onlyGivenNames x; refine Ends.cut (x := x) (s := s0) ?_ (fun _ => ?_) <;> [subst x; clear_value x])
  refine State_addFld_keeps ?_
  assumption
  (extract_lets +onlyGivenNames x; refine Ends.cut (x := x) (s := s0) ?_ (fun _ => ?_) <;> [subst x; clear_value x])
  refine Ends.ite ?_ ?_
  refine State_event_keeps ?_
  refine State_addFld_keeps ?_
  assumption
  assumption
  refine State_freshChunk_keeps ?_
  assumption
  assumption

theorem State_putRegion_keeps {s0 : State} {s : State} {a1 : ℕ} {a2 : ℕ} {a3 : Bytes} (h : Ok s0 s) : Ok s0 (State.putRegion s a1 a2 a3) := by
  unfold State.putRegion
  refine Ends.ite ?_ ?_
  assumption
  refine State_setNorSlot_keeps ?_
  assumption

theorem State_setXfer_keeps {s0 : State} {s : State} {a1 : Option Xfer} (h : Ok s0 s) : Ok s0 (State.setXfer s a1) := by
  unfold State.setXfer
  refine Ends.upd ?_
  assumption

theorem State_completeSlot_keeps {s0 : State} {s : State} {a1 : Xfer} (h : Ok s0 s) : Ok s0 (State.completeSlot s a1) := by
  unfold State.completeSlot
  (extract_lets +onlyGivenNames x; clear_value x)
  (extract_lets +onlyGivenNames x; clear_value x)
  (extract_lets +onlyGivenNames x; refine Ends.cut (x := x) (s := s0) ?_ (fun _ => ?_) <;> [subst x; clear_value x])
  refine Ends.fold ?_ (fun _ _ _ => ?_)
  assumption
  refine State_putRegion_keeps ?_
  assumption
  (extract_lets +onlyGivenNames x; clear_value x)
  refine State_setXfer_keeps ?_
  refine State_writeHdr_keeps ?_
  assumption

theorem State_confirmBy_keeps {s0 : State} {s : State} {a1 : ℕ} {a2 : ℕ} {a3 : Job} {a4 : Bytes} {a5 : Bool} {a6 : FpEnt} (h : Ok s0 s) : Ok s0 (State.confirmBy s a1 a2 a3 a4 a5 a6) := by
  unfold State.confirmBy
  (extract_lets +onlyGivenNames x; clear_value x)
  refine Ends.ite ?_ ?_
  refine State_freshChunk_keeps ?_
  refine State_event_keeps ?_
  refine State_addFld_keeps ?_
  assumption
  refine Ends.ite ?_ ?_
  refine State_readPack_keeps ?_
  refine State_setChunk_keeps ?_
  assumption
  refine State_confirmChunk_keeps ?_
  assumption

theorem State_confirmSlot_keeps {s0 s : State} (h : Ok s0 s) : Ok s0 s.confirmSlot := by
  unfold State.confirmSlot
  dsimp only
  split
  · refine State_showOtp_keeps ?_
    have h := State_writeHdr_keeps (a1 := s.booted) (a2 := { (s.norSlot s.booted).head with state := 3 }) h
    exact ⟨h.1, h.2, h.3, h.4, h.5.trans ⟨fun x => ⟨x, rfl⟩, Nat.le_max_left _ _, Nat.le_max_left _ _, Nat.le_max_left _ _, Nat.le_refl _⟩, h.6⟩
  · exact h

theorem State_connect_keeps {s0 : State} {s : State} {a1 : Cap} {a2 : ConnNqn} {a3 : ℕ} {a4 : ℕ} {a5 : ℕ} {a6 : ℕ} {a7 : Bool} (h : Ok s0 s) : Ok s0 (State.connect s a1 a2 a3 a4 a5 a6 a7) := by
  unfold State.connect
  refine Ends.ite ?_ ?_
  assumption
  split
  refine State_answerBare_keeps ?_
  assumption
  split
  refine State_answerBare_keeps ?_
  assumption
  (extract_lets +onlyGivenNames x; clear_value x)
  (extract_lets +onlyGivenNames x; refine Ends.cut (x := x) (s := s0) ?_ (fun _ => ?_) <;> [subst x; clear_value x])
  refine Ends.ite ?_ ?_
  refine State_setCtrl_keeps ?_
  assumption
  assumption
  split
  (extract_lets +onlyGivenNames x; clear_value x)
  (extract_lets +onlyGivenNames x; subst x)
  (extract_lets +onlyGivenNames x; refine Ends.cut (x := x) (s := s0) ?_ (fun _ => ?_) <;> [subst x; clear_value x])
  refine Ends.upd ?_
  refine Ends.ofL (by assumption) ?_
  refine State_bindQueue_keeps ?_
  assumption
  (extract_lets +onlyGivenNames x; refine Ends.cut (x := x) (s := s0) ?_ (fun _ => ?_) <;> [subst x; clear_value x])
  refine Ends.ite ?_ ?_
  refine State_sendShadow_keeps ?_
  assumption
  assumption
  refine State_enterCmd_keeps ?_
  assumption

theorem State_copyAgain_keeps {s0 : State} {s : State} {a1 : ℕ} {a2 : ℕ} {a3 : ℕ} {a4 : ℕ} {a5 : ℕ} {a6 : ℕ} (h : Ok s0 s) : Ok s0 (State.copyAgain s a1 a2 a3 a4 a5 a6) := by
  unfold State.copyAgain
  (extract_lets +onlyGivenNames x; clear_value x)
  (extract_lets +onlyGivenNames x; clear_value x)
  (extract_lets +onlyGivenNames x; clear_value x)
  (extract_lets +onlyGivenNames x; clear_value x)
  (extract_lets +onlyGivenNames x; refine Ends.cut (x := x) (s := s0) ?_ (fun _ => ?_) <;> [subst x; clear_value x])
  refine State_waitCopy_keeps ?_
  assumption
  (extract_lets +onlyGivenNames x; refine Ends.cut (x := x) (s := s0) ?_ (fun _ => ?_) <;> [subst x; clear_value x])
  refine Ends.ite ?_ ?_
  assumption
  refine State_event_keeps ?_
  assumption
  (extract_lets +onlyGivenNames x; subst x)
  (extract_lets +onlyGivenNames x; refine Ends.cut (x := x) (s := s0) ?_ (fun _ => ?_) <;> [subst x; clear_value x])
  refine Ends.upd ?_
  assumption
  refine State_askPack_keeps ?_
  assumption

theorem State_useXts_keeps {s0 s : State} {tile d g : Nat} {t : State} {a b : Bytes} (e : s.useXts tile d g = some (a, b, t)) (h : Ok s0 s) : Ok s0 t := by
  unfold State.useXts at e
  obtain ⟨x, _, hx⟩ := Option.map_eq_some_iff.1 e
  cases hx
  exact Ends.upd h

theorem State_emptyFlushed_keeps {s0 : State} {s : State} (h : Ok s0 s) : Ok s0 (State.emptyFlushed s) := by
  unfold State.emptyFlushed
  (extract_lets +onlyGivenNames x; clear_value x)
  (extract_lets +onlyGivenNames x; clear_value x)
  refine Ends.upd ?_
  assumption

theorem State_leaveLane_keeps {s0 : State} {s : State} {a1 : LaneRun} (h : Ok s0 s) : Ok s0 (State.leaveLane s a1) := by
  unfold State.leaveLane
  refine State_emptyFlushed_keeps ?_
  refine Ends.upd ?_
  assumption

theorem State_copyDecrypted_keeps {s0 : State} {s : State} {a1 : ℕ} (h : Ok s0 s) : Ok s0 (State.copyDecrypted s a1) := by
  unfold State.copyDecrypted
  split
  refine Ends.ite ?_ ?_
  split
  refine State_setPack_keeps ?_
  refine State_leaveLane_keeps ?_
  refine State_useXts_keeps (by assumption) ?_
  assumption
  refine State_leaveLane_keeps ?_
  assumption
  assumption
  assumption

theorem State_copyPack_keeps {s0 : State} {s : State} {a1 : ℕ} {a2 : Env} {a3 : ℕ} {a4 : Bytes} {a5 : Bool} (h : Ok s0 s) : Ok s0 (State.copyPack s a1 a2 a3 a4 a5) := by
  unfold State.copyPack
  split
  assumption
  (extract_lets +onlyGivenNames x; clear_value x)
  (extract_lets +onlyGivenNames x; clear_value x)
  (extract_lets +onlyGivenNames x; clear_value x)
  (extract_lets +onlyGivenNames x; clear_value x)
  (extract_lets +onlyGivenNames x; clear_value x)
  (extract_lets +onlyGivenNames x; subst x)
  (extract_lets +onlyGivenNames x; refine Ends.cut (x := x) (s := s0) ?_ (fun _ => ?_) <;> [subst x; clear_value x])
  refine Ends.upd ?_
  assumption
  (extract_lets +onlyGivenNames x; refine Ends.cut (x := x) (s := s0) ?_ (fun _ => ?_) <;> [subst x; clear_value x])
  refine State_setScan_keeps ?_
  refine State_setPack_keeps ?_
  assumption
  refine State_placePack_keeps ?_
  assumption

theorem State_copyPlaced_keeps {s0 : State} {s : State} {a1 : ℕ} {a2 : Pack} {a3 : ℕ × ℕ} (h : Ok s0 s) : Ok s0 (State.copyPlaced s a1 a2 a3) := by
  unfold State.copyPlaced
  (extract_lets +onlyGivenNames x; refine Ends.cut (x := x) (s := s0) ?_ (fun _ => ?_) <;> [subst x; clear_value x])
  refine State_setPack_keeps ?_
  assumption
  split
  refine Ends.ite ?_ ?_
  (extract_lets +onlyGivenNames x; refine Ends.cut (x := x) (s := s0) ?_ (fun _ => ?_) <;> [subst x; clear_value x])
  refine State_log_keeps ?_
  assumption
  refine Ends.upd ?_
  assumption
  assumption
  refine Ends.upd ?_
  assumption

theorem State_dropRd_keeps {s0 : State} {s : State} {a1 : ℕ} (h : Ok s0 s) : Ok s0 (State.dropRd s a1) := by
  unfold State.dropRd
  refine Ends.upd ?_
  assumption

theorem State_copyReads_keeps {s0 : State} {s : State} {a1 : ℕ} (h : Ok s0 s) : Ok s0 (State.copyReads s a1) := by
  unfold State.copyReads
  split
  assumption
  split
  assumption
  (extract_lets +onlyGivenNames x; clear_value x)
  refine Ends.ite ?_ ?_
  assumption
  (extract_lets +onlyGivenNames x; clear_value x)
  (extract_lets +onlyGivenNames x; subst x)
  (extract_lets +onlyGivenNames x; refine Ends.cut (x := x) (s := s0) ?_ (fun _ => ?_) <;> [subst x; clear_value x])
  refine Ends.ite ?_ ?_
  refine State_dropRd_keeps ?_
  assumption
  refine Ends.upd ?_
  assumption
  refine Ends.fold ?_ (fun _ _ _ => ?_)
  assumption
  split
  refine Ends.ite ?_ ?_
  refine State_copyPack_keeps ?_
  assumption
  refine State_abandonCopy_keeps ?_
  assumption
  refine State_abandonCopy_keeps ?_
  assumption

end Sys2Proof.Machine
end

