-- ==== Sys2Proof/Laws/Keeps4.lean ====
section
/-! SUPPORT. Part 4 of 6: no operation of the model undoes what `Keeps` names; one lemma for each, in the order in which they call each
other. -/

set_option linter.all false

namespace Sys2Proof.Machine

open Sys2Proof

theorem State_setCsaReg_keeps {s0 : State} {s : State} {a1 : ℕ} {a2 : Fld} {a3 : ℕ} (h : Ok s0 s) : Ok s0 (State.setCsaReg s a1 a2 a3) := by
  unfold State.setCsaReg
  refine Ends.fold ?_ (fun _ _ _ => ?_)
  assumption
  refine State_setFld_keeps ?_
  assumption

theorem State_csaEnd_keeps {s0 : State} {s : State} {a1 : ℕ} {a2 : ℕ} {a3 : Bool} {a4 : Option (ℕ × CsaEnt)} (h : Ok s0 s) : Ok s0 (State.csaEnd s a1 a2 a3 a4) := by
  unfold State.csaEnd
  (extract_lets +onlyGivenNames x; refine Ends.cut (x := x) (s := s0) ?_ (fun _ => ?_) <;> [subst x; clear_value x])
  refine State_setFlag_keeps ?_
  assumption
  (extract_lets +onlyGivenNames x; refine Ends.cut (x := x) (s := s0) ?_ (fun _ => ?_) <;> [subst x; clear_value x])
  refine State_setFlag_keeps ?_
  assumption
  (extract_lets +onlyGivenNames x; refine Ends.cut (x := x) (s := s0) ?_ (fun _ => ?_) <;> [subst x; clear_value x])
  refine State_setFld_keeps ?_
  assumption
  split
  assumption
  (extract_lets +onlyGivenNames x; refine Ends.cut (x := x) (s := s0) ?_ (fun _ => ?_) <;> [subst x; clear_value x])
  refine State_setFld_keeps ?_
  refine State_setFld_keeps ?_
  assumption
  (extract_lets +onlyGivenNames x; refine Ends.cut (x := x) (s := s0) ?_ (fun _ => ?_) <;> [subst x; clear_value x])
  refine State_setCsaReg_keeps ?_
  refine State_setCsaReg_keeps ?_
  assumption
  refine State_setFld_keeps ?_
  assumption

theorem State_csaCmd_keeps {s0 : State} {s : State} {a1 : ℕ} {a2 : ℕ} {a3 : CsaPart → Bool} {a4 : State → CsaPart → State} (h : Ok s0 s) (h4 : ∀ x0 x1, Ok s0 x0 → Ok s0 (a4 x0 x1)) : Ok s0 (State.csaCmd s a1 a2 a3 a4) := by
  unfold State.csaCmd
  refine Ends.ite ?_ ?_
  assumption
  refine Ends.ite ?_ ?_
  refine State_csaCount_keeps ?_
  assumption
  split
  refine State_csaEnd_keeps ?_
  assumption
  refine Ends.ite ?_ ?_
  refine h4 _ _ ?_
  assumption
  refine State_csaEnd_keeps ?_
  assumption

theorem State_csaAsk_keeps {s0 : State} {s : State} {a1 : Bool} {a2 : ℕ} {a3 : ℕ} {a4 : ℕ} {a5 : State → CsaPart → State} (h : Ok s0 s) (h5 : ∀ x0 x1, Ok s0 x0 → Ok s0 (a5 x0 x1)) : Ok s0 (State.csaAsk s a1 a2 a3 a4 a5) := by
  unfold State.csaAsk
  refine Ends.ite ?_ ?_
  refine State_csaCmd_keeps ?_ ?_
  assumption
  intros
  assumption
  refine Ends.ite ?_ ?_
  assumption
  split
  refine Ends.ite ?_ ?_
  refine h5 _ _ ?_
  assumption
  assumption
  assumption

theorem State_csaEcc_keeps {s0 : State} {s : State} {a1 : ℕ} {a2 : List (ℕ × Bool)} {a3 : ℕ} (h : Ok s0 s) : Ok s0 (State.csaEcc s a1 a2 a3) := by
  unfold State.csaEcc
  refine Ends.ite ?_ ?_
  assumption
  split
  refine State_csaCount_keeps ?_
  assumption
  refine State_csaCount_keeps ?_
  refine State_setCsa_keeps ?_
  assumption
  assumption

theorem State_csaFind_keeps {s0 : State} {s : State} {a1 : ℕ} {a2 : CsaPart} {a3 : ℕ} {a4 : ℕ} (h : Ok s0 s) : Ends (fun p : State × Option (ℕ × CsaEnt) => Keeps s0 p.1) (State.csaFind s a1 a2 a3 a4) := by
  unfold State.csaFind
  (extract_lets +onlyGivenNames x; clear_value x)
  (extract_lets +onlyGivenNames x; refine Ends.cut (x := x) (s := s0) ?_ (fun _ => ?_) <;> [subst x; clear_value x])
  refine State_csaCount_keeps ?_
  assumption
  refine Ends.fst ?_
  refine Ends.ite ?_ ?_
  refine State_csaCount_keeps ?_
  assumption
  assumption

theorem State_csaOrdDelete_keeps {s0 : State} {s : State} {a1 : ℕ} {a2 : CsaPart} {a3 : ℕ} (h : Ok s0 s) : Ok s0 (State.csaOrdDelete s a1 a2 a3) := by
  unfold State.csaOrdDelete
  (extract_lets +onlyGivenNames x; clear_value x)
  refine State_setCsa_keeps ?_
  assumption

theorem State_csaRespread_keeps {s0 : State} {s : State} {a1 : ℕ} {a2 : ℕ} {a3 : CsaPart} (h : Ok s0 s) : Ok s0 (State.csaRespread s a1 a2 a3) := by
  unfold State.csaRespread
  (extract_lets +onlyGivenNames x; clear_value x)
  (extract_lets +onlyGivenNames x; clear_value x)
  (extract_lets +onlyGivenNames x; clear_value x)
  (extract_lets +onlyGivenNames x; clear_value x)
  (extract_lets +onlyGivenNames x; clear_value x)
  (extract_lets +onlyGivenNames x; clear_value x)
  refine State_csaCount_keeps ?_
  refine State_setCsa_keeps ?_
  assumption

theorem State_csaTry_keeps {s0 : State} {s : State} {a1 : ℕ} {a2 : List (ℕ × Bool)} {a3 : State → State × Option (ℕ × CsaEnt)} {a4 : ℕ} (h : Ok s0 s) (h3 : ∀ x0, Ok s0 x0 → Ends (fun p : State × Option (ℕ × CsaEnt) => Keeps s0 p.1) (a3 x0)) : Ends (fun p : State × Option (ℕ × CsaEnt) => Keeps s0 p.1) (State.csaTry s a1 a2 a3 a4) := by
  induction a4 generalizing s a1 a2 a3
  · rw [State.csaTry.eq_1]
    refine h3 _ ?_
    assumption
  · rename_i ih
    rw [State.csaTry.eq_2]
    split
    refine Ends.fst ?_
    refine Ends.ofL (by assumption) ?_
    refine h3 _ ?_
    assumption
    refine Ends.ite ?_ ?_
    apply ih
    refine State_csaEcc_keeps ?_
    assumption
    assumption
    refine Ends.fst ?_
    refine State_csaEcc_keeps ?_
    refine Ends.ofL (by assumption) ?_
    refine h3 _ ?_
    assumption

theorem State_fetchCtx_keeps {s0 : State} {s : State} (h : Ok s0 s) : Ok s0 (State.fetchCtx s) := by
  unfold State.fetchCtx
  refine Ends.fold ?_ (fun _ _ _ => ?_)
  assumption
  split
  (extract_lets +onlyGivenNames x; clear_value x)
  refine Ends.ite ?_ ?_
  assumption
  refine State_rdmCount_keeps ?_
  refine State_setQp_keeps ?_
  assumption
  assumption

theorem State_leaveRx_keeps {s0 : State} {s : State} {a1 : ℕ} {a2 : RxDest} (h : Ok s0 s) : Ok s0 (State.leaveRx s a1 a2) := by
  unfold State.leaveRx
  (extract_lets +onlyGivenNames x; clear_value x)
  refine State_setFport_keeps ?_
  assumption

theorem State_markCe_keeps {s0 : State} {s : State} {a1 : ℕ} (h : Ok s0 s) : Ok s0 (State.markCe s a1) := by
  unfold State.markCe
  split
  assumption
  (extract_lets +onlyGivenNames x; clear_value x)
  refine Ends.ite ?_ ?_
  assumption
  (extract_lets +onlyGivenNames x; clear_value x)
  refine State_sendBare_keeps ?_
  refine State_rdmCount_keeps ?_
  refine State_setQp_keeps ?_
  assumption

theorem State_invalidReq_keeps {s0 : State} {s : State} {a1 : ℕ} {a2 : ℕ} (h : Ok s0 s) : Ok s0 (State.invalidReq s a1 a2) := by
  unfold State.invalidReq
  split
  assumption
  refine State_qpFail_keeps ?_
  refine State_sendNak_keeps ?_
  refine State_rdmCount_keeps ?_
  assumption

theorem State_takeSend_keeps {s0 : State} {s : State} {a1 : ℕ} {a2 : ℕ} {a3 : Bool} {a4 : Bool} {a5 : ℕ} (h : Ok s0 s) : Ok s0 (State.takeSend s a1 a2 a3 a4 a5) := by
  unfold State.takeSend
  split
  assumption
  refine Ends.ite ?_ ?_
  assumption
  refine Ends.ite ?_ ?_
  refine State_invalidReq_keeps ?_
  assumption
  (extract_lets +onlyGivenNames x; clear_value x)
  (extract_lets +onlyGivenNames x; refine Ends.cut (x := x) (s := s0) ?_ (fun _ => ?_) <;> [subst x; clear_value x])
  refine State_setQp_keeps ?_
  assumption
  refine Ends.ite ?_ ?_
  refine Ends.upd ?_
  assumption
  assumption

theorem State_drainSends_keeps {s0 : State} {s : State} {a1 : ℕ} {a2 : ℕ} (h : Ok s0 s) : Ok s0 (State.drainSends s a1 a2) := by
  induction a2 generalizing s a1
  · rw [State.drainSends.eq_1]
    assumption
  · rename_i ih
    rw [State.drainSends.eq_2]
    split
    assumption
    split
    (extract_lets +onlyGivenNames x; clear_value x)
    (extract_lets +onlyGivenNames x; refine Ends.cut (x := x) (s := s0) ?_ (fun _ => ?_) <;> [subst x; clear_value x])
    refine State_setQp_keeps ?_
    assumption
    apply ih
    refine State_takeSend_keeps ?_
    refine State_rdmCount_keeps ?_
    assumption
    assumption

theorem State_expireSends_keeps {s0 : State} {s : State} {a1 : ℕ} (h : Ok s0 s) : Ok s0 (State.expireSends s a1) := by
  unfold State.expireSends
  split
  assumption
  (extract_lets +onlyGivenNames x; clear_value x)
  refine State_sendNak_keeps ?_
  refine State_rdmCount_keeps ?_
  refine State_setQp_keeps ?_
  assumption

theorem State_onSend_keeps {s0 : State} {s : State} {a1 : ℕ} {a2 : ℕ} {a3 : Bool} {a4 : Bool} {a5 : ℕ} (h : Ok s0 s) : Ok s0 (State.onSend s a1 a2 a3 a4 a5) := by
  unfold State.onSend
  split
  assumption
  (extract_lets +onlyGivenNames x; clear_value x)
  refine Ends.ite ?_ ?_
  refine State_drainSends_keeps ?_
  refine State_takeSend_keeps ?_
  assumption
  refine Ends.ite ?_ ?_
  refine Ends.ite ?_ ?_
  assumption
  refine Ends.ite ?_ ?_
  refine State_expireSends_keeps ?_
  assumption
  refine State_setQp_keeps ?_
  assumption
  refine Ends.ite ?_ ?_
  refine Ends.ite ?_ ?_
  assumption
  refine State_sendAck_keeps ?_
  assumption
  refine State_expireSends_keeps ?_
  assumption

theorem State_failTransfer_keeps {s0 : State} {s : State} {a1 : ℕ} (h : Ok s0 s) : Ok s0 (State.failTransfer s a1) := by
  unfold State.failTransfer
  split
  assumption
  split
  refine State_finish2_keeps ?_
  assumption
  refine State_finish_keeps ?_
  assumption

theorem State_takeResp_keeps {s0 : State} {s : State} {a1 : ℕ} {a2 : ℕ} {a3 : Bool} {a4 : Bytes} (h : Ok s0 s) : Ok s0 (State.takeResp s a1 a2 a3 a4) := by
  unfold State.takeResp
  split
  assumption
  split
  assumption
  (extract_lets +onlyGivenNames x; clear_value x)
  (extract_lets +onlyGivenNames x; clear_value x)
  refine Ends.ite ?_ ?_
  assumption
  refine Ends.ite ?_ ?_
  refine State_failTransfer_keeps ?_
  refine State_setQp_keeps ?_
  assumption
  refine Ends.ite ?_ ?_
  refine State_invalidReq_keeps ?_
  assumption
  refine Ends.ite ?_ ?_
  (extract_lets +onlyGivenNames x; clear_value x)
  (extract_lets +onlyGivenNames x; refine Ends.cut (x := x) (s := s0) ?_ (fun _ => ?_) <;> [subst x; clear_value x])
  refine State_setQp_keeps ?_
  assumption
  split
  (extract_lets +onlyGivenNames x; clear_value x)
  refine State_advance_keeps ?_
  refine State_setCmd_keeps ?_
  assumption
  assumption
  (extract_lets +onlyGivenNames x; clear_value x)
  refine State_setQp_keeps ?_
  assumption

theorem State_drainResps_keeps {s0 : State} {s : State} {a1 : ℕ} {a2 : ℕ} (h : Ok s0 s) : Ok s0 (State.drainResps s a1 a2) := by
  induction a2 generalizing s a1
  · rw [State.drainResps.eq_1]
    assumption
  · rename_i ih
    rw [State.drainResps.eq_2]
    split
    assumption
    split
    (extract_lets +onlyGivenNames x; clear_value x)
    (extract_lets +onlyGivenNames x; refine Ends.cut (x := x) (s := s0) ?_ (fun _ => ?_) <;> [subst x; clear_value x])
    refine State_setQp_keeps ?_
    assumption
    apply ih
    refine State_takeResp_keeps ?_
    refine State_rdmCount_keeps ?_
    assumption
    assumption

theorem State_expireResps_keeps {s0 : State} {s : State} {a1 : ℕ} (h : Ok s0 s) : Ok s0 (State.expireResps s a1) := by
  unfold State.expireResps
  split
  assumption
  (extract_lets +onlyGivenNames x; clear_value x)
  refine State_resend_keeps ?_
  refine State_rdmCount_keeps ?_
  refine State_setQp_keeps ?_
  assumption

theorem State_onResp_keeps {s0 : State} {s : State} {a1 : ℕ} {a2 : ℕ} {a3 : Bool} {a4 : Bool} {a5 : Bytes} (h : Ok s0 s) : Ok s0 (State.onResp s a1 a2 a3 a4 a5) := by
  unfold State.onResp
  split
  assumption
  split
  assumption
  (extract_lets +onlyGivenNames x; clear_value x)
  refine Ends.ite ?_ ?_
  refine State_drainResps_keeps ?_
  refine State_takeResp_keeps ?_
  assumption
  refine Ends.ite ?_ ?_
  refine Ends.ite ?_ ?_
  assumption
  refine Ends.ite ?_ ?_
  refine State_expireResps_keeps ?_
  assumption
  refine State_setQp_keeps ?_
  assumption
  refine Ends.ite ?_ ?_
  assumption
  refine State_expireResps_keeps ?_
  assumption

theorem State_resume_keeps {s0 : State} {s : State} {a1 : ℕ} (h : Ok s0 s) : Ok s0 (State.resume s a1) := by
  unfold State.resume
  split
  assumption
  (extract_lets +onlyGivenNames x; clear_value x)
  (extract_lets +onlyGivenNames x; clear_value x)
  (extract_lets +onlyGivenNames x; clear_value x)
  (extract_lets +onlyGivenNames x; refine Ends.cut (x := x) (s := s0) ?_ (fun _ => ?_) <;> [subst x; clear_value x])
  refine Ends.fold ?_ (fun _ _ _ => ?_)
  assumption
  split
  split
  refine State_sendAt_keeps ?_
  refine State_setCmd_keeps ?_
  assumption
  assumption
  assumption
  split
  refine State_trimResv_keeps ?_
  refine State_setQp_keeps ?_
  assumption
  assumption

theorem State_onNakSeq_keeps {s0 : State} {s : State} {a1 : ℕ} {a2 : ℕ} (h : Ok s0 s) : Ok s0 (State.onNakSeq s a1 a2) := by
  unfold State.onNakSeq
  split
  assumption
  (extract_lets +onlyGivenNames x; clear_value x)
  refine Ends.ite ?_ ?_
  refine State_resume_keeps ?_
  refine State_setQp_keeps ?_
  assumption
  refine State_resend_keeps ?_
  refine State_setQp_keeps ?_
  assumption

theorem State_onRnr_keeps {s0 : State} {s : State} {a1 : ℕ} {a2 : ℕ} (h : Ok s0 s) : Ok s0 (State.onRnr s a1 a2) := by
  unfold State.onRnr
  split
  assumption
  refine Ends.ite ?_ ?_
  refine State_qpFail_keeps ?_
  assumption
  (extract_lets +onlyGivenNames x; clear_value x)
  (extract_lets +onlyGivenNames x; clear_value x)
  refine State_resend_keeps ?_
  refine State_setQp_keeps ?_
  assumption

theorem State_rejected_keeps {s0 : State} {s : State} {a1 : ℕ} {a2 : ℕ} (h : Ok s0 s) : Ok s0 (State.rejected s a1 a2) := by
  unfold State.rejected
  split
  assumption
  (extract_lets +onlyGivenNames x; clear_value x)
  split
  assumption
  split
  refine State_qpFail_keeps ?_
  assumption
  (extract_lets +onlyGivenNames x; clear_value x)
  (extract_lets +onlyGivenNames x; clear_value x)
  (extract_lets +onlyGivenNames x; clear_value x)
  split
  (extract_lets +onlyGivenNames x; refine Ends.cut (x := x) (s := s0) ?_ (fun _ => ?_) <;> [subst x; clear_value x])
  refine State_rdmCount_keeps ?_
  refine State_setQp_keeps ?_
  assumption
  refine State_resend_keeps ?_
  refine State_failTransfer_keeps ?_
  assumption

theorem State_onAckPkt_keeps {s0 : State} {s : State} {a1 : ℕ} {a2 : ℕ} {a3 : AckKind} (h : Ok s0 s) : Ok s0 (State.onAckPkt s a1 a2 a3) := by
  unfold State.onAckPkt
  split
  split
  refine State_setQp_keeps ?_
  assumption
  assumption
  refine State_onNakSeq_keeps ?_
  assumption
  refine State_onRnr_keeps ?_
  assumption
  refine State_rejected_keeps ?_
  assumption
  refine State_rejected_keeps ?_
  assumption
  refine State_qpFail_keeps ?_
  assumption

theorem State_onCnp_keeps {s0 : State} {s : State} {a1 : ℕ} (h : Ok s0 s) : Ok s0 (State.onCnp s a1) := by
  unfold State.onCnp
  split
  assumption
  (extract_lets +onlyGivenNames x; refine Ends.cut (x := x) (s := s0) ?_ (fun _ => ?_) <;> [subst x; clear_value x])
  refine State_rdmCount_keeps ?_
  assumption
  refine State_setQp_keeps ?_
  assumption

theorem State_process_keeps {s0 : State} {s : State} {a1 : RoceHdr} {a2 : RocePkt} (h : Ok s0 s) : Ok s0 (State.process s a1 a2) := by
  unfold State.process
  (extract_lets +onlyGivenNames x; refine Ends.cut (x := x) (s := s0) ?_ (fun _ => ?_) <;> [subst x; clear_value x])
  refine State_leaveRx_keeps ?_
  assumption
  split
  assumption
  refine Ends.ite ?_ ?_
  assumption
  (extract_lets +onlyGivenNames x; refine Ends.cut (x := x) (s := s0) ?_ (fun _ => ?_) <;> [subst x; clear_value x])
  refine State_cacheCtx_keeps ?_
  assumption
  (extract_lets +onlyGivenNames x; refine Ends.cut (x := x) (s := s0) ?_ (fun _ => ?_) <;> [subst x; clear_value x])
  refine Ends.ite ?_ ?_
  refine State_markCe_keeps ?_
  assumption
  assumption
  refine Ends.ite ?_ ?_
  refine State_invalidReq_keeps ?_
  assumption
  split
  refine State_onSend_keeps ?_
  assumption
  refine State_onResp_keeps ?_
  assumption
  refine State_onAckPkt_keeps ?_
  assumption
  refine State_onCnp_keeps ?_
  assumption

theorem State_ctxArrived_keeps {s0 : State} {s : State} {a1 : ℕ} (h : Ok s0 s) : Ok s0 (State.ctxArrived s a1) := by
  unfold State.ctxArrived
  split
  assumption
  refine Ends.ite ?_ ?_
  assumption
  (extract_lets +onlyGivenNames x; refine Ends.cut (x := x) (s := s0) ?_ (fun _ => ?_) <;> [subst x; clear_value x])
  refine State_cacheCtx_keeps ?_
  assumption
  (extract_lets +onlyGivenNames x; clear_value x)
  (extract_lets +onlyGivenNames x; subst x)
  (extract_lets +onlyGivenNames x; refine Ends.cut (x := x) (s := s0) ?_ (fun _ => ?_) <;> [subst x; clear_value x])
  refine Ends.upd ?_
  assumption
  refine State_fetchCtx_keeps ?_
  refine Ends.fold ?_ (fun _ _ _ => ?_)
  assumption
  refine State_process_keeps ?_
  assumption

theorem State_refresh_keeps {s0 : State} {s : State} {a1 : ℕ} (h : Ok s0 s) : Ok s0 (State.refresh s a1) := by
  unfold State.refresh
  refine State_exc_keeps ?_
  assumption

theorem State_cwGood_keeps {s0 : State} {s : State} {a1 : ℕ} {a2 : ℕ} {a3 : Bytes} (h : Ok s0 s) : Ok s0 (State.cwGood s a1 a2 a3) := by
  unfold State.cwGood
  split
  assumption
  (extract_lets +onlyGivenNames x; clear_value x)
  (extract_lets +onlyGivenNames x; clear_value x)
  (extract_lets +onlyGivenNames x; clear_value x)
  (extract_lets +onlyGivenNames x; refine Ends.cut (x := x) (s := s0) ?_ (fun _ => ?_) <;> [subst x; clear_value x])
  refine State_maxFld_keeps ?_
  assumption
  (extract_lets +onlyGivenNames x; refine Ends.cut (x := x) (s := s0) ?_ (fun _ => ?_) <;> [subst x; clear_value x])
  refine Ends.ite ?_ ?_
  refine State_addFld_keeps ?_
  assumption
  refine Ends.ite ?_ ?_
  refine State_addFld_keeps ?_
  assumption
  refine Ends.ite ?_ ?_
  refine State_addFld_keeps ?_
  assumption
  assumption
  (extract_lets +onlyGivenNames x; subst x)
  (extract_lets +onlyGivenNames x; refine Ends.cut (x := x) (s := s0) ?_ (fun _ => ?_) <;> [subst x; clear_value x])
  refine Ends.upd ?_
  assumption
  (extract_lets +onlyGivenNames x; refine Ends.cut (x := x) (s := s0) ?_ (fun _ => ?_) <;> [subst x; clear_value x])
  refine Ends.ite ?_ ?_
  refine State_refresh_keeps ?_
  assumption
  assumption
  (extract_lets +onlyGivenNames x; refine Ends.cut (x := x) (s := s0) ?_ (fun _ => ?_) <;> [subst x; clear_value x])
  refine Ends.ite ?_ ?_
  refine State_maxFld_keeps ?_
  assumption
  assumption
  refine State_endCw_keeps ?_
  assumption

theorem State_journalLost_keeps {s0 : State} {s : State} {a1 : ℕ → Bool} (h : Ok s0 s) : Ok s0 (State.journalLost s a1) := by
  unfold State.journalLost
  (extract_lets +onlyGivenNames x; clear_value x)
  (extract_lets +onlyGivenNames x; refine Ends.cut (x := x) (s := s0) ?_ (fun _ => ?_) <;> [subst x; clear_value x])
  refine Ends.fold ?_ (fun _ _ _ => ?_)
  assumption
  refine State_log_keeps ?_
  refine Ends.upd ?_
  assumption
  (extract_lets +onlyGivenNames x; refine Ends.cut (x := x) (s := s0) ?_ (fun _ => ?_) <;> [subst x; clear_value x])
  refine State_keepJournal_keeps ?_
  assumption
  refine Ends.fold ?_ (fun _ _ _ => ?_)
  assumption
  refine Ends.fold ?_ (fun _ _ _ => ?_)
  assumption
  split
  assumption
  (extract_lets +onlyGivenNames x; clear_value x)
  (extract_lets +onlyGivenNames x; refine Ends.cut (x := x) (s := s0) ?_ (fun _ => ?_) <;> [subst x; clear_value x])
  refine State_setJent_keeps ?_
  assumption
  (extract_lets +onlyGivenNames x; subst x)
  (extract_lets +onlyGivenNames x; refine Ends.cut (x := x) (s := s0) ?_ (fun _ => ?_) <;> [subst x; clear_value x])
  refine Ends.upd ?_
  assumption
  split
  refine State_programIn_keeps ?_
  assumption
  assumption

theorem State_declareLost_keeps {s0 : State} {s : State} {a1 : ℕ} {a2 : ℕ} {a3 : Bool} (h : Ok s0 s) : Ok s0 (State.declareLost s a1 a2 a3) := by
  unfold State.declareLost
  (extract_lets +onlyGivenNames x; clear_value x)
  refine Ends.ite ?_ ?_
  refine State_event_keeps ?_
  assumption
  (extract_lets +onlyGivenNames x; subst x)
  (extract_lets +onlyGivenNames x; subst x)
  (extract_lets +onlyGivenNames x; refine Ends.cut (x := x) (s := s0) ?_ (fun _ => ?_) <;> [subst x; clear_value x])
  refine Ends.ite ?_ ?_
  refine Ends.upd ?_
  assumption
  refine State_setDie_keeps ?_
  assumption
  (extract_lets +onlyGivenNames x; clear_value x)
  (extract_lets +onlyGivenNames x; refine Ends.cut (x := x) (s := s0) ?_ (fun _ => ?_) <;> [subst x; clear_value x])
  refine State_startCkpt_keeps ?_
  assumption
  (extract_lets +onlyGivenNames x; refine Ends.cut (x := x) (s := s0) ?_ (fun _ => ?_) <;> [subst x; clear_value x])
  refine Ends.fold ?_ (fun _ _ _ => ?_)
  assumption
  (extract_lets +onlyGivenNames x; clear_value x)
  refine State_sealEarly_keeps ?_
  assumption
  (extract_lets +onlyGivenNames x; clear_value x)
  (extract_lets +onlyGivenNames x; subst x)
  (extract_lets +onlyGivenNames x; refine Ends.cut (x := x) (s := s0) ?_ (fun _ => ?_) <;> [subst x; clear_value x])
  refine Ends.upd ?_
  assumption
  (extract_lets +onlyGivenNames x; subst x)
  (extract_lets +onlyGivenNames x; refine Ends.cut (x := x) (s := s0) ?_ (fun _ => ?_) <;> [subst x; clear_value x])
  refine Ends.ite ?_ ?_
  refine Ends.upd ?_
  assumption
  assumption
  (extract_lets +onlyGivenNames x; refine Ends.cut (x := x) (s := s0) ?_ (fun _ => ?_) <;> [subst x; clear_value x])
  refine State_journalLost_keeps ?_
  assumption
  (extract_lets +onlyGivenNames x; refine Ends.cut (x := x) (s := s0) ?_ (fun _ => ?_) <;> [subst x; clear_value x])
  refine Ends.ite ?_ ?_
  refine State_sjCarrierLost_keeps ?_
  assumption
  assumption
  refine State_rebuildNext_keeps ?_
  assumption

theorem State_nextStep_keeps {s0 : State} {s : State} {a1 : ℕ} {a2 : ℕ} (h : Ok s0 s) : Ok s0 (State.nextStep s a1 a2) := by
  unfold State.nextStep
  split
  assumption
  (extract_lets +onlyGivenNames x; clear_value x)
  (extract_lets +onlyGivenNames x; clear_value x)
  (extract_lets +onlyGivenNames x; clear_value x)
  (extract_lets +onlyGivenNames x; clear_value x)
  (extract_lets +onlyGivenNames x; clear_value x)
  (extract_lets +onlyGivenNames x; clear_value x)
  (extract_lets +onlyGivenNames x; subst x; beta_reduce)
  (extract_lets +onlyGivenNames x; clear_value x)
  refine Ends.ite ?_ ?_
  refine Ends.ite ?_ ?_
  (extract_lets +onlyGivenNames x; refine Ends.cut (x := x) (s := s0) ?_ (fun _ => ?_) <;> [subst x; clear_value x])
  refine State_startAround_keeps ?_
  refine State_addFld_keeps ?_
  refine State_setCw_keeps ?_
  assumption
  refine State_requestCw_keeps ?_
  assumption
  assumption
  refine Ends.ite ?_ ?_
  refine State_sense_keeps ?_
  refine State_setCw_keeps ?_
  assumption
  refine Ends.ite ?_ ?_
  (extract_lets +onlyGivenNames x; refine Ends.cut (x := x) (s := s0) ?_ (fun _ => ?_) <;> [subst x; clear_value x])
  refine State_setCw_keeps ?_
  assumption
  refine State_issue_keeps ?_
  assumption
  (extract_lets +onlyGivenNames x; refine Ends.cut (x := x) (s := s0) ?_ (fun _ => ?_) <;> [subst x; clear_value x])
  refine State_refresh_keeps ?_
  assumption
  split
  refine State_endCw_keeps ?_
  assumption
  refine State_endCw_keeps ?_
  assumption
  refine State_startAround_keeps ?_
  refine State_addFld_keeps ?_
  refine State_setCw_keeps ?_
  assumption

theorem State_decodeDone_keeps {s0 : State} {s : State} {a1 : ℕ} {a2 : Option Bytes} {a3 : ℕ} (h : Ok s0 s) : Ok s0 (State.decodeDone s a1 a2 a3) := by
  unfold State.decodeDone
  split
  (extract_lets +onlyGivenNames x; clear_value x)
  refine Ends.ite ?_ ?_
  assumption
  (extract_lets +onlyGivenNames x; subst x; beta_reduce)
  (extract_lets +onlyGivenNames x; clear_value x)
  refine Ends.ite ?_ ?_
  (extract_lets +onlyGivenNames x; subst x)
  (extract_lets +onlyGivenNames x; refine Ends.cut (x := x) (s := s0) ?_ (fun _ => ?_) <;> [subst x; clear_value x])
  refine Ends.upd ?_
  refine State_addFld_keeps ?_
  assumption
  split
  refine State_endCw_keeps ?_
  assumption
  refine State_cwNoData_keeps ?_
  assumption
  split
  refine State_endCw_keeps ?_
  refine Ends.upd ?_
  assumption
  split
  refine State_cwGood_keeps ?_
  refine Ends.upd ?_
  assumption
  (extract_lets +onlyGivenNames x; refine Ends.cut (x := x) (s := s0) ?_ (fun _ => ?_) <;> [subst x; clear_value x])
  refine Ends.ite ?_ ?_
  refine State_addFld_keeps ?_
  assumption
  assumption
  (extract_lets +onlyGivenNames x; refine Ends.cut (x := x) (s := s0) ?_ (fun _ => ?_) <;> [subst x; clear_value x])
  refine Ends.ite ?_ ?_
  refine State_addFld_keeps ?_
  assumption
  assumption
  refine State_nextStep_keeps ?_
  refine Ends.ite ?_ ?_
  assumption
  refine Ends.upd ?_
  assumption
  assumption

theorem State_deliverFrame_keeps {s0 : State} {s : State} {a1 : ℕ} {a2 : ℕ} {a3 : ℕ} {a4 : Bool} {a5 : Bytes} (h : Ok s0 s) : Ok s0 (State.deliverFrame s a1 a2 a3 a4 a5) := by
  unfold State.deliverFrame
  refine State_post_keeps ?_
  assumption

theorem State_takeReplay_keeps {s0 s : State} {tile core : Nat} {t : State} {d : CapRec} (e : s.takeReplay tile core = some (d, t)) (h : Ok s0 s) : Ok s0 t := by
  unfold State.takeReplay at e
  obtain ⟨x, _, hx⟩ := Option.map_eq_some_iff.1 e
  cases hx
  exact Ends.upd h

theorem State_diverge_keeps {s0 : State} {s : State} {a1 : ℕ} {a2 : ℕ} (h : Ok s0 s) : Ok s0 (State.diverge s a1 a2) := by
  unfold State.diverge
  (extract_lets +onlyGivenNames x; refine Ends.cut (x := x) (s := s0) ?_ (fun _ => ?_) <;> [subst x; clear_value x])
  refine State_setFld_keeps ?_
  refine State_setFlag_keeps ?_
  assumption
  refine Ends.upd ?_
  assumption

theorem State_deliverReplay_keeps {s0 : State} {s : State} {a1 : ℕ} {a2 : ℕ} {a3 : ℕ} (h : Ok s0 s) : Ok s0 (State.deliverReplay s a1 a2 a3) := by
  unfold State.deliverReplay
  split
  refine Ends.ite ?_ ?_
  refine State_diverge_keeps ?_
  refine State_takeReplay_keeps (by assumption) ?_
  assumption
  (extract_lets +onlyGivenNames x; clear_value x)
  (extract_lets +onlyGivenNames x; clear_value x)
  refine Ends.fold ?_ (fun _ _ _ => ?_)
  refine State_takeReplay_keeps (by assumption) ?_
  assumption
  (extract_lets +onlyGivenNames x; refine Ends.cut (x := x) (s := s0) ?_ (fun _ => ?_) <;> [subst x; clear_value x])
  refine State_stores_keeps ?_
  assumption
  split
  assumption
  split
  refine State_stores_keeps ?_
  refine State_takeReplay_keeps (by assumption) ?_
  assumption
  refine State_diverge_keeps ?_
  refine State_takeReplay_keeps (by assumption) ?_
  assumption
  refine State_diverge_keeps ?_
  assumption
  refine State_diverge_keeps ?_
  refine State_takeReplay_keeps (by assumption) ?_
  assumption
  refine State_diverge_keeps ?_
  assumption

theorem State_destroyDomain_keeps {s0 : State} {s : State} {a1 : ℕ} (h : Ok s0 s) : Ok s0 (State.destroyDomain s a1) := by
  unfold State.destroyDomain
  refine State_changeNow_keeps ?_
  assumption

theorem State_showDge_keeps {s0 : State} {s : State} {a1 : ℕ} {a2 : ℕ} (h : Ok s0 s) : Ok s0 (State.showDge s a1 a2) := by
  unfold State.showDge
  (extract_lets +onlyGivenNames x; clear_value x)
  split
  (extract_lets +onlyGivenNames x; refine Ends.cut (x := x) (s := s0) ?_ (fun _ => ?_) <;> [subst x; clear_value x])
  refine State_setFlag_keeps ?_
  refine State_setFlag_keeps ?_
  assumption
  refine State_setFlag_keeps ?_
  assumption
  (extract_lets +onlyGivenNames x; refine Ends.cut (x := x) (s := s0) ?_ (fun _ => ?_) <;> [subst x; clear_value x])
  refine State_setFlag_keeps ?_
  refine State_setFlag_keeps ?_
  assumption
  (extract_lets +onlyGivenNames x; refine Ends.cut (x := x) (s := s0) ?_ (fun _ => ?_) <;> [subst x; clear_value x])
  refine State_setFlag_keeps ?_
  refine State_setFlag_keeps ?_
  assumption
  refine State_setFld_keeps ?_
  refine State_setFlag_keeps ?_
  assumption

theorem State_dgeEnd_keeps {s0 : State} {s : State} {a1 : ℕ} {a2 : ℕ} {a3 : ℕ} (h : Ok s0 s) : Ok s0 (State.dgeEnd s a1 a2 a3) := by
  unfold State.dgeEnd
  refine State_showDge_keeps ?_
  refine State_setFld_keeps ?_
  refine State_setFlag_keeps ?_
  assumption

theorem State_dgeFreeze_keeps {s0 : State} {s : State} {a1 : ℕ} {a2 : ℕ} {a3 : ℕ} {a4 : AccKind} {a5 : ℕ} (h : Ok s0 s) : Ok s0 (State.dgeFreeze s a1 a2 a3 a4 a5) := by
  unfold State.dgeFreeze
  refine Ends.ite ?_ ?_
  assumption
  refine State_channelFault_keeps ?_
  assumption

theorem State_dropDge_keeps {s0 : State} {s : State} {a1 : ℕ} {a2 : ℕ} (h : Ok s0 s) : Ok s0 (State.dropDge s a1 a2) := by
  unfold State.dropDge
  refine Ends.upd ?_
  assumption

theorem State_dgeSave_keeps {s0 : State} {s : State} {a1 : ℕ} {a2 : ℕ} {a3 : DgeSes → Bool} {a4 : DgeSes → Bytes} (h : Ok s0 s) : Ok s0 (State.dgeSave s a1 a2 a3 a4) := by
  unfold State.dgeSave
  refine Ends.ite ?_ ?_
  assumption
  split
  refine State_dgeEnd_keeps ?_
  assumption
  refine Ends.ite ?_ ?_
  refine State_dgeEnd_keeps ?_
  assumption
  (extract_lets +onlyGivenNames x; clear_value x)
  (extract_lets +onlyGivenNames x; clear_value x)
  split
  refine State_dgeFreeze_keeps ?_
  refine State_dgeEnd_keeps ?_
  assumption
  refine State_dgeEnd_keeps ?_
  refine State_dropDge_keeps ?_
  refine State_stores_keeps ?_
  assumption

theorem State_dispatchRoce_keeps {s0 : State} {s : State} {a1 : ℕ} {a2 : ℕ} {a3 : ℕ} {a4 : Bytes} (h : Ok s0 s) : Ok s0 (State.dispatchRoce s a1 a2 a3 a4) := by
  unfold State.dispatchRoce
  refine Ends.ite ?_ ?_
  assumption
  refine Ends.ite ?_ ?_
  refine State_deliverFrame_keeps ?_
  assumption
  refine State_admitFrame_keeps ?_
  assumption

theorem State_filterFrame_keeps {s0 s : State} {a1 : Nat} {a2 : Bytes} (h : Ok s0 s) : Ok s0 (s.filterFrame a1 a2) := by
  unfold State.filterFrame
  extract_lets on
  split
  · exact State_portCount_keeps h
  · exact Ends.ite (State_deliverFrame_keeps (Ends.upd h)) (Ends.upd h)

theorem State_dispatch_keeps {s0 : State} {s : State} {a1 : ℕ} {a2 : Bytes} (h : Ok s0 s) : Ok s0 (State.dispatch s a1 a2) := by
  unfold State.dispatch
  (extract_lets +onlyGivenNames x; clear_value x)
  refine Ends.ite ?_ ?_
  assumption
  split
  split
  (extract_lets +onlyGivenNames x; clear_value x)
  refine State_dispatchRoce_keeps ?_
  refine Ends.ite ?_ ?_
  refine State_portCount_keeps ?_
  assumption
  assumption
  refine Ends.ite ?_ ?_
  refine State_admitFrame_keeps ?_
  assumption
  assumption
  refine State_admitFrame_keeps ?_
  assumption
  refine State_filterFrame_keeps ?_
  assumption
  split
  (extract_lets +onlyGivenNames x; clear_value x)
  refine State_dispatchRoce_keeps ?_
  refine Ends.ite ?_ ?_
  refine State_portCount_keeps ?_
  assumption
  assumption
  refine Ends.ite ?_ ?_
  refine State_admitFrame_keeps ?_
  assumption
  assumption
  refine State_admitFrame_keeps ?_
  assumption
  refine State_filterFrame_keeps ?_
  assumption
  refine State_filterFrame_keeps ?_
  assumption
  assumption

theorem State_runDma_keeps {s0 : State} {s : State} {a1 : ℕ} {a2 : DmaJob} (h : Ok s0 s) : Ends (fun p : State × DmaJob × Option (ℕ × AccKind × ℕ) => Keeps s0 p.1) (State.runDma s a1 a2) := by
  unfold State.runDma
  (extract_lets +onlyGivenNames x; clear_value x)
  (extract_lets +onlyGivenNames x; clear_value x)
  (extract_lets +onlyGivenNames x; clear_value x)
  (extract_lets +onlyGivenNames x; clear_value x)
  (extract_lets +onlyGivenNames x; clear_value x)
  (extract_lets +onlyGivenNames x; subst x; beta_reduce)
  split
  (extract_lets +onlyGivenNames x; subst x; beta_reduce)
  (extract_lets +onlyGivenNames x; subst x; beta_reduce)
  refine Ends.fst ?_
  refine Ends.projL ?_
  refine Ends.fst ?_
  refine State_stores_keeps ?_
  assumption
  (extract_lets +onlyGivenNames x; subst x; beta_reduce)
  (extract_lets +onlyGivenNames x; subst x; beta_reduce)
  refine Ends.fst ?_
  refine Ends.projL ?_
  refine Ends.fst ?_
  refine State_stores_keeps ?_
  assumption
  (extract_lets +onlyGivenNames x; subst x; beta_reduce)
  (extract_lets +onlyGivenNames x; subst x; beta_reduce)
  refine Ends.fst ?_
  refine Ends.projL ?_
  refine Ends.fst ?_
  refine State_stores_keeps ?_
  assumption
  refine Ends.ite ?_ ?_
  (extract_lets +onlyGivenNames x; subst x; beta_reduce)
  (extract_lets +onlyGivenNames x; subst x; beta_reduce)
  refine Ends.fst ?_
  refine Ends.projL ?_
  refine Ends.fst ?_
  refine State_stores_keeps ?_
  assumption
  (extract_lets +onlyGivenNames x; subst x; beta_reduce)
  (extract_lets +onlyGivenNames x; subst x; beta_reduce)
  refine Ends.fst ?_
  refine Ends.projL ?_
  refine Ends.fst ?_
  refine State_stores_keeps ?_
  assumption

theorem State_setDma_keeps {s0 : State} {s : State} {a1 : ℕ} {a2 : ℕ} {a3 : List DmaJob} (h : Ok s0 s) : Ok s0 (State.setDma s a1 a2 a3) := by
  unfold State.setDma
  refine Ends.upd ?_
  assumption

theorem State_doDma_keeps {s0 : State} {s : State} {a1 : DmaJob} (h : Ok s0 s) : Ok s0 (State.doDma s a1) := by
  unfold State.doDma
  (extract_lets +onlyGivenNames x; clear_value x)
  (extract_lets +onlyGivenNames x; clear_value x)
  (extract_lets +onlyGivenNames x; clear_value x)
  split
  refine State_setDma_keeps ?_
  refine Ends.ofL (by assumption) ?_
  refine State_runDma_keeps ?_
  assumption
  refine State_channelFault_keeps ?_
  refine State_setDma_keeps ?_
  refine Ends.ofL (by assumption) ?_
  refine State_runDma_keeps ?_
  assumption

theorem State_drainRing_keeps {s0 : State} {s : State} {a1 : ℕ} {a2 : ℕ} {a3 : ℕ} (h : Ok s0 s) : Ok s0 (State.drainRing s a1 a2 a3) := by
  induction a3 generalizing s a1 a2
  · rw [State.drainRing.eq_1]
    assumption
  · rename_i ih
    rw [State.drainRing.eq_2]
    split
    assumption
    refine Ends.ite ?_ ?_
    assumption
    (extract_lets +onlyGivenNames x; clear_value x)
    split
    apply ih
    refine State_placeMsg_keeps ?_
    refine State_setRing_keeps ?_
    assumption
    refine State_channelFault_keeps ?_
    refine State_setRing_keeps ?_
    assumption

theorem State_dropTileWork_keeps {s0 : State} {s : State} {a1 : ℕ} (h : Ok s0 s) : Ok s0 (State.dropTileWork s a1) := by
  unfold State.dropTileWork
  (extract_lets +onlyGivenNames x; clear_value x)
  (extract_lets +onlyGivenNames x; clear_value x)
  (extract_lets +onlyGivenNames x; refine Ends.cut (x := x) (s := s0) ?_ (fun _ => ?_) <;> [subst x; clear_value x])
  refine Ends.fold ?_ (fun _ _ _ => ?_)
  assumption
  refine Ends.fold ?_ (fun _ _ _ => ?_)
  assumption
  split
  refine State_setJent_keeps ?_
  assumption
  assumption
  (extract_lets +onlyGivenNames x; refine Ends.cut (x := x) (s := s0) ?_ (fun _ => ?_) <;> [subst x; clear_value x])
  refine State_flushXts_keeps ?_
  refine State_flushFp_keeps ?_
  assumption
  refine Ends.upd ?_
  assumption

theorem State_durableRec_keeps {s0 : State} {s : State} {a1 : LogRec} (h : Ok s0 s) : Ok s0 (State.durableRec s a1) := by
  unfold State.durableRec
  (extract_lets +onlyGivenNames x; subst x; beta_reduce)
  refine Ends.ite ?_ ?_
  refine Ends.ite ?_ ?_
  refine Ends.upd ?_
  assumption
  refine State_applyRec_keeps ?_
  assumption
  refine Ends.ite ?_ ?_
  refine Ends.upd ?_
  assumption
  (extract_lets +onlyGivenNames x; clear_value x)
  (extract_lets +onlyGivenNames x; clear_value x)
  refine Ends.upd ?_
  refine Ends.upd ?_
  assumption

theorem State_endDetach_keeps {s0 : State} {s : State} {a1 : Detach} (h : Ok s0 s) : Ok s0 (State.endDetach s a1) := by
  unfold State.endDetach
  refine Ends.ite ?_ ?_
  assumption
  refine State_finishTag_keeps ?_
  refine State_changeNow_keeps ?_
  assumption

theorem State_endDma_keeps {s0 : State} {s : State} {a1 : DmaDesc} {a2 : ℕ} {a3 : ℕ} (h : Ok s0 s) : Ok s0 (State.endDma s a1 a2 a3) := by
  unfold State.endDma
  refine State_setDma_keeps ?_
  assumption

theorem State_touch_keeps {s0 : State} {s : State} {a1 : ℕ} (h : Ok s0 s) : Ok s0 (State.touch s a1) := by
  unfold State.touch
  split
  assumption
  (extract_lets +onlyGivenNames x; clear_value x)
  (extract_lets +onlyGivenNames x; refine Ends.cut (x := x) (s := s0) ?_ (fun _ => ?_) <;> [subst x; clear_value x])
  refine Ends.fold ?_ (fun _ _ _ => ?_)
  assumption
  split
  refine Ends.ite ?_ ?_
  refine State_setLine_keeps ?_
  assumption
  assumption
  assumption
  refine State_setLine_keeps ?_
  assumption

theorem State_prefetch_keeps {s0 : State} {s : State} {a1 : ℕ} {a2 : ℕ} (h : Ok s0 s) : Ok s0 (State.prefetch s a1 a2) := by
  unfold State.prefetch
  (extract_lets +onlyGivenNames x; clear_value x)
  (extract_lets +onlyGivenNames x; clear_value x)
  (extract_lets +onlyGivenNames x; clear_value x)
  (extract_lets +onlyGivenNames x; clear_value x)
  refine Ends.ite ?_ ?_
  refine State_addFld_keeps ?_
  refine Ends.projL ?_
  refine State_firstEnter_keeps ?_
  assumption
  assumption

theorem State_serveLook_keeps {s0 : State} {s : State} {a1 : Look} (h : Ok s0 s) : Ok s0 (State.serveLook s a1) := by
  unfold State.serveLook
  (extract_lets +onlyGivenNames x; clear_value x)
  (extract_lets +onlyGivenNames x; subst x; beta_reduce)
  split
  refine Ends.ite ?_ ?_
  (extract_lets +onlyGivenNames x; refine Ends.cut (x := x) (s := s0) ?_ (fun _ => ?_) <;> [subst x; clear_value x])
  refine State_touch_keeps ?_
  refine State_addFld_keeps ?_
  assumption
  (extract_lets +onlyGivenNames x; refine Ends.cut (x := x) (s := s0) ?_ (fun _ => ?_) <;> [subst x; clear_value x])
  split
  refine State_setLine_keeps ?_
  assumption
  assumption
  refine State_answerLook_keeps ?_
  assumption
  refine Ends.upd ?_
  assumption
  refine Ends.ite ?_ ?_
  refine Ends.upd ?_
  assumption
  (extract_lets +onlyGivenNames x; refine Ends.cut (x := x) (s := s0) ?_ (fun _ => ?_) <;> [subst x; clear_value x])
  refine State_addFld_keeps ?_
  assumption
  split
  (extract_lets +onlyGivenNames x; refine Ends.cut (x := x) (s := s0) ?_ (fun _ => ?_) <;> [subst x; clear_value x])
  refine State_touch_keeps ?_
  refine Ends.ofL (by assumption) ?_
  refine State_firstEnter_keeps ?_
  assumption
  refine Ends.ite ?_ ?_
  refine State_prefetch_keeps ?_
  refine State_answerLook_keeps ?_
  assumption
  refine State_prefetch_keeps ?_
  refine Ends.upd ?_
  assumption
  refine Ends.upd ?_
  refine Ends.ofL (by assumption) ?_
  refine State_firstEnter_keeps ?_
  assumption

theorem State_lookup_keeps {s0 : State} {s : State} {a1 : Look} (h : Ok s0 s) : Ok s0 (State.lookup s a1) := by
  unfold State.lookup
  refine Ends.ite ?_ ?_
  refine Ends.upd ?_
  assumption
  refine State_serveLook_keeps ?_
  assumption

theorem State_freeLane_keeps {s0 : State} {s : State} {a1 : ℕ} {a2 : ℕ} (h : Ok s0 s) : Ok s0 (State.freeLane s a1 a2) := by
  unfold State.freeLane
  (extract_lets +onlyGivenNames x; clear_value x)
  (extract_lets +onlyGivenNames x; clear_value x)
  (extract_lets +onlyGivenNames x; subst x)
  (extract_lets +onlyGivenNames x; refine Ends.cut (x := x) (s := s0) ?_ (fun _ => ?_) <;> [subst x; clear_value x])
  refine Ends.upd ?_
  assumption
  refine Ends.fold ?_ (fun _ _ _ => ?_)
  assumption
  refine State_lookup_keeps ?_
  assumption

theorem State_endLooks_keeps {s0 : State} {s : State} {a1 : ℕ} {a2 : Bool} (h : Ok s0 s) : Ok s0 (State.endLooks s a1 a2) := by
  unfold State.endLooks
  (extract_lets +onlyGivenNames x; clear_value x)
  (extract_lets +onlyGivenNames x; clear_value x)
  (extract_lets +onlyGivenNames x; subst x)
  (extract_lets +onlyGivenNames x; refine Ends.cut (x := x) (s := s0) ?_ (fun _ => ?_) <;> [subst x; clear_value x])
  refine Ends.upd ?_
  assumption
  (extract_lets +onlyGivenNames x; refine Ends.cut (x := x) (s := s0) ?_ (fun _ => ?_) <;> [subst x; clear_value x])
  refine Ends.fold ?_ (fun _ _ _ => ?_)
  assumption
  refine State_answerLook_keeps ?_
  assumption
  refine Ends.fold ?_ (fun _ _ _ => ?_)
  assumption
  refine State_freeLane_keeps ?_
  assumption

theorem State_endPortOps_keeps {s0 : State} {s : State} {a1 : ℕ} (h : Ok s0 s) : Ok s0 (State.endPortOps s a1) := by
  unfold State.endPortOps
  (extract_lets +onlyGivenNames x; clear_value x)
  (extract_lets +onlyGivenNames x; subst x)
  (extract_lets +onlyGivenNames x; refine Ends.cut (x := x) (s := s0) ?_ (fun _ => ?_) <;> [subst x; clear_value x])
  refine Ends.upd ?_
  assumption
  (extract_lets +onlyGivenNames x; clear_value x)
  (extract_lets +onlyGivenNames x; clear_value x)
  (extract_lets +onlyGivenNames x; subst x)
  (extract_lets +onlyGivenNames x; refine Ends.cut (x := x) (s := s0) ?_ (fun _ => ?_) <;> [subst x; clear_value x])
  refine Ends.upd ?_
  assumption
  refine Ends.fold ?_ (fun _ _ _ => ?_)
  refine State_protect_keeps ?_
  assumption
  split
  assumption
  assumption
  assumption
  assumption
  assumption
  assumption
  refine State_opResult_keeps ?_
  assumption

theorem State_endRemoval_keeps {s0 : State} {s : State} {a1 : ℕ} (h : Ok s0 s) : Ok s0 (State.endRemoval s a1) := by
  unfold State.endRemoval
  split
  assumption
  split
  assumption
  refine Ends.ite ?_ ?_
  assumption
  (extract_lets +onlyGivenNames x; clear_value x)
  (extract_lets +onlyGivenNames x; refine Ends.cut (x := x) (s := s0) ?_ (fun _ => ?_) <;> [subst x; clear_value x])
  refine State_log_keeps ?_
  refine State_setNs_keeps ?_
  assumption
  (extract_lets +onlyGivenNames x; refine Ends.cut (x := x) (s := s0) ?_ (fun _ => ?_) <;> [subst x; clear_value x])
  refine State_nsChanged_keeps ?_
  assumption
  (extract_lets +onlyGivenNames x; refine Ends.cut (x := x) (s := s0) ?_ (fun _ => ?_) <;> [subst x; clear_value x])
  refine Ends.ite ?_ ?_
  refine State_setAttached_keeps ?_
  assumption
  assumption
  refine State_finishTag_keeps ?_
  assumption

theorem State_eraseFresh_keeps {s0 : State} {s : State} (h : Ok s0 s) : Ok s0 (State.eraseFresh s) := by
  unfold State.eraseFresh
  refine Ends.ite ?_ ?_
  assumption
  (extract_lets +onlyGivenNames x; clear_value x)
  (extract_lets +onlyGivenNames x; clear_value x)
  refine Ends.fold ?_ (fun _ _ _ => ?_)
  refine Ends.upd ?_
  assumption
  refine State_eraseBlock_keeps ?_
  assumption

theorem State_evaluate_keeps {s0 : State} {s : State} {a1 : ℕ} (h : Ok s0 s) : Ok s0 (State.evaluate s a1) := by
  unfold State.evaluate
  (extract_lets +onlyGivenNames x; clear_value x)
  (extract_lets +onlyGivenNames x; clear_value x)
  (extract_lets +onlyGivenNames x; clear_value x)
  refine State_setTemp_keeps ?_
  assumption

theorem State_fetchNeeded_keeps {s0 : State} {s : State} {a1 : ℕ} {a2 : Sess} {a3 : SrcCycle} {a4 : List ℕ} (h : Ok s0 s) : Ok s0 (State.fetchNeeded s a1 a2 a3 a4) := by
  unfold State.fetchNeeded
  (extract_lets +onlyGivenNames x; refine Ends.cut (x := x) (s := s0) ?_ (fun _ => ?_) <;> [subst x; clear_value x])
  refine State_setSess_keeps ?_
  assumption
  refine Ends.fold ?_ (fun _ _ _ => ?_)
  assumption
  split
  (extract_lets +onlyGivenNames x; clear_value x)
  refine State_readPack_keeps ?_
  assumption
  assumption

theorem State_fillDecoders_keeps {s0 : State} {s : State} {a1 : ℕ} {a2 : ℕ} (h : Ok s0 s) : Ok s0 (State.fillDecoders s a1 a2) := by
  induction a2 generalizing s a1
  · rw [State.fillDecoders.eq_1]
    assumption
  · rename_i ih
    rw [State.fillDecoders.eq_2]
    split
    apply ih
    refine Ends.upd ?_
    assumption
    assumption

theorem State_rangeFill_keeps {s0 : State} {s : State} {a1 : ℕ} {a2 : ℕ} {a3 : Bool} {a4 : ℕ} (h : Ok s0 s) : Ok s0 (State.rangeFill s a1 a2 a3 a4) := by
  unfold State.rangeFill
  split
  refine Ends.ite ?_ ?_
  refine State_setRange_keeps ?_
  assumption
  assumption
  assumption

theorem State_pageFailed_keeps {s0 : State} {s : State} {a1 : ℕ} (h : Ok s0 s) : Ok s0 (State.pageFailed s a1) := by
  unfold State.pageFailed
  (extract_lets +onlyGivenNames x; clear_value x)
  (extract_lets +onlyGivenNames x; subst x)
  (extract_lets +onlyGivenNames x; refine Ends.cut (x := x) (s := s0) ?_ (fun _ => ?_) <;> [subst x; clear_value x])
  refine Ends.upd ?_
  assumption
  (extract_lets +onlyGivenNames x; refine Ends.cut (x := x) (s := s0) ?_ (fun _ => ?_) <;> [subst x; clear_value x])
  refine State_rangeFill_keeps ?_
  refine State_event_keeps ?_
  refine State_exc_keeps ?_
  assumption
  refine State_endLooks_keeps ?_
  assumption

theorem State_fillDone_keeps {s0 : State} {s : State} {a1 : ℕ} (h : Ok s0 s) : Ok s0 (State.fillDone s a1) := by
  unfold State.fillDone
  split
  (extract_lets +onlyGivenNames x; clear_value x)
  refine Ends.ite ?_ ?_
  (extract_lets +onlyGivenNames x; subst x)
  (extract_lets +onlyGivenNames x; refine Ends.cut (x := x) (s := s0) ?_ (fun _ => ?_) <;> [subst x; clear_value x])
  refine Ends.upd ?_
  assumption
  (extract_lets +onlyGivenNames x; clear_value x)
  (extract_lets +onlyGivenNames x; refine Ends.cut (x := x) (s := s0) ?_ (fun _ => ?_) <;> [subst x; clear_value x])
  split
  refine State_setLine_keeps ?_
  assumption
  assumption
  refine State_endLooks_keeps ?_
  refine State_rangeFill_keeps ?_
  assumption
  refine Ends.ite ?_ ?_
  (extract_lets +onlyGivenNames x; subst x)
  (extract_lets +onlyGivenNames x; refine Ends.cut (x := x) (s := s0) ?_ (fun _ => ?_) <;> [subst x; clear_value x])
  refine Ends.upd ?_
  assumption
  split
  split
  refine State_startAround_keeps ?_
  refine Ends.ofL (by assumption) ?_
  refine State_newCw_keeps ?_
  assumption
  refine State_pageFailed_keeps ?_
  assumption
  refine State_pageFailed_keeps ?_
  assumption
  assumption

theorem State_raiseMb_keeps {s0 : State} {s : State} {a1 : ℕ} (h : Ok s0 s) : Ok s0 (State.raiseMb s a1) := by
  unfold State.raiseMb
  refine Ends.ite ?_ ?_
  refine State_emit_keeps ?_
  refine Ends.upd ?_
  assumption
  assumption

theorem State_fillMb_keeps {s0 : State} {s : State} {a1 : ℕ} {a2 : ℕ} {a3 : ℕ} (h : Ok s0 s) : Ok s0 (State.fillMb s a1 a2 a3) := by
  unfold State.fillMb
  (extract_lets +onlyGivenNames x; refine Ends.cut (x := x) (s := s0) ?_ (fun _ => ?_) <;> [subst x; clear_value x])
  refine State_setFld_keeps ?_
  assumption
  (extract_lets +onlyGivenNames x; refine Ends.cut (x := x) (s := s0) ?_ (fun _ => ?_) <;> [subst x; clear_value x])
  refine State_setFld_keeps ?_
  assumption
  (extract_lets +onlyGivenNames x; refine Ends.cut (x := x) (s := s0) ?_ (fun _ => ?_) <;> [subst x; clear_value x])
  refine State_setFlag_keeps ?_
  assumption
  refine Ends.ite ?_ ?_
  refine State_raiseMb_keeps ?_
  assumption
  assumption

theorem State_filterProbe_keeps {s0 : State} {s : State} {a1 : ℕ} {a2 : Bytes} (h : Ok s0 s) : Ends (fun p : State × Option ℕ => Keeps s0 p.1) (State.filterProbe s a1 a2) := by
  unfold State.filterProbe
  (extract_lets +onlyGivenNames x; clear_value x)
  (extract_lets +onlyGivenNames x; clear_value x)
  split
  split
  refine Ends.fst ?_
  refine Ends.ofL (by assumption) ?_
  refine State_csaFind_keeps ?_
  assumption
  refine Ends.fst ?_
  assumption

theorem State_finishTrip_keeps {s0 : State} {s : State} {a1 : TripRec} (h : Ok s0 s) : Ok s0 (State.finishTrip s a1) := by
  unfold State.finishTrip
  refine State_mfwEvent_keeps ?_
  (extract_lets +onlyGivenNames x; clear_value x)
  refine State_logTrip_keeps ?_
  refine Ends.upd ?_
  assumption

theorem State_firmwareFix_keeps {s0 : State} {s : State} {a1 : ℕ} {a2 : Job} {a3 : List Item} {a4 : Option (ℕ × ℕ)} (h : Ok s0 s) : Ok s0 (State.firmwareFix s a1 a2 a3 a4) := by
  unfold State.firmwareFix
  (extract_lets +onlyGivenNames x; subst x)
  (extract_lets +onlyGivenNames x; refine Ends.cut (x := x) (s := s0) ?_ (fun _ => ?_) <;> [subst x; clear_value x])
  split
  (extract_lets +onlyGivenNames x; clear_value x)
  refine State_log_keeps ?_
  refine Ends.upd ?_
  assumption
  assumption
  split
  refine State_setJob_keeps ?_
  refine Ends.ofL (by assumption) ?_
  refine State_logTxn_keeps ?_
  assumption

theorem State_flushFpLater_keeps {s0 : State} {s : State} {a1 : ℕ} {a2 : Option ℕ} (h : Ok s0 s) : Ok s0 (State.flushFpLater s a1 a2) := by
  unfold State.flushFpLater
  (extract_lets +onlyGivenNames x; clear_value x)
  (extract_lets +onlyGivenNames x; refine Ends.cut (x := x) (s := s0) ?_ (fun _ => ?_) <;> [subst x; clear_value x])
  refine State_flushFp_keeps ?_
  assumption
  (extract_lets +onlyGivenNames x; clear_value x)
  refine Ends.upd ?_
  assumption

theorem State_flushXtsLater_keeps {s0 : State} {s : State} {a1 : ℕ} {a2 : Option ℕ} (h : Ok s0 s) : Ok s0 (State.flushXtsLater s a1 a2) := by
  unfold State.flushXtsLater
  (extract_lets +onlyGivenNames x; clear_value x)
  (extract_lets +onlyGivenNames x; refine Ends.cut (x := x) (s := s0) ?_ (fun _ => ?_) <;> [subst x; clear_value x])
  refine State_flushXts_keeps ?_
  assumption
  (extract_lets +onlyGivenNames x; clear_value x)
  refine Ends.upd ?_
  assumption

theorem State_unmark_keeps {s0 : State} {s : State} {a1 : ℕ} (h : Ok s0 s) : Ok s0 (State.unmark s a1) := by
  unfold State.unmark
  refine Ends.upd ?_
  assumption

theorem State_sealNow_keeps {s0 : State} {s : State} {a1 : ℕ} (h : Ok s0 s) : Ok s0 (State.sealNow s a1) := by
  unfold State.sealNow
  split
  (extract_lets +onlyGivenNames x; refine Ends.cut (x := x) (s := s0) ?_ (fun _ => ?_) <;> [subst x; clear_value x])
  refine State_endStripe_keeps ?_
  assumption
  split
  refine Ends.ite ?_ ?_
  refine State_sealSegment_keeps ?_
  assumption
  assumption
  assumption
  assumption

theorem State_formatNext_keeps {s0 : State} {s : State} {a1 : ℕ} (h : Ok s0 s) : Ok s0 (State.formatNext s a1) := by
  unfold State.formatNext
  split
  assumption
  split
  assumption
  (extract_lets +onlyGivenNames x; subst x; beta_reduce)
  refine Ends.ite ?_ ?_
  assumption
  refine Ends.ite ?_ ?_
  split
  refine Ends.ite ?_ ?_
  (extract_lets +onlyGivenNames x; refine Ends.cut (x := x) (s := s0) ?_ (fun _ => ?_) <;> [subst x; clear_value x])
  refine State_unmark_keeps ?_
  assumption
  (extract_lets +onlyGivenNames x; refine Ends.cut (x := x) (s := s0) ?_ (fun _ => ?_) <;> [subst x; clear_value x])
  refine Ends.ite ?_ ?_
  refine State_destroyDomain_keeps ?_
  assumption
  assumption
  refine State_log_keeps ?_
  refine State_setNs_keeps ?_
  assumption
  (extract_lets +onlyGivenNames x; clear_value x)
  (extract_lets +onlyGivenNames x; clear_value x)
  (extract_lets +onlyGivenNames x; clear_value x)
  refine State_log_keeps ?_
  refine State_setNs_keeps ?_
  refine Ends.projL ?_
  refine State_logTxn_keeps ?_
  assumption
  refine Ends.ite ?_ ?_
  refine Ends.ite ?_ ?_
  assumption
  (extract_lets +onlyGivenNames x; refine Ends.cut (x := x) (s := s0) ?_ (fun _ => ?_) <;> [subst x; clear_value x])
  refine Ends.fold ?_ (fun _ _ _ => ?_)
  assumption
  refine State_collect_keeps ?_
  refine State_sealNow_keeps ?_
  assumption
  refine Ends.ite ?_ ?_
  refine State_log_keeps ?_
  refine State_setNs_keeps ?_
  assumption
  assumption
  assumption

theorem State_fused_keeps {s0 : State} {s : State} {a1 : Cap} {a2 : Cap} {a3 : ℕ} {a4 : ℕ} {a5 : ℕ} {a6 : ℕ} (h : Ok s0 s) : Ok s0 (State.fused s a1 a2 a3 a4 a5 a6) := by
  unfold State.fused
  refine State_arrive_keeps ?_ ?_
  assumption
  intros
  (extract_lets +onlyGivenNames x; clear_value x)
  (extract_lets +onlyGivenNames x; clear_value x)
  (extract_lets +onlyGivenNames x; clear_value x)
  (extract_lets +onlyGivenNames x; clear_value x)
  split
  (extract_lets +onlyGivenNames x; clear_value x)
  (extract_lets +onlyGivenNames x; clear_value x)
  (extract_lets +onlyGivenNames x; clear_value x)
  (extract_lets +onlyGivenNames x; clear_value x)
  (extract_lets +onlyGivenNames x; clear_value x)
  (extract_lets +onlyGivenNames x; clear_value x)
  refine State_enterAs_keeps ?_
  refine Ends.ofL (by assumption) ?_
  refine Ends.ite ?_ ?_
  refine Ends.fst ?_
  assumption
  refine State_cmdClass_keeps ?_
  assumption

theorem State_gaveBack_keeps {s0 : State} {s : State} {a1 : List ℕ} (h : Ok s0 s) : Ok s0 (State.gaveBack s a1) := by
  unfold State.gaveBack
  (extract_lets +onlyGivenNames x; clear_value x)
  (extract_lets +onlyGivenNames x; refine Ends.cut (x := x) (s := s0) ?_ (fun _ => ?_) <;> [subst x; clear_value x])
  refine Ends.fold ?_ (fun _ _ _ => ?_)
  assumption
  (extract_lets +onlyGivenNames x; clear_value x)
  (extract_lets +onlyGivenNames x; refine Ends.cut (x := x) (s := s0) ?_ (fun _ => ?_) <;> [subst x; clear_value x])
  refine Ends.fold ?_ (fun _ _ _ => ?_)
  assumption
  (extract_lets +onlyGivenNames x; clear_value x)
  (extract_lets +onlyGivenNames x; refine Ends.cut (x := x) (s := s0) ?_ (fun _ => ?_) <;> [subst x; clear_value x])
  refine State_releaseLocks_keeps ?_
  assumption
  refine Ends.upd ?_
  assumption
  (extract_lets +onlyGivenNames x; clear_value x)
  (extract_lets +onlyGivenNames x; clear_value x)
  (extract_lets +onlyGivenNames x; clear_value x)
  (extract_lets +onlyGivenNames x; subst x)
  (extract_lets +onlyGivenNames x; refine Ends.cut (x := x) (s := s0) ?_ (fun _ => ?_) <;> [subst x; clear_value x])
  refine Ends.upd ?_
  assumption
  (extract_lets +onlyGivenNames x; subst x)
  (extract_lets +onlyGivenNames x; subst x)
  (extract_lets +onlyGivenNames x; refine Ends.cut (x := x) (s := s0) ?_ (fun _ => ?_) <;> [subst x; clear_value x])
  split
  refine Ends.upd ?_
  assumption
  assumption
  split
  refine Ends.ite ?_ ?_
  refine Ends.upd ?_
  assumption
  assumption
  assumption
  (extract_lets +onlyGivenNames x; refine Ends.cut (x := x) (s := s0) ?_ (fun _ => ?_) <;> [subst x; clear_value x])
  refine Ends.fold ?_ (fun _ _ _ => ?_)
  assumption
  (extract_lets +onlyGivenNames x; clear_value x)
  refine State_setFport_keeps ?_
  assumption
  refine State_setAdopted_keeps ?_
  assumption

theorem State_gcmClass_keeps {s0 s : State} {key : Nat} {w : Nat → Bool} {c : Nat} {t : State} (e : s.gcmClass key w = some (c, t)) (h : Ok s0 s) : Ok s0 t := by
  unfold State.gcmClass at e
  split at e
  · cases e; exact h
  · cases hx : wrrNext 8 (s.cweight (dieF 0)) (fun c => c != 0 && w c) (s.dst.turns.getD key (0, 0)) with
    | none => rw [hx] at e; cases e
    | some v => rw [hx] at e; cases e; exact Ends.upd h

theorem State_pgCount_keeps {s0 : State} {s : State} {a1 : ℕ} {a2 : ℕ} {a3 : ℕ} (h : Ok s0 s) : Ok s0 (State.pgCount s a1 a2 a3) := by
  unfold State.pgCount
  refine State_addFld_keeps ?_
  assumption

theorem State_gcmOpen_keeps {s0 : State} {s : State} {a1 : ℕ} {a2 : ℕ} {a3 : Bytes} {a4 : Bytes} {a5 : Bytes} {a6 : Bytes} (h : Ok s0 s) : Ends (fun p : State × Option Bytes => Keeps s0 p.1) (State.gcmOpen s a1 a2 a3 a4 a5 a6) := by
  unfold State.gcmOpen
  split
  refine Ends.fst ?_
  refine State_addFld_keeps ?_
  assumption
  split
  refine Ends.fst ?_
  assumption
  refine Ends.fst ?_
  refine State_addFld_keeps ?_
  assumption

theorem State_gcmDecrypt_keeps {s0 : State} {s : State} {a1 : ℕ} (h : Ok s0 s) : Ok s0 (State.gcmDecrypt s a1) := by
  unfold State.gcmDecrypt
  split
  assumption
  split
  assumption
  (extract_lets +onlyGivenNames x; clear_value x)
  (extract_lets +onlyGivenNames x; clear_value x)
  (extract_lets +onlyGivenNames x; subst x; beta_reduce)
  refine Ends.ite ?_ ?_
  refine State_pgCount_keeps ?_
  refine State_pgCount_keeps ?_
  refine State_leaveRx_keeps ?_
  assumption
  split
  refine State_pgCount_keeps ?_
  refine State_pgCount_keeps ?_
  refine State_leaveRx_keeps ?_
  assumption
  refine Ends.ite ?_ ?_
  refine State_pgCount_keeps ?_
  refine State_pgCount_keeps ?_
  refine State_leaveRx_keeps ?_
  assumption
  refine Ends.ite ?_ ?_
  refine State_pgCount_keeps ?_
  refine State_pgCount_keeps ?_
  refine State_leaveRx_keeps ?_
  assumption
  refine Ends.ite ?_ ?_
  assumption
  (extract_lets +onlyGivenNames x; refine Ends.cut (x := x) (s := s0) ?_ (fun _ => ?_) <;> [subst x; clear_value x])
  refine State_pgCount_keeps ?_
  refine State_leaveRx_keeps ?_
  refine State_gcmClass_keeps (by assumption) ?_
  assumption
  split
  refine State_pgCount_keeps ?_
  refine Ends.ofL (by assumption) ?_
  refine State_gcmOpen_keeps ?_
  assumption
  refine Ends.upd ?_
  refine Ends.ofL (by assumption) ?_
  refine State_gcmOpen_keeps ?_
  assumption

theorem State_gcmSeal_keeps {s0 : State} {s : State} {a1 : ℕ} {a2 : ℕ} {a3 : Bytes} {a4 : Bytes} (h : Ok s0 s) : Ends (fun p : State × Option (Bytes × Bytes × Bytes) => Keeps s0 p.1) (State.gcmSeal s a1 a2 a3 a4) := by
  unfold State.gcmSeal
  split
  split
  (extract_lets +onlyGivenNames x; clear_value x)
  split
  refine Ends.fst ?_
  refine Ends.upd ?_
  assumption
  refine Ends.fst ?_
  assumption
  refine Ends.fst ?_
  assumption

theorem State_pgSent_keeps {s0 : State} {s : State} {a1 : ℕ} {a2 : Sess} {a3 : PgTx} (h : Ok s0 s) : Ok s0 (State.pgSent s a1 a2 a3) := by
  unfold State.pgSent
  (extract_lets +onlyGivenNames x; refine Ends.cut (x := x) (s := s0) ?_ (fun _ => ?_) <;> [subst x; clear_value x])
  refine State_pgCount_keeps ?_
  assumption
  refine Ends.ite ?_ ?_
  assumption
  (extract_lets +onlyGivenNames x; refine Ends.cut (x := x) (s := s0) ?_ (fun _ => ?_) <;> [subst x; clear_value x])
  refine Ends.ite ?_ ?_
  refine State_pgCount_keeps ?_
  assumption
  assumption
  split
  refine State_setSess_keeps ?_
  assumption
  assumption

theorem State_gcmEncrypt_keeps {s0 : State} {s : State} {a1 : ℕ} (h : Ok s0 s) : Ok s0 (State.gcmEncrypt s a1) := by
  unfold State.gcmEncrypt
  (extract_lets +onlyGivenNames x; clear_value x)
  split
  assumption
  split
  refine State_gcmClass_keeps (by assumption) ?_
  assumption
  (extract_lets +onlyGivenNames x; clear_value x)
  split
  refine State_gcmClass_keeps (by assumption) ?_
  assumption
  split
  refine State_gcmClass_keeps (by assumption) ?_
  assumption
  (extract_lets +onlyGivenNames x; clear_value x)
  (extract_lets +onlyGivenNames x; clear_value x)
  split
  refine State_gcmClass_keeps (by assumption) ?_
  assumption
  (extract_lets +onlyGivenNames x; subst x)
  (extract_lets +onlyGivenNames x; refine Ends.cut (x := x) (s := s0) ?_ (fun _ => ?_) <;> [subst x; clear_value x])
  refine Ends.upd ?_
  refine Ends.ofL (by assumption) ?_
  refine State_gcmSeal_keeps ?_
  refine State_gcmClass_keeps (by assumption) ?_
  assumption
  (extract_lets +onlyGivenNames x; refine Ends.cut (x := x) (s := s0) ?_ (fun _ => ?_) <;> [subst x; clear_value x])
  refine State_queueFrame_keeps ?_
  assumption
  (extract_lets +onlyGivenNames x; refine Ends.cut (x := x) (s := s0) ?_ (fun _ => ?_) <;> [subst x; clear_value x])
  refine State_emit_keeps ?_
  assumption
  refine State_pgSent_keeps ?_
  assumption

theorem State_givePiece_keeps {s0 : State} {s : State} {a1 : ℕ} {a2 : ℕ} {a3 : Option Bytes} (h : Ok s0 s) : Ok s0 (State.givePiece s a1 a2 a3) := by
  unfold State.givePiece
  split
  assumption
  split
  assumption
  (extract_lets +onlyGivenNames x; clear_value x)
  (extract_lets +onlyGivenNames x; clear_value x)
  refine State_advance_keeps ?_
  refine State_setCmd_keeps ?_
  assumption

theorem State_replPart_keeps {s0 : State} {s : State} {a1 : ℕ} {a2 : ℕ} {a3 : Option Bytes} (h : Ok s0 s) : Ok s0 (State.replPart s a1 a2 a3) := by
  unfold State.replPart
  split
  assumption
  split
  assumption
  (extract_lets +onlyGivenNames x; clear_value x)
  refine State_setSess_keeps ?_
  assumption

theorem State_refpPart_keeps {s0 : State} {s : State} {a1 : ℕ} {a2 : Option Bytes} (h : Ok s0 s) : Ok s0 (State.refpPart s a1 a2) := by
  unfold State.refpPart
  split
  refine Ends.upd ?_
  assumption
  assumption

theorem State_giveUser_keeps {s0 : State} {s : State} {a1 : PackRd} {a2 : RdUser} {a3 : ℕ → Option Bytes} (h : Ok s0 s) : Ok s0 (State.giveUser s a1 a2 a3) := by
  unfold State.giveUser
  split
  refine State_givePiece_keeps ?_
  assumption
  refine State_compareDone_keeps ?_
  assumption
  refine State_replPart_keeps ?_
  assumption
  refine State_stickPack_keeps ?_
  assumption
  refine State_refpPart_keeps ?_
  assumption

theorem State_packServe_keeps {s0 : State} {s : State} {a1 : ℕ} {a2 : ℕ → Option Bytes} (h : Ok s0 s) : Ok s0 (State.packServe s a1 a2) := by
  unfold State.packServe
  split
  assumption
  refine Ends.fold ?_ (fun _ _ _ => ?_)
  refine State_dropRd_keeps ?_
  assumption
  refine State_giveUser_keeps ?_
  assumption

theorem State_packLost_keeps {s0 : State} {s : State} {a1 : ℕ} (h : Ok s0 s) : Ok s0 (State.packLost s a1) := by
  unfold State.packLost
  refine State_packServe_keeps ?_
  assumption

theorem State_packBad_keeps {s0 : State} {s : State} {a1 : ℕ} {a2 : ℕ} (h : Ok s0 s) : Ok s0 (State.packBad s a1 a2) := by
  unfold State.packBad
  split
  assumption
  (extract_lets +onlyGivenNames x; refine Ends.cut (x := x) (s := s0) ?_ (fun _ => ?_) <;> [subst x; clear_value x])
  refine State_event_keeps ?_
  assumption
  refine Ends.ite ?_ ?_
  refine State_packLost_keeps ?_
  assumption
  (extract_lets +onlyGivenNames x; clear_value x)
  (extract_lets +onlyGivenNames x; subst x)
  (extract_lets +onlyGivenNames x; refine Ends.cut (x := x) (s := s0) ?_ (fun _ => ?_) <;> [subst x; clear_value x])
  refine Ends.upd ?_
  assumption
  refine Ends.fold ?_ (fun _ _ _ => ?_)
  assumption
  split
  split
  refine State_startAround_keeps ?_
  refine Ends.ofL (by assumption) ?_
  refine State_newCw_keeps ?_
  assumption
  assumption

theorem State_genAbsent_keeps {s0 : State} {s : State} {a1 : ℕ} {a2 : ℕ} {a3 : ℕ} (h : Ok s0 s) : Ok s0 (State.genAbsent s a1 a2 a3) := by
  unfold State.genAbsent
  refine Ends.fold ?_ (fun _ _ _ => ?_)
  assumption
  refine State_packBad_keeps ?_
  refine State_addFld_keeps ?_
  assumption

theorem State_genAbsentCopies_keeps {s0 : State} {s : State} {a1 : ℕ} {a2 : ℕ} {a3 : ℕ} (h : Ok s0 s) : Ok s0 (State.genAbsentCopies s a1 a2 a3) := by
  unfold State.genAbsentCopies
  (extract_lets +onlyGivenNames x; clear_value x)
  refine Ends.fold ?_ (fun _ _ _ => ?_)
  assumption
  (extract_lets +onlyGivenNames x; clear_value x)
  (extract_lets +onlyGivenNames x; refine Ends.cut (x := x) (s := s0) ?_ (fun _ => ?_) <;> [subst x; clear_value x])
  refine State_addFld_keeps ?_
  assumption
  (extract_lets +onlyGivenNames x; subst x)
  (extract_lets +onlyGivenNames x; refine Ends.cut (x := x) (s := s0) ?_ (fun _ => ?_) <;> [subst x; clear_value x])
  refine Ends.upd ?_
  assumption
  split
  (extract_lets +onlyGivenNames x; refine Ends.cut (x := x) (s := s0) ?_ (fun _ => ?_) <;> [subst x; clear_value x])
  refine State_setScan_keeps ?_
  assumption
  refine Ends.ite ?_ ?_
  refine State_abandonCopy_keeps ?_
  assumption
  refine State_copyAgain_keeps ?_
  assumption
  assumption

theorem State_give_keeps {s0 : State} {s : State} {a1 : List ℕ} {a2 : List ℕ} (h : Ok s0 s) : Ok s0 (State.give s a1 a2) := by
  unfold State.give
  refine Ends.upd ?_
  assumption

theorem State_giveInput_keeps {s0 : State} {s : State} {a1 : ℕ} {a2 : ℕ} {a3 : Option Bytes} (h : Ok s0 s) : Ok s0 (State.giveInput s a1 a2 a3) := by
  unfold State.giveInput
  split
  assumption
  split
  refine State_endCw_keeps ?_
  assumption
  (extract_lets +onlyGivenNames x; clear_value x)
  (extract_lets +onlyGivenNames x; clear_value x)
  (extract_lets +onlyGivenNames x; clear_value x)
  (extract_lets +onlyGivenNames x; refine Ends.cut (x := x) (s := s0) ?_ (fun _ => ?_) <;> [subst x; clear_value x])
  refine State_setCw_keeps ?_
  assumption
  refine Ends.ite ?_ ?_
  refine State_slotLost_keeps ?_
  assumption
  refine Ends.ite ?_ ?_
  split
  (extract_lets +onlyGivenNames x; subst x)
  (extract_lets +onlyGivenNames x; refine Ends.cut (x := x) (s := s0) ?_ (fun _ => ?_) <;> [subst x; clear_value x])
  refine Ends.upd ?_
  assumption
  (extract_lets +onlyGivenNames x; refine Ends.cut (x := x) (s := s0) ?_ (fun _ => ?_) <;> [subst x; clear_value x])
  refine Ends.ite ?_ ?_
  refine State_maxFld_keeps ?_
  assumption
  assumption
  refine State_endCw_keeps ?_
  refine State_addFld_keeps ?_
  assumption
  assumption
  assumption

theorem State_giveNext_keeps {s0 : State} {s : State} (h : Ok s0 s) : Ok s0 (State.giveNext s) := by
  unfold State.giveNext
  split
  refine Ends.ite ?_ ?_
  refine State_send_keeps ?_
  refine Ends.upd ?_
  assumption
  assumption
  assumption

theorem State_handbackNext_keeps {s0 : State} {s : State} (h : Ok s0 s) : Ok s0 (State.handbackNext s) := by
  unfold State.handbackNext
  refine Ends.ite ?_ ?_
  assumption
  split
  refine State_give_keeps ?_
  refine Ends.upd ?_
  assumption
  (extract_lets +onlyGivenNames x; refine Ends.cut (x := x) (s := s0) ?_ (fun _ => ?_) <;> [subst x; clear_value x])
  assumption
  (extract_lets +onlyGivenNames x; subst x)
  (extract_lets +onlyGivenNames x; refine Ends.cut (x := x) (s := s0) ?_ (fun _ => ?_) <;> [subst x; clear_value x])
  refine Ends.upd ?_
  assumption
  refine State_announceShards_keeps ?_ ?_
  refine State_addFld_keeps ?_
  refine State_setOwners_keeps ?_
  assumption
  assumption

theorem State_wrongChunk_keeps {s0 : State} {s : State} {a1 : ℕ} {a2 : ℕ} {a3 : Job} {a4 : ℕ} (h : Ok s0 s) : Ok s0 (State.wrongChunk s a1 a2 a3 a4) := by
  unfold State.wrongChunk
  refine State_badBatch_keeps ?_
  refine State_tryTxn_keeps ?_
  refine State_packTurn_keeps ?_
  refine State_setChunk_keeps ?_
  assumption

theorem State_hashed_keeps {s0 : State} {s : State} {a1 : ℕ} {a2 : ℕ} {a3 : Job} {a4 : LaneRun} {a5 : Bytes} (h : Ok s0 s) : Ok s0 (State.hashed s a1 a2 a3 a4 a5) := by
  unfold State.hashed
  split
  refine Ends.ite ?_ ?_
  refine State_freshChunk_keeps ?_
  assumption
  refine State_wrongChunk_keeps ?_
  assumption
  refine Ends.ite ?_ ?_
  refine State_freshChunk_keeps ?_
  assumption
  split
  refine State_setChunk_keeps ?_
  refine State_addFld_keeps ?_
  refine Ends.ofL (by assumption) ?_
  refine State_filterProbe_keeps ?_
  assumption
  refine State_freshChunk_keeps ?_
  refine Ends.ofL (by assumption) ?_
  refine State_filterProbe_keeps ?_
  assumption

theorem State_imgBegin_keeps {s0 : State} {s : State} {a1 : MgmtHdr} {a2 : ℕ} {a3 : ℕ} (h : Ok s0 s) : Ends (fun p : ℕ × State => Keeps s0 p.2) (State.imgBegin s a1 a2 a3) := by
  unfold State.imgBegin
  (extract_lets +onlyGivenNames x; clear_value x)
  (extract_lets +onlyGivenNames x; clear_value x)
  refine Ends.ite ?_ ?_
  refine Ends.snd ?_
  assumption
  refine Ends.ite ?_ ?_
  refine Ends.snd ?_
  assumption
  refine Ends.ite ?_ ?_
  refine Ends.ite ?_ ?_
  refine Ends.snd ?_
  refine State_setXfer_keeps ?_
  assumption
  refine Ends.snd ?_
  assumption
  (extract_lets +onlyGivenNames x; clear_value x)
  refine Ends.ite ?_ ?_
  refine Ends.snd ?_
  assumption
  refine Ends.ite ?_ ?_
  refine Ends.snd ?_
  assumption
  (extract_lets +onlyGivenNames x; subst x)
  (extract_lets +onlyGivenNames x; refine Ends.cut (x := x) (s := s0) ?_ (fun _ => ?_) <;> [subst x; clear_value x])
  refine Ends.ite ?_ ?_
  refine State_writeHdr_keeps ?_
  assumption
  assumption
  refine Ends.snd ?_
  refine State_setXfer_keeps ?_
  refine State_putRegion_keeps ?_
  assumption

theorem State_runRecovery_keeps {s0 : State} {s : State} {a1 : ℕ} {a2 : Bytes} (h : Ok s0 s) : Ends (fun p : ℕ × State => Keeps s0 p.2) (State.runRecovery s a1 a2) := by
  unfold State.runRecovery
  (extract_lets +onlyGivenNames x; clear_value x)
  (extract_lets +onlyGivenNames x; clear_value x)
  refine Ends.ite ?_ ?_
  refine Ends.snd ?_
  assumption
  refine Ends.ite ?_ ?_
  refine Ends.snd ?_
  refine State_setPhase_keeps ?_
  assumption
  (extract_lets +onlyGivenNames x; refine Ends.cut (x := x) (s := s0) ?_ (fun _ => ?_) <;> [subst x; clear_value x])
  refine State_setFlag_keeps ?_
  refine State_setFlag_keeps ?_
  assumption
  (extract_lets +onlyGivenNames x; refine Ends.cut (x := x) (s := s0) ?_ (fun _ => ?_) <;> [subst x; clear_value x])
  refine State_setFld_keeps ?_
  refine State_measure_keeps ?_
  assumption
  (extract_lets +onlyGivenNames x; subst x)
  (extract_lets +onlyGivenNames x; refine Ends.cut (x := x) (s := s0) ?_ (fun _ => ?_) <;> [subst x; clear_value x])
  refine Ends.upd ?_
  assumption
  refine Ends.snd ?_
  refine State_setPhase_keeps ?_
  refine State_mfwRuns_keeps ?_
  assumption

theorem State_imgEnd_keeps {s0 : State} {s : State} {a1 : MgmtHdr} (h : Ok s0 s) : Ends (fun p : ℕ × State => Keeps s0 p.2) (State.imgEnd s a1) := by
  unfold State.imgEnd
  split
  refine Ends.snd ?_
  assumption
  refine Ends.ite ?_ ?_
  split
  refine Ends.snd ?_
  refine Ends.ofR (by assumption) ?_
  refine State_runRecovery_keeps ?_
  refine State_setXfer_keeps ?_
  assumption
  refine Ends.ite ?_ ?_
  refine Ends.snd ?_
  assumption
  refine Ends.ite ?_ ?_
  refine Ends.snd ?_
  assumption
  refine Ends.snd ?_
  refine State_completeSlot_keeps ?_
  assumption

theorem State_imgWrite_keeps {s0 : State} {s : State} {a1 : MgmtHdr} {a2 : ℕ} {a3 : Bytes} (h : Ok s0 s) : Ends (fun p : ℕ × State => Keeps s0 p.2) (State.imgWrite s a1 a2 a3) := by
  unfold State.imgWrite
  refine Ends.ite ?_ ?_
  refine Ends.snd ?_
  assumption
  split
  refine Ends.snd ?_
  assumption
  refine Ends.ite ?_ ?_
  refine Ends.snd ?_
  assumption
  refine Ends.ite ?_ ?_
  refine Ends.snd ?_
  refine State_setXfer_keeps ?_
  assumption
  refine Ends.ite ?_ ?_
  refine Ends.snd ?_
  assumption
  (extract_lets +onlyGivenNames x; clear_value x)
  refine Ends.snd ?_
  refine State_putRegion_keeps ?_
  assumption

theorem State_ioCmd_keeps {s0 : State} {s : State} {a1 : Cap} {a2 : Bool} {a3 : HostOp} {a4 : Option ℕ} {a5 : Bool} {a6 : List (Option Status)} {a7 : List Want} {a8 : Bool} (h : Ok s0 s) : Ok s0 (State.ioCmd s a1 a2 a3 a4 a5 a6 a7 a8) := by
  unfold State.ioCmd
  refine State_arrive_keeps ?_ ?_
  assumption
  intros
  (extract_lets +onlyGivenNames x; clear_value x)
  (extract_lets +onlyGivenNames x; clear_value x)
  split
  refine State_enterCmd_keeps ?_
  refine Ends.ofL (by assumption) ?_
  refine Ends.ite ?_ ?_
  refine Ends.fst ?_
  assumption
  refine State_cmdClass_keeps ?_
  assumption

theorem State_joinSync_keeps {s0 : State} {s : State} {a1 : MediaImage} (h : Ok s0 s) : Ok s0 (State.joinSync s a1) := by
  unfold State.joinSync
  (extract_lets +onlyGivenNames x; refine Ends.cut (x := x) (s := s0) ?_ (fun _ => ?_) <;> [subst x; clear_value x])
  refine Ends.ite ?_ ?_
  assumption
  refine State_alignTime_keeps ?_
  assumption
  (extract_lets +onlyGivenNames x; clear_value x)
  (extract_lets +onlyGivenNames x; clear_value x)
  (extract_lets +onlyGivenNames x; refine Ends.cut (x := x) (s := s0) ?_ (fun _ => ?_) <;> [subst x; clear_value x])
  refine State_nextChunks_keeps ?_
  refine State_replay_keeps ?_
  refine State_loadMedia_keeps ?_
  assumption
  (extract_lets +onlyGivenNames x; clear_value x)
  (extract_lets +onlyGivenNames x; clear_value x)
  refine Ends.upd ?_
  assumption

theorem State_tempNotices_keeps {s0 : State} {s : State} {a1 : ℤ} {a2 : ℤ} (h : Ok s0 s) : Ok s0 (State.tempNotices s a1 a2) := by
  unfold State.tempNotices
  (extract_lets +onlyGivenNames x; clear_value x)
  refine Ends.fold ?_ (fun _ _ _ => ?_)
  assumption
  split
  (extract_lets +onlyGivenNames x; clear_value x)
  refine Ends.ite ?_ ?_
  refine State_asyncNotice_keeps ?_
  assumption
  assumption
  assumption

theorem State_notice_keeps {s0 : State} {s : State} {a1 : ℕ} {a2 : ℕ} {a3 : ℕ} (h : Ok s0 s) : Ok s0 (State.notice s a1 a2 a3) := by
  unfold State.notice
  refine Ends.upd ?_
  assumption

theorem State_warnFlag_keeps {s0 : State} {s : State} {a1 : Fld} {a2 : ℕ} {a3 : ℕ → Bool} {a4 : ℕ → Bool} (h : Ok s0 s) : Ok s0 (State.warnFlag s a1 a2 a3 a4) := by
  unfold State.warnFlag
  split
  refine Ends.ite ?_ ?_
  assumption
  (extract_lets +onlyGivenNames x; refine Ends.cut (x := x) (s := s0) ?_ (fun _ => ?_) <;> [subst x; clear_value x])
  refine State_setFlag_keeps ?_
  assumption
  (extract_lets +onlyGivenNames x; refine Ends.cut (x := x) (s := s0) ?_ (fun _ => ?_) <;> [subst x; clear_value x])
  refine State_notice_keeps ?_
  assumption
  refine State_mfwEvent_keeps ?_
  assumption
  refine Ends.ite ?_ ?_
  assumption
  refine State_setFlag_keeps ?_
  assumption

theorem State_judgeHeat_keeps {s0 : State} {s : State} (h : Ok s0 s) : Ok s0 (State.judgeHeat s) := by
  unfold State.judgeHeat
  (extract_lets +onlyGivenNames x; refine Ends.cut (x := x) (s := s0) ?_ (fun _ => ?_) <;> [subst x; clear_value x])
  refine Ends.fold ?_ (fun _ _ _ => ?_)
  assumption
  refine State_evaluate_keeps ?_
  assumption
  (extract_lets +onlyGivenNames x; clear_value x)
  (extract_lets +onlyGivenNames x; refine Ends.cut (x := x) (s := s0) ?_ (fun _ => ?_) <;> [subst x; clear_value x])
  refine State_tempNotices_keeps ?_
  assumption
  (extract_lets +onlyGivenNames x; refine Ends.cut (x := x) (s := s0) ?_ (fun _ => ?_) <;> [subst x; clear_value x])
  refine State_setFld_keeps ?_
  refine State_setFld_keeps ?_
  assumption
  (extract_lets +onlyGivenNames x; clear_value x)
  (extract_lets +onlyGivenNames x; refine Ends.cut (x := x) (s := s0) ?_ (fun _ => ?_) <;> [subst x; clear_value x])
  refine State_warnFlag_keeps ?_
  assumption
  (extract_lets +onlyGivenNames x; refine Ends.cut (x := x) (s := s0) ?_ (fun _ => ?_) <;> [subst x; clear_value x])
  refine State_warnFlag_keeps ?_
  assumption
  (extract_lets +onlyGivenNames x; clear_value x)
  refine Ends.upd ?_
  assumption

theorem State_withKcu_keeps {s0 : State} {s : State} {a1 : ℕ} {a2 : ℕ} {s3 : State} (h : Ok s0 s) (h3 : Ok s0 s3) : Ok s0 (State.withKcu s a1 a2 s3) := by
  unfold State.withKcu
  refine Ends.ite ?_ ?_
  assumption
  assumption

theorem State_kcuEnd_keeps {s0 : State} {s : State} {a1 : ℕ} {a2 : ℕ} {a3 : ℕ} (h : Ok s0 s) : Ok s0 (State.kcuEnd s a1 a2 a3) := by
  unfold State.kcuEnd
  (extract_lets +onlyGivenNames x; clear_value x)
  (extract_lets +onlyGivenNames x; clear_value x)
  (extract_lets +onlyGivenNames x; refine Ends.cut (x := x) (s := s0) ?_ (fun _ => ?_) <;> [subst x; clear_value x])
  refine State_setFld_keeps ?_
  refine State_setFlag_keeps ?_
  assumption
  refine State_setFlag_keeps ?_
  refine State_setFlag_keeps ?_
  assumption

theorem State_setKcu_keeps {s0 : State} {s : State} {a1 : ℕ} {a2 : ℕ} {a3 : KcuSes} (h : Ok s0 s) : Ok s0 (State.setKcu s a1 a2 a3) := by
  unfold State.setKcu
  refine Ends.upd ?_
  assumption

theorem State_kcuBlock_keeps {s0 : State} {s : State} {a1 : ℕ} {a2 : ℕ} {a3 : Bytes → Bytes → Bytes → Bytes × Bytes} (h : Ok s0 s) : Ok s0 (State.kcuBlock s a1 a2 a3) := by
  unfold State.kcuBlock
  refine State_withKcu_keeps ?_ ?_
  assumption
  split
  refine State_kcuEnd_keeps ?_
  assumption
  split
  (extract_lets +onlyGivenNames x; refine Ends.cut (x := x) (s := s0) ?_ (fun _ => ?_) <;> [subst x; clear_value x])
  refine Ends.fold ?_ (fun _ _ _ => ?_)
  assumption
  refine State_setFld_keeps ?_
  assumption
  (extract_lets +onlyGivenNames x; refine Ends.cut (x := x) (s := s0) ?_ (fun _ => ?_) <;> [subst x; clear_value x])
  refine State_addFld_keeps ?_
  assumption
  refine State_kcuEnd_keeps ?_
  refine State_setKcu_keeps ?_
  assumption

theorem State_kcuDma_keeps {s0 : State} {s : State} {a1 : ℕ} {a2 : ℕ} {a3 : ℕ} {a4 : ℕ} {a5 : AccKind} {s6 : State} (h : Ok s0 s) (h6 : Ok s0 s6) : Ok s0 (State.kcuDma s a1 a2 a3 a4 a5 s6) := by
  unfold State.kcuDma
  split
  refine State_channelFault_keeps ?_
  refine State_kcuEnd_keeps ?_
  assumption
  assumption

theorem State_kcuSave_keeps {s0 : State} {s : State} {a1 : ℕ} {a2 : ℕ} {a3 : KcuSes → Bool} {a4 : KcuSes → Bytes} (h : Ok s0 s) : Ok s0 (State.kcuSave s a1 a2 a3 a4) := by
  unfold State.kcuSave
  refine State_withKcu_keeps ?_ ?_
  assumption
  split
  refine State_kcuEnd_keeps ?_
  assumption
  refine Ends.ite ?_ ?_
  refine State_event_keeps ?_
  refine State_kcuEnd_keeps ?_
  assumption
  refine State_kcuDma_keeps ?_ ?_
  assumption
  refine State_kcuEnd_keeps ?_
  refine State_stores_keeps ?_
  assumption

theorem State_keepReserve_keeps {s0 : State} {s : State} {a1 : ℕ} (h : Ok s0 s) : Ok s0 (State.keepReserve s a1) := by
  induction a1 generalizing s
  · rw [State.keepReserve.eq_1]
    assumption
  · rename_i ih
    rw [State.keepReserve.eq_2]
    refine Ends.ite ?_ ?_
    refine State_journalRegs_keeps ?_
    assumption
    split
    refine State_journalRegs_keeps ?_
    assumption
    refine Ends.ite ?_ ?_
    apply ih
    beta_reduce
    (extract_lets +onlyGivenNames x; refine Ends.cut (x := x) (s := s0) ?_ (fun _ => ?_) <;> [subst x; clear_value x])
    refine State_takeBlocks_keeps ?_
    assumption
    refine Ends.upd ?_
    assumption
    (extract_lets +onlyGivenNames x; clear_value x)
    split
    refine Ends.ite ?_ ?_
    refine State_journalRegs_keeps ?_
    assumption
    (extract_lets +onlyGivenNames x; refine Ends.cut (x := x) (s := s0) ?_ (fun _ => ?_) <;> [subst x; clear_value x])
    beta_reduce
    (extract_lets +onlyGivenNames x; refine Ends.cut (x := x) (s := s0) ?_ (fun _ => ?_) <;> [subst x; clear_value x])
    refine State_takeBlocks_keeps ?_
    assumption
    refine Ends.upd ?_
    assumption
    (extract_lets +onlyGivenNames x; subst x)
    (extract_lets +onlyGivenNames x; refine Ends.cut (x := x) (s := s0) ?_ (fun _ => ?_) <;> [subst x; clear_value x])
    refine Ends.upd ?_
    assumption
    apply ih
    refine State_updateFree_keeps ?_
    refine State_log_keeps ?_
    assumption
    refine State_journalRegs_keeps ?_
    assumption

theorem State_listCycle_keeps {s0 : State} {s : State} {a1 : ℕ} (h : Ok s0 s) : Ok s0 (State.listCycle s a1) := by
  unfold State.listCycle
  split
  assumption
  split
  (extract_lets +onlyGivenNames x; clear_value x)
  split
  assumption
  (extract_lets +onlyGivenNames x; clear_value x)
  (extract_lets +onlyGivenNames x; clear_value x)
  (extract_lets +onlyGivenNames x; clear_value x)
  (extract_lets +onlyGivenNames x; clear_value x)
  (extract_lets +onlyGivenNames x; clear_value x)
  (extract_lets +onlyGivenNames x; clear_value x)
  refine State_sendMsg_keeps ?_
  refine State_setSess_keeps ?_
  assumption
  assumption

theorem State_slotEnd_keeps {s0 : State} {s : State} {a1 : ℕ} {a2 : ℕ} (h : Ok s0 s) : Ok s0 (State.slotEnd s a1 a2) := by
  unfold State.slotEnd
  (extract_lets +onlyGivenNames x; clear_value x)
  refine State_setFld_keeps ?_
  refine State_setFld_keeps ?_
  refine State_setFlag_keeps ?_
  assumption

theorem State_loadSlot_keeps {s0 : State} {s : State} {a1 : ℕ} {a2 : ℕ} {a3 : ℕ} {a4 : Bytes} (h : Ok s0 s) : Ok s0 (State.loadSlot s a1 a2 a3 a4) := by
  unfold State.loadSlot
  split
  refine State_slotEnd_keeps ?_
  refine Ends.upd ?_
  assumption

theorem State_logDurable_keeps {s0 : State} {s : State} {a1 : ℕ} (h : Ok s0 s) : Ok s0 (State.logDurable s a1) := by
  unfold State.logDurable
  split
  refine Ends.ite ?_ ?_
  assumption
  (extract_lets +onlyGivenNames x; clear_value x)
  (extract_lets +onlyGivenNames x; subst x)
  (extract_lets +onlyGivenNames x; refine Ends.cut (x := x) (s := s0) ?_ (fun _ => ?_) <;> [subst x; clear_value x])
  refine Ends.upd ?_
  assumption
  (extract_lets +onlyGivenNames x; refine Ends.cut (x := x) (s := s0) ?_ (fun _ => ?_) <;> [subst x; clear_value x])
  refine State_setFld_keeps ?_
  assumption
  refine State_tryTxns_keeps ?_
  refine Ends.fold ?_ (fun _ _ _ => ?_)
  assumption
  refine State_durableRec_keeps ?_
  assumption
  assumption

theorem State_mapRetry_keeps {s0 : State} {s : State} (h : Ok s0 s) : Ok s0 (State.mapRetry s) := by
  unfold State.mapRetry
  (extract_lets +onlyGivenNames x; refine Ends.cut (x := x) (s := s0) ?_ (fun _ => ?_) <;> [subst x; clear_value x])
  refine Ends.fold ?_ (fun _ _ _ => ?_)
  assumption
  refine Ends.fold ?_ (fun _ _ _ => ?_)
  assumption
  split
  refine Ends.ite ?_ ?_
  refine State_writePage_keeps ?_
  assumption
  assumption
  refine Ends.ite ?_ ?_
  assumption
  refine State_rangeStep_keeps ?_
  assumption
  refine Ends.fold ?_ (fun _ _ _ => ?_)
  assumption
  split
  (extract_lets +onlyGivenNames x; subst x)
  (extract_lets +onlyGivenNames x; refine Ends.cut (x := x) (s := s0) ?_ (fun _ => ?_) <;> [subst x; clear_value x])
  refine Ends.upd ?_
  refine Ends.ofL (by assumption) ?_
  refine State_enterLine_keeps ?_
  assumption
  (extract_lets +onlyGivenNames x; refine Ends.cut (x := x) (s := s0) ?_ (fun _ => ?_) <;> [subst x; clear_value x])
  refine Ends.ite ?_ ?_
  refine State_endLooks_keeps ?_
  refine State_rangeFill_keeps ?_
  assumption
  assumption
  refine Ends.ite ?_ ?_
  refine State_prefetch_keeps ?_
  assumption
  assumption
  refine Ends.ofL (by assumption) ?_
  refine State_enterLine_keeps ?_
  assumption

theorem State_mctp_keeps {s0 : State} {s : State} {a1 : ℕ} {a2 : State → ℕ × Bytes × State} (h : Ok s0 s) (h2 : ∀ x0, Ok s0 x0 → Ends (fun p : ℕ × Bytes × State => Keeps s0 p.2.2) (a2 x0)) : Ok s0 (State.mctp s a1 a2) := by
  unfold State.mctp
  refine Ends.ite ?_ ?_
  assumption
  split
  refine State_emit_keeps ?_
  refine Ends.ofRR (by assumption) ?_
  refine h2 _ ?_
  assumption

theorem State_mgmtReply_keeps {s0 : State} {s : State} {a1 : MgmtHdr} {a2 : ℕ} {a3 : ℕ} {a4 : Bytes} (h : Ok s0 s) : Ok s0 (State.mgmtReply s a1 a2 a3 a4) := by
  unfold State.mgmtReply
  refine State_emit_keeps ?_
  assumption

theorem State_mgmt_keeps {s0 : State} {s : State} {a1 : MgmtHdr} {a2 : ℕ} {a3 : State → ℕ × Bytes × State} (h : Ok s0 s) (h3 : ∀ x0, Ok s0 x0 → Ends (fun p : ℕ × Bytes × State => Keeps s0 p.2.2) (a3 x0)) : Ok s0 (State.mgmt s a1 a2 a3) := by
  unfold State.mgmt
  refine Ends.ite ?_ ?_
  assumption
  split
  refine State_mgmtReply_keeps ?_
  assumption
  split
  refine State_mgmtReply_keeps ?_
  refine Ends.ofRR (by assumption) ?_
  refine h3 _ ?_
  assumption

theorem State_mgmtRole_keeps {s0 : State} {s : State} {a1 : MgmtHdr} {a2 : RoleEnv} {a3 : RoleBody} (h : Ok s0 s) : Ok s0 (State.mgmtRole s a1 a2 a3) := by
  unfold State.mgmtRole
  refine Ends.ite ?_ ?_
  assumption
  split
  refine State_mgmtReply_keeps ?_
  assumption
  refine State_roleRun_keeps ?_
  assumption

theorem State_modCc_keeps {s0 : State} {s : State} {a1 : CcWho} {a2 : ℕ → ℕ → Cc → Cc} (h : Ok s0 s) : Ok s0 (State.modCc s a1 a2) := by
  unfold State.modCc
  split
  split
  refine State_setQp_keeps ?_
  assumption
  assumption
  split
  (extract_lets +onlyGivenNames x; clear_value x)
  refine State_setSess_keeps ?_
  assumption
  assumption

theorem State_startCycle_keeps {s0 : State} {s : State} {a1 : ℕ} (h : Ok s0 s) : Ok s0 (State.startCycle s a1) := by
  unfold State.startCycle
  split
  assumption
  split
  assumption
  refine Ends.ite ?_ ?_
  assumption
  (extract_lets +onlyGivenNames x; clear_value x)
  split
  refine State_setSess_keeps ?_
  assumption
  split
  split
  refine State_setSess_keeps ?_
  refine State_putNs_keeps ?_
  refine Ends.ofL (by assumption) ?_
  refine State_snapCreate_keeps ?_
  assumption
  refine Ends.ofL (by assumption) ?_
  refine State_snapCreate_keeps ?_
  assumption
  refine Ends.ofL (by assumption) ?_
  refine State_snapCreate_keeps ?_
  assumption

theorem State_nextCycle_keeps {s0 : State} {s : State} {a1 : ℕ} {a2 : Sess} {a3 : SrcCycle} (h : Ok s0 s) : Ok s0 (State.nextCycle s a1 a2 a3) := by
  unfold State.nextCycle
  (extract_lets +onlyGivenNames x; clear_value x)
  (extract_lets +onlyGivenNames x; refine Ends.cut (x := x) (s := s0) ?_ (fun _ => ?_) <;> [subst x; clear_value x])
  refine State_setSess_keeps ?_
  assumption
  (extract_lets +onlyGivenNames x; refine Ends.cut (x := x) (s := s0) ?_ (fun _ => ?_) <;> [subst x; clear_value x])
  split
  refine Ends.projL ?_
  refine State_snapDelete_keeps ?_
  assumption
  assumption
  (extract_lets +onlyGivenNames x; subst x; beta_reduce)
  split
  refine State_startCycle_keeps ?_
  split
  refine State_putNs_keeps ?_
  refine Ends.ofL (by assumption) ?_
  refine State_snapCreate_keeps ?_
  assumption
  refine Ends.ofL (by assumption) ?_
  refine State_snapCreate_keeps ?_
  assumption
  split
  refine State_putNs_keeps ?_
  refine Ends.ofL (by assumption) ?_
  refine State_snapCreate_keeps ?_
  assumption
  refine Ends.ofL (by assumption) ?_
  refine State_snapCreate_keeps ?_
  assumption

theorem State_packPart_keeps {s0 : State} {s : State} {a1 : ℕ} {a2 : ℕ} {a3 : Bytes} (h : Ok s0 s) : Ok s0 (State.packPart s a1 a2 a3) := by
  unfold State.packPart
  split
  assumption
  (extract_lets +onlyGivenNames x; clear_value x)
  (extract_lets +onlyGivenNames x; clear_value x)
  (extract_lets +onlyGivenNames x; clear_value x)
  (extract_lets +onlyGivenNames x; clear_value x)
  (extract_lets +onlyGivenNames x; subst x; beta_reduce)
  refine Ends.ite ?_ ?_
  refine Ends.upd ?_
  assumption
  refine Ends.ite ?_ ?_
  refine State_askPack_keeps ?_
  refine Ends.upd ?_
  assumption
  refine Ends.upd ?_
  assumption

theorem State_packPlaced_keeps {s0 : State} {s : State} {a1 : ℕ} (h : Ok s0 s) : Ok s0 (State.packPlaced s a1) := by
  unfold State.packPlaced
  split
  assumption
  split
  refine State_copyPlaced_keeps ?_
  assumption
  (extract_lets +onlyGivenNames x; refine Ends.cut (x := x) (s := s0) ?_ (fun _ => ?_) <;> [subst x; clear_value x])
  refine State_setPack_keeps ?_
  assumption
  refine Ends.fold ?_ (fun _ _ _ => ?_)
  assumption
  refine State_setChunk_keeps ?_
  assumption

theorem State_pagePlaced_keeps {s0 : State} {s : State} {a1 : ℕ} {a2 : DirEnt} (h : Ok s0 s) : Ok s0 (State.pagePlaced s a1 a2) := by
  unfold State.pagePlaced
  refine Ends.ite ?_ ?_
  split
  (extract_lets +onlyGivenNames x; clear_value x)
  (extract_lets +onlyGivenNames x; subst x)
  (extract_lets +onlyGivenNames x; refine Ends.cut (x := x) (s := s0) ?_ (fun _ => ?_) <;> [subst x; clear_value x])
  refine Ends.upd ?_
  assumption
  refine Ends.ite ?_ ?_
  (extract_lets +onlyGivenNames x; clear_value x)
  (extract_lets +onlyGivenNames x; refine Ends.cut (x := x) (s := s0) ?_ (fun _ => ?_) <;> [subst x; clear_value x])
  refine State_log_keeps ?_
  assumption
  (extract_lets +onlyGivenNames x; clear_value x)
  refine Ends.upd ?_
  assumption
  assumption
  assumption
  refine State_log_keeps ?_
  assumption

theorem State_pathReport_keeps {s0 : State} {s : State} {a1 : ℕ} {a2 : ℕ} {a3 : Bool} (h : Ok s0 s) : Ok s0 (State.pathReport s a1 a2 a3) := by
  unfold State.pathReport
  split
  assumption
  (extract_lets +onlyGivenNames x; clear_value x)
  refine Ends.ite ?_ ?_
  refine State_setSess_keeps ?_
  assumption
  refine Ends.ite ?_ ?_
  refine State_setSess_keeps ?_
  assumption
  (extract_lets +onlyGivenNames x; clear_value x)
  (extract_lets +onlyGivenNames x; clear_value x)
  refine State_pgCount_keeps ?_
  refine State_setSess_keeps ?_
  assumption

theorem State_setHold_keeps {s0 : State} {s : State} {a1 : ℕ} {a2 : SMap (ℕ × ℕ)} (h : Ok s0 s) : Ok s0 (State.setHold s a1 a2) := by
  unfold State.setHold
  (extract_lets +onlyGivenNames x; refine Ends.cut (x := x) (s := s0) ?_ (fun _ => ?_) <;> [subst x; clear_value x])
  refine State_accrueHold_keeps ?_
  assumption
  (extract_lets +onlyGivenNames x; clear_value x)
  (extract_lets +onlyGivenNames x; clear_value x)
  refine State_startTx_keeps ?_
  refine State_setFport_keeps ?_
  assumption

theorem State_pausePrio_keeps {s0 : State} {s : State} {a1 : ℕ} {a2 : ℕ} {a3 : ℕ} (h : Ok s0 s) : Ok s0 (State.pausePrio s a1 a2 a3) := by
  unfold State.pausePrio
  (extract_lets +onlyGivenNames x; clear_value x)
  refine Ends.ite ?_ ?_
  refine State_setFport_keeps ?_
  assumption
  refine Ends.ite ?_ ?_
  refine State_setHold_keeps ?_
  assumption
  (extract_lets +onlyGivenNames x; clear_value x)
  refine State_setHold_keeps ?_
  assumption

theorem State_pauseFrame_keeps {s0 : State} {s : State} {a1 : ℕ} {a2 : ℕ} {a3 : List (ℕ × ℕ)} (h : Ok s0 s) : Ok s0 (State.pauseFrame s a1 a2 a3) := by
  unfold State.pauseFrame
  (extract_lets +onlyGivenNames x; refine Ends.cut (x := x) (s := s0) ?_ (fun _ => ?_) <;> [subst x; clear_value x])
  refine State_portCount_keeps ?_
  assumption
  (extract_lets +onlyGivenNames x; clear_value x)
  refine Ends.ite ?_ ?_
  refine Ends.fold ?_ (fun _ _ _ => ?_)
  assumption
  refine State_pausePrio_keeps ?_
  assumption
  refine Ends.ite ?_ ?_
  (extract_lets +onlyGivenNames x; clear_value x)
  refine Ends.fold ?_ (fun _ _ _ => ?_)
  assumption
  refine State_pausePrio_keeps ?_
  assumption
  refine State_badControl_keeps ?_
  assumption

theorem State_pgAck_keeps {s0 : State} {s : State} {a1 : ℕ} {a2 : Sess} {a3 : PgRx} (h : Ok s0 s) : Ok s0 (State.pgAck s a1 a2 a3) := by
  unfold State.pgAck
  (extract_lets +onlyGivenNames x; clear_value x)
  refine Ends.ite ?_ ?_
  assumption
  (extract_lets +onlyGivenNames x; clear_value x)
  (extract_lets +onlyGivenNames x; clear_value x)
  (extract_lets +onlyGivenNames x; clear_value x)
  (extract_lets +onlyGivenNames x; refine Ends.cut (x := x) (s := s0) ?_ (fun _ => ?_) <;> [subst x; clear_value x])
  refine State_setSess_keeps ?_
  assumption
  (extract_lets +onlyGivenNames x; refine Ends.cut (x := x) (s := s0) ?_ (fun _ => ?_) <;> [subst x; clear_value x])
  refine Ends.fold ?_ (fun _ _ _ => ?_)
  assumption
  refine State_pathReport_keeps ?_
  assumption
  (extract_lets +onlyGivenNames x; refine Ends.cut (x := x) (s := s0) ?_ (fun _ => ?_) <;> [subst x; clear_value x])
  split
  (extract_lets +onlyGivenNames x; clear_value x)
  refine State_setSess_keeps ?_
  assumption
  assumption
  refine State_pgFlush_keeps ?_
  assumption

theorem State_sendPgAck_keeps {s0 : State} {s : State} {a1 : ℕ} (h : Ok s0 s) : Ok s0 (State.sendPgAck s a1) := by
  unfold State.sendPgAck
  split
  assumption
  (extract_lets +onlyGivenNames x; clear_value x)
  (extract_lets +onlyGivenNames x; clear_value x)
  (extract_lets +onlyGivenNames x; refine Ends.cut (x := x) (s := s0) ?_ (fun _ => ?_) <;> [subst x; clear_value x])
  refine State_setSess_keeps ?_
  assumption
  refine State_pgPacket_keeps ?_
  assumption

theorem State_pgDeliver_keeps {s0 : State} {s : State} {a1 : ℕ} {a2 : ℕ} (h : Ok s0 s) : Ok s0 (State.pgDeliver s a1 a2) := by
  induction a2 generalizing s a1
  · rw [State.pgDeliver.eq_1]
    assumption
  · rename_i ih
    rw [State.pgDeliver.eq_2]
    split
    assumption
    split
    assumption
    refine Ends.ite ?_ ?_
    assumption
    (extract_lets +onlyGivenNames x; clear_value x)
    (extract_lets +onlyGivenNames x; clear_value x)
    (extract_lets +onlyGivenNames x; clear_value x)
    apply ih
    refine State_setSess_keeps ?_
    refine Ends.ite ?_ ?_
    assumption
    refine State_pgCount_keeps ?_
    assumption

theorem State_pgData_keeps {s0 : State} {s : State} {a1 : ℕ} {a2 : Sess} {a3 : PgRx} (h : Ok s0 s) : Ok s0 (State.pgData s a1 a2 a3) := by
  unfold State.pgData
  (extract_lets +onlyGivenNames x; clear_value x)
  (extract_lets +onlyGivenNames x; clear_value x)
  (extract_lets +onlyGivenNames x; clear_value x)
  (extract_lets +onlyGivenNames x; refine Ends.cut (x := x) (s := s0) ?_ (fun _ => ?_) <;> [subst x; clear_value x])
  refine State_pgCount_keeps ?_
  assumption
  refine Ends.ite ?_ ?_
  assumption
  (extract_lets +onlyGivenNames x; clear_value x)
  (extract_lets +onlyGivenNames x; refine Ends.cut (x := x) (s := s0) ?_ (fun _ => ?_) <;> [subst x; clear_value x])
  refine State_setSess_keeps ?_
  assumption
  refine Ends.ite ?_ ?_
  refine State_sendPgAck_keeps ?_
  assumption
  (extract_lets +onlyGivenNames x; clear_value x)
  (extract_lets +onlyGivenNames x; clear_value x)
  (extract_lets +onlyGivenNames x; clear_value x)
  refine Ends.ite ?_ ?_
  refine State_pgCount_keeps ?_
  assumption
  refine Ends.ite ?_ ?_
  (extract_lets +onlyGivenNames x; refine Ends.cut (x := x) (s := s0) ?_ (fun _ => ?_) <;> [subst x; clear_value x])
  refine State_pgCount_keeps ?_
  assumption
  refine Ends.ite ?_ ?_
  refine State_setSess_keeps ?_
  assumption
  refine State_event_keeps ?_
  refine State_setSess_keeps ?_
  assumption
  (extract_lets +onlyGivenNames x; clear_value x)
  refine Ends.ite ?_ ?_
  assumption
  (extract_lets +onlyGivenNames x; clear_value x)
  (extract_lets +onlyGivenNames x; refine Ends.cut (x := x) (s := s0) ?_ (fun _ => ?_) <;> [subst x; clear_value x])
  refine State_setSess_keeps ?_
  assumption
  refine Ends.ite ?_ ?_
  assumption
  refine State_sendPgAck_keeps ?_
  refine State_pgDeliver_keeps ?_
  refine State_pgCount_keeps ?_
  assumption

theorem State_pgGeneration_keeps {s0 s : State} {k : Nat} {x : Sess} {g : PgHdr} {t : State} (e : s.pgGeneration k x g = some t) (h : Ok s0 s) : Ok s0 t := by
  unfold State.pgGeneration at e
  split at e
  · cases e
  · split at e
    · cases e; exact h
    · cases e; exact State_setSess_keeps h

theorem State_pgNack_keeps {s0 : State} {s : State} {a1 : ℕ} {a2 : Sess} {a3 : PgRx} (h : Ok s0 s) : Ok s0 (State.pgNack s a1 a2 a3) := by
  unfold State.pgNack
  (extract_lets +onlyGivenNames x; clear_value x)
  split
  assumption
  (extract_lets +onlyGivenNames x; clear_value x)
  (extract_lets +onlyGivenNames x; clear_value x)
  (extract_lets +onlyGivenNames x; clear_value x)
  (extract_lets +onlyGivenNames x; refine Ends.cut (x := x) (s := s0) ?_ (fun _ => ?_) <;> [subst x; clear_value x])
  refine State_setSess_keeps ?_
  assumption
  refine Ends.fold ?_ (fun _ _ _ => ?_)
  assumption
  (extract_lets +onlyGivenNames x; clear_value x)
  refine Ends.ite ?_ ?_
  refine State_pathReport_keeps ?_
  assumption
  refine State_sendSlot_keeps ?_
  refine State_pathReport_keeps ?_
  assumption

theorem State_pgRto_keeps {s0 : State} {s : State} {a1 : ℕ} {a2 : ℕ} (h : Ok s0 s) : Ok s0 (State.pgRto s a1 a2) := by
  unfold State.pgRto
  split
  assumption
  split
  assumption
  split
  assumption
  refine Ends.ite ?_ ?_
  assumption
  (extract_lets +onlyGivenNames x; refine Ends.cut (x := x) (s := s0) ?_ (fun _ => ?_) <;> [subst x; clear_value x])
  refine Ends.fold ?_ (fun _ _ _ => ?_)
  assumption
  refine State_pathReport_keeps ?_
  assumption
  refine State_sendSlots_keeps ?_
  assumption

theorem State_readCsr_keeps {s0 : State} {s : State} {a1 : ℕ} {a2 : ℕ} {a3 : ℕ} {a4 : ℕ} {a5 : Word} (h : Ok s0 s) : Ends (fun p : Word × State => Keeps s0 p.2) (State.readCsr s a1 a2 a3 a4 a5) := by
  unfold State.readCsr
  (extract_lets +onlyGivenNames x; clear_value x)
  refine Ends.ite ?_ ?_
  split
  refine Ends.ite ?_ ?_
  refine Ends.snd ?_
  refine State_takeReplay_keeps (by assumption) ?_
  assumption
  refine Ends.snd ?_
  refine State_diverge_keeps ?_
  refine State_takeReplay_keeps (by assumption) ?_
  assumption
  refine Ends.snd ?_
  refine State_diverge_keeps ?_
  refine State_takeReplay_keeps (by assumption) ?_
  assumption
  refine Ends.snd ?_
  refine State_diverge_keeps ?_
  assumption
  refine Ends.ite ?_ ?_
  refine Ends.snd ?_
  refine State_capture_keeps ?_
  assumption
  refine Ends.snd ?_
  assumption

theorem State_readDone_keeps {s0 : State} {s : State} {a1 : Requester} {a2 : ℕ} {a3 : Word} (h : Ok s0 s) : Ok s0 (State.readDone s a1 a2 a3) := by
  unfold State.readDone
  split
  refine State_emit_keeps ?_
  assumption
  (extract_lets +onlyGivenNames x; subst x; beta_reduce)
  refine State_emit_keeps ?_
  refine Ends.projR ?_
  refine State_readCsr_keeps ?_
  assumption

theorem State_popLog_keeps {s0 : State} {s : State} {a1 : Requester} {a2 : ℕ} (h : Ok s0 s) : Ok s0 (State.popLog s a1 a2) := by
  unfold State.popLog
  split
  refine State_readDone_keeps ?_
  assumption
  refine State_readDone_keeps ?_
  refine State_dropFault_keeps ?_
  assumption

theorem State_portLost_keeps {s0 : State} {s : State} {a1 : ℕ} (h : Ok s0 s) : Ok s0 (State.portLost s a1) := by
  unfold State.portLost
  (extract_lets +onlyGivenNames x; clear_value x)
  (extract_lets +onlyGivenNames x; subst x)
  (extract_lets +onlyGivenNames x; refine Ends.cut (x := x) (s := s0) ?_ (fun _ => ?_) <;> [subst x; clear_value x])
  refine State_setSport_keeps ?_
  assumption
  (extract_lets +onlyGivenNames x; refine Ends.cut (x := x) (s := s0) ?_ (fun _ => ?_) <;> [subst x; clear_value x])
  refine State_setCpFlag_keeps ?_
  refine State_setCpFlag_keeps ?_
  assumption
  (extract_lets +onlyGivenNames x; refine Ends.cut (x := x) (s := s0) ?_ (fun _ => ?_) <;> [subst x; clear_value x])
  refine State_setCpFld_keeps ?_
  assumption
  (extract_lets +onlyGivenNames x; refine Ends.cut (x := x) (s := s0) ?_ (fun _ => ?_) <;> [subst x; clear_value x])
  refine State_endPortOps_keeps ?_
  assumption
  refine State_journalRegs_keeps ?_
  refine State_sjCarrierLost_keeps ?_
  assumption

theorem State_postAttached_keeps {s0 : State} {s : State} {a1 : ℕ} {a2 : ℕ} {a3 : ℕ} {a4 : RingBody} {a5 : ℕ} {a6 : ℕ} (h : Ok s0 s) : Ok s0 (State.postAttached s a1 a2 a3 a4 a5 a6) := by
  unfold State.postAttached
  split
  refine Ends.ofL (by assumption) ?_
  refine State_tryPost_keeps ?_
  assumption
  refine State_channelFault_keeps ?_
  refine Ends.ofL (by assumption) ?_
  refine State_tryPost_keeps ?_
  assumption

theorem State_powerDownDies_keeps {s0 s : State} (h : Ok s0 s) : Ok s0 s.powerDownDies := by
  have ht : ∀ c, Ok s0 (s.headReset c) := fun c => State_headReset_keeps h
  unfold State.powerDownDies
  refine Ends.updRegs (ht _) fun x => (SMap.rising_iff _).2 (List.pairwise_append.2 ⟨?_, ?_, ?_⟩)
  · exact ((SMap.rising_iff _).1 (h.6 x)).filter _
  · exact ((SMap.rising_iff _).1 ((ht _).6 x)).filter _
  · intro a ha b hb
    have h1 := (List.mem_filter.1 ha).2
    have h2 := (List.mem_filter.1 hb).2
    simp only [beq_iff_eq, bne_iff_ne, ne_eq] at h1 h2
    omega

theorem State_powerHold_keeps {s0 : State} {s : State} (h : Ok s0 s) : Ok s0 (State.powerHold s) := by
  unfold State.powerHold
  (extract_lets +onlyGivenNames x; refine Ends.cut (x := x) (s := s0) ?_ (fun _ => ?_) <;> [subst x; clear_value x])
  refine State_setFlag_keeps ?_
  assumption
  (extract_lets +onlyGivenNames x; subst x)
  (extract_lets +onlyGivenNames x; refine Ends.cut (x := x) (s := s0) ?_ (fun _ => ?_) <;> [subst x; clear_value x])
  refine Ends.upd ?_
  assumption
  refine State_enter_keeps ?_
  assumption

theorem State_powerLoss_keeps {s0 : State} {s : State} (h : Ok s0 s) : Ok s0 (State.powerLoss s) := by
  unfold State.powerLoss
  (extract_lets +onlyGivenNames x; refine Ends.cut (x := x) (s := s0) ?_ (fun _ => ?_) <;> [subst x; clear_value x])
  refine State_headReset_keeps ?_
  assumption
  (extract_lets +onlyGivenNames x; subst x)
  (extract_lets +onlyGivenNames x; refine Ends.cut (x := x) (s := s0) ?_ (fun _ => ?_) <;> [subst x; clear_value x])
  refine Ends.upd ?_
  assumption
  refine State_enter_keeps ?_
  refine State_setFlag_keeps ?_
  assumption

theorem State_powerWarn_keeps {s0 : State} {s : State} (h : Ok s0 s) : Ok s0 (State.powerWarn s) := by
  unfold State.powerWarn
  refine Ends.ite ?_ ?_
  assumption
  (extract_lets +onlyGivenNames x; refine Ends.cut (x := x) (s := s0) ?_ (fun _ => ?_) <;> [subst x; clear_value x])
  refine State_setFlag_keeps ?_
  assumption
  split
  refine State_beginDump_keeps ?_
  refine State_yield_keeps ?_
  assumption
  refine State_beginDump_keeps ?_
  assumption
  assumption
  refine State_powerHold_keeps ?_
  assumption

theorem State_putFpSlot_keeps {s0 : State} {s : State} {a1 : ℕ} {a2 : ℕ} {a3 : Bytes} {a4 : Bytes} (h : Ok s0 s) : Ok s0 (State.putFpSlot s a1 a2 a3 a4) := by
  unfold State.putFpSlot
  (extract_lets +onlyGivenNames x; clear_value x)
  refine Ends.upd ?_
  assumption

theorem State_putXtsSlot_keeps {s0 : State} {s : State} {a1 : ℕ} {a2 : ℕ} {a3 : KeyGen} (h : Ok s0 s) : Ok s0 (State.putXtsSlot s a1 a2 a3) := by
  unfold State.putXtsSlot
  (extract_lets +onlyGivenNames x; clear_value x)
  refine Ends.upd ?_
  assumption

theorem State_qpResult_keeps {s0 : State} {s : State} {a1 : ℕ} {a2 : ℕ} (h : Ok s0 s) : Ok s0 (State.qpResult s a1 a2) := by
  unfold State.qpResult
  refine State_setFlag_keeps ?_
  refine State_setFlag_keeps ?_
  refine State_setFld_keeps ?_
  assumption

theorem State_qpCreate_keeps {s0 : State} {s : State} {a1 : ℕ} {a2 : ℕ} (h : Ok s0 s) : Ok s0 (State.qpCreate s a1 a2) := by
  unfold State.qpCreate
  split
  refine State_qpResult_keeps ?_
  assumption
  (extract_lets +onlyGivenNames x; clear_value x)
  split
  refine State_qpResult_keeps ?_
  assumption
  refine Ends.ite ?_ ?_
  refine State_qpResult_keeps ?_
  assumption
  split
  (extract_lets +onlyGivenNames x; clear_value x)
  (extract_lets +onlyGivenNames x; subst x)
  (extract_lets +onlyGivenNames x; refine Ends.cut (x := x) (s := s0) ?_ (fun _ => ?_) <;> [subst x; clear_value x])
  refine Ends.upd ?_
  assumption
  (extract_lets +onlyGivenNames x; clear_value x)
  (extract_lets +onlyGivenNames x; refine Ends.cut (x := x) (s := s0) ?_ (fun _ => ?_) <;> [subst x; clear_value x])
  refine State_cacheCtx_keeps ?_
  refine State_setQp_keeps ?_
  assumption
  (extract_lets +onlyGivenNames x; refine Ends.cut (x := x) (s := s0) ?_ (fun _ => ?_) <;> [subst x; clear_value x])
  refine Ends.ite ?_ ?_
  refine State_sendShadow_keeps ?_
  assumption
  assumption
  refine State_qpResult_keeps ?_
  refine State_setFld_keeps ?_
  assumption

theorem State_qpDestroy_keeps {s0 : State} {s : State} {a1 : ℕ} {a2 : ℕ} (h : Ok s0 s) : Ok s0 (State.qpDestroy s a1 a2) := by
  unfold State.qpDestroy
  split
  refine State_qpResult_keeps ?_
  assumption
  refine Ends.ite ?_ ?_
  refine State_qpResult_keeps ?_
  assumption
  (extract_lets +onlyGivenNames x; refine Ends.cut (x := x) (s := s0) ?_ (fun _ => ?_) <;> [subst x; clear_value x])
  refine State_dropCmds_keeps ?_
  assumption
  (extract_lets +onlyGivenNames x; refine Ends.cut (x := x) (s := s0) ?_ (fun _ => ?_) <;> [subst x; clear_value x])
  refine Ends.ite ?_ ?_
  refine Ends.ite ?_ ?_
  refine State_deleteCtrl_keeps ?_
  assumption
  refine State_deleteQueue_keeps ?_
  assumption
  assumption
  (extract_lets +onlyGivenNames x; refine Ends.cut (x := x) (s := s0) ?_ (fun _ => ?_) <;> [subst x; clear_value x])
  refine Ends.ite ?_ ?_
  refine State_send_keeps ?_
  assumption
  assumption
  (extract_lets +onlyGivenNames x; clear_value x)
  (extract_lets +onlyGivenNames x; subst x)
  (extract_lets +onlyGivenNames x; refine Ends.cut (x := x) (s := s0) ?_ (fun _ => ?_) <;> [subst x; clear_value x])
  refine Ends.upd ?_
  assumption
  refine State_qpResult_keeps ?_
  assumption

theorem State_qpToError_keeps {s0 : State} {s : State} {a1 : ℕ} {a2 : ℕ} (h : Ok s0 s) : Ok s0 (State.qpToError s a1 a2) := by
  unfold State.qpToError
  split
  refine Ends.ite ?_ ?_
  refine State_qpResult_keeps ?_
  refine State_qpFail_keeps ?_
  assumption
  refine State_qpResult_keeps ?_
  assumption
  refine State_qpResult_keeps ?_
  assumption

theorem State_readDecrypted_keeps {s0 : State} {s : State} {a1 : ℕ} (h : Ok s0 s) : Ok s0 (State.readDecrypted s a1) := by
  unfold State.readDecrypted
  split
  refine Ends.ite ?_ ?_
  assumption
  split
  refine State_packBad_keeps ?_
  refine State_leaveLane_keeps ?_
  assumption
  split
  refine State_leaveLane_keeps ?_
  assumption
  (extract_lets +onlyGivenNames x; clear_value x)
  (extract_lets +onlyGivenNames x; refine Ends.cut (x := x) (s := s0) ?_ (fun _ => ?_) <;> [subst x; clear_value x])
  refine State_leaveLane_keeps ?_
  refine State_useXts_keeps (by assumption) ?_
  assumption
  refine Ends.upd ?_
  assumption
  assumption

theorem State_readDiode_keeps {s0 : State} {s : State} {a1 : ℕ} {a2 : ℤ} (h : Ok s0 s) : Ok s0 (State.readDiode s a1 a2) := by
  unfold State.readDiode
  (extract_lets +onlyGivenNames x; clear_value x)
  (extract_lets +onlyGivenNames x; clear_value x)
  (extract_lets +onlyGivenNames x; clear_value x)
  refine Ends.ite ?_ ?_
  refine State_setTemp_keeps ?_
  assumption
  refine Ends.ite ?_ ?_
  refine State_setTemp_keeps ?_
  assumption
  refine Ends.ite ?_ ?_
  refine State_setTemp_keeps ?_
  assumption
  refine State_mfwEvent_keeps ?_
  refine State_setTemp_keeps ?_
  assumption

theorem State_readRec_keeps {s0 : State} {s : State} {a1 : ℕ} {a2 : ℕ} {a3 : KeyRec → State} (h : Ok s0 s) (h3 : ∀ x0, Ok s0 (a3 x0)) : Ok s0 (State.readRec s a1 a2 a3) := by
  unfold State.readRec
  refine State_withKcu_keeps ?_ ?_
  assumption
  (extract_lets +onlyGivenNames x; clear_value x)
  (extract_lets +onlyGivenNames x; clear_value x)
  refine Ends.ite ?_ ?_
  refine State_kcuDma_keeps ?_ ?_
  assumption
  assumption
  split
  refine h3 _
  refine State_kcuEnd_keeps ?_
  assumption

theorem State_reportSlot_keeps {s0 : State} {s : State} {a1 : SegDesc} {a2 : ℕ} {a3 : ℕ} (h : Ok s0 s) : Ok s0 (State.reportSlot s a1 a2 a3) := by
  unfold State.reportSlot
  (extract_lets +onlyGivenNames x; clear_value x)
  (extract_lets +onlyGivenNames x; clear_value x)
  refine Ends.fold ?_ (fun _ _ _ => ?_)
  assumption
  (extract_lets +onlyGivenNames x; clear_value x)
  refine Ends.ite ?_ ?_
  refine State_exc_keeps ?_
  assumption
  assumption

theorem State_rebuildPart_keeps {s0 : State} {s : State} {a1 : ℕ} {a2 : ℕ} {a3 : ℕ} {a4 : ℕ} {a5 : Option Bytes} (h : Ok s0 s) : Ok s0 (State.rebuildPart s a1 a2 a3 a4 a5) := by
  unfold State.rebuildPart
  split
  refine Ends.ite ?_ ?_
  assumption
  (extract_lets +onlyGivenNames x; clear_value x)
  (extract_lets +onlyGivenNames x; refine Ends.cut (x := x) (s := s0) ?_ (fun _ => ?_) <;> [subst x; clear_value x])
  refine State_setRebuild_keeps ?_
  assumption
  refine Ends.ite ?_ ?_
  assumption
  refine Ends.ite ?_ ?_
  (extract_lets +onlyGivenNames x; refine Ends.cut (x := x) (s := s0) ?_ (fun _ => ?_) <;> [subst x; clear_value x])
  refine State_setFlag_keeps ?_
  refine State_rebuildAbandon_keeps ?_
  assumption
  (extract_lets +onlyGivenNames x; refine Ends.cut (x := x) (s := s0) ?_ (fun _ => ?_) <;> [subst x; clear_value x])
  refine Ends.fold ?_ (fun _ _ _ => ?_)
  assumption
  refine State_reportSlot_keeps ?_
  assumption
  refine Ends.ite ?_ ?_
  refine State_startCkpt_keeps ?_
  refine Ends.upd ?_
  assumption
  refine State_collect_keeps ?_
  assumption
  (extract_lets +onlyGivenNames x; refine Ends.cut (x := x) (s := s0) ?_ (fun _ => ?_) <;> [subst x; clear_value x])
  refine State_setRebuild_keeps ?_
  assumption
  (extract_lets +onlyGivenNames x; clear_value x)
  refine Ends.fold ?_ (fun _ _ _ => ?_)
  assumption
  (extract_lets +onlyGivenNames x; clear_value x)
  refine State_issue_keeps ?_
  assumption
  assumption

theorem State_receiveFrame_keeps {s0 : State} {s : State} {a1 : ℕ} {a2 : Bool} {a3 : Bytes} (h : Ok s0 s) : Ok s0 (State.receiveFrame s a1 a2 a3) := by
  unfold State.receiveFrame
  (extract_lets +onlyGivenNames x; clear_value x)
  refine Ends.ite ?_ ?_
  refine State_portCount_keeps ?_
  assumption
  (extract_lets +onlyGivenNames x; refine Ends.cut (x := x) (s := s0) ?_ (fun _ => ?_) <;> [subst x; clear_value x])
  refine State_portCount_keeps ?_
  refine State_portCount_keeps ?_
  assumption
  refine Ends.ite ?_ ?_
  refine State_portCount_keeps ?_
  assumption
  refine State_dispatch_keeps ?_
  assumption

theorem State_useFp_keeps {s0 s : State} {tile d : Nat} {t : State} {a b : Bytes} (e : s.useFp tile d = some (a, b, t)) (h : Ok s0 s) : Ok s0 t := by
  unfold State.useFp at e
  obtain ⟨x, _, hx⟩ := Option.map_eq_some_iff.1 e
  cases hx
  exact Ends.upd h

theorem State_restoreChunk_keeps {s0 : State} {s : State} {a1 : ℕ} {a2 : Bytes} (h : Ok s0 s) : Ok s0 (State.restoreChunk s a1 a2) := by
  unfold State.restoreChunk
  (extract_lets +onlyGivenNames x; refine Ends.cut (x := x) (s := s0) ?_ (fun _ => ?_) <;> [subst x; clear_value x])
  refine State_log_keeps ?_
  assumption
  (extract_lets +onlyGivenNames x; subst x)
  (extract_lets +onlyGivenNames x; refine Ends.cut (x := x) (s := s0) ?_ (fun _ => ?_) <;> [subst x; clear_value x])
  refine Ends.upd ?_
  assumption
  refine Ends.projL ?_
  refine State_logTxn_keeps ?_
  assumption

theorem State_refp_keeps {s0 : State} {s : State} {a1 : ℕ} {a2 : Freeing} (h : Ok s0 s) : Ok s0 (State.refp s a1 a2) := by
  unfold State.refp
  (extract_lets +onlyGivenNames x; clear_value x)
  (extract_lets +onlyGivenNames x; clear_value x)
  split
  refine Ends.ite ?_ ?_
  assumption
  refine State_readPack_keeps ?_
  assumption
  split
  assumption
  split
  assumption
  refine State_restoreChunk_keeps ?_
  refine State_useFp_keeps (by assumption) ?_
  assumption

theorem State_releaseNext_keeps {s0 : State} {s : State} {a1 : ℕ} (h : Ok s0 s) : Ok s0 (State.releaseNext s a1) := by
  unfold State.releaseNext
  split
  assumption
  refine Ends.ite ?_ ?_
  assumption
  split
  refine Ends.ite ?_ ?_
  refine State_setNs_keeps ?_
  refine Ends.projL ?_
  refine State_logTxn_keeps ?_
  assumption
  (extract_lets +onlyGivenNames x; clear_value x)
  (extract_lets +onlyGivenNames x; refine Ends.cut (x := x) (s := s0) ?_ (fun _ => ?_) <;> [subst x; clear_value x])
  refine State_unmark_keeps ?_
  assumption
  (extract_lets +onlyGivenNames x; subst x)
  (extract_lets +onlyGivenNames x; refine Ends.cut (x := x) (s := s0) ?_ (fun _ => ?_) <;> [subst x; clear_value x])
  refine Ends.upd ?_
  assumption
  refine State_log_keeps ?_
  assumption

theorem State_sendJacks_keeps {s0 : State} {s : State} {a1 : ℕ} (h : Ok s0 s) : Ok s0 (State.sendJacks s a1) := by
  unfold State.sendJacks
  split
  assumption
  (extract_lets +onlyGivenNames x; clear_value x)
  refine Ends.ite ?_ ?_
  assumption
  (extract_lets +onlyGivenNames x; clear_value x)
  (extract_lets +onlyGivenNames x; refine Ends.cut (x := x) (s := s0) ?_ (fun _ => ?_) <;> [subst x; clear_value x])
  refine State_setSess_keeps ?_
  assumption
  refine Ends.ite ?_ ?_
  assumption
  refine State_sendMsg_keeps ?_
  assumption

theorem State_replNext_keeps {s0 : State} {s : State} (h : Ok s0 s) : Ok s0 (State.replNext s) := by
  unfold State.replNext
  refine Ends.fold ?_ (fun _ _ _ => ?_)
  assumption
  (extract_lets +onlyGivenNames x; refine Ends.cut (x := x) (s := s0) ?_ (fun _ => ?_) <;> [subst x; clear_value x])
  refine State_startCycle_keeps ?_
  assumption
  (extract_lets +onlyGivenNames x; clear_value x)
  (extract_lets +onlyGivenNames x; refine Ends.cut (x := x) (s := s0) ?_ (fun _ => ?_) <;> [subst x; clear_value x])
  refine Ends.ite ?_ ?_
  refine State_listCycle_keeps ?_
  assumption
  assumption
  (extract_lets +onlyGivenNames x; clear_value x)
  refine State_sendJacks_keeps ?_
  refine State_commitBatch_keeps ?_
  refine State_applyMaps_keeps ?_
  refine State_answerNeed_keeps ?_
  assumption

theorem State_replayFrom_keeps {s0 : State} {s : State} {a1 : ℕ} (h : Ok s0 s) : Ok s0 (State.replayFrom s a1) := by
  unfold State.replayFrom
  (extract_lets +onlyGivenNames x; clear_value x)
  split
  (extract_lets +onlyGivenNames x; refine Ends.cut (x := x) (s := s0) ?_ (fun _ => ?_) <;> [subst x; clear_value x])
  refine State_addFld_keeps ?_
  refine State_setGroup_keeps ?_
  assumption
  (extract_lets +onlyGivenNames x; refine Ends.cut (x := x) (s := s0) ?_ (fun _ => ?_) <;> [subst x; clear_value x])
  refine State_emit_keeps ?_
  refine State_setFlag_keeps ?_
  assumption
  refine Ends.fold ?_ (fun _ _ _ => ?_)
  assumption
  refine State_emitMsg_keeps ?_
  assumption
  assumption

theorem State_requestFreeze_keeps {s0 : State} {s : State} {a1 : ℕ} {a2 : ℕ} {a3 : ℕ} (h : Ok s0 s) : Ok s0 (State.requestFreeze s a1 a2 a3) := by
  unfold State.requestFreeze
  (extract_lets +onlyGivenNames x; subst x)
  (extract_lets +onlyGivenNames x; refine Ends.cut (x := x) (s := s0) ?_ (fun _ => ?_) <;> [subst x; clear_value x])
  refine State_setFrz_keeps ?_
  assumption
  (extract_lets +onlyGivenNames x; clear_value x)
  (extract_lets +onlyGivenNames x; refine Ends.cut (x := x) (s := s0) ?_ (fun _ => ?_) <;> [subst x; clear_value x])
  refine State_setFld_keeps ?_
  assumption
  refine State_setFlag_keeps ?_
  assumption

theorem State_requestReset_keeps {s0 : State} {s : State} {a1 : ℕ} (h : Ok s0 s) : Ok s0 (State.requestReset s a1) := by
  unfold State.requestReset
  split
  refine Ends.upd ?_
  assumption
  split
  refine State_headReset_keeps ?_
  refine State_yield_keeps ?_
  assumption
  refine State_beginDump_keeps ?_
  assumption
  assumption
  refine State_headReset_keeps ?_
  assumption

theorem State_reservedPlaced_keeps {s0 : State} {s : State} {a1 : ℕ} {a2 : ℕ} (h : Ok s0 s) : Ok s0 (State.reservedPlaced s a1 a2) := by
  unfold State.reservedPlaced
  split
  assumption
  (extract_lets +onlyGivenNames x; clear_value x)
  split
  (extract_lets +onlyGivenNames x; clear_value x)
  (extract_lets +onlyGivenNames x; refine Ends.cut (x := x) (s := s0) ?_ (fun _ => ?_) <;> [subst x; clear_value x])
  refine Ends.ite ?_ ?_
  refine State_sjAppend_keeps ?_
  assumption
  assumption
  refine State_checkScan_keeps ?_
  assumption
  assumption

end Sys2Proof.Machine
end

