-- ==== Sys2Proof/Laws/Keeps5.lean ====
section
/-! SUPPORT. Part 5 of 6: no operation of the model undoes what `Keeps` names; one lemma for each, in the order in which they call each
other. -/

set_option linter.all false

namespace Sys2Proof.Machine

open Sys2Proof

theorem State_resetTables_keeps {s0 : State} {s : State} {a1 : ℕ} (h : Ok s0 s) : Ok s0 (State.resetTables s a1) := by
  unfold State.resetTables
  (extract_lets +onlyGivenNames x; clear_value x)
  (extract_lets +onlyGivenNames x; clear_value x)
  (extract_lets +onlyGivenNames x; refine Ends.cut (x := x) (s := s0) ?_ (fun _ => ?_) <;> [subst x; clear_value x])
  refine Ends.ite ?_ ?_
  refine State_setReg_keeps ?_
  assumption
  assumption
  refine Ends.upd ?_
  assumption

theorem State_resetTile_keeps {s0 s : State} {tl : Nat} (h : Ok s0 s) : Ok s0 (s.resetTile tl) := by
  unfold State.resetTile
  dsimp only
  refine State_dropTileWork_keeps (State_dropKeys_keeps ?_)
  exact ⟨h.1, h.2, h.3, fun x => (Memory.wf_keep (h.4 x) _ :
    Memory.wf (s.mem.keep fun k _ => !(k / hbmStride == tl && decide (k < ddrBase))) = true), h.5, h.6⟩

theorem State_resetF_keeps {s0 : State} {s : State} {a1 : ℕ} (h : Ok s0 s) : Ok s0 (State.resetF s a1) := by
  unfold State.resetF
  (extract_lets +onlyGivenNames x; clear_value x)
  refine Ends.upd ?_
  assumption

theorem State_resetM_keeps {s0 s : State} {m : Nat} (h : Ok s0 s) : Ok s0 (s.resetM m) :=
  ⟨h.1, h.2, h.3, fun x => (Memory.wf_keep (h.4 x) _ : Memory.wf (s.mem.keep fun k _ => decide (k < ddrBase)) = true), h.5, h.6⟩

theorem State_resetDie_keeps {s0 : State} {s : State} {a1 : ℕ} (h : Ok s0 s) : Ok s0 (State.resetDie s a1) := by
  unfold State.resetDie
  (extract_lets +onlyGivenNames x; refine Ends.cut (x := x) (s := s0) ?_ (fun _ => ?_) <;> [subst x; clear_value x])
  refine State_resetTables_keeps ?_
  refine State_resetRegs_keeps ?_
  assumption
  refine Ends.ite ?_ ?_
  refine State_resetTile_keeps ?_
  assumption
  refine Ends.ite ?_ ?_
  refine State_resetF_keeps ?_
  assumption
  refine Ends.ite ?_ ?_
  refine State_resetM_keeps ?_
  assumption
  refine Ends.ite ?_ ?_
  refine Ends.upd ?_
  assumption
  assumption

theorem State_reshapeAbandon_keeps {s0 : State} {s : State} (h : Ok s0 s) : Ok s0 (State.reshapeAbandon s) := by
  unfold State.reshapeAbandon
  split
  assumption
  (extract_lets +onlyGivenNames x; clear_value x)
  (extract_lets +onlyGivenNames x; clear_value x)
  (extract_lets +onlyGivenNames x; clear_value x)
  (extract_lets +onlyGivenNames x; subst x)
  (extract_lets +onlyGivenNames x; subst x)
  (extract_lets +onlyGivenNames x; subst x)
  (extract_lets +onlyGivenNames x; refine Ends.cut (x := x) (s := s0) ?_ (fun _ => ?_) <;> [subst x; clear_value x])
  refine Ends.upd ?_
  assumption
  (extract_lets +onlyGivenNames x; refine Ends.cut (x := x) (s := s0) ?_ (fun _ => ?_) <;> [subst x; clear_value x])
  refine State_sealReserved_keeps ?_
  assumption
  refine Ends.fold ?_ (fun _ _ _ => ?_)
  assumption
  refine State_collect_keeps ?_
  assumption

theorem State_reshapeNext_keeps {s0 : State} {s : State} (h : Ok s0 s) : Ok s0 (State.reshapeNext s) := by
  unfold State.reshapeNext
  split
  assumption
  (extract_lets +onlyGivenNames x; clear_value x)
  (extract_lets +onlyGivenNames x; refine Ends.cut (x := x) (s := s0) ?_ (fun _ => ?_) <;> [subst x; clear_value x])
  refine State_setFld_keeps ?_
  assumption
  (extract_lets +onlyGivenNames x; clear_value x)
  (extract_lets +onlyGivenNames x; refine Ends.cut (x := x) (s := s0) ?_ (fun _ => ?_) <;> [subst x; clear_value x])
  refine State_setFlag_keeps ?_
  assumption
  refine Ends.ite ?_ ?_
  assumption
  refine Ends.ite ?_ ?_
  (extract_lets +onlyGivenNames x; subst x)
  (extract_lets +onlyGivenNames x; refine Ends.cut (x := x) (s := s0) ?_ (fun _ => ?_) <;> [subst x; clear_value x])
  refine State_sealReserved_keeps ?_
  refine Ends.upd ?_
  assumption
  (extract_lets +onlyGivenNames x; refine Ends.cut (x := x) (s := s0) ?_ (fun _ => ?_) <;> [subst x; clear_value x])
  refine State_setFlag_keeps ?_
  refine State_setFlag_keeps ?_
  assumption
  refine Ends.ite ?_ ?_
  assumption
  (extract_lets +onlyGivenNames x; refine Ends.cut (x := x) (s := s0) ?_ (fun _ => ?_) <;> [subst x; clear_value x])
  refine State_setFlag_keeps ?_
  assumption
  refine Ends.ite ?_ ?_
  refine State_sjAppend_keeps ?_
  assumption
  assumption
  refine Ends.ite ?_ ?_
  assumption
  split
  assumption
  split
  assumption
  (extract_lets +onlyGivenNames x; clear_value x)
  (extract_lets +onlyGivenNames x; clear_value x)
  (extract_lets +onlyGivenNames x; clear_value x)
  (extract_lets +onlyGivenNames x; clear_value x)
  (extract_lets +onlyGivenNames x; subst x)
  (extract_lets +onlyGivenNames x; refine Ends.cut (x := x) (s := s0) ?_ (fun _ => ?_) <;> [subst x; clear_value x])
  refine Ends.upd ?_
  assumption
  refine State_rewriteMeta_keeps ?_
  refine State_beginScan_keeps ?_
  assumption

theorem State_reshapeGo_keeps {s0 : State} {s : State} (h : Ok s0 s) : Ok s0 (State.reshapeGo s) := by
  unfold State.reshapeGo
  (extract_lets +onlyGivenNames x; clear_value x)
  (extract_lets +onlyGivenNames x; clear_value x)
  (extract_lets +onlyGivenNames x; clear_value x)
  (extract_lets +onlyGivenNames x; subst x; beta_reduce)
  refine Ends.ite ?_ ?_
  refine State_event_keeps ?_
  refine State_setFlag_keeps ?_
  assumption
  refine Ends.ite ?_ ?_
  refine State_event_keeps ?_
  refine State_setFlag_keeps ?_
  assumption
  (extract_lets +onlyGivenNames x; clear_value x)
  split
  refine Ends.ite ?_ ?_
  assumption
  (extract_lets +onlyGivenNames x; clear_value x)
  (extract_lets +onlyGivenNames x; refine Ends.cut (x := x) (s := s0) ?_ (fun _ => ?_) <;> [subst x; clear_value x])
  refine Ends.ite ?_ ?_
  assumption
  refine State_startCkpt_keeps ?_
  assumption
  refine State_reshapeNext_keeps ?_
  refine State_setFlag_keeps ?_
  refine Ends.upd ?_
  assumption
  refine State_reshapeNext_keeps ?_
  refine Ends.upd ?_
  assumption

theorem State_reshapeStop_keeps {s0 : State} {s : State} (h : Ok s0 s) : Ok s0 (State.reshapeStop s) := by
  unfold State.reshapeStop
  split
  assumption
  (extract_lets +onlyGivenNames x; subst x)
  (extract_lets +onlyGivenNames x; refine Ends.cut (x := x) (s := s0) ?_ (fun _ => ?_) <;> [subst x; clear_value x])
  refine Ends.upd ?_
  assumption
  refine State_reshapeNext_keeps ?_
  refine Ends.ite ?_ ?_
  refine State_reshapeAbandon_keeps ?_
  assumption
  assumption

theorem State_resumeRings_keeps {s0 : State} {s : State} {a1 : ℕ} (h : Ok s0 s) : Ok s0 (State.resumeRings s a1) := by
  unfold State.resumeRings
  refine Ends.fold ?_ (fun _ _ _ => ?_)
  assumption
  (extract_lets +onlyGivenNames x; clear_value x)
  (extract_lets +onlyGivenNames x; clear_value x)
  refine Ends.ite ?_ ?_
  assumption
  refine State_drainRing_keeps ?_
  refine State_setRing_keeps ?_
  assumption

theorem State_roceIn_keeps {s0 : State} {s : State} {a1 : RoceHdr} {a2 : RocePkt} (h : Ok s0 s) : Ok s0 (State.roceIn s a1 a2) := by
  unfold State.roceIn
  (extract_lets +onlyGivenNames x; clear_value x)
  (extract_lets +onlyGivenNames x; subst x; beta_reduce)
  refine Ends.ite ?_ ?_
  assumption
  refine Ends.ite ?_ ?_
  refine State_rdmCount_keeps ?_
  refine State_leaveRx_keeps ?_
  assumption
  split
  refine State_rdmCount_keeps ?_
  refine State_leaveRx_keeps ?_
  assumption
  refine Ends.ite ?_ ?_
  refine State_rdmCount_keeps ?_
  refine State_leaveRx_keeps ?_
  assumption
  refine Ends.ite ?_ ?_
  refine State_process_keeps ?_
  assumption
  refine State_fetchCtx_keeps ?_
  refine Ends.upd ?_
  assumption

theorem State_upkeep_keeps {s0 : State} {s : State} (h : Ok s0 s) : Ok s0 (State.upkeep s) := by
  unfold State.upkeep
  (extract_lets +onlyGivenNames x; refine Ends.cut (x := x) (s := s0) ?_ (fun _ => ?_) <;> [subst x; clear_value x])
  refine Ends.ite ?_ ?_
  refine State_keepReserve_keeps ?_
  refine State_keepJournal_keeps ?_
  assumption
  assumption
  (extract_lets +onlyGivenNames x; refine Ends.cut (x := x) (s := s0) ?_ (fun _ => ?_) <;> [subst x; clear_value x])
  refine Ends.ite ?_ ?_
  refine State_sjReopen_keeps ?_
  assumption
  assumption
  (extract_lets +onlyGivenNames x; refine Ends.cut (x := x) (s := s0) ?_ (fun _ => ?_) <;> [subst x; clear_value x])
  refine Ends.fold ?_ (fun _ _ _ => ?_)
  assumption
  refine State_rewriteMeta_keeps ?_
  assumption
  (extract_lets +onlyGivenNames x; refine Ends.cut (x := x) (s := s0) ?_ (fun _ => ?_) <;> [subst x; clear_value x])
  refine Ends.ite ?_ ?_
  assumption
  refine State_protect_keeps ?_
  assumption
  refine State_reshapeNext_keeps ?_
  refine State_mapRetry_keeps ?_
  refine State_placePacks_keeps ?_
  assumption

theorem State_sanWipe_keeps {s0 : State} {s : State} {a1 : Bool} (h : Ok s0 s) : Ok s0 (State.sanWipe s a1) := by
  unfold State.sanWipe
  (extract_lets +onlyGivenNames x; clear_value x)
  (extract_lets +onlyGivenNames x; refine Ends.cut (x := x) (s := s0) ?_ (fun _ => ?_) <;> [subst x; clear_value x])
  refine Ends.fold ?_ (fun _ _ _ => ?_)
  assumption
  refine Ends.ite ?_ ?_
  refine State_applyMeta_keeps ?_
  assumption
  refine State_filterDropDomain_keeps ?_
  assumption
  (extract_lets +onlyGivenNames x; refine Ends.cut (x := x) (s := s0) ?_ (fun _ => ?_) <;> [subst x; clear_value x])
  refine Ends.fold ?_ (fun _ _ _ => ?_)
  assumption
  refine State_ordDrop_keeps ?_
  assumption
  (extract_lets +onlyGivenNames x; clear_value x)
  (extract_lets +onlyGivenNames x; clear_value x)
  (extract_lets +onlyGivenNames x; clear_value x)
  (extract_lets +onlyGivenNames x; clear_value x)
  (extract_lets +onlyGivenNames x; clear_value x)
  (extract_lets +onlyGivenNames x; clear_value x)
  (extract_lets +onlyGivenNames x; clear_value x)
  (extract_lets +onlyGivenNames x; clear_value x)
  (extract_lets +onlyGivenNames x; clear_value x)
  (extract_lets +onlyGivenNames x; clear_value x)
  (extract_lets +onlyGivenNames x; clear_value x)
  (extract_lets +onlyGivenNames x; clear_value x)
  (extract_lets +onlyGivenNames x; subst x)
  (extract_lets +onlyGivenNames x; refine Ends.cut (x := x) (s := s0) ?_ (fun _ => ?_) <;> [subst x; clear_value x])
  refine Ends.upd ?_
  assumption
  (extract_lets +onlyGivenNames x; refine Ends.cut (x := x) (s := s0) ?_ (fun _ => ?_) <;> [subst x; clear_value x])
  refine State_clearIntents_keeps ?_
  refine State_clearIntents_keeps ?_
  assumption
  (extract_lets +onlyGivenNames x; refine Ends.cut (x := x) (s := s0) ?_ (fun _ => ?_) <;> [subst x; clear_value x])
  refine Ends.fold ?_ (fun _ _ _ => ?_)
  assumption
  refine State_eraseBlock_keeps ?_
  assumption
  (extract_lets +onlyGivenNames x; refine Ends.cut (x := x) (s := s0) ?_ (fun _ => ?_) <;> [subst x; clear_value x])
  refine Ends.fold ?_ (fun _ _ _ => ?_)
  assumption
  refine Ends.fold ?_ (fun _ _ _ => ?_)
  assumption
  refine State_issue_keeps ?_
  assumption
  (extract_lets +onlyGivenNames x; refine Ends.cut (x := x) (s := s0) ?_ (fun _ => ?_) <;> [subst x; clear_value x])
  refine Ends.fold ?_ (fun _ _ _ => ?_)
  assumption
  refine State_log_keeps ?_
  assumption
  (extract_lets +onlyGivenNames x; refine Ends.cut (x := x) (s := s0) ?_ (fun _ => ?_) <;> [subst x; clear_value x])
  refine Ends.fold ?_ (fun _ _ _ => ?_)
  assumption
  refine State_setNewest_keeps ?_
  assumption
  (extract_lets +onlyGivenNames x; refine Ends.cut (x := x) (s := s0) ?_ (fun _ => ?_) <;> [subst x; clear_value x])
  refine Ends.fold ?_ (fun _ _ _ => ?_)
  assumption
  refine State_log_keeps ?_
  assumption
  refine State_journalRegs_keeps ?_
  refine Ends.fold ?_ (fun _ _ _ => ?_)
  assumption
  refine State_log_keeps ?_
  assumption

theorem State_sanNext_keeps {s0 : State} {s : State} (h : Ok s0 s) : Ok s0 (State.sanNext s) := by
  unfold State.sanNext
  split
  assumption
  (extract_lets +onlyGivenNames x; clear_value x)
  (extract_lets +onlyGivenNames x; subst x; beta_reduce)
  (extract_lets +onlyGivenNames x; subst x)
  (extract_lets +onlyGivenNames x; refine Ends.cut (x := x) (s := s0) ?_ (fun _ => ?_) <;> [subst x; clear_value x])
  refine State_log_keeps ?_
  refine Ends.upd ?_
  refine State_sanWipe_keeps ?_
  assumption
  refine Ends.ite ?_ ?_
  refine Ends.ite ?_ ?_
  assumption
  assumption
  refine Ends.ite ?_ ?_
  refine Ends.ite ?_ ?_
  assumption
  refine State_log_keeps ?_
  refine Ends.upd ?_
  assumption
  refine Ends.ite ?_ ?_
  assumption
  assumption

theorem State_wipeNext_keeps {s0 : State} {s : State} (h : Ok s0 s) : Ok s0 (State.wipeNext s) := by
  unfold State.wipeNext
  refine Ends.ite ?_ ?_
  assumption
  (extract_lets +onlyGivenNames x; refine Ends.cut (x := x) (s := s0) ?_ (fun _ => ?_) <;> [subst x; clear_value x])
  refine State_sanNext_keeps ?_
  assumption
  refine Ends.fold ?_ (fun _ _ _ => ?_)
  assumption
  refine State_releaseNext_keeps ?_
  refine State_formatNext_keeps ?_
  refine State_snapNext_keeps ?_
  assumption

theorem State_settleInputs_keeps {s0 : State} {s : State} {a1 : ℕ} (h : Ok s0 s) : Ok s0 (State.settleInputs s a1) := by
  induction a1 generalizing s
  · rw [State.settleInputs.eq_1]
    assumption
  · rename_i ih
    rw [State.settleInputs.eq_2]
    split
    assumption
    (extract_lets +onlyGivenNames x; subst x)
    (extract_lets +onlyGivenNames x; refine Ends.cut (x := x) (s := s0) ?_ (fun _ => ?_) <;> [subst x; clear_value x])
    refine Ends.upd ?_
    assumption
    split
    apply ih
    refine State_giveInput_keeps ?_
    assumption
    assumption

theorem State_scanStripe_keeps {s0 : State} {s : State} {a1 : ℕ} {a2 : SegDesc} {a3 : ℕ} {a4 : Bytes} {a5 : List ℕ} {a6 : ℕ} {a7 : ℕ} (h : Ok s0 s) : Ok s0 (State.scanStripe s a1 a2 a3 a4 a5 a6 a7) := by
  induction a6 generalizing s a1 a2 a3 a4 a5 a7
  · rw [State.scanStripe.eq_1]
    assumption
  · rename_i ih
    rw [State.scanStripe.eq_2]
    split
    assumption
    (extract_lets +onlyGivenNames x; clear_value x)
    (extract_lets +onlyGivenNames x; subst x; beta_reduce)
    (extract_lets +onlyGivenNames x; subst x; beta_reduce)
    refine Ends.ite ?_ ?_
    assumption
    refine Ends.ite ?_ ?_
    refine Ends.fold ?_ (fun _ _ _ => ?_)
    assumption
    refine State_stickPack_keeps ?_
    assumption
    (extract_lets +onlyGivenNames x; clear_value x)
    refine Ends.ite ?_ ?_
    (extract_lets +onlyGivenNames x; clear_value x)
    split
    refine Ends.ite ?_ ?_
    apply ih
    assumption
    refine Ends.fold ?_ (fun _ _ _ => ?_)
    assumption
    refine State_copyAgain_keeps ?_
    assumption
    refine Ends.fold ?_ (fun _ _ _ => ?_)
    assumption
    refine State_copyAgain_keeps ?_
    assumption
    (extract_lets +onlyGivenNames x; clear_value x)
    (extract_lets +onlyGivenNames x; clear_value x)
    (extract_lets +onlyGivenNames x; clear_value x)
    (extract_lets +onlyGivenNames x; clear_value x)
    (extract_lets +onlyGivenNames x; clear_value x)
    (extract_lets +onlyGivenNames x; clear_value x)
    (extract_lets +onlyGivenNames x; subst x; beta_reduce)
    refine Ends.ite ?_ ?_
    refine Ends.ite ?_ ?_
    refine State_copyAgain_keeps ?_
    assumption
    refine Ends.ite ?_ ?_
    refine State_setScan_keeps ?_
    assumption
    assumption
    refine Ends.ite ?_ ?_
    apply ih
    refine Ends.ite ?_ ?_
    refine State_stickPack_keeps ?_
    assumption
    refine Ends.ite ?_ ?_
    refine State_setScan_keeps ?_
    assumption
    assumption
    split
    (extract_lets +onlyGivenNames x; clear_value x)
    (extract_lets +onlyGivenNames x; clear_value x)
    apply ih
    refine Ends.ite ?_ ?_
    refine State_copyAgain_keeps ?_
    assumption
    assumption
    apply ih
    refine Ends.ite ?_ ?_
    refine Ends.ite ?_ ?_
    refine State_copyPack_keeps ?_
    assumption
    refine State_copyAgain_keeps ?_
    assumption
    refine Ends.ite ?_ ?_
    refine State_setScan_keeps ?_
    assumption
    assumption

theorem State_scanPart_keeps {s0 : State} {s : State} {a1 : ℕ} {a2 : ℕ} {a3 : Option Bytes} (h : Ok s0 s) : Ok s0 (State.scanPart s a1 a2 a3) := by
  unfold State.scanPart
  split
  (extract_lets +onlyGivenNames x; clear_value x)
  (extract_lets +onlyGivenNames x; refine Ends.cut (x := x) (s := s0) ?_ (fun _ => ?_) <;> [subst x; clear_value x])
  refine State_setScan_keeps ?_
  assumption
  refine Ends.ite ?_ ?_
  assumption
  (extract_lets +onlyGivenNames x; clear_value x)
  (extract_lets +onlyGivenNames x; refine Ends.cut (x := x) (s := s0) ?_ (fun _ => ?_) <;> [subst x; clear_value x])
  refine State_scanStripe_keeps ?_
  assumption
  split
  assumption
  (extract_lets +onlyGivenNames x; refine Ends.cut (x := x) (s := s0) ?_ (fun _ => ?_) <;> [subst x; clear_value x])
  refine State_setScan_keeps ?_
  assumption
  refine Ends.ite ?_ ?_
  refine State_checkScan_keeps ?_
  assumption
  refine State_readStripe_keeps ?_
  assumption
  assumption

theorem State_scrubPart_keeps {s0 : State} {s : State} {a1 : ℕ} {a2 : ℕ} {a3 : ℕ} {a4 : ℕ} {a5 : Option Bytes} (h : Ok s0 s) : Ok s0 (State.scrubPart s a1 a2 a3 a4 a5) := by
  unfold State.scrubPart
  split
  (extract_lets +onlyGivenNames x; clear_value x)
  (extract_lets +onlyGivenNames x; clear_value x)
  refine Ends.ite ?_ ?_
  refine Ends.upd ?_
  assumption
  (extract_lets +onlyGivenNames x; subst x)
  (extract_lets +onlyGivenNames x; refine Ends.cut (x := x) (s := s0) ?_ (fun _ => ?_) <;> [subst x; clear_value x])
  refine Ends.upd ?_
  assumption
  (extract_lets +onlyGivenNames x; clear_value x)
  refine Ends.ite ?_ ?_
  assumption
  (extract_lets +onlyGivenNames x; refine Ends.cut (x := x) (s := s0) ?_ (fun _ => ?_) <;> [subst x; clear_value x])
  refine State_addFld_keeps ?_
  assumption
  split
  split
  assumption
  (extract_lets +onlyGivenNames x; clear_value x)
  (extract_lets +onlyGivenNames x; subst x)
  (extract_lets +onlyGivenNames x; refine Ends.cut (x := x) (s := s0) ?_ (fun _ => ?_) <;> [subst x; clear_value x])
  refine Ends.upd ?_
  assumption
  refine State_refresh_keeps ?_
  refine State_addFld_keeps ?_
  assumption
  refine State_event_keeps ?_
  refine State_exc_keeps ?_
  refine State_addFld_keeps ?_
  assumption
  assumption

theorem State_settleOne_keeps {s0 : State} {s : State} {a1 : CwReq} {a2 : Option Bytes} (h : Ok s0 s) : Ok s0 (State.settleOne s a1 a2) := by
  unfold State.settleOne
  split
  split
  refine State_copyReads_keeps ?_
  refine State_packPart_keeps ?_
  assumption
  refine State_packLost_keeps ?_
  assumption
  split
  refine Ends.upd ?_
  assumption
  assumption
  refine State_scanPart_keeps ?_
  assumption
  refine State_rebuildPart_keeps ?_
  assumption
  refine State_scrubPart_keeps ?_
  assumption
  split
  refine Ends.ite ?_ ?_
  assumption
  refine Ends.ite ?_ ?_
  refine State_rebuildUnit_keeps ?_
  assumption
  refine State_rebuildNext_keeps ?_
  refine State_rebuildAbandon_keeps ?_
  assumption
  assumption
  assumption
  assumption

theorem State_settleLoop_keeps {s0 : State} {s : State} {a1 : ℕ} (h : Ok s0 s) : Ok s0 (State.settleLoop s a1) := by
  induction a1 generalizing s
  · rw [State.settleLoop.eq_1]
    assumption
  · rename_i ih
    rw [State.settleLoop.eq_2]
    refine Ends.ite ?_ ?_
    refine Ends.fold ?_ (fun _ _ _ => ?_)
    refine Ends.upd ?_
    refine State_settleInputs_keeps ?_
    assumption
    refine State_settleOne_keeps ?_
    assumption
    apply ih
    refine Ends.fold ?_ (fun _ _ _ => ?_)
    refine Ends.upd ?_
    refine State_settleInputs_keeps ?_
    assumption
    refine State_settleOne_keeps ?_
    assumption

theorem State_startDecodes_keeps {s0 : State} {s : State} (h : Ok s0 s) : Ok s0 (State.startDecodes s) := by
  unfold State.startDecodes
  refine Ends.ite ?_ ?_
  assumption
  (extract_lets +onlyGivenNames x; clear_value x)
  (extract_lets +onlyGivenNames x; subst x)
  (extract_lets +onlyGivenNames x; refine Ends.cut (x := x) (s := s0) ?_ (fun _ => ?_) <;> [subst x; clear_value x])
  refine Ends.upd ?_
  assumption
  refine Ends.fold ?_ (fun _ _ _ => ?_)
  assumption
  refine State_fillDecoders_keeps ?_
  assumption

theorem State_startLane_keeps {s0 : State} {s : State} {a1 : LaneKind} {a2 : ℕ} {a3 : ℕ} (h : Ok s0 s) : Ok s0 (State.startLane s a1 a2 a3) := by
  unfold State.startLane
  (extract_lets +onlyGivenNames x; clear_value x)
  split
  assumption
  (extract_lets +onlyGivenNames x; subst x; beta_reduce)
  split
  split
  refine Ends.ite ?_ ?_
  refine State_holdJob_keeps ?_
  assumption
  refine Ends.upd ?_
  assumption
  assumption
  refine Ends.upd ?_
  assumption

theorem State_startLanes_keeps {s0 : State} {s : State} (h : Ok s0 s) : Ok s0 (State.startLanes s) := by
  unfold State.startLanes
  refine Ends.ite ?_ ?_
  assumption
  (extract_lets +onlyGivenNames x; subst x)
  (extract_lets +onlyGivenNames x; refine Ends.cut (x := x) (s := s0) ?_ (fun _ => ?_) <;> [subst x; clear_value x])
  refine State_emptyFlushed_keeps ?_
  refine Ends.upd ?_
  assumption
  refine Ends.fold ?_ (fun _ _ _ => ?_)
  assumption
  refine Ends.fold ?_ (fun _ _ _ => ?_)
  assumption
  refine Ends.ite ?_ ?_
  assumption
  refine Ends.fold ?_ (fun _ _ _ => ?_)
  assumption
  refine State_startLane_keeps ?_
  assumption

theorem State_runAdmins_keeps {s0 : State} {s : State} (h : Ok s0 s) : Ok s0 (State.runAdmins s) := by
  unfold State.runAdmins
  (extract_lets +onlyGivenNames x; clear_value x)
  refine Ends.fold ?_ (fun _ _ _ => ?_)
  assumption
  (extract_lets +onlyGivenNames x; clear_value x)
  refine State_adminAny_keeps ?_
  refine State_setCmd_keeps ?_
  assumption

theorem State_settle_keeps {s0 : State} {s : State} (h : Ok s0 s) : Ok s0 (State.settle s) := by
  unfold State.settle
  (extract_lets +onlyGivenNames x; refine Ends.cut (x := x) (s := s0) ?_ (fun _ => ?_) <;> [subst x; clear_value x])
  refine State_rebuildNext_keeps ?_
  refine State_changesNext_keeps ?_
  refine State_upkeep_keeps ?_
  refine State_replNext_keeps ?_
  refine State_wipeNext_keeps ?_
  refine State_eraseFresh_keeps ?_
  refine State_settleLoop_keeps ?_
  assumption
  refine State_startDecodes_keeps ?_
  refine State_startLanes_keeps ?_
  refine State_confirmSlot_keeps ?_
  refine State_c0Next_keeps ?_
  refine State_giveNext_keeps ?_
  refine State_sendMoves_keeps ?_
  refine State_settleLoop_keeps ?_
  refine State_advanceAll_keeps ?_
  refine State_runAdmins_keeps ?_
  refine State_settleLoop_keeps ?_
  assumption

theorem State_roleArrive_keeps {s0 : State} {s : State} {a1 : Via} {a2 : RoleEnv} {a3 : RoleBody} (h : Ok s0 s) : Ok s0 (State.roleArrive s a1 a2 a3) := by
  unfold State.roleArrive
  refine State_settle_keeps ?_
  split
  refine State_adminCmd_keeps ?_
  assumption
  refine State_mgmtRole_keeps ?_
  assumption

theorem State_takeMb_keeps {s0 s : State} {m ty : Nat} {t : State} {g : Nat} {b : Bytes} (e : s.takeMb m ty = some (g, b, t)) (h : Ok s0 s) : Ok s0 t := by
  unfold State.takeMb at e
  split at e
  · dsimp only at e
    split at e
    · cases e; exact State_setFlag_keeps h
    · cases e
  · cases e

theorem State_roleDone_keeps {s0 : State} {s : State} {a1 : ℕ} (h : Ok s0 s) : Ok s0 (State.roleDone s a1) := by
  unfold State.roleDone
  split
  assumption
  split
  refine State_takeMb_keeps (by assumption) ?_
  assumption
  refine Ends.ite ?_ ?_
  assumption
  (extract_lets +onlyGivenNames x; subst x)
  (extract_lets +onlyGivenNames x; refine Ends.cut (x := x) (s := s0) ?_ (fun _ => ?_) <;> [subst x; clear_value x])
  refine Ends.upd ?_
  refine State_takeMb_keeps (by assumption) ?_
  assumption
  refine State_roleEnd_keeps ?_
  assumption

theorem State_scrub_keeps {s0 : State} {s : State} {a1 : ℕ} {a2 : ℕ} {a3 : ℕ} (h : Ok s0 s) : Ok s0 (State.scrub s a1 a2 a3) := by
  unfold State.scrub
  split
  assumption
  refine Ends.ite ?_ ?_
  assumption
  (extract_lets +onlyGivenNames x; clear_value x)
  (extract_lets +onlyGivenNames x; subst x)
  (extract_lets +onlyGivenNames x; refine Ends.cut (x := x) (s := s0) ?_ (fun _ => ?_) <;> [subst x; clear_value x])
  refine Ends.upd ?_
  assumption
  refine Ends.fold ?_ (fun _ _ _ => ?_)
  assumption
  refine State_requestCw_keeps ?_
  assumption

theorem State_writeMb_keeps {s0 : State} {s : State} {a1 : ℕ} {a2 : Bytes} (h : Ok s0 s) : Ok s0 (State.writeMb s a1 a2) := by
  unfold State.writeMb
  refine Ends.fold ?_ (fun _ _ _ => ?_)
  assumption
  refine State_setFld_keeps ?_
  assumption

theorem State_sendMb_keeps {s0 : State} {s : State} {a1 : ℕ} {a2 : ℕ} {a3 : ℕ} {a4 : Bytes} (h : Ok s0 s) : Ok s0 (State.sendMb s a1 a2 a3 a4) := by
  unfold State.sendMb
  (extract_lets +onlyGivenNames x; clear_value x)
  (extract_lets +onlyGivenNames x; clear_value x)
  (extract_lets +onlyGivenNames x; subst x)
  (extract_lets +onlyGivenNames x; refine Ends.cut (x := x) (s := s0) ?_ (fun _ => ?_) <;> [subst x; clear_value x])
  refine Ends.upd ?_
  assumption
  refine State_fillMb_keeps ?_
  refine State_writeMb_keeps ?_
  assumption

theorem State_sendPgNack_keeps {s0 : State} {s : State} {a1 : ℕ} {a2 : ℕ} (h : Ok s0 s) : Ok s0 (State.sendPgNack s a1 a2) := by
  unfold State.sendPgNack
  split
  assumption
  split
  assumption
  (extract_lets +onlyGivenNames x; clear_value x)
  (extract_lets +onlyGivenNames x; clear_value x)
  (extract_lets +onlyGivenNames x; refine Ends.cut (x := x) (s := s0) ?_ (fun _ => ?_) <;> [subst x; clear_value x])
  refine State_setSess_keeps ?_
  assumption
  refine State_pgPacket_keeps ?_
  refine State_pgCount_keeps ?_
  assumption

theorem State_sendRole_keeps {s0 : State} {s : State} {a1 : ℕ} {a2 : ℕ} (h : Ok s0 s) : Ok s0 (State.sendRole s a1 a2) := by
  unfold State.sendRole
  split
  assumption
  refine Ends.ite ?_ ?_
  assumption
  (extract_lets +onlyGivenNames x; clear_value x)
  (extract_lets +onlyGivenNames x; clear_value x)
  (extract_lets +onlyGivenNames x; refine Ends.cut (x := x) (s := s0) ?_ (fun _ => ?_) <;> [subst x; clear_value x])
  refine State_sendMb_keeps ?_
  assumption
  refine Ends.upd ?_
  assumption

theorem State_sfbLinkFrame_keeps {s0 : State} {s : State} {a1 : ℕ} {a2 : ℕ} {a3 : Bytes → Out} (h : Ok s0 s) : Ok s0 (State.sfbLinkFrame s a1 a2 a3) := by
  unfold State.sfbLinkFrame
  (extract_lets +onlyGivenNames x; clear_value x)
  refine State_emit_keeps ?_
  refine State_setSport_keeps ?_
  assumption

theorem State_sendSfbNak_keeps {s0 : State} {s : State} {a1 : ℕ} (h : Ok s0 s) : Ok s0 (State.sendSfbNak s a1) := by
  unfold State.sendSfbNak
  (extract_lets +onlyGivenNames x; clear_value x)
  (extract_lets +onlyGivenNames x; clear_value x)
  refine State_sfbLinkFrame_keeps ?_
  refine State_setSport_keeps ?_
  assumption

theorem State_sessGeneration_keeps {s0 : State} {s : State} {a1 : ℕ} {a2 : ℕ} (h : Ok s0 s) : Ok s0 (State.sessGeneration s a1 a2) := by
  unfold State.sessGeneration
  split
  refine State_sessResult_keeps ?_
  assumption
  (extract_lets +onlyGivenNames x; clear_value x)
  split
  refine State_sessResult_keeps ?_
  assumption
  (extract_lets +onlyGivenNames x; clear_value x)
  (extract_lets +onlyGivenNames x; clear_value x)
  (extract_lets +onlyGivenNames x; clear_value x)
  (extract_lets +onlyGivenNames x; subst x)
  (extract_lets +onlyGivenNames x; refine Ends.cut (x := x) (s := s0) ?_ (fun _ => ?_) <;> [subst x; clear_value x])
  refine Ends.upd ?_
  assumption
  (extract_lets +onlyGivenNames x; refine Ends.cut (x := x) (s := s0) ?_ (fun _ => ?_) <;> [subst x; clear_value x])
  refine State_sendProbe_keeps ?_
  refine State_setSess_keeps ?_
  assumption
  (extract_lets +onlyGivenNames x; refine Ends.cut (x := x) (s := s0) ?_ (fun _ => ?_) <;> [subst x; clear_value x])
  refine Ends.fold ?_ (fun _ _ _ => ?_)
  assumption
  refine State_sendMsg_keeps ?_
  assumption
  refine State_sessResult_keeps ?_
  refine State_resendJrecs_keeps ?_
  assumption

theorem State_setDge_keeps {s0 : State} {s : State} {a1 : ℕ} {a2 : ℕ} {a3 : DgeSes} (h : Ok s0 s) : Ok s0 (State.setDge s a1 a2 a3) := by
  unfold State.setDge
  refine Ends.upd ?_
  assumption

theorem State_setPortFld_keeps {s0 : State} {s : State} {a1 : ℕ} {a2 : Fld} {a3 : ℕ} (h : Ok s0 s) : Ok s0 (State.setPortFld s a1 a2 a3) := by
  unfold State.setPortFld
  refine State_setFld_keeps ?_
  assumption

theorem State_sfbAck_keeps {s0 : State} {s : State} {a1 : SfbHdr} (h : Ok s0 s) : Ok s0 (State.sfbAck s a1) := by
  unfold State.sfbAck
  (extract_lets +onlyGivenNames x; clear_value x)
  (extract_lets +onlyGivenNames x; clear_value x)
  refine State_setSport_keeps ?_
  assumption

theorem State_sfbCrcError_keeps {s0 : State} {s : State} {a1 : ℕ} {a2 : ℕ} (h : Ok s0 s) : Ok s0 (State.sfbCrcError s a1 a2) := by
  unfold State.sfbCrcError
  (extract_lets +onlyGivenNames x; clear_value x)
  (extract_lets +onlyGivenNames x; clear_value x)
  (extract_lets +onlyGivenNames x; clear_value x)
  refine State_addCpFld_keeps ?_
  refine State_setSport_keeps ?_
  assumption

theorem State_sfbDrain_keeps {s0 : State} {s : State} {a1 : ℕ} (h : Ok s0 s) : Ok s0 (State.sfbDrain s a1) := by
  unfold State.sfbDrain
  refine State_drainPort_keeps ?_
  assumption

theorem State_sfbRx_keeps {s0 : State} {s : State} {a1 : SfbHdr} {a2 : Option SfbIn} {a3 : ℕ} {a4 : State → State} (h : Ok s0 s) (h4 : ∀ x0, Ok s0 x0 → Ok s0 (a4 x0)) : Ok s0 (State.sfbRx s a1 a2 a3 a4) := by
  unfold State.sfbRx
  refine Ends.ite ?_ ?_
  assumption
  refine Ends.ite ?_ ?_
  refine State_sfbCrcError_keeps ?_
  assumption
  refine State_sfbDrain_keeps ?_
  refine h4 _ ?_
  refine State_sfbAck_keeps ?_
  assumption

theorem State_sfbNoCredit_keeps {s0 : State} {s : State} {a1 : ℕ} (h : Ok s0 s) : Ok s0 (State.sfbNoCredit s a1) := by
  unfold State.sfbNoCredit
  (extract_lets +onlyGivenNames x; clear_value x)
  (extract_lets +onlyGivenNames x; clear_value x)
  (extract_lets +onlyGivenNames x; refine Ends.cut (x := x) (s := s0) ?_ (fun _ => ?_) <;> [subst x; clear_value x])
  refine State_addCpFld_keeps ?_
  refine State_setSport_keeps ?_
  assumption
  refine Ends.ite ?_ ?_
  refine State_portLost_keeps ?_
  assumption
  assumption

theorem State_sfbSeq_keeps {s0 : State} {s : State} {a1 : SfbHdr} {a2 : SfbIn} (h : Ok s0 s) : Ok s0 (State.sfbSeq s a1 a2) := by
  unfold State.sfbSeq
  (extract_lets +onlyGivenNames x; clear_value x)
  (extract_lets +onlyGivenNames x; clear_value x)
  refine Ends.ite ?_ ?_
  assumption
  refine Ends.ite ?_ ?_
  refine State_sfbNoCredit_keeps ?_
  assumption
  (extract_lets +onlyGivenNames x; clear_value x)
  refine Ends.ite ?_ ?_
  refine State_applyAhead_keeps ?_
  refine State_sfbApply_keeps ?_
  refine State_setSport_keeps ?_
  assumption
  refine State_setSport_keeps ?_
  assumption

theorem State_sfbMsg_keeps {s0 : State} {s : State} {a1 : SfbHdr} {a2 : SfbIn} (h : Ok s0 s) : Ok s0 (State.sfbMsg s a1 a2) := by
  unfold State.sfbMsg
  refine State_sfbRx_keeps ?_ ?_
  assumption
  intros
  refine State_sfbSeq_keeps ?_
  assumption

theorem State_sfbReplayAll_keeps {s0 : State} {s : State} {a1 : ℕ} (h : Ok s0 s) : Ok s0 (State.sfbReplayAll s a1) := by
  unfold State.sfbReplayAll
  (extract_lets +onlyGivenNames x; clear_value x)
  split
  (extract_lets +onlyGivenNames x; refine Ends.cut (x := x) (s := s0) ?_ (fun _ => ?_) <;> [subst x; clear_value x])
  refine State_emit_keeps ?_
  refine State_addCpFld_keeps ?_
  refine State_setSport_keeps ?_
  assumption
  refine Ends.fold ?_ (fun _ _ _ => ?_)
  assumption
  refine State_emitSfb_keeps ?_
  assumption
  assumption

theorem State_sfbTrain_keeps {s0 : State} {s : State} {a1 : ℕ} {a2 : ℕ} (h : Ok s0 s) : Ok s0 (State.sfbTrain s a1 a2) := by
  unfold State.sfbTrain
  (extract_lets +onlyGivenNames x; clear_value x)
  (extract_lets +onlyGivenNames x; clear_value x)
  refine Ends.ite ?_ ?_
  assumption
  (extract_lets +onlyGivenNames x; clear_value x)
  (extract_lets +onlyGivenNames x; subst x)
  (extract_lets +onlyGivenNames x; refine Ends.cut (x := x) (s := s0) ?_ (fun _ => ?_) <;> [subst x; clear_value x])
  refine Ends.ite ?_ ?_
  assumption
  refine State_setSport_keeps ?_
  assumption
  refine State_setCpFld_keeps ?_
  refine State_setCpFlag_keeps ?_
  assumption

theorem State_snapCounters_keeps {s0 : State} {s : State} {a1 : ℕ} (h : Ok s0 s) : Ok s0 (State.snapCounters s a1) := by
  unfold State.snapCounters
  (extract_lets +onlyGivenNames x; refine Ends.cut (x := x) (s := s0) ?_ (fun _ => ?_) <;> [subst x; clear_value x])
  refine State_accrueHold_keeps ?_
  assumption
  (extract_lets +onlyGivenNames x; refine Ends.cut (x := x) (s := s0) ?_ (fun _ => ?_) <;> [subst x; clear_value x])
  refine Ends.fold ?_ (fun _ _ _ => ?_)
  assumption
  (extract_lets +onlyGivenNames x; clear_value x)
  refine State_setFld_keeps ?_
  refine State_setFld_keeps ?_
  assumption
  refine State_addFld_keeps ?_
  assumption

theorem State_stackTemps_keeps {s0 : State} {s : State} {a1 : List (ℕ × ℤ)} (h : Ok s0 s) : Ok s0 (State.stackTemps s a1) := by
  unfold State.stackTemps
  refine Ends.fold ?_ (fun _ _ _ => ?_)
  assumption
  refine Ends.ite ?_ ?_
  refine State_setTemp_keeps ?_
  assumption
  assumption

theorem State_start_keeps {s0 : State} {s : State} {a1 : StartIn} (h : Ok s0 s) : Ok s0 (State.start s a1) := by
  unfold State.start
  (extract_lets +onlyGivenNames x; subst x)
  (extract_lets +onlyGivenNames x; refine Ends.cut (x := x) (s := s0) ?_ (fun _ => ?_) <;> [subst x; clear_value x])
  refine Ends.upd ?_
  assumption
  refine Ends.ite ?_ ?_
  assumption
  refine Ends.ite ?_ ?_
  refine State_startRest_keeps ?_
  assumption
  refine State_bootRom_keeps ?_
  assumption

theorem State_startRange_keeps {s0 : State} {s : State} {a1 : ℕ} {a2 : ℕ} (h : Ok s0 s) : Ok s0 (State.startRange s a1 a2) := by
  unfold State.startRange
  refine State_startRangeOn_keeps ?_
  assumption

theorem State_stopLane_keeps {s0 : State} {s : State} {a1 : ℕ} {a2 : LaneKind} {a3 : ℕ} (h : Ok s0 s) : Ok s0 (State.stopLane s a1 a2 a3) := by
  unfold State.stopLane
  (extract_lets +onlyGivenNames x; clear_value x)
  (extract_lets +onlyGivenNames x; clear_value x)
  (extract_lets +onlyGivenNames x; clear_value x)
  (extract_lets +onlyGivenNames x; clear_value x)
  (extract_lets +onlyGivenNames x; refine Ends.cut (x := x) (s := s0) ?_ (fun _ => ?_) <;> [subst x; clear_value x])
  refine State_setFld_keeps ?_
  assumption
  (extract_lets +onlyGivenNames x; clear_value x)
  refine Ends.ite ?_ ?_
  refine State_raiseFault_keeps ?_
  assumption
  assumption

theorem State_syncNext_keeps {s0 : State} {s : State} (h : Ok s0 s) : Ok s0 (State.syncNext s) := by
  unfold State.syncNext
  refine Ends.ite ?_ ?_
  refine State_handbackNext_keeps ?_
  assumption
  refine Ends.ite ?_ ?_
  assumption
  refine Ends.ite ?_ ?_
  refine State_askJoiner_keeps ?_
  assumption
  refine Ends.ite ?_ ?_
  refine Ends.ite ?_ ?_
  (extract_lets +onlyGivenNames x; refine Ends.cut (x := x) (s := s0) ?_ (fun _ => ?_) <;> [subst x; clear_value x])
  refine State_enterTwin_keeps ?_
  assumption
  (extract_lets +onlyGivenNames x; subst x)
  (extract_lets +onlyGivenNames x; refine Ends.cut (x := x) (s := s0) ?_ (fun _ => ?_) <;> [subst x; clear_value x])
  refine Ends.upd ?_
  assumption
  refine State_setLast_keeps ?_
  assumption
  refine State_startClaim_keeps ?_
  assumption
  assumption

theorem State_takeDma_keeps {s0 : State} {s : State} {a1 : ℕ} {a2 : DmaDesc} {a3 : Bool} {a4 : Option Bytes} (h : Ok s0 s) : Ok s0 (State.takeDma s a1 a2 a3 a4) := by
  unfold State.takeDma
  (extract_lets +onlyGivenNames x; clear_value x)
  refine Ends.ite ?_ ?_
  assumption
  refine Ends.ite ?_ ?_
  refine State_endDma_keeps ?_
  assumption
  split
  refine State_endDma_keeps ?_
  assumption
  refine State_doDma_keeps ?_
  assumption

theorem State_takeFree_keeps {s0 : State} {s : State} (h : Ok s0 s) : Ends (fun p : ℕ × State => Keeps s0 p.2) (State.takeFree s) := by
  unfold State.takeFree
  refine Ends.snd ?_
  refine Ends.upd ?_
  assumption

theorem State_unfreeze_keeps {s0 : State} {s : State} {a1 : ℕ} {a2 : ℕ} {a3 : ℕ} (h : Ok s0 s) : Ok s0 (State.unfreeze s a1 a2 a3) := by
  unfold State.unfreeze
  (extract_lets +onlyGivenNames x; clear_value x)
  (extract_lets +onlyGivenNames x; refine Ends.cut (x := x) (s := s0) ?_ (fun _ => ?_) <;> [subst x; clear_value x])
  refine State_setFrz_keeps ?_
  assumption
  (extract_lets +onlyGivenNames x; clear_value x)
  (extract_lets +onlyGivenNames x; refine Ends.cut (x := x) (s := s0) ?_ (fun _ => ?_) <;> [subst x; clear_value x])
  refine State_setFld_keeps ?_
  assumption
  refine State_setFlag_keeps ?_
  assumption

theorem State_thawDma_keeps {s0 : State} {s : State} {a1 : ℕ} {a2 : ℕ} {a3 : Bool} (h : Ok s0 s) : Ok s0 (State.thawDma s a1 a2 a3) := by
  unfold State.thawDma
  (extract_lets +onlyGivenNames x; clear_value x)
  split
  refine Ends.ite ?_ ?_
  assumption
  refine Ends.ite ?_ ?_
  refine State_setDma_keeps ?_
  assumption
  split
  refine State_setDma_keeps ?_
  refine Ends.ofL (by assumption) ?_
  refine State_runDma_keeps ?_
  assumption
  refine State_channelFault_keeps ?_
  refine State_setDma_keeps ?_
  refine Ends.ofL (by assumption) ?_
  refine State_runDma_keeps ?_
  assumption
  assumption

theorem State_thaw_keeps {s0 : State} {s : State} {a1 : ℕ} {a2 : ℕ} {a3 : ℕ} {a4 : Bool} (h : Ok s0 s) : Ok s0 (State.thaw s a1 a2 a3 a4) := by
  unfold State.thaw
  (extract_lets +onlyGivenNames x; clear_value x)
  refine Ends.ite ?_ ?_
  assumption
  (extract_lets +onlyGivenNames x; refine Ends.cut (x := x) (s := s0) ?_ (fun _ => ?_) <;> [subst x; clear_value x])
  refine State_unfreeze_keeps ?_
  assumption
  refine Ends.ite ?_ ?_
  refine Ends.ite ?_ ?_
  refine State_capStart_keeps ?_
  assumption
  assumption
  refine Ends.ite ?_ ?_
  refine State_resumeRings_keeps ?_
  assumption
  refine Ends.ite ?_ ?_
  refine State_thawDma_keeps ?_
  assumption
  refine Ends.ite ?_ ?_
  split
  split
  refine State_channelFault_keeps ?_
  assumption
  assumption
  assumption
  assumption

theorem State_thermalTrip_keeps {s0 : State} {s : State} {a1 : ℕ} {a2 : ℕ} (h : Ok s0 s) : Ok s0 (State.thermalTrip s a1 a2) := by
  unfold State.thermalTrip
  (extract_lets +onlyGivenNames x; clear_value x)
  split
  refine State_finishTrip_keeps ?_
  refine State_enter_keeps ?_
  refine State_powerDownDies_keeps ?_
  refine State_yield_keeps ?_
  assumption
  refine Ends.ite ?_ ?_
  assumption
  refine State_beginDump_keeps ?_
  refine State_yield_keeps ?_
  assumption
  assumption
  assumption
  refine State_finishTrip_keeps ?_
  refine State_headReset_keeps ?_
  assumption

theorem State_throttle_keeps {s0 : State} {s : State} {a1 : ℕ} (h : Ok s0 s) : Ok s0 (State.throttle s a1) := by
  unfold State.throttle
  (extract_lets +onlyGivenNames x; clear_value x)
  (extract_lets +onlyGivenNames x; refine Ends.cut (x := x) (s := s0) ?_ (fun _ => ?_) <;> [subst x; clear_value x])
  refine State_setFld_keeps ?_
  assumption
  (extract_lets +onlyGivenNames x; clear_value x)
  refine State_mfwEvent_keeps ?_
  refine State_notice_keeps ?_
  assumption

theorem State_tickTime_keeps {s0 : State} {s : State} (h : Ok s0 s) : Ok s0 (State.tickTime s) := by
  unfold State.tickTime
  (extract_lets +onlyGivenNames x; subst x)
  (extract_lets +onlyGivenNames x; subst x)
  refine Ends.ite ?_ ?_
  refine Ends.upd ?_
  assumption
  (extract_lets +onlyGivenNames x; clear_value x)
  refine Ends.ite ?_ ?_
  refine Ends.upd ?_
  assumption
  (extract_lets +onlyGivenNames x; clear_value x)
  (extract_lets +onlyGivenNames x; clear_value x)
  refine Ends.upd ?_
  assumption

theorem State_tryConverter_keeps {s0 : State} {s : State} (h : Ok s0 s) : Ok s0 (State.tryConverter s) := by
  unfold State.tryConverter
  refine Ends.ite ?_ ?_
  refine Ends.upd ?_
  assumption
  assumption

theorem State_unitPlaced_keeps {s0 : State} {s : State} {a1 : ℕ} {a2 : ℕ} (h : Ok s0 s) : Ok s0 (State.unitPlaced s a1 a2) := by
  unfold State.unitPlaced
  split
  refine Ends.ite ?_ ?_
  assumption
  (extract_lets +onlyGivenNames x; subst x)
  (extract_lets +onlyGivenNames x; refine Ends.cut (x := x) (s := s0) ?_ (fun _ => ?_) <;> [subst x; clear_value x])
  refine Ends.upd ?_
  assumption
  (extract_lets +onlyGivenNames x; refine Ends.cut (x := x) (s := s0) ?_ (fun _ => ?_) <;> [subst x; clear_value x])
  refine Ends.fold ?_ (fun _ _ _ => ?_)
  assumption
  refine State_packPlaced_keeps ?_
  assumption
  (extract_lets +onlyGivenNames x; refine Ends.cut (x := x) (s := s0) ?_ (fun _ => ?_) <;> [subst x; clear_value x])
  refine Ends.fold ?_ (fun _ _ _ => ?_)
  assumption
  refine State_pagePlaced_keeps ?_
  assumption
  refine State_tryTxns_keeps ?_
  refine State_reservedPlaced_keeps ?_
  assumption
  assumption

theorem State_withDge_keeps {s0 : State} {s : State} {a1 : ℕ} {a2 : ℕ} {a3 : DgeSes → State} (h : Ok s0 s) (h3 : ∀ x0, Ok s0 (a3 x0)) : Ok s0 (State.withDge s a1 a2 a3) := by
  unfold State.withDge
  refine Ends.ite ?_ ?_
  assumption
  split
  refine Ends.ite ?_ ?_
  refine State_dgeEnd_keeps ?_
  assumption
  refine h3 _
  refine State_dgeEnd_keeps ?_
  assumption

theorem State_withMsg_keeps {s0 : State} {s : State} {a1 : ℕ} {a2 : ℕ} {a3 : ℕ} {a4 : Bool} {a5 : State → ℕ → Sess → Bytes → State} (h : Ok s0 s) (h5 : ∀ x0 x1 x2 x3, Ok s0 x0 → Ok s0 (a5 x0 x1 x2 x3)) : Ok s0 (State.withMsg s a1 a2 a3 a4 a5) := by
  unfold State.withMsg
  (extract_lets +onlyGivenNames x; clear_value x)
  split
  assumption
  split
  assumption
  refine Ends.ite ?_ ?_
  assumption
  (extract_lets +onlyGivenNames x; clear_value x)
  (extract_lets +onlyGivenNames x; clear_value x)
  (extract_lets +onlyGivenNames x; refine Ends.cut (x := x) (s := s0) ?_ (fun _ => ?_) <;> [subst x; clear_value x])
  refine State_setSess_keeps ?_
  assumption
  refine Ends.ite ?_ ?_
  refine h5 _ _ _ _ ?_
  assumption
  refine State_event_keeps ?_
  assumption

theorem State_withPacket_keeps {s0 : State} {s : State} {a1 : ℕ} {a2 : ℕ} {a3 : State → ℕ → Sess → PgRx → State} (h : Ok s0 s) (h3 : ∀ x0 x1 x2 x3, Ok s0 x0 → Ok s0 (a3 x0 x1 x2 x3)) : Ok s0 (State.withPacket s a1 a2 a3) := by
  unfold State.withPacket
  split
  assumption
  refine Ends.ite ?_ ?_
  assumption
  (extract_lets +onlyGivenNames x; subst x)
  (extract_lets +onlyGivenNames x; refine Ends.cut (x := x) (s := s0) ?_ (fun _ => ?_) <;> [subst x; clear_value x])
  refine Ends.upd ?_
  assumption
  (extract_lets +onlyGivenNames x; clear_value x)
  split
  refine State_pgCount_keeps ?_
  assumption
  split
  refine State_pgCount_keeps ?_
  assumption
  split
  refine h3 _ _ _ _ ?_
  refine State_pgGeneration_keeps (by assumption) ?_
  assumption
  refine State_pgGeneration_keeps (by assumption) ?_
  assumption

theorem State_witnessAnswers_keeps {s0 : State} {s : State} {a1 : List ℕ} (h : Ok s0 s) : Ok s0 (State.witnessAnswers s a1) := by
  unfold State.witnessAnswers
  refine Ends.fold ?_ (fun _ _ _ => ?_)
  assumption
  refine State_answered_keeps ?_
  refine State_answered_keeps ?_
  assumption

theorem State_writeRec_keeps {s0 : State} {s : State} {a1 : ℕ} {a2 : ℕ} {a3 : KeyRec} (h : Ok s0 s) : Ok s0 (State.writeRec s a1 a2 a3) := by
  unfold State.writeRec
  split
  refine State_kcuEnd_keeps ?_
  assumption
  (extract_lets +onlyGivenNames x; clear_value x)
  refine State_kcuDma_keeps ?_ ?_
  assumption
  refine State_kcuEnd_keeps ?_
  refine State_stores_keeps ?_
  assumption

theorem State_writeRpl_keeps {s0 : State} {s : State} {a1 : ℕ} {a2 : Word} (h : Ok s0 s) : Ok s0 (State.writeRpl s a1 a2) := by
  unfold State.writeRpl
  split
  refine State_writePlain_keeps ?_
  assumption
  assumption

theorem State_writeRs_keeps {s0 : State} {s : State} {a1 : Word} (h : Ok s0 s) : Ok s0 (State.writeRs s a1) := by
  unfold State.writeRs
  (extract_lets +onlyGivenNames x; clear_value x)
  (extract_lets +onlyGivenNames x; refine Ends.cut (x := x) (s := s0) ?_ (fun _ => ?_) <;> [subst x; clear_value x])
  refine State_setFld_keeps ?_
  refine State_setFlag_keeps ?_
  assumption
  (extract_lets +onlyGivenNames x; refine Ends.cut (x := x) (s := s0) ?_ (fun _ => ?_) <;> [subst x; clear_value x])
  refine State_setFld_keeps ?_
  refine State_setFld_keeps ?_
  assumption
  refine State_setFld_keeps ?_
  assumption

theorem State_writeSlots_keeps {s0 : State} {s : State} {a1 : ℕ} {a2 : ℕ} {a3 : ℕ} {a4 : List Bytes} (h : Ok s0 s) : Ok s0 (State.writeSlots s a1 a2 a3 a4) := by
  unfold State.writeSlots
  refine Ends.fold ?_ (fun _ _ _ => ?_)
  assumption
  refine State_stores_keeps ?_
  assumption

theorem State_writeWdog_keeps {s0 : State} {s : State} {a1 : ℕ} {a2 : ℕ} {a3 : Word} (h : Ok s0 s) : Ok s0 (State.writeWdog s a1 a2 a3) := by
  unfold State.writeWdog
  (extract_lets +onlyGivenNames x; clear_value x)
  (extract_lets +onlyGivenNames x; clear_value x)
  (extract_lets +onlyGivenNames x; clear_value x)
  (extract_lets +onlyGivenNames x; refine Ends.cut (x := x) (s := s0) ?_ (fun _ => ?_) <;> [subst x; clear_value x])
  refine Ends.ite ?_ ?_
  assumption
  refine State_setFld_keeps ?_
  assumption
  (extract_lets +onlyGivenNames x; refine Ends.cut (x := x) (s := s0) ?_ (fun _ => ?_) <;> [subst x; clear_value x])
  refine Ends.ite ?_ ?_
  refine State_setFlag_keeps ?_
  assumption
  assumption
  refine Ends.ite ?_ ?_
  refine Ends.upd ?_
  assumption
  assumption

theorem State_writebackDone_keeps {s0 : State} {s : State} {a1 : ℕ} (h : Ok s0 s) : Ok s0 (State.writebackDone s a1) := by
  unfold State.writebackDone
  split
  refine Ends.ite ?_ ?_
  assumption
  (extract_lets +onlyGivenNames x; clear_value x)
  (extract_lets +onlyGivenNames x; refine Ends.cut (x := x) (s := s0) ?_ (fun _ => ?_) <;> [subst x; clear_value x])
  refine State_setLine_keeps ?_
  assumption
  (extract_lets +onlyGivenNames x; clear_value x)
  split
  refine Ends.ite ?_ ?_
  assumption
  refine Ends.ite ?_ ?_
  refine Ends.ite ?_ ?_
  refine State_rangeStep_keeps ?_
  refine State_dropLine_keeps ?_
  assumption
  refine State_rangeStep_keeps ?_
  assumption
  refine State_rangeStep_keeps ?_
  assumption
  assumption
  assumption

theorem execAbort_keeps {s0 : State} {a0 : Cap} {a1 : ℕ} {a2 : ℕ} {s : State} (h : Ok s0 s) : Ends (fun r : Host.Outcome State Fault Refusal => ∀ t, r = .next t → Keeps s0 t) (execAbort a0 a1 a2 s) := by
  unfold execAbort
  refine Ends.next ?_
  refine State_settle_keeps ?_
  refine State_adminCmd_keeps ?_
  assumption

theorem execActivate_keeps {s0 : State} {a0 : Via} {a1 : RoleEnv} {s : State} (h : Ok s0 s) : Ends (fun r : Host.Outcome State Fault Refusal => ∀ t, r = .next t → Keeps s0 t) (execActivate a0 a1 s) := by
  unfold execActivate
  refine Ends.next ?_
  refine State_roleArrive_keeps ?_
  assumption

theorem execActivateMessage_keeps {s0 : State} {a0 : ℕ} {a1 : ℕ} {s : State} (h : Ok s0 s) : Ends (fun r : Host.Outcome State Fault Refusal => ∀ t, r = .next t → Keeps s0 t) (execActivateMessage a0 a1 s) := by
  unfold execActivateMessage
  refine Ends.ite ?_ ?_
  refine Ends.next ?_
  assumption
  (extract_lets +onlyGivenNames x; subst x)
  (extract_lets +onlyGivenNames x; refine Ends.cut (x := x) (s := s0) ?_ (fun _ => ?_) <;> [subst x; clear_value x])
  refine State_sendMb_keeps ?_
  refine Ends.upd ?_
  assumption
  refine Ends.ite ?_ ?_
  refine Ends.next ?_
  refine State_settle_keeps ?_
  refine State_give_keeps ?_
  assumption
  refine Ends.next ?_
  assumption

theorem execAddressRequest_keeps {s0 : State} {a0 : ℕ} {a1 : ℕ} {a2 : BitVec 128} {s : State} (h : Ok s0 s) : Ends (fun r : Host.Outcome State Fault Refusal => ∀ t, r = .next t → Keeps s0 t) (execAddressRequest a0 a1 a2 s) := by
  unfold execAddressRequest
  (extract_lets +onlyGivenNames x; refine Ends.cut (x := x) (s := s0) ?_ (fun _ => ?_) <;> [subst x; clear_value x])
  refine State_leaveRx_keeps ?_
  assumption
  refine Ends.ite ?_ ?_
  refine Ends.next ?_
  refine State_emit_keeps ?_
  refine State_queueFrame_keeps ?_
  assumption
  refine Ends.next ?_
  assumption

theorem execAdminHosts_keeps {s0 : State} {a0 : Via} {a1 : RoleEnv} {a2 : List Bytes} {s : State} (h : Ok s0 s) : Ends (fun r : Host.Outcome State Fault Refusal => ∀ t, r = .next t → Keeps s0 t) (execAdminHosts a0 a1 a2 s) := by
  unfold execAdminHosts
  refine Ends.next ?_
  refine State_roleArrive_keeps ?_
  assumption

theorem execAoRailLoss_keeps {s0 s : State} (h : Ok s0 s) :
    Ends (fun r : Host.Outcome State Fault Refusal => ∀ t, r = .next t → Keeps s0 t) (execAoRailLoss s) :=
  Ends.next (Ends.updRegs (State_powerLoss_keeps h) fun _ => rfl)

theorem execAoRailRise_keeps {s0 s : State} {side : Nat} (h : Ok s0 s) :
    Ends (fun r : Host.Outcome State Fault Refusal => ∀ t, r = .next t → Keeps s0 t) (execAoRailRise side s) := by
  unfold execAoRailRise
  dsimp only
  refine Ends.next (Ends.upd (State_headReset_keeps ?_))
  exact ⟨h.1, h.2, fun _ => Nat.mod_lt _ (by decide), h.4, h.5, fun _ => rfl⟩

theorem execAsyncEventRequest_keeps {s0 : State} {a0 : Cap} {s : State} (h : Ok s0 s) : Ends (fun r : Host.Outcome State Fault Refusal => ∀ t, r = .next t → Keeps s0 t) (execAsyncEventRequest a0 s) := by
  unfold execAsyncEventRequest
  refine Ends.next ?_
  refine State_settle_keeps ?_
  refine State_adminCmd_keeps ?_
  assumption

theorem execAttest_keeps {s0 : State} {a0 : MgmtHdr} {a1 : ℕ} {a2 : Bytes} {s : State} (h : Ok s0 s) : Ends (fun r : Host.Outcome State Fault Refusal => ∀ t, r = .next t → Keeps s0 t) (execAttest a0 a1 a2 s) := by
  unfold execAttest
  refine Ends.next ?_
  refine State_mgmt_keeps ?_ ?_
  assumption
  intros
  (extract_lets +onlyGivenNames x; clear_value x)
  split
  refine Ends.snd ?_
  refine Ends.upd ?_
  assumption
  split
  refine Ends.snd ?_
  refine Ends.upd ?_
  assumption
  refine Ends.snd ?_
  assumption
  refine Ends.snd ?_
  assumption
  refine Ends.snd ?_
  assumption

theorem execAttestCalrow_keeps {s0 : State} {a0 : Cap} {a1 : ℕ} {s : State} (h : Ok s0 s) : Ends (fun r : Host.Outcome State Fault Refusal => ∀ t, r = .next t → Keeps s0 t) (execAttestCalrow a0 a1 s) := by
  unfold execAttestCalrow
  refine Ends.next ?_
  refine State_settle_keeps ?_
  refine State_adminCmd_keeps ?_
  assumption

theorem execAttestNonce_keeps {s0 : State} {a0 : Cap} {a1 : Bytes} {s : State} (h : Ok s0 s) : Ends (fun r : Host.Outcome State Fault Refusal => ∀ t, r = .next t → Keeps s0 t) (execAttestNonce a0 a1 s) := by
  unfold execAttestNonce
  refine Ends.next ?_
  refine State_settle_keeps ?_
  refine State_adminCmd_keeps ?_
  assumption

theorem execAttestReport_keeps {s0 : State} {a0 : Cap} {a1 : ℕ} {s : State} (h : Ok s0 s) : Ends (fun r : Host.Outcome State Fault Refusal => ∀ t, r = .next t → Keeps s0 t) (execAttestReport a0 a1 s) := by
  unfold execAttestReport
  refine Ends.next ?_
  refine State_settle_keeps ?_
  refine State_adminCmd_keeps ?_
  assumption

theorem execAwk_keeps {s0 : State} {a0 : ℕ} {s : State} (h : Ok s0 s) : Ends (fun r : Host.Outcome State Fault Refusal => ∀ t, r = .next t → Keeps s0 t) (execAwk a0 s) := by
  unfold execAwk
  split
  split
  refine Ends.next ?_
  refine State_settle_keeps ?_
  refine State_setAwk_keeps ?_
  refine State_takeMb_keeps (by assumption) ?_
  assumption
  refine Ends.next ?_
  refine State_takeMb_keeps (by assumption) ?_
  assumption
  refine Ends.next ?_
  assumption

theorem execBDieStart_keeps {s0 : State} {a0 : StartIn} {s : State} (h : Ok s0 s) : Ends (fun r : Host.Outcome State Fault Refusal => ∀ t, r = .next t → Keeps s0 t) (execBDieStart a0 s) := by
  unfold execBDieStart
  refine Ends.next ?_
  refine State_settle_keeps ?_
  refine State_start_keeps ?_
  assumption

theorem execBlockLock_keeps {s0 : State} {a0 : Requester} {a1 : ℕ} {a2 : Word} {s : State} (h : Ok s0 s) : Ends (fun r : Host.Outcome State Fault Refusal => ∀ t, r = .next t → Keeps s0 t) (execBlockLock a0 a1 a2 s) := by
  unfold execBlockLock
  split
  refine Ends.next ?_
  refine Ends.ofR (by assumption) ?_
  refine State_checkAccess_keeps ?_
  assumption
  split
  split
  refine Ends.next ?_
  refine State_writeReg_keeps ?_
  refine Ends.ofR (by assumption) ?_
  refine State_checkAccess_keeps ?_
  assumption
  refine Ends.next ?_
  refine Ends.ofR (by assumption) ?_
  refine State_checkAccess_keeps ?_
  assumption
  refine Ends.next ?_
  refine Ends.ofR (by assumption) ?_
  refine State_checkAccess_keeps ?_
  assumption

theorem execBootComplete_keeps {s0 : State} {s : State} (h : Ok s0 s) : Ends (fun r : Host.Outcome State Fault Refusal => ∀ t, r = .next t → Keeps s0 t) (execBootComplete s) := by
  unfold execBootComplete
  refine Ends.ite ?_ ?_
  refine Ends.next ?_
  refine State_settle_keeps ?_
  refine State_enter_keeps ?_
  assumption
  refine Ends.next ?_
  assumption

theorem execC0Resident_keeps {s0 : State} {a0 : Via} {a1 : RoleEnv} {a2 : ℕ} {s : State} (h : Ok s0 s) : Ends (fun r : Host.Outcome State Fault Refusal => ∀ t, r = .next t → Keeps s0 t) (execC0Resident a0 a1 a2 s) := by
  unfold execC0Resident
  refine Ends.next ?_
  refine State_roleArrive_keeps ?_
  assumption

theorem execCandidateConfirm_keeps {s0 : State} {a0 : ℕ} {a1 : ℕ} {s : State} (h : Ok s0 s) : Ends (fun r : Host.Outcome State Fault Refusal => ∀ t, r = .next t → Keeps s0 t) (execCandidateConfirm a0 a1 s) := by
  unfold execCandidateConfirm
  split
  refine Ends.next ?_
  assumption
  split
  (extract_lets +onlyGivenNames x; clear_value x)
  split
  refine Ends.next ?_
  refine State_settle_keeps ?_
  refine State_confirmBy_keeps ?_
  assumption
  (extract_lets +onlyGivenNames x; refine Ends.cut (x := x) (s := s0) ?_ (fun _ => ?_) <;> [subst x; clear_value x])
  refine State_addFld_keeps ?_
  assumption
  split
  refine Ends.next ?_
  refine State_settle_keeps ?_
  refine State_confirmBy_keeps ?_
  assumption
  refine Ends.next ?_
  refine State_settle_keeps ?_
  refine State_freshChunk_keeps ?_
  assumption
  refine Ends.next ?_
  assumption

theorem execCapsule_keeps {s0 : State} {a0 : ChlHdr} {a1 : MirrorCap} {s : State} (h : Ok s0 s) : Ends (fun r : Host.Outcome State Fault Refusal => ∀ t, r = .next t → Keeps s0 t) (execCapsule a0 a1 s) := by
  unfold execCapsule
  refine Ends.next ?_
  refine State_settle_keeps ?_
  refine State_chlMsg_keeps ?_
  assumption

theorem execCaptureSnap_keeps {s0 : State} {a0 : ℕ} {a1 : ℕ} {a2 : ℕ} {s : State} (h : Ok s0 s) : Ends (fun r : Host.Outcome State Fault Refusal => ∀ t, r = .next t → Keeps s0 t) (execCaptureSnap a0 a1 a2 s) := by
  unfold execCaptureSnap
  refine Ends.ite ?_ ?_
  refine Ends.next ?_
  assumption
  split
  (extract_lets +onlyGivenNames x; clear_value x)
  refine Ends.next ?_
  refine State_channelFault_keeps ?_
  refine State_setFlag_keeps ?_
  refine State_setFlag_keeps ?_
  assumption
  refine Ends.next ?_
  refine State_capture_keeps ?_
  assumption

theorem execCaptureStart_keeps {s0 : State} {a0 : ℕ} {a1 : Word} {s : State} (h : Ok s0 s) : Ends (fun r : Host.Outcome State Fault Refusal => ∀ t, r = .next t → Keeps s0 t) (execCaptureStart a0 a1 s) := by
  unfold execCaptureStart
  refine Ends.ite ?_ ?_
  refine Ends.next ?_
  assumption
  (extract_lets +onlyGivenNames x; clear_value x)
  (extract_lets +onlyGivenNames x; refine Ends.cut (x := x) (s := s0) ?_ (fun _ => ?_) <;> [subst x; clear_value x])
  refine State_writeRpl_keeps ?_
  assumption
  refine Ends.ite ?_ ?_
  refine Ends.next ?_
  assumption
  refine Ends.next ?_
  refine State_capStart_keeps ?_
  assumption

theorem execCaptureStop_keeps {s0 : State} {a0 : ℕ} {a1 : Word} {s : State} (h : Ok s0 s) : Ends (fun r : Host.Outcome State Fault Refusal => ∀ t, r = .next t → Keeps s0 t) (execCaptureStop a0 a1 s) := by
  unfold execCaptureStop
  refine Ends.ite ?_ ?_
  refine Ends.next ?_
  assumption
  (extract_lets +onlyGivenNames x; refine Ends.cut (x := x) (s := s0) ?_ (fun _ => ?_) <;> [subst x; clear_value x])
  refine Ends.ite ?_ ?_
  refine State_capture_keeps ?_
  assumption
  assumption
  refine Ends.next ?_
  refine State_setFlag_keeps ?_
  refine State_writeRpl_keeps ?_
  assumption

theorem execCarrierAttach_keeps {s0 : State} {a0 : ℕ} {a1 : ℤ} {a2 : List DiePage} {s : State} (h : Ok s0 s) : Ends (fun r : Host.Outcome State Fault Refusal => ∀ t, r = .next t → Keeps s0 t) (execCarrierAttach a0 a1 a2 s) := by
  unfold execCarrierAttach
  refine Ends.ite ?_ ?_
  refine Ends.next ?_
  refine State_settle_keeps ?_
  refine State_attach_keeps ?_
  assumption
  refine Ends.next ?_
  assumption

theorem execCcAlphaUpdate_keeps {s0 : State} {a0 : CcWho} {s : State} (h : Ok s0 s) : Ends (fun r : Host.Outcome State Fault Refusal => ∀ t, r = .next t → Keeps s0 t) (execCcAlphaUpdate a0 s) := by
  unfold execCcAlphaUpdate
  refine Ends.next ?_
  refine State_modCc_keeps ?_
  assumption

theorem execCcRateIncrease_keeps {s0 : State} {a0 : CcWho} {s : State} (h : Ok s0 s) : Ends (fun r : Host.Outcome State Fault Refusal => ∀ t, r = .next t → Keeps s0 t) (execCcRateIncrease a0 s) := by
  unfold execCcRateIncrease
  refine Ends.next ?_
  refine State_modCc_keeps ?_
  assumption

theorem execChallengeLapse_keeps {s0 : State} {s : State} (h : Ok s0 s) : Ends (fun r : Host.Outcome State Fault Refusal => ∀ t, r = .next t → Keeps s0 t) (execChallengeLapse s) := by
  unfold execChallengeLapse
  refine Ends.next ?_
  refine State_lapseChallenges_keeps ?_
  assumption

theorem execChannelFreezeRequest_keeps {s0 : State} {a0 : ℕ} {a1 : ℕ} {a2 : Word} {s : State} (h : Ok s0 s) : Ends (fun r : Host.Outcome State Fault Refusal => ∀ t, r = .next t → Keeps s0 t) (execChannelFreezeRequest a0 a1 a2 s) := by
  unfold execChannelFreezeRequest
  refine Ends.ite ?_ ?_
  refine Ends.next ?_
  assumption
  refine Ends.next ?_
  refine Ends.fold ?_ (fun _ _ _ => ?_)
  assumption
  refine State_requestFreeze_keeps ?_
  assumption

theorem execChannelFrozen_keeps {s0 : State} {a0 : ℕ} {a1 : ℕ} {a2 : ℕ} {s : State} (h : Ok s0 s) : Ends (fun r : Host.Outcome State Fault Refusal => ∀ t, r = .next t → Keeps s0 t) (execChannelFrozen a0 a1 a2 s) := by
  unfold execChannelFrozen
  refine Ends.ite ?_ ?_
  (extract_lets +onlyGivenNames x; refine Ends.cut (x := x) (s := s0) ?_ (fun _ => ?_) <;> [subst x; clear_value x])
  refine State_freezeChan_keeps ?_
  assumption
  refine Ends.next ?_
  refine State_setFlag_keeps ?_
  assumption
  refine Ends.next ?_
  assumption

theorem execCheckpointReq_keeps {s0 : State} {a0 : Word} {s : State} (h : Ok s0 s) : Ends (fun r : Host.Outcome State Fault Refusal => ∀ t, r = .next t → Keeps s0 t) (execCheckpointReq a0 s) := by
  unfold execCheckpointReq
  refine Ends.ite ?_ ?_
  refine Ends.next ?_
  refine State_settle_keeps ?_
  refine State_startCkpt_keeps ?_
  assumption
  refine Ends.next ?_
  assumption

theorem execCheckpointTimer_keeps {s0 : State} {a0 : Bool} {s : State} (h : Ok s0 s) : Ends (fun r : Host.Outcome State Fault Refusal => ∀ t, r = .next t → Keeps s0 t) (execCheckpointTimer a0 s) := by
  unfold execCheckpointTimer
  refine Ends.ite ?_ ?_
  refine Ends.next ?_
  assumption
  (extract_lets +onlyGivenNames x; subst x)
  (extract_lets +onlyGivenNames x; refine Ends.cut (x := x) (s := s0) ?_ (fun _ => ?_) <;> [subst x; clear_value x])
  refine Ends.ite ?_ ?_
  assumption
  refine Ends.fold ?_ (fun _ _ _ => ?_)
  assumption
  refine State_writePage_keeps ?_
  assumption
  refine Ends.next ?_
  refine State_settle_keeps ?_
  refine State_startCkpt_keeps ?_
  assumption

theorem execChlAckTimeout_keeps {s0 : State} {a0 : ℕ} {s : State} (h : Ok s0 s) : Ends (fun r : Host.Outcome State Fault Refusal => ∀ t, r = .next t → Keeps s0 t) (execChlAckTimeout a0 s) := by
  unfold execChlAckTimeout
  split
  refine Ends.ite ?_ ?_
  refine Ends.next ?_
  assumption
  refine Ends.ite ?_ ?_
  refine Ends.next ?_
  refine State_settle_keeps ?_
  refine State_groupLost_keeps ?_
  assumption
  refine Ends.next ?_
  refine State_replayFrom_keeps ?_
  assumption
  refine Ends.next ?_
  assumption

theorem execChlGapTimeout_keeps {s0 : State} {a0 : ℕ} {s : State} (h : Ok s0 s) : Ends (fun r : Host.Outcome State Fault Refusal => ∀ t, r = .next t → Keeps s0 t) (execChlGapTimeout a0 s) := by
  unfold execChlGapTimeout
  (extract_lets +onlyGivenNames x; clear_value x)
  split
  refine Ends.ite ?_ ?_
  refine Ends.next ?_
  refine State_sendChlNak_keeps ?_
  refine State_setGroup_keeps ?_
  assumption
  refine Ends.next ?_
  assumption
  refine Ends.next ?_
  assumption

theorem execChlGroupLost_keeps {s0 : State} {a0 : ℕ} {s : State} (h : Ok s0 s) : Ends (fun r : Host.Outcome State Fault Refusal => ∀ t, r = .next t → Keeps s0 t) (execChlGroupLost a0 s) := by
  unfold execChlGroupLost
  (extract_lets +onlyGivenNames x; clear_value x)
  (extract_lets +onlyGivenNames x; clear_value x)
  refine Ends.ite ?_ ?_
  refine Ends.next ?_
  refine State_settle_keeps ?_
  refine State_groupLost_keeps ?_
  assumption
  refine Ends.next ?_
  assumption

theorem execChlIdle_keeps {s0 : State} {a0 : ChlHdr} {s : State} (h : Ok s0 s) : Ends (fun r : Host.Outcome State Fault Refusal => ∀ t, r = .next t → Keeps s0 t) (execChlIdle a0 s) := by
  unfold execChlIdle
  refine Ends.next ?_
  refine State_settle_keeps ?_
  refine State_chlControl_keeps ?_ ?_
  assumption
  intros
  refine Ends.idR ?_
  assumption

theorem execChlIdleSend_keeps {s0 : State} {a0 : ℕ} {a1 : ℕ} {s : State} (h : Ok s0 s) : Ends (fun r : Host.Outcome State Fault Refusal => ∀ t, r = .next t → Keeps s0 t) (execChlIdleSend a0 a1 s) := by
  unfold execChlIdleSend
  (extract_lets +onlyGivenNames x; clear_value x)
  refine Ends.ite ?_ ?_
  refine Ends.ite ?_ ?_
  refine Ends.next ?_
  refine State_controlFrame_keeps ?_
  assumption
  refine Ends.next ?_
  assumption
  refine Ends.ite ?_ ?_
  refine Ends.next ?_
  refine State_controlFrame_keeps ?_
  assumption
  refine Ends.next ?_
  assumption

theorem execChlLaneRetire_keeps {s0 : State} {a0 : ℕ} {a1 : ℕ} {s : State} (h : Ok s0 s) : Ends (fun r : Host.Outcome State Fault Refusal => ∀ t, r = .next t → Keeps s0 t) (execChlLaneRetire a0 a1 s) := by
  unfold execChlLaneRetire
  (extract_lets +onlyGivenNames x; clear_value x)
  (extract_lets +onlyGivenNames x; clear_value x)
  refine Ends.ite ?_ ?_
  refine Ends.next ?_
  assumption
  (extract_lets +onlyGivenNames x; clear_value x)
  (extract_lets +onlyGivenNames x; refine Ends.cut (x := x) (s := s0) ?_ (fun _ => ?_) <;> [subst x; clear_value x])
  refine State_setGroup_keeps ?_
  assumption
  refine Ends.next ?_
  refine State_setFld_keeps ?_
  assumption

theorem execChlLaneReturn_keeps {s0 : State} {a0 : ℕ} {a1 : ℕ} {s : State} (h : Ok s0 s) : Ends (fun r : Host.Outcome State Fault Refusal => ∀ t, r = .next t → Keeps s0 t) (execChlLaneReturn a0 a1 s) := by
  unfold execChlLaneReturn
  (extract_lets +onlyGivenNames x; clear_value x)
  (extract_lets +onlyGivenNames x; clear_value x)
  refine Ends.ite ?_ ?_
  refine Ends.next ?_
  assumption
  refine Ends.next ?_
  refine State_chlTrain_keeps ?_
  refine State_setGroup_keeps ?_
  assumption

theorem execChlNak_keeps {s0 : State} {a0 : ChlHdr} {s : State} (h : Ok s0 s) : Ends (fun r : Host.Outcome State Fault Refusal => ∀ t, r = .next t → Keeps s0 t) (execChlNak a0 s) := by
  unfold execChlNak
  refine Ends.next ?_
  refine State_settle_keeps ?_
  refine State_chlControl_keeps ?_ ?_
  assumption
  intros
  refine State_replayFrom_keeps ?_
  assumption

theorem execChlTrain_keeps {s0 : State} {a0 : ℕ} {a1 : ℕ} {a2 : ℕ} {a3 : Bool} {s : State} (h : Ok s0 s) : Ends (fun r : Host.Outcome State Fault Refusal => ∀ t, r = .next t → Keeps s0 t) (execChlTrain a0 a1 a2 a3 s) := by
  unfold execChlTrain
  refine Ends.ite ?_ ?_
  refine Ends.next ?_
  refine State_chlTrain_keeps ?_
  assumption
  refine Ends.next ?_
  refine State_chlCrcError_keeps ?_
  assumption

theorem execChunkFreeFinish_keeps {s0 : State} {a0 : ℕ} {s : State} (h : Ok s0 s) : Ends (fun r : Host.Outcome State Fault Refusal => ∀ t, r = .next t → Keeps s0 t) (execChunkFreeFinish a0 s) := by
  unfold execChunkFreeFinish
  split
  refine Ends.next ?_
  assumption
  refine Ends.ite ?_ ?_
  refine Ends.next ?_
  assumption
  refine Ends.ite ?_ ?_
  split
  refine Ends.next ?_
  refine State_settle_keeps ?_
  refine State_restoreChunk_keeps ?_
  assumption
  refine Ends.next ?_
  refine State_settle_keeps ?_
  refine State_refp_keeps ?_
  assumption
  refine Ends.ite ?_ ?_
  (extract_lets +onlyGivenNames x; refine Ends.cut (x := x) (s := s0) ?_ (fun _ => ?_) <;> [subst x; clear_value x])
  refine State_log_keeps ?_
  assumption
  refine Ends.next ?_
  refine State_settle_keeps ?_
  refine Ends.upd ?_
  assumption
  refine Ends.next ?_
  assumption

theorem execChunkFreeStart_keeps {s0 : State} {a0 : ℕ} {s : State} (h : Ok s0 s) : Ends (fun r : Host.Outcome State Fault Refusal => ∀ t, r = .next t → Keeps s0 t) (execChunkFreeStart a0 s) := by
  unfold execChunkFreeStart
  (extract_lets +onlyGivenNames x; clear_value x)
  refine Ends.ite ?_ ?_
  refine Ends.next ?_
  assumption
  (extract_lets +onlyGivenNames x; clear_value x)
  (extract_lets +onlyGivenNames x; refine Ends.cut (x := x) (s := s0) ?_ (fun _ => ?_) <;> [subst x; clear_value x])
  refine Ends.fold ?_ (fun _ _ _ => ?_)
  refine State_log_keeps ?_
  assumption
  refine State_filterDelete_keeps ?_
  assumption
  (extract_lets +onlyGivenNames x; refine Ends.cut (x := x) (s := s0) ?_ (fun _ => ?_) <;> [subst x; clear_value x])
  refine Ends.ite ?_ ?_
  assumption
  refine Ends.projL ?_
  refine State_logTxn_keeps ?_
  assumption
  (extract_lets +onlyGivenNames x; clear_value x)
  refine Ends.next ?_
  refine Ends.upd ?_
  assumption

theorem execChunks_keeps {s0 : State} {a0 : ℕ} {a1 : ℕ} {s : State} (h : Ok s0 s) : Ends (fun r : Host.Outcome State Fault Refusal => ∀ t, r = .next t → Keeps s0 t) (execChunks a0 a1 s) := by
  unfold execChunks
  refine Ends.next ?_
  refine State_settle_keeps ?_
  refine State_withMsg_keeps ?_ ?_
  assumption
  intros
  split
  refine Ends.ite ?_ ?_
  assumption
  split
  refine State_badBatch_keeps ?_
  assumption
  assumption
  (extract_lets +onlyGivenNames x; clear_value x)
  (extract_lets +onlyGivenNames x; clear_value x)
  (extract_lets +onlyGivenNames x; refine Ends.cut (x := x) (s := s0) ?_ (fun _ => ?_) <;> [subst x; clear_value x])
  refine State_setSess_keeps ?_
  assumption
  refine State_setJob_keeps ?_
  refine Ends.upd ?_
  assumption
  assumption

theorem execClaimDeferEnd_keeps {s0 : State} {s : State} (h : Ok s0 s) : Ends (fun r : Host.Outcome State Fault Refusal => ∀ t, r = .next t → Keeps s0 t) (execClaimDeferEnd s) := by
  unfold execClaimDeferEnd
  split
  refine Ends.ite ?_ ?_
  refine Ends.next ?_
  refine State_settle_keeps ?_
  refine State_claimTakeover_keeps ?_
  refine Ends.upd ?_
  assumption
  refine Ends.next ?_
  assumption
  refine Ends.next ?_
  assumption

theorem execClaimReply_keeps {s0 : State} {a0 : ℕ} {a1 : ℕ} {a2 : ℕ} {a3 : Bool} {a4 : MediaImage} {s : State} (h : Ok s0 s) : Ends (fun r : Host.Outcome State Fault Refusal => ∀ t, r = .next t → Keeps s0 t) (execClaimReply a0 a1 a2 a3 a4 s) := by
  unfold execClaimReply
  refine Ends.next ?_
  refine State_settle_keeps ?_
  refine State_claimReply_keeps ?_
  refine State_epochReported_keeps ?_
  refine State_answered_keeps ?_
  assumption

theorem execClaimTimeout_keeps {s0 : State} {s : State} (h : Ok s0 s) : Ends (fun r : Host.Outcome State Fault Refusal => ∀ t, r = .next t → Keeps s0 t) (execClaimTimeout s) := by
  unfold execClaimTimeout
  split
  refine Ends.ite ?_ ?_
  refine Ends.next ?_
  refine State_settle_keeps ?_
  refine State_claimLost_keeps ?_
  assumption
  refine Ends.next ?_
  assumption
  refine Ends.next ?_
  assumption

theorem execClearDeferred_keeps {s0 : State} {a0 : Via} {a1 : RoleEnv} {s : State} (h : Ok s0 s) : Ends (fun r : Host.Outcome State Fault Refusal => ∀ t, r = .next t → Keeps s0 t) (execClearDeferred a0 a1 s) := by
  unfold execClearDeferred
  refine Ends.next ?_
  refine State_roleArrive_keeps ?_
  assumption

theorem execClearEvr_keeps {s0 : State} {a0 : Via} {a1 : RoleEnv} {s : State} (h : Ok s0 s) : Ends (fun r : Host.Outcome State Fault Refusal => ∀ t, r = .next t → Keeps s0 t) (execClearEvr a0 a1 s) := by
  unfold execClearEvr
  refine Ends.next ?_
  refine State_roleArrive_keeps ?_
  assumption

theorem execCloneCreate_keeps {s0 : State} {a0 : Via} {a1 : RoleEnv} {a2 : ℕ} {a3 : Bool} {s : State} (h : Ok s0 s) : Ends (fun r : Host.Outcome State Fault Refusal => ∀ t, r = .next t → Keeps s0 t) (execCloneCreate a0 a1 a2 a3 s) := by
  unfold execCloneCreate
  refine Ends.next ?_
  refine State_roleArrive_keeps ?_
  assumption

theorem execCmpFlush_keeps {s0 : State} {a0 : ℕ} {a1 : Word} {s : State} (h : Ok s0 s) : Ends (fun r : Host.Outcome State Fault Refusal => ∀ t, r = .next t → Keeps s0 t) (execCmpFlush a0 a1 s) := by
  unfold execCmpFlush
  (extract_lets +onlyGivenNames x; clear_value x)
  refine Ends.next ?_
  refine State_settle_keeps ?_
  refine Ends.fold ?_ (fun _ _ _ => ?_)
  assumption
  refine State_closePack_keeps ?_
  assumption

theorem execCmtClean_keeps {s0 : State} {a0 : ℕ} {s : State} (h : Ok s0 s) : Ends (fun r : Host.Outcome State Fault Refusal => ∀ t, r = .next t → Keeps s0 t) (execCmtClean a0 s) := by
  unfold execCmtClean
  refine Ends.next ?_
  refine State_cmt_keeps ?_
  assumption

theorem execCmtCleanInv_keeps {s0 : State} {a0 : ℕ} {s : State} (h : Ok s0 s) : Ends (fun r : Host.Outcome State Fault Refusal => ∀ t, r = .next t → Keeps s0 t) (execCmtCleanInv a0 s) := by
  unfold execCmtCleanInv
  refine Ends.next ?_
  refine State_cmt_keeps ?_
  assumption

theorem execCmtDone_keeps {s0 : State} {a0 : ℕ} {s : State} (h : Ok s0 s) : Ends (fun r : Host.Outcome State Fault Refusal => ∀ t, r = .next t → Keeps s0 t) (execCmtDone a0 s) := by
  unfold execCmtDone
  refine Ends.ite ?_ ?_
  refine Ends.next ?_
  refine State_setFlag_keeps ?_
  refine State_setFlag_keeps ?_
  assumption
  refine Ends.next ?_
  assumption

theorem execCmtInvalidate_keeps {s0 : State} {a0 : ℕ} {s : State} (h : Ok s0 s) : Ends (fun r : Host.Outcome State Fault Refusal => ∀ t, r = .next t → Keeps s0 t) (execCmtInvalidate a0 s) := by
  unfold execCmtInvalidate
  refine Ends.next ?_
  refine State_cmt_keeps ?_
  assumption

theorem execCnpReceive_keeps {s0 : State} {a0 : RoceHdr} {s : State} (h : Ok s0 s) : Ends (fun r : Host.Outcome State Fault Refusal => ∀ t, r = .next t → Keeps s0 t) (execCnpReceive a0 s) := by
  unfold execCnpReceive
  refine Ends.next ?_
  refine State_roceIn_keeps ?_
  assumption

theorem execCommit_keeps {s0 : State} {a0 : ℕ} {a1 : ℕ} {s : State} (h : Ok s0 s) : Ends (fun r : Host.Outcome State Fault Refusal => ∀ t, r = .next t → Keeps s0 t) (execCommit a0 a1 s) := by
  unfold execCommit
  refine Ends.next ?_
  refine State_settle_keeps ?_
  refine State_withMsg_keeps ?_ ?_
  assumption
  intros
  split
  refine Ends.ite ?_ ?_
  refine State_setSess_keeps ?_
  assumption
  assumption
  assumption

theorem execCommitCopyDone_keeps {s0 : State} {a0 : ℕ} {a1 : ℕ} {s : State} (h : Ok s0 s) : Ends (fun r : Host.Outcome State Fault Refusal => ∀ t, r = .next t → Keeps s0 t) (execCommitCopyDone a0 a1 s) := by
  unfold execCommitCopyDone
  refine Ends.next ?_
  refine State_finishCopy_keeps ?_
  assumption

theorem execCommitted_keeps {s0 : State} {a0 : ℕ} {a1 : ℕ} {s : State} (h : Ok s0 s) : Ends (fun r : Host.Outcome State Fault Refusal => ∀ t, r = .next t → Keeps s0 t) (execCommitted a0 a1 s) := by
  unfold execCommitted
  refine Ends.next ?_
  refine State_settle_keeps ?_
  refine State_withMsg_keeps ?_ ?_
  assumption
  intros
  split
  refine Ends.ite ?_ ?_
  refine State_nextCycle_keeps ?_
  assumption
  assumption
  assumption

theorem execCompare_keeps {s0 : State} {a0 : Cap} {a1 : ℕ} {a2 : ℕ} {s : State} (h : Ok s0 s) : Ends (fun r : Host.Outcome State Fault Refusal => ∀ t, r = .next t → Keeps s0 t) (execCompare a0 a1 a2 s) := by
  unfold execCompare
  refine Ends.ite ?_ ?_
  refine Ends.next ?_
  refine State_settle_keeps ?_
  refine State_arrive_keeps ?_ ?_
  assumption
  intros
  split
  refine State_enterCmd_keeps ?_
  assumption
  refine State_setQueue_keeps ?_
  assumption
  refine Ends.next ?_
  refine State_settle_keeps ?_
  refine State_ioCmd_keeps ?_
  assumption

theorem execCompareAndWrite_keeps {s0 : State} {a0 : Cap} {a1 : Cap} {a2 : ℕ} {a3 : ℕ} {a4 : ℕ} {a5 : ℕ} {s : State} (h : Ok s0 s) : Ends (fun r : Host.Outcome State Fault Refusal => ∀ t, r = .next t → Keeps s0 t) (execCompareAndWrite a0 a1 a2 a3 a4 a5 s) := by
  unfold execCompareAndWrite
  refine Ends.next ?_
  refine State_settle_keeps ?_
  refine State_fused_keeps ?_
  assumption

theorem execConnect_keeps {s0 : State} {a0 : Cap} {a1 : ConnNqn} {a2 : ℕ} {a3 : ℕ} {a4 : ℕ} {a5 : ℕ} {a6 : Bool} {s : State} (h : Ok s0 s) : Ends (fun r : Host.Outcome State Fault Refusal => ∀ t, r = .next t → Keeps s0 t) (execConnect a0 a1 a2 a3 a4 a5 a6 s) := by
  unfold execConnect
  refine Ends.next ?_
  refine State_settle_keeps ?_
  refine State_connect_keeps ?_
  assumption

theorem execContextFetchDone_keeps {s0 : State} {a0 : ℕ} {s : State} (h : Ok s0 s) : Ends (fun r : Host.Outcome State Fault Refusal => ∀ t, r = .next t → Keeps s0 t) (execContextFetchDone a0 s) := by
  unfold execContextFetchDone
  refine Ends.next ?_
  refine State_settle_keeps ?_
  refine State_ctxArrived_keeps ?_
  assumption

theorem execConverterStop_keeps {s0 : State} {a0 : ℕ} {a1 : ℕ} {s : State} (h : Ok s0 s) : Ends (fun r : Host.Outcome State Fault Refusal => ∀ t, r = .next t → Keeps s0 t) (execConverterStop a0 a1 s) := by
  unfold execConverterStop
  (extract_lets +onlyGivenNames x; subst x)
  (extract_lets +onlyGivenNames x; refine Ends.cut (x := x) (s := s0) ?_ (fun _ => ?_) <;> [subst x; clear_value x])
  refine Ends.upd ?_
  assumption
  refine Ends.ite ?_ ?_
  (extract_lets +onlyGivenNames x; refine Ends.cut (x := x) (s := s0) ?_ (fun _ => ?_) <;> [subst x; clear_value x])
  split
  refine State_closeDump_keeps ?_
  assumption
  assumption
  (extract_lets +onlyGivenNames x; refine Ends.cut (x := x) (s := s0) ?_ (fun _ => ?_) <;> [subst x; clear_value x])
  refine State_powerLoss_keeps ?_
  assumption
  refine Ends.next ?_
  refine Ends.upd ?_
  assumption
  refine Ends.next ?_
  assumption

theorem execCounterLogEntry_keeps {s0 : State} {s : State} (h : Ok s0 s) : Ends (fun r : Host.Outcome State Fault Refusal => ∀ t, r = .next t → Keeps s0 t) (execCounterLogEntry s) := by
  unfold execCounterLogEntry
  refine Ends.ite ?_ ?_
  refine Ends.next ?_
  refine State_logCounters_keeps ?_
  assumption
  refine Ends.next ?_
  assumption

theorem execCounterSnapshot_keeps {s0 : State} {a0 : ℕ} {s : State} (h : Ok s0 s) : Ends (fun r : Host.Outcome State Fault Refusal => ∀ t, r = .next t → Keeps s0 t) (execCounterSnapshot a0 s) := by
  unfold execCounterSnapshot
  refine Ends.ite ?_ ?_
  refine Ends.next ?_
  refine State_snapCounters_keeps ?_
  assumption
  refine Ends.next ?_
  assumption

theorem execCsaFloor_keeps {s0 : State} {a0 : ℕ} {a1 : ℕ} {a2 : List (ℕ × Bool)} {s : State} (h : Ok s0 s) : Ends (fun r : Host.Outcome State Fault Refusal => ∀ t, r = .next t → Keeps s0 t) (execCsaFloor a0 a1 a2 s) := by
  unfold execCsaFloor
  refine Ends.next ?_
  refine State_csaCmd_keeps ?_ ?_
  assumption
  intros
  (extract_lets +onlyGivenNames x; clear_value x)
  split
  refine State_csaEnd_keeps ?_
  refine Ends.ofL (by assumption) ?_
  refine State_csaTry_keeps ?_ ?_
  assumption
  intros
  refine State_csaFloor_keeps ?_
  assumption

theorem execCsaInvalidate_keeps {s0 : State} {a0 : ℕ} {a1 : ℕ} {a2 : ℕ} {s : State} (h : Ok s0 s) : Ends (fun r : Host.Outcome State Fault Refusal => ∀ t, r = .next t → Keeps s0 t) (execCsaInvalidate a0 a1 a2 s) := by
  unfold execCsaInvalidate
  refine Ends.next ?_
  refine State_csaCmd_keeps ?_ ?_
  assumption
  intros
  refine Ends.ite ?_ ?_
  refine State_csaEnd_keeps ?_
  assumption
  refine State_csaEnd_keeps ?_
  refine State_setCsa_keeps ?_
  assumption

theorem execCsaRead_keeps {s0 : State} {a0 : ℕ} {a1 : ℕ} {a2 : ℕ} {a3 : List (ℕ × Bool)} {s : State} (h : Ok s0 s) : Ends (fun r : Host.Outcome State Fault Refusal => ∀ t, r = .next t → Keeps s0 t) (execCsaRead a0 a1 a2 a3 s) := by
  unfold execCsaRead
  refine Ends.next ?_
  refine State_csaCmd_keeps ?_ ?_
  assumption
  intros
  refine Ends.ite ?_ ?_
  refine State_csaEnd_keeps ?_
  assumption
  (extract_lets +onlyGivenNames x; clear_value x)
  (extract_lets +onlyGivenNames x; refine Ends.cut (x := x) (s := s0) ?_ (fun _ => ?_) <;> [subst x; clear_value x])
  refine State_csaEcc_keeps ?_
  assumption
  refine Ends.ite ?_ ?_
  refine State_csaEnd_keeps ?_
  assumption
  refine State_csaEnd_keeps ?_
  assumption

theorem execCsaSearch_keeps {s0 : State} {a0 : ℕ} {a1 : ℕ} {a2 : List (ℕ × Bool)} {s : State} (h : Ok s0 s) : Ends (fun r : Host.Outcome State Fault Refusal => ∀ t, r = .next t → Keeps s0 t) (execCsaSearch a0 a1 a2 s) := by
  unfold execCsaSearch
  refine Ends.next ?_
  refine State_csaCmd_keeps ?_ ?_
  assumption
  intros
  split
  split
  refine State_csaEnd_keeps ?_
  refine Ends.ofL (by assumption) ?_
  refine State_csaTry_keeps ?_ ?_
  assumption
  intros
  refine State_csaFind_keeps ?_
  assumption

theorem execCsaWrite_keeps {s0 : State} {a0 : ℕ} {a1 : ℕ} {a2 : ℕ} {a3 : ℕ} {s : State} (h : Ok s0 s) : Ends (fun r : Host.Outcome State Fault Refusal => ∀ t, r = .next t → Keeps s0 t) (execCsaWrite a0 a1 a2 a3 s) := by
  unfold execCsaWrite
  refine Ends.next ?_
  refine State_csaCmd_keeps ?_ ?_
  assumption
  intros
  refine Ends.ite ?_ ?_
  refine State_csaEnd_keeps ?_
  assumption
  (extract_lets +onlyGivenNames x; clear_value x)
  refine State_csaEnd_keeps ?_
  refine State_setCsa_keeps ?_
  assumption

theorem execDatasetManagement_keeps {s0 : State} {a0 : Cap} {a1 : Bool} {a2 : List (ℕ × ℕ)} {s : State} (h : Ok s0 s) : Ends (fun r : Host.Outcome State Fault Refusal => ∀ t, r = .next t → Keeps s0 t) (execDatasetManagement a0 a1 a2 s) := by
  unfold execDatasetManagement
  (extract_lets +onlyGivenNames x; clear_value x)
  (extract_lets +onlyGivenNames x; clear_value x)
  refine Ends.ite ?_ ?_
  refine Ends.next ?_
  refine State_settle_keeps ?_
  refine State_ioCmd_keeps ?_
  assumption
  refine Ends.next ?_
  refine State_settle_keeps ?_
  refine State_ioCmd_keeps ?_
  assumption

theorem execDebugUnlock_keeps {s0 : State} {a0 : Via} {a1 : RoleEnv} {s : State} (h : Ok s0 s) : Ends (fun r : Host.Outcome State Fault Refusal => ∀ t, r = .next t → Keeps s0 t) (execDebugUnlock a0 a1 s) := by
  unfold execDebugUnlock
  refine Ends.next ?_
  refine State_roleArrive_keeps ?_
  assumption

theorem execDelayReqSend_keeps {s0 : State} {s : State} (h : Ok s0 s) : Ends (fun r : Host.Outcome State Fault Refusal => ∀ t, r = .next t → Keeps s0 t) (execDelayReqSend s) := by
  unfold execDelayReqSend
  refine Ends.ite ?_ ?_
  refine Ends.next ?_
  refine State_emit_keeps ?_
  refine Ends.upd ?_
  assumption
  refine Ends.next ?_
  assumption

theorem execDelete_keeps {s0 : State} {a0 : Cap} {a1 : Key} {s : State} (h : Ok s0 s) : Ends (fun r : Host.Outcome State Fault Refusal => ∀ t, r = .next t → Keeps s0 t) (execDelete a0 a1 s) := by
  unfold execDelete
  refine Ends.next ?_
  refine State_settle_keeps ?_
  refine State_ioCmd_keeps ?_
  assumption

theorem execDeleteMatch_keeps {s0 : State} {a0 : Bool} {a1 : ℕ} {a2 : ℕ} {a3 : ℕ} {s : State} (h : Ok s0 s) : Ends (fun r : Host.Outcome State Fault Refusal => ∀ t, r = .next t → Keeps s0 t) (execDeleteMatch a0 a1 a2 a3 s) := by
  unfold execDeleteMatch
  refine Ends.next ?_
  refine State_csaAsk_keeps ?_ ?_
  assumption
  intros
  refine State_csaDeleteMatch_keeps ?_
  assumption

theorem execDgeAbort_keeps {s0 : State} {a0 : ℕ} {a1 : ℕ} {s : State} (h : Ok s0 s) : Ends (fun r : Host.Outcome State Fault Refusal => ∀ t, r = .next t → Keeps s0 t) (execDgeAbort a0 a1 s) := by
  unfold execDgeAbort
  refine Ends.ite ?_ ?_
  refine Ends.next ?_
  assumption
  refine Ends.next ?_
  refine State_dgeEnd_keeps ?_
  refine State_dropDge_keeps ?_
  assumption

theorem execDgeArm_keeps {s0 : State} {a0 : ℕ} {a1 : ℕ} {a2 : ℕ} {a3 : ℕ} {s : State} (h : Ok s0 s) : Ends (fun r : Host.Outcome State Fault Refusal => ∀ t, r = .next t → Keeps s0 t) (execDgeArm a0 a1 a2 a3 s) := by
  unfold execDgeArm
  refine Ends.next ?_
  refine State_withDge_keeps ?_ ?_
  assumption
  intros
  (extract_lets +onlyGivenNames x; clear_value x)
  (extract_lets +onlyGivenNames x; clear_value x)
  refine Ends.ite ?_ ?_
  refine State_dgeEnd_keeps ?_
  assumption
  refine Ends.ite ?_ ?_
  refine State_dgeEnd_keeps ?_
  assumption
  refine State_dgeEnd_keeps ?_
  refine State_setDge_keeps ?_
  assumption

theorem execDgeData_keeps {s0 : State} {a0 : ℕ} {a1 : ℕ} {a2 : Word} {s : State} (h : Ok s0 s) : Ends (fun r : Host.Outcome State Fault Refusal => ∀ t, r = .next t → Keeps s0 t) (execDgeData a0 a1 a2 s) := by
  unfold execDgeData
  refine Ends.next ?_
  refine State_withDge_keeps ?_ ?_
  assumption
  intros
  refine Ends.ite ?_ ?_
  refine State_dgeEnd_keeps ?_
  assumption
  refine State_showDge_keeps ?_
  refine State_setDge_keeps ?_
  assumption

theorem execDgeDisarm_keeps {s0 : State} {a0 : ℕ} {a1 : ℕ} {s : State} (h : Ok s0 s) : Ends (fun r : Host.Outcome State Fault Refusal => ∀ t, r = .next t → Keeps s0 t) (execDgeDisarm a0 a1 s) := by
  unfold execDgeDisarm
  refine Ends.next ?_
  refine State_withDge_keeps ?_ ?_
  assumption
  intros
  refine State_dgeEnd_keeps ?_
  refine State_setDge_keeps ?_
  assumption

theorem execDgeFeed_keeps {s0 : State} {a0 : ℕ} {a1 : ℕ} {s : State} (h : Ok s0 s) : Ends (fun r : Host.Outcome State Fault Refusal => ∀ t, r = .next t → Keeps s0 t) (execDgeFeed a0 a1 s) := by
  unfold execDgeFeed
  refine Ends.next ?_
  refine State_withDge_keeps ?_ ?_
  assumption
  intros
  refine Ends.ite ?_ ?_
  refine State_dgeEnd_keeps ?_
  assumption
  refine State_showDge_keeps ?_
  refine State_setDge_keeps ?_
  assumption

theorem execDgeFeedDone_keeps {s0 : State} {a0 : ℕ} {a1 : ℕ} {s : State} (h : Ok s0 s) : Ends (fun r : Host.Outcome State Fault Refusal => ∀ t, r = .next t → Keeps s0 t) (execDgeFeedDone a0 a1 s) := by
  unfold execDgeFeedDone
  split
  refine Ends.next ?_
  assumption
  split
  refine Ends.next ?_
  assumption
  split
  refine Ends.next ?_
  refine State_dgeEnd_keeps ?_
  refine State_setDge_keeps ?_
  assumption
  (extract_lets +onlyGivenNames x; clear_value x)
  refine Ends.next ?_
  refine State_dgeFreeze_keeps ?_
  refine State_dgeEnd_keeps ?_
  refine State_setDge_keeps ?_
  assumption

theorem execDgeFinish_keeps {s0 : State} {a0 : ℕ} {a1 : ℕ} {s : State} (h : Ok s0 s) : Ends (fun r : Host.Outcome State Fault Refusal => ∀ t, r = .next t → Keeps s0 t) (execDgeFinish a0 a1 s) := by
  unfold execDgeFinish
  refine Ends.next ?_
  refine State_withDge_keeps ?_ ?_
  assumption
  intros
  refine Ends.ite ?_ ?_
  refine State_dgeEnd_keeps ?_
  assumption
  refine Ends.ite ?_ ?_
  refine State_dgeEnd_keeps ?_
  refine State_setDge_keeps ?_
  assumption
  refine State_dgeEnd_keeps ?_
  refine State_setDge_keeps ?_
  assumption

theorem execDgeLast_keeps {s0 : State} {a0 : ℕ} {a1 : ℕ} {a2 : Word} {s : State} (h : Ok s0 s) : Ends (fun r : Host.Outcome State Fault Refusal => ∀ t, r = .next t → Keeps s0 t) (execDgeLast a0 a1 a2 s) := by
  unfold execDgeLast
  refine Ends.next ?_
  refine State_withDge_keeps ?_ ?_
  assumption
  intros
  refine Ends.ite ?_ ?_
  refine State_dgeEnd_keeps ?_
  assumption
  (extract_lets +onlyGivenNames x; clear_value x)
  refine State_dgeEnd_keeps ?_
  refine State_setDge_keeps ?_
  assumption

theorem execDgeRestore_keeps {s0 : State} {a0 : ℕ} {a1 : ℕ} {a2 : Bool} {s : State} (h : Ok s0 s) : Ends (fun r : Host.Outcome State Fault Refusal => ∀ t, r = .next t → Keeps s0 t) (execDgeRestore a0 a1 a2 s) := by
  unfold execDgeRestore
  refine Ends.ite ?_ ?_
  refine Ends.next ?_
  assumption
  refine Ends.ite ?_ ?_
  refine Ends.next ?_
  refine State_dgeEnd_keeps ?_
  assumption
  (extract_lets +onlyGivenNames x; clear_value x)
  (extract_lets +onlyGivenNames x; clear_value x)
  split
  refine Ends.next ?_
  refine State_dgeFreeze_keeps ?_
  refine State_dgeEnd_keeps ?_
  assumption
  split
  refine Ends.next ?_
  refine State_dgeEnd_keeps ?_
  assumption
  refine Ends.ite ?_ ?_
  refine Ends.next ?_
  refine State_dgeEnd_keeps ?_
  refine State_setDge_keeps ?_
  assumption
  refine Ends.next ?_
  refine State_dgeEnd_keeps ?_
  assumption

theorem execDgeResult_keeps {s0 : State} {a0 : ℕ} {a1 : ℕ} {s : State} (h : Ok s0 s) : Ends (fun r : Host.Outcome State Fault Refusal => ∀ t, r = .next t → Keeps s0 t) (execDgeResult a0 a1 s) := by
  unfold execDgeResult
  split
  refine Ends.next ?_
  assumption
  refine Ends.ite ?_ ?_
  refine Ends.next ?_
  assumption
  (extract_lets +onlyGivenNames x; clear_value x)
  (extract_lets +onlyGivenNames x; clear_value x)
  (extract_lets +onlyGivenNames x; clear_value x)
  (extract_lets +onlyGivenNames x; clear_value x)
  (extract_lets +onlyGivenNames x; clear_value x)
  (extract_lets +onlyGivenNames x; clear_value x)
  (extract_lets +onlyGivenNames x; refine Ends.cut (x := x) (s := s0) ?_ (fun _ => ?_) <;> [subst x; clear_value x])
  refine State_putResult_keeps ?_
  assumption
  (extract_lets +onlyGivenNames x; refine Ends.cut (x := x) (s := s0) ?_ (fun _ => ?_) <;> [subst x; clear_value x])
  refine State_setFlag_keeps ?_
  assumption
  refine Ends.next ?_
  refine State_showDge_keeps ?_
  refine State_dropDge_keeps ?_
  assumption

theorem execDgeSaveClear_keeps {s0 : State} {a0 : ℕ} {a1 : ℕ} {s : State} (h : Ok s0 s) : Ends (fun r : Host.Outcome State Fault Refusal => ∀ t, r = .next t → Keeps s0 t) (execDgeSaveClear a0 a1 s) := by
  unfold execDgeSaveClear
  refine Ends.next ?_
  refine State_dgeSave_keeps ?_
  assumption

theorem execDgeSaveWrapped_keeps {s0 : State} {a0 : ℕ} {a1 : ℕ} {s : State} (h : Ok s0 s) : Ends (fun r : Host.Outcome State Fault Refusal => ∀ t, r = .next t → Keeps s0 t) (execDgeSaveWrapped a0 a1 s) := by
  unfold execDgeSaveWrapped
  refine Ends.next ?_
  refine State_dgeSave_keeps ?_
  assumption

theorem execDgeSlotClear_keeps {s0 : State} {a0 : ℕ} {a1 : ℕ} {s : State} (h : Ok s0 s) : Ends (fun r : Host.Outcome State Fault Refusal => ∀ t, r = .next t → Keeps s0 t) (execDgeSlotClear a0 a1 s) := by
  unfold execDgeSlotClear
  refine Ends.ite ?_ ?_
  refine Ends.next ?_
  assumption
  refine Ends.next ?_
  refine State_slotEnd_keeps ?_
  refine Ends.upd ?_
  assumption

theorem execDgeSlotLoadClear_keeps {s0 : State} {a0 : ℕ} {a1 : ℕ} {a2 : ℕ} {a3 : ℕ} {s : State} (h : Ok s0 s) : Ends (fun r : Host.Outcome State Fault Refusal => ∀ t, r = .next t → Keeps s0 t) (execDgeSlotLoadClear a0 a1 a2 a3 s) := by
  unfold execDgeSlotLoadClear
  refine Ends.ite ?_ ?_
  refine Ends.next ?_
  assumption
  refine Ends.ite ?_ ?_
  refine Ends.next ?_
  refine State_slotEnd_keeps ?_
  assumption
  refine Ends.ite ?_ ?_
  refine Ends.next ?_
  refine State_slotEnd_keeps ?_
  assumption
  (extract_lets +onlyGivenNames x; clear_value x)
  refine Ends.next ?_
  refine State_loadSlot_keeps ?_
  assumption

theorem execDgeSlotLoadDerived_keeps {s0 : State} {a0 : ℕ} {a1 : ℕ} {a2 : ℕ} {a3 : ℕ} {s : State} (h : Ok s0 s) : Ends (fun r : Host.Outcome State Fault Refusal => ∀ t, r = .next t → Keeps s0 t) (execDgeSlotLoadDerived a0 a1 a2 a3 s) := by
  unfold execDgeSlotLoadDerived
  refine Ends.ite ?_ ?_
  refine Ends.next ?_
  assumption
  refine Ends.ite ?_ ?_
  refine Ends.next ?_
  refine State_slotEnd_keeps ?_
  assumption
  refine Ends.ite ?_ ?_
  refine Ends.next ?_
  refine State_slotEnd_keeps ?_
  assumption
  refine Ends.next ?_
  refine State_loadSlot_keeps ?_
  assumption

theorem execDgeSlotLoadWrapped_keeps {s0 : State} {a0 : ℕ} {a1 : ℕ} {a2 : ℕ} {a3 : ℕ} {s : State} (h : Ok s0 s) : Ends (fun r : Host.Outcome State Fault Refusal => ∀ t, r = .next t → Keeps s0 t) (execDgeSlotLoadWrapped a0 a1 a2 a3 s) := by
  unfold execDgeSlotLoadWrapped
  refine Ends.ite ?_ ?_
  refine Ends.next ?_
  assumption
  refine Ends.ite ?_ ?_
  refine Ends.next ?_
  refine State_slotEnd_keeps ?_
  assumption
  refine Ends.ite ?_ ?_
  refine Ends.next ?_
  refine State_slotEnd_keeps ?_
  assumption
  (extract_lets +onlyGivenNames x; clear_value x)
  (extract_lets +onlyGivenNames x; clear_value x)
  split
  refine Ends.next ?_
  refine State_dgeFreeze_keeps ?_
  refine State_slotEnd_keeps ?_
  assumption
  split
  refine Ends.next ?_
  refine State_loadSlot_keeps ?_
  assumption
  refine Ends.next ?_
  refine State_slotEnd_keeps ?_
  assumption

theorem execDgeStart_keeps {s0 : State} {a0 : ℕ} {a1 : ℕ} {s : State} (h : Ok s0 s) : Ends (fun r : Host.Outcome State Fault Refusal => ∀ t, r = .next t → Keeps s0 t) (execDgeStart a0 a1 s) := by
  unfold execDgeStart
  refine Ends.ite ?_ ?_
  refine Ends.next ?_
  assumption
  (extract_lets +onlyGivenNames x; clear_value x)
  (extract_lets +onlyGivenNames x; clear_value x)
  (extract_lets +onlyGivenNames x; clear_value x)
  (extract_lets +onlyGivenNames x; clear_value x)
  (extract_lets +onlyGivenNames x; clear_value x)
  (extract_lets +onlyGivenNames x; clear_value x)
  (extract_lets +onlyGivenNames x; clear_value x)
  (extract_lets +onlyGivenNames x; clear_value x)
  (extract_lets +onlyGivenNames x; clear_value x)
  refine Ends.ite ?_ ?_
  refine Ends.next ?_
  refine State_dgeEnd_keeps ?_
  assumption
  refine Ends.ite ?_ ?_
  refine Ends.next ?_
  refine State_dgeEnd_keeps ?_
  assumption
  refine Ends.ite ?_ ?_
  refine Ends.next ?_
  refine State_dgeEnd_keeps ?_
  assumption
  (extract_lets +onlyGivenNames x; clear_value x)
  (extract_lets +onlyGivenNames x; clear_value x)
  (extract_lets +onlyGivenNames x; refine Ends.cut (x := x) (s := s0) ?_ (fun _ => ?_) <;> [subst x; clear_value x])
  refine State_setFlag_keeps ?_
  assumption
  refine Ends.next ?_
  refine State_dgeEnd_keeps ?_
  refine State_setDge_keeps ?_
  assumption

theorem execDgeTapTransfer_keeps {s0 : State} {a0 : ℕ} {a1 : ℕ} {a2 : ℕ} {a3 : Bytes} {a4 : Bool} {s : State} (h : Ok s0 s) : Ends (fun r : Host.Outcome State Fault Refusal => ∀ t, r = .next t → Keeps s0 t) (execDgeTapTransfer a0 a1 a2 a3 a4 s) := by
  unfold execDgeTapTransfer
  (extract_lets +onlyGivenNames x; clear_value x)
  split
  refine Ends.next ?_
  assumption
  split
  refine Ends.next ?_
  assumption
  (extract_lets +onlyGivenNames x; clear_value x)
  refine Ends.next ?_
  refine State_showDge_keeps ?_
  refine State_setDge_keeps ?_
  assumption

theorem execDiodeSensorSample_keeps {s0 : State} {a0 : List (ℕ × ℤ)} {s : State} (h : Ok s0 s) : Ends (fun r : Host.Outcome State Fault Refusal => ∀ t, r = .next t → Keeps s0 t) (execDiodeSensorSample a0 s) := by
  unfold execDiodeSensorSample
  (extract_lets +onlyGivenNames x; refine Ends.cut (x := x) (s := s0) ?_ (fun _ => ?_) <;> [subst x; clear_value x])
  refine Ends.fold ?_ (fun _ _ _ => ?_)
  refine State_stackTemps_keeps ?_
  assumption
  split
  refine State_readDiode_keeps ?_
  assumption
  assumption
  (extract_lets +onlyGivenNames x; clear_value x)
  (extract_lets +onlyGivenNames x; subst x)
  (extract_lets +onlyGivenNames x; refine Ends.cut (x := x) (s := s0) ?_ (fun _ => ?_) <;> [subst x; clear_value x])
  refine Ends.upd ?_
  assumption
  refine Ends.ite ?_ ?_
  refine Ends.next ?_
  refine Ends.upd ?_
  assumption
  refine Ends.next ?_
  assumption

theorem execDisconnect_keeps {s0 : State} {a0 : Cap} {s : State} (h : Ok s0 s) : Ends (fun r : Host.Outcome State Fault Refusal => ∀ t, r = .next t → Keeps s0 t) (execDisconnect a0 s) := by
  unfold execDisconnect
  refine Ends.next ?_
  refine State_settle_keeps ?_
  refine State_adminCmd_keeps ?_
  assumption

theorem execDmaCopy_keeps {s0 : State} {a0 : DmaDesc} {s : State} (h : Ok s0 s) : Ends (fun r : Host.Outcome State Fault Refusal => ∀ t, r = .next t → Keeps s0 t) (execDmaCopy a0 s) := by
  unfold execDmaCopy
  refine Ends.next ?_
  refine State_takeDma_keeps ?_
  assumption

theorem execDmaDone_keeps {s0 : State} {a0 : ℕ} {a1 : ℕ} {s : State} (h : Ok s0 s) : Ends (fun r : Host.Outcome State Fault Refusal => ∀ t, r = .next t → Keeps s0 t) (execDmaDone a0 a1 s) := by
  unfold execDmaDone
  split
  refine Ends.ite ?_ ?_
  refine Ends.next ?_
  assumption
  refine Ends.next ?_
  refine State_post_keeps ?_
  refine State_setDma_keeps ?_
  assumption
  refine Ends.next ?_
  assumption

theorem execDmaFill_keeps {s0 : State} {a0 : DmaDesc} {s : State} (h : Ok s0 s) : Ends (fun r : Host.Outcome State Fault Refusal => ∀ t, r = .next t → Keeps s0 t) (execDmaFill a0 s) := by
  unfold execDmaFill
  refine Ends.next ?_
  refine State_takeDma_keeps ?_
  assumption

theorem execDmaReadPack_keeps {s0 : State} {a0 : DmaDesc} {a1 : ℕ} {a2 : Option (ℕ × Bytes)} {s : State} (h : Ok s0 s) : Ends (fun r : Host.Outcome State Fault Refusal => ∀ t, r = .next t → Keeps s0 t) (execDmaReadPack a0 a1 a2 s) := by
  unfold execDmaReadPack
  split
  refine Ends.next ?_
  refine State_takeDma_keeps ?_
  assumption
  (extract_lets +onlyGivenNames x; clear_value x)
  refine Ends.next ?_
  refine State_takeDma_keeps ?_
  assumption

theorem execDmaReadPage_keeps {s0 : State} {a0 : DmaDesc} {a1 : Option Bytes} {s : State} (h : Ok s0 s) : Ends (fun r : Host.Outcome State Fault Refusal => ∀ t, r = .next t → Keeps s0 t) (execDmaReadPage a0 a1 s) := by
  unfold execDmaReadPage
  refine Ends.next ?_
  refine State_takeDma_keeps ?_
  assumption

theorem execDomainCreate_keeps {s0 : State} {a0 : Via} {a1 : RoleEnv} {a2 : ℕ} {s : State} (h : Ok s0 s) : Ends (fun r : Host.Outcome State Fault Refusal => ∀ t, r = .next t → Keeps s0 t) (execDomainCreate a0 a1 a2 s) := by
  unfold execDomainCreate
  refine Ends.next ?_
  refine State_roleArrive_keeps ?_
  assumption

theorem execDomainExport_keeps {s0 : State} {a0 : Via} {a1 : RoleEnv} {a2 : ℕ} {a3 : Bytes} {a4 : Bytes} {s : State} (h : Ok s0 s) : Ends (fun r : Host.Outcome State Fault Refusal => ∀ t, r = .next t → Keeps s0 t) (execDomainExport a0 a1 a2 a3 a4 s) := by
  unfold execDomainExport
  refine Ends.next ?_
  refine State_roleArrive_keeps ?_
  assumption

theorem execDomainImport_keeps {s0 : State} {a0 : Via} {a1 : RoleEnv} {a2 : ℕ} {a3 : Bytes} {s : State} (h : Ok s0 s) : Ends (fun r : Host.Outcome State Fault Refusal => ∀ t, r = .next t → Keeps s0 t) (execDomainImport a0 a1 a2 a3 s) := by
  unfold execDomainImport
  refine Ends.next ?_
  refine State_roleArrive_keeps ?_
  assumption

theorem execDumpEnd_keeps {s0 : State} {a0 : ℕ} {a1 : Bool} {a2 : Bool} {a3 : List ℕ} {a4 : List ℕ} {s : State} (h : Ok s0 s) : Ends (fun r : Host.Outcome State Fault Refusal => ∀ t, r = .next t → Keeps s0 t) (execDumpEnd a0 a1 a2 a3 a4 s) := by
  unfold execDumpEnd
  split
  refine Ends.next ?_
  assumption
  (extract_lets +onlyGivenNames x; refine Ends.cut (x := x) (s := s0) ?_ (fun _ => ?_) <;> [subst x; clear_value x])
  refine State_closeDump_keeps ?_
  assumption
  (extract_lets +onlyGivenNames x; subst x)
  (extract_lets +onlyGivenNames x; refine Ends.cut (x := x) (s := s0) ?_ (fun _ => ?_) <;> [subst x; clear_value x])
  refine Ends.upd ?_
  assumption
  split
  refine Ends.next ?_
  refine State_powerHold_keeps ?_
  assumption
  refine Ends.next ?_
  refine State_headReset_keeps ?_
  assumption
  refine Ends.next ?_
  refine State_headReset_keeps ?_
  assumption
  refine Ends.next ?_
  refine State_enter_keeps ?_
  assumption
  refine Ends.next ?_
  refine State_finishTrip_keeps ?_
  refine State_enter_keeps ?_
  refine State_powerDownDies_keeps ?_
  assumption

theorem execDumpErase_keeps {s0 : State} {s : State} (h : Ok s0 s) : Ends (fun r : Host.Outcome State Fault Refusal => ∀ t, r = .next t → Keeps s0 t) (execDumpErase s) := by
  unfold execDumpErase
  (extract_lets +onlyGivenNames x; clear_value x)
  refine Ends.ite ?_ ?_
  refine Ends.next ?_
  assumption
  (extract_lets +onlyGivenNames x; clear_value x)
  (extract_lets +onlyGivenNames x; subst x)
  (extract_lets +onlyGivenNames x; subst x)
  (extract_lets +onlyGivenNames x; subst x)
  (extract_lets +onlyGivenNames x; refine Ends.cut (x := x) (s := s0) ?_ (fun _ => ?_) <;> [subst x; clear_value x])
  refine Ends.upd ?_
  assumption
  refine Ends.next ?_
  refine State_settle_keeps ?_
  refine Ends.fold ?_ (fun _ _ _ => ?_)
  assumption
  refine State_eraseBlock_keeps ?_
  assumption

theorem execEnrolModule_keeps {s0 : State} {a0 : Via} {a1 : RoleEnv} {a2 : Bytes} {a3 : ℕ} {s : State} (h : Ok s0 s) : Ends (fun r : Host.Outcome State Fault Refusal => ∀ t, r = .next t → Keeps s0 t) (execEnrolModule a0 a1 a2 a3 s) := by
  unfold execEnrolModule
  refine Ends.next ?_
  refine State_roleArrive_keeps ?_
  assumption

theorem execEpochReinit_keeps {s0 : State} {a0 : Via} {a1 : RoleEnv} {s : State} (h : Ok s0 s) : Ends (fun r : Host.Outcome State Fault Refusal => ∀ t, r = .next t → Keeps s0 t) (execEpochReinit a0 a1 s) := by
  unfold execEpochReinit
  refine Ends.next ?_
  refine State_roleArrive_keeps ?_
  assumption

theorem execEventMessage_keeps {s0 : State} {a0 : ℕ} {s : State} (h : Ok s0 s) : Ends (fun r : Host.Outcome State Fault Refusal => ∀ t, r = .next t → Keeps s0 t) (execEventMessage a0 s) := by
  unfold execEventMessage
  split
  refine Ends.next ?_
  refine State_record_keeps ?_
  refine State_takeMb_keeps (by assumption) ?_
  assumption
  refine Ends.next ?_
  assumption

theorem execEvrFreeze_keeps {s0 : State} {a0 : MgmtHdr} {s : State} (h : Ok s0 s) : Ends (fun r : Host.Outcome State Fault Refusal => ∀ t, r = .next t → Keeps s0 t) (execEvrFreeze a0 s) := by
  unfold execEvrFreeze
  refine Ends.next ?_
  refine State_mgmt_keeps ?_ ?_
  assumption
  intros
  refine Ends.snd ?_
  refine State_freezeEvr_keeps ?_
  assumption

theorem execEvrFreezeTimeout_keeps {s0 : State} {s : State} (h : Ok s0 s) : Ends (fun r : Host.Outcome State Fault Refusal => ∀ t, r = .next t → Keeps s0 t) (execEvrFreezeTimeout s) := by
  unfold execEvrFreezeTimeout
  split
  refine Ends.next ?_
  assumption
  refine Ends.ite ?_ ?_
  refine Ends.next ?_
  assumption
  refine Ends.next ?_
  refine State_thawEvr_keeps ?_
  assumption

theorem execEvrPost_keeps {s0 : State} {a0 : Word} {s : State} (h : Ok s0 s) : Ends (fun r : Host.Outcome State Fault Refusal => ∀ t, r = .next t → Keeps s0 t) (execEvrPost a0 s) := by
  unfold execEvrPost
  (extract_lets +onlyGivenNames x; clear_value x)
  (extract_lets +onlyGivenNames x; clear_value x)
  refine Ends.next ?_
  refine State_record_keeps ?_
  assumption

theorem execEvrRead_keeps {s0 : State} {a0 : MgmtHdr} {a1 : ℕ} {s : State} (h : Ok s0 s) : Ends (fun r : Host.Outcome State Fault Refusal => ∀ t, r = .next t → Keeps s0 t) (execEvrRead a0 a1 s) := by
  unfold execEvrRead
  refine Ends.next ?_
  refine State_mgmt_keeps ?_ ?_
  assumption
  intros
  refine Ends.ite ?_ ?_
  refine Ends.snd ?_
  assumption
  refine Ends.snd ?_
  assumption

theorem execEvrThaw_keeps {s0 : State} {a0 : MgmtHdr} {s : State} (h : Ok s0 s) : Ends (fun r : Host.Outcome State Fault Refusal => ∀ t, r = .next t → Keeps s0 t) (execEvrThaw a0 s) := by
  unfold execEvrThaw
  refine Ends.next ?_
  refine State_mgmt_keeps ?_ ?_
  assumption
  intros
  refine Ends.snd ?_
  refine State_thawEvr_keeps ?_
  assumption

theorem execExist_keeps {s0 : State} {a0 : Cap} {a1 : Key} {s : State} (h : Ok s0 s) : Ends (fun r : Host.Outcome State Fault Refusal => ∀ t, r = .next t → Keeps s0 t) (execExist a0 a1 s) := by
  unfold execExist
  refine Ends.next ?_
  refine State_settle_keeps ?_
  refine State_ioCmd_keeps ?_
  assumption

theorem execFencedReply_keeps {s0 : State} {a0 : ℕ} {s : State} (h : Ok s0 s) : Ends (fun r : Host.Outcome State Fault Refusal => ∀ t, r = .next t → Keeps s0 t) (execFencedReply a0 s) := by
  unfold execFencedReply
  refine Ends.next ?_
  refine State_settle_keeps ?_
  refine State_fencedReply_keeps ?_
  assumption

theorem execFingerprintDone_keeps {s0 : State} {a0 : ℕ} {a1 : ℕ} {s : State} (h : Ok s0 s) : Ends (fun r : Host.Outcome State Fault Refusal => ∀ t, r = .next t → Keeps s0 t) (execFingerprintDone a0 a1 s) := by
  unfold execFingerprintDone
  (extract_lets +onlyGivenNames x; refine Ends.cut (x := x) (s := s0) ?_ (fun _ => ?_) <;> [subst x; clear_value x])
  refine State_startLanes_keeps ?_
  assumption
  split
  split
  split
  refine Ends.next ?_
  refine State_settle_keeps ?_
  refine State_leaveLane_keeps ?_
  assumption
  (extract_lets +onlyGivenNames x; clear_value x)
  refine Ends.next ?_
  refine State_settle_keeps ?_
  refine State_hashed_keeps ?_
  refine State_setJob_keeps ?_
  refine State_leaveLane_keeps ?_
  refine State_useFp_keeps (by assumption) ?_
  assumption
  refine Ends.next ?_
  assumption
  refine Ends.next ?_
  assumption

theorem execFlush_keeps {s0 : State} {a0 : Cap} {s : State} (h : Ok s0 s) : Ends (fun r : Host.Outcome State Fault Refusal => ∀ t, r = .next t → Keeps s0 t) (execFlush a0 s) := by
  unfold execFlush
  refine Ends.next ?_
  refine State_settle_keeps ?_
  refine State_ioCmd_keeps ?_
  assumption

theorem execFormatComplete_keeps {s0 : State} {a0 : ℕ} {s : State} (h : Ok s0 s) : Ends (fun r : Host.Outcome State Fault Refusal => ∀ t, r = .next t → Keeps s0 t) (execFormatComplete a0 s) := by
  unfold execFormatComplete
  split
  refine Ends.next ?_
  assumption
  split
  refine Ends.next ?_
  assumption
  refine Ends.ite ?_ ?_
  refine Ends.next ?_
  assumption
  (extract_lets +onlyGivenNames x; clear_value x)
  refine Ends.next ?_
  refine State_settle_keeps ?_
  refine State_finishTag_keeps ?_
  refine State_log_keeps ?_
  refine State_setNs_keeps ?_
  assumption

theorem execFormatNvm_keeps {s0 : State} {a0 : Cap} {a1 : ℕ} {a2 : ℕ} {s : State} (h : Ok s0 s) : Ends (fun r : Host.Outcome State Fault Refusal => ∀ t, r = .next t → Keeps s0 t) (execFormatNvm a0 a1 a2 s) := by
  unfold execFormatNvm
  refine Ends.next ?_
  refine State_settle_keeps ?_
  refine State_adminCmd_keeps ?_
  assumption

theorem execFpSlotFlush_keeps {s0 : State} {a0 : ℕ} {a1 : Word} {s : State} (h : Ok s0 s) : Ends (fun r : Host.Outcome State Fault Refusal => ∀ t, r = .next t → Keeps s0 t) (execFpSlotFlush a0 a1 s) := by
  unfold execFpSlotFlush
  refine Ends.next ?_
  refine State_settle_keeps ?_
  refine State_flushFpLater_keeps ?_
  assumption

theorem execFpSlotLoad_keeps {s0 : State} {a0 : ℕ} {a1 : ℕ} {a2 : ℕ} {s : State} (h : Ok s0 s) : Ends (fun r : Host.Outcome State Fault Refusal => ∀ t, r = .next t → Keeps s0 t) (execFpSlotLoad a0 a1 a2 s) := by
  unfold execFpSlotLoad
  refine Ends.ite ?_ ?_
  refine Ends.next ?_
  assumption
  split
  refine Ends.next ?_
  assumption
  (extract_lets +onlyGivenNames x; refine Ends.cut (x := x) (s := s0) ?_ (fun _ => ?_) <;> [subst x; clear_value x])
  refine State_addFld_keeps ?_
  assumption
  split
  refine Ends.next ?_
  refine State_settle_keeps ?_
  refine State_raiseFault_keeps ?_
  assumption
  refine Ends.next ?_
  refine State_settle_keeps ?_
  refine State_putFpSlot_keeps ?_
  assumption

theorem execFplist_keeps {s0 : State} {a0 : ℕ} {a1 : ℕ} {s : State} (h : Ok s0 s) : Ends (fun r : Host.Outcome State Fault Refusal => ∀ t, r = .next t → Keeps s0 t) (execFplist a0 a1 s) := by
  unfold execFplist
  refine Ends.next ?_
  refine State_settle_keeps ?_
  refine State_withMsg_keeps ?_ ?_
  assumption
  intros
  (extract_lets +onlyGivenNames x; clear_value x)
  (extract_lets +onlyGivenNames x; clear_value x)
  refine Ends.ite ?_ ?_
  refine State_abandonBatch_keeps ?_
  assumption
  (extract_lets +onlyGivenNames x; clear_value x)
  (extract_lets +onlyGivenNames x; clear_value x)
  (extract_lets +onlyGivenNames x; clear_value x)
  (extract_lets +onlyGivenNames x; clear_value x)
  refine State_sendNeed_keeps ?_
  refine State_setSess_keeps ?_
  assumption

theorem execFrameReceive_keeps {s0 : State} {a0 : ℕ} {a1 : Bool} {a2 : Bytes} {s : State} (h : Ok s0 s) : Ends (fun r : Host.Outcome State Fault Refusal => ∀ t, r = .next t → Keeps s0 t) (execFrameReceive a0 a1 a2 s) := by
  unfold execFrameReceive
  refine Ends.ite ?_ ?_
  refine Ends.next ?_
  refine State_receiveFrame_keeps ?_
  assumption
  refine Ends.next ?_
  assumption

theorem execFrontPortLinkFault_keeps {s0 : State} {a0 : ℕ} {a1 : Bool} {s : State} (h : Ok s0 s) : Ends (fun r : Host.Outcome State Fault Refusal => ∀ t, r = .next t → Keeps s0 t) (execFrontPortLinkFault a0 a1 s) := by
  unfold execFrontPortLinkFault
  (extract_lets +onlyGivenNames x; clear_value x)
  refine Ends.ite ?_ ?_
  refine Ends.next ?_
  assumption
  split
  refine Ends.ite ?_ ?_
  refine Ends.next ?_
  refine State_settle_keeps ?_
  refine State_fenceForFault_keeps ?_
  assumption
  refine Ends.next ?_
  assumption
  refine Ends.ite ?_ ?_
  refine Ends.next ?_
  refine State_settle_keeps ?_
  refine State_fenceForFault_keeps ?_
  assumption
  refine Ends.next ?_
  assumption
  refine Ends.next ?_
  refine State_event_keeps ?_
  assumption
  refine Ends.next ?_
  refine State_event_keeps ?_
  assumption
  refine Ends.next ?_
  assumption

theorem execGcSegment_keeps {s0 : State} {a0 : ℕ} {a1 : ℕ} {s : State} (h : Ok s0 s) : Ends (fun r : Host.Outcome State Fault Refusal => ∀ t, r = .next t → Keeps s0 t) (execGcSegment a0 a1 s) := by
  unfold execGcSegment
  refine Ends.ite ?_ ?_
  refine Ends.next ?_
  refine State_settle_keeps ?_
  refine State_collect_keeps ?_
  assumption
  refine Ends.next ?_
  assumption

theorem execGcmDecrypt_keeps {s0 : State} {a0 : ℕ} {s : State} (h : Ok s0 s) : Ends (fun r : Host.Outcome State Fault Refusal => ∀ t, r = .next t → Keeps s0 t) (execGcmDecrypt a0 s) := by
  unfold execGcmDecrypt
  refine Ends.next ?_
  refine State_gcmDecrypt_keeps ?_
  assumption

theorem execGcmEncrypt_keeps {s0 : State} {a0 : ℕ} {s : State} (h : Ok s0 s) : Ends (fun r : Host.Outcome State Fault Refusal => ∀ t, r = .next t → Keeps s0 t) (execGcmEncrypt a0 s) := by
  unfold execGcmEncrypt
  refine Ends.ite ?_ ?_
  refine Ends.next ?_
  assumption
  refine Ends.next ?_
  refine State_gcmEncrypt_keeps ?_
  assumption

theorem execGcmKeyLoad_keeps {s0 : State} {a0 : ℕ} {a1 : ℕ} {a2 : ℕ} {s : State} (h : Ok s0 s) : Ends (fun r : Host.Outcome State Fault Refusal => ∀ t, r = .next t → Keeps s0 t) (execGcmKeyLoad a0 a1 a2 s) := by
  unfold execGcmKeyLoad
  (extract_lets +onlyGivenNames x; clear_value x)
  refine Ends.ite ?_ ?_
  refine Ends.next ?_
  assumption
  (extract_lets +onlyGivenNames x; clear_value x)
  refine Ends.ite ?_ ?_
  refine Ends.next ?_
  refine State_addFld_keeps ?_
  assumption
  (extract_lets +onlyGivenNames x; clear_value x)
  (extract_lets +onlyGivenNames x; clear_value x)
  (extract_lets +onlyGivenNames x; subst x)
  (extract_lets +onlyGivenNames x; refine Ends.cut (x := x) (s := s0) ?_ (fun _ => ?_) <;> [subst x; clear_value x])
  refine Ends.upd ?_
  assumption
  refine Ends.next ?_
  refine State_setFld_keeps ?_
  assumption

theorem execGetCalrow_keeps {s0 : State} {a0 : Via} {a1 : RoleEnv} {s : State} (h : Ok s0 s) : Ends (fun r : Host.Outcome State Fault Refusal => ∀ t, r = .next t → Keeps s0 t) (execGetCalrow a0 a1 s) := by
  unfold execGetCalrow
  refine Ends.next ?_
  refine State_roleArrive_keeps ?_
  assumption

theorem execGetChallenge_keeps {s0 : State} {a0 : Via} {a1 : RoleEnv} {s : State} (h : Ok s0 s) : Ends (fun r : Host.Outcome State Fault Refusal => ∀ t, r = .next t → Keeps s0 t) (execGetChallenge a0 a1 s) := by
  unfold execGetChallenge
  refine Ends.next ?_
  refine State_roleArrive_keeps ?_
  assumption

theorem execGetCounters_keeps {s0 : State} {a0 : MgmtHdr} {s : State} (h : Ok s0 s) : Ends (fun r : Host.Outcome State Fault Refusal => ∀ t, r = .next t → Keeps s0 t) (execGetCounters a0 s) := by
  unfold execGetCounters
  refine Ends.next ?_
  refine State_mgmt_keeps ?_ ?_
  assumption
  intros
  (extract_lets +onlyGivenNames x; clear_value x)
  refine Ends.snd ?_
  refine State_setReg_keeps ?_
  assumption

theorem execGetEndpointId_keeps {s0 : State} {s : State} (h : Ok s0 s) : Ends (fun r : Host.Outcome State Fault Refusal => ∀ t, r = .next t → Keeps s0 t) (execGetEndpointId s) := by
  unfold execGetEndpointId
  refine Ends.next ?_
  refine State_mctp_keeps ?_ ?_
  assumption
  intros
  refine Ends.snd ?_
  assumption

theorem execGetFeatures_keeps {s0 : State} {a0 : Cap} {a1 : ℕ} {s : State} (h : Ok s0 s) : Ends (fun r : Host.Outcome State Fault Refusal => ∀ t, r = .next t → Keeps s0 t) (execGetFeatures a0 a1 s) := by
  unfold execGetFeatures
  refine Ends.next ?_
  refine State_settle_keeps ?_
  refine State_adminCmd_keeps ?_
  assumption

theorem execGetId_keeps {s0 : State} {a0 : MgmtHdr} {s : State} (h : Ok s0 s) : Ends (fun r : Host.Outcome State Fault Refusal => ∀ t, r = .next t → Keeps s0 t) (execGetId a0 s) := by
  unfold execGetId
  refine Ends.next ?_
  refine State_mgmt_keeps ?_ ?_
  assumption
  intros
  refine Ends.snd ?_
  assumption

theorem execGetLogPage_keeps {s0 : State} {a0 : Cap} {a1 : ℕ} {a2 : ℕ} {a3 : ℕ} {a4 : Bool} {s : State} (h : Ok s0 s) : Ends (fun r : Host.Outcome State Fault Refusal => ∀ t, r = .next t → Keeps s0 t) (execGetLogPage a0 a1 a2 a3 a4 s) := by
  unfold execGetLogPage
  refine Ends.next ?_
  refine State_settle_keeps ?_
  refine State_adminCmd_keeps ?_
  assumption

theorem execGetMctpVersionSupport_keeps {s0 : State} {a0 : ℕ} {s : State} (h : Ok s0 s) : Ends (fun r : Host.Outcome State Fault Refusal => ∀ t, r = .next t → Keeps s0 t) (execGetMctpVersionSupport a0 s) := by
  unfold execGetMctpVersionSupport
  refine Ends.next ?_
  refine State_mctp_keeps ?_ ?_
  assumption
  intros
  refine Ends.ite ?_ ?_
  refine Ends.snd ?_
  assumption
  refine Ends.snd ?_
  assumption

theorem execGetMessageTypeSupport_keeps {s0 : State} {s : State} (h : Ok s0 s) : Ends (fun r : Host.Outcome State Fault Refusal => ∀ t, r = .next t → Keeps s0 t) (execGetMessageTypeSupport s) := by
  unfold execGetMessageTypeSupport
  refine Ends.next ?_
  refine State_mctp_keeps ?_ ?_
  assumption
  intros
  refine Ends.snd ?_
  assumption

theorem execGetSensors_keeps {s0 : State} {a0 : MgmtHdr} {s : State} (h : Ok s0 s) : Ends (fun r : Host.Outcome State Fault Refusal => ∀ t, r = .next t → Keeps s0 t) (execGetSensors a0 s) := by
  unfold execGetSensors
  refine Ends.next ?_
  refine State_mgmt_keeps ?_ ?_
  assumption
  intros
  refine Ends.snd ?_
  assumption

theorem execGetVendorMessageSupport_keeps {s0 : State} {a0 : ℕ} {s : State} (h : Ok s0 s) : Ends (fun r : Host.Outcome State Fault Refusal => ∀ t, r = .next t → Keeps s0 t) (execGetVendorMessageSupport a0 s) := by
  unfold execGetVendorMessageSupport
  refine Ends.next ?_
  refine State_mctp_keeps ?_ ?_
  assumption
  intros
  refine Ends.ite ?_ ?_
  refine Ends.snd ?_
  assumption
  refine Ends.snd ?_
  assumption

theorem execHandoff_keeps {s0 : State} {a0 : ℕ} {a1 : ℕ} {s : State} (h : Ok s0 s) : Ends (fun r : Host.Outcome State Fault Refusal => ∀ t, r = .next t → Keeps s0 t) (execHandoff a0 a1 s) := by
  unfold execHandoff
  refine Ends.ite ?_ ?_
  refine Ends.next ?_
  assumption
  refine Ends.next ?_
  refine State_sendMb_keeps ?_
  assumption

theorem execHandover_keeps {s0 : State} {a0 : ChlHdr} {a1 : List ℕ} {a2 : List ℕ} {s : State} (h : Ok s0 s) : Ends (fun r : Host.Outcome State Fault Refusal => ∀ t, r = .next t → Keeps s0 t) (execHandover a0 a1 a2 s) := by
  unfold execHandover
  refine Ends.next ?_
  refine State_settle_keeps ?_
  refine State_chlMsg_keeps ?_
  assumption

end Sys2Proof.Machine
end

