-- ==== Sys2Proof/Laws/Keeps6.lean ====
section
/-! SUPPORT. Part 6 of 6: no operation of the model undoes what `Keeps` names; one lemma for each, in the order in which they call each
other. -/

set_option linter.all false

namespace Sys2Proof.Machine

open Sys2Proof

theorem execHandoverAcked_keeps {s0 : State} {s : State} (h : Ok s0 s) : Ends (fun r : Host.Outcome State Fault Refusal => ∀ t, r = .next t → Keeps s0 t) (execHandoverAcked s) := by
  unfold execHandoverAcked
  (extract_lets +onlyGivenNames x; clear_value x)
  split
  refine Ends.ite ?_ ?_
  refine Ends.next ?_
  assumption
  refine Ends.ite ?_ ?_
  refine Ends.next ?_
  refine State_headReset_keeps ?_
  refine State_setLast_keeps ?_
  assumption
  (extract_lets +onlyGivenNames x; refine Ends.cut (x := x) (s := s0) ?_ (fun _ => ?_) <;> [subst x; clear_value x])
  refine State_gaveBack_keeps ?_
  assumption
  (extract_lets +onlyGivenNames x; subst x)
  (extract_lets +onlyGivenNames x; refine Ends.cut (x := x) (s := s0) ?_ (fun _ => ?_) <;> [subst x; clear_value x])
  refine Ends.upd ?_
  assumption
  refine Ends.next ?_
  refine State_settle_keeps ?_
  refine State_handbackNext_keeps ?_
  refine Ends.fold ?_ (fun _ _ _ => ?_)
  assumption
  refine State_startTx_keeps ?_
  assumption
  refine Ends.next ?_
  assumption

theorem execHandoverReq_keeps {s0 : State} {a0 : Word} {s : State} (h : Ok s0 s) : Ends (fun r : Host.Outcome State Fault Refusal => ∀ t, r = .next t → Keeps s0 t) (execHandoverReq a0 s) := by
  unfold execHandoverReq
  refine Ends.ite ?_ ?_
  refine Ends.next ?_
  refine State_settle_keeps ?_
  refine State_give_keeps ?_
  assumption
  refine Ends.next ?_
  assumption

theorem execHeartbeat_keeps {s0 : State} {a0 : ChlHdr} {a1 : Heartbeat} {s : State} (h : Ok s0 s) : Ends (fun r : Host.Outcome State Fault Refusal => ∀ t, r = .next t → Keeps s0 t) (execHeartbeat a0 a1 s) := by
  unfold execHeartbeat
  refine Ends.next ?_
  refine State_settle_keeps ?_
  refine State_chlMsg_keeps ?_
  assumption

theorem execHeartbeatSend_keeps {s0 : State} {s : State} (h : Ok s0 s) : Ends (fun r : Host.Outcome State Fault Refusal => ∀ t, r = .next t → Keeps s0 t) (execHeartbeatSend s) := by
  unfold execHeartbeatSend
  refine Ends.ite ?_ ?_
  refine Ends.next ?_
  assumption
  (extract_lets +onlyGivenNames x; clear_value x)
  (extract_lets +onlyGivenNames x; clear_value x)
  (extract_lets +onlyGivenNames x; clear_value x)
  (extract_lets +onlyGivenNames x; clear_value x)
  (extract_lets +onlyGivenNames x; subst x)
  (extract_lets +onlyGivenNames x; refine Ends.cut (x := x) (s := s0) ?_ (fun _ => ?_) <;> [subst x; clear_value x])
  refine Ends.upd ?_
  assumption
  refine Ends.next ?_
  refine Ends.fold ?_ (fun _ _ _ => ?_)
  assumption
  refine State_sendOn_keeps ?_
  assumption

theorem execI3cDynamicAddress_keeps {s0 : State} {a0 : ℕ} {a1 : Option ℕ} {s : State} (h : Ok s0 s) : Ends (fun r : Host.Outcome State Fault Refusal => ∀ t, r = .next t → Keeps s0 t) (execI3cDynamicAddress a0 a1 s) := by
  unfold execI3cDynamicAddress
  (extract_lets +onlyGivenNames x; clear_value x)
  refine Ends.ite ?_ ?_
  refine Ends.next ?_
  refine Ends.upd ?_
  assumption
  refine Ends.next ?_
  assumption

theorem execI3cMaxLengthSet_keeps {s0 : State} {a0 : ℕ} {a1 : ℕ} {s : State} (h : Ok s0 s) : Ends (fun r : Host.Outcome State Fault Refusal => ∀ t, r = .next t → Keeps s0 t) (execI3cMaxLengthSet a0 a1 s) := by
  unfold execI3cMaxLengthSet
  refine Ends.ite ?_ ?_
  refine Ends.next ?_
  refine Ends.upd ?_
  assumption
  refine Ends.next ?_
  assumption

theorem execIdentify_keeps {s0 : State} {a0 : Cap} {a1 : ℕ} {a2 : ℕ} {s : State} (h : Ok s0 s) : Ends (fun r : Host.Outcome State Fault Refusal => ∀ t, r = .next t → Keeps s0 t) (execIdentify a0 a1 a2 s) := by
  unfold execIdentify
  refine Ends.next ?_
  refine State_settle_keeps ?_
  refine State_adminCmd_keeps ?_
  assumption

theorem execImgBegin_keeps {s0 : State} {a0 : MgmtHdr} {a1 : ℕ} {a2 : ℕ} {s : State} (h : Ok s0 s) : Ends (fun r : Host.Outcome State Fault Refusal => ∀ t, r = .next t → Keeps s0 t) (execImgBegin a0 a1 a2 s) := by
  unfold execImgBegin
  refine Ends.next ?_
  refine State_mgmt_keeps ?_ ?_
  assumption
  intros
  unfold bare
  refine Ends.snd ?_
  refine Ends.projR ?_
  refine State_imgBegin_keeps ?_
  assumption

theorem execImgEnd_keeps {s0 : State} {a0 : MgmtHdr} {s : State} (h : Ok s0 s) : Ends (fun r : Host.Outcome State Fault Refusal => ∀ t, r = .next t → Keeps s0 t) (execImgEnd a0 s) := by
  unfold execImgEnd
  refine Ends.next ?_
  refine State_mgmt_keeps ?_ ?_
  assumption
  intros
  unfold bare
  refine Ends.snd ?_
  refine Ends.projR ?_
  refine State_imgEnd_keeps ?_
  assumption

theorem execImgWrite_keeps {s0 : State} {a0 : MgmtHdr} {a1 : ℕ} {a2 : Bytes} {s : State} (h : Ok s0 s) : Ends (fun r : Host.Outcome State Fault Refusal => ∀ t, r = .next t → Keeps s0 t) (execImgWrite a0 a1 a2 s) := by
  unfold execImgWrite
  refine Ends.next ?_
  refine State_mgmt_keeps ?_ ?_
  assumption
  intros
  unfold bare
  refine Ends.snd ?_
  refine Ends.projR ?_
  refine State_imgWrite_keeps ?_
  assumption

theorem execInsertRing_keeps {s0 : State} {a0 : Bool} {a1 : ℕ} {a2 : ℕ} {a3 : ℕ} {a4 : ℕ} {s : State} (h : Ok s0 s) : Ends (fun r : Host.Outcome State Fault Refusal => ∀ t, r = .next t → Keeps s0 t) (execInsertRing a0 a1 a2 a3 a4 s) := by
  unfold execInsertRing
  refine Ends.next ?_
  refine State_csaAsk_keeps ?_ ?_
  assumption
  intros
  split
  refine State_setCsa_keeps ?_
  refine Ends.ofL (by assumption) ?_
  refine State_csaInsertRing_keeps ?_
  assumption

theorem execInstall_keeps {s0 : State} {a0 : Via} {a1 : RoleEnv} {a2 : Bytes} {s : State} (h : Ok s0 s) : Ends (fun r : Host.Outcome State Fault Refusal => ∀ t, r = .next t → Keeps s0 t) (execInstall a0 a1 a2 s) := by
  unfold execInstall
  refine Ends.next ?_
  refine State_roleArrive_keeps ?_
  assumption

theorem execInvalidateMasked_keeps {s0 : State} {a0 : Bool} {a1 : ℕ} {a2 : ℕ} {a3 : ℕ} {s : State} (h : Ok s0 s) : Ends (fun r : Host.Outcome State Fault Refusal => ∀ t, r = .next t → Keeps s0 t) (execInvalidateMasked a0 a1 a2 a3 s) := by
  unfold execInvalidateMasked
  refine Ends.ite ?_ ?_
  refine Ends.next ?_
  refine State_csaCmd_keeps ?_ ?_
  assumption
  intros
  refine State_csaEnd_keeps ?_
  refine State_csaInvalidateMasked_keeps ?_
  assumption
  refine Ends.next ?_
  refine State_csaAsk_keeps ?_ ?_
  assumption
  intros
  refine State_csaInvalidateMasked_keeps ?_
  assumption

theorem execJack_keeps {s0 : State} {a0 : ℕ} {a1 : ℕ} {s : State} (h : Ok s0 s) : Ends (fun r : Host.Outcome State Fault Refusal => ∀ t, r = .next t → Keeps s0 t) (execJack a0 a1 s) := by
  unfold execJack
  refine Ends.next ?_
  refine State_settle_keeps ?_
  refine State_withMsg_keeps ?_ ?_
  assumption
  intros
  (extract_lets +onlyGivenNames x; clear_value x)
  (extract_lets +onlyGivenNames x; clear_value x)
  (extract_lets +onlyGivenNames x; refine Ends.cut (x := x) (s := s0) ?_ (fun _ => ?_) <;> [subst x; clear_value x])
  refine State_setSess_keeps ?_
  assumption
  refine Ends.fold ?_ (fun _ _ _ => ?_)
  assumption
  refine State_setJack_keeps ?_
  assumption

theorem execJournalAdmit_keeps {s0 : State} {s : State} (h : Ok s0 s) : Ends (fun r : Host.Outcome State Fault Refusal => ∀ t, r = .next t → Keeps s0 t) (execJournalAdmit s) := by
  unfold execJournalAdmit
  (extract_lets +onlyGivenNames x; clear_value x)
  (extract_lets +onlyGivenNames x; clear_value x)
  refine Ends.next ?_
  refine State_settle_keeps ?_
  refine Ends.fold ?_ (fun _ _ _ => ?_)
  refine State_journalRegs_keeps ?_
  assumption
  refine State_advance_keeps ?_
  assumption

theorem execJournalDestage_keeps {s0 : State} {a0 : ℕ} {a1 : ℕ} {a2 : List Item} {a3 : Option (ℕ × ℕ)} {s : State} (h : Ok s0 s) : Ends (fun r : Host.Outcome State Fault Refusal => ∀ t, r = .next t → Keeps s0 t) (execJournalDestage a0 a1 a2 a3 s) := by
  unfold execJournalDestage
  split
  refine Ends.ite ?_ ?_
  refine Ends.next ?_
  refine State_settle_keeps ?_
  refine State_firmwareFix_keeps ?_
  assumption
  refine Ends.next ?_
  refine State_settle_keeps ?_
  refine State_tryTxn_keeps ?_
  assumption
  split
  refine Ends.next ?_
  assumption
  (extract_lets +onlyGivenNames x; clear_value x)
  (extract_lets +onlyGivenNames x; clear_value x)
  (extract_lets +onlyGivenNames x; clear_value x)
  refine Ends.ite ?_ ?_
  refine Ends.next ?_
  refine State_settle_keeps ?_
  refine State_beginDestage_keeps ?_
  assumption
  refine Ends.next ?_
  assumption

theorem execJournalRelease_keeps {s0 : State} {a0 : ℕ} {a1 : ℕ} {s : State} (h : Ok s0 s) : Ends (fun r : Host.Outcome State Fault Refusal => ∀ t, r = .next t → Keeps s0 t) (execJournalRelease a0 a1 s) := by
  unfold execJournalRelease
  (extract_lets +onlyGivenNames x; clear_value x)
  (extract_lets +onlyGivenNames x; clear_value x)
  split
  refine Ends.ite ?_ ?_
  (extract_lets +onlyGivenNames x; refine Ends.cut (x := x) (s := s0) ?_ (fun _ => ?_) <;> [subst x; clear_value x])
  refine State_releaseRec_keeps ?_
  assumption
  (extract_lets +onlyGivenNames x; refine Ends.cut (x := x) (s := s0) ?_ (fun _ => ?_) <;> [subst x; clear_value x])
  refine Ends.ite ?_ ?_
  refine State_send_keeps ?_
  assumption
  assumption
  refine Ends.next ?_
  refine State_settle_keeps ?_
  refine State_eraseJournal_keeps ?_
  refine State_clearIntents_keeps ?_
  assumption
  refine Ends.next ?_
  assumption
  refine Ends.next ?_
  assumption

theorem execJrec_keeps {s0 : State} {a0 : ℕ} {a1 : ℕ} {s : State} (h : Ok s0 s) : Ends (fun r : Host.Outcome State Fault Refusal => ∀ t, r = .next t → Keeps s0 t) (execJrec a0 a1 s) := by
  unfold execJrec
  (extract_lets +onlyGivenNames x; clear_value x)
  (extract_lets +onlyGivenNames x; clear_value x)
  split
  (extract_lets +onlyGivenNames x; clear_value x)
  refine Ends.ite ?_ ?_
  refine Ends.next ?_
  assumption
  refine Ends.next ?_
  refine State_settle_keeps ?_
  refine State_withMsg_keeps ?_ ?_
  assumption
  intros
  (extract_lets +onlyGivenNames x; clear_value x)
  refine Ends.ite ?_ ?_
  refine State_sendMsg_keeps ?_
  assumption
  (extract_lets +onlyGivenNames x; clear_value x)
  (extract_lets +onlyGivenNames x; refine Ends.cut (x := x) (s := s0) ?_ (fun _ => ?_) <;> [subst x; clear_value x])
  refine State_appendRec_keeps ?_
  assumption
  split
  (extract_lets +onlyGivenNames x; clear_value x)
  refine State_setSess_keeps ?_
  assumption
  assumption
  refine Ends.next ?_
  refine State_withMsg_keeps ?_ ?_
  assumption
  intros
  refine State_pgCount_keeps ?_
  assumption
  refine Ends.next ?_
  assumption

theorem execJtagInstruction_keeps {s0 : State} {a0 : ℕ} {a1 : Bool} {s : State} (h : Ok s0 s) : Ends (fun r : Host.Outcome State Fault Refusal => ∀ t, r = .next t → Keeps s0 t) (execJtagInstruction a0 a1 s) := by
  unfold execJtagInstruction
  refine Ends.next ?_
  refine State_emit_keeps ?_
  assumption

theorem execJwrite_keeps {s0 : State} {a0 : ChlHdr} {a1 : ℕ} {a2 : JRec} {a3 : Bool} {s : State} (h : Ok s0 s) : Ends (fun r : Host.Outcome State Fault Refusal => ∀ t, r = .next t → Keeps s0 t) (execJwrite a0 a1 a2 a3 s) := by
  unfold execJwrite
  refine Ends.next ?_
  refine State_settle_keeps ?_
  refine State_chlMsg_keeps ?_
  assumption

theorem execKcuClose_keeps {s0 : State} {a0 : ℕ} {a1 : ℕ} {s : State} (h : Ok s0 s) : Ends (fun r : Host.Outcome State Fault Refusal => ∀ t, r = .next t → Keeps s0 t) (execKcuClose a0 a1 s) := by
  unfold execKcuClose
  refine Ends.next ?_
  refine State_withKcu_keeps ?_ ?_
  assumption
  refine Ends.ite ?_ ?_
  refine State_kcuEnd_keeps ?_
  assumption
  refine State_kcuEnd_keeps ?_
  refine Ends.upd ?_
  assumption

theorem execKcuDec_keeps {s0 : State} {a0 : ℕ} {a1 : ℕ} {s : State} (h : Ok s0 s) : Ends (fun r : Host.Outcome State Fault Refusal => ∀ t, r = .next t → Keeps s0 t) (execKcuDec a0 a1 s) := by
  unfold execKcuDec
  refine Ends.next ?_
  refine State_kcuBlock_keeps ?_
  assumption

theorem execKcuDecChain_keeps {s0 : State} {a0 : ℕ} {a1 : ℕ} {s : State} (h : Ok s0 s) : Ends (fun r : Host.Outcome State Fault Refusal => ∀ t, r = .next t → Keeps s0 t) (execKcuDecChain a0 a1 s) := by
  unfold execKcuDecChain
  refine Ends.next ?_
  refine State_kcuBlock_keeps ?_
  assumption

theorem execKcuEnc_keeps {s0 : State} {a0 : ℕ} {a1 : ℕ} {s : State} (h : Ok s0 s) : Ends (fun r : Host.Outcome State Fault Refusal => ∀ t, r = .next t → Keeps s0 t) (execKcuEnc a0 a1 s) := by
  unfold execKcuEnc
  refine Ends.next ?_
  refine State_kcuBlock_keeps ?_
  assumption

theorem execKcuEncChain_keeps {s0 : State} {a0 : ℕ} {a1 : ℕ} {s : State} (h : Ok s0 s) : Ends (fun r : Host.Outcome State Fault Refusal => ∀ t, r = .next t → Keeps s0 t) (execKcuEncChain a0 a1 s) := by
  unfold execKcuEncChain
  refine Ends.next ?_
  refine State_kcuBlock_keeps ?_
  assumption

theorem execKcuLoadClear_keeps {s0 : State} {a0 : ℕ} {a1 : ℕ} {a2 : Bool} {s : State} (h : Ok s0 s) : Ends (fun r : Host.Outcome State Fault Refusal => ∀ t, r = .next t → Keeps s0 t) (execKcuLoadClear a0 a1 a2 s) := by
  unfold execKcuLoadClear
  refine Ends.next ?_
  refine State_withKcu_keeps ?_ ?_
  assumption
  refine Ends.ite ?_ ?_
  refine State_kcuEnd_keeps ?_
  assumption
  refine Ends.ite ?_ ?_
  refine State_event_keeps ?_
  refine State_kcuEnd_keeps ?_
  assumption
  (extract_lets +onlyGivenNames x; clear_value x)
  refine State_kcuEnd_keeps ?_
  refine State_setKcu_keeps ?_
  assumption

theorem execKcuLoadWrapped_keeps {s0 : State} {a0 : ℕ} {a1 : ℕ} {s : State} (h : Ok s0 s) : Ends (fun r : Host.Outcome State Fault Refusal => ∀ t, r = .next t → Keeps s0 t) (execKcuLoadWrapped a0 a1 s) := by
  unfold execKcuLoadWrapped
  refine Ends.next ?_
  refine State_withKcu_keeps ?_ ?_
  assumption
  refine Ends.ite ?_ ?_
  refine State_kcuEnd_keeps ?_
  assumption
  refine State_kcuDma_keeps ?_ ?_
  assumption
  split
  refine Ends.ite ?_ ?_
  refine State_kcuEnd_keeps ?_
  refine State_setKcu_keeps ?_
  assumption
  refine State_kcuEnd_keeps ?_
  assumption
  refine State_kcuEnd_keeps ?_
  assumption

theorem execKcuRecAddGen_keeps {s0 : State} {a0 : ℕ} {a1 : ℕ} {s : State} (h : Ok s0 s) : Ends (fun r : Host.Outcome State Fault Refusal => ∀ t, r = .next t → Keeps s0 t) (execKcuRecAddGen a0 a1 s) := by
  unfold execKcuRecAddGen
  refine Ends.next ?_
  refine State_readRec_keeps ?_ ?_
  assumption
  intros
  refine Ends.ite ?_ ?_
  refine State_kcuEnd_keeps ?_
  assumption
  split
  refine State_kcuEnd_keeps ?_
  assumption
  (extract_lets +onlyGivenNames x; subst x; beta_reduce)
  split
  refine State_writeRec_keeps ?_
  refine State_useGen_keeps ?_
  refine Ends.projR ?_
  refine State_drawGen_keeps ?_
  assumption
  refine State_kcuEnd_keeps ?_
  refine Ends.projR ?_
  refine State_drawGen_keeps ?_
  assumption

theorem execKcuRecCreate_keeps {s0 : State} {a0 : ℕ} {a1 : ℕ} {a2 : ℕ} {s : State} (h : Ok s0 s) : Ends (fun r : Host.Outcome State Fault Refusal => ∀ t, r = .next t → Keeps s0 t) (execKcuRecCreate a0 a1 a2 s) := by
  unfold execKcuRecCreate
  refine Ends.next ?_
  refine State_withKcu_keeps ?_ ?_
  assumption
  refine Ends.ite ?_ ?_
  refine State_kcuEnd_keeps ?_
  assumption
  split
  refine State_writeRec_keeps ?_
  refine Ends.ofR (by assumption) ?_
  refine State_newRec_keeps ?_
  assumption
  refine State_kcuEnd_keeps ?_
  refine Ends.ofR (by assumption) ?_
  refine State_newRec_keeps ?_
  assumption

theorem execKcuRecDropGen_keeps {s0 : State} {a0 : ℕ} {a1 : ℕ} {a2 : ℕ} {s : State} (h : Ok s0 s) : Ends (fun r : Host.Outcome State Fault Refusal => ∀ t, r = .next t → Keeps s0 t) (execKcuRecDropGen a0 a1 a2 s) := by
  unfold execKcuRecDropGen
  refine Ends.next ?_
  refine State_readRec_keeps ?_ ?_
  assumption
  intros
  (extract_lets +onlyGivenNames x; clear_value x)
  refine Ends.ite ?_ ?_
  refine State_kcuEnd_keeps ?_
  assumption
  refine State_writeRec_keeps ?_
  assumption

theorem execKcuRestore_keeps {s0 : State} {a0 : ℕ} {a1 : ℕ} {a2 : Bool} {s : State} (h : Ok s0 s) : Ends (fun r : Host.Outcome State Fault Refusal => ∀ t, r = .next t → Keeps s0 t) (execKcuRestore a0 a1 a2 s) := by
  unfold execKcuRestore
  (extract_lets +onlyGivenNames x; clear_value x)
  refine Ends.next ?_
  refine State_withKcu_keeps ?_ ?_
  assumption
  refine Ends.ite ?_ ?_
  refine State_kcuEnd_keeps ?_
  assumption
  refine State_kcuDma_keeps ?_ ?_
  assumption
  (extract_lets +onlyGivenNames x; clear_value x)
  split
  refine Ends.ite ?_ ?_
  refine State_kcuEnd_keeps ?_
  refine State_setKcu_keeps ?_
  assumption
  refine State_kcuEnd_keeps ?_
  assumption
  refine State_kcuEnd_keeps ?_
  assumption

theorem execKcuSaveClear_keeps {s0 : State} {a0 : ℕ} {a1 : ℕ} {s : State} (h : Ok s0 s) : Ends (fun r : Host.Outcome State Fault Refusal => ∀ t, r = .next t → Keeps s0 t) (execKcuSaveClear a0 a1 s) := by
  unfold execKcuSaveClear
  refine Ends.next ?_
  refine State_kcuSave_keeps ?_
  assumption

theorem execKcuSaveWrapped_keeps {s0 : State} {a0 : ℕ} {a1 : ℕ} {s : State} (h : Ok s0 s) : Ends (fun r : Host.Outcome State Fault Refusal => ∀ t, r = .next t → Keeps s0 t) (execKcuSaveWrapped a0 a1 s) := by
  unfold execKcuSaveWrapped
  refine Ends.next ?_
  refine State_kcuSave_keeps ?_
  assumption

theorem execKcuSetChain_keeps {s0 : State} {a0 : ℕ} {a1 : ℕ} {s : State} (h : Ok s0 s) : Ends (fun r : Host.Outcome State Fault Refusal => ∀ t, r = .next t → Keeps s0 t) (execKcuSetChain a0 a1 s) := by
  unfold execKcuSetChain
  refine Ends.next ?_
  refine State_withKcu_keeps ?_ ?_
  assumption
  split
  refine State_kcuEnd_keeps ?_
  assumption
  refine State_kcuEnd_keeps ?_
  refine State_setKcu_keeps ?_
  assumption

theorem execKeepAlive_keeps {s0 : State} {a0 : Cap} {s : State} (h : Ok s0 s) : Ends (fun r : Host.Outcome State Fault Refusal => ∀ t, r = .next t → Keeps s0 t) (execKeepAlive a0 s) := by
  unfold execKeepAlive
  refine Ends.next ?_
  refine State_settle_keeps ?_
  refine State_adminCmd_keeps ?_
  assumption

theorem execKeepAliveExpiry_keeps {s0 : State} {a0 : ℕ} {s : State} (h : Ok s0 s) : Ends (fun r : Host.Outcome State Fault Refusal => ∀ t, r = .next t → Keeps s0 t) (execKeepAliveExpiry a0 s) := by
  unfold execKeepAliveExpiry
  split
  refine Ends.ite ?_ ?_
  refine Ends.next ?_
  refine State_settle_keeps ?_
  refine State_deleteCtrl_keeps ?_
  assumption
  refine Ends.next ?_
  assumption
  refine Ends.next ?_
  assumption

theorem execKeyRotate_keeps {s0 : State} {a0 : Via} {a1 : RoleEnv} {a2 : ℕ} {s : State} (h : Ok s0 s) : Ends (fun r : Host.Outcome State Fault Refusal => ∀ t, r = .next t → Keeps s0 t) (execKeyRotate a0 a1 a2 s) := by
  unfold execKeyRotate
  refine Ends.next ?_
  refine State_roleArrive_keeps ?_
  assumption

theorem execLaneDisable_keeps {s0 : State} {a0 : ℕ} {a1 : LaneKind} {a2 : ℕ} {s : State} (h : Ok s0 s) : Ends (fun r : Host.Outcome State Fault Refusal => ∀ t, r = .next t → Keeps s0 t) (execLaneDisable a0 a1 a2 s) := by
  unfold execLaneDisable
  refine Ends.ite ?_ ?_
  refine Ends.next ?_
  refine State_settle_keeps ?_
  refine State_stopLane_keeps ?_
  assumption
  refine Ends.next ?_
  assumption

theorem execLaneFault_keeps {s0 : State} {a0 : ℕ} {a1 : LaneKind} {a2 : ℕ} {s : State} (h : Ok s0 s) : Ends (fun r : Host.Outcome State Fault Refusal => ∀ t, r = .next t → Keeps s0 t) (execLaneFault a0 a1 a2 s) := by
  unfold execLaneFault
  (extract_lets +onlyGivenNames x; clear_value x)
  refine Ends.ite ?_ ?_
  refine Ends.next ?_
  assumption
  (extract_lets +onlyGivenNames x; clear_value x)
  (extract_lets +onlyGivenNames x; refine Ends.cut (x := x) (s := s0) ?_ (fun _ => ?_) <;> [subst x; clear_value x])
  refine State_setFld_keeps ?_
  assumption
  (extract_lets +onlyGivenNames x; subst x)
  (extract_lets +onlyGivenNames x; refine Ends.cut (x := x) (s := s0) ?_ (fun _ => ?_) <;> [subst x; clear_value x])
  refine Ends.upd ?_
  assumption
  refine Ends.next ?_
  refine State_settle_keeps ?_
  refine State_stopLane_keeps ?_
  refine State_event_keeps ?_
  assumption

theorem execLayout_keeps {s0 : State} {a0 : Via} {a1 : RoleEnv} {a2 : Option ℕ} {a3 : Option ℕ} {a4 : Option ℕ} {a5 : Option ℕ} {s : State} (h : Ok s0 s) : Ends (fun r : Host.Outcome State Fault Refusal => ∀ t, r = .next t → Keeps s0 t) (execLayout a0 a1 a2 a3 a4 a5 s) := by
  unfold execLayout
  refine Ends.next ?_
  refine State_roleArrive_keeps ?_
  assumption

theorem execLdpcDecodeDone_keeps {s0 : State} {a0 : ℕ} {a1 : Option Bytes} {a2 : ℕ} {s : State} (h : Ok s0 s) : Ends (fun r : Host.Outcome State Fault Refusal => ∀ t, r = .next t → Keeps s0 t) (execLdpcDecodeDone a0 a1 a2 s) := by
  unfold execLdpcDecodeDone
  refine Ends.next ?_
  refine State_settle_keeps ?_
  refine State_decodeDone_keeps ?_
  assumption

theorem execLeaseExpiry_keeps {s0 : State} {s : State} (h : Ok s0 s) : Ends (fun r : Host.Outcome State Fault Refusal => ∀ t, r = .next t → Keeps s0 t) (execLeaseExpiry s) := by
  unfold execLeaseExpiry
  refine Ends.ite ?_ ?_
  refine Ends.next ?_
  refine State_setFlag_keeps ?_
  assumption
  refine Ends.next ?_
  assumption

theorem execLedger_keeps {s0 : State} {a0 : ChlHdr} {a1 : LedgerRec} {s : State} (h : Ok s0 s) : Ends (fun r : Host.Outcome State Fault Refusal => ∀ t, r = .next t → Keeps s0 t) (execLedger a0 a1 s) := by
  unfold execLedger
  refine Ends.next ?_
  refine State_settle_keeps ?_
  refine State_chlMsg_keeps ?_
  assumption

theorem execLinkDown_keeps {s0 : State} {a0 : ℕ} {s : State} (h : Ok s0 s) : Ends (fun r : Host.Outcome State Fault Refusal => ∀ t, r = .next t → Keeps s0 t) (execLinkDown a0 s) := by
  unfold execLinkDown
  refine Ends.ite ?_ ?_
  refine Ends.next ?_
  refine State_setPortFld_keeps ?_
  refine State_setPortFld_keeps ?_
  refine State_portDown_keeps ?_
  assumption
  refine Ends.next ?_
  assumption

theorem execLinkDownTimeout_keeps {s0 : State} {a0 : ℕ} {s : State} (h : Ok s0 s) : Ends (fun r : Host.Outcome State Fault Refusal => ∀ t, r = .next t → Keeps s0 t) (execLinkDownTimeout a0 s) := by
  unfold execLinkDownTimeout
  split
  refine Ends.ite ?_ ?_
  (extract_lets +onlyGivenNames x; clear_value x)
  refine Ends.next ?_
  refine State_settle_keeps ?_
  refine Ends.fold ?_ (fun _ _ _ => ?_)
  assumption
  refine State_qpFail_keeps ?_
  assumption
  refine Ends.next ?_
  assumption
  refine Ends.next ?_
  assumption

theorem execLinkUp_keeps {s0 : State} {a0 : ℕ} {s : State} (h : Ok s0 s) : Ends (fun r : Host.Outcome State Fault Refusal => ∀ t, r = .next t → Keeps s0 t) (execLinkUp a0 s) := by
  unfold execLinkUp
  refine Ends.ite ?_ ?_
  (extract_lets +onlyGivenNames x; clear_value x)
  (extract_lets +onlyGivenNames x; refine Ends.cut (x := x) (s := s0) ?_ (fun _ => ?_) <;> [subst x; clear_value x])
  refine State_setPortFld_keeps ?_
  refine State_setPortFld_keeps ?_
  assumption
  (extract_lets +onlyGivenNames x; refine Ends.cut (x := x) (s := s0) ?_ (fun _ => ?_) <;> [subst x; clear_value x])
  refine State_setPortFld_keeps ?_
  assumption
  refine Ends.next ?_
  refine State_startTx_keeps ?_
  refine State_setFport_keeps ?_
  assumption
  refine Ends.next ?_
  assumption

theorem execList_keeps {s0 : State} {a0 : Cap} {a1 : Key} {s : State} (h : Ok s0 s) : Ends (fun r : Host.Outcome State Fault Refusal => ∀ t, r = .next t → Keeps s0 t) (execList a0 a1 s) := by
  unfold execList
  refine Ends.next ?_
  refine State_settle_keeps ?_
  refine State_ioCmd_keeps ?_
  assumption

theorem execLocalAckTimeout_keeps {s0 : State} {a0 : ℕ} {s : State} (h : Ok s0 s) : Ends (fun r : Host.Outcome State Fault Refusal => ∀ t, r = .next t → Keeps s0 t) (execLocalAckTimeout a0 s) := by
  unfold execLocalAckTimeout
  split
  refine Ends.ite ?_ ?_
  refine Ends.next ?_
  refine State_settle_keeps ?_
  refine State_ackTimeout_keeps ?_
  assumption
  refine Ends.next ?_
  assumption
  refine Ends.next ?_
  assumption

theorem execLock_keeps {s0 : State} {a0 : ChlHdr} {a1 : LockMsg} {s : State} (h : Ok s0 s) : Ends (fun r : Host.Outcome State Fault Refusal => ∀ t, r = .next t → Keeps s0 t) (execLock a0 a1 s) := by
  unfold execLock
  refine Ends.next ?_
  refine State_settle_keeps ?_
  refine State_chlMsg_keeps ?_
  assumption

theorem execLockGrant_keeps {s0 : State} {a0 : ℕ} {a1 : ℕ} {s : State} (h : Ok s0 s) : Ends (fun r : Host.Outcome State Fault Refusal => ∀ t, r = .next t → Keeps s0 t) (execLockGrant a0 a1 s) := by
  unfold execLockGrant
  split
  refine Ends.next ?_
  refine State_settle_keeps ?_
  refine State_advance_keeps ?_
  refine State_grantLock_keeps ?_
  assumption
  refine Ends.next ?_
  assumption

theorem execLogPageDurable_keeps {s0 : State} {a0 : ℕ} {s : State} (h : Ok s0 s) : Ends (fun r : Host.Outcome State Fault Refusal => ∀ t, r = .next t → Keeps s0 t) (execLogPageDurable a0 s) := by
  unfold execLogPageDurable
  refine Ends.next ?_
  refine State_settle_keeps ?_
  refine State_logDurable_keeps ?_
  assumption

theorem execLogPageTimeout_keeps {s0 : State} {s : State} (h : Ok s0 s) : Ends (fun r : Host.Outcome State Fault Refusal => ∀ t, r = .next t → Keeps s0 t) (execLogPageTimeout s) := by
  unfold execLogPageTimeout
  refine Ends.ite ?_ ?_
  refine Ends.next ?_
  refine State_settle_keeps ?_
  refine State_programLogPage_keeps ?_
  assumption
  refine Ends.next ?_
  assumption

theorem execLosslessXon_keeps {s0 : State} {a0 : ℕ} {s : State} (h : Ok s0 s) : Ends (fun r : Host.Outcome State Fault Refusal => ∀ t, r = .next t → Keeps s0 t) (execLosslessXon a0 s) := by
  unfold execLosslessXon
  (extract_lets +onlyGivenNames x; clear_value x)
  refine Ends.ite ?_ ?_
  refine Ends.next ?_
  refine State_sendPause_keeps ?_
  refine State_setFport_keeps ?_
  assumption
  refine Ends.next ?_
  assumption

theorem execMailboxNotice_keeps {s0 : State} {a0 : ℕ} {a1 : ℕ} {s : State} (h : Ok s0 s) : Ends (fun r : Host.Outcome State Fault Refusal => ∀ t, r = .next t → Keeps s0 t) (execMailboxNotice a0 a1 s) := by
  unfold execMailboxNotice
  split
  refine Ends.ite ?_ ?_
  refine Ends.next ?_
  refine State_sendMb_keeps ?_
  refine Ends.upd ?_
  assumption
  refine Ends.next ?_
  assumption
  refine Ends.next ?_
  assumption

theorem execMailboxSend_keeps {s0 : State} {a0 : ℕ} {a1 : ℕ} {a2 : ℕ} {s : State} (h : Ok s0 s) : Ends (fun r : Host.Outcome State Fault Refusal => ∀ t, r = .next t → Keeps s0 t) (execMailboxSend a0 a1 a2 s) := by
  unfold execMailboxSend
  refine Ends.ite ?_ ?_
  refine Ends.next ?_
  refine State_fillMb_keeps ?_
  assumption
  refine Ends.next ?_
  assumption

theorem execManagementWatchdogExpiry_keeps {s0 : State} {s : State} (h : Ok s0 s) : Ends (fun r : Host.Outcome State Fault Refusal => ∀ t, r = .next t → Keeps s0 t) (execManagementWatchdogExpiry s) := by
  unfold execManagementWatchdogExpiry
  refine Ends.next ?_
  refine State_settle_keeps ?_
  refine State_raiseFault_keeps ?_
  assumption

theorem execMapFillDone_keeps {s0 : State} {a0 : ℕ} {s : State} (h : Ok s0 s) : Ends (fun r : Host.Outcome State Fault Refusal => ∀ t, r = .next t → Keeps s0 t) (execMapFillDone a0 s) := by
  unfold execMapFillDone
  refine Ends.next ?_
  refine State_settle_keeps ?_
  refine State_fillDone_keeps ?_
  assumption

theorem execMapLineWritebackDone_keeps {s0 : State} {a0 : ℕ} {s : State} (h : Ok s0 s) : Ends (fun r : Host.Outcome State Fault Refusal => ∀ t, r = .next t → Keeps s0 t) (execMapLineWritebackDone a0 s) := by
  unfold execMapLineWritebackDone
  refine Ends.next ?_
  refine State_settle_keeps ?_
  refine State_writebackDone_keeps ?_
  assumption

theorem execMapLookup_keeps {s0 : State} {a0 : ℕ} {a1 : ℕ} {a2 : ℕ} {a3 : ℕ} {s : State} (h : Ok s0 s) : Ends (fun r : Host.Outcome State Fault Refusal => ∀ t, r = .next t → Keeps s0 t) (execMapLookup a0 a1 a2 a3 s) := by
  unfold execMapLookup
  (extract_lets +onlyGivenNames x; clear_value x)
  refine Ends.ite ?_ ?_
  refine Ends.next ?_
  assumption
  (extract_lets +onlyGivenNames x; clear_value x)
  (extract_lets +onlyGivenNames x; clear_value x)
  (extract_lets +onlyGivenNames x; clear_value x)
  (extract_lets +onlyGivenNames x; subst x)
  (extract_lets +onlyGivenNames x; refine Ends.cut (x := x) (s := s0) ?_ (fun _ => ?_) <;> [subst x; clear_value x])
  refine Ends.ite ?_ ?_
  refine Ends.upd ?_
  assumption
  assumption
  refine Ends.next ?_
  refine State_settle_keeps ?_
  refine State_lookup_keeps ?_
  assumption

theorem execMapRangeClean_keeps {s0 : State} {a0 : ℕ} {s : State} (h : Ok s0 s) : Ends (fun r : Host.Outcome State Fault Refusal => ∀ t, r = .next t → Keeps s0 t) (execMapRangeClean a0 s) := by
  unfold execMapRangeClean
  refine Ends.next ?_
  refine State_settle_keeps ?_
  refine State_startRange_keeps ?_
  assumption

theorem execMapRangeCleanInv_keeps {s0 : State} {a0 : ℕ} {s : State} (h : Ok s0 s) : Ends (fun r : Host.Outcome State Fault Refusal => ∀ t, r = .next t → Keeps s0 t) (execMapRangeCleanInv a0 s) := by
  unfold execMapRangeCleanInv
  refine Ends.next ?_
  refine State_settle_keeps ?_
  refine State_startRange_keeps ?_
  assumption

theorem execMapRangeDone_keeps {s0 : State} {a0 : ℕ} {s : State} (h : Ok s0 s) : Ends (fun r : Host.Outcome State Fault Refusal => ∀ t, r = .next t → Keeps s0 t) (execMapRangeDone a0 s) := by
  unfold execMapRangeDone
  split
  refine Ends.ite ?_ ?_
  refine Ends.next ?_
  assumption
  (extract_lets +onlyGivenNames x; clear_value x)
  (extract_lets +onlyGivenNames x; subst x)
  (extract_lets +onlyGivenNames x; refine Ends.cut (x := x) (s := s0) ?_ (fun _ => ?_) <;> [subst x; clear_value x])
  refine Ends.upd ?_
  assumption
  (extract_lets +onlyGivenNames x; refine Ends.cut (x := x) (s := s0) ?_ (fun _ => ?_) <;> [subst x; clear_value x])
  refine State_setFlag_keeps ?_
  refine State_setFlag_keeps ?_
  assumption
  refine Ends.next ?_
  refine State_settle_keeps ?_
  refine State_setFld_keeps ?_
  refine State_setFld_keeps ?_
  assumption
  refine Ends.next ?_
  assumption

theorem execMapRangeInvalidate_keeps {s0 : State} {a0 : ℕ} {s : State} (h : Ok s0 s) : Ends (fun r : Host.Outcome State Fault Refusal => ∀ t, r = .next t → Keeps s0 t) (execMapRangeInvalidate a0 s) := by
  unfold execMapRangeInvalidate
  refine Ends.next ?_
  refine State_settle_keeps ?_
  refine State_startRange_keeps ?_
  assumption

theorem execMapRangeLoadPin_keeps {s0 : State} {a0 : ℕ} {s : State} (h : Ok s0 s) : Ends (fun r : Host.Outcome State Fault Refusal => ∀ t, r = .next t → Keeps s0 t) (execMapRangeLoadPin a0 s) := by
  unfold execMapRangeLoadPin
  refine Ends.next ?_
  refine State_settle_keeps ?_
  refine State_startRange_keeps ?_
  assumption

theorem execMapRangeSweep_keeps {s0 : State} {a0 : ℕ} {s : State} (h : Ok s0 s) : Ends (fun r : Host.Outcome State Fault Refusal => ∀ t, r = .next t → Keeps s0 t) (execMapRangeSweep a0 s) := by
  unfold execMapRangeSweep
  refine Ends.next ?_
  refine State_settle_keeps ?_
  refine State_startRange_keeps ?_
  assumption

theorem execMapRangeUnpin_keeps {s0 : State} {a0 : ℕ} {s : State} (h : Ok s0 s) : Ends (fun r : Host.Outcome State Fault Refusal => ∀ t, r = .next t → Keeps s0 t) (execMapRangeUnpin a0 s) := by
  unfold execMapRangeUnpin
  refine Ends.next ?_
  refine State_settle_keeps ?_
  refine State_startRange_keeps ?_
  assumption

theorem execMaps_keeps {s0 : State} {a0 : ℕ} {a1 : ℕ} {a2 : List Item} {a3 : Option (ℕ × ℕ)} {s : State} (h : Ok s0 s) : Ends (fun r : Host.Outcome State Fault Refusal => ∀ t, r = .next t → Keeps s0 t) (execMaps a0 a1 a2 a3 s) := by
  unfold execMaps
  (extract_lets +onlyGivenNames x; clear_value x)
  split
  refine Ends.ite ?_ ?_
  (extract_lets +onlyGivenNames x; refine Ends.cut (x := x) (s := s0) ?_ (fun _ => ?_) <;> [subst x; clear_value x])
  refine Ends.projL ?_
  refine State_logTxn_keeps ?_
  assumption
  (extract_lets +onlyGivenNames x; refine Ends.cut (x := x) (s := s0) ?_ (fun _ => ?_) <;> [subst x; clear_value x])
  split
  refine State_putNs_keeps ?_
  assumption
  assumption
  (extract_lets +onlyGivenNames x; clear_value x)
  refine Ends.next ?_
  refine State_settle_keeps ?_
  split
  refine State_setSess_keeps ?_
  assumption
  assumption
  refine Ends.next ?_
  refine State_settle_keeps ?_
  refine State_withMsg_keeps ?_ ?_
  assumption
  intros
  split
  refine Ends.ite ?_ ?_
  assumption
  split
  refine Ends.ite ?_ ?_
  refine State_setSess_keeps ?_
  assumption
  refine State_abandonBatch_keeps ?_
  assumption
  refine State_abandonBatch_keeps ?_
  assumption
  assumption
  refine Ends.next ?_
  refine State_settle_keeps ?_
  refine State_withMsg_keeps ?_ ?_
  assumption
  intros
  assumption

theorem execMapupd_keeps {s0 : State} {a0 : ChlHdr} {a1 : MapChange} {a2 : ℕ} {s : State} (h : Ok s0 s) : Ends (fun r : Host.Outcome State Fault Refusal => ∀ t, r = .next t → Keeps s0 t) (execMapupd a0 a1 a2 s) := by
  unfold execMapupd
  refine Ends.next ?_
  refine State_settle_keeps ?_
  refine State_chlMsg_keeps ?_
  assumption

theorem execMgmtRole_keeps {s0 : State} {a0 : MgmtHdr} {a1 : RoleEnv} {a2 : RoleBody} {s : State} (h : Ok s0 s) : Ends (fun r : Host.Outcome State Fault Refusal => ∀ t, r = .next t → Keeps s0 t) (execMgmtRole a0 a1 a2 s) := by
  unfold execMgmtRole
  refine Ends.next ?_
  refine State_settle_keeps ?_
  refine State_mgmtRole_keeps ?_
  assumption

theorem execModEnLow_keeps {s0 : State} {s : State} (h : Ok s0 s) : Ends (fun r : Host.Outcome State Fault Refusal => ∀ t, r = .next t → Keeps s0 t) (execModEnLow s) := by
  unfold execModEnLow
  refine Ends.next ?_
  refine State_powerWarn_keeps ?_
  refine Ends.upd ?_
  assumption

theorem execModEnRise_keeps {s0 : State} {s : State} (h : Ok s0 s) : Ends (fun r : Host.Outcome State Fault Refusal => ∀ t, r = .next t → Keeps s0 t) (execModEnRise s) := by
  unfold execModEnRise
  refine Ends.next ?_
  refine State_tryConverter_keeps ?_
  refine Ends.upd ?_
  assumption

theorem execNamespaceAttachment_keeps {s0 : State} {a0 : Cap} {a1 : Bool} {a2 : List ℕ} {s : State} (h : Ok s0 s) : Ends (fun r : Host.Outcome State Fault Refusal => ∀ t, r = .next t → Keeps s0 t) (execNamespaceAttachment a0 a1 a2 s) := by
  unfold execNamespaceAttachment
  refine Ends.next ?_
  refine State_settle_keeps ?_
  refine State_adminCmd_keeps ?_
  assumption

theorem execNamespaceManagement_keeps {s0 : State} {a0 : Cap} {a1 : Bool} {a2 : Bool} {a3 : ℕ} {a4 : ℕ} {a5 : Bool} {s : State} (h : Ok s0 s) : Ends (fun r : Host.Outcome State Fault Refusal => ∀ t, r = .next t → Keeps s0 t) (execNamespaceManagement a0 a1 a2 a3 a4 a5 s) := by
  unfold execNamespaceManagement
  refine Ends.next ?_
  refine State_settle_keeps ?_
  refine State_adminCmd_keeps ?_
  assumption

theorem execNeed_keeps {s0 : State} {a0 : ℕ} {a1 : ℕ} {s : State} (h : Ok s0 s) : Ends (fun r : Host.Outcome State Fault Refusal => ∀ t, r = .next t → Keeps s0 t) (execNeed a0 a1 s) := by
  unfold execNeed
  refine Ends.next ?_
  refine State_settle_keeps ?_
  refine State_withMsg_keeps ?_ ?_
  assumption
  intros
  split
  refine Ends.ite ?_ ?_
  assumption
  (extract_lets +onlyGivenNames x; clear_value x)
  refine State_fetchNeeded_keeps ?_
  assumption
  assumption

theorem execNorWindowOpen_keeps {s0 : State} {s : State} (h : Ok s0 s) : Ends (fun r : Host.Outcome State Fault Refusal => ∀ t, r = .next t → Keeps s0 t) (execNorWindowOpen s) := by
  unfold execNorWindowOpen
  refine Ends.next ?_
  refine State_settle_keeps ?_
  refine State_norFlush_keeps ?_
  assumption

theorem execNotice_keeps {s0 : State} {a0 : ChlHdr} {a1 : ℕ} {s : State} (h : Ok s0 s) : Ends (fun r : Host.Outcome State Fault Refusal => ∀ t, r = .next t → Keeps s0 t) (execNotice a0 a1 s) := by
  unfold execNotice
  refine Ends.next ?_
  refine State_settle_keeps ?_
  refine State_chlMsg_keeps ?_
  assumption

theorem execNsCreate_keeps {s0 : State} {a0 : Via} {a1 : RoleEnv} {a2 : Bool} {a3 : ℕ} {a4 : ℕ} {a5 : Bool} {s : State} (h : Ok s0 s) : Ends (fun r : Host.Outcome State Fault Refusal => ∀ t, r = .next t → Keeps s0 t) (execNsCreate a0 a1 a2 a3 a4 a5 s) := by
  unfold execNsCreate
  refine Ends.next ?_
  refine State_roleArrive_keeps ?_
  assumption

theorem execNsDelete_keeps {s0 : State} {a0 : Via} {a1 : RoleEnv} {a2 : ℕ} {s : State} (h : Ok s0 s) : Ends (fun r : Host.Outcome State Fault Refusal => ∀ t, r = .next t → Keeps s0 t) (execNsDelete a0 a1 a2 s) := by
  unfold execNsDelete
  refine Ends.next ?_
  refine State_roleArrive_keeps ?_
  assumption

theorem execNsDisable_keeps {s0 : State} {a0 : Via} {a1 : RoleEnv} {a2 : ℕ} {s : State} (h : Ok s0 s) : Ends (fun r : Host.Outcome State Fault Refusal => ∀ t, r = .next t → Keeps s0 t) (execNsDisable a0 a1 a2 s) := by
  unfold execNsDisable
  refine Ends.next ?_
  refine State_roleArrive_keeps ?_
  assumption

theorem execNsEnable_keeps {s0 : State} {a0 : Via} {a1 : RoleEnv} {a2 : ℕ} {s : State} (h : Ok s0 s) : Ends (fun r : Host.Outcome State Fault Refusal => ∀ t, r = .next t → Keeps s0 t) (execNsEnable a0 a1 a2 s) := by
  unfold execNsEnable
  refine Ends.next ?_
  refine State_roleArrive_keeps ?_
  assumption

theorem execNsRemovalComplete_keeps {s0 : State} {a0 : ℕ} {s : State} (h : Ok s0 s) : Ends (fun r : Host.Outcome State Fault Refusal => ∀ t, r = .next t → Keeps s0 t) (execNsRemovalComplete a0 s) := by
  unfold execNsRemovalComplete
  refine Ends.next ?_
  refine State_settle_keeps ?_
  refine Ends.fold ?_ (fun _ _ _ => ?_)
  assumption
  refine Ends.ite ?_ ?_
  assumption
  split
  refine State_endRemoval_keeps ?_
  assumption
  refine State_endDetach_keeps ?_
  assumption

theorem execNsRemovalTimeout_keeps {s0 : State} {a0 : ℕ} {s : State} (h : Ok s0 s) : Ends (fun r : Host.Outcome State Fault Refusal => ∀ t, r = .next t → Keeps s0 t) (execNsRemovalTimeout a0 s) := by
  unfold execNsRemovalTimeout
  refine Ends.next ?_
  refine State_settle_keeps ?_
  refine Ends.fold ?_ (fun _ _ _ => ?_)
  assumption
  refine Ends.ite ?_ ?_
  assumption
  refine Ends.fold ?_ (fun _ _ _ => ?_)
  assumption
  refine State_failCmd_keeps ?_
  assumption

theorem execOpStarved_keeps {s0 : State} {a0 : ℕ} {a1 : ℕ} {s : State} (h : Ok s0 s) : Ends (fun r : Host.Outcome State Fault Refusal => ∀ t, r = .next t → Keeps s0 t) (execOpStarved a0 a1 s) := by
  unfold execOpStarved
  (extract_lets +onlyGivenNames x; clear_value x)
  (extract_lets +onlyGivenNames x; clear_value x)
  (extract_lets +onlyGivenNames x; clear_value x)
  (extract_lets +onlyGivenNames x; clear_value x)
  refine Ends.ite ?_ ?_
  refine Ends.next ?_
  assumption
  (extract_lets +onlyGivenNames x; subst x)
  (extract_lets +onlyGivenNames x; refine Ends.cut (x := x) (s := s0) ?_ (fun _ => ?_) <;> [subst x; clear_value x])
  refine Ends.upd ?_
  assumption
  refine Ends.next ?_
  refine State_settle_keeps ?_
  refine State_protect_keeps ?_
  assumption

theorem execOpkeys_keeps {s0 : State} {a0 : ℕ} {s : State} (h : Ok s0 s) : Ends (fun r : Host.Outcome State Fault Refusal => ∀ t, r = .next t → Keeps s0 t) (execOpkeys a0 s) := by
  unfold execOpkeys
  split
  refine Ends.ite ?_ ?_
  refine Ends.next ?_
  refine State_takeMb_keeps (by assumption) ?_
  assumption
  (extract_lets +onlyGivenNames x; clear_value x)
  (extract_lets +onlyGivenNames x; clear_value x)
  refine Ends.next ?_
  refine State_opkeyValid_keeps ?_
  refine Ends.upd ?_
  refine State_takeMb_keeps (by assumption) ?_
  assumption
  refine Ends.next ?_
  assumption

theorem execOrdDelete_keeps {s0 : State} {a0 : Bool} {a1 : ℕ} {a2 : ℕ} {a3 : ℕ} {s : State} (h : Ok s0 s) : Ends (fun r : Host.Outcome State Fault Refusal => ∀ t, r = .next t → Keeps s0 t) (execOrdDelete a0 a1 a2 a3 s) := by
  unfold execOrdDelete
  refine Ends.next ?_
  refine State_csaAsk_keeps ?_ ?_
  assumption
  intros
  refine State_csaOrdDelete_keeps ?_
  assumption

theorem execOrdInsert_keeps {s0 : State} {a0 : Bool} {a1 : ℕ} {a2 : ℕ} {a3 : ℕ} {a4 : ℕ} {s : State} (h : Ok s0 s) : Ends (fun r : Host.Outcome State Fault Refusal => ∀ t, r = .next t → Keeps s0 t) (execOrdInsert a0 a1 a2 a3 a4 s) := by
  unfold execOrdInsert
  refine Ends.next ?_
  refine State_csaAsk_keeps ?_ ?_
  assumption
  intros
  refine Ends.projL ?_
  refine State_csaOrdInsert_keeps ?_
  assumption

theorem execPackClose_keeps {s0 : State} {a0 : ℕ} {s : State} (h : Ok s0 s) : Ends (fun r : Host.Outcome State Fault Refusal => ∀ t, r = .next t → Keeps s0 t) (execPackClose a0 s) := by
  unfold execPackClose
  split
  refine Ends.next ?_
  assumption
  (extract_lets +onlyGivenNames x; clear_value x)
  (extract_lets +onlyGivenNames x; clear_value x)
  refine Ends.ite ?_ ?_
  refine Ends.next ?_
  refine State_settle_keeps ?_
  refine State_closePack_keeps ?_
  assumption
  refine Ends.next ?_
  assumption

theorem execPackCompressDone_keeps {s0 : State} {a0 : ℕ} {s : State} (h : Ok s0 s) : Ends (fun r : Host.Outcome State Fault Refusal => ∀ t, r = .next t → Keeps s0 t) (execPackCompressDone a0 s) := by
  unfold execPackCompressDone
  (extract_lets +onlyGivenNames x; refine Ends.cut (x := x) (s := s0) ?_ (fun _ => ?_) <;> [subst x; clear_value x])
  refine State_startLanes_keeps ?_
  assumption
  split
  refine Ends.ite ?_ ?_
  split
  (extract_lets +onlyGivenNames x; refine Ends.cut (x := x) (s := s0) ?_ (fun _ => ?_) <;> [subst x; clear_value x])
  refine State_addFld_keeps ?_
  refine State_addFld_keeps ?_
  refine State_leaveLane_keeps ?_
  assumption
  refine Ends.next ?_
  refine State_settle_keeps ?_
  refine State_setPack_keeps ?_
  assumption
  refine Ends.next ?_
  assumption
  refine Ends.next ?_
  assumption

theorem execPackDecryptDone_keeps {s0 : State} {a0 : Bool} {a1 : ℕ} {s : State} (h : Ok s0 s) : Ends (fun r : Host.Outcome State Fault Refusal => ∀ t, r = .next t → Keeps s0 t) (execPackDecryptDone a0 a1 s) := by
  unfold execPackDecryptDone
  (extract_lets +onlyGivenNames x; refine Ends.cut (x := x) (s := s0) ?_ (fun _ => ?_) <;> [subst x; clear_value x])
  refine State_startLanes_keeps ?_
  assumption
  refine Ends.next ?_
  refine State_settle_keeps ?_
  refine Ends.ite ?_ ?_
  refine State_copyDecrypted_keeps ?_
  assumption
  refine State_readDecrypted_keeps ?_
  assumption

theorem execPackEncryptDone_keeps {s0 : State} {a0 : ℕ} {s : State} (h : Ok s0 s) : Ends (fun r : Host.Outcome State Fault Refusal => ∀ t, r = .next t → Keeps s0 t) (execPackEncryptDone a0 s) := by
  unfold execPackEncryptDone
  (extract_lets +onlyGivenNames x; refine Ends.cut (x := x) (s := s0) ?_ (fun _ => ?_) <;> [subst x; clear_value x])
  refine State_startLanes_keeps ?_
  assumption
  split
  refine Ends.ite ?_ ?_
  refine Ends.next ?_
  assumption
  (extract_lets +onlyGivenNames x; clear_value x)
  split
  refine Ends.next ?_
  refine State_settle_keeps ?_
  refine State_leaveLane_keeps ?_
  assumption
  (extract_lets +onlyGivenNames x; clear_value x)
  (extract_lets +onlyGivenNames x; clear_value x)
  (extract_lets +onlyGivenNames x; clear_value x)
  refine Ends.next ?_
  refine State_settle_keeps ?_
  refine State_placePack_keeps ?_
  refine State_setPack_keeps ?_
  refine State_leaveLane_keeps ?_
  refine State_useXts_keeps (by assumption) ?_
  assumption
  refine Ends.next ?_
  assumption

theorem execPackFlushTimeout_keeps {s0 : State} {a0 : ℕ} {s : State} (h : Ok s0 s) : Ends (fun r : Host.Outcome State Fault Refusal => ∀ t, r = .next t → Keeps s0 t) (execPackFlushTimeout a0 s) := by
  unfold execPackFlushTimeout
  split
  refine Ends.next ?_
  assumption
  refine Ends.ite ?_ ?_
  refine Ends.next ?_
  refine State_settle_keeps ?_
  refine State_closePack_keeps ?_
  assumption
  refine Ends.next ?_
  assumption

theorem execPackInflateDone_keeps {s0 : State} {a0 : ℕ} {s : State} (h : Ok s0 s) : Ends (fun r : Host.Outcome State Fault Refusal => ∀ t, r = .next t → Keeps s0 t) (execPackInflateDone a0 s) := by
  unfold execPackInflateDone
  (extract_lets +onlyGivenNames x; refine Ends.cut (x := x) (s := s0) ?_ (fun _ => ?_) <;> [subst x; clear_value x])
  refine State_startLanes_keeps ?_
  assumption
  split
  split
  (extract_lets +onlyGivenNames x; clear_value x)
  (extract_lets +onlyGivenNames x; refine Ends.cut (x := x) (s := s0) ?_ (fun _ => ?_) <;> [subst x; clear_value x])
  refine State_leaveLane_keeps ?_
  assumption
  split
  refine Ends.ite ?_ ?_
  refine Ends.next ?_
  refine State_settle_keeps ?_
  refine State_packBad_keeps ?_
  refine State_addFld_keeps ?_
  assumption
  refine Ends.ite ?_ ?_
  refine Ends.next ?_
  refine State_settle_keeps ?_
  refine State_packBad_keeps ?_
  refine State_addFld_keeps ?_
  assumption
  refine Ends.next ?_
  refine State_settle_keeps ?_
  refine State_packServe_keeps ?_
  assumption
  refine Ends.next ?_
  refine State_settle_keeps ?_
  refine State_packBad_keeps ?_
  refine State_addFld_keeps ?_
  assumption
  refine Ends.next ?_
  assumption
  refine Ends.next ?_
  assumption

theorem execPairStart_keeps {s0 : State} {s : State} (h : Ok s0 s) : Ends (fun r : Host.Outcome State Fault Refusal => ∀ t, r = .next t → Keeps s0 t) (execPairStart s) := by
  unfold execPairStart
  refine Ends.ite ?_ ?_
  (extract_lets +onlyGivenNames x; refine Ends.cut (x := x) (s := s0) ?_ (fun _ => ?_) <;> [subst x; clear_value x])
  refine Ends.ite ?_ ?_
  assumption
  refine State_alignTime_keeps ?_
  assumption
  refine Ends.next ?_
  refine State_settle_keeps ?_
  refine Ends.ite ?_ ?_
  refine State_startClaim_keeps ?_
  assumption
  assumption
  refine Ends.next ?_
  assumption

theorem execParLostClear_keeps {s0 : State} {a0 : Word} {s : State} (h : Ok s0 s) : Ends (fun r : Host.Outcome State Fault Refusal => ∀ t, r = .next t → Keeps s0 t) (execParLostClear a0 s) := by
  unfold execParLostClear
  refine Ends.ite ?_ ?_
  refine Ends.next ?_
  refine State_settle_keeps ?_
  refine State_clearLost_keeps ?_
  assumption
  refine Ends.next ?_
  assumption

theorem execParLostDeclare_keeps {s0 : State} {a0 : Word} {s : State} (h : Ok s0 s) : Ends (fun r : Host.Outcome State Fault Refusal => ∀ t, r = .next t → Keeps s0 t) (execParLostDeclare a0 s) := by
  unfold execParLostDeclare
  refine Ends.ite ?_ ?_
  refine Ends.next ?_
  refine State_settle_keeps ?_
  refine State_declareLost_keeps ?_
  assumption
  refine Ends.next ?_
  assumption

theorem execPartnerSilence_keeps {s0 : State} {s : State} (h : Ok s0 s) : Ends (fun r : Host.Outcome State Fault Refusal => ∀ t, r = .next t → Keeps s0 t) (execPartnerSilence s) := by
  unfold execPartnerSilence
  refine Ends.ite ?_ ?_
  (extract_lets +onlyGivenNames x; subst x)
  (extract_lets +onlyGivenNames x; refine Ends.cut (x := x) (s := s0) ?_ (fun _ => ?_) <;> [subst x; clear_value x])
  refine Ends.upd ?_
  assumption
  refine Ends.next ?_
  refine State_tell_keeps ?_
  assumption
  refine Ends.next ?_
  assumption

theorem execPartnerTimeTimeout_keeps {s0 : State} {s : State} (h : Ok s0 s) : Ends (fun r : Host.Outcome State Fault Refusal => ∀ t, r = .next t → Keeps s0 t) (execPartnerTimeTimeout s) := by
  unfold execPartnerTimeTimeout
  refine Ends.ite ?_ ?_
  refine Ends.next ?_
  refine State_event_keeps ?_
  refine State_selectSource_keeps ?_
  refine Ends.upd ?_
  assumption
  refine Ends.next ?_
  assumption

theorem execPathQuarantineEnd_keeps {s0 : State} {a0 : ℕ} {a1 : ℕ} {a2 : ℕ} {s : State} (h : Ok s0 s) : Ends (fun r : Host.Outcome State Fault Refusal => ∀ t, r = .next t → Keeps s0 t) (execPathQuarantineEnd a0 a1 a2 s) := by
  unfold execPathQuarantineEnd
  (extract_lets +onlyGivenNames x; clear_value x)
  split
  refine Ends.next ?_
  assumption
  split
  refine Ends.ite ?_ ?_
  refine Ends.next ?_
  refine State_setSess_keeps ?_
  assumption
  refine Ends.next ?_
  assumption
  refine Ends.next ?_
  assumption

theorem execPauseExpiry_keeps {s0 : State} {a0 : ℕ} {a1 : ℕ} {s : State} (h : Ok s0 s) : Ends (fun r : Host.Outcome State Fault Refusal => ∀ t, r = .next t → Keeps s0 t) (execPauseExpiry a0 a1 s) := by
  unfold execPauseExpiry
  (extract_lets +onlyGivenNames x; clear_value x)
  split
  refine Ends.ite ?_ ?_
  refine Ends.next ?_
  refine State_setHold_keeps ?_
  assumption
  refine Ends.next ?_
  assumption
  refine Ends.next ?_
  assumption

theorem execPauseFrame_keeps {s0 : State} {a0 : ℕ} {a1 : ℕ} {a2 : List (ℕ × ℕ)} {s : State} (h : Ok s0 s) : Ends (fun r : Host.Outcome State Fault Refusal => ∀ t, r = .next t → Keeps s0 t) (execPauseFrame a0 a1 a2 s) := by
  unfold execPauseFrame
  refine Ends.ite ?_ ?_
  refine Ends.next ?_
  refine State_pauseFrame_keeps ?_
  assumption
  refine Ends.next ?_
  assumption

theorem execPauseStorm_keeps {s0 : State} {a0 : ℕ} {a1 : ℕ} {s : State} (h : Ok s0 s) : Ends (fun r : Host.Outcome State Fault Refusal => ∀ t, r = .next t → Keeps s0 t) (execPauseStorm a0 a1 s) := by
  unfold execPauseStorm
  (extract_lets +onlyGivenNames x; clear_value x)
  (extract_lets +onlyGivenNames x; clear_value x)
  split
  refine Ends.ite ?_ ?_
  (extract_lets +onlyGivenNames x; refine Ends.cut (x := x) (s := s0) ?_ (fun _ => ?_) <;> [subst x; clear_value x])
  refine State_setHold_keeps ?_
  assumption
  (extract_lets +onlyGivenNames x; clear_value x)
  refine Ends.next ?_
  refine State_event_keeps ?_
  refine State_setFport_keeps ?_
  assumption
  refine Ends.next ?_
  assumption
  refine Ends.next ?_
  assumption

theorem execPauseStormEnd_keeps {s0 : State} {a0 : ℕ} {a1 : ℕ} {s : State} (h : Ok s0 s) : Ends (fun r : Host.Outcome State Fault Refusal => ∀ t, r = .next t → Keeps s0 t) (execPauseStormEnd a0 a1 s) := by
  unfold execPauseStormEnd
  (extract_lets +onlyGivenNames x; clear_value x)
  split
  refine Ends.ite ?_ ?_
  refine Ends.next ?_
  refine State_setFport_keeps ?_
  assumption
  refine Ends.next ?_
  assumption
  refine Ends.next ?_
  assumption

theorem execPfWarn_keeps {s0 : State} {s : State} (h : Ok s0 s) : Ends (fun r : Host.Outcome State Fault Refusal => ∀ t, r = .next t → Keeps s0 t) (execPfWarn s) := by
  unfold execPfWarn
  (extract_lets +onlyGivenNames x; subst x)
  (extract_lets +onlyGivenNames x; refine Ends.cut (x := x) (s := s0) ?_ (fun _ => ?_) <;> [subst x; clear_value x])
  refine Ends.upd ?_
  assumption
  refine Ends.ite ?_ ?_
  refine Ends.next ?_
  refine State_powerWarn_keeps ?_
  assumption
  refine Ends.next ?_
  assumption

theorem execPfcRefresh_keeps {s0 : State} {a0 : ℕ} {s : State} (h : Ok s0 s) : Ends (fun r : Host.Outcome State Fault Refusal => ∀ t, r = .next t → Keeps s0 t) (execPfcRefresh a0 s) := by
  unfold execPfcRefresh
  (extract_lets +onlyGivenNames x; clear_value x)
  split
  refine Ends.ite ?_ ?_
  refine Ends.next ?_
  refine State_sendPause_keeps ?_
  refine State_setFport_keeps ?_
  assumption
  refine Ends.next ?_
  assumption
  refine Ends.next ?_
  assumption

theorem execPgtNackTimeout_keeps {s0 : State} {a0 : ℕ} {a1 : ℕ} {a2 : ℕ} {s : State} (h : Ok s0 s) : Ends (fun r : Host.Outcome State Fault Refusal => ∀ t, r = .next t → Keeps s0 t) (execPgtNackTimeout a0 a1 a2 s) := by
  unfold execPgtNackTimeout
  (extract_lets +onlyGivenNames x; clear_value x)
  split
  refine Ends.ite ?_ ?_
  refine Ends.next ?_
  refine State_sendPgNack_keeps ?_
  assumption
  refine Ends.next ?_
  assumption
  refine Ends.next ?_
  assumption

theorem execPgtRto_keeps {s0 : State} {a0 : ℕ} {a1 : ℕ} {a2 : ℕ} {s : State} (h : Ok s0 s) : Ends (fun r : Host.Outcome State Fault Refusal => ∀ t, r = .next t → Keeps s0 t) (execPgtRto a0 a1 a2 s) := by
  unfold execPgtRto
  refine Ends.next ?_
  refine State_pgRto_keeps ?_
  assumption

theorem execPowerHoldExit_keeps {s0 : State} {a0 : ℕ} {a1 : Bool} {a2 : Bool} {s : State} (h : Ok s0 s) : Ends (fun r : Host.Outcome State Fault Refusal => ∀ t, r = .next t → Keeps s0 t) (execPowerHoldExit a0 a1 a2 s) := by
  unfold execPowerHoldExit
  (extract_lets +onlyGivenNames x; subst x)
  (extract_lets +onlyGivenNames x; refine Ends.cut (x := x) (s := s0) ?_ (fun _ => ?_) <;> [subst x; clear_value x])
  refine Ends.upd ?_
  assumption
  refine Ends.ite ?_ ?_
  (extract_lets +onlyGivenNames x; refine Ends.cut (x := x) (s := s0) ?_ (fun _ => ?_) <;> [subst x; clear_value x])
  refine State_headReset_keeps ?_
  assumption
  refine Ends.next ?_
  refine Ends.upd ?_
  assumption
  refine Ends.next ?_
  assumption

theorem execPpsInEdge_keeps {s0 : State} {s : State} (h : Ok s0 s) : Ends (fun r : Host.Outcome State Fault Refusal => ∀ t, r = .next t → Keeps s0 t) (execPpsInEdge s) := by
  unfold execPpsInEdge
  (extract_lets +onlyGivenNames x; clear_value x)
  (extract_lets +onlyGivenNames x; clear_value x)
  (extract_lets +onlyGivenNames x; subst x)
  (extract_lets +onlyGivenNames x; refine Ends.cut (x := x) (s := s0) ?_ (fun _ => ?_) <;> [subst x; clear_value x])
  refine Ends.upd ?_
  assumption
  refine Ends.ite ?_ ?_
  refine Ends.next ?_
  refine State_sample_keeps ?_
  assumption
  refine Ends.next ?_
  refine State_event_keeps ?_
  refine State_rejectSample_keeps ?_
  assumption

theorem execPpsOutEdge_keeps {s0 : State} {s : State} (h : Ok s0 s) : Ends (fun r : Host.Outcome State Fault Refusal => ∀ t, r = .next t → Keeps s0 t) (execPpsOutEdge s) := by
  unfold execPpsOutEdge
  refine Ends.ite ?_ ?_
  refine Ends.next ?_
  refine State_emit_keeps ?_
  assumption
  refine Ends.next ?_
  assumption

theorem execProbeTimeout_keeps {s0 : State} {a0 : ℕ} {s : State} (h : Ok s0 s) : Ends (fun r : Host.Outcome State Fault Refusal => ∀ t, r = .next t → Keeps s0 t) (execProbeTimeout a0 s) := by
  unfold execProbeTimeout
  split
  split
  refine Ends.ite ?_ ?_
  refine Ends.next ?_
  assumption
  refine Ends.ite ?_ ?_
  refine Ends.next ?_
  refine State_settle_keeps ?_
  refine State_qpFail_keeps ?_
  assumption
  refine Ends.next ?_
  refine State_sendPkt_keeps ?_
  refine State_setQp_keeps ?_
  assumption
  refine Ends.next ?_
  assumption
  refine Ends.next ?_
  assumption

theorem execProgressLog_keeps {s0 : State} {a0 : ℕ} {a1 : ℕ} {a2 : ℕ} {s : State} (h : Ok s0 s) : Ends (fun r : Host.Outcome State Fault Refusal => ∀ t, r = .next t → Keeps s0 t) (execProgressLog a0 a1 a2 s) := by
  unfold execProgressLog
  split
  split
  (extract_lets +onlyGivenNames x; clear_value x)
  refine Ends.next ?_
  refine State_settle_keeps ?_
  refine State_log_keeps ?_
  refine Ends.upd ?_
  assumption
  refine Ends.next ?_
  assumption
  split
  refine Ends.ite ?_ ?_
  (extract_lets +onlyGivenNames x; clear_value x)
  refine Ends.next ?_
  refine State_settle_keeps ?_
  refine State_log_keeps ?_
  refine State_setNs_keeps ?_
  assumption
  refine Ends.next ?_
  assumption
  refine Ends.next ?_
  assumption

theorem execPronghornAck_keeps {s0 : State} {a0 : ℕ} {s : State} (h : Ok s0 s) : Ends (fun r : Host.Outcome State Fault Refusal => ∀ t, r = .next t → Keeps s0 t) (execPronghornAck a0 s) := by
  unfold execPronghornAck
  refine Ends.next ?_
  refine State_withPacket_keeps ?_ ?_
  assumption
  intros
  refine State_pgAck_keeps ?_
  assumption

theorem execPronghornData_keeps {s0 : State} {a0 : ℕ} {s : State} (h : Ok s0 s) : Ends (fun r : Host.Outcome State Fault Refusal => ∀ t, r = .next t → Keeps s0 t) (execPronghornData a0 s) := by
  unfold execPronghornData
  refine Ends.next ?_
  refine State_withPacket_keeps ?_ ?_
  assumption
  intros
  refine State_pgData_keeps ?_
  assumption

theorem execPronghornNack_keeps {s0 : State} {a0 : ℕ} {s : State} (h : Ok s0 s) : Ends (fun r : Host.Outcome State Fault Refusal => ∀ t, r = .next t → Keeps s0 t) (execPronghornNack a0 s) := by
  unfold execPronghornNack
  refine Ends.next ?_
  refine State_withPacket_keeps ?_ ?_
  assumption
  intros
  refine State_pgNack_keeps ?_
  assumption

theorem execPronghornProbe_keeps {s0 : State} {a0 : ℕ} {s : State} (h : Ok s0 s) : Ends (fun r : Host.Outcome State Fault Refusal => ∀ t, r = .next t → Keeps s0 t) (execPronghornProbe a0 s) := by
  unfold execPronghornProbe
  refine Ends.next ?_
  refine State_withPacket_keeps ?_ ?_
  assumption
  intros
  assumption

theorem execPropertyGet_keeps {s0 : State} {a0 : Cap} {a1 : ℕ} {s : State} (h : Ok s0 s) : Ends (fun r : Host.Outcome State Fault Refusal => ∀ t, r = .next t → Keeps s0 t) (execPropertyGet a0 a1 s) := by
  unfold execPropertyGet
  refine Ends.next ?_
  refine State_settle_keeps ?_
  refine State_adminCmd_keeps ?_
  assumption

theorem execPropertySet_keeps {s0 : State} {a0 : Cap} {a1 : ℕ} {a2 : ℕ} {s : State} (h : Ok s0 s) : Ends (fun r : Host.Outcome State Fault Refusal => ∀ t, r = .next t → Keeps s0 t) (execPropertySet a0 a1 a2 s) := by
  unfold execPropertySet
  refine Ends.next ?_
  refine State_settle_keeps ?_
  refine State_adminCmd_keeps ?_
  assumption

theorem execPtpAnnounce_keeps {s0 : State} {a0 : PtpDs} {a1 : ℕ} {s : State} (h : Ok s0 s) : Ends (fun r : Host.Outcome State Fault Refusal => ∀ t, r = .next t → Keeps s0 t) (execPtpAnnounce a0 a1 s) := by
  unfold execPtpAnnounce
  (extract_lets +onlyGivenNames x; subst x)
  (extract_lets +onlyGivenNames x; refine Ends.cut (x := x) (s := s0) ?_ (fun _ => ?_) <;> [subst x; clear_value x])
  refine Ends.upd ?_
  assumption
  split
  refine Ends.next ?_
  assumption
  refine Ends.ite ?_ ?_
  refine Ends.next ?_
  assumption
  refine Ends.ite ?_ ?_
  refine Ends.next ?_
  refine State_event_keeps ?_
  assumption
  refine Ends.next ?_
  assumption

theorem execPtpDelayResp_keeps {s0 : State} {a0 : ℕ} {s : State} (h : Ok s0 s) : Ends (fun r : Host.Outcome State Fault Refusal => ∀ t, r = .next t → Keeps s0 t) (execPtpDelayResp a0 s) := by
  unfold execPtpDelayResp
  split
  (extract_lets +onlyGivenNames x; clear_value x)
  refine Ends.next ?_
  refine Ends.upd ?_
  assumption
  refine Ends.next ?_
  assumption

theorem execPtpSyncSample_keeps {s0 : State} {a0 : ℕ} {a1 : Bool} {a2 : Bool} {s : State} (h : Ok s0 s) : Ends (fun r : Host.Outcome State Fault Refusal => ∀ t, r = .next t → Keeps s0 t) (execPtpSyncSample a0 a1 a2 s) := by
  unfold execPtpSyncSample
  refine Ends.ite ?_ ?_
  refine Ends.next ?_
  assumption
  (extract_lets +onlyGivenNames x; clear_value x)
  (extract_lets +onlyGivenNames x; subst x)
  (extract_lets +onlyGivenNames x; refine Ends.cut (x := x) (s := s0) ?_ (fun _ => ?_) <;> [subst x; clear_value x])
  refine Ends.upd ?_
  assumption
  split
  refine Ends.next ?_
  assumption
  refine Ends.next ?_
  refine State_sample_keeps ?_
  assumption

theorem execPwrRstDomain_keeps {s0 : State} {a0 : Word} {s : State} (h : Ok s0 s) : Ends (fun r : Host.Outcome State Fault Refusal => ∀ t, r = .next t → Keeps s0 t) (execPwrRstDomain a0 s) := by
  unfold execPwrRstDomain
  refine Ends.ite ?_ ?_
  refine Ends.next ?_
  assumption
  refine Ends.ite ?_ ?_
  refine Ends.next ?_
  refine State_requestReset_keeps ?_
  assumption
  refine Ends.ite ?_ ?_
  refine Ends.next ?_
  assumption
  split
  refine Ends.next ?_
  refine Ends.fold ?_ (fun _ _ _ => ?_)
  assumption
  refine State_resetDie_keeps ?_
  assumption
  refine Ends.next ?_
  refine Ends.fold ?_ (fun _ _ _ => ?_)
  assumption
  refine State_resetDie_keeps ?_
  assumption
  refine Ends.next ?_
  refine Ends.fold ?_ (fun _ _ _ => ?_)
  assumption
  refine State_resetDie_keeps ?_
  assumption
  refine Ends.next ?_
  refine State_requestReset_keeps ?_
  assumption

theorem execPwrRstHead_keeps {s0 : State} {a0 : Word} {s : State} (h : Ok s0 s) : Ends (fun r : Host.Outcome State Fault Refusal => ∀ t, r = .next t → Keeps s0 t) (execPwrRstHead a0 s) := by
  unfold execPwrRstHead
  refine Ends.ite ?_ ?_
  refine Ends.next ?_
  refine State_requestReset_keeps ?_
  assumption
  refine Ends.next ?_
  assumption

theorem execQpCreate_keeps {s0 : State} {a0 : ℕ} {a1 : ℕ} {s : State} (h : Ok s0 s) : Ends (fun r : Host.Outcome State Fault Refusal => ∀ t, r = .next t → Keeps s0 t) (execQpCreate a0 a1 s) := by
  unfold execQpCreate
  refine Ends.ite ?_ ?_
  refine Ends.next ?_
  refine State_qpCreate_keeps ?_
  assumption
  refine Ends.next ?_
  assumption

theorem execQpDestroy_keeps {s0 : State} {a0 : ℕ} {a1 : ℕ} {s : State} (h : Ok s0 s) : Ends (fun r : Host.Outcome State Fault Refusal => ∀ t, r = .next t → Keeps s0 t) (execQpDestroy a0 a1 s) := by
  unfold execQpDestroy
  refine Ends.ite ?_ ?_
  refine Ends.next ?_
  refine State_settle_keeps ?_
  refine State_qpDestroy_keeps ?_
  assumption
  refine Ends.next ?_
  assumption

theorem execQpMoveToError_keeps {s0 : State} {a0 : ℕ} {a1 : ℕ} {s : State} (h : Ok s0 s) : Ends (fun r : Host.Outcome State Fault Refusal => ∀ t, r = .next t → Keeps s0 t) (execQpMoveToError a0 a1 s) := by
  unfold execQpMoveToError
  refine Ends.ite ?_ ?_
  refine Ends.next ?_
  refine State_settle_keeps ?_
  refine State_qpToError_keeps ?_
  assumption
  refine Ends.next ?_
  assumption

theorem execQpReuseExpiry_keeps {s0 : State} {a0 : ℕ} {a1 : ℕ} {s : State} (h : Ok s0 s) : Ends (fun r : Host.Outcome State Fault Refusal => ∀ t, r = .next t → Keeps s0 t) (execQpReuseExpiry a0 a1 s) := by
  unfold execQpReuseExpiry
  (extract_lets +onlyGivenNames x; clear_value x)
  split
  refine Ends.ite ?_ ?_
  refine Ends.next ?_
  refine Ends.upd ?_
  assumption
  refine Ends.next ?_
  assumption
  refine Ends.next ?_
  assumption

theorem execRailFault_keeps {s0 : State} {s : State} (h : Ok s0 s) : Ends (fun r : Host.Outcome State Fault Refusal => ∀ t, r = .next t → Keeps s0 t) (execRailFault s) := by
  unfold execRailFault
  refine Ends.next ?_
  refine State_requestReset_keeps ?_
  refine State_setFlag_keeps ?_
  assumption

theorem execRdata_keeps {s0 : State} {a0 : SfbHdr} {a1 : ℕ} {a2 : ℕ} {a3 : ℕ} {a4 : Bytes} {s : State} (h : Ok s0 s) : Ends (fun r : Host.Outcome State Fault Refusal => ∀ t, r = .next t → Keeps s0 t) (execRdata a0 a1 a2 a3 a4 s) := by
  unfold execRdata
  refine Ends.next ?_
  refine State_settle_keeps ?_
  refine State_sfbMsg_keeps ?_
  assumption

theorem execRdmaReadResponse_keeps {s0 : State} {a0 : RoceHdr} {a1 : Bool} {a2 : Bool} {a3 : Bytes} {s : State} (h : Ok s0 s) : Ends (fun r : Host.Outcome State Fault Refusal => ∀ t, r = .next t → Keeps s0 t) (execRdmaReadResponse a0 a1 a2 a3 s) := by
  unfold execRdmaReadResponse
  refine Ends.next ?_
  refine State_settle_keeps ?_
  refine State_roceIn_keeps ?_
  assumption

theorem execRead_keeps {s0 : State} {a0 : Cap} {a1 : ℕ} {a2 : ℕ} {s : State} (h : Ok s0 s) : Ends (fun r : Host.Outcome State Fault Refusal => ∀ t, r = .next t → Keeps s0 t) (execRead a0 a1 a2 s) := by
  unfold execRead
  refine Ends.next ?_
  refine State_settle_keeps ?_
  refine State_ioCmd_keeps ?_
  assumption

theorem execReadPointNotice_keeps {s0 : State} {s : State} (h : Ok s0 s) : Ends (fun r : Host.Outcome State Fault Refusal => ∀ t, r = .next t → Keeps s0 t) (execReadPointNotice s) := by
  unfold execReadPointNotice
  refine Ends.ite ?_ ?_
  refine Ends.next ?_
  assumption
  (extract_lets +onlyGivenNames x; clear_value x)
  (extract_lets +onlyGivenNames x; clear_value x)
  refine Ends.next ?_
  refine Ends.projL ?_
  refine State_sendUpd_keeps ?_
  assumption

theorem execRebuildRateWindow_keeps {s0 : State} {s : State} (h : Ok s0 s) : Ends (fun r : Host.Outcome State Fault Refusal => ∀ t, r = .next t → Keeps s0 t) (execRebuildRateWindow s) := by
  unfold execRebuildRateWindow
  refine Ends.ite ?_ ?_
  refine Ends.next ?_
  assumption
  (extract_lets +onlyGivenNames x; clear_value x)
  (extract_lets +onlyGivenNames x; clear_value x)
  (extract_lets +onlyGivenNames x; clear_value x)
  (extract_lets +onlyGivenNames x; subst x)
  (extract_lets +onlyGivenNames x; refine Ends.cut (x := x) (s := s0) ?_ (fun _ => ?_) <;> [subst x; clear_value x])
  refine Ends.upd ?_
  assumption
  (extract_lets +onlyGivenNames x; refine Ends.cut (x := x) (s := s0) ?_ (fun _ => ?_) <;> [subst x; clear_value x])
  refine State_setFld_keeps ?_
  assumption
  refine Ends.next ?_
  refine Ends.ite ?_ ?_
  refine State_addFld_keeps ?_
  assumption
  assumption

theorem execRefclkLoss_keeps {s0 : State} {s : State} (h : Ok s0 s) : Ends (fun r : Host.Outcome State Fault Refusal => ∀ t, r = .next t → Keeps s0 t) (execRefclkLoss s) := by
  unfold execRefclkLoss
  refine Ends.next ?_
  refine State_requestReset_keeps ?_
  refine State_setFlag_keeps ?_
  refine Ends.upd ?_
  assumption

theorem execRegisterReadClear_keeps {s0 : State} {a0 : Requester} {a1 : ℕ} {a2 : ℕ} {a3 : Word} {s : State} (h : Ok s0 s) : Ends (fun r : Host.Outcome State Fault Refusal => ∀ t, r = .next t → Keeps s0 t) (execRegisterReadClear a0 a1 a2 a3 s) := by
  unfold execRegisterReadClear
  split
  refine Ends.next ?_
  refine State_emit_keeps ?_
  refine Ends.ofR (by assumption) ?_
  refine State_checkAccess_keeps ?_
  assumption
  split
  (extract_lets +onlyGivenNames x; refine Ends.cut (x := x) (s := s0) ?_ (fun _ => ?_) <;> [subst x; clear_value x])
  refine State_beforeRead_keeps ?_
  refine Ends.ofR (by assumption) ?_
  refine State_checkAccess_keeps ?_
  assumption
  (extract_lets +onlyGivenNames x; clear_value x)
  (extract_lets +onlyGivenNames x; refine Ends.cut (x := x) (s := s0) ?_ (fun _ => ?_) <;> [subst x; clear_value x])
  refine Ends.ite ?_ ?_
  refine State_clearRead_keeps ?_
  assumption
  assumption
  refine Ends.next ?_
  refine State_readDone_keeps ?_
  assumption
  refine Ends.next ?_
  refine Ends.ofR (by assumption) ?_
  refine State_checkAccess_keeps ?_
  assumption

theorem execRegisterWrite_keeps {s0 : State} {a0 : Requester} {a1 : ℕ} {a2 : ℕ} {a3 : Word} {a4 : Word} {s : State} (h : Ok s0 s) : Ends (fun r : Host.Outcome State Fault Refusal => ∀ t, r = .next t → Keeps s0 t) (execRegisterWrite a0 a1 a2 a3 a4 s) := by
  unfold execRegisterWrite
  split
  refine Ends.next ?_
  refine Ends.ofR (by assumption) ?_
  refine State_checkAccess_keeps ?_
  assumption
  split
  refine Ends.next ?_
  refine State_writeReg_keeps ?_
  refine Ends.ofR (by assumption) ?_
  refine State_checkAccess_keeps ?_
  assumption
  refine Ends.next ?_
  refine Ends.ofR (by assumption) ?_
  refine State_checkAccess_keeps ?_
  assumption

theorem execRejoinSync_keeps {s0 : State} {a0 : MediaImage} {s : State} (h : Ok s0 s) : Ends (fun r : Host.Outcome State Fault Refusal => ∀ t, r = .next t → Keeps s0 t) (execRejoinSync a0 s) := by
  unfold execRejoinSync
  refine Ends.ite ?_ ?_
  (extract_lets +onlyGivenNames x; clear_value x)
  (extract_lets +onlyGivenNames x; clear_value x)
  refine Ends.ite ?_ ?_
  refine Ends.next ?_
  refine State_settle_keeps ?_
  refine State_joinSync_keeps ?_
  assumption
  refine Ends.next ?_
  assumption
  refine Ends.next ?_
  refine State_settle_keeps ?_
  refine State_syncNext_keeps ?_
  assumption

theorem execRelease_keeps {s0 : State} {a0 : ChlHdr} {a1 : ℕ} {a2 : ℕ} {s : State} (h : Ok s0 s) : Ends (fun r : Host.Outcome State Fault Refusal => ∀ t, r = .next t → Keeps s0 t) (execRelease a0 a1 a2 s) := by
  unfold execRelease
  refine Ends.next ?_
  refine State_settle_keeps ?_
  refine State_chlMsg_keeps ?_
  assumption

theorem execRemoteLockTimeout_keeps {s0 : State} {a0 : ℕ} {s : State} (h : Ok s0 s) : Ends (fun r : Host.Outcome State Fault Refusal => ∀ t, r = .next t → Keeps s0 t) (execRemoteLockTimeout a0 s) := by
  unfold execRemoteLockTimeout
  split
  refine Ends.ite ?_ ?_
  refine Ends.next ?_
  refine Ends.upd ?_
  assumption
  refine Ends.next ?_
  assumption
  refine Ends.next ?_
  assumption

theorem execReorderTimeout_keeps {s0 : State} {a0 : ℕ} {s : State} (h : Ok s0 s) : Ends (fun r : Host.Outcome State Fault Refusal => ∀ t, r = .next t → Keeps s0 t) (execReorderTimeout a0 s) := by
  unfold execReorderTimeout
  split
  refine Ends.next ?_
  assumption
  (extract_lets +onlyGivenNames x; clear_value x)
  (extract_lets +onlyGivenNames x; clear_value x)
  (extract_lets +onlyGivenNames x; refine Ends.cut (x := x) (s := s0) ?_ (fun _ => ?_) <;> [subst x; clear_value x])
  refine Ends.ite ?_ ?_
  refine State_expireSends_keeps ?_
  assumption
  assumption
  refine Ends.next ?_
  refine Ends.ite ?_ ?_
  refine State_expireResps_keeps ?_
  assumption
  assumption

theorem execReplSession_keeps {s0 : State} {a0 : Via} {a1 : RoleEnv} {a2 : Bool} {a3 : ℕ} {a4 : ℕ} {a5 : Bool} {s : State} (h : Ok s0 s) : Ends (fun r : Host.Outcome State Fault Refusal => ∀ t, r = .next t → Keeps s0 t) (execReplSession a0 a1 a2 a3 a4 a5 s) := by
  unfold execReplSession
  refine Ends.next ?_
  refine State_roleArrive_keeps ?_
  assumption

theorem execReshapeNativeGo_keeps {s0 : State} {a0 : Word} {s : State} (h : Ok s0 s) : Ends (fun r : Host.Outcome State Fault Refusal => ∀ t, r = .next t → Keeps s0 t) (execReshapeNativeGo a0 s) := by
  unfold execReshapeNativeGo
  refine Ends.ite ?_ ?_
  refine Ends.next ?_
  refine State_settle_keeps ?_
  refine State_reshapeGo_keeps ?_
  refine State_writeRs_keeps ?_
  assumption
  refine Ends.next ?_
  assumption

theorem execReshapeStop_keeps {s0 : State} {a0 : Word} {s : State} (h : Ok s0 s) : Ends (fun r : Host.Outcome State Fault Refusal => ∀ t, r = .next t → Keeps s0 t) (execReshapeStop a0 s) := by
  unfold execReshapeStop
  refine Ends.ite ?_ ?_
  refine Ends.next ?_
  refine State_settle_keeps ?_
  refine State_reshapeStop_keeps ?_
  refine State_writeRs_keeps ?_
  assumption
  refine Ends.next ?_
  assumption

theorem execReshapeVx5Go_keeps {s0 : State} {a0 : Word} {s : State} (h : Ok s0 s) : Ends (fun r : Host.Outcome State Fault Refusal => ∀ t, r = .next t → Keeps s0 t) (execReshapeVx5Go a0 s) := by
  unfold execReshapeVx5Go
  refine Ends.ite ?_ ?_
  refine Ends.next ?_
  refine State_settle_keeps ?_
  refine State_reshapeGo_keeps ?_
  refine State_writeRs_keeps ?_
  assumption
  refine Ends.next ?_
  assumption

theorem execRespreadDone_keeps {s0 : State} {a0 : ℕ} {a1 : ℕ} {s : State} (h : Ok s0 s) : Ends (fun r : Host.Outcome State Fault Refusal => ∀ t, r = .next t → Keeps s0 t) (execRespreadDone a0 a1 s) := by
  unfold execRespreadDone
  split
  refine Ends.ite ?_ ?_
  refine Ends.next ?_
  refine State_csaRespread_keeps ?_
  assumption
  refine Ends.next ?_
  assumption
  refine Ends.next ?_
  assumption

theorem execRetrieve_keeps {s0 : State} {a0 : Cap} {a1 : Key} {s : State} (h : Ok s0 s) : Ends (fun r : Host.Outcome State Fault Refusal => ∀ t, r = .next t → Keeps s0 t) (execRetrieve a0 a1 s) := by
  unfold execRetrieve
  refine Ends.next ?_
  refine State_settle_keeps ?_
  refine State_ioCmd_keeps ?_
  assumption

theorem execRevokeOpkey_keeps {s0 : State} {a0 : Via} {a1 : RoleEnv} {a2 : ℕ} {s : State} (h : Ok s0 s) : Ends (fun r : Host.Outcome State Fault Refusal => ∀ t, r = .next t → Keeps s0 t) (execRevokeOpkey a0 a1 a2 s) := by
  unfold execRevokeOpkey
  refine Ends.next ?_
  refine State_roleArrive_keeps ?_
  assumption

theorem execRingConsume_keeps {s0 : State} {a0 : ℕ} {a1 : ℕ} {a2 : ℕ} {a3 : ℕ} {a4 : ℕ} {s : State} (h : Ok s0 s) : Ends (fun r : Host.Outcome State Fault Refusal => ∀ t, r = .next t → Keeps s0 t) (execRingConsume a0 a1 a2 a3 a4 s) := by
  unfold execRingConsume
  refine Ends.ite ?_ ?_
  refine Ends.next ?_
  assumption
  (extract_lets +onlyGivenNames x; clear_value x)
  (extract_lets +onlyGivenNames x; clear_value x)
  refine Ends.ite ?_ ?_
  refine Ends.next ?_
  refine State_setFld_keeps ?_
  refine State_deliverReplay_keeps ?_
  assumption
  (extract_lets +onlyGivenNames x; clear_value x)
  (extract_lets +onlyGivenNames x; clear_value x)
  (extract_lets +onlyGivenNames x; clear_value x)
  (extract_lets +onlyGivenNames x; refine Ends.cut (x := x) (s := s0) ?_ (fun _ => ?_) <;> [subst x; clear_value x])
  refine State_setFld_keeps ?_
  refine State_setRing_keeps ?_
  assumption
  (extract_lets +onlyGivenNames x; refine Ends.cut (x := x) (s := s0) ?_ (fun _ => ?_) <;> [subst x; clear_value x])
  refine Ends.ite ?_ ?_
  refine Ends.fold ?_ (fun _ _ _ => ?_)
  refine State_capture_keeps ?_
  assumption
  split
  refine State_capture_keeps ?_
  assumption
  assumption
  assumption
  refine Ends.next ?_
  refine State_drainRing_keeps ?_
  assumption

theorem execRingPost_keeps {s0 : State} {a0 : ℕ} {a1 : ℕ} {a2 : ℕ} {a3 : ℕ} {a4 : List Bytes} {s : State} (h : Ok s0 s) : Ends (fun r : Host.Outcome State Fault Refusal => ∀ t, r = .next t → Keeps s0 t) (execRingPost a0 a1 a2 a3 a4 s) := by
  unfold execRingPost
  refine Ends.ite ?_ ?_
  refine Ends.next ?_
  assumption
  (extract_lets +onlyGivenNames x; clear_value x)
  (extract_lets +onlyGivenNames x; clear_value x)
  (extract_lets +onlyGivenNames x; clear_value x)
  (extract_lets +onlyGivenNames x; clear_value x)
  (extract_lets +onlyGivenNames x; refine Ends.cut (x := x) (s := s0) ?_ (fun _ => ?_) <;> [subst x; clear_value x])
  refine State_setFld_keeps ?_
  refine State_writeSlots_keeps ?_
  assumption
  refine Ends.ite ?_ ?_
  refine Ends.ite ?_ ?_
  refine Ends.next ?_
  assumption
  split
  refine Ends.ite ?_ ?_
  refine Ends.next ?_
  refine State_takeReplay_keeps (by assumption) ?_
  assumption
  refine Ends.next ?_
  refine State_diverge_keeps ?_
  refine State_takeReplay_keeps (by assumption) ?_
  assumption
  refine Ends.next ?_
  refine State_diverge_keeps ?_
  refine State_takeReplay_keeps (by assumption) ?_
  assumption
  refine Ends.next ?_
  refine State_diverge_keeps ?_
  assumption
  (extract_lets +onlyGivenNames x; clear_value x)
  (extract_lets +onlyGivenNames x; refine Ends.cut (x := x) (s := s0) ?_ (fun _ => ?_) <;> [subst x; clear_value x])
  refine State_setRing_keeps ?_
  assumption
  refine Ends.ite ?_ ?_
  refine Ends.next ?_
  refine State_capture_keeps ?_
  assumption
  refine Ends.next ?_
  assumption

theorem execRoSensorSample_keeps {s0 : State} {a0 : List (ℕ × ℤ)} {s : State} (h : Ok s0 s) : Ends (fun r : Host.Outcome State Fault Refusal => ∀ t, r = .next t → Keeps s0 t) (execRoSensorSample a0 s) := by
  unfold execRoSensorSample
  refine Ends.next ?_
  refine Ends.fold ?_ (fun _ _ _ => ?_)
  refine State_stackTemps_keeps ?_
  assumption
  split
  refine State_setTemp_keeps ?_
  assumption
  assumption

theorem execRoceAcknowledge_keeps {s0 : State} {a0 : RoceHdr} {a1 : AckKind} {s : State} (h : Ok s0 s) : Ends (fun r : Host.Outcome State Fault Refusal => ∀ t, r = .next t → Keeps s0 t) (execRoceAcknowledge a0 a1 s) := by
  unfold execRoceAcknowledge
  refine Ends.next ?_
  refine State_settle_keeps ?_
  refine State_roceIn_keeps ?_
  assumption

theorem execRoceSend_keeps {s0 : State} {a0 : RoceHdr} {a1 : Bool} {a2 : Bool} {a3 : ℕ} {s : State} (h : Ok s0 s) : Ends (fun r : Host.Outcome State Fault Refusal => ∀ t, r = .next t → Keeps s0 t) (execRoceSend a0 a1 a2 a3 s) := by
  unfold execRoceSend
  refine Ends.next ?_
  refine State_settle_keeps ?_
  refine State_roceIn_keeps ?_
  assumption

theorem execRoleDone_keeps {s0 : State} {a0 : ℕ} {s : State} (h : Ok s0 s) : Ends (fun r : Host.Outcome State Fault Refusal => ∀ t, r = .next t → Keeps s0 t) (execRoleDone a0 s) := by
  unfold execRoleDone
  refine Ends.next ?_
  refine State_settle_keeps ?_
  refine State_roleDone_keeps ?_
  assumption

theorem execRoleReplyRead_keeps {s0 : State} {a0 : Cap} {a1 : ℕ} {s : State} (h : Ok s0 s) : Ends (fun r : Host.Outcome State Fault Refusal => ∀ t, r = .next t → Keeps s0 t) (execRoleReplyRead a0 a1 s) := by
  unfold execRoleReplyRead
  refine Ends.next ?_
  refine State_settle_keeps ?_
  refine State_adminCmd_keeps ?_
  assumption

theorem execRoleReq_keeps {s0 : State} {a0 : ℕ} {a1 : ℕ} {s : State} (h : Ok s0 s) : Ends (fun r : Host.Outcome State Fault Refusal => ∀ t, r = .next t → Keeps s0 t) (execRoleReq a0 a1 s) := by
  unfold execRoleReq
  refine Ends.next ?_
  refine State_sendRole_keeps ?_
  assumption

theorem execSanitizeBlockErase_keeps {s0 : State} {a0 : Cap} {s : State} (h : Ok s0 s) : Ends (fun r : Host.Outcome State Fault Refusal => ∀ t, r = .next t → Keeps s0 t) (execSanitizeBlockErase a0 s) := by
  unfold execSanitizeBlockErase
  refine Ends.next ?_
  refine State_settle_keeps ?_
  refine State_adminCmd_keeps ?_
  assumption

theorem execSanitizeComplete_keeps {s0 : State} {s : State} (h : Ok s0 s) : Ends (fun r : Host.Outcome State Fault Refusal => ∀ t, r = .next t → Keeps s0 t) (execSanitizeComplete s) := by
  unfold execSanitizeComplete
  split
  refine Ends.ite ?_ ?_
  refine Ends.next ?_
  refine State_settle_keeps ?_
  refine State_changeNow_keeps ?_
  assumption
  refine Ends.next ?_
  assumption
  refine Ends.next ?_
  assumption

theorem execSanitizeCryptoErase_keeps {s0 : State} {a0 : Cap} {s : State} (h : Ok s0 s) : Ends (fun r : Host.Outcome State Fault Refusal => ∀ t, r = .next t → Keeps s0 t) (execSanitizeCryptoErase a0 s) := by
  unfold execSanitizeCryptoErase
  refine Ends.next ?_
  refine State_settle_keeps ?_
  refine State_adminCmd_keeps ?_
  assumption

theorem execSanitizeExitFailure_keeps {s0 : State} {a0 : Cap} {s : State} (h : Ok s0 s) : Ends (fun r : Host.Outcome State Fault Refusal => ∀ t, r = .next t → Keeps s0 t) (execSanitizeExitFailure a0 s) := by
  unfold execSanitizeExitFailure
  refine Ends.next ?_
  refine State_settle_keeps ?_
  refine State_adminCmd_keeps ?_
  assumption

theorem execSanitizeFailed_keeps {s0 : State} {s : State} (h : Ok s0 s) : Ends (fun r : Host.Outcome State Fault Refusal => ∀ t, r = .next t → Keeps s0 t) (execSanitizeFailed s) := by
  unfold execSanitizeFailed
  refine Ends.ite ?_ ?_
  refine Ends.next ?_
  refine State_settle_keeps ?_
  refine State_changeNow_keeps ?_
  assumption
  refine Ends.next ?_
  assumption

theorem execScrubPost_keeps {s0 : State} {a0 : ℕ} {a1 : ℕ} {a2 : ℕ} {s : State} (h : Ok s0 s) : Ends (fun r : Host.Outcome State Fault Refusal => ∀ t, r = .next t → Keeps s0 t) (execScrubPost a0 a1 a2 s) := by
  unfold execScrubPost
  refine Ends.next ?_
  refine State_settle_keeps ?_
  refine State_scrub_keeps ?_
  assumption

theorem execSecondsTick_keeps {s0 : State} {s : State} (h : Ok s0 s) : Ends (fun r : Host.Outcome State Fault Refusal => ∀ t, r = .next t → Keeps s0 t) (execSecondsTick s) := by
  unfold execSecondsTick
  refine Ends.ite ?_ ?_
  refine Ends.next ?_
  assumption
  refine Ends.ite ?_ ?_
  refine Ends.next ?_
  refine Ends.upd ?_
  assumption
  refine Ends.next ?_
  refine Ends.upd ?_
  assumption

theorem execSegmentReclaim_keeps {s0 : State} {a0 : ℕ} {s : State} (h : Ok s0 s) : Ends (fun r : Host.Outcome State Fault Refusal => ∀ t, r = .next t → Keeps s0 t) (execSegmentReclaim a0 s) := by
  unfold execSegmentReclaim
  split
  refine Ends.ite ?_ ?_
  (extract_lets +onlyGivenNames x; clear_value x)
  (extract_lets +onlyGivenNames x; refine Ends.cut (x := x) (s := s0) ?_ (fun _ => ?_) <;> [subst x; clear_value x])
  refine State_log_keeps ?_
  refine State_setSeg_keeps ?_
  assumption
  refine Ends.next ?_
  refine State_settle_keeps ?_
  refine Ends.fold ?_ (fun _ _ _ => ?_)
  assumption
  refine State_eraseBlock_keeps ?_
  assumption
  refine Ends.next ?_
  assumption
  refine Ends.next ?_
  assumption

theorem execSessionClearDegraded_keeps {s0 : State} {a0 : ℕ} {a1 : ℕ} {s : State} (h : Ok s0 s) : Ends (fun r : Host.Outcome State Fault Refusal => ∀ t, r = .next t → Keeps s0 t) (execSessionClearDegraded a0 a1 s) := by
  unfold execSessionClearDegraded
  refine Ends.ite ?_ ?_
  refine Ends.next ?_
  assumption
  split
  refine Ends.next ?_
  refine State_settle_keeps ?_
  refine State_sessResult_keeps ?_
  refine State_setSess_keeps ?_
  assumption
  refine Ends.next ?_
  refine State_sessResult_keeps ?_
  assumption

theorem execSessionCreate_keeps {s0 : State} {a0 : ℕ} {a1 : ℕ} {s : State} (h : Ok s0 s) : Ends (fun r : Host.Outcome State Fault Refusal => ∀ t, r = .next t → Keeps s0 t) (execSessionCreate a0 a1 s) := by
  unfold execSessionCreate
  refine Ends.ite ?_ ?_
  refine Ends.next ?_
  refine State_settle_keeps ?_
  refine State_sessCreate_keeps ?_
  assumption
  refine Ends.next ?_
  assumption

theorem execSessionDestroy_keeps {s0 : State} {a0 : ℕ} {a1 : ℕ} {s : State} (h : Ok s0 s) : Ends (fun r : Host.Outcome State Fault Refusal => ∀ t, r = .next t → Keeps s0 t) (execSessionDestroy a0 a1 s) := by
  unfold execSessionDestroy
  refine Ends.ite ?_ ?_
  refine Ends.next ?_
  refine State_settle_keeps ?_
  refine State_sessDestroy_keeps ?_
  assumption
  refine Ends.next ?_
  assumption

theorem execSessionNewGeneration_keeps {s0 : State} {a0 : ℕ} {a1 : ℕ} {s : State} (h : Ok s0 s) : Ends (fun r : Host.Outcome State Fault Refusal => ∀ t, r = .next t → Keeps s0 t) (execSessionNewGeneration a0 a1 s) := by
  unfold execSessionNewGeneration
  refine Ends.ite ?_ ?_
  refine Ends.next ?_
  refine State_settle_keeps ?_
  refine State_sessGeneration_keeps ?_
  assumption
  refine Ends.next ?_
  assumption

theorem execSessionSetDegraded_keeps {s0 : State} {a0 : ℕ} {a1 : ℕ} {s : State} (h : Ok s0 s) : Ends (fun r : Host.Outcome State Fault Refusal => ∀ t, r = .next t → Keeps s0 t) (execSessionSetDegraded a0 a1 s) := by
  unfold execSessionSetDegraded
  refine Ends.ite ?_ ?_
  refine Ends.next ?_
  assumption
  refine Ends.ite ?_ ?_
  refine Ends.next ?_
  refine State_sessResult_keeps ?_
  assumption
  refine Ends.next ?_
  refine State_settle_keeps ?_
  refine State_sessResult_keeps ?_
  refine State_degrade_keeps ?_
  assumption

theorem execSetEndpointId_keeps {s0 : State} {a0 : ℕ} {a1 : ℕ} {s : State} (h : Ok s0 s) : Ends (fun r : Host.Outcome State Fault Refusal => ∀ t, r = .next t → Keeps s0 t) (execSetEndpointId a0 a1 s) := by
  unfold execSetEndpointId
  refine Ends.next ?_
  refine State_mctp_keeps ?_ ?_
  assumption
  intros
  refine Ends.ite ?_ ?_
  refine Ends.snd ?_
  assumption
  refine Ends.snd ?_
  refine Ends.upd ?_
  assumption

theorem execSetFeatures_keeps {s0 : State} {a0 : Cap} {a1 : ℕ} {a2 : ℕ} {a3 : Bool} {s : State} (h : Ok s0 s) : Ends (fun r : Host.Outcome State Fault Refusal => ∀ t, r = .next t → Keeps s0 t) (execSetFeatures a0 a1 a2 a3 s) := by
  unfold execSetFeatures
  refine Ends.next ?_
  refine State_settle_keeps ?_
  refine State_adminCmd_keeps ?_
  assumption

theorem execSetOpkey_keeps {s0 : State} {a0 : Via} {a1 : RoleEnv} {a2 : ℕ} {a3 : Bytes} {s : State} (h : Ok s0 s) : Ends (fun r : Host.Outcome State Fault Refusal => ∀ t, r = .next t → Keeps s0 t) (execSetOpkey a0 a1 a2 a3 s) := by
  unfold execSetOpkey
  refine Ends.next ?_
  refine State_roleArrive_keeps ?_
  assumption

theorem execSfbAckTimeout_keeps {s0 : State} {a0 : ℕ} {s : State} (h : Ok s0 s) : Ends (fun r : Host.Outcome State Fault Refusal => ∀ t, r = .next t → Keeps s0 t) (execSfbAckTimeout a0 s) := by
  unfold execSfbAckTimeout
  split
  refine Ends.ite ?_ ?_
  refine Ends.next ?_
  refine State_sfbReplayAll_keeps ?_
  assumption
  refine Ends.next ?_
  assumption
  refine Ends.next ?_
  assumption

theorem execSfbComplete_keeps {s0 : State} {a0 : SfbHdr} {a1 : ℕ} {a2 : ℕ} {a3 : ℕ} {s : State} (h : Ok s0 s) : Ends (fun r : Host.Outcome State Fault Refusal => ∀ t, r = .next t → Keeps s0 t) (execSfbComplete a0 a1 a2 a3 s) := by
  unfold execSfbComplete
  refine Ends.next ?_
  refine State_settle_keeps ?_
  refine State_sfbMsg_keeps ?_
  assumption

theorem execSfbEvent_keeps {s0 : State} {a0 : SfbHdr} {a1 : ℕ} {s : State} (h : Ok s0 s) : Ends (fun r : Host.Outcome State Fault Refusal => ∀ t, r = .next t → Keeps s0 t) (execSfbEvent a0 a1 s) := by
  unfold execSfbEvent
  refine Ends.next ?_
  refine State_settle_keeps ?_
  refine State_sfbMsg_keeps ?_
  assumption

theorem execSfbGapTimeout_keeps {s0 : State} {a0 : ℕ} {s : State} (h : Ok s0 s) : Ends (fun r : Host.Outcome State Fault Refusal => ∀ t, r = .next t → Keeps s0 t) (execSfbGapTimeout a0 s) := by
  unfold execSfbGapTimeout
  (extract_lets +onlyGivenNames x; clear_value x)
  split
  refine Ends.ite ?_ ?_
  refine Ends.next ?_
  refine State_sendSfbNak_keeps ?_
  refine State_setSport_keeps ?_
  assumption
  refine Ends.next ?_
  assumption
  refine Ends.next ?_
  assumption

theorem execSfbIdle_keeps {s0 : State} {a0 : SfbHdr} {s : State} (h : Ok s0 s) : Ends (fun r : Host.Outcome State Fault Refusal => ∀ t, r = .next t → Keeps s0 t) (execSfbIdle a0 s) := by
  unfold execSfbIdle
  refine Ends.next ?_
  refine State_settle_keeps ?_
  refine State_sfbRx_keeps ?_ ?_
  assumption
  intros
  refine Ends.idR ?_
  assumption

theorem execSfbIdleSend_keeps {s0 : State} {a0 : ℕ} {a1 : ℕ} {s : State} (h : Ok s0 s) : Ends (fun r : Host.Outcome State Fault Refusal => ∀ t, r = .next t → Keeps s0 t) (execSfbIdleSend a0 a1 s) := by
  unfold execSfbIdleSend
  refine Ends.ite ?_ ?_
  refine Ends.ite ?_ ?_
  refine Ends.next ?_
  refine State_sfbLinkFrame_keeps ?_
  assumption
  refine Ends.next ?_
  assumption
  refine Ends.ite ?_ ?_
  refine Ends.next ?_
  refine State_sfbLinkFrame_keeps ?_
  assumption
  refine Ends.next ?_
  assumption

theorem execSfbLaneRetire_keeps {s0 : State} {a0 : ℕ} {a1 : ℕ} {s : State} (h : Ok s0 s) : Ends (fun r : Host.Outcome State Fault Refusal => ∀ t, r = .next t → Keeps s0 t) (execSfbLaneRetire a0 a1 s) := by
  unfold execSfbLaneRetire
  (extract_lets +onlyGivenNames x; clear_value x)
  (extract_lets +onlyGivenNames x; clear_value x)
  refine Ends.ite ?_ ?_
  refine Ends.next ?_
  assumption
  (extract_lets +onlyGivenNames x; clear_value x)
  (extract_lets +onlyGivenNames x; refine Ends.cut (x := x) (s := s0) ?_ (fun _ => ?_) <;> [subst x; clear_value x])
  refine State_setSport_keeps ?_
  assumption
  refine Ends.next ?_
  refine State_setCpFld_keeps ?_
  assumption

theorem execSfbLaneReturn_keeps {s0 : State} {a0 : ℕ} {a1 : ℕ} {s : State} (h : Ok s0 s) : Ends (fun r : Host.Outcome State Fault Refusal => ∀ t, r = .next t → Keeps s0 t) (execSfbLaneReturn a0 a1 s) := by
  unfold execSfbLaneReturn
  (extract_lets +onlyGivenNames x; clear_value x)
  (extract_lets +onlyGivenNames x; clear_value x)
  refine Ends.ite ?_ ?_
  refine Ends.next ?_
  assumption
  (extract_lets +onlyGivenNames x; refine Ends.cut (x := x) (s := s0) ?_ (fun _ => ?_) <;> [subst x; clear_value x])
  refine State_setSport_keeps ?_
  assumption
  refine Ends.next ?_
  refine State_sfbTrain_keeps ?_
  assumption

theorem execSfbNak_keeps {s0 : State} {a0 : SfbHdr} {s : State} (h : Ok s0 s) : Ends (fun r : Host.Outcome State Fault Refusal => ∀ t, r = .next t → Keeps s0 t) (execSfbNak a0 s) := by
  unfold execSfbNak
  refine Ends.next ?_
  refine State_settle_keeps ?_
  refine State_sfbRx_keeps ?_ ?_
  assumption
  intros
  refine State_sfbReplayAll_keeps ?_
  assumption

theorem execSfbPortLost_keeps {s0 : State} {a0 : ℕ} {s : State} (h : Ok s0 s) : Ends (fun r : Host.Outcome State Fault Refusal => ∀ t, r = .next t → Keeps s0 t) (execSfbPortLost a0 s) := by
  unfold execSfbPortLost
  refine Ends.ite ?_ ?_
  refine Ends.next ?_
  refine State_settle_keeps ?_
  refine State_portLost_keeps ?_
  assumption
  refine Ends.next ?_
  assumption

theorem execSfbTrain_keeps {s0 : State} {a0 : ℕ} {a1 : ℕ} {a2 : Bool} {s : State} (h : Ok s0 s) : Ends (fun r : Host.Outcome State Fault Refusal => ∀ t, r = .next t → Keeps s0 t) (execSfbTrain a0 a1 a2 s) := by
  unfold execSfbTrain
  refine Ends.ite ?_ ?_
  refine Ends.next ?_
  refine State_sfbTrain_keeps ?_
  assumption
  refine Ends.next ?_
  refine State_sfbCrcError_keeps ?_
  assumption

theorem execShadowqp_keeps {s0 : State} {a0 : ChlHdr} {a1 : Bool} {a2 : QpExport} {a3 : Option Ctrl} {a4 : Option Queue} {s : State} (h : Ok s0 s) : Ends (fun r : Host.Outcome State Fault Refusal => ∀ t, r = .next t → Keeps s0 t) (execShadowqp a0 a1 a2 a3 a4 s) := by
  unfold execShadowqp
  refine Ends.next ?_
  refine State_settle_keeps ?_
  refine State_chlMsg_keeps ?_
  assumption

theorem execShardset_keeps {s0 : State} {a0 : ChlHdr} {a1 : BitVec 256} {a2 : ℕ} {s : State} (h : Ok s0 s) : Ends (fun r : Host.Outcome State Fault Refusal => ∀ t, r = .next t → Keeps s0 t) (execShardset a0 a1 a2 s) := by
  unfold execShardset
  refine Ends.next ?_
  refine State_settle_keeps ?_
  refine State_chlMsg_keeps ?_
  assumption

theorem execSjPageTimeout_keeps {s0 : State} {s : State} (h : Ok s0 s) : Ends (fun r : Host.Outcome State Fault Refusal => ∀ t, r = .next t → Keeps s0 t) (execSjPageTimeout s) := by
  unfold execSjPageTimeout
  refine Ends.ite ?_ ?_
  refine Ends.next ?_
  refine State_settle_keeps ?_
  refine State_sjProgram_keeps ?_
  assumption
  refine Ends.next ?_
  assumption

theorem execSlowDieProbe_keeps {s0 : State} {a0 : ℕ} {a1 : ℕ} {s : State} (h : Ok s0 s) : Ends (fun r : Host.Outcome State Fault Refusal => ∀ t, r = .next t → Keeps s0 t) (execSlowDieProbe a0 a1 s) := by
  unfold execSlowDieProbe
  (extract_lets +onlyGivenNames x; clear_value x)
  (extract_lets +onlyGivenNames x; clear_value x)
  refine Ends.ite ?_ ?_
  refine Ends.next ?_
  assumption
  (extract_lets +onlyGivenNames x; refine Ends.cut (x := x) (s := s0) ?_ (fun _ => ?_) <;> [subst x; clear_value x])
  refine State_setDie_keeps ?_
  assumption
  refine Ends.next ?_
  refine State_settle_keeps ?_
  refine State_issue_keeps ?_
  assumption

theorem execSlowEvict_keeps {s0 : State} {a0 : ℕ} {a1 : ℕ} {s : State} (h : Ok s0 s) : Ends (fun r : Host.Outcome State Fault Refusal => ∀ t, r = .next t → Keeps s0 t) (execSlowEvict a0 a1 s) := by
  unfold execSlowEvict
  (extract_lets +onlyGivenNames x; clear_value x)
  split
  refine Ends.ite ?_ ?_
  refine Ends.next ?_
  refine State_exc_keeps ?_
  refine State_setDie_keeps ?_
  assumption
  refine Ends.next ?_
  assumption
  refine Ends.next ?_
  assumption

theorem execSnapCreate_keeps {s0 : State} {a0 : Via} {a1 : RoleEnv} {a2 : ℕ} {s : State} (h : Ok s0 s) : Ends (fun r : Host.Outcome State Fault Refusal => ∀ t, r = .next t → Keeps s0 t) (execSnapCreate a0 a1 a2 s) := by
  unfold execSnapCreate
  refine Ends.next ?_
  refine State_roleArrive_keeps ?_
  assumption

theorem execSnapDelete_keeps {s0 : State} {a0 : Via} {a1 : RoleEnv} {a2 : ℕ} {s : State} (h : Ok s0 s) : Ends (fun r : Host.Outcome State Fault Refusal => ∀ t, r = .next t → Keeps s0 t) (execSnapDelete a0 a1 a2 s) := by
  unfold execSnapDelete
  refine Ends.next ?_
  refine State_roleArrive_keeps ?_
  assumption

theorem execSnapshotReady_keeps {s0 : State} {a0 : ℕ} {s : State} (h : Ok s0 s) : Ends (fun r : Host.Outcome State Fault Refusal => ∀ t, r = .next t → Keeps s0 t) (execSnapshotReady a0 s) := by
  unfold execSnapshotReady
  split
  refine Ends.ite ?_ ?_
  refine Ends.next ?_
  refine State_settle_keeps ?_
  refine State_putNs_keeps ?_
  assumption
  refine Ends.next ?_
  assumption
  refine Ends.next ?_
  assumption

theorem execSoloWaitExpiry_keeps {s0 : State} {s : State} (h : Ok s0 s) : Ends (fun r : Host.Outcome State Fault Refusal => ∀ t, r = .next t → Keeps s0 t) (execSoloWaitExpiry s) := by
  unfold execSoloWaitExpiry
  (extract_lets +onlyGivenNames x; clear_value x)
  refine Ends.ite ?_ ?_
  refine Ends.next ?_
  refine State_settle_keeps ?_
  refine State_startClaim_keeps ?_
  assumption
  refine Ends.next ?_
  assumption

theorem execStore_keeps {s0 : State} {a0 : Cap} {a1 : Key} {a2 : ℕ} {a3 : StoreOpts} {s : State} (h : Ok s0 s) : Ends (fun r : Host.Outcome State Fault Refusal => ∀ t, r = .next t → Keeps s0 t) (execStore a0 a1 a2 a3 s) := by
  unfold execStore
  (extract_lets +onlyGivenNames x; clear_value x)
  (extract_lets +onlyGivenNames x; clear_value x)
  (extract_lets +onlyGivenNames x; clear_value x)
  refine Ends.next ?_
  refine State_settle_keeps ?_
  refine State_ioCmd_keeps ?_
  assumption

theorem execStripePlaced_keeps {s0 : State} {a0 : ℕ} {a1 : ℕ} {s : State} (h : Ok s0 s) : Ends (fun r : Host.Outcome State Fault Refusal => ∀ t, r = .next t → Keeps s0 t) (execStripePlaced a0 a1 s) := by
  unfold execStripePlaced
  refine Ends.next ?_
  refine State_settle_keeps ?_
  refine State_unitPlaced_keeps ?_
  assumption

theorem execStripeTimeout_keeps {s0 : State} {a0 : ℕ} {s : State} (h : Ok s0 s) : Ends (fun r : Host.Outcome State Fault Refusal => ∀ t, r = .next t → Keeps s0 t) (execStripeTimeout a0 s) := by
  unfold execStripeTimeout
  split
  (extract_lets +onlyGivenNames x; clear_value x)
  refine Ends.ite ?_ ?_
  refine Ends.next ?_
  refine State_settle_keeps ?_
  refine State_endStripe_keeps ?_
  assumption
  refine Ends.next ?_
  assumption
  refine Ends.next ?_
  assumption

theorem execSync_keeps {s0 : State} {a0 : ChlHdr} {a1 : SyncBody} {s : State} (h : Ok s0 s) : Ends (fun r : Host.Outcome State Fault Refusal => ∀ t, r = .next t → Keeps s0 t) (execSync a0 a1 s) := by
  unfold execSync
  refine Ends.next ?_
  refine State_settle_keeps ?_
  refine State_chlMsg_keeps ?_
  assumption

theorem execSyncReplTimeout_keeps {s0 : State} {a0 : ℕ} {a1 : ℕ} {s : State} (h : Ok s0 s) : Ends (fun r : Host.Outcome State Fault Refusal => ∀ t, r = .next t → Keeps s0 t) (execSyncReplTimeout a0 a1 s) := by
  unfold execSyncReplTimeout
  (extract_lets +onlyGivenNames x; clear_value x)
  split
  (extract_lets +onlyGivenNames x; clear_value x)
  refine Ends.ite ?_ ?_
  refine Ends.next ?_
  refine State_settle_keeps ?_
  refine State_event_keeps ?_
  refine State_degrade_keeps ?_
  assumption
  refine Ends.next ?_
  assumption
  refine Ends.next ?_
  assumption

theorem execSysRst_keeps {s0 : State} {s : State} (h : Ok s0 s) : Ends (fun r : Host.Outcome State Fault Refusal => ∀ t, r = .next t → Keeps s0 t) (execSysRst s) := by
  unfold execSysRst
  refine Ends.next ?_
  refine State_requestReset_keeps ?_
  refine Ends.upd ?_
  assumption

theorem execTableAbort_keeps {s0 : State} {a0 : ℕ} {a1 : ℕ} {a2 : Word} {s : State} (h : Ok s0 s) : Ends (fun r : Host.Outcome State Fault Refusal => ∀ t, r = .next t → Keeps s0 t) (execTableAbort a0 a1 a2 s) := by
  unfold execTableAbort
  refine Ends.ite ?_ ?_
  refine Ends.next ?_
  assumption
  (extract_lets +onlyGivenNames x; refine Ends.cut (x := x) (s := s0) ?_ (fun _ => ?_) <;> [subst x; clear_value x])
  refine State_setFld_keeps ?_
  assumption
  (extract_lets +onlyGivenNames x; refine Ends.cut (x := x) (s := s0) ?_ (fun _ => ?_) <;> [subst x; clear_value x])
  refine Ends.ite ?_ ?_
  refine State_setFlag_keeps ?_
  assumption
  assumption
  refine Ends.ite ?_ ?_
  refine Ends.next ?_
  assumption
  refine Ends.next ?_
  refine Ends.upd ?_
  assumption

theorem execTableCommit_keeps {s0 : State} {a0 : ℕ} {a1 : ℕ} {a2 : Word} {s : State} (h : Ok s0 s) : Ends (fun r : Host.Outcome State Fault Refusal => ∀ t, r = .next t → Keeps s0 t) (execTableCommit a0 a1 a2 s) := by
  unfold execTableCommit
  refine Ends.ite ?_ ?_
  refine Ends.next ?_
  assumption
  (extract_lets +onlyGivenNames x; refine Ends.cut (x := x) (s := s0) ?_ (fun _ => ?_) <;> [subst x; clear_value x])
  refine State_setFld_keeps ?_
  assumption
  (extract_lets +onlyGivenNames x; refine Ends.cut (x := x) (s := s0) ?_ (fun _ => ?_) <;> [subst x; clear_value x])
  refine Ends.ite ?_ ?_
  refine State_setFlag_keeps ?_
  assumption
  assumption
  refine Ends.ite ?_ ?_
  refine Ends.next ?_
  refine State_setFlag_keeps ?_
  assumption
  refine Ends.ite ?_ ?_
  refine Ends.next ?_
  assumption
  (extract_lets +onlyGivenNames x; refine Ends.cut (x := x) (s := s0) ?_ (fun _ => ?_) <;> [subst x; clear_value x])
  refine State_commitTables_keeps ?_
  assumption
  refine Ends.ite ?_ ?_
  refine Ends.next ?_
  refine State_announceShards_keeps ?_ ?_
  assumption
  assumption
  refine Ends.next ?_
  assumption

theorem execTakeoverGo_keeps {s0 : State} {a0 : Word} {a1 : MediaImage} {s : State} (h : Ok s0 s) : Ends (fun r : Host.Outcome State Fault Refusal => ∀ t, r = .next t → Keeps s0 t) (execTakeoverGo a0 a1 s) := by
  unfold execTakeoverGo
  refine Ends.ite ?_ ?_
  refine Ends.next ?_
  refine State_settle_keeps ?_
  refine State_adopt_keeps ?_
  assumption
  refine Ends.next ?_
  assumption

theorem execTakeoverTransmitRelease_keeps {s0 : State} {s : State} (h : Ok s0 s) : Ends (fun r : Host.Outcome State Fault Refusal => ∀ t, r = .next t → Keeps s0 t) (execTakeoverTransmitRelease s) := by
  unfold execTakeoverTransmitRelease
  split
  refine Ends.ite ?_ ?_
  refine Ends.next ?_
  refine State_settle_keeps ?_
  refine Ends.upd ?_
  assumption
  refine Ends.next ?_
  assumption
  refine Ends.next ?_
  assumption

theorem execThawAbort_keeps {s0 : State} {a0 : ℕ} {a1 : ℕ} {a2 : ℕ} {s : State} (h : Ok s0 s) : Ends (fun r : Host.Outcome State Fault Refusal => ∀ t, r = .next t → Keeps s0 t) (execThawAbort a0 a1 a2 s) := by
  unfold execThawAbort
  refine Ends.next ?_
  refine State_thaw_keeps ?_
  assumption

theorem execThawResume_keeps {s0 : State} {a0 : ℕ} {a1 : ℕ} {a2 : ℕ} {s : State} (h : Ok s0 s) : Ends (fun r : Host.Outcome State Fault Refusal => ∀ t, r = .next t → Keeps s0 t) (execThawResume a0 a1 a2 s) := by
  unfold execThawResume
  refine Ends.next ?_
  refine State_thaw_keeps ?_
  assumption

theorem execThermalEvaluate_keeps {s0 : State} {s : State} (h : Ok s0 s) : Ends (fun r : Host.Outcome State Fault Refusal => ∀ t, r = .next t → Keeps s0 t) (execThermalEvaluate s) := by
  unfold execThermalEvaluate
  (extract_lets +onlyGivenNames x; refine Ends.cut (x := x) (s := s0) ?_ (fun _ => ?_) <;> [subst x; clear_value x])
  refine State_judgeHeat_keeps ?_
  assumption
  refine Ends.ite ?_ ?_
  refine Ends.next ?_
  assumption
  split
  refine Ends.next ?_
  refine State_thermalTrip_keeps ?_
  assumption
  split
  refine Ends.next ?_
  refine State_thermalTrip_keeps ?_
  assumption
  refine Ends.next ?_
  assumption

theorem execThermalResume_keeps {s0 : State} {a0 : Via} {a1 : RoleEnv} {s : State} (h : Ok s0 s) : Ends (fun r : Host.Outcome State Fault Refusal => ∀ t, r = .next t → Keeps s0 t) (execThermalResume a0 a1 s) := by
  unfold execThermalResume
  refine Ends.next ?_
  refine State_roleArrive_keeps ?_
  assumption

theorem execThrottleLower_keeps {s0 : State} {s : State} (h : Ok s0 s) : Ends (fun r : Host.Outcome State Fault Refusal => ∀ t, r = .next t → Keeps s0 t) (execThrottleLower s) := by
  unfold execThrottleLower
  split
  refine Ends.next ?_
  assumption
  refine Ends.ite ?_ ?_
  refine Ends.next ?_
  assumption
  (extract_lets +onlyGivenNames x; subst x)
  (extract_lets +onlyGivenNames x; refine Ends.cut (x := x) (s := s0) ?_ (fun _ => ?_) <;> [subst x; clear_value x])
  refine Ends.upd ?_
  assumption
  (extract_lets +onlyGivenNames x; clear_value x)
  refine Ends.ite ?_ ?_
  refine Ends.next ?_
  assumption
  refine Ends.next ?_
  refine State_throttle_keeps ?_
  assumption

theorem execThrottleRaise_keeps {s0 s : State} (h : Ok s0 s) :
    Ends (fun r : Host.Outcome State Fault Refusal => ∀ t, r = .next t → Keeps s0 t) (execThrottleRaise s) := by
  have h1 : Ok s0 { s with thm := { s.thm with dies := s.thm.dies.mapV fun _ d => { d with hotAt := d.hotAt.map fun _ => s.ao.tb } } } := Ends.upd h
  unfold execThrottleRaise
  extract_lets due
  clear_value due
  refine Ends.ite (Ends.next h) ?_
  extract_lets m s1 l
  exact Ends.ite (Ends.next (State_throttle_keeps h1)) (Ends.next h1)

theorem execTick_keeps {s0 : State} {a0 : ℕ} {a1 : ℕ} {s : State} (h : Ok s0 s) : Ends (fun r : Host.Outcome State Fault Refusal => ∀ t, r = .next t → Keeps s0 t) (execTick a0 a1 s) := by
  unfold execTick
  (extract_lets +onlyGivenNames x; clear_value x)
  (extract_lets +onlyGivenNames x; clear_value x)
  (extract_lets +onlyGivenNames x; clear_value x)
  refine Ends.ite ?_ ?_
  refine Ends.next ?_
  assumption
  (extract_lets +onlyGivenNames x; subst x)
  (extract_lets +onlyGivenNames x; refine Ends.cut (x := x) (s := s0) ?_ (fun _ => ?_) <;> [subst x; clear_value x])
  refine Ends.upd ?_
  assumption
  (extract_lets +onlyGivenNames x; clear_value x)
  (extract_lets +onlyGivenNames x; clear_value x)
  refine Ends.ite ?_ ?_
  refine Ends.next ?_
  assumption
  refine Ends.ite ?_ ?_
  refine Ends.next ?_
  refine State_setRing_keeps ?_
  assumption
  refine Ends.next ?_
  refine State_post_keeps ?_
  refine State_setRing_keeps ?_
  assumption

theorem execTime_keeps {s0 : State} {a0 : ChlHdr} {a1 : ℤ} {a2 : ℕ} {a3 : Bool} {s : State} (h : Ok s0 s) : Ends (fun r : Host.Outcome State Fault Refusal => ∀ t, r = .next t → Keeps s0 t) (execTime a0 a1 a2 a3 s) := by
  unfold execTime
  refine Ends.next ?_
  refine State_settle_keeps ?_
  refine State_chlMsg_keeps ?_
  assumption

theorem execTimeExchangeSend_keeps {s0 : State} {s : State} (h : Ok s0 s) : Ends (fun r : Host.Outcome State Fault Refusal => ∀ t, r = .next t → Keeps s0 t) (execTimeExchangeSend s) := by
  unfold execTimeExchangeSend
  refine Ends.next ?_
  refine State_send_keeps ?_
  assumption

theorem execTimeMessage_keeps {s0 : State} {s : State} (h : Ok s0 s) : Ends (fun r : Host.Outcome State Fault Refusal => ∀ t, r = .next t → Keeps s0 t) (execTimeMessage s) := by
  unfold execTimeMessage
  refine Ends.next ?_
  refine Ends.upd ?_
  assumption

theorem execTripRead_keeps {s0 : State} {a0 : MgmtHdr} {a1 : ℕ} {s : State} (h : Ok s0 s) : Ends (fun r : Host.Outcome State Fault Refusal => ∀ t, r = .next t → Keeps s0 t) (execTripRead a0 a1 s) := by
  unfold execTripRead
  refine Ends.next ?_
  refine State_mgmt_keeps ?_ ?_
  assumption
  intros
  refine Ends.ite ?_ ?_
  refine Ends.snd ?_
  assumption
  refine Ends.snd ?_
  assumption

theorem execTxFrameDone_keeps {s0 : State} {a0 : ℕ} {s : State} (h : Ok s0 s) : Ends (fun r : Host.Outcome State Fault Refusal => ∀ t, r = .next t → Keeps s0 t) (execTxFrameDone a0 s) := by
  unfold execTxFrameDone
  (extract_lets +onlyGivenNames x; clear_value x)
  split
  refine Ends.ite ?_ ?_
  refine Ends.next ?_
  assumption
  (extract_lets +onlyGivenNames x; refine Ends.cut (x := x) (s := s0) ?_ (fun _ => ?_) <;> [subst x; clear_value x])
  refine State_emit_keeps ?_
  refine State_setFport_keeps ?_
  assumption
  (extract_lets +onlyGivenNames x; refine Ends.cut (x := x) (s := s0) ?_ (fun _ => ?_) <;> [subst x; clear_value x])
  refine State_portCount_keeps ?_
  refine State_portCount_keeps ?_
  assumption
  (extract_lets +onlyGivenNames x; refine Ends.cut (x := x) (s := s0) ?_ (fun _ => ?_) <;> [subst x; clear_value x])
  refine Ends.ite ?_ ?_
  refine State_portCount_keeps ?_
  assumption
  assumption
  refine Ends.next ?_
  refine State_startTx_keeps ?_
  assumption
  refine Ends.next ?_
  refine State_startTx_keeps ?_
  assumption

theorem execUncorrectableMemoryError_keeps {s0 : State} {a0 : MemAt} {s : State} (h : Ok s0 s) : Ends (fun r : Host.Outcome State Fault Refusal => ∀ t, r = .next t → Keeps s0 t) (execUncorrectableMemoryError a0 s) := by
  unfold execUncorrectableMemoryError
  (extract_lets +onlyGivenNames x; clear_value x)
  refine Ends.next ?_
  refine State_settle_keeps ?_
  refine State_raiseFault_keeps ?_
  refine State_setFlag_keeps ?_
  assumption

theorem execUnenrolModule_keeps {s0 : State} {a0 : Via} {a1 : RoleEnv} {a2 : Bytes} {s : State} (h : Ok s0 s) : Ends (fun r : Host.Outcome State Fault Refusal => ∀ t, r = .next t → Keeps s0 t) (execUnenrolModule a0 a1 a2 s) := by
  unfold execUnenrolModule
  refine Ends.next ?_
  refine State_roleArrive_keeps ?_
  assumption

theorem execVerify_keeps {s0 : State} {a0 : Cap} {a1 : ℕ} {a2 : ℕ} {s : State} (h : Ok s0 s) : Ends (fun r : Host.Outcome State Fault Refusal => ∀ t, r = .next t → Keeps s0 t) (execVerify a0 a1 a2 s) := by
  unfold execVerify
  refine Ends.next ?_
  refine State_settle_keeps ?_
  refine State_ioCmd_keeps ?_
  assumption

theorem execVinRise_keeps {s0 : State} {a0 : ℕ} {s : State} (h : Ok s0 s) : Ends (fun r : Host.Outcome State Fault Refusal => ∀ t, r = .next t → Keeps s0 t) (execVinRise a0 s) := by
  unfold execVinRise
  refine Ends.next ?_
  refine State_tryConverter_keeps ?_
  refine Ends.upd ?_
  assumption

theorem execVinUndervoltage_keeps {s0 : State} {a0 : ℕ} {s : State} (h : Ok s0 s) : Ends (fun r : Host.Outcome State Fault Refusal => ∀ t, r = .next t → Keeps s0 t) (execVinUndervoltage a0 s) := by
  unfold execVinUndervoltage
  (extract_lets +onlyGivenNames x; subst x)
  (extract_lets +onlyGivenNames x; refine Ends.cut (x := x) (s := s0) ?_ (fun _ => ?_) <;> [subst x; clear_value x])
  refine Ends.upd ?_
  assumption
  refine Ends.ite ?_ ?_
  refine Ends.next ?_
  refine State_powerWarn_keeps ?_
  assumption
  refine Ends.next ?_
  assumption

theorem execWatchdogArm_keeps {s0 : State} {a0 : ℕ} {a1 : ℕ} {a2 : Word} {s : State} (h : Ok s0 s) : Ends (fun r : Host.Outcome State Fault Refusal => ∀ t, r = .next t → Keeps s0 t) (execWatchdogArm a0 a1 a2 s) := by
  unfold execWatchdogArm
  refine Ends.ite ?_ ?_
  refine Ends.next ?_
  refine State_writeWdog_keeps ?_
  assumption
  refine Ends.next ?_
  assumption

theorem execWatchdogExpiry_keeps {s0 : State} {a0 : ℕ} {a1 : ℕ} {s : State} (h : Ok s0 s) : Ends (fun r : Host.Outcome State Fault Refusal => ∀ t, r = .next t → Keeps s0 t) (execWatchdogExpiry a0 a1 s) := by
  unfold execWatchdogExpiry
  (extract_lets +onlyGivenNames x; clear_value x)
  (extract_lets +onlyGivenNames x; clear_value x)
  (extract_lets +onlyGivenNames x; clear_value x)
  refine Ends.ite ?_ ?_
  refine Ends.next ?_
  refine State_raiseFault_keeps ?_
  refine State_setFlag_keeps ?_
  assumption
  refine Ends.next ?_
  assumption

theorem execWatchdogKick_keeps {s0 : State} {a0 : ℕ} {a1 : ℕ} {a2 : Word} {s : State} (h : Ok s0 s) : Ends (fun r : Host.Outcome State Fault Refusal => ∀ t, r = .next t → Keeps s0 t) (execWatchdogKick a0 a1 a2 s) := by
  unfold execWatchdogKick
  refine Ends.ite ?_ ?_
  refine Ends.next ?_
  refine State_writeWdog_keeps ?_
  assumption
  refine Ends.next ?_
  assumption

theorem execWinFaultRead_keeps {s0 : State} {a0 : Requester} {a1 : ℕ} {s : State} (h : Ok s0 s) : Ends (fun r : Host.Outcome State Fault Refusal => ∀ t, r = .next t → Keeps s0 t) (execWinFaultRead a0 a1 s) := by
  unfold execWinFaultRead
  (extract_lets +onlyGivenNames x; clear_value x)
  (extract_lets +onlyGivenNames x; subst x; beta_reduce)
  refine Ends.ite ?_ ?_
  refine Ends.next ?_
  refine State_popLog_keeps ?_
  refine Ends.projR ?_
  refine State_checkAccess_keeps ?_
  assumption
  refine Ends.next ?_
  refine State_emit_keeps ?_
  refine Ends.projR ?_
  refine State_checkAccess_keeps ?_
  assumption

theorem execWitnessEvaluate_keeps {s0 : State} {a0 : List (ℕ × ℕ × ℕ × ℕ)} {s : State} (h : Ok s0 s) : Ends (fun r : Host.Outcome State Fault Refusal => ∀ t, r = .next t → Keeps s0 t) (execWitnessEvaluate a0 s) := by
  unfold execWitnessEvaluate
  split
  refine Ends.next ?_
  assumption
  refine Ends.ite ?_ ?_
  refine Ends.next ?_
  assumption
  (extract_lets +onlyGivenNames x; clear_value x)
  (extract_lets +onlyGivenNames x; clear_value x)
  (extract_lets +onlyGivenNames x; refine Ends.cut (x := x) (s := s0) ?_ (fun _ => ?_) <;> [subst x; clear_value x])
  refine State_witnessAnswers_keeps ?_
  refine State_tell_keeps ?_
  assumption
  (extract_lets +onlyGivenNames x; clear_value x)
  refine Ends.ite ?_ ?_
  refine Ends.next ?_
  refine State_settle_keeps ?_
  refine State_claimTakeover_keeps ?_
  assumption
  (extract_lets +onlyGivenNames x; clear_value x)
  refine Ends.ite ?_ ?_
  refine Ends.next ?_
  refine State_settle_keeps ?_
  refine State_claimTakeover_keeps ?_
  assumption
  refine Ends.next ?_
  refine Ends.upd ?_
  assumption

theorem execWitnessWriteTick_keeps {s0 : State} {s : State} (h : Ok s0 s) : Ends (fun r : Host.Outcome State Fault Refusal => ∀ t, r = .next t → Keeps s0 t) (execWitnessWriteTick s) := by
  unfold execWitnessWriteTick
  refine Ends.ite ?_ ?_
  refine Ends.next ?_
  assumption
  (extract_lets +onlyGivenNames x; clear_value x)
  (extract_lets +onlyGivenNames x; subst x)
  (extract_lets +onlyGivenNames x; refine Ends.cut (x := x) (s := s0) ?_ (fun _ => ?_) <;> [subst x; clear_value x])
  refine Ends.upd ?_
  assumption
  refine Ends.next ?_
  refine State_tell_keeps ?_
  assumption

theorem execWrite_keeps {s0 : State} {a0 : Cap} {a1 : ℕ} {a2 : ℕ} {s : State} (h : Ok s0 s) : Ends (fun r : Host.Outcome State Fault Refusal => ∀ t, r = .next t → Keeps s0 t) (execWrite a0 a1 a2 s) := by
  unfold execWrite
  refine Ends.ite ?_ ?_
  split
  refine Ends.ite ?_ ?_
  refine Ends.next ?_
  refine State_settle_keeps ?_
  refine State_abortedHalf_keeps ?_
  refine Ends.ofL (by assumption) ?_
  refine State_takeHalf_keeps ?_
  assumption
  refine Ends.next ?_
  refine State_settle_keeps ?_
  refine State_fused_keeps ?_
  refine Ends.ofL (by assumption) ?_
  refine State_takeHalf_keeps ?_
  assumption
  refine Ends.next ?_
  refine State_settle_keeps ?_
  refine State_arrive_keeps ?_ ?_
  refine Ends.ofL (by assumption) ?_
  refine State_takeHalf_keeps ?_
  assumption
  intros
  refine State_enterCmd_keeps ?_
  assumption
  refine Ends.next ?_
  refine State_settle_keeps ?_
  refine State_ioCmd_keeps ?_
  assumption

theorem execWriteZeroes_keeps {s0 : State} {a0 : Cap} {a1 : ℕ} {a2 : ℕ} {a3 : Bool} {s : State} (h : Ok s0 s) : Ends (fun r : Host.Outcome State Fault Refusal => ∀ t, r = .next t → Keeps s0 t) (execWriteZeroes a0 a1 a2 a3 s) := by
  unfold execWriteZeroes
  refine Ends.next ?_
  refine State_settle_keeps ?_
  refine State_ioCmd_keeps ?_
  assumption

theorem execXtsSlotFlush_keeps {s0 : State} {a0 : ℕ} {a1 : Word} {s : State} (h : Ok s0 s) : Ends (fun r : Host.Outcome State Fault Refusal => ∀ t, r = .next t → Keeps s0 t) (execXtsSlotFlush a0 a1 s) := by
  unfold execXtsSlotFlush
  refine Ends.next ?_
  refine State_settle_keeps ?_
  refine State_flushXtsLater_keeps ?_
  assumption

theorem execXtsSlotLoad_keeps {s0 : State} {a0 : ℕ} {a1 : ℕ} {a2 : ℕ} {a3 : ℕ} {s : State} (h : Ok s0 s) : Ends (fun r : Host.Outcome State Fault Refusal => ∀ t, r = .next t → Keeps s0 t) (execXtsSlotLoad a0 a1 a2 a3 s) := by
  unfold execXtsSlotLoad
  refine Ends.ite ?_ ?_
  refine Ends.next ?_
  assumption
  split
  refine Ends.next ?_
  assumption
  (extract_lets +onlyGivenNames x; refine Ends.cut (x := x) (s := s0) ?_ (fun _ => ?_) <;> [subst x; clear_value x])
  refine State_addFld_keeps ?_
  assumption
  split
  refine Ends.next ?_
  refine State_settle_keeps ?_
  refine State_raiseFault_keeps ?_
  assumption
  split
  refine Ends.next ?_
  refine State_settle_keeps ?_
  refine State_putXtsSlot_keeps ?_
  assumption
  refine Ends.next ?_
  refine State_settle_keeps ?_
  refine State_genAbsentCopies_keeps ?_
  refine State_genAbsent_keeps ?_
  assumption

end Sys2Proof.Machine
end

