-- ==== Sys2Proof/Laws/Regs.lean ====
section
/-! SUPPORT. The register table: fields of a register do not overlap, and what a write or a read of a register leaves in each field. -/

namespace Sys2Proof

/-- Fields end within the word and do not overlap. -/
def RegDesc.Tidy (r : RegDesc) : Prop :=
  (∀ f ∈ r.fields, f.lo + f.w ≤ 64) ∧ r.fields.Pairwise fun f g => f.lo + f.w ≤ g.lo ∨ g.lo + g.w ≤ f.lo

/-- The same as a test. -/
def RegDesc.tidy (r : RegDesc) : Bool :=
  r.fields.all (fun f => decide (f.lo + f.w ≤ 64)) && decide (r.fields.Pairwise fun f g => f.lo + f.w ≤ g.lo ∨ g.lo + g.w ≤ f.lo)

theorem RegDesc.tidy_iff (r : RegDesc) : r.tidy = true ↔ r.Tidy := by simp [RegDesc.tidy, RegDesc.Tidy]

end Sys2Proof

namespace Sys2Proof.Machine

open Sys2Proof

set_option maxRecDepth 100000 in
theorem blocks_tidy : ((List.range 0x41).all fun b => (blockRegs b).all RegDesc.tidy) = true := by decide +kernel

theorem blockRegs_of_ge {b : Nat} (h : 0x41 ≤ b) : blockRegs b = [] := by
  unfold blockRegs
  split <;> first | rfl | omega

/-- Every register of every block is tidy. -/
theorem findReg_tidy {blk off : Nat} {r : RegDesc} (h : findReg blk off = some r) : r.Tidy := by
  have hm : r ∈ blockRegs blk := List.mem_of_find?_eq_some h
  rcases Nat.lt_or_ge blk 0x41 with hb | hb
  · have := List.all_eq_true.1 (List.all_eq_true.1 blocks_tidy blk (List.mem_range.2 hb)) r hm
    exact (RegDesc.tidy_iff r).1 this
  · rw [blockRegs_of_ge hb] at hm; cases hm

/-- Setting fields that lie apart from `g` leaves `g`. -/
theorem bitsAt_fold_apart {l : List FieldDesc} {c : FieldDesc → Bool} {v : FieldDesc → Nat} {g : FieldDesc} {x : Word}
    (hw : ∀ f ∈ l, f.lo + f.w ≤ 64) (hd : ∀ f ∈ l, f.lo + f.w ≤ g.lo ∨ g.lo + g.w ≤ f.lo) :
    bitsAt (l.foldl (fun x f => if c f = true then setBits x f.lo f.w (v f) else x) x) g.lo g.w = bitsAt x g.lo g.w := by
  induction l generalizing x with
  | nil => rfl
  | cons f l ih =>
    rw [List.foldl_cons, ih (fun a h => hw a (.tail _ h)) (fun a h => hd a (.tail _ h))]
    split
    · exact bitsAt_setBits_of_disjoint (hw f (.head _)) _ (hd f (.head _)).symm
    · rfl

/-- A pass over the fields that sets those that `c` picks leaves each as it was set, or as it was. -/
theorem bitsAt_fold {l : List FieldDesc} {c : FieldDesc → Bool} {v : FieldDesc → Nat} {g : FieldDesc} {x : Word}
    (hw : ∀ f ∈ l, f.lo + f.w ≤ 64) (hp : l.Pairwise fun f g => f.lo + f.w ≤ g.lo ∨ g.lo + g.w ≤ f.lo) (hg : g ∈ l) :
    bitsAt (l.foldl (fun x f => if c f = true then setBits x f.lo f.w (v f) else x) x) g.lo g.w =
      if c g = true then v g % 2 ^ g.w else bitsAt x g.lo g.w := by
  induction l generalizing x with
  | nil => cases hg
  | cons f l ih =>
    obtain ⟨h1, h2⟩ := List.pairwise_cons.1 hp
    rw [List.foldl_cons]
    rcases List.mem_cons.1 hg with rfl | hg'
    · rw [bitsAt_fold_apart (fun a h => hw a (.tail _ h)) (fun a h => (h1 a h).symm)]
      split
      · exact bitsAt_setBits_same (hw g (.head _)) _
      · rfl
    · rw [ih (fun a h => hw a (.tail _ h)) h2 hg']
      split
      · rfl
      · split
        · exact bitsAt_setBits_of_disjoint (hw f (.head _)) _ (h1 g hg').symm
        · rfl

theorem fieldAfterWrite_lt (locked : Bool) (f : FieldDesc) (old v events : Word) :
    fieldAfterWrite locked f old v events < 2 ^ f.w := by
  have h := bitsAt_lt old f.lo f.w
  have k := bitsAt_lt v f.lo f.w
  have e := bitsAt_lt events f.lo f.w
  unfold fieldAfterWrite
  dsimp only
  split
  all_goals first | exact h | exact k | skip
  · split <;> assumption
  · exact Nat.or_lt_two_pow (lt_of_le_of_lt Nat.and_le_left h) e
  · exact Nat.or_lt_two_pow h k

/-- Every field of a register after a write holds what its access code says (R9). -/
theorem bitsAt_wordAfterWrite {r : RegDesc} (h : r.Tidy) {f : FieldDesc} (hf : f ∈ r.fields) (locked : Bool) (old v events : Word) :
    bitsAt (wordAfterWrite locked r old v events) f.lo f.w = fieldAfterWrite locked f old v events := by
  have := bitsAt_fold (c := fun _ => true) (v := fun f => fieldAfterWrite locked f old v events) (x := old) h.1 h.2 hf
  simp only [if_true] at this
  rw [wordAfterWrite, this, Nat.mod_eq_of_lt (fieldAfterWrite_lt ..)]

/-- Every field of a register after a read: RC fields hold the events of the read (R12). -/
theorem bitsAt_wordAfterRead {r : RegDesc} (h : r.Tidy) {f : FieldDesc} (hf : f ∈ r.fields) (x events : Word) :
    bitsAt (wordAfterRead r x events) f.lo f.w = if f.acc = .rc then bitsAt events f.lo f.w else bitsAt x f.lo f.w := by
  have := bitsAt_fold (c := fun f => decide (f.acc = .rc)) (v := fun f => bitsAt events f.lo f.w) (x := x) h.1 h.2 hf
  simp only [decide_eq_true_eq, Nat.mod_eq_of_lt (bitsAt_lt events f.lo f.w)] at this
  exact this

end Sys2Proof.Machine
end

