-- ==== Sys2Proof/Laws/State.lean ====
section
/-! SUPPORT. What each plain update of the state leaves of every other field: one lemma for each update and field. -/

namespace Sys2Proof.Machine

open Sys2Proof

@[simp] theorem State.setReg_variant (s : State) (a1 : Nat) (a2 : Nat) (a3 : Nat) (a4 : Word) : (s.setReg a1 a2 a3 a4).variant = s.variant := (rfl)
@[simp] theorem State.setReg_side (s : State) (a1 : Nat) (a2 : Nat) (a3 : Nat) (a4 : Word) : (s.setReg a1 a2 a3 a4).side = s.side := (rfl)
@[simp] theorem State.setReg_wo (s : State) (a1 : Nat) (a2 : Nat) (a3 : Nat) (a4 : Word) : (s.setReg a1 a2 a3 a4).wo = s.wo := (rfl)
@[simp] theorem State.setReg_active (s : State) (a1 : Nat) (a2 : Nat) (a3 : Nat) (a4 : Word) : (s.setReg a1 a2 a3 a4).active = s.active := (rfl)
@[simp] theorem State.setReg_shadow (s : State) (a1 : Nat) (a2 : Nat) (a3 : Nat) (a4 : Word) : (s.setReg a1 a2 a3 a4).shadow = s.shadow := (rfl)
@[simp] theorem State.setReg_copying (s : State) (a1 : Nat) (a2 : Nat) (a3 : Nat) (a4 : Word) : (s.setReg a1 a2 a3 a4).copying = s.copying := (rfl)
@[simp] theorem State.setReg_heldWrites (s : State) (a1 : Nat) (a2 : Nat) (a3 : Nat) (a4 : Word) : (s.setReg a1 a2 a3 a4).heldWrites = s.heldWrites := (rfl)
@[simp] theorem State.setReg_mem (s : State) (a1 : Nat) (a2 : Nat) (a3 : Nat) (a4 : Word) : (s.setReg a1 a2 a3 a4).mem = s.mem := (rfl)
@[simp] theorem State.setReg_pins (s : State) (a1 : Nat) (a2 : Nat) (a3 : Nat) (a4 : Word) : (s.setReg a1 a2 a3 a4).pins = s.pins := (rfl)
@[simp] theorem State.setReg_ao (s : State) (a1 : Nat) (a2 : Nat) (a3 : Nat) (a4 : Word) : (s.setReg a1 a2 a3 a4).ao = s.ao := (rfl)
@[simp] theorem State.setReg_time (s : State) (a1 : Nat) (a2 : Nat) (a3 : Nat) (a4 : Word) : (s.setReg a1 a2 a3 a4).time = s.time := (rfl)
@[simp] theorem State.setReg_nor (s : State) (a1 : Nat) (a2 : Nat) (a3 : Nat) (a4 : Word) : (s.setReg a1 a2 a3 a4).nor = s.nor := (rfl)
@[simp] theorem State.setReg_thm (s : State) (a1 : Nat) (a2 : Nat) (a3 : Nat) (a4 : Word) : (s.setReg a1 a2 a3 a4).thm = s.thm := (rfl)
@[simp] theorem State.setReg_nand (s : State) (a1 : Nat) (a2 : Nat) (a3 : Nat) (a4 : Word) : (s.setReg a1 a2 a3 a4).nand = s.nand := (rfl)
@[simp] theorem State.setReg_hrd (s : State) (a1 : Nat) (a2 : Nat) (a3 : Nat) (a4 : Word) : (s.setReg a1 a2 a3 a4).hrd = s.hrd := (rfl)
@[simp] theorem State.setReg_host (s : State) (a1 : Nat) (a2 : Nat) (a3 : Nat) (a4 : Word) : (s.setReg a1 a2 a3 a4).host = s.host := (rfl)
@[simp] theorem State.setReg_pair (s : State) (a1 : Nat) (a2 : Nat) (a3 : Nat) (a4 : Word) : (s.setReg a1 a2 a3 a4).pair = s.pair := (rfl)
@[simp] theorem State.setReg_jrnl (s : State) (a1 : Nat) (a2 : Nat) (a3 : Nat) (a4 : Word) : (s.setReg a1 a2 a3 a4).jrnl = s.jrnl := (rfl)
@[simp] theorem State.setReg_rdma (s : State) (a1 : Nat) (a2 : Nat) (a3 : Nat) (a4 : Word) : (s.setReg a1 a2 a3 a4).rdma = s.rdma := (rfl)
@[simp] theorem State.setReg_med (s : State) (a1 : Nat) (a2 : Nat) (a3 : Nat) (a4 : Word) : (s.setReg a1 a2 a3 a4).med = s.med := (rfl)
@[simp] theorem State.setReg_dst (s : State) (a1 : Nat) (a2 : Nat) (a3 : Nat) (a4 : Word) : (s.setReg a1 a2 a3 a4).dst = s.dst := (rfl)
@[simp] theorem State.setReg_ftl (s : State) (a1 : Nat) (a2 : Nat) (a3 : Nat) (a4 : Word) : (s.setReg a1 a2 a3 a4).ftl = s.ftl := (rfl)
@[simp] theorem State.setReg_par (s : State) (a1 : Nat) (a2 : Nat) (a3 : Nat) (a4 : Word) : (s.setReg a1 a2 a3 a4).par = s.par := (rfl)
@[simp] theorem State.setReg_arr (s : State) (a1 : Nat) (a2 : Nat) (a3 : Nat) (a4 : Word) : (s.setReg a1 a2 a3 a4).arr = s.arr := (rfl)
@[simp] theorem State.setReg_csa (s : State) (a1 : Nat) (a2 : Nat) (a3 : Nat) (a4 : Word) : (s.setReg a1 a2 a3 a4).csa = s.csa := (rfl)
@[simp] theorem State.setReg_keys (s : State) (a1 : Nat) (a2 : Nat) (a3 : Nat) (a4 : Word) : (s.setReg a1 a2 a3 a4).keys = s.keys := (rfl)
@[simp] theorem State.setReg_pgt (s : State) (a1 : Nat) (a2 : Nat) (a3 : Nat) (a4 : Word) : (s.setReg a1 a2 a3 a4).pgt = s.pgt := (rfl)
@[simp] theorem State.setReg_otp (s : State) (a1 : Nat) (a2 : Nat) (a3 : Nat) (a4 : Word) : (s.setReg a1 a2 a3 a4).otp = s.otp := (rfl)
@[simp] theorem State.setReg_boot (s : State) (a1 : Nat) (a2 : Nat) (a3 : Nat) (a4 : Word) : (s.setReg a1 a2 a3 a4).boot = s.boot := (rfl)
@[simp] theorem State.setReg_free (s : State) (a1 : Nat) (a2 : Nat) (a3 : Nat) (a4 : Word) : (s.setReg a1 a2 a3 a4).free = s.free := (rfl)
@[simp] theorem State.setReg_out (s : State) (a1 : Nat) (a2 : Nat) (a3 : Nat) (a4 : Word) : (s.setReg a1 a2 a3 a4).out = s.out := (rfl)
@[simp] theorem State.setReg_pending (s : State) (a1 : Nat) (a2 : Nat) (a3 : Nat) (a4 : Word) : (s.setReg a1 a2 a3 a4).pending = s.pending := (rfl)

@[simp] theorem State.setFld_variant (s : State) (a1 : Nat) (a2 : Fld) (a3 : Nat) : (s.setFld a1 a2 a3).variant = s.variant := (rfl)
@[simp] theorem State.setFld_side (s : State) (a1 : Nat) (a2 : Fld) (a3 : Nat) : (s.setFld a1 a2 a3).side = s.side := (rfl)
@[simp] theorem State.setFld_wo (s : State) (a1 : Nat) (a2 : Fld) (a3 : Nat) : (s.setFld a1 a2 a3).wo = s.wo := (rfl)
@[simp] theorem State.setFld_active (s : State) (a1 : Nat) (a2 : Fld) (a3 : Nat) : (s.setFld a1 a2 a3).active = s.active := (rfl)
@[simp] theorem State.setFld_shadow (s : State) (a1 : Nat) (a2 : Fld) (a3 : Nat) : (s.setFld a1 a2 a3).shadow = s.shadow := (rfl)
@[simp] theorem State.setFld_copying (s : State) (a1 : Nat) (a2 : Fld) (a3 : Nat) : (s.setFld a1 a2 a3).copying = s.copying := (rfl)
@[simp] theorem State.setFld_heldWrites (s : State) (a1 : Nat) (a2 : Fld) (a3 : Nat) : (s.setFld a1 a2 a3).heldWrites = s.heldWrites := (rfl)
@[simp] theorem State.setFld_mem (s : State) (a1 : Nat) (a2 : Fld) (a3 : Nat) : (s.setFld a1 a2 a3).mem = s.mem := (rfl)
@[simp] theorem State.setFld_pins (s : State) (a1 : Nat) (a2 : Fld) (a3 : Nat) : (s.setFld a1 a2 a3).pins = s.pins := (rfl)
@[simp] theorem State.setFld_ao (s : State) (a1 : Nat) (a2 : Fld) (a3 : Nat) : (s.setFld a1 a2 a3).ao = s.ao := (rfl)
@[simp] theorem State.setFld_time (s : State) (a1 : Nat) (a2 : Fld) (a3 : Nat) : (s.setFld a1 a2 a3).time = s.time := (rfl)
@[simp] theorem State.setFld_nor (s : State) (a1 : Nat) (a2 : Fld) (a3 : Nat) : (s.setFld a1 a2 a3).nor = s.nor := (rfl)
@[simp] theorem State.setFld_thm (s : State) (a1 : Nat) (a2 : Fld) (a3 : Nat) : (s.setFld a1 a2 a3).thm = s.thm := (rfl)
@[simp] theorem State.setFld_nand (s : State) (a1 : Nat) (a2 : Fld) (a3 : Nat) : (s.setFld a1 a2 a3).nand = s.nand := (rfl)
@[simp] theorem State.setFld_hrd (s : State) (a1 : Nat) (a2 : Fld) (a3 : Nat) : (s.setFld a1 a2 a3).hrd = s.hrd := (rfl)
@[simp] theorem State.setFld_host (s : State) (a1 : Nat) (a2 : Fld) (a3 : Nat) : (s.setFld a1 a2 a3).host = s.host := (rfl)
@[simp] theorem State.setFld_pair (s : State) (a1 : Nat) (a2 : Fld) (a3 : Nat) : (s.setFld a1 a2 a3).pair = s.pair := (rfl)
@[simp] theorem State.setFld_jrnl (s : State) (a1 : Nat) (a2 : Fld) (a3 : Nat) : (s.setFld a1 a2 a3).jrnl = s.jrnl := (rfl)
@[simp] theorem State.setFld_rdma (s : State) (a1 : Nat) (a2 : Fld) (a3 : Nat) : (s.setFld a1 a2 a3).rdma = s.rdma := (rfl)
@[simp] theorem State.setFld_med (s : State) (a1 : Nat) (a2 : Fld) (a3 : Nat) : (s.setFld a1 a2 a3).med = s.med := (rfl)
@[simp] theorem State.setFld_dst (s : State) (a1 : Nat) (a2 : Fld) (a3 : Nat) : (s.setFld a1 a2 a3).dst = s.dst := (rfl)
@[simp] theorem State.setFld_ftl (s : State) (a1 : Nat) (a2 : Fld) (a3 : Nat) : (s.setFld a1 a2 a3).ftl = s.ftl := (rfl)
@[simp] theorem State.setFld_par (s : State) (a1 : Nat) (a2 : Fld) (a3 : Nat) : (s.setFld a1 a2 a3).par = s.par := (rfl)
@[simp] theorem State.setFld_arr (s : State) (a1 : Nat) (a2 : Fld) (a3 : Nat) : (s.setFld a1 a2 a3).arr = s.arr := (rfl)
@[simp] theorem State.setFld_csa (s : State) (a1 : Nat) (a2 : Fld) (a3 : Nat) : (s.setFld a1 a2 a3).csa = s.csa := (rfl)
@[simp] theorem State.setFld_keys (s : State) (a1 : Nat) (a2 : Fld) (a3 : Nat) : (s.setFld a1 a2 a3).keys = s.keys := (rfl)
@[simp] theorem State.setFld_pgt (s : State) (a1 : Nat) (a2 : Fld) (a3 : Nat) : (s.setFld a1 a2 a3).pgt = s.pgt := (rfl)
@[simp] theorem State.setFld_otp (s : State) (a1 : Nat) (a2 : Fld) (a3 : Nat) : (s.setFld a1 a2 a3).otp = s.otp := (rfl)
@[simp] theorem State.setFld_boot (s : State) (a1 : Nat) (a2 : Fld) (a3 : Nat) : (s.setFld a1 a2 a3).boot = s.boot := (rfl)
@[simp] theorem State.setFld_free (s : State) (a1 : Nat) (a2 : Fld) (a3 : Nat) : (s.setFld a1 a2 a3).free = s.free := (rfl)
@[simp] theorem State.setFld_out (s : State) (a1 : Nat) (a2 : Fld) (a3 : Nat) : (s.setFld a1 a2 a3).out = s.out := (rfl)
@[simp] theorem State.setFld_pending (s : State) (a1 : Nat) (a2 : Fld) (a3 : Nat) : (s.setFld a1 a2 a3).pending = s.pending := (rfl)

@[simp] theorem State.setFlag_variant (s : State) (a1 : Nat) (a2 : Fld) (a3 : Bool) : (s.setFlag a1 a2 a3).variant = s.variant := (rfl)
@[simp] theorem State.setFlag_side (s : State) (a1 : Nat) (a2 : Fld) (a3 : Bool) : (s.setFlag a1 a2 a3).side = s.side := (rfl)
@[simp] theorem State.setFlag_wo (s : State) (a1 : Nat) (a2 : Fld) (a3 : Bool) : (s.setFlag a1 a2 a3).wo = s.wo := (rfl)
@[simp] theorem State.setFlag_active (s : State) (a1 : Nat) (a2 : Fld) (a3 : Bool) : (s.setFlag a1 a2 a3).active = s.active := (rfl)
@[simp] theorem State.setFlag_shadow (s : State) (a1 : Nat) (a2 : Fld) (a3 : Bool) : (s.setFlag a1 a2 a3).shadow = s.shadow := (rfl)
@[simp] theorem State.setFlag_copying (s : State) (a1 : Nat) (a2 : Fld) (a3 : Bool) : (s.setFlag a1 a2 a3).copying = s.copying := (rfl)
@[simp] theorem State.setFlag_heldWrites (s : State) (a1 : Nat) (a2 : Fld) (a3 : Bool) : (s.setFlag a1 a2 a3).heldWrites = s.heldWrites := (rfl)
@[simp] theorem State.setFlag_mem (s : State) (a1 : Nat) (a2 : Fld) (a3 : Bool) : (s.setFlag a1 a2 a3).mem = s.mem := (rfl)
@[simp] theorem State.setFlag_pins (s : State) (a1 : Nat) (a2 : Fld) (a3 : Bool) : (s.setFlag a1 a2 a3).pins = s.pins := (rfl)
@[simp] theorem State.setFlag_ao (s : State) (a1 : Nat) (a2 : Fld) (a3 : Bool) : (s.setFlag a1 a2 a3).ao = s.ao := (rfl)
@[simp] theorem State.setFlag_time (s : State) (a1 : Nat) (a2 : Fld) (a3 : Bool) : (s.setFlag a1 a2 a3).time = s.time := (rfl)
@[simp] theorem State.setFlag_nor (s : State) (a1 : Nat) (a2 : Fld) (a3 : Bool) : (s.setFlag a1 a2 a3).nor = s.nor := (rfl)
@[simp] theorem State.setFlag_thm (s : State) (a1 : Nat) (a2 : Fld) (a3 : Bool) : (s.setFlag a1 a2 a3).thm = s.thm := (rfl)
@[simp] theorem State.setFlag_nand (s : State) (a1 : Nat) (a2 : Fld) (a3 : Bool) : (s.setFlag a1 a2 a3).nand = s.nand := (rfl)
@[simp] theorem State.setFlag_hrd (s : State) (a1 : Nat) (a2 : Fld) (a3 : Bool) : (s.setFlag a1 a2 a3).hrd = s.hrd := (rfl)
@[simp] theorem State.setFlag_host (s : State) (a1 : Nat) (a2 : Fld) (a3 : Bool) : (s.setFlag a1 a2 a3).host = s.host := (rfl)
@[simp] theorem State.setFlag_pair (s : State) (a1 : Nat) (a2 : Fld) (a3 : Bool) : (s.setFlag a1 a2 a3).pair = s.pair := (rfl)
@[simp] theorem State.setFlag_jrnl (s : State) (a1 : Nat) (a2 : Fld) (a3 : Bool) : (s.setFlag a1 a2 a3).jrnl = s.jrnl := (rfl)
@[simp] theorem State.setFlag_rdma (s : State) (a1 : Nat) (a2 : Fld) (a3 : Bool) : (s.setFlag a1 a2 a3).rdma = s.rdma := (rfl)
@[simp] theorem State.setFlag_med (s : State) (a1 : Nat) (a2 : Fld) (a3 : Bool) : (s.setFlag a1 a2 a3).med = s.med := (rfl)
@[simp] theorem State.setFlag_dst (s : State) (a1 : Nat) (a2 : Fld) (a3 : Bool) : (s.setFlag a1 a2 a3).dst = s.dst := (rfl)
@[simp] theorem State.setFlag_ftl (s : State) (a1 : Nat) (a2 : Fld) (a3 : Bool) : (s.setFlag a1 a2 a3).ftl = s.ftl := (rfl)
@[simp] theorem State.setFlag_par (s : State) (a1 : Nat) (a2 : Fld) (a3 : Bool) : (s.setFlag a1 a2 a3).par = s.par := (rfl)
@[simp] theorem State.setFlag_arr (s : State) (a1 : Nat) (a2 : Fld) (a3 : Bool) : (s.setFlag a1 a2 a3).arr = s.arr := (rfl)
@[simp] theorem State.setFlag_csa (s : State) (a1 : Nat) (a2 : Fld) (a3 : Bool) : (s.setFlag a1 a2 a3).csa = s.csa := (rfl)
@[simp] theorem State.setFlag_keys (s : State) (a1 : Nat) (a2 : Fld) (a3 : Bool) : (s.setFlag a1 a2 a3).keys = s.keys := (rfl)
@[simp] theorem State.setFlag_pgt (s : State) (a1 : Nat) (a2 : Fld) (a3 : Bool) : (s.setFlag a1 a2 a3).pgt = s.pgt := (rfl)
@[simp] theorem State.setFlag_otp (s : State) (a1 : Nat) (a2 : Fld) (a3 : Bool) : (s.setFlag a1 a2 a3).otp = s.otp := (rfl)
@[simp] theorem State.setFlag_boot (s : State) (a1 : Nat) (a2 : Fld) (a3 : Bool) : (s.setFlag a1 a2 a3).boot = s.boot := (rfl)
@[simp] theorem State.setFlag_free (s : State) (a1 : Nat) (a2 : Fld) (a3 : Bool) : (s.setFlag a1 a2 a3).free = s.free := (rfl)
@[simp] theorem State.setFlag_out (s : State) (a1 : Nat) (a2 : Fld) (a3 : Bool) : (s.setFlag a1 a2 a3).out = s.out := (rfl)
@[simp] theorem State.setFlag_pending (s : State) (a1 : Nat) (a2 : Fld) (a3 : Bool) : (s.setFlag a1 a2 a3).pending = s.pending := (rfl)

@[simp] theorem State.addFld_variant (s : State) (a1 : Nat) (a2 : Fld) (a3 : Nat) : (s.addFld a1 a2 a3).variant = s.variant := (rfl)
@[simp] theorem State.addFld_side (s : State) (a1 : Nat) (a2 : Fld) (a3 : Nat) : (s.addFld a1 a2 a3).side = s.side := (rfl)
@[simp] theorem State.addFld_wo (s : State) (a1 : Nat) (a2 : Fld) (a3 : Nat) : (s.addFld a1 a2 a3).wo = s.wo := (rfl)
@[simp] theorem State.addFld_active (s : State) (a1 : Nat) (a2 : Fld) (a3 : Nat) : (s.addFld a1 a2 a3).active = s.active := (rfl)
@[simp] theorem State.addFld_shadow (s : State) (a1 : Nat) (a2 : Fld) (a3 : Nat) : (s.addFld a1 a2 a3).shadow = s.shadow := (rfl)
@[simp] theorem State.addFld_copying (s : State) (a1 : Nat) (a2 : Fld) (a3 : Nat) : (s.addFld a1 a2 a3).copying = s.copying := (rfl)
@[simp] theorem State.addFld_heldWrites (s : State) (a1 : Nat) (a2 : Fld) (a3 : Nat) : (s.addFld a1 a2 a3).heldWrites = s.heldWrites := (rfl)
@[simp] theorem State.addFld_mem (s : State) (a1 : Nat) (a2 : Fld) (a3 : Nat) : (s.addFld a1 a2 a3).mem = s.mem := (rfl)
@[simp] theorem State.addFld_pins (s : State) (a1 : Nat) (a2 : Fld) (a3 : Nat) : (s.addFld a1 a2 a3).pins = s.pins := (rfl)
@[simp] theorem State.addFld_ao (s : State) (a1 : Nat) (a2 : Fld) (a3 : Nat) : (s.addFld a1 a2 a3).ao = s.ao := (rfl)
@[simp] theorem State.addFld_time (s : State) (a1 : Nat) (a2 : Fld) (a3 : Nat) : (s.addFld a1 a2 a3).time = s.time := (rfl)
@[simp] theorem State.addFld_nor (s : State) (a1 : Nat) (a2 : Fld) (a3 : Nat) : (s.addFld a1 a2 a3).nor = s.nor := (rfl)
@[simp] theorem State.addFld_thm (s : State) (a1 : Nat) (a2 : Fld) (a3 : Nat) : (s.addFld a1 a2 a3).thm = s.thm := (rfl)
@[simp] theorem State.addFld_nand (s : State) (a1 : Nat) (a2 : Fld) (a3 : Nat) : (s.addFld a1 a2 a3).nand = s.nand := (rfl)
@[simp] theorem State.addFld_hrd (s : State) (a1 : Nat) (a2 : Fld) (a3 : Nat) : (s.addFld a1 a2 a3).hrd = s.hrd := (rfl)
@[simp] theorem State.addFld_host (s : State) (a1 : Nat) (a2 : Fld) (a3 : Nat) : (s.addFld a1 a2 a3).host = s.host := (rfl)
@[simp] theorem State.addFld_pair (s : State) (a1 : Nat) (a2 : Fld) (a3 : Nat) : (s.addFld a1 a2 a3).pair = s.pair := (rfl)
@[simp] theorem State.addFld_jrnl (s : State) (a1 : Nat) (a2 : Fld) (a3 : Nat) : (s.addFld a1 a2 a3).jrnl = s.jrnl := (rfl)
@[simp] theorem State.addFld_rdma (s : State) (a1 : Nat) (a2 : Fld) (a3 : Nat) : (s.addFld a1 a2 a3).rdma = s.rdma := (rfl)
@[simp] theorem State.addFld_med (s : State) (a1 : Nat) (a2 : Fld) (a3 : Nat) : (s.addFld a1 a2 a3).med = s.med := (rfl)
@[simp] theorem State.addFld_dst (s : State) (a1 : Nat) (a2 : Fld) (a3 : Nat) : (s.addFld a1 a2 a3).dst = s.dst := (rfl)
@[simp] theorem State.addFld_ftl (s : State) (a1 : Nat) (a2 : Fld) (a3 : Nat) : (s.addFld a1 a2 a3).ftl = s.ftl := (rfl)
@[simp] theorem State.addFld_par (s : State) (a1 : Nat) (a2 : Fld) (a3 : Nat) : (s.addFld a1 a2 a3).par = s.par := (rfl)
@[simp] theorem State.addFld_arr (s : State) (a1 : Nat) (a2 : Fld) (a3 : Nat) : (s.addFld a1 a2 a3).arr = s.arr := (rfl)
@[simp] theorem State.addFld_csa (s : State) (a1 : Nat) (a2 : Fld) (a3 : Nat) : (s.addFld a1 a2 a3).csa = s.csa := (rfl)
@[simp] theorem State.addFld_keys (s : State) (a1 : Nat) (a2 : Fld) (a3 : Nat) : (s.addFld a1 a2 a3).keys = s.keys := (rfl)
@[simp] theorem State.addFld_pgt (s : State) (a1 : Nat) (a2 : Fld) (a3 : Nat) : (s.addFld a1 a2 a3).pgt = s.pgt := (rfl)
@[simp] theorem State.addFld_otp (s : State) (a1 : Nat) (a2 : Fld) (a3 : Nat) : (s.addFld a1 a2 a3).otp = s.otp := (rfl)
@[simp] theorem State.addFld_boot (s : State) (a1 : Nat) (a2 : Fld) (a3 : Nat) : (s.addFld a1 a2 a3).boot = s.boot := (rfl)
@[simp] theorem State.addFld_free (s : State) (a1 : Nat) (a2 : Fld) (a3 : Nat) : (s.addFld a1 a2 a3).free = s.free := (rfl)
@[simp] theorem State.addFld_out (s : State) (a1 : Nat) (a2 : Fld) (a3 : Nat) : (s.addFld a1 a2 a3).out = s.out := (rfl)
@[simp] theorem State.addFld_pending (s : State) (a1 : Nat) (a2 : Fld) (a3 : Nat) : (s.addFld a1 a2 a3).pending = s.pending := (rfl)

@[simp] theorem State.emit_variant (s : State) (a1 : Out) : (s.emit a1).variant = s.variant := (rfl)
@[simp] theorem State.emit_side (s : State) (a1 : Out) : (s.emit a1).side = s.side := (rfl)
@[simp] theorem State.emit_regs (s : State) (a1 : Out) : (s.emit a1).regs = s.regs := (rfl)
@[simp] theorem State.emit_wo (s : State) (a1 : Out) : (s.emit a1).wo = s.wo := (rfl)
@[simp] theorem State.emit_active (s : State) (a1 : Out) : (s.emit a1).active = s.active := (rfl)
@[simp] theorem State.emit_shadow (s : State) (a1 : Out) : (s.emit a1).shadow = s.shadow := (rfl)
@[simp] theorem State.emit_copying (s : State) (a1 : Out) : (s.emit a1).copying = s.copying := (rfl)
@[simp] theorem State.emit_heldWrites (s : State) (a1 : Out) : (s.emit a1).heldWrites = s.heldWrites := (rfl)
@[simp] theorem State.emit_mem (s : State) (a1 : Out) : (s.emit a1).mem = s.mem := (rfl)
@[simp] theorem State.emit_pins (s : State) (a1 : Out) : (s.emit a1).pins = s.pins := (rfl)
@[simp] theorem State.emit_ao (s : State) (a1 : Out) : (s.emit a1).ao = s.ao := (rfl)
@[simp] theorem State.emit_time (s : State) (a1 : Out) : (s.emit a1).time = s.time := (rfl)
@[simp] theorem State.emit_nor (s : State) (a1 : Out) : (s.emit a1).nor = s.nor := (rfl)
@[simp] theorem State.emit_thm (s : State) (a1 : Out) : (s.emit a1).thm = s.thm := (rfl)
@[simp] theorem State.emit_nand (s : State) (a1 : Out) : (s.emit a1).nand = s.nand := (rfl)
@[simp] theorem State.emit_hrd (s : State) (a1 : Out) : (s.emit a1).hrd = s.hrd := (rfl)
@[simp] theorem State.emit_host (s : State) (a1 : Out) : (s.emit a1).host = s.host := (rfl)
@[simp] theorem State.emit_pair (s : State) (a1 : Out) : (s.emit a1).pair = s.pair := (rfl)
@[simp] theorem State.emit_jrnl (s : State) (a1 : Out) : (s.emit a1).jrnl = s.jrnl := (rfl)
@[simp] theorem State.emit_rdma (s : State) (a1 : Out) : (s.emit a1).rdma = s.rdma := (rfl)
@[simp] theorem State.emit_med (s : State) (a1 : Out) : (s.emit a1).med = s.med := (rfl)
@[simp] theorem State.emit_dst (s : State) (a1 : Out) : (s.emit a1).dst = s.dst := (rfl)
@[simp] theorem State.emit_ftl (s : State) (a1 : Out) : (s.emit a1).ftl = s.ftl := (rfl)
@[simp] theorem State.emit_par (s : State) (a1 : Out) : (s.emit a1).par = s.par := (rfl)
@[simp] theorem State.emit_arr (s : State) (a1 : Out) : (s.emit a1).arr = s.arr := (rfl)
@[simp] theorem State.emit_csa (s : State) (a1 : Out) : (s.emit a1).csa = s.csa := (rfl)
@[simp] theorem State.emit_keys (s : State) (a1 : Out) : (s.emit a1).keys = s.keys := (rfl)
@[simp] theorem State.emit_pgt (s : State) (a1 : Out) : (s.emit a1).pgt = s.pgt := (rfl)
@[simp] theorem State.emit_otp (s : State) (a1 : Out) : (s.emit a1).otp = s.otp := (rfl)
@[simp] theorem State.emit_boot (s : State) (a1 : Out) : (s.emit a1).boot = s.boot := (rfl)
@[simp] theorem State.emit_free (s : State) (a1 : Out) : (s.emit a1).free = s.free := (rfl)
@[simp] theorem State.emit_pending (s : State) (a1 : Out) : (s.emit a1).pending = s.pending := (rfl)

@[simp] theorem State.emits_variant (s : State) (a1 : List Out) : (s.emits a1).variant = s.variant := (rfl)
@[simp] theorem State.emits_side (s : State) (a1 : List Out) : (s.emits a1).side = s.side := (rfl)
@[simp] theorem State.emits_regs (s : State) (a1 : List Out) : (s.emits a1).regs = s.regs := (rfl)
@[simp] theorem State.emits_wo (s : State) (a1 : List Out) : (s.emits a1).wo = s.wo := (rfl)
@[simp] theorem State.emits_active (s : State) (a1 : List Out) : (s.emits a1).active = s.active := (rfl)
@[simp] theorem State.emits_shadow (s : State) (a1 : List Out) : (s.emits a1).shadow = s.shadow := (rfl)
@[simp] theorem State.emits_copying (s : State) (a1 : List Out) : (s.emits a1).copying = s.copying := (rfl)
@[simp] theorem State.emits_heldWrites (s : State) (a1 : List Out) : (s.emits a1).heldWrites = s.heldWrites := (rfl)
@[simp] theorem State.emits_mem (s : State) (a1 : List Out) : (s.emits a1).mem = s.mem := (rfl)
@[simp] theorem State.emits_pins (s : State) (a1 : List Out) : (s.emits a1).pins = s.pins := (rfl)
@[simp] theorem State.emits_ao (s : State) (a1 : List Out) : (s.emits a1).ao = s.ao := (rfl)
@[simp] theorem State.emits_time (s : State) (a1 : List Out) : (s.emits a1).time = s.time := (rfl)
@[simp] theorem State.emits_nor (s : State) (a1 : List Out) : (s.emits a1).nor = s.nor := (rfl)
@[simp] theorem State.emits_thm (s : State) (a1 : List Out) : (s.emits a1).thm = s.thm := (rfl)
@[simp] theorem State.emits_nand (s : State) (a1 : List Out) : (s.emits a1).nand = s.nand := (rfl)
@[simp] theorem State.emits_hrd (s : State) (a1 : List Out) : (s.emits a1).hrd = s.hrd := (rfl)
@[simp] theorem State.emits_host (s : State) (a1 : List Out) : (s.emits a1).host = s.host := (rfl)
@[simp] theorem State.emits_pair (s : State) (a1 : List Out) : (s.emits a1).pair = s.pair := (rfl)
@[simp] theorem State.emits_jrnl (s : State) (a1 : List Out) : (s.emits a1).jrnl = s.jrnl := (rfl)
@[simp] theorem State.emits_rdma (s : State) (a1 : List Out) : (s.emits a1).rdma = s.rdma := (rfl)
@[simp] theorem State.emits_med (s : State) (a1 : List Out) : (s.emits a1).med = s.med := (rfl)
@[simp] theorem State.emits_dst (s : State) (a1 : List Out) : (s.emits a1).dst = s.dst := (rfl)
@[simp] theorem State.emits_ftl (s : State) (a1 : List Out) : (s.emits a1).ftl = s.ftl := (rfl)
@[simp] theorem State.emits_par (s : State) (a1 : List Out) : (s.emits a1).par = s.par := (rfl)
@[simp] theorem State.emits_arr (s : State) (a1 : List Out) : (s.emits a1).arr = s.arr := (rfl)
@[simp] theorem State.emits_csa (s : State) (a1 : List Out) : (s.emits a1).csa = s.csa := (rfl)
@[simp] theorem State.emits_keys (s : State) (a1 : List Out) : (s.emits a1).keys = s.keys := (rfl)
@[simp] theorem State.emits_pgt (s : State) (a1 : List Out) : (s.emits a1).pgt = s.pgt := (rfl)
@[simp] theorem State.emits_otp (s : State) (a1 : List Out) : (s.emits a1).otp = s.otp := (rfl)
@[simp] theorem State.emits_boot (s : State) (a1 : List Out) : (s.emits a1).boot = s.boot := (rfl)
@[simp] theorem State.emits_free (s : State) (a1 : List Out) : (s.emits a1).free = s.free := (rfl)
@[simp] theorem State.emits_pending (s : State) (a1 : List Out) : (s.emits a1).pending = s.pending := (rfl)

@[simp] theorem State.setActive_variant (s : State) (a1 : Nat) (a2 : Word) : (s.setActive a1 a2).variant = s.variant := (rfl)
@[simp] theorem State.setActive_side (s : State) (a1 : Nat) (a2 : Word) : (s.setActive a1 a2).side = s.side := (rfl)
@[simp] theorem State.setActive_regs (s : State) (a1 : Nat) (a2 : Word) : (s.setActive a1 a2).regs = s.regs := (rfl)
@[simp] theorem State.setActive_wo (s : State) (a1 : Nat) (a2 : Word) : (s.setActive a1 a2).wo = s.wo := (rfl)
@[simp] theorem State.setActive_shadow (s : State) (a1 : Nat) (a2 : Word) : (s.setActive a1 a2).shadow = s.shadow := (rfl)
@[simp] theorem State.setActive_copying (s : State) (a1 : Nat) (a2 : Word) : (s.setActive a1 a2).copying = s.copying := (rfl)
@[simp] theorem State.setActive_heldWrites (s : State) (a1 : Nat) (a2 : Word) : (s.setActive a1 a2).heldWrites = s.heldWrites := (rfl)
@[simp] theorem State.setActive_mem (s : State) (a1 : Nat) (a2 : Word) : (s.setActive a1 a2).mem = s.mem := (rfl)
@[simp] theorem State.setActive_pins (s : State) (a1 : Nat) (a2 : Word) : (s.setActive a1 a2).pins = s.pins := (rfl)
@[simp] theorem State.setActive_ao (s : State) (a1 : Nat) (a2 : Word) : (s.setActive a1 a2).ao = s.ao := (rfl)
@[simp] theorem State.setActive_time (s : State) (a1 : Nat) (a2 : Word) : (s.setActive a1 a2).time = s.time := (rfl)
@[simp] theorem State.setActive_nor (s : State) (a1 : Nat) (a2 : Word) : (s.setActive a1 a2).nor = s.nor := (rfl)
@[simp] theorem State.setActive_thm (s : State) (a1 : Nat) (a2 : Word) : (s.setActive a1 a2).thm = s.thm := (rfl)
@[simp] theorem State.setActive_nand (s : State) (a1 : Nat) (a2 : Word) : (s.setActive a1 a2).nand = s.nand := (rfl)
@[simp] theorem State.setActive_hrd (s : State) (a1 : Nat) (a2 : Word) : (s.setActive a1 a2).hrd = s.hrd := (rfl)
@[simp] theorem State.setActive_host (s : State) (a1 : Nat) (a2 : Word) : (s.setActive a1 a2).host = s.host := (rfl)
@[simp] theorem State.setActive_pair (s : State) (a1 : Nat) (a2 : Word) : (s.setActive a1 a2).pair = s.pair := (rfl)
@[simp] theorem State.setActive_jrnl (s : State) (a1 : Nat) (a2 : Word) : (s.setActive a1 a2).jrnl = s.jrnl := (rfl)
@[simp] theorem State.setActive_rdma (s : State) (a1 : Nat) (a2 : Word) : (s.setActive a1 a2).rdma = s.rdma := (rfl)
@[simp] theorem State.setActive_med (s : State) (a1 : Nat) (a2 : Word) : (s.setActive a1 a2).med = s.med := (rfl)
@[simp] theorem State.setActive_dst (s : State) (a1 : Nat) (a2 : Word) : (s.setActive a1 a2).dst = s.dst := (rfl)
@[simp] theorem State.setActive_ftl (s : State) (a1 : Nat) (a2 : Word) : (s.setActive a1 a2).ftl = s.ftl := (rfl)
@[simp] theorem State.setActive_par (s : State) (a1 : Nat) (a2 : Word) : (s.setActive a1 a2).par = s.par := (rfl)
@[simp] theorem State.setActive_arr (s : State) (a1 : Nat) (a2 : Word) : (s.setActive a1 a2).arr = s.arr := (rfl)
@[simp] theorem State.setActive_csa (s : State) (a1 : Nat) (a2 : Word) : (s.setActive a1 a2).csa = s.csa := (rfl)
@[simp] theorem State.setActive_keys (s : State) (a1 : Nat) (a2 : Word) : (s.setActive a1 a2).keys = s.keys := (rfl)
@[simp] theorem State.setActive_pgt (s : State) (a1 : Nat) (a2 : Word) : (s.setActive a1 a2).pgt = s.pgt := (rfl)
@[simp] theorem State.setActive_otp (s : State) (a1 : Nat) (a2 : Word) : (s.setActive a1 a2).otp = s.otp := (rfl)
@[simp] theorem State.setActive_boot (s : State) (a1 : Nat) (a2 : Word) : (s.setActive a1 a2).boot = s.boot := (rfl)
@[simp] theorem State.setActive_free (s : State) (a1 : Nat) (a2 : Word) : (s.setActive a1 a2).free = s.free := (rfl)
@[simp] theorem State.setActive_out (s : State) (a1 : Nat) (a2 : Word) : (s.setActive a1 a2).out = s.out := (rfl)
@[simp] theorem State.setActive_pending (s : State) (a1 : Nat) (a2 : Word) : (s.setActive a1 a2).pending = s.pending := (rfl)

@[simp] theorem State.setShadow_variant (s : State) (a1 : Nat) (a2 : Word) : (s.setShadow a1 a2).variant = s.variant := (rfl)
@[simp] theorem State.setShadow_side (s : State) (a1 : Nat) (a2 : Word) : (s.setShadow a1 a2).side = s.side := (rfl)
@[simp] theorem State.setShadow_regs (s : State) (a1 : Nat) (a2 : Word) : (s.setShadow a1 a2).regs = s.regs := (rfl)
@[simp] theorem State.setShadow_wo (s : State) (a1 : Nat) (a2 : Word) : (s.setShadow a1 a2).wo = s.wo := (rfl)
@[simp] theorem State.setShadow_active (s : State) (a1 : Nat) (a2 : Word) : (s.setShadow a1 a2).active = s.active := (rfl)
@[simp] theorem State.setShadow_copying (s : State) (a1 : Nat) (a2 : Word) : (s.setShadow a1 a2).copying = s.copying := (rfl)
@[simp] theorem State.setShadow_heldWrites (s : State) (a1 : Nat) (a2 : Word) : (s.setShadow a1 a2).heldWrites = s.heldWrites := (rfl)
@[simp] theorem State.setShadow_mem (s : State) (a1 : Nat) (a2 : Word) : (s.setShadow a1 a2).mem = s.mem := (rfl)
@[simp] theorem State.setShadow_pins (s : State) (a1 : Nat) (a2 : Word) : (s.setShadow a1 a2).pins = s.pins := (rfl)
@[simp] theorem State.setShadow_ao (s : State) (a1 : Nat) (a2 : Word) : (s.setShadow a1 a2).ao = s.ao := (rfl)
@[simp] theorem State.setShadow_time (s : State) (a1 : Nat) (a2 : Word) : (s.setShadow a1 a2).time = s.time := (rfl)
@[simp] theorem State.setShadow_nor (s : State) (a1 : Nat) (a2 : Word) : (s.setShadow a1 a2).nor = s.nor := (rfl)
@[simp] theorem State.setShadow_thm (s : State) (a1 : Nat) (a2 : Word) : (s.setShadow a1 a2).thm = s.thm := (rfl)
@[simp] theorem State.setShadow_nand (s : State) (a1 : Nat) (a2 : Word) : (s.setShadow a1 a2).nand = s.nand := (rfl)
@[simp] theorem State.setShadow_hrd (s : State) (a1 : Nat) (a2 : Word) : (s.setShadow a1 a2).hrd = s.hrd := (rfl)
@[simp] theorem State.setShadow_host (s : State) (a1 : Nat) (a2 : Word) : (s.setShadow a1 a2).host = s.host := (rfl)
@[simp] theorem State.setShadow_pair (s : State) (a1 : Nat) (a2 : Word) : (s.setShadow a1 a2).pair = s.pair := (rfl)
@[simp] theorem State.setShadow_jrnl (s : State) (a1 : Nat) (a2 : Word) : (s.setShadow a1 a2).jrnl = s.jrnl := (rfl)
@[simp] theorem State.setShadow_rdma (s : State) (a1 : Nat) (a2 : Word) : (s.setShadow a1 a2).rdma = s.rdma := (rfl)
@[simp] theorem State.setShadow_med (s : State) (a1 : Nat) (a2 : Word) : (s.setShadow a1 a2).med = s.med := (rfl)
@[simp] theorem State.setShadow_dst (s : State) (a1 : Nat) (a2 : Word) : (s.setShadow a1 a2).dst = s.dst := (rfl)
@[simp] theorem State.setShadow_ftl (s : State) (a1 : Nat) (a2 : Word) : (s.setShadow a1 a2).ftl = s.ftl := (rfl)
@[simp] theorem State.setShadow_par (s : State) (a1 : Nat) (a2 : Word) : (s.setShadow a1 a2).par = s.par := (rfl)
@[simp] theorem State.setShadow_arr (s : State) (a1 : Nat) (a2 : Word) : (s.setShadow a1 a2).arr = s.arr := (rfl)
@[simp] theorem State.setShadow_csa (s : State) (a1 : Nat) (a2 : Word) : (s.setShadow a1 a2).csa = s.csa := (rfl)
@[simp] theorem State.setShadow_keys (s : State) (a1 : Nat) (a2 : Word) : (s.setShadow a1 a2).keys = s.keys := (rfl)
@[simp] theorem State.setShadow_pgt (s : State) (a1 : Nat) (a2 : Word) : (s.setShadow a1 a2).pgt = s.pgt := (rfl)
@[simp] theorem State.setShadow_otp (s : State) (a1 : Nat) (a2 : Word) : (s.setShadow a1 a2).otp = s.otp := (rfl)
@[simp] theorem State.setShadow_boot (s : State) (a1 : Nat) (a2 : Word) : (s.setShadow a1 a2).boot = s.boot := (rfl)
@[simp] theorem State.setShadow_free (s : State) (a1 : Nat) (a2 : Word) : (s.setShadow a1 a2).free = s.free := (rfl)
@[simp] theorem State.setShadow_out (s : State) (a1 : Nat) (a2 : Word) : (s.setShadow a1 a2).out = s.out := (rfl)
@[simp] theorem State.setShadow_pending (s : State) (a1 : Nat) (a2 : Word) : (s.setShadow a1 a2).pending = s.pending := (rfl)

@[simp] theorem State.store_variant (s : State) (a1 : Nat) (a2 : Byte) : (s.store a1 a2).variant = s.variant := (rfl)
@[simp] theorem State.store_side (s : State) (a1 : Nat) (a2 : Byte) : (s.store a1 a2).side = s.side := (rfl)
@[simp] theorem State.store_regs (s : State) (a1 : Nat) (a2 : Byte) : (s.store a1 a2).regs = s.regs := (rfl)
@[simp] theorem State.store_wo (s : State) (a1 : Nat) (a2 : Byte) : (s.store a1 a2).wo = s.wo := (rfl)
@[simp] theorem State.store_active (s : State) (a1 : Nat) (a2 : Byte) : (s.store a1 a2).active = s.active := (rfl)
@[simp] theorem State.store_shadow (s : State) (a1 : Nat) (a2 : Byte) : (s.store a1 a2).shadow = s.shadow := (rfl)
@[simp] theorem State.store_copying (s : State) (a1 : Nat) (a2 : Byte) : (s.store a1 a2).copying = s.copying := (rfl)
@[simp] theorem State.store_heldWrites (s : State) (a1 : Nat) (a2 : Byte) : (s.store a1 a2).heldWrites = s.heldWrites := (rfl)
@[simp] theorem State.store_pins (s : State) (a1 : Nat) (a2 : Byte) : (s.store a1 a2).pins = s.pins := (rfl)
@[simp] theorem State.store_ao (s : State) (a1 : Nat) (a2 : Byte) : (s.store a1 a2).ao = s.ao := (rfl)
@[simp] theorem State.store_time (s : State) (a1 : Nat) (a2 : Byte) : (s.store a1 a2).time = s.time := (rfl)
@[simp] theorem State.store_nor (s : State) (a1 : Nat) (a2 : Byte) : (s.store a1 a2).nor = s.nor := (rfl)
@[simp] theorem State.store_thm (s : State) (a1 : Nat) (a2 : Byte) : (s.store a1 a2).thm = s.thm := (rfl)
@[simp] theorem State.store_nand (s : State) (a1 : Nat) (a2 : Byte) : (s.store a1 a2).nand = s.nand := (rfl)
@[simp] theorem State.store_hrd (s : State) (a1 : Nat) (a2 : Byte) : (s.store a1 a2).hrd = s.hrd := (rfl)
@[simp] theorem State.store_host (s : State) (a1 : Nat) (a2 : Byte) : (s.store a1 a2).host = s.host := (rfl)
@[simp] theorem State.store_pair (s : State) (a1 : Nat) (a2 : Byte) : (s.store a1 a2).pair = s.pair := (rfl)
@[simp] theorem State.store_jrnl (s : State) (a1 : Nat) (a2 : Byte) : (s.store a1 a2).jrnl = s.jrnl := (rfl)
@[simp] theorem State.store_rdma (s : State) (a1 : Nat) (a2 : Byte) : (s.store a1 a2).rdma = s.rdma := (rfl)
@[simp] theorem State.store_med (s : State) (a1 : Nat) (a2 : Byte) : (s.store a1 a2).med = s.med := (rfl)
@[simp] theorem State.store_dst (s : State) (a1 : Nat) (a2 : Byte) : (s.store a1 a2).dst = s.dst := (rfl)
@[simp] theorem State.store_ftl (s : State) (a1 : Nat) (a2 : Byte) : (s.store a1 a2).ftl = s.ftl := (rfl)
@[simp] theorem State.store_par (s : State) (a1 : Nat) (a2 : Byte) : (s.store a1 a2).par = s.par := (rfl)
@[simp] theorem State.store_arr (s : State) (a1 : Nat) (a2 : Byte) : (s.store a1 a2).arr = s.arr := (rfl)
@[simp] theorem State.store_csa (s : State) (a1 : Nat) (a2 : Byte) : (s.store a1 a2).csa = s.csa := (rfl)
@[simp] theorem State.store_keys (s : State) (a1 : Nat) (a2 : Byte) : (s.store a1 a2).keys = s.keys := (rfl)
@[simp] theorem State.store_pgt (s : State) (a1 : Nat) (a2 : Byte) : (s.store a1 a2).pgt = s.pgt := (rfl)
@[simp] theorem State.store_otp (s : State) (a1 : Nat) (a2 : Byte) : (s.store a1 a2).otp = s.otp := (rfl)
@[simp] theorem State.store_boot (s : State) (a1 : Nat) (a2 : Byte) : (s.store a1 a2).boot = s.boot := (rfl)
@[simp] theorem State.store_free (s : State) (a1 : Nat) (a2 : Byte) : (s.store a1 a2).free = s.free := (rfl)
@[simp] theorem State.store_out (s : State) (a1 : Nat) (a2 : Byte) : (s.store a1 a2).out = s.out := (rfl)
@[simp] theorem State.store_pending (s : State) (a1 : Nat) (a2 : Byte) : (s.store a1 a2).pending = s.pending := (rfl)

/-- From `s` to `t` only registers, memory and the control planes of the tiles may differ. -/
def RingOnly (s t : State) : Prop := ∃ r m h, t = { s with regs := r, mem := m, hrd := h }

theorem RingOnly.refl (s : State) : RingOnly s s := ⟨_, _, _, rfl⟩

theorem RingOnly.trans {s t u : State} (h : RingOnly s t) (k : RingOnly t u) : RingOnly s u := by
  obtain ⟨_, _, _, rfl⟩ := h
  obtain ⟨_, _, _, rfl⟩ := k
  exact ⟨_, _, _, rfl⟩

theorem State.setFld_ringOnly (s : State) (die : Nat) (f : Fld) (v : Nat) : RingOnly s (s.setFld die f v) := ⟨_, _, _, rfl⟩
theorem State.setFlag_ringOnly (s : State) (die : Nat) (f : Fld) (b : Bool) : RingOnly s (s.setFlag die f b) := ⟨_, _, _, rfl⟩
theorem State.addFld_ringOnly (s : State) (die : Nat) (f : Fld) (n : Nat) : RingOnly s (s.addFld die f n) := ⟨_, _, _, rfl⟩
theorem State.setRing_ringOnly (s : State) (tile r : Nat) (x : Ring) : RingOnly s (s.setRing tile r x) := ⟨_, _, _, rfl⟩

theorem State.stores_ringOnly (s : State) (a : Nat) (l : Bytes) : RingOnly s (s.stores a l) := by
  induction l generalizing s a with
  | nil => exact .refl s
  | cons b l ih => exact RingOnly.trans (t := s.store a b) ⟨_, _, _, rfl⟩ (ih _ _)

theorem State.placeMsg_ringOnly (s : State) (tile r : Nat) (m : RingMsg) : RingOnly s (s.placeMsg tile r m) :=
  ((State.stores_ringOnly s _ _).trans (State.setRing_ringOnly _ _ _ _)).trans (State.setFld_ringOnly _ _ _ _)

theorem State.tryPost_ringOnly (s : State) (tile r : Nat) (m : RingMsg) : RingOnly s (s.tryPost tile r m).1 := by
  unfold State.tryPost
  extract_lets x w a
  have hw : RingOnly s w := State.setRing_ringOnly _ _ _ _
  split
  · exact hw
  · split
    · exact hw.trans (State.addFld_ringOnly _ _ _ _)
    · split
      · exact State.placeMsg_ringOnly _ _ _ _
      · exact State.setRing_ringOnly _ _ _ _

theorem State.freezeChan_ringOnly (s : State) (tile mid chan : Nat) (x : Option (Nat × AccKind)) :
    RingOnly s (s.freezeChan tile mid chan x) :=
  (((((RingOnly.trans (t := s.setFrz tile mid chan _) ⟨_, _, _, rfl⟩ (State.setFld_ringOnly _ _ _ _)).trans
    (State.setFlag_ringOnly _ _ _ _)).trans (State.setFld_ringOnly _ _ _ _)).trans (State.setFld_ringOnly _ _ _ _)).trans
    (State.addFld_ringOnly _ _ _ _))

theorem State.logFault_ringOnly (s : State) (tile : Nat) (f : FaultRec) : RingOnly s (s.logFault tile f) := by
  unfold State.logFault
  extract_lets
  split <;> exact ⟨_, _, _, rfl⟩

theorem State.channelFault_ringOnly (s : State) (tile mid chan addr : Nat) (k : AccKind) (c : Nat) :
    RingOnly s (s.channelFault tile mid chan addr k c) :=
  ((State.freezeChan_ringOnly s _ _ _ _).trans (State.logFault_ringOnly _ _ _)).trans (State.tryPost_ringOnly _ _ _ _)

/-- A message that the ring unit posts changes nothing else (R562, R570). -/
theorem State.post_ringOnly (s : State) (tile r mid : Nat) (b : RingBody) : RingOnly s (s.post tile r mid b) := by
  have h := s.tryPost_ringOnly tile r (s.msgOf tile mid b)
  unfold State.post
  split
  · rename_i e; rw [e] at h; exact h
  · rename_i e; rw [e] at h; exact h.trans (State.channelFault_ringOnly _ _ _ _ _ _ _)

theorem State.exc_ringOnly (s : State) (tile : Nat) (k : ExcKind) (l : List Nat) : RingOnly s (s.exc tile k l) := s.post_ringOnly _ _ _ _

/-- A field that the ring unit leaves alone. -/
theorem State.exc_same {α : Type} (g : State → α) (hg : ∀ (s : State) r m h, g { s with regs := r, mem := m, hrd := h } = g s) (s : State)
    (tile : Nat) (k : ExcKind) (l : List Nat) : g (s.exc tile k l) = g s := by
  obtain ⟨r, m, h, e⟩ := s.exc_ringOnly tile k l
  rw [e, hg]

@[simp] theorem State.exc_variant (s : State) (a1 : Nat) (a2 : ExcKind) (a3 : List Nat) : (s.exc a1 a2 a3).variant = s.variant := s.exc_same State.variant (fun _ _ _ _ => rfl) a1 a2 a3
@[simp] theorem State.exc_side (s : State) (a1 : Nat) (a2 : ExcKind) (a3 : List Nat) : (s.exc a1 a2 a3).side = s.side := s.exc_same State.side (fun _ _ _ _ => rfl) a1 a2 a3
@[simp] theorem State.exc_wo (s : State) (a1 : Nat) (a2 : ExcKind) (a3 : List Nat) : (s.exc a1 a2 a3).wo = s.wo := s.exc_same State.wo (fun _ _ _ _ => rfl) a1 a2 a3
@[simp] theorem State.exc_active (s : State) (a1 : Nat) (a2 : ExcKind) (a3 : List Nat) : (s.exc a1 a2 a3).active = s.active := s.exc_same State.active (fun _ _ _ _ => rfl) a1 a2 a3
@[simp] theorem State.exc_shadow (s : State) (a1 : Nat) (a2 : ExcKind) (a3 : List Nat) : (s.exc a1 a2 a3).shadow = s.shadow := s.exc_same State.shadow (fun _ _ _ _ => rfl) a1 a2 a3
@[simp] theorem State.exc_copying (s : State) (a1 : Nat) (a2 : ExcKind) (a3 : List Nat) : (s.exc a1 a2 a3).copying = s.copying := s.exc_same State.copying (fun _ _ _ _ => rfl) a1 a2 a3
@[simp] theorem State.exc_heldWrites (s : State) (a1 : Nat) (a2 : ExcKind) (a3 : List Nat) : (s.exc a1 a2 a3).heldWrites = s.heldWrites := s.exc_same State.heldWrites (fun _ _ _ _ => rfl) a1 a2 a3
@[simp] theorem State.exc_pins (s : State) (a1 : Nat) (a2 : ExcKind) (a3 : List Nat) : (s.exc a1 a2 a3).pins = s.pins := s.exc_same State.pins (fun _ _ _ _ => rfl) a1 a2 a3
@[simp] theorem State.exc_ao (s : State) (a1 : Nat) (a2 : ExcKind) (a3 : List Nat) : (s.exc a1 a2 a3).ao = s.ao := s.exc_same State.ao (fun _ _ _ _ => rfl) a1 a2 a3
@[simp] theorem State.exc_time (s : State) (a1 : Nat) (a2 : ExcKind) (a3 : List Nat) : (s.exc a1 a2 a3).time = s.time := s.exc_same State.time (fun _ _ _ _ => rfl) a1 a2 a3
@[simp] theorem State.exc_nor (s : State) (a1 : Nat) (a2 : ExcKind) (a3 : List Nat) : (s.exc a1 a2 a3).nor = s.nor := s.exc_same State.nor (fun _ _ _ _ => rfl) a1 a2 a3
@[simp] theorem State.exc_thm (s : State) (a1 : Nat) (a2 : ExcKind) (a3 : List Nat) : (s.exc a1 a2 a3).thm = s.thm := s.exc_same State.thm (fun _ _ _ _ => rfl) a1 a2 a3
@[simp] theorem State.exc_nand (s : State) (a1 : Nat) (a2 : ExcKind) (a3 : List Nat) : (s.exc a1 a2 a3).nand = s.nand := s.exc_same State.nand (fun _ _ _ _ => rfl) a1 a2 a3
@[simp] theorem State.exc_host (s : State) (a1 : Nat) (a2 : ExcKind) (a3 : List Nat) : (s.exc a1 a2 a3).host = s.host := s.exc_same State.host (fun _ _ _ _ => rfl) a1 a2 a3
@[simp] theorem State.exc_pair (s : State) (a1 : Nat) (a2 : ExcKind) (a3 : List Nat) : (s.exc a1 a2 a3).pair = s.pair := s.exc_same State.pair (fun _ _ _ _ => rfl) a1 a2 a3
@[simp] theorem State.exc_jrnl (s : State) (a1 : Nat) (a2 : ExcKind) (a3 : List Nat) : (s.exc a1 a2 a3).jrnl = s.jrnl := s.exc_same State.jrnl (fun _ _ _ _ => rfl) a1 a2 a3
@[simp] theorem State.exc_rdma (s : State) (a1 : Nat) (a2 : ExcKind) (a3 : List Nat) : (s.exc a1 a2 a3).rdma = s.rdma := s.exc_same State.rdma (fun _ _ _ _ => rfl) a1 a2 a3
@[simp] theorem State.exc_med (s : State) (a1 : Nat) (a2 : ExcKind) (a3 : List Nat) : (s.exc a1 a2 a3).med = s.med := s.exc_same State.med (fun _ _ _ _ => rfl) a1 a2 a3
@[simp] theorem State.exc_dst (s : State) (a1 : Nat) (a2 : ExcKind) (a3 : List Nat) : (s.exc a1 a2 a3).dst = s.dst := s.exc_same State.dst (fun _ _ _ _ => rfl) a1 a2 a3
@[simp] theorem State.exc_ftl (s : State) (a1 : Nat) (a2 : ExcKind) (a3 : List Nat) : (s.exc a1 a2 a3).ftl = s.ftl := s.exc_same State.ftl (fun _ _ _ _ => rfl) a1 a2 a3
@[simp] theorem State.exc_par (s : State) (a1 : Nat) (a2 : ExcKind) (a3 : List Nat) : (s.exc a1 a2 a3).par = s.par := s.exc_same State.par (fun _ _ _ _ => rfl) a1 a2 a3
@[simp] theorem State.exc_arr (s : State) (a1 : Nat) (a2 : ExcKind) (a3 : List Nat) : (s.exc a1 a2 a3).arr = s.arr := s.exc_same State.arr (fun _ _ _ _ => rfl) a1 a2 a3
@[simp] theorem State.exc_csa (s : State) (a1 : Nat) (a2 : ExcKind) (a3 : List Nat) : (s.exc a1 a2 a3).csa = s.csa := s.exc_same State.csa (fun _ _ _ _ => rfl) a1 a2 a3
@[simp] theorem State.exc_keys (s : State) (a1 : Nat) (a2 : ExcKind) (a3 : List Nat) : (s.exc a1 a2 a3).keys = s.keys := s.exc_same State.keys (fun _ _ _ _ => rfl) a1 a2 a3
@[simp] theorem State.exc_pgt (s : State) (a1 : Nat) (a2 : ExcKind) (a3 : List Nat) : (s.exc a1 a2 a3).pgt = s.pgt := s.exc_same State.pgt (fun _ _ _ _ => rfl) a1 a2 a3
@[simp] theorem State.exc_otp (s : State) (a1 : Nat) (a2 : ExcKind) (a3 : List Nat) : (s.exc a1 a2 a3).otp = s.otp := s.exc_same State.otp (fun _ _ _ _ => rfl) a1 a2 a3
@[simp] theorem State.exc_boot (s : State) (a1 : Nat) (a2 : ExcKind) (a3 : List Nat) : (s.exc a1 a2 a3).boot = s.boot := s.exc_same State.boot (fun _ _ _ _ => rfl) a1 a2 a3
@[simp] theorem State.exc_free (s : State) (a1 : Nat) (a2 : ExcKind) (a3 : List Nat) : (s.exc a1 a2 a3).free = s.free := s.exc_same State.free (fun _ _ _ _ => rfl) a1 a2 a3
@[simp] theorem State.exc_out (s : State) (a1 : Nat) (a2 : ExcKind) (a3 : List Nat) : (s.exc a1 a2 a3).out = s.out := s.exc_same State.out (fun _ _ _ _ => rfl) a1 a2 a3
@[simp] theorem State.exc_pending (s : State) (a1 : Nat) (a2 : ExcKind) (a3 : List Nat) : (s.exc a1 a2 a3).pending = s.pending := s.exc_same State.pending (fun _ _ _ _ => rfl) a1 a2 a3

@[simp] theorem State.setFrz_variant (s : State) (a1 : Nat) (a2 : Nat) (a3 : Nat) (a4 : Frz) : (s.setFrz a1 a2 a3 a4).variant = s.variant := (rfl)
@[simp] theorem State.setFrz_side (s : State) (a1 : Nat) (a2 : Nat) (a3 : Nat) (a4 : Frz) : (s.setFrz a1 a2 a3 a4).side = s.side := (rfl)
@[simp] theorem State.setFrz_regs (s : State) (a1 : Nat) (a2 : Nat) (a3 : Nat) (a4 : Frz) : (s.setFrz a1 a2 a3 a4).regs = s.regs := (rfl)
@[simp] theorem State.setFrz_wo (s : State) (a1 : Nat) (a2 : Nat) (a3 : Nat) (a4 : Frz) : (s.setFrz a1 a2 a3 a4).wo = s.wo := (rfl)
@[simp] theorem State.setFrz_active (s : State) (a1 : Nat) (a2 : Nat) (a3 : Nat) (a4 : Frz) : (s.setFrz a1 a2 a3 a4).active = s.active := (rfl)
@[simp] theorem State.setFrz_shadow (s : State) (a1 : Nat) (a2 : Nat) (a3 : Nat) (a4 : Frz) : (s.setFrz a1 a2 a3 a4).shadow = s.shadow := (rfl)
@[simp] theorem State.setFrz_copying (s : State) (a1 : Nat) (a2 : Nat) (a3 : Nat) (a4 : Frz) : (s.setFrz a1 a2 a3 a4).copying = s.copying := (rfl)
@[simp] theorem State.setFrz_heldWrites (s : State) (a1 : Nat) (a2 : Nat) (a3 : Nat) (a4 : Frz) : (s.setFrz a1 a2 a3 a4).heldWrites = s.heldWrites := (rfl)
@[simp] theorem State.setFrz_mem (s : State) (a1 : Nat) (a2 : Nat) (a3 : Nat) (a4 : Frz) : (s.setFrz a1 a2 a3 a4).mem = s.mem := (rfl)
@[simp] theorem State.setFrz_pins (s : State) (a1 : Nat) (a2 : Nat) (a3 : Nat) (a4 : Frz) : (s.setFrz a1 a2 a3 a4).pins = s.pins := (rfl)
@[simp] theorem State.setFrz_ao (s : State) (a1 : Nat) (a2 : Nat) (a3 : Nat) (a4 : Frz) : (s.setFrz a1 a2 a3 a4).ao = s.ao := (rfl)
@[simp] theorem State.setFrz_time (s : State) (a1 : Nat) (a2 : Nat) (a3 : Nat) (a4 : Frz) : (s.setFrz a1 a2 a3 a4).time = s.time := (rfl)
@[simp] theorem State.setFrz_nor (s : State) (a1 : Nat) (a2 : Nat) (a3 : Nat) (a4 : Frz) : (s.setFrz a1 a2 a3 a4).nor = s.nor := (rfl)
@[simp] theorem State.setFrz_thm (s : State) (a1 : Nat) (a2 : Nat) (a3 : Nat) (a4 : Frz) : (s.setFrz a1 a2 a3 a4).thm = s.thm := (rfl)
@[simp] theorem State.setFrz_nand (s : State) (a1 : Nat) (a2 : Nat) (a3 : Nat) (a4 : Frz) : (s.setFrz a1 a2 a3 a4).nand = s.nand := (rfl)
@[simp] theorem State.setFrz_host (s : State) (a1 : Nat) (a2 : Nat) (a3 : Nat) (a4 : Frz) : (s.setFrz a1 a2 a3 a4).host = s.host := (rfl)
@[simp] theorem State.setFrz_pair (s : State) (a1 : Nat) (a2 : Nat) (a3 : Nat) (a4 : Frz) : (s.setFrz a1 a2 a3 a4).pair = s.pair := (rfl)
@[simp] theorem State.setFrz_jrnl (s : State) (a1 : Nat) (a2 : Nat) (a3 : Nat) (a4 : Frz) : (s.setFrz a1 a2 a3 a4).jrnl = s.jrnl := (rfl)
@[simp] theorem State.setFrz_rdma (s : State) (a1 : Nat) (a2 : Nat) (a3 : Nat) (a4 : Frz) : (s.setFrz a1 a2 a3 a4).rdma = s.rdma := (rfl)
@[simp] theorem State.setFrz_med (s : State) (a1 : Nat) (a2 : Nat) (a3 : Nat) (a4 : Frz) : (s.setFrz a1 a2 a3 a4).med = s.med := (rfl)
@[simp] theorem State.setFrz_dst (s : State) (a1 : Nat) (a2 : Nat) (a3 : Nat) (a4 : Frz) : (s.setFrz a1 a2 a3 a4).dst = s.dst := (rfl)
@[simp] theorem State.setFrz_ftl (s : State) (a1 : Nat) (a2 : Nat) (a3 : Nat) (a4 : Frz) : (s.setFrz a1 a2 a3 a4).ftl = s.ftl := (rfl)
@[simp] theorem State.setFrz_par (s : State) (a1 : Nat) (a2 : Nat) (a3 : Nat) (a4 : Frz) : (s.setFrz a1 a2 a3 a4).par = s.par := (rfl)
@[simp] theorem State.setFrz_arr (s : State) (a1 : Nat) (a2 : Nat) (a3 : Nat) (a4 : Frz) : (s.setFrz a1 a2 a3 a4).arr = s.arr := (rfl)
@[simp] theorem State.setFrz_csa (s : State) (a1 : Nat) (a2 : Nat) (a3 : Nat) (a4 : Frz) : (s.setFrz a1 a2 a3 a4).csa = s.csa := (rfl)
@[simp] theorem State.setFrz_keys (s : State) (a1 : Nat) (a2 : Nat) (a3 : Nat) (a4 : Frz) : (s.setFrz a1 a2 a3 a4).keys = s.keys := (rfl)
@[simp] theorem State.setFrz_pgt (s : State) (a1 : Nat) (a2 : Nat) (a3 : Nat) (a4 : Frz) : (s.setFrz a1 a2 a3 a4).pgt = s.pgt := (rfl)
@[simp] theorem State.setFrz_otp (s : State) (a1 : Nat) (a2 : Nat) (a3 : Nat) (a4 : Frz) : (s.setFrz a1 a2 a3 a4).otp = s.otp := (rfl)
@[simp] theorem State.setFrz_boot (s : State) (a1 : Nat) (a2 : Nat) (a3 : Nat) (a4 : Frz) : (s.setFrz a1 a2 a3 a4).boot = s.boot := (rfl)
@[simp] theorem State.setFrz_free (s : State) (a1 : Nat) (a2 : Nat) (a3 : Nat) (a4 : Frz) : (s.setFrz a1 a2 a3 a4).free = s.free := (rfl)
@[simp] theorem State.setFrz_out (s : State) (a1 : Nat) (a2 : Nat) (a3 : Nat) (a4 : Frz) : (s.setFrz a1 a2 a3 a4).out = s.out := (rfl)
@[simp] theorem State.setFrz_pending (s : State) (a1 : Nat) (a2 : Nat) (a3 : Nat) (a4 : Frz) : (s.setFrz a1 a2 a3 a4).pending = s.pending := (rfl)

@[simp] theorem State.setRing_variant (s : State) (a1 : Nat) (a2 : Nat) (a3 : Ring) : (s.setRing a1 a2 a3).variant = s.variant := (rfl)
@[simp] theorem State.setRing_side (s : State) (a1 : Nat) (a2 : Nat) (a3 : Ring) : (s.setRing a1 a2 a3).side = s.side := (rfl)
@[simp] theorem State.setRing_regs (s : State) (a1 : Nat) (a2 : Nat) (a3 : Ring) : (s.setRing a1 a2 a3).regs = s.regs := (rfl)
@[simp] theorem State.setRing_wo (s : State) (a1 : Nat) (a2 : Nat) (a3 : Ring) : (s.setRing a1 a2 a3).wo = s.wo := (rfl)
@[simp] theorem State.setRing_active (s : State) (a1 : Nat) (a2 : Nat) (a3 : Ring) : (s.setRing a1 a2 a3).active = s.active := (rfl)
@[simp] theorem State.setRing_shadow (s : State) (a1 : Nat) (a2 : Nat) (a3 : Ring) : (s.setRing a1 a2 a3).shadow = s.shadow := (rfl)
@[simp] theorem State.setRing_copying (s : State) (a1 : Nat) (a2 : Nat) (a3 : Ring) : (s.setRing a1 a2 a3).copying = s.copying := (rfl)
@[simp] theorem State.setRing_heldWrites (s : State) (a1 : Nat) (a2 : Nat) (a3 : Ring) : (s.setRing a1 a2 a3).heldWrites = s.heldWrites := (rfl)
@[simp] theorem State.setRing_mem (s : State) (a1 : Nat) (a2 : Nat) (a3 : Ring) : (s.setRing a1 a2 a3).mem = s.mem := (rfl)
@[simp] theorem State.setRing_pins (s : State) (a1 : Nat) (a2 : Nat) (a3 : Ring) : (s.setRing a1 a2 a3).pins = s.pins := (rfl)
@[simp] theorem State.setRing_ao (s : State) (a1 : Nat) (a2 : Nat) (a3 : Ring) : (s.setRing a1 a2 a3).ao = s.ao := (rfl)
@[simp] theorem State.setRing_time (s : State) (a1 : Nat) (a2 : Nat) (a3 : Ring) : (s.setRing a1 a2 a3).time = s.time := (rfl)
@[simp] theorem State.setRing_nor (s : State) (a1 : Nat) (a2 : Nat) (a3 : Ring) : (s.setRing a1 a2 a3).nor = s.nor := (rfl)
@[simp] theorem State.setRing_thm (s : State) (a1 : Nat) (a2 : Nat) (a3 : Ring) : (s.setRing a1 a2 a3).thm = s.thm := (rfl)
@[simp] theorem State.setRing_nand (s : State) (a1 : Nat) (a2 : Nat) (a3 : Ring) : (s.setRing a1 a2 a3).nand = s.nand := (rfl)
@[simp] theorem State.setRing_host (s : State) (a1 : Nat) (a2 : Nat) (a3 : Ring) : (s.setRing a1 a2 a3).host = s.host := (rfl)
@[simp] theorem State.setRing_pair (s : State) (a1 : Nat) (a2 : Nat) (a3 : Ring) : (s.setRing a1 a2 a3).pair = s.pair := (rfl)
@[simp] theorem State.setRing_jrnl (s : State) (a1 : Nat) (a2 : Nat) (a3 : Ring) : (s.setRing a1 a2 a3).jrnl = s.jrnl := (rfl)
@[simp] theorem State.setRing_rdma (s : State) (a1 : Nat) (a2 : Nat) (a3 : Ring) : (s.setRing a1 a2 a3).rdma = s.rdma := (rfl)
@[simp] theorem State.setRing_med (s : State) (a1 : Nat) (a2 : Nat) (a3 : Ring) : (s.setRing a1 a2 a3).med = s.med := (rfl)
@[simp] theorem State.setRing_dst (s : State) (a1 : Nat) (a2 : Nat) (a3 : Ring) : (s.setRing a1 a2 a3).dst = s.dst := (rfl)
@[simp] theorem State.setRing_ftl (s : State) (a1 : Nat) (a2 : Nat) (a3 : Ring) : (s.setRing a1 a2 a3).ftl = s.ftl := (rfl)
@[simp] theorem State.setRing_par (s : State) (a1 : Nat) (a2 : Nat) (a3 : Ring) : (s.setRing a1 a2 a3).par = s.par := (rfl)
@[simp] theorem State.setRing_arr (s : State) (a1 : Nat) (a2 : Nat) (a3 : Ring) : (s.setRing a1 a2 a3).arr = s.arr := (rfl)
@[simp] theorem State.setRing_csa (s : State) (a1 : Nat) (a2 : Nat) (a3 : Ring) : (s.setRing a1 a2 a3).csa = s.csa := (rfl)
@[simp] theorem State.setRing_keys (s : State) (a1 : Nat) (a2 : Nat) (a3 : Ring) : (s.setRing a1 a2 a3).keys = s.keys := (rfl)
@[simp] theorem State.setRing_pgt (s : State) (a1 : Nat) (a2 : Nat) (a3 : Ring) : (s.setRing a1 a2 a3).pgt = s.pgt := (rfl)
@[simp] theorem State.setRing_otp (s : State) (a1 : Nat) (a2 : Nat) (a3 : Ring) : (s.setRing a1 a2 a3).otp = s.otp := (rfl)
@[simp] theorem State.setRing_boot (s : State) (a1 : Nat) (a2 : Nat) (a3 : Ring) : (s.setRing a1 a2 a3).boot = s.boot := (rfl)
@[simp] theorem State.setRing_free (s : State) (a1 : Nat) (a2 : Nat) (a3 : Ring) : (s.setRing a1 a2 a3).free = s.free := (rfl)
@[simp] theorem State.setRing_out (s : State) (a1 : Nat) (a2 : Nat) (a3 : Ring) : (s.setRing a1 a2 a3).out = s.out := (rfl)
@[simp] theorem State.setRing_pending (s : State) (a1 : Nat) (a2 : Nat) (a3 : Ring) : (s.setRing a1 a2 a3).pending = s.pending := (rfl)

@[simp] theorem State.appendEvent_variant (s : State) (a1 : EventRec) : (s.appendEvent a1).variant = s.variant := (rfl)
@[simp] theorem State.appendEvent_side (s : State) (a1 : EventRec) : (s.appendEvent a1).side = s.side := (rfl)
@[simp] theorem State.appendEvent_wo (s : State) (a1 : EventRec) : (s.appendEvent a1).wo = s.wo := (rfl)
@[simp] theorem State.appendEvent_active (s : State) (a1 : EventRec) : (s.appendEvent a1).active = s.active := (rfl)
@[simp] theorem State.appendEvent_shadow (s : State) (a1 : EventRec) : (s.appendEvent a1).shadow = s.shadow := (rfl)
@[simp] theorem State.appendEvent_copying (s : State) (a1 : EventRec) : (s.appendEvent a1).copying = s.copying := (rfl)
@[simp] theorem State.appendEvent_heldWrites (s : State) (a1 : EventRec) : (s.appendEvent a1).heldWrites = s.heldWrites := (rfl)
@[simp] theorem State.appendEvent_mem (s : State) (a1 : EventRec) : (s.appendEvent a1).mem = s.mem := (rfl)
@[simp] theorem State.appendEvent_pins (s : State) (a1 : EventRec) : (s.appendEvent a1).pins = s.pins := (rfl)
@[simp] theorem State.appendEvent_ao (s : State) (a1 : EventRec) : (s.appendEvent a1).ao = s.ao := (rfl)
@[simp] theorem State.appendEvent_time (s : State) (a1 : EventRec) : (s.appendEvent a1).time = s.time := (rfl)
@[simp] theorem State.appendEvent_thm (s : State) (a1 : EventRec) : (s.appendEvent a1).thm = s.thm := (rfl)
@[simp] theorem State.appendEvent_nand (s : State) (a1 : EventRec) : (s.appendEvent a1).nand = s.nand := (rfl)
@[simp] theorem State.appendEvent_hrd (s : State) (a1 : EventRec) : (s.appendEvent a1).hrd = s.hrd := (rfl)
@[simp] theorem State.appendEvent_host (s : State) (a1 : EventRec) : (s.appendEvent a1).host = s.host := (rfl)
@[simp] theorem State.appendEvent_pair (s : State) (a1 : EventRec) : (s.appendEvent a1).pair = s.pair := (rfl)
@[simp] theorem State.appendEvent_jrnl (s : State) (a1 : EventRec) : (s.appendEvent a1).jrnl = s.jrnl := (rfl)
@[simp] theorem State.appendEvent_rdma (s : State) (a1 : EventRec) : (s.appendEvent a1).rdma = s.rdma := (rfl)
@[simp] theorem State.appendEvent_med (s : State) (a1 : EventRec) : (s.appendEvent a1).med = s.med := (rfl)
@[simp] theorem State.appendEvent_dst (s : State) (a1 : EventRec) : (s.appendEvent a1).dst = s.dst := (rfl)
@[simp] theorem State.appendEvent_ftl (s : State) (a1 : EventRec) : (s.appendEvent a1).ftl = s.ftl := (rfl)
@[simp] theorem State.appendEvent_par (s : State) (a1 : EventRec) : (s.appendEvent a1).par = s.par := (rfl)
@[simp] theorem State.appendEvent_arr (s : State) (a1 : EventRec) : (s.appendEvent a1).arr = s.arr := (rfl)
@[simp] theorem State.appendEvent_csa (s : State) (a1 : EventRec) : (s.appendEvent a1).csa = s.csa := (rfl)
@[simp] theorem State.appendEvent_keys (s : State) (a1 : EventRec) : (s.appendEvent a1).keys = s.keys := (rfl)
@[simp] theorem State.appendEvent_pgt (s : State) (a1 : EventRec) : (s.appendEvent a1).pgt = s.pgt := (rfl)
@[simp] theorem State.appendEvent_otp (s : State) (a1 : EventRec) : (s.appendEvent a1).otp = s.otp := (rfl)
@[simp] theorem State.appendEvent_boot (s : State) (a1 : EventRec) : (s.appendEvent a1).boot = s.boot := (rfl)
@[simp] theorem State.appendEvent_free (s : State) (a1 : EventRec) : (s.appendEvent a1).free = s.free := (rfl)
@[simp] theorem State.appendEvent_out (s : State) (a1 : EventRec) : (s.appendEvent a1).out = s.out := (rfl)
@[simp] theorem State.appendEvent_pending (s : State) (a1 : EventRec) : (s.appendEvent a1).pending = s.pending := (rfl)

@[simp] theorem State.setCmd_variant (s : State) (a1 : Cmd) : (s.setCmd a1).variant = s.variant := (rfl)
@[simp] theorem State.setCmd_side (s : State) (a1 : Cmd) : (s.setCmd a1).side = s.side := (rfl)
@[simp] theorem State.setCmd_regs (s : State) (a1 : Cmd) : (s.setCmd a1).regs = s.regs := (rfl)
@[simp] theorem State.setCmd_wo (s : State) (a1 : Cmd) : (s.setCmd a1).wo = s.wo := (rfl)
@[simp] theorem State.setCmd_active (s : State) (a1 : Cmd) : (s.setCmd a1).active = s.active := (rfl)
@[simp] theorem State.setCmd_shadow (s : State) (a1 : Cmd) : (s.setCmd a1).shadow = s.shadow := (rfl)
@[simp] theorem State.setCmd_copying (s : State) (a1 : Cmd) : (s.setCmd a1).copying = s.copying := (rfl)
@[simp] theorem State.setCmd_heldWrites (s : State) (a1 : Cmd) : (s.setCmd a1).heldWrites = s.heldWrites := (rfl)
@[simp] theorem State.setCmd_mem (s : State) (a1 : Cmd) : (s.setCmd a1).mem = s.mem := (rfl)
@[simp] theorem State.setCmd_pins (s : State) (a1 : Cmd) : (s.setCmd a1).pins = s.pins := (rfl)
@[simp] theorem State.setCmd_ao (s : State) (a1 : Cmd) : (s.setCmd a1).ao = s.ao := (rfl)
@[simp] theorem State.setCmd_time (s : State) (a1 : Cmd) : (s.setCmd a1).time = s.time := (rfl)
@[simp] theorem State.setCmd_nor (s : State) (a1 : Cmd) : (s.setCmd a1).nor = s.nor := (rfl)
@[simp] theorem State.setCmd_thm (s : State) (a1 : Cmd) : (s.setCmd a1).thm = s.thm := (rfl)
@[simp] theorem State.setCmd_nand (s : State) (a1 : Cmd) : (s.setCmd a1).nand = s.nand := (rfl)
@[simp] theorem State.setCmd_hrd (s : State) (a1 : Cmd) : (s.setCmd a1).hrd = s.hrd := (rfl)
@[simp] theorem State.setCmd_pair (s : State) (a1 : Cmd) : (s.setCmd a1).pair = s.pair := (rfl)
@[simp] theorem State.setCmd_jrnl (s : State) (a1 : Cmd) : (s.setCmd a1).jrnl = s.jrnl := (rfl)
@[simp] theorem State.setCmd_rdma (s : State) (a1 : Cmd) : (s.setCmd a1).rdma = s.rdma := (rfl)
@[simp] theorem State.setCmd_med (s : State) (a1 : Cmd) : (s.setCmd a1).med = s.med := (rfl)
@[simp] theorem State.setCmd_dst (s : State) (a1 : Cmd) : (s.setCmd a1).dst = s.dst := (rfl)
@[simp] theorem State.setCmd_ftl (s : State) (a1 : Cmd) : (s.setCmd a1).ftl = s.ftl := (rfl)
@[simp] theorem State.setCmd_par (s : State) (a1 : Cmd) : (s.setCmd a1).par = s.par := (rfl)
@[simp] theorem State.setCmd_arr (s : State) (a1 : Cmd) : (s.setCmd a1).arr = s.arr := (rfl)
@[simp] theorem State.setCmd_csa (s : State) (a1 : Cmd) : (s.setCmd a1).csa = s.csa := (rfl)
@[simp] theorem State.setCmd_keys (s : State) (a1 : Cmd) : (s.setCmd a1).keys = s.keys := (rfl)
@[simp] theorem State.setCmd_pgt (s : State) (a1 : Cmd) : (s.setCmd a1).pgt = s.pgt := (rfl)
@[simp] theorem State.setCmd_otp (s : State) (a1 : Cmd) : (s.setCmd a1).otp = s.otp := (rfl)
@[simp] theorem State.setCmd_boot (s : State) (a1 : Cmd) : (s.setCmd a1).boot = s.boot := (rfl)
@[simp] theorem State.setCmd_free (s : State) (a1 : Cmd) : (s.setCmd a1).free = s.free := (rfl)
@[simp] theorem State.setCmd_out (s : State) (a1 : Cmd) : (s.setCmd a1).out = s.out := (rfl)
@[simp] theorem State.setCmd_pending (s : State) (a1 : Cmd) : (s.setCmd a1).pending = s.pending := (rfl)

@[simp] theorem State.setQp_variant (s : State) (a1 : Nat) (a2 : Qp) : (s.setQp a1 a2).variant = s.variant := (rfl)
@[simp] theorem State.setQp_side (s : State) (a1 : Nat) (a2 : Qp) : (s.setQp a1 a2).side = s.side := (rfl)
@[simp] theorem State.setQp_regs (s : State) (a1 : Nat) (a2 : Qp) : (s.setQp a1 a2).regs = s.regs := (rfl)
@[simp] theorem State.setQp_wo (s : State) (a1 : Nat) (a2 : Qp) : (s.setQp a1 a2).wo = s.wo := (rfl)
@[simp] theorem State.setQp_active (s : State) (a1 : Nat) (a2 : Qp) : (s.setQp a1 a2).active = s.active := (rfl)
@[simp] theorem State.setQp_shadow (s : State) (a1 : Nat) (a2 : Qp) : (s.setQp a1 a2).shadow = s.shadow := (rfl)
@[simp] theorem State.setQp_copying (s : State) (a1 : Nat) (a2 : Qp) : (s.setQp a1 a2).copying = s.copying := (rfl)
@[simp] theorem State.setQp_heldWrites (s : State) (a1 : Nat) (a2 : Qp) : (s.setQp a1 a2).heldWrites = s.heldWrites := (rfl)
@[simp] theorem State.setQp_mem (s : State) (a1 : Nat) (a2 : Qp) : (s.setQp a1 a2).mem = s.mem := (rfl)
@[simp] theorem State.setQp_pins (s : State) (a1 : Nat) (a2 : Qp) : (s.setQp a1 a2).pins = s.pins := (rfl)
@[simp] theorem State.setQp_ao (s : State) (a1 : Nat) (a2 : Qp) : (s.setQp a1 a2).ao = s.ao := (rfl)
@[simp] theorem State.setQp_time (s : State) (a1 : Nat) (a2 : Qp) : (s.setQp a1 a2).time = s.time := (rfl)
@[simp] theorem State.setQp_nor (s : State) (a1 : Nat) (a2 : Qp) : (s.setQp a1 a2).nor = s.nor := (rfl)
@[simp] theorem State.setQp_thm (s : State) (a1 : Nat) (a2 : Qp) : (s.setQp a1 a2).thm = s.thm := (rfl)
@[simp] theorem State.setQp_nand (s : State) (a1 : Nat) (a2 : Qp) : (s.setQp a1 a2).nand = s.nand := (rfl)
@[simp] theorem State.setQp_hrd (s : State) (a1 : Nat) (a2 : Qp) : (s.setQp a1 a2).hrd = s.hrd := (rfl)
@[simp] theorem State.setQp_host (s : State) (a1 : Nat) (a2 : Qp) : (s.setQp a1 a2).host = s.host := (rfl)
@[simp] theorem State.setQp_pair (s : State) (a1 : Nat) (a2 : Qp) : (s.setQp a1 a2).pair = s.pair := (rfl)
@[simp] theorem State.setQp_jrnl (s : State) (a1 : Nat) (a2 : Qp) : (s.setQp a1 a2).jrnl = s.jrnl := (rfl)
@[simp] theorem State.setQp_med (s : State) (a1 : Nat) (a2 : Qp) : (s.setQp a1 a2).med = s.med := (rfl)
@[simp] theorem State.setQp_dst (s : State) (a1 : Nat) (a2 : Qp) : (s.setQp a1 a2).dst = s.dst := (rfl)
@[simp] theorem State.setQp_ftl (s : State) (a1 : Nat) (a2 : Qp) : (s.setQp a1 a2).ftl = s.ftl := (rfl)
@[simp] theorem State.setQp_par (s : State) (a1 : Nat) (a2 : Qp) : (s.setQp a1 a2).par = s.par := (rfl)
@[simp] theorem State.setQp_arr (s : State) (a1 : Nat) (a2 : Qp) : (s.setQp a1 a2).arr = s.arr := (rfl)
@[simp] theorem State.setQp_csa (s : State) (a1 : Nat) (a2 : Qp) : (s.setQp a1 a2).csa = s.csa := (rfl)
@[simp] theorem State.setQp_keys (s : State) (a1 : Nat) (a2 : Qp) : (s.setQp a1 a2).keys = s.keys := (rfl)
@[simp] theorem State.setQp_pgt (s : State) (a1 : Nat) (a2 : Qp) : (s.setQp a1 a2).pgt = s.pgt := (rfl)
@[simp] theorem State.setQp_otp (s : State) (a1 : Nat) (a2 : Qp) : (s.setQp a1 a2).otp = s.otp := (rfl)
@[simp] theorem State.setQp_boot (s : State) (a1 : Nat) (a2 : Qp) : (s.setQp a1 a2).boot = s.boot := (rfl)
@[simp] theorem State.setQp_free (s : State) (a1 : Nat) (a2 : Qp) : (s.setQp a1 a2).free = s.free := (rfl)
@[simp] theorem State.setQp_out (s : State) (a1 : Nat) (a2 : Qp) : (s.setQp a1 a2).out = s.out := (rfl)
@[simp] theorem State.setQp_pending (s : State) (a1 : Nat) (a2 : Qp) : (s.setQp a1 a2).pending = s.pending := (rfl)

@[simp] theorem State.setNs_variant (s : State) (a1 : Nat) (a2 : NsRec) : (s.setNs a1 a2).variant = s.variant := (rfl)
@[simp] theorem State.setNs_side (s : State) (a1 : Nat) (a2 : NsRec) : (s.setNs a1 a2).side = s.side := (rfl)
@[simp] theorem State.setNs_regs (s : State) (a1 : Nat) (a2 : NsRec) : (s.setNs a1 a2).regs = s.regs := (rfl)
@[simp] theorem State.setNs_wo (s : State) (a1 : Nat) (a2 : NsRec) : (s.setNs a1 a2).wo = s.wo := (rfl)
@[simp] theorem State.setNs_active (s : State) (a1 : Nat) (a2 : NsRec) : (s.setNs a1 a2).active = s.active := (rfl)
@[simp] theorem State.setNs_shadow (s : State) (a1 : Nat) (a2 : NsRec) : (s.setNs a1 a2).shadow = s.shadow := (rfl)
@[simp] theorem State.setNs_copying (s : State) (a1 : Nat) (a2 : NsRec) : (s.setNs a1 a2).copying = s.copying := (rfl)
@[simp] theorem State.setNs_heldWrites (s : State) (a1 : Nat) (a2 : NsRec) : (s.setNs a1 a2).heldWrites = s.heldWrites := (rfl)
@[simp] theorem State.setNs_mem (s : State) (a1 : Nat) (a2 : NsRec) : (s.setNs a1 a2).mem = s.mem := (rfl)
@[simp] theorem State.setNs_pins (s : State) (a1 : Nat) (a2 : NsRec) : (s.setNs a1 a2).pins = s.pins := (rfl)
@[simp] theorem State.setNs_ao (s : State) (a1 : Nat) (a2 : NsRec) : (s.setNs a1 a2).ao = s.ao := (rfl)
@[simp] theorem State.setNs_time (s : State) (a1 : Nat) (a2 : NsRec) : (s.setNs a1 a2).time = s.time := (rfl)
@[simp] theorem State.setNs_nor (s : State) (a1 : Nat) (a2 : NsRec) : (s.setNs a1 a2).nor = s.nor := (rfl)
@[simp] theorem State.setNs_thm (s : State) (a1 : Nat) (a2 : NsRec) : (s.setNs a1 a2).thm = s.thm := (rfl)
@[simp] theorem State.setNs_nand (s : State) (a1 : Nat) (a2 : NsRec) : (s.setNs a1 a2).nand = s.nand := (rfl)
@[simp] theorem State.setNs_hrd (s : State) (a1 : Nat) (a2 : NsRec) : (s.setNs a1 a2).hrd = s.hrd := (rfl)
@[simp] theorem State.setNs_host (s : State) (a1 : Nat) (a2 : NsRec) : (s.setNs a1 a2).host = s.host := (rfl)
@[simp] theorem State.setNs_pair (s : State) (a1 : Nat) (a2 : NsRec) : (s.setNs a1 a2).pair = s.pair := (rfl)
@[simp] theorem State.setNs_jrnl (s : State) (a1 : Nat) (a2 : NsRec) : (s.setNs a1 a2).jrnl = s.jrnl := (rfl)
@[simp] theorem State.setNs_rdma (s : State) (a1 : Nat) (a2 : NsRec) : (s.setNs a1 a2).rdma = s.rdma := (rfl)
@[simp] theorem State.setNs_med (s : State) (a1 : Nat) (a2 : NsRec) : (s.setNs a1 a2).med = s.med := (rfl)
@[simp] theorem State.setNs_dst (s : State) (a1 : Nat) (a2 : NsRec) : (s.setNs a1 a2).dst = s.dst := (rfl)
@[simp] theorem State.setNs_ftl (s : State) (a1 : Nat) (a2 : NsRec) : (s.setNs a1 a2).ftl = s.ftl := (rfl)
@[simp] theorem State.setNs_par (s : State) (a1 : Nat) (a2 : NsRec) : (s.setNs a1 a2).par = s.par := (rfl)
@[simp] theorem State.setNs_csa (s : State) (a1 : Nat) (a2 : NsRec) : (s.setNs a1 a2).csa = s.csa := (rfl)
@[simp] theorem State.setNs_keys (s : State) (a1 : Nat) (a2 : NsRec) : (s.setNs a1 a2).keys = s.keys := (rfl)
@[simp] theorem State.setNs_pgt (s : State) (a1 : Nat) (a2 : NsRec) : (s.setNs a1 a2).pgt = s.pgt := (rfl)
@[simp] theorem State.setNs_otp (s : State) (a1 : Nat) (a2 : NsRec) : (s.setNs a1 a2).otp = s.otp := (rfl)
@[simp] theorem State.setNs_boot (s : State) (a1 : Nat) (a2 : NsRec) : (s.setNs a1 a2).boot = s.boot := (rfl)
@[simp] theorem State.setNs_free (s : State) (a1 : Nat) (a2 : NsRec) : (s.setNs a1 a2).free = s.free := (rfl)
@[simp] theorem State.setNs_out (s : State) (a1 : Nat) (a2 : NsRec) : (s.setNs a1 a2).out = s.out := (rfl)
@[simp] theorem State.setNs_pending (s : State) (a1 : Nat) (a2 : NsRec) : (s.setNs a1 a2).pending = s.pending := (rfl)

@[simp] theorem State.setSess_variant (s : State) (a1 : Nat) (a2 : Sess) : (s.setSess a1 a2).variant = s.variant := (rfl)
@[simp] theorem State.setSess_side (s : State) (a1 : Nat) (a2 : Sess) : (s.setSess a1 a2).side = s.side := (rfl)
@[simp] theorem State.setSess_regs (s : State) (a1 : Nat) (a2 : Sess) : (s.setSess a1 a2).regs = s.regs := (rfl)
@[simp] theorem State.setSess_wo (s : State) (a1 : Nat) (a2 : Sess) : (s.setSess a1 a2).wo = s.wo := (rfl)
@[simp] theorem State.setSess_active (s : State) (a1 : Nat) (a2 : Sess) : (s.setSess a1 a2).active = s.active := (rfl)
@[simp] theorem State.setSess_shadow (s : State) (a1 : Nat) (a2 : Sess) : (s.setSess a1 a2).shadow = s.shadow := (rfl)
@[simp] theorem State.setSess_copying (s : State) (a1 : Nat) (a2 : Sess) : (s.setSess a1 a2).copying = s.copying := (rfl)
@[simp] theorem State.setSess_heldWrites (s : State) (a1 : Nat) (a2 : Sess) : (s.setSess a1 a2).heldWrites = s.heldWrites := (rfl)
@[simp] theorem State.setSess_mem (s : State) (a1 : Nat) (a2 : Sess) : (s.setSess a1 a2).mem = s.mem := (rfl)
@[simp] theorem State.setSess_pins (s : State) (a1 : Nat) (a2 : Sess) : (s.setSess a1 a2).pins = s.pins := (rfl)
@[simp] theorem State.setSess_ao (s : State) (a1 : Nat) (a2 : Sess) : (s.setSess a1 a2).ao = s.ao := (rfl)
@[simp] theorem State.setSess_time (s : State) (a1 : Nat) (a2 : Sess) : (s.setSess a1 a2).time = s.time := (rfl)
@[simp] theorem State.setSess_nor (s : State) (a1 : Nat) (a2 : Sess) : (s.setSess a1 a2).nor = s.nor := (rfl)
@[simp] theorem State.setSess_thm (s : State) (a1 : Nat) (a2 : Sess) : (s.setSess a1 a2).thm = s.thm := (rfl)
@[simp] theorem State.setSess_nand (s : State) (a1 : Nat) (a2 : Sess) : (s.setSess a1 a2).nand = s.nand := (rfl)
@[simp] theorem State.setSess_hrd (s : State) (a1 : Nat) (a2 : Sess) : (s.setSess a1 a2).hrd = s.hrd := (rfl)
@[simp] theorem State.setSess_host (s : State) (a1 : Nat) (a2 : Sess) : (s.setSess a1 a2).host = s.host := (rfl)
@[simp] theorem State.setSess_pair (s : State) (a1 : Nat) (a2 : Sess) : (s.setSess a1 a2).pair = s.pair := (rfl)
@[simp] theorem State.setSess_jrnl (s : State) (a1 : Nat) (a2 : Sess) : (s.setSess a1 a2).jrnl = s.jrnl := (rfl)
@[simp] theorem State.setSess_rdma (s : State) (a1 : Nat) (a2 : Sess) : (s.setSess a1 a2).rdma = s.rdma := (rfl)
@[simp] theorem State.setSess_med (s : State) (a1 : Nat) (a2 : Sess) : (s.setSess a1 a2).med = s.med := (rfl)
@[simp] theorem State.setSess_dst (s : State) (a1 : Nat) (a2 : Sess) : (s.setSess a1 a2).dst = s.dst := (rfl)
@[simp] theorem State.setSess_ftl (s : State) (a1 : Nat) (a2 : Sess) : (s.setSess a1 a2).ftl = s.ftl := (rfl)
@[simp] theorem State.setSess_par (s : State) (a1 : Nat) (a2 : Sess) : (s.setSess a1 a2).par = s.par := (rfl)
@[simp] theorem State.setSess_arr (s : State) (a1 : Nat) (a2 : Sess) : (s.setSess a1 a2).arr = s.arr := (rfl)
@[simp] theorem State.setSess_csa (s : State) (a1 : Nat) (a2 : Sess) : (s.setSess a1 a2).csa = s.csa := (rfl)
@[simp] theorem State.setSess_keys (s : State) (a1 : Nat) (a2 : Sess) : (s.setSess a1 a2).keys = s.keys := (rfl)
@[simp] theorem State.setSess_otp (s : State) (a1 : Nat) (a2 : Sess) : (s.setSess a1 a2).otp = s.otp := (rfl)
@[simp] theorem State.setSess_boot (s : State) (a1 : Nat) (a2 : Sess) : (s.setSess a1 a2).boot = s.boot := (rfl)
@[simp] theorem State.setSess_free (s : State) (a1 : Nat) (a2 : Sess) : (s.setSess a1 a2).free = s.free := (rfl)
@[simp] theorem State.setSess_out (s : State) (a1 : Nat) (a2 : Sess) : (s.setSess a1 a2).out = s.out := (rfl)
@[simp] theorem State.setSess_pending (s : State) (a1 : Nat) (a2 : Sess) : (s.setSess a1 a2).pending = s.pending := (rfl)

@[simp] theorem State.setSport_variant (s : State) (a1 : Nat) (a2 : SPort) : (s.setSport a1 a2).variant = s.variant := (rfl)
@[simp] theorem State.setSport_side (s : State) (a1 : Nat) (a2 : SPort) : (s.setSport a1 a2).side = s.side := (rfl)
@[simp] theorem State.setSport_regs (s : State) (a1 : Nat) (a2 : SPort) : (s.setSport a1 a2).regs = s.regs := (rfl)
@[simp] theorem State.setSport_wo (s : State) (a1 : Nat) (a2 : SPort) : (s.setSport a1 a2).wo = s.wo := (rfl)
@[simp] theorem State.setSport_active (s : State) (a1 : Nat) (a2 : SPort) : (s.setSport a1 a2).active = s.active := (rfl)
@[simp] theorem State.setSport_shadow (s : State) (a1 : Nat) (a2 : SPort) : (s.setSport a1 a2).shadow = s.shadow := (rfl)
@[simp] theorem State.setSport_copying (s : State) (a1 : Nat) (a2 : SPort) : (s.setSport a1 a2).copying = s.copying := (rfl)
@[simp] theorem State.setSport_heldWrites (s : State) (a1 : Nat) (a2 : SPort) : (s.setSport a1 a2).heldWrites = s.heldWrites := (rfl)
@[simp] theorem State.setSport_mem (s : State) (a1 : Nat) (a2 : SPort) : (s.setSport a1 a2).mem = s.mem := (rfl)
@[simp] theorem State.setSport_pins (s : State) (a1 : Nat) (a2 : SPort) : (s.setSport a1 a2).pins = s.pins := (rfl)
@[simp] theorem State.setSport_ao (s : State) (a1 : Nat) (a2 : SPort) : (s.setSport a1 a2).ao = s.ao := (rfl)
@[simp] theorem State.setSport_time (s : State) (a1 : Nat) (a2 : SPort) : (s.setSport a1 a2).time = s.time := (rfl)
@[simp] theorem State.setSport_nor (s : State) (a1 : Nat) (a2 : SPort) : (s.setSport a1 a2).nor = s.nor := (rfl)
@[simp] theorem State.setSport_thm (s : State) (a1 : Nat) (a2 : SPort) : (s.setSport a1 a2).thm = s.thm := (rfl)
@[simp] theorem State.setSport_nand (s : State) (a1 : Nat) (a2 : SPort) : (s.setSport a1 a2).nand = s.nand := (rfl)
@[simp] theorem State.setSport_hrd (s : State) (a1 : Nat) (a2 : SPort) : (s.setSport a1 a2).hrd = s.hrd := (rfl)
@[simp] theorem State.setSport_host (s : State) (a1 : Nat) (a2 : SPort) : (s.setSport a1 a2).host = s.host := (rfl)
@[simp] theorem State.setSport_pair (s : State) (a1 : Nat) (a2 : SPort) : (s.setSport a1 a2).pair = s.pair := (rfl)
@[simp] theorem State.setSport_jrnl (s : State) (a1 : Nat) (a2 : SPort) : (s.setSport a1 a2).jrnl = s.jrnl := (rfl)
@[simp] theorem State.setSport_rdma (s : State) (a1 : Nat) (a2 : SPort) : (s.setSport a1 a2).rdma = s.rdma := (rfl)
@[simp] theorem State.setSport_dst (s : State) (a1 : Nat) (a2 : SPort) : (s.setSport a1 a2).dst = s.dst := (rfl)
@[simp] theorem State.setSport_ftl (s : State) (a1 : Nat) (a2 : SPort) : (s.setSport a1 a2).ftl = s.ftl := (rfl)
@[simp] theorem State.setSport_par (s : State) (a1 : Nat) (a2 : SPort) : (s.setSport a1 a2).par = s.par := (rfl)
@[simp] theorem State.setSport_arr (s : State) (a1 : Nat) (a2 : SPort) : (s.setSport a1 a2).arr = s.arr := (rfl)
@[simp] theorem State.setSport_csa (s : State) (a1 : Nat) (a2 : SPort) : (s.setSport a1 a2).csa = s.csa := (rfl)
@[simp] theorem State.setSport_keys (s : State) (a1 : Nat) (a2 : SPort) : (s.setSport a1 a2).keys = s.keys := (rfl)
@[simp] theorem State.setSport_pgt (s : State) (a1 : Nat) (a2 : SPort) : (s.setSport a1 a2).pgt = s.pgt := (rfl)
@[simp] theorem State.setSport_otp (s : State) (a1 : Nat) (a2 : SPort) : (s.setSport a1 a2).otp = s.otp := (rfl)
@[simp] theorem State.setSport_boot (s : State) (a1 : Nat) (a2 : SPort) : (s.setSport a1 a2).boot = s.boot := (rfl)
@[simp] theorem State.setSport_free (s : State) (a1 : Nat) (a2 : SPort) : (s.setSport a1 a2).free = s.free := (rfl)
@[simp] theorem State.setSport_out (s : State) (a1 : Nat) (a2 : SPort) : (s.setSport a1 a2).out = s.out := (rfl)
@[simp] theorem State.setSport_pending (s : State) (a1 : Nat) (a2 : SPort) : (s.setSport a1 a2).pending = s.pending := (rfl)

@[simp] theorem State.setGroup_variant (s : State) (a1 : Nat) (a2 : Group) : (s.setGroup a1 a2).variant = s.variant := (rfl)
@[simp] theorem State.setGroup_side (s : State) (a1 : Nat) (a2 : Group) : (s.setGroup a1 a2).side = s.side := (rfl)
@[simp] theorem State.setGroup_regs (s : State) (a1 : Nat) (a2 : Group) : (s.setGroup a1 a2).regs = s.regs := (rfl)
@[simp] theorem State.setGroup_wo (s : State) (a1 : Nat) (a2 : Group) : (s.setGroup a1 a2).wo = s.wo := (rfl)
@[simp] theorem State.setGroup_active (s : State) (a1 : Nat) (a2 : Group) : (s.setGroup a1 a2).active = s.active := (rfl)
@[simp] theorem State.setGroup_shadow (s : State) (a1 : Nat) (a2 : Group) : (s.setGroup a1 a2).shadow = s.shadow := (rfl)
@[simp] theorem State.setGroup_copying (s : State) (a1 : Nat) (a2 : Group) : (s.setGroup a1 a2).copying = s.copying := (rfl)
@[simp] theorem State.setGroup_heldWrites (s : State) (a1 : Nat) (a2 : Group) : (s.setGroup a1 a2).heldWrites = s.heldWrites := (rfl)
@[simp] theorem State.setGroup_mem (s : State) (a1 : Nat) (a2 : Group) : (s.setGroup a1 a2).mem = s.mem := (rfl)
@[simp] theorem State.setGroup_pins (s : State) (a1 : Nat) (a2 : Group) : (s.setGroup a1 a2).pins = s.pins := (rfl)
@[simp] theorem State.setGroup_ao (s : State) (a1 : Nat) (a2 : Group) : (s.setGroup a1 a2).ao = s.ao := (rfl)
@[simp] theorem State.setGroup_time (s : State) (a1 : Nat) (a2 : Group) : (s.setGroup a1 a2).time = s.time := (rfl)
@[simp] theorem State.setGroup_nor (s : State) (a1 : Nat) (a2 : Group) : (s.setGroup a1 a2).nor = s.nor := (rfl)
@[simp] theorem State.setGroup_thm (s : State) (a1 : Nat) (a2 : Group) : (s.setGroup a1 a2).thm = s.thm := (rfl)
@[simp] theorem State.setGroup_nand (s : State) (a1 : Nat) (a2 : Group) : (s.setGroup a1 a2).nand = s.nand := (rfl)
@[simp] theorem State.setGroup_hrd (s : State) (a1 : Nat) (a2 : Group) : (s.setGroup a1 a2).hrd = s.hrd := (rfl)
@[simp] theorem State.setGroup_host (s : State) (a1 : Nat) (a2 : Group) : (s.setGroup a1 a2).host = s.host := (rfl)
@[simp] theorem State.setGroup_jrnl (s : State) (a1 : Nat) (a2 : Group) : (s.setGroup a1 a2).jrnl = s.jrnl := (rfl)
@[simp] theorem State.setGroup_rdma (s : State) (a1 : Nat) (a2 : Group) : (s.setGroup a1 a2).rdma = s.rdma := (rfl)
@[simp] theorem State.setGroup_med (s : State) (a1 : Nat) (a2 : Group) : (s.setGroup a1 a2).med = s.med := (rfl)
@[simp] theorem State.setGroup_dst (s : State) (a1 : Nat) (a2 : Group) : (s.setGroup a1 a2).dst = s.dst := (rfl)
@[simp] theorem State.setGroup_ftl (s : State) (a1 : Nat) (a2 : Group) : (s.setGroup a1 a2).ftl = s.ftl := (rfl)
@[simp] theorem State.setGroup_par (s : State) (a1 : Nat) (a2 : Group) : (s.setGroup a1 a2).par = s.par := (rfl)
@[simp] theorem State.setGroup_arr (s : State) (a1 : Nat) (a2 : Group) : (s.setGroup a1 a2).arr = s.arr := (rfl)
@[simp] theorem State.setGroup_csa (s : State) (a1 : Nat) (a2 : Group) : (s.setGroup a1 a2).csa = s.csa := (rfl)
@[simp] theorem State.setGroup_keys (s : State) (a1 : Nat) (a2 : Group) : (s.setGroup a1 a2).keys = s.keys := (rfl)
@[simp] theorem State.setGroup_pgt (s : State) (a1 : Nat) (a2 : Group) : (s.setGroup a1 a2).pgt = s.pgt := (rfl)
@[simp] theorem State.setGroup_otp (s : State) (a1 : Nat) (a2 : Group) : (s.setGroup a1 a2).otp = s.otp := (rfl)
@[simp] theorem State.setGroup_boot (s : State) (a1 : Nat) (a2 : Group) : (s.setGroup a1 a2).boot = s.boot := (rfl)
@[simp] theorem State.setGroup_free (s : State) (a1 : Nat) (a2 : Group) : (s.setGroup a1 a2).free = s.free := (rfl)
@[simp] theorem State.setGroup_out (s : State) (a1 : Nat) (a2 : Group) : (s.setGroup a1 a2).out = s.out := (rfl)
@[simp] theorem State.setGroup_pending (s : State) (a1 : Nat) (a2 : Group) : (s.setGroup a1 a2).pending = s.pending := (rfl)

@[simp] theorem State.setFport_variant (s : State) (a1 : Nat) (a2 : Port) : (s.setFport a1 a2).variant = s.variant := (rfl)
@[simp] theorem State.setFport_side (s : State) (a1 : Nat) (a2 : Port) : (s.setFport a1 a2).side = s.side := (rfl)
@[simp] theorem State.setFport_regs (s : State) (a1 : Nat) (a2 : Port) : (s.setFport a1 a2).regs = s.regs := (rfl)
@[simp] theorem State.setFport_wo (s : State) (a1 : Nat) (a2 : Port) : (s.setFport a1 a2).wo = s.wo := (rfl)
@[simp] theorem State.setFport_active (s : State) (a1 : Nat) (a2 : Port) : (s.setFport a1 a2).active = s.active := (rfl)
@[simp] theorem State.setFport_shadow (s : State) (a1 : Nat) (a2 : Port) : (s.setFport a1 a2).shadow = s.shadow := (rfl)
@[simp] theorem State.setFport_copying (s : State) (a1 : Nat) (a2 : Port) : (s.setFport a1 a2).copying = s.copying := (rfl)
@[simp] theorem State.setFport_heldWrites (s : State) (a1 : Nat) (a2 : Port) : (s.setFport a1 a2).heldWrites = s.heldWrites := (rfl)
@[simp] theorem State.setFport_mem (s : State) (a1 : Nat) (a2 : Port) : (s.setFport a1 a2).mem = s.mem := (rfl)
@[simp] theorem State.setFport_pins (s : State) (a1 : Nat) (a2 : Port) : (s.setFport a1 a2).pins = s.pins := (rfl)
@[simp] theorem State.setFport_ao (s : State) (a1 : Nat) (a2 : Port) : (s.setFport a1 a2).ao = s.ao := (rfl)
@[simp] theorem State.setFport_time (s : State) (a1 : Nat) (a2 : Port) : (s.setFport a1 a2).time = s.time := (rfl)
@[simp] theorem State.setFport_nor (s : State) (a1 : Nat) (a2 : Port) : (s.setFport a1 a2).nor = s.nor := (rfl)
@[simp] theorem State.setFport_thm (s : State) (a1 : Nat) (a2 : Port) : (s.setFport a1 a2).thm = s.thm := (rfl)
@[simp] theorem State.setFport_nand (s : State) (a1 : Nat) (a2 : Port) : (s.setFport a1 a2).nand = s.nand := (rfl)
@[simp] theorem State.setFport_hrd (s : State) (a1 : Nat) (a2 : Port) : (s.setFport a1 a2).hrd = s.hrd := (rfl)
@[simp] theorem State.setFport_host (s : State) (a1 : Nat) (a2 : Port) : (s.setFport a1 a2).host = s.host := (rfl)
@[simp] theorem State.setFport_pair (s : State) (a1 : Nat) (a2 : Port) : (s.setFport a1 a2).pair = s.pair := (rfl)
@[simp] theorem State.setFport_jrnl (s : State) (a1 : Nat) (a2 : Port) : (s.setFport a1 a2).jrnl = s.jrnl := (rfl)
@[simp] theorem State.setFport_med (s : State) (a1 : Nat) (a2 : Port) : (s.setFport a1 a2).med = s.med := (rfl)
@[simp] theorem State.setFport_dst (s : State) (a1 : Nat) (a2 : Port) : (s.setFport a1 a2).dst = s.dst := (rfl)
@[simp] theorem State.setFport_ftl (s : State) (a1 : Nat) (a2 : Port) : (s.setFport a1 a2).ftl = s.ftl := (rfl)
@[simp] theorem State.setFport_par (s : State) (a1 : Nat) (a2 : Port) : (s.setFport a1 a2).par = s.par := (rfl)
@[simp] theorem State.setFport_arr (s : State) (a1 : Nat) (a2 : Port) : (s.setFport a1 a2).arr = s.arr := (rfl)
@[simp] theorem State.setFport_csa (s : State) (a1 : Nat) (a2 : Port) : (s.setFport a1 a2).csa = s.csa := (rfl)
@[simp] theorem State.setFport_keys (s : State) (a1 : Nat) (a2 : Port) : (s.setFport a1 a2).keys = s.keys := (rfl)
@[simp] theorem State.setFport_pgt (s : State) (a1 : Nat) (a2 : Port) : (s.setFport a1 a2).pgt = s.pgt := (rfl)
@[simp] theorem State.setFport_otp (s : State) (a1 : Nat) (a2 : Port) : (s.setFport a1 a2).otp = s.otp := (rfl)
@[simp] theorem State.setFport_boot (s : State) (a1 : Nat) (a2 : Port) : (s.setFport a1 a2).boot = s.boot := (rfl)
@[simp] theorem State.setFport_free (s : State) (a1 : Nat) (a2 : Port) : (s.setFport a1 a2).free = s.free := (rfl)
@[simp] theorem State.setFport_out (s : State) (a1 : Nat) (a2 : Port) : (s.setFport a1 a2).out = s.out := (rfl)
@[simp] theorem State.setFport_pending (s : State) (a1 : Nat) (a2 : Port) : (s.setFport a1 a2).pending = s.pending := (rfl)

@[simp] theorem State.setCsa_variant (s : State) (a1 : Nat) (a2 : Csa) : (s.setCsa a1 a2).variant = s.variant := (rfl)
@[simp] theorem State.setCsa_side (s : State) (a1 : Nat) (a2 : Csa) : (s.setCsa a1 a2).side = s.side := (rfl)
@[simp] theorem State.setCsa_regs (s : State) (a1 : Nat) (a2 : Csa) : (s.setCsa a1 a2).regs = s.regs := (rfl)
@[simp] theorem State.setCsa_wo (s : State) (a1 : Nat) (a2 : Csa) : (s.setCsa a1 a2).wo = s.wo := (rfl)
@[simp] theorem State.setCsa_active (s : State) (a1 : Nat) (a2 : Csa) : (s.setCsa a1 a2).active = s.active := (rfl)
@[simp] theorem State.setCsa_shadow (s : State) (a1 : Nat) (a2 : Csa) : (s.setCsa a1 a2).shadow = s.shadow := (rfl)
@[simp] theorem State.setCsa_copying (s : State) (a1 : Nat) (a2 : Csa) : (s.setCsa a1 a2).copying = s.copying := (rfl)
@[simp] theorem State.setCsa_heldWrites (s : State) (a1 : Nat) (a2 : Csa) : (s.setCsa a1 a2).heldWrites = s.heldWrites := (rfl)
@[simp] theorem State.setCsa_mem (s : State) (a1 : Nat) (a2 : Csa) : (s.setCsa a1 a2).mem = s.mem := (rfl)
@[simp] theorem State.setCsa_pins (s : State) (a1 : Nat) (a2 : Csa) : (s.setCsa a1 a2).pins = s.pins := (rfl)
@[simp] theorem State.setCsa_ao (s : State) (a1 : Nat) (a2 : Csa) : (s.setCsa a1 a2).ao = s.ao := (rfl)
@[simp] theorem State.setCsa_time (s : State) (a1 : Nat) (a2 : Csa) : (s.setCsa a1 a2).time = s.time := (rfl)
@[simp] theorem State.setCsa_nor (s : State) (a1 : Nat) (a2 : Csa) : (s.setCsa a1 a2).nor = s.nor := (rfl)
@[simp] theorem State.setCsa_thm (s : State) (a1 : Nat) (a2 : Csa) : (s.setCsa a1 a2).thm = s.thm := (rfl)
@[simp] theorem State.setCsa_nand (s : State) (a1 : Nat) (a2 : Csa) : (s.setCsa a1 a2).nand = s.nand := (rfl)
@[simp] theorem State.setCsa_hrd (s : State) (a1 : Nat) (a2 : Csa) : (s.setCsa a1 a2).hrd = s.hrd := (rfl)
@[simp] theorem State.setCsa_host (s : State) (a1 : Nat) (a2 : Csa) : (s.setCsa a1 a2).host = s.host := (rfl)
@[simp] theorem State.setCsa_pair (s : State) (a1 : Nat) (a2 : Csa) : (s.setCsa a1 a2).pair = s.pair := (rfl)
@[simp] theorem State.setCsa_jrnl (s : State) (a1 : Nat) (a2 : Csa) : (s.setCsa a1 a2).jrnl = s.jrnl := (rfl)
@[simp] theorem State.setCsa_rdma (s : State) (a1 : Nat) (a2 : Csa) : (s.setCsa a1 a2).rdma = s.rdma := (rfl)
@[simp] theorem State.setCsa_med (s : State) (a1 : Nat) (a2 : Csa) : (s.setCsa a1 a2).med = s.med := (rfl)
@[simp] theorem State.setCsa_dst (s : State) (a1 : Nat) (a2 : Csa) : (s.setCsa a1 a2).dst = s.dst := (rfl)
@[simp] theorem State.setCsa_ftl (s : State) (a1 : Nat) (a2 : Csa) : (s.setCsa a1 a2).ftl = s.ftl := (rfl)
@[simp] theorem State.setCsa_par (s : State) (a1 : Nat) (a2 : Csa) : (s.setCsa a1 a2).par = s.par := (rfl)
@[simp] theorem State.setCsa_arr (s : State) (a1 : Nat) (a2 : Csa) : (s.setCsa a1 a2).arr = s.arr := (rfl)
@[simp] theorem State.setCsa_keys (s : State) (a1 : Nat) (a2 : Csa) : (s.setCsa a1 a2).keys = s.keys := (rfl)
@[simp] theorem State.setCsa_pgt (s : State) (a1 : Nat) (a2 : Csa) : (s.setCsa a1 a2).pgt = s.pgt := (rfl)
@[simp] theorem State.setCsa_otp (s : State) (a1 : Nat) (a2 : Csa) : (s.setCsa a1 a2).otp = s.otp := (rfl)
@[simp] theorem State.setCsa_boot (s : State) (a1 : Nat) (a2 : Csa) : (s.setCsa a1 a2).boot = s.boot := (rfl)
@[simp] theorem State.setCsa_free (s : State) (a1 : Nat) (a2 : Csa) : (s.setCsa a1 a2).free = s.free := (rfl)
@[simp] theorem State.setCsa_out (s : State) (a1 : Nat) (a2 : Csa) : (s.setCsa a1 a2).out = s.out := (rfl)
@[simp] theorem State.setCsa_pending (s : State) (a1 : Nat) (a2 : Csa) : (s.setCsa a1 a2).pending = s.pending := (rfl)

@[simp] theorem State.setDie_variant (s : State) (a1 : Nat) (a2 : DieInfo) : (s.setDie a1 a2).variant = s.variant := (rfl)
@[simp] theorem State.setDie_side (s : State) (a1 : Nat) (a2 : DieInfo) : (s.setDie a1 a2).side = s.side := (rfl)
@[simp] theorem State.setDie_regs (s : State) (a1 : Nat) (a2 : DieInfo) : (s.setDie a1 a2).regs = s.regs := (rfl)
@[simp] theorem State.setDie_wo (s : State) (a1 : Nat) (a2 : DieInfo) : (s.setDie a1 a2).wo = s.wo := (rfl)
@[simp] theorem State.setDie_active (s : State) (a1 : Nat) (a2 : DieInfo) : (s.setDie a1 a2).active = s.active := (rfl)
@[simp] theorem State.setDie_shadow (s : State) (a1 : Nat) (a2 : DieInfo) : (s.setDie a1 a2).shadow = s.shadow := (rfl)
@[simp] theorem State.setDie_copying (s : State) (a1 : Nat) (a2 : DieInfo) : (s.setDie a1 a2).copying = s.copying := (rfl)
@[simp] theorem State.setDie_heldWrites (s : State) (a1 : Nat) (a2 : DieInfo) : (s.setDie a1 a2).heldWrites = s.heldWrites := (rfl)
@[simp] theorem State.setDie_mem (s : State) (a1 : Nat) (a2 : DieInfo) : (s.setDie a1 a2).mem = s.mem := (rfl)
@[simp] theorem State.setDie_pins (s : State) (a1 : Nat) (a2 : DieInfo) : (s.setDie a1 a2).pins = s.pins := (rfl)
@[simp] theorem State.setDie_ao (s : State) (a1 : Nat) (a2 : DieInfo) : (s.setDie a1 a2).ao = s.ao := (rfl)
@[simp] theorem State.setDie_time (s : State) (a1 : Nat) (a2 : DieInfo) : (s.setDie a1 a2).time = s.time := (rfl)
@[simp] theorem State.setDie_nor (s : State) (a1 : Nat) (a2 : DieInfo) : (s.setDie a1 a2).nor = s.nor := (rfl)
@[simp] theorem State.setDie_thm (s : State) (a1 : Nat) (a2 : DieInfo) : (s.setDie a1 a2).thm = s.thm := (rfl)
@[simp] theorem State.setDie_nand (s : State) (a1 : Nat) (a2 : DieInfo) : (s.setDie a1 a2).nand = s.nand := (rfl)
@[simp] theorem State.setDie_hrd (s : State) (a1 : Nat) (a2 : DieInfo) : (s.setDie a1 a2).hrd = s.hrd := (rfl)
@[simp] theorem State.setDie_host (s : State) (a1 : Nat) (a2 : DieInfo) : (s.setDie a1 a2).host = s.host := (rfl)
@[simp] theorem State.setDie_pair (s : State) (a1 : Nat) (a2 : DieInfo) : (s.setDie a1 a2).pair = s.pair := (rfl)
@[simp] theorem State.setDie_jrnl (s : State) (a1 : Nat) (a2 : DieInfo) : (s.setDie a1 a2).jrnl = s.jrnl := (rfl)
@[simp] theorem State.setDie_rdma (s : State) (a1 : Nat) (a2 : DieInfo) : (s.setDie a1 a2).rdma = s.rdma := (rfl)
@[simp] theorem State.setDie_dst (s : State) (a1 : Nat) (a2 : DieInfo) : (s.setDie a1 a2).dst = s.dst := (rfl)
@[simp] theorem State.setDie_ftl (s : State) (a1 : Nat) (a2 : DieInfo) : (s.setDie a1 a2).ftl = s.ftl := (rfl)
@[simp] theorem State.setDie_par (s : State) (a1 : Nat) (a2 : DieInfo) : (s.setDie a1 a2).par = s.par := (rfl)
@[simp] theorem State.setDie_arr (s : State) (a1 : Nat) (a2 : DieInfo) : (s.setDie a1 a2).arr = s.arr := (rfl)
@[simp] theorem State.setDie_csa (s : State) (a1 : Nat) (a2 : DieInfo) : (s.setDie a1 a2).csa = s.csa := (rfl)
@[simp] theorem State.setDie_keys (s : State) (a1 : Nat) (a2 : DieInfo) : (s.setDie a1 a2).keys = s.keys := (rfl)
@[simp] theorem State.setDie_pgt (s : State) (a1 : Nat) (a2 : DieInfo) : (s.setDie a1 a2).pgt = s.pgt := (rfl)
@[simp] theorem State.setDie_otp (s : State) (a1 : Nat) (a2 : DieInfo) : (s.setDie a1 a2).otp = s.otp := (rfl)
@[simp] theorem State.setDie_boot (s : State) (a1 : Nat) (a2 : DieInfo) : (s.setDie a1 a2).boot = s.boot := (rfl)
@[simp] theorem State.setDie_free (s : State) (a1 : Nat) (a2 : DieInfo) : (s.setDie a1 a2).free = s.free := (rfl)
@[simp] theorem State.setDie_out (s : State) (a1 : Nat) (a2 : DieInfo) : (s.setDie a1 a2).out = s.out := (rfl)
@[simp] theorem State.setDie_pending (s : State) (a1 : Nat) (a2 : DieInfo) : (s.setDie a1 a2).pending = s.pending := (rfl)

@[simp] theorem State.setLine_variant (s : State) (a1 : Nat) (a2 : Line) : (s.setLine a1 a2).variant = s.variant := (rfl)
@[simp] theorem State.setLine_side (s : State) (a1 : Nat) (a2 : Line) : (s.setLine a1 a2).side = s.side := (rfl)
@[simp] theorem State.setLine_regs (s : State) (a1 : Nat) (a2 : Line) : (s.setLine a1 a2).regs = s.regs := (rfl)
@[simp] theorem State.setLine_wo (s : State) (a1 : Nat) (a2 : Line) : (s.setLine a1 a2).wo = s.wo := (rfl)
@[simp] theorem State.setLine_active (s : State) (a1 : Nat) (a2 : Line) : (s.setLine a1 a2).active = s.active := (rfl)
@[simp] theorem State.setLine_shadow (s : State) (a1 : Nat) (a2 : Line) : (s.setLine a1 a2).shadow = s.shadow := (rfl)
@[simp] theorem State.setLine_copying (s : State) (a1 : Nat) (a2 : Line) : (s.setLine a1 a2).copying = s.copying := (rfl)
@[simp] theorem State.setLine_heldWrites (s : State) (a1 : Nat) (a2 : Line) : (s.setLine a1 a2).heldWrites = s.heldWrites := (rfl)
@[simp] theorem State.setLine_mem (s : State) (a1 : Nat) (a2 : Line) : (s.setLine a1 a2).mem = s.mem := (rfl)
@[simp] theorem State.setLine_pins (s : State) (a1 : Nat) (a2 : Line) : (s.setLine a1 a2).pins = s.pins := (rfl)
@[simp] theorem State.setLine_ao (s : State) (a1 : Nat) (a2 : Line) : (s.setLine a1 a2).ao = s.ao := (rfl)
@[simp] theorem State.setLine_time (s : State) (a1 : Nat) (a2 : Line) : (s.setLine a1 a2).time = s.time := (rfl)
@[simp] theorem State.setLine_nor (s : State) (a1 : Nat) (a2 : Line) : (s.setLine a1 a2).nor = s.nor := (rfl)
@[simp] theorem State.setLine_thm (s : State) (a1 : Nat) (a2 : Line) : (s.setLine a1 a2).thm = s.thm := (rfl)
@[simp] theorem State.setLine_nand (s : State) (a1 : Nat) (a2 : Line) : (s.setLine a1 a2).nand = s.nand := (rfl)
@[simp] theorem State.setLine_hrd (s : State) (a1 : Nat) (a2 : Line) : (s.setLine a1 a2).hrd = s.hrd := (rfl)
@[simp] theorem State.setLine_host (s : State) (a1 : Nat) (a2 : Line) : (s.setLine a1 a2).host = s.host := (rfl)
@[simp] theorem State.setLine_pair (s : State) (a1 : Nat) (a2 : Line) : (s.setLine a1 a2).pair = s.pair := (rfl)
@[simp] theorem State.setLine_jrnl (s : State) (a1 : Nat) (a2 : Line) : (s.setLine a1 a2).jrnl = s.jrnl := (rfl)
@[simp] theorem State.setLine_rdma (s : State) (a1 : Nat) (a2 : Line) : (s.setLine a1 a2).rdma = s.rdma := (rfl)
@[simp] theorem State.setLine_med (s : State) (a1 : Nat) (a2 : Line) : (s.setLine a1 a2).med = s.med := (rfl)
@[simp] theorem State.setLine_dst (s : State) (a1 : Nat) (a2 : Line) : (s.setLine a1 a2).dst = s.dst := (rfl)
@[simp] theorem State.setLine_par (s : State) (a1 : Nat) (a2 : Line) : (s.setLine a1 a2).par = s.par := (rfl)
@[simp] theorem State.setLine_arr (s : State) (a1 : Nat) (a2 : Line) : (s.setLine a1 a2).arr = s.arr := (rfl)
@[simp] theorem State.setLine_csa (s : State) (a1 : Nat) (a2 : Line) : (s.setLine a1 a2).csa = s.csa := (rfl)
@[simp] theorem State.setLine_keys (s : State) (a1 : Nat) (a2 : Line) : (s.setLine a1 a2).keys = s.keys := (rfl)
@[simp] theorem State.setLine_pgt (s : State) (a1 : Nat) (a2 : Line) : (s.setLine a1 a2).pgt = s.pgt := (rfl)
@[simp] theorem State.setLine_otp (s : State) (a1 : Nat) (a2 : Line) : (s.setLine a1 a2).otp = s.otp := (rfl)
@[simp] theorem State.setLine_boot (s : State) (a1 : Nat) (a2 : Line) : (s.setLine a1 a2).boot = s.boot := (rfl)
@[simp] theorem State.setLine_free (s : State) (a1 : Nat) (a2 : Line) : (s.setLine a1 a2).free = s.free := (rfl)
@[simp] theorem State.setLine_out (s : State) (a1 : Nat) (a2 : Line) : (s.setLine a1 a2).out = s.out := (rfl)
@[simp] theorem State.setLine_pending (s : State) (a1 : Nat) (a2 : Line) : (s.setLine a1 a2).pending = s.pending := (rfl)

@[simp] theorem State.setRange_variant (s : State) (a1 : Nat) (a2 : RangeOp) : (s.setRange a1 a2).variant = s.variant := (rfl)
@[simp] theorem State.setRange_side (s : State) (a1 : Nat) (a2 : RangeOp) : (s.setRange a1 a2).side = s.side := (rfl)
@[simp] theorem State.setRange_regs (s : State) (a1 : Nat) (a2 : RangeOp) : (s.setRange a1 a2).regs = s.regs := (rfl)
@[simp] theorem State.setRange_wo (s : State) (a1 : Nat) (a2 : RangeOp) : (s.setRange a1 a2).wo = s.wo := (rfl)
@[simp] theorem State.setRange_active (s : State) (a1 : Nat) (a2 : RangeOp) : (s.setRange a1 a2).active = s.active := (rfl)
@[simp] theorem State.setRange_shadow (s : State) (a1 : Nat) (a2 : RangeOp) : (s.setRange a1 a2).shadow = s.shadow := (rfl)
@[simp] theorem State.setRange_copying (s : State) (a1 : Nat) (a2 : RangeOp) : (s.setRange a1 a2).copying = s.copying := (rfl)
@[simp] theorem State.setRange_heldWrites (s : State) (a1 : Nat) (a2 : RangeOp) : (s.setRange a1 a2).heldWrites = s.heldWrites := (rfl)
@[simp] theorem State.setRange_mem (s : State) (a1 : Nat) (a2 : RangeOp) : (s.setRange a1 a2).mem = s.mem := (rfl)
@[simp] theorem State.setRange_pins (s : State) (a1 : Nat) (a2 : RangeOp) : (s.setRange a1 a2).pins = s.pins := (rfl)
@[simp] theorem State.setRange_ao (s : State) (a1 : Nat) (a2 : RangeOp) : (s.setRange a1 a2).ao = s.ao := (rfl)
@[simp] theorem State.setRange_time (s : State) (a1 : Nat) (a2 : RangeOp) : (s.setRange a1 a2).time = s.time := (rfl)
@[simp] theorem State.setRange_nor (s : State) (a1 : Nat) (a2 : RangeOp) : (s.setRange a1 a2).nor = s.nor := (rfl)
@[simp] theorem State.setRange_thm (s : State) (a1 : Nat) (a2 : RangeOp) : (s.setRange a1 a2).thm = s.thm := (rfl)
@[simp] theorem State.setRange_nand (s : State) (a1 : Nat) (a2 : RangeOp) : (s.setRange a1 a2).nand = s.nand := (rfl)
@[simp] theorem State.setRange_hrd (s : State) (a1 : Nat) (a2 : RangeOp) : (s.setRange a1 a2).hrd = s.hrd := (rfl)
@[simp] theorem State.setRange_host (s : State) (a1 : Nat) (a2 : RangeOp) : (s.setRange a1 a2).host = s.host := (rfl)
@[simp] theorem State.setRange_pair (s : State) (a1 : Nat) (a2 : RangeOp) : (s.setRange a1 a2).pair = s.pair := (rfl)
@[simp] theorem State.setRange_jrnl (s : State) (a1 : Nat) (a2 : RangeOp) : (s.setRange a1 a2).jrnl = s.jrnl := (rfl)
@[simp] theorem State.setRange_rdma (s : State) (a1 : Nat) (a2 : RangeOp) : (s.setRange a1 a2).rdma = s.rdma := (rfl)
@[simp] theorem State.setRange_med (s : State) (a1 : Nat) (a2 : RangeOp) : (s.setRange a1 a2).med = s.med := (rfl)
@[simp] theorem State.setRange_dst (s : State) (a1 : Nat) (a2 : RangeOp) : (s.setRange a1 a2).dst = s.dst := (rfl)
@[simp] theorem State.setRange_par (s : State) (a1 : Nat) (a2 : RangeOp) : (s.setRange a1 a2).par = s.par := (rfl)
@[simp] theorem State.setRange_arr (s : State) (a1 : Nat) (a2 : RangeOp) : (s.setRange a1 a2).arr = s.arr := (rfl)
@[simp] theorem State.setRange_csa (s : State) (a1 : Nat) (a2 : RangeOp) : (s.setRange a1 a2).csa = s.csa := (rfl)
@[simp] theorem State.setRange_keys (s : State) (a1 : Nat) (a2 : RangeOp) : (s.setRange a1 a2).keys = s.keys := (rfl)
@[simp] theorem State.setRange_pgt (s : State) (a1 : Nat) (a2 : RangeOp) : (s.setRange a1 a2).pgt = s.pgt := (rfl)
@[simp] theorem State.setRange_otp (s : State) (a1 : Nat) (a2 : RangeOp) : (s.setRange a1 a2).otp = s.otp := (rfl)
@[simp] theorem State.setRange_boot (s : State) (a1 : Nat) (a2 : RangeOp) : (s.setRange a1 a2).boot = s.boot := (rfl)
@[simp] theorem State.setRange_free (s : State) (a1 : Nat) (a2 : RangeOp) : (s.setRange a1 a2).free = s.free := (rfl)
@[simp] theorem State.setRange_out (s : State) (a1 : Nat) (a2 : RangeOp) : (s.setRange a1 a2).out = s.out := (rfl)
@[simp] theorem State.setRange_pending (s : State) (a1 : Nat) (a2 : RangeOp) : (s.setRange a1 a2).pending = s.pending := (rfl)

@[simp] theorem State.setPack_variant (s : State) (a1 : Nat) (a2 : Pack) : (s.setPack a1 a2).variant = s.variant := (rfl)
@[simp] theorem State.setPack_side (s : State) (a1 : Nat) (a2 : Pack) : (s.setPack a1 a2).side = s.side := (rfl)
@[simp] theorem State.setPack_regs (s : State) (a1 : Nat) (a2 : Pack) : (s.setPack a1 a2).regs = s.regs := (rfl)
@[simp] theorem State.setPack_wo (s : State) (a1 : Nat) (a2 : Pack) : (s.setPack a1 a2).wo = s.wo := (rfl)
@[simp] theorem State.setPack_active (s : State) (a1 : Nat) (a2 : Pack) : (s.setPack a1 a2).active = s.active := (rfl)
@[simp] theorem State.setPack_shadow (s : State) (a1 : Nat) (a2 : Pack) : (s.setPack a1 a2).shadow = s.shadow := (rfl)
@[simp] theorem State.setPack_copying (s : State) (a1 : Nat) (a2 : Pack) : (s.setPack a1 a2).copying = s.copying := (rfl)
@[simp] theorem State.setPack_heldWrites (s : State) (a1 : Nat) (a2 : Pack) : (s.setPack a1 a2).heldWrites = s.heldWrites := (rfl)
@[simp] theorem State.setPack_mem (s : State) (a1 : Nat) (a2 : Pack) : (s.setPack a1 a2).mem = s.mem := (rfl)
@[simp] theorem State.setPack_pins (s : State) (a1 : Nat) (a2 : Pack) : (s.setPack a1 a2).pins = s.pins := (rfl)
@[simp] theorem State.setPack_ao (s : State) (a1 : Nat) (a2 : Pack) : (s.setPack a1 a2).ao = s.ao := (rfl)
@[simp] theorem State.setPack_time (s : State) (a1 : Nat) (a2 : Pack) : (s.setPack a1 a2).time = s.time := (rfl)
@[simp] theorem State.setPack_nor (s : State) (a1 : Nat) (a2 : Pack) : (s.setPack a1 a2).nor = s.nor := (rfl)
@[simp] theorem State.setPack_thm (s : State) (a1 : Nat) (a2 : Pack) : (s.setPack a1 a2).thm = s.thm := (rfl)
@[simp] theorem State.setPack_nand (s : State) (a1 : Nat) (a2 : Pack) : (s.setPack a1 a2).nand = s.nand := (rfl)
@[simp] theorem State.setPack_hrd (s : State) (a1 : Nat) (a2 : Pack) : (s.setPack a1 a2).hrd = s.hrd := (rfl)
@[simp] theorem State.setPack_host (s : State) (a1 : Nat) (a2 : Pack) : (s.setPack a1 a2).host = s.host := (rfl)
@[simp] theorem State.setPack_pair (s : State) (a1 : Nat) (a2 : Pack) : (s.setPack a1 a2).pair = s.pair := (rfl)
@[simp] theorem State.setPack_jrnl (s : State) (a1 : Nat) (a2 : Pack) : (s.setPack a1 a2).jrnl = s.jrnl := (rfl)
@[simp] theorem State.setPack_rdma (s : State) (a1 : Nat) (a2 : Pack) : (s.setPack a1 a2).rdma = s.rdma := (rfl)
@[simp] theorem State.setPack_med (s : State) (a1 : Nat) (a2 : Pack) : (s.setPack a1 a2).med = s.med := (rfl)
@[simp] theorem State.setPack_ftl (s : State) (a1 : Nat) (a2 : Pack) : (s.setPack a1 a2).ftl = s.ftl := (rfl)
@[simp] theorem State.setPack_par (s : State) (a1 : Nat) (a2 : Pack) : (s.setPack a1 a2).par = s.par := (rfl)
@[simp] theorem State.setPack_arr (s : State) (a1 : Nat) (a2 : Pack) : (s.setPack a1 a2).arr = s.arr := (rfl)
@[simp] theorem State.setPack_csa (s : State) (a1 : Nat) (a2 : Pack) : (s.setPack a1 a2).csa = s.csa := (rfl)
@[simp] theorem State.setPack_keys (s : State) (a1 : Nat) (a2 : Pack) : (s.setPack a1 a2).keys = s.keys := (rfl)
@[simp] theorem State.setPack_pgt (s : State) (a1 : Nat) (a2 : Pack) : (s.setPack a1 a2).pgt = s.pgt := (rfl)
@[simp] theorem State.setPack_otp (s : State) (a1 : Nat) (a2 : Pack) : (s.setPack a1 a2).otp = s.otp := (rfl)
@[simp] theorem State.setPack_boot (s : State) (a1 : Nat) (a2 : Pack) : (s.setPack a1 a2).boot = s.boot := (rfl)
@[simp] theorem State.setPack_free (s : State) (a1 : Nat) (a2 : Pack) : (s.setPack a1 a2).free = s.free := (rfl)
@[simp] theorem State.setPack_out (s : State) (a1 : Nat) (a2 : Pack) : (s.setPack a1 a2).out = s.out := (rfl)
@[simp] theorem State.setPack_pending (s : State) (a1 : Nat) (a2 : Pack) : (s.setPack a1 a2).pending = s.pending := (rfl)

@[simp] theorem State.setSeg_variant (s : State) (a1 : SegDesc) : (s.setSeg a1).variant = s.variant := (rfl)
@[simp] theorem State.setSeg_side (s : State) (a1 : SegDesc) : (s.setSeg a1).side = s.side := (rfl)
@[simp] theorem State.setSeg_regs (s : State) (a1 : SegDesc) : (s.setSeg a1).regs = s.regs := (rfl)
@[simp] theorem State.setSeg_wo (s : State) (a1 : SegDesc) : (s.setSeg a1).wo = s.wo := (rfl)
@[simp] theorem State.setSeg_active (s : State) (a1 : SegDesc) : (s.setSeg a1).active = s.active := (rfl)
@[simp] theorem State.setSeg_shadow (s : State) (a1 : SegDesc) : (s.setSeg a1).shadow = s.shadow := (rfl)
@[simp] theorem State.setSeg_copying (s : State) (a1 : SegDesc) : (s.setSeg a1).copying = s.copying := (rfl)
@[simp] theorem State.setSeg_heldWrites (s : State) (a1 : SegDesc) : (s.setSeg a1).heldWrites = s.heldWrites := (rfl)
@[simp] theorem State.setSeg_mem (s : State) (a1 : SegDesc) : (s.setSeg a1).mem = s.mem := (rfl)
@[simp] theorem State.setSeg_pins (s : State) (a1 : SegDesc) : (s.setSeg a1).pins = s.pins := (rfl)
@[simp] theorem State.setSeg_ao (s : State) (a1 : SegDesc) : (s.setSeg a1).ao = s.ao := (rfl)
@[simp] theorem State.setSeg_time (s : State) (a1 : SegDesc) : (s.setSeg a1).time = s.time := (rfl)
@[simp] theorem State.setSeg_nor (s : State) (a1 : SegDesc) : (s.setSeg a1).nor = s.nor := (rfl)
@[simp] theorem State.setSeg_thm (s : State) (a1 : SegDesc) : (s.setSeg a1).thm = s.thm := (rfl)
@[simp] theorem State.setSeg_nand (s : State) (a1 : SegDesc) : (s.setSeg a1).nand = s.nand := (rfl)
@[simp] theorem State.setSeg_hrd (s : State) (a1 : SegDesc) : (s.setSeg a1).hrd = s.hrd := (rfl)
@[simp] theorem State.setSeg_host (s : State) (a1 : SegDesc) : (s.setSeg a1).host = s.host := (rfl)
@[simp] theorem State.setSeg_pair (s : State) (a1 : SegDesc) : (s.setSeg a1).pair = s.pair := (rfl)
@[simp] theorem State.setSeg_jrnl (s : State) (a1 : SegDesc) : (s.setSeg a1).jrnl = s.jrnl := (rfl)
@[simp] theorem State.setSeg_rdma (s : State) (a1 : SegDesc) : (s.setSeg a1).rdma = s.rdma := (rfl)
@[simp] theorem State.setSeg_med (s : State) (a1 : SegDesc) : (s.setSeg a1).med = s.med := (rfl)
@[simp] theorem State.setSeg_dst (s : State) (a1 : SegDesc) : (s.setSeg a1).dst = s.dst := (rfl)
@[simp] theorem State.setSeg_par (s : State) (a1 : SegDesc) : (s.setSeg a1).par = s.par := (rfl)
@[simp] theorem State.setSeg_arr (s : State) (a1 : SegDesc) : (s.setSeg a1).arr = s.arr := (rfl)
@[simp] theorem State.setSeg_csa (s : State) (a1 : SegDesc) : (s.setSeg a1).csa = s.csa := (rfl)
@[simp] theorem State.setSeg_keys (s : State) (a1 : SegDesc) : (s.setSeg a1).keys = s.keys := (rfl)
@[simp] theorem State.setSeg_pgt (s : State) (a1 : SegDesc) : (s.setSeg a1).pgt = s.pgt := (rfl)
@[simp] theorem State.setSeg_otp (s : State) (a1 : SegDesc) : (s.setSeg a1).otp = s.otp := (rfl)
@[simp] theorem State.setSeg_boot (s : State) (a1 : SegDesc) : (s.setSeg a1).boot = s.boot := (rfl)
@[simp] theorem State.setSeg_free (s : State) (a1 : SegDesc) : (s.setSeg a1).free = s.free := (rfl)
@[simp] theorem State.setSeg_out (s : State) (a1 : SegDesc) : (s.setSeg a1).out = s.out := (rfl)
@[simp] theorem State.setSeg_pending (s : State) (a1 : SegDesc) : (s.setSeg a1).pending = s.pending := (rfl)

@[simp] theorem State.setCw_variant (s : State) (a1 : Nat) (a2 : CwReq) : (s.setCw a1 a2).variant = s.variant := (rfl)
@[simp] theorem State.setCw_side (s : State) (a1 : Nat) (a2 : CwReq) : (s.setCw a1 a2).side = s.side := (rfl)
@[simp] theorem State.setCw_regs (s : State) (a1 : Nat) (a2 : CwReq) : (s.setCw a1 a2).regs = s.regs := (rfl)
@[simp] theorem State.setCw_wo (s : State) (a1 : Nat) (a2 : CwReq) : (s.setCw a1 a2).wo = s.wo := (rfl)
@[simp] theorem State.setCw_active (s : State) (a1 : Nat) (a2 : CwReq) : (s.setCw a1 a2).active = s.active := (rfl)
@[simp] theorem State.setCw_shadow (s : State) (a1 : Nat) (a2 : CwReq) : (s.setCw a1 a2).shadow = s.shadow := (rfl)
@[simp] theorem State.setCw_copying (s : State) (a1 : Nat) (a2 : CwReq) : (s.setCw a1 a2).copying = s.copying := (rfl)
@[simp] theorem State.setCw_heldWrites (s : State) (a1 : Nat) (a2 : CwReq) : (s.setCw a1 a2).heldWrites = s.heldWrites := (rfl)
@[simp] theorem State.setCw_mem (s : State) (a1 : Nat) (a2 : CwReq) : (s.setCw a1 a2).mem = s.mem := (rfl)
@[simp] theorem State.setCw_pins (s : State) (a1 : Nat) (a2 : CwReq) : (s.setCw a1 a2).pins = s.pins := (rfl)
@[simp] theorem State.setCw_ao (s : State) (a1 : Nat) (a2 : CwReq) : (s.setCw a1 a2).ao = s.ao := (rfl)
@[simp] theorem State.setCw_time (s : State) (a1 : Nat) (a2 : CwReq) : (s.setCw a1 a2).time = s.time := (rfl)
@[simp] theorem State.setCw_nor (s : State) (a1 : Nat) (a2 : CwReq) : (s.setCw a1 a2).nor = s.nor := (rfl)
@[simp] theorem State.setCw_thm (s : State) (a1 : Nat) (a2 : CwReq) : (s.setCw a1 a2).thm = s.thm := (rfl)
@[simp] theorem State.setCw_nand (s : State) (a1 : Nat) (a2 : CwReq) : (s.setCw a1 a2).nand = s.nand := (rfl)
@[simp] theorem State.setCw_hrd (s : State) (a1 : Nat) (a2 : CwReq) : (s.setCw a1 a2).hrd = s.hrd := (rfl)
@[simp] theorem State.setCw_host (s : State) (a1 : Nat) (a2 : CwReq) : (s.setCw a1 a2).host = s.host := (rfl)
@[simp] theorem State.setCw_pair (s : State) (a1 : Nat) (a2 : CwReq) : (s.setCw a1 a2).pair = s.pair := (rfl)
@[simp] theorem State.setCw_jrnl (s : State) (a1 : Nat) (a2 : CwReq) : (s.setCw a1 a2).jrnl = s.jrnl := (rfl)
@[simp] theorem State.setCw_rdma (s : State) (a1 : Nat) (a2 : CwReq) : (s.setCw a1 a2).rdma = s.rdma := (rfl)
@[simp] theorem State.setCw_dst (s : State) (a1 : Nat) (a2 : CwReq) : (s.setCw a1 a2).dst = s.dst := (rfl)
@[simp] theorem State.setCw_ftl (s : State) (a1 : Nat) (a2 : CwReq) : (s.setCw a1 a2).ftl = s.ftl := (rfl)
@[simp] theorem State.setCw_par (s : State) (a1 : Nat) (a2 : CwReq) : (s.setCw a1 a2).par = s.par := (rfl)
@[simp] theorem State.setCw_arr (s : State) (a1 : Nat) (a2 : CwReq) : (s.setCw a1 a2).arr = s.arr := (rfl)
@[simp] theorem State.setCw_csa (s : State) (a1 : Nat) (a2 : CwReq) : (s.setCw a1 a2).csa = s.csa := (rfl)
@[simp] theorem State.setCw_keys (s : State) (a1 : Nat) (a2 : CwReq) : (s.setCw a1 a2).keys = s.keys := (rfl)
@[simp] theorem State.setCw_pgt (s : State) (a1 : Nat) (a2 : CwReq) : (s.setCw a1 a2).pgt = s.pgt := (rfl)
@[simp] theorem State.setCw_otp (s : State) (a1 : Nat) (a2 : CwReq) : (s.setCw a1 a2).otp = s.otp := (rfl)
@[simp] theorem State.setCw_boot (s : State) (a1 : Nat) (a2 : CwReq) : (s.setCw a1 a2).boot = s.boot := (rfl)
@[simp] theorem State.setCw_free (s : State) (a1 : Nat) (a2 : CwReq) : (s.setCw a1 a2).free = s.free := (rfl)
@[simp] theorem State.setCw_out (s : State) (a1 : Nat) (a2 : CwReq) : (s.setCw a1 a2).out = s.out := (rfl)
@[simp] theorem State.setCw_pending (s : State) (a1 : Nat) (a2 : CwReq) : (s.setCw a1 a2).pending = s.pending := (rfl)

@[simp] theorem State.setTemp_variant (s : State) (a1 : Nat) (a2 : DieTemp) : (s.setTemp a1 a2).variant = s.variant := (rfl)
@[simp] theorem State.setTemp_side (s : State) (a1 : Nat) (a2 : DieTemp) : (s.setTemp a1 a2).side = s.side := (rfl)
@[simp] theorem State.setTemp_regs (s : State) (a1 : Nat) (a2 : DieTemp) : (s.setTemp a1 a2).regs = s.regs := (rfl)
@[simp] theorem State.setTemp_wo (s : State) (a1 : Nat) (a2 : DieTemp) : (s.setTemp a1 a2).wo = s.wo := (rfl)
@[simp] theorem State.setTemp_active (s : State) (a1 : Nat) (a2 : DieTemp) : (s.setTemp a1 a2).active = s.active := (rfl)
@[simp] theorem State.setTemp_shadow (s : State) (a1 : Nat) (a2 : DieTemp) : (s.setTemp a1 a2).shadow = s.shadow := (rfl)
@[simp] theorem State.setTemp_copying (s : State) (a1 : Nat) (a2 : DieTemp) : (s.setTemp a1 a2).copying = s.copying := (rfl)
@[simp] theorem State.setTemp_heldWrites (s : State) (a1 : Nat) (a2 : DieTemp) : (s.setTemp a1 a2).heldWrites = s.heldWrites := (rfl)
@[simp] theorem State.setTemp_mem (s : State) (a1 : Nat) (a2 : DieTemp) : (s.setTemp a1 a2).mem = s.mem := (rfl)
@[simp] theorem State.setTemp_pins (s : State) (a1 : Nat) (a2 : DieTemp) : (s.setTemp a1 a2).pins = s.pins := (rfl)
@[simp] theorem State.setTemp_ao (s : State) (a1 : Nat) (a2 : DieTemp) : (s.setTemp a1 a2).ao = s.ao := (rfl)
@[simp] theorem State.setTemp_time (s : State) (a1 : Nat) (a2 : DieTemp) : (s.setTemp a1 a2).time = s.time := (rfl)
@[simp] theorem State.setTemp_nor (s : State) (a1 : Nat) (a2 : DieTemp) : (s.setTemp a1 a2).nor = s.nor := (rfl)
@[simp] theorem State.setTemp_nand (s : State) (a1 : Nat) (a2 : DieTemp) : (s.setTemp a1 a2).nand = s.nand := (rfl)
@[simp] theorem State.setTemp_hrd (s : State) (a1 : Nat) (a2 : DieTemp) : (s.setTemp a1 a2).hrd = s.hrd := (rfl)
@[simp] theorem State.setTemp_host (s : State) (a1 : Nat) (a2 : DieTemp) : (s.setTemp a1 a2).host = s.host := (rfl)
@[simp] theorem State.setTemp_pair (s : State) (a1 : Nat) (a2 : DieTemp) : (s.setTemp a1 a2).pair = s.pair := (rfl)
@[simp] theorem State.setTemp_jrnl (s : State) (a1 : Nat) (a2 : DieTemp) : (s.setTemp a1 a2).jrnl = s.jrnl := (rfl)
@[simp] theorem State.setTemp_rdma (s : State) (a1 : Nat) (a2 : DieTemp) : (s.setTemp a1 a2).rdma = s.rdma := (rfl)
@[simp] theorem State.setTemp_med (s : State) (a1 : Nat) (a2 : DieTemp) : (s.setTemp a1 a2).med = s.med := (rfl)
@[simp] theorem State.setTemp_dst (s : State) (a1 : Nat) (a2 : DieTemp) : (s.setTemp a1 a2).dst = s.dst := (rfl)
@[simp] theorem State.setTemp_ftl (s : State) (a1 : Nat) (a2 : DieTemp) : (s.setTemp a1 a2).ftl = s.ftl := (rfl)
@[simp] theorem State.setTemp_par (s : State) (a1 : Nat) (a2 : DieTemp) : (s.setTemp a1 a2).par = s.par := (rfl)
@[simp] theorem State.setTemp_arr (s : State) (a1 : Nat) (a2 : DieTemp) : (s.setTemp a1 a2).arr = s.arr := (rfl)
@[simp] theorem State.setTemp_csa (s : State) (a1 : Nat) (a2 : DieTemp) : (s.setTemp a1 a2).csa = s.csa := (rfl)
@[simp] theorem State.setTemp_keys (s : State) (a1 : Nat) (a2 : DieTemp) : (s.setTemp a1 a2).keys = s.keys := (rfl)
@[simp] theorem State.setTemp_pgt (s : State) (a1 : Nat) (a2 : DieTemp) : (s.setTemp a1 a2).pgt = s.pgt := (rfl)
@[simp] theorem State.setTemp_otp (s : State) (a1 : Nat) (a2 : DieTemp) : (s.setTemp a1 a2).otp = s.otp := (rfl)
@[simp] theorem State.setTemp_boot (s : State) (a1 : Nat) (a2 : DieTemp) : (s.setTemp a1 a2).boot = s.boot := (rfl)
@[simp] theorem State.setTemp_free (s : State) (a1 : Nat) (a2 : DieTemp) : (s.setTemp a1 a2).free = s.free := (rfl)
@[simp] theorem State.setTemp_out (s : State) (a1 : Nat) (a2 : DieTemp) : (s.setTemp a1 a2).out = s.out := (rfl)
@[simp] theorem State.setTemp_pending (s : State) (a1 : Nat) (a2 : DieTemp) : (s.setTemp a1 a2).pending = s.pending := (rfl)

@[simp] theorem State.setDma_variant (s : State) (a1 : Nat) (a2 : Nat) (a3 : List DmaJob) : (s.setDma a1 a2 a3).variant = s.variant := (rfl)
@[simp] theorem State.setDma_side (s : State) (a1 : Nat) (a2 : Nat) (a3 : List DmaJob) : (s.setDma a1 a2 a3).side = s.side := (rfl)
@[simp] theorem State.setDma_regs (s : State) (a1 : Nat) (a2 : Nat) (a3 : List DmaJob) : (s.setDma a1 a2 a3).regs = s.regs := (rfl)
@[simp] theorem State.setDma_wo (s : State) (a1 : Nat) (a2 : Nat) (a3 : List DmaJob) : (s.setDma a1 a2 a3).wo = s.wo := (rfl)
@[simp] theorem State.setDma_active (s : State) (a1 : Nat) (a2 : Nat) (a3 : List DmaJob) : (s.setDma a1 a2 a3).active = s.active := (rfl)
@[simp] theorem State.setDma_shadow (s : State) (a1 : Nat) (a2 : Nat) (a3 : List DmaJob) : (s.setDma a1 a2 a3).shadow = s.shadow := (rfl)
@[simp] theorem State.setDma_copying (s : State) (a1 : Nat) (a2 : Nat) (a3 : List DmaJob) : (s.setDma a1 a2 a3).copying = s.copying := (rfl)
@[simp] theorem State.setDma_heldWrites (s : State) (a1 : Nat) (a2 : Nat) (a3 : List DmaJob) : (s.setDma a1 a2 a3).heldWrites = s.heldWrites := (rfl)
@[simp] theorem State.setDma_mem (s : State) (a1 : Nat) (a2 : Nat) (a3 : List DmaJob) : (s.setDma a1 a2 a3).mem = s.mem := (rfl)
@[simp] theorem State.setDma_pins (s : State) (a1 : Nat) (a2 : Nat) (a3 : List DmaJob) : (s.setDma a1 a2 a3).pins = s.pins := (rfl)
@[simp] theorem State.setDma_ao (s : State) (a1 : Nat) (a2 : Nat) (a3 : List DmaJob) : (s.setDma a1 a2 a3).ao = s.ao := (rfl)
@[simp] theorem State.setDma_time (s : State) (a1 : Nat) (a2 : Nat) (a3 : List DmaJob) : (s.setDma a1 a2 a3).time = s.time := (rfl)
@[simp] theorem State.setDma_nor (s : State) (a1 : Nat) (a2 : Nat) (a3 : List DmaJob) : (s.setDma a1 a2 a3).nor = s.nor := (rfl)
@[simp] theorem State.setDma_thm (s : State) (a1 : Nat) (a2 : Nat) (a3 : List DmaJob) : (s.setDma a1 a2 a3).thm = s.thm := (rfl)
@[simp] theorem State.setDma_nand (s : State) (a1 : Nat) (a2 : Nat) (a3 : List DmaJob) : (s.setDma a1 a2 a3).nand = s.nand := (rfl)
@[simp] theorem State.setDma_host (s : State) (a1 : Nat) (a2 : Nat) (a3 : List DmaJob) : (s.setDma a1 a2 a3).host = s.host := (rfl)
@[simp] theorem State.setDma_pair (s : State) (a1 : Nat) (a2 : Nat) (a3 : List DmaJob) : (s.setDma a1 a2 a3).pair = s.pair := (rfl)
@[simp] theorem State.setDma_jrnl (s : State) (a1 : Nat) (a2 : Nat) (a3 : List DmaJob) : (s.setDma a1 a2 a3).jrnl = s.jrnl := (rfl)
@[simp] theorem State.setDma_rdma (s : State) (a1 : Nat) (a2 : Nat) (a3 : List DmaJob) : (s.setDma a1 a2 a3).rdma = s.rdma := (rfl)
@[simp] theorem State.setDma_med (s : State) (a1 : Nat) (a2 : Nat) (a3 : List DmaJob) : (s.setDma a1 a2 a3).med = s.med := (rfl)
@[simp] theorem State.setDma_dst (s : State) (a1 : Nat) (a2 : Nat) (a3 : List DmaJob) : (s.setDma a1 a2 a3).dst = s.dst := (rfl)
@[simp] theorem State.setDma_ftl (s : State) (a1 : Nat) (a2 : Nat) (a3 : List DmaJob) : (s.setDma a1 a2 a3).ftl = s.ftl := (rfl)
@[simp] theorem State.setDma_par (s : State) (a1 : Nat) (a2 : Nat) (a3 : List DmaJob) : (s.setDma a1 a2 a3).par = s.par := (rfl)
@[simp] theorem State.setDma_arr (s : State) (a1 : Nat) (a2 : Nat) (a3 : List DmaJob) : (s.setDma a1 a2 a3).arr = s.arr := (rfl)
@[simp] theorem State.setDma_csa (s : State) (a1 : Nat) (a2 : Nat) (a3 : List DmaJob) : (s.setDma a1 a2 a3).csa = s.csa := (rfl)
@[simp] theorem State.setDma_keys (s : State) (a1 : Nat) (a2 : Nat) (a3 : List DmaJob) : (s.setDma a1 a2 a3).keys = s.keys := (rfl)
@[simp] theorem State.setDma_pgt (s : State) (a1 : Nat) (a2 : Nat) (a3 : List DmaJob) : (s.setDma a1 a2 a3).pgt = s.pgt := (rfl)
@[simp] theorem State.setDma_otp (s : State) (a1 : Nat) (a2 : Nat) (a3 : List DmaJob) : (s.setDma a1 a2 a3).otp = s.otp := (rfl)
@[simp] theorem State.setDma_boot (s : State) (a1 : Nat) (a2 : Nat) (a3 : List DmaJob) : (s.setDma a1 a2 a3).boot = s.boot := (rfl)
@[simp] theorem State.setDma_free (s : State) (a1 : Nat) (a2 : Nat) (a3 : List DmaJob) : (s.setDma a1 a2 a3).free = s.free := (rfl)
@[simp] theorem State.setDma_out (s : State) (a1 : Nat) (a2 : Nat) (a3 : List DmaJob) : (s.setDma a1 a2 a3).out = s.out := (rfl)
@[simp] theorem State.setDma_pending (s : State) (a1 : Nat) (a2 : Nat) (a3 : List DmaJob) : (s.setDma a1 a2 a3).pending = s.pending := (rfl)

@[simp] theorem State.setDge_variant (s : State) (a1 : Nat) (a2 : Nat) (a3 : DgeSes) : (s.setDge a1 a2 a3).variant = s.variant := (rfl)
@[simp] theorem State.setDge_side (s : State) (a1 : Nat) (a2 : Nat) (a3 : DgeSes) : (s.setDge a1 a2 a3).side = s.side := (rfl)
@[simp] theorem State.setDge_regs (s : State) (a1 : Nat) (a2 : Nat) (a3 : DgeSes) : (s.setDge a1 a2 a3).regs = s.regs := (rfl)
@[simp] theorem State.setDge_wo (s : State) (a1 : Nat) (a2 : Nat) (a3 : DgeSes) : (s.setDge a1 a2 a3).wo = s.wo := (rfl)
@[simp] theorem State.setDge_active (s : State) (a1 : Nat) (a2 : Nat) (a3 : DgeSes) : (s.setDge a1 a2 a3).active = s.active := (rfl)
@[simp] theorem State.setDge_shadow (s : State) (a1 : Nat) (a2 : Nat) (a3 : DgeSes) : (s.setDge a1 a2 a3).shadow = s.shadow := (rfl)
@[simp] theorem State.setDge_copying (s : State) (a1 : Nat) (a2 : Nat) (a3 : DgeSes) : (s.setDge a1 a2 a3).copying = s.copying := (rfl)
@[simp] theorem State.setDge_heldWrites (s : State) (a1 : Nat) (a2 : Nat) (a3 : DgeSes) : (s.setDge a1 a2 a3).heldWrites = s.heldWrites := (rfl)
@[simp] theorem State.setDge_mem (s : State) (a1 : Nat) (a2 : Nat) (a3 : DgeSes) : (s.setDge a1 a2 a3).mem = s.mem := (rfl)
@[simp] theorem State.setDge_pins (s : State) (a1 : Nat) (a2 : Nat) (a3 : DgeSes) : (s.setDge a1 a2 a3).pins = s.pins := (rfl)
@[simp] theorem State.setDge_ao (s : State) (a1 : Nat) (a2 : Nat) (a3 : DgeSes) : (s.setDge a1 a2 a3).ao = s.ao := (rfl)
@[simp] theorem State.setDge_time (s : State) (a1 : Nat) (a2 : Nat) (a3 : DgeSes) : (s.setDge a1 a2 a3).time = s.time := (rfl)
@[simp] theorem State.setDge_nor (s : State) (a1 : Nat) (a2 : Nat) (a3 : DgeSes) : (s.setDge a1 a2 a3).nor = s.nor := (rfl)
@[simp] theorem State.setDge_thm (s : State) (a1 : Nat) (a2 : Nat) (a3 : DgeSes) : (s.setDge a1 a2 a3).thm = s.thm := (rfl)
@[simp] theorem State.setDge_nand (s : State) (a1 : Nat) (a2 : Nat) (a3 : DgeSes) : (s.setDge a1 a2 a3).nand = s.nand := (rfl)
@[simp] theorem State.setDge_hrd (s : State) (a1 : Nat) (a2 : Nat) (a3 : DgeSes) : (s.setDge a1 a2 a3).hrd = s.hrd := (rfl)
@[simp] theorem State.setDge_host (s : State) (a1 : Nat) (a2 : Nat) (a3 : DgeSes) : (s.setDge a1 a2 a3).host = s.host := (rfl)
@[simp] theorem State.setDge_pair (s : State) (a1 : Nat) (a2 : Nat) (a3 : DgeSes) : (s.setDge a1 a2 a3).pair = s.pair := (rfl)
@[simp] theorem State.setDge_jrnl (s : State) (a1 : Nat) (a2 : Nat) (a3 : DgeSes) : (s.setDge a1 a2 a3).jrnl = s.jrnl := (rfl)
@[simp] theorem State.setDge_rdma (s : State) (a1 : Nat) (a2 : Nat) (a3 : DgeSes) : (s.setDge a1 a2 a3).rdma = s.rdma := (rfl)
@[simp] theorem State.setDge_med (s : State) (a1 : Nat) (a2 : Nat) (a3 : DgeSes) : (s.setDge a1 a2 a3).med = s.med := (rfl)
@[simp] theorem State.setDge_dst (s : State) (a1 : Nat) (a2 : Nat) (a3 : DgeSes) : (s.setDge a1 a2 a3).dst = s.dst := (rfl)
@[simp] theorem State.setDge_ftl (s : State) (a1 : Nat) (a2 : Nat) (a3 : DgeSes) : (s.setDge a1 a2 a3).ftl = s.ftl := (rfl)
@[simp] theorem State.setDge_par (s : State) (a1 : Nat) (a2 : Nat) (a3 : DgeSes) : (s.setDge a1 a2 a3).par = s.par := (rfl)
@[simp] theorem State.setDge_arr (s : State) (a1 : Nat) (a2 : Nat) (a3 : DgeSes) : (s.setDge a1 a2 a3).arr = s.arr := (rfl)
@[simp] theorem State.setDge_csa (s : State) (a1 : Nat) (a2 : Nat) (a3 : DgeSes) : (s.setDge a1 a2 a3).csa = s.csa := (rfl)
@[simp] theorem State.setDge_pgt (s : State) (a1 : Nat) (a2 : Nat) (a3 : DgeSes) : (s.setDge a1 a2 a3).pgt = s.pgt := (rfl)
@[simp] theorem State.setDge_otp (s : State) (a1 : Nat) (a2 : Nat) (a3 : DgeSes) : (s.setDge a1 a2 a3).otp = s.otp := (rfl)
@[simp] theorem State.setDge_boot (s : State) (a1 : Nat) (a2 : Nat) (a3 : DgeSes) : (s.setDge a1 a2 a3).boot = s.boot := (rfl)
@[simp] theorem State.setDge_free (s : State) (a1 : Nat) (a2 : Nat) (a3 : DgeSes) : (s.setDge a1 a2 a3).free = s.free := (rfl)
@[simp] theorem State.setDge_out (s : State) (a1 : Nat) (a2 : Nat) (a3 : DgeSes) : (s.setDge a1 a2 a3).out = s.out := (rfl)
@[simp] theorem State.setDge_pending (s : State) (a1 : Nat) (a2 : Nat) (a3 : DgeSes) : (s.setDge a1 a2 a3).pending = s.pending := (rfl)

@[simp] theorem State.stepTime_variant (s : State) (a1 : Int) : (s.stepTime a1).variant = s.variant := (rfl)
@[simp] theorem State.stepTime_side (s : State) (a1 : Int) : (s.stepTime a1).side = s.side := (rfl)
@[simp] theorem State.stepTime_regs (s : State) (a1 : Int) : (s.stepTime a1).regs = s.regs := (rfl)
@[simp] theorem State.stepTime_wo (s : State) (a1 : Int) : (s.stepTime a1).wo = s.wo := (rfl)
@[simp] theorem State.stepTime_active (s : State) (a1 : Int) : (s.stepTime a1).active = s.active := (rfl)
@[simp] theorem State.stepTime_shadow (s : State) (a1 : Int) : (s.stepTime a1).shadow = s.shadow := (rfl)
@[simp] theorem State.stepTime_copying (s : State) (a1 : Int) : (s.stepTime a1).copying = s.copying := (rfl)
@[simp] theorem State.stepTime_heldWrites (s : State) (a1 : Int) : (s.stepTime a1).heldWrites = s.heldWrites := (rfl)
@[simp] theorem State.stepTime_mem (s : State) (a1 : Int) : (s.stepTime a1).mem = s.mem := (rfl)
@[simp] theorem State.stepTime_pins (s : State) (a1 : Int) : (s.stepTime a1).pins = s.pins := (rfl)
@[simp] theorem State.stepTime_nor (s : State) (a1 : Int) : (s.stepTime a1).nor = s.nor := (rfl)
@[simp] theorem State.stepTime_thm (s : State) (a1 : Int) : (s.stepTime a1).thm = s.thm := (rfl)
@[simp] theorem State.stepTime_nand (s : State) (a1 : Int) : (s.stepTime a1).nand = s.nand := (rfl)
@[simp] theorem State.stepTime_hrd (s : State) (a1 : Int) : (s.stepTime a1).hrd = s.hrd := (rfl)
@[simp] theorem State.stepTime_host (s : State) (a1 : Int) : (s.stepTime a1).host = s.host := (rfl)
@[simp] theorem State.stepTime_pair (s : State) (a1 : Int) : (s.stepTime a1).pair = s.pair := (rfl)
@[simp] theorem State.stepTime_jrnl (s : State) (a1 : Int) : (s.stepTime a1).jrnl = s.jrnl := (rfl)
@[simp] theorem State.stepTime_rdma (s : State) (a1 : Int) : (s.stepTime a1).rdma = s.rdma := (rfl)
@[simp] theorem State.stepTime_med (s : State) (a1 : Int) : (s.stepTime a1).med = s.med := (rfl)
@[simp] theorem State.stepTime_dst (s : State) (a1 : Int) : (s.stepTime a1).dst = s.dst := (rfl)
@[simp] theorem State.stepTime_ftl (s : State) (a1 : Int) : (s.stepTime a1).ftl = s.ftl := (rfl)
@[simp] theorem State.stepTime_par (s : State) (a1 : Int) : (s.stepTime a1).par = s.par := (rfl)
@[simp] theorem State.stepTime_arr (s : State) (a1 : Int) : (s.stepTime a1).arr = s.arr := (rfl)
@[simp] theorem State.stepTime_csa (s : State) (a1 : Int) : (s.stepTime a1).csa = s.csa := (rfl)
@[simp] theorem State.stepTime_keys (s : State) (a1 : Int) : (s.stepTime a1).keys = s.keys := (rfl)
@[simp] theorem State.stepTime_pgt (s : State) (a1 : Int) : (s.stepTime a1).pgt = s.pgt := (rfl)
@[simp] theorem State.stepTime_otp (s : State) (a1 : Int) : (s.stepTime a1).otp = s.otp := (rfl)
@[simp] theorem State.stepTime_boot (s : State) (a1 : Int) : (s.stepTime a1).boot = s.boot := (rfl)
@[simp] theorem State.stepTime_free (s : State) (a1 : Int) : (s.stepTime a1).free = s.free := (rfl)
@[simp] theorem State.stepTime_out (s : State) (a1 : Int) : (s.stepTime a1).out = s.out := (rfl)
@[simp] theorem State.stepTime_pending (s : State) (a1 : Int) : (s.stepTime a1).pending = s.pending := (rfl)

@[simp] theorem State.freezeEvr_variant (s : State) : (s.freezeEvr).variant = s.variant := (rfl)
@[simp] theorem State.freezeEvr_side (s : State) : (s.freezeEvr).side = s.side := (rfl)
@[simp] theorem State.freezeEvr_regs (s : State) : (s.freezeEvr).regs = s.regs := (rfl)
@[simp] theorem State.freezeEvr_wo (s : State) : (s.freezeEvr).wo = s.wo := (rfl)
@[simp] theorem State.freezeEvr_active (s : State) : (s.freezeEvr).active = s.active := (rfl)
@[simp] theorem State.freezeEvr_shadow (s : State) : (s.freezeEvr).shadow = s.shadow := (rfl)
@[simp] theorem State.freezeEvr_copying (s : State) : (s.freezeEvr).copying = s.copying := (rfl)
@[simp] theorem State.freezeEvr_heldWrites (s : State) : (s.freezeEvr).heldWrites = s.heldWrites := (rfl)
@[simp] theorem State.freezeEvr_mem (s : State) : (s.freezeEvr).mem = s.mem := (rfl)
@[simp] theorem State.freezeEvr_pins (s : State) : (s.freezeEvr).pins = s.pins := (rfl)
@[simp] theorem State.freezeEvr_ao (s : State) : (s.freezeEvr).ao = s.ao := (rfl)
@[simp] theorem State.freezeEvr_time (s : State) : (s.freezeEvr).time = s.time := (rfl)
@[simp] theorem State.freezeEvr_nor (s : State) : (s.freezeEvr).nor = s.nor := (rfl)
@[simp] theorem State.freezeEvr_nand (s : State) : (s.freezeEvr).nand = s.nand := (rfl)
@[simp] theorem State.freezeEvr_hrd (s : State) : (s.freezeEvr).hrd = s.hrd := (rfl)
@[simp] theorem State.freezeEvr_host (s : State) : (s.freezeEvr).host = s.host := (rfl)
@[simp] theorem State.freezeEvr_pair (s : State) : (s.freezeEvr).pair = s.pair := (rfl)
@[simp] theorem State.freezeEvr_jrnl (s : State) : (s.freezeEvr).jrnl = s.jrnl := (rfl)
@[simp] theorem State.freezeEvr_rdma (s : State) : (s.freezeEvr).rdma = s.rdma := (rfl)
@[simp] theorem State.freezeEvr_med (s : State) : (s.freezeEvr).med = s.med := (rfl)
@[simp] theorem State.freezeEvr_dst (s : State) : (s.freezeEvr).dst = s.dst := (rfl)
@[simp] theorem State.freezeEvr_ftl (s : State) : (s.freezeEvr).ftl = s.ftl := (rfl)
@[simp] theorem State.freezeEvr_par (s : State) : (s.freezeEvr).par = s.par := (rfl)
@[simp] theorem State.freezeEvr_arr (s : State) : (s.freezeEvr).arr = s.arr := (rfl)
@[simp] theorem State.freezeEvr_csa (s : State) : (s.freezeEvr).csa = s.csa := (rfl)
@[simp] theorem State.freezeEvr_keys (s : State) : (s.freezeEvr).keys = s.keys := (rfl)
@[simp] theorem State.freezeEvr_pgt (s : State) : (s.freezeEvr).pgt = s.pgt := (rfl)
@[simp] theorem State.freezeEvr_otp (s : State) : (s.freezeEvr).otp = s.otp := (rfl)
@[simp] theorem State.freezeEvr_boot (s : State) : (s.freezeEvr).boot = s.boot := (rfl)
@[simp] theorem State.freezeEvr_free (s : State) : (s.freezeEvr).free = s.free := (rfl)
@[simp] theorem State.freezeEvr_out (s : State) : (s.freezeEvr).out = s.out := (rfl)
@[simp] theorem State.freezeEvr_pending (s : State) : (s.freezeEvr).pending = s.pending := (rfl)

/-- What the event recorder changes (R651 to R653): its registers and its area of NOR, what it holds in the always-on island, and the
count of free values. -/
def EventOnly (s t : State) : Prop :=
  ∃ r e q h l n, t = { s with regs := r, nor := { s.nor with events := e, evSeq := q },
                              ao := { s.ao with heldEvents := h, lostSince := l }, free := n }

theorem EventOnly.trans {s t u : State} (h : EventOnly s t) (k : EventOnly t u) : EventOnly s u := by
  obtain ⟨_, _, _, _, _, _, rfl⟩ := h
  obtain ⟨_, _, _, _, _, _, rfl⟩ := k
  exact ⟨_, _, _, _, _, _, rfl⟩

theorem State.writeEvent_eventOnly (s : State) (r : EventRec) : EventOnly s (s.writeEvent r) := by
  unfold State.writeEvent
  split
  · exact ⟨_, _, _, _, _, _, rfl⟩
  · extract_lets t; split
    · exact EventOnly.trans (t := t) ⟨_, _, _, _, _, _, rfl⟩ ⟨_, _, _, _, _, _, rfl⟩
    · exact ⟨_, _, _, _, _, _, rfl⟩

theorem State.record_eventOnly (s : State) (r : EventRec) : EventOnly s (s.record r) := by
  unfold State.record
  split
  · split <;> exact ⟨_, _, _, _, _, _, rfl⟩
  · exact s.writeEvent_eventOnly r

theorem State.event_eventOnly (s : State) (die blk row inst : Nat) : EventOnly s (s.event die blk row inst) :=
  EventOnly.trans (t := { s with free := s.free + 1 }) ⟨_, _, _, _, _, _, rfl⟩ (State.record_eventOnly _ _)

theorem State.mfwEvent_eventOnly (s : State) (code : Nat) (data : Bytes) : EventOnly s (s.mfwEvent code data) :=
  EventOnly.trans (t := { s with free := s.free + 1 }) ⟨_, _, _, _, _, _, rfl⟩ (State.record_eventOnly _ _)

/-- A field that the event recorder leaves alone. -/
theorem EventOnly.same {α : Type} (g : State → α)
    (hg : ∀ (s : State) r e q h l n, 
      g { s with regs := r, nor := { s.nor with events := e, evSeq := q }, ao := { s.ao with heldEvents := h, lostSince := l }, free := n } = g s) {s t : State} (k : EventOnly s t) : g t = g s := by
  obtain ⟨r, e, q, h, l, n, rfl⟩ := k
  exact hg s r e q h l n

@[simp] theorem State.event_variant (s : State) (a1 a2 a3 a4 : Nat) : (s.event a1 a2 a3 a4).variant = s.variant := EventOnly.same State.variant (fun _ _ _ _ _ _ _ => rfl) (s.event_eventOnly a1 a2 a3 a4)
@[simp] theorem State.event_side (s : State) (a1 a2 a3 a4 : Nat) : (s.event a1 a2 a3 a4).side = s.side := EventOnly.same State.side (fun _ _ _ _ _ _ _ => rfl) (s.event_eventOnly a1 a2 a3 a4)
@[simp] theorem State.event_wo (s : State) (a1 a2 a3 a4 : Nat) : (s.event a1 a2 a3 a4).wo = s.wo := EventOnly.same State.wo (fun _ _ _ _ _ _ _ => rfl) (s.event_eventOnly a1 a2 a3 a4)
@[simp] theorem State.event_active (s : State) (a1 a2 a3 a4 : Nat) : (s.event a1 a2 a3 a4).active = s.active := EventOnly.same State.active (fun _ _ _ _ _ _ _ => rfl) (s.event_eventOnly a1 a2 a3 a4)
@[simp] theorem State.event_shadow (s : State) (a1 a2 a3 a4 : Nat) : (s.event a1 a2 a3 a4).shadow = s.shadow := EventOnly.same State.shadow (fun _ _ _ _ _ _ _ => rfl) (s.event_eventOnly a1 a2 a3 a4)
@[simp] theorem State.event_copying (s : State) (a1 a2 a3 a4 : Nat) : (s.event a1 a2 a3 a4).copying = s.copying := EventOnly.same State.copying (fun _ _ _ _ _ _ _ => rfl) (s.event_eventOnly a1 a2 a3 a4)
@[simp] theorem State.event_heldWrites (s : State) (a1 a2 a3 a4 : Nat) : (s.event a1 a2 a3 a4).heldWrites = s.heldWrites := EventOnly.same State.heldWrites (fun _ _ _ _ _ _ _ => rfl) (s.event_eventOnly a1 a2 a3 a4)
@[simp] theorem State.event_mem (s : State) (a1 a2 a3 a4 : Nat) : (s.event a1 a2 a3 a4).mem = s.mem := EventOnly.same State.mem (fun _ _ _ _ _ _ _ => rfl) (s.event_eventOnly a1 a2 a3 a4)
@[simp] theorem State.event_pins (s : State) (a1 a2 a3 a4 : Nat) : (s.event a1 a2 a3 a4).pins = s.pins := EventOnly.same State.pins (fun _ _ _ _ _ _ _ => rfl) (s.event_eventOnly a1 a2 a3 a4)
@[simp] theorem State.event_time (s : State) (a1 a2 a3 a4 : Nat) : (s.event a1 a2 a3 a4).time = s.time := EventOnly.same State.time (fun _ _ _ _ _ _ _ => rfl) (s.event_eventOnly a1 a2 a3 a4)
@[simp] theorem State.event_thm (s : State) (a1 a2 a3 a4 : Nat) : (s.event a1 a2 a3 a4).thm = s.thm := EventOnly.same State.thm (fun _ _ _ _ _ _ _ => rfl) (s.event_eventOnly a1 a2 a3 a4)
@[simp] theorem State.event_nand (s : State) (a1 a2 a3 a4 : Nat) : (s.event a1 a2 a3 a4).nand = s.nand := EventOnly.same State.nand (fun _ _ _ _ _ _ _ => rfl) (s.event_eventOnly a1 a2 a3 a4)
@[simp] theorem State.event_hrd (s : State) (a1 a2 a3 a4 : Nat) : (s.event a1 a2 a3 a4).hrd = s.hrd := EventOnly.same State.hrd (fun _ _ _ _ _ _ _ => rfl) (s.event_eventOnly a1 a2 a3 a4)
@[simp] theorem State.event_host (s : State) (a1 a2 a3 a4 : Nat) : (s.event a1 a2 a3 a4).host = s.host := EventOnly.same State.host (fun _ _ _ _ _ _ _ => rfl) (s.event_eventOnly a1 a2 a3 a4)
@[simp] theorem State.event_pair (s : State) (a1 a2 a3 a4 : Nat) : (s.event a1 a2 a3 a4).pair = s.pair := EventOnly.same State.pair (fun _ _ _ _ _ _ _ => rfl) (s.event_eventOnly a1 a2 a3 a4)
@[simp] theorem State.event_jrnl (s : State) (a1 a2 a3 a4 : Nat) : (s.event a1 a2 a3 a4).jrnl = s.jrnl := EventOnly.same State.jrnl (fun _ _ _ _ _ _ _ => rfl) (s.event_eventOnly a1 a2 a3 a4)
@[simp] theorem State.event_rdma (s : State) (a1 a2 a3 a4 : Nat) : (s.event a1 a2 a3 a4).rdma = s.rdma := EventOnly.same State.rdma (fun _ _ _ _ _ _ _ => rfl) (s.event_eventOnly a1 a2 a3 a4)
@[simp] theorem State.event_med (s : State) (a1 a2 a3 a4 : Nat) : (s.event a1 a2 a3 a4).med = s.med := EventOnly.same State.med (fun _ _ _ _ _ _ _ => rfl) (s.event_eventOnly a1 a2 a3 a4)
@[simp] theorem State.event_dst (s : State) (a1 a2 a3 a4 : Nat) : (s.event a1 a2 a3 a4).dst = s.dst := EventOnly.same State.dst (fun _ _ _ _ _ _ _ => rfl) (s.event_eventOnly a1 a2 a3 a4)
@[simp] theorem State.event_ftl (s : State) (a1 a2 a3 a4 : Nat) : (s.event a1 a2 a3 a4).ftl = s.ftl := EventOnly.same State.ftl (fun _ _ _ _ _ _ _ => rfl) (s.event_eventOnly a1 a2 a3 a4)
@[simp] theorem State.event_par (s : State) (a1 a2 a3 a4 : Nat) : (s.event a1 a2 a3 a4).par = s.par := EventOnly.same State.par (fun _ _ _ _ _ _ _ => rfl) (s.event_eventOnly a1 a2 a3 a4)
@[simp] theorem State.event_arr (s : State) (a1 a2 a3 a4 : Nat) : (s.event a1 a2 a3 a4).arr = s.arr := EventOnly.same State.arr (fun _ _ _ _ _ _ _ => rfl) (s.event_eventOnly a1 a2 a3 a4)
@[simp] theorem State.event_csa (s : State) (a1 a2 a3 a4 : Nat) : (s.event a1 a2 a3 a4).csa = s.csa := EventOnly.same State.csa (fun _ _ _ _ _ _ _ => rfl) (s.event_eventOnly a1 a2 a3 a4)
@[simp] theorem State.event_keys (s : State) (a1 a2 a3 a4 : Nat) : (s.event a1 a2 a3 a4).keys = s.keys := EventOnly.same State.keys (fun _ _ _ _ _ _ _ => rfl) (s.event_eventOnly a1 a2 a3 a4)
@[simp] theorem State.event_pgt (s : State) (a1 a2 a3 a4 : Nat) : (s.event a1 a2 a3 a4).pgt = s.pgt := EventOnly.same State.pgt (fun _ _ _ _ _ _ _ => rfl) (s.event_eventOnly a1 a2 a3 a4)
@[simp] theorem State.event_otp (s : State) (a1 a2 a3 a4 : Nat) : (s.event a1 a2 a3 a4).otp = s.otp := EventOnly.same State.otp (fun _ _ _ _ _ _ _ => rfl) (s.event_eventOnly a1 a2 a3 a4)
@[simp] theorem State.event_boot (s : State) (a1 a2 a3 a4 : Nat) : (s.event a1 a2 a3 a4).boot = s.boot := EventOnly.same State.boot (fun _ _ _ _ _ _ _ => rfl) (s.event_eventOnly a1 a2 a3 a4)
@[simp] theorem State.event_out (s : State) (a1 a2 a3 a4 : Nat) : (s.event a1 a2 a3 a4).out = s.out := EventOnly.same State.out (fun _ _ _ _ _ _ _ => rfl) (s.event_eventOnly a1 a2 a3 a4)
@[simp] theorem State.event_pending (s : State) (a1 a2 a3 a4 : Nat) : (s.event a1 a2 a3 a4).pending = s.pending := EventOnly.same State.pending (fun _ _ _ _ _ _ _ => rfl) (s.event_eventOnly a1 a2 a3 a4)

end Sys2Proof.Machine
end

