-- ==== Sys2Proof/Laws/Send.lean ====
section
/-! SUPPORT. What sending changes: a message on the Chamois link, a packet on a front port. -/

namespace Sys2Proof.Machine

open Sys2Proof

/-- What sending on the Chamois link changes (R117 to R126): the groups and what has left the head. -/
def LinkOnly (s t : State) : Prop := ∃ g o, t = { s with pair := { s.pair with groups := g }, out := o }

theorem LinkOnly.refl (s : State) : LinkOnly s s := ⟨_, _, rfl⟩

theorem LinkOnly.trans {s t u : State} (h : LinkOnly s t) (k : LinkOnly t u) : LinkOnly s u := by
  obtain ⟨_, _, rfl⟩ := h
  obtain ⟨_, _, rfl⟩ := k
  exact ⟨_, _, rfl⟩

theorem State.setGroup_linkOnly (s : State) (g : Nat) (x : Group) : LinkOnly s (s.setGroup g x) := ⟨_, _, rfl⟩
theorem State.emit_linkOnly (s : State) (o : Out) : LinkOnly s (s.emit o) := ⟨_, _, rfl⟩

theorem State.emitMsg_linkOnly (s : State) (g : Nat) (t : TxMsg) : LinkOnly s (s.emitMsg g t) := by
  unfold State.emitMsg
  extract_lets
  exact (s.setGroup_linkOnly _ _).trans (State.emit_linkOnly _ _)

theorem State.transmit_linkOnly (s : State) (g : Nat) (t : TxMsg) : LinkOnly s (s.transmit g t) := by
  unfold State.transmit
  extract_lets
  exact (s.setGroup_linkOnly _ _).trans (State.emitMsg_linkOnly _ _ _)

theorem State.drainGroup_linkOnly (s : State) (g fuel : Nat) : LinkOnly s (s.drainGroup g fuel) := by
  induction fuel generalizing s with
  | zero => exact .refl s
  | succ fuel ih =>
    unfold State.drainGroup
    extract_lets x head ready go
    have hg : ∀ vl turn, LinkOnly s (go s vl turn) := fun vl turn => by
      simp only [go]
      split
      · exact ((s.setGroup_linkOnly _ _).trans (State.transmit_linkOnly _ _ _)).trans (ih _)
      · exact .refl s
    split
    · exact .refl s
    · split
      · exact hg _ _
      · split
        · exact hg _ _
        · split
          · exact hg _ _
          · exact .refl s

theorem State.sendOn_linkOnly (s : State) (g vl cls tag : Nat) (m : ChlMsg) : LinkOnly s (s.sendOn g vl cls tag m) := by
  unfold State.sendOn
  extract_lets
  exact (s.setGroup_linkOnly _ _).trans (State.drainGroup_linkOnly _ _ _)

theorem State.send_linkOnly (s : State) (vl cls tag : Nat) (m : ChlMsg) : LinkOnly s (s.send vl cls tag m) := by
  unfold State.send
  split
  · exact s.sendOn_linkOnly _ _ _ _ _
  · exact .refl s

theorem State.controlFrame_linkOnly (s : State) (g ty : Nat) (o : Bytes → Out) : LinkOnly s (s.controlFrame g ty o) := by
  unfold State.controlFrame
  extract_lets
  exact (s.setGroup_linkOnly _ _).trans (State.emit_linkOnly _ _)

theorem State.sendChlNak_linkOnly (s : State) (g : Nat) : LinkOnly s (s.sendChlNak g) := by
  unfold State.sendChlNak
  extract_lets
  exact (s.setGroup_linkOnly _ _).trans (State.controlFrame_linkOnly _ _ _ _)

/-- What sending packets on the front ports changes (R424, R439, R449): the queue pairs, the ports and what has left the head. -/
def FrontOnly (s t : State) : Prop := ∃ q p o, t = { s with rdma := { s.rdma with qps := q, ports := p }, out := o }

theorem FrontOnly.refl (s : State) : FrontOnly s s := ⟨_, _, _, rfl⟩

theorem FrontOnly.trans {s t u : State} (h : FrontOnly s t) (k : FrontOnly t u) : FrontOnly s u := by
  obtain ⟨_, _, _, rfl⟩ := h
  obtain ⟨_, _, _, rfl⟩ := k
  exact ⟨_, _, _, rfl⟩

theorem State.setQp_frontOnly (s : State) (n : Nat) (q : Qp) : FrontOnly s (s.setQp n q) := ⟨_, _, _, rfl⟩
theorem State.setFport_frontOnly (s : State) (p : Nat) (x : Port) : FrontOnly s (s.setFport p x) := ⟨_, _, _, rfl⟩
theorem State.emit_frontOnly (s : State) (o : Out) : FrontOnly s (s.emit o) := ⟨_, _, _, rfl⟩

theorem State.startTx_frontOnly (s : State) (p : Nat) : FrontOnly s (s.startTx p) := by
  unfold State.startTx
  extract_lets x c o st can
  split
  · exact .refl s
  · split
    · exact s.setFport_frontOnly _ _
    · split
      · exact s.setFport_frontOnly _ _
      · split
        · exact s.setFport_frontOnly _ _
        · exact .refl s

theorem State.queueFrame_frontOnly (s : State) (p : Nat) (f : TxFrame) : FrontOnly s (s.queueFrame p f) := by
  unfold State.queueFrame
  extract_lets
  exact (s.setFport_frontOnly _ _).trans (State.startTx_frontOnly _ _)

theorem State.sendPkt_frontOnly (s : State) (n : Nat) (q : Qp) (x : SentPkt) : FrontOnly s (s.sendPkt n q x) := by
  unfold State.sendPkt
  extract_lets
  exact (s.queueFrame_frontOnly _ _).trans (State.emit_frontOnly _ _)

theorem State.sendBare_frontOnly (s : State) (q : Qp) (ext len : Nat) (o : Out) : FrontOnly s (s.sendBare q ext len o) :=
  (s.queueFrame_frontOnly _ _).trans (State.emit_frontOnly _ _)

theorem State.sendAck_frontOnly (s : State) (n : Nat) (q : Qp) (psn : Nat) : FrontOnly s (s.sendAck n q psn) := by
  unfold State.sendAck
  extract_lets
  exact (s.setQp_frontOnly _ _).trans (State.sendBare_frontOnly _ _ _ _ _)

theorem State.sendAt_frontOnly (s : State) (n : Nat) (q : Qp) (psn k : Nat) (x : SentKind) : FrontOnly s (s.sendAt n q psn k x) := by
  unfold State.sendAt
  extract_lets
  exact (s.setQp_frontOnly _ _).trans (State.sendPkt_frontOnly _ _ _ _)

theorem State.sendQp_frontOnly (s : State) (n k : Nat) (x : SentKind) : FrontOnly s (s.sendQp n k x) := by
  unfold State.sendQp
  split
  · exact .refl s
  · split
    · exact .refl s
    · exact s.sendAt_frontOnly _ _ _ _ _

theorem State.sendPhase_frontOnly (s : State) (tag : Nat) (ph : Phase) (i n k : Nat) (x : SentKind) :
    FrontOnly s (s.sendPhase tag ph i n k x) := by
  unfold State.sendPhase
  split
  · exact .refl s
  · split
    · extract_lets
      split
      · exact .refl s
      · exact s.sendAt_frontOnly _ _ _ _ _
    · split
      · exact .refl s
      · exact s.sendQp_frontOnly _ _ _

theorem State.phaseSent_frontOnly (s : State) (n tag : Nat) (ph : Phase) : FrontOnly s (s.phaseSent n tag ph) := by
  unfold State.phaseSent
  split
  · split
    · exact s.setQp_frontOnly _ _
    · exact .refl s
  · exact .refl s

end Sys2Proof.Machine
end

