-- ==== Sys2Proof/WellFormed.lean ====
section
/-! DEFINITION. Commands whose operands the fields that carry them can hold: indices of register arrays, tables and descriptors. Meanings do
not ask for it: a command that is not well formed has the effect its operands give it, which is mostly none. -/

namespace Sys2Proof

open Machine

/-- A tile, and a cluster of it (R15). -/
def tileOk (tile : Nat) : Bool := decide (tile < 8)
def clusterOk (tile cluster : Nat) : Bool := tileOk tile && decide (cluster < 4)

/-- A digest engine's die is the B-die or a tile, and it has 4 sessions (R527). -/
def sessionOk (die ses : Nat) : Bool := (die == 0 || decide (16 ≤ die) && decide (die < 24)) && decide (ses < 4)

/-- A partition of one of the two S-dies: table 0 has 16 entries (R498). -/
def partOk (d part : Nat) : Bool := decide (d < 2) && decide (part < 16)

/-- A DMA descriptor's fields (R573). -/
def descOk (d : DmaDesc) : Bool :=
  tileOk d.tile && decide (d.chan < 8) && decide (d.cls < 8) && decide (d.tapid < 2 ^ 16) && decide (d.len < 2 ^ 32) && decide (d.src < 2 ^ 64) &&
    decide (d.dst < 2 ^ 64) && decide (d.ring < 2 ^ 16) && decide (d.member < 256) && decide (d.tag < 2 ^ 64)

/-- The operands fit the fields that carry them. Commands not listed have no operand with such a field. -/
def Instr.wellFormed : Instr → Bool
  | .csaSearch d part _ | .csaFloor d part _ | .respreadDone d part => partOk d part
  | .csaWrite d part rank addr => partOk d part && decide (rank < 16) && decide (addr < 2 ^ 21)
  | .csaInvalidate d part addr | .csaRead d part addr _ => partOk d part && decide (addr < 2 ^ 21)
  | .insertRing _ d part key ref => partOk d part && decide (key < 2 ^ 160) && decide (ref < 2 ^ 64)
  | .deleteMatch _ d part key => partOk d part && decide (key < 2 ^ 160)
  | .invalidateMasked _ d part domain => partOk d part && decide (domain < 4096)
  | .ordInsert _ d part val _ | .ordDelete _ d part val => partOk d part && decide (val < 2 ^ 320)
  | .dgeStart die ses | .dgeData die ses _ | .dgeLast die ses _ | .dgeFeed die ses | .dgeFeedDone die ses | .dgeFinish die ses | .dgeAbort die ses
  | .dgeDisarm die ses | .dgeSaveClear die ses | .dgeSaveWrapped die ses | .dgeRestore die ses _ | .dgeResult die ses => sessionOk die ses
  | .dgeArm die ses tap tapid => sessionOk die ses && decide (tap < 2) && decide (tapid < 2 ^ 16)
  | .dgeTapTransfer die tap tapid _ _ => sessionOk die 0 && decide (tap < 2) && decide (tapid < 2 ^ 16)
  | .dgeSlotLoadClear die slot alg len | .dgeSlotLoadWrapped die slot alg len =>
    sessionOk die 0 && decide (slot < 16) && decide (alg < 16) && decide (len < 256)
  | .dgeSlotLoadDerived die slot alg label => sessionOk die 0 && decide (slot < 16) && decide (alg < 16) && decide (label < 2 ^ 16)
  | .dgeSlotClear die slot => sessionOk die 0 && decide (slot < 16)
  | .channelFreezeRequest tile m _ => tileOk tile && decide (m < 4)
  | .channelFrozen tile mid chan | .thawResume tile mid chan | .thawAbort tile mid chan => tileOk tile && decide (mid < 16) && decide (chan < 16)
  | .winFaultRead _ tile | .cmtClean tile | .cmtInvalidate tile | .cmtCleanInv tile | .cmtDone tile | .captureStart tile _ | .captureStop tile _ =>
    tileOk tile
  | .captureSnap tile addr pages => tileOk tile && decide (addr < 2 ^ 48) && decide (pages < 2 ^ 16)
  | .ringConsume tile cluster core r cons => clusterOk tile cluster && decide (core < 8) && decide (r < 4096) && decide (cons < 2 ^ 20)
  | .ringPost tile cluster core r _ => clusterOk tile cluster && decide (core < 8) && decide (r < 4096)
  | .tick tile cluster | .watchdogArm tile cluster _ | .watchdogKick tile cluster _ | .watchdogExpiry tile cluster => clusterOk tile cluster
  | .dmaCopy d | .dmaFill d | .dmaReadPage d _ | .dmaReadPack d _ _ => descOk d
  | .dmaDone tile chan => tileOk tile && decide (chan < 8)
  | .mailboxSend m len target => decide (m < 16) && decide (len < 2 ^ 13) && decide (target < 32)
  | .handoff m target | .roleReq m target | .mailboxNotice m target | .activateMessage m target => decide (m < 16) && decide (target < 32)
  | .roleDone m | .opkeys m | .awk m | .eventMessage m => decide (m < 16)
  | _ => true

end Sys2Proof
end

