-- ==== Sys2Proof/Tests/Slice0.lean ====
section
/-! SUPPORT. Tests: for every statement with hypotheses, states and operands that meet them; and results that the manual fixes,
worked out by hand from its rules. -/

set_option Elab.async false

namespace Sys2Proof.Tests

open Sys2Proof Sys2Proof.Machine

/-! ## The machine as a whole -/

/-- Hypotheses of IdleStepCountsTimeBase, with a correction due and without one. -/
theorem test_idle_hypotheses : State.reset.pending = [] ∧ State.reset.time.corr = 0 ∧
    ({ State.reset with time := { State.reset.time with corr := 1000 } }).time.corr ≠ 0 := by decide

/-- Hypotheses of EveryStepKeepsInv and OtpOnlyGrows: a step of the state after reset, and of a locked OTP. -/
theorem test_inv_hypotheses : State.reset.Inv ∧ (∃ t, step State.reset = .next t) ∧
    ∃ t, exec .timeMessage { State.reset with otp := { Otp.blank with instLock := true } } = .next t :=
  ⟨⟨by decide, by decide, by decide⟩, ⟨_, rfl⟩, ⟨_, rfl⟩⟩

/-- A commit of nothing: the first tick after reset counts 1. -/
theorem test_first_tick : (match step State.reset with | .next t => t.ao.tb | _ => 0) = 1 := by decide

/-! ## Registers, locks and shadowed tables -/

/-- CSR address (R31). -/
def csr (die blk off : Nat) : Nat := die * 2 ^ 32 + blk * 2 ^ 24 + off

/-- Where an address decodes to. -/
def decoded (s : State) (addr : Nat) : Option (Nat × Nat × Nat) := (s.decodeCsr addr 8).map fun x => (x.1, x.2.1, x.2.2.1)

/-- The state that a command answers. -/
def after (c : Instr) (s : State) : State := match exec c s with | .next t => t | _ => s

/-- Hypotheses of the statements about register accesses: TBS_CTRL, PWR_CTRL with LOCK, EVR_LOST. -/
theorem test_register_hypotheses :
    State.reset.Ordered ∧ decoded State.reset (csr 0 0x08 0x10) = some (0, 0x08, 0x10) ∧ State.reset.windowKey 0 0x08 0x10 = none ∧
    guardedReg 0x08 0x10 = false ∧ decoded State.reset (csr 0 0x05 0x0) = some (0, 0x05, 0x0) ∧ guardedReg 0x05 0 = false ∧
    State.reset.windowKey 0 0x05 0x0 = none ∧ (∃ l ∈ blockLocks 0x05, l.off = 0x0) ∧
    decoded State.reset (csr 0 0x03 0x8) = some (0, 0x03, 0x8) := by decide +kernel

/-- R33: an unpopulated die, an access of 4 bytes, an address off alignment; and a herd core without a window. -/
theorem test_undecoded_hypotheses :
    State.reset.decodeCsr (csr 3 0x08 0x8) 8 = none ∧ State.reset.decodeCsr (csr 0 0x08 0x8) 4 = none ∧
    State.reset.decodeCsr (csr 0 0x08 0xC) 8 = none ∧ State.reset.windowFault 0 0 (csrBase + csr 0 0x08 0x8) .write = some 1 := by
  decide +kernel

/-- Hypotheses of the guarded writes: an armed watchdog, a MAC_BUF that leaves 447 KiB, a full mailbox 15, no gear table. -/
theorem test_guarded_hypotheses :
    decoded State.reset (csr 16 0x38 0x28) = some (16, 0x38, 0x28) ∧
    bitsAt ((State.reset.setReg 16 0x38 0x28 1).reg 16 0x38 0x28) 0 1 = 1 ∧ (State.reset.setReg 16 0x38 0x28 1).Ordered ∧
    decoded State.reset (csr 1 0x10 0x3020) = some (1, 0x10, 0x3020) ∧ State.reset.windowKey 1 0x10 0x3020 = none ∧
    lossyKib (BitVec.ofNat 64 (2049 + 1536 * 65536)) = 447 ∧
    decoded State.reset (csr 0 0x07 0x1F000) = some (0, 0x07, 0x1F000) ∧
    (State.reset.setFlag 0 (Reg.MPX_MB_FULL.plus (15 * 8)) true).flag 0 (Reg.MPX_MB_FULL.plus (15 * 8)) = true ∧
    decoded State.reset (csr 23 0x30 0x0) = some (23, 0x30, 0x0) ∧ State.reset.flag 23 Reg.CDC_STATUS_GEAR_SET = false := by
  decide +kernel

/-- Hypotheses of the statements about tables: block NVF of F-die 1, free and busy, and a copy under way. -/
theorem test_table_hypotheses :
    decoded State.reset (csr 1 0x13 0x108) = some (1, 0x13, 0x108) ∧ (State.reset.windowKey 1 0x13 0x108).isSome = true ∧
    (blockTables 0x13).isEmpty = false ∧ State.reset.variant.populated 1 = true ∧ blockOn 1 0x13 = true ∧
    State.reset.flag 1 (tcBusy 0x13) = false ∧ bitsAt (0x10001 : Word) 3 1 = 0 ∧ bitsAt (0x9 : Word) 3 1 = 1 ∧
    (State.reset.setFlag 1 (tcBusy 0x13) true).flag 1 (tcBusy 0x13) = true ∧
    ({ State.reset with copying := [(copyKey 1 0x13, 1)] }).copying.find? (copyKey 1 0x13) = some 1 := by decide +kernel

/-- R26: GEN wraps from 0xFFFF to 0. -/
theorem test_commit_wraps_gen :
    (after (.tableCommit 1 0x13 0x10001) (State.reset.setFld 1 (tcGen 0x13) 0xFFFF)).fld 1 (tcGen 0x13) = 0 := by decide +kernel

/-- R44: TBS_CTRL resets to PTP_EN, PPS_EN, PARTNER_EN and SLEW_PPM 0x64; a write of all ones leaves its reserved bits 0. -/
theorem test_write_reserved : (after (.registerWrite .mp (csr 0 0x08 0x8) 8 (BitVec.allOnes 64) 0) State.reset).reg 0 0x08 0x8 = 0xFF0F := by
  decide +kernel

/-! ## The time base -/

/-- A state with another discipline. -/
def withTime (f : TimeUnit → TimeUnit) : State := { State.reset with time := f State.reset.time }

/-- A state with another pair unit. -/
def withPair (f : PairU → PairU) : State := { State.reset with pair := f State.reset.pair }

/-- Hypotheses of TimeCommandsFollowTheirRules, clause by clause. -/
theorem test_time_hypotheses :
    State.reset.flag dieB Reg.TBS_CTRL_PTP_EN = true ∧
    (withTime fun t => { t with reqSent := some 40, lastSync := some (10, 30) }).time.lastSync = some (10, 30) ∧
    State.reset.time.meanDelay = none ∧
    (State.reset.setFlag dieB Reg.TBS_CTRL_PPS_OUT_EN true).flag dieB Reg.TBS_CTRL_PPS_OUT_EN = true ∧ State.reset.ao.tb % 1000000000 = 0 ∧
    State.reset.time.gm = none ∧ (withTime fun t => { t with gm := some ({ prio1 := 1, cls := 2, accuracy := 3, variance := 4, prio2 := 5, id := 6 }, 0) }).time.gm.isSome = true ∧
    PtpDs.better ({ prio1 := 0, cls := 9, accuracy := 9, variance := 9, prio2 := 9, id := 7 }, 3)
      ({ prio1 := 1, cls := 2, accuracy := 3, variance := 4, prio2 := 5, id := 6 }, 0) = true ∧
    (withPair fun p => { p with head := .twin, partner := some .twin }).pair.partner = some .twin ∧
    1000000 ≤ ({ withPair fun p => { p with head := .twin, partner := some .twin } with ao := { Ao.reset with tb := 1000000 } } : State).since 0 := by
  decide +kernel

/-- Hypotheses of FirstSampleStepsTheTimeBase: both sources, and edges 1 ns outside 999 ms and 1,001 ms. -/
theorem test_first_sample_hypotheses :
    State.reset.Ordered ∧ (withTime fun t => { t with meanDelay := some 20 }).time.meanDelay = some 20 ∧
    State.reset.flag dieB Reg.TBS_CTRL_PTP_EN = true ∧ State.reset.flag dieB Reg.TBS_CTRL_PPS_EN = true ∧ State.reset.time.entered = false ∧
    State.reset.time.stepped = false ∧ State.reset.pair.partner = none ∧ State.reset.time.ptp.dead = false ∧ State.reset.time.pps.dead = false ∧
    State.reset.time.ptp.seen = false ∧ State.reset.time.lastPps = none ∧ 998999999 - 0 < 999000000 ∧ 1001000000 < 1001000001 - 0 := by
  decide +kernel

/-- R715: with t1 10, t2 30, t3 40 and a Delay_Req received at 44 the mean path delay is ((30 - 10) + (44 - 40)) / 2 = 12. -/
theorem test_mean_delay :
    (after (.ptpDelayResp 44) (withTime fun t => { t with reqSent := some 40, lastSync := some (10, 30) })).time.meanDelay = some 12 := by decide

/-- R715: an edge half-way between two whole seconds starts the later one. -/
theorem test_half_second : nearestSecond 1500000000 = 2000000000 ∧ nearestSecond 1499999999 = 1000000000 := by decide

/-! ## Power and reset -/

/-- A state whose head is in `h`. -/
def inHead (h : HeadState) : State := withPair fun p => { p with head := h }

/-- A state with another always-on island. -/
def withAo (f : Ao → Ao) : State := { State.reset with ao := f State.reset.ao }

/-- A dump under way. -/
def dumping (a : AfterDump) (r : Option Nat) : Dump := { warm := true, tw := 5, after := a, heldReset := r }

/-- Hypotheses of ResetSourcesActByHeadState, for each source and head state. -/
theorem test_reset_hypotheses :
    State.reset.Ordered ∧ State.reset.ao.dump = none ∧ State.reset.pair.head = .boot ∧ (inHead .solo).pair.head = .solo ∧
    (inHead .twin).pair.head = .twin ∧ (inHead .off).pair.head = .off ∧ (inHead .thermalHold).pair.head = .thermalHold ∧
    bitsAt (BitVec.ofNat 64 (2 ^ 63 + 1)) 63 1 = 1 ∧ bitsAt (BitVec.ofNat 64 (2 ^ 63 + 1)) 0 1 = 1 ∧
    (withAo fun a => { a with dump := some (dumping .fence none) }).ao.dump = some (dumping .fence none) := by decide +kernel

/-- Hypotheses of DieDomainsResetAlone: S1, the last of its bits, every head state, a value without GO and one that names no die; a register
of S1 and one of M0. -/
theorem test_domain_hypotheses :
    bitsAt (BitVec.ofNat 64 (2 ^ 63 + 2 ^ 21)) 63 1 = 1 ∧ bitsAt (BitVec.ofNat 64 (2 ^ 63 + 2 ^ 21)) 0 1 = 0 ∧
    (State.reset.rstDies (BitVec.ofNat 64 (2 ^ 63 + 2 ^ 21))).isEmpty = false ∧ (inHead .fenced).pair.head = .fenced ∧
    (inHead .fawn).pair.head = .fawn ∧ (inHead .fawn).ao.dump = none ∧ (inHead .fawn).Ordered ∧ Memory.wf (inHead .boot).mem = true ∧
    ((inHead .twin).rstDies (BitVec.ofNat 64 (2 ^ 63 + 2 ^ 21))).isEmpty = false ∧ (inHead .twin).pair.head = .twin ∧
    ((inHead .solo).rstDies (BitVec.ofNat 64 (2 ^ 63 + 2 ^ 21))).isEmpty = false ∧ (inHead .off).pair.head = .off ∧
    ((inHead .off).rstDies (BitVec.ofNat 64 (2 ^ 63 + 2 ^ 21))).isEmpty = false ∧ bitsAt (BitVec.ofNat 64 (2 ^ 21)) 63 1 = 0 ∧
    State.reset.rstDies (BitVec.ofNat 64 (2 ^ 63)) = [] ∧ homeDie 9 0x26 8 ∈ State.reset.rstDies (BitVec.ofNat 64 (2 ^ 63 + 2 ^ 21)) ∧
    homeDie 9 0x26 0 ∉ State.reset.rstDies (BitVec.ofNat 64 (2 ^ 63 + 2 ^ 21)) ∧ (homeDie 9 0x26 0, 0x26, 0) ≠ (dieF 0, 0x17, 0xFF00) := by
  decide +kernel

/-- Hypotheses of the supply and warning statements; VIN 1 mV above the start, and 1 mV below the least warning threshold. -/
theorem test_supply_hypotheses :
    35000 < 35001 ∧ State.reset.pins.modEn = true ∧ 35000 < State.reset.pins.vin ∧ State.reset.flag dieB Reg.PWR_CTRL_PFW_EN = true ∧
    29999 < max 0x12C (min 0x154 (State.reset.fld dieB Reg.PWR_CTRL_UV_WARN_DV)) * 100 ∧ State.reset.Ordered ∧
    State.reset.flag dieB Reg.PWR_STATUS_WARNED = false ∧ State.reset.ao.hold = false ∧ State.reset.ao.dump = none ∧
    (inHead .solo).flag dieB Reg.PWR_STATUS_WARNED = false ∧ (inHead .twin).flag dieB Reg.PWR_STATUS_WARNED = false := by decide +kernel

/-- Hypotheses of DumpEndsInHoldOrReset and PowerLossAndRise (its dump blocks: test_dump_blocks). -/
theorem test_dump_hypotheses :
    (withAo fun a => { a with dump := some (dumping .hold none) }).ao.dump = some (dumping .hold none) ∧
    dumping (.reset 3) (some 4) ≠ dumping .hold (some 4) ∧ (dumping (.reset 3) (some 4)).after ≠ .hold ∧
    (dumping (.reset 3) (some 4)).heldReset = some 4 ∧ (dumping .fence none).after = .fence ∧
    State.reset.dumpBlocks = [] ∧ (withAo fun a => { a with hold := true }).ao.hold = true ∧ (withAo fun a => { a with hold := true }).ao.rail = true ∧ 26999 < 27000 ∧
    ({ Nor.reset with ctrA := [⟨7, 8, 9, 0⟩] } : Nor).lastCounter = some ⟨7, 8, 9, 0⟩ := by decide +kernel

/-- R655: PCYCLE wraps at 24 bits. -/
theorem test_pcycle_wraps :
    (after (.powerHoldExit 48000 true true) (withAo fun a => { a with hold := true, pcycle := 2 ^ 24 - 1 })).ao.pcycle = 0 := by decide +kernel

/-- R686: a UV_WARN_DV of 0 acts as 30.0 V. -/
theorem test_uv_clamp : (State.reset.setFld dieB Reg.PWR_CTRL_UV_WARN_DV 0).uvWarn = 30000 := by decide +kernel

/-! ## Host commands -/

/-- A capsule on a queue of controller 5. -/
def capOn (qid : Nat) : Cap :=
  { fdie := 1, port := 2, qpn := 9, cntlid := 5, qid := qid, cid := 3, nsid := 1, bytes := 64, fuse := .single, sgl := ⟨true, 4096, false, false, 0, 0⟩,
    data := [], psn := 7, npsn := 1, alt := .asRow }

/-- Controller 5 with its admin queue and I/O queue 1 (`half`: a first command of a fused pair waits there), and namespace 1. -/
def hostState (half : Option Half) : State :=
  let q := fun (n : Nat) => { newQueue (capOn n) 5 n 2 15 with half := half }
  let h := State.reset.host
  let a := State.reset.arr
  ({ State.reset with
      host := { h with ctrls := [(5, .fresh 5 [1] 500 0 [1] false)], queues := [(queueKey 5 0, q 0), (queueKey 5 1, q 1)] },
      arr := { a with nss := [(1, .fresh false 1000 1 false)], admins := [[1]] } } : State).setFlag (dieF 1) Reg.NVF_CTRL_EN true

/-- The first capsule of a fused pair, as it waits on queue 1. -/
def halfOf (aborted : Bool) : Half := { cap := { capOn 1 with fuse := .first }, slba := 4, nlb := 1, aborted := aborted }

/-- Queue 1 of controller 5, with a first capsule or none, in which a queue of one entry holds one command. -/
def queueOf (half : Option Half) : Queue := { newQueue (capOn 1) 5 1 2 15 with half := half }

/-- A capsule of 64 bytes, the least that R105 takes whole, is taken on both kinds of queue; one of 4 bytes is taken, and fails; one of 3 is not. -/
theorem test_host_takes :
    HostTakes (hostState none) (capOn 1) (queueOf none) ∧ HostTakes (hostState none) (capOn 0) (newQueue (capOn 0) 5 0 2 15) ∧
    HostTakes (hostState none) { capOn 1 with bytes := 4 } (queueOf none) ∧
    HostReaches (hostState none) { capOn 1 with bytes := 3 } (queueOf none) ∧
    (((hostState none).arrived (capOn 1)).outstanding 5 1).length < (queueOf none).size ∧
    (hostState none).arrivalFault (capOn 1) (queueOf none) true = none ∧
    (hostState none).arrivalFault { capOn 1 with bytes := 63 } (queueOf none) true = some ⟨0, 0x11⟩ ∧
    ({ capOn 1 with fuse := .first } : Cap).fuse ≠ .second ∧ (capOn 1).fuse ≠ .first := by
  unfold HostTakes HostReaches; decide +kernel

/-- Hypotheses of FusedPairEntersAsOne. -/
theorem test_fused_hypotheses :
    (hostState none).queue (capOn 1) = some (queueOf none) ∧ (queueOf none).half = none ∧
    HostTakes (hostState none) { capOn 1 with fuse := .first } (queueOf none) ∧
    (hostState (some (halfOf true))).queue (capOn 1) = some (queueOf (some (halfOf true))) ∧
    (queueOf (some (halfOf true))).half = some (halfOf true) ∧ (halfOf true).aborted = true ∧ (halfOf false).aborted = false ∧
    (queueOf none).cntlid = (capOn 1).cntlid ∧ (queueOf none).qid = (capOn 1).qid ∧
    HostTakes ((hostState (some (halfOf true))).setQueue (queueOf none)) { capOn 1 with fuse := .second } (queueOf none) ∧
    HostTakes ((hostState none).setQueue (queueOf none)) { capOn 1 with fuse := .second } (queueOf none) := by
  unfold HostTakes HostReaches; decide +kernel

/-- A command of controller 5 that has entered, with an outcome or none. -/
def cmdOf (op : HostOp) (qid : Nat) (res : Option (Status × Nat)) : Cmd :=
  { tag := ⟨5, qid, 3, 0⟩, fdie := 1, port := 2, qpn := 9, nsid := 1, op := op, cls := 2, sgl := (capOn 1).sgl, arrival := 0, accepted := true,
    epoch := 0, wants := [], excl := false, asked := 0, fetchLedger := .idle, fetching := false, data := none, part := none, begun := false, seqs := [],
    admitWait := false, pieces := none, point := ⟨0, 0, 0⟩, dataLedger := .idle, sentData := false, result := res, result2 := none,
    respLedger := .idle, mute := false, fetchAt := 0, skips := [] }

/-- A queue pair of the host, and a head in SOLO that may transmit, with a command that has succeeded. -/
def hostQp : Qp :=
  let e : QpExport :=
    { qpn := 9, port := 2, remoteQpn := 1, ipv6 := false, admin := false, mtu := 4096, dstIp := 0, srcIp := 0, dstMac := 0,
      srcPort := 0, cls := 2, timeout := 14, retries := 3, rnrRetries := 3, ord := 4, cntlid := 5, qid := 1, epsn := 8, spsn := 20, kadl := 0 }
  .fresh e 1 100000 0

def respondState : State :=
  let s := (hostState none).enter .solo
  let c := cmdOf (.read 0 1) 1 (some (stOk, 0))
  { s with host := { s.host with cmds := [(c.tag.num, c)] }, rdma := { s.rdma with qps := [(9, hostQp)] } }

/-- Hypotheses of CommandWithOutcomeResponds, at the side that created the queue pair. -/
theorem test_respond_hypotheses :
    let c := cmdOf (.read 0 1) 1 (some (stOk, 0))
    respondState.cmd c.tag.num = some c ∧ c.result = some (stOk, 0) ∧ c.result2 = none ∧ c.accepted = true ∧
    respondState.dataOut c.qpn c.tag.num = false ∧ respondState.mirroring = false ∧ respondState.maySendQp c.qpn = true ∧
    respondState.qp c.qpn = some hostQp ∧ hostQp.error = false ∧ hostQp.resv = [] ∧
    respondState.pair.ledger.find? (ledgerKey c.tag.num .response) = none ∧ c.mute = false ∧ c.op ≠ .disconnect := by
  decide +kernel

/-- A queue of one entry that holds a command is full (R105). -/
theorem test_full_queue :
    let q := newQueue (capOn 1) 5 1 2 0
    let s := { respondState with host := { respondState.host with queues := [(queueKey 5 1, q)] } }
    HostReaches s { capOn 1 with cid := 4 } q ∧ q.size ≤ ((s.arrived { capOn 1 with cid := 4 }).outstanding 5 1).length := by
  unfold HostReaches; decide +kernel

/-- A removal of namespace 1 that began at time 0, and a Format and a sanitise whose work is done. -/
def removing (tb : Nat) : State :=
  let s := hostState none
  let n := { NsRec.fresh false 1000 1 false with removing := some (0, none), deleting := true }
  { s with ao := { s.ao with tb := tb }, arr := { s.arr with nss := [(1, n)] } }

def formatted : State :=
  let s := hostState none
  let n := { NsRec.fresh false 1000 1 false with formatting := some (1, none), phase := 2 }
  { s with arr := { s.arr with nss := [(1, n)], sanitize := some ⟨true, none, 1, 1, 2, true⟩ } }

/-- Hypotheses of AdminCommandsAct: the most Asynchronous Event Requests but one, and the most. -/
theorem test_admin_act_hypotheses :
    (hostState none).host.ctrls.find? (cmdOf .keepAlive 0 none).tag.cntlid = some (.fresh 5 [1] 500 0 [1] false) ∧
    (cmdOf .asyncEvent 0 none).op = .asyncEvent ∧ (List.replicate 7 (cmdOf .asyncEvent 0 none).tag).length < 8 ∧
    8 ≤ (List.replicate 8 (cmdOf .asyncEvent 0 none).tag).length ∧ 0x20 ∉ [0x00, 0x08, 0x14, 0x1C] ∧ featureKnown 0x0F = true ∧
    ((hostState none).identifyBytes 5 1 0x11 0).isSome = true ∧ (hostState none).arr.admins.contains [1] = true ∧
    (hostState none).arr.sanitize = none ∧ (hostState none).freeNsid = some 2 ∧ State.reset.arr.admins.contains [1] = false ∧
    { capOn 0 with alt := .sanact 3 }.alt = .sanact 3 ∧ (∀ n, (capOn 0).alt ≠ .sanact n) ∧ 3 ∉ [1, 2, 4] ∧
    ((hostState none).ns 1).map NsRec.removing = some none ∧ ((hostState none).ns 1).map NsRec.releasing = some false ∧
    ((removing 0).ns 1).map (fun n => n.removing.isSome) = some true ∧ (formatted.ns 1).map (fun n => n.formatting.isSome) = some true ∧
    formatted.arr.sanitize.isSome = true := by
  refine ⟨?_, ?_, ?_, ?_, ?_, ?_, ?_, ?_, ?_, ?_, ?_, ?_, (fun _ h => nomatch h), ?_⟩ <;> decide +kernel

/-- Hypotheses of ConnectMakesControllersAndQueues: the largest queue, the least timeout and the longest. -/
theorem test_connect_hypotheses :
    (hostState none).flag (dieF (capOn 0).fdie) Reg.NVF_CTRL_EN = true ∧ 31 ≤ 31 ∧ 500 ≤ 500 ∧ 3600000 ≤ 3600000 ∧
    (hostState none).freeCntlid = some 1 ∧ (hostState none).host.ctrls.find? 5 = some (.fresh 5 [1] 500 0 [1] false) ∧
    (hostState none).host.queues.has (5 * 256 + 128) = false ∧
    (∀ u ∈ (hostState none).host.queues.vals, u.qpn ≠ 10) ∧ (∃ u ∈ (hostState none).host.queues.vals, u.qpn = 9) ∧
    (⟨[1], []⟩ : ConnNqn).sub = (hostState none).boot.nqn ∧ (⟨[1], [7]⟩ : ConnNqn).sub ≠ (hostState none).boot.nqn ∧
    (hostState none).connectCheck 10 [] 5 129 1023 500 false = some stBadConnect ∧
    (hostState none).connectCheck 10 [] 0xFFFF 0 31 499 false = some ⟨0, 0x1A⟩ := by decide +kernel

/-- A detach of namespace 1 from controller 5 under way, of side 0's. -/
def detaching (side : Nat) : State :=
  let s := hostState none
  { s with arr := { s.arr with detaches := [⟨1, [5], 0, 77, side⟩] } }

/-- A removal that began at time 5, while a Read that had arrived at time 0 was under way. -/
def removalHeld : State :=
  let s := hostState none
  let n := { NsRec.fresh false 1000 1 false with removing := some (5, none), deleting := true }
  { s with arr := { s.arr with nss := [(1, n)] }, host := { s.host with cmds := [(1, cmdOf (.read 0 1) 1 none)] } }

/-- Hypotheses of HostTimersAndBackgroundEnds, each at its first moment. -/
theorem test_host_timer_hypotheses :
    (removing 500000000).host.ctrls.find? 5 = some (.fresh 5 [1] 500 0 [1] false) ∧ 0 + 500 * 10 ^ 6 ≤ (removing 500000000).ao.tb ∧
    (removing 100000000).removals 1 = [(0, none, none)] ∧ 0 + 100 * 10 ^ 6 ≤ (removing 100000000).ao.tb ∧ (removing 0).earlier 1 none 0 = [] := by decide +kernel

/-- The same, of what ends. -/
theorem test_host_end_hypotheses :
    (removing 0).partnerEarlier 1 none 0 = [] ∧ (detaching 0).removals 1 = [(0, some [5], some ⟨1, [5], 0, 77, 0⟩)] ∧
    (detaching 0).earlier 1 (some [5]) 0 = [] ∧ (detaching 0).partnerEarlier 1 (some [5]) 0 = [] ∧ (0 : Nat) = (detaching 0).side ∧
    (removalHeld.removals 1 = [(5, none, none)] ∧ removalHeld.earlier 1 none 5 ≠ []) ∧
    (formatted.ns 1).map NsRec.formatting = some (some (1, none)) ∧ (formatted.ns 1).map NsRec.phase = some 2 ∧
    (formatted.ns 1).map formatted.runsNs = some true ∧ formatted.destroying 1 = false ∧
    formatted.arr.sanitize = some ⟨true, none, 1, 1, 2, true⟩ ∧ (⟨true, none, 1, 1, 1, true⟩ : San).phase ≠ 2 ∧
    (⟨true, none, 1, 1, 2, false⟩ : San).partnerDone = false := by decide +kernel

/-- A waiting request of tag 6 on a shard of the head, and one of the partner's that has waited 20 µs. -/
def lockEntry (tag : Nat) (granted : Bool) : LockEnt :=
  { tag := tag, side := 0, fdie := 0, shard := 4, spans := [(0, 9)], excl := true, cls := 2, entered := true, granted := granted, begun := false,
    withdrawn := false, order := 0, behind := none }

def lockState (l : List LockEnt) : State :=
  let s := State.reset
  { s with ao := { s.ao with tb := 20000 }, host := { s.host with locks := l, remote := [(7, 0)] } }

/-- Hypotheses of LockRequestsGrantLapseAndGo: a request alone is granted, one behind a holder is not. -/
theorem test_lock_hypotheses :
    ((lockState [lockEntry 6 false]).host.locks.find? fun e => e.tag == 6 && e.shard == 4 && (lockState [lockEntry 6 false]).mayGrant e) =
      some (lockEntry 6 false) ∧
    (lockState [lockEntry 6 false, lockEntry 8 true]).mayGrant (lockEntry 6 false) = false ∧
    (lockEntry 8 true).conflicts (lockEntry 6 false) = true ∧ (lockState []).host.remote.find? 7 = some 0 ∧ 0 + 20000 ≤ (lockState []).ao.tb ∧
    (lockState []).host.unsettled.contains 7 = false ∧ (State.reset.host.cmds.vals.filter Cmd.admitWait) = [] ∧
    [{ cmdOf (.write 0 1) 1 none with admitWait := true }].filter Cmd.admitWait = [{ cmdOf (.write 0 1) 1 none with admitWait := true }] := by
  decide +kernel

/-! ## The two heads -/

/-- A head with group 0 up, and more of its pair state. -/
def linked (f : PairU → PairU) : State := (withPair f).setFlag (dieF 0) Reg.CHL_STATUS_UP true

/-- A frame of a NOTICE with cause 1 (R118 to R120): its SEQ, lane, whether it ends its message, its LEN and the MLEN it states. -/
def noticeFrame (seq vl : Nat) (som eom : Bool) (len mlen epoch : Nat) : Bytes :=
  frameOf (frameHead 0x12 vl 0 som eom seq 65535 none len) (le 4 epoch ++ le 8 0 ++ le 4 mlen)

/-- The header of a whole NOTICE bit by bit (R118): TYPE 0x12, SOM and EOM, SEQ 3, ACK 2, no credits, LEN 20. -/
theorem test_frame_header : frameHead 0x12 0 0 true true 3 2 none 20 = [0x12, 0xC0, 3, 0, 2, 0, 0, 0, 20, 0, 0, 0] := by decide

/-- A NOTICE frame is good, and one of no bytes is not. -/
theorem test_frame_ok (seq vl : Nat) (som eom : Bool) (len mlen epoch : Nat) :
    frameOk (noticeFrame seq vl som eom len mlen epoch) = true ∧ frameOk [] = false := ⟨frameOk_frameOf (by simp [frameHead]), rfl⟩

/-- Hypotheses on one frame: it is good and next in order; it ends its message, or not; it is 1 and 256 ahead of a gap. -/
theorem test_link_hypotheses :
    let f := noticeFrame 0 0 true true 20 4 0
    (linked id).groupUp 0 = true ∧ ((linked id).chlTook 0 f).groupUp 0 = true ∧
    0 < (((linked id).chlTook 0 f).group 0).rxCredits.getD (frameVl f) 0 ∧ (((linked id).chlTook 0 f).group 0).ahead = [] ∧
    frameSeq f = (((linked id).chlTook 0 f).group 0).rxSeq ∧ frameEom f = true ∧ frameEom (noticeFrame 0 0 true false 240 300 0) = false ∧
    frameSeq (noticeFrame 1 0 false true 76 0 0) = (0 + 1) % 65536 ∧ seqDist 0 (frameSeq (noticeFrame 1 0 true true 20 4 0)) = 1 ∧
    seqDist 0 (frameSeq (noticeFrame 256 0 true true 20 4 0)) = 256 ∧ State.reset.groupUp 0 = false := by
  decide +kernel

/-- The first of two frames is held: what the second finds. -/
theorem test_link_second_frame :
    let f := noticeFrame 1 0 false true 76 0 0
    let p : RxFrame := { seq := 0, bytes := frameHead 0x12 0 0 true false 0 65535 none 240, msg := .notice 1 }
    let s := (linked id).setGroup 0 { Group.reset with ahead := [p] }
    s.groupUp 0 = true ∧ ((s.chlTook 0 f).group 0).ahead = [p] ∧ p.seq = ((s.chlTook 0 f).group 0).rxSeq ∧ frameEom p.bytes = false ∧
    frameEom f = true ∧ (s.chlTook 0 f).groupUp 0 = true := by decide +kernel

/-- Delivery: a whole NOTICE takes effect; on lane 1, with another MLEN, or of another epoch it does not. -/
theorem test_deliver_hypotheses :
    let f := noticeFrame 0 0 true true 20 4 0
    let g := noticeFrame 0 1 true true 20 4 0
    (∀ x ∈ [f], frameType x = (ChlMsg.notice 1).code ∧ frameVl x ∈ vlsOf (ChlMsg.notice 1).code) ∧ framesWhole [f] = true ∧
    (linked id).stale (frameEpoch f) (frameTag f) (.notice 1) = false ∧
    ¬ (∀ x ∈ [g], frameType x = (ChlMsg.notice 1).code ∧ frameVl x ∈ vlsOf (ChlMsg.notice 1).code) ∧
    framesWhole [noticeFrame 0 0 true true 20 5 0] = false ∧
    (linked id).stale (frameEpoch (noticeFrame 0 0 true true 20 4 1)) 0 (.notice 1) = true ∧ 1 ≠ (linked id).epoch := by decide +kernel

/-- A record of the partner's without data: its header of 128 bytes alone. -/
def rec0 : JRec :=
  { side := 1, kv := false, mediaDur := false, zeroes := true, dealloc := false, part := 0, parts := 1, epoch := 0, seq := 3, tag := 0, nsid := 1,
    key := [], cls := 1, slba := 0, nlb := 8, arrival := 0, append := 0, data := [] }

/-- Hypotheses of LinkMessagesHaveTheirEffects: TWIN without fault or claim; a record that just fits its half. -/
theorem test_link_effect_hypotheses :
    ((linked id).group 0).deaf = false ∧ 1 ≠ (linked id).side ∧ (inHead .twin).pair.faulted = none ∧ (inHead .twin).pair.claim = none ∧
    (inHead .twin).epoch < 0xFFFFFFFF ∧ (State.reset.halfSize - 128) + rec0.size ≤ State.reset.halfSize ∧
    ((lockState [lockEntry 6 false]).host.locks.find? fun x => x.tag == 6 && x.shard == 4) = some (lockEntry 6 false) ∧
    rec0.lengthOk = true ∧ ({ rec0 with kv := true, part := 1 } : JRec).lengthOk = false ∧ (inHead .fawn).pair.head = .fawn ∧
    (withPair fun p => { p with rejoin := 100 }).pair.rejoin = 100 ∧ (inHead .twin).pair.rejoin ≠ 100 ∧ (inHead .twin).ftl.todo = [] ∧
    (inHead .twin).changeReady (.upd 0 0 (.log (.status true 0) 1 5) 9) = true ∧
    (inHead .twin).itemBad 0 (.count 128 1 1) = none := by decide +kernel

/-- A group with one thing changed. -/
def withGroup (f : Group → Group) : State := (linked id).setGroup 0 (f .reset)

/-- Hypotheses of LinkLanesAndTimers, at the first moment each timer acts; 17 errors of a lane in the last millisecond. -/
theorem test_lane_hypotheses :
    ((linked id).setFlag (dieF 0) Reg.CHL_CTRL_EN true).flag (dieF 0) Reg.CHL_CTRL_EN = true ∧
    ((linked id).setFld (dieF 0) Reg.CHL_CTRL_LANE_EN 0xFFFF).fld (dieF 0) Reg.CHL_CTRL_LANE_EN / 2 ^ 15 % 2 = 1 ∧ 0 < (linked id).variant.sides ∧
    (linked id).Ordered ∧ ((withGroup fun g => { g with gapSince := some 0 }).group 0).gapSince = some 0 ∧
    ((withGroup fun g => { g with ackSince := some 0 }).group 0).ackSince = some 0 ∧ (5 : Nat) < 0 + 100000 ∧ (0 : Nat) + 100000 ≤ 100000 ∧
    (ChlMsg.notice 1).code ≠ 0x31 ∧ (ChlMsg.mapupd (.readPoint 0) 0).code = 0x31 ∧ frameType (frameHead 0 0 0 false false 0 0 none 0) = 0 ∧
    frameType (frameHead 1 0 0 false false 0 0 none 0) = 1 ∧ ((linked id).lanesUp 0).length < 8 ∧
    16 < (recentMs 5 (List.replicate 17 5)).length ∧ ¬ 16 < (recentMs 5 (List.replicate 16 5)).length ∧
    (withGroup id).groupUp 0 = true ∧ ((withGroup fun g => { g with lastFrame := 0 }).group 0).lastFrame + 2000 ≤ 2000 ∧
    ((linked id).setFld (dieF 0) Reg.CHL_STATUS_LANES_UP 1).fld (dieF 0) Reg.CHL_STATUS_LANES_UP / 2 ^ 0 % 2 = 1 ∧
    (linked id).pickGroup = some 0 ∧ State.reset.pickGroup = none := by decide +kernel

/-- A claim of side 0 that began at time 0. -/
def claim0 : Claim := { why := .takeover 1 0 0, expect := 0, holders := 1, begun := 0, applied := [], answered := [], highest := 0 }

/-- A head in TWIN at a time base count, with a claim or none. -/
def twinAt (tb : Nat) (c : Option Claim) (sil : Option Nat) (d : Option (Nat × Nat)) : State :=
  let s := inHead .twin
  { s with ao := { s.ao with tb := tb }, pair := { s.pair with claim := c, silence := sil, deferTill := d, holdTx := some 0 } }

/-- Hypotheses of HeartbeatWitnessLeaseAndClaims, each timer at its first moment: 3 µs and 5 µs of silence, 3 µs of deferral, 4 µs of lease, 8 µs, 100 µs. -/
theorem test_witness_hypotheses :
    (inHead .thermalHold).pair.head ∈ [HeadState.fawn, .twin, .solo, .fenced, .thermalHold] ∧ (inHead .fawn).pair.head ≠ .off ∧
    (withPair fun p => { p with faulted := some 1 }).pair.faulted.isSome = true ∧
    (twinAt 3000 none none none).pair.rxAt.getD (twinAt 3000 none none none).pair.leaseAt + 3000 ≤ (twinAt 3000 none none none).ao.tb ∧
    (twinAt 5000 none (some 3000) none).pair.rxAt.getD (twinAt 5000 none (some 3000) none).pair.leaseAt + 5000 ≤ 5000 ∧ 3000 + 2000 ≤ 5000 ∧
    (twinAt 5000 none (some 3000) none).pair.silence = some 3000 ∧ ([] : List (Nat × Nat × Nat × Nat)).length < 2 ∧
    2 ≤ ([(1, 3, 4, 5), (2, 3, 3, 9)] : List (Nat × Nat × Nat × Nat)).length ∧ 3 ≠ 4 ∧ (twinAt 3000 none none (some (3000, 0))).pair.deferTill = some (3000, 0) ∧
    (twinAt 4000 none none none).Ordered ∧ (twinAt 4000 none none none).pair.leaseAt + 4000 ≤ 4000 ∧
    (twinAt 0 (some claim0) none none).pair.claim = some claim0 ∧ claim0.answered.contains 3 = false ∧ claim0.begun + 100000 ≤ 100000 ∧
    (twinAt 8000 none none none).pair.holdTx = some 0 ∧ (inHead .solo).pair.head ∈ [HeadState.twin, .solo] := by decide +kernel

/-- A roster of two carriers: side 0 wins with one of them, side 1 with both. -/
theorem test_claim_wins :
    let s := (State.reset.setFld (dieM 0) Reg.SFB_ROSTER_ROSTER 3)
    s.inRoster 1 = true ∧ s.claimWins 1 = true ∧ s.claimWins 0 = false ∧ ({ s with side := 1 } : State).claimWins 1 = false ∧
    ({ s with side := 1 } : State).claimWins 2 = true := by decide +kernel

/-- Hypotheses of TakeoverHandoverStartAndFaults. -/
theorem test_takeover_hypotheses :
    bitsAt (BitVec.ofNat 64 0x20) 5 1 = 1 ∧ bitsAt (BitVec.ofNat 64 0x10) 4 1 = 1 ∧
    (withPair fun p => { p with head := .solo, pending := some (1, 0) }).pair.pending.isSome = true ∧ (inHead .twin).pair.giving = none ∧
    (withPair fun p => { p with giving := some (1, [0], []) }).pair.giving = some (1, [0], []) ∧ (inHead .twin).pair.groups = [] ∧
    ({ hostQp with probes := 3, probeAt := some 0 } : Qp).probeAt = some 0 ∧ hostQp.error = false ∧ 0 + 10000 ≤ 10000 ∧
    ((inHead .fawn).setFlag (dieF 0) Reg.TKO_CTRL_SOLO_BOOT_EN true).flag (dieF 0) Reg.TKO_CTRL_SOLO_BOOT_EN = true ∧
    (inHead .fawn).upGroups = [] ∧ (inHead .fawn).pair.recovered = false ∧ (linked id).upGroups ≠ [] ∧ (inHead .fawn).pair.rejoin = 0 ∧
    (withPair fun p => { p with compatible := true, partner := some .fawn }).pair.partner = some .fawn ∧
    (withTime fun t => { t with measured := true, aligned := true }).time.measured = true ∧
    (withTime fun t => { t with measured := true, aligned := true }).time.aligned = true ∧ (inHead .fawn).side = 0 ∧
    ({ inHead .fawn with side := 1 } : State).side = 1 ∧ (inHead .fawn).leads = true ∧
    (((inHead .solo).setFport 0 { Port.reset with downAt := some 0 }).fport 0).downAt = some 0 ∧
    ((inHead .solo).setFlag (portDie 0) (Reg.MAC_CFG_EN.plus (portOff 0)) true).flag (portDie 0) (Reg.MAC_CFG_EN.plus (portOff 0)) = true ∧ (inHead .twin).pair.head ≠ .fawn ∧ (inHead .twin).hasLink 0 = false ∧
    ({ State.reset with boot := { State.reset.boot with phase := .loaded } } : State).boot.phase = .loaded ∧ State.reset.ao.tripLatched = false ∧
    ((inHead .solo).setFlag (dieM 0) Reg.FTL_CTRL_EN true).serving = true ∧ (inHead .solo).ftl.ckpt = none ∧
    ([(0, { dumpid := 0, epoch := 0, time := 0, warm := true, own := [], mirror := [], final := true })] : SMap DumpImage).isEmpty = false := by
  decide +kernel

/-! ## Destage, packs, key cipher units -/

/-- A state with another part of its destage pipeline. -/
def withDst (s : State) (f : Dst → Dst) : State := { s with dst := f s.dst }

/-- A record of one block, its journal entry with its intent posted, and a job of domain 1 on tile 0 with one chunk. -/
def rec1 : JRec := { rec0 with side := 0, zeroes := false, nlb := 0, slba := 5, data := [1] }

def ent1 : JEnt := { adoptedEnt rec1 0 0 with placed := 0 }

def job1 (st : ChunkSt) : Job :=
  { side := 0, seqs := [3], shard := 0, tile := 0, cls := 1, nsid := 1, domain := 1, kv := false, key := [], vlen := 0, slba := 5, arrival := 0,
    chunks := [{ bytes := [1], st := st }], held := false, noDom := false, fix := 0, fixed := false, repl := none, txn := none }

/-- A head in SOLO that destages and owns every shard, with domain 1 valid, its FPL lanes on, a fingerprint slot and a job. -/
def destState (st : ChunkSt) : State :=
  let s := withDst (inHead .solo) fun d => { d with jobs := [(0, job1 st)], fpSlots := [(fpKey 0 1, zeros 32, zeros 32, 0)] }
  let s := (((s.enter .solo).setFlag (dieM 0) Reg.FTL_CTRL_EN true).setFlag (dieC 0) Reg.FPL_CTRL_EN true).setFld (dieC 0) Reg.FPL_CTRL_LANE_EN 1
  let s := s.setActive (tblKey (dieC 0) 0x31 0 1 0) (BitVec.ofNat 64 (2 ^ Reg.FPL_DOM_DATA_VALID.lo))
  { s.setOwners fun _ => 0 with jrnl := { s.jrnl with own := [(3, ent1)] } }

/-- Hypotheses on records, jobs and lanes of DestageMovesRecordsAndChunks; the last lane of a kind, and one more. -/
theorem test_destage_hypotheses :
    let s := destState .hash
    s.jobOf 0 4 = none ∧ s.jent 0 3 = some ent1 ∧ s.mayTransmit = true ∧ s.flag (dieM 0) Reg.FTL_CTRL_EN = true ∧ ent1.destaging = false ∧
    ent1.txn = 0 ∧ ent1.r.kv = false ∧ (s.jent ent1.r.side ent1.r.seq).any (fun d => 0 != s.side || s.recComplete d) = true ∧
    s.owner ent1.r.shard = s.side ∧ s.jobOf 0 3 = some (0, job1 .hash) ∧
    s.variant.populated (dieC 0) = true ∧ 7 < LaneKind.cdc.regs.2.2 ∧ ¬ 8 < LaneKind.cdc.regs.2.2 ∧ s.lanes .fpl 0 / 2 ^ 0 % 2 = 1 ∧
    LaneKind.gcm ≠ .dcp ∧ LaneKind.gcm ≠ .dec := by decide +kernel

/-- The first chunk of the job takes the first lane of its tile, and its slot is there; with a session of R485 its fingerprint is compared. -/
theorem test_fingerprint_hypotheses :
    let u := (destState .hash).startLanes
    u.runOf .fpl (.chunk 0 0) = some ⟨.fpl, 0, 0, .chunk 0 0, false, false⟩ ∧ u.job 0 = some (job1 .hash) ∧
    (job1 .hash).chunkAt 0 = some { bytes := [1], st := .hash } ∧ (job1 .hash).repl = none ∧
    (u.useFp 0 1).map (fun x => (x.1, x.2.1)) = some (zeros 32, zeros 32) ∧
    ({ job1 .hash with repl := some (4, [[9]]) } : Job).repl = some (4, [[9]]) ∧ (⟨.fpl, 0, 0, .chunk 0 0, true, true⟩ : LaneRun).filter = true := by
  decide +kernel

/-- Chunk 7 of domain 1, in use or not, with its index entry; a candidate that it confirms; a chunk being freed. -/
def ref7 : Nat := mkRef 1 7

def fp7 : Bytes := padTo 32 [9]

def chunkState (c : ChunkEnt) (f : SMap Freeing) : State :=
  let s := withDst (inHead .solo) fun d => { d with jobs := [(0, job1 (.candidate fp7 ref7 false))], freeing := f }
  let s := { s with arr := { s.arr with doms := [(1, { DomRec.fresh 1 with fpxBits := 8 })] } }
  let s := s.setPage (chunkPage ref7) { lsn0 := 0, lsn1 := 0, body := .chunk [(7, c)] }
  s.setPage (bucketPage 1 (s.dom 1).fpxBits fp7 0) { lsn0 := 0, lsn1 := 0, body := .bucket 0 [{ fp := fp7, ref := ref7, len := 1 }] }

theorem test_chunk_hypotheses :
    let live : ChunkEnt := { pack := 0, cnt0 := 1, cnt1 := 0, len := 1, member := 0, state := 1 }
    let gone : Freeing := { since := 0, dying := true, acked := true, fp := some fp7, data := none }
    let s := chunkState live []
    let z := chunkState { live with cnt0 := 0 } [(ref7, gone)]
    s.job 0 = some (job1 (.candidate fp7 ref7 false)) ∧ (job1 (.candidate fp7 ref7 false)).chunkAt 0 = some { bytes := [1], st := .candidate fp7 ref7 false } ∧
    ((s.confirmable 1 fp7 1).find? fun e => e.ref == ref7) = some { fp := fp7, ref := ref7, len := 1 } ∧ (s.chunk ref7).len = 1 ∧
    gone.dying = true ∧ gone.acked = true ∧ gone.fp = some fp7 ∧
    (chunkState { live with len := 2 } []).chunk ref7 = { live with len := 2 } ∧ (chunkState live [(ref7, gone)]).dst.freeing.find? ref7 = some gone ∧
    ((chunkState live [(ref7, gone)]).chunk ref7).sum ≠ 0 ∧ refNum ref7 ≠ 0 ∧ (z.chunk ref7).state = 1 ∧ (z.chunk ref7).sum = 0 ∧ z.frees ref7 = true ∧
    s.dst.freeing.has ref7 = false ∧ z.chunkInUse ref7 = false ∧ z.dst.freeing.find? ref7 = some gone ∧ z.pointBefore 0 = false := by decide +kernel

/-- A domain's record with one generation. -/
def keyRec1 : KeyRec := { domain := 1, icv := padTo 32 [1], ocv := padTo 32 [2], gens := [{ gen := 0, k1 := padTo 32 [3], k2 := padTo 32 [4] }] }

/-- Hypotheses on slot loads: a chunk waits for domain 1, or a compressed pack for generation 0; the slots are empty. -/
def pack1 (st : PackSt) (c : Option (Nat × Nat)) : Pack :=
  { tile := 0, domain := 1, cls := 1, kv := true, mems := [{ bytes := [1], fp := fp7, job := 0, n := 0 }], st := st, addedAt := 0, chunk := ref7, gen := 0,
    stream := [1], stored := true, env := [], maddr := 0, copyOf := c, reserved := false, logged := false, again := false }

/-- A tile whose lanes of a kind run, with a pack and an XTS slot. -/
def packState (p : Pack) : State :=
  let s := withDst State.reset fun d => { d with packs := [(0, p)], xtsSlots := [(xtsKey 0 1 0, padTo 32 [3], padTo 32 [4], 0)] }
  let s := ((s.setFlag (dieC 0) Reg.CMP_CTRL_EN true).setFld (dieC 0) Reg.CMP_CTRL_LANE_EN 1).setFlag (dieC 0) Reg.XTS_CTRL_EN true
  let s := (s.setFld (dieC 0) Reg.XTS_CTRL_ENC_LANE_EN 1).setFld (dieC 0) Reg.XTS_CTRL_DEC_LANE_EN 1
  let s := (s.setFlag (dieC 0) Reg.DCP_CTRL_EN true).setFld (dieC 0) Reg.DCP_CTRL_LANE_EN 1
  { s with ao := { s.ao with tb := 1000000 } }

theorem test_slot_hypotheses :
    let s := withDst (destState .hash) fun d => { d with fpSlots := [], packs := [(0, pack1 .compressed none)] }
    s.fpWanted 0 1 = true ∧ s.dst.running = [] ∧
    s.dst.fpSlots.has (fpKey 0 1) = false ∧ s.dst.xtsSlots.has (xtsKey 0 1 0) = false ∧
    (packState (pack1 .compressed none)).xtsWanted 0 1 0 = true ∧
    (keyRec1.gens.find? fun g => g.gen == 0) = some { gen := 0, k1 := padTo 32 [3], k2 := padTo 32 [4] } ∧ keyRecOf keyRec1.bytes = some keyRec1 := by
  decide +kernel

/-- The envelope of a pack of one byte, stored, and its fields. -/
def env1 : Bytes := envelope true true 1 0 ref7 [1] (deflate [1]).1 (padMul 16 (deflate [1]).1)

/-- A tile that reads that pack: its envelope is there, its plaintext or none. -/
def readState (plain : Option Bytes) : State :=
  let s := packState (pack1 .opened none)
  let x : PackRd := { maddr := 0, domain := 1, chunk := ref7, cls := 1, tile := 0, cws := [], want := 1, env := some env1, plain := plain, again := false,
                      users := [] }
  { s with med := { s.med with rds := [(0, x)] } }

/-- Hypotheses of PacksCloseCipherAndServe: FLUSH_US at its least, 1 µs; the stream of one byte inflates again. -/
theorem test_pack_hypotheses :
    (packState (pack1 .opened none)).pack 0 = some (pack1 .opened none) ∧ (pack1 .opened none).full = true ∧
    max 1 0 * 1000 ≤ 1000 ∧ (envOf env1).map (fun e => (e.chunk, e.ulen, e.gen)) = some (ref7, 1, 0) ∧ envOf [] = none ∧
    inflate (deflate [1]).1 = some [1] ∧ inflate [] = none ∧ (pack1 .closed (some (0, 0))).copyOf.isSome = true ∧
    (envOf env1).map (fun e => e.ucrc) = some (crc32c [1]).toNat := by decide +kernel

/-- What waits takes the first lane of its kind. -/
theorem test_lane_runs :
    (packState (pack1 .closed none)).startLanes.runOf .cmp (.pack 0) = some ⟨.cmp, 0, 0, .pack 0, false, false⟩ ∧
    (packState (pack1 .closed none)).startLanes.pack 0 = some (pack1 .closed none) ∧
    (packState (pack1 .compressed none)).startLanes.runOf .enc (.pack 0) = some ⟨.enc, 0, 0, .pack 0, false, false⟩ ∧
    ((packState (pack1 .compressed none)).startLanes.useXts 0 1 0).map (fun x => (x.1, x.2.1)) = some (padTo 32 [3], padTo 32 [4]) ∧
    (packState (pack1 .closed (some (0, 0)))).startLanes.runOf .dec (.pack 0) = some ⟨.dec, 0, 0, .pack 0, false, false⟩ ∧
    (readState none).startLanes.runOf .dec (.read 0) = some ⟨.dec, 0, 0, .read 0, false, false⟩ ∧
    (((readState none).startLanes.med.rds.find? 0).bind PackRd.env?).map (fun e => e.gen) = some 0 ∧
    (readState (some (deflate [1]).1)).startLanes.runOf .dcp (.read 0) = some ⟨.dcp, 0, 0, .read 0, false, false⟩ := by decide +kernel

/-- With C0_LANES at 1 the one lane of a tile takes no pack above 16,384 bytes, and none while a class-0 pack waits for its key. -/
theorem test_reserved_lane :
    let s := (packState (pack1 .opened none)).setFld (dieC 0) Reg.DCP_CTRL_C0_LANES 1
    let w : LaneWork := { item := .read 0, cls := 1, ulen := 16384, ready := true }
    (s.pickWork .dcp 0 0 [w]).map Prod.fst = some w ∧ s.pickWork .dcp 0 0 [{ w with ulen := 16385 }] = none ∧
    s.pickWork .dcp 0 0 [w, { w with item := .read 1, cls := 0, ready := false }] = none ∧
    (s.pickWork .dcp 0 1 [{ w with ulen := 16385 }]).map (fun x => x.1.ulen) = some 16385 := by decide +kernel

/-- A tile whose key cipher unit runs, whose windows let every master reach all memory, and that holds the AWK. -/
def kcuState (x : Option KcuSes) : State :=
  let s := ((State.reset.setFlag (dieC 0) Reg.KCU_CTRL_EN true).setFlag (dieC 0) Reg.WIN_CTRL_EN true).setFld (dieC 0) (kcuFld 3 Reg.KCU_SRC_ADDR) ddrBase
  let s := s.setFld (dieC 0) (kcuFld 3 Reg.KCU_DST_ADDR) (ddrBase + 4096)
  let s := s.setActive (tblKey (dieC 0) 0x39 0 0 1) (BitVec.ofNat 64 (2 ^ 36 - 1 + 7 * 2 ^ 36 + 2 ^ 39 + 0xFFFF * 2 ^ 48))
  match x with
  | some x => s.setKcu 0 3 x
  | none => s

def kcu1 (clear : Bool) : KcuSes := { key := zeros 16, chain := zeros 16, clear := clear, ops := 0 }

/-- Hypotheses of KeyCipherUnitOperations: the last session of a tile. -/
theorem test_kcu_hypotheses :
    KcuRuns (kcuState none) 0 3 ∧ (kcuState none).Ordered ∧ (kcuState (some (kcu1 true))).kcu 0 3 = some (kcu1 true) ∧ (kcuState none).kcu 0 3 = none ∧
    (kcuState none).rangeFault 0 10 ((kcuState none).kcuSrc 0 3) 40 .read = none ∧ Memory.wf (kcuState none).mem = true ∧
    (kcuState none).rangeFault 0 10 ((kcuState none).kcuDst 0 3) 72 .write = none ∧ (kcuState none).rangeFault 0 10 0 368 .read = none ∧
    (kcuState none).flag (dieC 0) Reg.KCU_CTRL_CLEAR_KEY_EN = false ∧
    ((kcuState none).setFlag (dieC 0) Reg.KCU_CTRL_CLEAR_KEY_EN true).flag (dieC 0) Reg.KCU_CTRL_CLEAR_KEY_EN = true ∧
    (kcu1 true).context.length = 64 ∧ leAt (kcu1 true).context 48 4 ∈ [16, 32] ∧
    ((kcuState none).setFlag (dieC 0) Reg.WIN_CTRL_EN false).rangeFault 0 10 ddrBase 40 .read = some (ddrBase, 1) ∧
    (withDst (kcuState none) fun d => { d with awk := [(0, zeros 32)] }).awkOf 0 = some (zeros 32) ∧
    (kcuState none).nextGenOf keyRec1 = some 1 := by
  unfold KcuRuns; decide +kernel

/-- FIPS 197, appendix C.1, by way of R235: ENC of a block under a 128-bit key. -/
theorem test_kcu_enc :
    let key : Bytes := (List.range 16).map fun i => BitVec.ofNat 8 i
    let pt : Bytes := (List.range 16).map fun i => BitVec.ofNat 8 (i * 17)
    aesEnc key pt = [0x69, 0xC4, 0xE0, 0xD8, 0x6A, 0x7B, 0x04, 0x30, 0xD8, 0xCD, 0xB7, 0x80, 0x70, 0xB4, 0xC5, 0x5A] := by decide +kernel

/-- Tile 0 with its GCM lanes on, a loaded entry 2, a session that uses it and a packet that waits. -/
def sess1 : Sess :=
  let d : SessDesc :=
    { session := 6, ipv6 := false, sync := false, strict := false, paths := 1, ports := 1, cls := 1, txEntry := 2, rxEntry := 2, tile := 0, raddr := 0,
      rmac := 0, sportBase := 49152, txLoad := 1, rxLoad := 1, nsid := 1, rnsid := 1 }
  { d := d, fdie := 0, degraded := false, nextMsg := 0, cum := 0, outs := [], queue := [], turn := 0, paths := [], rxLoad := 1, rxCum := 0, ins := [],
    lastPath := 0, ce := 0, ready := [], jrecs := [], jacks := [], seen := [], src := none, dst := none }

def pgTx1 : PgTx := { fdie := 0, session := 6, port := 0, hdr := { PgHdr.blank 1 with session := 6 }, slot := 0, payload := [1, 2] }

def gcm1 : GcmEnt := { key := some (zeros 32), load := 1, ctr := 0 }

def gcmState : State :=
  let s := (State.reset.setFlag (dieC 0) Reg.GCM_CTRL_EN true).setFld (dieC 0) Reg.GCM_CTRL_LANE_EN 1
  { s with pgt := { s.pgt with sess := [(sessKey 0 6, sess1)], tx := [pgTx1] }, keys := { s.keys with gcm := [(gcmKey 0 2, gcm1)] } }

/-- The UDP payload of a packet under that entry, and the port that holds it. -/
def pgBytes : Bytes :=
  let h : PgHdr := { PgHdr.blank 1 with session := 6, plen := 2, iv := gcmState.gcmIv 0 gcm1 }
  h.bytes ++ (gcmEnc (zeros 32) h.iv h.bytes [1, 2]).1 ++ (gcmEnc (zeros 32) h.iv h.bytes [1, 2]).2

/-- Hypotheses of GcmKeysPacketsAndTags: the next load count, and the same again; the packet's fields at their places. -/
theorem test_gcm_hypotheses :
    0 < gcmState.variant.tiles ∧ gcmState.flag (dieC 0) Reg.GCM_CTRL_EN = true ∧ gcmState.keys.gcm.find? (gcmKey 0 2) = some gcm1 ∧
    gcm1.load < 2 % 2 ^ 28 ∧ 1 % 2 ^ 28 ≤ gcm1.load ∧ gcmState.lanes .gcm 0 ≠ 0 ∧
    (gcmState.pgt.tx.find? fun p => (gcmState.sess (sessKey p.fdie p.session)).any fun x => x.d.tile == 0) = some pgTx1 ∧
    gcmState.sess (sessKey 0 6) = some sess1 ∧ pgBytes.length = 58 ∧ (PgHdr.ofBytes pgBytes).ver = 1 ∧ (PgHdr.ofBytes pgBytes).ty = 1 ∧
    (PgHdr.ofBytes pgBytes).plen = 2 ∧ sess1.rxLoad ≤ (PgHdr.ofBytes pgBytes).load := by decide +kernel

/-- A head whose dump reserve has one block, on carrier 0 that takes programs; its journal holds one record. -/
def dumpState : State :=
  let s := (((inHead .solo).setFld (dieM 0) Reg.SFB_ROSTER_ROSTER 1).setCpFld 0 Reg.SFB_PSTAT_UP 1).setCpFld 0 Reg.SFB_PSTAT_ATTACHED 1
  let s := s.setCpFld 0 Reg.SFB_PSTAT_TEMP_OK 1
  { s with ftl := { s.ftl with dumpRes := [0] }, med := { s.med with dies := [(dieKey 0 0, { DieInfo.none with pages := 3 })] },
           jrnl := { s.jrnl with own := [(3, ent1)] } }

/-- The records fit the block's room, so a whole dump leaves all of them (DumpEndsInHoldOrReset). -/
theorem test_dump_blocks :
    dumpState.dumpBlocks = [0] ∧ dumpState.dumpRooms = [65536 - 4224] ∧ (dumpState.jrnl.own.vals.map JEnt.r) = [rec1] ∧
    (packDump dumpState.dumpRooms [rec1]).flatten = [rec1] := by decide +kernel

/-! ## Map cache, flash translation -/

/-- A state with another FTL. -/
def withFtl (s : State) (f : Ftl → Ftl) : State := { s with ftl := f s.ftl }

/-- Block page 5 of NSID 1, its directory entry, and a head whose map caches run with its line. -/
def pid5 : Nat := pageId 1 0 5

def dir5 (c : Nat) : DirEnt := { maddr := 77, crc := c, lsn0 := 0, lsn1 := 0 }

def look5 (miss behind : Bool) : Look :=
  { die := 0, lane := 9, pageid := pid5, entry := 0, tag := 3, cls := 1, miss := miss, behind := behind }

def mapState (l : SMap Line) (looks : List Look) (f : SMap Fill) : State :=
  let s := (State.reset.setFlag (dieM 0) Reg.MAP_CTRL_EN true).setFlag (dieM 1) Reg.MAP_CTRL_EN true
  let s := (s.setFld (dieM 0) Reg.MAP_CTRL_C0_LANES 4).setFld (dieM 1) Reg.MAP_CTRL_C0_LANES 4
  let s := (s.setFld (dieM 0) Reg.MAP_RANGE_HI_PAGEID pid5).setFld (dieM 0) Reg.MAP_CTRL_PIN_WAYS 1
  withFtl s fun x => { x with lines := l, looks := looks, fills := f, dir := [(pid5, dir5 0)], range := [] }

/-- Hypotheses of MapLookupsFillsAndWrites: a valid line, one being filled, none while the lane holds a miss; a good and a bad codeword. -/
theorem test_map_hypotheses :
    let a := mapState [(pid5, Line.fresh)] [] []
    let b := mapState [(pid5, { Line.fresh with v := false, writing := some 77 })] [look5 true false] [(pid5, { cls := 1, again := false, got := some (some [1]) })]
    let c := mapState [] [look5 true false] [(pid5, { cls := 1, again := true, got := some none })]
    a.mapOn (a.mapDie pid5) = true ∧ 0 < a.c0Lanes (a.mapDie pid5) ∧ (a.ftl.looks.any fun y => y.behind && y.die == 0 && y.lane == 9) = false ∧
    a.line pid5 = some Line.fresh ∧ Line.fresh.v = true ∧ (b.line pid5).map Line.v = some false ∧ c.line pid5 = none ∧
    (c.ftl.looks.any fun y => y.miss && y.die == (look5 true false).die && y.lane == (look5 true false).lane) = true ∧
    b.ftl.fills.find? pid5 = some { cls := 1, again := false, got := some (some [1]) } ∧ b.ftl.dir.find? pid5 = some (dir5 0) ∧
    c.ftl.fills.find? pid5 = some { cls := 1, again := true, got := some none } ∧
    (b.line pid5).map Line.writing = some (some (dir5 0).maddr) ∧
    ((b.ftl.range.find? (b.mapDie pid5)).all fun r => !r.todo.contains pid5) = true ∧ mapState [] [] [] ≠ State.reset := by decide +kernel

theorem test_fill_hypotheses :
    let c := (crc32c (padTo 4096 [1])).toNat
    let s := withFtl State.reset fun x => { x with dir := [(pid5, dir5 c)] }
    s.ftl.dir.find? pid5 = some (dir5 c) ∧ (crc32c (padTo 4096 [1])).toNat = (dir5 c).crc := ⟨rfl, rfl⟩

/-- Hypotheses of MapRangeOperations: busy and not; a line that PIN_WAYS still lets be pinned and one that it does not; nothing left to do. -/
theorem test_range_hypotheses :
    let a := mapState [(pid5, Line.fresh)] [] []
    let r := { op := 4, lo := 0, hi := pid5, todo := [], lines := 0, err := 0 }
    let b := (withFtl a fun x => { x with lines := [(pid5 - 2 ^ 23 - 1, { Line.fresh with p := true })] }).setRange 0 r
    let c := withFtl b fun x => { x with lines := (x.lines.insert pid5 Line.fresh) }
    RangeFree a 0 ∧ (a.setFlag (dieM 0) Reg.MAP_RANGE_STATUS_BUSY true).flag (dieM 0) Reg.MAP_RANGE_STATUS_BUSY = true ∧
    ((a.inRange 0).vals.any fun x => x.d) = false ∧ (a.inRange 0).has pid5 = true ∧ Line.fresh.droppable = true ∧
    a.pinnedWays pid5 < min 0xE (a.fld (dieM 0) Reg.MAP_CTRL_PIN_WAYS) ∧ a.pinnedChunkPages = [] ∧ b.ftl.range.find? 0 = some r ∧
    (c.line pid5).any (fun x => x.p || x.rp) = false := by
  unfold RangeFree; decide +kernel

/-- PIN_WAYS reached: with 0, no line may be pinned. -/
theorem test_pin_limit :
    let s := ((mapState [(pid5, Line.fresh)] [] []).setFld (dieM 0) Reg.MAP_CTRL_PIN_WAYS 0).setRange 0 { op := 4, lo := 0, hi := pid5, todo := [pid5], lines := 0, err := 0 }
    min 0xE (s.fld (dieM 0) Reg.MAP_CTRL_PIN_WAYS) ≤ s.pinnedWays pid5 ∧ (s.line pid5).any (fun x => x.p || x.rp) = false ∧
    (s.ftl.range.find? 0).isSome = true := by decide +kernel

/-- The worked example of R274: page 0x91A goes to M0, set 0x0491B, lane 15; page 0x91B to lane 14. -/
theorem test_map_place :
    let s := mapState [] [] []
    let p := 0x100040000000091A
    s.mapDie p = 0 ∧ mapHash p % 2 ^ 20 = 0x0491B ∧ s.mapLane p = 15 ∧ s.mapLane (p + 1) = 14 := by decide +kernel

/-- Segment 3 with six members in a state, an open stripe, a program unit that all six acknowledged, a log page and a record that is durable. -/
def seg3 (st : SegState) : SegDesc :=
  { segid := 3, kind := 0, state := st, width := 4, slc := false, next := 0, stripes := 16, valid := 0, sealedAt := 0, relocAt := 0,
    members := (List.range 6).map fun i => { carrier := i, die := 0, block := 0 } }

def open3 : OpenSeg := { segid := 3, source := none, buf := [1], packs := [], pages := [], since := 0, unit := [] }

def logRec1 : LogRec := { side := 0, lsn := 4, epoch := 0, txn := 0, fin := true, body := .pad 0 }

def ftlState (h : HeadState) (st : SegState) : State :=
  let s := (inHead h).setFlag (dieM 0) Reg.FTL_CTRL_EN true
  let s := withFtl s fun x => { x with
    segs := [(3, seg3 st)], opens := [open3], progs := [(progKey 3 0, { packs := [], pages := [], acks := [0, 1, 2, 3, 4, 5], failed := false })],
    cur := [logRec1], logPages := [(2, { recs := [logRec1], acks := [0, 2], fails := [] })], scans := [], ckpt := none }
  { s with ao := { s.ao with tb := 60 * 10 ^ 9 }, jrnl := { s.jrnl with own := [(3, { ent1 with durable := true, updates := 0 })] } }

/-- Hypotheses of FlashTranslationGoesOn, on both kinds of serving head. -/
theorem test_ftl_hypotheses :
    let s := (ftlState .twin .sealed).setOwners fun _ => 0
    let z := ftlState .solo .reclaim
    (s.ftl.opens.find? fun o => o.segid == 3) = some open3 ∧ open3.since + s.fld (dieM 0) Reg.FTL_CTRL_STRIPE_US * 1000 ≤ s.ao.tb ∧
    s.ftl.segs.find? open3.segid = some (seg3 .sealed) ∧ (s.ftl.progs.find? (progKey 3 0)).isSome = true ∧ (seg3 .sealed).width + 2 ≤ 6 ∧
    s.serving = true ∧ z.serving = true ∧ (seg3 .sealed).segid / 2 ^ 31 = s.side ∧ s.ftl.scans.has 3 = false ∧ z.runs 3 = true ∧
    z.pointBefore ((seg3 .reclaim).relocAt + 100) = false ∧ s.jent 0 3 = some { ent1 with durable := true, updates := 0 } ∧
    s.owner ent1.r.shard = s.side ∧ ((s.jrnl.own).keep fun _ e => s.owner e.r.shard == s.side).keys.head? = some 3 ∧
    s.ftl.curSince + s.fld (dieM 0) Reg.FTL_CTRL_LOG_US * 1000 ≤ s.ao.tb ∧ s.flag (dieM 0) Reg.FTL_CTRL_EN = true ∧ s.ftl.ckpt = none ∧
    bitsAt (BitVec.ofNat 64 (2 ^ 32)) 32 1 = 1 ∧ s.ftl.ckptAt + 60 * 10 ^ 9 ≤ s.ao.tb ∧ pKind pid5 ≠ 7 ∧ 1 ≠ s.side := by decide +kernel

/-- The hypotheses on packs. -/
theorem test_pack_placed_hypotheses : (packState (pack1 .encrypted none)).pack 0 = some (pack1 .encrypted none) ∧ (pack1 .encrypted none).copyOf = none := by
  decide +kernel

/-- A serving head with an erased block on each of six carriers, and the pages of its checkpoint. -/
def ckptState (cps : List Nat) : State :=
  let s := (ftlState .solo .sealed).setFld (dieM 0) Reg.SFB_ROSTER_ROSTER 63
  let s := cps.foldl (fun s c => (((s.setCpFlag c Reg.SFB_PSTAT_UP true).setCpFlag c Reg.SFB_PSTAT_ATTACHED true).setCpFlag c Reg.SFB_PSTAT_TEMP_OK true)) s
  let s := withFtl s fun x => { x with pools := cps.map fun c => (c * 2 ^ 58, 0), opens := [], segs := [] }
  { s with med := { s.med with dies := cps.map fun c => (dieKey c 0, { DieInfo.none with used := true, pages := 64, bpc := 2 }) } }

def ckptPlaced (s : State) : Option State :=
  let b := s.log (.ckptBegin (s.redo 0) (s.redo 1))
  let pgs := pieces 4096 b.sealCkptSeg.ckptBytes
  b.sealCkptSeg.placeCkptPages (((List.range pgs.length).map fun i => pageId 7 s.side i).zip pgs)

/-- Hypotheses of the checkpoint: pages that are placed, and pages that find no blocks. -/
theorem test_ckpt_hypotheses :
    (ckptPlaced (ckptState (List.range 6))).isSome = true ∧ (ckptPlaced (ckptState [])).isNone = true ∧ (ckptState []).ftl.ckpt = none ∧
    (ckptState []).flag (dieM 0) Reg.FTL_CTRL_EN = true := by decide +kernel

/-! ## Sundas fabric, media sequencers, parity -/

/-- A state with other media; port 0 up on lane 0, with sequencer and decoders on, and what its port, its dies and its operations are. -/
def withMed (s : State) (f : Med → Med) : State := { s with med := f s.med }

def portState (tb : Nat) (x : SPort) (f : Med → Med) : State :=
  let s := ((State.reset.setFlag (dieM 0) Reg.SFB_CTRL_EN true).setFlag (dieM 0) Reg.MED_CTRL_EN true).setFlag (dieM 0) Reg.LDP_CTRL_EN true
  let s := (s.setFld (dieM 0) Reg.SFB_CTRL_PORT_EN 1).setCpFlag 0 Reg.SFB_PSTAT_UP true
  let s := withMed (s.setCpFld 0 Reg.SFB_PSTAT_LANES 1) f
  { s.setSport 0 x with ao := { s.ao with tb := tb } }

/-- Header of a frame on VC0 that returns 2 credits of VC1, with the CRC of what it brings. -/
def sfbHdr (seq : Nat) (m : Option SfbIn) : SfbHdr :=
  let h : SfbHdr := { cp := 0, lane := 0, vc := 0, cls := 0, seq := seq, ack := 0, credit := some (1, 2), addr := 0, payload := [], crc := 0 }
  { h with crc := (crc32c (h.bytes m 0)).toNat }

theorem test_sfb_ok (seq : Nat) (m : Option SfbIn) : (sfbHdr seq m).ok m 0 = true ∧ ({ sfbHdr seq m with crc := 2 ^ 32 } : SfbHdr).ok m 0 = false := by
  exact ⟨beq_self_eq_true _, beq_eq_false_iff_ne.mpr (Nat.ne_of_gt (BitVec.isLt _))⟩

/-- R321, R322: the header of a READ on VC1 for class 3, SEQ 0x0102, ACK 0x0304, TAG 5, EPOCH 6, of slot 7 of page 1, at read level 2. -/
theorem test_sfb_header :
    sfbHead (SfbReq.read 0 1 true false 2).code 1 3 0x0102 0x0304 (some (1, 2)) 5 0 6 (7 * 2 ^ 16 + 2 ^ 22) (SfbReq.read 0 1 true false 2).flags 0 0 =
      [0x10, 0x19, 0x02, 0x01, 0x04, 0x03, 0x23, 0, 5, 0, 0, 0, 6, 0, 0, 0, 0, 0, 0x47, 0, 0, 0, 0, 0, 0x21, 0, 0, 0, 0, 0, 0, 0] := by decide +kernel

def tx0 : SfbTx := { seq := 5, frames := 1, vc := 0, cls := 0, tag := 0, epoch := 0, req := .cstatus }

def op0 (req : SfbReq) (why : MedWhy) : MedOp := { cp := 0, req := req, cls := 1, why := why, since := 0 }

def page0 : DiePage :=
  { die := 0, crcOk := true, manuf := [], model := [], uid := [1], planes := 4, planeData := 16384, planeSpare := 2048, pages := 3, blocks := 1, tr := 60,
    tprog := 1, tbers := 1, profileOk := true, bad := [] }

/-- Hypotheses of CarrierPortsAndFrames on frames: in order; ahead; behind; held already; a gap with room; with a credit and without one, for the first and the 16th time. -/
theorem test_sfb_frame_hypotheses :
    let s := portState 5000 SPort.reset id
    let g := portState 5000 { SPort.reset with unacked := [tx0], gapSince := some 4000, ackSince := some 3000, noCredit := List.replicate 15 1,
                                               ahead := [(2, 0, .event 1)], rxCredits := [] } id
    let x := (s.sfbTook (sfbHdr 0 none)).sport 0
    let y := (g.sfbTook (sfbHdr 0 none)).sport 0
    s.sfbUp 0 = true ∧ s.cpFlag 0 Reg.SFB_PSTAT_UP = true ∧ s.cpFlag 0 Reg.SFB_PSTAT_ATTACHED = false ∧ s.sfbUp 1 = false ∧ s.sfbOn 0 = true ∧
    s.flag (cpDie 0) Reg.MED_CTRL_EN = true ∧ seqDist x.rxSeq 0 = 0 ∧ seqDist x.rxSeq 32767 = 32767 ∧ seqDist x.rxSeq 32768 = 32768 ∧ x.ahead = [] ∧
    0 < x.rxCredits.getD 0 0 ∧ y.rxCredits.getD 0 0 = 0 ∧ y.ahead = [(2, 0, .event 1)] ∧ y.unacked = [tx0] ∧
    16 ≤ ((y.noCredit.filter fun t => decide (g.ao.tb < t + 1000000)) ++ [g.ao.tb]).length ∧
    (g.sport 0).gapSince = some 4000 ∧ 4000 + 1000 ≤ g.ao.tb ∧ (g.sport 0).ackSince = some 3000 ∧ 3000 + 2000 ≤ g.ao.tb ∧
    (g.sport 0).unacked = [tx0] ∧ (s.sport 0).lastFrame + 2000 ≤ s.ao.tb ∧ s.cpFld 0 Reg.SFB_PSTAT_LANES / 2 ^ 0 % 2 = 1 ∧
    ((s.sport 0).lanes.getD 1 Lane.fresh).retired = false ∧ g.med.ports.rising = true ∧
    ([] : List DiePage).length ≤ 1024 ∧ 1024 < (List.replicate 1025 page0).length := by decide +kernel

/-- A port that is enabled and lost; a header and its COMPLETE; the epoch report of a CLAIM. -/
theorem test_sfb_down_hypotheses :
    let s := (State.reset.setFlag (dieM 0) Reg.SFB_CTRL_EN true).setFld (dieM 0) Reg.SFB_CTRL_PORT_EN 1
    s.sfbOn 0 = true ∧ s.cpFlag 0 Reg.SFB_PSTAT_UP = false ∧ (sfbHdr 0 none).payload = [] ∧ (zeros 6).length = 6 := by decide +kernel

/-- ACK 0 covers the frame of SEQ 0 and of SEQ 65535 behind it, and not that of SEQ 1. -/
theorem test_ack_window :
    let u := fun (n : Nat) => ((portState 9 { SPort.reset with unacked := [{ tx0 with seq := n }] } id).sfbTook (sfbHdr 0 none)).sport 0
    (u 0).unacked = [] ∧ (u 65535).unacked = [] ∧ (u 1).unacked.length = 1 ∧ (u 1).credits.getD 1 0 = 258 := by decide +kernel

/-- Lanes: 17 errors within 1 ms, and a retired lane that has been clean for 100 ms. -/
theorem test_port_lane_hypotheses :
    let a := portState 1000000 { SPort.reset with lanes := [(0, { errs := List.replicate 17 1, retired := false, cleanSince := 0 })] } id
    let b := portState 100000000 { SPort.reset with lanes := [(0, { errs := [], retired := true, cleanSince := 0 })] } id
    ((a.sport 0).lanes.getD 0 Lane.fresh).retired = false ∧
    16 < (((a.sport 0).lanes.getD 0 Lane.fresh).errs.filter fun t => decide (a.ao.tb < t + 1000000)).length ∧
    (b.sport 0).lanes.find? 0 = some { errs := [], retired := true, cleanSince := 0 } ∧ 0 + 100000000 ≤ b.ao.tb := by decide +kernel

def cw0 (why : CwWhy) (step : Nat) : CwReq :=
  { addr := 0, seg := 0, cls := 1, why := why, ro := false, step := step, best := (0, 0), parts := [], missing := [], deferred := [], since := 0 }

/-- Operations, codewords and dies: a clear, a read, hard and soft bits, a die with a starved erase, and a slow one. -/
theorem test_media_hypotheses :
    let raws : List RawCw := [{ id := 0, cp := 0, raw := [], planes := 1, dec := true }, { id := 1, cp := 0, raw := [], planes := 7, dec := true }]
    let s := portState 1000000000 SPort.reset fun m => { m with
      ops := [(opKey 0 1, op0 (.intentClear 0 0) .clear), (opKey 0 2, op0 (.read 0 1 false true 0) (.read [0])), (opKey 0 3, op0 (.erase 0) .erase)],
      cws := [(0, cw0 .update 0), (1, cw0 (.blankCheck 3) 100)], raws := raws,
      dies := [(dieKey 0 0, { DieInfo.none with used := true, slow := some 0, suspUs := 10 ^ 6 })] }
    let s := s.setCpFlag 0 Reg.SFB_PSTAT_ATTACHED true
    s.med.ops.find? (opKey 0 0) = none ∧ s.med.ops.find? (opKey 0 1) = some (op0 (.intentClear 0 0) .clear) ∧
    (SfbReq.intentClear 0 0).writes = false ∧ (SfbReq.intentClear 0 0).isRead = false ∧
    s.med.ops.find? (opKey 0 2) = some { cp := 0, req := .read 0 1 false true 0, cls := 1, why := .read [0], since := 0 } ∧
    s.med.cws.find? 0 = some (cw0 .update 0) ∧ s.med.cws.find? 1 = some (cw0 (.blankCheck 3) 100) ∧
    (s.med.raws.find? fun x => x.id == 1).map RawCw.dec = some true ∧ (s.med.raws.find? fun x => x.id == 0).map RawCw.dec = some true ∧
    s.flag (cpDie 0) Reg.LDP_CTRL_EN = true ∧ ((s.dieOps (dieKey 0 0)).any fun o => o.req.writes) = true ∧ s.med.starved = [] ∧
    max 1 (s.fld (cpDie 0) Reg.MED_CTRL_STARVE_MS) * 1000 ≤ (s.die (dieKey 0 0)).suspUs ∧ (s.die (dieKey 0 0)).suspAt = none ∧
    (s.die (dieKey 0 0)).slow.isSome = true ∧ s.cpUp 0 = true ∧ (s.die (dieKey 0 0)).probeAt + 10 ^ 9 ≤ s.ao.tb ∧
    (inHead .twin).pair.faulted = none := by decide +kernel

/-- The parts of R313, each at its limit, and one beyond it. -/
theorem test_die_used :
    let r := zeros 32 ++ [3] ++ zeros 479
    (dieOfPage page0 (some r)).used = true ∧ (dieOfPage { page0 with planeSpare := 2047 } (some r)).used = false ∧
    (dieOfPage { page0 with pages := 4096 } (some r)).used = false ∧ (dieOfPage { page0 with pages := 4095, blocks := 1000 } (some r)).used = true := by
  decide +kernel

/-- R344: with C0_DEC 32 and 32 decoders busy with class 1, class 0 takes the next decoder and class 1 none; VC1 keeps 64 credits for class 0. -/
theorem test_c0_reserve :
    let raw := fun (i : Nat) (d : Bool) => ({ id := i, cp := 0, raw := [], planes := 1, dec := d } : RawCw)
    let st := fun (k n : Nat) => (withMed State.reset fun m => { m with
      cws := (List.range 32).map (fun i => (i, cw0 .update 0)) ++ [(40, { cw0 .update 0 with cls := k })],
      raws := (List.range 32).map (fun i => raw i true) ++ [raw 40 false] }).setFld (dieM 0) Reg.LDP_CTRL_C0_DEC n
    let p : SPort := { SPort.reset with credits := [(1, 64)] }
    ((st 0 32).nextDecode (dieM 0)).map (fun x => x.1.id) = some 40 ∧ (st 1 32).nextDecode (dieM 0) = none ∧
    ((st 1 31).nextDecode (dieM 0)).map (fun x => (x.1.id, (st 1 31).rawClass x.1)) = some (40, 1) ∧
    p.canSend { tx0 with vc := 1 } = true ∧ p.canSend { tx0 with vc := 1, cls := 1 } = false := by decide +kernel

/-- A head with a carrier of one die on port 0, whose parity engine runs; its list, replacement, reshape and stripe journal. -/
def parState (lost : Bool) (f : ParU → ParU) : State :=
  let s := (inHead .solo).setFlag (dieM 0) Reg.PAR_CTRL_EN true
  let s := withMed s fun m => { m with dies := [(dieKey 0 0, { DieInfo.none with lost := lost, slow := some 0, pages := 4096 })] }
  let s := withFtl s fun x => { x with segs := [(3, { seg3 .sealed with next := 1 })] }
  { s with ao := { s.ao with tb := 10 ^ 13 }, par := f s.par }

/-- GO of PAR_LOST for die 0 of carrier 0, and for the whole carrier; GO of PAR_RS in both forms, and STOP. -/
theorem test_par_value_hypotheses :
    let go := BitVec.ofNat 64 (2 ^ 63)
    let clear := BitVec.ofNat 64 (2 ^ 63 + 2 ^ 17 + 2 ^ 16)
    bitsAt go 63 1 = 1 ∧ bitsAt go 17 1 = 0 ∧ bitsAt go 16 1 = 0 ∧ bitsAt clear 63 1 = 1 ∧ bitsAt clear 17 1 = 1 ∧ bitsAt clear 16 1 = 1 ∧
    bitsAt (1 : Word) 0 1 = 1 ∧ bitsAt (1 : Word) 2 1 = 0 ∧ bitsAt (5 : Word) 0 1 = 1 ∧ bitsAt (5 : Word) 2 1 = 1 ∧ bitsAt (2 : Word) 1 1 = 1 := by
  decide +kernel

/-- Hypotheses of LossRebuildReshapeAndScrub. -/
theorem test_par_hypotheses :
    let e : SjEnt := { kind := 1, member := 0, seg := 3, dest := 0, stripe := 0, target := 0, time := 0 }
    let r : Rebuild := { seg := 3, repl := [(0, 9)], stripe := 0, parts := [], bad := [], reads := 0, progs := 0, logged := false }
    let rs : Reshape := { vx5 := false, nsid := 1, target := 4, cls := 1, source := none, txn := none, bseg := 0, bstripe := 0, stopped := false }
    let a := parState false id
    let b := parState true fun p => { p with cur := some r, reshape := some rs }
    let c := parState false fun p => { p with sjCur := [e], sjA := some 0, sjB := some 0 }
    (a.med.dies.keys.any fun k => k == dieKey 0 0) = true ∧ (a.med.dies.keys.any fun k => k == dieKey 0 1) = false ∧ a.par.cur = none ∧
    b.par.cur = some r ∧ (b.ftl.segs.find? r.seg).isSome = true ∧ b.med.dies.has (dieKey 0 0) = true ∧ b.med.dies.rising = true ∧
    0 ∈ r.repl.keys ∧ 0 ∉ (b.setDie (dieKey 0 0) { b.die (dieKey 0 0) with lost := false }).lostMembers (seg3 .sealed) ∧
    0 ∈ b.lostMembers (seg3 .sealed) ∧ a.par.winAt + 100000000 ≤ a.ao.tb ∧ (a.die (dieKey 0 0)).slow = some 0 ∧
    (a.die (dieKey 0 0)).evictSent = false ∧ 0 + max 1 (a.fld (dieM 0) Reg.PAR_RB_SLOW_EVICT_S) * 10 ^ 9 ≤ a.ao.tb ∧ c.par.sjCur = [e] ∧
    c.par.sjSince + max 1 (c.fld (dieM 0) Reg.PAR_SJ_INTERVAL_MS) * 1000000 ≤ c.ao.tb ∧
    c.par.sjNext - c.par.sjAt < (c.die (dieOf 0)).pages / max 1 (c.die (dieOf 0)).bpc ∧ b.par.reshape = some rs ∧ a.par.reshape = none ∧
    a.ftl.segs.find? 3 = some { seg3 .sealed with next := 1 } ∧ a.flag (dieM 0) Reg.PAR_CTRL_EN = true ∧
    (a.par.scrubs.any fun x => x.seg == 3 && x.stripe == 0 && x.slot == 15) = false := by decide +kernel

/-- Reshape: 6 carriers suffice for a width of 4, 5 do not; a segment of width 5 is left to reshape. -/
theorem test_reshape_hypotheses :
    let s := fun (n : Nat) => ((parState false id).setFld (dieM 0) Reg.SFB_ROSTER_ROSTER n).setFld (dieM 0) Reg.PAR_RS_TARGET_WIDTH 4
    let r : Reshape := { vx5 := false, nsid := 1, target := 4, cls := 1, source := none, txn := none, bseg := 0, bstripe := 0, stopped := false }
    let t := withFtl (s 63) fun x => { x with segs := [(3, { seg3 .sealed with width := 5 })] }
    (s 31).keptCarriers < 4 + 2 ∧ 4 + 2 ≤ (s 63).keptCarriers ∧ (s 63).reshapeLeft r = [] ∧ t.reshapeLeft r = [3] ∧
    t.flag (dieM 0) Reg.PAR_RS_VX5 = false ∧ max 4 (min 16 ((s 63).fld (dieM 0) Reg.PAR_RS_TARGET_WIDTH)) = 4 := by decide +kernel

/-! ## Front ports and RDMA -/

/-- A head with front port 0 up, its engines on, address 10.0.0.1 active, and what the port holds. -/
def fpState (h : HeadState) (x : Port) : State :=
  let s := ((inHead h).setPortFld 0 Reg.MAC_CFG_EN 1).setPortFld 0 Reg.MAC_STATUS_LINK 1
  let s := ((s.setFlag (dieF 0) Reg.TKO_STATE_LEASE true).setFlag (dieF 0) Reg.RDM_CTRL_EN true).setFlag (dieF 0) Reg.PGT_CTRL_EN true
  let s := (s.setActive (tblKey (dieF 0) 0x10 0 0 0) 0x0A000001).setActive (tblKey (dieF 0) 0x10 0 0 2) 3
  { s.setFport 0 x with ao := { s.ao with tb := 10 ^ 12 } }

/-- An IPv4 frame to 10.0.0.1 with a UDP destination port, and a BTH that names queue pair 9. -/
def udpFrame (tos : Byte) (port : Nat) : Bytes :=
  zeros 12 ++ [8, 0] ++ [0x45, tos] ++ zeros 7 ++ [17] ++ zeros 6 ++ [10, 0, 0, 1] ++ [0, 0] ++ (le 2 port).reverse ++ [0, 28, 0, 0] ++
    [0, 0, 0, 0, 0, 0, 0, 9] ++ zeros 12

/-- Hypotheses of FrontPortsReceiveHoldAndSend on frames: the shortest, one byte less, pause, RoCEv2, an ARP request, and another. -/
theorem test_frame_hypotheses :
    let s := fpState .twin .reset
    let b := udpFrame 3 4791
    let arp : Bytes := zeros 12 ++ [8, 6] ++ zeros 6 ++ [0, 1] ++ zeros 16 ++ [10, 0, 0, 1] ++ zeros 18
    s.portUp 0 = true ∧ (fpState .fawn .reset).portUp 0 = true ∧ (zeros 59).length + 4 < 64 ∧ 64 ≤ (zeros 60).length + 4 ∧
    max 1518 (min 9600 ((s.rxCounted 0 64).portFld 0 Reg.MAC_CFG_MAX_FRAME)) < 9601 ∧
    b.length + 4 ≤ max 1518 (min 9600 ((s.rxCounted 0 (b.length + 4)).portFld 0 Reg.MAC_CFG_MAX_FRAME)) ∧ 64 ≤ b.length + 4 ∧
    (parseFrame (zeros 12 ++ [0x88, 0x08] ++ zeros 46)).etype = 0x8808 ∧ (parseFrame b).etype ≠ 0x8808 ∧
    (s.rxCounted 0 66).destOf 0 (parseFrame b) = some (.roce 9) ∧ (s.rxCounted 0 66).destOf 0 (parseFrame (zeros 60)) = none ∧
    (s.rxCounted 0 66).destOf 0 (parseFrame arp) = some .address ∧ (parseFrame b).tos.any (fun t => t.2 == 3) = true ∧
    (s.portCount 0 8 1).flag (portDie 0) Reg.RDM_CTRL_EN = true ∧
    (s.rxCounted 0 66).destOf 0 (parseFrame (udpFrame 0 (s.fld (dieF 0) Reg.PGT_CTRL_UDP_PORT))) =
      some (.pronghorn false 28 [0, 0, 0, 0, 0, 0, 0, 9, 0, 0, 0, 0, 0, 0, 0, 0, 0, 0, 0, 0]) ∧ s.flag (portDie 0) Reg.PGT_CTRL_EN = true := by
  decide +kernel

/-- A filter of port 0 that takes every frame in FAWN, and none. -/
theorem test_filter_hypotheses :
    let off := fpState .fawn .reset
    let v := 2 ^ Reg.PAT_DATA_VALID.lo + 2 ^ Reg.PAT_DATA_PORTS.lo + 2 ^ Reg.PAT_DATA_IN_FAWN.lo + 0xFFFF * 2 ^ Reg.PAT_DATA_CHECK.lo
    let on := (off.setFlag (dieF 0) Reg.PAT_CTRL_EN true).setActive (tblKey (dieF 0) 0x18 0 5 1) (BitVec.ofNat 64 v)
    ((List.range 128).find? fun e => off.flag (portDie 0) Reg.PAT_CTRL_EN && off.patMatch 0 e (zeros 60)) = none ∧
    ((List.range 128).find? fun e => on.flag (portDie 0) Reg.PAT_CTRL_EN && on.patMatch 0 e (zeros 60)) = some 5 := by decide +kernel

/-- Hypotheses on pools, pause, transmission and links: the lossy pool at its last room and beyond it; a priority held and stormed. -/
theorem test_port_hypotheses :
    let f : TxFrame := { cls := 0, control := false, size := 64, qp := none, adopted := false, ip := true, who := none }
    let a := fpState .solo { Port.reset with xoff := some 0, hold := [(3, 10 ^ 12, 0)], storm := [(4, 0)], sending := some f, downAt := some 0 }
    let b := fpState .solo { Port.reset with txq := [f], rx := [(.address, .lossless, 4 * 2 ^ 20)] }
    let c := (b.setPortFld 0 Reg.MAC_CFG_PAUSE 2).setPortFld 0 Reg.MAC_PFC_STORM_MS 1
    let d := fpState .solo { Port.reset with hold := [(3, 10 ^ 12 + 1, 0)], xoff := some 0, rx := [(.address, .lossless, 4 * 2 ^ 20)] }
    a.mayTransmit = true ∧ (a.fport 0).xoff = some 0 ∧ (a.fport 0).used .lossless ≤ a.xonBytes 0 ∧ d.xonBytes 0 < (d.fport 0).used .lossless ∧
    0 + d.quanta 0 0xFFFF / 2 ≤ d.ao.tb ∧ c.pauseMode 0 = 2 ∧ ((a.setPortFld 0 Reg.MAC_CFG_PAUSE 1).portCount 0 7 1).pauseMode 0 = 1 ∧
    (c.fport 0).xoff = none ∧ c.portFld 0 Reg.MAC_PFC_XOFF_KIB * 1024 ≤ (c.fport 0).used .lossless ∧ c.mayTransmit = true ∧
    (a.fport 0).hold.find? 3 = some (10 ^ 12, 0) ∧ 10 ^ 12 ≤ a.ao.tb ∧ (d.fport 0).hold.find? 3 = some (10 ^ 12 + 1, 0) ∧
    c.portFld 0 Reg.MAC_PFC_STORM_MS * 10 ^ 6 ≤ d.ao.tb ∧ (a.fport 0).storm.find? 4 = some 0 ∧ 0 + 10 ^ 8 ≤ a.ao.tb ∧ (a.fport 0).sending = some f ∧
    a.hasLink 0 = true ∧ a.txStopped 0 f = false ∧ (b.fport 0).sending = none ∧
    ((b.fport 0).txq.any fun f => !f.control && f.cls == 0 && !b.txStopped 0 f && !(b.fport 0).waits b.ao.tb f) = true ∧ (b.fport 0).txq.any TxFrame.control = false ∧
    (b.fport 0).held b.ao.tb (b.prioOf 0 0) = false ∧ 0 ∈ b.fps ∧ b.portFld 0 Reg.MAC_CFG_EN = 1 ∧ State.reset.hasLink 0 = false ∧
    (fpState .fawn .reset).mayTransmit = false ∧ (a.fport 0).downAt = some 0 ∧ (b.leaveRx 0 .address).isActiveAddr 0 1 0x0A000001 = true := by decide +kernel

/-- R447, R448, R158: at 10 Mb/s 1,000 bytes take 800 us, for class 0 nothing is held back; a handover stops the frames of its ports, a handback the adopted ones. -/
theorem test_tx_limits :
    let f : TxFrame := { cls := 1, control := false, size := 1000, qp := none, adopted := false, ip := true, who := some (.qp 9) }
    let q : Qp := { hostQp with cc := { hostQp.cc with rate := 10 } }
    let s := (fpState .twin .reset).setQp 9 q
    let t := fun (l : List Nat) => { s with pair := { s.pair with giving := some (1, [0], l) } }
    s.qp 9 = some q ∧ q.cc.rate < s.lineRate 0 ∧ s.gap 0 f = some (.qp 9, s.ao.tb + 800000) ∧ s.gap 0 { f with cls := 0 } = none ∧
    (t [1]).txStopped 0 f = true ∧ (t []).txStopped 0 f = false ∧ (t []).txStopped 0 { f with adopted := true } = true := by decide +kernel

/-- The pools of R421 take a frame of MAX_FRAME bytes that just fits, not one that does not; so for class 0. -/
theorem test_pool_hypotheses :
    let size := (fpState .solo .reset).poolSize 0 .lossy - (fpState .solo .reset).maxFrame 0
    let c0 := (fpState .solo .reset).poolSize 0 .c0
    let a := fpState .solo { Port.reset with rx := [(.address, .lossy, size)] }
    let b := fpState .solo { Port.reset with rx := [(.address, .lossy, size + 1), (.address, .c0, c0)] }
    let q := fun (s : State) => s.setQp 9 { hostQp with pinned := true }
    (a.fport 0).used .lossy + a.maxFrame 0 ≤ a.poolSize 0 .lossy ∧ b.poolSize 0 .lossy < (b.fport 0).used .lossy + b.maxFrame 0 ∧
    ((q a).qp 9).any Qp.pinned = true ∧ (a.qp 9).any Qp.pinned = false ∧
    ((fpState .solo .reset).setPortFld 0 Reg.MAC_BUF_C0_KIB 64).poolSize 0 .c0 = 65536 ∧ b.poolSize 0 .c0 < (b.fport 0).used .c0 + b.maxFrame 0 := by
  decide +kernel

/-- A queue pair of port 0, and a head that holds it. -/
def qp0 : Qp := { hostQp with fdie := 0, e := { hostQp.e with port := 0 } }

def roceState (f : Qp → Qp) : State := (fpState .twin .reset).setQp 9 (f qp0)

def roceHdr (ip : BitVec 128) (psn : Nat) : RoceHdr :=
  { port := 0, icrcOk := true, srcIp := ip, srcPort := 0, ce := false, qpn := 9, psn := psn, opOk := true }

/-- Hypotheses of RocePacketsAndRates: the window from the expected PSN, its last PSN and the first beyond, a duplicate; retries left and none. -/
theorem test_roce_hypotheses :
    let s := roceState id
    let rd : SentPkt := { psn := 20, n := 1, kind := .readReq 7 2 [1] }
    RoceReaches s (roceHdr 0 8) qp0 ∧ qp0.error = false ∧ (roceState fun q => { q with error := true }).qp 9 = some { qp0 with error := true } ∧
    (roceHdr 0 8).srcIp = qp0.e.dstIp ∧ (roceHdr 1 8).srcIp ≠ qp0.e.dstIp ∧ State.reset.qp 9 = none ∧
    psnDist qp0.epsn 8 = 0 ∧ min 0x40 (s.fld (dieF qp0.fdie) Reg.RDM_CTRL_REORDER_PKTS) = 32 ∧ psnDist qp0.epsn 39 = 31 ∧ psnDist qp0.epsn 40 = 32 ∧
    2 ^ 23 ≤ psnDist qp0.epsn 7 ∧ psnBefore qp0.ackSent 7 = false ∧ qp0.held.has 39 = false ∧ s.heldPkts qp0.fdie < 4096 ∧ true ≠ qp0.asm.isSome ∧
    ({ qp0 with sent := [rd] } : Qp).reading = some (rd, 7, ([1] ++ [2] : Bytes).length, [1]) ∧ ([2] : Bytes).length ≤ qp0.e.mtu ∧
    ¬ qp0.e.rnrRetries ≤ qp0.rnr + 1 ∧ qp0.e.retries ≤ 2 + 1 ∧ qp0.retries + 1 < qp0.e.retries ∧ qp0.probes = 0 := by
  unfold RoceReaches; decide +kernel

theorem test_rate_hypotheses :
    let s := roceState fun q => { q with fetching := true, onDie := false, cc := { q.cc with rate := 10 } }
    let q := { qp0 with fetching := true, onDie := false, cc := { qp0.cc with rate := 10 } }
    let f := fun (f : Fld) => s.fld (dieF 0) f * 1000
    s.qp 9 = some q ∧ (s.rdmCount 0 5 1).ccExempt q = false ∧ ((s.setFlag (dieF 0) Reg.RDM_CC_C0_EXEMPT true).rdmCount 0 5 1).ccExempt
      { q with e := { q.e with cls := 0 } } = true ∧
    q.cc.lastDec + f Reg.RDM_CC_DEC_US ≤ s.ao.tb ∧ max q.cc.lastAlpha (q.cc.lastCnp.getD 0) + f Reg.RDM_CC_ALPHA_US ≤ s.ao.tb ∧
    max q.cc.lastDec q.cc.lastInc + f Reg.RDM_CC_INC_US ≤ s.ao.tb ∧ q.cc.rate < s.lineRate q.fp ∧ 0 + f Reg.RDM_CTRL_REORDER_US ≤ s.ao.tb ∧
    q.lastTx + 4096 * 2 ^ q.e.timeout ≤ s.ao.tb ∧ gcmState.sess (sessKey 0 6) = some sess1 := by decide +kernel

/-- The exported part of a queue pair of MTU 1,024 with one READ, from its 128 bytes (R442). -/
def qpPart : Bytes := zeros 51 ++ [1] ++ zeros 76

/-- Hypotheses of QueuePairsByCommand. -/
theorem test_qp_command_hypotheses :
    let s := { roceState id with mem := [(ddrBase + 51, 1)] }
    let f := { State.reset with rdma := { State.reset.rdma with freed := [(0, 0)] }, ao := { State.reset.ao with tb := 10 ^ 12 } }
    0 < s.variant.sides ∧ (QpExport.ofBytes (s.loads ddrBase 128)).isSome = true ∧ (QpExport.ofBytes qpPart).isSome = true ∧
    QpExport.ofBytes (s.loads (ddrBase + 4096) 128) = none ∧ (s.rdma.qps.vals.filter fun q => q.fdie == 0 && qpSide q.e.qpn == s.side).length < 65536 ∧
    s.ctxFree 0 0 = true ∧ s.qp 9 = some qp0 ∧ s.qp 8 = none ∧ f.rdma.freed.find? (0 * 65536 + 0) = some 0 ∧
    0 + max 1 (f.fld (dieF 0) Reg.RDM_REUSE_REUSE_MS) * 10 ^ 6 ≤ f.ao.tb ∧ 0 + max 1 (f.portFld 0 Reg.MAC_LINK_DOWN_MS) * 10 ^ 6 ≤ f.ao.tb ∧
    f.hasLink 0 = false := by decide +kernel

/-! ## Snapshots and replication -/

/-- Session 6 of F-die 0 for the replica NSID 1, with messages delivered, and a head that holds it; a packet of a type and load count. -/
def replState (x : Sess) (h : HeadState) : State :=
  let s := (fpState h .reset).setFlag (dieM 0) Reg.FTL_CTRL_EN true
  let n := { NsRec.fresh false 1000 1 false with replica := true, snaps := [(4, { epoch := 9, state := .pending, side := 0 })] }
  { s with pgt := { s.pgt with sess := [(sessKey 0 6, x)] }, arr := { s.arr with nss := [(1, n)] } }

def rx1 (ty load msgno plen : Nat) (pay : Bytes) : PgRx :=
  { fdie := 0, port := 0, ce := false, payload := pay,
    hdr := { PgHdr.blank ty with session := 6, msgno := msgno, mlen := 2000, plen := plen, iv := be 4 load ++ zeros 8 } }

def withRx (s : State) (p : PgRx) : State := { s with pgt := { s.pgt with rx := [p] } }

/-- Hypotheses of PronghornPacketsAndSessions on packets: of each type, of this load count, a later and an earlier one; DATA that is well
formed and not. -/
theorem test_pg_packet_hypotheses :
    let s := fun (ty load : Nat) => withRx (replState sess1 .twin) (rx1 ty load 0 1024 [])
    PacketFor (s 1 1) 0 1 (rx1 1 1 0 1024 []) sess1 ∧ PacketFor (s 2 2) 0 2 (rx1 2 2 0 1024 []) sess1 ∧ PacketFor (s 3 0) 0 3 (rx1 3 0 0 1024 []) sess1 ∧
    PacketFor (s 4 1) 0 4 (rx1 4 1 0 1024 []) sess1 ∧ (rx1 1 0 0 1024 []).hdr.load < sess1.rxLoad ∧ sess1.rxLoad ≤ (rx1 1 1 0 1024 []).hdr.load ∧
    sess1.rxLoad < (rx1 1 2 0 1024 []).hdr.load := by
  unfold PacketFor; decide +kernel

def dataState : State := (replState sess1 .twin).setFld (dieF 0) Reg.PGT_CFG_PAYLOAD 1024

theorem test_pg_data_hypotheses :
    DataOk dataState sess1 (rx1 1 1 0 1024 []).hdr ∧ DataOk dataState sess1 (rx1 1 1 255 1024 []).hdr ∧ ¬ DataOk dataState sess1 (rx1 1 1 256 1024 []).hdr ∧
    DataOk dataState { sess1 with rxCum := 1 } (rx1 1 1 256 1024 []).hdr ∧ DataOk dataState { sess1 with rxCum := 1 } (rx1 1 1 0 1024 []).hdr ∧
    ¬ DataOk dataState sess1 (rx1 1 1 0 1023 []).hdr ∧ ({ mlen := 2000, slots := [(0, [])], got := 0, newAt := 0, bad := 0 } : PgIn).slots.has 0 = true ∧
    dataState.rxBytes 0 + 2000 ≤ dataState.fld (dieF 0) Reg.PGT_CFG_RXBUF_MIB * 2 ^ 20 ∧
    ((dataState.setFld (dieF 0) Reg.PGT_CFG_RXBUF_MIB 0).fld (dieF 0) Reg.PGT_CFG_RXBUF_MIB) * 2 ^ 20 < dataState.rxBytes 0 + 2000 ∧ sess1.ins.find? 0 = none := by
  refine ⟨?_, ?_, ?_, ?_, ?_, ?_, ?_⟩ <;> (try simp only [DataOk]) <;> decide +kernel

/-- The rest of its hypotheses: a snapshot that may become READY; an ACK; a message out whose time has come; a path in quarantine. -/
theorem test_pg_session_hypotheses :
    let m : PgOut := { bytes := [1], left := 0, sentAt := some 0, heardAt := 0, slotPath := [(0, 0)] }
    let i : PgIn := { mlen := 2000, slots := [], got := 0, newAt := 0, bad := 0 }
    let x := { sess1 with outs := [(0, m)], ins := [(0, i)], paths := [(0, { bad := 7, quar := none, cc := Cc.fresh 0 0 }), (1, { bad := 0, quar := some 0, cc := Cc.fresh 0 0 })] }
    let s := replState x .twin
    (s.findSnap 4).map (fun y => (y.1, y.2.2.state)) = some (1, .pending) ∧ s.serving = true ∧ s.snapSettled 1 { epoch := 9, state := .pending, side := 0 } = true ∧
    (rx1 2 1 0 0 (zeros 36)).payload.length = 36 ∧ beAt (rx1 2 1 0 0 (zeros 36)).payload 0 4 ≤ x.nextMsg ∧ x.outs.find? 0 = some m ∧ x.ins.find? 0 = some i ∧
    s.sess (sessKey 0 6) = some x ∧ i.newAt + s.fld (dieF 0) Reg.PGT_CFG_NACK_US * 1000 ≤ s.ao.tb ∧
    max 0 m.heardAt + s.fld (dieF x.fdie) Reg.PGT_CFG_RTO_US * 1000 ≤ s.ao.tb ∧ (s.path x 0).quar = none ∧ 8 ≤ (s.path x 0).bad + 1 ∧
    (s.path x 2).bad + 1 < 8 ∧ x.paths.find? 1 = some { bad := 0, quar := some 0, cc := Cc.fresh 0 0 } ∧ 0 + 10 ^ 8 ≤ s.ao.tb := by decide +kernel

/-- Session descriptors: one that reads, for session 6 and for session 0, and one that does not. -/
theorem test_session_command_hypotheses :
    let s := { replState sess1 .twin with mem := [(ddrBase, 6), (ddrBase + 5, 1), (ddrBase + 6, 1), (ddrBase + 7, 1), (ddrBase + 4101, 1), (ddrBase + 4102, 1), (ddrBase + 4103, 1)] }
    0 < s.variant.sides ∧ s.readDesc (ddrBase + 8192) = none ∧ (s.readDesc ddrBase).map SessDesc.session = some 6 ∧
    (s.readDesc (ddrBase + 4096)).map SessDesc.session = some 0 ∧ (s.sess (sessKey 0 6)).isSome = true ∧ s.sess (sessKey 0 0) = none := by decide +kernel

/-- A record in a JREC message, and a message of a kind for an NSID. -/
def repMsg (kind nsid : Nat) (b : Bytes) : Bytes := repHead kind 5 nsid 1 ++ b

def batch5 (held : Bool) : DstBatch := { batch := 5, fps := [], items := [], asked := [], held := held, commit := false, snap := none }

def cycle5 : SrcCycle := { batch := 5, prev := none, cur := 4, listed := true, fps := [], maps := [], mapsSent := true, want := none, parts := [] }

def replSess (kind : Nat) (b : Bytes) : Sess :=
  { sess1 with ready := [repMsg kind 1 b], dst := some (batch5 false), src := some cycle5, jrecs := [(3, 0)] }

def MessageAt (kind : Nat) (r : Bool) : Prop :=
  MessageFor (replState (replSess kind []) .twin) 0 6 kind r (replSess kind []) (repMsg kind 1 []) []

/-- Hypotheses of ReplicationMessagesHaveTheirEffects: each kind, and one for another namespace. -/
theorem test_repl_hypotheses :
    MessageAt 1 true ∧ MessageAt 2 false ∧ MessageAt 3 true ∧ MessageAt 4 true ∧ MessageAt 5 true ∧ MessageAt 6 false ∧ MessageAt 7 true ∧
    MessageAt 8 false ∧ leAt (repMsg 1 2 []) 8 4 ≠ sess1.d.nsid ∧
    leAt (repMsg 2 2 []) 8 4 ≠ sess1.d.rnsid ∧ (batch5 false).batch = leAt (repMsg 3 1 []) 4 4 ∧ cycle5.batch = leAt (repMsg 2 1 []) 4 4 ∧
    ((replState sess1 .twin).ns 1).isSome = true ∧ JRec.ofBytes ((repMsg 7 1 []).drop 16) = none := by
  simp only [MessageAt, MessageFor, if_true, Bool.false_eq_true, if_false]; decide +kernel

/-- The 124 bytes of its header before the CRC, in four parts, and the CRC after each, so that the kernel has little to evaluate at once. -/
def jrec1 : Bytes := [49, 74, 88, 86, 1, 4, 0, 0, 0, 0, 1, 0, 0, 0, 0, 0, 3] ++ zeros 14
def jrec2 : Bytes := [0, 1, 0, 0, 0, 0, 1] ++ zeros 24
def jrec3 : Bytes := [0, 0, 0, 0, 0, 0, 0, 0, 0, 0, 8] ++ zeros 20
def jrec4 : Bytes := zeros 31

theorem test_jrec_crc : crc32c (jrec1 ++ jrec2 ++ jrec3 ++ jrec4) = 1144779697#32 := by
  have h1 : jrec1.foldl (crcByte 0x82F63B78#32) (BitVec.allOnes 32) = 2347696776#32 := by decide +kernel
  have h2 : jrec2.foldl (crcByte 0x82F63B78#32) 2347696776#32 = 425390790#32 := by decide +kernel
  have h3 : jrec3.foldl (crcByte 0x82F63B78#32) 425390790#32 = 1971510678#32 := by decide +kernel
  have h4 : jrec4.foldl (crcByte 0x82F63B78#32) 1971510678#32 = 3150187598#32 := by decide +kernel
  unfold crc32c
  rw [List.foldl_append, List.foldl_append, List.foldl_append, h1, h2, h3, h4]
  decide

/-- The record in the bytes of a JREC message. -/
theorem test_jrec_read : JRec.ofBytes (jrec1 ++ jrec2 ++ jrec3 ++ jrec4 ++ le 4 1144779697) = some rec0 := by
  have hb : (jrec1 ++ jrec2 ++ jrec3 ++ jrec4 ++ le 4 1144779697).take 124 ++ (jrec1 ++ jrec2 ++ jrec3 ++ jrec4 ++ le 4 1144779697).drop 128 =
    jrec1 ++ jrec2 ++ jrec3 ++ jrec4 := by decide +kernel
  simp only [JRec.ofBytes, hb, test_jrec_crc]
  decide +kernel

theorem test_jrec_hypotheses :
    let x := replSess 7 (jrec1 ++ jrec2 ++ jrec3 ++ jrec4 ++ le 4 1144779697)
    let s := (replState x .solo).setFlag (dieM 0) Reg.FTL_JOURNAL_DUMP_READY true
    let s := s.setFld (dieM 0) Reg.SFB_ROSTER_ROSTER 7
    let s := [0, 1, 2].foldl (fun (s : State) cp => ((s.setCpFlag cp Reg.SFB_PSTAT_UP true).setCpFlag cp Reg.SFB_PSTAT_ATTACHED true).setCpFlag cp
      Reg.SFB_PSTAT_TEMP_OK true) s
    let blk := fun (cp : Nat) => (maddr cp 0 5 0 0 0, { recs := [], next := 0 })
    let s := withFtl s fun y => { y with jblks := [blk 0, blk 1, blk 2] }
    let s := withMed (s.setFlag (dieM 0) Reg.FTL_CTRL_EN true) fun m => { m with dies := [0, 1, 2].map fun c => (dieKey c 0, { DieInfo.none with used := true, pages := 64 }) }
    (x.ready.headD []).drop 16 = jrec1 ++ jrec2 ++ jrec3 ++ jrec4 ++ le 4 1144779697 ∧ s.serving = true ∧ s.roomFor 1 rec0.size (s.soloMedia) = true ∧
    s.jrecSeen x rec0.jtag = false ∧ s.jrecSeen { x with seen := [(rec0.jtag, s.ao.tb)] } rec0.jtag = true ∧
    0 + max 1 (s.fld (dieF 0) Reg.PGT_CFG_SYNC_MS) * 10 ^ 6 ≤ s.ao.tb ∧ x.jrecs.find? 3 = some 0 ∧ (batch5 true).held = true := by decide +kernel

/-! ## The content search arrays -/

/-- An S-die whose array runs, with a FILTER, an ORDERED (SHIFT_MAX 1) and a CLASSIFY partition of one bank each, in banks 0 to 2. -/
def csaState (c : Csa) : State :=
  let s := (inHead .solo).setFlag (dieS 0) Reg.CSA_STATUS_READY true
  let s := s.setActive (tblKey (dieS 0) 0x40 0 0 0) (BitVec.ofNat 64 (1 + 8 + 2 ^ 16))
  let s := s.setActive (tblKey (dieS 0) 0x40 0 1 0) (BitVec.ofNat 64 (1 + 2 + 16 + 2 ^ 8 + 2 ^ 16 + 2 ^ 25 + 2 ^ 32))
  (s.setActive (tblKey (dieS 0) 0x40 0 2 0) (BitVec.ofNat 64 (1 + 4 + 2 ^ 9 + 2 ^ 16))).setCsa 0 c

def part1 (purpose width first : Nat) : CsaPart := { purpose := purpose, width := width, first := first, banks := 1, hole := 2, shift := 1 }

/-- An entry of the ordered index with this key, and one of CLASSIFY. -/
def ordEnt (k : Nat) : CsaEnt := { val := k * 2 ^ 173, mask := 2 ^ 320 - 1, rank := 0, assoc := k }
def clsEnt (v rank : Nat) : CsaEnt := { val := v, mask := 2 ^ 80 - 1, rank := rank, assoc := 0 }

def ordCsa (l : List (Nat × Nat)) : Csa := { Csa.none with ents := l.map fun x => (32768 + x.1, ordEnt x.2) }

/-- Hypotheses of SearchArrayCommands. -/
theorem test_csa_hypotheses :
    let a := csaState { Csa.none with ents := [(65536, clsEnt 5 1), (98303 - 1, clsEnt 5 1)] }
    let b := a.setFlag (dieS 0) Reg.CSA_RESULT_BUSY true
    CsaRuns a 0 ∧ a.csaPart 0 0 = some (part1 0 1 0) ∧ a.csaPart 0 1 = some (part1 1 2 1) ∧ a.csaPart 0 2 = some (part1 2 0 2) ∧ a.csaPart 0 3 = none ∧
    b.variant.populated (dieS 0) = true ∧ b.csaFlag 0 Reg.CSA_STATUS_READY = true ∧ b.csaFlag 0 Reg.CSA_RESULT_BUSY = true ∧
    (part1 2 0 2).holds 65535 = false ∧ (part1 2 0 2).holds 65536 = true ∧ (part1 2 0 2).holds 98303 = true ∧ (part1 2 0 2).holds 98304 = false ∧
    (a.csaOf 0).ents.find? 65536 = some (clsEnt 5 1) ∧ (a.csaOf 0).ents.find? 65537 = none ∧ (a.csaOf 0).ents.rising = true ∧ a.Ordered := by
  unfold CsaRuns State.Ordered
  decide +kernel

/-- R497: of two matching entries the first read out has an uncorrectable error: it is invalidated, and the search answers the other, corrected. -/
theorem test_csa_ecc :
    let ecc := [(65536, false), (65537, true)]
    let s := csaState { Csa.none with ents := [(65536, clsEnt 0 2), (65537, clsEnt 0 1)] }
    let t := after (.csaSearch 0 2 ecc) s
    ecc.lookup 65536 = some false ∧ ecc.lookup 65537 = some true ∧ ecc.lookup 65538 = none ∧ (s.csaOf 0).ents.rising = true ∧
    (t.csaOf 0).ents.keys = [65537] ∧ t.fld (dieS 0) Reg.CSA_RESULT_ADDR = 65537 ∧ t.flag (dieS 0) Reg.CSA_RESULT_HIT = true ∧
    t.fld (dieS 0) (Reg.CSA_CNT_COUNT.plus 48) = 1 ∧ t.fld (dieS 0) (Reg.CSA_CNT_COUNT.plus 56) = 1 := by decide +kernel

/-- R504: of two entries of one rank the lower address is found; R505: the highest entry not above the key. -/
theorem test_csa_hits :
    bestHit [(3, clsEnt 5 1), (4, clsEnt 6 2), (9, clsEnt 7 2)] = some (4, clsEnt 6 2) ∧
    floorHit [(3, ordEnt 5), (4, ordEnt 6), (9, ordEnt 8)] (7 * 2 ^ 173) = some (4, ordEnt 6) ∧ floorHit [(3, ordEnt 5)] (4 * 2 ^ 173) = none := by
  decide +kernel

/-- Hypotheses of FilterAndOrderedIndexOperations: the same key, room after the floor, a hole above, one below, and none. -/
theorem test_filter_and_index_hypotheses :
    let p := part1 1 2 1
    let look := fun (l : List (Nat × Nat)) (k : Nat) =>
      let s := csaState (ordCsa l)
      let f := (floorHit (s.csaEnts 0 p) (k * 2 ^ 173)).map fun x => p.pos x.1
      let next := (f.map fun n => n + 1).getD 0
      let hole := fun n => !(s.csaOf 0).ents.has (p.addr n)
      (decide ((List.find? (fun x => ordKey x.2.val == k) (s.csaEnts 0 p)).isSome = true), hole next,
        (List.range (p.shift + 1)).find? fun k => decide (0 < k) && decide (next + k < p.positions) && hole (next + k),
        f.bind fun f => (List.range (p.shift + 1)).find? fun k => decide (0 < k) && decide (k ≤ f) && hole (f - k))
    let s := csaState { Csa.none with spread := [1] }
    CsaHas s 0 0 0 (part1 0 1 0) ∧ CsaHas s 0 1 1 p ∧ 1 ∈ (s.csaOf 0).spread ∧
    (csaState (ordCsa [(0, 4)])).csaFull 0 p = false ∧ 1 ∉ ((csaState (ordCsa [(0, 4)])).csaOf 0).spread ∧
    look [(0, 4)] 4 = (true, true, some 1, none) ∧ look [(0, 4), (2, 9)] 5 = (false, true, none, none) ∧
    look [(0, 4), (1, 9)] 5 = (false, false, some 1, none) ∧ look [(1, 3), (2, 9), (3, 11)] 5 = (false, false, none, some 1) ∧
    look [(0, 3), (1, 9), (2, 11)] 5 = (false, false, none, none) ∧ s.csa.rising = true := by
  unfold CsaHas
  decide +kernel

/-- R508: INSERT_RING removes an equal entry and writes at the ring pointer; R515: an entry moves up one position. -/
theorem test_csa_results :
    let s := csaState { ents := [(7, { val := 5, mask := 2 ^ 160 - 1, rank := 0, assoc := 0 })], ring := [(0, 16383)], spread := [], slots := [], kept := [] }
    let t := (after (.insertRing false 0 0 5 77) s).csaOf 0
    t.ents.keys = [16383] ∧ t.ring.getD 0 0 = 0 ∧ t.slots = [(16383, 77)] ∧
    ((after (.ordInsert false 0 1 (5 * 2 ^ 173) 5) (csaState (ordCsa [(0, 4), (1, 9)]))).csaOf 0).ents = (ordCsa [(0, 4), (1, 5), (2, 9)]).ents := by
  decide +kernel

/-! ## The digest engines -/

/-- The B-die's engine and that of tile 0, running, with clear keys and one HMAC-SHA-256 key in slot 0 of the B-die. -/
def dgeState (die : Nat) (cfg : Nat) (l : List (Nat × DgeSes)) : State :=
  let s := (inHead .solo).setFlag die Reg.DGE_CTRL_EN true
  let s := (s.setFlag die Reg.DGE_CTRL_CLEAR_KEY_EN true).setReg die 0x37 0x1000 (BitVec.ofNat 64 cfg)
  { s with keys := { s.keys with slots := [(0, { alg := 9, icv := zeros 32, ocv := zeros 32 })], dge := l.map fun x => (dgeKey die x.1, x.2) } }

/-- A session of SHA-256, with DECL_EN, that has 3 bytes of the 5 declared. -/
def ses1 (pad : Bool) : DgeSes :=
  { cfg := BitVec.ofNat 64 (0x21 + if pad then 0x10 else 0), decl := 5, st := zeros 32, ocv := [], buf := [1, 2, 3], count := 3, trunc := false,
    short := false, tapFault := false, armed := none, feed := none, finish := false, ending := false }

def fedSes : DgeSes := { ses1 true with feed := some (64, 2), finish := true }
def tapSes : DgeSes := { ses1 true with armed := some (0, 0) }
def doneSes : DgeSes := { ses1 true with ending := true }

/-- Hypotheses of DigestSessionsAndResults about START: allowed; a bad ALG, PAD without DECL_EN, a bad OUTLEN, an open session. -/
theorem test_dge_start_hypotheses :
    let ok := dgeState 0 0x1 []
    ok.dgeOn 0 0 = true ∧ ¬ StartBad ok 0 0 ∧ StartBad (dgeState 0 0x8 []) 0 0 ∧ StartBad (dgeState 0 0x11 []) 0 0 ∧
    StartBad (dgeState 0 0x410007 []) 0 0 ∧ StartBad (dgeState 0 0x1 [(0, ses1 true)]) 0 0 ∧ ¬ StartBad (dgeState 0 0x10A []) 0 0 ∧
    ¬ StartBad (dgeState 0 0x1 [(1, ses1 true)]) 0 0 := by
  refine ⟨by decide +kernel, ?_, ?_, ?_, ?_, ?_, ?_, ?_⟩ <;> simp only [StartBad] <;> decide +kernel

/-- An unkeyed algorithm is not keyless, HMAC-SHA-384 with an empty slot is; a result slot free, and one that another session names. -/
theorem test_dge_start_slots :
    ¬ StartKeyless (dgeState 0 0x1 []) 0 0 ∧ ¬ StartTaken (dgeState 0 0x1 []) 0 0 ∧ StartKeyless (dgeState 0 0x10A []) 0 0 ∧
    ¬ StartKeyless (dgeState 0 0x1 [(1, ses1 true)]) 0 0 ∧ StartTaken (dgeState 0 0x1 [(1, ses1 true)]) 0 0 := by
  have free : ∀ n, (dgeState 0 0x1 []).dge 0 n = none := fun _ => rfl
  refine ⟨fun h => absurd h.1 (by decide +kernel), ?_, ⟨by decide +kernel, ?_⟩, fun h => absurd h.1 (by decide +kernel), .inr ⟨1, ses1 true, ?_⟩⟩
  · rintro (h | ⟨n, y, -, -, h, -⟩)
    · exact absurd h (by decide +kernel)
    · rw [free n] at h; cases h
  · intro k h
    have e : (dgeState 0 0x10A []).keys.slots.find? (0 * 16 + (dgeState 0 0x10A []).sesOf 0 0 Reg.SES_CFG_SLOT) = none := by decide +kernel
    rw [e] at h; cases h
  · decide +kernel

/-- Hypotheses of its other clauses: closed, open, fed, armed, complete; a FEED that a window stops, and one that none does. -/
theorem test_dge_session_hypotheses :
    let s := dgeState 0 0x1 [(0, ses1 true), (1, ses1 false), (2, fedSes), (3, tapSes)]
    let t := dgeState 16 0x1 [(0, doneSes), (2, { fedSes with feed := some (64, 2) })]
    DgeOpen s 0 0 (ses1 true) ∧ DgeOpen s 0 1 (ses1 false) ∧ DgeOpen s 0 2 fedSes ∧ DgeOpen s 0 3 tapSes ∧ (ses1 true).pad = true ∧
    (ses1 false).pad = false ∧ t.dge 16 0 = some doneSes ∧ t.dgeOn 16 0 = true ∧ t.dgeOn 16 1 = true ∧ t.dge 16 1 = none ∧
    s.dge 0 2 = some fedSes ∧ s.dgeFault 0 64 2 .read = none ∧ (t.dgeFault 16 64 2 .read).isSome = true ∧
    (ses1 true).declEn = true ∧ (ses1 true).count ≤ (ses1 true).decl ∧ (ses1 true).buf.length < digestBlock (ses1 true).alg ∧ s.Ordered ∧
    ([0, 1, 2].all fun n => match s.dge 0 n with
      | some y => decide (y.armed ≠ some (0, 0))
      | none => true) = true := by
  unfold DgeOpen State.Ordered
  decide +kernel

/-- R534: of 8 bytes for a session that lacks 2 of its declared length, 2 are hashed; TRUNC is set and the session completes. -/
theorem test_dge_trunc :
    let x := ((after (.dgeData 0 0 0x0807060504030201) (dgeState 0 0x1 [(0, ses1 true)])).dge 0 0).map fun x => (x.buf, x.count, x.trunc, x.ending)
    x = some ([1, 2, 3, 1, 2], 5, true, true) := by
  decide +kernel

/-- R535, R526: the digest of the empty message by SHA-256 begins e3b0c44298fc1c14. -/
theorem test_dge_empty :
    let t := after (.dgeResult 0 0) (after (.dgeStart 0 0) (dgeState 0 0x31 []))
    t.fld 0 Reg.RES_D_BYTES = 0x141cfc9842c4b0e3 ∧ t.fld 0 Reg.RES_INFO_VALID = 1 ∧ t.dge 0 0 = none := by
  decide +kernel

/-- Hypotheses of DigestContextsAndKeySlots. -/
theorem test_dge_context_hypotheses :
    let x := { ses1 true with trunc := true }
    let s := dgeState 0 0x1 [(0, x), (1, doneSes), (2, { x with cfg := 0x39 })]
    let t := dgeState 16 0x1 [(0, x)]
    s.dgeOn 0 0 = true ∧ s.dge 0 0 = some x ∧ x.ending = false ∧ x.feed = none ∧ x.armed = none ∧ x.alg < 9 ∧ s.dge 0 1 = some doneSes ∧
    doneSes.ending = true ∧ (s.dge 0 2).map DgeSes.alg = some 9 ∧ s.dge 0 3 = none ∧ t.dgeOn 16 0 = true ∧ digestKnown x.alg = true ∧
    x.decl < 2 ^ 48 ∧ x.count < 2 ^ 128 ∧ x.buf.length < digestBlock x.alg ∧ x.finish = false ∧
    x.st.length = (if digestSponge x.alg then 200 else if digestBlock x.alg = 64 then 32 else 64) ∧
    x.ocv.length = (if digestKeyed x.alg then x.st.length else 0) ∧ Memory.wf s.mem = true ∧
    s.flag 0 Reg.DGE_CTRL_CLEAR_KEY_EN = true ∧ (State.reset.setFlag 0 Reg.DGE_CTRL_EN true).flag 0 Reg.DGE_CTRL_CLEAR_KEY_EN = false := by
  decide +kernel

/-- R547: SES_CFG, DECL, FLAGS, NBUF, the state's place, the buffer at byte 280 and the count at byte 368. -/
theorem test_dge_context :
    let c := ({ ses1 true with trunc := true, st := List.replicate 32 7 } : DgeSes).context
    c.length = 384 ∧ c.take 17 = [0x31, 0, 0, 0, 0, 0, 0, 0, 5, 0, 0, 0, 0, 0, 1, 3, 7] ∧ (c.drop 280).take 4 = [1, 2, 3, 0] ∧
    (c.drop 368).take 2 = [3, 0] := by
  decide +kernel

/-! ## The control plane -/

/-- A tile whose windows are open, with rings 0 to cores and 1 from cores, both captured. -/
def hrdState (f : Hrd → Hrd) : State :=
  let s := kcuState none
  let s := s.setActive (tblKey (dieC 0) 0x38 1 0 0) (BitVec.ofNat 64 (1 + 4 + ddrBase / 64 * 2 ^ 8))
  let s := s.setActive (tblKey (dieC 0) 0x38 1 1 0) (BitVec.ofNat 64 (1 + 2 + 4 + ddrBase / 64 * 2 ^ 8))
  { s with hrd := f s.hrd, ao := { s.ao with tb := 10 ^ 10 } }

def desc1 (len : Nat) : DmaDesc :=
  { tile := 0, chan := 7, cls := 1, tapid := 0, len := len, src := ddrBase, dst := ddrBase + 4096, ring := 0, member := 0, tag := 9, reservedOk := true }

def frozenChan (mid chan : Nat) (a : Option (Nat × AccKind)) : Nat × Frz := (chanKey 0 mid chan, { frozen := true, requested := false, access := a })

/-- Hypotheses of FreezesThawsDmaAndCaches. -/
theorem test_freeze_hypotheses :
    let held := { newJob 1 (desc1 8) [] 0 with done := 3, held := true }
    let s := hrdState fun h => { h with
      frz := [(chanKey 0 4 0, { frozen := false, requested := true, access := none }), frozenChan 4 1 none, frozenChan 9 15 (some (ddrBase, .read)),
        frozenChan 10 3 none, frozenChan 12 0 none, frozenChan 13 0 none, frozenChan 14 6 none, frozenChan 14 7 none]
      dma := [(dmaKey 0 5, [newJob 1 (desc1 8) [] 0]), (dmaKey 0 7, [newJob 1 (desc1 8) [] 0, held])]
      cache := [(ddrBase, (5, true))] }
    (s.frz 0 4 0).requested = true ∧ s.hrd.frz.rising = true ∧ s.flag (dieC 0) Reg.FRZ_STATUS_HEAD = false ∧
    (∀ x ∈ [(4, 1), (9, 15), (10, 3), (12, 0), (13, 0), (14, 6), (14, 7)], s.frozen 0 x.1 x.2 = true) ∧ (s.frz 0 9 15).access = some (ddrBase, .read) ∧
    s.hrd.dma.getD (dmaKey 0 6) [] = [] ∧ s.hrd.dma.getD (dmaKey 0 7) [] = [newJob 1 (desc1 8) [] 0] ++ [held] ∧ held.held = true ∧
    (s.checkAccess .mp (dieC 0 * 2 ^ 32 + 0x39 * 2 ^ 24 + 0x120) 8 .read).1 = true ∧ s.hrd.dma.getD (dmaKey 0 5) [] = newJob 1 (desc1 8) [] 0 :: [] ∧
    (newJob 1 (desc1 8) [] 0).held = false ∧ s.flag (dieC 0) Reg.CMT_STATUS_BUSY = false ∧ Memory.wf s.mem = true ∧ s.hrd.cache.rising = true ∧
    (s.setFlag (dieC 0) Reg.CMT_STATUS_BUSY true).flag (dieC 0) Reg.CMT_STATUS_BUSY = true ∧ s.Ordered ∧ 0 < s.variant.tiles := by
  unfold State.Ordered
  decide +kernel

/-- A channel takes a descriptor; the least and the greatest length are well formed, one byte more is not. -/
theorem test_dma_hypotheses :
    DmaTakes (hrdState id) (desc1 1) ∧ (desc1 1).ok = true ∧ (desc1 (2 ^ 24)).ok = true ∧ (desc1 (2 ^ 24 + 1)).ok = false ∧ (desc1 0).ok = false := by
  unfold DmaTakes
  decide +kernel

/-- R573, R562: a FILL repeats its pattern; R555: CLEAN writes the dirty byte back and keeps it. -/
theorem test_control_results :
    let d := { desc1 10 with src := 0x0807060504030201 }
    (after (.dmaFill d) (hrdState id)).loads (ddrBase + 4096) 11 = [1, 2, 3, 4, 5, 6, 7, 8, 1, 2, 0] ∧
    let t := after (.cmtClean 0) ((hrdState fun h => { h with cache := [(ddrBase, (5, true))] }).setFld (dieC 0) Reg.CMT_HI_ADDR (2 ^ 48 - 1))
    t.load ddrBase = 5 ∧ t.hrd.cache = [(ddrBase, (5, false))] := by
  decide +kernel

/-- Hypotheses of RingsTicksWatchdogsAndCapture: rings, ticks, messages. -/
theorem test_ring_hypotheses :
    let s := hrdState id
    let full := hrdState fun h => { h with rings := [(ringKey 0 0, { Ring.none with msgs := List.replicate 64 (s.msgOf 0 1 (.tick 0)) })] }
    RingWorks s 0 3 0 0 ∧ RingWorks s 0 3 1 1 ∧ s.replaying 0 = false ∧ (s.setFlag (dieC 0) Reg.HRD_CTRL_REPLAY true).replaying 0 = true ∧
    RingWorks (s.setFlag (dieC 0) Reg.HRD_CTRL_REPLAY true) 0 3 0 0 ∧ RingWorks (s.setFlag (dieC 0) Reg.HRD_CTRL_REPLAY true) 0 3 1 1 ∧
    (max 1 (s.fld (dieC 0) Reg.HRD_CTRL_TICK_US)) * 1000 ≤ s.ao.tb - s.hrd.tickAt.getD (0 * 4 + 3) 0 ∧
    s.fld (dieC 0) (Reg.HRD_TICK_RING.plus 24) = 0 ∧ s.ringSlots 0 0 = 64 ∧ (full.ring 0 0).msgs.length = 64 ∧ s.ringValid 0 2 = false ∧
    (s.ring 0 0).msgs.length < 64 ∧ (s.ring 0 0).halted = false ∧ (s.ring 0 0).waiting = [] ∧ (full.ring 0 0).waiting = [] ∧ s.frozen 0 13 0 = false ∧
    s.windowFault 0 13 (s.ringBase 0 0 + s.fld (dieC 0) (Reg.HRD_RING_PROD.plus 0) % s.ringSlots 0 0 * 64) .write = none := by
  unfold RingWorks
  decide +kernel

/-- Its other hypotheses: a watchdog that has run out, a capture that runs, records that fit and one that does not. -/
theorem test_capture_hypotheses :
    let s := hrdState id
    let w := (s.setFlag (dieC 0) (Reg.HRD_WDOG_EN.plus 24) true).setFld (dieC 0) (Reg.HRD_WDOG_TIMEOUT_US.plus 24) (10 ^ 7)
    let c := ((s.setFlag (dieC 0) Reg.RPL_STATUS_RUNNING true).setFld (dieC 0) Reg.RPL_SIZE_MIB 1).setFld (dieC 0) Reg.RPL_BASE_ADDR ddrBase
    let late := { c with hrd := { c.hrd with capPos := [(0, 2 ^ 20 - 8)] } }
    s.flag (dieC 0) (Reg.HRD_WDOG_EN.plus 24) = false ∧ w.flag (dieC 0) (Reg.HRD_WDOG_EN.plus 24) = true ∧
    w.flag (dieC 0) (Reg.HRD_WDOG_EXPIRED.plus 24) = false ∧
    max 1 (w.fld (dieC 0) (Reg.HRD_WDOG_TIMEOUT_US.plus 24)) * 1000 ≤ w.ao.tb - w.hrd.wdog.getD (0 * 4 + 3) 0 ∧
    c.flag (dieC 0) Reg.RPL_STATUS_RUNNING = true ∧ c.frozen 0 12 0 = false ∧ c.flag (dieC 0) Reg.RPL_CTRL_MODE = false ∧
    (late.setFlag (dieC 0) Reg.RPL_CTRL_MODE true).flag (dieC 0) Reg.RPL_CTRL_MODE = true ∧ 2 ^ 20 < late.hrd.capPos.getD 0 0 + CapRec.stop.size ∧
    c.fld (dieC 0) Reg.RPL_SIZE_MIB = 1 ∧ CapRec.stop.size = 16 ∧ c.hrd.lost.getD 0 0 = 0 ∧
    c.rangeFault 0 12 ddrBase 16 .write = none ∧ c.rangeFault 0 12 ddrBase 0 .write = none ∧ s.fld (dieC 0) Reg.RPL_SIZE_MIB = 0 := by
  decide +kernel

/-! ## Role commands, the start, attestation and mailboxes -/

/-- A head in a state of its boot, with an MCTP endpoint and no power lost. -/
def bootState (h : HeadState) (f : Boot → Boot) : State :=
  let s := inHead h
  { s with boot := f { s.boot with eid := some 9 }, ao := { s.ao with bPower := true, hold := false, dump := none, tb := 10 ^ 12 } }

def mgmtHdr1 : MgmtHdr := { udp := false, ep := 9, ien := Config.ien, size := 32784, ok := true }

/-- An envelope of GET_CHALLENGE for the head of a state. -/
def env0 (s : State) : RoleEnv :=
  { ok := true, role := 0, keyidx := 0, target := 0, serial := s.serial, challenge := zeros 32, body := [], pub := [], sig := [] }

theorem test_serial_length (s : State) : s.serial.length = 16 := by
  simp [State.serial, rowSerial, State.calRow, padTo, zeros, le]
  omega

/-- A management request passes, of the greatest size; one above it is not heard; during recovery by UDP it ends with STATUS 5. -/
theorem test_mgmt_passes (cmd : Nat) : MgmtPasses (bootState .twin fun b => { b with phase := .loaded }) mgmtHdr1 cmd ∧
    (bootState .twin id).mgmtHeard { mgmtHdr1 with size := 32785 } = false ∧
    (bootState .boot fun b => { b with phase := .waitImage }).mgmtHeard mgmtHdr1 = true ∧
    (bootState .boot fun b => { b with phase := .waitImage }).mgmtGate mgmtHdr1 7 = some 5 := by
  refine ⟨⟨by decide +kernel, ?_⟩, by decide +kernel, by decide +kernel, ?_⟩
  · simp [State.mgmtGate, mgmtHdr1, bootState, inHead, withPair]
  · simp [State.mgmtGate, mgmtHdr1, bootState]

/-- R615: an envelope of GET_CHALLENGE for this head is accepted; one for the pair is malformed, and so is one with a key. -/
theorem test_role_check (s : State) (held : Bool) : s.roleCheck (env0 s) .getChallenge held = 0 ∧
    s.roleCheck { env0 s with target := 1 } .getChallenge held ≠ 0 ∧ s.roleCheck { env0 s with sig := [1] } .getChallenge held = 1 := by
  have h : s.serial.length = 16 := by
    simp [State.serial, rowSerial, State.calRow, padTo, zeros, le]
    omega
  refine ⟨?_, ?_, ?_⟩ <;>
    simp [State.roleCheck, RoleEnv.consistent, RoleBody.code, RoleBody.fits, env0, h, zeros, State.roleKeyOk, roleFor, targetFor]

/-- Hypotheses of RoleEnvelopesAreChecked about a command of a controller, and of both transports. -/
theorem test_role_hypotheses :
    let e := env0 State.reset
    (hostState none).host.ctrls.find? (cmdOf (.role e .getChallenge) 0 none).tag.cntlid = some (.fresh 5 [1] 500 0 [1] false) ∧
    (cmdOf (.role e .getChallenge) 0 none).op = .role e .getChallenge ∧
    RoleRow (.nvme (capOn 0)) e (.getChallenge (.nvme (capOn 0)) e) .getChallenge (0x01, 0, 0) ∧
    RoleRow (.mgmt mgmtHdr1) e (.debugUnlock (.mgmt mgmtHdr1) e) .debugUnlock (0x40, 1, 0) := by
  refine ⟨by decide +kernel, rfl, .inl ⟨rfl, rfl, rfl⟩, ?_⟩
  unfold RoleRow; simp

/-- Hypotheses of RoleCommandsHaveTheirEffects that the state decides. -/
theorem test_role_effect_hypotheses :
    let s := bootState .boot fun b => { b with phase := .tripWait }
    let calm := { s with thm := { s.thm with calmSince := some 0 }, ao := { s.ao with tripLatched := true } }
    let t := bootState .twin fun b => { b with awk := some (zeros 32) }
    let snap := { epoch := 5, state := SnapState.ready, side := 0 }
    let n := { NsRec.fresh false 1000 1 false with snaps := [(7, snap), (8, { snap with state := .pending })] }
    let u := { t with arr := { t.arr with nss := [(1, n)] } }
    s.otp.instLock = false ∧ { s.otp with instLock := true }.instLock = true ∧ s.evrFrozen = false ∧ s.freezeEvr.evrFrozen = true ∧
    s.thm.calmSince = none ∧ calm.thm.calmSince = some 0 ∧ 60 * 10 ^ 9 ≤ calm.ao.tb - 0 ∧ calm.pair.head = .boot ∧ calm.ao.tripLatched = true ∧
    calm.boot.phase = .tripWait ∧ s.otp.wrapGen < 16 ∧ s.pair.head ∈ [.boot, .fawn, .fenced, .thermalHold] ∧ t.pair.head ∉ [.boot, .fawn, .fenced, .thermalHold] ∧
    s.pair.head ≠ .twin ∧ s.pair.head ≠ .solo ∧ t.serves = true ∧ t.hasDomain 4095 = false ∧ (zeros 1648).length = 1648 ∧ u.serves = true ∧ u.ns 2 = none ∧
    u.ns 1 = some n ∧ n.removing = none ∧ n.releasing = false ∧ n.deleting = false ∧ u.findSnap 9 = none ∧ u.findSnap 7 = some (1, n, snap) ∧
    u.findSnap 8 = some (1, n, { snap with state := .pending }) ∧ t.boot.awk = some (zeros 32) ∧ (bootState .twin id).boot.awk = none ∧
    (bootState .twin id).serves = true := by
  decide +kernel

/-- Its hypotheses about sessions: one held and one not; a descriptor that names a namespace of the array. -/
theorem test_role_session_hypotheses :
    let s := replState sess1 .twin
    let t := (s.stores ddrBase (le 4 6 ++ [0, 1, 1, 1] ++ zeros 36 ++ le 4 1))
    s.serves = true ∧ (s.sess (sessKey 0 6)).isSome = true ∧ s.sess (sessKey 1 77) = none ∧ s.readDesc (ddrBase + 8192) = none ∧ 0 < s.variant.sides ∧
    t.serves = true ∧ (t.readDesc ddrBase).map SessDesc.nsid = some 1 ∧ (t.ns 1).isSome = true := by
  decide +kernel

/-- Hypotheses of StartAttestationAndMailboxes about the start: the NOR window met and not met, both phases; headers in each state. -/
theorem test_start_hypotheses :
    let warm := fun (s : State) => s.setTemp dieB { s.dieTemp dieB with ro := 320, diode := 320 }
    let s := warm (bootState .boot fun b => { b with phase := .idle })
    let h := fun (st gen tries : Nat) => ({ SlotHdr.blank with state := st, gen := gen, tries := tries } : SlotHdr)
    let two := fun (a b : SlotHdr) => { s with nor := { s.nor with slotA := { s.nor.slotA with hdr0 := some a }, slotB := { s.nor.slotB with hdr0 := some b } } }
    let boot := fun (t : State) => (((t.setFlag dieB Reg.PWR_STATUS_PWR_GOOD true).railsUp [dieB]).finishErase).showOtp
    let look := fun (t : State) => ((boot t).norSlot 0).hdr.map SlotHdr.state
    s.pair.head = .boot ∧ s.ao.bPower = true ∧ s.ao.hold = false ∧ s.ao.dump = none ∧ s.norWindow = true ∧ s.boot.phase = .idle ∧
    (warm (bootState .boot fun b => { b with phase := .resumed })).boot.phase = .resumed ∧ (s.setTemp dieB { s.dieTemp dieB with ro := 721, diode := 721 }).norWindow = false ∧
    look (two (h 2 5 1) (h 3 4 0)) = some 2 ∧ look (two (h 3 5 0) (h 1 4 0)) = some 3 ∧ look (two (h 1 5 0) (h 0 4 0)) = some 1 ∧
    ((boot (two (h 3 5 0) (h 3 6 0))).norSlot 1).hdr = some (h 3 6 0) ∧ ((boot (two (h 3 5 0) (h 3 6 0))).norSlot 0).hdr = some (h 3 5 0) ∧
    s.decodeCsr (2 ^ 40) 8 = none ∧ (s.decodeCsr (csr 0 0x08 0x8) 8).map (fun x => (x.1, x.2.1, x.2.2.1)) = some (0, 0x08, 0x8) ∧
    s.windowKey 0 0x08 0x8 = none := by
  decide +kernel

/-- Hypotheses about mailboxes: free ones, messages of each type, an outcome that a job waits for. -/
theorem test_mailbox_hypotheses :
    let j : RoleJob := { src := .nvme 0, code := 0x20, role := 3, keyidx := 0, target := 1, serial := zeros 16, msg := zeros 64, result := 0, lsn := 0, tag := none }
    let s := bootState .twin fun b => { b with phase := .loaded, jobs := [j], activation := true }
    let n := { s with thm := { s.thm with notices := [(0x20, 0, 1)] } }
    let d := { (s.sendMb 8 0 3 (le 8 0 ++ le 8 0)) with boot := { s.boot with jobs := [{ j with tag := some 0 }] } }
    let o := s.sendMb 15 0 5 (zeros 514)
    let a := s.sendMb 9 0 6 (zeros 40)
    s.mbFull 0 = false ∧ s.mbFull 7 = false ∧ s.boot.phase = .loaded ∧ n.thm.notices = (0x20, 0, 1) :: [] ∧ n.mbFull 7 = false ∧
    (s.boot.jobs.find? fun j => j.tag.isNone) = some j ∧ j.msg.length ≤ 4080 ∧ s.boot.activation = true ∧
    (d.takeMb 8 3).map (fun x => (x.1, leAt x.2.1 8 1)) = some (0, 0) ∧ (d.boot.jobs.find? fun j => j.tag == some 0) = some { j with tag := some 0 } ∧
    d.jobDone { j with tag := some 0 } = true ∧ (o.takeMb 15 5).map (fun x => decide (514 ≤ x.2.1.length)) = some true ∧
    (a.takeMb 9 6).isSome = true ∧ s.Ordered := by
  unfold State.Ordered
  decide +kernel

/-- R640: HANDOFF carries its type, SEQ and TAG, and the variant code; the mailbox is full, and the cluster is interrupted. -/
theorem test_handoff :
    let s := bootState .twin fun b => { b with phase := .loaded, herdAt := 0x1000 }
    let t := after (.handoff 2 5) s
    t.mbFull 2 = true ∧ (t.readMb 2).take 25 = [1, 0, 0, 0, 0, 0, 0, 0, 0, 0, 0, 0, 0, 0, 0, 0, BitVec.ofNat 8 s.variant.code, 0, 0, 0, 0, 0, 0, 0, 0] ∧
    (t.readMb 2).length = 48 ∧ t.hrd.irq.getD 5 false = true := by
  decide +kernel

/-! ## The management plane -/

/-- Hypotheses of ManagementRequestsAreAnswered: MCTP runs; a request of each command passes; one that ends at once, and one not heard. -/
theorem test_management_hypotheses (cmd : Nat) :
    let s := bootState .twin fun b => { b with phase := .loaded }
    McpRuns s ∧ MgmtPasses s mgmtHdr1 cmd ∧ s.ao.bPower = true ∧ MgmtCommand mgmtHdr1 (.imgEnd mgmtHdr1) 0x0B ∧
    s.mgmtHeard { mgmtHdr1 with size := 32785 } = false ∧ s.mgmtHeard { mgmtHdr1 with ok := false } = true ∧
    s.mgmtGate { mgmtHdr1 with ok := false } cmd = some 1 := by
  refine ⟨⟨by decide +kernel, by decide +kernel, by decide +kernel⟩, ⟨by decide +kernel, ?_⟩, by decide +kernel, ?_, by decide +kernel, by decide +kernel, ?_⟩
  · simp [State.mgmtGate, mgmtHdr1, bootState, inHead, withPair]
  · simp [MgmtCommand]
  · simp [State.mgmtGate]

/-- Its hypotheses about gates and image transfer: phases, a transfer that is this requester's, one that is another's, the window. -/
theorem test_image_hypotheses :
    let warm := fun (s : State) => s.setTemp dieB { s.dieTemp dieB with ro := 320, diode := 320 }
    let x : Xfer := { udp := false, ep := 9, kind := 1, len := 512, kinds := [(1, 512)], buf := [] }
    let s := warm (bootState .boot fun b => { b with phase := .waitImage })
    let r := warm (bootState .boot fun b => { b with phase := .rowFailed })
    let a := warm (bootState .twin fun b => { b with phase := .loaded, xfer := some x })
    s.boot.phase = .waitImage ∧ r.boot.phase = .rowFailed ∧ (bootState .thermalHold id).pair.head = .thermalHold ∧ a.myXfer mgmtHdr1 = some x ∧
    a.myXfer { mgmtHdr1 with ep := 8 } = none ∧ a.boot.xfer ≠ none ∧ s.boot.xfer = none ∧ s.myXfer mgmtHdr1 = none ∧ a.norWindow = true ∧
    (a.norSlot a.imgSlot).head.hseq < 2 ^ 32 - 1 ∧ ([1] : Bytes) ≠ [] ∧ (List.replicate 4096 (0 : Byte)).length ≤ 4096 ∧
    (a.setFlag dieB Reg.BOOT_CTRL_SLOT_WP true).flag dieB Reg.BOOT_CTRL_SLOT_WP = true ∧ a.boot.phase ≠ .recovery ∧ a.imgSlot ≠ a.booted := by
  refine ⟨by decide +kernel, by decide +kernel, by decide +kernel, by decide +kernel, by decide +kernel, by decide +kernel, by decide +kernel, by decide +kernel,
    by decide +kernel, by decide +kernel, by decide, List.length_replicate.le, by decide +kernel, by decide +kernel, by decide +kernel⟩

/-- R633, R637: an endpoint ID is set and answered; the bytes of an image go to their offset. -/
theorem test_management_results :
    let s := bootState .twin fun b => { b with phase := .loaded }
    (after (.setEndpointId 0 8) s).boot.eid = some 8 ∧ (after (.setEndpointId 0 7) s).boot.eid = some 9 ∧
    programAt [1, 2] 4 [7] = [1, 2, 0xFF, 0xFF, 7] ∧ programAt [1, 2, 3, 4] 1 [7] = [1, 7, 3, 4] := by
  decide +kernel

/-- Hypotheses of SensorsThrottleAndRecorder on temperatures: ring oscillators in use, reads apart, a hot die and a fast one, levels. -/
theorem test_heat_hypotheses :
    let s := (bootState .twin fun b => { b with phase := .loaded }).setFlag dieB Reg.BOOT_STATUS_FCR_OK true
    let d := { DieTemp.none with ro := 320, diode := 320 }
    let at_ := fun (h : HeadState) (d : DieTemp) => ((bootState h id).setFlag dieB Reg.BOOT_STATUS_FCR_OK true).setTemp dieB d
    let hot := at_ .twin { d with ro := 880, hot := 1, hotAt := some 0 }
    let fast := at_ .twin { d with hist := [300, 291, 291, 291, 291, 291, 291, 291, 291, 291, 291], ro := 320, fast := 20 }
    s.usesRo dieB = true ∧ (bootState .boot id).usesRo dieB = false ∧ (9 : Int) - 0 ≤ 48 ∧ (48 : Int) < 49 - 0 ∧ d.apart < 2 ∧ s.thm.dies.rising = true ∧
    s.judgeHeat.ao.tripLatched = false ∧ ({ s with ao := { s.ao with tripLatched := true } }).judgeHeat.ao.tripLatched = true ∧
    (hot.judgeHeat.variant.dies.find? fun d => decide (2 ≤ (hot.judgeHeat.dieTemp d).hot)) = some 0 ∧
    (s.judgeHeat.variant.dies.find? fun d => decide (2 ≤ (s.judgeHeat.dieTemp d).hot)) = none ∧ (fast.judgeHeat.dieTemp dieB).fast = 21 ∧
    hot.variant.dies.find? (fun d => decide (800 < hot.temp d)) = some 0 ∧ s.variant.dies.find? (fun d => decide (800 < s.temp d)) = none ∧
    hot.flag dieB Reg.THM_STATUS_WARN = false ∧ (hot.setFlag dieB Reg.THM_STATUS_WARN true).flag dieB Reg.THM_STATUS_WARN = true ∧
    s.pair.head = .twin ∧ (bootState .solo id).pair.head = .solo ∧ (bootState .solo id).ao.dump = none ∧ (bootState .fawn id).pair.head ∈ [.boot, .fawn, .fenced] ∧
    dieB ∈ hot.variant.dies ∧ (hot.dieTemp dieB).hotAt = some 0 ∧ 10 ^ 9 ≤ hot.ao.tb - 0 ∧ (s.variant.dies.all fun d => (s.dieTemp d).hotAt.isNone) = true ∧ s.Ordered := by
  unfold State.Ordered
  decide +kernel

/-- Its hypotheses on time, counters and the recorder. -/
theorem test_recorder_hypotheses :
    let warm := fun (s : State) => s.setTemp dieB { s.dieTemp dieB with ro := 320, diode := 320 }
    let s := warm (bootState .twin fun b => { b with phase := .loaded })
    let cool := { s with thm := { s.thm with coolSince := some 0, frozenUntil := some (10 ^ 12) } }
    let late := { s with ao := { s.ao with seconds := 3599 } }
    let msg := s.sendMb 8 0 8 (zeros 64)
    let r := s.mfwRecord 1 []
    cool.thm.coolSince = some 0 ∧ 5 * 10 ^ 9 ≤ cool.ao.tb - 0 ∧ ¬ 5 * 10 ^ 9 ≤ cool.ao.tb - (10 ^ 12 - 1) ∧ s.ao.bPower = true ∧ (State.reset.ao.bPower = false ∨ s.ao.seconds < 3599) ∧
    late.ao.seconds = 3599 ∧ s.ao.seconds % 600 = 0 ∧ s.norWindow = true ∧ s.ao.heldCounters = [] ∧
    (s.setTemp dieB { s.dieTemp dieB with ro := -1, diode := -1 }).norWindow = false ∧ (msg.takeMb 8 8).isSome = true ∧ s.evrFrozen = false ∧ s.freezeEvr.evrFrozen = true ∧
    s.ao.heldEvents = [] ∧ (List.replicate 512 r).length = 512 ∧ s.flag dieB Reg.EVR_STATUS_FULL = false ∧
    (s.setFlag dieB Reg.EVR_STATUS_FULL true).flag dieB Reg.EVR_STATUS_FULL = true ∧ s.fld dieB Reg.EVR_STATUS_NEXT < 65534 ∧
    cool.thm.frozenUntil = some (10 ^ 12) ∧ 10 ^ 12 ≤ cool.ao.tb ∧ s.Ordered := by
  unfold State.Ordered
  refine ⟨by decide +kernel, by decide +kernel, by decide +kernel, by decide +kernel, by decide +kernel, by decide +kernel, by decide +kernel, by decide +kernel, by decide +kernel,
    by decide +kernel, by decide +kernel, by decide +kernel, by decide +kernel, by decide +kernel, List.length_replicate, by decide +kernel, by decide +kernel,
    by decide +kernel, by decide +kernel, by decide +kernel, by decide +kernel⟩

/-- R655: SECONDS wraps from 3,599 to 0 and HOURS counts; R646: a second evaluation at 110 °C trips a head in TWIN. -/
theorem test_hours_and_trip :
    let s := bootState .twin fun b => { b with phase := .loaded }
    let t := after .secondsTick { s with ao := { s.ao with seconds := 3599, hours := 2 ^ 24 - 1 } }
    let hot := s.setTemp dieB { DieTemp.none with diode := 880, ro := 880, hot := 1 }
    t.ao.seconds = 0 ∧ t.ao.hours = 0 ∧ (after .thermalEvaluate hot).pair.head = .thermalHold ∧ (after .thermalEvaluate hot).ao.tripLatched = true := by
  decide +kernel

/-! ## Well-formed commands -/

/-- For each check of WellFormed a command at its bound, and one beyond it that the check refuses. -/
theorem test_well_formed :
    (Instr.csaWrite 1 15 15 (2 ^ 21 - 1)).wellFormed = true ∧ (Instr.csaSearch 2 0 []).wellFormed = false ∧ (Instr.csaSearch 0 16 []).wellFormed = false ∧
    (Instr.csaWrite 0 0 16 0).wellFormed = false ∧ (Instr.csaRead 0 0 (2 ^ 21) []).wellFormed = false ∧ (Instr.insertRing false 0 0 (2 ^ 160) 0).wellFormed = false ∧
    (Instr.insertRing false 0 0 0 (2 ^ 64)).wellFormed = false ∧ (Instr.deleteMatch false 0 0 (2 ^ 160)).wellFormed = false ∧
    (Instr.invalidateMasked false 0 0 4096).wellFormed = false ∧ (Instr.ordInsert false 0 0 (2 ^ 320) 0).wellFormed = false ∧
    (Instr.dgeStart 23 3).wellFormed = true ∧ (Instr.dgeStart 24 0).wellFormed = false ∧ (Instr.dgeStart 0 4).wellFormed = false ∧
    (Instr.dgeArm 16 0 2 0).wellFormed = false ∧ (Instr.dgeTapTransfer 16 0 (2 ^ 16) [] true).wellFormed = false ∧
    (Instr.dgeSlotLoadClear 0 16 9 0).wellFormed = false ∧ (Instr.dgeSlotLoadWrapped 16 0 16 0).wellFormed = false ∧
    (Instr.dgeSlotLoadClear 0 0 9 256).wellFormed = false ∧ (Instr.dgeSlotLoadDerived 0 0 9 (2 ^ 16)).wellFormed = false ∧ (Instr.dgeSlotClear 0 16).wellFormed = false ∧
    (Instr.channelFreezeRequest 0 4 0).wellFormed = false ∧ (Instr.thawResume 0 16 0).wellFormed = false ∧ (Instr.thawAbort 0 0 16).wellFormed = false ∧
    (Instr.cmtClean 8).wellFormed = false ∧ (Instr.captureSnap 0 (2 ^ 48) 1).wellFormed = false ∧ (Instr.captureSnap 0 0 (2 ^ 16)).wellFormed = false ∧
    (Instr.ringConsume 7 3 7 4095 (2 ^ 20 - 1)).wellFormed = true ∧ (Instr.ringConsume 0 0 8 0 0).wellFormed = false ∧
    (Instr.ringConsume 0 0 0 0 (2 ^ 20)).wellFormed = false ∧ (Instr.ringPost 0 0 0 4096 []).wellFormed = false ∧ (Instr.tick 0 4).wellFormed = false ∧
    (Instr.dmaCopy (desc1 1)).wellFormed = true ∧ (Instr.dmaCopy { desc1 1 with chan := 8 }).wellFormed = false ∧ (Instr.dmaDone 0 8).wellFormed = false ∧
    (Instr.dmaFill { desc1 1 with cls := 8 }).wellFormed = false ∧ (Instr.dmaFill { desc1 1 with member := 256 }).wellFormed = false ∧
    (Instr.mailboxSend 16 0 0).wellFormed = false ∧ (Instr.mailboxSend 0 (2 ^ 13) 0).wellFormed = false ∧ (Instr.handoff 0 32).wellFormed = false ∧
    (Instr.roleDone 16).wellFormed = false := by
  decide +kernel

end Sys2Proof.Tests
end

section
/-! Register accesses of the management processor (R9 to R13): plain writes, the write that locks a block, reads. -/

namespace Sys2Proof.Machine

open Sys2Proof

/-! ## Decoding and the two directions of an access -/

theorem findReg_of_decodeCsr {s : State} {addr size die blk off : Nat} {r : RegDesc}
    (h : s.decodeCsr addr size = some (die, blk, off, r)) : findReg blk off = some r := by
  unfold State.decodeCsr at h
  dsimp only at h
  split at h
  · obtain ⟨r', hr, e⟩ := Option.map_eq_some_iff.1 h
    simp only [Prod.mk.injEq] at e
    obtain ⟨-, rfl, rfl, rfl⟩ := e
    exact hr
  · cases h

theorem tidy_of_decodeCsr {s : State} {addr size die blk off : Nat} {r : RegDesc}
    (h : s.decodeCsr addr size = some (die, blk, off, r)) : r.Tidy := findReg_tidy (findReg_of_decodeCsr h)

/-- The management processor's access to a decoded register is made, and costs nothing (R14). -/
theorem State.checkAccess_mp {s : State} {addr size : Nat} {x : Nat × Nat × Nat × RegDesc} (h : s.decodeCsr addr size = some x)
    (k : AccKind) : s.checkAccess .mp addr size k = (true, s) := by
  simp [State.checkAccess, h]

/-! ## Writes -/

/-- A register that no chapter guards takes every bit of the write. -/
theorem State.guardWrite_of_unguarded {s : State} {die blk off : Nat} {old v : Word} (h : guardedReg blk off = false) :
    s.guardWrite die blk off old v = v := by
  unfold guardedReg at h
  simp only [Bool.or_eq_false_iff, Bool.and_eq_false_iff, beq_eq_false_iff_ne, decide_eq_false_iff_not, ne_eq] at h
  unfold State.guardWrite
  dsimp only
  repeat rw [if_neg (by omega)]

/-- A write of the management processor to a register that no chapter guards does what the access codes say and no more. -/
theorem State.writeHook_of_unguarded {s : State} {die blk off : Nat} {r : RegDesc} {old v events : Word}
    (h : guardedReg blk off = false) : s.writeHook .mp die blk off r old v events = s.writePlain die blk off r v events := by
  unfold guardedReg at h
  simp only [Bool.or_eq_false_iff, Bool.and_eq_false_iff, beq_eq_false_iff_ne, decide_eq_false_iff_not, ne_eq] at h
  unfold State.writeHook
  dsimp only
  split
  case h_1 => rw [if_neg (by omega), if_neg (by omega)]
  case h_3 => rw [if_neg (by omega), if_neg (by omega)]
  case h_5 => exact ite_self _
  case h_8 => omega
  case h_9 => omega
  case h_11 => rfl
  all_goals exact if_neg (by omega)

/-- A write of the management processor to a register that is neither guarded nor a window on a table. -/
theorem execRegisterWrite_mp_plain {s : State} {addr die blk off : Nat} {r : RegDesc} (hd : s.decodeCsr addr 8 = some (die, blk, off, r))
    (hw : s.windowKey die blk off = none) (hg : guardedReg blk off = false) (val events : Word) :
    exec (.registerWrite .mp addr 8 val events) s = .next (s.writePlain die blk off r val events) := by
  show execRegisterWrite .mp addr 8 val events s = _
  simp only [execRegisterWrite, State.checkAccess_mp hd, hd, State.writeReg, hw, State.guardWrite_of_unguarded hg,
    State.writeHook_of_unguarded hg]

/-- A plain write changes the register file and the bits kept of WO fields alone. -/
theorem State.writePlain_only (s : State) (die blk off : Nat) (r : RegDesc) (v events : Word) :
    s.writePlain die blk off r v events = { s with
      regs := (s.setReg die blk off (wordAfterWrite (s.locked die blk) r (s.reg die blk off) v events)).regs,
      wo := (s.writePlain die blk off r v events).wo } := by
  unfold State.writePlain State.setReg
  dsimp only
  split <;> rfl

theorem State.writePlain_eta (s : State) (die blk off : Nat) (r : RegDesc) (v events : Word) :
    s.writePlain die blk off r v events =
      { s with regs := (s.writePlain die blk off r v events).regs, wo := (s.writePlain die blk off r v events).wo } := by
  rw [State.writePlain_only]

/-- What a plain write leaves in the register file: its own register as the access codes have it, every other as before. -/
theorem State.reg_writePlain (s : State) (die blk off : Nat) (r : RegDesc) (v events : Word) (d b o : Nat) :
    (s.writePlain die blk off r v events).reg d b o =
      (s.setReg die blk off (wordAfterWrite (s.locked die blk) r (s.reg die blk off) v events)).reg d b o := by
  rw [State.writePlain_only]; rfl

theorem State.reg_writePlain_same {s : State} (h : s.Ordered) (die blk off : Nat) (r : RegDesc) (v events : Word) :
    (s.writePlain die blk off r v events).reg die blk off = wordAfterWrite (s.locked die blk) r (s.reg die blk off) v events := by
  rw [State.reg_writePlain, State.reg_setReg_same h]

theorem State.reg_writePlain_ne {s : State} (h : s.Ordered) {die blk off d b o : Nat} (r : RegDesc) (v events : Word)
    (hk : regKey d b o ≠ regKey die blk off) : (s.writePlain die blk off r v events).reg d b o = s.reg d b o := by
  rw [State.reg_writePlain, State.reg_setReg_ne h _ hk]

/-- Settles O8: an unguarded write is a plain one, whose word holds in each field what `fieldAfterWrite` says. -/
theorem registerWriteFollowsAccessCodes : Obligations.RegisterWriteFollowsAccessCodes := by
  unfold Obligations.RegisterWriteFollowsAccessCodes
  intro s addr die blk off val events r ho hd hw hg
  refine ⟨_, execRegisterWrite_mp_plain hd hw hg val events, fun f hf => ?_, fun d b o hk => State.reg_writePlain_ne ho r val events hk,
    State.writePlain_eta s die blk off r val events⟩
  rw [State.reg_writePlain_same ho, bitsAt_wordAfterWrite (tidy_of_decodeCsr hd) hf]
  unfold fieldAfterWrite
  cases f.acc <;> rfl

/-! ## Locking a block (R13) -/

/-- A LOCK field lies in its own block, and its register holds it as one W1S bit. -/
def lockIsW1s (blk : Nat) (l : Fld) : Bool :=
  l.blk == blk && l.w == 1 && (findReg blk l.off).any fun r => r.fields.any fun f => f.lo == l.lo && f.w == 1 && f.acc == .w1s

theorem blocks_lockIsW1s : ((List.range 0x41).all fun b => (blockLocks b).all (lockIsW1s b)) = true := by decide +kernel

/-- The register of a LOCK field holds it as one W1S bit. -/
theorem lock_field {blk : Nat} {l : Fld} {r : RegDesc} (h : l ∈ blockLocks blk) (hr : findReg blk l.off = some r) :
    l.blk = blk ∧ l.w = 1 ∧ ∃ f ∈ r.fields, f.lo = l.lo ∧ f.w = 1 ∧ f.acc = .w1s := by
  have hb : blk < 0x41 := by
    by_contra hge
    have hm : r ∈ blockRegs blk := List.mem_of_find?_eq_some hr
    rw [blockRegs_of_ge (Nat.le_of_not_lt hge)] at hm
    cases hm
  have hl := List.all_eq_true.1 (List.all_eq_true.1 blocks_lockIsW1s blk (List.mem_range.2 hb)) l h
  simp only [lockIsW1s, hr, Option.any_some, Bool.and_eq_true, beq_iff_eq, List.any_eq_true] at hl
  obtain ⟨⟨hblk, hw⟩, f, hf, ⟨hlo, hfw⟩, hacc⟩ := hl
  exact ⟨hblk, hw, f, hf, hlo, hfw, hacc⟩

/-- Two fields of a register that differ lie apart. -/
theorem fields_apart {r : RegDesc} (h : r.Tidy) {f g : FieldDesc} (hf : f ∈ r.fields) (hg : g ∈ r.fields) (hne : f ≠ g) :
    f.lo + f.w ≤ g.lo ∨ g.lo + g.w ≤ f.lo :=
  have : Std.Symm fun f g : FieldDesc => f.lo + f.w ≤ g.lo ∨ g.lo + g.w ≤ f.lo := ⟨fun _ _ => Or.symm⟩
  h.2.forall hf hg hne

/-- Where a control register of a block holds a LOCK field, BLOCK_LOCK writes it plainly with a 1 in such a field. -/
theorem execBlockLock_mp_plain {s : State} {addr die blk off : Nat} {r : RegDesc} (hd : s.decodeCsr addr 8 = some (die, blk, off, r))
    (hw : s.windowKey die blk off = none) (hg : guardedReg blk off = false) (hl : ∃ l ∈ blockLocks blk, l.off = off) (val : Word) :
    ∃ l ∈ blockLocks blk, l.off = off ∧ exec (.blockLock .mp addr val) s = .next (s.writePlain die blk off r (withFld val l 1) 0) := by
  obtain ⟨l, hl⟩ := Option.isSome_iff_exists.1 (List.find?_isSome (p := fun f : Fld => f.off == off).2 (by simpa using hl))
  refine ⟨l, List.mem_of_find?_eq_some hl, by simpa using List.find?_some hl, ?_⟩
  show execBlockLock .mp addr val s = _
  simp only [execBlockLock, State.checkAccess_mp hd, hd, hl, State.writeReg, hw, State.guardWrite_of_unguarded hg,
    State.writeHook_of_unguarded hg]

/-- Settles O9: the write sets the W1S bit LOCK, which lies apart from the RWL fields, and these are judged by LOCK as it was. -/
theorem blockLockLocksAfterItsOwnWrite : Obligations.BlockLockLocksAfterItsOwnWrite := by
  unfold Obligations.BlockLockLocksAfterItsOwnWrite
  intro s addr die blk off val r l ho hd hw hg hl hoff
  obtain ⟨l, hl, rfl, he⟩ := execBlockLock_mp_plain hd hw hg ⟨l, hl, hoff⟩ val
  have ht := tidy_of_decodeCsr hd
  obtain ⟨hblk, hlw, g, hgr, hglo, hgw, hgacc⟩ := lock_field hl (findReg_of_decodeCsr hd)
  have hg64 := ht.1 g hgr
  refine ⟨_, he, ?_, fun f hf hacc => ?_, fun d b o hk => State.reg_writePlain_ne ho r _ 0 hk, State.writePlain_eta ..⟩
  · have hone : bitsAt (withFld val l 1) g.lo 1 = 1 := by
      rw [withFld, ← hglo, hlw, bitsAt_setBits_same (by omega)]
      rfl
    have hlt : bitsAt (s.reg die blk l.off) g.lo 1 < 2 := bitsAt_lt ..
    refine List.any_eq_true.2 ⟨l, hl, ?_⟩
    rw [State.flag, State.fld, hblk, State.reg_writePlain_same ho, hlw, ← hglo, ← hgw, bitsAt_wordAfterWrite ht hgr]
    simp only [fieldAfterWrite, hgacc, hgw, hone]
    generalize bitsAt (s.reg die blk l.off) g.lo 1 = n at hlt
    interval_cases n <;> rfl
  · have hne : f ≠ g := by rintro rfl; rw [hacc] at hgacc; cases hgacc
    have hd := fields_apart ht hf hgr hne
    rw [State.reg_writePlain_same ho, bitsAt_wordAfterWrite ht hf]
    simp only [fieldAfterWrite, hacc]
    rw [withFld, bitsAt_setBits_of_disjoint (by omega) _ (by omega)]

/-! ## Reads (R9, R12) -/

/-- Every field of a register as read: WO fields read 0 (R9). -/
theorem bitsAt_readMask {r : RegDesc} (h : r.Tidy) {f : FieldDesc} (hf : f ∈ r.fields) (x : Word) :
    bitsAt (readMask r x) f.lo f.w = if f.acc = .wo then 0 else bitsAt x f.lo f.w := by
  have := bitsAt_fold (c := fun f => decide (f.acc = .wo)) (v := fun _ => 0) (x := x) h.1 h.2 hf
  simp only [decide_eq_true_eq, Nat.zero_mod] at this
  exact this

/-- What a read clears in the register file, of a register that shows no counter kept elsewhere. -/
theorem State.clearRead_plain {s : State} {die blk off : Nat} (h1 : blk = 0x18 → off ≠ 0x118) (h2 : blk = 0x39 → off ≠ 0x120)
    (r : RegDesc) (events : Word) : s.clearRead die blk off r events = s.setReg die blk off (wordAfterRead r (s.reg die blk off) events) := by
  unfold State.clearRead
  rw [if_neg (by tauto), if_neg (by tauto)]

/-- A decoded read of the management processor, of any register but TX_HOLD_NS (R432). -/
theorem execRegisterReadClear_mp {s : State} {addr die blk off : Nat} {r : RegDesc} (hd : s.decodeCsr addr 8 = some (die, blk, off, r))
    (hb : blk = 0x10 → off % 0x1000 ≠ 0x168) (events : Word) :
    exec (.registerReadClear .mp addr 8 events) s =
      .next ((if r.hasRc then s.clearRead die blk off r events else s).emit (.readData addr (readMask r (s.shown die blk off)))) := by
  show execRegisterReadClear .mp addr 8 events s = _
  have hbr : s.beforeRead die blk off = s := if_neg (by tauto)
  simp only [execRegisterReadClear, State.checkAccess_mp hd, hd, hbr, State.readDone]

/-- A read leaves events in the RC fields of a register and everything else there: a register without RC fields stays (R12). -/
theorem bitsAt_reg_afterRead {s : State} (ho : s.Ordered) {die blk off : Nat} {r : RegDesc} (h : r.Tidy) (events : Word) {f : FieldDesc}
    (hf : f ∈ r.fields) :
    bitsAt ((if r.hasRc then s.setReg die blk off (wordAfterRead r (s.reg die blk off) events) else s).reg die blk off) f.lo f.w =
      if f.acc = .rc then bitsAt events f.lo f.w else bitsAt (s.reg die blk off) f.lo f.w := by
  by_cases hrc : r.hasRc = true
  · rw [if_pos hrc, State.reg_setReg_same ho, bitsAt_wordAfterRead h hf]
  · have : f.acc ≠ .rc := fun e => hrc (List.any_eq_true.2 ⟨f, hf, by simpa using e⟩)
    rw [if_neg hrc, if_neg this]

/-- WIN_FAULT as it reads: the oldest record of the tile's fault log (R566). -/
theorem State.shown_winFault {s : State} {tile : Nat} {f : FaultRec} {rest : List FaultRec} (h : s.hrd.log.getD tile [] = f :: rest) :
    s.shown (dieC tile) 0x39 0x120 = BitVec.ofNat 64 f.word := by
  have hw : s.windowKey (dieC tile) 0x39 0x120 = none := rfl
  have hd : dieC tile - 16 = tile := Nat.add_sub_cancel_left ..
  simp [State.shown, hw, State.shownUnit, hd, h]

/-- A read of WIN_FAULT takes the oldest record out of the tile's log (R566). -/
theorem State.clearRead_winFault {s : State} {tile : Nat} {f : FaultRec} {rest : List FaultRec}
    (h : s.hrd.log.getD tile [] = f :: rest) (r : RegDesc) (events : Word) :
    s.clearRead (dieC tile) 0x39 0x120 r events = (s.setLog tile rest).setFld (dieC tile) Reg.WIN_FTIME_TIME f.time := by
  have hd : dieC tile - 16 = tile := Nat.add_sub_cancel_left ..
  simp [State.clearRead, State.dropFault, hd, h]

theorem winFault_hasRc {r : RegDesc} (h : findReg 0x39 0x120 = some r) : r.hasRc = true := by
  have : (findReg 0x39 0x120).all RegDesc.hasRc = true := by decide
  simpa [h] using this

/-- Settles O10: a plain read masks WO fields and rewrites the register with the events of the read; WIN_FAULT is the head of the log. -/
theorem registerReadReturnsAndClears : Obligations.RegisterReadReturnsAndClears := by
  unfold Obligations.RegisterReadReturnsAndClears
  refine ⟨fun s addr die blk off events r ho hd h1 h2 h3 => ?_, fun s addr tile events r f rest ho hd hl => ?_⟩
  · have ht := tidy_of_decodeCsr hd
    have he := execRegisterReadClear_mp hd h1 events
    rw [State.clearRead_plain h2 h3] at he
    refine ⟨_, _, he, ?_, fun f hf => bitsAt_readMask ht hf _, fun f hf => bitsAt_reg_afterRead ho ht events hf, fun d b o hk => ?_, ?_⟩
    · cases r.hasRc <;> rfl
    · cases r.hasRc
      · rfl
      · exact State.reg_setReg_ne ho _ hk
    · cases r.hasRc <;> rfl
  · refine ⟨_, execRegisterReadClear_mp hd (by omega) events, ?_, ?_⟩ <;>
      rw [if_pos (winFault_hasRc (findReg_of_decodeCsr hd)), State.clearRead_winFault hl]
    · exact State.fld_setFld_same (s := s.setLog tile rest) ho (dieC tile) (by decide) f.time
    · rw [State.shown_winFault hl]; rfl

end Sys2Proof.Machine
end

section
/-! Every command ends in a next state, and keeps what `Keeps` names. -/

namespace Sys2Proof.Machine

open Sys2Proof

/-- A result is a next state: no fault and no refusal. -/
def IsNext (r : Res) : Prop := ∃ t, r = .next t

theorem IsNext.next (t : State) : IsNext (.next t) := ⟨t, rfl⟩

/-- A result is a next state that keeps what `s` holds. -/
def Reaches (s : State) (r : Res) : Prop := ∃ t, r = .next t ∧ Keeps s t

/-- A meaning whose every next state keeps what `s` holds reaches one if its definition, `body`, ends in a next state. -/
theorem Reaches.of_keeps {s : State} {r body : Res} (h : Ends (fun r : Res => ∀ t, r = .next t → Keeps s t) r) (e : r = body)
    (hn : IsNext body) : Reaches s r := by
  obtain ⟨t, ht⟩ := hn
  exact ⟨t, e.trans ht, h t (e.trans ht)⟩

/-- Every command reaches a next state: the arms of `exec` in their order, each by the lemma on what its meaning keeps and by the
definition of that meaning, whose every branch ends in `.next`. -/
theorem exec_reaches (c : Instr) (s : State) : Reaches s (exec c s) := by
  unfold exec
  split <;> [
    refine .of_keeps (execRegisterWrite_keeps (.refl s)) (execRegisterWrite.eq_def ..) ?_;
    refine .of_keeps (execBlockLock_keeps (.refl s)) (execBlockLock.eq_def ..) ?_;
    refine .of_keeps (execTableCommit_keeps (.refl s)) (execTableCommit.eq_def ..) ?_;
    refine .of_keeps (execTableAbort_keeps (.refl s)) (execTableAbort.eq_def ..) ?_;
    refine .of_keeps (execCommitCopyDone_keeps (.refl s)) (execCommitCopyDone.eq_def ..) ?_;
    refine .of_keeps (execTimeMessage_keeps (.refl s)) (execTimeMessage.eq_def ..) ?_;
    refine .of_keeps (execPtpSyncSample_keeps (.refl s)) (execPtpSyncSample.eq_def ..) ?_;
    refine .of_keeps (execDelayReqSend_keeps (.refl s)) (execDelayReqSend.eq_def ..) ?_;
    refine .of_keeps (execPtpAnnounce_keeps (.refl s)) (execPtpAnnounce.eq_def ..) ?_;
    refine .of_keeps (execPpsInEdge_keeps (.refl s)) (execPpsInEdge.eq_def ..) ?_;
    refine .of_keeps (execPartnerTimeTimeout_keeps (.refl s)) (execPartnerTimeTimeout.eq_def ..) ?_;
    refine .of_keeps (execFlush_keeps (.refl s)) (execFlush.eq_def ..) ?_;
    refine .of_keeps (execWrite_keeps (.refl s)) (execWrite.eq_def ..) ?_;
    refine .of_keeps (execRead_keeps (.refl s)) (execRead.eq_def ..) ?_;
    refine .of_keeps (execCompare_keeps (.refl s)) (execCompare.eq_def ..) ?_;
    refine .of_keeps (execCompareAndWrite_keeps (.refl s)) (execCompareAndWrite.eq_def ..) ?_;
    refine .of_keeps (execWriteZeroes_keeps (.refl s)) (execWriteZeroes.eq_def ..) ?_;
    refine .of_keeps (execDatasetManagement_keeps (.refl s)) (execDatasetManagement.eq_def ..) ?_;
    refine .of_keeps (execVerify_keeps (.refl s)) (execVerify.eq_def ..) ?_;
    refine .of_keeps (execStore_keeps (.refl s)) (execStore.eq_def ..) ?_;
    refine .of_keeps (execRetrieve_keeps (.refl s)) (execRetrieve.eq_def ..) ?_;
    refine .of_keeps (execList_keeps (.refl s)) (execList.eq_def ..) ?_;
    refine .of_keeps (execDelete_keeps (.refl s)) (execDelete.eq_def ..) ?_;
    refine .of_keeps (execExist_keeps (.refl s)) (execExist.eq_def ..) ?_;
    refine .of_keeps (execConnect_keeps (.refl s)) (execConnect.eq_def ..) ?_;
    refine .of_keeps (execDisconnect_keeps (.refl s)) (execDisconnect.eq_def ..) ?_;
    refine .of_keeps (execPropertyGet_keeps (.refl s)) (execPropertyGet.eq_def ..) ?_;
    refine .of_keeps (execPropertySet_keeps (.refl s)) (execPropertySet.eq_def ..) ?_;
    refine .of_keeps (execGetLogPage_keeps (.refl s)) (execGetLogPage.eq_def ..) ?_;
    refine .of_keeps (execIdentify_keeps (.refl s)) (execIdentify.eq_def ..) ?_;
    refine .of_keeps (execAbort_keeps (.refl s)) (execAbort.eq_def ..) ?_;
    refine .of_keeps (execSetFeatures_keeps (.refl s)) (execSetFeatures.eq_def ..) ?_;
    refine .of_keeps (execGetFeatures_keeps (.refl s)) (execGetFeatures.eq_def ..) ?_;
    refine .of_keeps (execAsyncEventRequest_keeps (.refl s)) (execAsyncEventRequest.eq_def ..) ?_;
    refine .of_keeps (execNamespaceManagement_keeps (.refl s)) (execNamespaceManagement.eq_def ..) ?_;
    refine .of_keeps (execNamespaceAttachment_keeps (.refl s)) (execNamespaceAttachment.eq_def ..) ?_;
    refine .of_keeps (execNsRemovalTimeout_keeps (.refl s)) (execNsRemovalTimeout.eq_def ..) ?_;
    refine .of_keeps (execNsRemovalComplete_keeps (.refl s)) (execNsRemovalComplete.eq_def ..) ?_;
    refine .of_keeps (execKeepAlive_keeps (.refl s)) (execKeepAlive.eq_def ..) ?_;
    refine .of_keeps (execKeepAliveExpiry_keeps (.refl s)) (execKeepAliveExpiry.eq_def ..) ?_;
    refine .of_keeps (execFormatNvm_keeps (.refl s)) (execFormatNvm.eq_def ..) ?_;
    refine .of_keeps (execFormatComplete_keeps (.refl s)) (execFormatComplete.eq_def ..) ?_;
    refine .of_keeps (execSanitizeExitFailure_keeps (.refl s)) (execSanitizeExitFailure.eq_def ..) ?_;
    refine .of_keeps (execSanitizeBlockErase_keeps (.refl s)) (execSanitizeBlockErase.eq_def ..) ?_;
    refine .of_keeps (execSanitizeCryptoErase_keeps (.refl s)) (execSanitizeCryptoErase.eq_def ..) ?_;
    refine .of_keeps (execSanitizeComplete_keeps (.refl s)) (execSanitizeComplete.eq_def ..) ?_;
    refine .of_keeps (execSanitizeFailed_keeps (.refl s)) (execSanitizeFailed.eq_def ..) ?_;
    refine .of_keeps (execProgressLog_keeps (.refl s)) (execProgressLog.eq_def ..) ?_;
    refine .of_keeps (execLockGrant_keeps (.refl s)) (execLockGrant.eq_def ..) ?_;
    refine .of_keeps (execRemoteLockTimeout_keeps (.refl s)) (execRemoteLockTimeout.eq_def ..) ?_;
    refine .of_keeps (execChlIdle_keeps (.refl s)) (execChlIdle.eq_def ..) ?_;
    refine .of_keeps (execChlNak_keeps (.refl s)) (execChlNak.eq_def ..) ?_;
    refine .of_keeps (execChlTrain_keeps (.refl s)) (execChlTrain.eq_def ..) ?_;
    refine .of_keeps (execHeartbeat_keeps (.refl s)) (execHeartbeat.eq_def ..) ?_;
    refine .of_keeps (execTime_keeps (.refl s)) (execTime.eq_def ..) ?_;
    refine .of_keeps (execNotice_keeps (.refl s)) (execNotice.eq_def ..) ?_;
    refine .of_keeps (execHandover_keeps (.refl s)) (execHandover.eq_def ..) ?_;
    refine .of_keeps (execShardset_keeps (.refl s)) (execShardset.eq_def ..) ?_;
    refine .of_keeps (execCapsule_keeps (.refl s)) (execCapsule.eq_def ..) ?_;
    refine .of_keeps (execLedger_keeps (.refl s)) (execLedger.eq_def ..) ?_;
    refine .of_keeps (execJwrite_keeps (.refl s)) (execJwrite.eq_def ..) ?_;
    refine .of_keeps (execRelease_keeps (.refl s)) (execRelease.eq_def ..) ?_;
    refine .of_keeps (execLock_keeps (.refl s)) (execLock.eq_def ..) ?_;
    refine .of_keeps (execMapupd_keeps (.refl s)) (execMapupd.eq_def ..) ?_;
    refine .of_keeps (execSync_keeps (.refl s)) (execSync.eq_def ..) ?_;
    refine .of_keeps (execShadowqp_keeps (.refl s)) (execShadowqp.eq_def ..) ?_;
    refine .of_keeps (execChlGapTimeout_keeps (.refl s)) (execChlGapTimeout.eq_def ..) ?_;
    refine .of_keeps (execChlAckTimeout_keeps (.refl s)) (execChlAckTimeout.eq_def ..) ?_;
    refine .of_keeps (execChlLaneRetire_keeps (.refl s)) (execChlLaneRetire.eq_def ..) ?_;
    refine .of_keeps (execChlLaneReturn_keeps (.refl s)) (execChlLaneReturn.eq_def ..) ?_;
    refine .of_keeps (execChlGroupLost_keeps (.refl s)) (execChlGroupLost.eq_def ..) ?_;
    refine .of_keeps (execChlIdleSend_keeps (.refl s)) (execChlIdleSend.eq_def ..) ?_;
    refine .of_keeps (execHeartbeatSend_keeps (.refl s)) (execHeartbeatSend.eq_def ..) ?_;
    refine .of_keeps (execWitnessWriteTick_keeps (.refl s)) (execWitnessWriteTick.eq_def ..) ?_;
    refine .of_keeps (execPartnerSilence_keeps (.refl s)) (execPartnerSilence.eq_def ..) ?_;
    refine .of_keeps (execWitnessEvaluate_keeps (.refl s)) (execWitnessEvaluate.eq_def ..) ?_;
    refine .of_keeps (execClaimDeferEnd_keeps (.refl s)) (execClaimDeferEnd.eq_def ..) ?_;
    refine .of_keeps (execLeaseExpiry_keeps (.refl s)) (execLeaseExpiry.eq_def ..) ?_;
    refine .of_keeps (execClaimReply_keeps (.refl s)) (execClaimReply.eq_def ..) ?_;
    refine .of_keeps (execClaimTimeout_keeps (.refl s)) (execClaimTimeout.eq_def ..) ?_;
    refine .of_keeps (execFencedReply_keeps (.refl s)) (execFencedReply.eq_def ..) ?_;
    refine .of_keeps (execTakeoverTransmitRelease_keeps (.refl s)) (execTakeoverTransmitRelease.eq_def ..) ?_;
    refine .of_keeps (execTakeoverGo_keeps (.refl s)) (execTakeoverGo.eq_def ..) ?_;
    refine .of_keeps (execHandoverReq_keeps (.refl s)) (execHandoverReq.eq_def ..) ?_;
    refine .of_keeps (execHandoverAcked_keeps (.refl s)) (execHandoverAcked.eq_def ..) ?_;
    refine .of_keeps (execProbeTimeout_keeps (.refl s)) (execProbeTimeout.eq_def ..) ?_;
    refine .of_keeps (execSoloWaitExpiry_keeps (.refl s)) (execSoloWaitExpiry.eq_def ..) ?_;
    refine .of_keeps (execPairStart_keeps (.refl s)) (execPairStart.eq_def ..) ?_;
    refine .of_keeps (execRejoinSync_keeps (.refl s)) (execRejoinSync.eq_def ..) ?_;
    refine .of_keeps (execUncorrectableMemoryError_keeps (.refl s)) (execUncorrectableMemoryError.eq_def ..) ?_;
    refine .of_keeps (execFrontPortLinkFault_keeps (.refl s)) (execFrontPortLinkFault.eq_def ..) ?_;
    refine .of_keeps (execJournalDestage_keeps (.refl s)) (execJournalDestage.eq_def ..) ?_;
    refine .of_keeps (execFingerprintDone_keeps (.refl s)) (execFingerprintDone.eq_def ..) ?_;
    refine .of_keeps (execFpSlotLoad_keeps (.refl s)) (execFpSlotLoad.eq_def ..) ?_;
    refine .of_keeps (execCandidateConfirm_keeps (.refl s)) (execCandidateConfirm.eq_def ..) ?_;
    refine .of_keeps (execFpSlotFlush_keeps (.refl s)) (execFpSlotFlush.eq_def ..) ?_;
    refine .of_keeps (execXtsSlotFlush_keeps (.refl s)) (execXtsSlotFlush.eq_def ..) ?_;
    refine .of_keeps (execLaneDisable_keeps (.refl s)) (execLaneDisable.eq_def ..) ?_;
    refine .of_keeps (execLaneFault_keeps (.refl s)) (execLaneFault.eq_def ..) ?_;
    refine .of_keeps (execChunkFreeStart_keeps (.refl s)) (execChunkFreeStart.eq_def ..) ?_;
    refine .of_keeps (execChunkFreeFinish_keeps (.refl s)) (execChunkFreeFinish.eq_def ..) ?_;
    refine .of_keeps (execPackClose_keeps (.refl s)) (execPackClose.eq_def ..) ?_;
    refine .of_keeps (execPackFlushTimeout_keeps (.refl s)) (execPackFlushTimeout.eq_def ..) ?_;
    refine .of_keeps (execCmpFlush_keeps (.refl s)) (execCmpFlush.eq_def ..) ?_;
    refine .of_keeps (execPackCompressDone_keeps (.refl s)) (execPackCompressDone.eq_def ..) ?_;
    refine .of_keeps (execPackEncryptDone_keeps (.refl s)) (execPackEncryptDone.eq_def ..) ?_;
    refine .of_keeps (execPackDecryptDone_keeps (.refl s)) (execPackDecryptDone.eq_def ..) ?_;
    refine .of_keeps (execPackInflateDone_keeps (.refl s)) (execPackInflateDone.eq_def ..) ?_;
    refine .of_keeps (execXtsSlotLoad_keeps (.refl s)) (execXtsSlotLoad.eq_def ..) ?_;
    refine .of_keeps (execGcmKeyLoad_keeps (.refl s)) (execGcmKeyLoad.eq_def ..) ?_;
    refine .of_keeps (execGcmEncrypt_keeps (.refl s)) (execGcmEncrypt.eq_def ..) ?_;
    refine .of_keeps (execGcmDecrypt_keeps (.refl s)) (execGcmDecrypt.eq_def ..) ?_;
    refine .of_keeps (execKcuEnc_keeps (.refl s)) (execKcuEnc.eq_def ..) ?_;
    refine .of_keeps (execKcuDec_keeps (.refl s)) (execKcuDec.eq_def ..) ?_;
    refine .of_keeps (execKcuEncChain_keeps (.refl s)) (execKcuEncChain.eq_def ..) ?_;
    refine .of_keeps (execKcuDecChain_keeps (.refl s)) (execKcuDecChain.eq_def ..) ?_;
    refine .of_keeps (execKcuSetChain_keeps (.refl s)) (execKcuSetChain.eq_def ..) ?_;
    refine .of_keeps (execKcuLoadWrapped_keeps (.refl s)) (execKcuLoadWrapped.eq_def ..) ?_;
    refine .of_keeps (execKcuLoadClear_keeps (.refl s)) (execKcuLoadClear.eq_def ..) ?_;
    refine .of_keeps (execKcuSaveClear_keeps (.refl s)) (execKcuSaveClear.eq_def ..) ?_;
    refine .of_keeps (execKcuSaveWrapped_keeps (.refl s)) (execKcuSaveWrapped.eq_def ..) ?_;
    refine .of_keeps (execKcuRestore_keeps (.refl s)) (execKcuRestore.eq_def ..) ?_;
    refine .of_keeps (execKcuRecCreate_keeps (.refl s)) (execKcuRecCreate.eq_def ..) ?_;
    refine .of_keeps (execKcuRecAddGen_keeps (.refl s)) (execKcuRecAddGen.eq_def ..) ?_;
    refine .of_keeps (execKcuRecDropGen_keeps (.refl s)) (execKcuRecDropGen.eq_def ..) ?_;
    refine .of_keeps (execKcuClose_keeps (.refl s)) (execKcuClose.eq_def ..) ?_;
    refine .of_keeps (execMapLookup_keeps (.refl s)) (execMapLookup.eq_def ..) ?_;
    refine .of_keeps (execMapFillDone_keeps (.refl s)) (execMapFillDone.eq_def ..) ?_;
    refine .of_keeps (execMapLineWritebackDone_keeps (.refl s)) (execMapLineWritebackDone.eq_def ..) ?_;
    refine .of_keeps (execMapRangeClean_keeps (.refl s)) (execMapRangeClean.eq_def ..) ?_;
    refine .of_keeps (execMapRangeInvalidate_keeps (.refl s)) (execMapRangeInvalidate.eq_def ..) ?_;
    refine .of_keeps (execMapRangeCleanInv_keeps (.refl s)) (execMapRangeCleanInv.eq_def ..) ?_;
    refine .of_keeps (execMapRangeLoadPin_keeps (.refl s)) (execMapRangeLoadPin.eq_def ..) ?_;
    refine .of_keeps (execMapRangeUnpin_keeps (.refl s)) (execMapRangeUnpin.eq_def ..) ?_;
    refine .of_keeps (execMapRangeSweep_keeps (.refl s)) (execMapRangeSweep.eq_def ..) ?_;
    refine .of_keeps (execMapRangeDone_keeps (.refl s)) (execMapRangeDone.eq_def ..) ?_;
    refine .of_keeps (execStripeTimeout_keeps (.refl s)) (execStripeTimeout.eq_def ..) ?_;
    refine .of_keeps (execStripePlaced_keeps (.refl s)) (execStripePlaced.eq_def ..) ?_;
    refine .of_keeps (execGcSegment_keeps (.refl s)) (execGcSegment.eq_def ..) ?_;
    refine .of_keeps (execSegmentReclaim_keeps (.refl s)) (execSegmentReclaim.eq_def ..) ?_;
    refine .of_keeps (execReadPointNotice_keeps (.refl s)) (execReadPointNotice.eq_def ..) ?_;
    refine .of_keeps (execJournalAdmit_keeps (.refl s)) (execJournalAdmit.eq_def ..) ?_;
    refine .of_keeps (execJournalRelease_keeps (.refl s)) (execJournalRelease.eq_def ..) ?_;
    refine .of_keeps (execLogPageTimeout_keeps (.refl s)) (execLogPageTimeout.eq_def ..) ?_;
    refine .of_keeps (execLogPageDurable_keeps (.refl s)) (execLogPageDurable.eq_def ..) ?_;
    refine .of_keeps (execCheckpointReq_keeps (.refl s)) (execCheckpointReq.eq_def ..) ?_;
    refine .of_keeps (execCheckpointTimer_keeps (.refl s)) (execCheckpointTimer.eq_def ..) ?_;
    refine .of_keeps (execCarrierAttach_keeps (.refl s)) (execCarrierAttach.eq_def ..) ?_;
    refine .of_keeps (execSfbIdle_keeps (.refl s)) (execSfbIdle.eq_def ..) ?_;
    refine .of_keeps (execSfbNak_keeps (.refl s)) (execSfbNak.eq_def ..) ?_;
    refine .of_keeps (execSfbTrain_keeps (.refl s)) (execSfbTrain.eq_def ..) ?_;
    refine .of_keeps (execSfbComplete_keeps (.refl s)) (execSfbComplete.eq_def ..) ?_;
    refine .of_keeps (execRdata_keeps (.refl s)) (execRdata.eq_def ..) ?_;
    refine .of_keeps (execSfbEvent_keeps (.refl s)) (execSfbEvent.eq_def ..) ?_;
    refine .of_keeps (execSfbGapTimeout_keeps (.refl s)) (execSfbGapTimeout.eq_def ..) ?_;
    refine .of_keeps (execSfbAckTimeout_keeps (.refl s)) (execSfbAckTimeout.eq_def ..) ?_;
    refine .of_keeps (execSfbLaneRetire_keeps (.refl s)) (execSfbLaneRetire.eq_def ..) ?_;
    refine .of_keeps (execSfbLaneReturn_keeps (.refl s)) (execSfbLaneReturn.eq_def ..) ?_;
    refine .of_keeps (execSfbPortLost_keeps (.refl s)) (execSfbPortLost.eq_def ..) ?_;
    refine .of_keeps (execLdpcDecodeDone_keeps (.refl s)) (execLdpcDecodeDone.eq_def ..) ?_;
    refine .of_keeps (execOpStarved_keeps (.refl s)) (execOpStarved.eq_def ..) ?_;
    refine .of_keeps (execSlowDieProbe_keeps (.refl s)) (execSlowDieProbe.eq_def ..) ?_;
    refine .of_keeps (execParLostDeclare_keeps (.refl s)) (execParLostDeclare.eq_def ..) ?_;
    refine .of_keeps (execParLostClear_keeps (.refl s)) (execParLostClear.eq_def ..) ?_;
    refine .of_keeps (execRebuildRateWindow_keeps (.refl s)) (execRebuildRateWindow.eq_def ..) ?_;
    refine .of_keeps (execSlowEvict_keeps (.refl s)) (execSlowEvict.eq_def ..) ?_;
    refine .of_keeps (execSjPageTimeout_keeps (.refl s)) (execSjPageTimeout.eq_def ..) ?_;
    refine .of_keeps (execReshapeNativeGo_keeps (.refl s)) (execReshapeNativeGo.eq_def ..) ?_;
    refine .of_keeps (execReshapeVx5Go_keeps (.refl s)) (execReshapeVx5Go.eq_def ..) ?_;
    refine .of_keeps (execReshapeStop_keeps (.refl s)) (execReshapeStop.eq_def ..) ?_;
    refine .of_keeps (execScrubPost_keeps (.refl s)) (execScrubPost.eq_def ..) ?_;
    refine .of_keeps (execFrameReceive_keeps (.refl s)) (execFrameReceive.eq_def ..) ?_;
    refine .of_keeps (execLosslessXon_keeps (.refl s)) (execLosslessXon.eq_def ..) ?_;
    refine .of_keeps (execPfcRefresh_keeps (.refl s)) (execPfcRefresh.eq_def ..) ?_;
    refine .of_keeps (execPauseFrame_keeps (.refl s)) (execPauseFrame.eq_def ..) ?_;
    refine .of_keeps (execPauseExpiry_keeps (.refl s)) (execPauseExpiry.eq_def ..) ?_;
    refine .of_keeps (execPauseStorm_keeps (.refl s)) (execPauseStorm.eq_def ..) ?_;
    refine .of_keeps (execPauseStormEnd_keeps (.refl s)) (execPauseStormEnd.eq_def ..) ?_;
    refine .of_keeps (execTxFrameDone_keeps (.refl s)) (execTxFrameDone.eq_def ..) ?_;
    refine .of_keeps (execCounterSnapshot_keeps (.refl s)) (execCounterSnapshot.eq_def ..) ?_;
    refine .of_keeps (execAddressRequest_keeps (.refl s)) (execAddressRequest.eq_def ..) ?_;
    refine .of_keeps (execRoceSend_keeps (.refl s)) (execRoceSend.eq_def ..) ?_;
    refine .of_keeps (execRdmaReadResponse_keeps (.refl s)) (execRdmaReadResponse.eq_def ..) ?_;
    refine .of_keeps (execRoceAcknowledge_keeps (.refl s)) (execRoceAcknowledge.eq_def ..) ?_;
    refine .of_keeps (execCnpReceive_keeps (.refl s)) (execCnpReceive.eq_def ..) ?_;
    refine .of_keeps (execCcAlphaUpdate_keeps (.refl s)) (execCcAlphaUpdate.eq_def ..) ?_;
    refine .of_keeps (execCcRateIncrease_keeps (.refl s)) (execCcRateIncrease.eq_def ..) ?_;
    refine .of_keeps (execReorderTimeout_keeps (.refl s)) (execReorderTimeout.eq_def ..) ?_;
    refine .of_keeps (execContextFetchDone_keeps (.refl s)) (execContextFetchDone.eq_def ..) ?_;
    refine .of_keeps (execLocalAckTimeout_keeps (.refl s)) (execLocalAckTimeout.eq_def ..) ?_;
    refine .of_keeps (execQpCreate_keeps (.refl s)) (execQpCreate.eq_def ..) ?_;
    refine .of_keeps (execQpDestroy_keeps (.refl s)) (execQpDestroy.eq_def ..) ?_;
    refine .of_keeps (execQpMoveToError_keeps (.refl s)) (execQpMoveToError.eq_def ..) ?_;
    refine .of_keeps (execQpReuseExpiry_keeps (.refl s)) (execQpReuseExpiry.eq_def ..) ?_;
    refine .of_keeps (execLinkDown_keeps (.refl s)) (execLinkDown.eq_def ..) ?_;
    refine .of_keeps (execLinkUp_keeps (.refl s)) (execLinkUp.eq_def ..) ?_;
    refine .of_keeps (execLinkDownTimeout_keeps (.refl s)) (execLinkDownTimeout.eq_def ..) ?_;
    refine .of_keeps (execSnapshotReady_keeps (.refl s)) (execSnapshotReady.eq_def ..) ?_;
    refine .of_keeps (execPronghornData_keeps (.refl s)) (execPronghornData.eq_def ..) ?_;
    refine .of_keeps (execPronghornAck_keeps (.refl s)) (execPronghornAck.eq_def ..) ?_;
    refine .of_keeps (execPronghornNack_keeps (.refl s)) (execPronghornNack.eq_def ..) ?_;
    refine .of_keeps (execPronghornProbe_keeps (.refl s)) (execPronghornProbe.eq_def ..) ?_;
    refine .of_keeps (execPgtNackTimeout_keeps (.refl s)) (execPgtNackTimeout.eq_def ..) ?_;
    refine .of_keeps (execPgtRto_keeps (.refl s)) (execPgtRto.eq_def ..) ?_;
    refine .of_keeps (execPathQuarantineEnd_keeps (.refl s)) (execPathQuarantineEnd.eq_def ..) ?_;
    refine .of_keeps (execFplist_keeps (.refl s)) (execFplist.eq_def ..) ?_;
    refine .of_keeps (execNeed_keeps (.refl s)) (execNeed.eq_def ..) ?_;
    refine .of_keeps (execChunks_keeps (.refl s)) (execChunks.eq_def ..) ?_;
    refine .of_keeps (execMaps_keeps (.refl s)) (execMaps.eq_def ..) ?_;
    refine .of_keeps (execCommit_keeps (.refl s)) (execCommit.eq_def ..) ?_;
    refine .of_keeps (execCommitted_keeps (.refl s)) (execCommitted.eq_def ..) ?_;
    refine .of_keeps (execJrec_keeps (.refl s)) (execJrec.eq_def ..) ?_;
    refine .of_keeps (execJack_keeps (.refl s)) (execJack.eq_def ..) ?_;
    refine .of_keeps (execSyncReplTimeout_keeps (.refl s)) (execSyncReplTimeout.eq_def ..) ?_;
    refine .of_keeps (execSessionCreate_keeps (.refl s)) (execSessionCreate.eq_def ..) ?_;
    refine .of_keeps (execSessionDestroy_keeps (.refl s)) (execSessionDestroy.eq_def ..) ?_;
    refine .of_keeps (execSessionNewGeneration_keeps (.refl s)) (execSessionNewGeneration.eq_def ..) ?_;
    refine .of_keeps (execSessionSetDegraded_keeps (.refl s)) (execSessionSetDegraded.eq_def ..) ?_;
    refine .of_keeps (execSessionClearDegraded_keeps (.refl s)) (execSessionClearDegraded.eq_def ..) ?_;
    refine .of_keeps (execCsaSearch_keeps (.refl s)) (execCsaSearch.eq_def ..) ?_;
    refine .of_keeps (execCsaFloor_keeps (.refl s)) (execCsaFloor.eq_def ..) ?_;
    refine .of_keeps (execCsaWrite_keeps (.refl s)) (execCsaWrite.eq_def ..) ?_;
    refine .of_keeps (execCsaInvalidate_keeps (.refl s)) (execCsaInvalidate.eq_def ..) ?_;
    refine .of_keeps (execCsaRead_keeps (.refl s)) (execCsaRead.eq_def ..) ?_;
    refine .of_keeps (execInsertRing_keeps (.refl s)) (execInsertRing.eq_def ..) ?_;
    refine .of_keeps (execDeleteMatch_keeps (.refl s)) (execDeleteMatch.eq_def ..) ?_;
    refine .of_keeps (execInvalidateMasked_keeps (.refl s)) (execInvalidateMasked.eq_def ..) ?_;
    refine .of_keeps (execOrdInsert_keeps (.refl s)) (execOrdInsert.eq_def ..) ?_;
    refine .of_keeps (execOrdDelete_keeps (.refl s)) (execOrdDelete.eq_def ..) ?_;
    refine .of_keeps (execRespreadDone_keeps (.refl s)) (execRespreadDone.eq_def ..) ?_;
    refine .of_keeps (execDgeStart_keeps (.refl s)) (execDgeStart.eq_def ..) ?_;
    refine .of_keeps (execDgeData_keeps (.refl s)) (execDgeData.eq_def ..) ?_;
    refine .of_keeps (execDgeLast_keeps (.refl s)) (execDgeLast.eq_def ..) ?_;
    refine .of_keeps (execDgeFeed_keeps (.refl s)) (execDgeFeed.eq_def ..) ?_;
    refine .of_keeps (execDgeFeedDone_keeps (.refl s)) (execDgeFeedDone.eq_def ..) ?_;
    refine .of_keeps (execDgeFinish_keeps (.refl s)) (execDgeFinish.eq_def ..) ?_;
    refine .of_keeps (execDgeAbort_keeps (.refl s)) (execDgeAbort.eq_def ..) ?_;
    refine .of_keeps (execDgeArm_keeps (.refl s)) (execDgeArm.eq_def ..) ?_;
    refine .of_keeps (execDgeDisarm_keeps (.refl s)) (execDgeDisarm.eq_def ..) ?_;
    refine .of_keeps (execDgeTapTransfer_keeps (.refl s)) (execDgeTapTransfer.eq_def ..) ?_;
    refine .of_keeps (execDgeSaveClear_keeps (.refl s)) (execDgeSaveClear.eq_def ..) ?_;
    refine .of_keeps (execDgeSaveWrapped_keeps (.refl s)) (execDgeSaveWrapped.eq_def ..) ?_;
    refine .of_keeps (execDgeRestore_keeps (.refl s)) (execDgeRestore.eq_def ..) ?_;
    refine .of_keeps (execDgeResult_keeps (.refl s)) (execDgeResult.eq_def ..) ?_;
    refine .of_keeps (execDgeSlotLoadClear_keeps (.refl s)) (execDgeSlotLoadClear.eq_def ..) ?_;
    refine .of_keeps (execDgeSlotLoadWrapped_keeps (.refl s)) (execDgeSlotLoadWrapped.eq_def ..) ?_;
    refine .of_keeps (execDgeSlotLoadDerived_keeps (.refl s)) (execDgeSlotLoadDerived.eq_def ..) ?_;
    refine .of_keeps (execDgeSlotClear_keeps (.refl s)) (execDgeSlotClear.eq_def ..) ?_;
    refine .of_keeps (execChannelFreezeRequest_keeps (.refl s)) (execChannelFreezeRequest.eq_def ..) ?_;
    refine .of_keeps (execChannelFrozen_keeps (.refl s)) (execChannelFrozen.eq_def ..) ?_;
    refine .of_keeps (execThawResume_keeps (.refl s)) (execThawResume.eq_def ..) ?_;
    refine .of_keeps (execThawAbort_keeps (.refl s)) (execThawAbort.eq_def ..) ?_;
    refine .of_keeps (execWinFaultRead_keeps (.refl s)) (execWinFaultRead.eq_def ..) ?_;
    refine .of_keeps (execRingConsume_keeps (.refl s)) (execRingConsume.eq_def ..) ?_;
    refine .of_keeps (execRingPost_keeps (.refl s)) (execRingPost.eq_def ..) ?_;
    refine .of_keeps (execTick_keeps (.refl s)) (execTick.eq_def ..) ?_;
    refine .of_keeps (execDmaCopy_keeps (.refl s)) (execDmaCopy.eq_def ..) ?_;
    refine .of_keeps (execDmaFill_keeps (.refl s)) (execDmaFill.eq_def ..) ?_;
    refine .of_keeps (execDmaReadPage_keeps (.refl s)) (execDmaReadPage.eq_def ..) ?_;
    refine .of_keeps (execDmaReadPack_keeps (.refl s)) (execDmaReadPack.eq_def ..) ?_;
    refine .of_keeps (execDmaDone_keeps (.refl s)) (execDmaDone.eq_def ..) ?_;
    refine .of_keeps (execCmtClean_keeps (.refl s)) (execCmtClean.eq_def ..) ?_;
    refine .of_keeps (execCmtInvalidate_keeps (.refl s)) (execCmtInvalidate.eq_def ..) ?_;
    refine .of_keeps (execCmtCleanInv_keeps (.refl s)) (execCmtCleanInv.eq_def ..) ?_;
    refine .of_keeps (execCmtDone_keeps (.refl s)) (execCmtDone.eq_def ..) ?_;
    refine .of_keeps (execWatchdogArm_keeps (.refl s)) (execWatchdogArm.eq_def ..) ?_;
    refine .of_keeps (execWatchdogKick_keeps (.refl s)) (execWatchdogKick.eq_def ..) ?_;
    refine .of_keeps (execWatchdogExpiry_keeps (.refl s)) (execWatchdogExpiry.eq_def ..) ?_;
    refine .of_keeps (execCaptureStart_keeps (.refl s)) (execCaptureStart.eq_def ..) ?_;
    refine .of_keeps (execCaptureStop_keeps (.refl s)) (execCaptureStop.eq_def ..) ?_;
    refine .of_keeps (execCaptureSnap_keeps (.refl s)) (execCaptureSnap.eq_def ..) ?_;
    refine .of_keeps (execBDieStart_keeps (.refl s)) (execBDieStart.eq_def ..) ?_;
    refine .of_keeps (execChallengeLapse_keeps (.refl s)) (execChallengeLapse.eq_def ..) ?_;
    refine .of_keeps (execGetChallenge_keeps (.refl s)) (execGetChallenge.eq_def ..) ?_;
    refine .of_keeps (execGetCalrow_keeps (.refl s)) (execGetCalrow.eq_def ..) ?_;
    refine .of_keeps (execInstall_keeps (.refl s)) (execInstall.eq_def ..) ?_;
    refine .of_keeps (execSetOpkey_keeps (.refl s)) (execSetOpkey.eq_def ..) ?_;
    refine .of_keeps (execRevokeOpkey_keeps (.refl s)) (execRevokeOpkey.eq_def ..) ?_;
    refine .of_keeps (execClearEvr_keeps (.refl s)) (execClearEvr.eq_def ..) ?_;
    refine .of_keeps (execLayout_keeps (.refl s)) (execLayout.eq_def ..) ?_;
    refine .of_keeps (execEpochReinit_keeps (.refl s)) (execEpochReinit.eq_def ..) ?_;
    refine .of_keeps (execClearDeferred_keeps (.refl s)) (execClearDeferred.eq_def ..) ?_;
    refine .of_keeps (execNsCreate_keeps (.refl s)) (execNsCreate.eq_def ..) ?_;
    refine .of_keeps (execNsDelete_keeps (.refl s)) (execNsDelete.eq_def ..) ?_;
    refine .of_keeps (execNsDisable_keeps (.refl s)) (execNsDisable.eq_def ..) ?_;
    refine .of_keeps (execNsEnable_keeps (.refl s)) (execNsEnable.eq_def ..) ?_;
    refine .of_keeps (execC0Resident_keeps (.refl s)) (execC0Resident.eq_def ..) ?_;
    refine .of_keeps (execAdminHosts_keeps (.refl s)) (execAdminHosts.eq_def ..) ?_;
    refine .of_keeps (execSnapCreate_keeps (.refl s)) (execSnapCreate.eq_def ..) ?_;
    refine .of_keeps (execSnapDelete_keeps (.refl s)) (execSnapDelete.eq_def ..) ?_;
    refine .of_keeps (execCloneCreate_keeps (.refl s)) (execCloneCreate.eq_def ..) ?_;
    refine .of_keeps (execReplSession_keeps (.refl s)) (execReplSession.eq_def ..) ?_;
    refine .of_keeps (execDomainCreate_keeps (.refl s)) (execDomainCreate.eq_def ..) ?_;
    refine .of_keeps (execKeyRotate_keeps (.refl s)) (execKeyRotate.eq_def ..) ?_;
    refine .of_keeps (execDomainExport_keeps (.refl s)) (execDomainExport.eq_def ..) ?_;
    refine .of_keeps (execDomainImport_keeps (.refl s)) (execDomainImport.eq_def ..) ?_;
    refine .of_keeps (execEnrolModule_keeps (.refl s)) (execEnrolModule.eq_def ..) ?_;
    refine .of_keeps (execUnenrolModule_keeps (.refl s)) (execUnenrolModule.eq_def ..) ?_;
    refine .of_keeps (execActivate_keeps (.refl s)) (execActivate.eq_def ..) ?_;
    refine .of_keeps (execThermalResume_keeps (.refl s)) (execThermalResume.eq_def ..) ?_;
    refine .of_keeps (execDebugUnlock_keeps (.refl s)) (execDebugUnlock.eq_def ..) ?_;
    refine .of_keeps (execRoleReplyRead_keeps (.refl s)) (execRoleReplyRead.eq_def ..) ?_;
    refine .of_keeps (execAttestNonce_keeps (.refl s)) (execAttestNonce.eq_def ..) ?_;
    refine .of_keeps (execAttestReport_keeps (.refl s)) (execAttestReport.eq_def ..) ?_;
    refine .of_keeps (execAttestCalrow_keeps (.refl s)) (execAttestCalrow.eq_def ..) ?_;
    refine .of_keeps (execSetEndpointId_keeps (.refl s)) (execSetEndpointId.eq_def ..) ?_;
    refine .of_keeps (execGetEndpointId_keeps (.refl s)) (execGetEndpointId.eq_def ..) ?_;
    refine .of_keeps (execGetMctpVersionSupport_keeps (.refl s)) (execGetMctpVersionSupport.eq_def ..) ?_;
    refine .of_keeps (execGetMessageTypeSupport_keeps (.refl s)) (execGetMessageTypeSupport.eq_def ..) ?_;
    refine .of_keeps (execGetVendorMessageSupport_keeps (.refl s)) (execGetVendorMessageSupport.eq_def ..) ?_;
    refine .of_keeps (execGetId_keeps (.refl s)) (execGetId.eq_def ..) ?_;
    refine .of_keeps (execGetSensors_keeps (.refl s)) (execGetSensors.eq_def ..) ?_;
    refine .of_keeps (execGetCounters_keeps (.refl s)) (execGetCounters.eq_def ..) ?_;
    refine .of_keeps (execEvrFreeze_keeps (.refl s)) (execEvrFreeze.eq_def ..) ?_;
    refine .of_keeps (execEvrRead_keeps (.refl s)) (execEvrRead.eq_def ..) ?_;
    refine .of_keeps (execEvrThaw_keeps (.refl s)) (execEvrThaw.eq_def ..) ?_;
    refine .of_keeps (execEvrFreezeTimeout_keeps (.refl s)) (execEvrFreezeTimeout.eq_def ..) ?_;
    refine .of_keeps (execTripRead_keeps (.refl s)) (execTripRead.eq_def ..) ?_;
    refine .of_keeps (execMgmtRole_keeps (.refl s)) (execMgmtRole.eq_def ..) ?_;
    refine .of_keeps (execAttest_keeps (.refl s)) (execAttest.eq_def ..) ?_;
    refine .of_keeps (execImgBegin_keeps (.refl s)) (execImgBegin.eq_def ..) ?_;
    refine .of_keeps (execImgWrite_keeps (.refl s)) (execImgWrite.eq_def ..) ?_;
    refine .of_keeps (execImgEnd_keeps (.refl s)) (execImgEnd.eq_def ..) ?_;
    refine .of_keeps (execMailboxSend_keeps (.refl s)) (execMailboxSend.eq_def ..) ?_;
    refine .of_keeps (execHandoff_keeps (.refl s)) (execHandoff.eq_def ..) ?_;
    refine .of_keeps (execRoleReq_keeps (.refl s)) (execRoleReq.eq_def ..) ?_;
    refine .of_keeps (execRoleDone_keeps (.refl s)) (execRoleDone.eq_def ..) ?_;
    refine .of_keeps (execMailboxNotice_keeps (.refl s)) (execMailboxNotice.eq_def ..) ?_;
    refine .of_keeps (execOpkeys_keeps (.refl s)) (execOpkeys.eq_def ..) ?_;
    refine .of_keeps (execAwk_keeps (.refl s)) (execAwk.eq_def ..) ?_;
    refine .of_keeps (execActivateMessage_keeps (.refl s)) (execActivateMessage.eq_def ..) ?_;
    refine .of_keeps (execEventMessage_keeps (.refl s)) (execEventMessage.eq_def ..) ?_;
    refine .of_keeps (execEvrPost_keeps (.refl s)) (execEvrPost.eq_def ..) ?_;
    refine .of_keeps (execNorWindowOpen_keeps (.refl s)) (execNorWindowOpen.eq_def ..) ?_;
    refine .of_keeps (execRoSensorSample_keeps (.refl s)) (execRoSensorSample.eq_def ..) ?_;
    refine .of_keeps (execDiodeSensorSample_keeps (.refl s)) (execDiodeSensorSample.eq_def ..) ?_;
    refine .of_keeps (execThermalEvaluate_keeps (.refl s)) (execThermalEvaluate.eq_def ..) ?_;
    refine .of_keeps (execThrottleRaise_keeps (.refl s)) (execThrottleRaise.eq_def ..) ?_;
    refine .of_keeps (execThrottleLower_keeps (.refl s)) (execThrottleLower.eq_def ..) ?_;
    refine .of_keeps (execSecondsTick_keeps (.refl s)) (execSecondsTick.eq_def ..) ?_;
    refine .of_keeps (execCounterLogEntry_keeps (.refl s)) (execCounterLogEntry.eq_def ..) ?_;
    refine .of_keeps (execAoRailRise_keeps (.refl s)) (execAoRailRise.eq_def ..) ?_;
    refine .of_keeps (execVinRise_keeps (.refl s)) (execVinRise.eq_def ..) ?_;
    refine .of_keeps (execConverterStop_keeps (.refl s)) (execConverterStop.eq_def ..) ?_;
    refine .of_keeps (execPfWarn_keeps (.refl s)) (execPfWarn.eq_def ..) ?_;
    refine .of_keeps (execVinUndervoltage_keeps (.refl s)) (execVinUndervoltage.eq_def ..) ?_;
    refine .of_keeps (execModEnLow_keeps (.refl s)) (execModEnLow.eq_def ..) ?_;
    refine .of_keeps (execDumpEnd_keeps (.refl s)) (execDumpEnd.eq_def ..) ?_;
    refine .of_keeps (execPowerHoldExit_keeps (.refl s)) (execPowerHoldExit.eq_def ..) ?_;
    refine .of_keeps (execSysRst_keeps (.refl s)) (execSysRst.eq_def ..) ?_;
    refine .of_keeps (execPwrRstHead_keeps (.refl s)) (execPwrRstHead.eq_def ..) ?_;
    refine .of_keeps (execPwrRstDomain_keeps (.refl s)) (execPwrRstDomain.eq_def ..) ?_;
    refine .of_keeps (execRailFault_keeps (.refl s)) (execRailFault.eq_def ..) ?_;
    refine .of_keeps (execRefclkLoss_keeps (.refl s)) (execRefclkLoss.eq_def ..) ?_;
    refine .of_keeps (execDumpErase_keeps (.refl s)) (execDumpErase.eq_def ..) ?_;
    refine .of_keeps (execTimeExchangeSend_keeps (.refl s)) (execTimeExchangeSend.eq_def ..) ?_;
    refine .of_keeps (execPtpDelayResp_keeps (.refl s)) (execPtpDelayResp.eq_def ..) ?_;
    refine .of_keeps (execPpsOutEdge_keeps (.refl s)) (execPpsOutEdge.eq_def ..) ?_;
    refine .of_keeps (execSfbIdleSend_keeps (.refl s)) (execSfbIdleSend.eq_def ..) ?_;
    refine .of_keeps (execAoRailLoss_keeps (.refl s)) (execAoRailLoss.eq_def ..) ?_;
    refine .of_keeps (execBootComplete_keeps (.refl s)) (execBootComplete.eq_def ..) ?_;
    refine .of_keeps (execManagementWatchdogExpiry_keeps (.refl s)) (execManagementWatchdogExpiry.eq_def ..) ?_;
    refine .of_keeps (execRegisterReadClear_keeps (.refl s)) (execRegisterReadClear.eq_def ..) ?_;
    refine .of_keeps (execJtagInstruction_keeps (.refl s)) (execJtagInstruction.eq_def ..) ?_;
    refine .of_keeps (execI3cDynamicAddress_keeps (.refl s)) (execI3cDynamicAddress.eq_def ..) ?_;
    refine .of_keeps (execI3cMaxLengthSet_keeps (.refl s)) (execI3cMaxLengthSet.eq_def ..) ?_;
    refine .of_keeps (execModEnRise_keeps (.refl s)) (execModEnRise.eq_def ..) ?_]
  -- what is left are the bodies of the meanings: branches and bindings lead to a `.next` at each leaf; where the branch is on a
  -- bound value (JREC), its value does not matter
  all_goals
    repeat'
      first
      | with_reducible exact IsNext.next _
      | split
      | extract_lets
      | (clear_value *; split)

/-- Settles O6: the next state that a command reaches keeps the queue and the variant. -/
theorem everyCommandEndsInANextState : Obligations.EveryCommandEndsInANextState := by
  unfold Obligations.EveryCommandEndsInANextState
  intro c s
  obtain ⟨t, ht, hk⟩ := exec_reaches c s
  exact ⟨t, ht, hk.pending, hk.variant⟩

end Sys2Proof.Machine
end

section
/-! Accesses that are not made: decode errors of the management processor, window faults of herd cores (R33, R34, R560). -/

namespace Sys2Proof.Machine

open Sys2Proof

/-- A decode error of the management processor: the access is not made, and a bus error answers it (R33). -/
theorem State.checkAccess_mp_undecoded {s : State} {addr size : Nat} (h : s.decodeCsr addr size = none) (k : AccKind) :
    s.checkAccess .mp addr size k =
      (false, { s.emit (.busError addr) with hrd := { s.hrd with busErrors := s.hrd.busErrors + 1 } }) := by
  simp [State.checkAccess, h]

/-- A window fault of a herd core comes before decoding: the access is not made, whatever register it names (R34). -/
theorem State.checkAccess_herd_fault {s : State} {tile cl addr c : Nat} {k : AccKind}
    (h : s.windowFault tile cl (csrBase + addr) k = some c) (core size : Nat) :
    s.checkAccess (.herd tile cl core) addr size k = (false, s.coreFault tile cl core (csrBase + addr) k c) := by
  simp [State.checkAccess, h]

/-- A fault record changes the register file and the fault logs alone. -/
theorem State.logFault_only (s : State) (tile : Nat) (f : FaultRec) :
    ∃ r l, s.logFault tile f = { s with regs := r, hrd := { s.hrd with log := l } } := by
  unfold State.logFault
  extract_lets
  split <;> exact ⟨_, _, rfl⟩

theorem State.reg_addFld_ne {s : State} (h : s.Ordered) {die d b o : Nat} {f : Fld} (n : Nat)
    (hk : regKey d b o ≠ regKey die f.blk f.off) : (s.addFld die f n).reg d b o = s.reg d b o :=
  State.reg_setReg_ne h _ hk

/-- A fault record counts in WIN_FCNT of its tile; every other register stays (R566). -/
theorem State.reg_logFault_ne {s : State} (h : s.Ordered) {tile d b o : Nat} (f : FaultRec)
    (hk : regKey d b o ≠ regKey (dieC tile) Reg.WIN_FCNT_FAULTS.blk Reg.WIN_FCNT_FAULTS.off) :
    (s.logFault tile f).reg d b o = s.reg d b o := by
  have hcount : (s.addFld (dieC tile) Reg.WIN_FCNT_FAULTS 1).reg d b o = s.reg d b o := State.reg_addFld_ne h 1 hk
  unfold State.logFault
  dsimp only
  split
  · exact hcount
  · have hcounted : (s.addFld (dieC tile) Reg.WIN_FCNT_FAULTS 1).Ordered := State.ordered_setFld h ..
    exact (State.reg_addFld_ne (f := Reg.WIN_FCNT_DROPPED) hcounted 1 hk).trans hcount

/-- A fault of a herd core adds its trap to what its record changes (R560). -/
theorem State.coreFault_only (s : State) (tile cl core addr : Nat) (k : AccKind) (c : Nat) :
    ∃ r l, s.coreFault tile cl core addr k c =
      { s with regs := r, hrd := { s.hrd with log := l, traps := s.hrd.traps ++ [(tile, cl, core, addr)] } } := by
  obtain ⟨r, l, e⟩ := s.logFault_only tile { mid := cl, chan := core, addr := addr, kind := k, cause := c, time := s.stamp (dieC tile) 11 }
  refine ⟨r, l, ?_⟩
  unfold State.coreFault
  dsimp only
  rw [e]

/-- Settles O11: `checkAccess` refuses each of these accesses, so that its bus error, or its trap and fault record, is all there is. -/
theorem undecodedAccessesChangeNothing : Obligations.UndecodedAccessesChangeNothing := by
  unfold Obligations.UndecodedAccessesChangeNothing
  refine ⟨fun s addr size val events hd => ?_, fun s addr size events hd => ?_, fun s tile cl core addr size cause val events ho hf => ?_⟩
  · refine ⟨_, ?_, rfl⟩
    show execRegisterWrite .mp addr size val events s = _
    simp only [execRegisterWrite, State.checkAccess_mp_undecoded hd, State.emit]
  · refine ⟨_, ?_, rfl⟩
    show execRegisterReadClear .mp addr size events s = _
    simp [execRegisterReadClear, State.checkAccess_mp_undecoded hd, State.emit]
  · have he : exec (.registerWrite (.herd tile cl core) addr size val events) s =
        .next (s.coreFault tile cl core (csrBase + addr) .write cause) := by
      show execRegisterWrite (.herd tile cl core) addr size val events s = _
      simp only [execRegisterWrite, State.checkAccess_herd_fault hf]
    obtain ⟨r, l, e⟩ := s.coreFault_only tile cl core (csrBase + addr) .write cause
    refine ⟨_, he, ?_, ?_, fun d b o hk => State.reg_logFault_ne ho _ hk, ?_⟩ <;> rw [e]

end Sys2Proof.Machine
end

section
/-! The module time base: its tick, its commands, and the first sample of a cold boot (R35 to R38, R45, R715). -/

namespace Sys2Proof.Machine

open Sys2Proof

/-! ## The tick (R36) -/

/-- A tick changes the time base and the discipline alone. -/
theorem State.tickTime_only (s : State) :
    s.tickTime = { s with ao := { s.ao with tb := s.tickTime.ao.tb }, time := s.tickTime.time } := by
  unfold State.tickTime
  extract_lets
  split
  · rfl
  · split <;> rfl

/-- A tick counts 1; where a rate correction has gathered a nanosecond it counts 2 or 0. -/
theorem State.tickTime_counts (s : State) :
    ∃ n, n ≤ 2 ∧ s.tickTime.ao.tb = (s.ao.tb + n) % 2 ^ 64 ∧ (s.time.corr = 0 → n = 1) := by
  unfold State.tickTime
  dsimp only
  split
  · exact ⟨1, by decide, rfl, fun _ => rfl⟩
  next hcorr =>
    split
    · exact ⟨1, by decide, rfl, fun _ => rfl⟩
    · by_cases hup : (0 : Int) < s.time.corr
      · exact ⟨2, Nat.le_refl 2, by simp [hup, tbMod], fun h => absurd h hcorr⟩
      · exact ⟨0, Nat.zero_le 2, by simp [hup, tbMod], fun h => absurd h hcorr⟩

/-- Settles O2: with nothing queued a step is a tick. -/
theorem idleStepCountsTimeBase : Obligations.IdleStepCountsTimeBase := by
  unfold Obligations.IdleStepCountsTimeBase
  intro s hs
  have hstep : step s = .next s.tickTime := by simp only [step, hs]
  exact ⟨_, hstep, s.tickTime_counts, s.tickTime_only⟩

/-! ## Commands of the time base (R35, R45, R715) -/

/-- Once an island has heeded a time message its copy is the count (R35). -/
theorem State.stamp_of_synced {s : State} (h : s.time.ticks = s.time.synced) (die island : Nat) : s.stamp die island = s.ao.tb :=
  if_pos h

/-- A Sync of a one-step master, or one whose Follow_Up has come, is noted; before a delay exchange that is all (R715). -/
theorem execPtpSyncSample_noted {s : State} {twoStep followUp : Bool} (h : (twoStep && !followUp) = false) (hd : s.time.meanDelay = none)
    (origin : Nat) : exec (.ptpSyncSample origin twoStep followUp) s =
      .next { s with time := { s.time with lastSync := some (origin, s.ao.tb) } } := by
  show execPtpSyncSample origin twoStep followUp s = _
  simp [execPtpSyncSample, h, hd]

/-- With a known mean path delay a Sync is a sample of the PTP source (R715). -/
theorem execPtpSyncSample_sample {s : State} {twoStep followUp : Bool} (h : (twoStep && !followUp) = false) {d : Int}
    (hd : s.time.meanDelay = some d) (origin : Nat) : exec (.ptpSyncSample origin twoStep followUp) s =
      .next (({ s with time := { s.time with lastSync := some (origin, s.ao.tb) } } : State).sample .ptp ((s.ao.tb : Int) - origin - d)) := by
  show execPtpSyncSample origin twoStep followUp s = _
  simp [execPtpSyncSample, h, hd]

/-- A Delay_Resp ends the exchange, which gives the mean path delay (R715). -/
theorem execPtpDelayResp_completes {s : State} {t1 t2 t3 : Nat} (hreq : s.time.reqSent = some t3) (hsync : s.time.lastSync = some (t1, t2))
    (received : Nat) : exec (.ptpDelayResp received) s = .next { s with time := { s.time with
      reqSent := none, meanDelay := some ((((t2 : Int) - t1) + ((received : Int) - t3)) / 2) } } := by
  show execPtpDelayResp received s = _
  simp only [execPtpDelayResp, hreq, hsync]

/-- A first Announce, or one of the present grandmaster, is taken (R45). -/
theorem execPtpAnnounce_taken {s : State} {gm : PtpDs} (h : ∀ g, s.time.gm = some g → g.1.id = gm.id) (steps : Nat) :
    exec (.ptpAnnounce gm steps) s = .next { s with time := { s.time with gm := some (gm, steps) } } := by
  show execPtpAnnounce gm steps s = _
  unfold execPtpAnnounce
  split
  · rfl
  next g hg => exact if_pos (h g hg)

/-- An Announce of another grandmaster is taken and recorded where it is the better one, else ignored (R45). -/
theorem execPtpAnnounce_other {s : State} {g : PtpDs × Nat} {gm : PtpDs} (hg : s.time.gm = some g) (h : g.1.id ≠ gm.id) (steps : Nat) :
    exec (.ptpAnnounce gm steps) s = .next (if PtpDs.better (gm, steps) g then
      ({ s with time := { s.time with gm := some (gm, steps) } } : State).event dieB 0x08 4 noInst else s) := by
  show execPtpAnnounce gm steps s = _
  simp only [execPtpAnnounce, hg, if_neg h]
  split <;> rfl

/-- Settles O14: each command's meaning under the condition on which it acts. -/
theorem timeCommandsFollowTheirRules : Obligations.TimeCommandsFollowTheirRules := by
  unfold Obligations.TimeCommandsFollowTheirRules
  refine ⟨fun s => ?timeMessage, fun s hen => ?delayReq, fun s received t1 t2 t3 hreq hsync => ?delayResp, fun s origin twoStep hd => ?sync,
    fun s hen hsec => ?ppsOut, fun s gm steps h => ?announce, fun s g gm steps hg h => execPtpAnnounce_other hg h steps,
    fun s hh hp hstale hlapse => ?timeout⟩
  case timeMessage =>
    exact ⟨{ s with time := { s.time with synced := s.time.ticks } }, rfl, fun die island => State.stamp_of_synced rfl die island, rfl⟩
  case delayReq => exact ⟨({ s with time := { s.time with reqSent := some s.ao.tb } } : State).emit .delayReq, if_pos hen, rfl, rfl⟩
  case delayResp => exact ⟨_, execPtpDelayResp_completes hreq hsync received, rfl, rfl⟩
  case sync => exact ⟨_, execPtpSyncSample_noted (Bool.and_false _) hd origin, rfl, rfl⟩
  case ppsOut => exact ⟨s.emit .ppsOut, if_pos (by simp [hen, hsec]), rfl⟩
  case announce => exact ⟨_, execPtpAnnounce_taken h steps, rfl⟩
  case timeout => exact if_pos ⟨hh, hp, by simp [hstale], hlapse⟩

/-! ## The choice of a source (R37, R44) -/

/-- The choice of a source ends a correction or not, and writes three fields of TBS_STATUS. -/
theorem State.selectSource_writes (s : State) : ∃ (u : State) (locked holdover : Bool),
    (∃ corr acc, u = { s with time := { s.time with corr := corr, acc := acc } }) ∧
      s.selectSource = ((u.setFld dieB Reg.TBS_STATUS_SOURCE ((s.bestSource.map TimeRef.code).getD 0)).setFlag dieB
        Reg.TBS_STATUS_LOCKED locked).setFlag dieB Reg.TBS_STATUS_HOLDOVER holdover := by
  unfold State.selectSource
  dsimp only
  by_cases h : s.fld dieB Reg.TBS_STATUS_SOURCE = (s.bestSource.map TimeRef.code).getD 0
  · exact ⟨s, _, _, ⟨s.time.corr, s.time.acc, rfl⟩, by rw [if_pos h]⟩
  · exact ⟨_, _, _, ⟨0, 0, rfl⟩, by rw [if_neg h]⟩

/-- The choice of a source changes the register file and the correction under way alone. -/
theorem State.selectSource_only (s : State) :
    ∃ regs corr acc, s.selectSource = { s with regs := regs, time := { s.time with corr := corr, acc := acc } } := by
  obtain ⟨_, locked, holdover, ⟨corr, acc, rfl⟩, e⟩ := s.selectSource_writes
  exact ⟨_, corr, acc, e⟩

theorem State.ordered_selectSource {s : State} (h : s.Ordered) : s.selectSource.Ordered := by
  obtain ⟨_, locked, holdover, ⟨corr, acc, rfl⟩, e⟩ := s.selectSource_writes
  rw [e]
  exact State.ordered_setFld (State.ordered_setFld (State.ordered_setFld h ..) ..) ..

/-- Another field of TBS_STATUS leaves SOURCE, its lowest field, alone. -/
theorem State.source_setFld {s : State} (h : s.Ordered) {f : Fld} (hreg : f.blk = 0x08 ∧ f.off = 0x10) (hbits : 2 ≤ f.lo ∧ f.lo + f.w ≤ 64)
    (v : Nat) : (s.setFld dieB f v).fld dieB Reg.TBS_STATUS_SOURCE = s.fld dieB Reg.TBS_STATUS_SOURCE :=
  State.fld_setFld_apart h dieB hbits.2 v hreg.1.symm hreg.2.symm (.inl hbits.1)

theorem State.source_setFlag {s : State} (h : s.Ordered) {f : Fld} (hreg : f.blk = 0x08 ∧ f.off = 0x10) (hbits : 2 ≤ f.lo ∧ f.lo + f.w ≤ 64)
    (b : Bool) : (s.setFlag dieB f b).fld dieB Reg.TBS_STATUS_SOURCE = s.fld dieB Reg.TBS_STATUS_SOURCE :=
  State.source_setFld h hreg hbits _

theorem State.ordered_setFlag {s : State} (h : s.Ordered) (die : Nat) (f : Fld) (b : Bool) : (s.setFlag die f b).Ordered :=
  State.ordered_setFld h ..

theorem TimeRef.code_lt (r : TimeRef) : r.code < 4 := by cases r <;> decide

/-- SOURCE reads the source that was chosen (R44). -/
theorem State.source_selectSource {s : State} (h : s.Ordered) :
    s.selectSource.fld dieB Reg.TBS_STATUS_SOURCE = (s.bestSource.map TimeRef.code).getD 0 := by
  obtain ⟨u, locked, holdover, hu, e⟩ := s.selectSource_writes
  have hu : u.Ordered := by obtain ⟨corr, acc, rfl⟩ := hu; exact h
  have hlt : (s.bestSource.map TimeRef.code).getD 0 < 4 := by
    cases s.bestSource with
    | none => decide
    | some r => exact r.code_lt
  have h1 := State.ordered_setFld hu dieB Reg.TBS_STATUS_SOURCE ((s.bestSource.map TimeRef.code).getD 0)
  rw [e, State.source_setFlag (State.ordered_setFlag h1 ..) (by decide) (by decide), State.source_setFlag h1 (by decide) (by decide),
    State.fld_setFld_same hu dieB (by decide)]
  exact Nat.mod_eq_of_lt hlt

/-- Without a partner the PTP source is the best once heard, and the 1PPS source while PTP has not been heard (R37). -/
theorem State.bestSource_without_partner {s : State} {r : TimeRef} (hp : s.pair.partner = none) (hr : r ≠ .partner)
    (hen : s.srcEnabled r = true) (hseen : (s.time.src r).seen = true) (hdead : (s.time.src r).dead = false)
    (hptp : r = .pps → s.time.ptp.seen = false) : s.bestSource = some r := by
  have hpartner : s.available .partner = false := by simp [State.available, State.follower, hp]
  have havail : s.available r = true := by
    cases r with
    | partner => exact absurd rfl hr
    | ptp | pps => simp [State.available, hen, hseen, hdead]
  cases r with
  | partner => exact absurd rfl hr
  | ptp => simp [State.bestSource, hpartner, havail]
  | pps =>
    have hno : s.available .ptp = false := by simp [State.available, TimeUnit.src, hptp rfl]
    simp [State.bestSource, hpartner, hno, havail]

/-! ## A sample (R36 to R38, R45) -/

/-- What a sample leaves in its source, before the choice of a source. -/
def State.withSrc (s : State) (r : TimeRef) (x : TimeSrc) : State :=
  { s with time := { s.time.setSrc r x with everLocked := s.time.everLocked || x.locked } }

theorem State.withSrc_src (s : State) (r : TimeRef) (x : TimeSrc) : (s.withSrc r x).time.src r = x := by cases r <;> rfl

theorem State.withSrc_stepped (s : State) (r : TimeRef) (x : TimeSrc) : (s.withSrc r x).time.stepped = s.time.stepped := by cases r <;> rfl

theorem State.withSrc_moments (s : State) (r : TimeRef) (x : TimeSrc) :
    (s.withSrc r x).time.lastSync = s.time.lastSync ∧ (s.withSrc r x).time.lastPps = s.time.lastPps := by
  cases r <;> exact ⟨rfl, rfl⟩

/-- A sample that is heard is kept, a source is chosen, and OFFSET is written where it is the chosen one's. -/
theorem State.heard_cases (s : State) (r : TimeRef) (x : TimeSrc) (off : Int) :
    s.heard r x off = (s.withSrc r x).selectSource ∨
      s.heard r x off = (s.withSrc r x).selectSource.setFld dieB Reg.TBS_STATUS_OFFSET (ofInt 32 off) := by
  by_cases h : (s.withSrc r x).selectSource.fld dieB Reg.TBS_STATUS_SOURCE = r.code
  · exact .inr (if_pos h)
  · exact .inl (if_neg h)

/-- A sample that is heard changes the register file and the discipline alone. -/
theorem State.heard_only (s : State) (r : TimeRef) (x : TimeSrc) (off : Int) : ∃ regs corr acc,
    s.heard r x off = { s with regs := regs, time := { (s.withSrc r x).time with corr := corr, acc := acc } } := by
  obtain ⟨regs, corr, acc, e⟩ := (s.withSrc r x).selectSource_only
  rcases s.heard_cases r x off with h | h
  · exact ⟨regs, corr, acc, h.trans e⟩
  · exact ⟨_, corr, acc, h.trans (by rw [e]; rfl)⟩

/-- SOURCE after a sample that is heard. -/
theorem State.source_heard {s : State} (ho : s.Ordered) (r : TimeRef) (x : TimeSrc) (off : Int) :
    (s.heard r x off).fld dieB Reg.TBS_STATUS_SOURCE = ((s.withSrc r x).bestSource.map TimeRef.code).getD 0 := by
  have hs := State.source_selectSource (s := s.withSrc r x) ho
  rcases s.heard_cases r x off with h | h <;> rw [h]
  · exact hs
  · have hsel : (s.withSrc r x).selectSource.Ordered := State.ordered_selectSource (s := s.withSrc r x) ho
    exact (State.source_setFld hsel (by decide) (by decide) _).trans hs

theorem TimeSrc.judge_dead (x : TimeSrc) (now : Nat) (off : Int) : (x.judge now off).dead = x.dead := by
  unfold TimeSrc.judge
  split <;> rfl

section
variable {s : State} {r : TimeRef}

/-- The sample by which a time base may step: of PTP, or of 1PPS before PTP is heard, at a cold boot without a partner, before the head has
entered TWIN or SOLO (R38). -/
structure FirstSample (s : State) (r : TimeRef) : Prop where
  source : r ≠ .partner
  enabled : s.srcEnabled r = true
  alive : (s.time.src r).dead = false
  notEntered : s.time.entered = false
  notStepped : s.time.stepped = false
  alone : s.pair.partner = none
  ptpUnheard : r = .pps → s.time.ptp.seen = false

/-- A sample that is kept as heard makes its source the best one. -/
theorem FirstSample.bestSource (h : FirstSample s r) {x : TimeSrc} (hseen : x.seen = true) (hdead : x.dead = false) :
    (s.withSrc r x).bestSource = some r := by
  refine State.bestSource_without_partner h.alone h.source ?_ ?_ ?_ fun hr => ?_
  · exact h.enabled
  · rw [State.withSrc_src, hseen]
  · rw [State.withSrc_src, hdead]
  · subst hr; exact h.ptpUnheard rfl

/-- A first sample is heard, and the time base steps by its offset, once. -/
theorem FirstSample.sample_eq (h : FirstSample s r) (ho : s.Ordered) (off : Int) :
    ∃ x, s.sample r off =
      { (s.heard r x off).stepTime off with time := { ((s.heard r x off).stepTime off).time with stepped := true } } := by
  have hdead : ((s.time.src r).judge s.ao.tb off).dead = false := (TimeSrc.judge_dead ..).trans h.alive
  obtain ⟨x, hx⟩ : ∃ x, x = { (s.time.src r).judge s.ao.tb off with seen := true } := ⟨_, rfl⟩
  obtain ⟨regs, corr, acc, e⟩ := s.heard_only r x off
  have hsource : (s.heard r x off).fld dieB Reg.TBS_STATUS_SOURCE = r.code := by
    rw [State.source_heard ho, h.bestSource (by rw [hx]) (by rw [hx]; exact hdead)]
    rfl
  have hstepped : (s.heard r x off).time.stepped = false := by
    rw [e]
    exact (State.withSrc_stepped s r x).trans h.notStepped
  have halone : (s.heard r x off).pair.partner = none := by rw [e]; exact h.alone
  refine ⟨x, ?_⟩
  unfold State.sample
  dsimp only
  rw [if_neg (by simp [h.enabled, hdead]), if_pos (by simp [h.notEntered]), ← hx,
    if_pos ⟨h.source, by simp [hstepped], by simp [halone], hsource⟩]

/-- What the first sample leaves: the time base stepped by its offset, and the moments kept for later samples with it (R38). -/
theorem FirstSample.steps (h : FirstSample s r) (ho : s.Ordered) (off : Int) :
    ∃ regs time, s.sample r off = { s with regs := regs, ao := { s.ao with tb := stepped off s.ao.tb }, time := time } ∧
      time.stepped = true ∧ time.lastSync = s.time.lastSync.map (fun p => (p.1, stepped off p.2)) ∧
      time.lastPps = s.time.lastPps.map (stepped off) := by
  obtain ⟨x, e⟩ := h.sample_eq ho off
  obtain ⟨regs, corr, acc, eh⟩ := s.heard_only r x off
  obtain ⟨hsync, hpps⟩ := State.withSrc_moments s r x
  have hmoments : (s.heard r x off).time.lastSync = s.time.lastSync ∧ (s.heard r x off).time.lastPps = s.time.lastPps := by
    rw [eh]
    exact ⟨hsync, hpps⟩
  refine ⟨regs, { ((s.heard r x off).stepTime off).time with stepped := true }, ?_, rfl, ?_, ?_⟩
  · rw [e, eh]; rfl
  · rw [← hmoments.1]; rfl
  · rw [← hmoments.2]; rfl

end

/-- After a step by its offset from a time the time base shows that time. -/
theorem stepped_offset (now : Nat) (t : Int) : (stepped ((now : Int) - t) now : Int) = t % 2 ^ 64 := by
  unfold stepped tbMod
  rw [Int.sub_sub_self, Int.toNat_of_nonneg (by omega)]
  norm_num

theorem nearestSecond_le (t : Nat) : nearestSecond t ≤ t + 500000000 := Nat.div_mul_le_self ..

/-- The first edge of 1PPS is a sample of its offset from the nearest whole second (R715). -/
theorem execPpsInEdge_first {s : State} (h : s.time.lastPps = none) : exec .ppsInEdge s =
    .next (({ s with time := { s.time with lastPps := some s.ao.tb } } : State).sample .pps ((s.ao.tb : Int) - nearestSecond s.ao.tb)) := by
  show execPpsInEdge s = _
  simp [execPpsInEdge, h]

/-- An edge closer than 999 ms to the last, or farther than 1,001 ms, is ignored and recorded (R45, R715). -/
theorem execPpsInEdge_ignored {s : State} {last : Nat} (hl : s.time.lastPps = some last)
    (h : s.ao.tb - last < 999000000 ∨ 1001000000 < s.ao.tb - last) : exec .ppsInEdge s =
      .next ((({ s with time := { s.time with lastPps := some s.ao.tb } } : State).setFlag dieB Reg.TBS_STATUS_REJECT true).event
        dieB 0x08 3 noInst) := by
  have hbad : (decide (999000000 ≤ s.ao.tb - last) && decide (s.ao.tb - last ≤ 1001000000)) = false := by
    rw [Bool.and_eq_false_iff, decide_eq_false_iff_not, decide_eq_false_iff_not]
    omega
  show execPpsInEdge s = _
  simp only [execPpsInEdge, hl, hbad]
  rfl

/-- Settles O15: the first Sync with a known delay, and the first edge, are first samples, by whose offset the time base steps. -/
theorem firstSampleStepsTheTimeBase : Obligations.FirstSampleStepsTheTimeBase := by
  unfold Obligations.FirstSampleStepsTheTimeBase
  refine ⟨fun s origin d ho hd hen hent hstep hp hdead => ?sync, fun s ho hl hen hent hstep hp hdead hptp hlt => ?edge,
    fun s last hl h => execPpsInEdge_ignored hl h⟩
  case sync =>
    have hfirst : FirstSample { s with time := { s.time with lastSync := some (origin, s.ao.tb) } } .ptp :=
      ⟨nofun, hen, hdead, hent, hstep, hp, nofun⟩
    obtain ⟨regs, time, e, hstepped, hsync, -⟩ := hfirst.steps ho ((s.ao.tb : Int) - origin - d)
    have he := execPtpSyncSample_sample (twoStep := false) (followUp := false) rfl hd origin
    rw [e] at he
    refine ⟨_, he, ?_, hstepped, hsync, rfl⟩
    rw [Int.sub_sub]
    exact stepped_offset s.ao.tb (origin + d)
  case edge =>
    have hfirst : FirstSample { s with time := { s.time with lastPps := some s.ao.tb } } .pps :=
      ⟨nofun, hen, hdead, hent, hstep, hp, fun _ => hptp⟩
    obtain ⟨regs, time, e, hstepped, -, hpps⟩ := hfirst.steps ho ((s.ao.tb : Int) - nearestSecond s.ao.tb)
    have he := execPpsInEdge_first hl
    rw [e] at he
    refine ⟨_, he, ?_, hstepped, hpps, rfl⟩
    have hle := nearestSecond_le s.ao.tb
    exact Int.ofNat.inj ((stepped_offset s.ao.tb (nearestSecond s.ao.tb)).trans (Int.emod_eq_of_lt (Int.natCast_nonneg _) (by omega)))

end Sys2Proof.Machine
end

section
/-! Sparse maps of any order: what an insertion reads, and what a change of a listed value leaves. -/

namespace Sys2Proof.SMap

variable {V : Type}

/-- A key reads what was inserted for it, whether the map is in order or not. -/
theorem find?_insert (m : SMap V) (a : Nat) (w : V) : (SMap.insert m a w).find? a = some w := by
  induction m with
  | nil => simp [insert, find?]
  | cons y m ih =>
    obtain ⟨k, v⟩ := y
    simp only [insert]
    split
    · simp [find?]
    · split
      · simp [find?]
      next hlt hne => simp only [find?, if_neg hne, if_neg hlt, ih]

/-- A value inserted for a listed key takes the place of the listed one. -/
theorem find?_insert_of_listed {m : SMap V} {a : Nat} {v : V} (h : SMap.find? m a = some v) (w : V) (b : Nat) :
    (SMap.insert m a w).find? b = if b = a then some w else SMap.find? m b := by
  induction m with
  | nil => cases h
  | cons y m ih =>
    obtain ⟨k, x⟩ := y
    simp only [find?] at h
    split at h
    next heq => subst heq; simp only [insert, Nat.lt_irrefl, if_false, if_true, find?]; split <;> simp [*]
    next hne =>
      split at h
      · cases h
      next hlt =>
        simp only [insert, if_neg hlt, if_neg hne, find?, ih h]
        by_cases hba : b = a
        · subst hba; simp [hne, hlt]
        · simp [hba]

/-- Changing the listed value of a key changes what that key reads, and no other. -/
theorem find?_adjust (m : SMap V) (a : Nat) (f : V → V) (b : Nat) :
    (SMap.adjust m a f).find? b = if b = a then (SMap.find? m a).map f else SMap.find? m b := by
  unfold adjust
  split
  next v h => rw [find?_insert_of_listed h, h]; rfl
  next h =>
    split
    next hba => rw [hba, h]; rfl
    · rfl

end Sys2Proof.SMap
end

section
/-! Arrival of host commands (R53, R54, R77, R103 to R105): what a capsule finds at its queue, and how the commands of I/O queues enter. -/

namespace Sys2Proof.Machine

open Sys2Proof

section
variable {s : State} {cap : Cap} {q : Queue}

/-- What becomes of a capsule that reaches a queue: a full queue fails its queue pair, an entry without a readable identifier is counted, and
any other goes on with what its arrival fixes (R103, R105). -/
theorem State.arrive_of_reaches (h : HostReaches s cap q) (io : Bool) (k : State → Queue → Option Status → State) :
    s.arrive cap io k =
      if q.size ≤ ((s.arrived cap).outstanding cap.cntlid cap.qid).length then (s.arrived cap).qpFail cap.qpn
      else if cap.bytes < 4 then
        { s.arrived cap with host := { (s.arrived cap).host with discards := (s.arrived cap).host.discards + 1 } }
      else k (s.arrived cap) q ((s.arrived cap).arrivalFault cap q io) := by
  obtain ⟨hen, hgive, hdump, hq⟩ := h
  have hopen : ¬ (!s.flag (dieF cap.fdie) Reg.NVF_CTRL_EN || (s.qp cap.qpn).any s.givesQp || s.ao.dump.isSome) = true := by
    simp [hen, hgive, hdump]
  unfold State.arrived at hq
  exact (if_neg hopen).trans (by simp only [hq]; rfl)

/-- A capsule that its queue takes goes on with what its arrival fixes. -/
theorem State.arrive_of_takes (h : HostTakes s cap q) (io : Bool) (k : State → Queue → Option Status → State) :
    s.arrive cap io k = k (s.arrived cap) q ((s.arrived cap).arrivalFault cap q io) := by
  obtain ⟨hreach, hroom, hcid⟩ := h
  rw [State.arrive_of_reaches hreach, if_neg (Nat.not_le_of_lt hroom), if_neg (Nat.not_lt_of_le hcid)]

/-- An NVM or Key Value command that its queue takes enters with its own checks after those of every such command. -/
theorem State.ioCmd_of_takes (h : HostTakes s cap q) (kv : Bool) (op : HostOp) (need : Option Nat) (chk : List (Option Status))
    (wants : List Want) (excl : Bool) :
    s.ioCmd cap kv op need false chk wants excl =
      (s.arrived cap).entersCmd cap q kv op (need.getD 0)
        ([(s.arrived cap).arrivalFault cap q true, if cap.fuse != .single then some ⟨0, 0x02⟩ else none, (s.arrived cap).nsCheck cap kv,
          sglCheck cap ((s.arrived cap).flag (dieF cap.fdie) Reg.NVF_CTRL_INCAPS_EN) need] ++ chk) wants excl := by
  unfold State.ioCmd
  rw [State.arrive_of_takes h]
  simp only [Bool.not_false, Bool.and_true]
  rfl

end

/-- A command whose meaning is to make a change of the state and to settle. -/
theorem next_settle {r : Res} {t u : State} (hr : r = .next t.settle) (h : t = u) : r = .next u.settle := by rw [hr, h]

/-- Settles O22: every command is `ioCmd` with its own checks and locks, and `ioCmd` enters a command whose capsule is taken. -/
theorem ioCommandsEnterWithChecksAndLocks : Obligations.IoCommandsEnterWithChecksAndLocks := by
  unfold Obligations.IoCommandsEnterWithChecksAndLocks
  refine ⟨fun s cap q h => ⟨?flush, fun slba nlb => ⟨fun hf => ?write, ?read, fun hf => ?compare, ?verify, fun deac => ?zeroes⟩,
    fun ranges => ⟨?deallocate, ?hint⟩, fun key => ⟨?retrieve, ?exist, ?delete, ?list, fun vlen opts => ?store⟩⟩,
    fun s cap q h => ⟨fun hfull => ?full, fun hroom hcid => ?discarded⟩⟩
  case flush | read | verify | zeroes | deallocate | hint | retrieve | exist | delete | list | store =>
    exact next_settle rfl (State.ioCmd_of_takes h ..)
  case write | compare => exact next_settle (if_neg hf) (State.ioCmd_of_takes h ..)
  case full => exact next_settle rfl ((State.arrive_of_reaches h ..).trans (if_pos hfull))
  case discarded =>
    exact next_settle rfl ((State.arrive_of_reaches h ..).trans ((if_neg (Nat.not_le_of_lt hroom)).trans (if_pos hcid)))

end Sys2Proof.Machine
end

section
/-! Commands of admin queues enter without locks (R52, R55, R56, R105). -/

namespace Sys2Proof.Machine

open Sys2Proof

section
variable {s : State} {cap : Cap} {q : Queue}

/-- An admin command that its queue takes enters at its queue's class, without locks, with the checks of its arrival and SGL. -/
theorem State.adminCmd_of_takes (h : HostTakes s cap q) (io : Bool) (op : HostOp) (len : Option Nat) :
    s.adminCmd cap io op len = (s.arrived cap).enterCmd cap q op q.cls [] false
      ((firstFail [(s.arrived cap).arrivalFault cap q io, if cap.fuse != .single then some ⟨0, 0x02⟩ else none,
        sglCheck cap ((s.arrived cap).flag (dieF cap.fdie) Reg.NVF_CTRL_INCAPS_EN) len]).map fun x => (x, 0)) none :=
  State.arrive_of_takes h io _

/-- The row of a Sanitize gives its SANACT where the capsule holds one of R96. -/
theorem sanAct_of_row (h : ∀ n, cap.alt ≠ .sanact n) (row : Nat) : sanAct cap row = .sanitize row := by
  unfold sanAct
  split
  next n e => exact absurd e (h n)
  · rfl

/-- A SANACT outside the table is the operation whatever the row (R99). -/
theorem sanAct_of_other {n : Nat} (h : cap.alt = .sanact n) (row : Nat) : sanAct cap row = .sanitize n := by
  simp only [sanAct, h]

end

/-- Settles O26: every admin command is `adminCmd` with its own operation and length, and `adminCmd` enters one whose capsule is taken. -/
theorem adminCommandsEnter : Obligations.AdminCommandsEnter := by
  unfold Obligations.AdminCommandsEnter
  refine ⟨fun s cap q h => next_settle rfl (State.adminCmd_of_takes h ..), fun s cap q h => ?_⟩
  extract_lets u inc r
  have enters (op : HostOp) (len : Option Nat) : .next (s.adminCmd cap false op len).settle = r op len :=
    next_settle rfl (State.adminCmd_of_takes h false op len)
  have sanitizes (row n : Nat) (hs : sanAct cap row = .sanitize n) :
      .next (s.adminCmd cap false (sanAct cap row) none).settle = r (.sanitize n) none :=
    hs ▸ enters (sanAct cap row) none
  refine ⟨fun off => enters .., fun off val => enters .., fun lid off len rae => enters .., fun cns cntid => enters ..,
    fun qid cid => enters .., fun fid val save => enters .., fun fid => enters .., enters .., fun kv blocks domain media => enters ..,
    fun kv blocks domain media => enters .., fun ctrls => enters .., fun ctrls => enters .., enters .., fun lbaf ses => enters ..,
    fun hrow => ⟨sanitizes 1 1 (sanAct_of_row hrow 1), sanitizes 2 2 (sanAct_of_row hrow 2), sanitizes 4 4 (sanAct_of_row hrow 4)⟩,
    fun n hn c hc => ?_⟩
  simp only [List.mem_cons, List.not_mem_nil, or_false] at hc
  rcases hc with rfl | rfl | rfl
  · exact sanitizes 1 n (sanAct_of_other hn 1)
  · exact sanitizes 2 n (sanAct_of_other hn 2)
  · exact sanitizes 4 n (sanAct_of_other hn 4)

end Sys2Proof.Machine
end

section
/-! Fused pairs (R76, R77): Compare and Write enter as one, and what becomes of a first or a second that is alone. -/

namespace Sys2Proof.Machine

open Sys2Proof

section
variable {s : State} {cap : Cap} {q : Queue}

/-- A queue reads as it was set. -/
theorem State.queue_setQueue {q' : Queue} (hc : q'.cntlid = cap.cntlid) (hq : q'.qid = cap.qid) : (s.setQueue q').queue cap = some q' := by
  unfold State.setQueue State.setQueueAt State.queue
  rw [hc, hq]
  exact SMap.find?_insert ..

/-- A capsule takes the first command that waits on its queue out of its place. -/
theorem State.takeHalf_of_queue (h : s.queue cap = some q) : s.takeHalf cap = (s.setQueue { q with half := none }, q.half) := by
  simp only [State.takeHalf, h]

/-- The next capsule of a queue fails the first command that waits there, unless that was aborted (R77, R78). -/
theorem State.failHalf_of_half {h : Half} (hq : s.queue cap = some q) (hh : q.half = some h) (hc : q.cntlid = cap.cntlid) (hi : q.qid = cap.qid) :
    s.failHalf cap = if h.aborted then s.setQueue { q with half := none } else
      (s.setQueue { q with half := none }).enterCmd h.cap { q with half := none } .judged q.cls [] false (some (⟨0, 0x0A⟩, 0)) none := by
  simp only [State.failHalf, State.takeHalf_of_queue hq, hh, State.queue_setQueue (q' := { q with half := none }) hc hi]

/-- A capsule that its queue takes and that enters with its outcome alone: of its arrival, or `st`. -/
theorem State.arrive_judged (h : HostTakes s cap q) (st : Status) :
    (s.arrive cap true fun s q pre => s.enterCmd cap q .judged q.cls [] false (some (pre.getD st, 0)) none) =
      (s.arrived cap).enterCmd cap q .judged q.cls [] false (some (((s.arrived cap).arrivalFault cap q true).getD st, 0)) none :=
  State.arrive_of_takes h true _

/-- A first command of a fused pair waits on its queue, or fails at its arrival (R77, R105). -/
theorem execCompare_first (h : HostTakes s cap q) (hf : cap.fuse = .first) (slba nlb : Nat) : exec (.compare cap slba nlb) s =
    .next (((s.arrived cap).arrivalFault cap q true).elim
      ((s.arrived cap).setQueue { q with half := some { cap := cap, slba := slba, nlb := nlb, aborted := false } })
      fun st => (s.arrived cap).enterCmd cap q .judged q.cls [] false (some (st, 0)) none).settle := by
  show execCompare cap slba nlb s = _
  rw [execCompare, if_pos hf, State.arrive_of_takes h]
  cases (s.arrived cap).arrivalFault cap q true <;> simp only [Option.elim]

/-- The second of a fused pair finds the first that waits on its queue (R76), or one that was aborted (R78). -/
theorem execWrite_second {h : Half} (hq : s.queue cap = some q) (hh : q.half = some h) (hf : cap.fuse = .second) (slba nlb : Nat) :
    exec (.write cap slba nlb) s =
      if h.aborted then .next ((s.setQueue { q with half := none }).abortedHalf cap).settle
      else exec (.compareAndWrite { h.cap with fuse := .single } cap h.slba h.nlb slba nlb) (s.setQueue { q with half := none }) := by
  show execWrite cap slba nlb s = _
  simp only [execWrite, if_pos hf, State.takeHalf_of_queue hq, hh]
  rfl

/-- The second of a fused pair finds no first. -/
theorem execWrite_second_alone (hq : s.queue cap = some q) (hh : q.half = none) (hf : cap.fuse = .second) (slba nlb : Nat) :
    exec (.write cap slba nlb) s = .next ((s.setQueue q).arrive cap true fun s q pre =>
      s.enterCmd cap q .judged q.cls [] false (some (pre.getD ⟨0, 0x0A⟩, 0)) none).settle := by
  have hq' : { q with half := none } = q := by rw [← hh]
  show execWrite cap slba nlb s = _
  simp only [execWrite, if_pos hf, State.takeHalf_of_queue hq, hh, hq']

end

/-- Settles O23: both capsules enter by `fused`; a first and a second that are apart go by what `takeHalf` finds on the queue. -/
theorem fusedPairEntersAsOne : Obligations.FusedPairEntersAsOne := by
  unfold Obligations.FusedPairEntersAsOne
  refine ⟨fun s cap cap2 q slba nlb slba2 nlb2 h => ?pair, fun s cap q slba nlb h hf => ⟨fun hst => ?waits, fun st hst => ?faulty⟩,
    fun s cap q h slba nlb hq hh hf => ⟨fun ha => ?completes, fun ha q' h' => ?aborted⟩, fun s cap q slba nlb hq hh hf q' h' => ?alone,
    fun s cap q h hq hh hc hi => State.failHalf_of_half hq hh hc hi⟩
  case pair => exact next_settle rfl (State.arrive_of_takes h ..)
  case waits | faulty => rw [execCompare_first h hf, hst, Option.elim]
  case completes => rw [execWrite_second hq hh hf, if_neg (by simp [ha])]
  case aborted => rw [execWrite_second hq hh hf, if_pos ha, State.abortedHalf, State.arrive_judged h', stAborted]
  case alone => rw [execWrite_second_alone hq hh hf, State.arrive_judged h']

end Sys2Proof.Machine
end

section
/-! What entering a command leaves in the state (R104, R140), and how a command with an outcome responds (R142). -/

namespace Sys2Proof.Machine

open Sys2Proof

theorem State.cmd_setCmd (s : State) (c : Cmd) : (s.setCmd c).cmd c.tag.num = some c := SMap.find?_insert ..

/-- Settles O24: between the recording of the command and its first `advance` only packets and messages leave. -/
theorem enteredCommandIsRecorded : Obligations.EnteredCommandIsRecorded := by
  unfold Obligations.EnteredCommandIsRecorded
  intro s cap q op cls wants excl res res2 tag
  unfold State.enterCmd State.enterAs
  extract_lets q' s1 mirrored inCap wants' c s2 s3 m s4
  have hfront : FrontOnly s2 s3 := by
    unfold s3
    split
    · split
      · exact s2.setQp_frontOnly ..
      · exact s2.sendAck_frontOnly ..
    · exact .refl s2
  have hlink : LinkOnly s3 s4 := by
    unfold s4
    split
    · exact s3.send_linkOnly ..
    · exact .refl s3
  obtain ⟨_, _, _, e3⟩ := hfront
  obtain ⟨_, _, e4⟩ := hlink
  have hcmd : s4.cmd tag.num = some c := by rw [e4, e3]; exact s1.cmd_setCmd c
  have hqueue : s4.queue cap = some q' := by rw [e4, e3]; exact SMap.find?_insert ..
  refine ⟨s4, c, rfl, hcmd, rfl, rfl, rfl, rfl, rfl, rfl, rfl, rfl, rfl, rfl, rfl, rfl, hqueue, ?_⟩
  rw [e4, e3]
  exact ⟨rfl, rfl, rfl, rfl, rfl, rfl⟩

/-! ## Responses -/

/-- What is sent on a queue pair leaves the head as its first packet. -/
theorem State.out_mem_sendAt (s : State) (qpn : Nat) (q : Qp) (psn n : Nat) (k : SentKind) :
    ({ psn := psn, n := n, kind := k } : SentPkt).out qpn q.e.mtu ∈ (s.sendAt qpn q psn n k).out :=
  List.mem_append_right _ (List.mem_singleton_self _)

section
variable {s : State} {qpn t n : Nat} {q : Qp} {ph : Phase}

/-- A queue pair without ledgered phases lets any phase start. -/
theorem State.mayStart_of_resv_nil (hq : s.qp qpn = some q) (hr : q.resv = []) : s.mayStart qpn t ph = true := by
  simp [State.mayStart, hq, hr]

/-- A phase that no ledger names goes from the next send PSN. -/
theorem State.sendPhase_unledgered (hq : s.qp qpn = some q) (hr : q.resv = []) (hl : s.pair.ledger.find? (ledgerKey t ph) = none)
    (he : q.error = false) (i : Nat) (k : SentKind) :
    s.sendPhase t ph i qpn n k = s.sendAt qpn { q with spsn := psnAdd q.spsn n } q.spsn n k := by
  simp [State.sendPhase, State.sendQp, Qp.resvOf, SMap.has, hq, hr, hl, he]

/-- The end of a phase changes nothing of what has left the head. -/
theorem State.phaseSent_out : (s.phaseSent qpn t ph).out = s.out := by
  unfold State.phaseSent
  split
  · split <;> rfl
  · rfl

end

/-- The largest value seen in a field changes the register file alone. -/
theorem State.maxFld_only {s t : State} (h : ∃ r, t = { s with regs := r }) (die : Nat) (f : Fld) (n : Nat) :
    ∃ r, t.maxFld die f n = { s with regs := r } := by
  unfold State.maxFld
  split
  · exact State.setFld_only h die f _
  · exact h

/-- Nothing follows the response of a command that is no Disconnect. -/
theorem State.afterResponse_of_ne {c : Cmd} (h : c.op ≠ .disconnect) (s : State) : s.afterResponse c = s := by
  unfold State.afterResponse
  split
  next ho _ => exact absurd ho h
  · rfl

/-- Without a mirror a phase may begin when its queue pair lets it start (R142). -/
theorem State.ledger_of_not_mirroring {s : State} (h : s.mirroring = false) (c : Cmd) (ph : Phase) (psns : Nat) :
    s.ledger c ph psns = (s, s.mayStart c.qpn c.tag.num ph) := by
  simp [State.ledger, h]

/-- Settles O25: the response is sent as the phase of no ledger, and after it only registers change and the command goes. -/
theorem commandWithOutcomeResponds : Obligations.CommandWithOutcomeResponds := by
  unfold Obligations.CommandWithOutcomeResponds
  intro s t c q st dw0 hc hres hres2 hacc hout hmir hsend hq herr hresv hled hmute hop
  obtain ⟨u, hu⟩ : ∃ u, u = (s.sendPhase t .response 0 c.qpn 1
    (.send t c.tag.cntlid c.tag.qid c.tag.cid st dw0 c.sgl.invalidate)).phaseSent c.qpn t .response := ⟨_, rfl⟩
  obtain ⟨v, hv⟩ : ∃ v, v = if c.cls = 0 && c.begun then
    u.maxFld (dieF c.fdie) Reg.NVF_C0_MAXLAT_WRITE_NS (u.c0Latency c) else u := ⟨_, rfl⟩
  have hstage : s.stageRespond t = v.forget t := by
    simp only [State.stageRespond, hc, hres, hmute, hacc, hout, State.ledger_of_not_mirroring hmir, State.mayStart_of_resv_nil hq hresv,
      hsend, hres2, Bool.not_true, Bool.or_false, if_false, Bool.false_eq_true, State.afterResponse_of_ne hop, hv, hu]
  have hregs : ∃ r, v = { u with regs := r } := by
    rw [hv]
    split
    · exact State.maxFld_only ⟨_, rfl⟩ ..
    · exact ⟨_, rfl⟩
  have hmem : Out.response c.qpn q.spsn c.tag.cntlid c.tag.qid c.tag.cid st dw0 c.sgl.invalidate ∈ u.out := by
    rw [hu, State.phaseSent_out, State.sendPhase_unledgered hq hresv hled herr]
    exact State.out_mem_sendAt ..
  have hfront : FrontOnly s u := hu ▸ (s.sendPhase_frontOnly ..).trans (State.phaseSent_frontOnly ..)
  obtain ⟨_, rfl⟩ := hregs
  rw [hstage]
  refine ⟨List.contains_iff_mem.2 hmem, ?_⟩
  obtain ⟨_, _, _, rfl⟩ := hfront
  exact ⟨rfl, rfl, rfl, rfl⟩

end Sys2Proof.Machine
end

section
/-! What an accepted admin command does (R51 to R60, R81, R95, R97, R99). -/

namespace Sys2Proof.Machine

open Sys2Proof

/-- Property Get knows the properties of R58 alone. -/
theorem Ctrl.property_none {off : Nat} (h : off ∉ [0x00, 0x08, 0x14, 0x1C]) (k : Ctrl) : k.property off = none := by
  simp only [List.mem_cons, List.not_mem_nil, or_false, not_or] at h
  obtain ⟨h0, h8, h14, h1c⟩ := h
  unfold Ctrl.property
  split
  · exact absurd rfl h0
  · exact absurd rfl h8
  · exact absurd rfl h14
  · exact absurd rfl h1c
  · rfl

/-- A SANACT outside the table of R96 is an invalid field (R99). -/
theorem State.startSanitize_unknown {s : State} {act : Nat} (h : act ∉ [1, 2, 4]) (hs : s.arr.sanitize = none) (c : Cmd) :
    s.startSanitize c act = s.finish c stBadField 0 := by
  simp only [List.mem_cons, List.not_mem_nil, or_false, not_or] at h
  obtain ⟨h1, h2, h4⟩ := h
  unfold State.startSanitize
  rw [if_neg (by simp [hs])]
  split
  · exact absurd rfl h1
  · exact absurd rfl h2
  · exact absurd rfl h4
  · rfl

/-- A namespace that is being removed takes no administrative command (R101). -/
theorem NsRec.barred_removing {n : NsRec} (h : n.removing.isSome = true) : n.barred = some stBadNs := if_pos (by simp [h])

/-- Nor does one that is being formatted (R95). -/
theorem NsRec.barred_formatting {n : NsRec} (hr : n.removing = none) (hl : n.releasing = false) (hf : n.formatting.isSome = true) :
    n.barred = some ⟨0, 0x84⟩ := (if_neg (by simp [hr, hl])).trans (if_pos hf)

section
variable {s : State} {c : Cmd} {k : Ctrl}

/-- A host of the administrative list is let through (R56). -/
theorem State.adminDenied_listed (hk : s.host.ctrls.find? c.tag.cntlid = some k) (ha : s.arr.admins.contains k.nqn = true)
    (f : State → State) : s.adminDenied c f = f s := if_pos (by simp only [State.isAdmin, hk, ha])

/-- Any other is refused, and an event says so (R7, R56). -/
theorem State.adminDenied_unlisted (hk : s.host.ctrls.find? c.tag.cntlid = some k) (ha : s.arr.admins.contains k.nqn = false)
    (f : State → State) : s.adminDenied c f = (s.event (dieF c.fdie) 0x13 0 noInst).finish c ⟨0, 0x15⟩ 0 :=
  if_neg (by simp only [State.isAdmin, hk, ha, Bool.false_eq_true, not_false_eq_true])

/-- A barred namespace is neither deleted nor attached nor detached (R95, R101). -/
theorem State.adminRun_barred (hk : s.host.ctrls.find? c.tag.cntlid = some k) (ha : s.arr.admins.contains k.nqn = true)
    (hop : c.op = .nsDelete ∨ (∃ l, c.op = .attach l) ∨ ∃ l, c.op = .detach l) {n : NsRec} (hn : s.ns c.nsid = some n) {st : Status}
    (hb : n.barred = some st) :
    s.adminRun c = s.finish c st 0 := by
  rcases hop with h | ⟨l, h⟩ | ⟨l, h⟩ <;> simp only [State.adminRun, hk, h, State.adminDenied_listed hk ha, hn, hb]

/-- An administrative command of a host that is not on the list is refused (R56). -/
theorem State.adminRun_unlisted (hk : s.host.ctrls.find? c.tag.cntlid = some k) (ha : s.arr.admins.contains k.nqn = false)
    (hop : c.op = .nsDelete ∨ (∃ l, c.op = .attach l) ∨ (∃ l, c.op = .detach l) ∨ (∃ a b, c.op = .format a b) ∨
      ∃ a, c.op = .sanitize a) :
    s.adminRun c = (s.event (dieF c.fdie) 0x13 0 noInst).finish c ⟨0, 0x15⟩ 0 := by
  rcases hop with h | ⟨l, h⟩ | ⟨l, h⟩ | ⟨a, b, h⟩ | ⟨a, h⟩ <;> simp only [State.adminRun, hk, h, State.adminDenied_unlisted hk ha]

/-- A Sanitize of a listed host starts (R56, R96). -/
theorem State.adminRun_sanitize (hk : s.host.ctrls.find? c.tag.cntlid = some k) (ha : s.arr.admins.contains k.nqn = true) {act : Nat}
    (h : c.op = .sanitize act) : s.adminRun c = s.startSanitize c act := by
  simp only [State.adminRun, hk, h, State.adminDenied_listed hk ha]

end

/-- Settles O27: the arm of `adminRun` for each operation, under the condition on which it acts. -/
theorem adminCommandsAct : Obligations.AdminCommandsAct := by
  unfold Obligations.AdminCommandsAct
  intro s c k hk
  refine ⟨fun h => ?keepAlive, fun h => ?version, fun off h hoff => ?unknown, fun fid val h => ?save, fun fid h hf => ?get,
    fun cns cntid b h hb => ?identify, fun h hlen hnone => ?event, fun h hlen => ?ninth, fun act h ha hs => ?twice, fun h ha hs => ?exit,
    fun act h hact ha hs => ?other, fun kv blocks domain media n h ha hn => ?create,
    fun op n h hop ha hn => ⟨fun hr => ?removing, fun hr hl hf => ?formatting⟩, fun op h hop ha => ?unlisted⟩
  case keepAlive | version => simp only [State.adminRun, hk, h, Ctrl.property]
  case unknown => simp only [State.adminRun, hk, h, Ctrl.property_none hoff]
  case save => simp only [State.adminRun, hk, h, Ctrl.setFeature, if_true]
  case get => simp only [State.adminRun, hk, h, hf, if_true]
  case identify => simp only [State.adminRun, hk, h, hb, State.answerData]
  case event => simp only [State.adminRun, hk, h, if_neg (Nat.not_le_of_lt hlen), hnone]
  case ninth => simp only [State.adminRun, hk, h, if_pos hlen]
  case twice => exact (State.adminRun_sanitize hk ha h).trans (if_pos hs)
  case exit =>
    simp only [State.adminRun_sanitize hk ha h, State.startSanitize, hs, Option.isSome_none, Bool.false_eq_true, if_false, State.adminEvent]
  case other => rw [State.adminRun_sanitize hk ha h, State.startSanitize_unknown hact hs]
  case create => simp only [State.adminRun, hk, h, State.adminDenied_listed hk ha, hn, State.adminEvent]
  case removing => exact State.adminRun_barred hk ha (h ▸ hop) hn (NsRec.barred_removing hr)
  case formatting => exact State.adminRun_barred hk ha (h ▸ hop) hn (NsRec.barred_formatting hr hl hf)
  case unlisted => exact State.adminRun_unlisted hk ha (h ▸ hop)

end Sys2Proof.Machine
end

section
/-! Connect (R47 to R49, R57 to R59, R444): a controller with its admin queue, an I/O queue, or neither. -/

namespace Sys2Proof.Machine

open Sys2Proof

/-- A queue pair that carries a queue, or another subsystem than the configuration image's, gets no queue (R49, log entry 198). -/
theorem State.connectCheck_taken {s : State} {u : Queue} {qpn : Nat} {sub : Bytes} {disc : Bool}
    (h : (u ∈ s.host.queues.vals ∧ u.qpn = qpn) ∨ (disc = false ∧ sub ≠ s.boot.nqn)) (cntlid qid sqsize kato : Nat) :
    s.connectCheck qpn sub cntlid qid sqsize kato disc = some stBadConnect := by
  refine if_pos ?_
  rcases h with ⟨hu, hqpn⟩ | ⟨hd, hsub⟩
  · exact .inl (List.any_eq_true.2 ⟨u, hu, by simp [hqpn]⟩)
  · exact .inr ⟨by simp [hd], hsub⟩

section
variable {s : State} {qpn sqsize kato : Nat} {sub : Bytes} {disc : Bool}

/-- A queue pair without a queue, and the image's subsystem, pass the first check of a Connect. -/
theorem State.connect_not_taken (hfree : ∀ u ∈ s.host.queues.vals, u.qpn ≠ qpn) (hsub : disc = true ∨ sub = s.boot.nqn) :
    ¬ ((s.host.queues.vals.any fun u => u.qpn == qpn) = true ∨ (!disc) = true ∧ sub ≠ s.boot.nqn) := by
  rintro (h | ⟨hd, hne⟩)
  · obtain ⟨u, hu, he⟩ := List.any_eq_true.1 h
    exact hfree u hu (by simpa using he)
  · exact hsub.elim (fun h => by simp [h] at hd) hne

/-- A Connect to queue 0 with valid operands passes its checks (R47, R57). -/
theorem State.connectCheck_admin (hfree : ∀ u ∈ s.host.queues.vals, u.qpn ≠ qpn) (hsub : disc = true ∨ sub = s.boot.nqn)
    (hsize : sqsize ≤ 31) (hkato : disc = true ∨ 500 ≤ kato ∧ kato ≤ 3600000) : s.connectCheck qpn sub 0xFFFF 0 sqsize kato disc = none := by
  have hk : (!disc && (decide (kato < 500) || decide (3600000 < kato))) = false := by
    rcases hkato with h | ⟨hlo, hhi⟩
    · simp [h]
    · simp [Nat.not_lt_of_le hlo, Nat.not_lt_of_le hhi]
  refine (if_neg (State.connect_not_taken hfree hsub)).trans ?_
  rw [if_pos rfl, if_neg (by decide), if_neg (by omega), hk]
  rfl

/-- So does one to an I/O queue that a controller does not have yet (R48). -/
theorem State.connectCheck_io (hfree : ∀ u ∈ s.host.queues.vals, u.qpn ≠ qpn) (hsub : disc = true ∨ sub = s.boot.nqn) {cntlid qid : Nat}
    (hctrl : (s.host.ctrls.find? cntlid).isSome = true) (hqid : 0 < qid ∧ qid ≤ 128) (hsize : sqsize ≤ 1023)
    (hnew : s.host.queues.has (cntlid * 256 + qid) = false) : s.connectCheck qpn sub cntlid qid sqsize kato disc = none := by
  refine (if_neg (State.connect_not_taken hfree hsub)).trans ?_
  rw [if_neg (by omega), if_neg (by simp [SMap.has, hctrl]), if_neg (by omega), if_neg (by simp [queueKey, hnew])]

end

/-- Binding a queue pair changes its context, and counts a queue that could not be pinned (R444). -/
theorem State.bindQueue_only (s : State) (qpn cntlid qid cls : Nat) :
    ∃ r q, (s.bindQueue qpn cntlid qid cls).1 = { s with regs := r, rdma := { s.rdma with qps := q } } := by
  unfold State.bindQueue
  split
  · exact ⟨_, _, rfl⟩
  · dsimp only
    split <;> exact ⟨_, _, rfl⟩

/-- A queue of another class than 0 keeps it (R444). -/
theorem State.bindQueue_class {cls : Nat} (h : cls ≠ 0) (s : State) (qpn cntlid qid : Nat) : (s.bindQueue qpn cntlid qid cls).2 = cls := by
  unfold State.bindQueue
  split
  · rfl
  · simp [h]

theorem State.sendShadow_linkOnly (s : State) (qpn : Nat) : LinkOnly s (s.sendShadow qpn) := by
  unfold State.sendShadow
  split
  · split
    · exact .refl s
    · exact s.send_linkOnly ..
  · exact .refl s

theorem State.reshadow_linkOnly (s : State) (qpn : Nat) : LinkOnly s (s.reshadow qpn) := by
  unfold State.reshadow
  split
  · exact s.sendShadow_linkOnly qpn
  · exact .refl s

/-- No command holds a free identifier (R48, R106), so the queues of a new controller number their commands from 0. -/
theorem State.firstIssue_of_free {s : State} {c : Nat} (h : s.freeCntlid = some c) (qid : Nat) : s.firstIssue c qid = 0 := by
  obtain ⟨n, hn, rfl⟩ := Option.map_eq_some_iff.1 h
  have hno := List.find?_some hn
  simp only [Bool.and_eq_true, Bool.not_eq_true', List.any_eq_false, beq_iff_eq] at hno
  have hnil : s.host.cmds.vals.filter (fun x => x.tag.cntlid == s.side * 0x1000 + n + 1 && x.tag.qid == qid) = [] :=
    List.filter_eq_nil_iff.2 fun x hx => by simp [hno.2 x hx]
  rw [State.firstIssue, hnil]
  rfl

/-- The queue that a Connect makes is listed, and the partner's shadow of its queue pair follows. -/
def State.addQueue (s : State) (q : Queue) : State :=
  let s := { s with host := { s.host with queues := s.host.queues.insert (queueKey q.cntlid q.qid) q } }
  s.reshadow q.qpn

/-- What a Connect that passes its checks makes of the state in which its controller stands: its queue pair bound, its queue, and the response. -/
def State.makeQueue (s : State) (cap : Cap) (c qid cls sqsize : Nat) : State :=
  let b := s.bindQueue cap.qpn c qid cls
  let q := { newQueue cap c qid b.2 sqsize with issue := b.1.firstIssue c qid }
  (b.1.addQueue q).enterCmd { cap with cntlid := c, qid := qid } q .judged b.2 [] false (some (stOk, c)) none

section
variable {s : State} {cap : Cap} {nqn : ConnNqn} {cntlid qid sqsize kato : Nat} {disc : Bool}

/-- A Connect that its checks refuse is answered with their status. -/
theorem State.connect_refused (hen : s.flag (dieF cap.fdie) Reg.NVF_CTRL_EN = true) {st : Status}
    (h : s.connectCheck cap.qpn nqn.sub cntlid qid sqsize kato disc = some st) :
    s.connect cap nqn cntlid qid sqsize kato disc = s.answerBare cap.qpn cntlid qid cap.cid st 0 := by
  simp [State.connect, hen, h]

/-- A Connect to queue 0 makes a controller and its admin queue of class 7. -/
theorem State.connect_admin (hen : s.flag (dieF cap.fdie) Reg.NVF_CTRL_EN = true) {c : Nat} (hc : s.freeCntlid = some c)
    (h : s.connectCheck cap.qpn nqn.sub cntlid 0 sqsize kato disc = none) :
    s.connect cap nqn cntlid 0 sqsize kato disc =
      (s.setCtrl (.fresh c nqn.host kato s.ao.tb s.liveNss disc)).makeQueue cap c 0 7 sqsize := by
  simp only [State.connect, hen, h, hc, Bool.not_true, Bool.false_eq_true, if_false, if_true]
  rfl

/-- A Connect to an I/O queue of a controller makes the queue, with the class of the queue class table (R59). -/
theorem State.connect_io (hen : s.flag (dieF cap.fdie) Reg.NVF_CTRL_EN = true) {k : Ctrl} (hk : s.host.ctrls.find? cntlid = some k) (hq : qid ≠ 0)
    (h : s.connectCheck cap.qpn nqn.sub cntlid qid sqsize kato disc = none) :
    s.connect cap nqn cntlid qid sqsize kato disc = s.makeQueue cap cntlid qid (s.queueClass cap.fdie k.nqn qid) sqsize := by
  simp only [State.connect, hen, h, hk, hq, Bool.not_true, Bool.false_eq_true, if_false, Option.map_some, Option.getD_some]
  rfl

end

/-- Binding a queue pair leaves the commands alone, and with them the first ISSUE of a queue. -/
theorem State.firstIssue_bindQueue (s : State) (qpn c qid cls : Nat) : (s.bindQueue qpn c qid cls).1.firstIssue c qid = s.firstIssue c qid := by
  obtain ⟨r, q, hb⟩ := s.bindQueue_only qpn c qid cls
  rw [hb]
  rfl

/-- Binding a queue pair and listing its queue leave everything else of the head as it was. -/
theorem State.addQueue_bindQueue_only (s : State) (qpn c qid cls : Nat) (q : Queue) : ∃ r ps g o,
    (s.bindQueue qpn c qid cls).1.addQueue q =
      { s with regs := r, rdma := { s.rdma with qps := ps }, pair := { s.pair with groups := g }, out := o,
               host := { s.host with queues := s.host.queues.insert (queueKey q.cntlid q.qid) q } } := by
  obtain ⟨r, ps, hb⟩ := s.bindQueue_only qpn c qid cls
  rw [hb]
  obtain ⟨g, o, hl⟩ := State.reshadow_linkOnly
    { s with regs := r, rdma := { s.rdma with qps := ps },
             host := { s.host with queues := s.host.queues.insert (queueKey q.cntlid q.qid) q } } q.qpn
  exact ⟨r, ps, g, o, hl⟩

/-- The admin queue of a new controller has class 7 and starts at ISSUE 0. -/
theorem State.makeQueue_admin {s : State} {c : Nat} (h : s.firstIssue c 0 = 0) (cap : Cap) (sqsize : Nat) :
    s.makeQueue cap c 0 7 sqsize = ((s.bindQueue cap.qpn c 0 7).1.addQueue (newQueue cap c 0 7 sqsize)).enterCmd
      { cap with cntlid := c, qid := 0 } (newQueue cap c 0 7 sqsize) .judged 7 [] false (some (stOk, c)) none := by
  simp only [State.makeQueue, State.bindQueue_class (show 7 ≠ 0 by decide), State.firstIssue_bindQueue, h]
  rfl

/-- Settles O28: the checks pass or refuse; where they pass, `makeQueue` binds the queue pair and lists the queue. -/
theorem connectMakesControllersAndQueues : Obligations.ConnectMakesControllersAndQueues := by
  unfold Obligations.ConnectMakesControllersAndQueues
  refine ⟨fun s cap nqn sqsize kato c disc hen hsize hkato hc hfree hsub => ?admin,
    fun s cap nqn k cntlid qid sqsize kato disc hen hpos hqid hsize hk hnew hfree hsub => ?io,
    fun s cap nqn cntlid qid sqsize kato disc st hen hst => ?refused,
    fun s u qpn cntlid qid sqsize kato sub disc h => State.connectCheck_taken h cntlid qid sqsize kato⟩
  case admin =>
    have hcheck := State.connectCheck_admin hfree hsub hsize hkato
    have hissue : (s.setCtrl (.fresh c nqn.host kato s.ao.tb s.liveNss disc)).firstIssue c 0 = 0 := State.firstIssue_of_free hc 0
    obtain ⟨_, _, _, _, e⟩ := (s.setCtrl (.fresh c nqn.host kato s.ao.tb s.liveNss disc)).addQueue_bindQueue_only cap.qpn c 0 7
      (newQueue cap c 0 7 sqsize)
    have hkey : s.host.queues.insert (queueKey c 0) (newQueue cap c 0 7 sqsize) = s.host.queues.insert (c * 256) (newQueue cap c 0 7 sqsize) := by
      rw [queueKey, Nat.add_zero]
    have hmake := State.makeQueue_admin hissue cap sqsize
    rw [e] at hmake
    exact ⟨_, next_settle rfl ((State.connect_admin hen hc hcheck).trans hmake), rfl, hkey, rfl, rfl, rfl, rfl⟩
  case io =>
    have hcheck := State.connectCheck_io (kato := kato) hfree hsub (by rw [hk]; rfl) ⟨hpos, hqid⟩ hsize hnew
    obtain ⟨_, _, hb⟩ := s.bindQueue_only cap.qpn cntlid qid (s.queueClass cap.fdie k.nqn qid)
    have hhost : (s.bindQueue cap.qpn cntlid qid (s.queueClass cap.fdie k.nqn qid)).1.host = s.host := by rw [hb]
    refine ⟨_, _, rfl, hhost, ?_⟩
    refine next_settle rfl ((State.connect_io hen hk (by omega) hcheck).trans ?_)
    rw [State.makeQueue, State.firstIssue_bindQueue, ← hhost]
    rfl
  case refused =>
    refine ⟨_, next_settle rfl (State.connect_refused hen hst), rfl, ?_⟩
    obtain ⟨_, _, _, e⟩ := s.sendQp_frontOnly cap.qpn 1 (.send 0 cntlid qid cap.cid st 0 false)
    rw [State.answerBare, e]

end Sys2Proof.Machine
end

section
/-! Range locks (R66, R68 to R74): the marks of waiting time, and what granting, releasing and counting locks leave of the state. -/

namespace Sys2Proof.Machine

open Sys2Proof

/-! ## The marks of waiting time (R66) -/

/-- A lock entry but for the mark since when it is behind another. -/
def LockEnt.unmarked (e : LockEnt) : LockEnt := { e with behind := none }

/-- A command but for the intervals that its latency leaves out. -/
def Cmd.unmarked (c : Cmd) : Cmd := { c with skips := [] }

/-- From `s` to `t` only the marks of waiting time have changed. -/
structure MarksOnly (s t : State) : Prop where
  only : ∃ l m, t = { s with host := { s.host with locks := l, cmds := m } }
  locks : t.host.locks.map LockEnt.unmarked = s.host.locks.map LockEnt.unmarked
  cmds : ∀ n, (t.cmd n).map Cmd.unmarked = (s.cmd n).map Cmd.unmarked

theorem MarksOnly.refl (s : State) : MarksOnly s s := ⟨⟨_, _, rfl⟩, rfl, fun _ => rfl⟩

theorem MarksOnly.trans {s t u : State} (h : MarksOnly s t) (k : MarksOnly t u) : MarksOnly s u := by
  obtain ⟨⟨l, m, rfl⟩, hl, hc⟩ := h
  obtain ⟨⟨l', m', rfl⟩, kl, kc⟩ := k
  exact ⟨⟨l', m', rfl⟩, kl.trans hl, fun n => (kc n).trans (hc n)⟩

/-- Marking one entry. -/
theorem State.markBehind_marksOnly (s : State) (e : LockEnt) (b : Option Nat) :
    MarksOnly s (s.setLocks (s.host.locks.map fun x => if x = e then { x with behind := b } else x)) := by
  refine ⟨⟨_, _, rfl⟩, ?_, fun _ => rfl⟩
  show (s.host.locks.map _).map LockEnt.unmarked = _
  rw [List.map_map]
  refine List.map_congr_left fun x _ => ?_
  rw [Function.comp_apply]
  split <;> rfl

/-- Noting an interval for one command. -/
theorem State.addSkip_marksOnly (s : State) (tag : Nat) (i : Nat × Nat) :
    MarksOnly s { s with host := { s.host with cmds := s.host.cmds.adjust tag fun c => { c with skips := c.skips ++ [i] } } } := by
  refine ⟨⟨_, _, rfl⟩, rfl, fun n => ?_⟩
  show ((s.host.cmds.adjust tag _).find? n).map Cmd.unmarked = _
  rw [SMap.find?_adjust]
  split
  next h => rw [h, Option.map_map]; rfl
  · rfl

theorem State.noteWaits_marksOnly (s : State) : MarksOnly s s.noteWaits := by
  refine List.foldlRecOn s.host.locks _ (motive := MarksOnly s) (.refl s) fun t ht e _ => ht.trans ?_
  dsimp only
  split
  · exact .refl t
  · split
    · split
      · exact t.markBehind_marksOnly e _
      · exact .refl t
    · split
      · exact .refl t
      · exact (t.markBehind_marksOnly e none).trans (State.addSkip_marksOnly _ _ _)

/-- Counting the locks notes the waiting times, and writes RLK_STATUS (R66, R108). -/
theorem State.countLocks_only (s : State) : ∃ r, s.countLocks = { s.noteWaits with regs := r } := by
  unfold State.countLocks
  refine List.foldlRecOn (motive := fun t => ∃ r, t = { s.noteWaits with regs := r }) _ _ ?_ fun t ht f _ => ?_
  · exact ⟨_, rfl⟩
  · exact State.maxFld_only (State.setFld_only (State.setFld_only ht ..) ..) ..

/-! ## Granting (R71, R139) -/

/-- An entry as it is once granted under the number `n`. -/
def LockEnt.asGranted (e : LockEnt) (n : Nat) : LockEnt :=
  { e with granted := true, withdrawn := false, order := if e.order = 0 then n else e.order }

/-- The state in which an entry has been granted, before the locks are counted or the partner is told. -/
def State.markGranted (s : State) (e : LockEnt) : State :=
  { s with host := { s.host with
      lockOrder := s.host.lockOrder + 1, locks := s.host.locks.map fun x => if x = e then e.asGranted (s.host.lockOrder + 1) else x } }

theorem State.grantLock_eq (s : State) (e : LockEnt) : s.grantLock e =
    if e.side = s.side then (s.markGranted e).countLocks
    else (s.markGranted e).send (vlLock e.cls) e.cls e.tag (.lock (.grant e.shard (s.ftl.level == 3))) := rfl

/-- After a grant the entry alone is changed, but for the marks of waiting time; the registers, or what the partner is sent, follow. -/
theorem State.grantLock_marksOnly (s : State) (e : LockEnt) :
    ∃ u r g o, MarksOnly (s.markGranted e) u ∧ s.grantLock e = { u with regs := r, pair := { u.pair with groups := g }, out := o } := by
  rw [State.grantLock_eq]
  split
  · obtain ⟨r, h⟩ := (s.markGranted e).countLocks_only
    exact ⟨_, r, _, _, (s.markGranted e).noteWaits_marksOnly, h⟩
  · obtain ⟨g, o, h⟩ := (s.markGranted e).send_linkOnly (vlLock e.cls) e.cls e.tag (.lock (.grant e.shard (s.ftl.level == 3)))
    exact ⟨_, _, g, o, .refl _, h⟩

/-- A conflicting holder stands against a grant (R71). -/
theorem State.mayGrant_of_conflict {s : State} {e x : LockEnt} (hx : x ∈ s.host.locks) (hg : x.granted = true) (hc : x.conflicts e = true) :
    s.mayGrant e = false := by
  obtain ⟨i, hi, rfl⟩ := List.mem_iff_getElem.1 hx
  have hmem : (i, s.host.locks[i]) ∈ (List.range s.host.locks.length).zip s.host.locks :=
    List.mem_iff_getElem.2 ⟨i, by simpa using hi, by simp⟩
  unfold State.mayGrant
  dsimp only
  rw [List.any_eq_true.2 ⟨_, hmem, by rw [hc, hg]; rfl⟩]
  simp

/-- A request that may not be granted is not (R71). -/
theorem execLockGrant_none {s : State} {tag shard : Nat} (h : ∀ e ∈ s.host.locks, e.tag = tag → e.shard = shard → s.mayGrant e = false) :
    exec (.lockGrant tag shard) s = .next s := by
  have hnone : (s.host.locks.find? fun e => e.tag == tag && e.shard == shard && s.mayGrant e) = none :=
    List.find?_eq_none.2 fun e he => by
      simp only [Bool.and_eq_true, beq_iff_eq, Bool.not_eq_true, not_and]
      exact fun ht => h e he ht.1 ht.2
  show execLockGrant tag shard s = _
  simp only [execLockGrant, hnone]

/-! ## Releasing (R70) -/

/-- Tags of the lock entries there are. -/
def State.lockTags (s : State) : List Nat := s.host.locks.map LockEnt.tag

theorem MarksOnly.lockTags {s t : State} (h : MarksOnly s t) : t.lockTags = s.lockTags := by
  have e := congrArg (List.map LockEnt.tag) h.locks
  rwa [List.map_map, List.map_map] at e

theorem State.countLocks_lockTags (s : State) : s.countLocks.lockTags = s.lockTags := by
  obtain ⟨r, h⟩ := s.countLocks_only
  rw [h]
  exact s.noteWaits_marksOnly.lockTags

/-- Entering waiting requests changes whether they are entered, and nothing else (R73). -/
theorem State.enterWaiters_only (s : State) : ∃ l, s.enterWaiters = s.setLocks l ∧ l.map LockEnt.tag = s.lockTags := by
  refine List.foldlRecOn s.host.locks _ (motive := fun t => ∃ l, t = s.setLocks l ∧ l.map LockEnt.tag = s.lockTags) ⟨_, rfl, rfl⟩
    fun t ht e _ => ?_
  obtain ⟨l, rfl, hl⟩ := ht
  split
  · refine ⟨_, rfl, Eq.trans ?_ hl⟩
    show ((l.map _).map LockEnt.tag) = _
    rw [List.map_map]
    refine List.map_congr_left fun x _ => ?_
    rw [Function.comp_apply]
    split <;> rfl
  · exact ⟨l, rfl, hl⟩

/-- A release takes out the entries of the command and its remote requests, tells the partner, and lets waiting requests in. -/
theorem State.releaseLocks_eq (s : State) (tag : Nat) : ∃ g o, s.releaseLocks tag =
    ({ s with host := { s.host with locks := s.host.locks.filter fun e => e.tag != tag, remote := s.host.remote.erase tag,
                                    unsettled := s.host.unsettled.filter (· != tag) },
              pair := { s.pair with groups := g }, out := o } : State).enterWaiters.countLocks := by
  unfold State.releaseLocks
  extract_lets _ _ mine _ s2 s3
  have hlink : LinkOnly s2 s3 := by
    refine List.foldlRecOn (motive := LinkOnly s2) _ _ (.refl s2) fun t ht e _ => ht.trans ?_
    split
    · exact .refl t
    · exact t.send_linkOnly ..
  obtain ⟨g, o, h⟩ := hlink
  exact ⟨g, o, by rw [h]; rfl⟩

/-- A released command has no entry left. -/
theorem State.not_mem_lockTags_releaseLocks (s : State) (tag : Nat) : tag ∉ (s.releaseLocks tag).lockTags := by
  obtain ⟨g, o, h⟩ := s.releaseLocks_eq tag
  obtain ⟨l, hl, htags⟩ := State.enterWaiters_only _
  rw [h, State.countLocks_lockTags, hl]
  show tag ∉ l.map LockEnt.tag
  rw [htags]
  intro hmem
  obtain ⟨e, he, htag⟩ := List.mem_map.1 hmem
  simpa [htag] using (List.mem_filter.1 he).2

/-- Giving back the PSNs of phases that will not be sent changes a queue pair and the ledgers of commands. -/
theorem State.trimResv_only (s : State) (qpn : Nat) :
    ∃ m ps, s.trimResv qpn = { s with host := { s.host with cmds := m }, rdma := { s.rdma with qps := ps } } := by
  unfold State.trimResv
  split
  · exact ⟨_, _, rfl⟩
  · extract_lets keep
    split
    · exact ⟨_, _, rfl⟩
    · split
      · exact ⟨_, _, rfl⟩
      · refine List.foldlRecOn (motive := fun t => ∃ m ps, t = { s with host := { s.host with cmds := m }, rdma := { s.rdma with qps := ps } })
          _ _ ?_ fun t ht x _ => ?_
        · exact ⟨_, _, rfl⟩
        · obtain ⟨m, ps, rfl⟩ := ht
          exact ⟨_, _, rfl⟩

/-- The locks of a command go with its outcome (R70). -/
theorem State.not_mem_lockTags_finish (s : State) (c : Cmd) (st : Status) (dw0 : Nat) : c.tag.num ∉ (s.finish c st dw0).lockTags := by
  unfold State.finish
  obtain ⟨m, ps, h⟩ := State.trimResv_only ((s.setCmd { c with result := some (st, dw0) }).releaseLocks c.tag.num) c.qpn
  rw [h]
  exact State.not_mem_lockTags_releaseLocks _ _

/-- Settles O30: a grant is `markGranted` but for marks, a conflict stands against it, and a command's release takes out its entries. -/
theorem lockRequestsGrantLapseAndGo : Obligations.LockRequestsGrantLapseAndGo := by
  unfold Obligations.LockRequestsGrantLapseAndGo
  refine ⟨fun s tag shard e he => ?grant, fun s tag shard h => execLockGrant_none h, fun s e x hx hg hc => State.mayGrant_of_conflict hx hg hc,
    fun s tag t ht hlapse hnew => ?lapse, fun s c st dw0 e he htag => ?release, fun s h => ?admitNone, fun s c h => ?admitOne⟩
  case grant =>
    obtain ⟨u, r, g, o, hmarks, hgrant⟩ := s.grantLock_marksOnly e
    obtain ⟨⟨l, m, honly⟩, hlocks, hcmds⟩ := hmarks
    have hexec : exec (.lockGrant tag shard) s = .next ((s.grantLock e).advance tag).settle := by
      show execLockGrant tag shard s = _
      simp only [execLockGrant, he]
    refine ⟨s.grantLock e, hexec, ?_, ?_, ?_, ?_, ?_⟩ <;> rw [hgrant]
    · rw [honly]; rfl
    · refine hlocks.trans ?_
      show (s.host.locks.map _).map LockEnt.unmarked = _
      rw [List.map_map]
      rfl
    · exact hcmds
    · rw [honly]; rfl
    · rw [honly]; rfl
  case lapse =>
    show execRemoteLockTimeout tag s = _
    simp only [execRemoteLockTimeout, ht, hlapse, hnew, decide_true, Bool.not_false, Bool.and_true, if_true]
  case release => exact s.not_mem_lockTags_finish c st dw0 (htag ▸ List.mem_map_of_mem he)
  case admitNone =>
    show execJournalAdmit s = _
    simp only [execJournalAdmit, h, List.mergeSort_nil, List.foldl_nil]
  case admitOne =>
    show execJournalAdmit s = _
    simp only [execJournalAdmit, h, List.mergeSort_singleton, List.foldl_cons, List.foldl_nil]

end Sys2Proof.Machine
end

section
/-! What follows from host commands in time (R57, R95, R97, R99, R101, R302): a keep-alive that has run out, removals, ends of background work. -/

namespace Sys2Proof.Machine

open Sys2Proof

/-! ## Commands whose queue is gone (R106) -/

/-- What ending commands changes: the commands with their locks and read points, queue pairs, registers that count locks, and the link. -/
def CmdsOnly (s t : State) : Prop := ∃ r m l rm un ps pts g o, t =
  { s with regs := r, host := { s.host with cmds := m, locks := l, remote := rm, unsettled := un }, rdma := { s.rdma with qps := ps },
           ftl := { s.ftl with points := pts }, pair := { s.pair with groups := g }, out := o }

theorem CmdsOnly.refl (s : State) : CmdsOnly s s := ⟨_, _, _, _, _, _, _, _, _, rfl⟩

theorem CmdsOnly.trans {s t u : State} (h : CmdsOnly s t) (k : CmdsOnly t u) : CmdsOnly s u := by
  obtain ⟨_, _, _, _, _, _, _, _, _, rfl⟩ := h
  obtain ⟨_, _, _, _, _, _, _, _, _, rfl⟩ := k
  exact ⟨_, _, _, _, _, _, _, _, _, rfl⟩

theorem LinkOnly.cmdsOnly {s t : State} (h : LinkOnly s t) : CmdsOnly s t := by
  obtain ⟨_, _, rfl⟩ := h
  exact ⟨_, _, _, _, _, _, _, _, _, rfl⟩

theorem State.setCmd_cmdsOnly (s : State) (c : Cmd) : CmdsOnly s (s.setCmd c) := ⟨_, _, _, _, _, _, _, _, _, rfl⟩
theorem State.forget_cmdsOnly (s : State) (t : Nat) : CmdsOnly s (s.forget t) := ⟨_, _, _, _, _, _, _, _, _, rfl⟩

theorem State.trimResv_cmdsOnly (s : State) (qpn : Nat) : CmdsOnly s (s.trimResv qpn) := by
  obtain ⟨_, _, h⟩ := s.trimResv_only qpn
  exact ⟨_, _, _, _, _, _, _, _, _, h⟩

theorem State.countLocks_cmdsOnly (s : State) : CmdsOnly s s.countLocks := by
  obtain ⟨_, h⟩ := s.countLocks_only
  obtain ⟨_, _, hw⟩ := s.noteWaits_marksOnly.only
  rw [hw] at h
  exact ⟨_, _, _, _, _, _, _, _, _, h⟩

theorem State.releaseLocks_cmdsOnly (s : State) (tag : Nat) : CmdsOnly s (s.releaseLocks tag) := by
  obtain ⟨g, o, h⟩ := s.releaseLocks_eq tag
  obtain ⟨l, hl, -⟩ := State.enterWaiters_only _
  rw [h, hl]
  refine CmdsOnly.trans ?_ (State.countLocks_cmdsOnly _)
  exact ⟨_, _, _, _, _, _, _, _, _, rfl⟩

theorem State.dropCmds_cmdsOnly (s : State) (p : Cmd → Bool) : CmdsOnly s (s.dropCmds p) := by
  refine List.foldlRecOn (motive := CmdsOnly s) _ _ (.refl s) fun t ht c _ => ht.trans ?_
  split
  · exact .refl t
  · split
    · exact (t.setCmd_cmdsOnly _).trans (State.trimResv_cmdsOnly ..)
    · exact ((t.releaseLocks_cmdsOnly _).trans (State.forget_cmdsOnly ..)).trans (State.trimResv_cmdsOnly ..)

/-- A controller and its queues leave their tables. -/
def State.unlistCtrl (s : State) (cntlid : Nat) : State :=
  { s with host := { s.host with ctrls := s.host.ctrls.erase cntlid, queues := s.host.queues.keep fun k _ => k / 256 != cntlid } }

theorem CmdsOnly.unlistCtrl {s t : State} (h : CmdsOnly s t) (cntlid : Nat) : CmdsOnly (s.unlistCtrl cntlid) (t.unlistCtrl cntlid) := by
  obtain ⟨_, _, _, _, _, _, _, _, _, rfl⟩ := h
  exact ⟨_, _, _, _, _, _, _, _, _, rfl⟩

/-- Deleting a controller takes it and its queues out of their tables, and ends its commands (R57, R106). -/
theorem State.deleteCtrl_cmdsOnly (s : State) (cntlid : Nat) : CmdsOnly (s.unlistCtrl cntlid) (s.deleteCtrl cntlid) := by
  refine ((s.dropCmds_cmdsOnly fun c => c.tag.cntlid == cntlid).unlistCtrl cntlid).trans (LinkOnly.cmdsOnly ?_)
  exact List.foldlRecOn (motive := LinkOnly _) _ _ (.refl _) fun t ht u _ => ht.trans (t.reshadow_linkOnly u.qpn)

/-- A keep-alive that has run out deletes its controller (R57). -/
theorem execKeepAliveExpiry_expired {s : State} {cntlid : Nat} {k : Ctrl} (hk : s.host.ctrls.find? cntlid = some k) (hka : k.kato ≠ 0)
    (hlapse : k.kaAt + k.kato * 10 ^ 6 ≤ s.ao.tb) : exec (.keepAliveExpiry cntlid) s = .next (s.deleteCtrl cntlid).settle := by
  show execKeepAliveExpiry cntlid s = _
  simp only [execKeepAliveExpiry, hk]
  exact if_pos ⟨hka, hlapse⟩

/-! ## Removals (R101) -/

section
variable {s : State} {nsid : Nat} {r : Nat × Option (List Nat) × Option Detach}

/-- 100 ms into its one removal, the commands of a namespace that it catches fail. -/
theorem execNsRemovalTimeout_one (h : s.removals nsid = [r]) (ht : r.1 + 100 * 10 ^ 6 ≤ s.ao.tb) : exec (.nsRemovalTimeout nsid) s =
    .next (((s.earlier nsid r.2.1 r.1).filter Cmd.catchable).foldl (fun s c => s.failCmd c stBadNs) s).settle := by
  show execNsRemovalTimeout nsid s = _
  rw [execNsRemovalTimeout, h, List.foldl_cons, List.foldl_nil, if_neg (Nat.not_lt_of_le ht)]

/-- The end of the one removal of a namespace: it waits for the earlier commands of both heads, then the side that runs it ends it. -/
theorem execNsRemovalComplete_one (h : s.removals nsid = [r]) : exec (.nsRemovalComplete nsid) s =
    .next (if !(s.earlier nsid r.2.1 r.1).isEmpty || !(s.partnerEarlier nsid r.2.1 r.1).isEmpty then s
      else r.2.2.elim (s.endRemoval nsid) s.endDetach).settle := by
  show execNsRemovalComplete nsid s = _
  rw [execNsRemovalComplete, h, List.foldl_cons, List.foldl_nil]
  cases r.2.2 <;> rfl

/-- With earlier commands left a removal does not end. -/
theorem execNsRemovalComplete_waits (h : s.removals nsid = [r])
    (hleft : s.earlier nsid r.2.1 r.1 ≠ [] ∨ s.partnerEarlier nsid r.2.1 r.1 ≠ []) :
    exec (.nsRemovalComplete nsid) s = .next s.settle := by
  rw [execNsRemovalComplete_one h, if_pos (by simpa [Decidable.imp_iff_not_or] using hleft)]

/-- With none left it does. -/
theorem execNsRemovalComplete_ends (h : s.removals nsid = [r]) (he : s.earlier nsid r.2.1 r.1 = []) (hp : s.partnerEarlier nsid r.2.1 r.1 = []) :
    exec (.nsRemovalComplete nsid) s = .next (r.2.2.elim (s.endRemoval nsid) s.endDetach).settle := by
  rw [execNsRemovalComplete_one h, if_neg (by simp [he, hp])]

end

/-- The side that runs a detach ends it. -/
theorem State.endDetach_own {s : State} {d : Detach} (h : d.side = s.side) :
    s.endDetach d = (s.changeNow (.detached d)).finishTag (some d.tag) stOk := if_neg (by simp [h])

/-! ## Ends of background work (R95, R97, R99, R302) -/

section
variable {s : State} {x : San}

/-- The record of a namespace whose Format has ended. -/
def NsRec.formatEnded (n : NsRec) : NsRec := { n with formatting := none, phase := 0, wipeRefs := [], wipeSegs := [], done := 0, total := 0 }

/-- A Format whose work is done ends at the head that runs it (R95, R185). -/
theorem execFormatComplete_done {nsid ses : Nat} {tag : Option Nat} {n : NsRec} (hn : s.ns nsid = some n) (hf : n.formatting = some (ses, tag))
    (hphase : n.phase = 2) (hruns : s.runsNs n = true) (hkeys : s.destroying n.domain = false) :
    exec (.formatComplete nsid) s = .next (((s.setNs nsid n.formatEnded).log (.nsrec nsid (some n.formatEnded))).finishTag tag stOk).settle := by
  show execFormatComplete nsid s = _
  simp only [execFormatComplete, hn, hf]
  exact if_neg (by simp [hphase, hruns, hkeys])

/-- A sanitise ends once both heads have done their parts (R97). -/
theorem execSanitizeComplete_of_some (h : s.arr.sanitize = some x) :
    exec .sanitizeComplete s = if x.phase = 2 ∧ x.partnerDone then .next (s.changeNow (.sanEnd false)).settle else .next s := by
  show execSanitizeComplete s = _
  simp only [execSanitizeComplete, h]

/-- The end of a sanitise is recorded, noticed, and completes its command (R97, R99). -/
theorem State.applyMeta_sanEnd (h : s.arr.sanitize = some x) (failed : Bool) : s.applyMeta (.sanEnd failed) =
    (({ s with arr := { s.arr with sanitize := none, sanFailed := failed }, host := { s.host with sanDone := !failed } } : State).asyncAll
      6 1 0x81).finishTag x.tag (if failed then ⟨0, 0x1C⟩ else stOk) := by
  simp only [State.applyMeta, h]

/-- Progress of a sanitise, held to its total (R302). -/
theorem execProgressLog_sanitize (h : s.arr.sanitize = some x) (nsid done : Nat) : exec (.progressLog 1 nsid done) s =
    .next (({ s with arr := { s.arr with sanitize := some { x with done := min done x.total } } } : State).log
      (.progress 1 x.code (min done x.total) x.total)).settle := by
  show execProgressLog 1 nsid done s = _
  simp only [execProgressLog, h]

/-- Progress of a Format, held to its total (R302). -/
theorem execProgressLog_format {nsid : Nat} {n : NsRec} (hn : s.ns nsid = some n) (hf : n.formatting.isSome = true) (done : Nat) :
    exec (.progressLog 0 nsid done) s =
      .next ((s.setNs nsid { n with done := min done n.total }).log (.progress 0 nsid (min done n.total) n.total)).settle := by
  show execProgressLog 0 nsid done s = _
  simp only [execProgressLog, hn]
  exact if_pos (.inl ⟨trivial, hf⟩)

end

/-- Settles O29: each event's meaning under the condition on which it acts; what a controller's end leaves is `deleteCtrl_cmdsOnly`. -/
theorem hostTimersAndBackgroundEnds : Obligations.HostTimersAndBackgroundEnds := by
  unfold Obligations.HostTimersAndBackgroundEnds
  refine ⟨fun s cntlid k hk hka hlapse => ?expiry, fun s nsid r h ht => execNsRemovalTimeout_one h ht,
    fun s nsid t h he hp => ?removal, fun s nsid d h he hp hside => ?detach,
    fun s nsid r h hleft => execNsRemovalComplete_waits h hleft,
    fun s nsid ses tag n hn hf hphase hruns hkeys => execFormatComplete_done hn hf hphase hruns hkeys,
    fun s x h hphase hdone => (execSanitizeComplete_of_some h).trans (if_pos ⟨hphase, hdone⟩),
    fun s x h hnot => (execSanitizeComplete_of_some h).trans (if_neg ?notDone),
    fun s x h => ?failed, fun s x failed h => State.applyMeta_sanEnd h failed,
    fun s nsid done x h => execProgressLog_sanitize h nsid done, fun s nsid done n hn hf => execProgressLog_format hn hf done⟩
  case expiry =>
    obtain ⟨_, _, _, _, _, _, _, _, _, h⟩ := s.deleteCtrl_cmdsOnly cntlid
    refine ⟨_, execKeepAliveExpiry_expired hk hka hlapse, ?_⟩
    rw [h]
    exact ⟨rfl, rfl, rfl, rfl, rfl⟩
  case removal => rw [execNsRemovalComplete_ends h he hp, Option.elim]
  case detach => rw [execNsRemovalComplete_ends h he hp, Option.elim, State.endDetach_own hside, stOk]
  case notDone => exact fun hd => hnot.elim (absurd hd.1) fun hp => by simp [hp] at hd
  case failed => exact if_pos (by rw [h]; rfl)

end Sys2Proof.Machine
end

section
/-! The state of a head right after a full power-on (R138, R165, R681). -/

namespace Sys2Proof.Machine

open Sys2Proof

/-- Settles O3: registers, tables and memory list nothing at reset, so each reads its default. -/
theorem resetStateReadsResetValues : Obligations.ResetStateReadsResetValues := by
  unfold Obligations.ResetStateReadsResetValues
  have hreg : ∀ die blk off, State.reset.reg die blk off = resetWord State.reset.variant blk off := fun _ _ _ => rfl
  have howner : ∀ die e, State.reset.tbl die 0x16 0 e 0 = BitVec.ofNat 64 (e % 2) := fun _ _ => rfl
  have hmem : ∀ a, State.reset.load a = 0 := fun _ => rfl
  exact ⟨rfl, hreg, howner, hmem, rfl, rfl, rfl, rfl, rfl⟩

end Sys2Proof.Machine
end

section
/-! Sparse maps of any order: a second change of a key takes the place of the first. -/

namespace Sys2Proof.SMap

variable {V : Type}

theorem insert_insert (m : SMap V) (a : Nat) (v w : V) : SMap.insert (SMap.insert m a v) a w = SMap.insert m a w := by
  induction m with
  | nil => simp [insert]
  | cons y m ih =>
    obtain ⟨k, x⟩ := y
    simp only [insert]
    split
    · simp [insert]
    · split
      · simp [insert]
      next hlt hne => simp only [insert, if_neg hlt, if_neg hne, ih]

theorem erase_insert (m : SMap V) (a : Nat) (v : V) : SMap.erase (SMap.insert m a v) a = SMap.erase m a := by
  induction m with
  | nil => simp [insert, erase]
  | cons y m ih =>
    obtain ⟨k, x⟩ := y
    simp only [insert]
    split
    next hlt => simp [erase, hlt, Nat.ne_of_lt hlt]
    · split
      next heq => simp [erase, heq]
      next hlt hne => simp only [erase, if_neg hlt, if_neg hne, ih]

variable [DecidableEq V]

/-- A value other than the default is listed, so a later write takes its place. -/
theorem putD_putD {v d : V} (h : v ≠ d) (m : SMap V) (a : Nat) (w : V) : (SMap.putD m a v d).putD a w d = SMap.putD m a w d := by
  simp only [putD, if_neg h, erase_insert, insert_insert]

theorem getD_putD {v d : V} (h : v ≠ d) (m : SMap V) (a : Nat) : (SMap.putD m a v d).getD a d = v := by
  rw [putD, if_neg h, getD, find?_insert, Option.getD_some]

end Sys2Proof.SMap
end

section
/-! Message frames of the partner on a link group (R117 to R123, R162, R163): what is held, what is delivered, and when. -/

namespace Sys2Proof.Machine

open Sys2Proof

/-! ## Groups -/

theorem State.group_setGroup {x : Group} (h : x ≠ .reset) (s : State) (g : Nat) : (s.setGroup g x).group g = x := SMap.getD_putD h ..

theorem State.setGroup_setGroup {x : Group} (h : x ≠ .reset) (s : State) (g : Nat) (y : Group) :
    (s.setGroup g x).setGroup g y = s.setGroup g y :=
  congrArg (fun m => { s with pair := { s.pair with groups := m } }) (SMap.putD_putD h s.pair.groups g y)

/-- A group with a gap: since the moment it has stood so far, or from now on. -/
def Group.gapped (x : Group) (now : Nat) : Group := { x with gapSince := some (x.gapSince.getD now) }

/-- A group that holds a frame is not one that has not trained. -/
theorem Group.ne_reset_of_ahead {x : Group} (h : x.ahead ≠ []) : x ≠ .reset := by
  rintro rfl
  exact h rfl

/-! ## The frames held in order -/

section
variable {x : Group} {p q : RxFrame}

theorem seq_ne_next (n : Nat) : n ≠ (n + 1) % 65536 := by omega

theorem Group.run_of_nil (h : x.ahead = []) (seq fuel : Nat) : x.run seq fuel = [] := by
  cases fuel with
  | zero => rfl
  | succ fuel => simp [Group.run, h]

/-- A frame ahead of a gap does not follow. -/
theorem Group.run_of_gap (h : x.ahead = [p]) {seq : Nat} (hp : p.seq ≠ seq) (fuel : Nat) : x.run seq fuel = [] := by
  cases fuel with
  | zero => rfl
  | succ fuel => simp [Group.run, h, hp]

theorem Group.run_of_one (h : x.ahead = [p]) (fuel : Nat) : x.run p.seq (fuel + 1) = [p] := by
  have hrest : x.run ((p.seq + 1) % 65536) fuel = [] := Group.run_of_gap h (seq_ne_next _) fuel
  simp [Group.run, h, hrest]

theorem Group.run_of_two (h : x.ahead = [p, q]) (hq : q.seq = (p.seq + 1) % 65536) : x.run p.seq 3 = [p, q] := by
  have hne : p.seq ≠ q.seq := hq ▸ seq_ne_next _
  have hp2 : p.seq ≠ (q.seq + 1) % 65536 := by omega
  have hq2 : q.seq ≠ (q.seq + 1) % 65536 := seq_ne_next _
  simp [Group.run, h, ← hq, hne, hp2, hq2]

end

/-! ## Messages that are whole -/

section
variable {y : Group}

/-- The frames held are one whole message in order: it is delivered, and the group holds none of them any more. -/
theorem State.chlRun_whole {p : RxFrame} {l : List RxFrame} (ha : y.ahead = p :: l)
    (hrun : y.run y.rxSeq (y.ahead.length + 1) = p :: l) (hfirst : firstMessage (p :: l) = some (p :: l)) (v : State) (g fuel : Nat) :
    (v.setGroup g y).chlRun g (fuel + 1) =
      ((v.setGroup g (y.applied ((p :: l).map RxFrame.bytes))).deliver g ((p :: l).map RxFrame.bytes) p.msg).chlRun g fuel := by
  have hy : y ≠ .reset := Group.ne_reset_of_ahead (by simp [ha])
  have hnone : (y.ahead.filter fun q => !(p :: l).contains q) = [] := by
    rw [ha]
    exact List.filter_eq_nil_iff.2 fun q hq => by rw [List.contains_iff_mem.2 hq]; simp
  simp only [State.chlRun, State.group_setGroup hy, State.setGroup_setGroup hy, hrun, hfirst, hnone, Group.applied, List.length_map,
    List.foldl_map]

/-- The frames held follow in order but their message is not whole: they stay, and there is no gap. -/
theorem State.chlRun_part (ha : y.ahead ≠ []) (hrun : y.run y.rxSeq (y.ahead.length + 1) = y.ahead) (hfirst : firstMessage y.ahead = none)
    (v : State) (g fuel : Nat) : (v.setGroup g y).chlRun g (fuel + 1) = v.setGroup g { y with gapSince := none } := by
  have hy : y ≠ .reset := Group.ne_reset_of_ahead ha
  simp only [State.chlRun, State.group_setGroup hy, State.setGroup_setGroup hy, hrun, hfirst]
  simp

/-- Of the frames held none follows: there is a gap. -/
theorem State.chlRun_gap (ha : y.ahead ≠ []) (hrun : y.run y.rxSeq (y.ahead.length + 1) = []) (v : State) (g fuel : Nat) :
    (v.setGroup g y).chlRun g (fuel + 1) = v.setGroup g (y.gapped v.ao.tb) := by
  have hy : y ≠ .reset := Group.ne_reset_of_ahead ha
  simp only [State.chlRun, State.group_setGroup hy, State.setGroup_setGroup hy, hrun]
  simp [ha, Group.gapped]

end

/-! ## One frame -/

/-- A message that arrives as a command is what its frames do on their group. -/
theorem exec_linkCommand (h : ChlHdr) (m : ChlMsg) (s : State) : exec (linkCommand h m) s = .next (s.chlMsg h m).settle := by
  cases m <;> rfl

/-- A lost group sends nothing that waits. -/
theorem State.drainGroup_of_down {s : State} {g : Nat} (h : s.groupUp g = false) (fuel : Nat) : s.drainGroup g fuel = s := by
  cases fuel with
  | zero => rfl
  | succ fuel => simp [State.drainGroup, h]

/-- A lost group takes no message frame. -/
theorem State.chlFrames_of_down {s : State} {g : Nat} (h : s.groupUp g = false) (m : ChlMsg) (l : List (Nat × Bytes)) :
    s.chlFrames g m l = s := by
  induction l with
  | nil => rfl
  | cons lf l ih =>
    obtain ⟨lane, f⟩ := lf
    simpa [State.chlFrames, h] using ih

theorem State.chlMsg_of_down {s : State} {h : ChlHdr} (hd : s.groupUp h.group = false) (m : ChlMsg) : s.chlMsg h m = s := by
  rw [State.chlMsg, State.chlFrames_of_down hd, State.chlDrain, State.drainGroup_of_down hd]

section
variable {s : State} {g lane : Nat} {f : Bytes} {m : ChlMsg}

/-- A frame whose CRC fails is counted on its lane and leaves a gap (R123, R125). -/
theorem State.chlMsg_of_bad (hup : s.groupUp g = true) (hbad : frameOk f = false) :
    s.chlMsg ⟨g, [(lane, f)]⟩ m = (s.chlCrcError g lane true).drained g := by
  simp [State.chlMsg, State.chlFrames, hup, hbad, State.chlDrain, State.drained]

/-- A frame with a credit that is `d` beyond the ones held in order, at most 256, is held; one that is not next begins a gap (R121, R123). -/
theorem State.chlFrame_held {v : State} {x : Group} {l : List RxFrame} {d : Nat} (hx : v.group g = x)
    (hrun : x.run x.rxSeq (x.ahead.length + 1) = l) (hd : seqDist ((x.rxSeq + l.length) % 65536) (frameSeq f) = d) (hfar : d ≤ 256)
    (hnew : ∀ p ∈ x.ahead, p.seq ≠ frameSeq f) (hcredit : frameVl f < 5 → 0 < x.rxCredits.getD (frameVl f) 0) :
    v.chlFrame g f m = v.setGroup g { x.holding f m with gapSince := if d = 0 then x.gapSince else some (x.gapSince.getD v.ao.tb) } := by
  have hany : (x.ahead.any fun p => p.seq == frameSeq f) = false := by simpa using hnew
  have hcr : ¬ (frameVl f < 5 ∧ x.rxCredits.getD (frameVl f) 0 = 0) := fun h => Nat.ne_of_gt (hcredit h.1) h.2
  unfold State.chlFrame
  dsimp only
  rw [hx, hrun, hd, if_neg (by simp [hany]; omega), if_neg (by omega), if_neg hcr]
  rfl

/-- A good frame: its header, then what its SEQ makes of it, then the messages that are whole. -/
theorem State.chlMsg_of_good (hup : s.groupUp g = true) (hok : frameOk f = true) {y : Group} (hvup : (s.chlTook g f).groupUp g = true)
    (hframe : (s.chlTook g f).chlFrame g f m = (s.chlTook g f).setGroup g y) (ha : y.ahead ≠ []) :
    s.chlMsg ⟨g, [(lane, f)]⟩ m = (((s.chlTook g f).setGroup g y).chlRun g (y.ahead.length + 1)).drained g := by
  have htook : s.chlHead g f = s.chlTook g f := rfl
  have hyup : ((s.chlTook g f).setGroup g y).groupUp g = true := hvup
  simp [State.chlMsg, State.chlFrames, hup, hok, htook, hframe, hyup, State.group_setGroup (Group.ne_reset_of_ahead ha), State.chlDrain,
    State.drained]

end

/-- A good frame with a credit, on a group that is up and stays so. -/
structure TakesFrame (s : State) (g : Nat) (f : Bytes) : Prop where
  up : s.groupUp g = true
  good : frameOk f = true
  stays : (s.chlTook g f).groupUp g = true
  credit : frameVl f < 5 → 0 < ((s.chlTook g f).group g).rxCredits.getD (frameVl f) 0

namespace TakesFrame

variable {s : State} {g lane : Nat} {f : Bytes} {m : ChlMsg} {x : Group}

/-- A frame that is held is followed by what `chlRun` makes of the frames held. -/
theorem chlMsg_held (h : TakesFrame s g f) (hx : (s.chlTook g f).group g = x) {l : List RxFrame} {d : Nat}
    (hrun : x.run x.rxSeq (x.ahead.length + 1) = l) (hd : seqDist ((x.rxSeq + l.length) % 65536) (frameSeq f) = d) (hfar : d ≤ 256)
    (hnew : ∀ p ∈ x.ahead, p.seq ≠ frameSeq f) : s.chlMsg ⟨g, [(lane, f)]⟩ m =
      (((s.chlTook g f).setGroup g { x.holding f m with
        gapSince := if d = 0 then x.gapSince else some (x.gapSince.getD (s.chlTook g f).ao.tb) }).chlRun g (x.ahead.length + 2)).drained g := by
  obtain ⟨hup, hgood, hstays, hcredit⟩ := h
  rw [hx] at hcredit
  rw [State.chlMsg_of_good hup hgood hstays (State.chlFrame_held hx hrun hd hfar hnew hcredit) (by simp [Group.holding])]
  simp [Group.holding]

theorem holding_of_nil (ha : x.ahead = []) : (x.holding f m).ahead = [⟨frameSeq f, f, m⟩] := by simp [Group.holding, ha]

theorem run_of_nil (ha : x.ahead = []) (hseq : frameSeq f = x.rxSeq) (fuel : Nat) :
    (x.holding f m).run x.rxSeq (fuel + 1) = [⟨frameSeq f, f, m⟩] := hseq ▸ Group.run_of_one (holding_of_nil ha) fuel

/-- A frame that is next in order is held where nothing is. -/
theorem chlMsg_next (h : TakesFrame s g f) (hx : (s.chlTook g f).group g = x) (ha : x.ahead = []) (hseq : frameSeq f = x.rxSeq) :
    s.chlMsg ⟨g, [(lane, f)]⟩ m = (((s.chlTook g f).setGroup g (x.holding f m)).chlRun g 2).drained g := by
  rw [h.chlMsg_held hx (Group.run_of_nil ha ..) (d := 0) (by simp [hseq, seqDist]) (by omega) (by simp [ha]), ha]
  rfl

/-- One that is a message by itself has it delivered. -/
theorem chlMsg_whole (h : TakesFrame s g f) (hx : (s.chlTook g f).group g = x) (ha : x.ahead = []) (hseq : frameSeq f = x.rxSeq)
    (hlast : frameEom f = true) : s.chlMsg ⟨g, [(lane, f)]⟩ m =
      ((((s.chlTook g f).setGroup g ((x.holding f m).applied [f])).deliver g [f] m).chlRun g 1).drained g := by
  have hahead : (x.holding f m).ahead = [⟨frameSeq f, f, m⟩] := holding_of_nil ha
  rw [h.chlMsg_next hx ha hseq, State.chlRun_whole hahead (run_of_nil ha hseq _) (by simp [firstMessage, hlast])]
  rfl

/-- The first of several waits for the others. -/
theorem chlMsg_part (h : TakesFrame s g f) (hx : (s.chlTook g f).group g = x) (ha : x.ahead = []) (hseq : frameSeq f = x.rxSeq)
    (hmore : frameEom f = false) : s.chlMsg ⟨g, [(lane, f)]⟩ m =
      ((s.chlTook g f).setGroup g { x.holding f m with gapSince := none }).drained g := by
  have hahead : (x.holding f m).ahead = [⟨frameSeq f, f, m⟩] := holding_of_nil ha
  rw [h.chlMsg_next hx ha hseq, State.chlRun_part (by simp [hahead]) ((run_of_nil ha hseq _).trans hahead.symm)
    (by simp [hahead, firstMessage, hmore])]

/-- The second of two has the message delivered. -/
theorem chlMsg_second (h : TakesFrame s g f) (hx : (s.chlTook g f).group g = x) {p : RxFrame} (ha : x.ahead = [p]) (hp : p.seq = x.rxSeq)
    (hmore : frameEom p.bytes = false) (hseq : frameSeq f = (x.rxSeq + 1) % 65536) (hlast : frameEom f = true) :
    s.chlMsg ⟨g, [(lane, f)]⟩ m =
      ((((s.chlTook g f).setGroup g ((x.holding f m).applied [p.bytes, f])).deliver g [p.bytes, f] p.msg).chlRun g 2).drained g := by
  have hahead : (x.holding f m).ahead = [p, ⟨frameSeq f, f, m⟩] := by simp [Group.holding, ha]
  have hrun : (x.holding f m).run (x.holding f m).rxSeq 3 = [p, ⟨frameSeq f, f, m⟩] := by
    rw [show (x.holding f m).rxSeq = p.seq from hp.symm]
    exact Group.run_of_two hahead (hseq.trans (by rw [hp]))
  have hone : x.run x.rxSeq (x.ahead.length + 1) = [p] := hp ▸ Group.run_of_one ha _
  have hdist : seqDist ((x.rxSeq + [p].length) % 65536) (frameSeq f) = 0 := by simp [hseq, seqDist]
  rw [h.chlMsg_held hx hone hdist (by omega) (by simp [ha, hp, hseq, seq_ne_next]), ha]
  have hwhole := State.chlRun_whole (y := x.holding f m) hahead (by rw [hahead]; exact hrun) (by simp [firstMessage, hlast, hmore])
    (s.chlTook g f) g 2
  exact congrArg (State.drained · g) hwhole

/-- One ahead of a gap is held, and the gap begins. -/
theorem chlMsg_gap (h : TakesFrame s g f) (hx : (s.chlTook g f).group g = x) (ha : x.ahead = []) (hpos : 0 < seqDist x.rxSeq (frameSeq f))
    (hnear : seqDist x.rxSeq (frameSeq f) ≤ 256) :
    s.chlMsg ⟨g, [(lane, f)]⟩ m = ((s.chlTook g f).setGroup g ((x.holding f m).gapped (s.chlTook g f).ao.tb)).drained g := by
  have hne : frameSeq f ≠ x.rxSeq := fun e => by simp [e, seqDist] at hpos
  have hahead : ((x.holding f m).gapped (s.chlTook g f).ao.tb).ahead = [⟨frameSeq f, f, m⟩] := holding_of_nil ha
  rw [h.chlMsg_held hx (Group.run_of_nil ha ..) (d := seqDist x.rxSeq (frameSeq f)) (by simp [seqDist]) hnear (by simp [ha]), ha,
    if_neg (by omega)]
  exact congrArg (State.drained · g) (State.chlRun_gap (by simp [hahead]) (Group.run_of_gap hahead hne _) (s.chlTook g f) g 1)

end TakesFrame

/-! ## Delivery (R119, R162, R163) -/

/-- A message's frames have its TYPE and one of its lanes just when none of them breaks R119. -/
theorem frames_typed_iff (fs : List Bytes) (m : ChlMsg) :
    (fs.any fun x => frameType x != m.code || !(vlsOf (frameType x)).contains (frameVl x)) = false ↔
      ∀ x ∈ fs, frameType x = m.code ∧ frameVl x ∈ vlsOf m.code := by
  rw [List.any_eq_false]
  refine forall₂_congr fun x _ => ?_
  by_cases h : frameType x = m.code <;> simp [h]

/-- A wrong TYPE or lane is counted and recorded. -/
theorem State.deliver_untyped {fs : List Bytes} {m : ChlMsg} (h : ¬ ∀ x ∈ fs, frameType x = m.code ∧ frameVl x ∈ vlsOf m.code)
    (s : State) (g : Nat) : s.deliver g fs m = (s.addFld (dieF g) Reg.CHL_DISCARD_VIOL fs.length).event (dieF g) 0x15 3 g :=
  if_pos (by rwa [← frames_typed_iff, Bool.not_eq_false] at h)

/-- Frames of its TYPE on its lanes: a message whose lengths disagree is recorded, a stale one is counted, any other takes effect. -/
theorem State.deliver_typed {fs : List Bytes} {m : ChlMsg} (h : ∀ x ∈ fs, frameType x = m.code ∧ frameVl x ∈ vlsOf m.code) (s : State) (g : Nat) :
    s.deliver g fs m =
      if framesWhole fs = false then s.event (dieF g) 0x15 4 g
      else if s.stale (frameEpoch (fs.headD [])) (frameTag (fs.headD [])) m = true then s.addFld (dieF g) Reg.CHL_DISCARD_STALE 1
      else s.applyMsg g (frameSeq (fs.headD [])) (frameTag (fs.headD [])) m := by
  unfold State.deliver
  dsimp only
  rw [if_neg (by rw [(frames_typed_iff fs m).2 h]; simp)]
  simp only [Bool.not_eq_true']

/-- A message of another epoch is stale, unless it is a HEARTBEAT, a TIME or a SYNC (R162). -/
theorem State.stale_of_epoch {s : State} {epoch : Nat} (h : epoch ≠ s.epoch) (tag : Nat) (m : ChlMsg) : s.stale epoch tag m =
    match m with
    | .heartbeat _ | .time _ _ _ | .sync _ => false
    | _ => true := by
  have hne : (epoch != s.epoch) = true := bne_iff_ne.2 h
  cases m with
  | lock m => cases m <;> simp [State.stale, hne]
  | _ => simp [State.stale, hne]

/-- Settles O31: `TakesFrame` says what becomes of a good frame, `deliver_typed` and `deliver_untyped` of its message. -/
theorem linkMessagesTakeEffectInOrder : Obligations.LinkMessagesTakeEffectInOrder := by
  unfold Obligations.LinkMessagesTakeEffectInOrder
  refine ⟨fun s g lane f m hup hok => ?good, fun s h m hd => ?down, fun s g lane f m hup hbad => ?bad, fun s g fs m => ?deliver,
    fun s epoch tag m he => State.stale_of_epoch he tag m⟩
  case good =>
    intro v x hvup hcredit
    have h : TakesFrame s g f := ⟨hup, hok, hvup, hcredit⟩
    refine ⟨fun ha hseq => ⟨fun hlast => ?_, fun hmore => ?_⟩, fun p ha hp hmore hseq hlast => ?_, fun ha hpos hnear => ?_⟩ <;>
      rw [exec_linkCommand]
    · rw [h.chlMsg_whole rfl ha hseq hlast]
    · rw [h.chlMsg_part rfl ha hseq hmore]
    · rw [h.chlMsg_second rfl ha hp hmore hseq hlast]
    · rw [h.chlMsg_gap rfl ha hpos hnear]; rfl
  case down => rw [exec_linkCommand, State.chlMsg_of_down hd]
  case bad => rw [exec_linkCommand, State.chlMsg_of_bad hup hbad]; rfl
  case deliver =>
    intro f typed
    refine ⟨fun ht hw hs => ?_, fun ht => State.deliver_untyped ht s g, fun ht hw => ?_, fun ht hw hs => ?_⟩
    · rw [State.deliver_typed ht, if_neg (by simp [hw]), if_neg (by rw [hs]; simp)]
    · rw [State.deliver_typed ht, if_pos hw]
    · rw [State.deliver_typed ht, if_neg (by simp [hw]), if_pos hs]

end Sys2Proof.Machine
end

section
/-! Frames without a message, lanes and timers of the Chamois link (R119, R122, R123, R125, R713 to R715). -/

namespace Sys2Proof.Machine

open Sys2Proof

/-! ## Control frames of the partner (R119) -/

section
variable {s : State} {g lane : Nat} {f : Bytes}

/-- A good control frame of the TYPE of its row takes its effect after its header; one of another TYPE is counted and recorded. -/
theorem State.chlControl_of_good (hup : s.groupUp g = true) (hok : frameOk f = true) (ty : Nat) (k : State → State) :
    s.chlControl ⟨g, [(lane, f)]⟩ ty k = (if frameType f = ty then k (s.chlTook g f)
      else ((s.chlTook g f).addFld (dieF g) Reg.CHL_DISCARD_VIOL 1).event (dieF g) 0x15 3 g).drained g := by
  have htook : s.chlHead g f = s.chlTook g f := rfl
  simp [State.chlControl, hup, hok, htook, State.chlDrain, State.drained]

/-- One whose CRC fails is counted, and leaves no gap. -/
theorem State.chlControl_of_bad (hup : s.groupUp g = true) (hbad : frameOk f = false) (ty : Nat) (k : State → State) :
    s.chlControl ⟨g, [(lane, f)]⟩ ty k = (s.chlCrcError g lane false).drained g := by
  simp [State.chlControl, hup, hbad, State.chlDrain, State.drained]

end

/-! ## Lanes (R125) -/

/-- Another field of CHL_STATUS leaves UP alone. -/
theorem State.groupUp_setFld {s : State} (h : s.Ordered) (g : Nat) {f : Fld} (hreg : f.blk = 0x15 ∧ f.off = 0x8) (hbits : 1 ≤ f.lo ∧ f.lo + f.w ≤ 64)
    (v : Nat) : (s.setFld (dieF g) f v).groupUp g = s.groupUp g := by
  have hup := State.fld_setFld_apart h (dieF g) (g := Reg.CHL_STATUS_UP) hbits.2 v hreg.1.symm hreg.2.symm (.inl hbits.1)
  exact congrArg (· == 1) hup

/-- TRAIN on an enabled lane of a group that is up makes the lane active, and no more. -/
theorem State.chlTrain_of_up {s : State} {g lane : Nat} (ho : s.Ordered) (hg : g < s.variant.sides)
    (hen : s.flag (dieF g) Reg.CHL_CTRL_EN = true) (hlane : s.fld (dieF g) Reg.CHL_CTRL_LANE_EN / 2 ^ lane % 2 = 1)
    (hret : ((s.group g).lanes.getD lane Lane.fresh).retired = false) (hup : s.groupUp g = true) (peer : Nat) : s.chlTrain g lane peer =
      s.setFld (dieF g) Reg.CHL_STATUS_LANES_UP (s.fld (dieF g) Reg.CHL_STATUS_LANES_UP ||| 2 ^ lane) := by
  unfold State.chlTrain
  dsimp only
  rw [if_neg (by simp [hen, hlane, hret, hg]), if_pos (.inl ((State.groupUp_setFld ho g (by decide) (by decide) _).trans hup))]

/-! ## What a group sends by itself -/

/-- ACK goes by what the group has applied. -/
theorem State.ackSeq_setGroup {s : State} {g : Nat} {x : Group} (hx : x ≠ .reset) (hseq : x.rxSeq = (s.group g).rxSeq) :
    (s.setGroup g x).ackSeq g = s.ackSeq g := by
  unfold State.ackSeq
  dsimp only
  rw [State.group_setGroup hx, hseq]
  rfl

/-- A control frame of a group that has just been set goes with the credits of that group. -/
theorem State.controlFrame_setGroup {x : Group} (hx : x ≠ .reset) (s : State) (g ty : Nat) (o : Bytes → Out) :
    (s.setGroup g x).controlFrame g ty o = (s.setGroup g x.credited).emit
      (o (frameOf (frameHead ty 0 0 false false 0 ((s.setGroup g x).ackSeq g) x.credit 0) [])) := by
  unfold State.controlFrame
  dsimp only
  rw [State.group_setGroup hx, State.setGroup_setGroup hx]

/-- A group after a NAK: its next lane is used, and its credits are returned. -/
def Group.naked (x : Group) (lanes : List Nat) : Group := { x with txLane := laneAfter lanes x.txLane : Group }.credited

theorem Group.ne_reset_of_gap {x : Group} {now : Nat} (h : x.gapSince = some now) : x ≠ .reset := by
  rintro rfl
  cases h

theorem Group.gapSince_credited (x : Group) : x.credited.gapSince = x.gapSince := by
  unfold Group.credited
  split <;> rfl

theorem Group.gapSince_naked (x : Group) (lanes : List Nat) : (x.naked lanes).gapSince = x.gapSince := Group.gapSince_credited _

/-- The NAK of a gap goes on the next lane, with ACK and credits as they are. -/
theorem State.sendChlNak_of_gap {x : Group} {now : Nat} (hx : x.gapSince = some now) {s : State} {g : Nat} (hseq : x.rxSeq = (s.group g).rxSeq) :
    (s.setGroup g x).sendChlNak g = (s.setGroup g (x.naked (s.lanesUp g))).emit (.chlNak g (laneAfter (s.lanesUp g) x.txLane)
      (frameOf (frameHead 1 0 0 false false 0 (s.ackSeq g) x.credit 0) [])) := by
  have hne : x ≠ .reset := Group.ne_reset_of_gap hx
  have hne' : { x with txLane := laneAfter (s.lanesUp g) x.txLane } ≠ Group.reset := Group.ne_reset_of_gap (now := now) hx
  unfold State.sendChlNak
  dsimp only
  rw [State.group_setGroup hne, State.setGroup_setGroup hne, show (s.setGroup g x).lanesUp g = s.lanesUp g from rfl,
    State.controlFrame_setGroup hne', State.ackSeq_setGroup hne' hseq]
  rfl

/-- The credits that a group returns are those it owes. -/
theorem Group.credit_of_owed {x y : Group} (h : x.owed = y.owed) : x.credit = y.credit := by
  unfold Group.credit
  rw [h]

/-- A gap of 1 µs is answered by a NAK, and timed anew. -/
theorem execChlGapTimeout_due {s : State} {g t : Nat} (hgap : (s.group g).gapSince = some t) (hup : s.groupUp g = true) (ht : t + 1000 ≤ s.ao.tb) :
    exec (.chlGapTimeout g) s =
      .next ((s.setGroup g (({ s.group g with gapSince := some s.ao.tb } : Group).naked (s.lanesUp g))).emit (.chlNak g
        (laneAfter (s.lanesUp g) (s.group g).txLane) (frameOf (frameHead 1 0 0 false false 0 (s.ackSeq g) (s.group g).credit 0) []))) := by
  have hnak := State.sendChlNak_of_gap (x := { s.group g with gapSince := some s.ao.tb }) rfl (s := s) (g := g) rfl
  rw [Group.credit_of_owed (x := { s.group g with gapSince := some s.ao.tb }) (y := s.group g) rfl] at hnak
  refine Eq.trans ?_ (congrArg Host.Outcome.next hnak)
  show execChlGapTimeout g s = _
  simp [execChlGapTimeout, hgap, hup, ht]

/-- Frames outstanding for 2 µs go again, unless the oldest message has not been delivered for 100 µs. -/
theorem execChlAckTimeout_due {s : State} {g t : Nat} (hack : (s.group g).ackSince = some t) (hup : s.groupUp g = true) (ht : t + 2000 ≤ s.ao.tb) :
    exec (.chlAckTimeout g) s = if s.undelivered g then .next (s.groupLost g false).settle else .next (s.replayFrom g) := by
  show execChlAckTimeout g s = _
  simp [execChlAckTimeout, hack, hup, ht]

theorem State.undelivered_cons {s : State} {g : Nat} {m : TxMsg} {l : List TxMsg} (h : (s.group g).unacked = m :: l) :
    s.undelivered g = (decide (m.sentAt + 100000 ≤ s.ao.tb) && m.msg.code != 0x31) := by
  simp [State.undelivered, h]

/-! ## A replay (R123) -/

theorem State.emitMsg_out (s : State) (g : Nat) (t : TxMsg) : ∃ f, (s.emitMsg g t).out = s.out ++ [Out.chl g t.vl t.msg f] := ⟨_, rfl⟩

/-- Messages sent again one after another go out in their order. -/
theorem State.emitMsgs_out (g : Nat) (l : List TxMsg) (s : State) : ∃ fs : List (List (Nat × Bytes)), fs.length = l.length ∧
    (l.foldl (fun s t => s.emitMsg g t) s).out = s.out ++ List.zipWith (fun (t : TxMsg) f => Out.chl g t.vl t.msg f) l fs := by
  induction l generalizing s with
  | nil => exact ⟨[], rfl, by simp⟩
  | cons t l ih =>
    obtain ⟨f, hf⟩ := s.emitMsg_out g t
    obtain ⟨fs, hlen, hfs⟩ := ih (s.emitMsg g t)
    exact ⟨f :: fs, by simp [hlen], by simp [hfs, hf]⟩

/-- The state in which a replay has been announced. -/
def State.announceReplay (s : State) (g seq : Nat) : State :=
  (((s.setGroup g { s.group g with ackSince := some s.ao.tb }).addFld (dieF g) Reg.CHL_ERR_REPLAYS 1).setFlag (dieF g)
    Reg.CHL_STATUS_REPLAYING true).emit (.chlReplay g seq)

theorem State.announceReplay_out (s : State) (g seq : Nat) : (s.announceReplay g seq).out = s.out ++ [.chlReplay g seq] := by
  simp [State.announceReplay, State.emit]

theorem State.replayFrom_of_head {s : State} {g : Nat} {m : TxMsg} (h : (s.group g).unacked.head? = some m) :
    s.replayFrom g = (s.group g).unacked.foldl (fun s t => s.emitMsg g t) (s.announceReplay g m.seq) := by
  simp only [State.replayFrom, State.announceReplay, h]

theorem State.replayFrom_out {s : State} {g : Nat} {m : TxMsg} {l : List TxMsg} (h : (s.group g).unacked = m :: l) :
    ∃ fs : List (List (Nat × Bytes)), fs.length = l.length + 1 ∧
      (s.replayFrom g).out = s.out ++ .chlReplay g m.seq :: List.zipWith (fun (t : TxMsg) f => Out.chl g t.vl t.msg f) (m :: l) fs := by
  obtain ⟨fs, hlen, hfs⟩ := State.emitMsgs_out g (m :: l) (s.announceReplay g m.seq)
  refine ⟨fs, hlen, ?_⟩
  rw [State.replayFrom_of_head (by rw [h]; rfl), h, hfs, State.announceReplay_out, ← List.append_cons]

/-! ## A lost group (R125, R126, R713) -/

/-- What the loss of a group changes: the groups and what is sent, what the map changes of the lost group wait for, its registers, and for a
head whose whole link is lost the moment it waits from and its rejoin. -/
def LostOnly (s t : State) : Prop := ∃ r o h td gs fa rj, t =
  { s with regs := r, out := o, ftl := { s.ftl with holds := h, todo := td }, pair := { s.pair with groups := gs, fawnAt := fa, rejoin := rj } }

theorem LostOnly.trans {s t u : State} (h : LostOnly s t) (k : LostOnly t u) : LostOnly s u := by
  obtain ⟨_, _, _, _, _, _, _, rfl⟩ := h
  obtain ⟨_, _, _, _, _, _, _, rfl⟩ := k
  exact ⟨_, _, _, _, _, _, _, rfl⟩

theorem LinkOnly.lostOnly {s t : State} (h : LinkOnly s t) : LostOnly s t := by
  obtain ⟨_, _, rfl⟩ := h
  exact ⟨_, _, _, _, _, _, _, rfl⟩

theorem State.setFld_lostOnly (s : State) (die : Nat) (f : Fld) (v : Nat) : LostOnly s (s.setFld die f v) := ⟨_, _, _, _, _, _, _, rfl⟩

theorem State.groupLost_lostOnly (s : State) (g : Nat) (deaf : Bool) : LostOnly s (s.groupLost g deaf) := by
  unfold State.groupLost
  extract_lets x l r s1 s2 s3 f s4
  have hregs : LostOnly s s3 := ((s.setGroup_linkOnly g _).lostOnly.trans ((State.setFld_lostOnly ..).trans (State.setFld_lostOnly ..))).trans
    (State.setFld_lostOnly ..)
  have hdown : LostOnly s s4 := hregs.trans ⟨_, _, _, _, _, _, _, rfl⟩
  clear_value s4
  split
  next o _ =>
    have hlink : LinkOnly s4 (l.foldl (fun s t => s.sendOn o t.vl t.cls t.tag t.msg) s4) :=
      List.foldlRecOn _ _ (motive := LinkOnly s4) (.refl s4) fun u hu t _ => hu.trans (u.sendOn_linkOnly ..)
    exact hdown.trans hlink.lostOnly
  · split
    · exact hdown.trans ⟨_, _, _, _, _, _, _, rfl⟩
    · exact hdown

theorem execChlGroupLost_due {s : State} {g : Nat} (hup : s.groupUp g = true)
    (h : (s.lanesUp g).length < 8 ∨ (s.group g).lastFrame + 2000 ≤ s.ao.tb) :
    exec (.chlGroupLost g) s = .next (s.groupLost g false).settle := by
  show execChlGroupLost g s = _
  exact if_pos (by rw [hup]; simpa [State.lanesUp] using h)

/-- Settles O33: each frame, lane and timer acts by its own lemma above, or by the one test of its meaning. -/
theorem linkLanesAndTimers : Obligations.LinkLanesAndTimers := by
  unfold Obligations.LinkLanesAndTimers
  refine ⟨fun s g lane f hup => ?control, fun s g lane peer ho hg hen hlane hret hup => ?train, fun s g t hgap hup ht => ?gap,
    fun s g t m l hack hup ht hl => ?ack, fun s g m l h => State.replayFrom_out h, fun s g lane => ?retire, fun s g lane => ?comeBack,
    fun s g hup h => ?lost, fun s g lane hup hlane => ?idle, fun s g lane hup hen hlane => ?trainOut, fun s g h => ?exchange,
    fun s h => ?noExchange⟩
  case control =>
    have hidle : exec (.chlIdle ⟨g, [(lane, f)]⟩) s = .next (s.chlControl ⟨g, [(lane, f)]⟩ 0 id).settle := rfl
    have hnak : exec (.chlNak ⟨g, [(lane, f)]⟩) s = .next (s.chlControl ⟨g, [(lane, f)]⟩ 1 fun s => s.replayFrom g).settle := rfl
    refine ⟨fun hok hty => ?_, fun hok hty => ?_, fun hok hty => ?_, fun hbad => ?_⟩
    · rw [hidle, State.chlControl_of_good hup hok, if_pos hty, id]
    · rw [hnak, State.chlControl_of_good hup hok, if_pos hty]
    · rw [hidle, State.chlControl_of_good hup hok, if_neg hty]
    · rw [hidle, State.chlControl_of_bad hup hbad]; rfl
  case train => exact congrArg Host.Outcome.next (State.chlTrain_of_up ho hg hen hlane hret hup peer)
  case gap =>
    refine ⟨_, execChlGapTimeout_due hgap hup ht, ?_⟩
    generalize hx : ({ s.group g with gapSince := some s.ao.tb } : Group).naked (s.lanesUp g) = x
    have hgap : x.gapSince = some s.ao.tb := hx ▸ Group.gapSince_naked ..
    refine ⟨?_, rfl, rfl⟩
    show ((s.setGroup g x).group g).gapSince = _
    rw [State.group_setGroup (Group.ne_reset_of_gap hgap), hgap]
  case ack =>
    rw [execChlAckTimeout_due hack hup ht, State.undelivered_cons hl]
    refine ⟨fun h => if_neg ?_, fun h100 hcode => if_pos ?_⟩
    · simp only [Bool.and_eq_true, decide_eq_true_eq, bne_iff_ne]
      exact fun hn => h.elim (fun hlt => absurd hn.1 (by omega)) hn.2
    · simp [h100, hcode]
  case retire => exact fun hret hmany => if_neg (by simp [hret]; omega)
  case comeBack => exact fun hret hclean => if_neg (by simp [hret]; omega)
  case lost =>
    refine ⟨_, execChlGroupLost_due hup h, rfl, ?_⟩
    obtain ⟨_, _, _, _, _, _, _, e⟩ := s.groupLost_lostOnly g false
    rw [e]
  case idle =>
    show execChlIdleSend g lane s = _
    simp only [execChlIdleSend, hup, if_true, if_pos hlane]
    rfl
  case trainOut =>
    show execChlIdleSend g lane s = _
    simp only [execChlIdleSend, hup, hen, hlane]
    rfl
  case exchange =>
    show Host.Outcome.next (s.send 0 0 0 (.time 0 0 s.hasLockedSource)) = _
    rw [State.send, h]
  case noExchange =>
    show Host.Outcome.next (s.send 0 0 0 (.time 0 0 s.hasLockedSource)) = _
    rw [State.send, h]

end Sys2Proof.Machine
end

section
/-! Heartbeats, witness, lease and claims (R127 to R136, R364). -/

namespace Sys2Proof.Machine

open Sys2Proof

/-! ## What is asked of the carriers (R320 to R325) -/

/-- What sending on the Sundas fabric changes: the media sequencer's state, which holds the ports, and what has left the head. -/
def MedOnly (s t : State) : Prop := ∃ m o, t = { s with med := m, out := o }

theorem MedOnly.refl (s : State) : MedOnly s s := ⟨_, _, rfl⟩

theorem MedOnly.trans {s t u : State} (h : MedOnly s t) (k : MedOnly t u) : MedOnly s u := by
  obtain ⟨_, _, rfl⟩ := h
  obtain ⟨_, _, rfl⟩ := k
  exact ⟨_, _, rfl⟩

theorem State.setSport_medOnly (s : State) (cp : Nat) (x : SPort) : MedOnly s (s.setSport cp x) := ⟨_, _, rfl⟩

theorem State.emitSfb_medOnly (s : State) (cp : Nat) (t : SfbTx) : MedOnly s (s.emitSfb cp t) := ⟨_, _, rfl⟩

theorem State.drainPort_medOnly (s : State) (cp fuel : Nat) : MedOnly s (s.drainPort cp fuel) := by
  induction fuel generalizing s with
  | zero => exact .refl s
  | succ fuel ih =>
    unfold State.drainPort
    extract_lets x head ready go
    have hgo : ∀ vc turn, MedOnly s (go s vc turn) := fun vc turn => by
      simp only [go]
      split
      · exact ((s.setSport_medOnly _ _).trans (State.emitSfb_medOnly ..)).trans (ih _)
      · exact .refl s
    split
    · exact .refl s
    · split
      · exact hgo _ _
      · split
        · exact hgo _ _
        · split
          · exact hgo _ _
          · exact .refl s

theorem State.sendOp_medOnly (s : State) (o : MedOp) : MedOnly s (s.sendOp o) := by
  unfold State.sendOp
  extract_lets x tag med s1 t s2
  have hset : MedOnly s s2 := ⟨_, _, rfl⟩
  exact hset.trans (State.drainPort_medOnly ..)

theorem State.tell_medOnly (s : State) (req : SfbReq) (cps : List Nat) : MedOnly s (s.tell req cps) := by
  refine List.foldlRecOn cps _ (motive := MedOnly s) (.refl s) fun t ht cp _ => ht.trans ?_
  split
  · exact t.sendOp_medOnly _
  · exact .refl t

theorem State.answered_medOnly (s : State) (cp : Nat) (p : SfbReq → Bool) : MedOnly s (s.answered cp p) := by
  unfold State.answered
  split
  · exact ⟨_, _, rfl⟩
  · exact .refl s

theorem State.witnessAnswers_medOnly (s : State) (cps : List Nat) : MedOnly s (s.witnessAnswers cps) :=
  List.foldlRecOn cps _ (motive := MedOnly s) (.refl s) fun t ht cp _ =>
    ht.trans ((t.answered_medOnly cp _).trans (State.answered_medOnly ..))

theorem MedOnly.eq {s t : State} (h : MedOnly s t) : t = { s with med := t.med, out := t.out } := by
  obtain ⟨_, _, rfl⟩ := h
  rfl

/-! ## Heartbeats (R127, R149) -/

/-- A head that has counted a heartbeat and listed it among those it has sent in the last 4 µs. -/
def State.beating (s : State) : State :=
  { s with pair := { s.pair with
      hbCount := (s.pair.hbCount + 1) % 2 ^ 32,
      sentHb := (s.pair.sentHb.filter fun x => decide (s.ao.tb ≤ x.2 + 4000)) ++ [((s.pair.hbCount + 1) % 2 ^ 32, s.ao.tb)] } }

/-- A heartbeat is counted and goes on every group. -/
theorem execHeartbeatSend_sent {s : State} (hf : s.pair.faulted = none) (hoff : s.pair.head ≠ .off) (hboot : s.pair.head ≠ .boot) :
    ∃ t, exec .heartbeatSend s = .next t ∧ LinkOnly s.beating t := by
  refine ⟨_, if_neg (by simp [hf, hoff, hboot]), ?_⟩
  exact List.foldlRecOn _ _ (motive := LinkOnly s.beating) (.refl _) fun t ht g _ => ht.trans (t.sendOn_linkOnly ..)

/-! ## Claims (R133 to R136) -/

/-- A head in TWIN that has raised no fault and has no claim takes part in a claim, below the end of the epochs (R137, R149). -/
structure MayClaim (s : State) : Prop where
  twin : s.pair.head = .twin
  sound : s.pair.faulted = none
  idle : s.pair.claim = none
  epoch : s.epoch < 0xFFFFFFFF

/-- The claim that a head begins now. -/
def State.newClaim (s : State) (why : ClaimWhy) (holders : Nat) : Claim :=
  { why := why, expect := s.epoch, holders := holders, begun := s.ao.tb, applied := [], answered := [], highest := 0 }

/-- A claim that begins: CLAIM goes to every present carrier. -/
theorem MayClaim.startClaim {s : State} (h : MayClaim s) (why : ClaimWhy) (holders : Nat) : s.startClaim why s.epoch holders =
    ({ s with pair := { s.pair with claim := some (s.newClaim why holders), silence := none, deferTill := none } } : State).tell
      (.claim s.epoch (s.epoch + 1) holders) s.roster := if_neg (Nat.not_le_of_lt h.epoch)

theorem MayClaim.claim_startClaim {s : State} (h : MayClaim s) (why : ClaimWhy) (holders : Nat) :
    (s.startClaim why s.epoch holders).pair.claim = some (s.newClaim why holders) := by
  rw [h.startClaim, (State.tell_medOnly ..).eq]

theorem MayClaim.claimTakeover {s : State} (h : MayClaim s) (cause t0 detected : Nat) :
    s.claimTakeover cause t0 detected = s.startClaim (.takeover cause t0 detected) s.epoch (2 ^ s.side) :=
  if_pos (by simp [h.twin, h.sound, h.idle])

/-! ## Leaving the pair (R113, R135, R136) -/

theorem State.setLast_only (s : State) (cause : Nat) (won : Bool) : ∃ r, s.setLast cause won = { s with regs := r } := ⟨_, rfl⟩

/-- A head that enters FENCED takes part in no claim any more. -/
theorem State.enter_fenced_only (s : State) : ∃ r t, s.enter .fenced =
    { s with regs := r, time := t, pair := { s.pair with head := .fenced, claim := none, silence := none, deferTill := none } } := by
  unfold State.enter
  dsimp only
  generalize hu : State.setFlag _ dieB Reg.TBS_STATUS_LEADER false = u
  obtain ⟨r, corr, acc, e⟩ := u.selectSource_only
  rw [e, ← hu]
  exact ⟨_, _, rfl⟩

/-- A takeover claim that is lost fences the head (R135, R136). -/
theorem State.claimLost_takeover {c : Claim} {cause t0 first : Nat} (h : c.why = .takeover cause t0 first) (s : State) : ∃ r t, s.claimLost c =
    { s with regs := r, time := t, pair := { s.pair with head := .fenced, claim := none, silence := none, deferTill := none } } := by
  unfold State.claimLost
  rw [h]
  exact State.enter_fenced_only (({ s with pair := { s.pair with claim := none } } : State).setLast 6 false)

/-- A FENCED reply fences a head that serves and has raised no fault (R135). -/
theorem State.fencedReply_only {s : State} (hh : s.pair.head ∈ [HeadState.twin, .solo]) (hf : s.pair.faulted = none) (cp : Nat) :
    ∃ r t, s.fencedReply cp =
      { s with regs := r, time := t, pair := { s.pair with head := .fenced, claim := none, silence := none, deferTill := none } } := by
  have hserves : ((s.pair.head == .twin || s.pair.head == .solo) && s.pair.faulted.isNone) = true := by simpa [hf] using hh
  have hfence : s.fencedReply cp = ((s.addCpFld cp Reg.SFB_PVIOL_FENCED 1).setLast 6 false).enter .fenced := if_pos hserves
  obtain ⟨r, e⟩ : ∃ r, (s.addCpFld cp Reg.SFB_PVIOL_FENCED 1).setLast 6 false = { s with regs := r } :=
    State.setFlag_only (State.setFld_only (State.setFld_only ⟨_, rfl⟩ _ _ _) _ _ _) _ _ _
  rw [hfence, e]
  exact State.enter_fenced_only { s with regs := r }

/-! ## The witness (R128, R129, R135) -/

theorem MedOnly.health {s t : State} (h : MedOnly s t) : t.health = s.health := by
  obtain ⟨_, _, rfl⟩ := h
  rfl

/-- The second read of the partner's witness: it is asked for, and the carriers that have answered have answered both reads. -/
def State.secondRead (s : State) (answers : List (Nat × Nat × Nat × Nat)) : State :=
  (s.tell (.witRead (1 - s.side)) s.witnesses).witnessAnswers (answers.map Prod.fst)

theorem State.secondRead_medOnly (s : State) (answers : List (Nat × Nat × Nat × Nat)) : MedOnly s (s.secondRead answers) :=
  (s.tell_medOnly _ _).trans (State.witnessAnswers_medOnly ..)

/-- The head with more HEALTH, and side 0 of two with as much, is not the one that yields (R129). -/
theorem not_yields_of_more {other own side : Nat} (h : own < other ∨ (other = own ∧ side ≠ 0)) :
    ¬(other < own ∨ (other = own ∧ side = 0)) := by omega

/-- The second read decides, 2 µs after the first and with 5 µs of silence: a silent partner is claimed against, and a live one that has less
HEALTH, or as much and side 1; otherwise the head defers. -/
theorem execWitnessEvaluate_due {s : State} {first : Nat} (htwin : s.pair.head = .twin) (hsound : s.pair.faulted = none)
    (hsil : s.pair.silence = some first) (h2 : first + 2000 ≤ s.ao.tb) (h5 : s.pair.rxAt.getD s.pair.leaseAt + 5000 ≤ s.ao.tb)
    (answers : List (Nat × Nat × Nat × Nat)) :
    let l := answers.filter fun a => s.witnesses.contains a.1
    let v := s.secondRead answers
    let other := l.foldl (fun n a => max n a.2.2.2) 0
    exec (.witnessEvaluate answers) s =
      if (decide (2 ≤ l.length) && l.any fun a => a.2.1 != a.2.2.1) = false then .next (v.claimTakeover 1 s.pair.rxSent first).settle
      else if other < s.health ∨ (other = s.health ∧ s.side = 0) then .next (v.claimTakeover 6 s.pair.rxSent first).settle
      else .next { v with pair := { s.pair with silence := none, deferTill := some (s.ao.tb + 3000, first) } } := by
  intro l v other
  have hmed : MedOnly s v := s.secondRead_medOnly answers
  have hpair : v.pair = s.pair := by rw [hmed.eq]
  have htb : v.ao.tb = s.ao.tb := by rw [hmed.eq]
  have hside : v.side = s.side := by rw [hmed.eq]
  rw [← hpair, ← htb, ← hside, ← hmed.health]
  show execWitnessEvaluate answers s = _
  simp only [execWitnessEvaluate, hsil]
  rw [if_neg (by simp [htwin, hsound]; omega)]
  simp only [Bool.not_eq_true']
  rfl

/-! ## Replies to a claim (R133, R364) -/

theorem State.epochReported_pair (s : State) (cp epoch holders : Nat) : (s.epochReported cp epoch holders).pair = s.pair := by
  obtain ⟨r, e⟩ : ∃ r, s.epochReported cp epoch holders = { s with regs := r } :=
    State.setFld_only (State.setFld_only ⟨_, rfl⟩ _ _ _) _ _ _
  rw [e]

/-- A first reply of a present carrier is counted, as applied only under the claim's own epoch; the claim is then won, lost, or goes on. -/
theorem State.claimReply_counted {s : State} {c : Claim} {cp : Nat} (hc : s.pair.claim = some c) (hnew : c.answered.contains cp = false)
    (hin : s.inRoster cp = true) (epoch : Nat) (applied : Bool) (m : MediaImage) :
    let ok := applied && epoch == c.expect + 1
    let u := if applied = true ∧ epoch ≠ c.expect + 1 then s.event (cpDie cp) 0x20 5 cp else s
    let c' := { c with answered := c.answered ++ [cp], applied := if ok then c.applied ++ [cp] else c.applied, highest := max c.highest epoch }
    let v := { u with pair := { s.pair with claim := some c' } }
    s.claimReply cp epoch applied m =
      if State.claimWins v c'.applied.length then State.claimWon v c' m
      else if v.roster.length ≤ c'.answered.length then State.claimLost v c' else v := by
  intro ok u c' v
  have hpair : u.pair = s.pair := by
    simp only [u]
    split <;> simp
  have hv : v = { u with pair := { u.pair with claim := some c' } } := by rw [hpair]
  rw [hv]
  unfold State.claimReply
  simp only [hc]
  have hgo : ¬(c.answered.contains cp || !s.inRoster cp) = true := by rw [hnew, hin]; decide
  rw [if_neg hgo]

/-- Settles O34: the frames of heartbeats and of what the carriers are asked, and the lemma of each claim's beginning, reply and end. -/
theorem heartbeatWitnessLeaseAndClaims : Obligations.HeartbeatWitnessLeaseAndClaims := by
  unfold Obligations.HeartbeatWitnessLeaseAndClaims
  refine ⟨fun s hf hh => ?heartbeat, fun s hf => ?faulted, fun s hoff => ?witness, fun s htwin hf hc hsil hdef h3 => ?silence,
    fun s req cps => (s.tell_medOnly req cps).eq, fun s first answers htwin hf hsil h2 h5 => ?evaluate,
    fun s t first hdef ht htwin hf hc he => ?defer, fun s ho htwin hlapse => ?lease, fun s cp epoch holders applied m c hc hnew => ?reply,
    fun s c cause t0 first hc hwhy ht => ?timeout, fun s cp hh hf => ?fenced, fun s t hhold ht => ?release⟩
  case heartbeat =>
    have hne : s.pair.head ≠ .off ∧ s.pair.head ≠ .boot := by constructor <;> (intro e; simp [e] at hh)
    obtain ⟨t, ht, g, o, rfl⟩ := execHeartbeatSend_sent hf hne.1 hne.2
    exact ⟨_, ht, rfl, rfl, rfl⟩
  case faulted => exact if_pos (by simp [hf])
  case witness => exact if_neg (by simp [hoff])
  case silence => exact if_pos (by simp [htwin, hf, hc, hsil, hdef, h3])
  case evaluate =>
    intro l v other
    have hdue := execWitnessEvaluate_due htwin hf hsil h2 h5 answers
    have hlive : 2 ≤ l.length → (∃ a ∈ l, a.2.1 ≠ a.2.2.1) → ¬(decide (2 ≤ l.length) && l.any fun a => a.2.1 != a.2.2.1) = false := by
      rintro hlen ⟨a, ha, hne⟩
      simp only [decide_eq_true hlen, Bool.true_and, Bool.not_eq_false, List.any_eq_true, bne_iff_ne]
      exact ⟨a, ha, hne⟩
    refine ⟨fun h => ?_, fun hlen hmoved hless => ?_, fun hlen hmoved hmore => ?_⟩
    · refine hdue.trans (if_pos ?_)
      simpa [l, Classical.or_iff_not_imp_left, Nat.succ_le_iff] using h
    · exact hdue.trans ((if_neg (hlive hlen hmoved)).trans (if_pos hless))
    · exact hdue.trans ((if_neg (hlive hlen hmoved)).trans (if_neg (not_yields_of_more hmore)))
  case defer =>
    intro c
    have hmay : MayClaim { s with pair := { s.pair with deferTill := none } } := ⟨htwin, hf, hc, he⟩
    show execClaimDeferEnd s = _
    simp only [execClaimDeferEnd, hdef, if_pos ht, hmay.claimTakeover]
    exact congrArg (fun t : State => Host.Outcome.next (State.settle t)) (hmay.startClaim _ _)
  case lease =>
    refine ⟨_, if_pos (by simp [htwin, hlapse]), ?_, rfl⟩
    exact State.flag_setFlag_same ho _ (by decide) rfl _
  case reply =>
    intro w hin ok w' c' v
    have hpair : w.pair = s.pair := (State.epochReported_pair ..).trans (by rw [(s.answered_medOnly cp _).eq])
    have hexec : exec (.claimReply cp epoch holders applied m) s = .next (w.claimReply cp epoch applied m).settle := rfl
    have hcount := State.claimReply_counted ((congrArg PairU.claim hpair).trans hc) hnew hin epoch applied m
    rw [hpair] at hcount
    rw [hexec, hcount]
    refine ⟨fun hwin => ?_, fun hwin hall => ?_, fun hwin hmore => ?_⟩
    · rw [if_pos hwin]
    · rw [if_neg (Bool.not_eq_true _ ▸ hwin), if_pos hall]
    · rw [if_neg (Bool.not_eq_true _ ▸ hwin), if_neg (Nat.not_le_of_lt hmore)]
  case timeout =>
    obtain ⟨r, time, e⟩ := State.claimLost_takeover hwhy s
    have hexec : exec .claimTimeout s = .next (s.claimLost c).settle := by
      show execClaimTimeout s = _
      simp only [execClaimTimeout, hc, if_pos ht]
    exact ⟨_, hexec, by rw [e]; exact ⟨rfl, rfl, rfl, rfl⟩⟩
  case fenced =>
    obtain ⟨r, time, e⟩ := State.fencedReply_only hh hf cp
    exact ⟨_, rfl, by rw [e]; exact ⟨rfl, rfl⟩⟩
  case release =>
    show execTakeoverTransmitRelease s = _
    simp only [execTakeoverTransmitRelease, hhold, if_pos ht]

end Sys2Proof.Machine
end

section
/-! Takeovers asked for, handovers, starts, rejoin and faults of the head (R113 to R115, R147, R148, R152, R158, R159, R676, R679, R720). -/

namespace Sys2Proof.Machine

open Sys2Proof

/-! ## Handovers and probes (R147, R158) -/

/-- With no HANDOVER unacknowledged or waiting, a full handover resets the head and a handback goes to its next port. -/
theorem execHandoverAcked_acked {s : State} {ports shards : List Nat} (hg : s.pair.giving = some (1, ports, shards))
    (hno : ∀ g ∈ s.pair.groups.vals, ∀ t ∈ g.unacked ++ g.waiting, ∀ p sh, t.msg ≠ .handover p sh) :
    exec .handoverAcked s =
      if (!shards.isEmpty) = true then .next ((s.setLast 7 false).headReset 8)
      else .next ((ports.foldl State.startTx { s.gaveBack ports with pair := { (s.gaveBack ports).pair with giving := none } }).handbackNext).settle := by
  show execHandoverAcked s = _
  unfold execHandoverAcked
  simp only [hg]
  refine if_neg fun hout => ?_
  obtain ⟨g, hgm, hany⟩ := List.any_eq_true.mp hout
  obtain ⟨t, ht, hmsg⟩ := List.any_eq_true.mp hany
  split at hmsg
  case h_1 p sh he => exact hno g hgm t ht p sh he
  case h_2 => exact absurd hmsg (by decide)

/-- A probe without an answer for 10 µs fails its queue pair after the fourth, and is repeated before. -/
theorem execProbeTimeout_due {s : State} {qpn t : Nat} {q : Qp} (hq : s.qp qpn = some q) (hat : q.probeAt = some t) (hok : q.error = false)
    (hdue : t + 10000 ≤ s.ao.tb) (hsent : 0 < q.probes) :
    exec (.probeTimeout qpn) s =
      if 4 ≤ q.probes then .next (s.qpFail qpn).settle
      else .next ((s.setQp qpn { q with probes := q.probes + 1, probeAt := some s.ao.tb }).sendPkt qpn q
        { psn := psnAdd q.spsn 0x400000, n := 0, kind := .probe }) := by
  show execProbeTimeout qpn s = _
  simp only [execProbeTimeout, hq, hat]
  exact if_neg (by simp [hok]; omega)

/-! ## Starts and rejoin (R114, R115, R159) -/

/-- The joiner takes the next step once it is measured against a serving partner, or aligned with one that starts with it. -/
theorem execRejoinSync_joins {s : State} (hh : s.pair.head = .fawn) (hrec : s.pair.recovered = false) (hcomp : s.pair.compatible = true)
    (hup : s.upGroups ≠ []) (hrej : s.pair.rejoin = 0)
    (htime : (s.pair.partner ∈ [some HeadState.twin, some .solo] ∧ s.time.measured = true) ∨
      (s.pair.partner = some .fawn ∧ s.side = 1 ∧ (s.leads = true ∨ s.time.aligned = true))) (m : MediaImage) :
    exec (.rejoinSync m) s = .next (s.joinSync m).settle := by
  have hjoins : (s.pair.head == .fawn && !s.pair.recovered) = true := by simp [hh, hrec]
  refine (if_pos hjoins).trans (if_pos ?_)
  rcases htime with ⟨hp, hm⟩ | ⟨hp, hside, hlead⟩
  · rcases List.mem_pair.mp hp with hp | hp <;> simp [hp, hm, hcomp, hup, hrej]
  · simp [hp, hside, hlead, hcomp, hup, hrej]

/-! ## Faults of the head (R148, R720) -/

/-- A fault of cause 0x02 or 0x04, by the state of the head. -/
theorem State.raiseFault_by_head (v : State) (cause die blk : Nat) :
    (v.pair.head = .twin → v.raiseFault cause die blk = (v.yield cause).enter .fenced) ∧
    (v.pair.head = .solo → v.raiseFault cause die blk = (v.yield cause).beginDump true .fence) ∧
    (v.pair.head ∈ [HeadState.boot, .fawn] → v.raiseFault cause die blk = (v.event die blk 0 noInst).headReset 9) ∧
    (v.pair.head ∈ [HeadState.fenced, .thermalHold] → v.raiseFault cause die blk = v.event die blk 0 noInst) ∧
    (v.pair.head = .off → v.raiseFault cause die blk = v) := by
  unfold State.raiseFault
  refine ⟨fun h => ?_, fun h => ?_, fun h => ?_, fun h => ?_, fun h => ?_⟩
  · simp only [h, State.fenceForFault]; exact if_neg (by decide)
  · simp only [h, State.fenceForFault]; exact if_pos trivial
  · rcases List.mem_pair.mp h with h | h <;> simp only [h]
  · rcases List.mem_pair.mp h with h | h <;> simp only [h]
  · simp only [h]

/-- An enabled port that has had no link for 2 µs while the twin port has one is a fault of cause 0x03 where the head serves, and an event where it
is fenced or holds for heat. -/
theorem execFrontPortLinkFault_due {s : State} {p t : Nat} (hdown : (s.fport p).downAt = some t) (hdue : t + 2000 ≤ s.ao.tb)
    (hlink : s.hasLink p = false) (hen : s.flag (portDie p) (Reg.MAC_CFG_EN.plus (portOff p)) = true) :
    (s.pair.head ∈ [HeadState.twin, .solo] → s.pair.faulted = none →
      exec (.frontPortLinkFault p true) s = .next (s.fenceForFault 0x03).settle) ∧
    (s.pair.head ∈ [HeadState.fenced, .thermalHold] → exec (.frontPortLinkFault p true) s = .next (s.event (portDie p) 0x10 0 noInst)) := by
  have hgo : ¬(!(true && (s.fport p).downAt.any (fun t => decide (t + 2000 ≤ s.ao.tb)) && !s.hasLink p &&
      s.flag (portDie p) (Reg.MAC_CFG_EN.plus (portOff p)))) = true := by simp [hdown, hdue, hlink, hen]
  refine ⟨fun hh hf => (if_neg hgo).trans ?_, fun hh => (if_neg hgo).trans ?_⟩
  · rcases List.mem_pair.mp hh with hh | hh <;> simp [hh, hf]
  · rcases List.mem_pair.mp hh with hh | hh <;> simp [hh]

/-! ## Starts of the head (R113) -/

/-- A head that enters FAWN notes when; memory and journal halves stay. -/
theorem State.enter_fawn_keeps (s : State) : (s.enter .fawn).pair = { s.pair with head := .fawn, fawnAt := s.ao.tb } ∧
    (s.enter .fawn).mem = s.mem ∧ (s.enter .fawn).jrnl = s.jrnl := by
  unfold State.enter
  dsimp only
  generalize hu : State.mk .. = u
  obtain ⟨r, corr, acc, e⟩ := u.selectSource_only
  rw [e]
  subst hu
  split
  · exact ⟨State.event_pair .., State.event_mem .., State.event_jrnl ..⟩
  · exact ⟨rfl, rfl, rfl⟩

/-- Settles O35: a clause of the command's guard for each, and for the faults the lemma by the state of the head. -/
theorem takeoverHandoverStartAndFaults : Obligations.TakeoverHandoverStartAndFaults := by
  unfold Obligations.TakeoverHandoverStartAndFaults
  refine ⟨fun s val m hgo hp hh => if_pos (by simp [hgo, hp, hh]), fun s val hreq hh hf hg => if_pos (by simp [hreq, hh, hf, hg]),
    fun s ports shards hg hno => ⟨fun hne => ?full, fun hnil => ?handback⟩,
    fun s qpn t q hq hat hok hdue => ⟨fun hsent hless => ?repeats, fun hmost => ?fails⟩, fun s hh hup hen hc hwait => ?solo,
    fun s hh hp hcomp hup hc hrec hrej htime => ?pair,
    fun s m hh hrec hcomp hup hrej htime => execRejoinSync_joins hh hrec hcomp hup hrej htime m, fun s m hh => if_neg (by simp [hh]),
    fun s v c cause die blk hc => ?fault, fun s p t hdown hdue hlink hen => ?port, fun s hph hh htrip => ?boot,
    fun s hd hleft hck hs => if_neg (by simp [hd, hleft, hck, hs])⟩
  case full => exact (execHandoverAcked_acked hg hno).trans (if_pos (by simpa using hne))
  case handback => exact (execHandoverAcked_acked hg hno).trans (if_neg (by simp [hnil]))
  case repeats => exact (execProbeTimeout_due hq hat hok hdue hsent).trans (if_neg (Nat.not_le_of_lt hless))
  case fails => exact (execProbeTimeout_due hq hat hok hdue (by omega)).trans (if_pos hmost)
  case solo => exact if_pos (by simpa [hh, hup, hen, hc] using hwait)
  case pair =>
    intro v
    have hside : v.side = s.side := by
      simp only [v]
      split <;> rfl
    have hv : (if (s.leads || s.time.aligned) = true then s else s.alignTime) = v := by simp only [v, Bool.or_eq_true]
    refine (if_pos (by simpa [hh, hp, hcomp, hup, hc, hrec, hrej] using htime)).trans ?_
    rw [hv, hside]
  case fault =>
    obtain ⟨hhead, hexec⟩ : v.pair.head = s.pair.head ∧ exec c s = .next (v.raiseFault cause die blk).settle := by
      rcases hc with ⟨a, rfl, rfl, rfl, rfl, rfl⟩ | ⟨rfl, rfl, rfl, rfl, rfl⟩
      · exact ⟨by simp, rfl⟩
      · exact ⟨rfl, rfl⟩
    obtain ⟨htwin, hsolo, hstart, hfenced, hoff⟩ := v.raiseFault_by_head cause die blk
    rw [hhead] at htwin hsolo hstart hfenced hoff
    rw [hexec]
    exact ⟨fun h => by rw [htwin h], fun h => by rw [hsolo h], fun h => by rw [hstart h], fun h => by rw [hfenced h], fun h => by rw [hoff h]⟩
  case port =>
    obtain ⟨hserves, hfenced⟩ := execFrontPortLinkFault_due hdown hdue hlink hen
    refine ⟨fun hh hf => ?_, fun hh hf => ?_, hfenced⟩
    · rw [hserves (by simp [hh]) hf, State.fenceForFault, if_neg (by simp [hh])]
    · rw [hserves (by simp [hh]) hf, State.fenceForFault, if_pos hh]
  case boot => exact ⟨_, if_pos (by simp [hph, hh, htrip]), s.enter_fawn_keeps⟩

end Sys2Proof.Machine
end

section
/-! What each message of the partner does when it takes effect (R116, R127, R130, R138 to R142, R144, R148, R158, R159, R206, R270, R442, R719). -/

namespace Sys2Proof.Machine

open Sys2Proof

/-! ## HEARTBEAT (R116, R127, R130) -/

/-- The pair's state once a heartbeat is heard, with the moment to which it renews the lease. -/
def PairU.hears (p : PairU) (h : Heartbeat) (now leaseAt : Nat) : PairU :=
  { p with compatible := true, partner := some h.state, rxCount := h.count, rxAt := some now, rxSent := h.sent, leaseAt := leaseAt }

/-- From `s` to `t` a heartbeat has been heard, and the registers show it. -/
def HeardBeat (h : Heartbeat) (s t : State) : Prop := ∃ r a, t = { s with regs := r, pair := s.pair.hears h s.ao.tb a }

section
variable {s t : State} {h : Heartbeat}

theorem HeardBeat.setFld (hb : HeardBeat h s t) (die : Nat) (f : Fld) (v : Nat) : HeardBeat h s (t.setFld die f v) := by
  obtain ⟨r, a, rfl⟩ := hb
  exact ⟨_, a, rfl⟩

theorem HeardBeat.maxFld (hb : HeardBeat h s t) (die : Nat) (f : Fld) (v : Nat) : HeardBeat h s (t.maxFld die f v) := by
  unfold State.maxFld
  split
  · exact hb.setFld ..
  · exact hb

theorem HeardBeat.lease (hb : HeardBeat h s t) (now : Nat) : HeardBeat h s { t with pair := { t.pair with leaseAt := now } } := by
  obtain ⟨r, a, rfl⟩ := hb
  exact ⟨r, now, rfl⟩

theorem HeardBeat.head (hb : HeardBeat h s t) : t.pair.head = s.pair.head := by
  obtain ⟨r, a, rfl⟩ := hb
  rfl

theorem HeardBeat.rejoin (hb : HeardBeat h s t) : t.pair.rejoin = s.pair.rejoin := by
  obtain ⟨r, a, rfl⟩ := hb
  rfl

/-- The heartbeat of a compatible partner is heard; a joiner that waits for the partner's TWIN then enters TWIN itself. -/
theorem State.onHeartbeat_heard {g : Nat} (hg : (s.group g).deaf = false) (hv : h.variant = s.variant) (hs : h.side ≠ s.side)
    (hf : h.formatVer = s.fld dieB Reg.BOOT_FORMAT_FORMAT) : ∃ t, HeardBeat h s t ∧ s.onHeartbeat g h =
      if (s.pair.head == .fawn && s.pair.rejoin == 100 && h.state == .twin) = true then
        { t.enterTwin false with pair := { (t.enterTwin false).pair with rejoin := 0 } }
      else t := by
  unfold State.onHeartbeat
  extract_lets ok _ _ _ now _ s1 s2 s3 serving s4
  have hok : ok = true := by simp [ok, hv, hs, hf]
  have h1 : HeardBeat h s s1 := ⟨_, _, rfl⟩
  have h2 : HeardBeat h s s2 := (h1.setFld ..).setFld ..
  have h3 : HeardBeat h s s3 := by
    simp only [s3]
    split
    · have hrtt := (h2.setFld (dieF g) Reg.CHL_RTT_LAST_NS (now - ‹Nat›)).maxFld (dieF g) Reg.CHL_RTT_MAX_NS (now - ‹Nat›)
      split
      · exact hrtt.lease now
      · exact hrtt
    · exact h2
  have h4 : HeardBeat h s s4 := by
    simp only [s4]
    split
    · exact h3.setFld ..
    · exact h3
  refine ⟨s4, h4, ?_⟩
  rw [if_neg (by simp [hg]), if_neg (by simp [hok]), h4.head, h4.rejoin]

end

/-! ## TIME (R40, R45, R715) -/

/-- What a sample of the partner's time leaves alone: what the exchange has noted of itself, and the units that a sample does not reach. -/
def State.besideSources (s : State) : Nat × Bool × Bool × Bool × PairU × SMap Byte × Journal × Rdma × List Out :=
  (s.time.lastExch, s.time.partnerHasSource, s.time.partnerStale, s.time.measured, s.pair, s.mem, s.jrnl, s.rdma, s.out)

theorem State.besideSources_setFlag (s : State) (die : Nat) (f : Fld) (b : Bool) : (s.setFlag die f b).besideSources = s.besideSources := by
  obtain ⟨r, e⟩ := State.setFlag_only (s := s) ⟨_, rfl⟩ die f b
  rw [e]
  rfl

theorem State.besideSources_selectSource (s : State) : s.selectSource.besideSources = s.besideSources := by
  obtain ⟨r, corr, acc, e⟩ := s.selectSource_only
  rw [e]
  rfl

theorem State.besideSources_heard (s : State) (x : TimeSrc) (off : Int) : (s.heard .partner x off).besideSources = s.besideSources := by
  obtain ⟨r, corr, acc, e⟩ := s.heard_only .partner x off
  rw [e]
  rfl

theorem State.besideSources_discipline (s : State) (r : TimeRef) (off : Int) : (s.discipline r off).besideSources = s.besideSources := by
  unfold State.discipline
  split <;> rfl

theorem State.besideSources_event (s : State) (die blk row inst : Nat) : (s.event die blk row inst).besideSources = s.besideSources :=
  EventOnly.same State.besideSources (fun _ _ _ _ _ _ _ => rfl) (s.event_eventOnly die blk row inst)

/-- A sample of the partner's time never steps the time base (R38): sources, correction, registers and events are all it changes. -/
theorem State.besideSources_sample (s : State) (off : Int) : (s.sample .partner off).besideSources = s.besideSources := by
  unfold State.sample
  extract_lets x far t _ _ n new u
  split
  · rfl
  split
  · rw [if_neg (by simp), if_pos rfl]
    exact s.besideSources_heard ..
  split
  · exact (State.besideSources_event ..).trans ((State.besideSources_setFlag ..).trans (s.besideSources_heard ..))
  · refine (State.besideSources_discipline ..).trans ((State.besideSources_heard ..).trans ?_)
    simp only [u]
    split
    · exact s.besideSources_event ..
    · rfl

/-- The state in which a TIME exchange is noted, with its measurement in TBS_PARTNER. -/
def State.exchanged (s : State) (off : Int) (rtt : Nat) (src : Bool) : State :=
  ((s.setFld dieB Reg.TBS_PARTNER_OFFSET (ofInt 32 off)).setFld dieB Reg.TBS_PARTNER_ROUND_TRIP rtt).noteExchange rtt src

theorem State.besideSources_exchanged (s : State) (off : Int) (rtt : Nat) (src : Bool) : (s.exchanged off rtt src).besideSources =
    (s.ao.tb, src, false, s.time.measured || decide (rtt ≤ 2000), s.pair, s.mem, s.jrnl, s.rdma, s.out) := by
  obtain ⟨r, e⟩ : ∃ r, (s.setFld dieB Reg.TBS_PARTNER_OFFSET (ofInt 32 off)).setFld dieB Reg.TBS_PARTNER_ROUND_TRIP rtt = { s with regs := r } :=
    State.setFld_only (State.setFld_only ⟨_, rfl⟩ _ _ _) _ _ _
  rw [State.exchanged, e]
  rfl

/-- After the exchange is noted, leadership, the choice of a source and the sample follow. -/
theorem State.besideSources_timeExchange (s : State) (off : Int) (rtt : Nat) (src : Bool) :
    (s.timeExchange off rtt src).besideSources = (s.exchanged off rtt src).besideSources := by
  unfold State.timeExchange
  extract_lets s1 s2 s3 s4 s5
  have h4 : s4.besideSources = s3.besideSources := by
    simp only [s4]
    split
    · exact s3.besideSources_setFlag ..
    · rfl
  have h5 : s5.besideSources = s3.besideSources := s4.besideSources_selectSource.trans h4
  split
  · exact (s5.besideSources_setFlag ..).trans h5
  split
  · exact (s5.besideSources_sample off).trans h5
  · exact h5

/-! ## CAPSULE, LEDGER and JWRITE (R140 to R142, R145) -/

/-- A capsule is stored under its tag. -/
theorem State.onCapsule_stored (s : State) (c : MirrorCap) : (s.onCapsule c).pair.capsules.find? c.tag.num = some c := by
  unfold State.onCapsule
  extract_lets same gone _ p1 p2 key p3 _ p4 next
  have h3 : p3.capsules = p2.capsules := by
    simp only [p3]
    split <;> rfl
  have h4 : p4.capsules = p3.capsules := by
    simp only [p4]
    split
    · rfl
    split
    · rfl
    split
    case h_7 => split <;> rfl
    all_goals rfl
  show p4.capsules.find? c.tag.num = some c
  rw [h4, h3]
  exact SMap.find?_insert ..

/-- A ledger is stored under its tag and phase. -/
theorem State.onLedger_stored (s : State) (l : LedgerRec) : (s.onLedger l).pair.ledger.find? (ledgerKey l.tag l.phase) = some l := by
  unfold State.onLedger
  extract_lets _ p1 p2 next
  have h2 : p2.ledger = p1.ledger := by
    simp only [p2]
    split <;> rfl
  show p2.ledger.find? _ = some l
  rw [h2]
  exact SMap.find?_insert ..

/-- A record of the partner's stands in the journal half of its side, and nothing else has changed. -/
theorem State.putRec_stored (s : State) (off : Nat) (r : JRec) :
    ((s.putRec off r).jent r.side r.seq).map (fun e => (e.r, e.off)) = some (r, off) ∧ s.putRec off r = { s with jrnl := (s.putRec off r).jrnl } := by
  unfold State.putRec State.setJent
  by_cases hside : r.side = s.side
  · simp only [if_pos hside, State.jent, SMap.find?_insert]
    exact ⟨rfl, trivial⟩
  · simp only [if_neg hside, State.jent, SMap.find?_insert]
    exact ⟨rfl, trivial⟩

/-! ## LOCK grants (R138, R139) -/

/-- The state in which the partner's grant is noted: the entry granted, and the request no longer remote. -/
def State.remoteGranted (s : State) (e : LockEnt) (tag : Nat) (full : Bool) : State :=
  { s with host := { s.host with locks := s.host.locks.map (fun x => if x = e then e.asGranted (s.host.lockOrder + 1) else x),
                                 lockOrder := s.host.lockOrder + 1, ownerFull := full, remote := s.host.remote.erase tag,
                                 unsettled := s.host.unsettled.filter (· != tag) } }

/-- A grant of the partner's marks the entry and measures the request, before the locks are counted. -/
theorem State.onLockGrant_listed {s : State} {tag shard : Nat} {e : LockEnt}
    (he : (s.host.locks.find? fun x => x.tag == tag && x.shard == shard) = some e) (full : Bool) :
    ∃ r, s.onLockGrant tag shard full = State.countLocks { s.remoteGranted e tag full with regs := r } := by
  have hmap : (s.host.locks.map fun x => if x = e then
      { x with granted := true, withdrawn := false, order := if x.order = 0 then s.host.lockOrder + 1 else x.order } else x) =
      s.host.locks.map fun x => if x = e then e.asGranted (s.host.lockOrder + 1) else x :=
    List.map_congr_left fun x _ => by
      split
      next h => rw [h]; rfl
      · rfl
  unfold State.onLockGrant
  simp only [he, hmap]
  split
  next t ht =>
    obtain ⟨r, hr⟩ := State.maxFld_only (State.setFld_only (s := { s with host := { s.host with
        locks := s.host.locks.map (fun x => if x = e then e.asGranted (s.host.lockOrder + 1) else x),
        lockOrder := s.host.lockOrder + 1, ownerFull := full } }) ⟨_, rfl⟩ (dieF e.fdie) Reg.RLK_REMOTE_LAT_LAST_NS (s.since t))
      (dieF e.fdie) Reg.RLK_REMOTE_LAT_MAX_NS (s.since t)
    exact ⟨r, congrArg (fun u : State => State.countLocks { u with host := { u.host with
      remote := u.host.remote.erase tag, unsettled := u.host.unsettled.filter (· != tag) } }) hr⟩
  next => exact ⟨s.regs, rfl⟩

/-! ## MAPUPD (R138, R270, R308) -/

theorem SMap.has_of_any {V : Type} {m : SMap V} {a : Nat} {p : V → Bool} (h : (m.find? a).any p = true) : m.has a = true := by
  unfold SMap.has
  cases hf : m.find? a with
  | none => rw [hf] at h; exact absurd h Bool.false_ne_true
  | some => rfl

/-- A change whose pages are valid in the cache asks for none. -/
theorem State.askPages_of_ready {s : State} {c : Change} (h : s.changeReady c = true) : s.askPages c = s := by
  unfold State.askPages
  refine List.foldlRecOn (motive := fun t => t = s) _ _ rfl fun t ht p hp => ?_
  subst ht
  have hpage := List.all_eq_true.mp h p hp
  refine if_pos ?_
  rcases Bool.or_eq_true_iff.mp (Bool.and_eq_true_iff.mp hpage).2 with hv | hbad
  · have hin : t.inCache p = true := by rw [State.inCache, SMap.has_of_any hv, Bool.true_or]
    simp [hin]
  · simp [-List.contains_eq_mem, hbad]

/-- The only waiting change takes effect where its pages are there. -/
theorem State.runChanges_only {s : State} {c : Change} (ht : s.ftl.todo = [])
    (h : State.changeReady { s with ftl := { s.ftl with todo := [c] } } c = true) :
    State.runChanges { s with ftl := { s.ftl with todo := [c] } } 1 = s.applyChange c := by
  have hself : { s with ftl := { s.ftl with todo := [] } } = s := by rw [← ht]
  unfold State.runChanges
  dsimp only
  rw [State.askPages_of_ready h, if_pos h]
  show State.applyChange { s with ftl := { s.ftl with todo := [] } } c = _
  rw [hself]

section
variable {s : State} {g seq lsn : Nat}

/-- A change of the partner's whose pages are there takes effect as it is queued. -/
theorem State.queueChange_ready {m : MapChange} (ht : s.ftl.todo = [])
    (h : State.changeReady { s with ftl := { s.ftl with todo := [.upd g seq m lsn] } } (.upd g seq m lsn) = true) :
    State.runChanges { s with ftl := { s.ftl with todo := s.ftl.todo ++ [.upd g seq m lsn] } } (s.ftl.todo ++ [Change.upd g seq m lsn]).length =
      s.applyUpd m lsn := by
  rw [ht]
  exact State.runChanges_only ht h

/-- An item that breaks no row of R206 and removes no chunk takes effect once its pages are there. -/
theorem State.onMapupd_item {pid txn side l : Nat} {it : Item} {rec : Option (Nat × Nat)} (ht : s.ftl.todo = [])
    (hgood : s.itemBad pid it = none) (hkeeps : ∀ ref n fp, it ≠ .fpdel ref n fp)
    (h : State.changeReady { s with ftl := { s.ftl with todo := [.upd g seq (.item pid it txn side l rec) lsn] } }
      (.upd g seq (.item pid it txn side l rec) lsn) = true) :
    s.onMapupd g seq (.item pid it txn side l rec) lsn = s.applyUpd (.item pid it txn side l rec) lsn := by
  unfold State.onMapupd
  simp only [hgood]
  cases it with
  | fpdel ref n fp => exact absurd rfl (hkeeps ref n fp)
  | _ => exact State.queueChange_ready ht h

end

/-- A log record of the partner's takes effect as one of this head's does; only the end of a Sanitize is logged besides. -/
theorem State.applyUpd_log {b : LogBody} (hb : ∀ failed, b ≠ .change (.sanEnd failed)) (s : State) (lsn side l : Nat) :
    s.applyUpd (.log b side l) lsn = State.applyBody { s with ftl := { s.ftl with partnerLsn := max s.ftl.partnerLsn lsn } } b side l := by
  unfold State.applyUpd
  -- by `hb` the record is not the one that the match looks for
  simp only [Bool.and_false, Bool.false_eq_true, if_false]

/-! ## All messages -/

/-- Settles O32: each message by the lemma of its unit; a claim's beginning is `MayClaim.startClaim`. -/
theorem linkMessagesHaveTheirEffects : Obligations.LinkMessagesHaveTheirEffects := by
  unfold Obligations.LinkMessagesHaveTheirEffects
  refine ⟨fun s g seq tag h hg hv hs hf => ⟨fun hstays => ?beat, fun hh hrej htwin => ?joins⟩, fun s g seq tag rtt off src => ?time,
    fun s g seq tag cause htwin hf hc he => ⟨s.ao.tb - Config.freeNat s.free % 801, Nat.sub_le .., ?notice⟩,
    fun s g seq tag ports shards htwin hf hc he => ?handover, fun s g seq tag gen owners => rfl,
    fun s g seq tag c => ⟨s.onCapsule_stored c, rfl, fun hn => ?psn⟩, fun s g seq tag l => ⟨s.onLedger_stored l, rfl⟩,
    fun s g seq tag off r hfits => ?jwrite, fun s g seq tag side upto => rfl, fun s g seq tag shard full e he => ?grant,
    fun s g seq tag lsn m ht hm hready => ?mapupd, fun s lsn side l b hb => State.applyUpd_log hb s lsn side l,
    fun s g seq tag jseq lsn x l hh => if_neg (not_not_intro hh), fun s g seq tag e k u => ⟨rfl, rfl⟩⟩
  case beat =>
    obtain ⟨t, ⟨r, a, rfl⟩, e⟩ := State.onHeartbeat_heard hg hv hs hf
    have hno : ¬(s.pair.head == .fawn && s.pair.rejoin == 100 && h.state == .twin) = true := by
      simp only [Bool.and_eq_true, beq_iff_eq]
      rintro ⟨⟨-, hrej⟩, htwin⟩
      exact hstays.elim (absurd hrej) (absurd htwin)
    rw [if_neg hno] at e
    show (s.onHeartbeat g h).pair.partner = _ ∧ _
    rw [State.applyMsg, e]
    exact ⟨rfl, rfl, rfl, rfl, rfl, rfl⟩
  case joins =>
    obtain ⟨t, ⟨r, a, ht⟩, e⟩ := State.onHeartbeat_heard hg hv hs hf
    rw [if_pos (by simp [hh, hrej, htwin])] at e
    exact ⟨t, by rw [ht, ← htwin]; rfl, by rw [ht]; rfl, e⟩
  case time =>
    have h := (s.besideSources_timeExchange off rtt src).trans (s.besideSources_exchanged off rtt src)
    simp only [State.besideSources, Prod.mk.injEq] at h
    obtain ⟨hlast, hsrc, hstale, hmeasured, hpair, hmem, hjrnl, hrdma, hout⟩ := h
    exact ⟨hlast, hsrc, hstale, fun hrtt => hmeasured.trans (by simp [hrtt]), hpair, hmem, hjrnl, hrdma, hout⟩
  case notice =>
    have hmay : MayClaim { s with free := s.free + 1 } := ⟨htwin, hf, hc, he⟩
    exact (congrArg (fun t : State => t.pair.claim) (hmay.claimTakeover ..)).trans (hmay.claim_startClaim ..)
  case handover =>
    have hmay : MayClaim s := ⟨htwin, hf, hc, he⟩
    have hserves : (s.pair.head == .twin && s.pair.faulted.isNone && s.pair.claim.isNone) = true := by simp [htwin, hf, hc]
    exact (congrArg (fun t : State => t.pair.claim) (if_pos hserves)).trans (hmay.claim_startClaim ..)
  case psn =>
    have hself : ∀ m, m = s.rdma.shadows → { s.rdma with shadows := m } = s.rdma := by
      rintro _ rfl
      rfl
    exact hself _ (if_pos hn)
  case jwrite =>
    have hin : ¬s.halfSize < off + r.size := Nat.not_lt_of_le hfits
    have hwrite : s.applyMsg g seq tag (.jwrite off r true) =
        if (!r.lengthOk) = true then s.event (dieC (s.tileOf r.shard)) 0x31 4 noInst else s.putRec off r := (if_neg hin).trans rfl
    refine ⟨fun hlen => ?_, fun hlen => ?_, (if_neg hin).trans rfl⟩
    · rw [hwrite, if_neg (by simp [hlen])]
      exact s.putRec_stored off r
    · rw [hwrite, if_pos (by simp [hlen])]
  case grant =>
    intro n t
    obtain ⟨r, hr⟩ := State.onLockGrant_listed he full
    obtain ⟨r', hcount⟩ := State.countLocks_only { s.remoteGranted e tag full with regs := r }
    have hmarks := State.noteWaits_marksOnly { s.remoteGranted e tag full with regs := r }
    have ht : t = { State.noteWaits { s.remoteGranted e tag full with regs := r } with regs := r' } := hr.trans hcount
    obtain ⟨⟨l, m, hnote⟩, hlocks, -⟩ := hmarks
    rw [ht]
    refine ⟨hlocks.trans ?_, by rw [hnote]; rfl, by rw [hnote]; rfl, by rw [hnote]; rfl, by rw [hnote]; rfl⟩
    show ((s.host.locks.map _).map LockEnt.unmarked) = _
    rw [List.map_map]
    rfl
  case mapupd =>
    cases m with
    | log => exact State.queueChange_ready ht hready
    | item => exact State.onMapupd_item ht hm.1 hm.2 hready
    | pageNotice | readPoint => exact hm.elim

end Sys2Proof.Machine
end

section
/-! Destage of records and chunks (R178 to R207, R221, R244): what a record of the log leaves alone, key slots, lanes, chunks being freed. -/

namespace Sys2Proof.Machine

open Sys2Proof

/-! ## A record of the log (R293 to R297) -/

/-- What appending to the log changes: registers, memory and rings by the exceptions that a lack of space posts, media and outputs by the page that
is programmed, and flash translation. -/
def LogOnly (s t : State) : Prop :=
  ∃ r m h d f o, t = { s with regs := r, mem := m, hrd := h, med := d, ftl := f, out := o }

theorem LogOnly.refl (s : State) : LogOnly s s := ⟨_, _, _, _, _, _, rfl⟩

theorem LogOnly.trans {s t u : State} (h : LogOnly s t) (k : LogOnly t u) : LogOnly s u := by
  obtain ⟨_, _, _, _, _, _, rfl⟩ := h
  obtain ⟨_, _, _, _, _, _, rfl⟩ := k
  exact ⟨_, _, _, _, _, _, rfl⟩

theorem RingOnly.logOnly {s t : State} (h : RingOnly s t) : LogOnly s t := by
  obtain ⟨_, _, _, rfl⟩ := h
  exact ⟨_, _, _, _, _, _, rfl⟩

theorem MedOnly.logOnly {s t : State} (h : MedOnly s t) : LogOnly s t := by
  obtain ⟨_, _, rfl⟩ := h
  exact ⟨_, _, _, _, _, _, rfl⟩

theorem LogOnly.ite {s t u : State} {c : Prop} [Decidable c] (h : LogOnly s t) (k : LogOnly s u) : LogOnly s (if c then t else u) := by
  split <;> assumption

theorem State.noteSuspend_logOnly (s : State) (o : MedOp) : LogOnly s (s.noteSuspend o) := by
  unfold State.noteSuspend
  split
  case h_3 => exact .refl s
  all_goals exact .ite ⟨_, _, _, _, _, _, rfl⟩ (.refl s)

theorem State.pump_logOnly (s : State) (fuel : Nat) : LogOnly s (s.pump fuel) := by
  induction fuel generalizing s with
  | zero => exact .refl s
  | succ fuel ih =>
    unfold State.pump
    extract_lets ready go
    have hgo : ∀ o turn, LogOnly s (go s o turn) := fun o turn => by
      have hqueue : LogOnly s { s with med := { s.med with queue := s.med.queue.erase o, turn := turn } } := ⟨_, _, _, _, _, _, rfl⟩
      exact ((hqueue.trans (State.noteSuspend_logOnly ..)).trans (State.sendOp_medOnly ..).logOnly).trans (ih _)
    split
    · exact hgo _ _
    · split
      · split
        · exact hgo _ _
        · exact .refl s
      · exact .refl s

theorem State.issue_logOnly (s : State) (o : MedOp) : LogOnly s (s.issue o) := by
  have hqueue : LogOnly s { s with med := { s.med with queue := s.med.queue ++ [o] } } := ⟨_, _, _, _, _, _, rfl⟩
  exact .ite (.refl s) (hqueue.trans (State.pump_logOnly ..))

theorem State.updateFree_logOnly (s : State) : LogOnly s s.updateFree := by
  unfold State.updateFree
  extract_lets F d lvl old s1 ftl s2 s3
  have h1 : LogOnly s s1 := ((s.setFld_ringOnly ..).trans (State.setFld_ringOnly ..)).logOnly
  have h2 : LogOnly s s2 := h1.trans ⟨_, _, _, _, _, _, rfl⟩
  have h3 : LogOnly s s3 := .ite (h2.trans (State.exc_ringOnly ..).logOnly) h2
  exact .ite (h3.trans (State.exc_ringOnly ..).logOnly) h3

theorem State.takeBlocks_logOnly (s : State) (l : List Nat) : LogOnly s (s.takeBlocks l) :=
  LogOnly.trans ⟨_, _, _, _, _, _, rfl⟩ (State.updateFree_logOnly _)

theorem State.addRec_logOnly (s : State) (r : LogRec) : LogOnly s (s.addRec r) := ⟨_, _, _, _, _, _, rfl⟩

theorem State.sendLogPage_logOnly (s : State) (n : Nat) (pg : LogPage) : LogOnly s (s.sendLogPage n pg) :=
  List.foldlRecOn (motive := LogOnly s) _ _ (.refl s) fun _ ht _ _ => ht.trans (State.issue_logOnly ..)

theorem State.programLogPage_logOnly (s : State) : LogOnly s s.programLogPage := by
  unfold State.programLogPage
  extract_lets first l start n s1 l1 pages last turn s2 left s3 pg a ftl s4 s5 ftl' s6
  have hstart : ∀ (t : State) (l : List Nat) (k : Nat), LogOnly t (start t l k) := fun t l k =>
    (t.takeBlocks_logOnly l).trans ⟨_, _, _, _, _, _, rfl⟩
  have h1 : LogOnly s s1 := .ite (hstart ..) (.refl s)
  have h2 : LogOnly s s2 := .ite (h1.trans (State.addRec_logOnly ..)) h1
  have h3 : LogOnly s s3 := .ite (h2.trans (State.addRec_logOnly ..)) h2
  have h4 : LogOnly s s4 := h3.trans ⟨_, _, _, _, _, _, rfl⟩
  have h5 : LogOnly s s5 := h4.trans (State.sendLogPage_logOnly ..)
  have h6 : LogOnly s s6 := h5.trans ⟨_, _, _, _, _, _, rfl⟩
  exact .ite (.refl s) (.ite h1 (.ite (h6.trans (hstart ..)) h5))

theorem State.logRec_logOnly (s : State) (txn : Nat) (fin : Bool) (body : LogBody) : LogOnly s (s.logRec txn fin body) :=
  (LogOnly.ite s.programLogPage_logOnly (.refl s)).trans (State.addRec_logOnly ..)

theorem State.logTxn_logOnly (s : State) (jside : Option Nat) (shard jseq : Nat) (items : List Item) :
    LogOnly s (s.logTxn jside shard jseq items).1 :=
  List.foldlRecOn (motive := LogOnly s) _ _ ⟨_, _, _, _, _, _, rfl⟩ fun _ ht _ _ => ht.trans (State.logRec_logOnly ..)

/-! ## Chunks being freed (R195 to R199) -/

/-- A removal from the filter changes the search arrays alone. -/
theorem State.filterDelete_only (s : State) (domain : Nat) (fp : Bytes) : ∃ c, s.filterDelete domain fp = { s with csa := c } := by
  unfold State.filterDelete
  extract_lets
  split <;> exact ⟨_, rfl⟩

/-- The state after DYING is logged and the index and filter entries of a chunk go (R198 step 1). -/
def State.chunkRemoved (s : State) (ref : Nat) : State :=
  let t := (s.indexOf ref).foldl (fun s e => s.filterDelete (refDomain ref) e.fp) (s.log (.state ref 2))
  if (s.indexOf ref).isEmpty then t else (t.logTxn none 0 0 ((s.indexOf ref).map fun e => .fpdel ref e.len e.fp)).1

/-- Removing a chunk's entries takes no time and leaves the head's state with its partner. -/
theorem State.chunkRemoved_ao_pair (s : State) (ref : Nat) : (s.chunkRemoved ref).ao = s.ao ∧ (s.chunkRemoved ref).pair = s.pair := by
  have hlog : ∀ {t u : State}, LogOnly t u → t.ao = s.ao ∧ t.pair = s.pair → u.ao = s.ao ∧ u.pair = s.pair := by
    rintro t u ⟨_, _, _, _, _, _, rfl⟩ ht
    exact ht
  have hfilter := List.foldlRecOn (motive := fun t : State => t.ao = s.ao ∧ t.pair = s.pair) (s.indexOf ref)
    (fun s e => s.filterDelete (refDomain ref) e.fp) (hlog (s.logRec_logOnly 0 true (.state ref 2)) ⟨rfl, rfl⟩) fun t ht e _ => by
      obtain ⟨c, hc⟩ := t.filterDelete_only (refDomain ref) e.fp
      rw [hc]
      exact ht
  unfold State.chunkRemoved
  extract_lets t
  split
  · exact hfilter
  · exact hlog (State.logTxn_logOnly ..) hfilter

/-- A chunk without references that nothing uses begins its freeing. -/
theorem execChunkFreeStart_unreferenced {s : State} {ref : Nat} (hnum : refNum ref ≠ 0) (hlive : (s.chunk ref).state = 1)
    (hsum : (s.chunk ref).sum = 0) (hfrees : s.frees ref = true) (hnew : s.dst.freeing.has ref = false) (huse : s.chunkInUse ref = false) :
    let t := s.chunkRemoved ref
    let f : Freeing := { since := t.ao.tb, dying := false, acked := t.pair.head == .solo, fp := (s.indexOf ref).head?.map FpEnt.fp, data := none }
    exec (.chunkFreeStart ref) s = .next { t with dst := { t.dst with freeing := t.dst.freeing.insert ref f } } :=
  if_neg (by simp [hnum, hlive, hsum, hfrees, hnew, huse])

section
variable {s : State} {ref : Nat} {f : Freeing}

/-- A DYING chunk without references is freed once its removal is acknowledged, no read point is older and nothing uses it. -/
theorem execChunkFreeFinish_unreferenced (hf : s.dst.freeing.find? ref = some f) (hdying : f.dying = true) (hsum : (s.chunk ref).sum = 0) :
    let u := s.log (.state ref 3)
    exec (.chunkFreeFinish ref) s =
      if f.acked ∧ ¬ s.pointBefore f.since ∧ ¬ s.chunkInUse ref then
        .next (State.settle { u with dst := { u.dst with freeing := u.dst.freeing.erase ref } })
      else .next s := by
  show execChunkFreeFinish ref s = _
  simp only [execChunkFreeFinish, hf, hdying, hsum]
  rfl

/-- A DYING chunk that gained references, and whose fingerprint is known, lives again. -/
theorem execChunkFreeFinish_referenced (hf : s.dst.freeing.find? ref = some f) (hdying : f.dying = true) (hsum : (s.chunk ref).sum ≠ 0)
    {fp : Bytes} (hfp : f.fp = some fp) : exec (.chunkFreeFinish ref) s = .next (s.restoreChunk ref fp).settle := by
  show execChunkFreeFinish ref s = _
  simp [execChunkFreeFinish, hf, hdying, hsum, hfp]

end

/-! ## Records and chunks (R178, R187 to R193, R485) -/

/-- A block record of this head's shard that is complete, in no transaction and not yet in destage begins its destage. -/
theorem execJournalDestage_record {s : State} {side seq : Nat} {e : JEnt} (hjob : s.jobOf side seq = none) (hent : s.jent side seq = some e)
    (hmay : s.mayTransmit = true) (hen : s.flag (dieM 0) Reg.FTL_CTRL_EN = true) (hnew : e.destaging = false) (htxn : e.txn = 0)
    (hblock : e.r.kv = false) (hwhole : (s.jent e.r.side e.r.seq).any (fun d => side != s.side || s.recComplete d) = true)
    (hown : s.owner e.r.shard = s.side) (fix : List Item) (root : Option (Nat × Nat)) :
    exec (.journalDestage side seq fix root) s = .next (s.beginDestage e).settle := by
  obtain ⟨d, hd, hdone⟩ := (Option.any_eq_true ..).1 hwhole
  show execJournalDestage side seq fix root s = _
  simp only [execJournalDestage, hjob, hent, hblock]
  exact if_pos (by simp [hmay, hen, hnew, htxn, hown, hd, hdone])

/-- A record in destage logs its transaction, where firmware brings no page image. -/
theorem execJournalDestage_job {s : State} {side seq j : Nat} {x : Job} (hjob : s.jobOf side seq = some (j, x)) (root : Option (Nat × Nat)) :
    exec (.journalDestage side seq [] root) s = .next (s.tryTxn j).settle := by
  show execJournalDestage side seq [] root s = _
  simp [execJournalDestage, hjob]

/-- The chunk that a fingerprint lane holds gets HMAC under its domain's slot, and goes on as a hashed chunk of that lane's tile. -/
theorem execFingerprintDone_held {s v : State} {job n : Nat} {r : LaneRun} {x : Job} {b icv ocv : Bytes}
    (hr : s.startLanes.runOf .fpl (.chunk job n) = some r) (hx : s.startLanes.job job = some x)
    (hc : x.chunkAt n = some { bytes := b, st := .hash }) (hv : s.startLanes.useFp r.tile x.domain = some (icv, ocv, v)) :
    exec (.fingerprintDone job n) s =
      .next (((v.leaveLane r).setJob job { x with tile := r.tile }).hashed job n { x with tile := r.tile } r (hmacFrom (icv, ocv) b)).settle := by
  show execFingerprintDone job n s = _
  simp only [execFingerprintDone, hr, hx, hc, hv]

section
variable {s : State} {job n : Nat} {x : Job} {r : LaneRun} {fp : Bytes}

theorem State.hashed_unfiltered (hlocal : x.repl = none) (hf : r.filter = false) : s.hashed job n x r fp = s.freshChunk job n x fp := by
  simp [State.hashed, hlocal, hf]

theorem State.hashed_filtered (hlocal : x.repl = none) (hf : r.filter = true) : s.hashed job n x r fp =
    match s.filterProbe x.domain fp with
    | (z, some ref) => (z.addFld (dieC r.tile) Reg.FPL_HIT_FILTER_HIT 1).setChunk job n (.candidate fp ref r.cmp)
    | (z, none) => z.freshChunk job n x fp := by
  cases h : s.filterProbe x.domain fp with
  | mk z found => cases found <;> simp [State.hashed, hlocal, hf, h]

theorem State.hashed_remote {k : Nat} {fps : List Bytes} (hremote : x.repl = some (k, fps)) : s.hashed job n x r fp =
    if fps.getD n [] = fp then s.freshChunk job n x fp else s.wrongChunk job n x k := by
  simp only [State.hashed, hremote]

end

/-- A candidate that is an entry of the index which the chunk may confirm is judged against that entry. -/
theorem execCandidateConfirm_listed {s : State} {job n ref : Nat} {x : Job} {b fp : Bytes} {cmp : Bool} {e : FpEnt} (hx : s.job job = some x)
    (hc : x.chunkAt n = some { bytes := b, st := .candidate fp ref cmp })
    (he : ((s.confirmable x.domain fp b.length).find? fun e => e.ref == ref) = some e) :
    exec (.candidateConfirm job n) s = .next (s.confirmBy job n x fp cmp e).settle := by
  show execCandidateConfirm job n s = _
  simp only [execCandidateConfirm, hx, hc, he]

section
variable {s : State} {job n : Nat} {x : Job} {fp : Bytes} {e : FpEnt}

theorem State.confirmBy_sameLength (h : (s.chunk e.ref).len = e.len) (cmp : Bool) : s.confirmBy job n x fp cmp e =
    if cmp then (s.setChunk job n (.comparing fp e.ref)).readPack (s.chunk e.ref).pack (e.ref - (s.chunk e.ref).member) x.domain x.cls x.tile
      (.compare job n (s.chunk e.ref).member)
    else s.confirmChunk job n x fp e.ref := if_neg (not_not_intro h)

theorem State.confirmBy_otherLength (h : (s.chunk e.ref).len ≠ e.len) (cmp : Bool) : s.confirmBy job n x fp cmp e =
    ((s.addFld (dieC x.tile) Reg.FPL_MISC_UNCONFIRMED 1).event (dieC x.tile) 0x31 5 noInst).freshChunk job n x fp := if_pos h

end

/-! ## Key slots (R180, R207, R221) -/

/-- A fingerprint slot that is wanted and empty is loaded, counted, from a record that the tile's AWK unwraps; a bad one is a fault. -/
theorem execFpSlotLoad_wanted {s : State} {tile domain : Nat} (hw : s.fpWanted tile domain = true)
    (hno : s.dst.fpSlots.has (fpKey tile domain) = false) (addr : Nat) :
    let u := s.addFld (dieC tile) Reg.FPL_SLOT_MISS_COUNT 1
    exec (.fpSlotLoad tile domain addr) s = .next (match s.loadRec tile domain addr with
      | some (some r) => (u.putFpSlot tile domain r.icv r.ocv).settle
      | some none => (u.raiseFault 0x02 (dieC tile) 0x31).settle
      | none => s) := by
  show execFpSlotLoad tile domain addr s = _
  unfold execFpSlotLoad
  rw [if_neg (by simp [hw, hno])]
  rcases s.loadRec tile domain addr with _ | _ | r <;> rfl

/-- An XTS slot likewise; a record without the generation makes what names it malformed. -/
theorem execXtsSlotLoad_wanted {s : State} {tile domain gen : Nat} (hw : s.xtsWanted tile domain gen = true)
    (hno : s.dst.xtsSlots.has (xtsKey tile domain gen) = false) (addr : Nat) :
    let u := s.addFld (dieC tile) Reg.XTS_SLOT_MISS_COUNT 1
    exec (.xtsSlotLoad tile domain gen addr) s = .next (match s.loadRec tile domain addr with
      | some (some r) => (match r.gens.find? fun g => g.gen == gen with
        | some g => (u.putXtsSlot tile domain g).settle
        | none => ((u.genAbsent tile domain gen).genAbsentCopies tile domain gen).settle)
      | some none => (u.raiseFault 0x02 (dieC tile) 0x34).settle
      | none => s) := by
  show execXtsSlotLoad tile domain gen addr s = _
  unfold execXtsSlotLoad
  rw [if_neg (by simp [hw, hno])]
  rcases s.loadRec tile domain addr with _ | _ | r
  · rfl
  · rfl
  · dsimp only
    cases r.gens.find? fun g => g.gen == gen <;> rfl

/-- With no lane at work no key slot is in use. -/
theorem State.usedSlots_idle {s : State} (h : s.dst.running = []) (fp : Bool) : s.usedSlots fp = [] := by
  simp [State.usedSlots, h]

/-- A flush of fingerprint slots while no lane works empties them at once. -/
theorem State.flushFpLater_idle {s : State} (h : s.dst.running = []) (tile : Nat) (domain : Option Nat) :
    s.flushFpLater tile domain = s.flushFp tile domain := by
  simp [State.flushFpLater, State.flushFp, State.usedSlots_idle h, SMap.keep, SMap.keys]

/-- A flush of XTS slots while no lane works empties them at once. -/
theorem State.flushXtsLater_idle {s : State} (h : s.dst.running = []) (tile : Nat) (domain : Option Nat) :
    s.flushXtsLater tile domain = s.flushXts tile domain := by
  simp [State.flushXtsLater, State.flushXts, State.usedSlots_idle h, SMap.keep, SMap.keys]

/-! ## Lanes (R200, R201, R243, R244) -/

/-- Stopping a lane of a kind that the head can do without clears its enable bit and does nothing else. -/
theorem State.stopLane_spare {kind : LaneKind} (hdcp : kind ≠ .dcp) (hdec : kind ≠ .dec) (s : State) (tile lane : Nat) :
    s.stopLane tile kind lane =
      s.setFld (dieC tile) kind.regs.1 (s.fld (dieC tile) kind.regs.1 - s.fld (dieC tile) kind.regs.1 / 2 ^ lane % 2 * 2 ^ lane) :=
  if_neg (by simp [hdcp, hdec])

/-- An enabled lane that faults is marked, gives its item back, and stops. -/
theorem execLaneFault_enabled {s : State} {tile lane : Nat} {kind : LaneKind} (hon : s.lanes kind tile / 2 ^ lane % 2 = 1)
    (hlane : lane < kind.regs.2.2) :
    let u := s.setFld (dieC tile) kind.regs.2.1 (s.fld (dieC tile) kind.regs.2.1 ||| 2 ^ lane)
    let left := s.dst.running.filter fun r => !(r.kind == kind && r.tile == tile && r.lane == lane)
    exec (.laneFault tile kind lane) s =
      .next (((State.event { u with dst := { u.dst with running := left } } (dieC tile) kind.regs.1.blk 0 lane).stopLane tile kind lane).settle) :=
  if_neg (by omega)

/-- Settles O36: each command by the lemma of its case; a started freeing is the entry just inserted. -/
theorem destageMovesRecordsAndChunks : Obligations.DestageMovesRecordsAndChunks := by
  unfold Obligations.DestageMovesRecordsAndChunks
  refine ⟨fun s side seq fix root e hjob hent hmay hen hnew htxn hkv hwhole hown =>
      execJournalDestage_record hjob hent hmay hen hnew htxn hkv hwhole hown fix root,
    fun s side seq j x root hjob => execJournalDestage_job hjob root,
    fun s job n r x b icv ocv v hr hx hc hv => ⟨fun hlocal hf => ?fresh, fun hlocal hf => ?probe, fun k fps hremote => ?remote⟩,
    fun s job n x b fp ref cmp e hx hc he => ⟨fun hlen hcmp => ?confirm, fun hlen hcmp => ?compare, fun hlen => ?reject⟩,
    fun s ref hnum hlive hsum hfrees hnew huse => ?start,
    fun s ref f hf hdying => ⟨fun hsum hack hpoint huse => ?finish, fun fp hsum hfp => execChunkFreeFinish_referenced hf hdying hsum hfp,
      fun hsum hwait => ?wait⟩,
    fun s tile domain addr hw hno => execFpSlotLoad_wanted hw hno addr, fun s tile domain icv ocv => ⟨SMap.find?_insert .., rfl⟩,
    fun s tile domain gen addr hw hno => execXtsSlotLoad_wanted hw hno addr, fun s tile domain g => ⟨SMap.find?_insert .., rfl⟩,
    fun s tile val => ⟨rfl, rfl, fun hidle => ⟨?flushFp, ?flushXts⟩⟩,
    fun s tile lane kind hpop hlane => ⟨if_pos (by simp [hpop, hlane]), fun hdcp hdec => s.stopLane_spare hdcp hdec tile lane⟩,
    fun s tile lane kind hon hlane => execLaneFault_enabled hon hlane⟩
  case fresh => exact next_settle (execFingerprintDone_held hr hx hc hv) (State.hashed_unfiltered hlocal hf)
  case probe => exact next_settle (execFingerprintDone_held hr hx hc hv) (State.hashed_filtered hlocal hf)
  case remote => exact next_settle (execFingerprintDone_held hr hx hc hv) (State.hashed_remote hremote)
  case confirm => exact next_settle (execCandidateConfirm_listed hx hc he) ((State.confirmBy_sameLength hlen cmp).trans (if_neg (by simp [hcmp])))
  case compare => exact next_settle (execCandidateConfirm_listed hx hc he) ((State.confirmBy_sameLength hlen cmp).trans (if_pos hcmp))
  case reject => exact next_settle (execCandidateConfirm_listed hx hc he) (State.confirmBy_otherLength hlen cmp)
  case start =>
    obtain ⟨hao, hpair⟩ := s.chunkRemoved_ao_pair ref
    refine ⟨_, execChunkFreeStart_unreferenced hnum hlive hsum hfrees hnew huse, (SMap.find?_insert ..).trans ?_⟩
    rw [hao, hpair]
  case finish =>
    exact (execChunkFreeFinish_unreferenced hf hdying hsum).trans (if_pos (by simp [hack, hpoint, huse]))
  case wait =>
    exact (execChunkFreeFinish_unreferenced hf hdying hsum).trans (if_neg (by rcases hwait with h | h | h <;> simp [h]))
  case flushFp =>
    rw [State.flushFpLater_idle hidle, State.flushFp]
    by_cases hall : bitsAt val 12 1 = 1 <;> simp [hall, beq_false_of_ne]
  case flushXts =>
    rw [State.flushXtsLater_idle hidle, State.flushXts]
    by_cases hall : bitsAt val 12 1 = 1 <;> simp [hall, beq_false_of_ne]

end Sys2Proof.Machine
end

section
/-! Packs (R209 to R246): which of them close, what a lane that ends makes of the pack it holds, and which work a lane takes. -/

namespace Sys2Proof.Machine

open Sys2Proof

/-! ## Packs close (R210) -/

section
variable {s : State} {pack : Nat} {p : Pack}

/-- An open pack that is full, or the oldest of 16 while a chunk waits for a place, closes. -/
theorem execPackClose_due (hp : s.pack pack = some p) (hopen : p.st = .opened)
    (hdue : p.full = true ∨ ((s.openPacks p.tile).keys.head? = some pack ∧ 16 ≤ (s.openPacks p.tile).length ∧ s.packWanted p.tile = true)) :
    exec (.packClose pack) s = .next (s.closePack pack).settle := by
  show execPackClose pack s = _
  simp only [execPackClose, hp]
  refine if_pos ⟨hopen, hdue.imp_right fun ⟨hfirst, hmany, hwanted⟩ => ?_⟩
  simp [hfirst, hmany, hwanted]

/-- An open pack to which nothing has been added for FLUSH_US closes. -/
theorem execPackFlushTimeout_due (hp : s.pack pack = some p) (hopen : p.st = .opened)
    (hdue : max 1 (s.fld (dieC p.tile) Reg.CMP_CTRL_FLUSH_US) * 1000 ≤ s.since p.addedAt) :
    exec (.packFlushTimeout pack) s = .next (s.closePack pack).settle := by
  show execPackFlushTimeout pack s = _
  simp only [execPackFlushTimeout, hp]
  exact if_pos ⟨hopen, hdue⟩

end

/-! ## Compression and encryption (R213, R218, R223, R224) -/

section
variable {s : State} {pack : Nat} {r : LaneRun} {p : Pack}

/-- The pack that a compression lane holds is compressed and counted. -/
theorem execPackCompressDone_held (hr : s.startLanes.runOf .cmp (.pack pack) = some r) (hp : s.startLanes.pack pack = some p)
    (hst : p.st = .closed) (hnew : p.copyOf = none) :
    exec (.packCompressDone pack) s = .next (State.settle (State.setPack (((s.startLanes.leaveLane r).addFld (dieC r.tile)
      Reg.CMP_COUNT_PACKS 1).addFld (dieC r.tile) Reg.CMP_COUNT_ALL_STORED (if (deflate p.plain).2 then 1 else 0)) pack
      { p with st := .compressed, stream := (deflate p.plain).1, stored := (deflate p.plain).2 })) := by
  show execPackCompressDone pack s = _
  simp only [execPackCompressDone, hr, hp]
  exact if_pos ⟨hst, hnew⟩

/-- The pack that an encryption lane holds is encrypted under a generation's keys: a copy keeps its envelope but for KEYGEN and CRC. -/
theorem execPackEncryptDone_held {k1 k2 : Bytes} {v : State} (hr : s.startLanes.runOf .enc (.pack pack) = some r)
    (hp : s.startLanes.pack pack = some p) (hst : p.st = .compressed)
    (hv : s.startLanes.useXts r.tile p.domain (s.startLanes.wgen r.tile p.domain) = some (k1, k2, v)) :
    let g := s.startLanes.wgen r.tile p.domain
    let ct := xtsEnc k1 k2 p.chunk (padMul 16 p.stream)
    let head := p.env.take 6 ++ le 2 g ++ (p.env.drop 8).take 20
    let env := if p.copyOf = none then envelope p.kv p.stored p.mems.length g p.chunk p.plain p.stream ct
      else head ++ le 4 (crc32c (head ++ ct)).toNat ++ ct
    exec (.packEncryptDone pack) s =
      .next (((v.leaveLane r).setPack pack { p with st := .encrypted, gen := g, env := env }).placePack pack).settle := by
  intro g ct head env
  show execPackEncryptDone pack s = _
  simp only [execPackEncryptDone, hr, hp, hst, hv, ne_eq, not_true_eq_false, if_false]
  have henv : (if p.copyOf.isSome then head ++ le 4 (crc32c (head ++ ct)).toNat ++ ct
      else envelope p.kv p.stored p.mems.length g p.chunk p.plain p.stream ct) = env := by
    cases h : p.copyOf <;> simp [env, h]
  rw [← henv]

end

/-! ## Decryption and inflation (R216, R218, R246) -/

section
variable {s : State} {id : Nat} {r : LaneRun} {x : PackRd}

/-- The pack being read that a decryption lane holds is decrypted under the generation that its envelope names. -/
theorem execPackDecryptDone_read {e : Env} {k1 k2 : Bytes} {v : State} (hr : s.startLanes.runOf .dec (.read id) = some r)
    (hx : s.startLanes.med.rds.find? id = some x) (henv : x.env.isSome = true) (hplain : x.plain = none) (he : x.env? = some e)
    (hv : s.startLanes.useXts r.tile x.domain e.gen = some (k1, k2, v)) :
    exec (.packDecryptDone false id) s = .next (State.settle { v.leaveLane r with med := { (v.leaveLane r).med with
      rds := (v.leaveLane r).med.rds.insert id { x with plain := some (xtsDec k1 k2 e.chunk e.payload) } } }) := by
  refine next_settle rfl ?_
  show s.startLanes.readDecrypted id = _
  simp [State.readDecrypted, hr, hx, Option.isSome_iff_ne_none.1 henv, hplain, he, hv]

/-- One whose envelope is wrong or names another chunk is malformed. -/
theorem execPackDecryptDone_wrong (hr : s.startLanes.runOf .dec (.read id) = some r) (hx : s.startLanes.med.rds.find? id = some x)
    (henv : x.env.isSome = true) (hplain : x.plain = none) (he : x.env? = none) :
    exec (.packDecryptDone false id) s = .next ((s.startLanes.leaveLane r).packBad id 1).settle := by
  refine next_settle rfl ?_
  show s.startLanes.readDecrypted id = _
  simp [State.readDecrypted, hr, hx, Option.isSome_iff_ne_none.1 henv, hplain, he]

/-- A copy is decrypted under the generation of its record, and waits to be encrypted again. -/
theorem execPackDecryptDone_copy {p : Pack} {e : Env} {k1 k2 : Bytes} {v : State} (hr : s.startLanes.runOf .dec (.pack id) = some r)
    (hp : s.startLanes.pack id = some p) (hst : p.st = .closed) (hcopy : p.copyOf.isSome = true) (he : envOf p.env = some e)
    (hv : s.startLanes.useXts r.tile p.domain p.gen = some (k1, k2, v)) :
    exec (.packDecryptDone true id) s =
      .next ((v.leaveLane r).setPack id { p with st := .compressed, stream := (xtsDec k1 k2 p.chunk e.payload).take e.slen }).settle := by
  refine next_settle rfl ?_
  show s.startLanes.copyDecrypted id = _
  simp only [State.copyDecrypted, hr, hp, he, hv]
  exact if_pos ⟨hst, hcopy⟩

/-- What becomes of the pack being read that a decompression lane holds: its stream must inflate to the length and CRC of its envelope. -/
theorem execPackInflateDone_held {st : Bytes} {e : Env} (hr : s.startLanes.runOf .dcp (.read id) = some r)
    (hx : s.startLanes.med.rds.find? id = some x) (he : x.env.bind envOf = some e) (hplain : x.plain = some st) :
    let w := s.startLanes.leaveLane r
    exec (.packInflateDone id) s = match inflate (st.take e.slen) with
      | some out =>
        if out.length ≠ e.ulen then .next ((w.addFld (dieC r.tile) Reg.DCP_ERR_FORMAT 1).packBad id 2).settle
        else if (crc32c out).toNat ≠ e.ucrc then .next ((w.addFld (dieC r.tile) Reg.DCP_ERR_UCRC 1).packBad id 2).settle
        else .next (w.packServe id (memberOf e out)).settle
      | none => .next ((w.addFld (dieC r.tile) Reg.DCP_ERR_FORMAT 1).packBad id 2).settle := by
  show execPackInflateDone id s = _
  cases h : inflate (st.take e.slen) <;> simp only [execPackInflateDone, hr, hx, he, hplain, h]

end

/-! ## Which work a lane takes (R240, R241) -/

section
variable {s : State} {k : LaneKind} {t l : Nat} {work : List LaneWork} {w : LaneWork} {turn : Nat × Nat}

/-- Work of class 0 that is ready goes first. -/
theorem State.pickWork_class0 (h : (work.filter fun w => w.ready).find? (fun w => w.cls == 0) = some w) :
    s.pickWork k t l work = some (w, s.dst.turns.getD (t * 8 + k.num) (0, 0)) := by
  unfold State.pickWork
  simp only [h]

/-- What a lane may take of classes 1 to 7: a reserved lane only small packs, and none while work of class 0 waits (R241). -/
def State.mayTake (s : State) (k : LaneKind) (t l : Nat) (work : List LaneWork) : List LaneWork :=
  let can := work.filter fun w => w.ready
  if !decide (l < s.reservedLanes k t) then can
  else if work.any fun w => w.cls == 0 then [] else can.filter fun w => decide (w.ulen ≤ 16384)

/-- Without ready work of class 0 a lane takes work of the other classes that it may take. -/
theorem State.mem_mayTake_of_pickWork (h : (work.filter fun w => w.ready).find? (fun w => w.cls == 0) = none)
    (hp : s.pickWork k t l work = some (w, turn)) : w ∈ s.mayTake k t l work := by
  unfold State.pickWork at hp
  simp only [h] at hp
  split at hp
  · obtain ⟨w', hw', e⟩ := Option.map_eq_some_iff.1 hp
    cases e
    exact List.mem_of_find?_eq_some hw'
  · cases hp

theorem State.mem_mayTake : w ∈ s.mayTake k t l work ↔ w ∈ work ∧ w.ready = true ∧
    (l < s.reservedLanes k t → w.ulen ≤ 16384 ∧ ∀ x ∈ work, x.cls ≠ 0) := by
  unfold State.mayTake
  by_cases hl : l < s.reservedLanes k t
  · by_cases h0 : ∃ x ∈ work, x.cls = 0
    · have hany : (work.any fun w => w.cls == 0) = true := by simpa using h0
      simp only [hl, hany]
      obtain ⟨x, hx, hx0⟩ := h0
      simp only [decide_true, Bool.not_true, Bool.false_eq_true, if_false, if_true, List.not_mem_nil, false_iff, forall_const]
      exact fun ⟨_, _, _, hno⟩ => hno x hx hx0
    · have hany : (work.any fun w => w.cls == 0) = false := by simpa using h0
      have hno : ∀ x ∈ work, x.cls ≠ 0 := fun x hx hx0 => h0 ⟨x, hx, hx0⟩
      simp only [hl, hany, decide_true, Bool.not_true, Bool.false_eq_true, if_false, List.mem_filter, decide_eq_true_eq, and_assoc,
        forall_const, and_iff_left hno]
  · simp [hl]

/-- A lane takes ready work, class 0 before any other; a reserved lane takes another class only while no work of class 0 waits, and no large pack. -/
theorem State.pickWork_spec (hp : s.pickWork k t l work = some (w, turn)) :
    w ∈ work ∧ w.ready = true ∧ (w.cls ≠ 0 → (∀ x ∈ work, x.ready = true → x.cls ≠ 0) ∧
      (l < s.reservedLanes k t → w.ulen ≤ 16384 ∧ ∀ x ∈ work, x.cls ≠ 0)) := by
  cases h0 : (work.filter fun w => w.ready).find? (fun w => w.cls == 0) with
  | some w0 =>
    rw [State.pickWork_class0 h0] at hp
    cases hp
    obtain ⟨hmem, hready⟩ := List.mem_filter.1 (List.mem_of_find?_eq_some h0)
    exact ⟨hmem, hready, fun hne => absurd (by simpa using List.find?_some h0) hne⟩
  | none =>
    obtain ⟨hmem, hready, hres⟩ := State.mem_mayTake.1 (State.mem_mayTake_of_pickWork h0 hp)
    refine ⟨hmem, hready, fun _ => ⟨fun x hx hxr => ?_, hres⟩⟩
    simpa using List.find?_eq_none.1 h0 x (List.mem_filter.2 ⟨hx, hxr⟩)

end

/-- Settles O37: each command by the lemma of its case, and `State.pickWork_spec`. -/
theorem packsCloseCipherAndServe : Obligations.PacksCloseCipherAndServe := by
  unfold Obligations.PacksCloseCipherAndServe
  refine ⟨fun s pack p hp hopen => ⟨fun hfull => execPackClose_due hp hopen (.inl hfull),
      fun hfirst hmany hwanted => execPackClose_due hp hopen (.inr ⟨hfirst, hmany, hwanted⟩),
      fun hdue => execPackFlushTimeout_due hp hopen hdue⟩,
    fun s tile val => rfl,
    fun s pack r p hr hp hst hnew => execPackCompressDone_held hr hp hst hnew,
    fun s pack r p k1 k2 v hr hp hst hv => execPackEncryptDone_held hr hp hst hv,
    fun s id r x hr hx henv hplain => ⟨fun e k1 k2 v he hv => execPackDecryptDone_read hr hx henv hplain he hv,
      fun he => execPackDecryptDone_wrong hr hx henv hplain he⟩,
    fun s id r p k1 k2 e v hr hp hst hcopy he hv => execPackDecryptDone_copy hr hp hst hcopy he hv,
    fun s rd r x st e hr hx he hplain => ⟨fun out hout => ⟨fun hlen hcrc => ?serve, fun hlen hcrc => ?crc, fun hlen => ?length⟩,
      fun hout => ?stream⟩,
    fun s k t l work w turn hp => State.pickWork_spec hp⟩
  all_goals
    refine (execPackInflateDone_held hr hx he hplain).trans ?_
    rw [hout]
  case serve => exact (if_neg (not_not_intro hlen)).trans (if_neg (not_not_intro hcrc))
  case crc => exact (if_neg (not_not_intro hlen)).trans (if_pos hcrc)
  case length => exact if_pos hlen

end Sys2Proof.Machine
end

section
/-! Bytes stored in a row: what each address reads afterwards (R681), and that memory is all that changes. -/

namespace Sys2Proof.Machine

open Sys2Proof

theorem State.stores_only (s : State) (a : Nat) (b : Bytes) : ∃ m, s.stores a b = { s with mem := m } := by
  induction b generalizing s a with
  | nil => exact ⟨_, rfl⟩
  | cons x b ih =>
    obtain ⟨m, hm⟩ := ih (s.store a x) (a + 1)
    exact ⟨m, hm⟩

/-- An address below or above the bytes stored reads as before. -/
theorem State.load_stores_outside {s : State} (h : Memory.wf s.mem = true) {a i : Nat} {b : Bytes} (hi : i < a ∨ a + b.length ≤ i) :
    (s.stores a b).load i = s.load i := by
  induction b generalizing s a with
  | nil => rfl
  | cons x b ih =>
    rw [List.length_cons] at hi
    exact (ih (Memory.wf_put h a x) (by omega)).trans (SMap.getD_putD_ne h (by omega) x)

/-- The bytes stored stand one after another from their address on. -/
theorem State.load_stores_inside {s : State} (h : Memory.wf s.mem = true) {a i : Nat} {b : Bytes} (hi : i < b.length) :
    (s.stores a b).load (a + i) = b.getD i 0 := by
  induction b generalizing s a i with
  | nil => cases hi
  | cons x b ih =>
    have hx : Memory.wf (s.store a x).mem = true := Memory.wf_put h a x
    cases i with
    | zero => exact (State.load_stores_outside hx (.inl (Nat.lt_succ_self a))).trans (SMap.getD_putD_same h a x)
    | succ i =>
      have hrest := ih hx (a := a + 1) (Nat.lt_of_succ_lt_succ hi)
      rw [Nat.add_right_comm] at hrest
      exact hrest

end Sys2Proof.Machine
end

section
/-! Sessions of the key cipher units (R234 to R239, R243, R246): the status an operation ends with, and what each operation does. -/

namespace Sys2Proof.Machine

open Sys2Proof

/-! ## Registers of a session -/

/-- Registers of the unit at different offsets are different registers. -/
theorem regKey_kcu_ne {die o o' : Nat} (h : o ≠ o') : regKey die 0x36 o ≠ regKey die 0x36 o' := by
  simpa [regKey, homeDie] using h

/-- The end of an operation sets DONE, ERR, KEYED and CLEARKEY one after another. -/
theorem State.kcuEnd_eq (s : State) (tile ses err : Nat) : ∃ keyed clear, s.kcuEnd tile ses err =
    (((s.setFld (dieC tile) (kcuFld ses Reg.KCU_STATUS_DONE) 1).setFld (dieC tile) (kcuFld ses Reg.KCU_STATUS_ERR) err).setFld (dieC tile)
      (kcuFld ses Reg.KCU_STATUS_KEYED) keyed).setFld (dieC tile) (kcuFld ses Reg.KCU_STATUS_CLEARKEY) clear := ⟨_, _, rfl⟩

theorem State.kcuEnd_only (s : State) (tile ses err : Nat) : ∃ r, s.kcuEnd tile ses err = { s with regs := r } := by
  obtain ⟨keyed, clear, e⟩ := s.kcuEnd_eq tile ses err
  rw [e]
  exact State.setFld_only (State.setFld_only (State.setFld_only (State.setFld_only ⟨_, rfl⟩ ..) ..) ..) ..

@[simp] theorem kcuFld_blk (ses : Nat) (f : Fld) : (kcuFld ses f).blk = f.blk := rfl
@[simp] theorem kcuFld_off (ses : Nat) (f : Fld) : (kcuFld ses f).off = f.off + ses * 0x100 := rfl
@[simp] theorem kcuFld_lo (ses : Nat) (f : Fld) : (kcuFld ses f).lo = f.lo := rfl
@[simp] theorem kcuFld_w (ses : Nat) (f : Fld) : (kcuFld ses f).w = f.w := rfl

theorem State.fld_setKcuFld_same {s : State} (h : s.Ordered) {die ses v : Nat} (f : Fld) (hf : f.lo + f.w ≤ 64) :
    (s.setFld die (kcuFld ses f) v).fld die (kcuFld ses f) = v % 2 ^ f.w := by
  rw [State.fld_setFld_same h die (by simpa using hf), kcuFld_w]

/-- Fields of one session's register that share no bit do not disturb each other. -/
theorem State.fld_setKcuFld_apart {s : State} (h : s.Ordered) {die ses v : Nat} (f g : Fld) (hf : f.lo + f.w ≤ 64)
    (hg : g.blk = f.blk ∧ g.off = f.off) (apart : g.lo + g.w ≤ f.lo ∨ f.lo + f.w ≤ g.lo) :
    (s.setFld die (kcuFld ses f) v).fld die (kcuFld ses g) = s.fld die (kcuFld ses g) := by
  obtain ⟨hblk, hoff⟩ := hg
  apply State.fld_setFld_apart h
  · simpa using hf
  · simpa using hblk
  · simpa using hoff
  · simpa using apart

/-- Another register of the unit. -/
theorem State.fld_setKcuFld_ne {s : State} (h : s.Ordered) {die ses v : Nat} (f : Fld) {g : Fld} (hf : f.blk = 0x36) (hg : g.blk = 0x36)
    (hoff : g.off ≠ (kcuFld ses f).off) : (s.setFld die (kcuFld ses f) v).fld die g = s.fld die g := by
  apply State.fld_setFld_ne h
  rw [hg, kcuFld_blk, hf]
  exact regKey_kcu_ne hoff

section
variable {s : State} (h : s.Ordered) (tile ses err : Nat)
include h

/-- An operation ends with DONE and its ERR. -/
theorem State.fld_kcuEnd_status : (s.kcuEnd tile ses err).flag (dieC tile) (kcuFld ses Reg.KCU_STATUS_DONE) = true ∧
    (s.kcuEnd tile ses err).fld (dieC tile) (kcuFld ses Reg.KCU_STATUS_ERR) = err % 8 := by
  obtain ⟨keyed, clear, e⟩ := s.kcuEnd_eq tile ses err
  have h1 := State.ordered_setFld h (dieC tile) (kcuFld ses Reg.KCU_STATUS_DONE) 1
  have h2 := State.ordered_setFld h1 (dieC tile) (kcuFld ses Reg.KCU_STATUS_ERR) err
  have h3 := State.ordered_setFld h2 (dieC tile) (kcuFld ses Reg.KCU_STATUS_KEYED) keyed
  have hdone : (s.kcuEnd tile ses err).fld (dieC tile) (kcuFld ses Reg.KCU_STATUS_DONE) = 1 := by
    rw [e, State.fld_setKcuFld_apart h3 _ _ (by decide) (by decide) (by decide), State.fld_setKcuFld_apart h2 _ _ (by decide) (by decide) (by decide),
      State.fld_setKcuFld_apart h1 _ _ (by decide) (by decide) (by decide)]
    exact State.fld_setKcuFld_same h Reg.KCU_STATUS_DONE (by decide)
  refine ⟨beq_iff_eq.2 hdone, ?_⟩
  rw [e, State.fld_setKcuFld_apart h3 _ _ (by decide) (by decide) (by decide), State.fld_setKcuFld_apart h2 _ _ (by decide) (by decide) (by decide)]
  exact State.fld_setKcuFld_same h1 Reg.KCU_STATUS_ERR (by decide)

/-- The end of an operation leaves the other registers of the unit. -/
theorem State.fld_kcuEnd_of_off_ne {f : Fld} (hblk : f.blk = 0x36) (hoff : f.off ≠ (kcuFld ses Reg.KCU_STATUS_DONE).off) :
    (s.kcuEnd tile ses err).fld (dieC tile) f = s.fld (dieC tile) f := by
  obtain ⟨keyed, clear, e⟩ := s.kcuEnd_eq tile ses err
  have h1 := State.ordered_setFld h (dieC tile) (kcuFld ses Reg.KCU_STATUS_DONE) 1
  have h2 := State.ordered_setFld h1 (dieC tile) (kcuFld ses Reg.KCU_STATUS_ERR) err
  have h3 := State.ordered_setFld h2 (dieC tile) (kcuFld ses Reg.KCU_STATUS_KEYED) keyed
  rw [e, State.fld_setKcuFld_ne h3 Reg.KCU_STATUS_CLEARKEY rfl hblk hoff, State.fld_setKcuFld_ne h2 Reg.KCU_STATUS_KEYED rfl hblk hoff,
    State.fld_setKcuFld_ne h1 Reg.KCU_STATUS_ERR rfl hblk hoff, State.fld_setKcuFld_ne h Reg.KCU_STATUS_DONE rfl hblk hoff]

end

/-! ## The output of a block operation -/

theorem leAt_lt (l : Bytes) (i n : Nat) : leAt l i n < 256 ^ n :=
  (ofLe_lt _).trans_le (Nat.pow_le_pow_right (by decide) (List.length_take_le n _))

/-- The state in which a block operation has written its output to KCU_DATA and counted itself in KCU_STATUS. -/
def State.kcuOutput (s : State) (tile ses : Nat) (out : Bytes) : State :=
  ((s.setFld (dieC tile) (kcuFld ses (Reg.KCU_DATA_BYTES.plus 0)) (leAt out 0 8)).setFld (dieC tile) (kcuFld ses (Reg.KCU_DATA_BYTES.plus 8))
    (leAt out 8 8)).addFld (dieC tile) (kcuFld ses Reg.KCU_STATUS_OPS) 1

theorem State.kcuOutput_only (s : State) (tile ses : Nat) (out : Bytes) : ∃ r, s.kcuOutput tile ses out = { s with regs := r } :=
  State.setFld_only (State.setFld_only (State.setFld_only ⟨_, rfl⟩ ..) ..) ..

theorem State.ordered_kcuOutput {s : State} (h : s.Ordered) (tile ses : Nat) (out : Bytes) : (s.kcuOutput tile ses out).Ordered :=
  State.ordered_setFld (State.ordered_setFld (State.ordered_setFld h ..) ..) ..

/-- KCU_DATA holds the output, eight bytes in each of its two registers. -/
theorem State.fld_kcuOutput_data {s : State} (h : s.Ordered) (tile ses : Nat) (out : Bytes) {i : Nat} (hi : i < 2) :
    (s.kcuOutput tile ses out).fld (dieC tile) (kcuFld ses (Reg.KCU_DATA_BYTES.plus (8 * i))) = leAt out (8 * i) 8 := by
  have h1 := State.ordered_setFld h (dieC tile) (kcuFld ses (Reg.KCU_DATA_BYTES.plus 0)) (leAt out 0 8)
  have h2 := State.ordered_setFld h1 (dieC tile) (kcuFld ses (Reg.KCU_DATA_BYTES.plus 8)) (leAt out 8 8)
  have hcut : ∀ n, leAt out n 8 % 2 ^ 64 = leAt out n 8 := fun n => Nat.mod_eq_of_lt (leAt_lt out n 8)
  refine (State.fld_setKcuFld_ne h2 Reg.KCU_STATUS_OPS rfl rfl ?_).trans ?_
  · simp only [kcuFld_off, Fld.plus, Reg.KCU_DATA_BYTES, Reg.KCU_STATUS_OPS]; omega
  · obtain rfl | rfl : i = 0 ∨ i = 1 := by omega
    · refine (State.fld_setKcuFld_ne h1 (Reg.KCU_DATA_BYTES.plus 8) rfl rfl ?_).trans ?_
      · simp only [kcuFld_off, Fld.plus]; omega
      · exact (State.fld_setKcuFld_same h (Reg.KCU_DATA_BYTES.plus 0) (by decide)).trans (hcut 0)
    · exact (State.fld_setKcuFld_same h1 (Reg.KCU_DATA_BYTES.plus 8) (by decide)).trans (hcut 8)

/-! ## Operations of a unit that runs -/

section
variable {s : State} {tile ses : Nat}

theorem KcuRuns.withKcu (h : KcuRuns s tile ses) (k : State) : s.withKcu tile ses k = k := by
  obtain ⟨htile, hses, hon⟩ := h
  simp [State.withKcu, Nat.not_le.2 htile, Nat.not_le.2 hses, hon]

theorem State.kcuDma_permitted {addr len : Nat} {k : AccKind} (h : s.rangeFault tile 10 addr len k = none) (go : State) :
    s.kcuDma tile ses addr len k go = go := by
  simp only [State.kcuDma, h]

theorem State.fld_setKcu (s : State) (tile ses : Nat) (x : KcuSes) (die : Nat) (f : Fld) : (s.setKcu tile ses x).fld die f = s.fld die f :=
  State.fld_congr rfl rfl die f

/-- A session that is given a key or CHAIN has it when the operation ends. -/
theorem State.kcu_kcuEnd_setKcu (s : State) (tile ses err : Nat) (x : KcuSes) : ((s.setKcu tile ses x).kcuEnd tile ses err).kcu tile ses = some x := by
  obtain ⟨r, e⟩ := (s.setKcu tile ses x).kcuEnd_only tile ses err
  rw [e]
  exact SMap.find?_insert ..

/-- A block operation that has its output and the session's new state ends with the output in KCU_DATA, DONE and ERR 0, and changes nothing but
registers and the session. -/
theorem State.kcuBlockEnd_spec (h : s.Ordered) (tile ses : Nat) (out : Bytes) (x : KcuSes) :
    let t := ((s.kcuOutput tile ses out).setKcu tile ses x).kcuEnd tile ses 0
    t.kcu tile ses = some x ∧ (∀ i < 2, t.fld (dieC tile) (kcuFld ses (Reg.KCU_DATA_BYTES.plus (8 * i))) = leAt out (8 * i) 8) ∧
      t.flag (dieC tile) (kcuFld ses Reg.KCU_STATUS_DONE) = true ∧ t.fld (dieC tile) (kcuFld ses Reg.KCU_STATUS_ERR) = 0 ∧
      t = { s with regs := t.regs, keys := { s.keys with kcu := t.keys.kcu } } := by
  have hout : ((s.kcuOutput tile ses out).setKcu tile ses x).Ordered := State.ordered_kcuOutput h tile ses out
  obtain ⟨hdone, herr⟩ := State.fld_kcuEnd_status hout tile ses 0
  refine ⟨State.kcu_kcuEnd_setKcu .., fun i hi => ?_, hdone, herr, ?_⟩
  · have hoff : (kcuFld ses (Reg.KCU_DATA_BYTES.plus (8 * i))).off ≠ (kcuFld ses Reg.KCU_STATUS_DONE).off := by
      simp only [kcuFld_off, Fld.plus, Reg.KCU_DATA_BYTES, Reg.KCU_STATUS_DONE]; omega
    rw [State.fld_kcuEnd_of_off_ne hout tile ses 0 rfl hoff, State.fld_setKcu]
    exact State.fld_kcuOutput_data h tile ses out hi
  · obtain ⟨r, e⟩ := ((s.kcuOutput tile ses out).setKcu tile ses x).kcuEnd_only tile ses 0
    obtain ⟨r', e'⟩ := s.kcuOutput_only tile ses out
    rw [e, e']
    rfl

section
variable (hr : KcuRuns s tile ses)
include hr

/-! Each operation, on a session with a key and on one without. -/

theorem State.kcuBlock_keyed {x : KcuSes} (hx : s.kcu tile ses = some x) (f : Bytes → Bytes → Bytes → Bytes × Bytes) :
    s.kcuBlock tile ses f = ((s.kcuOutput tile ses (f x.key x.chain (s.kcuIn tile ses)).1).setKcu tile ses
      { x with chain := (f x.key x.chain (s.kcuIn tile ses)).2, ops := x.ops + 1 }).kcuEnd tile ses 0 := by
  rw [State.kcuBlock, hr.withKcu, hx]
  rfl

theorem State.kcuBlock_unkeyed (hx : s.kcu tile ses = none) (f : Bytes → Bytes → Bytes → Bytes × Bytes) :
    s.kcuBlock tile ses f = s.kcuEnd tile ses 1 := by
  rw [State.kcuBlock, hr.withKcu, hx]

theorem State.kcuSave_unkeyed (hx : s.kcu tile ses = none) (ok : KcuSes → Bool) (f : KcuSes → Bytes) :
    s.kcuSave tile ses ok f = s.kcuEnd tile ses 1 := by
  rw [State.kcuSave, hr.withKcu, hx]

/-- A save that the session's key and the window allow writes the context at DST. -/
theorem State.kcuSave_keyed {x : KcuSes} (hx : s.kcu tile ses = some x) {ok : KcuSes → Bool} (hok : ok x = true) {f : KcuSes → Bytes}
    (hdma : s.rangeFault tile 10 (s.kcuDst tile ses) (f x).length .write = none) :
    s.kcuSave tile ses ok f = (s.stores (s.kcuDst tile ses) (f x)).kcuEnd tile ses 0 := by
  rw [State.kcuSave, hr.withKcu, hx]
  simp only [hok, Bool.not_true, Bool.false_eq_true, if_false]
  exact State.kcuDma_permitted hdma _

theorem execKcuSetChain_keyed {x : KcuSes} (hx : s.kcu tile ses = some x) :
    exec (.kcuSetChain tile ses) s = .next ((s.setKcu tile ses { x with chain := s.kcuIn tile ses }).kcuEnd tile ses 0) := by
  show execKcuSetChain tile ses s = _
  rw [execKcuSetChain, hr.withKcu, hx]

theorem execKcuSetChain_unkeyed (hx : s.kcu tile ses = none) : exec (.kcuSetChain tile ses) s = .next (s.kcuEnd tile ses 1) := by
  show execKcuSetChain tile ses s = _
  rw [execKcuSetChain, hr.withKcu, hx]

theorem execKcuClose_keyed {x : KcuSes} (hx : s.kcu tile ses = some x) : exec (.kcuClose tile ses) s =
    .next (State.kcuEnd { s with keys := { s.keys with kcu := s.keys.kcu.erase (dieC tile * 4 + ses) } } tile ses 0) := by
  show execKcuClose tile ses s = _
  rw [execKcuClose, hr.withKcu, hx]
  rfl

theorem execKcuClose_unkeyed (hx : s.kcu tile ses = none) : exec (.kcuClose tile ses) s = .next (s.kcuEnd tile ses 1) := by
  show execKcuClose tile ses s = _
  rw [execKcuClose, hr.withKcu, hx]
  rfl

/-- A load of a wrapped key into a session without one is a DMA, and takes what the AWK unwraps. -/
theorem execKcuLoadWrapped_unkeyed (hx : s.kcu tile ses = none) : exec (.kcuLoadWrapped tile ses) s =
    .next (s.kcuDma tile ses (s.kcuSrc tile ses) 40 .read
      (match (s.awkOf tile).bind fun k => kwpUnwrap k (s.loads (s.kcuSrc tile ses) 40) with
      | some key => if key.length = 16 ∨ key.length = 32 then
          (s.setKcu tile ses { key := key, chain := zeros 16, clear := false, ops := 0 }).kcuEnd tile ses 0 else s.kcuEnd tile ses 3
      | none => s.kcuEnd tile ses 3)) := by
  show execKcuLoadWrapped tile ses s = _
  rw [execKcuLoadWrapped, hr.withKcu, hx]
  rfl

/-- A load of a clear key while CLEAR_KEY_EN is 1 (R234). -/
theorem execKcuLoadClear_enabled (hx : s.kcu tile ses = none) (hon : s.flag (dieC tile) Reg.KCU_CTRL_CLEAR_KEY_EN = true) (long : Bool) :
    exec (.kcuLoadClear tile ses long) s = .next ((s.setKcu tile ses
      { key := ((List.range 4).flatMap fun i => le 8 (s.wo.getD (regKey (dieC tile) 0x36 (0x1030 + ses * 0x100 + 8 * i)) 0).toNat).take
          (if long then 32 else 16), chain := zeros 16, clear := true, ops := 0 }).kcuEnd tile ses 0) := by
  show execKcuLoadClear tile ses long s = _
  rw [execKcuLoadClear, hr.withKcu, hx, hon]
  rfl

/-- Otherwise it is refused and recorded. -/
theorem execKcuLoadClear_disabled (hx : s.kcu tile ses = none) (hoff : s.flag (dieC tile) Reg.KCU_CTRL_CLEAR_KEY_EN = false) (long : Bool) :
    exec (.kcuLoadClear tile ses long) s = .next ((s.kcuEnd tile ses 5).event (dieC tile) 0x36 9 noInst) := by
  show execKcuLoadClear tile ses long s = _
  rw [execKcuLoadClear, hr.withKcu, hx, hoff]
  rfl

/-- A key that was not loaded in clear is not saved in clear; the attempt is recorded (R238). -/
theorem execKcuSaveClear_wrapped {x : KcuSes} (hx : s.kcu tile ses = some x) (hclear : x.clear = false) :
    exec (.kcuSaveClear tile ses) s = .next ((s.kcuEnd tile ses 5).event (dieC tile) 0x36 9 noInst) := by
  show Host.Outcome.next (s.kcuSave tile ses KcuSes.clear KcuSes.context) = _
  rw [State.kcuSave, hr.withKcu, hx]
  simp only [hclear, Bool.not_false, if_true]

/-- A restore into a session without a key takes the 64 bytes at SRC, or what the context key unwraps of the 72 there (R238). -/
theorem execKcuRestore_permitted (hx : s.kcu tile ses = none) (wrapped : Bool)
    (hdma : s.rangeFault tile 10 (s.kcuSrc tile ses) (if wrapped then 72 else 64) .read = none) :
    exec (.kcuRestore tile ses wrapped) s = .next (
      let b := s.loads (s.kcuSrc tile ses) (if wrapped then 72 else 64)
      match (if wrapped then kwpUnwrap (s.ctxKey (dieC tile) 0) b else some b) with
      | some p => if p.length = 64 ∧ (leAt p 48 4 = 16 ∨ leAt p 48 4 = 32) then
          (s.setKcu tile ses (contextKcu p)).kcuEnd tile ses 0 else s.kcuEnd tile ses 3
      | none => s.kcuEnd tile ses 3) := by
  show execKcuRestore tile ses wrapped s = _
  rw [execKcuRestore, hr.withKcu, hx]
  exact congrArg Host.Outcome.next (State.kcuDma_permitted hdma _)

/-- A save writes the context at DST and nothing else of memory. -/
theorem State.kcuSave_writes {x : KcuSes} (hx : s.kcu tile ses = some x) (hwf : Memory.wf s.mem = true) {ok : KcuSes → Bool} (hok : ok x = true)
    {f : KcuSes → Bytes} (hdma : s.rangeFault tile 10 (s.kcuDst tile ses) (f x).length .write = none) :
    let t := s.kcuSave tile ses ok f
    (∀ i < (f x).length, t.load (s.kcuDst tile ses + i) = (f x).getD i 0) ∧
      (∀ a, a < s.kcuDst tile ses ∨ s.kcuDst tile ses + (f x).length ≤ a → t.load a = s.load a) ∧ t = { s with regs := t.regs, mem := t.mem } := by
  intro t
  obtain ⟨r, hend⟩ := (s.stores (s.kcuDst tile ses) (f x)).kcuEnd_only tile ses 0
  have ht : t = { s.stores (s.kcuDst tile ses) (f x) with regs := r } := (State.kcuSave_keyed hr hx hok hdma).trans hend
  refine ⟨fun i hi => ?_, fun a ha => ?_, ?_⟩
  · rw [ht]; exact State.load_stores_inside hwf hi
  · rw [ht]; exact State.load_stores_outside hwf ha
  · obtain ⟨m, hm⟩ := s.stores_only (s.kcuDst tile ses) (f x)
    rw [ht, hm]

end
end

end Sys2Proof.Machine
end

section
/-! Domain key records (R220, R223, R227, R235): what drawing a generation takes, its number, and the operations on records. -/

namespace Sys2Proof.Machine

open Sys2Proof

/-! ## Draws (R220) -/

/-- A draw takes free values and nothing else. -/
theorem State.drawGenOf_free (s : State) (domain gen n : Nat) : ∃ k, (s.drawGenOf domain gen n).2 = { s with free := k } := by
  induction n generalizing s with
  | zero => exact ⟨_, rfl⟩
  | succ n ih =>
    rw [State.drawGenOf]
    split
    · exact ⟨_, rfl⟩
    · obtain ⟨k, hk⟩ := ih (s.drawOnce domain gen).2
      exact ⟨k, hk⟩

theorem State.newRec_free (s : State) (domain : Nat) : ∃ k, (s.newRec domain).2 = { s with free := k } := by
  obtain ⟨k, hk⟩ := State.drawGenOf_free (s.random 32).2 domain 0 Config.genDraws
  exact ⟨k, hk⟩

theorem State.drawOnce_apart {s : State} {domain gen : Nat} {g : KeyGen} (h : (s.drawOnce domain gen).1 = some g) : g.k1 ≠ g.k2 := by
  simp only [State.drawOnce] at h
  split at h
  · cases h
  next hne => exact Option.some.inj h ▸ hne

/-- A generation that is drawn has two different keys. -/
theorem State.drawGenOf_apart {s : State} {domain gen n : Nat} {g : KeyGen} (h : (s.drawGenOf domain gen n).1 = some g) : g.k1 ≠ g.k2 := by
  induction n generalizing s with
  | zero => exact State.drawOnce_apart h
  | succ n ih =>
    rw [State.drawGenOf] at h
    split at h
    · exact State.drawOnce_apart h
    · exact ih h

/-! ## Numbers of generations (R223) -/

/-- The least number from `n` on that is above every number of a list. -/
theorem foldl_max_succ (l : List Nat) (n : Nat) : n ≤ l.foldl (fun n g => max n (g + 1)) n ∧ ∀ g ∈ l, g < l.foldl (fun n g => max n (g + 1)) n := by
  induction l generalizing n with
  | nil => simp
  | cons a l ih =>
    obtain ⟨hn, hl⟩ := ih (max n (a + 1))
    rw [List.foldl_cons]
    refine ⟨by omega, fun g hg => ?_⟩
    rcases List.mem_cons.1 hg with rfl | hg
    · omega
    · exact hl g hg

theorem State.nextGenOf_above {s : State} {r : KeyRec} {gen : Nat} (h : s.nextGenOf r = some gen) :
    gen < 65536 ∧ (∀ g ∈ r.gens, g.gen < gen) ∧ (s.dom r.domain).nextGen ≤ gen := by
  obtain ⟨hdom, hgens⟩ := foldl_max_succ (r.gens.map KeyGen.gen) (s.dom r.domain).nextGen
  unfold State.nextGenOf at h
  dsimp only at h
  split at h
  next hlt =>
    cases h
    exact ⟨hlt, fun g hg => hgens g.gen (List.mem_map_of_mem hg), hdom⟩
  · cases h

/-- A number that is used is below the next of its domain. -/
theorem State.lt_nextGen_useGen (s : State) (domain gen : Nat) : gen < ((s.useGen domain gen).dom domain).nextGen := by
  have h : (s.useGen domain gen).dom domain = { s.dom domain with nextGen := max (s.dom domain).nextGen (gen + 1) } := by
    simp only [State.useGen, State.dom, SMap.getD, SMap.find?_insert, Option.getD_some]
  rw [h]
  exact Nat.lt_of_succ_le (Nat.le_max_right ..)

/-! ## Records (R227, R235) -/

section
variable {s : State} {tile ses : Nat} {awk : Bytes}

theorem State.writeRec_permitted (hawk : s.awkOf tile = some awk) {r : KeyRec}
    (hdma : s.rangeFault tile 10 (s.kcuDst tile ses) (kwpWrap awk r.bytes).length .write = none) :
    s.writeRec tile ses r = (s.stores (s.kcuDst tile ses) (kwpWrap awk r.bytes)).kcuEnd tile ses 0 := by
  simp only [State.writeRec, hawk, State.kcuDma_permitted hdma]

/-- A record that may be read whole is what the AWK unwraps at SRC. -/
theorem State.readRec_permitted (hr : KcuRuns s tile ses) (hawk : s.awkOf tile = some awk)
    (hdma : s.rangeFault tile 10 (s.kcuSrc tile ses) 368 .read = none) (k : KeyRec → State) :
    s.readRec tile ses k = match unwrapRec awk (s.loads (s.kcuSrc tile ses) 368) with
      | some r => k r
      | none => s.kcuEnd tile ses 4 := by
  rw [State.readRec, hr.withKcu]
  cases h : unwrapRec awk (s.loads (s.kcuSrc tile ses) 368) <;> simp [hdma, hawk, h]

/-- A new record is written, wrapped, where the two keys of its generation could be drawn (R220). -/
theorem execKcuRecCreate_wrapped (hr : KcuRuns s tile ses) (hawk : s.awkOf tile = some awk) (domain : Nat) :
    exec (.kcuRecCreate tile ses domain) s = .next (match (s.newRec (domain % 4096)).1 with
      | some r => (s.newRec (domain % 4096)).2.writeRec tile ses r
      | none => (s.newRec (domain % 4096)).2.kcuEnd tile ses 4) := by
  show execKcuRecCreate tile ses domain s = _
  rw [execKcuRecCreate, hr.withKcu, hawk]
  cases h : s.newRec (domain % 4096) with
  | mk r v => cases r <;> rfl

theorem execKcuRecCreate_drawn (hr : KcuRuns s tile ses) (hawk : s.awkOf tile = some awk) {domain : Nat} {r : KeyRec}
    (hrec : (s.newRec (domain % 4096)).1 = some r) (hdma : s.rangeFault tile 10 (s.kcuDst tile ses) (kwpWrap awk r.bytes).length .write = none) :
    exec (.kcuRecCreate tile ses domain) s =
      .next (((s.newRec (domain % 4096)).2.stores (s.kcuDst tile ses) (kwpWrap awk r.bytes)).kcuEnd tile ses 0) := by
  obtain ⟨k, hk⟩ := s.newRec_free (domain % 4096)
  rw [execKcuRecCreate_wrapped hr hawk, hrec, hk]
  exact congrArg Host.Outcome.next (State.writeRec_permitted (s := { s with free := k }) hawk hdma)

end

/-- Settles O38: each operation by its lemma above; what a record operation writes goes through `State.writeRec`. -/
theorem keyCipherUnitOperations : Obligations.KeyCipherUnitOperations := by
  unfold Obligations.KeyCipherUnitOperations
  refine ⟨fun s tile ses c x out chain' hr ho hx hc => ?block, fun s tile ses c hr hx hc => ?unkeyed,
    fun s tile ses x hr hx => execKcuSetChain_keyed hr hx, fun s tile ses hr hx hdma => ?loadWrapped,
    fun s tile ses long hr hx => ⟨fun hon => execKcuLoadClear_enabled hr hx hon long, fun hoff => execKcuLoadClear_disabled hr hx hoff long⟩,
    fun s tile ses c x b hr hx hwf hc hdma => ?save, fun s tile ses x hr hx hclear => execKcuSaveClear_wrapped hr hx hclear,
    fun s tile ses hr hx => ⟨fun hdma => ?restoreClear, fun hdma => ?restoreWrapped⟩, fun s tile ses x hr hx => execKcuClose_keyed hr hx,
    fun s tile ses a c hr hx hdma => ?fault,
    fun s tile ses domain awk hr hawk => ⟨?draws, fun r hrec hdma => execKcuRecCreate_drawn hr hawk hrec hdma, fun hnone => ?undrawn⟩,
    fun s tile ses gen awk hr hawk hdma => ⟨?addGen, ?dropGen⟩, fun s r gen hgen => ?number,
    fun s domain gen g hg => State.drawGenOf_apart hg⟩
  case block =>
    rcases hc with ⟨rfl, rfl, rfl⟩ | ⟨rfl, rfl, rfl⟩ | ⟨rfl, rfl, rfl⟩ | ⟨rfl, rfl, rfl⟩
    all_goals exact ⟨_, congrArg Host.Outcome.next (State.kcuBlock_keyed hr hx _), State.kcuBlockEnd_spec ho tile ses _ _⟩
  case unkeyed =>
    simp only [List.mem_cons, List.not_mem_nil, or_false] at hc
    rcases hc with rfl | rfl | rfl | rfl | rfl | rfl | rfl | rfl
    · exact congrArg Host.Outcome.next (State.kcuBlock_unkeyed hr hx _)
    · exact congrArg Host.Outcome.next (State.kcuBlock_unkeyed hr hx _)
    · exact congrArg Host.Outcome.next (State.kcuBlock_unkeyed hr hx _)
    · exact congrArg Host.Outcome.next (State.kcuBlock_unkeyed hr hx _)
    · exact execKcuSetChain_unkeyed hr hx
    · exact congrArg Host.Outcome.next (State.kcuSave_unkeyed hr hx ..)
    · exact congrArg Host.Outcome.next (State.kcuSave_unkeyed hr hx ..)
    · exact execKcuClose_unkeyed hr hx
  case loadWrapped => exact (execKcuLoadWrapped_unkeyed hr hx).trans (congrArg Host.Outcome.next (State.kcuDma_permitted hdma _))
  case save =>
    rcases hc with ⟨rfl, hclear, rfl⟩ | ⟨rfl, rfl⟩
    · exact ⟨_, rfl, State.kcuSave_writes hr hx hwf hclear hdma⟩
    · exact ⟨_, rfl, State.kcuSave_writes hr hx hwf (ok := fun _ => true) rfl (f := fun x => kwpWrap (s.ctxKey (dieC tile) 0) x.context) hdma⟩
  case restoreClear => exact execKcuRestore_permitted hr hx false hdma
  case restoreWrapped => exact execKcuRestore_permitted hr hx true hdma
  case fault => rw [execKcuLoadWrapped_unkeyed hr hx, State.kcuDma, hdma]
  case draws =>
    obtain ⟨k, hk⟩ := s.newRec_free (domain % 4096)
    rw [hk]
  case undrawn => rw [execKcuRecCreate_wrapped hr hawk, hnone]
  case addGen => exact congrArg Host.Outcome.next (State.readRec_permitted hr hawk hdma _)
  case dropGen => exact congrArg Host.Outcome.next (State.readRec_permitted hr hawk hdma _)
  case number =>
    obtain ⟨hlt, hlive, hused⟩ := State.nextGenOf_above hgen
    exact ⟨hlt, hlive, hused, s.lt_nextGen_useGen r.domain gen⟩

end Sys2Proof.Machine
end

section
/-! GCM lanes (R230 to R233, R240, R245, R475): key loads, the class that is served, packets protected and packets verified. -/

namespace Sys2Proof.Machine

open Sys2Proof

/-! ## The class that a lane serves (R62, R240) -/

/-- A weighted turn goes to a queue that has work. -/
theorem wrrNext_avail {n : Nat} {weight : Nat → Nat} {avail : Nat → Bool} {turn turn' : Nat × Nat} {c : Nat}
    (h : wrrNext n weight avail turn = some (c, turn')) : avail c = true := by
  unfold wrrNext at h
  dsimp only at h
  split at h
  next hcur =>
    cases h
    exact (Bool.and_eq_true_iff.1 hcur).1
  · split at h
    next hq =>
      cases h
      have hsome := List.find?_some hq
      exact (Bool.and_eq_true_iff.1 hsome).1
    · split at h
      next hq =>
        cases h
        exact List.find?_some hq
      · cases h

/-- A lane serves a class that waits, and another class than 0 only while class 0 does not wait; what it notes is the turn. -/
theorem State.gcmClass_spec {s v : State} {waits : Nat → Bool} {key c : Nat} (h : s.gcmClass key waits = some (c, v)) :
    waits c = true ∧ (c ≠ 0 → waits 0 = false) ∧ v = { s with dst := { s.dst with turns := v.dst.turns } } := by
  unfold State.gcmClass at h
  split at h
  next h0 =>
    cases h
    exact ⟨h0, fun hne => absurd rfl hne, rfl⟩
  next h0 =>
    obtain ⟨⟨c', turn⟩, hnext, e⟩ := Option.map_eq_some_iff.1 h
    cases e
    exact ⟨(Bool.and_eq_true_iff.1 (wrrNext_avail hnext)).2, fun _ => Bool.eq_false_iff.2 h0, rfl⟩

/-! ## Key loads (R232) -/

section
variable {s : State} {tile entry load : Nat}

/-- A load under a count above the entry's last lists the key that the AWK unwraps, or none, with counter 0. -/
theorem execGcmKeyLoad_higher (htile : tile < s.variant.tiles)
    (hload : ∀ e, s.keys.gcm.find? (gcmKey tile entry) = some e → e.load < load % 2 ^ 28) :
    let key := ((s.awkOf tile).bind fun k => kwpUnwrap k (s.loads (s.fld (dieC tile) Reg.GCM_LOAD_ADDR_ADDR) 40)).filter fun k => decide (k.length = 32)
    let u : State := { s with keys := { s.keys with gcm := s.keys.gcm.insert (gcmKey tile entry) { key := key, load := load % 2 ^ 28, ctr := 0 } } }
    exec (.gcmKeyLoad tile entry load) s =
      .next (u.setFld (dieC tile) Reg.GCM_STATUS_LOADED (u.keys.gcm.filter fun kv => kv.1 / 256 == tile && kv.2.key.isSome).length) := by
  intro key u
  have hnew : ((s.keys.gcm.find? (gcmKey tile entry)).map fun e => decide (load % 2 ^ 28 ≤ e.load)).getD false = false := by
    cases h : s.keys.gcm.find? (gcmKey tile entry) with
    | none => rfl
    | some e => simpa using hload e h
  show execGcmKeyLoad tile entry load s = _
  simp only [execGcmKeyLoad, if_neg (Nat.not_le.2 htile), hnew, Bool.false_eq_true, if_false]
  rfl

/-- One under a count not above it is refused and counted. -/
theorem execGcmKeyLoad_refused {e : GcmEnt} (htile : tile < s.variant.tiles) (he : s.keys.gcm.find? (gcmKey tile entry) = some e)
    (hload : load % 2 ^ 28 ≤ e.load) :
    exec (.gcmKeyLoad tile entry load) s = .next (s.addFld (dieC tile) Reg.GCM_ERR_LOAD_REFUSED 1) := by
  show execGcmKeyLoad tile entry load s = _
  simp only [execGcmKeyLoad, if_neg (Nat.not_le.2 htile), he, Option.map_some, Option.getD_some, hload, decide_true, if_true]

end

/-! ## A packet is protected (R230, R231, R475) -/

/-- A packet waits for a lane of the tile, in a class: it is of a session whose GCM work is done on that tile (R245). -/
def State.gcmDue (s : State) (tile c : Nat) (p : PgTx) : Bool :=
  (s.sess (sessKey p.fdie p.session)).any fun x => s.laneTile .gcm x.d.tile == some tile && x.d.cls == c

/-- An entry with a key protects a packet under its counter, which goes on. -/
theorem State.gcmSeal_keyed {s : State} {tile entry : Nat} {e : GcmEnt} {k : Bytes} (he : s.keys.gcm.find? (gcmKey tile entry) = some e)
    (hk : e.key = some k) (aad pt : Bytes) :
    s.gcmSeal tile entry aad pt =
      ({ s with keys := { s.keys with gcm := s.keys.gcm.insert (gcmKey tile entry) { e with ctr := e.ctr + 1 } } },
        some (s.gcmIv tile e, (gcmEnc k (s.gcmIv tile e) aad pt).1, (gcmEnc k (s.gcmIv tile e) aad pt).2)) := by
  simp only [State.gcmSeal, he, hk]

/-- The state in which the entry of a packet's session has been counted on and the packet waits no more. -/
def State.gcmTaken (s : State) (x : Sess) (e : GcmEnt) (due : PgTx → Bool) : State :=
  { s with keys := { s.keys with gcm := s.keys.gcm.insert (gcmKey x.d.tile x.d.txEntry) { e with ctr := e.ctr + 1 } },
           pgt := { s.pgt with tx := s.pgt.tx.eraseP due } }

/-- The frame that a protected packet is queued as (R475, R477). -/
def State.pgFrame (s : State) (x : Sess) (p : PgTx) : TxFrame :=
  { cls := x.d.cls, control := false, size := s.pgFrameSize p.port x.d.ipv6 p.payload.length, qp := none, adopted := false, ip := true,
    who := some (.path p.fdie p.hdr.session (p.port % 4 * 16 + p.hdr.path)) }

/-- A lane that serves a class protects the first packet of it, queues its frame and sends it. -/
theorem State.gcmEncrypt_due {s v : State} {tile c : Nat} {p : PgTx} {x : Sess} {e : GcmEnt} {k : Bytes}
    (hc : s.gcmClass (tile * 8 + LaneKind.gcm.num) (fun c => s.pgt.tx.any (s.gcmDue tile c)) = some (c, v))
    (hp : s.pgt.tx.find? (s.gcmDue tile c) = some p) (hx : s.sess (sessKey p.fdie p.session) = some x)
    (he : s.keys.gcm.find? (gcmKey x.d.tile x.d.txEntry) = some e) (hk : e.key = some k) :
    let h := { p.hdr with iv := s.gcmIv x.d.tile e }
    let u := v.gcmTaken x e (s.gcmDue tile c)
    s.gcmEncrypt tile =
      ((u.queueFrame p.port (u.pgFrame x p)).emit (.pronghorn p.fdie p.port (x.d.sportBase + p.hdr.path) x.d.raddr
        (h.bytes ++ (gcmEnc k h.iv h.bytes p.payload).1 ++ (gcmEnc k h.iv h.bytes p.payload).2))).pgSent (sessKey p.fdie p.session) x p := by
  intro h u
  obtain ⟨-, -, hv⟩ := State.gcmClass_spec hc
  have hpgt : v.pgt = s.pgt := by rw [hv]
  have hkeys : v.keys = s.keys := by rw [hv]
  have hiv : v.gcmIv x.d.tile e = s.gcmIv x.d.tile e := by rw [hv]; rfl
  have hxv : v.sess (sessKey p.fdie p.session) = some x := by rw [State.sess, hpgt]; exact hx
  have hev : v.keys.gcm.find? (gcmKey x.d.tile x.d.txEntry) = some e := by rw [hkeys]; exact he
  rw [← hpgt] at hp
  unfold State.gcmDue at hc hp
  simp only [State.gcmEncrypt, hc, hp, hxv, hev, State.gcmSeal_keyed hev hk, hiv]
  rfl

/-- Once a packet has left its lane, only counters and its session change. -/
theorem State.pgSent_only (s : State) (k : Nat) (x : Sess) (p : PgTx) : ∃ r g, s.pgSent k x p = { s with regs := r, pgt := g } := by
  unfold State.pgSent
  dsimp only
  split
  · exact ⟨_, _, rfl⟩
  · split
    all_goals split
    all_goals exact ⟨_, _, rfl⟩

/-- Queueing a frame and sending its packet sends just that, and leaves keys, memory and journal alone. -/
theorem State.gcmSend_only (u : State) (port : Nat) (f : TxFrame) (o : Out) (k : Nat) (x : Sess) (p : PgTx) :
    let t := ((u.queueFrame port f).emit o).pgSent k x p
    t.keys = u.keys ∧ o ∈ t.out ∧ t.mem = u.mem ∧ t.jrnl = u.jrnl := by
  obtain ⟨q, m, l, hqueue⟩ := u.queueFrame_frontOnly port f
  obtain ⟨r, g, hsent⟩ := ((u.queueFrame port f).emit o).pgSent_only k x p
  intro t
  have ht : t = { (u.queueFrame port f).emit o with regs := r, pgt := g } := hsent
  rw [ht, hqueue]
  exact ⟨rfl, List.mem_append_right _ (List.mem_singleton_self o), rfl, rfl⟩

/-! ## A packet is verified (R233, R240, R476) -/

/-- The first packet of the class that is served at a port reaches its lane: R481 and R491 do not turn it away, and a tile has lanes for it. -/
structure PgReaches (s v : State) (p c n : Nat) (d : RxDest) (ce : Bool) (u : Bytes) (x : Sess) : Prop where
  turn : s.gcmClass (1024 + p) (fun c => (s.pgFirst p c).isSome) = some (c, v)
  first : s.pgFirst p c = some (d, ce, n, u)
  whole : 56 ≤ u.length
  ver : (PgHdr.ofBytes u).ver = 1
  ty : 1 ≤ (PgHdr.ofBytes u).ty ∧ (PgHdr.ofBytes u).ty ≤ 4
  sess : s.sess (sessKey (p / 4) (PgHdr.ofBytes u).session) = some x
  size : n = 8 + 40 + (PgHdr.ofBytes u).plen + 16 ∧ u.length = 56 + (PgHdr.ofBytes u).plen
  load : x.rxLoad ≤ (PgHdr.ofBytes u).load
  lane : (s.laneTile .gcm x.d.tile).isSome = true

/-- The state in which a packet has left the receive buffer and is counted. -/
def State.pgReceived (s : State) (p : Nat) (d : RxDest) : State := (s.leaveRx p d).pgCount (p / 4) 1 1

theorem State.pgReceived_only (s : State) (p : Nat) (d : RxDest) : ∃ r m, s.pgReceived p d = { s with regs := r, rdma := m } := ⟨_, _, rfl⟩

/-- What follows the answer of the lane: the packet joins the received ones with its payload, or is counted as one whose tag failed. -/
def State.pgAnswered (p : Nat) (ce : Bool) (h : PgHdr) : State × Option Bytes → State
  | (s, none) => s.pgCount (p / 4) 4 1
  | (s, some b) => { s with pgt := { s.pgt with rx := s.pgt.rx ++ [{ fdie := p / 4, port := p, ce := ce, hdr := h, payload := b }] } }

section
variable {s : State} {tile entry : Nat} {k : Bytes} (hk : (s.keys.gcm.find? (gcmKey tile entry)).bind GcmEnt.key = some k)
  {iv aad ct tag : Bytes}
include hk

theorem State.gcmOpen_verified {b : Bytes} (h : gcmDec k iv aad ct tag = some b) : s.gcmOpen tile entry iv aad ct tag = (s, some b) := by
  simp only [State.gcmOpen, hk, h]

theorem State.gcmOpen_failed (h : gcmDec k iv aad ct tag = none) :
    s.gcmOpen tile entry iv aad ct tag = (s.addFld (dieC tile) Reg.GCM_ERR_TAG_FAIL 1, none) := by
  simp only [State.gcmOpen, hk, h]

end

/-- A packet that reaches its lane leaves the buffer and is opened with the entry of its session. -/
theorem PgReaches.gcmDecrypt {s v : State} {p c n : Nat} {d : RxDest} {ce : Bool} {u : Bytes} {x : Sess} (h : PgReaches s v p c n d ce u x) :
    s.gcmDecrypt p = State.pgAnswered p ce (PgHdr.ofBytes u) ((v.pgReceived p d).gcmOpen x.d.tile x.d.rxEntry (PgHdr.ofBytes u).iv (u.take 40)
      ((u.drop 40).take (PgHdr.ofBytes u).plen) (u.drop (40 + (PgHdr.ofBytes u).plen))) := by
  obtain ⟨hturn, hfirst, hwhole, hver, hty, hsess, hsize, hload, hlane⟩ := h
  have hform : ¬ (u.length < 56 ∨ (PgHdr.ofBytes u).ver ≠ 1 ∨ (PgHdr.ofBytes u).ty < 1 ∨ 4 < (PgHdr.ofBytes u).ty) := by omega
  have hlen : ¬ (n ≠ 8 + 40 + (PgHdr.ofBytes u).plen + 16 ∨ u.length ≠ 56 + (PgHdr.ofBytes u).plen) := by omega
  have hnone : ¬ (s.laneTile .gcm x.d.tile).isNone = true := by simp [Option.isNone_iff_eq_none, Option.isSome_iff_ne_none.1 hlane]
  simp only [State.gcmDecrypt, hturn, hfirst, if_neg hform, hsess, if_neg hlen, if_neg (Nat.not_lt.2 hload), if_neg hnone]
  rfl

/-- Settles O39: a load by its count, a packet to send by `State.gcmEncrypt_due`, a received one by what `State.gcmOpen` answers. -/
theorem gcmKeysPacketsAndTags : Obligations.GcmKeysPacketsAndTags := by
  unfold Obligations.GcmKeysPacketsAndTags
  refine ⟨fun s tile entry load htile hload => ?load, fun s tile entry load e htile he hload => execGcmKeyLoad_refused htile he hload,
    fun s v tile c p x e k hlanes hc hp hx he hk => ?encrypt,
    fun s v p c n d ce u k x hturn hfirst hwhole hver hlo hhi hsess hn hlen hload hlane hk => ?decrypt,
    fun s waits key c v hc => State.gcmClass_spec hc⟩
  case load => exact ⟨_, execGcmKeyLoad_higher htile hload, SMap.find?_insert .., rfl⟩
  case encrypt =>
    obtain ⟨-, -, hv⟩ := State.gcmClass_spec hc
    obtain ⟨hkeys, hout, hmem, hjrnl⟩ := State.gcmSend_only (v.gcmTaken x e (s.gcmDue tile c)) p.port (State.pgFrame _ x p) _ (sessKey p.fdie p.session) x p
    refine ⟨_, (if_neg hlanes).trans (congrArg Host.Outcome.next (State.gcmEncrypt_due hc hp hx he hk)), ?_, hout, hmem.trans ?_, hjrnl.trans ?_⟩
    · rw [hkeys]
      exact SMap.find?_insert ..
    · show v.mem = s.mem
      rw [hv]
    · show v.jrnl = s.jrnl
      rw [hv]
  case decrypt =>
    have hreach : PgReaches s v p c n d ce u x := ⟨hturn, hfirst, hwhole, hver, ⟨hlo, hhi⟩, hsess, ⟨hn, hlen⟩, hload, hlane⟩
    obtain ⟨-, -, hv⟩ := State.gcmClass_spec hturn
    obtain ⟨r, m, hreceived⟩ := v.pgReceived_only p d
    have hk' : ((v.pgReceived p d).keys.gcm.find? (gcmKey x.d.tile x.d.rxEntry)).bind GcmEnt.key = some k := by
      rw [hreceived, hv]; exact hk
    refine ⟨fun b hb => ⟨_, congrArg Host.Outcome.next (hreach.gcmDecrypt.trans (congrArg _ (State.gcmOpen_verified hk' hb))), ?_⟩,
      fun hb => ⟨_, congrArg Host.Outcome.next (hreach.gcmDecrypt.trans (congrArg _ (State.gcmOpen_failed hk' hb))), ?_⟩⟩
    · rw [hreceived, hv]; exact ⟨rfl, rfl, rfl⟩
    · rw [hreceived, hv]; exact ⟨rfl, rfl, rfl⟩

end Sys2Proof.Machine
end

section
/-! The map cache (R263 to R269, R308): which lane a lookup takes, how it is served, how a fill and the write of a line end. -/

namespace Sys2Proof.Machine

open Sys2Proof

/-! ## Lanes (R263) -/

/-- A lookup that no reserved lane takes goes to the lane of its page. -/
theorem execMapLookup_laneOfPage {s : State} {pid cls : Nat} (hon : s.mapOn (s.mapDie pid) = true) (hc : cls ≠ 0 ∨ s.c0Lanes (s.mapDie pid) = 0)
    (entry tag : Nat) : exec (.mapLookup pid entry tag cls) s = .next (s.lookup
      { die := s.mapDie pid, lane := s.mapLane pid, pageid := pid, entry := entry, tag := tag, cls := cls, miss := false, behind := false }).settle := by
  have hres : (decide (cls = 0) && decide (0 < s.c0Lanes (s.mapDie pid))) = false := by
    rcases hc with hc | hc <;> simp [hc]
  show execMapLookup pid entry tag cls s = _
  simp [execMapLookup, hon, hres]

/-- A lookup of class 0 goes to the next of the reserved lanes. -/
theorem execMapLookup_reserved {s : State} {pid : Nat} (hon : s.mapOn (s.mapDie pid) = true) (hc : 0 < s.c0Lanes (s.mapDie pid)) (entry tag : Nat) :
    exec (.mapLookup pid entry tag 0) s = .next (State.settle (State.lookup
      { s with ftl := { s.ftl with rr := s.ftl.rr.insert (s.mapDie pid) (s.ftl.rr.getD (s.mapDie pid) 0 + 1) } }
      { die := s.mapDie pid, lane := s.ftl.rr.getD (s.mapDie pid) 0 % s.c0Lanes (s.mapDie pid), pageid := pid, entry := entry, tag := tag, cls := 0,
        miss := false, behind := false })) := by
  show execMapLookup pid entry tag 0 s = _
  simp [execMapLookup, hon, hc]

/-! ## Lines -/

theorem State.line_setLine_same (s : State) (pid : Nat) (x : Line) : (s.setLine pid x).line pid = some x := SMap.find?_insert ..

/-- A line written for a page that has one leaves every other page's. -/
theorem State.line_setLine_of_listed {s : State} {pid : Nat} {x : Line} (h : s.line pid = some x) (y : Line) (k : Nat) :
    (s.setLine pid y).line k = if k = pid then some y else s.line k := SMap.find?_insert_of_listed h y k

/-- What changes lines alone. -/
def LinesOnly (s t : State) : Prop := ∃ m, t = { s with ftl := { s.ftl with lines := m } }

theorem LinesOnly.setLine {s t : State} (h : LinesOnly s t) (pid : Nat) (x : Line) : LinesOnly s (t.setLine pid x) := by
  obtain ⟨m, rfl⟩ := h
  exact ⟨_, rfl⟩

/-- Touching a page changes ages alone, and makes its own line the newest. -/
theorem State.touch_listed {s : State} {pid : Nat} {x : Line} (h : s.line pid = some x) :
    LinesOnly s (s.touch pid) ∧ (s.touch pid).line pid = some { x with age := 0 } := by
  unfold State.touch
  rw [h]
  refine ⟨LinesOnly.setLine (List.foldlRecOn (motive := LinesOnly s) _ _ ⟨_, rfl⟩ fun t ht k _ => ?_) _ _, State.line_setLine_same ..⟩
  split
  · split
    · exact ht.setLine _ _
    · exact ht
  · exact ht

/-! ## Lookups (R265) -/

section
variable {s : State} {l : Look}

theorem State.lookup_notBehind (h : (s.ftl.looks.any fun y => y.behind && y.die == l.die && y.lane == l.lane) = false) :
    s.lookup l = s.serveLook l := by
  simp [State.lookup, h]

/-- A lookup that finds its page valid is counted and answered at once. -/
theorem State.serveLook_valid {x : Line} (hx : s.line l.pageid = some x) (hv : x.v = true) :
    ∃ u : State, LinesOnly (s.addFld (dieM l.die) Reg.MAP_LOOKUP_HITS 1) u ∧ u.line l.pageid = some { x with age := 0, pf := false } ∧
      s.serveLook l = u.answerLook l true := by
  obtain ⟨honly, hline⟩ := State.touch_listed (s := s.addFld (dieM l.die) Reg.MAP_LOOKUP_HITS 1) hx
  refine ⟨_, honly.setLine l.pageid { x with age := 0, pf := false }, State.line_setLine_same .., ?_⟩
  simp only [State.serveLook, hx, hv, if_true, hline]

/-- A lookup of a page that is being filled waits outside the miss slot. -/
theorem State.serveLook_filling {x : Line} (hx : s.line l.pageid = some x) (hv : x.v = false) :
    s.serveLook l = { s with ftl := { s.ftl with looks := s.ftl.looks ++ [{ l with miss := false, behind := false }] } } := by
  simp [State.serveLook, hx, hv]

/-- While the lane holds a miss, a lookup that misses waits behind it. -/
theorem State.lookup_behindMiss (hx : s.line l.pageid = none)
    (hmiss : (s.ftl.looks.any fun y => y.miss && y.die == l.die && y.lane == l.lane) = true) :
    s.lookup l = { s with ftl := { s.ftl with looks := s.ftl.looks ++ [{ l with behind := true }] } } := by
  simp only [State.lookup, State.serveLook, hx, if_pos hmiss, ite_self]

end

/-! ## Fills (R267, R308) -/

section
variable {s : State} {pid cls : Nat} {again : Bool} {d : DirEnt}

/-- A codeword with the CRC of the directory: the fill is over, and the page is not a failed one. -/
theorem execMapFillDone_good {b : Bytes} {x : Line} (hfill : s.ftl.fills.find? pid = some { cls := cls, again := again, got := some (some b) })
    (hdir : s.ftl.dir.find? pid = some d) (hcrc : (crc32c (padTo 4096 b)).toNat = d.crc) (hx : s.line pid = some x) :
    exec (.mapFillDone pid) s = .next ((((State.setLine
      { s with ftl := { s.ftl with fills := s.ftl.fills.erase pid, badPages := s.ftl.badPages.filter (· != pid) } } pid
      { x with v := true, b := false, pf := x.pf && !s.ftl.looks.any fun x => !x.behind && x.pageid == pid }).rangeFill
        (s.mapDie pid) pid true 0).endLooks pid true).settle) := by
  have hline : ∀ f g, State.line { s with ftl := { s.ftl with fills := f, badPages := g } } pid = some x := fun _ _ => hx
  show Host.Outcome.next (s.fillDone pid).settle = _
  simp only [State.fillDone, hfill, hdir, hcrc, BEq.rfl, if_true, hline]
  rfl

/-- A codeword that fails again, or none at all, fails the page. -/
theorem execMapFillDone_failed {b : Option Bytes} (hfill : s.ftl.fills.find? pid = some { cls := cls, again := again, got := some b })
    (hlast : again = true ∨ b = none) (hdir : s.ftl.dir.find? pid = some d) (hcrc : ∀ x, b = some x → (crc32c (padTo 4096 x)).toNat ≠ d.crc) :
    exec (.mapFillDone pid) s = .next (s.pageFailed pid).settle := by
  show Host.Outcome.next (s.fillDone pid).settle = _
  cases b with
  | none => simp [State.fillDone, hfill, hdir]
  | some x =>
    have hagain : again = true := hlast.resolve_right nofun
    simp [State.fillDone, hfill, hdir, hcrc x rfl, hagain]

end

/-! ## Writes of lines (R269) -/

/-- The write of a page that no range operation waits for ends with its line. -/
theorem execMapLineWritebackDone_current {s : State} {pid : Nat} {x : Line} {d : DirEnt} (hx : s.line pid = some x)
    (hdir : s.ftl.dir.find? pid = some d) (hw : x.writing = some d.maddr)
    (hfree : (s.ftl.range.find? (s.mapDie pid)).all (fun r => !r.todo.contains pid) = true) :
    exec (.mapLineWritebackDone pid) s = .next (State.settle (s.setLine pid (match x.changed with
      | some lsn => { x with writing := none, changed := none, dlsn := lsn }
      | none => { x with writing := none, d := false, dlsn := 0 }))) := by
  have hrange : ∀ y, (s.setLine pid y).ftl.range.find? ((s.setLine pid y).mapDie pid) = s.ftl.range.find? (s.mapDie pid) := fun _ => rfl
  show Host.Outcome.next (s.writebackDone pid).settle = _
  simp only [State.writebackDone, hx, hdir, hw, ne_eq, not_true_eq_false, if_false, hrange]
  cases hr : s.ftl.range.find? (s.mapDie pid) with
  | none => rfl
  | some r =>
    have hno : r.todo.contains pid = false := by simpa [hr] using hfree
    simp only [hno]
    rfl

/-- Settles O40: a lookup by its lane and by what it finds, a fill by its codeword, a written line by what changed meanwhile. -/
theorem mapLookupsFillsAndWrites : Obligations.MapLookupsFillsAndWrites := by
  unfold Obligations.MapLookupsFillsAndWrites
  refine ⟨fun s pid entry tag cls hon hc => execMapLookup_laneOfPage hon hc entry tag,
    fun s pid entry tag hon hc => execMapLookup_reserved hon hc entry tag,
    fun s l x hbehind hx hv => ?valid,
    fun s l x hbehind hx hv => (State.lookup_notBehind hbehind).trans (State.serveLook_filling hx hv),
    fun s l hx hmiss => State.lookup_behindMiss hx hmiss,
    fun s pid cls again b d x hfill hdir hcrc hx => ?good,
    fun s pid cls again b d hfill hlast hdir hcrc => execMapFillDone_failed hfill hlast hdir hcrc,
    fun s pid x d hx hdir hw hfree => execMapLineWritebackDone_current hx hdir hw hfree⟩
  case valid =>
    obtain ⟨u, ⟨m, rfl⟩, hline, hserved⟩ := State.serveLook_valid hx hv
    rw [State.lookup_notBehind hbehind, hserved]
    exact ⟨_, rfl, rfl, hline, rfl, rfl, hv, rfl⟩
  case good =>
    refine ⟨_, execMapFillDone_good hfill hdir hcrc hx, rfl, rfl, ?_, fun k hk => ?_⟩
    · rw [State.line_setLine_same]; rfl
    · exact (State.line_setLine_of_listed hx _ k).trans (if_neg hk)

end Sys2Proof.Machine
end

section
/-! Sparse maps in order: what they list, and a change of every listed value. -/

namespace Sys2Proof.SMap

variable {V W : Type}

/-- A pair that a map in order lists is what its key reads. -/
theorem find?_of_mem {m : SMap V} (h : m.rising = true) {x : Nat × V} (hx : x ∈ m) : SMap.find? m x.1 = some x.2 := by
  rw [rising_iff] at h
  induction m with
  | nil => cases hx
  | cons y m ih =>
    obtain ⟨hlt, hm⟩ := List.pairwise_cons.1 h
    rcases List.mem_cons.1 hx with rfl | hx
    · simp [find?]
    · have := hlt x hx
      simp only [find?]
      rw [if_neg (by omega), if_neg (by omega), ih hm hx]

theorem mem_of_find? {m : SMap V} {a : Nat} {v : V} (h : SMap.find? m a = some v) : (a, v) ∈ m := by
  induction m with
  | nil => cases h
  | cons y m ih =>
    obtain ⟨k, w⟩ := y
    simp only [find?] at h
    split at h
    next heq => cases h; exact heq ▸ .head _
    · split at h
      · cases h
      · exact .tail _ (ih h)

theorem has_iff_mem_keys {m : SMap V} (h : m.rising = true) (a : Nat) : SMap.has m a = true ↔ a ∈ SMap.keys m := by
  refine ⟨fun ha => ?_, fun ha => ?_⟩
  · obtain ⟨v, hv⟩ := Option.isSome_iff_exists.1 ha
    exact List.mem_map.2 ⟨(a, v), mem_of_find? hv, rfl⟩
  · obtain ⟨x, hx, rfl⟩ := List.mem_map.1 ha
    exact Option.isSome_iff_exists.2 ⟨_, find?_of_mem h hx⟩

theorem nodup_keys {m : SMap V} (h : m.rising = true) : (SMap.keys m).Nodup :=
  List.pairwise_map.2 (((rising_iff m).1 h).imp Nat.ne_of_lt)

theorem rising_insert {m : SMap V} (h : m.rising = true) (a : Nat) (v : V) : SMap.rising (SMap.insert m a v) = true :=
  (rising_iff _).2 (pairwise_insert ((rising_iff _).1 h) a v)

theorem rising_erase {m : SMap V} (h : m.rising = true) (a : Nat) : SMap.rising (SMap.erase m a) = true :=
  (rising_iff _).2 (pairwise_erase ((rising_iff _).1 h) a)

theorem rising_mapV {m : SMap V} (h : m.rising = true) (f : Nat → V → W) : SMap.rising (SMap.mapV m f) = true :=
  (rising_iff _).2 (List.pairwise_map.2 ((rising_iff _).1 h))

theorem find?_mapV (m : SMap V) (f : Nat → V → W) (a : Nat) : SMap.find? (SMap.mapV m f) a = (SMap.find? m a).map (f a) := by
  induction m with
  | nil => rfl
  | cons y m ih =>
    obtain ⟨k, v⟩ := y
    show (if a = k then some (f k v) else if a < k then none else SMap.find? (SMap.mapV m f) a) = _
    simp only [find?, ih]
    split
    next heq => rw [heq]; rfl
    · split <;> rfl

/-- A test that a change of the values does not affect keeps the same keys. -/
theorem keys_keep_mapV (m : SMap V) {f : Nat → V → V} {p : Nat → V → Bool} (h : ∀ k v, p k (f k v) = p k v) :
    SMap.keys (SMap.keep (SMap.mapV m f) p) = SMap.keys (SMap.keep m p) := by
  simp only [keys, keep, mapV, List.filter_map, List.map_map, Function.comp_def, h]

end Sys2Proof.SMap
end

section
/-! The range engine (R272 to R274): how a range operation begins, what the turn of each page in it does, and what all of them do together. -/

namespace Sys2Proof.Machine

open Sys2Proof

/-! ## Beginning -/

theorem State.setRange_setRange (s : State) (die : Nat) (r t : RangeOp) : (s.setRange die r).setRange die t = s.setRange die t :=
  congrArg (fun m => { s with ftl := { s.ftl with range := m } }) (SMap.insert_insert ..)

/-- An engine that is busy loses the command. -/
theorem State.startRange_busy {s : State} {die : Nat} (hpop : s.variant.populated (dieM die) = true) (hon : s.mapOn die = true)
    (hbusy : s.flag (dieM die) Reg.MAP_RANGE_STATUS_BUSY = true) (op : Nat) :
    s.startRange die op = s.setFlag (dieM die) Reg.MAP_RANGE_STATUS_LOST true := by
  simp [State.startRange, State.startRangeOn, hpop, hon, hbusy]

/-- The place of a page depends on no status of a range engine. -/
theorem State.mapDie_setBusy {s : State} (h : s.Ordered) (die pid : Nat) :
    (s.setFlag (dieM die) Reg.MAP_RANGE_STATUS_BUSY true).mapDie pid = s.mapDie pid := by
  have hkey : regKey (dieM 0) Reg.MAP_CTRL_SETS_LOG2.blk Reg.MAP_CTRL_SETS_LOG2.off ≠
      regKey (dieM die) Reg.MAP_RANGE_STATUS_BUSY.blk Reg.MAP_RANGE_STATUS_BUSY.off := by
    simp only [regKey, Reg.MAP_CTRL_SETS_LOG2, Reg.MAP_RANGE_STATUS_BUSY]
    omega
  have hsets : (s.setFlag (dieM die) Reg.MAP_RANGE_STATUS_BUSY true).setsLog2 = s.setsLog2 :=
    congrArg (fun n => max 0x0A (min 0x18 n)) (State.fld_setFld_ne h _ hkey)
  simp only [State.mapDie, State.setFlag_variant, hsets]

theorem State.rising_inRange {s : State} (h : s.ftl.lines.rising = true) (die : Nat) : (s.inRange die).rising = true := by
  unfold State.inRange State.rangeLines
  exact SMap.rising_keep h _

theorem State.line_of_mem_inRange {s : State} (h : s.ftl.lines.rising = true) {die : Nat} {kx : Nat × Line} (hm : kx ∈ s.inRange die) :
    s.line kx.1 = some kx.2 := SMap.find?_of_mem h (List.mem_of_mem_filter hm)

/-! ## The turn of a page -/

/-- A record after the turn of a page. -/
def RangeOp.pageDone (r : RangeOp) (pid : Nat) (acted : Bool) (err : Nat) : RangeOp :=
  { r with todo := r.todo.filter (· != pid), lines := r.lines + (if acted then 1 else 0), err := if err = 0 then r.err else err }

theorem State.rangeStep_running {s : State} {die : Nat} {r : RangeOp} (h : s.ftl.range.find? die = some r) (pid : Nat) (acted : Bool) (err : Nat) :
    s.rangeStep die pid acted err = s.setRange die (r.pageDone pid acted err) := by
  simp only [State.rangeStep, h]
  rfl

/-- A range operation of a die runs, with a record, in a state that has changed no more than `Q` allows. -/
structure Ranging (die : Nat) (Q : State → Prop) (r : RangeOp) (u : State) : Prop where
  rising : u.ftl.lines.rising = true
  record : u.ftl.range.find? die = some r
  frame : Q u

/-- The turn `f` of a page with a line makes `eff` of this line and `rec` of the record, and leaves the lines of other pages. -/
def IsTurn (die : Nat) (Q : State → Prop) (eff : Line → Option Line) (rec : Nat → Line → RangeOp → RangeOp) (f : State → Nat → State) : Prop :=
  ∀ ⦃u k x r⦄, Ranging die Q r u → u.line k = some x →
    Ranging die Q (rec k x r) (f u k) ∧ ∀ j, (f u k).line j = if j = k then eff x else u.line j

/-- The turns of different pages, one after another. -/
theorem IsTurn.fold {die : Nat} {Q : State → Prop} {eff : Line → Option Line} {rec : Nat → Line → RangeOp → RangeOp} {f : State → Nat → State}
    (hf : IsTurn die Q eff rec f) {l : SMap Line} (hl : l.keys.Nodup) {u : State} {r : RangeOp} (hu : Ranging die Q r u)
    (hlines : ∀ kx ∈ l, u.line kx.1 = some kx.2) :
    Ranging die Q (l.foldl (fun r kx => rec kx.1 kx.2 r) r) (l.keys.foldl f u) ∧
      ∀ j, (l.keys.foldl f u).line j = if j ∈ l.keys then (u.line j).bind eff else u.line j := by
  induction l generalizing u r with
  | nil => exact ⟨hu, fun j => (if_neg List.not_mem_nil).symm⟩
  | cons y l ih =>
    obtain ⟨k, x⟩ := y
    obtain ⟨(hk : k ∉ SMap.keys l), hl⟩ := List.nodup_cons.1 hl
    have hx : u.line k = some x := hlines (k, x) (.head _)
    obtain ⟨hu', hline⟩ := hf hu hx
    have hrest : ∀ kx ∈ l, (f u k).line kx.1 = some kx.2 := fun kx hm => by
      have hne : kx.1 ≠ k := fun e => hk (List.mem_map.2 ⟨kx, hm, e⟩)
      rw [hline, if_neg hne, hlines kx (.tail _ hm)]
    obtain ⟨hend, hlines'⟩ := ih hl hu' hrest
    refine ⟨hend, fun j => (hlines' j).trans ?_⟩
    rw [hline]
    show (if j ∈ SMap.keys l then _ else _) = if j ∈ k :: SMap.keys l then _ else _
    by_cases hj : j = k
    · subst hj; simp [hk, hx]
    · simp [hj]

/-! ## INVALIDATE and CLEAN_INV -/

/-- What dropping lines of a range changes: lines, the record, counts, the ordered index. -/
def DropsOnly (s t : State) : Prop :=
  ∃ r m g c, t = { s with regs := r, ftl := { s.ftl with lines := m, range := g }, csa := c }

theorem DropsOnly.setRange {s t : State} (h : DropsOnly s t) (die : Nat) (r : RangeOp) : DropsOnly s (t.setRange die r) := by
  obtain ⟨_, _, _, _, rfl⟩ := h
  exact ⟨_, _, _, _, rfl⟩

/-- A page's turn of INVALIDATE or CLEAN_INV: its line is dropped where it may be, and skipped with ERR 3 where not (R273). -/
def State.dropTurn (s : State) (die k : Nat) : State :=
  match s.line k with
  | some l => if l.droppable then (s.dropLine k).rangeStep die k true 0 else s.rangeStep die k false 3
  | none => s.rangeStep die k false 0

theorem State.ordDrop_only (s : State) (nsid leaf : Nat) : ∃ c, s.ordDrop nsid leaf = { s with csa := c } := by
  unfold State.ordDrop
  extract_lets d
  split
  · exact ⟨_, rfl⟩
  · exact ⟨_, rfl⟩

/-- A dropped line leaves the lines; the count of unused prefetches and the ordered index follow it. -/
theorem State.dropLine_only (s : State) (pid : Nat) :
    ∃ r c, s.dropLine pid = { s with regs := r, csa := c, ftl := { s.ftl with lines := s.ftl.lines.erase pid } } := by
  have hleaf : ∃ c, (if pKind pid = 2 then s.ordDrop (pOwner pid + 1) pid else s) = { s with csa := c } := by
    split
    · exact s.ordDrop_only _ _
    · exact ⟨_, rfl⟩
  obtain ⟨c, hc⟩ := hleaf
  unfold State.dropLine
  rw [hc]
  extract_lets t v
  have hv : ∃ r, v = { t with regs := r } := by
    simp only [v]
    split
    · split <;> exact ⟨_, rfl⟩
    · exact ⟨_, rfl⟩
  obtain ⟨r, hv⟩ := hv
  exact ⟨r, c, congrArg (fun v : State => { v with ftl := { v.ftl with lines := v.ftl.lines.erase pid } }) hv⟩

theorem DropsOnly.dropLine {s t : State} (h : DropsOnly s t) (pid : Nat) : DropsOnly s (t.dropLine pid) := by
  obtain ⟨_, _, hdrop⟩ := t.dropLine_only pid
  rw [hdrop]
  obtain ⟨_, _, _, _, rfl⟩ := h
  exact ⟨_, _, _, _, rfl⟩

theorem State.ftl_dropLine (s : State) (pid : Nat) : (s.dropLine pid).ftl = { s.ftl with lines := s.ftl.lines.erase pid } := by
  obtain ⟨_, _, hdrop⟩ := s.dropLine_only pid
  rw [hdrop]

theorem State.dropTurn_droppable {s : State} {k : Nat} {x : Line} (hx : s.line k = some x) (hd : x.droppable = true) (die : Nat) :
    s.dropTurn die k = (s.dropLine k).rangeStep die k true 0 := by
  simp only [State.dropTurn, hx, hd, if_true]

theorem State.dropTurn_kept {s : State} {k : Nat} {x : Line} (hx : s.line k = some x) (hd : x.droppable = false) (die : Nat) :
    s.dropTurn die k = s.rangeStep die k false 3 := by
  simp only [State.dropTurn, hx, hd, Bool.false_eq_true, if_false]

theorem isTurn_drop (s : State) (die : Nat) : IsTurn die (DropsOnly s) (fun x => if x.droppable then none else some x)
    (fun k x r => r.pageDone k x.droppable (if x.droppable then 0 else 3)) (fun u k => u.dropTurn die k) := by
  intro u k x r ⟨hrising, hrec, honly⟩ hx
  have hlt := (SMap.rising_iff _).1 hrising
  dsimp only
  cases hd : x.droppable with
  | true =>
    have hftl := u.ftl_dropLine k
    have hrec' : (u.dropLine k).ftl.range.find? die = some r := by rw [hftl]; exact hrec
    rw [State.dropTurn_droppable hx hd, State.rangeStep_running hrec']
    refine ⟨⟨?_, SMap.find?_insert .., (honly.dropLine k).setRange _ _⟩, fun j => ?_⟩
    · show (u.dropLine k).ftl.lines.rising = true
      rw [hftl]
      exact SMap.rising_erase hrising k
    · show (u.dropLine k).ftl.lines.find? j = if j = k then none else u.ftl.lines.find? j
      rw [hftl]
      split
      next hj => rw [hj]; exact SMap.find?_erase_same hlt k
      next hj => exact SMap.find?_erase_ne hlt hj
  | false =>
    rw [State.dropTurn_kept hx hd, State.rangeStep_running hrec]
    refine ⟨⟨hrising, SMap.find?_insert .., honly.setRange _ _⟩, fun j => ?_⟩
    show u.line j = if j = k then some x else u.line j
    split
    next hj => rw [hj, hx]
    · rfl

/-- The record counts the lines dropped, and shows ERR 3 where one was not. -/
theorem foldl_pageDone_drop (l : SMap Line) (r : RangeOp) (h : r.todo = []) :
    l.foldl (fun r kx => r.pageDone kx.1 kx.2.droppable (if kx.2.droppable then 0 else 3)) r =
      { r with lines := r.lines + (l.keep fun _ x => x.droppable).length, err := if l.vals.all Line.droppable then r.err else 3 } := by
  induction l generalizing r with
  | nil => rfl
  | cons y l ih =>
    have hall : SMap.vals (y :: l) = y.2 :: SMap.vals l := rfl
    rw [List.foldl_cons, ih _ (by simp [RangeOp.pageDone, h]), hall]
    cases hd : y.2.droppable <;> simp [RangeOp.pageDone, h, hd, SMap.keep, Nat.add_assoc, Nat.add_comm 1]

section
variable {s : State} {die : Nat}

/-- What the turns of every line of the range drop, count and leave. -/
theorem State.dropRange_spec (h : RangeFree s die) (op : Nat) :
    let u := (s.inRange die).keys.foldl (fun u k => u.dropTurn die k) (s.rangeBegun die op [])
    (∀ k x, s.line k = some x → u.line k = if (s.inRange die).has k && x.droppable then none else some x) ∧
    u.ftl.range.find? die = some (RangeOp.mk op (s.fld (dieM die) Reg.MAP_RANGE_LO_PAGEID) (s.fld (dieM die) Reg.MAP_RANGE_HI_PAGEID) []
      ((s.inRange die).keep fun _ x => x.droppable).length (if (s.inRange die).vals.all Line.droppable then 0 else 3)) ∧
    u = { s with regs := u.regs, ftl := { s.ftl with lines := u.ftl.lines, range := u.ftl.range }, csa := u.csa } := by
  obtain ⟨-, -, -, hrising, -⟩ := h
  have hin := State.rising_inRange hrising die
  obtain ⟨⟨-, hrec, m, g, c, q, hu⟩, hline⟩ := (isTurn_drop s die).fold (SMap.nodup_keys hin) (u := s.rangeBegun die op [])
    ⟨hrising, SMap.find?_insert .., _, _, _, _, rfl⟩ fun kx hm => State.line_of_mem_inRange hrising hm
  refine ⟨fun k x hx => ?_, ?_, ?_⟩
  · have hk : (s.rangeBegun die op []).line k = some x := hx
    simp only [hline, hk, ← SMap.has_iff_mem_keys hin]
    cases (s.inRange die).has k <;> simp
  · rw [hrec, foldl_pageDone_drop _ _ rfl, Nat.zero_add]
  · rw [hu]

theorem State.startRange_invalidate (h : RangeFree s die) :
    s.startRange die 2 = (s.inRange die).keys.foldl (fun u k => u.dropTurn die k) (s.rangeBegun die 2 []) := by
  obtain ⟨hpop, hon, hbusy, -, -⟩ := h
  simp only [State.startRange, State.startRangeOn, hpop, hon, hbusy, Bool.not_true, Bool.or_false, Bool.false_eq_true, if_false]
  rfl

theorem State.startRange_clean (h : RangeFree s die) :
    s.startRange die 1 = (((s.inRange die).keep fun _ l => l.d).keys).foldl
      (fun (s : State) k => if (s.line k).any (fun l => l.writing.isNone) then s.writePage k else s)
      (s.rangeBegun die 1 ((s.inRange die).keep fun _ l => l.d).keys) := by
  obtain ⟨hpop, hon, hbusy, -, -⟩ := h
  simp only [State.startRange, State.startRangeOn, hpop, hon, hbusy, Bool.not_true, Bool.or_false, Bool.false_eq_true, if_false,
    State.setRange_setRange]
  rfl

/-- With no dirty line in the range CLEAN_INV is INVALIDATE. -/
theorem State.startRange_cleanInv (h : RangeFree s die) (hclean : ((s.inRange die).vals.any fun x => x.d) = false) :
    s.startRange die 3 = (s.inRange die).keys.foldl (fun u k => u.dropTurn die k) (s.rangeBegun die 3 []) := by
  obtain ⟨hpop, hon, hbusy, -, -⟩ := h
  have hd : ∀ kx ∈ s.inRange die, kx.2.d = false := by simpa [SMap.vals] using hclean
  have hdirty : (s.inRange die).keep (fun _ l => l.d) = [] := List.filter_eq_nil_iff.2 fun kx hm => by simp [hd kx hm]
  have hall : (s.inRange die).keep (fun _ l => !l.d) = s.inRange die := List.filter_eq_self.2 fun kx hm => by simp [hd kx hm]
  unfold State.inRange at hdirty hall
  simp only [State.startRange, State.startRangeOn, hpop, hon, hbusy, Bool.not_true, Bool.or_false, Bool.false_eq_true, if_false,
    State.setRange_setRange, hdirty, hall]
  rfl

/-! ## LOAD_PIN -/

theorem State.startRange_loadPin (h : RangeFree s die) :
    s.startRange die 4 = (s.rangeBegun die 4
        ((s.blockPages (s.fld (dieM die) Reg.MAP_RANGE_LO_PAGEID) (s.fld (dieM die) Reg.MAP_RANGE_HI_PAGEID)).filter fun p => s.mapDie p == die)).loadPin die
      ((s.blockPages (s.fld (dieM die) Reg.MAP_RANGE_LO_PAGEID) (s.fld (dieM die) Reg.MAP_RANGE_HI_PAGEID)).filter fun p => s.mapDie p == die) := by
  obtain ⟨hpop, hon, hbusy, -, hord⟩ := h
  have hdie : ∀ r p, ((s.setFlag (dieM die) Reg.MAP_RANGE_STATUS_BUSY true).setRange die r).mapDie p = s.mapDie p :=
    fun _ p => State.mapDie_setBusy hord die p
  simp only [State.startRange, State.startRangeOn, hpop, hon, hbusy, Bool.not_true, Bool.or_false, Bool.false_eq_true, if_false,
    State.setRange_setRange, hdie]
  rfl

/-- A valid line is pinned at once while PIN_WAYS lets it be. -/
theorem State.loadPin_valid {pid : Nat} {x : Line} (hx : s.line pid = some x) (hv : x.v = true)
    (hroom : s.pinnedWays pid < min 0xE (s.fld (dieM die) Reg.MAP_CTRL_PIN_WAYS)) (rest : List Nat) :
    s.loadPin die (pid :: rest) = ((s.setLine pid { x with p := true }).rangeStep die pid true 0).loadPin die rest := by
  simp only [State.loadPin, hx, hv, decide_eq_false (Nat.not_le.2 hroom), Bool.false_and, Bool.false_eq_true, if_false, if_true]

/-- A page that is not pinned stops LOAD_PIN where PIN_WAYS is reached. -/
theorem State.loadPin_full {pid : Nat} (hpin : (s.line pid).any (fun x => x.p || x.rp) = false)
    (hfull : min 0xE (s.fld (dieM die) Reg.MAP_CTRL_PIN_WAYS) ≤ s.pinnedWays pid) (rest : List Nat) :
    s.loadPin die (pid :: rest) = s.stopPin die (pid :: rest) := by
  simp only [State.loadPin, decide_eq_true hfull, Bool.true_and, if_true]
  cases hx : s.line pid with
  | none => rfl
  | some x =>
    have hx' : (x.p || x.rp) = false := by simpa [hx] using hpin
    simp only [hx', Bool.not_false, if_true]

theorem State.stopPin_running {r : RangeOp} (h : s.ftl.range.find? die = some r) (rest : List Nat) :
    s.stopPin die rest = s.setRange die { r with err := 1, todo := r.todo.filter fun p => !rest.contains p } := by
  simp only [State.stopPin, h]

end

/-! ## UNPIN and SWEEP -/

/-- What changing pins of a range changes: lines, the record, registers. -/
def PinsOnly (s t : State) : Prop := ∃ r m g, t = { s with regs := r, ftl := { s.ftl with lines := m, range := g } }

theorem PinsOnly.setRange {s t : State} (h : PinsOnly s t) (die : Nat) (r : RangeOp) : PinsOnly s (t.setRange die r) := by
  obtain ⟨_, _, _, rfl⟩ := h
  exact ⟨_, _, _, rfl⟩

theorem PinsOnly.setLine {s t : State} (h : PinsOnly s t) (pid : Nat) (x : Line) : PinsOnly s (t.setLine pid x) := by
  obtain ⟨_, _, _, rfl⟩ := h
  exact ⟨_, _, _, rfl⟩

/-- A page's turn of UNPIN (R273). -/
def State.unpinTurn (s : State) (die k : Nat) : State :=
  match s.line k with
  | some l => if l.p then (s.setLine k { l with p := false }).rangeStep die k true 0 else s
  | none => s

/-- A page's turn of SWEEP: a pinned line refers to it, so it is kept resident (R272). -/
def State.sweepTurn (s : State) (die p : Nat) : State :=
  match s.line p with
  | some x =>
    let s := s.setLine p { x with rp := true }
    if x.v then s.rangeStep die p true 0 else s
  | none => match s.firstEnter p 7 false fun x => { x with rp := true, age := 0 } with
    | (s, true) => if (s.line p).any Line.v then s.rangeStep die p true 0 else s
    | (s, false) => s

theorem State.unpinTurn_listed {s : State} {k : Nat} {x : Line} (hx : s.line k = some x) (die : Nat) :
    s.unpinTurn die k = if x.p then (s.setLine k { x with p := false }).rangeStep die k true 0 else s := by
  simp only [State.unpinTurn, hx]

theorem State.sweepTurn_listed {s : State} {k : Nat} {x : Line} (hx : s.line k = some x) (die : Nat) :
    s.sweepTurn die k = if x.v then (s.setLine k { x with rp := true }).rangeStep die k true 0 else s.setLine k { x with rp := true } := by
  simp only [State.sweepTurn, hx]

theorem isTurn_unpin (s : State) (die : Nat) : IsTurn die (PinsOnly s) (fun x => some { x with p := false })
    (fun k x r => if x.p then r.pageDone k true 0 else r) (fun u k => u.unpinTurn die k) := by
  intro u k x r ⟨hrising, hrec, honly⟩ hx
  have hline := State.line_setLine_of_listed hx { x with p := false }
  dsimp only
  rw [State.unpinTurn_listed hx]
  cases hp : x.p with
  | true =>
    rw [if_pos rfl, if_pos rfl, State.rangeStep_running (s := u.setLine k _) hrec]
    exact ⟨⟨SMap.rising_insert hrising _ _, SMap.find?_insert .., (honly.setLine _ _).setRange _ _⟩, hline⟩
  | false =>
    have hsame : { x with p := false } = x := by rw [← hp]
    refine ⟨⟨hrising, hrec, honly⟩, fun j => ?_⟩
    show u.line j = if j = k then some { x with p := false } else u.line j
    rw [hsame]
    split
    next hj => rw [hj, hx]
    · rfl

theorem isTurn_sweep (s : State) (die : Nat) : IsTurn die (PinsOnly s) (fun x => some { x with rp := true })
    (fun k x r => if x.v then r.pageDone k true 0 else r) (fun u k => u.sweepTurn die k) := by
  intro u k x r ⟨hrising, hrec, honly⟩ hx
  have hline := State.line_setLine_of_listed hx { x with rp := true }
  have hrising' := SMap.rising_insert hrising k { x with rp := true }
  dsimp only
  rw [State.sweepTurn_listed hx]
  by_cases hv : x.v = true
  · rw [if_pos hv, if_pos hv, State.rangeStep_running (s := u.setLine k _) hrec]
    exact ⟨⟨hrising', SMap.find?_insert .., (honly.setLine _ _).setRange _ _⟩, hline⟩
  · rw [if_neg hv, if_neg hv]
    exact ⟨⟨hrising', hrec, honly.setLine _ _⟩, hline⟩

/-- The record counts the lines that were pinned. -/
theorem foldl_pageDone_unpin (l : SMap Line) (r : RangeOp) (h : r.todo = []) :
    l.foldl (fun r kx => if kx.2.p then r.pageDone kx.1 true 0 else r) r = { r with lines := r.lines + (l.keep fun _ x => x.p).length } := by
  induction l generalizing r with
  | nil => rfl
  | cons y l ih =>
    rw [List.foldl_cons, ih _ (by split <;> simp [RangeOp.pageDone, h])]
    cases hp : y.2.p <;> simp [RangeOp.pageDone, h, hp, SMap.keep, Nat.add_assoc, Nat.add_comm 1]

/-- Pages done with without an error leave the operation and its ERR. -/
theorem foldl_pageDone_sweep (l : SMap Line) (r : RangeOp) :
    ((l.foldl (fun r kx => if kx.2.v then r.pageDone kx.1 true 0 else r) r).op,
      (l.foldl (fun r kx => if kx.2.v then r.pageDone kx.1 true 0 else r) r).err) = (r.op, r.err) :=
  List.foldlRecOn (motive := fun t : RangeOp => (t.op, t.err) = (r.op, r.err)) _ _ rfl fun t ht kx _ => by
    split <;> exact ht

theorem nodup_eraseDups (l : List Nat) : l.eraseDups.Nodup := by
  match l with
  | [] => exact .nil
  | a :: l =>
    rw [List.eraseDups_cons]
    exact List.nodup_cons.2 ⟨by simp [List.mem_eraseDups], nodup_eraseDups _⟩
termination_by l.length
decreasing_by exact Nat.lt_succ_of_le (List.length_filter_le ..)

section
variable {s : State} {die : Nat}

theorem State.startRange_unpin (h : RangeFree s die) :
    s.startRange die 5 = (s.inRange die).keys.foldl (fun u k => u.unpinTurn die k) (s.rangeBegun die 5 []) := by
  obtain ⟨hpop, hon, hbusy, -, -⟩ := h
  simp only [State.startRange, State.startRangeOn, hpop, hon, hbusy, Bool.not_true, Bool.or_false, Bool.false_eq_true, if_false]
  rfl

/-- Every line of the range has its turn of UNPIN. -/
theorem State.unpin_spec (h : RangeFree s die) :
    (∀ k x, s.line k = some x → (s.startRange die 5).line k = some (if (s.inRange die).has k then { x with p := false } else x)) ∧
    (s.startRange die 5).ftl.range.find? die = some (RangeOp.mk 5 (s.fld (dieM die) Reg.MAP_RANGE_LO_PAGEID)
      (s.fld (dieM die) Reg.MAP_RANGE_HI_PAGEID) [] ((s.inRange die).keep fun _ x => x.p).length 0) ∧ PinsOnly s (s.startRange die 5) := by
  rw [State.startRange_unpin h]
  obtain ⟨-, -, -, hrising, -⟩ := h
  have hin := State.rising_inRange hrising die
  obtain ⟨⟨-, hrec, honly⟩, hline⟩ := (isTurn_unpin s die).fold (SMap.nodup_keys hin) (u := s.rangeBegun die 5 [])
    ⟨hrising, SMap.find?_insert .., _, _, _, rfl⟩ fun kx hm => State.line_of_mem_inRange hrising hm
  refine ⟨fun k x hx => ?_, ?_, honly⟩
  · have hk : (s.rangeBegun die 5 []).line k = some x := hx
    simp only [hline, hk, ← SMap.has_iff_mem_keys hin]
    cases (s.inRange die).has k <;> rfl
  · rw [hrec, foldl_pageDone_unpin _ _ rfl, Nat.zero_add]

/-- Chunk-table pages of a die that pinned lines refer to. -/
def State.sweepPages (s : State) (die : Nat) : List Nat := s.pinnedChunkPages.filter fun p => s.mapDie p == die

/-- The line of a page with RP cleared, where the page is of the die. -/
def State.lineUnreferred (s : State) (die k : Nat) (l : Line) : Line := if s.mapDie k = die then { l with rp := false } else l

/-- RP is cleared in every line of a die. -/
def State.unreferred (s : State) (die : Nat) : State := { s with ftl := { s.ftl with lines := s.ftl.lines.mapV (s.lineUnreferred die) } }

theorem State.line_unreferred (s : State) (die k : Nat) : (s.unreferred die).line k = (s.line k).map (s.lineUnreferred die k) :=
  SMap.find?_mapV s.ftl.lines (s.lineUnreferred die) k

/-- Clearing RP changes no pin that refers to a chunk-table page. -/
theorem State.pinnedChunkPages_unreferred (s : State) (die : Nat) : (s.unreferred die).pinnedChunkPages = s.pinnedChunkPages := by
  have hkeys : ((s.unreferred die).ftl.lines.keep fun _ l => l.p && l.v).keys = (s.ftl.lines.keep fun _ l => l.p && l.v).keys :=
    SMap.keys_keep_mapV s.ftl.lines (f := s.lineUnreferred die) fun k l => by unfold State.lineUnreferred; split <;> rfl
  have hpage : ∀ k, (s.unreferred die).page k = s.page k := fun _ => rfl
  simp only [State.pinnedChunkPages, hkeys, hpage]

/-- The pages of a SWEEP are the same once RP is cleared. -/
theorem State.sweepPages_unreferred (h : s.Ordered) (die : Nat) :
    ((s.rangeBegun die 6 []).unreferred die).sweepPages die = s.sweepPages die := by
  have hdie : ∀ k, ((s.rangeBegun die 6 []).unreferred die).mapDie k = s.mapDie k := State.mapDie_setBusy h die
  have hpages : ((s.rangeBegun die 6 []).unreferred die).pinnedChunkPages = s.pinnedChunkPages := State.pinnedChunkPages_unreferred ..
  simp only [State.sweepPages, hpages, hdie]

theorem State.mem_sweepPages {k : Nat} : k ∈ s.sweepPages die ↔ k ∈ s.pinnedChunkPages ∧ s.mapDie k = die := by
  simp only [State.sweepPages, List.mem_filter, beq_iff_eq]

theorem State.nodup_sweepPages (s : State) (die : Nat) : (s.sweepPages die).Nodup := (nodup_eraseDups _).filter _

/-- A SWEEP has cleared RP in every line of its die, and awaits the pages that pinned lines refer to. -/
def State.sweepBegun (s : State) (die : Nat) : State :=
  ((s.rangeBegun die 6 []).unreferred die).setRange die
    { op := 6, lo := s.fld (dieM die) Reg.MAP_RANGE_LO_PAGEID, hi := s.fld (dieM die) Reg.MAP_RANGE_HI_PAGEID, todo := s.sweepPages die, lines := 0,
      err := 0 }

theorem State.startRange_sweep (h : RangeFree s die) :
    s.startRange die 6 = (s.sweepPages die).foldl (fun u k => u.sweepTurn die k) (s.sweepBegun die) := by
  obtain ⟨hpop, hon, hbusy, -, hord⟩ := h
  unfold State.sweepBegun
  rw [← State.sweepPages_unreferred hord]
  simp only [State.startRange, State.startRangeOn, hpop, hon, hbusy, Bool.not_true, Bool.or_false, Bool.false_eq_true, if_false]
  rfl

theorem State.line_sweepBegun (h : s.Ordered) (die k : Nat) :
    (s.sweepBegun die).line k = (s.line k).map fun x => if s.mapDie k = die then { x with rp := false } else x := by
  have hdie : (s.rangeBegun die 6 []).mapDie k = s.mapDie k := State.mapDie_setBusy h die k
  refine ((s.rangeBegun die 6 []).line_unreferred die k).trans ?_
  unfold State.lineUnreferred
  rw [hdie]
  rfl

/-- The pages of a SWEEP with their lines as it begins. -/
def State.sweepLines (s : State) (die : Nat) : SMap Line := (s.sweepPages die).map fun p => (p, ((s.sweepBegun die).line p).getD Line.fresh)

theorem State.keys_sweepLines (s : State) (die : Nat) : (s.sweepLines die).keys = s.sweepPages die := by
  simp [State.sweepLines, SMap.keys, Function.comp_def]

/-- Every chunk-table page that a pinned line refers to has its turn of SWEEP. -/
theorem State.sweep_spec (h : RangeFree s die) (hres : ∀ p ∈ s.pinnedChunkPages, s.mapDie p = die → (s.line p).isSome = true) :
    (∀ k x, s.line k = some x →
      (s.startRange die 6).line k = some (if s.mapDie k = die then { x with rp := s.pinnedChunkPages.contains k } else x)) ∧
    ((s.startRange die 6).ftl.range.find? die).map (fun r => (r.op, r.err)) = some (6, 0) ∧ PinsOnly s (s.startRange die 6) := by
  rw [State.startRange_sweep h, ← s.keys_sweepLines die]
  obtain ⟨-, -, -, hrising, hord⟩ := h
  have hlisted : ∀ kx ∈ s.sweepLines die, (s.sweepBegun die).line kx.1 = some kx.2 := fun kx hm => by
    obtain ⟨p, hp, rfl⟩ := List.mem_map.1 hm
    obtain ⟨hmem, hdie⟩ := State.mem_sweepPages.1 hp
    obtain ⟨x, hx⟩ := Option.isSome_iff_exists.1 (hres p hmem hdie)
    simp [State.line_sweepBegun hord, hx]
  obtain ⟨⟨-, hrec, honly⟩, hline⟩ := (isTurn_sweep s die).fold (s.keys_sweepLines die ▸ s.nodup_sweepPages die) (u := s.sweepBegun die)
    ⟨SMap.rising_mapV (m := s.ftl.lines) hrising ((s.rangeBegun die 6 []).lineUnreferred die), SMap.find?_insert .., _, _, _, rfl⟩ hlisted
  refine ⟨fun k x hx => ?_, ?_, honly⟩
  · rw [hline, State.line_sweepBegun hord, hx]
    simp only [State.keys_sweepLines, State.mem_sweepPages, List.contains_eq_mem]
    by_cases hdie : s.mapDie k = die
    · by_cases hmem : k ∈ s.pinnedChunkPages <;> simp [hdie, hmem]
    · simp [hdie]
  · rw [hrec, Option.map_some, foldl_pageDone_sweep]

end

/-! ## The end (R274) -/

theorem execMapRangeDone_nothingLeft {s : State} {die : Nat} {r : RangeOp} (hr : s.ftl.range.find? die = some r) (htodo : r.todo = []) :
    exec (.mapRangeDone die) s = .next (State.settle ((((({ s with ftl := { s.ftl with range := s.ftl.range.erase die } } : State).setFlag (dieM die)
      Reg.MAP_RANGE_STATUS_BUSY false).setFlag (dieM die) Reg.MAP_RANGE_STATUS_DONE true).setFld (dieM die) Reg.MAP_RANGE_STATUS_ERR r.err).setFld
      (dieM die) Reg.MAP_RANGE_STATUS_LINES r.lines)) := by
  show execMapRangeDone die s = _
  simp only [execMapRangeDone, hr, htodo, List.isEmpty_nil, Bool.not_true, Bool.false_eq_true, if_false]

/-- Settles O41: a busy engine loses the command; a free one begins with `State.startRange`, and each operation is the turns of its pages. -/
theorem mapRangeOperations : Obligations.MapRangeOperations := by
  unfold Obligations.MapRangeOperations
  refine ⟨fun s die hpop hon hbusy c hc => ?busy,
    fun s die h => next_settle rfl (State.startRange_clean h),
    fun s die h => ⟨_, next_settle rfl (State.startRange_invalidate h), State.dropRange_spec h 2⟩,
    fun s die h hclean => ?cleanInv,
    fun s die h => next_settle rfl (State.startRange_loadPin h),
    fun s die pid rest x hx hv hroom => State.loadPin_valid hx hv hroom rest,
    fun s die pid rest r hpin hr hfull => (State.loadPin_full hpin hfull rest).trans (State.stopPin_running hr _),
    fun s die h => ?unpin,
    fun s die h hres => ?sweep,
    fun s die r hr htodo => execMapRangeDone_nothingLeft hr htodo⟩
  case busy =>
    have hlost : ∀ op, Host.Outcome.next (s.startRange die op).settle = (.next (s.setFlag (dieM die) Reg.MAP_RANGE_STATUS_LOST true).settle : Res) :=
      fun op => next_settle rfl (State.startRange_busy hpop hon hbusy op)
    simp only [List.mem_cons, List.not_mem_nil, or_false] at hc
    rcases hc with rfl | rfl | rfl | rfl | rfl | rfl
    · exact hlost 1
    · exact hlost 2
    · exact hlost 3
    · exact hlost 4
    · exact hlost 5
    · exact hlost 6
  case cleanInv =>
    obtain ⟨hline, hrec, honly⟩ := State.dropRange_spec h 3
    exact ⟨_, next_settle rfl (State.startRange_cleanInv h hclean), hline, by rw [hrec]; rfl, honly⟩
  case unpin =>
    obtain ⟨hline, hrec, r, m, g, honly⟩ := State.unpin_spec h
    exact ⟨_, rfl, hline, by rw [hrec]; rfl, by rw [honly]⟩
  case sweep =>
    obtain ⟨hline, hrec, r, m, g, honly⟩ := State.sweep_spec h hres
    exact ⟨_, rfl, hline, hrec, by rw [honly]⟩

end Sys2Proof.Machine
end

section
/-! Flash translation as it goes on (R276 to R301, R339): stripes, segments, read points, journal release, the log, checkpoints. -/

namespace Sys2Proof.Machine

open Sys2Proof

/-! ## Stripes (R279, R285, R339) -/

/-- An open stripe that holds something is programmed when its time is over. -/
theorem execStripeTimeout_due {s : State} {seg : Nat} {o : OpenSeg} (ho : (s.ftl.opens.find? fun o => o.segid == seg) = some o)
    (hsome : o.buf ≠ [] ∨ o.unit ≠ []) (hdue : o.since + s.fld (dieM 0) Reg.FTL_CTRL_STRIPE_US * 1000 ≤ s.ao.tb) :
    exec (.stripeTimeout seg) s = .next (s.endStripe o true).settle := by
  show execStripeTimeout seg s = _
  simp only [execStripeTimeout, ho]
  exact if_pos (by rcases hsome with h | h <;> simp [hdue, h])

/-- What a program unit holds when its open stripe is ended: an empty stripe is not among it. -/
def OpenSeg.flushed (o : OpenSeg) : List (Bytes × List Nat × List (Nat × DirEnt)) :=
  if o.buf.isEmpty then o.unit else o.unit ++ [(o.buf, o.packs, o.pages)]

theorem OpenSeg.flushed_ne_nil {o : OpenSeg} (h : o.buf ≠ [] ∨ o.unit ≠ []) : o.flushed ≠ [] := by
  unfold OpenSeg.flushed
  split
  next hbuf => exact h.resolve_left (not_not_intro (List.isEmpty_iff.1 hbuf))
  · simp

/-- A flushed stripe takes its program unit, padded to its end, out of the open segment. -/
theorem State.endStripe_flushed {s : State} {o : OpenSeg} {d : SegDesc} (hd : s.ftl.segs.find? o.segid = some d) (hsome : o.buf ≠ [] ∨ o.unit ≠ []) :
    let d' := { d with next := d.next + s.unitStripes d }
    let u := s.setSeg d'
    let u : State := { u with ftl := { u.ftl with opens := u.ftl.opens.map fun x =>
      if x.segid = o.segid then { o with buf := [], packs := [], pages := [], since := s.ao.tb, unit := [] } else x } }
    let v := u.programUnit d d.next o.flushed (s.unitStripes d - o.flushed.length)
    s.endStripe o true = if d'.stripes < d'.next + s.unitStripes d then v.sealSegment d' else v := by
  have hunit : (if (o.buf.isEmpty && true) = true then o.unit else o.unit ++ [(o.buf, o.packs, o.pages)]) = o.flushed := by
    rw [Bool.and_true]; rfl
  have hempty : ¬ o.flushed.isEmpty = true := by simpa using OpenSeg.flushed_ne_nil hsome
  simp only [State.endStripe, hd, hunit, if_neg hempty, not_true_eq_false, and_false, if_false]

/-- A unit that every member has acknowledged is placed, its packs first, then its pages. -/
theorem execStripePlaced_acknowledged {s : State} {seg k : Nat} {pr : Prog} {d : SegDesc} (hpr : s.ftl.progs.find? (progKey seg k) = some pr)
    (hd : s.ftl.segs.find? seg = some d) (hok : pr.failed = false) (hacks : d.width + 2 ≤ pr.acks.length) :
    exec (.stripePlaced seg k) s = .next (State.settle (((pr.pages.foldl (fun s pd => s.pagePlaced pd.1 pd.2)
      (pr.packs.foldl (fun (s : State) id => s.packPlaced id)
        { s with ftl := { s.ftl with progs := s.ftl.progs.erase (progKey seg k) } })).reservedPlaced seg k).tryTxns)) := by
  show Host.Outcome.next (s.unitPlaced seg k).settle = _
  simp [State.unitPlaced, hpr, hd, hok, Nat.not_lt.2 hacks]

theorem State.packPlaced_own {s : State} {id : Nat} {p : Pack} (hp : s.pack id = some p) (hown : p.copyOf = none) :
    s.packPlaced id = ((List.range p.mems.length).zip p.mems).foldl (fun s im => s.setChunk im.2.job im.2.n (.done (p.chunk + im.1)))
      (s.setPack id { p with st := .placed }) := by
  simp only [State.packPlaced, hp, hown]

theorem State.pagePlaced_metadata {pid : Nat} (h : pKind pid ≠ 7) (s : State) (d : DirEnt) : s.pagePlaced pid d = s.log (.page pid d) := if_neg h

/-! ## Segments (R276, R284, R288) -/

theorem execGcSegment_sealed {s : State} {seg : Nat} {d : SegDesc} (hserving : s.serving = true) (hd : s.ftl.segs.find? seg = some d)
    (hsealed : d.state = .sealed) (hkind : d.kind ≠ 2) (hside : d.segid / 2 ^ 31 = s.side ∨ s.pair.head = .solo)
    (hscan : s.ftl.scans.has seg = false) (cls : Nat) :
    exec (.gcSegment seg cls) s = .next (State.settle
      ((((s.setSeg { d with state := .collecting }).log (.segment { d with state := .collecting })).beginScan seg cls 0 0
        (if d.kind = 0 then d.next else 0)).rewriteMeta seg)) := by
  have hmay : ¬ (d.state ≠ .sealed ∨ d.kind = 2 ∨ (d.segid / 2 ^ 31 ≠ s.side ∧ s.pair.head ≠ .solo) ∨ s.ftl.scans.has seg = true) := by
    rintro (h | h | ⟨hother, hpair⟩ | h)
    · exact h hsealed
    · exact hkind h
    · exact hside.elim hother hpair
    · exact Bool.false_ne_true (hscan.symm.trans h)
  refine next_settle (if_pos hserving) ?_
  simp only [State.collect, hd, if_neg hmay]

/-- A segment that no read point needs is logged as EMPTY, and each of its blocks is erased. -/
theorem execSegmentReclaim_unread {s : State} {seg : Nat} {d : SegDesc} (hd : s.ftl.segs.find? seg = some d) (hstate : d.state = .reclaim)
    (hruns : s.runs seg = true) (hpoint : s.pointBefore (d.relocAt + 100) = false) :
    exec (.segmentReclaim seg) s = .next (State.settle (d.members.foldl (fun s m => s.eraseBlock m.addr 7)
      ((s.setSeg { d with state := .empty }).log (.segment { d with state := .empty })))) := by
  show execSegmentReclaim seg s = _
  simp only [execSegmentReclaim, hd]
  exact if_pos (by simp [hstate, hruns, hpoint])

/-! ## Read points and journal release (R282, R287) -/

theorem State.mirroring_of_twin {s : State} (h : s.pair.head = .twin) : s.mirroring = true := by
  simp [State.mirroring, h]

theorem State.sendUpd_mirrored {s : State} (h : s.mirroring = true) (cls : Nat) (m : MapChange) (lsn : Nat) :
    s.sendUpd cls m lsn = (s.send (vlLock cls) cls 0 (.mapupd m lsn), 1) := if_pos h

theorem execReadPointNotice_twin {s : State} (h : s.pair.head = .twin) :
    exec .readPointNotice s = .next (s.send (vlLock 1) 1 0 (.mapupd (.readPoint (s.ftl.points.vals.foldl min (s.ftl.points.vals.headD s.ao.tb))) 0)) := by
  have htwin : ¬ (s.pair.head != .twin) = true := by simp [h]
  refine (if_neg htwin).trans ?_
  rw [State.sendUpd_mirrored (State.mirroring_of_twin h)]

/-- The oldest record of the shards of this head, durable and with its MAPUPDs acknowledged, is released, here and at the partner. -/
theorem execJournalRelease_oldest {s : State} {side seq : Nat} {e : JEnt} (he : s.jent side seq = some e) (hown : s.owner e.r.shard = s.side)
    (hdurable : e.durable = true) (hupd : e.updates = 0)
    (hhead : ((if side = s.side then s.jrnl.own else s.jrnl.mirror).keep fun _ e => s.owner e.r.shard == s.side).keys.head? = some seq) :
    exec (.journalRelease side seq) s = .next (State.settle (((if (s.releaseRec side seq).mirroring
      then (s.releaseRec side seq).send 2 0 0 (.release side seq) else s.releaseRec side seq).clearIntents side seq).eraseJournal)) := by
  show execJournalRelease side seq s = _
  simp only [execJournalRelease, he]
  exact if_pos (by simp [hown, hdurable, hupd, hhead])

theorem State.releaseRec_own {s : State} {seq : Nat} {e : JEnt} (he : s.jrnl.own.find? seq = some e) :
    s.releaseRec s.side seq = State.journalRegs { s with jrnl := { s.jrnl with own := s.jrnl.own.erase seq, used := s.jrnl.used - e.r.size } } := by
  simp only [State.releaseRec, if_true, he]

/-! ## The log (R293, R297) -/

theorem execLogPageTimeout_due {s : State} (hcur : s.ftl.cur ≠ []) (hdue : s.ftl.curSince + s.fld (dieM 0) Reg.FTL_CTRL_LOG_US * 1000 ≤ s.ao.tb) :
    exec .logPageTimeout s = .next s.programLogPage.settle := if_pos (by simp [hcur, hdue])

/-- The oldest log page with two copies is durable, and so is each of its records. -/
theorem execLogPageDurable_twoCopies {s : State} {n : Nat} {pg : LogPage} {l : SMap LogPage} (hpages : s.ftl.logPages = (n, pg) :: l)
    (hacks : 2 ≤ pg.acks.length) :
    exec (.logPageDurable n) s = .next (State.settle ((pg.recs.foldl (fun s r => s.durableRec r) (State.setFld
      { s with ftl := { s.ftl with logPages := l, durable := pg.recs.foldl (fun m r => max m r.lsn) s.ftl.durable } } (dieM 0)
      Reg.FTL_LSN_DURABLE (pg.recs.foldl (fun m r => max m r.lsn) s.ftl.durable))).tryTxns)) := by
  have herase : SMap.erase ((n, pg) :: l) n = l := if_pos rfl
  show Host.Outcome.next (s.logDurable n).settle = _
  simp only [State.logDurable, hpages, herase, ne_eq, not_true_eq_false, Nat.not_lt.2 hacks, or_self, if_false]

/-! ## Checkpoints (R300, R301) -/

theorem execCheckpointReq_asked {val : Word} (h : bitsAt val 32 1 = 1) (s : State) : exec (.checkpointReq val) s = .next s.startCkpt.settle := if_pos h

/-- REQ is bit 32 of FTL_CKPT. -/
theorem bitsAt_ckptReq : bitsAt (BitVec.ofNat 64 (2 ^ 32)) 32 1 = 1 := by decide +kernel

/-- The state in which the pages of a checkpoint are placed: CKPT_BEGIN is logged, and the last checkpoint's segment is closed. -/
def State.ckptBegun (s : State) : State := (s.log (.ckptBegin (s.redo 0) (s.redo 1))).sealCkptSeg

/-- The pages that a checkpoint writes, and their identifiers. -/
def State.ckptPages (s : State) : List Bytes := pieces 4096 s.ckptBegun.ckptBytes
def State.ckptIds (s : State) : List Nat := (List.range s.ckptPages.length).map fun i => pageId 7 s.side i

/-- A checkpoint whose pages are placed in `u`. -/
def State.newCkpt (s u : State) : Ckpt :=
  { num := s.fld (dieM 0) Reg.FTL_CKPT_NUM + 1, redo0 := s.redo 0, redo1 := s.redo 1,
    beginLsn := (s.log (.ckptBegin (s.redo 0) (s.redo 1))).ftl.nextLsn - 1, endLsn := none,
    firstSeg := ((u.openOf 2 none).map OpenSeg.segid).getD 0, count := s.ckptPages.length,
    crc := (crc32c (s.ckptPages.flatMap fun p => padTo 4096 p)).toNat, left := s.ckptIds, anchors := 0 }

theorem State.newCkpt_left (s u : State) : (s.newCkpt u).left = (List.range s.ckptPages.length).map fun i => pageId 7 s.side i := by
  simp only [State.newCkpt, State.ckptIds]

theorem State.newCkpt_count (s u : State) : (s.newCkpt u).count = s.ckptPages.length := by
  simp only [State.newCkpt]

section
variable {s : State}

/-- Where its pages cannot be placed, no checkpoint starts. -/
theorem State.startCkpt_unplaced (hno : s.ftl.ckpt = none) (hon : s.flag (dieM 0) Reg.FTL_CTRL_EN = true)
    (hplace : s.ckptBegun.placeCkptPages (s.ckptIds.zip s.ckptPages) = none) : s.startCkpt = s := by
  unfold State.ckptIds State.ckptPages State.ckptBegun at hplace
  simp only [State.startCkpt, hno, hon, hplace, Option.isSome_none, Bool.false_eq_true, Bool.not_true, or_self, if_false]

/-- A checkpoint whose pages are placed is the present one, and their last stripe is programmed. -/
theorem State.startCkpt_placed (hno : s.ftl.ckpt = none) (hon : s.flag (dieM 0) Reg.FTL_CTRL_EN = true) {u : State}
    (hplace : s.ckptBegun.placeCkptPages (s.ckptIds.zip s.ckptPages) = some u) :
    s.startCkpt = State.endCkptStripe (State.setFlag { u with ftl := { u.ftl with ckpt := some (s.newCkpt u) } } (dieM 0) Reg.FTL_CKPT_BUSY true) := by
  unfold State.ckptIds State.ckptPages State.ckptBegun at hplace
  simp only [State.startCkpt, hno, hon, hplace, Option.isSome_none, Bool.false_eq_true, Bool.not_true, or_self, if_false]
  rfl

end

/-- A checkpoint timer asks as a request does once 60 s have passed. -/
theorem execCheckpointTimer_due {s : State} (hserving : s.serving = true) (hdue : s.ftl.ckptAt + 60 * 10 ^ 9 ≤ s.ao.tb) :
    exec (.checkpointTimer false) s = .next s.startCkpt.settle := by
  have hgo : ¬ ((!s.serving) = true ∨ ((!false) = true ∧ s.ao.tb < s.ftl.ckptAt + 60 * 10 ^ 9)) := by
    rintro (h | ⟨-, h⟩)
    · simp [hserving] at h
    · exact Nat.not_lt.2 hdue h
  exact if_neg hgo

/-- When the log is too full, the lines with the oldest DLSN are written before the checkpoint begins. -/
theorem execCheckpointTimer_full {s : State} (hserving : s.serving = true) :
    exec (.checkpointTimer true) s = .next (State.settle (State.startCkpt
      (((((s.ftl.lines.keep fun _ l => l.d && l.writing.isNone).mergeSort fun a b => decide (a.2.dlsn ≤ b.2.dlsn)).map Prod.fst)).foldl
        (fun (s : State) p => s.writePage p) s))) := by
  have hgo : ¬ ((!s.serving) = true ∨ ((!true) = true ∧ s.ao.tb < s.ftl.ckptAt + 60 * 10 ^ 9)) := by simp [hserving]
  exact if_neg hgo

/-- Settles O42: each command by the lemma of its case; a checkpoint begins by `State.startCkpt_placed`. -/
theorem flashTranslationGoesOn : Obligations.FlashTranslationGoesOn := by
  unfold Obligations.FlashTranslationGoesOn
  refine ⟨fun s seg o ho hsome hdue => execStripeTimeout_due ho hsome hdue,
    fun s o d hd hsome => State.endStripe_flushed hd hsome,
    fun s seg k pr d hpr hd hok hacks => execStripePlaced_acknowledged hpr hd hok hacks,
    fun s id p hp hown => State.packPlaced_own hp hown,
    fun s pid d h => s.pagePlaced_metadata h d,
    fun s seg cls d hserving hd hsealed hkind hside hscan => execGcSegment_sealed hserving hd hsealed hkind hside hscan cls,
    fun s seg d hd hstate hruns hpoint => execSegmentReclaim_unread hd hstate hruns hpoint,
    fun s h => execReadPointNotice_twin h,
    fun s side seq e he hown hdurable hupd hhead => execJournalRelease_oldest he hown hdurable hupd hhead,
    fun s seq e he => State.releaseRec_own he,
    fun s side seq hside => if_neg hside,
    fun s hcur hdue => execLogPageTimeout_due hcur hdue,
    fun s n pg l hpages hacks => execLogPageDurable_twoCopies hpages hacks,
    fun s val hno hon hreq => ⟨fun hplace => ?unplaced, fun u hplace => ?placed⟩,
    fun s hserving hdue => (execCheckpointTimer_due hserving hdue).trans (execCheckpointReq_asked bitsAt_ckptReq s).symm,
    fun s hserving => execCheckpointTimer_full hserving⟩
  case unplaced => exact next_settle (execCheckpointReq_asked hreq s) (State.startCkpt_unplaced hno hon hplace)
  case placed =>
    refine ⟨_, s.newCkpt u, next_settle (execCheckpointReq_asked hreq s) (State.startCkpt_placed hno hon hplace), rfl, rfl, rfl, rfl, rfl,
      s.newCkpt_left u, s.newCkpt_count u, ?_, rfl⟩
    show (s.log (.ckptBegin (s.redo 0) (s.redo 1))).ftl.nextLsn - 1 + 1 = _
    omega

end Sys2Proof.Machine
end

section
/-! Sundas frames as bytes (R320, R321): a field of a little-endian number, and the header of a frame field by field. -/

namespace Sys2Proof

theorem le_take {k n : Nat} (h : k ≤ n) (v : Nat) : (le n v).take k = le k v := by
  simp only [le, ← List.map_take, List.take_range, Nat.min_eq_left h]

/-- A field of a number's bytes holds the digits of the number in its place. -/
theorem leAt_le {i k n : Nat} (h : i + k ≤ n) (v : Nat) : leAt (le n v) i k = v / 256 ^ i % 256 ^ k := by
  induction i generalizing n v with
  | zero => rw [leAt, List.drop_zero, le_take (by omega), ofLe_le, Nat.pow_zero, Nat.div_one]
  | succ i ih =>
    obtain ⟨n, rfl⟩ : ∃ m, n = m + 1 := ⟨n - 1, by omega⟩
    rw [le_succ, leAt, List.drop_succ_cons, Nat.pow_succ', ← Nat.div_div_eq_div_mul]
    exact ih (by omega) _

namespace Machine

/-- Bytes 6 and 7 of a header (R321): whether credits come back, of which channel and how many. -/
def creditField : Option (Nat × Nat) → Nat
  | some (c, n) => 1 + 2 * (c % 8) + 16 * (n % 256)
  | none => 0

theorem creditField_lt (cr : Option (Nat × Nat)) : creditField cr < 65536 := by
  rcases cr with - | ⟨c, n⟩ <;> simp only [creditField] <;> omega

/-- The number whose bytes are a header. -/
def headNumber (ty vc cls seq ack cr tag len epoch addr flags status arg : Nat) : Nat :=
  ty % 256 + vc % 8 * 2 ^ 8 + cls % 8 * 2 ^ 11 + seq % 65536 * 2 ^ 16 + ack % 65536 * 2 ^ 32 + cr * 2 ^ 48 + tag % 65536 * 2 ^ 64 +
    len % 8192 * 2 ^ 80 + epoch % 2 ^ 32 * 2 ^ 96 + addr % 2 ^ 64 * 2 ^ 128 + flags % 256 * 2 ^ 192 + status % 256 * 2 ^ 200 + arg % 65536 * 2 ^ 208

theorem sfbHead_eq_le (ty vc cls seq ack tag len epoch addr flags status arg : Nat) (cr : Option (Nat × Nat)) :
    sfbHead ty vc cls seq ack cr tag len epoch addr flags status arg =
      le 32 (headNumber ty vc cls seq ack (creditField cr) tag len epoch addr flags status arg) := by
  refine congrArg (le 32) ?_
  unfold headNumber
  rcases cr with - | ⟨c, n⟩ <;> simp only [creditField] <;> omega

/-- Each field of R321 is the digits of the header's number in its place, since no field outgrows its own. -/
theorem sfbHeaderFields : SfbHeaderFields := by
  refine ⟨fun ty vc cls seq ack tag len epoch addr flags status arg cr => ?_, fun _ _ => rfl, fun h m link => beq_iff_eq⟩
  have hcr := creditField_lt cr
  rw [sfbHead_eq_le]
  refine ⟨le_length .., ?_, ?_, ?_, ?_, (?_ : _ = creditField cr), ?_, ?_, ?_, ?_, ?_, ?_, ?_, ?_⟩
  all_goals rw [leAt_le (by decide)]; unfold headNumber; omega

end Machine
end Sys2Proof
end

section
/-! Frames from a carrier bridge (R321 to R325, R364): what the header does, and what becomes of the message that a frame brings. -/

namespace Sys2Proof.Machine

open Sys2Proof

/-! ## Ports -/

theorem State.sport_setSport {s : State} (h : s.med.ports.rising = true) (cp : Nat) (x : SPort) : (s.setSport cp x).sport cp = x := by
  have hp := (SMap.rising_iff _).1 h
  simp only [State.sport, State.setSport, SMap.putD, SMap.getD]
  split
  next hx => rw [SMap.find?_erase_same hp, Option.getD_none, hx]
  · rw [SMap.find?_insert, Option.getD_some]

theorem State.mem_sfbLanes {s : State} {cp lane : Nat} :
    lane ∈ s.sfbLanes cp ↔ lane < 2 ∧ s.cpFld cp Reg.SFB_PSTAT_LANES / 2 ^ lane % 2 = 1 := by
  simp only [State.sfbLanes, List.mem_filter, List.mem_range, beq_iff_eq]

/-! ## Every frame -/

section
variable {s : State} {h : SfbHdr} {m : Option SfbIn} {link : Nat}

theorem State.sfbRx_down (hup : s.sfbUp h.cp = false) (k : State → State) : s.sfbRx h m link k = s := if_pos (by simp [hup])

theorem State.sfbRx_badCrc (hup : s.sfbUp h.cp = true) (hok : h.ok m link = false) (k : State → State) :
    s.sfbRx h m link k = s.sfbErred h.cp h.lane :=
  (if_neg (by simp [hup])).trans (if_pos (by simp [hok]))

theorem State.sfbRx_good (hup : s.sfbUp h.cp = true) (hok : h.ok m link = true) (k : State → State) :
    s.sfbRx h m link k = (k (s.sfbTook h)).sfbDrain h.cp :=
  (if_neg (by simp [hup])).trans (if_neg (by simp [hok]))

/-- The command of a message is `sfbMsg` of it. -/
theorem exec_sfbCommand {i : SfbIn} (hb : SfbBrings h i) : exec (sfbCommand h i) s = .next (s.sfbMsg h i).settle := by
  cases i with
  | complete tag st arg b => obtain rfl : b = h.payload := hb; rfl
  | rdata tag slot plane raw => rfl
  | event arg => rfl

/-- A frame of any kind is received by `sfbRx`. -/
theorem exec_sfbFrame {c : Instr} (hf : SfbFrameOf h c m link) : ∃ k, exec c s = .next (s.sfbRx h m link k).settle := by
  obtain ⟨rfl, rfl, rfl⟩ | ⟨rfl, rfl, rfl⟩ | ⟨i, rfl, hb, rfl, rfl⟩ := hf
  · exact ⟨_, rfl⟩
  · exact ⟨_, rfl⟩
  · exact ⟨_, exec_sfbCommand hb⟩

/-- A good frame that carries a SEQ: its header first, then its message, then what waits on the port. -/
theorem exec_sfbCommand_good {i : SfbIn} (hup : s.sfbUp h.cp = true) (hb : SfbBrings h i) (hok : h.ok (some i) 0 = true) :
    exec (sfbCommand h i) s = .next (((s.sfbTook h).sfbSeq h i).sfbDrain h.cp).settle :=
  next_settle (exec_sfbCommand hb) (State.sfbRx_good hup hok _)

end

/-! ## A message, by its SEQ (R324, R325, R364) -/

/-- A frame that a port drops: it is applied already, held already, or too many are held. -/
def SPort.Drops (x : SPort) (h : SfbHdr) : Prop :=
  32768 ≤ seqDist x.rxSeq h.seq ∨ (∃ p ∈ x.ahead, p.1 = h.seq) ∨ seqDist x.rxSeq h.seq ≠ 0 ∧ 64 ≤ x.ahead.length

/-- A port of which one credit of the frame's channel is spent. -/
def SPort.spent (x : SPort) (h : SfbHdr) : SPort := { x with rxCredits := x.rxCredits.insert h.vc (x.rxCredits.getD h.vc 0 - 1) }

section
variable {s : State} {h : SfbHdr}

theorem SPort.drops_iff {x : SPort} : x.Drops h ↔
    32768 ≤ seqDist x.rxSeq h.seq ∨ (x.ahead.any fun p => p.1 == h.seq) = true ∨ (seqDist x.rxSeq h.seq ≠ 0 ∧ 64 ≤ x.ahead.length) := by
  simp only [SPort.Drops, List.any_eq_true, beq_iff_eq]

theorem State.sfbSeq_dropped (hd : (s.sport h.cp).Drops h) (m : SfbIn) : s.sfbSeq h m = s := if_pos (SPort.drops_iff.1 hd)

theorem State.sfbSeq_uncredited (hd : ¬ (s.sport h.cp).Drops h) (hc : (s.sport h.cp).rxCredits.getD h.vc 0 = 0) (m : SfbIn) :
    s.sfbSeq h m = s.sfbNoCredit h.cp :=
  (if_neg (mt SPort.drops_iff.2 hd)).trans (if_pos hc)

theorem State.sfbSeq_inOrder (hd : ¬ (s.sport h.cp).Drops h) (hc : 0 < (s.sport h.cp).rxCredits.getD h.vc 0)
    (hseq : seqDist (s.sport h.cp).rxSeq h.seq = 0) (m : SfbIn) :
    s.sfbSeq h m = ((s.setSport h.cp ((s.sport h.cp).spent h)).sfbApply h.cp h.vc m).applyAhead h.cp ((s.sport h.cp).ahead.length + 1) :=
  (if_neg (mt SPort.drops_iff.2 hd)).trans ((if_neg hc.ne').trans (if_pos hseq))

theorem State.sfbSeq_ahead (hd : ¬ (s.sport h.cp).Drops h) (hc : 0 < (s.sport h.cp).rxCredits.getD h.vc 0)
    (hseq : 0 < seqDist (s.sport h.cp).rxSeq h.seq) (m : SfbIn) :
    s.sfbSeq h m = s.setSport h.cp { (s.sport h.cp).spent h with
      ahead := (s.sport h.cp).ahead ++ [(h.seq, h.vc, m)], gapSince := some ((s.sport h.cp).gapSince.getD s.ao.tb) } :=
  (if_neg (mt SPort.drops_iff.2 hd)).trans ((if_neg hc.ne').trans (if_neg hseq.ne'))

end

/-! ## What the messages do (R322, R326, R329, R364) -/

section
variable {s : State} {cp tag : Nat}

/-- COMPLETE of an operation that is neither a read nor a write: its answer, and then the end of the operation, or the head is fenced. -/
theorem State.sfbComplete_aside {o : MedOp} {st : Nat} (ho : s.med.ops.find? (opKey cp tag) = some o) (hw : o.req.writes = false)
    (hr : o.req.isRead = false) (hst : st ≠ 6) (arg : Nat) (b : Bytes) :
    let u := State.epochAnswer { s with med := { s.med with ops := s.med.ops.erase (opKey cp tag) } } cp o.req b
    let v := if st = 1 then u.fencedReply cp else u.opResult o st arg
    s.sfbComplete cp tag st arg b = v.pump (v.med.queue.length + 1) := by
  simp only [State.sfbComplete, ho, hw, hr, Bool.false_eq_true, Bool.false_and, if_false, if_neg hst]

theorem State.sfbComplete_unknown (ho : s.med.ops.find? (opKey cp tag) = none) (st arg : Nat) (b : Bytes) :
    s.sfbComplete cp tag st arg b = s.addCpFld cp Reg.SFB_PVIOL_VIOL 1 := by
  simp only [State.sfbComplete, ho]

/-- What a CLAIM or a SEAL hears is reported; an APPLIED with another epoch is an event. -/
theorem State.epochAnswer_asked {b : Bytes} (hb : b.length = 6) {e n hm : Nat} {r : SfbReq} (hr : r = .claim e n hm ∨ r = .seal n hm) :
    s.epochAnswer cp r b = if leAt b 5 1 = 1 ∧ leAt b 0 4 ≠ n then (s.epochReported cp (leAt b 0 4) (leAt b 4 1)).event (cpDie cp) 0x20 5 cp
      else s.epochReported cp (leAt b 0 4) (leAt b 4 1) := by
  rcases hr with rfl | rfl <;> exact if_neg (not_not_intro hb)

theorem State.fencedReply_serving (hh : s.pair.head = .twin ∨ s.pair.head = .solo) (hf : s.pair.faulted = none) :
    s.fencedReply cp = ((s.addCpFld cp Reg.SFB_PVIOL_FENCED 1).setLast 6 false).enter .fenced :=
  if_pos (show ((s.pair.head == .twin || s.pair.head == .solo) && s.pair.faulted.isNone) = true by simpa [hf] using hh)

/-- The bits of a codeword after one more plane of it: plane 0 is the hard bits. -/
def RawCw.withPlane (x : RawCw) (plane : Nat) (raw : Bytes) : RawCw :=
  { x with raw := if plane = 0 then raw else x.raw, planes := x.planes ||| 2 ^ plane }

/-- The bits of a codeword that have come, none at first. -/
def State.rawOf (s : State) (cp id : Nat) : RawCw :=
  (s.med.raws.find? fun y => y.id == id).getD { id := id, cp := cp, raw := [], planes := 0, dec := false }

theorem State.rawOf_id (s : State) (cp id : Nat) : (s.rawOf cp id).id = id := by
  unfold State.rawOf
  cases h : s.med.raws.find? fun y => y.id == id with
  | none => rfl
  | some y => simpa using List.find?_some h

theorem State.rawOf_planes (s : State) (cp id : Nat) :
    (s.rawOf cp id).planes = ((s.med.raws.find? fun y => y.id == id).map RawCw.planes).getD 0 := by
  unfold State.rawOf
  cases s.med.raws.find? fun y => y.id == id <;> rfl

theorem State.rdata_taken {slot plane id c w t : Nat} {r : SfbReq} {ids : List Nat}
    (ho : s.med.ops.find? (opKey cp tag) = some { cp := c, req := r, cls := w, why := .read ids, since := t }) (hslot : mSlot r.addr ≤ slot)
    (hplane : plane ≤ 2) (hid : ids[slot - mSlot r.addr]? = some id) (raw : Bytes) :
    s.rdata cp tag slot plane raw =
      { s with med := { s.med with raws := (s.med.raws.filter fun y => y.id != id) ++ [(s.rawOf cp id).withPlane plane raw] } } := by
  simp only [State.rdata, ho, hid]
  exact if_neg (by omega)

end

end Sys2Proof.Machine
end

section
/-! Carrier ports (R320 to R325, R363): what is sent, replays, lanes, training, loss. -/

namespace Sys2Proof.Machine

open Sys2Proof

section
variable {s : State} {cp lane : Nat}

theorem State.sfbReplayAll_unacked {t : SfbTx} {l : List SfbTx} (h : (s.sport cp).unacked = t :: l) : s.sfbReplayAll cp = s.sfbReplayed cp t l := by
  simp only [State.sfbReplayAll, State.sfbReplayed, h, List.head?_cons]

theorem execSfbNak_good {h : SfbHdr} {t : SfbTx} {l : List SfbTx} (hup : s.sfbUp h.cp = true) (hok : h.ok none 1 = true)
    (hun : ((s.sfbTook h).sport h.cp).unacked = t :: l) :
    exec (.sfbNak h) s = .next (((s.sfbTook h).sfbReplayed h.cp t l).sfbDrain h.cp).settle :=
  next_settle rfl ((State.sfbRx_good hup hok _).trans (congrArg (State.sfbDrain · h.cp) (State.sfbReplayAll_unacked hun)))

theorem execSfbAckTimeout_due {t : Nat} {u : SfbTx} {l : List SfbTx} (ht : (s.sport cp).ackSince = some t) (hun : (s.sport cp).unacked = u :: l)
    (hup : s.sfbUp cp = true) (hdue : t + 2000 ≤ s.ao.tb) : exec (.sfbAckTimeout cp) s = .next (s.sfbReplayed cp u l) := by
  show execSfbAckTimeout cp s = _
  simp only [execSfbAckTimeout, ht, hup, hdue, decide_true, Bool.and_true, if_true, State.sfbReplayAll_unacked hun]

theorem execSfbGapTimeout_due {t : Nat} (ht : (s.sport cp).gapSince = some t) (hup : s.sfbUp cp = true) (hdue : t + 1000 ≤ s.ao.tb) :
    exec (.sfbGapTimeout cp) s = .next ((s.setSport cp { s.sport cp with gapSince := some s.ao.tb }).sendSfbNak cp) := by
  show execSfbGapTimeout cp s = _
  simp only [execSfbGapTimeout, ht, hup, hdue, decide_true, Bool.and_true, if_true]

/-- A NAK goes on the next lane, with ACK and credits as they stood before it. -/
theorem State.sendSfbNak_out (h : s.med.ports.rising = true) (cp : Nat) : (s.sendSfbNak cp).out =
    s.out ++ [.sfbNak cp (laneAfter (s.sfbLanes cp) (s.sport cp).txLane) (sfbLink 1 (s.sport cp).ack (s.sport cp).credit s.epoch)] := by
  simp only [State.sendSfbNak, State.sfbLinkFrame, State.sport_setSport h]
  rfl

theorem execSfbLaneRetire_errors (hret : ((s.sport cp).lanes.getD lane Lane.fresh).retired = false)
    (herr : 16 < (recentMs s.ao.tb ((s.sport cp).lanes.getD lane Lane.fresh).errs).length) :
    exec (.sfbLaneRetire cp lane) s = .next ((s.setSport cp { s.sport cp with
      lanes := (s.sport cp).lanes.insert lane { errs := [], retired := true, cleanSince := s.ao.tb } }).setCpFld cp Reg.SFB_PSTAT_LANES
        (s.cpFld cp Reg.SFB_PSTAT_LANES - s.cpFld cp Reg.SFB_PSTAT_LANES / 2 ^ lane % 2 * 2 ^ lane)) := by
  have hgo : ¬ (((s.sport cp).lanes.getD lane Lane.fresh).retired = true ∨
      (recentMs s.ao.tb ((s.sport cp).lanes.getD lane Lane.fresh).errs).length ≤ 16) := by simp [hret, herr]
  have hbit : (if s.cpFld cp Reg.SFB_PSTAT_LANES / 2 ^ lane % 2 = 1 then 2 ^ lane else 0) =
      s.cpFld cp Reg.SFB_PSTAT_LANES / 2 ^ lane % 2 * 2 ^ lane := by
    rcases Nat.mod_two_eq_zero_or_one (s.cpFld cp Reg.SFB_PSTAT_LANES / 2 ^ lane) with h | h <;> simp [h]
  refine (if_neg hgo).trans ?_
  rw [hbit]

theorem execSfbLaneReturn_clean {l : Lane} (hl : (s.sport cp).lanes.find? lane = some l) (hret : l.retired = true)
    (hdue : l.cleanSince + 100000000 ≤ s.ao.tb) : exec (.sfbLaneReturn cp lane) s = .next
      ((s.setSport cp { s.sport cp with lanes := (s.sport cp).lanes.insert lane { l with retired := false } }).sfbTrain cp lane) := by
  have hget : (s.sport cp).lanes.getD lane Lane.fresh = l := by rw [SMap.getD, hl, Option.getD_some]
  show execSfbLaneReturn cp lane s = _
  simp only [execSfbLaneReturn, hget]
  exact if_neg (by simp [hret, hdue])

/-- A lane that trains is active; the first of a lost port brings the port up as new. -/
theorem State.sfbTrain_unretired (hlane : lane < 2) (hon : s.sfbOn cp = true) (hret : ((s.sport cp).lanes.getD lane Lane.fresh).retired = false) :
    s.sfbTrain cp lane = ((if s.cpFlag cp Reg.SFB_PSTAT_UP then s else s.setSport cp
        { SPort.reset with lanes := (s.sport cp).lanes, lastFrame := s.ao.tb, tempAt := (s.sport cp).tempAt }).setCpFlag cp Reg.SFB_PSTAT_UP
      true).setCpFld cp Reg.SFB_PSTAT_LANES (s.cpFld cp Reg.SFB_PSTAT_LANES ||| 2 ^ lane) :=
  if_neg (by simp [hlane, hon, hret])

theorem execSfbPortLost_silent (hup : s.cpFlag cp Reg.SFB_PSTAT_UP = true) (hdue : (s.sport cp).lastFrame + 2000 ≤ s.ao.tb) :
    exec (.sfbPortLost cp) s = .next (s.portLost cp).settle := if_pos (by simp [hup, hdue])

theorem execSfbIdleSend_active (hlane : lane < 2) (hon : s.sfbOn cp = true) (hup : s.cpFlag cp Reg.SFB_PSTAT_UP = true)
    (hact : s.cpFld cp Reg.SFB_PSTAT_LANES / 2 ^ lane % 2 = 1) :
    exec (.sfbIdleSend cp lane) s = .next (s.sfbLinkFrame cp sfbIdleType (.sfbIdle cp lane)) :=
  (if_pos (show s.sfbUp cp = true by simp [State.sfbUp, hup, hon])).trans
    (if_pos (List.contains_iff_mem.2 (State.mem_sfbLanes.2 ⟨hlane, hact⟩)))

theorem execSfbIdleSend_lost (hlane : lane < 2) (hon : s.sfbOn cp = true) (hup : s.cpFlag cp Reg.SFB_PSTAT_UP = false) :
    exec (.sfbIdleSend cp lane) s = .next (s.sfbLinkFrame cp sfbTrainType (.sfbTrain cp lane)) :=
  (if_neg (show ¬ s.sfbUp cp = true by simp [State.sfbUp, hup])).trans (if_pos (by simp [hon, hlane]))

end

/-- A frame of VC1 for another class than 0 leaves 64 credits (R344). -/
theorem SPort.canSend_keeps {x : SPort} {t : SfbTx} (h : x.canSend t = true) (hvc : t.vc = 1) (hcls : t.cls ≠ 0) :
    t.frames + 64 ≤ x.credits.getD 1 0 := by
  simpa [hvc, hcls] using (Bool.and_eq_true_iff.1 h).2

end Sys2Proof.Machine
end

section
/-! Media sequencers and decoders (R312, R313, R318, R319, R344, R346, R362): attach, decoding, starved and slow dies. -/

namespace Sys2Proof.Machine

open Sys2Proof

/-! ## Attach (R312, R313) -/

theorem execCarrierAttach_trained {s : State} {cp : Nat} (hup : s.cpFlag cp Reg.SFB_PSTAT_UP = true)
    (hatt : s.cpFlag cp Reg.SFB_PSTAT_ATTACHED = false) (hen : s.flag (cpDie cp) Reg.MED_CTRL_EN = true) (temp : Int) (pages : List DiePage) :
    exec (.carrierAttach cp temp pages) s = .next (s.attach cp temp pages).settle := if_pos (by simp [hup, hatt, hen])

/-- The end of an attach, when its dies are known: what PSTAT and the timing registers then show, the blocks to erase, and the spare blocks beyond
`spare` (R312, R338, R390). -/
def State.attachEnd (s : State) (cp : Nat) (temp : Int) (spare : Nat) : State :=
  let used := (s.med.dies.keep fun k d => k / 1024 == cp && d.used).vals
  let s := (s.setCpFlag cp Reg.SFB_PSTAT_ATTACHED true).setCpFlag cp Reg.SFB_PSTAT_TEMP_OK (decide (0 ≤ temp) && decide (temp ≤ 75))
  let s := (s.setCpFlag cp Reg.SFB_PSTAT_C0_MEDIA (used.all fun d => decide (d.tr ≤ 60) && decide (d.tsus ≤ 30))).setCpFlag cp
    Reg.SFB_PSTAT_JOURNAL_OK (used.any fun d => decide (d.tslc ≤ 45))
  let s := ((s.setCpFld cp Reg.SFB_PSTAT_DIES used.length).setCpFld cp Reg.SFB_PSTAT_NAND_TEMP (ofInt 8 temp)).timingRegs (cp / 24)
  let due := (s.blocksOf cp).filter fun b => mBlock b % 2 == s.side && !s.namedBlocks.contains b
  let s : State := { s with ftl := { s.ftl with fresh := s.ftl.fresh.filter (fun b => mCp b != cp) ++ due } }
  let s := if s.par.lostCps.contains cp || s.med.dies.any (fun kd => kd.1 / 1024 == cp && kd.2.lost) then s.returnBlocks cp else s
  (((if s.serving then s.erasePending cp else s).checkSpare).addSpare spare).journalRegs

theorem State.die_exchange (s : State) (cp : Nat) (req : SfbReq) (k : Nat) : (s.exchange cp req).die k = s.die k := rfl

/-- An attach is the attach of each of its dies and then the end. -/
theorem State.attach_within {s : State} {pages : List DiePage} (h : pages.length ≤ 1024) (cp : Nat) (temp : Int) : s.attach cp temp pages =
    (pages.foldl (State.dieAttached cp) (s.exchange cp .cstatus)).attachEnd cp temp s.spareLeft := by
  refine (if_neg (Nat.not_lt.2 h)).trans ?_
  show State.attachEnd (List.foldl _ (s.exchange cp .cstatus) pages) cp temp s.spareLeft = _
  refine congrArg (State.attachEnd · cp temp s.spareLeft) (List.foldl_ext _ _ _ fun t p _ => ?_)
  unfold State.dieAttached
  cases hr : ((t.exchange cp (.param (maddr cp p.die 0 0 0 0) 0)).exchange cp (.param (maddr cp p.die 0 0 0 0) 1)).profileOf (cp / 24) p with
  | none => simp only [hr, State.die_exchange]
  | some b => simp only [hr, State.die_exchange]

/-- A die is used only within the limits of R313. -/
theorem dieOfPage_used_iff (p : DiePage) (r : Bytes) : (dieOfPage p (some r)).used = true ↔
    p.crcOk = true ∧ p.profileOk = true ∧ p.planes = 4 ∧ p.planeData = 16384 ∧ 2048 ≤ p.planeSpare ∧ (leAt r 32 1 = 3 ∨ leAt r 32 1 = 4) ∧
      p.pages ≤ 4096 ∧ p.pages % leAt r 32 1 = 0 ∧ p.blocks ≤ 16384 ∧ p.blocks * p.pages * 65536 ≤ 256 * 2 ^ 30 := by
  simp only [dieOfPage, Bool.and_eq_true, Bool.or_eq_true, beq_iff_eq, decide_eq_true_eq, and_assoc]

/-! ## Decoding (R318, R319, R344) -/

/-- Where another class than 0 takes a decoder, the decoders of such classes are fewer than those not kept for class 0. -/
theorem State.nextDecode_keeps {s : State} {die : Nat} {x : RawCw} {t : Nat × Nat} (h : s.nextDecode die = some (x, t)) (hx : s.rawClass x ≠ 0) :
    (s.med.raws.filter fun y => cpDie y.cp == die && y.dec && s.rawClass y != 0 && (s.med.cws.find? y.id).any fun c => c.step != 100).length <
      64 - min 32 (s.fld die Reg.LDP_CTRL_C0_DEC) := by
  unfold State.nextDecode at h
  extract_lets hard used waits turn at h
  have hused : (s.med.raws.filter fun y => cpDie y.cp == die && y.dec && s.rawClass y != 0 && (s.med.cws.find? y.id).any fun c => c.step != 100) =
      used.filter fun y => s.rawClass y != 0 := by
    simp only [used, hard, List.filter_filter]
    refine List.filter_congr fun y _ => ?_
    ac_rfl
  split at h
  · cases h
  split at h
  next y hy =>
    obtain ⟨rfl, -⟩ := Prod.mk.inj (Option.some.inj h)
    exact absurd (by simpa using List.find?_some hy) hx
  split at h
  · cases h
  next hfree => exact hused ▸ Nat.not_le.1 hfree

theorem State.judgeCw_some {s : State} {c : CwReq} {raw cw d : Bytes} {bits : Nat} (h : s.judgeCw c raw cw = some (d, bits)) :
    cw.length = 4608 ∧ ldpcOk (s.circs (cpDie (mCp c.addr))) cw = true ∧ bits = bitDiff raw cw ∧
      ∃ g, cwRead c.addr (cw.take 4112) = some (d, g) ∧ (c.seg = 0 ∨ g = c.seg) := by
  unfold State.judgeCw at h
  split at h
  next hcw =>
    obtain ⟨hlen, hok⟩ := Bool.and_eq_true_iff.1 hcw
    split at h
    next d' g hread =>
      split at h
      next hseg =>
        cases h
        exact ⟨beq_iff_eq.1 hlen, hok, rfl, g, hread, hseg⟩
      · cases h
    · cases h
  · cases h

/-- The raw bits of a request are no longer held. -/
def State.dropRaw (s : State) (id : Nat) : State := { s with med := { s.med with raws := s.med.raws.filter fun y => y.id != id } }

/-- A request whose raw bits stay for its next step: class 0 after its hard decode, but not an input of a reconstruction. -/
def CwReq.keepsRaw (c : CwReq) : Bool :=
  c.cls == 0 && c.step == 0 && (match c.why with
    | .input _ _ => false
    | _ => true)

/-- A hard decode that failed is counted. -/
def State.hardFailed (s : State) (c : CwReq) : State := if c.step = 0 then s.addFld (cpDie (mCp c.addr)) Reg.LDP_STAT_HARD_FAIL 1 else s

/-- A failed decode is counted, also where it met every check but is not the codeword asked for. -/
def State.decodeFailed (s : State) (c : CwReq) (cw : Option Bytes) : State :=
  if cw.any (fun w => ldpcOk ((s.hardFailed c).circs (cpDie (mCp c.addr))) w) then
    (s.hardFailed c).addFld (cpDie (mCp c.addr)) Reg.LDP_MISC_MISDIRECT 1
  else s.hardFailed c

theorem State.tbl_congr {s t : State} (h : t.active = s.active) (die blk n e w : Nat) : t.tbl die blk n e w = s.tbl die blk n e w := by
  unfold State.tbl
  rw [h]

/-- The code is that of the active tables. -/
theorem State.circs_congr {s t : State} (h : t.active = s.active) (die : Nat) : t.circs die = s.circs die := by
  unfold State.circs State.tblFlag State.tblFld
  exact List.filterMap_congr fun e _ => by simp only [State.tbl_congr h]

theorem State.circs_hardFailed (s : State) (c : CwReq) (die : Nat) : (s.hardFailed c).circs die = s.circs die := by
  refine State.circs_congr ?_ die
  unfold State.hardFailed
  split
  · exact State.addFld_active ..
  · rfl

section
variable {s : State} {id unsat : Nat} {cw : Option Bytes} {c : CwReq} {x : RawCw} (hc : s.med.cws.find? id = some c)
  (hx : (s.med.raws.find? fun x => x.id == id) = some x) (hdec : x.dec = true) (hen : s.flag (cpDie (mCp c.addr)) Reg.LDP_CTRL_EN = true)
include hc hx hdec hen

theorem State.decodeDone_blankCheck {g : Nat} (hwhy : c.why = .blankCheck g) : s.decodeDone id cw unsat =
    if cwBlank x.raw then ((s.addFld (cpDie (mCp c.addr)) Reg.LDP_MISC_BLANK 1).dropRaw id).endCw id none else (s.dropRaw id).endCw id (some []) := by
  unfold State.decodeDone
  rw [hc, hx]
  refine (if_neg (by simp [hdec, hen])).trans ?_
  rw [hwhy]
  rfl

theorem State.decodeDone_blank (hwhy : ∀ g, c.why ≠ .blankCheck g) (hb : cwBlank x.raw = true) :
    s.decodeDone id cw unsat = ((s.addFld (cpDie (mCp c.addr)) Reg.LDP_MISC_BLANK 1).dropRaw id).cwNoData id := by
  unfold State.decodeDone
  rw [hc, hx]
  refine (if_neg (by simp [hdec, hen])).trans ((if_pos hb).trans ?_)
  split
  next g hg => exact absurd hg (hwhy g)
  · rfl

/-- A codeword whose bits are not blank and that is no blank check goes by what `judgeCw` finds. -/
theorem State.decodeDone_judged (hwhy : ∀ g, c.why ≠ .blankCheck g) (hb : ¬ cwBlank x.raw = true) :
    s.decodeDone id cw unsat = match cw.bind (s.judgeCw c x.raw) with
      | some (d, bits) => (s.dropRaw id).cwGood id bits d
      | none => (if c.keepsRaw then s.decodeFailed c cw else (s.decodeFailed c cw).dropRaw id).nextStep id unsat := by
  unfold State.decodeDone
  rw [hc, hx]
  refine (if_neg (by simp [hdec, hen])).trans ((if_neg hb).trans ?_)
  split
  next g hg => exact absurd hg (hwhy g)
  · cases cw.bind (s.judgeCw c x.raw) <;> rfl

end

/-! ## Starved and slow dies (R346, R362) -/

theorem execOpStarved_due {s : State} {cp die : Nat} (hw : ((s.dieOps (dieKey cp die)).any fun o => o.req.writes) = true)
    (hnew : dieKey cp die ∉ s.med.starved)
    (hdue : max 1 (s.fld (cpDie cp) Reg.MED_CTRL_STARVE_MS) * 1000 ≤ (s.die (dieKey cp die)).suspUs + (match (s.die (dieKey cp die)).suspAt with
      | some t => (s.ao.tb - t) / 1000
      | none => 0)) :
    exec (.opStarved cp die) s =
      .next (State.settle (State.protect { s with med := { s.med with starved := s.med.starved ++ [dieKey cp die] } })) := by
  refine if_neg ?_
  rintro (h | h | h)
  · simp [hw] at h
  · exact hnew (List.contains_iff_mem.1 h)
  · exact Nat.not_lt.2 hdue h

theorem execSlowDieProbe_due {s : State} {cp die : Nat} (hslow : (s.die (dieKey cp die)).slow.isSome = true) (hup : s.cpUp cp = true)
    (hdue : (s.die (dieKey cp die)).probeAt + 10 ^ 9 ≤ s.ao.tb) :
    exec (.slowDieProbe cp die) s = .next (State.settle ((s.setDie (dieKey cp die) { s.die (dieKey cp die) with probeAt := s.ao.tb }).issue
      { cp := cp, req := .read (maddr cp die 0 0 0 0) 1 false (die == 0) 0, cls := 7, why := .probe, since := s.ao.tb })) := by
  refine if_neg ?_
  rintro (h | h | h)
  · cases hs : (s.die (dieKey cp die)).slow <;> simp [hs] at h hslow
  · simp [hup] at h
  · exact Nat.not_lt.2 hdue h

/-- Settles O43: a frame by `State.sfbRx` and then by its SEQ, an attach by `State.attach_within`, a decode by `State.decodeDone_judged`, and
the rest each by the lemma of its case. -/
theorem carrierPortsAndFrames : Obligations.CarrierPortsAndFrames := by
  unfold Obligations.CarrierPortsAndFrames
  refine ⟨sfbHeaderFields,
    fun s cp temp pages hup hatt hen => execCarrierAttach_trained hup hatt hen temp pages,
    fun s cp temp pages h => if_pos h,
    fun s cp temp pages h => State.attach_within h cp temp,
    fun p r => dieOfPage_used_iff p r,
    fun p => rfl,
    fun s h hup hok => next_settle rfl (State.sfbRx_good hup hok _),
    fun s h c m link hf => ?frame,
    fun s h t l hup hok hun => execSfbNak_good hup hok hun,
    fun s cp t => rfl,
    fun s cp lane => rfl,
    fun s cp lane hlane hon hret => congrArg _ (State.sfbTrain_unretired hlane hon hret),
    fun s h m hup hb hok => ?message,
    fun s cp vc m => rfl,
    fun s cp tag st arg b ho => State.sfbComplete_unknown ho st arg b,
    fun s cp tag st arg b o ho hw hr hst => State.sfbComplete_aside ho hw hr hst arg b,
    fun s cp e n hm b hb r hr => State.epochAnswer_asked hb hr,
    fun s cp hh hf => State.fencedReply_serving hh hf,
    fun s cp tag slot plane id raw r ids c w t ho hslot hplane hid => ?rdata,
    fun s cp => ⟨rfl, rfl, rfl, rfl⟩,
    fun s cp t ht hup hdue => execSfbGapTimeout_due ht hup hdue,
    fun s cp h => State.sendSfbNak_out h cp,
    fun s cp t u l ht hun hup hdue => execSfbAckTimeout_due ht hun hup hdue,
    fun s cp lane hret herr => execSfbLaneRetire_errors hret herr,
    fun s cp lane l hl hret hdue => ⟨execSfbLaneReturn_clean hl hret hdue, _, execSfbLaneReturn_clean hl hret hdue⟩,
    fun s cp hup hdue => execSfbPortLost_silent hup hdue,
    fun s cp lane hlane hon => ⟨fun hup hact => execSfbIdleSend_active hlane hon hup hact, fun hup => execSfbIdleSend_lost hlane hon hup⟩,
    fun s die x t h hx => State.nextDecode_keeps h hx,
    fun x t h hvc hcls => SPort.canSend_keeps h hvc hcls,
    fun s id unsat cw c x hc hx hdec hen hwhy => ?decode,
    fun s id unsat g cw c x hc hx hdec hen hwhy => next_settle rfl (State.decodeDone_blankCheck hc hx hdec hen hwhy),
    fun s c raw cw d bits h => State.judgeCw_some h,
    fun s cp die hw hnew hdue => execOpStarved_due hw hnew hdue,
    fun s cp die hslow hup hdue => execSlowDieProbe_due hslow hup hdue⟩
  case frame =>
    obtain ⟨k, hk⟩ := exec_sfbFrame (s := s) hf
    exact ⟨fun hup => next_settle hk (State.sfbRx_down hup k), fun hup hok => next_settle hk (State.sfbRx_badCrc hup hok k)⟩
  case message =>
    have hexec := exec_sfbCommand_good hup hb hok
    exact ⟨fun hd => next_settle hexec (congrArg (State.sfbDrain · h.cp) (State.sfbSeq_dropped hd m)),
      fun hd hc hseq => next_settle hexec (congrArg (State.sfbDrain · h.cp) (State.sfbSeq_inOrder hd hc hseq m)),
      fun hd hc hseq => next_settle hexec (congrArg (State.sfbDrain · h.cp) (State.sfbSeq_ahead hd hc hseq m)),
      fun hd hc => next_settle hexec (congrArg (State.sfbDrain · h.cp) (State.sfbSeq_uncredited hd hc m))⟩
  case rdata =>
    exact ⟨(s.rawOf cp id).withPlane plane raw, State.rdata_taken ho hslot hplane hid raw, s.rawOf_id cp id, fun h => if_pos h,
      congrArg (· ||| 2 ^ plane) (s.rawOf_planes cp id)⟩
  case decode =>
    refine next_settle rfl ?_
    split
    next hb => exact State.decodeDone_blank hc hx hdec hen hwhy hb
    next hb =>
      rw [State.decodeDone_judged hc hx hdec hen hwhy hb]
      cases cw.bind (s.judgeCw c x.raw) with
      | some db => rfl
      | none =>
        unfold State.decodeFailed
        rw [State.circs_hardFailed]
        rfl

end Sys2Proof.Machine
end

section
/-! Losses (R378, R384, R390): what a declaration does before the rebuild goes on, and what clearing one leaves. -/

namespace Sys2Proof.Machine

open Sys2Proof

/-! ## Declaring a loss (R377, R378, R384) -/

/-- A die or a carrier that a write of PAR_LOST names is attached, as far as its dies are known (log entry 87). -/
def State.knows (s : State) (cp die : Nat) (whole : Bool) : Bool :=
  s.med.dies.keys.any fun k => if whole then k / 1024 == cp else k == dieKey cp die

/-- The loss is marked: the carrier's, or the die's. -/
def State.lossMarked (s : State) (cp die : Nat) (whole : Bool) : State :=
  if whole then { s with par := { s.par with lostCps := if s.par.lostCps.contains cp then s.par.lostCps else s.par.lostCps ++ [cp] } }
  else s.setDie (dieKey cp die) { s.die (dieKey cp die) with lost := true }

/-- Open segments with a LOST member are sealed early (R286). -/
def State.lossSealed (s : State) : State :=
  (s.ftl.segs.vals.filter fun d => d.state == .opened && s.runs d.segid && !(s.lostMembers d).isEmpty).foldl (fun (s : State) d =>
    s.sealEarly d (((s.ftl.progs.keep fun key _ => key / 65536 == d.segid).keys.map (· % 65536)).foldl min d.next)) s

/-- Sealed segments with a LOST member join the list, but for those that are being copied (R384 step 2). -/
def State.lossListed (s : State) : State :=
  { s with par := { s.par with list := s.par.list ++ (s.ftl.segs.vals.filter fun d => d.state == .sealed && s.runs d.segid &&
    !(s.lostMembers d).isEmpty && !s.ftl.scans.has d.segid && !s.par.list.contains d.segid).map SegDesc.segid } }

/-- What else lay on the blocks that are gone is restored: the log's triple, journal records, a copy of the stripe journal (R377). -/
def State.lossRestored (s : State) (cp : Nat) (gone : Nat → Bool) : State :=
  let s : State := if s.ftl.triple.any gone then { s with ftl := { s.ftl with tripleBad := true } } else s
  let s := s.journalLost gone
  if (s.par.sjA.toList ++ s.par.sjB.toList).any gone then s.sjCarrierLost cp else s

/-- The whole of a declaration up to the rebuild (R384). -/
def State.lossTaken (s : State) (cp die : Nat) (whole : Bool) : State :=
  let v := s.lossMarked cp die whole
  v.startCkpt.lossSealed.lossListed.lossRestored cp fun b => v.dieLost (dieOf b)

theorem State.declareLost_unknown {s : State} {cp die : Nat} {whole : Bool} (h : s.knows cp die whole = false) :
    s.declareLost cp die whole = s.event (dieM 0) 0x26 8 noInst :=
  if_pos (Bool.not_eq_true' _ ▸ h)

theorem State.declareLost_known {s : State} {cp die : Nat} {whole : Bool} (h : s.knows cp die whole = true) :
    s.declareLost cp die whole = (s.lossTaken cp die whole).rebuildNext :=
  if_neg fun hn => Bool.false_ne_true ((congrArg not h).symm.trans hn)

theorem execParLostDeclare_go {val : Word} (hgo : bitsAt val 63 1 = 1) (hclear : bitsAt val 17 1 = 0) (s : State) :
    exec (.parLostDeclare val) s = .next (s.declareLost (bitsAt val 0 6) (bitsAt val 6 10) (bitsAt val 16 1 == 1)).settle :=
  if_pos ⟨hgo, hclear⟩

/-! ## Clearing a loss (R390) -/

/-- The mark is removed: the carrier's, and that of each die named. -/
def State.lossUnmarked (s : State) (cp die : Nat) (whole : Bool) : State :=
  let s : State := if whole then { s with par := { s.par with lostCps := s.par.lostCps.filter (· != cp) } } else s
  (s.med.dies.keys.filter fun k => if whole then k / 1024 == cp else k == dieKey cp die).foldl
    (fun (s : State) k => s.setDie k { s.die k with lost := false }) s

/-- A replacement is given up when one of the members that it replaces is no longer LOST. -/
def State.unneededAbandoned (s : State) : State :=
  match s.par.cur with
  | some r => match s.ftl.segs.find? r.seg with
    | some d => if !r.logged && r.repl.keys.any (fun m => !(s.lostMembers d).contains m) then s.rebuildAbandon else s
    | none => s
  | none => s

/-- The listed segments that still lack a member. -/
def State.stillListed (s : State) : List Nat :=
  s.par.list.filter fun k => match s.ftl.segs.find? k with
    | some d => !(s.lostMembers d).isEmpty
    | none => false

theorem State.stillListed_eq (s : State) :
    s.stillListed = s.par.list.filter fun k => (s.ftl.segs.find? k).any fun d => !(s.lostMembers d).isEmpty :=
  List.filter_congr fun k _ => by cases s.ftl.segs.find? k <;> rfl

/-- The list keeps what still lacks a member. -/
def State.relisted (s : State) : State := { s with par := { s.par with list := s.stillListed } }

theorem State.clearLost_eq (s : State) (cp die : Nat) (whole : Bool) :
    s.clearLost cp die whole = (s.lossUnmarked cp die whole).unneededAbandoned.relisted.rebuildNext := rfl

theorem State.lossUnmarked_cur (s : State) (cp die : Nat) (whole : Bool) : (s.lossUnmarked cp die whole).par.cur = s.par.cur := by
  have hdies : ∀ (l : List Nat) (u : State), (l.foldl (fun (s : State) k => s.setDie k { s.die k with lost := false }) u).par = u.par :=
    fun l u => List.foldlRecOn (motive := fun t : State => t.par = u.par) l _ rfl fun t h k _ => (State.setDie_par t k _).trans h
  unfold State.lossUnmarked
  rw [hdies]
  cases whole <;> rfl

/-- With no replacement under way, none is given up. -/
theorem State.unneededAbandoned_idle {s : State} (h : s.par.cur = none) : s.unneededAbandoned = s := by
  unfold State.unneededAbandoned
  rw [h]

/-- A replacement one of whose members is not LOST is given up, as long as its SEGMENT record is not logged. -/
theorem State.unneededAbandoned_member {s : State} {r : Rebuild} {d : SegDesc} (hcur : s.par.cur = some r) (hlog : r.logged = false)
    (hseg : s.ftl.segs.find? r.seg = some d) {m : Nat} (hm : m ∈ r.repl.keys) (hback : m ∉ s.lostMembers d) :
    s.unneededAbandoned = s.rebuildAbandon := by
  have hany : (r.repl.keys.any fun m => !(s.lostMembers d).contains m) = true := List.any_eq_true.2 ⟨m, hm, by simpa using hback⟩
  simp only [State.unneededAbandoned, hcur, hseg, hlog, hany, Bool.not_false, Bool.and_self, if_true]

/-- The keys of a map in order are apart, so that one of them is met once. -/
theorem keys_filter_beq {V : Type} {m : SMap V} (h : m.rising = true) {a : Nat} (ha : m.has a = true) : m.keys.filter (· == a) = [a] := by
  rw [List.filter_beq, List.count_eq_one_of_mem (SMap.nodup_keys h) ((SMap.has_iff_mem_keys h a).1 ha), List.replicate_one]

theorem State.lossUnmarked_die {s : State} {cp die : Nat} (hrise : s.med.dies.rising = true) (hdie : s.med.dies.has (dieKey cp die) = true) :
    s.lossUnmarked cp die false = s.setDie (dieKey cp die) { s.die (dieKey cp die) with lost := false } := by
  show (s.med.dies.keys.filter (· == dieKey cp die)).foldl _ s = _
  rw [keys_filter_beq hrise hdie]
  rfl

theorem execParLostClear_go {val : Word} (hgo : bitsAt val 63 1 = 1) (hclear : bitsAt val 17 1 = 1) (s : State) :
    exec (.parLostClear val) s = .next (s.clearLost (bitsAt val 0 6) (bitsAt val 6 10) (bitsAt val 16 1 == 1)).settle :=
  if_pos ⟨hgo, hclear⟩

end Sys2Proof.Machine
end

section
/-! Rebuild rate, eviction, the stripe journal, reshape and scrub (R376, R381, R388, R393, R397, R402, R404, R409). -/

namespace Sys2Proof.Machine

open Sys2Proof

/-! ## Rebuild rate and slow dies (R381, R388) -/

/-- At the end of a window its rate is shown, and a rate below the floor with work waiting boosts the next one. -/
theorem execRebuildRateWindow_due {s : State} (hdue : s.par.winAt + 100000000 ≤ s.ao.tb) :
    let mbps := s.par.winBytes * 10 / 10 ^ 6
    let low := !s.par.list.isEmpty && decide (mbps < s.fld (dieM 0) Reg.PAR_RB_FLOOR_MBPS)
    let u : State := { s with par := { s.par with winBytes := 0, winAt := s.ao.tb, boost := low } }
    let u := u.setFld (dieM 0) Reg.PAR_RB_RATE_MBPS mbps
    exec .rebuildRateWindow s = .next (if low then u.addFld (dieM 0) Reg.PAR_RB_RATE_FLOOR_WINDOWS 1 else u) :=
  if_neg (Nat.not_lt.2 hdue)

theorem execSlowEvict_due {s : State} {cp die t : Nat} (hslow : (s.die (dieKey cp die)).slow = some t)
    (hsent : (s.die (dieKey cp die)).evictSent = false)
    (hdue : t + max 1 (s.fld (dieM 0) Reg.PAR_RB_SLOW_EVICT_S) * 10 ^ 9 ≤ s.ao.tb) :
    exec (.slowEvict cp die) s =
      .next ((s.setDie (dieKey cp die) { s.die (dieKey cp die) with evictSent := true }).exc 0 .evict [cp, die]) := by
  show execSlowEvict cp die s = _
  simp only [execSlowEvict, hslow]
  exact if_pos (Bool.and_eq_true_iff.2 ⟨congrArg not hsent, decide_eq_true hdue⟩)

/-! ## The stripe journal (R393) -/

theorem execSjPageTimeout_due {s : State} (hcur : s.par.sjCur ≠ [])
    (hdue : s.par.sjSince + max 1 (s.fld (dieM 0) Reg.PAR_SJ_INTERVAL_MS) * 1000000 ≤ s.ao.tb) :
    exec .sjPageTimeout s = .next s.sjProgram.settle := if_pos (by simp [hcur, hdue])

/-- The present page leaves for a program: its entries await both copies. -/
def State.sjTaken (s : State) : State :=
  { s with par := { s.par with
    sjNext := s.par.sjNext + 1, sjCur := s.par.sjCur.drop 1023, sjPages := s.par.sjPages.insert s.par.sjNext (s.par.sjCur.take 1023, []) } }

/-- With room in both copies, the page goes to each of them, and no new copy is opened. -/
theorem State.sjProgram_room {s : State} {a b : Nat} (hcur : s.par.sjCur ≠ []) (ha : s.par.sjA = some a) (hb : s.par.sjB = some b)
    (hroom : ∀ x, x = a ∨ x = b → s.par.sjNext - s.par.sjAt < (s.die (dieOf x)).pages / max 1 (s.die (dieOf x)).bpc) :
    s.sjProgram = (s.sjTaken.sjSend s.par.sjNext 0 (some a) (s.par.sjCur.take 1023)).sjSend s.par.sjNext 1 (some b) (s.par.sjCur.take 1023) := by
  have hsome : ¬ s.par.sjCur.isEmpty = true := by simpa using hcur
  have hopen : ¬ ((s.par.sjA.toList ++ s.par.sjB.toList).isEmpty || (s.par.sjA.toList ++ s.par.sjB.toList).any fun x =>
      !decide (s.par.sjNext - s.par.sjAt < (s.die (dieOf x)).pages / max 1 (s.die (dieOf x)).bpc)) = true := by
    simp [ha, hb, hroom a (.inl rfl), hroom b (.inr rfl)]
  have hcopy : ¬ (s.par.sjA.isNone && s.par.sjB.isNone) = true := by simp [ha]
  simp only [State.sjProgram, if_neg hsome, if_neg hopen, if_neg hcopy]
  rw [← ha, ← hb]
  rfl

/-! ## Reshape (R397, R402, R404, R409) -/

/-- The width that PAR_RS asks for, held to 4 to 16. -/
def State.reshapeTarget (s : State) : Nat := max 4 (min 16 (s.fld (dieM 0) Reg.PAR_RS_TARGET_WIDTH))

/-- The reshape that PAR_RS asks for. -/
def State.reshapeAsked (s : State) : Reshape :=
  { vx5 := s.flag (dieM 0) Reg.PAR_RS_VX5, nsid := s.fld (dieM 0) Reg.PAR_RS_NSID_M1 + 1, target := s.reshapeTarget,
    cls := s.fld (dieM 0) Reg.PAR_RS_CLASS, source := none, txn := none, bseg := 0, bstripe := 0, stopped := false }

/-- A refusal of GO, by its row of R409. -/
def State.reshapeRefused (s : State) (row : Nat) : State :=
  (s.setFlag (dieM 0) Reg.PAR_RS_STATUS_REFUSED true).event (dieM 0) 0x26 row noInst

section
variable {s : State}

theorem State.reshapeGo_running (h : s.par.reshape.isSome = true) : s.reshapeGo = s.reshapeRefused 7 := if_pos h

theorem State.reshapeGo_fewCarriers (hnone : s.par.reshape = none) (hfew : s.keptCarriers < s.reshapeTarget + 2) :
    s.reshapeGo = s.reshapeRefused 6 :=
  (if_neg (by simp [hnone])).trans (if_pos hfew)

/-- A GO that is not refused acts by the segments that are left to reshape. -/
theorem State.reshapeGo_taken (hnone : s.par.reshape = none) (hroom : s.reshapeTarget + 2 ≤ s.keptCarriers) :
    s.reshapeGo = match s.reshapeLeft s.reshapeAsked with
      | first :: _ =>
        if s.reshapeAsked.vx5 && !s.runs first then s
        else
          let u := if s.reshapeAsked.vx5 then s else s.startCkpt
          (({ u with par := { u.par with reshape := some { s.reshapeAsked with bseg := if s.reshapeAsked.vx5 then first else 0 } } } :
            State).setFlag (dieM 0) Reg.PAR_RS_STATUS_ACTIVE true).reshapeNext
      | [] => ({ s with par := { s.par with reshape := some s.reshapeAsked } } : State).reshapeNext :=
  (if_neg (by simp [hnone])).trans (if_neg (Nat.not_lt.2 hroom))

theorem State.reshapeGo_nothingLeft (hnone : s.par.reshape = none) (hroom : s.reshapeTarget + 2 ≤ s.keptCarriers)
    (hleft : s.reshapeLeft s.reshapeAsked = []) :
    s.reshapeGo = State.reshapeNext { s with par := { s.par with reshape := some s.reshapeAsked } } := by
  rw [State.reshapeGo_taken hnone hroom, hleft]

/-- A reshape that this head runs begins; a native one starts a checkpoint, with which the old one's segment is freed (log entry 229). -/
theorem State.reshapeGo_begins (hnone : s.par.reshape = none) (hroom : s.reshapeTarget + 2 ≤ s.keptCarriers) {first : Nat} {l : List Nat}
    (hleft : s.reshapeLeft s.reshapeAsked = first :: l) (hruns : s.flag (dieM 0) Reg.PAR_RS_VX5 = false ∨ s.runs first = true) :
    let w := if s.flag (dieM 0) Reg.PAR_RS_VX5 then s else s.startCkpt
    s.reshapeGo = State.reshapeNext (({ w with par := { w.par with
      reshape := some { s.reshapeAsked with bseg := if s.flag (dieM 0) Reg.PAR_RS_VX5 then first else 0 } } } : State).setFlag (dieM 0)
        Reg.PAR_RS_STATUS_ACTIVE true) := by
  have hmine : ¬ (s.reshapeAsked.vx5 && !s.runs first) = true := by
    rcases hruns with h | h <;> simp [State.reshapeAsked, h]
  rw [State.reshapeGo_taken hnone hroom, hleft]
  exact if_neg hmine

/-- A running reshape is marked as stopped; a copy that has not ended is given up. -/
theorem State.reshapeStop_running {r : Reshape} (hr : s.par.reshape = some r) :
    let u : State := { s with par := { s.par with reshape := some { r with stopped := true } } }
    s.reshapeStop = if r.source.isSome && r.txn.isNone then u.reshapeAbandon.reshapeNext else u.reshapeNext := by
  simp only [State.reshapeStop, hr, apply_ite State.reshapeNext]

end

/-- A write of PAR_RS leaves the parity engine alone. -/
@[simp] theorem State.rsWritten_par (s : State) (val : Word) : (s.rsWritten val).par = s.par := by
  simp only [State.rsWritten, State.setFld_par, State.setFlag_par]

theorem execReshapeNativeGo_go {val : Word} (hgo : bitsAt val 0 1 = 1) (hvx5 : bitsAt val 2 1 = 0) (s : State) :
    exec (.reshapeNativeGo val) s = .next (s.rsWritten val).reshapeGo.settle := if_pos ⟨hgo, hvx5⟩

theorem execReshapeVx5Go_go {val : Word} (hgo : bitsAt val 0 1 = 1) (hvx5 : bitsAt val 2 1 = 1) (s : State) :
    exec (.reshapeVx5Go val) s = .next (s.rsWritten val).reshapeGo.settle := if_pos ⟨hgo, hvx5⟩

theorem execReshapeStop_stop {val : Word} (hstop : bitsAt val 1 1 = 1) (s : State) :
    exec (.reshapeStop val) s = .next (s.rsWritten val).reshapeStop.settle := if_pos hstop

/-! ## Scrub (R376) -/

/-- A scrub of a programmed slot asks for each of its columns. -/
theorem State.scrub_programmed {s : State} {seg stripe slot : Nat} {d : SegDesc} (hd : s.ftl.segs.find? seg = some d)
    (hen : s.flag (dieM 0) Reg.PAR_CTRL_EN = true) (hstate : d.state ≠ .empty) (hstripe : stripe < d.next) (hslot : slot < 16)
    (hnew : (s.par.scrubs.any fun x => x.seg == seg && x.stripe == stripe && x.slot == slot) = false) :
    s.scrub seg stripe slot =
      (List.range (d.width + 2)).foldl (fun s c => s.requestCw (d.cwAddr stripe c slot) seg 7 (.scrub seg stripe slot c))
        { s with par := { s.par with scrubs := s.par.scrubs ++ [Scrub.mk seg stripe slot [] []] } } := by
  unfold State.scrub
  rw [hd]
  exact if_neg (by simp [hen, hstate, hnew, hstripe, hslot])

/-- Settles O44: a loss by `State.lossTaken`, its end by `State.clearLost_eq`, a GO by `State.reshapeGo_taken`, and the rest each by the lemma
of its case. -/
theorem lossRebuildReshapeAndScrub : Obligations.LossRebuildReshapeAndScrub := by
  unfold Obligations.LossRebuildReshapeAndScrub
  refine ⟨fun s val hgo hclear => ⟨fun hunk => ?unknown, fun hk => ?known⟩,
    fun s val hgo hclear hcur => ?clear,
    fun s cp die r d hcur hlog hseg => ?clearDie,
    fun s hdue => execRebuildRateWindow_due hdue,
    fun s cp die t hslow hsent hdue => execSlowEvict_due hslow hsent hdue,
    fun s hcur hdue => execSjPageTimeout_due hcur hdue,
    fun s a b hcur ha hb hroom => State.sjProgram_room hcur ha hb hroom,
    fun s val hgo => ⟨fun h => execReshapeNativeGo_go hgo h s, fun h => execReshapeVx5Go_go hgo h s⟩,
    fun s => ⟨State.reshapeGo_running, State.reshapeGo_fewCarriers, State.reshapeGo_nothingLeft,
      fun first l hnone hroom hleft hruns => State.reshapeGo_begins hnone hroom hleft hruns⟩,
    fun s val r hstop hr => next_settle (execReshapeStop_stop hstop s) (State.reshapeStop_running (by simpa using hr)),
    fun s seg stripe slot d hd hen hstate hstripe hslot hnew =>
      next_settle rfl (State.scrub_programmed hd hen hstate hstripe hslot hnew)⟩
  case unknown => exact next_settle (execParLostDeclare_go hgo hclear s) (State.declareLost_unknown hunk)
  case known => exact ⟨_, next_settle (execParLostDeclare_go hgo hclear s) (State.declareLost_known hk), rfl⟩
  case clear =>
    refine next_settle (execParLostClear_go hgo hclear s) ?_
    rw [State.clearLost_eq, State.unneededAbandoned_idle ((State.lossUnmarked_cur ..).trans hcur), State.relisted, State.stillListed_eq]
    rfl
  case clearDie =>
    rintro u hdie hrise ⟨m, hm, hback⟩
    rw [State.clearLost_eq, State.lossUnmarked_die hrise hdie, State.unneededAbandoned_member (s := u) hcur hlog hseg hm hback, State.relisted,
      State.stillListed_eq]

end Sys2Proof.Machine
end

section
/-! Queue pairs created, destroyed, failed and reused (R440 to R443, R451, R461), and a link that stays down (R455). -/

namespace Sys2Proof.Machine

open Sys2Proof

/-! ## Creation (R440, R442, R443) -/

section
variable {s : State} {f addr : Nat}

/-- A created queue pair has the number of its index, its context on die, and a shadow on the partner while new work is mirrored. -/
def State.qpMade (s : State) (f : Nat) (e : QpExport) (i : Nat) : State :=
  let (qpn, g) := s.nextQpn f i
  let u : State := { s with rdma := { s.rdma with gens := s.rdma.gens.insert (f * 65536 + i) g } }
  let u := (u.setQp qpn (Qp.fresh { e with qpn := qpn } f (s.lineRate (f * 4 + e.port)) s.ao.tb)).cacheCtx qpn
  let u := if u.mirroring then u.sendShadow qpn else u
  (u.setFld (dieF f) Reg.RDM_QPRES_QPN qpn).qpResult f 0

/-- Queue pairs of an F-die that this side has created. -/
def State.ownQps (s : State) (f : Nat) : Nat := (s.rdma.qps.vals.filter fun q => q.fdie == f && qpSide q.e.qpn == s.side).length

theorem State.qpCreate_of_part {e : QpExport} (he : QpExport.ofBytes (s.loads addr 128) = some e) :
    s.qpCreate f addr = match (List.range 65536).find? (s.ctxFree f) with
      | none => s.qpResult f 1
      | some i => if 65536 ≤ s.ownQps f then s.qpResult f 1 else s.qpMade f e i := by
  unfold State.qpCreate
  rw [he]
  cases (List.range 65536).find? (s.ctxFree f) with
  | none => rfl
  | some i => rfl

theorem State.qpCreate_badPart (he : QpExport.ofBytes (s.loads addr 128) = none) : s.qpCreate f addr = s.qpResult f 3 := by
  unfold State.qpCreate
  rw [he]

theorem State.qpCreate_beyondLimits {e : QpExport} (he : QpExport.ofBytes (s.loads addr 128) = some e)
    (hfull : 65536 ≤ s.ownQps f ∨ (List.range 65536).find? (s.ctxFree f) = none) : s.qpCreate f addr = s.qpResult f 1 := by
  rw [State.qpCreate_of_part he]
  cases hi : (List.range 65536).find? (s.ctxFree f) with
  | none => rfl
  | some i => exact if_pos (hfull.resolve_right (by simp [hi]))

theorem State.qpCreate_made {e : QpExport} {i : Nat} (he : QpExport.ofBytes (s.loads addr 128) = some e) (hroom : s.ownQps f < 65536)
    (hi : (List.range 65536).find? (s.ctxFree f) = some i) : s.qpCreate f addr = s.qpMade f e i := by
  rw [State.qpCreate_of_part he, hi]
  exact if_neg (Nat.not_le.2 hroom)

end

/-! ## Commands on a queue pair of the F-die (R441, R451) -/

section
variable {s : State} {f qpn : Nat}

/-- The F-die of the command has no such queue pair (R461). -/
theorem State.qpDestroy_notHere (h : ∀ q, s.qp qpn = some q → q.fdie ≠ f) : s.qpDestroy f qpn = s.qpResult f 2 := by
  unfold State.qpDestroy
  cases hq : s.qp qpn with
  | none => rfl
  | some q => exact if_pos (h q hq)

theorem State.qpToError_notHere (h : ∀ q, s.qp qpn = some q → q.fdie ≠ f) : s.qpToError f qpn = s.qpResult f 2 := by
  unfold State.qpToError
  cases hq : s.qp qpn with
  | none => rfl
  | some q => exact if_neg (h q hq)

/-- The queue that a destroyed queue pair carried ends with it, its controller where it is an admin queue (R106). -/
def State.qpQueueEnded (s : State) (qpn : Nat) (q : Qp) : State :=
  let u := s.dropCmds fun c => c.qpn == qpn
  if (u.host.queues.find? (queueKey q.e.cntlid q.e.qid)).any fun x => x.qpn == qpn then
    (if q.e.qid = 0 then u.deleteCtrl q.e.cntlid else u.deleteQueue q.e.cntlid q.e.qid)
  else u

/-- The context of a queue pair is gone; an index that this side gave waits until it may be used again (R441). -/
def State.qpGone (s : State) (qpn : Nat) : State :=
  { s with rdma := { s.rdma with
    qps := s.rdma.qps.erase qpn, freed := if qpSide qpn = s.side then s.rdma.freed.insert (ctxOf qpn) s.ao.tb else s.rdma.freed,
    waiting := s.rdma.waiting.filter fun w => w.1.qpn != qpn } }

theorem State.qpDestroy_here {q : Qp} (hq : s.qp qpn = some q) (hf : q.fdie = f) :
    s.qpDestroy f qpn =
      let u := s.qpQueueEnded qpn q
      ((if u.mirroring && !q.error then u.send 4 0 0 (.shadowqp false q.e none none) else u).qpGone qpn).qpResult f 0 := by
  unfold State.qpDestroy
  rw [hq]
  exact if_neg (not_not.2 hf)

theorem State.qpToError_here {q : Qp} (hq : s.qp qpn = some q) (hf : q.fdie = f) : s.qpToError f qpn = (s.qpFail qpn).qpResult f 0 := by
  unfold State.qpToError
  rw [hq]
  exact if_pos hf

/-- What a queue pair that enters the error state still held is gone (R451). -/
def Qp.failed (q : Qp) : Qp :=
  { q with error := true, sent := [], held := [], heldSince := none, heldR := [], heldRSince := none, asm := none, owed := [] }

theorem State.qpFail_running {q : Qp} (hq : s.qp qpn = some q) (hrun : q.error = false) :
    let u := (s.setQp qpn q.failed).dropCmds fun c => c.qpn == qpn
    let u := if q.e.qid = 0 then u.deleteCtrl q.e.cntlid else u.deleteQueue q.e.cntlid q.e.qid
    let u := u.addFld (dieF q.fdie) (Reg.RDM_CNT_COUNT.plus 48) 1
    s.qpFail qpn = (if u.mirroring then u.send 4 0 0 (.shadowqp false q.e none none) else u).exc 0 .qpError [qpn] := by
  unfold State.qpFail
  rw [hq]
  exact if_neg (Bool.eq_false_iff.1 hrun)

theorem State.sendQp_error {q : Qp} (hq : s.qp qpn = some q) (herr : q.error = true) (n : Nat) (k : SentKind) : s.sendQp qpn n k = s := by
  unfold State.sendQp
  rw [hq]
  exact if_pos herr

end

/-! ## The commands, where the head has the F-die -/

section
variable {s t : State} {f qpn : Nat}

theorem execQpCreate_here {addr : Nat} (hf : f < s.variant.sides) (h : s.qpCreate f addr = t) : exec (.qpCreate f addr) s = .next t :=
  (if_pos hf).trans (congrArg _ h)

theorem execQpDestroy_here (hf : f < s.variant.sides) (h : s.qpDestroy f qpn = t) : exec (.qpDestroy f qpn) s = .next t.settle :=
  next_settle (if_pos hf) h

theorem execQpMoveToError_here (hf : f < s.variant.sides) (h : s.qpToError f qpn = t) : exec (.qpMoveToError f qpn) s = .next t.settle :=
  next_settle (if_pos hf) h

end

/-! ## Times that pass (R441, R455) -/

theorem execQpReuseExpiry_due {s : State} {f i t : Nat} (ht : s.rdma.freed.find? (f * 65536 + i) = some t)
    (hdue : t + max 1 (s.fld (dieF f) Reg.RDM_REUSE_REUSE_MS) * 10 ^ 6 ≤ s.ao.tb) :
    exec (.qpReuseExpiry f i) s = .next { s with rdma := { s.rdma with freed := s.rdma.freed.erase (f * 65536 + i) } } := by
  show execQpReuseExpiry f i s = _
  simp only [execQpReuseExpiry, ht]
  exact if_pos hdue

theorem execLinkDownTimeout_due {s : State} {p t : Nat} (ht : (s.fport p).downAt = some t) (hlink : s.hasLink p = false)
    (hdue : t + max 1 (s.portFld p Reg.MAC_LINK_DOWN_MS) * 10 ^ 6 ≤ s.ao.tb) :
    exec (.linkDownTimeout p) s = .next
      (((s.rdma.qps.vals.filter fun q => q.fp == p).map fun q => q.e.qpn).foldl (fun (s : State) k => s.qpFail k) s).settle := by
  show execLinkDownTimeout p s = _
  simp only [execLinkDownTimeout, ht]
  exact if_pos (Bool.and_eq_true_iff.2 ⟨congrArg not hlink, decide_eq_true hdue⟩)

/-- Settles O47: a command where the head has the F-die is `State.qpCreate`, `State.qpDestroy` or `State.qpToError`, and each has a lemma for
every way it ends. -/
theorem queuePairsByCommand : Obligations.QueuePairsByCommand := by
  unfold Obligations.QueuePairsByCommand
  refine ⟨fun s f addr hf => ⟨fun he => execQpCreate_here hf (State.qpCreate_badPart he),
      fun e he hfull => execQpCreate_here hf (State.qpCreate_beyondLimits he hfull),
      fun e i he hroom hi => execQpCreate_here hf (State.qpCreate_made he hroom hi)⟩,
    fun e f rate now => ⟨rfl, rfl, rfl, rfl, rfl, rfl, rfl, rfl⟩,
    fun s f qpn hf h => ⟨execQpDestroy_here hf (State.qpDestroy_notHere h), execQpMoveToError_here hf (State.qpToError_notHere h)⟩,
    fun s f qpn q hf hq hfd => ⟨execQpDestroy_here hf (State.qpDestroy_here hq hfd), execQpMoveToError_here hf (State.qpToError_here hq hfd)⟩,
    fun s qpn q hq hrun => State.qpFail_running hq hrun,
    fun s qpn n k q hq herr => State.sendQp_error hq herr n k,
    fun s f i t ht hdue => execQpReuseExpiry_due ht hdue,
    fun s p t ht hlink hdue => execLinkDownTimeout_due ht hlink hdue⟩

end Sys2Proof.Machine
end

section
/-! Packets at the RDMA engines (R438, R445, R449 to R451, R457): which of them reach a queue pair, and what becomes of those. -/

namespace Sys2Proof.Machine

open Sys2Proof

/-! ## Ways into an engine (R445, R457) -/

theorem exec_roceCommand (h : RoceHdr) (k : RocePkt) (s : State) : exec (roceCommand h k) s = .next (roceEnds k (s.roceIn h k)) := by
  cases k <;> rfl

/-- What a packet command does follows from what the packet does. -/
theorem exec_roceCommand_of {h : RoceHdr} {k : RocePkt} {s t : State} (ht : s.roceIn h k = t) :
    exec (roceCommand h k) s = .next (roceEnds k t) := by
  rw [exec_roceCommand, ht]

section
variable {s : State} {h : RoceHdr} {q : Qp} (k : RocePkt) (hup : s.portUp h.port = true)
  (hen : s.flag (dieF (h.port / 4)) Reg.RDM_CTRL_EN = true) (hhead : s.pair.head = .twin ∨ s.pair.head = .solo)
include hup hen hhead

/-- An engine that runs on a port that is up takes what comes while the head serves. -/
theorem State.roceIn_taken : ¬(!s.portUp h.port || !s.flag (dieF (h.port / 4)) Reg.RDM_CTRL_EN ||
    !(s.pair.head == .twin || s.pair.head == .solo)) = true := by
  rcases hhead with hh | hh <;> simp [hup, hen, hh]

theorem State.roceIn_badIcrc (hcrc : h.icrcOk = false) :
    s.roceIn h k = (s.leaveRx h.port (.roce h.qpn)).rdmCount (h.port / 4) 1 1 :=
  (if_neg (State.roceIn_taken hup hen hhead)).trans (if_pos (congrArg not hcrc))

/-- A packet with a good ICRC is judged by its queue pair. -/
theorem State.roceIn_goodIcrc (hcrc : h.icrcOk = true) :
    s.roceIn h k = match s.qp h.qpn with
      | none => (s.leaveRx h.port (.roce h.qpn)).rdmCount (h.port / 4) 0 1
      | some q =>
        if q.fdie ≠ h.port / 4 ∨ h.srcIp ≠ q.e.dstIp ∨ h.srcPort ≠ q.e.srcPort then
          (s.leaveRx h.port (.roce h.qpn)).rdmCount (h.port / 4) 0 1
        else if q.onDie && !s.ctxWaits h.qpn then s.process h k
        else State.fetchCtx { s with rdma := { s.rdma with waiting := s.rdma.waiting ++ [(h, k)] } } :=
  (if_neg (State.roceIn_taken hup hen hhead)).trans (if_neg (by simp [hcrc]))

theorem State.roceIn_noQp (hcrc : h.icrcOk = true) (hq : s.qp h.qpn = none) :
    s.roceIn h k = (s.leaveRx h.port (.roce h.qpn)).rdmCount (h.port / 4) 0 1 := by
  rw [State.roceIn_goodIcrc k hup hen hhead hcrc, hq]

theorem State.roceIn_otherSource (hcrc : h.icrcOk = true) (hq : s.qp h.qpn = some q)
    (hsrc : q.fdie ≠ h.port / 4 ∨ h.srcIp ≠ q.e.dstIp ∨ h.srcPort ≠ q.e.srcPort) :
    s.roceIn h k = (s.leaveRx h.port (.roce h.qpn)).rdmCount (h.port / 4) 0 1 := by
  rw [State.roceIn_goodIcrc k hup hen hhead hcrc, hq]
  exact if_pos hsrc

/-- A packet from the host of its queue pair is processed, or waits for the context. -/
theorem State.roceIn_ownSource (hcrc : h.icrcOk = true) (hq : s.qp h.qpn = some q) (hf : q.fdie = h.port / 4) (hip : h.srcIp = q.e.dstIp)
    (hport : h.srcPort = q.e.srcPort) :
    s.roceIn h k = if q.onDie && !s.ctxWaits h.qpn then s.process h k
      else State.fetchCtx { s with rdma := { s.rdma with waiting := s.rdma.waiting ++ [(h, k)] } } := by
  rw [State.roceIn_goodIcrc k hup hen hhead hcrc, hq]
  exact if_neg (by simp [hf, hip, hport])

theorem State.roceIn_offDie (hcrc : h.icrcOk = true) (hq : s.qp h.qpn = some q) (hf : q.fdie = h.port / 4) (hip : h.srcIp = q.e.dstIp)
    (hport : h.srcPort = q.e.srcPort) (hoff : q.onDie = false) :
    s.roceIn h k = State.fetchCtx { s with rdma := { s.rdma with waiting := s.rdma.waiting ++ [(h, k)] } } := by
  rw [State.roceIn_ownSource k hup hen hhead hcrc hq hf hip hport]
  exact if_neg (by simp [hoff])

end

section
variable {s : State} {h : RoceHdr} {q : Qp} (k : RocePkt)

theorem State.roceIn_of_reaches (hr : RoceReaches s h q) : s.roceIn h k = s.process h k := by
  obtain ⟨hup, hen, hhead, hcrc, hq, hf, hip, hport, hon, hwait⟩ := hr
  rw [State.roceIn_ownSource k hup hen hhead hcrc hq hf hip hport]
  exact if_pos (by simp [hon, hwait])

theorem State.qp_of_reaches (hr : RoceReaches s h q) : s.qp h.qpn = some q := by
  obtain ⟨_, _, _, _, hq, _⟩ := hr
  exact hq

/-- A queue pair in the error state takes nothing (R451). -/
theorem State.process_error (hq : s.qp h.qpn = some q) (herr : q.error = true) : s.process h k = s.leaveRx h.port (.roce h.qpn) := by
  have hq' : (s.leaveRx h.port (.roce h.qpn)).qp h.qpn = some q := hq
  unfold State.process
  dsimp only
  rw [hq']
  exact if_pos herr

/-- What a packet that keeps R438 does, by its kind. -/
def State.roceActs (s : State) (h : RoceHdr) : RocePkt → State
  | .send first last len => s.onSend h.qpn h.psn first last len
  | .resp first last b => s.onResp h.qpn h.psn first last b
  | .ack a => s.onAckPkt h.qpn h.psn a
  | .cnp => s.onCnp h.qpn

theorem State.process_running (hq : s.qp h.qpn = some q) (hrun : q.error = false) :
    s.process h k = if !h.opOk then (s.roceAt h).invalidReq h.qpn h.psn else (s.roceAt h).roceActs h k := by
  have hq' : (s.leaveRx h.port (.roce h.qpn)).qp h.qpn = some q := hq
  unfold State.process
  dsimp only
  rw [hq']
  refine (if_neg (Bool.eq_false_iff.1 hrun)).trans ?_
  cases k <;> rfl

theorem State.roceIn_error (hr : RoceReaches s h q) (herr : q.error = true) : s.roceIn h k = s.leaveRx h.port (.roce h.qpn) :=
  (State.roceIn_of_reaches k hr).trans (State.process_error k (State.qp_of_reaches hr) herr)

theorem State.roceIn_invalid (hr : RoceReaches s h q) (hrun : q.error = false) (hop : h.opOk = false) :
    s.roceIn h k = (s.roceAt h).invalidReq h.qpn h.psn :=
  (State.roceIn_of_reaches k hr).trans ((State.process_running k (State.qp_of_reaches hr) hrun).trans (if_pos (congrArg not hop)))

theorem State.roceIn_acts (hr : RoceReaches s h q) (hrun : q.error = false) (hop : h.opOk = true) :
    s.roceIn h k = (s.roceAt h).roceActs h k :=
  (State.roceIn_of_reaches k hr).trans ((State.process_running k (State.qp_of_reaches hr) hrun).trans (if_neg (by simp [hop])))

end

/-! ## The reorder window (R449) -/

/-- The last packet of a message may be shorter than the path MTU, every other has its length (R438). -/
theorem mtu_kept {last : Bool} {n mtu : Nat} (h : if last then n ≤ mtu else n = mtu) :
    ¬(if last then decide (mtu < n) else n != mtu) = true := by
  cases last <;> simpa using h

section
variable {s : State} {qpn psn len : Nat} {first last : Bool} {q : Qp} (hq : s.qp qpn = some q)
include hq

/-- A SEND by its distance from the expected PSN. -/
theorem State.onSend_eq :
    s.onSend qpn psn first last len =
      let d := psnDist q.epsn psn
      if d = 0 then (s.takeSend qpn psn first last len).drainSends qpn (q.held.length + 1)
      else if d < s.window q.fdie then
        if q.held.has psn then s
        else if 4096 ≤ s.heldPkts q.fdie then s.expireSends qpn
        else s.setQp qpn { q with held := q.held.insert psn (.send first last len), heldSince := some (q.heldSince.getD s.ao.tb) }
      else if 2 ^ 23 ≤ d then if psnBefore q.ackSent psn then s else s.sendAck qpn q q.ackSent
      else s.expireSends qpn := by
  unfold State.onSend
  rw [hq]

theorem State.onSend_expected (hd : psnDist q.epsn psn = 0) :
    s.onSend qpn psn first last len = (s.takeSend qpn psn first last len).drainSends qpn (q.held.length + 1) :=
  (State.onSend_eq hq).trans (if_pos hd)

theorem State.onSend_held (hd : 0 < psnDist q.epsn psn) (hwin : psnDist q.epsn psn < s.window q.fdie) (hnew : q.held.has psn = false)
    (hroom : s.heldPkts q.fdie < 4096) :
    s.onSend qpn psn first last len =
      s.setQp qpn { q with held := q.held.insert psn (.send first last len), heldSince := some (q.heldSince.getD s.ao.tb) } := by
  rw [State.onSend_eq hq]
  dsimp only
  rw [if_neg (Nat.ne_of_gt hd), if_pos hwin, if_neg (Bool.eq_false_iff.1 hnew), if_neg (Nat.not_le.2 hroom)]

theorem State.onSend_beyond (hd : 0 < psnDist q.epsn psn) (hwin : s.window q.fdie ≤ psnDist q.epsn psn) (hahead : psnDist q.epsn psn < 2 ^ 23) :
    s.onSend qpn psn first last len = s.expireSends qpn := by
  rw [State.onSend_eq hq]
  dsimp only
  rw [if_neg (Nat.ne_of_gt hd), if_neg (Nat.not_lt.2 hwin), if_neg (Nat.not_le.2 hahead)]

/-- A duplicate is acknowledged again, unless it lies beyond what has been acknowledged. -/
theorem State.onSend_duplicate (hwin : s.window q.fdie ≤ psnDist q.epsn psn) (hbehind : 2 ^ 23 ≤ psnDist q.epsn psn)
    (hack : psnBefore q.ackSent psn = false) : s.onSend qpn psn first last len = s.sendAck qpn q q.ackSent := by
  have hd : psnDist q.epsn psn ≠ 0 := Nat.ne_of_gt (Nat.lt_of_lt_of_le (Nat.two_pow_pos 23) hbehind)
  rw [State.onSend_eq hq]
  dsimp only
  rw [if_neg hd, if_neg (Nat.not_lt.2 hwin), if_pos hbehind, if_neg (Bool.eq_false_iff.1 hack)]

/-- A SEND that fits its place in a message and the path MTU is taken; the last of a message hands its capsule on. -/
theorem State.takeSend_taken (hrun : q.error = false) (hplace : first ≠ q.asm.isSome) (hlen : if last then len ≤ q.e.mtu else len = q.e.mtu) :
    let u := s.setQp qpn { q with epsn := (psn + 1) % 2 ^ 24, asm := if last then none else some (q.asm.getD psn) }
    s.takeSend qpn psn first last len = if last then { u with rdma := { u.rdma with
      capsules := u.rdma.capsules ++ [(qpn, q.asm.getD psn, psnDist (q.asm.getD psn) psn + 1)] } } else u := by
  have hfits : ¬(first == q.asm.isSome || (if last then decide (q.e.mtu < len) else len != q.e.mtu)) = true := by
    rw [beq_false_of_ne hplace, Bool.false_or]
    exact mtu_kept hlen
  unfold State.takeSend
  rw [hq]
  exact (if_neg (Bool.eq_false_iff.1 hrun)).trans (if_neg hfits)

theorem State.expireSends_eq :
    s.expireSends qpn = (((s.setQp qpn { q with held := [], heldSince := none }).rdmCount q.fdie 8 1).sendNak { q with held := [], heldSince := none }
      (.nakSequence qpn q.epsn)) := by
  unfold State.expireSends
  rw [hq]

theorem State.expireResps_eq :
    s.expireResps qpn = ((s.setQp qpn { q with heldR := [], heldRSince := none }).rdmCount q.fdie 8 1).resend qpn
      (q.reading.map fun r => r.1).toList := by
  unfold State.expireResps
  rw [hq]
  rfl

/-- Data that a command has, with what a READ has brought: before or after a part that was here already. -/
def Cmd.withRead (c : Cmd) (b : Bytes) : Bytes :=
  match c.part with
  | some (true, d) => d ++ b
  | some (false, d) => b ++ d
  | none => b

/-- The last READ Response completes its READ, and the command goes on with the data. -/
theorem State.takeResp_last {tag : Nat} {b got : Bytes} {x : SentPkt} {c : Cmd} (hrun : q.error = false)
    (hread : q.reading = some (x, tag, (got ++ b).length, got)) (hlen : if last then b.length ≤ q.e.mtu else b.length = q.e.mtu)
    (hc : s.cmd tag = some c) :
    s.takeResp qpn psn last b = ((s.setQp qpn (({ q with sent := q.sent.erase x } : Qp).ackBefore x.psn s.ao.tb)).setCmd
      { c with data := some (c.withRead (got ++ b)), skips := c.skips ++ [(c.fetchAt, s.ao.tb)] }).advance tag := by
  have hwhole : ¬((got ++ b).length < (got ++ b).length ∨ last = true ∧ (got ++ b).length < (got ++ b).length) := by
    simp only [Nat.lt_irrefl, and_false, or_false, not_false_eq_true]
  have hc' : (s.setQp qpn (({ q with sent := q.sent.erase x } : Qp).ackBefore x.psn s.ao.tb)).cmd tag = some c := hc
  unfold State.takeResp
  rw [hq]
  dsimp only
  rw [hread]
  dsimp only
  rw [if_neg (Bool.eq_false_iff.1 hrun), if_neg hwhole, if_neg (mtu_kept hlen), if_pos rfl, hc']
  rfl

/-! ## Acknowledgements, retries and held packets in time (R449 to R451) -/

theorem State.onAckPkt_ack : s.onAckPkt qpn psn .ack = s.setQp qpn (q.ackBefore ((psn + 1) % 2 ^ 24) s.ao.tb) := by
  unfold State.onAckPkt
  dsimp only
  rw [hq]
  rfl

theorem State.onRnr_exhausted (hlast : q.e.rnrRetries ≤ q.rnr + 1) : s.onRnr qpn psn = s.qpFail qpn := by
  unfold State.onRnr
  rw [hq]
  exact if_pos hlast

theorem State.onRnr_again (hleft : q.rnr + 1 < q.e.rnrRetries) :
    let p := { q.ackBefore psn s.ao.tb with rnr := q.rnr + 1 }
    s.onRnr qpn psn = (s.setQp qpn p).resend qpn (p.sent.filter fun x => !(psnBefore x.last psn)) := by
  unfold State.onRnr
  rw [hq]
  exact if_neg (Nat.not_le.2 hleft)

theorem State.onNakSeq_again (hprobe : q.probes = 0) :
    let p := q.ackBefore psn s.ao.tb
    s.onNakSeq qpn psn = (s.setQp qpn p).resend qpn (p.sent.filter fun x => !(psnBefore x.last psn)) := by
  unfold State.onNakSeq
  rw [hq]
  exact if_neg (by simp [hprobe])

theorem execReorderTimeout_eq :
    exec (.reorderTimeout qpn) s =
      let due := fun (t : Option Nat) => t.any fun t => decide (t + s.fld (dieF q.fdie) Reg.RDM_CTRL_REORDER_US * 1000 ≤ s.ao.tb)
      let s' := if due q.heldSince then s.expireSends qpn else s
      .next (if due q.heldRSince then s'.expireResps qpn else s') := by
  show execReorderTimeout qpn s = _
  unfold execReorderTimeout
  rw [hq]

theorem execReorderTimeout_sends {t : Nat} (hsend : q.heldSince = some t) (hresp : q.heldRSince = none)
    (hdue : t + s.fld (dieF q.fdie) Reg.RDM_CTRL_REORDER_US * 1000 ≤ s.ao.tb) : exec (.reorderTimeout qpn) s = .next (s.expireSends qpn) := by
  simp [execReorderTimeout_eq hq, hsend, hresp, hdue]

theorem execReorderTimeout_resps {t : Nat} (hsend : q.heldSince = none) (hresp : q.heldRSince = some t)
    (hdue : t + s.fld (dieF q.fdie) Reg.RDM_CTRL_REORDER_US * 1000 ≤ s.ao.tb) : exec (.reorderTimeout qpn) s = .next (s.expireResps qpn) := by
  simp [execReorderTimeout_eq hq, hsend, hresp, hdue]

/-- A context that has been fetched lets the packets that waited for it go on, in order (R445). -/
theorem State.ctxArrived_fetched (hfetch : q.fetching = true) :
    let u := s.cacheCtx qpn
    s.ctxArrived qpn = ((u.rdma.waiting.filter fun w => w.1.qpn == qpn).foldl (fun (s : State) w => s.process w.1 w.2)
      { u with rdma := { u.rdma with waiting := u.rdma.waiting.filter fun w => w.1.qpn != qpn } }).fetchCtx := by
  unfold State.ctxArrived
  rw [hq]
  exact if_neg (by simp [hfetch])

/-- A local ACK timeout is taken while packets are out and nothing has moved (R442, R451). -/
theorem execLocalAckTimeout_due (hrun : q.error = false) (hsent : q.sent ≠ []) (hdue : q.lastTx + 4096 * 2 ^ q.e.timeout ≤ s.ao.tb) :
    exec (.localAckTimeout qpn) s = .next (if q.e.retries ≤ q.retries + 1 then s.qpFail qpn
      else (s.setQp qpn { q with retries := q.retries + 1 }).resend qpn q.sent).settle := by
  have hgo : (!q.error && !q.sent.isEmpty && decide (q.lastTx + 4096 * 2 ^ q.e.timeout ≤ s.ao.tb)) = true := by
    simp [hrun, hsent, hdue]
  show execLocalAckTimeout qpn s = _
  unfold execLocalAckTimeout State.ackTimeout
  rw [hq]
  exact if_pos hgo

theorem execLocalAckTimeout_exhausted (hrun : q.error = false) (hsent : q.sent ≠ []) (hdue : q.lastTx + 4096 * 2 ^ q.e.timeout ≤ s.ao.tb)
    (hlast : q.e.retries ≤ q.retries + 1) : exec (.localAckTimeout qpn) s = .next (s.qpFail qpn).settle :=
  next_settle (execLocalAckTimeout_due hq hrun hsent hdue) (if_pos hlast)

theorem execLocalAckTimeout_again (hrun : q.error = false) (hsent : q.sent ≠ []) (hdue : q.lastTx + 4096 * 2 ^ q.e.timeout ≤ s.ao.tb)
    (hleft : q.retries + 1 < q.e.retries) :
    exec (.localAckTimeout qpn) s = .next ((s.setQp qpn { q with retries := q.retries + 1 }).resend qpn q.sent).settle :=
  next_settle (execLocalAckTimeout_due hq hrun hsent hdue) (if_neg (Nat.not_le.2 hleft))

end

end Sys2Proof.Machine
end

section
/-! Rate control (R447, R448, R482): a CNP, its intervals, and the rate states of queue pairs and of session paths. -/

namespace Sys2Proof.Machine

open Sys2Proof

/-! ## A rate state -/

/-- A CNP lowers the rate once DEC_US has passed since it last fell. -/
theorem Cc.cnp_due {x : Cc} {now dec : Nat} (h : x.lastDec + dec ≤ now) (g low : Rat) :
    x.cnp now g low dec = { x with target := x.rate, rate := maxRat low (x.rate * (1 - x.alpha / 2)), alpha := x.alpha * (1 - g) + g,
                                   lastDec := now, steps := 0, lastCnp := some now } :=
  if_neg (Nat.not_lt.2 h)

section
variable {s : State} {f : Nat} {x : Cc}

theorem State.ccAlpha_due (h : max x.lastAlpha (x.lastCnp.getD 0) + s.fld (dieF f) Reg.RDM_CC_ALPHA_US * 1000 ≤ s.ao.tb) :
    s.ccAlpha f x = { x with alpha := x.alpha * (1 - s.ccGain f), lastAlpha := s.ao.tb } :=
  if_neg (Nat.not_lt.2 h)

theorem State.ccIncrease_due {line : Rat} (h : max x.lastDec x.lastInc + s.fld (dieF f) Reg.RDM_CC_INC_US * 1000 ≤ s.ao.tb)
    (hbelow : x.rate < line) :
    let rt := if s.fld (dieF f) Reg.RDM_CC_FR_STEPS < x.steps + 1
      then minRat line (x.target + (s.fld (dieF f) Reg.RDM_CC_RATE_RAI_MBPS : Rat)) else x.target
    s.ccIncrease f line x = { x with steps := x.steps + 1, target := rt, rate := (rt + x.rate) / 2, lastInc := s.ao.tb } :=
  if_neg (not_or.2 ⟨Nat.not_lt.2 h, not_le.2 hbelow⟩)

end

/-! ## Whose rate state -/

section
variable {s : State} {qpn : Nat} {q : Qp} (hq : s.qp qpn = some q)
include hq

theorem State.modCc_qp (f : Nat → Nat → Cc → Cc) : s.modCc (.qp qpn) f = s.setQp qpn { q with cc := f q.fdie q.fp q.cc } := by
  unfold State.modCc
  dsimp only
  rw [hq]

theorem State.onCnp_eq :
    let u := s.rdmCount q.fdie 5 1
    s.onCnp qpn = u.setQp qpn { q with cc := if u.ccExempt q then { q.cc with lastCnp := some s.ao.tb } else u.ccCnp q.fdie q.cc } := by
  unfold State.onCnp
  rw [hq]
  rfl

/-- Class 0 keeps its rate while C0_EXEMPT is 1 (R448). -/
theorem State.onCnp_exempt (hex : (s.rdmCount q.fdie 5 1).ccExempt q = true) :
    s.onCnp qpn = (s.rdmCount q.fdie 5 1).setQp qpn { q with cc := { q.cc with lastCnp := some s.ao.tb } } := by
  rw [State.onCnp_eq hq, if_pos hex]

theorem State.onCnp_limited (hex : (s.rdmCount q.fdie 5 1).ccExempt q = false) :
    s.onCnp qpn = (s.rdmCount q.fdie 5 1).setQp qpn { q with cc := (s.rdmCount q.fdie 5 1).ccCnp q.fdie q.cc } := by
  rw [State.onCnp_eq hq, if_neg (Bool.eq_false_iff.1 hex)]

theorem execCcAlphaUpdate_qp (hdue : max q.cc.lastAlpha (q.cc.lastCnp.getD 0) + s.fld (dieF q.fdie) Reg.RDM_CC_ALPHA_US * 1000 ≤ s.ao.tb) :
    exec (.ccAlphaUpdate (.qp qpn)) s =
      .next (s.setQp qpn { q with cc := { q.cc with alpha := q.cc.alpha * (1 - s.ccGain q.fdie), lastAlpha := s.ao.tb } }) := by
  show Host.Outcome.next (s.modCc (.qp qpn) fun f _ x => s.ccAlpha f x) = _
  rw [State.modCc_qp hq, State.ccAlpha_due hdue]

theorem execCcRateIncrease_qp (hdue : max q.cc.lastDec q.cc.lastInc + s.fld (dieF q.fdie) Reg.RDM_CC_INC_US * 1000 ≤ s.ao.tb)
    (hbelow : q.cc.rate < s.lineRate q.fp) :
    let rt := if s.fld (dieF q.fdie) Reg.RDM_CC_FR_STEPS < q.cc.steps + 1
      then minRat (s.lineRate q.fp) (q.cc.target + (s.fld (dieF q.fdie) Reg.RDM_CC_RATE_RAI_MBPS : Rat)) else q.cc.target
    exec (.ccRateIncrease (.qp qpn)) s = .next (s.setQp qpn { q with
      cc := { q.cc with steps := q.cc.steps + 1, target := rt, rate := (rt + q.cc.rate) / 2, lastInc := s.ao.tb } }) := by
  show Host.Outcome.next (s.modCc (.qp qpn) fun f p x => s.ccIncrease f (s.lineRate p) x) = _
  rw [State.modCc_qp hq, State.ccIncrease_due hdue hbelow]

end

theorem State.modCc_path {s : State} {fd k : Nat} {x : Sess} (hx : s.sess (sessKey fd k) = some x) (p : Nat) (f : Nat → Nat → Cc → Cc) :
    s.modCc (.path fd k p) f =
      s.setSess (sessKey fd k) { x with paths := x.paths.insert p { s.path x p with cc := f fd (fd * 4 + p / 16) (s.path x p).cc } } := by
  unfold State.modCc
  dsimp only
  rw [hx]

/-- Settles O46: a packet by `State.roceIn` and `State.process`, a SEND by its distance from the expected PSN, and each rate state by the
lemma of its change. -/
theorem rocePacketsAndRates : Obligations.RocePacketsAndRates := by
  unfold Obligations.RocePacketsAndRates
  refine ⟨fun s h q k hr hrun => ⟨fun hop => exec_roceCommand_of (State.roceIn_invalid k hr hrun hop), fun hop => ?acts⟩,
    fun s h q k hr herr => exec_roceCommand_of (State.roceIn_error k hr herr),
    fun s h k hup hen hhead => ⟨fun hcrc => exec_roceCommand_of (State.roceIn_badIcrc k hup hen hhead hcrc),
      fun hcrc hq => exec_roceCommand_of (State.roceIn_noQp k hup hen hhead hcrc hq),
      fun q hcrc hq hsrc => exec_roceCommand_of (State.roceIn_otherSource k hup hen hhead hcrc hq hsrc),
      fun q hcrc hq hf hip hport hoff => exec_roceCommand_of (State.roceIn_offDie k hup hen hhead hcrc hq hf hip hport hoff)⟩,
    fun s qpn psn len first last q hq => ⟨State.onSend_expected hq, State.onSend_held hq, State.onSend_beyond hq, State.onSend_duplicate hq⟩,
    fun s qpn psn len first last q hq hrun hplace hlen => State.takeSend_taken hq hrun hplace hlen,
    fun s qpn q hq => ⟨State.expireSends_eq hq, State.expireResps_eq hq⟩,
    fun s qpn psn tag last b got q x c hq hrun hread hlen hc => State.takeResp_last hq hrun hread hlen hc,
    fun s qpn psn q hq => ⟨State.onAckPkt_ack hq, rfl, State.onRnr_exhausted hq, State.onRnr_again hq, State.onNakSeq_again hq⟩,
    fun s qpn q hq => ⟨State.onCnp_exempt hq, fun hex hdue => ?cnp⟩,
    fun s qpn q hq => ⟨execCcAlphaUpdate_qp hq, execCcRateIncrease_qp hq⟩,
    fun s fd k p x hx => ⟨congrArg _ (State.modCc_path hx p _), congrArg _ (State.modCc_path hx p _)⟩,
    fun s qpn t q hq hdue => ⟨fun hsend hresp => execReorderTimeout_sends hq hsend hresp hdue,
      fun hsend hresp => execReorderTimeout_resps hq hsend hresp hdue⟩,
    fun s qpn q hq hfetch => next_settle rfl (State.ctxArrived_fetched hq hfetch),
    fun s qpn q hq hrun hsent hdue => ⟨execLocalAckTimeout_exhausted hq hrun hsent hdue, execLocalAckTimeout_again hq hrun hsent hdue⟩⟩
  case acts =>
    refine exec_roceCommand_of ((State.roceIn_acts k hr hrun hop).trans ?_)
    cases k <;> rfl
  case cnp =>
    have hfall := Cc.cnp_due (x := q.cc) hdue ((s.rdmCount q.fdie 5 1).ccGain q.fdie)
      ((s.rdmCount q.fdie 5 1).fld (dieF q.fdie) Reg.RDM_CC_RATE_MIN_MBPS : Nat)
    exact (State.onCnp_limited hq hex).trans (congrArg (fun c => (s.rdmCount q.fdie 5 1).setQp qpn { q with cc := c }) hfall)

end Sys2Proof.Machine
end

section
/-! Frames at the front ports (R415 to R423, R428, R434 to R437): where a frame goes, and which pool takes it. -/

namespace Sys2Proof.Machine

open Sys2Proof

/-! ## A frame comes in (R415, R417) -/

section
variable {s : State} {p : Nat} {b : Bytes}

/-- A port that is up takes frames while its head is not off. -/
theorem execFrameReceive_up {ok : Bool} {t : State} (hup : s.portUp p = true) (hhead : s.pair.head ≠ .off) (ht : s.receiveFrame p ok b = t) :
    exec (.frameReceive p ok b) s = .next t :=
  (if_pos (by simp [hup, hhead])).trans (congrArg _ ht)

/-- The counts of a received frame leave the head as it is. -/
theorem State.rxCounted_head (s : State) (p n : Nat) : (s.rxCounted p n).pair.head = s.pair.head := rfl

theorem State.receiveFrame_wrongSize (h : b.length + 4 < 64 ∨ (s.rxCounted p (b.length + 4)).maxFrame p < b.length + 4) :
    s.receiveFrame p true b = (s.rxCounted p (b.length + 4)).portCount p 3 1 := if_pos h

theorem State.receiveFrame_rightSize (hmin : 64 ≤ b.length + 4) (hmax : b.length + 4 ≤ (s.rxCounted p (b.length + 4)).maxFrame p) :
    s.receiveFrame p true b = (s.rxCounted p (b.length + 4)).dispatch p b :=
  if_neg (not_or.2 ⟨Nat.not_lt.2 hmin, Nat.not_lt.2 hmax⟩)

theorem State.dispatch_control (h : (parseFrame b).etype = 0x8808) : s.dispatch p b = s := if_pos h

/-- Any other frame goes by the state of the head (R417). -/
theorem State.dispatch_data (h : (parseFrame b).etype ≠ 0x8808) :
    s.dispatch p b = match s.pair.head with
      | .twin | .solo => match s.destOf p (parseFrame b) with
        | some (.roce qpn) =>
          (if (parseFrame b).tos.any fun t => t.2 == 3 then s.portCount p 8 1 else s).dispatchRoce p (s.rxPrio p (parseFrame b)) qpn b
        | some (.pronghorn ce n u) =>
          if s.flag (portDie p) Reg.PGT_CTRL_EN then s.admitFrame p (s.rxPrio p (parseFrame b)) (b.length + 4) (.pronghorn ce n u) else s
        | some .address => s.admitFrame p (s.rxPrio p (parseFrame b)) (b.length + 4) .address
        | none => s.filterFrame p b
      | .fawn => s.filterFrame p b
      | _ => s :=
  (if_neg h).trans rfl

theorem State.dispatch_idle (h : s.pair.head ∈ [HeadState.boot, .fenced, .thermalHold]) : s.dispatch p b = s := by
  by_cases hc : (parseFrame b).etype = 0x8808
  · exact State.dispatch_control hc
  · simp only [List.mem_cons, List.not_mem_nil, or_false] at h
    rcases h with h | h | h <;> rw [State.dispatch_data hc, h]

theorem State.dispatch_fawn (hdata : (parseFrame b).etype ≠ 0x8808) (h : s.pair.head = .fawn) : s.dispatch p b = s.filterFrame p b := by
  rw [State.dispatch_data hdata, h]

end

/-! ## A head that serves dispatches (R417 steps 3 to 5) -/

section
variable {s : State} {p : Nat} {b : Bytes} (hdata : (parseFrame b).etype ≠ 0x8808) (hserve : s.pair.head = .twin ∨ s.pair.head = .solo)
include hdata hserve

theorem State.dispatch_serving :
    s.dispatch p b = match s.destOf p (parseFrame b) with
      | some (.roce qpn) =>
        (if (parseFrame b).tos.any fun t => t.2 == 3 then s.portCount p 8 1 else s).dispatchRoce p (s.rxPrio p (parseFrame b)) qpn b
      | some (.pronghorn ce n u) =>
        if s.flag (portDie p) Reg.PGT_CTRL_EN then s.admitFrame p (s.rxPrio p (parseFrame b)) (b.length + 4) (.pronghorn ce n u) else s
      | some .address => s.admitFrame p (s.rxPrio p (parseFrame b)) (b.length + 4) .address
      | none => s.filterFrame p b := by
  rcases hserve with h | h <;> rw [State.dispatch_data hdata, h]

theorem State.dispatch_filtered (hd : s.destOf p (parseFrame b) = none) : s.dispatch p b = s.filterFrame p b := by
  rw [State.dispatch_serving hdata hserve, hd]

theorem State.dispatch_address (hd : s.destOf p (parseFrame b) = some .address) :
    s.dispatch p b = s.admitFrame p (s.rxPrio p (parseFrame b)) (b.length + 4) .address := by
  rw [State.dispatch_serving hdata hserve, hd]

theorem State.dispatch_pronghorn {ce : Bool} {n : Nat} {x : Bytes} (hd : s.destOf p (parseFrame b) = some (.pronghorn ce n x))
    (hen : s.flag (portDie p) Reg.PGT_CTRL_EN = true) :
    s.dispatch p b = s.admitFrame p (s.rxPrio p (parseFrame b)) (b.length + 4) (.pronghorn ce n x) := by
  rw [State.dispatch_serving hdata hserve, hd]
  exact if_pos hen

/-- A RoCEv2 packet, its mark counted: for queue pair 1 to the ring of connection management, else to its pool. -/
theorem State.dispatch_roce {qpn : Nat} (hd : s.destOf p (parseFrame b) = some (.roce qpn)) :
    let v := if (parseFrame b).tos.any fun t => t.2 == 3 then s.portCount p 8 1 else s
    v.flag (portDie p) Reg.RDM_CTRL_EN = true →
      s.dispatch p b = if qpn = 1 then v.deliverFrame p (v.fld (portDie p) Reg.RDM_CTRL_GSI_RING) 0 false b
        else v.admitFrame p (s.rxPrio p (parseFrame b)) (b.length + 4) (.roce qpn) := by
  intro v hen
  rw [State.dispatch_serving hdata hserve, hd]
  exact if_neg fun hoff => Bool.false_ne_true ((congrArg not hen).symm.trans hoff)

end

/-! ## Pattern filters (R436) -/

/-- The lowest filter that matches a frame. -/
def State.patHit (s : State) (p : Nat) (b : Bytes) : Option Nat :=
  (List.range 128).find? fun e => s.flag (portDie p) Reg.PAT_CTRL_EN && s.patMatch p e b

/-- A match of a filter is counted. -/
def State.patCounted (s : State) (p e : Nat) : State :=
  let k := (portDie p - 1) * 128 + e
  { s with rdma := { s.rdma with hits := s.rdma.hits.putD k (s.rdma.hits.getD k 0 + 1) 0 } }

theorem State.filterFrame_none {s : State} {p : Nat} {b : Bytes} (h : s.patHit p b = none) : s.filterFrame p b = s.portCount p 9 1 := by
  unfold State.patHit at h
  unfold State.filterFrame
  dsimp only
  rw [h]

theorem State.filterFrame_hit {s : State} {p e : Nat} {b : Bytes} (h : s.patHit p b = some e) :
    let act := s.tblFld (portDie p) 0 e 1 Reg.PAT_DATA_ACTION
    s.filterFrame p b = if act = 1 ∨ act = 2 then (s.patCounted p e).deliverFrame p (s.tblFld (portDie p) 0 e 1 Reg.PAT_DATA_RING) e
      (act == 2 && s.pair.head == .fawn) b else s.patCounted p e := by
  unfold State.patHit at h
  unfold State.filterFrame
  dsimp only
  rw [h]
  rfl

/-! ## Buffer pools (R421, R423, R427, R428) -/

/-- The pool of a frame by its priority. -/
def State.prioPool (s : State) (p prio : Nat) : Pool :=
  if s.pauseMode p = 1 ∨ prio = s.portFld p Reg.MAC_PFC_LL_PRIO then .lossless else .lossy

/-- A frame in a pool of the receive buffer. -/
def State.bufferFrame (s : State) (p : Nat) (d : RxDest) (k : Pool) (size : Nat) : State :=
  (s.setFport p { s.fport p with rx := (s.fport p).rx ++ [(d, k, size)] }).checkXoff p

/-- A frame at a pool: it is taken if MAX_FRAME bytes are free, else it is counted as dropped. -/
def State.admitTo (s : State) (p : Nat) (d : RxDest) (k : Pool) (size : Nat) : State :=
  if s.poolRoom p k then s.bufferFrame p d k size else s.portCount p (if k = .lossless then 5 else 4) 1

section
variable {s : State} {p prio size qpn : Nat} {d : RxDest} {k : Pool}

theorem State.poolRoom_of_le (h : (s.fport p).used k + s.maxFrame p ≤ s.poolSize p k) : s.poolRoom p k = true := decide_eq_true h

theorem State.poolRoom_of_lt (h : s.poolSize p k < (s.fport p).used k + s.maxFrame p) : s.poolRoom p k = false :=
  decide_eq_false (Nat.not_le.2 h)

theorem State.admitTo_room (h : (s.fport p).used k + s.maxFrame p ≤ s.poolSize p k) : s.admitTo p d k size = s.bufferFrame p d k size :=
  if_pos (State.poolRoom_of_le h)

theorem State.admitTo_full (h : s.poolSize p k < (s.fport p).used k + s.maxFrame p) :
    s.admitTo p d k size = s.portCount p (if k = .lossless then 5 else 4) 1 :=
  if_neg (Bool.eq_false_iff.1 (State.poolRoom_of_lt h))

theorem Pool.dropCount_eq (k : Pool) : (if k = .lossless then 5 else 4) = if k == .lossless then 5 else 4 := by cases k <;> rfl

/-- A frame for a queue pair of class 0. -/
def State.forClass0 (s : State) : RxDest → Bool
  | .roce qpn => (s.qp qpn).any Qp.pinned
  | _ => false

/-- A frame of class 0 goes to its own pool, and where that has no room is counted and goes by its priority, as every other does. -/
theorem State.admitFrame_eq :
    s.admitFrame p prio size d =
      let excess := s.forClass0 d && !s.poolRoom p .c0
      let u := if excess then s.portCount p 6 1 else s
      u.admitTo p d (if s.forClass0 d && !excess then .c0 else u.prioPool p prio) size := by
  simp only [State.admitTo, Pool.dropCount_eq]
  cases d <;> rfl

theorem State.admitFrame_byPrio (h : ∀ qpn, d = .roce qpn → (s.qp qpn).any Qp.pinned = false) :
    s.admitFrame p prio size d = s.admitTo p d (s.prioPool p prio) size := by
  have hclass : s.forClass0 d = false := by
    cases d with
    | roce qpn => exact h qpn rfl
    | pronghorn _ _ _ => rfl
    | address => rfl
  rw [State.admitFrame_eq, hclass]
  rfl

theorem State.admitFrame_class0 (hpin : (s.qp qpn).any Qp.pinned = true) (hroom : (s.fport p).used .c0 + s.maxFrame p ≤ s.poolSize p .c0) :
    s.admitFrame p prio size (.roce qpn) = s.bufferFrame p (.roce qpn) .c0 size := by
  have hclass : s.forClass0 (.roce qpn) = true := hpin
  rw [State.admitFrame_eq, hclass, State.poolRoom_of_le hroom]
  exact State.admitTo_room hroom

theorem State.admitFrame_excess (hpin : (s.qp qpn).any Qp.pinned = true) (hfull : s.poolSize p .c0 < (s.fport p).used .c0 + s.maxFrame p) :
    s.admitFrame p prio size (.roce qpn) =
      (s.portCount p 6 1).admitTo p (.roce qpn) ((s.portCount p 6 1).prioPool p prio) size := by
  have hclass : s.forClass0 (.roce qpn) = true := hpin
  rw [State.admitFrame_eq, hclass, State.poolRoom_of_lt hfull]
  rfl

end

/-! ## Pauses sent (R428) -/

section
variable {s : State} {p : Nat}

/-- The partner is paused once the lossless pool has risen to XOFF_KIB. -/
theorem State.checkXoff_rises (hno : (s.fport p).xoff = none) (hmode : s.pauseMode p ≠ 0) (htx : s.mayTransmit = true)
    (hfull : s.portFld p Reg.MAC_PFC_XOFF_KIB * 1024 ≤ (s.fport p).used .lossless) :
    s.checkXoff p = (s.setFport p { s.fport p with xoff := some s.ao.tb }).sendPause p 0xFFFF := by
  have hlow : ¬(s.fport p).used .lossless < s.portFld p Reg.MAC_PFC_XOFF_KIB * 1024 := Nat.not_lt.2 hfull
  exact if_neg (by simp [hno, hmode, htx, hlow])

theorem execLosslessXon_falls {t : Nat} (hx : (s.fport p).xoff = some t) (hlow : (s.fport p).used .lossless ≤ s.xonBytes p) :
    exec (.losslessXon p) s = .next ((s.setFport p { s.fport p with xoff := none }).sendPause p 0) :=
  if_pos (by simp [hx, hlow])

theorem execPfcRefresh_due {t : Nat} (hx : (s.fport p).xoff = some t) (hhigh : s.xonBytes p < (s.fport p).used .lossless)
    (hdue : t + s.quanta p 0xFFFF / 2 ≤ s.ao.tb) :
    exec (.pfcRefresh p) s = .next ((s.setFport p { s.fport p with xoff := some s.ao.tb }).sendPause p 0xFFFF) := by
  show execPfcRefresh p s = _
  unfold execPfcRefresh
  dsimp only
  rw [hx]
  exact if_pos (Bool.and_eq_true_iff.2 ⟨decide_eq_true hhigh, decide_eq_true hdue⟩)

end

end Sys2Proof.Machine
end

section
/-! Pauses received (R427, R430, R431): which frames are honoured, how long a priority is held, and pause storms. -/

namespace Sys2Proof.Machine

open Sys2Proof

section
variable {s : State} {p op : Nat} {times : List (Nat × Nat)}

theorem execPauseFrame_up {t : State} (hup : s.portUp p = true) (hhead : s.pair.head ≠ .off) (ht : s.pauseFrame p op times = t) :
    exec (.pauseFrame p op times) s = .next t :=
  (if_pos (by simp [hup, hhead])).trans (congrArg _ ht)

/-- A PAUSE in mode 1 holds every priority. -/
theorem State.pauseFrame_pause (h : (s.portCount p 7 1).pauseMode p = 1 ∧ op = 1) :
    s.pauseFrame p op times =
      (List.range 8).foldl (fun (s : State) q => s.pausePrio p q ((times.head?.map Prod.snd).getD 0 % 65536)) (s.portCount p 7 1) :=
  if_pos h

/-- A PFC frame in mode 2 holds the priorities that RX_HONOUR names. -/
theorem State.pauseFrame_pfc (hmode : (s.portCount p 7 1).pauseMode p = 2) (hop : op = 0x0101) :
    s.pauseFrame p op times =
      (times.filter fun t => decide (t.1 < 8) && (s.portCount p 7 1).portFld p Reg.MAC_PFC_RX_HONOUR / 2 ^ t.1 % 2 == 1).foldl
        (fun (s : State) t => s.pausePrio p t.1 (t.2 % 65536)) (s.portCount p 7 1) :=
  (if_neg (by omega)).trans (if_pos ⟨hmode, hop⟩)

theorem State.pauseFrame_other (hpause : ¬((s.portCount p 7 1).pauseMode p = 1 ∧ op = 1))
    (hpfc : ¬((s.portCount p 7 1).pauseMode p = 2 ∧ op = 0x0101)) : s.pauseFrame p op times = (s.portCount p 7 1).badControl p :=
  (if_neg hpause).trans (if_neg hpfc)

end

/-! ## A held priority -/

section
variable {s : State} {p prio t : Nat}

/-- A stormed priority disregards a pause, which puts off the end of the storm (R431). -/
theorem State.pausePrio_stormed (h : (s.fport p).storm.has prio = true) :
    s.pausePrio p prio t = s.setFport p { s.fport p with storm := (s.fport p).storm.insert prio s.ao.tb } := if_pos h

theorem State.pausePrio_zero (h : (s.fport p).storm.has prio = false) : s.pausePrio p prio 0 = s.setHold p ((s.fport p).hold.erase prio) :=
  (if_neg (Bool.eq_false_iff.1 h)).trans (if_pos rfl)

theorem State.pausePrio_fresh (h : (s.fport p).storm.has prio = false) (ht : t ≠ 0) (hold : (s.fport p).hold.find? prio = none) :
    s.pausePrio p prio t = s.setHold p ((s.fport p).hold.insert prio (s.ao.tb + s.quanta p t, s.ao.tb)) := by
  refine (if_neg (Bool.eq_false_iff.1 h)).trans ((if_neg ht).trans ?_)
  rw [hold]

theorem execPauseExpiry_due {till since : Nat} (hold : (s.fport p).hold.find? prio = some (till, since)) (hdue : till ≤ s.ao.tb) :
    exec (.pauseExpiry p prio) s = .next (s.setHold p ((s.fport p).hold.erase prio)) := by
  show execPauseExpiry p prio s = _
  unfold execPauseExpiry
  dsimp only
  rw [hold]
  exact if_pos hdue

theorem execPauseStorm_due {till since : Nat} (hold : (s.fport p).hold.find? prio = some (till, since))
    (hms : s.portFld p Reg.MAC_PFC_STORM_MS ≠ 0) (hheld : s.ao.tb < till) (hdue : since + s.portFld p Reg.MAC_PFC_STORM_MS * 10 ^ 6 ≤ s.ao.tb) :
    let u := s.setHold p ((s.fport p).hold.erase prio)
    exec (.pauseStorm p prio) s =
      .next ((u.setFport p { u.fport p with storm := (u.fport p).storm.insert prio u.ao.tb }).event (portDie p) 0x10 0 (p % 4)) := by
  show execPauseStorm p prio s = _
  unfold execPauseStorm
  dsimp only
  rw [hold]
  exact if_pos ⟨hms, hheld, hdue⟩

theorem execPauseStormEnd_due (hstorm : (s.fport p).storm.find? prio = some t) (hdue : t + 10 ^ 8 ≤ s.ao.tb) :
    exec (.pauseStormEnd p prio) s = .next (s.setFport p { s.fport p with storm := (s.fport p).storm.erase prio }) := by
  show execPauseStormEnd p prio s = _
  unfold execPauseStormEnd
  dsimp only
  rw [hstorm]
  exact if_pos hdue

end

end Sys2Proof.Machine
end

section
/-! Frames sent (R158, R416, R419, R424 to R426, R432, R447, R455, R456): which frame is next, what it carries, and what holds frames back. -/

namespace Sys2Proof.Machine

open Sys2Proof

/-! ## A frame is out (R416, R432) -/

section
variable {s : State} {p : Nat}

theorem execTxFrameDone_sent {f : TxFrame} (hf : (s.fport p).sending = some f) (hlink : s.hasLink p = true) (htx : s.mayTransmit = true)
    (hgo : s.txStopped p f = false) :
    let u := (((s.setFport p { s.fport p with sending := none }).emit (s.frameOut p f)).portCount p 10 1).portCount p 11 f.size
    exec (.txFrameDone p) s = .next ((if f.control then u.portCount p 12 1 else u).startTx p) := by
  show execTxFrameDone p s = _
  unfold execTxFrameDone
  dsimp only
  rw [hf]
  exact if_neg (by simp [hlink, htx, hgo])

theorem execTxFrameDone_idle (hf : (s.fport p).sending = none) : exec (.txFrameDone p) s = .next (s.startTx p) := by
  show execTxFrameDone p s = _
  unfold execTxFrameDone
  dsimp only
  rw [hf]

/-- Every frame leaves as its port's; a RoCEv2 packet carries ECT(0) while RDM_CC.ECT is 1 (R426). -/
theorem State.frameOut_fields (s : State) (p : Nat) (f : TxFrame) :
    ∃ vlan pcp dscp ecn, s.frameOut p f = .frame (p / 4) (p % 4) f vlan pcp dscp ecn ∧ vlan = s.portFld p Reg.MAC_CFG_VLAN_ID ∧
      (vlan ≠ 0 → pcp = s.prioOf p f.cls) ∧ (f.ip = true → dscp = s.portFld p { Reg.MAC_DSCP_DSCP_p with lo := 6 * s.prioOf p f.cls, w := 6 }) ∧
      (∀ n, f.who = some (.qp n) → ecn = if s.flag (portDie p) Reg.RDM_CC_ECT then 2 else 0) := by
  refine ⟨_, _, _, _, rfl, rfl, fun hvlan => if_neg hvlan, fun hip => if_pos hip, fun n hn => ?_⟩
  rw [hn]
  rfl

/-! ## The next frame (R158, R425, R430, R447, R455, R456) -/

theorem State.startTx_silent (h : s.mayTransmit = false ∨ s.hasLink p = false) : s.startTx p = s :=
  if_pos (by rcases h with h | h <;> simp [h])

section
variable (hfree : (s.fport p).sending = none) (hlink : s.hasLink p = true) (htx : s.mayTransmit = true)
include hfree hlink htx

/-- A transmitter that is free and may send is not silent. -/
theorem State.startTx_may : ¬((s.fport p).sending.isSome || !s.hasLink p || !s.mayTransmit) = true := by
  simp [hfree, hlink, htx]

theorem State.startTx_control (hany : (s.fport p).txq.any (fun f => f.control && !s.txStopped p f) = true) :
    s.startTx p = s.setFport p ((s.fport p).start s.ao.tb (s.gap p) fun f => f.control && !s.txStopped p f) :=
  (if_neg (State.startTx_may hfree hlink htx)).trans (if_pos hany)

theorem State.startTx_class0 (hcontrol : (s.fport p).txq.any (fun f => f.control && !s.txStopped p f) = false)
    (hheld : (s.fport p).held s.ao.tb (s.prioOf p 0) = false)
    (hany : (s.fport p).txq.any (fun f => !f.control && f.cls == 0 && !s.txStopped p f && !(s.fport p).waits s.ao.tb f) = true) :
    s.startTx p = s.setFport p ((s.fport p).start s.ao.tb (s.gap p) fun f =>
      !f.control && f.cls == 0 && !s.txStopped p f && !(s.fport p).waits s.ao.tb f) :=
  (if_neg (State.startTx_may hfree hlink htx)).trans
    ((if_neg (Bool.eq_false_iff.1 hcontrol)).trans (if_pos (Bool.and_eq_true_iff.2 ⟨congrArg not hheld, hany⟩)))

end

/-- A handover that has reached its step 2 stops every frame of its ports, a handback those of adopted queue pairs and addresses (R158, R159). -/
theorem State.txStopped_giving {f : TxFrame} {ports shards : List Nat} (hg : s.pair.giving = some (1, ports, shards)) (hp : p ∈ ports)
    (hf : shards ≠ [] ∨ f.adopted = true) : s.txStopped p f = true := by
  unfold State.txStopped
  rw [hg]
  rcases hf with hf | hf <;> simp [hp, hf]

end

theorem Port.start_paced (x : Port) (now : Nat) (gap : TxFrame → Option (CcWho × Nat)) (pick : TxFrame → Bool) {f : TxFrame} {w : CcWho} {t : Nat}
    (hf : x.txq.find? pick = some f) (hg : gap f = some (w, t)) : (w, t) ∈ (x.start now gap pick).paced := by
  refine List.mem_append.2 (.inr ?_)
  rw [hf]
  exact Option.mem_toList.2 hg

section
variable {s : State} {p n : Nat} {f : TxFrame} {q : Qp} (hw : f.who = some (.qp n)) (hq : s.qp n = some q)
include hw hq

/-- The next frame of a queue pair below the line rate waits for as long as this one takes at its rate (R447). -/
theorem State.gap_slow (hcls : f.cls ≠ 0) (hrate : q.cc.rate < s.lineRate p) :
    s.gap p f = some (.qp n, s.ao.tb + (((f.size * 8000 : Nat) : Rat) / q.cc.rate).ceil.toNat) := by
  refine (if_neg hcls).trans ?_
  rw [hw, Option.bind_some, show s.ccOf (.qp n) = some q.cc from congrArg (Option.map Qp.cc) hq]
  exact if_neg (not_le.2 hrate)

/-- Class 0, and a queue pair at the line rate, is not held back (R448). -/
theorem State.gap_none (h : f.cls = 0 ∨ s.lineRate p ≤ q.cc.rate) : s.gap p f = none := by
  by_cases hcls : f.cls = 0
  · exact if_pos hcls
  · refine (if_neg hcls).trans ?_
    rw [hw, Option.bind_some, show s.ccOf (.qp n) = some q.cc from congrArg (Option.map Qp.cc) hq]
    exact if_pos (h.resolve_left hcls)

end

/-! ## Addresses (R419) -/

theorem execAddressRequest_active {s : State} {p kind : Nat} {a : BitVec 128} (hup : (s.leaveRx p .address).portUp p = true)
    (hhead : (s.leaveRx p .address).pair.head = .twin ∨ (s.leaveRx p .address).pair.head = .solo)
    (hlease : (s.leaveRx p .address).flag (dieF 0) Reg.TKO_STATE_LEASE = true) (ha : (s.leaveRx p .address).isActiveAddr p kind a = true) :
    exec (.addressRequest p kind a) s =
      .next (((s.leaveRx p .address).queueFrame p (addrFrame kind ((s.leaveRx p .address).isAdoptedAddr p kind a))).emit
        (.addrReply (p / 4) (p % 4) kind a)) :=
  if_pos (by rcases hhead with h | h <;> simp [hup, h, hlease, ha])

/-! ## Links (R455) -/

theorem execLinkDown_linked {s : State} {p : Nat} (hp : p ∈ s.fps) (hlink : s.hasLink p = true) :
    exec (.linkDown p) s = .next (((s.portDown p).setPortFld p Reg.MAC_STATUS_FEC_LOCK 0).setPortFld p Reg.MAC_STATUS_AN_DONE 0) :=
  if_pos (by simp [hp, hlink])

/-- Of its port, a loss of link changes the time of the loss alone. -/
theorem State.portDown_fport (s : State) (p : Nat) : (s.portDown p).fport p = { s.fport p with downAt := some s.ao.tb } :=
  SMap.getD_putD (fun h => Option.some_ne_none _ (congrArg Port.downAt h)) s.rdma.ports p

theorem execLinkUp_enabled {s : State} {p : Nat} (hp : p ∈ s.fps) (hen : s.portFld p Reg.MAC_CFG_EN = 1) (hlink : s.hasLink p = false) :
    let u := ((s.setPortFld p Reg.MAC_STATUS_LINK 1).setPortFld p Reg.MAC_STATUS_FEC_LOCK 1).setPortFld p Reg.MAC_STATUS_AN_DONE
      (if s.portFld p Reg.MAC_CFG_AN_EN = 1 ∧ s.portFld p Reg.MAC_CFG_MEDIA ≠ 2 then 1 else 0)
    exec (.linkUp p) s = .next ((u.setFport p { u.fport p with downAt := none }).startTx p) := by
  have han : boolNat (s.portFld p Reg.MAC_CFG_AN_EN == 1 && s.portFld p Reg.MAC_CFG_MEDIA != 2) =
      if s.portFld p Reg.MAC_CFG_AN_EN = 1 ∧ s.portFld p Reg.MAC_CFG_MEDIA ≠ 2 then 1 else 0 := by
    simp [boolNat]
  rw [← han]
  exact if_pos (by simp [hp, hen, hlink])

end Sys2Proof.Machine
end

section
/-! The snapshot of a port's counters (R433). -/

namespace Sys2Proof.Machine

open Sys2Proof

/-- Counter `i` of a port, and its copy. -/
def cntFld (p i : Nat) : Fld := Reg.MAC_CNT_COUNT.plus (portOff p + 8 * i)
def snapFld (p i : Nat) : Fld := Reg.MAC_SNAPC_COUNT.plus (portOff p + 8 * i)

/-- A counter is copied and cleared. -/
def State.snapCounter (s : State) (p i : Nat) : State :=
  (s.setFld (portDie p) (snapFld p i) (s.fld (portDie p) (cntFld p i))).setFld (portDie p) (cntFld p i) 0

theorem State.snapCounters_eq (s : State) (p : Nat) :
    s.snapCounters p =
      ((List.range 16).foldl (fun s i => s.snapCounter p i) (s.accrueHold p)).addFld (portDie p) (Reg.MAC_SNAP_SEQ.plus (portOff p)) 1 := rfl

/-- Registers of the MAC block at different offsets are different registers. -/
theorem State.fld_setMacFld_ne {s : State} (h : s.Ordered) {die v : Nat} {f g : Fld} (hf : f.blk = 0x10) (hg : g.blk = 0x10) (hoff : g.off ≠ f.off) :
    (s.setFld die f v).fld die g = s.fld die g :=
  State.fld_setFld_ne h v (by simpa [regKey, homeDie, hf, hg] using hoff)

theorem State.fld_lt (s : State) (die : Nat) (f : Fld) : s.fld die f < 2 ^ f.w := bitsAt_lt _ _ _

section
variable {s : State} (h : s.Ordered) (p : Nat)
include h

theorem State.ordered_snapCounter (i : Nat) : (s.snapCounter p i).Ordered := State.ordered_setFld (State.ordered_setFld h ..) ..

theorem State.snapCounter_cleared (i : Nat) : (s.snapCounter p i).fld (portDie p) (cntFld p i) = 0 :=
  State.fld_setFld_same (State.ordered_setFld h ..) (portDie p) (f := cntFld p i) (Nat.le_refl 64) 0

theorem State.snapCounter_copied (i : Nat) :
    (s.snapCounter p i).fld (portDie p) (snapFld p i) = s.fld (portDie p) (cntFld p i) := by
  have hoff : (snapFld p i).off ≠ (cntFld p i).off := by simp only [snapFld, cntFld, Fld.plus, Reg.MAC_SNAPC_COUNT, Reg.MAC_CNT_COUNT]; omega
  have hlt : s.fld (portDie p) (cntFld p i) < 2 ^ 64 := s.fld_lt ..
  calc (s.snapCounter p i).fld (portDie p) (snapFld p i)
      = (s.setFld (portDie p) (snapFld p i) (s.fld (portDie p) (cntFld p i))).fld (portDie p) (snapFld p i) :=
        State.fld_setMacFld_ne (State.ordered_setFld h ..) rfl rfl hoff
    _ = s.fld (portDie p) (cntFld p i) % 2 ^ 64 := State.fld_setFld_same h (portDie p) (f := snapFld p i) (Nat.le_refl 64) _
    _ = s.fld (portDie p) (cntFld p i) := Nat.mod_eq_of_lt hlt

/-- What lies elsewhere in the block stays. -/
theorem State.snapCounter_apart {i : Nat} {g : Fld} (hg : g.blk = 0x10) (hcnt : g.off ≠ (cntFld p i).off) (hsnap : g.off ≠ (snapFld p i).off) :
    (s.snapCounter p i).fld (portDie p) g = s.fld (portDie p) g :=
  (State.fld_setMacFld_ne (State.ordered_setFld h ..) rfl hg hcnt).trans (State.fld_setMacFld_ne h rfl hg hsnap)

end

/-- The first `n` counters of a port have been copied and cleared, and nothing but registers has changed. -/
structure Snapped (p n : Nat) (s t : State) : Prop where
  ordered : t.Ordered
  only : ∃ r, t = { s with regs := r }
  cleared : ∀ i < n, t.fld (portDie p) (cntFld p i) = 0
  copied : ∀ i < n, t.fld (portDie p) (snapFld p i) = s.fld (portDie p) (cntFld p i)
  waiting : ∀ i, n ≤ i → i < 16 → t.fld (portDie p) (cntFld p i) = s.fld (portDie p) (cntFld p i)

theorem cntFld_off_ne {p i j : Nat} (h : i ≠ j) : (cntFld p i).off ≠ (cntFld p j).off := by simpa [cntFld, Fld.plus] using h
theorem snapFld_off_ne {p i j : Nat} (h : i ≠ j) : (snapFld p i).off ≠ (snapFld p j).off := by simpa [snapFld, Fld.plus] using h

/-- The copies of the 16 counters lie above the counters. -/
theorem cntFld_off_lt_snapFld {i : Nat} (hi : i < 16) (p j : Nat) : (cntFld p i).off < (snapFld p j).off := by
  simp only [cntFld, snapFld, Fld.plus, Reg.MAC_CNT_COUNT, Reg.MAC_SNAPC_COUNT]
  omega

theorem Snapped.next {p n : Nat} {s t : State} (h : Snapped p n s t) (hn : n < 16) : Snapped p (n + 1) s (t.snapCounter p n) where
  ordered := State.ordered_snapCounter h.ordered p n
  only := State.setFld_only (State.setFld_only h.only ..) ..
  cleared i hi := by
    by_cases e : i = n
    · rw [e, State.snapCounter_cleared h.ordered p n]
    · rw [State.snapCounter_apart h.ordered p rfl (cntFld_off_ne e) (Nat.ne_of_lt (cntFld_off_lt_snapFld (by omega) p n)), h.cleared i (by omega)]
  copied i hi := by
    by_cases e : i = n
    · rw [e, State.snapCounter_copied h.ordered p n, h.waiting n (Nat.le_refl n) hn]
    · rw [State.snapCounter_apart h.ordered p rfl (Nat.ne_of_gt (cntFld_off_lt_snapFld hn p i)) (snapFld_off_ne e), h.copied i (by omega)]
  waiting i hi hlt := by
    rw [State.snapCounter_apart h.ordered p rfl (cntFld_off_ne (by omega)) (Nat.ne_of_lt (cntFld_off_lt_snapFld hlt p n)), h.waiting i (by omega) hlt]

theorem State.snapped_foldl {s : State} (h : s.Ordered) (p n : Nat) (hn : n ≤ 16) :
    Snapped p n s ((List.range n).foldl (fun s i => s.snapCounter p i) s) := by
  induction n with
  | zero => exact ⟨h, ⟨_, rfl⟩, fun i hi => absurd hi (Nat.not_lt_zero i), fun i hi => absurd hi (Nat.not_lt_zero i), fun _ _ _ => rfl⟩
  | succ n ih =>
    rw [List.range_succ, List.foldl_append]
    exact (ih (by omega)).next hn

/-- The held time that is counted first changes TX_HOLD_NS and the port (R430, R433). -/
theorem State.accrueHold_only (s : State) (p : Nat) : ∃ r x, s.accrueHold p = { s with regs := r, rdma := x } := by
  unfold State.accrueHold
  dsimp only
  split <;> exact ⟨_, _, rfl⟩

theorem State.ordered_accrueHold {s : State} (h : s.Ordered) (p : Nat) : (s.accrueHold p).Ordered := by
  unfold State.accrueHold
  dsimp only
  split
  · exact h
  · exact State.ordered_setFld h ..

theorem State.snapCounters_only (s : State) (p : Nat) (h : s.Ordered) : ∃ r x, s.snapCounters p = { s with regs := r, rdma := x } := by
  obtain ⟨r, hr⟩ := (State.snapped_foldl (State.ordered_accrueHold h p) p 16 (Nat.le_refl 16)).only
  obtain ⟨_, x, hx⟩ := s.accrueHold_only p
  rw [State.snapCounters_eq, hr, hx]
  exact ⟨_, _, rfl⟩

/-- The count of snapshots, in MAC_SNAP, leaves the counters and their copies. -/
theorem State.snapCounters_fld {s : State} (h : s.Ordered) (p : Nat) {g : Fld} (hg : g.blk = 0x10) (hoff : portOff p + 0x30 < g.off) :
    (s.snapCounters p).fld (portDie p) g =
      ((List.range 16).foldl (fun s i => s.snapCounter p i) (s.accrueHold p)).fld (portDie p) g := by
  have hseq : (Reg.MAC_SNAP_SEQ.plus (portOff p)).off = portOff p + 0x30 := Nat.add_comm ..
  rw [State.snapCounters_eq]
  exact State.fld_setMacFld_ne (State.snapped_foldl (State.ordered_accrueHold h p) p 16 (Nat.le_refl 16)).ordered rfl hg (by omega)

theorem State.snapCounters_copies {s : State} (h : s.Ordered) (p : Nat) {i : Nat} (hi : i < 16) :
    (s.snapCounters p).fld (portDie p) (cntFld p i) = 0 ∧
      (s.snapCounters p).fld (portDie p) (snapFld p i) = (s.accrueHold p).fld (portDie p) (cntFld p i) := by
  have hcnt : (cntFld p i).off = 0x100 + (portOff p + 8 * i) := rfl
  have hsnap : (snapFld p i).off = 0x200 + (portOff p + 8 * i) := rfl
  have hall := State.snapped_foldl (State.ordered_accrueHold h p) p 16 (Nat.le_refl 16)
  rw [State.snapCounters_fld h p rfl (by omega), State.snapCounters_fld h p rfl (by omega)]
  exact ⟨hall.cleared i hi, hall.copied i hi⟩

theorem execCounterSnapshot_own {s : State} {p : Nat} (hp : p ∈ s.fps) : exec (.counterSnapshot p) s = .next (s.snapCounters p) :=
  if_pos (List.contains_iff_mem.2 hp)

/-- Settles O45: a frame in by `State.receiveFrame` and `State.dispatch`, its pool by `State.admitFrame`, the next frame out by
`State.startTx`, a snapshot counter by counter, and every other command by the lemma of its case. -/
theorem frontPortsReceiveHoldAndSend : Obligations.FrontPortsReceiveHoldAndSend := by
  unfold Obligations.FrontPortsReceiveHoldAndSend
  refine ⟨fun s p b hup hhead => ⟨execFrameReceive_up hup hhead rfl, fun hsize => execFrameReceive_up hup hhead (State.receiveFrame_wrongSize hsize),
      fun hmin hmax => ?frame⟩,
    fun s p b => ⟨State.filterFrame_none, fun e he => State.filterFrame_hit he⟩,
    fun s p prio size d hpin => ⟨fun hroom => (State.admitFrame_byPrio hpin).trans (State.admitTo_room hroom),
      fun hfull => (State.admitFrame_byPrio hpin).trans (State.admitTo_full hfull)⟩,
    fun s p prio size qpn hpin => ⟨State.admitFrame_class0 hpin, State.admitFrame_excess hpin⟩,
    fun s p hno hmode htx hfull => State.checkXoff_rises hno hmode htx hfull,
    fun s p t hx => ⟨execLosslessXon_falls hx, execPfcRefresh_due hx⟩,
    fun s p op times hup hhead => ⟨fun hmode hop => execPauseFrame_up hup hhead (State.pauseFrame_pause ⟨hmode, hop⟩),
      fun hmode hop => execPauseFrame_up hup hhead (State.pauseFrame_pfc hmode hop),
      fun hpause hpfc => execPauseFrame_up hup hhead (State.pauseFrame_other hpause hpfc)⟩,
    fun s p prio t => ⟨State.pausePrio_stormed, State.pausePrio_zero, State.pausePrio_fresh⟩,
    fun s p prio till since hold => ⟨execPauseExpiry_due hold, execPauseStorm_due hold⟩,
    fun s p prio t hstorm hdue => execPauseStormEnd_due hstorm hdue,
    fun s p f hf hlink htx hgo => execTxFrameDone_sent hf hlink htx hgo,
    fun s p hf => execTxFrameDone_idle hf,
    State.frameOut_fields,
    fun s p hfree hlink htx => ⟨State.startTx_control hfree hlink htx, State.startTx_class0 hfree hlink htx⟩,
    fun x now gap pick => ⟨rfl, rfl, fun f w t hf hg => x.start_paced now gap pick hf hg⟩,
    fun s p n f q hw hq => ⟨State.gap_slow hw hq, State.gap_none hw hq⟩,
    fun s p f ports shards hg hp hf => State.txStopped_giving hg hp hf,
    fun s p h => State.startTx_silent h,
    fun s p hp ho => ⟨s.snapCounters p, execCounterSnapshot_own hp, fun i hi => State.snapCounters_copies ho p hi, ?snapshot⟩,
    fun s p kind a hup hhead hlease ha => execAddressRequest_active hup hhead hlease ha,
    fun s p hp hlink => ⟨execLinkDown_linked hp hlink, s.portDown_fport p⟩,
    fun s p hp hen hlink => execLinkUp_enabled hp hen hlink⟩
  case frame =>
    have receive {t : State} (ht : (s.rxCounted p (b.length + 4)).dispatch p b = t) : exec (.frameReceive p true b) s = .next t :=
      execFrameReceive_up hup hhead ((State.receiveFrame_rightSize hmin hmax).trans ht)
    rw [← s.rxCounted_head p (b.length + 4)]
    refine ⟨fun h => receive (h.elim State.dispatch_control State.dispatch_idle), fun hdata hh => receive (State.dispatch_fawn hdata hh),
      fun hdata hserve => ⟨fun hd => receive (State.dispatch_filtered hdata hserve hd), fun hd => receive (State.dispatch_address hdata hserve hd),
        fun ce n x hd hen => receive (State.dispatch_pronghorn hdata hserve hd hen), fun qpn hd hen => receive (State.dispatch_roce hdata hserve hd hen)⟩⟩
  case snapshot =>
    obtain ⟨r, x, e⟩ := s.snapCounters_only p ho
    rw [e]

end Sys2Proof.Machine
end

section
/-! Verified Pronghorn packets (R479 to R482, R491): the check of the generation, DATA, ACK and NACK, and what they say of a path (R478). -/

namespace Sys2Proof.Machine

open Sys2Proof

@[simp] theorem State.sess_setSess (s : State) (k : Nat) (x : Sess) : (s.setSess k x).sess k = some x := SMap.find?_insert ..

/-! ## Generations (R481) -/

/-- A session as a packet of a load count that is not below its own finds it. -/
def Sess.atLoad (x : Sess) (load : Nat) : Sess := if load = x.rxLoad then x else { x with rxLoad := load, rxCum := 0, ins := [] }

section
variable {s : State} {f ty : Nat} {p : PgRx} {x : Sess} (h : PacketFor s f ty p x) (go : State → Nat → Sess → PgRx → State)
include h

theorem State.withPacket_generation :
    s.withPacket f ty go =
      let u : State := { s with pgt := { s.pgt with rx := s.pgt.rx.erase p } }
      match u.pgGeneration (sessKey f p.hdr.session) x p.hdr with
      | none => u.pgCount f 5 1
      | some t => match t.sess (sessKey f p.hdr.session) with
        | some y => go t (sessKey f p.hdr.session) y p
        | none => t := by
  obtain ⟨hfirst, hty, hx⟩ := h
  have hx' : State.sess { s with pgt := { s.pgt with rx := s.pgt.rx.erase p } } (sessKey f p.hdr.session) = some x := hx
  unfold State.withPacket
  simp only [hfirst, if_neg (not_not.2 hty), hx'] <;> rfl

theorem State.withPacket_earlier (hl : p.hdr.load < x.rxLoad) :
    s.withPacket f ty go = State.pgCount { s with pgt := { s.pgt with rx := s.pgt.rx.erase p } } f 5 1 := by
  simp only [State.withPacket_generation h, State.pgGeneration, if_pos hl]

theorem State.withPacket_taken (hl : x.rxLoad ≤ p.hdr.load) :
    let k := sessKey f p.hdr.session
    s.withPacket f ty go = go (s.pgTaken p k x) k (x.atLoad p.hdr.load) p := by
  have hx : State.sess { s with pgt := { s.pgt with rx := s.pgt.rx.erase p } } (sessKey f p.hdr.session) = some x := h.2.2
  simp only [State.withPacket_generation h, State.pgGeneration, if_neg (Nat.not_lt.2 hl), State.pgTaken, Sess.atLoad]
  by_cases he : p.hdr.load = x.rxLoad
  · simp only [if_pos he, hx]
  · simp only [if_neg he, State.sess_setSess]

end

/-! ## DATA (R479, R491) -/

/-- A session that has heard a DATA packet. -/
def Sess.heard (x : Sess) (p : PgRx) : Sess :=
  { x with lastPath := p.port % 4 * 16 + p.hdr.path % 16, ce := x.ce + if p.ce then 1 else 0 }

/-- The buffer of a message of which nothing has come. -/
def State.freshIn (s : State) (mlen : Nat) : PgIn := { mlen := mlen, slots := [], got := 0, newAt := s.ao.tb, bad := 0 }

/-- What a DATA packet does to the buffer of its message. -/
def State.pgInto (s : State) (k : Nat) (x : Sess) (p : PgRx) (m : PgIn) : State :=
  let h := p.hdr
  let i := h.offset / s.pgPayload x.fdie
  if m.mlen ≠ h.mlen then
    if m.bad + 1 < 16 then (s.pgCount x.fdie 8 1).setSess k { x with ins := x.ins.insert h.msgno { m with bad := m.bad + 1 } }
    else ((s.pgCount x.fdie 8 1).setSess k { x with ins := x.ins.erase h.msgno }).event (dieF x.fdie) 0x17 6 h.session
  else if m.slots.has i then s
  else
    let n := { m with slots := m.slots.insert i p.payload, got := m.got + h.plen, newAt := s.ao.tb }
    let v := s.setSess k { x with ins := x.ins.insert h.msgno n }
    if n.got ≠ n.mlen then v else ((v.pgCount x.fdie 10 1).pgDeliver k 257).sendPgAck k

theorem dataOk_iff (s : State) (x : Sess) (h : PgHdr) :
    DataOk s x h ↔ ¬(h.mlen = 0 ∨ maxMsg < h.mlen ∨ h.offset % s.pgPayload x.fdie ≠ 0 ∨ h.mlen < h.offset + h.plen ∨
      h.plen ≠ min (s.pgPayload x.fdie) (h.mlen - h.offset) ∨ h.plen = 0 ∨ (h.flags % 2 = 1 ∧ h.offset + h.plen ≠ h.mlen) ∨
      x.rxCum + 256 ≤ h.msgno) := by
  simp only [DataOk, State.pgPayload, maxMsg, not_or, not_and, not_not, not_lt, not_le, ne_eq]

section
variable {s : State} {k : Nat} {x : Sess} {p : PgRx}

theorem State.pgData_malformed (h : ¬DataOk s x p.hdr) : s.pgData k x p = s.pgCount x.fdie 8 1 :=
  if_pos (not_not.1 (mt (dataOk_iff ..).2 h))

variable (hok : DataOk s x p.hdr)
include hok

/-- Of a message that has been delivered a packet is only acknowledged. -/
theorem State.pgData_delivered (hold : p.hdr.msgno < x.rxCum) : s.pgData k x p = (s.setSess k (x.heard p)).sendPgAck k :=
  (if_neg ((dataOk_iff ..).1 hok)).trans (if_pos hold)

variable (hnew : x.rxCum ≤ p.hdr.msgno)
include hnew

/-- The first packet of a message needs room in the F-die's buffers. -/
theorem State.pgData_noRoom (hm : x.ins.find? p.hdr.msgno = none)
    (hfull : s.fld (dieF x.fdie) Reg.PGT_CFG_RXBUF_MIB * 2 ^ 20 < (s.setSess k (x.heard p)).rxBytes x.fdie + p.hdr.mlen) :
    s.pgData k x p = (s.setSess k (x.heard p)).pgCount x.fdie 6 1 := by
  refine (if_neg ((dataOk_iff ..).1 hok)).trans ((if_neg (Nat.not_lt.2 hnew)).trans (if_pos ?_))
  exact Bool.and_eq_true_iff.2 ⟨congrArg Option.isNone hm, decide_eq_true hfull⟩

theorem State.pgData_listed {m : PgIn} (hm : x.ins.find? p.hdr.msgno = some m) :
    s.pgData k x p = (s.setSess k (x.heard p)).pgInto k (x.heard p) p m := by
  refine (if_neg ((dataOk_iff ..).1 hok)).trans ((if_neg (Nat.not_lt.2 hnew)).trans ?_)
  simp only [hm]
  rfl

theorem State.pgData_first (hm : x.ins.find? p.hdr.msgno = none)
    (hroom : (s.setSess k (x.heard p)).rxBytes x.fdie + p.hdr.mlen ≤ s.fld (dieF x.fdie) Reg.PGT_CFG_RXBUF_MIB * 2 ^ 20) :
    s.pgData k x p = (s.setSess k (x.heard p)).pgInto k (x.heard p) p (s.freshIn p.hdr.mlen) := by
  refine (if_neg ((dataOk_iff ..).1 hok)).trans ((if_neg (Nat.not_lt.2 hnew)).trans ((if_neg ?_).trans ?_))
  · exact fun hfull => Nat.not_lt.2 hroom (of_decide_eq_true (Bool.and_eq_true_iff.1 hfull).2)
  · simp only [hm]
    rfl

end

section
variable {s : State} {k : Nat} {x : Sess} {p : PgRx} {m : PgIn}

theorem State.pgInto_otherLength (h : m.mlen ≠ p.hdr.mlen) :
    s.pgInto k x p m = if m.bad + 1 < 16
      then (s.pgCount x.fdie 8 1).setSess k { x with ins := x.ins.insert p.hdr.msgno { m with bad := m.bad + 1 } }
      else ((s.pgCount x.fdie 8 1).setSess k { x with ins := x.ins.erase p.hdr.msgno }).event (dieF x.fdie) 0x17 6 p.hdr.session :=
  if_pos h

theorem State.pgInto_repeated (h : m.mlen = p.hdr.mlen) (hi : m.slots.has (p.hdr.offset / s.pgPayload x.fdie) = true) :
    s.pgInto k x p m = s :=
  (if_neg (not_not.2 h)).trans (if_pos hi)

theorem State.pgInto_placed (h : m.mlen = p.hdr.mlen) (hi : m.slots.has (p.hdr.offset / s.pgPayload x.fdie) = false) :
    let n := { m with slots := m.slots.insert (p.hdr.offset / s.pgPayload x.fdie) p.payload, got := m.got + p.hdr.plen, newAt := s.ao.tb }
    let v := s.setSess k { x with ins := x.ins.insert p.hdr.msgno n }
    s.pgInto k x p m = if n.got ≠ n.mlen then v else ((v.pgCount x.fdie 10 1).pgDeliver k 257).sendPgAck k :=
  (if_neg (not_not.2 h)).trans (if_neg (Bool.eq_false_iff.1 hi))

end

/-! ## ACK and NACK (R478, R480, R482) -/

/-- The CE count of an ACK acts as a CNP on each active path of its session. -/
def State.pgMarked (s : State) (k ce : Nat) : State :=
  match s.sess k with
  | some y =>
    let marked := y.active.foldl (fun (m : SMap PgPath) q => m.insert q { s.path y q with cc := s.ccCnp y.fdie (s.path y q).cc }) y.paths
    s.setSess k { y with paths := if ce = 0 then y.paths else marked }
  | none => s

/-- An ACK of the right size that names no message beyond those sent. -/
theorem State.pgAck_taken {s : State} {k : Nat} {x : Sess} {p : PgRx} (hlen : p.payload.length = 36) (hcum : beAt p.payload 0 4 ≤ x.nextMsg) :
    let cum := beAt p.payload 0 4
    let done := fun (n : Nat) => decide (n < cum) || (decide (n < cum + 256) && bitSet (p.payload.drop 4) (n - cum))
    let u := s.setSess k { x with cum := max x.cum cum, outs := x.outs.keep fun n _ => !done n }
    let v := (((x.outs.keep fun n _ => done n).vals.flatMap PgOut.usedPaths).eraseDups).foldl (fun (s : State) q => s.pathReport k q false) u
    s.pgAck k x p = (v.pgMarked k p.hdr.ce).pgFlush k 257 :=
  if_neg (not_or.2 ⟨Nat.not_lt.2 hcum, not_not.2 hlen⟩)

theorem State.pgNack_out {s : State} {k : Nat} {x : Sess} {p : PgRx} {m : PgOut} (hm : x.outs.find? p.hdr.msgno = some m) :
    let base := beAt p.payload 0 2
    let map := p.payload.drop 4
    s.pgNack k x p = ((List.range (min 1024 (map.length * 8))).filter fun i => decide (base + i < s.slotCount x.fdie m.bytes.length)).foldl
      (fun (s : State) i => if bitSet map i then s.pathReport k (m.slotPath.getD (base + i) 0) false
        else (s.pathReport k (m.slotPath.getD (base + i) 0) true).sendSlot k p.hdr.msgno (base + i) true)
      (s.setSess k { x with outs := x.outs.insert p.hdr.msgno { m with heardAt := s.ao.tb } }) := by
  unfold State.pgNack
  dsimp only
  rw [hm]

/-! ## What is reported of a path (R478) -/

section
variable {s : State} {k p : Nat} {x : Sess} (hx : s.sess k = some x)
include hx

theorem State.pathReport_arrived :
    s.pathReport k p false = s.setSess k { x with paths := x.paths.insert p { s.path x p with bad := 0 } } := by
  unfold State.pathReport
  rw [hx]
  rfl

theorem State.pathReport_missing (hbad : (s.path x p).bad + 1 < 8) :
    s.pathReport k p true = s.setSess k { x with paths := x.paths.insert p { s.path x p with bad := (s.path x p).bad + 1 } } := by
  unfold State.pathReport
  rw [hx]
  exact (if_neg (by decide)).trans (if_pos (Or.inl hbad))

/-- The eighth consecutive missing packet quarantines an active path, and ends every quarantine where no path is left. -/
theorem State.pathReport_quarantined (hquar : (s.path x p).quar = none) (hbad : 8 ≤ (s.path x p).bad + 1) :
    let y := { x with paths := x.paths.insert p { s.path x p with bad := 0, quar := some s.ao.tb } }
    s.pathReport k p true =
      (s.setSess k (if y.active.isEmpty then { y with paths := y.paths.mapV fun _ z => { z with quar := none } } else y)).pgCount x.fdie 9 1 := by
  intro y
  have hactive : ¬(s.path x p).quar.isSome = true := by simp [hquar]
  have hdie : (if y.active.isEmpty then { y with paths := y.paths.mapV fun _ z => { z with quar := none } } else y).fdie = x.fdie := by
    split <;> rfl
  unfold State.pathReport
  rw [hx]
  refine (if_neg (by decide)).trans ((if_neg (not_or.2 ⟨Nat.not_lt.2 hbad, hactive⟩)).trans ?_)
  exact congrArg (fun f => State.pgCount _ f 9 1) hdie

end

end Sys2Proof.Machine
end

section
/-! Snapshots that become READY (R465), the timers of the Pronghorn transport (R478, R480), and sessions by command (R474, R481, R490). -/

namespace Sys2Proof.Machine

open Sys2Proof

theorem execSnapshotReady_settled {s : State} {id nsid : Nat} {n : NsRec} {x : Snap} (hid : s.findSnap id = some (nsid, n, x))
    (hserve : s.serving = true) (hpend : x.state = .pending) (hdone : s.snapSettled nsid x = true) :
    exec (.snapshotReady id) s = .next (s.putNs nsid { n with snaps := n.snaps.insert id { x with state := .ready } }).settle := by
  show execSnapshotReady id s = _
  simp only [execSnapshotReady, hid]
  exact if_pos (by simp [hserve, hpend, hdone])

/-! ## Timers -/

section
variable {s : State} {f session msgno : Nat} {x : Sess} (hx : s.sess (sessKey f session) = some x)
include hx

theorem State.sendPgNack_incomplete {m : PgIn} (hm : x.ins.find? msgno = some m) :
    let k := sessKey f session
    let y := { x with ins := x.ins.insert msgno { m with newAt := s.ao.tb } }
    let base := ((List.range (s.slotCount x.fdie m.mlen)).find? fun i => !m.slots.has i).getD 0
    s.sendPgNack k msgno = ((s.setSess k y).pgCount x.fdie 3 1).pgPacket y x.lastPath { PgHdr.blank 3 with msgno := msgno } 0
      (be 2 base ++ zeros 2 ++ bitmap 1024 fun i => m.slots.has (base + i)) := by
  unfold State.sendPgNack
  simp only [hx, hm]
  rfl

theorem execPgtNackTimeout_due {m : PgIn} (hm : x.ins.find? msgno = some m) (hpart : m.got ≠ m.mlen)
    (hdue : m.newAt + s.fld (dieF f) Reg.PGT_CFG_NACK_US * 1000 ≤ s.ao.tb) :
    exec (.pgtNackTimeout f session msgno) s = .next (s.sendPgNack (sessKey f session) msgno) := by
  show execPgtNackTimeout f session msgno s = _
  simp only [execPgtNackTimeout, hx, Option.bind_some, hm]
  exact if_pos ⟨hpart, hdue⟩

theorem State.pgRto_due {m : PgOut} {t : Nat} (hm : x.outs.find? msgno = some m) (ht : m.sentAt = some t) (hleft : m.left = 0)
    (hdue : max t m.heardAt + s.fld (dieF x.fdie) Reg.PGT_CFG_RTO_US * 1000 ≤ s.ao.tb) :
    s.pgRto (sessKey f session) msgno =
      (m.slotPath.vals.foldl (fun (s : State) q => s.pathReport (sessKey f session) q true) s).sendSlots (sessKey f session) msgno true := by
  unfold State.pgRto
  simp only [hx, hm, ht]
  exact if_neg (not_or.2 ⟨not_not.2 hleft, Nat.not_lt.2 hdue⟩)

theorem execPathQuarantineEnd_due {path t bad : Nat} {c : Cc} (hp : x.paths.find? path = some { bad := bad, quar := some t, cc := c })
    (hdue : t + 10 ^ 8 ≤ s.ao.tb) :
    exec (.pathQuarantineEnd f session path) s =
      .next (s.setSess (sessKey f session) { x with paths := x.paths.insert path { bad := bad, quar := none, cc := c } }) := by
  show execPathQuarantineEnd f session path s = _
  simp only [execPathQuarantineEnd, hx, hp]
  exact if_pos hdue

end

/-! ## Commands that read a descriptor (R474, R481) -/

section
variable {s : State} {f addr : Nat}

theorem State.sessCreate_badDesc (h : s.readDesc addr = none) : s.sessCreate f addr = s.sessResult f 3 := by
  unfold State.sessCreate
  rw [h]

theorem State.sessGeneration_badDesc (h : s.readDesc addr = none) : s.sessGeneration f addr = s.sessResult f 3 := by
  unfold State.sessGeneration
  rw [h]

variable {d : SessDesc} (hd : s.readDesc addr = some d)
include hd

theorem State.sessCreate_unused (hx : s.sess (sessKey f d.session) = none) :
    s.sessCreate f addr = if 256 ≤ (s.pgt.sess.vals.filter fun x => x.fdie == f).length then s.sessResult f 1
      else (((s.setSess (sessKey f d.session) (s.freshSess f d)).sendProbe (sessKey f d.session)).resendJrecs
        (sessKey f d.session)).sessResult f 0 := by
  unfold State.sessCreate
  rw [hd]
  exact if_neg (by simp [hx])

theorem State.sessCreate_inUse {x : Sess} (hx : s.sess (sessKey f d.session) = some x) : s.sessCreate f addr = s.sessResult f 3 := by
  unfold State.sessCreate
  rw [hd]
  exact if_pos (by simp [hx])

theorem State.sessGeneration_unused (hx : s.sess (sessKey f d.session) = none) : s.sessGeneration f addr = s.sessResult f 2 := by
  unfold State.sessGeneration
  rw [hd]
  simp only [hx]

/-- A new generation keeps of what it was sending the replies, the cycle and the records without a JACK. -/
theorem State.sessGeneration_renewed {x : Sess} (hx : s.sess (sessKey f d.session) = some x) :
    let k := sessKey f d.session
    let replies := (x.outs.vals.map PgOut.bytes ++ x.queue).filter fun b => [2, 6, 8].contains (leAt b 0 1)
    let y := { x with
      d := d, nextMsg := 0, cum := 0, outs := [], queue := [],
      src := x.src.map fun c => { c with listed := false, want := none, parts := ([] : SMap Bytes), mapsSent := false } }
    let u : State := { s with pgt := { s.pgt with tx := s.pgt.tx.filter fun t => !(t.fdie == f && t.session == d.session && t.hdr.ty == 1) } }
    s.sessGeneration f addr =
      ((replies.foldl (fun (s : State) b => s.sendMsg k b) ((u.setSess k y).sendProbe k)).resendJrecs k).sessResult f 0 := by
  unfold State.sessGeneration
  simp only [hd, hx]

end

/-! ## Commands that name a session (R490, R494) -/

section
variable {s : State} {f session : Nat}

theorem State.sessDestroy_none (hx : s.sess (sessKey f session) = none) : s.sessDestroy f session = s.sessResult f 2 := by
  unfold State.sessDestroy
  simp only [hx]

theorem State.sessDestroy_some {x : Sess} (hx : s.sess (sessKey f session) = some x) :
    let u := s.degrade (sessKey f session)
    s.sessDestroy f session = State.sessResult { u with pgt := { u.pgt with
      sess := u.pgt.sess.erase (sessKey f session), tx := u.pgt.tx.filter fun t => !(t.fdie == f && t.session == session),
      rx := u.pgt.rx.filter fun t => !(t.fdie == f && t.hdr.session == session) } } f 0 := by
  unfold State.sessDestroy
  simp only [hx]

theorem State.sess_degrade {k : Nat} {x : Sess} (hx : s.sess k = some x) :
    (s.degrade k).sess k = some { x with degraded := true, jrecs := [] } := by
  unfold State.degrade
  simp only [hx, State.sess_setSess]

variable {t : State} {addr : Nat} (hf : f < s.variant.sides)
include hf

theorem execSessionCreate_here (h : s.sessCreate f addr = t) : exec (.sessionCreate f addr) s = .next t.settle := next_settle (if_pos hf) h

theorem execSessionNewGeneration_here (h : s.sessGeneration f addr = t) : exec (.sessionNewGeneration f addr) s = .next t.settle :=
  next_settle (if_pos hf) h

theorem execSessionDestroy_here (h : s.sessDestroy f session = t) : exec (.sessionDestroy f session) s = .next t.settle :=
  next_settle (if_pos hf) h

theorem execSessionSetDegraded_none (hx : s.sess (sessKey f session) = none) :
    exec (.sessionSetDegraded f session) s = .next (s.sessResult f 2) :=
  (if_neg (Nat.not_le.2 hf)).trans (if_pos (congrArg Option.isNone hx))

theorem execSessionSetDegraded_some {x : Sess} (hx : s.sess (sessKey f session) = some x) :
    exec (.sessionSetDegraded f session) s = .next ((s.degrade (sessKey f session)).sessResult f 0).settle :=
  (if_neg (Nat.not_le.2 hf)).trans (if_neg (by simp [hx]))

theorem execSessionClearDegraded_none (hx : s.sess (sessKey f session) = none) :
    exec (.sessionClearDegraded f session) s = .next (s.sessResult f 2) := by
  refine (if_neg (Nat.not_le.2 hf)).trans ?_
  simp only [hx]

theorem execSessionClearDegraded_some {x : Sess} (hx : s.sess (sessKey f session) = some x) :
    exec (.sessionClearDegraded f session) s =
      .next ((s.setSess (sessKey f session) { x with degraded := false }).sessResult f 0).settle := by
  refine (if_neg (Nat.not_le.2 hf)).trans ?_
  simp only [hx]

end

/-- Settles O48: each packet goes through the check of its generation to `State.pgData`, `State.pgAck` or `State.pgNack`, and each of these,
each timer and each command has a lemma for every way it ends. -/
theorem pronghornPacketsAndSessions : Obligations.PronghornPacketsAndSessions := by
  unfold Obligations.PronghornPacketsAndSessions
  refine ⟨fun s id nsid n x => execSnapshotReady_settled, fun s f ty p x c h hc hl => ?earlier,
    fun s f p x hl => ⟨fun h => congrArg _ (State.withPacket_taken h _ hl), fun h => congrArg _ (State.withPacket_taken h _ hl),
      fun h => congrArg _ (State.withPacket_taken h _ hl), fun h => congrArg _ (State.withPacket_taken h _ hl)⟩,
    fun s k x p h => State.pgData_malformed h,
    fun s k x p hok => ⟨fun hold => State.pgData_delivered hok hold, fun hnew hm hfull => State.pgData_noRoom hok hnew hm hfull,
      fun m hnew hm hlen hi => (State.pgData_listed hok hnew hm).trans (State.pgInto_repeated hlen hi),
      fun m hnew hm hlen => (State.pgData_listed hok hnew hm).trans (State.pgInto_otherLength hlen), fun m hnew hm hlen hi => ?placed⟩,
    fun s k x p hlen hcum => State.pgAck_taken hlen hcum, fun s k x p m hm => State.pgNack_out hm,
    fun s k p x hx hquar => ⟨State.pathReport_arrived hx, State.pathReport_missing hx, State.pathReport_quarantined hx hquar⟩,
    fun s f session msgno x m hx hm hpart hdue =>
      (execPgtNackTimeout_due hx hm hpart hdue).trans (congrArg _ (State.sendPgNack_incomplete hx hm)),
    fun s f session msgno t x m hx hm ht hleft hdue => congrArg _ (State.pgRto_due hx hm ht hleft hdue),
    fun s f session path t bad c x hx hp hdue => execPathQuarantineEnd_due hx hp hdue,
    fun s f addr hf => ⟨fun hd => ⟨execSessionCreate_here hf (State.sessCreate_badDesc hd),
        execSessionNewGeneration_here hf (State.sessGeneration_badDesc hd)⟩,
      fun d hd hx => ⟨execSessionCreate_here hf (State.sessCreate_unused hd hx),
        execSessionNewGeneration_here hf (State.sessGeneration_unused hd hx)⟩,
      fun d x hd hx => ⟨execSessionCreate_here hf (State.sessCreate_inUse hd hx),
        execSessionNewGeneration_here hf (State.sessGeneration_renewed hd hx)⟩⟩,
    fun s f d => ⟨rfl, rfl, rfl, rfl, rfl, rfl, rfl, rfl, rfl, rfl⟩,
    fun s f session hf hx => ⟨execSessionDestroy_here hf (State.sessDestroy_none hx), execSessionSetDegraded_none hf hx,
      execSessionClearDegraded_none hf hx⟩,
    fun s f session x hf hx => ⟨execSessionDestroy_here hf (State.sessDestroy_some hx), execSessionSetDegraded_some hf hx,
      by rw [State.sess_degrade hx]; rfl, execSessionClearDegraded_some hf hx⟩⟩
  case earlier =>
    simp only [List.mem_cons, Prod.mk.injEq, List.not_mem_nil, or_false] at hc
    obtain ⟨rfl, rfl⟩ | ⟨rfl, rfl⟩ | ⟨rfl, rfl⟩ | ⟨rfl, rfl⟩ := hc <;> exact congrArg _ (State.withPacket_earlier h _ hl)
  case placed =>
    rcases hm with hm | ⟨hm, rfl, hroom⟩
    · exact (State.pgData_listed hok hnew hm).trans (State.pgInto_placed hlen hi)
    · exact (State.pgData_first hok hnew hm hroom).trans (State.pgInto_placed hlen hi)

end Sys2Proof.Machine
end

section
/-! The messages of replication (R484 to R491): which session takes a message, and what each kind does; the loss of synchrony (R490). -/

namespace Sys2Proof.Machine

open Sys2Proof

/-! ## Taking a message (R491) -/

/-- A session that has taken the first message delivered to it, and the state with it. -/
def Sess.took (x : Sess) (rest : List Bytes) : Sess := { x with ready := rest }
def State.msgTaken (s : State) (f session : Nat) (x : Sess) (rest : List Bytes) : State := s.setSess (sessKey f session) (x.took rest)

section
variable {s : State} {f session kind : Nat} {r : Bool} {x : Sess} {b : Bytes} {rest : List Bytes}

theorem State.withMsg_first (hx : s.sess (sessKey f session) = some x) (hready : x.ready = b :: rest) (hkind : leAt b 0 1 = kind)
    (go : State → Nat → Sess → Bytes → State) :
    s.withMsg f session kind r go =
      if (if r then leAt b 8 4 == x.d.nsid && (s.ns x.d.nsid).any NsRec.replica else leAt b 8 4 == x.d.rnsid) then
        go (s.msgTaken f session x rest) (sessKey f session) (x.took rest) b
      else (s.msgTaken f session x rest).event (dieF f) 0x17 11 session := by
  unfold State.withMsg
  simp only [hx, hready, if_neg (not_not.2 hkind)]
  rfl

/-- A message for its namespace has its effect. -/
theorem State.withMsg_for (h : MessageFor s f session kind r x b rest) (go : State → Nat → Sess → Bytes → State) :
    s.withMsg f session kind r go = go (s.msgTaken f session x rest) (sessKey f session) (x.took rest) b := by
  obtain ⟨hx, hready, hkind, hns⟩ := h
  rw [State.withMsg_first hx hready hkind]
  cases r with
  | true => exact if_pos (Bool.and_eq_true_iff.2 ⟨beq_iff_eq.2 hns.1, hns.2⟩)
  | false => exact if_pos (beq_iff_eq.2 hns)

/-- A message for another namespace is dropped with an event. -/
theorem State.withMsg_elsewhere (hx : s.sess (sessKey f session) = some x) (hready : x.ready = b :: rest) (hkind : leAt b 0 1 = kind)
    (hns : if r then leAt b 8 4 ≠ x.d.nsid ∨ (s.ns x.d.nsid).any NsRec.replica = false else leAt b 8 4 ≠ x.d.rnsid)
    (go : State → Nat → Sess → Bytes → State) :
    s.withMsg f session kind r go = (s.msgTaken f session x rest).event (dieF f) 0x17 11 session := by
  rw [State.withMsg_first hx hready hkind]
  cases r with
  | true =>
    refine if_neg fun hok => ?_
    obtain ⟨hnsid, hreplica⟩ := Bool.and_eq_true_iff.1 hok
    exact hns.elim (fun hne => hne (beq_iff_eq.1 hnsid)) (fun hno => Bool.eq_false_iff.1 hno hreplica)
  | false => exact if_neg (mt beq_iff_eq.1 hns)

end

/-! ## At the replica (R484, R485, R487) -/

section
variable {s : State} {f session : Nat} {x : Sess} {b : Bytes} {rest : List Bytes}

theorem execFplist_for (h : MessageFor s f session 1 true x b rest) :
    let k := sessKey f session
    let u := s.msgTaken f session x rest
    let n := leAt b 12 4
    let fps := (List.range n).map fun i => (((b.drop 16).drop (36 * i)).take 32, leAt (b.drop 16) (36 * i + 32) 4)
    let d : DstBatch := { batch := leAt b 4 4, fps := fps, items := [], asked := [], held := false, commit := false, snap := none }
    let missing := (List.range n).filter fun i => (fps[i]?).any fun e => (u.confirmed (((u.ns x.d.nsid).map NsRec.domain).getD 0) e).isNone
    exec (.fplist f session) s = .next (State.settle (if (b.drop 16).length ≠ 36 * n then u.abandonBatch k 10
      else (u.setSess k { x.took rest with dst := some d }).sendNeed k (x.took rest) d fun i => missing.contains i)) := by
  intro k u n fps d missing
  refine next_settle rfl ((State.withMsg_for h _).trans (if_congr Iff.rfl rfl ?_))
  have hmissing : (List.range n).filter (fun i => match fps[i]? with
      | some e => (u.confirmed (((u.ns x.d.nsid).map NsRec.domain).getD 0) e).isNone
      | none => false) = missing :=
    List.filter_congr fun i _ => by cases fps[i]? <;> rfl
  exact congrArg (fun l : List Nat => (u.setSess k { x.took rest with dst := some d }).sendNeed k (x.took rest) d fun i => l.contains i) hmissing

/-- The chunks of a message go to fingerprinting as one job, which stores those that are the ones announced. -/
def State.chunksJob (s : State) (k : Nat) (x : Sess) (n : NsRec) (l : List (Bytes × Bytes)) : Job :=
  { side := s.side, seqs := [], shard := 0, tile := x.d.tile, cls := x.d.cls, nsid := x.d.nsid, domain := n.domain, kv := n.kv, key := [],
    vlen := 0, slba := 0, arrival := s.ao.tb, chunks := l.map fun e => { bytes := e.2, st := .hash }, held := false, noDom := false, fix := 0,
    fixed := false, repl := some (k, l.map Prod.fst), txn := none }

theorem execChunks_ofBatch {d : DstBatch} {n : NsRec} (h : MessageFor s f session 3 true x b rest) (hd : x.dst = some d)
    (hn : s.ns x.d.nsid = some n) (hb : d.batch = leAt b 4 4) :
    let k := sessKey f session
    let u := s.msgTaken f session x rest
    exec (.chunks f session) s = .next (State.settle (match (readChunks (leAt b 12 4) (b.drop 16)).bind (takeChunks d.fps) with
      | none => u.badBatch k
      | some [] => u
      | some l =>
        let v := u.setSess k { x.took rest with dst := some { d with asked := [] } }
        State.setJob { v with dst := { v.dst with nextPack := s.dst.nextPack + 1 } } s.dst.nextPack (s.chunksJob k x n l))) := by
  have hd' : (x.took rest).dst = some d := hd
  have hn' : (s.msgTaken f session x rest).ns (x.took rest).d.nsid = some n := hn
  refine next_settle rfl ((State.withMsg_for h _).trans ?_)
  simp only [hd', hn', if_neg (not_not.2 hb)]
  rfl

theorem execMaps_ofBatch {d : DstBatch} {n : NsRec} {fix : List Item} (root : Option (Nat × Nat))
    (h : MessageFor s f session 4 true x b rest) (hd : x.dst = some d) (hn : s.ns x.d.nsid = some n) (hfix : d.held = false ∨ fix = [])
    (hb : d.batch = leAt b 4 4) :
    let k := sessKey f session
    let u := s.msgTaken f session x rest
    exec (.maps f session fix root) s = .next (State.settle (match readMaps n.kv (leAt b 12 4) (b.drop 16) with
      | some l => if l.all (MapIt.ok d.fps.length n.blocks) then u.setSess k { x.took rest with dst := some { d with items := d.items ++ l } }
        else u.abandonBatch k 10
      | none => u.abandonBatch k 10)) := by
  have hx : s.sess (sessKey f session) = some x := h.1
  have hn' : (s.msgTaken f session x rest).ns x.d.nsid = some n := hn
  have hgo : ¬(d.held && !fix.isEmpty) = true := by rcases hfix with e | e <;> simp [e]
  show execMaps f session fix root s = _
  obtain ⟨⟩ := x
  simp only at hd
  subst hd
  simp only [execMaps, hx, if_neg hgo, State.withMsg_for h, hn', if_neg (not_not.2 hb)] <;> rfl

/-- The page images of control-plane firmware are logged as one transaction, and the item that waited for them goes on (R257). -/
theorem execMaps_images {d : DstBatch} {fix : List Item} (root : Option (Nat × Nat)) (hx : s.sess (sessKey f session) = some x)
    (hd : x.dst = some d) (hheld : d.held = true) (hfix : fix ≠ []) :
    let u := (s.logTxn none 0 0 fix).1
    let u := match root, u.ns x.d.nsid with
      | some (r, i), some n => u.putNs x.d.nsid { n with root := r, index := i }
      | _, _ => u
    exec (.maps f session fix root) s = .next (State.settle (match u.sess (sessKey f session) with
      | some y => u.setSess (sessKey f session) { y with dst := some { d with held := false } }
      | none => u)) := by
  have hgo : (d.held && !fix.isEmpty) = true := by simp [hheld, hfix]
  show execMaps f session fix root s = _
  obtain ⟨⟩ := x
  simp only at hd
  subst hd
  simp only [execMaps, hx, if_pos hgo] <;> rfl

theorem execCommit_ofBatch {d : DstBatch} (h : MessageFor s f session 5 true x b rest) (hd : x.dst = some d) (hb : d.batch = leAt b 4 4) :
    exec (.commit f session) s = .next (State.settle ((s.msgTaken f session x rest).setSess (sessKey f session)
      { x.took rest with dst := some { d with commit := true } })) := by
  have hd' : (x.took rest).dst = some d := hd
  refine next_settle rfl ((State.withMsg_for h _).trans ?_)
  simp only [hd', if_pos hb]

/-! ## At the source (R485, R486, R488, R490) -/

theorem execNeed_listed {c : SrcCycle} (h : MessageFor s f session 2 false x b rest) (hc : x.src = some c) (hb : c.batch = leAt b 4 4)
    (hl : c.listed = true) :
    let l := (List.range (min (leAt b 12 4) c.fps.length)).filter fun i => bitSet (b.drop 16) i
    exec (.need f session) s = .next (State.settle ((s.msgTaken f session x rest).fetchNeeded (sessKey f session) (x.took rest) c
      (((c.want.getD []) ++ l).eraseDups))) := by
  have hc' : (x.took rest).src = some c := hc
  refine next_settle rfl ((State.withMsg_for h _).trans ?_)
  simp only [hc']
  exact if_neg (by simp [hb, hl])

theorem execCommitted_sent {c : SrcCycle} (h : MessageFor s f session 6 false x b rest) (hc : x.src = some c) (hb : c.batch = leAt b 4 4)
    (hsent : c.mapsSent = true) :
    exec (.committed f session) s =
      .next (State.settle ((s.msgTaken f session x rest).nextCycle (sessKey f session) (x.took rest) c)) := by
  have hc' : (x.took rest).src = some c := hc
  refine next_settle rfl ((State.withMsg_for h _).trans ?_)
  simp only [hc']
  exact if_pos (by simp [hb, hsent])

theorem execJack_for (h : MessageFor s f session 8 false x b rest) :
    let tags := (List.range (leAt b 12 4)).map fun i => leAt b (16 + 8 * i) 8
    let js := (tags.filter fun t => t / 2 ^ 48 == 0xFFFF).map (· % 2 ^ 48)
    exec (.jack f session) s = .next (State.settle (js.foldl (fun (s : State) j => s.setJack (j / 2 ^ 47) (j % 2 ^ 47) true)
      ((s.msgTaken f session x rest).setSess (sessKey f session)
        { x.took rest with jrecs := js.foldl (fun m j => m.erase j) x.jrecs }))) :=
  next_settle rfl (State.withMsg_for h _)

/-- One record whose JACK is late degrades the session. -/
theorem execSyncReplTimeout_due {j t : Nat} (hx : s.sess (sessKey f session) = some x) (hj : x.jrecs.find? j = some t)
    (hdue : t + max 1 (s.fld (dieF f) Reg.PGT_CFG_SYNC_MS) * 10 ^ 6 ≤ s.ao.tb) :
    exec (.syncReplTimeout f session) s = .next (State.settle ((s.degrade (sessKey f session)).event (dieF f) 0x17 0 session)) := by
  have hlate : (x.jrecs.vals.any fun t => decide (t + max 1 (s.fld (dieF f) Reg.PGT_CFG_SYNC_MS) * 10 ^ 6 ≤ s.ao.tb)) = true :=
    List.any_eq_true.2 ⟨t, List.mem_map.2 ⟨_, SMap.mem_of_find? hj, rfl⟩, decide_eq_true hdue⟩
  show execSyncReplTimeout f session s = _
  simp only [execSyncReplTimeout, hx]
  exact if_pos hlate

/-! ## Records of a remote pair (R488, R489) -/

/-- A remote record as a class-1 write to the replica. -/
def State.remoteRec (s : State) (nsid : Nat) (media : Bool) (r : JRec) : JRec :=
  { r with nsid := nsid, tag := r.jtag, cls := 1, mediaDur := media, epoch := s.epoch, arrival := s.ao.tb }

theorem State.remoteRec_setSess (s : State) (k : Nat) (y : Sess) (nsid : Nat) (media : Bool) (r : JRec) :
    (s.setSess k y).remoteRec nsid media r = s.remoteRec nsid media r := by
  have hepoch : (s.setSess k y).epoch = s.epoch := State.fld_congr rfl rfl ..
  rw [State.remoteRec, hepoch, State.setSess_ao, State.remoteRec]

/-- A session remembers a record for its JACK and for a second. -/
def State.jrecKept (s : State) (k tag seq : Nat) : State :=
  match s.sess k with
  | some z => s.setSess k { z with
      jacks := z.jacks ++ [seq], seen := (z.seen.filter fun t => decide (s.ao.tb < t.2 + 10 ^ 9)) ++ [(tag, s.ao.tb)] }
  | none => s

section
variable {v : State} {k : Nat} (tag seq : Nat)

theorem State.jrecKept_some {z : Sess} (hz : v.sess k = some z) :
    v.jrecKept k tag seq = v.setSess k { z with
      jacks := z.jacks ++ [seq], seen := (z.seen.filter fun t => decide (v.ao.tb < t.2 + 10 ^ 9)) ++ [(tag, v.ao.tb)] } := by
  unfold State.jrecKept
  rw [hz]

theorem State.jrecKept_none (hz : v.sess k = none) : v.jrecKept k tag seq = v := by
  unfold State.jrecKept
  rw [hz]

end

/-- A record is appended and remembered, or only acknowledged if it has been seen. -/
def State.jrecIn (s : State) (k : Nat) (x : Sess) (media : Bool) (r : JRec) : State :=
  if s.jrecSeen x r.jtag then s.sendMsg k (repHead 8 0 x.d.nsid 1 ++ le 8 r.jtag)
  else (s.appendRec (s.remoteRec x.d.nsid media r)).jrecKept k r.jtag s.jrnl.nextSeq

variable (h : MessageFor s f session 7 true x b rest)
include h

theorem execJrec_malformed (hr : JRec.ofBytes (b.drop 16) = none) :
    exec (.jrec f session) s = .next ((s.msgTaken f session x rest).pgCount x.fdie 8 1) := by
  obtain ⟨hx, hready, -⟩ := id h
  show execJrec f session s = _
  simp only [execJrec, hx, Option.bind_some, hready, List.head?_cons, Option.map_some, hr]
  exact congrArg _ (State.withMsg_for h _)

theorem execJrec_read {r : JRec} (hr : JRec.ofBytes (b.drop 16) = some r) (hserve : s.serving = true)
    (hroom : s.roomFor 1 r.size ((s.ns x.d.nsid).any NsRec.mediaDur || s.soloMedia) = true) :
    exec (.jrec f session) s = .next (State.settle ((s.msgTaken f session x rest).jrecIn (sessKey f session) (x.took rest)
      ((s.ns x.d.nsid).any NsRec.mediaDur) r)) := by
  obtain ⟨hx, hready, -⟩ := id h
  show execJrec f session s = _
  simp only [execJrec, hx, Option.bind_some, hready, List.head?_cons, Option.map_some, hr]
  refine (if_neg (by simp [hserve, hroom])).trans (next_settle rfl ((State.withMsg_for h _).trans (if_congr Iff.rfl rfl ?_)))
  split
  next z hz => exact (State.jrecKept_some _ _ hz).symm
  next hz => exact (State.jrecKept_none _ _ hz).symm

theorem execJrec_unseen {r : JRec} (hr : JRec.ofBytes (b.drop 16) = some r) (hserve : s.serving = true)
    (hroom : s.roomFor 1 r.size ((s.ns x.d.nsid).any NsRec.mediaDur || s.soloMedia) = true)
    (hnew : (s.msgTaken f session x rest).jrecSeen (x.took rest) r.jtag = false) :
    let v := (s.msgTaken f session x rest).appendRec (s.remoteRec x.d.nsid ((s.ns x.d.nsid).any NsRec.mediaDur) r)
    exec (.jrec f session) s = .next (State.settle (v.jrecKept (sessKey f session) r.jtag s.jrnl.nextSeq)) := by
  have hrec := State.remoteRec_setSess s (sessKey f session) (x.took rest) x.d.nsid ((s.ns x.d.nsid).any NsRec.mediaDur) r
  refine next_settle (execJrec_read h hr hserve hroom) ((if_neg (Bool.eq_false_iff.1 hnew)).trans ?_)
  exact congrArg (fun e => ((s.msgTaken f session x rest).appendRec e).jrecKept (sessKey f session) r.jtag s.jrnl.nextSeq) hrec

end

/-- Settles O49: a message for its namespace has the effect of its kind by `State.withMsg_for`, a record that of `State.jrecIn`. -/
theorem replicationMessagesHaveTheirEffects : Obligations.ReplicationMessagesHaveTheirEffects := by
  unfold Obligations.ReplicationMessagesHaveTheirEffects
  refine ⟨fun s f session kind r x b rest c hx hready hkind hc hns => ?elsewhere,
    fun s f session x b rest => ⟨fun h => execFplist_for h, fun c h hc hb hl => execNeed_listed h hc hb hl,
      fun d n h hd hn hb => execChunks_ofBatch h hd hn hb, fun d n fix root h hd hn hfix hb => execMaps_ofBatch root h hd hn hfix hb,
      fun d h hd hb => execCommit_ofBatch h hd hb, fun c h hc hb hsent => execCommitted_sent h hc hb hsent, fun h => execJack_for h,
      fun h hr => execJrec_malformed h hr, fun r h hr hserve hroom =>
        ⟨fun hseen => next_settle (execJrec_read h hr hserve hroom) (if_pos hseen),
          fun hnew => ?unseen⟩⟩,
    fun s f session x d fix root hx hd hheld hfix => execMaps_images root hx hd hheld hfix,
    fun s f session j t x hx hj hdue => execSyncReplTimeout_due hx hj hdue⟩
  case unseen =>
    refine next_settle (execJrec_unseen h hr hserve hroom hnew) ?_
    split
    next z hz => exact State.jrecKept_some _ _ hz
    next hz => exact State.jrecKept_none _ _ hz
  case elsewhere =>
    simp only [List.mem_cons, Prod.mk.injEq, List.not_mem_nil, or_false] at hc
    obtain ⟨rfl, rfl, rfl⟩ | ⟨rfl, rfl, rfl⟩ | ⟨rfl, rfl, rfl⟩ | ⟨rfl, rfl, rfl⟩ | ⟨rfl, rfl, rfl⟩ | ⟨rfl, rfl, rfl⟩ := hc <;>
      exact next_settle rfl (State.withMsg_elsewhere hx hready hkind hns _)

end Sys2Proof.Machine
end

section
/-! The step and the invariant of the head (R31, R584, R665, R681). -/

namespace Sys2Proof.Machine

open Sys2Proof

/-- Settles O1: a queue that is not empty gives up its front. -/
theorem stepRunsFrontCommand : Obligations.StepRunsFrontCommand := by
  unfold Obligations.StepRunsFrontCommand
  exact fun c rest s => rfl

/-- A command that ends in `t` keeps what `Keeps` names. -/
theorem exec_keeps {c : Instr} {s t : State} (h : exec c s = .next t) : Keeps s t := by
  obtain ⟨u, hu, hk⟩ := exec_reaches c s
  obtain rfl : u = t := Host.Outcome.next.inj (hu.symm.trans h)
  exact hk

/-- Settles O7: each command keeps what `Keeps` names, growth of the OTP among it. -/
theorem otpOnlyGrows : Obligations.OtpOnlyGrows := by
  unfold Obligations.OtpOnlyGrows
  exact fun c s t h => (exec_keeps h).otp

/-- What `Keeps` names holds the invariant. -/
theorem Keeps.inv {s t : State} (h : Keeps s t) (hs : s.Inv) : t.Inv := by
  obtain ⟨hmem, hregs, hside⟩ := hs
  exact ⟨h.mem hmem, h.regs hregs, h.side hside⟩

/-- Taking a command out of the queue, or a tick of the time base: a step keeps what `Keeps` names, the queue aside. -/
theorem step_inv {s t : State} (hs : s.Inv) (h : step s = .next t) : t.Inv := by
  unfold step at h
  split at h
  · obtain rfl := Host.Outcome.next.inj h
    exact Keeps.inv (State_tickTime_keeps (.refl s)) hs
  next c rest hq =>
    have hrest : ({ s with pending := rest } : State).Inv := hs
    exact (exec_keeps h).inv hrest

/-- Settles O5: a step is a tick or a command, and both keep the invariant. -/
theorem everyStepKeepsInv : Obligations.EveryStepKeepsInv := by
  unfold Obligations.EveryStepKeepsInv
  exact fun s t hs h => step_inv hs h

/-- Settles O4: at reset memory and register file list nothing, and the side is 0. -/
theorem resetStateMeetsInv : Obligations.ResetStateMeetsInv := by
  unfold Obligations.ResetStateMeetsInv
  have hregs : State.reset.Ordered := rfl
  have hside : State.reset.side < 2 := Nat.zero_lt_two
  exact ⟨Memory.wf_nil, hregs, hside⟩

end Sys2Proof.Machine
end

section
/-! What becomes of one field of a register while others are written, and what the choice of a time source leaves. -/

namespace Sys2Proof.Machine

open Sys2Proof

/-- A field of the same register as `g`, wholly below or above it. -/
abbrev Fld.Apart (f g : Fld) : Prop := g.lo + g.w ≤ 64 ∧ f.blk = g.blk ∧ f.off = g.off ∧ (f.lo + f.w ≤ g.lo ∨ g.lo + g.w ≤ f.lo)

/-- From `s`, if its register file is in order, to `t`: the file stays in order and the field reads the same. -/
def KeepsFld (die : Nat) (f : Fld) (s t : State) : Prop := s.Ordered → t.Ordered ∧ t.fld die f = s.fld die f

section

variable {die : Nat} {f : Fld} {s t u : State}

theorem KeepsFld.refl (s : State) : KeepsFld die f s s := fun h => ⟨h, rfl⟩

theorem KeepsFld.trans (h : KeepsFld die f s t) (k : KeepsFld die f t u) : KeepsFld die f s u :=
  fun ho => ⟨(k (h ho).1).1, (k (h ho).1).2.trans (h ho).2⟩

/-- A change of other parts of the state. -/
theorem KeepsFld.same (h : KeepsFld die f s t) (hr : u.regs = t.regs) (hv : u.variant = t.variant) : KeepsFld die f s u :=
  fun ho => ⟨by rw [State.Ordered, hr]; exact (h ho).1, (State.fld_congr hr hv die f).trans (h ho).2⟩

/-- A field of another register. -/
theorem KeepsFld.setFld (h : KeepsFld die f s t) (d : Nat) (g : Fld) (v : Nat) (k : regKey die f.blk f.off ≠ regKey d g.blk g.off) :
    KeepsFld die f s (t.setFld d g v) :=
  h.trans fun ho => ⟨State.ordered_setFld ho .., State.fld_setFld_ne ho v k⟩

theorem KeepsFld.setFlag (h : KeepsFld die f s t) (d : Nat) (g : Fld) (b : Bool) (k : regKey die f.blk f.off ≠ regKey d g.blk g.off) :
    KeepsFld die f s (t.setFlag d g b) := h.setFld d g _ k

/-- A field of the same register. -/
theorem KeepsFld.apart (h : KeepsFld die f s t) (g : Fld) (v : Nat) (k : Fld.Apart f g) : KeepsFld die f s (t.setFld die g v) := by
  obtain ⟨hg, hb, ho, hd⟩ := k
  exact h.trans fun hr => ⟨State.ordered_setFld hr .., State.fld_setFld_apart hr die hg v hb ho hd⟩

theorem KeepsFld.apartFlag (h : KeepsFld die f s t) (g : Fld) (b : Bool) (k : Fld.Apart f g) : KeepsFld die f s (t.setFlag die g b) :=
  h.apart g _ k

/-- The choice of a source writes TBS_STATUS alone. -/
theorem KeepsFld.selectSource (h : KeepsFld die f s t) (k : regKey die f.blk f.off ≠ regKey dieB 0x08 0x10) :
    KeepsFld die f s t.selectSource := by
  obtain ⟨u, locked, holdover, ⟨corr, acc, hu⟩, e⟩ := t.selectSource_writes
  have hsame : KeepsFld die f s u := h.same (by rw [hu]) (by rw [hu])
  rw [e]
  exact ((hsame.setFld dieB Reg.TBS_STATUS_SOURCE _ k).setFlag dieB Reg.TBS_STATUS_LOCKED _ k).setFlag dieB Reg.TBS_STATUS_HOLDOVER _ k

/-- The recorder's append point lies in EVR_STATUS. -/
theorem KeepsFld.scanEvents (h : KeepsFld die f s t) (k : regKey die f.blk f.off ≠ regKey dieB 0x03 0x00) :
    KeepsFld die f s t.scanEvents :=
  (h.setFld dieB Reg.EVR_STATUS_NEXT _ k).setFlag dieB Reg.EVR_STATUS_FULL _ k

theorem KeepsFld.flag_eq (h : KeepsFld die f s t) (ho : s.Ordered) : t.flag die f = s.flag die f := by
  unfold State.flag
  rw [(h ho).2]

end

/-- From `s` to `t` the register file and the correction of the time base under way have changed, and nothing else. -/
def SourceOnly (s t : State) : Prop := ∃ r corr acc, t = { s with regs := r, time := { s.time with corr := corr, acc := acc } }

section

variable {s t u : State}

theorem SourceOnly.refl (s : State) : SourceOnly s s := ⟨_, _, _, rfl⟩

theorem SourceOnly.trans (h : SourceOnly s t) (k : SourceOnly t u) : SourceOnly s u := by
  obtain ⟨_, _, _, rfl⟩ := h
  obtain ⟨_, _, _, rfl⟩ := k
  exact ⟨_, _, _, rfl⟩

theorem SourceOnly.setFld (h : SourceOnly s t) (die : Nat) (f : Fld) (v : Nat) : SourceOnly s (t.setFld die f v) :=
  h.trans ⟨_, _, _, rfl⟩

theorem SourceOnly.setFlag (h : SourceOnly s t) (die : Nat) (f : Fld) (b : Bool) : SourceOnly s (t.setFlag die f b) :=
  h.setFld die f _

theorem SourceOnly.selectSource (h : SourceOnly s t) : SourceOnly s t.selectSource := h.trans t.selectSource_only

theorem SourceOnly.withPair (h : SourceOnly s t) (p : PairU) : SourceOnly { s with pair := p } { t with pair := p } := by
  obtain ⟨r, corr, acc, rfl⟩ := h
  exact ⟨r, corr, acc, rfl⟩

/-- What does not depend on registers and the discipline. -/
theorem SourceOnly.same {α : Type} (g : State → α) (hg : ∀ (s : State) r x, g { s with regs := r, time := x } = g s) (h : SourceOnly s t) :
    g t = g s := by
  obtain ⟨r, corr, acc, rfl⟩ := h
  exact hg s r _

/-- The recorder's append point is in registers. -/
theorem SourceOnly.scanEvents (h : SourceOnly s t) : SourceOnly s t.scanEvents := (h.setFld ..).setFlag ..

theorem SourceOnly.foldl {α : Type} {g : State → α → State} (hg : ∀ t a, SourceOnly t (g t a)) (l : List α) (s : State) :
    SourceOnly s (l.foldl g s) := by
  induction l generalizing s with
  | nil => exact .refl s
  | cons a l ih => exact (hg s a).trans (ih _)

end

end Sys2Proof.Machine
end

section
/-! Resets of the head and the supply (R113, R656, R660 to R682): what a head reset, a dump, the power-down hold and a loss of power leave. -/

namespace Sys2Proof.Machine

open Sys2Proof

/-! ## A head reset (R678, R681) -/

/-- What a head reset makes of the state before it writes registers and chooses a time source. -/
def State.resetCore (s : State) : State :=
  s.keepMedia { State.reset with
    variant := s.variant, side := s.side, pins := s.pins, nor := s.nor, ao := { s.ao with dump := none },
    time := s.time.afterReset, thm := { Thm.reset with dies := s.thm.dies.mapV fun _ d => d.afterReset },
    regs := s.regs.keep fun k _ => aoReg (k / 2 ^ 32) (k / 2 ^ 24 % 256),
    keys := { Keys.reset with ctxBase := s.free },
    free := s.free + 1, out := s.out, pending := s.pending }

/-- The registers of the always-on island that a head reset writes. -/
def State.resetPwr (s : State) (cause : Nat) : State :=
  ((s.resetCore.setFld dieB Reg.PWR_STATUS_LAST_CAUSE cause).setFlag dieB Reg.PWR_STATUS_WARNED false).setFlag dieB Reg.TBS_STATUS_LEADER false

/-- A head reset writes registers, in PWR LAST_CAUSE and WARNED, and chooses a time source. -/
theorem State.headReset_writes (s : State) (cause : Nat) : ∃ jtag, s.headReset cause =
    (((s.resetPwr cause).selectSource.setFlag dieB Reg.BOOT_CTRL_JTAG_EN jtag).setFld (dieF 0) Reg.TKO_STATE_SIDE s.side).scanEvents := by
  unfold State.headReset State.resetPwr State.resetCore
  exact ⟨_, rfl⟩

/-- A head reset leaves `State.resetCore`, but for registers and the correction of the time base under way. -/
theorem State.headReset_only (s : State) (cause : Nat) : SourceOnly s.resetCore (s.headReset cause) := by
  obtain ⟨jtag, e⟩ := s.headReset_writes cause
  have hpwr : SourceOnly s.resetCore (s.resetPwr cause) := (((SourceOnly.refl _).setFld ..).setFlag ..).setFlag ..
  rw [e]
  exact ((hpwr.selectSource.setFlag ..).setFld ..).scanEvents

theorem State.ordered_resetCore {s : State} (h : s.Ordered) : s.resetCore.Ordered := by
  unfold State.resetCore
  exact SMap.rising_keep h fun k _ => aoReg (k / 2 ^ 32) (k / 2 ^ 24 % 256)

/-- Registers of PWR lie apart from those of other blocks. -/
theorem regKey_pwr_ne {f : Fld} (hf : f.blk = 0x05 ∧ f.off < 2 ^ 24) {o die blk : Nat} (ho : o < 2 ^ 24 := by decide)
    (hb : blk ≠ 0x05 := by decide) (hlt : blk < 256 := by decide) : regKey dieB f.blk f.off ≠ regKey die blk o := by
  obtain ⟨hblk, hoff⟩ := hf
  rw [hblk]
  unfold regKey
  generalize homeDie dieB 0x05 f.off = d
  generalize homeDie die blk o = d'
  omega

/-- Registers of PWR read after a head reset as it has written them. -/
theorem State.headReset_keepsPwr (s : State) (cause : Nat) {f : Fld} (hf : f.blk = 0x05 ∧ f.off < 2 ^ 24) :
    KeepsFld dieB f (s.resetPwr cause) (s.headReset cause) := by
  obtain ⟨jtag, e⟩ := s.headReset_writes cause
  rw [e]
  have hsel : KeepsFld dieB f (s.resetPwr cause) (s.resetPwr cause).selectSource := (KeepsFld.refl _).selectSource (regKey_pwr_ne hf)
  exact ((hsel.setFlag dieB Reg.BOOT_CTRL_JTAG_EN _ (regKey_pwr_ne hf)).setFld (dieF 0) Reg.TKO_STATE_SIDE _ (regKey_pwr_ne hf)).scanEvents
    (regKey_pwr_ne hf)

/-- Registers of the always-on island keep their values over a reset, until they are written. -/
theorem State.reg_resetCore_pwr {s : State} (h : s.Ordered) {off : Nat} (ho : off < 2 ^ 24) :
    s.resetCore.reg dieB 0x05 off = s.reg dieB 0x05 off := by
  have hkey : regKey dieB 0x05 off = 0x05 * 2 ^ 24 + off := by simp [regKey, homeDie, dieB]
  have hao : aoReg (regKey dieB 0x05 off / 2 ^ 32) (regKey dieB 0x05 off / 2 ^ 24 % 256) = true := by
    rw [hkey, show (0x05 * 2 ^ 24 + off) / 2 ^ 32 = 0 by omega, show (0x05 * 2 ^ 24 + off) / 2 ^ 24 % 256 = 0x05 by omega]
    rfl
  have hf := SMap.find?_keep ((SMap.rising_iff _).1 h) (fun k => aoReg (k / 2 ^ 32) (k / 2 ^ 24 % 256)) (regKey dieB 0x05 off)
  rw [if_pos hao] at hf
  exact congrArg (fun o => o.getD (resetWord s.variant 0x05 off)) hf

/-- LAST_CAUSE after a head reset (R682). -/
theorem State.lastCause_headReset {s : State} (h : s.Ordered) (cause : Nat) :
    (s.headReset cause).fld dieB Reg.PWR_STATUS_LAST_CAUSE = cause % 16 := by
  have hset := State.fld_setFld_same (State.ordered_resetCore h) dieB (f := Reg.PWR_STATUS_LAST_CAUSE) (by decide) cause
  have hwarned : KeepsFld dieB Reg.PWR_STATUS_LAST_CAUSE (s.resetCore.setFld dieB Reg.PWR_STATUS_LAST_CAUSE cause) (s.resetPwr cause) := by
    have hw := KeepsFld.apartFlag (die := dieB) (f := Reg.PWR_STATUS_LAST_CAUSE) (.refl (s.resetCore.setFld dieB Reg.PWR_STATUS_LAST_CAUSE cause))
      Reg.PWR_STATUS_WARNED false (by decide)
    exact hw.setFlag dieB Reg.TBS_STATUS_LEADER false (by decide)
  exact ((hwarned.trans (s.headReset_keepsPwr cause (by decide))) (State.ordered_setFld (State.ordered_resetCore h) ..)).2.trans hset

/-- A head reset keeps PWR_CTRL (R678). -/
theorem State.uvWarn_headReset {s : State} (h : s.Ordered) (cause : Nat) :
    (s.headReset cause).fld dieB Reg.PWR_CTRL_UV_WARN_DV = s.fld dieB Reg.PWR_CTRL_UV_WARN_DV := by
  have hcore : s.resetCore.fld dieB Reg.PWR_CTRL_UV_WARN_DV = s.fld dieB Reg.PWR_CTRL_UV_WARN_DV :=
    congrArg (fun w => bitsAt w Reg.PWR_CTRL_UV_WARN_DV.lo Reg.PWR_CTRL_UV_WARN_DV.w) (State.reg_resetCore_pwr h (by decide))
  have hpwr : KeepsFld dieB Reg.PWR_CTRL_UV_WARN_DV s.resetCore (s.resetPwr cause) :=
    (((KeepsFld.refl _).setFld dieB Reg.PWR_STATUS_LAST_CAUSE cause (by decide)).setFlag dieB Reg.PWR_STATUS_WARNED false (by decide)).setFlag
      dieB Reg.TBS_STATUS_LEADER false (by decide)
  exact ((hpwr.trans (s.headReset_keepsPwr cause (by decide))) (State.ordered_resetCore h)).2.trans hcore

/-- A head reset is one (R113, R678, R681). -/
theorem State.headReset_spec {s : State} (h : s.Ordered) (cause : Nat) : HeadResetOf s (s.headReset cause) cause := by
  have hlast := State.lastCause_headReset h cause
  have huv := State.uvWarn_headReset h cause
  obtain ⟨r, corr, acc, e⟩ := s.headReset_only cause
  rw [e] at hlast huv ⊢
  exact ⟨rfl, fun _ => rfl, rfl, rfl, rfl, rfl, rfl, rfl, rfl, rfl, rfl, rfl, rfl, rfl, hlast, huv⟩

/-! ## Dumps (R670) -/

/-- Freezing every master writes registers and the channels of the masters. -/
theorem State.freezeHead_only (s : State) : ∃ t h, SourceOnly s t ∧ s.freezeHead = { t with hrd := h } := by
  refine ⟨_, _, SourceOnly.foldl (fun t tile => ?_) (List.range s.variant.tiles) s, rfl⟩
  exact ((SourceOnly.foldl (fun u i => (SourceOnly.refl u).setFld ..) (List.range 3) t).setFlag ..).setFlag ..

/-- The beginning of a dump leaves the pair, memory and the journal as they were, and notes the dump. -/
theorem State.beginDump_notes (s : State) (warm : Bool) (after : AfterDump) :
    (s.beginDump warm after).pair = s.pair ∧ (s.beginDump warm after).mem = s.mem ∧ (s.beginDump warm after).jrnl = s.jrnl ∧
      (s.beginDump warm after).ao =
        { s.ao with dumps := s.ao.dumps + 1, dump := some { warm := warm, tw := s.ao.tb, after := after, heldReset := none } } := by
  unfold State.beginDump
  dsimp only
  generalize hv : State.mk .. = v
  obtain ⟨t, h, ⟨r, corr, acc, rfl⟩, e⟩ := v.freezeHead_only
  rw [e, ← hv]
  exact ⟨rfl, rfl, rfl, rfl⟩

/-! ## Reset sources (R679, R682) -/

section

variable {s : State} {cause : Nat} (hd : s.ao.dump = none)
include hd

theorem State.requestReset_at_once (hh : s.pair.head ∈ [HeadState.boot, .fawn, .fenced, .thermalHold]) :
    s.requestReset cause = s.headReset cause := by
  simp only [List.mem_cons, List.not_mem_nil, or_false] at hh
  unfold State.requestReset
  rw [hd]
  rcases hh with hh | hh | hh | hh <;> rw [hh]

theorem State.requestReset_solo (hh : s.pair.head = .solo) : s.requestReset cause = s.beginDump true (.reset cause) := by
  simp only [State.requestReset, hd, hh]

theorem State.requestReset_twin (hh : s.pair.head = .twin) : s.requestReset cause = (s.yield 0x01).headReset cause := by
  simp only [State.requestReset, hd, hh]

theorem State.requestReset_off (hh : s.pair.head = .off) : s.requestReset cause = s := by
  simp only [State.requestReset, hd, hh]

end

theorem State.requestReset_dumping {s : State} {d : Dump} (hd : s.ao.dump = some d) (cause : Nat) :
    s.requestReset cause = { s with ao := { s.ao with dump := some { d with heldReset := some cause } } } := by
  simp only [State.requestReset, hd]

/-- Settles O16: each source requests a reset of the head, of a state that differs in pins and PWR_GOOD alone. -/
theorem resetSourcesActByHeadState : Obligations.ResetSourcesActByHeadState := by
  unfold Obligations.ResetSourcesActByHeadState
  intro s c u cause ho hsrc
  obtain ⟨hexec, hou, hp, ha, hm, hj⟩ : exec c s = .next (u.requestReset cause) ∧ u.Ordered ∧ u.pair = s.pair ∧ u.ao = s.ao ∧
      u.mem = s.mem ∧ u.jrnl = s.jrnl := by
    simp only [Prod.mk.injEq] at hsrc
    rcases hsrc with ⟨rfl, rfl, rfl⟩ | ⟨val, hgo, hhead, rfl, rfl, rfl⟩ | ⟨rfl, rfl, rfl⟩ | ⟨rfl, rfl, rfl⟩
    · exact ⟨rfl, ho, rfl, rfl, rfl, rfl⟩
    · exact ⟨if_pos ⟨hgo, hhead⟩, ho, rfl, rfl, rfl, rfl⟩
    · exact ⟨rfl, State.ordered_setFlag ho .., State.setFlag_pair .., State.setFlag_ao .., State.setFlag_mem .., State.setFlag_jrnl ..⟩
    · refine ⟨rfl, ?_, by rw [State.setFlag_pair], by rw [State.setFlag_ao], by rw [State.setFlag_mem], by rw [State.setFlag_jrnl]⟩
      exact State.ordered_setFlag (s := { s with pins := { s.pins with refclk := false } }) ho ..
  have next {v : State} (h : u.requestReset cause = v) : exec c s = .next v := hexec.trans (congrArg _ h)
  refine ⟨fun hd hh => ⟨_, next (State.requestReset_at_once (ha ▸ hd) (hp ▸ hh)), State.headReset_spec hou cause⟩,
    fun hd hh => ⟨_, next (State.requestReset_solo (ha ▸ hd) (hp ▸ hh)), ?_⟩,
    fun hd hh => next (State.requestReset_twin (ha ▸ hd) (hp ▸ hh)), fun hd hh => next (State.requestReset_off (ha ▸ hd) (hp ▸ hh)),
    fun d hd => ⟨_, next (State.requestReset_dumping (ha ▸ hd) cause), ?_⟩⟩
  · obtain ⟨hpair, hmem, hjrnl, hao⟩ := u.beginDump_notes true (.reset cause)
    exact ⟨ha ▸ hao, hp ▸ hpair, hm ▸ hmem, hj ▸ hjrnl⟩
  · rw [ha]

/-! ## Supply and warnings (R660, R666, R669) -/

/-- Settles O18: the converter's conditions, and what sets each pin and begins a warning. -/
theorem supplyCommandsStartAndWarn : Obligations.SupplyCommandsStartAndWarn := by
  unfold Obligations.SupplyCommandsStartAndWarn
  refine ⟨fun s mv hmv hen => ⟨_, congrArg Host.Outcome.next (if_pos ?_), rfl⟩, fun s hvin => ⟨_, congrArg Host.Outcome.next (if_pos ?_), rfl⟩,
    fun s hen => if_pos hen, fun s mv hmv => if_pos hmv, fun s => rfl⟩
  · simp [hmv, hen]
  · simp [hvin]

/-- A head that enters OFF: registers, the discipline and the pair's state are written. -/
theorem State.enter_off_only (s : State) :
    SourceOnly { s with pair := { s.pair with head := .off, claim := none, silence := none, deferTill := none } } (s.enter .off) := by
  unfold State.enter
  dsimp only
  rw [State.setFlag_pair, State.setFlag_pair]
  have hlease := ((SourceOnly.refl { s with pair := { s.pair with head := .off } }).setFlag (dieF 0) Reg.TKO_STATE_LEASE false).setFlag (dieF 0)
    Reg.TKO_STATE_SHARD_MASTER false
  exact ((hlease.withPair _).setFlag ..).selectSource

/-- A head that enters OFF leaves the registers of PWR. -/
theorem State.enter_off_keepsPwr (s : State) {f : Fld} (hf : f.blk = 0x05 ∧ f.off < 2 ^ 24) : KeepsFld dieB f s (s.enter .off) := by
  have hoff : KeepsFld dieB f s { s with pair := { s.pair with head := .off } } := (KeepsFld.refl s).same rfl rfl
  have hlease := (hoff.setFlag (dieF 0) Reg.TKO_STATE_LEASE false (regKey_pwr_ne hf)).setFlag (dieF 0) Reg.TKO_STATE_SHARD_MASTER false
    (regKey_pwr_ne hf)
  unfold State.enter
  dsimp only
  refine KeepsFld.selectSource (KeepsFld.setFlag (KeepsFld.same hlease ?_ ?_) dieB Reg.TBS_STATUS_LEADER _ (regKey_pwr_ne hf)) (regKey_pwr_ne hf)
  · rfl
  · rfl

/-- The power-down hold (R673, R674). -/
theorem State.powerHold_holds {s : State} : s.powerHold.pair.head = .off ∧ s.powerHold.ao = { s.ao with hold := true, dump := none } ∧
    s.powerHold.mem = s.mem ∧ s.powerHold.nor = s.nor ∧ s.powerHold.nand = s.nand := by
  unfold State.powerHold
  dsimp only
  generalize hv : State.mk .. = v
  have hao : v.ao = { s.ao with hold := true, dump := none } := by rw [← hv, State.setFlag_ao]
  have hmem : v.mem = s.mem := by rw [← hv, State.setFlag_mem]
  have hnor : v.nor = s.nor := by rw [← hv, State.setFlag_nor]
  have hnand : v.nand = s.nand := by rw [← hv, State.setFlag_nand]
  obtain ⟨r, corr, acc, e⟩ := v.enter_off_only
  rw [e]
  exact ⟨rfl, hao, hmem, hnor, hnand⟩

/-- A power-fail warning in a state that takes it. -/
theorem State.powerWarn_taken {s : State} (hw : s.flag dieB Reg.PWR_STATUS_WARNED = false) (hh : s.ao.hold = false) (hd : s.ao.dump = none) :
    let t := s.setFlag dieB Reg.PWR_STATUS_WARNED true
    (s.pair.head ∈ [HeadState.boot, .fawn, .fenced, .thermalHold] → s.powerWarn = t.powerHold) ∧
    (s.pair.head = .solo → s.powerWarn = t.beginDump false .hold) ∧ (s.pair.head = .twin → s.powerWarn = (t.yield 0x01).beginDump false .hold) := by
  intro t
  have hp : t.pair = s.pair := State.setFlag_pair ..
  unfold State.powerWarn
  rw [if_neg (by simp [hw, hh, hd])]
  refine ⟨fun h => ?_, fun h => ?_, fun h => ?_⟩
  · simp only [List.mem_cons, List.not_mem_nil, or_false] at h
    rcases h with h | h | h | h <;> simp only [t, hp, h]
  · simp only [t, hp, h]
  · simp only [t, hp, h]

/-- What the power-down hold leaves in PWR_STATUS: PWR_GOOD low, WARNED as it was (R669, R673). -/
theorem State.powerHold_flags {s : State} (h : s.Ordered) : s.powerHold.flag dieB Reg.PWR_STATUS_PWR_GOOD = false ∧
    s.powerHold.flag dieB Reg.PWR_STATUS_WARNED = s.flag dieB Reg.PWR_STATUS_WARNED := by
  have hlow := State.flag_setFlag_same h dieB (f := Reg.PWR_STATUS_PWR_GOOD) (by decide) rfl false
  have hgood := State.ordered_setFlag h dieB Reg.PWR_STATUS_PWR_GOOD false
  have hwarned := KeepsFld.apartFlag (die := dieB) (f := Reg.PWR_STATUS_WARNED) (.refl s) Reg.PWR_STATUS_PWR_GOOD false (by decide)
  have hoff {f : Fld} (hf : f.blk = 0x05 ∧ f.off < 2 ^ 24) :
      KeepsFld dieB f (s.setFlag dieB Reg.PWR_STATUS_PWR_GOOD false) s.powerHold := by
    unfold State.powerHold
    dsimp only
    generalize hv : State.mk .. = v
    have hsame : KeepsFld dieB f (s.setFlag dieB Reg.PWR_STATUS_PWR_GOOD false) v := (KeepsFld.refl _).same (by rw [← hv]) (by rw [← hv])
    exact hsame.trans (v.enter_off_keepsPwr hf)
  exact ⟨((hoff (by decide)).flag_eq hgood).trans hlow, (hwarned.trans (hoff (by decide))).flag_eq h⟩

/-- Settles O19: a warning is taken, and the head's state says what follows. -/
theorem powerWarningHoldsOrDumps : Obligations.PowerWarningHoldsOrDumps := by
  unfold Obligations.PowerWarningHoldsOrDumps
  have low (s : State) : ∃ u : State, u = { s with pins := { s.pins with modEn := false } } ∧ exec .modEnLow s = .next u.powerWarn ∧
      u.regs = s.regs ∧ u.variant = s.variant ∧ u.pair = s.pair ∧ u.ao = s.ao ∧ u.mem = s.mem ∧ u.nor = s.nor ∧ u.jrnl = s.jrnl :=
    ⟨_, rfl, rfl, rfl, rfl, rfl, rfl, rfl, rfl, rfl⟩
  refine ⟨fun s ho hw hh hd hhead => ?_, fun s hw hh hd hhead => ?_, fun s hw hh hd hhead => ?_⟩ <;>
    obtain ⟨u, hu, hexec, hr, hv, hp, ha, hm, hn, hj⟩ := low s <;>
    obtain ⟨hhold, hsolo, htwin⟩ := State.powerWarn_taken ((State.flag_congr hr hv ..).trans hw) (ha ▸ hh) (ha ▸ hd)
  · have ho : u.Ordered := by rw [State.Ordered, hr]; exact ho
    obtain ⟨hoff, hao, hmem, hnor, -⟩ := (u.setFlag dieB Reg.PWR_STATUS_WARNED true).powerHold_holds
    obtain ⟨hgood, hkept⟩ := State.powerHold_flags (State.ordered_setFlag ho dieB Reg.PWR_STATUS_WARNED true)
    refine ⟨_, hexec.trans (congrArg _ (hhold (hp ▸ hhead))), hoff, ?_, hgood, ?_, ?_, ?_⟩
    · rw [hao, State.setFlag_ao, ha, ← hd]
    · exact hkept.trans (State.flag_setFlag_same ho dieB (by decide) rfl true)
    · rw [hmem, State.setFlag_mem, hm]
    · rw [hnor, State.setFlag_nor, hn]
  · obtain ⟨hpair, hmem, hjrnl, hao⟩ := (u.setFlag dieB Reg.PWR_STATUS_WARNED true).beginDump_notes false .hold
    refine ⟨_, hexec.trans (congrArg _ (hsolo (hp ▸ hhead))), ?_, ?_, ?_, ?_⟩
    · rw [hpair, State.setFlag_pair, hp]
    · rw [hmem, State.setFlag_mem, hm]
    · rw [hjrnl, State.setFlag_jrnl, hj]
    · rw [hao, State.setFlag_ao, ha]
  · rw [← hu]
    exact hexec.trans (congrArg _ (htwin (hp ▸ hhead)))

/-! ## The end of a dump (R672, R673) -/

/-- What the end of a dump writes beside registers: the reserve, outputs, the counter log and the recorder. -/
def State.dumped (s : State) (img : DumpImage) (packed : List (List JRec)) : State :=
  if s.dumpBlocks.isEmpty then s else
    (List.zip s.dumpBlocks (img.blocks s.side packed)).foldl (fun s x => s.emit (.dumpBlock x.1 x.2))
      { s with nand := { s.nand with dumps := s.nand.dumps.insert s.side img } }

/-- Emitting in turn changes outputs alone. -/
theorem State.foldl_emit_only {α : Type} (f : α → Out) (l : List α) (s : State) :
    ∃ o, l.foldl (fun s x => s.emit (f x)) s = { s with out := o } := by
  induction l generalizing s with
  | nil => exact ⟨_, rfl⟩
  | cons x l ih =>
    obtain ⟨o, e⟩ := ih (s.emit (f x))
    exact ⟨o, e⟩

theorem State.dumped_only (s : State) (img : DumpImage) (packed : List (List JRec)) : ∃ o, s.dumped img packed =
    { s with out := o, nand := if s.dumpBlocks.isEmpty then s.nand else { s.nand with dumps := s.nand.dumps.insert s.side img } } := by
  unfold State.dumped
  split
  · exact ⟨_, rfl⟩
  · obtain ⟨o, e⟩ := State.foldl_emit_only (fun x : Nat × Bytes => Out.dumpBlock x.1 x.2) (List.zip s.dumpBlocks (img.blocks s.side packed))
      { s with nand := { s.nand with dumps := s.nand.dumps.insert s.side img } }
    exact ⟨o, e⟩

/-- What a whole dump of all unreleased records says (R672). -/
def State.wholeDump (s : State) (d : Dump) : DumpImage :=
  { dumpid := s.ao.pcycle * 2 ^ 40 + s.ao.dumps, epoch := s.epoch, time := d.tw, warm := d.warm,
    own := s.jrnl.own.vals.map JEnt.r, mirror := s.jrnl.mirror.vals.map JEnt.r, final := true }

theorem unreleased_none_lost (m : SMap JEnt) : (unreleased m).filter (fun r => !([] : List Nat).contains r.seq) = m.vals.map JEnt.r :=
  List.filter_eq_self.2 fun _ _ => rfl

/-- The end of a dump writes what `State.dumped` says, registers, the counters and an event; where every record has its place in a block,
the blocks hold the whole dump. -/
theorem State.closeDump_writes (s : State) (d : Dump) (n : Nat) (whole fenced : Bool) (lostOwn lostMirror : List Nat) :
    ∃ img packed u, s.closeDump d n whole fenced lostOwn lostMirror = u.logCounters.event dieB 0x05 0 noInst ∧
      SourceOnly (s.dumped img packed) u ∧
      (s.dumpBlocks ≠ [] → whole = true → lostOwn = [] → lostMirror = [] →
        (packDump s.dumpRooms (s.jrnl.own.vals.map JEnt.r ++ s.jrnl.mirror.vals.map JEnt.r)).flatten =
          s.jrnl.own.vals.map JEnt.r ++ s.jrnl.mirror.vals.map JEnt.r → img = s.wholeDump d) := by
  unfold State.closeDump
  extract_lets own mir blks packed put whole' own' mir' bytes img nand w w1 w2 w3 w4 w5 w6
  refine ⟨img, packed, w6, rfl, ?_, fun hblks hwhole hown hmir hfit => ?_⟩
  · exact (((((SourceOnly.refl w).setFld ..).setFld ..).setFlag ..).setFlag ..).setFlag .. |>.setFld ..
  · subst hwhole hown hmir
    have ho : own = s.jrnl.own.vals.map JEnt.r := unreleased_none_lost _
    have hm : mir = s.jrnl.mirror.vals.map JEnt.r := unreleased_none_lost _
    have hput : put = own ++ mir := by
      rw [ho, hm, ← hfit, ← ho, ← hm]
      rfl
    have hfinal : whole' = true := by simp [whole', hput, blks, List.isEmpty_eq_false_iff.2 hblks]
    show DumpImage.mk .. = _
    rw [show own' = own by simp [own', hput], show mir' = mir by simp [mir', hput], hfinal, ho, hm]
    rfl

/-- What does not depend on NOR and the counter entries that wait for it. -/
theorem State.logCounters_same {α : Type} (g : State → α) (hg : ∀ (s : State) x c, g { s with nor := x, ao := { s.ao with heldCounters := c } } = g s)
    (s : State) : g s.logCounters = g s := by
  unfold State.logCounters
  split
  · exact hg s _ s.ao.heldCounters
  · exact hg s s.nor _

/-- Parts of the state that the end of a dump leaves alone, and the reserve. -/
def State.besideDump (s : State) : SMap Byte × Otp × Nat × Nand := (s.mem, s.otp, s.ao.tb, s.nand)

/-- What the end of a dump leaves alone, and what it leaves in the reserve. -/
theorem State.closeDump_keeps (s : State) (d : Dump) (n : Nat) (whole fenced : Bool) (lostOwn lostMirror : List Nat) :
    let t := s.closeDump d n whole fenced lostOwn lostMirror
    t.mem = s.mem ∧ t.otp = s.otp ∧ t.ao.tb = s.ao.tb ∧ ∃ img,
      t.nand = (if s.dumpBlocks.isEmpty then s.nand else { s.nand with dumps := s.nand.dumps.insert s.side img }) ∧
      (s.dumpBlocks ≠ [] → whole = true → lostOwn = [] → lostMirror = [] →
        (packDump s.dumpRooms (s.jrnl.own.vals.map JEnt.r ++ s.jrnl.mirror.vals.map JEnt.r)).flatten =
          s.jrnl.own.vals.map JEnt.r ++ s.jrnl.mirror.vals.map JEnt.r → img = s.wholeDump d) := by
  intro t
  obtain ⟨img, packed, u, e, hu, himg⟩ := s.closeDump_writes d n whole fenced lostOwn lostMirror
  obtain ⟨o, hw⟩ := s.dumped_only img packed
  have hbeside : t.besideDump = (s.dumped img packed).besideDump := calc
    _ = (u.logCounters.event dieB 0x05 0 noInst).besideDump := congrArg State.besideDump e
    _ = u.logCounters.besideDump := EventOnly.same State.besideDump (fun _ _ _ _ _ _ _ => rfl) (State.event_eventOnly ..)
    _ = u.besideDump := State.logCounters_same State.besideDump (fun _ _ _ => rfl) u
    _ = _ := hu.same State.besideDump fun _ _ _ => rfl
  rw [hw] at hbeside
  simp only [State.besideDump, Prod.mk.injEq] at hbeside
  obtain ⟨hmem, hotp, htb, hnand⟩ := hbeside
  exact ⟨hmem, hotp, htb, img, hnand, himg⟩

/-- A dump is over. -/
def State.dumpOver (s : State) : State := { s with ao := { s.ao with dump := none } }

section

variable {s : State} {d : Dump} (hd : s.ao.dump = some d) (n : Nat) (whole fenced : Bool) (lostOwn lostMirror : List Nat)
include hd

/-- A dump that ends in the hold discards a reset held during it (R673). -/
theorem execDumpEnd_hold (ha : d.after = .hold) : exec (.dumpEnd n whole fenced lostOwn lostMirror) s =
    .next (s.closeDump d n whole fenced lostOwn lostMirror).dumpOver.powerHold := by
  show execDumpEnd n whole fenced lostOwn lostMirror s = _
  simp only [execDumpEnd, hd, ha]
  rfl

/-- A warm dump applies the reset held during it (R682). -/
theorem execDumpEnd_reset {cause : Nat} (ha : d.after ≠ .hold) (hh : d.heldReset = some cause) :
    exec (.dumpEnd n whole fenced lostOwn lostMirror) s =
      .next ((s.closeDump d n whole fenced lostOwn lostMirror).dumpOver.headReset cause) := by
  show execDumpEnd n whole fenced lostOwn lostMirror s = _
  simp only [execDumpEnd, hd, hh]
  cases hafter : d.after with
  | hold => exact absurd hafter ha
  | reset c => rfl
  | fence => rfl
  | thermal r => rfl

theorem execDumpEnd_fence (ha : d.after = .fence) (hh : d.heldReset = none) : exec (.dumpEnd n whole fenced lostOwn lostMirror) s =
    .next ((s.closeDump d n whole fenced lostOwn lostMirror).dumpOver.enter .fenced) := by
  show execDumpEnd n whole fenced lostOwn lostMirror s = _
  simp only [execDumpEnd, hd, ha, hh]
  rfl

end

/-- The exit from the hold is a power-on reset that counts PCYCLE (R674). -/
theorem execPowerHoldExit_exits {s : State} {mv : Nat} (hh : s.ao.hold = true) (hr : s.ao.rail = true) (hmv : 35000 < mv) :
    ∃ u t : State, u = { s with pins := { s.pins with vin := mv, modEn := true, pfWarnN := true } } ∧ t = u.headReset 2 ∧
      exec (.powerHoldExit mv true true) s = .next { t with
        ao := { t.ao with hold := false, converter := true, bPower := true, dumps := 0, pcycle := (t.ao.pcycle + 1) % 2 ^ 24 }
        time := { t.time with everLocked := false } } :=
  ⟨_, _, rfl, rfl, if_pos (by simp [hh, hr, hmv])⟩

/-- Settles O20: what the end of a dump keeps, by `State.closeDump_keeps`, carried into the hold, the reset or FENCED that follows it. -/
theorem dumpEndsInHoldOrReset : Obligations.DumpEndsInHoldOrReset := by
  unfold Obligations.DumpEndsInHoldOrReset
  refine ⟨fun s d n fenced hd ha => ?_, fun s d n cause whole fenced lostOwn lostMirror hd ha hh => ?_,
    fun s d n whole fenced lostOwn lostMirror hd ha hh => ?_, fun s mv ho hh hr hmv => ?_⟩
  · obtain ⟨hmem, -, -, img, hnand, himg⟩ := s.closeDump_keeps d n true fenced [] []
    obtain ⟨hoff, hao, hmem', -, hnand'⟩ := (s.closeDump d n true fenced [] []).dumpOver.powerHold_holds
    have hn := hnand'.trans hnand
    refine ⟨_, execDumpEnd_hold hd n true fenced [] [] ha, hoff, by rw [hao], by rw [hao], hmem'.trans hmem, fun hb => ?_, fun hb hfit => ?_⟩
    · rw [hn, hb]
      rfl
    · rw [if_neg (by simpa using hb), himg hb rfl rfl rfl hfit] at hn
      exact ⟨by rw [hn], by rw [hn]; rfl⟩
  · obtain ⟨-, hotp, htb, -⟩ := s.closeDump_keeps d n whole fenced lostOwn lostMirror
    exact ⟨_, execDumpEnd_reset hd n whole fenced lostOwn lostMirror ha hh, hotp, htb, rfl⟩
  · obtain ⟨hmem, -⟩ := s.closeDump_keeps d n whole fenced lostOwn lostMirror
    obtain ⟨r, x, e⟩ := (s.closeDump d n whole fenced lostOwn lostMirror).dumpOver.enter_fenced_only
    exact ⟨_, execDumpEnd_fence hd n whole fenced lostOwn lostMirror ha hh, by rw [e], by rw [e]; exact hmem⟩
  · obtain ⟨u, t, hu, ht, hexec⟩ := execPowerHoldExit_exits hh hr hmv
    have hou : u.Ordered := by rw [hu]; exact ho
    have hreset := State.headReset_spec hou 2
    rw [← ht] at hreset
    obtain ⟨hboot, hload, -, -, -, -, -, -, hao, hnor, hotp, -, -, -, hcause, -⟩ := hreset
    refine ⟨_, hexec, hboot, rfl, rfl, ?_, ?_, hload, hcause, hotp.trans (by rw [hu]), hnor.trans (by rw [hu])⟩
    · show (t.ao.pcycle + 1) % 2 ^ 24 = _
      rw [hao, hu]
    · show t.ao.tb = _
      rw [hao, hu]

/-! ## Loss and rise of power (R656, R660, R678) -/

/-- The B-die without power: OFF, memory lost; the always-on island, OTP and NOR stay. -/
theorem State.powerLoss_loses (s : State) : s.powerLoss.pair.head = .off ∧ (∀ a, s.powerLoss.load a = 0) ∧
    s.powerLoss.ao = { s.ao with dump := none, bPower := false } ∧ s.powerLoss.otp = s.otp ∧ s.powerLoss.nor = s.nor ∧
    s.powerLoss.pins = s.pins := by
  obtain ⟨r, corr, acc, e⟩ := s.headReset_only (s.fld dieB Reg.PWR_STATUS_LAST_CAUSE)
  unfold State.powerLoss
  rw [e]
  dsimp only
  generalize hv : State.setFlag _ dieB Reg.PWR_STATUS_PWR_GOOD false = v
  have hmem : v.mem = [] := by rw [← hv, State.setFlag_mem]; rfl
  have hao : v.ao = { s.ao with dump := none, bPower := false } := by rw [← hv, State.setFlag_ao]; rfl
  have hotp : v.otp = s.otp := by rw [← hv, State.setFlag_otp]; rfl
  have hnor : v.nor = s.nor := by rw [← hv, State.setFlag_nor]; rfl
  have hpins : v.pins = s.pins := by rw [← hv, State.setFlag_pins]; rfl
  obtain ⟨r, corr, acc, e⟩ := v.enter_off_only
  rw [e]
  refine ⟨rfl, fun a => ?_, hao, hotp, hnor, hpins⟩
  show SMap.getD v.mem a 0 = 0
  rw [hmem]
  rfl

/-- VIN below 27 V stops the converter; without a dump under way the B-die loses power at once (R660). -/
theorem execConverterStop_stops {s : State} {mv : Nat} (h : mv < 27000) (hd : s.ao.dump = none) (n : Nat) :
    ∃ u t : State, u = { s with pins := { s.pins with vin := mv } } ∧ t = u.powerLoss ∧
      exec (.converterStop mv n) s = .next { t with ao := { t.ao with converter := false, hold := t.ao.rail } } := by
  refine ⟨_, _, rfl, rfl, (?_ : execConverterStop mv n s = _)⟩
  simp only [execConverterStop, if_pos h, hd]

/-- The rise of the AO rail is a head reset with an empty register file, and starts the always-on island (R656, R665). -/
theorem execAoRailRise_resumes {s : State} {e : CounterEnt} (h : s.nor.lastCounter = some e) (side : Nat) :
    ∃ u t : State, u = { s with side := side % 2, regs := [], wo := [], time := .reset, thm := .reset } ∧ t = u.headReset 1 ∧
      exec (.aoRailRise side) s = .next { t with
        ao := { Ao.reset with hours := e.hours, seconds := e.seconds, pcycle := (e.pcycle + 1) % 2 ^ 24 } } := by
  refine ⟨_, _, rfl, rfl, (?_ : execAoRailRise side s = _)⟩
  simp only [execAoRailRise, h, Option.map_some, Option.getD_some]

/-- Settles O21: the loss of power by `State.powerLoss_loses`; the rise of the AO rail as a head reset. -/
theorem powerLossAndRise : Obligations.PowerLossAndRise := by
  unfold Obligations.PowerLossAndRise
  refine ⟨fun s mv n hmv hd => ?_, fun s => ?_, fun s side e he => ?_⟩
  · obtain ⟨u, t, hu, ht, hexec⟩ := execConverterStop_stops hmv hd n
    have hloss := u.powerLoss_loses
    rw [← ht, hu] at hloss
    obtain ⟨hoff, hload, hao, hotp, hnor, hpins⟩ := hloss
    rw [hao] at hexec
    exact ⟨_, hexec, hoff, rfl, rfl, rfl, rfl, hload, hotp, hnor, congrArg Pins.vin hpins⟩
  · have hexec : ∃ t : State, t = s.powerLoss ∧ exec .aoRailLoss s = .next { t with
        regs := [], wo := [], time := .reset, thm := .reset, ao := { Ao.reset with rail := false, bPower := false, converter := s.ao.converter } } :=
      ⟨_, rfl, rfl⟩
    obtain ⟨t, ht, hexec⟩ := hexec
    have hloss := s.powerLoss_loses
    rw [← ht] at hloss
    obtain ⟨hoff, hload, -, hotp, hnor, -⟩ := hloss
    exact ⟨_, hexec, hoff, rfl, rfl, rfl, rfl, rfl, hload, hotp, hnor⟩
  · obtain ⟨u, t, hu, ht, hexec⟩ := execAoRailRise_resumes he side
    have hou : u.Ordered := by rw [hu]; rfl
    have hreset := State.headReset_spec hou 1
    rw [← ht] at hreset
    obtain ⟨hboot, -, -, -, -, -, -, -, -, hnor, hotp, -, -, hside, hcause, -⟩ := hreset
    exact ⟨_, hexec, hboot, hside.trans (by rw [hu]), rfl, rfl, rfl, rfl, (State.fld_congr rfl rfl ..).trans hcause, hotp.trans (by rw [hu]),
      hnor.trans (by rw [hu])⟩

end Sys2Proof.Machine
end

section
/-! Sparse maps in order whose unlisted keys read a default: reads after writes. -/

namespace Sys2Proof.SMap

variable {V : Type}

variable [DecidableEq V]

theorem getD_putD_same_of_rising {m : SMap V} (h : m.rising = true) (a : Nat) (v d : V) : (SMap.putD m a v d).getD a d = v := by
  unfold putD getD
  split
  next heq => rw [find?_erase_same ((rising_iff m).1 h), heq]; rfl
  · rw [find?_insert]; rfl

theorem getD_putD_ne_of_rising {m : SMap V} (h : m.rising = true) {a b : Nat} (hab : b ≠ a) (v d : V) :
    (SMap.putD m a v d).getD b d = SMap.getD m b d := by
  unfold putD getD
  split
  · rw [find?_erase_ne ((rising_iff m).1 h) hab]
  · rw [find?_insert_ne ((rising_iff m).1 h) hab]

end Sys2Proof.SMap
end

section
/-! The content search arrays (R497, R503 to R506, R522, R525): which entry an operation finds, and what each operation leaves. -/

namespace Sys2Proof.Machine

open Sys2Proof

/-! ## Registers apart -/

/-- Registers at different offsets of their blocks are different registers. -/
theorem regKey_ne_of_off {die die' blk blk' o o' : Nat} (h : o ≠ o') (ho : o < 2 ^ 24) (ho' : o' < 2 ^ 24) :
    regKey die blk o ≠ regKey die' blk' o' := by
  unfold regKey
  generalize homeDie die blk o = d
  generalize homeDie die' blk' o' = d'
  omega

/-! ## Best and floor (R504, R505) -/

/-- The best of a list that starts from a best so far. -/
def bestFrom (b : Option (Nat × CsaEnt)) (l : List (Nat × CsaEnt)) : Option (Nat × CsaEnt) :=
  l.foldl (fun b ae => match b with
    | some x => if x.2.rank < ae.2.rank then some ae else b
    | none => some ae) b

theorem bestHit_eq_bestFrom (l : SMap CsaEnt) : bestHit l = bestFrom none l := rfl

/-- The best is the start or a listed entry; it outranks every earlier entry, and none of the others outranks it. -/
theorem bestFrom_spec (x : Nat × CsaEnt) (l : List (Nat × CsaEnt)) (hl : l.Pairwise fun x y => x.1 < y.1) (hx : ∀ y ∈ l, x.1 < y.1) :
    ∃ a e, bestFrom (some x) l = some (a, e) ∧ (a, e) ∈ x :: l ∧
      ∀ y ∈ x :: l, y.2.rank < e.rank ∨ y.2.rank = e.rank ∧ a ≤ y.1 := by
  induction l generalizing x with
  | nil => exact ⟨x.1, x.2, rfl, .head _, fun y hy => by rw [List.mem_singleton.1 hy]; exact .inr ⟨rfl, Nat.le_refl _⟩⟩
  | cons z l ih =>
    obtain ⟨hz, hl⟩ := List.pairwise_cons.1 hl
    have hxz : x.1 < z.1 := hx z (.head _)
    by_cases hr : x.2.rank < z.2.rank
    · obtain ⟨a, e, hbest, hmem, hall⟩ := ih z hl hz
      refine ⟨a, e, (congrArg (fun b => bestFrom b l) (if_pos hr)).trans hbest, .tail _ hmem, fun y hy => ?_⟩
      rcases List.mem_cons.1 hy with rfl | hy
      · rcases hall z (.head _) with h | ⟨h, -⟩ <;> left <;> omega
      · exact hall y hy
    · obtain ⟨a, e, hbest, hmem, hall⟩ := ih x hl fun y hy => hx y (.tail _ hy)
      refine ⟨a, e, (congrArg (fun b => bestFrom b l) (if_neg hr)).trans hbest, ?_, fun y hy => ?_⟩
      · rcases List.mem_cons.1 hmem with h | h
        · rw [h]; exact .head _
        · exact .tail _ (.tail _ h)
      · rcases List.mem_cons.1 hy with rfl | hy
        · exact hall y (.head _)
        · rcases List.mem_cons.1 hy with rfl | hy
          · have hxe := hall x (.head _)
            rcases hxe with h | ⟨h, ha⟩
            · left; omega
            · rcases Nat.lt_or_ge y.2.rank e.rank with h' | h'
              · exact .inl h'
              · exact .inr ⟨by omega, by omega⟩
          · exact hall y (.tail _ hy)

theorem bestHit_none_iff (l : SMap CsaEnt) (h : l.rising = true) : bestHit l = none ↔ l = [] := by
  cases l with
  | nil => exact iff_of_true rfl rfl
  | cons x l =>
    obtain ⟨hx, hl⟩ := List.pairwise_cons.1 ((SMap.rising_iff _).1 h)
    obtain ⟨a, e, hbest, -, -⟩ := bestFrom_spec x l hl hx
    exact iff_of_false (fun hn => by cases (show bestFrom (some x) l = none from hn).symm.trans hbest) (List.cons_ne_nil _ _)

theorem bestHit_some {l : SMap CsaEnt} (h : l.rising = true) {a : Nat} {e : CsaEnt} (hb : bestHit l = some (a, e)) :
    (a, e) ∈ l ∧ ∀ b f, (b, f) ∈ l → f.rank < e.rank ∨ f.rank = e.rank ∧ a ≤ b := by
  cases l with
  | nil => cases hb
  | cons x l =>
    obtain ⟨hx, hl⟩ := List.pairwise_cons.1 ((SMap.rising_iff _).1 h)
    obtain ⟨a', e', hbest, hmem, hall⟩ := bestFrom_spec x l hl hx
    obtain ⟨rfl, rfl⟩ := Prod.mk.inj (Option.some.inj ((show bestFrom (some x) l = some (a, e) from hb).symm.trans hbest))
    exact ⟨hmem, fun b f hf => hall (b, f) hf⟩

theorem floorHit_none_iff (l : SMap CsaEnt) (k : Nat) : floorHit l k = none ↔ ∀ b f, (b, f) ∈ l → ordKey k < ordKey f.val := by
  unfold floorHit
  rw [List.getLast?_eq_none_iff, List.filter_eq_nil_iff]
  simp only [decide_eq_true_eq, Nat.not_le, Prod.forall]

theorem floorHit_some {l : SMap CsaEnt} (h : l.rising = true) {k a : Nat} {e : CsaEnt} (hf : floorHit l k = some (a, e)) :
    (a, e) ∈ l ∧ ordKey e.val ≤ ordKey k ∧ ∀ b f, (b, f) ∈ l → ordKey f.val ≤ ordKey k → b ≤ a := by
  unfold floorHit at hf
  obtain ⟨front, hfront⟩ := List.getLast?_eq_some_iff.1 hf
  have hlast : (a, e) ∈ l.filter fun ae => decide (ordKey ae.2.val ≤ ordKey k) := by rw [hfront]; simp
  have hp : (front ++ [(a, e)]).Pairwise fun x y => x.1 < y.1 := hfront ▸ ((SMap.rising_iff _).1 h).filter _
  obtain ⟨hmem, hle⟩ := List.mem_filter.1 hlast
  refine ⟨hmem, of_decide_eq_true hle, fun b f hbf hk => ?_⟩
  have hb : (b, f) ∈ front ++ [(a, e)] := hfront ▸ List.mem_filter.2 ⟨hbf, decide_eq_true hk⟩
  rcases List.mem_append.1 hb with hb | hb
  · exact Nat.le_of_lt ((List.pairwise_append.1 hp).2.2 _ hb _ (.head _))
  · cases List.mem_singleton.1 hb
    exact Nat.le_refl _

/-! ## The end of an operation (R525) -/

theorem State.setCsaReg_only {s t : State} (h : ∃ r, t = { s with regs := r }) (d : Nat) (f : Fld) (v : Nat) :
    ∃ r, t.setCsaReg d f v = { s with regs := r } := by
  unfold State.setCsaReg
  generalize List.range 5 = l
  induction l generalizing t with
  | nil => exact h
  | cons i l ih => exact ih (State.setFld_only h ..)

/-- A value of the request registers lies in five registers from its own on. -/
theorem KeepsFld.setCsaReg {die : Nat} {f : Fld} {s t : State} (h : KeepsFld die f s t) {g : Fld} (k : f.off < g.off ∨ g.off + 40 ≤ f.off)
    (hf : f.off < 2 ^ 24) (hg : g.off + 40 < 2 ^ 24) (d v : Nat) : KeepsFld die f s (t.setCsaReg d g v) := by
  unfold State.setCsaReg
  have hl : ∀ i ∈ List.range 5, i < 5 := fun i hi => List.mem_range.1 hi
  revert hl
  generalize List.range 5 = l
  intro hl
  induction l generalizing t with
  | nil => exact h
  | cons i l ih =>
    have hi : i < 5 := hl i (.head _)
    refine ih (h.setFld (dieS d) (g.plus (8 * i)) _ (regKey_ne_of_off ?_ hf ?_)) fun j hj => hl j (.tail _ hj)
    · simp only [Fld.plus]; omega
    · simp only [Fld.plus]; omega

/-- DONE, HIT and ERR of an operation that ends. -/
def State.csaStatus (s : State) (d err : Nat) (hit : Bool) : State :=
  ((s.setFlag (dieS d) Reg.CSA_RESULT_DONE true).setFlag (dieS d) Reg.CSA_RESULT_HIT hit).setFld (dieS d) Reg.CSA_RESULT_ERR err

/-- An entry in the request registers. -/
def State.csaLoaded (s : State) (d a : Nat) (e : CsaEnt) : State :=
  ((((s.setFld (dieS d) Reg.CSA_RESULT_RANK e.rank).setFld (dieS d) Reg.CSA_RESULT_ADDR a).setCsaReg d Reg.CSA_KEY_V e.val).setCsaReg d
    Reg.CSA_EMASK_V e.mask).setFld (dieS d) Reg.CSA_ASSOC_V e.assoc

theorem State.csaEnd_none (s : State) (d err : Nat) (hit : Bool) : s.csaEnd d err hit none = s.csaStatus d err hit := rfl

theorem State.csaEnd_some (s : State) (d err : Nat) (hit : Bool) (a : Nat) (e : CsaEnt) :
    s.csaEnd d err hit (some (a, e)) = (s.csaStatus d err hit).csaLoaded d a e := rfl

theorem State.csaEnd_only (s : State) (d err : Nat) (hit : Bool) (r : Option (Nat × CsaEnt)) :
    ∃ regs, s.csaEnd d err hit r = { s with regs := regs } := by
  have hstatus : ∃ regs, s.csaStatus d err hit = { s with regs := regs } :=
    State.setFld_only (State.setFlag_only (State.setFlag_only ⟨_, rfl⟩ ..) ..) ..
  match r with
  | none => exact hstatus
  | some (a, e) =>
    exact State.setFld_only (State.setCsaReg_only (State.setCsaReg_only (State.setFld_only (State.setFld_only hstatus ..) ..) ..) ..) ..

section

variable {s : State} (ho : s.Ordered) (d : Nat)
include ho

theorem State.ordered_csaStatus (err : Nat) (hit : Bool) : (s.csaStatus d err hit).Ordered :=
  State.ordered_setFld (State.ordered_setFlag (State.ordered_setFlag ho ..) ..) ..

/-- DONE, HIT and ERR read as they were set. -/
theorem State.csaStatus_reads (err : Nat) (hit : Bool) : (s.csaStatus d err hit).flag (dieS d) Reg.CSA_RESULT_DONE = true ∧
    (s.csaStatus d err hit).flag (dieS d) Reg.CSA_RESULT_HIT = hit ∧ (s.csaStatus d err hit).fld (dieS d) Reg.CSA_RESULT_ERR = err % 8 := by
  have h1 := State.ordered_setFlag ho (dieS d) Reg.CSA_RESULT_DONE true
  have h2 := State.ordered_setFlag h1 (dieS d) Reg.CSA_RESULT_HIT hit
  have hdone := State.flag_setFlag_same ho (dieS d) (f := Reg.CSA_RESULT_DONE) (by decide) rfl true
  have hhit := State.flag_setFlag_same h1 (dieS d) (f := Reg.CSA_RESULT_HIT) (by decide) rfl hit
  have hdone' := (KeepsFld.refl (die := dieS d) (f := Reg.CSA_RESULT_DONE) (s.setFlag (dieS d) Reg.CSA_RESULT_DONE true)).apartFlag
    Reg.CSA_RESULT_HIT hit (by decide) |>.apart Reg.CSA_RESULT_ERR err (by decide)
  have hhit' := (KeepsFld.refl (die := dieS d) (f := Reg.CSA_RESULT_HIT)
    ((s.setFlag (dieS d) Reg.CSA_RESULT_DONE true).setFlag (dieS d) Reg.CSA_RESULT_HIT hit)).apart Reg.CSA_RESULT_ERR err (by decide)
  exact ⟨(hdone'.flag_eq h1).trans hdone, (hhit'.flag_eq h2).trans hhit, State.fld_setFld_same h2 (dieS d) (f := Reg.CSA_RESULT_ERR) (by decide) err⟩

omit ho in
/-- RESULT below RANK stays while an entry is loaded. -/
theorem State.csaLoaded_keeps {f : Fld} (hf : f.blk = 0x40 ∧ f.off = 0x388) (hlo : f.lo + f.w ≤ 6) (a : Nat) (e : CsaEnt) :
    KeepsFld (dieS d) f s (s.csaLoaded d a e) := by
  obtain ⟨hb, hoff⟩ := hf
  have hrank := (KeepsFld.refl (die := dieS d) (f := f) s).apart Reg.CSA_RESULT_RANK e.rank ⟨by decide, hb, hoff, .inl hlo⟩
  have haddr := hrank.apart Reg.CSA_RESULT_ADDR a ⟨by decide, hb, hoff, .inl (hlo.trans (by decide))⟩
  have hkey := haddr.setCsaReg (g := Reg.CSA_KEY_V) (.inr (by rw [hoff]; decide)) (by omega) (by decide) d e.val
  have hmask := hkey.setCsaReg (g := Reg.CSA_EMASK_V) (.inr (by rw [hoff]; decide)) (by omega) (by decide) d e.mask
  exact hmask.setFld (dieS d) Reg.CSA_ASSOC_V e.assoc (regKey_ne_of_off (by rw [hoff]; decide) (by omega) (by decide))

/-- RANK, ADDR and the associated data read as they were loaded. -/
theorem State.csaLoaded_reads (a : Nat) (e : CsaEnt) : (s.csaLoaded d a e).fld (dieS d) Reg.CSA_RESULT_RANK = e.rank % 16 ∧
    (s.csaLoaded d a e).fld (dieS d) Reg.CSA_RESULT_ADDR = a % 2 ^ 21 ∧ (s.csaLoaded d a e).fld (dieS d) Reg.CSA_ASSOC_V = e.assoc % 2 ^ 64 := by
  have h1 := State.ordered_setFld ho (dieS d) Reg.CSA_RESULT_RANK e.rank
  have h2 := State.ordered_setFld h1 (dieS d) Reg.CSA_RESULT_ADDR a
  have hrest {f : Fld} (hf : f.off = 0x388) : KeepsFld (dieS d) f ((s.setFld (dieS d) Reg.CSA_RESULT_RANK e.rank).setFld (dieS d) Reg.CSA_RESULT_ADDR a)
      (s.csaLoaded d a e) :=
    (((KeepsFld.refl _).setCsaReg (g := Reg.CSA_KEY_V) (.inr (by rw [hf]; decide)) (by omega) (by decide) d e.val).setCsaReg (g := Reg.CSA_EMASK_V)
      (.inr (by rw [hf]; decide)) (by omega) (by decide) d e.mask).setFld (dieS d) Reg.CSA_ASSOC_V e.assoc
      (regKey_ne_of_off (by rw [hf]; decide) (by omega) (by decide))
  have hrank := (KeepsFld.refl (die := dieS d) (f := Reg.CSA_RESULT_RANK) (s.setFld (dieS d) Reg.CSA_RESULT_RANK e.rank)).apart Reg.CSA_RESULT_ADDR a
    (by decide)
  have hmask := ((KeepsFld.refl (die := dieS d) (f := Reg.CSA_RESULT_RANK) _).setCsaReg (g := Reg.CSA_KEY_V) (.inr (by decide)) (by decide) (by decide) d
    e.val).setCsaReg (g := Reg.CSA_EMASK_V) (.inr (by decide)) (by decide) (by decide) d e.mask h2
  refine ⟨?_, ?_, State.fld_setFld_same hmask.1 (dieS d) (f := Reg.CSA_ASSOC_V) (by decide) e.assoc⟩
  · exact (hrank.trans (hrest rfl) h1).2.trans (State.fld_setFld_same ho (dieS d) (f := Reg.CSA_RESULT_RANK) (by decide) e.rank)
  · exact (hrest (f := Reg.CSA_RESULT_ADDR) rfl h2).2.trans (State.fld_setFld_same h1 (dieS d) (f := Reg.CSA_RESULT_ADDR) (by decide) a)

/-- What the end of an operation leaves in RESULT and the request registers (R525). -/
theorem State.csaEnd_reads (err : Nat) (hit : Bool) (r : Option (Nat × CsaEnt)) :
    let t := s.csaEnd d err hit r
    t.flag (dieS d) Reg.CSA_RESULT_DONE = true ∧ t.flag (dieS d) Reg.CSA_RESULT_HIT = hit ∧ t.fld (dieS d) Reg.CSA_RESULT_ERR = err % 8 ∧
    (∀ a e, r = some (a, e) → t.fld (dieS d) Reg.CSA_RESULT_RANK = e.rank % 16 ∧ t.fld (dieS d) Reg.CSA_RESULT_ADDR = a % 2 ^ 21 ∧
      t.fld (dieS d) Reg.CSA_ASSOC_V = e.assoc % 2 ^ 64) := by
  obtain ⟨hdone, hhit, herr⟩ := State.csaStatus_reads ho d err hit
  have hs := State.ordered_csaStatus ho d err hit
  match r with
  | none => exact ⟨hdone, hhit, herr, fun a e h => nomatch h⟩
  | some (a, e) =>
    rw [State.csaEnd_some]
    refine ⟨((State.csaLoaded_keeps d ⟨rfl, rfl⟩ (by decide) a e).flag_eq hs).trans hdone,
      ((State.csaLoaded_keeps d ⟨rfl, rfl⟩ (by decide) a e).flag_eq hs).trans hhit,
      (State.csaLoaded_keeps d ⟨rfl, rfl⟩ (by decide) a e hs).2.trans herr, fun b f h => ?_⟩
    cases h
    exact State.csaLoaded_reads hs d a e

end

/-! ## Entries (R497) -/

theorem State.csaOf_setCsa {s : State} (h : s.csa.rising = true) (d : Nat) (c : Csa) : (s.setCsa d c).csaOf d = c :=
  SMap.getD_putD_same_of_rising h d c .none

theorem State.csaOf_setCsa_ne {s : State} (h : s.csa.rising = true) {d x : Nat} (hx : x ≠ d) (c : Csa) : (s.setCsa d c).csaOf x = s.csaOf x :=
  SMap.getD_putD_ne_of_rising h hx c .none

theorem State.csaEcc_eq (s : State) (d a : Nat) (ecc : List (Nat × Bool)) : s.csaEcc d ecc a =
    if (s.csaOf d).ents.find? a = none ∨ ecc.lookup a = none then s
    else if ecc.lookup a = some true then s.addFld (dieS d) (Reg.CSA_CNT_COUNT.plus 48) 1
    else (s.withEnts d fun m => m.erase a).addFld (dieS d) (Reg.CSA_CNT_COUNT.plus 56) 1 := by
  unfold State.csaEcc SMap.has
  cases hf : (s.csaOf d).ents.find? a with
  | none => rfl
  | some e =>
    cases hl : ecc.lookup a with
    | none => rfl
    | some b => cases b <;> rfl

theorem State.csaEcc_clean {s : State} {d a : Nat} {ecc : List (Nat × Bool)} (h : ecc.lookup a = none) : s.csaEcc d ecc a = s :=
  (s.csaEcc_eq d a ecc).trans (if_pos (.inr h))

theorem State.csaEcc_corrected {s : State} {d a : Nat} {e : CsaEnt} {ecc : List (Nat × Bool)} (he : (s.csaOf d).ents.find? a = some e)
    (h : ecc.lookup a = some true) : s.csaEcc d ecc a = s.addFld (dieS d) (Reg.CSA_CNT_COUNT.plus 48) 1 := by
  rw [State.csaEcc_eq, if_neg (by simp [he, h]), if_pos h]

theorem State.csaEcc_uncorrectable {s : State} {d a : Nat} {e : CsaEnt} {ecc : List (Nat × Bool)} (he : (s.csaOf d).ents.find? a = some e)
    (h : ecc.lookup a = some false) :
    s.csaEcc d ecc a = (s.withEnts d fun m => m.erase a).addFld (dieS d) (Reg.CSA_CNT_COUNT.plus 56) 1 := by
  rw [State.csaEcc_eq, if_neg (by simp [he, h]), if_neg (by simp [h])]

/-! ## Commands of firmware (R506, R522) -/

section

variable {s : State} {d part : Nat} {ok : CsaPart → Bool} {k : State → CsaPart → State}

theorem State.csaCmd_busy (hp : s.variant.populated (dieS d) = true) (hr : s.csaFlag d Reg.CSA_STATUS_READY = true)
    (hb : s.csaFlag d Reg.CSA_RESULT_BUSY = true) : s.csaCmd d part ok k = s.addFld (dieS d) (Reg.CSA_CNT_COUNT.plus 40) 1 := by
  rw [State.csaCmd, if_neg (by simp [hp, hr]), if_pos hb]
  rfl

theorem State.csaCmd_invalid (h : CsaRuns s d) (hp : s.csaPart d part = none) : s.csaCmd d part ok k = s.csaEnd d 1 false none := by
  obtain ⟨hpop, hr, hb⟩ := h
  rw [State.csaCmd, if_neg (by simp [hpop, hr]), if_neg (by simp [hb]), hp]

theorem State.csaCmd_part (h : CsaRuns s d) {p : CsaPart} (hp : s.csaPart d part = some p) :
    s.csaCmd d part ok k = if ok p then k s p else s.csaEnd d 2 false none := by
  obtain ⟨hpop, hr, hb⟩ := h
  rw [State.csaCmd, if_neg (by simp [hpop, hr]), if_neg (by simp [hb]), hp]

end

/-- What CSA_CMD asks for, by command: which partitions permit it, and what it does with the partition. -/
theorem exec_csaCmd (d part rank addr : Nat) (ecc : List (Nat × Bool)) {c : Instr}
    (hc : c ∈ [.csaSearch d part ecc, .csaFloor d part ecc, .csaWrite d part rank addr, .csaInvalidate d part addr, .csaRead d part addr ecc,
      .insertRing true d part rank addr, .deleteMatch true d part rank, .invalidateMasked true d part rank, .ordInsert true d part rank addr,
      .ordDelete true d part rank]) : ∃ ok k, ∀ s, exec c s = .next (s.csaCmd d part ok k) := by
  simp only [List.mem_cons, List.not_mem_nil, or_false] at hc
  rcases hc with rfl | rfl | rfl | rfl | rfl | rfl | rfl | rfl | rfl | rfl <;> exact ⟨_, _, fun _ => rfl⟩

/-! ## Searches (R497, R504, R505) -/

/-- A search counted, and counted as found where it found. -/
def State.searched (s : State) (d : Nat) (r : Option (Nat × CsaEnt)) : State × Option (Nat × CsaEnt) :=
  (if r.isSome then (s.csaCount d 0 1).csaCount d 1 1 else s.csaCount d 0 1, r)

/-- The answer of a search that reads out, again and again, the entry that `hit` finds in a partition. -/
def State.csaAnswer (s : State) (d : Nat) (ecc : List (Nat × Bool)) (p : CsaPart) (hit : SMap CsaEnt → Option (Nat × CsaEnt)) : State :=
  let x := s.csaTry d ecc (fun s => s.searched d (hit (s.csaEnts d p))) ecc.length
  x.1.csaEnd d 0 x.2.isSome x.2

theorem execCsaSearch_part {s : State} {d part : Nat} {p : CsaPart} (h : CsaRuns s d) (hp : s.csaPart d part = some p)
    (ecc : List (Nat × Bool)) : exec (.csaSearch d part ecc) s =
      .next (s.csaAnswer d ecc p fun l => bestHit (l.filter fun ae => ae.2.hits (s.csaK d p) (s.csaSm d p))) :=
  congrArg _ ((State.csaCmd_part h hp).trans (if_pos rfl))

theorem execCsaFloor_part {s : State} {d part : Nat} {p : CsaPart} (h : CsaRuns s d) (hp : s.csaPart d part = some p) (ho : p.purpose = 1)
    (ecc : List (Nat × Bool)) : exec (.csaFloor d part ecc) s = .next (s.csaAnswer d ecc p fun l => floorHit l (s.csaK d p)) :=
  congrArg _ ((State.csaCmd_part h hp).trans (if_pos (by simp [ho])))

section

variable {s : State} {d : Nat} {ecc : List (Nat × Bool)} {p : CsaPart} {hit : SMap CsaEnt → Option (Nat × CsaEnt)}

/-- The state that a search which found something leaves, and what it found. -/
def State.found (s : State) (d : Nat) : State := (s.csaCount d 0 1).csaCount d 1 1

theorem State.csaTry_none (h : hit (s.csaEnts d p) = none) (n : Nat) :
    s.csaTry d ecc (fun s => s.searched d (hit (s.csaEnts d p))) n = (s.csaCount d 0 1, none) := by
  cases n <;> simp [State.csaTry, State.searched, h]

theorem State.csaTry_again {ae : Nat × CsaEnt} (h : hit (s.csaEnts d p) = some ae) (hl : ecc.lookup ae.1 = some false) (n : Nat) :
    s.csaTry d ecc (fun s => s.searched d (hit (s.csaEnts d p))) (n + 1) =
      (s.csaEcc d ecc ae.1).csaTry d ecc (fun s => s.searched d (hit (s.csaEnts d p))) n := by
  simp only [State.csaTry, State.searched, h, hl, if_true]

theorem State.csaTry_found {ae : Nat × CsaEnt} (h : hit (s.csaEnts d p) = some ae) (hl : ecc.lookup ae.1 ≠ some false) (n : Nat) :
    s.csaTry d ecc (fun s => s.searched d (hit (s.csaEnts d p))) (n + 1) = ((s.found d).csaEcc d ecc ae.1, some ae) := by
  simp only [State.csaTry, State.searched, h, if_neg hl, Option.isSome_some, if_true]
  rfl

theorem State.csaTry_zero {ae : Nat × CsaEnt} (h : hit (s.csaEnts d p) = some ae) :
    s.csaTry d ecc (fun s => s.searched d (hit (s.csaEnts d p))) 0 = (s.found d, some ae) := by
  simp only [State.csaTry, State.searched, h, Option.isSome_some, if_true]
  rfl

/-- How many of the listed errors meet an entry of the array. -/
def State.eccLeft (s : State) (d : Nat) (ecc : List (Nat × Bool)) : Nat := (ecc.filter fun x => (s.csaOf d).ents.has x.1).length

theorem State.eccLeft_le (s : State) (d : Nat) (ecc : List (Nat × Bool)) : s.eccLeft d ecc ≤ ecc.length := List.length_filter_le ..

theorem mem_of_lookup {l : List (Nat × Bool)} {a : Nat} {b : Bool} (h : l.lookup a = some b) : (a, b) ∈ l := by
  obtain ⟨front, back, rfl, -⟩ := List.lookup_eq_some_iff.1 h
  exact List.mem_append_right _ (.head _)

/-- An uncorrectable entry of an array in order is invalid after it has been read out; the array stays in order. -/
theorem State.csaEcc_erased (hs : s.csa.rising = true) (hr : (s.csaOf d).ents.rising = true) {a : Nat} {e : CsaEnt}
    (he : (s.csaOf d).ents.find? a = some e) (hl : ecc.lookup a = some false) :
    (s.csaEcc d ecc a).csa.rising = true ∧ ((s.csaEcc d ecc a).csaOf d).ents = (s.csaOf d).ents.erase a ∧
      (s.csaEcc d ecc a).eccLeft d ecc < s.eccLeft d ecc := by
  have hents : ((s.csaEcc d ecc a).csaOf d).ents = (s.csaOf d).ents.erase a := by
    rw [State.csaEcc_uncorrectable he hl]
    exact congrArg Csa.ents (State.csaOf_setCsa hs d { s.csaOf d with ents := (s.csaOf d).ents.erase a })
  refine ⟨?_, hents, ?_⟩
  · rw [State.csaEcc_uncorrectable he hl]
    exact SMap.rising_putD hs d _ .none
  · have hp := (SMap.rising_iff _).1 hr
    have hsub : (ecc.filter fun x => ((s.csaOf d).ents.erase a).has x.1) =
        (ecc.filter fun x => (s.csaOf d).ents.has x.1).filter fun x => ((s.csaOf d).ents.erase a).has x.1 := by
      rw [List.filter_filter]
      refine List.filter_congr fun x _ => ?_
      by_cases hx : x.1 = a
      · simp [SMap.has, hx, SMap.find?_erase_same hp]
      · simp [SMap.has, SMap.find?_erase_ne hp hx]
    unfold State.eccLeft
    rw [hents, hsub, List.length_filter_lt_length_iff_exists]
    exact ⟨(a, false), List.mem_filter.2 ⟨mem_of_lookup hl, by simp [SMap.has, he]⟩, by simp [SMap.has, SMap.find?_erase_same hp]⟩

/-- A search finds entries of the partition. -/
def HitsListed (hit : SMap CsaEnt → Option (Nat × CsaEnt)) : Prop := ∀ l ae, hit l = some ae → ae ∈ l

theorem State.find?_of_hit (hr : (s.csaOf d).ents.rising = true) (hhit : HitsListed hit) {a : Nat} {e : CsaEnt}
    (h : hit (s.csaEnts d p) = some (a, e)) : (s.csaOf d).ents.find? a = some e :=
  SMap.find?_of_mem hr (List.mem_of_mem_filter (hhit _ _ h))

/-- Once as many tries are left as errors that meet an entry, one more changes nothing. -/
theorem State.csaTry_enough (hhit : HitsListed hit) {n : Nat} (hs : s.csa.rising = true) (hr : (s.csaOf d).ents.rising = true)
    (hn : s.eccLeft d ecc ≤ n) : s.csaTry d ecc (fun s => s.searched d (hit (s.csaEnts d p))) n =
      s.csaTry d ecc (fun s => s.searched d (hit (s.csaEnts d p))) (n + 1) := by
  induction n generalizing s with
  | zero =>
    match h : hit (s.csaEnts d p) with
    | none => rw [State.csaTry_none h, State.csaTry_none h]
    | some (a, e) =>
      have he := State.find?_of_hit hr hhit h
      have hnone : ecc.lookup a = none := by
        refine Option.eq_none_iff_forall_not_mem.2 fun b hb => ?_
        have hmem : (a, b) ∈ ecc.filter fun x => (s.csaOf d).ents.has x.1 :=
          List.mem_filter.2 ⟨mem_of_lookup hb, by simp [SMap.has, he]⟩
        exact absurd (List.length_pos_of_mem hmem) (by have : s.eccLeft d ecc ≤ 0 := hn; unfold State.eccLeft at this; omega)
      rw [State.csaTry_zero h, State.csaTry_found h (by simp [hnone]), State.csaEcc_clean hnone]
  | succ n ih =>
    match h : hit (s.csaEnts d p) with
    | none => rw [State.csaTry_none h, State.csaTry_none h]
    | some (a, e) =>
      have he := State.find?_of_hit hr hhit h
      by_cases hl : ecc.lookup a = some false
      · obtain ⟨hs', hents, hlt⟩ := State.csaEcc_erased hs hr he hl
        rw [State.csaTry_again h hl, State.csaTry_again h hl]
        exact ih hs' (by rw [hents]; exact SMap.rising_erase hr a) (Nat.le_of_lt_succ (Nat.lt_of_lt_of_le hlt hn))
      · rw [State.csaTry_found h hl, State.csaTry_found h hl]

/-- What the search answers, by what it finds first and the error of that entry. -/
theorem State.csaAnswer_none (h : hit (s.csaEnts d p) = none) : s.csaAnswer d ecc p hit = (s.csaCount d 0 1).csaEnd d 0 false none := by
  unfold State.csaAnswer
  rw [State.csaTry_none h]
  rfl

theorem State.csaAnswer_clean {a : Nat} {e : CsaEnt} (h : hit (s.csaEnts d p) = some (a, e)) (hl : ecc.lookup a = none) :
    s.csaAnswer d ecc p hit = (s.found d).csaEnd d 0 true (some (a, e)) := by
  unfold State.csaAnswer
  cases ecc.length with
  | zero => rw [State.csaTry_zero h]; rfl
  | succ n => rw [State.csaTry_found h (by simp [hl]), State.csaEcc_clean hl]; rfl

theorem State.csaAnswer_corrected (hr : (s.csaOf d).ents.rising = true) (hhit : HitsListed hit) {a : Nat} {e : CsaEnt}
    (h : hit (s.csaEnts d p) = some (a, e)) (hl : ecc.lookup a = some true) :
    s.csaAnswer d ecc p hit = ((s.found d).addFld (dieS d) (Reg.CSA_CNT_COUNT.plus 48) 1).csaEnd d 0 true (some (a, e)) := by
  have he : ((s.found d).csaOf d).ents.find? a = some e := State.find?_of_hit (s := s) hr hhit h
  obtain ⟨n, hn⟩ := Nat.exists_eq_succ_of_ne_zero (List.length_pos_of_mem (mem_of_lookup hl)).ne'
  unfold State.csaAnswer
  rw [hn, State.csaTry_found h (by simp [hl]), State.csaEcc_corrected he hl]
  rfl

/-- An uncorrectable entry is invalidated, and the search goes on as if it had begun then (R497). -/
theorem State.csaAnswer_again (hs : s.csa.rising = true) (hr : (s.csaOf d).ents.rising = true) (hhit : HitsListed hit) {a : Nat} {e : CsaEnt}
    (h : hit (s.csaEnts d p) = some (a, e)) (hl : ecc.lookup a = some false) :
    s.csaAnswer d ecc p hit = (s.csaEcc d ecc a).csaAnswer d ecc p hit := by
  have he := State.find?_of_hit hr hhit h
  obtain ⟨hs', hents, hlt⟩ := State.csaEcc_erased hs hr he hl
  have hle := s.eccLeft_le d ecc
  obtain ⟨n, hn⟩ := Nat.exists_eq_succ_of_ne_zero (List.length_pos_of_mem (mem_of_lookup hl)).ne'
  unfold State.csaAnswer
  rw [hn, State.csaTry_again h hl, State.csaTry_enough hhit hs' (by rw [hents]; exact SMap.rising_erase hr a) (by omega)]

end

/-! ## The registers of a command after an entry was invalidated -/

/-- What a command of firmware reads is as it was: registers but the counters, and the partitions. -/
theorem State.csaErased_same {s : State} (ho : s.Ordered) (hs : s.csa.rising = true) (d a : Nat) :
    let t := (s.withEnts d fun m => m.erase a).addFld (dieS d) (Reg.CSA_CNT_COUNT.plus 56) 1
    (∀ f : Fld, f.off ≠ 0x138 → f.off < 2 ^ 24 → t.fld (dieS d) f = s.fld (dieS d) f) ∧ ∀ part, t.csaPart d part = s.csaPart d part := by
  intro t
  refine ⟨fun f hf hlt => ?_, fun part => ?_⟩
  · have hk := ((KeepsFld.refl (die := dieS d) (f := f) s).same (u := s.withEnts d fun m => m.erase a) rfl rfl).setFld (dieS d)
      (Reg.CSA_CNT_COUNT.plus 56) ((s.withEnts d fun m => m.erase a).fld (dieS d) (Reg.CSA_CNT_COUNT.plus 56) + 1)
      (regKey_ne_of_off hf hlt (by decide))
    exact (hk ho).2
  · have hc : t.csaOf d = { s.csaOf d with ents := (s.csaOf d).ents.erase a } := State.csaOf_setCsa hs d _
    have hw : t.csaWord d part = s.csaWord d part := rfl
    unfold State.csaPart
    rw [hc, hw]

theorem State.csaReg_congr {s t : State} {d : Nat} {f : Fld} (h : ∀ i < 5, t.fld (dieS d) (f.plus (8 * i)) = s.fld (dieS d) (f.plus (8 * i)))
    (bits : Nat) : t.csaReg d f bits = s.csaReg d f bits := by
  unfold State.csaReg
  refine congrArg (· % 2 ^ bits) (List.foldl_ext _ _ _ fun n i hi => ?_)
  rw [h i (List.mem_range.1 hi)]

theorem bestFrom_listed {x : Nat × CsaEnt} {l : List (Nat × CsaEnt)} {y : Nat × CsaEnt} (h : bestFrom (some x) l = some y) : y ∈ x :: l := by
  induction l generalizing x with
  | nil => cases h; exact .head _
  | cons z l ih =>
    by_cases hr : x.2.rank < z.2.rank
    · exact .tail _ (ih ((congrArg (fun b => bestFrom b l) (if_pos hr)).symm.trans h))
    · rcases List.mem_cons.1 (ih ((congrArg (fun b => bestFrom b l) (if_neg hr)).symm.trans h)) with rfl | hy
      · exact .head _
      · exact .tail _ (.tail _ hy)

theorem hitsListed_search (k sm : Nat) : HitsListed fun l => bestHit (l.filter fun ae => ae.2.hits k sm) := by
  intro l ae h
  refine List.mem_of_mem_filter (p := fun ae => ae.2.hits k sm) ?_
  dsimp only at h
  generalize List.filter _ l = m at h
  cases m with
  | nil => cases h
  | cons x m => exact bestFrom_listed h

theorem hitsListed_floor (k : Nat) : HitsListed fun l => floorHit l k :=
  fun _ _ h => List.mem_of_mem_filter (List.mem_of_getLast? h)

/-- An entry invalidated leaves a command of firmware what it needs to run: the status, the partition and the request. -/
theorem CsaRuns.erased {s : State} {d part : Nat} {p : CsaPart} (ho : s.Ordered) (hs : s.csa.rising = true)
    (h : CsaRuns s d) (hp : s.csaPart d part = some p) (a : Nat) :
    let t := (s.withEnts d fun m => m.erase a).addFld (dieS d) (Reg.CSA_CNT_COUNT.plus 56) 1
    CsaRuns t d ∧ t.csaPart d part = some p ∧ t.csaK d p = s.csaK d p ∧ t.csaSm d p = s.csaSm d p := by
  intro t
  obtain ⟨hfld, hpart⟩ := State.csaErased_same ho hs d a
  obtain ⟨hpop, hready, hbusy⟩ := h
  have hflag {f : Fld} (h : f.off ≠ 0x138) (hlt : f.off < 2 ^ 24) : t.csaFlag d f = s.csaFlag d f :=
    congrArg (· == 1) (hfld f h hlt)
  refine ⟨⟨hpop, (hflag (by decide) (by decide)).trans hready, (hflag (by decide) (by decide)).trans hbusy⟩, (hpart part).trans hp, ?_, ?_⟩
  · exact State.csaReg_congr (fun i hi => hfld _ (by simp only [Fld.plus, Reg.CSA_KEY_V]; omega) (by simp only [Fld.plus, Reg.CSA_KEY_V]; omega)) _
  · exact State.csaReg_congr (fun i hi => hfld _ (by simp only [Fld.plus, Reg.CSA_SMASK_V]; omega) (by simp only [Fld.plus, Reg.CSA_SMASK_V]; omega)) _

section

variable {s : State} {d part : Nat} {p : CsaPart} (h : CsaRuns s d) (hp : s.csaPart d part = some p)
include h hp

/-- Operations that CSA_CMD does not carry out, or not in this partition (R506). -/
theorem exec_csa_refused (rank addr : Nat) (ecc : List (Nat × Bool)) :
    let refused : Res := .next (s.csaEnd d 2 false none)
    (p.purpose ≠ 1 → exec (.csaFloor d part ecc) s = refused) ∧
    (p.purpose ≠ 2 → exec (.csaWrite d part rank addr) s = refused ∧ exec (.csaInvalidate d part addr) s = refused ∧
      exec (.invalidateMasked true d part rank) s = refused) ∧
    exec (.insertRing true d part rank addr) s = refused ∧ exec (.deleteMatch true d part rank) s = refused ∧
    exec (.ordInsert true d part rank addr) s = refused ∧ exec (.ordDelete true d part rank) s = refused := by
  have no {ok : CsaPart → Bool} (hok : ok p = false) (k : State → CsaPart → State) :
      (.next (s.csaCmd d part ok k) : Res) = .next (s.csaEnd d 2 false none) :=
    congrArg _ ((State.csaCmd_part h hp).trans (if_neg (by simp [hok])))
  have purpose {n : Nat} (hn : p.purpose ≠ n) : (p.purpose == n) = false := beq_eq_false_iff_ne.2 hn
  have never : (.next (s.csaCmd d part (fun _ => false) fun s _ => s) : Res) = .next (s.csaEnd d 2 false none) := no rfl _
  exact ⟨fun hn => no (purpose hn) _, fun hn => ⟨no (purpose hn) _, no (purpose hn) _, no (purpose hn) _⟩, never, never, never, never⟩

/-- An operation that its partition permits. -/
theorem State.csaCmd_permitted {ok : CsaPart → Bool} (hok : ok p = true) (k : State → CsaPart → State) :
    (.next (s.csaCmd d part ok k) : Res) = .next (k s p) :=
  congrArg _ ((State.csaCmd_part h hp).trans (if_pos hok))

/-- Changes of the entries of a CLASSIFY partition (R506). -/
theorem exec_csa_changes (h2 : p.purpose = 2) (rank : Nat) {addr : Nat} (ha : p.holds addr = true) :
    let e : CsaEnt := .mk (s.csaK d p) (s.csaReg d Reg.CSA_EMASK_V p.bits) (rank % 16) (s.fld (dieS d) Reg.CSA_ASSOC_V)
    exec (.csaWrite d part rank addr) s = .next ((s.withEnts d fun m => m.insert addr e).csaEnd d 0 false none) ∧
    exec (.csaInvalidate d part addr) s = .next ((s.withEnts d fun m => m.erase addr).csaEnd d 0 false none) ∧
    exec (.invalidateMasked true d part rank) s =
      .next ((s.withEnts d fun m => m.keep fun a e => !(p.holds a && e.hits (s.csaK d p) (s.csaSm d p))).csaEnd d 0 false none) := by
  have hok : (p.purpose == 2) = true := by simp [h2]
  have hin : ¬ (!p.holds addr) = true := by simp [ha]
  refine ⟨?_, ?_, State.csaCmd_permitted h hp hok _⟩
  · exact (State.csaCmd_permitted h hp hok _).trans (congrArg _ (if_neg hin))
  · exact (State.csaCmd_permitted h hp hok _).trans (congrArg _ (if_neg hin))

theorem exec_csa_outside {addr : Nat} (ha : p.holds addr = false) (rank : Nat) (ecc : List (Nat × Bool)) :
    (p.purpose = 2 → exec (.csaWrite d part rank addr) s = .next (s.csaEnd d 3 false none) ∧
      exec (.csaInvalidate d part addr) s = .next (s.csaEnd d 3 false none)) ∧
    exec (.csaRead d part addr ecc) s = .next (s.csaEnd d 3 false none) := by
  have hout : (!p.holds addr) = true := by simp [ha]
  have hok (h2 : p.purpose = 2) : (p.purpose == 2) = true := by simp [h2]
  exact ⟨fun h2 => ⟨(State.csaCmd_permitted h hp (hok h2) _).trans (congrArg _ (if_pos hout)),
    (State.csaCmd_permitted h hp (hok h2) _).trans (congrArg _ (if_pos hout))⟩,
    (State.csaCmd_permitted h hp rfl _).trans (congrArg _ (if_pos hout))⟩

/-- READ loads a valid entry, ends with ERR 7 for an uncorrectable one, and loads nothing for one that is not valid (R506). -/
theorem execCsaRead_inside {addr : Nat} (ha : p.holds addr = true) (ecc : List (Nat × Bool)) :
    let u := s.csaEcc d ecc addr
    ((s.csaOf d).ents.find? addr = none → exec (.csaRead d part addr ecc) s = .next (s.csaEnd d 0 false none)) ∧
    (∀ e, (s.csaOf d).ents.find? addr = some e →
      (ecc.lookup addr = some false → exec (.csaRead d part addr ecc) s = .next (u.csaEnd d 7 false none)) ∧
      (ecc.lookup addr ≠ some false → u.csaOf d = s.csaOf d ∧ exec (.csaRead d part addr ecc) s = .next (u.csaEnd d 0 false (some (addr, e))))) := by
  have hin : ¬ (!p.holds addr) = true := by simp [ha]
  have hread : exec (.csaRead d part addr ecc) s =
      .next (if (s.csaOf d).ents.has addr && (ecc.lookup addr == some false) then (s.csaEcc d ecc addr).csaEnd d 7 false none
        else (s.csaEcc d ecc addr).csaEnd d 0 false ((((s.csaEcc d ecc addr).csaOf d).ents.find? addr).map ((addr, ·)))) :=
    (State.csaCmd_permitted h hp (ok := fun _ => true) rfl _).trans (congrArg _ (if_neg hin))
  refine ⟨fun hn => hread.trans (congrArg _ ?_), fun e he => ⟨fun hl => hread.trans (congrArg _ (if_pos ?_)), fun hl => ?_⟩⟩
  · have hu : s.csaEcc d ecc addr = s := (s.csaEcc_eq d addr ecc).trans (if_pos (.inl hn))
    simp [SMap.has, hn, hu]
  · simp [SMap.has, he, hl]
  · have hu : (s.csaEcc d ecc addr).csaOf d = s.csaOf d := by
      cases hb : ecc.lookup addr with
      | none => rw [State.csaEcc_clean hb]
      | some b =>
        cases b with
        | false => exact absurd hb hl
        | true => rw [State.csaEcc_corrected he hb]; rfl
    refine ⟨hu, hread.trans (congrArg _ ((if_neg ?_).trans ?_))⟩
    · simp [hl]
    · rw [hu, he]
      rfl

end

/-- The answer of SEARCH or FLOOR, by the entry it finds first (R497, R504, R505). -/
theorem exec_csa_search {s : State} {d : Nat} {p : CsaPart} (hs : s.csa.rising = true) (hr : (s.csaOf d).ents.rising = true)
    {hit : SMap CsaEnt → Option (Nat × CsaEnt)} (hhit : HitsListed hit) {c : Instr} {ecc : List (Nat × Bool)}
    (hc : exec c s = .next (s.csaAnswer d ecc p hit))
    (herased : ∀ a, let t := (s.withEnts d fun m => m.erase a).addFld (dieS d) (Reg.CSA_CNT_COUNT.plus 56) 1
      exec c t = .next (t.csaAnswer d ecc p hit)) :
    (hit (s.csaEnts d p) = none → exec c s = .next ((s.addFld (dieS d) Reg.CSA_CNT_COUNT 1).csaEnd d 0 false none)) ∧
    ∀ a e, hit (s.csaEnts d p) = some (a, e) →
      (ecc.lookup a = none → exec c s = .next ((s.found d).csaEnd d 0 true (some (a, e)))) ∧
      (ecc.lookup a = some true →
        exec c s = .next (((s.found d).addFld (dieS d) (Reg.CSA_CNT_COUNT.plus 48) 1).csaEnd d 0 true (some (a, e)))) ∧
      (ecc.lookup a = some false → exec c s = exec c ((s.withEnts d fun m => m.erase a).addFld (dieS d) (Reg.CSA_CNT_COUNT.plus 56) 1)) := by
  refine ⟨fun hn => hc.trans (congrArg _ (State.csaAnswer_none hn)), fun a e hf =>
    ⟨fun hl => hc.trans (congrArg _ (State.csaAnswer_clean hf hl)), fun hl => hc.trans (congrArg _ (State.csaAnswer_corrected hr hhit hf hl)),
    fun hl => ?_⟩⟩
  rw [hc, herased a, State.csaAnswer_again hs hr hhit hf hl, State.csaEcc_uncorrectable (State.find?_of_hit hr hhit hf) hl]

/-- Settles O50: the guards of CSA_CMD, the search that goes on after an error by `State.csaAnswer_again`, and what each operation changes. -/
theorem searchArrayCommands : Obligations.SearchArrayCommands := by
  unfold Obligations.SearchArrayCommands
  refine ⟨fun s d part rank addr ecc c hc => ⟨fun hpop hr hb => ?_, fun h hp => ?_⟩, fun s d part rank addr ecc p h hp => ?_,
    fun s d part ecc p h hp ho hs hr => ?search, fun s d part rank addr p h hp h2 ha => exec_csa_changes h hp h2 rank ha,
    fun s d part addr ecc p h hp ha => execCsaRead_inside h hp ha ecc,
    fun l hl => ⟨bestHit_none_iff l hl, fun a e hb => bestHit_some hl hb, fun k => floorHit_none_iff l k, fun k a e hf => floorHit_some hl hf⟩,
    fun s d a ecc => s.csaEcc_eq d a ecc, fun s d err hit r ho => ?ends⟩
  · obtain ⟨ok, k, hexec⟩ := exec_csaCmd d part rank addr ecc hc
    rw [hexec, State.csaCmd_busy hpop hr hb]
  · obtain ⟨ok, k, hexec⟩ := exec_csaCmd d part rank addr ecc hc
    rw [hexec, State.csaCmd_invalid h hp]
  · obtain ⟨hfloor, hclassify, hring, hdel, hins, hord⟩ := exec_csa_refused h hp rank addr ecc
    exact ⟨hfloor, hclassify, hring, hdel, hins, hord, fun ha => (exec_csa_outside h hp ha rank ecc).1, fun ha => (exec_csa_outside h hp ha rank ecc).2⟩
  case ends =>
    obtain ⟨regs, he⟩ := s.csaEnd_only d err hit r
    obtain ⟨hdone, hhit, herr, hloaded⟩ := State.csaEnd_reads ho d err hit r
    exact ⟨by rw [he], hdone, hhit, herr, hloaded⟩
  case search =>
    intro found v w
    have hsearch := exec_csa_search hs hr (hitsListed_search (s.csaK d p) (s.csaSm d p)) (execCsaSearch_part h hp ecc) fun a => by
      intro t
      obtain ⟨hruns, hpart, hk, hsm⟩ := CsaRuns.erased ho hs h hp a
      rw [execCsaSearch_part hruns hpart, hk, hsm]
    have hfloor (h1 : p.purpose = 1) := exec_csa_search hs hr (hitsListed_floor (s.csaK d p)) (execCsaFloor_part h hp h1 ecc) fun a => by
      intro t
      obtain ⟨hruns, hpart, hk, -⟩ := CsaRuns.erased ho hs h hp a
      rw [execCsaFloor_part hruns hpart h1, hk]
    have hmem {c : Instr} {r : Option (Nat × CsaEnt)} (hf : (c, r) ∈ found) :
        c = .csaSearch d part ecc ∧ bestHit ((s.csaEnts d p).filter fun ae => ae.2.hits (s.csaK d p) (s.csaSm d p)) = r ∨
        p.purpose = 1 ∧ c = .csaFloor d part ecc ∧ floorHit (s.csaEnts d p) (s.csaK d p) = r := by
      by_cases h1 : p.purpose = 1 <;> simp only [found, h1] at hf <;> simp at hf <;> tauto
    refine ⟨fun c hf => ?_, fun c a e hf => ?_⟩
    · obtain ⟨rfl, hn⟩ | ⟨h1, rfl, hn⟩ := hmem hf
      · exact hsearch.1 hn
      · exact (hfloor h1).1 hn
    · obtain ⟨rfl, hsome⟩ | ⟨h1, rfl, hsome⟩ := hmem hf
      · exact hsearch.2 a e hsome
      · exact (hfloor h1).2 a e hsome

end Sys2Proof.Machine
end

section
/-! The filter and the ordered index of the search arrays (R506, R508, R511, R515 to R518): what the lanes and the map cache change. -/

namespace Sys2Proof.Machine

open Sys2Proof

theorem CsaPart.addr_pos {p : CsaPart} {a : Nat} (h : p.holds a = true) : p.addr (p.pos a) = a := by
  simp only [CsaPart.holds, Bool.and_eq_true, decide_eq_true_eq] at h
  obtain ⟨⟨hfirst, -⟩, hpos⟩ := h
  have hper : 0 < p.perBank := Nat.zero_lt_of_lt hpos
  have hdiv : ((a / 32768 - p.first) * p.perBank + a % 32768) / p.perBank = a / 32768 - p.first := by
    rw [Nat.mul_comm, Nat.mul_add_div hper, Nat.div_eq_of_lt hpos, Nat.add_zero]
  have hmod : ((a / 32768 - p.first) * p.perBank + a % 32768) % p.perBank = a % 32768 := by
    rw [Nat.mul_comm, Nat.mul_add_mod, Nat.mod_eq_of_lt hpos]
  rw [CsaPart.addr, CsaPart.pos, hdiv, hmod, Nat.add_sub_cancel' hfirst, Nat.mul_comm]
  exact Nat.div_add_mod a 32768

section

variable {s : State} {d part purpose : Nat} {p : CsaPart}

theorem State.csaAsk_has (h : CsaHas s d part purpose p) (k : State → CsaPart → State) : s.csaAsk false d part purpose k = k s p := by
  obtain ⟨hpop, hready, hp, hpurpose⟩ := h
  rw [State.csaAsk, if_neg Bool.false_ne_true, if_neg (by simp [hpop, hready]), hp]
  exact if_pos hpurpose

/-- INSERT_RING leaves no other entry of the key (R508). -/
theorem CsaPart.kept_of_ring {m : SMap CsaEnt} {k at_ a : Nat} {e x : CsaEnt} (ha : a ≠ at_) (hp : p.holds a = true)
    (h : SMap.find? ((SMap.keep m fun a x => !(p.holds a && x.val == k)).insert at_ e) a = some x) : x.val ≠ k := by
  rcases SMap.mem_insert (SMap.mem_of_find? h) with heq | hmem
  · exact absurd (Prod.mk.inj heq).1 ha
  · have hkept := (List.mem_filter.1 hmem).2
    simpa [hp] using hkept

end

/-! ## ORD_INSERT (R515, R517, R518) -/

section

variable {s : State} {d i : Nat} {p : CsaPart} {e : CsaEnt}

/-- An ordered insert while its partition is respread, or full, changes nothing (R517, R518). -/
theorem State.csaOrdInsert_held (h : i ∈ (s.csaOf d).spread ∨ s.csaFull d p = true) : (s.csaOrdInsert d i p e).1 = s := by
  unfold State.csaOrdInsert
  by_cases hs : (s.csaOf d).spread.contains i = true
  · rw [if_pos hs]
  · rw [if_neg hs, if_pos (h.resolve_left fun hm => hs (List.contains_iff_mem.2 hm))]

/-- The state after an entry was written: it is counted (R515). -/
def State.stood (s : State) (d : Nat) (m : SMap CsaEnt) : State :=
  (s.setCsa d { s.csaOf d with ents := m }).addFld (dieS d) (Reg.CSA_CNT_COUNT.plus 16) 1

variable (hs : i ∉ (s.csaOf d).spread) (hf : s.csaFull d p = false)
include hs hf

theorem State.csaOrdInsert_same {a : Nat} {x : CsaEnt} (h : List.find? (fun x => ordKey x.2.val == ordKey e.val) (s.csaEnts d p) = some (a, x)) :
    (s.csaOrdInsert d i p e).1 = s.stood d ((s.csaOf d).ents.insert a e) := by
  have ha : p.holds a = true := (List.mem_filter.1 (List.mem_of_find?_eq_some h)).2
  unfold State.csaOrdInsert
  rw [if_neg (by simpa using hs), if_neg (by simp [hf])]
  simp only [h, CsaPart.addr_pos ha]
  rfl

variable (hnew : List.find? (fun x => ordKey x.2.val == ordKey e.val) (s.csaEnts d p) = none)
include hnew

theorem State.csaOrdInsert_free {f : Option Nat} (hfl : (floorHit (s.csaEnts d p) e.val).map (fun x => p.pos x.1) = f) {n : Nat}
    (hn : (f.map (· + 1)).getD 0 = n) (hlt : n < p.positions) (hfree : (s.csaOf d).ents.has (p.addr n) = false) :
    (s.csaOrdInsert d i p e).1 = s.stood d ((s.csaOf d).ents.insert (p.addr n) e) := by
  unfold State.csaOrdInsert
  rw [if_neg (by simpa using hs), if_neg (by simp [hf])]
  simp only [hnew, hfl]
  cases f <;> subst hn <;> exact congrArg Prod.fst (if_pos ⟨hlt, by simpa using hfree⟩)

/-- Moving entries to the nearer hole, upward on a tie, or the start of a respread (R515 step 4, R516, R517). -/
theorem State.csaOrdInsert_moves {f : Option Nat} (hfl : (floorHit (s.csaEnts d p) e.val).map (fun x => p.pos x.1) = f) {n : Nat}
    (hn : (f.map fun n => n + 1).getD 0 = n) (htaken : ¬ (n < p.positions ∧ (!(s.csaOf d).ents.has (p.addr n)) = true)) {up down : Option Nat}
    (hup : ((List.range (p.shift + 1)).find? fun k =>
      decide (0 < k) && decide (n + k < p.positions) && !(s.csaOf d).ents.has (p.addr (n + k))) = up)
    (hdown : (f.bind fun f => (List.range (p.shift + 1)).find? fun k =>
      decide (0 < k) && decide (k ≤ f) && !(s.csaOf d).ents.has (p.addr (f - k))) = down) :
    let c := s.csaOf d
    let moved := fun (k : Nat) => s.addFld (dieS d) (Reg.CSA_CNT_COUNT.plus 24) k
    (up = none → down = none → (s.csaOrdInsert d i p e).1 =
      (s.setCsa d { c with spread := c.spread ++ [i], kept := c.kept.erase i }).addFld (dieS d) (Reg.CSA_CNT_COUNT.plus 32) 1) ∧
    (∀ u, up = some u → (∀ k, down = some k → u ≤ k) → (s.csaOrdInsert d i p e).1 =
      ((moved u).setCsa d { c with ents := (moveRun p true n u c.ents).insert (p.addr n) e }).addFld (dieS d) (Reg.CSA_CNT_COUNT.plus 16) 1) ∧
    (∀ k, down = some k → (∀ u, up = some u → k < u) → (s.csaOrdInsert d i p e).1 =
      ((moved k).setCsa d { c with ents := (moveRun p false (n - k) k c.ents).insert (p.addr (n - 1)) e }).addFld (dieS d)
        (Reg.CSA_CNT_COUNT.plus 16) 1) := by
  intro c moved
  unfold State.csaOrdInsert
  rw [if_neg (by simpa using hs), if_neg (by simp [hf])]
  -- the position and the holes, with and without a floor
  cases f with
  | none =>
    obtain rfl : 0 = n := hn
    obtain rfl : none = down := hdown
    simp only [hnew, hfl, if_neg htaken, hup]
    refine ⟨fun hu _ => ?_, fun u hu _ => ?_, nofun⟩ <;> subst hu <;> rfl
  | some f =>
    obtain rfl : f + 1 = n := hn
    replace hdown : ((List.range (p.shift + 1)).find? fun k => decide (0 < k) && decide (k ≤ f) && !(s.csaOf d).ents.has (p.addr (f - k))) = down :=
      hdown
    simp only [hnew, hfl, if_neg htaken, hup, hdown]
    refine ⟨fun hu hd => ?_, fun u hu hd => ?_, fun k hd hu => ?_⟩
    · subst hu hd
      rfl
    · subst hu
      cases down with
      | none => rfl
      | some k =>
        simp only [Option.filter_some, if_neg (show ¬ decide (k < u) = true by simpa using hd k rfl)]
        rfl
    · subst hd
      cases up with
      | none => rfl
      | some u =>
        simp only [Option.filter_some, if_pos (show decide (k < u) = true by simpa using hu u rfl)]
        rfl

end

/-! ## The end of a respread (R517) -/

theorem foldl_apart_eq_sum (l : List (Nat × Nat)) (n : Nat) :
    l.foldl (fun k x => k + (if x.1 < x.2 then x.2 - x.1 else x.1 - x.2)) n = n + (l.map fun x => (x.1 - x.2) + (x.2 - x.1)).sum := by
  induction l generalizing n with
  | nil => rfl
  | cons x l ih =>
    rw [List.foldl_cons, ih, List.map_cons, List.sum_cons]
    split <;> omega

theorem execRespreadDone_spreads {s : State} {d part : Nat} {p : CsaPart} (hp : s.csaPart d part = some p) (h : part ∈ (s.csaOf d).spread) :
    exec (.respreadDone d part) s = .next (s.csaRespread d part p) := by
  show execRespreadDone d part s = _
  unfold execRespreadDone
  rw [hp]
  exact if_pos (List.contains_iff_mem.2 h)

/-- Settles O51: `State.csaAsk_has` gives what an operation does; the inserts, the moves and the respread go by cases of the hole found. -/
theorem filterAndOrderedIndexOperations : Obligations.FilterAndOrderedIndexOperations := by
  unfold Obligations.FilterAndOrderedIndexOperations
  refine ⟨fun s d part key ref p h => ⟨congrArg _ (State.csaAsk_has h _), SMap.find?_insert .., fun a x ha hh hx => CsaPart.kept_of_ring ha hh hx⟩,
    fun s d part key domain p h => ⟨congrArg _ (State.csaAsk_has h _), congrArg _ (State.csaAsk_has h _)⟩,
    fun s d part val p h => congrArg _ (State.csaAsk_has h _),
    fun s d part val leaf p h hheld => congrArg _ ((State.csaAsk_has h _).trans (State.csaOrdInsert_held hheld)),
    fun s d part val leaf p h hs hf => ?insert, fun s d part p hp h => ?respread,
    fun s d c hs => ⟨State.csaOf_setCsa hs d c, fun x hx => State.csaOf_setCsa_ne hs hx c, rfl⟩⟩
  case insert =>
    intro c e same f next hole up down stood moved
    have hexec : exec (.ordInsert false d part val leaf) s = .next (s.csaOrdInsert d part p e).1 := congrArg _ (State.csaAsk_has h _)
    rw [hexec]
    refine ⟨fun a x hsame => congrArg _ (State.csaOrdInsert_same hs hf hsame),
      fun hnew hlt hfree => congrArg _ (State.csaOrdInsert_free hs hf hnew rfl rfl hlt (by simpa [hole] using hfree)), fun hnew htaken => ?_⟩
    obtain ⟨hspread, hup, hdown⟩ := State.csaOrdInsert_moves (i := part) hs hf hnew rfl rfl htaken rfl rfl
    exact ⟨fun hu hd => congrArg _ (hspread hu hd), fun u hu hd => congrArg _ (hup u hu hd), fun k hd hu => congrArg _ (hdown k hd hu)⟩
  case respread =>
    intro c l spots moves
    have hmoves : spots.foldl (fun k x => k + (if x.1 < p.pos x.2.1 then p.pos x.2.1 - x.1 else x.1 - p.pos x.2.1)) 0 = moves := by
      have hsum := foldl_apart_eq_sum (spots.map fun x => (x.1, p.pos x.2.1)) 0
      rw [List.foldl_map, List.map_map, Nat.zero_add] at hsum
      exact hsum
    rw [execRespreadDone_spreads hp h, ← hmoves]
    rfl

end Sys2Proof.Machine
end

section
/-! Fields written one after another: what each reads then. -/

namespace Sys2Proof.Machine

open Sys2Proof

/-- Fields that share no bit: they lie in one register, one below the other, or at different offsets. -/
abbrev Fld.Clear (f g : Fld) : Prop := Fld.Apart f g ∨ f.off ≠ g.off ∧ f.off < 2 ^ 23 ∧ g.off < 2 ^ 23

theorem Fld.Clear.plus {f g : Fld} (h : Fld.Clear f g) {n : Nat} (hn : n < 2 ^ 22) (hf : f.off < 2 ^ 22) (hg : g.off < 2 ^ 22) :
    Fld.Clear (f.plus n) (g.plus n) := by
  obtain ⟨hw, hb, ho, hd⟩ | ⟨hne, -, -⟩ := h
  · exact .inl ⟨hw, hb, congrArg (· + n) ho, hd⟩
  · refine .inr ⟨?_, ?_, ?_⟩ <;> simp only [Fld.plus] <;> omega

theorem KeepsFld.clear {die : Nat} {f g : Fld} {s t : State} (h : KeepsFld die f s t) (v : Nat) (k : Fld.Clear f g) :
    KeepsFld die f s (t.setFld die g v) := by
  obtain hap | ⟨hne, hf, hg⟩ := k
  · exact h.apart g v hap
  · exact h.setFld die g v (regKey_ne_of_off hne (by omega) (by omega))

/-- Write fields of a die in their order. -/
def State.setFlds (s : State) (die : Nat) (l : List (Fld × Nat)) : State := l.foldl (fun s x => s.setFld die x.1 x.2) s

theorem State.setFlds_only (s : State) (die : Nat) (l : List (Fld × Nat)) : ∃ regs, s.setFlds die l = { s with regs := regs } :=
  List.foldlRecOn (motive := fun t => ∃ regs, t = { s with regs := regs }) l _ ⟨_, rfl⟩ fun _ ht x _ => State.setFld_only ht die x.1 x.2

theorem State.setFlds_append (s : State) (die : Nat) (l m : List (Fld × Nat)) : s.setFlds die (l ++ m) = (s.setFlds die l).setFlds die m :=
  List.foldl_append

/-- A field that shares no bit with the fields written keeps its value. -/
theorem KeepsFld.setFlds {die : Nat} {f : Fld} {s t : State} (h : KeepsFld die f s t) {l : List (Fld × Nat)} (k : ∀ x ∈ l, Fld.Clear f x.1) :
    KeepsFld die f s (t.setFlds die l) :=
  List.foldlRecOn (motive := KeepsFld die f s) l _ h fun _ ht x hx => ht.clear x.2 (k x hx)

/-- Fields that share no bit read what was written. -/
theorem State.fld_setFlds {s : State} (ho : s.Ordered) {die : Nat} {l : List (Fld × Nat)} (hl : l.Pairwise fun x y => Fld.Clear x.1 y.1)
    {f : Fld} {v : Nat} (hf : (f, v) ∈ l) (hw : f.lo + f.w ≤ 64) : (s.setFlds die l).fld die f = v % 2 ^ f.w := by
  induction l generalizing s with
  | nil => cases hf
  | cons x l ih =>
    obtain ⟨hx, hrest⟩ := List.pairwise_cons.1 hl
    have ho' := State.ordered_setFld ho die x.1 x.2
    rcases List.mem_cons.1 hf with rfl | hmem
    · exact ((KeepsFld.refl _).setFlds hx ho').2.trans (State.fld_setFld_same ho die hw v)
    · exact ih ho' hrest hmem

end Sys2Proof.Machine
end

section
/-! The digest engines (R526 to R549): sessions, their bytes, and results. -/

namespace Sys2Proof.Machine

open Sys2Proof

/-! ## Operations on a session -/

section

variable {s : State} {die ses : Nat} {x : DgeSes}

theorem State.withDge_open (h : DgeOpen s die ses x) (k : DgeSes → State) : s.withDge die ses k = k x := by
  obtain ⟨hon, hx, hend⟩ := h
  rw [State.withDge, if_neg (by simp [hon]), hx]
  exact if_neg (by simp [hend])

theorem State.withDge_closed (h : DgeClosed s die ses) (k : DgeSes → State) : s.withDge die ses k = s.dgeEnd die ses 1 := by
  obtain ⟨hon, hclosed⟩ := h
  rw [State.withDge, if_neg (by simp [hon])]
  cases hx : s.dge die ses with
  | none => rfl
  | some x => exact if_pos (hclosed x hx)

/-- A session takes bytes by writes or by a FEED only while neither a FEED runs nor a tap is armed (R531). -/
theorem DgeSes.fed_or_armed_iff : (x.feed.isSome || x.armed.isSome) = true ↔ x.feed ≠ none ∨ x.armed ≠ none := by
  simp [Option.isSome_iff_ne_none]

theorem DgeSes.free_of (hf : x.feed = none) (ha : x.armed = none) : ¬ (x.feed.isSome || x.armed.isSome) = true := by simp [hf, ha]

theorem exec_dge_busy (h : DgeOpen s die ses x) (hb : x.feed ≠ none ∨ x.armed ≠ none) (v : Word) :
    exec (.dgeData die ses v) s = .next (s.dgeEnd die ses 4) ∧ exec (.dgeLast die ses v) s = .next (s.dgeEnd die ses 4) ∧
    exec (.dgeFeed die ses) s = .next (s.dgeEnd die ses 4) := by
  have hbusy := DgeSes.fed_or_armed_iff.2 hb
  exact ⟨congrArg _ ((State.withDge_open h _).trans (if_pos hbusy)), congrArg _ ((State.withDge_open h _).trans (if_pos hbusy)),
    congrArg _ ((State.withDge_open h _).trans (if_pos hbusy))⟩

theorem exec_dge_takes (h : DgeOpen s die ses x) (hf : x.feed = none) (ha : x.armed = none) (v : Word) :
    let y := x.feedBytes (le 8 v.toNat)
    let z := x.feedBytes ((le 8 v.toNat).take (min 8 (s.sesOf die ses Reg.SES_LAST_VB_VB)))
    exec (.dgeData die ses v) s = .next ((s.setDge die ses y.settle).showDge die ses) ∧
    exec (.dgeLast die ses v) s = .next ((s.setDge die ses (if x.pad then z.settle else { z with ending := true })).dgeEnd die ses 0) ∧
    exec (.dgeFeed die ses) s =
      .next ((s.setDge die ses { x with feed := some (s.sesOf die ses Reg.SES_ADDR_ADDR, s.sesOf die ses Reg.SES_LEN_LEN) }).showDge die ses) := by
  have hfree := DgeSes.free_of hf ha
  exact ⟨congrArg _ ((State.withDge_open h _).trans (if_neg hfree)), congrArg _ ((State.withDge_open h _).trans (if_neg hfree)),
    congrArg _ ((State.withDge_open h _).trans (if_neg hfree))⟩

theorem exec_dgeFinish_open (h : DgeOpen s die ses x) :
    (x.pad = false → exec (.dgeFinish die ses) s = .next (s.dgeEnd die ses 0)) ∧
    (x.pad = true → exec (.dgeFinish die ses) s = .next ((s.setDge die ses (if x.feed.isSome then { x with finish := true }
      else { x with ending := true, short := true, armed := none })).dgeEnd die ses 0)) := by
  refine ⟨fun hp => congrArg _ ((State.withDge_open h _).trans (if_pos (by simp [hp]))),
    fun hp => congrArg _ ((State.withDge_open h _).trans ((if_neg (by simp [hp])).trans ?_))⟩
  split <;> rfl

/-! ## START (R526, R535, R538, R544, R545) -/

theorem mem_digestAlgs_iff (alg : Nat) : alg ∈ [1, 2, 3, 4, 5, 6, 7, 9, 10, 11] ↔ digestKnown alg = true := by
  simp only [List.mem_cons, List.not_mem_nil, or_false, digestKnown, Bool.or_eq_true, Bool.and_eq_true, decide_eq_true_eq]
  omega

theorem startBad_iff : StartBad s die ses ↔
    ((s.dge die ses).isSome || !digestKnown (s.sesOf die ses Reg.SES_CFG_ALG) ||
      (s.sesOf die ses Reg.SES_CFG_ALG == 7 && (s.sesOf die ses Reg.SES_CFG_OUTLEN == 0 || decide (64 < s.sesOf die ses Reg.SES_CFG_OUTLEN))) ||
      (s.sesOf die ses Reg.SES_CFG_PAD == 1 && !(s.sesOf die ses Reg.SES_CFG_DECL_EN == 1))) = true := by
  unfold StartBad
  dsimp only
  rw [mem_digestAlgs_iff]
  simp [or_assoc]

theorem startKeyless_iff : StartKeyless s die ses ↔
    (digestKeyed (s.sesOf die ses Reg.SES_CFG_ALG) && !(((s.keys.slots.find? (die * 16 + s.sesOf die ses Reg.SES_CFG_SLOT)).map fun k =>
      k.alg == s.sesOf die ses Reg.SES_CFG_ALG).getD false)) = true := by
  cases h : s.keys.slots.find? (die * 16 + s.sesOf die ses Reg.SES_CFG_SLOT) <;> simp [StartKeyless, digestKeyed, h]

theorem startTaken_iff : StartTaken s die ses ↔
    (s.flag die (resFld (s.sesOf die ses Reg.SES_CFG_RSLOT) Reg.RES_INFO_LOCKED) ||
      (List.range 4).any fun n => n != ses && (match s.dge die n with
        | some y => cfgOf y Reg.SES_CFG_RSLOT == s.sesOf die ses Reg.SES_CFG_RSLOT
        | none => false)) = true := by
  simp only [StartTaken, Bool.or_eq_true, List.any_eq_true, List.mem_range, Bool.and_eq_true, bne_iff_ne, resFld]
  refine or_congr_right (exists_congr fun n => ?_)
  cases s.dge die n <;> simp

/-- The values a session starts from: those of its key slot where its algorithm is keyed (R537). -/
theorem startValues_eq (slot : Option DgeSlot) (alg : Nat) :
    (match slot, digestKeyed alg with | some k, true => (k.icv, k.ocv) | _, _ => (digestInit alg, [])) =
      match slot with
      | some k => if 9 ≤ alg then (k.icv, k.ocv) else (digestInit alg, [])
      | none => (digestInit alg, []) := by
  cases slot with
  | none => rfl
  | some k =>
    by_cases h9 : 9 ≤ alg
    · simp [digestKeyed, h9]
    · simp [digestKeyed, h9]

/-- The session that START opens from its first values; one of declared length 0 that pads at its length has its whole message (R544). -/
def State.dgeFrom (s : State) (die ses : Nat) (first : Bytes × Bytes) : DgeSes where
  cfg := s.reg die 0x37 (0x1000 + ses * 0x100)
  decl := s.sesOf die ses Reg.SES_DECL_LEN
  st := first.1
  ocv := first.2
  buf := []
  count := 0
  trunc := false
  short := false
  tapFault := false
  armed := none
  feed := none
  finish := false
  ending := s.sesOf die ses Reg.SES_CFG_PAD == 1 && s.sesOf die ses Reg.SES_DECL_LEN == 0

def State.startedDge (s : State) (die ses : Nat) : DgeSes :=
  s.dgeFrom die ses (match s.keys.slots.find? (die * 16 + s.sesOf die ses Reg.SES_CFG_SLOT) with
    | some k => if 9 ≤ s.sesOf die ses Reg.SES_CFG_ALG then (k.icv, k.ocv) else (digestInit (s.sesOf die ses Reg.SES_CFG_ALG), [])
    | none => (digestInit (s.sesOf die ses Reg.SES_CFG_ALG), []))

theorem DgeSes.settle_cases (x : DgeSes) : (x.pad = true → x.decl ≤ x.count → x.settle = { x with ending := true, armed := none }) ∧
    (x.pad = false ∨ x.count < x.decl → x.settle = x) := by
  refine ⟨fun hp hl => if_pos (by simp [hp, hl]), fun h => if_neg ?_⟩
  obtain hp | hl := h
  · simp [hp]
  · simp [Nat.not_le.2 hl]

/-- A session just opened settles at once where its declared length is 0. -/
theorem DgeSes.settle_new {x : DgeSes} (hc : x.count = 0) (ha : x.armed = none) (he : x.ending = false) :
    x.settle = { x with ending := x.pad && x.decl == 0 } := by
  obtain ⟨cfg, decl, st, ocv, buf, count, trunc, short, tapFault, armed, feed, finish, ending⟩ := x
  subst hc ha he
  obtain ⟨hends, hstays⟩ := DgeSes.settle_cases ⟨cfg, decl, st, ocv, buf, 0, trunc, short, tapFault, none, feed, finish, false⟩
  cases hp : DgeSes.pad _ with
  | false => exact hstays (.inl hp)
  | true =>
    obtain rfl | hd := Nat.eq_zero_or_pos decl
    · exact hends hp (Nat.le_refl 0)
    · rw [hstays (.inr hd), beq_eq_false_iff_ne.2 hd.ne']
      rfl

section

variable (hon : s.dgeOn die ses = true)
include hon

theorem execDgeStart_bad (h : StartBad s die ses) : exec (.dgeStart die ses) s = .next (s.dgeEnd die ses 1) :=
  (if_neg (by simp [hon])).trans (if_pos (startBad_iff.1 h))

theorem execDgeStart_keyless (hb : ¬ StartBad s die ses) (h : StartKeyless s die ses) :
    exec (.dgeStart die ses) s = .next (s.dgeEnd die ses 2) :=
  (if_neg (by simp [hon])).trans ((if_neg (mt startBad_iff.2 hb)).trans (if_pos (startKeyless_iff.1 h)))

theorem execDgeStart_taken (hb : ¬ StartBad s die ses) (hk : ¬ StartKeyless s die ses) (h : StartTaken s die ses) :
    exec (.dgeStart die ses) s = .next (s.dgeEnd die ses 5) :=
  (if_neg (by simp [hon])).trans ((if_neg (mt startBad_iff.2 hb)).trans ((if_neg (mt startKeyless_iff.2 hk)).trans
    (if_pos (startTaken_iff.1 h))))

theorem execDgeStart_opens (hb : ¬ StartBad s die ses) (hk : ¬ StartKeyless s die ses) (ht : ¬ StartTaken s die ses) :
    exec (.dgeStart die ses) s =
      .next (((s.setFlag die (Reg.RES_INFO_VALID.plus (s.sesOf die ses Reg.SES_CFG_RSLOT * 0x80)) false).setDge die ses
        (s.startedDge die ses)).dgeEnd die ses 0) := by
  refine (if_neg (by simp [hon])).trans ((if_neg (mt startBad_iff.2 hb)).trans ((if_neg (mt startKeyless_iff.2 hk)).trans
    ((if_neg (mt startTaken_iff.2 ht)).trans (congrArg (fun x => Host.Outcome.next (((s.setFlag die
      (Reg.RES_INFO_VALID.plus (s.sesOf die ses Reg.SES_CFG_RSLOT * 0x80)) false).setDge die ses x).dgeEnd die ses 0))
      ((DgeSes.settle_new rfl rfl rfl).trans ?_)))))
  exact congrArg (s.dgeFrom die ses) (startValues_eq _ _)

end

/-! ## Taps and ends (R531 to R533, R536, R540 to R543) -/

/-- A session is armed with a tap of a die. -/
theorem State.dgeArmed_iff {tap id : Nat} : ((List.range 4).any fun n => (match s.dge die n with
      | some y => y.armed == some (tap, id)
      | none => false)) = true ↔ ∃ n y, n < 4 ∧ s.dge die n = some y ∧ y.armed = some (tap, id) := by
  simp only [List.any_eq_true, List.mem_range]
  refine exists_congr fun n => ?_
  cases s.dge die n <;> simp

theorem exec_dgeArm_open {tap tapid : Nat} (h : DgeOpen s die ses x) :
    let id := if die = 0 then 0 else tapid
    (die = 0 → tap ≠ 0 → exec (.dgeArm die ses tap tapid) s = .next (s.dgeEnd die ses 6)) ∧
    (die ≠ 0 ∨ tap = 0 → (x.feed ≠ none ∨ x.armed ≠ none ∨ ∃ n y, n < 4 ∧ s.dge die n = some y ∧ y.armed = some (tap, id)) →
      exec (.dgeArm die ses tap tapid) s = .next (s.dgeEnd die ses 4)) ∧
    (die ≠ 0 ∨ tap = 0 → x.feed = none → x.armed = none → (∀ n y, n < 4 → s.dge die n = some y → y.armed ≠ some (tap, id)) →
      exec (.dgeArm die ses tap tapid) s = .next ((s.setDge die ses { x with armed := some (tap, id) }).dgeEnd die ses 0)) := by
  intro id
  have hexec {u : State} (hu : _ = u) : exec (.dgeArm die ses tap tapid) s = .next u := congrArg _ ((State.withDge_open h _).trans hu)
  have hhere (hd : die ≠ 0 ∨ tap = 0) : ¬ (die = 0 ∧ tap ≠ 0) := by omega
  refine ⟨fun hd ht => hexec (if_pos ⟨hd, ht⟩), fun hd hbusy => hexec ((if_neg (hhere hd)).trans (if_pos ?_)),
    fun hd hf ha hfree => hexec ((if_neg (hhere hd)).trans (if_neg ?_))⟩
  · rw [Bool.or_eq_true, DgeSes.fed_or_armed_iff, or_assoc]
    exact hbusy.imp_right (Or.imp_right State.dgeArmed_iff.2)
  · rw [Bool.or_eq_true, not_or]
    refine ⟨DgeSes.free_of hf ha, fun hany => ?_⟩
    obtain ⟨n, y, hn, hy, harmed⟩ := State.dgeArmed_iff.1 hany
    exact hfree n y hn hy harmed

/-- The end of a FEED, with a FINISH that waited for it (R533, R536). -/
theorem DgeSes.fedSettle_eq (x : DgeSes) : x.fedSettle =
    (let y := { x with feed := none }.settle
    if x.finish && !y.ending then { y with finish := false, ending := true, short := true } else { y with finish := false }) := by
  unfold DgeSes.fedSettle
  dsimp only
  generalize DgeSes.settle _ = y
  cases x.finish <;> cases y.ending <;> rfl

theorem exec_dgeFeedDone {a n : Nat} (hx : s.dge die ses = some x) (hf : x.feed = some (a, n)) :
    (s.dgeFault die a n .read = none →
      exec (.dgeFeedDone die ses) s = .next ((s.setDge die ses (x.feedBytes (s.loads a n)).fedSettle).dgeEnd die ses 0)) ∧
    (∀ b c, s.dgeFault die a n .read = some (b, c) → exec (.dgeFeedDone die ses) s =
      .next (((s.setDge die ses (x.feedBytes (s.loads a (b - a))).fedSettle).dgeEnd die ses 7).dgeFreeze die ses b .read c)) := by
  refine ⟨fun hn => ?_, fun b c hc => ?_⟩ <;> show execDgeFeedDone die ses s = _ <;> unfold execDgeFeedDone
  · simp only [hx, hf, hn]
  · simp only [hx, hf, hc]

theorem exec_dgeTapTransfer {tap tapid : Nat} (bytes : Bytes) (whole : Bool) (hses : ses < 4) (hx : s.dge die ses = some x)
    (hend : x.ending = false) (harmed : x.armed = some (tap, if die = 0 then 0 else tapid))
    (hfirst : ∀ n y, n < ses → s.dge die n = some y → y.armed ≠ some (tap, if die = 0 then 0 else tapid) ∨ y.ending = true) :
    let y := x.feedBytes bytes
    exec (.dgeTapTransfer die tap tapid bytes whole) s =
      .next ((s.setDge die ses { y with tapFault := y.tapFault || !whole }.settle).showDge die ses) := by
  intro y
  show execDgeTapTransfer die tap tapid bytes whole s = _
  have hfind : (List.range 4).find? (fun n => (match s.dge die n with
      | some y => y.armed == some (tap, if die = 0 then 0 else tapid) && !y.ending
      | none => false)) = some ses := by
    refine List.find?_range_eq_some.2 ⟨by simp [hx, harmed, hend], List.mem_range.2 hses, fun n hn => ?_⟩
    cases hy : s.dge die n with
    | none => rfl
    | some y => obtain hne | hcomplete := hfirst n y hn hy <;> simp [*]
  unfold execDgeTapTransfer
  dsimp only
  split
  next heq => cases hfind.symm.trans heq
  next n heq =>
    obtain rfl : ses = n := Option.some.inj (hfind.symm.trans heq)
    rw [hx]

end

/-! ## Bytes (R527, R534) -/

theorem digestBlock_pos (alg : Nat) : 0 < digestBlock alg := by
  unfold digestBlock
  split <;> decide

/-- State and rest after all whole blocks of a string. -/
def digestAbsorbed (alg : Nat) (st l : Bytes) : Bytes × Bytes := digestAbsorb alg (l.length / digestBlock alg + 1) st l

theorem digestAbsorbed_short {alg : Nat} {st l : Bytes} (h : l.length < digestBlock alg) : digestAbsorbed alg st l = (st, l) := if_pos h

theorem digestAbsorbed_block {alg : Nat} {st l : Bytes} (h : digestBlock alg ≤ l.length) :
    digestAbsorbed alg st l = digestAbsorbed alg (digestStep alg st (l.take (digestBlock alg))) (l.drop (digestBlock alg)) := by
  unfold digestAbsorbed
  rw [List.length_drop, Nat.div_eq_sub_div (digestBlock_pos alg) h]
  exact if_neg (Nat.not_lt.2 h)

theorem digestAbsorbed_rest_lt (alg : Nat) (st l : Bytes) : (digestAbsorbed alg st l).2.length < digestBlock alg := by
  induction hn : l.length using Nat.strong_induction_on generalizing st l with
  | _ n ih =>
    subst hn
    have hb := digestBlock_pos alg
    obtain hlt | hle := Nat.lt_or_ge l.length (digestBlock alg)
    · rwa [digestAbsorbed_short hlt]
    · rw [digestAbsorbed_block hle]
      exact ih _ (by rw [List.length_drop]; omega) _ _ rfl

/-- A string absorbed in two pieces, the rest of the first before the second. -/
theorem digestAbsorbed_append (alg : Nat) (st l b : Bytes) :
    digestAbsorbed alg st (l ++ b) = digestAbsorbed alg (digestAbsorbed alg st l).1 ((digestAbsorbed alg st l).2 ++ b) := by
  induction hn : l.length using Nat.strong_induction_on generalizing st l with
  | _ n ih =>
    subst hn
    have hb := digestBlock_pos alg
    obtain hlt | hle := Nat.lt_or_ge l.length (digestBlock alg)
    · rw [digestAbsorbed_short hlt]
    · rw [digestAbsorbed_block hle, digestAbsorbed_block (by rw [List.length_append]; omega), List.take_append_of_le_length hle,
        List.drop_append_of_le_length hle]
      exact ih _ (by rw [List.length_drop]; omega) _ _ rfl

section

variable {x : DgeSes}

/-- Bytes that a session still takes of a string (R534). -/
def DgeSes.taken (x : DgeSes) (l : Bytes) : Bytes := if x.declEn then l.take (x.decl - x.count) else l

theorem DgeSes.feedBytes_eq (x : DgeSes) (l : Bytes) : x.feedBytes l =
    { x with st := (digestAbsorbed x.alg x.st (x.buf ++ x.taken l)).1, buf := (digestAbsorbed x.alg x.st (x.buf ++ x.taken l)).2,
             count := x.count + (x.taken l).length, trunc := x.trunc || (x.declEn && decide (x.decl - x.count < l.length)) } := by
  have htake : (if x.declEn && decide (x.decl - x.count < l.length) then l.take (x.decl - x.count) else l) = x.taken l := by
    unfold DgeSes.taken
    cases x.declEn with
    | false => rfl
    | true =>
      by_cases h : x.decl - x.count < l.length
      · simp [h]
      · simp [h, List.take_of_length_le (Nat.not_lt.1 h)]
  unfold DgeSes.feedBytes
  dsimp only
  rw [htake]
  rfl

theorem DgeSes.declEn_feedBytes (l : Bytes) : (x.feedBytes l).declEn = x.declEn := rfl

theorem DgeSes.decl_feedBytes (l : Bytes) : (x.feedBytes l).decl = x.decl := rfl

/-- No whole block stays in the rest. -/
theorem DgeSes.buf_feedBytes_lt (l : Bytes) : (x.feedBytes l).buf.length < digestBlock (x.feedBytes l).alg := by
  rw [DgeSes.feedBytes_eq]
  exact digestAbsorbed_rest_lt ..

variable (hc : x.declEn = true → x.count ≤ x.decl)
include hc

theorem DgeSes.count_feedBytes (l : Bytes) : (x.feedBytes l).count = if x.declEn then min x.decl (x.count + l.length) else x.count + l.length := by
  rw [DgeSes.feedBytes_eq]
  unfold DgeSes.taken
  cases hd : x.declEn with
  | false => rfl
  | true =>
    have := hc hd
    simp only [if_true, List.length_take]
    omega

theorem DgeSes.trunc_feedBytes (l : Bytes) : (x.feedBytes l).trunc = (x.trunc || (x.declEn && decide (x.decl < x.count + l.length))) := by
  rw [DgeSes.feedBytes_eq]
  cases hd : x.declEn with
  | false => rfl
  | true =>
    have := hc hd
    simp only [Bool.true_and]
    congr 2
    exact propext (by omega)

/-- Bytes fed in two pieces act as in one. -/
theorem DgeSes.feedBytes_append (a b : Bytes) : x.feedBytes (a ++ b) = (x.feedBytes a).feedBytes b := by
  have hcount := DgeSes.count_feedBytes hc a
  have htaken : x.taken (a ++ b) = x.taken a ++ (x.feedBytes a).taken b := by
    unfold DgeSes.taken
    rw [DgeSes.declEn_feedBytes, DgeSes.decl_feedBytes, hcount]
    cases hd : x.declEn with
    | false => rfl
    | true =>
      have := hc hd
      simp only [if_true, List.take_append]
      congr 2
      omega
  have htrunc : (x.feedBytes (a ++ b)).trunc = ((x.feedBytes a).feedBytes b).trunc := by
    have hc' : (x.feedBytes a).declEn = true → (x.feedBytes a).count ≤ (x.feedBytes a).decl := fun hd => by
      rw [hcount, if_pos (show x.declEn = true from hd)]
      exact Nat.min_le_left ..
    rw [DgeSes.trunc_feedBytes hc, DgeSes.trunc_feedBytes hc', DgeSes.trunc_feedBytes hc, DgeSes.declEn_feedBytes, DgeSes.decl_feedBytes, hcount,
      Bool.or_assoc]
    cases hd : x.declEn with
    | false => rfl
    | true =>
      have := hc hd
      simp only [Bool.true_and, if_true, List.length_append, ← Bool.decide_or]
      congr 2
      exact propext (by omega)
  have hst : (x.feedBytes a).st = (digestAbsorbed x.alg x.st (x.buf ++ x.taken a)).1 := congrArg DgeSes.st (x.feedBytes_eq a)
  have hbuf : (x.feedBytes a).buf = (digestAbsorbed x.alg x.st (x.buf ++ x.taken a)).2 := congrArg DgeSes.buf (x.feedBytes_eq a)
  have hlen : (x.feedBytes a).count = x.count + (x.taken a).length := congrArg DgeSes.count (x.feedBytes_eq a)
  have habsorb : digestAbsorbed x.alg x.st (x.buf ++ x.taken (a ++ b)) =
      digestAbsorbed x.alg (x.feedBytes a).st ((x.feedBytes a).buf ++ (x.feedBytes a).taken b) := by
    rw [hst, hbuf, htaken, ← List.append_assoc]
    exact digestAbsorbed_append ..
  rw [DgeSes.feedBytes_eq, DgeSes.feedBytes_eq (x.feedBytes a)] at htrunc ⊢
  refine DgeSes.mk.injEq .. ▸ ⟨rfl, rfl, congrArg Prod.fst habsorb, rfl, congrArg Prod.snd habsorb, ?_, htrunc, rfl, rfl, rfl, rfl, rfl, rfl⟩
  rw [hlen, htaken, List.length_append, Nat.add_assoc]

end

/-! ## Results (R544, R545) -/

theorem exec_dgeResult_complete {s : State} {die ses : Nat} {x : DgeSes} (hx : s.dge die ses = some x) (hend : x.ending = true) :
    let n := digestLen x.alg (cfgOf x Reg.SES_CFG_OUTLEN)
    let plain := digestEnd x.alg n x.st x.buf x.count
    let keyed := digestOuter x.alg x.ocv (digestEnd x.alg n x.st x.buf (x.count + digestBlock x.alg))
    let u := s.putResult die (cfgOf x Reg.SES_CFG_RSLOT) x.alg (padTo 64 (if 9 ≤ x.alg then keyed else plain)) x.trunc x.short x.tapFault
      (cfgOf x Reg.SES_CFG_RLOCK == 1) x.count
    exec (.dgeResult die ses) s = .next (((u.setFlag die (Reg.SES_STATUS_DONE.plus (ses * 0x100)) true).dropDge die ses).showDge die ses) := by
  intro n plain keyed
  have hdigest : (if digestKeyed x.alg then digestOuter x.alg x.ocv (digestEnd x.alg n x.st x.buf (x.count + (if digestKeyed x.alg then
      digestBlock x.alg else 0))) else digestEnd x.alg n x.st x.buf (x.count + (if digestKeyed x.alg then digestBlock x.alg else 0))) =
      if 9 ≤ x.alg then keyed else plain := by
    by_cases h9 : 9 ≤ x.alg <;> simp [digestKeyed, h9, keyed, plain]
  show execDgeResult die ses s = _
  unfold execDgeResult
  rw [hx]
  dsimp only
  rw [if_neg (by simp [hend]), ← hdigest]
  rfl

/-- The fields of a result but SEQ and VALID, which come last (R545). -/
def resultBody (alg count : Nat) (d : Bytes) (trunc short tap lock : Bool) : List (Fld × Nat) :=
  ((List.range 8).map fun k => (Reg.RES_D_BYTES.plus (8 * k), leAt d (8 * k) 8)) ++
    [(Reg.RES_INFO_ALG, alg), (Reg.RES_INFO_TRUNC, if trunc then 1 else 0), (Reg.RES_INFO_SHORT, if short then 1 else 0),
     (Reg.RES_INFO_TAPFAULT, if tap then 1 else 0), (Reg.RES_INFO_LEN, count), (Reg.RES_INFO_LOCKED, if lock then 1 else 0)]

def resultFlds (s : State) (die r alg count : Nat) (d : Bytes) (trunc short tap lock : Bool) : List (Fld × Nat) :=
  resultBody alg count d trunc short tap lock ++ [(Reg.RES_INFO_SEQ, s.fld die (resFld r Reg.RES_INFO_SEQ) + 1), (Reg.RES_INFO_VALID, 1)]

theorem resultFlds_clear (s : State) (die : Nat) {r : Nat} (hr : r < 16) (alg count : Nat) (d : Bytes) (trunc short tap lock : Bool) :
    ((resultFlds s die r alg count d trunc short tap lock).map fun x => (resFld r x.1, x.2)).Pairwise fun x y => Fld.Clear x.1 y.1 := by
  have hbase : ((List.range 8).map (fun k => Reg.RES_D_BYTES.plus (8 * k)) ++ [Reg.RES_INFO_ALG, Reg.RES_INFO_TRUNC, Reg.RES_INFO_SHORT,
      Reg.RES_INFO_TAPFAULT, Reg.RES_INFO_LEN, Reg.RES_INFO_LOCKED, Reg.RES_INFO_SEQ, Reg.RES_INFO_VALID]).Pairwise
      fun f g => Fld.Clear f g ∧ f.off < 2 ^ 22 ∧ g.off < 2 ^ 22 := by decide
  have hshift := hbase.map (resFld r) fun f g h => Fld.Clear.plus h.1 (show r * 0x80 < 2 ^ 22 by omega) h.2.1 h.2.2
  have hfsts : ((resultFlds s die r alg count d trunc short tap lock).map fun x => (resFld r x.1, x.2)).map Prod.fst =
      ((List.range 8).map (fun k => Reg.RES_D_BYTES.plus (8 * k)) ++ [Reg.RES_INFO_ALG, Reg.RES_INFO_TRUNC, Reg.RES_INFO_SHORT,
        Reg.RES_INFO_TAPFAULT, Reg.RES_INFO_LEN, Reg.RES_INFO_LOCKED, Reg.RES_INFO_SEQ, Reg.RES_INFO_VALID]).map (resFld r) := rfl
  rw [← hfsts] at hshift
  exact List.pairwise_map.1 hshift

theorem State.putResult_body (s : State) (die r alg count : Nat) (d : Bytes) (trunc short tap lock : Bool) :
    s.putResult die r alg d trunc short tap lock count =
      ((s.setFlds die ((resultBody alg count d trunc short tap lock).map fun x => (resFld r x.1, x.2))).addFld die
        (resFld r Reg.RES_INFO_SEQ) 1).setFlag die (resFld r Reg.RES_INFO_VALID) true := by
  unfold State.putResult resultBody State.setFlds
  rw [List.map_append, List.foldl_append, List.map_map, List.foldl_map]
  rfl

/-- A result is its fields, SEQ one above what it was. -/
theorem State.putResult_eq {s : State} (ho : s.Ordered) (die : Nat) {r : Nat} (hr : r < 16) (alg count : Nat) (d : Bytes)
    (trunc short tap lock : Bool) : s.putResult die r alg d trunc short tap lock count =
      s.setFlds die ((resultFlds s die r alg count d trunc short tap lock).map fun x => (resFld r x.1, x.2)) := by
  have hbase : ∀ f ∈ (resultBody alg count d trunc short tap lock).map Prod.fst, Fld.Clear Reg.RES_INFO_SEQ f ∧ f.off < 2 ^ 22 := by
    show ∀ f ∈ (List.range 8).map (fun k => Reg.RES_D_BYTES.plus (8 * k)) ++ [Reg.RES_INFO_ALG, Reg.RES_INFO_TRUNC, Reg.RES_INFO_SHORT,
      Reg.RES_INFO_TAPFAULT, Reg.RES_INFO_LEN, Reg.RES_INFO_LOCKED], _
    decide
  have hseq := (KeepsFld.refl (die := die) (f := resFld r Reg.RES_INFO_SEQ) s).setFlds
    (l := (resultBody alg count d trunc short tap lock).map fun x => (resFld r x.1, x.2)) (fun x hx => by
      obtain ⟨y, hy, rfl⟩ := List.mem_map.1 hx
      obtain ⟨hclear, hoff⟩ := hbase y.1 (List.mem_map.2 ⟨y, hy, rfl⟩)
      exact hclear.plus (by omega) (by decide) hoff) ho
  rw [State.putResult_body, resultFlds, List.map_append, State.setFlds_append, State.addFld, hseq.2]
  rfl

theorem State.putResult_reads {s : State} (ho : s.Ordered) (die : Nat) {r : Nat} (hr : r < 16) (alg count : Nat) (d : Bytes)
    (trunc short tap lock : Bool) :
    let u := s.putResult die r alg d trunc short tap lock count
    let f := fun (x : Fld) => u.fld die (x.plus (r * 0x80))
    u = { s with regs := u.regs } ∧ f Reg.RES_INFO_VALID = 1 ∧ f Reg.RES_INFO_ALG = alg % 16 ∧ f Reg.RES_INFO_TRUNC = trunc.toNat ∧
    f Reg.RES_INFO_SHORT = short.toNat ∧ f Reg.RES_INFO_TAPFAULT = tap.toNat ∧ f Reg.RES_INFO_LOCKED = lock.toNat ∧
    f Reg.RES_INFO_SEQ = (s.fld die (Reg.RES_INFO_SEQ.plus (r * 0x80)) + 1) % 128 ∧ f Reg.RES_INFO_LEN = count % 2 ^ 48 ∧
    (∀ k, k < 8 → f (Reg.RES_D_BYTES.plus (8 * k)) = leAt d (8 * k) 8) := by
  intro u f
  have hu := State.putResult_eq ho die hr alg count d trunc short tap lock
  have hread {g : Fld} {v : Nat} (hg : (g, v) ∈ resultFlds s die r alg count d trunc short tap lock) (hw : g.lo + g.w ≤ 64) :
      f g = v % 2 ^ g.w := by
    show (s.putResult die r alg d trunc short tap lock count).fld die (resFld r g) = _
    rw [hu]
    exact State.fld_setFlds ho (resultFlds_clear s die hr alg count d trunc short tap lock) (List.mem_map.2 ⟨(g, v), hg, rfl⟩) hw
  have hbit (b : Bool) : (if b then 1 else 0) % 2 ^ 1 = b.toNat := by cases b <;> rfl
  have hword {k : Nat} (hk : k < 8) : (Reg.RES_D_BYTES.plus (8 * k), leAt d (8 * k) 8) ∈ resultFlds s die r alg count d trunc short tap lock :=
    List.mem_append_left _ (List.mem_append_left _ (List.mem_map.2 ⟨k, List.mem_range.2 hk, rfl⟩))
  have hinfo {x : Fld × Nat} (hx : x ∈ _) : x ∈ resultFlds s die r alg count d trunc short tap lock :=
    List.mem_append_left _ (List.mem_append_right _ hx)
  have hlast {x : Fld × Nat} (hx : x ∈ _) : x ∈ resultFlds s die r alg count d trunc short tap lock := List.mem_append_right _ hx
  obtain ⟨regs, hregs⟩ := s.setFlds_only die ((resultFlds s die r alg count d trunc short tap lock).map fun x => (resFld r x.1, x.2))
  refine ⟨?_, hread (v := 1) (hlast (by simp)) (by decide), hread (hinfo (by simp)) (by decide), (hread (hinfo (by simp)) (by decide)).trans (hbit _),
    (hread (hinfo (by simp)) (by decide)).trans (hbit _), (hread (hinfo (by simp)) (by decide)).trans (hbit _),
    (hread (hinfo (by simp)) (by decide)).trans (hbit _), hread (hlast (by simp [resFld])) (by decide), hread (hinfo (by simp)) (by decide), fun k hk => ?_⟩
  · rw [show u = _ from hu.trans hregs]
  · refine (hread (hword hk) (show 0 + 64 ≤ 64 by decide)).trans (Nat.mod_eq_of_lt ?_)
    exact (leAt_lt d (8 * k) 8).trans_eq (show 256 ^ 8 = 2 ^ 64 by decide)

/-- Settles O52: the guards of each operation, `DgeSes.feedBytes_append` for bytes in two pieces, and the fields of a result. -/
theorem digestSessionsAndResults : Obligations.DigestSessionsAndResults := by
  unfold Obligations.DigestSessionsAndResults
  refine ⟨fun s die ses hon => ⟨execDgeStart_bad hon, execDgeStart_keyless hon, execDgeStart_taken hon, execDgeStart_opens hon, if_neg (by simp [hon])⟩,
    fun s die ses tap id v c h hc => ?closed, fun s die ses v x h => ?opened, fun s die ses tap tapid x h => exec_dgeArm_open h,
    fun s die ses a n x hx hf => ?fed, fun s die ses tap tapid bytes whole x hses hx hend ha hfirst =>
      exec_dgeTapTransfer bytes whole hses hx hend ha hfirst,
    fun s die ses x hx hend => exec_dgeResult_complete hx hend,
    fun s die r alg count d trunc short tap lock ho hr => State.putResult_reads ho die hr alg count d trunc short tap lock,
    DgeSes.settle_cases, fun x a b _ hc => ⟨DgeSes.feedBytes_append hc a b, DgeSes.buf_feedBytes_lt a, DgeSes.count_feedBytes hc a,
      DgeSes.trunc_feedBytes hc a⟩⟩
  case closed =>
    simp only [List.mem_cons, List.not_mem_nil, or_false] at hc
    rcases hc with rfl | rfl | rfl | rfl | rfl | rfl <;> exact congrArg _ (State.withDge_closed h _)
  case opened =>
    obtain ⟨hunpadded, hpadded⟩ := exec_dgeFinish_open h
    exact ⟨fun hb => exec_dge_busy h hb v, fun hf ha => exec_dge_takes h hf ha v, hunpadded, hpadded, congrArg _ (State.withDge_open h _)⟩
  case fed =>
    intro fed
    have hfed (m : Nat) : (x.feedBytes (s.loads a m)).fedSettle = fed m := DgeSes.fedSettle_eq _
    rw [← hfed]
    obtain ⟨hwhole, hfault⟩ := exec_dgeFeedDone hx hf
    exact ⟨hwhole, fun b c hc => by rw [hfault b c hc, hfed]⟩

end Sys2Proof.Machine
end

section
/-! Strings filled to a length, and pieces of a string of known lengths. -/

namespace Sys2Proof

@[simp] theorem length_padTo (n : Nat) (l : Bytes) : (padTo n l).length = n := by
  simp only [padTo, zeros, List.length_take, List.length_append, List.length_replicate]
  omega

theorem padTo_of_length {n : Nat} {l : Bytes} (h : l.length = n) : padTo n l = l := by
  rw [padTo, h, Nat.sub_self]
  exact List.take_left' h

/-- A cut of a filled string is filled alike. -/
theorem take_padTo {m n : Nat} (h : m ≤ n) (l : Bytes) : (padTo n l).take m = padTo m l := by
  unfold padTo zeros
  rw [List.take_take, Nat.min_eq_left h, List.take_append, List.take_append, List.take_replicate, List.take_replicate]
  congr 2
  omega

/-- What is cut off a string at `k` and filled follows what is kept, up to the string's length. -/
theorem take_padTo_append_padTo {k n : Nat} {l : Bytes} (h : l.length ≤ k + n) :
    (padTo k (l.take k) ++ padTo n (l.drop k)).take l.length = l := by
  obtain hlt | hle := Nat.lt_or_ge k l.length
  · have htake : (l.take k).length = k := by rw [List.length_take]; omega
    rw [padTo_of_length htake, List.take_append, htake, take_padTo (by omega), padTo_of_length List.length_drop,
      List.take_of_length_le (by omega), List.take_append_drop]
  · rw [List.take_append_of_le_length (by rwa [length_padTo]), List.take_of_length_le hle, take_padTo hle, padTo_of_length rfl]

/-- A piece of a string, found by the lengths of the pieces. -/
theorem take_drop_flatten {l : List Bytes} {lens : List Nat} (hl : l.map List.length = lens) {k : Nat} {b : Bytes} (hk : l[k]? = some b)
    {i n : Nat} (hi : (lens.take k).sum = i) (hn : lens[k]? = some n) : (l.flatten.drop i).take n = b := by
  subst hl hi
  rw [List.getElem?_map, hk, Option.map_some, Option.some.injEq] at hn
  subst hn
  obtain ⟨hlt, rfl⟩ := List.getElem?_eq_some_iff.1 hk
  rw [← List.map_take, ← List.length_flatten]
  have hsplit : l.flatten = (l.take k).flatten ++ (l[k] ++ (l.drop (k + 1)).flatten) := by
    rw [← List.flatten_cons, ← List.drop_eq_getElem_cons, ← List.flatten_append, List.take_append_drop]
  rw [hsplit, List.drop_left, List.take_left]

end Sys2Proof
end

section
/-! Contexts of digest sessions, and key slots (R537, R539, R546 to R549). -/

namespace Sys2Proof.Machine

open Sys2Proof

/-! ## The context of a session (R547) -/

section

variable {x : DgeSes}

/-- The state field of a context: that of a sponge, or a shorter one with the rest that follows byte 88 of the block. -/
def DgeSes.ctxState (x : DgeSes) : Bytes := if digestSponge x.alg then padTo 200 x.st else padTo 64 x.st ++ padTo 136 (x.buf.drop 88)

def DgeSes.ctxOcv (x : DgeSes) : Bytes := if digestSponge x.alg then padTo 64 (x.buf.drop 88) else padTo 64 x.ocv

def DgeSes.ctxPieces (x : DgeSes) : List Bytes :=
  [le 8 x.cfg.toNat, le 6 x.decl, le 1 ((if x.trunc then 1 else 0) + (if digestKeyed x.alg then 2 else 0)), le 1 x.buf.length, x.ctxState, x.ctxOcv,
   padTo 88 (x.buf.take 88), le 16 x.count]

theorem DgeSes.context_eq (x : DgeSes) : x.context = x.ctxPieces.flatten := by
  simp only [DgeSes.ctxPieces, List.flatten_cons, List.flatten_nil, List.append_nil, ← List.append_assoc]
  rfl

theorem DgeSes.ctxPieces_lengths (x : DgeSes) : x.ctxPieces.map List.length = [8, 6, 1, 1, 200, 64, 88, 16] := by
  unfold DgeSes.ctxPieces DgeSes.ctxState DgeSes.ctxOcv
  cases digestSponge x.alg <;> simp

theorem DgeSes.length_context (x : DgeSes) : x.context.length = 384 := by
  rw [DgeSes.context_eq, List.length_flatten, DgeSes.ctxPieces_lengths]
  rfl

theorem DgeSes.context_piece (x : DgeSes) {k i n : Nat} {b : Bytes} (hk : x.ctxPieces[k]? = some b)
    (hi : ([8, 6, 1, 1, 200, 64, 88, 16].take k).sum = i) (hn : [8, 6, 1, 1, 200, 64, 88, 16][k]? = some n) : (x.context.drop i).take n = b := by
  rw [DgeSes.context_eq]
  exact take_drop_flatten x.ctxPieces_lengths hk hi hn

theorem DgeSes.context_number (x : DgeSes) {k i n v : Nat} (hk : x.ctxPieces[k]? = some (le n v))
    (hi : ([8, 6, 1, 1, 200, 64, 88, 16].take k).sum = i) (hn : [8, 6, 1, 1, 200, 64, 88, 16][k]? = some n) (hv : v < 256 ^ n) :
    leAt x.context i n = v := by
  rw [leAt, x.context_piece hk hi hn, ofLe_le, Nat.mod_eq_of_lt hv]

theorem digestBlock_le (alg : Nat) : digestBlock alg ≤ 136 := by
  unfold digestBlock
  split <;> decide

/-- Length of the state of an algorithm (R547). -/
def stateLen (alg : Nat) : Nat := if digestSponge alg then 200 else if digestBlock alg = 64 then 32 else 64

theorem stateLen_le {alg : Nat} (h : digestSponge alg = false) : stateLen alg ≤ 64 := by
  rw [stateLen, h, if_neg Bool.false_ne_true]
  split <;> decide

variable (hdecl : x.decl < 2 ^ 48) (hcount : x.count < 2 ^ 128) (hbuf : x.buf.length < digestBlock x.alg) (hst : x.st.length = stateLen x.alg)
include hdecl hcount hbuf hst

/-- A context gives back its session, with the chaining value of the outer digest filled to its length. -/
theorem contextSes_context (hend : x.ending = false) (harmed : x.armed = none) (hfeed : x.feed = none) (hfin : x.finish = false) :
    contextSes x.context = { x with short := false, tapFault := false, ocv := if digestSponge x.alg then [] else padTo x.st.length x.ocv } := by
  have hblock := digestBlock_le x.alg
  have hcfg : leAt x.context 0 8 = x.cfg.toNat := x.context_number (k := 0) rfl rfl rfl x.cfg.isLt
  have hword : BitVec.ofNat 64 (leAt x.context 0 8) = x.cfg := by rw [hcfg, BitVec.ofNat_toNat, BitVec.setWidth_eq]
  have halg : bitsAt x.cfg 0 4 = x.alg := rfl
  have hnbuf : leAt x.context 15 1 = x.buf.length := x.context_number (k := 3) rfl rfl rfl (by omega)
  have hdeclAt : leAt x.context 8 6 = x.decl := x.context_number (k := 1) rfl rfl rfl (by omega)
  have hcountAt : leAt x.context 368 16 = x.count := x.context_number (k := 7) rfl rfl rfl (by omega)
  have hflags : leAt x.context 14 1 = (if x.trunc then 1 else 0) + (if digestKeyed x.alg then 2 else 0) :=
    x.context_number (k := 2) rfl rfl rfl (by split <;> split <;> decide)
  have hstate : (x.context.drop 16).take 200 = x.ctxState := x.context_piece (k := 4) rfl rfl rfl
  have hocv : (x.context.drop 216).take 64 = x.ctxOcv := x.context_piece (k := 5) rfl rfl rfl
  have hrest : (x.context.drop 280).take 88 = padTo 88 (x.buf.take 88) := x.context_piece (k := 6) rfl rfl rfl
  unfold contextSes
  simp only [hword, halg, hnbuf, hdeclAt, hcountAt, hflags, hstate, hocv, hrest]
  have htrunc : (((if x.trunc then 1 else 0) + (if digestKeyed x.alg then 2 else 0)) % 2 == 1) = x.trunc := by
    cases x.trunc <;> cases digestKeyed x.alg <;> rfl
  unfold DgeSes.ctxState DgeSes.ctxOcv
  rw [DgeSes.mk.injEq]
  cases hs : digestSponge x.alg with
  | true =>
    have hlen : x.st.length = 200 := by rw [hst, stateLen, hs, if_pos rfl]
    refine ⟨rfl, rfl, ?_, rfl, take_padTo_append_padTo (by omega), rfl, htrunc, rfl, rfl, harmed.symm, hfeed.symm, hfin.symm, hend.symm⟩
    simp only [if_true]
    rw [take_padTo (Nat.le_refl 200), padTo_of_length hlen]
  | false =>
    have hle := stateLen_le hs
    have hdrop : (padTo 64 x.st ++ padTo 136 (x.buf.drop 88)).drop 64 = padTo 136 (x.buf.drop 88) := List.drop_left' (length_padTo 64 x.st)
    have hstLen : (if digestBlock x.alg = 64 then 32 else 64) = stateLen x.alg := by rw [stateLen, hs, if_neg Bool.false_ne_true]
    simp only [Bool.false_eq_true, if_false, hdrop, hstLen]
    refine ⟨trivial, trivial, ?_, ?_, take_padTo_append_padTo (by omega), trivial, htrunc, trivial, trivial, harmed.symm, hfeed.symm, hfin.symm, hend.symm⟩
    · rw [List.take_append_of_le_length (by rwa [length_padTo]), take_padTo hle, padTo_of_length hst]
    · rw [take_padTo hle, hst]

end

/-! ## Saving and restoring (R546, R548) -/

section

variable {s : State} {die ses : Nat} (hon : s.dgeOn die ses = true)
include hon

/-- A save of a session that is closed, complete, BUSY or armed ends with ERR 6. -/
theorem State.dgeSave_refused (h : ∀ x, s.dge die ses = some x → x.ending = true ∨ x.feed ≠ none ∨ x.armed ≠ none) (ok : DgeSes → Bool)
    (f : DgeSes → Bytes) : s.dgeSave die ses ok f = s.dgeEnd die ses 6 := by
  rw [State.dgeSave, if_neg (by simp [hon])]
  cases hx : s.dge die ses with
  | none => rfl
  | some x =>
    refine if_pos ?_
    obtain he | hf | ha := h x hx
    · simp [he]
    · simp [Option.isSome_iff_ne_none.2 hf]
    · simp [Option.isSome_iff_ne_none.2 ha]

variable {x : DgeSes} (hx : s.dge die ses = some x)
include hx

theorem State.dgeSave_keyed {ok : DgeSes → Bool} (hok : ok x = false) (f : DgeSes → Bytes) : s.dgeSave die ses ok f = s.dgeEnd die ses 6 := by
  rw [State.dgeSave, if_neg (by simp [hon]), hx]
  exact if_pos (by simp [hok])

variable (hend : x.ending = false) (hf : x.feed = none) (ha : x.armed = none)
include hend hf ha

theorem State.dgeSave_permitted {ok : DgeSes → Bool} (hok : ok x = true) (f : DgeSes → Bytes) :
    s.dgeSave die ses ok f = match s.dgeFault die (s.sesOf die ses Reg.SES_ADDR_ADDR) (f x).length .write with
      | none => ((s.stores (s.sesOf die ses Reg.SES_ADDR_ADDR) (f x)).dropDge die ses).dgeEnd die ses 0
      | some (b, c) => (s.dgeEnd die ses 7).dgeFreeze die ses b .write c := by
  rw [State.dgeSave, if_neg (by simp [hon]), hx]
  refine (if_neg (by simp [hok, hend, hf, ha])).trans ?_
  unfold State.sesOf sesFld
  dsimp only
  cases s.dgeFault die (s.fld die (Reg.SES_ADDR_ADDR.plus (ses * 0x100))) (f x).length .write <;> rfl

end

/-- What a restore does with the bytes of a context (R546). -/
def State.dgeTake (s : State) (die ses : Nat) (b : Bytes) : State :=
  if digestKnown (contextSes b).alg = true ∧ b.length = 384 then (s.setDge die ses (contextSes b)).dgeEnd die ses 0 else s.dgeEnd die ses 6

section

variable {s : State} {die ses : Nat} (hon : s.dgeOn die ses = true)
include hon

theorem execDgeRestore_open (h : (s.dge die ses).isSome = true) (w : Bool) : exec (.dgeRestore die ses w) s = .next (s.dgeEnd die ses 6) :=
  (if_neg (by simp [hon])).trans (if_pos h)

/-- A restore into a closed session: the bytes are read, unwrapped where they are wrapped, and taken. -/
theorem execDgeRestore_closed (h : s.dge die ses = none) {w : Bool} {n : Nat} (hn : (if w then 392 else 384) = n) :
    exec (.dgeRestore die ses w) s = .next (match s.dgeFault die (s.sesOf die ses Reg.SES_ADDR_ADDR) n .read with
      | none => (match (if w then kwpUnwrap (s.ctxKey die 1) (s.loads (s.sesOf die ses Reg.SES_ADDR_ADDR) n)
          else some (s.loads (s.sesOf die ses Reg.SES_ADDR_ADDR) n)) with
        | some b => s.dgeTake die ses b
        | none => s.dgeEnd die ses 3)
      | some (b, c) => (s.dgeEnd die ses 7).dgeFreeze die ses b .read c) := by
  refine (if_neg (by simp [hon])).trans ((if_neg (by simp [h])).trans ?_)
  subst hn
  unfold State.sesOf sesFld State.dgeTake
  dsimp only
  split
  next b c hb => simp only [hb]
  next hb =>
    simp only [hb]
    split
    next hu => rw [hu]
    next b hu =>
      rw [hu]
      simp only [Bool.and_eq_true, decide_eq_true_eq]
      split <;> rfl

end

/-! ## Key slots (R537, R539) -/

theorem slotAlg_iff (alg : Nat) : slotAlg alg = true ↔ alg ∈ [9, 10, 11] := by
  simp [slotAlg, or_assoc]

/-- A key of an algorithm that slots do not hold, or too long a key, is not loaded (R537). -/
theorem slotRefused_iff (alg keylen : Nat) : (!slotAlg alg || decide (128 < keyLen keylen)) = true ↔ alg ∉ [9, 10, 11] ∨ 128 < keyLen keylen := by
  rw [Bool.or_eq_true, decide_eq_true_eq, ← slotAlg_iff]
  simp

theorem not_slotRefused {alg keylen : Nat} (halg : alg ∈ [9, 10, 11]) (hn : keyLen keylen ≤ 128) :
    ¬ (!slotAlg alg || decide (128 < keyLen keylen)) = true := fun h =>
  ((slotRefused_iff alg keylen).1 h).elim (fun hne => hne halg) (Nat.not_lt.2 hn)

section

variable {s : State} {die slot alg keylen label : Nat} (hon : s.dgeOn die 0 = true)
include hon

theorem execDgeSlotLoadClear_on :
    let n := if keylen = 0 then 128 else keylen
    (s.flag die Reg.DGE_CTRL_CLEAR_KEY_EN = false → exec (.dgeSlotLoadClear die slot alg keylen) s = .next (s.slotEnd die 6)) ∧
    (s.flag die Reg.DGE_CTRL_CLEAR_KEY_EN = true → (alg ∉ [9, 10, 11] ∨ 128 < n) →
      exec (.dgeSlotLoadClear die slot alg keylen) s = .next (s.slotEnd die 1)) ∧
    (s.flag die Reg.DGE_CTRL_CLEAR_KEY_EN = true → alg ∈ [9, 10, 11] → n ≤ 128 →
      exec (.dgeSlotLoadClear die slot alg keylen) s = .next (s.loadSlot die slot alg
        (((List.range 16).flatMap fun i => le 8 (s.wo.getD (regKey die 0x37 (0x100 + 8 * i)) 0).toNat).take n))) := by
  intro n
  have hoff : ¬ (!s.dgeOn die 0) = true := by simp [hon]
  refine ⟨fun hen => (if_neg hoff).trans (if_pos (by simp [hen])),
    fun hen hbad => (if_neg hoff).trans ((if_neg (by simp [hen])).trans (if_pos ((slotRefused_iff alg keylen).2 hbad))),
    fun hen halg hn => (if_neg hoff).trans ((if_neg (by simp [hen])).trans (if_neg (not_slotRefused halg hn)))⟩

theorem execDgeSlotLoadWrapped_on :
    let n := if keylen = 0 then 128 else keylen
    (die = 0 → exec (.dgeSlotLoadWrapped die slot alg keylen) s = .next (s.slotEnd die 6)) ∧
    (die ≠ 0 → (alg ∉ [9, 10, 11] ∨ 128 < n) → exec (.dgeSlotLoadWrapped die slot alg keylen) s = .next (s.slotEnd die 1)) ∧
    (die ≠ 0 → alg ∈ [9, 10, 11] → n ≤ 128 →
      let a := s.fld die Reg.DGE_SLOTSRC_ADDR
      let m := (n + 7) / 8 * 8 + 8
      exec (.dgeSlotLoadWrapped die slot alg keylen) s = .next (match s.dgeFault die a m .read with
        | some (b, c) => (s.slotEnd die 7).dgeFreeze die 0 b .read c
        | none => (match s.dst.awk.find? (die - 16) with
          | some k => (match kwpUnwrap k (s.loads a m) with
            | some key => s.loadSlot die slot alg key
            | none => s.slotEnd die 3)
          | none => s.slotEnd die 3))) := by
  intro n
  have hoff : ¬ (!s.dgeOn die 0) = true := by simp [hon]
  refine ⟨fun hd => (if_neg hoff).trans (if_pos hd), fun hd hbad => (if_neg hoff).trans ((if_neg hd).trans (if_pos ((slotRefused_iff alg keylen).2 hbad))),
    fun hd halg hn => (if_neg hoff).trans ((if_neg hd).trans ((if_neg (not_slotRefused halg hn)).trans ?_))⟩
  · show (match s.dgeFault die (s.fld die Reg.DGE_SLOTSRC_ADDR) ((n + 7) / 8 * 8 + 8) .read with
      | some (b, c) => (.next ((s.slotEnd die 7).dgeFreeze die 0 b .read c) : Res)
      | none => match (s.dst.awk.find? (die - 16)).bind fun k => kwpUnwrap k (s.loads (s.fld die Reg.DGE_SLOTSRC_ADDR) ((n + 7) / 8 * 8 + 8)) with
        | some key => .next (s.loadSlot die slot alg key)
        | none => .next (s.slotEnd die 3)) = _
    cases s.dgeFault die (s.fld die Reg.DGE_SLOTSRC_ADDR) ((n + 7) / 8 * 8 + 8) .read with
    | some bc => rfl
    | none =>
      cases s.dst.awk.find? (die - 16) with
      | none => rfl
      | some k => dsimp only [Option.bind_some]; split <;> rfl

theorem execDgeSlotLoadDerived_on :
    (die ≠ 0 → exec (.dgeSlotLoadDerived die slot alg label) s = .next (s.slotEnd die 6)) ∧
    (die = 0 → alg ∉ [9, 10, 11] → exec (.dgeSlotLoadDerived die slot alg label) s = .next (s.slotEnd die 1)) ∧
    (die = 0 → alg ∈ [9, 10, 11] → exec (.dgeSlotLoadDerived die slot alg label) s =
      .next (s.loadSlot die slot alg (derive (ascii "VX8-DGE" ++ le 2 label ++ s.wrapGen) (if alg = 9 then 32 else 64)))) := by
  have hoff : ¬ (!s.dgeOn die 0) = true := by simp [hon]
  refine ⟨fun hd => (if_neg hoff).trans (if_pos hd), fun hd halg => (if_neg hoff).trans ((if_neg (not_not.2 hd)).trans (if_pos ?_)),
    fun hd halg => (if_neg hoff).trans ((if_neg (not_not.2 hd)).trans (if_neg ?_))⟩
  · rw [← slotAlg_iff] at halg
    simpa using halg
  · rw [← slotAlg_iff] at halg
    simp [halg]

end

/-- What an insertion into any map leaves at other keys. -/
theorem find?_insert_other {V : Type} (m : SMap V) {a b : Nat} (hab : b ≠ a) (w : V) : (SMap.insert m a w).find? b = SMap.find? m b := by
  induction m with
  | nil => simp only [SMap.insert, SMap.find?, if_neg hab, ite_self]
  | cons y m ih =>
    obtain ⟨k, v⟩ := y
    simp only [SMap.insert]
    split
    next hlt =>
      by_cases hb : b < a
      · simp only [SMap.find?, if_neg hab, if_pos hb, if_neg (show b ≠ k by omega), if_pos (hb.trans hlt)]
      · simp only [SMap.find?, if_neg hab, if_neg hb]
    next hge =>
      split
      next heq => subst heq; simp only [SMap.find?, if_neg hab]
      next hne => simp only [SMap.find?, ih]

theorem State.loads_stores {s : State} (h : Memory.wf s.mem = true) (a : Nat) (l : Bytes) : (s.stores a l).loads a l.length = l := by
  refine List.ext_getElem (by simp [State.loads]) fun i hi hl => ?_
  simp only [State.loads, List.getElem_map, List.getElem_range, State.load_stores_inside h hl]
  exact (List.getElem_eq_getD 0).symm

theorem State.loadSlot_slots (s : State) (die slot alg : Nat) (key : Bytes) :
    let t := s.loadSlot die slot alg key
    t.keys.slots.find? (die * 16 + slot % 16) = some { alg := alg, icv := (digestKey alg key).1, ocv := (digestKey alg key).2 } ∧
    (∀ k, k ≠ die * 16 + slot % 16 → t.keys.slots.find? k = s.keys.slots.find? k) ∧ t.mem = s.mem ∧ t.keys.dge = s.keys.dge := by
  intro t
  have ht : t.keys = { s.keys with slots := s.keys.slots.insert (die * 16 + slot % 16) (.mk alg (digestKey alg key).1 (digestKey alg key).2) } ∧
      t.mem = s.mem := by
    simp only [t, State.loadSlot, State.slotEnd, State.setFld_keys, State.setFlag_keys, State.setFld_mem, State.setFlag_mem, and_self]
  rw [ht.1]
  exact ⟨SMap.find?_insert .., fun k hk => find?_insert_other _ hk _, ht.2, rfl⟩

/-- Settles O53: a context by its pieces (`contextSes_context`), the guards of saves, restores and loads, and what a loaded slot holds. -/
theorem digestContextsAndKeySlots : Obligations.DigestContextsAndKeySlots := by
  unfold Obligations.DigestContextsAndKeySlots
  refine ⟨fun s die ses hon => ⟨fun h => ⟨congrArg _ (State.dgeSave_refused hon h _ _), congrArg _ (State.dgeSave_refused hon h _ _)⟩,
      fun x hx he hf ha => ?save, fun w h => execDgeRestore_open hon h w, fun h => ?restore⟩,
    fun x _ hdecl hcount hbuf hend ha hf hfin hst _ => ⟨x.length_context, contextSes_context hdecl hcount hbuf hst hend ha hf hfin⟩,
    fun s a l h => ⟨State.loads_stores h a l, fun b hb => State.load_stores_outside h hb, ?memory⟩,
    fun s die slot alg keylen label hon => ?slots, fun s die slot alg key => s.loadSlot_slots die slot alg key⟩
  case save =>
    refine ⟨fun h9 => congrArg _ (State.dgeSave_keyed hon hx (by simpa [digestKeyed] using h9) _),
      fun h9 => congrArg _ ((State.dgeSave_permitted hon hx he hf ha (by simpa [digestKeyed] using h9) _).trans ?_),
      congrArg _ ((State.dgeSave_permitted hon hx he hf ha rfl _).trans ?_)⟩ <;> split <;> simp [*]
  case restore =>
    exact ⟨execDgeRestore_closed hon h rfl, execDgeRestore_closed hon h rfl⟩
  case memory =>
    obtain ⟨m, hm⟩ := s.stores_only a l
    rw [hm]
  case slots =>
    obtain ⟨hclear6, hclear1, hclear⟩ := execDgeSlotLoadClear_on (slot := slot) (alg := alg) (keylen := keylen) hon
    obtain ⟨hwrapped6, hwrapped1, hwrapped⟩ := execDgeSlotLoadWrapped_on (slot := slot) (alg := alg) (keylen := keylen) hon
    obtain ⟨hderived6, hderived1, hderived⟩ := execDgeSlotLoadDerived_on (slot := slot) (alg := alg) (label := label) hon
    exact ⟨hclear6, hclear1, hclear, hwrapped6, hderived6, hwrapped1, hwrapped, hderived1, hderived, if_neg (by simp [hon])⟩

end Sys2Proof.Machine
end

section
/-! Register writes that their chapter guards (R37, R172, R420, R583, R639, R658). -/

namespace Sys2Proof.Machine

open Sys2Proof

section

variable {s : State} {addr die blk off : Nat} {r : RegDesc}

/-- A write of the management processor to a decoded register that is no window on a table. -/
theorem execRegisterWrite_mp (hd : s.decodeCsr addr 8 = some (die, blk, off, r)) (hw : s.windowKey die blk off = none) (val events : Word) :
    exec (.registerWrite .mp addr 8 val events) s =
      .next (s.writeHook .mp die blk off r (s.reg die blk off) (s.guardWrite die blk off (s.reg die blk off) val) events) := by
  show execRegisterWrite .mp addr 8 val events s = _
  simp only [execRegisterWrite, State.checkAccess_mp hd, hd, State.writeReg, hw]

/-- Offsets of a block that carry no data register of a table. -/
theorem State.windowKey_none (s : State) (die : Nat) (h : (blockTables blk).all (fun t => !t.2.2.contains off) = true) :
    s.windowKey die blk off = none := by
  unfold State.windowKey
  refine List.findSome?_eq_none_iff.2 fun t ht => ?_
  have hoff := List.all_eq_true.1 h t ht
  have hnone : t.2.2.findIdx? (· == off) = none := by
    rw [List.findIdx?_eq_none_iff]
    intro o ho
    simp only [Bool.not_eq_true', List.contains_eq_mem, decide_eq_false_iff_not] at hoff
    exact beq_eq_false_iff_ne.2 fun he => hoff (he ▸ ho)
  rw [hnone]

/-- A register holds these bits as one RW or RWL field. -/
def holdsRw (r : RegDesc) (lo w : Nat) : Bool := r.fields.any fun f => f.lo == lo && f.w == w && (f.acc == .rw || f.acc == .rwl)

/-- Such a field written with its old value keeps it. -/
theorem State.writePlain_keeps (ho : s.Ordered) (hd : s.decodeCsr addr 8 = some (die, blk, off, r)) {lo w : Nat} (hrw : holdsRw r lo w = true)
    {v : Word} (hv : bitsAt v lo w = bitsAt (s.reg die blk off) lo w) (events : Word) :
    bitsAt ((s.writePlain die blk off r v events).reg die blk off) lo w = bitsAt (s.reg die blk off) lo w := by
  obtain ⟨f, hf, hfield⟩ := List.any_eq_true.1 hrw
  simp only [Bool.and_eq_true, Bool.or_eq_true, beq_iff_eq] at hfield
  obtain ⟨⟨rfl, rfl⟩, hacc⟩ := hfield
  rw [State.reg_writePlain_same ho, bitsAt_wordAfterWrite (tidy_of_decodeCsr hd) hf, fieldAfterWrite]
  obtain hrw | hrwl := hacc
  · rw [hrw]
    exact hv
  · rw [hrwl]
    exact (ite_congr rfl (fun _ => rfl) fun _ => hv).trans (ite_self _)

end

theorem watchdogs_rw : ((List.range 0x20).all fun o => (findReg 0x38 (0x10 + o)).all fun r => holdsRw r 32 32) = true := by decide +kernel

theorem cdcCtrl_rw : (findReg 0x30 0x0).all (fun r => holdsRw r 0 1) = true := by decide +kernel

section

variable {s : State} {addr die off : Nat} {r : RegDesc}

/-- TIMEOUT_US of a watchdog that is armed keeps its value (R583). -/
theorem execRegisterWrite_watchdog (ho : s.Ordered) (hd : s.decodeCsr addr 8 = some (die, 0x38, off, r)) (hlo : 0x10 ≤ off) (hhi : off < 0x30)
    (hen : bitsAt (s.reg die 0x38 off) 0 1 = 1) (val events : Word) :
    ∃ t, exec (.registerWrite .mp addr 8 val events) s = .next t ∧
      bitsAt (t.reg die 0x38 off) 32 32 = bitsAt (s.reg die 0x38 off) 32 32 := by
  have hw : s.windowKey die 0x38 off = none := s.windowKey_none die (by simp [blockTables]; omega)
  have hguard : s.guardWrite die 0x38 off (s.reg die 0x38 off) val = setBits val 32 32 (bitsAt (s.reg die 0x38 off) 32 32) := by
    unfold State.guardWrite
    rw [if_neg (by omega), if_pos (by omega), if_pos hen]
  have hrw : holdsRw r 32 32 = true := by
    have hall := List.all_eq_true.1 watchdogs_rw (off - 0x10) (List.mem_range.2 (by omega))
    rw [Nat.add_sub_cancel' hlo, findReg_of_decodeCsr hd] at hall
    exact hall
  refine ⟨_, (execRegisterWrite_mp hd hw val events).trans (congrArg _ (if_neg (by omega))), State.writePlain_keeps ho hd hrw ?_ events⟩
  rw [hguard, bitsAt_setBits_same (by decide), Nat.mod_eq_of_lt (bitsAt_lt ..)]

/-- A MAC_BUF that would leave less than 448 KiB of lossy pool only sets BUF_ERR (R420). -/
theorem execRegisterWrite_macBuf (hd : s.decodeCsr addr 8 = some (die, 0x10, off, r)) (hw : s.windowKey die 0x10 off = none)
    (hlo : off < 0x4000) (hoff : off % 0x1000 = 0x20) {val : Word} (hl : lossyKib val < 448) (events : Word) :
    exec (.registerWrite .mp addr 8 val events) s = .next (s.setFlag die (Reg.MAC_STATUS_BUF_ERR.plus (off / 0x1000 * 0x1000)) true) := by
  have hguard : s.guardWrite die 0x10 off (s.reg die 0x10 off) val = val := by
    unfold State.guardWrite
    dsimp only
    repeat rw [if_neg (by omega)]
  rw [execRegisterWrite_mp hd hw, hguard]
  exact congrArg _ (if_pos ⟨hlo, hoff, hl⟩)

/-- A full mailbox takes no write (R639). -/
theorem execRegisterWrite_fullMailbox (hd : s.decodeCsr addr 8 = some (die, 0x07, off, r)) (hlo : 0x10000 ≤ off)
    (hfull : s.flag die (Reg.MPX_MB_FULL.plus ((off - 0x10000) / 0x1000 * 8)) = true) (val events : Word) :
    exec (.registerWrite .mp addr 8 val events) s = .next s := by
  rw [execRegisterWrite_mp hd (s.windowKey_none die rfl)]
  exact congrArg _ (if_pos ⟨hlo, hfull⟩)

/-- CDC_CTRL.EN keeps its value until every gear entry is set (R172). -/
theorem execRegisterWrite_cdcCtrl (ho : s.Ordered) (hd : s.decodeCsr addr 8 = some (die, 0x30, 0x0, r))
    (hgear : s.flag die Reg.CDC_STATUS_GEAR_SET = false) (val events : Word) :
    ∃ t, exec (.registerWrite .mp addr 8 val events) s = .next t ∧ t.flag die Reg.CDC_CTRL_EN = s.flag die Reg.CDC_CTRL_EN := by
  have hguard : s.guardWrite die 0x30 0x0 (s.reg die 0x30 0x0) val = setBits val 0 1 (bitsAt (s.reg die 0x30 0x0) 0 1) := by
    unfold State.guardWrite
    rw [if_neg (by decide), if_neg (by decide), if_neg (by decide), if_neg (by decide), if_pos (by decide), if_neg (by simp [hgear])]
  have hrw : holdsRw r 0 1 = true := by
    have hall := cdcCtrl_rw
    rw [findReg_of_decodeCsr hd] at hall
    exact hall
  refine ⟨_, execRegisterWrite_mp hd (s.windowKey_none die rfl) val events, congrArg (· == 1) (State.writePlain_keeps ho hd hrw ?_ events)⟩
  rw [hguard, bitsAt_setBits_same (by decide), Nat.mod_eq_of_lt (bitsAt_lt ..)]

theorem execRegisterWrite_tbsCtrl (hd : s.decodeCsr addr 8 = some (die, 0x08, 0x8, r)) (val events : Word) :
    exec (.registerWrite .mp addr 8 val events) s = .next (s.writePlain die 0x08 0x8 r val events).refreshSources :=
  execRegisterWrite_mp hd (s.windowKey_none die rfl) val events

theorem execRegisterWrite_evrCtrl (hd : s.decodeCsr addr 8 = some (die, 0x03, 0x10, r)) (val events : Word) :
    exec (.registerWrite .mp addr 8 val events) s = .next (
      if bitsAt val 0 2 = 1 then (s.writePlain die 0x03 0x10 r val events).freezeEvr
      else if bitsAt val 0 2 = 2 then (s.writePlain die 0x03 0x10 r val events).thawEvr else s.writePlain die 0x03 0x10 r val events) := by
  refine (execRegisterWrite_mp hd (s.windowKey_none die rfl) val events).trans (congrArg _ ?_)
  have hguard : s.guardWrite die 0x03 0x10 (s.reg die 0x03 0x10) val = val := rfl
  rw [hguard]
  simp only [State.writeHook, true_and]

end

/-- Settles O12: the guards of `State.guardWrite` keep an RW field's old value, and the hooks of `State.writeHook` give the rest. -/
theorem registerWritesWithConditions : Obligations.RegisterWritesWithConditions := by
  unfold Obligations.RegisterWritesWithConditions
  exact ⟨fun _ _ _ _ val events _ ho hd hlo hhi hen => execRegisterWrite_watchdog ho hd hlo hhi hen val events,
    fun _ _ _ _ _ events _ _ hd hw hlo hoff hl => ⟨_, execRegisterWrite_macBuf hd hw hlo hoff hl events, rfl⟩,
    fun _ _ _ _ val events _ hd hlo hfull => execRegisterWrite_fullMailbox hd hlo hfull val events,
    fun _ _ _ val events _ ho hd hgear => execRegisterWrite_cdcCtrl ho hd hgear val events,
    fun _ _ _ val events _ hd => execRegisterWrite_tbsCtrl hd val events,
    fun _ _ _ val events _ hd => execRegisterWrite_evrCtrl hd val events⟩

end Sys2Proof.Machine
end

section
/-! Freezes and thaws of channels, and the fault log (R561 to R566). -/

namespace Sys2Proof.Machine

open Sys2Proof

/-! ## What a posted message leaves of the control planes -/

/-- From `s` to `t` only registers, memory and the rings may differ. -/
def PostOnly (s t : State) : Prop := ∃ r m x, t = { s with regs := r, mem := m, hrd := { s.hrd with rings := x } }

theorem PostOnly.refl (s : State) : PostOnly s s := ⟨_, _, _, rfl⟩

theorem PostOnly.trans {s t u : State} (h : PostOnly s t) (k : PostOnly t u) : PostOnly s u := by
  obtain ⟨_, _, _, rfl⟩ := h
  obtain ⟨_, _, _, rfl⟩ := k
  exact ⟨_, _, _, rfl⟩

theorem State.setFld_postOnly (s : State) (die : Nat) (f : Fld) (v : Nat) : PostOnly s (s.setFld die f v) := ⟨_, _, _, rfl⟩
theorem State.setRing_postOnly (s : State) (tile r : Nat) (x : Ring) : PostOnly s (s.setRing tile r x) := ⟨_, _, _, rfl⟩

theorem State.stores_postOnly (s : State) (a : Nat) (l : Bytes) : PostOnly s (s.stores a l) := by
  obtain ⟨m, hm⟩ := s.stores_only a l
  exact ⟨_, m, _, hm⟩

theorem State.placeMsg_postOnly (s : State) (tile r : Nat) (m : RingMsg) : PostOnly s (s.placeMsg tile r m) :=
  ((State.stores_postOnly s _ _).trans (State.setRing_postOnly _ _ _ _)).trans (State.setFld_postOnly _ _ _ _)

theorem State.tryPost_postOnly (s : State) (tile r : Nat) (m : RingMsg) : PostOnly s (s.tryPost tile r m).1 := by
  unfold State.tryPost
  extract_lets x w a
  have hw : PostOnly s w := State.setRing_postOnly _ _ _ _
  split
  · exact hw
  · split
    · exact hw.trans (State.setFld_postOnly _ _ _ _)
    · split
      · exact State.placeMsg_postOnly _ _ _ _
      · exact State.setRing_postOnly _ _ _ _

/-! ## Freezing (R561, R565) -/

section

variable {s : State} {tile mid chan : Nat}

theorem State.frz_setFrz {f : Frz} (h : f ≠ .none) : (s.setFrz tile mid chan f).frz tile mid chan = f := SMap.getD_putD h ..

theorem State.frz_congr {t : State} (h : t.hrd.frz = s.hrd.frz) (m c : Nat) : t.frz tile m c = s.frz tile m c := by rw [State.frz, h]; rfl

theorem State.freezeChan_hrd (s : State) (tile mid chan : Nat) (x : Option (Nat × AccKind)) :
    (s.freezeChan tile mid chan x).hrd = (s.setFrz tile mid chan { frozen := true, requested := false, access := x }).hrd := by
  simp only [State.freezeChan, State.addFld, State.setFld_hrd, State.setFlag_hrd]

theorem State.frz_freezeChan (s : State) (tile mid chan : Nat) (x : Option (Nat × AccKind)) :
    (s.freezeChan tile mid chan x).frz tile mid chan = { frozen := true, requested := false, access := x } := by
  rw [State.frz, State.freezeChan_hrd]
  exact State.frz_setFrz fun h => by cases congrArg Frz.frozen h

theorem mem_freezeTargets_iff {m : Nat} {val : Word} : (mid, chan) ∈ s.freezeTargets tile m val ↔
    mid / 4 = m ∧ 4 ≤ mid ∧ chan < channels mid ∧ bitsAt val (16 * (mid % 4) + chan) 1 = 1 ∧ s.frozen tile mid chan = false := by
  have hchan : channels mid ≤ 16 := by unfold channels; split_ifs <;> decide
  unfold State.freezeTargets
  simp only [List.mem_flatMap, List.mem_filterMap, List.mem_range, Option.ite_none_right_eq_some, Bool.and_eq_true, decide_eq_true_eq, beq_iff_eq,
    Bool.not_eq_true', Option.some.injEq, Prod.mk.injEq]
  constructor
  · rintro ⟨k, hk, c, hc, ⟨⟨⟨h4, hch⟩, hbit⟩, hfrz⟩, rfl, rfl⟩
    have hmod : (4 * m + k) % 4 = k := by omega
    exact ⟨by omega, h4, hch, by rwa [hmod], hfrz⟩
  · rintro ⟨rfl, h4, hch, hbit, hfrz⟩
    have hmid : 4 * (mid / 4) + mid % 4 = mid := Nat.div_add_mod mid 4
    exact ⟨mid % 4, Nat.mod_lt _ (by decide), chan, by omega, by rw [hmid]; exact ⟨⟨⟨h4, hch⟩, hbit⟩, hfrz⟩, hmid, rfl⟩

/-- Registers of one block of a die other than TKO, PGT, FTL and PAR, at different offsets. -/
theorem regKey_ne_at {die o o' : Nat} (h : o ≠ o') : regKey die 0x3d o ≠ regKey die 0x3d o' := by
  have hdie (x : Nat) : homeDie die 0x3d x = die := rfl
  rw [regKey, regKey, hdie, hdie]
  omega

/-- A bit that is set in a register of 64 bits. -/
theorem State.bit_setFld_or {s : State} (ho : s.Ordered) (die : Nat) {f : Fld} (hlo : f.lo = 0) (hw : f.w = 64) {p : Nat} (hp : p < 64) (v : Nat) :
    (s.setFld die f (v ||| 2 ^ p)).fld die { f with lo := p, w := 1 } = 1 := by
  have hword : ((s.setFld die f (v ||| 2 ^ p)).reg die f.blk f.off).toNat = (v ||| 2 ^ p) % 2 ^ 64 := by
    have h := State.fld_setFld_same ho die (f := f) (by rw [hlo, hw]) (v ||| 2 ^ p)
    rw [State.fld, hlo, hw, bitsAt, Nat.pow_zero, Nat.div_one] at h
    rw [← h, Nat.mod_eq_of_lt (BitVec.isLt _)]
  have hbit : ((v ||| 2 ^ p) % 2 ^ 64).testBit p = true := by
    rw [Nat.testBit_mod_two_pow, Nat.testBit_or, Nat.testBit_two_pow_self]
    simp [hp]
  rw [Nat.testBit_eq_decide_div_mod_eq, decide_eq_true_eq] at hbit
  show ((s.setFld die f (v ||| 2 ^ p)).reg die f.blk f.off).toNat / 2 ^ p % 2 ^ 1 = 1
  rw [hword]
  exact hbit

/-- A bit that is set in a register of the freeze block stays set when REQ_PEND is set too. -/
theorem State.bit_setReqPend {v : State} (hv : v.Ordered) {d off p : Nat} (hset : v.fld d ⟨0x3d, off, p, 1⟩ = 1) :
    (v.setFlag d Reg.FRZ_STATUS_REQ_PEND true).fld d ⟨0x3d, off, p, 1⟩ = 1 := by
  by_cases hoff : off = 0x40
  · subst hoff
    by_cases hone : p = 1
    · subst hone
      exact beq_iff_eq.1 (State.flag_setFlag_same hv d (f := Reg.FRZ_STATUS_REQ_PEND) (by decide) rfl true)
    · exact (State.fld_setFld_apart hv d (f := Reg.FRZ_STATUS_REQ_PEND) (g := ⟨0x3d, 0x40, p, 1⟩) (by decide) 1 rfl rfl
        (by simp only [Reg.FRZ_STATUS_REQ_PEND]; omega)).trans hset
  · exact (State.fld_setFld_ne hv (f := Reg.FRZ_STATUS_REQ_PEND) (g := ⟨0x3d, off, p, 1⟩) 1 (regKey_ne_at hoff)).trans hset

/-- A request reads 1 at the channel's bit, and REQ_PEND is set (R565). -/
theorem State.requestFreeze_reads (ho : s.Ordered) (hc : chan < 16) :
    let t := s.requestFreeze tile mid chan
    t.frz tile mid chan = { s.frz tile mid chan with requested := true } ∧ t.flag (dieC tile) Reg.FRZ_STATUS_REQ_PEND = true ∧
    bitsAt (t.reg (dieC tile) Reg.FRZ_F_FROZEN.blk (Reg.FRZ_F_FROZEN.off + 8 * (mid / 4))) (16 * (mid % 4) + chan) 1 = 1 := by
  intro t
  have hu : (s.setFrz tile mid chan { s.frz tile mid chan with requested := true }).Ordered := ho
  have hfrz : t.hrd = (s.setFrz tile mid chan { s.frz tile mid chan with requested := true }).hrd := by
    simp only [t, State.requestFreeze, State.setFld_hrd, State.setFlag_hrd]
  have hfrzAt := State.frz_setFrz (s := s) (tile := tile) (mid := mid) (chan := chan) (f := { s.frz tile mid chan with requested := true })
    fun h => by cases congrArg Frz.requested h
  obtain ⟨v, hv, ht, hset⟩ : ∃ v : State, v.Ordered ∧ t = v.setFlag (dieC tile) Reg.FRZ_STATUS_REQ_PEND true ∧
      v.fld (dieC tile) ⟨0x3d, 0 + 8 * (mid / 4), 16 * (mid % 4) + chan, 1⟩ = 1 :=
    ⟨_, State.ordered_setFld hu .., rfl, State.bit_setFld_or hu (dieC tile) (f := Reg.FRZ_F_FROZEN.plus (8 * (mid / 4))) rfl rfl
      (show frzBit mid chan < 64 by unfold frzBit; omega) _⟩
  refine ⟨?_, ?_, ?_⟩
  · rw [State.frz, hfrz]
    exact hfrzAt
  · rw [ht]
    exact State.flag_setFlag_same hv (dieC tile) (f := Reg.FRZ_STATUS_REQ_PEND) (by decide) rfl true
  · rw [ht]
    exact State.bit_setReqPend hv hset

/-- A channel that reached its boundary is frozen (R565). -/
theorem exec_channelFrozen (h : (s.frz tile mid chan).requested = true) :
    let u := s.freezeChan tile mid chan none
    exec (.channelFrozen tile mid chan) s = .next (u.setFlag (dieC tile) Reg.FRZ_STATUS_REQ_PEND (u.freezePending tile)) := if_pos h

/-! ## Window faults (R561, R564) -/

theorem State.logFault_eq (s : State) (tile : Nat) (f : FaultRec) :
    let l := s.hrd.log.getD tile []
    let u := s.addFld (dieC tile) Reg.WIN_FCNT_FAULTS 1
    (l.length < 16 → s.logFault tile f = u.setLog tile (l ++ [f])) ∧ (16 ≤ l.length → s.logFault tile f = u.addFld (dieC tile) Reg.WIN_FCNT_DROPPED 1) :=
  ⟨fun h => if_pos h, fun h => if_neg (Nat.not_lt.2 h)⟩

theorem State.log_logFault (s : State) (tile : Nat) (f : FaultRec) : (s.logFault tile f).hrd.log.getD tile [] =
    if (s.hrd.log.getD tile []).length < 16 then s.hrd.log.getD tile [] ++ [f] else s.hrd.log.getD tile [] := by
  obtain ⟨hlogged, hdropped⟩ := s.logFault_eq tile f
  split
  next h => rw [hlogged h]; exact SMap.getD_putD (List.append_ne_nil_of_right_ne_nil _ (List.cons_ne_nil f [])) ..
  next h =>
    rw [hdropped (Nat.not_lt.1 h)]
    simp only [State.addFld, State.setFld_hrd]

theorem State.postWinfault_hrd (s : State) (tile : Nat) (f : FaultRec) : ∃ x, (s.postWinfault tile f).hrd = { s.hrd with rings := x } := by
  obtain ⟨r, m, x, h⟩ := s.tryPost_postOnly tile (s.fld (dieC tile) Reg.FRZ_CTRL_RING) (s.msgOf tile 13 (.winfault f))
  exact ⟨x, congrArg State.hrd h⟩

/-- A window fault freezes its channel with the access to make again, and is logged (R561, R564). -/
theorem State.channelFault_reads (s : State) (tile mid chan addr cause : Nat) (k : AccKind) :
    let t := s.channelFault tile mid chan addr k cause
    let f : FaultRec := { mid := mid, chan := chan, addr := addr, kind := k, cause := cause, time := s.stamp (dieC tile) 11 }
    let l := s.hrd.log.getD tile []
    t.frz tile mid chan = { frozen := true, requested := false, access := some (addr, k) } ∧
    t.hrd.log.getD tile [] = (if l.length < 16 then l ++ [f] else l) := by
  intro t f l
  let u := s.freezeChan tile mid chan (some (addr, k))
  obtain ⟨x, ht⟩ : ∃ x, t.hrd = { (u.logFault tile f).hrd with rings := x } := State.postWinfault_hrd _ tile f
  obtain ⟨r, l', hu⟩ := u.logFault_only tile f
  have hfrz : t.hrd.frz = u.hrd.frz := by rw [ht, hu]
  refine ⟨(State.frz_congr hfrz mid chan).trans (s.frz_freezeChan ..), ?_⟩
  rw [ht]
  refine (u.log_logFault tile f).trans ?_
  rw [s.freezeChan_hrd]
  rfl

/-! ## Thawing (R562, R566) -/

section

variable (hf : s.frozen tile mid chan = true) (hh : s.flag (dieC tile) Reg.FRZ_STATUS_HEAD = false)
include hf hh

theorem State.thaw_frozen (abort : Bool) : s.thaw tile mid chan abort =
    let u := s.unfreeze tile mid chan
    if mid = 12 then (if u.flag (dieC tile) Reg.RPL_CTRL_EN then u.capStart tile else u)
    else if mid = 13 then u.resumeRings tile
    else if mid = 14 then u.thawDma tile chan abort
    else if 4 ≤ mid ∧ mid ≤ 9 ∧ !abort then
      match (s.frz tile mid chan).access with
      | some (a, k) => match u.windowFault tile mid a k with
        | some c => u.channelFault tile mid chan a k c
        | none => u
      | none => u
    else u := by
  unfold State.frozen at hf
  exact if_neg (by simp [hf, hh])

theorem State.thaw_unit (abort : Bool) :
    let u := s.unfreeze tile mid chan
    (mid = 10 ∨ mid = 11 → s.thaw tile mid chan abort = u) ∧
    (mid = 12 → s.thaw tile mid chan abort = if u.flag (dieC tile) Reg.RPL_CTRL_EN then u.capStart tile else u) ∧
    (mid = 13 → s.thaw tile mid chan abort = u.resumeRings tile) := by
  intro u
  rw [State.thaw_frozen hf hh]
  refine ⟨fun hm => ?_, fun hm => if_pos hm, fun hm => ?_⟩
  · refine (if_neg (by omega)).trans ((if_neg (by omega)).trans ((if_neg (by omega)).trans (if_neg fun h => ?_)))
    omega
  · exact (if_neg (by omega)).trans (if_pos hm)

theorem State.thaw_lane (h4 : 4 ≤ mid) (h9 : mid ≤ 9) :
    let u := s.unfreeze tile mid chan
    s.thaw tile mid chan true = u ∧ ((s.frz tile mid chan).access = none → s.thaw tile mid chan false = u) ∧
    (∀ a k, (s.frz tile mid chan).access = some (a, k) → s.thaw tile mid chan false = match u.windowFault tile mid a k with
      | none => u
      | some c => u.channelFault tile mid chan a k c) := by
  intro u
  have hlane {x y z w : State} : (if mid = 12 then x else if mid = 13 then y else if mid = 14 then z else w) = w := by
    rw [if_neg (by omega), if_neg (by omega), if_neg (by omega)]
  refine ⟨?_, fun ha => ?_, fun a k ha => ?_⟩
  · rw [State.thaw_frozen hf hh]
    exact hlane.trans (if_neg (by simp))
  · rw [State.thaw_frozen hf hh]
    refine hlane.trans ((if_pos ⟨h4, h9, rfl⟩).trans ?_)
    rw [ha]
  · rw [State.thaw_frozen hf hh]
    refine hlane.trans ((if_pos ⟨h4, h9, rfl⟩).trans ?_)
    rw [ha]
    cases hw : u.windowFault tile mid a k with
    | none => simp only [u, hw]
    | some c => simp only [u, hw]

end

/-- A thaw clears the freeze of its channel and no other (R562). -/
theorem State.unfreeze_reads (hr : s.hrd.frz.rising = true) :
    let u := s.unfreeze tile mid chan
    u.frz tile mid chan = { frozen := false, requested := false, access := none } ∧ u.mem = s.mem ∧ u.hrd.dma = s.hrd.dma ∧
    ∀ m c, c < 16 → m < 16 → chan < 16 → mid < 16 → (m, c) ≠ (mid, chan) → u.frz tile m c = s.frz tile m c := by
  intro u
  have hhrd : u.hrd = (s.setFrz tile mid chan .none).hrd := by simp only [u, State.unfreeze, State.setFld_hrd, State.setFlag_hrd]
  refine ⟨?_, by simp only [u, State.unfreeze, State.setFld_mem, State.setFlag_mem]; rfl, by rw [hhrd]; rfl, fun m c hc hm hc' hm' hne => ?_⟩
  · rw [State.frz, hhrd]
    exact SMap.getD_putD_same_of_rising (m := s.hrd.frz) hr (chanKey tile mid chan) Frz.none Frz.none
  · rw [State.frz, hhrd]
    have hkey : chanKey tile m c ≠ chanKey tile mid chan := fun h => by
      simp only [chanKey] at h
      exact hne (Prod.mk.injEq .. ▸ ⟨by omega, by omega⟩)
    exact SMap.getD_putD_ne_of_rising (m := s.hrd.frz) hr hkey Frz.none Frz.none

/-- A read of WIN_FAULT takes the oldest record (R566). -/
theorem exec_winFaultRead {who : Requester} (h : (s.checkAccess who (dieC tile * 2 ^ 32 + 0x39 * 2 ^ 24 + 0x120) 8 .read).1 = true) :
    let addr := dieC tile * 2 ^ 32 + 0x39 * 2 ^ 24 + 0x120
    let v := (s.checkAccess who addr 8 .read).2
    exec (.winFaultRead who tile) s = .next (match v.hrd.log.getD tile [] with
      | [] => v.readDone who addr 0
      | f :: rest => ((v.setLog tile rest).setFld (dieC tile) Reg.WIN_FTIME_TIME f.time).readDone who addr (BitVec.ofNat 64 f.word)) := by
  intro addr v
  refine (if_pos h).trans (congrArg _ ?_)
  show v.popLog who tile = _
  unfold State.popLog State.dropFault
  cases v.hrd.log.getD tile [] <;> rfl

end

end Sys2Proof.Machine
end

section
/-! The DMA engine and cache maintenance (R555, R556, R562, R573). -/

namespace Sys2Proof.Machine

open Sys2Proof

/-! ## Descriptors (R573) -/

section

variable {s : State}

/-- A descriptor that goes on ends, or stops at the fault that is met first, with its channel's other descriptors before it. -/
theorem State.runDma_eq (s : State) (tile chan : Nat) (l : List DmaJob) (j : DmaJob) :
    (match s.runDma tile j with
      | (t, j, none) => t.setDma tile chan (l ++ [j])
      | (t, j, some (a, k, c)) => (t.setDma tile chan (l ++ [j])).channelFault tile 14 chan a k c) = s.dmaRan tile chan l j := by
  unfold State.runDma State.dmaRan State.dmaStop
  dsimp only
  generalize (if j.op = 1 then s.rangeFault tile 14 (j.d.src + j.done) (j.total - j.done) .read else none) = rd
  generalize s.rangeFault tile 14 (j.d.dst + j.done) (j.total - j.done) .write = wr
  cases rd with
  | none => cases wr <;> rfl
  | some x => cases wr with
    | none => rfl
    | some y =>
      dsimp only [Option.map_some]
      by_cases h : x.1 - (j.d.src + j.done) ≤ y.1 - (j.d.dst + j.done)
      · simp only [if_pos h]
      · simp only [if_neg h]

theorem State.takeDma_taken {d : DmaDesc} (h : DmaTakes s d) (op : Nat) (fits : Bool) (buf : Option Bytes) :
    s.takeDma op d fits buf = if !d.ok || !fits then s.endDma d op 3 else match buf with
      | none => s.endDma d op 2
      | some b => s.dmaRan d.tile d.chan (s.hrd.dma.getD (dmaKey d.tile d.chan) []) (newJob op d b 0) := by
  obtain ⟨htile, hchan, hfrozen, hheld⟩ := h
  have hany : (s.hrd.dma.getD (dmaKey d.tile d.chan) []).any DmaJob.held = false := by
    rw [List.any_eq_false]
    exact fun j hj => by simp [hheld j hj]
  unfold State.takeDma
  rw [if_neg (by simp [State.hasTile, htile, hchan, hfrozen, hany])]
  split
  · rfl
  · cases buf with
    | none => rfl
    | some b => exact State.runDma_eq s d.tile d.chan _ (newJob op d b 0)

theorem DmaDesc.ok_iff (d : DmaDesc) : d.ok = true ↔ 1 ≤ d.cls ∧ d.cls ≤ 7 ∧ 1 ≤ d.len ∧ d.len ≤ 2 ^ 24 ∧ d.reservedOk = true := by
  simp [DmaDesc.ok, and_assoc]

theorem exec_dma_malformed {d : DmaDesc} (h : DmaTakes s d) (hok : d.ok = false) :
    let ends := fun (op status : Nat) =>
      (.next (s.setDma d.tile d.chan (s.hrd.dma.getD (dmaKey d.tile d.chan) [] ++ [newJob op d [] status])) : Res)
    exec (.dmaCopy d) s = ends 1 3 ∧ exec (.dmaFill d) s = ends 2 3 ∧ (∀ p, exec (.dmaReadPage d p) s = ends 3 3) ∧
      ∀ m p, exec (.dmaReadPack d m p) s = ends 4 3 := by
  have hbad (op : Nat) (fits : Bool) (buf : Option Bytes) : s.takeDma op d fits buf = s.endDma d op 3 :=
    (State.takeDma_taken h op fits buf).trans (if_pos (by simp [hok]))
  refine ⟨congrArg _ (hbad ..), congrArg _ (hbad ..), fun p => congrArg _ (hbad ..), fun m p => ?_⟩
  cases p with
  | none => exact congrArg _ (hbad ..)
  | some p => exact congrArg _ (hbad ..)

theorem exec_dma_wellFormed {d : DmaDesc} (h : DmaTakes s d) (hok : d.ok = true) :
    let l := s.hrd.dma.getD (dmaKey d.tile d.chan) []
    let ends := fun (op status : Nat) => (.next (s.setDma d.tile d.chan (l ++ [newJob op d [] status])) : Res)
    let moves := fun (op : Nat) (b : Bytes) => (.next (s.dmaRan d.tile d.chan l (newJob op d b 0)) : Res)
    exec (.dmaCopy d) s = moves 1 [] ∧
      exec (.dmaFill d) s = moves 2 ((List.range d.len).map fun i => BitVec.ofNat 8 (d.src / 256 ^ (i % 8))) ∧
      exec (.dmaReadPage d none) s = ends 3 2 ∧ (∀ p, exec (.dmaReadPage d (some p)) s = moves 3 (padTo 4096 p)) ∧
      (∀ m, exec (.dmaReadPack d m none) s = ends 4 2) ∧
      (∀ m n b, m < n → d.len ≤ b.length / n →
        exec (.dmaReadPack d m (some (n, b))) s = moves 4 ((b.drop (m * (b.length / n))).take d.len)) ∧
      (∀ m n b, n ≤ m ∨ b.length / n < d.len → exec (.dmaReadPack d m (some (n, b))) s = ends 4 3) := by
  intro l ends moves
  have hfits (op : Nat) (buf : Option Bytes) {fits : Bool} (hf : fits = true) : (.next (s.takeDma op d fits buf) : Res) =
      .next (match buf with
        | none => s.endDma d op 2
        | some b => s.dmaRan d.tile d.chan l (newJob op d b 0)) :=
    congrArg _ ((State.takeDma_taken h op fits buf).trans (if_neg (by simp [hok, hf])))
  refine ⟨hfits 1 (some []) rfl, hfits 2 (some _) rfl, hfits 3 none rfl, fun p => hfits 3 (some _) rfl, fun m => hfits 4 none rfl,
    fun m n b hm hl => hfits 4 (some _) (by simp [hm, hl]), fun m n b hbad => ?_⟩
  refine congrArg _ ((State.takeDma_taken h ..).trans (if_pos ?_))
  simp only [hok, Bool.not_true, Bool.false_or, Bool.not_eq_true', Bool.and_eq_false_iff, decide_eq_false_iff_not]
  omega

theorem exec_dmaDone {tile chan : Nat} {j : DmaJob} {rest : List DmaJob} (hl : s.hrd.dma.getD (dmaKey tile chan) [] = j :: rest)
    (hj : j.held = false) : exec (.dmaDone tile chan) s =
      .next ((s.setDma tile chan rest).post tile (j.d.ring % 4096) 14 (.dmaDone j.d.tag j.status j.done)) := by
  show execDmaDone tile chan s = _
  unfold execDmaDone
  rw [hl]
  exact if_neg (by simp [hj])

/-! ## A thaw of a DMA channel (R562) -/

theorem State.thawDma_free {tile chan : Nat} (h : ∀ j ∈ s.hrd.dma.getD (dmaKey tile chan) [], j.held = false) (abort : Bool) :
    s.thawDma tile chan abort = s := by
  unfold State.thawDma
  dsimp only
  cases hl : (s.hrd.dma.getD (dmaKey tile chan) []).reverse with
  | nil => rfl
  | cons j front =>
    have hj : j ∈ s.hrd.dma.getD (dmaKey tile chan) [] := List.mem_reverse.1 (hl ▸ List.mem_cons_self)
    exact if_pos (by simp [h j hj])

theorem State.thawDma_held {tile chan : Nat} {front : List DmaJob} {j : DmaJob} (hl : s.hrd.dma.getD (dmaKey tile chan) [] = front ++ [j])
    (hj : j.held = true) : s.thawDma tile chan false = s.dmaRan tile chan front j ∧
      s.thawDma tile chan true = s.setDma tile chan (front ++ [{ j with held := false, status := 1 }]) := by
  have hrev : (front ++ [j]).reverse = j :: front.reverse := by simp
  unfold State.thawDma
  dsimp only
  rw [hl, hrev]
  refine ⟨(if_neg (by simp [hj])).trans ((if_neg Bool.false_ne_true).trans ?_), (if_neg (by simp [hj])).trans ((if_pos rfl).trans ?_)⟩
  · rw [List.reverse_reverse]
    exact State.runDma_eq s tile chan front j
  · rw [List.reverse_reverse]

theorem exec_thaw_dma {tile chan : Nat} (hf : s.frozen tile 14 chan = true) (hh : s.flag (dieC tile) Reg.FRZ_STATUS_HEAD = false) :
    let u := s.unfreeze tile 14 chan
    let l := s.hrd.dma.getD (dmaKey tile chan) []
    ((∀ j ∈ l, j.held = false) → exec (.thawResume tile 14 chan) s = .next u ∧ exec (.thawAbort tile 14 chan) s = .next u) ∧
    (∀ front j, l = front ++ [j] → j.held = true → exec (.thawResume tile 14 chan) s = .next (u.dmaRan tile chan front j) ∧
      exec (.thawAbort tile 14 chan) s = .next (u.setDma tile chan (front ++ [{ j with held := false, status := 1 }]))) := by
  intro u l
  have hdma : u.hrd.dma = s.hrd.dma := by simp only [u, State.unfreeze, State.setFld_hrd, State.setFlag_hrd]; rfl
  have hthaw (abort : Bool) : s.thaw tile 14 chan abort = u.thawDma tile chan abort := State.thaw_frozen hf hh abort
  have hresume : exec (.thawResume tile 14 chan) s = .next (u.thawDma tile chan false) := congrArg _ (hthaw false)
  have habort : exec (.thawAbort tile 14 chan) s = .next (u.thawDma tile chan true) := congrArg _ (hthaw true)
  rw [hresume, habort]
  refine ⟨fun hfree => ?_, fun front j hl hj => ?_⟩
  · rw [State.thawDma_free (hdma ▸ hfree), State.thawDma_free (hdma ▸ hfree)]
    exact ⟨rfl, rfl⟩
  · obtain ⟨hgo, hgive⟩ := State.thawDma_held (s := u) (tile := tile) (chan := chan) ((congrArg (SMap.getD · (dmaKey tile chan) []) hdma).trans hl) hj
    exact ⟨congrArg _ hgo, congrArg _ hgive⟩

end

/-! ## Cache maintenance (R555, R556) -/

section

variable {s : State} {tile : Nat}

/-- Lines of the range written back, the dirty ones. -/
def State.wroteBack (s : State) (tile : Nat) (wb : Bool) : State :=
  if wb then (s.hrd.cache.filter fun kv => s.inCmt tile kv.1).foldl (fun t kv => if kv.2.2 then t.store kv.1 kv.2.1 else t) s else s

/-- The caches after the lines of the range were dropped, or marked clean. -/
def State.cachesAfter (s : State) (tile : Nat) (drop : Bool) : SMap (Byte × Bool) :=
  if drop then s.hrd.cache.keep fun k _ => !s.inCmt tile k else s.hrd.cache.mapV fun k v => if s.inCmt tile k then (v.1, false) else v

theorem State.inCmt_iff (s : State) (tile a : Nat) : s.inCmt tile a = true ↔
    s.fld (dieC tile) Reg.CMT_LO_ADDR ≤ a / 64 * 64 ∧ a / 64 * 64 ≤ s.fld (dieC tile) Reg.CMT_HI_ADDR := by
  simp [State.inCmt]

/-- Stores of listed dirty bytes: each byte listed is in memory after them, every other address reads as before. -/
theorem State.load_foldl_store {l : List (Nat × Byte × Bool)} (hl : l.Pairwise fun x y => x.1 < y.1) {t : State} (ht : Memory.wf t.mem = true) :
    let u := l.foldl (fun t kv => if kv.2.2 then t.store kv.1 kv.2.1 else t) t
    (∃ m, u = { t with mem := m }) ∧ (∀ a b, (a, b, true) ∈ l → u.load a = b) ∧ ∀ a, (∀ b, (a, b, true) ∉ l) → u.load a = t.load a := by
  induction l generalizing t with
  | nil => exact ⟨⟨_, rfl⟩, nofun, fun _ _ => rfl⟩
  | cons x l ih =>
    obtain ⟨hx, hrest⟩ := List.pairwise_cons.1 hl
    obtain ⟨a, b, dirty⟩ := x
    rw [List.foldl_cons]
    cases dirty with
    | false =>
      obtain ⟨hmem, hin, hout⟩ := ih hrest ht
      refine ⟨hmem, fun c d hc => hin c d ?_, fun c hc => hout c fun d hd => hc d (.tail _ hd)⟩
      rcases List.mem_cons.1 hc with heq | hc
      · cases heq
      · exact hc
    | true =>
      have ht' : Memory.wf (t.store a b).mem = true := Memory.wf_put ht a b
      obtain ⟨⟨m, hmem⟩, hin, hout⟩ := ih hrest ht'
      refine ⟨⟨m, hmem⟩, fun c d hc => ?_, fun c hc => (hout c fun d hd => hc d (.tail _ hd)).trans ?_⟩
      · rcases List.mem_cons.1 hc with heq | hc
        · cases heq
          exact (hout a fun d hd => Nat.lt_irrefl a (hx (a, d, true) hd)).trans (SMap.getD_putD_same ht a b)
        · exact hin c d hc
      · exact SMap.getD_putD_ne ht (fun hca : c = a => hc b (by rw [hca]; exact .head _)) b

/-- A write of CMT_CMD while no operation runs (R555). -/
theorem State.cmt_idle (ht : tile < s.variant.tiles) (hb : s.flag (dieC tile) Reg.CMT_STATUS_BUSY = false) (wb drop : Bool) :
    s.cmt tile wb drop = ({ s.wroteBack tile wb with
      hrd := { (s.wroteBack tile wb).hrd with cache := s.cachesAfter tile drop } } : State).setFlag (dieC tile) Reg.CMT_STATUS_BUSY true := by
  unfold State.cmt
  dsimp only
  rw [if_neg (by simp [State.hasTile, ht]), if_neg (by simp [hb])]
  rfl

theorem State.cmt_busy (ht : tile < s.variant.tiles) (hb : s.flag (dieC tile) Reg.CMT_STATUS_BUSY = true) (wb drop : Bool) :
    s.cmt tile wb drop = s.setFlag (dieC tile) Reg.CMT_STATUS_LOST true := by
  unfold State.cmt
  dsimp only
  rw [if_neg (by simp [State.hasTile, ht]), if_pos hb]

/-- What the lines of the range and the others hold after an operation (R555). -/
theorem State.find?_cachesAfter (hc : s.hrd.cache.rising = true) (a : Nat) :
    (s.inCmt tile a = true → (s.cachesAfter tile true).find? a = none ∧
      (s.cachesAfter tile false).find? a = (s.hrd.cache.find? a).map fun x => (x.1, false)) ∧
    (s.inCmt tile a = false → ∀ drop, (s.cachesAfter tile drop).find? a = s.hrd.cache.find? a) := by
  have hkept : (s.cachesAfter tile true).find? a = if !s.inCmt tile a then s.hrd.cache.find? a else none :=
    SMap.find?_keep ((SMap.rising_iff _).1 hc) (fun k => !s.inCmt tile k) a
  have hclean : (s.cachesAfter tile false).find? a = (s.hrd.cache.find? a).map fun v => if s.inCmt tile a then (v.1, false) else v :=
    SMap.find?_mapV s.hrd.cache (fun k v => if s.inCmt tile k then (v.1, false) else v) a
  refine ⟨fun h => ⟨by rw [hkept, h]; rfl, by rw [hclean, h]; rfl⟩, fun h drop => ?_⟩
  cases drop with
  | true => rw [hkept, h]; rfl
  | false => rw [hclean, h]; exact Option.map_id' ..

/-- What a write back leaves in memory (R555). -/
theorem State.wroteBack_reads (hm : Memory.wf s.mem = true) (hc : s.hrd.cache.rising = true) (wb : Bool) :
    (∃ m, s.wroteBack tile wb = { s with mem := m }) ∧
    ∀ a, (∀ b, s.hrd.cache.find? a = some (b, true) → s.inCmt tile a = true → wb = true → (s.wroteBack tile wb).load a = b) ∧
      ((∀ b, s.hrd.cache.find? a ≠ some (b, true)) ∨ s.inCmt tile a = false ∨ wb = false → (s.wroteBack tile wb).load a = s.load a) := by
  cases wb with
  | false => exact ⟨⟨_, rfl⟩, fun a => ⟨nofun, fun _ => rfl⟩⟩
  | true =>
    have hl : (s.hrd.cache.filter fun kv => s.inCmt tile kv.1).Pairwise fun x y => x.1 < y.1 := ((SMap.rising_iff _).1 hc).filter _
    obtain ⟨hmem, hin, hout⟩ := State.load_foldl_store hl hm
    refine ⟨hmem, fun a => ⟨fun b hb hr _ => hin a b (List.mem_filter.2 ⟨SMap.mem_of_find? hb, hr⟩), fun h => hout a fun b hb => ?_⟩⟩
    obtain ⟨hlisted, hr⟩ := List.mem_filter.1 hb
    obtain hclean | hbeyond | hno := h
    · exact hclean b (SMap.find?_of_mem hc hlisted)
    · exact Bool.false_ne_true (hbeyond.symm.trans hr)
    · cases hno

end

/-- Settles O54: what a freeze and a thaw change (`State.thaw_frozen`), a descriptor's run (`State.runDma_eq`), and the caches' lines. -/
theorem freezesThawsDmaAndCaches : Obligations.FreezesThawsDmaAndCaches := by
  unfold Obligations.FreezesThawsDmaAndCaches
  refine ⟨fun s tile m val ht hm => ⟨if_neg (by simp [State.hasTile, ht, hm]), fun mid chan => mem_freezeTargets_iff⟩,
    fun s tile mid chan ho hc => State.requestFreeze_reads ho hc,
    fun s tile mid chan h => ⟨exec_channelFrozen h, s.frz_freezeChan ..⟩,
    fun s tile mid chan addr cause k => ?fault, fun s tile f => s.logFault_eq tile f,
    fun s tile mid chan c hc hf hh => ?unit, fun s tile mid chan hf hh h4 h9 => ?lane,
    fun s tile chan hf hh => exec_thaw_dma hf hh, fun s tile mid chan hr => State.unfreeze_reads hr,
    fun s who tile => exec_winFaultRead,
    fun s d h => ⟨exec_dma_malformed h, exec_dma_wellFormed h, d.ok_iff⟩,
    fun s tile chan j rest hl hj => exec_dmaDone hl hj, fun s tile c ht hb hc => ?busy,
    fun s tile c wb drop ht hb hm hr hc => ?cmt, fun s tile hb => if_pos hb⟩
  case fault =>
    obtain ⟨hfrz, hlog⟩ := s.channelFault_reads tile mid chan addr cause k
    exact ⟨hfrz, hlog, rfl⟩
  case unit =>
    have hthaw (abort : Bool) := State.thaw_unit hf hh abort
    rcases List.mem_cons.1 hc with rfl | hc
    · obtain ⟨hplain, hcap, hring⟩ := hthaw false
      exact ⟨fun h => congrArg _ (hplain h), fun h => congrArg _ (hcap h), fun h => congrArg _ (hring h)⟩
    · obtain rfl := List.mem_singleton.1 hc
      obtain ⟨hplain, hcap, hring⟩ := hthaw true
      exact ⟨fun h => congrArg _ (hplain h), fun h => congrArg _ (hcap h), fun h => congrArg _ (hring h)⟩
  case lane =>
    obtain ⟨habort, hnone, hagain⟩ := State.thaw_lane hf hh h4 h9
    exact ⟨congrArg _ habort, fun ha => congrArg _ (hnone ha), fun a k ha => congrArg _ (hagain a k ha)⟩
  case busy =>
    simp only [List.mem_cons, List.not_mem_nil, or_false] at hc
    rcases hc with rfl | rfl | rfl <;> exact congrArg _ (State.cmt_busy ht hb _ _)
  case cmt =>
    have hexec : exec c s = .next (s.cmt tile wb drop) := by
      simp only [List.mem_cons, List.not_mem_nil, or_false, Prod.mk.injEq] at hc
      rcases hc with ⟨rfl, rfl, rfl⟩ | ⟨rfl, rfl, rfl⟩ | ⟨rfl, rfl, rfl⟩ <;> rfl
    obtain ⟨⟨m, hmem⟩, hload⟩ := State.wroteBack_reads (tile := tile) hm hr wb
    refine ⟨_, hexec.trans (congrArg _ (State.cmt_idle ht hb wb drop)), by rw [hmem], fun a => ?_⟩
    intro within
    have hin : s.inCmt tile a = true ↔ within := s.inCmt_iff tile a
    have hout : ¬ within ↔ s.inCmt tile a = false := by rw [← hin, Bool.not_eq_true]
    obtain ⟨hback, hstays⟩ := hload a
    obtain ⟨hdropped, hother⟩ := State.find?_cachesAfter (tile := tile) hr a
    refine ⟨fun b hb hw => hback b hb (hin.2 hw), fun h => hstays (h.imp_right (Or.imp_left hout.1)), fun hw hd => ?_, fun hw hd => ?_,
      fun hw => hother (hout.1 hw) drop⟩
    · subst hd
      exact (hdropped (hin.2 hw)).1
    · subst hd
      exact (hdropped (hin.2 hw)).2

end Sys2Proof.Machine
end

section
/-! Rings, ticks and watchdogs of the tiles (R568 to R572, R575, R580). -/

namespace Sys2Proof.Machine

open Sys2Proof

/-! ## A register above one that is written -/

/-- Erasing a key leaves the keys above it, whether the map is in order or not. -/
theorem find?_erase_above {V : Type} (m : SMap V) {a b : Nat} (hab : a < b) : (SMap.erase m a).find? b = SMap.find? m b := by
  induction m with
  | nil => rfl
  | cons y m ih =>
    obtain ⟨k, v⟩ := y
    simp only [SMap.erase]
    split
    next heq => subst heq; simp only [SMap.find?, if_neg hab.ne', if_neg (Nat.lt_asymm hab)]
    next hne =>
      split
      · rfl
      · simp only [SMap.find?, ih]

theorem State.flag_setFld_above {s : State} {d : Nat} {f g : Fld} (h : regKey d f.blk f.off < regKey d g.blk g.off) (v : Nat) :
    (s.setFld d f v).flag d g = s.flag d g := by
  have hfind : (s.setFld d f v).regs.find? (regKey d g.blk g.off) = s.regs.find? (regKey d g.blk g.off) := by
    unfold State.setFld State.setReg SMap.putD
    dsimp only
    split
    · exact find?_erase_above _ h
    · exact find?_insert_other _ h.ne' _
  have hreg : (s.setFld d f v).reg d g.blk g.off = s.reg d g.blk g.off := by
    unfold State.reg SMap.getD
    rw [hfind]
    rfl
  unfold State.flag State.fld
  rw [hreg]

/-! ## Rings (R568, R570, R571, R580) -/

section

variable {s : State} {tile cluster core r : Nat}

theorem State.ringCapture_congr {t : State} (h : t.active = s.active) : t.ringCapture tile r = s.ringCapture tile r := by
  unfold State.ringCapture State.tblFlag State.tblFld State.tbl
  rw [h]

theorem execRingConsume_works (h : RingWorks s tile cluster r 0) (cons : Nat) :
    let c := cluster * 8 + core
    let f := Reg.HRD_RING_CONS.plus (8 * r)
    let x := s.ring tile r
    let n := (cons + 2 ^ 20 - s.fld (dieC tile) f) % 2 ^ 20
    let u := (s.setRing tile r { x with msgs := x.msgs.drop n }).setFld (dieC tile) f cons
    let att := fun (t : State) (m : RingMsg) => match m.attach with
      | some (a, len) => t.capture tile (.att c (t.loads a (min len 4096)))
      | none => t
    (s.replaying tile = false → exec (.ringConsume tile cluster core r cons) s = .next (State.drainRing
      (if s.ringCapture tile r then (x.msgs.take n).foldl att (u.capture tile (.msg c r (x.msgs.take n))) else u) tile r (x.waiting.length + 1))) ∧
    (s.replaying tile = true → exec (.ringConsume tile cluster core r cons) s = .next ((s.deliverReplay tile c r).setFld (dieC tile) f cons)) := by
  obtain ⟨htile, hr, hvalid, hdir, hstop⟩ := h
  have hworks : ¬ (!s.hasTile tile || decide (4096 ≤ r) || !s.ringValid tile r || s.ringDir tile r != 0 || s.clusterStopped tile cluster) = true := by
    simp [State.hasTile, htile, hr, hvalid, hdir, State.clusterStopped, hstop]
  intro c f x n u att
  have hcap : u.ringCapture tile r = s.ringCapture tile r := State.ringCapture_congr (by simp only [u, State.setFld_active, State.setRing_active])
  refine ⟨fun hrep => ?_, fun hrep => ?_⟩ <;> show execRingConsume tile cluster core r cons s = _ <;> unfold execRingConsume <;>
    rw [if_neg hworks]
  · dsimp only
    rw [if_neg (by simp [hrep]), ← hcap] <;> rfl
  · dsimp only
    rw [if_pos hrep]

theorem execRingConsume_notOwned (h : RingWorks s tile cluster r 1) (cons : Nat) : exec (.ringConsume tile cluster core r cons) s = .next s := by
  obtain ⟨-, -, -, hdir, -⟩ := h
  exact if_pos (by simp [hdir])

theorem execRingPost_notOwned (h : RingWorks s tile cluster r 0) (l : List Bytes) : exec (.ringPost tile cluster core r l) s = .next s := by
  obtain ⟨-, -, -, hdir, -⟩ := h
  exact if_pos (by simp [hdir])

theorem State.writeSlots_only (s : State) (tile r p : Nat) (l : List Bytes) : ∃ m, s.writeSlots tile r p l = { s with mem := m } :=
  List.foldlRecOn (motive := fun t => ∃ m, t = { s with mem := m }) _ _ ⟨_, rfl⟩ fun _ ⟨_, ht⟩ ib _ => by
    obtain ⟨m, hm⟩ := State.stores_only _ _ ib.2
    exact ⟨m, hm.trans (by rw [ht])⟩

/-- PROD of a ring lies below the capture's registers. -/
theorem ringProd_below (tile : Nat) {r : Nat} (hr : r < 4096) (f : Fld) (hf : f.blk = 0x3c) :
    regKey (dieC tile) (Reg.HRD_RING_PROD.plus (8 * r)).blk (Reg.HRD_RING_PROD.plus (8 * r)).off < regKey (dieC tile) f.blk f.off := by
  have hprod (o : Nat) : homeDie (dieC tile) 0x38 o = dieC tile := rfl
  have hcap (o : Nat) : homeDie (dieC tile) 0x3c o = dieC tile := rfl
  simp only [Fld.plus, Reg.HRD_RING_PROD, regKey, hf, hprod, hcap]
  omega

/-- An answer by cases of the record taken is the next state by those cases. -/
theorem next_replayed (diverge : State → State) (q : Option (CapRec × State)) (t : State) (r : Nat) (l : List Bytes) :
    (match q with
      | some (.out _ r' sl, u) => if r' = r ∧ sl = l then (.next u : Res) else .next (diverge u)
      | some (_, u) => .next (diverge u)
      | none => .next (diverge t)) =
    .next (match q with
      | some (.out _ r' sl, v) => if r' = r ∧ sl = l then v else diverge v
      | some (_, v) => diverge v
      | none => diverge t) := by
  rcases q with _ | ⟨rec, v⟩
  · rfl
  · cases rec with
    | out _ r' sl => dsimp only; split <;> rfl
    | _ => rfl

theorem execRingPost_works (h : RingWorks s tile cluster r 1) (l : List Bytes) :
    let c := cluster * 8 + core
    let f := Reg.HRD_RING_PROD.plus (8 * r)
    let p := s.fld (dieC tile) f
    let l := l.map (padTo 64)
    let t := (s.writeSlots tile r p l).setFld (dieC tile) f (p + l.length)
    let x := t.ring tile r
    let u := t.setRing tile r (.mk (x.msgs ++ l.map fun b => { t.msgOf tile cluster (.work b) with seq := x.posted }) x.waiting (x.posted + l.length)
      x.missed x.halted)
    (s.replaying tile = false → exec (.ringPost tile cluster core r l) s =
      .next (if t.ringCapture tile r && t.flag (dieC tile) Reg.RPL_CTRL_OUT_EN then u.capture tile (.out c r l) else u)) ∧
    (s.replaying tile = true → exec (.ringPost tile cluster core r l) s = .next (if t.ringCapture tile r then
      (match t.takeReplay tile c with
        | some (.out _ r' sl, v) => if r' = r ∧ sl = l then v else v.diverge tile c
        | some (_, v) => v.diverge tile c
        | none => t.diverge tile c) else t)) := by
  obtain ⟨htile, hr, hvalid, hdir, hstop⟩ := h
  have hworks : ¬ (!s.hasTile tile || decide (4096 ≤ r) || !s.ringValid tile r || s.ringDir tile r != 1 || s.clusterStopped tile cluster) = true := by
    simp [State.hasTile, htile, hr, hvalid, hdir, State.clusterStopped, hstop]
  intro c f p l' t x u
  have hpad : l'.map (padTo 64) = l' := by
    rw [List.map_map]
    exact List.map_congr_left fun b _ => padTo_of_length (length_padTo 64 b)
  obtain ⟨m, hm⟩ := s.writeSlots_only tile r p l'
  have hcap : t.ringCapture tile r = s.ringCapture tile r := State.ringCapture_congr (by simp only [t, State.setFld_active, hm])
  have hout : t.flag (dieC tile) Reg.RPL_CTRL_OUT_EN = s.flag (dieC tile) Reg.RPL_CTRL_OUT_EN :=
    (State.flag_setFld_above (ringProd_below tile hr Reg.RPL_CTRL_OUT_EN rfl) _).trans (State.flag_congr (by rw [hm]) (by rw [hm]) _ _)
  rw [hcap, hout]
  refine ⟨fun hrep => ?_, fun hrep => ?_⟩ <;> show execRingPost tile cluster core r l' s = _ <;> unfold execRingPost <;> rw [if_neg hworks] <;>
    dsimp only <;> rw [hpad]
  · rw [if_neg (by simp [hrep])]
    split <;> rfl
  · rw [if_pos hrep]
    cases s.ringCapture tile r with
    | false => exact if_pos rfl
    | true =>
      refine (if_neg (by simp)).trans ?_
      rw [if_pos rfl]
      exact next_replayed (fun v => v.diverge tile c) (t.takeReplay tile c) t r l'

end

/-- A divergence sets DIVERGED and stops the core's cluster (R580). -/
theorem State.diverge_reads {s : State} (ho : s.Ordered) (tile core : Nat) :
    let t := s.diverge tile core
    t.flag (dieC tile) Reg.RPL_STATUS_DIVERGED = true ∧ t.hrd.stopped.getD (tile * 4 + core / 8) false = true ∧ t.mem = s.mem := by
  intro t
  obtain ⟨u, ht, hu⟩ : ∃ u : State, t = { u with hrd := { u.hrd with stopped := u.hrd.stopped.insert (tile * 4 + core / 8) true } } ∧
      u = (s.setFlag (dieC tile) Reg.RPL_STATUS_DIVERGED true).setFld (dieC tile) Reg.RPL_STATUS_CORE core := ⟨_, rfl, rfl⟩
  have hkept := (KeepsFld.refl (die := dieC tile) (f := Reg.RPL_STATUS_DIVERGED) (s.setFlag (dieC tile) Reg.RPL_STATUS_DIVERGED true)).apart
    Reg.RPL_STATUS_CORE core (by decide)
  have hset := State.flag_setFlag_same ho (dieC tile) (f := Reg.RPL_STATUS_DIVERGED) (by decide) rfl true
  have hflag : u.flag (dieC tile) Reg.RPL_STATUS_DIVERGED = true := by
    rw [hu]
    exact (hkept.flag_eq (State.ordered_setFlag ho ..)).trans hset
  refine ⟨?_, ?_, ?_⟩
  · rw [ht]
    exact (State.flag_congr rfl rfl _ _).trans hflag
  · rw [ht, SMap.getD, SMap.find?_insert]
    rfl
  · rw [ht, hu]
    simp only [State.setFld_mem, State.setFlag_mem]

/-! ## Ticks and posts (R570, R572) -/

section

variable {s : State} {tile cluster r : Nat}

theorem execTick_due (ht : tile < s.variant.tiles) (hc : cluster < 4)
    (hdue : (max 1 (s.fld (dieC tile) Reg.HRD_CTRL_TICK_US)) * 1000 ≤ s.ao.tb - s.hrd.tickAt.getD (tile * 4 + cluster) 0) :
    let u : State := { s with hrd := { s.hrd with tickAt := s.hrd.tickAt.insert (tile * 4 + cluster) s.ao.tb } }
    let r := s.fld (dieC tile) (Reg.HRD_TICK_RING.plus (8 * cluster))
    let x := s.ring tile r
    (s.ringValid tile r = false → exec (.tick tile cluster) s = .next u) ∧
    (s.ringValid tile r = true → s.ringSlots tile r ≤ x.msgs.length →
      exec (.tick tile cluster) s = .next (u.setRing tile r { x with missed := x.missed + 1 })) ∧
    (s.ringValid tile r = true → x.msgs.length < s.ringSlots tile r →
      exec (.tick tile cluster) s = .next ((u.setRing tile r { x with missed := 0 }).post tile r 0xFF (.tick x.missed))) := by
  have hgo : ¬ (!s.hasTile tile || decide (4 ≤ cluster) ||
      decide (s.since (s.hrd.tickAt.getD (tile * 4 + cluster) 0) < max 1 (s.fld (dieC tile) Reg.HRD_CTRL_TICK_US) * 1000)) = true := by
    rw [show s.hasTile tile = true from decide_eq_true ht, Bool.not_true, Bool.false_or, Bool.or_eq_true, decide_eq_true_eq, decide_eq_true_eq,
      State.since]
    omega
  intro u r x
  have hunused (hv : s.ringValid tile r = false) : (!s.ringValid tile r) = true := by rw [hv]; rfl
  have hused (hv : s.ringValid tile r = true) : ¬ (!s.ringValid tile r) = true := by simp [hv]
  exact ⟨fun hv => (if_neg hgo).trans (if_pos (hunused hv)),
    fun hv hfull => (if_neg hgo).trans ((if_neg (hused hv)).trans (if_pos hfull)),
    fun hv hroom => (if_neg hgo).trans ((if_neg (hused hv)).trans (if_neg (Nat.not_le.2 hroom)))⟩

theorem State.post_ready (hv : s.ringValid tile r = true) (hh : (s.ring tile r).halted = false) (hf : s.frozen tile 13 0 = false)
    (hw : (s.ring tile r).waiting = []) (mid : Nat) (b : RingBody) :
    let m := s.msgOf tile mid b
    let x := s.ring tile r
    let a := s.ringBase tile r + s.fld (dieC tile) (Reg.HRD_RING_PROD.plus (8 * r)) % s.ringSlots tile r * 64
    (s.ringSlots tile r ≤ x.msgs.length →
      s.post tile r mid b = (s.setRing tile r { x with waiting := [m] }).addFld (dieC tile) Reg.HRD_STATUS_FULL_WAITS 1) ∧
    (x.msgs.length < s.ringSlots tile r → s.windowFault tile 13 a .write = none →
      let n := { m with seq := x.posted }
      s.post tile r mid b = ((s.stores a n.bytes).setRing tile r (.mk (x.msgs ++ [n]) [] (x.posted + 1) x.missed false)).setFld (dieC tile)
        (Reg.HRD_RING_PROD.plus (8 * r)) (s.fld (dieC tile) (Reg.HRD_RING_PROD.plus (8 * r)) + 1)) := by
  intro m x a
  have hready : ¬ (!s.ringValid tile r || x.halted || !x.waiting.isEmpty || s.frozen tile 13 0) = true := by
    simp only [x, hv, hh, hf, hw]
    decide
  refine ⟨fun hfull => ?_, fun hroom hfault => ?_⟩
  · have hpost : s.tryPost tile r m = ((s.setRing tile r { x with waiting := [m] }).addFld (dieC tile) Reg.HRD_STATUS_FULL_WAITS 1, none) := by
      refine (if_neg hready).trans ((if_pos hfull).trans ?_)
      rw [hw]
      rfl
    unfold State.post
    rw [hpost]
  · have hpost : s.tryPost tile r m = (s.placeMsg tile r m, none) := by
      refine (if_neg hready).trans ((if_neg (Nat.not_le.2 hroom)).trans ?_)
      dsimp only
      rw [hfault]
    unfold State.post
    rw [hpost]
    dsimp only
    unfold State.placeMsg
    dsimp only
    rw [hw, hh]

end

/-! ## Watchdogs (R575) -/

section

variable {s : State} {tile cluster : Nat}

/-- TIMEOUT_US after a write of HRD_WDOGn: fixed once EN is 1. -/
def State.wdogTimed (s : State) (tile cluster : Nat) (v : Word) : State :=
  if s.flag (dieC tile) (Reg.HRD_WDOG_EN.plus (8 * cluster)) then s
  else s.setFld (dieC tile) (Reg.HRD_WDOG_TIMEOUT_US.plus (8 * cluster)) (bitsAt v 32 32)

/-- EN after it: it is never cleared. -/
def State.wdogArmed (s : State) (tile cluster : Nat) (v : Word) : State :=
  if bitsAt v 0 1 = 1 then s.setFlag (dieC tile) (Reg.HRD_WDOG_EN.plus (8 * cluster)) true else s

theorem State.wdogTimed_reads (ho : s.Ordered) (v : Word) : (s.wdogTimed tile cluster v).Ordered ∧
    (∃ r, s.wdogTimed tile cluster v = { s with regs := r }) ∧ (s.wdogTimed tile cluster v).fld (dieC tile) (Reg.HRD_WDOG_TIMEOUT_US.plus (8 * cluster)) =
      if s.flag (dieC tile) (Reg.HRD_WDOG_EN.plus (8 * cluster)) then s.fld (dieC tile) (Reg.HRD_WDOG_TIMEOUT_US.plus (8 * cluster))
      else bitsAt v 32 32 := by
  unfold State.wdogTimed
  cases s.flag (dieC tile) (Reg.HRD_WDOG_EN.plus (8 * cluster)) with
  | true => exact ⟨ho, ⟨_, rfl⟩, rfl⟩
  | false =>
    refine ⟨State.ordered_setFld ho .., State.setFld_only ⟨_, rfl⟩ .., ?_⟩
    exact (State.fld_setFld_same ho _ (f := Reg.HRD_WDOG_TIMEOUT_US.plus (8 * cluster)) (show 32 + 32 ≤ 64 by decide) _).trans
      (Nat.mod_eq_of_lt (bitsAt_lt ..))

theorem State.wdogArmed_reads (ho : s.Ordered) (v : Word) : (∃ r, s.wdogArmed tile cluster v = { s with regs := r }) ∧
    (s.wdogArmed tile cluster v).fld (dieC tile) (Reg.HRD_WDOG_TIMEOUT_US.plus (8 * cluster)) =
      s.fld (dieC tile) (Reg.HRD_WDOG_TIMEOUT_US.plus (8 * cluster)) ∧
    (bitsAt v 0 1 = 1 → (s.wdogArmed tile cluster v).flag (dieC tile) (Reg.HRD_WDOG_EN.plus (8 * cluster)) = true) := by
  unfold State.wdogArmed
  split
  next hen =>
    refine ⟨State.setFlag_only ⟨_, rfl⟩ .., ?_, fun _ => State.flag_setFlag_same ho _ (show 0 + 1 ≤ 64 by decide) rfl true⟩
    exact State.fld_setFld_apart ho _ (f := Reg.HRD_WDOG_EN.plus (8 * cluster)) (g := Reg.HRD_WDOG_TIMEOUT_US.plus (8 * cluster))
      (show 0 + 1 ≤ 64 by decide) 1 rfl rfl (.inr (show 0 + 1 ≤ 32 by decide))
  next hen => exact ⟨⟨_, rfl⟩, rfl, fun h => absurd h hen⟩

/-- What a write of HRD_WDOGn leaves (R575). -/
theorem State.writeWdog_reads (ho : s.Ordered) (v : Word) :
    let d := dieC tile
    let t := s.writeWdog tile cluster v
    t = { s with regs := t.regs, hrd := { s.hrd with wdog := t.hrd.wdog } } ∧
    t.fld d (Reg.HRD_WDOG_TIMEOUT_US.plus (8 * cluster)) =
      (if s.flag d (Reg.HRD_WDOG_EN.plus (8 * cluster)) then s.fld d (Reg.HRD_WDOG_TIMEOUT_US.plus (8 * cluster)) else bitsAt v 32 32) ∧
    (bitsAt v 0 1 = 1 → t.flag d (Reg.HRD_WDOG_EN.plus (8 * cluster)) = true) ∧
    ((bitsAt v 0 1 = 1 ∧ s.flag d (Reg.HRD_WDOG_EN.plus (8 * cluster)) = false) ∨ bitsAt v 1 1 = 1 →
      t.hrd.wdog.find? (tile * 4 + cluster) = some s.ao.tb) := by
  intro d t
  obtain ⟨hordered, ⟨r, htimed⟩, htimeout⟩ := State.wdogTimed_reads (tile := tile) (cluster := cluster) ho v
  obtain ⟨⟨r', harmed⟩, hkept, hen⟩ := State.wdogArmed_reads (tile := tile) (cluster := cluster) hordered v
  obtain ⟨u, hu⟩ : ∃ u, u = (s.wdogTimed tile cluster v).wdogArmed tile cluster v := ⟨_, rfl⟩
  have ht : t = if (bitsAt v 0 1 = 1 ∧ (!s.flag d (Reg.HRD_WDOG_EN.plus (8 * cluster))) = true) ∨ bitsAt v 1 1 = 1 then
      { u with hrd := { u.hrd with wdog := u.hrd.wdog.insert (tile * 4 + cluster) u.ao.tb } } else u := by
    rw [hu]
    rfl
  rw [← hu] at harmed hkept hen
  have hsame : t.regs = u.regs ∧ t.variant = u.variant := by
    rw [ht]
    split <;> exact ⟨rfl, rfl⟩
  have hu' : u = { s with regs := r' } := by rw [harmed, htimed]
  refine ⟨?_, ?_, fun h => ?_, fun h => ?_⟩
  · rw [ht]
    split <;> rw [hu']
  · rw [State.fld_congr hsame.1 hsame.2, hkept, htimeout]
  · rw [State.flag_congr hsame.1 hsame.2, hen h]
  · rw [ht, if_pos (h.imp_left (And.imp_right fun hoff => by rw [hoff]; rfl)), hu']
    exact SMap.find?_insert ..

theorem exec_watchdog_writes (ho : s.Ordered) (ht : tile < s.variant.tiles) (hc : cluster < 4) (val : Word) :
    let d := dieC tile
    let fresh := s.flag d (Reg.HRD_WDOG_EN.plus (8 * cluster)) = false
    ∃ t u : State, exec (.watchdogArm tile cluster val) s = .next t ∧ exec (.watchdogKick tile cluster val) s = .next u ∧
      t.flag d (Reg.HRD_WDOG_EN.plus (8 * cluster)) = true ∧
      (∀ v ∈ [t, u], v = { s with regs := v.regs, hrd := { s.hrd with wdog := v.hrd.wdog } } ∧
        v.fld d (Reg.HRD_WDOG_TIMEOUT_US.plus (8 * cluster)) =
          (if s.flag d (Reg.HRD_WDOG_EN.plus (8 * cluster)) then s.fld d (Reg.HRD_WDOG_TIMEOUT_US.plus (8 * cluster)) else bitsAt val 32 32)) ∧
      (fresh → t.hrd.wdog.find? (tile * 4 + cluster) = some s.ao.tb) ∧ u.hrd.wdog.find? (tile * 4 + cluster) = some s.ao.tb := by
  have hgo : (s.hasTile tile && decide (cluster < 4)) = true := by simp [State.hasTile, ht, hc]
  have hone {lo : Nat} (hlo : lo + 1 ≤ 64) : bitsAt (setBits val lo 1 1) lo 1 = 1 := bitsAt_setBits_same hlo 1
  have hhigh {lo : Nat} (hlo : lo + 1 ≤ 32) : bitsAt (setBits val lo 1 1) 32 32 = bitsAt val 32 32 :=
    bitsAt_setBits_of_disjoint (by omega) 1 (.inr hlo)
  obtain ⟨htonly, httime, hten, htstart⟩ := State.writeWdog_reads (tile := tile) (cluster := cluster) ho (setBits val 0 1 1)
  obtain ⟨huonly, hutime, -, hustart⟩ := State.writeWdog_reads (tile := tile) (cluster := cluster) ho (setBits val 1 1 1)
  refine ⟨_, _, if_pos hgo, if_pos hgo, hten (hone (by decide)), fun v hv => ?_, fun hf => htstart (.inl ⟨hone (by decide), hf⟩),
    hustart (.inr (hone (by decide)))⟩
  rcases List.mem_cons.1 hv with rfl | hv
  · exact ⟨htonly, by rw [httime, hhigh (by decide)]⟩
  · obtain rfl := List.mem_singleton.1 hv
    exact ⟨huonly, by rw [hutime, hhigh (by decide)]⟩

theorem execWatchdogExpiry_due (ht : tile < s.variant.tiles) (hc : cluster < 4)
    (hen : s.flag (dieC tile) (Reg.HRD_WDOG_EN.plus (8 * cluster)) = true)
    (hex : s.flag (dieC tile) (Reg.HRD_WDOG_EXPIRED.plus (8 * cluster)) = false)
    (hdue : max 1 (s.fld (dieC tile) (Reg.HRD_WDOG_TIMEOUT_US.plus (8 * cluster))) * 1000 ≤ s.ao.tb - s.hrd.wdog.getD (tile * 4 + cluster) 0) :
    exec (.watchdogExpiry tile cluster) s =
      .next ((s.setFlag (dieC tile) (Reg.HRD_WDOG_EXPIRED.plus (8 * cluster)) true).raiseFault 0x04 (dieC tile) 0x38) := by
  refine if_pos ?_
  rw [hen, hex, show s.hasTile tile = true from decide_eq_true ht, decide_eq_true hc]
  exact decide_eq_true hdue

end

end Sys2Proof.Machine
end

section
/-! The replay capture (R576 to R578). -/

namespace Sys2Proof.Machine

open Sys2Proof

section

variable {s : State} {tile : Nat}

theorem exec_capture_writes (ht : tile < s.variant.tiles) (val : Word) :
    let on := s.writeRpl tile (setBits val 0 1 1)
    let off := fun (t : State) => (t.writeRpl tile (setBits val 0 1 0)).setFlag (dieC tile) Reg.RPL_STATUS_RUNNING false
    exec (.captureStart tile val) s = .next (if s.flag (dieC tile) Reg.RPL_CTRL_EN then on else on.capStart tile) ∧
    exec (.captureStop tile val) s = .next (off (if s.flag (dieC tile) Reg.RPL_STATUS_RUNNING then s.capture tile .stop else s)) := by
  intro on off
  have hhas : ¬ (!s.hasTile tile) = true := by simp [State.hasTile, ht]
  refine ⟨(if_neg hhas).trans ?_, if_neg hhas⟩
  exact (apply_ite Host.Outcome.next _ _ _).symm

theorem execCaptureSnap_running (ht : tile < s.variant.tiles) (hr : s.flag (dieC tile) Reg.RPL_STATUS_RUNNING = true)
    (hf : s.frozen tile 12 0 = false) (addr pages : Nat) :
    exec (.captureSnap tile addr pages) s = .next (match s.rangeFault tile 12 addr (pages * 4096) .read with
      | none => s.capture tile (.snap addr (s.loads addr (pages * 4096)))
      | some (a, c) => ((s.setFlag (dieC tile) Reg.RPL_STATUS_RUNNING false).setFlag (dieC tile) Reg.RPL_STATUS_FAULT true).channelFault tile 12 0 a .read c) := by
  have hgo : ¬ (!s.hasTile tile || !s.capRunning tile || s.frozen tile 12 0) = true := by
    simp [State.hasTile, ht, State.capRunning, hr, hf]
  refine (if_neg hgo).trans ?_
  cases s.rangeFault tile 12 addr (pages * 4096) .read <;> rfl

/-- A capture that does not run, or is frozen, takes no record (R561, R576). -/
theorem State.capture_idle (h : s.flag (dieC tile) Reg.RPL_STATUS_RUNNING = false ∨ s.frozen tile 12 0 = true) (r : CapRec) : s.capture tile r = s := by
  refine if_pos ?_
  rw [State.capRunning]
  obtain h | h := h
  · rw [h]; rfl
  · rw [h, Bool.or_true]

/-- A record that fits is written at the ring's position, and the oldest give way (R578). -/
theorem State.capWrite_fits {r : CapRec} {size o base m : Nat} {b : Bytes} (hsize : s.capRing tile = size)
    (ho : s.hrd.capPos.getD tile 0 % size = o) (hbase : s.fld (dieC tile) Reg.RPL_BASE_ADDR = base) (hb : r.bytes (s.stamp (dieC tile) 11) = b)
    (hm : min b.length (size - o) = m) (hfirst : s.rangeFault tile 12 (base + o) m .write = none)
    (hrest : s.rangeFault tile 12 base (b.length - m) .write = none) :
    let t := (s.stores (base + o) (b.take m)).stores base (b.drop m)
    s.capWrite tile r = { t with hrd := { t.hrd with
      capPos := t.hrd.capPos.insert tile (t.hrd.capPos.getD tile 0 + b.length)
      cap := t.hrd.cap.insert tile (dropOldest size (t.hrd.cap.getD tile [] ++ [r])) } } := by
  have hplace : s.capPlace tile b.length = (o, m) := by
    unfold State.capPlace
    dsimp only
    rw [hsize, ho, hm]
  have hnone : s.capFault tile b.length = none := by
    unfold State.capFault
    rw [hplace, hbase]
    dsimp only
    rw [hfirst, hrest]
    rfl
  unfold State.capWrite
  dsimp only
  rw [hb, hnone]
  dsimp only [Option.elim_none]
  unfold State.capPut
  rw [hplace, hsize, hbase]

section

variable (hr : s.flag (dieC tile) Reg.RPL_STATUS_RUNNING = true) (hf : s.frozen tile 12 0 = false)
include hr hf

theorem State.capture_running (r : CapRec) : s.capture tile r =
    if s.flag (dieC tile) Reg.RPL_CTRL_MODE && decide (s.capRing tile < s.hrd.capPos.getD tile 0 + r.size) then
      (if s.capRing tile < 16 then s else s.capWrite tile .stop).setFlag (dieC tile) Reg.RPL_STATUS_RUNNING false
    else if s.capRing tile < r.size then
      { s.addFld (dieC tile) Reg.RPL_STATUS_GAPS 1 with hrd := { s.hrd with lost := s.hrd.lost.modD tile 0 (· + 1) } }
    else
      let n := s.hrd.lost.getD tile 0
      let s := if n = 0 then s else
        { s.capWrite tile (.gap n) with hrd := { (s.capWrite tile (.gap n)).hrd with lost := s.hrd.lost.erase tile } }
      s.capWrite tile r := by
  refine if_neg ?_
  rw [State.capRunning, hr, hf]
  decide

/-- In STOP mode the first record that does not fit ends the capture (R578). -/
theorem State.capture_stops (hm : s.flag (dieC tile) Reg.RPL_CTRL_MODE = true) (hs : 0 < s.fld (dieC tile) Reg.RPL_SIZE_MIB * 2 ^ 20) {r : CapRec}
    (hfull : s.fld (dieC tile) Reg.RPL_SIZE_MIB * 2 ^ 20 < s.hrd.capPos.getD tile 0 + r.size) :
    s.capture tile r = (s.capWrite tile .stop).setFlag (dieC tile) Reg.RPL_STATUS_RUNNING false := by
  rw [State.capture_running hr hf, if_pos (by rw [hm, Bool.true_and]; exact decide_eq_true hfull)]
  refine congrArg (fun t : State => t.setFlag (dieC tile) Reg.RPL_STATUS_RUNNING false) (if_neg ?_)
  unfold State.capRing
  omega

/-- A record larger than the ring is counted (R577). -/
theorem State.capture_counts (hm : s.flag (dieC tile) Reg.RPL_CTRL_MODE = false) {r : CapRec}
    (hlarge : s.fld (dieC tile) Reg.RPL_SIZE_MIB * 2 ^ 20 < r.size) :
    let u := s.addFld (dieC tile) Reg.RPL_STATUS_GAPS 1
    s.capture tile r = { u with hrd := { u.hrd with lost := u.hrd.lost.modD tile 0 (· + 1) } } := by
  intro u
  have hu : u.hrd = s.hrd := State.setFld_hrd ..
  rw [State.capture_running hr hf, if_neg (by simp [hm]), if_pos (show s.capRing tile < r.size from hlarge), hu]

theorem State.capture_writes {r : CapRec}
    (hfits : s.flag (dieC tile) Reg.RPL_CTRL_MODE = false ∨ s.hrd.capPos.getD tile 0 + r.size ≤ s.fld (dieC tile) Reg.RPL_SIZE_MIB * 2 ^ 20)
    (hsize : r.size ≤ s.fld (dieC tile) Reg.RPL_SIZE_MIB * 2 ^ 20) (hlost : s.hrd.lost.getD tile 0 = 0) : s.capture tile r = s.capWrite tile r := by
  have hroom : ¬ (s.flag (dieC tile) Reg.RPL_CTRL_MODE && decide (s.capRing tile < s.hrd.capPos.getD tile 0 + r.size)) = true := by
    rw [Bool.and_eq_true, decide_eq_true_eq, State.capRing]
    rintro ⟨hm, hlt⟩
    obtain hno | hle := hfits
    · exact Bool.false_ne_true (hno.symm.trans hm)
    · omega
  rw [State.capture_running hr hf, if_neg hroom, if_neg (show ¬ s.capRing tile < r.size from Nat.not_lt.2 hsize)]
  dsimp only
  rw [if_pos hlost]

end

/-- A start of the capture forgets what was captured and writes START (R576). -/
theorem State.capStart_eq (s : State) (tile : Nat) :
    let u := s.setFlag (dieC tile) Reg.RPL_STATUS_RUNNING true
    s.capStart tile = State.capture { u with hrd := { s.hrd with cap := s.hrd.cap.erase tile, capPos := s.hrd.capPos.erase tile } } tile
      (.start (u.measurement 2) (u.fld dieB Reg.BOOT_FORMAT_FORMAT) s.variant.code tile) := by
  intro u
  have hu : u.hrd = s.hrd := State.setFlag_hrd ..
  have hv : u.variant = s.variant := State.setFlag_variant ..
  unfold State.capStart
  rw [← hu, ← hv]
  rfl

end

/-- Settles O55: guards of each ring, tick and watchdog command, and the capture by its mode and room (`State.capture_running`). -/
theorem ringsTicksWatchdogsAndCapture : Obligations.RingsTicksWatchdogsAndCapture := by
  unfold Obligations.RingsTicksWatchdogsAndCapture
  exact ⟨fun s tile cluster core r cons h => execRingConsume_works h cons, fun s tile cluster core r cons h => execRingConsume_notOwned h cons,
    fun s tile cluster core r l h => execRingPost_notOwned h l, fun s tile cluster core r l h => execRingPost_works h l,
    fun s tile core ho => State.diverge_reads ho tile core, fun s tile cluster ht hc hdue => execTick_due ht hc hdue,
    fun s tile r mid b hv hh hf hw => State.post_ready hv hh hf hw mid b, fun s tile cluster val ho ht hc => exec_watchdog_writes ho ht hc val,
    fun s tile cluster ht hc hen hex hdue => execWatchdogExpiry_due ht hc hen hex hdue, fun s tile val ht => exec_capture_writes ht val,
    fun s tile addr pages ht hr hf => execCaptureSnap_running ht hr hf addr pages, fun s tile => s.capStart_eq tile,
    fun s tile r h => State.capture_idle h r, fun s tile r hr hf => ⟨fun hm hs hfull => State.capture_stops hr hf hm hs hfull, fun hm hlarge => State.capture_counts hr hf hm hlarge,
      fun hfits hsize hlost hfirst hrest => (State.capture_writes hr hf hfits hsize hlost).trans (State.capWrite_fits rfl rfl rfl rfl rfl hfirst hrest)⟩⟩

end Sys2Proof.Machine
end

section
/-! Role commands over both transports, and the checks of their envelopes (R613 to R620). -/

namespace Sys2Proof.Machine

open Sys2Proof

/-! ## The commands of R617 -/

/-- The commands of R617: CODE, ROLE and TARGET. -/
def roleTable : List (Nat × Nat × Nat) :=
  [(0x01, 0, 0), (0x02, 0, 0), (0x10, 2, 0), (0x11, 2, 1), (0x12, 2, 1), (0x13, 2, 0), (0x14, 2, 1), (0x15, 2, 1), (0x16, 2, 1), (0x20, 3, 1),
    (0x21, 3, 1), (0x22, 3, 1), (0x23, 3, 1), (0x24, 3, 1), (0x25, 3, 1), (0x26, 3, 1), (0x27, 3, 1), (0x28, 3, 1), (0x29, 3, 1), (0x2A, 3, 1),
    (0x2B, 3, 1), (0x2C, 3, 1), (0x2D, 3, 1), (0x2E, 3, 1), (0x2F, 3, 1), (0x30, 3, 0), (0x31, 3, 0), (0x40, 1, 0)]

/-- Each role command has its row in the table, and arrives over its transport. -/
theorem roleRow_arrives {via : Via} {e : RoleEnv} {c : Instr} {w : RoleBody} {row : Nat × Nat × Nat} (h : RoleRow via e c w row) :
    w.code = row.1 ∧ row ∈ roleTable ∧ ∀ s, exec c s = .next (s.roleArrive via e w) := by
  unfold RoleRow at h
  rcases h with ⟨rfl, rfl, rfl⟩ | ⟨rfl, rfl, rfl⟩ | ⟨_, rfl, rfl, rfl⟩ | ⟨_, _, rfl, rfl, rfl⟩ | ⟨_, rfl, rfl, rfl⟩ | ⟨rfl, rfl, rfl⟩ |
    ⟨_, _, _, _, rfl, rfl, rfl⟩ | ⟨rfl, rfl, rfl⟩ | ⟨rfl, rfl, rfl⟩ | ⟨_, _, _, _, rfl, rfl, rfl⟩ | ⟨_, rfl, rfl, rfl⟩ |
    ⟨_, rfl, rfl, rfl⟩ | ⟨_, rfl, rfl, rfl⟩ | ⟨_, rfl, rfl, rfl⟩ | ⟨_, rfl, rfl, rfl⟩ | ⟨_, rfl, rfl, rfl⟩ |
    ⟨_, rfl, rfl, rfl⟩ | ⟨_, _, rfl, rfl, rfl⟩ | ⟨_, _, _, rfl, rfl, rfl⟩ | ⟨_, _, _, rfl, rfl, rfl⟩ | ⟨_, rfl, rfl, rfl⟩ |
    ⟨_, rfl, rfl, rfl⟩ | ⟨_, _, _, rfl, rfl, rfl⟩ | ⟨_, _, rfl, rfl, rfl⟩ | ⟨_, _, rfl, rfl, rfl⟩ | ⟨_, rfl, rfl, rfl⟩ |
    ⟨rfl, rfl, rfl⟩ | ⟨rfl, rfl, rfl⟩ | ⟨rfl, rfl, rfl⟩
  all_goals exact ⟨rfl, by decide, fun _ => rfl⟩

/-- What the table says of a code, and which commands control-plane firmware carries out. -/
theorem roleTable_says : ∀ row ∈ roleTable, roleFor row.1 = row.2.1 ∧ targetFor row.1 = row.2.2 ∧
    ((decide (row.1 = 0x11) || decide (row.1 = 0x12) ||
      (decide (0x14 ≤ row.1) && decide (row.1 ≤ 0x2F) && decide (row.1 ≠ 0x2C) && decide (row.1 ≠ 0x2D))) = true ↔
      row.2.2 = 1 ∧ row.1 ∉ [0x2C, 0x2D]) := by decide

theorem roleRow_says {via : Via} {e : RoleEnv} {c : Instr} {w : RoleBody} {row : Nat × Nat × Nat} (h : RoleRow via e c w row) :
    w.code = row.1 ∧ roleFor row.1 = row.2.1 ∧ targetFor row.1 = row.2.2 ∧ (w.byCpf = true ↔ row.2.2 = 1 ∧ row.1 ∉ [0x2C, 0x2D]) := by
  obtain ⟨hcode, hmem, -⟩ := roleRow_arrives h
  obtain ⟨hrole, htarget, hcpf⟩ := roleTable_says row hmem
  refine ⟨hcode, hrole, htarget, ?_⟩
  simpa only [RoleBody.byCpf, hcode] using hcpf

/-! ## The transports -/

theorem State.roleArrive_mgmt {s : State} {h : MgmtHdr} (hp : MgmtPasses s h 7) (e : RoleEnv) (w : RoleBody) :
    s.roleArrive (.mgmt h) e w = (s.roleRun (.mgmt h.udp h.ep) e w).settle := by
  obtain ⟨hheard, hgate⟩ := hp
  simp only [State.roleArrive, State.mgmtRole, hheard, hgate, Bool.not_true, Bool.false_eq_true, if_false]

theorem State.roleArrive_refused {s : State} {h : MgmtHdr} {st : Nat} (hh : s.mgmtHeard h = true) (hg : s.mgmtGate h 7 = some st) (e : RoleEnv)
    (w : RoleBody) : s.roleArrive (.mgmt h) e w = (s.mgmtReply h 7 st []).settle := by
  simp only [State.roleArrive, State.mgmtRole, hh, hg, Bool.not_true, Bool.false_eq_true, if_false]

theorem State.roleArrive_nvme {s : State} {cap : Cap} {q : Queue} (h : HostTakes s cap q) (e : RoleEnv) (w : RoleBody) :
    s.roleArrive (.nvme cap) e w = (s.entersAdmin cap q (.role e w) (64 + e.body.length + e.pub.length + e.sig.length)).settle :=
  congrArg State.settle (State.adminCmd_of_takes h ..)

theorem State.adminAny_role {s : State} {c : Cmd} {k : Ctrl} {e : RoleEnv} {b : RoleBody} (hk : s.host.ctrls.find? c.tag.cntlid = some k)
    (hop : c.op = .role e b) : s.adminAny c = s.roleRun (.nvme c.tag.num) e b := by
  simp only [State.adminAny, hk, hop]

/-! ## The checks of an envelope -/

section
variable {s : State} {e : RoleEnv} {b : RoleBody}

theorem State.roleCheck_inconsistent (held : Bool) (h : e.consistent b = false) : s.roleCheck e b held = 1 := if_pos (by simp [h])

theorem State.roleCheck_key (held : Bool) (hc : e.consistent b = true) (h : s.roleKeyOk e b = false ∨ e.role ≠ roleFor b.code) :
    s.roleCheck e b held = 2 := by
  by_cases hk : s.roleKeyOk e b = true
  · have hr : e.role ≠ roleFor b.code := h.resolve_left (by simp [hk])
    simp only [State.roleCheck, hc, hk, Bool.not_true, Bool.false_eq_true, if_false, if_pos hr]
  · simp [State.roleCheck, hc, hk]

theorem State.roleCheck_addressee (held : Bool) (hc : e.consistent b = true) (hk : s.roleKeyOk e b = true) (hr : e.role = roleFor b.code)
    (h : e.target ≠ targetFor b.code ∨ e.serial ≠ (if e.target = 0 then s.serial else zeros 16)) : s.roleCheck e b held = 1 := by
  unfold State.roleCheck
  rw [if_neg (by simp [hc]), if_neg (by simp [hk]), if_neg (not_not_intro hr)]
  by_cases ht : e.target = targetFor b.code
  · exact (if_neg (not_not_intro ht)).trans (if_pos (h.resolve_left (not_not_intro ht)))
  · exact if_pos ht

/-- An envelope of this module under an admitted key: left are the challenge and the signature, where the code needs them. -/
theorem State.roleCheck_last (held : Bool) (hc : e.consistent b = true) (hk : s.roleKeyOk e b = true) (hr : e.role = roleFor b.code)
    (ht : e.target = targetFor b.code) (hs : e.serial = (if e.target = 0 then s.serial else zeros 16)) :
    s.roleCheck e b held = if b.code ≤ 2 then 0 else if held = false then 3
      else if sigOk e.pub "VX8-ROLE" (e.message b.code) e.sig then 0 else 2 := by
  unfold State.roleCheck
  rw [if_neg (by simp [hc]), if_neg (by simp [hk]), if_neg (not_not_intro hr), if_neg (not_not_intro ht), if_neg (not_not_intro hs)]
  cases held <;> cases sigOk e.pub "VX8-ROLE" (e.message b.code) e.sig <;> rfl

theorem State.roleKeyOk_of_role (h : ∀ x, b ≠ .install x) :
    (e.role = 1 → s.roleKeyOk e b = (keyDigest e.pub == makerDigest)) ∧
    (e.role = 2 → s.roleKeyOk e b = (s.otp.instLock && keyDigest e.pub == s.otp.instDigest)) ∧
    (e.role = 3 → s.roleKeyOk e b = (s.boot.opkeys.find? e.keyidx == some (keyDigest e.pub))) := by
  unfold State.roleKeyOk
  split
  next x => exact absurd rfl (h x)
  next => exact ⟨fun hr => by rw [hr]; rfl, fun hr => by rw [hr]; rfl, fun hr => by rw [hr]; rfl⟩

end

/-! ## The run of an envelope -/

theorem RoleBody.whenBlank_eq_false (b : RoleBody) : b.whenBlank = false ↔ b.code ∉ [0x01, 0x02, 0x10, 0x40] := by
  simp [RoleBody.whenBlank]

theorem RoleBody.writesNor_iff (b : RoleBody) : b.writesNor = true ↔ b.code ∈ [0x10, 0x13, 0x30, 0x31, 0x40] := by
  simp [RoleBody.writesNor]

theorem State.serves_eq_false (s : State) : s.serves = false ↔ s.pair.head ≠ .twin ∧ s.pair.head ≠ .solo := by
  simp [State.serves]

/-- The challenge of an envelope is held: one that has not lapsed is among those left. -/
theorem State.challenge_held (s : State) (x : Bytes) :
    (s.lapseChallenges.boot.challenges.any fun c => c.1 == x) =
      s.boot.challenges.any fun c => c.1 == x && decide (s.ao.tb - c.2 < 600 * 10 ^ 9) := by
  have hleft : s.lapseChallenges.boot.challenges = s.boot.challenges.filter fun c => decide (s.since c.2 < challengeLife) :=
    congrArg Boot.challenges (State.setFld_boot ..)
  rw [hleft, List.any_filter]
  exact congrArg (List.any _) (funext fun c => Bool.and_comm _ _)

theorem State.presented_eq (s : State) (x : Bytes) : s.presented x = ({ s.lapseChallenges with boot := { s.lapseChallenges.boot with
    challenges := s.lapseChallenges.boot.challenges.filter fun c => c.1 != x } } : State).countChallenges := rfl

section
variable {s : State} {src : RoleFrom} {e : RoleEnv} {b : RoleBody} {held : Bool}
  (hheld : (s.boot.challenges.any fun x => x.1 == e.challenge && decide (s.ao.tb - x.2 < 600 * 10 ^ 9)) = held)
include hheld

theorem State.roleRun_rejected (h : (s.presented e.challenge).roleCheck e b held ≠ 0) :
    s.roleRun src e b = (s.presented e.challenge).roleEnd src b.code e.role e.keyidx e.target e.serial
      ((s.presented e.challenge).roleCheck e b held) [] := by
  rw [← State.challenge_held] at hheld
  subst hheld
  exact if_pos h

variable (hok : (s.presented e.challenge).roleCheck e b held = 0) {v : State}
  (hv : (s.presented e.challenge).addFld dieB Reg.ROLE_STATUS_ACCEPTED 1 = v)
include hok hv

/-- An envelope that passes its checks: refused by the head's state or the window, or carried out. -/
theorem State.roleRun_passed : s.roleRun src e b =
    if v.boot.phase = .uninstalled ∧ !b.whenBlank then v.roleEnd src b.code e.role e.keyidx e.target e.serial 4 []
    else if b.writesNor && !v.norWindow then v.roleEnd src b.code e.role e.keyidx e.target e.serial 4 []
    else if b.byCpf then
      if !v.serves then v.roleEnd src b.code e.role e.keyidx e.target e.serial 4 []
      else { (v.cpfRun b).2 with boot := { (v.cpfRun b).2.boot with jobs := (v.cpfRun b).2.boot.jobs ++ [{
        src := src, code := b.code, role := e.role, keyidx := e.keyidx, target := e.target, serial := e.serial, msg := e.message b.code,
        result := (v.cpfRun b).1, lsn := (v.cpfRun b).2.ftl.nextLsn, tag := none }] } }
    else if (v.mfwRun e b).1 = 0 then
      ((v.mfwRun e b).2.2.roleEnd src b.code e.role e.keyidx e.target e.serial (v.mfwRun e b).1 (v.mfwRun e b).2.1).roleAfter b
    else (v.mfwRun e b).2.2.roleEnd src b.code e.role e.keyidx e.target e.serial (v.mfwRun e b).1 (v.mfwRun e b).2.1 := by
  rw [← State.challenge_held] at hheld
  subst hheld
  unfold State.roleRun
  dsimp only
  rw [← State.presented_eq, if_neg (not_not_intro hok), hv]

end

/-- The three refusals of an envelope that passes its checks, taken together. -/
theorem ite_refusals {α : Sort*} {p q c r : Prop} [Decidable p] [Decidable q] [Decidable c] [Decidable r] (x y z : α) :
    (if p then x else if q then x else if c then if r then x else y else z) = if p ∨ q ∨ c ∧ r then x else if c then y else z := by
  by_cases hp : p <;> by_cases hq : q <;> by_cases hc : c <;> by_cases hr : r <;> simp [hp, hq, hc, hr]

/-! ## The registers -/

theorem State.ordered_setFlds {s : State} (ho : s.Ordered) (die : Nat) (l : List (Fld × Nat)) : (s.setFlds die l).Ordered :=
  List.foldlRecOn (motive := State.Ordered) l _ ho fun _ ht x _ => State.ordered_setFld ht die x.1 x.2

/-- What the end of a role command writes to ROLE_STATUS. -/
def roleFlds (code role keyidx result : Nat) : List (Fld × Nat) :=
  [(Reg.ROLE_STATUS_LAST_CODE, code), (Reg.ROLE_STATUS_LAST_ROLE, role), (Reg.ROLE_STATUS_LAST_KEYIDX, keyidx),
    (Reg.ROLE_STATUS_LAST_RESULT, result)]

theorem roleFlds_clear (code role keyidx result : Nat) : (roleFlds code role keyidx result).Pairwise fun x y => Fld.Clear x.1 y.1 :=
  List.Pairwise.of_map (S := Fld.Clear) Prod.fst (fun _ _ h => h)
    (show [Reg.ROLE_STATUS_LAST_CODE, Reg.ROLE_STATUS_LAST_ROLE, Reg.ROLE_STATUS_LAST_KEYIDX, Reg.ROLE_STATUS_LAST_RESULT].Pairwise Fld.Clear by
      decide)

/-- ROLE_STATUS is written, then at most a counter of ROLE_REJECT. -/
theorem State.roleRegs_eq (s : State) (code role keyidx result : Nat) :
    s.roleRegs code role keyidx result = s.setFlds dieB (roleFlds code role keyidx result) ∨
    ∃ f n, f.off = 8 ∧
      s.roleRegs code role keyidx result = (s.setFlds dieB (roleFlds code role keyidx result)).setFld dieB f n := by
  obtain ⟨u, hu⟩ : ∃ u, u = s.setFlds dieB (roleFlds code role keyidx result) := ⟨_, rfl⟩
  have hregs : s.roleRegs code role keyidx result = if result = 0 then u else if result = 2 then u.addFld dieB Reg.ROLE_REJECT_BADSIG 1
      else u.addFld dieB Reg.ROLE_REJECT_OTHER 1 := by
    simp only [hu, State.setFlds, roleFlds, List.foldl_cons, List.foldl_nil, State.roleRegs]
  rw [← hu, hregs]
  split
  · exact .inl rfl
  split
  · exact .inr ⟨_, _, rfl, rfl⟩
  · exact .inr ⟨_, _, rfl, rfl⟩

theorem State.roleRegs_only (s : State) (code role keyidx result : Nat) :
    ∃ regs, s.roleRegs code role keyidx result = { s with regs := regs } := by
  obtain h | ⟨f, n, -, h⟩ := s.roleRegs_eq code role keyidx result
  · exact h ▸ s.setFlds_only dieB _
  · exact h ▸ State.setFld_only (s.setFlds_only dieB _) dieB f n

theorem State.fld_roleRegs {s : State} (ho : s.Ordered) (code role keyidx result : Nat) {f : Fld} {v : Nat}
    (hf : (f, v) ∈ roleFlds code role keyidx result) (hoff : f.off = 0) (hw : f.lo + f.w ≤ 64) :
    (s.roleRegs code role keyidx result).fld dieB f = v % 2 ^ f.w := by
  have hset := State.fld_setFlds (die := dieB) ho (roleFlds_clear code role keyidx result) hf hw
  obtain h | ⟨g, n, hg, h⟩ := s.roleRegs_eq code role keyidx result
  · exact h ▸ hset
  · have hkeep := (KeepsFld.refl (die := dieB) (f := f) (s.setFlds dieB (roleFlds code role keyidx result))).setFld dieB g n
      (regKey_ne_of_off (by omega) (by omega) (by omega))
    exact h ▸ (hkeep (State.ordered_setFlds ho dieB _)).2.trans hset

/-- Settles O56: every role command is one of the table of R617, and its arrival, its checks and its run are those of its envelope. -/
theorem roleEnvelopesAreChecked : Obligations.RoleEnvelopesAreChecked := by
  unfold Obligations.RoleEnvelopesAreChecked
  refine ⟨fun s h e c w row hrow => ⟨roleRow_says hrow, fun hp => ?_, fun st hh hg => ?_⟩, fun s cap q e c w row hrow hq => ?_,
    fun s c k e b hk hop => State.adminAny_role hk hop, fun s src e b => ?_, fun s e b held => ?_, fun s e b h => State.roleKeyOk_of_role h,
    fun _ _ _ _ _ _ _ _ _ => rfl, fun s code role keyidx result ho => ?_⟩
  · exact ((roleRow_arrives hrow).2.2 s).trans (congrArg _ (State.roleArrive_mgmt hp e w))
  · exact ((roleRow_arrives hrow).2.2 s).trans (congrArg _ (State.roleArrive_refused hh hg e w))
  · exact ((roleRow_arrives hrow).2.2 s).trans (congrArg _ (State.roleArrive_nvme hq e w))
  · refine ⟨State.roleRun_rejected rfl, fun hok => ?_⟩
    refine (State.roleRun_passed rfl hok rfl).trans ((ite_refusals _ _ _).trans ?_)
    simp only [RoleBody.whenBlank_eq_false, RoleBody.writesNor_iff, State.serves_eq_false, Bool.and_eq_true, Bool.not_eq_true']
  · exact ⟨State.roleCheck_inconsistent held, State.roleCheck_key held, State.roleCheck_addressee held, State.roleCheck_last held⟩
  · obtain ⟨regs, hregs⟩ := s.roleRegs_only code role keyidx result
    exact ⟨by rw [hregs], State.fld_roleRegs ho code role keyidx result (by simp [roleFlds]) rfl (by decide),
      State.fld_roleRegs ho code role keyidx result (by simp [roleFlds]) rfl (by decide)⟩

end Sys2Proof.Machine
end

section
/-! What management firmware carries out itself (R609, R614, R617, R620, R623 to R625, R647, R654). -/

namespace Sys2Proof.Machine

open Sys2Proof

/-! ## Challenges and the calibration row -/

/-- A challenge is issued: a ninth replaces the oldest. -/
theorem State.issueChallenge_reads (s : State) : ∃ t : State, s.issueChallenge = (padTo 32 (Config.drbg s.free 32), t) ∧
    t.boot.challenges = ((s.boot.challenges ++ [((padTo 32 (Config.drbg s.free 32) : Bytes), s.ao.tb)]).reverse.take 8).reverse ∧
    t = { s with regs := t.regs, free := s.free + 1, boot := { s.boot with challenges := t.boot.challenges } } := by
  obtain ⟨l, hl⟩ : ∃ l, l = s.boot.challenges ++ [((padTo 32 (Config.drbg s.free 32) : Bytes), s.ao.tb)] := ⟨_, rfl⟩
  obtain ⟨v, hv⟩ : ∃ v : State, v = { s with free := s.free + 1, boot := { s.boot with challenges := l.drop (l.length - 8) } } := ⟨_, rfl⟩
  have hissue : s.issueChallenge = (padTo 32 (Config.drbg s.free 32), v.countChallenges) := by
    rw [hv, hl]
    rfl
  obtain ⟨regs, hregs⟩ : ∃ regs, v.countChallenges = { v with regs := regs } := State.setFld_only ⟨_, rfl⟩ ..
  refine ⟨_, hissue, ?_, ?_⟩
  · rw [hregs, hv, List.take_reverse, List.reverse_reverse, hl]
  · rw [hregs, hv]

theorem State.length_calRow (s : State) : s.calRow.length = 16384 := by
  simp [State.calRow]

/-! ## INSTALL (R620) -/

/-- INST_DIGEST and its CRC32C after a programming that reached the bits of `took`. -/
def Otp.programmed (o : Otp) (want took : Bytes) : Bytes := (List.range 36).map fun i => o.inst.getD i 0 ||| (want.getD i 0 &&& took.getD i 0)

theorem Otp.getD_programmed (o : Otp) (want took : Bytes) {i : Nat} (hi : i < 36) :
    (o.programmed want took).getD i 0 = (o.inst.getD i 0 ||| (want.getD i 0 &&& took.getD i 0)) := by
  simp [Otp.programmed, List.getD_eq_getElem?_getD, hi]

theorem State.showOtp_otp (s : State) : s.showOtp.otp = s.otp := by
  simp only [State.showOtp, State.setFld_otp, State.setFlag_otp]

theorem State.runInstall_unlocked {s : State} (h : s.otp.instLock = false) (d took : Bytes) :
    (s.runInstall d took).2.otp.inst = s.otp.programmed (d ++ le 4 (crc32c d).toNat) took ∧
    (s.runInstall d took).1 = (if s.otp.programmed (d ++ le 4 (crc32c d).toNat) took = d ++ le 4 (crc32c d).toNat then 0 else 6) ∧
    (s.runInstall d took).2.otp.instLock = decide (s.otp.programmed (d ++ le 4 (crc32c d).toNat) took = d ++ le 4 (crc32c d).toNat) := by
  have hrun : s.runInstall d took = if s.otp.programmed (d ++ le 4 (crc32c d).toNat) took = d ++ le 4 (crc32c d).toNat then
      (0, ({ s with otp := { s.otp with inst := s.otp.programmed (d ++ le 4 (crc32c d).toNat) took, instLock := true } } : State).showOtp)
      else (6, { s with otp := { s.otp with inst := s.otp.programmed (d ++ le 4 (crc32c d).toNat) took } }) := if_neg (by simp [h])
  rw [hrun]
  split
  next heq => simp only [State.showOtp_otp, heq, decide_true, and_self]
  next hne => simp only [hne, h, decide_false, and_self]

/-! ## THERMAL_RESUME (R647) -/

theorem State.logTrip_keeps (s : State) (r : TripRec) :
    (s.logTrip r).ao.tripLatched = s.ao.tripLatched ∧ (s.logTrip r).pair = s.pair ∧ (s.logTrip r).boot = s.boot := by
  unfold State.logTrip
  split
  · exact ⟨rfl, rfl, rfl⟩
  · split <;> exact ⟨rfl, rfl, rfl⟩

theorem State.runResume_resumes {s : State} {t : Nat} (hcalm : s.thm.calmSince = some t) (hage : 60 * 10 ^ 9 ≤ s.ao.tb - t)
    (hst : s.pair.head = .thermalHold ∨ s.pair.head = .boot ∧ s.ao.tripLatched = true) : ∃ u, s.runResume = (0, u) ∧
      u.ao.tripLatched = false ∧ u.pair = s.pair ∧ (s.boot.phase = .tripWait → u.boot.phase = .resumed) ∧
      (s.boot.phase ≠ .tripWait → u.boot.phase = s.boot.phase) := by
  have hcalmed : (s.thm.calmSince.any fun t => decide (60 * 10 ^ 9 ≤ s.since t)) = true := by
    rw [hcalm]
    exact decide_eq_true hage
  have hstate : (s.pair.head == .thermalHold || (s.pair.head == .boot && s.ao.tripLatched)) = true := by simpa using hst
  obtain ⟨v, hv⟩ : ∃ v : State, v = { s with ao := { s.ao with tripLatched := false } } := ⟨_, rfl⟩
  obtain ⟨w, hw⟩ : ∃ w, w = (v.logTrip { v.tripRec true 0 dieB with rate := 0 }).mfwEvent 0x0025
    (zeros 2 ++ le 2 (ofInt 16 ((v.logTrip { v.tripRec true 0 dieB with rate := 0 }).dieTemp dieB).diode)) := ⟨_, rfl⟩
  have hrun : s.runResume = (0, if w.boot.phase = .tripWait then w.setPhase .resumed else w) := by
    rw [hw, hv]
    exact if_neg (by rw [hcalmed, hstate]; decide)
  obtain ⟨hlatch, hpair, hboot⟩ := v.logTrip_keeps { v.tripRec true 0 dieB with rate := 0 }
  have hevent : EventOnly _ w := hw ▸ State.mfwEvent_eventOnly ..
  have hwl : w.ao.tripLatched = false :=
    (hevent.same (fun s => s.ao.tripLatched) fun _ _ _ _ _ _ _ => rfl).trans (hlatch.trans (by rw [hv]))
  have hwp : w.pair = s.pair := (hevent.same State.pair fun _ _ _ _ _ _ _ => rfl).trans (hpair.trans (by rw [hv]))
  have hwb : w.boot = s.boot := (hevent.same State.boot fun _ _ _ _ _ _ _ => rfl).trans (hboot.trans (by rw [hv]))
  refine ⟨_, hrun, ?_⟩
  by_cases hp : s.boot.phase = .tripWait
  · rw [if_pos (hwb ▸ hp)]
    exact ⟨hwl, hwp, fun _ => rfl, fun hne => absurd hp hne⟩
  · rw [if_neg (hwb ▸ hp)]
    exact ⟨hwl, hwp, fun h => absurd h hp, fun _ => by rw [hwb]⟩

theorem State.runResume_hot {s : State} (h : s.thm.calmSince = none) : s.runResume = (4, s) := if_pos (by simp [h])

/-! ## DEBUG_UNLOCK (R625) -/

theorem State.runUnlock_spent {s : State} (h : 16 ≤ s.otp.wrapGen) : s.runUnlock = (6, s) := if_pos h

theorem State.runUnlock_serving {s : State} (hg : s.otp.wrapGen < 16) (h : s.pair.head ∉ [.boot, .fawn, .fenced, .thermalHold]) :
    s.runUnlock = (4, s) := by
  refine (if_neg (by omega)).trans (if_pos ?_)
  simp only [List.mem_cons, List.not_mem_nil, or_false, not_or] at h
  simp [h]

/-- The state of DEBUG_UNLOCK once the keys are cleared and a bit of WRAPGEN is programmed, before its registers. -/
def State.keysCleared (s : State) : State :=
  { s with keys := { s.keys with dge := [], slots := [], kcu := [], gcm := [] }, dst := { s.dst with fpSlots := [], xtsSlots := [], awk := [] },
           boot := { s.boot with awk := none, opkeys := [] }, otp := { s.otp with wrapGen := s.otp.wrapGen + 1 } }

theorem State.opkeyValid_only (s : State) : ∃ regs, s.opkeyValid = { s with regs := regs } := State.setFld_only ⟨_, rfl⟩ ..

theorem State.showOtp_only (s : State) : ∃ regs, s.showOtp = { s with regs := regs } :=
  State.setFld_only (State.setFlag_only (State.setFld_only (State.setFld_only (State.setFld_only ⟨_, rfl⟩ ..) ..) ..) ..) ..

theorem State.ordered_showOtp {s : State} (h : s.Ordered) : s.showOtp.Ordered :=
  State.ordered_setFld (State.ordered_setFlag (State.ordered_setFld (State.ordered_setFld (State.ordered_setFld h ..) ..) ..) ..) ..

theorem State.runUnlock_unlocks {s : State} (hg : s.otp.wrapGen < 16) (h : s.pair.head ∈ [.boot, .fawn, .fenced, .thermalHold]) (ho : s.Ordered) :
    ∃ u regs, s.runUnlock = (0, u) ∧ u = { s.keysCleared with regs := regs } ∧ u.flag dieB Reg.BOOT_CTRL_JTAG_EN = true := by
  obtain ⟨v, hv⟩ : ∃ v, v = s.keysCleared.opkeyValid.showOtp := ⟨_, rfl⟩
  have hrun : s.runUnlock = (0, v.setFlag dieB Reg.BOOT_CTRL_JTAG_EN true) := by
    rw [hv]
    refine (if_neg (by omega)).trans (if_neg ?_)
    simp only [List.mem_cons, List.not_mem_nil, or_false] at h
    obtain h | h | h | h := h <;> simp [h]
  have hvo : v.Ordered := hv ▸ State.ordered_showOtp (State.ordered_setFld ho ..)
  obtain ⟨r1, h1⟩ := s.keysCleared.opkeyValid_only
  obtain ⟨r2, h2⟩ := s.keysCleared.opkeyValid.showOtp_only
  obtain ⟨r3, h3⟩ := State.setFlag_only (s := v) ⟨_, rfl⟩ dieB Reg.BOOT_CTRL_JTAG_EN true
  refine ⟨_, r3, hrun, ?_, State.flag_setFlag_same hvo dieB (by decide) (by decide) true⟩
  rw [h3, hv, h2, h1]

/-! ## ACTIVATE (R609) -/

theorem State.activatable_false {s : State} (h : s.pair.head ≠ .twin ∨ s.pair.partner ≠ some .twin ∨
    ((s.norSlot (1 - s.booted)).head.state ≠ 1 ∧ (s.norSlot (1 - s.booted)).head.state ≠ 3) ∨
    ((s.norSlot (1 - s.booted)).head.state = 3 ∧ (s.norSlot s.booted).head.gen ≤ (s.norSlot (1 - s.booted)).head.gen)) :
    s.activatable = false := by
  obtain h | h | ⟨h1, h3⟩ | ⟨h3, hgen⟩ := h
  · simp [State.activatable, h]
  · simp [State.activatable, h]
  · simp [State.activatable, h1, h3]
  · simp [State.activatable, h3, hgen]

/-! ## DOMAIN_EXPORT and DOMAIN_IMPORT (R623, R624) -/

section
variable {s : State} (h : s.serves = true) (d : Nat)

theorem State.runExport_unserved (h : s.serves = false) (report row challenge : Bytes) : s.runExport d report row challenge = (4, [], s) :=
  if_pos (by simp [h])

theorem State.runImport_unserved (h : s.serves = false) (reply : Bytes) : s.runImport d reply = (4, [], s) := if_pos (by simp [h])

include h

theorem State.runExport_serves (report row challenge : Bytes) : s.runExport d report row challenge =
    if s.reportOk report row challenge = false then (2, [], s) else match s.domRec d with
      | none => (5, [], s)
      | some r => (0, padTo 1568 (Config.kemEncap (reportEk report) s.free).1 ++ kwpWrap (carryKey "VX8-XPORT" (Config.kemEncap (reportEk report)
          s.free).2 (rowSerial row)) (le 2 d ++ zeros 6 ++ padTo 32 r.icv ++ padTo 32 r.ocv), { s with free := s.free + 1 }) := by
  refine (if_neg (by simp [h])).trans ?_
  cases s.reportOk report row challenge <;> rfl

theorem State.runImport_taken (reply : Bytes) (hd : s.hasDomain d = true ∨ reply.length ≠ 1648) : s.runImport d reply = (5, [], s) :=
  (if_neg (by simp [h])).trans (if_pos (by simpa using hd))

theorem State.runImport_serves (reply : Bytes) (hd : s.hasDomain d = false) (hl : reply.length = 1648) : s.runImport d reply =
    match s.boot.awk, kwpUnwrap (carryKey "VX8-XPORT" (Config.kemDecap s.kemSeed (reply.take 1568)) s.serial) (reply.drop 1568) with
    | some awk, some pt => if pt.length ≠ 72 then (5, [], s) else
      match (s.drawGen d 0).1 with
      | none => (5, [], (s.drawGen d 0).2)
      | some g => (0, kwpWrap awk (KeyRec.mk d ((pt.drop 8).take 32) ((pt.drop 40).take 32) [g]).bytes,
          (s.drawGen d 0).2.log (.change (.domKey d (kwpWrap awk (KeyRec.mk d ((pt.drop 8).take 32) ((pt.drop 40).take 32) [g]).bytes) [0] false)))
    | _, _ => (5, [], s) := by
  refine (if_neg (by simp [h])).trans ((if_neg (by simp [hd, hl])).trans ?_)
  dsimp only
  cases s.boot.awk with
  | none => rfl
  | some awk =>
    cases kwpUnwrap (carryKey "VX8-XPORT" (Config.kemDecap s.kemSeed (reply.take 1568)) s.serial) (reply.drop 1568) with
    | none => rfl
    | some pt =>
      obtain ⟨x, u⟩ := s.drawGen d 0
      cases x <;> rfl

end

end Sys2Proof.Machine
end

section
/-! What control-plane firmware carries out (R101, R224, R235, R463, R470, R471, R474, R617, R622), on a head that serves. -/

namespace Sys2Proof.Machine

open Sys2Proof

variable {s : State} (hs : s.serves = true)
include hs

/-- A head that serves does not refuse. -/
theorem State.not_unserved : ¬ (!s.serves) = true := by simp [hs]

/-! ## Operator keys, layout, epoch and modules -/

theorem State.cpfRun_layout (w t r ev : Option Nat) : s.cpfRun (.layout w t r ev) = if r.isSome = true ∧ s.pair.head ≠ .twin then (4, s)
    else (0, s.log (.change (.layout { width := w, target := t, roster := r, evac := ev }))) :=
  (if_neg (s.not_unserved hs)).trans (if_congr (by simp) rfl rfl)

theorem State.cpfRun_epochReinit :
    s.cpfRun .epochReinit = if s.epoch = 0xFFFFFFFF then (0, s.log (.change .epochInit)) else (4, s) := by
  unfold State.cpfRun
  dsimp only
  rw [if_neg (s.not_unserved hs)]

theorem State.cpfRun_enrol (ser : Bytes) (g : Nat) (h : s.boot.awk.isSome = true ∨ ser ≠ s.serial ∨ g ≠ s.otp.wrapGen) :
    s.cpfRun (.enrolModule ser g) = (0, s.log (.change (.enrolled ser (some (match s.boot.awk with
      | some k => if ser = s.serial ∧ g = s.otp.wrapGen then s.ownCopy k
        else { wrapGen := g, awk := ((s.arr.modules.find? (ofLe ser)).filter fun m => m.wrapGen == g).bind ModuleRec.awk }
      | none => { wrapGen := g, awk := ((s.arr.modules.find? (ofLe ser)).filter fun m => m.wrapGen == g).bind ModuleRec.awk }))))) := by
  refine (if_neg (s.not_unserved hs)).trans ?_
  show s.runEnrol ser g = _
  unfold State.runEnrol
  dsimp only
  have hown : (ser == s.serial && g == s.otp.wrapGen) = decide (ser = s.serial ∧ g = s.otp.wrapGen) :=
    Bool.eq_iff_iff.2 (by simp)
  rw [hown]
  by_cases hm : ser = s.serial ∧ g = s.otp.wrapGen
  · have hawk : s.boot.awk.isSome = true := h.resolve_right fun hne => hne.elim (absurd hm.1) (absurd hm.2)
    obtain ⟨k, hk⟩ := Option.isSome_iff_exists.1 hawk
    simp only [hm, hk, and_self, decide_true, Option.isNone_some, Bool.false_and, Bool.and_false, Bool.false_eq_true, if_false, if_true]
  · cases hk : s.boot.awk with
    | none => simp only [hm, decide_false, Bool.false_and, Bool.false_eq_true, if_false, hk]
    | some k => simp only [hm, decide_false, Bool.false_and, Bool.false_eq_true, if_false]

/-! ## Namespaces -/

theorem State.cpfRun_nsCreate (kv : Bool) (blocks domain : Nat) (media : Bool) : s.cpfRun (.nsCreate kv blocks domain media) =
    match s.freeNsid with
    | none => (6, s)
    | some n => (0, s.createNs n (.fresh kv blocks domain media)) := by
  unfold State.cpfRun
  cases s.freeNsid <;> exact if_neg (s.not_unserved hs)

theorem State.cpfRun_noNamespace {k : Nat} (h : s.ns k = none) : s.cpfRun (.nsDelete k) = (5, s) ∧ s.cpfRun (.nsDisable k) = (5, s) ∧
    s.cpfRun (.nsEnable k) = (5, s) ∧ s.cpfRun (.c0Resident k) = (5, s) ∧ s.cpfRun (.snapCreate k) = (5, s) := by
  simp only [State.cpfRun, State.runC0, hs, h, Bool.not_true, Bool.false_eq_true, if_false, and_self]

section
variable {k : Nat} {x : NsRec} (h : s.ns k = some x) (hrem : x.removing = none) (hrel : x.releasing = false)
include h hrem hrel

theorem State.cpfRun_nsDelete : s.cpfRun (.nsDelete k) = if s.baseOfClone k then (5, s) else (0, s.beginRemoval k none true) := by
  simp only [State.cpfRun, hs, h, hrem, hrel, Bool.not_true, Bool.false_eq_true, if_false, Option.isSome_none, Bool.or_self, Bool.false_or]

theorem State.cpfRun_nsDisable : s.cpfRun (.nsDisable k) = (0, s.beginRemoval k none false) := by
  simp only [State.cpfRun, hs, h, hrem, hrel, Bool.not_true, Bool.false_eq_true, if_false, Option.isSome_none, Bool.or_self]

theorem State.cpfRun_nsEnable : s.cpfRun (.nsEnable k) =
    (0, ((s.setNs k { x with disabled := false }).log (.nsrec k (some { x with disabled := false }))).nsChanged k) := by
  simp only [State.cpfRun, hs, h, hrem, hrel, Bool.not_true, Bool.false_eq_true, if_false, Option.isSome_none, Bool.or_self]

theorem State.cpfRun_c0Resident : s.cpfRun (.c0Resident k) = if x.kv then (5, s) else
    (0, (({ s with ftl := { s.ftl with c0 := s.ftl.c0.erase k } } : State).setNs k { x with c0 := true }).log
      (.nsrec k (some { x with c0 := true }))) := by
  simp only [State.cpfRun, State.runC0, hs, h, hrem, hrel, Bool.not_true, Bool.false_eq_true, if_false, Option.isSome_none, Bool.or_false]

end

theorem State.cpfRun_snapCreate {k : Nat} {x : NsRec} (h : s.ns k = some x) (hrel : x.releasing = false) (hdel : x.deleting = false) :
    s.cpfRun (.snapCreate k) = if 1024 ≤ x.snaps.length ∨ 65536 ≤ s.snapCount then (6, s)
    else (0, s.putNs k { x with snaps := x.snaps.insert s.freeSnapId { epoch := s.ao.tb, state := .pending, side := s.side } }) := by
  by_cases hfull : 1024 ≤ x.snaps.length ∨ 65536 ≤ s.snapCount
  · simp [State.cpfRun, State.snapCreate, hs, h, hrel, hdel, hfull]
  · simp [State.cpfRun, State.snapCreate, hs, h, hrel, hdel, hfull]

/-! ## Snapshots and clones -/

theorem State.cpfRun_noSnapshot {i : Nat} (h : s.findSnap i = none) (ro : Bool) :
    s.cpfRun (.snapDelete i) = (5, s) ∧ s.cpfRun (.cloneCreate i ro) = (5, s) := by
  simp only [State.cpfRun, State.snapDelete, State.runClone, hs, h, Bool.not_true, Bool.false_eq_true, if_false, and_self]

section
variable {i k : Nat} {n : NsRec} {x : Snap} (h : s.findSnap i = some (k, n, x))
include h

theorem State.cpfRun_unready (hx : x.state ≠ .ready) (ro : Bool) : s.cpfRun (.snapDelete i) = (5, s) ∧ s.cpfRun (.cloneCreate i ro) = (5, s) := by
  simp [State.cpfRun, State.snapDelete, State.runClone, hs, h, hx]

theorem State.cpfRun_snapDelete (hx : x.state = .ready) : s.cpfRun (.snapDelete i) = if s.hasClone k i then (5, s)
    else (0, (s.putNs k { n with snaps := n.snaps.insert i { x with state := .deleting, side := s.side } }).snapNext k) := by
  by_cases hc : s.hasClone k i = true <;> simp [State.cpfRun, State.snapDelete, hs, h, hx, hc]

theorem State.cpfRun_cloneCreate (hx : x.state = .ready) (hdel : n.deleting = false) (hrel : n.releasing = false) (ro : Bool) :
    s.cpfRun (.cloneCreate i ro) = match s.freeNsid with
      | none => (6, s)
      | some j => (0, s.createNs j
          { NsRec.fresh n.kv n.blocks n.domain n.mediaDur with base := some (k, i), readOnly := ro, root := n.root, index := n.index }) := by
  refine (if_neg (s.not_unserved hs)).trans ?_
  show s.runClone i ro = _
  unfold State.runClone
  rw [h]
  refine (if_neg (by simp [hx, hdel, hrel])).trans ?_
  cases s.freeNsid <;> rfl

end

/-! ## Sessions -/

theorem State.cpfRun_replRefused {f a : Nat} (r : Bool) (h : s.variant.sides ≤ f ∨ s.readDesc a = none) :
    s.cpfRun (.replCreate f a r) = (5, s) := by
  refine (if_neg (s.not_unserved hs)).trans ?_
  show s.runReplCreate f a r = _
  unfold State.runReplCreate
  split
  · rfl
  next hf => rw [h.resolve_left hf]

theorem State.cpfRun_replCreate {f a : Nat} {d : SessDesc} (r : Bool) (hf : f < s.variant.sides) (hd : s.readDesc a = some d)
    (hn : (s.ns d.nsid).isSome = true) : s.cpfRun (.replCreate f a r) =
      if (s.sessCreate f a).fld (dieF f) Reg.PGT_SESSRES_ERR = 0 then (0, if r then (s.sessCreate f a).markReplica d.nsid true else s.sessCreate f a)
      else (if (s.sessCreate f a).fld (dieF f) Reg.PGT_SESSRES_ERR = 1 then 6 else 5, s.sessCreate f a) := by
  refine (if_neg (s.not_unserved hs)).trans ?_
  show s.runReplCreate f a r = _
  unfold State.runReplCreate sessRes
  rw [if_neg (by omega), hd]
  dsimp only
  rw [if_neg (by simp [Option.isNone_iff_eq_none, Option.isSome_iff_ne_none.1 hn])]
  by_cases h0 : (s.sessCreate f a).fld (dieF f) Reg.PGT_SESSRES_ERR = 0
  · simp only [h0, if_true]
  · rw [if_neg h0, if_neg h0, if_neg]
    split <;> decide

theorem State.cpfRun_replEnd (f k : Nat) : s.cpfRun (.replEnd f k) = match s.sess (sessKey f k) with
    | none => (5, s)
    | some x => (0, (s.sessDestroy f k).markReplica x.d.nsid false) :=
  if_neg (s.not_unserved hs)

/-! ## Domains -/

theorem State.cpfRun_keyless (d : Nat) (h : s.boot.awk = none) : s.cpfRun (.domainCreate d) = (5, s) ∧ s.cpfRun (.keyRotate d) = (5, s) := by
  simp only [State.cpfRun, State.runDomain, State.runRotate, hs, h, Bool.not_true, Bool.false_eq_true, if_false, and_self]

section
variable {awk : Bytes} (h : s.boot.awk = some awk) (d : Nat)
include h

theorem State.cpfRun_domainCreate : s.cpfRun (.domainCreate d) = if s.hasDomain d then (5, s) else match (s.newRec d).1 with
    | none => (5, (s.newRec d).2)
    | some r => (0, (s.newRec d).2.log (.change (.domKey d (kwpWrap awk r.bytes) [0] false))) := by
  refine (if_neg (s.not_unserved hs)).trans ?_
  show s.runDomain d = _
  unfold State.runDomain
  rw [h]
  obtain ⟨r, u⟩ := s.newRec d
  cases r <;> rfl

theorem State.cpfRun_keyRotate : s.cpfRun (.keyRotate d) = match s.domRec d with
    | none => (5, s)
    | some r => if s.domPending d then (5, s) else if 4 ≤ r.gens.length then (6, s) else match s.nextGenOf r with
      | none => (6, s)
      | some n => match (s.drawGen d n).1 with
        | none => (5, (s.drawGen d n).2)
        | some g => (0, ((s.drawGen d n).2.useGen d n).log
            (.change (.domKey d (kwpWrap awk { r with gens := r.gens ++ [g] }.bytes) ((r.gens ++ [g]).map KeyGen.gen) true))) := by
  refine (if_neg (s.not_unserved hs)).trans ?_
  show s.runRotate d = _
  unfold State.runRotate State.rotateTo
  rw [h]
  cases s.domRec d <;> rfl

end

end Sys2Proof.Machine
end

section
/-! Every role command has its effect: the two parts together. -/

namespace Sys2Proof.Machine

open Sys2Proof

/-- Settles O57: what management firmware carries out itself, and what control-plane firmware carries out on a head that serves. -/
theorem roleCommandsHaveTheirEffects : Obligations.RoleCommandsHaveTheirEffects := by
  unfold Obligations.RoleCommandsHaveTheirEffects
  refine ⟨fun s e => ?_, fun s e => ⟨rfl, s.length_calRow⟩, fun s e took => ?_, fun s e => ?_, fun s e => ?_, fun s => State.activatable_false,
    fun s e => ?_, fun s e => ?_, fun s e d report row reply => ?_, fun s hs => ?_⟩
  · obtain ⟨t, hissue, hchallenges, honly⟩ := s.issueChallenge_reads
    refine ⟨t, ?_, length_padTo _ _, hchallenges, honly⟩
    simp only [State.mfwRun, hissue]
  · refine ⟨fun hl => ?_, fun hl => ?_, rfl⟩
    · exact congrArg (fun x : Nat × State => (x.1, ([] : Bytes), x.2)) (if_pos hl)
    · obtain ⟨hinst, hres, hlock⟩ := State.runInstall_unlocked hl (keyDigest e.pub) took
      refine ⟨fun i hi => ?_, ?_, ?_⟩
      · exact (congrArg (fun l => l.getD i 0) hinst).trans (s.otp.getD_programmed _ _ hi)
      · exact hres.trans (by rw [← hinst]; rfl)
      · exact hlock.trans (by rw [← hinst]; rfl)
  · exact ⟨fun h => congrArg (fun x : Nat × State => (x.1, ([] : Bytes), x.2)) (if_pos h),
      fun h => congrArg (fun x : Nat × State => (x.1, ([] : Bytes), x.2)) (if_neg (by simp [h]))⟩
  · refine (?_ : s.mfwRun e .activate = ((s.runActivate).1, [], (s.runActivate).2)).trans ?_
    · rfl
    · unfold State.runActivate
      cases s.activatable <;> rfl
  · refine ⟨fun h => ?_, fun t ht hage hst => ?_, ?_⟩
    · exact congrArg (fun x : Nat × State => (x.1, ([] : Bytes), x.2)) (State.runResume_hot h)
    · obtain ⟨u, hrun, hu⟩ := State.runResume_resumes ht hage hst
      exact ⟨u, congrArg (fun x : Nat × State => (x.1, ([] : Bytes), x.2)) hrun, hu⟩
    · exact if_congr (by simp) rfl rfl
  · refine ⟨fun h => ?_, fun hg h => ?_, fun hg h ho => ?_⟩
    · exact congrArg (fun x : Nat × State => (x.1, ([] : Bytes), x.2)) (State.runUnlock_spent h)
    · exact congrArg (fun x : Nat × State => (x.1, ([] : Bytes), x.2)) (State.runUnlock_serving hg h)
    · obtain ⟨u, regs, hrun, hu, hflag⟩ := State.runUnlock_unlocks hg h ho
      refine ⟨u, congrArg (fun x : Nat × State => (x.1, ([] : Bytes), x.2)) hrun, ?_, ?_, ?_, ?_, ?_, ?_, ?_, ?_, ?_, ?_, hflag, ?_⟩ <;>
        rw [hu] <;> rfl
  · refine ⟨fun ht hso => ?_, fun hs => ⟨State.runExport_serves hs d report row e.challenge, State.runImport_taken hs d reply,
      State.runImport_serves hs d reply⟩⟩
    have hs : s.serves = false := s.serves_eq_false.2 ⟨ht, hso⟩
    exact ⟨State.runExport_unserved d hs report row e.challenge, State.runImport_unserved d hs reply⟩
  · refine ⟨fun k x => ⟨if_neg (s.not_unserved hs), if_neg (s.not_unserved hs)⟩, fun w t ev => ?_, fun w t r ev => ?_,
      State.cpfRun_epochReinit hs, if_neg (s.not_unserved hs), fun l => if_neg (s.not_unserved hs), fun ser => if_neg (s.not_unserved hs),
      fun kv blocks domain media => (State.cpfRun_nsCreate hs ..).trans (by cases s.freeNsid <;> rfl),
      fun k => State.cpfRun_noNamespace hs, fun k x h hrem hrel => ?_,
      fun i ro h => State.cpfRun_noSnapshot hs h ro, fun i ro k n x h => ?_, fun f a r => State.cpfRun_replRefused hs r,
      fun f a r d hf hd hn => State.cpfRun_replCreate hs r hf hd hn, fun f k h => ?_, fun f k x h => ?_, fun d => State.cpfRun_keyless hs d,
      fun d awk h => ⟨State.cpfRun_domainCreate hs h d, State.cpfRun_keyRotate hs h d⟩, State.cpfRun_enrol hs⟩
    · exact (State.cpfRun_layout hs w t none ev).trans (if_neg (by simp))
    · refine (State.cpfRun_layout hs w t (some r) ev).trans ?_
      by_cases ht : s.pair.head = .twin
      · rw [if_neg (by simp [ht]), if_pos ht]
      · rw [if_pos (by simp [ht]), if_neg ht]
    · exact ⟨State.cpfRun_nsDelete hs h hrem hrel, State.cpfRun_nsDisable hs h hrem hrel, State.cpfRun_nsEnable hs h hrem hrel,
        State.cpfRun_c0Resident hs h hrem hrel, State.cpfRun_snapCreate hs h hrel⟩
    · exact ⟨fun hx => State.cpfRun_unready hs h hx ro, State.cpfRun_snapDelete hs h,
        fun hx hdel hrel => (State.cpfRun_cloneCreate hs h hx hdel hrel ro).trans (by cases s.freeNsid <;> rfl)⟩
    · exact (State.cpfRun_replEnd hs f k).trans (by rw [h])
    · exact (State.cpfRun_replEnd hs f k).trans (by rw [h])

end Sys2Proof.Machine
end

section
/-! Messages cut into words, and words put together again. -/

namespace Sys2Proof

/-- The bytes of the number that a string holds are the string, filled with zeros. -/
theorem le_ofLe : ∀ (n : Nat) (l : Bytes), l.length ≤ n → le n (ofLe l) = l ++ zeros (n - l.length)
  | 0, l, h => by rw [List.length_eq_zero_iff.1 (Nat.le_zero.1 h)]; rfl
  | n + 1, [], _ => by
    rw [le_succ]
    exact congrArg _ (le_ofLe n [] (Nat.zero_le n))
  | n + 1, b :: l, h => by
    have hb : (b.toNat + 256 * ofLe l) / 256 = ofLe l := by have := b.isLt; omega
    have hlow : BitVec.ofNat 8 (b.toNat + 256 * ofLe l) = b := BitVec.eq_of_toNat_eq (by rw [BitVec.toNat_ofNat]; have := b.isLt; omega)
    rw [le_succ, ofLe, hb, hlow, le_ofLe n l (Nat.le_of_succ_le_succ h), List.length_cons, Nat.add_sub_add_right]
    rfl

/-- Word `k` of a string. -/
def mbWord (l : Bytes) (k : Nat) : Nat := ofLe ((l.drop (8 * k)).take 8)

theorem mbWord_lt (l : Bytes) (k : Nat) : mbWord l k < 2 ^ 64 := by
  have h : 256 ^ ((l.drop (8 * k)).take 8).length ≤ 256 ^ 8 := Nat.pow_le_pow_right (by omega) (List.length_take_le ..)
  have := ofLe_lt ((l.drop (8 * k)).take 8)
  unfold mbWord
  omega

theorem mbWord_succ (l : Bytes) (k : Nat) : mbWord l (k + 1) = mbWord (l.drop 8) k := by
  rw [mbWord, mbWord, List.drop_drop, Nat.mul_succ, Nat.add_comm]

/-- The words of a string, one after another, give the string back. -/
theorem take_flatMap_mbWord (l : Bytes) : ((List.range ((l.length + 7) / 8)).flatMap fun k => le 8 (mbWord l k)).take l.length = l := by
  obtain ⟨c, hc⟩ : ∃ c, c = (l.length + 7) / 8 := ⟨_, rfl⟩
  rw [← hc]
  induction c generalizing l with
  | zero => rw [List.length_eq_zero_iff.1 (show l.length = 0 by omega)]; rfl
  | succ c ih =>
    have htail := ih (l.drop 8) (by rw [List.length_drop]; omega)
    have hhead : le 8 (mbWord l 0) = l.take 8 ++ zeros (8 - (l.take 8).length) := le_ofLe 8 (l.take 8) (List.length_take_le ..)
    rw [List.range_succ_eq_map, List.flatMap_cons, List.flatMap_map, hhead]
    simp only [Nat.succ_eq_add_one, mbWord_succ]
    by_cases h : 8 ≤ l.length
    · have hlen : (l.take 8).length = 8 := by rw [List.length_take]; omega
      rw [hlen, Nat.sub_self, zeros, List.replicate_zero, List.append_nil, List.take_append, hlen, ← List.length_drop, htail,
        List.take_of_length_le (by omega), List.take_append_drop]
    · rw [List.take_of_length_le (by omega : l.length ≤ 8), List.append_assoc, List.take_left' rfl]

theorem ceil_pred {n m : Nat} (hn : 0 < n) (hm : 0 < m) : (m + (n - 1)) / n = (m - n + (n - 1)) / n + 1 := by
  by_cases h : n ≤ m
  · rw [← Nat.add_div_right _ hn]
    congr 1
    omega
  · rw [show m + (n - 1) = m - 1 + n by omega, Nat.add_div_right _ hn, Nat.div_eq_of_lt (by omega : m - 1 < n),
      Nat.div_eq_of_lt (by omega : m - n + (n - 1) < n)]

theorem piecesAux_eq {n : Nat} (hn : 0 < n) (fuel : Nat) (l : Bytes) (h : (l.length + (n - 1)) / n ≤ fuel) :
    piecesAux n fuel l = (List.range ((l.length + (n - 1)) / n)).map fun k => (l.drop (n * k)).take n := by
  induction fuel generalizing l with
  | zero => rw [Nat.le_zero.1 h]; rfl
  | succ fuel ih =>
    cases l with
    | nil =>
      have hz : (n - 1) / n = 0 := Nat.div_eq_of_lt (by omega)
      simp [piecesAux, hz]
    | cons b l =>
      have hc := ceil_pred hn (m := (b :: l).length) (Nat.succ_pos _)
      rw [hc] at h ⊢
      rw [← List.length_drop] at h ⊢
      rw [List.range_succ_eq_map, List.map_cons, List.map_map, piecesAux, if_neg (by simp), ih _ (Nat.le_of_succ_le_succ h)]
      refine congrArg₂ _ rfl (List.map_congr_left fun k _ => ?_)
      rw [Function.comp_apply, List.drop_drop, Nat.mul_succ, Nat.add_comm]

end Sys2Proof
end

section
/-! Mailboxes and their messages (R639, R640). -/

namespace Sys2Proof.Machine

open Sys2Proof

theorem toWords_eq (l : Bytes) : toWords l = (List.range ((l.length + 7) / 8)).map fun k => BitVec.ofNat 64 (mbWord l k) := by
  unfold toWords pieces
  rw [piecesAux_eq (by omega) _ _ (show (l.length + 7) / 8 ≤ l.length / 8 + 1 by omega), List.map_map]
  rfl

/-- What a message's bytes write. -/
def mbFlds (m : Nat) (l : Bytes) : List (Fld × Nat) := (List.range ((l.length + 7) / 8)).map fun k => (mbData m k, mbWord l k)

theorem State.writeMb_eq (s : State) (m : Nat) {l : Bytes} (h : l.length ≤ 4096) : s.writeMb m l = s.setFlds dieB (mbFlds m l) := by
  have hzip : List.zip (List.range 512) (toWords l) = (List.range ((l.length + 7) / 8)).map fun k => (k, BitVec.ofNat 64 (mbWord l k)) := by
    rw [toWords_eq]
    refine List.ext_getElem (by simp; omega) fun i hi hj => by simp
  unfold State.writeMb
  rw [hzip]
  unfold State.setFlds mbFlds
  rw [List.foldl_map, List.foldl_map]
  simp only [BitVec.toNat_ofNat, Nat.mod_eq_of_lt (mbWord_lt _ _)]

/-- LEN, TARGET and FULL of a mailbox. -/
def mbCtrl (m len target : Nat) : List (Fld × Nat) :=
  [(Reg.MPX_MB_LEN.plus (8 * m), len), (Reg.MPX_MB_TARGET.plus (8 * m), target), (Reg.MPX_MB_FULL.plus (8 * m), 1)]

/-- A message fills its mailbox: the fields it writes, and the interrupt of a mailbox below 8. -/
theorem State.sendMb_eq (s : State) (m target type : Nat) {body : Bytes} (h : body.length ≤ 4080) {l : Bytes}
    (hl : l = le 2 type ++ zeros 2 ++ le 4 s.thm.mbSeq ++ le 8 s.thm.mbSeq ++ body) : ∃ u : State,
      u = ({ s with thm := { s.thm with mbSeq := s.thm.mbSeq + 1 } } : State).setFlds dieB (mbFlds m l ++ mbCtrl m l.length target) ∧
      s.sendMb m target type body = if m < 8 then u.raiseMb (target % 32) else u := by
  refine ⟨_, rfl, ?_⟩
  have hlen : l.length ≤ 4096 := by rw [hl]; simp [zeros]; omega
  unfold State.sendMb
  dsimp only
  rw [← hl, State.writeMb_eq _ _ hlen, State.setFlds_append]
  rfl

theorem mbData_off (m k : Nat) : (mbData m k).off = 0x10000 + m * 0x1000 + 8 * k := rfl

theorem mem_mbCtrl_off {m len target : Nat} {x : Fld × Nat} (h : x ∈ mbCtrl m len target) : x.1.off = 8 * m := by
  simp only [mbCtrl, List.mem_cons, List.not_mem_nil, or_false] at h
  obtain rfl | rfl | rfl := h <;> exact Nat.zero_add _

theorem mem_mbFlds {m : Nat} {l : Bytes} {x : Fld × Nat} (h : x ∈ mbFlds m l) :
    ∃ k, k < (l.length + 7) / 8 ∧ (mbData m k, mbWord l k) = x := by
  simpa [mbFlds] using h

section
variable {m : Nat} (hm : m < 16) {l : Bytes} (h : l.length ≤ 4096)
include hm h

/-- The fields that a message writes share no bit. -/
theorem mbFlds_clear (target : Nat) : (mbFlds m l ++ mbCtrl m l.length target).Pairwise fun x y => Fld.Clear x.1 y.1 := by
  refine List.pairwise_append.2 ⟨List.pairwise_map.2 ?_, ?_, fun x hx y hy => .inr ?_⟩
  · refine List.Pairwise.imp_of_mem (fun {k j} hk hj hlt => .inr ?_) List.pairwise_lt_range
    rw [List.mem_range] at hk hj
    simp only [mbData_off]
    omega
  · have hbase : [Reg.MPX_MB_LEN, Reg.MPX_MB_TARGET, Reg.MPX_MB_FULL].Pairwise Fld.Clear := by decide
    refine List.pairwise_map.1 (?_ : ([Reg.MPX_MB_LEN, Reg.MPX_MB_TARGET, Reg.MPX_MB_FULL].map (·.plus (8 * m))).Pairwise Fld.Clear)
    refine List.pairwise_map.2 (hbase.imp_of_mem fun {f g} hf hg hfg => hfg.plus (by omega) ?_ ?_)
    · exact (by decide : ∀ f ∈ [Reg.MPX_MB_LEN, Reg.MPX_MB_TARGET, Reg.MPX_MB_FULL], f.off < 2 ^ 22) f hf
    · exact (by decide : ∀ f ∈ [Reg.MPX_MB_LEN, Reg.MPX_MB_TARGET, Reg.MPX_MB_FULL], f.off < 2 ^ 22) g hg
  · obtain ⟨k, hk, rfl⟩ := mem_mbFlds hx
    simp only [mem_mbCtrl_off hy, mbData_off]
    omega

end

/-- What a message writes lies in the registers of its mailbox. -/
theorem mbFlds_off {m target : Nat} {l : Bytes} (h : l.length ≤ 4096) {x : Fld × Nat} (hx : x ∈ mbFlds m l ++ mbCtrl m l.length target) :
    x.1.off = 8 * m ∨ 0x10000 + m * 0x1000 ≤ x.1.off ∧ x.1.off < 0x10000 + (m + 1) * 0x1000 := by
  obtain hx | hx := List.mem_append.1 hx
  · obtain ⟨k, hk, rfl⟩ := mem_mbFlds hx
    simp only [mbData_off]
    omega
  · exact .inl (mem_mbCtrl_off hx)

theorem State.raiseMb_only (s : State) (target : Nat) : ∃ irq out, s.raiseMb target = { s with hrd := { s.hrd with irq := irq }, out := out } := by
  unfold State.raiseMb
  split <;> exact ⟨_, _, rfl⟩

theorem State.raiseMb_irq (s : State) (target : Nat) :
    (s.raiseMb target).hrd.irq.getD target false = if target / 4 < s.variant.tiles then true else s.hrd.irq.getD target false := by
  unfold State.raiseMb
  split
  · exact SMap.getD_putD (show true ≠ false by decide) s.hrd.irq target
  · rfl

section
variable {s : State} (ho : s.Ordered) {m : Nat} (hm : m < 16) {l : Bytes} (h : l.length ≤ 4096) (target : Nat)
include ho hm h

/-- The mailbox that a message fills is FULL, and holds the message. -/
theorem State.mb_filled : let u := s.setFlds dieB (mbFlds m l ++ mbCtrl m l.length target)
    u.mbFull m = true ∧ u.readMb m = l := by
  have hread : ∀ f v, (f, v) ∈ mbFlds m l ++ mbCtrl m l.length target → f.lo + f.w ≤ 64 →
      (s.setFlds dieB (mbFlds m l ++ mbCtrl m l.length target)).fld dieB f = v % 2 ^ f.w :=
    fun f v hf hw => State.fld_setFlds ho (mbFlds_clear hm h target) hf hw
  generalize s.setFlds dieB (mbFlds m l ++ mbCtrl m l.length target) = u at hread
  have hlen : u.fld dieB (Reg.MPX_MB_LEN.plus (8 * m)) = l.length := by
    rw [hread (Reg.MPX_MB_LEN.plus (8 * m)) l.length (by simp [mbCtrl]) (show Reg.MPX_MB_LEN.lo + Reg.MPX_MB_LEN.w ≤ 64 by decide),
      show (Reg.MPX_MB_LEN.plus (8 * m)).w = 13 from rfl]
    omega
  have hword : ∀ k, k < (l.length + 7) / 8 → u.fld dieB (mbData m k) = mbWord l k := fun k hk =>
    (hread _ _ (List.mem_append_left _ (List.mem_map.2 ⟨k, List.mem_range.2 hk, rfl⟩)) (Nat.le_refl 64)).trans
    (Nat.mod_eq_of_lt (mbWord_lt l k))
  refine ⟨?_, ?_⟩
  · exact beq_iff_eq.2 (hread _ 1 (by simp [mbCtrl]) (show Reg.MPX_MB_FULL.lo + Reg.MPX_MB_FULL.w ≤ 64 by decide))
  · unfold State.readMb
    dsimp only
    rw [hlen, Nat.min_eq_right (by omega)]
    refine Eq.trans (congrArg _ (List.flatMap_congr fun k hk => ?_)) (take_flatMap_mbWord l)
    rw [hword k (List.mem_range.1 hk)]

/-- The other mailboxes stay as they were. -/
theorem State.mb_others {n : Nat} (hn : n < 16) (hne : n ≠ m) : let u := s.setFlds dieB (mbFlds m l ++ mbCtrl m l.length target)
    u.mbFull n = s.mbFull n ∧ u.readMb n = s.readMb n := by
  have hkeep : ∀ f : Fld, (f.off = 8 * n ∨ 0x10000 + n * 0x1000 ≤ f.off ∧ f.off < 0x10000 + (n + 1) * 0x1000) →
      (s.setFlds dieB (mbFlds m l ++ mbCtrl m l.length target)).fld dieB f = s.fld dieB f := fun f hf =>
    ((KeepsFld.refl s).setFlds (fun x hx => .inr (by have := mbFlds_off h hx; omega)) ho).2
  generalize s.setFlds dieB (mbFlds m l ++ mbCtrl m l.length target) = u at hkeep
  refine ⟨?_, ?_⟩
  · unfold State.mbFull State.flag
    rw [hkeep _ (.inl (Nat.zero_add _))]
  · unfold State.readMb
    dsimp only
    rw [hkeep _ (.inl (Nat.zero_add _))]
    refine congrArg _ (List.flatMap_congr fun k hk => ?_)
    rw [hkeep _ (.inr (by have := List.mem_range.1 hk; rw [mbData_off]; omega))]

end

theorem State.mbFull_congr {s t : State} (h : t.regs = s.regs) (hv : t.variant = s.variant) (m : Nat) : t.mbFull m = s.mbFull m :=
  State.flag_congr h hv dieB _

theorem State.readMb_congr {s t : State} (h : t.regs = s.regs) (hv : t.variant = s.variant) (m : Nat) : t.readMb m = s.readMb m := by
  unfold State.readMb
  simp only [State.fld_congr h hv]

/-- A message sent: its mailbox holds it, the others stay, and a mailbox below 8 interrupts the target's cluster if the head has it. -/
theorem State.sendMb_reads {s : State} (ho : s.Ordered) {m : Nat} (hm : m < 16) (target type : Nat) {body : Bytes} (hb : body.length ≤ 4080) :
    let t := s.sendMb m target type body
    t.mbFull m = true ∧ t.readMb m = le 2 type ++ zeros 2 ++ le 4 s.thm.mbSeq ++ le 8 s.thm.mbSeq ++ body ∧ t.thm.mbSeq = s.thm.mbSeq + 1 ∧
    t.mem = s.mem ∧ t.boot = s.boot ∧ (∀ n, n < 16 → n ≠ m → t.mbFull n = s.mbFull n ∧ t.readMb n = s.readMb n) ∧
    t.hrd.irq.getD (target % 32) false = (if m < 8 ∧ target % 32 / 4 < s.variant.tiles then true else s.hrd.irq.getD (target % 32) false) := by
  obtain ⟨l, hl⟩ : ∃ l, l = le 2 type ++ zeros 2 ++ le 4 s.thm.mbSeq ++ le 8 s.thm.mbSeq ++ body := ⟨_, rfl⟩
  obtain ⟨u, hu, hsend⟩ := s.sendMb_eq m target type hb hl
  have hlen : l.length ≤ 4096 := by rw [hl]; simp [zeros]; omega
  obtain ⟨v, hv⟩ : ∃ v : State, v = { s with thm := { s.thm with mbSeq := s.thm.mbSeq + 1 } } := ⟨_, rfl⟩
  have hvr : v.regs = s.regs := by rw [hv]
  have hvv : v.variant = s.variant := by rw [hv]
  have hvo : v.Ordered := by unfold State.Ordered; rw [hvr]; exact ho
  rw [← hv] at hu
  obtain ⟨hfull, hmsg⟩ := State.mb_filled hvo hm hlen target
  have hothers := fun n hn hne => State.mb_others hvo hm hlen target (n := n) hn hne
  obtain ⟨regs, hregs⟩ := v.setFlds_only dieB (mbFlds m l ++ mbCtrl m l.length target)
  rw [← hu] at hfull hmsg hregs
  simp only [← hu, State.mbFull_congr hvr hvv, State.readMb_congr hvr hvv] at hothers
  obtain ⟨irq, out, ht⟩ : ∃ irq out, s.sendMb m target type body = { u with hrd := { u.hrd with irq := irq }, out := out } := by
    rw [hsend]
    split
    · exact u.raiseMb_only _
    · exact ⟨_, _, rfl⟩
  have hirq : (s.sendMb m target type body).hrd.irq.getD (target % 32) false =
      if m < 8 ∧ target % 32 / 4 < s.variant.tiles then true else s.hrd.irq.getD (target % 32) false := by
    have hui : u.hrd = s.hrd := by rw [hregs, hv]
    have huv : u.variant = s.variant := by rw [hregs, hv]
    rw [hsend]
    by_cases h8 : m < 8
    · simp only [h8, if_true, true_and, State.raiseMb_irq, hui, huv]
    · simp only [h8, if_false, false_and, hui]
  have hfields : (s.sendMb m target type body).thm.mbSeq = s.thm.mbSeq + 1 ∧ (s.sendMb m target type body).mem = s.mem ∧
      (s.sendMb m target type body).boot = s.boot := by
    rw [ht, hregs, hv]
    exact ⟨rfl, rfl, rfl⟩
  have htr : (s.sendMb m target type body).regs = u.regs := by rw [ht]
  have htv : (s.sendMb m target type body).variant = u.variant := by rw [ht]
  obtain ⟨hseq, hmem, hboot⟩ := hfields
  refine ⟨?_, ?_, hseq, hmem, hboot, fun n hn hne => ?_, hirq⟩
  · exact (State.mbFull_congr htr htv m).trans hfull
  · exact (State.readMb_congr htr htv m).trans (hmsg.trans hl)
  · obtain ⟨hf, hr⟩ := hothers n hn hne
    exact ⟨(State.mbFull_congr htr htv n).trans hf, (State.readMb_congr htr htv n).trans hr⟩

end Sys2Proof.Machine
end

section
/-! The start: the choice of a slot, its image's checks, and the register entries of a configuration (R597, R602, R603, R607). -/

namespace Sys2Proof.Machine

open Sys2Proof

/-! ## The choice of a slot (R607) -/

@[simp] theorem State.showReason_norSlot (s : State) (k r j : Nat) : (s.showReason k r).norSlot j = s.norSlot j := by
  simp only [State.norSlot, State.showReason, State.setFld_nor]

/-- What the boot ROM sees: the headers of the slots whose devices can be read. -/
def State.romHdr (s : State) (x : StartIn) (k : Nat) : Option SlotHdr := if (if k = 0 then x.nor0 else x.nor1) then (s.norSlot k).hdr else none

/-- The reasons of both slots are shown. -/
def State.romShown (s : State) (x : StartIn) : State :=
  (s.showReason 0 (((s.romHdr x 0).map SlotHdr.reason).getD 0)).showReason 1 (((s.romHdr x 1).map SlotHdr.reason).getD 0)

@[simp] theorem State.romHdr_romShown (s : State) (x : StartIn) (k : Nat) : (s.romShown x).romHdr x k = s.romHdr x k := by
  simp only [State.romHdr, State.romShown, State.showReason_norSlot]

theorem any_state_iff {h : Option SlotHdr} {st : Nat} : (h.any fun h => h.state == st) = true ↔ h.map SlotHdr.state = some st := by
  cases h <;> simp

/-- A header that the boot ROM sees is its slot's. -/
theorem State.head_of_romHdr {s : State} {x : StartIn} {k : Nat} {h : SlotHdr} (hk : s.romHdr x k = some h) : (s.norSlot k).head = h := by
  obtain ⟨-, hhdr⟩ := Option.ite_none_right_eq_some.1 hk
  rw [NorSlot.head, hhdr, Option.getD_some]

theorem State.romShown_eq (v : State) (x : StartIn) :
    [0, 1].foldl (fun s k => s.showReason k (((s.romHdr x k).map SlotHdr.reason).getD 0)) v = v.romShown x := by
  simp only [List.foldl_cons, List.foldl_nil, State.romShown, State.romHdr, State.showReason_norSlot]

section
variable {s v : State} {x : StartIn} (hv : (((s.setFlag dieB Reg.PWR_STATUS_PWR_GOOD true).railsUp [dieB]).finishErase).showOtp = v)
include hv

/-- The boot ROM's choice, from what it sees. -/
theorem State.bootRom_eq : s.bootRom x =
    match [0, 1].find? fun k => ((v.romHdr x k).any fun h => h.state == 2) && (v.romHdr x k).any fun h => decide (0 < h.tries) with
    | some k => ((v.romShown x).writeHdr k { (v.norSlot k).head with tries := (v.norSlot k).head.tries - 1 }).startSlot x k true
    | none =>
      let w := ([0, 1].filter fun k => (v.romHdr x k).any fun h => h.state == 2).foldl
        (fun s k => s.writeHdr k { (s.norSlot k).head with state := 4, reason := 7 }) (v.romShown x)
      match ((w.romHdr x 0).any fun h => h.state == 3), ((w.romHdr x 1).any fun h => h.state == 3) with
      | true, true => w.startSlot x (if (w.norSlot 0).head.gen < (w.norSlot 1).head.gen then 1 else 0) false
      | true, false => w.startSlot x 0 false
      | false, true => w.startSlot x 1 false
      | false, false => w.setPhase .waitImage := by
  have hnor : ∀ k, (v.romShown x).norSlot k = v.norSlot k := fun k => by
    simp only [State.romShown, State.showReason_norSlot]
  simp only [← hnor, ← v.romHdr_romShown x]
  rw [← State.romShown_eq, ← hv]
  rfl

/-- A TRIAL slot with tries left is taken first, slot A before slot B. -/
theorem State.bootRom_trial {k : Nat} {h : SlotHdr} (hk : k < 2) (hhdr : v.romHdr x k = some h) (hst : h.state = 2) (htries : 0 < h.tries)
    (hfirst : k = 1 → ¬ ∃ g, v.romHdr x 0 = some g ∧ g.state = 2 ∧ 0 < g.tries) :
    s.bootRom x = ((v.romShown x).writeHdr k { h with tries := h.tries - 1 }).startSlot x k true := by
  have htake : ∀ j, (((v.romHdr x j).any fun h => h.state == 2) && (v.romHdr x j).any fun h => decide (0 < h.tries)) = true ↔
      ∃ g, v.romHdr x j = some g ∧ g.state = 2 ∧ 0 < g.tries := fun j => by
    cases v.romHdr x j <;> simp
  have hfind : [0, 1].find? (fun k => ((v.romHdr x k).any fun h => h.state == 2) && (v.romHdr x k).any fun h => decide (0 < h.tries)) = some k := by
    have htaken := (htake k).2 ⟨h, hhdr, hst, htries⟩
    obtain rfl | rfl : k = 0 ∨ k = 1 := by omega
    · exact List.find?_cons_of_pos htaken
    · refine (List.find?_cons_of_neg ?_).trans (List.find?_cons_of_pos ?_)
      · exact mt (htake 0).1 (hfirst rfl)
      · exact htaken
  rw [State.bootRom_eq hv, hfind, ← State.head_of_romHdr hhdr]


/-- Without a TRIAL slot the ACTIVE ones count. -/
theorem State.bootRom_settled (h0 : ¬ (v.romHdr x 0).map SlotHdr.state = some 2) (h1 : ¬ (v.romHdr x 1).map SlotHdr.state = some 2) :
    s.bootRom x = match ((v.romHdr x 0).any fun h => h.state == 3), ((v.romHdr x 1).any fun h => h.state == 3) with
    | true, true => (v.romShown x).startSlot x (if (v.norSlot 0).head.gen < (v.norSlot 1).head.gen then 1 else 0) false
    | true, false => (v.romShown x).startSlot x 0 false
    | false, true => (v.romShown x).startSlot x 1 false
    | false, false => (v.romShown x).setPhase .waitImage := by
  have hno0 : ((v.romHdr x 0).any fun h => h.state == 2) = false := Bool.eq_false_iff.2 (mt any_state_iff.1 h0)
  have hno1 : ((v.romHdr x 1).any fun h => h.state == 2) = false := Bool.eq_false_iff.2 (mt any_state_iff.1 h1)
  have hnor : ∀ k, (v.romShown x).norSlot k = v.norSlot k := fun k => by
    simp only [State.romShown, State.showReason_norSlot]
  rw [State.bootRom_eq hv]
  simp only [List.find?_cons, List.find?_nil, List.filter_cons, List.filter_nil, List.foldl_nil, hno0, hno1, Bool.false_and, Bool.false_eq_true,
    if_false, State.romHdr_romShown, hnor]

section
variable (h0 : ¬ (v.romHdr x 0).map SlotHdr.state = some 2) (h1 : ¬ (v.romHdr x 1).map SlotHdr.state = some 2)
include h0 h1

theorem State.bootRom_waits (k0 : ¬ (v.romHdr x 0).map SlotHdr.state = some 3) (k1 : ¬ (v.romHdr x 1).map SlotHdr.state = some 3) :
    s.bootRom x = (v.romShown x).setPhase .waitImage := by
  rw [State.bootRom_settled hv h0 h1, Bool.eq_false_iff.2 (mt any_state_iff.1 k0), Bool.eq_false_iff.2 (mt any_state_iff.1 k1)]

theorem State.bootRom_slotA (k0 : (v.romHdr x 0).map SlotHdr.state = some 3) (k1 : ¬ (v.romHdr x 1).map SlotHdr.state = some 3) :
    s.bootRom x = (v.romShown x).startSlot x 0 false := by
  rw [State.bootRom_settled hv h0 h1, any_state_iff.2 k0, Bool.eq_false_iff.2 (mt any_state_iff.1 k1)]

theorem State.bootRom_slotB (k0 : ¬ (v.romHdr x 0).map SlotHdr.state = some 3) (k1 : (v.romHdr x 1).map SlotHdr.state = some 3) :
    s.bootRom x = (v.romShown x).startSlot x 1 false := by
  rw [State.bootRom_settled hv h0 h1, Bool.eq_false_iff.2 (mt any_state_iff.1 k0), any_state_iff.2 k1]

end

/-- Of two ACTIVE slots the one of higher GEN is taken. -/
theorem State.bootRom_higherGen {a b : SlotHdr} (ha : v.romHdr x 0 = some a) (hb : v.romHdr x 1 = some b) (h3a : a.state = 3) (h3b : b.state = 3) :
    s.bootRom x = (v.romShown x).startSlot x (if a.gen < b.gen then 1 else 0) false := by
  have k0 : (v.romHdr x 0).map SlotHdr.state = some 3 := by rw [ha, Option.map_some, h3a]
  have k1 : (v.romHdr x 1).map SlotHdr.state = some 3 := by rw [hb, Option.map_some, h3b]
  rw [State.bootRom_settled hv (by simp [k0]) (by simp [k1]), any_state_iff.2 k0, any_state_iff.2 k1, State.head_of_romHdr ha, State.head_of_romHdr hb]

end

/-! ## A chosen slot (R603, R607) -/

theorem State.startSlot_eq (s : State) (x : StartIn) (k : Nat) (trial : Bool) {h : SlotHdr} (hh : (s.norSlot k).head = h) {b : Bytes}
    (hb : (s.norSlot k).image 1 h.mfwLen = b) {u v m w : State}
    (hu : (s.setFld dieB Reg.BOOT_STATUS_SLOT k).setFlag dieB Reg.BOOT_STATUS_TRIAL trial = u) (hv : u.setFlag dieB Reg.BOOT_STATUS_FCR_OK true = v)
    {bad : Nat} (hbad : v.imgReason 1 h.mfwLen b [] (x.tapFaults.contains 1) = bad)
    (hm : (v.measure 0 b).setFld dieB Reg.BOOT_SVN_MFW (imgSvn b) = m)
    (hw : ({ m with boot := { m.boot with makerPub := imgPub b, record := m.decisionRecord k [imgSvn ((s.norSlot k).image 1 (h.lenOf 1)),
      imgSvn ((s.norSlot k).image 2 (h.lenOf 2)), imgSvn ((s.norSlot k).image 3 (h.lenOf 3))] } } : State).mfwRuns = w) :
    s.startSlot x k trial = if shapeOk 1 h.mfwLen b = false then u.rejectSlot k 1 else if u.imgKeyOk 1 b = false then u.rejectSlot k 2
      else if u.rowOk (imgPub b) = false then u.setPhase .rowFailed else if bad ≠ 0 then v.rejectSlot k bad
      else if w.otp.instLock = false then w.setPhase .uninstalled else if w.ao.tripLatched then w.setPhase .tripWait else w.startRest x := by
  unfold State.startSlot
  dsimp only
  simp only [hh, hb, hu, hv, hbad, hm, hw, Bool.not_eq_true']

theorem State.imgReason_eq (s : State) (kind len : Nat) (b meas : Bytes) (tap : Bool) : s.imgReason kind len b meas tap =
    if shapeOk kind len b = false then 1 else if s.imgKeyOk kind b = false then 2 else if tap then 6
    else if sigOk (imgPub b) (imgCtx kind) (b.take (imgSigned b)) (imgSig b) = false then 2 else if imgSvn b < s.otp.minOf kind then 3
    else if leAt b 6 1 / 2 ^ s.variant.bit % 2 = 0 then 4 else if kind = 2 ∧ approves b meas = false then 5 else 0 := by
  simp only [State.imgReason, Bool.not_eq_true', Bool.and_eq_true, decide_eq_true_eq]

/-! ## A start (R603) -/

section
variable {s u : State} {x : StartIn} (hu : ({ s with pins := { s.pins with sysRstN := true } } : State) = u)
include hu

theorem State.start_closed (h : s.norWindow = false) : s.start x = u := by
  subst hu
  have hw : State.norWindow { s with pins := { s.pins with sysRstN := true } } = false := h
  exact if_pos (by rw [hw, Bool.not_false, Bool.or_true])

theorem State.start_goes (hb : s.pair.head = .boot) (hp : s.ao.bPower = true) (hh : s.ao.hold = false) (hd : s.ao.dump = none)
    (hw : s.norWindow = true) (hph : s.boot.phase = .idle ∨ s.boot.phase = .resumed) :
    s.start x = if s.boot.phase = .resumed then u.startRest x else u.bootRom x := by
  subst hu
  have hwin : State.norWindow { s with pins := { s.pins with sysRstN := true } } = true := hw
  have hcan : State.canStart { s with pins := { s.pins with sysRstN := true } } = true := by
    obtain h | h := hph <;> simp [State.canStart, hb, hp, hh, hd, h]
  exact if_neg (by rw [hwin, hcan]; decide)

end

/-! ## Register entries (R602) -/

theorem State.regInit_undecoded (s : State) {addr : Nat} (v m : Nat) (h : s.decodeCsr addr 8 = none) :
    s.regInit (addr, v, m) = s.event dieB 0x01 0 noInst := by
  simp only [State.regInit, h]

theorem State.regInit_decoded (s : State) {addr die blk off : Nat} {r : RegDesc} (v m : Nat) (h : s.decodeCsr addr 8 = some (die, blk, off, r))
    (hw : s.windowKey die blk off = none) : s.regInit (addr, v, m) = if blk = 0x01 ∨ blk = 0x02 then s.event dieB 0x01 0 noInst
      else s.mfwWrite addr ((s.reg die blk off &&& ~~~BitVec.ofNat 64 m) ||| (BitVec.ofNat 64 v &&& BitVec.ofNat 64 m)) := by
  simp only [State.regInit, h, hw]

end Sys2Proof.Machine
end

section
/-! Challenges, attestation and the messages of the mailboxes (R612, R614, R618, R619, R621, R640). -/

namespace Sys2Proof.Machine

open Sys2Proof

/-! ## Challenges (R614) -/

theorem State.lapseChallenges_reads {s : State} (ho : s.Ordered) : ∃ t : State, s.lapseChallenges = t ∧
    t.boot.challenges = s.boot.challenges.filter (fun c => decide (s.ao.tb - c.2 < 600 * 10 ^ 9)) ∧
    t = { s with regs := t.regs, boot := { s.boot with challenges := t.boot.challenges } } ∧
    t.fld dieB Reg.ROLE_STATUS_CHALLENGES = t.boot.challenges.length % 2 ^ Reg.ROLE_STATUS_CHALLENGES.w := by
  obtain ⟨l, hl⟩ : ∃ l, l = s.boot.challenges.filter fun c => decide (s.ao.tb - c.2 < 600 * 10 ^ 9) := ⟨_, rfl⟩
  obtain ⟨v, hv⟩ : ∃ v : State, v = { s with boot := { s.boot with challenges := l } } := ⟨_, rfl⟩
  have hlapse : s.lapseChallenges = v.setFld dieB Reg.ROLE_STATUS_CHALLENGES l.length := by
    rw [hv, hl]
    rfl
  have hvo : v.Ordered := by rw [hv]; exact ho
  have hread := State.fld_setFld_same hvo dieB (f := Reg.ROLE_STATUS_CHALLENGES) (by decide) l.length
  obtain ⟨regs, hregs⟩ : ∃ regs, v.setFld dieB Reg.ROLE_STATUS_CHALLENGES l.length = { v with regs := regs } := State.setFld_only ⟨_, rfl⟩ ..
  have hleft : (v.setFld dieB Reg.ROLE_STATUS_CHALLENGES l.length).boot.challenges = l := by rw [hregs, hv]
  refine ⟨_, hlapse, hleft.trans hl, ?_, hread.trans (by rw [hleft])⟩
  rw [hregs, hv]

/-! ## Attestation (R612, R619) -/

section
variable {s : State} {c : Cmd} {k : Ctrl} (hk : s.host.ctrls.find? c.tag.cntlid = some k)
include hk

theorem State.adminAny_roleReply {len : Nat} (h : c.op = .roleReply len) : s.adminAny c = match k.reply with
    | none => s.finish c ⟨0, 0x0C⟩ 0
    | some r => s.answerData c (r.take (min 8192 len)) := by
  cases hr : k.reply <;> simp only [State.adminAny, hk, h, hr]

theorem State.adminAny_attestNonce {nonce : Bytes} (h : c.op = .attestNonce nonce) :
    s.adminAny c = (s.setCtrl { k with nonce := some nonce }).finish c stOk 0 := by
  simp only [State.adminAny, State.adminRun, hk, h]

theorem State.adminAny_attestReport {len : Nat} (h : c.op = .attestReport len) : s.adminAny c = match k.nonce with
    | none => s.finish c ⟨0, 0x0C⟩ 0
    | some n => if len < 5269 then s.finish c ⟨0, 0x0F⟩ 0 else (s.setCtrl { k with nonce := none }).answerData c (s.report n) := by
  cases hn : k.nonce <;> simp only [State.adminAny, hk, h, hn]

theorem State.adminAny_attestCalrow {len : Nat} (h : c.op = .attestCalrow len) :
    s.adminAny c = if len < 16384 then s.finish c ⟨0, 0x0F⟩ 0 else s.answerData c s.calRow := by
  simp only [State.adminAny, hk, h]

end

/-! ## Messages sent (R640) -/

section
variable {s : State} {m : Nat} (hm : m < 8) (hfree : s.mbFull m = false) (target : Nat)
include hm hfree

theorem execHandoff_sends (h : s.boot.phase = .loaded) : exec (.handoff m target) s =
    .next (s.sendMb m target 1 (le 8 s.variant.code ++ le 8 s.boot.herdAt ++ le 8 s.boot.cfgAt ++ le 8 s.boot.sectAt)) :=
  if_neg (by simp [h, hfree]; omega)

theorem execMailboxNotice_sends {c d v : Nat} {rest : List (Nat × Nat × Nat)} (h : s.thm.notices = (c, d, v) :: rest) :
    exec (.mailboxNotice m target) s =
      .next (({ s with thm := { s.thm with notices := rest } } : State).sendMb m target 4 (le 4 c ++ le 4 d ++ le 8 v)) := by
  show execMailboxNotice m target s = _
  unfold execMailboxNotice
  rw [h]
  exact if_pos ⟨hm, by simp [hfree]⟩

theorem execRoleReq_sends {j : RoleJob} (h : (s.boot.jobs.find? fun j => j.tag.isNone) = some j) {u : State}
    (hu : s.sendMb m target 2 (j.msg.take 4080) = u) : exec (.roleReq m target) s = .next { u with boot := { u.boot with
      jobs := u.boot.jobs.map fun x => if x = j then (if 4080 < j.msg.length then { j with msg := j.msg.drop 4080 }
        else { j with tag := some s.thm.mbSeq }) else x } } := by
  have hrest : (if (j.msg.drop 4080).isEmpty then { j with tag := some s.thm.mbSeq } else { j with msg := j.msg.drop 4080 } : RoleJob) =
      if 4080 < j.msg.length then { j with msg := j.msg.drop 4080 } else { j with tag := some s.thm.mbSeq } := by
    by_cases hl : 4080 < j.msg.length
    · rw [if_neg (by simp [hl]), if_pos hl]
    · rw [if_pos (by simp; omega), if_neg hl]
  show Host.Outcome.next (s.sendRole m target) = _
  unfold State.sendRole
  rw [h]
  dsimp only
  rw [if_neg (by simp [hfree]; omega), hrest, hu]

theorem execActivateMessage_sends (h : s.boot.activation = true) {u : State}
    (hu : ({ s with boot := { s.boot with activation := false } } : State).sendMb m target 7 (le 1 (1 - s.booted)) = u) :
    exec (.activateMessage m target) s =
      .next (if u.pair.head = .twin ∧ u.pair.giving = none then (u.give u.fps (List.range 256)).settle else u) := by
  have hb : ({ s with boot := { s.boot with activation := false } } : State).booted = s.booted := rfl
  show execActivateMessage m target s = _
  unfold execActivateMessage
  rw [if_neg (by simp [h, hfree]; omega)]
  dsimp only
  rw [hu, apply_ite Host.Outcome.next]
  simp only [Bool.and_eq_true, beq_iff_eq, Option.isNone_iff_eq_none]

end

/-! ## Messages taken (R618, R621, R228) -/

theorem execRoleDone_ends {s : State} {m tag : Nat} {b : Bytes} {t : State} (ht : s.takeMb m 3 = some (tag, b, t)) {j : RoleJob}
    (hj : (s.boot.jobs.find? fun j => j.tag == some tag) = some j) (hres : leAt b 8 1 = j.result) (hdone : s.jobDone j = true) :
    exec (.roleDone m) s = .next (State.settle (({ t with boot := { t.boot with jobs := t.boot.jobs.filter (· != j) } } : State).roleEnd
      j.src j.code j.role j.keyidx j.target j.serial j.result [])) := by
  show Host.Outcome.next (s.roleDone m).settle = _
  unfold State.roleDone
  rw [ht]
  dsimp only
  rw [hj]
  dsimp only
  rw [if_neg (by simp [hres, hdone])]

theorem execAwk_takes {s : State} {m tag : Nat} {b : Bytes} {t : State} (ht : s.takeMb m 6 = some (tag, b, t)) :
    exec (.awk m) s = .next (match kwpUnwrap t.wrapKey (b.take 40) with
      | some k => (t.setAwk k).settle
      | none => t) := by
  show execAwk m s = _
  unfold execAwk
  rw [ht]
  dsimp only
  cases kwpUnwrap t.wrapKey (b.take 40) <;> rfl

/-- Entries put into a map, one after another: those of the list have what was put there, the others stay. -/
theorem find?_foldl_insert {V : Type} (f : Nat → V) (l : List Nat) (m : SMap V) (i : Nat) :
    (l.foldl (fun m i => SMap.insert m i (f i)) m).find? i = if i ∈ l then some (f i) else SMap.find? m i := by
  induction l generalizing m with
  | nil => rfl
  | cons a l ih =>
    rw [List.foldl_cons, ih]
    by_cases hl : i ∈ l
    · rw [if_pos hl, if_pos (List.mem_cons_of_mem a hl)]
    · by_cases ha : i = a
      · subst ha
        rw [if_neg hl, if_pos List.mem_cons_self, SMap.find?_insert]
      · rw [if_neg hl, if_neg (by simp [ha, hl]), find?_insert_other m ha]

/-- OPKEYS: the digests whose valid bits are set (R621). -/
theorem execOpkeys_takes {s : State} {m tag : Nat} {b : Bytes} {t : State} (ht : s.takeMb m 5 = some (tag, b, t)) (hlen : 514 ≤ b.length) :
    ∃ u : State, exec (.opkeys m) s = .next u ∧
      (∀ i, u.boot.opkeys.find? i = if i < 16 ∧ leAt b 512 2 / 2 ^ i % 2 = 1 then some ((b.drop (32 * i)).take 32) else none) ∧
      u = { t with regs := u.regs, boot := { t.boot with opkeys := u.boot.opkeys } } := by
  obtain ⟨keys, hkeys⟩ : ∃ keys : SMap Bytes, keys = ((List.range 16).filter fun i => leAt b 512 2 / 2 ^ i % 2 == 1).foldl
    (fun l i => SMap.insert l i ((b.drop (32 * i)).take 32)) [] := ⟨_, rfl⟩
  obtain ⟨v, hv⟩ : ∃ v : State, v = { t with boot := { t.boot with opkeys := keys } } := ⟨_, rfl⟩
  have hexec : exec (.opkeys m) s = .next v.opkeyValid := by
    show execOpkeys m s = _
    unfold execOpkeys
    rw [ht]
    dsimp only
    rw [if_neg (by omega), hv, hkeys]
  obtain ⟨regs, hregs⟩ := v.opkeyValid_only
  have hop : v.opkeyValid.boot.opkeys = keys := by rw [hregs, hv]
  refine ⟨_, hexec, fun i => ?_, ?_⟩
  · rw [hop, hkeys, find?_foldl_insert]
    exact if_congr (by simp) rfl rfl
  · rw [hop, hregs, hv]

/-- The AWK is in the boot island and in the islands of every tile (R228). -/
theorem State.setAwk_reads (s : State) (k : Bytes) : (s.setAwk k).boot.awk = some k ∧
    (∀ i, i < s.variant.tiles → (s.setAwk k).dst.awk.find? i = some k) ∧ (s.setAwk k).keys = s.keys ∧ (s.setAwk k).mem = s.mem := by
  refine ⟨rfl, fun i hi => ?_, rfl, rfl⟩
  exact (find?_foldl_insert (fun _ => k) _ _ i).trans (if_pos (List.mem_range.2 hi))

/-! ## The start, attestation and the mailboxes together -/

/-- Settles O58: the start by what the boot ROM sees, the entries and replies of attestation, and the messages by their mailbox's fields. -/
theorem startAttestationAndMailboxes : Obligations.StartAttestationAndMailboxes := by
  unfold Obligations.StartAttestationAndMailboxes
  refine ⟨fun s x => ?_, fun s x => ?_, fun s x k trial => ?_, fun _ _ _ => rfl, State.imgReason_eq, fun s addr v m => s.regInit_undecoded v m,
    fun s addr v m die blk off r => s.regInit_decoded v m, fun s ho => ?_, fun s cap q len nonce c op n hq hc => ?_,
    fun s c k len nonce hk => ?_, fun s m target hm hfree => ?_, fun s m target type body ho hm hb => ?_, fun s m len target hm => if_pos hm,
    fun s m tag b t => ?_, State.setAwk_reads⟩
  · refine ⟨fun hb hp hh hd hw => ⟨fun hph => ?_, fun hph => ?_⟩, fun hw => ?_⟩
    · refine congrArg (fun t => Host.Outcome.next (State.settle t)) ?_
      exact (State.start_goes rfl hb hp hh hd hw (.inl hph)).trans (if_neg (by simp [hph]))
    · refine congrArg (fun t => Host.Outcome.next (State.settle t)) ?_
      exact (State.start_goes rfl hb hp hh hd hw (.inr hph)).trans (if_pos hph)
    · exact congrArg (fun t => Host.Outcome.next (State.settle t)) (State.start_closed rfl hw)
  · obtain ⟨v, hv⟩ : ∃ v, (((s.setFlag dieB Reg.PWR_STATUS_PWR_GOOD true).railsUp [dieB]).finishErase).showOtp = v := ⟨_, rfl⟩
    rw [hv]
    refine ⟨fun k h hk ⟨g, hg, hst, htr⟩ hfirst hh => ?_, State.bootRom_waits hv, State.bootRom_slotA hv, State.bootRom_slotB hv,
      fun a b ha hb => State.bootRom_higherGen hv ha hb⟩
    cases hh.symm.trans hg
    exact State.bootRom_trial hv hk hh hst htr hfirst
  · exact State.startSlot_eq s x k trial rfl rfl rfl rfl rfl rfl rfl
  · obtain ⟨t, hlapse, h⟩ := State.lapseChallenges_reads ho
    exact ⟨t, congrArg Host.Outcome.next hlapse, h⟩
  · simp only [List.mem_cons, List.not_mem_nil, or_false, Prod.mk.injEq] at hc
    obtain ⟨rfl, rfl, rfl⟩ | ⟨rfl, rfl, rfl⟩ | ⟨rfl, rfl, rfl⟩ | ⟨rfl, rfl, rfl⟩ := hc <;>
      exact congrArg (fun t => Host.Outcome.next (State.settle t)) (State.adminCmd_of_takes hq ..)
  · exact ⟨State.adminAny_roleReply hk, State.adminAny_attestNonce hk, State.adminAny_attestReport hk, State.adminAny_attestCalrow hk⟩
  · exact ⟨execHandoff_sends hm hfree target, fun c d v rest => execMailboxNotice_sends hm hfree target,
      fun j hj => execRoleReq_sends hm hfree target hj rfl, fun h => execActivateMessage_sends hm hfree target h rfl⟩
  · exact State.sendMb_reads ho hm target type hb
  · exact ⟨fun ht j hj hres hdone => execRoleDone_ends ht hj hres hdone, execOpkeys_takes, execAwk_takes⟩

end Sys2Proof.Machine
end

section
/-! Sensors, warnings, trips and throttling (R641 to R646). -/

namespace Sys2Proof.Machine

open Sys2Proof

/-! ## What the sensor hub holds of a die -/

section
variable {s : State} (h : s.thm.dies.rising = true)
include h

theorem State.dieTemp_setTemp_same (die : Nat) (d : DieTemp) : (s.setTemp die d).dieTemp die = d := SMap.getD_putD_same_of_rising h die d _

theorem State.dieTemp_setTemp_ne {die x : Nat} (hx : x ≠ die) (d : DieTemp) : (s.setTemp die d).dieTemp x = s.dieTemp x :=
  SMap.getD_putD_ne_of_rising h hx d _

theorem State.rising_setTemp (die : Nat) (d : DieTemp) : (s.setTemp die d).thm.dies.rising = true := SMap.rising_putD h die d _

end

/-! ## Samples (R641) -/

/-- `t` differs from `s` in what the sensor hub holds of the dies alone. -/
def TempsOnly (s t : State) : Prop := ∃ dies, t = { s with thm := { s.thm with dies := dies } }

theorem TempsOnly.refl (s : State) : TempsOnly s s := ⟨_, rfl⟩

theorem TempsOnly.setTemp {s t : State} (h : TempsOnly s t) (die : Nat) (d : DieTemp) : TempsOnly s (t.setTemp die d) := by
  obtain ⟨_, rfl⟩ := h
  exact ⟨_, rfl⟩

/-- Stacks report under numbers from 32 up: what is held of the dies stays. -/
theorem State.stackTemps_keeps {s : State} (h : s.thm.dies.rising = true) (vals : List (Nat × Int)) :
    TempsOnly s (s.stackTemps vals) ∧ (s.stackTemps vals).thm.dies.rising = true ∧ ∀ die, die < 24 → (s.stackTemps vals).dieTemp die = s.dieTemp die := by
  refine List.foldlRecOn (motive := fun t => TempsOnly s t ∧ t.thm.dies.rising = true ∧ ∀ die, die < 24 → t.dieTemp die = s.dieTemp die) vals _
    ⟨.refl s, h, fun _ _ => rfl⟩ fun t ht v _ => ?_
  obtain ⟨honly, hrise, hkeep⟩ := ht
  split
  next hv =>
    exact ⟨honly.setTemp _ _, State.rising_setTemp hrise _ _,
      fun die hd => (State.dieTemp_setTemp_ne hrise (by omega) _).trans (hkeep die hd)⟩
  next => exact ⟨honly, hrise, hkeep⟩

/-- What a ring-oscillator sample makes of what is held of a die. -/
def roSample (vals : List (Nat × Int)) (die : Nat) (d : DieTemp) : DieTemp :=
  match sampleOf vals die with
  | some v => { d with ro := v }
  | none => d

/-- A sample taken twice holds the same. -/
theorem roSample_roSample (vals : List (Nat × Int)) (die : Nat) (d : DieTemp) : roSample vals die (roSample vals die d) = roSample vals die d := by
  unfold roSample
  cases sampleOf vals die <;> rfl

/-- Enter the sample of a die. -/
def State.roEnter (vals : List (Nat × Int)) (s : State) (die : Nat) : State :=
  match sampleOf vals die with
  | some v => s.setTemp die { s.dieTemp die with ro := v }
  | none => s

theorem State.roEnter_reads {s : State} (h : s.thm.dies.rising = true) (vals : List (Nat × Int)) (die : Nat) :
    TempsOnly s (State.roEnter vals s die) ∧ (State.roEnter vals s die).thm.dies.rising = true ∧
    ∀ x, (State.roEnter vals s die).dieTemp x = if x = die then roSample vals die (s.dieTemp die) else s.dieTemp x := by
  unfold State.roEnter roSample
  cases sampleOf vals die with
  | none => exact ⟨.refl s, h, fun x => (ite_eq_right_iff.2 fun hx => by rw [hx]).symm⟩
  | some v =>
    refine ⟨(TempsOnly.refl s).setTemp _ _, State.rising_setTemp h _ _, fun x => ?_⟩
    by_cases hx : x = die
    · subst hx
      rw [if_pos rfl]
      exact State.dieTemp_setTemp_same h x _
    · rw [if_neg hx]
      exact State.dieTemp_setTemp_ne h hx _

theorem TempsOnly.trans {s t u : State} (h : TempsOnly s t) (k : TempsOnly t u) : TempsOnly s u := by
  obtain ⟨_, rfl⟩ := h
  obtain ⟨_, rfl⟩ := k
  exact ⟨_, rfl⟩

theorem State.foldl_roEnter_reads (vals : List (Nat × Int)) (l : List Nat) {s : State} (h : s.thm.dies.rising = true) :
    TempsOnly s (l.foldl (State.roEnter vals) s) ∧
    ∀ x, (l.foldl (State.roEnter vals) s).dieTemp x = if x ∈ l then roSample vals x (s.dieTemp x) else s.dieTemp x := by
  induction l generalizing s with
  | nil => exact ⟨.refl s, fun x => (if_neg List.not_mem_nil).symm⟩
  | cons a l ih =>
    obtain ⟨honly, hrise, hread⟩ := State.roEnter_reads h vals a
    obtain ⟨hrest, hreads⟩ := ih hrise
    refine ⟨honly.trans hrest, fun x => (hreads x).trans ?_⟩
    rw [hread x]
    by_cases hx : x = a
    · subst hx
      rw [if_pos rfl, if_pos List.mem_cons_self, roSample_roSample, ite_self]
    · rw [if_neg hx]
      exact if_congr (by simp [hx]) rfl rfl

/-- A ring-oscillator sample: every die of the head has its own, and nothing else changes. -/
theorem execRoSensorSample_reads {s : State} (h : s.thm.dies.rising = true) (vals : List (Nat × Int)) : ∃ t : State,
    exec (.roSensorSample vals) s = .next t ∧ TempsOnly s t ∧
    ∀ die, s.variant.populated die = true → die < 24 → t.dieTemp die = roSample vals die (s.dieTemp die) := by
  obtain ⟨honly, hrise, hkeep⟩ := State.stackTemps_keeps h vals
  obtain ⟨hdies, hread⟩ := State.foldl_roEnter_reads vals s.variant.dies hrise
  refine ⟨_, rfl, honly.trans hdies, fun die hp hd => ?_⟩
  have hmem : die ∈ s.variant.dies := List.mem_filter.2 ⟨List.mem_range.2 hd, hp⟩
  exact (hread die).trans ((if_pos hmem).trans (congrArg _ (hkeep die hd)))

theorem sampleOf_die {vals : List (Nat × Int)} {die : Nat} {v : Int} (hd : die < 16) (h : (vals.find? fun x => x.1 == die) = some (die, v)) :
    sampleOf vals die = some v := by
  have hstack : (vals.find? fun x => decide (16 ≤ die) && x.1 == die + 16) = none :=
    List.find?_eq_none.2 fun x _ => by simp; omega
  unfold sampleOf
  rw [h, hstack]

/-! ## Diodes (R643) -/

/-- A die at 100 °C or more during a start latches the trip again. -/
def State.hotStart (s : State) : Res :=
  if s.pair.head == .boot && s.variant.dies.any (fun die => decide (800 ≤ (s.dieTemp die).diode)) then
    .next { s with ao := { s.ao with tripLatched := true } }
  else .next s

theorem State.hotStart_eq (s : State) : s.hotStart =
    .next (if s.pair.head = .boot ∧ (s.variant.dies.any fun d => decide (800 ≤ (s.dieTemp d).diode)) = true
      then { s with ao := { s.ao with tripLatched := true } } else s) := by
  unfold State.hotStart
  rw [apply_ite Host.Outcome.next]
  exact if_congr (by simp) rfl rfl

/-- Once the diodes are read, the time since when the B-die is at or below 70 °C is kept. -/
theorem State.calm_hotStart (u : State) {c : Option Nat} (hc : (if (u.dieTemp dieB).diode ≤ 560 then some (u.thm.calmSince.getD u.ao.tb)
      else none) = c) : State.hotStart { u with thm := { u.thm with
        calmSince := if decide ((u.dieTemp dieB).diode ≤ 560) = true then some (u.thm.calmSince.getD u.ao.tb) else none } } =
    State.hotStart { u with thm := { u.thm with calmSince := c } } :=
  congrArg (fun c => State.hotStart { u with thm := { u.thm with calmSince := c } }) ((if_congr decide_eq_true_iff rfl rfl).trans hc)

section
variable {s : State} {die : Nat}

theorem State.readDiode_alone (h : s.usesRo die = false) (v : Int) : s.readDiode die v = s.setTemp die { s.dieTemp die with diode := v } :=
  if_pos (by simp [h])

variable (h : s.usesRo die = true) {v : Int}
include h

theorem State.readDiode_agrees (h1 : v - (s.dieTemp die).ro ≤ 48) (h2 : (s.dieTemp die).ro - v ≤ 48) :
    s.readDiode die v = s.setTemp die { s.dieTemp die with diode := v, apart := 0 } :=
  (if_neg (by simp [h])).trans (if_pos (by simp [h1, h2]))

variable (hapart : 48 < v - (s.dieTemp die).ro ∨ 48 < (s.dieTemp die).ro - v)
include hapart

theorem State.readDiode_apart (hn : (s.dieTemp die).apart < 2) :
    s.readDiode die v = s.setTemp die { s.dieTemp die with diode := v, apart := (s.dieTemp die).apart + 1 } :=
  (if_neg (by simp [h])).trans ((if_neg (by simp; omega)).trans (if_pos hn))

theorem State.readDiode_fallsBack (hn : 2 ≤ (s.dieTemp die).apart) : s.readDiode die v =
    (s.setTemp die { s.dieTemp die with diode := v, apart := (s.dieTemp die).apart + 1, fallback := true }).mfwEvent 0x0024
      (le 1 die ++ zeros 1 ++ le 2 (ofInt 16 v) ++ le 2 (ofInt 16 (s.dieTemp die).ro)) :=
  (if_neg (by simp [h])).trans ((if_neg (by simp; omega)).trans (if_neg (Nat.not_lt.2 hn)))

end

/-! ## Evaluations (R644, R646) -/

theorem State.evaluate_reads {s : State} (h : s.thm.dies.rising = true) (die : Nat) :
    let d := s.dieTemp die
    let e := (s.evaluate die).dieTemp die
    e.hist = (s.temp die :: d.hist).take 101 ∧ e.hot = (if 880 ≤ s.temp die then d.hot + 1 else 0) ∧ e.fast = (if 80 < e.shortRate then d.fast + 1 else 0) ∧
    e.hotAt = (if 800 ≤ s.temp die then some (d.hotAt.getD s.ao.tb) else none) ∧ e.ro = d.ro ∧ e.diode = d.diode ∧ e.apart = d.apart ∧
    (∀ x, x ≠ die → (s.evaluate die).dieTemp x = s.dieTemp x) := by
  obtain ⟨e, he, hreads⟩ : ∃ e, s.evaluate die = s.setTemp die e ∧ e.hist = (s.temp die :: (s.dieTemp die).hist).take 101 ∧
      e.hot = (if 880 ≤ s.temp die then (s.dieTemp die).hot + 1 else 0) ∧ e.fast = (if 80 < e.shortRate then (s.dieTemp die).fast + 1 else 0) ∧
      e.hotAt = (if 800 ≤ s.temp die then some ((s.dieTemp die).hotAt.getD s.ao.tb) else none) ∧ e.ro = (s.dieTemp die).ro ∧
      e.diode = (s.dieTemp die).diode ∧ e.apart = (s.dieTemp die).apart := ⟨_, rfl, rfl, rfl, rfl, rfl, rfl, rfl, rfl⟩
  obtain ⟨hhist, hhot, hfast, hhotAt, hro, hdiode, hapart⟩ := hreads
  rw [he]
  dsimp only
  rw [State.dieTemp_setTemp_same h die e]
  exact ⟨hhist, hhot, hfast, hhotAt, hro, hdiode, hapart, fun x hx => State.dieTemp_setTemp_ne h hx e⟩

theorem execThermalEvaluate_latched {s : State} (h : s.judgeHeat.ao.tripLatched = true) : exec .thermalEvaluate s = .next s.judgeHeat := if_pos h

section
variable {s u : State} (hu : s.judgeHeat = u) (h : u.ao.tripLatched = false)
include hu h

theorem execThermalEvaluate_hot {d : Nat} (hd : u.variant.dies.find? (fun d => decide (2 ≤ (u.dieTemp d).hot)) = some d) :
    exec .thermalEvaluate s = .next (u.thermalTrip 1 d) := by
  show execThermalEvaluate s = _
  unfold execThermalEvaluate
  dsimp only
  rw [hu, if_neg (by simp [h]), hd]

variable (hn : u.variant.dies.find? (fun d => decide (2 ≤ (u.dieTemp d).hot)) = none)
include hn

theorem execThermalEvaluate_fast {d : Nat} (hd : u.variant.dies.find? (fun d => decide (21 ≤ (u.dieTemp d).fast)) = some d) :
    exec .thermalEvaluate s = .next (u.thermalTrip 2 d) := by
  show execThermalEvaluate s = _
  unfold execThermalEvaluate
  dsimp only
  rw [hu, if_neg (by simp [h]), hn]
  dsimp only
  rw [hd]

theorem execThermalEvaluate_calm (hd : u.variant.dies.find? (fun d => decide (21 ≤ (u.dieTemp d).fast)) = none) :
    exec .thermalEvaluate s = .next u := by
  show execThermalEvaluate s = _
  unfold execThermalEvaluate
  dsimp only
  rw [hu, if_neg (by simp [h]), hn]
  dsimp only
  rw [hd]

end

/-! ## Warnings (R644) -/

section
variable {s : State} {f : Fld} {on : Nat → Bool} (code : Nat) (hold : Nat → Bool)

theorem State.warnFlag_standing {die : Nat} (hd : s.variant.dies.find? on = some die) (h : s.flag dieB f = true) : s.warnFlag f code on hold = s := by
  unfold State.warnFlag
  rw [hd]
  exact if_pos h

theorem State.warnFlag_enters {die : Nat} (hd : s.variant.dies.find? on = some die) (h : s.flag dieB f = false) {v u : State}
    (hv : s.setFlag dieB f true = v) (hu : v.notice code die (ofInt 16 (v.temp die)) = u) : s.warnFlag f code on hold =
      u.mfwEvent code (le 1 die ++ zeros 1 ++ le 2 (ofInt 16 (u.temp die)) ++ le 2 (ofInt 16 (u.dieTemp die).longRate)) := by
  unfold State.warnFlag
  rw [hd]
  dsimp only
  rw [if_neg (by simp [h]), hv, hu]

theorem State.warnFlag_leaves (hd : s.variant.dies.find? on = none) :
    s.warnFlag f code on hold = if s.variant.dies.any hold then s else s.setFlag dieB f false := by
  unfold State.warnFlag
  rw [hd]

end

/-! ## Trips (R646) -/

section
variable {s : State} (cause die : Nat)

theorem State.thermalTrip_twin (h : s.pair.head = .twin) :
    s.thermalTrip cause die = (((s.yield 0x05).powerDownDies).enter .thermalHold).finishTrip (s.tripRec false cause die) := by
  unfold State.thermalTrip
  rw [h]

theorem State.thermalTrip_solo (h : s.pair.head = .solo) (hd : s.ao.dump = none) :
    s.thermalTrip cause die = (s.yield 0x05).beginDump false (.thermal (s.tripRec false cause die)) := by
  unfold State.thermalTrip
  rw [h]
  exact if_neg (by simp [hd])

theorem State.thermalTrip_other (h : s.pair.head ∈ [.boot, .fawn, .fenced]) :
    s.thermalTrip cause die = (s.headReset 6).finishTrip (s.tripRec false cause die) := by
  simp only [List.mem_cons, List.not_mem_nil, or_false] at h
  unfold State.thermalTrip
  obtain h | h | h := h <;> rw [h]

end

/-! ## Throttling (R645) -/

theorem execThrottleRaise_due {s u : State} {d t : Nat} (hd : d ∈ s.variant.dies) (ht : (s.dieTemp d).hotAt = some t)
    (hage : 10 ^ 9 ≤ s.ao.tb - t)
    (hu : ({ s with thm := { s.thm with dies := s.thm.dies.mapV fun _ d => { d with hotAt := d.hotAt.map fun _ => s.ao.tb } } } : State) = u) :
    exec .throttleRaise s = .next (if s.fld dieB Reg.THM_STATUS_LEVEL < 3 then u.throttle (s.fld dieB Reg.THM_STATUS_LEVEL + 1) else u) := by
  refine (if_neg fun hnot => ?_).trans ?_
  · have hdue := List.any_eq_false.1 ((Bool.not_eq_true' _).mp hnot) d hd
    rw [ht] at hdue
    exact hdue (decide_eq_true hage)
  · subst hu
    rw [apply_ite Host.Outcome.next]
    rfl

theorem execThrottleRaise_early {s : State} (h : ∀ d ∈ s.variant.dies, ∀ t, (s.dieTemp d).hotAt = some t → s.ao.tb - t < 10 ^ 9) :
    exec .throttleRaise s = .next s := by
  refine if_pos ((Bool.not_eq_true' _).mpr (List.any_eq_false.2 fun d hd => ?_))
  cases ht : (s.dieTemp d).hotAt with
  | none => exact Bool.false_ne_true
  | some t =>
    rw [decide_eq_true_iff]
    exact Nat.not_le.2 (h d hd t ht)

theorem execThrottleLower_due {s : State} {t : Nat} (ht : s.thm.coolSince = some t) (hage : 5 * 10 ^ 9 ≤ s.ao.tb - t) {u : State}
    (hu : ({ s with thm := { s.thm with coolSince := some s.ao.tb } } : State) = u) : exec .throttleLower s =
      .next (if s.fld dieB Reg.THM_STATUS_LEVEL = 0 then u else u.throttle (s.fld dieB Reg.THM_STATUS_LEVEL - 1)) := by
  have hlevel : u.fld dieB Reg.THM_STATUS_LEVEL = s.fld dieB Reg.THM_STATUS_LEVEL := by subst hu; rfl
  show execThrottleLower s = _
  unfold execThrottleLower
  rw [ht]
  dsimp only
  rw [if_neg (show ¬ s.since t < 5 * 10 ^ 9 from Nat.not_lt.2 hage), hu, hlevel, apply_ite Host.Outcome.next]

theorem execThrottleLower_early {s : State} {t : Nat} (ht : s.thm.coolSince = some t) (hage : s.ao.tb - t < 5 * 10 ^ 9) :
    exec .throttleLower s = .next s := by
  show execThrottleLower s = _
  unfold execThrottleLower
  rw [ht]
  exact if_pos hage

/-- A change of the level: the register, the notice and the event. -/
theorem State.throttle_reads {s : State} (ho : s.Ordered) (n : Nat) {u : State} (hu : s.setFld dieB Reg.THM_STATUS_LEVEL n = u) :
    s.throttle n = (u.notice 0x22 u.hottest n).mfwEvent 0x22
      (le 1 n ++ le 1 (s.fld dieB Reg.THM_STATUS_LEVEL) ++ le 1 u.hottest ++ zeros 1 ++ le 2 (ofInt 16 (u.temp u.hottest))) ∧
    u.fld dieB Reg.THM_STATUS_LEVEL = n % 2 ^ Reg.THM_STATUS_LEVEL.w := by
  refine ⟨?_, hu ▸ State.fld_setFld_same ho dieB (by decide) n⟩
  unfold State.throttle
  dsimp only
  rw [hu]

end Sys2Proof.Machine
end

section
/-! The counters and the event recorder (R649, R650, R652, R653, R655, R656). -/

namespace Sys2Proof.Machine

open Sys2Proof

/-! ## Counters (R655, R656) -/

section
variable {s : State}

theorem execSecondsTick_unpowered (h : s.ao.bPower = false) : exec .secondsTick s = .next s := if_pos (by simp [h])

theorem execSecondsTick_counts (h : s.ao.bPower = true) (hs : s.ao.seconds < 3599) :
    exec .secondsTick s = .next { s with ao := { s.ao with seconds := s.ao.seconds + 1 } } := by
  show execSecondsTick s = _
  unfold execSecondsTick
  rw [if_neg (by simp [h]), if_pos (by omega)]

theorem execSecondsTick_hour (h : s.ao.bPower = true) (hs : s.ao.seconds = 3599) :
    exec .secondsTick s = .next { s with ao := { s.ao with seconds := 0, hours := (s.ao.hours + 1) % 2 ^ 24 } } := by
  show execSecondsTick s = _
  unfold execSecondsTick
  rw [if_neg (by simp [h]), if_neg (by omega)]

theorem State.logCounters_written (hw : s.norWindow = true) (hh : s.ao.heldCounters = []) :
    s.logCounters = { s with nor := s.nor.appendCounter s.counterEnt } :=
  if_pos (by simp [hw, hh])

theorem State.logCounters_held (h : s.norWindow = false ∨ s.ao.heldCounters ≠ []) :
    s.logCounters = { s with ao := { s.ao with heldCounters := s.ao.heldCounters ++ [s.counterEnt] } } :=
  if_neg (by obtain h | h := h <;> simp [h])

end

/-! ## The recorder (R650, R652, R653) -/

theorem execEventMessage_posts {s : State} {m tag : Nat} {b : Bytes} {t : State} (h : s.takeMb m 8 = some (tag, b, t)) :
    exec (.eventMessage m) s = .next (t.record (t.recordFrom 0xFD b)) := by
  show execEventMessage m s = _
  unfold execEventMessage
  rw [h]

section
variable {s : State} (r : EventRec)

theorem State.waits_iff : (s.evrFrozen || !s.norWindow || !s.ao.heldEvents.isEmpty) = true ↔
    s.evrFrozen = true ∨ s.norWindow = false ∨ s.ao.heldEvents ≠ [] := by
  simp [or_assoc]

theorem State.record_held (h : s.evrFrozen = true ∨ s.norWindow = false ∨ s.ao.heldEvents ≠ []) (hn : s.ao.heldEvents.length < 512) :
    s.record r = { s with ao := { s.ao with heldEvents := s.ao.heldEvents ++ [r] } } :=
  (if_pos (State.waits_iff.2 h)).trans (if_pos hn)

theorem State.record_lost (h : s.evrFrozen = true ∨ s.norWindow = false ∨ s.ao.heldEvents ≠ []) (hn : 512 ≤ s.ao.heldEvents.length) {u : State}
    (hu : s.addFld dieB Reg.EVR_LOST_HOLD_LOST 1 = u) : s.record r = { u with ao := { u.ao with lostSince := u.ao.lostSince + 1 } } := by
  have hao : u.ao = s.ao := hu ▸ State.addFld_ao ..
  rw [hao, ← hu]
  exact (if_pos (State.waits_iff.2 h)).trans (if_neg (Nat.not_lt.2 hn))

theorem State.record_written (hf : s.evrFrozen = false) (hw : s.norWindow = true) (hh : s.ao.heldEvents = []) : s.record r = s.writeEvent r :=
  if_neg (by simp [hf, hw, hh])

theorem State.writeEvent_full (h : s.flag dieB Reg.EVR_STATUS_FULL = true) : s.writeEvent r = s.addFld dieB Reg.EVR_LOST_FULL_LOST 1 := if_pos h

/-- A record in a slot below the last two: the append point goes on. -/
theorem State.writeEvent_room (ho : s.Ordered) (hf : s.flag dieB Reg.EVR_STATUS_FULL = false) (hn : s.fld dieB Reg.EVR_STATUS_NEXT < 65534) :
    s.writeEvent r = s.appendEvent r := by
  have hnext : (s.appendEvent r).fld dieB Reg.EVR_STATUS_NEXT = s.fld dieB Reg.EVR_STATUS_NEXT + 1 := by
    obtain ⟨v, hv⟩ : ∃ v : State, v = { s with nor := { s.nor with
      events := s.nor.events.insert (s.fld dieB Reg.EVR_STATUS_NEXT) (.whole { r with seq := s.nor.evSeq }), evSeq := s.nor.evSeq + 1 } } := ⟨_, rfl⟩
    have happ : s.appendEvent r = v.setFld dieB Reg.EVR_STATUS_NEXT (s.fld dieB Reg.EVR_STATUS_NEXT + 1) := by rw [hv]; rfl
    have hvo : v.Ordered := by rw [hv]; exact ho
    rw [happ, State.fld_setFld_same hvo dieB (by decide), show Reg.EVR_STATUS_NEXT.w = 17 from rfl]
    omega
  unfold State.writeEvent
  dsimp only
  rw [if_neg (by simp [hf]), if_neg]
  rw [hnext]
  unfold evSlots
  omega

end

/-! ## The open window and the thaw (R649, R653) -/

theorem State.norFlush_closed {s : State} (h : s.norWindow = false) : s.norFlush = s := if_pos (by simp [h])

theorem State.norFlush_open {s u : State} (h : s.norWindow = true) (hu : s.writeHeld = u) {room : Nat} (hroom : tripSlots - u.nor.trips.length = room)
    {n : Nor} (hn : ({ u.nor with trips := u.nor.trips ++ u.ao.heldTrips.take room } : Nor) = n) : s.norFlush =
      { u with nor := u.ao.heldCounters.foldl Nor.appendCounter n, ao := { u.ao with heldTrips := u.ao.heldTrips.drop room, heldCounters := [] } } := by
  unfold State.norFlush
  rw [if_neg (by simp [h])]
  dsimp only
  rw [hu, hroom, hn]

theorem execEvrFreezeTimeout_thaws {s : State} {t : Nat} (h : s.thm.frozenUntil = some t) (ht : t ≤ s.ao.tb) :
    exec .evrFreezeTimeout s = .next (State.writeHeld { s with thm := { s.thm with frozenUntil := none } }) := by
  show execEvrFreezeTimeout s = _
  unfold execEvrFreezeTimeout
  rw [h]
  exact if_neg (Nat.not_lt.2 ht)

theorem execEvrFreezeTimeout_early {s : State} {t : Nat} (h : s.thm.frozenUntil = some t) (ht : s.ao.tb < t) :
    exec .evrFreezeTimeout s = .next s := by
  show execEvrFreezeTimeout s = _
  unfold execEvrFreezeTimeout
  rw [h]
  exact if_pos ht

/-! ## The management plane's hardware together -/

/-- Settles O60: the samples and evaluations by what is held of each die, the throttle, the counters and the recorder by their cases. -/
theorem sensorsThrottleAndRecorder : Obligations.SensorsThrottleAndRecorder := by
  unfold Obligations.SensorsThrottleAndRecorder
  refine ⟨fun s vals h => ?_, fun vals die v hd h => sampleOf_die hd h, fun s vals => ?_, fun s die v => ?_, fun s => ?_,
    fun s die h => State.evaluate_reads h die, fun s f code on hold => ?_, fun s cause die => ?_, fun s => ?_, fun s t ht => ?_,
    fun s n ho => State.throttle_reads ho n rfl, fun s => ?_, fun s hs => ?_, fun _ _ => rfl, fun s m tag b t => execEventMessage_posts,
    fun s r => ?_, fun s r => ?_, fun s => ?_, fun s t h => ?_⟩
  · obtain ⟨t, hexec, ⟨dies, honly⟩, hreads⟩ := execRoSensorSample_reads h vals
    exact ⟨t, hexec, by rw [honly], hreads⟩
  · exact (State.calm_hotStart _ rfl).trans (State.hotStart_eq _)
  · exact ⟨fun h => State.readDiode_alone h v, fun h h1 h2 => State.readDiode_agrees h h1 h2,
      fun h ha hn => State.readDiode_apart (v := v) h ha hn, fun h ha hn => State.readDiode_fallsBack (v := v) h ha hn⟩
  · refine ⟨execThermalEvaluate_latched, fun h => ⟨fun d => execThermalEvaluate_hot rfl h, fun hn => ?_⟩⟩
    cases hf : s.judgeHeat.variant.dies.find? fun d => decide (21 ≤ (s.judgeHeat.dieTemp d).fast) with
    | none => exact execThermalEvaluate_calm rfl h hn hf
    | some d => exact execThermalEvaluate_fast rfl h hn hf
  · exact ⟨fun die => State.warnFlag_standing code hold, fun die hd h => State.warnFlag_enters code hold hd h rfl rfl,
      State.warnFlag_leaves code hold⟩
  · exact ⟨State.thermalTrip_twin cause die, State.thermalTrip_solo cause die, State.thermalTrip_other cause die⟩
  · exact ⟨fun d t hd ht hage => execThrottleRaise_due hd ht hage rfl, execThrottleRaise_early⟩
  · exact ⟨fun hage => execThrottleLower_due ht hage rfl, execThrottleLower_early ht⟩
  · exact ⟨execSecondsTick_unpowered, execSecondsTick_counts, execSecondsTick_hour⟩
  · refine ⟨fun hw hh => ?_, fun h => ?_⟩
    · exact (if_pos hs).trans (congrArg Host.Outcome.next (State.logCounters_written hw hh))
    · exact (if_pos hs).trans (congrArg Host.Outcome.next (State.logCounters_held h))
  · exact ⟨State.record_held r, fun h hn => State.record_lost r h hn rfl, State.record_written r⟩
  · exact ⟨State.writeEvent_full r, State.writeEvent_room r⟩
  · exact ⟨fun h => congrArg (fun t => Host.Outcome.next (State.settle t)) (State.norFlush_closed h),
      fun h => congrArg (fun t => Host.Outcome.next (State.settle t)) (State.norFlush_open h rfl rfl rfl)⟩
  · exact ⟨execEvrFreezeTimeout_thaws h, execEvrFreezeTimeout_early h⟩

end Sys2Proof.Machine
end
